-- ==== Sys2Proof/Word.lean ====
section
/-!
DEFINITION. The words the spec treats as bits, and the plain arithmetic on them.
-/

namespace Sys2Proof

abbrev Byte := BitVec 8
abbrev Word32 := BitVec 32
abbrev Word64 := BitVec 64

/-- A run of bytes, lowest address first (R28, R331: every multi-byte value is little-endian). -/
abbrev Bytes := List Byte

/-- The largest value of a counter (R431: counters saturate at 0xFFFF_FFFF_FFFF_FFFF). -/
def counterMax : Nat := 0xFFFFFFFFFFFFFFFF

/-- Addition that holds at `top` (R110, R431). -/
def satAdd (top a b : Nat) : Nat := min top (a + b)

/-- Bits `[hi:lo]` of a 64-bit word as a number (R6: bit 0 least significant). -/
def bitsOf (hi lo : Nat) (w : Word64) : Nat := (w.toNat / 2 ^ lo) % 2 ^ (hi + 1 - lo)

/-- Bit `i` of a 64-bit word. -/
def bitOf (i : Nat) (w : Word64) : Bool := (w.toNat / 2 ^ i) % 2 == 1

/-- Bit `i` of a number. -/
def natBit (i n : Nat) : Bool := (n / 2 ^ i) % 2 == 1

/-- A number with bit `i` set. -/
def setNatBit (i n : Nat) : Nat := if natBit i n then n else n + 2 ^ i

/-- A number with bit `i` clear. -/
def clearNatBit (i n : Nat) : Nat := if natBit i n then n - 2 ^ i else n

/-- 0 or 1 for a Boolean. -/
def boolNat (b : Bool) : Nat := if b then 1 else 0

/-- The smallest multiple of `k` at or above `n`. -/
def ceilTo (k n : Nat) : Nat := (n + k - 1) / k * k

/-- Division rounded up. -/
def ceilDiv (n k : Nat) : Nat := (n + k - 1) / k

/-- The number a little-endian run of bytes spells. -/
def leNat : Bytes → Nat
  | [] => 0
  | b :: bs => b.toNat + 256 * leNat bs

/-- `n` in `k` little-endian bytes, modulo 2^(8k). -/
def natLe : Nat → Nat → Bytes
  | 0, _ => []
  | k + 1, n => BitVec.ofNat 8 n :: natLe k (n / 256)

/-- The signed value of a two's complement code of `w` bits. -/
def signedOf (w n : Nat) : Int :=
  if n % 2 ^ w < 2 ^ (w - 1) then (n % 2 ^ w : Nat) else ((n % 2 ^ w : Nat) : Int) - (2 ^ w : Nat)

/-- The two's complement code of `w` bits of an integer. -/
def codeOf (w : Nat) (i : Int) : Nat := (i % (2 ^ w : Nat)).toNat

/-- The first `k` bytes of a run, padded with zero bytes. -/
def padTo (k : Nat) (bs : Bytes) : Bytes := (bs ++ List.replicate k 0).take k

end Sys2Proof
end

