-- ==== Sys2Proof/Syntax.lean ====
section
/-!
DEFINITION. The commands of the block: one constructor of `Instr` per row of spec/opcode_table.json.
The table gives the rows no operands and no bits; an operand here is what the outside supplies to the
step: a register value, a packet, a sensor reading, the outcome of a physical process (log entry 1).
-/

namespace Sys2Proof

/-- The two halves of the module (R9). -/
inductive Half | w | e
  deriving DecidableEq, Repr

/-- Traffic classes of the virtual channels (R252). -/
inductive PClass | request | reply | coll | mgmt
  deriving DecidableEq, Repr

/-- What an error-correcting code found in one stored word or line (R164, R169). -/
inductive Ecc | clean | corrected | uncorrectable
  deriving DecidableEq, Repr

/-- One 64-B line as it travels, with its poison bit (R14, R149). -/
structure LineData where
  bytes : Bytes
  poison : Bool
  deriving DecidableEq, Repr

/-- What a tile store read of an engine found at a line of its own slice (R164). -/
structure TstEvent where
  line : Nat
  uncorrectable : Bool
  deriving DecidableEq, Repr

/-- What a read found at one line, by its Local offset over 64 (R164, R169). -/
structure LineEvent where
  line : Nat
  e : Ecc
  deriving DecidableEq, Repr

/-- The reach of a dictionary or DOMAIN request: the route fixes the role (R336). -/
inductive Route
  | host
  | mgmt (ip port session seq : Nat)
  | monRead
  | monWrite
  deriving DecidableEq, Repr

/-- Where the bytes the module reads for a descriptor or launch block come from: its own memory, or
host memory whose answer the host supplies (R183, R452). -/
inductive Fetch
  | ownMemory
  | hostData (bytes : Bytes) (poison : Bool)
  | hostFault
  deriving DecidableEq, Repr

/-- How a stream request ended (R147, Table STR-6). -/
inductive FarOutcome
  /-- A Local far side: the module's own memory answers, with what its reads of the flat window found. For a write elsewhere: it was
  acknowledged. -/
  | done (ev : List LineEvent)
  /-- The data of host memory or of another module, line by line. -/
  | lines (ls : List LineData)
  /-- The request failed for the Table STR-6 cause; for causes 4 and 5 `lines` has bit i set for line i of the
  granule, and the other lines arrived. -/
  | fail (cause lines : Nat)
  deriving DecidableEq, Repr

/-- The engine that may make a request, and what an Out's reads of its slice find (R164). -/
structure SliceRead where
  engine : Nat
  tst : List TstEvent
  deriving DecidableEq, Repr

/-- A data port read: its bytes, and what it finds in this module's memory (R320). -/
structure PortRead where
  count : Nat
  ev : List LineEvent
  deriving DecidableEq, Repr

/-- A host access: a read of so many bytes with what it finds, or a write of bytes with the poison the link carried (R320, R321). -/
inductive HostAccess
  | read (count : Nat) (ev : List LineEvent)
  | write (bytes : Bytes) (poison : Bool)
  deriving DecidableEq, Repr

/-- A configuration request: a read of a dword, or a write of the MSI-X or ATS enable, whose registers the spec names
without an offset (R311, R316, R324). -/
inductive ConfigOp
  | read (reg : Nat)
  | msixEnable (on : Bool)
  | atsEnable (on : Bool)
  deriving DecidableEq, Repr

/-- The operations a fabric memory packet carries (Table FAB-3, Table FAB-4). -/
inductive FabOp
  | load (length : Nat)
  | store (mask : Nat) (data : Bytes) (poison : Bool)
  | atomic (op : Nat) (width64 : Bool) (age : Nat) (operand1 operand2 : Nat)
  | signal (age amount : Nat)
  deriving DecidableEq, Repr

/-- Kinds of collective packet (Table COL-5). -/
inductive CollKind | partialSum | notice | grey | result
  deriving DecidableEq, Repr

/-- The collective header and its data (Table COL-5, R300). -/
structure CollHdr where
  collId : Nat
  chunk : Nat
  segment : Nat
  position : Nat
  level : Nat
  kind : CollKind
  sender : Nat
  count : Nat
  owner : Nat
  fmt : Nat
  poisonMask : Nat
  data : List Nat
  deriving DecidableEq, Repr

/-- One report of a beacon: the chip heard, its out-fibre and line, and the reporter's in-fibre (R245). -/
structure BeaconReport where
  chip : Nat
  outFibre : Nat
  line : Nat
  inFibre : Nat
  deriving DecidableEq, Repr

/-- What a packet carries after its routing header. The spec gives the Type field no codes, so the kind
of packet is a constructor here. -/
inductive Body
  | req (offset tag : Nat) (op : FabOp)
  | rep (tag status poisonMask : Nat) (data : Bytes)
  | coll (h : CollHdr)
  | collEcho (collId : Nat)
  | mgmtMsg (data : Bytes)
  /-- A beacon report on VC0 (R225, R245). -/
  | report (r : BeaconReport)
  deriving DecidableEq, Repr

/-- A packet: the routing header of Table RTE-1 and its body. -/
structure Packet where
  dest : Nat
  src : Nat
  vc : Nat
  epoch : Nat
  resent : Bool
  mark : Bool
  echo : Bool
  mcast : Bool
  len : Nat
  seq : Nat
  pathHash : Nat
  hops : Nat
  axis : Nat
  lo : Nat
  hi : Nat
  reservedZero : Bool
  body : Body
  deriving DecidableEq, Repr

/-- A request at its target, and what its reads of this module's memory find (R164, R169, R276). -/
structure TargetRead where
  packet : Packet
  ev : List LineEvent
  deriving DecidableEq, Repr

/-- A flit of a Glefen bridge bundle (R12, R14): a 64-B line for a Local offset of the far memory fabric, or a packet for the
far router on the virtual channel it arrived on, with the link the near router chose (R257) or none for the far half's
ejection port. -/
inductive BridgeFlit
  | line (addr : Nat) (data : LineData)
  | packet (p : Packet) (link : Option Nat)
  deriving DecidableEq, Repr

/-- The LaneTag of a flit (R232). -/
structure LaneTag where
  outFibre : Nat
  line : Nat
  laneIndex : Nat
  linkId : Nat
  deriving DecidableEq, Repr

/-- A lane that a control flit names: one that the flit's sender lights, or one of the other direction. The spec lays out
no Lane field; this one tells the direction (log entry 22). -/
structure LaneRef where
  own : Bool
  idx : Nat
  deriving DecidableEq, Repr

/-- Control flit contents (Table LNK-2) and the snapshot marker flit (R434). -/
inductive Ctl
  | capability (version : Nat) (caps : Nat) (epochProto : Nat)
  | capabilityAck (agreed : Nat)
  | propose (lane fromLine toLine : Nat)
  | accept (lane : Nat)
  | rotorAbort (lane : LaneRef)
  | laneDown (lane : LaneRef) (cause : Nat)
  | laneJoin (lane seq : Nat)
  | laneLeave (lane seq : Nat)
  | greyNotice (cause : Nat)
  | marker (epoch reach : Nat)
  deriving DecidableEq, Repr

/-- What the body of a flit holds: nothing, the beginning of a packet that ends in the next flit, the packets that end in it, a
control message, or training data (R234, R236). -/
inductive FlitBody
  | idle
  | begins (vc : Nat)
  | packets (ps : List Packet)
  | control (c : Ctl)
  | training
  deriving DecidableEq, Repr

/-- A flit (Table LNK-1), with the codewords that begin in it and could not be corrected, and the symbols corrected on its lane
since the flit before (R231). -/
structure Flit where
  crcOk : Bool
  uncorrectable : Nat
  corrected : Nat
  tag : LaneTag
  switch : Bool
  phase : Bool
  flitSeq : Nat
  ackSeq : Nat
  nak : Option Nat
  creditVC : Nat
  creditCount : Nat
  body : FlitBody
  deriving DecidableEq, Repr

/-- A discovery beacon frame (Table LNK-5). -/
structure Beacon where
  crcOk : Bool
  versionMax : Nat
  versionMin : Nat
  chip : Nat
  facet : Nat
  outFibre : Nat
  line : Nat
  caps : Nat
  epochProto : Nat
  reports : List BeaconReport
  deriving DecidableEq, Repr

/-- What lane training measured (Table LNK-3, R237): the LaneTag of the training frames, whether the receiver got codeword lock,
and its figures. `serE6` is the symbol error ratio in units of 10^-6. -/
structure TrainResult where
  tag : LaneTag
  lockOk : Bool
  serE6 : Nat
  skewNs : Nat
  rttNs : Nat
  deriving DecidableEq, Repr

/-- A firmware image as the verifier finds it: fields of its header (Table SEC-1), the SHA-256 of its public key, and the
outcome of the cryptographic checks (R382). -/
structure ImageInfo where
  imageType : Nat
  keySlot : Nat
  secVersion : Nat
  fwVersion : Nat
  bodyDigest : Bytes
  /-- Magic is correct, every reserved field is 0 and BodyLength is in its range. -/
  headerOk : Bool
  keyHash : Bytes
  sigOk : Bool
  bodyOk : Bool
  deriving DecidableEq, Repr

/-- One line as a sweep of the examination measured it: its offset from R206 in MHz and its power in 0.01 dBm. -/
structure LineMeas where
  offMHz : Int
  cdBm : Int
  deriving DecidableEq, Repr

/-- What the examination of a laser input measured (R208): the total at its tap in 0.01 dBm, the 17 lines at both sweeps, the
unmodulated light found at fibres (out-fibre x as x, in-fibre k as 32 + k) in 0.01 dBm, and the out-fibres of the input
whose reverse tap shows modulated light (Table LNK-7). -/
structure LaserExam where
  tap : Int
  first : List LineMeas
  second : List LineMeas
  plain : List (Nat × Int)
  joined : List Nat
  deriving DecidableEq, Repr

/-- How the physical part of a start-up or warm-restart step ended. -/
inductive StepOutcome
  | ok
  /-- The pilot link did not train (R406). -/
  | pilotUntrained
  /-- Image verification: the images read from the chosen bank (R384). -/
  | images (is : List ImageInfo)
  /-- The rails regulate, and the hold-up bank's energy in mJ (step 4). -/
  | rails (mj : Nat)
  /-- A rail failed to regulate (R404). -/
  | railFailed (domain : Nat)
  /-- Bridge training: the wires that failed their test, as 68-bit masks by bundle (R368). -/
  | wires (failed : List (Nat × Nat))
  /-- LPDDR training: channels that did not train (R179). -/
  | channels (failed : List Nat)
  /-- Laser inputs 0 to 7 (R208). -/
  | lasers (es : List LaserExam)
  /-- Ring sweep: rings that did not lock in the first full sweep, and in the second (R222). -/
  | rings (unlocked again : List Nat)
  /-- Step 9 of a warm restart: laser inputs and ring sweep (Table BOOT-5). -/
  | reup (es : List LaserExam) (unlocked again : List Nat)
  deriving DecidableEq, Repr

/-- Clocked islands (Table BOOT-6). -/
inductive Island
  | facet (f : Nat)
  | bundle (b : Nat)
  | channel (c : Nat)
  | hostPhy
  | pilot
  | mac
  | uart
  deriving DecidableEq, Repr

/-- The commands. -/
inductive Instr
  -- One device from two halves
  | bridgeFlitReceive (bundle : Nat) (flit : BridgeFlit) (crcOk : Bool)
  | bundleRetire (bundle : Nat)
  | pilotLinkFailure
  | pilotTrainRetry (trained : Bool)
  -- Matrix arrays
  | arrayPass (nn : Nat) (tst : List TstEvent)
  | arrayRowCommit (nn : Nat) (upset : List (Nat × Nat))
  | witnessRerunDone (nn : Nat) (upset : List (Nat × Nat))
  | bankHandoff (nn : Nat)
  | arrayDescriptorComplete (nn : Nat)
  -- Vector units
  | vectorProgram (nn : Nat) (tst : List TstEvent)
  | treeMerge (nn : Nat) (tst : List TstEvent)
  | scan (nn : Nat) (tst : List TstEvent)
  | rebias (nn : Nat) (tst : List TstEvent)
  | vectorDescriptorComplete (nn : Nat)
  -- Layers
  | layerOpen (q : Nat) (list : List Fetch)
  | layerAttemptEnd (q : Nat) (list : List Fetch)
  | escalationImageCommit (r : Route) (handle : Nat) (digest : Bytes)
  -- Streams, claims, seams
  | streamStart (engine : Nat)
  | claimGrant (slice : Nat)
  | streamRequestIssue (r : SliceRead)
  | streamRequestDone (engine seq req : Nat) (o : FarOutcome)
  | seamMarker (q : Nat)
  | seamOpen (q : Nat)
  | deadlockWatchFire (slice : Nat)
  | spillCopyDone (slice : Nat)
  | spillReclaim (slice : Nat)
  | restoreCopyDone (slice : Nat)
  -- Tile store and LPDDR
  | tileStoreScrub (slice : Nat) (w0 w1 : Ecc)
  | lpddrReadComplete (package channel : Nat) (es : List Ecc)
  | lpddrWriteAccept (line mask : Nat) (data : Bytes) (poison : Bool)
  | packageTempRead (pkg : Nat) (tempC : Int)
  | channelOvertemp (ch : Nat)
  | lpddrScrubRead (ch : Nat) (es : List Ecc)
  | retrainStart (ch : Nat)
  | retrainEnd (ch : Nat) (ok : Bool)
  | softRepairStart (ch bank row : Nat)
  | softRepairEnd (ch : Nat) (resource : Bool) (bad : List Nat)
  | channelFailure (ch : Nat)
  -- Queues
  | queueLaunch (block parts : Fetch)
  | queueDestroy
  | qsyDoorbell (q : Nat) (p : Nat)
  | descriptorFetch (q : Nat) (f : Fetch)
  | descriptorIssue (half : Half)
  | qsyCmdRelease (q : Nat)
  | qsyCmdDiscard (q : Nat)
  | qsyCmdAbort (q : Nat)
  | qsyIrqWrite (q : Nat) (v : Nat)
  | cplPendingTimeout (q : Nat)
  | syncSignal (obj amount : Nat)
  | syncSet (obj value : Nat)
  | waitPoll (half : Half)
  | coreWatchdogExpire (core : Nat) (pc : Nat) (imageOk : Bool)
  | coreRestartDone (core : Nat)
  | supervisorWatchdogExpire
  -- Light
  | lightLoss (laser : Nat) (line : Option Nat)
  | lightRestore (laser : Nat) (line : Option Nat)
  | lockInReading (ring : Nat) (errMHz : Int)
  | feedForwardUpdate (ring : Nat) (sites : List Nat)
  | ringLockLoss (ring : Nat)
  | rotorStep (fibre : Nat)
  | rotorLineLocked (fibre : Nat)
  | rotorAcceptTimeout (fibre : Nat)
  | idleDropSweep (inFibre : Nat) (locked : Nat)
  | laneRecoveryEnd (ring : Nat) (found : Bool) (t : TrainResult)
  | beaconSend (fibre line : Nat)
  | beaconReceive (inFibre line : Nat) (b : Beacon)
  | mapEntryExpire (fibre line : Nat)
  | laneDemandCommit (r : Route) (handle : Nat) (digest : Bytes)
  | lineRequestSend (fibre line : Nat)
  | lineRequest (chip outFibre line inFibre : Nat)
  | lineGrant (fibre line : Nat) (t : TrainResult)
  | lineRefuse (fibre line : Nat)
  -- Links
  | flitReceive (inFibre line : Nat) (f : Flit)
  | flitResendTimeout (link flitSeq : Nat)
  | flitRetryLimit (link flitSeq : Nat)
  | linkReform (link : Nat)
  | linkRemove (link : Nat)
  | laneErrorRemoval (link lane : Nat)
  | laneTrainingDone (outgoing : Bool) (fibre line : Nat) (t : TrainResult)
  | capability (link version caps epochProto : Nat)
  | capabilityAck (link agreed : Nat)
  | propose (link lane toLine : Nat) (copyOk : Bool)
  | accept (link lane : Nat)
  | rotorAbort (link : Nat) (lane : LaneRef)
  | laneDown (link : Nat) (lane : LaneRef) (cause : Nat)
  | laneJoin (link lane flitSeq : Nat)
  | laneLeave (link lane flitSeq : Nat)
  | greyNotice (link cause : Nat)
  | intendedMapCommit (r : Route) (handle : Nat) (digest : Bytes)
  | linkQuarantineWrite (r : Route) (v : Bytes)
  -- Routing
  | packetRoute (half : Half) (id : Nat)
  | escapeWaitExpire (half : Half) (id : Nat)
  | escapeStall (half : Half) (id : Nat)
  | routeTableLoad (r : Route) (handle : Nat) (digest : Bytes)
  | epochSwitch (r : Route) (v : Bytes)
  | drainArm (r : Route) (v : Bytes)
  | epochRelease (r : Route) (v : Bytes)
  | hotWindowGrow (half : Half) (cls : PClass) (dest : Nat)
  | classWindowAdjust (half : Half) (cls : PClass) (fill : Nat)
  -- Fabric memory
  | loadRequest (p : TargetRead)
  | storeRequest (p : Packet)
  | atomicRequest (p : TargetRead)
  | remoteSignalRequest (p : Packet)
  | fabricReplyReceive (p : Packet)
  | replyTimeout (tag : Nat)
  | windowOpen
  | windowModify
  | windowClose
  | replayEntryExpire (half : Half) (src seq : Nat)
  | atomicUnitWriteback (addr : Nat)
  | rcacheInvalidate (q : Nat)
  -- Collectives
  | collQueueLaunch (block parts : Fetch)
  | collectiveIssue
  | collectiveActivate (half : Half)
  | collLocalInput (collId chunk segment : Nat)
  | collPacketReceive (p : Packet)
  | greySegmentReduce (collId level chunk segment : Nat)
  | collWatchdogExpire (collId : Nat)
  | collAbort
  | pendingEntryExpire (collId : Nat)
  | collGroupTableCommit (r : Route) (handle : Nat) (digest : Bytes)
  -- Host port
  | configRequest (c : ConfigOp)
  | mailboxUnknownCommand
  | msixUnmask (vector : Option Nat)
  | dataPortWrite (first : Nat) (bytes : Bytes) (poison : Bool)
  | dataPortRead (first : Nat) (r : PortRead)
  | bar2Access (offset : Nat) (a : HostAccess)
  | hostSnoop (addr : Nat)
  | atsInvalidation (pasid page : Nat)
  | pageResponse (pasid page : Nat)
  | cxlMemRead (x : LineEvent)
  | cxlMemWrite (line mask : Nat) (data : Bytes) (poison : Bool)
  | bisnpResponse (line : Nat)
  | bisnpTimeout (line : Nat)
  | perstNAssert
  | hotReset
  | hostLinkDown
  | functionLevelReset
  | hostQueuesDestroy
  | perstNDeassert (refclk : Bool)
  | hostLinkTrained (gen width : Nat)
  -- Dictionary and management network
  | dapFragment (ip port : Nat) (w0 w1 : Word64) (payload : Bytes) (reversed : Bool)
  | dapReassemblyTimeout (session seq : Nat)
  | dicRead (r : Route) (key : Nat)
  | dicWrite (r : Route) (key : Nat) (value : Bytes)
  | describe (r : Route) (key : Nat)
  | domainOpen (r : Route) (key dir size : Nat)
  | domainSegment (r : Route) (header data : Bytes)
  | domainCommit (r : Route) (handle : Nat) (digest : Bytes)
  | domainAbort (r : Route) (handle : Nat)
  | domainTransferTimeout (handle : Nat)
  | sessionHello (ip port seq role : Nat)
  | sessionProve (r : Route) (key signature : Bytes)
  | sessionClose (r : Route)
  | keepalive (r : Route)
  | sessionProveTimeout (session : Nat)
  | sessionIdleExpire (session : Nat)
  | authLockoutExpire
  | persistCommit (key : Nat)
  | dhcpLease (ip : Nat)
  | dhcpTimeout
  | dhcpRetry
  | plcaBeaconLoss
  | arpRequest (ip : Nat)
  | icmpEcho (ip : Nat) (payload : Bytes)
  | memHashKeyWrite (r : Route) (v : Bytes) (burnt : Bool)
  | chipNumberLockWrite (r : Route) (v : Bytes) (burnt : Bool)
  | thermalRedOverrideWrite (r : Route) (v : Bytes) (burnt : Bool)
  | lifecycleStateWrite (r : Route) (v : Bytes) (burnt : Bool)
  | antiRollbackLevelWrite (r : Route) (v : Bytes) (burnt : Bool)
  -- Power and heat
  | paleEnter (mv : Nat)
  | paleExit (mv : Nat)
  | paleLong
  | supplyReset (mv : Int)
  | auxLoss
  | converterFault (conv : Nat)
  | powerLimitOverrun
  | powerLimitRecover
  | setpointStep (half : Half) (watts : Nat)
  | commitDeferralRetry (mj : Nat)
  | holdUpFault
  | sensorReading (site : Nat) (r0 r1 : Int)
  | sensorUnflag (site sensor : Nat)
  | amberEnter (dom : Nat)
  | amberStep (dom : Nat)
  | amberExit (dom : Nat)
  | redExit (dom : Nat)
  | blackRateTrigger (site : Nat)
  | thermalAutoRestart
  | thermalRestartWrite (r : Route) (v : Bytes)
  -- Reliability
  | katRun (nn : Nat) (failedPass : Option Nat)
  | checkpointNow (r : Route) (v : Bytes)
  | checkpointQuiesced
  | checkpointQuiesceTimeout
  | checkpointCopyDone
  | checkpointRestore (r : Route) (v : Bytes)
  | warmRestartWrite (r : Route) (v : Bytes)
  | warmRestartStepDone (o : StepOutcome)
  -- Security
  | firmwareBankCommit (r : Route) (handle : Nat) (digest : Bytes)
  | firmwareProgramDone (images : List ImageInfo)
  | revokeRootKey (r : Route) (v : Bytes) (burnt : Bool)
  | attestNonceCommit (r : Route) (handle : Nat) (digest : Bytes)
  | attestationSigned
  | identityCertificateCommit (r : Route) (handle : Nat) (digest : Bytes) (certKey : Bytes)
  | debugTokenCommit (r : Route) (handle : Nat) (digest : Bytes)
  | debugLock (r : Route) (v : Bytes)
  -- Start-up, interfaces
  | auxPowerUp (straps : Nat)
  | mainInputQualified (straps : Nat)
  | railRetry
  | startupStepDone (o : StepOutcome)
  | startupOverrun
  | coldRestartWrite (r : Route) (v : Bytes)
  | crossingDrainTimeout (island : Island)
  | leakLoopSample (ohms : Nat)
  | leakDryRelease
  | flowLow (centiLpm : Nat)
  | auxEfuseTrip
  | auxEfuseRetry (clear : Bool)
  | monTxdFault
  | monRxdBreak
  | timeSourceChange (refclk : Bool)
  -- Observability and the monitor
  | snapshotTake (r : Route) (v : Bytes)
  | markerFlitReceive (link epoch reach : Nat)
  | snapshotClose
  | journalCommit
  | monHelp
  | monId
  | monState
  | monRd (key : Nat)
  | monJr (n : Nat)
  | monSnap (epoch hops : Nat)
  | monWr (key : Nat) (value : Bytes) (burnt : Bool)
  | monToken
  | monLoad (bytes : Nat) (digest : Bytes)
  | monitorBlock (data : Bytes) (good : Bool)
  | monitorTransferTimeout
  -- Rows added to the table's end
  | registerWrite (offset size value : Nat)
  | intermediateBusUp (straps : Nat)
  | auxRestore
  | dimDeferredStart (ch : Nat)
  | laneSkewHoldEnd (outgoing : Bool) (fibre line : Nat)
  | trialReadyTimeout
  | monTxdDriverRetry (clear : Bool)
  | monRxdBreakEnd
  deriving DecidableEq, Repr

end Sys2Proof
end

