-- ==== Sys2Proof/Machine/Store.lean ====
section
/-!
DEFINITION. Sparse tables: a list of (key, value) pairs with strictly rising keys, and byte memory in the
same form, where no entry holds the byte an unlisted address reads as (0: R166 and R180 write +0
everywhere at a start).
-/

namespace Sys2Proof.Machine

abbrev SMap (α : Type) := List (Nat × α)

/-- The value at a key. -/
def smGet {α : Type} : SMap α → Nat → Option α
  | [], _ => none
  | (k', v) :: r, k => if k = k' then some v else smGet r k

/-- The value at a key, or a default. -/
def smGetD {α : Type} (m : SMap α) (k : Nat) (d : α) : α := (smGet m k).getD d

/-- The table with a value put at a key. -/
def smSet {α : Type} : SMap α → Nat → α → SMap α
  | [], k, v => [(k, v)]
  | (k', v') :: r, k, v =>
    if k = k' then (k, v) :: r
    else if k < k' then (k, v) :: (k', v') :: r
    else (k', v') :: smSet r k v

/-- The table without a key. -/
def smErase {α : Type} : SMap α → Nat → SMap α
  | [], _ => []
  | (k', v') :: r, k => if k = k' then smErase r k else (k', v') :: smErase r k

/-- The table with a function applied at a key that it holds. -/
def smModify {α : Type} (m : SMap α) (k : Nat) (f : α → α) : SMap α :=
  match smGet m k with
  | some v => smSet m k (f v)
  | none => m

/-- The keys of a table. -/
def smKeys {α : Type} (m : SMap α) : List Nat := m.map Prod.fst

/-- The strictly rising form. -/
def smWf {α : Type} : SMap α → Bool
  | [] => true
  | [_] => true
  | (a, _) :: (b, v) :: r => decide (a < b) && smWf ((b, v) :: r)

/-- Byte memory: address and byte pairs. -/
abbrev Mem := List Host.Cell

/-- The byte an unlisted address reads as (R166, R180). -/
def emptyByte : Byte := 0

/-- One byte of memory. -/
def memRead (m : Mem) (a : Nat) : Byte := smGetD m a emptyByte

/-- Memory with one byte written; the byte an unlisted address reads as is not listed. -/
def memWrite (m : Mem) (a : Nat) (b : Byte) : Mem :=
  if b = emptyByte then smErase m a else smSet m a b

/-- `n` bytes from an address. -/
def memBytes (m : Mem) (a : Nat) : Nat → Bytes
  | 0 => []
  | n + 1 => memRead m a :: memBytes m (a + 1) n

/-- Memory with a run of bytes written from an address. -/
def memStore (m : Mem) (a : Nat) : Bytes → Mem
  | [] => m
  | b :: bs => memStore (memWrite m a b) (a + 1) bs

/-- Memory with the bytes of a run written whose place is set in a byte mask (R134, R276). -/
def memStoreMask (m : Mem) (a mask : Nat) : Bytes → Mem
  | [] => m
  | b :: bs => memStoreMask (if mask % 2 = 1 then memWrite m a b else m) (a + 1) (mask / 2) bs

/-- The canonical form of byte memory: strictly rising, and no entry equal to the unlisted byte. -/
def Memory.wf (m : Mem) : Bool := smWf m && m.all (fun c => c.2 != emptyByte)

/-- A set of numbers as a strictly rising list: membership. -/
def nsHas : List Nat → Nat → Bool
  | [], _ => false
  | a :: r, k => if a = k then true else nsHas r k

/-- The set with a number added. -/
def nsAdd : List Nat → Nat → List Nat
  | [], k => [k]
  | a :: r, k => if a = k then a :: r else if k < a then k :: a :: r else a :: nsAdd r k

/-- The set with a number taken out. -/
def nsDel : List Nat → Nat → List Nat
  | [], _ => []
  | a :: r, k => if a = k then nsDel r k else a :: nsDel r k

/-- The set with a number added or taken out. -/
def nsPut (ns : List Nat) (k : Nat) (b : Bool) : List Nat := if b then nsAdd ns k else nsDel ns k

/-- Strictly rising. -/
def nsWf : List Nat → Bool
  | [] => true
  | [_] => true
  | a :: b :: r => decide (a < b) && nsWf (b :: r)

/-- An item put in its place in a list that is sorted by a strict order. -/
def insertBy {α : Type} (lt : α → α → Bool) (a : α) : List α → List α
  | [] => [a]
  | b :: r => if lt b a then b :: insertBy lt a r else a :: b :: r

/-- A list sorted by a strict order; equals keep their places. -/
def sortBy {α : Type} (lt : α → α → Bool) : List α → List α
  | [] => []
  | a :: r => insertBy lt a (sortBy lt r)

/-- Numbers in rising order. -/
def sortNat (l : List Nat) : List Nat := sortBy (fun a b => decide (a < b)) l

/-- A list with a function applied at one place. -/
def modifyAt {α : Type} (l : List α) (i : Nat) (f : α → α) : List α := l.modify i f

end Sys2Proof.Machine
end

