-- ==== Sys2Proof/Machine/State.lean ====
section
/-!
DEFINITION. The state of the block: every register, buffer, counter, mode and pin the spec gives the module
(INVENTORY.md, under State, names the rule of each), the queue of waiting commands, and the faults and
refusals of a step. Numeric Dictionary objects are held in `dic` under their index.sub.
-/

namespace Sys2Proof.Machine

/-- Why a step stops. -/
inductive Fault
  /-- Raised by a meaning whose command names a part the module does not have (an array above 63, a bundle
  above 95: Table MOD-2). No wire carries such a command. Safe: the model stops. -/
  | noSuchPart
  deriving DecidableEq, Repr

/-- Why a command has no meaning. -/
inductive Refusal
  /-- Raised by an arm of `exec` whose row has no meaning yet. Safe: the model stops. -/
  | notModelled (mnemonic : String)
  deriving DecidableEq, Repr

/-! ### Events of the journal (R438) -/

/-- The events the spec says are journalled. Their numeric codes and severities stand in JournalCodes, which
the spec does not give. -/
inductive JEvent
  | bundleRetired | bridgeFailed | pilotFailed | wireFailed
  | arrayRetired | serviceWarning | katFailed
  | escalated | steppedDown | exhausted
  | deadlockSpill
  | tstRecurringWord | tstRemapped | tstSparesExhausted
  | channelHot | scrubUncorrectable | channelFailed
  | remoteSignalFailed | coreRestart | coreRestartLimit
  | laserOpen | laserReversed | laserOutOfRange | laserMode | fibresJoined | lightLost | referenceMoved
  | rotorHeld | ringRetired | lineExcluded
  | laneSkew | linkGrey | linkDark | mapMismatch | epochProtoDiffers | ownChipHeard | peerChanged | versionOneRouted
  | escapeStall | outcomeUnknown
  | recordsDropped
  | objectWritten | domainCommitted | authFailed
  | supplyReset | auxLost | converterLost | paleLong | holdUpFault
  | sensorFlagged | blackShutdown
  | checkpointFailed | warmRestart
  | bootVerifyFailed | debugUnlocked
  | startOverrun | railFailed | posIdChanged
  | mainReversed | auxEfuse | pairReversed | monTxd | monRxd | leakChanged | flowLow
  | timeSource
  deriving DecidableEq, Repr

/-- One journal entry (Table MON-3). -/
structure JEntry where
  seq : Nat
  timeNs : Nat
  boot : Nat
  alert : Bool
  event : JEvent
  args : List Nat
  deriving DecidableEq, Repr

/-! ### What the module sends outward -/

/-- A message, signal or transfer that leaves the module. -/
inductive Out
  | msix (vector : Nat)
  | hostWrite (addr : Nat) (bytes : Bytes) (poison : Bool)
  | hostRead (addr count : Nat)
  | pageRequest (pasid : Option Nat) (page : Nat)
  /-- A flit on a line of an out-fibre: words 0 and 1 of its header, the code in byte 16 of a control flit, and its body (R232,
  R235). -/
  | flit (fibre line word0 word1 code : Nat) (body : FlitBody)
  /-- Training frames on a line with their LaneTag (R236). -/
  | training (fibre line : Nat) (tag : LaneTag)
  /-- A beacon burst on a line: words 0 to 30 of its frames (Table LNK-5). -/
  | beacon (fibre line : Nat) (words : List Nat)
  | lineRequest (chip fibre line inFibre : Nat)
  | lineGrant (chip fibre line : Nat)
  | lineRefuse (chip fibre line : Nat)
  | dap (ip port session seq op status : Nat) (payload : Bytes)
  | config (value : Option Nat)
  | busData (bytes : Bytes) (poison : Bool)
  | snoopMiss (addr : Nat)
  | atsComplete (pasid page : Nat)
  | backInvalidate (line : Nat) (data : Bool)
  | arpReply (ip : Nat)
  | icmpReply (ip : Nat) (payload : Bytes)
  | dhcpDiscover
  | monitor (text : String)
  | monitorValue (key : Nat) (value : Bytes)
  | monitorStatus (status : Nat)
  | monitorEntries (es : List JEntry)
  | monitorBlock (good : Bool)
  deriving DecidableEq, Repr

/-! ### Bridge -/

/-- A flit that waits on a bundle to be sent again, with the times it has failed there in a row (R23). Each flit has its own
entry, so the virtual channels of a bundle wait apart (R13). -/
structure BridgeWait where
  bundle : Nat
  flit : BridgeFlit
  fails : Nat
  deriving DecidableEq, Repr

/-- A packet in the bridge's buffers: the link the near router chose, or none for the ejection port of the half it goes to
(R12, R257). -/
structure Crossing where
  p : Packet
  link : Option Nat
  to_ : Half
  deriving DecidableEq, Repr

/-- The Glefen bridge (01). -/
structure Bridge where
  waiting : List BridgeWait := []
  crossing : List Crossing := []
  /-- What each class may still send in its round on the router group, from half W and from half E, in hundredths of 64 B (R262). -/
  deficitW : List Nat := [0, 0, 0, 0]
  deficitE : List Nat := [0, 0, 0, 0]
  fuseWires : SMap Nat := []
  failWires : SMap Nat := []
  deriving DecidableEq, Repr

/-! ### Descriptors and their results -/

/-- A descriptor on its way through an engine: its queue (1,024 is the collective queue), DescSeq, its
sixteen words, and whether a LayerOpen issued it. -/
structure Issued where
  queue : Nat
  seq : Nat
  words : List Word64
  inLayer : Bool := false
  early : Bool := false
  /-- Issued in a variant below the top rung: its TrapOF is ignored (R124). -/
  mute : Bool := false
  deriving DecidableEq, Repr

/-- The exceptions one output tile gathers (R109), and the rest of Table VEC-15. -/
structure Result where
  status : Nat := 0
  nv : Bool := false
  ovf : Bool := false
  narSeen : Bool := false
  poisoned : Bool := false
  witness : Bool := false
  ufCount : Nat := 0
  nvCount : Nat := 0
  narCount : Nat := 0
  poisonedLines : Nat := 0
  first : Option (Nat × Nat × Nat) := none
  amax : Nat := 0
  ofCount : Nat := 0
  missesDesc : Nat := 0
  poisonedDesc : Nat := 0
  excluded : Nat := 0
  deriving DecidableEq, Repr

/-! ### Arrays and vector units -/

/-- A value of an accumulator bank with its poison tag. -/
structure BankVal where
  value : Word32
  tag : Bool
  deriving DecidableEq, Repr

/-- An entry of a comparison tree (Table ARR-15). -/
structure TreeEntry where
  value : Word32
  row : Nat
  deriving DecidableEq, Repr

/-- A comparison tree: entries best first (R89). -/
structure Tree where
  rowCount : Nat := 0
  excluded : Nat := 0
  entries : List TreeEntry := []
  deriving DecidableEq, Repr

/-- Who last wrote a bank (R96). -/
structure BankMeta where
  mode : Nat
  topK : Bool
  k : Nat
  fmt : Nat
  deriving DecidableEq, Repr

/-- Flags of one output element (R44). -/
structure ElemFlags where
  nv : Bool := false
  ovf : Bool := false
  narSeen : Bool := false
  poison : Bool := false
  deriving DecidableEq, Repr

/-- One weight register: its code, its block's scale, and whether its line was poisoned when it was loaded. -/
structure WReg where
  code : Nat := 0
  scale : Option Nat := none
  poison : Bool := false
  deriving DecidableEq, Repr

/-- The registers of one side, active or standby, of all cells, and the witness column's row sums (Table ARR-1, R63, R66): the
descriptor and the tile they were loaded for, the columns, each in increasing k (what is not listed is +0), r_k and u_k by row
group (K32 codes, or exact integers), and the steps that the pass waits for the load (R64). -/
structure WTile where
  queue : Nat
  seq : Nat
  tile : Nat
  cols : List (List WReg)
  r : List (List Int)
  u : List (List Int)
  wait : Nat := 0
  deriving DecidableEq, Repr

/-- An array descriptor in progress. -/
structure ArrayRun where
  d : Issued
  pass : Nat := 0
  row : Nat := 0
  missed : List Nat := []
  committed : Nat := 0
  handed : Nat := 0
  entered : Nat := 0
  lost : List Nat := []
  flags : SMap ElemFlags := []
  res : Result := {}
  /-- The column that the shadow column copies, and column N's own outputs by row (R95). -/
  c : Nat := 0
  shadow : SMap Nat := []
  deriving DecidableEq, Repr

/-- A handed-over bank as the vector unit reads it: element (m, n) at key 65,536 m + n. -/
structure Handoff where
  rows : Nat
  vals : SMap BankVal
  deriving DecidableEq, Repr

/-- Matrix array Ann with its banks and trees. -/
structure ArrayUnit where
  banks : List (SMap BankVal) := [[], []]
  trees : List (SMap Tree) := [[], []]
  bankMeta : List (Option BankMeta) := [none, none]
  handoff : List (Option Handoff) := [none, none]
  fifo : List Issued := []
  run : Option ArrayRun := none
  /-- The weight registers that compute, and those being loaded behind them (R50, R63). -/
  active : Option WTile := none
  standby : Option WTile := none
  /-- A descriptor whose rows are all committed and whose bank is still handed over or whose record is not written, while the
  next one runs (R71). -/
  leaving : Option ArrayRun := none
  shadow : Nat := 0
  /-- Since when the array has run without a pause, and when it last ended 10 us of running (R81). -/
  ranFrom : Option Nat := none
  ranLast : Option Nat := none
  retirePending : Bool := false
  missTimes : List Nat := []
  katFails : Nat := 0
  katSeed : Nat := 0
  katLast : Nat := 0
  deriving DecidableEq, Repr

/-- A vector unit: issued descriptors, and the one that has run and whose record is not written. -/
structure VecUnit where
  fifo : List Issued := []
  done : Option (Issued × Result) := none
  /-- A scan waits for its amax atomic (R115). -/
  amaxWait : Bool := false
  deriving DecidableEq, Repr

/-! ### Streams -/

/-- An outstanding request of a stream (R134): units `u0 .. u0 + n - 1` of one tile. `data` holds the far or
destination bytes an Out or Copy writes; `sent` says a Copy has read its source and now writes. -/
structure Req where
  id : Nat
  u0 : Nat
  n : Nat
  scale : Bool
  far : Nat
  data : List (Nat × Byte) := []
  poison : List Nat := []
  sent : Bool := false
  tag : Option Nat := none
  deriving DecidableEq, Repr

/-- A running stream descriptor. -/
structure StreamCtx where
  d : Issued
  started : Bool := false
  ready : Bool := false
  next : Nat := 0
  nextScale : Nat := 0
  nextId : Nat := 0
  reqs : List Req := []
  doneUnits : SMap Nat := []
  signalled : Nat := 0
  faultLines : List Nat := []
  poisonLines : List Nat := []
  faultTiles : List Nat := []
  firstFault : Option (Nat × Nat × Nat) := none
  causeMask : Nat := 0
  pages : List Nat := []
  pageCount : Nat := 0
  lastMove : Nat := 0
  heldAtLimit : Bool := false
  /-- The tile whose slot wait has been registered (R140). -/
  waitTile : Option Nat := none
  /-- BX8 blocks with an element in a faulted line (R148). -/
  badBlocks : List Nat := []
  deriving DecidableEq, Repr

/-- A stream engine or bulk mover. -/
structure Engine where
  ctx : List StreamCtx := []
  rr : Nat := 0
  deriving DecidableEq, Repr

/-- A claim on pages of the overflow pool (R159); `release` is the object and value of R160. -/
structure Claim where
  slice : Nat
  queue : Nat
  seq : Nat
  pages : List Nat
  since : Nat
  /-- The last request of its stream, once that has ended (R162). -/
  last : Nat := 0
  release : Option (Nat × Nat) := none
  /-- A spilled holder's range being re-claimed ahead of other waiting claims (R163). -/
  reclaim : Bool := false
  /-- Its queue was halted because the spill area could not hold a range (R163). -/
  halted : Bool := false
  deriving DecidableEq, Repr

/-- A spill in progress (R163): 0 copying out, 1 spilled, 2 copying back. -/
structure Spill where
  holder : Claim
  waiter : Nat × Nat
  stage : Nat
  bytes : List (Nat × Byte)
  poison : List Nat
  deriving DecidableEq, Repr

/-- A partition: whole granules of one slice (R157, R158). -/
structure Partition where
  queue : Nat
  slice : Nat
  first : Nat
  count : Nat
  deriving DecidableEq, Repr

/-! ### LPDDR -/

/-- What a channel must go Dim for (Table MEM-4). -/
inductive DimEvent
  | retrain
  | repair (bank row : Nat)
  deriving DecidableEq, Repr

/-- A stream's read at a channel: its first line, how many, its class, when it reached the controller, and the engine, DescSeq and
request that it serves (R167, R172). -/
structure ChRead where
  line : Nat
  n : Nat
  urgent : Bool
  since : Nat
  engine : Nat
  seq : Nat
  req : Nat
  deriving DecidableEq, Repr

/-- What a controller keeps of a row's errors: when an uncorrectable line was last found in it, and the scrub passes that found a
corrected one (Table MEM-4, R179). -/
structure RowErr where
  bank : Nat
  row : Nat
  badAt : Option Nat := none
  passes : List Nat := []
  deriving DecidableEq, Repr

/-- An LPDDR channel controller. -/
structure Chan where
  /-- The controller's read queue, at most 128 requests, oldest first, and the reads that wait for it at their engine or port (R167,
  R168). -/
  readQ : List ChRead := []
  readWait : List ChRead := []
  /-- The write queue, at most 64 lines with the time each was accepted, and the lines that wait for it (R167, R173). -/
  writeQ : List (Nat × Nat) := []
  writeWait : List Nat := []
  /-- Writes go ahead of class 2 until the queue holds 16 lines (R172). -/
  draining : Bool := false
  /-- Corrected lines still to be written back, and when the background class was last served (R169, R172). -/
  back : List Nat := []
  lastBack : Nat := 0
  rows : List RowErr := []
  /-- Requests counted for the present Dim period that are not in the queues (R176). -/
  stalledBy : List (Nat × Nat × Nat) := []
  due : List DimEvent := []
  dim : Option (DimEvent × Nat) := none
  lastDim : Option Nat := none
  trainTemp : Int := 0
  corrTimes : List Nat := []
  /-- Up to when its time in state 3 has been added to MemThrottleMs (R174). -/
  thrFrom : Option Nat := none
  hotSince : Option Nat := none
  hotTold : Bool := false
  trainFails : Nat := 0
  scrubPos : Nat := 0
  scrubPass : Nat := 0
  scrubStart : Nat := 0
  lastTrain : Nat := 0
  deriving DecidableEq, Repr

/-- A row of MemRepairList: soft-repaired, or awaiting hard repair. -/
structure Repair where
  ch : Nat
  bank : Nat
  row : Nat
  hard : Bool
  deriving DecidableEq, Repr

/-! ### Queues -/

/-- A fetched descriptor: which halves still have to issue it. -/
structure Fetched where
  seq : Nat
  words : List Word64
  inLayer : Bool := false
  todoW : Bool
  todoE : Bool
  early : Bool := false
  /-- Its tail wait has been registered: it holds once no waiter stands for it (R196, R197). -/
  waited : Bool := false
  /-- Its issue has been counted as held for ring space (R188). -/
  stalled : Bool := false
  deriving DecidableEq, Repr

/-- A seam marker that has been executed. -/
structure Seam where
  seq : Nat
  words : List Word64
  opened : Bool
  inLayer : Bool := false
  deriving DecidableEq, Repr

/-- What the queue hardware learns from a completed descriptor. -/
structure Done where
  queue : Nat
  seq : Nat
  words : List Word64
  inLayer : Bool := false
  status : Nat
  op : Nat
  engine : Nat
  /-- Summary bits without Trapped. -/
  summary : Nat
  tileM : Nat := 0
  tileN : Nat := 0
  /-- Words 2 to 7. -/
  body : List Word64
  /-- A trap condition holds (TrapNV with NV, TrapOF with OF, TrapFault with a fault). -/
  traps : Bool := false
  /-- Its Summary bits are its own flags, which QSY_EXCSUM gathers; a LayerOpen's are those of its variant. -/
  raises : Bool := true
  /-- Its tail signals; a scan's does not when its amax atomic was not applied (R115). -/
  signals : Bool := true
  deriving DecidableEq, Repr

/-- A record that waits for a slot of the completion ring (R188): its words, for a descriptor that was never issued, or the end of
an issued one, which waits with it. -/
structure Parked where
  words : List Word64 := []
  done : Option Done := none
  deriving DecidableEq, Repr

/-- A queue with its launch parameters and control page (Tables QSY-1 to QSY-4, VEC-17). -/
structure Queue where
  id : Nat
  halves : Nat
  prio : Nat
  limit : Nat
  ringLog2 : Nat
  cplLog2 : Nat
  irqVector : Nat
  ringAddr : Nat
  cplAddr : Nat
  threshold : Nat
  pasid : Option Nat := none
  prod : Nat := 0
  head : Nat := 0
  state : Nat := 1
  doorbellError : Bool := false
  signalFault : Bool := false
  schedRestarting : Bool := false
  outstanding : Nat := 0
  nv : Bool := false
  ovf : Bool := false
  uf : Bool := false
  narSeen : Bool := false
  poisoned : Bool := false
  witness : Bool := false
  trapped : Bool := false
  firstNV : Option Nat := none
  trappedCount : Nat := 0
  firstTrap : Nat := 0
  trapValid : Bool := false
  cplTail : Nat := 0
  cplHead : Nat := 0
  trapEn : Bool := false
  cplEn : Bool := false
  errEn : Bool := false
  trapPend : Bool := false
  cplPend : Bool := false
  errPend : Bool := false
  nextSeq : Nat := 0
  fetched : List Fetched := []
  withheld : List (Nat × List Word64) := []
  waitRing : List Parked := []
  /-- Whether each pending bit has sent its vector since it was set (R188). -/
  trapSent : Bool := false
  cplSent : Bool := false
  errSent : Bool := false
  /-- Doorbells written while the home half's scheduler restarts, in order (R199, R201). -/
  latched : List Nat := []
  /-- When each record that the host has not read was written (Table QSY-4). -/
  pendTimes : List Nat := []
  /-- DescSeq and array of the array descriptors issued since the last seam opened (R146). -/
  seamArrays : List (Nat × Nat) := []
  seams : List Seam := []
  deriving DecidableEq, Repr

/-- An open LayerOpen (R123). -/
structure Layer where
  queue : Nat
  seq : Nat
  words : List Word64
  start : Nat
  rung : Nat
  top : Nat
  attempts : Nat := 1
  abandoned : Nat := 0
  firstSeq : Nat := 0
  seqs : List Nat := []
  left : List Nat := []
  saved : List (Nat × Nat) := []
  summary : Nat := 0
  sawOF : Bool := false
  cut : Bool := false
  deriving DecidableEq, Repr

/-- A registered wait: table entry or polled (R197). -/
structure Waiter where
  obj : Nat
  value : Nat
  queue : Nat
  seq : Nat
  polled : Bool
  deriving DecidableEq, Repr

/-- A control core: 0 not running, 1 running, 2 restarting. -/
structure Core where
  st : Nat := 0
  restarts : List Nat := []
  deriving DecidableEq, Repr

/-! ### Light -/

/-- A laser input; `cls` is its class as last examined (Table OPT-3). -/
structure Laser where
  /-- LaserInputState as examined, to which it returns when lost light is back (R208, R209). -/
  cls : Nat := 0
  /-- Classed comb (R208), in whatever state the input is. -/
  comb : Bool := false
  dark : Bool := false
  lostLines : Nat := 0
  refFibre : Nat
  refLine : Nat := 8
  deriving DecidableEq, Repr

/-- A ring: heater code in 1/128 of a code, so that the feed-forward of R213 is exact. `sweep` is 0 for none, 1 for a restricted
sweep, 2 and 3 for the first and the second full sweep (R222). -/
structure Ring where
  code : Int := 0
  locked : Bool := false
  parked : Bool := false
  bad : Nat := 0
  fullFails : Nat := 0
  sweep : Nat := 0
  c25 : Int := 0
  alpha : Int := 0
  /-- The site of its last feed-forward and that site's temperature in 1/8 °C; none before the first (R213). -/
  ff : Option (Nat × Int) := none
  /-- Of a drop ring: the place of the next flit in its group of five, and whether the codeword that the flit before ended in
  was uncorrectable (R231). -/
  cwPos : Nat := 0
  cwBad : Bool := false
  deriving DecidableEq, Repr

/-- The rotor of an out-fibre: phase 0 idle, 1 sweeping and beaconing, 2 both rings locked,
3 copying and Propose sent. `next` is the line whose lane the step in progress moves (Table OPT-6). -/
structure Rotor where
  grey : Nat := 16
  next : Option Nat := none
  phase : Nat := 0
  lane : Option (Nat × Nat) := none
  aborts : Nat := 0
  held : Bool := false
  since : Nat := 0
  proposed : Nat := 0
  removed : Option (Nat × Nat) := none
  deriving DecidableEq, Repr

/-- A spectral map entry (Table OPT-9); `reported` is the time behind AgeMs. -/
structure MapEntry where
  chip : Nat := 0
  inFibre : Nat := 0
  valid : Bool := false
  lineState : Nat := 0
  link : Nat := 0
  lane : Nat := 0
  reported : Nat := 0
  deriving DecidableEq, Repr

/-- A LaneDemand entry (R226). -/
structure Demand where
  chip : Nat
  lanes : Nat
  prio : Nat
  deriving DecidableEq, Repr

/-- A lane recovery in progress (R222). -/
structure Recovery where
  ring : Nat
  link : Nat
  outgoing : Bool
  lane : Nat
  deriving DecidableEq, Repr

/-! ### Links -/

/-- A lane of one direction, its index that of its sender. `why` it is out of service: 0 in service; 2 lock or wrong line;
3 loss of light; 4 errors (R244); 5 rotor step on a routed fibre (R218). -/
structure Lane where
  fibre : Nat
  line : Nat
  idx : Nat
  why : Nat
  tries : Nat := 0
  phase : Bool := false
  /-- The LaneTag expected on an in-lane, as its training frames had it (R233, R236). -/
  tag : Option LaneTag := none
  /-- FlitSeqs queued on an out-lane for its next flit slots (R238). -/
  q : List Nat := []
  /-- An out-lane whose LaneJoin has been sent, if one is due (R236). -/
  told : Bool := true
  /-- An in-lane trained again that waits for LaneJoin, and the FlitSeq of a LaneJoin that came first (R236). -/
  ready : Bool := false
  joinAt : Option Nat := none
  /-- The FlitSeq from which LaneLeave says that an in-lane carries nothing (Table LNK-2). -/
  leaveAt : Option Nat := none
  /-- The times of an in-lane's last 8 uncorrectable codewords, and its symbol errors in the 10 ms that began at `serFrom` and
  in the 10 ms before (R244). -/
  badAt : List Nat := []
  serFrom : Nat := 0
  serNow : Nat := 0
  serLast : Nat := 0
  /-- The line an in-lane has accepted to move to (R216). -/
  moveTo : Option Nat := none
  /-- The last FlitSeq an in-lane delivered, and since when that has been later than a missing flit (R238). -/
  last : Option Nat := none
  later : Option Nat := none
  deriving DecidableEq, Repr

/-- A flit kept until it is acknowledged: the times it has been sent, when it was given to the link, and when it was last
sent (R238). -/
structure Unacked where
  seq : Nat
  sends : Nat
  born : Nat
  at_ : Nat
  body : FlitBody
  deriving DecidableEq, Repr

/-- A Kenxis link. `nego` is 0 before formation, 1 once Capability is sent, 2 once the peer's is received, 3 once
negotiation has ended. `recEpoch` is the snapshot recording in progress on it (R435). -/
structure Link where
  bound : Bool := false
  peer : Nat := 0
  version : Nat := 2
  agreed : Nat := 0
  causes : List Nat := []
  outLanes : List Lane := []
  inLanes : List Lane := []
  /-- In-lanes that LaneLeave took off the link or that are trained and have not joined: LaneJoin brings them (R218, R236). -/
  left : List Lane := []
  /-- Lanes whose LaneJoin came before their training ended here, with its FlitSeq. -/
  joins : SMap Nat := []
  txSeq : Nat := 0
  unacked : List Unacked := []
  rxNext : Nat := 0
  rxHeld : SMap FlitBody := []
  nak : Option Nat := none
  /-- The missing flit last requested again, and when (R238). -/
  asked : Option (Nat × Nat) := none
  /-- When the last flit was received. -/
  lastRx : Nat := 0
  /-- Control flits that wait for the retry window (R238). -/
  waitCtl : List Ctl := []
  /-- The GreyCause this end last told its peer, 0 for none (Table LNK-2). -/
  told : Nat := 0
  nego : Nat := 0
  darkSince : Option Nat := none
  okSince : Option Nat := none
  /-- Since when neither direction has a lane in service (R243). -/
  noneSince : Option Nat := none
  occ : List Nat := List.replicate 10 0
  /-- Credits to return in flit headers, by virtual channel (R254). -/
  owe : List Nat := List.replicate 10 0
  /-- What each class may still send in its round, in hundredths of 64 B (R262). -/
  deficit : List Nat := [0, 0, 0, 0]
  tx : List Nat := [0, 0, 0]
  rx : List Nat := [0, 0, 0]
  recEpoch : Option Nat := none
  recCount : List Nat := [0, 0, 0, 0, 0, 0]
  deriving DecidableEq, Repr

/-! ### Routing -/

/-- A packet held in a router, with the link it came on. -/
structure Held where
  id : Nat
  p : Packet
  from_ : Option Nat
  since : Nat
  badSince : Option Nat := none
  stallTold : Bool := false
  /-- Its wait for an injection window has been counted (R264). -/
  winTold : Bool := false
  /-- Its credits go back to the link it came on: not those of an earlier formation (R243, R254). -/
  owes : Bool := true
  /-- Of a multicast: whether the local copy and those for the plus and the minus neighbour are still to be made (R265). -/
  copies : Option (Bool × Bool × Bool) := none
  deriving DecidableEq, Repr

/-- A hot destination (Table RTE-6). -/
structure Hot where
  cls : PClass
  dest : Nat
  window : Nat
  halved : Nat
  echoed : Nat
  deriving DecidableEq, Repr

/-- The router of one half. -/
structure Router where
  held : List Held := []
  ejected : List Packet := []
  nextId : Nat := 0
  winReq : Nat := 8388608
  winColl : Nat := 8388608
  winLastReq : Nat := 0
  winLastColl : Nat := 0
  hot : List Hot := []
  bank0 : SMap Nat := []
  bank1 : SMap Nat := []
  /-- The next Seq of the request, the reply and the collective class (R251, R281). -/
  seqNext : Nat := 0
  seqReply : Nat := 0
  seqColl : Nat := 0
  lastSeq : Option Nat := none
  lastEarly : Option Nat := none
  deriving DecidableEq, Repr

/-! ### Fabric memory -/

/-- A send window (Table FAB-2). -/
structure Window where
  chipLo : Nat
  chipHi : Nat
  read : Bool
  write : Bool
  atomic : Bool
  cacheOk : Bool
  base : Nat
  size : Nat
  disp : Int
  deriving DecidableEq, Repr

/-- Who waits for a reply. -/
inductive Requester
  | stream (engine seq req : Nat)
  | scan (nn : Nat)
  | tail (queue seq : Nat)
  deriving DecidableEq, Repr

/-- An outstanding fabric request. -/
structure Outst where
  tag : Nat
  half : Half
  dest : Nat
  who : Requester
  since : Nat
  bytes : Nat
  fillOk : Bool := false
  /-- The target offset sent, and the offset wanted: they differ when a whole granule is fetched (R287). -/
  off : Nat := 0
  want : Nat := 0
  /-- The request was handed over under R242, so its tag is held back after its release (R280). -/
  resent : Bool := false
  deriving DecidableEq, Repr

/-- A replay cache entry (R282); `born` is the local time its age counts from (may lie before 0). -/
structure Replay where
  half : Half
  src : Nat
  seq : Nat
  reply : Body
  born : Int
  pinned : Bool
  deriving DecidableEq, Repr

/-- The event crossing of a clocked island (R410, R411): the source's toggle, the toggle as the far side has taken it, when the
acknowledgement of a change returns, whether the far side has a pulse that it has not used, and the counts that the source holds
and the far side has not read, by the object they go to. -/
structure EventWire where
  toggle : Bool := false
  seen : Bool := false
  ackAt : Option Nat := none
  pulse : Bool := false
  counts : SMap Nat := []
  deriving DecidableEq, Repr

/-- A word held in an atomic unit (R285). -/
structure HeldWord where
  addr : Nat
  last : Nat
  deriving DecidableEq, Repr

/-- A granule of the remote read cache (R287). -/
structure CacheLine where
  half : Half
  chip : Nat
  granule : Nat
  data : List LineData
  deriving DecidableEq, Repr

/-! ### Collectives -/

/-- A collective of this member: waiting (not active) or active. Chunks below `signalled` are done, and those in `done`.
`localDone` holds the local inputs taken (chunk, segment); `passed` the inputs sent on the grey pass (level, chunk, segment,
position, rank); `sentSegs` the partials sent; `gotRes` the result positions received or formed here; `outSegs` the segments
whose output is written. -/
structure Coll where
  id : Nat
  d : Issued
  active : Bool := false
  since : Nat
  done : List Nat := []
  grey : List Nat := []
  signalled : Nat := 0
  localDone : List (Nat × Nat) := []
  passed : List (Nat × Nat × Nat × Nat × Nat) := []
  sentSegs : List (Nat × Nat × Nat) := []
  gotRes : List (Nat × Nat × Nat × Nat) := []
  outSegs : List (Nat × Nat) := []
  dups : Nat := 0
  res : Result := {}
  deriving DecidableEq, Repr

/-- A reduction slot (R301). Accumulators at key 64 position + i; `got` is the contribution bitmap: key 256 position + rank,
with the Count that came. `parts` holds inputs of a CollId that is not active here yet, by position. -/
structure Slot where
  half : Half
  coll : Nat
  level : Nat
  chunk : Nat
  segment : Nat
  acc : SMap BankVal := []
  got : SMap Nat := []
  parts : List (Nat × List BankVal) := []
  /-- Elements that have raised OF here. -/
  ovfs : List Nat := []
  /-- Elements that are NaR only because a sum was invalid here (R44). -/
  invs : List Nat := []
  sent : Bool := false
  deriving DecidableEq, Repr

/-- An entry of a grey buffer (R305). -/
structure Grey where
  coll : Nat
  level : Nat
  sender : Nat
  chunk : Nat
  segment : Nat
  vals : SMap BankVal := []
  counts : SMap Nat := []
  deriving DecidableEq, Repr

/-- A pending entry (R309). -/
structure PendColl where
  half : Half
  coll : Nat
  since : Nat
  grey : List Nat := []
  passed : List (Nat × Nat × Nat × Nat × Nat) := []
  /-- Results that came before the collective was active. -/
  results : List CollHdr := []
  deriving DecidableEq, Repr

/-- A collective that ended before its end, with the ranks it missed (R308). -/
structure Ended where
  coll : Nat
  ranks0 : List Nat
  ranks1 : List Nat
  deriving DecidableEq, Repr

/-! ### Host port -/

/-- A host access to this module's memory that waits for a Dim channel or a back-invalidation (R176, R327). -/
inductive PortWait
  | dataPort (line : Nat) (write : Option (Bytes × Bool)) (first count : Nat) (ev : List LineEvent)
  | cxlRead (line : Nat) (ev : List LineEvent)
  | cxlWrite (line mask : Nat) (data : Bytes) (poison : Bool)
  | bar2 (off : Nat) (a : HostAccess)
  deriving DecidableEq, Repr

/-- The host port (15). -/
structure HostPort where
  gen : Nat := 0
  width : Nat := 0
  perst : Bool := true
  refclk : Bool := false
  command : Nat := 0
  tag : Nat := 0
  busy : Bool := false
  running : Nat := 0
  runTag : Nat := 0
  done : Bool := false
  status : Nat := 0
  tagEcho : Nat := 0
  vector : Nat := 0
  irqEn : Bool := false
  args : List Word64 := List.replicate 8 0
  runArgs : List Word64 := List.replicate 8 0
  /-- The payload as it stood when Go was written (R319). -/
  runPayload : SMap Byte := []
  results : List Word64 := List.replicate 8 0
  payload : SMap Byte := []
  dpAddr : Nat := 0
  autoInc : Bool := true
  domain : Bool := false
  addrError : Bool := false
  poisonRead : Bool := false
  msixOpen : List Nat := []
  msixPend : List Nat := []
  msixEnable : Bool := false
  msixTable : SMap Nat := []
  atsEnable : Bool := false
  ats : List (Nat × Nat) := []
  atsWait : List (Nat × Nat) := []
  pageReqs : List (Nat × Nat) := []
  snoopW : List Nat := []
  snoopE : List Nat := []
  bisnp : List (Nat × Nat) := []
  bisnpBad : List Nat := []
  bar2Base : Nat := 0x010000000000
  bar2GiB : Nat := 4
  cxlGiB : Nat := 0
  /-- Accesses that wait for a Dim channel or a back-invalidation's response, oldest first (R176, R327). -/
  waits : List PortWait := []
  /-- Queues of a host-facing reset are still to be destroyed (R328). -/
  resetting : Bool := false
  /-- When the 100 ms of the last host-facing reset began. -/
  resetSince : Option Nat := none
  deriving DecidableEq, Repr

/-! ### Dictionary and management network -/

/-- A session (R339): role 1 Manager, 2 Vendor. -/
structure Session where
  id : Nat
  role : Nat
  ip : Nat
  port : Nat
  nonce : Bytes
  opened : Bool := false
  key : Bytes := []
  lastSeq : Nat := 0
  lastReply : Option Out := none
  last : Nat := 0
  deriving DecidableEq, Repr

/-- A partial DAP message (R338). -/
structure Partial where
  session : Nat
  seq : Nat
  ip : Nat
  port : Nat
  since : Nat
  count : Nat
  frags : SMap Bytes
  deriving DecidableEq, Repr

/-- An open DOMAIN transfer (R344). -/
structure Xfer where
  handle : Nat
  key : Nat
  write : Bool
  size : Nat
  byHost : Bool
  session : Nat
  image : SMap Byte := []
  got : Nat := 0
  last : Nat := 0
  deriving DecidableEq, Repr

/-- Management network state. -/
structure Mgmt where
  sessions : List Session := []
  nextSession : Nat := 1
  nextHandle : Nat := 1
  failTimes : List Nat := []
  lockUntil : Option Nat := none
  daps : List Partial := []
  ready : List (Nat × Nat × Nat × Nat × Bytes) := []
  xfers : List Xfer := []
  lease : Bool := false
  plca : Bool := true
  deriving DecidableEq, Repr

/-! ### Power and heat -/

/-- A compute sub-domain. -/
structure Dom where
  setpoint : Nat := 0
  /-- When the setpoint last moved or the ceiling last rose (R349). -/
  last : Nat := 0
  /-- When Amber began, its ceiling and when that was last lowered. -/
  amber : Option (Nat × Nat × Nat) := none
  red : Bool := false
  deriving DecidableEq, Repr

/-- One temperature site with its two sensors, in units of 1/8 degC. -/
structure Site where
  s0 : Int := 0
  s1 : Int := 0
  flag0 : Bool := false
  flag1 : Bool := false
  /-- The last six readings of both sensors, newest first: they span the trailing 50 µs. -/
  hist : List (Int × Int) := []
  amberSince : Option Nat := none
  blackSince : Option Nat := none
  lowSince : Option Nat := none
  red : Bool := false
  coolSince : Option Nat := none
  agree : Option Nat := none
  deriving DecidableEq, Repr

/-- Supplies, hold-up bank and thermal shutdown. -/
structure Power where
  on : Bool := false
  aux : Bool := false
  mainOk : Bool := false
  intermediate : Bool := false
  pale : Bool := false
  paleSince : Nat := 0
  paleTold : Bool := false
  /-- When the main input last read 44.0 V or less in Pale (Table PWR-2). -/
  paleLow : Nat := 0
  hwFloor : Bool := false
  /-- Since when measured input power has been above its limit, and 5 % below it (R350). -/
  overSince : Option Nat := none
  underSince : Option Nat := none
  lowBankSince : Option Nat := none
  lowBankTold : Bool := false
  black : Bool := false
  shdnBlack : Bool := false
  shdnLeak : Bool := false
  blackTimes : List Nat := []
  autoSuspended : Bool := false
  coolSince : Option Nat := none
  doms : List Dom := List.replicate 8 {}
  sites : List Site := List.replicate 88 {}
  deriving DecidableEq, Repr

/-! ### Reliability, security, start-up, interfaces, observability -/

/-- Checkpoint, warm restart and start-up sequences. `ckptStep` is 0 with no checkpoint, 2 while work completes and 3 while
regions are copied; `warmStep` and `startStep` are the last steps completed. -/
structure Seqs where
  ckptStep : Nat := 0
  ckptSince : Nat := 0
  warmStep : Nat := 0
  warmTimes : List Nat := []
  warmSince : Nat := 0
  startStep : Nat := 0
  running : Bool := false
  fromFour : Bool := false
  startPoint : Nat := 0
  /-- Since when the start waits for the main input, and how long it has waited (R401, R402). -/
  waitFrom : Option Nat := none
  waitNs : Nat := 0
  overTold : Bool := false
  /-- The other bank is being tried (R384). -/
  secondBank : Bool := false
  /-- The type 1 image is still to be verified in this chain (R384, R402). -/
  needFirst : Bool := false
  bootBank : Nat := 0
  railFails : Nat := 0
  railRetryAt : Option Nat := none
  /-- Half E has booted. -/
  halfE : Bool := false
  trial : Bool := false
  trialFails : Nat := 0
  recovery : Bool := false
  /-- A restart that a running request asked for: 1 to 3 a warm restart of that cause, 4 ColdRestart, 5 ThermalRestart. -/
  asked : Nat := 0
  /-- A ColdRestart waits for Pale to end (R407). -/
  coldPending : Bool := false
  /-- POS_ID[3:0] as it will be read at the next reading (R420). -/
  straps : Nat := 0
  deriving DecidableEq, Repr

/-- An entry of MeasurementLog (Table SEC-3). -/
structure MeasEntry where
  register : Nat
  code : Nat
  bank : Nat
  secVersion : Nat
  fwVersion : Nat
  number : Nat
  digest : Bytes
  deriving DecidableEq, Repr

/-- Keys, banks, measurements, attestation, debug. -/
structure Sec where
  bankA : List ImageInfo := []
  bankB : List ImageInfo := []
  /-- Images verified in this boot chain. -/
  chain : List ImageInfo := []
  meas : List Bytes := List.replicate 4 (List.replicate 32 0)
  log : List MeasEntry := []
  logOverflow : Bool := false
  identity : Bool := false
  seedBurnt : Bool := false
  attestNonce : Bytes := []
  capture : Bytes := []
  reports : Nat := 0
  monitorWrite : Bool := false
  deriving DecidableEq, Repr

/-- Sideband interfaces. -/
structure Iface where
  leakLast : List Nat := []
  dryHold : Option Nat := none
  flowEpisode : Bool := false
  flowSince : Option Nat := none
  efuseOpen : Bool := false
  efuseAt : Nat := 0
  txReleased : Bool := false
  txAt : Nat := 0
  rxIgnored : Bool := false
  baud : Nat := 921600
  deriving DecidableEq, Repr

/-- One shadow bank (R434, R437). -/
structure SnapBank where
  epoch : Option Nat := none
  origin : Nat := 0
  cut : Nat := 0
  incomplete : Nat := 0
  values : List Nat := []
  links : List (List Nat) := []
  complete : Bool := false
  deriving DecidableEq, Repr

/-- Snapshots, journal, monitor transfer. -/
structure Obs where
  bank0 : SnapBank := {}
  bank1 : SnapBank := {}
  current : Option (Nat × Nat × Nat) := none
  target : Nat := 0
  /-- Epoch and Reach of the held marker flits, and the links each has come on (R436). -/
  heldMarks : List (Nat × Nat) := []
  earlyMarks : List (Nat × Nat) := []
  jbuf : List JEntry := []
  jring : List JEntry := []
  bootCount : Nat := 0
  lastCommit : Nat := 0
  xfer : Option (Nat × Nat × Bytes) := none
  xferDigest : Bytes := []
  xferBad : Nat := 0
  xferLast : Nat := 0
  deriving DecidableEq, Repr

/-! ### The machine -/

/-- The state of the module. -/
structure State where
  pending : List Instr := []
  now : Nat := 0
  /-- When the last cold start began: LocalTimeNs counts from it (R432). -/
  coldAt : Nat := 0
  lossNs : Nat := 0
  free : Nat := 0
  out : List Out := []
  dic : SMap Nat := []
  flash : SMap Nat := []
  persist : List Nat := []
  doms : SMap Bytes := []
  domsFlash : SMap Bytes := []
  bridge : Bridge := {}
  arrays : List ArrayUnit := List.replicate 64 {}
  vecs : List VecUnit := List.replicate 64 {}
  esc : SMap (Nat × Nat) := []
  layers : List Layer := []
  engines : List Engine := List.replicate 72 {}
  moverRR : List Nat := [0, 0]
  tile : Mem := []
  tilePoison : List Nat := []
  remaps : SMap Nat := []
  /-- TstRemapList and MemRepairList as last committed to flash (R334). -/
  remapsFlash : SMap Nat := []
  repairsFlash : List Repair := []
  corrRuns : SMap Nat := []
  scrubLine : List Nat := List.replicate 64 0
  scrubWrap : List Nat := []
  spareOut : List Nat := []
  lpddr : Mem := []
  lpddrPoison : List Nat := []
  lpddrBad : List Nat := []
  chans : List Chan := List.replicate 64 {}
  pkgs : List Nat := List.replicate 16 0
  repairs : List Repair := []
  keyEff : Nat := 0
  spillEff : Nat := 64
  watchEff : Nat := 200
  rcEff : List Nat := [0, 0]
  laserMode : Nat := 2
  /-- Arrays whose bit of ArrayRetiredMap was cleared and that return to service at the next restart (R372). -/
  unretired : Nat := 0
  parts : List Partition := []
  claims : List Claim := []
  waitClaims : List Claim := []
  spills : List Spill := []
  queues : SMap Queue := []
  sync : SMap Word64 := []
  waiters : List Waiter := []
  cores : List Core := List.replicate 8 {}
  /-- Each half's round-robin place within each of the eight priorities, half W first (R193). -/
  schedRR : List Nat := List.replicate 16 0
  lasers : List Laser
  rings : List Ring := List.replicate 1088 {}
  rotors : List Rotor := List.replicate 32 {}
  specMap : List MapEntry := List.replicate 544 {}
  demand : List Demand := []
  reassign : SMap Nat := []
  recovery : List Recovery := []
  sweptAt : List Nat := List.replicate 32 0
  heard : SMap (List BeaconReport) := []
  /-- The chip and out-fibre last heard on in-fibre k, line j, at key 17 k + j. -/
  inPeer : SMap (Nat × Nat) := []
  /-- The highest Kenxis version each chip's beacons offer (Table LNK-5). -/
  peerVer : SMap Nat := []
  /-- New lanes whose first training failed: ring numbers (R237). -/
  trainFails : List Nat := []
  /-- In-fibre lines granted to a peer whose lane has not joined yet (R227). -/
  inGrant : List Nat := []
  /-- In-lanes lit by a chip to which no link ID is bound yet, and chips to which a lane back is due (R230). -/
  strayIn : List (Nat × Lane) := []
  backDue : List Nat := []
  /-- Chips whose Dark link was removed: a LaneDemand entry must light the next lane to them (R243). -/
  needDemand : List Nat := []
  /-- Out-fibres at whose reverse tap modulated light was found (Table LNK-7). -/
  tapped : List Nat := []
  links : List Link := List.replicate 64 {}
  skewHold : SMap Nat := []
  armed : Bool := false
  routerW : Router := {}
  routerE : Router := { seqNext := 1, seqReply := 1, seqColl := 1 }
  windows : SMap Window := []
  outst : List Outst := []
  nextTag : Nat := 0
  /-- Tags of resent requests, each with the time until which it is not reused (R280). -/
  tagHold : SMap Nat := []
  /-- When and at what age in µs replay cache entries were evicted, over the last second (R282). -/
  evicted : List (Nat × Nat) := []
  replay : List Replay := []
  atoms : List HeldWord := []
  /-- Event crossings that have carried an event, by the number of their island (R409). -/
  wires : SMap EventWire := []
  /-- When each channel (0 to 63) and each slice (64 on) last admitted a store or atomic of the fabric (R285). -/
  admits : SMap Nat := []
  rcache : List CacheLine := []
  colls : List Coll := []
  slots : List Slot := []
  greys : List Grey := []
  pendColls : List PendColl := []
  ended : List Ended := []
  collEcho : List (Nat × Nat × Nat) := []
  host : HostPort := {}
  mgmt : Mgmt := {}
  power : Power := {}
  seqs : Seqs := {}
  sec : Sec := {}
  iface : Iface := {}
  obs : Obs := {}
  deriving DecidableEq, Repr

/-- The module right after reset: unpowered, every object at the default of its table, nothing held
(R401: a cold start begins at AUX_POWER_UP or INTERMEDIATE_BUS_UP). -/
def State.reset : State :=
  { lasers := (List.range 8).map (fun k => { refFibre := 4 * k }) }

end Sys2Proof.Machine
end

