-- ==== Sys2Proof/Config.lean ====
section
/-!
DEFINITION. What the spec fixes per module or per implementation without giving a value, and the free values:
constants with no body, so that no proof can see what they are.
-/

namespace Sys2Proof.Config

open Sys2Proof.Machine

/-- The n-th fresh value of 64 bits for a value the spec leaves open (log entry 3). -/
opaque freeWord : Nat → Word64

/-- The severity of an event, 0 to 4, which JournalCodes lists outside the spec (R438; log entry 7). -/
opaque severity : JEvent → Nat

/-- The block and code of an event in JournalCodes (R438; log entry 7). -/
opaque eventCode : JEvent → Nat × Nat

/-- The image JournalCodes returns (Table MON-5; log entry 7). -/
opaque journalCodes : Bytes

/-- SerialNumber, set by fuses (Table DIC-8; log entry 5). -/
opaque serial : Bytes

/-- MgmtMacAddress, set by fuses (Table DIC-8; log entry 5). -/
opaque macAddress : Nat

/-- The SHA-256 of the vendor root public key in a slot, 0 to 2 (R391; log entry 5). -/
opaque rootKeyHash : Nat → Bytes

/-- The module's routing-epoch protocol version (R245, R246): the spec gives no number. -/
opaque epochProto : Nat

/-- The digest of the boot ROM and the fuse configuration that Meas0 takes (R384; log entry 5). -/
opaque romFuseDigest : Bytes

/-- The 256-bit fuse seed drawn when the identity is created (R392; log entry 5). -/
opaque fuseSeed : Bytes

/-- The 256-bit key the physically unclonable source yields (R392; log entry 5). -/
opaque pufKey : Bytes

/-- The SLH-DSA-SHA2-128s public key of (sk_seed, sk_prf, pk_seed), 32 B (R392; log entry 5). -/
opaque slhPublic : Bytes → Bytes → Bytes → Bytes

/-- The SLH-DSA-SHA2-128s signature of a message by the key of (sk_seed, sk_prf, pk_seed) (R392, R394; log entry 5). -/
opaque slhSign : Bytes → Bytes → Bytes → Bytes → Bytes

/-- SLH-DSA-SHA2-128s verification: key, message, signature (R339, R382, R397; log entry 5). -/
opaque verify : Bytes → Bytes → Bytes → Bool

/-- Vector functions that the spec bounds only by an error in ulps: the code of the function, the operand codes
(R103; log entry 8). -/
opaque ulpFn : Nat → Nat → Nat → Nat

/-- What an integer or raw word read from a poisoned line holds (R33; log entry 9). -/
opaque poisonedWord : Nat → Word64

/-- The argument words of a journal entry: the rules name the values, not their places (Table MON-3; log entry 7). -/
opaque journalArgs : JEvent → List Nat → Bytes

/-- The bank and row of a channel's local line: the spec gives no map (Table MEM-4, R178; log entry 21). -/
opaque rowOf : Nat → Nat × Nat

/-- TstRemapList as bytes, by slice, offset and spare: the spec gives the list no layout (R367; log entry 5). -/
opaque remapBytes : List (Nat × Nat) → Bytes

/-- MemRepairList as bytes, by channel, bank and row: the spec gives the list no layout (R178; log entry 5). -/
opaque repairBytes : List Repair → Bytes

end Sys2Proof.Config
end

