-- ==== Sys2Proof/Machine/Dict.lean ====
section
/-!
DEFINITION. The table of Dictionary objects (R330, Table DIC-8 and the object tables of every chapter): number,
count of sub-indices, name, type, access, write class, persistence, range and default. A range the tables do not
state is the type's whole range (log entry 6).
-/

namespace Sys2Proof.Machine

/-- Object types (Table DIC-1). -/
inductive DType | u8 | u16 | u32 | u64 | i32 | bool | str | domain
  deriving DecidableEq, Repr

/-- Access codes (Table DIC-2). -/
inductive DAccess | const | ro | wo | rw | rc | rwn
  deriving DecidableEq, Repr

/-- Write classes (Table DIC-3); `none` for objects that cannot be written (R448). -/
inductive DClass | h | m | v | none
  deriving DecidableEq, Repr

/-- A row of the object tables. `lo` and `hi` bound a number's value or a DOMAIN's length; `dflt` is none where
the tables show "—" or "from fuses", and for text and images. -/
structure ObjRow where
  key : Nat
  count : Nat
  name : String
  typ : DType
  access : DAccess
  cls : DClass
  kept : Bool
  lo : Nat
  hi : Nat
  dflt : Option Nat
  deriving DecidableEq, Repr

/-! The keys: index × 256 + sub-index of each object's first sub-index. -/
namespace Obj

abbrev vendorName : Nat := 0x100000
abbrev productCode : Nat := 0x100001
abbrev serialNumber : Nat := 0x100002
abbrev firmwareVersion : Nat := 0x100003
abbrev mgmtMacAddress : Nat := 0x100004
abbrev moduleState : Nat := 0x100100
abbrev startupStep : Nat := 0x100101
abbrev chipNumber : Nat := 0x100200
abbrev chipNumberLock : Nat := 0x100201
abbrev chipNumberLockWritesLeft : Nat := 0x100202
abbrev warmRestart : Nat := 0x100300
abbrev warmRestarts : Nat := 0x100301
abbrev lastRestartCause : Nat := 0x100302
abbrev startupMs : Nat := 0x100400
abbrev startupOverruns : Nat := 0x100401
abbrev pilotState : Nat := 0x100402
abbrev coldRestart : Nat := 0x100403
abbrev lastResetSource : Nat := 0x100404
abbrev bridgeState : Nat := 0x101000
abbrev bridgeMemBundles : Nat := 0x101001
abbrev bridgeRouterBundles : Nat := 0x101002
abbrev bridgeRetiredMap : Nat := 0x101003
abbrev bridgeRetiredMapHigh : Nat := 0x101004
abbrev bridgeSparesUsed : Nat := 0x101005
abbrev bridgeRetries : Nat := 0x101006
abbrev cxlMemGiB : Nat := 0x102000
abbrev queueWindowGiB : Nat := 0x102001
abbrev queueWindowBase : Nat := 0x102002
abbrev hostLinkGen : Nat := 0x102100
abbrev pageRequestsOutstanding : Nat := 0x102200
abbrev pageRequestsDropped : Nat := 0x102201
abbrev bISnpTimeouts : Nat := 0x102202
abbrev cxlMemDropped : Nat := 0x102203
abbrev mbxIgnored : Nat := 0x102204
abbrev mgmtIpv4 : Nat := 0x103000
abbrev plcaNodeId : Nat := 0x103001
abbrev sessionIdleS : Nat := 0x103002
abbrev sessionsOpen : Nat := 0x103003
abbrev authFailures : Nat := 0x103004
abbrev mgmtPlcaLoss : Nat := 0x103005
abbrev persistPending : Nat := 0x103006
abbrev mgmtPairReversed : Nat := 0x103100
abbrev monLineFault : Nat := 0x103101
abbrev posId : Nat := 0x103102
abbrev alertPending : Nat := 0x103103
abbrev thermalState : Nat := 0x200000
abbrev thermalHottestC : Nat := 0x200001
abbrev siteTemp : Nat := 0x200101
abbrev thermalRedOverride : Nat := 0x201000
abbrev thermalRedOverrideWritesLeft : Nat := 0x201001
abbrev thermalRedC : Nat := 0x201100
abbrev thermalBlackC : Nat := 0x201101
abbrev thermalAmberRate : Nat := 0x201102
abbrev thermalBlackRate : Nat := 0x201103
abbrev thermalAutoRestart : Nat := 0x201200
abbrev thermalRestart : Nat := 0x201201
abbrev amberEvents : Nat := 0x201300
abbrev redEvents : Nat := 0x201301
abbrev amberMs : Nat := 0x201302
abbrev blackShutdowns : Nat := 0x201303
abbrev supplyVoltageMv : Nat := 0x202000
abbrev supplyMinMv : Nat := 0x202001
abbrev paleEvents : Nat := 0x202002
abbrev paleLongestMs : Nat := 0x202003
abbrev supplyResets : Nat := 0x202004
abbrev inputPowerW : Nat := 0x202100
abbrev powerCapW : Nat := 0x202101
abbrev boostEnable : Nat := 0x202102
abbrev convertersOk : Nat := 0x202103
abbrev auxState : Nat := 0x202104
abbrev holdUpMj : Nat := 0x202200
abbrev commitDeferrals : Nat := 0x202201
abbrev domainVoltageMv : Nat := 0x202301
abbrev mainInputState : Nat := 0x203000
abbrev auxEfuseTrips : Nat := 0x203001
abbrev leakLoopOhms : Nat := 0x203100
abbrev leakState : Nat := 0x203101
abbrev leakAction : Nat := 0x203102
abbrev flowCentiLpm : Nat := 0x203200
abbrev flowTachEnable : Nat := 0x203201
abbrev flowPulsesPerL : Nat := 0x203202
abbrev flowMinLpm : Nat := 0x203203
abbrev memState : Nat := 0x300000
abbrev memChannelState : Nat := 0x300101
abbrev memPackageTemp : Nat := 0x300201
abbrev memHashKey : Nat := 0x300300
abbrev memHashKeyWritesLeft : Nat := 0x300301
abbrev memScrubHours : Nat := 0x300400
abbrev memCorrected : Nat := 0x300500
abbrev memUncorrectable : Nat := 0x300501
abbrev memDimEvents : Nat := 0x300502
abbrev memDimStalledRequests : Nat := 0x300503
abbrev memDimLongestUs : Nat := 0x300504
abbrev memSoftRepairs : Nat := 0x300505
abbrev memThrottleMs : Nat := 0x300506
abbrev memHardRepairArm : Nat := 0x300600
abbrev remoteCacheMiBW : Nat := 0x301000
abbrev remoteCacheMiBE : Nat := 0x301001
abbrev spillAreaMiB : Nat := 0x301100
abbrev deadlockWatchUs : Nat := 0x301200
abbrev tstCorrected : Nat := 0x301300
abbrev tstUncorrectable : Nat := 0x301301
abbrev tstScrubPasses : Nat := 0x301302
abbrev deadlockBreaks : Nat := 0x301303
abbrev deadlockSpillFull : Nat := 0x301304
abbrev spillBytes : Nat := 0x301305
abbrev claimWaits : Nat := 0x301306
abbrev tstLineRemaps : Nat := 0x301307
abbrev tstSparesLeftMin : Nat := 0x301308
abbrev laserSourceMode : Nat := 0x400000
abbrev laserInputUse : Nat := 0x400001
abbrev laserInputState : Nat := 0x400101
abbrev laserLinesUsable : Nat := 0x400201
abbrev lockIntegrationUs : Nat := 0x400300
abbrev rotorStepUs : Nat := 0x400301
abbrev rotorEnable : Nat := 0x400302
abbrev ringsLocked : Nat := 0x400400
abbrev ringsRetired : Nat := 0x400401
abbrev rotorSteps : Nat := 0x400500
abbrev rotorAborts : Nat := 0x400501
abbrev rotorSkips : Nat := 0x400502
abbrev wrongLineEvents : Nat := 0x400503
abbrev lockLosses : Nat := 0x400504
abbrev reassignments : Nat := 0x400505
abbrev reassignRefusals : Nat := 0x400506
abbrev laneDemandUnmet : Nat := 0x400507
abbrev linkMinLanesPct : Nat := 0x410000
abbrev linkRemoveMs : Nat := 0x410001
abbrev linkQuarantine : Nat := 0x410002
abbrev linkState : Nat := 0x410101
abbrev linkPeer : Nat := 0x410201
abbrev linkLanes : Nat := 0x410301
abbrev linkRttNs : Nat := 0x410401
abbrev flitRetries : Nat := 0x410500
abbrev fecUncorrectable : Nat := 0x410501
abbrev fecCorrectedSymbols : Nat := 0x410502
abbrev laneErrorRemovals : Nat := 0x410503
abbrev linkDarkEvents : Nat := 0x410504
abbrev resentFlits : Nat := 0x410505
abbrev mapMismatches : Nat := 0x410506
abbrev retryWindowStalls : Nat := 0x410507
abbrev greyDrops : Nat := 0x410508
abbrev flitDuplicates : Nat := 0x410509
abbrev routeEpochActive : Nat := 0x500000
abbrev routeBankState : Nat := 0x500001
abbrev epochSwitch : Nat := 0x500002
abbrev epochRelease : Nat := 0x500003
abbrev drainArm : Nat := 0x500004
abbrev drainDirty : Nat := 0x500005
abbrev oldEpochPackets : Nat := 0x500006
abbrev linkWeights : Nat := 0x500100
abbrev congMarkPct : Nat := 0x500200
abbrev maxAdaptiveHops : Nat := 0x500300
abbrev routeSalt : Nat := 0x500301
abbrev escapeWaitUs : Nat := 0x500302
abbrev escapeStallMs : Nat := 0x500303
abbrev axisInfo : Nat := 0x500401
abbrev noRouteDrops : Nat := 0x501000
abbrev hopLimitDrops : Nat := 0x501001
abbrev epochMisses : Nat := 0x501002
abbrev routeMalformed : Nat := 0x501003
abbrev mgmtDrops : Nat := 0x501004
abbrev escapeStalls : Nat := 0x501005
abbrev congMarks : Nat := 0x501006
abbrev injectWindowStalls : Nat := 0x501007
abbrev mcastShort : Nat := 0x501008
abbrev windowsInUse : Nat := 0x510000
abbrev replyTimeoutUs : Nat := 0x510001
abbrev replayCacheEntries : Nat := 0x510100
abbrev replayLifetimeUs : Nat := 0x510101
abbrev replayEarlyEvictions : Nat := 0x510102
abbrev replayHits : Nat := 0x510103
abbrev outcomeUnknown : Nat := 0x510104
abbrev fabReplyTimeouts : Nat := 0x510200
abbrev lateReplies : Nat := 0x510201
abbrev windowMisses : Nat := 0x510202
abbrev atomicCombines : Nat := 0x510203
abbrev seqIssueStalls : Nat := 0x510204
abbrev rCacheHits : Nat := 0x510300
abbrev rCacheMisses : Nat := 0x510301
abbrev rCacheInvalidations : Nat := 0x510302
abbrev collWatchdogMs : Nat := 0x520000
abbrev collActiveW : Nat := 0x520001
abbrev collActiveE : Nat := 0x520002
abbrev collSlotsInUseW : Nat := 0x520003
abbrev collSlotsInUseE : Nat := 0x520004
abbrev greyChunks : Nat := 0x520100
abbrev collDuplicates : Nat := 0x520101
abbrev greyOverflows : Nat := 0x520102
abbrev collTimeouts : Nat := 0x520103
abbrev collLateDrops : Nat := 0x520104
abbrev collOrphans : Nat := 0x520105
abbrev arrayRetiredMap : Nat := 0x601000
abbrev arraysInService : Nat := 0x601001
abbrev arrayStepRateMin : Nat := 0x601002
abbrev witnessMisses : Nat := 0x601100
abbrev witnessRowsPoisoned : Nat := 0x601101
abbrev witnessRowsSkipped : Nat := 0x601102
abbrev arrayLoadWaitSteps : Nat := 0x601103
abbrev metricRowsExcluded : Nat := 0x601200
abbrev metricSaturations : Nat := 0x601201
abbrev shadowChecks : Nat := 0x601202
abbrev katPeriodS : Nat := 0x601300
abbrev katRuns : Nat := 0x601301
abbrev katFailures : Nat := 0x601302
abbrev arrayMissEvents : Nat := 0x601303
abbrev escEnable : Nat := 0x602000
abbrev escHoldSteps : Nat := 0x602001
abbrev escEvents : Nat := 0x602002
abbrev escStepDowns : Nat := 0x602003
abbrev escExhausted : Nat := 0x602004
abbrev escAbandonedDescs : Nat := 0x602005
abbrev streamFaultLines : Nat := 0x603000
abbrev streamFaultDescs : Nat := 0x603001
abbrev streamSourcePoisonLines : Nat := 0x603002
abbrev streamPageRequests : Nat := 0x603003
abbrev streamLimitStalls : Nat := 0x603004
abbrev seamsOpened : Nat := 0x603005
abbrev queuesLaunched : Nat := 0x604000
abbrev waitsPendingW : Nat := 0x604001
abbrev waitsPendingE : Nat := 0x604002
abbrev waitTableFullEvents : Nat := 0x604003
abbrev doorbellErrors : Nat := 0x604004
abbrev remoteSignalFaults : Nat := 0x604005
abbrev cplRingStalls : Nat := 0x604006
abbrev coreWatchdogMs : Nat := 0x604101
abbrev coreRestarts : Nat := 0x604201
abbrev checkpointBase : Nat := 0x605000
abbrev checkpointNow : Nat := 0x605001
abbrev checkpointRestore : Nat := 0x605002
abbrev checkpointState : Nat := 0x605003
abbrev checkpointEpoch : Nat := 0x605004
abbrev checkpointQuiesceMs : Nat := 0x605005
abbrev lifecycleState : Nat := 0x700000
abbrev lifecycleWritesLeft : Nat := 0x700001
abbrev antiRollbackLevel : Nat := 0x700100
abbrev antiRollbackWritesLeft : Nat := 0x700101
abbrev rootKeyRevoked : Nat := 0x700200
abbrev revokeRootKey : Nat := 0x700201
abbrev activeBank : Nat := 0x700300
abbrev bootBankRequest : Nat := 0x700301
abbrev bankState : Nat := 0x700302
abbrev firmwareUpdateState : Nat := 0x700303
abbrev runningSecVersion : Nat := 0x700304
abbrev bootVerifyFailures : Nat := 0x700305
abbrev debugUnlocked : Nat := 0x700400
abbrev debugNonce : Nat := 0x700401
abbrev debugLock : Nat := 0x700402
abbrev debugAllowProduction : Nat := 0x700403
abbrev attestState : Nat := 0x700500
abbrev identityPublicKey : Nat := 0x700501
abbrev snapshotTake : Nat := 0x800000
abbrev snapshotState : Nat := 0x800001
abbrev snapshotEpoch : Nat := 0x800002
abbrev snapshotsTaken : Nat := 0x800003
abbrev linkTxPackets : Nat := 0x800101
abbrev linkRxPackets : Nat := 0x800201
abbrev localTimeNs : Nat := 0x800300
abbrev timeSource : Nat := 0x800301
abbrev monBaud : Nat := 0x800400
abbrev monLinesDiscarded : Nat := 0x800401
abbrev poweredMs : Nat := 0x801000
abbrev progressLossMs : Nat := 0x801001
abbrev journalNextSeq : Nat := 0x900000
abbrev journalOldestSeq : Nat := 0x900001
abbrev journalPending : Nat := 0x900002
abbrev journalDropped : Nat := 0x900003
abbrev bridgeSpareMap : Nat := 0xA01000
abbrev sensorFaultMap : Nat := 0xA02000
abbrev memRepairList : Nat := 0xA03000
abbrev tstRemapList : Nat := 0xA03100
abbrev spectralMap : Nat := 0xA04000
abbrev laneDemand : Nat := 0xA04100
abbrev ringCalTable : Nat := 0xA04200
abbrev ringRetiredMap : Nat := 0xA04300
abbrev intendedMap : Nat := 0xA04400
abbrev routeTableLoad : Nat := 0xA05000
abbrev sendWindowTable : Nat := 0xA05100
abbrev collGroupTable : Nat := 0xA05200
abbrev collAbortDetail : Nat := 0xA05300
abbrev escalationImage : Nat := 0xA06000
abbrev managerKeyHash : Nat := 0xA07001
abbrev firmwareBank : Nat := 0xA07100
abbrev measurementLog : Nat := 0xA07200
abbrev identityCertificate : Nat := 0xA07300
abbrev attestNonce : Nat := 0xA07400
abbrev attestationReport : Nat := 0xA07500
abbrev debugToken : Nat := 0xA07600
abbrev snapshotImage : Nat := 0xA08000
abbrev snapshotImagePrev : Nat := 0xA08001
abbrev snapshotLayout : Nat := 0xA08100
abbrev journalImage : Nat := 0xA09000
abbrev journalRecent : Nat := 0xA09001
abbrev journalCodes : Nat := 0xA09100

end Obj

/-- Part 0 of the object table. -/
def objRows0 : List ObjRow := [
  ⟨0x100000, 1, "VendorName", .str, .const, .none, true, 1, 256, none⟩,
  ⟨0x100001, 1, "ProductCode", .str, .const, .none, true, 1, 256, none⟩,
  ⟨0x100002, 1, "SerialNumber", .str, .const, .none, true, 1, 256, none⟩,
  ⟨0x100003, 1, "FirmwareVersion", .u32, .ro, .none, false, 0, 4294967295, none⟩,
  ⟨0x100004, 1, "MgmtMacAddress", .u64, .const, .none, true, 0, 18446744073709551615, none⟩,
  ⟨0x100100, 1, "ModuleState", .u8, .ro, .none, false, 0, 5, (some 0)⟩,
  ⟨0x100101, 1, "StartupStep", .u8, .ro, .none, false, 0, 255, (some 0)⟩,
  ⟨0x100200, 1, "ChipNumber", .u16, .rw, .m, true, 0, 16383, (some 0)⟩,
  ⟨0x100201, 1, "ChipNumberLock", .bool, .rwn, .m, true, 0, 1, (some 0)⟩,
  ⟨0x100202, 1, "ChipNumberLockWritesLeft", .u8, .ro, .none, true, 0, 255, (some 4)⟩,
  ⟨0x100300, 1, "WarmRestart", .bool, .wo, .h, false, 0, 1, none⟩,
  ⟨0x100301, 1, "WarmRestarts", .u64, .rc, .none, true, 0, 18446744073709551615, (some 0)⟩,
  ⟨0x100302, 1, "LastRestartCause", .u8, .ro, .none, true, 0, 4, (some 0)⟩,
  ⟨0x100400, 1, "StartupMs", .u32, .ro, .none, false, 0, 4294967295, (some 0)⟩,
  ⟨0x100401, 1, "StartupOverruns", .u64, .rc, .none, true, 0, 18446744073709551615, (some 0)⟩,
  ⟨0x100402, 1, "PilotState", .u8, .ro, .none, false, 0, 2, (some 0)⟩]

/-- Part 1 of the object table. -/
def objRows1 : List ObjRow := [
  ⟨0x100403, 1, "ColdRestart", .bool, .wo, .m, false, 0, 1, none⟩,
  ⟨0x100404, 1, "LastResetSource", .u8, .ro, .none, true, 0, 255, (some 1)⟩,
  ⟨0x101000, 1, "BridgeState", .u8, .ro, .none, false, 0, 3, (some 3)⟩,
  ⟨0x101001, 1, "BridgeMemBundles", .u8, .ro, .none, false, 0, 64, (some 0)⟩,
  ⟨0x101002, 1, "BridgeRouterBundles", .u8, .ro, .none, false, 0, 32, (some 0)⟩,
  ⟨0x101003, 1, "BridgeRetiredMap", .u64, .ro, .none, false, 0, 18446744073709551615, (some 0)⟩,
  ⟨0x101004, 1, "BridgeRetiredMapHigh", .u32, .ro, .none, false, 0, 4294967295, (some 0)⟩,
  ⟨0x101005, 1, "BridgeSparesUsed", .u16, .ro, .none, false, 0, 384, (some 0)⟩,
  ⟨0x101006, 1, "BridgeRetries", .u64, .rc, .none, false, 0, 18446744073709551615, (some 0)⟩,
  ⟨0x102000, 1, "CxlMemGiB", .u16, .rw, .h, true, 0, 1024, (some 0)⟩,
  ⟨0x102001, 1, "QueueWindowGiB", .u8, .rw, .h, true, 1, 64, (some 4)⟩,
  ⟨0x102002, 1, "QueueWindowBase", .u64, .rw, .h, true, 0, 1235876839424, (some 1099511627776)⟩,
  ⟨0x102100, 1, "HostLinkGen", .u8, .ro, .none, false, 0, 255, (some 0)⟩,
  ⟨0x102200, 1, "PageRequestsOutstanding", .u16, .ro, .none, false, 0, 65535, (some 0)⟩,
  ⟨0x102201, 1, "PageRequestsDropped", .u64, .rc, .none, false, 0, 18446744073709551615, (some 0)⟩,
  ⟨0x102202, 1, "BISnpTimeouts", .u64, .rc, .none, false, 0, 18446744073709551615, (some 0)⟩]

/-- Part 2 of the object table. -/
def objRows2 : List ObjRow := [
  ⟨0x102203, 1, "CxlMemDropped", .u64, .rc, .none, false, 0, 18446744073709551615, (some 0)⟩,
  ⟨0x102204, 1, "MbxIgnored", .u64, .rc, .none, false, 0, 18446744073709551615, (some 0)⟩,
  ⟨0x103000, 1, "MgmtIpv4", .u32, .ro, .none, false, 0, 4294967295, (some 0)⟩,
  ⟨0x103001, 1, "PlcaNodeId", .u8, .ro, .none, false, 0, 255, none⟩,
  ⟨0x103002, 1, "SessionIdleS", .u16, .rw, .m, true, 10, 3600, (some 60)⟩,
  ⟨0x103003, 1, "SessionsOpen", .u8, .ro, .none, false, 0, 4, (some 0)⟩,
  ⟨0x103004, 1, "AuthFailures", .u64, .rc, .none, false, 0, 18446744073709551615, (some 0)⟩,
  ⟨0x103005, 1, "MgmtPlcaLoss", .u64, .rc, .none, false, 0, 18446744073709551615, (some 0)⟩,
  ⟨0x103006, 1, "PersistPending", .u16, .ro, .none, false, 0, 65535, (some 0)⟩,
  ⟨0x103100, 1, "MgmtPairReversed", .bool, .ro, .none, false, 0, 1, (some 0)⟩,
  ⟨0x103101, 1, "MonLineFault", .u8, .ro, .none, false, 0, 255, (some 0)⟩,
  ⟨0x103102, 1, "PosId", .u8, .ro, .none, false, 0, 255, none⟩,
  ⟨0x103103, 1, "AlertPending", .u32, .rc, .none, false, 0, 4294967295, (some 0)⟩,
  ⟨0x200000, 1, "ThermalState", .u8, .ro, .none, false, 0, 3, (some 0)⟩,
  ⟨0x200001, 1, "ThermalHottestC", .i32, .ro, .none, false, 2147483648, 2147483647, (some 0)⟩,
  ⟨0x200101, 88, "SiteTemp", .i32, .ro, .none, false, 2147483648, 2147483647, (some 0)⟩]

/-- Part 3 of the object table. -/
def objRows3 : List ObjRow := [
  ⟨0x201000, 1, "ThermalRedOverride", .u8, .rwn, .m, true, 100, 105, (some 100)⟩,
  ⟨0x201001, 1, "ThermalRedOverrideWritesLeft", .u8, .ro, .none, true, 0, 255, (some 16)⟩,
  ⟨0x201100, 1, "ThermalRedC", .u8, .rw, .h, true, 60, 105, (some 100)⟩,
  ⟨0x201101, 1, "ThermalBlackC", .u8, .rw, .h, true, 70, 112, (some 112)⟩,
  ⟨0x201102, 1, "ThermalAmberRate", .u16, .rw, .h, true, 10, 40, (some 40)⟩,
  ⟨0x201103, 1, "ThermalBlackRate", .u16, .rw, .h, true, 100, 300, (some 300)⟩,
  ⟨0x201200, 1, "ThermalAutoRestart", .bool, .rw, .m, true, 0, 1, (some 1)⟩,
  ⟨0x201201, 1, "ThermalRestart", .bool, .wo, .m, false, 0, 1, none⟩,
  ⟨0x201300, 1, "AmberEvents", .u64, .rc, .none, false, 0, 18446744073709551615, (some 0)⟩,
  ⟨0x201301, 1, "RedEvents", .u64, .rc, .none, false, 0, 18446744073709551615, (some 0)⟩,
  ⟨0x201302, 1, "AmberMs", .u64, .rc, .none, false, 0, 18446744073709551615, (some 0)⟩,
  ⟨0x201303, 1, "BlackShutdowns", .u64, .rc, .none, true, 0, 18446744073709551615, (some 0)⟩,
  ⟨0x202000, 1, "SupplyVoltageMv", .u32, .ro, .none, false, 0, 4294967295, (some 0)⟩,
  ⟨0x202001, 1, "SupplyMinMv", .u32, .rc, .none, false, 0, 4294967295, (some 0)⟩,
  ⟨0x202002, 1, "PaleEvents", .u64, .rc, .none, false, 0, 18446744073709551615, (some 0)⟩,
  ⟨0x202003, 1, "PaleLongestMs", .u32, .rc, .none, false, 0, 4294967295, (some 0)⟩]

/-- Part 4 of the object table. -/
def objRows4 : List ObjRow := [
  ⟨0x202004, 1, "SupplyResets", .u64, .rc, .none, true, 0, 18446744073709551615, (some 0)⟩,
  ⟨0x202100, 1, "InputPowerW", .u16, .ro, .none, false, 0, 65535, (some 0)⟩,
  ⟨0x202101, 1, "PowerCapW", .u16, .rw, .m, true, 1000, 2250, (some 2250)⟩,
  ⟨0x202102, 1, "BoostEnable", .bool, .rw, .h, true, 0, 1, (some 0)⟩,
  ⟨0x202103, 1, "ConvertersOk", .u8, .ro, .none, false, 0, 255, (some 255)⟩,
  ⟨0x202104, 1, "AuxState", .u8, .ro, .none, false, 0, 1, (some 0)⟩,
  ⟨0x202200, 1, "HoldUpMj", .u16, .ro, .none, false, 0, 65535, (some 0)⟩,
  ⟨0x202201, 1, "CommitDeferrals", .u64, .rc, .none, false, 0, 18446744073709551615, (some 0)⟩,
  ⟨0x202301, 8, "DomainVoltageMv", .u16, .ro, .none, false, 0, 65535, (some 0)⟩,
  ⟨0x203000, 1, "MainInputState", .u8, .ro, .none, false, 0, 3, (some 0)⟩,
  ⟨0x203001, 1, "AuxEfuseTrips", .u64, .rc, .none, false, 0, 18446744073709551615, (some 0)⟩,
  ⟨0x203100, 1, "LeakLoopOhms", .u32, .ro, .none, false, 0, 4294967295, (some 0)⟩,
  ⟨0x203101, 1, "LeakState", .u8, .ro, .none, false, 0, 4, (some 0)⟩,
  ⟨0x203102, 1, "LeakAction", .u8, .rw, .m, true, 0, 1, (some 0)⟩,
  ⟨0x203200, 1, "FlowCentiLpm", .u16, .ro, .none, false, 0, 65535, (some 0)⟩,
  ⟨0x203201, 1, "FlowTachEnable", .bool, .rw, .m, true, 0, 1, (some 0)⟩]

/-- Part 5 of the object table. -/
def objRows5 : List ObjRow := [
  ⟨0x203202, 1, "FlowPulsesPerL", .u16, .rw, .m, true, 10, 60000, (some 1000)⟩,
  ⟨0x203203, 1, "FlowMinLpm", .u16, .rw, .m, true, 100, 480, (some 240)⟩,
  ⟨0x300000, 1, "MemState", .u8, .ro, .none, false, 0, 3, (some 3)⟩,
  ⟨0x300101, 64, "MemChannelState", .u8, .ro, .none, false, 0, 5, (some 5)⟩,
  ⟨0x300201, 16, "MemPackageTemp", .i32, .ro, .none, false, 2147483648, 2147483647, (some 0)⟩,
  ⟨0x300300, 1, "MemHashKey", .u64, .rwn, .m, true, 0, 18446744073709551615, (some 0)⟩,
  ⟨0x300301, 1, "MemHashKeyWritesLeft", .u8, .ro, .none, true, 0, 255, (some 8)⟩,
  ⟨0x300400, 1, "MemScrubHours", .u16, .rw, .h, true, 1, 168, (some 24)⟩,
  ⟨0x300500, 1, "MemCorrected", .u64, .rc, .none, false, 0, 18446744073709551615, (some 0)⟩,
  ⟨0x300501, 1, "MemUncorrectable", .u64, .rc, .none, false, 0, 18446744073709551615, (some 0)⟩,
  ⟨0x300502, 1, "MemDimEvents", .u64, .rc, .none, false, 0, 18446744073709551615, (some 0)⟩,
  ⟨0x300503, 1, "MemDimStalledRequests", .u64, .rc, .none, false, 0, 18446744073709551615, (some 0)⟩,
  ⟨0x300504, 1, "MemDimLongestUs", .u32, .rc, .none, false, 0, 4294967295, (some 0)⟩,
  ⟨0x300505, 1, "MemSoftRepairs", .u64, .rc, .none, false, 0, 18446744073709551615, (some 0)⟩,
  ⟨0x300506, 1, "MemThrottleMs", .u64, .rc, .none, false, 0, 18446744073709551615, (some 0)⟩,
  ⟨0x300600, 1, "MemHardRepairArm", .bool, .rw, .m, true, 0, 1, (some 0)⟩]

/-- Part 6 of the object table. -/
def objRows6 : List ObjRow := [
  ⟨0x301000, 1, "RemoteCacheMiBW", .u8, .rw, .h, true, 0, 32, (some 0)⟩,
  ⟨0x301001, 1, "RemoteCacheMiBE", .u8, .rw, .h, true, 0, 32, (some 0)⟩,
  ⟨0x301100, 1, "SpillAreaMiB", .u16, .rw, .h, true, 16, 512, (some 64)⟩,
  ⟨0x301200, 1, "DeadlockWatchUs", .u32, .rw, .h, true, 50, 100000, (some 200)⟩,
  ⟨0x301300, 1, "TstCorrected", .u64, .rc, .none, false, 0, 18446744073709551615, (some 0)⟩,
  ⟨0x301301, 1, "TstUncorrectable", .u64, .rc, .none, false, 0, 18446744073709551615, (some 0)⟩,
  ⟨0x301302, 1, "TstScrubPasses", .u64, .rc, .none, false, 0, 18446744073709551615, (some 0)⟩,
  ⟨0x301303, 1, "DeadlockBreaks", .u64, .rc, .none, false, 0, 18446744073709551615, (some 0)⟩,
  ⟨0x301304, 1, "DeadlockSpillFull", .u64, .rc, .none, false, 0, 18446744073709551615, (some 0)⟩,
  ⟨0x301305, 1, "SpillBytes", .u64, .rc, .none, false, 0, 18446744073709551615, (some 0)⟩,
  ⟨0x301306, 1, "ClaimWaits", .u64, .rc, .none, false, 0, 18446744073709551615, (some 0)⟩,
  ⟨0x301307, 1, "TstLineRemaps", .u64, .rc, .none, false, 0, 18446744073709551615, (some 0)⟩,
  ⟨0x301308, 1, "TstSparesLeftMin", .u16, .ro, .none, false, 0, 65535, (some 256)⟩,
  ⟨0x400000, 1, "LaserSourceMode", .u8, .rw, .h, true, 0, 2, (some 2)⟩,
  ⟨0x400001, 1, "LaserInputUse", .u8, .rw, .h, true, 0, 255, (some 255)⟩,
  ⟨0x400101, 8, "LaserInputState", .u8, .ro, .none, false, 0, 255, (some 0)⟩]

/-- Part 7 of the object table. -/
def objRows7 : List ObjRow := [
  ⟨0x400201, 8, "LaserLinesUsable", .u32, .ro, .none, false, 0, 4294967295, (some 0)⟩,
  ⟨0x400300, 1, "LockIntegrationUs", .u16, .rw, .h, true, 14, 1000, (some 14)⟩,
  ⟨0x400301, 1, "RotorStepUs", .u16, .rw, .h, true, 2940, 20000, (some 2940)⟩,
  ⟨0x400302, 1, "RotorEnable", .bool, .rw, .h, true, 0, 1, (some 1)⟩,
  ⟨0x400400, 1, "RingsLocked", .u16, .ro, .none, false, 0, 1088, (some 0)⟩,
  ⟨0x400401, 1, "RingsRetired", .u16, .ro, .none, false, 0, 65535, (some 0)⟩,
  ⟨0x400500, 1, "RotorSteps", .u64, .rc, .none, false, 0, 18446744073709551615, (some 0)⟩,
  ⟨0x400501, 1, "RotorAborts", .u64, .rc, .none, false, 0, 18446744073709551615, (some 0)⟩,
  ⟨0x400502, 1, "RotorSkips", .u64, .rc, .none, false, 0, 18446744073709551615, (some 0)⟩,
  ⟨0x400503, 1, "WrongLineEvents", .u64, .rc, .none, false, 0, 18446744073709551615, (some 0)⟩,
  ⟨0x400504, 1, "LockLosses", .u64, .rc, .none, false, 0, 18446744073709551615, (some 0)⟩,
  ⟨0x400505, 1, "Reassignments", .u64, .rc, .none, false, 0, 18446744073709551615, (some 0)⟩,
  ⟨0x400506, 1, "ReassignRefusals", .u64, .rc, .none, false, 0, 18446744073709551615, (some 0)⟩,
  ⟨0x400507, 1, "LaneDemandUnmet", .u16, .ro, .none, false, 0, 65535, (some 0)⟩,
  ⟨0x410000, 1, "LinkMinLanesPct", .u8, .rw, .h, true, 1, 100, (some 25)⟩,
  ⟨0x410001, 1, "LinkRemoveMs", .u16, .rw, .h, true, 100, 60000, (some 1000)⟩]

/-- Part 8 of the object table. -/
def objRows8 : List ObjRow := [
  ⟨0x410002, 1, "LinkQuarantine", .u64, .rw, .m, false, 0, 18446744073709551615, (some 0)⟩,
  ⟨0x410101, 64, "LinkState", .u8, .ro, .none, false, 0, 4, (some 4)⟩,
  ⟨0x410201, 64, "LinkPeer", .u32, .ro, .none, false, 0, 4294967295, (some 0)⟩,
  ⟨0x410301, 64, "LinkLanes", .u32, .ro, .none, false, 0, 4294967295, (some 0)⟩,
  ⟨0x410401, 64, "LinkRttNs", .u32, .ro, .none, false, 0, 4294967295, (some 0)⟩,
  ⟨0x410500, 1, "FlitRetries", .u64, .rc, .none, false, 0, 18446744073709551615, (some 0)⟩,
  ⟨0x410501, 1, "FecUncorrectable", .u64, .rc, .none, false, 0, 18446744073709551615, (some 0)⟩,
  ⟨0x410502, 1, "FecCorrectedSymbols", .u64, .rc, .none, false, 0, 18446744073709551615, (some 0)⟩,
  ⟨0x410503, 1, "LaneErrorRemovals", .u64, .rc, .none, false, 0, 18446744073709551615, (some 0)⟩,
  ⟨0x410504, 1, "LinkDarkEvents", .u64, .rc, .none, false, 0, 18446744073709551615, (some 0)⟩,
  ⟨0x410505, 1, "ResentFlits", .u64, .rc, .none, false, 0, 18446744073709551615, (some 0)⟩,
  ⟨0x410506, 1, "MapMismatches", .u64, .rc, .none, false, 0, 18446744073709551615, (some 0)⟩,
  ⟨0x410507, 1, "RetryWindowStalls", .u64, .rc, .none, false, 0, 18446744073709551615, (some 0)⟩,
  ⟨0x410508, 1, "GreyDrops", .u64, .rc, .none, false, 0, 18446744073709551615, (some 0)⟩,
  ⟨0x410509, 1, "FlitDuplicates", .u64, .rc, .none, false, 0, 18446744073709551615, (some 0)⟩,
  ⟨0x500000, 1, "RouteEpochActive", .u8, .ro, .none, false, 0, 255, (some 0)⟩]

/-- Part 9 of the object table. -/
def objRows9 : List ObjRow := [
  ⟨0x500001, 1, "RouteBankState", .u8, .ro, .none, false, 0, 255, (some 2)⟩,
  ⟨0x500002, 1, "EpochSwitch", .u8, .wo, .m, false, 0, 255, none⟩,
  ⟨0x500003, 1, "EpochRelease", .bool, .wo, .m, false, 0, 1, none⟩,
  ⟨0x500004, 1, "DrainArm", .bool, .wo, .m, false, 0, 1, none⟩,
  ⟨0x500005, 1, "DrainDirty", .bool, .ro, .none, false, 0, 1, (some 0)⟩,
  ⟨0x500006, 1, "OldEpochPackets", .u32, .ro, .none, false, 0, 4294967295, (some 0)⟩,
  ⟨0x500100, 1, "LinkWeights", .u32, .rw, .m, true, 0, 4294967295, (some 672734725)⟩,
  ⟨0x500200, 1, "CongMarkPct", .u8, .rw, .h, true, 50, 95, (some 75)⟩,
  ⟨0x500300, 1, "MaxAdaptiveHops", .u8, .rw, .h, true, 1, 62, (some 32)⟩,
  ⟨0x500301, 1, "RouteSalt", .u16, .rw, .h, true, 0, 65535, none⟩,
  ⟨0x500302, 1, "EscapeWaitUs", .u32, .rw, .h, true, 100, 100000, (some 1000)⟩,
  ⟨0x500303, 1, "EscapeStallMs", .u16, .rw, .h, true, 1, 10000, (some 10)⟩,
  ⟨0x500401, 4, "AxisInfo", .u64, .rw, .m, false, 0, 18446744073709551615, (some 0)⟩,
  ⟨0x501000, 1, "NoRouteDrops", .u64, .rc, .none, false, 0, 18446744073709551615, (some 0)⟩,
  ⟨0x501001, 1, "HopLimitDrops", .u64, .rc, .none, false, 0, 18446744073709551615, (some 0)⟩,
  ⟨0x501002, 1, "EpochMisses", .u64, .rc, .none, false, 0, 18446744073709551615, (some 0)⟩]

/-- Part 10 of the object table. -/
def objRows10 : List ObjRow := [
  ⟨0x501003, 1, "RouteMalformed", .u64, .rc, .none, false, 0, 18446744073709551615, (some 0)⟩,
  ⟨0x501004, 1, "MgmtDrops", .u64, .rc, .none, false, 0, 18446744073709551615, (some 0)⟩,
  ⟨0x501005, 1, "EscapeStalls", .u64, .rc, .none, false, 0, 18446744073709551615, (some 0)⟩,
  ⟨0x501006, 1, "CongMarks", .u64, .rc, .none, false, 0, 18446744073709551615, (some 0)⟩,
  ⟨0x501007, 1, "InjectWindowStalls", .u64, .rc, .none, false, 0, 18446744073709551615, (some 0)⟩,
  ⟨0x501008, 1, "McastShort", .u64, .rc, .none, false, 0, 18446744073709551615, (some 0)⟩,
  ⟨0x510000, 1, "WindowsInUse", .u16, .ro, .none, false, 0, 4096, (some 0)⟩,
  ⟨0x510001, 1, "ReplyTimeoutUs", .u32, .rw, .h, true, 1000, 1000000, (some 20000)⟩,
  ⟨0x510100, 1, "ReplayCacheEntries", .u32, .ro, .none, false, 0, 65536, (some 0)⟩,
  ⟨0x510101, 1, "ReplayLifetimeUs", .u32, .ro, .none, false, 0, 4294967295, (some 4000)⟩,
  ⟨0x510102, 1, "ReplayEarlyEvictions", .u64, .rc, .none, false, 0, 18446744073709551615, (some 0)⟩,
  ⟨0x510103, 1, "ReplayHits", .u64, .rc, .none, false, 0, 18446744073709551615, (some 0)⟩,
  ⟨0x510104, 1, "OutcomeUnknown", .u64, .rc, .none, false, 0, 18446744073709551615, (some 0)⟩,
  ⟨0x510200, 1, "FabReplyTimeouts", .u64, .rc, .none, false, 0, 18446744073709551615, (some 0)⟩,
  ⟨0x510201, 1, "LateReplies", .u64, .rc, .none, false, 0, 18446744073709551615, (some 0)⟩,
  ⟨0x510202, 1, "WindowMisses", .u64, .rc, .none, false, 0, 18446744073709551615, (some 0)⟩]

/-- Part 11 of the object table. -/
def objRows11 : List ObjRow := [
  ⟨0x510203, 1, "AtomicCombines", .u64, .rc, .none, false, 0, 18446744073709551615, (some 0)⟩,
  ⟨0x510204, 1, "SeqIssueStalls", .u64, .rc, .none, false, 0, 18446744073709551615, (some 0)⟩,
  ⟨0x510300, 1, "RCacheHits", .u64, .rc, .none, false, 0, 18446744073709551615, (some 0)⟩,
  ⟨0x510301, 1, "RCacheMisses", .u64, .rc, .none, false, 0, 18446744073709551615, (some 0)⟩,
  ⟨0x510302, 1, "RCacheInvalidations", .u64, .rc, .none, false, 0, 18446744073709551615, (some 0)⟩,
  ⟨0x520000, 1, "CollWatchdogMs", .u16, .rw, .h, true, 10, 60000, (some 2000)⟩,
  ⟨0x520001, 1, "CollActiveW", .u16, .ro, .none, false, 0, 256, (some 0)⟩,
  ⟨0x520002, 1, "CollActiveE", .u16, .ro, .none, false, 0, 256, (some 0)⟩,
  ⟨0x520003, 1, "CollSlotsInUseW", .u16, .ro, .none, false, 0, 2048, (some 0)⟩,
  ⟨0x520004, 1, "CollSlotsInUseE", .u16, .ro, .none, false, 0, 2048, (some 0)⟩,
  ⟨0x520100, 1, "GreyChunks", .u64, .rc, .none, false, 0, 18446744073709551615, (some 0)⟩,
  ⟨0x520101, 1, "CollDuplicates", .u64, .rc, .none, false, 0, 18446744073709551615, (some 0)⟩,
  ⟨0x520102, 1, "GreyOverflows", .u64, .rc, .none, false, 0, 18446744073709551615, (some 0)⟩,
  ⟨0x520103, 1, "CollTimeouts", .u64, .rc, .none, false, 0, 18446744073709551615, (some 0)⟩,
  ⟨0x520104, 1, "CollLateDrops", .u64, .rc, .none, false, 0, 18446744073709551615, (some 0)⟩,
  ⟨0x520105, 1, "CollOrphans", .u64, .rc, .none, false, 0, 18446744073709551615, (some 0)⟩]

/-- Part 12 of the object table. -/
def objRows12 : List ObjRow := [
  ⟨0x601000, 1, "ArrayRetiredMap", .u64, .rw, .v, true, 0, 18446744073709551615, (some 0)⟩,
  ⟨0x601001, 1, "ArraysInService", .u8, .ro, .none, false, 0, 64, (some 64)⟩,
  ⟨0x601002, 1, "ArrayStepRateMin", .u16, .ro, .none, false, 0, 65535, (some 0)⟩,
  ⟨0x601100, 1, "WitnessMisses", .u64, .rc, .none, false, 0, 18446744073709551615, (some 0)⟩,
  ⟨0x601101, 1, "WitnessRowsPoisoned", .u64, .rc, .none, false, 0, 18446744073709551615, (some 0)⟩,
  ⟨0x601102, 1, "WitnessRowsSkipped", .u64, .rc, .none, false, 0, 18446744073709551615, (some 0)⟩,
  ⟨0x601103, 1, "ArrayLoadWaitSteps", .u64, .rc, .none, false, 0, 18446744073709551615, (some 0)⟩,
  ⟨0x601200, 1, "MetricRowsExcluded", .u64, .rc, .none, false, 0, 18446744073709551615, (some 0)⟩,
  ⟨0x601201, 1, "MetricSaturations", .u64, .rc, .none, false, 0, 18446744073709551615, (some 0)⟩,
  ⟨0x601202, 1, "ShadowChecks", .u64, .rc, .none, false, 0, 18446744073709551615, (some 0)⟩,
  ⟨0x601300, 1, "KatPeriodS", .u8, .rw, .h, true, 1, 10, (some 10)⟩,
  ⟨0x601301, 1, "KatRuns", .u64, .rc, .none, false, 0, 18446744073709551615, (some 0)⟩,
  ⟨0x601302, 1, "KatFailures", .u64, .rc, .none, false, 0, 18446744073709551615, (some 0)⟩,
  ⟨0x601303, 1, "ArrayMissEvents", .u64, .rc, .none, false, 0, 18446744073709551615, (some 0)⟩,
  ⟨0x602000, 1, "EscEnable", .bool, .rw, .h, true, 0, 1, (some 1)⟩,
  ⟨0x602001, 1, "EscHoldSteps", .u16, .rw, .h, true, 1, 65535, (some 64)⟩]

/-- Part 13 of the object table. -/
def objRows13 : List ObjRow := [
  ⟨0x602002, 1, "EscEvents", .u64, .rc, .none, false, 0, 18446744073709551615, (some 0)⟩,
  ⟨0x602003, 1, "EscStepDowns", .u64, .rc, .none, false, 0, 18446744073709551615, (some 0)⟩,
  ⟨0x602004, 1, "EscExhausted", .u64, .rc, .none, false, 0, 18446744073709551615, (some 0)⟩,
  ⟨0x602005, 1, "EscAbandonedDescs", .u64, .rc, .none, false, 0, 18446744073709551615, (some 0)⟩,
  ⟨0x603000, 1, "StreamFaultLines", .u64, .rc, .none, false, 0, 18446744073709551615, (some 0)⟩,
  ⟨0x603001, 1, "StreamFaultDescs", .u64, .rc, .none, false, 0, 18446744073709551615, (some 0)⟩,
  ⟨0x603002, 1, "StreamSourcePoisonLines", .u64, .rc, .none, false, 0, 18446744073709551615, (some 0)⟩,
  ⟨0x603003, 1, "StreamPageRequests", .u64, .rc, .none, false, 0, 18446744073709551615, (some 0)⟩,
  ⟨0x603004, 1, "StreamLimitStalls", .u64, .rc, .none, false, 0, 18446744073709551615, (some 0)⟩,
  ⟨0x603005, 1, "SeamsOpened", .u64, .rc, .none, false, 0, 18446744073709551615, (some 0)⟩,
  ⟨0x604000, 1, "QueuesLaunched", .u16, .ro, .none, false, 0, 65535, (some 0)⟩,
  ⟨0x604001, 1, "WaitsPendingW", .u16, .ro, .none, false, 0, 4096, (some 0)⟩,
  ⟨0x604002, 1, "WaitsPendingE", .u16, .ro, .none, false, 0, 4096, (some 0)⟩,
  ⟨0x604003, 1, "WaitTableFullEvents", .u64, .rc, .none, false, 0, 18446744073709551615, (some 0)⟩,
  ⟨0x604004, 1, "DoorbellErrors", .u64, .rc, .none, false, 0, 18446744073709551615, (some 0)⟩,
  ⟨0x604005, 1, "RemoteSignalFaults", .u64, .rc, .none, false, 0, 18446744073709551615, (some 0)⟩]

/-- Part 14 of the object table. -/
def objRows14 : List ObjRow := [
  ⟨0x604006, 1, "CplRingStalls", .u64, .rc, .none, false, 0, 18446744073709551615, (some 0)⟩,
  ⟨0x604101, 8, "CoreWatchdogMs", .u16, .rw, .h, true, 1, 1000, (some 5)⟩,
  ⟨0x604201, 8, "CoreRestarts", .u32, .rc, .none, false, 0, 4294967295, (some 0)⟩,
  ⟨0x605000, 1, "CheckpointBase", .u64, .rw, .h, true, 0, 1236275298304, (some 1168231104512)⟩,
  ⟨0x605001, 1, "CheckpointNow", .bool, .wo, .h, false, 0, 1, none⟩,
  ⟨0x605002, 1, "CheckpointRestore", .bool, .wo, .h, false, 0, 1, none⟩,
  ⟨0x605003, 1, "CheckpointState", .u8, .ro, .none, false, 0, 3, (some 0)⟩,
  ⟨0x605004, 1, "CheckpointEpoch", .u32, .ro, .none, false, 0, 4294967295, (some 0)⟩,
  ⟨0x605005, 1, "CheckpointQuiesceMs", .u16, .rw, .h, true, 10, 10000, (some 100)⟩,
  ⟨0x700000, 1, "LifecycleState", .u8, .rwn, .v, true, 0, 4, (some 0)⟩,
  ⟨0x700001, 1, "LifecycleWritesLeft", .u8, .ro, .none, true, 0, 255, (some 9)⟩,
  ⟨0x700100, 1, "AntiRollbackLevel", .u8, .rwn, .m, true, 0, 64, (some 0)⟩,
  ⟨0x700101, 1, "AntiRollbackWritesLeft", .u8, .ro, .none, true, 0, 255, (some 64)⟩,
  ⟨0x700200, 1, "RootKeyRevoked", .u8, .ro, .none, true, 0, 255, (some 0)⟩,
  ⟨0x700201, 1, "RevokeRootKey", .u8, .wo, .v, true, 0, 1, none⟩,
  ⟨0x700300, 1, "ActiveBank", .u8, .ro, .none, true, 0, 1, (some 0)⟩]

/-- Part 15 of the object table. -/
def objRows15 : List ObjRow := [
  ⟨0x700301, 1, "BootBankRequest", .u8, .ro, .none, true, 0, 255, (some 255)⟩,
  ⟨0x700302, 1, "BankState", .u8, .ro, .none, false, 0, 255, (some 0)⟩,
  ⟨0x700303, 1, "FirmwareUpdateState", .u8, .ro, .none, true, 0, 5, (some 0)⟩,
  ⟨0x700304, 1, "RunningSecVersion", .u8, .ro, .none, false, 0, 255, none⟩,
  ⟨0x700305, 1, "BootVerifyFailures", .u64, .rc, .none, true, 0, 18446744073709551615, (some 0)⟩,
  ⟨0x700400, 1, "DebugUnlocked", .bool, .ro, .none, false, 0, 1, (some 0)⟩,
  ⟨0x700401, 1, "DebugNonce", .u64, .ro, .none, false, 0, 18446744073709551615, none⟩,
  ⟨0x700402, 1, "DebugLock", .bool, .wo, .h, false, 0, 1, none⟩,
  ⟨0x700403, 1, "DebugAllowProduction", .bool, .rw, .m, true, 0, 1, (some 0)⟩,
  ⟨0x700500, 1, "AttestState", .u8, .ro, .none, false, 0, 2, (some 0)⟩,
  ⟨0x700501, 1, "IdentityPublicKey", .domain, .ro, .none, true, 0, 32, none⟩,
  ⟨0x800000, 1, "SnapshotTake", .u64, .wo, .h, false, 0, 18446744073709551615, none⟩,
  ⟨0x800001, 1, "SnapshotState", .u8, .ro, .none, false, 0, 3, (some 0)⟩,
  ⟨0x800002, 1, "SnapshotEpoch", .u32, .ro, .none, false, 0, 4294967295, (some 0)⟩,
  ⟨0x800003, 1, "SnapshotsTaken", .u64, .rc, .none, false, 0, 18446744073709551615, (some 0)⟩,
  ⟨0x800101, 64, "LinkTxPackets", .u64, .ro, .none, false, 0, 18446744073709551615, (some 0)⟩]

/-- Part 16 of the object table. -/
def objRows16 : List ObjRow := [
  ⟨0x800201, 64, "LinkRxPackets", .u64, .ro, .none, false, 0, 18446744073709551615, (some 0)⟩,
  ⟨0x800300, 1, "LocalTimeNs", .u64, .ro, .none, false, 0, 18446744073709551615, (some 0)⟩,
  ⟨0x800301, 1, "TimeSource", .u8, .ro, .none, false, 0, 1, (some 1)⟩,
  ⟨0x800400, 1, "MonBaud", .u32, .rw, .m, true, 115200, 921600, (some 921600)⟩,
  ⟨0x800401, 1, "MonLinesDiscarded", .u64, .rc, .none, false, 0, 18446744073709551615, (some 0)⟩,
  ⟨0x801000, 1, "PoweredMs", .u64, .ro, .none, false, 0, 18446744073709551615, (some 0)⟩,
  ⟨0x801001, 1, "ProgressLossMs", .u64, .ro, .none, false, 0, 18446744073709551615, (some 0)⟩,
  ⟨0x900000, 1, "JournalNextSeq", .u64, .ro, .none, true, 0, 18446744073709551615, none⟩,
  ⟨0x900001, 1, "JournalOldestSeq", .u64, .ro, .none, true, 0, 18446744073709551615, none⟩,
  ⟨0x900002, 1, "JournalPending", .u16, .ro, .none, false, 0, 65535, (some 0)⟩,
  ⟨0x900003, 1, "JournalDropped", .u64, .rc, .none, true, 0, 18446744073709551615, (some 0)⟩,
  ⟨0xA01000, 1, "BridgeSpareMap", .domain, .ro, .none, true, 0, 3072, none⟩,
  ⟨0xA02000, 1, "SensorFaultMap", .domain, .ro, .none, false, 0, 22, none⟩,
  ⟨0xA03000, 1, "MemRepairList", .domain, .ro, .none, true, 0, 1099511627775, none⟩,
  ⟨0xA03100, 1, "TstRemapList", .domain, .ro, .none, true, 0, 1099511627775, none⟩,
  ⟨0xA04000, 1, "SpectralMap", .domain, .ro, .none, false, 0, 4352, none⟩]

/-- Part 17 of the object table. -/
def objRows17 : List ObjRow := [
  ⟨0xA04100, 1, "LaneDemand", .domain, .wo, .h, false, 0, 512, none⟩,
  ⟨0xA04200, 1, "RingCalTable", .domain, .ro, .none, true, 0, 8704, none⟩,
  ⟨0xA04300, 1, "RingRetiredMap", .domain, .ro, .none, true, 0, 136, none⟩,
  ⟨0xA04400, 1, "IntendedMap", .domain, .rw, .m, true, 0, 2176, none⟩,
  ⟨0xA05000, 1, "RouteTableLoad", .domain, .wo, .m, false, 0, 262144, none⟩,
  ⟨0xA05100, 1, "SendWindowTable", .domain, .ro, .none, false, 0, 131072, none⟩,
  ⟨0xA05200, 1, "CollGroupTable", .domain, .rw, .h, false, 0, 540672, none⟩,
  ⟨0xA05300, 1, "CollAbortDetail", .domain, .ro, .none, false, 0, 1099511627775, none⟩,
  ⟨0xA06000, 1, "EscalationImage", .domain, .rw, .h, false, 0, 16384, none⟩,
  ⟨0xA07001, 4, "ManagerKeyHash", .domain, .rw, .m, true, 0, 32, none⟩,
  ⟨0xA07100, 1, "FirmwareBank", .domain, .wo, .h, false, 0, 67108864, none⟩,
  ⟨0xA07200, 1, "MeasurementLog", .domain, .ro, .none, false, 0, 1099511627775, none⟩,
  ⟨0xA07300, 1, "IdentityCertificate", .domain, .rw, .v, true, 0, 1099511627775, none⟩,
  ⟨0xA07400, 1, "AttestNonce", .domain, .wo, .h, false, 0, 32, none⟩,
  ⟨0xA07500, 1, "AttestationReport", .domain, .ro, .none, false, 0, 8208, none⟩,
  ⟨0xA07600, 1, "DebugToken", .domain, .wo, .h, false, 0, 7920, none⟩]

/-- Part 18 of the object table. -/
def objRows18 : List ObjRow := [
  ⟨0xA08000, 1, "SnapshotImage", .domain, .ro, .none, false, 0, 1099511627775, none⟩,
  ⟨0xA08001, 1, "SnapshotImagePrev", .domain, .ro, .none, false, 0, 1099511627775, none⟩,
  ⟨0xA08100, 1, "SnapshotLayout", .domain, .ro, .none, false, 0, 1099511627775, none⟩,
  ⟨0xA09000, 1, "JournalImage", .domain, .ro, .none, true, 0, 16777216, none⟩,
  ⟨0xA09001, 1, "JournalRecent", .domain, .ro, .none, false, 0, 16384, none⟩,
  ⟨0xA09100, 1, "JournalCodes", .domain, .ro, .none, true, 0, 1099511627775, none⟩]

/-- The whole object table. -/
def objRows : List ObjRow :=
  objRows0 ++ objRows1 ++ objRows2 ++ objRows3 ++ objRows4 ++ objRows5 ++ objRows6 ++ objRows7 ++ objRows8 ++ objRows9 ++ objRows10 ++ objRows11 ++ objRows12 ++ objRows13 ++ objRows14 ++ objRows15 ++ objRows16 ++ objRows17 ++ objRows18

/-- The row of an object. -/
def objRow (k : Nat) : Option ObjRow :=
  objRows.find? (fun r => decide (r.key ≤ k) && decide (k < r.key + r.count))

/-- The length of a numeric type in bytes (Table DIC-1). -/
def DType.len : DType → Nat
  | .u8 | .bool => 1
  | .u16 => 2
  | .u32 | .i32 => 4
  | .u64 => 8
  | .str | .domain => 0

/-- True of the numeric types and BOOL. -/
def DType.numeric : DType → Bool
  | .str | .domain => false
  | _ => true

/-- The default of a numeric object. CoreWatchdogMs is 5, 20, 20 and 100 ms by core (Table QSY-7); an object with
no default reads 0 until the module sets it (log entry 4). -/
def objDefault (k : Nat) : Nat :=
  if k = 0x604102 ∨ k = 0x604103 ∨ k = 0x604106 ∨ k = 0x604107 then 20
  else if k = 0x604104 ∨ k = 0x604108 then 100
  else match objRow k with
    | some r => r.dflt.getD 0
    | none => 0

end Sys2Proof.Machine
end

