-- ==== Sys2Proof/Machine/Ops.lean ====
section
/-!
DEFINITION. The named operations over Dictionary objects, the journal, ALERT_N, free values, memory by Local
offset, and synchronisation objects.
-/

namespace Sys2Proof.Machine

/-- The outcome type of a meaning. -/
abbrev Res := Host.Outcome State Fault Refusal

/-- A command that names a part of Table MOD-2 acts only on parts that exist. -/
def need (ok : Bool) (s : State) : Res := if ok then .next s else .fault .noSuchPart

/-! ### Dictionary objects -/

/-- The stored value of a numeric object. -/
def objGet (s : State) (k : Nat) : Nat := smGetD s.dic k (objDefault k)

/-- A numeric object set. -/
def objPut (s : State) (k v : Nat) : State := { s with dic := smSet s.dic k v }

/-- Where a counter saturates: the top of its type (R431), or 64 bits for a counter without an object (R437). -/
def objTop (k : Nat) : Nat :=
  match objRow k with
  | some r => 256 ^ r.typ.len - 1
  | none => counterMax

/-- A counter with an amount added; it saturates (R431). -/
def objAdd (s : State) (k n : Nat) : State := objPut s k (satAdd (objTop k) (objGet s k) n)

/-- A counter with 1 added. -/
def objInc (s : State) (k : Nat) : State := objAdd s k 1

/-- A longest-value object (R176, R351). -/
def objMax (s : State) (k v : Nat) : State := objPut s k (max (objGet s k) v)

/-- A bit of an object set or cleared. -/
def objBit (s : State) (k i : Nat) (b : Bool) : State :=
  objPut s k (if b then setNatBit i (objGet s k) else clearNatBit i (objGet s k))

/-- The bytes of a DOMAIN object. -/
def domGet (s : State) (k : Nat) : Bytes := smGetD s.doms k []

/-- A DOMAIN object replaced. -/
def domPut (s : State) (k : Nat) (b : Bytes) : State := { s with doms := smSet s.doms k b }

/-- This module's chip number in effect. ChipNumber takes effect at the next restart, so the value in effect
is kept at the model's own key 0. -/
def chipKey : Nat := 0

/-- The chip number in effect (R19, R346). -/
def chip (s : State) : Nat := smGetD s.dic chipKey 0

/-- MON.FabAddrError of half W and of half E (R18, R437); the spec gives the counters no sub-indices
(log entry 10). -/
def fabAddrErrorKey (h : Half) : Nat :=
  match h with
  | .w => 0x802001
  | .e => 0x802002

/-! ### Messages outward, free values, time -/

/-- A message sent outward. -/
def emit (s : State) (o : Out) : State := { s with out := s.out ++ [o] }

/-- The next free value. -/
def freeNow (s : State) : Word64 := Config.freeWord s.free

/-- The state after a free value has been drawn. -/
def freeStep (s : State) : State := { s with free := s.free + 1 }

/-- Nanoseconds of a time in µs and in ms. -/
def us (n : Nat) : Nat := 1000 * n

/-- Nanoseconds of a time in ms. -/
def ms (n : Nat) : Nat := 1000000 * n

/-! ### Halves and parts (Table MOD-2) -/

/-- 0 for half W, 1 for half E. -/
def halfIx : Half → Nat
  | .w => 0
  | .e => 1

/-- The other half. -/
def otherHalf : Half → Half
  | .w => .e
  | .e => .w

/-- The half of a compute pair, channel, or anything numbered 0-63 (Table MOD-2). -/
def halfOf64 (n : Nat) : Half := if n < 32 then .w else .e

/-- The half of an out-fibre or in-fibre. -/
def halfOf32 (n : Nat) : Half := if n < 16 then .w else .e

/-- The half of an engine number: 0-63 a pair, 64-71 B0-B7. -/
def halfOfEngine (n : Nat) : Half := if n < 64 then halfOf64 n else if n < 68 then .w else .e

/-- Whether the bridge is trained and has not failed (Table MOD-8). -/
def bridgeUp (s : State) : Bool := decide (objGet s Obj.bridgeState ≤ 1)

/-- Whether half E is reached: over the bridge, or over the pilot link while the bridge carries nothing (R21, R22). -/
def pathE (s : State) : Bool := bridgeUp s || objGet s Obj.pilotState == 1

/-- The home half of a synchronisation object (Table MOD-3). -/
def halfOfObj (n : Nat) : Half := if n < 16384 then .w else .e

/-- Whether a key lies in one sub-index range of an index. -/
def keyIn (k first count : Nat) : Bool := decide (first ≤ k) && decide (k < first + count)

/-- The objects that half E's Dictionary core holds: those that report a part of half E (Table MOD-2). -/
def isHalfE (k : Nat) : Bool :=
  [0x301001, 0x520002, 0x520004, 0x604002, 0x802002].contains k
    || keyIn k 0x604105 4 || keyIn k 0x604205 4 || keyIn k 0x300121 32 || keyIn k 0x300209 8
    || keyIn k 0x200121 32 || keyIn k 0x20014D 12 || keyIn k 0x400105 4 || keyIn k 0x400205 4 || keyIn k 0x202305 4

/-! ### The journal and ALERT_N (R419, R438) -/

/-- The pending entry of lowest severity, the oldest first. -/
def lowestEntry : List JEntry → Option JEntry
  | [] => none
  | e :: r =>
    match lowestEntry r with
    | none => some e
    | some f => if Config.severity f.event < Config.severity e.event then some f else some e

/-- ALERT_N raised: AlertPending adds 1 (R419). -/
def alert (s : State) : State := objInc s Obj.alertPending

/-- The entry an event makes at this moment. -/
def journalEntry (s : State) (e : JEvent) (args : List Nat) (al : Bool) : JEntry :=
  { seq := objGet s Obj.journalNextSeq, timeNs := s.now - s.coldAt, boot := s.obs.bootCount, alert := al,
    event := e, args := args }

/-- An entry put into the buffer of 4,096 entries; a full buffer gives up its entry of lowest severity, the
oldest first, or drops the new one (R438). A dropped entry takes no sequence number (log entry 7). -/
def journalPut (s : State) (n : JEntry) : State :=
  if s.obs.jbuf.length < 4096 then
    objInc { s with obs := { s.obs with jbuf := s.obs.jbuf ++ [n] } } Obj.journalNextSeq
  else
    match lowestEntry s.obs.jbuf with
    | some l =>
      if Config.severity n.event < Config.severity l.event then objInc s Obj.journalDropped
      else objInc (objInc { s with obs := { s.obs with jbuf := s.obs.jbuf.erase l ++ [n] } } Obj.journalNextSeq)
        Obj.journalDropped
    | none => s

/-- An event that is journalled only. -/
def journal (s : State) (e : JEvent) (args : List Nat) : State := journalPut s (journalEntry s e args false)

/-- An event that is journalled and raises ALERT_N. -/
def journalAlert (s : State) (e : JEvent) (args : List Nat) : State :=
  alert (journalPut s (journalEntry s e args true))

/-! ### Memory by Local offset (R16 to R18) -/

/-- Where a Local offset leads (Table MOD-6, R163, R451). -/
inductive Region | lpddr | tile | sync | page | reserved
  deriving DecidableEq, Repr

def lpddrSize : Nat := 0x012000000000
def tileBase : Nat := 0x080000000000
def tileSize : Nat := 0x24000000
def sliceSize : Nat := 0x900000
def syncBase : Nat := 0x090000000000
def pageBase : Nat := 0x0A0000000000

/-- The first offset of the spill area: the top SpillAreaMiB of LPDDR, as in effect since the last start
(R163, R181). -/
def spillBase (s : State) : Nat := lpddrSize - s.spillEff * 1048576

/-- The contents of an offset (Table MOD-6). The spill area is a reserved offset to all but the breaker (R163). -/
def regionOf (s : State) (off : Nat) : Region :=
  if off < lpddrSize then (if spillBase s ≤ off then .reserved else .lpddr)
  else if tileBase ≤ off ∧ off < tileBase + tileSize then .tile
  else if syncBase ≤ off ∧ off < syncBase + 0x40000 then .sync
  else if pageBase ≤ off ∧ off < pageBase + 0x400000 then .page
  else .reserved

/-- The parity of the bits of a number below 2^w. -/
def parityBits : Nat → Nat → Nat
  | 0, _ => 0
  | w + 1, n => (n % 2 + parityBits w (n / 2)) % 2

/-- The six fixed masks of the address hash (R170). -/
def hashMasks : List Nat := [0x1041041, 0x2082082, 0x4104104, 0x0208208, 0x0410410, 0x0820820]

/-- Mask i of the hash as a key alters it (R170). -/
def hashMask (key i : Nat) : Nat :=
  Nat.xor (hashMasks.getD i 0) ((key / 2 ^ (10 * i) % 1024) * 0x200801) % 2 ^ 27

/-- The channel and the byte within the channel of an LPDDR offset (R170). -/
def lpddrPlace (key off : Nat) : Nat × Nat :=
  let g := off / 256
  let u := g / 64
  let c := (List.range 6).foldl (fun acc i => acc + parityBits 27 (Nat.land u (hashMask key i)) * 2 ^ i) 0
  (Nat.xor (g % 64) c, u * 256 + off % 256)

/-- The channel of an LPDDR offset with the key in effect. -/
def channelOf (s : State) (off : Nat) : Nat := (lpddrPlace s.keyEff off).1

/-- The half a reserved access is counted in: half E for its own control window, else half W (R18). -/
def errorHalf (off : Nat) : Half := if 0x0A0004000000 ≤ off ∧ off < 0x0A0008000000 then .e else .w

/-- The home half of an offset (Table MOD-6). -/
def homeHalf (s : State) (off : Nat) : Half :=
  if off < lpddrSize then halfOf64 (channelOf s off)
  else if tileBase ≤ off ∧ off < tileBase + tileSize then halfOf64 ((off - tileBase) / sliceSize)
  else if syncBase ≤ off ∧ off < syncBase + 0x40000 then halfOfObj ((off - syncBase) / 8)
  else errorHalf off

/-- An access to a reserved offset is counted in MON.FabAddrError of the home half (R18). The spill area lies in
LPDDR, whose home half is its channel's. -/
def countAddrError (s : State) (off : Nat) : State := objInc s (fabAddrErrorKey (homeHalf s off))

/-- The line number of a tile store offset. -/
def tileLine (off : Nat) : Nat := (off - tileBase) / 64

/-- Bytes of LPDDR or of the tile store, with no check. -/
def rawBytes (s : State) (off n : Nat) : Bytes :=
  if off < lpddrSize then memBytes s.lpddr off n else memBytes s.tile (off - tileBase) n

/-- Whether the line of an offset reads poisoned: its poison bit, or an uncorrectable LPDDR line (R164, R169). -/
def linePoison (s : State) (off : Nat) : Bool :=
  if off < lpddrSize then nsHas s.lpddrPoison (off / 64) || nsHas s.lpddrBad (off / 64)
  else nsHas s.tilePoison (tileLine off)

/-- The offsets of the lines that a run of bytes covers. -/
def linesOf (off n : Nat) : List Nat :=
  if n = 0 then [] else (List.range ((off + n - 1) / 64 - off / 64 + 1)).map (fun i => (off / 64 + i) * 64)

/-- The number whose value stands at byte i of an unspecified line. -/
def freeByteAt (s : State) (i : Nat) : Byte :=
  BitVec.ofNat 8 ((Config.freeWord (s.free + i / 8)).toNat / 256 ^ (i % 8))

/-- A line of unspecified bytes. -/
def freeLine (s : State) : Bytes := (List.range 64).map (freeByteAt s)

/-- Whether any line of a run is an uncorrectable LPDDR line (R169). -/
def runBad (s : State) (off n : Nat) : Bool := decide (off < lpddrSize) && (linesOf off n).any (fun l => nsHas s.lpddrBad (l / 64))

/-- The bytes that a read of a run delivers: those of an uncorrectable line are left open (R169; log entry 3). -/
def readBytes (s : State) (off n : Nat) : Bytes :=
  if runBad s off n then
    (List.range n).map (fun i => if nsHas s.lpddrBad ((off + i) / 64) then freeByteAt s i else memRead s.lpddr (off + i))
  else rawBytes s off n

/-- The state after such a read: its free values are used up. -/
def afterRead (s : State) (off n : Nat) : State := if runBad s off n then { s with free := s.free + ceilDiv n 8 } else s

/-- One 64-B line of LPDDR or of the tile store as a reader gets it. -/
def readLine (s : State) (off : Nat) : LineData :=
  { bytes := readBytes s (off / 64 * 64) 64, poison := linePoison s off }

/-- The full byte mask of a line. -/
def fullMask : Nat := 2 ^ 64 - 1

/-- A masked write of one tile store line: a whole-line clean write clears the poison bit, a partial one leaves
it, a poisoned one sets it (R164). -/
def writeTileLine (s : State) (line mask : Nat) (data : Bytes) (poison : Bool) : State :=
  { s with
    tile := memStoreMask s.tile (64 * line) mask data
    tilePoison := nsPut s.tilePoison line (poison || (nsHas s.tilePoison line && mask != fullMask)) }

/-- A masked write of one LPDDR line (R169). A partial write to an uncorrectable line leaves the other bytes
unspecified (free values) and sets the poison bit. -/
def writeLpddrLine (s : State) (line mask : Nat) (data : Bytes) (poison : Bool) : State :=
  if nsHas s.lpddrBad line && mask != fullMask then
    { s with
      lpddr := memStoreMask (memStore s.lpddr (64 * line) (freeLine s)) (64 * line) mask data
      lpddrPoison := nsAdd s.lpddrPoison line
      lpddrBad := nsDel s.lpddrBad line
      free := s.free + 8 }
  else
    { s with
      lpddr := memStoreMask s.lpddr (64 * line) mask data
      lpddrPoison := nsPut s.lpddrPoison line (poison || (nsHas s.lpddrPoison line && mask != fullMask))
      lpddrBad := nsDel s.lpddrBad line }

/-- A channel. -/
def chanOf (s : State) (ch : Nat) : Chan := s.chans.getD ch {}

/-- A function applied to a channel. -/
def updChan (s : State) (ch : Nat) (f : Chan → Chan) : State := { s with chans := modifyAt s.chans ch f }

/-- Whether a channel's write queue holds a line. -/
def holdsWrite (c : Chan) (line : Nat) : Bool := c.writeQ.any (fun w => w.1 == line)

/-- A controller that accepts a write of a line (R172, R173): it merges with a queued write of the line; a full queue has first
written its oldest line, but on a Dim channel the write waits at its port. Writes go first from 48 lines on. A write-back of the
line is no longer made. -/
def acceptWrite (now line : Nat) (c : Chan) : Chan :=
  let c := { c with back := c.back.filter (· != line) }
  if holdsWrite c line then c
  else if c.writeQ.length < 64 then
    { c with writeQ := c.writeQ ++ [(line, now)], draining := c.draining || decide (48 ≤ c.writeQ.length + 1) }
  else if c.dim.isSome then { c with writeWait := c.writeWait.filter (· != line) ++ [line] }
  else { c with writeQ := c.writeQ.drop 1 ++ [(line, now)], draining := true }

/-- A write of a line reaches its channel: the queue never changes what a read returns (R173), and a write to a Dim channel waits
and is counted (R176). -/
def noteWrite (s : State) (line : Nat) : State :=
  let ch := channelOf s (64 * line)
  let s := if (chanOf s ch).dim.isSome then objInc s Obj.memDimStalledRequests else s
  updChan s ch (acceptWrite s.now line)

/-- Whether a line's channel is Dim (R176). -/
def lineDim (s : State) (off : Nat) : Bool := decide (off < lpddrSize) && (chanOf s (channelOf s off)).dim.isSome

/-- Whether a write of a line finds room: only the full queue of a Dim channel keeps it at its engine or port (R168, R176). -/
def writeRoom (s : State) (off : Nat) : Bool :=
  let c := chanOf s (channelOf s off)
  !lineDim s off || decide (c.writeQ.length < 64) || holdsWrite c (off / 64)

/-- A masked write of one line of LPDDR or of the tile store at an offset. -/
def writeLine (s : State) (off mask : Nat) (data : Bytes) (poison : Bool) : State :=
  if off < lpddrSize then noteWrite (writeLpddrLine s (off / 64) mask data poison) (off / 64)
  else writeTileLine s (tileLine off) mask data poison

/-- The mask of n bytes from byte b of a line. -/
def maskFrom (b n : Nat) : Nat := (2 ^ n - 1) * 2 ^ b

/-- A run of bytes written from an offset, line by line, with one poison bit for the lines it writes. `fuel` is
the number of lines. -/
def writeRun (s : State) (off : Nat) (data : Bytes) (poison : Bool) : Nat → State
  | 0 => s
  | k + 1 =>
    if data.isEmpty then s
    else
      let b := off % 64
      let n := min (64 - b) data.length
      writeRun (writeLine s off (maskFrom b n) (List.replicate b 0 ++ data.take n) poison)
        (off + n) (data.drop n) poison k

/-- A run of bytes written from an offset. -/
def writeBytes (s : State) (off : Nat) (data : Bytes) (poison : Bool) : State :=
  writeRun s off data poison (data.length / 64 + 2)

/-- A request that waits on a Dim channel outside its queues is counted once for the Dim period (R176). -/
def dimStall (s : State) (ch : Nat) (key : Nat × Nat × Nat) : State :=
  if (chanOf s ch).stalledBy.contains key then s
  else updChan (objInc s Obj.memDimStalledRequests) ch (fun c => { c with stalledBy := c.stalledBy ++ [key] })

/-- The first line of a run whose channel is Dim. -/
def dimLine (s : State) (off n : Nat) : Option Nat := (linesOf off n).find? (lineDim s)

/-- An access of n bytes that waits for a Dim channel, counted under its key; `go` is what it does on no Dim channel (R176). -/
def pastDim (s : State) (off n : Nat) (key : Nat × Nat × Nat) (go : State → State) : State :=
  match dimLine s off n with
  | some l => dimStall s (channelOf s l) key
  | none => go s

/-! ### Events of clocked islands (R409 to R414) -/

/-- The number of an island: facets from 0, channels from 16, bundles from 128, then the host port, pilot link, MAC and UART. -/
def islandIx : Island → Nat
  | .facet f => f
  | .channel c => 16 + c
  | .bundle b => 128 + b
  | .hostPhy => 256
  | .pilot => 257
  | .mac => 258
  | .uart => 259

/-- The event spacing S of an island in whole ns (Table BOOT-6). -/
def islandGap : Island → Nat
  | .facet _ => 5
  | .bundle _ => 4
  | .channel _ => 5
  | .hostPhy => 6
  | .pilot => 15
  | .mac => 123
  | .uart => 207

/-- n events counted in an island for an object, and one control event sent: the toggle changes, or while the last change is not
acknowledged the event merges into it (R410, R411). DESIGN CHOICE (log entry 26): an acknowledgement takes the whole of S. -/
def islandEvent (s : State) (i : Island) (key n : Nat) : State :=
  if n = 0 then s
  else
    let w := smGetD s.wires (islandIx i) {}
    let w := { w with counts := smSet w.counts key (satAdd (objTop key) (smGetD w.counts key 0) n) }
    let w := if w.ackAt.isSome then w else { w with toggle := !w.toggle, ackAt := some (s.now + islandGap i) }
    { s with wires := smSet s.wires (islandIx i) w }

/-- The counts of a crossing read as data into their objects. -/
def readCounts (s : State) (k : Nat) : State :=
  let w := smGetD s.wires k {}
  w.counts.foldl (fun s e => objAdd s e.1 e.2) { s with wires := smSet s.wires k { w with pulse := false, counts := [] } }

/-- Whether what a crossing's pulse goes to acts on it: core 2 of the half for a facet, which has to run (Table CTL-1), else hardware. -/
def wireTaken (s : State) (k : Nat) : Bool := decide (4 ≤ k) || (s.cores.getD (if k < 2 then 2 else 6) {}).st == 1

/-- A crossing as time passes: an acknowledgement that returns leaves one pulse at the far side, which reads the counts. -/
def settleWire (s : State) (k : Nat) : State :=
  let w := smGetD s.wires k {}
  let s := if w.ackAt.any (fun t => decide (t ≤ s.now)) then
      { s with wires := smSet s.wires k { w with seen := w.toggle, ackAt := none, pulse := true } }
    else s
  if (smGetD s.wires k {}).pulse && wireTaken s k then readCounts s k else s

/-- Every crossing as time passes. -/
def settleWires (s : State) : State := (smKeys s.wires).foldl settleWire s

/-- Both sides of an island's crossings are reset as one: an event in flight is not delivered, and the counts are read once the
island runs again (R413, R414). -/
def islandReset (s : State) (i : Island) : State :=
  let s := readCounts s (islandIx i)
  { s with wires := smErase s.wires (islandIx i) }

/-! ### Errors that reads find (R164, R169) -/

/-- What an engine's reads found at lines of its own slice: a correction counted, or the line marked poisoned (R164). -/
def applyTst (s : State) (slice : Nat) : List TstEvent → State
  | [] => s
  | t :: r =>
    let s := if sliceSize / 64 ≤ t.line then s
      else if t.uncorrectable then
        objInc { s with tilePoison := nsAdd s.tilePoison (slice * (sliceSize / 64) + t.line) } Obj.tstUncorrectable
      else objInc s Obj.tstCorrected
    applyTst s slice r

/-- What a controller keeps of an error in a row (Table MEM-4, R179): the time of an uncorrectable line, or the scrub pass of a
corrected one. -/
def noteRow (s : State) (line : Nat) (pass : Option Nat) : State :=
  let x := lpddrPlace s.keyEff (64 * line)
  let b := Config.rowOf (x.2 / 64)
  let mine (r : RowErr) : Bool := r.bank == b.1 && r.row == b.2
  updChan s x.1 (fun c =>
    let old := (c.rows.find? mine).getD { bank := b.1, row := b.2 }
    { c with rows := c.rows.filter (fun r => !mine r) ++
        [match pass with
         | some p => { old with passes := nsAdd old.passes p }
         | none => { old with badAt := some s.now }] })

/-- A corrected line (R169): counted in its channel's island with its time (Table MEM-4), to be written back in the background class. -/
def noteCorrected (s : State) (line : Nat) : State :=
  updChan (islandEvent s (.channel (channelOf s (64 * line))) Obj.memCorrected 1) (channelOf s (64 * line)) (fun c =>
    { c with corrTimes := c.corrTimes.filter (fun t => decide (s.now < t + ms 1000)) ++ [s.now]
             back := c.back.filter (· != line) ++ [line] })

/-- A read of one line is decoded (R169). -/
def readDecoded (s : State) (line : Nat) (e : Ecc) : State :=
  match e with
  | .clean => s
  | .corrected => noteCorrected s line
  | .uncorrectable =>
    noteRow (islandEvent { s with lpddrBad := nsAdd s.lpddrBad line } (.channel (channelOf s (64 * line))) Obj.memUncorrectable 1) line none

/-- What an access found at one line that it reads, in the flat window or in LPDDR. -/
def lineFound (s : State) (x : LineEvent) : State :=
  match regionOf s (64 * x.line) with
  | .lpddr => readDecoded s x.line x.e
  | .tile =>
    match x.e with
    | .clean => s
    | .corrected => objInc s Obj.tstCorrected
    | .uncorrectable => objInc { s with tilePoison := nsAdd s.tilePoison (tileLine (64 * x.line)) } Obj.tstUncorrectable
  | _ => s

/-- What an access found at the lines that it reads; an event of another line says nothing (R164, R169). -/
def linesFound (s : State) (lines : List Nat) (ev : List LineEvent) : State :=
  (ev.filter (fun x => lines.contains (64 * x.line))).foldl lineFound s

/-- Whether any line of a run reads poisoned. -/
def runPoison (s : State) (off n : Nat) : Bool := (linesOf off n).any (linePoison s)

/-- Whether every byte of a run lies in LPDDR or the tile store. -/
def plainRun (s : State) (off n : Nat) : Bool :=
  let r := regionOf s off
  let r' := regionOf s (off + n - 1)
  (r == .lpddr || r == .tile) && r == r'

/-! ### Synchronisation objects (R194 to R197) -/

/-- The value of a synchronisation object. -/
def syncGet (s : State) (o : Nat) : Word64 := smGetD s.sync o 0

/-- Table waits that a value satisfies leave the waiter table; polled waits stay (R196, R197). -/
def releaseWaits (s : State) (o v : Nat) : State :=
  { s with waiters := s.waiters.filter (fun w => !(w.obj == o && !w.polled && decide (w.value ≤ v))) }

/-- Claims of In descriptors whose WaitObj has reached WaitBase + n are released (R160). -/
def releaseClaims (s : State) (o v : Nat) : State :=
  { s with claims := s.claims.filter (fun c =>
      match c.release with
      | some (o', v') => !(o' == o && decide (v' ≤ v))
      | none => true) }

/-- An object takes a value: waits and claims that it satisfies are released. -/
def syncPut (s : State) (o : Nat) (v : Word64) : State :=
  releaseClaims (releaseWaits { s with sync := smSet s.sync o v } o v.toNat) o v.toNat

/-- A signal adds its amount modulo 2^64 (Table QSY-6). -/
def syncAdd (s : State) (o amount : Nat) : State := syncPut s o (syncGet s o + BitVec.ofNat 64 amount)

end Sys2Proof.Machine
end

