-- ==== Sys2Proof/Machine/Formats.lean ====
section
/-!
DEFINITION. Number formats (02): the K formats, BX8 scales and integers, their packing, their exact values, and
rounding once into a destination (R28 to R47).
-/

namespace Sys2Proof.Machine

/-- Element formats (Table VEC-1), with the raw 32-bit word. -/
inductive Fmt | k4 | k6 | k8 | k8w | k16 | k32 | int4 | int8 | int32 | word32
  deriving DecidableEq, Repr

/-- An exact value of a K format: NaR, an infinity with its sign, or m × 2^e. -/
inductive KVal
  | nar
  | inf (neg : Bool)
  | fin (m e : Int)
  deriving DecidableEq, Repr

/-- +0. -/
def KVal.zero : KVal := .fin 0 0

/-- Width of an element in bits (Table VEC-1). -/
def Fmt.bits : Fmt → Nat
  | .k4 | .int4 => 4
  | .k6 => 6
  | .k8 | .k8w | .int8 => 8
  | .k16 => 16
  | .k32 | .int32 | .word32 => 32

/-- Elements in a 64-B line (Table VEC-1). -/
def Fmt.perLine : Fmt → Nat
  | .k4 | .int4 => 128
  | .k6 => 80
  | .k8 | .k8w | .int8 => 64
  | .k16 => 32
  | .k32 | .int32 | .word32 => 16

/-- True of the K formats. -/
def Fmt.isK : Fmt → Bool
  | .k4 | .k6 | .k8 | .k8w | .k16 | .k32 => true
  | _ => false

/-- True of the integer formats. -/
def Fmt.isInt : Fmt → Bool
  | .int4 | .int8 | .int32 => true
  | _ => false

/-- True of the formats that may carry a BX8 scale (R36). -/
def Fmt.short : Fmt → Bool
  | .k4 | .k6 | .k8 | .k8w => true
  | _ => false

/-- Exponent field width (Table VEC-2). -/
def Fmt.expBits : Fmt → Nat
  | .k4 => 2
  | .k6 => 3
  | .k8 => 4
  | .k8w => 5
  | _ => 8

/-- Mantissa field width (Table VEC-2). -/
def Fmt.manBits : Fmt → Nat
  | .k4 => 1
  | .k6 => 2
  | .k8 => 3
  | .k8w => 2
  | .k16 => 7
  | _ => 23

/-- Exponent bias (Table VEC-2). -/
def Fmt.bias : Fmt → Nat
  | .k4 => 1
  | .k6 => 3
  | .k8 => 7
  | .k8w => 15
  | _ => 127

/-- True of the formats that have infinities (Table VEC-2). -/
def Fmt.hasInf : Fmt → Bool
  | .k8w | .k16 | .k32 => true
  | _ => false

/-- True of the formats that flush subnormals (R35). -/
def Fmt.flush : Fmt → Bool
  | .k16 | .k32 => true
  | _ => false

/-- The sign bit of a format as a number; alone it is the NaR code (R29). -/
def Fmt.signBit (f : Fmt) : Nat := 2 ^ (f.bits - 1)

/-- The NaR code a unit writes (R30). -/
def Fmt.narCode (f : Fmt) : Nat := f.signBit

/-- The code of an infinity, for the formats that have one. -/
def Fmt.infCode (f : Fmt) (neg : Bool) : Nat :=
  (2 ^ f.expBits - 1) * 2 ^ f.manBits + (if neg then f.signBit else 0)

/-- The code of the largest finite value (Table VEC-4). -/
def Fmt.maxCode (f : Fmt) (neg : Bool) : Nat :=
  (if f.hasInf then (2 ^ f.expBits - 1) * 2 ^ f.manBits - 1 else f.signBit - 1) + (if neg then f.signBit else 0)

/-- m × 2^e with a sign. -/
def signed (neg : Bool) (m : Nat) (e : Int) : KVal := .fin (if neg then -(m : Int) else (m : Int)) e

/-- The value of a K code (R29, R34, R35). -/
def decodeK (f : Fmt) (code : Nat) : KVal :=
  let c := code % 2 ^ f.bits
  let neg := f.signBit ≤ c
  let mag := c % f.signBit
  let e := mag / 2 ^ f.manBits
  let m := mag % 2 ^ f.manBits
  if c = f.signBit then .nar
  else if e = 0 then
    if f.flush then KVal.zero else signed neg m (1 - (f.bias : Int) - f.manBits)
  else if f.hasInf && e == 2 ^ f.expBits - 1 then
    if m = 0 then .inf neg else .nar
  else signed neg (2 ^ f.manBits + m) ((e : Int) - f.bias - f.manBits)

/-- A code with the flags its rounding raised. -/
structure Coded where
  code : Nat
  ovf : Bool := false
  uf : Bool := false
  deriving DecidableEq, Repr

/-- 2^k for an exponent that is not negative, 0 otherwise. -/
def pow2 (k : Int) : Nat := if k < 0 then 0 else 2 ^ k.toNat

/-- The exponent of the place value of the last mantissa bit at a magnitude a × 2^e (a > 0): the binade's, or
the subnormal step; K16 and K32 round as if the exponent were unbounded (R43, R45). -/
def ulpExp (f : Fmt) (a : Nat) (e : Int) : Int :=
  let lg : Int := (Nat.log2 a : Int) + e
  let emin : Int := 1 - f.bias
  (if f.flush then lg else max lg emin) - f.manBits

/-- The code of n × 2^q, where n is at most 2^(manBits + 1), after rounding; saturates or overflows past the
largest finite value and flushes below the smallest normal of K16 and K32 (R42, R43). -/
def packK (f : Fmt) (neg : Bool) (n : Nat) (q : Int) : Coded :=
  let w := f.manBits
  let n' := if 2 ^ (w + 1) ≤ n then n / 2 else n
  let q' : Int := if 2 ^ (w + 1) ≤ n then q + 1 else q
  let sign := if neg then f.signBit else 0
  if n' = 0 then ⟨0, false, true⟩
  else if n' < 2 ^ w then ⟨n' + sign, false, false⟩
  else
    let e : Int := q' + w + f.bias
    if e ≤ 0 then ⟨0, false, true⟩
    else
      let mag := e.toNat * 2 ^ w + (n' - 2 ^ w)
      if f.maxCode false < mag then ⟨if f.hasInf then f.infCode neg else f.maxCode neg, true, false⟩
      else ⟨mag + sign, false, false⟩

/-- The magnitude a × 2^e as a count of units 2^q, rounded to nearest with ties to even. -/
def rneUnits (a : Nat) (e q : Int) : Nat :=
  if q ≤ e then a * pow2 (e - q)
  else
    let d := pow2 (q - e)
    let n := a / d
    let r := a % d
    if d < 2 * r then n + 1 else if d = 2 * r then n + n % 2 else n

/-- Rounding to nearest, ties to even (R42, R43). -/
def roundNearest (f : Fmt) (m e : Int) : Coded :=
  if m = 0 then ⟨0, false, false⟩
  else
    let q := ulpExp f m.natAbs e
    packK f (decide (m < 0)) (rneUnits m.natAbs e q) q

/-- The magnitude a × 2^e in units 2^q, rounded up when the discarded fraction, cut to 16 bits, and the draw
reach 65,536 (R45). -/
def srUnits (a : Nat) (e q : Int) (draw : Nat) : Nat :=
  if q ≤ e then a * pow2 (e - q)
  else
    let d := pow2 (q - e)
    a / d + (if 65536 ≤ a % d * 65536 / d + draw then 1 else 0)

/-- Stochastic rounding into K4, K6 or K8 with a draw (R45). -/
def roundStoch (f : Fmt) (m e : Int) (draw : Nat) : Coded :=
  if m = 0 then ⟨0, false, false⟩
  else
    let q := ulpExp f m.natAbs e
    packK f (decide (m < 0)) (srUnits m.natAbs e q draw) q

/-- The 64-bit mixing function of R45. -/
def srMix (x : Word64) : Word64 :=
  let x := x ^^^ (x >>> 33)
  let x := x * 0xFF51AFD7ED558CCD#64
  let x := x ^^^ (x >>> 33)
  let x := x * 0xC4CEB9FE1A85EC53#64
  x ^^^ (x >>> 33)

/-- The 16 random bits of a seed, lane and index (R45). -/
def srDraw (seed lane index : Nat) : Nat :=
  (srMix (srMix ((BitVec.ofNat 64 seed <<< 32) ||| BitVec.ofNat 64 lane) ^^^ BitVec.ofNat 64 index)).toNat / 2 ^ 48

/-- How a conversion rounds. -/
inductive RMode
  | nearest
  | stoch (draw : Nat)
  deriving DecidableEq, Repr

/-- An exact value as a code of a destination, with its flags (Table VEC-8). A NaR raises NaR-seen, which the
caller reads off the value. -/
def encodeK (f : Fmt) (r : RMode) : KVal → Coded
  | .nar => ⟨f.narCode, false, false⟩
  | .inf neg => if f.hasInf then ⟨f.infCode neg, false, false⟩ else ⟨f.maxCode neg, true, false⟩
  | .fin m e =>
    match r with
    | .nearest => roundNearest f m e
    | .stoch d => roundStoch f m e d

/-- The value scaled by 2^k, exactly. -/
def KVal.scale (k : Int) : KVal → KVal
  | .fin m e => if m = 0 then KVal.zero else .fin m (e + k)
  | v => v

/-- An element with its BX8 scale byte: a scale of 0xFF makes it NaR (R36, R37). -/
def scaled (byte : Nat) (v : KVal) : KVal := if byte = 255 then .nar else v.scale ((byte : Int) - 127)

/-- True of NaR. -/
def KVal.isNar : KVal → Bool
  | .nar => true
  | _ => false

/-- True of an infinity. -/
def KVal.isInf : KVal → Bool
  | .inf _ => true
  | _ => false

/-- True of zero. -/
def KVal.isZero : KVal → Bool
  | .fin m _ => m == 0
  | _ => false

/-- True below zero. -/
def KVal.isNeg : KVal → Bool
  | .fin m _ => decide (m < 0)
  | .inf n => n
  | .nar => false

/-- A value and whether the operation was invalid (R32). -/
structure KRes where
  v : KVal
  nv : Bool := false
  deriving DecidableEq, Repr

/-- Negation: NaR and +0 stay (R31). -/
def KVal.neg : KVal → KVal
  | .nar => .nar
  | .inf n => .inf (!n)
  | .fin m e => .fin (-m) e

/-- Absolute value (R31). -/
def KVal.abs : KVal → KVal
  | .nar => .nar
  | .inf _ => .inf false
  | .fin m e => .fin (m.natAbs : Int) e

/-- The exact sum of two finite values. -/
def finAdd (m1 e1 m2 e2 : Int) : KVal :=
  let e := min e1 e2
  .fin (m1 * (pow2 (e1 - e) : Int) + m2 * (pow2 (e2 - e) : Int)) e

/-- The exact sum: ∞ − ∞ is invalid (R32). -/
def kAdd : KVal → KVal → KRes
  | .nar, _ => ⟨.nar, false⟩
  | _, .nar => ⟨.nar, false⟩
  | .inf a, .inf b => if a = b then ⟨.inf a, false⟩ else ⟨.nar, true⟩
  | .inf a, .fin _ _ => ⟨.inf a, false⟩
  | .fin _ _, .inf b => ⟨.inf b, false⟩
  | .fin m1 e1, .fin m2 e2 => ⟨finAdd m1 e1 m2 e2, false⟩

/-- The exact product: 0 × ∞ is invalid (R32). -/
def kMul : KVal → KVal → KRes
  | .nar, _ => ⟨.nar, false⟩
  | _, .nar => ⟨.nar, false⟩
  | .inf a, .inf b => ⟨.inf (a != b), false⟩
  | .inf a, .fin m _ => if m = 0 then ⟨.nar, true⟩ else ⟨.inf (a != decide (m < 0)), false⟩
  | .fin m _, .inf b => if m = 0 then ⟨.nar, true⟩ else ⟨.inf (b != decide (m < 0)), false⟩
  | .fin m1 e1, .fin m2 e2 => ⟨.fin (m1 * m2) (e1 + e2), false⟩

/-- Comparison of two values that are not NaR: less than. -/
def kLt : KVal → KVal → Bool
  | .inf a, .inf b => a && !b
  | .inf a, .fin _ _ => a
  | .fin _ _, .inf b => !b
  | .fin m1 e1, .fin m2 e2 =>
    let e := min e1 e2
    decide (m1 * (pow2 (e1 - e) : Int) < m2 * (pow2 (e2 - e) : Int))
  | _, _ => false

/-- Equal values; a NaR equals nothing. -/
def kEq : KVal → KVal → Bool
  | .nar, _ => false
  | _, .nar => false
  | a, b => !kLt a b && !kLt b a

/-- The quotient, carried to `p` bits beyond the numerator with a sticky last bit, so that one rounding into any
format is exact. 0 ÷ 0 and ∞ ÷ ∞ are invalid (R32); a finite value by zero is given by the caller. -/
def kDiv : KVal → KVal → KRes
  | .nar, _ => ⟨.nar, false⟩
  | _, .nar => ⟨.nar, false⟩
  | .inf _, .inf _ => ⟨.nar, true⟩
  | .inf a, .fin m _ => ⟨.inf (a != decide (m < 0)), false⟩
  | .fin _ _, .inf _ => ⟨KVal.zero, false⟩
  | .fin m1 e1, .fin m2 e2 =>
    if m2 = 0 then
      if m1 = 0 then ⟨.nar, true⟩ else ⟨.inf (decide (m1 < 0)), false⟩
    else
      let p : Nat := 64 + Nat.log2 m2.natAbs
      let n := m1.natAbs * 2 ^ p
      let q := n / m2.natAbs
      let a := 2 * q + (if n % m2.natAbs = 0 then 0 else 1)
      ⟨signed (decide (m1 < 0) != decide (m2 < 0)) a (e1 - e2 - p - 1), false⟩

/-- The square root with a sticky last bit; negative values are invalid (R32). -/
def kSqrt : KVal → KRes
  | .nar => ⟨.nar, false⟩
  | .inf n => if n then ⟨.nar, true⟩ else ⟨.inf false, false⟩
  | .fin m e =>
    if m < 0 then ⟨.nar, true⟩
    else if m = 0 then ⟨KVal.zero, false⟩
    else
      let odd := e % 2 ≠ 0
      let a := m.natAbs * (if odd then 2 else 1) * 2 ^ 128
      let r := Nat.sqrt a
      let e' : Int := (if odd then e - 1 else e) - 128
      ⟨.fin (2 * r + (if r * r = a then 0 else 1)) (e' / 2 - 1), false⟩

/-! ### Packing (R28) -/

/-- The byte, the bit within it and the width of element i of a tensor row that starts at a line (K6) or at a
byte. -/
def elemPlace (f : Fmt) (i : Nat) : Nat × Nat :=
  match f with
  | .k4 | .int4 => (i / 2, 4 * (i % 2))
  | .k6 => (i / 80 * 64 + i / 16 % 5 * 12 + 6 * (i % 16) / 8, 6 * (i % 16) % 8)
  | .k8 | .k8w | .int8 => (i, 0)
  | .k16 => (2 * i, 0)
  | .k32 | .int32 | .word32 => (4 * i, 0)

/-- Bytes that an element touches from the byte of `elemPlace`, its first bit being `bit` of that byte. -/
def elemSpan (f : Fmt) (bit : Nat) : Nat := (bit + f.bits + 7) / 8

/-- Bytes of a row of n elements: for K6 up to the end of its last group (R28). -/
def rowBytes (f : Fmt) (n : Nat) : Nat :=
  match f with
  | .k4 | .int4 => (n + 1) / 2
  | .k6 => n / 80 * 64 + ceilDiv (n % 80) 16 * 12
  | .k8 | .k8w | .int8 => n
  | .k16 => 2 * n
  | .k32 | .int32 | .word32 => 4 * n

end Sys2Proof.Machine
end

