-- ==== Sys2Proof/Machine/Operands.lean ====
section
/-!
DEFINITION. Descriptor words and their fields, the common tail (Table QSY-5), reserved fields, and tensor rows in
memory.
-/

namespace Sys2Proof.Machine

/-- Descriptor words from bytes, little-endian. `n` words. -/
def wordsOf (bs : Bytes) : Nat → List Word64
  | 0 => []
  | n + 1 => BitVec.ofNat 64 (leNat (bs.take 8)) :: wordsOf (bs.drop 8) n

/-- Bytes of words. -/
def bytesOf (ws : List Word64) : Bytes := ws.flatMap (fun w => natLe 8 w.toNat)

/-- Word i of a descriptor. -/
def wordAt (ws : List Word64) (i : Nat) : Word64 := ws.getD i 0

/-- Bits `[hi:lo]` of word i of a descriptor. -/
def dField (ws : List Word64) (i hi lo : Nat) : Nat := bitsOf hi lo (wordAt ws i)

/-- Bit b of word i of a descriptor. -/
def dBit (ws : List Word64) (i b : Nat) : Bool := bitOf b (wordAt ws i)

/-- The opcode. -/
def opcode (ws : List Word64) : Nat := dField ws 0 7 0

/-! The common tail (Table QSY-5). -/

def tailWaitValue (ws : List Word64) : Nat := (wordAt ws 14).toNat
def tailTarget (ws : List Word64) : Nat := dField ws 15 6 0
def tailWaitEn (ws : List Word64) : Bool := dBit ws 15 7
def tailWaitObj (ws : List Word64) : Nat := dField ws 15 22 8
def tailSigEn (ws : List Word64) : Bool := dBit ws 15 23
def tailSigObj (ws : List Word64) : Nat := dField ws 15 38 24
def tailSigAdd (ws : List Word64) : Nat := dField ws 15 46 39 + 1
def tailRemote (ws : List Word64) : Bool := dBit ws 15 47
def tailRemoteChip (ws : List Word64) : Nat := dField ws 15 61 48

/-- A reserved field: word, high bit, low bit. -/
abbrev RField := Nat × Nat × Nat

/-- Whether any of the reserved fields is non-zero (R7). -/
def reservedSet (ws : List Word64) (fs : List RField) : Bool :=
  fs.any (fun f => dField ws f.1 f.2.1 f.2.2 != 0)

/-- The reserved bits of the common tail. -/
def tailReserved : List RField := [(15, 63, 62)]

/-- Whether the opcode is one that an engine or scheduler defines (R111). -/
def knownOpcode (op : Nat) : Bool :=
  [0x20, 0x30, 0x31, 0x32, 0x33, 0x40, 0x41, 0x42, 0x50, 0x60].contains op

/-- The engine number a stream descriptor names (word 0 field of Table STR-2), or the pair in its Target. -/
def isCompute (op : Nat) : Bool := [0x20, 0x30, 0x31, 0x32, 0x33].contains op

/-- Whether a Target matches its opcode (Table QSY-5). -/
def targetOk (ws : List Word64) : Bool :=
  let op := opcode ws
  let t := tailTarget ws
  if isCompute op then decide (t < 64)
  else if op = 0x40 then t == 0
  else t == 127

/-- Whether a half serves a queue whose Halves field is given (Table QSY-1). -/
def serves (halves : Nat) (h : Half) : Bool :=
  match h with
  | .w => halves == 1 || halves == 3
  | .e => halves == 2 || halves == 3

/-- The home half of a queue (R182). -/
def homeOfHalves (halves : Nat) : Half := if halves = 2 then .e else .w

/-- A signed 64-bit field. -/
def signed64 (w : Word64) : Int := signedOf 64 w.toNat

end Sys2Proof.Machine
end

