-- ==== Sys2Proof/Machine/Flags.lean ====
section
/-!
DEFINITION. The exceptions a descriptor gathers (R109), its completion record (Table VEC-15), and the queue
summary (Table VEC-17).
-/

namespace Sys2Proof.Machine

/-- The largest 32-bit count. -/
def top32 : Nat := 0xFFFFFFFF

/-- Whether one invalid operation comes before another: lowest k, then m, then n (R60, R109). -/
def before3 (a b : Nat × Nat × Nat) : Bool :=
  decide (a.1 < b.1) || (a.1 == b.1 && (decide (a.2.1 < b.2.1) || (a.2.1 == b.2.1 && decide (a.2.2 < b.2.2))))

/-- The earlier of the first invalid operation so far and a new one. -/
def firstOf (o : Option (Nat × Nat × Nat)) (n : Nat × Nat × Nat) : Option (Nat × Nat × Nat) :=
  match o with
  | none => some n
  | some a => if before3 n a then some n else some a

/-- The flags and counts of one output element added to a tile's: an output that is NaR counts in NaRCount from
any cause (R109). -/
def addElem (r : Result) (f : ElemFlags) (nar : Bool) : Result :=
  { r with
    nv := r.nv || f.nv
    ovf := r.ovf || f.ovf
    narSeen := r.narSeen || f.narSeen
    poisoned := r.poisoned || f.poison
    nvCount := satAdd top32 r.nvCount (boolNat f.nv)
    ofCount := satAdd top32 r.ofCount (boolNat f.ovf)
    narCount := satAdd top32 r.narCount (boolNat nar) }

/-- Underflows to zero added. -/
def addUf (r : Result) (n : Nat) : Result := { r with ufCount := satAdd top32 r.ufCount n }

/-- The Summary bits of a record, without Trapped (Table VEC-15). -/
def summaryOf (r : Result) : Nat :=
  boolNat r.nv + 2 * boolNat r.ovf + 4 * boolNat (r.ufCount != 0) + 8 * boolNat r.narSeen
    + 16 * boolNat r.poisoned + 64 * boolNat r.witness

/-- Words 0 and 1 of a completion record (Table VEC-15). -/
def recordHead (status op engine summary : Nat) (trapped : Bool) (seq q tm tn : Nat) : List Word64 :=
  [BitVec.ofNat 64 (status % 256 + op % 256 * 2 ^ 8 + engine % 128 * 2 ^ 16
      + Nat.lor summary (32 * boolNat trapped) % 256 * 2 ^ 24 + seq % 2 ^ 32 * 2 ^ 32),
   BitVec.ofNat 64 (q % 1024 + tm % 65536 * 2 ^ 16 + tn % 65536 * 2 ^ 32)]

/-- Words 2 to 7 of an array's or vector unit's record (Table VEC-15). -/
def recordBody (r : Result) : List Word64 :=
  let f := r.first.getD (0, 0, 0)
  [BitVec.ofNat 64 (min r.ufCount top32 + min r.nvCount top32 * 2 ^ 32),
   BitVec.ofNat 64 (min r.narCount top32 + min r.poisonedLines top32 * 2 ^ 32),
   BitVec.ofNat 64 (f.1 % 2 ^ 20 + f.2.1 % 2 ^ 16 * 2 ^ 20 + f.2.2 % 2 ^ 12 * 2 ^ 36
      + boolNat r.first.isSome * 2 ^ 48),
   BitVec.ofNat 64 (r.amax % 2 ^ 32 + min r.ofCount top32 * 2 ^ 32),
   BitVec.ofNat 64 (min r.missesDesc 65535 + min r.poisonedDesc 65535 * 2 ^ 16 + min r.excluded top32 * 2 ^ 32),
   0]

/-- The whole record (Table VEC-15). -/
def recordOf (d : Done) (trapped : Bool) : List Word64 :=
  recordHead d.status d.op d.engine d.summary trapped d.seq d.queue d.tileM d.tileN ++ d.body

/-- Whether sequence number a comes before b in a queue's order. DescSeq is a free-running 32-bit count, kept
here without wrapping. -/
def seqBefore (a b : Nat) : Bool := decide (a < b)

/-- QSY_EXCSUM after a completion with the given summary bits (Table VEC-17, R112). -/
def excSum (q : Queue) (summary seq : Nat) : Queue :=
  let nv := natBit 0 summary
  { q with
    nv := q.nv || nv
    ovf := q.ovf || natBit 1 summary
    uf := q.uf || natBit 2 summary
    narSeen := q.narSeen || natBit 3 summary
    poisoned := q.poisoned || natBit 4 summary
    witness := q.witness || natBit 6 summary
    firstNV := if nv then
        match q.firstNV with
        | some f => if seqBefore seq f then some seq else some f
        | none => some seq
      else q.firstNV }

end Sys2Proof.Machine
end

