-- ==== Sys2Proof/Machine/Send.lean ====
section
/-!
DEFINITION. Sending over the fabric: addresses and space codes, send windows (R268 to R273), packets and their
injection, sequence numbers (R281), the snoop filter's hold on an access (R327), and interrupts (R316).
-/

namespace Sys2Proof.Machine

/-- Where an address leads (Table FAB-1). -/
inductive Space
  | localOff (off : Nat)
  | fabric (chip off : Nat)
  | hostAddr (addr : Nat)
  | bad
  deriving DecidableEq, Repr

/-- The space of a 64-bit address (R268); `bad` for a reserved space code or a bit that must be 0 (R269). -/
def spaceOf (a : Nat) : Space :=
  let code := a / 2 ^ 58 % 64
  if code = 0 then (if a / 2 ^ 44 % 2 ^ 14 = 0 then .localOff (a % 2 ^ 44) else .bad)
  else if code = 1 then .fabric (a / 2 ^ 44 % 2 ^ 14) (a % 2 ^ 44)
  else if code = 2 then (if natBit 57 a then .bad else .hostAddr (a % 2 ^ 57))
  else .bad

/-! ### The snoop filter (R327) -/

/-- The tracked lines of a half's filter, least recently used first. -/
def snoopOf (s : State) : Half → List Nat
  | .w => s.host.snoopW
  | .e => s.host.snoopE

/-- Whether the host may cache a line: it is tracked in the filter of its channel's half. -/
def tracked (s : State) (line : Nat) : Bool := (snoopOf s (halfOf64 (channelOf s (64 * line)))).contains line

/-- Back-invalidations sent for the tracked lines among those an access touches; the access waits for them. -/
def backInvalidate (s : State) (read : Bool) : List Nat → State
  | [] => s
  | line :: r =>
    if tracked s line && !s.host.bisnp.any (fun b => b.1 == line) then
      let s := emit s (.backInvalidate line read)
      backInvalidate { s with host := { s.host with
        bisnp := s.host.bisnp ++ [(line, s.now)], bisnpBad := s.host.bisnpBad.erase line } } read r
    else backInvalidate s read r

/-- Whether any of the lines waits for a back-invalidation's response. -/
def snoopWaits (s : State) (lines : List Nat) : Bool := lines.any (fun l => s.host.bisnp.any (fun b => b.1 == l))

/-- Whether a back-invalidation of any of the lines went unanswered. -/
def snoopFailed (s : State) (lines : List Nat) : Bool := lines.any (fun l => s.host.bisnpBad.contains l)

/-- The lines of LPDDR in a run of offsets. -/
def lpddrLines (off n : Nat) : List Nat := ((linesOf off n).filter (fun l => decide (l < lpddrSize))).map (· / 64)

/-- Whether the host may hold any of the lines, or a back-invalidation of one is under way. -/
def snoopHolds (s : State) (lines : List Nat) : Bool := snoopWaits s lines || lines.any (tracked s)

/-- An access of an engine or core: tracked lines are back-invalidated first, and it waits for the answer (R327). -/
def pastSnoop (s : State) (read : Bool) (lines : List Nat) (go : State → State) : State :=
  if snoopWaits s lines then s else if lines.any (tracked s) then backInvalidate s read lines else go s

/-- Lines whose back-invalidation went unanswered, forgotten once the access that asked has ended. -/
def forgetBad (s : State) (lines : List Nat) : State :=
  { s with host := { s.host with bisnpBad := s.host.bisnpBad.filter (fun l => !lines.contains l) } }

/-- A read by a core or unit of n bytes at an offset: past the snoop filter, where an unanswered back-invalidation lets it end, and
past a Dim channel (R176, R327). -/
def pastLocal (s : State) (off n : Nat) (key : Nat × Nat × Nat) (go : State → State) : State :=
  if snoopFailed s (lpddrLines off n) then go s else pastSnoop s true (lpddrLines off n) (fun s => pastDim s off n key go)

/-- A scheduler's read of n bytes at an address, as `pastLocal`. -/
def readPastDim (s : State) (addr n : Nat) (key : Nat × Nat × Nat) (go : State → State) : State :=
  match spaceOf addr with
  | .localOff off => pastLocal s off n key go
  | _ => go s

/-- The rights of a send window (Table FAB-2). -/
inductive Right | read | write | atomic
  deriving DecidableEq, Repr

/-- Whether a window gives a right. -/
def Window.gives (w : Window) : Right → Bool
  | .read => w.read
  | .write => w.write
  | .atomic => w.atomic

/-- Whether a window admits a request for n bytes at an offset of a chip (R271). -/
def Window.holds (w : Window) (c off n : Nat) (r : Right) : Bool :=
  decide (w.chipLo ≤ c) && decide (c ≤ w.chipHi) && decide (w.base ≤ off)
    && decide (off + n ≤ w.base + w.size) && w.gives r

/-- The window of lowest index that admits a request (R271). -/
def findWindow (s : State) (c off n : Nat) (r : Right) : Option Window :=
  (s.windows.find? (fun e => e.2.holds c off n r)).map Prod.snd

/-- The translated offset and CacheOK of a request, or none when it is not sent (R271, R272). -/
def sendThrough (s : State) (c off n : Nat) (r : Right) : Option (Nat × Bool) :=
  match findWindow s c off n r with
  | some w =>
    let t : Int := (off : Int) + w.disp
    if 0 ≤ t ∧ t < 2 ^ 44 then some (t.toNat, w.cacheOk) else none
  | none => none

/-- The router of a half. -/
def routerOf (s : State) : Half → Router
  | .w => s.routerW
  | .e => s.routerE

/-- A function applied to the router of a half. -/
def updRouter (s : State) (h : Half) (f : Router → Router) : State :=
  match h with
  | .w => { s with routerW := f s.routerW }
  | .e => { s with routerE := f s.routerE }

/-- PathHash of a fabric offset (R251's header text). -/
def pathHash (off : Nat) : Nat :=
  let g := off / 256
  Nat.xor (Nat.xor g (g / 2 ^ 16)) (g / 2 ^ 32) % 2 ^ 16

/-- Packet length in 4-B units (R275). -/
def packetLen : Body → Nat
  | .req _ _ (.load _) => 8
  | .req _ _ (.store _ _ _) => 24
  | .req _ _ (.atomic op _ _ _ _) => if op = 6 then 12 else 10
  | .req _ _ (.signal _ _) => 10
  | .rep _ _ _ data => 8 + ceilDiv data.length 4
  | .coll h => min 80 (8 + ceilDiv (4 * h.data.length) 4)
  | .collEcho _ => 4
  | .mgmtMsg data => min 16 (4 + ceilDiv data.length 4)
  | .report _ => 6

/-- A packet as the injecting unit builds it (Table RTE-1). -/
def mkPacket (s : State) (dest vc seq hash : Nat) (b : Body) : Packet :=
  { dest := dest, src := chip s, vc := vc, epoch := objGet s Obj.routeEpochActive, resent := false, mark := false,
    echo := false, mcast := false, len := packetLen b, seq := seq, pathHash := hash, hops := 0, axis := 0, lo := 0,
    hi := 0, reservedZero := true, body := b }

/-- A packet put into a half's router, from a link or from the half itself. -/
def inject (s : State) (h : Half) (p : Packet) (from_ : Option Nat) (copies : Option (Bool × Bool × Bool) := none) : State :=
  updRouter s h (fun r =>
    { r with held := r.held ++ [{ id := r.nextId, p := p, from_ := from_, since := s.now, copies := copies }],
             nextId := r.nextId + 1 })

/-- The next Seq of a class is used: even values in half W, odd in E (R251, R281; log entry 22). -/
def nextReplySeq (s : State) (h : Half) : State := updRouter s h (fun r => { r with seqReply := (r.seqReply + 2) % 65536 })
def nextCollSeq (s : State) (h : Half) : State := updRouter s h (fun r => { r with seqColl := (r.seqColl + 2) % 65536 })

/-- The next sequence number of a half is used: even values in W, odd in E, at most one per 200 ns, and a request
held by that limit counts in SeqIssueStalls (R281). -/
def takeSeq (s : State) (h : Half) : State :=
  let r := routerOf s h
  let held := match r.lastSeq with
    | some t => decide (s.now < t + 200)
    | none => false
  let at_ := match r.lastSeq with
    | some t => max s.now (t + 200)
    | none => s.now
  let s := if held then objInc s Obj.seqIssueStalls else s
  updRouter s h (fun r => { r with seqNext := (r.seqNext + 2) % 65536, lastSeq := some at_ })

/-- Whether a tag is outstanding, or held back after a resent request (R280). -/
def tagBusy (s : State) (t : Nat) : Bool :=
  s.outst.any (fun o => o.tag == t) || (match smGet s.tagHold t with
    | some u => decide (s.now < u)
    | none => false)

/-- A tag not in use: the lowest from the next one on. -/
def freeTag (s : State) : Nat → Nat → Nat
  | 0, t => t
  | k + 1, t => if tagBusy s t then freeTag s k ((t + 1) % 2 ^ 20) else t

/-- A request sent to another chip: the packet is injected and its Tag kept outstanding (R275, R280). -/
def sendRequest (s : State) (h : Half) (dest off : Nat) (op : FabOp) (who : Requester) (fill : Bool)
    (want : Nat := off) : State :=
  let tag := freeTag s (s.outst.length + s.tagHold.length + 1) s.nextTag
  let sequenced := match op with
    | .atomic _ _ _ _ _ => true
    | .signal _ _ => true
    | _ => false
  let body : Body := .req off tag op
  let p := mkPacket s dest 1 (routerOf s h).seqNext (pathHash off) body
  let s := if sequenced then takeSeq s h else s
  let s := inject s h p none
  { s with
    outst := s.outst ++ [{ tag := tag, half := h, dest := dest, who := who, since := s.now,
                           bytes := 4 * packetLen body, fillOk := fill, off := off, want := want }]
    nextTag := (tag + 1) % 2 ^ 20 }

/-! ### Interrupts (R316) -/

/-- A vector is sent, or stays pending while it is masked or MSI-X is disabled (R316). -/
def sendVector (s : State) (v : Nat) : State :=
  if s.host.msixEnable && nsHas s.host.msixOpen v then emit s (.msix v)
  else { s with host := { s.host with msixPend := nsAdd s.host.msixPend v } }

end Sys2Proof.Machine
end

