-- ==== Sys2Proof/Machine/QueueOps.lean ====
section
/-!
DEFINITION. The operations every descriptor's end shares: the completion record, QSY_EXCSUM, traps, tail signals,
interrupts (R110 to R113, R187, R188, R198), and what a completion means to an open layer (R123 to R127).
-/

namespace Sys2Proof.Machine

/-- A function applied to a queue. -/
def updQ (s : State) (q : Nat) (f : Queue → Queue) : State := { s with queues := smModify s.queues q f }

/-- The queue number of the collective queue (R291). -/
def collQ : Nat := 1024

/-- A difference of free-running 32-bit indices. -/
def diff32 (a b : Nat) : Nat := (a + 2 ^ 32 - b % 2 ^ 32) % 2 ^ 32

/-- Record slots in a queue's completion ring that hold no unread record (R188). -/
def cplFree (q : Queue) : Nat := 2 ^ q.cplLog2 - diff32 q.cplTail q.cplHead

/-- Bytes written at an address of queue memory: this module's memory or host memory. -/
def writeQueueMem (s : State) (addr : Nat) (data : Bytes) : State :=
  match spaceOf addr with
  | .localOff off => if plainRun s off data.length then writeBytes s off data false else countAddrError s off
  | .hostAddr a => emit s (.hostWrite a data false)
  | _ => s

/-! ### Interrupts of a queue (Table QSY-4) -/

/-- The vector of each pending bit that is set and enabled and has not sent it yet: once for each setting of the bit, whatever the
enable does meanwhile (R188). -/
def sendQueueIrqs (s : State) (q : Nat) : State :=
  match smGet s.queues q with
  | none => s
  | some v =>
    let t := v.trapPend && v.trapEn && !v.trapSent
    let c := v.cplPend && v.cplEn && !v.cplSent
    let e := v.errPend && v.errEn && !v.errSent
    let s := updQ s q (fun x =>
      { x with trapSent := x.trapSent || t, cplSent := x.cplSent || c, errSent := x.errSent || e })
    let s := if t then sendVector s v.irqVector else s
    let s := if c then sendVector s v.irqVector else s
    if e then sendVector s v.irqVector else s

/-- TrapPend set: the queue's event interrupt. -/
def raiseTrap (s : State) (q : Nat) : State := sendQueueIrqs (updQ s q (fun x => { x with trapPend := true })) q

/-- CplPend set. -/
def raiseCpl (s : State) (q : Nat) : State := sendQueueIrqs (updQ s q (fun x => { x with cplPend := true })) q

/-- ErrPend set. -/
def raiseErr (s : State) (q : Nat) : State := sendQueueIrqs (updQ s q (fun x => { x with errPend := true })) q

/-! ### Records (R110, R188) -/

/-- The bytes of a record are written at its slot and QSY_CPLTAIL advances; pending records at or above
IrqCplThreshold set CplPend. -/
def putRecord (s : State) (q : Nat) (v : Queue) (words : List Word64) : State :=
  let s := writeQueueMem s (v.cplAddr + 64 * (v.cplTail % 2 ^ v.cplLog2)) (bytesOf words)
  let s := updQ s q (fun x =>
    { x with cplTail := (x.cplTail + 1) % 2 ^ 32, pendTimes := x.pendTimes ++ [s.now] })
  if v.threshold ≤ diff32 (v.cplTail + 1) v.cplHead then raiseCpl s q else s

/-- The line of LPDDR that the next record slot is. -/
def slotLines (v : Queue) : List Nat :=
  match spaceOf (v.cplAddr + 64 * (v.cplTail % 2 ^ v.cplLog2)) with
  | .localOff off => lpddrLines off 64
  | _ => []

/-- Whether more than n slots are free and the host holds no copy of the next one's line (R188, R327). -/
def slotReady (s : State) (v : Queue) (n : Nat) : Bool := decide (n < cplFree v) && !snoopHolds s (slotLines v)

/-- The host's copy of a free slot's line is called back (R327). -/
def askSlot (s : State) (v : Queue) : State := if 0 < cplFree v then backInvalidate s false (slotLines v) else s

/-- A record that waits for ring space, or for the host's copy of its slot. -/
def parkRecord (s : State) (q : Nat) (v : Queue) (w : Parked) : State :=
  askSlot (updQ s q (fun x => { x with waitRing := x.waitRing ++ [w] })) v

/-- The record of an issued descriptor that was stopped: it takes a slot promised to issued descriptors, or waits (R188). -/
def writeRecord (s : State) (q : Nat) (words : List Word64) : State :=
  match smGet s.queues q with
  | some v => if slotReady s v 0 then putRecord s q v words else parkRecord s q v { words := words }
  | none => s

/-- A record of a descriptor that was never issued: it takes a slot beyond those promised to outstanding
descriptors, or waits for one (R187, R188). -/
def writeSpare (s : State) (q : Nat) (words : List Word64) : State :=
  match smGet s.queues q with
  | some v =>
    if v.waitRing.isEmpty && slotReady s v v.outstanding then putRecord s q v words
    else parkRecord s q v { words := words }
  | none => s

/-! ### Tail signals (R189, R198) -/

/-- A remote signal failed: RemoteSignalFaults, RemoteSignalFault, ErrPend and the journal (R198). -/
def remoteSignalFailed (s : State) (q seq : Nat) : State :=
  let s := objInc s Obj.remoteSignalFaults
  let s := updQ s q (fun x => { x with signalFault := true })
  let s := raiseErr s q
  journal s .remoteSignalFailed [q, seq]

/-- A remote tail signal through the send windows (R198, R270, R272). A signal to this module's own chip is
applied locally. -/
def remoteSignal (s : State) (h : Half) (q seq c obj amount : Nat) : State :=
  let off := syncBase + 8 * obj
  match sendThrough s c off 8 .atomic with
  | none => remoteSignalFailed (objInc s Obj.windowMisses) q seq
  | some (t, _) =>
    if c = chip s then
      if syncBase ≤ t ∧ t < syncBase + 0x40000 ∧ t % 8 = 0 then syncAdd s ((t - syncBase) / 8) amount
      else remoteSignalFailed (countAddrError s t) q seq
    else sendRequest s h c t (.signal 0 amount) (.tail q seq) false

/-- The tail signal of a completed descriptor (Table QSY-5). -/
def tailSignal (s : State) (h : Half) (q seq : Nat) (ws : List Word64) : State :=
  if tailSigEn ws then
    if tailRemote ws then remoteSignal s h q seq (tailRemoteChip ws) (tailSigObj ws) (tailSigAdd ws)
    else syncAdd s (tailSigObj ws) (tailSigAdd ws)
  else s

/-- The half whose engine ended a descriptor: the engine's, or the queue's home half for a scheduler. -/
def endHalf (v : Queue) (engine : Nat) : Half :=
  if engine < 72 then halfOfEngine engine else homeOfHalves v.halves

/-! ### Traps (R113) -/

/-- A queue halted by a trap of a descriptor: Trapped, TrappedCount, FirstTrapSeq, state 2 and the event
interrupt. -/
def trapQueue (s : State) (q seq : Nat) : State :=
  let s := updQ s q (fun x =>
    { x with
      trapped := true
      trappedCount := min 255 (x.trappedCount + 1)
      firstTrap := if x.trapValid then min x.firstTrap seq else seq
      trapValid := true
      state := if x.state = 1 then 2 else x.state })
  raiseTrap s q

/-- Whether a descriptor traps as it completes: its queue is not aborting (R187). -/
def trapNow (v : Queue) (d : Done) : Bool := d.traps && v.state != 3 && v.state != 4

/-- What follows a descriptor's record: QSY_EXCSUM, Outstanding, then the trap or the tail signal; a queue in state 3 does not
trap, and goes to state 4 when Outstanding reaches 0 (R110 to R113, R187). -/
def endDesc (s : State) (v : Queue) (d : Done) : State :=
  let trapped := trapNow v d
  let s := updQ s d.queue (fun x => { excSum x (if d.raises then d.summary else 0) d.seq with outstanding := x.outstanding - 1 })
  let s := if trapped then
      trapQueue (updQ s d.queue (fun x => { x with withheld := x.withheld ++ [(d.seq, d.words)] })) d.queue d.seq
    else if d.signals then tailSignal s (endHalf v d.engine) d.queue d.seq d.words
    else s
  updQ s d.queue (fun x => if x.state = 3 ∧ x.outstanding = 0 then { x with state := 4 } else x)

/-- An issued descriptor's end in the queue hardware: its record in a slot, then what follows it (R327 holds a slot back as a full
ring does). Where the ring has no slot, as
after an index the host wrote wrongly, both wait for one (R110, R188). -/
def finishDesc (s : State) (d : Done) : State :=
  match smGet s.queues d.queue with
  | none => s
  | some v =>
    if slotReady s v 0 then endDesc (putRecord s d.queue v (recordOf d (trapNow v d))) v d
    else parkRecord s d.queue v { done := some d }

/-- A waiting record takes a slot: with it the end of an issued descriptor, or only if a slot beyond the promised ones is free. -/
def unpark (s : State) (q : Nat) (v : Queue) (w : Parked) : Option State :=
  match w.done with
  | some d => if slotReady s v 0 then some (endDesc (putRecord s q v (recordOf d (trapNow v d))) v d) else none
  | none => if slotReady s v v.outstanding then some (putRecord s q v w.words) else none

/-- Waiting records are written in order while the ring has space that the host holds no copy of. `fuel` bounds their number. -/
def drainRing (s : State) (q : Nat) : Nat → State
  | 0 => s
  | k + 1 =>
    match smGet s.queues q with
    | some v =>
      match v.waitRing with
      | w :: r =>
        match unpark (updQ s q (fun x => { x with waitRing := r })) q v w with
        | some s' => drainRing s' q k
        | none => askSlot s v
      | [] => s
    | none => s

/-! ### Layers (R123 to R127) -/

/-- The open layer a variant descriptor belongs to. -/
def layerOf (s : State) (q seq : Nat) : Option Layer :=
  s.layers.find? (fun l => l.queue == q && l.left.contains seq)

/-- A function applied to an open layer. -/
def updLayer (s : State) (q seq : Nat) (f : Layer → Layer) : State :=
  { s with layers := s.layers.map (fun l => if l.queue = q ∧ l.seq = seq then f l else l) }

/-- Whether a descriptor belongs to a variant below the top rung, whose TrapOF is ignored (R124). -/
def ovfTrapIgnored (s : State) (q seq : Nat) (inLayer : Bool) : Bool :=
  inLayer && match layerOf s q seq with
    | some l => decide (l.rung < l.top)
    | none => false

/-- The body of a LayerOpen's record (Table VEC-23). -/
def layerBody (l : Layer) (published exhausted : Bool) : List Word64 :=
  [BitVec.ofNat 64 (l.start % 4 + l.rung % 4 * 4 + boolNat published * 16 + boolNat exhausted * 32
      + l.attempts % 16 * 2 ^ 16 + l.firstSeq % 2 ^ 32 * 2 ^ 32),
   BitVec.ofNat 64 (l.abandoned % 2 ^ 32), 0, 0, 0, 0]

/-- Unissued descriptors of a layer's attempt are issued no more. -/
def cutAttempt (s : State) (l : Layer) : State :=
  let gone := match smGet s.queues l.queue with
    | some v => (v.fetched.filter (fun (f : Fetched) => f.inLayer && l.left.contains f.seq && (f.todoW || f.todoE))).map Fetched.seq
    | none => []
  let s := updQ s l.queue (fun x => { x with fetched := x.fetched.filter (fun f => !gone.contains f.seq) })
  let s := { s with waiters := s.waiters.filter (fun w => !(w.queue == l.queue && gone.contains w.seq)) }
  updLayer s l.queue l.seq (fun x => { x with cut := true, left := x.left.filter (fun n => !gone.contains n), seqs := x.seqs.filter (fun n => !gone.contains n) })

/-- A layer ends unpublished with a status: its record takes that status and the queue traps (R125). -/
def layerDies (s : State) (l : Layer) (status : Nat) : State :=
  let s := cutAttempt s l
  let s := { s with layers := s.layers.filter (fun x => !(x.queue == l.queue && x.seq == l.seq)) }
  finishDesc s { queue := l.queue, seq := l.seq, words := l.words, status := status, op := 0x50, engine := 127,
                 summary := 0, body := layerBody l false false, traps := true, raises := false }

/-- What a variant descriptor's completion means to its layer (R123, R125): OF below the top rung cuts the
attempt; any status but ok and delivered-with-faults ends the layer unpublished. -/
def layerHook (s : State) (d : Done) (trapped : Bool) : State :=
  if d.inLayer then
    match layerOf s d.queue d.seq with
    | none => s
    | some l =>
      let ovf := natBit 1 d.summary
      let l' := { l with left := l.left.erase d.seq, summary := Nat.lor l.summary (d.summary + 32 * boolNat trapped), sawOF := l.sawOF || ovf }
      let s := updLayer s l.queue l.seq (fun _ => l')
      if d.status ≠ 0 ∧ d.status ≠ 0x10 then layerDies s l' d.status
      else if ovf && !l'.cut && decide (l'.rung < l'.top) then cutAttempt s l'
      else s
  else s

/-- A descriptor completes. -/
def completeDesc (s : State) (d : Done) : State :=
  layerHook (finishDesc s d) d (((smGet s.queues d.queue).map (fun v => trapNow v d)).getD false)

/-- An issued descriptor is rejected: nothing executed, no flag, tail signalled (R7, R111). -/
def rejectDesc (s : State) (d : Issued) (status engine : Nat) : State :=
  completeDesc s { queue := d.queue, seq := d.seq, words := d.words, inLayer := d.inLayer, status := status,
                   op := opcode d.words, engine := engine, summary := 0, body := List.replicate 6 0 }

/-- The record of a descriptor completed aborted: no tail signal, no flags (R187). -/
def abortRecord (s : State) (q seq op engine : Nat) (body : List Word64) : State :=
  writeSpare s q (recordHead 6 op engine 0 false seq q 0 0 ++ body)

/-- The trap condition of an array or vector descriptor, given its TrapNV and TrapOF bits (R113, R124). -/
def trapsOn (d : Issued) (trapNV trapOF : Bool) (r : Result) : Bool :=
  (trapNV && r.nv) || (trapOF && r.ovf && !d.mute)

end Sys2Proof.Machine
end

