-- ==== Sys2Proof/Machine/QueueRegs.lean ====
section
/-!
DEFINITION. The registers of a queue's control page (Tables QSY-2 to QSY-4, VEC-17; R451): reads, and what each
write does.
-/

namespace Sys2Proof.Machine

/-- QSY_STATE as it reads (Table QSY-3). -/
def qsyState (v : Queue) : Nat :=
  v.state % 8 + 8 * boolNat v.doorbellError + 16 * boolNat v.signalFault + 32 * boolNat v.schedRestarting
    + v.outstanding % 2 ^ 32 * 2 ^ 32

/-- QSY_EXCSUM as it reads (Table VEC-17). -/
def qsyExcsum (v : Queue) : Nat :=
  boolNat v.nv + 2 * boolNat v.ovf + 4 * boolNat v.uf + 8 * boolNat v.narSeen + 16 * boolNat v.poisoned
    + 32 * boolNat v.witness + 64 * boolNat v.trapped + 128 * boolNat v.firstNV.isSome
    + min v.trappedCount 255 * 2 ^ 8 + v.firstNV.getD 0 % 2 ^ 32 * 2 ^ 32

/-- QSY_IRQ as it reads (Table QSY-4). -/
def qsyIrq (v : Queue) : Nat :=
  boolNat v.trapEn + 2 * boolNat v.cplEn + 4 * boolNat v.errEn + 256 * boolNat v.trapPend + 512 * boolNat v.cplPend
    + 1024 * boolNat v.errPend

/-- The register at an 8-byte offset of a control page as it reads; WO registers, reserved offsets and the pages
of queues not launched read 0 (R451). -/
def pageReg (s : State) (q reg : Nat) : Nat :=
  match smGet s.queues q with
  | none => 0
  | some v =>
    if reg = 0x008 then v.head % 2 ^ 32
    else if reg = 0x010 then qsyState v
    else if reg = 0x018 then qsyExcsum v
    else if reg = 0x020 then v.firstTrap % 2 ^ 32
    else if reg = 0x030 then v.cplTail % 2 ^ 32
    else if reg = 0x038 then v.cplHead % 2 ^ 32
    else if reg = 0x040 then qsyIrq v
    else if reg = 0x048 then v.nextSeq % 2 ^ 32
    else 0

/-- A producer index that the scheduler takes (R185). -/
def doorbellTake (s : State) (q p : Nat) : State :=
  match smGet s.queues q with
  | none => s
  | some v =>
    let p := p % 2 ^ 32
    if diff32 p v.prod = 0 then s
    else if diff32 p v.head ≤ 2 ^ v.ringLog2 then updQ s q (fun x => { x with prod := p })
    else raiseErr (objInc (updQ s q (fun x => { x with doorbellError := true })) Obj.doorbellErrors) q

/-- Whether doorbells of a queue are latched: while the scheduler of its home half restarts, and during a checkpoint (R199, R201,
R373). -/
def doorbellHeld (s : State) (v : Queue) : Bool :=
  (s.cores.getD (4 * halfIx (homeOfHalves v.halves)) {}).st == 2 || s.seqs.ckptStep != 0

/-- A producer index written to QSY_DOORBELL: latched, or taken. -/
def doorbellWrite (s : State) (q p : Nat) : State :=
  match smGet s.queues q with
  | none => s
  | some v =>
    if doorbellHeld s v then updQ s q (fun x => { x with latched := x.latched ++ [p] })
    else doorbellTake s q p

/-- The doorbells latched for a queue applied in the order in which they were written. -/
def takeLatched (s : State) (q : Nat) : State :=
  match smGet s.queues q with
  | none => s
  | some v => v.latched.foldl (fun s p => doorbellTake s q p) (updQ s q (fun x => { x with latched := [] }))

/-- Every queue whose doorbells are latched no more takes those that were. -/
def takeDoorbells (s : State) : State := s.queues.foldl (fun s e => if doorbellHeld s e.2 then s else takeLatched s e.1) s

/-- The withheld tail signals of a trapped queue are made in the order of their traps. -/
def makeTails (s : State) (q : Nat) (v : Queue) : List (Nat × List Word64) → State
  | [] => s
  | (seq, ws) :: r => makeTails (tailSignal s (homeOfHalves v.halves) q seq ws) q v r

/-- A queue resumed from a trap: withheld signals gone, Trapped and TrappedCount clear, running again, its halted
claims waiting as before (R113, R163). -/
def clearTrap (s : State) (q : Nat) : State :=
  updQ { s with waitClaims := s.waitClaims.map (fun (c : Claim) => if c.queue = q then { c with halted := false } else c) } q (fun x =>
    { x with withheld := [], trapped := false, trappedCount := 0, trapValid := false, firstTrap := 0,
             state := if x.state = 2 then 1 else x.state })

/-- Release (R113, R187): only while Trapped is set. -/
def releaseQueue (s : State) (q : Nat) : State :=
  match smGet s.queues q with
  | none => s
  | some v => if v.trapped then makeTails (clearTrap s q) q v v.withheld else s

/-- Discard (R113, R187): only while Trapped is set. -/
def discardQueue (s : State) (q : Nat) : State :=
  match smGet s.queues q with
  | none => s
  | some v => if v.trapped then clearTrap s q else s

/-- The Engine field of a record for a descriptor that has not reached an engine. DESIGN CHOICE (log entry 18): Table VEC-15 gives no
code for a stream descriptor whose Engine field names none (126, or a reserved number); the record repeats the field. -/
def descEngine (ws : List Word64) : Nat :=
  if opcode ws = 0x40 then dField ws 0 14 8
  else if isCompute (opcode ws) then tailTarget ws
  else 127

/-- Records of aborted descriptors by sequence number, opcode and engine. -/
def abortRecords (s : State) (q : Nat) : List (Nat × Nat × Nat) → State
  | [] => s
  | (seq, op, e) :: r => abortRecords (abortRecord s q seq op e (List.replicate 6 0)) q r

/-- Opcode and engine of the descriptor in a ring slot that was never fetched: from this module's memory, or free
values for a ring in host memory (log entry 12). -/
def slotHead (s : State) (v : Queue) (i : Nat) : Nat × Nat :=
  match spaceOf (v.ringAddr + 128 * (i % 2 ^ v.ringLog2)) with
  | .localOff off =>
    let ws := wordsOf (rawBytes s off 128) 16
    (opcode ws, descEngine ws)
  | _ => ((Config.freeWord (s.free + i)).toNat % 256, (Config.freeWord (s.free + i)).toNat / 256 % 128)

/-- Records of the open layers of a queue, completed aborted with Published 0 (R125). -/
def abortLayers (s : State) (q : Nat) : List Layer → State
  | [] => s
  | l :: r => abortLayers (abortRecord s q l.seq 0x50 127 (layerBody l false false)) q r

/-- The streams of a queue whose waiting claims halted it, by engine, number and queue (R163). -/
def haltedStreams (s : State) (q : Nat) : List (Nat × Nat × Nat) :=
  (s.waitClaims.filter (fun (c : Claim) => c.queue == q && c.halted)).map (fun (c : Claim) => (c.seq, 0x40, c.slice))

/-- Contexts of the given streams taken off their engines, and their claims dropped (R160). -/
def dropStreams (s : State) (q : Nat) (gone : List Nat) : State :=
  { s with
    engines := s.engines.map (fun (g : Engine) =>
      { g with ctx := g.ctx.filter (fun (c : StreamCtx) => !(c.d.queue == q && gone.contains c.d.seq)) })
    spills := s.spills.filter (fun (x : Spill) => !(x.holder.queue == q && gone.contains x.holder.seq))
    waitClaims := s.waitClaims.filter (fun (c : Claim) => !(c.queue == q && gone.contains c.seq))
    claims := s.claims.filter (fun (c : Claim) => !(c.queue == q && gone.contains c.seq)) }

/-- Abort (R187): every unissued descriptor up to the producer index completes aborted with its record and no tail
signal, waits are withdrawn, withheld signals are discarded, open layers and unopened seams complete aborted; the
state is 3, or 4 once Outstanding is 0. -/
def abortQueue (s : State) (q : Nat) : State :=
  match smGet s.queues q with
  | none => s
  | some v =>
    if v.state = 1 ∨ v.state = 2 then
      let ring := diff32 v.prod v.head
      let layers := s.layers.filter (fun l => l.queue == q)
      let seams := v.seams.filter (fun x => !x.opened)
      let unissued := v.fetched.map (fun (f : Fetched) => (f.seq, opcode f.words, descEngine f.words))
      let unread := (List.range ring).map (fun i =>
        let h := slotHead s v (v.head + i)
        (v.nextSeq + i, h.1, h.2))
      let halted := haltedStreams s q
      let gone := unissued.map Prod.fst ++ layers.map Layer.seq ++ seams.map Seam.seq ++ halted.map Prod.fst
      let s := dropStreams s q (halted.map Prod.fst)
      let s := { s with
        free := s.free + ring
        waiters := s.waiters.filter (fun w => !(w.queue == q && gone.contains w.seq))
        layers := s.layers.filter (fun l => l.queue != q) }
      let s := updQ s q (fun x =>
        { x with
          state := 3, withheld := [], trapped := false, trappedCount := 0, trapValid := false, firstTrap := 0
          fetched := [], seams := x.seams.filter (fun y => y.opened)
          head := v.prod, nextSeq := v.nextSeq + ring
          outstanding := x.outstanding - layers.length - seams.length - halted.length })
      let s := abortRecords s q (halted ++ unissued ++ unread ++ seams.map (fun x => (x.seq, 0x41, 127)))
      let s := abortLayers s q layers
      updQ s q (fun x => if x.outstanding = 0 then { x with state := 4 } else x)
    else s

/-- A write of QSY_IRQ: enables set, pending bits cleared by writing 1; the vector is sent for each pending bit
and enabled that has not sent it since it was set (R188). -/
def irqWrite (s : State) (q w : Nat) : State :=
  match smGet s.queues q with
  | none => s
  | some v =>
    let tp := v.trapPend && !natBit 8 w
    let cp := v.cplPend && !natBit 9 w
    let ep := v.errPend && !natBit 10 w
    sendQueueIrqs (updQ s q (fun x =>
      { x with
        trapEn := natBit 0 w, cplEn := natBit 1 w, errEn := natBit 2 w
        trapPend := tp, cplPend := cp, errPend := ep
        trapSent := x.trapSent && tp, cplSent := x.cplSent && cp, errSent := x.errSent && ep })) q

/-- A write of QSY_CPLHEAD: space in the completion ring takes records that wait for it. -/
def cplHeadWrite (s : State) (q w : Nat) : State :=
  match smGet s.queues q with
  | none => s
  | some v =>
    let s := updQ s q (fun x =>
      { x with cplHead := w % 2 ^ 32, pendTimes := x.pendTimes.drop (diff32 w x.cplHead) })
    drainRing s q v.waitRing.length

/-- A 64-bit write of a register of a control page (Table QSY-2). -/
def pageWrite (s : State) (q reg w : Nat) : State :=
  if reg = 0x000 then doorbellWrite s q w
  else if reg = 0x010 then
    updQ s q (fun x => { x with doorbellError := x.doorbellError && !natBit 3 w
                                signalFault := x.signalFault && !natBit 4 w })
  else if reg = 0x018 then
    updQ s q (fun x =>
      { x with
        nv := x.nv && !natBit 0 w, ovf := x.ovf && !natBit 1 w, uf := x.uf && !natBit 2 w
        narSeen := x.narSeen && !natBit 3 w, poisoned := x.poisoned && !natBit 4 w
        witness := x.witness && !natBit 5 w
        firstNV := if natBit 0 w then none else x.firstNV })
  else if reg = 0x028 then
    if w % 4 = 1 then releaseQueue s q
    else if w % 4 = 2 then discardQueue s q
    else if w % 4 = 3 then abortQueue s q
    else s
  else if reg = 0x038 then cplHeadWrite s q w
  else if reg = 0x040 then irqWrite s q w
  else s

/-- The bytes of a run inside the control pages as a load returns them (R451). -/
def pageBytes (s : State) (off n : Nat) : Bytes :=
  (List.range n).map (fun i =>
    let o := off + i - pageBase
    BitVec.ofNat 8 (pageReg s (o / 4096) (o % 4096 / 8 * 8) / 256 ^ (o % 8)))

/-- A masked store of up to 64 bytes inside the control pages, word by word: all 8 bytes of an aligned word make a
64-bit write, exactly bytes 0 to 3 a write with [63:32] zero, anything else is ignored for that word (R451). -/
def pageStoreWords (s : State) (line mask : Nat) (data : Bytes) : List Nat → State
  | [] => s
  | k :: r =>
    let m := mask / 2 ^ (8 * k) % 256
    let o := line + 8 * k - pageBase
    let w := leNat ((data.drop (8 * k)).take 8)
    let s := if m = 255 then pageWrite s (o / 4096) (o % 4096) w
      else if m = 15 then pageWrite s (o / 4096) (o % 4096) (w % 2 ^ 32)
      else s
    pageStoreWords s line mask data r

/-- A masked store of one 64-B line inside the control pages. -/
def pageStore (s : State) (line mask : Nat) (data : Bytes) : State :=
  pageStoreWords s line mask data (List.range 8)

end Sys2Proof.Machine
end

