-- ==== Sys2Proof/Machine/StreamOps.lean ====
section
/-!
DEFINITION. Stream descriptors (Table STR-2): fields, the walk of R138, slots, rejection, ranges and claims
(R136 to R141, R159), and the fault record (Table STR-7).
-/

namespace Sys2Proof.Machine

/-! ### Fields -/

def strEngine (ws : List Word64) : Nat := dField ws 0 14 8
def strFmt (ws : List Word64) : Nat := dField ws 0 19 16
def strScaleMode (ws : List Word64) : Nat := dField ws 0 21 20
def strDir (ws : List Word64) : Nat := dField ws 0 23 22
def strUrgent (ws : List Word64) : Bool := dBit ws 0 24
def strRCache (ws : List Word64) : Bool := dBit ws 0 25
def strPrologue (ws : List Word64) : Bool := dBit ws 0 26
def strTrapFault (ws : List Word64) : Bool := dBit ws 0 27
def strPageReq (ws : List Word64) : Bool := dBit ws 0 28
def strStart (ws : List Word64) : Nat := (wordAt ws 1).toNat
def strCount (ws : List Word64) (d : Nat) : Nat :=
  if d % 2 = 0 then dField ws (2 + d / 2) 31 0 else dField ws (2 + d / 2) 63 32
def strResume (ws : List Word64) : Nat := dField ws 4 55 32
def strStride (ws : List Word64) (d : Nat) : Int := signedOf 40 (dField ws (5 + d) 39 0)
def strStop (ws : List Word64) : Nat := dField ws 5 63 40
def strScaleAddr (ws : List Word64) : Nat := (wordAt ws 10).toNat
def strWaitBase (ws : List Word64) : Nat := (wordAt ws 11).toNat
def strBuf (ws : List Word64) : Nat := dField ws 12 23 0
def strDest (ws : List Word64) : Nat := (wordAt ws 12).toNat
def strWaitObj (ws : List Word64) : Nat := dField ws 13 14 0
def strWaitEn (ws : List Word64) : Bool := dBit ws 13 15
def strSigObj (ws : List Word64) : Nat := dField ws 13 30 16
def strSigEn (ws : List Word64) : Bool := dBit ws 13 31
def strSlots (ws : List Word64) : Nat := dField ws 13 36 32
def strTileDim (ws : List Word64) : Nat := dField ws 13 39 37

/-- Fmt 1: units are 12-B groups. -/
def strIsK6 (ws : List Word64) : Bool := strFmt ws == 1

/-- Bytes of a unit (Table STR-3). -/
def strUnit (ws : List Word64) : Nat :=
  let f := strFmt ws
  if f = 1 then 12 else if f = 4 then 2 else if f = 7 ∨ f = 8 then 4 else 1

/-- Whether Fmt is defined (Table STR-3). -/
def strFmtOk (ws : List Word64) : Bool :=
  let f := strFmt ws
  decide (f ≤ 8) || f == 10 || f == 11

/-- Whether the run is scaled. -/
def strScaled (ws : List Word64) : Bool := strScaleMode ws != 0

/-- Units per BX8 block (R138). -/
def strRu (ws : List Word64) : Nat :=
  let block := if strScaleMode ws = 2 then 32 else 16
  if strFmt ws = 0 then block / 2 else if strFmt ws = 1 then block / 16 else block

/-- Units in a tile. -/
def strPerTile (ws : List Word64) : Nat :=
  (List.range (strTileDim ws + 1)).foldl (fun a d => a * strCount ws d) 1

/-- Units in all. -/
def strUnits (ws : List Word64) : Nat := (List.range 5).foldl (fun a d => a * strCount ws d) 1

/-- Tiles in all. -/
def strTiles (ws : List Word64) : Nat := strUnits ws / strPerTile ws

/-- One past the last tile run. -/
def strEndTile (ws : List Word64) : Nat := if strStop ws = 0 then strTiles ws else strStop ws

/-- Tiles in the run. -/
def strRunTiles (ws : List Word64) : Nat := strEndTile ws - strResume ws

/-- The linear index of the first unit of the run. -/
def strFirst (ws : List Word64) : Nat := strResume ws * strPerTile ws

/-- One past the linear index of the last unit of the run. -/
def strLast (ws : List Word64) : Nat := strEndTile ws * strPerTile ws

/-- The five indices of a unit. -/
def strIndex (ws : List Word64) (u : Nat) : List Nat :=
  let c0 := strCount ws 0
  let c1 := strCount ws 1
  let c2 := strCount ws 2
  let c3 := strCount ws 3
  [u % c0, u / c0 % c1, u / (c0 * c1) % c2, u / (c0 * c1 * c2) % c3, u / (c0 * c1 * c2 * c3)]

/-- The sum of index times stride. -/
def strShift (ws : List Word64) (u : Nat) : Int :=
  ((strIndex ws u).mapIdx (fun d i => (i : Int) * strStride ws d)).sum

/-- Width of the offset field of an address (Table FAB-1). -/
def offWidth (a : Nat) : Nat := if a / 2 ^ 58 = 2 then 57 else 44

/-- The offset field of an address. -/
def offField (a : Nat) : Nat := a % 2 ^ offWidth a

/-- The fields above the offset. -/
def offTop (a : Nat) : Nat := a - offField a

/-- The group index of a group position, and the byte of a group index (R138). -/
def groupIx (b : Nat) : Nat := b / 64 * 5 + b % 64 / 12
def groupByte (g : Int) : Int := 64 * (g / 5) + 12 * (g % 5)

/-- The byte offset reached from an offset by a count of bytes, or of groups for K6. -/
def moved (k6 : Bool) (off : Nat) (d : Int) : Int :=
  if k6 then groupByte ((groupIx off : Int) + d) else (off : Int) + d

/-- The far-side offset of a unit. -/
def strFar (ws : List Word64) (u : Nat) : Int := moved (strIsK6 ws) (offField (strStart ws)) (strShift ws u)

/-- The far-side offset of the scale byte of the block that starts at a unit. -/
def strScaleFar (ws : List Word64) (u : Nat) : Int :=
  (offField (strScaleAddr ws) : Int) + strShift ws u / strRu ws

/-- The byte of unit w within dense data (R138). -/
def strPlace (ws : List Word64) (w : Nat) : Nat :=
  if strIsK6 ws then 64 * (w / 5) + 12 * (w % 5) else w * strUnit ws

/-- Bytes that n dense units occupy (R138). -/
def strDataBytes (ws : List Word64) (n : Nat) : Nat :=
  if strIsK6 ws then 64 * ceilDiv n 5 else n * strUnit ws

/-- Bytes of a slot (R138). -/
def strSlotBytes (ws : List Word64) : Nat :=
  ceilTo 64 (strDataBytes ws (strPerTile ws))
    + (if strScaled ws then ceilTo 64 (ceilDiv (strPerTile ws) (strRu ws)) else 0)

/-- The slice-local offset of the slot of a tile (R138). -/
def strSlotBase (ws : List Word64) (t : Nat) : Nat :=
  strBuf ws + (if strSlots ws = 0 then t else t % strSlots ws) * strSlotBytes ws

/-- True of a Copy, whose near side is its destination address. -/
def strIsCopy (ws : List Word64) : Bool := strDir ws == 2

/-- The slice-local offset (In, Out) of a unit. -/
def strNearSlice (ws : List Word64) (u : Nat) : Nat :=
  strSlotBase ws (u / strPerTile ws) + strPlace ws (u % strPerTile ws)

/-- The slice-local offset of the scale byte of the block that starts at a unit. -/
def strScaleNearSlice (ws : List Word64) (u : Nat) : Nat :=
  strSlotBase ws (u / strPerTile ws) + ceilTo 64 (strDataBytes ws (strPerTile ws))
    + u % strPerTile ws / strRu ws

/-- The destination offset of a unit of a Copy: dense from DestAddr (R138). -/
def strDestOff (ws : List Word64) (u : Nat) : Nat :=
  let n := u - strFirst ws
  (moved (strIsK6 ws) (offField (strDest ws)) (if strIsK6 ws then (n : Int) else (n * strUnit ws : Nat))).toNat

/-- The destination offset of a scale byte of a Copy: from the first 64-B boundary after the run (R138). -/
def strScaleDest (ws : List Word64) (u : Nat) : Nat :=
  ceilTo 64 (strDestOff ws (strLast ws - 1) + strUnit ws) + (u - strFirst ws) / strRu ws

/-! ### Rejection (R139) -/

/-- Reserved fields of Table STR-2. -/
def strReserved (ws : List Word64) : List RField :=
  [(0, 15, 15), (0, 63, 29), (4, 63, 56), (6, 63, 40), (7, 63, 40), (8, 63, 40), (9, 63, 40), (13, 63, 40)]
    ++ (if strEngine ws < 64 then [(12, 63, 24)] else []) ++ tailReserved

/-- Whether a byte offset is aligned to the unit. -/
def strAligned (ws : List Word64) (off : Nat) : Bool :=
  if strIsK6 ws then decide (off % 64 % 12 = 0) && decide (off % 64 < 60) else off % strUnit ws == 0

/-- The lowest and highest byte offsets that the far side reaches (R139). -/
def strCorners (ws : List Word64) : Int × Int :=
  let lo := (List.range 5).foldl (fun a d => a + min 0 (((strCount ws d : Int) - 1) * strStride ws d)) 0
  let hi := (List.range 5).foldl (fun a d => a + max 0 (((strCount ws d : Int) - 1) * strStride ws d)) 0
  let off := offField (strStart ws)
  (moved (strIsK6 ws) off lo, moved (strIsK6 ws) off hi + strUnit ws - 1)

/-- Whether offsets stay inside the offset field of an address. -/
def inField (a : Nat) (lo hi : Int) : Bool := decide (0 ≤ lo) && decide (hi < 2 ^ offWidth a)

/-- The corner offsets of the scale bytes. -/
def strScaleCorners (ws : List Word64) : Int × Int :=
  let c := (List.range 5).foldl (fun a d => a + min 0 (((strCount ws d : Int) - 1) * strStride ws d)) 0
  let h := (List.range 5).foldl (fun a d => a + max 0 (((strCount ws d : Int) - 1) * strStride ws d)) 0
  ((offField (strScaleAddr ws) : Int) + c / strRu ws, (offField (strScaleAddr ws) : Int) + h / strRu ws)

/-- The shape errors of R139, with the Target of R190. `halves` is the queue's Halves field. -/
def strShapeBad (ws : List Word64) (halves : Nat) : Bool :=
  let e := strEngine ws
  let mover := decide (64 ≤ e)
  (List.range 5).any (fun d => strCount ws d == 0)
    || decide (2 ^ 40 < strUnits ws) || decide (4 < strTileDim ws)
    || decide (2 ^ 24 - 1 < strTiles ws)
    || strDir ws == 3 || (!mover && strDir ws == 2) || (mover && strDir ws != 2)
    || (mover && strSlots ws != 0) || decide (16 < strSlots ws)
    || !(decide (e < 72) || e == 126)
    || (decide (e < 72) && !serves halves (halfOfEngine e))
    || decide (strTiles ws ≤ strResume ws)
    || (strStop ws != 0 && (decide (strStop ws ≤ strResume ws) || decide (strTiles ws < strStop ws)))
    || (strScaled ws && (strStride ws 0 != 1 || strCount ws 0 % strRu ws != 0
          || (List.range 4).any (fun d => strStride ws (d + 1) % strRu ws != 0)))
    || (strPrologue ws && strDir ws != 0)
    || !targetOk ws

/-- The address errors of R139 and R269 that the descriptor alone shows. -/
def strAddrBad (ws : List Word64) : Bool :=
  let start := strStart ws
  let c := strCorners ws
  let sc := strScaleCorners ws
  spaceOf start == .bad
    || !strAligned ws (offField start)
    || (!strIsK6 ws && (List.range 5).any (fun d => strStride ws d % strUnit ws != 0))
    || !inField start c.1 c.2
    || (strScaled ws && (spaceOf (strScaleAddr ws) == .bad || !inField (strScaleAddr ws) sc.1 sc.2))
    || (if strIsCopy ws then
          spaceOf (strDest ws) == .bad || !strAligned ws (offField (strDest ws))
            || !inField (strDest ws) 0 (strDestOff ws (strLast ws - 1) + strUnit ws - 1 : Nat)
            || (strScaled ws && !inField (strDest ws) 0 (strScaleDest ws (strLast ws - 1) : Nat))
        else
          strBuf ws % 64 != 0
            || decide (sliceSize < strBuf ws + (if strSlots ws = 0 then strEndTile ws else strSlots ws) * strSlotBytes ws))

/-- The rejection status of a stream descriptor, if any (R111, R139). -/
def strReject (ws : List Word64) (halves : Nat) : Option Nat :=
  if reservedSet ws (strReserved ws) then some 1
  else if !strFmtOk ws || strScaleMode ws == 3 || (strScaled ws && decide (3 < strFmt ws)) then some 2
  else if strShapeBad ws halves then some 3
  else if strAddrBad ws then some 4
  else none

/-! ### Ranges, partitions and claims (R157 to R160) -/

/-- The slice byte ranges (start, length) that a run addresses. -/
def strRanges (ws : List Word64) : List (Nat × Nat) :=
  let n := strRunTiles ws
  let sb := strSlotBytes ws
  let sl := strSlots ws
  if sl = 0 then [(strBuf ws + strResume ws * sb, n * sb)]
  else if sl ≤ n then [(strBuf ws, sl * sb)]
  else (List.range n).map (fun i => (strBuf ws + (strResume ws + i) % sl * sb, sb))

/-- The 4 KiB pages of a byte range. -/
def pagesOf (r : Nat × Nat) : List Nat :=
  if r.2 = 0 then []
  else (List.range ((r.1 + r.2 - 1) / 4096 - r.1 / 4096 + 1)).map (fun i => r.1 / 4096 + i)

/-- The pages of a run's range. -/
def strPages (ws : List Word64) : List Nat := ((strRanges ws).flatMap pagesOf).dedup

/-- The first granule of a slice's remote read cache carve-out, with the RemoteCacheMiB in effect (R157). -/
def cacheFirst (s : State) (slice : Nat) : Nat := 144 - s.rcEff.getD (halfIx (halfOf64 slice)) 0 / 2

/-- Whether a granule lies in a partition. -/
def inPart (p : Partition) (slice g : Nat) : Bool :=
  p.slice == slice && decide (p.first ≤ g) && decide (g < p.first + p.count)

/-- Whether a page lies in another queue's partition or in the cache carve-out (R159, R161). -/
def pageForeign (s : State) (slice q page : Nat) : Bool :=
  decide (cacheFirst s slice ≤ page / 16) || s.parts.any (fun p => inPart p slice (page / 16) && p.queue != q)

/-- Whether a page lies in the overflow pool (R157). -/
def pageInPool (s : State) (slice page : Nat) : Bool :=
  decide (page / 16 < cacheFirst s slice) && !s.parts.any (fun p => inPart p slice (page / 16))

/-- Whether two page lists meet. -/
def meets (a b : List Nat) : Bool := a.any (fun p => b.contains p)

/-- Claims held in a slice. -/
def heldClaims (s : State) (slice : Nat) : List Claim := s.claims.filter (fun c => c.slice == slice)

/-- Whether the claim at a place of the waiting list can be granted: none of its pages held by another claim or
reserved by an earlier waiting claim, and the slice below 16 held claims (R159). A re-claimed range comes ahead of
every other waiting claim (R163). -/
def grantable (s : State) (i : Nat) : Bool :=
  match s.waitClaims[i]? with
  | none => false
  | some c =>
    let earlier := (if c.reclaim then [] else s.waitClaims.take i
        ++ (s.waitClaims.drop (i + 1)).filter (fun (x : Claim) => x.reclaim)).filter (fun (x : Claim) => x.slice == c.slice)
    decide ((heldClaims s c.slice).length < 16) && !c.halted
      && !(heldClaims s c.slice ++ earlier).any (fun x => meets x.pages c.pages)

/-- The claim of a stream is held. -/
def claimHeld (s : State) (q seq : Nat) : Bool := s.claims.any (fun c => c.queue == q && c.seq == seq)

/-- Whether byte ranges reach a page of a list. -/
def onPages (pages : List Nat) (rs : List (Nat × Nat)) : Bool :=
  pages.any (fun p => rs.any (fun r => decide (r.1 < 4096 * (p + 1)) && decide (4096 * p < r.1 + r.2) && r.2 != 0))

/-- Pages of one slice held by a spill in progress: descriptors of the holder's queue whose ranges reach them do not
start (R163). -/
def spillHolds (s : State) (slice q : Nat) (rs : List (Nat × Nat)) : Bool :=
  s.spills.any (fun x => x.holder.slice == slice && x.holder.queue == q && onPages x.holder.pages rs)

/-! ### The fault record (Table STR-7) -/

/-- Words 2 to 7 of a stream's record. -/
def strBody (c : StreamCtx) : List Word64 :=
  let ws := c.d.words
  let sp := min c.poisonLines.length top32
  match c.firstFault with
  | none =>
    [0, 0, BitVec.ofNat 64 (min c.faultLines.length top32 * 2 ^ 32), 0, 0,
     BitVec.ofNat 64 (sp + min c.pageCount 255 * 2 ^ 56)]
  | some (u, cause, addr) =>
    let ix := strIndex ws u
    let tile := u / strPerTile ws
    let lastTile := c.faultTiles.foldl max 0
    [BitVec.ofNat 64 (ix.getD 0 0 + ix.getD 1 0 * 2 ^ 32), BitVec.ofNat 64 (ix.getD 2 0 + ix.getD 3 0 * 2 ^ 32),
     BitVec.ofNat 64 (ix.getD 4 0 + min c.faultLines.length top32 * 2 ^ 32), BitVec.ofNat 64 addr,
     BitVec.ofNat 64 (cause + c.causeMask * 2 ^ 8 + tile % 2 ^ 24 * 2 ^ 16 + lastTile % 2 ^ 24 * 2 ^ 40),
     BitVec.ofNat 64 (sp + c.faultTiles.length % 2 ^ 24 * 2 ^ 32 + min c.pageCount 255 * 2 ^ 56)]

/-- The record of a stream that ends with a status of its own (bridge-failed, aborted), or with ok or
delivered-with-faults (R150). -/
def strDone (c : StreamCtx) (engine : Nat) (status : Option Nat) : Done :=
  let faults := !c.faultLines.isEmpty
  { queue := c.d.queue, seq := c.d.seq, words := c.d.words, inLayer := c.d.inLayer
    status := status.getD (if faults then 0x10 else 0), op := 0x40, engine := engine
    summary := 16 * boolNat (faults || !c.poisonLines.isEmpty)
    body := strBody c
    traps := faults && strTrapFault c.d.words && status.isNone }

end Sys2Proof.Machine
end

