-- ==== Sys2Proof/Machine/Layouts.lean ====
section
/-!
DEFINITION. The descriptor layouts of the compute engines and schedulers (Tables ARR-7, ARR-8, ARR-14, VEC-11 to
VEC-13, VEC-19, VEC-20, COL-1; R108, R131, R289) and the rejections that their fields alone decide.
-/

namespace Sys2Proof.Machine

/-- The size of a slice as operands address it: offsets at or beyond it are address errors. -/
def ends (first n : Nat) : Bool := decide (first + n ≤ sliceSize)

/-- Whether a byte range of a slice touches another queue's partition or the cache carve-out (R161). -/
def rangeForeign (s : State) (nn q : Nat) (r : Nat × Nat) : Bool := (pagesOf r).any (pageForeign s nn q)

/-- Words whose every bit is reserved. -/
def wholeWords (ws : List Nat) : List RField := ws.map (fun w => (w, 63, 0))

/-! ### Array descriptors (R77 to R79, R86, R88, R96) -/

def arrMode (ws : List Word64) : Nat := dField ws 0 10 8
def arrShape (ws : List Word64) : Nat := dField ws 0 12 11
def arrAFmt (ws : List Word64) : Nat := dField ws 0 16 13
def arrWFmt (ws : List Word64) : Nat := dField ws 0 20 17
def arrAScale (ws : List Word64) : Nat := dField ws 0 22 21
def arrWScale (ws : List Word64) : Nat := dField ws 0 24 23
def arrAcc (ws : List Word64) : Bool := dBit ws 0 25
def arrFinal (ws : List Word64) : Bool := dBit ws 0 26
def arrBank (ws : List Word64) : Nat := dField ws 0 27 27
def arrTrapNV (ws : List Word64) : Bool := dBit ws 0 28
def arrTrapOF (ws : List Word64) : Bool := dBit ws 0 29
def arrMetricCtl (ws : List Word64) : Nat := dField ws 0 39 32
def arrKm1 (ws : List Word64) : Nat := dField ws 0 35 32
def arrTopK (ws : List Word64) : Bool := dBit ws 0 36
def arrShadow (ws : List Word64) : Bool := dBit ws 0 37
def arrM (ws : List Word64) : Nat := dField ws 0 47 40 + 1
def arrK (ws : List Word64) : Nat := 16 * (dField ws 0 63 48 + 1)
def arrN (ws : List Word64) : Nat := dField ws 1 11 0 + 1
def arrActAddr (ws : List Word64) : Nat := dField ws 1 35 12
def arrActStride (ws : List Word64) : Nat := dField ws 1 59 36
def arrWAddr (ws : List Word64) : Nat := dField ws 2 23 0
def arrWScaleAddr (ws : List Word64) : Nat := dField ws 2 47 24
def arrAScaleAddr (ws : List Word64) : Nat := dField ws 3 23 0
def arrAScaleStride (ws : List Word64) : Nat := dField ws 3 47 24
def arrTileM (ws : List Word64) : Nat := dField ws 4 15 0
def arrTileN (ws : List Word64) : Nat := dField ws 4 31 16

/-- The operand formats of Table ARR-7; `word32` stands for a reserved code. -/
def arrFmt (c : Nat) : Fmt := [Fmt.k4, .k6, .k8, .k8w, .k16, .int4, .int8].getD c .word32

def arrA (ws : List Word64) : Fmt := arrFmt (arrAFmt ws)
def arrW (ws : List Word64) : Fmt := arrFmt (arrWFmt ws)

/-- Reserved fields of an array descriptor. -/
def arrReserved : List RField :=
  [(0, 31, 30), (0, 39, 38), (1, 63, 60), (2, 63, 48), (3, 63, 48), (4, 63, 32)]
    ++ wholeWords [5, 6, 7, 8, 9, 10, 11, 12, 13] ++ tailReserved

/-- Whether the operand pair is one of Table VEC-10 for a MAC pass. -/
def macPair (a w : Fmt) : Bool :=
  (a.short && w.short) || (a == .k16 && w == .k16)
    || ((a == .int8 || a == .int4) && (w == .int8 || w == .int4))

/-- Whether a format is one that the metric modes take (R86). -/
def metricFmt (f : Fmt) : Bool := f == .k8 || f == .k16 || f == .int8 || f == .int4

/-- The format errors of Tables ARR-9 and ARR-16. -/
def arrFormatBad (ws : List Word64) : Bool :=
  let a := arrA ws
  let w := arrW ws
  decide (4 < arrMode ws) || arrShape ws == 3 || a == .word32 || w == .word32 || arrAScale ws == 3
    || arrWScale ws == 3
    || (if arrMode ws = 0 then
          !macPair a w || (arrAScale ws != 0 && !a.short) || (arrWScale ws != 0 && !w.short)
        else a != w || !metricFmt a || arrAScale ws != 0 || arrWScale ws != 0)

/-- Operand pair classes (R53, R86). -/
inductive PairClass | four | eight | sixteen
  deriving DecidableEq, Repr

/-- The class of a descriptor's operand pair. -/
def arrClass (ws : List Word64) : PairClass :=
  let a := arrA ws
  let w := arrW ws
  if a = .k16 then .sixteen
  else if arrMode ws = 0 ∧ ((a = .k4 ∧ w = .k4) ∨ (a = .int4 ∧ w = .int4)) then .four
  else .eight

/-- Row groups G of a shape (Table ARR-2). -/
def arrG (ws : List Word64) : Nat := [1, 2, 4].getD (arrShape ws) 4

/-- Reduction depth D of a stationary tile (Table ARR-2). -/
def arrD (ws : List Word64) : Nat :=
  (match arrClass ws with
    | .four => 256
    | .eight => 128
    | .sixteen => 64) / arrG ws

/-- Output columns of one row group. -/
def arrGroupCols (ws : List Word64) : Nat :=
  match arrClass ws with
  | .sixteen => 256
  | _ => 512

/-- Columns N_t of a stationary tile (Table ARR-2). -/
def arrNt (ws : List Word64) : Nat := arrGroupCols ws * arrG ws

/-- Stationary tiles along the reduction. -/
def arrTiles (ws : List Word64) : Nat := ceilDiv (arrK ws) (arrD ws)

/-- The part of the reduction range that tile t covers. -/
def arrTileK (ws : List Word64) (t : Nat) : Nat := min (arrD ws) (arrK ws - t * arrD ws)

/-- Values of k in one load unit (R54). -/
def unitK (ws : List Word64) : Nat :=
  match arrClass ws with
  | .four => 32
  | .eight => 16
  | .sixteen => 8

/-- Columns of one load unit. -/
def unitN (ws : List Word64) : Nat :=
  match arrClass ws with
  | .sixteen => 32
  | _ => 64

/-- Bytes of one physical row of a weight unit (R63, R78): rows lie back to back. -/
def unitRowBytes (ws : List Word64) : Nat :=
  match arrClass ws with
  | .four => 64
  | .sixteen => 32
  | .eight =>
    match arrW ws with
    | .k4 | .int4 => 32
    | .k6 => 48
    | _ => 64

/-- Bytes of one weight unit (R63). -/
def unitBytes (ws : List Word64) : Nat := 16 * unitRowBytes ws

/-- Whether unit (j, b) of a tile of depth kt is written for `cols` columns (R63). -/
def unitWritten (ws : List Word64) (kt cols j b : Nat) : Bool :=
  let jj := 8 / arrG ws
  decide (arrGroupCols ws * (j / jj) + unitN ws * b < cols) && decide (unitK ws * (j % jj) < kt)

/-- The units of a tile in the order of R63: b outer, j inner. -/
def unitOrder : List (Nat × Nat) := (List.range 64).map (fun i => (i % 8, i / 8))

/-- The written units of a tile before unit (j, b). -/
def unitsBefore (ws : List Word64) (kt cols j b : Nat) : Nat :=
  ((unitOrder.take (8 * b + j)).filter (fun u => unitWritten ws kt cols u.1 u.2)).length

/-- Units written for a tile. -/
def unitsOf (ws : List Word64) (kt cols : Nat) : Nat :=
  (unitOrder.filter (fun u => unitWritten ws kt cols u.1 u.2)).length

/-- Elements of a scale block (codes 1 and 2). -/
def blockOf (code : Nat) : Nat := if code = 2 then 32 else 16

/-- Weight bytes and weight scale bytes before tile t. -/
def weightBefore (ws : List Word64) : Nat → Nat
  | 0 => 0
  | t + 1 => weightBefore ws t + unitsOf ws (arrTileK ws t) (arrN ws) * unitBytes ws
def wScaleBefore (ws : List Word64) : Nat → Nat
  | 0 => 0
  | t + 1 => wScaleBefore ws t + arrN ws * ceilDiv (arrTileK ws t) (blockOf (arrWScale ws))

/-- The load time of a tile in steps (R63, R65); a shadow column counts as a written column (R95). -/
def loadSteps (ws : List Word64) (t : Nat) : Nat :=
  let cols := arrN ws + boolNat (arrShadow ws)
  let kt := arrTileK ws t
  let scales := if arrWScale ws = 0 then 0 else cols * ceilDiv kt (blockOf (arrWScale ws))
  max (ceilDiv (unitsOf ws kt cols * unitBytes ws) 512) (ceilDiv scales 64)

/-- The operand ranges of an array descriptor (R78). -/
def arrRanges (ws : List Word64) : List (Nat × Nat) :=
  [(arrActAddr ws, (arrM ws - 1) * arrActStride ws + rowBytes (arrA ws) (arrK ws)),
   (arrWAddr ws, weightBefore ws (arrTiles ws))]
    ++ (if arrAScale ws = 0 then []
        else [(arrAScaleAddr ws, (arrM ws - 1) * arrAScaleStride ws + arrK ws / blockOf (arrAScale ws))])
    ++ (if arrWScale ws = 0 then [] else [(arrWScaleAddr ws, wScaleBefore ws (arrTiles ws))])

/-- The shape errors that the descriptor alone shows (Tables ARR-9, ARR-16). -/
def arrShapeBad (ws : List Word64) : Bool :=
  decide (65536 < arrM ws * arrNt ws) || decide (arrNt ws < arrN ws)
    || (arrMode ws == 0 && arrMetricCtl ws != 0)
    || ((arrAScale ws == 2 || arrWScale ws == 2) && arrK ws % 32 != 0)
    || (arrMode ws != 0 && ((!arrTopK ws && arrKm1 ws != 0) || (arrShadow ws && arrN ws == arrNt ws)))

/-- The address errors that the descriptor alone shows (Table ARR-9). -/
def arrAddrBad (ws : List Word64) : Bool :=
  arrActAddr ws % 64 != 0 || arrWAddr ws % 64 != 0
    || (decide (1 < arrM ws)
        && (arrActStride ws % 64 != 0 || arrAScaleStride ws % 8 != 0
            || decide (arrActStride ws < rowBytes (arrA ws) (arrK ws))
            || (arrAScale ws != 0 && decide (arrAScaleStride ws < arrK ws / blockOf (arrAScale ws)))))
    || (arrRanges ws).any (fun r => !ends r.1 r.2)

/-! ### Vector programs (R100 to R103) -/

def vecLen (ws : List Word64) : Nat := dField ws 0 12 8 + 1
def vecLanes16 (ws : List Word64) : Bool := dBit ws 0 13
def vecTrapNV (ws : List Word64) : Bool := dBit ws 0 14
def vecTrapOF (ws : List Word64) : Bool := dBit ws 0 15
def vecSR (ws : List Word64) : Bool := dBit ws 0 16
def vecBank (ws : List Word64) : Nat := dField ws 0 17 17
def vecScaleSrc (ws : List Word64) : Bool := dBit ws 0 18
def vecHeadroom (ws : List Word64) : Nat := dField ws 0 20 19
def vecSeed (ws : List Word64) : Nat := dField ws 0 63 32
def vecProgAddr (ws : List Word64) : Nat := dField ws 1 23 0
def vecM (ws : List Word64) : Nat := dField ws 1 39 24 + 1
def vecN (ws : List Word64) : Nat := dField ws 1 51 40 + 1

/-! Operand specifiers (Table VEC-12): operand i is I0 to I3, O0, O1. -/

def opFmt (ws : List Word64) (i : Nat) : Nat := dField ws (2 + i) 3 0
def opScale (ws : List Word64) (i : Nat) : Nat := dField ws (2 + i) 5 4
def opAddr (ws : List Word64) (i : Nat) : Nat := dField ws (2 + i) 29 6
def opStride (ws : List Word64) (i : Nat) : Nat := dField ws (2 + i) 53 30
def opReduce (ws : List Word64) (i : Nat) : Bool := dBit ws (2 + i) 63
def opScaleAddr (ws : List Word64) (i : Nat) : Nat := dField ws (8 + i) 23 0
def opScaleStride (ws : List Word64) (i : Nat) : Nat := dField ws (8 + i) 47 24

/-- The element format of a specifier code, for the codes that name one. -/
def vecFmt : Nat → Option Fmt
  | 0 => some .k4
  | 1 => some .k6
  | 2 => some .k8
  | 3 => some .k8w
  | 4 => some .k16
  | 7 => some .k32
  | 8 => some .word32
  | _ => none

/-- Reserved fields of a vector descriptor. -/
def vecReserved : List RField :=
  [(0, 31, 21), (1, 63, 52)] ++ (List.range 6).map (fun i => (2 + i, 62, 54))
    ++ (List.range 6).map (fun i => (8 + i, 63, 48)) ++ tailReserved

/-- Whether a specifier is in use. -/
def opUsed (ws : List Word64) (i : Nat) : Bool := opFmt ws i != 15

/-- Whether a specifier's format or scale is a format error (R102): reserved codes, INT codes, Bank or BX8 bytes
where they may not stand, a scale on a format that takes none. -/
def opFormatBad (ws : List Word64) (i : Nat) : Bool :=
  let f := opFmt ws i
  let input := decide (i < 4)
  !(f == 15 || (vecFmt f).isSome || (f == 9 && input) || (f == 10 && i == 3 && vecScaleSrc ws))
    || opScale ws i == 3
    || (opScale ws i != 0 && !(decide (f < 4) || f == 15))

/-- The format errors of a vector descriptor that its words show. -/
def vecFormatBad (ws : List Word64) : Bool :=
  (List.range 6).any (opFormatBad ws) || (vecScaleSrc ws && opFmt ws 3 != 10)

/-- Fields of an instruction (Table VEC-13). -/
def insOp (w : Nat) : Nat := w % 256
def insDst (w : Nat) : Nat := w / 2 ^ 8 % 32
def insA (w : Nat) : Nat := w / 2 ^ 13 % 32
def insB (w : Nat) : Nat := w / 2 ^ 18 % 32
def insC (w : Nat) : Nat := w / 2 ^ 23 % 32
def insMod (w : Nat) : Nat := w / 2 ^ 28 % 16

/-- Whether an instruction is a row reduction. -/
def insReduces (w : Nat) : Bool := decide (0x1A ≤ insOp w) && decide (insOp w ≤ 0x1C)

/-- Whether an instruction has a reserved Op or Mod (R102, Tables VEC-13, VEC-14). DESIGN CHOICE (log entry 13): Table VEC-13 gives
ICMPS and ICMPU no Mod, and Table VEC-14 has them compare; they take Mod 0 to 3 as CMP does. -/
def insBad (lanes16 : Bool) (w : Nat) : Bool :=
  let op := insOp w
  let m := insMod w
  if op = 0x17 ∨ op = 0x28 ∨ op = 0x29 then decide (3 < m)
  else if op = 0x19 then !(decide (m < 5) || (m == 7 && !lanes16))
  else !(decide (1 ≤ op ∧ op ≤ 0x1C) || decide (0x20 ≤ op ∧ op ≤ 0x29)) || m != 0

/-- The instructions of a program as the slice holds them; a poisoned line holds unspecified words (R33). None for a
program that does not lie in the slice. -/
def progOf (s : State) (nn : Nat) (ws : List Word64) : List Nat :=
  if ends (vecProgAddr ws) (4 * vecLen ws) then
    (List.range (vecLen ws)).map (fun i =>
      let a := nn * sliceSize + vecProgAddr ws + 4 * i
      if nsHas s.tilePoison (a / 64) then (Config.poisonedWord a).toNat % 2 ^ 32 else leNat (memBytes s.tile a 4))
  else []

/-- The shape errors of a vector descriptor (R102). -/
def vecShapeBad (ws : List Word64) (prog : List Nat) : Bool :=
  let n := vecN ws
  let reds := (prog.filter insReduces).length
  (List.range 6).any (fun i =>
      opUsed ws i && !(i == 5 && opReduce ws 5)
        && ((opScale ws i != 0 && n % blockOf (opScale ws i) != 0)
            || (opFmt ws i == 1 && n % 16 != 0)
            || (opFmt ws i == 10 && opScale ws 4 != 0 && n % blockOf (opScale ws 4) != 0)))
    || decide (1 < reds)
    || (List.range 5).any (opReduce ws)
    || (opReduce ws 5 && (reds == 0 || opScale ws 5 != 0))

/-- The byte ranges of operand i of a vector descriptor: its rows and its scales. -/
def opRanges (ws : List Word64) (i : Nat) : List (Nat × Nat) :=
  let m := vecM ws
  let n := vecN ws
  let span (row : Nat) : List (Nat × Nat) := [(opAddr ws i, (m - 1) * opStride ws i + row)]
  (match vecFmt (opFmt ws i) with
    | some f =>
      if i = 5 ∧ opReduce ws 5 then span (rowBytes f 1) else span (rowBytes f n)
    | none => if opFmt ws i = 10 then span (ceilDiv n (blockOf (opScale ws 4))) else [])
    ++ (if opUsed ws i && opScale ws i != 0 then
          [(opScaleAddr ws i, (m - 1) * opScaleStride ws i + n / blockOf (opScale ws i))] else [])

/-- The byte ranges of a vector descriptor's operands and program. -/
def vecRanges (ws : List Word64) : List (Nat × Nat) :=
  (vecProgAddr ws, 4 * vecLen ws) :: (List.range 6).flatMap (opRanges ws)

/-- The address errors of a vector descriptor's words. -/
def vecAddrBad (ws : List Word64) : Bool :=
  vecProgAddr ws % 64 != 0 || (vecRanges ws).any (fun r => !ends r.1 r.2)

/-! ### Merge, scan and rebias (R108, R115, R131) -/

def mrgK (ws : List Word64) : Nat := dField ws 0 11 8 + 1
def mrgLargest (ws : List Word64) : Bool := dBit ws 0 12
def mrgInt (ws : List Word64) : Bool := dBit ws 0 13
def mrgSets (ws : List Word64) : Nat := dField ws 0 21 14 + 1
def mrgInK (ws : List Word64) : Nat := dField ws 0 25 22 + 1
def mrgN (ws : List Word64) : Nat := dField ws 1 11 0 + 1
def mrgInAddr (ws : List Word64) : Nat := dField ws 1 35 12
def mrgStride (ws : List Word64) : Nat := dField ws 1 59 36
def mrgOutAddr (ws : List Word64) : Nat := dField ws 2 23 0
def mrgOffset (ws : List Word64) : Nat := dField ws 2 55 24

/-- Reserved fields of a merge descriptor. -/
def mrgReserved : List RField :=
  [(0, 63, 26), (1, 63, 60), (2, 63, 56)] ++ wholeWords [3, 4, 5, 6, 7, 8, 9, 10, 11, 12, 13] ++ tailReserved

/-- The byte ranges of a merge. -/
def mrgRanges (ws : List Word64) : List (Nat × Nat) :=
  [(mrgInAddr ws, (mrgSets ws - 1) * mrgStride ws + mrgN ws * (1 + mrgInK ws) * 8),
   (mrgOutAddr ws, mrgN ws * (1 + mrgK ws) * 8)]

def scanFmt (ws : List Word64) : Nat := dField ws 0 11 8
def scanInScale (ws : List Word64) : Nat := dField ws 0 13 12
def scanBlock (ws : List Word64) : Nat := dField ws 0 15 14
def scanRows (ws : List Word64) : Bool := dBit ws 0 16
def scanCols (ws : List Word64) : Bool := dBit ws 0 17
def scanTarget (ws : List Word64) : Nat := dField ws 0 19 18
def scanHead (ws : List Word64) : Nat := dField ws 0 21 20
def scanAddr (ws : List Word64) : Nat := dField ws 1 23 0
def scanStride (ws : List Word64) : Nat := dField ws 1 47 24
def scanM (ws : List Word64) : Nat := dField ws 2 15 0 + 1
def scanN (ws : List Word64) : Nat := dField ws 2 27 16 + 1
def scanRAddr (ws : List Word64) : Nat := dField ws 3 23 0
def scanRStride (ws : List Word64) : Nat := dField ws 3 47 24
def scanCAddr (ws : List Word64) : Nat := dField ws 4 23 0
def scanCStride (ws : List Word64) : Nat := dField ws 4 47 24
def scanAmax (ws : List Word64) : Nat := (wordAt ws 5).toNat
def scanSAddr (ws : List Word64) : Nat := dField ws 6 23 0
def scanSStride (ws : List Word64) : Nat := dField ws 6 47 24

/-- Reserved fields of a scan descriptor. DESIGN CHOICE (log entry 18): Table VEC-19 names bits [63:48] of words 3 and 4 neither a
field nor reserved; they are taken as reserved. -/
def scanReserved : List RField :=
  [(0, 63, 22), (1, 63, 48), (2, 63, 28), (3, 63, 48), (4, 63, 48), (6, 63, 48)]
    ++ wholeWords [7, 8, 9, 10, 11, 12, 13] ++ tailReserved

/-- The format errors of a scan (R118). -/
def scanFormatBad (ws : List Word64) : Bool :=
  !(decide (scanFmt ws < 5) || scanFmt ws == 7) || scanInScale ws == 3
    || (scanInScale ws != 0 && !decide (scanFmt ws < 4))

/-- The shape errors of a scan (R118). K6 rows hold whole groups of 16 (R28). -/
def scanShapeBad (ws : List Word64) : Bool :=
  let b := blockOf (scanBlock ws)
  scanBlock ws == 0 || scanBlock ws == 3
    || (scanRows ws && scanN ws % b != 0) || (scanCols ws && scanM ws % b != 0)
    || (scanInScale ws != 0 && scanN ws % blockOf (scanInScale ws) != 0)

/-- The byte ranges of a scan. -/
def scanRanges (ws : List Word64) : List (Nat × Nat) :=
  let b := blockOf (scanBlock ws)
  let f := (vecFmt (scanFmt ws)).getD .word32
  [(scanAddr ws, (scanM ws - 1) * scanStride ws + rowBytes f (scanN ws))]
    ++ (if scanRows ws then [(scanRAddr ws, (scanM ws - 1) * scanRStride ws + scanN ws / b)] else [])
    ++ (if scanCols ws then [(scanCAddr ws, (scanN ws - 1) * scanCStride ws + scanM ws / b)] else [])
    ++ (if scanInScale ws != 0 then
          [(scanSAddr ws, (scanM ws - 1) * scanSStride ws + scanN ws / blockOf (scanInScale ws))] else [])

/-- The address errors of a scan. A reserved space code in AmaxTarget is one too (R269). -/
def scanAddrBad (ws : List Word64) : Bool :=
  scanAddr ws % 64 != 0 || (scanRanges ws).any (fun r => !ends r.1 r.2)
    || (scanAmax ws != 0 && spaceOf (scanAmax ws) == .bad)

def rebBias (ws : List Word64) : Nat := dField ws 0 14 8
def rebAddr (ws : List Word64) : Nat := dField ws 1 23 0
def rebStride (ws : List Word64) : Nat := dField ws 1 47 24
def rebM (ws : List Word64) : Nat := dField ws 2 15 0 + 1
def rebN (ws : List Word64) : Nat := dField ws 2 27 16 + 1

/-- Reserved fields of a rebias descriptor. -/
def rebReserved : List RField :=
  [(0, 63, 15), (1, 63, 48), (2, 63, 28)] ++ wholeWords [3, 4, 5, 6, 7, 8, 9, 10, 11, 12, 13] ++ tailReserved

/-- The byte range of a rebias. -/
def rebRange (ws : List Word64) : Nat × Nat := (rebAddr ws, (rebM ws - 1) * rebStride ws + rebN ws)

/-- The slice ranges of a vector unit's descriptor, by its opcode. -/
def ownRanges (ws : List Word64) : List (Nat × Nat) :=
  if opcode ws = 0x30 then vecRanges ws
  else if opcode ws = 0x31 then mrgRanges ws
  else if opcode ws = 0x32 then scanRanges ws
  else [rebRange ws]

/-! ### LayerOpen (Table VEC-20) -/

def layId (ws : List Word64) : Nat := dField ws 0 19 8
def layMask (ws : List Word64) : Nat := dField ws 0 23 20
def layTrap (ws : List Word64) : Bool := dBit ws 0 24
def layAddr (ws : List Word64) (r : Nat) : Nat := (wordAt ws (1 + r)).toNat
def layLen (ws : List Word64) (r : Nat) : Nat := dField ws 5 (16 * r + 15) (16 * r)
def layObj (ws : List Word64) : Nat := dField ws 6 15 0
def layObjs (ws : List Word64) : Nat := dField ws 6 22 16

/-- Reserved fields of a LayerOpen. -/
def layReserved : List RField :=
  [(0, 63, 25), (6, 63, 23)] ++ wholeWords [7, 8, 9, 10, 11, 12, 13] ++ tailReserved

/-- The rungs present, lowest first. -/
def layRungs (ws : List Word64) : List Nat := (List.range 4).filter (fun r => natBit r (layMask ws))

/-- The rejection status of a LayerOpen, if any (R121, R269). -/
def layReject (ws : List Word64) : Option Nat :=
  if reservedSet ws layReserved then some 1
  else if layMask ws = 0 || (layRungs ws).any (fun r => layLen ws r == 0 || layAddr ws r == 0)
      || (layObjs ws != 0 && decide (32768 < layObj ws + layObjs ws)) || decide (64 < layObjs ws) || !targetOk ws then some 3
  else if (List.range 4).any (fun r => layAddr ws r % 128 != 0)
      || (layRungs ws).any (fun r => spaceOf (layAddr ws r) == .bad) then some 4
  else none

/-! ### Cache invalidation (R289) -/

def rciAll (ws : List Word64) : Bool := dBit ws 0 8
def rciChipLo (ws : List Word64) : Nat := dField ws 0 22 9
def rciChipHi (ws : List Word64) : Nat := dField ws 0 36 23
def rciOffLo (ws : List Word64) : Nat := dField ws 1 43 0
def rciOffHi (ws : List Word64) : Nat := dField ws 2 43 0

/-- Reserved fields of an invalidate descriptor. -/
def rciReserved : List RField :=
  [(0, 63, 37), (1, 63, 44), (2, 63, 44)] ++ wholeWords [3, 4, 5, 6, 7, 8, 9, 10, 11, 12, 13] ++ tailReserved

/-- The rejection status of an invalidate descriptor, if any. -/
def rciReject (ws : List Word64) : Option Nat :=
  if reservedSet ws rciReserved then some 1
  else if rciChipHi ws < rciChipLo ws || decide (rciOffHi ws < rciOffLo ws) || !targetOk ws then some 3
  else none

/-! ### Seam markers (Table STR-4) -/

/-- Reserved fields of a seam marker. -/
def seamReserved : List RField :=
  [(0, 63, 14), (1, 63, 15), (3, 63, 15), (5, 63, 15), (7, 63, 15), (9, 63, 15), (11, 63, 15), (13, 63, 0)]
    ++ tailReserved

/-! ### Collective descriptors (Table COL-1) -/

def colOp (ws : List Word64) : Nat := dField ws 0 10 8
def colRed (ws : List Word64) : Nat := dField ws 0 12 11
def colIn (ws : List Word64) : Nat := dField ws 0 15 13
def colOut (ws : List Word64) : Nat := dField ws 0 17 16
def colTwo (ws : List Word64) : Bool := dBit ws 0 18
def colDepth (ws : List Word64) : Nat := dField ws 0 24 20 + 1
def colSegs (ws : List Word64) : Nat := dField ws 0 31 25 + 1
def colId (ws : List Word64) : Nat := dField ws 0 47 32
def colPair (ws : List Word64) : Nat := dField ws 0 53 48
def colSrc (ws : List Word64) : Nat := (wordAt ws 1).toNat
def colDst (ws : List Word64) : Nat := (wordAt ws 2).toNat
def colElems (ws : List Word64) : Nat := dField ws 3 39 0
def colGreyAddr (ws : List Word64) : Nat := (wordAt ws 4).toNat
def colGreyBytes (ws : List Word64) : Nat := dField ws 5 39 0
def colGroup (ws : List Word64) (level : Nat) : Nat := if level = 0 then dField ws 6 9 0 else dField ws 6 19 10
def colSigObj (ws : List Word64) : Nat := dField ws 6 34 20
def colSigEn (ws : List Word64) : Bool := dBit ws 6 35
def colWatch (ws : List Word64) : Nat := dField ws 7 15 0

/-- Reserved fields of a collective descriptor. -/
def colReserved : List RField :=
  [(0, 19, 19), (0, 63, 54), (3, 63, 40), (5, 63, 40), (6, 63, 36), (7, 63, 16)]
    ++ wholeWords [8, 9, 10, 11, 12, 13] ++ tailReserved

/-- The format errors of a collective descriptor (R295). -/
def colFormatBad (ws : List Word64) : Bool :=
  decide (4 < colOp ws) || colRed ws == 3 || decide (4 < colIn ws)
    || (colIn ws == 4 && (colOut ws == 1 || colOut ws == 2))
    || (colRed ws != 0 && (colOp ws == 2 || colOp ws == 3))

/-! ### Rejections found before issue (R111, R190, R291) -/

/-- The reserved fields of a descriptor by its opcode. -/
def reservedOf (ws : List Word64) : List RField :=
  let op := opcode ws
  if op = 0x20 then arrReserved
  else if op = 0x30 then vecReserved
  else if op = 0x31 then mrgReserved
  else if op = 0x32 then scanReserved
  else if op = 0x33 then rebReserved
  else if op = 0x40 then strReserved ws
  else if op = 0x41 then seamReserved
  else if op = 0x42 then rciReserved
  else if op = 0x50 then layReserved
  else colReserved

/-- Whether a descriptor's words show a format error of its opcode. -/
def formatBad (ws : List Word64) : Bool :=
  let op := opcode ws
  if op = 0x20 then arrFormatBad ws
  else if op = 0x30 then vecFormatBad ws
  else if op = 0x32 then scanFormatBad ws
  else if op = 0x40 then !strFmtOk ws || strScaleMode ws == 3 || (strScaled ws && decide (3 < strFmt ws))
  else if op = 0x60 then colFormatBad ws
  else false

/-- Whether a descriptor's target lies in a half that serves the queue (R190). Engine 126 is a mover of the home
half, and a scheduler's descriptor is executed by the schedulers that serve. -/
def targetServed (halves : Nat) (ws : List Word64) : Bool :=
  if isCompute (opcode ws) then serves halves (halfOf64 (tailTarget ws))
  else if opcode ws = 0x40 then strEngine ws == 126 || (decide (strEngine ws < 72) && serves halves (halfOfEngine (strEngine ws)))
  else true

/-- The rejection of a descriptor that no engine need see: an undefined opcode, one that its queue does not take, a
target that does not match or does not serve (R111, R190, R291). In a variant list, a LayerOpen or a signal outside
the layer-local objects is a shape error (R121); `outside` says so. -/
def issueReject (q halves : Nat) (ws : List Word64) (outside : Bool) : Option Nat :=
  let op := opcode ws
  if !knownOpcode op then some 2
  else if reservedSet ws (reservedOf ws) then
    if (q == collQ) != (op == 0x60) || !targetOk ws || !targetServed halves ws || outside then some 1 else none
  else if (q == collQ) != (op == 0x60) then some 2
  else if !targetOk ws || !targetServed halves ws || outside then some (if formatBad ws then 2 else 3)
  else none

end Sys2Proof.Machine
end

