-- ==== Sys2Proof/Machine/FarOps.lean ====
section
/-!
DEFINITION. One line of memory as an engine, the host or the fabric reaches it through a Local offset (R16 to R18,
R156, R194, R451), and waits (R197).
-/

namespace Sys2Proof.Machine

/-- What a read of one line gave: bytes, poison, and a Table STR-6 cause, 0 for none. -/
structure Got where
  bytes : Bytes
  poison : Bool := false
  cause : Nat := 0
  deriving DecidableEq, Repr

/-- A line as an engine reads it. `lo` and `n` are the first byte and the count the request touches, which a
synchronisation object needs to be one aligned 64-bit word (R194). -/
def localGet (s : State) (line lo n : Nat) : Got :=
  match regionOf s line with
  | .lpddr =>
    if nsHas s.lpddrBad (line / 64) then ⟨readBytes { s with free := s.free + 8 * (line / 64 % 4) } line 64, true, 4⟩
    else ⟨rawBytes s line 64, linePoison s line, 0⟩
  | .tile => ⟨rawBytes s line 64, linePoison s line, 0⟩
  | .sync =>
    if n = 8 ∧ lo % 8 = 0 then
      ⟨(List.range 8).flatMap (fun i => natLe 8 (syncGet s ((line - syncBase) / 8 + i)).toNat), false, 0⟩
    else ⟨List.replicate 64 0, false, 6⟩
  | .page => ⟨pageBytes s line 64, false, 0⟩
  | .reserved => ⟨List.replicate 64 0, false, 6⟩

/-- The single aligned 64-bit word a byte mask covers, if it is one. -/
def oneWord (mask : Nat) : Option Nat := (List.range 8).find? (fun k => mask == 255 * 2 ^ (8 * k))

/-- Whether a masked line store at a Local offset is applied; otherwise it is an address error (R18, R194). -/
def localPutOk (s : State) (line mask : Nat) : Bool :=
  match regionOf s line with
  | .lpddr | .tile | .page => true
  | .sync => (oneWord mask).isSome
  | .reserved => false

/-- A masked line store at a Local offset; one at a reserved offset is only counted (R18), and one of a synchronisation object
that is not one aligned word is refused (R194). -/
def localPut (s : State) (line mask : Nat) (data : Bytes) (poison : Bool) : State :=
  match regionOf s line with
  | .lpddr | .tile => writeLine s line mask data poison
  | .page => pageStore s line mask data
  | .sync =>
    match oneWord mask with
    | some k => syncPut s ((line - syncBase) / 8 + k) (BitVec.ofNat 64 (leNat ((data.drop (8 * k)).take 8)))
    | none => s
  | .reserved => countAddrError s line

/-- Table waits in use on objects homed in a half (R197). -/
def waitsIn (s : State) (h : Half) : Nat :=
  (s.waiters.filter (fun w => !w.polled && halfOfObj w.obj == h)).length

/-- A wait found not to hold takes an entry, or is held by polling when the half's table of 4,096 is full (R197). -/
def addWait (s : State) (obj value q seq : Nat) : State :=
  let full := decide (4096 ≤ waitsIn s (halfOfObj obj))
  let s := if full then objInc s Obj.waitTableFullEvents else s
  { s with waiters := s.waiters ++ [{ obj := obj, value := value, queue := q, seq := seq, polled := full }] }

/-- Whether a descriptor still has a wait registered. -/
def hasWait (s : State) (q seq : Nat) : Bool := s.waiters.any (fun w => w.queue == q && w.seq == seq)

/-- Whether an object has reached a value. -/
def reached (s : State) (obj value : Nat) : Bool := decide (value ≤ (syncGet s obj).toNat)

end Sys2Proof.Machine
end

