-- ==== Sys2Proof/Machine/Streams.lean ====
section
/-!
DEFINITION. Streams, claims and seams (07, 08 R157 to R163): the meanings of STREAM_START to RESTORE_COPY_DONE.
-/

namespace Sys2Proof.Machine

/-! ### Contexts -/

/-- A function applied to an engine. -/
def updEngine (s : State) (e : Nat) (f : Engine → Engine) : State := { s with engines := modifyAt s.engines e f }

/-- The running descriptors of an engine. -/
def engineCtx (s : State) (e : Nat) : List StreamCtx := (s.engines.getD e {}).ctx

/-- The context of a queue's descriptor on an engine. -/
def findCtx (s : State) (e q seq : Nat) : Option StreamCtx :=
  (engineCtx s e).find? (fun (c : StreamCtx) => c.d.queue == q && c.d.seq == seq)

/-- A function applied to the context of a queue's descriptor on an engine. -/
def updCtx (s : State) (e q seq : Nat) (f : StreamCtx → StreamCtx) : State :=
  updEngine s e (fun g =>
    { g with ctx := g.ctx.map (fun (c : StreamCtx) => if c.d.queue = q ∧ c.d.seq = seq then f c else c) })

/-- The context taken off its engine. -/
def dropCtx (s : State) (e q seq : Nat) : State :=
  updEngine s e (fun g => { g with ctx := g.ctx.filter (fun (c : StreamCtx) => !(c.d.queue == q && c.d.seq == seq)) })

/-- A claim goes, and its wait and its place in the spill area with it (R160). -/
def dropClaim (s : State) (q seq : Nat) : State :=
  { s with
    spills := s.spills.filter (fun (x : Spill) => !(x.holder.queue == q && x.holder.seq == seq))
    claims := s.claims.filter (fun (c : Claim) => !(c.queue == q && c.seq == seq))
    waitClaims := s.waitClaims.filter (fun (c : Claim) => !(c.queue == q && c.seq == seq)) }

/-! ### Completion and tile signals (R140, R142) -/

/-- Units and scale bytes a tile counts when it is whole. -/
def tileWhole (ws : List Word64) : Nat :=
  strPerTile ws + (if strScaled ws then strPerTile ws / strRu ws else 0)

/-- Whether a tile is finished: for Out, every byte read into requests; else every unit in place, acknowledged or
faulted (R140). -/
def tileReady (c : StreamCtx) (t : Nat) : Bool :=
  let ws := c.d.words
  if strDir ws = 1 then
    decide ((t + 1) * strPerTile ws ≤ c.next) && (!strScaled ws || decide ((t + 1) * strPerTile ws ≤ c.nextScale))
  else decide (tileWhole ws ≤ smGetD c.doneUnits t 0)

/-- Tile signals made in increasing tile order, each 1 to SigObj (R140). -/
def tileSignals (s : State) (e q seq : Nat) : Nat → State
  | 0 => s
  | k + 1 =>
    match findCtx s e q seq with
    | none => s
    | some c =>
      if c.signalled < strRunTiles c.d.words && tileReady c (strResume c.d.words + c.signalled) then
        let s := updCtx s e q seq (fun c => { c with signalled := c.signalled + 1 })
        tileSignals (if strSigEn c.d.words then syncAdd s (strSigObj c.d.words) 1 else s) e q seq k
      else s

/-- Whether the run is over (R142). -/
def streamOver (c : StreamCtx) : Bool :=
  let ws := c.d.words
  c.reqs.isEmpty && decide (strLast ws ≤ c.next) && (!strScaled ws || decide (strLast ws ≤ c.nextScale))
    && c.signalled == strRunTiles ws

/-- The lines that a stream found faulted or poisoned since a context was as it is given, counted as they are observed (R153). -/
def tallied (s : State) (e : Nat) (c0 : StreamCtx) : State :=
  match findCtx s e c0.d.queue c0.d.seq with
  | some c =>
    objAdd (objAdd s Obj.streamFaultLines (c.faultLines.length - c0.faultLines.length))
      Obj.streamSourcePoisonLines (c.poisonLines.length - c0.poisonLines.length)
  | none => s

/-- A stream ends with its record and tail: the claim is released unless R160 keeps it, and a kept one remembers the stream's last
request (R162). -/
def endStream (s : State) (e : Nat) (c : StreamCtx) (status : Option Nat) : State :=
  let ws := c.d.words
  let s := dropCtx s e c.d.queue c.d.seq
  let s := if c.faultLines.isEmpty || status.isSome then s else objInc s Obj.streamFaultDescs
  let keeps := strDir ws == 0 && strWaitEn ws && status != some 6
    && !reached s (strWaitObj ws) ((strWaitBase ws + strRunTiles ws) % 2 ^ 64)
  let s := if keeps then
      { s with claims := s.claims.map (fun (x : Claim) =>
          if x.queue = c.d.queue ∧ x.seq = c.d.seq then { x with last := c.lastMove } else x) }
    else dropClaim s c.d.queue c.d.seq
  completeDesc s (strDone c e status)

/-- Tile signals that are due, then completion when the run is over. -/
def advance (s : State) (e q seq : Nat) : State :=
  match findCtx s e q seq with
  | none => s
  | some c =>
    let s := tileSignals s e q seq (strRunTiles c.d.words)
    match findCtx s e q seq with
    | none => s
    | some c => if streamOver c then endStream s e c none else s

/-! ### Faults (R147 to R149) -/

/-- A faulted unit recorded: the first is the one of lowest index, lowest cause (R151). -/
def noteFault (c : StreamCtx) (u cause addr line : Nat) : StreamCtx :=
  let ws := c.d.words
  let first := match c.firstFault with
    | none => some (u, cause, addr)
    | some (u', c', a') => if u < u' ∨ (u = u' ∧ cause < c') then some (u, cause, addr) else some (u', c', a')
  { c with
    firstFault := first
    causeMask := setNatBit (cause - 1) c.causeMask
    faultLines := nsAdd c.faultLines line
    faultTiles := nsAdd c.faultTiles (u / strPerTile ws) }

/-- The page request of a host page fault, once for each page and descriptor, or dropped beyond 256 outstanding
(R148, R325). -/
def pageFault (s : State) (e q seq page : Nat) : State :=
  match findCtx s e q seq with
  | none => s
  | some c =>
    if !strPageReq c.d.words || c.pages.contains page then s
    else
      let pasid := (smGet s.queues q).bind Queue.pasid
      let s := updCtx s e q seq (fun c => { c with pages := c.pages ++ [page] })
      if s.host.pageReqs.length < 256 then
        let s := { s with host := { s.host with
          pageReqs := s.host.pageReqs ++ [((pasid.map (· + 1)).getD 0, page)] } }
        let s := objInc (emit s (.pageRequest pasid page)) Obj.streamPageRequests
        updCtx s e q seq (fun c => { c with pageCount := c.pageCount + 1 })
      else objInc s Obj.pageRequestsDropped

/-- One byte of a unit on its way to its place. -/
structure UByte where
  u : Nat
  far : Nat
  near : Nat
  val : Byte
  poison : Bool
  cause : Nat
  deriving DecidableEq, Repr

/-- The byte that a line written poisoned holds at a place (Table STR-3); `none`: the byte received. -/
def poisonByte (fmt i : Nat) : Option Byte :=
  if fmt = 0 then some 0x88
  else if fmt = 1 then (if i < 60 then some ([0x20, 0x08, 0x82].getD (i % 3) 0) else some 0)
  else if fmt = 2 ∨ fmt = 3 then some 0x80
  else if fmt = 4 then some (if i % 2 = 1 then 0x80 else 0)
  else if fmt = 7 then some (if i % 4 = 3 then 0x80 else 0)
  else if fmt = 10 then some 0xFF
  else none

/-- The bytes and mask of one line that receives bytes. -/
def lineOfBytes (bs : List UByte) (line : Nat) : Nat × Bytes :=
  let mine := bs.filter (fun b => b.near / 64 == line)
  (mine.foldl (fun m b => setNatBit (b.near % 64) m) 0,
   (List.range 64).map (fun i => ((mine.reverse.find? (fun b => b.near % 64 == i)).map UByte.val).getD 0))

/-- What one line that receives bytes is written with: mask, data, poison. A line that receives a byte of a
faulted or poisoned unit is written poisoned, in the pattern of Table STR-3 (R148, R149). -/
def lineWrite (fmt : Nat) (scale : Bool) (bs : List UByte) (line : Nat) : Nat × Bytes × Bool :=
  let mine := bs.filter (fun b => b.near / 64 == line)
  let bad := mine.any (fun b => b.poison || b.cause != 0)
  let md := lineOfBytes bs line
  if scale then (md.1, md.2, mine.any (fun b => b.poison && b.cause == 0))
  else if bad && (poisonByte fmt 0).isSome then
    (fullMask, (List.range 64).map (fun i => (poisonByte fmt i).getD 0), true)
  else (md.1, md.2, bad)

/-- The lines that bytes fall in. -/
def nearLines (bs : List UByte) : List Nat := (bs.map (fun b => b.near / 64)).dedup

/-- Bytes placed in a tile store slice, line by line. -/
def placeSlice (s : State) (slice fmt : Nat) (scale : Bool) (bs : List UByte) : List Nat → State
  | [] => s
  | l :: r =>
    let w := lineWrite fmt scale bs l
    placeSlice (writeTileLine s (slice * (sliceSize / 64) + l) w.1 w.2.1 w.2.2) slice fmt scale bs r

/-- The units of a request, or the first units of its blocks for a scale request. -/
def reqUnits (ws : List Word64) (r : Req) : List Nat :=
  (List.range r.n).map (fun i => r.u0 + (if r.scale then i * strRu ws else i))

/-- The far-side offset of a unit or of a block's scale byte. -/
def farOf (ws : List Word64) (scale : Bool) (u : Nat) : Nat :=
  (if scale then strScaleFar ws u else strFar ws u).toNat

/-- Bytes that each unit of a request has. -/
def reqUnitBytes (ws : List Word64) (scale : Bool) : Nat := if scale then 1 else strUnit ws

/-- The near-side place of a unit or scale byte: a slice offset, or a Copy's destination offset. -/
def nearOf (ws : List Word64) (scale : Bool) (u : Nat) : Nat :=
  if strIsCopy ws then (if scale then strScaleDest ws u else strDestOff ws u)
  else if scale then strScaleNearSlice ws u else strNearSlice ws u

/-- The far-side lines of a request, in rising order. -/
def reqLines (ws : List Word64) (r : Req) : List Nat :=
  sortNat ((reqUnits ws r).map (fun u => farOf ws r.scale u / 64 * 64)).dedup

/-- The near-side lines of a request. -/
def reqNearLines (ws : List Word64) (r : Req) : List Nat :=
  sortNat ((reqUnits ws r).map (fun u => nearOf ws r.scale u / 64 * 64)).dedup

/-- The address, top fields included, on the far side of a request. -/
def farTop (ws : List Word64) (scale : Bool) : Nat := offTop (if scale then strScaleAddr ws else strStart ws)

/-- The bytes of a request as they arrived, given what each far line gave; 0 where none arrived (Table STR-3). -/
def arrived (ws : List Word64) (r : Req) (get : Nat → Got) : List UByte :=
  (reqUnits ws r).flatMap (fun u =>
    let f := farOf ws r.scale u
    let g := get (f / 64 * 64)
    let bad := g.poison || g.cause != 0
    (List.range (reqUnitBytes ws r.scale)).map (fun i =>
      { u := u, far := f + i, near := nearOf ws r.scale u + i
        val := if r.scale && bad then 0xFF else g.bytes.getD ((f + i) % 64) 0
        poison := g.poison, cause := g.cause }))

/-- The key of a near line in the count of faulted lines: an In counts a slot's line once for each tile. -/
def faultKey (ws : List Word64) (u line : Nat) : Nat :=
  if strDir ws = 0 then u / strPerTile ws * 2 ^ 18 + line / 64 else line / 64

/-- The faults and source poison of a request's bytes recorded in the context. -/
def noteArrived (c : StreamCtx) (scale : Bool) : List UByte → StreamCtx
  | [] => c
  | b :: r =>
    let ws := c.d.words
    let line := b.far / 64 * 64
    let c := if b.cause != 0 then
        let c := noteFault c b.u b.cause (farTop ws scale + line) (faultKey ws b.u (b.near / 64 * 64))
        if strScaled ws && !scale then { c with badBlocks := nsAdd c.badBlocks (b.u / strRu ws) } else c
      else if b.poison then { c with poisonLines := nsAdd c.poisonLines ((farTop ws scale + line) / 64) }
      else c
    noteArrived c scale r

/-- The units of a request counted as finished. -/
def noteDone (c : StreamCtx) (r : Req) : StreamCtx :=
  let t := r.u0 / strPerTile c.d.words
  { c with
    reqs := c.reqs.filter (fun (x : Req) => x.id != r.id)
    doneUnits := smSet c.doneUnits t (smGetD c.doneUnits t 0 + r.n) }

/-- The blocks that have an element in a line that a request's faulted units made poisoned: their scale bytes read 0xFF (R148).
A line holds at most 64 units, so that they are near the request's own; an In's line lies in one tile's slot. -/
def blocksInLines (ws : List Word64) (r : Req) (lines : List Nat) : List Nat :=
  if strScaled ws && !r.scale && !lines.isEmpty then
    let tile (u : Nat) : Bool := strIsCopy ws || u / strPerTile ws == r.u0 / strPerTile ws
    (((List.range (r.n + 128)).map (fun i => r.u0 + i - 64)).filter (fun u =>
      decide (strFirst ws ≤ u) && decide (u < strLast ws) && tile u && lines.contains (nearOf ws false u / 64 * 64))).map
        (fun u => u / strRu ws)
  else []

/-- Scale bytes of bad blocks written 0xFF in the slice (R148). -/
def fixScales (s : State) (slice : Nat) (ws : List Word64) : List Nat → State
  | [] => s
  | b :: r =>
    let o := strScaleNearSlice ws (b * strRu ws)
    fixScales (writeTileLine s (slice * (sliceSize / 64) + o / 64) (maskFrom (o % 64) 1)
      (List.replicate (o % 64) 0 ++ [0xFF]) false) slice ws r

/-! ### Destination writes of Out and Copy -/

/-- Byte runs (first, bytes) of a masked line. -/
def runsOf (mask : Nat) (data : Bytes) : List (Nat × Bytes) :=
  ((List.range 64).filter (fun i => natBit i mask && (i == 0 || !natBit (i - 1) mask))).map (fun i =>
    (i, (data.drop i).take (((List.range (64 - i)).takeWhile (fun k => natBit (i + k) mask)).length)))

/-- A masked line sent to host memory, run by run. -/
def hostPut (s : State) (addr : Nat) (poison : Bool) : List (Nat × Bytes) → State
  | [] => s
  | (i, bs) :: r => hostPut (emit s (.hostWrite (addr + i) bs poison)) addr poison r

/-- Where a destination line of a request goes. -/
inductive PutTo
  | here (line : Nat)
  | far (chip off : Nat)
  | host (addr : Nat)
  | miss
  deriving DecidableEq, Repr

/-- The destination of one line of an address space, through the send windows for Fabric addresses (R271). -/
def putTo (s : State) (top line : Nat) : PutTo :=
  match spaceOf (top + line) with
  | .localOff off => .here off
  | .hostAddr a => .host a
  | .fabric c off =>
    match sendThrough s c off 64 .write with
    | some (t, _) => if c = chip s then .here t else .far c t
    | none => .miss
  | .bad => .miss

/-! ### Making requests (R134, R141, R143) -/

/-- Consecutive units or blocks from `u` in one far granule and one tile, up to `fuel` (R134). -/
def reqCount (ws : List Word64) (scale : Bool) (u g tile : Nat) : Nat → Nat
  | 0 => 0
  | k + 1 =>
    if u / strPerTile ws = tile ∧ farOf ws scale u / 256 = g ∧ u < strLast ws then
      1 + reqCount ws scale (u + (if scale then strRu ws else 1)) g tile k
    else 0

/-- The next request of a context: whether it carries scale bytes, and its first unit. DESIGN CHOICE (log entry 20): a tile's
scale bytes are requested before its data, but for a Copy after all data of the run has arrived, so that the scale bytes of faulted
blocks are known (R148). -/
def nextReq (c : StreamCtx) : Option (Bool × Nat) :=
  let ws := c.d.words
  if strIsCopy ws then
    if c.next < strLast ws then some (false, c.next)
    else if strScaled ws && decide (c.nextScale < strLast ws) && c.reqs.all Req.scale then some (true, c.nextScale)
    else none
  else if strScaled ws && decide (c.nextScale < strLast ws)
      && (decide (c.nextScale / strPerTile ws ≤ c.next / strPerTile ws) || decide (strLast ws ≤ c.next)) then
    some (true, c.nextScale)
  else if c.next < strLast ws then some (false, c.next)
  else none

/-- The value that WaitObj must reach before a tile's slot may be used, if a wait applies (R140). -/
def slotWaitValue (ws : List Word64) (t : Nat) : Option Nat :=
  let j := t - strResume ws
  if !strWaitEn ws || strSlots ws == 0 then none
  else if strDir ws = 1 then some ((strWaitBase ws + j + 1) % 2 ^ 64)
  else if strSlots ws ≤ j then some ((strWaitBase ws + j + 1 - strSlots ws) % 2 ^ 64)
  else none

/-- Whether a tile's slot wait holds: registered and released, or not needed, or the object is there. -/
def slotOpen (s : State) (c : StreamCtx) (t : Nat) : Bool :=
  match slotWaitValue c.d.words t with
  | none => true
  | some v =>
    if c.waitTile = some t then !hasWait s c.d.queue c.d.seq else reached s (strWaitObj c.d.words) v

/-- Outstanding requests of an engine, and of one queue on it. -/
def engineOut (s : State) (e : Nat) : Nat := ((engineCtx s e).map (fun (c : StreamCtx) => c.reqs.length)).sum
def queueOut (s : State) (e q : Nat) : Nat :=
  (((engineCtx s e).filter (fun (c : StreamCtx) => c.d.queue == q)).map (fun (c : StreamCtx) => c.reqs.length)).sum

/-- Whether a context is at the engine's limit of 1,024 or its queue's limit (R143). -/
def atLimit (s : State) (e q : Nat) : Bool :=
  decide (1024 ≤ engineOut s e) || decide ((((smGet s.queues q).map Queue.limit).getD 512) ≤ queueOut s e q)

/-- The slice lines that an Out request reads. -/
def outLines (ws : List Word64) (r : Req) : List Nat :=
  ((reqUnits ws r).flatMap (fun u =>
    let n := nearOf ws r.scale u
    (List.range (reqUnitBytes ws r.scale)).map (fun i => (n + i) / 64))).dedup

/-- The bytes of an Out request read from the slice, `far` the slice offset and `near` the destination offset, with cause 5 where
the line was just found uncorrectable (R147, R164). -/
def outBytes (s : State) (slice : Nat) (bad : List Nat) (ws : List Word64) (r : Req) : List UByte :=
  (reqUnits ws r).flatMap (fun u =>
    let f := farOf ws r.scale u
    let n := nearOf ws r.scale u
    (List.range (reqUnitBytes ws r.scale)).map (fun i =>
      { u := u, far := n + i, near := f + i
        val := memRead s.tile (slice * sliceSize + n + i)
        poison := nsHas s.tilePoison (slice * (sliceSize / 64) + (n + i) / 64)
        cause := if bad.contains ((n + i) / 64) then 5 else 0 }))

/-- The faults and source poison of an Out request's slice reads: a fault counts the destination line that is not written, at the
slice line's address (R147 to R149, R151). -/
def noteOut (slice : Nat) (c : StreamCtx) : List UByte → StreamCtx
  | [] => c
  | b :: r =>
    let line := b.far / 64
    noteOut slice
      (if b.cause != 0 then noteFault c b.u b.cause (tileBase + slice * sliceSize + 64 * line) (b.near / 64)
       else if b.poison then { c with poisonLines := nsAdd c.poisonLines (b.u / strPerTile c.d.words * 2 ^ 18 + line) }
       else c) r

/-- A granule of the remote read cache. -/
def cacheFind (s : State) (h : Half) (c g : Nat) : Option CacheLine :=
  s.rcache.find? (fun (x : CacheLine) => x.half == h && x.chip == c && x.granule == g)

/-- An ATS translation held: the cache has 8,192 entries, the oldest leaving first (R324). -/
def atsHold (s : State) (pasid page : Nat) : State :=
  if !s.host.atsEnable || s.host.ats.contains (pasid, page) then s
  else { s with host := { s.host with
    ats := (if s.host.ats.length < 8192 then s.host.ats else s.host.ats.drop 1) ++ [(pasid, page)] } }

/-- Stores of a request to another chip, one for each line written (R275). -/
def sendStores (s : State) (h : Half) (who : Requester) (top fmt : Nat) (scale : Bool) (bs : List UByte) :
    List Nat → State
  | [] => s
  | l :: r =>
    let w := lineWrite fmt scale bs l
    match putTo s top (64 * l) with
    | .far c t => sendStores (sendRequest s h c t (.store w.1 w.2.1 w.2.2) who false) h who top fmt scale bs r
    | .host a => sendStores (hostPut s a w.2.2 (runsOf w.1 w.2.1)) h who top fmt scale bs r
    | _ => sendStores s h who top fmt scale bs r

/-- Whether a destination line is in this module. -/
def putHere (s : State) (top l : Nat) : Bool :=
  match putTo s top (64 * l) with
  | .here _ => true
  | _ => false

/-- Whether no send window admits some destination line. -/
def putMisses (s : State) (top : Nat) (lines : List Nat) : Bool := lines.any (fun l => putTo s top (64 * l) == .miss)

/-- Bytes written to destination lines of this module, line by line; returns the lines refused with cause 6. -/
def putLocal (s : State) (top fmt : Nat) (scale : Bool) (bs : List UByte) : List Nat → State × List Nat
  | [] => (s, [])
  | l :: r =>
    let w := lineWrite fmt scale bs l
    match putTo s top (64 * l) with
    | .here off =>
      let ok := localPutOk s (off / 64 * 64) w.1
      let x := putLocal (localPut s (off / 64 * 64) w.1 w.2.1 w.2.2) top fmt scale bs r
      (x.1, if ok then x.2 else l :: x.2)
    | _ => putLocal s top fmt scale bs r

/-- A destination line's fault recorded for every unit whose bytes fall in it. -/
def noteDestFaults (c : StreamCtx) (top cause : Nat) (lines : List Nat) : List UByte → StreamCtx
  | [] => c
  | b :: r =>
    let l := b.near / 64
    noteDestFaults (if lines.contains l then noteFault c b.u cause (top + 64 * l) l else c) top cause lines r

/-- The top fields of a request's destination: DestAddr for a Copy, the far side for an Out. -/
def destTop (ws : List Word64) (scale : Bool) : Nat := if strIsCopy ws then offTop (strDest ws) else farTop ws scale

/-- The bytes of a request as held in it, by destination offset. -/
def heldBytes (ws : List Word64) (r : Req) : List UByte :=
  let n := reqUnitBytes ws r.scale
  (r.data.zipIdx).map (fun x =>
    { u := r.u0 + (x.2 / n) * (if r.scale then strRu ws else 1), far := x.1.1, near := x.1.1, val := x.1.2
      poison := r.poison.contains (x.1.1 / 64), cause := 0 })

/-- The write phase of an Out or Copy request: bytes to other chips and the host leave at once, lines here are
written when the request is done; a request no window admits faults with cause 1. `who` names the request. -/
def writePhase (s : State) (e : Nat) (c : StreamCtx) (r : Req) (bs : List UByte) : State :=
  let ws := c.d.words
  let top := destTop ws r.scale
  let lines := nearLines bs
  if putMisses s top lines then
    let s := objInc s Obj.windowMisses
    updCtx s e c.d.queue c.d.seq (fun c => noteDone (noteDestFaults c top 1 lines bs) r)
  else if lines.all (putHere s top) then
    let x := putLocal s top (strFmt ws) r.scale bs lines
    updCtx x.1 e c.d.queue c.d.seq (fun c => noteDone (noteDestFaults c top 6 x.2 bs) r)
  else
    let s := sendStores s (halfOfEngine e) (.stream e c.d.seq r.id) top (strFmt ws) r.scale bs lines
    updCtx s e c.d.queue c.d.seq (fun c =>
      { c with reqs := c.reqs.map (fun (x : Req) => if x.id = r.id then
          { x with sent := true, data := bs.map (fun b => (b.near, b.val)),
                   poison := ((bs.filter (fun b => b.poison || b.cause != 0)).map (fun b => b.near / 64)).dedup }
          else x) })

/-- What each far line of a read gave, from the outcome (R147). `base` is the translated offset of the granule's
first requested line for this module's own memory. -/
def gotLine (s : State) (ws : List Word64) (r : Req) (o : FarOutcome) (line : Nat) : Got :=
  let lines := reqLines ws r
  let first := lines.headD 0
  let fromHere : Got :=
    if r.data.isEmpty then localGet s (r.far + (line - first)) (farOf ws r.scale r.u0) (r.n * reqUnitBytes ws r.scale)
    else ⟨((r.data.drop (line - first)).take 64).map Prod.snd, false, 0⟩
  match o with
  | .done _ => fromHere
  | .lines ls =>
    match ls[(line - first) / 64]? with
    | some l => ⟨l.bytes, l.poison, 0⟩
    | none => ⟨[], false, 3⟩
  | .fail cause mask =>
    if cause = 4 ∨ cause = 5 then
      if natBit (line % 256 / 64) mask then
        { fromHere with bytes := if fromHere.cause = 0 ∨ fromHere.cause = 4 then fromHere.bytes else [], poison := true, cause := cause }
      else fromHere
    else ⟨[], false, if cause = 0 then 3 else cause⟩

/-- The blocks of the lines that faulted units made poisoned, noted for their scale bytes (R148). -/
def noteBlocks (c : StreamCtx) (r : Req) (bs : List UByte) : StreamCtx :=
  let bad := (nearLines (bs.filter (fun b => b.cause != 0))).map (64 * ·)
  { c with badBlocks := (blocksInLines c.d.words r bad).foldl nsAdd c.badBlocks }

/-- Placement of an In request's bytes and the accounts of its units. -/
def inPhase (s : State) (e : Nat) (c : StreamCtx) (r : Req) (bs : List UByte) : State :=
  let ws := c.d.words
  let lines := nearLines bs
  let s := placeSlice s e (strFmt ws) r.scale bs lines
  let s := updCtx s e c.d.queue c.d.seq (fun c => noteDone (noteBlocks (noteArrived c r.scale bs) r bs) r)
  match findCtx s e c.d.queue c.d.seq with
  | some c =>
    fixScales s e ws (c.badBlocks.filter (fun b => b * strRu ws / strPerTile ws == r.u0 / strPerTile ws))
  | none => s

/-- A fresh error found by the outcome marks the store: an uncorrectable LPDDR line stays so, an uncorrectable tile
store line is stored poisoned (R164, R169). -/
def markFresh (s : State) (r : Req) (cause mask : Nat) : List Nat → State
  | [] => s
  | i :: rest =>
    let off := r.far / 256 * 256 + 64 * i
    let s := if !natBit i mask then s
      else if cause = 4 ∧ regionOf s off = .lpddr then
        readDecoded s (off / 64) .uncorrectable
      else if cause = 5 ∧ regionOf s off = .tile then
        objInc { s with tilePoison := nsAdd s.tilePoison (tileLine off) } Obj.tstUncorrectable
      else s
    markFresh s r cause mask rest

/-- Address errors of a Local request counted, one for each reserved line (R18). -/
def countReserved (s : State) : List Nat → State
  | [] => s
  | l :: r => countReserved (if regionOf s l = .reserved then countAddrError s l else s) r

/-- A request's place in the channels' queues, taken away. -/
def dropReads (s : State) (e seq id : Nat) : State :=
  let other (x : ChRead) : Bool := !(x.engine == e && x.seq == seq && x.req == id)
  { s with chans := s.chans.map (fun (c : Chan) =>
      { c with readQ := c.readQ.filter other, readWait := c.readWait.filter other }) }

/-- The host pages that a request which failed with cause 2 was to use: those of its destination lines once it writes a Copy's
destination, else those of its far side (R148). -/
def faultPages (ws : List Word64) (r : Req) : List Nat :=
  if r.sent then ((nearLines (heldBytes ws r)).map (fun l => offField (destTop ws r.scale + 64 * l) / 4096)).dedup
  else ((reqLines ws r).map (fun l => offField (farTop ws r.scale + l) / 4096)).dedup

/-- The bytes of a Copy's request as they go on to its destination: the scale byte of a block with an element in a faulted line is
0xFF (R148). -/
def copyBytes (c : StreamCtx) (r : Req) (bs : List UByte) : List UByte :=
  if r.scale then bs.map (fun b => if c.badBlocks.contains (b.u / strRu c.d.words) then { b with val := 0xFF } else b) else bs

/-- A request ends (R147, R148): data placed, written or faulted; then tile signals and completion. -/
def finishReq (s : State) (e : Nat) (c : StreamCtx) (r : Req) (o : FarOutcome) : State :=
  let ws := c.d.words
  let q := c.d.queue
  let seq := c.d.seq
  let s := dropReads s e seq r.id
  let s := match o with
    | .fail 2 _ => (faultPages ws r).foldl (fun s p => pageFault s e q seq p) s
    | .fail cause mask => markFresh s r cause mask (List.range 4)
    | .done _ => if r.data.isEmpty && !r.sent then
        countReserved s ((reqLines ws r).map (fun l => r.far + (l - (reqLines ws r).headD 0)))
      else s
    | _ => s
  let s :=
    if strDir ws = 1 ∨ r.sent then
      let top := destTop ws r.scale
      let bs := heldBytes ws r
      match o with
      | .fail cause _ => updCtx s e q seq (fun c => noteDone (noteDestFaults c top cause (nearLines bs) bs) r)
      | _ =>
        if r.sent then updCtx s e q seq (fun c => noteDone c r) else writePhase s e c r bs
    else
      let bs := arrived ws r (gotLine s ws r o)
      let s := afterRead s (r.far / 256 * 256) 256
      if strDir ws = 0 then inPhase s e c r bs
      else
        let s := updCtx s e q seq (fun c => noteBlocks (noteArrived c r.scale bs) r bs)
        writePhase s e c r (copyBytes c r bs)
  advance (tallied s e c) e q seq

/-- A request of a context put on its list. -/
def addReq (s : State) (e : Nat) (c : StreamCtx) (r : Req) (scale : Bool) (upTo : Nat) : State :=
  updCtx s e c.d.queue c.d.seq (fun c =>
    { c with
      reqs := c.reqs ++ [r]
      nextId := c.nextId + 1
      next := if scale then c.next else upTo
      nextScale := if scale then upTo else c.nextScale
      lastMove := s.now
      heldAtLimit := false
      waitTile := some (r.u0 / strPerTile c.d.words) })

/-- A controller's read queue takes a request while it holds fewer than 128; the next waits at its engine (R168). -/
def admitRead (now : Nat) (x : ChRead) (c : Chan) : Chan :=
  if c.readQ.length < 128 then { c with readQ := c.readQ ++ [{ x with since := now }] }
  else { c with readWait := c.readWait ++ [x] }

/-- A request asks the channel of its far side, an offset of this module, for its lines; on a Dim channel it waits and is counted
(R167, R168, R176). Other regions answer without a queue. -/
def askRead (s : State) (e : Nat) (c : StreamCtx) (r : Req) (far : Nat) : State :=
  if regionOf s far != .lpddr then s
  else
    let lines := reqLines c.d.words r
    let ch := channelOf s far
    let s := if (chanOf s ch).dim.isSome then objInc s Obj.memDimStalledRequests else s
    updChan s ch (admitRead s.now
      { line := far / 64, n := (lines.getLastD 0 - lines.headD 0) / 64 + 1, urgent := strUrgent c.d.words, since := s.now
        engine := e, seq := c.d.seq, req := r.id })

/-- Whether a request stands in a channel's queue or waits for one. -/
def readQueued (s : State) (e seq id : Nat) : Bool :=
  s.chans.any (fun (c : Chan) => (c.readQ ++ c.readWait).any (fun (x : ChRead) => x.engine == e && x.seq == seq && x.req == id))

/-- The remote read cache is in use for a stream in a half (R287). -/
def cacheOn (s : State) (h : Half) : Bool := s.rcEff.getD (halfIx h) 0 != 0

/-- The read of an In or Copy request leaves the engine, by the space of its far side (R268, R271, R287, R324). -/
def readPhase (s : State) (e : Nat) (c : StreamCtx) (r : Req) : State :=
  let ws := c.d.words
  let h := halfOfEngine e
  let lines := reqLines ws r
  let first := lines.headD 0
  let span := lines.getLastD 0 + 64 - first
  match spaceOf (farTop ws r.scale + first) with
  | .localOff off => askRead (backInvalidate s true (lines.map (· / 64))) e c r off
  | .hostAddr a =>
    let pasid := (((smGet s.queues c.d.queue).bind Queue.pasid).map (· + 1)).getD 0
    emit (atsHold s pasid (a / 4096)) (.hostRead a span)
  | .fabric cno off =>
    match sendThrough s cno off span .read with
    | none =>
      let s := objInc s Obj.windowMisses
      match (findCtx s e c.d.queue c.d.seq).bind (fun (c : StreamCtx) => c.reqs.find? (fun (x : Req) => x.id == r.id)) with
      | some r => finishReq s e c r (.fail 1 15)
      | none => s
    | some (t, cacheOk) =>
      if cno = chip s then
        askRead (updCtx (backInvalidate s true (lpddrLines t span)) e c.d.queue c.d.seq (fun c =>
          { c with reqs := c.reqs.map (fun (x : Req) => if x.id = r.id then { x with far := t } else x) })) e c r t
      else if strRCache ws && cacheOk && cacheOn s h then
        match cacheFind s h cno (t / 256) with
        | some g =>
          let s := objInc s Obj.rCacheHits
          let bs := ((g.data.drop (t % 256 / 64)).flatMap (fun (l : LineData) => l.bytes)).take span
          updCtx s e c.d.queue c.d.seq (fun c =>
            { c with reqs := c.reqs.map (fun (x : Req) => if x.id = r.id then
                { x with data := bs.map (fun b => (0, b)) } else x) })
        | none =>
          sendRequest (objInc s Obj.rCacheMisses) h cno (t / 256 * 256) (.load 256) (.stream e c.d.seq r.id) true t
      else sendRequest s h cno t (.load span) (.stream e c.d.seq r.id) false
  | .bad => s

/-- An Out request: it reads the slice, where `tst` says what the reads find; destination lines that would take bytes of an
uncorrectable line are faulted and not written, and the rest goes to its destination (R147, R148, R164). -/
def issueOut (s : State) (e : Nat) (c : StreamCtx) (r0 : Req) (upTo : Nat) (tst : List TstEvent) : State :=
  let ws := c.d.words
  let tst := tst.filter (fun t => (outLines ws r0).contains t.line)
  let s := applyTst s e tst
  let all := outBytes s e ((tst.filter TstEvent.uncorrectable).map TstEvent.line) ws r0
  let lost := nearLines (all.filter (fun b => b.cause != 0))
  let bs := all.filter (fun b => !lost.contains (b.near / 64))
  let r := { r0 with data := bs.map (fun b => (b.near, b.val)),
                     poison := ((bs.filter UByte.poison).map (fun b => b.near / 64)).dedup }
  let s := updCtx (addReq s e c r r0.scale upTo) e c.d.queue c.d.seq (fun c => noteOut e c all)
  let s :=
    if bs.isEmpty then updCtx s e c.d.queue c.d.seq (fun c => noteDone c r)
    else if (nearLines bs).all (putHere s (destTop ws r0.scale)) then backInvalidate s false ((reqLines ws r0).map (· / 64))
    else writePhase s e c r bs
  advance (tallied s e c) e c.d.queue c.d.seq

/-- One request made for a context (R134, R141): In and Copy read the far side; Out reads the slice and writes. -/
def issueReq (s : State) (e : Nat) (c : StreamCtx) (scale : Bool) (u : Nat) (tst : List TstEvent) : State :=
  let ws := c.d.words
  let f := farOf ws scale u
  let n := reqCount ws scale u (f / 256) (u / strPerTile ws) (strPerTile ws)
  let r0 : Req := { id := c.nextId, u0 := u, n := n, scale := scale, far := f / 64 * 64 }
  let r0 := { r0 with far := ((reqLines ws r0).headD 0) }
  let upTo := u + n * (if scale then strRu ws else 1)
  if strDir ws = 1 then issueOut s e c r0 upTo tst
  else readPhase (addReq s e c r0 scale upTo) e c r0

/-- The running descriptors examined in round-robin order until one makes a request; a descriptor at a limit is
counted once in StreamLimitStalls, and a slot wait that does not hold is registered (R140, R143). -/
def issueScan (s : State) (e : Nat) (tst : List TstEvent) : List Nat → State
  | [] => s
  | i :: rest =>
    match (engineCtx s e)[i]? with
    | none => issueScan s e tst rest
    | some c =>
      match nextReq c with
      | none => issueScan s e tst rest
      | some (scale, u) =>
        if !(c.started && c.ready) then issueScan s e tst rest
        else if !slotOpen s c (u / strPerTile c.d.words) then
          let t := u / strPerTile c.d.words
          let s := if c.waitTile = some t then s else
            updCtx (addWait s (strWaitObj c.d.words) ((slotWaitValue c.d.words t).getD 0) c.d.queue c.d.seq)
              e c.d.queue c.d.seq (fun c => { c with waitTile := some t })
          issueScan s e tst rest
        else if atLimit s e c.d.queue then
          let s := if c.heldAtLimit then s else
            updCtx (objInc s Obj.streamLimitStalls) e c.d.queue c.d.seq (fun c => { c with heldAtLimit := true })
          issueScan s e tst rest
        else
          issueReq (updEngine s e (fun g => { g with rr := (i + 1) % 4 })) e c scale u tst

/-! ### STREAM_START (R136, R139, R159) -/

/-- Whether an issued descriptor's own wait holds: only one issued early may still wait (R192). -/
def issuedReady (s : State) (d : Issued) : Bool := !d.early || !hasWait s d.queue d.seq

/-- The Halves field of a queue. -/
def halvesOf (s : State) (q : Nat) : Nat := ((smGet s.queues q).map Queue.halves).getD 0

/-- A claim takes its place: granted at once, or waiting and counted in ClaimWaits (R159). -/
def requestClaim (s : State) (cl : Claim) : State :=
  let s' := { s with waitClaims := s.waitClaims ++ [cl] }
  if grantable s' s.waitClaims.length then { s with claims := s.claims ++ [cl] }
  else objInc s' Obj.claimWaits

/-- The engine takes a descriptor that has not started: rejected, or begun with its claim requested. -/
def startStream (s : State) (e : Nat) (c : StreamCtx) : State :=
  let ws := c.d.words
  let q := c.d.queue
  let seq := c.d.seq
  match strReject ws (halvesOf s q) with
  | some st => rejectDesc (dropCtx s e q seq) c.d st e
  | none =>
    let begin_ (s : State) (ready : Bool) : State := updCtx s e q seq (fun c =>
      { c with started := true, ready := ready, next := strFirst ws, nextScale := strFirst ws, lastMove := s.now })
    if strIsCopy ws then begin_ s true
    else
      let pages := strPages ws
      if pages.any (pageForeign s e q) then rejectDesc (dropCtx s e q seq) c.d 4 e
      else
        let pool := pages.filter (pageInPool s e)
        if pool.isEmpty then begin_ s true
        else
          let rel := if strDir ws = 0 && strWaitEn ws then
              some (strWaitObj ws, (strWaitBase ws + strRunTiles ws) % 2 ^ 64) else none
          let s := requestClaim s { slice := e, queue := q, seq := seq, pages := pool, since := s.now, release := rel }
          begin_ s (claimHeld s q seq)

/-- STREAM_START: the first descriptor of an engine that has not started and may. -/
def streamStartAt (s : State) (e : Nat) : State :=
  match (engineCtx s e).find? (fun (c : StreamCtx) => !c.started && issuedReady s c.d
      && !spillHolds s e c.d.queue (strRanges c.d.words)) with
  | some c => startStream s e c
  | none => s

/-- STREAM_START (R136). -/
def execStreamStart (engine : Nat) (s : State) : Res := need (decide (engine < 72)) (streamStartAt s engine)

/-- CLAIM_GRANT (R159): the first waiting claim of the slice that can be granted is granted whole. -/
def grantIn (s : State) (slice : Nat) : State :=
  match (List.range s.waitClaims.length).find? (fun i =>
      ((s.waitClaims[i]?).map Claim.slice) == some slice && grantable s i
        && !((s.waitClaims[i]?).map Claim.reclaim).getD false) with
  | none => s
  | some i =>
    match s.waitClaims[i]? with
    | none => s
    | some c =>
      let s := { s with waitClaims := s.waitClaims.eraseIdx i, claims := s.claims ++ [{ c with since := s.now }] }
      updCtx s slice c.queue c.seq (fun x => { x with ready := true, lastMove := s.now })

/-- CLAIM_GRANT (R159). -/
def execClaimGrant (slice : Nat) (s : State) : Res := need (decide (slice < 64)) (grantIn s slice)

/-- STREAM_REQUEST_ISSUE (R134, R140, R141, R143). -/
def execStreamRequestIssue (r : SliceRead) (s : State) : Res :=
  let rr := (s.engines.getD r.engine {}).rr
  need (decide (r.engine < 72)) (issueScan s r.engine r.tst ((List.range 4).map (fun i => (rr + i) % 4)))

/-- Whether the far side of a request that has not written yet is in this module: a Local offset, or a Fabric address of this chip
(R270). -/
def farHere (s : State) (c : StreamCtx) (r : Req) : Bool :=
  !r.sent && (match spaceOf (farTop c.d.words r.scale + (reqLines c.d.words r).headD 0) with
    | .localOff _ => true
    | .fabric n _ => n == chip s
    | _ => false)

/-- Whether a request waits for a bridge that carries nothing: its far side is in the other half of this module (R12, R16). -/
def crossHeld (s : State) (e : Nat) (c : StreamCtx) (r : Req) : Bool :=
  farHere s c r && homeHalf s r.far != halfOfEngine e && !bridgeUp s

/-- The offsets of this module's lines that a request reads. -/
def readsHere (s : State) (c : StreamCtx) (r : Req) : List Nat :=
  let ls := reqLines c.d.words r
  if strDir c.d.words = 1 ∨ !farHere s c r then [] else ls.map (fun l => r.far + (l - ls.headD 0))

/-- The offsets of this module that a request is about to write: an Out's, or a Copy's once its data is here. -/
def writesHere (s : State) (c : StreamCtx) (r : Req) : List Nat :=
  if strDir c.d.words = 0 ∨ r.sent then []
  else
    let lines := if strDir c.d.words = 1 then nearLines (heldBytes c.d.words r) else (reqNearLines c.d.words r).map (· / 64)
    lines.filterMap (fun l =>
      match putTo s (destTop c.d.words r.scale) (64 * l) with
      | .here off => some off
      | _ => none)

/-- The lines of the flat window that a request's read reaches. -/
def tileReads (s : State) (c : StreamCtx) (r : Req) : List Nat := (readsHere s c r).filter (fun l => regionOf s l == .tile)

/-- The lines of LPDDR that a request reads or is about to write (for the snoop filter). -/
def snoopLines (s : State) (c : StreamCtx) (r : Req) : List Nat :=
  ((readsHere s c r ++ writesHere s c r).filter (fun l => decide (l < lpddrSize))).map (· / 64)

/-- Whether a request reads or writes host memory while the link is down (R323). -/
def hostGone (s : State) (c : StreamCtx) (r : Req) : Bool :=
  let host (a : Nat) : Bool := match spaceOf a with
    | .hostAddr _ => true
    | _ => false
  s.host.gen == 0 && (if r.sent then (nearLines (heldBytes c.d.words r)).any (fun l => host (destTop c.d.words r.scale + 64 * l))
    else (reqLines c.d.words r).any (fun l => host (farTop c.d.words r.scale + l)))

/-- The lines, as a mask of their granule, that a request's read found uncorrectable in the flat window. -/
def tileLost (lines : List Nat) (ev : List LineEvent) : Nat :=
  lines.foldl (fun m l => if ev.any (fun x => x.line == l / 64 && x.e == .uncorrectable) then setNatBit (l % 256 / 64) m else m) 0

/-- STREAM_REQUEST_DONE: the named request ends, unless its channel has not served it or keeps its write waiting, or a reply of
another module or a back-invalidation is still to come; one that went unanswered ends it as cause 3 (R147, R164, R168, R176, R327). -/
def streamDoneAt (s : State) (e seq id : Nat) (o : FarOutcome) : State :=
  match (engineCtx s e).find? (fun (c : StreamCtx) => c.d.seq == seq && c.reqs.any (fun (r : Req) => r.id == id)) with
  | none => s
  | some c =>
    match c.reqs.find? (fun (r : Req) => r.id == id) with
    | none => s
    | some r =>
      let ls := snoopLines s c r
      if s.outst.any (fun (x : Outst) => x.who == .stream e seq id) || snoopWaits s ls || crossHeld s e c r
          || readQueued s e seq id then s
      else if snoopFailed s ls then finishReq (forgetBad s ls) e c r (.fail 3 15)
      else if ls.any (tracked s) then backInvalidate s (writesHere s c r).isEmpty ls
      else if hostGone s c r then finishReq s e c r (.fail 3 15)
      else
        match (writesHere s c r).find? (fun off => !writeRoom s off) with
        | some off => dimStall s (channelOf s off) (e, seq, id)
        | none =>
          let lines := tileReads s c r
          let ev := match o with
            | .done ev => ev
            | _ => []
          let lost := tileLost lines ev
          let s := linesFound s lines (ev.filter (fun x => x.e == .corrected))
          finishReq s e c r (if lost = 0 then o else .fail 5 lost)

/-- The host pages a request uses, each with its PASID plus 1, or 0 without one (R324). -/
def reqPages (s : State) (c : StreamCtx) (r : Req) : List (Nat × Nat) :=
  let ws := c.d.words
  let pas := (((smGet s.queues c.d.queue).bind Queue.pasid).map (· + 1)).getD 0
  let page := fun (a : Nat) => match spaceOf a with
    | .hostAddr x => [(pas, x / 4096)]
    | _ => []
  (reqLines ws r).flatMap (fun l => page (farTop ws r.scale + l))
    ++ (if strIsCopy ws then (reqNearLines ws r).flatMap (fun l => page (destTop ws r.scale + l)) else [])

/-- Whether a request that has not completed uses a page. -/
def pageUsed (s : State) (k : Nat × Nat) : Bool :=
  s.engines.any (fun (g : Engine) => g.ctx.any (fun (c : StreamCtx) => c.reqs.any (fun (r : Req) => (reqPages s c r).contains k)))

/-- Invalidations whose requests have all completed are answered (R324). -/
def atsSettle (s : State) : State :=
  let done := s.host.atsWait.filter (fun k => !pageUsed s k)
  done.foldl (fun s k => emit { s with host := { s.host with atsWait := s.host.atsWait.erase k } } (.atsComplete k.1 k.2)) s

/-- STREAM_REQUEST_DONE (R142, R147 to R150). -/
def execStreamRequestDone (engine seq req : Nat) (o : FarOutcome) (s : State) : Res :=
  need (decide (engine < 72)) (atsSettle (streamDoneAt s engine seq req o))

end Sys2Proof.Machine
end

