-- ==== Sys2Proof/Machine/Issue.lean ====
section
/-!
DEFINITION. What a scheduler looks at before it issues a descriptor (R188, R190 to R193, R197): the order of a queue's
descriptors, waits, record slots, engines; and the operations of queue launch and fetch share.
-/

namespace Sys2Proof.Machine

/-- Whether a scheduler core runs: core 0 of the half is not restarting (R199). -/
def schedRuns (s : State) (h : Half) : Bool := ((s.cores.getD (4 * halfIx h) {}).st) != 2

/-- Whether a half's scheduler issues: it runs, and no checkpoint holds issue (R199, R373). -/
def mayIssue (s : State) (h : Half) : Bool := schedRuns s h && s.seqs.ckptStep == 0 && objGet s Obj.moduleState == 1

/-- Whether a fetched descriptor is still to be issued by a half. -/
def todoIn (f : Fetched) : Half → Bool
  | .w => f.todoW
  | .e => f.todoE

/-- A fetched descriptor's issue marks changed; it leaves the list once no half has it to issue. -/
def setTodo (s : State) (q seq : Nat) (w e : Bool) : State :=
  updQ s q (fun x => { x with fetched := (x.fetched.map (fun (f : Fetched) =>
      if f.seq = seq then { f with todoW := w, todoE := e } else f)).filter (fun (f : Fetched) => f.todoW || f.todoE) })

/-- A fetched descriptor no longer to be issued by one half. -/
def markIssued (s : State) (q : Nat) (f : Fetched) (h : Half) : State :=
  setTodo s q f.seq (f.todoW && h != .w) (f.todoE && h != .e)

/-- Whether a layer's first attempt still has descriptors to issue: ring descriptors after the LayerOpen wait for them
(R123 step 2). -/
def firstAttemptOpen (s : State) (q : Nat) (v : Queue) : Bool :=
  s.layers.any (fun (l : Layer) => l.queue == q && l.attempts == 1
    && v.fetched.any (fun (f : Fetched) => f.inLayer && l.left.contains f.seq))

/-- Whether a half has a ring descriptor to issue that stands before a LayerOpen. -/
def ringBefore (v : Queue) (h : Half) (seq : Nat) : Bool :=
  v.fetched.any (fun (f : Fetched) => !f.inLayer && todoIn f h && decide (f.seq < seq))

/-- The descriptors that a half may issue next in queue order: the next of each open layer's attempt, once the half has issued
every ring descriptor before the LayerOpen, and the next ring descriptor (R123, R192). -/
def heads (s : State) (q : Nat) (v : Queue) (h : Half) : List Fetched :=
  let lay := (s.layers.filter (fun (l : Layer) => l.queue == q && !ringBefore v h l.seq)).filterMap (fun (l : Layer) =>
    v.fetched.find? (fun (f : Fetched) => f.inLayer && l.left.contains f.seq && todoIn f h))
  let ring := v.fetched.find? (fun (f : Fetched) => !f.inLayer && todoIn f h
    && !(firstAttemptOpen s q v && s.layers.any (fun (l : Layer) => l.queue == q && l.attempts == 1 && decide (l.seq < f.seq))))
  lay ++ ring.toList

/-- The descriptors that a half may issue: those next in order, and those that an open seam issues early (R146). -/
def candidates (s : State) (q : Nat) (v : Queue) (h : Half) : List Fetched :=
  v.fetched.filter (fun (f : Fetched) => f.early && todoIn f h)
    ++ (heads s q v h).filter (fun (f : Fetched) => !f.early)

/-- Whether a descriptor is next in a half's order. -/
def isHead (s : State) (q : Nat) (v : Queue) (h : Half) (f : Fetched) : Bool :=
  (candidates s q v h).any (fun (x : Fetched) => x.seq == f.seq)

/-- A function applied to a fetched descriptor. -/
def updFetched (s : State) (q seq : Nat) (g : Fetched → Fetched) : State :=
  updQ s q (fun x => { x with fetched := x.fetched.map (fun (f : Fetched) => if f.seq = seq then g f else f) })

/-- Whether a fetched descriptor's tail wait holds, once it has been registered or evaluated (R192, R195). -/
def waitDone (s : State) (q : Nat) (f : Fetched) : Bool :=
  !tailWaitEn f.words || (if f.waited then !hasWait s q f.seq else reached s (tailWaitObj f.words) (tailWaitValue f.words))

/-- A wait first found not to hold is registered (R197). -/
def noteWait (s : State) (q : Nat) (f : Fetched) : State :=
  if f.waited || waitDone s q f then s
  else updFetched (addWait s (tailWaitObj f.words) (tailWaitValue f.words) q f.seq) q f.seq
    (fun x => { x with waited := true })

/-- Whether a record slot is free beyond those promised to outstanding descriptors and waiting records (R188). -/
def slotFree (v : Queue) : Bool := decide (v.outstanding + v.waitRing.length < cplFree v)

/-- An issue held for ring space, counted once for each descriptor (R188). -/
def noteStall (s : State) (q : Nat) (f : Fetched) : State :=
  if f.stalled then s
  else updFetched (objInc s Obj.cplRingStalls) q f.seq (fun x => { x with stalled := true })

/-- Whether array Ann is retired, or cleared of it and not yet back in service (R372). -/
def arrayRetired (s : State) (nn : Nat) : Bool := natBit nn (objGet s Obj.arrayRetiredMap) || natBit nn s.unretired

/-- The bulk mover that takes an Engine 126 descriptor: round-robin among the home half's movers with a free context
(R133). -/
def pickMover (s : State) (h : Half) : Option Nat :=
  let first := 64 + 4 * halfIx h
  let rr := s.moverRR.getD (halfIx h) 0
  ((List.range 4).map (fun i => first + (rr + i) % 4)).find? (fun e => decide ((engineCtx s e).length < 4))

/-- Whether an open seam's range has no earlier array descriptor on an array (R146): those issued since the marker,
up to the next one. -/
def arraysSince (v : Queue) (seq : Nat) : List Nat :=
  let next := ((v.fetched.filter (fun (f : Fetched) => opcode f.words == 0x41)).map Fetched.seq
      ++ v.seams.map Seam.seq).filter (fun n => decide (seq < n))
  (v.seamArrays.filter (fun a => decide (seq < a.1) && next.all (fun n => decide (a.1 < n)))).map Prod.snd

/-- Whether a descriptor's tail signal leaves the layer-local objects, or it is a LayerOpen itself, in a variant list
(R121). -/
def outsideLayer (s : State) (q : Nat) (f : Fetched) : Bool :=
  f.inLayer && (opcode f.words == 0x50
    || (tailSigEn f.words && (tailRemote f.words
        || match layerOf s q f.seq with
           | some l => !(decide (layObj l.words ≤ tailSigObj f.words)
               && decide (tailSigObj f.words < layObj l.words + layObjs l.words))
           | none => true)))

/-! ### Halves that issue a descriptor (R133, R190, R192, R289, R291, R292) -/

/-- Whether a half has a descriptor of a queue to issue, (W, E). -/
def routeTodo (q halves : Nat) (ws : List Word64) : Bool × Bool :=
  let op := opcode ws
  let home := homeOfHalves halves
  let one (h : Half) : Bool × Bool := (h == .w, h == .e)
  let bad := !knownOpcode op || (q == collQ) != (op == 0x60) || !targetOk ws || !targetServed halves ws
  if bad then one home
  else if isCompute op then one (halfOf64 (tailTarget ws))
  else if op = 0x40 then one (if strEngine ws = 126 then home else halfOfEngine (strEngine ws))
  else if op = 0x41 ∨ op = 0x42 then (serves halves .w, serves halves .e)
  else if op = 0x50 then one home
  else one (if colId ws % 2 = 0 then .w else .e)

/-- A descriptor put among the fetched ones. An open seam whose range it lies in marks it for early issue (R146). -/
def addFetched (s : State) (q seq : Nat) (ws : List Word64) (inLayer : Bool) : State :=
  match smGet s.queues q with
  | none => s
  | some v =>
    let t := routeTodo q v.halves ws
    let early := !inLayer && v.seams.all Seam.opened
      && !v.fetched.any (fun (f : Fetched) => opcode f.words == 0x41)
      && (v.seams.any (fun (m : Seam) =>
            (opcode ws == 0x40 && strPrologue ws)
            || (opcode ws == 0x20 && !(arraysSince v m.seq).contains (tailTarget ws)
                && !v.fetched.any (fun (f : Fetched) => !f.inLayer && decide (m.seq < f.seq)
                      && opcode f.words == 0x20 && tailTarget f.words == tailTarget ws))))
    updQ s q (fun x => { x with fetched := x.fetched ++
      [{ seq := seq, words := ws, inLayer := inLayer, todoW := t.1, todoE := t.2, early := early }] })

/-- A descriptor whose 128 B could not be read clean: recorded with status 0x08, Opcode 0 and Engine 127, no tail
signal, and the queue traps (R452). It was never issued, and its record takes no slot promised to those that were (R188). -/
def unreadable (s : State) (q seq : Nat) (inLayer : Bool) : State :=
  let d : Done := { queue := q, seq := seq, words := [], inLayer := inLayer, status := 8, op := 0, engine := 127,
                    summary := 0, body := List.replicate 6 0, traps := true }
  let s := writeSpare s q (recordOf d true)
  layerHook (trapQueue s q seq) d true

/-! ### Issue (R192, R193) -/

/-- Queues in the order in which a half's scheduler serves them: highest Priority first, round-robin within a
priority (R193). -/
def serveOrder (s : State) (h : Half) : List Nat :=
  let rr := fun (prio : Nat) => s.schedRR.getD (8 * halfIx h + prio) 0
  let mine := s.queues.filter (fun e => e.2.state == 1 && serves e.2.halves h)
  (sortBy (fun (a b : Nat × Queue) =>
      decide (b.2.prio < a.2.prio)
        || (a.2.prio == b.2.prio && decide ((a.1 + 1025 - rr a.2.prio) % 1025 < (b.1 + 1025 - rr a.2.prio) % 1025))) mine).map Prod.fst

/-- Whether a descriptor that an engine may run finds it with room (R71, R133, R192). -/
def engineRoom (s : State) (h : Half) (ws : List Word64) : Bool :=
  let op := opcode ws
  let nn := tailTarget ws
  if op = 0x20 then
    let a := s.arrays.getD nn {}
    decide (a.fifo.length + boolNat a.run.isSome + boolNat a.leaving.isSome < 8)
  else if isCompute op then
    let u := s.vecs.getD nn {}
    decide (u.fifo.length + boolNat u.done.isSome < 8)
  else if strEngine ws = 126 then (pickMover s h).isSome
  else decide ((engineCtx s (strEngine ws)).length < 4)

/-- A descriptor handed to its engine. -/
def handTo (s : State) (h : Half) (d : Issued) : State :=
  let op := opcode d.words
  let nn := tailTarget d.words
  if op = 0x20 then
    { s with arrays := modifyAt s.arrays nn (fun (a : ArrayUnit) => { a with fifo := a.fifo ++ [d] }) }
  else if isCompute op then
    { s with vecs := modifyAt s.vecs nn (fun (u : VecUnit) => { u with fifo := u.fifo ++ [d] }) }
  else
    let e := if strEngine d.words = 126 then pickMover s h else some (strEngine d.words)
    match e with
    | none => s
    | some e =>
      let s := if strEngine d.words = 126 then
          { s with moverRR := s.moverRR.set (halfIx h) ((e - 64 - 4 * halfIx h + 1) % 4) }
        else s
      updEngine s e (fun g => { g with ctx := g.ctx ++ [{ d := d }] })

/-- The engine number of a rejected or retired descriptor's record. -/
def recordEngine (ws : List Word64) : Nat := descEngine ws

/-- One descriptor issued: rejected, completed as retired, or handed to its engine. -/
def issueTo (s : State) (h : Half) (q halves : Nat) (f : Fetched) : State :=
  let d : Issued := { queue := q, seq := f.seq, words := f.words, inLayer := f.inLayer, early := f.early,
                      mute := ovfTrapIgnored s q f.seq f.inLayer }
  let out := outsideLayer s q f
  let s := markIssued s q f h
  let s := updQ s q (fun x =>
    { x with
      outstanding := x.outstanding + 1
      seamArrays := if opcode f.words = 0x20 ∧ !f.inLayer then x.seamArrays ++ [(f.seq, tailTarget f.words)]
                    else x.seamArrays })
  match issueReject q halves f.words out with
  | some st => rejectDesc s d st (recordEngine f.words)
  | none =>
    if isCompute (opcode f.words) && arrayRetired s (tailTarget f.words) then
      rejectDesc s d 7 (tailTarget f.words)
    else handTo s h d

/-- Whether a descriptor is one that its own command executes, not an engine: a seam marker, an invalidation, a
LayerOpen or a collective that nothing rejects before issue. -/
def schedulerOwn (s : State) (q halves : Nat) (f : Fetched) : Bool :=
  (opcode f.words == 0x41 || opcode f.words == 0x42 || opcode f.words == 0x50 || opcode f.words == 0x60)
    && (issueReject q halves f.words (outsideLayer s q f)).isNone

/-- The first of a queue's candidates that can be issued, its waits and stalls noted on the way; true when one was. -/
def issueFrom (s : State) (h : Half) (q halves : Nat) : List Fetched → State × Bool
  | [] => (s, false)
  | f :: r =>
    let s := if f.early then s else noteWait s q f
    let ready := f.early || waitDone s q f
    match smGet s.queues q with
    | none => (s, false)
    | some v =>
      let rejected := (issueReject q halves f.words (outsideLayer s q f)).isSome
        || (isCompute (opcode f.words) && arrayRetired s (tailTarget f.words))
      if !ready || schedulerOwn s q halves f then issueFrom s h q halves r
      else if !slotFree v then issueFrom (noteStall s q f) h q halves r
      else if !rejected && !engineRoom s h f.words then issueFrom s h q halves r
      else
        let s := if f.early then noteWait s q f else s
        (issueTo s h q halves f, true)

/-- The queues of a half examined in their order until one descriptor is issued. -/
def issueAny (s : State) (h : Half) : List Nat → State
  | [] => s
  | q :: r =>
    match smGet s.queues q with
    | none => issueAny s h r
    | some v =>
      let x := issueFrom s h q v.halves (candidates s q v h)
      if x.2 then { x.1 with schedRR := x.1.schedRR.set (8 * halfIx h + v.prio) ((q + 1) % 1025) } else issueAny x.1 h r

/-- Whether a seam marker may be executed by a half: as soon as it is fetched, its queue runs and a record slot is free. DEDUCED (log
entry 20): R145 waits for the issue of compute descriptors and LayerOpens alone, so that a marker behind another descriptor that is
held for its wait is executed all the same. -/
def seamReady (s : State) (h : Half) (q : Nat) (f : Fetched) : State × Bool :=
  match smGet s.queues q with
  | none => (s, false)
  | some v =>
    if !mayIssue s h || v.state != 1 then (s, false)
    else if !slotFree v then (noteStall s q f, false)
    else (s, true)

/-- Whether a descriptor that a scheduler executes itself may run now: it is next in the half's order, its wait holds
and a record slot is free; a wait not holding is registered and a stall counted on the way. -/
def schedReady (s : State) (h : Half) (q : Nat) (f : Fetched) : State × Bool :=
  let s := noteWait s q f
  match smGet s.queues q with
  | none => (s, false)
  | some v =>
    if !(isHead s q v h f) || !mayIssue s h || v.state != 1 || !waitDone s q f then (s, false)
    else if !slotFree v then (noteStall s q f, false)
    else (s, true)

end Sys2Proof.Machine
end

