-- ==== Sys2Proof/Machine/Mailbox.lean ====
section
/-!
DEFINITION. The mailbox (R317 to R319): how a running command ends; and the reads the module makes of launch blocks,
partition lists and descriptors (R183, R452).
-/

namespace Sys2Proof.Machine

/-- Whether the module is Ready (Table DIC-8: ModuleState 1). -/
def isReady (s : State) : Bool := objGet s Obj.moduleState == 1

/-- Whether the module is in the bridge-failed state. -/
def bridgeFailed (s : State) : Bool := objGet s Obj.moduleState == 2

/-- The running mailbox command ends with a status: Done is set, Status and TagEcho take their values, and the vector
is sent when IrqEn is 1 (Table HPT-4). -/
def mbxEnd (s : State) (status : Nat) : State :=
  let s := { s with host := { s.host with busy := false, done := true, status := status, tagEcho := s.host.runTag } }
  if s.host.irqEn then sendVector s s.host.vector else s

/-- Argument i of the running command, as read when Go was written (R319). -/
def mbxArg (s : State) (i : Nat) : Nat := (s.host.runArgs.getD i 0).toNat

/-- Result i of the running command set. -/
def mbxResult (s : State) (i v : Nat) : State :=
  { s with host := { s.host with results := s.host.results.set i (BitVec.ofNat 64 v) } }

/-- A mailbox command carried out: only while it is the one running, and with not-ready outside Ready (Table
HPT-6). -/
def mbxRun (s : State) (cmd : Nat) (f : State → State) : State :=
  if s.host.busy && s.host.running == cmd then (if isReady s then f s else mbxEnd s 0x06) else s

/-- A read of n bytes that the module makes for itself: the bytes when they were read clean. A back-invalidation without an answer,
or host memory with the link down, gives none (R323, R327). -/
def readClean (s : State) (addr n : Nat) (f : Fetch) : State × Option Bytes :=
  match spaceOf addr with
  | .localOff off =>
    if snoopFailed s (lpddrLines off n) then (forgetBad s (lpddrLines off n), none)
    else if plainRun s off n then (s, if runPoison s off n then none else some (rawBytes s off n))
    else (countAddrError s off, none)
  | .hostAddr _ =>
    if s.host.gen = 0 then (s, none)
    else match f with
    | .hostData bs poison => (s, if poison then none else some (padTo n bs))
    | _ => (s, none)
  | _ => (s, none)

end Sys2Proof.Machine
end

