-- ==== Sys2Proof/Machine/Sha.lean ====
section
/-!
DEFINITION. SHA-256 (FIPS 180-4): the spec names the hash (R344, R382, R385) and takes it as given. PRESUMED, log
entry 14.
-/

namespace Sys2Proof.Machine

/-- Addition of 32-bit words. -/
def add32 (a b : Nat) : Nat := (a + b) % 2 ^ 32

/-- A 32-bit word rotated right. -/
def rotr32 (n w : Nat) : Nat := w / 2 ^ n + w % 2 ^ n * 2 ^ (32 - n)

/-- Exclusive or of three words. -/
def xor3 (a b c : Nat) : Nat := Nat.xor (Nat.xor a b) c

/-- `n` words of 32 bits cut from a number, the most significant first. -/
def cutWords : Nat → Nat → List Nat
  | 0, _ => []
  | n + 1, w => cutWords n (w / 2 ^ 32) ++ [w % 2 ^ 32]

/-- The 64 round constants, in one number. -/
def shaConstants : Nat :=
  0x428a2f9871374491b5c0fbcfe9b5dba53956c25b59f111f1923f82a4ab1c5ed5d807aa9812835b01243185be550c7dc372be5d7480deb1fe9bdc06a7c19bf174e49b69c1efbe47860fc19dc6240ca1cc2de92c6f4a7484aa5cb0a9dc76f988da983e5152a831c66db00327c8bf597fc7c6e00bf3d5a7914706ca63511429296727b70a852e1b21384d2c6dfc53380d13650a7354766a0abb81c2c92e92722c85a2bfe8a1a81a664bc24b8b70c76c51a3d192e819d6990624f40e3585106aa07019a4c1161e376c082748774c34b0bcb5391c0cb34ed8aa4a5b9cca4f682e6ff3748f82ee78a5636f84c878148cc7020890befffaa4506cebbef9a3f7c67178f2

/-- The eight words the hash starts from, in one number. -/
def shaStart : List Nat := cutWords 8 0x6a09e667bb67ae853c6ef372a54ff53a510e527f9b05688c1f83d9ab5be0cd19

/-- A big-endian word of four bytes. -/
def beWord (b : Bytes) : Nat := b.foldl (fun n x => 256 * n + x.toNat) 0

/-- The big-endian words of a block. `fuel` is their number. -/
def beWords : Nat → Bytes → List Nat
  | 0, _ => []
  | k + 1, b => beWord (b.take 4) :: beWords k (b.drop 4)

/-- The message schedule: the window of the last 16 words gives the next; the words come out in order. -/
def shaSchedule : Nat → List Nat → List Nat
  | 0, _ => []
  | k + 1, w =>
    let g (i : Nat) : Nat := w.getD i 0
    let s0 := xor3 (rotr32 7 (g 1)) (rotr32 18 (g 1)) (g 1 / 2 ^ 3)
    let s1 := xor3 (rotr32 17 (g 14)) (rotr32 19 (g 14)) (g 14 / 2 ^ 10)
    g 0 :: shaSchedule k (w.drop 1 ++ [add32 (add32 (g 0) s0) (add32 (g 9) s1)])

/-- One round on the eight working words. -/
def shaRound (v : List Nat) (k w : Nat) : List Nat :=
  match v with
  | [a, b, c, d, e, f, g, h] =>
    let s1 := xor3 (rotr32 6 e) (rotr32 11 e) (rotr32 25 e)
    let ch := Nat.xor (Nat.land e f) (Nat.land (2 ^ 32 - 1 - e) g)
    let t1 := add32 (add32 (add32 h s1) (add32 ch k)) w
    let s0 := xor3 (rotr32 2 a) (rotr32 13 a) (rotr32 22 a)
    let maj := xor3 (Nat.land a b) (Nat.land a c) (Nat.land b c)
    [add32 t1 (add32 s0 maj), a, b, c, add32 d t1, e, f, g]
  | _ => v

/-- The rounds of one block. -/
def shaRounds (v : List Nat) : List Nat → List Nat → List Nat
  | k :: ks, w :: ws => shaRounds (shaRound v k w) ks ws
  | _, _ => v

/-- One block taken into the hash. -/
def shaBlock (h : List Nat) (b : Bytes) : List Nat :=
  let v := shaRounds h (cutWords 64 shaConstants) (shaSchedule 64 (beWords 16 b))
  List.zipWith add32 h v

/-- The blocks of a padded message. `fuel` is their number. -/
def shaBlocks (h : List Nat) : Nat → Bytes → List Nat
  | 0, _ => h
  | k + 1, b => shaBlocks (shaBlock h (b.take 64)) k (b.drop 64)

/-- A word in big-endian bytes. -/
def beBytes (n w : Nat) : Bytes := (natLe n w).reverse

/-- The message padded to whole blocks with its length in bits. -/
def shaPad (m : Bytes) : Bytes :=
  m ++ [0x80] ++ List.replicate ((119 - m.length % 64) % 64) 0 ++ beBytes 8 (8 * m.length)

/-- SHA-256 of a message. -/
def sha256 (m : Bytes) : Bytes :=
  let p := shaPad m
  (shaBlocks shaStart (p.length / 64) p).flatMap (beBytes 4)

end Sys2Proof.Machine
end

