-- ==== Sys2Proof/Machine/DicOps.lean ====
section
/-!
DEFINITION. What every Dictionary request goes through (16): the route and its role (R336), the supervisor's part
(R335), replies (R338, R340), the checks of R449, persistence (R334), the journal of writes (R343), limited-write
objects (R342) and the commit of DOMAIN images (R344).
-/

namespace Sys2Proof.Machine

/-- Roles (R336). -/
inductive Role | host | manager | vendor
  deriving DecidableEq, Repr

/-- What a request gave: the state, a status of Table DIC-7 and the reply's payload. -/
structure Answer where
  st : State
  status : Nat := 0
  data : Bytes := []
  deriving DecidableEq, Repr

/-! ### The cores that answer -/

/-- State of core 3 of half W: 0 not running, 1 running, 2 restarting. -/
def core3 (s : State) : Nat := (s.cores.getD 3 {}).st

/-- Whether half W reaches half E's Dictionary core: it has booted, and the router group or the pilot link leads to it
(R21). -/
def reachE (s : State) : Bool := s.seqs.halfE && pathE s

/-- The gate before an object: the supervisor's answer before core 3 runs, half E not booted, and the holding core
restarting (R333, R335, R449). -/
def gate (s : State) (sup : Bool) (key : Nat) (run : Answer) : Answer :=
  if core3 s = 0 then (if sup then run else ⟨s, 0x0B, []⟩)
  else if isHalfE key && !reachE s then ⟨s, 0x0B, []⟩
  else if isHalfE key && (s.cores.getD 7 {}).st == 2 then ⟨s, 0x07, []⟩
  else run

/-! ### Messages (Table DIC-4) -/

/-- Fields of a message's header. -/
def msgOp (m : Bytes) : Nat := leNat (m.take 8) / 2 ^ 8 % 256
def msgSession (m : Bytes) : Nat := leNat (m.take 8) / 2 ^ 16 % 2 ^ 16
def msgSeq (m : Bytes) : Nat := leNat (m.take 8) / 2 ^ 32 % 2 ^ 32
def msgKey (m : Bytes) : Nat :=
  let w := leNat ((m.drop 8).take 8)
  w % 2 ^ 16 * 256 + w / 2 ^ 16 % 256
def msgLength (m : Bytes) : Nat := leNat ((m.drop 8).take 8) / 2 ^ 32 % 2 ^ 16
def msgPayload (m : Bytes) : Bytes := m.drop 16

/-- Whether a header is well formed: Version 1, Status 0, one fragment, and the length of what follows. -/
def headerOk (m : Bytes) : Bool :=
  let w1 := leNat ((m.drop 8).take 8)
  leNat (m.take 1) == 1 && w1 / 2 ^ 24 % 256 == 0 && w1 / 2 ^ 48 % 256 == 0 && w1 / 2 ^ 56 == 1
    && msgLength m == (msgPayload m).length

/-- Whether a payload has the form its operation asks for (Table DIC-5, R450). -/
def formOk (op : Nat) (p : Bytes) : Bool :=
  let b0 := leNat (p.take 1)
  match op with
  | 0x01 | 0x03 | 0x22 | 0x23 => p.isEmpty
  | 0x02 => true
  | 0x10 => p.length == 6 && (b0 == 1 || (b0 == 0 && leNat (p.drop 1) == 0))
  | 0x11 => decide (10 ≤ p.length)
  | 0x12 => p.length == 34
  | 0x13 => p.length == 2
  | 0x20 => p.length == 1 && (b0 == 1 || b0 == 2)
  | 0x21 => p.length == 7888
  | _ => false

/-- A message of one fragment. -/
def mkMsg (op session seq key : Nat) (status : Nat) (payload : Bytes) : Bytes :=
  natLe 8 (1 + op * 2 ^ 8 + session * 2 ^ 16 + seq * 2 ^ 32)
    ++ natLe 8 (key / 256 + key % 256 * 2 ^ 16 + status * 2 ^ 24 + payload.length * 2 ^ 32 + 2 ^ 56) ++ payload

/-! ### The three routes -/

/-- Bytes of the mailbox payload as the running command reads them. -/
def ranBytes (s : State) (first n : Nat) : Bytes :=
  (List.range n).map (fun i => smGetD s.host.runPayload (first + i) 0)

/-- The Dictionary request of the running DicRequest. -/
def hostMsg (s : State) : Bytes :=
  let h := ranBytes s 0 16
  h ++ ranBytes s 16 (min 3824 (msgLength h))

/-- The payload area with a run of bytes put at its beginning. -/
def putPayload (m : SMap Byte) (first : Nat) : Bytes → SMap Byte
  | [] => m
  | b :: r => putPayload (smSet m first b) (first + 1) r

/-- The reply to the running DicRequest, and the command's end. -/
def hostReply (s : State) (m : Bytes) (status : Nat) (data : Bytes) : State :=
  let r := mkMsg (msgOp m % 128 + 128) (msgSession m) (msgSeq m) (msgKey m) status data
  mbxEnd { s with host := { s.host with payload := putPayload s.host.payload 0 r } } 0

/-- The running DicRequest, if it is this request. -/
def askHost (s : State) (op key : Nat) (payload : Bytes) (run : State → Role → Answer) (sup : Bool) : State :=
  if !(s.host.busy && s.host.running == 0x20) then s
  else if core3 s = 2 then mbxEnd s 0x05
  else
    let m := hostMsg s
    if !headerOk m || (decide (0x20 ≤ msgOp m)) || (msgOp m == op && !formOk op (msgPayload m)) then hostReply s m 0x0E []
    else if msgSession m ≠ 0 then hostReply s m 0x0C []
    else if msgOp m = op ∧ msgKey m = key ∧ msgPayload m = payload then
      let a := gate s sup key (run s .host)
      hostReply a.st m a.status a.data
    else s

/-- A session by its number. -/
def sessionOf (s : State) (id : Nat) : Option Session := s.mgmt.sessions.find? (fun x => x.id == id)

/-- A function applied to a session. -/
def updSession (s : State) (id : Nat) (f : Session → Session) : State :=
  { s with mgmt := { s.mgmt with sessions := s.mgmt.sessions.map (fun x => if x.id = id then f x else x) } }

/-- A message that core 3 takes from those held. -/
def takeMsg (s : State) (ip port session seq : Nat) : State :=
  { s with mgmt := { s.mgmt with ready := s.mgmt.ready.filter (fun x =>
      !(x.1 == ip && x.2.1 == port && x.2.2.1 == session && x.2.2.2.1 == seq)) } }

/-- The held message of an address, session and Seq. -/
def readyMsg (s : State) (ip port session seq : Nat) : Option Bytes :=
  (s.mgmt.ready.find? (fun x => x.1 == ip && x.2.1 == port && x.2.2.1 == session && x.2.2.2.1 == seq)).map
    (fun x => x.2.2.2.2)

/-- A DAP reply. -/
def dapOut (ip port session seq op status : Nat) (data : Bytes) : Out :=
  .dap ip port session seq (op % 128 + 128) status data

/-- A request inside a session: a repeat gets the kept reply, a lower Seq is dropped, and a foreign address is dropped
and counted (R340). -/
def inSession (s : State) (x : Session) (ip port seq op : Nat) (run : State → Answer) : State :=
  if x.ip ≠ ip ∨ x.port ≠ port then objInc s Obj.authFailures
  else if seq = x.lastSeq ∧ x.lastReply.isSome then
    match x.lastReply with
    | some o => emit s o
    | none => s
  else if seq ≤ x.lastSeq ∧ x.lastReply.isSome then s
  else
    let a := run s
    let o := dapOut ip port x.id seq op a.status a.data
    emit (updSession a.st x.id (fun y => { y with lastSeq := seq, lastReply := some o, last := s.now })) o

/-- The role a session was opened in. -/
def sessionRole (x : Session) : Role := if x.role = 2 then .vendor else .manager

/-- A request of the management network, if its message is held. -/
def askMgmt (s : State) (ip port session seq op key : Nat) (payload : Bytes) (run : State → Role → Answer)
    (sup : Bool) : State :=
  match readyMsg s ip port session seq with
  | none => s
  | some m =>
    if !headerOk m || (msgOp m == op && !formOk op (msgPayload m)) then
      emit (takeMsg s ip port session seq) (dapOut ip port session seq (msgOp m) 0x0E [])
    else if !(msgOp m == op && msgKey m == key && msgPayload m == payload) then s
    else
      let s := takeMsg s ip port session seq
      if core3 s = 2 then emit s (dapOut ip port session seq op 0x07 [])
      else
        match sessionOf s session with
        | some x =>
          if x.opened then inSession s x ip port seq op (fun s => gate s sup key (run s (sessionRole x)))
          else emit s (dapOut ip port session seq op 0x0C [])
        | none => emit s (dapOut ip port session seq op (if core3 s = 0 ∧ !sup then 0x0B else 0x0C) [])

/-- The monitor's answer (R439). -/
def monReply (a : Answer) (key : Nat) : State :=
  if a.status ≠ 0 ∨ a.data = [] then emit a.st (.monitorStatus a.status) else emit a.st (.monitorValue key a.data)

/-- A line of the monitor: discarded and counted while core 3 restarts; write commands need the debug unlock (R398,
R439). -/
def askMon (s : State) (write : Bool) (key : Nat) (run : State → Role → Answer) (sup : Bool) : State :=
  if core3 s = 2 then objInc s Obj.monLinesDiscarded
  else if !write then monReply (gate s sup key (run s .host)) key
  else if objGet s Obj.debugUnlocked = 1 ∧ s.sec.monitorWrite then monReply (gate s sup key (run s .vendor)) key
  else emit s (.monitorStatus 0x05)

/-- The index and sub-index in the header of a route's request. -/
def heldKey (s : State) : Route → Nat
  | .host => msgKey (hostMsg s)
  | .mgmt ip port session seq => ((readyMsg s ip port session seq).map msgKey).getD 0
  | _ => 0

/-- A request by its route (R336). The monitor reads and writes objects and does nothing else of Table DIC-5 (R439). -/
def ask (s : State) (r : Route) (sup : Bool) (op key : Nat) (payload : Bytes) (run : State → Role → Answer) : State :=
  match r with
  | .host => askHost s op key payload run sup
  | .mgmt ip port session seq => askMgmt s ip port session seq op key payload run sup
  | .monRead => if op = 0x01 then askMon s false key run sup else s
  | .monWrite => if op = 0x02 then askMon s true key run sup else s

/-- The session of a route, 0 for Host and the monitor. -/
def routeSession : Route → Nat
  | .mgmt _ _ id _ => id
  | _ => 0

/-- The requester's address, or the route: 0 the mailbox, 1 the monitor (R343). -/
def routeSource : Route → Nat
  | .mgmt ip _ _ _ => ip
  | .host => 0
  | _ => 1

/-! ### Writes (R331, R336, R343, R449) -/

/-- Table DIC-3. -/
def mayWrite (c : DClass) (role : Role) : Bool :=
  match c, role with
  | .h, _ => true
  | .m, .host => false
  | .m, _ => true
  | .v, .vendor => true
  | _, _ => false

/-- Whether an access code allows a write. -/
def DAccess.writes : DAccess → Bool
  | .wo | .rw | .rwn => true
  | _ => false

/-- Code of a role in a journal entry. -/
def roleCode : Role → Nat
  | .host => 0
  | .manager => 1
  | .vendor => 2

/-- The number that stands for a value longer than 8 B: its SHA-256 (R343). -/
def shaNat (b : Bytes) : Nat := leNat (sha256 b)

/-- A write journalled (R343). -/
def journalWrite (s : State) (r : Route) (role : Role) (key old new : Nat) : State :=
  journal s .objectWritten [key, roleCode role, routeSession r, routeSource r, old, new]

/-- Whether a write of an object is journalled: limited-write, persistent, or of class M or V (R343). -/
def writeJournalled (row : ObjRow) : Bool := row.access == .rwn || row.kept || row.cls == .m || row.cls == .v

/-- A persistent object awaits its flash commit (R334). -/
def notePersist (s : State) (key : Nat) : State := { s with persist := nsAdd s.persist key }

/-- Whether two ranges (first, length) share a byte. -/
def overlap (a b : Nat × Nat) : Bool := decide (0 < a.2) && decide (0 < b.2) && decide (a.1 < b.1 + b.2) && decide (b.1 < a.1 + a.2)

/-- The four LPDDR ranges of R322 as written: BAR2, CXL.mem, spill area, checkpoint area. -/
def rangesWritten (s : State) : List (Nat × Nat) :=
  let spill := objGet s Obj.spillAreaMiB * 1048576
  [(objGet s Obj.queueWindowBase, objGet s Obj.queueWindowGiB * 2 ^ 30), (0, objGet s Obj.cxlMemGiB * 2 ^ 30),
   (lpddrSize - spill, spill), (objGet s Obj.checkpointBase, 644 * 1048576)]

/-- The same ranges as in effect. -/
def rangesInEffect (s : State) : List (Nat × Nat) :=
  let spill := s.spillEff * 1048576
  [(s.host.bar2Base, s.host.bar2GiB * 2 ^ 30), (0, s.host.cxlGiB * 2 ^ 30), (lpddrSize - spill, spill),
   (objGet s Obj.checkpointBase, 644 * 1048576)]

/-- Whether the range at place i, as it would be written, meets another range as written or as in effect (R322). -/
def rangeClash (s : State) (key n i : Nat) : Bool :=
  let w := rangesWritten (objPut s key n)
  let mine := w.getD i (0, 0)
  (List.range 4).any (fun j => j != i && (overlap mine (w.getD j (0, 0)) || overlap mine ((rangesInEffect s).getD j (0, 0))))

/-- Whether a value lies in an object's range, with the steps, alignments and limits the tables give (R331, R321, R322,
R359, R374). -/
def rangeOk (s : State) (row : ObjRow) (key n : Nat) : Bool :=
  decide (row.lo ≤ n) && decide (n ≤ row.hi)
    && (key != Obj.queueWindowGiB || ([1, 2, 4, 8, 16, 32, 64].contains n && !rangeClash s key n 0))
    && (key != Obj.queueWindowBase || (n % 2 ^ 30 == 0 && !rangeClash s key n 0))
    && (key != Obj.cxlMemGiB || !rangeClash s key n 1)
    && (key != Obj.spillAreaMiB || (n % 16 == 0 && !rangeClash s key n 2))
    && (key != Obj.checkpointBase || (n % 2 ^ 26 == 0 && !rangeClash s key n 3))
    && (!(key == Obj.remoteCacheMiBW || key == Obj.remoteCacheMiBE) || n % 2 == 0)
    && (key != Obj.monBaud || [115200, 460800, 921600].contains n)
    && (key != Obj.thermalRedC || decide (n ≤ objGet s Obj.thermalRedOverride))

/-- Steps 2 to 6 of R449 for a numeric object: the status of the first check that fails, or the value. `cls` is the
class the write needs. -/
def numCheck (s : State) (role : Role) (key : Nat) (v : Bytes) (cls : Option DClass) : Nat ⊕ (ObjRow × Nat) :=
  match objRow key with
  | none => .inl 0x01
  | some row =>
    if !row.access.writes || !row.typ.numeric then .inl 0x04
    else if !mayWrite (cls.getD row.cls) role then .inl 0x05
    else if v.length ≠ row.typ.len then .inl 0x02
    else if !rangeOk s row key (leNat v) then .inl 0x03
    else .inr (row, leNat v)

/-- A numeric object takes a value: journalled and queued for its flash commit as R334 and R343 say. An object of
access WO holds no value. -/
def applyNum (s : State) (r : Route) (role : Role) (row : ObjRow) (key n : Nat) : State :=
  let old := objGet s key
  let s := if row.access = .wo then s else objPut s key n
  let s := if row.kept ∧ row.access = .rw then notePersist s key else s
  if writeJournalled row then journalWrite s r role key old n else s

/-- A Write of a numeric object: the checks of R449, the object's own rule, and what the write does. -/
def writeNum (s : State) (r : Route) (role : Role) (key : Nat) (v : Bytes) (own : State → Nat → Nat)
    (effect : State → Nat → State) : Answer :=
  match numCheck s role key v none with
  | .inl e => ⟨s, e, []⟩
  | .inr (row, n) =>
    if own s n ≠ 0 then ⟨s, own s n, []⟩ else ⟨effect (applyNum s r role row key n) n, 0, []⟩

/-- A Write command of an object with a row of its own. -/
def writeRow (s : State) (r : Route) (key : Nat) (v : Bytes) (sup : Bool) (own : State → Nat → Nat)
    (effect : State → Nat → State) : State :=
  ask s r sup 0x02 key v (fun s role => writeNum s r role key v own effect)

/-! ### Limited-write objects (R342) -/

/-- Energy a commit step or a burn needs, in mJ (R354). -/
def stepMj : Nat := 600

/-- Whether a commit step or burn may start now (R351, R354). -/
def mayCommit (s : State) : Bool := !s.power.pale && decide (stepMj ≤ objGet s Obj.holdUpMj)

/-- Steps 2 to 6 of R342. `left` is the companion object, `ok` the outcome of the burn, `last` a further reason for
exhausted. -/
def fuseWrite (s : State) (r : Route) (role : Role) (key left n : Nat) (last burnt : Bool) (effect : State → State) : Answer :=
  let w := objGet s left
  if n = objGet s key then ⟨s, 0, []⟩
  else if w = 0 ∨ last then ⟨s, 0x06, []⟩
  else if s.power.pale then ⟨s, 0x07, []⟩
  else if !mayCommit s then ⟨objInc s Obj.commitDeferrals, 0x07, []⟩
  else
    let old := objGet s key
    let s := objPut s left (w - 1)
    if !burnt then ⟨s, if w = 1 then 0x06 else 0x07, []⟩
    else ⟨effect (journalWrite (objPut s key n) r role key old n), 0, []⟩

/-- A Write of a limited-write object with its checks (R341, R342). -/
def fuseRow (s : State) (r : Route) (key left : Nat) (v : Bytes) (burnt : Bool) (own : State → Nat → Nat)
    (effect : State → State) : State :=
  ask s r false 0x02 key v (fun s role =>
    match numCheck s role key v none with
    | .inl e => ⟨s, e, []⟩
    | .inr (_, n) =>
      if n ≠ objGet s key ∧ own s n ≠ 0 then ⟨s, own s n, []⟩
      else fuseWrite s r role key left n false burnt effect)

/-! ### DOMAIN images (R344, R345) -/

/-- A transfer by its handle. -/
def xferOf (s : State) (handle : Nat) : Option Xfer := s.mgmt.xfers.find? (fun x => x.handle == handle)

/-- A transfer ended. -/
def dropXfer (s : State) (handle : Nat) : State :=
  { s with mgmt := { s.mgmt with xfers := s.mgmt.xfers.filter (fun x => x.handle != handle) } }

/-- Whether a request's route is that of a transfer. -/
def xferRoute (r : Route) (x : Xfer) : Bool := (r == .host) == x.byHost && routeSession r == x.session

/-- The image a write transfer received. -/
def xferImage (x : Xfer) : Bytes := (List.range x.size).map (fun i => smGetD x.image i 0)

/-- Whether a role may write a DOMAIN object; while all four ManagerKeyHash entries are empty the Host role may write
one (Table DIC-8). -/
def mayWriteDom (s : State) (row : ObjRow) (role : Role) : Bool :=
  mayWrite row.cls role
    || (row.key == Obj.managerKeyHash && role == .host
        && (List.range 4).all (fun i => (domGet s (Obj.managerKeyHash + i)).isEmpty))

/-- An image takes its object's place: journalled, and committed to flash if the object is persistent (R343 to R345). -/
def applyDom (s : State) (r : Route) (role : Role) (row : ObjRow) (key : Nat) (image : Bytes) : State :=
  let old := shaNat (domGet s key)
  let s := if row.access = .wo then s else domPut s key image
  let s := if row.kept then notePersist s key else s
  journal s .domainCommitted [key, roleCode role, routeSession r, routeSource r, old, shaNat image]

/-- A DomainCommit of a transfer (R344, R449): access, role, size, digest, the object's own rule, then its effect. The
transfer ends in every case. `check` is a further reason for range, on the image's size; `refused` is what a refusal by the
object's own rule leaves. -/
def commitDom (s : State) (r : Route) (role : Role) (x : Xfer) (digest : Bytes) (check : Nat → Bool)
    (own : State → Bytes → Nat) (effect : State → Bytes → State) (refused : State → State := id) : Answer :=
  match objRow x.key with
  | none => ⟨s, 0x01, []⟩
  | some row =>
    if !x.write then ⟨s, 0x0E, []⟩
    else
      let s := dropXfer s x.handle
      let image := xferImage x
      if !row.access.writes then ⟨s, 0x04, []⟩
      else if !mayWriteDom s row role then ⟨s, 0x05, []⟩
      else if x.got ≠ x.size ∨ row.hi < x.size ∨ !check x.size then ⟨s, 0x03, []⟩
      else if sha256 image ≠ digest then ⟨s, 0x0A, []⟩
      else if own s image ≠ 0 then ⟨refused s, own s image, []⟩
      else ⟨effect (applyDom s r role row x.key image) image, 0, []⟩

/-- A DomainCommit command of one object: the transfer of its handle must be one of that object by the same route. -/
def commitRow (s : State) (r : Route) (key handle : Nat) (digest : Bytes) (sup : Bool) (check : Nat → Bool)
    (own : State → Bytes → Nat) (effect : State → Bytes → State) (refused : State → State := id) : State :=
  match xferOf s handle with
  | none => s
  | some x =>
    if x.key = key ∧ xferRoute r x then
      ask s r sup 0x12 (heldKey s r) (natLe 2 handle ++ digest) (fun s role => commitDom s r role x digest check own effect refused)
    else s

/-- No rule of the object's own. -/
def noRule {α : Type} (_ : State) (_ : α) : Nat := 0

/-- Any size. -/
def anySize (_ : Nat) : Bool := true

end Sys2Proof.Machine
end

