-- ==== Sys2Proof/Machine/Rings.lean ====
section
/-!
DEFINITION. The rings, their windows (R211), the laser inputs and their comb reference (R208, R210), and the rotors' records
(R215).
-/

namespace Sys2Proof.Machine

/-! ### Rings -/

/-- Modulator ring of out-fibre x, line j, and drop ring of in-fibre k, line j (R205). -/
def modRing (x j : Nat) : Nat := 17 * x + j
def dropRing (k j : Nat) : Nat := 544 + 17 * k + j

/-- The fibre a ring belongs to: an out-fibre below ring 544, else an in-fibre. -/
def ringFibre (r : Nat) : Nat := if r < 544 then r / 17 else (r - 544) / 17

/-- Whether a fibre's facet is served: half E's facets only once half E has booted (Table BOOT-2). -/
def fibreUp (s : State) (x : Nat) : Bool := decide (x < 16) || s.seqs.halfE

/-- Ring r. -/
def ringOf (s : State) (r : Nat) : Ring := s.rings.getD r {}

/-- A function applied to a ring. -/
def updRing (s : State) (r : Nat) (f : Ring → Ring) : State := { s with rings := modifyAt s.rings r f }

/-- Whether ring r is retired: its bit in RingRetiredMap (R222). -/
def ringRetired (s : State) (r : Nat) : Bool := natBit (r % 8) (leNat (((domGet s Obj.ringRetiredMap).drop (r / 8)).take 1))

/-- A ring's bit in RingRetiredMap set or cleared; the map is persistent. -/
def setRingRetired (s : State) (r : Nat) (b : Bool) : State :=
  let m := padTo 136 (domGet s Obj.ringRetiredMap)
  let v := leNat ((m.drop (r / 8)).take 1)
  let v' := if b then setNatBit (r % 8) v else clearNatBit (r % 8) v
  notePersist (domPut s Obj.ringRetiredMap (m.set (r / 8) (BitVec.ofNat 8 v'))) Obj.ringRetiredMap

/-- RingsRetired. -/
def ringsRetired (s : State) : Nat := ((List.range 1088).filter (ringRetired s)).length

/-- RingsLocked. -/
def ringsLocked (s : State) : Nat := (s.rings.filter (fun (g : Ring) => g.locked)).length

/-- The centre code of a ring at the temperature of its last feed-forward, in 1/128 of a code (Table OPT-4). α is in
1/16 code per °C and the temperature in 1/8 °C; before the first feed-forward, every 2 µs, no temperature is known. -/
def ringCentre (g : Ring) : Option Int := g.ff.map (fun f => 128 * g.c25 + g.alpha * (f.2 - 200))

/-- Whether the heater code lies in the calibrated window of ±894 codes. -/
def inWindow (g : Ring) : Bool :=
  match ringCentre g with
  | some c => decide ((g.code - c).natAbs ≤ 894 * 128)
  | none => true

/-- The heater code held within its 16 bits. -/
def clampCode (c : Int) : Int := max 0 (min (65535 * 128) c)

/-! ### Sites (R356) -/

/-- The temperature of a site in 1/8 °C: the higher of its sensors that are not flagged. -/
def siteNow (x : Site) : Option Int :=
  if x.flag0 && x.flag1 then none
  else if x.flag0 then some x.s1
  else if x.flag1 then some x.s0
  else some (max x.s0 x.s1)

/-! ### Rotors -/

/-- The rotor of out-fibre x. -/
def rotorOf (s : State) (x : Nat) : Rotor := s.rotors.getD x {}

/-- A function applied to a rotor. -/
def updRotor (s : State) (x : Nat) (f : Rotor → Rotor) : State := { s with rotors := modifyAt s.rotors x f }

/-! ### Light -/

/-- The laser input that feeds an out-fibre (R205). -/
def laserOf (x : Nat) : Nat := x / 4

/-- Laser input k. -/
def laserAt (s : State) (k : Nat) : Laser := s.lasers.getD k { refFibre := 4 * k }

/-- A function applied to a laser input. -/
def updLaser (s : State) (k : Nat) (f : Laser → Laser) : State := { s with lasers := modifyAt s.lasers k f }

/-- Whether a lane may be placed on a line of an out-fibre: light is present and the line is usable (R208). -/
def lineUsable (s : State) (x j : Nat) : Bool :=
  !(laserAt s (laserOf x)).dark && natBit j (objGet s (Obj.laserLinesUsable + laserOf x))

/-- Whether an input's rings follow a comb reference: classed comb and not in mode 0 (R208, R210). -/
def combMode (s : State) (k : Nat) : Bool := (laserAt s k).comb && s.laserMode != 0

/-- The lines in the order in which the reference looks for one: 8, 7, 9, 6, 10 and outward (R210). -/
def refOrder : List Nat := [8, 7, 9, 6, 10, 5, 11, 4, 12, 3, 13, 2, 14, 1, 15, 0, 16]

/-- Whether a ring of an out-fibre may be a reference: locked, and not on the grey line. -/
def refFit (s : State) (x j : Nat) : Bool := (ringOf s (modRing x j)).locked && (rotorOf s x).grey != j

/-- The reference ring of an input: the first fibre of its four whose ring on the line is locked and not grey. -/
def findRef (s : State) (k : Nat) : Option (Nat × Nat) :=
  refOrder.findSome? (fun j =>
    ((List.range 4).map (fun i => 4 * k + i)).findSome? (fun x => if refFit s x j then some (x, j) else none))

/-- The comb reference moved when its ring is no longer fit; a move away from line 8 is journalled (R210). -/
def moveRef (s : State) (k : Nat) : State :=
  let l := laserAt s k
  if !combMode s k || (refFit s l.refFibre l.refLine && l.refLine == 8) then s
  else
    match findRef s k with
    | none => s
    | some (x, j) =>
      if x = l.refFibre ∧ j = l.refLine then s
      else
        let s := updLaser s k (fun l => { l with refFibre := x, refLine := j })
        if j ≠ 8 ∧ j ≠ l.refLine then journal s .referenceMoved [k, x, j] else s

/-- A ring that is no longer locked; the comb reference moves if it was that ring (R210). -/
def unlockRing (s : State) (r : Nat) (f : Ring → Ring) : State :=
  let s := updRing s r (fun g => { f g with locked := false })
  if r < 544 then moveRef s (r / 68) else s

/-- A ring parked off resonance. -/
def parkRing (s : State) (r : Nat) : State := unlockRing s r (fun g => { g with parked := true })

end Sys2Proof.Machine
end

