-- ==== Sys2Proof/Machine/LinkOps.lean ====
section
/-!
DEFINITION. Kenxis links (11): lanes, link states and their causes, what going Grey or Dark does (R241, R242), flits
sent (R232 to R238), and the spectral map entries that lanes keep (Table OPT-9).
-/

namespace Sys2Proof.Machine

/-- Link n. -/
def linkOf (s : State) (k : Nat) : Link := s.links.getD k {}

/-- A function applied to a link. -/
def updLink (s : State) (k : Nat) (f : Link → Link) : State := { s with links := modifyAt s.links k f }

/-- LinkState of link n (Table LNK-4). -/
def linkState (s : State) (k : Nat) : Nat := objGet s (Obj.linkState + k)

/-- The spectral map entry of out-fibre x, line j. -/
def specOf (s : State) (x j : Nat) : MapEntry := s.specMap.getD (17 * x + j) {}

/-- A function applied to a spectral map entry. -/
def updSpec (s : State) (x j : Nat) (f : MapEntry → MapEntry) : State :=
  { s with specMap := modifyAt s.specMap (17 * x + j) f }

/-- Whether out-fibre x is Direct: all 17 entries Valid with one peer chip and in-fibre (Table OPT-9). -/
def isDirect (s : State) (x : Nat) : Bool :=
  let e0 := specOf s x 0
  (List.range 17).all (fun j =>
    let e := specOf s x j
    e.valid && e.chip == e0.chip && e.inFibre == e0.inFibre)

/-- Whether a line is lit: it carries a lane, in service or not. -/
def isLit (e : MapEntry) : Bool := e.lineState == 1 || e.lineState == 3

/-! ### Lanes -/

/-- A lane in service. -/
def laneUp (l : Lane) : Bool := l.why == 0

/-- Lanes that count as in service for the link's state: a lane out for a rotor step changes no link state (R241). -/
def countUp (ls : List Lane) : Nat := (ls.filter (fun (l : Lane) => l.why == 0 || l.why == 5)).length

/-- The minimum of a direction with n lit lanes (R241). -/
def laneMin (s : State) (n : Nat) : Nat := max 1 (ceilDiv (objGet s Obj.linkMinLanesPct * n) 100)

/-- Whether each direction of a link is at or above its minimum. -/
def atMinimum (s : State) (l : Link) : Bool :=
  decide (laneMin s l.outLanes.length ≤ countUp l.outLanes) && decide (laneMin s l.inLanes.length ≤ countUp l.inLanes)

/-- The link and lane that a line of an out-fibre (or in-fibre) carries. -/
def findLane (s : State) (outgoing : Bool) (fibre line : Nat) : Option (Nat × Lane) :=
  (s.links.zipIdx).findSome? (fun x =>
    ((if outgoing then x.1.outLanes else x.1.inLanes).find? (fun (l : Lane) => l.fibre == fibre && l.line == line)).map
      (fun l => (x.2, l)))

/-- A function applied to lane `idx` of one direction of a link. -/
def updLane (s : State) (k : Nat) (outgoing : Bool) (idx : Nat) (f : Lane → Lane) : State :=
  let g (ls : List Lane) : List Lane := ls.map (fun (l : Lane) => if l.idx = idx then f l else l)
  updLink s k (fun l => if outgoing then { l with outLanes := g l.outLanes } else { l with inLanes := g l.inLanes })

/-- The lowest lane index not in use. -/
def freeIdx (ls : List Lane) : Nat :=
  ((List.range 129).find? (fun i => !ls.any (fun (l : Lane) => l.idx == i))).getD 128

/-- The link bound to a chip. -/
def linkTo (s : State) (c : Nat) : Option Nat :=
  (s.links.zipIdx).findSome? (fun x => if x.1.bound && x.1.peer == c then some x.2 else none)

/-- The lowest free link ID (R230). -/
def freeLink (s : State) : Option Nat := (List.range 64).find? (fun k => !(linkOf s k).bound)

/-- Whether a link carries VC0: it is not Dark. -/
def carriesMgmt (s : State) (k : Nat) : Bool := (linkOf s k).bound && decide (linkState s k ≤ 2)

/-- The half that owns a link: that of its first out-lane's facet. -/
def linkHalf (s : State) (k : Nat) : Half :=
  match (linkOf s k).outLanes with
  | l :: _ => halfOf32 l.fibre
  | [] => .w

/-! ### Credits returned (R254) -/

/-- Credits of 64 B that a packet takes. -/
def creditsOf (p : Packet) : Nat := ceilDiv (4 * p.len) 64

/-- Credits of a packet of link k that has left its buffer, to be returned in the headers of flits (Table LNK-1). -/
def oweCredit (s : State) (k : Nat) (p : Packet) : State :=
  if p.vc = 0 then s else updLink s k (fun l => { l with owe := l.owe.modify p.vc (· + creditsOf p) })

/-- Credits of the receive store that a link's packets take in the routers. -/
def storeUsed (s : State) (k : Nat) : Nat :=
  ((s.routerW.held ++ s.routerE.held).map (fun (x : Held) =>
    if x.from_ = some k ∧ x.owes ∧ x.p.vc ≠ 0 then creditsOf x.p else 0)).sum

/-- Whether credits may be returned: not while the packets held take more than the receive store of the lanes left, until the
store of a leaving lane is recovered (R254). -/
def storeRecovered (s : State) (k : Nat) : Bool := decide (storeUsed s k ≤ 512 * (linkOf s k).inLanes.length)

/-- The CreditVC and CreditCount of the next flit: of the first virtual channel with credits to return, as many as 12 bits
hold. -/
def creditDue (s : State) (k : Nat) : Nat × Nat :=
  match (List.range 10).find? (fun v => (linkOf s k).owe.getD v 0 != 0) with
  | some v => if storeRecovered s k then (v, min 4095 ((linkOf s k).owe.getD v 0)) else (0, 0)
  | none => (0, 0)

/-! ### Sending (R232 to R238) -/

/-- The window of a link's out-direction in flits: 128 for each lane (R238). -/
def retryWindow (l : Link) : Nat := 128 * l.outLanes.length

/-- The out-lane that a control flit concerns, which never carries it (R235). -/
def ctlLane : Ctl → Option Nat
  | .propose i _ _ => some i
  | .rotorAbort r => if r.own then some r.idx else none
  | .laneDown r _ => if r.own then some r.idx else none
  | .laneJoin i _ => some i
  | .laneLeave i _ => some i
  | .capability _ _ _ => none
  | .capabilityAck _ => none
  | .accept _ => none
  | .greyNotice _ => none
  | .marker _ _ => none

/-- The out-lane that a body must not be sent on. -/
def bodyLane : FlitBody → Option Nat
  | .control c => ctlLane c
  | .idle => none
  | .begins _ => none
  | .packets _ => none
  | .training => none

/-- The lane with the fewest flits queued among the out-lanes in service that may carry a body (R235, R238). -/
def laneFor (l : Link) (b : FlitBody) : Option Nat :=
  match l.outLanes.filter (fun (a : Lane) => laneUp a && some a.idx != bodyLane b) with
  | [] => none
  | a :: r => some (r.foldl (fun (m x : Lane) => if x.q.length < m.q.length then x else m) a).idx

/-- A FlitSeq queued on an out-lane. -/
def enqueue (l : Link) (i seq : Nat) : Link :=
  { l with outLanes := l.outLanes.map (fun (a : Lane) => if a.idx = i then { a with q := a.q ++ [seq] } else a) }

/-- A flit given to a link: it takes the next FlitSeq, is queued on a lane, and is kept until it is acknowledged (R238). With no
lane that may carry it, it is not sent. -/
def sendFlit (s : State) (k : Nat) (b : FlitBody) : State :=
  updLink s k (fun l =>
    match laneFor l b with
    | none => l
    | some i =>
      { enqueue l i l.txSeq with
        txSeq := (l.txSeq + 1) % 2 ^ 20
        unacked := l.unacked ++ [{ seq := l.txSeq, sends := 1, born := s.now, at_ := s.now, body := b }] })

/-- Whether a control flit may be sent on a link: a link that is not formed carries only its negotiation (R241, R246). -/
def ctlFits (l : Link) : Ctl → Bool
  | .capability _ _ _ => l.nego == 1 || l.nego == 2 || l.nego == 3
  | .capabilityAck _ => l.nego == 1 || l.nego == 2 || l.nego == 3
  | _ => l.nego == 3

/-- A control flit sent on a link (R235); while the retry window is full it waits, and the wait counts (R238). -/
def sendCtl (s : State) (k : Nat) (c : Ctl) : State :=
  let l := linkOf s k
  if !ctlFits l c then s
  else if l.unacked.length < retryWindow l ∧ l.waitCtl = [] then sendFlit s k (.control c)
  else objInc (updLink s k (fun l => { l with waitCtl := l.waitCtl ++ [c] })) Obj.retryWindowStalls

/-- Waiting control flits sent as far as the window is open. `fuel` is their number. -/
def drainCtl (s : State) (k : Nat) : Nat → State
  | 0 => s
  | n + 1 =>
    match (linkOf s k).waitCtl with
    | [] => s
    | c :: r =>
      if (linkOf s k).unacked.length < retryWindow (linkOf s k) then
        drainCtl (sendFlit (updLink s k (fun l => { l with waitCtl := r })) k (.control c)) k n
      else s

/-! ### Flit slots (R232, R233, R216) -/

/-- Kind of a flit (Table LNK-1). -/
def kindOf : FlitBody → Nat
  | .idle => 0
  | .begins _ => 1
  | .packets _ => 1
  | .control _ => 2
  | .training => 4

/-- The code in byte 16 of a control flit (Table LNK-2); the marker flit has none there, and 0x40 stands for it (log entry 22). -/
def ctlCode : FlitBody → Nat
  | .control (.capability _ _ _) => 0x01
  | .control (.capabilityAck _) => 0x02
  | .control (.propose _ _ _) => 0x10
  | .control (.accept _) => 0x11
  | .control (.rotorAbort _) => 0x12
  | .control (.laneDown _ _) => 0x20
  | .control (.laneJoin _ _) => 0x21
  | .control (.laneLeave _ _) => 0x22
  | .control (.greyNotice _) => 0x30
  | .control (.marker _ _) => 0x40
  | .idle => 0
  | .begins _ => 0
  | .packets _ => 0
  | .training => 0

/-- Words 0 and 1 of a flit header (Table LNK-1). -/
def headWord0 (kind : Nat) (switch phase : Bool) (t : LaneTag) (seq : Nat) : Nat :=
  kind + 2 ^ 3 * boolNat switch + 2 ^ 4 * boolNat phase + 2 ^ 8 * t.outFibre + 2 ^ 13 * t.line + 2 ^ 18 * t.laneIndex
    + 2 ^ 25 * t.linkId + 2 ^ 32 * seq
def headWord1 (ack : Nat) (nak : Option Nat) (credit : Nat × Nat) : Nat :=
  ack + (match nak with
    | some n => 2 ^ 20 + 2 ^ 21 * n
    | none => 0) + 2 ^ 41 * credit.1 + 2 ^ 45 * credit.2

/-- The LaneTag of an out-lane of link k on a line (R232). -/
def tagOf (k : Nat) (a : Lane) (line : Nat) : LaneTag := { outFibre := a.fibre, line := line, laneIndex := a.idx, linkId := k }

/-- The next flit of an out-lane: the first of its queue that is still kept, else an idle flit, which takes no FlitSeq and names
the next (R233). -/
def nextFlit (l : Link) (a : Lane) : Nat × FlitBody :=
  (a.q.findSome? (fun q => (l.unacked.find? (fun (u : Unacked) => u.seq == q)).map (fun u => (u.seq, u.body)))).getD (l.txSeq, .idle)

/-- One flit slot of an out-lane, on its line and on any other that carries a copy: the flit leaves with its LaneTag, the
acknowledgement, the request and the credits that the other direction is owed. -/
def slotFlit (s : State) (k : Nat) (a : Lane) (lines : List Nat) (switch phase : Bool) : State :=
  let l := linkOf s k
  let f := nextFlit l a
  let c := creditDue s k
  let s := lines.foldl (fun s j =>
    emit s (.flit a.fibre j (headWord0 (kindOf f.2) switch phase (tagOf k a j) f.1) (headWord1 l.rxNext l.nak c) (ctlCode f.2) f.2)) s
  updLink s k (fun l =>
    { l with
      nak := none
      owe := l.owe.modify c.1 (fun n => n - c.2)
      unacked := l.unacked.map (fun (u : Unacked) => if u.seq = f.1 then { u with at_ := s.now } else u)
      outLanes := l.outLanes.map (fun (x : Lane) =>
        if x.idx = a.idx then { x with q := x.q.filter (fun q => q != f.1 && l.unacked.any (fun (u : Unacked) => u.seq == q)) } else x) })

/-- The lines that carry an out-lane's flits: its own, and the grey line while its rotor copies it (Table OPT-6 step 4). -/
def linesOfLane (s : State) (k : Nat) (a : Lane) : List Nat :=
  let r := rotorOf s a.fibre
  if r.phase = 3 ∧ r.lane = some (k, a.idx) then [a.line, r.grey] else [a.line]

/-- One flit slot of every out-lane in service of a link. -/
def slotLink (s : State) (k : Nat) : State :=
  let l := linkOf s k
  if l.nego = 0 then s
  else (l.outLanes.filter laneUp).foldl (fun s (a : Lane) => slotFlit s k a (linesOfLane s k a) false a.phase) s

/-- One flit slot of every link: 256 B at 128 Gb/s take 16 ns (R206, R233). -/
def flitSlots (s : State) : State := (List.range 64).foldl slotLink s

/-! ### Packets handed back (R242, R283) -/

/-- Microseconds of a time, rounded up. -/
def usUp (n : Nat) : Nat := ceilDiv n 1000

/-- A sequenced request with time added to its AgeUs, which saturates at 4,095 (R283). -/
def addAge (n : Nat) (p : Packet) : Packet :=
  match p.body with
  | .req o t (.atomic op w age a b) => { p with body := .req o t (.atomic op w (min 4095 (age + n)) a b) }
  | .req o t (.signal age v) => { p with body := .req o t (.signal (min 4095 (age + n)) v) }
  | _ => p

/-- Whether a packet's epoch is that of the Draining bank (R261). -/
def isOld (s : State) (p : Packet) : Bool := objGet s Obj.routeBankState / 4 ^ (p.epoch % 2) % 4 == 3 && p.vc != 0

/-- A packet held by this module after DrainArm makes DrainDirty 1 (R261). -/
def noteOld (s : State) (p : Packet) : State := if s.armed && isOld s p then objPut s Obj.drainDirty 1 else s

/-- A request of this module's own that is handed over keeps its tag back after its release (R280). -/
def noteResent (s : State) (p : Packet) : State :=
  match p.body with
  | .req _ t _ => if p.src = chip s then
      { s with outst := s.outst.map (fun (x : Outst) => if x.tag = t then { x with resent := true } else x) } else s
  | _ => s

/-- AxisInfo of an axis: own coordinate, the minus and the plus neighbour's link. -/
def axisOwn (s : State) (a : Nat) : Nat := objGet s (Obj.axisInfo + a % 4) / 2 ^ 8 % 256
def axisMinus (s : State) (a : Nat) : Option Nat :=
  let v := objGet s (Obj.axisInfo + a % 4)
  if natBit 22 v then some (v / 2 ^ 16 % 64) else none
def axisPlus (s : State) (a : Nat) : Option Nat :=
  let v := objGet s (Obj.axisInfo + a % 4)
  if natBit 29 v then some (v / 2 ^ 23 % 64) else none

/-- Packets that link k did not deliver put into a router to be routed again, marked as resent; of a multicast only the copy
for that side. -/
def reinject (s : State) (h : Half) (k : Nat) : List (Nat × Packet) → State
  | [] => s
  | (t, p) :: r =>
    let copies := if p.mcast then some (false, axisPlus s p.axis == some k, axisMinus s p.axis == some k) else none
    reinject (inject (noteOld (noteResent s p) p) h (addAge (usUp (s.now - t)) { p with resent := true }) none copies) h k r

/-- The packets of kept flits, with the time each was sent. -/
def packetsOf (us : List Unacked) : List (Nat × Packet) :=
  us.flatMap (fun (u : Unacked) =>
    match u.body with
    | .packets ps => ps.map (fun p => (u.born, p))
    | _ => [])

/-- Whether a flit carries only VC0 or no packet. -/
def keptInGrey (u : Unacked) : Bool :=
  match u.body with
  | .packets ps => ps.all (fun p => p.vc == 0)
  | .begins vc => vc == 0
  | _ => true

/-- Flits that a link no longer acknowledged hands to the router (R242). -/
def handBack (s : State) (k : Nat) (grey : Bool) : State :=
  let us := (linkOf s k).unacked
  let gone := if grey then us.filter (fun u => !keptInGrey u) else us
  let s := updLink s k (fun l => { l with unacked := if grey then l.unacked.filter keptInGrey else [] })
  reinject (objAdd s Obj.resentFlits gone.length) (linkHalf s k) k (packetsOf gone)

/-! ### Link states (R241 to R243) -/

/-- A link goes Dark: its kept flits are handed to the router, and the change is counted and journalled with its cause
(R240 to R242). -/
def goDark (s : State) (k cause : Nat) : State :=
  let s := handBack s k false
  let s := objPut s (Obj.linkState + k) 3
  let s := objInc s Obj.linkDarkEvents
  let s := updLink s k (fun l =>
    { l with
      darkSince := some s.now, okSince := none, nego := 0, waitCtl := [], told := 0
      outLanes := l.outLanes.map (fun (a : Lane) => { a with q := [] })
      inLanes := l.inLanes.map (fun (a : Lane) => if a.ready then { a with why := 0, ready := false } else a) })
  journal s .linkDark [k, (linkOf s k).peer, cause]

/-- The state a link that is not Dark belongs in (Table LNK-4). -/
def litState (l : Link) : Nat :=
  if !l.causes.isEmpty then 2
  else if (l.outLanes ++ l.inLanes).any (fun (x : Lane) => x.why == 2 || x.why == 3 || x.why == 4) then 1
  else 0

/-- A link goes Grey: its kept flits of VC1 to VC9 are handed to the router, and the change is journalled with the cause
(R242). -/
def goGrey (s : State) (k : Nat) : State :=
  let cause := (linkOf s k).causes.headD 0
  let s := handBack s k true
  let s := objPut s (Obj.linkState + k) 2
  journal s .linkGrey [k, (linkOf s k).peer, cause]

/-- The cause for which this end itself holds a link Grey, 0 for none. -/
def ownCause (l : Link) : Nat := (l.causes.filter (· != 5)).headD 0

/-- The peer told of the cause for which this end holds the link Grey, or that it no longer does (Table LNK-2, R247). -/
def tellCause (s : State) (k : Nat) : State :=
  let c := ownCause (linkOf s k)
  if (linkOf s k).told = c then s
  else sendCtl (updLink s k (fun l => { l with told := c })) k (.greyNotice c)

/-- Since when a Dark link has held its minima, and since when neither direction has a lane in service (R243). -/
def noteTimes (s : State) (k : Nat) : State :=
  updLink s k (fun l =>
    { l with
      okSince := if l.darkSince.isSome && atMinimum s l then l.okSince.or (some s.now) else none
      noneSince := if (l.outLanes ++ l.inLanes).any laneUp then none else l.noneSince.or (some s.now) })

/-- LinkState brought up to date after a change of lanes, causes or negotiation. A link negotiating carries nothing
and reports Dark; with no lane in one direction there is no link (R229). -/
def settleLink (s : State) (k : Nat) : State :=
  let l := linkOf s k
  let was := linkState s k
  if !l.bound || l.outLanes.isEmpty || l.inLanes.isEmpty then objPut s (Obj.linkState + k) 4
  else if l.darkSince.isSome then noteTimes (objPut s (Obj.linkState + k) 3) k
  else if l.nego != 3 then noteTimes (objPut s (Obj.linkState + k) 3) k
  else if !atMinimum s l then noteTimes (goDark s k 1) k
  else
    let new := litState l
    let s := if new = 2 ∧ was ≠ 2 then goGrey s k else objPut s (Obj.linkState + k) new
    noteTimes (tellCause s k) k

/-- A GreyCause held or lifted on a link (Table LNK-7). -/
def setCause (s : State) (k cause : Nat) (on : Bool) : State :=
  let l := linkOf s k
  if l.causes.contains cause = on then s
  else settleLink (updLink s k (fun l => { l with causes := if on then l.causes ++ [cause] else l.causes.erase cause })) k

/-- A GreyCause held on every link that is bound. -/
def greyAll (s : State) (cause : Nat) : State :=
  (List.range 64).foldl (fun s k => if (linkOf s k).bound then setCause s k cause true else s) s

/-! ### The intended map (R247) -/

/-- The IntendedMap entry of out-fibre x, line j. -/
def intended (s : State) (x j : Nat) : Nat := leNat (((domGet s Obj.intendedMap).drop (4 * (17 * x + j))).take 4)

/-- Whether a report of chip c and in-fibre k disagrees with the Enforced entry of a line. -/
def disagrees (s : State) (x j c k : Nat) : Bool :=
  let e := intended s x j
  natBit 19 e && (e % 2 ^ 14 != c || (!natBit 20 e && e / 2 ^ 14 % 32 != k))

/-- Whether any lane of a link, or any report on a line towards its peer, disagrees. -/
def linkDisagrees (s : State) (k : Nat) : Bool :=
  let l := linkOf s k
  (List.range 32).any (fun x => (List.range 17).any (fun j =>
    let e := specOf s x j
    e.valid && disagrees s x j e.chip e.inFibre
      && (e.chip == l.peer || l.outLanes.any (fun (a : Lane) => a.fibre == x && a.line == j))))

/-- The Enforced entries that disagree among some lines (at index 17 x + j): one journal entry with ALERT_N for each expected and found
chip, with the lines, their expected in-fibres and those found (R248). -/
def journalMismatches (s : State) (lines : List Nat) : State :=
  let bad := lines.filter (fun i =>
    let e := specOf s (i / 17) (i % 17)
    e.valid && disagrees s (i / 17) (i % 17) e.chip e.inFibre)
  let key (i : Nat) : Nat × Nat := (intended s (i / 17) (i % 17) % 2 ^ 14, (specOf s (i / 17) (i % 17)).chip)
  ((bad.map key).dedup).foldl (fun s c =>
    journalAlert s .mapMismatch ([c.1, c.2] ++ (bad.filter (fun i => key i == c)).flatMap (fun i =>
      [i / 17, i % 17, intended s (i / 17) (i % 17) / 2 ^ 14 % 32, (specOf s (i / 17) (i % 17)).inFibre]))) s

/-- GreyCause 1 of every link brought up to date (R247). -/
def checkMap (s : State) : State :=
  (List.range 64).foldl (fun s k => if (linkOf s k).bound then setCause s k 1 (linkDisagrees s k) else s) s

/-! ### Forming links (R229, R230, R246) -/

/-- The module's Capabilities (Table LNK-6): it does everything the table names. -/
def ownCaps : Nat := 255

/-- The causes that hold on a link from the moment it forms. -/
def firstCauses (s : State) (k : Nat) : List Nat :=
  (if natBit k (objGet s Obj.linkQuarantine) then [3] else [])
    ++ (if objGet s Obj.bridgeState = 2 ∨ objGet s Obj.moduleState = 2 then [4] else []) ++ (if linkDisagrees s k then [1] else [])

/-- The capabilities a link of a version may agree on (Table LNK-8). -/
def capsOf (version : Nat) : Nat := if version = 1 then 0x84 else ownCaps

/-- Packets of an earlier formation of a link return no credits on it (log entry 22). -/
def forgetHeld (s : State) (k : Nat) : State :=
  let f (r : Router) : Router :=
    { r with held := r.held.map (fun (x : Held) => if x.from_ = some k then { x with owes := false } else x) }
  updRouter (updRouter s .w f) .e f

/-- A link whose two directions have lanes starts to negotiate: FlitSeq restarts at 0 and Capability is sent (R243, R246). -/
def startNego (s : State) (k : Nat) : State :=
  let s := forgetHeld s k
  let s := updLink s k (fun l =>
    { l with nego := 1, darkSince := none, okSince := none, txSeq := 0, rxNext := 0, rxHeld := [], nak := none, asked := none,
             unacked := [], waitCtl := [], told := 0, occ := List.replicate 10 0, owe := List.replicate 10 0,
             deficit := [0, 0, 0, 0],
             outLanes := l.outLanes.map (fun (a : Lane) => { a with q := [], told := false })
             inLanes := l.inLanes.map (fun (a : Lane) => { a with last := none, later := none }) })
  let s := sendCtl s k (.capability (linkOf s k).version (capsOf (linkOf s k).version) Config.epochProto)
  settleLink (updLink s k (fun l => { l with causes := (l.causes.filter (fun c => c != 2 && c != 5) ++ firstCauses s k).dedup })) k

/-- The link of a peer: bound already, or bound now to the lowest free ID (R230). -/
def bindLink (s : State) (c version : Nat) : State × Option Nat :=
  match linkTo s c with
  | some k => (s, some k)
  | none =>
    match freeLink s with
    | none => (s, none)
    | some k =>
      let mine := (s.strayIn.filter (fun e => e.1 == c)).map Prod.snd
      (updLink { s with strayIn := s.strayIn.filter (fun e => e.1 != c) } k
        (fun l => { bound := true, peer := c, version := version, inLanes := mine, tx := l.tx, rx := l.rx }), some k)

/-- LaneJoin sent for an out-lane in service of a formed link; a link that forms sends it when its negotiation has ended
(R236). -/
def tellJoin (s : State) (k idx : Nat) : State :=
  if (linkOf s k).nego = 3 then
    sendCtl (updLane s k true idx (fun a => { a with told := true })) k (.laneJoin idx (linkOf s k).txSeq)
  else updLane s k true idx (fun a => { a with told := false })

/-- LaneJoin sent for every out-lane in service that the peer has not been told of; a link's only lane needs none. -/
def tellJoins (s : State) (k : Nat) : State :=
  ((linkOf s k).outLanes.filter (fun (a : Lane) => laneUp a && !a.told)).foldl (fun s (a : Lane) => tellJoin s k a.idx) s

/-- A lane joins a direction of a link. Once both directions have a lane, a new link negotiates (R229, R236). -/
def joinLane (s : State) (k : Nat) (outgoing : Bool) (lane : Lane) : State :=
  let s := updLink s k (fun l =>
    if outgoing then { l with outLanes := l.outLanes ++ [lane] } else { l with inLanes := l.inLanes ++ [lane] })
  let s := if outgoing then
      updSpec s lane.fibre lane.line (fun e => { e with lineState := 1, link := k, lane := lane.idx })
    else s
  let l := linkOf s k
  if l.nego = 0 ∧ l.darkSince = none ∧ l.outLanes ≠ [] ∧ l.inLanes ≠ [] then startNego s k
  else settleLink (if outgoing then tellJoin s k lane.idx else s) k

/-- An in-lane joins or returns at the FlitSeq that LaneJoin names: it counts as having delivered every flit before it (R236,
R238). -/
def joinedAt (a : Lane) (seq : Nat) : Lane :=
  { a with why := 0, tries := 0, ready := false, joinAt := none, leaveAt := none, last := some ((seq + 2 ^ 20 - 1) % 2 ^ 20), later := none,
           badAt := [], serNow := 0, serLast := 0 }

/-- A lane whose recovery or training has ended returns to service. An out-lane returns at once and LaneJoin tells the peer; an
in-lane of a formed link returns once LaneJoin has come too (Table OPT-7 step 6, R236). -/
def returnLane (s : State) (k : Nat) (outgoing : Bool) (lane : Lane) : State :=
  let back (a : Lane) : Lane := { a with why := 0, tries := 0, ready := false, badAt := [], serNow := 0, serLast := 0 }
  if outgoing then
    let s := updLane s k true lane.idx back
    settleLink (tellJoin (updSpec s lane.fibre lane.line (fun e => { e with lineState := 1 })) k lane.idx) k
  else
    match lane.joinAt with
    | some q => settleLink (updLane s k false lane.idx (fun a => joinedAt a q)) k
    | none =>
      if (linkOf s k).nego = 3 then updLane s k false lane.idx (fun a => { a with ready := true, tries := 0 })
      else settleLink (updLane s k false lane.idx back) k

/-- A lane taken out of service, with the other end told (Table OPT-7 steps 1 and 2; R209, R244). -/
def laneOut (s : State) (k : Nat) (outgoing : Bool) (lane : Lane) (why : Nat) (tell : Bool) : State :=
  if lane.why != 0 && lane.why != 5 then s
  else
    let s := updLane s k outgoing lane.idx (fun l => { l with why := why, q := [], ready := false, joinAt := none })
    let s := if outgoing then updSpec s lane.fibre lane.line (fun e => { e with lineState := 3 }) else s
    let s := if tell then sendCtl s k (.laneDown { own := outgoing, idx := lane.idx } why) else s
    settleLink s k

/-- A link removed: its lines are darkened and its ID is freed (R243). -/
def removeLink (s : State) (k : Nat) : State :=
  let ls := (linkOf s k).outLanes
  let s := ls.foldl (fun s (l : Lane) =>
    parkRing (updSpec s l.fibre l.line (fun e => { e with lineState := 0, link := 0, lane := 0 })) (modRing l.fibre l.line)) s
  let s := updLink s k (fun l => { tx := l.tx, rx := l.rx, recEpoch := l.recEpoch, recCount := l.recCount })
  let s := objPut s (Obj.linkRttNs + k) 0
  objPut s (Obj.linkState + k) 4

/-- A line of this module darkened at an agreed boundary: the lane leaves its link and the ring is parked; the last lane
of a link removes it (R227). -/
def darkenLine (s : State) (x j : Nat) : State :=
  match findLane s true x j with
  | none => parkRing (updSpec s x j (fun e => { e with lineState := if e.lineState = 5 then 5 else 0, link := 0, lane := 0 })) (modRing x j)
  | some (k, lane) =>
    let s := sendCtl s k (.laneLeave lane.idx ((linkOf s k).txSeq))
    let s := updLink s k (fun l => { l with outLanes := l.outLanes.filter (fun (a : Lane) => a.idx != lane.idx) })
    let s := parkRing (updSpec s x j (fun e => { e with lineState := 0, link := 0, lane := 0 })) (modRing x j)
    if (linkOf s k).outLanes.isEmpty then removeLink (handBack s k false) k else settleLink s k

/-- LinkPeer of link n (Table LNK-9). -/
def linkPeer (s : State) (k : Nat) : Nat :=
  let l := linkOf s k
  if l.bound then
    l.peer % 2 ^ 14 + l.version % 4 * 2 ^ 14 + l.agreed % 256 * 2 ^ 16 + l.causes.headD 0 % 16 * 2 ^ 24
  else 0

/-- LinkLanes of link n (Table LNK-9). -/
def linkLanes (s : State) (k : Nat) : Nat :=
  let l := linkOf s k
  l.outLanes.length % 256 + (l.outLanes.filter laneUp).length % 256 * 2 ^ 8 + l.inLanes.length % 256 * 2 ^ 16
    + (l.inLanes.filter laneUp).length % 256 * 2 ^ 24

end Sys2Proof.Machine
end

