-- ==== Sys2Proof/Machine/Clock.lean ====
section
/-!
DEFINITION. What passes with time alone: LocalTimeNs, the loss time of R378, the event crossings of R410, and the flit slots of the lanes (R233) (log
entry 2).
-/

namespace Sys2Proof.Machine

/-- Whether this moment is loss time (R378). -/
def losing (s : State) : Bool :=
  s.power.on
    && (objGet s Obj.moduleState != 1 || (s.cores.getD 0 {}).st == 2 || (s.cores.getD 4 {}).st == 2 || s.seqs.ckptStep != 0
      || s.chans.any (fun (c : Chan) => c.dim.isSome))

/-- One nanosecond passes: acknowledgements return (R410), and every 16th begins a flit slot of every lane in service. -/
def tick (s : State) : State :=
  let s := settleWires { s with now := s.now + 1, lossNs := s.lossNs + boolNat (losing s) }
  if s.now % 16 = 0 then flitSlots s else s

end Sys2Proof.Machine
end

