-- ==== Sys2Proof/Machine/Arrays.lean ====
section
/-!
DEFINITION. Matrix arrays (03, 04): operands, the arithmetic of a row, the witness check, comparison trees, and the
meanings of ARRAY_PASS to ARRAY_DESCRIPTOR_COMPLETE.
-/

namespace Sys2Proof.Machine

/-! ### Operands (R78) -/

/-- An operand: its value as a K value or an integer, and whether its line was poisoned. -/
structure Opnd where
  k : KVal := KVal.zero
  i : Int := 0
  poison : Bool := false
  deriving DecidableEq, Repr

/-- Whether the line of a slice offset is poisoned. -/
def slicePoison (s : State) (nn off : Nat) : Bool := nsHas s.tilePoison (nn * (sliceSize / 64) + off / 64)

/-- n bytes of a slice. -/
def sliceBytes (s : State) (nn off n : Nat) : Bytes := memBytes s.tile (nn * sliceSize + off) n

/-- A BX8 scale byte of a slice; of a poisoned line it reads 0xFF (R33). -/
def scaleByte (s : State) (nn off : Nat) : Nat :=
  if slicePoison s nn off then 255 else (memRead s.tile (nn * sliceSize + off)).toNat

/-- The code of element i of a row of a slice, and whether a line it lies in is poisoned. DESIGN CHOICE (log entry 12): R28 has
whole elements in a line and rejects no address that breaks this; elements are counted from the row's start, and one that
crosses a line is poisoned by either line. -/
def sliceElem (s : State) (nn : Nat) (f : Fmt) (off i : Nat) : Nat × Bool :=
  let p := elemPlace f i
  let b := off + p.1
  (leNat (sliceBytes s nn b (elemSpan f p.2)) / 2 ^ p.2 % 2 ^ f.bits,
    slicePoison s nn b || slicePoison s nn (b + elemSpan f p.2 - 1))

/-- An operand from its code. A poisoned K element reads as NaR, a poisoned integer as an unspecified value
(R33). -/
def opndOf (f : Fmt) (code : Nat) (poison : Bool) (scale : Option Nat) (place : Nat) : Opnd :=
  if f.isInt then
    { i := signedOf f.bits (if poison then (Config.poisonedWord place).toNat else code), poison := poison }
  else
    let v := if poison then KVal.nar else decodeK f code
    { k := match scale with
        | some e => scaled e v
        | none => v
      poison := poison }

/-- Activation element (m, k). -/
def actOpnd (s : State) (nn : Nat) (ws : List Word64) (m k : Nat) : Opnd :=
  let row := arrActAddr ws + m * arrActStride ws
  let e := sliceElem s nn (arrA ws) row k
  if arrAScale ws = 0 then opndOf (arrA ws) e.1 e.2 none (nn * sliceSize + row + k)
  else
    let so := arrAScaleAddr ws + m * arrAScaleStride ws + k / blockOf (arrAScale ws)
    opndOf (arrA ws) e.1 (e.2 || slicePoison s nn so) (some (scaleByte s nn so)) 0

/-- The slice offset of the physical row of weight element (k, n) of tile t, and the element's number in that row
(R54, R63, R78). -/
def weightPlace (ws : List Word64) (t k n : Nat) : Nat × Nat :=
  let jj := 8 / arrG ws
  let j := n / arrGroupCols ws * jj + k / unitK ws
  let c := n % arrGroupCols ws
  let b := c / unitN ws
  let unit := arrWAddr ws + weightBefore ws t
    + unitsBefore ws (arrTileK ws t) (arrN ws) j b * unitBytes ws
  let kk := k % unitK ws
  let cc := c % unitN ws
  match arrClass ws with
  | .four => (unit + kk / 2 * unitRowBytes ws, 2 * cc + kk % 2)
  | .eight => (unit + kk * unitRowBytes ws, cc)
  | .sixteen => (unit, kk * 32 + cc)

/-- The byte and bit of element i in a weight row: K6 groups of 12 B lie back to back (R63). -/
def weightByte (f : Fmt) (i : Nat) : Nat × Nat :=
  match f with
  | .k6 => (i / 16 * 12 + 6 * (i % 16) / 8, 6 * (i % 16) % 8)
  | _ => elemPlace f i

/-- Weight element (k, n) of tile t as the feed brings it, k relative to the tile. A poisoned integer is an unspecified value
(R33). -/
def weightReg (s : State) (nn : Nat) (ws : List Word64) (t k n : Nat) : WReg :=
  let f := arrW ws
  let p := weightPlace ws t k n
  let q := weightByte f p.2
  let off := p.1 + q.1
  let code := leNat (sliceBytes s nn off (elemSpan f q.2)) / 2 ^ q.2 % 2 ^ f.bits
  let bad := slicePoison s nn off || (f == .k6 && slicePoison s nn (off + elemSpan f q.2 - 1))
  if arrWScale ws = 0 then
    { code := if f.isInt && bad then (Config.poisonedWord (nn * sliceSize + off)).toNat % 2 ^ f.bits else code, poison := bad }
  else
    let b := blockOf (arrWScale ws)
    let so := arrWScaleAddr ws + wScaleBefore ws t + n * ceilDiv (arrTileK ws t) b + k / b
    { code := code, scale := some (scaleByte s nn so), poison := bad || slicePoison s nn so }

/-- A weight register as an operand. -/
def regOpnd (f : Fmt) (r : WReg) : Opnd :=
  if f.isInt then { i := signedOf f.bits r.code, poison := r.poison } else opndOf f r.code r.poison r.scale 0

/-! ### One block of 16 products or terms (R56, R59, R60, R83, R85) -/

/-- What a block of terms gave: exact value, flags, the k of its first invalid operation and of its first infinite term; on
the way, the sign of that term and the k of the first infinite term of the other sign. -/
structure Block where
  v : KVal := KVal.zero
  nv : Bool := false
  nar : Bool := false
  first : Option Nat := none
  firstInf : Option Nat := none
  sign : Option Bool := none
  opp : Option Nat := none
  deriving DecidableEq, Repr

/-- The term of one pair, with whether it is invalid (Table ARR-11). -/
def kTerm (mode : Nat) (a w : KVal) : KRes :=
  if mode = 0 then kMul a w
  else if mode = 1 ∨ mode = 2 then
    match a, w with
    | .nar, _ => ⟨.nar, false⟩
    | _, .nar => ⟨.nar, false⟩
    | .inf x, .inf y => if x = y then ⟨.nar, true⟩ else ⟨.inf false, false⟩
    | .inf _, _ => ⟨.inf false, false⟩
    | _, .inf _ => ⟨.inf false, false⟩
    | _, _ =>
      let d := (kAdd a w.neg).v
      if mode = 1 then ⟨d.abs, false⟩ else kMul d d
  else kAdd a w

/-- The lesser or greater of two values that are not NaR, for MINPLUS and MAXPLUS. -/
def kBest (mode : Nat) (a b : KVal) : KVal :=
  if mode = 3 then (if kLt b a then b else a) else (if kLt a b then b else a)

/-- One term combined into a block: `k` is its index, relative to the descriptor. -/
def blockStep (mode k : Nat) (b : Block) (t : KRes) : Block :=
  if t.nv then { b with nv := true, first := b.first.or (some k) }
  else
    match t.v with
    | .nar => { b with nar := true }
    | .inf x =>
      { b with
        v := if mode < 3 then b.v else kBest mode b.v t.v
        firstInf := b.firstInf.or (some k)
        sign := b.sign.or (some x)
        opp := if b.sign = some (!x) then b.opp.or (some k) else b.opp }
    | _ => { b with v := if mode < 3 then (kAdd b.v t.v).v else kBest mode b.v t.v }

/-- The block's result. One sum of 16 terms is one operation: with a NaR among its terms it gives NaR and raises nothing of its
own (R44); else opposing infinities are its invalid operation, at the first term whose sign differs from an earlier one's (R59,
R60). DEDUCED (log entry 16): no order of the terms enters. -/
def blockEnd (mode : Nat) (b : Block) : Block :=
  if b.nv || b.nar then { b with v := .nar }
  else if 3 ≤ mode then b
  else
    match b.opp, b.sign with
    | some k, _ => { b with v := .nar, nv := true, first := some k }
    | none, some x => { b with v := .inf x }
    | none, none => b

/-- The starting value of a block's combine, and the identity of a mode (Table ARR-11). -/
def kIdentity (mode : Nat) : KVal :=
  if mode = 3 then .inf false else if mode = 4 then .inf true else KVal.zero

/-- A block of terms, `k0` the index of the first. -/
def kBlock (mode k0 : Nat) (as ws : List Opnd) : Block :=
  blockEnd mode (((as.zip ws).zipIdx).foldl (fun b x => blockStep mode (k0 + x.2) b (kTerm mode x.1.1.k x.1.2.k))
    { v := kIdentity mode })

/-- An element's accumulation so far: code, tile sum (R72), flags, underflows, first invalid operation. -/
structure Acc where
  code : Nat
  tile : Nat := 0
  f : ElemFlags := {}
  ownNar : Bool := false
  uf : Nat := 0
  sat : Nat := 0
  first : Option Nat := none
  deriving DecidableEq, Repr

/-- A K32 sum or combine of an accumulator with a block result, rounded once (R57, R83). -/
def kCombine (mode : Nat) (acc s : KVal) : KRes × Coded :=
  if mode < 3 then
    let r := kAdd acc s
    (r, encodeK .k32 .nearest r.v)
  else
    let v := if acc.isNar || s.isNar then KVal.nar else kBest mode acc s
    (⟨v, false⟩, encodeK .k32 .nearest v)

/-- One block accumulated into a K output (R57, R59, R60): NaR-seen comes from a NaR operand, NV from an invalid
operation, and the NaR that this descriptor's own invalid operation made raises nothing more. -/
def accBlock (mode k0 : Nat) (a : Acc) (b : Block) (poison : Bool) : Acc :=
  let s := encodeK .k32 .nearest b.v
  let sv := decodeK .k32 s.code
  let x := kCombine mode (decodeK .k32 a.code) sv
  let t := kCombine mode (decodeK .k32 a.tile) sv
  let nvHere := b.nv || x.1.nv
  let first := match b.first with
    | some k => some k
    | none => if x.1.nv then some (b.firstInf.getD k0) else none
  { a with
    code := x.2.code
    tile := t.2.code
    f := { nv := a.f.nv || nvHere
           ovf := a.f.ovf || (!b.v.isNar && s.ovf) || (!x.1.nv && x.2.ovf)
           narSeen := a.f.narSeen || b.nar
           poison := a.f.poison || poison }
    uf := a.uf + boolNat s.uf + boolNat x.2.uf
    first := match a.first, first with
      | some p, _ => some p
      | none, y => y }

/-! ### Integer accumulation (R41, R58, R84) -/

/-- The finite range of INT32 in a mode (Table VEC-5). -/
def intLow (mode : Nat) : Int := if mode = 4 then -(2 ^ 31 : Int) + 1 else -(2 ^ 31 : Int)
def intHigh (mode : Nat) : Int := if mode = 3 then 2 ^ 31 - 2 else 2 ^ 31 - 1

/-- An integer held in the finite range of a mode, and whether it was saturated. -/
def sat32 (mode : Nat) (v : Int) : Int × Bool :=
  if v < intLow mode then (intLow mode, true)
  else if intHigh mode < v then (intHigh mode, true)
  else (v, false)

/-- Whether an integer operand is the infinity that a mode reserves (Table VEC-5). -/
def intInf (mode w : Nat) (v : Int) : Bool :=
  (mode == 3 && v == (2 ^ (w - 1) : Int) - 1) || (mode == 4 && v == -(2 ^ (w - 1) : Int))

/-- The infinity code of a mode as an INT32 value. -/
def intIdentity (mode : Nat) : Int := if mode = 3 then 2 ^ 31 - 1 else if mode = 4 then -(2 ^ 31 : Int) else 0

/-- One integer term, with whether it saturated (R84, Table ARR-12). -/
def iTerm (mode wa ww : Nat) (a w : Int) : Int × Bool :=
  if mode = 0 then (a * w, false)
  else if mode = 1 then (((a - w).natAbs : Int), false)
  else if mode = 2 then ((a - w) * (a - w), false)
  else if intInf mode wa a || intInf mode ww w then (intIdentity mode, false)
  else sat32 mode (a + w)

/-- One block of integers accumulated: a MAC adds its exact block sum, the metric sums add term by term, and the
others combine term by term, saturating at each addition (R58, R84). -/
def accInt (mode : Nat) (wa ww : Nat) (a : Acc) (as ws : List Opnd) : Acc :=
  let poison := (as ++ ws).any Opnd.poison
  let terms := (as.zip ws).map (fun x => iTerm mode wa ww x.1.i x.2.i)
  let base : Acc := { a with f := { a.f with poison := a.f.poison || poison } }
  let add (a : Acc) (v : Int) : Acc :=
    let r := sat32 mode (signedOf 32 a.code + v)
    { a with code := codeOf 32 r.1, f := { a.f with ovf := a.f.ovf || r.2 }, sat := a.sat + boolNat r.2 }
  if mode = 0 then
    let sum := (terms.map Prod.fst).sum
    { add base sum with tile := codeOf 32 (signedOf 32 a.tile + sum) }
  else if mode < 3 then terms.foldl (fun a t => add a t.1) base
  else terms.foldl (fun (a : Acc) t =>
      let v := signedOf 32 a.code
      let best := if mode = 3 then min v t.1 else max v t.1
      { a with code := codeOf 32 best, f := { a.f with ovf := a.f.ovf || t.2 }, sat := a.sat + boolNat t.2 }) base

/-! ### One row of one pass -/

/-- The operands of activation row m over tile t, block by block of 16. -/
def actRow (s : State) (nn : Nat) (ws : List Word64) (t m : Nat) : List (List Opnd) :=
  (List.range (arrTileK ws t / 16)).map (fun i =>
    (List.range 16).map (fun j => actOpnd s nn ws m (t * arrD ws + 16 * i + j)))

/-- Column n of a tile's weight registers as operands, block by block. -/
def tileCol (ws : List Word64) (w : WTile) (t n : Nat) : List (List Opnd) :=
  let col := w.cols.getD n []
  (List.range (arrTileK ws t / 16)).map (fun i =>
    (List.range 16).map (fun j => regOpnd (arrW ws) (col.getD (16 * i + j) {})))

/-- The identity code of a mode for integers or K operands (R57, R83, Table ARR-11). -/
def identityOf (mode : Nat) (int : Bool) : Nat :=
  if int then codeOf 32 (intIdentity mode) else (encodeK .k32 .nearest (kIdentity mode)).code

/-- The identity code of a descriptor's mode. -/
def identityCode (ws : List Word64) : Nat := identityOf (arrMode ws) (arrA ws).isInt

/-- An output accumulated over one tile. -/
def accTile (ws : List Word64) (t : Nat) (a : Acc) (act col : List (List Opnd)) : Acc :=
  ((act.zip col).zipIdx).foldl (fun a x =>
    let as := x.1.1
    let cs := x.1.2
    if (arrA ws).isInt then accInt (arrMode ws) (arrA ws).bits (arrW ws).bits a as cs
    else
      let k0 := t * arrD ws + 16 * x.2
      accBlock (arrMode ws) k0 a (kBlock (arrMode ws) k0 as cs) ((as ++ cs).any Opnd.poison)) a

/-- The value a row's output starts a pass with (R57, R83, R90). DESIGN CHOICE (log entry 17): output (m, n) lies at number
m × N_t + n of its bank, and a value of a bank that nothing has written is 0 with a clear tag. -/
def startVal (ws : List Word64) (pass : Nat) (bank : SMap BankVal) (m n : Nat) : BankVal :=
  if pass = 0 ∧ (!arrAcc ws || arrTopK ws) then ⟨BitVec.ofNat 32 (identityCode ws), false⟩
  else smGetD bank (m * arrNt ws + n) ⟨0, false⟩

/-- The code with the faults of a row applied: an operand of the command says which bits of which column came out
flipped (log entry 1). -/
def faulted (upset : List (Nat × Nat)) (n code : Nat) : Nat :=
  (upset.filter (fun u => u.1 == n)).foldl (fun c u => Nat.xor c u.2 % 2 ^ 32) code

/-- One output of a pass from its starting value, its column's weights and the faults of its column. -/
def outputOf (ws : List Word64) (pass : Nat) (st : BankVal) (act col : List (List Opnd)) (n : Nat)
    (upset : List (Nat × Nat)) : Acc :=
  let nar := !(arrA ws).isInt && (decodeK .k32 st.value.toNat).isNar && pass == 0
  let a := accTile ws pass
    { code := st.value.toNat, tile := if arrMode ws = 0 ∨ (arrA ws).isInt then 0 else identityCode ws,
      f := { narSeen := nar, poison := st.tag } } act col
  { a with code := faulted upset n a.code, tile := faulted upset n a.tile }

/-! ### The witness check (R72 to R74) -/

/-- A K32 value rounded once. -/
def round32 (v : KVal) : KVal := decodeK .k32 (encodeK .k32 .nearest v).code

/-- A K32 sum in order from +0. -/
def sum32 (vs : List KVal) : KVal := vs.foldl (fun a v => round32 (kAdd a v).v) KVal.zero

/-- Exact sum. -/
def sumExact (vs : List KVal) : KVal := vs.foldl (fun a v => (kAdd a v).v) KVal.zero

/-- W_m or G_m of one row group: fused steps in increasing k. -/
def fusedSum (as rs : List KVal) : KVal :=
  (as.zip rs).foldl (fun a x => round32 (kAdd a (kMul x.1 x.2).v).v) KVal.zero

/-- Whether |y - w| ≤ 2^-10 g + 2^-110 for finite values. -/
def within (y w g : KVal) : Bool :=
  let d := (kAdd y w.neg).v.abs
  let tol := (kAdd (g.scale (-10)) (.fin 1 (-110))).v
  !kLt tol d

/-- What a check found. -/
inductive Check | pass | skip | miss
  deriving DecidableEq, Repr

/-- The columns of each row group that hold outputs (R54, R72). -/
def rowGroups (ws : List Word64) : List (List Nat) :=
  let gc := arrGroupCols ws
  (List.range (ceilDiv (arrN ws) gc)).map (fun g => (List.range (min gc (arrN ws - g * gc))).map (fun i => g * gc + i))

/-- r_k, or u_k where `mag` is set, of one row group of a tile, k by k (R66, R72): exact sums, for K operands rounded once and
held as K32 codes. -/
def rowSums (ws : List Word64) (kt : Nat) (cols : List (List WReg)) (mag : Bool) (group : List Nat) : List Int :=
  (List.range kt).map (fun k =>
    let os := group.map (fun n => regOpnd (arrW ws) ((cols.getD n []).getD k {}))
    if (arrW ws).isInt then if mag then (os.map (fun o => (o.i.natAbs : Int))).sum else (os.map Opnd.i).sum
    else
      ((encodeK .k32 .nearest (sumExact (os.map (fun o => if mag then o.k.abs else o.k)))).code : Int))

/-- The row check of a MAC pass (R72 to R74): `w` is the tile that computed the row, `outs` its outputs in increasing n. -/
def macCheck (ws : List Word64) (w : WTile) (act : List (List Opnd)) (outs : List Acc) : Check :=
  let groups := (rowGroups ws).zipIdx
  if outs.any (fun (a : Acc) => a.f.nv || a.f.ovf) then .skip
  else if (arrA ws).isInt then
    let as := (act.flatten).map Opnd.i
    if outs.any (fun (a : Acc) => a.f.poison) then .skip
    else if (outs.map (fun (a : Acc) => signedOf 32 a.tile)).sum
        = (groups.map (fun g => ((as.zip (w.r.getD g.2 [])).map (fun x => x.1 * x.2)).sum)).sum
      then .pass else .miss
  else
    let ts := outs.map (fun (a : Acc) => decodeK .k32 a.tile)
    if ts.any (fun v => v.isNar || v.isInf) then .skip
    else
      let as := (act.flatten).map Opnd.k
      let k32 := fun (l : List (List Int)) (g : Nat) => (l.getD g []).map (fun c => decodeK .k32 c.toNat)
      let per := groups.map (fun g =>
        (fusedSum as (k32 w.r g.2), fusedSum (as.map KVal.abs) (k32 w.u g.2), sum32 (g.1.map (fun n => ts.getD n KVal.zero))))
      let x := sum32 (per.map (fun x => x.1))
      let g := sum32 (per.map (fun x => x.2.1))
      let y := sum32 (per.map (fun x => x.2.2))
      if [x, g, y].any (fun v => v.isNar || v.isInf) then .skip
      else if within y x g then .pass else .miss

/-! ### Comparison trees (R89 to R92) -/

/-- Whether an output ranks before another value in a mode. -/
def ranksBefore (mode : Nat) (int : Bool) (a b : Nat) : Bool :=
  if int then
    if mode = 4 then decide (signedOf 32 b < signedOf 32 a) else decide (signedOf 32 a < signedOf 32 b)
  else if mode = 4 then kLt (decodeK .k32 b) (decodeK .k32 a)
  else kLt (decodeK .k32 a) (decodeK .k32 b)

/-- An entry put at its rank, after those of equal value. -/
def rankIn (mode : Nat) (int : Bool) (e : TreeEntry) : List TreeEntry → List TreeEntry
  | [] => [e]
  | x :: r => if ranksBefore mode int e.value.toNat x.value.toNat then e :: x :: r else x :: rankIn mode int e r

/-- A completed output enters a tree (R91). -/
def treeEnter (mode : Nat) (int : Bool) (k : Nat) (t : Tree) (v : BankVal) : Tree :=
  let bad := v.tag || (!int && (decodeK .k32 v.value.toNat).isNar)
  if bad then { t with rowCount := t.rowCount + 1, excluded := t.excluded + 1 }
  else { t with rowCount := t.rowCount + 1,
                entries := (rankIn mode int ⟨v.value, t.rowCount⟩ t.entries).take k }

/-- The column record of a tree as 32-bit words (Table ARR-15). -/
def treeRecord (ws : List Word64) (t : Tree) : List Word32 :=
  let k := arrKm1 ws + 1
  [BitVec.ofNat 32 t.rowCount, BitVec.ofNat 32 t.excluded] ++ (List.range k).flatMap (fun i =>
    match t.entries[i]? with
    | some e => [e.value, BitVec.ofNat 32 e.row]
    | none => [BitVec.ofNat 32 (identityCode ws), 0xFFFFFFFF#32])

/-! ### Retirement and miss events (R76, R370, R372) -/

/-- A function applied to an array. -/
def updArray (s : State) (nn : Nat) (f : ArrayUnit → ArrayUnit) : State := { s with arrays := modifyAt s.arrays nn f }

/-- Arrays in service. -/
def inService (s : State) : Nat :=
  64 - ((List.range 64).filter (fun n => natBit n (objGet s Obj.arrayRetiredMap) || natBit n s.unretired)).length

/-- Descriptors that were issued to a retired pair complete with status 0x07 (R372). -/
def retireAll (s : State) (nn : Nat) : List Issued → State
  | [] => s
  | d :: r => retireAll (rejectDesc s d 7 nn) nn r

/-- Array Ann retired: map, journal, ALERT_N, and a service warning below 56 arrays; its banks and trees are lost
and the descriptors issued to the pair complete retired (R76, R94, R372). -/
def retireArray (s : State) (nn : Nat) : State :=
  if arrayRetired s nn then s
  else
    let fs := (s.arrays.getD nn {}).fifo ++ (s.vecs.getD nn {}).fifo
    let s := objBit s Obj.arrayRetiredMap nn true
    let s := journalAlert s .arrayRetired [nn]
    let s := if inService s < 56 then journalAlert s .serviceWarning [inService s] else s
    let s := updArray s nn (fun a => { a with fifo := [], retirePending := false, banks := [[], []], trees := [[], []],
                                              bankMeta := [none, none], handoff := [none, none], active := none,
                                              standby := none })
    let s := { s with vecs := modifyAt s.vecs nn (fun (u : VecUnit) => { u with fifo := [] }) }
    retireAll s nn fs

/-- A miss event: its time is kept with the two before it, and a third within 600 s of the first retires the array,
at the end of the descriptor in progress (R370, R372). -/
def missEvent (s : State) (nn : Nat) : State :=
  let s := objInc s Obj.arrayMissEvents
  let a := s.arrays.getD nn {}
  let times := (a.missTimes ++ [s.now]).drop ((a.missTimes.length + 1) - 3)
  let s := updArray s nn (fun a => { a with missTimes := times })
  if times.length = 3 ∧ s.now ≤ times.headD 0 + 600 * ms 1000 then
    if a.run.isSome || a.leaving.isSome then updArray s nn (fun a => { a with retirePending := true }) else retireArray s nn
  else s

/-! ### ARRAY_PASS -/

/-- The rejection status of an array descriptor, if any (R79, R96, R161). DESIGN CHOICE (log entry 17): a bank that no descriptor
has written since start-up, or that a checkpoint restore filled, has no last writer, and an accumulating metric descriptor is
accepted on it. -/
def arrReject (s : State) (nn q : Nat) (ws : List Word64) : Option Nat :=
  let a := s.arrays.getD nn {}
  let b := arrBank ws
  let meta_ := (a.bankMeta.getD b none)
  let accBad := arrMode ws != 0 && arrAcc ws && (match meta_ with
    | some x => x != { mode := arrMode ws, topK := arrTopK ws, k := arrKm1 ws + 1, fmt := arrAFmt ws }
    | none => false)
  let full := arrMode ws != 0 && arrTopK ws && arrAcc ws && (List.range (arrN ws)).any (fun n =>
    decide (0xFFFFFFFE < (smGetD (a.trees.getD b []) n {}).rowCount + arrM ws))
  if reservedSet ws arrReserved then some 1
  else if arrFormatBad ws then some 2
  else if arrShapeBad ws || accBad || full then some 3
  else if arrAddrBad ws || (arrRanges ws).any (rangeForeign s nn q) then some 4
  else none

/-- Stationary tile t of a descriptor as the standby registers hold it once loaded (R63, R66), with a copy of column c in column N
where a shadow column checks (R95). DEDUCED (log entry 17): a load takes its bytes at the moment it begins. -/
def loadTile (s : State) (nn : Nat) (d : Issued) (c t wait : Nat) : WTile :=
  let ws := d.words
  let kt := arrTileK ws t
  let col := fun n => (List.range kt).map (fun k => weightReg s nn ws t k n)
  let cols := (List.range (arrN ws)).map col ++ (if arrShadow ws then [col c] else [])
  { queue := d.queue, seq := d.seq, tile := t, cols := cols, wait := wait
    r := (rowGroups ws).map (rowSums ws kt cols false)
    u := (rowGroups ws).map (rowSums ws kt cols true) }

/-- The shadow cursor after a descriptor (R95). -/
def cursorAfter (a : ArrayUnit) (run : ArrayRun) : Nat :=
  let ws := run.d.words
  if arrMode ws != 0 && arrShadow ws then (a.shadow + 1) % arrN ws else a.shadow

/-- The column that the shadow column of a descriptor copies. DESIGN CHOICE (log entry 17): a cursor that a narrower descriptor
does not reach is taken modulo its N. -/
def shadowCol (cursor : Nat) (ws : List Word64) : Nat := cursor % arrN ws

/-- Whether a spill holds an array descriptor of its queue that uses its range (R163). -/
def holdsArray (s : State) (nn : Nat) (d : Issued) : Bool := spillHolds s nn d.queue (arrRanges d.words)

/-- Whether a descriptor's first weight load may begin: its wait holds, or a seam issued it early. The object that RippleSel names has
then reached its value, since the seam has opened (R145, R146). -/
def mayLoad (s : State) (d : Issued) : Bool := issuedReady s d || d.early

/-- The tile that loads behind pass `run.pass`: the descriptor's next, or in its last pass the first tile of the next descriptor
that waits for the array and may start (R64). -/
def nextTile (s : State) (nn : Nat) (run : ArrayRun) : Option WTile :=
  let a := s.arrays.getD nn {}
  let ws := run.d.words
  let t := run.pass + 1
  if t < arrTiles ws then some (loadTile s nn run.d run.c t (loadSteps ws t - arrM ws))
  else
    match a.fifo with
    | d :: _ =>
      if mayLoad s d && !holdsArray s nn d && !arrayRetired s nn && !a.retirePending && (arrReject s nn d.queue d.words).isNone then
        some (loadTile s nn d (shadowCol (cursorAfter a run) d.words) 0 (loadSteps d.words 0 - arrM ws))
      else none
    | [] => none

/-- Whether a tile in the standby registers is tile t of a descriptor. -/
def tileIs (w : WTile) (d : Issued) (t : Nat) : Bool := w.queue == d.queue && w.seq == d.seq && w.tile == t

/-- The standby registers where they hold the tile asked for, and else that tile loaded now. -/
def tileFor (s : State) (nn : Nat) (d : Issued) (c t : Nat) : WTile :=
  match (s.arrays.getD nn {}).standby with
  | some w => if tileIs w d t then w else loadTile s nn d c t 0
  | none => loadTile s nn d c t 0

/-- The swap that the first row of a pass carries: the standby registers become active, the steps waited for their load are
counted, and the load of the next tile begins (R64). -/
def swapTiles (s : State) (nn : Nat) (run : ArrayRun) : State :=
  let w := tileFor s nn run.d run.c run.pass
  let n := nextTile s nn run
  updArray (objAdd s Obj.arrayLoadWaitSteps w.wait) nn (fun a => { a with active := some w, standby := n })

/-- Tile t reloaded for a rerun, and after it the tile that was loading (R75). -/
def reloadTiles (s : State) (nn : Nat) (run : ArrayRun) : State :=
  let w := loadTile s nn run.d run.c run.pass 0
  let n := nextTile s nn run
  updArray s nn (fun a => { a with active := some w, standby := n })

/-- An array descriptor begins: its first tile is loaded unless it is loaded already (R64), and the trees of its columns are
cleared when it starts them (R89). -/
def beginArray (s : State) (nn : Nat) (d : Issued) : State :=
  let ws := d.words
  let a := s.arrays.getD nn {}
  let c := shadowCol a.shadow ws
  let w := tileFor s nn d c 0
  updArray s nn (fun a =>
    { a with
      run := some { d := d, c := c }
      standby := some w
      ranFrom := a.ranFrom.or (some s.now)
      trees := if arrTopK ws && !arrAcc ws then
          a.trees.set (arrBank ws) ((List.range (arrN ws)).foldl (fun ts n => smSet ts n {}) (a.trees.getD (arrBank ws) []))
        else a.trees })

/-- Whether row m of a run is committed after its last pass. -/
def rowFinal (run : ArrayRun) (m : Nat) : Bool :=
  run.pass + 1 == arrTiles run.d.words && decide (m < run.row) && !run.missed.contains m

/-- Whether every row of a run is committed and, for trees, entered. -/
def rowsDone (run : ArrayRun) : Bool :=
  let ws := run.d.words
  run.pass + 1 == arrTiles ws && run.row == arrM ws && run.missed.isEmpty && (!arrTopK ws || run.entered == arrM ws)

/-- Whether a run is complete: rows committed and, in a Final descriptor, handed over (R80). -/
def runOver (run : ArrayRun) : Bool := rowsDone run && (!arrFinal run.d.words || run.handed == arrM run.d.words)

/-- The exceptions of a whole tile (R109): every output's flags, and its value for the NaR count. -/
def tileResult (run : ArrayRun) (bank : SMap BankVal) : Result :=
  let ws := run.d.words
  let int := (arrA ws).isInt
  let r := (List.range (arrM ws)).foldl (fun r m => (List.range (arrN ws)).foldl (fun r n =>
    let v := smGetD bank (m * arrNt ws + n) ⟨0, false⟩
    addElem r (smGetD run.flags (m * 65536 + n) {}) (!int && (decodeK .k32 v.value.toNat).isNar)) r) run.res
  let lines := if arrFinal ws && !arrTopK ws && int then
      ((List.range (arrM ws)).map (fun m => ((List.range (ceilDiv (arrN ws) 16)).filter (fun l =>
        (List.range 16).any (fun i => decide (16 * l + i < arrN ws)
          && (smGetD bank (m * arrNt ws + 16 * l + i) ⟨0, false⟩).tag))).length)).sum
    else 0
  { r with poisonedLines := satAdd top32 r.poisonedLines lines }

/-- Whether the next descriptor may run beside one that still hands its bank over: all its rows are done, and the next uses the
other bank or the bank is no longer being handed over (R71). -/
def mayFollow (run : ArrayRun) (ws : List Word64) : Bool := rowsDone run && (runOver run || arrBank run.d.words != arrBank ws)

/-- The descriptor in progress gives the cells up and keeps its handoff and record: its exceptions are gathered from the bank,
and the shadow cursor moves on (R71, R95). -/
def leaveCells (s : State) (nn : Nat) (run : ArrayRun) : State :=
  updArray s nn (fun a =>
    { a with
      leaving := some { run with res := tileResult run (a.banks.getD (arrBank run.d.words) []) }
      shadow := cursorAfter a run
      run := none })

/-- The first issued descriptor of an array whose cells are free starts, or is rejected or completes retired. One issued early
waits for its own wait (R71, R77, R146). -/
def takeArray (s : State) (nn : Nat) (d : Issued) (r : List Issued) : State :=
  let s := updArray s nn (fun a => { a with fifo := r })
  if arrayRetired s nn then rejectDesc s d 7 nn
  else
    match arrReject s nn d.queue d.words with
    | some st => rejectDesc s d st nn
    | none => beginArray s nn d

/-- The first tile of a descriptor issued early is loaded into idle cells before its own wait holds (R146). -/
def preload (s : State) (nn : Nat) (d : Issued) (tst : List TstEvent) : State :=
  let a := s.arrays.getD nn {}
  let there := match a.standby with
    | some w => tileIs w d 0
    | none => false
  if !mayLoad s d || a.run.isSome || there || arrayRetired s nn || (arrReject s nn d.queue d.words).isSome then s
  else
    let s := applyTst s nn tst
    let w := loadTile s nn d (shadowCol a.shadow d.words) 0 0
    updArray s nn (fun a => { a with standby := some w })

/-- ARRAY_PASS: the first issued descriptor starts, after the one in progress where that one only hands its bank over or waits
for its record (R71). A pending retirement starts none (R76). -/
def arrayPass (s : State) (nn : Nat) (tst : List TstEvent) : State :=
  let a := s.arrays.getD nn {}
  match a.fifo with
  | [] => s
  | d :: r =>
    if a.retirePending || holdsArray s nn d then s
    else if !issuedReady s d then preload s nn d tst
    else
      match a.run with
      | none => takeArray (applyTst s nn tst) nn d r
      | some run =>
        if a.leaving.isNone && mayFollow run d.words then takeArray (leaveCells (applyTst s nn tst) nn run) nn d r else s

/-- ARRAY_PASS (R77). -/
def execArrayPass (nn : Nat) (tst : List TstEvent) (s : State) : Res := need (decide (nn < 64)) (arrayPass s nn tst)

/-! ### Rows -/

/-- A function applied to the run of an array. -/
def updRun (s : State) (nn : Nat) (f : ArrayRun → ArrayRun) : State :=
  updArray s nn (fun a => { a with run := a.run.map f })

/-- Outputs and their flags written into the bank as row m. -/
def commitOuts (ws : List Word64) (m : Nat) (int : Bool) : List Acc → Nat → SMap BankVal → SMap ElemFlags →
    SMap BankVal × SMap ElemFlags
  | [], _, b, f => (b, f)
  | a :: r, n, b, f =>
    let nar := !int && (decodeK .k32 a.code).isNar
    let tag := a.f.poison && (int || nar)
    let old := smGetD f (m * 65536 + n) {}
    let new : ElemFlags := { nv := old.nv || a.f.nv, ovf := old.ovf || a.f.ovf
                             narSeen := old.narSeen || a.f.narSeen
                             poison := old.poison || tag }
    commitOuts ws m int r (n + 1) (smSet b (m * arrNt ws + n) ⟨BitVec.ofNat 32 a.code, tag⟩)
      (if new = {} then f else smSet f (m * 65536 + n) new)

/-- The rows that have been committed in the last pass, in order, enter the trees (R91). `fuel` is at least the row
count. -/
def enterRows (s : State) (nn : Nat) : Nat → State
  | 0 => s
  | fuel + 1 =>
    match (s.arrays.getD nn {}).run with
    | none => s
    | some run =>
      let ws := run.d.words
      let m := run.entered
      if !arrTopK ws || run.pass + 1 != arrTiles ws || run.row ≤ m || run.missed.contains m then s
      else
        let a := s.arrays.getD nn {}
        let b := arrBank ws
        let int := (arrA ws).isInt
        let vals := (List.range (arrN ws)).map (fun n => smGetD (a.banks.getD b []) (m * arrNt ws + n) ⟨0, false⟩)
        let trees := (vals.zipIdx).foldl (fun ts x =>
          smSet ts x.2 (treeEnter (arrMode ws) int (arrKm1 ws + 1) (smGetD ts x.2 {}) x.1)) (a.trees.getD b [])
        let out := (vals.filter (fun v => v.tag || (!int && (decodeK .k32 v.value.toNat).isNar))).length
        let poisonOut := vals.any (fun v => v.tag)
        let s := updArray s nn (fun a => { a with trees := a.trees.set b trees })
        let s := objAdd s Obj.metricRowsExcluded out
        let s := updRun s nn (fun r =>
          { r with entered := r.entered + 1
                   res := { r.res with excluded := satAdd top32 r.res.excluded out
                                       narSeen := r.res.narSeen || (int && poisonOut) } })
        enterRows s nn fuel

/-- A row committed: its outputs in the bank, its flags, underflows and first invalid operation in the run. -/
def commitArrayRow (s : State) (nn m : Nat) (outs : List Acc) : State :=
  match (s.arrays.getD nn {}).run with
  | none => s
  | some run =>
    let ws := run.d.words
    let b := arrBank ws
    let int := (arrA ws).isInt
    let x := commitOuts ws m int outs 0 ((s.arrays.getD nn {}).banks.getD b []) run.flags
    let firsts := (outs.zipIdx).filterMap (fun y => y.1.first.map (fun k => (k, m, y.2)))
    let s := updArray s nn (fun a =>
      { a with
        banks := a.banks.set b x.1
        bankMeta := a.bankMeta.set b (some { mode := arrMode ws, topK := arrTopK ws, k := arrKm1 ws + 1,
                                             fmt := arrAFmt ws }) })
    let sats := (outs.map Acc.sat).sum
    let s := if arrMode ws = 0 then s else objAdd s Obj.metricSaturations sats
    updRun s nn (fun r =>
      { r with
        flags := x.2
        committed := r.committed + 1
        res := addUf { r.res with first := firsts.foldl firstOf r.res.first } (outs.map Acc.uf).sum })

/-- The weight registers that compute in an array. -/
def activeTile (s : State) (nn : Nat) : WTile := (s.arrays.getD nn {}).active.getD ⟨0, 0, 0, [], [], [], 0⟩

/-- The outputs of a row in the current pass, with the command's faults. -/
def rowOutputs (s : State) (nn : Nat) (run : ArrayRun) (m : Nat) (upset : List (Nat × Nat)) : List Acc :=
  let ws := run.d.words
  let act := actRow s nn ws run.pass m
  let bank := (s.arrays.getD nn {}).banks.getD (arrBank ws) []
  (List.range (arrN ws)).map (fun n =>
    outputOf ws run.pass (startVal ws run.pass bank m n) act (tileCol ws (activeTile s nn) run.pass n) n upset)

/-- Column N of a row in the current pass (R95): it accumulates by itself from pass to pass. DESIGN CHOICE (log entry 17): with
Accumulate it starts from the bank value of the column it copies, and its outputs are in no bank. -/
def shadowOutput (s : State) (nn : Nat) (run : ArrayRun) (m : Nat) (upset : List (Nat × Nat)) : Nat :=
  let ws := run.d.words
  let bank := (s.arrays.getD nn {}).banks.getD (arrBank ws) []
  let st := if run.pass = 0 then startVal ws 0 bank m run.c else ⟨BitVec.ofNat 32 (smGetD run.shadow m 0), false⟩
  (outputOf ws run.pass st (actRow s nn ws run.pass m) (tileCol ws (activeTile s nn) run.pass (arrN ws)) (arrN ws) upset).code

/-- Whether a descriptor computes a shadow column. -/
def hasShadow (ws : List Word64) : Bool := arrMode ws != 0 && arrShadow ws

/-- Column N's output of a committed row kept for the next pass. -/
def keepShadow (s : State) (nn : Nat) (run : ArrayRun) (m : Nat) (code : Nat) : State :=
  if hasShadow run.d.words then
    updArray s nn (fun a => { a with run := a.run.map (fun r => { r with shadow := smSet r.shadow m code }) })
  else s

/-- The check of a row (R73, R74, R95): the witness for MAC, the shadow column in the last pass of a metric mode. -/
def checkRow (s : State) (nn : Nat) (run : ArrayRun) (m : Nat) (outs : List Acc) (shadow : Nat) : Check :=
  let ws := run.d.words
  if arrMode ws = 0 then macCheck ws (activeTile s nn) (actRow s nn ws run.pass m) outs
  else if hasShadow ws && run.pass + 1 == arrTiles ws && ((outs[run.c]?).map Acc.code) != some shadow then .miss
  else .pass

/-- The counts a check adds: rows skipped, rows that a shadow column compared. -/
def countCheck (s : State) (run : ArrayRun) (c : Check) : State :=
  let ws := run.d.words
  let s := if arrMode ws = 0 ∧ c = .skip then objInc s Obj.witnessRowsSkipped else s
  if arrMode ws != 0 && arrShadow ws && run.pass + 1 == arrTiles ws then objInc s Obj.shadowChecks else s

/-- A failed check is a witness miss (R75). -/
def countMiss (s : State) (nn : Nat) : State :=
  updRun (objInc s Obj.witnessMisses) nn (fun r =>
    { r with res := { r.res with witness := true, missesDesc := r.res.missesDesc + 1 } })

/-- ARRAY_ROW_COMMIT: the next row of the current pass, or row 0 of the next pass once no missed row waits, is
computed, checked, and committed, skipped or missed (R62, R75). -/
def rowCommit (s : State) (nn : Nat) (upset : List (Nat × Nat)) : State :=
  match (s.arrays.getD nn {}).run with
  | none => s
  | some run =>
    let ws := run.d.words
    let done := decide (arrM ws ≤ run.row)
    if done && (!run.missed.isEmpty || run.pass + 1 == arrTiles ws) then s
    else
      let run := if done then { run with pass := run.pass + 1, row := 0 } else run
      let m := run.row
      let s := if m = 0 then swapTiles s nn run else s
      let outs := rowOutputs s nn run m upset
      let shadow := if hasShadow ws then shadowOutput s nn run m upset else 0
      let c := checkRow s nn run m outs shadow
      let s := updRun s nn (fun _ => { run with row := m + 1 })
      let s := countCheck s run c
      match c with
      | .miss => updRun (countMiss s nn) nn (fun r => { r with missed := r.missed ++ [m] })
      | _ => enterRows (commitArrayRow (keepShadow s nn run m shadow) nn m outs) nn (arrM ws)

/-- ARRAY_ROW_COMMIT (R62, R75). -/
def execArrayRowCommit (nn : Nat) (upset : List (Nat × Nat)) (s : State) : Res :=
  need (decide (nn < 64)) (rowCommit s nn upset)

/-- A row that missed twice: NaR in every column, or poisoned for integer pairs (R75). -/
def poisonOuts (int : Bool) (outs : List Acc) : List Acc :=
  outs.map (fun (a : Acc) =>
    { a with code := if int then a.code else (Fmt.k32).narCode
             f := { a.f with poison := true, narSeen := a.f.narSeen || !int } })

/-- WITNESS_RERUN_DONE: the first missed row of the pass has been recomputed and is checked again (R75). -/
def rerunDone (s : State) (nn : Nat) (upset : List (Nat × Nat)) : State :=
  match (s.arrays.getD nn {}).run with
  | none => s
  | some run =>
    match run.missed with
    | [] => s
    | m :: rest =>
      let ws := run.d.words
      let s := reloadTiles s nn run
      let outs := rowOutputs s nn run m upset
      let shadow := if hasShadow ws then shadowOutput s nn run m upset else 0
      let c := checkRow s nn run m outs shadow
      let s := keepShadow s nn run m shadow
      let s := updRun s nn (fun r => { r with missed := rest })
      let s := countCheck s run c
      match c with
      | .miss =>
        let s := objInc (countMiss s nn) Obj.witnessRowsPoisoned
        let s := updRun s nn (fun r =>
          { r with lost := r.lost ++ [m]
                   res := { r.res with poisoned := true, poisonedDesc := r.res.poisonedDesc + 1 } })
        enterRows (commitArrayRow s nn m (poisonOuts (arrA ws).isInt outs)) nn (arrM ws)
      | _ => enterRows (commitArrayRow s nn m outs) nn (arrM ws)

/-- WITNESS_RERUN_DONE (R75). -/
def execWitnessRerunDone (nn : Nat) (upset : List (Nat × Nat)) (s : State) : Res :=
  need (decide (nn < 64)) (rerunDone s nn upset)

/-! ### Handoff and completion -/

/-- The handoff with row m of the bank added; integer poison travels as a tag (R61, Table VEC-18). -/
def handRow (ws : List Word64) (bank : SMap BankVal) (m : Nat) (h : Handoff) : Handoff :=
  { h with vals := (List.range (arrN ws)).foldl (fun vs n =>
      let v := smGetD bank (m * arrNt ws + n) ⟨0, false⟩
      smSet vs (m * 65536 + n) { v with tag := v.tag && (arrA ws).isInt }) h.vals }

/-- The handoff of a TopK descriptor: row n is the column record of n as 32-bit words (R93). -/
def handTrees (ws : List Word64) (trees : SMap Tree) : Handoff :=
  { rows := arrN ws
    vals := (List.range (arrN ws)).foldl (fun vs n =>
      ((treeRecord ws (smGetD trees n {})).zipIdx).foldl (fun vs x => smSet vs (n * 65536 + x.2) ⟨x.1, false⟩) vs) [] }

/-- The next part of a Final descriptor's handoff, if one is ready: one committed row, or all column records of a TopK
descriptor; with how many rows have then been handed over (R62, R93). -/
def handPart (a : ArrayUnit) (run : ArrayRun) : Option (Handoff × Nat) :=
  let ws := run.d.words
  let b := arrBank ws
  if !arrFinal ws || run.handed == arrM ws then none
  else if arrTopK ws then
    if run.entered == arrM ws then some (handTrees ws (a.trees.getD b []), arrM ws) else none
  else if rowFinal run run.handed then
    let base : Handoff := if run.handed = 0 then { rows := arrM ws, vals := [] }
      else (a.handoff.getD b none).getD { rows := arrM ws, vals := [] }
    some (handRow ws (a.banks.getD b []) run.handed base, run.handed + 1)
  else none

/-- BANK_HANDOFF: the next part of the descriptor that gave the cells up, or else of the one in progress. -/
def handOff (s : State) (nn : Nat) : State :=
  let a := s.arrays.getD nn {}
  match a.leaving.or a.run with
  | none => s
  | some run =>
    match handPart a run with
    | none => s
    | some (h, k) =>
      updArray s nn (fun a =>
        let hs := a.handoff.set (arrBank run.d.words) (some h)
        match a.leaving with
        | some l => { a with handoff := hs, leaving := some { l with handed := k } }
        | none => { a with handoff := hs, run := a.run.map (fun (r : ArrayRun) => { r with handed := k }) })

/-- BANK_HANDOFF (R62, R93). -/
def execBankHandoff (nn : Nat) (s : State) : Res := need (decide (nn < 64)) (handOff s nn)

/-- When 10 us of running last ended, if an array stops now (R81). -/
def ranUntil (a : ArrayUnit) (now : Nat) : Option Nat :=
  match a.ranFrom with
  | some f => if f + us 10 ≤ now then some now else a.ranLast
  | none => a.ranLast

/-- The descriptor that completes next, if it is over, with its exceptions (R80). -/
def overRun (a : ArrayUnit) : Option (ArrayRun × Result) :=
  match a.leaving, a.run with
  | some l, _ => if runOver l then some (l, l.res) else none
  | none, some run =>
    if runOver run then some (run, tileResult run (a.banks.getD (arrBank run.d.words) [])) else none
  | none, none => none

/-- The array without the descriptor that has completed. -/
def clearRun (a : ArrayUnit) (now : Nat) : ArrayUnit :=
  match a.leaving, a.run with
  | some _, some _ => { a with leaving := none }
  | some _, none => { a with leaving := none, ranFrom := none, ranLast := ranUntil a now }
  | none, some run => { a with run := none, shadow := cursorAfter a run, ranFrom := none, ranLast := ranUntil a now }
  | none, none => a

/-- ARRAY_DESCRIPTOR_COMPLETE: record, signals and traps; the shadow cursor moves; then a miss event counts, and a pending
retirement takes effect once no descriptor is in progress (R80, R95, R109, R113, R370, R76). -/
def arrayDone (s : State) (nn : Nat) : State :=
  match overRun (s.arrays.getD nn {}) with
  | none => s
  | some (run, r) =>
    let ws := run.d.words
    let s := updArray s nn (fun a => clearRun a s.now)
    let s := completeDesc s { queue := run.d.queue, seq := run.d.seq, words := ws, inLayer := run.d.inLayer, status := 0,
                              op := 0x20, engine := nn, summary := summaryOf r, tileM := arrTileM ws, tileN := arrTileN ws,
                              body := recordBody r, traps := trapsOn run.d (arrTrapNV ws) (arrTrapOF ws) r }
    let s := if r.missesDesc = 0 then s else missEvent s nn
    let a := s.arrays.getD nn {}
    if a.retirePending && a.run.isNone && a.leaving.isNone then retireArray s nn else s

/-- ARRAY_DESCRIPTOR_COMPLETE (R80). -/
def execArrayDescriptorComplete (nn : Nat) (s : State) : Res := need (decide (nn < 64)) (arrayDone s nn)

end Sys2Proof.Machine
end

