-- ==== Sys2Proof/Machine/OptOps.lean ====
section
/-!
DEFINITION. The operations light shares (10): the rotor's holds and aborts (R220), lane recovery (R222), lines on demand (R226)
and the admission of lanes (R236, R237).
-/

namespace Sys2Proof.Machine

/-! ### Rotors -/

/-- Whether core 2 of the half of a fibre is restarting (R199, R222). -/
def core2Busy (s : State) (x : Nat) : Bool := (s.cores.getD (4 * halfIx (halfOf32 x) + 2) {}).st == 2

/-- Whether an out-fibre carries a version 1 link, whose rotor holds (R249). -/
def fibreV1 (s : State) (x : Nat) : Bool :=
  s.links.any (fun (l : Link) => l.bound && l.version == 1 && l.outLanes.any (fun (a : Lane) => a.fibre == x))

/-- Whether a fibre's rotor holds (R209, R220, R249). -/
def rotorHolds (s : State) (x : Nat) : Bool :=
  let l := laserAt s (laserOf x)
  (rotorOf s x).held || objGet s Obj.rotorEnable == 0 || l.dark || l.lostLines != 0 || fibreV1 s x || core2Busy s x

/-- A rotor step aborted: the copy on line g stops, the lane stays, g stays grey, and after 8 in a row the rotor holds
(R220). -/
def abortRotor (s : State) (x : Nat) : State :=
  let n := (rotorOf s x).aborts + 1
  let s := objInc (updRotor s x (fun r => { r with phase := 0, lane := none, aborts := n, held := r.held || decide (8 ≤ n) }))
    Obj.rotorAborts
  if n = 8 then journal s .rotorHeld [x] else s

/-- An abort of which the peer is told, for a step that had sent Propose (Table LNK-2). -/
def abortTold (s : State) (x : Nat) : State :=
  match (rotorOf s x).lane with
  | some (k, i) => abortRotor (sendCtl s k (.rotorAbort { own := true, idx := i })) x
  | none => abortRotor s x

/-- The next line after g that is not excluded, downwards and round (R215, R222). -/
def nextLine (s : State) (x : Nat) : Nat → Nat → Nat
  | 0, g => g
  | n + 1, g =>
    let a := if g = 0 then 16 else g - 1
    if (specOf s x a).lineState = 5 then nextLine s x n a else a

/-- Whether lane X on line a can move to line g without a break: both entries reach one peer in-fibre, the link has
Migration, and another of its lanes can carry Propose (R216, R235, R246). -/
def canMigrate (s : State) (x a g k : Nat) : Bool :=
  let ea := specOf s x a
  let eg := specOf s x g
  ea.valid && eg.valid && ea.chip == eg.chip && ea.inFibre == eg.inFibre && natBit 5 (linkOf s k).agreed
    && linkState s k != 3 && (linkOf s k).outLanes.any (fun (l : Lane) => laneUp l && !(l.fibre == x && l.line == a))

/-! ### Lane recovery (Table OPT-7) -/

/-- Steps 3 and 4 begin for a ring and its lane: the restricted sweep, or after loss of light the full sweep. -/
def startRecovery (s : State) (ring k : Nat) (outgoing : Bool) (lane : Nat) (full : Bool) : State :=
  let s := unlockRing s ring (fun g => { g with sweep := if full then 2 else 1, bad := 0 })
  if s.recovery.any (fun (r : Recovery) => r.ring == ring) then s
  else { s with recovery := s.recovery ++ [{ ring := ring, link := k, outgoing := outgoing, lane := lane }] }

/-- The ring of a lane at this end. -/
def laneRing (outgoing : Bool) (l : Lane) : Nat := if outgoing then modRing l.fibre l.line else dropRing l.fibre l.line

/-- A lane dropped from its link for good; a link without a lane in one direction ends (R227, R229). -/
def dropLane (s : State) (k : Nat) (outgoing : Bool) (lane : Lane) : State :=
  let s := { s with recovery := s.recovery.filter (fun (r : Recovery) => !(r.link == k && r.outgoing == outgoing && r.lane == lane.idx)) }
  let keep (ls : List Lane) : List Lane := ls.filter (fun (a : Lane) => a.idx != lane.idx)
  let s := updLink s k (fun l => if outgoing then { l with outLanes := keep l.outLanes } else { l with inLanes := keep l.inLanes })
  let s := if outgoing then
      updSpec s lane.fibre lane.line (fun e => { e with lineState := if e.lineState = 5 then 5 else 0, link := 0, lane := 0 })
    else { s with inGrant := s.inGrant.erase (17 * lane.fibre + lane.line) }
  let l := linkOf s k
  if (if outgoing then l.outLanes else l.inLanes).isEmpty then removeLink (handBack s k false) k else settleLink s k

/-- A ring retired after two full sweeps that failed in a row: its bit is set, its line is excluded, its lane is dropped
(R222). -/
def retireRing (s : State) (r : Nat) : State :=
  let outgoing := decide (r < 544)
  let fibre := ringFibre r
  let line := r % 17
  let s := unlockRing (setRingRetired s r true) r (fun g => { g with parked := true, sweep := 0 })
  let s := { s with recovery := s.recovery.filter (fun (x : Recovery) => x.ring != r) }
  let s := match findLane s outgoing fibre line with
    | some (k, lane) => dropLane s k outgoing lane
    | none => s
  let s := if outgoing then
      updSpec { s with reassign := if smGet s.reassign fibre = some line then smErase s.reassign fibre else s.reassign } fibre line
        (fun e => { e with lineState := 5, link := 0, lane := 0 })
    else { s with inGrant := s.inGrant.erase (17 * fibre + line) }
  journalAlert (journal s .lineExcluded [fibre, line]) .ringRetired [r]

/-! ### Lines on demand (R226, R227) -/

/-- Lit lines of an out-fibre. -/
def litLines (s : State) (x : Nat) : Nat := ((List.range 17).filter (fun j => isLit (specOf s x j))).length

/-- Lanes lit towards a chip, those on direct fibres and those being lit included. -/
def litTowards (s : State) (c : Nat) : Nat :=
  (s.specMap.filter (fun (e : MapEntry) => e.chip == c && (isLit e || e.lineState == 4))).length

/-- Whether a version 1 peer may be reached on a line of a fibre: an even line up to 14 of a Direct fibre (Table LNK-8). -/
def linesV1 (direct : Bool) (j : Nat) : Bool := direct && j % 2 == 0 && decide (j ≤ 14)

/-- Whether a line may be lit now towards its chip (R206, R208, R226, R237, Tables LNK-7 and LNK-8). -/
def lightable (s : State) (x j : Nat) : Bool :=
  let e := specOf s x j
  e.valid && e.lineState == 0 && (rotorOf s x).grey != j && lineUsable s x j && decide (litLines s x < 16)
    && (match linkTo s e.chip with
        | some k => decide ((linkOf s k).outLanes.length < 128)
        | none => (freeLink s).isSome)
    && !ringRetired s (modRing x j) && (smGet s.reassign x).isNone && (smGet s.skewHold (modRing x j)).isNone
    && !s.tapped.contains x && (smGetD s.peerVer e.chip 2 != 1 || linesV1 (isDirect s x) j)

/-- The order in which peers are served: decreasing Priority, then increasing PeerChip (R226). -/
def demandOrder (ds : List Demand) : List Demand :=
  sortBy (fun a b => decide (b.prio < a.prio) || (a.prio == b.prio && decide (a.chip < b.chip))) ds

/-- Lines that could be lit towards a chip, in index order. -/
def candidatesTo (s : State) (c : Nat) : List (Nat × Nat) :=
  (List.range 544).filterMap (fun i =>
    if (specOf s (i / 17) (i % 17)).chip == c && lightable s (i / 17) (i % 17) then some (i / 17, i % 17) else none)

/-- The chip towards which the agents light a line next: one to which a lane back is due (R230), else the first peer in order
whose demand is unmet and towards which a line can be lit (R226). -/
def servedFirst (s : State) : Option Nat :=
  (s.backDue.find? (fun c => !(candidatesTo s c).isEmpty)).or
    (((demandOrder s.demand).find? (fun (d : Demand) =>
      decide (litTowards s d.chip < d.lanes) && !(candidatesTo s d.chip).isEmpty)).map Demand.chip)

/-- LaneDemandUnmet: lanes demanded but not lit. -/
def demandUnmet (s : State) : Nat :=
  (s.demand.map (fun (d : Demand) =>
    d.lanes - (s.specMap.filter (fun (e : MapEntry) => e.chip == d.chip && isLit e)).length)).sum

/-- A line starts its reassignment: LineState 4, and LineRequest goes out (Table OPT-10 step 1). -/
def requestLine (s : State) (x j : Nat) : State :=
  let e := specOf s x j
  let s := updSpec s x j (fun e => { e with lineState := 4 })
  emit { s with reassign := smSet s.reassign x j, backDue := s.backDue.erase e.chip } (.lineRequest e.chip x j e.inFibre)

/-- Lit lines of routed fibres towards a chip, the highest index first. -/
def routedLit (s : State) (c : Nat) : List (Nat × Nat) :=
  ((List.range 544).filterMap (fun i =>
    if (specOf s (i / 17) (i % 17)).chip == c && isLit (specOf s (i / 17) (i % 17)) && !isDirect s (i / 17)
    then some (i / 17, i % 17) else none)).reverse

/-- Lines darkened while more lanes are lit towards a peer than its demand (R226). -/
def darkenSurplus (s : State) (d : Demand) : State :=
  let extra := (s.specMap.filter (fun (e : MapEntry) => e.chip == d.chip && isLit e)).length - d.lanes
  ((routedLit s d.chip).take extra).foldl (fun s l => darkenLine s l.1 l.2) s

/-- The surplus towards a chip darkened, if the list names it (R226). -/
def trimDemand (s : State) (c : Nat) : State :=
  match s.demand.find? (fun (d : Demand) => d.chip == c) with
  | some d => darkenSurplus s d
  | none => s

/-! ### Admission (R236, R237) -/

/-- The chip and out-fibre behind a line of an in-fibre, or the chip behind a line of an out-fibre. -/
def peerOn (s : State) (outgoing : Bool) (fibre line : Nat) : Option Nat :=
  if outgoing then
    let e := specOf s fibre line
    if e.valid then some e.chip else none
  else (smGet s.inPeer (17 * fibre + line)).map Prod.fst

/-- The LaneTag of the lane that a line of an out-fibre carries or would carry: a new lane takes the lowest free index of the
link to its peer, bound or about to be bound (R230, R232). -/
def outTag (s : State) (x j : Nat) : LaneTag :=
  match findLane s true x j with
  | some (k, lane) => tagOf k lane j
  | none =>
    let k := ((peerOn s true x j).bind (linkTo s)).getD ((freeLink s).getD 0)
    { outFibre := x, line := j, laneIndex := freeIdx (linkOf s k).outLanes, linkId := k }

/-- Whether an in-lane may be the one that a LaneTag names: the peer's link ID is that of its other lanes, and no other lane of the
link has the index. -/
def tagNew (s : State) (c : Nat) (t : LaneTag) : Bool :=
  let mine := match linkTo s c with
    | some k => (linkOf s k).inLanes
    | none => (s.strayIn.filter (fun (e : Nat × Lane) => e.1 == c)).map Prod.snd
  decide (t.laneIndex < 128) && mine.all (fun (a : Lane) => a.idx != t.laneIndex &&
    (match a.tag with
      | some u => u.linkId == t.linkId
      | none => true))

/-- Whether the LaneTag of training frames is the one expected on a line (R233): at the sender the lane's own; at the receiver the
peer's out-fibre, the line, and what the lane had before. -/
def tagFits (s : State) (outgoing : Bool) (fibre line : Nat) (t : LaneTag) : Bool :=
  if outgoing then t == outTag s fibre line
  else
    match findLane s false fibre line with
    | some (_, lane) => lane.tag == some t
    | none =>
      match smGet s.inPeer (17 * fibre + line) with
      | some (c, x) => t.outFibre == x && t.line == line && tagNew s c t
      | none => false

/-- The end of a training (R237): admitted, refused for skew alone, or failed in another way. -/
inductive Verdict
  | admitted
  | skewed
  | failed
  deriving DecidableEq, Repr

/-- How a training of a line ended. -/
def verdict (s : State) (outgoing : Bool) (fibre line : Nat) (t : TrainResult) : Verdict :=
  if !(t.lockOk && tagFits s outgoing fibre line t.tag && decide (t.serE6 ≤ 200)) then .failed
  else if 512 < t.skewNs then .skewed
  else .admitted

/-- A training: an out-lane sends training frames with its LaneTag; a receiver that reads another tag in them counts a wrong line
(R221, R236). -/
def runTraining (s : State) (outgoing : Bool) (fibre line : Nat) (t : TrainResult) : State :=
  if outgoing then emit s (.training fibre line (outTag s fibre line))
  else if t.lockOk && !tagFits s false fibre line t.tag then objInc s Obj.wrongLineEvents
  else s

/-- The ring of a line of a fibre. -/
def ringAt (outgoing : Bool) (fibre line : Nat) : Nat := if outgoing then modRing fibre line else dropRing fibre line

/-- A ring locked by a training that has admitted its lane. -/
def lockRing (s : State) (outgoing : Bool) (fibre line : Nat) : State :=
  let r := ringAt outgoing fibre line
  updRing { s with trainFails := s.trainFails.erase r } r
    (fun g => { g with locked := true, parked := false, bad := 0, fullFails := 0, sweep := 0, cwPos := 0, cwBad := false })

/-- A new out-lane joins the link to its peer, which is bound now if this is the first lane towards it; lanes above the peer's
demand are darkened (R226, R229, R230, R236). -/
def admitOut (s : State) (fibre line : Nat) (t : TrainResult) : State :=
  match peerOn s true fibre line with
  | none => s
  | some c =>
    if c = chip s then s
    else
      match bindLink s c (if smGetD s.peerVer c 2 = 1 then 1 else 2) with
      | (s', some k) =>
        let ls := (linkOf s' k).outLanes
        if 128 ≤ ls.length then s
        else
          let s := objPut (lockRing s' true fibre line) (Obj.linkRttNs + k) t.rttNs
          let s := { s with needDemand := s.needDemand.erase c }
          trimDemand (joinLane s k true { fibre := fibre, line := line, idx := freeIdx ls, why := 0 }) c
      | (_, none) => s

/-- A new in-lane: it joins a link that forms, waits for LaneJoin on a formed link, and waits for an ID where no lane towards its
peer is lit (R230, R236). -/
def admitIn (s : State) (fibre line : Nat) (t : TrainResult) : State :=
  match peerOn s false fibre line with
  | none => s
  | some c =>
    if c = chip s then s
    else
      let lane : Lane := { fibre := fibre, line := line, idx := t.tag.laneIndex, why := 0, tag := some t.tag }
      let s := lockRing { s with inGrant := s.inGrant.erase (17 * fibre + line) } false fibre line
      match linkTo s c with
      | none => { s with strayIn := s.strayIn ++ [(c, lane)] }
      | some k =>
        if 128 ≤ ((linkOf s k).inLanes ++ (linkOf s k).left).length then s
        else
          let s := updLink (objPut s (Obj.linkRttNs + k) t.rttNs) k (fun l =>
            { l with left := l.left.filter (fun (a : Lane) => a.idx != lane.idx && !(a.fibre == fibre && a.line == line)) })
          if (linkOf s k).nego ≠ 3 then joinLane s k false lane
          else
            match smGet (linkOf s k).joins lane.idx with
            | some q => joinLane (updLink s k (fun l => { l with joins := smErase l.joins lane.idx })) k false (joinedAt lane q)
            | none => updLink s k (fun l => { l with left := l.left ++ [lane] })

/-- A new lane admitted. -/
def admitNew (s : State) (outgoing : Bool) (fibre line : Nat) (t : TrainResult) : State :=
  if outgoing then admitOut s fibre line t else admitIn s fibre line t

/-- A line refused for skew: journalled, darkened, not tried again for 1 s (R237). -/
def refuseSkew (s : State) (outgoing : Bool) (fibre line : Nat) : State :=
  let s := journal s .laneSkew [boolNat outgoing, fibre, line]
  let s := { s with skewHold := smSet s.skewHold (ringAt outgoing fibre line) (s.now + ms 1000) }
  if outgoing then
    darkenLine { s with reassign := if smGet s.reassign fibre = some line then smErase s.reassign fibre else s.reassign } fibre line
  else
    let s := { s with inGrant := s.inGrant.erase (17 * fibre + line) }
    match findLane s false fibre line with
    | some (k, lane) => dropLane s k false lane
    | none => s

/-- A training that failed otherwise: once again, then the restricted sweep; a line granted to a peer is free again then (R237). -/
def failTraining (s : State) (outgoing : Bool) (fibre line : Nat) : State :=
  let r := ringAt outgoing fibre line
  match findLane s outgoing fibre line with
  | some (k, lane) =>
    if lane.tries = 0 then updLane s k outgoing lane.idx (fun a => { a with tries := 1 })
    else startRecovery (updLane s k outgoing lane.idx (fun a => { a with tries := 0, why := if a.why = 5 then 2 else a.why })) r k outgoing lane.idx false
  | none =>
    if s.trainFails.contains r then
      unlockRing { s with trainFails := s.trainFails.erase r,
                          inGrant := if outgoing then s.inGrant else s.inGrant.erase (17 * fibre + line) } r (fun g => { g with sweep := 1 })
    else { s with trainFails := s.trainFails ++ [r] }

end Sys2Proof.Machine
end

