-- ==== Sys2Proof/Machine/SnapOps.lean ====
section
/-!
DEFINITION. Snapshots (R434 to R437): the counters a snapshot holds, its cut, the marker flits it sends, the recordings on
the links, and its close.
-/

namespace Sys2Proof.Machine

/-! ### Counters (R431, R433, R437) -/

/-- A counter of the image: its key, and for a link's packets the class (0 request, 1 reply, 2 collective). -/
abbrev SnapKey := Nat × Option Nat

/-- Objects that clear when read and hold an extreme, not a count. -/
def holdsExtreme (k : Nat) : Bool :=
  k == Obj.supplyMinMv || k == Obj.paleLongestMs || k == Obj.memDimLongestUs

/-- The counters of one row of the object table: those that clear when read, the powered and lost time, and a link's
packets by class. -/
def rowCounters (r : ObjRow) : List SnapKey :=
  let ks := (List.range r.count).map (fun i => r.key + i)
  if r.key = Obj.linkTxPackets ∨ r.key = Obj.linkRxPackets then
    ks.flatMap (fun k => [(k, some 0), (k, some 1), (k, some 2)])
  else if (r.access == .rc && !holdsExtreme r.key) || r.key == Obj.poweredMs || r.key == Obj.progressLossMs then
    ks.map (fun k => (k, none))
  else []

/-- The counters of the image in increasing order: those of the Dictionary, with MON.FabAddrError of each half under index
0x8020. -/
def snapKeys : List SnapKey :=
  (objRows.filter (fun r => decide (r.key < 0x802000))).flatMap rowCounters
    ++ [(0x802001, none), (0x802002, none)]
    ++ (objRows.filter (fun r => decide (0x802000 ≤ r.key))).flatMap rowCounters

/-- Packets of all classes of a link. -/
def classSum (l : List Nat) : Nat := l.foldl (satAdd counterMax) 0

/-- The live value of a counter. -/
def counterNow (s : State) (k : SnapKey) : Nat :=
  if Obj.linkTxPackets ≤ k.1 ∧ k.1 < Obj.linkTxPackets + 64 then
    let t := (linkOf s (k.1 - Obj.linkTxPackets)).tx
    match k.2 with
    | some c => t.getD c 0
    | none => classSum t
  else if Obj.linkRxPackets ≤ k.1 ∧ k.1 < Obj.linkRxPackets + 64 then
    let t := (linkOf s (k.1 - Obj.linkRxPackets)).rx
    match k.2 with
    | some c => t.getD c 0
    | none => classSum t
  else if k.1 = Obj.poweredMs then (s.now - s.coldAt) / 1000000
  else if k.1 = Obj.progressLossMs then s.lossNs / 1000000
  else objGet s k.1

/-! ### Banks -/

/-- Shadow bank 0 or 1. -/
def snapBank (s : State) (b : Nat) : SnapBank := if b = 0 then s.obs.bank0 else s.obs.bank1

/-- A function applied to a shadow bank. -/
def updBank (s : State) (b : Nat) (f : SnapBank → SnapBank) : State :=
  if b = 0 then { s with obs := { s.obs with bank0 := f s.obs.bank0 } }
  else { s with obs := { s.obs with bank1 := f s.obs.bank1 } }

/-- Whether bank 1 holds the newer complete epoch. -/
def newerIsOne (s : State) : Bool :=
  s.obs.bank1.complete && (!s.obs.bank0.complete || decide (s.obs.bank0.cut < s.obs.bank1.cut))

/-- The bank that the next snapshot overwrites: the one with the older epoch (R434). -/
def olderBank (s : State) : Nat := if newerIsOne s then 0 else if s.obs.bank0.complete then 1 else 0

/-- Whether a bank holds an epoch, or the snapshot in progress uses it. -/
def epochTaken (s : State) (e : Nat) : Bool := s.obs.bank0.epoch == some e || s.obs.bank1.epoch == some e

/-! ### A snapshot (Table MON-2) -/

/-- Whether a link takes marker flits: Green, Yellow or Grey, with the Snapshot capability (R434). -/
def takesMarker (s : State) (k : Nat) : Bool :=
  (linkOf s k).bound && decide (linkState s k ≤ 2) && natBit 6 (linkOf s k).agreed

/-- Link k starts to record, and the marker flit goes out where the link takes one. -/
def markLink (e reach : Nat) (s : State) (k : Nat) : State :=
  if !(linkOf s k).bound then s
  else
    let s := updLink s k (fun l => { l with recEpoch := some e, recCount := [0, 0, 0, 0, 0, 0] })
    if takesMarker s k then sendCtl s k (.marker e reach) else s

/-- The values a snapshot copies. Half E's counters are copied as its status ring brings it the marker, over the router group
or the pilot link; with neither, what the image holds for them is left open (R22, R437; log entry 3). -/
def cutValues (s : State) : List Nat :=
  snapKeys.mapIdx (fun i k => if isHalfE k.1 && !pathE s then (Config.freeWord (s.free + i)).toNat else counterNow s k)

/-- A snapshot starts: every unit's counters are copied, and the routers pass the marker (steps 1 to 4). -/
def startSnap (s : State) (e reach origin : Nat) : State :=
  let b := olderBank s
  let vs := cutValues s
  let s := { s with free := if pathE s then s.free else s.free + vs.length }
  let s := updBank s b (fun _ =>
    { epoch := some e, origin := origin, cut := s.now - s.coldAt, incomplete := 0, values := vs,
      links := List.replicate 64 [0, 0, 0, 0, 0, 0], complete := false })
  let s := objPut { s with obs := { s.obs with current := some (e, reach, s.now), target := b } } Obj.snapshotState 1
  (List.range 64).foldl (markLink e reach) s

/-- A snapshot that a marker flit of a neighbour starts: the origin field of its image is left open (log entry 3). -/
def joinSnap (s : State) (e reach : Nat) : State :=
  startSnap (freeStep s) e (reach - 1) ((freeNow s).toNat % 2 ^ 14)

/-- The recording on a link ends: its record goes into the bank (R435). -/
def endRecord (s : State) (k : Nat) : State :=
  let l := linkOf s k
  updLink (updBank s s.obs.target (fun b => { b with links := b.links.set k l.recCount })) k
    (fun l => { l with recEpoch := none })

/-- A marker flit (R434 to R436). -/
def takeMarker (s : State) (k e reach : Nat) : State :=
  if (linkOf s k).recEpoch = some e then endRecord s k
  else if epochTaken s e then s
  else
    match s.obs.current with
    | some _ =>
      if s.obs.heldMarks.any (fun h => h.1 == e) then
        { s with obs := { s.obs with earlyMarks := s.obs.earlyMarks ++ [(e, k)] } }
      else if reach = 0 then s
      else { s with obs := { s.obs with heldMarks := s.obs.heldMarks ++ [(e, reach)], earlyMarks := s.obs.earlyMarks ++ [(e, k)] } }
    | none =>
      if reach = 0 then s
      else
        let s := joinSnap s e reach
        if (linkOf s k).recEpoch = some e then endRecord s k else s

/-- Whether every link's recording of an epoch has ended. -/
def recordsEnded (s : State) (e : Nat) : Bool := !s.links.any (fun (l : Link) => l.recEpoch == some e)

/-- The links whose recording of an epoch has not ended, as a mask. -/
def openRecords (s : State) (e : Nat) : Nat :=
  (s.links.zipIdx).foldl (fun m x => if x.1.recEpoch == some e then m + 2 ^ x.2 else m) 0

/-- The record a link holds so far, put into the bank of a snapshot that closes. -/
def closeRecords (s : State) (e : Nat) : State :=
  (List.range 64).foldl (fun s k => if (linkOf s k).recEpoch = some e then endRecord s k else s) s

/-- The snapshot of a held marker is taken; links whose markers came before are incomplete (R436). -/
def startHeld (s : State) : State :=
  match s.obs.heldMarks with
  | [] => s
  | (e, reach) :: r =>
    let early := (s.obs.earlyMarks.filter (fun x => x.1 == e)).map Prod.snd
    let s := { s with obs := { s.obs with heldMarks := r, earlyMarks := s.obs.earlyMarks.filter (fun x => x.1 != e) } }
    let s := joinSnap s e reach
    early.foldl (fun s k =>
      updBank (if (linkOf s k).recEpoch = some e then endRecord s k else s) s.obs.target
        (fun b => { b with incomplete := setNatBit k b.incomplete })) s

/-- The snapshot closes: unfinished links are marked, and it is complete (step 5). -/
def closeSnap (s : State) : State :=
  match s.obs.current with
  | none => s
  | some (e, _, t) =>
    if s.now < t + ms 10 ∧ !recordsEnded s e then s
    else
      let m := openRecords s e
      let s := closeRecords s e
      let s := updBank s s.obs.target (fun b => { b with complete := true, incomplete := Nat.lor b.incomplete m })
      let s := { s with obs := { s.obs with current := none } }
      let s := objInc (objPut (objPut s Obj.snapshotEpoch e) Obj.snapshotState 2) Obj.snapshotsTaken
      startHeld s

/-- A snapshot in progress and the shadow banks are given up (R436). -/
def dropSnaps (s : State) : State :=
  let was := s.obs.current.isSome
  let s := { s with obs := { s.obs with bank0 := {}, bank1 := {}, current := none, heldMarks := [], earlyMarks := [] },
                    links := s.links.map (fun (l : Link) => { l with recEpoch := none }) }
  if was then objPut s Obj.snapshotState 3 else s

/-! ### The images (R437) -/

/-- The image of a shadow bank; a bank without a complete snapshot gives none. -/
def snapImage (b : SnapBank) : Bytes :=
  if !b.complete then []
  else
    natLe 4 (b.epoch.getD 0) ++ natLe 2 (b.origin % 2 ^ 14) ++ natLe 2 0 ++ natLe 8 b.cut ++ natLe 8 b.incomplete
      ++ natLe 4 b.values.length ++ List.replicate 36 0
      ++ b.links.flatMap (fun r => r.flatMap (fun n => natLe 4 (min n top32))) ++ b.values.flatMap (natLe 8)

/-- SnapshotImage and SnapshotImagePrev. -/
def snapNew (s : State) : Bytes := snapImage (if newerIsOne s then s.obs.bank1 else s.obs.bank0)
def snapPrev (s : State) : Bytes := snapImage (if newerIsOne s then s.obs.bank0 else s.obs.bank1)

/-- SnapshotLayout. -/
def snapLayout : Bytes := snapKeys.flatMap (fun k => natLe 2 (k.1 / 256) ++ natLe 2 (k.1 % 256))

end Sys2Proof.Machine
end

