-- ==== Sys2Proof/Machine/CtlOps.lean ====
section
/-!
DEFINITION. What a control flit does at the end that receives it (Table LNK-2, R434), and the order in which flits are
received, acknowledged and delivered (R233, R234, R238).
-/

namespace Sys2Proof.Machine

/-! ### Negotiation (R246) -/

/-- Capability received: the agreed set is the AND, of which a version 1 link keeps bits 2 and 7 at most (Table LNK-8), another
EpochProto holds the link Grey, and CapabilityAck is sent. -/
def takeCapability (s : State) (k version caps proto : Nat) : State :=
  let l := linkOf s k
  if !l.bound || !(l.nego == 1 || l.nego == 2) then s
  else
    let v := if version = 1 then 1 else l.version
    let s := updLink s k (fun l => { l with version := v, agreed := Nat.land (capsOf v) caps % 256, nego := 2 })
    let s := if proto ≠ Config.epochProto then
        updLink (journal s .epochProtoDiffers [k, l.peer, Config.epochProto, proto]) k
          (fun l => { l with causes := if l.causes.contains 2 then l.causes else l.causes ++ [2] })
      else updLink s k (fun l => { l with causes := l.causes.erase 2 })
    sendCtl s k (.capabilityAck (linkOf s k).agreed)

/-- CapabilityAck received: negotiation ends, and the link enters the state it belongs in. -/
def takeCapabilityAck (s : State) (k agreed : Nat) : State :=
  let l := linkOf s k
  if !l.bound || !(l.nego == 1 || l.nego == 2) then s
  else
    tellJoins (settleLink (updLink s k (fun l =>
      { l with agreed := Nat.land (if l.nego = 1 then capsOf l.version else l.agreed) agreed, nego := 3 })) k) k

/-- A peer that forms a link again which this end still holds formed: the link is Dark here too and forms again, with FlitSeq from 0
(R243). -/
def peerReforms (s : State) (k : Nat) : State := startNego (goDark s k 3) k

/-! ### Rotor migration (R216, R217, R220) -/

/-- A lane of one direction of a link by its index. -/
def laneBy (s : State) (k : Nat) (outgoing : Bool) (idx : Nat) : Option Lane :=
  (if outgoing then (linkOf s k).outLanes else (linkOf s k).inLanes).find? (fun (l : Lane) => l.idx == idx)

/-- Propose received: with the copy on the new line found good, Accept is returned (Table OPT-6 step 5). -/
def takePropose (s : State) (k idx line : Nat) (copyOk : Bool) : State :=
  match laneBy s k false idx with
  | some lane =>
    if copyOk && lane.why == 0 && natBit 5 (linkOf s k).agreed && decide (line < 17) then
      sendCtl (updLane s k false idx (fun l => { l with moveTo := some line })) k (.accept idx)
    else s
  | none => s

/-- The out-fibre whose rotor waits for Accept for a lane. -/
def acceptFibre (s : State) (k idx : Nat) : Option Nat :=
  (List.range 32).find? (fun x => (rotorOf s x).phase == 3 && (rotorOf s x).lane == some (k, idx))

/-- Accept received: the switch flit, the first with the new Phase, leaves on both lines, and both ends move the lane at it; the
old line is next to turn grey (Table OPT-6 step 6). A lane that has left service is not moved (R220). -/
def takeAccept (s : State) (k idx : Nat) : State :=
  match acceptFibre s k idx, laneBy s k true idx with
  | some x, some lane =>
    if lane.why ≠ 0 then s
    else
    let g := (rotorOf s x).grey
    let s := slotFlit s k lane [lane.line, g] true (!lane.phase)
    let s := updLane s k true idx (fun l => { l with line := g, phase := !l.phase })
    let s := updSpec s x lane.line (fun e => { e with lineState := 2, link := 0, lane := 0 })
    let s := updSpec s x g (fun e => { e with lineState := 1, link := k, lane := idx })
    updRotor s x (fun r => { r with phase := 0, lane := none, aborts := 0 })
  | _, _ => s

/-- RotorAbort received: of a lane of the peer it ends the move this end accepted, of a lane of this end the step of its
rotor. -/
def takeAbort (s : State) (k : Nat) (r : LaneRef) : State :=
  if r.own then updLane s k false r.idx (fun l => { l with moveTo := none })
  else
    match acceptFibre s k r.idx with
    | some x => abortRotor s x
    | none => s

/-! ### Lanes (Table OPT-7 step 2, R236) -/

/-- LaneDown received: this end stops using the lane, and after a loss of lock or a wrong line it begins its part of the
recovery; a rotor step that was moving the lane is aborted (R220, R222, R223). -/
def takeDown (s : State) (k : Nat) (r : LaneRef) (cause : Nat) : State :=
  let outgoing := !r.own
  let why := if cause = 3 ∨ cause = 4 then cause else 2
  match laneBy s k outgoing r.idx with
  | some lane =>
    if !laneUp lane then s
    else
      let s := if outgoing && (rotorOf s lane.fibre).lane == some (k, r.idx) then abortRotor s lane.fibre else s
      let s := laneOut s k outgoing lane why false
      if why = 2 then startRecovery s (laneRing outgoing lane) k outgoing r.idx false else s
  | none => s

/-- LaneJoin received: an in-lane whose recovery here has ended takes flits from FlitSeq on, one whose recovery has not returns
when it ends; a lane that had left, or a new one that is trained, joins (R218, R222, R236). -/
def takeJoin (s : State) (k idx seq : Nat) : State :=
  match laneBy s k false idx with
  | some lane =>
    if lane.why = 0 then s
    else if lane.ready ∨ lane.why = 3 then settleLink (updLane s k false idx (fun a => joinedAt a seq)) k
    else updLane s k false idx (fun a => { a with joinAt := some seq })
  | none =>
    match (linkOf s k).left.find? (fun (l : Lane) => l.idx == idx) with
    | some lane =>
      let s := updLink s k (fun l => { l with left := l.left.filter (fun (a : Lane) => a.idx != idx) })
      if (findLane s false lane.fibre lane.line).isSome then s else joinLane s k false (joinedAt lane seq)
    | none => if (linkOf s k).nego = 3 then updLink s k (fun l => { l with joins := smSet l.joins idx seq }) else s

/-- An in-lane off its link at the boundary of a LaneLeave. -/
def leaveLane (s : State) (k : Nat) (lane : Lane) : State :=
  dropLane (updLink s k (fun l => { l with left := l.left ++ [lane] })) k false lane

/-- Whether FlitSeq a comes before b, modulo 2^20. -/
def flitBefore (a b : Nat) : Bool := a != b && decide ((b + 2 ^ 20 - a % 2 ^ 20) % 2 ^ 20 < 2 ^ 19)

/-- LaneLeave received: the in-lane carries no flit from FlitSeq on, and leaves once every flit before it is delivered. -/
def takeLeave (s : State) (k idx seq : Nat) : State :=
  match laneBy s k false idx with
  | some lane =>
    if flitBefore (linkOf s k).rxNext seq then updLane s k false idx (fun a => { a with leaveAt := some seq })
    else leaveLane s k lane
  | none => s

/-- In-lanes whose boundary the delivered flits have reached leave their link. -/
def finishLeaves (s : State) (k : Nat) : State :=
  ((linkOf s k).inLanes.filter (fun (a : Lane) => match a.leaveAt with
    | some q => !flitBefore (linkOf s k).rxNext q
    | none => false)).foldl (fun s (a : Lane) => leaveLane s k a) s

/-- GreyNotice received (Table LNK-7); cause 0 lifts it. -/
def takeGrey (s : State) (k cause : Nat) : State :=
  if (linkOf s k).bound && (linkOf s k).nego == 3 then setCause s k 5 (cause != 0) else s

/-- A control flit at its receiver. The copy of a proposed move is good when this end's ring on the new line is locked. -/
def takeCtl (s : State) (k : Nat) : Ctl → State
  | .capability v c p => takeCapability s k v c p
  | .capabilityAck a => takeCapabilityAck s k a
  | .propose i _ to_ =>
    takePropose s k i to_ (match laneBy s k false i with
      | some lane => (ringOf s (dropRing lane.fibre to_)).locked
      | none => false)
  | .accept i => takeAccept s k i
  | .rotorAbort r => takeAbort s k r
  | .laneDown r c => takeDown s k r c
  | .laneJoin i q => takeJoin s k i q
  | .laneLeave i q => takeLeave s k i q
  | .greyNotice c => takeGrey s k c
  | .marker e r => takeMarker s k e r

/-! ### Receiving flits (R233, R234, R238) -/

/-- The class a packet is counted under: 0 request, 1 reply, 2 collective; none for VC0. -/
def countClass (vc : Nat) : Option Nat :=
  if vc = 0 ∨ 9 < vc then none else if vc < 4 then some 0 else if vc < 7 then some 1 else some 2

/-- A packet counted as delivered, and recorded for a snapshot in progress (R433, R435). -/
def countRx (s : State) (k : Nat) (p : Packet) : State :=
  match countClass p.vc with
  | none => s
  | some c =>
    updLink s k (fun l =>
      { l with
        rx := l.rx.modify c (satAdd counterMax 1)
        recCount := if l.recEpoch.isSome then (l.recCount.modify (2 * c) (satAdd top32 1)).modify (2 * c + 1) (satAdd top32 (4 * p.len))
                    else l.recCount })

/-- A packet delivered to the router of the half it came into; a Grey link drops all but VC0 and returns their credits, and a
link that is not formed carries nothing (R234, R241, R242, Table LNK-8). -/
def deliverPacket (s : State) (k x : Nat) (p : Packet) : State :=
  if linkState s k = 2 ∧ p.vc ≠ 0 then oweCredit (objInc s Obj.greyDrops) k p
  else if linkState s k = 3 then oweCredit s k p
  else
    let p := if (linkOf s k).version = 1 then { p with epoch := objGet s Obj.routeEpochActive } else p
    inject (noteOld (countRx s k p) p) (halfOf32 x) p (some k)

/-- The body of a flit delivered. -/
def deliverBody (s : State) (k x : Nat) : FlitBody → State
  | .packets ps => ps.foldl (fun s p => deliverPacket s k x p) s
  | .control c => takeCtl s k c
  | .begins _ => s
  | .idle => s
  | .training => s

/-- Flits delivered in FlitSeq order as far as they are held. -/
def deliverRun (s : State) (k x : Nat) : Nat → State
  | 0 => s
  | n + 1 =>
    let l := linkOf s k
    match smGet l.rxHeld l.rxNext with
    | none => s
    | some b =>
      let s := updLink s k (fun l => { l with rxHeld := smErase l.rxHeld l.rxNext, rxNext := (l.rxNext + 1) % 2 ^ 20 })
      deliverRun (deliverBody s k x b) k x n

/-- When each in-lane first delivered a flit later than the one that is missing. -/
def noteLater (s : State) (k : Nat) : State :=
  updLink s k (fun l =>
    { l with inLanes := l.inLanes.map (fun (a : Lane) =>
        match a.last with
        | some q => { a with later := if flitBefore l.rxNext q then a.later.or (some s.now) else none }
        | none => a) })

/-- NakSeq set for a flit. -/
def askAgain (s : State) (k seq : Nat) : State :=
  updLink s k (fun l => { l with nak := some seq, asked := some (seq, s.now) })

/-- Whether a flit was requested again so lately that it may still be on its way. -/
def askedLately (s : State) (k seq : Nat) : Bool :=
  match (linkOf s k).asked with
  | some (q, t) => q == seq && decide (s.now < t + objGet s (Obj.linkRttNs + k) + us 1)
  | none => false

/-- NakSeq set for a flit that is missing once every lane has delivered a later one and the skew bound of 512 ns has
passed (R238). -/
def nakMissing (s : State) (k : Nat) : State :=
  let l := linkOf s k
  let up := l.inLanes.filter laneUp
  if l.nak.isNone && !up.isEmpty && !askedLately s k l.rxNext && up.all (fun (a : Lane) => match a.later with
      | some t => decide (t + 512 ≤ s.now)
      | none => false)
  then askAgain s k l.rxNext
  else s

/-- A flit this end is asked to send again: it is queued on the lane with the fewest flits queued that may carry it (R238). -/
def resendFlit (s : State) (k seq : Nat) : State :=
  let l := linkOf s k
  match l.unacked.find? (fun (u : Unacked) => u.seq == seq && decide (u.sends < 16)) with
  | none => s
  | some u =>
    match laneFor l u.body with
    | none => s
    | some i =>
      objInc (updLink s k (fun l =>
        { enqueue l i seq with
          unacked := l.unacked.map (fun (u : Unacked) => if u.seq = seq then { u with sends := u.sends + 1, at_ := s.now } else u) }))
        Obj.flitRetries

/-- The acknowledgement, request and credits that a flit's header returns; control flits that waited for the window go out
(Table LNK-1, R238, R254). -/
def takeHeader (s : State) (k : Nat) (f : Flit) : State :=
  let s := updLink s k (fun l =>
    { l with
      lastRx := s.now
      unacked := l.unacked.filter (fun (u : Unacked) => !flitBefore u.seq f.ackSeq)
      occ := if f.creditVC < 10 then l.occ.modify f.creditVC (fun n => n - f.creditCount) else l.occ })
  let s := drainCtl s k (linkOf s k).waitCtl.length
  match f.nak with
  | some n => resendFlit s k n
  | none => s

/-- A flit accepted from an in-lane: its header acts and its body is delivered in its turn. -/
def acceptFlit (s : State) (k idx x : Nat) (f : Flit) : State :=
  let s := updLane s k false idx (fun a => { a with last := some f.flitSeq })
  let s := updLink s k (fun l =>
    { l with rxHeld := smSet l.rxHeld f.flitSeq f.body, nak := if l.nak = some f.flitSeq then none else l.nak })
  let s := takeHeader s k f
  finishLeaves (nakMissing (noteLater (deliverRun s k x ((linkOf s k).rxHeld.length)) k) k) k

/-- An idle flit: it takes no FlitSeq of its own and says that its lane has carried every flit before the one it names (R233; log
entry 22). -/
def takeIdle (s : State) (k idx : Nat) (f : Flit) : State :=
  let s := updLane s k false idx (fun a => { a with last := some ((f.flitSeq + 2 ^ 20 - 1) % 2 ^ 20) })
  nakMissing (noteLater (takeHeader s k f) k) k

/-- Whether a flit is the Capability of a peer that forms the link again while this end still holds it formed: the first of a new
numbering, after the silence of a Dark link (R233, R241, R243). -/
def reforming (s : State) (k : Nat) (f : Flit) : Bool :=
  let l := linkOf s k
  (match f.body with
    | .control (.capability _ _ _) => true
    | _ => false) && f.flitSeq == 0 && l.nego == 3 && decide (l.lastRx + ms 1 ≤ s.now)

/-- The checks of R233 on a flit of an in-lane: CRC, LaneTag, duplicate. `lane` is the lane as this flit finds it. -/
def checkFlit (s : State) (k x : Nat) (lane : Lane) (f : Flit) : State :=
  if !f.crcOk then askAgain s k f.flitSeq
  else if lane.tag ≠ some f.tag then
    let s := askAgain (objInc s Obj.wrongLineEvents) k f.flitSeq
    let s := if lane.moveTo.isSome then
        sendCtl (updLane s k false lane.idx (fun a => { a with moveTo := none })) k (.rotorAbort { own := false, idx := lane.idx })
      else s
    startRecovery (laneOut s k false lane 2 true) (dropRing x lane.line) k false lane.idx false
  else
    let s := if reforming s k f then peerReforms s k else s
    match f.body with
    | .idle => takeIdle s k lane.idx f
    | .training => s
    | .begins _ | .packets _ | .control _ =>
      if flitBefore f.flitSeq (linkOf s k).rxNext || (smGet (linkOf s k).rxHeld f.flitSeq).isSome then objInc s Obj.flitDuplicates
      else acceptFlit s k lane.idx x f

/-- The in-lane that waits to move to a line of an in-fibre (R217). -/
def movingTo (s : State) (x j : Nat) : Option (Nat × Lane) :=
  (s.links.zipIdx).findSome? (fun e =>
    (e.1.inLanes.find? (fun (l : Lane) => l.fibre == x && l.moveTo == some j)).map (fun l => (e.2, l)))

/-! ### Codewords (R231, R244) -/

/-- Four codewords carry five flits: the codeword a flit begins in its group's order, none of its own for the fifth, and the one it
shares with the flit before fail it (R231). -/
def codewordBad (g : Ring) (uncorrectable : Nat) : Bool :=
  (g.cwPos != 4 && uncorrectable != 0) || (g.cwPos != 0 && g.cwBad)

/-- The place in the group moved on by one flit. -/
def nextCodeword (g : Ring) (uncorrectable : Nat) : Ring :=
  { g with cwPos := (g.cwPos + 1) % 5, cwBad := g.cwPos != 4 && uncorrectable != 0 }

/-- A lane's errors noted: an uncorrectable codeword holds at least 9 symbol errors, one more than it can correct (log entry 22). -/
def noteErrors (now : Nat) (f : Flit) (a : Lane) : Lane :=
  let errs := f.corrected + 9 * f.uncorrectable
  let bad := a.badAt ++ List.replicate f.uncorrectable now
  let a := { a with badAt := bad.drop (bad.length - 8) }
  if now < a.serFrom + ms 10 then { a with serNow := a.serNow + errs }
  else if now < a.serFrom + ms 20 then { a with serFrom := a.serFrom + ms 10, serLast := a.serNow, serNow := errs }
  else { a with serFrom := now, serLast := 0, serNow := errs }

/-- Whether a lane leaves service for errors: 8 uncorrectable codewords within 1 ms, or a symbol error ratio above 2 × 10^-4 over
10 ms, which are 136,000,000 symbols of 10 bits at 136 Gb/s (R231, R244). -/
def tooManyErrors (a : Lane) : Bool :=
  (a.badAt.length == 8 && decide (a.badAt.getLastD 0 ≤ a.badAt.headD 0 + ms 1)) || decide (27200 < max a.serNow a.serLast)

/-- A flit received on line j of in-fibre x. The copy of a moving lane on the new line counts only from the first flit with
the new Phase on; then the lane has moved (R217, R235). -/
def takeFlit (s : State) (x j : Nat) (f : Flit) : State :=
  let s := islandEvent (islandEvent s (.facet (x / 8)) Obj.fecUncorrectable f.uncorrectable) (.facet (x / 8)) Obj.fecCorrectedSymbols f.corrected
  let g := ringOf s (dropRing x j)
  let f' := { f with crcOk := f.crcOk && !codewordBad g f.uncorrectable }
  let s := updRing s (dropRing x j) (fun g => nextCodeword g f.uncorrectable)
  match findLane s false x j with
  | some (k, lane) =>
    if (linkOf s k).nego = 0 ∨ lane.why ≠ 0 then s
    else
      let s := updLane s k false lane.idx (noteErrors s.now f)
      if lane.moveTo.isSome ∧ f'.crcOk ∧ f'.phase ≠ lane.phase then s else checkFlit s k x lane f'
  | none =>
    match movingTo s x j with
    | some (k, lane) =>
      if (linkOf s k).nego = 0 ∨ lane.why ≠ 0 ∨ !f'.crcOk ∨ f'.phase = lane.phase then s
      else
        let new : Lane :=
          { lane with line := j, phase := f'.phase, moveTo := none, tag := lane.tag.map (fun t => { t with line := j }) }
        checkFlit (updLane s k false lane.idx (fun _ => new)) k x new f'
    | none => s

end Sys2Proof.Machine
end

