-- ==== Sys2Proof/Machine/FabOps.lean ====
section
/-!
DEFINITION. Memory operations at their target (13): atomics (Table FAB-4, R277, R285), loads, stores and signals of a
Local offset as the fabric makes them (R276, R279).
-/

namespace Sys2Proof.Machine

/-- Status codes of Table FAB-5. -/
abbrev fabAddress : Nat := 0x20
abbrev fabNoRoute : Nat := 0x21
abbrev fabShort : Nat := 0x22
abbrev fabUnknown : Nat := 0x23
abbrev fabNotReady : Nat := 0x24
abbrev fabNoWindow : Nat := 0x25
abbrev fabTimeout : Nat := 0x26

/-- The new value of a word of w bits (Table FAB-4). -/
def atomNew (w op old a b : Nat) : Nat :=
  let sg (n : Nat) : Int := signedOf w n
  let a := a % 2 ^ w
  let b := b % 2 ^ w
  match op with
  | 0 => (old + a) % 2 ^ w
  | 1 => if sg a < sg old then a else old
  | 2 => min old a
  | 3 => if sg old < sg a then a else old
  | 4 => max old a
  | 5 => a
  | 6 => if old = a then b else old
  | 7 => (encodeK .k32 .nearest (kAdd (decodeK .k32 old) (decodeK .k32 a)).v).code
  | _ => old

/-- Whether a form is one of Table FAB-4 on a naturally aligned word of LPDDR or the tile store, or the 64-bit ADD that
R194 allows on a synchronisation object. -/
def atomicForm (s : State) (off op : Nat) (w64 : Bool) : Bool :=
  let n := if w64 then 8 else 4
  decide (off % n = 0) && (decide (op ≤ 6) || (op == 7 && !w64))
    && (match regionOf s off with
      | .lpddr | .tile => true
      | .sync => w64 && op == 0
      | _ => false)

/-- The admission path of an offset: its channel, or 64 on for its slice; none outside LPDDR and the tile store (R285). -/
def admitUnit (s : State) (off : Nat) : Option Nat :=
  match regionOf s off with
  | .lpddr => some (channelOf s off)
  | .tile => some (64 + (off - tileBase) / sliceSize)
  | _ => none

/-- Whether the path of an offset has admitted a store or atomic within the last 2 ns (R285). -/
def admitLate (s : State) (off : Nat) : Bool :=
  ((admitUnit s off).bind (smGet s.admits)).any (fun t => decide (s.now < t + 2))

/-- A store or atomic admitted (R285). -/
def noteAdmit (s : State) (off : Nat) : State :=
  match admitUnit s off with
  | some u => { s with admits := smSet s.admits u s.now }
  | none => s

/-- The word is held in the atomic unit of its channel or slice: one already there combines, and the oldest of 64 gives up
its place (R285). -/
def holdWord (s : State) (off : Nat) : State :=
  if s.atoms.any (fun (x : HeldWord) => x.addr == off) then
    objInc { s with atoms := s.atoms.map (fun (x : HeldWord) => if x.addr = off then { x with last := s.now } else x) } Obj.atomicCombines
  else
    let mine := s.atoms.filter (fun (x : HeldWord) => admitUnit s x.addr == admitUnit s off)
    let kept := if mine.length < 64 then s.atoms else
      match mine with
      | x :: _ => s.atoms.erase x
      | [] => s.atoms
    { s with atoms := kept ++ [{ addr := off, last := s.now }] }

/-- What an atomic at an offset gives: state, status, old value, poison. -/
structure AtomRes where
  st : State
  status : Nat := 0
  old : Nat := 0
  poison : Bool := false
  deriving DecidableEq, Repr

/-- An atomic applied at its offset (R276, R277). On a poisoned line nothing is applied and the old value is left open. -/
def atomicAt (s : State) (off op : Nat) (w64 : Bool) (a b : Nat) : AtomRes :=
  if !atomicForm s off op w64 then
    { st := if regionOf s off = .reserved then countAddrError s off else s, status := fabAddress }
  else if regionOf s off = .sync then
    let o := (off - syncBase) / 8
    { st := syncAdd s o a, old := (syncGet s o).toNat }
  else if linePoison s off then
    { st := freeStep s, old := (freeNow s).toNat % 2 ^ (if w64 then 64 else 32), poison := true }
  else
    let n := if w64 then 8 else 4
    let old := leNat (rawBytes s off n)
    { st := holdWord (writeBytes s off (natLe n (atomNew (8 * n) op old a b)) false) off, old := old }

/-- A word of the unit touched by a store keeps its place (R285). -/
def touchWord (s : State) (line : Nat) : State :=
  { s with atoms := s.atoms.map (fun (x : HeldWord) => if x.addr / 64 = line / 64 then { x with last := s.now } else x) }

/-- The bytes and line poison of a load of n bytes, or an address error (R276). -/
def loadAt (s : State) (off n : Nat) : Option (Bytes × Nat) :=
  if n = 0 ∨ 256 < n ∨ 256 < off % 256 + n then none
  else
    match regionOf s off with
    | .lpddr | .tile =>
      if plainRun s off n then
        some (readBytes s off n, ((linesOf off n).zipIdx).foldl (fun m x => if linePoison s x.1 then m + 2 ^ x.2 else m) 0)
      else none
    | .sync => if n = 8 ∧ off % 8 = 0 then some (natLe 8 (syncGet s ((off - syncBase) / 8)).toNat, 0) else none
    | _ => none

end Sys2Proof.Machine
end

