-- ==== Sys2Proof/Machine/Bounded.lean ====
section
/-!
DEFINITION. The exact values of the vector operations that Table VEC-14 bounds by an error in ulps, and which codes lie within
their bounds (R103). A value is carried as an integer over 2^384, far beyond the width at which an ulp of K32 is told apart
(DEDUCED, log entry 8).
-/

namespace Sys2Proof.Machine

/-- Fractional bits of the numbers below. -/
def fxBits : Nat := 384

/-- 1. -/
def fxOne : Int := 2 ^ fxBits

/-- m × 2^e. -/
def fxOf (m e : Int) : Int :=
  if 0 ≤ e + fxBits then m * 2 ^ (e + fxBits).toNat else m / 2 ^ (-(e + fxBits)).toNat

/-- Product, quotient, and a number shifted by k places. -/
def fxMul (a b : Int) : Int := a * b / fxOne
def fxDiv (a b : Int) : Int := a * fxOne / b
def fxShift (a k : Int) : Int := if 0 ≤ k then a * 2 ^ k.toNat else a / 2 ^ (-k).toNat

/-- The sum of a series whose term i + 1 is `next` of term i; `n` terms beyond the first. -/
def fxSeries (next : Nat → Int → Int) (first : Int) (n : Nat) : Int :=
  ((List.range n).foldl (fun (x : Int × Int) i => let t := next i x.1; (t, x.2 + t)) (first, first)).2

/-- The inverse hyperbolic tangent and, with alternating signs, the inverse tangent of a number of magnitude below 1/2. -/
def fxAtanh (z : Int) : Int :=
  let sq := fxMul z z
  ((List.range 200).foldl (fun (x : Int × Int) i => (fxMul x.1 sq, x.2 + x.1 / (2 * i + 1 : Nat))) (z, 0)).2
def fxAtan (z : Int) : Int :=
  let sq := fxMul z z
  ((List.range 200).foldl (fun (x : Int × Int) i => (-(fxMul x.1 sq), x.2 + x.1 / (2 * i + 1 : Nat))) (z, 0)).2

/-- ln 2 and 2π. -/
def fxLn2 : Int := 2 * fxAtanh (fxOne / 3)
def fxTwoPi : Int := 32 * fxAtan (fxOne / 5) - 8 * fxAtan (fxOne / 239)

/-- The nearest integer. -/
def fxRound (a b : Int) : Int := (2 * a + b) / (2 * b)

/-- e^r for |r| ≤ 1. -/
def fxExpSmall (r : Int) : Int := fxSeries (fun i t => fxMul t r / (i + 1 : Nat)) fxOne 110

/-- e^x for a magnitude up to some hundreds. -/
def fxExp (x : Int) : Int :=
  let k := fxRound x fxLn2
  fxShift (fxExpSmall (x - k * fxLn2)) k

/-- ln of m × 2^e, m > 0: the number's place in its binade and its power of 2. -/
def fxLn (m : Nat) (e : Int) : Int :=
  let k : Int := Nat.log2 m + e
  let f := fxOf m (e - k)
  2 * fxAtanh (fxDiv (f - fxOne) (f + fxOne)) + k * fxLn2

/-- A number as a K value, and one too small in magnitude for any format, with its sign. -/
def fxVal (x : Int) : KVal := .fin x (-(fxBits : Int))
def fxTiny (neg : Bool) : KVal := .fin (if neg then -1 else 1) (-200)

/-- tanh: beyond ±64 it lies closer to ±1 than any ulp tells. -/
def fxTanh (x : Int) : Int :=
  if 64 * fxOne < x then fxOne - 1
  else if x < -(64 * fxOne) then 1 - fxOne
  else
    let d := fxExp (2 * x)
    fxDiv (d - fxOne) (d + fxOne)

/-- 1 ÷ (1 + e^−x). -/
def fxSigmoid (x : Int) : KVal :=
  if 128 * fxOne < x then fxVal (fxOne - 1)
  else if x < -(128 * fxOne) then fxTiny false
  else
    let d := fxExp x
    fxVal (fxDiv d (fxOne + d))

/-- The normal distribution function Φ, by its series about 0. -/
def fxPhi (x : Int) : Int :=
  let sq := fxMul x x
  let sum := fxSeries (fun i t => fxMul t sq / (2 * i + 3 : Nat)) x 700
  let root : Int := (Nat.sqrt (fxTwoPi * fxOne).toNat : Nat)
  fxOne / 2 + fxMul (fxDiv (fxExp (-(sq / 2))) root) sum

/-- x × Φ(x). -/
def fxGelu (x : Int) : KVal :=
  if 16 * fxOne < x then fxVal (x - 1)
  else if x < -(16 * fxOne) then fxTiny true
  else fxVal (fxMul x (fxPhi x))

/-- sin and cos, after the whole turns are taken off. -/
def fxTurn (x : Int) : Int := x - fxRound x fxTwoPi * fxTwoPi
def fxSin (x : Int) : Int :=
  let t := fxTurn x
  let sq := fxMul t t
  fxSeries (fun i u => -(fxMul u sq) / ((2 * i + 2) * (2 * i + 3) : Nat)) t 80
def fxCos (x : Int) : Int :=
  let t := fxTurn x
  let sq := fxMul t t
  fxSeries (fun i u => -(fxMul u sq) / ((2 * i + 1) * (2 * i + 2) : Nat)) fxOne 80

/-- The value of a bounded operation on a finite operand on which it is defined (Table VEC-14). -/
def boundedValue (op : Nat) (m e : Int) : KVal :=
  let x := fxOf m e
  let big := decide (128 * 2 ^ fxBits < x)
  let low := decide (x < -(256 * 2 ^ fxBits))
  if op = 0x06 then (kDiv (.fin 1 0) (.fin m e)).v
  else if op = 0x08 then (kDiv (.fin 1 0) (kSqrt (.fin m e)).v).v
  else if op = 0x09 then (if big then .fin 1 150 else if low then fxTiny false else fxVal (fxExp x))
  else if op = 0x0A then
    (if big then .fin 1 150 else if low then fxTiny false else
      let k := fxRound x fxOne
      (fxVal (fxExpSmall (fxMul (x - k * fxOne) fxLn2))).scale k)
  else if op = 0x0B then fxVal (fxLn m.natAbs e)
  else if op = 0x0C then
    let k : Int := Nat.log2 m.natAbs + e
    fxVal (fxDiv (fxLn m.natAbs (e - k)) fxLn2 + k * fxOne)
  else if op = 0x0D then fxVal (fxTanh x)
  else if op = 0x0E then fxSigmoid x
  else if op = 0x0F then fxGelu x
  else if op = 0x10 then fxVal (fxSin x)
  else fxVal (fxCos x)

/-- The allowed distance from the exact value as n × 2^q: 1 or 2 ulps of the destination at that value; for a sine or cosine
of an operand above 2^20, 2^−20 (Table VEC-14). -/
def boundOf (f : Fmt) (op : Nat) (x : KVal) (m e : Int) : Nat × Int :=
  if (op = 0x10 ∨ op = 0x11) ∧ kLt (.fin 1 20) x.abs = true then (1, -20)
  else (if op ≤ 0x0C then 1 else 2, ulpExp f m.natAbs e)

/-- Whether a code is one that the module writes for a finite value (R29, R30, R35). -/
def writable (f : Fmt) (code : Nat) : Bool :=
  match decodeK f code with
  | .fin m e => (encodeK f .nearest (.fin m e)).code == code
  | _ => false

/-- Whether a code lies within the bound of an operation whose exact value is v. -/
def withinBound (f : Fmt) (op : Nat) (x v : KVal) (code : Nat) : Bool :=
  match v, decodeK f code with
  | .fin m e, .fin m' e' =>
    let b := boundOf f op x m e
    m != 0 && writable f code && !kLt (.fin b.1 b.2) (finAdd m e (-m') e').abs
  | _, _ => false

end Sys2Proof.Machine
end

