-- ==== Sys2Proof/Machine/Lanes.lean ====
section
/-!
DEFINITION. The lanes of a vector unit (R98, R101 to R104): registers, one instruction, the loads of an element, and
block scales (R105).
-/

namespace Sys2Proof.Machine

/-- A register of a lane: its word, its poison tag (R98), and whether it is the NaR of an invalid operation, carried unchanged
(R109: such an output does not set NaR-seen). -/
structure Reg where
  v : Nat := 0
  tag : Bool := false
  inv : Bool := false
  deriving DecidableEq, Repr

/-- What one instruction gives: a word and the flags it raises. -/
structure OpRes where
  code : Nat
  nv : Bool := false
  ovf : Bool := false
  nar : Bool := false
  uf : Bool := false
  deriving DecidableEq, Repr

/-- The K format of the lanes. -/
def laneFmt (l16 : Bool) : Fmt := if l16 then .k16 else .k32

/-- The word width of the lanes. -/
def laneBits (l16 : Bool) : Nat := if l16 then 16 else 32

/-- A result rounded into the lanes; an infinity from finite operands raises OF (R103, R104). -/
def kOut (f : Fmt) (r : KRes) (finite : Bool) : OpRes :=
  if r.v.isNar then { code := f.narCode, nv := r.nv }
  else
    let c := encodeK f .nearest r.v
    { code := c.code, ovf := c.ovf || (r.v.isInf && finite), uf := c.uf }

/-- Register operands of an operation (Table VEC-14). -/
def arity (op : Nat) : Nat :=
  if op = 0x04 ∨ op = 0x18 then 3
  else if [0x06, 0x07, 0x08, 0x09, 0x0A, 0x0B, 0x0C, 0x0D, 0x0E, 0x0F, 0x10, 0x11, 0x14, 0x15, 0x19, 0x1A, 0x1B,
      0x1C].contains op then 1
  else 2

/-- The operations with a correct or exact K result. -/
def kExact (op : Nat) (x y z : KVal) : KRes :=
  if op = 0x01 then kAdd x y
  else if op = 0x02 then kAdd x y.neg
  else if op = 0x03 then kMul x y
  else if op = 0x04 then
    let p := kMul x y
    if p.v.isNar then p else kAdd p.v z
  else if op = 0x05 then kDiv x y
  else if op = 0x07 then kSqrt x
  else if op = 0x12 then ⟨if kLt y x then y else x, false⟩
  else if op = 0x13 then ⟨if kLt x y then y else x, false⟩
  else if op = 0x14 then ⟨x.abs, false⟩
  else if op = 0x15 then ⟨x.neg, false⟩
  else ⟨if y.isNeg then x.abs.neg else x.abs, false⟩

/-- The values of the bounded operations that Table VEC-14 and R104 give exactly: at infinities, at +0, and where the
operation is invalid. -/
def ulpSpecial (op : Nat) (x : KVal) : Option KRes :=
  match x with
  | .nar => some ⟨.nar, false⟩
  | .inf neg =>
    if op = 0x06 then some ⟨KVal.zero, false⟩
    else if op = 0x08 then some (if neg then ⟨.nar, true⟩ else ⟨KVal.zero, false⟩)
    else if op = 0x09 ∨ op = 0x0A ∨ op = 0x0F then some ⟨if neg then KVal.zero else .inf false, false⟩
    else if op = 0x0B ∨ op = 0x0C then some (if neg then ⟨.nar, true⟩ else ⟨.inf false, false⟩)
    else if op = 0x0D then some ⟨.fin (if neg then -1 else 1) 0, false⟩
    else if op = 0x0E then some ⟨if neg then KVal.zero else .fin 1 0, false⟩
    else some ⟨.nar, true⟩
  | .fin m _ =>
    if m = 0 ∧ (op = 0x06 ∨ op = 0x08) then some ⟨.inf false, false⟩
    else if m = 0 ∧ (op = 0x0B ∨ op = 0x0C) then some ⟨.inf true, false⟩
    else if m < 0 ∧ (op = 0x08 ∨ op = 0x0B ∨ op = 0x0C) then some ⟨.nar, true⟩
    else none

/-- An operation that Table VEC-14 bounds by an error in ulps. The spec fixes no result within the bound: it is the code that
the free function of the operand names where that code lies within the bound, else the correctly rounded one, so that every
result the table allows is one of the function's (log entry 8). -/
def ulpOp (l16 : Bool) (op a : Nat) : OpRes :=
  let f := laneFmt l16
  let x := decodeK f a
  match ulpSpecial op x, x with
  | some r, _ => kOut f r (!x.isInf)
  | none, .fin m e =>
    let v := boundedValue op m e
    let c := Config.ulpFn op (boolNat l16) a % 2 ^ f.bits
    if withinBound f op x v c then { code := c } else kOut f ⟨v, false⟩ true
  | none, _ => { code := f.narCode }

/-- The relation a Mod names. -/
def relation (m : Nat) (lt eq : Bool) : Bool :=
  if m = 0 then lt else if m = 1 then lt || eq else if m = 2 then eq else !eq

/-- A word operation (Table VEC-14, R98): no flag. -/
def wordOp (w op m a b : Nat) : Nat :=
  let full := 2 ^ w - 1
  let sa := signedOf w a
  let sb := signedOf w b
  if op = 0x20 then (a + b) % 2 ^ w
  else if op = 0x21 then (a + 2 ^ w - b) % 2 ^ w
  else if op = 0x22 then Nat.land a b
  else if op = 0x23 then Nat.lor a b
  else if op = 0x24 then Nat.xor a b
  else if op = 0x25 then (if w ≤ b then 0 else a * 2 ^ b % 2 ^ w)
  else if op = 0x26 then (if w ≤ b then 0 else a / 2 ^ b)
  else if op = 0x27 then codeOf w (sa / (2 ^ min b w : Nat))
  else if op = 0x28 then (if relation m (decide (sa < sb)) (decide (sa = sb)) then full else 0)
  else if relation m (decide (a < b)) (decide (a = b)) then full else 0

/-- The format a CVT names. -/
def cvtFmt (m : Nat) : Fmt := (vecFmt m).getD .k32

/-- Whether a destination format is one that stochastic rounding serves (R45). -/
def stochFmt (f : Fmt) : Bool := f == .k4 || f == .k6 || f == .k8

/-- One instruction on the words of its operands, with the rounding of a CVT (Table VEC-14, R104, R107). -/
def vecOp (l16 : Bool) (op m a b c : Nat) (r : RMode) : OpRes :=
  let f := laneFmt l16
  if 0x20 ≤ op then { code := wordOp (laneBits l16) op m a b }
  else if op = 0x18 then { code := if a != 0 then b else c }
  else if insReduces op then { code := a }
  else
    let x := decodeK f a
    let y := decodeK f b
    let z := decodeK f c
    let n := arity op
    if x.isNar || (decide (2 ≤ n) && y.isNar) || (n == 3 && z.isNar) then
      { code := if op = 0x17 then 0 else if op = 0x19 then (cvtFmt m).narCode else f.narCode, nar := true }
    else if op = 0x17 then
      { code := if relation m (kLt x y) (kEq x y) then 2 ^ laneBits l16 - 1 else 0 }
    else if op = 0x19 then
      let e := encodeK (cvtFmt m) r x
      { code := e.code, ovf := e.ovf, uf := e.uf }
    else if [0x06, 0x08, 0x09, 0x0A, 0x0B, 0x0C, 0x0D, 0x0E, 0x0F, 0x10, 0x11].contains op then ulpOp l16 op a
    else
      kOut f (kExact op x y z) (!(x.isInf || (decide (2 ≤ n) && y.isInf) || (n == 3 && z.isInf)))

/-! ### One element (R101) -/

/-- An element in its lane. `scale` is the BX8 byte that I3 supplied. -/
structure VElem where
  m : Nat
  n : Nat
  regs : List Reg
  f : ElemFlags := {}
  uf : Nat := 0
  nvK : Option Nat := none
  cnt : Nat
  red : Option Reg := none
  scale : Reg := {}
  nar : Bool := false
  deriving DecidableEq, Repr

/-- The settings of a descriptor that its lanes share. -/
structure VCfg where
  l16 : Bool
  sr : Bool
  seed : Nat
  base : Nat
  deriving DecidableEq, Repr

/-- The stochastic draw of a lane's next conversion (R45): the lane is the element's place in its group. -/
def laneDraw (c : VCfg) (lane cnt : Nat) : RMode := .stoch (srDraw c.seed (c.base + lane) cnt)

/-- Register i of an element. -/
def VElem.reg (e : VElem) (i : Nat) : Reg := e.regs.getD i {}

/-- Whether a result is the NaR of an invalid operation: one that this instruction made, or an operand that SEL or a row
reduction passes on unchanged (R109). -/
def carriesInv (op : Nat) (r : OpRes) (a b d : Reg) : Bool :=
  if op = 0x18 then (if a.v != 0 then b.inv else d.inv) else if insReduces op then a.inv else r.nv

/-- One instruction of a program, number k, on an element (R101 to R104, R114). -/
def vecStep (c : VCfg) (lane : Nat) (e : VElem) (k w : Nat) : VElem :=
  let op := insOp w
  let a := e.reg (insA w)
  let b := e.reg (insB w)
  let d := e.reg (insC w)
  let stoch := op == 0x19 && c.sr && stochFmt (cvtFmt (insMod w)) && !(decodeK (laneFmt c.l16) a.v).isNar
  let r := vecOp c.l16 op (insMod w) a.v b.v d.v (if stoch then laneDraw c lane e.cnt else .nearest)
  let n := arity op
  let tag := a.tag || (decide (2 ≤ n) && b.tag) || (n == 3 && d.tag)
  { e with
    regs := e.regs.set (insDst w) ⟨r.code, tag, carriesInv op r a b d⟩
    f := { e.f with nv := e.f.nv || r.nv, ovf := e.f.ovf || r.ovf, narSeen := e.f.narSeen || r.nar }
    uf := e.uf + boolNat r.uf
    nvK := if r.nv then e.nvK.or (some k) else e.nvK
    cnt := e.cnt + boolNat stoch
    red := if insReduces w then some a else e.red }

/-- A program run on an element. -/
def vecRun (c : VCfg) (lane : Nat) (prog : List Nat) (e : VElem) : VElem :=
  (prog.zipIdx).foldl (fun e x => vecStep c lane e x.2 x.1) e

/-- A K value loaded into a lane: a conversion, whose flags it raises (R46, Table VEC-8). -/
def loadK (l16 : Bool) (v : KVal) (tag : Bool) : Reg × OpRes :=
  let c := encodeK (laneFmt l16) .nearest v
  (⟨c.code, tag, false⟩, { code := c.code, ovf := c.ovf, nar := v.isNar, uf := c.uf })

/-- What a load that raises nothing gives. -/
def loadRaw (l16 : Bool) (w : Nat) (tag : Bool) : Reg × OpRes :=
  (⟨w % 2 ^ laneBits l16, tag, false⟩, { code := w })

/-- Whether a bank was last written with K values that are no column records. -/
def bankIsK (a : ArrayUnit) (b : Nat) : Bool :=
  match a.bankMeta.getD b none with
  | some x => !x.topK && !(arrFmt x.fmt).isInt
  | none => true

/-- Input i of element (m, n), decoded with its scale, with the flags of its load (R101, R33, R114). A value that
nothing supplies (an unused input, an element that no bank holds) is a free value. -/
def vecLoad (s : State) (nn : Nat) (ws : List Word64) (i m n : Nat) : Reg × OpRes :=
  let l16 := vecLanes16 ws
  let row := opAddr ws i + m * opStride ws i
  let fresh := (Config.freeWord (s.free + 4 * (m * vecN ws + n) + i)).toNat
  if opFmt ws i = 9 then
    let a := s.arrays.getD nn {}
    match (a.handoff.getD (vecBank ws) none).bind (fun (h : Handoff) => smGet h.vals (65536 * m + n)) with
    | some v =>
      if l16 && bankIsK a (vecBank ws) then loadK l16 (decodeK .k32 v.value.toNat) v.tag
      else loadRaw l16 v.value.toNat v.tag
    | none => loadRaw l16 fresh false
  else if opFmt ws i = 10 then
    let off := row + n / blockOf (opScale ws 4)
    loadRaw l16 (scaleByte s nn off) (slicePoison s nn off)
  else
    match vecFmt (opFmt ws i) with
    | none => loadRaw l16 fresh false
    | some f =>
      let e := sliceElem s nn f row n
      if f = .word32 then
        loadRaw l16 (if e.2 then (Config.poisonedWord (nn * sliceSize + row + 4 * n)).toNat else e.1) e.2
      else
        let v := if e.2 then KVal.nar else decodeK f e.1
        if opScale ws i = 0 then loadK l16 v e.2
        else
          let so := opScaleAddr ws i + m * opScaleStride ws i + n / blockOf (opScale ws i)
          loadK l16 (scaled (scaleByte s nn so) v) (e.2 || slicePoison s nn so)

/-- An element as its inputs load it (R101 step 1). -/
def vecElem (s : State) (nn : Nat) (ws : List Word64) (j cnt : Nat) : VElem :=
  let m := j / vecN ws
  let n := j % vecN ws
  let ins := (List.range 4).map (fun i => vecLoad s nn ws i m n)
  { m := m, n := n, regs := ins.map Prod.fst ++ List.replicate 28 {}, cnt := cnt
    scale := ((ins.getD 3 ({}, { code := 0 }))).1
    f := { ovf := ins.any (fun x => x.2.ovf), narSeen := ins.any (fun x => x.2.nar) }
    uf := (ins.map (fun x => boolNat x.2.uf)).sum }

/-! ### Block scales (R105, R116) -/

/-- The largest magnitude among the finite values of a list. -/
def finiteMax (vs : List KVal) : KVal :=
  vs.foldl (fun a v => if v.isNar || v.isInf then a else if kLt a v.abs then v.abs else a) KVal.zero

/-- The largest finite value of a short format as a K value. -/
def fmaxOf (f : Fmt) : KVal := decodeK f (f.maxCode false)

/-- floor(log2) of a positive finite value. -/
def floorLog (v : KVal) : Int :=
  match v with
  | .fin m e => (Nat.log2 m.natAbs : Int) + e
  | _ => 0

/-- ceil(log2(a ÷ b)) of positive finite values. -/
def ceilLogRatio (a b : KVal) : Int :=
  let d := floorLog a - floorLog b
  if kLt (b.scale d) a then d + 1 else d

/-- The computed scale byte of a block (R105, R38). -/
def blockScale (f : Fmt) (headroom : Nat) (vs : List KVal) : Nat :=
  let a := finiteMax vs
  if vs.any KVal.isNar then 255
  else if a.isZero then 127
  else (max 0 (min 254 (127 + ceilLogRatio a (fmaxOf f) + headroom))).toNat

/-- The amax of values: NaR if any is NaR, else +∞ if any is infinite, else the largest magnitude (R106). -/
def amaxOf (vs : List KVal) : KVal :=
  if vs.any KVal.isNar then .nar else if vs.any KVal.isInf then .inf false else finiteMax vs

/-- A value as its K32 code. -/
def code32 (v : KVal) : Nat := (encodeK .k32 .nearest v).code

end Sys2Proof.Machine
end

