-- ==== Sys2Proof/Machine/Vectors.lean ====
section
/-!
DEFINITION. Vector units (05, 06): vector programs, tree merges, scans and rebiases, and how they complete: the
meanings of VECTOR_PROGRAM to VECTOR_DESCRIPTOR_COMPLETE.
-/

namespace Sys2Proof.Machine

/-- A function applied to a vector unit. -/
def updVec (s : State) (nn : Nat) (f : VecUnit → VecUnit) : State := { s with vecs := modifyAt s.vecs nn f }

/-! ### Writes and their poison (R114) -/

/-- A descriptor's writes so far: by tile store line, the bytes written and whether a tagged element lies there. -/
structure VRun where
  s : State
  lines : SMap (Nat × Bool) := []
  res : Result := {}
  cnt : List Nat := []
  amax : List KVal := []
  row : List Reg := []
  deriving DecidableEq, Repr

/-- n bytes from an address noted as written, line by line. -/
def noteBytes (ls : SMap (Nat × Bool)) (a n : Nat) (tag : Bool) : SMap (Nat × Bool) :=
  (List.range n).foldl (fun ls i =>
    let l := (a + i) / 64
    let o := smGetD ls l (0, false)
    smSet ls l (Nat.lor o.1 (2 ^ ((a + i) % 64)), o.2 || tag)) ls

/-- The line of a byte noted as written in part. -/
def noteTag (ls : SMap (Nat × Bool)) (a : Nat) (tag : Bool) : SMap (Nat × Bool) :=
  let o := smGetD ls (a / 64) (0, false)
  smSet ls (a / 64) (o.1, o.2 || tag)

/-- Bytes written at an address of the tile store, noted line by line. -/
def putBytes (r : VRun) (a : Nat) (bs : Bytes) (tag : Bool) : VRun :=
  { r with s := { r.s with tile := memStore r.s.tile a bs }, lines := noteBytes r.lines a bs.length tag }

/-- Element i of a row of a slice written; a byte counts as written with the element that completes it. The last element of a
K6 line completes it, its reserved bytes 60 to 63 with it (R28). -/
def putElem (r : VRun) (nn : Nat) (f : Fmt) (off i code : Nat) (tag : Bool) : VRun :=
  let p := elemPlace f i
  let a := nn * sliceSize + off + p.1
  let n := elemSpan f p.2
  let old := leNat (memBytes r.s.tile a n)
  let new := old - old / 2 ^ p.2 % 2 ^ f.bits * 2 ^ p.2 + code % 2 ^ f.bits * 2 ^ p.2
  let r := { r with s := { r.s with tile := memStore r.s.tile a (natLe n new) },
                    lines := noteTag (noteBytes r.lines a ((p.2 + f.bits) / 8) tag) (a + n - 1) tag }
  if f = .k6 ∧ i % 80 = 79 then { r with lines := noteBytes r.lines (a + 1) 4 tag } else r

/-- The poison bits of the written lines: set where a tagged element lies, cleared by a whole line without one (R114,
R33). -/
def settleLines (s : State) : SMap (Nat × Bool) → State
  | [] => s
  | (l, x) :: r =>
    let p := x.2 || (nsHas s.tilePoison l && x.1 != fullMask)
    settleLines { s with tilePoison := nsPut s.tilePoison l p } r

/-- Lines that hold a tagged element. -/
def taggedLines (m : SMap (Nat × Bool)) : Nat := (m.filter (fun e => e.2.2)).length

/-! ### Outputs of a vector program -/

/-- The scale byte of an element's block, with its tag: none without a scale, the byte of I3, or computed from the
block's values (R105). `vs` are the values of the group. -/
def outScale (ws : List Word64) (o : Nat) (f : Fmt) (vs : List KVal) (j : Nat) (e : VElem) : Option Reg :=
  if opScale ws o = 0 then none
  else if o = 4 ∧ vecScaleSrc ws then some ⟨e.scale.v % 256, e.scale.tag, false⟩
  else
    let b := blockOf (opScale ws o)
    some ⟨blockScale f (vecHeadroom ws) ((vs.drop (j / b * b)).take b), false, false⟩

/-- One element written to output o: its code, with the flags of its conversion (R46, R47, R105, R109). An output that is the
NaR of an invalid operation does not set NaR-seen. DESIGN CHOICE (log entry 14): an element that is not NaR, in a block whose scale
is 0xFF, is a conversion too and takes a draw index (R45). -/
def outElem (c : VCfg) (ws : List Word64) (o : Nat) (f : Fmt) (vs : List KVal) (j : Nat) (e : VElem) :
    VElem × Nat × Bool :=
  let r := e.reg (26 + o)
  if f = .word32 then (e, r.v, r.tag)
  else
    let v := decodeK (laneFmt c.l16) r.v
    let sc := outScale ws o f vs j e
    let tag := r.tag || ((sc.map Reg.tag).getD false)
    let stoch := c.sr && stochFmt f && !v.isNar
    let e := { e with cnt := e.cnt + boolNat stoch }
    let byte := (sc.map Reg.v).getD 127
    if v.isNar || byte == 255 then
      ({ e with nar := true
                f := { e.f with narSeen := e.f.narSeen || !(v.isNar && r.inv), poison := e.f.poison || tag } },
        f.narCode, tag)
    else
      let x := encodeK f (if stoch then laneDraw c j (e.cnt - 1) else .nearest) (v.scale (127 - (byte : Int)))
      ({ e with f := { e.f with ovf := e.f.ovf || x.ovf, poison := e.f.poison || tag }, uf := e.uf + boolNat x.uf },
        x.code, tag)

/-- Scale bytes written at an address of the tile store. They are no elements and tag no line (R114), but those formed from
poisoned data do not count towards a write of the whole line, which alone clears its poison (R33). -/
def putScaleBytes (r : VRun) (a : Nat) (bs : Bytes) (poisoned : Bool) : VRun :=
  if poisoned then { r with s := { r.s with tile := memStore r.s.tile a bs }, lines := noteTag r.lines a false }
  else putBytes r a bs false

/-- The scale byte of a block written when its first element is; `es` are the group's elements. -/
def putScale (r : VRun) (nn : Nat) (ws : List Word64) (o : Nat) (f : Fmt) (vs : List KVal) (tags : List Bool) (j : Nat)
    (e : VElem) : VRun :=
  match outScale ws o f vs j e with
  | none => r
  | some b =>
    let k := blockOf (opScale ws o)
    if e.n % k = 0 then
      putScaleBytes r (nn * sliceSize + opScaleAddr ws o + e.m * opScaleStride ws o + e.n / k) [BitVec.ofNat 8 b.v]
        (if o = 4 ∧ vecScaleSrc ws then b.tag else ((tags.drop (j / k * k)).take k).any id)
    else r

/-- The elements of a group written to output o, in order. -/
def outGroup (c : VCfg) (nn : Nat) (ws : List Word64) (o : Nat) (f : Fmt) (vs : List KVal) (tags : List Bool) :
    List VElem → Nat → VRun → List VElem × VRun
  | [], _, r => ([], r)
  | e :: es, j, r =>
    let x := outElem c ws o f vs j e
    let r := putScale r nn ws o f vs tags j e
    let r := putElem r nn f (opAddr ws o + e.m * opStride ws o) e.n x.2.1 x.2.2
    let y := outGroup c nn ws o f vs tags es (j + 1) r
    (x.1 :: y.1, y.2)

/-- Output o of a group, when it is in use and takes elements. -/
def outIf (c : VCfg) (nn : Nat) (ws : List Word64) (o : Nat) (es : List VElem) (r : VRun) : List VElem × VRun :=
  match vecFmt (opFmt ws o) with
  | none => (es, r)
  | some f =>
    if o = 5 ∧ opReduce ws 5 then (es, r)
    else outGroup c nn ws o f (es.map (fun e => decodeK (laneFmt c.l16) (e.reg (26 + o)).v))
      (es.map (fun e => (e.reg (26 + o)).tag)) es 0 r

/-! ### Row reductions (R107) -/

/-- What a row reduction gave: a value, flags, underflows. -/
structure Fold where
  v : KVal := KVal.zero
  nv : Bool := false
  ovf : Bool := false
  uf : Nat := 0
  at_ : Nat := 0
  deriving DecidableEq, Repr

/-- RSUM: blocks of 16 summed exactly, each rounded once, added in order from +0. `b` numbers the block. -/
def rsum : List (List KVal) → Nat → Fold → Fold
  | [], _, a => a
  | blk :: r, b, a =>
    if a.v.isNar then a
    else
      let s := blk.foldl (fun (x : KRes) v => let y := kAdd x.v v; ⟨y.v, x.nv || y.nv⟩) ⟨KVal.zero, false⟩
      let cs := encodeK .k32 .nearest s.v
      let t := kAdd a.v (decodeK .k32 cs.code)
      if s.v.isNar || t.v.isNar then
        { a with v := .nar, nv := a.nv || s.nv || t.nv, at_ := 16 * b, ovf := a.ovf || (!s.v.isNar && cs.ovf) }
      else
        let ct := encodeK .k32 .nearest t.v
        rsum r (b + 1) { a with v := decodeK .k32 ct.code, ovf := a.ovf || cs.ovf || ct.ovf,
                                uf := a.uf + boolNat cs.uf + boolNat ct.uf }

/-- A list cut into runs of k; `fuel` bounds their number. -/
def chunks {α : Type} (k : Nat) : Nat → List α → List (List α)
  | 0, _ => []
  | _ + 1, [] => []
  | n + 1, a :: r => (a :: r).take k :: chunks k n ((a :: r).drop k)

/-- The reduction of a row's values by operation (R107). A NaR element makes it NaR. -/
def rowFold (op : Nat) (vs : List KVal) : Fold :=
  if vs.any KVal.isNar then { v := .nar }
  else if op = 0x1A then rsum (chunks 16 vs.length vs) 0 {}
  else
    let xs := if op = 0x1C then vs.map KVal.abs else vs
    match xs with
    | [] => {}
    | x :: r => { v := r.foldl (fun a v => if kLt a v then v else a) x }

/-- A finished row's reduction written as the one element of row m of O1, with its flags (R107, Table VEC-12). DESIGN CHOICE (log
entry 15): an invalid sum's place along n, which R109 needs for the first invalid operation, is the first element of its block of
16. -/
def putRow (r : VRun) (c : VCfg) (nn : Nat) (ws : List Word64) (op k m : Nat) : VRun :=
  match vecFmt (opFmt ws 5) with
  | none => { r with row := [] }
  | some f =>
    let x := rowFold op (r.row.map (fun (g : Reg) => decodeK (laneFmt c.l16) g.v))
    let tag := r.row.any Reg.tag
    let y := encodeK (if f = .word32 then .k32 else f) .nearest x.v
    let fl : ElemFlags := { nv := x.nv, ovf := x.ovf || (!x.v.isNar && y.ovf)
                            narSeen := x.v.isNar && !x.nv, poison := tag }
    let res := addUf (addElem r.res fl (x.v.isNar && f.isK)) (x.uf + boolNat y.uf)
    let res := { res with first := if x.nv then firstOf res.first (k, m, x.at_) else res.first }
    putElem { r with row := [], res := res } nn f (opAddr ws 5 + m * opStride ws 5) 0 y.code tag

/-- The reduction values of a group's elements gathered, and each finished row written. -/
def reduceGroup (c : VCfg) (nn : Nat) (ws : List Word64) (op k : Nat) : List VElem → VRun → VRun
  | [], r => r
  | e :: es, r =>
    let r := { r with row := r.row ++ [e.red.getD {}] }
    reduceGroup c nn ws op k es (if e.n + 1 = vecN ws then putRow r c nn ws op k e.m else r)

/-! ### The run -/

/-- An element's flags added to the tile's (R109). -/
def addVElem (res : Result) (e : VElem) : Result :=
  let res := addUf (addElem res e.f e.nar) e.uf
  match e.nvK with
  | some k => { res with first := firstOf res.first (k, e.m, e.n) }
  | none => res

/-- One group of elements: loaded, run, and written, its lines' poison with it, so that a later group reads what this one
wrote (R101, R114). -/
def vecGroup (c : VCfg) (nn : Nat) (ws : List Word64) (prog : List Nat) (ptag : Bool) (j0 n : Nat) (r : VRun) : VRun :=
  let es := (List.range n).map (fun j =>
    let e := vecRun c j prog (vecElem r.s nn ws (j0 + j) (r.cnt.getD j 0))
    { e with regs := e.regs.map (fun (g : Reg) => { g with tag := g.tag || ptag }) })
  let amax := if ((vecFmt (opFmt ws 4)).map Fmt.isK).getD false then
      [amaxOf (r.amax ++ es.map (fun e => decodeK (laneFmt c.l16) (e.reg 30).v))] else []
  let a := outIf c nn ws 4 es { r with amax := amax }
  let b := outIf c nn ws 5 a.1 a.2
  let r := { b.2 with
    cnt := b.1.map VElem.cnt ++ r.cnt.drop n
    res := b.1.foldl addVElem b.2.res }
  let r := if opReduce ws 5 then
      let k := prog.findIdx insReduces
      reduceGroup c nn ws (insOp (prog.getD k 0)) k b.1 r
    else r
  { r with s := settleLines r.s r.lines }

/-- All groups of a descriptor; `fuel` is their number. -/
def vecGroups (c : VCfg) (nn : Nat) (ws : List Word64) (prog : List Nat) (ptag : Bool) : Nat → Nat → VRun → VRun
  | 0, _, r => r
  | k + 1, j0, r =>
    let n := min (if c.l16 then 512 else 256) (vecM ws * vecN ws - j0)
    vecGroups c nn ws prog ptag k (j0 + n) (vecGroup c nn ws prog ptag j0 n r)

/-- The lanes' settings of a descriptor (R45, R98). -/
def vecCfg (nn : Nat) (ws : List Word64) : VCfg :=
  { l16 := vecLanes16 ws, sr := vecSR ws, seed := vecSeed ws
    base := if vecLanes16 ws then 16384 + 512 * nn else 256 * nn }

/-- A run's exceptions with its poisoned lines. -/
def runResult (r : VRun) : Result :=
  let n := taggedLines r.lines
  { r.res with poisoned := r.res.poisoned || n != 0, poisonedLines := n }

/-- A vector program run to its end. -/
def vecExec (s : State) (nn : Nat) (ws : List Word64) : State × Result :=
  let c := vecCfg nn ws
  let l := if c.l16 then 512 else 256
  let ptag := (List.range (vecLen ws)).any (fun i => slicePoison s nn (vecProgAddr ws + 4 * i))
  let r := vecGroups c nn ws (progOf s nn ws) ptag (ceilDiv (vecM ws * vecN ws) l) 0
    { s := s, cnt := List.replicate l 0 }
  ({ r.s with free := s.free + 4 * vecM ws * vecN ws },
    { runResult r with amax := match r.amax with
        | v :: _ => code32 v
        | [] => 0 })

/-- The rejection status of a vector program, if any (R102, R111, R161). -/
def vecReject (s : State) (nn q : Nat) (ws : List Word64) : Option Nat :=
  let prog := progOf s nn ws
  if reservedSet ws vecReserved then some 1
  else if vecFormatBad ws || prog.any (insBad (vecLanes16 ws)) then some 2
  else if vecShapeBad ws prog then some 3
  else if vecAddrBad ws || (vecRanges ws).any (rangeForeign s nn q) then some 4
  else none

/-! ### Starting a descriptor of a vector unit -/

/-- The first issued descriptor of an idle unit taken, when its opcode is the one given: it completes retired,
rejected, or runs and waits for its completion. One issued early waits for its own wait (R192, R372). -/
def vecStart (s : State) (nn op : Nat) (tst : List TstEvent) (reject : State → Nat → List Word64 → Option Nat)
    (run : State → Issued → State × Result) : State :=
  let u := s.vecs.getD nn {}
  match u.done, u.fifo with
  | none, d :: r =>
    if opcode d.words != op || !issuedReady s d || spillHolds s nn d.queue (ownRanges d.words) then s
    else
      let s := applyTst s nn tst
      let s := updVec s nn (fun u => { u with fifo := r })
      if arrayRetired s nn then rejectDesc s d 7 nn
      else
        match reject s d.queue d.words with
        | some st => rejectDesc s d st nn
        | none =>
          let x := run s d
          updVec x.1 nn (fun u => { u with done := some (d, x.2) })
  | _, _ => s

/-- VECTOR_PROGRAM (R101). -/
def execVectorProgram (nn : Nat) (tst : List TstEvent) (s : State) : Res :=
  need (decide (nn < 64)) (vecStart s nn 0x30 tst (fun s => vecReject s nn) (fun s d => vecExec s nn d.words))

/-! ### Tree merge (R108) -/

/-- A candidate of a merge. -/
structure Cand where
  value : Nat
  row : Nat
  deriving DecidableEq, Repr

/-- One column's merge so far. -/
structure Merge where
  rows : Nat := 0
  excluded : Nat := 0
  ovf : Nat := 0
  nar : Bool := false
  bad : Bool := false
  cands : List Cand := []
  deriving DecidableEq, Repr

/-- Entry i of an input record taken in (R108 steps 1 to 3). -/
def mrgEntry (ws : List Word64) (set : Nat) (x : Merge) (w : Nat) : Merge :=
  let value := w % 2 ^ 32
  let row := w / 2 ^ 32
  let adj := row + set * mrgOffset ws
  if row = 0xFFFFFFFF then x
  else if 0xFFFFFFFE < adj then { x with excluded := x.excluded + 1, ovf := x.ovf + 1 }
  else if !mrgInt ws && (decodeK .k32 value).isNar then { x with excluded := x.excluded + 1, nar := true }
  else { x with cands := x.cands ++ [⟨value, adj⟩] }

/-- The record of column n in a set taken in. -/
def mrgRecord (s : State) (nn : Nat) (ws : List Word64) (n : Nat) (x : Merge) (set : Nat) : Merge :=
  let len := (1 + mrgInK ws) * 8
  let off := mrgInAddr ws + set * mrgStride ws + n * len
  let w (i : Nat) : Nat := leNat (sliceBytes s nn (off + 8 * i) 8)
  let bad := (List.range (1 + mrgInK ws)).any (fun i => slicePoison s nn (off + 8 * i))
  let x := { x with rows := x.rows + w 0 % 2 ^ 32, excluded := x.excluded + w 0 / 2 ^ 32, bad := x.bad || bad }
  (List.range (mrgInK ws)).foldl (fun x i => mrgEntry ws set x (w (i + 1))) x

/-- Whether a candidate ranks before another (R92). -/
def candBefore (largest int : Bool) (a b : Cand) : Bool :=
  ranksBefore (if largest then 4 else 1) int a.value b.value
    || (!ranksBefore (if largest then 4 else 1) int b.value a.value && decide (a.row < b.row))

/-- The value of an empty output entry (R108 step 5). -/
def emptyValue (largest int : Bool) : Nat :=
  if int then (if largest then 0x80000000 else 0x7FFFFFFF) else if largest then 0xFF800000 else 0x7F800000

/-- The output record of a column, as 64-bit words. -/
def mrgOut (ws : List Word64) (x : Merge) : List Word64 :=
  let best := (sortBy (candBefore (mrgLargest ws) (mrgInt ws)) x.cands).take (mrgK ws)
  BitVec.ofNat 64 (min x.rows top32 + min x.excluded top32 * 2 ^ 32) :: (List.range (mrgK ws)).map (fun i =>
    match best[i]? with
    | some c => BitVec.ofNat 64 (c.value + c.row * 2 ^ 32)
    | none => BitVec.ofNat 64 (emptyValue (mrgLargest ws) (mrgInt ws) + 0xFFFFFFFF * 2 ^ 32))

/-- Column n merged and written, its lines' poison with it (R108, R114). -/
def mrgColumn (nn : Nat) (ws : List Word64) (r : VRun) (n : Nat) : VRun :=
  let x := (List.range (mrgSets ws)).foldl (mrgRecord r.s nn ws n) {}
  let r := putBytes r (nn * sliceSize + mrgOutAddr ws + n * (1 + mrgK ws) * 8) (bytesOf (mrgOut ws x)) x.bad
  { r with s := settleLines r.s r.lines, res := { r.res with
      ovf := r.res.ovf || x.ovf != 0, ofCount := satAdd top32 r.res.ofCount x.ovf
      narSeen := r.res.narSeen || x.nar, poisoned := r.res.poisoned || x.bad } }

/-- A merge run, column after column: a column reads what earlier columns wrote. -/
def mrgExec (s : State) (nn : Nat) (ws : List Word64) : State × Result :=
  let r := (List.range (mrgN ws)).foldl (mrgColumn nn ws) { s := s }
  (r.s, runResult r)

/-- The rejection status of a merge, if any (R108, R161). -/
def mrgReject (s : State) (nn q : Nat) (ws : List Word64) : Option Nat :=
  if reservedSet ws mrgReserved then some 1
  else if (mrgRanges ws).any (fun r => !ends r.1 r.2 || rangeForeign s nn q r) then some 4
  else none

/-- TREE_MERGE (R108). -/
def execTreeMerge (nn : Nat) (tst : List TstEvent) (s : State) : Res :=
  need (decide (nn < 64)) (vecStart s nn 0x31 tst (fun s => mrgReject s nn) (fun s d => mrgExec s nn d.words))

/-! ### Scan (R115, R116) -/

/-- Element (m, n) of a scan's input, and whether it or its scale lies in a poisoned line. -/
def scanElem (s : State) (nn : Nat) (ws : List Word64) (m n : Nat) : KVal × Bool :=
  let f := (vecFmt (scanFmt ws)).getD .k32
  let e := sliceElem s nn f (scanAddr ws + m * scanStride ws) n
  let v := if e.2 then KVal.nar else decodeK f e.1
  if scanInScale ws = 0 then (v, e.2)
  else
    let so := scanSAddr ws + m * scanSStride ws + n / blockOf (scanInScale ws)
    (scaled (scaleByte s nn so) v, e.2 || slicePoison s nn so)

/-- The format that a scan's scales are for. -/
def scanTo (ws : List Word64) : Fmt := (vecFmt (scanTarget ws)).getD .k4

/-- The scale bytes of a list of blocks written from an address. -/
def putScales (nn : Nat) (ws : List Word64) (off : Nat) (r : VRun) (vs : List KVal) : VRun :=
  let b := blockOf (scanBlock ws)
  putBytes r (nn * sliceSize + off)
    ((chunks b vs.length vs).map (fun x => BitVec.ofNat 8 (blockScale (scanTo ws) (scanHead ws) x))) false

/-- A scan run: the scale bytes written, and the amax formed. -/
def scanExec (s : State) (nn : Nat) (ws : List Word64) : State × Result :=
  let ms := List.range (scanM ws)
  let ns := List.range (scanN ws)
  let el (m n : Nat) : KVal := (scanElem s nn ws m n).1
  let r : VRun := { s := s }
  let r := if scanRows ws then
      ms.foldl (fun r m => putScales nn ws (scanRAddr ws + m * scanRStride ws) r (ns.map (el m))) r else r
  let r := if scanCols ws then
      ns.foldl (fun r n => putScales nn ws (scanCAddr ws + n * scanCStride ws) r (ms.map (fun m => el m n))) r else r
  let amax := amaxOf (ms.map (fun m => amaxOf (ns.map (el m))))
  let bad := ms.any (fun m => ns.any (fun n => (scanElem s nn ws m n).2))
  let c := encodeK .k32 .nearest amax
  (settleLines r.s r.lines,
    { runResult r with
      amax := c.code, narSeen := amax.isNar, poisoned := amax.isNar && bad, narCount := boolNat amax.isNar
      ovf := c.ovf, ofCount := boolNat c.ovf, ufCount := boolNat c.uf })

/-- The rejection status of a scan, if any (R118, R161). -/
def scanReject (s : State) (nn q : Nat) (ws : List Word64) : Option Nat :=
  if reservedSet ws scanReserved then some 1
  else if scanFormatBad ws then some 2
  else if scanShapeBad ws then some 3
  else if scanAddrBad ws || (scanRanges ws).any (rangeForeign s nn q) then some 4
  else none

/-- What a scan's amax atomic gave: state, status, and whether its target line was poisoned. -/
structure AmaxRes where
  st : State
  status : Nat := 0
  poison : Bool := false
  deriving DecidableEq, Repr

/-- The atomic maximum of an amax code at an offset of this module (R117, R277); a back-invalidation
without an answer ends it as a timeout (R327). -/
def amaxHere (s : State) (off code : Nat) : AmaxRes :=
  if snoopFailed s (lpddrLines off 4) then { st := forgetBad s (lpddrLines off 4), status := fabTimeout } else
  let r := atomicAt s off 4 false code 0
  { st := r.st, status := r.status, poison := r.poison }

/-- A scan's atomic maximum of its amax code: applied at once in this module, or sent, and then the scan waits for its
reply (R115, R117, R270, R272). A poisoned target makes the scan's result poisoned (R277). One that is not applied gives the scan
its status: no-window, or address-error where the target is no word of this kind, host memory among them (DEDUCED, log entry 19). -/
def scanAtomic (s : State) (nn : Nat) (ws : List Word64) (code : Nat) : AmaxRes :=
  if scanAmax ws = 0 then { st := s }
  else
    match spaceOf (scanAmax ws) with
    | .localOff off => amaxHere s off code
    | .fabric c off =>
      match sendThrough s c off 4 .atomic with
      | none => { st := objInc s Obj.windowMisses, status := fabNoWindow }
      | some (t, _) =>
        if c = chip s then amaxHere s t code
        else
          let s := sendRequest s (halfOf64 nn) c t (.atomic 4 false 0 code 0) (.scan nn) false
          { st := updVec s nn (fun u => { u with amaxWait := true }) }
    | _ => { st := s, status := fabAddress }

/-- The offset in this module of the amax word of the scan that a vector unit runs next (R270). -/
def nextAmax (s : State) (nn : Nat) : Option Nat :=
  match (s.vecs.getD nn {}).fifo with
  | d :: _ =>
    if opcode d.words = 0x32 ∧ scanAmax d.words ≠ 0 then
      match spaceOf (scanAmax d.words) with
      | .localOff off => some off
      | .fabric c off => if c = chip s then (sendThrough s c off 4 .atomic).map Prod.fst else none
      | _ => none
    else none
  | [] => none

/-- A scan's atomic waits for a Dim channel of this module or for the host's copy of its line, and the scan with it (R176,
R327). -/
def amaxPastDim (s : State) (nn : Nat) (go : State → State) : State :=
  match nextAmax s nn with
  | some off => pastLocal s off 4 (2 ^ 20 + 1, nn, 0) go
  | none => go s

/-- SCAN (R115 to R118). -/
def execScan (nn : Nat) (tst : List TstEvent) (s : State) : Res :=
  need (decide (nn < 64)) (amaxPastDim s nn fun s => vecStart s nn 0x32 tst (fun s => scanReject s nn) (fun s d =>
    let x := scanExec s nn d.words
    let y := scanAtomic x.1 nn d.words x.2.amax
    (y.st, { x.2 with poisoned := x.2.poisoned || y.poison, status := y.status })))

/-! ### Rebias (R131) -/

/-- One scale byte moved by a bias. A byte of a poisoned line reads 0xFF and stays tagged (R33). -/
def rebByte (s0 : State) (nn : Nat) (ws : List Word64) (r : VRun) (off : Nat) : VRun :=
  let b := scaleByte s0 nn off
  let clamp := b != 255 && decide (254 < b + rebBias ws)
  let v := if b = 255 then 255 else min 254 (b + rebBias ws)
  let r := putBytes r (nn * sliceSize + off) [BitVec.ofNat 8 v] (slicePoison s0 nn off)
  { r with res := { r.res with ovf := r.res.ovf || clamp, ofCount := satAdd top32 r.res.ofCount (boolNat clamp) } }

/-- A rebias run. -/
def rebExec (s : State) (nn : Nat) (ws : List Word64) : State × Result :=
  let r := (List.range (rebM ws)).foldl (fun r m =>
    (List.range (rebN ws)).foldl (fun r n => rebByte r.s nn ws r (rebAddr ws + m * rebStride ws + n)) r)
    { s := s }
  (settleLines r.s r.lines, runResult r)

/-- The rejection status of a rebias, if any (R131, R118, R161). -/
def rebReject (s : State) (nn q : Nat) (ws : List Word64) : Option Nat :=
  if reservedSet ws rebReserved then some 1
  else if rebBias ws = 127 then some 3
  else if rebAddr ws % 64 != 0 || !ends (rebRange ws).1 (rebRange ws).2 || rangeForeign s nn q (rebRange ws) then some 4
  else none

/-- REBIAS (R131). -/
def execRebias (nn : Nat) (tst : List TstEvent) (s : State) : Res :=
  need (decide (nn < 64)) (vecStart s nn 0x33 tst (fun s => rebReject s nn) (fun s d => rebExec s nn d.words))

/-! ### Completion (R109 to R113) -/

/-- VECTOR_DESCRIPTOR_COMPLETE: the descriptor that has run completes, unless a scan's amax atomic has not been
applied yet. A scan whose atomic was not applied completes with the atomic's status, and its tail signals nothing (R115). Only a
vector program has trap bits (Table VEC-11). -/
def vecDone (s : State) (nn : Nat) : State :=
  let u := s.vecs.getD nn {}
  match u.done with
  | none => s
  | some (d, r) =>
    if u.amaxWait then s
    else
      let prog := opcode d.words == 0x30
      completeDesc (updVec s nn (fun u => { u with done := none }))
        { queue := d.queue, seq := d.seq, words := d.words, inLayer := d.inLayer, status := r.status,
          op := opcode d.words, engine := nn, signals := r.status == 0, summary := summaryOf r, body := recordBody r
          traps := prog && trapsOn d (vecTrapNV d.words) (vecTrapOF d.words) r }

/-- VECTOR_DESCRIPTOR_COMPLETE (R110, R115). -/
def execVectorDescriptorComplete (nn : Nat) (s : State) : Res := need (decide (nn < 64)) (vecDone s nn)

end Sys2Proof.Machine
end

