-- ==== Sys2Proof/Machine/FabSend.lean ====
section
/-!
DEFINITION. The target's and the source's part of fabric memory (13): replies, the replay cache (R281 to R284), ends of
requests (R279, R280), fills of the remote read cache (R287), and the hot table of the injection windows (R264).
-/

namespace Sys2Proof.Machine

/-! ### At the target -/

/-- A packet that its unit takes from the ejection port. -/
def takeEjected (s : State) (p : Packet) : State :=
  let f (r : Router) : Router := { r with ejected := r.ejected.erase p }
  updRouter (updRouter s .w f) .e f

/-- The one reply to a request, put into the router of a half: it returns the mark in Echo and carries the request's
PathHash and the next Seq of the reply class (R251, R263, R275). -/
def replyTo (s : State) (h : Half) (p : Packet) (tag status mask : Nat) (data : Bytes) : State :=
  nextReplySeq (inject s h { mkPacket s p.src 4 (routerOf s h).seqReply p.pathHash (.rep tag status mask data) with echo := p.mark } none) h

/-- Whether the module serves requests of other modules: Ready, with neither bridge nor memory failed (Table FAB-5). -/
def servesFabric (s : State) : Bool := objGet s Obj.moduleState == 1

/-- The lines of LPDDR a request touches, for the snoop filter (R327). -/
def touchedLines (s : State) (off n : Nat) : List Nat :=
  if regionOf s off = .lpddr then (linesOf off n).map (· / 64) else []

/-- A request at its target: not-ready outside Ready; a tracked line is back-invalidated first and the request waits, as it does
for a Dim channel, and a store or atomic while its channel or slice has just admitted one; a response that never came ends
it as a timeout; else `run` serves it (R176, R279, R285, R327). -/
def serveRequest (s : State) (p : Packet) (off tag n : Nat) (read : Bool) (run : State → Half → State) : State :=
  let h := homeHalf s off
  let ls := touchedLines s off n
  if !servesFabric s then replyTo (takeEjected s p) h p tag fabNotReady 0 []
  else if snoopFailed s ls then
    replyTo (takeEjected (forgetBad s ls) p) h p tag fabTimeout 0 []
  else if snoopWaits s ls then s
  else if ls.any (tracked s) then backInvalidate s read ls
  else if !read && admitLate s off then s
  else pastDim s off (if regionOf s off = .lpddr then n else 0) (p.src, p.seq, tag)
    (fun s => run (takeEjected (if read then s else noteAdmit s off) p) h)

/-! ### The replay cache (R281 to R284) -/

/-- Entries of a half's replay cache. -/
def replayOf (s : State) (h : Half) : List Replay := s.replay.filter (fun (x : Replay) => x.half == h)

/-- The entry of a source and Seq. -/
def replayFind (s : State) (h : Half) (src seq : Nat) : Option Replay :=
  s.replay.find? (fun (x : Replay) => x.half == h && x.src == src && x.seq == seq)

/-- The age of an entry in µs. -/
def replayAge (s : State) (x : Replay) : Nat := (((s.now : Int) - x.born) / 1000).toNat

/-- An entry evicted, its age noted for ReplayLifetimeUs. -/
def evictReplay (s : State) (x : Replay) : State :=
  { s with replay := s.replay.erase x,
           evicted := (s.evicted.filter (fun e => decide (s.now ≤ e.1 + ms 1000))) ++ [(s.now, replayAge s x)] }

/-- ReplayLifetimeUs: the shortest age at an eviction over the last second (R282). -/
def replayLifetime (s : State) : Nat :=
  ((s.evicted.filter (fun e => decide (s.now ≤ e.1 + ms 1000))).map Prod.snd).foldl min 4000

/-- A new entry; a full cache first gives up its oldest entry that is not pinned (R282). -/
def enterReplay (s : State) (h : Half) (src seq : Nat) (reply : Body) (pinned : Bool) : State :=
  let s :=
    if (replayOf s h).length < 32768 then s
    else
      match (replayOf s h).find? (fun (x : Replay) => !x.pinned) with
      | some x =>
        updRouter (objInc (evictReplay s x) Obj.replayEarlyEvictions) h (fun r => { r with lastEarly := some s.now })
      | none => s
  { s with replay := s.replay ++ [{ half := h, src := src, seq := seq, reply := reply, born := s.now, pinned := pinned }] }

/-- The estimate of a sequenced request's age: AgeUs + 2 µs × Hops (R283). -/
def ageOf (p : Packet) (age : Nat) : Nat := age + 2 * p.hops

/-- Whether a sequenced request whose key is not in the cache is applied (Table FAB-6). -/
def applies (s : State) (h : Half) (p : Packet) (age : Nat) : Bool :=
  let early := match (routerOf s h).lastEarly with
    | some t => decide (s.now < t + us 4000)
    | none => false
  decide (ageOf p age ≤ 3000)
    && (!p.resent || (!early && decide (((replayOf s h).filter (fun (x : Replay) => x.pinned)).length < 4096)))

/-- A sequenced request decided as in Table FAB-6; `run` gives the state and the reply's body. -/
def sequenced (s : State) (h : Half) (p : Packet) (tag age : Nat) (run : State → State × Nat × Nat × Bytes) : State :=
  match replayFind s h p.src p.seq with
  | some x =>
    match x.reply with
    | .rep _ st m d => replyTo (objInc s Obj.replayHits) h p tag st m d
    | _ => s
  | none =>
    if applies s h p age then
      let r := run s
      let s := enterReplay r.1 h p.src p.seq (.rep tag r.2.1 r.2.2.1 r.2.2.2) p.resent
      replyTo s h p tag r.2.1 r.2.2.1 r.2.2.2
    else
      replyTo (journal (objInc s Obj.outcomeUnknown) .outcomeUnknown [p.src, p.seq]) h p tag fabUnknown 0 []

/-! ### At the source -/

/-- A request released: the tag of a resent one is held back for ReplyTimeoutUs (R280). -/
def releaseTag (s : State) (o : Outst) : State :=
  let s := { s with outst := s.outst.erase o }
  if o.resent then { s with tagHold := smSet s.tagHold o.tag (s.now + us (objGet s Obj.replyTimeoutUs)) } else s

/-- Granules a half's remote read cache holds (R157, R287). -/
def cacheRoom (s : State) (h : Half) : Nat := s.rcEff.getD (halfIx h) 0 * 4096

/-- A granule filled into the cache; the oldest gives way when it is full. -/
def fillCache (s : State) (h : Half) (c g : Nat) (data : List LineData) : State :=
  let old := s.rcache.filter (fun (x : CacheLine) => !(x.half == h && x.chip == c && x.granule == g))
  let mine := old.filter (fun (x : CacheLine) => x.half == h)
  let old := if mine.length < cacheRoom s h then old else
    match mine with
    | x :: _ => old.erase x
    | [] => old
  { s with rcache := old ++ [{ half := h, chip := c, granule := g, data := data }] }

/-- The lines of a load reply. -/
def replyLines (data : Bytes) (mask : Nat) : List LineData :=
  (List.range (ceilDiv data.length 64)).map (fun i => { bytes := (data.drop (64 * i)).take 64, poison := natBit i mask })

/-- The Table STR-6 cause of a reply status (R279). -/
def causeOf (status : Nat) : Nat := if status = fabAddress then 6 else 3

/-- The context and request that a stream requester names. -/
def findReq (s : State) (e seq id : Nat) : Option (StreamCtx × Req) :=
  ((engineCtx s e).find? (fun (c : StreamCtx) => c.d.seq == seq && c.reqs.any (fun (r : Req) => r.id == id))).bind
    (fun (c : StreamCtx) => (c.reqs.find? (fun (r : Req) => r.id == id)).map (fun r => (c, r)))

/-- The destination lines of a request that one store wrote: those whose translated address is the store's, or all when
the windows have changed. -/
def storeLines (s : State) (c : StreamCtx) (r : Req) (o : Outst) : List Nat :=
  let top := destTop c.d.words r.scale
  let lines := nearLines (heldBytes c.d.words r)
  let hit := lines.filter (fun l => putTo s top (64 * l) == .far o.dest o.off)
  if hit.isEmpty then lines else hit

/-- A stream's request answered: a load ends it; a store ends it with the last acknowledgement, its line faulted when it
was not applied (R142, R147, R279). -/
def streamAnswer (s : State) (o : Outst) (e seq id status mask : Nat) (data : Bytes) : State :=
  match findReq s e seq id with
  | none => s
  | some (c, r) =>
    if r.sent || strDir c.d.words == 1 then
      let s := if status = 0 then s else
        tallied (updCtx s e c.d.queue seq (fun c =>
          noteDestFaults c (destTop c.d.words r.scale) (causeOf status) (storeLines s c r o) (heldBytes c.d.words r))) e c
      if s.outst.any (fun (x : Outst) => x.who == .stream e seq id) then s
      else
        match findReq s e seq id with
        | some (c, r) => finishReq s e c { r with sent := true } (.done [])
        | none => s
    else if status ≠ 0 then finishReq s e c r (.fail (causeOf status) 15)
    else
      let s := if o.fillOk && mask == 0 then fillCache s o.half o.dest (o.off / 256) (replyLines data mask) else s
      finishReq s e c r (.lines ((replyLines data mask).drop ((o.want - o.off) / 64)))

/-- A request answered, or given up with a status (R277, R279, R280). -/
def answer (s : State) (o : Outst) (status mask : Nat) (data : Bytes) : State :=
  let s := releaseTag s o
  match o.who with
  | .stream e seq id => streamAnswer s o e seq id status mask data
  | .scan nn =>
    updVec s nn (fun u => { u with
      amaxWait := false
      done := u.done.map (fun d => (d.1, { d.2 with status := status, poisoned := d.2.poisoned || (status == 0 && natBit 0 mask) })) })
  | .tail q seq => if status = 0 then s else remoteSignalFailed s q seq

/-! ### Hot destinations (R264) -/

/-- The class window of a half. -/
def classWindow (r : Router) (c : PClass) : Nat := if c = .coll then r.winColl else r.winReq

/-- An echo from a destination: it is entered in the hot table, replacing the entry with the largest window when the table
of its class is full, and its window is halved, at most once per 4 µs. -/
def echoFrom (s : State) (h : Half) (c : PClass) (d : Nat) : State :=
  updRouter s h (fun r =>
    let cut (w : Nat) : Nat := max 16384 (w / 2)
    if r.hot.any (fun (x : Hot) => x.cls == c && x.dest == d) then
      { r with hot := r.hot.map (fun (x : Hot) =>
          if x.cls = c ∧ x.dest = d then
            (if x.halved + us 4 ≤ s.now then { x with window := cut x.window, halved := s.now, echoed := s.now }
             else { x with echoed := s.now })
          else x) }
    else
      let mine := r.hot.filter (fun (x : Hot) => x.cls == c)
      let big := mine.foldl (fun m (x : Hot) => max m x.window) 0
      let kept := if mine.length < 256 then r.hot else
        match mine.find? (fun (x : Hot) => x.window == big) with
        | some x => r.hot.erase x
        | none => r.hot
      { r with hot := kept ++ [{ cls := c, dest := d, window := cut (classWindow r c), halved := s.now, echoed := s.now }] })

end Sys2Proof.Machine
end

