-- ==== Sys2Proof/Machine/RouteOps.lean ====
section
/-!
DEFINITION. The operations of the routers (12): credits (R254), usable links (R255), windows (R264), marks (R263), the send
of a packet, its drop, and the choice of its output.
-/

namespace Sys2Proof.Machine

/-! ### Packets -/

/-- The class of a virtual channel (Table RTE-2). -/
def classOf (vc : Nat) : PClass :=
  if vc = 0 then .mgmt else if vc < 4 then .request else if vc < 7 then .reply else .coll

/-- Whether a virtual channel is adaptive. -/
def isAdaptive (vc : Nat) : Bool := vc == 1 || vc == 4 || vc == 7

/-- The escape channel of a class and epoch. -/
def escapeVc (vc epoch : Nat) : Nat :=
  match classOf vc with
  | .mgmt => 0
  | .request => 2 + epoch % 2
  | .reply => 5 + epoch % 2
  | .coll => 8 + epoch % 2

/-- A malformed header (R251), or a VC0 packet longer than 64 B (R253). -/
def malformed (p : Packet) : Bool :=
  decide (9 < p.vc) || decide (p.len < 4) || decide (80 < p.len) || !p.reservedZero || (p.vc == 0 && decide (16 < p.len))

/-- Whether a packet is an atomic or a signal, to be applied exactly once (R281). -/
def isSequenced (p : Packet) : Bool :=
  match p.body with
  | .req _ _ (.atomic _ _ _ _ _) => true
  | .req _ _ (.signal _ _) => true
  | _ => false

/-- Whether a packet is a K32 add. -/
def isFadd (p : Packet) : Bool :=
  match p.body with
  | .req _ _ (.atomic 7 _ _ _ _) => true
  | _ => false

/-! ### Links and credits -/

/-- Whether a link is usable for a packet (R255, R246, Table LNK-8). -/
def usableLink (s : State) (k : Nat) (p : Packet) : Bool :=
  let l := linkOf s k
  l.bound && decide (linkState s k ≤ 1) && (l.version != 1 || p.vc ≤ 6)
    && (classOf p.vc != .coll || natBit 1 l.agreed) && (!p.mcast || natBit 2 l.agreed) && (!isFadd p || natBit 3 l.agreed)

/-- Whether a link is reached from a half: its own, or across a bridge that is trained and has not failed (R257). -/
def reachLink (s : State) (h : Half) (k : Nat) : Bool := linkHalf s k == h || bridgeUp s

/-- Whether the receiver has credit for a packet of c credits on a virtual channel (R254). -/
def hasCredit (l : Link) (vc c : Nat) : Bool :=
  let r := 8 * l.outLanes.length
  let o := l.occ.getD vc 0
  let over_ := ((l.occ.drop 1).map (fun u => u - r)).sum
  vc == 0 || decide (o + c ≤ r) || decide (o + c + over_ ≤ 440 * l.outLanes.length + max r o)

/-- Flits a packet takes: its body is 236 B (R234). -/
def flitsOf (p : Packet) : Nat := if 236 < 4 * p.len then 2 else 1

/-- Whether the retry window of a link takes a packet's flits, and an out-lane in service carries them (R238). -/
def windowOpenFor (l : Link) (p : Packet) : Bool :=
  decide (l.unacked.length + flitsOf p ≤ retryWindow l) && l.outLanes.any laneUp

/-- Whether a packet can be sent on a link and virtual channel now. -/
def canSend (s : State) (k vc : Nat) (p : Packet) : Bool :=
  hasCredit (linkOf s k) vc (creditsOf p) && windowOpenFor (linkOf s k) p

/-! ### Held packets -/

/-- The packet of a router by its number. -/
def heldOf (s : State) (h : Half) (id : Nat) : Option Held := (routerOf s h).held.find? (fun (x : Held) => x.id == id)

/-- A function applied to a held packet. -/
def updHeld (s : State) (h : Half) (id : Nat) (f : Held → Held) : State :=
  updRouter s h (fun r => { r with held := r.held.map (fun (x : Held) => if x.id = id then f x else x) })

/-- A packet leaves its input buffer: the credits go back to the link it came on (R254). -/
def leaveRouter (s : State) (h : Half) (x : Held) : State :=
  let s := updRouter s h (fun r => { r with held := r.held.filter (fun (y : Held) => y.id != x.id) })
  match x.from_ with
  | some k => if x.owes then oweCredit s k x.p else s
  | none => s

/-- A packet dropped: for a request, `status` goes back to its source (R256). -/
def dropPacket (s : State) (h : Half) (x : Held) (counter status : Nat) : State :=
  let s := objInc (leaveRouter s h x) counter
  match x.p.body with
  | .req _ tag _ => replyTo s h x.p tag status 0 []
  | _ => s

/-! ### Injection windows (R264) -/

/-- Bytes of a half's requests that are injected and not answered, towards the destinations that a test picks. -/
def openRequestBytes (s : State) (h : Half) (d : Nat → Bool) : Nat :=
  let waiting (t : Nat) : Bool := (routerOf s h).held.any (fun (x : Held) => x.from_.isNone && x.p.src == chip s && !x.p.resent &&
    (match x.p.body with
      | .req _ t' _ => t' == t
      | _ => false))
  ((s.outst.filter (fun (o : Outst) => o.half == h && d o.dest && !waiting o.tag)).map Outst.bytes).sum

/-- Bytes of this module's collective packets that wait for acknowledgement on the links of a half. -/
def openCollBytes (s : State) (h : Half) (d : Nat → Bool) : Nat :=
  ((List.range 64).map (fun k =>
    if linkHalf s k != h then 0
    else ((packetsOf (linkOf s k).unacked).map (fun e =>
      if e.2.src == chip s && classOf e.2.vc == .coll && d e.2.dest then 4 * e.2.len else 0)).sum)).sum

/-- Whether the window of a packet's destination or class lets it in. Only this half's own new requests and collective
packets are windowed. -/
def windowLets (s : State) (h : Half) (x : Held) : Bool :=
  let c := classOf x.p.vc
  if x.from_.isSome || x.p.src != chip s || x.p.resent || !(c == .request || c == .coll) then true
  else
    let r := routerOf s h
    let bytes (d : Nat → Bool) : Nat := if c == .request then openRequestBytes s h d else openCollBytes s h d
    match r.hot.find? (fun (e : Hot) => e.cls == c && e.dest == x.p.dest) with
    | some e => decide (bytes (fun d => d == x.p.dest) + 4 * x.p.len ≤ e.window)
    | none =>
      decide (bytes (fun d => !r.hot.any (fun (e : Hot) => e.cls == c && e.dest == d)) + 4 * x.p.len ≤ classWindow r c)

/-! ### Sending (R254, R255, R257, R263) -/

/-- Whether a packet is marked as it is enqueued at an output (R263). -/
def marks (s : State) (k vc : Nat) : Bool :=
  let l := linkOf s k
  vc != 0 && natBit 7 l.agreed && decide (objGet s Obj.congMarkPct * 448 * l.outLanes.length < 100 * l.occ.getD vc 0)

/-- A packet put on a link: counted, and its flits sent (R433). -/
def linkSend (s : State) (k : Nat) (p : Packet) : State :=
  let s := match countClass p.vc with
    | some c => updLink s k (fun l => { l with tx := l.tx.modify c (satAdd counterMax 1) })
    | none => s
  let s := if flitsOf p = 2 then sendFlit s k (.begins p.vc) else s
  sendFlit s k (.packets [p])

/-- The packet as it leaves for a link: next virtual channel, one hop more, its time in the router added to its age, marked
where its output is full. -/
def leaving (s : State) (k vc : Nat) (x : Held) : Packet :=
  let p := addAge (usUp (s.now - x.since)) x.p
  { p with vc := vc, hops := p.hops + 1, mark := p.mark || marks s k vc,
           epoch := if (linkOf s k).version = 1 then 0 else p.epoch }

/-- A packet put into the bridge's buffers (R12). -/
def putCrossing (s : State) (x : Crossing) : State :=
  { s with bridge := { s.bridge with crossing := s.bridge.crossing ++ [x] } }

/-- A copy of a held packet sent on a link; a link of the other half is reached across the bridge (R257). -/
def sendCopy (s : State) (h : Half) (k vc : Nat) (x : Held) : State :=
  let p := leaving s k vc x
  let s := if marks s k vc then objInc s Obj.congMarks else s
  let s := if vc = 0 then s else updLink s k (fun l => { l with occ := l.occ.modify vc (· + creditsOf p) })
  if linkHalf s k = h then linkSend s k p
  else putCrossing s { p := p, link := some k, to_ := otherHalf h }

/-- A packet sent on a link. A resent atomic or signal whose peer keeps no replay cache ends as outcome unknown (Table
LNK-8). -/
def sendOn (s : State) (h : Half) (k vc : Nat) (x : Held) : State :=
  if x.p.resent && isSequenced x.p && x.p.dest == (linkOf s k).peer && !natBit 4 (linkOf s k).agreed then
    journal (dropPacket s h x Obj.outcomeUnknown fabUnknown) .outcomeUnknown [x.p.src, x.p.seq]
  else leaveRouter (sendCopy s h k vc x) h x

/-! ### Delivery in this module -/

/-- The half whose port a packet for this module is ejected to (R12, R292). -/
def ejectHalf (s : State) (h : Half) (p : Packet) : Half :=
  match p.body with
  | .req off _ _ => homeHalf s off
  | .rep tag _ _ _ => ((s.outst.find? (fun (o : Outst) => o.tag == tag)).map Outst.half).getD h
  | .coll c => if c.collId % 2 = 0 then .w else .e
  | .collEcho id => if id % 2 = 0 then .w else .e
  | .mgmtMsg _ => h
  | .report _ => h

/-- A packet put at the ejection port of a half. -/
def putEjected (s : State) (h : Half) (p : Packet) : State := updRouter s h (fun r => { r with ejected := r.ejected ++ [p] })

/-- A packet for this module at a router: put at the ejection port of its half, or into the bridge when the unit it is for
stands in the other half (Table MOD-5). -/
def ejectTo (s : State) (h : Half) (p : Packet) : State :=
  if ejectHalf s h p = h then putEjected s h p else putCrossing s { p := p, link := none, to_ := otherHalf h }

/-- The channel or slice that a request is for. -/
def requestUnit (s : State) (p : Packet) : Option Nat :=
  match p.body with
  | .req off _ _ => admitUnit s off
  | _ => none

/-- Whether the ejection queue of a request's channel or slice has room: 64 requests (R286). -/
def queueRoom (s : State) (p : Packet) : Bool :=
  match requestUnit s p with
  | some u => decide (((s.routerW.ejected ++ s.routerE.ejected).filter (fun q => requestUnit s q == some u)).length < 64)
  | none => true

/-- Whether a packet can be ejected: the half of its unit is reached, and its queue has room. -/
def ejectOk (s : State) (h : Half) (p : Packet) : Bool := (ejectHalf s h p == h || bridgeUp s) && queueRoom s p

/-! ### Tables (Table RTE-3) -/

/-- The state of a bank (Table RTE-7). -/
def bankState (s : State) (b : Nat) : Nat := objGet s Obj.routeBankState / 4 ^ (b % 2) % 4

/-- The entry of a chip in the bank of an epoch. -/
def routeEntry (s : State) (h : Half) (epoch c : Nat) : Nat :=
  let r := routerOf s h
  smGetD (if epoch % 2 = 0 then r.bank0 else r.bank1) c 0

/-- Fields of an entry. -/
def candOf (e i : Nat) : Nat := e / 2 ^ (6 * i) % 64
def candValid (e i : Nat) : Bool := natBit (24 + i) e
def escLink (e : Nat) : Nat := e / 2 ^ 28 % 64
def escValid (e : Nat) : Bool := natBit 34 e

/-- RouteSalt: the chip number until it is written (Table RTE-7). -/
def routeSalt (s : State) : Nat := smGetD s.dic Obj.routeSalt (chip s)

/-- The usable candidates of a packet, the hashed one first (R255). -/
def candLinks (s : State) (h : Half) (p : Packet) : List Nat :=
  let e := routeEntry s h p.epoch p.dest
  let cs := (List.range 4).filterMap (fun i =>
    if candValid e i && usableLink s (candOf e i) p && reachLink s h (candOf e i) then some (candOf e i) else none)
  let at_ := Nat.xor p.pathHash (routeSalt s) % cs.length
  if isAdaptive p.vc && decide (p.hops < objGet s Obj.maxAdaptiveHops) then cs.drop at_ ++ cs.take at_ else []

/-- Whether a packet's escape link is usable. -/
def escapeUsable (s : State) (h : Half) (p : Packet) : Bool :=
  let e := routeEntry s h p.epoch p.dest
  escValid e && usableLink s (escLink e) { p with vc := escapeVc p.vc p.epoch } && reachLink s h (escLink e)

/-- What `choose` answers (R255, R256). -/
inductive Choice
  | send (link vc : Nat)
  | wait
  | noEscape
  | badEscape
  deriving DecidableEq, Repr

/-- The choice of a link for a packet that is not for this module (R255). -/
def choose (s : State) (h : Half) (p : Packet) : Choice :=
  let e := routeEntry s h p.epoch p.dest
  let cs := candLinks s h p
  match cs.find? (fun k => canSend s k p.vc p) with
  | some k => .send k p.vc
  | none =>
    let esc := escapeVc p.vc p.epoch
    if escapeUsable s h p then (if canSend s (escLink e) esc p then .send (escLink e) esc else .wait)
    else if !cs.isEmpty then .wait
    else if escValid e then .badEscape
    else .noEscape

/-! ### Sharing a link (R262) -/

/-- The copies a multicast still needs here: local, plus side, minus side (R265). -/
def copiesOf (s : State) (x : Held) : Bool × Bool × Bool :=
  let own := axisOwn s x.p.axis
  x.copies.getD (true,
    decide (own < x.p.hi) && !(x.from_.isSome && x.from_ == axisPlus s x.p.axis),
    decide (x.p.lo < own) && !(x.from_.isSome && x.from_ == axisMinus s x.p.axis))

/-- The link on which a VC0 packet goes on: to its chip where that is a peer, else the escape link of the Active bank (R253). -/
def mgmtLink (s : State) (h : Half) (p : Packet) : Option Nat :=
  let e := routeEntry s h (objGet s Obj.routeEpochActive) p.dest
  (linkTo s p.dest).or (if escValid e then some (escLink e) else none)

/-- The links and virtual channels on which a held packet could leave now. -/
def outputs (s : State) (h : Half) (x : Held) : List (Nat × Nat) :=
  if !windowLets s h x then []
  else if x.p.vc = 0 then
    (if x.p.dest = chip s then []
     else ((mgmtLink s h x.p).filter (fun k => carriesMgmt s k && reachLink s h k && windowOpenFor (linkOf s k) x.p)).toList.map
      (fun k => (k, 0)))
  else if x.p.mcast then
    let esc := escapeVc x.p.vc x.p.epoch
    let c := copiesOf s x
    ((if c.2.1 then (axisPlus s x.p.axis).toList else []) ++ (if c.2.2 then (axisMinus s x.p.axis).toList else [])).filterMap (fun k =>
      if usableLink s k { x.p with vc := esc } && reachLink s h k && canSend s k esc x.p then some (k, esc) else none)
  else if x.p.dest = chip s then []
  else
    match choose s h x.p with
    | .send k vc => [(k, vc)]
    | .wait | .noEscape | .badEscape => []

/-- The number of a class in LinkWeights: management, requests, replies, collectives (Table RTE-7). -/
def classIx (vc : Nat) : Nat :=
  match classOf vc with
  | .mgmt => 0
  | .request => 1
  | .reply => 2
  | .coll => 3

/-- Whether a link leaves by the same output as another: it is that link, or both are reached across the bridge, whose router
group shares its bundles in the same way. -/
def samePort (s : State) (h : Half) (k j : Nat) : Bool :=
  if linkHalf s k = h then k == j else linkHalf s j != h

/-- The packets that could leave by the output of link k, each with the virtual channel, oldest first. -/
def waitingAt (s : State) (h : Half) (k : Nat) : List (Held × Nat) :=
  (routerOf s h).held.filterMap (fun x => ((outputs s h x).find? (fun o => samePort s h k o.1)).map (fun o => (x, o.2)))

/-- The packet a class sends first: one on its escape channel, else the oldest. -/
def firstOfClass (ws : List (Held × Nat)) (c : Nat) : Option Held :=
  let mine := ws.filter (fun w => classIx w.1.p.vc == c)
  ((mine.find? (fun w => w.2 != 0 && !isAdaptive w.2)).or mine.head?).map Prod.fst

/-- Deficit round robin: the first class whose share covers its packet, and the shares after it; when none does a round of 4 KiB
begins, in which each waiting class gets its weight and the others keep nothing. Shares and costs are in hundredths of
64 B. `fuel` bounds the rounds: the smallest weight reaches the longest packet in eight. -/
def drrPick (weights : Nat) (cost : Nat → Option Nat) : Nat → List Nat → Option (Nat × List Nat)
  | 0, _ => none
  | n + 1, d =>
    match (List.range 4).find? (fun c => (cost c).any (fun m => decide (m ≤ d.getD c 0))) with
    | some c => some (c, d.modify c (fun x => x - (cost c).getD 0))
    | none => drrPick weights cost n (d.mapIdx (fun c x => if (cost c).isSome then x + 64 * (weights / 2 ^ (8 * c) % 256) else 0))

/-- The shares of the output of link k. -/
def deficitOf (s : State) (h : Half) (k : Nat) : List Nat :=
  if linkHalf s k = h then (linkOf s k).deficit
  else match h with
    | .w => s.bridge.deficitW
    | .e => s.bridge.deficitE

/-- The shares of the output of link k replaced. -/
def setDeficit (s : State) (h : Half) (k : Nat) (d : List Nat) : State :=
  if linkHalf s k = h then updLink s k (fun l => { l with deficit := d })
  else match h with
    | .w => { s with bridge := { s.bridge with deficitW := d } }
    | .e => { s with bridge := { s.bridge with deficitE := d } }

/-- The output of link k serves a held packet: the state with its class's share spent, or none while the output serves another
first. -/
def served (s : State) (h : Half) (k : Nat) (x : Held) : Option State :=
  let ws := waitingAt s h k
  match drrPick (objGet s Obj.linkWeights) (fun c => (firstOfClass ws c).map (fun y => 100 * creditsOf y.p)) 9 (deficitOf s h k) with
  | some (c, d) => if (firstOfClass ws c).map (fun (y : Held) => y.id) = some x.id then some (setDeficit s h k d) else none
  | none => none

/-- Whether a packet that waits has credit somewhere but finds the retry window full (R238). -/
def windowStalled (s : State) (h : Half) (p : Packet) : Bool :=
  let e := routeEntry s h p.epoch p.dest
  let esc := escapeVc p.vc p.epoch
  (candLinks s h p).any (fun k => hasCredit (linkOf s k) p.vc (creditsOf p))
    || (escapeUsable s h p && hasCredit (linkOf s (escLink e)) esc (creditsOf p))

/-- OldEpochPackets: packets of the Draining epoch in injection queues, router and bridge buffers and retry memory
(R261). -/
def oldEpochPackets (s : State) : Nat :=
  let ps := ((s.routerW.held ++ s.routerE.held).map (fun (x : Held) => x.p)) ++ s.bridge.crossing.map Crossing.p
    ++ s.links.flatMap (fun (l : Link) => (packetsOf l.unacked).map Prod.snd)
  (ps.filter (isOld s)).length

end Sys2Proof.Machine
end

