-- ==== Sys2Proof/Machine/ColOps.lean ====
section
/-!
DEFINITION. Collectives (14): groups (Table COL-2), owners and paths (Table COL-3), the values a member contributes and
writes (R298, R302), reduction slots (R301), and collective packets (R300).
-/

namespace Sys2Proof.Machine

/-! ### Groups (R294) -/

/-- A group (Table COL-2). -/
structure Group where
  alg : Nat
  members : Nat
  own : Nat
  fanIn : Nat
  axis : Nat
  valid : Bool
  chips : List Nat
  deriving DecidableEq, Repr

/-- The bytes of entry i of CollGroupTable. -/
def groupBytes (image : Bytes) (i : Nat) : Bytes := (image.drop (528 * i)).take 528

/-- Group i. -/
def groupOf (s : State) (i : Nat) : Group :=
  let b := groupBytes (domGet s Obj.collGroupTable) i
  let w := leNat (b.take 8)
  { alg := w % 4, members := w / 2 ^ 2 % 256 + 1, own := w / 2 ^ 10 % 256, fanIn := w / 2 ^ 18 % 16, axis := w / 2 ^ 22 % 4,
    valid := natBit 24 w, chips := (List.range 256).map (fun r => leNat ((b.drop (16 + 2 * r)).take 2) % 2 ^ 14) }

/-- Chip of a rank. -/
def Group.chipOf (g : Group) (r : Nat) : Nat := g.chips.getD r 0

/-! ### A collective's shape (R293, R297 to R299) -/

/-- Segments, chunks, and segments in a chunk. -/
def colAllSegs (ws : List Word64) : Nat := colElems ws / 2048
def colChunks (ws : List Word64) : Nat := ceilDiv (colAllSegs ws) (colSegs ws)
def segsIn (ws : List Word64) (c : Nat) : Nat := min (colSegs ws) (colAllSegs ws - c * colSegs ws)

/-- The format inputs are read in, and whether they carry scale bytes (Table COL-1). -/
def inFmt (ws : List Word64) : Fmt :=
  match colIn ws with
  | 2 => .k16
  | 3 => .k32
  | 4 => .int32
  | _ => .k8

def inScaled (ws : List Word64) : Bool := colIn ws == 1

/-- Whether values are integers. -/
def colInt (ws : List Word64) : Bool := colIn ws == 4

/-- The format outputs are written in, and whether they carry scale bytes. -/
def outFmt (ws : List Word64) : Fmt :=
  match colOut ws with
  | 0 => if colInt ws then .int32 else .k32
  | 1 => .k16
  | 2 => .k8
  | _ => inFmt ws

def outScaled (ws : List Word64) : Bool := colOut ws == 2 || (colOut ws == 3 && inScaled ws)

/-- DataFmt of a result (Table COL-5). -/
def outCode (ws : List Word64) : Nat :=
  match outFmt ws with
  | .int32 => 1
  | .k16 => 2
  | .k8 => if outScaled ws then 4 else 3
  | _ => 0

/-- Bytes of a segment in a format. -/
def segBytes (f : Fmt) (scaled_ : Bool) : Nat := 2048 * (f.bits / 8) + (if scaled_ then 64 else 0)

/-- Elements in a result packet, and packets in a segment's result. -/
def perPacket (ws : List Word64) : Nat := 2048 / f.bits
  where f : Fmt := outFmt ws

def resultPackets (ws : List Word64) : Nat := 2048 / perPacket ws

/-- Levels of a collective. -/
def colLevels (ws : List Word64) : Nat := if colTwo ws then 2 else 1

/-- The group of a level. -/
def levelGroup (s : State) (ws : List Word64) (level : Nat) : Group := groupOf s (colGroup ws level)

/-- Whether nothing is reduced: AllGather and Broadcast. -/
def isSpread (ws : List Word64) : Bool := colOp ws == 2 || colOp ws == 3

/-- The owner of chunk c at a level: where its reduction ends, or whose data it is (Table COL-3, R299). -/
def ownerOf (s : State) (ws : List Word64) (level c : Nat) : Nat :=
  let g := levelGroup s ws level
  if colOp ws = 3 ∨ colOp ws = 4 then 0
  else if colOp ws = 2 then c % g.members
  else if g.alg = 2 then 0
  else if level = 0 then c % g.members
  else c / (levelGroup s ws 0).members % g.members

/-- Whether this member takes part in a chunk at a level: at level 1 only its level-0 owner does (R299). -/
def takesPart (s : State) (ws : List Word64) (level c : Nat) : Bool :=
  level == 0 || (colLevels ws == 2 && (levelGroup s ws 0).own == ownerOf s ws 0 c)

/-- Whether chunk c travels in decreasing rank: odd chunks of a bidirectional ring. -/
def backwards (g : Group) (c : Nat) : Bool := g.alg == 1 && c % 2 == 1

/-- The next rank of a ring for chunk c. -/
def ringNext (g : Group) (c r : Nat) : Nat := if backwards g c then (r + g.members - 1) % g.members else (r + 1) % g.members

/-- Rank r as seen from the owner of a tree, and back. -/
def fromOwner (g : Group) (o r : Nat) : Nat := (r + g.members - o) % g.members
def toRank (g : Group) (o n : Nat) : Nat := (n + o) % g.members

/-- Children of a rank in the tree of an owner. -/
def treeKids (g : Group) (o r : Nat) : List Nat :=
  (((List.range g.fanIn).map (fun i => g.fanIn * fromOwner g o r + i + 1)).filter (fun n => decide (n < g.members))).map (toRank g o)

/-- The rank that a partial goes to (Table COL-3). -/
def partialTo (g : Group) (o c r : Nat) : Nat :=
  if g.alg = 2 then toRank g o ((fromOwner g o r - 1) / max 1 g.fanIn)
  else if g.alg = 3 then o
  else ringNext g c r

/-- Whether a rank sends its local input on without a slot: the rank after a ring's owner, and all but the owner of an axis
(R301, Table COL-3). -/
def sendsBare (g : Group) (o c r : Nat) : Bool :=
  if g.alg = 2 then false else if g.alg = 3 then r != o else r == ringNext g c o

/-- The ranks whose inputs an engine takes for chunk c (Table COL-3). -/
def inputsOf (g : Group) (o c r : Nat) : List Nat :=
  if g.alg = 2 then r :: treeKids g o r
  else if g.alg = 3 then (if r = o then List.range g.members else [])
  else if r = ringNext g c o then (if r = o then [r] else [])
  else [r, (if backwards g c then (r + 1) % g.members else (r + g.members - 1) % g.members)]

/-- The ranks that a rank sends results on to; an axis is one multicast by its owner (Table COL-3). -/
def resultTo (g : Group) (o c r : Nat) : List Nat :=
  if g.alg = 2 then treeKids g o r
  else if g.alg = 3 then []
  else if ringNext g c r = o then [] else [ringNext g c r]

/-- Whether this member writes the output of chunk c (Table COL-4). -/
def writesOut (s : State) (ws : List Word64) (c : Nat) : Bool :=
  if colOp ws = 1 ∨ colOp ws = 4 then (levelGroup s ws 0).own == ownerOf s ws 0 c else true

/-- The offset of a segment of this member's input, and of its output (R297, R298). -/
def srcSeg (s : State) (ws : List Word64) (c seg : Nat) : Nat :=
  let c := if colOp ws = 2 then c / (levelGroup s ws 0).members else c
  colSrc ws + (c * colSegs ws + seg) * segBytes (inFmt ws) (inScaled ws)

def dstSeg (s : State) (ws : List Word64) (c seg : Nat) : Nat :=
  let c := if colOp ws = 1 then c / (levelGroup s ws 0).members else c
  colDst ws + (c * colSegs ws + seg) * segBytes (outFmt ws) (outScaled ws)

/-! ### Values (R302) -/

/-- A value entering the engine: its 32-bit code and poison tag, with OF, UF and NaR-seen of its widening. -/
structure ColIn where
  v : BankVal
  nar : Bool := false
  ovf : Bool := false
  uf : Bool := false
  deriving DecidableEq, Repr

/-- Element e of a segment at an offset. A poisoned line reads as NaR, or as a tagged integer (R33); a NaR that is widened
raises NaR-seen (R31, R47). -/
def inElem (s : State) (ws : List Word64) (base e : Nat) : ColIn :=
  let f := inFmt ws
  let n := f.bits / 8
  let a := base + e * n
  let sc := base + 2048 + e / 32
  let bad := linePoison s a || (inScaled ws && linePoison s sc)
  if f = .int32 then
    { v := ⟨BitVec.ofNat 32 (if bad then (Config.poisonedWord a).toNat else leNat (rawBytes s a 4)), bad⟩ }
  else if bad then { v := ⟨BitVec.ofNat 32 (Fmt.narCode .k32), true⟩, nar := f != .k32 }
  else
    let x := decodeK f (leNat (rawBytes s a n))
    let x := if inScaled ws then scaled (leNat (rawBytes s sc 1)) x else x
    let c := encodeK .k32 .nearest x
    { v := ⟨BitVec.ofNat 32 c.code, false⟩, nar := x.isNar && f != .k32, ovf := c.ovf, uf := c.uf }

/-- Two values combined, with NV, OF and UF (R302). -/
structure Comb where
  v : BankVal
  nv : Bool := false
  ovf : Bool := false
  uf : Bool := false
  deriving DecidableEq, Repr

/-- A combination by RedOp: sum, min or max. -/
def combine (ws : List Word64) (a b : BankVal) : Comb :=
  let tag := a.tag || b.tag
  if colInt ws then
    let x := a.value.toInt
    let y := b.value.toInt
    if colRed ws = 0 then
      let z := x + y
      let w : Int := max (-(2 ^ 31)) (min (2 ^ 31 - 1) z)
      { v := ⟨BitVec.ofInt 32 w, tag⟩, ovf := decide (w ≠ z) }
    else { v := ⟨BitVec.ofInt 32 (if colRed ws = 1 then min x y else max x y), tag⟩ }
  else
    let x := decodeK .k32 a.value.toNat
    let y := decodeK .k32 b.value.toNat
    if colRed ws = 0 then
      let r := kAdd x y
      let c := encodeK .k32 .nearest r.v
      { v := ⟨BitVec.ofNat 32 c.code, tag⟩, nv := r.nv, ovf := c.ovf, uf := c.uf }
    else if x.isNar || y.isNar then { v := ⟨BitVec.ofNat 32 (Fmt.narCode .k32), tag⟩ }
    else
      let first := if colRed ws = 1 then !kLt y x else !kLt x y
      { v := ⟨if first then a.value else b.value, tag⟩ }

/-- The outputs of a packet: element codes, scale bytes, tags, with counts of OF, UF and NaR. -/
structure OutRun where
  codes : List Nat
  scales : List Nat
  tags : List Bool
  ofs : Nat := 0
  ufs : Nat := 0
  nars : Nat := 0
  deriving DecidableEq, Repr

/-- The scale byte of the block of 32 that element i lies in (R105 with H = 0). -/
def scaleFor (vs : List KVal) (i : Nat) : Nat := blockScale .k8 0 ((vs.drop (i / 32 * 32)).take 32)

/-- Values converted into OutFmt (R302, R46, R47). -/
def outRun (ws : List Word64) (vs : List BankVal) : OutRun :=
  let tags := vs.map BankVal.tag
  if colInt ws then { codes := vs.map (fun v => v.value.toNat), scales := [], tags := tags }
  else
    let f := outFmt ws
    let ks := vs.map (fun v => decodeK .k32 v.value.toNat)
    let cs := (ks.zipIdx).map (fun x =>
      if outScaled ws then
        let b := scaleFor ks x.2
        if b = 255 then { code := Fmt.narCode f } else encodeK f .nearest (x.1.scale (127 - (b : Int)))
      else encodeK f .nearest x.1)
    { codes := cs.map Coded.code,
      scales := if outScaled ws then (List.range (vs.length / 32)).map (fun i => scaleFor ks (32 * i)) else [],
      tags := tags, ofs := (cs.filter Coded.ovf).length, ufs := (cs.filter Coded.uf).length,
      nars := (cs.filter (fun c => c.code == Fmt.narCode f)).length }

/-- The bytes of a result packet: its elements, then its scale bytes. -/
def resultBytes (ws : List Word64) (r : OutRun) : Bytes :=
  r.codes.flatMap (natLe ((outFmt ws).bits / 8)) ++ r.scales.flatMap (natLe 1)

/-- The mask of 64-B lines that hold a tagged element. -/
def tagMask (ws : List Word64) (tags : List Bool) : Nat :=
  let per := 512 / (outFmt ws).bits
  (List.range 4).foldl (fun m i => if ((tags.drop (per * i)).take per).any id then m + 2 ^ i else m) 0

/-- 32-bit words from bytes, and bytes from words. -/
def words32 (b : Bytes) : List Nat := (List.range (ceilDiv b.length 4)).map (fun i => leNat ((b.drop (4 * i)).take 4))
def bytes32 (ws : List Nat) : Bytes := ws.flatMap (natLe 4)

/-! ### The engine's collectives -/

/-- The half whose engine runs a CollId (R292). -/
def colHalf (id : Nat) : Half := if id % 2 = 0 then .w else .e

/-- The collective of an ID. -/
def collOf (s : State) (id : Nat) : Option Coll := s.colls.find? (fun (c : Coll) => c.id == id)

/-- The active collective of an ID. -/
def activeColl (s : State) (id : Nat) : Option Coll := s.colls.find? (fun (c : Coll) => c.id == id && c.active)

/-- A function applied to a collective. -/
def updColl (s : State) (id : Nat) (f : Coll → Coll) : State :=
  { s with colls := s.colls.map (fun (c : Coll) => if c.id = id then f c else c) }

/-- The pending entry of an ID (R309). -/
def pendOf (s : State) (id : Nat) : Option PendColl := s.pendColls.find? (fun (p : PendColl) => p.coll == id)

/-- A function applied to a pending entry. -/
def updPend (s : State) (id : Nat) (f : PendColl → PendColl) : State :=
  { s with pendColls := s.pendColls.map (fun (p : PendColl) => if p.coll = id then f p else p) }

/-- Slots a half holds (CollSlotsInUse). -/
def slotsIn (s : State) (h : Half) : Nat := (s.slots.filter (fun (x : Slot) => x.half == h)).length

/-- Active collectives of a half (CollActive). -/
def activeIn (s : State) (h : Half) : Nat := (s.colls.filter (fun (c : Coll) => c.active && colHalf c.id == h)).length

/-- The slot of a segment. -/
def slotOf (s : State) (id level c seg : Nat) : Option Slot :=
  s.slots.find? (fun (x : Slot) => x.coll == id && x.level == level && x.chunk == c && x.segment == seg)

/-- A function applied to a slot. -/
def updSlot (s : State) (id level c seg : Nat) (f : Slot → Slot) : State :=
  { s with slots := s.slots.map (fun (x : Slot) =>
      if x.coll = id ∧ x.level = level ∧ x.chunk = c ∧ x.segment = seg then f x else x) }

/-- Whether a chunk is done here. -/
def chunkDone (c : Coll) (n : Nat) : Bool := decide (n < c.signalled) || nsHas c.done n

/-- A dropped duplicate counted (R301). -/
def countDup (s : State) (id : Nat) : State :=
  updColl (objInc s Obj.collDuplicates) id (fun c => { c with dups := c.dups + 1 })

/-- The Counts of a slot at a position. -/
def slotCount (x : Slot) (pos : Nat) : Nat :=
  ((x.got.filter (fun e => e.1 / 256 == pos)).map Prod.snd).sum

/-- The accumulators of a slot in order. -/
def slotVals (x : Slot) : List BankVal := (List.range 2048).map (fun i => smGetD x.acc i ⟨0, false⟩)

/-- Whether a value of a collective is NaR. -/
def isNarVal (ws : List Word64) (v : BankVal) : Bool := !colInt ws && (decodeK .k32 v.value.toNat).isNar

/-- Values combined into a slot's accumulators from element `i` on, with the collective's flags; `inv` are the elements that are
NaR only because a sum was invalid at this engine. Such a NaR is no NaR operand: of one element only NV is raised (R31, R43,
R44, R109). -/
def combineVals (ws : List Word64) (inv : List Nat) : List BankVal → Nat → Slot → Result → Slot × Result
  | [], _, x, r => (x, r)
  | v :: vs, i, x, r =>
    match smGet x.acc i with
    | none => combineVals ws inv vs (i + 1) { x with acc := smSet x.acc i v, invs := if nsHas inv i then nsAdd x.invs i else x.invs } r
    | some a =>
      let c := combine ws a v
      let new := c.ovf && !nsHas x.ovfs i
      let nar := (isNarVal ws v && !nsHas inv i) || (isNarVal ws a && !nsHas x.invs i)
      combineVals ws inv vs (i + 1)
        { x with acc := smSet x.acc i c.v, ovfs := if c.ovf then nsAdd x.ovfs i else x.ovfs
                 invs := if isNarVal ws c.v && !nar then nsAdd x.invs i else nsDel x.invs i }
        { r with nv := r.nv || c.nv, ovf := r.ovf || c.ovf, narSeen := r.narSeen || nar,
                 nvCount := satAdd top32 r.nvCount (boolNat c.nv), ofCount := satAdd top32 r.ofCount (boolNat new),
                 ufCount := satAdd top32 r.ufCount (boolNat c.uf) }

/-! ### Packets (R300) -/

/-- PathHash of a collective packet. -/
def collHash (id c seg : Nat) : Nat := Nat.xor (Nat.xor id (c * 128)) seg % 2 ^ 16

/-- A collective packet put into the router of its engine's half, on the adaptive channel or for the grey pass on the
escape channel. -/
def sendColl (s : State) (dest : Nat) (h : CollHdr) : State :=
  let half := colHalf h.collId
  let p := mkPacket s dest 7 (routerOf s half).seqColl (collHash h.collId h.chunk h.segment) (.coll h)
  nextCollSeq (inject s half (if h.kind = .grey then { p with vc := escapeVc 7 p.epoch } else p) none) half

/-- A partial or grey packet of 64 values. -/
def valuesHdr (s : State) (ws : List Word64) (level c seg pos : Nat) (kind : CollKind) (sender count : Nat) (vs : List BankVal) : CollHdr :=
  { collId := colId ws, chunk := c, segment := seg, position := pos, level := level, kind := kind, sender := sender,
    count := count, owner := (levelGroup s ws level).chipOf (ownerOf s ws level c), fmt := boolNat (colInt ws),
    poisonMask := (List.range 4).foldl (fun m i => if ((vs.drop (16 * i)).take 16).any BankVal.tag then m + 2 ^ i else m) 0,
    data := vs.map (fun v => v.value.toNat) }

/-- The values of a partial or grey packet: data of a poisoned line is NaR, or tagged (R302). -/
def packetVals (h : CollHdr) : List BankVal :=
  (h.data.zipIdx).map (fun x =>
    if natBit (x.2 / 16) h.poisonMask then
      ⟨if h.fmt = 1 then BitVec.ofNat 32 x.1 else BitVec.ofNat 32 (Fmt.narCode .k32), true⟩
    else ⟨BitVec.ofNat 32 x.1, false⟩)

end Sys2Proof.Machine
end

