-- ==== Sys2Proof/Machine/ColEngine.lean ====
section
/-!
DEFINITION. The collective engine (14): inputs into slots or on the grey pass (R301, R304), segments sent on, results
written and spread (R298, R299), chunks and collectives done (R303, R306), and collectives ended early (R308).
-/

namespace Sys2Proof.Machine

/-- Own rank of this member at a level. -/
def ownRank (s : State) (ws : List Word64) (level : Nat) : Nat := (levelGroup s ws level).own

/-! ### Inputs (R301, R304) -/

/-- An input into its slot: dropped if its rank has contributed at the position, else counted and combined; `inv` as in
`combineVals`. -/
def intoSlot (s : State) (x : Slot) (ws : Option (List Word64)) (inv : List Nat) (pos sender count : Nat) (vs : List BankVal) : State :=
  let key := 256 * pos + sender
  if (smGet x.got key).isSome then countDup s x.coll
  else
    let x := { x with got := smSet x.got key count }
    match ws with
    | some ws =>
      match activeColl s x.coll with
      | some c =>
        let r := combineVals ws inv vs (64 * pos) x c.res
        updColl (updSlot s x.coll x.level x.chunk x.segment (fun _ => r.1)) x.coll (fun c => { c with res := r.2 })
      | none => s
    | none => updSlot s x.coll x.level x.chunk x.segment (fun _ => { x with parts := x.parts ++ [(pos, vs)] })

/-- Whether a chunk is grey at this engine. -/
def isGrey (s : State) (id c : Nat) : Bool :=
  ((collOf s id).any (fun (x : Coll) => x.active && nsHas x.grey c)) || ((pendOf s id).any (fun (p : PendColl) => nsHas p.grey c))

/-- A chunk turns grey (R304). -/
def turnChunkGrey (s : State) (id c : Nat) : State :=
  if isGrey s id c then s
  else
    let s := objInc s Obj.greyChunks
    if (activeColl s id).isSome then updColl s id (fun x => { x with grey := nsAdd x.grey c })
    else updPend s id (fun p => { p with grey := nsAdd p.grey c })

/-- An input sent on the grey pass to the chunk's owner. -/
def greyPass (s : State) (h : CollHdr) : State :=
  let s := sendColl (turnChunkGrey s h.collId h.chunk) h.owner { h with kind := .grey }
  let e := (h.level, h.chunk, h.segment, h.position, h.sender)
  if (activeColl s h.collId).isSome then updColl s h.collId (fun x => { x with passed := x.passed ++ [e] })
  else updPend s h.collId (fun p => { p with passed := p.passed ++ [e] })

/-- An input of 64 values: into its slot, into a slot claimed now, or on the grey pass. A segment that this engine has sent
on takes no more. -/
def takeInput (s : State) (ws : Option (List Word64)) (inv : List Nat) (h : CollHdr) (vs : List BankVal) : State :=
  if (activeColl s h.collId).any (fun (c : Coll) => c.sentSegs.contains (h.level, h.chunk, h.segment)) then countDup s h.collId
  else
    match slotOf s h.collId h.level h.chunk h.segment with
    | some x => intoSlot s x ws inv h.position h.sender h.count vs
    | none =>
      if isGrey s h.collId h.chunk || decide (2048 ≤ slotsIn s (colHalf h.collId)) then greyPass s h
      else
        let x : Slot := { half := colHalf h.collId, coll := h.collId, level := h.level, chunk := h.chunk, segment := h.segment }
        intoSlot { s with slots := s.slots ++ [x] } x ws inv h.position h.sender h.count vs

/-- A notice: an input with Count 0 in every position; without a slot it turns the chunk grey and is discarded. -/
def takeNotice (s : State) (h : CollHdr) : State :=
  match slotOf s h.collId h.level h.chunk h.segment with
  | some x =>
    updSlot s h.collId h.level h.chunk h.segment (fun _ =>
      { x with got := (List.range 32).foldl (fun m pos =>
          if (smGet m (256 * pos + h.sender)).isSome then m else smSet m (256 * pos + h.sender) 0) x.got })
  | none =>
    let s := turnChunkGrey s h.collId h.chunk
    let es := (List.range 32).map (fun pos => (h.level, h.chunk, h.segment, pos, h.sender))
    if (activeColl s h.collId).isSome then updColl s h.collId (fun x => { x with passed := x.passed ++ es })
    else updPend s h.collId (fun p => { p with passed := p.passed ++ es })

/-- The values of a segment sent to the next rank as its partial (R301). -/
def sendPartial (s : State) (ws : List Word64) (level c seg : Nat) (count : Nat → Nat) (vs : List BankVal) : State :=
  let g := levelGroup s ws level
  let to_ := g.chipOf (partialTo g (ownerOf s ws level c) c g.own)
  let s := (List.range 32).foldl (fun s pos =>
    sendColl s to_ (valuesHdr s ws level c seg pos .partialSum g.own (count pos) ((vs.drop (64 * pos)).take 64))) s
  updColl s (colId ws) (fun x => { x with sentSegs := x.sentSegs ++ [(level, c, seg)] })

/-- The notice that stands for the partial of a segment whose local input went grey (R304). -/
def sendNotice (s : State) (ws : List Word64) (level c seg : Nat) : State :=
  let g := levelGroup s ws level
  sendColl s (g.chipOf (partialTo g (ownerOf s ws level c) c g.own)) { valuesHdr s ws level c seg 0 .notice g.own 0 [] with data := [] }

/-- The local input of a segment at a level (R301, R304). -/
def enterLocal (s : State) (ws : List Word64) (level c seg : Nat) (vs : List BankVal) (inv : List Nat) : State :=
  let g := levelGroup s ws level
  let o := ownerOf s ws level c
  if sendsBare g o c g.own && g.own != o then sendPartial s ws level c seg (fun _ => 1) vs
  else
    let s := (List.range 32).foldl (fun s pos =>
      let v := (vs.drop (64 * pos)).take 64
      takeInput s (some ws) inv (valuesHdr s ws level c seg pos .partialSum g.own 1 v) v) s
    if (slotOf s (colId ws) level c seg).isNone && g.own != o then sendNotice s ws level c seg else s

/-! ### Results (R298, R299, R302) -/

/-- The lines of a result written with the poison bits they carry; `n` lines of 64 B from an offset. -/
def writeLines (s : State) (off mask : Nat) (data : Bytes) : Nat → State
  | 0 => s
  | n + 1 =>
    let k := ceilDiv data.length 64 - (n + 1)
    writeLines (writeBytes s (off + 64 * k) ((data.drop (64 * k)).take 64) (natBit k mask)) off mask data n

/-- The output of a result packet written, with what the record counts of it (Table COL-4, Table COL-6). -/
def writeResult (s : State) (ws : List Word64) (c seg pos mask : Nat) (data : Bytes) : State :=
  let f := outFmt ws
  let base := dstSeg s ws c seg
  let elems := data.take 256
  let s := writeLines s (base + 256 * pos) mask elems 4
  let s := if outScaled ws then writeBytes s (base + 2048 + 8 * pos) ((data.drop 256).take 8) false else s
  let bad := ((List.range 4).filter (fun i => natBit i mask)).length
  let nars := if f.isInt then 0 else
    ((List.range (perPacket ws)).filter (fun i => leNat ((elems.drop (i * (f.bits / 8))).take (f.bits / 8)) == f.narCode)).length
  updColl s (colId ws) (fun x =>
    { x with res := { x.res with poisonedLines := satAdd top32 x.res.poisonedLines bad, poisoned := x.res.poisoned || bad != 0,
                                 narCount := satAdd top32 x.res.narCount nars } })

/-- A result packet sent on at a level: to the next ranks, or by its owner as an axis multicast (Table COL-3, R265). -/
def spreadAt (s : State) (ws : List Word64) (level : Nat) (h : CollHdr) : State :=
  let g := levelGroup s ws level
  let o := ownerOf s ws level h.chunk
  let h := { h with level := level, owner := g.chipOf o, sender := if level = h.level then h.sender else g.own }
  if g.alg = 3 then
    if g.own ≠ o then s
    else
      let half := colHalf h.collId
      let lo := axisOwn s g.axis - g.own
      let p := mkPacket s (chip s) 7 (routerOf s half).seqColl (collHash h.collId h.chunk h.segment) (.coll h)
      nextCollSeq (inject s half { p with mcast := true, axis := g.axis, lo := lo, hi := lo + g.members - 1 } none) half
  else (resultTo g o h.chunk g.own).foldl (fun s r => sendColl s (g.chipOf r) h) s

/-- A result packet at this member: written where the output stands here, and sent on at its level and, from level 1, at
level 0. -/
def passResult (s : State) (ws : List Word64) (h : CollHdr) : State :=
  let id := colId ws
  let s := if writesOut s ws h.chunk then writeResult s ws h.chunk h.segment h.position h.poisonMask (bytes32 h.data) else s
  let s := updColl s id (fun x => { x with gotRes := x.gotRes ++ [(h.level, h.chunk, h.segment, h.position)] })
  let s := if colOp ws = 1 ∨ colOp ws = 4 then s
    else
      let s := spreadAt s ws h.level h
      if h.level = 1 then spreadAt s ws 0 h else s
  updColl s id (fun x =>
    if (List.range (resultPackets ws)).all (fun i => x.gotRes.contains (h.level, h.chunk, h.segment, i)) then
      { x with outSegs := x.outSegs ++ [(h.chunk, h.segment)],
               gotRes := x.gotRes.filter (fun e => !(e.1 == h.level && e.2.1 == h.chunk && e.2.2.1 == h.segment)) }
    else x)

/-- The segment of a chunk at its owner converted into OutFmt and spread. The conversion of a NaR raises NaR-seen (R47), but
of one that this engine's own invalid sum made (R44). -/
def spread (s : State) (ws : List Word64) (level c seg : Nat) (vs : List BankVal) (inv : List Nat) : State :=
  let n := perPacket ws
  let g := levelGroup s ws level
  let nar := (vs.zipIdx).any (fun x => isNarVal ws x.1 && !nsHas inv x.2)
  let s := updColl s (colId ws) (fun x => { x with res := { x.res with narSeen := x.res.narSeen || nar } })
  (List.range (resultPackets ws)).foldl (fun s pos =>
    let r := outRun ws ((vs.drop (n * pos)).take n)
    let s := updColl s (colId ws) (fun x =>
      { x with res := { x.res with ovf := x.res.ovf || r.ofs != 0, ofCount := satAdd top32 x.res.ofCount r.ofs,
                                   ufCount := satAdd top32 x.res.ufCount r.ufs } })
    passResult s ws
      { collId := colId ws, chunk := c, segment := seg, position := pos, level := level, kind := .result, sender := g.own,
        count := 0, owner := chip s, fmt := outCode ws, poisonMask := tagMask ws r.tags, data := words32 (resultBytes ws r) }) s

/-! ### Segments complete (R301, R305) -/

/-- The grey entries of a segment. -/
def greysOf (s : State) (id level c seg : Nat) : List Grey :=
  s.greys.filter (fun (e : Grey) => e.coll == id && e.level == level && e.chunk == c && e.segment == seg)

/-- The Counts of a segment at a position, its slot's and its grey entries'. -/
def coverage (s : State) (id level c seg pos : Nat) : Nat :=
  ((slotOf s id level c seg).map (fun x => slotCount x pos)).getD 0
    + ((greysOf s id level c seg).map (fun (e : Grey) => smGetD e.counts pos 0)).sum

/-- A segment of a slot with every input in every position: sent on as a partial, or at the owner its values and the elements
that are NaR only by an invalid sum here. -/
def closeSeg (s : State) (ws : List Word64) (level c seg : Nat) : State × Option (List BankVal × List Nat) :=
  let id := colId ws
  match slotOf s id level c seg with
  | none => (s, none)
  | some x =>
    let g := levelGroup s ws level
    let o := ownerOf s ws level c
    if x.sent then (s, none)
    else if g.own = o then
      if (List.range 32).all (fun pos => slotCount x pos == g.members) then
        (updColl (updSlot s id level c seg (fun x => { x with sent := true })) id
          (fun k => { k with sentSegs := k.sentSegs ++ [(level, c, seg)] }), some (slotVals x, x.invs))
      else (s, none)
    else if (inputsOf g o c g.own).all (fun r => (List.range 32).all (fun pos => (smGet x.got (256 * pos + r)).isSome)) then
      (sendPartial (updSlot s id level c seg (fun x => { x with sent := true })) ws level c seg (slotCount x) (slotVals x), none)
    else (s, none)

/-- The values of a segment done at its owner of level 0 go on to level 1, or are spread. -/
def stageOn (s : State) (ws : List Word64) (level c seg : Nat) (vs : List BankVal) (inv : List Nat) : State :=
  if level = 0 ∧ colLevels ws = 2 then
    let x := closeSeg (enterLocal s ws 1 c seg vs inv) ws 1 c seg
    match x.2 with
    | some v => spread x.1 ws 1 c seg v.1 v.2
    | none => x.1
  else spread s ws level c seg vs inv

/-- A segment taken as far as its inputs allow. -/
def advanceSeg (s : State) (ws : List Word64) (level c seg : Nat) : State :=
  let x := closeSeg s ws level c seg
  match x.2 with
  | some v => stageOn x.1 ws level c seg v.1 v.2
  | none => x.1

/-! ### Chunks and collectives done (R303, R306) -/

/-- Whether everything this engine will do for a segment is done. -/
def segDone (s : State) (ws : List Word64) (x : Coll) (c seg : Nat) : Bool :=
  if writesOut s ws c then x.outSegs.contains (c, seg)
  else
    let g := levelGroup s ws 0
    x.sentSegs.contains (0, c, seg)
      || (inputsOf g (ownerOf s ws 0 c) c g.own).all (fun r => (List.range 32).all (fun pos => x.passed.contains (0, c, seg, pos, r)))

/-- Done chunks signal in order (R306). `fuel` bounds their number. -/
def signalChunks (s : State) (ws : List Word64) : Nat → State
  | 0 => s
  | n + 1 =>
    match collOf s (colId ws) with
    | none => s
    | some x =>
      if nsHas x.done x.signalled then
        let s := updColl s (colId ws) (fun x => { x with done := nsDel x.done x.signalled, signalled := x.signalled + 1 })
        signalChunks (if colSigEn ws then syncAdd s (colSigObj ws) 1 else s) ws n
      else s

/-- Everything a collective holds at this engine released. -/
def dropColl (s : State) (id : Nat) : State :=
  { s with
    colls := s.colls.filter (fun (x : Coll) => x.id != id)
    slots := s.slots.filter (fun (x : Slot) => x.coll != id)
    greys := s.greys.filter (fun (x : Grey) => x.coll != id) }

/-- The missing ranks that a record names: whether any, the lowest, its level, how many, its chip. -/
structure Missing where
  level : Nat := 0
  ranks : List Nat := []
  chip : Nat := 0
  deriving DecidableEq, Repr

/-- Words 2 to 7 of a collective's record (Table COL-6). -/
def collBody (x : Coll) (m : Missing) : List Word64 :=
  let r := m.ranks.headD 0
  [BitVec.ofNat 64 ((x.signalled + x.done.length) % 2 ^ 24 + x.signalled % 2 ^ 24 * 2 ^ 24),
   BitVec.ofNat 64 (min top32 x.grey.length + min top32 x.dups * 2 ^ 32),
   BitVec.ofNat 64 (min top32 x.res.narCount + min top32 x.res.poisonedLines * 2 ^ 32),
   BitVec.ofNat 64 (m.chip % 2 ^ 14 + r % 256 * 2 ^ 14 + boolNat (!m.ranks.isEmpty) * 2 ^ 22 + m.level % 2 * 2 ^ 23
      + min 255 m.ranks.length * 2 ^ 24 + min top32 x.res.ofCount * 2 ^ 32),
   BitVec.ofNat 64 (min top32 x.res.ufCount + min top32 x.res.nvCount * 2 ^ 32), 0]

/-- What the queue learns from a collective that has ended. -/
def collDone (x : Coll) (status : Nat) (m : Missing) : Done :=
  { queue := x.d.queue, seq := x.d.seq, words := x.d.words, status := status, op := 0x60, engine := 127,
    summary := summaryOf x.res, body := collBody x m }

/-- A collective whose every chunk is done completes. -/
def completeColl (s : State) (ws : List Word64) : State :=
  match collOf s (colId ws) with
  | none => s
  | some x => if colChunks ws ≤ x.signalled then completeDesc (dropColl s x.id) (collDone x 0 {}) else s

/-- A chunk done here: its slots are released and its done bit is set (R303). -/
def closeChunk (s : State) (ws : List Word64) (c : Nat) : State :=
  match activeColl s (colId ws) with
  | none => s
  | some x =>
    if chunkDone x c || !(List.range (segsIn ws c)).all (segDone s ws x c) then s
    else
      let s := { s with slots := s.slots.filter (fun (y : Slot) => !(y.coll == x.id && y.chunk == c)) }
      let s := updColl s x.id (fun x =>
        { x with done := nsAdd x.done c, outSegs := x.outSegs.filter (fun e => e.1 != c),
                 sentSegs := x.sentSegs.filter (fun e => e.2.1 != c), passed := x.passed.filter (fun e => e.2.1 != c),
                 localDone := x.localDone.filter (fun e => e.1 != c) })
      completeColl (signalChunks s ws (colChunks ws + 1)) ws

/-! ### Ends before the end (R308) -/

/-- Nodes of a tree under some, level by level; `fuel` bounds their number. -/
def treeUnder (g : Group) (o : Nat) : Nat → List Nat → List Nat
  | 0, l => l
  | _, [] => []
  | n + 1, r :: rest => r :: treeUnder g o n (rest ++ treeKids g o r)

/-- The ranks whose inputs data of a sender and Count holds, by the path it came on. -/
def coveredBy (g : Group) (o c sender count : Nat) : List Nat :=
  if g.alg = 3 then (if count = 0 then [] else [sender])
  else if g.alg = 2 then (treeUnder g o g.members [sender]).take count
  else (List.range count).map (fun i => if backwards g c then (sender + i) % g.members else (sender + g.members - i % g.members) % g.members)

/-- The ranks that a position of a segment covers at the owner (R305). -/
def coveredAt (s : State) (g : Group) (o id level c seg pos : Nat) : List Nat :=
  let slot := match slotOf s id level c seg with
    | some x => (x.got.filter (fun e => e.1 / 256 == pos)).flatMap (fun e => coveredBy g o c (e.1 % 256) e.2)
    | none => []
  slot ++ (greysOf s id level c seg).flatMap (fun (e : Grey) => coveredBy g o c e.sender (smGetD e.counts pos 0))

/-- The ranks whose inputs were owed to this member for its lowest open chunk at a level and never arrived. -/
def missingAt (s : State) (ws : List Word64) (x : Coll) (level : Nat) : List Nat :=
  let c := x.signalled
  let g := levelGroup s ws level
  let o := ownerOf s ws level c
  if !x.active || !takesPart s ws level c || (level == 1 && colLevels ws == 1) then []
  else
    (List.range g.members).filter (fun r =>
      (List.range (segsIn ws c)).any (fun seg =>
        !x.outSegs.contains (c, seg) && !x.sentSegs.contains (level, c, seg)
          && (if isSpread ws then r == g.own && r == o && !x.localDone.contains (c, seg)
              else if g.own = o then (List.range 32).any (fun pos => !(coveredAt s g o x.id level c seg pos).contains r)
              else if sendsBare g o c g.own then r == g.own && !x.localDone.contains (c, seg)
              else (inputsOf g o c g.own).contains r && (List.range 32).any (fun pos =>
                !((slotOf s x.id level c seg).any (fun y => (smGet y.got (256 * pos + r)).isSome)
                  || x.passed.contains (level, c, seg, pos, r))))))

/-- The missing ranks of the record: those of level 0, or else of level 1. -/
def missingOf (s : State) (ws : List Word64) (m0 m1 : List Nat) : Missing :=
  if !m0.isEmpty then { level := 0, ranks := m0, chip := (levelGroup s ws 0).chipOf (m0.headD 0) }
  else if !m1.isEmpty then { level := 1, ranks := m1, chip := (levelGroup s ws 1).chipOf (m1.headD 0) }
  else {}

/-- A collective ended at this member with a status (R308, R305, Table COL-8). -/
def endColl (s : State) (x : Coll) (status : Nat) : State :=
  let ws := x.d.words
  let m0 := missingAt s ws x 0
  let m1 := missingAt s ws x 1
  let d := collDone x status (missingOf s ws m0 m1)
  let s := dropColl s x.id
  let s := { s with
    waiters := s.waiters.filter (fun w => !(w.queue == x.d.queue && w.seq == x.d.seq))
    ended := s.ended.filter (fun (e : Ended) => e.coll != x.id) ++ [{ coll := x.id, ranks0 := m0, ranks1 := m1 }] }
  completeDesc s d

/-! ### Adoption (R309) -/

/-- Inputs that came before the collective was active combined into a slot. -/
def adoptParts (ws : List Word64) : List (Nat × List BankVal) → Slot → Result → Slot × Result
  | [], x, r => (x, r)
  | (pos, vs) :: rest, x, r =>
    let y := combineVals ws [] vs (64 * pos) x r
    adoptParts ws rest y.1 y.2

/-- The slots of a pending entry taken over by the collective, and every segment that they complete. -/
def adopt (s : State) (ws : List Word64) : List Slot → State
  | [] => s
  | y :: rest =>
    match activeColl s (colId ws) with
    | none => s
    | some x =>
      let r := adoptParts ws y.parts { y with parts := [] } x.res
      let s := updColl (updSlot s y.coll y.level y.chunk y.segment (fun _ => r.1)) x.id (fun x => { x with res := r.2 })
      adopt (closeChunk (advanceSeg s ws y.level y.chunk y.segment) ws y.chunk) ws rest

end Sys2Proof.Machine
end

