-- ==== Sys2Proof/Machine/Seams.lean ====
section
/-!
DEFINITION. Seam markers (R144 to R146), the deadlock watch and the breaker (R162, R163).
-/

namespace Sys2Proof.Machine

/-! ### Seams -/

/-- ObjCount, RippleSel, object i and value i of a seam marker (Table STR-4). -/
def seamCount (ws : List Word64) : Nat := dField ws 0 10 8
def seamRipple (ws : List Word64) : Nat := dField ws 0 13 11
def seamObj (ws : List Word64) (i : Nat) : Nat := dField ws (2 * i + 1) 14 0
def seamValue (ws : List Word64) (i : Nat) : Nat := (wordAt ws (2 * i + 2)).toNat

/-- The rejection status of a seam marker, if any (R144). ObjCount above 6 names objects the layout does not
have. -/
def seamReject (ws : List Word64) : Option Nat :=
  if reservedSet ws seamReserved then some 1
  else if (seamRipple ws != 7 && decide (seamCount ws ≤ seamRipple ws)) || decide (6 < seamCount ws)
      || tailWaitEn ws || !targetOk ws then some 3
  else none

/-- Waits registered for the named objects that have not reached their values. -/
def seamWaits (s : State) (q seq : Nat) (ws : List Word64) : List Nat → State
  | [] => s
  | i :: r =>
    seamWaits (if reached s (seamObj ws i) (seamValue ws i) then s
      else addWait s (seamObj ws i) (seamValue ws i) q seq) q seq ws r

/-- A seam marker executed by every serving scheduler: rejected, or waiting to open. -/
def runSeam (s : State) (q : Nat) (f : Fetched) : State :=
  let s := updQ s q (fun x => { x with outstanding := x.outstanding + 1 })
  match seamReject f.words with
  | some st => rejectDesc s { queue := q, seq := f.seq, words := f.words, inLayer := f.inLayer } st 127
  | none =>
    let s := updQ s q (fun x => { x with seams := x.seams ++ [{ seq := f.seq, words := f.words, opened := false, inLayer := f.inLayer }] })
    seamWaits s q f.seq f.words (List.range (seamCount f.words))

/-- One half executes a scheduler's descriptor when it may by `ready`; its mark is cleared. -/
def reachIn (ready : State → Half → Nat → Fetched → State × Bool) (s : State) (q : Nat) (f : Fetched) (h : Half) : State :=
  if todoIn f h then
    let x := ready s h q f
    if x.2 then updFetched x.1 q f.seq (fun y => match h with
      | .w => { y with todoW := false }
      | .e => { y with todoE := false }) else x.1
  else s

/-- The queue's first descriptor with an opcode that its schedulers execute together: each serving half that has
reached it executes it, and `run` follows once all have (R144, R289). -/
def runTogether (ready : State → Half → Nat → Fetched → State × Bool) (s : State) (q op : Nat) (run : State → Fetched → State) : State :=
  match smGet s.queues q with
  | none => s
  | some v =>
    match v.fetched.find? (fun (f : Fetched) => opcode f.words == op && schedulerOwn s q v.halves f) with
    | none => s
    | some f =>
      let s := reachIn ready (reachIn ready s q f .w) q f .e
      match (smGet s.queues q).bind (fun (x : Queue) => x.fetched.find? (fun (y : Fetched) => y.seq == f.seq)) with
      | none => s
      | some y => if y.todoW || y.todoE then s else run (setTodo s q f.seq false false) f

/-- SEAM_MARKER: the queue's first marker that is fetched, by each serving half. -/
def seamMarkerAt (s : State) (q : Nat) : State := runTogether seamReady s q 0x41 (fun s f => runSeam s q f)

/-- SEAM_MARKER (R144). -/
def execSeamMarker (q : Nat) (s : State) : Res := .next (seamMarkerAt s q)

/-- Whether a fetched descriptor is one that an open seam issues early (R146): a Prologue stream, or the first
array descriptor on its array in the range. `before` are the arrays already named. -/
def earlyOk (f : Fetched) (before : List Nat) : Bool :=
  (opcode f.words == 0x40 && strPrologue f.words)
    || (opcode f.words == 0x20 && !before.contains (tailTarget f.words))

/-- Where the range of a marker ends: the next marker of its list, fetched or already executed (R146). DEDUCED (log entry 20): a
ring marker's range holds ring descriptors alone, a variant's its attempt's. -/
def seamEnd (v : Queue) (m : Seam) : Option Nat :=
  (((v.fetched.filter (fun (f : Fetched) => opcode f.words == 0x41 && f.inLayer == m.inLayer)).map Fetched.seq
    ++ (v.seams.filter (fun (x : Seam) => x.inLayer == m.inLayer)).map Seam.seq).filter (fun n => decide (m.seq < n))).min?

/-- Whether a descriptor lies in the range of a marker. -/
def inSeam (m : Seam) (stop : Option Nat) (f : Fetched) : Bool :=
  decide (m.seq < f.seq) && f.inLayer == m.inLayer && (match stop with
    | some n => decide (f.seq < n)
    | none => true)

/-- The fetched descriptors of a marker's range marked for early issue, in queue order. -/
def markEarly (m : Seam) (stop : Option Nat) : List Fetched → List Nat → List Fetched
  | [], _ => []
  | f :: r, seen =>
    if !inSeam m stop f then f :: markEarly m stop r seen
    else
      (if earlyOk f seen then { f with early := true } else f)
        :: markEarly m stop r (if opcode f.words = 0x20 then tailTarget f.words :: seen else seen)

/-- Whether a compute descriptor or LayerOpen before a marker has not been issued (R145). DEDUCED (log entry 20): before a
variant's marker stand its attempt's earlier descriptors and the ring descriptors before its LayerOpen. -/
def seamBusy (s : State) (q : Nat) (v : Queue) (m : Seam) : Bool :=
  let first := ((layerOf s q m.seq).map Layer.seq).getD m.seq
  v.fetched.any (fun (f : Fetched) =>
    decide (f.seq < m.seq) && (!m.inLayer || f.inLayer || decide (f.seq < first))
      && (decide (0x20 ≤ opcode f.words ∧ opcode f.words ≤ 0x3F) || opcode f.words == 0x50))

/-- SEAM_OPEN: the first marker waiting opens once earlier compute descriptors are issued and its waits are
released; its record and tail follow, and the prologue is marked for early issue (R145, R146). -/
def seamOpenAt (s : State) (q : Nat) : State :=
  match smGet s.queues q with
  | none => s
  | some v =>
    match v.seams.find? (fun (x : Seam) => !x.opened) with
    | none => s
    | some m =>
      if v.state != 1 || seamBusy s q v m || hasWait s q m.seq || !mayIssue s (homeOfHalves v.halves) then s
      else
        let s := updQ s q (fun x =>
          { x with
            seams := ({ m with opened := true } : Seam) :: x.seams.filter (fun (y : Seam) => !y.opened && y.seq != m.seq)
            fetched := markEarly m (seamEnd v m) x.fetched (arraysSince v m.seq)
            seamArrays := x.seamArrays.filter (fun a => decide (m.seq < a.1)) })
        let s := objInc s Obj.seamsOpened
        completeDesc s { queue := q, seq := m.seq, words := m.words, inLayer := m.inLayer, status := 0, op := 0x41, engine := 127,
                         summary := 0, body := List.replicate 6 0 }

/-- SEAM_OPEN (R145). -/
def execSeamOpen (q : Nat) (s : State) : Res := .next (seamOpenAt s q)

/-! ### The deadlock watch and breaker -/

/-- Whether the stream behind a claim is stalled: no request outstanding and no request made for the watch time
(R162). A claim kept after its stream's end remembers the last request. -/
def stalled (s : State) (c : Claim) : Bool :=
  let t := us s.watchEff
  match findCtx s c.slice c.queue c.seq with
  | some x => x.reqs.isEmpty && decide (max x.lastMove c.since + t ≤ s.now)
  | none => decide (max c.last c.since + t ≤ s.now)

/-- The claims that a waiting claim waits for: holders of its pages, or every held claim when the slice holds
16 (R159, R162). -/
def holders (s : State) (w : Claim) : List Claim :=
  let held := heldClaims s w.slice
  if 16 ≤ held.length then held else held.filter (fun (c : Claim) => meets c.pages w.pages)

/-- Whether holder a is spilled before holder b: lower priority, then latest grant, then highest QueueId (R162). -/
def spillFirst (s : State) (a b : Claim) : Bool :=
  let pa := ((smGet s.queues a.queue).map Queue.prio).getD 0
  let pb := ((smGet s.queues b.queue).map Queue.prio).getD 0
  decide (pa < pb) || (pa == pb && (decide (b.since < a.since) || (a.since == b.since && decide (b.queue < a.queue))))

/-- The holder to spill first. -/
def pickHolder (s : State) : List Claim → Option Claim
  | [] => none
  | c :: r =>
    match pickHolder s r with
    | none => some c
    | some d => if spillFirst s c d then some c else some d

/-- Bytes of the spill area in use. -/
def spillUsed (s : State) : Nat := (s.spills.map (fun (x : Spill) => 4096 * x.holder.pages.length)).sum

/-- One holder of a waiting claim's pages begins to be spilled, or, when the spill area cannot hold it, the waiting
claim's queue halts (R163). -/
def breakFor (s : State) (w : Claim) : State :=
  match pickHolder s ((holders s w).filter (fun (c : Claim) =>
      !s.spills.any (fun (x : Spill) => x.holder.queue == c.queue && x.holder.seq == c.seq))) with
  | none => s
  | some h =>
    if s.spillEff * 1048576 < spillUsed s + 4096 * h.pages.length then
      let s := objInc s Obj.deadlockSpillFull
      let s := { s with waitClaims := s.waitClaims.map (fun (c : Claim) =>
        if c.queue = w.queue ∧ c.seq = w.seq then { c with halted := true } else c) }
      let s := updQ s w.queue (fun x => { x with trapped := true, state := if x.state = 1 then 2 else x.state })
      raiseTrap s w.queue
    else
      let s := { s with spills := s.spills ++
        [{ holder := h, waiter := (w.queue, w.seq), stage := 0, bytes := [], poison := [] }] }
      let s := objInc s Obj.deadlockBreaks
      let s := journal s .deadlockSpill [h.slice, h.queue, w.queue, 4096 * h.pages.length]
      updCtx s h.slice h.queue h.seq (fun c => { c with ready := false })

/-- DEADLOCK_WATCH_FIRE: the slice's first claim that has waited for the watch time with every holder stalled
(R162). -/
def watchFire (s : State) (slice : Nat) : State :=
  match s.waitClaims.find? (fun (w : Claim) => w.slice == slice && !w.halted && !w.reclaim
      && decide (w.since + us s.watchEff ≤ s.now) && !(holders s w).isEmpty && (holders s w).all (stalled s)
      && !s.spills.any (fun (x : Spill) => x.stage == 0 && x.waiter == (w.queue, w.seq))) with
  | none => s
  | some w => if schedRuns s (halfOf64 slice) then breakFor s w else s

/-- DEADLOCK_WATCH_FIRE (R162). -/
def execDeadlockWatchFire (slice : Nat) (s : State) : Res := need (decide (slice < 64)) (watchFire s slice)

/-- The tile store offset of a byte of a slice's page. -/
def pageHas (slice : Nat) (pages : List Nat) (a : Nat) : Bool :=
  a / sliceSize == slice && pages.contains (a % sliceSize / 4096)

/-- The descriptors of a queue that a slice's engines have started, with the byte ranges they use (R163). -/
def startedRanges (s : State) (slice q : Nat) : List (Nat × List (Nat × Nat)) :=
  let a := s.arrays.getD slice {}
  let runs := a.run.toList ++ a.leaving.toList
  (runs.filter (fun (r : ArrayRun) => r.d.queue == q)).map (fun (r : ArrayRun) => (r.d.seq, arrRanges r.d.words))
    ++ ((s.vecs.getD slice {}).done.toList.filter (fun (x : Issued × Result) => x.1.queue == q)).map (fun x =>
        (x.1.seq, ownRanges x.1.words))
    ++ ((engineCtx s slice).filter (fun (c : StreamCtx) => c.started && c.d.queue == q)).map (fun (c : StreamCtx) =>
        (c.d.seq, strRanges c.d.words))

/-- Whether a started descriptor of the holder's queue, not the holder itself, still uses its range (R163 step 1). -/
def startedOver (s : State) (h : Claim) : Bool :=
  (startedRanges s h.slice h.queue).any (fun x => x.1 != h.seq && onPages h.pages x.2)

/-- Whether the breaker's copy of a range waits: its half's scheduler core is being restarted (R162, R199), or a channel is Dim,
which a range of 16 KiB or more meets (R170, R176). -/
def breakerWaits (s : State) (h : Claim) : Bool :=
  !schedRuns s (halfOf64 h.slice) || (decide (4 ≤ h.pages.length) && s.chans.any (fun (c : Chan) => c.dim.isSome))

/-- A waiting claim granted (R159). -/
def grantClaim (s : State) (i : Nat) : State :=
  match s.waitClaims[i]? with
  | none => s
  | some w =>
    updCtx { s with waitClaims := s.waitClaims.eraseIdx i, claims := s.claims ++ [{ w with since := s.now }] } w.slice w.queue w.seq
      (fun c => { c with ready := true, lastMove := s.now })

/-- The waiting claim for which a range was spilled is granted under R159, or the next holder of its pages is spilled (R162). -/
def grantWaiter (s : State) (waiter : Nat × Nat) : State :=
  match s.waitClaims.findIdx? (fun (c : Claim) => !c.reclaim && c.queue == waiter.1 && c.seq == waiter.2) with
  | none => s
  | some i =>
    if grantable s i then grantClaim s i
    else
      match s.waitClaims[i]? with
      | some w => breakFor s w
      | none => s

/-- SPILL_COPY_DONE: the holder's range stands in the spill area, its claim is released, the waiting claim is
granted or its next holder is spilled, and the range waits to be re-claimed ahead of every other (R163). Started descriptors that
use the range complete first. -/
def spillDone (s : State) (slice : Nat) : State :=
  match s.spills.find? (fun (x : Spill) => x.holder.slice == slice && x.stage == 0 && !startedOver s x.holder
      && !breakerWaits s x.holder) with
  | none => s
  | some x =>
    let h := x.holder
    let copy := s.tile.filter (fun c => pageHas slice h.pages c.1)
    let pois := s.tilePoison.filter (fun l => pageHas slice h.pages (64 * l))
    let s := { s with
      spills := s.spills.map (fun (y : Spill) => if y = x then { y with stage := 1, bytes := copy, poison := pois } else y)
      claims := s.claims.filter (fun (c : Claim) => !(c.queue == h.queue && c.seq == h.seq)) }
    let s := grantWaiter (objAdd s Obj.spillBytes (4096 * h.pages.length)) x.waiter
    { s with waitClaims := { h with reclaim := true, since := s.now } :: s.waitClaims }

/-- SPILL_COPY_DONE (R163). -/
def execSpillCopyDone (slice : Nat) (s : State) : Res := need (decide (slice < 64)) (spillDone s slice)

/-- SPILL_RECLAIM: the spilled range is claimed again once no claim overlaps it and the copy back begins; a range
whose release condition has come meanwhile is given up (R160, R163). -/
def reclaim (s : State) (slice : Nat) : State :=
  match s.spills.find? (fun (x : Spill) => x.holder.slice == slice && x.stage == 1 && schedRuns s (halfOf64 slice)) with
  | none => s
  | some x =>
    let h := x.holder
    let released := match h.release with
      | some (o, v) => reached s o v
      | none => false
    let mine (c : Claim) : Bool := c.queue == h.queue && c.seq == h.seq
    if released then
      { s with spills := s.spills.filter (fun (y : Spill) => y != x), waitClaims := s.waitClaims.filter (fun c => !mine c) }
    else if (heldClaims s slice).length < 16 ∧ !(heldClaims s slice).any (fun (c : Claim) => meets c.pages h.pages) then
      { s with
        spills := s.spills.map (fun (y : Spill) => if y = x then { y with stage := 2 } else y)
        waitClaims := s.waitClaims.filter (fun c => !mine c)
        claims := s.claims ++ [{ h with reclaim := false, since := s.now }] }
    else s

/-- SPILL_RECLAIM (R163). -/
def execSpillReclaim (slice : Nat) (s : State) : Res := need (decide (slice < 64)) (reclaim s slice)

/-- Cells put back into memory. -/
def putCells (m : Mem) : List (Nat × Byte) → Mem
  | [] => m
  | (a, b) :: r => putCells (memWrite m a b) r

/-- RESTORE_COPY_DONE: the range is as it was, the held descriptors are released and the holder goes on; a range whose claim has
been released meanwhile is not written (R160, R163). -/
def restoreDone (s : State) (slice : Nat) : State :=
  match s.spills.find? (fun (x : Spill) => x.holder.slice == slice && x.stage == 2 && !breakerWaits s x.holder) with
  | none => s
  | some x =>
    let h := x.holder
    if !claimHeld s h.queue h.seq then { s with spills := s.spills.filter (fun (y : Spill) => y != x) } else
    let keep := s.tile.filter (fun c => !pageHas slice h.pages c.1)
    let pois := s.tilePoison.filter (fun l => !pageHas slice h.pages (64 * l))
    let s := { s with
      tile := putCells keep x.bytes
      tilePoison := x.poison.foldl nsAdd pois
      spills := s.spills.filter (fun (y : Spill) => y != x) }
    updCtx s slice h.queue h.seq (fun c => { c with ready := true, lastMove := s.now })

/-- RESTORE_COPY_DONE (R163). -/
def execRestoreCopyDone (slice : Nat) (s : State) : Res := need (decide (slice < 64)) (restoreDone s slice)

end Sys2Proof.Machine
end

