-- ==== Sys2Proof/Machine/Queues.lean ====
section
/-!
DEFINITION. Queues and synchronisation objects (09): the meanings of QUEUE_LAUNCH to WAIT_POLL.
-/

namespace Sys2Proof.Machine

/-! ### Launch and destroy (R158, R182, R183) -/

/-- Reserved fields of a launch block (Table QSY-1). -/
def launchReserved : List RField := [(0, 15, 15), (0, 63, 46), (3, 63, 26)] ++ wholeWords [5, 6, 7]

/-- Whether a ring of n bytes may lie at an address: 4 KiB aligned, in host memory or wholly in LPDDR, or for a
completion ring in the tile store (Table QSY-1, R183). -/
def ringOk (s : State) (addr n : Nat) (tileToo : Bool) : Bool :=
  addr % 4096 == 0 && match spaceOf addr with
    | .hostAddr _ => true
    | .localOff off => plainRun s off n && (tileToo || regionOf s off == .lpddr)
    | _ => false

/-- The partitions that a list names, or none when a reserved field is set or a granule lies outside the slice. -/
def partsOf (s : State) (q : Nat) : List Word64 → Option (List Partition)
  | [] => some []
  | w :: r =>
    let slice := bitsOf 5 0 w
    let first := bitsOf 13 6 w
    let count := bitsOf 21 14 w
    if bitsOf 63 22 w != 0 || cacheFirst s slice < first + count then none
    else (partsOf s q r).map (fun l => ({ queue := q, slice := slice, first := first, count := count } : Partition) :: l)

/-- Whether two partitions overlap. -/
def partMeets (a b : Partition) : Bool :=
  a.slice == b.slice && decide (a.first < b.first + b.count) && decide (b.first < a.first + a.count)

/-- Whether each partition of a list is apart from those before it and from those in use. -/
def partsApart (used : List Partition) : List Partition → Bool
  | [] => true
  | p :: r => !used.any (partMeets p) && partsApart (p :: used) r

/-- R158: at most 8 partitions of the queue and 32 of all in a slice, none overlapping another or the cache. -/
def partsOk (s : State) (ps : List Partition) : Bool :=
  partsApart s.parts ps
    && ps.all (fun p => decide ((ps.filter (fun x => x.slice == p.slice)).length ≤ 8)
        && decide (((ps ++ s.parts).filter (fun x => x.slice == p.slice)).length ≤ 32))

/-- The queue that a launch block describes. -/
def queueOfBlock (q : Nat) (b : List Word64) (pasid : Option Nat) : Queue :=
  { id := q, halves := dField b 0 11 10, prio := dField b 0 14 12, limit := dField b 0 24 16 + 1
    ringLog2 := dField b 0 29 25, cplLog2 := dField b 0 34 30, irqVector := dField b 0 45 35
    ringAddr := (wordAt b 1).toNat, cplAddr := (wordAt b 2).toNat, threshold := dField b 3 25 10, pasid := pasid }

/-- The launch rules of R183 for the words of a block and its partitions; no queue is launched while a firmware image is being
verified or programmed (R388). -/
def launchOk (s : State) (q : Nat) (v : Queue) (b : List Word64) : Bool :=
  (smGet s.queues q).isNone && objGet s Obj.firmwareUpdateState != 1 && !reservedSet b launchReserved
    && v.halves != 0 && (q != collQ || v.halves == 3)
    && decide (6 ≤ v.ringLog2 ∧ v.ringLog2 ≤ 16) && decide (6 ≤ v.cplLog2 ∧ v.cplLog2 ≤ 16)
    && decide (dField b 3 9 0 ≤ 512) && v.threshold != 0
    && ringOk s v.ringAddr (128 * 2 ^ v.ringLog2) false && ringOk s v.cplAddr (64 * 2 ^ v.cplLog2) true

/-- A launch: ok with the queue in place, or refused with nothing changed. `coll` names the collective queue. The command runs on
while a read of it waits (R176, R327). -/
def launch (coll : Bool) (block parts : Fetch) (s : State) : State :=
  if mbxArg s 1 / 2 ^ 21 != 0 then mbxEnd s 0x01
  else readPastDim s (mbxArg s 0) 64 (2 ^ 20 + 2, 0, 0) fun s =>
    let x := readClean s (mbxArg s 0) 64 block
    let s := x.1
    match x.2 with
    | none => mbxEnd s 0x03
    | some bs =>
      let b := wordsOf bs 8
      let q := if coll then collQ else dField b 0 9 0
      let pasid := if natBit 20 (mbxArg s 1) then some (mbxArg s 1 % 2 ^ 20) else none
      let v := queueOfBlock q b pasid
      let n := dField b 3 9 0
      if !launchOk s q v b then mbxEnd s 0x03
      else readPastDim s (if n = 0 then 0 else (wordAt b 4).toNat) (8 * n) (2 ^ 20 + 2, 1, 0) fun s =>
        let y := if n = 0 then (s, some []) else readClean s (wordAt b 4).toNat (8 * n) parts
        let s := y.1
        match y.2.bind (fun l => partsOf s q (wordsOf l n)) with
        | none => mbxEnd s 0x03
        | some ps =>
          if partsOk s ps then
            mbxEnd { s with queues := smSet s.queues q v, parts := s.parts ++ ps } 0x00
          else mbxEnd s 0x03

/-- QUEUE_LAUNCH (R182, R183, R318). -/
def execQueueLaunch (block parts : Fetch) (s : State) : Res := .next (mbxRun s 0x0001 (launch false block parts))

/-- A queue destroyed: its partitions return to the pool (R158, R183). -/
def removeQueue (s : State) (q : Nat) : State :=
  { s with queues := smErase s.queues q, parts := s.parts.filter (fun p => p.queue != q) }

/-- Whether a destroy is accepted (R183); records that wait for ring space are not lost by it (R188). -/
def destroyOk (v : Queue) : Bool :=
  v.outstanding == 0 && v.waitRing.isEmpty
    && (v.state == 4 || (diff32 v.prod v.head == 0 && v.fetched.isEmpty && v.seams.all Seam.opened))

/-- A QueueDestroy: refused while the queue's state forbids it. -/
def destroy (s : State) : State :=
  if mbxArg s 0 / 2 ^ 10 != 0 then mbxEnd s 0x01
  else
    match smGet s.queues (mbxArg s 0) with
    | none => mbxEnd s 0x04
    | some v => if destroyOk v then mbxEnd (removeQueue s (mbxArg s 0)) 0x00 else mbxEnd s 0x04

/-- QUEUE_DESTROY (R183, R318). -/
def execQueueDestroy (s : State) : Res := .next (mbxRun s 0x0002 destroy)

/-! ### The host's writes of a control page (R185, R187, R188) -/

/-- A control page write from the host: ignored in the bridge-failed state (R315). -/
def hostPage (s : State) (q reg w : Nat) : State := if bridgeFailed s then s else pageWrite s q reg w

/-- QSY_DOORBELL (R185). -/
def execQsyDoorbell (q p : Nat) (s : State) : Res := need (decide (q < 1025)) (hostPage s q 0x000 p)

/-- QSY_CMD release (R113, R187). -/
def execQsyCmdRelease (q : Nat) (s : State) : Res := need (decide (q < 1025)) (hostPage s q 0x028 1)

/-- QSY_CMD discard (R113, R187). -/
def execQsyCmdDiscard (q : Nat) (s : State) : Res := need (decide (q < 1025)) (hostPage s q 0x028 2)

/-- QSY_CMD abort (R187). -/
def execQsyCmdAbort (q : Nat) (s : State) : Res := need (decide (q < 1025)) (hostPage s q 0x028 3)

/-- QSY_IRQ (Table QSY-4). -/
def execQsyIrqWrite (q v : Nat) (s : State) : Res := need (decide (q < 1025)) (hostPage s q 0x040 v)

/-- CPL_PENDING_TIMEOUT: a record has been pending for 20 µs (Table QSY-4). -/
def cplTimeout (s : State) (q : Nat) : State :=
  match smGet s.queues q with
  | none => s
  | some v => if v.pendTimes.any (fun t => decide (t + us 20 ≤ s.now)) then raiseCpl s q else s

/-- CPL_PENDING_TIMEOUT (R188). -/
def execCplPendingTimeout (q : Nat) (s : State) : Res := need (decide (q < 1025)) (cplTimeout s q)

/-! ### Fetch and issue -/

/-- Whether the next ring slot may be fetched: the home half's scheduler runs, the queue runs or is halted, a
descriptor waits there, and no LayerOpen that has not started stands before it (R184, R191). -/
def fetchOk (s : State) (v : Queue) : Bool :=
  mayIssue s (homeOfHalves v.halves) && (v.state == 1 || v.state == 2) && diff32 v.prod v.head != 0
    && !v.fetched.any (fun (f : Fetched) => !f.inLayer && opcode f.words == 0x50)

/-- DESCRIPTOR_FETCH: the descriptor at QSY_HEAD takes the next DescSeq, and QSY_HEAD advances (R184, R191, R452). -/
def fetchOne (s : State) (q : Nat) (f : Fetch) : State :=
  match smGet s.queues q with
  | none => s
  | some v =>
    let addr := v.ringAddr + 128 * (v.head % 2 ^ v.ringLog2)
    if !fetchOk s v then s
    else readPastDim s addr 128 (2 ^ 20, q, v.nextSeq) (fun s =>
      let x := readClean s addr 128 f
      let s := updQ x.1 q (fun y => { y with head := (y.head + 1) % 2 ^ 32, nextSeq := y.nextSeq + 1 })
      match x.2 with
      | none => unreadable s q v.nextSeq false
      | some bs => addFetched s q v.nextSeq (wordsOf bs 16) false)

/-- DESCRIPTOR_FETCH (R184). -/
def execDescriptorFetch (q : Nat) (f : Fetch) (s : State) : Res := need (decide (q < 1025)) (fetchOne s q f)

/-- DESCRIPTOR_ISSUE (R190 to R193): one descriptor of the queues that a half's scheduler serves. -/
def execDescriptorIssue (half : Half) (s : State) : Res :=
  .next (if mayIssue s half then issueAny s half (serveOrder s half) else s)

/-! ### Synchronisation objects (R194 to R197) -/

/-- SYNC_SIGNAL (R194, R195). -/
def execSyncSignal (obj amount : Nat) (s : State) : Res := need (decide (obj < 32768)) (syncAdd s obj amount)

/-- SYNC_SET (R194, R195). -/
def execSyncSet (obj value : Nat) (s : State) : Res :=
  need (decide (obj < 32768)) (syncPut s obj (BitVec.ofNat 64 value))

/-- WAIT_POLL: a half re-reads the objects of the waits that it holds by polling (R197). -/
def execWaitPoll (half : Half) (s : State) : Res :=
  .next { s with waiters := s.waiters.filter (fun w =>
    !(w.polled && halfOfObj w.obj == half && reached s w.obj w.value)) }

end Sys2Proof.Machine
end

