-- ==== Sys2Proof/Machine/Collectives.lean ====
section
/-!
DEFINITION. The commands of the collectives (14).
-/

namespace Sys2Proof.Machine

/-- COLL_QUEUE_LAUNCH (R291, R318). -/
def execCollQueueLaunch (block parts : Fetch) (s : State) : Res := .next (mbxRun s 0x0003 (launch true block parts))

/-! ### Issue (R295) -/

/-- Bytes of this member's input and output (R298). -/
def srcBytes (s : State) (ws : List Word64) : Nat :=
  (if colOp ws = 2 then colAllSegs ws / (levelGroup s ws 0).members else colAllSegs ws) * segBytes (inFmt ws) (inScaled ws)

def dstBytes (s : State) (ws : List Word64) : Nat :=
  (if colOp ws = 1 then colAllSegs ws / (levelGroup s ws 0).members else colAllSegs ws) * segBytes (outFmt ws) (outScaled ws)

/-- Whether a run of bytes at a Local address lies in LPDDR or the tile store. -/
def localRun (s : State) (a n : Nat) : Bool :=
  match spaceOf a with
  | .localOff off => n == 0 || plainRun s off n
  | _ => false

/-- A group that its descriptor may name: valid, with this module at its own rank, and for an axis a span of AxisInfo. -/
def groupOk (s : State) (g : Group) : Bool :=
  g.valid && g.chipOf g.own == chip s && decide (g.own < g.members) && decide (2 ≤ g.members)
    && (g.alg != 3 ||
        (decide (g.own ≤ axisOwn s g.axis)
          && decide (axisOwn s g.axis - g.own + g.members - 1 ≤ objGet s (Obj.axisInfo + g.axis) % 256)))

/-- The rejection status of a collective descriptor, if any (R295, R111). -/
def colReject (s : State) (ws : List Word64) : Option Nat :=
  let g0 := levelGroup s ws 0
  if reservedSet ws colReserved then some 1
  else if colFormatBad ws then some 2
  else if !groupOk s g0 || (colTwo ws && (!groupOk s (levelGroup s ws 1) || colOp ws != 0))
      || colElems ws == 0 || colElems ws % 2048 != 0
      || ((colOp ws == 1 || colOp ws == 2) && colElems ws % (g0.members * colSegs ws * 2048) != 0)
      || halfOf64 (colPair ws) != colHalf (colId ws) then some 3
  else if !localRun s (colSrc ws) (srcBytes s ws) || !localRun s (colDst ws) (dstBytes s ws)
      || !localRun s (colGreyAddr ws) (colGreyBytes ws) || colGreyAddr ws % 64 != 0
      || (colGreyBytes ws != 0 && lpddrSize ≤ colGreyAddr ws) then some 4
  else none

/-- The next collective descriptor of a half executed: rejected, or waiting to become active; its tail wait gates only its
local inputs (R293). -/
def issueColl (s : State) (h : Half) : State × Bool :=
  match smGet s.queues collQ with
  | none => (s, false)
  | some v =>
    match (candidates s collQ v h).find? (fun (f : Fetched) => schedulerOwn s collQ v.halves f) with
    | none => (s, false)
    | some f =>
      if !mayIssue s h || v.state != 1 then (s, false)
      else if !slotFree v then (noteStall s collQ f, false)
      else
        let d : Issued := { queue := collQ, seq := f.seq, words := f.words }
        let s := updQ (markIssued s collQ f h) collQ (fun x => { x with outstanding := x.outstanding + 1 })
        match colReject s f.words with
        | some st => (rejectDesc s d st 127, true)
        | none =>
          let s := if !tailWaitEn f.words || reached s (tailWaitObj f.words) (tailWaitValue f.words) then s
            else addWait s (tailWaitObj f.words) (tailWaitValue f.words) collQ f.seq
          ({ s with
              colls := s.colls ++ [{ id := colId f.words, d := d, since := s.now }]
              ended := s.ended.filter (fun (e : Ended) => e.coll != colId f.words) }, true)

/-- COLLECTIVE_ISSUE (R293): the scheduler of half W, or else of half E. -/
def execCollectiveIssue (s : State) : Res :=
  let x := issueColl s .w
  .next (if x.2 then x.1 else (issueColl x.1 .e).1)

/-! ### Memory that holds an engine (R168, R176, R327) -/

/-- The engine reads a segment of this member's input: past the host's copies and past Dim channels. -/
def colReads (s : State) (ws : List Word64) (c seg : Nat) (go : State → State) : State :=
  let off := srcSeg s ws c seg
  let n := segBytes (inFmt ws) (inScaled ws)
  pastSnoop s true (lpddrLines off n) (fun s => pastDim s off n (2 ^ 20 + 3, colId ws, 128 * c + seg) go)

/-- The engine is about to write a segment of this member's output, if any: past the host's copies, and once the queues of Dim
channels have room. -/
def colWrites (s : State) (ws : List Word64) (c seg : Nat) (go : State → State) : State :=
  let off := dstSeg s ws c seg
  let n := segBytes (outFmt ws) (outScaled ws)
  if !writesOut s ws c then go s
  else pastSnoop s false (lpddrLines off n) (fun s =>
    match (linesOf off n).find? (fun l => !writeRoom s l) with
    | some l => dimStall s (channelOf s l) (2 ^ 20 + 4, colId ws, 128 * c + seg)
    | none => go s)

/-! ### Inputs -/

/-- This member's local input of a segment (R301): once the tail wait holds, within PipelineDepth of the lowest chunk not
done. -/
def localInput (s : State) (id c seg : Nat) : State :=
  match activeColl s id with
  | none => s
  | some x =>
    let ws := x.d.words
    if hasWait s collQ x.d.seq || decide (colChunks ws ≤ c) || decide (segsIn ws c ≤ seg) || x.localDone.contains (c, seg)
        || chunkDone x c || decide (x.signalled + colDepth ws ≤ c)
        || (isSpread ws && ownRank s ws 0 != ownerOf s ws 0 c) then s
    else colReads s ws c seg fun s => colWrites s ws c seg fun s =>
      let ins := (List.range 2048).map (inElem s ws (srcSeg s ws c seg))
      let ofs := (ins.filter ColIn.ovf).length
      let ufs := (ins.filter ColIn.uf).length
      let s := updColl s id (fun x =>
        { x with localDone := x.localDone ++ [(c, seg)],
                 res := { x.res with narSeen := x.res.narSeen || ins.any ColIn.nar, ovf := x.res.ovf || ofs != 0, ofCount := satAdd top32 x.res.ofCount ofs,
                                     ufCount := satAdd top32 x.res.ufCount ufs } })
      let vs := ins.map ColIn.v
      let s := if isSpread ws then spread s ws 0 c seg vs [] else advanceSeg (enterLocal s ws 0 c seg vs []) ws 0 c seg
      closeChunk s ws c

/-- COLL_LOCAL_INPUT (R301). -/
def execCollLocalInput (collId chunk segment : Nat) (s : State) : Res := .next (localInput s collId chunk segment)

/-- A congestion mark returned as an echo, at most one per source and collective ID per 1 µs (R263). -/
def echoMark (s : State) (p : Packet) (id : Nat) : State :=
  if !p.mark || s.collEcho.any (fun e => e.1 == p.src && e.2.1 == id && decide (s.now < e.2.2 + us 1)) then s
  else
    let s := { s with collEcho := s.collEcho.filter (fun e => !(e.1 == p.src && e.2.1 == id)) ++ [(p.src, id, s.now)] }
    let h := colHalf id
    nextReplySeq (inject s h (mkPacket s p.src 4 (routerOf s h).seqReply p.pathHash (.collEcho id)) none) h

/-- A grey packet at the owner: into its entry of the grey buffer, dropped as a duplicate, or the end of a collective whose
buffer is full (R305). -/
def takeGreyPacket (s : State) (x : Coll) (h : CollHdr) : State :=
  let ws := x.d.words
  let mine (e : Grey) : Bool :=
    e.coll == x.id && e.level == h.level && e.sender == h.sender && e.chunk == h.chunk && e.segment == h.segment
  let put (e : Grey) : Grey :=
    { e with counts := smSet e.counts h.position h.count,
             vals := ((packetVals h).zipIdx).foldl (fun m v => smSet m (64 * h.position + v.2) v.1) e.vals }
  if x.sentSegs.contains (h.level, h.chunk, h.segment) then countDup s x.id
  else
    match s.greys.find? mine with
    | some e =>
      if (smGet e.counts h.position).isSome then countDup s x.id
      else { s with greys := s.greys.map (fun e => if mine e then put e else e) }
    | none =>
      if colGreyBytes ws < 8256 * ((s.greys.filter (fun (e : Grey) => e.coll == x.id)).length + 1) then
        endColl (objInc s Obj.greyOverflows) x 0x41
      else
        { s with greys := s.greys ++ [put { coll := x.id, level := h.level, sender := h.sender, chunk := h.chunk, segment := h.segment }] }

/-- A packet of an active collective. -/
def takeActive (s : State) (x : Coll) (h : CollHdr) : State :=
  let ws := x.d.words
  if chunkDone x h.chunk then countDup s x.id
  else
    match h.kind with
    | .result =>
      if h.sender = ownRank s ws h.level ∧ h.owner = chip s then s
      else if x.gotRes.contains (h.level, h.chunk, h.segment, h.position) || x.outSegs.contains (h.chunk, h.segment) then
        countDup s x.id
      else closeChunk (passResult s ws h) ws h.chunk
    | .grey => takeGreyPacket s x h
    | .notice => closeChunk (advanceSeg (takeNotice s h) ws h.level h.chunk h.segment) ws h.chunk
    | .partialSum => closeChunk (advanceSeg (takeInput s (some ws) [] h (packetVals h)) ws h.level h.chunk h.segment) ws h.chunk

/-- Gather maps that the active collectives of a half hold (R297). -/
def mapsUsed (s : State) (h : Half) : Nat :=
  ((s.colls.filter (fun (c : Coll) => c.active && colHalf c.id == h)).map (fun (c : Coll) => colDepth c.d.words)).sum

/-- The first waiting collective of a half becomes active and adopts its pending entry (R297, R309). -/
def activate (s : State) (h : Half) : State :=
  match s.colls.find? (fun (c : Coll) => !c.active && colHalf c.id == h) with
  | none => s
  | some c =>
    if 256 ≤ activeIn s h ∨ 512 < mapsUsed s h + colDepth c.d.words then s
    else
      let p := pendOf s c.id
      let s := updColl s c.id (fun x =>
        { x with active := true, grey := (p.map (fun p => p.grey)).getD [], passed := (p.map (fun p => p.passed)).getD [] })
      let s := { s with pendColls := s.pendColls.filter (fun (p : PendColl) => p.coll != c.id) }
      let s := adopt s c.d.words (s.slots.filter (fun (x : Slot) => x.coll == c.id))
      ((p.map (fun p => p.results)).getD []).foldl (fun s h =>
        match activeColl s c.id with
        | some x => takeActive s x h
        | none => s) s

/-- COLLECTIVE_ACTIVATE (R297). -/
def execCollectiveActivate (half : Half) (s : State) : Res := .next (activate s half)

/-- A packet of a CollId that is not active: it opens a pending entry and takes a slot or goes grey (R309). -/
def takePending (s : State) (h : CollHdr) : State :=
  let s := if (pendOf s h.collId).isSome then s
    else { s with pendColls := s.pendColls ++ [{ half := colHalf h.collId, coll := h.collId, since := s.now }] }
  match h.kind with
  | .notice => takeNotice s h
  | .result => updPend s h.collId (fun p => { p with results := p.results ++ [h] })
  | _ => takeInput s none [] h (packetVals h)

/-- A collective packet at its engine. -/
def takeColl (s : State) (p : Packet) : State :=
  match p.body with
  | .coll h =>
    match activeColl s h.collId with
    | some x => colWrites s x.d.words h.chunk h.segment fun s => takeActive (echoMark (takeEjected s p) p h.collId) x h
    | none =>
      let s := echoMark (takeEjected s p) p h.collId
      if s.ended.any (fun (e : Ended) => e.coll == h.collId) then objInc s Obj.collLateDrops else takePending s h
  | .collEcho id => echoFrom (takeEjected s p) (colHalf id) .coll p.src
  | _ => s

/-- COLL_PACKET_RECEIVE (R301). -/
def execCollPacketReceive (p : Packet) (s : State) : Res := .next (takeColl s p)

/-- Grey entries combined into a segment in increasing SenderRank (R305). -/
def mergeGreys (ws : List Word64) : List Grey → Slot → Result → Slot × Result
  | [], x, r => (x, r)
  | e :: rest, x, r =>
    let y := (smKeys e.counts).foldl (fun (y : Slot × Result) pos =>
      combineVals ws [] ((List.range 64).filterMap (fun i => smGet e.vals (64 * pos + i))) (64 * pos) y.1 y.2) (x, r)
    mergeGreys ws rest y.1 y.2

/-- A complete grey segment at its owner: combined by GreyPair's vector unit, its entries freed, and sent on. -/
def reduceGrey (s : State) (id level c seg : Nat) : State :=
  match activeColl s id with
  | none => s
  | some x =>
    let ws := x.d.words
    let g := levelGroup s ws level
    let es := sortBy (fun (a b : Grey) => decide (a.sender < b.sender)) (greysOf s id level c seg)
    if es.isEmpty || g.own != ownerOf s ws level c || x.sentSegs.contains (level, c, seg)
        || !(List.range 32).all (fun pos => coverage s id level c seg pos == g.members) then s
    else colWrites s ws c seg fun s =>
      let slot := (slotOf s id level c seg).getD { half := colHalf id, coll := id, level := level, chunk := c, segment := seg }
      let r := mergeGreys ws es slot x.res
      let s := { s with greys := s.greys.filter (fun e => !es.contains e) }
      let s := updSlot s id level c seg (fun _ => { r.1 with sent := true })
      let s := updColl s id (fun x => { x with res := r.2, sentSegs := x.sentSegs ++ [(level, c, seg)] })
      closeChunk (stageOn s ws level c seg (slotVals r.1) r.1.invs) ws c

/-- GREY_SEGMENT_REDUCE (R305). -/
def execGreySegmentReduce (collId level chunk segment : Nat) (s : State) : Res :=
  .next (reduceGrey s collId level chunk segment)

/-! ### Ends (R308, R309) -/

/-- The watchdog of a collective in ms. -/
def collWatch (s : State) (x : Coll) : Nat :=
  if colWatch x.d.words = 0 then objGet s Obj.collWatchdogMs else colWatch x.d.words

/-- A collective whose watchdog has expired. -/
def collExpire (s : State) (id : Nat) : State :=
  match collOf s id with
  | some x => if x.since + ms (collWatch s x) ≤ s.now then endColl (objInc s Obj.collTimeouts) x 0x40 else s
  | none => s

/-- COLL_WATCHDOG_EXPIRE (R308). -/
def execCollWatchdogExpire (collId : Nat) (s : State) : Res := .next (collExpire s collId)

/-- CollAbort: the named collective ends with coll-cancelled. -/
def abortColl (s : State) : State :=
  if mbxArg s 0 / 2 ^ 16 != 0 then mbxEnd s 0x01
  else
    match collOf s (mbxArg s 0) with
    | some x => mbxEnd (endColl (objInc s Obj.collTimeouts) x 0x42) 0x00
    | none => mbxEnd s 0x04

/-- COLL_ABORT (R308, R318). -/
def execCollAbort (s : State) : Res := .next (mbxRun s 0x0004 abortColl)

/-- A pending entry that was not adopted in time. -/
def pendExpire (s : State) (id : Nat) : State :=
  match pendOf s id with
  | some p =>
    if p.since + ms (objGet s Obj.collWatchdogMs) ≤ s.now then
      objInc { s with
        pendColls := s.pendColls.filter (fun (x : PendColl) => x.coll != id)
        slots := s.slots.filter (fun (x : Slot) => x.coll != id) } Obj.collOrphans
    else s
  | none => s

/-- PENDING_ENTRY_EXPIRE (R309). -/
def execPendingEntryExpire (collId : Nat) (s : State) : Res := .next (pendExpire s collId)

/-! ### Groups and the detail of ended collectives (R294, R308) -/

/-- Groups that active collectives name. -/
def groupsNamed (s : State) : List Nat :=
  (s.colls.filter (fun (c : Coll) => c.active)).flatMap (fun (c : Coll) =>
    colGroup c.d.words 0 :: (if colTwo c.d.words then [colGroup c.d.words 1] else []))

/-- Whether an image changes an entry that an active collective names. -/
def groupsHeld (s : State) (image : Bytes) : Bool :=
  (groupsNamed s).any (fun i => padTo 528 (groupBytes (domGet s Obj.collGroupTable) i) != groupBytes image i)

/-- COLL_GROUP_TABLE_COMMIT (R294). -/
def execCollGroupTableCommit (r : Route) (handle : Nat) (digest : Bytes) (s : State) : Res :=
  .next (commitRow s r Obj.collGroupTable handle digest false (fun n => n == 540672)
    (fun s image => if groupsHeld s image then 0x08 else 0) (fun s _ => s))

/-- A rank map of 32 B. -/
def rankMap (ranks : List Nat) : Bytes := natLe 32 (ranks.foldl (fun m r => setNatBit r m) 0)

/-- CollAbortDetail: per ended collective its CollId, then the rank maps of levels 0 and 1 (R308). -/
def collAbortDetail (s : State) : Bytes :=
  s.ended.flatMap (fun (e : Ended) => natLe 2 e.coll ++ rankMap e.ranks0 ++ rankMap e.ranks1)

end Sys2Proof.Machine
end

