-- ==== Sys2Proof/Machine/Layers.lean ====
section
/-!
DEFINITION. LayerOpen (06, R120 to R130): the meanings of LAYER_OPEN, LAYER_ATTEMPT_END and ESCALATION_IMAGE_COMMIT.
-/

namespace Sys2Proof.Machine

/-- The escalation entry of a layer: CurRung and HoldLeft (R126). -/
def escGet (s : State) (id : Nat) : Nat × Nat := smGetD s.esc id (0, 0)

/-- An escalation entry set. -/
def escPut (s : State) (id cur hold : Nat) : State :=
  { s with esc := if cur = 0 ∧ hold = 0 then smErase s.esc id else smSet s.esc id (cur, hold) }

/-- The lowest present rung, and the top rung; with EscEnable 0 the lowest is treated as the top (R130). -/
def layLow (ws : List Word64) : Nat := (layRungs ws).headD 0
def layTop (s : State) (ws : List Word64) : Nat :=
  if objGet s Obj.escEnable = 0 then layLow ws else (layRungs ws).getLastD 0

/-- The start rung: the lowest present rung at or above CurRung, or the top rung (Table VEC-21 step 1). -/
def layStart (s : State) (ws : List Word64) : Nat :=
  if objGet s Obj.escEnable = 0 then layLow ws
  else ((layRungs ws).find? (fun r => decide ((escGet s (layId ws)).1 ≤ r))).getD (layTop s ws)

/-- The descriptors of an attempt read in list order into the queue's descriptors; an unreadable one ends the layer
(R452). -/
def readVariant (s : State) (q addr seq : Nat) (list : List Fetch) : Nat → State
  | 0 => s
  | k + 1 =>
    let x := readClean s addr 128 (list.headD .hostFault)
    match x.2 with
    | none => unreadable x.1 q seq true
    | some bs => readVariant (addFetched x.1 q seq (wordsOf bs 16) true) q (addr + 128) (seq + 1) (list.drop 1) k

/-- An attempt at a layer's rung starts: its descriptors take the queue's next DescSeq numbers (R120, R191). -/
def startAttempt (s : State) (l : Layer) (list : List Fetch) : State :=
  match smGet s.queues l.queue with
  | none => s
  | some v =>
    let n := layLen l.words l.rung
    let seqs := (List.range n).map (fun i => v.nextSeq + i)
    let l' := { l with firstSeq := v.nextSeq, seqs := seqs, left := seqs, summary := 0, sawOF := false, cut := false }
    let s := { s with layers := s.layers.filter (fun (x : Layer) => !(x.queue == l.queue && x.seq == l.seq)) ++ [l'] }
    let s := updQ s l.queue (fun x => { x with nextSeq := x.nextSeq + n })
    readVariant s l.queue (layAddr l.words l.rung) v.nextSeq list n

/-- The values of the layer-local objects (Table VEC-21 step 1). -/
def localObjs (s : State) (ws : List Word64) : List (Nat × Nat) :=
  (List.range (layObjs ws)).map (fun i => (layObj ws + i, (syncGet s (layObj ws + i)).toNat))

/-- A LayerOpen that its scheduler executes: rejected, or its first attempt started. -/
def openLayer (s : State) (q : Nat) (f : Fetched) (list : List Fetch) : State :=
  let s := updQ s q (fun x => { x with outstanding := x.outstanding + 1 })
  match layReject f.words with
  | some st => rejectDesc s { queue := q, seq := f.seq, words := f.words, inLayer := f.inLayer } st 127
  | none =>
    startAttempt s { queue := q, seq := f.seq, words := f.words, start := layStart s f.words,
                     rung := layStart s f.words, top := layTop s f.words, saved := localObjs s f.words } list

/-- The queue's first LayerOpen, once the home half's scheduler reaches it and its wait holds (R192). -/
def layerOpenAt (s : State) (q : Nat) (list : List Fetch) : State :=
  match smGet s.queues q with
  | none => s
  | some v =>
    match v.fetched.find? (fun (f : Fetched) => opcode f.words == 0x50 && schedulerOwn s q v.halves f) with
    | none => s
    | some f =>
      let x := schedReady s (homeOfHalves v.halves) q f
      let rung := layStart s f.words
      if x.2 then
        readPastDim x.1 (layAddr f.words rung) (128 * layLen f.words rung) (2 ^ 20, q, f.seq) (fun s =>
          openLayer (setTodo s q f.seq false false) q f list)
      else x.1

/-- LAYER_OPEN (R120, R123). -/
def execLayerOpen (q : Nat) (list : List Fetch) (s : State) : Res := need (decide (q < 1025)) (layerOpenAt s q list)

/-- The layer-local objects take the values recorded at the start (Table VEC-21 step 5). -/
def writeBack (s : State) : List (Nat × Nat) → State
  | [] => s
  | (o, v) :: r => writeBack (syncPut s o (BitVec.ofNat 64 v)) r

/-- What the journal holds of a layer's escalation, step-down or exhaustion (R130). -/
def layJournal (l : Layer) : List Nat := [layId l.words, l.start, l.rung, l.queue, l.firstSeq % 2 ^ 32]

/-- The escalation entry at publication (Table VEC-22). -/
def escUpdate (s : State) (l : Layer) : State :=
  let id := layId l.words
  let e := escGet s id
  let hold := objGet s Obj.escHoldSteps
  let low := layLow l.words
  if l.start < l.rung then
    journal (objInc (escPut s id (max e.1 l.rung) hold) Obj.escEvents) .escalated (layJournal l)
  else if l.start = e.1 ∧ low < l.start then
    if 1 < e.2 then escPut s id e.1 (e.2 - 1)
    else
      let down := ((layRungs l.words).filter (fun r => decide (r < e.1))).getLastD low
      journal (objInc (escPut s id down (if low < down then hold else 0)) Obj.escStepDowns) .steppedDown (layJournal l)
  else s

/-- A layer published: entry, record, journal, tail; an exhausted one is counted and may trap (R123 to R127). -/
def publish (s : State) (l : Layer) : State :=
  let s := { s with layers := s.layers.filter (fun (x : Layer) => !(x.queue == l.queue && x.seq == l.seq)) }
  let s := escUpdate s l
  let exhausted := l.sawOF && l.rung == l.top
  let s := if exhausted then journal (objInc s Obj.escExhausted) .exhausted (layJournal l) else s
  completeDesc s { queue := l.queue, seq := l.seq, words := l.words, status := 0, op := 0x50, engine := 127,
                   summary := l.summary, body := layerBody l true exhausted, traps := exhausted && layTrap l.words,
                   raises := false }

/-- The rung of a layer's next attempt (Table VEC-21 step 5). -/
def nextRung (l : Layer) : Nat := ((layRungs l.words).find? (fun r => decide (l.rung < r))).getD l.top

/-- An attempt that ended with OF below the top rung is repeated at the next present rung (Table VEC-21 step 5). -/
def repeatLayer (s : State) (l : Layer) (list : List Fetch) : State :=
  let n := l.seqs.length
  let s := writeBack (objAdd s Obj.escAbandonedDescs n) l.saved
  startAttempt s { l with rung := nextRung l, attempts := l.attempts + 1, abandoned := l.abandoned + n } list

/-- The first open layer of a queue whose attempt's issued descriptors have all completed; a trap keeps the layer
open, and a restarting scheduler holds it (R125, R128, R199). The next attempt's list waits as any read does (R176, R327). -/
def attemptEnd (s : State) (q : Nat) (list : List Fetch) : State :=
  match smGet s.queues q with
  | none => s
  | some v =>
    match s.layers.find? (fun (l : Layer) => l.queue == q && l.left.isEmpty) with
    | none => s
    | some l =>
      if v.trapped || v.state != 1 || !mayIssue s (homeOfHalves v.halves) then s
      else if l.cut then
        readPastDim s (layAddr l.words (nextRung l)) (128 * layLen l.words (nextRung l)) (2 ^ 20, q, l.seq) (fun s => repeatLayer s l list)
      else publish s l

/-- LAYER_ATTEMPT_END (R123). -/
def execLayerAttemptEnd (q : Nat) (list : List Fetch) (s : State) : Res := need (decide (q < 1025)) (attemptEnd s q list)

/-! ### EscalationImage (R128) -/

/-- Entry i of an image, of 4 B. -/
def escEntry (image : Bytes) (i : Nat) : Nat := leNat ((image.drop (4 * i)).take 4)

/-- Status range where an entry has a reserved bit set. -/
def escImageCheck (_ : State) (image : Bytes) : Nat :=
  if (List.range 4096).any (fun i => escEntry image i / 4 % 2 ^ 14 != 0) then 0x03 else 0

/-- The entries written in LayerId order. -/
def escImageApply (s : State) (image : Bytes) : State :=
  (List.range 4096).foldl (fun s i => escPut s i (escEntry image i % 4) (escEntry image i / 2 ^ 16))
    { s with doms := smErase s.doms Obj.escalationImage }

/-- The image as it reads. -/
def escImage (s : State) : Bytes :=
  (List.range 4096).flatMap (fun i => natLe 4 ((escGet s i).1 + (escGet s i).2 * 2 ^ 16))

/-- ESCALATION_IMAGE_COMMIT (R128). -/
def execEscalationImageCommit (r : Route) (handle : Nat) (digest : Bytes) (s : State) : Res :=
  .next (commitRow s r Obj.escalationImage handle digest false (fun n => n == 16384) escImageCheck escImageApply)

end Sys2Proof.Machine
end

