-- ==== Sys2Proof/Machine/Optics.lean ====
section
/-!
DEFINITION. The commands of light (10): loss and return of light, the lock loop, the calibration rotor, lane recovery,
beacons, the spectral map and lines on demand.
-/

namespace Sys2Proof.Machine

/-! ### Loss and return of light (R209) -/

/-- The lines an event at a laser input touches: all, or one. -/
def eventLines (line : Option Nat) : List Nat :=
  match line with
  | some j => [j]
  | none => List.range 17

/-- The (fibre, line) pairs an event at a laser input touches. -/
def eventPlaces (laser : Nat) (line : Option Nat) : List (Nat × Nat) :=
  (List.range 4).flatMap (fun i => (eventLines line).map (fun j => (4 * laser + i, j)))

/-- A lane that lost its light leaves service; a rotor step that was moving it is aborted (R220). -/
def loseLane (s : State) (x : Nat × Nat) : State :=
  match findLane s true x.1 x.2 with
  | some (k, lane) =>
    let s := if (rotorOf s x.1).lane = some (k, lane.idx) then abortTold s x.1 else s
    laneOut s k true lane 3 true
  | none => s

/-- Light lost at an input or on a usable line: the lanes leave service, the state or the line's bit is set, journalled, ALERT_N
(R209). -/
def loseLight (s : State) (laser : Nat) (line : Option Nat) : State :=
  let l := laserAt s laser
  let known := match line with
    | none => l.dark
    | some j => natBit j l.lostLines || l.dark || !natBit j (objGet s (Obj.laserLinesUsable + laser))
  if known then s
  else
    let s := match line with
      | none => objPut (updLaser s laser (fun l => { l with dark := true })) (Obj.laserInputState + laser) 4
      | some j => objBit (updLaser s laser (fun l => { l with lostLines := setNatBit j l.lostLines })) (Obj.laserLinesUsable + laser) j false
    let s := (eventPlaces laser line).foldl loseLane s
    journalAlert s .lightLost ([laser] ++ line.toList)

/-- LIGHT_LOSS (R209). -/
def execLightLoss (laser : Nat) (line : Option Nat) (s : State) : Res := need (decide (laser < 8)) (loseLight s laser line)

/-- A lane whose light is back, at the input and on its line: its ring is swept in full and the lane retrained. -/
def regainLane (s : State) (x : Nat × Nat) : State :=
  match findLane s true x.1 x.2 with
  | some (k, lane) =>
    if lane.why = 3 ∧ lineUsable s x.1 x.2 = true then startRecovery s (modRing x.1 x.2) k true lane.idx true else s
  | none => s

/-- Light back for 100 ms at an input or on a line (R209). -/
def gainLight (s : State) (laser : Nat) (line : Option Nat) : State :=
  let l := laserAt s laser
  let lost := match line with
    | none => l.dark
    | some j => natBit j l.lostLines
  if !lost then s
  else
    let s := match line with
      | none => objPut (updLaser s laser (fun l => { l with dark := false })) (Obj.laserInputState + laser) l.cls
      | some j => objBit (updLaser s laser (fun l => { l with lostLines := clearNatBit j l.lostLines })) (Obj.laserLinesUsable + laser) j true
    (eventPlaces laser line).foldl regainLane s

/-- LIGHT_RESTORE (R209). -/
def execLightRestore (laser : Nat) (line : Option Nat) (s : State) : Res := need (decide (laser < 8)) (gainLight s laser line)

/-! ### The lock loop (R210 to R214) -/

/-- A lock-in reading of a locked ring: the loop's new heater code is left open; readings beyond ±5 GHz are counted in a
row. In comb mode the reference ring's correction goes to all the other modulator rings of its input (Table OPT-2, R210). -/
def lockIn (s : State) (r : Nat) (err : Int) : State :=
  let g := ringOf s r
  if !g.locked then s
  else
    let code : Int := 128 * ((freeNow s).toNat % 65536 : Nat)
    let s := freeStep s
    let s := updRing s r (fun g => { g with code := code, bad := if 5000 < err.natAbs then g.bad + 1 else 0 })
    let k := r / 68
    let l := laserAt s k
    if decide (r < 544) && combMode s k && r == modRing l.refFibre l.refLine then
      ((List.range 68).map (fun i => 68 * k + i)).foldl (fun s q =>
        if q = r then s else updRing s q (fun h => { h with code := clampCode (h.code + (code - g.code)) })) s
    else s

/-- LOCK_IN_READING (R211, R214). -/
def execLockInReading (ring : Nat) (errMHz : Int) (s : State) : Res := need (decide (ring < 1088)) (lockIn s ring errMHz)

/-- The site that a ring's feed-forward uses: the nearest that has a sensor which is not flagged, and its temperature. `sites` are
the optical and router sites by their distance from the ring, which the spec does not give (R213; log entry 22). -/
def siteFor (s : State) (sites : List Nat) : Option (Nat × Int) :=
  sites.findSome? (fun n => (siteNow (s.power.sites.getD n {})).map (fun t => (n, t)))

/-- The feed-forward: α times the change of the site's temperature since the ring's last update from that site (R213). -/
def feedForward (s : State) (r : Nat) (sites : List Nat) : State :=
  match siteFor s sites with
  | none => s
  | some (n, t) =>
    updRing s r (fun g =>
      match g.ff with
      | some (m, t0) => { g with code := if m = n then clampCode (g.code + g.alpha * (t - t0)) else g.code, ff := some (n, t) }
      | none => { g with ff := some (n, t) })

/-- FEED_FORWARD_UPDATE (R213): a ring and the sites 64 to 87 from the nearest on. -/
def execFeedForwardUpdate (ring : Nat) (sites : List Nat) (s : State) : Res :=
  need (decide (ring < 1088) && sites.all (fun n => decide (64 ≤ n) && decide (n < 88))) (feedForward s ring sites)

/-- Loss of lock: the lane leaves service and recovery begins; a rotor step that was moving the lane, or copying it to the ring's
line, is aborted (R214, R220, R222). -/
def loseLock (s : State) (r : Nat) : State :=
  let g := ringOf s r
  if !(g.locked && (decide (3 ≤ g.bad) || !inWindow g)) then s
  else
    let outgoing := decide (r < 544)
    let fibre := ringFibre r
    let s := objInc (unlockRing s r (fun g => { g with bad := 0 })) Obj.lockLosses
    let s := if outgoing && (rotorOf s fibre).phase == 3 && (rotorOf s fibre).grey == r % 17 then abortTold s fibre else s
    match findLane s outgoing fibre (r % 17) with
    | none => s
    | some (k, lane) =>
      let s := if outgoing && (rotorOf s fibre).lane == some (k, lane.idx) then abortTold s fibre else s
      startRecovery (laneOut s k outgoing lane 2 true) r k outgoing lane.idx false

/-- RING_LOCK_LOSS (R214). -/
def execRingLockLoss (ring : Nat) (s : State) : Res := need (decide (ring < 1088)) (loseLock s ring)

/-! ### The rotor (R215 to R220) -/

/-- Line a turns grey, and line g has its lane or is dark (Table OPT-6 step 7). -/
def turnGrey (s : State) (x g a : Nat) : State :=
  let s := updSpec s x g (fun e => { e with lineState := if e.lineState = 2 then 0 else e.lineState })
  let s := updSpec s x a (fun e => { e with lineState := 2 })
  let s := updRotor s x (fun r => { r with grey := a, next := none, phase := 1, lane := none, removed := none, aborts := 0, since := s.now })
  let s := unlockRing s (modRing x a) (fun q => { q with parked := false, sweep := 0 })
  moveRef (objInc s Obj.rotorSteps) (laserOf x)

/-- A step of a rotor whose grey line is g and whose next line is a: a turns grey, or its lane is to be moved to g, or leaves at a
boundary for the step, or as the last of its link makes the line skipped and a - 1 the next. `fuel` bounds the skips (R216,
R218). -/
def stepRotor (s : State) (x g : Nat) : Nat → Nat → State
  | 0, _ => s
  | n + 1, a =>
    match findLane s true x a with
    | none => turnGrey s x g a
    | some (k, lane) =>
      if canMigrate s x a g k then
        updRotor s x (fun r => { r with next := some a, phase := 1, lane := none, since := s.now })
      else if ((linkOf s k).outLanes.filter laneUp).length ≤ 1 then stepRotor (objInc s Obj.rotorSkips) x g n (nextLine s x 17 a)
      else
        let s := sendCtl s k (.laneLeave lane.idx (linkOf s k).txSeq)
        let s := settleLink (updLane s k true lane.idx (fun l => { l with why := 5, q := [] })) k
        updRotor (turnGrey s x g a) x (fun r => { r with removed := some (k, lane.idx) })

/-- Whether a rotor step had removed a lane that is not back (R218). -/
def removedOut (s : State) (x : Nat) : Bool :=
  match (rotorOf s x).removed with
  | some (k, i) => (linkOf s k).outLanes.any (fun (l : Lane) => l.idx == i && l.why == 5)
  | none => false

/-- Whether a recovery is in progress on an out-fibre, a lane of it out of service, the lane of the last step not yet back, or a
reassignment in progress on the next line (R218, R220). -/
def stepWaits (s : State) (x a : Nat) : Bool :=
  s.recovery.any (fun (r : Recovery) => decide (r.ring < 544) && r.ring / 17 == x) || smGet s.reassign x == some a || removedOut s x
    || s.links.any (fun (l : Link) => l.outLanes.any (fun (b : Lane) => b.fibre == x && b.why != 0 && b.why != 5))

/-- Whether no other rotor of a fibre's facet has switched within the last eighth of a period (R215). -/
def facetClear (s : State) (x : Nat) : Bool :=
  (List.range 8).all (fun i =>
    let y := 8 * (x / 8) + i
    y == x || decide (s.now < (rotorOf s y).since) || decide ((rotorOf s y).since + us (objGet s Obj.rotorStepUs) / 8 ≤ s.now)
      || decide ((rotorOf s y).since = 0))

/-- The line that a rotor frees next: that of the step in progress, else the next in order. -/
def nextOf (s : State) (x : Nat) : Nat :=
  let r := rotorOf s x
  match r.next with
  | some a => if (specOf s x a).lineState = 5 then nextLine s x 17 r.grey else a
  | none => nextLine s x 17 r.grey

/-- ROTOR_STEP: due every RotorStepUs, unless the rotor holds, a Propose is open, another rotor of the facet has just switched, or a
recovery or reassignment is in progress. -/
def rotorStep (s : State) (x : Nat) : State :=
  let r := rotorOf s x
  let a := nextOf s x
  if rotorHolds s x || r.phase == 3 || decide (s.now < r.since + us (objGet s Obj.rotorStepUs)) || !facetClear s x || stepWaits s x a then s
  else stepRotor s x r.grey 17 a

/-- ROTOR_STEP (R215, R216, R218). -/
def execRotorStep (fibre : Nat) (s : State) : Res := need (decide (fibre < 32)) (rotorStep s fibre)

/-- Both rings of the grey line are locked. When the next line carries a lane that can move here, its flits are copied and
Propose is sent (Table OPT-6 steps 4 and 5); a recovery of that lane aborts the step (R220). -/
def rotorLocked (s : State) (x : Nat) : State :=
  let r := rotorOf s x
  if r.phase ≠ 1 ∨ rotorHolds s x then s
  else
    let s := updRing s (modRing x r.grey) (fun g => { g with locked := true, parked := false, bad := 0, fullFails := 0 })
    let a := nextOf s x
    match findLane s true x a with
    | none => updRotor s x (fun r => { r with phase := 2 })
    | some (k, lane) =>
      if !canMigrate s x a r.grey k then updRotor s x (fun r => { r with phase := 2 })
      else if lane.why ≠ 0 then abortRotor s x
      else
        updRotor (sendCtl s k (.propose lane.idx a r.grey)) x
          (fun r => { r with next := some a, phase := 3, lane := some (k, lane.idx), proposed := s.now })

/-- ROTOR_LINE_LOCKED (R216). -/
def execRotorLineLocked (fibre : Nat) (s : State) : Res := need (decide (fibre < 32)) (rotorLocked s fibre)

/-- No Accept 50 µs after Propose: the step is aborted (R220). -/
def rotorLate (s : State) (x : Nat) : State :=
  let r := rotorOf s x
  if r.phase = 3 ∧ r.proposed + us 50 ≤ s.now then abortTold s x else s

/-- ROTOR_ACCEPT_TIMEOUT (R220). -/
def execRotorAcceptTimeout (fibre : Nat) (s : State) : Res := need (decide (fibre < 32)) (rotorLate s fibre)

/-! ### The receiver's sweeps and lane recovery (R219, R222) -/

/-- Every drop ring whose line carries no lane is swept; bit j of `locked` says that ring j found its line. -/
def idleSweep (s : State) (k locked : Nat) : State :=
  let s := (List.range 17).foldl (fun s j =>
    if (findLane s false k j).isSome || ringRetired s (dropRing k j) then s
    else updRing s (dropRing k j) (fun g => { g with locked := natBit j locked, bad := 0 })) s
  { s with sweptAt := s.sweptAt.set k s.now }

/-- IDLE_DROP_SWEEP (R219). -/
def execIdleDropSweep (inFibre locked : Nat) (s : State) : Res := need (decide (inFibre < 32)) (idleSweep s inFibre locked)

/-- The lane of a recovery. -/
def recoveredLane (s : State) (x : Recovery) : Option Lane :=
  (if x.outgoing then (linkOf s x.link).outLanes else (linkOf s x.link).inLanes).find? (fun (l : Lane) => l.idx == x.lane)

/-- The lane of a ring found again, after its training: admitted, it returns; refused for skew, it is dropped; failed, it is trained
once more and then swept again (R222, R237, R239). -/
def retrained (s : State) (r : Nat) (t : TrainResult) : State :=
  let outgoing := decide (r < 544)
  let fibre := ringFibre r
  match s.recovery.find? (fun (x : Recovery) => x.ring == r) with
  | none => updRing s r (fun g => { g with locked := true, parked := false, fullFails := 0, sweep := 0, bad := 0 })
  | some x =>
    let v := verdict s outgoing fibre (r % 17) t
    let s := runTraining s outgoing fibre (r % 17) t
    let ended := { lockRing s outgoing fibre (r % 17) with recovery := s.recovery.filter (fun (y : Recovery) => y.ring != r) }
    match v, recoveredLane s x with
    | .admitted, some lane => returnLane (objPut ended (Obj.linkRttNs + x.link) t.rttNs) x.link x.outgoing lane
    | .skewed, some _ => refuseSkew ended outgoing fibre (r % 17)
    | .failed, some lane =>
      if lane.tries = 0 then updLane s x.link x.outgoing lane.idx (fun a => { a with tries := 1 })
      else
        updLane (updRing s r (fun g => { g with fullFails := 0, sweep := 1 })) x.link x.outgoing lane.idx (fun a => { a with tries := 0 })
    | _, none => ended

/-- A sweep of a ring ended: not found, the next wider sweep or retirement; found, its lane is trained (R222, R237). Core 2 acts, so
nothing happens while it restarts. -/
def recoveryEnd (s : State) (r : Nat) (found : Bool) (t : TrainResult) : State :=
  let g := ringOf s r
  if g.sweep = 0 ∨ core2Busy s (ringFibre r) then s
  else if !found then
    if g.sweep = 1 then updRing s r (fun g => { g with sweep := 2 })
    else if g.fullFails = 0 then updRing s r (fun g => { g with sweep := 3, fullFails := 1 })
    else retireRing (updRing s r (fun g => { g with fullFails := 2 })) r
  else retrained s r t

/-- LANE_RECOVERY_END (R222). -/
def execLaneRecoveryEnd (ring : Nat) (found : Bool) (t : TrainResult) (s : State) : Res :=
  need (decide (ring < 1088)) (recoveryEnd s ring found t)

/-! ### Beacons and the map (R224, R225, R245) -/

/-- The reports a beacon carries: what was heard from the chip it goes to since the last, or, to an unknown chip, the
first 24 of all. -/
def beaconReports (s : State) (x j : Nat) : List BeaconReport :=
  let e := specOf s x j
  if e.valid then (smGetD s.heard e.chip []).take 24 else (s.heard.flatMap Prod.snd).take 24

/-- One report as a word of a frame (R245). -/
def reportWord (r : BeaconReport) : Nat := r.chip + 2 ^ 14 * r.outFibre + 2 ^ 19 * r.line + 2 ^ 24 * r.inFibre

/-- Words 0 to 30 of a beacon frame (Table LNK-5); word 31 holds the frame's CRC. -/
def beaconWords (s : State) (x j : Nat) (rs : List BeaconReport) : List Nat :=
  [3 + 2 ^ 8 * 2 + 2 ^ 12 * 1 + 2 ^ 16 * chip s + 2 ^ 30 * (x / 8) + 2 ^ 32 * x + 2 ^ 37 * j, objGet s Obj.firmwareVersion, ownCaps,
    Config.epochProto + 2 ^ 8 * rs.length] ++ rs.map reportWord ++ List.replicate (27 - rs.length) 0

/-- Reports that a beacon has carried, taken off the lists (R245). -/
def dropReports (s : State) (rs : List BeaconReport) : State :=
  { s with heard := (s.heard.map (fun e => (e.1, e.2.filter (fun r => !rs.contains r)))).filter (fun e => !e.2.isEmpty) }

/-- A beacon burst on a line that carries no lane (R225, R245); on the grey line it follows the parking of its ring (Table OPT-6
steps 2 and 3). -/
def sendBeacon (s : State) (x j : Nat) : State :=
  let e := specOf s x j
  if isLit e || e.lineState == 5 || (laserAt s (laserOf x)).dark || s.tapped.contains x || !fibreUp s x then s
  else
    let s := if (rotorOf s x).grey = j ∧ (rotorOf s x).phase = 1 then parkRing s (modRing x j) else s
    let rs := beaconReports s x j
    dropReports (emit s (.beacon x j (beaconWords s x j rs))) rs

/-- BEACON_SEND (R225, R245). -/
def execBeaconSend (fibre line : Nat) (s : State) : Res :=
  need (decide (fibre < 32) && decide (line < 17)) (sendBeacon s fibre line)

/-- A report of this module's own beacon, given by chip c: the entry is filled, a changed peer darkens the line, and a
disagreement with the intended map is counted (R225, R247). -/
def takeReport (s : State) (c : Nat) (r : BeaconReport) : State :=
  let e := specOf s r.outFibre r.line
  let s := if e.valid && e.chip != c then
      journal (darkenLine s r.outFibre r.line) .peerChanged [r.outFibre, r.line, e.chip, c]
    else s
  let s := updSpec s r.outFibre r.line (fun e => { e with chip := c, inFibre := r.inFibre, valid := true, reported := s.now })
  if disagrees s r.outFibre r.line c r.inFibre then objInc s Obj.mapMismatches else s

/-- Reports given by chip c, those that name this module: each is taken, the lines that disagree are journalled, and Grey follows
(R225, R247, R248). -/
def takeReports (s : State) (c : Nat) (rs : List BeaconReport) : State :=
  let mine := rs.filter (fun (r : BeaconReport) => r.chip == chip s && decide (r.outFibre < 32) && decide (r.line < 17))
  let s := mine.foldl (fun s r => takeReport s c r) s
  checkMap (journalMismatches s (mine.map (fun r => 17 * r.outFibre + r.line)))

/-- Lines that reach a version 1 module on fibres that are not Direct are darkened (Table LNK-7). -/
def darkenV1 (s : State) (c : Nat) : State :=
  let bad := (List.range 544).filter (fun i =>
    let e := specOf s (i / 17) (i % 17)
    e.valid && e.chip == c && !isDirect s (i / 17))
  if bad.isEmpty then s
  else bad.foldl (fun s i => darkenLine s (i / 17) (i % 17)) (journal s .versionOneRouted [c])

/-- A report sent to a chip on VC0 of the link to it, where one carries VC0 (R225, R245). -/
def sendReport (s : State) (c : Nat) (r : BeaconReport) : State :=
  match linkTo s c with
  | some k => if carriesMgmt s k then inject s (linkHalf s k) (mkPacket s c 0 0 0 (.report r)) none else s
  | none => s

/-- A beacon heard on in-fibre k, line j (R225, R245 to R248). -/
def hearBeacon (s : State) (k j : Nat) (b : Beacon) : State :=
  if !b.crcOk || !fibreUp s k then s
  else if b.chip = chip s then
    journalAlert (darkenLine s b.outFibre b.line) .ownChipHeard [b.outFibre, k]
  else
    let rep : BeaconReport := { chip := b.chip, outFibre := b.outFibre, line := b.line, inFibre := k }
    let old := smGetD s.heard b.chip []
    let s := { s with
      inPeer := smSet s.inPeer (17 * k + j) (b.chip, b.outFibre)
      peerVer := smSet s.peerVer b.chip b.versionMax
      heard := smSet s.heard b.chip (if old.contains rep then old else old ++ [rep]) }
    let s := takeReports (sendReport s b.chip rep) b.chip b.reports
    if b.versionMax = 1 then checkMap (darkenV1 s b.chip) else s

/-- BEACON_RECEIVE (R225, R245, R247, R248). -/
def execBeaconReceive (inFibre line : Nat) (b : Beacon) (s : State) : Res :=
  need (decide (inFibre < 32) && decide (line < 17)) (hearBeacon s inFibre line b)

/-- An entry of an unlit line whose last report is more than 200 ms old is no longer Valid (R225). -/
def expireEntry (s : State) (x j : Nat) : State :=
  let e := specOf s x j
  if e.valid && !isLit e && decide (e.reported + ms 200 < s.now) then updSpec s x j (fun e => { e with valid := false }) else s

/-- MAP_ENTRY_EXPIRE (R225). -/
def execMapEntryExpire (fibre line : Nat) (s : State) : Res :=
  need (decide (fibre < 32) && decide (line < 17)) (expireEntry s fibre line)

/-! ### Lines on demand (R226, R227) -/

/-- The entries of a LaneDemand image. `fuel` is their number. -/
def demandsOf : Nat → Bytes → List Demand
  | 0, _ => []
  | n + 1, b =>
    let w := leNat (b.take 8)
    { chip := w % 2 ^ 14, lanes := w / 2 ^ 14 % 256, prio := w / 2 ^ 22 % 8 } :: demandsOf n (b.drop 8)

/-- The list replaced, and the surplus of each peer in order darkened; LINE_REQUEST_SEND lights what is missing. -/
def setDemand (s : State) (image : Bytes) : State :=
  let s := { s with demand := demandsOf (image.length / 8) image }
  (demandOrder s.demand).foldl darkenSurplus s

/-- LANE_DEMAND_COMMIT (R226): a list of entries of 8 B, each with at most 128 lanes. -/
def execLaneDemandCommit (r : Route) (handle : Nat) (digest : Bytes) (s : State) : Res :=
  .next (commitRow s r Obj.laneDemand handle digest false (fun n => n % 8 == 0)
    (fun _ b => if (demandsOf (b.length / 8) b).any (fun (d : Demand) => decide (128 < d.lanes)) then 0x03 else 0) setDemand)

/-- LINE_REQUEST_SEND: a line that can be lit towards the chip served first. -/
def sendLineRequest (s : State) (x j : Nat) : State :=
  match servedFirst s with
  | some c => if (specOf s x j).chip = c ∧ lightable s x j then requestLine s x j else s
  | none => s

/-- LINE_REQUEST_SEND (R227). -/
def execLineRequestSend (fibre line : Nat) (s : State) : Res :=
  need (decide (fibre < 32) && decide (line < 17)) (sendLineRequest s fibre line)

/-- In-lanes of a link, those granted, trained and not yet joined included. -/
def lanesComing (s : State) (c : Nat) : Nat :=
  (match linkTo s c with
    | some k => ((linkOf s k).inLanes ++ (linkOf s k).left).length
    | none => (s.strayIn.filter (fun e => e.1 == c)).length)
  + (s.inGrant.filter (fun i => ((smGet s.inPeer i).map Prod.fst) == some c)).length

/-- Whether all the lines of an in-fibre are heard from one out-fibre. -/
def directIn (s : State) (k : Nat) : Bool :=
  (List.range 17).all (fun i => (smGet s.inPeer (17 * k + i)).isSome && smGet s.inPeer (17 * k + i) == smGet s.inPeer (17 * k))

/-- Whether an in-fibre line carries no lane, has none coming, and may carry one: its drop ring is fit, and from a version 1 module
the line is one of Table LNK-8. -/
def inFree (s : State) (c k j : Nat) : Bool :=
  (findLane s false k j).isNone && !s.inGrant.contains (17 * k + j) && !ringRetired s (dropRing k j)
    && !s.strayIn.any (fun e => e.2.fibre == k && e.2.line == j)
    && (smGetD s.peerVer c 2 != 1 || linesV1 (directIn s k) j)

/-- A peer's LineRequest: granted when the in-fibre line is free and the limits of links and lanes hold; a new link also needs a Valid
line back, and one lane back is then lit in the same procedure (R227, R230). -/
def takeLineRequest (s : State) (c x j k : Nat) : State :=
  let known := (linkTo s c).isSome
  let begun := s.specMap.any (fun (e : MapEntry) => e.chip == c && (isLit e || e.lineState == 4))
  let back := s.specMap.any (fun (e : MapEntry) => e.valid && e.chip == c && e.lineState != 5)
  let ok := inFree s c k j && c != chip s && decide (lanesComing s c < 128) && (known || ((freeLink s).isSome && (begun || back)))
  if !ok then emit s (.lineRefuse c x j)
  else
    let s := { s with
      inGrant := s.inGrant ++ [17 * k + j], inPeer := smSet s.inPeer (17 * k + j) (c, x)
      backDue := if known || begun || s.backDue.contains c then s.backDue else s.backDue ++ [c] }
    let s := emit s (.lineGrant c x j)
    match candidatesTo s c with
    | b :: _ => if s.backDue.contains c then requestLine s b.1 b.2 else s
    | [] => s

/-- LINE_REQUEST (R227, R230). -/
def execLineRequest (chip outFibre line inFibre : Nat) (s : State) : Res :=
  need (decide (inFibre < 32) && decide (line < 17)) (takeLineRequest s chip outFibre line inFibre)

/-- A grant: the rings lock and the lane trains; admitted, it joins its link, LineState becomes 1 and Reassignments adds 1 (Table
OPT-10 steps 3 to 5). A lane that its link cannot take leaves the line dark. -/
def takeGrant (s : State) (x j : Nat) (t : TrainResult) : State :=
  if smGet s.reassign x ≠ some j then s
  else
    let v := verdict s true x j t
    let s := runTraining s true x j t
    match v with
    | .admitted =>
      let s := admitNew { s with reassign := smErase s.reassign x } true x j t
      if (specOf s x j).lineState = 4 then updSpec s x j (fun e => { e with lineState := 0 }) else objInc s Obj.reassignments
    | .skewed => refuseSkew s true x j
    | .failed => failTraining s true x j

/-- LINE_GRANT (R227). -/
def execLineGrant (fibre line : Nat) (t : TrainResult) (s : State) : Res :=
  need (decide (fibre < 32) && decide (line < 17)) (takeGrant s fibre line t)

/-- A refusal: LineState returns to 0 and ReassignRefusals adds 1; a lane back that is still due is tried on another line (R227,
R230). -/
def takeRefusal (s : State) (x j : Nat) : State :=
  if smGet s.reassign x ≠ some j then s
  else
    let c := (specOf s x j).chip
    let due := (linkTo s c).isNone && (s.strayIn.any (fun e => e.1 == c)
      || s.inGrant.any (fun i => ((smGet s.inPeer i).map Prod.fst) == some c))
    let s := { s with reassign := smErase s.reassign x, backDue := if due && !s.backDue.contains c then s.backDue ++ [c] else s.backDue }
    objInc (updSpec s x j (fun e => { e with lineState := 0 })) Obj.reassignRefusals

/-- LINE_REFUSE (R227). -/
def execLineRefuse (fibre line : Nat) (s : State) : Res :=
  need (decide (fibre < 32) && decide (line < 17)) (takeRefusal s fibre line)

end Sys2Proof.Machine
end

