-- ==== Sys2Proof/Machine/Routing.lean ====
section
/-!
DEFINITION. The commands of the routers (12).
-/

namespace Sys2Proof.Machine

/-! ### PACKET_ROUTE -/

/-- Bytes of VC0 packets that a half's core 3 holds before a packet (R253). -/
def mgmtBytes (s : State) (h : Half) (id : Nat) : Nat :=
  (((routerOf s h).held.filter (fun (x : Held) => x.p.vc == 0 && decide (x.id < id))).map (fun (x : Held) => 4 * x.p.len)).sum

/-- A VC0 packet: delivered, or forwarded to its chip where that is a peer's, else along the escape link of the Active bank
(R253). A beacon report is taken in (R225). -/
def routeMgmt (s : State) (h : Half) (x : Held) : State :=
  if x.p.dest = chip s then
    match x.p.body with
    | .report r => takeReports (leaveRouter s h x) x.p.src [r]
    | _ => leaveRouter s h x
  else if 65536 < mgmtBytes s h x.id + 4 * x.p.len then dropPacket s h x Obj.mgmtDrops fabNoRoute
  else if 63 ≤ x.p.hops then dropPacket s h x Obj.hopLimitDrops fabNoRoute
  else
    match mgmtLink s h x.p with
    | none => dropPacket s h x Obj.noRouteDrops fabNoRoute
    | some k =>
      if carriesMgmt s k && reachLink s h k then
        (if windowOpenFor (linkOf s k) x.p then
          match served s h k x with
          | some s => sendOn s h k 0 x
          | none => s
         else objInc s Obj.retryWindowStalls)
      else if (linkTo s x.p.dest).isSome then s
      else updHeld s h x.id (fun y => { y with badSince := y.badSince.or (some s.now) })

/-- The ranks of an axis group whose coordinates lie in a sub-span. -/
def spanRanks (s : State) (g : Group) (lo hi : Nat) : List Nat :=
  (List.range g.members).filter (fun r =>
    decide (lo ≤ axisOwn s g.axis - g.own + r) && decide (axisOwn s g.axis - g.own + r ≤ hi))

/-- A copy that is not sent: counted. For a request the origin learns the sub-span not reached; a result of this module's own
engine goes to each module of the sub-span by unicast (R266, Table COL-8). -/
def mcastShort (s : State) (h : Half) (x : Held) (lo hi : Nat) : State :=
  let s := objInc s Obj.mcastShort
  match x.p.body with
  | .req _ tag _ => replyTo s h x.p tag fabShort 0 (natLe 1 lo ++ natLe 1 hi)
  | .coll c =>
    if x.p.src ≠ chip s then s
    else
      match activeColl s c.collId with
      | some k =>
        let g := levelGroup s k.d.words c.level
        (spanRanks s g lo hi).foldl (fun s r => sendColl s (g.chipOf r) c) s
      | none => s
  | _ => s

/-- The copy towards one neighbour: sent, short, or still to be made. Answers the state and whether it is still to be
made. -/
def mcastSide (s : State) (h : Half) (x : Held) (todo : Bool) (link : Option Nat) (lo hi : Nat) : State × Bool :=
  if !todo then (s, false)
  else
    let esc := escapeVc x.p.vc x.p.epoch
    match link with
    | none => (mcastShort s h x lo hi, false)
    | some k =>
      if !(usableLink s k { x.p with vc := esc } && reachLink s h k) then (mcastShort s h x lo hi, false)
      else if canSend s k esc x.p then
        match served s h k x with
        | some s => (sendCopy s h k esc x, false)
        | none => (s, true)
      else (if hasCredit (linkOf s k) esc (creditsOf x.p) then objInc s Obj.retryWindowStalls else s, true)

/-- A multicast packet: the local copy once, then a copy for each side; the buffer is freed when all are made. -/
def routeMcast (s : State) (h : Half) (x : Held) : State :=
  let c := copiesOf s x
  let own := axisOwn s x.p.axis
  let here := c.1 && ejectOk s h x.p
  let s := if here then ejectTo s h x.p else s
  let plus := mcastSide s h x c.2.1 (axisPlus s x.p.axis) (own + 1) x.p.hi
  let minus := mcastSide plus.1 h x c.2.2 (axisMinus s x.p.axis) x.p.lo (own - 1)
  let left := (c.1 && !here, plus.2, minus.2)
  if left.1 || left.2.1 || left.2.2 then updHeld minus.1 h x.id (fun y => { y with copies := some left })
  else leaveRouter minus.1 h x

/-- A packet that goes on: sent as `choose` says once its output serves it, dropped, or waiting (R255, R256, R262). -/
def routeChosen (s : State) (h : Half) (x : Held) : State :=
  match choose s h x.p with
  | .send k vc =>
    match served s h k x with
    | some s => sendOn s h k vc x
    | none => s
  | .noEscape => dropPacket s h x Obj.noRouteDrops fabNoRoute
  | .badEscape => updHeld s h x.id (fun y => { y with badSince := y.badSince.or (some s.now) })
  | .wait =>
    updHeld (if windowStalled s h x.p then objInc s Obj.retryWindowStalls else s) h x.id (fun y => { y with badSince := none })

/-- A packet at a router (R251 to R257, R264, R265). -/
def routePacket (s : State) (h : Half) (id : Nat) : State :=
  match heldOf s h id with
  | none => s
  | some x =>
    if malformed x.p then objInc (leaveRouter s h x) Obj.routeMalformed
    else if x.p.vc = 0 then routeMgmt s h x
    else if !windowLets s h x then
      (if x.winTold then s else updHeld (objInc s Obj.injectWindowStalls) h id (fun y => { y with winTold := true }))
    else if x.p.dest = chip s ∧ !x.p.mcast then
      (if ejectOk s h x.p then ejectTo (leaveRouter s h x) h x.p else s)
    else if bankState s x.p.epoch = 0 then dropPacket s h x Obj.epochMisses fabNoRoute
    else if 63 ≤ x.p.hops then dropPacket s h x Obj.hopLimitDrops fabNoRoute
    else if x.p.mcast then routeMcast s h x
    else routeChosen s h x

/-- PACKET_ROUTE (R255). -/
def execPacketRoute (half : Half) (id : Nat) (s : State) : Res := .next (routePacket s half id)

/-- A packet whose escape link has been unusable for EscapeWaitUs is dropped. -/
def escapeExpire (s : State) (h : Half) (id : Nat) : State :=
  match heldOf s h id with
  | none => s
  | some x =>
    match x.badSince with
    | none => s
    | some t =>
      if s.now < t + us (objGet s Obj.escapeWaitUs) then s
      else if x.p.vc ≠ 0 ∧ choose s h x.p ≠ .badEscape then routeChosen s h x
      else dropPacket s h x Obj.noRouteDrops fabNoRoute

/-- ESCAPE_WAIT_EXPIRE (R256). -/
def execEscapeWaitExpire (half : Half) (id : Nat) (s : State) : Res := .next (escapeExpire s half id)

/-- A packet held on an escape channel for EscapeStallMs (R259). -/
def stallTold (s : State) (h : Half) (id : Nat) : State :=
  match heldOf s h id with
  | none => s
  | some x =>
    if x.stallTold || x.p.vc == 0 || isAdaptive x.p.vc || decide (s.now < x.since + ms (objGet s Obj.escapeStallMs)) then s
    else
      journalAlert (updHeld (objInc s Obj.escapeStalls) h id (fun y => { y with stallTold := true })) .escapeStall
        [x.from_.getD 64, x.p.vc, x.p.dest]

/-- ESCAPE_STALL (R259). -/
def execEscapeStall (half : Half) (id : Nat) (s : State) : Res := .next (stallTold s half id)

/-! ### Banks (R260, R261, Table RTE-4) -/

/-- RouteBankState with a bank in a state. -/
def setBank (s : State) (b st : Nat) : State :=
  let v := objGet s Obj.routeBankState
  objPut s Obj.routeBankState (v - v / 4 ^ b % 4 * 4 ^ b + st * 4 ^ b)

/-- The bank that takes an image: Free or Loaded. -/
def loadBank (s : State) : Option Nat := (List.range 2).find? (fun b => decide (bankState s b ≤ 1))

/-- The entries of one half of an image, from number i on, those that are not all 0. -/
def entriesOf : Nat → Nat → Bytes → SMap Nat
  | 0, _, _ => []
  | n + 1, i, b =>
    let e := leNat (b.take 8)
    if e = 0 then entriesOf n (i + 1) (b.drop 8) else (i, e) :: entriesOf n (i + 1) (b.drop 8)

/-- Whether an image has a reserved bit of Table RTE-3 set. -/
def tableReserved : Nat → Bytes → Bool
  | 0, _ => false
  | n + 1, b => decide (2 ^ 35 ≤ leNat (b.take 8)) || tableReserved n (b.drop 8)

/-- A bank loaded in both halves. -/
def loadTables (s : State) (image : Bytes) : State :=
  match loadBank s with
  | none => s
  | some b =>
    let put (m : SMap Nat) (r : Router) : Router := if b = 0 then { r with bank0 := m } else { r with bank1 := m }
    let s := updRouter s .w (put (entriesOf 16384 0 (image.take 131072)))
    setBank (updRouter s .e (put (entriesOf 16384 0 (image.drop 131072)))) b 1

/-- ROUTE_TABLE_LOAD (R260). -/
def execRouteTableLoad (r : Route) (handle : Nat) (digest : Bytes) (s : State) : Res :=
  .next (commitRow s r Obj.routeTableLoad handle digest false (fun n => n == 262144)
    (fun s image => if (loadBank s).isNone || tableReserved 32768 image then 0x08 else 0) loadTables)

/-- Whether EpochSwitch to bank e is allowed: e Loaded, the other Active. -/
def switchOk (s : State) (e : Nat) : Bool := bankState s e == 1 && bankState s (e + 1) == 2

/-- EpochSwitch: Active becomes Draining, bank e becomes Active. -/
def switchEpoch (s : State) (e : Nat) : State :=
  objPut (setBank (setBank { s with armed := false } (1 - e) 3) e 2) Obj.routeEpochActive e

/-- A write of EpochSwitch (R260). -/
def writeEpochSwitch (r : Route) (v : Bytes) (s : State) : State :=
  writeRow s r Obj.epochSwitch v false (fun s n => if 1 < n then 0x03 else if switchOk s n then 0 else 0x08) switchEpoch

/-- EPOCH_SWITCH (R260). -/
def execEpochSwitch (r : Route) (v : Bytes) (s : State) : Res := .next (writeEpochSwitch r v s)

/-- The Draining bank. -/
def drainBank (s : State) : Option Nat := (List.range 2).find? (fun b => bankState s b == 3)

/-- DrainArm: DrainDirty says whether any packet of the Draining epoch is held (R261). A write of 0 does nothing. -/
def armDrain (s : State) (n : Nat) : State :=
  if n = 0 then s else { objPut s Obj.drainDirty (boolNat (oldEpochPackets s != 0)) with armed := true }

/-- A write of DrainArm (R261). -/
def writeDrainArm (r : Route) (v : Bytes) (s : State) : State :=
  writeRow s r Obj.drainArm v false (fun s n => if n != 0 && (drainBank s).isNone then 0x08 else 0) armDrain

/-- DRAIN_ARM (R261). -/
def execDrainArm (r : Route) (v : Bytes) (s : State) : Res := .next (writeDrainArm r v s)

/-- EpochRelease: Draining becomes Free. A write of 0 does nothing. -/
def releaseEpoch (s : State) (n : Nat) : State :=
  match drainBank s with
  | some b => if n = 0 then s else { setBank s b 0 with armed := false }
  | none => s

/-- A write of EpochRelease (R260). -/
def writeEpochRelease (r : Route) (v : Bytes) (s : State) : State :=
  writeRow s r Obj.epochRelease v false
    (fun s n => if n != 0 && ((drainBank s).isNone || oldEpochPackets s != 0) then 0x08 else 0) releaseEpoch

/-- EPOCH_RELEASE (R260). -/
def execEpochRelease (r : Route) (v : Bytes) (s : State) : Res := .next (writeEpochRelease r v s)

/-! ### Windows (Table RTE-6) -/

/-- A hot destination without an echo for 4 µs: its window grows, and its entry goes when it reaches the class window. -/
def growHot (s : State) (h : Half) (c : PClass) (d : Nat) : State :=
  updRouter s h (fun r =>
    { r with hot := r.hot.filterMap (fun (e : Hot) =>
        if e.cls = c ∧ e.dest = d ∧ e.echoed + us 4 ≤ s.now then
          (if classWindow r c ≤ e.window + 65536 then none else some { e with window := e.window + 65536, echoed := s.now })
        else some e) })

/-- HOT_WINDOW_GROW (R264). -/
def execHotWindowGrow (half : Half) (cls : PClass) (dest : Nat) (s : State) : Res := .next (growHot s half cls dest)

/-- A class window after `fill` bytes have been found in the injection queue, `since` having been its last change; none where
it does not change. -/
def windowAfter (w fill since now : Nat) : Option Nat :=
  if 786432 < fill ∧ since + us 10 ≤ now then some (max 16384 (w - w / 8))
  else if fill < 262144 ∧ since + us 4 ≤ now then some (min 8388608 (w + 65536))
  else none

/-- The class window of requests or of collective packets adjusted (R264). -/
def adjustWindow (s : State) (h : Half) (c : PClass) (fill : Nat) : State :=
  updRouter s h (fun r =>
    match c with
    | .request =>
      match windowAfter r.winReq fill r.winLastReq s.now with
      | some w => { r with winReq := w, winLastReq := s.now }
      | none => r
    | .coll =>
      match windowAfter r.winColl fill r.winLastColl s.now with
      | some w => { r with winColl := w, winLastColl := s.now }
      | none => r
    | _ => r)

/-- CLASS_WINDOW_ADJUST (R264). -/
def execClassWindowAdjust (half : Half) (cls : PClass) (fill : Nat) (s : State) : Res := .next (adjustWindow s half cls fill)

end Sys2Proof.Machine
end

