-- ==== Sys2Proof/Machine/HaltOps.lean ====
section
/-!
DEFINITION. Engines stopped as a whole (R25, R179, R376): every issued descriptor completes with one status, queues halt,
and requests on their way are given up.
-/

namespace Sys2Proof.Machine

/-- The outstanding reads of running streams that a test of engine, context and request picks. -/
def openReads (s : State) (pick : Nat → StreamCtx → Req → Bool) : List (Nat × StreamCtx × Req) :=
  (List.range 72).flatMap (fun e => (engineCtx s e).flatMap (fun (c : StreamCtx) =>
    (c.reqs.filter (fun (r : Req) => strDir c.d.words != 1 && !r.sent && pick e c r)).map (fun (r : Req) => (e, c, r))))

/-- One read of a stopped engine completed with its lines poisoned, for a Table STR-6 cause, or with cause 0 as data that
arrived poisoned and is otherwise left open (log entry 3). An In's lines are written; a Copy, whose engine no longer writes,
keeps what it noted. -/
def poisonRead (cause : Nat) (s : State) (x : Nat × StreamCtx × Req) : State :=
  match findCtx s x.1 x.2.1.d.queue x.2.1.d.seq with
  | none => s
  | some c =>
    let bs := arrived c.d.words x.2.2 (fun _ => ⟨if cause = 0 then freeLine s else [], true, cause⟩)
    let s := dropReads s x.1 c.d.seq x.2.2.id
    tallied
      (if strDir c.d.words = 0 then inPhase { s with free := s.free + 8 } x.1 c x.2.2 bs
       else updCtx s x.1 c.d.queue c.d.seq (fun c => noteArrived (noteDone c x.2.2) x.2.2.scale bs)) x.1 c

/-- Reads of stopped engines completed with poisoned lines: nothing follows from them (R25, R179). -/
def poisonReads (s : State) (pick : Nat → StreamCtx → Req → Bool) (cause : Nat) : State :=
  (openReads s pick).foldl (poisonRead cause) s

/-- Whether a request waits on a reply that crosses the bridge: its far side is homed in the other half (R16, R25). -/
def crossesE (s : State) (e : Nat) (c : StreamCtx) (r : Req) : Bool := farHere s c r && homeHalf s r.far != halfOfEngine e

/-- The lines of an engine's outstanding Out requests that go to the other half: stores that have crossed without
acknowledgement (R25). -/
def crossedOf (s : State) (e : Nat) (c : StreamCtx) (r : Req) : Nat :=
  if strDir c.d.words != 1 then 0
  else
    let top := destTop c.d.words r.scale
    ((nearLines (heldBytes c.d.words r)).filter (fun l =>
      match putTo s top (64 * l) with
      | .here off => homeHalf s off != halfOfEngine e
      | _ => false)).length

/-- The count of stores that had crossed without acknowledgement (R25 step 3). Atomics end within their command. -/
def crossedStores (s : State) : Nat :=
  ((List.range 72).map (fun e => ((engineCtx s e).map (fun (c : StreamCtx) => (c.reqs.map (crossedOf s e c)).sum)).sum)).sum

/-- A descriptor that was stopped: its record, and no tail signal. -/
def stopDesc (s : State) (d : Done) : State :=
  if (smGet s.queues d.queue).isNone then s
  else
    updQ (writeRecord s d.queue (recordOf d false)) d.queue (fun x =>
      { excSum x (if d.raises then d.summary else 0) d.seq with outstanding := x.outstanding - 1 })

/-- What a queue learns from an array's or vector unit's descriptor that was stopped. -/
def stoppedDone (status nn : Nat) (d : Issued) : Done :=
  { queue := d.queue, seq := d.seq, words := d.words, inLayer := d.inLayer, status := status, op := opcode d.words,
    engine := nn, summary := 0, body := recordBody {}, raises := false }

/-- The descriptors of a pair that are issued and not complete. -/
def pairIssued (s : State) (nn : Nat) : List Issued :=
  let a := s.arrays.getD nn {}
  let u := s.vecs.getD nn {}
  (a.leaving.map ArrayRun.d).toList ++ (a.run.map ArrayRun.d).toList ++ a.fifo ++ (u.done.map Prod.fst).toList ++ u.fifo

/-- Every issued descriptor of the module with what its queue learns. -/
def allStopped (s : State) (status : Nat) : List Done :=
  ((List.range 64).flatMap (fun nn => (pairIssued s nn).map (stoppedDone status nn)))
    ++ ((List.range 72).flatMap (fun e => (engineCtx s e).map (fun c => strDone c e (some status))))
    ++ s.layers.map (fun (l : Layer) =>
        { queue := l.queue, seq := l.seq, words := l.words, status := status, op := 0x50, engine := 127, summary := 0,
          body := layerBody l false false, raises := false })
    ++ s.queues.flatMap (fun e => (e.2.seams.filter (fun (m : Seam) => !m.opened)).map (fun (m : Seam) =>
        { queue := e.1, seq := m.seq, words := m.words, status := status, op := 0x41, engine := 127, summary := 0,
          body := List.replicate 6 0, raises := false }))
    ++ s.colls.map (fun (x : Coll) => collDone x status {})

/-- Engines with nothing in them. Banks and trees keep their values. -/
def clearEngines (s : State) : State :=
  let gone := (List.range 72).flatMap (fun e => (engineCtx s e).map (fun c => (c.d.queue, c.d.seq)))
  { s with
    arrays := s.arrays.map (fun (a : ArrayUnit) =>
      { a with fifo := [], run := none, leaving := none, active := none, standby := none, handoff := [none, none],
               ranFrom := none, ranLast := ranUntil a s.now })
    vecs := s.vecs.map (fun _ => {})
    engines := s.engines.map (fun (g : Engine) => { g with ctx := [] })
    layers := []
    queues := s.queues.map (fun e => (e.1, { e.2 with seams := e.2.seams.filter Seam.opened, fetched := e.2.fetched.filter (fun (f : Fetched) => !f.inLayer) }))
    waitClaims := []
    spills := s.spills.filter (fun (x : Spill) => !gone.contains (x.holder.queue, x.holder.seq))
    chans := s.chans.map (fun (c : Chan) => { c with readQ := [], readWait := [] })
    claims := s.claims.filter (fun (c : Claim) => !gone.contains (c.queue, c.seq))
    waiters := s.waiters.filter (fun w => !gone.contains (w.queue, w.seq) && !s.colls.any (fun (x : Coll) => x.d.queue == w.queue && x.d.seq == w.seq))
    outst := s.outst.filter (fun (o : Outst) => match o.who with
      | .tail _ _ => true
      | _ => false)
    colls := [], slots := [], greys := [], pendColls := [] }

/-- Running queues halt, each with its event interrupt (Table QSY-3, Table QSY-4). -/
def haltQueues (s : State) : State :=
  (s.queues.filter (fun e => e.2.state == 1)).foldl (fun s e => raiseTrap (updQ s e.1 (fun x => { x with state := 2 })) e.1) s

/-- Every engine stopped, every issued descriptor complete with a status, every queue halted. -/
def haltEngines (s : State) (status : Nat) : State :=
  let ds := allStopped s status
  haltQueues (clearEngines (ds.foldl stopDesc s))

end Sys2Proof.Machine
end

