-- ==== Sys2Proof/Machine/Bridge.lean ====
section
/-!
DEFINITION. The commands of the bridge and the pilot link (01).
-/

namespace Sys2Proof.Machine

/-- Whether a bundle is retired: its bit in BridgeRetiredMap or BridgeRetiredMapHigh. -/
def bundleRetired (s : State) (b : Nat) : Bool :=
  if b < 64 then natBit b (objGet s Obj.bridgeRetiredMap) else natBit (b - 64) (objGet s Obj.bridgeRetiredMapHigh)

/-- Whether a bundle carries flits: the bridge is trained and has not failed, and the bundle is not retired. -/
def bundleWorks (s : State) (b : Nat) : Bool := bridgeUp s && !bundleRetired s b

/-- A function applied to the bridge. -/
def updBridge (s : State) (f : Bridge → Bridge) : State := { s with bridge := f s.bridge }

/-- Whether a bundle's group carries a flit: lines cross on the memory group, packets on the router group (Table MOD-4). -/
def groupCarries (b : Nat) : BridgeFlit → Bool
  | .line _ _ => decide (b < 64)
  | .packet _ _ => decide (64 ≤ b)

/-- The packet in the bridge's buffers that a flit brings. -/
def crossingOf (s : State) (p : Packet) (link : Option Nat) : Option Crossing :=
  s.bridge.crossing.find? (fun (x : Crossing) => x.p == p && x.link == link)

/-- Whether a flit is one that a bundle may bring: of its group, and for a packet one that the bridge holds. -/
def flitDue (s : State) (b : Nat) (f : BridgeFlit) : Bool :=
  groupCarries b f && (match f with
    | .line _ _ => true
    | .packet p k => (crossingOf s p k).isSome)

/-- A flit that reaches the far half: a line is applied by its memory fabric with its poison bit, and a packet is put at its
ejection port or sent by its router on the link that the near router chose, or routed again where that link no longer carries
it (R14, R257). -/
def deliverFlit (s : State) : BridgeFlit → State
  | .line a d => localPut s (a / 64 * 64) fullMask d.bytes d.poison
  | .packet p k =>
    match crossingOf s p k with
    | none => s
    | some x =>
      let s := updBridge s (fun g => { g with crossing := g.crossing.erase x })
      match k with
      | none => putEjected s x.to_ p
      | some k =>
        if (linkOf s k).bound && decide (linkState s k ≤ (if p.vc = 0 then 2 else 1)) then linkSend s k p
        else reinject s (linkHalf s k) k [(s.now, p)]

/-- How often a flit has failed on a bundle in a row. -/
def flitFails (s : State) (b : Nat) (f : BridgeFlit) : Nat :=
  ((s.bridge.waiting.find? (fun (x : BridgeWait) => x.bundle == b && x.flit == f)).map BridgeWait.fails).getD 0

/-- The waiting flits without one flit of a bundle. -/
def notWaiting (s : State) (b : Nat) (f : BridgeFlit) : List BridgeWait :=
  s.bridge.waiting.filter (fun (x : BridgeWait) => !(x.bundle == b && x.flit == f))

/-- A flit on a bundle: one that fails its CRC waits to be sent again, any other is delivered once (R14, R23). BridgeRetries
counts the sends after the first, at most 16 for a flit. -/
def bridgeFlit (s : State) (b : Nat) (f : BridgeFlit) (crcOk : Bool) : State :=
  if !(bundleWorks s b && flitDue s b f) then s
  else
    let n := flitFails s b f
    let rest := notWaiting s b f
    if crcOk then deliverFlit (updBridge s (fun g => { g with waiting := rest })) f
    else
      let s := updBridge s (fun g => { g with waiting := rest ++ [{ bundle := b, flit := f, fails := n + 1 }] })
      if n < 16 then objInc s Obj.bridgeRetries else s

/-- BRIDGE_FLIT_RECEIVE (R14). -/
def execBridgeFlitReceive (bundle : Nat) (flit : BridgeFlit) (crcOk : Bool) (s : State) : Res :=
  need (decide (bundle < 96)) (bridgeFlit s bundle flit crcOk)

/-- The bridge becomes failed while the module runs (R25): the engines stop, loads that wait on a crossing reply end poisoned,
the stores that had crossed are journalled, queues halt, links turn Grey, and what stood in the bridge is lost. -/
def bridgeFails (s : State) : State :=
  let s := objPut s Obj.bridgeState 2
  if !isReady s then s
  else
    let n := crossedStores s
    let s := poisonReads s (crossesE s) 0
    let s := haltEngines (journal s .outcomeUnknown [n]) 5
    let s := updBridge s (fun g => { g with crossing := [], waiting := [] })
    journal (objPut (greyAll s 4) Obj.moduleState 2) .bridgeFailed []

/-- The bundles of a bundle's group. -/
def groupMates (b : Nat) : List Nat := if b < 64 then List.range 64 else (List.range 32).map (fun i => 64 + i)

/-- Whether one flit has failed 16 retries in a row on a bundle, so that it is to be retired (R23). -/
def retireDue (s : State) (b : Nat) : Bool :=
  s.bridge.waiting.any (fun (x : BridgeWait) => x.bundle == b && decide (17 ≤ x.fails))

/-- A bundle's waiting flits moved to another bundle of its group, their count begun anew. DESIGN CHOICE (log entry 11): R23 says
only that the other bundles of the group carry them; here it is the working one of lowest number. -/
def moveFlits (s : State) (b : Nat) : State :=
  match (groupMates b).find? (bundleWorks s) with
  | some m => updBridge s (fun g =>
      { g with waiting := g.waiting.map (fun (x : BridgeWait) => if x.bundle = b then { x with bundle := m, fails := 0 } else x) })
  | none => s

/-- A bundle retired: its bit is set, its undelivered flits go to another bundle of its group, the event is journalled with
ALERT_N, and below a threshold the bridge fails (R23, R24). -/
def retireBundle (s : State) (b : Nat) : State :=
  if !(bundleWorks s b && retireDue s b) then s
  else
    let s := if b < 64 then
        objPut (objBit s Obj.bridgeRetiredMap b true) Obj.bridgeMemBundles (objGet s Obj.bridgeMemBundles - 1)
      else objPut (objBit s Obj.bridgeRetiredMapHigh (b - 64) true) Obj.bridgeRouterBundles (objGet s Obj.bridgeRouterBundles - 1)
    let s := journalAlert (objPut (moveFlits s b) Obj.bridgeState 1) .bundleRetired [b]
    if objGet s Obj.bridgeMemBundles < 48 ∨ objGet s Obj.bridgeRouterBundles < 24 then bridgeFails s else s

/-- BUNDLE_RETIRE (R23, R25). -/
def execBundleRetire (bundle : Nat) (s : State) : Res := need (decide (bundle < 96)) (retireBundle s bundle)

/-- The pilot link fails while the module runs. -/
def pilotFails (s : State) : State :=
  if objGet s Obj.pilotState = 1 then journalAlert (objPut s Obj.pilotState 2) .pilotFailed [] else s

/-- PILOT_LINK_FAILURE (R406). -/
def execPilotLinkFailure (s : State) : Res := .next (pilotFails s)

end Sys2Proof.Machine
end

