-- ==== Sys2Proof/Machine/Fabric.lean ====
section
/-!
DEFINITION. The commands of fabric memory (13): requests at their target, replies and timeouts at their source, send
windows, the replay cache, the atomic units and the remote read cache.
-/

namespace Sys2Proof.Machine

/-! ### Requests (R276 to R286) -/

/-- A load; `ev` is what its reads find (R164, R169): its bytes with each line's poison bit, or address-error with every line marked poisoned (R18). -/
def serveLoad (s : State) (p : Packet) (ev : List LineEvent) : State :=
  match p.body with
  | .req off tag (.load n) =>
    serveRequest s p off tag n true (fun s h =>
      let s := linesFound s (linesOf off n) ev
      match loadAt s off n with
      | some (data, mask) => replyTo (afterRead s off n) h p tag 0 mask data
      | none => replyTo (countReserved s [off]) h p tag fabAddress (2 ^ min 4 (linesOf off n).length - 1) [])
  | _ => s

/-- LOAD_REQUEST (R276, R278, R279). -/
def execLoadRequest (p : TargetRead) (s : State) : Res := .next (serveLoad s p.packet p.ev)

/-- A store: the masked bytes of one line with its poison bit, acknowledged. -/
def serveStore (s : State) (p : Packet) : State :=
  match p.body with
  | .req off tag (.store mask data poison) =>
    let line := off / 64 * 64
    serveRequest s p line tag 64 false (fun s h =>
      let ok := localPutOk s line mask
      replyTo (touchWord (localPut s line mask data poison) line) h p tag (if ok then 0 else fabAddress) 0 [])
  | _ => s

/-- STORE_REQUEST (R276, R278, R285). -/
def execStoreRequest (p : Packet) (s : State) : Res := .next (serveStore s p)

/-- An atomic: a refused form changes nothing; else the replay cache decides, and it is applied once or answered
outcome-unknown. -/
def serveAtomic (s : State) (p : Packet) (ev : List LineEvent) : State :=
  match p.body with
  | .req off tag (.atomic op w64 age a b) =>
    serveRequest s p off tag (if w64 then 8 else 4) false (fun s h =>
      if !atomicForm s off op w64 then
        replyTo (if regionOf s off = .reserved then countAddrError s off else s) h p tag fabAddress 0 []
      else
        sequenced s h p tag age (fun s =>
          let r := atomicAt (linesFound s (linesOf off 1) ev) off op w64 a b
          (r.st, r.status, boolNat r.poison, natLe 8 r.old)))
  | _ => s

/-- ATOMIC_REQUEST (R276, R277, R282 to R285). -/
def execAtomicRequest (p : TargetRead) (s : State) : Res := .next (serveAtomic s p.packet p.ev)

/-- A remote signal: a 64-bit ADD to an aligned synchronisation object, under the replay cache. -/
def serveSignal (s : State) (p : Packet) : State :=
  match p.body with
  | .req off tag (.signal age amount) =>
    serveRequest s p off tag 8 false (fun s h =>
      if regionOf s off = .sync ∧ off % 8 = 0 then
        sequenced s h p tag age (fun s => (syncAdd s ((off - syncBase) / 8) amount, 0, 0, []))
      else replyTo (if regionOf s off = .reserved then countAddrError s off else s) h p tag fabAddress 0 [])
  | _ => s

/-- REMOTE_SIGNAL_REQUEST (R276, R284). -/
def execRemoteSignalRequest (p : Packet) (s : State) : Res := .next (serveSignal s p)

/-! ### Replies (R279, R280) -/

/-- A reply: it ends its request, or is late; Echo narrows the window towards its sender. A collective echo does the
latter only (R263, R264). -/
def takeReply (s : State) (p : Packet) : State :=
  match p.body with
  | .rep tag status mask data =>
    let s := takeEjected s p
    match s.outst.find? (fun (o : Outst) => o.tag == tag) with
    | none => objInc s Obj.lateReplies
    | some o =>
      let s := if p.echo then echoFrom s o.half .request o.dest else s
      answer s o status mask data
  | .collEcho id => echoFrom (takeEjected s p) (if id % 2 = 0 then .w else .e) .coll p.src
  | _ => s

/-- FABRIC_REPLY_RECEIVE (R279, R280). -/
def execFabricReplyReceive (p : Packet) (s : State) : Res := .next (takeReply s p)

/-- How a request ends without a reply: a load or store as timeout, an atomic or signal as outcome-unknown (R280). -/
def lateStatus (o : Outst) : Nat :=
  match o.who with
  | .stream _ _ _ => fabTimeout
  | .scan _ | .tail _ _ => fabUnknown

/-- A request without a reply after ReplyTimeoutUs (R280). -/
def replyLate (s : State) (tag : Nat) : State :=
  match s.outst.find? (fun (o : Outst) => o.tag == tag) with
  | some o =>
    if o.since + us (objGet s Obj.replyTimeoutUs) ≤ s.now then answer (objInc s Obj.fabReplyTimeouts) o (lateStatus o) 15 [] else s
  | none => s

/-- REPLY_TIMEOUT (R280). -/
def execReplyTimeout (tag : Nat) (s : State) : Res := .next (replyLate s tag)

/-! ### Send windows (R271, R273) -/

/-- Whether an entry of Table FAB-2 has a reserved bit set. -/
def winReserved (w0 w1 w2 w3 : Nat) : Bool :=
  w0 / 2 ^ 33 != 0 || w1 / 2 ^ 44 != 0 || w2 / 2 ^ 45 != 0 || w3 / 2 ^ 45 != 0

/-- The window that an entry spells. -/
def winOf (w0 w1 w2 w3 : Nat) : Window :=
  { chipLo := w0 % 2 ^ 14, chipHi := w0 / 2 ^ 14 % 2 ^ 14, read := natBit 29 w0, write := natBit 30 w0, atomic := natBit 31 w0
    cacheOk := natBit 32 w0, base := w1 % 2 ^ 44, size := w2 % 2 ^ 45, disp := signedOf 45 w3 }

/-- Whether an entry without reserved bits is invalid under R273. -/
def winInvalid (w0 : Nat) (w : Window) : Bool :=
  !natBit 28 w0 || w.base % 4096 != 0 || w.size % 4096 != 0 || w.size == 0 || decide (2 ^ 44 < w.size) || decide (w.chipHi < w.chipLo)

/-- The refusal of the entry in arguments i to i + 3, if any. -/
def winRefusal (s : State) (i : Nat) : Option Nat :=
  let w0 := mbxArg s i
  if winReserved w0 (mbxArg s (i + 1)) (mbxArg s (i + 2)) (mbxArg s (i + 3)) then some 0x01
  else if winInvalid w0 (winOf w0 (mbxArg s (i + 1)) (mbxArg s (i + 2)) (mbxArg s (i + 3))) then some 0x03
  else none

/-- The window in arguments i to i + 3. -/
def winArg (s : State) (i : Nat) : Window := winOf (mbxArg s i) (mbxArg s (i + 1)) (mbxArg s (i + 2)) (mbxArg s (i + 3))

/-- The lowest free index. -/
def freeWindow (s : State) : Option Nat := (List.range 4096).find? (fun i => (smGet s.windows i).isNone)

/-- WindowOpen (R273). -/
def openWindow (s : State) : State :=
  match winRefusal s 0 with
  | some st => mbxEnd s st
  | none =>
    match freeWindow s with
    | none => mbxEnd s 0x25
    | some i => mbxEnd (mbxResult { s with windows := smSet s.windows i (winArg s 0) } 0 i) 0

/-- WINDOW_OPEN (R273). -/
def execWindowOpen (s : State) : Res := .next (mbxRun s 0x0010 openWindow)

/-- WindowModify (R273). -/
def modifyWindow (s : State) : State :=
  match winRefusal s 1 with
  | some st => mbxEnd s st
  | none =>
    if (smGet s.windows (mbxArg s 0)).isNone then mbxEnd s 0x03
    else mbxEnd { s with windows := smSet s.windows (mbxArg s 0) (winArg s 1) } 0

/-- WINDOW_MODIFY (R273). -/
def execWindowModify (s : State) : Res := .next (mbxRun s 0x0011 modifyWindow)

/-- WindowClose (R273). -/
def closeWindow (s : State) : State :=
  if (smGet s.windows (mbxArg s 0)).isNone then mbxEnd s 0x03
  else mbxEnd { s with windows := smErase s.windows (mbxArg s 0) } 0

/-- WINDOW_CLOSE (R273). -/
def execWindowClose (s : State) : Res := .next (mbxRun s 0x0012 closeWindow)

/-! ### Expiry and writeback (R282, R285) -/

/-- An entry that has lived 4 ms is evicted. -/
def expireReplay (s : State) (h : Half) (src seq : Nat) : State :=
  match replayFind s h src seq with
  | some x => if 4000 ≤ replayAge s x then evictReplay s x else s
  | none => s

/-- REPLAY_ENTRY_EXPIRE (R282). -/
def execReplayEntryExpire (half : Half) (src seq : Nat) (s : State) : Res := .next (expireReplay s half src seq)

/-- A held word that no operation has reached for 100 ns leaves the unit; memory already holds it (R285). -/
def atomWriteBack (s : State) (addr : Nat) : State :=
  { s with atoms := s.atoms.filter (fun (x : HeldWord) => !(x.addr == addr && decide (x.last + 100 ≤ s.now))) }

/-- ATOMIC_UNIT_WRITEBACK (R285). -/
def execAtomicUnitWriteback (addr : Nat) (s : State) : Res := .next (atomWriteBack s addr)

/-! ### The remote read cache (R287 to R289) -/

/-- Whether an invalidate descriptor's range holds a granule of a chip. -/
def rciHits (ws : List Word64) (c g : Nat) : Bool :=
  rciAll ws || (decide (rciChipLo ws ≤ c) && decide (c ≤ rciChipHi ws) && decide (rciOffLo ws < 256 * g + 256)
    && decide (256 * g ≤ rciOffHi ws))

/-- One half invalidates the entries in the range, and fills still coming for them are discarded. -/
def rciHalf (s : State) (ws : List Word64) (h : Half) : State :=
  { s with
    rcache := s.rcache.filter (fun (x : CacheLine) => !(x.half == h && rciHits ws x.chip x.granule))
    outst := s.outst.map (fun (o : Outst) => if o.half = h ∧ rciHits ws o.dest (o.off / 256) then { o with fillOk := false } else o) }

/-- The descriptor executed by every serving half: rejected, or invalidated with one record and one signal. -/
def rciRun (q : Nat) (s : State) (f : Fetched) : State :=
  let halves := halvesOf s q
  let s := updQ s q (fun x => { x with outstanding := x.outstanding + 1 })
  match rciReject f.words with
  | some st => rejectDesc s { queue := q, seq := f.seq, words := f.words, inLayer := f.inLayer } st 127
  | none =>
    let s := if serves halves .w then rciHalf s f.words .w else s
    let s := if serves halves .e then rciHalf s f.words .e else s
    completeDesc (objInc s Obj.rCacheInvalidations)
      { queue := q, seq := f.seq, words := f.words, inLayer := f.inLayer, status := 0, op := 0x42, engine := 127,
        summary := 0, body := List.replicate 6 0 }

/-- RCACHE_INVALIDATE (R289). -/
def execRcacheInvalidate (q : Nat) (s : State) : Res := .next (runTogether schedReady s q 0x42 (rciRun q))

end Sys2Proof.Machine
end

