-- ==== Sys2Proof/Machine/HostPort.lean ====
section
/-!
DEFINITION. The host port (15): registers of BAR0, the data port, BAR2, CXL.mem and its snoop filter, ATS, page responses,
resets of the host-facing state, and link training.
-/

namespace Sys2Proof.Machine

/-- A function applied to the host port. -/
def updHost (s : State) (f : HostPort → HostPort) : State := { s with host := f s.host }

/-! ### Configuration (R311, R313) -/

/-- Whether configuration requests are answered with retry status: before Ready or a failed end state, and within 100 ms of a
host-facing reset (R313, R328). -/
def cfgRetry (s : State) : Bool :=
  !(1 ≤ objGet s Obj.moduleState && objGet s Obj.moduleState ≤ 4)
    || (match s.host.resetSince with
        | some t => decide (s.now < t + ms 100)
        | none => false)

/-- A configuration dword (R311); what the spec does not state is a free value. -/
def cfgDword (s : State) (reg : Nat) : Nat :=
  if reg = 0x00 then 0x0D201FD7
  else if reg = 0x08 then 0x12000000 + (freeNow s).toNat % 256
  else if reg = 0x2C then 0x00011FD7
  else (freeNow s).toNat % 2 ^ 32

/-- Pending vectors that are unmasked are sent while MSI-X is enabled (R316). -/
def sendPending (s : State) : State :=
  if !s.host.msixEnable then s
  else
    let go := s.host.msixPend.filter (nsHas s.host.msixOpen)
    go.foldl (fun s v => emit (updHost s (fun h => { h with msixPend := nsDel h.msixPend v })) (.msix v)) s

/-- A configuration request that is answered. -/
def config (s : State) : ConfigOp → State
  | .read reg => emit (freeStep s) (.config (some (cfgDword s reg)))
  | .msixEnable on => emit (sendPending (updHost s (fun h => { h with msixEnable := on }))) (.config (some 0))
  | .atsEnable on => emit (updHost s (fun h => { h with atsEnable := on, ats := if on then h.ats else [] })) (.config (some 0))

/-- CONFIG_REQUEST (R313). -/
def execConfigRequest (c : ConfigOp) (s : State) : Res := .next (if cfgRetry s then emit s (.config none) else config s c)

/-- The mailbox commands of Table HPT-5. -/
def mbxCommands : List Nat := [0x0001, 0x0002, 0x0003, 0x0004, 0x0010, 0x0011, 0x0012, 0x0020]

/-- MAILBOX_UNKNOWN_COMMAND (R318). -/
def execMailboxUnknownCommand (s : State) : Res :=
  .next (if s.host.busy && !mbxCommands.contains s.host.running then mbxEnd s 0x02 else s)

/-- MSIX_UNMASK (R316): a vector's mask cleared, or the function's enable set. -/
def execMsixUnmask (vector : Option Nat) (s : State) : Res :=
  match vector with
  | some v => need (decide (v < 2048)) (sendPending (updHost s (fun h => { h with msixOpen := nsAdd h.msixOpen v })))
  | none => .next (sendPending (updHost s (fun h => { h with msixEnable := true })))

/-! ### Registers of BAR0 (R314, R317, R320) -/

/-- HPT_STATUS (Table HPT-3). -/
def hptStatus (s : State) : Nat :=
  let m := objGet s Obj.moduleState
  s.host.gen % 8 + s.host.width % 32 * 8 + boolNat (m == 1) * 256 + boolNat (m == 4) * 512 + boolNat (m == 2) * 1024
    + boolNat (m == 3) * 2048

/-- The number of a run of payload bytes. -/
def payloadNum (s : State) (first n : Nat) : Nat := leNat ((List.range n).map (fun i => smGetD s.host.payload (first + i) 0))

/-- The 64-bit register at an aligned BAR0 offset as it reads (Table HPT-2); reserved offsets read 0. -/
def bar0Read (s : State) (off : Nat) : Nat :=
  let h := s.host
  if off < 0x400000 then pageReg s (off / 0x1000) (off % 0x1000)
  else if off = 0x400000 then h.command % 2 ^ 16 + h.tag % 2 ^ 16 * 2 ^ 16
  else if off = 0x400008 then boolNat h.busy + 2 * boolNat h.done + h.status % 256 * 2 ^ 8 + h.tagEcho % 2 ^ 16 * 2 ^ 16
  else if off = 0x400010 then h.vector % 2048 + 2048 * boolNat h.irqEn
  else if 0x400040 ≤ off ∧ off < 0x400080 then (h.args.getD ((off - 0x400040) / 8) 0).toNat
  else if 0x400080 ≤ off ∧ off < 0x4000C0 then (h.results.getD ((off - 0x400080) / 8) 0).toNat
  else if 0x400100 ≤ off ∧ off < 0x401000 then payloadNum s (off - 0x400100) 8
  else if off = 0x401000 then h.dpAddr
  else if off = 0x401008 then boolNat h.autoInc + 2 * boolNat h.domain
  else if off = 0x401010 then boolNat h.addrError + 2 * boolNat h.poisonRead
  else if 0x410000 ≤ off ∧ off < 0x418000 then
    smGetD h.msixTable ((off - 0x410000) / 4) 0 + smGetD h.msixTable ((off - 0x410000) / 4 + 1) 0 * 2 ^ 32
  else if 0x418000 ≤ off ∧ off < 0x418100 then
    (List.range 64).foldl (fun a i => a + boolNat (nsHas h.msixPend ((off - 0x418000) * 8 + i)) * 2 ^ i) 0
  else if off = 0x420000 then hptStatus s
  else 0

/-- A 64-bit value with `size` bytes from byte `at_` replaced. -/
def mergeBytes (old at_ size v : Nat) : Nat :=
  old % 256 ^ at_ + v % 256 ^ size * 256 ^ at_ + old / 256 ^ (at_ + size) * 256 ^ (at_ + size)

/-- Go (R319): the running command with its arguments as they stand, or ignored while Busy. -/
def startCommand (s : State) : State :=
  if s.host.busy then objInc s Obj.mbxIgnored
  else updHost s (fun h =>
    { h with busy := true, done := false, running := h.command, runTag := h.tag, runArgs := h.args, runPayload := h.payload })

/-- A write of the mailbox (Table HPT-4). -/
def mbxWrite (s : State) (off at_ size v : Nat) : State :=
  let new := mergeBytes (bar0Read s off) at_ size v % 2 ^ 64
  let set := mergeBytes 0 at_ size v
  if off = 0x400000 then
    let s := updHost s (fun h => { h with command := new % 2 ^ 16, tag := new / 2 ^ 16 % 2 ^ 16 })
    if natBit 32 set then startCommand s else s
  else if off = 0x400008 then updHost s (fun h => { h with done := h.done && !natBit 1 set })
  else if off = 0x400010 then updHost s (fun h => { h with vector := new % 2048, irqEn := natBit 11 new })
  else if 0x400040 ≤ off ∧ off < 0x400080 then
    updHost s (fun h => { h with args := h.args.set ((off - 0x400040) / 8) (BitVec.ofNat 64 new) })
  else if 0x400100 ≤ off then
    updHost s (fun h => { h with payload := putPayload h.payload (off - 0x400100 + at_) (natLe size v) })
  else s

/-- A write of the data port's registers (Table HPT-7). -/
def dpWrite (s : State) (off at_ size v : Nat) : State :=
  let new := mergeBytes (bar0Read s off) at_ size v % 2 ^ 64
  let set := mergeBytes 0 at_ size v
  if off = 0x401000 then updHost s (fun h => { h with dpAddr := new / 64 * 64 })
  else if off = 0x401008 then updHost s (fun h => { h with autoInc := natBit 0 new, domain := natBit 1 new })
  else if off = 0x401010 then
    updHost s (fun h => { h with addrError := h.addrError && !natBit 0 set, poisonRead := h.poisonRead && !natBit 1 set })
  else s

/-- A write of the MSI-X table: bit 0 of a vector's fourth dword masks it. -/
def msixWrite (s : State) (dword v : Nat) : State :=
  let s := updHost s (fun h => { h with msixTable := smSet h.msixTable dword (v % 2 ^ 32) })
  if dword % 4 = 3 then sendPending (updHost s (fun h => { h with msixOpen := nsPut h.msixOpen (dword / 4) (!natBit 0 v) })) else s

/-- A control page write of 8 bytes, or of bytes 0 to 3, of an aligned word; any other is ignored (R451). -/
def bar0Page (s : State) (off size v : Nat) : State :=
  if off % 8 = 0 ∧ size = 8 then hostPage s (off / 0x1000) (off % 0x1000) (v % 2 ^ 64)
  else if off % 8 = 0 ∧ size = 4 then hostPage s (off / 0x1000) (off % 0x1000) (v % 2 ^ 32)
  else s

/-! ### The data port (R320, R344) -/

/-- The Host transfer of an object that the data port serves. -/
def hostXfer (s : State) (key : Nat) : Option Xfer := s.mgmt.xfers.find? (fun (x : Xfer) => x.byHost && x.key == key)

/-- A function applied to a transfer. -/
def updXfer (s : State) (handle : Nat) (f : Xfer → Xfer) : State :=
  { s with mgmt := { s.mgmt with xfers := s.mgmt.xfers.map (fun (x : Xfer) => if x.handle = handle then f x else x) } }

/-- The image of a transfer with bytes put at an offset. -/
def putImage (m : SMap Byte) (off : Nat) : Bytes → SMap Byte
  | [] => m
  | b :: r => putImage (smSet m off b) (off + 1) r

/-- Whether a segment of a FirmwareBank transfer comes in its place: in increasing offset without gaps (R388). -/
def inOrder (x : Xfer) (off : Nat) : Bool := x.key != Obj.firmwareBank || off == x.got

/-- A segment written to a transfer: bytes beyond the declared size are not applied. Outside recovery a firmware image is staged
in slices T00–T07 (R388). -/
def writeSegment (s : State) (x : Xfer) (off : Nat) (data : Bytes) : State :=
  let inside := data.take (x.size - off)
  let s := if x.key = Obj.firmwareBank ∧ !s.seqs.recovery then writeBytes s (tileBase + off) inside false else s
  updXfer s x.handle (fun x =>
    { x with image := putImage x.image off inside, got := if inside.isEmpty then x.got else max x.got (off + inside.length), last := s.now })

/-- A segment of a read transfer's snapshot: fewer bytes where the image ends before. -/
def readSegment (x : Xfer) (off n : Nat) : Bytes :=
  (List.range (min n (x.size - off))).map (fun i => smGetD x.image (off + i) 0)

/-- The object and byte offset that HPT_DP_ADDR names with Domain 1. -/
def dpKey (a : Nat) : Nat := a / 2 ^ 40 % 2 ^ 24
def dpOff (a : Nat) : Nat := a % 2 ^ 40

/-- AddrError set. -/
def addrErr (s : State) : State := updHost s (fun h => { h with addrError := true })

/-- The address advanced by an access that includes byte 63 (R320). -/
def dpAdvance (s : State) (first n : Nat) : State :=
  if s.host.autoInc ∧ 64 ≤ first + n then updHost s (fun h => { h with dpAddr := (h.dpAddr + 64) % 2 ^ 64 }) else s

/-- Whether the data port serves DOMAIN transfers, and local addresses (Table MOD-7, R328). -/
def dpDomainOk (s : State) : Bool := 1 ≤ objGet s Obj.moduleState && objGet s Obj.moduleState ≤ 3
def dpLocalOk (s : State) : Bool := isReady s

/-- Whether a Local line is a tracked LPDDR line. -/
def dpTracked (s : State) (off : Nat) : Bool := off < lpddrSize && tracked s (off / 64)

/-- Bytes written at a Local line. -/
def dpPut (s : State) (off first : Nat) (data : Bytes) (poison : Bool) : State :=
  localPut s off (maskFrom first data.length) (List.replicate first 0 ++ data) poison

/-- Bytes read from a Local line; `ev` is what the read finds. -/
def dpGet (s : State) (off first n : Nat) (ev : List LineEvent) : State :=
  let s := linesFound s [off] ev
  let g := localGet s off (off + first) n
  let s := emit (afterRead s (off / 256 * 256) 256) (.busData ((g.bytes.drop first).take n) g.poison)
  if g.poison then updHost s (fun h => { h with poisonRead := true }) else s

/-! ### Accesses to this module's memory (R176, R326 to R328) -/

/-- Entries of a half's snoop filter. -/
def snoopSize : Nat := 2097152

/-- The lines of a half's filter set. -/
def setSnoop (s : State) (h : Half) (ls : List Nat) : State :=
  match h with
  | .w => updHost s (fun p => { p with snoopW := ls })
  | .e => updHost s (fun p => { p with snoopE := ls })

/-- A host request makes its line the most recently used of its half's filter; a full filter first evicts the least recently
used by BISnpInv. Only under CXL 3.1. -/
def track (s : State) (line : Nat) : State :=
  if s.host.gen ≠ 1 then s
  else
    let h := halfOf64 (channelOf s (64 * line))
    let ls := snoopOf s h
    if ls.contains line then setSnoop s h (ls.erase line ++ [line])
    else if ls.length < snoopSize then setSnoop s h (ls ++ [line])
    else
      match ls with
      | old :: r => setSnoop (emit s (.backInvalidate old false)) h (r ++ [line])
      | [] => s

/-- Data left open that a read is answered with, poisoned (log entry 3). -/
def openData (s : State) (n : Nat) : State :=
  emit { s with free := s.free + ceilDiv n 8 } (.busData ((List.range n).map (freeByteAt s)) true)

/-- What a host access does once nothing holds it. Outside Ready, to which a failed channel has brought the module, a waiting read
ends poisoned and a waiting write is not made (R179, R328). -/
def serveHost (s : State) (w : PortWait) : State :=
  match w with
  | .dataPort line (some (data, poison)) first _ _ => if isReady s then dpPut s (64 * line) first data poison else s
  | .dataPort line none first n ev =>
    if isReady s then dpGet s (64 * line) first n ev else updHost (openData s n) (fun h => { h with poisonRead := true })
  | .cxlRead line ev =>
    if isReady s then
      let s := linesFound s [64 * line] ev
      let d := readLine s (64 * line)
      emit (track (afterRead s (64 * line) 64) line) (.busData d.bytes d.poison)
    else openData s 64
  | .cxlWrite line mask data poison =>
    if isReady s then track (writeLine s (64 * line) mask data poison) line
    else if objGet s Obj.moduleState = 4 then objInc s Obj.cxlMemDropped
    else s
  | .bar2 off (.read k ev) =>
    if isReady s then
      let s := linesFound s (linesOf off k) ev
      emit (afterRead s off k) (.busData (readBytes s off k) (runPoison s off k))
    else openData s k
  | .bar2 off (.write bs p) => if isReady s then writeBytes s off bs p else s

/-- The line, if any, whose Dim channel keeps a host access waiting: a read's, or a write's that finds no room (R168, R176). -/
def heldLine (s : State) (w : PortWait) : Option Nat :=
  let noRoom (off n : Nat) : Option Nat := (linesOf off n).find? (fun l => !writeRoom s l)
  match w with
  | .dataPort line none _ _ _ => dimLine s (64 * line) 64
  | .dataPort line (some _) _ _ _ => noRoom (64 * line) 64
  | .cxlRead line _ => dimLine s (64 * line) 64
  | .cxlWrite line _ _ _ => noRoom (64 * line) 64
  | .bar2 off (.read k _) => dimLine s off k
  | .bar2 off (.write bs _) => noRoom off bs.length

/-- Whether a data port access waits for a back-invalidation's response (R327). -/
def snoopHeld (s : State) (w : PortWait) : Bool :=
  match w with
  | .dataPort line _ _ _ _ => snoopWaits s [line]
  | _ => false

/-- An access put among those that wait. -/
def parkHost (s : State) (w : PortWait) : State := updHost s (fun h => { h with waits := h.waits ++ [w] })

/-- A host access: served, or waiting for a Dim channel and counted (R176). -/
def hostAccess (s : State) (w : PortWait) : State :=
  match heldLine s w with
  | some _ => parkHost (objInc s Obj.memDimStalledRequests) w
  | none => serveHost s w

/-- The waiting accesses examined in their order: those that nothing holds any more go on. -/
def hostSettle (s : State) : State :=
  s.host.waits.foldl (fun s w =>
    if snoopHeld s w || (isReady s && (heldLine s w).isSome) then parkHost s w else serveHost s w)
    (updHost s (fun h => { h with waits := [] }))

/-- A data port access: one whose line the host may cache waits for a back-invalidation first (R327). -/
def portAccess (s : State) (off : Nat) (write : Option (Bytes × Bool)) (first n : Nat) (ev : List LineEvent) : State :=
  let w := PortWait.dataPort (off / 64) write first n ev
  if dpTracked s off then parkHost (backInvalidate s write.isNone [off / 64]) w else hostAccess s w

/-- A write into HPT_DP_DATA. -/
def dataWrite (s : State) (first : Nat) (data : Bytes) (poison : Bool) : State :=
  let a := s.host.dpAddr
  let n := data.length
  if n = 0 ∨ 64 < first + n then s
  else if s.host.domain then
    match hostXfer s (dpKey a) with
    | some x =>
      if !dpDomainOk s || !x.write || decide (x.size ≤ dpOff a + first) || !inOrder x (dpOff a + first) then addrErr s
      else
        let s := writeSegment s x (dpOff a + first) data
        if dpOff a + first + n ≤ x.size then dpAdvance s first n else addrErr s
    | none => addrErr s
  else
    match spaceOf a with
    | .localOff off =>
      if !dpLocalOk s then addrErr s
      else if !localPutOk s off (maskFrom first n) then addrErr (countReserved s [off])
      else dpAdvance (portAccess s off (some (data, poison)) first n []) first n
    | _ => addrErr s

/-- A read of HPT_DP_DATA; one that is not applied returns 0. `ev` is what it finds in this module's memory. -/
def dataRead (s : State) (first n : Nat) (ev : List LineEvent) : State :=
  let a := s.host.dpAddr
  let zero := fun (s : State) => emit (addrErr s) (.busData (List.replicate n 0) false)
  if n = 0 ∨ 64 < first + n then s
  else if s.host.domain then
    match hostXfer s (dpKey a) with
    | some x =>
      if !dpDomainOk s || x.write || decide (x.size ≤ dpOff a + first) then zero s
      else
        let s := updXfer s x.handle (fun x => { x with last := s.now })
        dpAdvance (emit s (.busData (padTo n (readSegment x (dpOff a + first) n)) false)) first n
    | none => zero s
  else
    match spaceOf a with
    | .localOff off =>
      if !dpLocalOk s then zero s
      else if (localGet s off (off + first) n).cause = 6 then zero (countReserved s [off])
      else dpAdvance (portAccess s off none first n ev) first n
    | _ => zero s

/-- DATA_PORT_WRITE (R320). -/
def execDataPortWrite (first : Nat) (bytes : Bytes) (poison : Bool) (s : State) : Res := .next (dataWrite s first bytes poison)

/-- DATA_PORT_READ (R320). -/
def execDataPortRead (first : Nat) (r : PortRead) (s : State) : Res := .next (dataRead s first r.count r.ev)

/-- A write of `size` bytes at a BAR0 offset, within one aligned 8-B word. -/
def bar0Write (s : State) (off size v : Nat) : State :=
  let w := off / 8 * 8
  let at_ := off % 8
  if size = 0 ∨ 8 < at_ + size then s
  else if off < 0x400000 then bar0Page s off size v
  else if off < 0x401000 then mbxWrite s w at_ size v
  else if 0x401040 ≤ off ∧ off < 0x401080 then dataWrite s (off - 0x401040) (natLe size v) false
  else if off < 0x402000 then dpWrite s w at_ size v
  else if 0x410000 ≤ off ∧ off < 0x418000 then
    if at_ = 0 ∧ size = 8 then msixWrite (msixWrite s ((off - 0x410000) / 4) v) ((off - 0x410000) / 4 + 1) (v / 2 ^ 32)
    else if at_ % 4 = 0 ∧ size = 4 then msixWrite s ((off - 0x410000) / 4) v
    else s
  else s

/-- REGISTER_WRITE (R314, R317, R320, R451). -/
def execRegisterWrite (offset size value : Nat) (s : State) : Res := .next (bar0Write s offset size value)

/-! ### BAR2 (R321) -/

/-- A host access through BAR2. A reserved offset is not applied: a read is answered poisoned, its bytes left open (R18; log
entry 3). -/
def bar2 (s : State) (off : Nat) (a : HostAccess) : State :=
  let n := match a with
    | .read k _ => k
    | .write bs _ => bs.length
  let o := s.host.bar2Base + off
  if !isReady s || n = 0 || decide (s.host.bar2GiB * 2 ^ 30 < off + n) then s
  else if !plainRun s o n then
    match a with
    | .read k _ => openData (countAddrError s o) k
    | .write _ _ => countAddrError s o
  else hostAccess s (.bar2 o a)

/-- BAR2_ACCESS (R321). -/
def execBar2Access (offset : Nat) (a : HostAccess) (s : State) : Res := .next (bar2 s offset a)

/-! ### Snoops, ATS, page responses (R323 to R325) -/

/-- HOST_SNOOP (R323): the module never holds a host line. -/
def execHostSnoop (addr : Nat) (s : State) : Res := .next (emit s (.snoopMiss addr))

/-- ATS_INVALIDATION (R324): the entry is dropped, and the answer comes once no request that used it is left. `pasid` is the
PASID plus 1, or 0 without one. -/
def execAtsInvalidation (pasid page : Nat) (s : State) : Res :=
  .next (atsSettle (updHost s (fun h =>
    { h with ats := h.ats.filter (fun k => k != (pasid, page)), atsWait := h.atsWait ++ [(pasid, page)] })))

/-- PAGE_RESPONSE (R325): it answers exactly one page request. `pasid` is the PASID plus 1, or 0 without one. -/
def execPageResponse (pasid page : Nat) (s : State) : Res :=
  .next (updHost s (fun h => { h with pageReqs := h.pageReqs.erase (pasid, page) }))

/-! ### CXL.mem (R326 to R328) -/

/-- Whether a line lies in the region that the port exposes. -/
def inRegion (s : State) (line : Nat) : Bool := decide (64 * line + 64 ≤ s.host.cxlGiB * 2 ^ 30) && decide (1 ≤ s.host.gen ∧ s.host.gen ≤ 3)

/-- CXL_MEM_READ (R326, R328): poisoned outside Ready, where the data is left open. -/
def execCxlMemRead (x : LineEvent) (s : State) : Res :=
  .next (if !inRegion s x.line then s else if isReady s then hostAccess s (.cxlRead x.line [x]) else openData s 64)

/-- CXL_MEM_WRITE (R326, R328): dropped outside Ready, and counted during a warm restart. -/
def execCxlMemWrite (line mask : Nat) (data : Bytes) (poison : Bool) (s : State) : Res :=
  .next
    (if !inRegion s line then s
     else if isReady s then hostAccess s (.cxlWrite line (mask % 2 ^ 64) (padTo 64 data) poison)
     else if objGet s Obj.moduleState = 4 then objInc s Obj.cxlMemDropped
     else s)

/-- Records that wait go on where their slots allow (R188, R327). -/
def drainAll (s : State) : State :=
  s.queues.foldl (fun s e => drainRing s e.1 e.2.waitRing.length) s

/-- A back-invalidation is answered: the host holds the line no more, and waiting accesses proceed. -/
def bisnpAnswered (s : State) (line : Nat) : State :=
  if !s.host.bisnp.any (fun b => b.1 == line) then s
  else
    drainAll (hostSettle (updHost s (fun h =>
      { h with bisnp := h.bisnp.filter (fun b => b.1 != line), snoopW := h.snoopW.erase line, snoopE := h.snoopE.erase line })))

/-- BISNP_RESPONSE (R327). -/
def execBisnpResponse (line : Nat) (s : State) : Res := .next (bisnpAnswered s line)

/-- Whether a waiting access is the data port's at a line. -/
def portOf (line : Nat) (w : PortWait) : Bool :=
  match w with
  | .dataPort l _ _ _ _ => l == line
  | _ => false

/-- A data port access whose back-invalidation went unanswered is not applied. -/
def dpFailed (s : State) (w : PortWait) : State :=
  match w with
  | .dataPort _ none _ n _ => emit (addrErr s) (.busData (List.replicate n 0) false)
  | _ => addrErr s

/-- A back-invalidation without an answer for 1 ms: the waiting access ends as cause 3, and the line keeps its tracking;
a record's slot is asked for again (log entry 25). -/
def bisnpLate (s : State) (line : Nat) : State :=
  if !s.host.bisnp.any (fun b => b.1 == line && decide (b.2 + ms 1 ≤ s.now)) then s
  else
    drainAll ((s.host.waits.filter (portOf line)).foldl dpFailed (objInc (updHost s (fun h =>
      { h with bisnp := h.bisnp.filter (fun b => b.1 != line), bisnpBad := h.bisnpBad.filter (· != line) ++ [line]
               waits := h.waits.filter (fun w => !portOf line w) })) Obj.bISnpTimeouts))

/-- BISNP_TIMEOUT (R327). -/
def execBisnpTimeout (line : Nat) (s : State) : Res := .next (bisnpLate s line)

/-! ### Host-facing resets (R328) -/

/-- Requests on their way to host memory: reads of it, and writes of it. -/
def hostReqs (s : State) : List (Nat × StreamCtx × Req) :=
  (List.range 72).flatMap (fun e => (engineCtx s e).flatMap (fun (c : StreamCtx) =>
    (c.reqs.filter (fun (r : Req) => !(reqPages s c r).isEmpty)).map (fun (r : Req) => (e, c, r))))

/-- Those requests end as fault cause 3. -/
def failHostReqs (s : State) : State :=
  (hostReqs s).foldl (fun s x =>
    match findCtx s x.1 x.2.1.d.queue x.2.1.d.seq with
    | some c => if c.reqs.any (fun (r : Req) => r.id == x.2.2.id) then finishReq s x.1 c x.2.2 (.fail 3 15) else s
    | none => s) s

/-- The collectives of the collective queue end as coll-cancelled. -/
def cancelColls (s : State) : State :=
  (s.colls.map Coll.id).foldl (fun s id =>
    match collOf s id with
    | some x => endColl s x 0x42
    | none => s) s

/-- Steps 1 to 3 of R328 but for the queues' destruction, which waits for Outstanding to be 0. -/
def hostReset (s : State) : State :=
  let s := cancelColls ((smKeys s.queues).foldl abortQueue s)
  let s := atsSettle (failHostReqs s)
  let s := hostSettle (updHost { s with windows := [] } (fun h => { h with bisnp := [], bisnpBad := [] }))
  updHost s (fun h => { h with snoopW := [], snoopE := [], resetting := true, resetSince := some s.now })

/-- The link is down: no generation and no width. -/
def linkGone (s : State) : State := objPut (updHost s (fun h => { h with gen := 0, width := 0 })) Obj.hostLinkGen 0

/-- PERST_N_ASSERT (R328). -/
def execPerstNAssert (s : State) : Res := .next (updHost (linkGone (hostReset s)) (fun h => { h with perst := true }))

/-- HOT_RESET (R328). -/
def execHotReset (s : State) : Res := .next (linkGone (hostReset s))

/-- HOST_LINK_DOWN (R328). -/
def execHostLinkDown (s : State) : Res := .next (linkGone (hostReset s))

/-- FUNCTION_LEVEL_RESET (R328). -/
def execFunctionLevelReset (s : State) : Res := .next (hostReset s)

/-- A queue destroyed by a host-facing reset: records still waiting for ring space are dropped and counted in the
journal. -/
def destroyQueue (s : State) (q : Nat) : State :=
  match smGet s.queues q with
  | some v =>
    let s := if v.waitRing.isEmpty then s else journal s .recordsDropped [q, v.waitRing.length]
    removeQueue s q
  | none => s

/-- The queues of a host-facing reset are destroyed once Outstanding is 0 in each. -/
def destroyAll (s : State) : State :=
  if !s.host.resetting || s.queues.any (fun e => e.2.outstanding != 0) then s
  else updHost ((smKeys s.queues).foldl destroyQueue s) (fun h => { h with resetting := false })

/-- HOST_QUEUES_DESTROY (R328). -/
def execHostQueuesDestroy (s : State) : Res := .next (destroyAll s)

/-- PERST_N_DEASSERT (R403, R328): the 100 ms of the reset run from here. -/
def execPerstNDeassert (refclk : Bool) (s : State) : Res :=
  .next (if s.host.perst then
      updHost s (fun h => { h with perst := false, refclk := refclk, resetSince := h.resetSince.map (fun _ => s.now) })
    else s)

/-- The link trains to a generation of Table HPT-3 and a width (R311, R312). -/
def linkTrained (s : State) (gen width : Nat) : State :=
  if s.host.perst || !s.host.refclk || decide (s.seqs.startStep < 5) || !(1 ≤ gen && gen ≤ 6) || !(width == 1 || width == 2 || width == 4 || width == 8 || width == 16) then s
  else objPut (updHost s (fun h => { h with gen := gen, width := width })) Obj.hostLinkGen gen

/-- HOST_LINK_TRAINED (R312). -/
def execHostLinkTrained (gen width : Nat) (s : State) : Res := .next (linkTrained s gen width)

end Sys2Proof.Machine
end

