-- ==== Sys2Proof/Machine/Links.lean ====
section
/-!
DEFINITION. The commands of the Kenxis links (11).
-/

namespace Sys2Proof.Machine

/-! ### Flits -/

/-- FLIT_RECEIVE (R233). -/
def execFlitReceive (inFibre line : Nat) (f : Flit) (s : State) : Res :=
  need (decide (inFibre < 32) && decide (line < 17)) (takeFlit s inFibre line f)

/-- Whether a flit has waited for its acknowledgement for the measured round trip plus 1 µs (R238). -/
def ackLate (s : State) (k : Nat) (u : Unacked) : Bool := decide (u.at_ + objGet s (Obj.linkRttNs + k) + us 1 ≤ s.now)

/-- A kept flit whose acknowledgement is late is sent again, and a missing flit of the other direction is requested. -/
def flitTimeout (s : State) (k seq : Nat) : State :=
  let s := nakMissing s k
  if (linkOf s k).nego != 0 && (linkOf s k).unacked.any (fun (u : Unacked) => u.seq == seq && ackLate s k u) then resendFlit s k seq
  else s

/-- FLIT_RESEND_TIMEOUT (R238). -/
def execFlitResendTimeout (link flitSeq : Nat) (s : State) : Res := need (decide (link < 64)) (flitTimeout s link flitSeq)

/-- A flit sent 16 times without acknowledgement makes its link Dark. -/
def retryLimit (s : State) (k seq : Nat) : State :=
  if (linkOf s k).nego != 0 && (linkOf s k).unacked.any (fun (u : Unacked) => u.seq == seq && decide (16 ≤ u.sends)) then
    noteTimes (goDark s k 2) k
  else s

/-- FLIT_RETRY_LIMIT (R240). -/
def execFlitRetryLimit (link flitSeq : Nat) (s : State) : Res := need (decide (link < 64)) (retryLimit s link flitSeq)

/-! ### Dark links (R243) -/

/-- A Dark link whose directions have held their minimum for 1 ms forms again. -/
def reform (s : State) (k : Nat) : State :=
  let l := linkOf s k
  match l.darkSince, l.okSince with
  | some _, some t => if l.bound && atMinimum s l && decide (t + ms 1 ≤ s.now) then startNego s k else s
  | _, _ => s

/-- LINK_REFORM (R243). -/
def execLinkReform (link : Nat) (s : State) : Res := need (decide (link < 64)) (reform s link)

/-- A Dark link with no lane in service for LinkRemoveMs is removed; a LaneDemand entry must light the next lane to its peer. -/
def removeDark (s : State) (k : Nat) : State :=
  let l := linkOf s k
  match l.darkSince, l.noneSince with
  | some _, some t =>
    if l.bound && decide (t + ms (objGet s Obj.linkRemoveMs) ≤ s.now) then
      removeLink { s with needDemand := if s.needDemand.contains l.peer then s.needDemand else s.needDemand ++ [l.peer] } k
    else s
  | _, _ => s

/-- LINK_REMOVE (R243). -/
def execLinkRemove (link : Nat) (s : State) : Res := need (decide (link < 64)) (removeDark s link)

/-! ### Lanes -/

/-- An in-lane in service whose errors have passed a threshold leaves it. -/
def removeForErrors (s : State) (k idx : Nat) : State :=
  match laneBy s k false idx with
  | some lane =>
    if laneUp lane && tooManyErrors lane then laneOut (objInc s Obj.laneErrorRemovals) k false lane 4 true else s
  | none => s

/-- LANE_ERROR_REMOVAL (R244). -/
def execLaneErrorRemoval (link lane : Nat) (s : State) : Res :=
  need (decide (link < 64) && decide (lane < 128)) (removeForErrors s link lane)

/-- Whether a new out-lane may be lit without a request: a line of a direct fibre, unless the last link to its chip was removed Dark
(R206, R225, R243). -/
def directOut (s : State) (x j : Nat) : Bool :=
  isDirect s x && lightable s x j && !s.needDemand.contains (specOf s x j).chip

/-- Whether a new in-lane may join: granted, or on a free line of a direct in-fibre (R227, R222, Table LNK-8). -/
def laneExpected (s : State) (k j : Nat) : Bool :=
  s.inGrant.contains (17 * k + j)
    || (directIn s k && inFree s ((smGetD s.inPeer (17 * k + j) (0, 0)).1) k j)

/-- Whether a lane out of service is one that a training returns: out for errors or for a rotor step, or an in-lane whose sender had
lost its light (R209, R218, R244). -/
def retrains (outgoing : Bool) (lane : Lane) : Bool := lane.why == 4 || lane.why == 5 || (lane.why == 3 && !outgoing)

/-- A lane's training has ended: it is admitted, refused for skew, or trained again (R237). The lane that a rotor step had removed
returns now (R218). -/
def trainingDone (s : State) (outgoing : Bool) (fibre line : Nat) (t : TrainResult) : State :=
  let r := ringAt outgoing fibre line
  if (smGet s.skewHold r).isSome || s.recovery.any (fun (x : Recovery) => x.ring == r) then s
  else
    let v := verdict s outgoing fibre line t
    match findLane s outgoing fibre line with
    | some (k, lane) =>
      if !retrains outgoing lane then s
      else
        let s := runTraining s outgoing fibre line t
        match v with
        | .admitted => returnLane (objPut (lockRing s outgoing fibre line) (Obj.linkRttNs + k) t.rttNs) k outgoing lane
        | .skewed => refuseSkew s outgoing fibre line
        | .failed => failTraining s outgoing fibre line
    | none =>
      if !(if outgoing then directOut s fibre line else laneExpected s fibre line) then s
      else
        let s := runTraining s outgoing fibre line t
        match v with
        | .admitted => admitNew s outgoing fibre line t
        | .skewed => refuseSkew s outgoing fibre line
        | .failed => failTraining s outgoing fibre line

/-- LANE_TRAINING_DONE (R237). -/
def execLaneTrainingDone (outgoing : Bool) (fibre line : Nat) (t : TrainResult) (s : State) : Res :=
  need (decide (fibre < 32) && decide (line < 17)) (trainingDone s outgoing fibre line t)

/-- The hold of a line refused for skew ends after 1 s. -/
def skewHoldEnd (s : State) (outgoing : Bool) (fibre line : Nat) : State :=
  let r := if outgoing then modRing fibre line else dropRing fibre line
  match smGet s.skewHold r with
  | some t => if t ≤ s.now then { s with skewHold := smErase s.skewHold r } else s
  | none => s

/-- LANE_SKEW_HOLD_END (R237). -/
def execLaneSkewHoldEnd (outgoing : Bool) (fibre line : Nat) (s : State) : Res :=
  need (decide (fibre < 32) && decide (line < 17)) (skewHoldEnd s outgoing fibre line)

/-! ### Control flits (Table LNK-2) -/

/-- CAPABILITY (R246): from a peer that forms a link again which this end still holds formed, it comes after the link's new start
(R243). -/
def execCapability (link version caps epochProto : Nat) (s : State) : Res :=
  need (decide (link < 64))
    (takeCapability (if (linkOf s link).bound && (linkOf s link).nego == 3 then peerReforms s link else s) link version caps epochProto)

/-- CAPABILITY_ACK (R246). -/
def execCapabilityAck (link agreed : Nat) (s : State) : Res := need (decide (link < 64)) (takeCapabilityAck s link agreed)

/-- PROPOSE (R216). -/
def execPropose (link lane toLine : Nat) (copyOk : Bool) (s : State) : Res :=
  need (decide (link < 64)) (takePropose s link lane toLine copyOk)

/-- ACCEPT (R217). -/
def execAccept (link lane : Nat) (s : State) : Res := need (decide (link < 64)) (takeAccept s link lane)

/-- ROTOR_ABORT (R220). -/
def execRotorAbort (link : Nat) (lane : LaneRef) (s : State) : Res := need (decide (link < 64)) (takeAbort s link lane)

/-- LANE_DOWN (R222). -/
def execLaneDown (link : Nat) (lane : LaneRef) (cause : Nat) (s : State) : Res := need (decide (link < 64)) (takeDown s link lane cause)

/-- LANE_JOIN (R236). -/
def execLaneJoin (link lane flitSeq : Nat) (s : State) : Res := need (decide (link < 64)) (takeJoin s link lane flitSeq)

/-- LANE_LEAVE (Table LNK-2). -/
def execLaneLeave (link lane flitSeq : Nat) (s : State) : Res := need (decide (link < 64)) (takeLeave s link lane flitSeq)

/-- GREY_NOTICE (Table LNK-7). -/
def execGreyNotice (link cause : Nat) (s : State) : Res := need (decide (link < 64)) (takeGrey s link cause)

/-! ### The intended map and quarantine (R247, R248) -/

/-- An image of IntendedMap without its reserved bits, which are ignored (R7). -/
def mapFields (image : Bytes) : Bytes :=
  (List.range 544).flatMap (fun i => natLe 4 (leNat ((image.drop (4 * i)).take 4) % 2 ^ 21))

/-- Every Enforced entry that disagrees with what the map knows is journalled, and Grey follows (R247, R248). -/
def applyIntended (s : State) : State := checkMap (journalMismatches s (List.range 544))

/-- INTENDED_MAP_COMMIT (R247). -/
def execIntendedMapCommit (r : Route) (handle : Nat) (digest : Bytes) (s : State) : Res :=
  .next (commitRow s r Obj.intendedMap handle digest false (fun n => n == 2176)
    noRule (fun s image => applyIntended (domPut s Obj.intendedMap (mapFields image))))

/-- Each link's GreyCause 3 follows its bit of LinkQuarantine. -/
def applyQuarantine (s : State) (n : Nat) : State :=
  (List.range 64).foldl (fun s k => if (linkOf s k).bound then setCause s k 3 (natBit k n) else s) s

/-- A write of LinkQuarantine (R248). -/
def writeLinkQuarantine (r : Route) (v : Bytes) (s : State) : State :=
  writeRow s r Obj.linkQuarantine v false noRule applyQuarantine

/-- LINK_QUARANTINE_WRITE (R248). -/
def execLinkQuarantineWrite (r : Route) (v : Bytes) (s : State) : Res := .next (writeLinkQuarantine r v s)

end Sys2Proof.Machine
end

