-- ==== Sys2Proof/Machine/Memory.lean ====
section
/-!
DEFINITION. The commands of the tile store and the LPDDR channels (08, R366 and R367 of 18): scrub, reads and writes, package
temperature, Dim periods, soft repair, channel failure, and MemHashKey.
-/

namespace Sys2Proof.Machine

/-! ### Tile store scrub (R164 to R167, R366, R367) -/

/-- Lines of a slice. -/
def sliceLines : Nat := 147456

/-- The spares of a slice that remaps have used. -/
def sparesUsed (s : State) (slice : Nat) : Nat :=
  s.remaps.foldl (fun m e => if e.1 / sliceLines = slice then max m (e.2 + 1) else m) 0

/-- TstSparesLeftMin as it stands. -/
def sparesLeftMin (s : State) : Nat := (List.range 64).foldl (fun m k => min m (256 - sparesUsed s k)) 256

/-- A remap of a line to the next spare of its slice, or the exhaustion told once. -/
def remapLine (s : State) (slice gl : Nat) : State :=
  let n := sparesUsed s slice
  let off := gl % sliceLines * 64
  if n < 256 then
    let s := { s with remaps := smSet s.remaps gl n, corrRuns := smErase (smErase s.corrRuns (2 * gl)) (2 * gl + 1) }
    let s := notePersist (objInc s Obj.tstLineRemaps) Obj.tstRemapList
    journal (objPut s Obj.tstSparesLeftMin (sparesLeftMin s)) .tstRemapped [slice, off, n]
  else if nsHas s.spareOut slice then s
  else journalAlert { s with spareOut := nsAdd s.spareOut slice } .tstSparesExhausted [slice]

/-- What scrub finds at word i of a line: the run of consecutive corrected passes, told at the fourth. -/
def scrubWord (s : State) (slice gl i : Nat) : Ecc → State
  | .corrected =>
    let n := smGetD s.corrRuns (2 * gl + i) 0 + 1
    let s := objInc { s with corrRuns := smSet s.corrRuns (2 * gl + i) n } Obj.tstCorrected
    if n = 4 then journal s .tstRecurringWord [slice, gl % sliceLines * 64 + 32 * i] else s
  | _ => { s with corrRuns := smErase s.corrRuns (2 * gl + i) }

/-- The scrub of a slice moves to its next line; a pass of all 64 slices is counted. -/
def scrubNext (s : State) (slice : Nat) : State :=
  let l := s.scrubLine.getD slice 0 + 1
  if l < sliceLines then { s with scrubLine := s.scrubLine.set slice l }
  else
    let w := nsAdd s.scrubWrap slice
    let s := { s with scrubLine := s.scrubLine.set slice 0, scrubWrap := if w.length = 64 then [] else w }
    if w.length = 64 then objInc s Obj.tstScrubPasses else s

/-- One scrub visit of a slice: a line whose word was corrected on four passes is remapped at this visit. -/
def scrubTile (s : State) (slice : Nat) (w0 w1 : Ecc) : State :=
  let gl := slice * sliceLines + s.scrubLine.getD slice 0
  let due := decide (4 ≤ smGetD s.corrRuns (2 * gl) 0) || decide (4 ≤ smGetD s.corrRuns (2 * gl + 1) 0)
  let s := scrubWord (scrubWord s slice gl 0 w0) slice gl 1 w1
  let s := if w0 = .uncorrectable ∨ w1 = .uncorrectable then
      objInc { s with tilePoison := nsAdd s.tilePoison gl } Obj.tstUncorrectable else s
  scrubNext (if due then remapLine s slice gl else s) slice

/-- TILE_STORE_SCRUB (R165). -/
def execTileStoreScrub (slice : Nat) (w0 w1 : Ecc) (s : State) : Res := need (decide (slice < 64)) (scrubTile s slice w0 w1)

/-! ### Channels (R167 to R174) -/

/-- MemChannelState of a channel. -/
def chanState (s : State) (ch : Nat) : Nat := objGet s (Obj.memChannelState + ch)

/-- Whether a channel serves requests at all: trained and not failed. -/
def chanUp (s : State) (ch : Nat) : Bool := decide (chanState s ch < 4)

/-- The package of a channel (R167). -/
def pkgOf (ch : Nat) : Nat := ch / 4

/-- MemState after a change of a channel's state (Table MEM-5). -/
def settleMem (s : State) : State :=
  let st := fun n => (List.range 64).any (fun ch => chanState s ch == n)
  if st 4 then objPut s Obj.memState 2
  else if objGet s Obj.memState = 3 then s
  else objPut s Obj.memState (if st 1 || st 2 || st 3 then 1 else 0)

/-- A channel takes a state; its whole milliseconds in state 3 are added to MemThrottleMs. -/
def setChan (s : State) (ch st : Nat) : State :=
  let s := match (chanOf s ch).thrFrom with
    | some t =>
      let n := (s.now - t) / 1000000
      updChan (objAdd s Obj.memThrottleMs n) ch (fun c => { c with thrFrom := if st = 3 then some (t + ms n) else none })
    | none => updChan s ch (fun c => { c with thrFrom := if st = 3 then some s.now else none })
  settleMem (objPut s (Obj.memChannelState + ch) st)

/-- The state of a channel that is not Dim (Table MEM-3). -/
def restState (s : State) (ch : Nat) : Nat := if s.pkgs.getD (pkgOf ch) 0 = 3 then 3 else 0

/-! ### The classes of a channel (R172) -/

/-- What a controller serves next. -/
inductive Turn
  | read (i : Nat)
  | write
  | back
  deriving DecidableEq, Repr

/-- Whether a waiting read is of class 1: urgent, or promoted after waiting 4 µs (Table MEM-2). -/
def classOne (now : Nat) (x : ChRead) : Bool := x.urgent || decide (x.since + us 4 ≤ now)

/-- The oldest read of class 1. -/
def firstUrgent (now : Nat) (c : Chan) : Option Nat := c.readQ.findIdx? (classOne now)

/-- Whether writes go ahead of class 2: from 48 lines held down to 16, and for a write that has waited 20 µs (Table MEM-2). -/
def writesFirst (now : Nat) (c : Chan) : Bool :=
  match c.writeQ with
  | [] => false
  | w :: _ => c.draining || decide (w.2 + us 20 ≤ now)

/-- What a controller serves next: class 1, writes where they go first, class 2, writes, and the background class when no other
waits (Table MEM-2). -/
def turnOf (now : Nat) (c : Chan) : Option Turn :=
  match firstUrgent now c with
  | some i => some (.read i)
  | none =>
    if writesFirst now c then some .write
    else if !c.readQ.isEmpty then some (.read 0)
    else if !c.writeQ.isEmpty then some .write
    else if !c.back.isEmpty then some .back
    else none

/-- The oldest queued write is written, and the next write at its port is accepted. -/
def writeOut (now : Nat) (c : Chan) : Chan :=
  let q := c.writeQ.drop 1
  let q := q ++ (c.writeWait.take 1).map (fun l => (l, now))
  { c with writeQ := q, writeWait := c.writeWait.drop 1, draining := c.draining && decide (16 < q.length) }

/-- A read leaves the queue, and the next at its engine or port is admitted (R168). -/
def readOut (now i : Nat) (c : Chan) : Chan :=
  { c with readQ := c.readQ.eraseIdx i ++ (c.readWait.take 1).map (fun x => { x with since := now }), readWait := c.readWait.drop 1 }

/-- One line written back in the background class: its content does not change. -/
def backOut (now : Nat) (c : Chan) : Chan := { c with back := c.back.drop 1, lastBack := now }

/-- A controller with the writes done that go ahead of its next read. -/
def writesAhead (now : Nat) : Nat → Chan → Chan
  | 0, c => c
  | k + 1, c => if turnOf now c = some .write ∧ !c.readQ.isEmpty then writesAhead now k (writeOut now c) else c

/-- The lines of a read decoded, by what it found at each (R169). -/
def decodeLines (s : State) (line : Nat) : List Ecc → State
  | [] => s
  | e :: r => decodeLines (readDecoded s line e) (line + 1) r

/-- One turn of a channel that is up and not Dim (R172): the writes that go ahead of the next read, and that read, decoded; or with no
read waiting one write or one write-back. A write-back that has waited goes with it once the background class has had no turn for
100 µs. -/
def serveChannel (s : State) (ch : Nat) (es : List Ecc) : State :=
  let s := updChan s ch (fun c => if c.lastBack + us 100 ≤ s.now ∧ !c.back.isEmpty then backOut s.now c else c)
  let s := updChan s ch (writesAhead s.now 64)
  let c := chanOf s ch
  match turnOf s.now c with
  | some (.read i) =>
    match c.readQ[i]? with
    | some x => decodeLines (updChan s ch (readOut s.now i)) x.line (es.take x.n)
    | none => s
  | some .write => updChan s ch (writeOut s.now)
  | some .back => updChan s ch (backOut s.now)
  | none => s

/-- LPDDR_READ_COMPLETE (R169, R172): nothing on a Dim channel, whose requests wait (R176). -/
def execLpddrReadComplete (package channel : Nat) (es : List Ecc) (s : State) : Res :=
  let ch := 4 * package + channel
  need (decide (package < 16 ∧ channel < 4)) (if chanUp s ch && (chanOf s ch).dim.isNone then serveChannel s ch es else s)

/-- LPDDR_WRITE_ACCEPT (R173): a Dim channel's queue takes the write, which waits there and is counted (R176). -/
def execLpddrWriteAccept (line mask : Nat) (data : Bytes) (poison : Bool) (s : State) : Res :=
  need (decide (line < lpddrSize / 64))
    (if chanUp s (channelOf s (64 * line)) then writeLine s (64 * line) (mask % 2 ^ 64) (padTo 64 data) poison else s)

/-! ### Package temperature (R174) -/

/-- The refresh state of Table MEM-3 for a reading: 0 below 85 °C, 1, 2, and 3 above 105 °C. -/
def refreshState (t : Int) : Nat := if t < 85 then 0 else if t < 95 then 1 else if t ≤ 105 then 2 else 3

/-- The lower bound of a refresh state. -/
def refreshBound (n : Nat) : Int := if n = 1 then 85 else if n = 2 then 95 else 105

/-- The state left downward, one state at a time, once the reading is 2 °C below its lower bound. -/
def refreshDown (t : Int) : Nat → Nat
  | 0 => 0
  | n + 1 => if t ≤ refreshBound (n + 1) - 2 then refreshDown t n else n + 1

/-- The refresh state after a reading. -/
def refreshNext (cur : Nat) (t : Int) : Nat := if cur ≤ refreshState t then refreshState t else refreshDown t cur

/-- A channel after its package's reading: throttled or not, and since when above 105 °C. -/
def chanTemp (t : Int) (s : State) (ch : Nat) : State :=
  let s := updChan s ch (fun c =>
    if 105 < t then { c with hotSince := some (c.hotSince.getD s.now) } else { c with hotSince := none, hotTold := false })
  if chanUp s ch && (chanOf s ch).dim.isNone then setChan s ch (restState s ch) else s

/-- A reading of a package's temperature. -/
def packageTemp (s : State) (pkg : Nat) (t : Int) : State :=
  let s := objPut s (Obj.memPackageTemp + pkg) (codeOf 32 t)
  let s := { s with pkgs := s.pkgs.set pkg (refreshNext (s.pkgs.getD pkg 0) t) }
  ((List.range 4).map (fun i => 4 * pkg + i)).foldl (chanTemp t) s

/-- PACKAGE_TEMP_READ (R174). -/
def execPackageTempRead (pkg : Nat) (tempC : Int) (s : State) : Res := need (decide (pkg < 16)) (packageTemp s pkg tempC)

/-- A channel above 105 °C for 100 ms is told once. -/
def overtemp (s : State) (ch : Nat) : State :=
  match (chanOf s ch).hotSince with
  | some t =>
    if s.now < t + ms 100 ∨ (chanOf s ch).hotTold then s
    else journalAlert (updChan s ch (fun c => { c with hotTold := true })) .channelHot
      [ch, objGet s (Obj.memPackageTemp + pkgOf ch)]
  | none => s

/-- CHANNEL_OVERTEMP (R174). -/
def execChannelOvertemp (ch : Nat) (s : State) : Res := need (decide (ch < 64)) (overtemp s ch)

/-! ### LPDDR scrub (R175) -/

/-- The LPDDR offset of granule u of a channel: the inverse of the hash (R170). -/
def granuleOff (key ch u : Nat) : Nat := (u * 64 + Nat.xor ch (lpddrPlace key (u * 64 * 256)).1) * 256

/-- Granules of a channel. -/
def chanGranules : Nat := 75497472

/-- When granule i of the channel's pass falls due, in ns. -/
def scrubDue (s : State) (ch : Nat) : Nat :=
  let c := chanOf s ch
  c.scrubStart + c.scrubPos * (objGet s Obj.memScrubHours * 3600000000000) / chanGranules

/-- Whether a write of a line has been accepted and not yet written: its scrub write-back is not made (R175). -/
def writePending (s : State) (line : Nat) : Bool := holdsWrite (chanOf s (channelOf s (64 * line))) line

/-- Scrub of one line: an uncorrectable one is written back poisoned with valid check bytes, and journalled; a corrected one is noted
for its row and its write-back (Table MEM-4). -/
def scrubLpddrLine (s : State) (line : Nat) (e : Ecc) : State :=
  match e with
  | .uncorrectable =>
    let s := noteRow (islandEvent s (.channel (channelOf s (64 * line))) Obj.memUncorrectable 1) line none
    journal (if writePending s line then s else
      { s with lpddrBad := nsDel s.lpddrBad line, lpddrPoison := nsAdd s.lpddrPoison line }) .scrubUncorrectable [64 * line]
  | .corrected => noteRow (noteCorrected s line) line (some (chanOf s (channelOf s (64 * line))).scrubPass)
  | .clean => s

/-- Scrub of the four lines of a granule from its first line. -/
def scrubLines (s : State) (line : Nat) : List Ecc → State
  | [] => s
  | e :: r => scrubLines (scrubLpddrLine s line e) (line + 1) r

/-- The length of a scrub pass in ns. -/
def scrubPeriod (s : State) : Nat := objGet s Obj.memScrubHours * 3600000000000

/-- Whether a scrub read that falls due may be served now (R172, R175): in the background class when no other class waits, or after
100 µs without a turn; more than 1 s behind, as a normal read since then, promoted after 4 µs. -/
def scrubTurn (s : State) (ch : Nat) : Bool :=
  let c := chanOf s ch
  let behind := scrubDue s ch + ms 1000
  if behind < s.now then
    let older (x : ChRead) : Bool := decide (x.since < behind)
    if behind + us 4 ≤ s.now then !(c.readQ.any (fun x => classOne s.now x && older x))
    else (firstUrgent s.now c).isNone && !writesFirst s.now c && !c.readQ.any older
  else (c.readQ.isEmpty && c.writeQ.isEmpty) || decide (c.lastBack + us 100 ≤ s.now)

/-- A scrub granule that has fallen due, of a channel that is not Dim, in its class's turn; the next pass starts on schedule. -/
def scrubGranule (s : State) (ch : Nat) (es : List Ecc) : State :=
  let c := chanOf s ch
  if !chanUp s ch || c.dim.isSome || decide (s.now < scrubDue s ch) || !scrubTurn s ch then s
  else
    let s := scrubLines s (granuleOff s.keyEff ch c.scrubPos / 64) (es.take 4)
    updChan s ch (fun c =>
      if c.scrubPos + 1 < chanGranules then { c with scrubPos := c.scrubPos + 1, lastBack := s.now }
      else { c with scrubPos := 0, scrubPass := c.scrubPass + 1, scrubStart := c.scrubStart + scrubPeriod s, lastBack := s.now })

/-- LPDDR_SCRUB_READ (R175). -/
def execLpddrScrubRead (ch : Nat) (es : List Ecc) (s : State) : Res := need (decide (ch < 64)) (scrubGranule s ch es)

/-! ### Channel failure (R179) -/

/-- Whether a request's data lies in a channel. -/
def inChannel (s : State) (ch : Nat) (c : StreamCtx) (r : Req) : Bool :=
  farHere s c r && decide (r.far < lpddrSize) && channelOf s r.far == ch

/-- The reads pending at a channel complete poisoned, as cause 4, while the engines go on (R414). -/
def failReads (s : State) (ch : Nat) : State :=
  (openReads s (fun _ c r => inChannel s ch c r)).foldl (fun s x =>
    match findCtx s x.1 x.2.1.d.queue x.2.1.d.seq with
    | some c => if c.reqs.any (fun (r : Req) => r.id == x.2.2.id) then finishReq s x.1 c x.2.2 (.fail 4 15) else s
    | none => s) s

/-- A channel fails: reads pending at it, every engine, the count of writes whose outcome is unknown, unissued descriptors,
and the module leaves Ready. -/
def failChannel (s : State) (ch : Nat) : State :=
  let writes := (chanOf s ch).writeQ.length + (chanOf s ch).writeWait.length
  let s := poisonReads s (fun _ c r => inChannel s ch c r) 4
  let s := haltEngines (journal s .outcomeUnknown [writes]) 6
  let s := (smKeys s.queues).foldl abortQueue s
  let s := updChan s ch (fun c => { c with dim := none, due := [], writeQ := [], writeWait := [], back := [], stalledBy := [] })
  hostSettle (journalAlert (objPut (setChan s ch 4) Obj.moduleState 3) .channelFailed [ch])

/-- CHANNEL_FAILURE (R179). -/
def execChannelFailure (ch : Nat) (s : State) : Res := need (decide (ch < 64)) (if chanUp s ch then failChannel s ch else s)

/-! ### Dim periods (R176 to R178) -/

/-- Whether a channel may go Dim now (R177). -/
def dimAllowed (s : State) (ch : Nat) : Bool :=
  chanUp s ch && (chanOf s ch).dim.isNone
    && (List.range 64).all (fun k => halfOf64 k != halfOf64 ch || (chanOf s k).dim.isNone)
    && (match (chanOf s ch).lastDim with
        | some t => decide (t + ms 1 ≤ s.now)
        | none => true)

/-- MemChannelState while an event is carried out. -/
def dimState : DimEvent → Nat
  | .retrain => 1
  | .repair _ _ => 2

/-- A Dim period starts: the requests in the channel's queues and at its engines wait on it, each counted (R176). -/
def startDim (s : State) (ch : Nat) (e : DimEvent) : State :=
  let c := chanOf s ch
  let s := objAdd s Obj.memDimStalledRequests (c.readQ.length + c.readWait.length + c.writeQ.length)
  setChan (objInc (updChan s ch (fun c => { c with dim := some (e, s.now), due := c.due.erase e })) Obj.memDimEvents) ch
    (dimState e)

/-- An event that falls due: its Dim period starts, or it waits. -/
def fallDue (s : State) (ch : Nat) (e : DimEvent) : State :=
  if !chanUp s ch then s
  else if dimAllowed s ch then startDim s ch e
  else updChan s ch (fun c => if c.due.contains e || c.dim.map Prod.fst == some e then c else { c with due := c.due ++ [e] })

/-- Whether a retraining is due: 4 s since the last, 5 °C since then, or 32 corrected lines within 1 s (Table MEM-4). -/
def retrainDue (s : State) (ch : Nat) : Bool :=
  let c := chanOf s ch
  let t := signedOf 32 (objGet s (Obj.memPackageTemp + pkgOf ch))
  decide (c.lastTrain + ms 4000 ≤ s.now) || decide (5 ≤ (t - c.trainTemp).natAbs)
    || decide (32 ≤ (c.corrTimes.filter (fun x => decide (s.now < x + ms 1000))).length)

/-- RETRAIN_START (R176). -/
def execRetrainStart (ch : Nat) (s : State) : Res :=
  need (decide (ch < 64)) (if retrainDue s ch then fallDue s ch .retrain else s)

/-- A channel leaves Dim: the longest period is kept in whole µs, and host accesses that waited on it go on. -/
def leaveDim (s : State) (ch since : Nat) : State :=
  let s := objMax s Obj.memDimLongestUs ((s.now - since) / 1000)
  hostSettle (setChan (updChan s ch (fun c => { c with dim := none, lastDim := some s.now, stalledBy := [] })) ch (restState s ch))

/-- A retraining ends; a second failure in a row fails the channel. -/
def endRetrain (s : State) (ch : Nat) (ok : Bool) : State :=
  match (chanOf s ch).dim with
  | some (.retrain, t) =>
    let s := updChan (leaveDim (islandReset s (.channel ch)) ch t) ch (fun c =>
      { c with lastTrain := s.now, trainTemp := signedOf 32 (objGet s (Obj.memPackageTemp + pkgOf ch)), corrTimes := [],
               trainFails := if ok then 0 else c.trainFails + 1 })
    if (chanOf s ch).trainFails < 2 then s else failChannel s ch
  | _ => s

/-- RETRAIN_END (R176, R179). -/
def execRetrainEnd (ch : Nat) (ok : Bool) (s : State) : Res := need (decide (ch < 64)) (endRetrain s ch ok)

/-- Whether a row's soft repair is due: an uncorrectable line, or corrected lines on three scrub passes (Table MEM-4); one that waits
for hard repair is not repaired again. -/
def repairDue (s : State) (ch bank row : Nat) : Bool :=
  (chanOf s ch).rows.any (fun r => r.bank == bank && r.row == row && (r.badAt.isSome || decide (3 ≤ r.passes.length)))
    && !s.repairs.any (fun (x : Repair) => x.ch == ch && x.bank == bank && x.row == row && x.hard)

/-- SOFT_REPAIR_START (R176, R178). -/
def execSoftRepairStart (ch bank row : Nat) (s : State) : Res :=
  need (decide (ch < 64)) (if repairDue s ch bank row then fallDue s ch (.repair bank row) else s)

/-- DIM_DEFERRED_START (R177): the oldest waiting event of the channel. -/
def execDimDeferredStart (ch : Nat) (s : State) : Res :=
  need (decide (ch < 64))
    (match (chanOf s ch).due with
     | e :: _ => if dimAllowed s ch then startDim s ch e else s
     | [] => s)

/-- Lines written back poisoned with valid check bytes. -/
def poisonLines (s : State) : List Nat → State
  | [] => s
  | l :: r => poisonLines { s with lpddrBad := nsDel s.lpddrBad l, lpddrPoison := nsAdd s.lpddrPoison l } r

/-- A row put on MemRepairList; a row listed before takes its new kind. -/
def listRepair (s : State) (ch bank row : Nat) (hard : Bool) : State :=
  notePersist { s with repairs := s.repairs.filter (fun (x : Repair) => !(x.ch == ch && x.bank == bank && x.row == row))
                                    ++ [{ ch := ch, bank := bank, row := row, hard := hard }] } Obj.memRepairList

/-- A soft repair ends: the row is written back and listed, or listed for hard repair where the bank has no resource
left. -/
def endRepair (s : State) (ch : Nat) (resource : Bool) (bad : List Nat) : State :=
  match (chanOf s ch).dim with
  | some (.repair bank row, t) =>
    let s := updChan (leaveDim s ch t) ch (fun c => { c with rows := c.rows.filter (fun r => !(r.bank == bank && r.row == row)) })
    if resource then
      listRepair (objInc (poisonLines s (bad.filter (fun l => decide (l < lpddrSize / 64) && channelOf s (64 * l) == ch)))
        Obj.memSoftRepairs) ch bank row false
    else listRepair s ch bank row true
  | _ => s

/-- SOFT_REPAIR_END (R178). -/
def execSoftRepairEnd (ch : Nat) (resource : Bool) (bad : List Nat) (s : State) : Res :=
  need (decide (ch < 64)) (endRepair s ch resource bad)

/-! ### MemHashKey (R171) -/

/-- A key that would make a mask 0 is refused. -/
def keyRule (_ : State) (key : Nat) : Nat := if (List.range 6).any (fun i => hashMask key i == 0) then 0x08 else 0

/-- A write of MemHashKey (R171, R342). -/
def writeMemHashKey (r : Route) (v : Bytes) (burnt : Bool) (s : State) : State :=
  fuseRow s r Obj.memHashKey Obj.memHashKeyWritesLeft v burnt keyRule id

/-- MEM_HASH_KEY_WRITE (R171): in effect from the next cold start. -/
def execMemHashKeyWrite (r : Route) (v : Bytes) (burnt : Bool) (s : State) : Res := .next (writeMemHashKey r v burnt s)

end Sys2Proof.Machine
end

