-- ==== Sys2Proof/Machine/Restart.lean ====
section
/-!
DEFINITION. What starts and restarts share: image verification and measurement (R381 to R386), what a reset keeps (R334, R377,
R407, R408), bridge and LPDDR training, the examination of the laser inputs and the ring sweep (R368, R179, R208, R222), and
how cold starts and warm restarts begin and end (R376, R401 to R408).
-/

namespace Sys2Proof.Machine

/-- A function applied to the start-up state. -/
def updSeqs (s : State) (f : Seqs → Seqs) : State := { s with seqs := f s.seqs }

/-- A function applied to the security state. -/
def updSec (s : State) (f : Sec → Sec) : State := { s with sec := f s.sec }

/-- StartupStep (0x1001.01). -/
def setStep (s : State) (n : Nat) : State := objPut (updSeqs s (fun q => { q with startStep := n })) Obj.startupStep n

/-! ### Images (R381 to R386) -/

/-- Whether a root key slot's key is valid: its hash, and not revoked (R381). -/
def rootKeyOk (s : State) (slot : Nat) (hash : Bytes) : Bool :=
  decide (slot < 2) && hash == Config.rootKeyHash slot && !natBit slot (objGet s Obj.rootKeyRevoked)

/-- Whether an image is valid (R382). -/
def imageValid (s : State) (i : ImageInfo) : Bool := i.headerOk && rootKeyOk s i.keySlot i.keyHash && i.sigOk && i.bodyOk

/-- Whether an image boots (R382, R386). -/
def imageBoots (s : State) (i : ImageInfo) : Bool := imageValid s i && decide (objGet s Obj.antiRollbackLevel ≤ i.secVersion)

/-- Whether images carry one FirmwareVersion and one SecVersion (R383). -/
def sameVersion (is : List ImageInfo) : Bool :=
  match is with
  | [] => true
  | i :: r => r.all (fun (x : ImageInfo) => x.fwVersion == i.fwVersion && x.secVersion == i.secVersion)

/-- Whether a bank is valid as a whole, whatever the anti-rollback level (R382, R383). -/
def bankValid (s : State) (is : List ImageInfo) : Bool :=
  is.map ImageInfo.imageType == [1, 2, 3, 4, 5, 6] && is.all (imageValid s) && sameVersion is

/-- A bank's field of BankState: 0 valid, 1 invalid, 2 below AntiRollbackLevel; a bank never read is taken as valid. -/
def bankField (s : State) (is : List ImageInfo) : Nat :=
  if is.isEmpty then 0
  else if !bankValid s is then 1
  else if is.all (imageBoots s) then 0 else 2

/-- BankState. -/
def bankStateObj (s : State) : Nat := bankField s s.sec.bankA + 4 * bankField s s.sec.bankB

/-- The images a bank is known to hold. -/
def putBank (s : State) (bank : Nat) (is : List ImageInfo) : State :=
  updSec s (fun x => if bank = 0 then { x with bankA := is } else { x with bankB := is })

/-- The images of a bank. -/
def bankImages (s : State) (bank : Nat) : List ImageInfo := if bank = 0 then s.sec.bankA else s.sec.bankB

/-! ### Measurement (R385) -/

/-- A measurement entry as its 64 bytes (Table SEC-3). -/
def measBytes (e : MeasEntry) : Bytes :=
  natLe 8 (e.register % 4 + e.code % 256 * 2 ^ 8 + e.bank % 2 * 2 ^ 16 + e.secVersion % 256 * 2 ^ 24 + e.fwVersion % 2 ^ 32 * 2 ^ 32)
    ++ natLe 8 (e.number % 2 ^ 32) ++ padTo 32 e.digest ++ List.replicate 16 0

/-- A register extended: the log takes the entry unless it is full, and the register its hash. -/
def measExtend (s : State) (reg code sec fw : Nat) (digest : Bytes) : State :=
  let e : MeasEntry := { register := reg, code := code, bank := s.seqs.bootBank, secVersion := sec, fwVersion := fw,
                         number := s.sec.log.length, digest := digest }
  updSec s (fun x =>
    { x with meas := x.meas.set reg (sha256 (x.meas.getD reg [] ++ measBytes e)),
             log := if x.log.length < 4096 then x.log ++ [e] else x.log,
             logOverflow := x.logOverflow || decide (4096 ≤ x.log.length) })

/-- A security event measured into Meas3: the SHA-256 of the object's new value. -/
def measEvent (s : State) (code : Nat) (value : Bytes) : State := measExtend s 3 code 0 0 (sha256 value)

/-- An image measured: type 1 into Meas1, the others into Meas2. -/
def measImage (s : State) (i : ImageInfo) : State :=
  measExtend s (if i.imageType = 1 then 1 else 2) i.imageType i.secVersion i.fwVersion i.bodyDigest

/-- A boot chain begins: registers and log cleared, and Meas0 extended; a start from step 4 keeps Meas0 as steps 1 and 2 left
it (R384, R402). -/
def chainStart (s : State) (keep0 : Bool) : State :=
  let m0 := s.sec.meas.getD 0 []
  let l0 := s.sec.log.take 1
  if keep0 ∧ l0.map MeasEntry.register = [0] then
    updSec s (fun x => { x with meas := [m0, List.replicate 32 0, List.replicate 32 0, List.replicate 32 0], log := l0,
                                logOverflow := false, chain := [] })
  else
    measExtend (updSec s (fun x => { x with meas := List.replicate 4 (List.replicate 32 0), log := [], logOverflow := false,
                                            chain := [] })) 0 0x10 0 0 Config.romFuseDigest

/-- A trial that failed: BootBankRequest is cleared and the previous bank boots (R389). -/
def trialFailed (s : State) : State :=
  let s := objPut (objPut s Obj.bootBankRequest 0xFF) Obj.firmwareUpdateState 5
  updSeqs s (fun q => { q with trial := false, trialFails := 0 })

/-- The boot bank is chosen (R384 step 2, R389): a trial measures code 0x24; a second failed trial ends the trial. -/
def chooseBank (s : State) : State :=
  let s := if objGet s Obj.bootBankRequest < 2 ∧ 2 ≤ s.seqs.trialFails then trialFailed s else s
  let req := objGet s Obj.bootBankRequest
  if req < 2 then
    measEvent (updSeqs s (fun q => { q with bootBank := req, trial := true, secondBank := false })) 0x24 (natLe 1 req)
  else updSeqs s (fun q => { q with bootBank := objGet s Obj.activeBank, trial := false, secondBank := false })

/-! ### What a reset keeps (R334, R377, R407) -/

/-- Objects that report a present condition of the always-on island, which reads and reports it without a break. -/
def statusKeys : List Nat :=
  [Obj.posId, Obj.mgmtIpv4, Obj.mgmtPairReversed, Obj.monLineFault, Obj.auxState, Obj.mainInputState, Obj.convertersOk, Obj.holdUpMj,
   Obj.supplyVoltageMv, Obj.inputPowerW, Obj.thermalState, Obj.thermalHottestC, Obj.leakLoopOhms, Obj.leakState,
   Obj.flowCentiLpm, Obj.timeSource]

/-- Whether an object keeps its value through a restart: persistent, or a present condition. -/
def keptKey (k : Nat) : Bool :=
  k == 0 || statusKeys.contains k || keyIn k Obj.siteTemp 88
    || (match objRow k with
        | some r => r.kept
        | none => false)

/-- Whether a DOMAIN object is persistent. -/
def keptDom (k : Nat) : Bool :=
  match objRow k with
  | some r => r.kept
  | none => false

/-- One uncommitted object reads its last committed value again. -/
def revertKey (s : State) (k : Nat) : State :=
  if k = Obj.tstRemapList then { s with remaps := s.remapsFlash }
  else if k = Obj.memRepairList then { s with repairs := s.repairsFlash }
  else if decide (0xA00000 ≤ k) then
    { s with doms := match smGet s.domsFlash k with
        | some b => smSet s.doms k b
        | none => smErase s.doms k }
  else
    { s with dic := match smGet s.flash k with
        | some v => smSet s.dic k v
        | none => smErase s.dic k }

/-- Power is lost before a commit: every written object that is not committed reads its last committed value (R334). -/
def revertPersist (s : State) : State := { s.persist.foldl revertKey s with persist := [] }

/-- Values of half E and half W that take effect at a restart (R181, R346), and those of a cold start only (R171, R228, R321,
R326, R441). -/
def applyRestart (s : State) (cold : Bool) : State :=
  let s := { objPut s 0 (objGet s Obj.chipNumber) with
    spillEff := objGet s Obj.spillAreaMiB, watchEff := objGet s Obj.deadlockWatchUs,
    rcEff := [objGet s Obj.remoteCacheMiBW, objGet s Obj.remoteCacheMiBE] }
  if !cold then s
  else
    let s := { s with keyEff := objGet s Obj.memHashKey, laserMode := objGet s Obj.laserSourceMode, iface := { s.iface with baud := objGet s Obj.monBaud } }
    updHost s (fun h => { h with bar2Base := objGet s Obj.queueWindowBase, bar2GiB := objGet s Obj.queueWindowGiB,
                                 cxlGiB := objGet s Obj.cxlMemGiB })

/-- Both dies reset but for the always-on island. A warm restart keeps LPDDR, the host port's registers and link, and the
retained miss events; a cold one keeps none of them (R328, R370, R377, R407). -/
def dieReset (s : State) (cold : Bool) : State :=
  let abandoned := s.obs.current.isSome
  let s := dropSnaps s
  let r := State.reset
  let s' : State := { r with
    pending := s.pending, now := s.now, coldAt := s.coldAt, lossNs := s.lossNs, free := s.free, out := s.out
    dic := s.dic.filter (fun e => keptKey e.1)
    flash := s.flash, persist := s.persist
    doms := s.doms.filter (fun e => keptDom e.1)
    domsFlash := s.domsFlash
    bridge := { fuseWires := s.bridge.fuseWires, failWires := s.bridge.failWires }
    arrays := if cold then r.arrays else s.arrays.map (fun (a : ArrayUnit) => { missTimes := a.missTimes, katSeed := a.katSeed })
    remaps := s.remaps, remapsFlash := s.remapsFlash, spareOut := s.spareOut
    lpddr := if cold then [] else s.lpddr
    lpddrPoison := if cold then [] else s.lpddrPoison
    lpddrBad := if cold then [] else s.lpddrBad
    repairs := s.repairs, repairsFlash := s.repairsFlash, pkgs := s.pkgs
    keyEff := s.keyEff, rings := s.rings.map (fun (g : Ring) => { c25 := g.c25, alpha := g.alpha, fullFails := g.fullFails })
    host := if cold then { perst := s.host.perst, refclk := s.host.refclk }
            else { s.host with ats := [], atsWait := [], pageReqs := [], snoopW := [], snoopE := [], bisnp := [], bisnpBad := [],
                               waits := [], resetting := false }
    mgmt := { nextSession := s.mgmt.nextSession, nextHandle := s.mgmt.nextHandle, failTimes := s.mgmt.failTimes,
              lockUntil := s.mgmt.lockUntil, lease := s.mgmt.lease, plca := s.mgmt.plca }
    power := s.power, seqs := { s.seqs with ckptStep := 0, halfE := false }
    sec := { s.sec with monitorWrite := false, attestNonce := [], capture := [], reports := if cold then 0 else s.sec.reports }
    iface := s.iface
    obs := { jbuf := s.obs.jbuf, jring := s.obs.jring, bootCount := s.obs.bootCount, lastCommit := s.obs.lastCommit } }
  let s' := if abandoned then objPut s' Obj.snapshotState 3 else s'
  let s' := if cold then s' else objPut s' Obj.hostLinkGen s.host.gen
  applyRestart (objPut (objPut (freeStep s') Obj.debugNonce (freeNow s').toNat) Obj.tstSparesLeftMin (sparesLeftMin s')) cold

/-! ### Cold starts (R401 to R405) -/

/-- Compute setpoints and rails off. -/
def railsOff (s : State) : State :=
  { s with power := { s.power with doms := List.replicate 8 {} } }

/-- The main domains are switched off: uncommitted objects revert, and all but the always-on island is lost. An interrupted
trial is counted (R389). -/
def mainOff (s : State) : State :=
  let s := updSeqs s (fun q => { q with trialFails := if q.trial then q.trialFails + 1 else q.trialFails, trial := false })
  railsOff (dieReset (revertPersist s) true)

/-- A cold start begins, from step 1 or from step 4, with LocalTimeNs 0 and a boot chain of its own. -/
def beginCold (s : State) (four : Bool) : State :=
  let s := mainOff s
  let s := { s with coldAt := s.now, lossNs := 0, obs := { s.obs with bootCount := s.obs.bootCount + 1 } }
  let s := updSeqs s (fun q =>
    { q with running := true, fromFour := four, startPoint := s.now, waitFrom := if four then some s.now else none, waitNs := 0,
             overTold := false, needFirst := four, railFails := 0, railRetryAt := none, recovery := false, warmStep := 0,
             coldPending := false })
  let s := setStep (objPut s Obj.moduleState 0) (if four then 3 else 0)
  let s := { s with power := { s.power with black := false, coolSince := none,
                                            mainOk := s.power.mainOk && !four,
                                            sites := s.power.sites.map (fun (x : Site) => { x with flag0 := false, flag1 := false }) } }
  if !four then s
  else if objGet s Obj.lifecycleState = 4 then updSeqs (setStep s 2) (fun q => { q with running := false, waitFrom := none })
  else chooseBank (chainStart s true)

/-- A cold start for a cause of Table BOOT-4. -/
def coldStart (s : State) (source : Nat) : State := beginCold (objPut s Obj.lastResetSource source) true

/-- Recovery: no firmware runs and the main rails stay off (R387). -/
def enterRecovery (s : State) : State :=
  let s := mainOff s
  let s := updSeqs s (fun q => { q with running := false, recovery := true, warmStep := 0 })
  alert (setStep (objPut s Obj.moduleState 0) 2)

/-- An image of the boot bank failed: counted and journalled. The other bank is tried from the start of the chain; a trial ends
with a cold start from the previous bank; a second failure ends in recovery (R384, R387, R389). `hot` says that rails are
on. -/
def bootFailed (s : State) (imageType : Nat) (hot : Bool) : State :=
  let s := journal (objInc s Obj.bootVerifyFailures) .bootVerifyFailed [s.seqs.bootBank, imageType]
  if s.seqs.trial then
    let s := trialFailed s
    if hot then beginCold s true
    else
      let s := chooseBank (chainStart s s.seqs.fromFour)
      updSeqs s (fun q => { q with needFirst := true })
  else if s.seqs.secondBank then enterRecovery s
  else
    let s := chainStart s s.seqs.fromFour
    updSeqs s (fun q => { q with secondBank := true, bootBank := 1 - q.bootBank, needFirst := true })

/-- No image. -/
def noImage : ImageInfo :=
  { imageType := 0, keySlot := 0, secVersion := 0, fwVersion := 0, bodyDigest := [], headerOk := false, keyHash := [],
    sigOk := false, bodyOk := false }

/-- Images of the expected types read from the boot bank: the first that fails, or all verified and measured. -/
def verifyImages (s : State) (is : List ImageInfo) : Option Nat :=
  match is.find? (fun (i : ImageInfo) => !imageBoots s i) with
  | some i => some i.imageType
  | none => if sameVersion (s.sec.chain ++ is) then none else some (is.headD noImage).imageType

/-- Verified images measured and kept for the bank's own rule. -/
def acceptImages (s : State) (is : List ImageInfo) : State :=
  updSec (is.foldl measImage s) (fun x => { x with chain := x.chain ++ is })

/-- All six images of the boot bank have verified: its versions are reported (R386). -/
def bankBooted (s : State) : State :=
  let i := s.sec.chain.headD noImage
  let s := putBank s s.seqs.bootBank s.sec.chain
  objPut (objPut (objPut s Obj.firmwareVersion i.fwVersion) Obj.runningSecVersion i.secVersion) Obj.bankState
    (bankStateObj (putBank s s.seqs.bootBank s.sec.chain))

/-- The cores run: all eight, or those of half W only. -/
def coresRun (s : State) (halfE : Bool) : State :=
  let s := updSeqs s (fun q => { q with halfE := halfE })
  { s with cores := (List.range 8).map (fun i =>
      { (s.cores.getD i {}) with st := if i < 4 ∨ halfE then 1 else 0 }) }

/-! ### Bridge training (R368, R369) -/

/-- The wires of a bundle that are excluded or failed. -/
def badWires (s : State) (b : Nat) : Nat := Nat.lor (smGetD s.bridge.fuseWires b 0) (smGetD s.bridge.failWires b 0)

/-- The good wires of a bundle, in wire order. -/
def goodWires (s : State) (b : Nat) : List Nat := (List.range 68).filter (fun w => !natBit w (badWires s b))

/-- Whether a bundle has 64 good wires. -/
def bundleTrains (s : State) (b : Nat) : Bool := decide (64 ≤ (goodWires s b).length)

/-- Spare wires that the bundles use. -/
def sparesInUse (s : State) : Nat :=
  ((List.range 96).map (fun b =>
    if bundleTrains s b then (((goodWires s b).take 64).filter (fun w => decide (64 ≤ w))).length else 0)).sum

/-- Each wire that fails at a start but not at assembly is journalled. -/
def tellWires (s : State) (b : Nat) : State :=
  ((List.range 68).filter (fun w => natBit w (smGetD s.bridge.failWires b 0) && !natBit w (smGetD s.bridge.fuseWires b 0))).foldl
    (fun s w => journal s .wireFailed [b, w]) s

/-- The bridge trained with fresh spare selection: its objects and its state (R24, R368). -/
def trainBridge (s : State) (failed : List (Nat × Nat)) : State :=
  let s := updBridge s (fun g => { g with failWires := failed.foldl (fun m e => smSet m e.1 (e.2 % 2 ^ 68)) [], waiting := [],
                                          crossing := [] })
  let s := (List.range 96).foldl tellWires s
  let mem := ((List.range 64).filter (bundleTrains s)).length
  let rtr := ((List.range 32).filter (fun b => bundleTrains s (64 + b))).length
  let mapOf := fun (first n : Nat) => (List.range n).foldl (fun a i => if bundleTrains s (first + i) then a else a + 2 ^ i) 0
  let s := objPut (objPut s Obj.bridgeMemBundles mem) Obj.bridgeRouterBundles rtr
  let s := objPut (objPut s Obj.bridgeRetiredMap (mapOf 0 64)) Obj.bridgeRetiredMapHigh (mapOf 64 32)
  let s := objPut s Obj.bridgeSparesUsed (sparesInUse s)
  objPut s Obj.bridgeState (if mem < 48 ∨ rtr < 24 then 2 else if mem + rtr < 96 then 1 else 0)

/-- CXL.mem is advertised with size 0: the bridge is failed, or half E has not started (R26, Table BOOT-2). -/
def noRegion (s : State) : State := updHost s (fun h => { h with cxlGiB := 0 })

/-! ### LPDDR training (R178 to R180) -/

/-- A channel after training at a start. -/
def trainChannel (failed : List Nat) (s : State) (ch : Nat) : State :=
  if failed.contains ch then journalAlert (objPut s (Obj.memChannelState + ch) 4) .channelFailed [ch]
  else
    updChan (objPut s (Obj.memChannelState + ch) 0) ch (fun c =>
      { c with lastTrain := s.now, trainTemp := signedOf 32 (objGet s (Obj.memPackageTemp + pkgOf ch)), scrubStart := s.now,
               trainFails := 0 })

/-- The channels trained: MemState, and CXL.mem of size 0 where one failed (R179). -/
def trainMemory (s : State) (failed : List Nat) : State :=
  let s := (List.range 64).foldl (trainChannel failed) s
  if failed.any (fun c => decide (c < 64)) then noRegion (objPut s Obj.memState 2) else objPut s Obj.memState 0

/-- Hard repair at a cold start: every listed row is repaired, and the flag and the entries are cleared (R178). -/
def hardRepair (s : State) : State :=
  if objGet s Obj.memHardRepairArm = 0 then s
  else
    let s := { s with repairs := [] }
    notePersist (notePersist (objPut s Obj.memHardRepairArm 0) Obj.memHardRepairArm) Obj.memRepairList

/-! ### Light (R208, R222) -/

/-- Whether light is present at an examined input: -10 dBm or more at its tap. -/
def examLight (e : LaserExam) : Bool := decide (-1000 ≤ e.tap)

/-- Line j as a sweep measured it; a line it did not find has no power. -/
def lineAt (ms : List LineMeas) (j : Nat) : LineMeas := ms.getD j { offMHz := 0, cdBm := -10000 }

/-- Whether all 16 spacings of a sweep are within 200 ± 0.5 GHz. -/
def evenLines (ms : List LineMeas) : Bool :=
  (List.range 16).all (fun j => decide (((lineAt ms (j + 1)).offMHz - (lineAt ms j).offMHz).natAbs ≤ 500))

/-- Whether all 17 offsets moved by the same amount within 0.5 GHz between the sweeps. -/
def movedTogether (a b : List LineMeas) : Bool :=
  let d (j : Nat) : Int := (lineAt b j).offMHz - (lineAt a j).offMHz
  (List.range 17).all (fun i => (List.range 17).all (fun j => decide ((d i - d j).natAbs ≤ 500)))

/-- Whether an examined input is classed comb (R208 step 3). -/
def examComb (e : LaserExam) : Bool := examLight e && evenLines e.first && evenLines e.second && movedTogether e.first e.second

/-- Whether a line, as the second sweep measured it, is inside Table OPT-2; a comb's frequencies are those of its line 8. -/
def lineInside (comb : Bool) (ms : List LineMeas) (j : Nat) : Bool :=
  let p := (lineAt ms j).cdBm
  if comb then decide ((lineAt ms 8).offMHz.natAbs ≤ 25000) && decide (300 ≤ p) && decide (p ≤ 900)
  else decide ((lineAt ms j).offMHz.natAbs ≤ 12500) && decide (500 ≤ p) && decide (p ≤ 1100)

/-- The usable lines of an examined input, as LaserLinesUsable has them (R208 step 4). -/
def examLines (e : LaserExam) : Nat :=
  if examLight e then ((List.range 17).map (fun j => if lineInside (examComb e) e.second j then 2 ^ j else 0)).sum else 0

/-- The fibre of an input's facet with unmodulated light of -10 dBm or more (Table OPT-3). -/
def reversedAt (k : Nat) (e : LaserExam) : Option Nat :=
  (e.plain.find? (fun f => f.1 % 32 / 8 == k / 2 && decide (-1000 ≤ f.2))).map Prod.fst

/-- LaserInputState of an examined input (Table OPT-3). -/
def laserState (s : State) (k : Nat) (e : LaserExam) : Nat :=
  if !examLight e then (if (reversedAt k e).isSome then 5 else if natBit k (objGet s Obj.laserInputUse) then 4 else 3)
  else if examLines e ≠ 2 ^ 17 - 1 then 6
  else if s.laserMode = 1 ∧ !examComb e then 7
  else if examComb e then 2 else 1

/-- The report of an input's state (Table OPT-3). -/
def laserReport (s : State) (k : Nat) (e : LaserExam) : Nat → State
  | 4 => journalAlert s .laserOpen [k]
  | 5 => journalAlert s .laserReversed [k, (reversedAt k e).getD 0]
  | 6 => journal s .laserOutOfRange [k, examLines e]
  | 7 => journalAlert s .laserMode [k]
  | _ => s

/-- LineState 5 of the lines of an input's fibres that are outside Table OPT-2, taken back on those that are inside again
(R208, Table OPT-9). -/
def excludeLines (s : State) (k lines : Nat) : State :=
  (List.range 68).foldl (fun s i =>
    let x := 4 * k + i / 17
    let j := i % 17
    if natBit j lines then
      (if (specOf s x j).lineState = 5 ∧ ringRetired s (modRing x j) = false then updSpec s x j (fun e => { e with lineState := 0 }) else s)
    else updSpec s x j (fun e => { e with lineState := 5 })) s

/-- The out-fibres of an input whose reverse tap shows modulated light: not lit, journalled, ALERT_N (Table LNK-7). -/
def tapFibres (s : State) (k : Nat) (e : LaserExam) : State :=
  let bad := ((List.range 4).map (fun i => 4 * k + i)).filter (fun x => e.joined.contains x)
  let s := { s with tapped := s.tapped.filter (fun x => x / 4 != k) ++ bad }
  bad.foldl (fun s x => journalAlert s .fibresJoined [x]) s

/-- One laser input examined. -/
def examineLaser (s : State) (x : LaserExam × Nat) : State :=
  let k := x.2
  let st := laserState s k x.1
  let s := objPut (objPut s (Obj.laserInputState + k) st) (Obj.laserLinesUsable + k) (examLines x.1)
  let s := updLaser s k (fun l => { l with cls := st, comb := examComb x.1, dark := !examLight x.1, lostLines := 0 })
  let s := if examLight x.1 then excludeLines s k (examLines x.1) else s
  laserReport (tapFibres s k x.1) k x.1 st

/-- All laser inputs of the facets that are served examined. -/
def examineLasers (s : State) (es : List LaserExam) : State :=
  (es.zipIdx.take (if s.seqs.halfE then 8 else 4)).foldl examineLaser s

/-- A ring that a full sweep at a start has found, locked at a heater code that the spec leaves open (log entry 3). -/
def foundRing (s : State) (r : Nat) : State :=
  let code : Int := ((Config.freeWord (s.free + r)).toNat % (65536 * 128) : Nat)
  updRing s r (fun g => { g with locked := true, parked := false, sweep := 0, code := clampCode code, fullFails := 0 })

/-- One ring after its full sweeps at a start. A ring that fails the first is swept again, and retired when it fails both; a retired
ring is swept twice at a cold start, and returns to service when it passes both (R222). -/
def sweepRing (unlocked again : List Nat) (cold : Bool) (s : State) (r : Nat) : State :=
  if ringRetired s r then
    if cold ∧ !unlocked.contains r ∧ !again.contains r then foundRing (setRingRetired s r false) r
    else
      let s := updRing s r (fun g => { g with parked := true, locked := false })
      if r < 544 then updSpec s (r / 17) (r % 17) (fun e => { e with lineState := 5 }) else s
  else if unlocked.contains r ∧ again.contains r then retireRing (updRing s r (fun g => { g with fullFails := 2 })) r
  else foundRing s r

/-- The rotor of a fibre starts: line 16, or the next that is not excluded, is grey, and the rotors of a facet are an eighth of a
period apart (R215). -/
def startRotor (s : State) (x : Nat) : State :=
  let g := if (specOf s x 16).lineState = 5 then nextLine s x 17 16 else 16
  let s := updRotor s x (fun _ => { grey := g, since := s.now + x % 8 * (us (objGet s Obj.rotorStepUs) / 8) })
  if (specOf s x g).lineState = 5 then s else updSpec s x g (fun e => { e with lineState := 2 })

/-- The full sweep of all 1,088 rings, or of half W's alone (Table BOOT-2); the comb references and the rotors start from it. -/
def sweepAll (s : State) (unlocked again : List Nat) (cold : Bool) : State :=
  let s := ((List.range 1088).filter (fun r => fibreUp s (ringFibre r))).foldl (sweepRing unlocked again cold) s
  let s := ((List.range 32).filter (fibreUp s)).foldl startRotor { s with free := s.free + 1088 }
  (List.range 8).foldl moveRef s

/-! ### The end of a start -/

/-- The value of the checkpoint header's first word. -/
def ckptHeader (s : State) : Nat := leNat (memBytes s.lpddr (objGet s Obj.checkpointBase) 8)

/-- A trial that reached Ready is confirmed (R389). -/
def confirmTrial (s : State) : State :=
  if !s.seqs.trial then s
  else
    let s := objPut (objPut s Obj.activeBank s.seqs.bootBank) Obj.bootBankRequest 0xFF
    updSeqs (objPut s Obj.firmwareUpdateState 3) (fun q => { q with trial := false, trialFails := 0 })

/-- Ready, or the state the start ends in; known-answer runs are timed from here. -/
def endStart (s : State) : State :=
  let s := { s with arrays := s.arrays.map (fun (a : ArrayUnit) => { a with katLast := s.now }) }
  if objGet s Obj.memState = 2 then objPut s Obj.moduleState 3
  else if objGet s Obj.bridgeState = 2 ∨ !s.seqs.halfE then objPut (greyAll (noRegion s) 4) Obj.moduleState 2
  else confirmTrial (objPut s Obj.moduleState 1)

/-- Milliseconds from the start point, without the wait for the main input (R401, R415). -/
def startMs (s : State) : Nat := (s.now - s.seqs.startPoint - s.seqs.waitNs) / 1000000

/-- A cold start ends. -/
def coldDone (s : State) : State :=
  let s := updSeqs s (fun q => { q with running := false })
  endStart (objPut s Obj.startupMs (startMs s))

/-! ### Warm restarts (R376, R377) -/

/-- A warm restart begins: cause 1 requested, 2 R202, 3 bridge-failed recovery. A running mailbox command ends with not-ready,
a checkpoint fails, and engines stop without records. -/
def startWarm (s : State) (cause : Nat) : State :=
  let s := if s.host.busy then mbxEnd s 0x06 else s
  let s := if s.seqs.ckptStep = 0 then s else objPut (updSeqs s (fun q => { q with ckptStep := 0 })) Obj.checkpointState 3
  let s := objPut (objPut (objInc s Obj.warmRestarts) Obj.lastRestartCause cause) Obj.lastResetSource 5
  let s := objPut (updSeqs s (fun q => { q with warmStep := 0, warmSince := s.now, running := false })) Obj.moduleState 4
  clearEngines (journal s .warmRestart [cause])

/-- A warm restart under R202; a fourth within one hour is a cold start instead (R376). -/
def autoWarm (s : State) : State :=
  let times := s.seqs.warmTimes.filter (fun t => decide (s.now < t + 3600 * ms 1000))
  if 3 ≤ times.length then beginCold (objPut (updSeqs s (fun q => { q with warmTimes := times })) Obj.lastRestartCause 4) true
  else startWarm (updSeqs s (fun q => { q with warmTimes := times ++ [s.now] })) 2

/-- A warm restart ends: CheckpointState is 2 when the header is Valid (R375). -/
def warmDone (s : State) : State :=
  let h := ckptHeader s
  let s := if natBit 32 h then objPut (objPut s Obj.checkpointState 2) Obj.checkpointEpoch (h % 2 ^ 32) else s
  endStart s

end Sys2Proof.Machine
end

