-- ==== Sys2Proof/Machine/PowerOps.lean ====
section
/-!
DEFINITION. Rails, sites and thermal states (17): the voltage of a compute sub-domain (R349), the temperature and the rate of a
site (R356, R357), Red and Black (R358, R360), and the module without power (R352).
-/

namespace Sys2Proof.Machine

/-- A function applied to the supplies. -/
def updPower (s : State) (f : Power → Power) : State := { s with power := f s.power }

/-- A function applied to a compute sub-domain. -/
def updDom (s : State) (d : Nat) (f : Dom → Dom) : State :=
  updPower s (fun p => { p with doms := modifyAt p.doms d f })

/-- A function applied to a site. -/
def updSite (s : State) (n : Nat) (f : Site → Site) : State :=
  updPower s (fun p => { p with sites := modifyAt p.sites n f })

/-- Compute sub-domain d: 0 to 3 are CW0 to CW3, 4 to 7 CE0 to CE3 (Table PWR-1). -/
def domAt (s : State) (d : Nat) : Dom := s.power.doms.getD d {}

/-- A temperature site. -/
def siteAt (s : State) (n : Nat) : Site := s.power.sites.getD n {}

/-- The sub-domains that a site acts on (R356, R358). -/
def domsOfSite (n : Nat) : List Nat :=
  if n < 64 then [n / 8] else if n < 76 then [0, 1, 2, 3] else [4, 5, 6, 7]

/-- The sites that act on a sub-domain. -/
def sitesOfDom (d : Nat) : List Nat := (List.range 88).filter (fun n => (domsOfSite n).contains d)

/-- The floor voltage, the ceiling that nothing lowers, the default and the highest setpoint, in mV (R349). -/
def floorMv : Nat := 550
def topMv : Nat := 800
def defaultMv : Nat := 720

/-- The hardware ceiling of a sub-domain: the lowest of those that act (R349, R358). -/
def ceilingOf (s : State) (d : Nat) : Nat :=
  if s.power.pale || s.power.hwFloor || (domAt s d).red then floorMv
  else
    match (domAt s d).amber with
    | some a => a.2.1
    | none => topMv

/-- The voltage in effect: the lower of setpoint and ceiling; 0 with the rail off. -/
def voltage (s : State) (d : Nat) : Nat := min (domAt s d).setpoint (ceilingOf s d)

/-- ThermalState: the highest of any site (R358). -/
def thermalNow (s : State) : Nat :=
  if s.power.black then 3
  else if s.power.doms.any Dom.red then 2
  else if s.power.doms.any (fun (d : Dom) => d.amber.isSome) then 1 else 0

/-- After a change of ceilings: setpoints above their ceiling fall to it, and DomainVoltageMv and ThermalState report. -/
def settleVolts (s : State) : State :=
  let s := (List.range 8).foldl (fun s d => updDom s d (fun x => { x with setpoint := min x.setpoint (ceilingOf s d) })) s
  objPut ((List.range 8).foldl (fun s d => objPut s (Obj.domainVoltageMv + d) (voltage s d)) s) Obj.thermalState (thermalNow s)

/-- A ceiling rose: core 1 raises the setpoints from this moment on (R349). -/
def ceilingRose (s : State) (ds : List Nat) : State :=
  settleVolts (ds.foldl (fun s d => updDom s d (fun x => { x with last := s.now })) s)

/-! ### Pins (R419) -/

/-- Whether ALERT_N is asserted: while AlertPending is non-zero. -/
def alertLow (s : State) : Bool := objGet s Obj.alertPending != 0

/-- Whether SHDN_N is asserted: while Black or a leak holds it. -/
def shdnLow (s : State) : Bool := s.power.shdnBlack || s.power.shdnLeak

/-! ### The main input (R350, R351) -/

/-- A reading of the main input, in mV: SupplyVoltageMv, and SupplyMinMv, which reads as the current value until a lower one
has been seen. -/
def noteSupply (s : State) (mv : Int) : State :=
  let v := mv.toNat
  let low := objGet s Obj.supplyMinMv
  objPut (objPut s Obj.supplyVoltageMv v) Obj.supplyMinMv (if low = 0 then v else min low v)

/-- Converters that deliver. -/
def convertersOn (s : State) : Nat := ((List.range 8).filter (fun i => natBit i (objGet s Obj.convertersOk))).length

/-- The limit of input power: PowerCapW, and less with converters lost (R350). -/
def powerLimit (s : State) : Nat :=
  let cap := objGet s Obj.powerCapW
  if 8 ≤ convertersOn s then cap else if convertersOn s = 7 then min cap 1900 else min cap 1600

/-- Pale ends: its length is counted, and the ceilings return (Table PWR-2 step 5). -/
def endPale (s : State) : State :=
  let long := ceilDiv (s.now - s.power.paleSince) 1000000
  let s := objMax (objInc s Obj.paleEvents) Obj.paleLongestMs long
  ceilingRose (updPower s (fun p => { p with pale := false, paleTold := false })) (List.range 8)

/-- The module without power: only fuses and flash are kept (Table BOOT-4 code 1). Light and pins are as found. -/
def unpower (s : State) : State :=
  let s := mainOff s
  let keep := fun (k : Nat) => k == 0 || (match objRow k with
    | some r => r.kept
    | none => false)
  { s with dic := s.dic.filter (fun e => keep e.1), power := {}, mgmt := {}, iface := { baud := s.iface.baud },
           obs := { jring := s.obs.jring, bootCount := s.obs.bootCount }
           seqs := { trialFails := s.seqs.trialFails, straps := s.seqs.straps }
           sec := { bankA := s.sec.bankA, bankB := s.sec.bankB, identity := s.sec.identity, seedBurnt := s.sec.seedBurnt } }

/-! ### Sensors (R356, R357) -/

/-- The temperature of one pair of readings with the site's flags as they are. -/
def pairTemp (x : Site) (p : Int × Int) : Option Int :=
  if x.flag0 && x.flag1 then none
  else if x.flag0 then some p.2
  else if x.flag1 then some p.1
  else some (max p.1 p.2)

/-- The rate of a site in 0.1 °C/ms: the change of its temperature over the trailing 50 µs, or over the readings there are. -/
def siteRate (x : Site) : Int :=
  match x.hist, x.hist.getLast? with
  | p :: _, some q =>
    match pairTemp x p, pairTemp x q with
    | some a, some b => 25 * (a - b)
    | _, _ => 0
  | _, _ => 0

/-- Whether a reading lies outside −20 °C to 150 °C. -/
def outOfRange (r : Int) : Bool := decide (r < -160) || decide (1200 < r)

/-- Whether a sensor's reading changes by more than 10 °C within 20 µs while its partner changes by less than 2 °C. -/
def jumped (new newPartner : Int) (olds : List (Int × Int)) : Bool :=
  olds.any (fun (o : Int × Int) => decide (80 < (new - o.1).natAbs) && decide ((newPartner - o.2).natAbs < 16))

/-- The sensor flagged: ignored, journalled and on ALERT_N. -/
def flagSensor (s : State) (n sensor : Nat) : State :=
  journalAlert (updSite s n (fun x => if sensor = 0 then { x with flag0 := true } else { x with flag1 := true }))
    .sensorFlagged [n, sensor]

/-- The flags of R357 after new readings. -/
def checkSensors (s : State) (n : Nat) (olds : List (Int × Int)) (r0 r1 : Int) : State :=
  let x := siteAt s n
  let f0 := !x.flag0 && (outOfRange r0 || jumped r0 r1 olds)
  let f1 := !x.flag1 && (outOfRange r1 || jumped r1 r0 (olds.map Prod.swap))
  let s := if f0 then flagSensor s n 0 else s
  if f1 then flagSensor s n 1 else s

/-- The time a condition has held since: kept while it holds. -/
def heldSince (now : Nat) (old : Option Nat) (holds : Bool) : Option Nat :=
  if holds then some (old.getD now) else none

/-- The times the thresholds of Table THM-1 count from, after a reading. -/
def timeSite (s : State) (n : Nat) : State :=
  updSite s n (fun x =>
    let rate := siteRate x
    let amber : Int := (objGet s Obj.thermalAmberRate : Nat)
    let black : Int := (objGet s Obj.thermalBlackRate : Nat)
    let cool := match siteNow x with
      | some t => decide (t < 8 * ((objGet s Obj.thermalRedC : Nat) - 5 : Int))
      | none => false
    { x with amberSince := heldSince s.now x.amberSince (decide (amber ≤ rate)),
             blackSince := heldSince s.now x.blackSince (decide (black ≤ rate)),
             lowSince := heldSince s.now x.lowSince (decide (2 * rate < amber)),
             coolSince := heldSince s.now x.coolSince cool,
             agree := heldSince s.now x.agree (decide ((x.s0 - x.s1).natAbs ≤ 24)) })

/-- Whether every sensor that is not flagged reads below 60 °C (R360). -/
def allCool (s : State) : Bool :=
  s.power.sites.all (fun (x : Site) => (x.flag0 || decide (x.s0 < 480)) && (x.flag1 || decide (x.s1 < 480)))

/-- SiteTemp and ThermalHottestC. -/
def reportSite (s : State) (n : Nat) : State :=
  let s := match siteNow (siteAt s n) with
    | some t => objPut s (Obj.siteTemp + n) (codeOf 32 t)
    | none => s
  let temps := s.power.sites.filterMap siteNow
  match temps with
  | [] => s
  | t :: r => objPut s Obj.thermalHottestC (codeOf 32 (r.foldl max t / 8))

/-! ### Red and Black (R358, R360) -/

/-- A sub-domain enters Red: an entry is counted when it was not Red. -/
def redDom (s : State) (d : Nat) : State :=
  if (domAt s d).red then s else updDom (objInc s Obj.redEvents) d (fun x => { x with red := true })

/-- Whether hardware takes a site as Red at this reading: hot, or with both sensors flagged (R357, R358). -/
def siteHot (s : State) (x : Site) : Bool :=
  match siteNow x with
  | some t => decide (8 * ((objGet s Obj.thermalRedC : Nat) : Int) ≤ t)
  | none => true

/-- The Red comparison of a site. -/
def checkRed (s : State) (n : Nat) : State :=
  let x := siteAt s n
  if siteHot s x then settleVolts ((domsOfSite n).foldl redDom (updSite s n (fun x => { x with red := (siteNow x).isSome || x.red })))
  else s

/-- Whether a site still holds its sub-domains Red: both sensors flagged, or not yet 10 ms below the threshold. -/
def holdsRed (s : State) (n : Nat) : Bool :=
  let x := siteAt s n
  (x.flag0 && x.flag1)
    || (x.red && match x.coolSince with
        | some t => decide (s.now < t + ms 10)
        | none => true)

/-- Black (R360): every domain but always-on is switched off, SHDN_N is driven low, and the shutdown is counted and journalled
with the site, its readings and the trigger: 0 temperature, 1 rate. -/
def blackShutdown (s : State) (n trigger : Nat) : State :=
  if s.power.black then s
  else
    let x := siteAt s n
    let kept := s.mgmt
    let s := { mainOff s with mgmt := kept }
    let times := (s.power.blackTimes.filter (fun t => decide (s.now < t + 3600 * ms 1000))) ++ [s.now]
    let s := updPower s (fun p => { p with black := true, shdnBlack := true, blackTimes := times,
                                           autoSuspended := p.autoSuspended || decide (3 ≤ times.length) })
    let s := updSeqs s (fun q => { q with running := false, warmStep := 0, waitFrom := none, railRetryAt := none, recovery := false })
    let s := objPut (setStep (objInc s Obj.blackShutdowns) 3) Obj.moduleState 5
    settleVolts (journalAlert s .blackShutdown [n, codeOf 32 x.s0, codeOf 32 x.s1, trigger])

/-- The Black comparison of a site's temperature. -/
def checkBlack (s : State) (n : Nat) : State :=
  match siteNow (siteAt s n) with
  | some t => if 8 * ((objGet s Obj.thermalBlackC : Nat) : Int) ≤ t then blackShutdown s n 0 else s
  | none => s

/-- A site read (R356 to R360). -/
def readSite (s : State) (n : Nat) (r0 r1 : Int) : State :=
  let olds := (siteAt s n).hist.take 2
  let s := updSite s n (fun x => { x with s0 := r0, s1 := r1, hist := ((r0, r1) :: x.hist).take 6 })
  let s := reportSite (timeSite (checkSensors s n olds r0 r1) n) n
  let s := updPower s (fun p => { p with coolSince := heldSince s.now p.coolSince (allCool s) })
  checkBlack (checkRed s n) n

/-! ### Setpoints (R349, R350) -/

/-- The compute sites of a half. -/
def computeSites (h : Half) : List Nat := (List.range 32).map (fun i => 32 * halfIx h + i)

/-- Whether core 1 may boost a half. -/
def mayBoost (s : State) (h : Half) : Bool :=
  objGet s Obj.boostEnable == 1 && decide (7 ≤ convertersOn s)
    && decide (100 * objGet s Obj.inputPowerW ≤ 95 * objGet s Obj.powerCapW)
    && (computeSites h).all (fun n => match siteNow (siteAt s n) with
        | some t => decide (t < 680)
        | none => false)

/-- One adjustment of a setpoint by core 1: down 5 mV each 100 µs over the limit, up 5 mV each 250 µs towards its target. -/
def stepDom (h : Half) (s : State) (d : Nat) : State :=
  let x := domAt s d
  let target := min (if mayBoost s h then topMv else defaultMv) (ceilingOf s d)
  if x.setpoint = 0 then s
  else if powerLimit s < objGet s Obj.inputPowerW then
    if x.last + us 100 ≤ s.now then updDom s d (fun x => { x with setpoint := max floorMv (x.setpoint - 5), last := s.now }) else s
  else if target < x.setpoint then updDom s d (fun x => { x with setpoint := target, last := s.now })
  else if x.setpoint < target ∧ x.last + us 250 ≤ s.now then
    updDom s d (fun x => { x with setpoint := min target (x.setpoint + 5), last := s.now })
  else s

/-- A measurement of input power, with the times since it has been above its limit and 5 % below it (R350). -/
def notePower (s : State) (watts : Nat) : State :=
  let limit := powerLimit s
  updPower (objPut s Obj.inputPowerW (min 65535 watts)) (fun p =>
    { p with overSince := heldSince s.now p.overSince (decide (limit < watts)),
             underSince := heldSince s.now p.underSince (decide (100 * watts ≤ 95 * limit)) })

/-- Whether a time lies n ns back. -/
def lasted (now : Nat) (since : Option Nat) (n : Nat) : Bool := since.any (fun t => decide (t + n ≤ now))

/-- Core 1 of a half adjusts its four setpoints from a new measurement of input power. -/
def stepHalf (s : State) (h : Half) (watts : Nat) : State :=
  let s := notePower s watts
  if (s.cores.getD (4 * halfIx h + 1) {}).st ≠ 1 then s
  else settleVolts (((List.range 4).map (fun i => 4 * halfIx h + i)).foldl (stepDom h) s)

end Sys2Proof.Machine
end

