-- ==== Sys2Proof/Machine/Cores.lean ====
section
/-!
DEFINITION. Watchdogs of the control cores and of the supervisor (R199 to R202, Table CTL-2).
-/

namespace Sys2Proof.Machine

/-- A function applied to a control core: 0 to 3 of half W, 4 to 7 of half E. -/
def updCore (s : State) (i : Nat) (f : Core → Core) : State := { s with cores := modifyAt s.cores i f }

/-- A control core. -/
def coreAt (s : State) (i : Nat) : Core := s.cores.getD i {}

/-- Whether a core is the scheduler of its half (Table CTL-1). -/
def isSched (i : Nat) : Bool := i % 4 == 0

/-- SchedRestarting of every queue: set while a scheduler that serves it restarts. -/
def markScheds (s : State) : State :=
  { s with queues := s.queues.map (fun e => (e.1, { e.2 with schedRestarting :=
      (serves e.2.halves .w && (coreAt s 0).st == 2) || (serves e.2.halves .e && (coreAt s 4).st == 2) })) }

/-- A checkpoint that fails: CheckpointState 3, journalled, and issue resumes (R373). -/
def failCheckpoint (s : State) : State :=
  if s.seqs.ckptStep = 0 then s
  else takeDoorbells (journal (objPut (updSeqs s (fun q => { q with ckptStep := 0 })) Obj.checkpointState 3) .checkpointFailed [s.seqs.ckptStep])

/-- The times of a core's restarts in the last 10 minutes. -/
def recentRestarts (s : State) (i : Nat) : List Nat :=
  (coreAt s i).restarts.filter (fun t => decide (s.now < t + 600 * ms 1000))

/-- Core 2 of a half restarts: every rotor step of its 16 fibres that has not reached its switch is abandoned as an abort (R220). -/
def abortSteps (s : State) (first : Nat) : State :=
  (List.range 16).foldl (fun s i => if (rotorOf s (first + i)).phase = 0 then s else abortTold s (first + i)) s

/-- A core's watchdog expires: the core is held in reset, or the module restarts after three restarts in 10 minutes (R200,
R202). -/
def watchdog (s : State) (i pc : Nat) : State :=
  let times := recentRestarts s i
  if 3 ≤ times.length then autoWarm (journal s .coreRestartLimit [i, pc])
  else
    let s := journal (updCore s i (fun c => { c with st := 2, restarts := times ++ [s.now] })) .coreRestart [i, pc]
    let s := if i % 4 = 2 then abortSteps s (if i < 4 then 0 else 16) else s
    if isSched i then failCheckpoint (markScheds s) else s

/-- CORE_WATCHDOG_EXPIRE (R200): the core's image is checked, and reloaded when it differs, before the core runs
again. The supervisor reaches a core of half E over the bridge or the pilot link; without a path it stays as it is (R21). -/
def execCoreWatchdogExpire (core : Nat) (pc : Nat) (_imageOk : Bool) (s : State) : Res :=
  need (core < 8) (if (coreAt s core).st = 1 ∧ (core < 4 ∨ pathE s = true) then watchdog s core pc else s)

/-- A core has restarted (Table CTL-2 step 5): a scheduler takes the doorbells latched meanwhile (R201); core 3 of half W prints the monitor's prompt again (R439). -/
def coreBack (s : State) (i : Nat) : State :=
  let s := markScheds (objInc (updCore s i (fun c => { c with st := 1 })) (Obj.coreRestarts + i))
  let s := if isSched i then takeDoorbells s else s
  if i = 3 then emit s (.monitor "onal> ") else s

/-- CORE_RESTART_DONE (R200, R201). -/
def execCoreRestartDone (core : Nat) (s : State) : Res :=
  need (core < 8) (if (coreAt s core).st = 2 then coreBack s core else s)

/-- SUPERVISOR_WATCHDOG_EXPIRE (R199, Table BOOT-4): the always-on logic restarts, so what it measures over time begins anew;
the main domains, measurements and miss-event times are kept. -/
def execSupervisorWatchdogExpire (s : State) : Res :=
  .next (if s.power.on then
    let s := { s with iface := { s.iface with leakLast := [], dryHold := none, flowSince := none } }
    updPower s (fun p =>
      { p with coolSince := none, lowBankSince := none,
               sites := p.sites.map (fun (x : Site) =>
                 { x with hist := [], amberSince := none, blackSince := none, lowSince := none, coolSince := none, agree := none }) })
  else s)

end Sys2Proof.Machine
end

