-- ==== Sys2Proof/Machine/Power.lean ====
section
/-!
DEFINITION. The commands of power and heat (17, and the AUX input of R353): supply dips, supply resets, converters, setpoints,
the hold-up bank, sensor readings, Amber, Red and Black.
-/

namespace Sys2Proof.Machine

/-- PALE_ENTER (R351): the main input is below 42.0 V; a reading in Pale at or below 44.0 V restarts its 2 ms. -/
def execPaleEnter (mv : Nat) (s : State) : Res :=
  .next (if s.power.on ∧ s.power.mainOk ∧ !s.power.pale ∧ !s.power.black ∧ mv < 42000 ∧ 36000 ≤ mv then
    settleVolts (updPower (noteSupply s mv) (fun p => { p with pale := true, paleSince := s.now, paleLow := s.now, paleTold := false }))
  else if s.power.on ∧ s.power.pale ∧ 36000 ≤ mv then
    updPower (noteSupply s mv) (fun p => { p with paleLow := if mv ≤ 44000 then s.now else p.paleLow })
  else s)

/-- A restart that waits for Pale to end begins (R407). -/
def endPaleWait (s : State) : State := if s.seqs.coldPending then coldStart s 4 else s

/-- PALE_EXIT (R351): the input has stayed above 44.0 V for 2 ms. -/
def execPaleExit (mv : Nat) (s : State) : Res :=
  .next (if s.power.pale ∧ 44000 < mv ∧ s.power.paleLow + ms 2 ≤ s.now then endPaleWait (endPale (noteSupply s mv)) else s)

/-- PALE_LONG (R351): 10 s in Pale, told once. -/
def execPaleLong (s : State) : Res :=
  .next (if s.power.pale ∧ !s.power.paleTold ∧ s.power.paleSince + ms 10000 ≤ s.now then
    updPower (journalAlert s .paleLong [s.now - s.power.paleSince]) (fun p => { p with paleTold := true })
  else s)

/-- What a supply reset leaves: the supervisor on AUX waiting for the main input, or no power at all (R352, R353). A reset during
Black, or before the main input was first qualified, switches nothing more off (Table PWR-3). -/
def supplyDown (s : State) : State :=
  if s.power.aux = false then unpower s
  else if s.power.black then updPower s (fun p => { p with mainOk := false, intermediate := false, pale := false })
  else coldStart (updPower s (fun p => { p with mainOk := false, intermediate := false, pale := false })) 2

/-- MainInputState of a reading outside the operating range (Table MOD-19). -/
def inputState (mv : Int) : Nat := if mv < -1000 then 2 else if 62000 < mv then 3 else 0

/-- SUPPLY_RESET (R352): the input is below 36.0 V, or has been above 62.0 V for 10 µs. A reversed input is told as well
(Table MOD-18). -/
def execSupplyReset (mv : Int) (s : State) : Res :=
  .next (if s.power.on ∧ (mv < 36000 ∨ 62000 < mv) then
    let told := inputState mv = 2 ∧ objGet s Obj.mainInputState ≠ 2
    let s := objPut (noteSupply s mv) Obj.mainInputState (inputState mv)
    let s := if told then journalAlert s .mainReversed [1, 2] else s
    if s.power.mainOk ∨ s.power.intermediate then
      supplyDown (journal (objInc s Obj.supplyResets) .supplyReset [codeOf 32 mv])
    else s
  else s)

/-- AUX_LOSS (R353): AUX is below 10.8 V; without the intermediate bus the module is unpowered. -/
def execAuxLoss (s : State) : Res :=
  .next (if s.power.on ∧ s.power.aux then
    let s := updPower s (fun p => { p with aux := false })
    if s.power.intermediate then journalAlert (objPut s Obj.auxState 1) .auxLost [] else unpower s
  else s)

/-- AUX_RESTORE (R353): AUX is back at 10.8 V or more while the island runs from the intermediate bus. -/
def execAuxRestore (s : State) : Res :=
  .next (if s.power.on ∧ !s.power.aux ∧ !s.iface.efuseOpen then objPut (updPower s (fun p => { p with aux := true })) Obj.auxState 0 else s)

/-- CONVERTER_FAULT (R350): a converter stops delivering; with five or fewer, hardware sets the floor. -/
def execConverterFault (conv : Nat) (s : State) : Res :=
  need (conv < 8) (if s.power.on ∧ natBit conv (objGet s Obj.convertersOk) then
    let s := journalAlert (objBit s Obj.convertersOk conv false) .converterLost [conv]
    if convertersOn s ≤ 5 then settleVolts (updPower s (fun p => { p with hwFloor := true })) else s
  else s)

/-- POWER_LIMIT_OVERRUN (R350): input above the limit for 1 ms with one or two converters lost. -/
def execPowerLimitOverrun (s : State) : Res :=
  .next (if s.power.on ∧ 6 ≤ convertersOn s ∧ convertersOn s ≤ 7 ∧ lasted s.now s.power.overSince (ms 1) then settleVolts (updPower s (fun p => { p with hwFloor := true }))
  else s)

/-- POWER_LIMIT_RECOVER (R350): input 5 % below the limit for 10 ms; a floor set for five or fewer converters stays. -/
def execPowerLimitRecover (s : State) : Res :=
  .next (if s.power.hwFloor ∧ 6 ≤ convertersOn s ∧ lasted s.now s.power.underSince (ms 10) then ceilingRose (updPower s (fun p => { p with hwFloor := false })) (List.range 8)
  else s)

/-- SETPOINT_STEP (R349): core 1 of a half acts on the input power measured over the last 100 µs. -/
def execSetpointStep (half : Half) (watts : Nat) (s : State) : Res := .next (if s.power.on then stepHalf s half watts else s)

/-- COMMIT_DEFERRAL_RETRY (R354): the bank is measured again for a deferred step, which is deferred again below 0.60 J. -/
def execCommitDeferralRetry (mj : Nat) (s : State) : Res :=
  .next (if s.power.on then
    let s := objPut s Obj.holdUpMj (min 2000 mj)
    let low := decide (mj < stepMj)
    let s := updPower s (fun p => { p with lowBankSince := heldSince s.now p.lowBankSince low, lowBankTold := p.lowBankTold && low })
    if low ∧ !s.persist.isEmpty ∧ !s.power.pale then objInc s Obj.commitDeferrals else s
  else s)

/-- HOLD_UP_FAULT (R354): the bank has stayed below 0.60 J for 60 s, told once. -/
def execHoldUpFault (s : State) : Res :=
  .next (match s.power.lowBankSince with
  | some t =>
    if !s.power.lowBankTold ∧ t + ms 60000 ≤ s.now then
      updPower (journalAlert s .holdUpFault [objGet s Obj.holdUpMj]) (fun p => { p with lowBankTold := true })
    else s
  | none => s)

/-- SENSOR_READING (R356): both sensors of a site, in 1/8 °C. -/
def execSensorReading (site : Nat) (r0 r1 : Int) (s : State) : Res :=
  need (site < 88) (if s.power.on then readSite s site r0 r1 else s)

/-- SENSOR_UNFLAG (R357): the two sensors have agreed within 3 °C for 10 s. -/
def execSensorUnflag (site sensor : Nat) (s : State) : Res :=
  need (site < 88 && sensor < 2) (match (siteAt s site).agree with
  | some t =>
    if t + ms 10000 ≤ s.now then
      updSite s site (fun x => if sensor = 0 then { x with flag0 := false } else { x with flag1 := false })
    else s
  | none => s)

/-- Whether a site of a sub-domain has been at the Amber rate for 250 µs. -/
def amberDue (s : State) (d : Nat) : Bool :=
  (sitesOfDom d).any (fun n => match (siteAt s n).amberSince with
    | some t => decide (t + us 250 ≤ s.now)
    | none => false)

/-- AMBER_ENTER (R358): the ceiling is set 20 mV below the voltage in effect. -/
def execAmberEnter (dom : Nat) (s : State) : Res :=
  need (dom < 8) (if amberDue s dom ∧ (domAt s dom).amber.isNone ∧ 0 < (domAt s dom).setpoint then
    let c := max floorMv (voltage s dom - 20)
    settleVolts (updDom (objInc s Obj.amberEvents) dom (fun x => { x with amber := some (s.now, c, s.now) }))
  else s)

/-- AMBER_STEP (R358): 20 mV lower each 50 µs the rate stays at or above the limit. -/
def execAmberStep (dom : Nat) (s : State) : Res :=
  need (dom < 8) (match (domAt s dom).amber with
  | some (since, c, last) =>
    if last + us 50 ≤ s.now ∧ (sitesOfDom dom).any (fun n => (siteAt s n).amberSince.isSome) then
      settleVolts (updDom s dom (fun x => { x with amber := some (since, max floorMv (c - 20), last + us 50) }))
    else s
  | none => s)

/-- Whether the rate of every site of a sub-domain that has been read has been below half the Amber limit for 1 ms. -/
def amberOver (s : State) (d : Nat) : Bool :=
  (sitesOfDom d).all (fun n => match (siteAt s n).lowSince with
    | some t => decide (t + ms 1 ≤ s.now)
    | none => (siteAt s n).hist.isEmpty)

/-- AMBER_EXIT (R358): every site's rate has been below half the limit for 1 ms; the period is counted. -/
def execAmberExit (dom : Nat) (s : State) : Res :=
  need (dom < 8) (match (domAt s dom).amber with
  | some (since, _, _) =>
    if amberOver s dom then
      ceilingRose (updDom (objAdd s Obj.amberMs (ceilDiv (s.now - since) 1000000)) dom (fun x => { x with amber := none })) [dom]
    else s
  | none => s)

/-- RED_EXIT (R358): every site that triggered Red has been 5 °C below the threshold for 10 ms. -/
def execRedExit (dom : Nat) (s : State) : Res :=
  need (dom < 8) (if (domAt s dom).red ∧ (sitesOfDom dom).all (fun n => !holdsRed s n) then
    let s := updDom s dom (fun x => { x with red := false })
    let s := (sitesOfDom dom).foldl (fun s n =>
      updSite s n (fun x => { x with red := x.red && (domsOfSite n).any (fun d => (domAt s d).red) })) s
    ceilingRose s [dom]
  else s)

/-- BLACK_RATE_TRIGGER (R358, R360): the Black rate at every reading for 100 µs. -/
def execBlackRateTrigger (site : Nat) (s : State) : Res :=
  need (site < 88) (match (siteAt s site).blackSince with
  | some t => if s.power.on ∧ t + us 100 ≤ s.now then blackShutdown s site 1 else s
  | none => s)

/-- The restart after Black (R360): a cold start from step 4. -/
def leaveBlack (s : State) : State := coldStart (updPower s (fun p => { p with black := false })) 3

/-- THERMAL_AUTO_RESTART (R360): every sensor that is not flagged has read below 60 °C for 5 s. -/
def execThermalAutoRestart (s : State) : Res :=
  .next (match s.power.coolSince with
  | some t =>
    if s.power.black ∧ objGet s Obj.thermalAutoRestart = 1 ∧ !s.power.autoSuspended ∧ t + ms 5000 ≤ s.now then leaveBlack s else s
  | none => s)

/-- A restart that a request asked for begins, once its reply is on its way. -/
def runAsked (s : State) : State :=
  let a := s.seqs.asked
  let s := updSeqs s (fun q => { q with asked := 0 })
  match a with
  | 0 => s
  | 4 => if s.power.pale then updSeqs s (fun q => { q with coldPending := true }) else coldStart s 4
  | 5 => if s.power.black then leaveBlack s else s
  | n => startWarm s n

/-- A restart asked for. -/
def askRestart (s : State) (n : Nat) : State := updSeqs s (fun q => { q with asked := n })

/-- A write of ThermalRestart (R360). -/
def writeThermalRestart (r : Route) (v : Bytes) (s : State) : State :=
  runAsked (writeRow s r Obj.thermalRestart v true
    (fun s n => if n = 1 ∧ s.power.sites.any (fun (x : Site) => decide (480 ≤ x.s0) || decide (480 ≤ x.s1)) then 0x07 else 0)
    (fun s n => if n = 1 then askRestart (updPower s (fun p => { p with autoSuspended := false, blackTimes := [] })) 5 else s))

/-- THERMAL_RESTART_WRITE (R360): refused with busy while a sensor reads 60 °C or more; it ends the suspension of automatic
restarts and starts the module after Black. -/
def execThermalRestartWrite (r : Route) (v : Bytes) (s : State) : Res := .next (writeThermalRestart r v s)

end Sys2Proof.Machine
end

