-- ==== Sys2Proof/Machine/Startup.lean ====
section
/-!
DEFINITION. The commands of start-up, restarts and crossings (20), and of the warm restart (R376, R408).
-/

namespace Sys2Proof.Machine

/-! ### Power-up and the main input (R401, R402, R420) -/

/-- The link-local address of R337. -/
def linkLocal (s : State) : Nat := 169 * 2 ^ 24 + 254 * 2 ^ 16 + (16 + objGet s Obj.posId) * 2 ^ 8 + chip s % 256

/-- POS_ID read (R420): a change is journalled, and the link-local address in use follows it. -/
def posRead (s : State) : State :=
  let new := s.seqs.straps % 16
  let s := match smGet s.dic Obj.posId with
    | some old => if old = new then s else journal s .posIdChanged [old, new]
    | none => s
  let s := objPut s Obj.posId new
  if !s.mgmt.lease ∧ objGet s Obj.mgmtIpv4 ≠ 0 then objPut s Obj.mgmtIpv4 (linkLocal s) else s

/-- A start from power-up with both inputs absent before (Table BOOT-4 code 1). -/
def powerUp (s : State) (straps : Nat) (aux : Bool) : State :=
  let s := updPower s (fun p => { p with on := true, aux := aux, intermediate := !aux })
  let s := objPut (objPut s Obj.lastResetSource 1) Obj.auxState (if aux then 0 else 1)
  beginCold (updSeqs s (fun q => { q with straps := straps })) false

/-- AUX_POWER_UP (R401): AUX reaches 10.8 V or more. -/
def execAuxPowerUp (straps : Nat) (s : State) : Res := .next (if s.power.on then s else powerUp s straps true)

/-- INTERMEDIATE_BUS_UP (R401, R353): with AUX absent, the intermediate bus comes up. -/
def execIntermediateBusUp (straps : Nat) (s : State) : Res := .next (if s.power.on then s else powerUp s straps false)

/-- The start's wait for the main input ends. -/
def endWait (s : State) : State :=
  match s.seqs.waitFrom with
  | none => s
  | some t =>
    let s := updSeqs s (fun q => { q with waitFrom := none, waitNs := q.waitNs + (s.now - t) })
    if s.seqs.fromFour then posRead s else s

/-- MAIN_INPUT_QUALIFIED (R402): the main input has stayed within 42.0–60.0 V for 100 ms. -/
def execMainInputQualified (straps : Nat) (s : State) : Res :=
  .next (if s.power.on then
    let s := updPower s (fun p => { p with mainOk := true, intermediate := true })
    endWait (updSeqs (objPut s Obj.mainInputState 1) (fun q => { q with straps := straps }))
  else s)

/-! ### The steps of Table BOOT-1 -/

/-- The step after the last one completed (Table BOOT-1, Table BOOT-2). -/
def stepAfter (s : State) : Nat :=
  let n := s.seqs.startStep
  if (n = 5 ∧ !s.seqs.halfE) ∨ (n = 6 ∧ objGet s Obj.bridgeState = 2) then 8 else n + 1

/-- Whether images are of the types in a list, in order. -/
def typesAre (is : List ImageInfo) (ts : List Nat) : Bool := is.map ImageInfo.imageType == ts

/-- Step 2: Meas0, the pilot link, POS_ID, and the boot bank (R384, R385, R406); a Scrapped module goes no further (R396). -/
def stepTwo (s : State) (trained : Bool) : State :=
  let s := posRead (objPut (chainStart s false) Obj.pilotState (boolNat trained))
  let s := setStep s 2
  if objGet s Obj.lifecycleState = 4 then updSeqs s (fun q => { q with running := false }) else chooseBank s

/-- Step 3: the type 1 image (R384). -/
def stepThree (s : State) (is : List ImageInfo) : State :=
  match verifyImages s is with
  | some t => bootFailed s t false
  | none =>
    let s := setStep (acceptImages s is) 3
    updSeqs s (fun q => { q with needFirst := false, waitFrom := if s.power.mainOk then none else some s.now })

/-- Step 4: the rails, and the hold-up bank's energy. -/
def stepFour (s : State) (mj : Nat) : State :=
  let low := decide (mj < stepMj)
  let s := updPower s (fun p =>
    { p with doms := p.doms.map (fun (d : Dom) => { d with setpoint := defaultMv, last := s.now }), shdnBlack := false,
             lowBankSince := heldSince s.now p.lowBankSince low, lowBankTold := p.lowBankTold && low })
  settleVolts (setStep (objPut s Obj.holdUpMj (min 2000 mj)) 4)

/-- A rail that failed in step 4 (Table BOOT-2). -/
def railFail (s : State) (d : Nat) : State :=
  let s := updSeqs (journalAlert (railsOff s) .railFailed [d]) (fun q => { q with railFails := q.railFails + 1 })
  if 2 ≤ s.seqs.railFails then updSeqs s (fun q => { q with running := false, railRetryAt := none })
  else updSeqs s (fun q => { q with railRetryAt := some (s.now + ms 1000) })

/-- Step 5: the other images, and the cores (R384, Table BOOT-2). -/
def stepFive (s : State) (is : List ImageInfo) : State :=
  match verifyImages s is with
  | some t => bootFailed s t true
  | none =>
    let s := bankBooted (acceptImages s is)
    setStep (updSeqs (coresRun s (objGet s Obj.pilotState == 1)) (fun q => { q with needFirst := false })) 5

/-- Whether step 4 may run: main input qualified, no rail retry pending. -/
def mayRamp (s : State) : Bool := s.power.mainOk && s.seqs.waitFrom.isNone && s.seqs.railRetryAt.isNone

/-- A step completed, if it is the step that is due. -/
def startStepDone (s : State) (o : StepOutcome) : State :=
  match stepAfter s, o with
  | 1, .ok => setStep s 1
  | 2, .ok => stepTwo s true
  | 2, .pilotUntrained => stepTwo s false
  | 3, .images is => if typesAre is [1] then stepThree s is else s
  | 4, .rails mj => if mayRamp s then stepFour s mj else s
  | 4, .railFailed d => if mayRamp s then railFail s d else s
  | 5, .images is => if typesAre is (if s.seqs.needFirst then [1, 2, 3, 4, 5, 6] else [2, 3, 4, 5, 6]) then stepFive s is else s
  | 6, .wires failed =>
    let s := trainBridge s failed
    setStep (if objGet s Obj.bridgeState = 2 then noRegion s else s) 6
  | 7, .channels failed => setStep (trainMemory (hardRepair s) failed) 7
  | 8, .ok => if objGet s Obj.memState = 2 then coldDone (setStep s 8) else setStep s 8
  | 9, .lasers es => setStep (examineLasers s es) 9
  | 10, .rings unlocked again => setStep (sweepAll s unlocked again true) 10
  | 11, .ok => setStep s 11
  | 12, .ok => setStep (applyIntended s) 12
  | 13, .ok => setStep s 13
  | 14, .ok => coldDone (setStep s 14)
  | _, _ => s

/-- STARTUP_STEP_DONE (R401). -/
def execStartupStepDone (o : StepOutcome) (s : State) : Res := .next (if s.power.on ∧ s.seqs.running then startStepDone s o else s)

/-- RAIL_RETRY (Table BOOT-2): step 4 is retried 1 s after a rail failed. -/
def execRailRetry (s : State) : Res :=
  .next (match s.seqs.railRetryAt with
  | some t => if t ≤ s.now then updSeqs s (fun q => { q with railRetryAt := none }) else s
  | none => s)

/-- Milliseconds of a start that is still running, without its waits. -/
def runningMs (s : State) : Nat := ((s.seqs.waitFrom.getD s.now) - s.seqs.startPoint - s.seqs.waitNs) / 1000000

/-- STARTUP_OVERRUN (R401): a start beyond 14 s, counted once. -/
def execStartupOverrun (s : State) : Res :=
  .next (if s.seqs.running ∧ !s.seqs.overTold ∧ 14000 < runningMs s then
    updSeqs (journal (objInc s Obj.startupOverruns) .startOverrun [s.seqs.startStep]) (fun q => { q with overTold := true })
  else s)

/-- PILOT_TRAIN_RETRY (R406): every 100 ms until step 5 while the pilot link is untrained. -/
def execPilotTrainRetry (trained : Bool) (s : State) : Res :=
  .next (if s.seqs.running ∧ objGet s Obj.pilotState = 0 ∧ 2 ≤ s.seqs.startStep ∧ s.seqs.startStep < 5 ∧ trained then
    objPut s Obj.pilotState 1
  else s)

/-- A write of ColdRestart (R405, R407). -/
def writeColdRestart (r : Route) (v : Bytes) (s : State) : State :=
  runAsked (writeRow s r Obj.coldRestart v false
    (fun s n => if n = 1 ∧ (objGet s Obj.moduleState = 0 ∨ objGet s Obj.moduleState = 4) then 0x0B else 0)
    (fun s n => if n = 1 then askRestart s 4 else s))

/-- COLD_RESTART_WRITE (R405, R407). -/
def execColdRestartWrite (r : Route) (v : Bytes) (s : State) : Res := .next (writeColdRestart r v s)

/-- TRIAL_READY_TIMEOUT (R389): a trial that is not Ready within its bound ends with a cold start from the previous bank. -/
def execTrialReadyTimeout (s : State) : Res :=
  .next (if s.seqs.trial ∧ ((s.seqs.running ∧ 14000 < runningMs s)
      ∨ (objGet s Obj.moduleState = 4 ∧ s.seqs.warmSince + ms 8000 < s.now)) then
    beginCold (trialFailed s) true
  else s)

/-! ### Crossings (R413, R414) -/

/-- A facet's links send again every flit they still owe. -/
def facetResend (s : State) (f : Nat) : State :=
  (List.range 64).foldl (fun s k =>
    if (linkOf s k).outLanes.any (fun (l : Lane) => l.fibre / 8 == f) then
      (linkOf s k).unacked.foldl (fun s (u : Unacked) => resendFlit s k u.seq) s
    else s) s

/-- CROSSING_DRAIN_TIMEOUT (R414): an island's FIFOs have not emptied within 10 µs of its retraining; what is owed ends by its block's
rule, and the crossings are reset. -/
def execCrossingDrainTimeout (island : Island) (s : State) : Res :=
  .next (match island with
  | .channel c =>
    match (chanOf s c).dim with
    | some (.retrain, t) => if t + us 10 ≤ s.now then islandReset (failReads s c) island else s
    | _ => s
  | .facet f => islandReset (facetResend s f) island
  | .bundle _ => islandReset s island
  | .hostPhy => islandReset s island
  | .pilot => islandReset s island
  | .mac => islandReset s island
  | .uart => islandReset s island)

/-! ### Warm restart (R376, R377, R408) -/

/-- A write of WarmRestart (R376, Table BOOT-3, R25). -/
def writeWarmRestart (r : Route) (v : Bytes) (s : State) : State :=
  runAsked (ask s r false 0x02 Obj.warmRestart v (fun s role =>
    match numCheck s role Obj.warmRestart v none with
    | .inl e => ⟨s, e, []⟩
    | .inr (row, n) =>
      let st := objGet s Obj.moduleState
      if n = 1 ∧ (st = 0 ∨ st = 4) then ⟨s, 0x0B, []⟩
      else if n = 1 ∧ st = 2 ∧ role = .host then ⟨s, 0x05, []⟩
      else
        let s := applyNum s r role row Obj.warmRestart n
        ⟨if n = 1 then askRestart s (if st = 2 then 3 else 1) else s, 0, []⟩))

/-- WARM_RESTART_WRITE (R376): in state 2 the Manager or Vendor role may restart the module. -/
def execWarmRestartWrite (r : Route) (v : Bytes) (s : State) : Res := .next (writeWarmRestart r v s)

/-- The last step of a warm restart completed. -/
def warmStepTo (s : State) (n : Nat) : State := updSeqs s (fun q => { q with warmStep := n })

/-- Step 3: the dies are reset, and a boot chain begins (Table REL-4). -/
def warmReset (s : State) : State :=
  let s := objPut (dieReset s false) Obj.moduleState 4
  chooseBank (chainStart s false)

/-- Step 4: all six images are verified again. -/
def warmVerify (s : State) (is : List ImageInfo) : State :=
  match verifyImages s is with
  | some t => bootFailed s t true
  | none => warmStepTo (bankBooted (acceptImages s is)) 4

/-- A step of the warm restart completed, if it is the step that is due (Table REL-4). -/
def warmStepDone (s : State) (o : StepOutcome) : State :=
  match s.seqs.warmStep + 1, o with
  | 1, .ok => warmStepTo s 1
  | 2, .ok => warmStepTo s 2
  | 3, .ok => warmStepTo (warmReset s) 3
  | 4, .images is => if typesAre is [1, 2, 3, 4, 5, 6] then warmVerify s is else s
  | 5, .ok => warmStepTo (coresRun (objPut s Obj.pilotState 1) true) 5
  | 5, .pilotUntrained => warmStepTo (coresRun (objPut s Obj.pilotState 0) false) 5
  | 6, .wires failed =>
    let s := trainBridge s failed
    warmStepTo (if objGet s Obj.bridgeState = 2 then noRegion s else s) 6
  | 7, .channels failed =>
    let s := warmStepTo (trainMemory s failed) 7
    if objGet s Obj.memState = 2 then objPut s Obj.moduleState 3 else s
  | 8, .ok => warmStepTo s 8
  | 9, .reup es unlocked again => warmStepTo (applyIntended (sweepAll (examineLasers s es) unlocked again false)) 9
  | 10, .ok => warmStepTo (warmDone s) 10
  | _, _ => s

/-- WARM_RESTART_STEP_DONE (R376). -/
def execWarmRestartStepDone (o : StepOutcome) (s : State) : Res :=
  .next (if s.power.on ∧ objGet s Obj.moduleState = 4 then warmStepDone s o else s)

end Sys2Proof.Machine
end

