-- ==== Sys2Proof/Machine/Reliability.lean ====
section
/-!
DEFINITION. Known-answer runs (R371, R372) and the checkpoint assist (R373 to R375).
-/

namespace Sys2Proof.Machine

/-! ### Known-answer runs -/

/-- Whether a known-answer run may start on an array: due, in service, between two descriptors, and issue is not stopped (R371,
R379). -/
def katDue (s : State) (nn : Nat) : Bool :=
  let a := s.arrays.getD nn {}
  isReady s && s.seqs.ckptStep == 0 && (coreAt s (4 * halfIx (halfOf64 nn))).st == 1 && !arrayRetired s nn && a.run.isNone && a.leaving.isNone
    && decide (a.katLast + objGet s Obj.katPeriodS * ms 1000 ≤ s.now)

/-- A run that agreed with its signatures. The run has used the weight registers. -/
def katPassed (s : State) (nn : Nat) : State :=
  updArray (objInc s Obj.katRuns) nn (fun a =>
    { a with
      katLast := s.now
      katFails := 0
      katSeed := (a.katSeed + 1) % 256
      active := none
      standby := none })

/-- A run that failed: repeated at once with the same seed; a second failure in a row retires the array. -/
def katFailed (s : State) (nn pass : Nat) : State :=
  let s := journal (objInc (objInc s Obj.katRuns) Obj.katFailures) .katFailed [nn, (s.arrays.getD nn {}).katSeed, pass]
  let s := missEvent (updArray s nn (fun a => { a with katFails := a.katFails + 1, active := none, standby := none })) nn
  if 2 ≤ (s.arrays.getD nn {}).katFails then retireArray s nn else s

/-- KAT_RUN (R371). -/
def execKatRun (nn : Nat) (failedPass : Option Nat) (s : State) : Res :=
  need (nn < 64) (if katDue s nn then
    (match failedPass with
    | none => katPassed s nn
    | some p => katFailed s nn p)
  else s)

/-! ### Checkpoint (R373) -/

/-- A write of CheckpointNow (R373). -/
def writeCheckpointNow (r : Route) (v : Bytes) (s : State) : State :=
  writeRow s r Obj.checkpointNow v false
    (fun s n =>
      if n ≠ 1 then 0
      else if objGet s Obj.moduleState = 4 ∨ s.seqs.ckptStep ≠ 0 then 0x07
      else if !isReady s then 0x0B else 0)
    (fun s n => if n = 1 then
      objPut (updSeqs s (fun q => { q with ckptStep := 2, ckptSince := s.now })) Obj.checkpointState 1 else s)

/-- CHECKPOINT_NOW (R373): refused with busy during a warm restart or a checkpoint, with not-ready before Ready. -/
def execCheckpointNow (r : Route) (v : Bytes) (s : State) : Res := .next (writeCheckpointNow r v s)

/-- Whether every issued descriptor of the running queues and every active collective has completed. -/
def quiet (s : State) : Bool :=
  s.queues.all (fun e => e.2.state != 1 || e.2.outstanding == 0) && !s.colls.any (fun (x : Coll) => x.active)

/-- CheckpointBase. -/
def ckptBase (s : State) : Nat := objGet s Obj.checkpointBase

/-- Size of the area (R374). -/
def ckptSize : Nat := 644 * 1048576

/-- CHECKPOINT_QUIESCED (Table REL-2 steps 2 and 3): the header's Valid bit is cleared. -/
def execCheckpointQuiesced (s : State) : Res :=
  .next (if s.seqs.ckptStep = 2 ∧ quiet s then
    updSeqs { s with lpddr := memStore s.lpddr (ckptBase s) (natLe 8 (clearNatBit 32 (ckptHeader s))) }
      (fun q => { q with ckptStep := 3 })
  else s)

/-- CHECKPOINT_QUIESCE_TIMEOUT (R373). -/
def execCheckpointQuiesceTimeout (s : State) : Res :=
  .next (if s.seqs.ckptStep = 2 ∧ s.seqs.ckptSince + ms (objGet s Obj.checkpointQuiesceMs) ≤ s.now then failCheckpoint s else s)

/-! ### The area (Table REL-3) -/

/-- Memory with the cells of a range replaced by those of other cells that lie in it. -/
def memSplice (m : Mem) (lo hi : Nat) (cells : Mem) : Mem :=
  m.filter (fun c => decide (c.1 < lo)) ++ cells.filter (fun c => decide (lo ≤ c.1) && decide (c.1 < hi)) ++ m.filter (fun c => decide (hi ≤ c.1))

/-- A set of numbers with those of a range replaced by those of another set that lie in it. -/
def nsSplice (ns : List Nat) (lo hi : Nat) (new : List Nat) : List Nat :=
  ns.filter (fun n => decide (n < lo)) ++ new.filter (fun n => decide (lo ≤ n) && decide (n < hi)) ++ ns.filter (fun n => decide (hi ≤ n))

/-- Offsets of the parts of the area. -/
def areaEsc : Nat := 0x1000
def areaSync : Nat := 0x5000
def areaTile : Nat := 0x100000
def areaBanks : Nat := 0x24100000
def areaTrees : Nat := 0x26100000
def bankBytes : Nat := 262144
def treeBytes : Nat := 278528

/-- A tree as the area holds it (R89): 136 B, the 8-B header with RowCount and Excluded and 16 entries of 8 B, each laid out as
in the column record; an empty entry holds the mode's identity and RowIndex 0xFFFF_FFFF. -/
def treeImage (x : Option BankMeta) (t : Tree) : Bytes :=
  let none_ := match x with
    | some b => identityOf b.mode (arrFmt b.fmt).isInt
    | none => 0
  natLe 8 (t.rowCount % 2 ^ 32 + t.excluded % 2 ^ 32 * 2 ^ 32)
    ++ (List.range 16).flatMap (fun i =>
      match t.entries[i]? with
      | some e => natLe 8 (e.value.toNat + e.row % 2 ^ 32 * 2 ^ 32)
      | none => natLe 8 (none_ + 0xFFFFFFFF * 2 ^ 32))

/-- A tree from the area. -/
def treeFrom (m : Mem) (at_ : Nat) : Tree :=
  let w := fun i => leNat (memBytes m (at_ + 8 * i) 8)
  { rowCount := w 0 % 2 ^ 32, excluded := w 0 / 2 ^ 32
    entries := ((List.range 16).filter (fun i => w (1 + i) / 2 ^ 32 != 0xFFFFFFFF)).map (fun i =>
      { value := BitVec.ofNat 32 (w (1 + i)), row := w (1 + i) / 2 ^ 32 }) }

/-- Memory with the values of a bank written at its place. -/
def storeBank (base : Nat) (m : Mem) (x : ArrayUnit × Nat) : Mem :=
  (List.range 2).foldl (fun m b =>
    let at_ := base + areaBanks + (2 * x.2 + b) * bankBytes
    let m := (x.1.banks.getD b []).foldl (fun m e => memStore m (at_ + 4 * e.1) (natLe 4 e.2.value.toNat)) m
    let at_ := base + areaTrees + (2 * x.2 + b) * treeBytes
    (x.1.trees.getD b []).foldl (fun m e => memStore m (at_ + 136 * e.1) (treeImage (x.1.bankMeta.getD b none) e.2)) m) m

/-- Lines of the area that carry a bank value's poison tag. -/
def bankPoison (base : Nat) (x : ArrayUnit × Nat) : List Nat :=
  (List.range 2).flatMap (fun b =>
    ((x.1.banks.getD b []).filter (fun e => e.2.tag)).map (fun e => (base + areaBanks + (2 * x.2 + b) * bankBytes + 4 * e.1) / 64))

/-- Every region copied to the area, and the header written last. -/
def copyOut (s : State) (epoch : Nat) : State :=
  let base := ckptBase s
  let m := memSplice s.lpddr base (base + ckptSize) (s.tile.map (fun c => (base + areaTile + c.1, c.2)))
  let m := memStore m (base + areaEsc) (escImage s)
  let m := s.sync.foldl (fun m e => memStore m (base + areaSync + 8 * e.1) (natLe 8 e.2.toNat)) m
  let m := s.arrays.zipIdx.foldl (storeBank base) m
  let m := memStore m base (natLe 8 (epoch + 2 ^ 32) ++ natLe 8 (chip s) ++ natLe 8 (objGet s Obj.arrayRetiredMap)
    ++ natLe 8 (objGet s Obj.firmwareVersion))
  let p := nsSplice s.lpddrPoison (base / 64) ((base + ckptSize) / 64) (s.tilePoison.map (fun l => (base + areaTile) / 64 + l))
  let p := (s.arrays.zipIdx.flatMap (bankPoison base)).foldl nsAdd p
  { s with lpddr := m, lpddrPoison := p, lpddrBad := nsSplice s.lpddrBad (base / 64) ((base + ckptSize) / 64) [] }

/-- CHECKPOINT_COPY_DONE (Table REL-2 steps 3 and 4): not during a Dim period, which the copy meets on every channel (R170, R176). -/
def execCheckpointCopyDone (s : State) : Res :=
  .next (if s.seqs.ckptStep = 3 ∧ s.chans.all (fun (c : Chan) => c.dim.isNone) then
    let epoch := (objGet s Obj.checkpointEpoch + 1) % 2 ^ 32
    let s := copyOut s epoch
    takeDoorbells (objPut (objPut (updSeqs s (fun q => { q with ckptStep := 0 })) Obj.checkpointEpoch epoch) Obj.checkpointState 2)
  else s)

/-! ### Restore (R375) -/

/-- The cells of memory in a range. -/
def memSlice (m : Mem) (lo n : Nat) : Mem := m.filter (fun c => decide (lo ≤ c.1) && decide (c.1 < lo + n))

/-- The indices of the records of a size that hold a listed byte. -/
def recordsIn (cells : Mem) (lo size : Nat) : List Nat := (cells.map (fun c => (c.1 - lo) / size)).dedup

/-- The poisoned lines of a range. -/
def badLines (s : State) (lo n : Nat) : List Nat :=
  (s.lpddrPoison ++ s.lpddrBad).filter (fun l => decide (lo ≤ 64 * l) && decide (64 * l < lo + n))

/-- A bank from the area: a poisoned line tags its sixteen values. -/
def bankFrom (s : State) (at_ : Nat) : SMap BankVal :=
  let keys := recordsIn (memSlice s.lpddr at_ bankBytes) at_ 4
    ++ (badLines s at_ bankBytes).flatMap (fun l => (List.range 16).map (fun i => (64 * l - at_) / 4 + i))
  keys.foldl (fun m k =>
    smSet m k ⟨BitVec.ofNat 32 (leNat (memBytes s.lpddr (at_ + 4 * k) 4)), linePoison s (at_ + 4 * k)⟩) []

/-- The trees of a bank from the area. -/
def treesFrom (s : State) (at_ : Nat) : SMap Tree :=
  (recordsIn (memSlice s.lpddr at_ treeBytes) at_ 136).foldl (fun m k => smSet m k (treeFrom s.lpddr (at_ + 136 * k))) []

/-- An array's banks and trees from the area. DESIGN CHOICE (log entry 17): the area names no last writer of a bank, and none is
kept. -/
def arrayFrom (s : State) (x : ArrayUnit × Nat) : ArrayUnit :=
  let at_ := fun (off size b : Nat) => ckptBase s + off + (2 * x.2 + b) * size
  { x.1 with banks := [bankFrom s (at_ areaBanks bankBytes 0), bankFrom s (at_ areaBanks bankBytes 1)]
             trees := [treesFrom s (at_ areaTrees treeBytes 0), treesFrom s (at_ areaTrees treeBytes 1)]
             bankMeta := [none, none] }

/-- Every region copied back. -/
def copyIn (s : State) : State :=
  let base := ckptBase s
  let s' := escImageApply s (rawBytes s (base + areaEsc) 16384)
  { s' with
    tile := (memSlice s.lpddr (base + areaTile) tileSize).map (fun c => (c.1 - (base + areaTile), c.2))
    tilePoison := sortNat (((badLines s (base + areaTile) tileSize).map (fun l => l - (base + areaTile) / 64)).dedup)
    sync := (recordsIn (memSlice s.lpddr (base + areaSync) 262144) (base + areaSync) 8).foldl (fun m k =>
      smSet m k (BitVec.ofNat 64 (leNat (memBytes s.lpddr (base + areaSync + 8 * k) 8)))) []
    arrays := s.arrays.zipIdx.map (arrayFrom s) }

/-- Whether a restore is accepted. -/
def mayRestore (s : State) : Bool :=
  isReady s && s.queues.isEmpty && objGet s Obj.checkpointState == 2
    && leNat (memBytes s.lpddr (ckptBase s + 8) 8) % 2 ^ 14 == objGet s Obj.chipNumber

/-- A write of CheckpointRestore (R375). -/
def writeCheckpointRestore (r : Route) (v : Bytes) (s : State) : State :=
  writeRow s r Obj.checkpointRestore v false
    (fun s n => if n = 1 ∧ !mayRestore s then 0x08 else 0)
    (fun s n => if n = 1 then copyIn s else s)

/-- CHECKPOINT_RESTORE (R375). -/
def execCheckpointRestore (r : Route) (v : Bytes) (s : State) : Res := .next (writeCheckpointRestore r v s)

end Sys2Proof.Machine
end

