-- ==== Sys2Proof/Machine/Images.lean ====
section
/-!
DEFINITION. What a read of an object returns: values that are computed when they are read, and the images of DOMAIN objects
(R224, R228, R271, R308, R369, R385, R437, R438 and the object tables).
-/

namespace Sys2Proof.Machine

/-! ### Numbers (Table DIC-8 and the object tables) -/

/-- Bits set in a run of bytes. -/
def bitsSet (b : Bytes) : Nat := (b.map (fun x => ((List.range 8).filter (fun i => natBit i x.toNat)).length)).sum

/-- Whether a key is one of a run of sub-indices. -/
def inRun (k first : Nat) : Bool := decide (first ≤ k) && decide (k < first + 64)

/-- ArrayStepRateMin (Table ARR-10): 0 where no array in service ended 10 us of running within the last 1 ms, and else the lowest
measured step rate, which no rule states (a free value). DEDUCED (log entry 17): an array's 10-us intervals start where it starts
to run, and the object is brought up to date at every read. -/
def stepRateMin (s : State) : Nat :=
  if (s.arrays.zipIdx).any (fun x => !arrayRetired s x.2
      && (match ranUntil x.1 s.now with
        | some t => decide (s.now ≤ t + ms 1)
        | none => false)) then
    (freeNow s).toNat % 65536
  else 0

/-- The value a numeric object reads as. Values that hardware forms from its state are computed here; the others are stored. -/
def objRead (s : State) (k : Nat) : Nat :=
  if inRun k Obj.linkTxPackets || inRun k Obj.linkRxPackets || k == Obj.poweredMs || k == Obj.progressLossMs then counterNow s (k, none)
  else if inRun k Obj.linkPeer then linkPeer s (k - Obj.linkPeer)
  else if inRun k Obj.linkLanes then linkLanes s (k - Obj.linkLanes)
  else if k = Obj.mgmtMacAddress then Config.macAddress % 2 ^ 48
  else if k = Obj.localTimeNs then s.now - s.coldAt
  else if k = Obj.journalPending then min 65535 s.obs.jbuf.length
  else if k = Obj.journalOldestSeq then
    (match s.obs.jring with
    | e :: _ => e.seq
    | [] => (freeNow s).toNat)
  else if k = Obj.persistPending then s.persist.length
  else if k = Obj.sessionsOpen then (s.mgmt.sessions.filter Session.opened).length
  else if k = Obj.plcaNodeId then 1 + objGet s Obj.posId % 16
  else if k = Obj.queuesLaunched then s.queues.length
  else if k = Obj.waitsPendingW then waitsIn s .w
  else if k = Obj.waitsPendingE then waitsIn s .e
  else if k = Obj.windowsInUse then s.windows.length
  else if k = Obj.replayCacheEntries then s.replay.length
  else if k = Obj.replayLifetimeUs then replayLifetime s
  else if k = Obj.collActiveW then activeIn s .w
  else if k = Obj.collActiveE then activeIn s .e
  else if k = Obj.collSlotsInUseW then slotsIn s .w
  else if k = Obj.collSlotsInUseE then slotsIn s .e
  else if k = Obj.arraysInService then inService s
  else if k = Obj.arrayStepRateMin then stepRateMin s
  else if k = Obj.ringsLocked then ringsLocked s
  else if k = Obj.ringsRetired then bitsSet (domGet s Obj.ringRetiredMap)
  else if k = Obj.laneDemandUnmet then demandUnmet s
  else if k = Obj.pageRequestsOutstanding then s.host.pageReqs.length
  else if k = Obj.oldEpochPackets then oldEpochPackets s
  else if k = Obj.routeSalt then routeSalt s
  else if k = Obj.bankState then bankStateObj s
  else objGet s k

/-- The bytes of a text. -/
def textBytes (t : String) : Bytes := t.toList.map (fun c => BitVec.ofNat 8 c.toNat)

/-! ### The identity key (R392) -/

/-- s, from the fuse seed and the key of the physically unclonable source. -/
def identitySecret : Bytes := sha256 (textBytes "HVX-ID" ++ Config.fuseSeed ++ Config.pufKey)

/-- sk_seed, sk_prf and pk_seed. -/
def skSeed : Bytes := identitySecret.take 16
def skPrf : Bytes := identitySecret.drop 16
def pkSeed : Bytes := (sha256 (textBytes "HVX-PK" ++ identitySecret)).take 16

/-- IdentityPublicKey. -/
def identityKey : Bytes := Config.slhPublic skSeed skPrf pkSeed

/-- A signature with the identity key. -/
def signReport (m : Bytes) : Bytes := Config.slhSign skSeed skPrf pkSeed m

/-- The value of a STR object (Table DIC-8). -/
def strRead (k : Nat) : Bytes :=
  if k = Obj.vendorName then textBytes "Hexvecon"
  else if k = Obj.productCode then textBytes "HVD2-1152-LC"
  else Config.serial

/-! ### Images -/

/-- One entry of SpectralMap (Table OPT-9). -/
def specEntry (s : State) (x : MapEntry × Nat) : Bytes :=
  let e := x.1
  let dark := !(e.lineState == 1 || e.lineState == 2 || e.lineState == 3)
  let age := if e.lineState = 1 then 0 else min 65535 ((s.now - e.reported) / 1000000)
  natLe 8 (e.chip % 2 ^ 14 + e.inFibre % 32 * 2 ^ 14 + boolNat e.valid * 2 ^ 19 + e.lineState % 8 * 2 ^ 20
    + (if dark then 0 else e.link % 64 * 2 ^ 23 + e.lane % 128 * 2 ^ 29) + boolNat (isDirect s (x.2 / 17)) * 2 ^ 36 + age * 2 ^ 40)

/-- One entry of SendWindowTable (Table FAB-2). -/
def windowEntry (w : Option Window) : Bytes :=
  match w with
  | none => List.replicate 32 0
  | some w =>
    natLe 8 (w.chipLo % 2 ^ 14 + w.chipHi % 2 ^ 14 * 2 ^ 14 + 2 ^ 28 + boolNat w.read * 2 ^ 29 + boolNat w.write * 2 ^ 30
        + boolNat w.atomic * 2 ^ 31 + boolNat w.cacheOk * 2 ^ 32)
      ++ natLe 8 (w.base % 2 ^ 44) ++ natLe 8 (w.size % 2 ^ 45) ++ natLe 8 (codeOf 45 w.disp)

/-- One entry of RingCalTable (R228). -/
def calEntry (g : Ring) : Bytes := natLe 2 (codeOf 16 g.c25) ++ natLe 2 (codeOf 16 g.alpha) ++ List.replicate 4 0

/-- One entry of BridgeSpareMap (R369). -/
def spareEntry (s : State) (b : Nat) : Bytes :=
  natLe 16 (smGetD s.bridge.fuseWires b 0) ++ natLe 16 (smGetD s.bridge.failWires b 0)

/-- SensorFaultMap (Table PWR-4): bit 2n + s for sensor s of site n. -/
def sensorFaults (s : State) : Bytes :=
  natLe 22 ((s.power.sites.zipIdx.map (fun x => (boolNat x.1.flag0 + 2 * boolNat x.1.flag1) * 4 ^ x.2)).sum)

/-- A journal entry (Table MON-3). -/
def entryBytes (e : JEntry) : Bytes :=
  let c := Config.eventCode e.event
  natLe 8 e.seq ++ natLe 8 e.timeNs
    ++ natLe 8 (e.boot % 2 ^ 32 + Config.severity e.event % 8 * 2 ^ 32 + boolNat e.alert * 2 ^ 35 + c.1 % 256 * 2 ^ 40
        + c.2 % 65536 * 2 ^ 48)
    ++ padTo 40 (Config.journalArgs e.event e.args)

/-- The newest n entries, committed and pending, oldest first. -/
def newestEntries (s : State) (n : Nat) : List JEntry :=
  let es := s.obs.jring ++ s.obs.jbuf
  es.drop (es.length - n)

/-- The image that a read transfer of a DOMAIN object returns. -/
def domImage (s : State) (k : Nat) : Bytes :=
  if k = Obj.identityPublicKey then (if s.sec.identity then identityKey else [])
  else if k = Obj.bridgeSpareMap then (List.range 96).flatMap (spareEntry s)
  else if k = Obj.sensorFaultMap then sensorFaults s
  else if k = Obj.memRepairList then (if s.repairs.isEmpty then [] else Config.repairBytes s.repairs)
  else if k = Obj.tstRemapList then (if s.remaps.isEmpty then [] else Config.remapBytes s.remaps)
  else if k = Obj.spectralMap then s.specMap.zipIdx.flatMap (specEntry s)
  else if k = Obj.ringCalTable then s.rings.flatMap calEntry
  else if k = Obj.ringRetiredMap then padTo 136 (domGet s Obj.ringRetiredMap)
  else if k = Obj.intendedMap then padTo 2176 (domGet s Obj.intendedMap)
  else if k = Obj.collGroupTable then padTo 540672 (domGet s Obj.collGroupTable)
  else if k = Obj.sendWindowTable then (List.range 4096).flatMap (fun i => windowEntry (smGet s.windows i))
  else if k = Obj.collAbortDetail then collAbortDetail s
  else if k = Obj.escalationImage then escImage s
  else if k = Obj.measurementLog then s.sec.log.flatMap measBytes
  else if k = Obj.snapshotImage then snapNew s
  else if k = Obj.snapshotImagePrev then snapPrev s
  else if k = Obj.snapshotLayout then snapLayout
  else if k = Obj.journalImage then s.obs.jring.flatMap entryBytes
  else if k = Obj.journalRecent then (newestEntries s 256).flatMap entryBytes
  else if k = Obj.journalCodes then Config.journalCodes
  else domGet s k

/-! ### Describe (R448) -/

/-- Codes of the header's first bytes. -/
def typeCode : DType → Nat
  | .u8 => 1
  | .u16 => 2
  | .u32 => 3
  | .u64 => 4
  | .i32 => 5
  | .bool => 7
  | .str => 8
  | .domain => 9

def accessCode : DAccess → Nat
  | .const => 0
  | .ro => 1
  | .wo => 2
  | .rw => 3
  | .rc => 4
  | .rwn => 5

def classCode : DClass → Nat
  | .h => 0
  | .m => 1
  | .v => 2
  | .none => 3

/-- The default as its bytes: none where the tables show "—" or "from fuses", text for STR, empty for DOMAIN. -/
def defaultBytes (row : ObjRow) (k : Nat) : Bytes :=
  if row.typ = .str then (if k = Obj.serialNumber then [] else strRead k)
  else if row.typ = .domain ∨ row.dflt = none then []
  else natLe row.typ.len (objDefault k)

/-- A bound in 8 bytes: sign-extended for I32. -/
def boundBytes (row : ObjRow) (n : Nat) : Bytes := natLe 8 (if row.typ = .i32 then codeOf 64 (signedOf 32 n) else n)

/-- The reply to Describe. -/
def describeBytes (row : ObjRow) (k : Nat) : Bytes :=
  let name := textBytes row.name
  let d := defaultBytes row k
  natLe 1 (typeCode row.typ) ++ natLe 1 (accessCode row.access) ++ natLe 1 (classCode row.cls) ++ natLe 1 (boolNat row.kept)
    ++ natLe 2 name.length ++ natLe 2 d.length ++ boundBytes row row.lo ++ boundBytes row row.hi ++ d ++ name

end Sys2Proof.Machine
end

