-- ==== Sys2Proof/Machine/Dictionary.lean ====
section
/-!
DEFINITION. The commands of the Dictionary (16): reads, writes, Describe, DOMAIN transfers, flash commits and the limited-write
objects of Table DIC-6.
-/

namespace Sys2Proof.Machine

/-! ### Read and Describe -/

/-- Whether the supervisor answers a read of an object before core 3 runs (R335), or on a Scrapped module (R396). -/
def supReads (s : State) (k : Nat) : Bool :=
  k / 256 == 0x1000 || k / 256 == 0x1001 || (k == Obj.lifecycleState && objGet s Obj.lifecycleState == 4)

/-- An RC object cleared by its read (Table DIC-2); SupplyMinMv then reads as the current value (Table PWR-4). -/
def clearRead (s : State) (k : Nat) : State :=
  objPut s k (if k = Obj.supplyMinMv then objGet s Obj.supplyVoltageMv else 0)

/-- A Read: object, then access (R449). -/
def readObj (s : State) (k : Nat) : Answer :=
  match objRow k with
  | none => ⟨s, 0x01, []⟩
  | some row =>
    if row.access = .wo ∨ row.typ = .domain then ⟨s, 0x04, []⟩
    else if row.typ = .str then ⟨s, 0, strRead k⟩
    else ⟨if row.access = .rc then clearRead s k else s, 0, natLe row.typ.len (objRead s k)⟩

/-- A read by a route. -/
def readRow (s : State) (r : Route) (k : Nat) : State := ask s r (supReads s k) 0x01 k [] (fun s _ => readObj s k)

/-- DIC_READ (R330, R332). -/
def execDicRead (r : Route) (key : Nat) (s : State) : Res := .next (readRow s r key)

/-- DESCRIBE (R330, R448). -/
def execDescribe (r : Route) (key : Nat) (s : State) : Res :=
  .next (ask s r false 0x03 key [] (fun s _ => match objRow key with
    | none => ⟨s, 0x01, []⟩
    | some row => ⟨s, 0, describeBytes row key⟩))

/-! ### Write -/

/-- Objects whose write has a command of its own. -/
def ownRow (k : Nat) : Bool :=
  [Obj.warmRestart, Obj.coldRestart, Obj.thermalRestart, Obj.checkpointNow, Obj.checkpointRestore, Obj.epochSwitch, Obj.drainArm,
   Obj.epochRelease, Obj.linkQuarantine, Obj.memHashKey, Obj.chipNumberLock, Obj.thermalRedOverride, Obj.lifecycleState,
   Obj.antiRollbackLevel, Obj.revokeRootKey, Obj.debugLock, Obj.snapshotTake].contains k

/-- The four bytes of a U32. -/
def byteAt (n i : Nat) : Nat := n / 256 ^ i % 256

/-- The rules of an object's own (R449 step 7): ChipNumberLock (Table DIC-8), the Returned state for ArrayRetiredMap, which may
only lose bits (R372), and the weights of LinkWeights (R262). -/
def ownRule (k : Nat) (s : State) (n : Nat) : Nat :=
  if k = Obj.chipNumber then (if objGet s Obj.chipNumberLock = 1 then 0x08 else 0)
  else if k = Obj.arrayRetiredMap then
    (if objGet s Obj.lifecycleState = 3 ∧ Nat.land n (objGet s k) = n then 0 else 0x08)
  else if k = Obj.linkWeights then
    (if (List.range 4).all (fun i => decide (1 ≤ byteAt n i)) ∧ byteAt n 0 + byteAt n 1 + byteAt n 2 + byteAt n 3 = 100 then 0 else 0x08)
  else 0

/-- Arrays whose bit a write cleared: their miss events are discarded, and they return at the next restart (R372). -/
def returnArrays (s : State) (old new : Nat) : State :=
  let gone := fun (n : Nat) => natBit n old && !natBit n new
  { s with unretired := (List.range 64).foldl (fun u n => if gone n then setNatBit n u else u) s.unretired
           arrays := s.arrays.zipIdx.map (fun x => if gone x.2 then { x.1 with missTimes := [], katFails := 0 } else x.1) }

/-- What a write does beyond its value: reserved bits of AxisInfo read 0 (R7), and link states follow LinkMinLanesPct. -/
def writeEffect (k old : Nat) (s : State) (n : Nat) : State :=
  if k = Obj.arrayRetiredMap then returnArrays s old n
  else if k = Obj.linkMinLanesPct then (List.range 64).foldl settleLink s
  else if keyIn k Obj.axisInfo 4 then objPut s k (n % 2 ^ 30)
  else s

/-- A Write of an object without a command of its own. -/
def writePlain (r : Route) (k : Nat) (v : Bytes) (s : State) : State :=
  writeRow s r k v false (ownRule k) (writeEffect k (objGet s k))

/-- DIC_WRITE (R331, R332, R449). -/
def execDicWrite (r : Route) (key : Nat) (value : Bytes) (s : State) : Res :=
  .next (if ownRow key then s else writePlain r key value s)

/-! ### Flash (R334, R354, R355) -/

/-- The object's value as flash holds it from now on. -/
def toFlash (s : State) (k : Nat) : State :=
  if k = Obj.tstRemapList then { s with remapsFlash := s.remaps }
  else if k = Obj.memRepairList then { s with repairsFlash := s.repairs }
  else if 0xA00000 ≤ k then
    { s with domsFlash := match smGet s.doms k with
        | some b => smSet s.domsFlash k b
        | none => smErase s.domsFlash k }
  else
    { s with flash := match smGet s.dic k with
        | some v => smSet s.flash k v
        | none => smErase s.flash k }

/-- PERSIST_COMMIT (R334, R354): a written object goes to flash, or its commit is deferred. -/
def execPersistCommit (key : Nat) (s : State) : Res :=
  .next (if !nsHas s.persist key then s
  else if !mayCommit s then objInc s Obj.commitDeferrals
  else toFlash { s with persist := nsDel s.persist key } key)

/-! ### DOMAIN transfers (R344, R345, R450) -/

/-- Open transfers of an object and direction. -/
def openOf (s : State) (k : Nat) (write : Bool) : Nat := (s.mgmt.xfers.filter (fun (x : Xfer) => x.key == k && x.write == write)).length

/-- A new transfer: a read keeps the image as it is now. -/
def openXfer (s : State) (r : Route) (k dir size : Nat) : Answer :=
  let h := s.mgmt.nextHandle
  let image := if dir = 0 then domImage s k else []
  let x : Xfer := { handle := h, key := k, write := dir == 1, size := if dir = 0 then image.length else size, byHost := r == .host,
                    session := routeSession r, image := image.zipIdx.map (fun b => (b.2, b.1)), last := s.now }
  ⟨{ s with mgmt := { s.mgmt with nextHandle := h % 65535 + 1, xfers := s.mgmt.xfers ++ [x] } }, 0, natLe 2 h⟩

/-- Whether a FirmwareBank transfer may open: no queue is launched, and in recovery the route is a Vendor session (R387, R388). -/
def bankOpens (s : State) (role : Role) : Bool := s.queues.isEmpty && (!s.seqs.recovery || role == .vendor)

/-- DomainOpen with the checks of R449 and R345. -/
def domainOpen (r : Route) (k dir size : Nat) (s : State) (role : Role) : Answer :=
  match objRow k with
  | none => ⟨s, 0x01, []⟩
  | some row =>
    if row.typ ≠ .domain ∨ (dir = 0 ∧ row.access = .wo) ∨ (dir = 1 ∧ !row.access.writes) then ⟨s, 0x04, []⟩
    else if dir = 1 ∧ !mayWriteDom s row role then ⟨s, 0x05, []⟩
    else if (r = .host ∧ s.mgmt.xfers.any Xfer.byHost) ∨ (dir = 1 ∧ openOf s k true ≠ 0) ∨ (dir = 0 ∧ 8 ≤ openOf s k false) then ⟨s, 0x08, []⟩
    else if k = Obj.firmwareBank ∧ !bankOpens s role then ⟨s, 0x08, []⟩
    else openXfer s r k dir size

/-- Whether the supervisor serves a request about an object in recovery (R387). -/
def supBank (s : State) (k : Nat) : Bool := s.seqs.recovery && k == Obj.firmwareBank

/-- DOMAIN_OPEN (R344). -/
def execDomainOpen (r : Route) (key dir size : Nat) (s : State) : Res :=
  .next (ask s r (supBank s key) 0x10 key (natLe 1 dir ++ natLe 5 size) (domainOpen r key dir size))

/-- A transfer that a route may use. -/
def routeXfer (s : State) (r : Route) (handle : Nat) : Option Xfer := (xferOf s handle).filter (xferRoute r)

/-- A segment of an open transfer (R450). -/
def segment (r : Route) (header data : Bytes) (s : State) : Answer :=
  let off := leNat ((header.drop 2).take 5)
  let dir := leNat ((header.drop 7).take 1)
  let count := leNat ((header.drop 8).take 2)
  if r = .host then ⟨s, 0x08, []⟩
  else if 1 < dir ∨ count = 0 ∨ 1024 < count ∨ (dir = 1 ∧ count ≠ data.length) then ⟨s, 0x0E, []⟩
  else
    match routeXfer s r (leNat (header.take 2)) with
    | none => ⟨s, 0x09, []⟩
    | some x =>
      if x.write ≠ (dir == 1) then ⟨s, 0x0E, []⟩
      else if !x.write then ⟨updXfer s x.handle (fun (x : Xfer) => { x with last := s.now }), 0, readSegment x off count⟩
      else if !inOrder x off then ⟨addrErr s, 0x08, []⟩
      else if x.size < off + count then ⟨addrErr (writeSegment s x off data), 0x03, []⟩
      else ⟨writeSegment s x off data, 0, []⟩

/-- DOMAIN_SEGMENT (R344, R450). -/
def execDomainSegment (r : Route) (header data : Bytes) (s : State) : Res :=
  .next (ask s r s.seqs.recovery 0x11 (heldKey s r) (header ++ data) (fun s _ => segment r header data s))

/-- DOMAIN objects whose commit has a command of its own. -/
def ownCommit (k : Nat) : Bool :=
  [Obj.escalationImage, Obj.laneDemand, Obj.intendedMap, Obj.routeTableLoad, Obj.collGroupTable, Obj.firmwareBank, Obj.attestNonce,
   Obj.identityCertificate, Obj.debugToken].contains k

/-- DOMAIN_COMMIT (R344): of the objects without a command of their own, and of handles that are not open. -/
def execDomainCommit (r : Route) (handle : Nat) (digest : Bytes) (s : State) : Res :=
  .next (match routeXfer s r handle with
  | none => ask s r s.seqs.recovery 0x12 (heldKey s r) (natLe 2 handle ++ digest) (fun s _ => ⟨s, 0x09, []⟩)
  | some x =>
    if ownCommit x.key then s
    else
      commitRow s r x.key handle digest false (fun n => !keyIn x.key Obj.managerKeyHash 4 || n == 0 || n == 32) noRule (fun s _ => s))

/-- DOMAIN_ABORT (R344). -/
def execDomainAbort (r : Route) (handle : Nat) (s : State) : Res :=
  .next (ask s r s.seqs.recovery 0x13 (heldKey s r) (natLe 2 handle) (fun s _ =>
    match routeXfer s r handle with
    | none => ⟨s, 0x09, []⟩
    | some x => ⟨dropXfer s x.handle, 0, []⟩))

/-- DOMAIN_TRANSFER_TIMEOUT (R344): a transfer without a segment for 30 s. -/
def execDomainTransferTimeout (handle : Nat) (s : State) : Res :=
  .next (match xferOf s handle with
  | some x => if x.last + ms 30000 ≤ s.now then dropXfer s handle else s
  | none => s)

/-! ### Limited-write objects (R341, R342, R390, R395) -/

/-- A write of ChipNumberLock. -/
def writeChipNumberLock (r : Route) (v : Bytes) (burnt : Bool) (s : State) : State :=
  fuseRow s r Obj.chipNumberLock Obj.chipNumberLockWritesLeft v burnt noRule id

/-- CHIP_NUMBER_LOCK_WRITE (Table DIC-6). -/
def execChipNumberLockWrite (r : Route) (v : Bytes) (burnt : Bool) (s : State) : Res := .next (writeChipNumberLock r v burnt s)

/-- A write of ThermalRedOverride. -/
def writeThermalRedOverride (r : Route) (v : Bytes) (burnt : Bool) (s : State) : State :=
  fuseRow s r Obj.thermalRedOverride Obj.thermalRedOverrideWritesLeft v burnt noRule id

/-- THERMAL_RED_OVERRIDE_WRITE (R359, Table DIC-6). -/
def execThermalRedOverrideWrite (r : Route) (v : Bytes) (burnt : Bool) (s : State) : Res :=
  .next (writeThermalRedOverride r v burnt s)

/-- A write of AntiRollbackLevel: exactly one up, and not above RunningSecVersion (R390). -/
def writeAntiRollback (r : Route) (v : Bytes) (burnt : Bool) (s : State) : State :=
  fuseRow s r Obj.antiRollbackLevel Obj.antiRollbackWritesLeft v burnt
    (fun s n => if n = objGet s Obj.antiRollbackLevel + 1 ∧ n ≤ objGet s Obj.runningSecVersion then 0 else 0x03)
    (fun s => measEvent s 0x23 (natLe 1 (objGet s Obj.antiRollbackLevel)))

/-- ANTI_ROLLBACK_LEVEL_WRITE (R390). -/
def execAntiRollbackLevelWrite (r : Route) (v : Bytes) (burnt : Bool) (s : State) : Res := .next (writeAntiRollback r v burnt s)

/-- Transitions of Table SEC-5. -/
def lifeStep (old new : Nat) : Bool :=
  [(0, 1), (1, 2), (2, 3), (3, 2)].contains (old, new) || (decide (old < 4) && new == 4)

/-- The class a change needs: M from Provisioned to Production, V for the other changes of Table SEC-5 (R395). -/
def lifeClass (old new : Nat) : DClass := if lifeStep old new && !(old == 1 && new == 2) then .v else .m

/-- Persistent objects of class H or M that return to their defaults; what fuses hold does not (Table SEC-5). -/
def returnsToDefault (k : Nat) : Bool :=
  match objRow k with
  | some r => r.kept && r.access == .rw && (r.cls == .h || r.cls == .m)
  | none => false

/-- The keys of a table at which a property holds, taken out of it and queued for their flash commits. -/
def toDefaults (s : State) : State :=
  let ks := (smKeys s.dic ++ smKeys s.doms).filter returnsToDefault
  let s := { s with dic := s.dic.filter (fun e => !returnsToDefault e.1), doms := s.doms.filter (fun e => !returnsToDefault e.1) }
  (List.range 64).foldl settleLink (applyIntended (ks.foldl notePersist s))

/-- What a lifecycle change does (Table SEC-5, R385, R392, R398). -/
def lifeEffect (old : Nat) (s : State) : State :=
  let new := objGet s Obj.lifecycleState
  let s := measEvent s 0x21 (natLe 1 new)
  if new = 1 then updSec s (fun x => { x with identity := true, seedBurnt := true })
  else if new = 2 then
    (if objGet s Obj.debugAllowProduction = 0 then
      updSec (objPut s Obj.debugUnlocked 0) (fun x => { x with monitorWrite := false }) else s)
  else if new = 3 ∧ old = 2 then (let s := toDefaults s; { s with mgmt := { s.mgmt with sessions := [] } })
  else if new = 4 then askRestart (updSec s (fun x => { x with identity := false })) 4
  else s

/-- A write of LifecycleState (R342, R395). -/
def writeLifecycle (r : Route) (v : Bytes) (burnt : Bool) (s : State) : State :=
  runAsked (ask s r false 0x02 Obj.lifecycleState v (fun s role =>
    let old := objGet s Obj.lifecycleState
    match numCheck s role Obj.lifecycleState v (some (lifeClass old (leNat v))) with
    | .inl e => ⟨s, e, []⟩
    | .inr (_, n) =>
      if n ≠ old ∧ !lifeStep old n then ⟨s, 0x03, []⟩
      else
        fuseWrite s r role Obj.lifecycleState Obj.lifecycleWritesLeft n (objGet s Obj.lifecycleWritesLeft == 1 && n != 4) burnt
          (lifeEffect old)))

/-- LIFECYCLE_STATE_WRITE (R395). -/
def execLifecycleStateWrite (r : Route) (v : Bytes) (burnt : Bool) (s : State) : Res := .next (writeLifecycle r v burnt s)

end Sys2Proof.Machine
end

