-- ==== Sys2Proof/Machine/Interfaces.lean ====
section
/-!
DEFINITION. The commands of the module's interfaces (21): leak loop, coolant flow, AUX e-fuse, serial lines, time source.
-/

namespace Sys2Proof.Machine

/-- A function applied to the interface state. -/
def updIface (s : State) (f : Iface → Iface) : State := { s with iface := f s.iface }

/-! ### The leak loop (R429) -/

/-- The class of a loop resistance in Ω. -/
def leakClass (ohms : Nat) : Nat :=
  if ohms < 200 then 2 else if ohms < 9000 then 1 else if ohms ≤ 11500 then 0 else if ohms ≤ 50000 then 4 else 3

/-- Whether the last three readings agree on a class. -/
def threeAgree (s : State) (c : Nat) : Bool := s.iface.leakLast == [c, c, c]

/-- A change of class: journalled, and on ALERT_N except for a return to dry. -/
def leakChange (s : State) (c ohms : Nat) : State :=
  let s := objPut s Obj.leakState c
  if c = 0 then journal s .leakChanged [9, 10, c, ohms] else journalAlert s .leakChanged [9, 10, c, ohms]

/-- One reading of the loop. -/
def leakSample (s : State) (ohms : Nat) : State :=
  let c := leakClass ohms
  let s := updIface (objPut s Obj.leakLoopOhms (min ohms (2 ^ 32 - 1))) (fun x =>
    { x with leakLast := (c :: x.leakLast).take 3, dryHold := heldSince s.now x.dryHold (c == 0) })
  let s := if threeAgree s c ∧ objGet s Obj.leakState ≠ c then leakChange s c ohms else s
  if objGet s Obj.leakState = 1 ∧ objGet s Obj.leakAction = 1 then updPower s (fun p => { p with shdnLeak := true }) else s

/-- LEAK_LOOP_SAMPLE (R429). -/
def execLeakLoopSample (ohms : Nat) (s : State) : Res := .next (if s.power.on then leakSample s ohms else s)

/-- LEAK_DRY_RELEASE (R429): the loop has read dry for 10 s. -/
def execLeakDryRelease (s : State) : Res :=
  .next (match s.iface.dryHold with
  | some t => if t + ms 10000 ≤ s.now then updPower s (fun p => { p with shdnLeak := false }) else s
  | none => s)

/-! ### Coolant flow (R426) -/

/-- A flow reading: below FlowMinLpm for 5 s it is journalled, once per episode. -/
def flowRead (s : State) (centi : Nat) : State :=
  let low := decide (centi < objGet s Obj.flowMinLpm)
  let since := heldSince s.now s.iface.flowSince low
  let s := updIface (objPut s Obj.flowCentiLpm (min 65535 centi)) (fun x =>
    { x with flowSince := since, flowEpisode := x.flowEpisode && low })
  match since with
  | some t =>
    if t + ms 5000 ≤ s.now ∧ !s.iface.flowEpisode then
      updIface (journalAlert s .flowLow [centi]) (fun x => { x with flowEpisode := true })
    else s
  | none => s

/-- FLOW_LOW (R426). -/
def execFlowLow (centiLpm : Nat) (s : State) : Res :=
  .next (if s.power.on ∧ objGet s Obj.flowTachEnable = 1 then flowRead s centiLpm else s)

/-! ### The AUX e-fuse (Table MOD-18) -/

/-- The e-fuse opens: AUX is isolated. -/
def efuseOpens (s : State) : State :=
  let s := journal (objInc s Obj.auxEfuseTrips) .auxEfuse [1, 5]
  let s := updIface (updPower s (fun p => { p with aux := false })) (fun x => { x with efuseOpen := true, efuseAt := s.now })
  if s.power.intermediate then objPut s Obj.auxState 1 else unpower s

/-- AUX_EFUSE_TRIP (R428). -/
def execAuxEfuseTrip (s : State) : Res := .next (if s.power.on ∧ s.power.aux then efuseOpens s else s)

/-- AUX_EFUSE_RETRY (R428): every 1 s; a short that is still there trips it again. -/
def execAuxEfuseRetry (clear : Bool) (s : State) : Res :=
  .next (if s.power.on ∧ s.iface.efuseOpen ∧ s.iface.efuseAt + ms 1000 ≤ s.now then
    (if clear then
      objPut (updIface (updPower s (fun p => { p with aux := true })) (fun x => { x with efuseOpen := false })) Obj.auxState 0
    else efuseOpens s)
  else s)

/-! ### Serial lines (Table MOD-18) -/

/-- MON_TXD_FAULT (R428): the readback has differed for 1 ms. -/
def execMonTxdFault (s : State) : Res :=
  .next (if s.power.on ∧ !s.iface.txReleased then
    journal (objBit (updIface s (fun x => { x with txReleased := true, txAt := s.now })) Obj.monLineFault 0 true) .monTxd [2, 4]
  else s)

/-- MON_TXD_DRIVER_RETRY (R428): every 1 s. -/
def execMonTxdDriverRetry (clear : Bool) (s : State) : Res :=
  .next (if s.iface.txReleased ∧ s.iface.txAt + ms 1000 ≤ s.now then
    (if clear then objBit (updIface s (fun x => { x with txReleased := false })) Obj.monLineFault 0 false
    else updIface s (fun x => { x with txAt := s.now }))
  else s)

/-- MON_RXD_BREAK (R428): the input has been low for 2 s. -/
def execMonRxdBreak (s : State) : Res :=
  .next (if s.power.on ∧ !s.iface.rxIgnored then
    journal (objBit (updIface s (fun x => { x with rxIgnored := true })) Obj.monLineFault 1 true) .monRxd [2, 5]
  else s)

/-- MON_RXD_BREAK_END (R428): the input has been high for 10 ms. -/
def execMonRxdBreakEnd (s : State) : Res :=
  .next (if s.iface.rxIgnored then objBit (updIface s (fun x => { x with rxIgnored := false })) Obj.monLineFault 1 false else s)

/-- TIME_SOURCE_CHANGE (R432): REFCLK when present, otherwise the crystal. -/
def execTimeSourceChange (refclk : Bool) (s : State) : Res :=
  .next (if s.power.on ∧ objGet s Obj.timeSource ≠ boolNat (!refclk) then
    journal (objPut s Obj.timeSource (boolNat (!refclk))) .timeSource [boolNat (!refclk)]
  else s)

end Sys2Proof.Machine
end

