-- ==== Sys2Proof/Machine/Mgmt.lean ====
section
/-!
DEFINITION. The management network (R337, R338) and its sessions (R339, R340).
-/

namespace Sys2Proof.Machine

/-- A function applied to the management state. -/
def updMgmt (s : State) (f : Mgmt → Mgmt) : State := { s with mgmt := f s.mgmt }

/-- Whether the management MAC runs: from step 2 of a start (Table BOOT-1). -/
def macUp (s : State) : Bool := s.power.on && decide (2 ≤ s.seqs.startStep)

/-! ### DAP messages (R338) -/

/-- Fields of the two header words. -/
def dapVersion (w0 : Word64) : Nat := bitsOf 7 0 w0
def dapOp (w0 : Word64) : Nat := bitsOf 15 8 w0
def dapSession (w0 : Word64) : Nat := bitsOf 31 16 w0
def dapSeq (w0 : Word64) : Nat := bitsOf 63 32 w0
def dapIndex (w1 : Word64) : Nat := bitsOf 55 48 w1
def dapCount (w1 : Word64) : Nat := bitsOf 63 56 w1

/-- The operations of Table DIC-5. -/
def dapOps : List Nat := [0x01, 0x02, 0x03, 0x10, 0x11, 0x12, 0x13, 0x20, 0x21, 0x22, 0x23]

/-- Whether a datagram's header can belong to a message. -/
def dapFormed (w0 w1 : Word64) (payload : Bytes) : Bool :=
  dapVersion w0 == 1 && dapOps.contains (dapOp w0) && decide (1 ≤ dapCount w1) && decide (dapCount w1 ≤ 12)
    && decide (dapIndex w1 < dapCount w1) && decide (payload.length ≤ 1392)

/-- A whole message: its header as if it had come in one fragment, and its payload. -/
def wholeMsg (w0 w1 : Word64) (payload : Bytes) : Bytes :=
  natLe 8 w0.toNat ++ natLe 8 (w1.toNat % 2 ^ 48 + 2 ^ 56) ++ payload

/-- A whole message waits for core 3; one above 16 KiB is malformed. -/
def putReady (s : State) (ip port : Nat) (w0 w1 : Word64) (payload : Bytes) : State :=
  if 16384 < 16 + payload.length then emit s (dapOut ip port (dapSession w0) (dapSeq w0) (dapOp w0) 0x0E [])
  else updMgmt s (fun m => { m with ready := m.ready ++ [(ip, port, dapSession w0, dapSeq w0, wholeMsg w0 w1 payload)] })

/-- Whether a partial message is that of a fragment. -/
def samePartial (ip port : Nat) (w0 : Word64) (p : Partial) : Bool :=
  p.ip == ip && p.port == port && p.session == dapSession w0 && p.seq == dapSeq w0

/-- A fragment taken into its partial message, which is whole when every fragment has come; a partial message older than 100 ms is
discarded. -/
def takeFragment (s : State) (ip port : Nat) (w0 w1 : Word64) (payload : Bytes) : State :=
  let p : Partial := (s.mgmt.daps.find? (fun (x : Partial) => samePartial ip port w0 x && decide (s.now < x.since + ms 100))).getD
    { session := dapSession w0, seq := dapSeq w0, ip := ip, port := port, since := s.now, count := dapCount w1, frags := [] }
  let p := { p with frags := smSet p.frags (dapIndex w1) payload }
  let others := s.mgmt.daps.filter (fun (x : Partial) => !samePartial ip port w0 x)
  if p.frags.length = p.count then putReady (updMgmt s (fun m => { m with daps := others })) ip port w0 w1 (p.frags.flatMap Prod.snd)
  else updMgmt s (fun m => { m with daps := others ++ [p] })

/-- The reversed pair noted once (Table MOD-18). -/
def noteReversed (s : State) (reversed : Bool) : State :=
  if reversed ∧ objGet s Obj.mgmtPairReversed = 0 then journal (objPut s Obj.mgmtPairReversed 1) .pairReversed [] else s

/-- DAP_FRAGMENT (R338, R428). -/
def execDapFragment (ip port : Nat) (w0 w1 : Word64) (payload : Bytes) (reversed : Bool) (s : State) : Res :=
  .next (if !macUp s then s
  else
    let s := noteReversed s reversed
    if !dapFormed w0 w1 payload then emit s (dapOut ip port (dapSession w0) (dapSeq w0) (dapOp w0) 0x0E [])
    else takeFragment s ip port w0 w1 payload)

/-- DAP_REASSEMBLY_TIMEOUT (R338): a partial message 100 ms after its first fragment. -/
def execDapReassemblyTimeout (session seq : Nat) (s : State) : Res :=
  .next (updMgmt s (fun m => { m with daps := m.daps.filter (fun (p : Partial) =>
    !(p.session == session && p.seq == seq && decide (p.since + ms 100 ≤ s.now))) }))

/-! ### Sessions (R339, R387) -/

/-- Whether session requests of a role are served: by core 3; in recovery by the supervisor for the Vendor role (R387); during
Black for the Manager, who alone can restart the module then (R360). -/
def servesRole (s : State) (role : Nat) : Bool :=
  core3 s == 1 || (s.seqs.recovery && role == 2) || (s.power.black && role == 1)

/-- A reply to a message outside an open session. -/
def plainReply (s : State) (ip port session seq op status : Nat) (data : Bytes) : State :=
  emit s (dapOut ip port session seq op status data)

/-- A session's nonce: 32 fresh bytes. -/
def newNonce (s : State) : Bytes := (List.range 4).flatMap (fun i => natLe 8 (Config.freeWord (s.free + i)).toNat)

/-- SessionHello accepted: a fresh SessionId and a fresh nonce. -/
def openHello (s : State) (ip port seq role : Nat) : State :=
  let id := s.mgmt.nextSession
  let nonce := newNonce s
  let x : Session := { id := id, role := role, ip := ip, port := port, nonce := nonce, last := s.now }
  let s := { s with free := s.free + 4, mgmt := { s.mgmt with nextSession := id % 65535 + 1, sessions := s.mgmt.sessions ++ [x] } }
  plainReply s ip port 0 seq 0x20 0 (natLe 2 id ++ nonce ++ padTo 16 Config.serial)

/-- Whether SessionHello is refused after failed proofs (R339). -/
def lockedOut (s : State) : Bool :=
  match s.mgmt.lockUntil with
  | some t => decide (s.now < t)
  | none => false

/-- A SessionHello of a held message. -/
def hello (s : State) (ip port seq role : Nat) : State :=
  match readyMsg s ip port 0 seq with
  | none => s
  | some m =>
    if msgOp m ≠ 0x20 ∨ (headerOk m ∧ formOk 0x20 (msgPayload m) ∧ leNat (msgPayload m) ≠ role) then s
    else
      let s := takeMsg s ip port 0 seq
      let reply := plainReply s ip port 0 seq 0x20
      if !headerOk m || !formOk 0x20 (msgPayload m) then reply 0x0E []
      else if core3 s = 2 then reply 0x07 []
      else if !servesRole s role then reply 0x0B []
      else if lockedOut s then reply 0x0D []
      else if 4 ≤ s.mgmt.sessions.length then reply 0x07 []
      else openHello s ip port seq role

/-- SESSION_HELLO (R339). -/
def execSessionHello (ip port seq role : Nat) (s : State) : Res := .next (hello s ip port seq role)

/-- A session closed. -/
def closeSession (s : State) (id : Nat) : State :=
  updMgmt s (fun m => { m with sessions := m.sessions.filter (fun (x : Session) => x.id != id) })

/-- A failed proof: the session closes; the eighth within 60 s locks SessionHello for 60 s. -/
def proofFailed (s : State) (x : Session) : State :=
  let times := (s.mgmt.failTimes.filter (fun t => decide (s.now < t + ms 60000))) ++ [s.now]
  let s := updMgmt (closeSession s x.id) (fun m =>
    { m with failTimes := times, lockUntil := if 8 ≤ times.length then some (s.now + ms 60000) else m.lockUntil })
  journal (objInc s Obj.authFailures) .authFailed [x.id, x.ip, x.role]

/-- Whether a key is one that a role accepts: an entry of ManagerKeyHash, or a vendor root key that is not revoked. -/
def keyAccepted (s : State) (role : Nat) (key : Bytes) : Bool :=
  let h := sha256 key
  if role = 1 then (List.range 4).any (fun i => domGet s (Obj.managerKeyHash + i) == h)
  else (List.range 2).any (fun i => rootKeyOk s i h)

/-- What a proof signs: the SHA-256 of nonce, SerialNumber, role byte and SessionId. -/
def proofText (x : Session) : Bytes := sha256 (x.nonce ++ padTo 16 Config.serial ++ natLe 1 x.role ++ natLe 2 x.id)

/-- Whether a proof holds. -/
def proofOk (s : State) (x : Session) (key sig : Bytes) : Bool := keyAccepted s x.role key && Config.verify key (proofText x) sig

/-- A proof verified: the session opens, or it closes. -/
def proved (s : State) (x : Session) (seq : Nat) (key sig : Bytes) : State :=
  if proofOk s x key sig then
    let o := dapOut x.ip x.port x.id seq 0x21 0 []
    emit (updSession s x.id (fun y => { y with opened := true, key := key, last := s.now, lastSeq := seq, lastReply := some o })) o
  else plainReply (proofFailed s x) x.ip x.port x.id seq 0x21 0x0D []

/-- A SessionProve of a held message; one that comes 10 s or more after its Hello finds the session closed. -/
def prove (s : State) (ip port session seq : Nat) (key sig : Bytes) : State :=
  match readyMsg s ip port session seq with
  | none => s
  | some m =>
    if msgOp m ≠ 0x21 ∨ (headerOk m ∧ formOk 0x21 (msgPayload m) ∧ msgPayload m ≠ key ++ sig) then s
    else
      let s := takeMsg s ip port session seq
      let reply := plainReply s ip port session seq 0x21
      if !headerOk m || !formOk 0x21 (msgPayload m) then reply 0x0E []
      else if core3 s = 2 then reply 0x07 []
      else
        match sessionOf s session with
        | none => reply 0x0C []
        | some x =>
          if x.ip ≠ ip ∨ x.port ≠ port then objInc s Obj.authFailures
          else if x.opened then inSession s x ip port seq 0x21 (fun s => ⟨s, 0x0C, []⟩)
          else if x.last + ms 10000 ≤ s.now then plainReply (closeSession s session) ip port session seq 0x21 0x0C []
          else if !servesRole s x.role then reply 0x0B []
          else proved s x seq key sig

/-- SESSION_PROVE (R339). -/
def execSessionProve (r : Route) (key signature : Bytes) (s : State) : Res :=
  .next (match r with
  | .mgmt ip port session seq => prove s ip port session seq key signature
  | _ => s)

/-- Whether the supervisor serves an open session's own requests: in recovery and in Black. -/
def supSession (s : State) : Bool := s.seqs.recovery || s.power.black

/-- SESSION_CLOSE (R339). -/
def execSessionClose (r : Route) (s : State) : Res :=
  .next (ask s r (supSession s) 0x22 (heldKey s r) [] (fun s _ => ⟨closeSession s (routeSession r), 0, []⟩))

/-- KEEPALIVE (Table DIC-5): the request itself keeps the session open. -/
def execKeepalive (r : Route) (s : State) : Res := .next (ask s r (supSession s) 0x23 (heldKey s r) [] (fun s _ => ⟨s, 0, []⟩))

/-- SESSION_PROVE_TIMEOUT (R339): no proof within 10 s of SessionHello. -/
def execSessionProveTimeout (session : Nat) (s : State) : Res :=
  .next (match sessionOf s session with
  | some x => if !x.opened ∧ x.last + ms 10000 ≤ s.now then closeSession s session else s
  | none => s)

/-- SESSION_IDLE_EXPIRE (R339): SessionIdleS without a request. -/
def execSessionIdleExpire (session : Nat) (s : State) : Res :=
  .next (match sessionOf s session with
  | some x => if x.opened ∧ x.last + objGet s Obj.sessionIdleS * ms 1000 ≤ s.now then closeSession s session else s
  | none => s)

/-- AUTH_LOCKOUT_EXPIRE (R339): 60 s after the eighth failure. -/
def execAuthLockoutExpire (s : State) : Res :=
  .next (match s.mgmt.lockUntil with
  | some t => if t ≤ s.now then updMgmt s (fun m => { m with lockUntil := none, failTimes := [] }) else s
  | none => s)

/-! ### The port (R337) -/

/-- DHCP_LEASE (R337). -/
def execDhcpLease (ip : Nat) (s : State) : Res :=
  .next (if macUp s then objPut (updMgmt s (fun m => { m with lease := true })) Obj.mgmtIpv4 (ip % 2 ^ 32) else s)

/-- DHCP_TIMEOUT (R337): no lease within 10 s. -/
def execDhcpTimeout (s : State) : Res :=
  .next (if macUp s ∧ !s.mgmt.lease ∧ objGet s Obj.mgmtIpv4 = 0 then objPut s Obj.mgmtIpv4 (linkLocal s) else s)

/-- DHCP_RETRY (R337): every 60 s without a lease. -/
def execDhcpRetry (s : State) : Res := .next (if macUp s ∧ !s.mgmt.lease then emit s .dhcpDiscover else s)

/-- PLCA_BEACON_LOSS (R337): no beacon for 1 s. -/
def execPlcaBeaconLoss (s : State) : Res :=
  .next (if macUp s then objInc (updMgmt s (fun m => { m with plca := false })) Obj.mgmtPlcaLoss else s)

/-- ARP_REQUEST (R337): a request for the address in use is answered. -/
def execArpRequest (ip : Nat) (s : State) : Res :=
  .next (if macUp s ∧ ip = objGet s Obj.mgmtIpv4 ∧ ip ≠ 0 then emit s (.arpReply ip) else s)

/-- ICMP_ECHO (R337): an echo request from an address is answered. -/
def execIcmpEcho (ip : Nat) (payload : Bytes) (s : State) : Res :=
  .next (if macUp s ∧ objGet s Obj.mgmtIpv4 ≠ 0 then emit s (.icmpReply ip payload) else s)

end Sys2Proof.Machine
end

