-- ==== Sys2Proof/Machine/Security.lean ====
section
/-!
DEFINITION. The commands of boot, identity and lifecycle (19): firmware updates, revocation, attestation, the identity
certificate and the debug unlock.
-/

namespace Sys2Proof.Machine

/-! ### Firmware updates (R387, R388) -/

/-- What a FirmwareBank commit starts: verification and programming. -/
def startUpdate (s : State) : State := objPut s Obj.firmwareUpdateState 1

/-- The FirmwareBank rule: no queue is launched (R388). -/
def updateRule (s : State) (_ : Bytes) : Nat := if s.queues.isEmpty then 0 else 0x08

/-- FIRMWARE_BANK_COMMIT (R388). -/
def execFirmwareBankCommit (r : Route) (handle : Nat) (digest : Bytes) (s : State) : Res :=
  .next (commitRow s r Obj.firmwareBank handle digest s.seqs.recovery anySize updateRule (fun s _ => startUpdate s))

/-- Whether a bank may boot (R382, R383, R386). -/
def bankBoots (s : State) (is : List ImageInfo) : Bool := bankValid s is && is.all (imageBoots s)

/-- The bank programmed: in recovery bank A, and a cold start; otherwise the bank that is not active, as the boot bank request;
an invalid bank is rejected (R387, R388). -/
def programDone (s : State) (is : List ImageInfo) : State :=
  if !bankBoots s is then objPut s Obj.firmwareUpdateState 4
  else if s.seqs.recovery then
    beginCold (objPut (objPut (putBank s 0 is) Obj.activeBank 0) Obj.firmwareUpdateState 0) true
  else
    let b := 1 - objGet s Obj.activeBank
    objPut (objPut (putBank s b is) Obj.bootBankRequest b) Obj.firmwareUpdateState 2

/-- FIRMWARE_PROGRAM_DONE (R388): programming waits while the module is Pale. -/
def execFirmwareProgramDone (images : List ImageInfo) (s : State) : Res :=
  .next (if objGet s Obj.firmwareUpdateState = 1 ∧ s.power.on ∧ !s.power.pale then programDone s images else s)

/-! ### Revocation (R391) -/

/-- Sessions proved with a key that no slot accepts any more are closed. -/
def closeRevoked (s : State) : State :=
  updMgmt s (fun m => { m with sessions := m.sessions.filter (fun (x : Session) =>
    !(x.role == 2 && x.opened && !keyAccepted s 2 x.key)) })

/-- Whether a slot may be revoked: the other stands, and no image of the active bank uses it. -/
def mayRevoke (s : State) (slot : Nat) : Bool :=
  !natBit (1 - slot) (objGet s Obj.rootKeyRevoked)
    && !(bankImages s (objGet s Obj.activeBank)).any (fun (i : ImageInfo) => i.keySlot == slot)

/-- A write of RevokeRootKey. A slot already revoked burns nothing more; a burn that is cut short reads as burnt (R355). -/
def writeRevoke (r : Route) (v : Bytes) (s : State) : State :=
  ask s r false 0x02 Obj.revokeRootKey v (fun s role =>
    match numCheck s role Obj.revokeRootKey v none with
    | .inl e => ⟨s, e, []⟩
    | .inr (row, n) =>
      if natBit n (objGet s Obj.rootKeyRevoked) then ⟨s, 0, []⟩
      else if !mayRevoke s n then ⟨s, 0x08, []⟩
      else if s.power.pale then ⟨s, 0x07, []⟩
      else if !mayCommit s then ⟨objInc s Obj.commitDeferrals, 0x07, []⟩
      else
        let s := objBit (applyNum s r role row Obj.revokeRootKey n) Obj.rootKeyRevoked n true
        ⟨closeRevoked (measEvent s 0x22 (natLe 1 (objGet s Obj.rootKeyRevoked))), 0, []⟩)

/-- REVOKE_ROOT_KEY (R391). -/
def execRevokeRootKey (r : Route) (v : Bytes) (_burnt : Bool) (s : State) : Res := .next (writeRevoke r v s)

/-! ### Attestation (R394) -/

/-- SerialNumber in its 16 bytes. -/
def serialBytes : Bytes := padTo 16 Config.serial

/-- Bytes 0 to 351 of the report, as captured (Table SEC-4). -/
def reportBody (s : State) (nonce : Bytes) : Bytes :=
  let id := chip s % 2 ^ 14 + objGet s Obj.chipNumberLock % 2 * 2 ^ 14 + objGet s Obj.lifecycleState % 256 * 2 ^ 16
    + objGet s Obj.antiRollbackLevel % 256 * 2 ^ 24 + objGet s Obj.rootKeyRevoked % 4 * 2 ^ 32 + objGet s Obj.activeBank % 2 * 2 ^ 34
    + objGet s Obj.debugUnlocked % 2 * 2 ^ 35 + objGet s Obj.debugAllowProduction % 2 * 2 ^ 36
  natLe 8 (1 + s.sec.reports % 2 ^ 32 * 2 ^ 32) ++ padTo 32 nonce ++ serialBytes ++ natLe 8 id
    ++ natLe 8 (objGet s Obj.firmwareVersion % 2 ^ 32 + objGet s Obj.runningSecVersion % 256 * 2 ^ 32)
    ++ s.sec.meas.flatMap (padTo 32)
    ++ sha256 (domImage s Obj.measurementLog)
    ++ sha256 ((List.range 4).flatMap (fun i => padTo 32 (domGet s (Obj.managerKeyHash + i))))
    ++ natLe 8 (objGet s Obj.arrayRetiredMap)
    ++ natLe 8 (s.sec.log.length % 2 ^ 32 + boolNat s.sec.logOverflow * 2 ^ 32)
    ++ List.replicate 40 0 ++ padTo 32 (domImage s Obj.identityPublicKey)

/-- The AttestNonce rule: none while a report is being signed, and none in Blank and Scrapped. -/
def attestRule (s : State) (_ : Bytes) : Nat :=
  if objGet s Obj.attestState = 1 ∨ objGet s Obj.lifecycleState = 0 ∨ objGet s Obj.lifecycleState = 4 then 0x08 else 0

/-- ATTEST_NONCE_COMMIT (R394): the values are captured. -/
def execAttestNonceCommit (r : Route) (handle : Nat) (digest : Bytes) (s : State) : Res :=
  .next (commitRow s r Obj.attestNonce handle digest false (fun n => n == 32) attestRule (fun s nonce =>
    objPut (updSec s (fun x => { x with attestNonce := nonce, capture := reportBody s nonce })) Obj.attestState 1))

/-- ATTESTATION_SIGNED (R394): the captured report is signed with the identity key. -/
def execAttestationSigned (s : State) : Res :=
  .next (if objGet s Obj.attestState = 1 ∧ core3 s = 1 then
    let s := domPut s Obj.attestationReport (s.sec.capture ++ padTo 7856 (signReport s.sec.capture))
    objPut (updSec s (fun x => { x with reports := x.reports + 1 })) Obj.attestState 2
  else s)

/-! ### The identity certificate (R393) -/

/-- The certificate's rule: written once, and for the module's own key. -/
def certRule (certKey : Bytes) (s : State) (_ : Bytes) : Nat :=
  if !(domGet s Obj.identityCertificate).isEmpty || !s.sec.identity || certKey != identityKey then 0x08 else 0

/-- IDENTITY_CERTIFICATE_COMMIT (R393). -/
def execIdentityCertificateCommit (r : Route) (handle : Nat) (digest : Bytes) (certKey : Bytes) (s : State) : Res :=
  .next (commitRow s r Obj.identityCertificate handle digest false anySize (certRule certKey) (fun s _ => s))

/-! ### Debug unlock (R397, R398) -/

/-- DebugNonce drawn fresh. -/
def drawNonce (s : State) : State := objPut (freeStep s) Obj.debugNonce (freeNow s).toNat

/-- Whether the lifecycle admits a debug token. -/
def lifeAdmitsDebug (s : State) : Bool :=
  let l := objGet s Obj.lifecycleState
  l == 1 || l == 3 || (l == 2 && objGet s Obj.debugAllowProduction == 1)

/-- Whether a token is accepted (R397, Table SEC-6). -/
def tokenOk (s : State) (t : Bytes) : Bool :=
  let w := leNat (t.take 8)
  let key := (t.drop 32).take 32
  w % 2 ^ 16 == 1 && (t.drop 8).take 16 == serialBytes && leNat ((t.drop 24).take 8) == objGet s Obj.debugNonce
    && rootKeyOk s (w / 2 ^ 17 % 2) (sha256 key) && Config.verify key (t.take 64) (t.drop 64) && lifeAdmitsDebug s

/-- The DebugToken rule. -/
def tokenRule (s : State) (t : Bytes) : Nat := if tokenOk s t then 0 else 0x08

/-- An accepted token: the unlock, its measurement, and a fresh nonce. -/
def unlock (s : State) (t : Bytes) : State :=
  let s := updSec (objPut s Obj.debugUnlocked 1) (fun x => { x with monitorWrite := natBit 16 (leNat (t.take 8)) })
  drawNonce (journal (measEvent s 0x20 (natLe 1 1)) .debugUnlocked [boolNat s.sec.monitorWrite])

/-- A refused token: counted, and a fresh nonce. -/
def tokenRefused (s : State) : State := drawNonce (objInc s Obj.authFailures)

/-- DEBUG_TOKEN_COMMIT (R397). -/
def execDebugTokenCommit (r : Route) (handle : Nat) (digest : Bytes) (s : State) : Res :=
  .next (commitRow s r Obj.debugToken handle digest false (fun n => n == 7920) tokenRule unlock tokenRefused)

/-- The unlock ends. -/
def endUnlock (s : State) : State := updSec (objPut s Obj.debugUnlocked 0) (fun x => { x with monitorWrite := false })

/-- A write of DebugLock. -/
def writeDebugLock (r : Route) (v : Bytes) (s : State) : State :=
  writeRow s r Obj.debugLock v false noRule (fun s n => if n = 1 then endUnlock s else s)

/-- DEBUG_LOCK (R398). -/
def execDebugLock (r : Route) (v : Bytes) (s : State) : Res := .next (writeDebugLock r v s)

end Sys2Proof.Machine
end

