-- ==== Sys2Proof/Machine/Observability.lean ====
section
/-!
DEFINITION. The commands of snapshots, the journal and the Onal monitor (22).
-/

namespace Sys2Proof.Machine

/-! ### Snapshots (R434 to R436) -/

/-- A write of SnapshotTake: refused with busy during a snapshot; an epoch that a bank holds changes nothing. -/
def writeSnapshotTake (r : Route) (v : Bytes) (s : State) : State :=
  writeRow s r Obj.snapshotTake v false
    (fun s _ => if s.obs.current.isSome then 0x07 else 0)
    (fun s n => if epochTaken s (n % 2 ^ 32) then s else startSnap s (n % 2 ^ 32) (n / 2 ^ 32 % 64) (chip s))

/-- SNAPSHOT_TAKE (R434). -/
def execSnapshotTake (r : Route) (v : Bytes) (s : State) : Res := .next (writeSnapshotTake r v s)

/-- MARKER_FLIT_RECEIVE (R434 to R436). -/
def execMarkerFlitReceive (link epoch reach : Nat) (s : State) : Res := need (link < 64) (takeMarker s link epoch reach)

/-- SNAPSHOT_CLOSE (Table MON-2 step 5). -/
def execSnapshotClose (s : State) : Res := .next (closeSnap s)

/-! ### The journal (R438) -/

/-- Pending entries put into the ring of 262,144. -/
def journalFlush (s : State) : State :=
  let ring := s.obs.jring ++ s.obs.jbuf
  { s with obs := { s.obs with jring := ring.drop (ring.length - 262144), jbuf := [], lastCommit := s.now } }

/-- JOURNAL_COMMIT (R438, R354): every 1 s, or as soon as 256 entries are pending. -/
def execJournalCommit (s : State) : Res :=
  .next (if s.power.on ∧ !s.obs.jbuf.isEmpty ∧ (s.obs.lastCommit + ms 1000 ≤ s.now ∨ 256 ≤ s.obs.jbuf.length) then
    (if mayCommit s then journalFlush s else objInc s Obj.commitDeferrals)
  else s)

/-! ### Monitor lines (R439) -/

/-- Whether an output goes out on MON_TXD. -/
def isMonitor : Out → Bool
  | .monitor _ => true
  | .monitorValue _ _ => true
  | .monitorStatus _ => true
  | .monitorEntries _ => true
  | .monitorBlock _ => true
  | _ => false

/-- What a line makes the module send is lost while the driver of MON_TXD is released (Table MOD-18). -/
def muted (s s' : State) : State :=
  if s.iface.txReleased then { s' with out := s.out ++ (s'.out.drop s.out.length).filter (fun o => !isMonitor o) } else s'

/-- Whether the monitor hears anything: powered, from step 2 on, and no break on MON_RXD. -/
def monHears (s : State) : Bool := s.power.on && decide (2 ≤ s.seqs.startStep) && !s.iface.rxIgnored

/-- The prompt after an answered line; none while the line's binary transfer runs (R439, R440). -/
def prompt (s : State) : State := if s.obs.xfer.isSome then s else emit s (.monitor "onal> ")

/-- A command line: discarded and counted while core 3 restarts; before core 3 runs the supervisor serves some of them. The echo
of the line's characters is left out, as the command carries none of them (log entry 27). -/
def monLine (s : State) (sup : Bool) (run : State → State) : State :=
  if !monHears s || s.obs.xfer.isSome then s
  else if core3 s = 2 then objInc s Obj.monLinesDiscarded
  else muted s (prompt (if core3 s = 0 ∧ !sup then emit s (.monitorStatus 0x0B) else run s))

/-- The command names of Table MON-4. -/
def monNames : String := "OK help id state rd jr snap wr token load"

/-- MON_HELP (Table MON-4). -/
def execMonHelp (s : State) : Res := .next (monLine s false (fun s => emit s (.monitor monNames)))

/-- The values of some objects printed. -/
def printObjs (s : State) (ks : List Nat) : State :=
  ks.foldl (fun s k => emit s (.monitorValue k (match objRow k with
    | some row => if row.typ = .str then strRead k else natLe row.typ.len (objRead s k)
    | none => []))) s

/-- MON_ID (Table MON-4). -/
def execMonId (s : State) : Res :=
  .next (monLine s true (fun s => printObjs s [Obj.productCode, Obj.serialNumber, Obj.chipNumber, Obj.firmwareVersion]))

/-- MON_STATE (Table MON-4). -/
def execMonState (s : State) : Res :=
  .next (monLine s true (fun s =>
    printObjs s ([Obj.moduleState, Obj.startupStep, Obj.thermalState, Obj.bridgeState, Obj.memState]
      ++ (List.range 64).map (fun k => Obj.linkState + k))))

/-- MON_RD (Table MON-4): a read in the Host role. -/
def execMonRd (key : Nat) (s : State) : Res := .next (monLine s true (fun s => readRow s .monRead key))

/-- MON_JR (Table MON-4): the newest n entries, 1 to 256. -/
def execMonJr (n : Nat) (s : State) : Res :=
  .next (monLine s false (fun s =>
    if 1 ≤ n ∧ n ≤ 256 then emit s (.monitorEntries (newestEntries s n)) else emit s (.monitorStatus 0x03)))

/-- MON_SNAP (Table MON-4): a write of SnapshotTake. -/
def execMonSnap (epoch hops : Nat) (s : State) : Res :=
  .next (monLine s true (writeSnapshotTake .monWrite (natLe 8 (epoch % 2 ^ 32 + hops % 64 * 2 ^ 32))))

/-- A write of any object by the monitor. -/
def monWrite (k : Nat) (v : Bytes) (burnt : Bool) (s : State) : State :=
  let r := Route.monWrite
  if k = Obj.warmRestart then writeWarmRestart r v s
  else if k = Obj.coldRestart then writeColdRestart r v s
  else if k = Obj.thermalRestart then writeThermalRestart r v s
  else if k = Obj.checkpointNow then writeCheckpointNow r v s
  else if k = Obj.checkpointRestore then writeCheckpointRestore r v s
  else if k = Obj.epochSwitch then writeEpochSwitch r v s
  else if k = Obj.drainArm then writeDrainArm r v s
  else if k = Obj.epochRelease then writeEpochRelease r v s
  else if k = Obj.linkQuarantine then writeLinkQuarantine r v s
  else if k = Obj.memHashKey then writeMemHashKey r v burnt s
  else if k = Obj.chipNumberLock then writeChipNumberLock r v burnt s
  else if k = Obj.thermalRedOverride then writeThermalRedOverride r v burnt s
  else if k = Obj.lifecycleState then writeLifecycle r v burnt s
  else if k = Obj.antiRollbackLevel then writeAntiRollback r v burnt s
  else if k = Obj.revokeRootKey then writeRevoke r v s
  else if k = Obj.debugLock then writeDebugLock r v s
  else if k = Obj.snapshotTake then writeSnapshotTake r v s
  else writePlain r k v s

/-- MON_WR (Table MON-4): a write in the Vendor role after the debug unlock. -/
def execMonWr (key : Nat) (value : Bytes) (burnt : Bool) (s : State) : Res := .next (monLine s true (monWrite key value burnt))

/-! ### Binary transfers (R440) -/

/-- A binary transfer begins: 0 a debug token, 1 a firmware bank. -/
def startBinary (s : State) (kind total : Nat) (digest : Bytes) : State :=
  { s with obs := { s.obs with xfer := some (kind, total, []), xferDigest := digest, xferBad := 0, xferLast := s.now } }

/-- MON_TOKEN (Table MON-4). -/
def execMonToken (s : State) : Res := .next (monLine s false (fun s => startBinary s 0 7920 []))

/-- MON_LOAD (Table MON-4): accepted without the unlock only in recovery; the FirmwareBank rules are checked first. -/
def execMonLoad (bytes : Nat) (digest : Bytes) (s : State) : Res :=
  .next (monLine s true (fun s =>
    if !s.seqs.recovery && core3 s = 0 then emit s (.monitorStatus 0x0B)
    else if !s.seqs.recovery && !(objGet s Obj.debugUnlocked == 1 && s.sec.monitorWrite) then emit s (.monitorStatus 0x05)
    else if !s.queues.isEmpty then emit s (.monitorStatus 0x08)
    else if bytes = 0 ∨ 67108864 < bytes then emit s (.monitorStatus 0x03)
    else startBinary s 1 bytes digest))

/-- A binary transfer ended. -/
def endBinary (s : State) (status : Nat) : State :=
  prompt (emit { s with obs := { s.obs with xfer := none, xferDigest := [], xferBad := 0 } } (.monitorStatus status))

/-- A token received by the monitor: the DebugToken rules. -/
def takeToken (s : State) (t : Bytes) : State := if tokenOk s t then endBinary (unlock s t) 0 else endBinary (tokenRefused s) 0x08

/-- A firmware bank received by the monitor: digest, then the FirmwareBank rules; outside recovery it is staged in T00–T07. -/
def takeLoad (s : State) (image : Bytes) : State :=
  if sha256 image ≠ s.obs.xferDigest then endBinary s 0x0A
  else if updateRule s image ≠ 0 then endBinary s 0x08
  else
    let s := if s.seqs.recovery then s else writeBytes s tileBase image false
    let s := journal s .domainCommitted [Obj.firmwareBank, 2, 0, 1, shaNat [], shaNat image]
    endBinary (startUpdate s) 0

/-- One block of a binary transfer. -/
def takeBlock (s : State) (data : Bytes) (good : Bool) : State :=
  match s.obs.xfer with
  | none => s
  | some (kind, total, have_) =>
    if good ∧ data.length = min 1024 (total - have_.length) then
      let all := have_ ++ data
      let s := emit { s with obs := { s.obs with xfer := some (kind, total, all), xferBad := 0, xferLast := s.now } } (.monitorBlock true)
      if all.length < total then s else if kind = 0 then takeToken s all else takeLoad s all
    else
      let s := emit { s with obs := { s.obs with xferBad := s.obs.xferBad + 1, xferLast := s.now } } (.monitorBlock false)
      if 8 ≤ s.obs.xferBad then endBinary s 0x0E else s

/-- MONITOR_BLOCK (R440). -/
def execMonitorBlock (data : Bytes) (good : Bool) (s : State) : Res :=
  .next (if monHears s ∧ core3 s ≠ 2 then muted s (takeBlock s data good) else s)

/-- MONITOR_TRANSFER_TIMEOUT (R440): 5 s without a byte. -/
def execMonitorTransferTimeout (s : State) : Res :=
  .next (if s.obs.xfer.isSome ∧ s.obs.xferLast + ms 5000 ≤ s.now then muted s (endBinary s 0x0E) else s)

end Sys2Proof.Machine
end

