-- ==== Sys2Proof/Machine/Dispatch.lean ====
section
/-!
DEFINITION. The dispatch: one arm per command, each a direct call of its meaning.
-/

namespace Sys2Proof.Machine

def exec (i : Instr) (s : State) : Host.Outcome State Fault Refusal :=
  match i with
  | .bridgeFlitReceive bundle flit crcOk => Sys2Proof.Machine.execBridgeFlitReceive bundle flit crcOk s
  | .bundleRetire bundle => Sys2Proof.Machine.execBundleRetire bundle s
  | .pilotLinkFailure => Sys2Proof.Machine.execPilotLinkFailure s
  | .pilotTrainRetry trained => Sys2Proof.Machine.execPilotTrainRetry trained s
  | .arrayPass nn tst => Sys2Proof.Machine.execArrayPass nn tst s
  | .arrayRowCommit nn upset => Sys2Proof.Machine.execArrayRowCommit nn upset s
  | .witnessRerunDone nn upset => Sys2Proof.Machine.execWitnessRerunDone nn upset s
  | .bankHandoff nn => Sys2Proof.Machine.execBankHandoff nn s
  | .arrayDescriptorComplete nn => Sys2Proof.Machine.execArrayDescriptorComplete nn s
  | .vectorProgram nn tst => Sys2Proof.Machine.execVectorProgram nn tst s
  | .treeMerge nn tst => Sys2Proof.Machine.execTreeMerge nn tst s
  | .scan nn tst => Sys2Proof.Machine.execScan nn tst s
  | .rebias nn tst => Sys2Proof.Machine.execRebias nn tst s
  | .vectorDescriptorComplete nn => Sys2Proof.Machine.execVectorDescriptorComplete nn s
  | .layerOpen q list => Sys2Proof.Machine.execLayerOpen q list s
  | .layerAttemptEnd q list => Sys2Proof.Machine.execLayerAttemptEnd q list s
  | .escalationImageCommit r handle digest => Sys2Proof.Machine.execEscalationImageCommit r handle digest s
  | .streamStart engine => Sys2Proof.Machine.execStreamStart engine s
  | .claimGrant slice => Sys2Proof.Machine.execClaimGrant slice s
  | .streamRequestIssue r => Sys2Proof.Machine.execStreamRequestIssue r s
  | .streamRequestDone engine seq req o => Sys2Proof.Machine.execStreamRequestDone engine seq req o s
  | .seamMarker q => Sys2Proof.Machine.execSeamMarker q s
  | .seamOpen q => Sys2Proof.Machine.execSeamOpen q s
  | .deadlockWatchFire slice => Sys2Proof.Machine.execDeadlockWatchFire slice s
  | .spillCopyDone slice => Sys2Proof.Machine.execSpillCopyDone slice s
  | .spillReclaim slice => Sys2Proof.Machine.execSpillReclaim slice s
  | .restoreCopyDone slice => Sys2Proof.Machine.execRestoreCopyDone slice s
  | .tileStoreScrub slice w0 w1 => Sys2Proof.Machine.execTileStoreScrub slice w0 w1 s
  | .lpddrReadComplete package channel es => Sys2Proof.Machine.execLpddrReadComplete package channel es s
  | .lpddrWriteAccept line mask data poison => Sys2Proof.Machine.execLpddrWriteAccept line mask data poison s
  | .packageTempRead pkg tempC => Sys2Proof.Machine.execPackageTempRead pkg tempC s
  | .channelOvertemp ch => Sys2Proof.Machine.execChannelOvertemp ch s
  | .lpddrScrubRead ch es => Sys2Proof.Machine.execLpddrScrubRead ch es s
  | .retrainStart ch => Sys2Proof.Machine.execRetrainStart ch s
  | .retrainEnd ch ok => Sys2Proof.Machine.execRetrainEnd ch ok s
  | .softRepairStart ch bank row => Sys2Proof.Machine.execSoftRepairStart ch bank row s
  | .softRepairEnd ch resource bad => Sys2Proof.Machine.execSoftRepairEnd ch resource bad s
  | .channelFailure ch => Sys2Proof.Machine.execChannelFailure ch s
  | .queueLaunch block parts => Sys2Proof.Machine.execQueueLaunch block parts s
  | .queueDestroy => Sys2Proof.Machine.execQueueDestroy s
  | .qsyDoorbell q p => Sys2Proof.Machine.execQsyDoorbell q p s
  | .descriptorFetch q f => Sys2Proof.Machine.execDescriptorFetch q f s
  | .descriptorIssue half => Sys2Proof.Machine.execDescriptorIssue half s
  | .qsyCmdRelease q => Sys2Proof.Machine.execQsyCmdRelease q s
  | .qsyCmdDiscard q => Sys2Proof.Machine.execQsyCmdDiscard q s
  | .qsyCmdAbort q => Sys2Proof.Machine.execQsyCmdAbort q s
  | .qsyIrqWrite q v => Sys2Proof.Machine.execQsyIrqWrite q v s
  | .cplPendingTimeout q => Sys2Proof.Machine.execCplPendingTimeout q s
  | .syncSignal obj amount => Sys2Proof.Machine.execSyncSignal obj amount s
  | .syncSet obj value => Sys2Proof.Machine.execSyncSet obj value s
  | .waitPoll half => Sys2Proof.Machine.execWaitPoll half s
  | .coreWatchdogExpire core pc imageOk => Sys2Proof.Machine.execCoreWatchdogExpire core pc imageOk s
  | .coreRestartDone core => Sys2Proof.Machine.execCoreRestartDone core s
  | .supervisorWatchdogExpire => Sys2Proof.Machine.execSupervisorWatchdogExpire s
  | .lightLoss laser line => Sys2Proof.Machine.execLightLoss laser line s
  | .lightRestore laser line => Sys2Proof.Machine.execLightRestore laser line s
  | .lockInReading ring errMHz => Sys2Proof.Machine.execLockInReading ring errMHz s
  | .feedForwardUpdate ring sites => Sys2Proof.Machine.execFeedForwardUpdate ring sites s
  | .ringLockLoss ring => Sys2Proof.Machine.execRingLockLoss ring s
  | .rotorStep fibre => Sys2Proof.Machine.execRotorStep fibre s
  | .rotorLineLocked fibre => Sys2Proof.Machine.execRotorLineLocked fibre s
  | .rotorAcceptTimeout fibre => Sys2Proof.Machine.execRotorAcceptTimeout fibre s
  | .idleDropSweep inFibre locked => Sys2Proof.Machine.execIdleDropSweep inFibre locked s
  | .laneRecoveryEnd ring found t => Sys2Proof.Machine.execLaneRecoveryEnd ring found t s
  | .beaconSend fibre line => Sys2Proof.Machine.execBeaconSend fibre line s
  | .beaconReceive inFibre line b => Sys2Proof.Machine.execBeaconReceive inFibre line b s
  | .mapEntryExpire fibre line => Sys2Proof.Machine.execMapEntryExpire fibre line s
  | .laneDemandCommit r handle digest => Sys2Proof.Machine.execLaneDemandCommit r handle digest s
  | .lineRequestSend fibre line => Sys2Proof.Machine.execLineRequestSend fibre line s
  | .lineRequest chip outFibre line inFibre => Sys2Proof.Machine.execLineRequest chip outFibre line inFibre s
  | .lineGrant fibre line t => Sys2Proof.Machine.execLineGrant fibre line t s
  | .lineRefuse fibre line => Sys2Proof.Machine.execLineRefuse fibre line s
  | .flitReceive inFibre line f => Sys2Proof.Machine.execFlitReceive inFibre line f s
  | .flitResendTimeout link flitSeq => Sys2Proof.Machine.execFlitResendTimeout link flitSeq s
  | .flitRetryLimit link flitSeq => Sys2Proof.Machine.execFlitRetryLimit link flitSeq s
  | .linkReform link => Sys2Proof.Machine.execLinkReform link s
  | .linkRemove link => Sys2Proof.Machine.execLinkRemove link s
  | .laneErrorRemoval link lane => Sys2Proof.Machine.execLaneErrorRemoval link lane s
  | .laneTrainingDone outgoing fibre line t => Sys2Proof.Machine.execLaneTrainingDone outgoing fibre line t s
  | .capability link version caps epochProto => Sys2Proof.Machine.execCapability link version caps epochProto s
  | .capabilityAck link agreed => Sys2Proof.Machine.execCapabilityAck link agreed s
  | .propose link lane toLine copyOk => Sys2Proof.Machine.execPropose link lane toLine copyOk s
  | .accept link lane => Sys2Proof.Machine.execAccept link lane s
  | .rotorAbort link lane => Sys2Proof.Machine.execRotorAbort link lane s
  | .laneDown link lane cause => Sys2Proof.Machine.execLaneDown link lane cause s
  | .laneJoin link lane flitSeq => Sys2Proof.Machine.execLaneJoin link lane flitSeq s
  | .laneLeave link lane flitSeq => Sys2Proof.Machine.execLaneLeave link lane flitSeq s
  | .greyNotice link cause => Sys2Proof.Machine.execGreyNotice link cause s
  | .intendedMapCommit r handle digest => Sys2Proof.Machine.execIntendedMapCommit r handle digest s
  | .linkQuarantineWrite r v => Sys2Proof.Machine.execLinkQuarantineWrite r v s
  | .packetRoute half id => Sys2Proof.Machine.execPacketRoute half id s
  | .escapeWaitExpire half id => Sys2Proof.Machine.execEscapeWaitExpire half id s
  | .escapeStall half id => Sys2Proof.Machine.execEscapeStall half id s
  | .routeTableLoad r handle digest => Sys2Proof.Machine.execRouteTableLoad r handle digest s
  | .epochSwitch r v => Sys2Proof.Machine.execEpochSwitch r v s
  | .drainArm r v => Sys2Proof.Machine.execDrainArm r v s
  | .epochRelease r v => Sys2Proof.Machine.execEpochRelease r v s
  | .hotWindowGrow half cls dest => Sys2Proof.Machine.execHotWindowGrow half cls dest s
  | .classWindowAdjust half cls fill => Sys2Proof.Machine.execClassWindowAdjust half cls fill s
  | .loadRequest p => Sys2Proof.Machine.execLoadRequest p s
  | .storeRequest p => Sys2Proof.Machine.execStoreRequest p s
  | .atomicRequest p => Sys2Proof.Machine.execAtomicRequest p s
  | .remoteSignalRequest p => Sys2Proof.Machine.execRemoteSignalRequest p s
  | .fabricReplyReceive p => Sys2Proof.Machine.execFabricReplyReceive p s
  | .replyTimeout tag => Sys2Proof.Machine.execReplyTimeout tag s
  | .windowOpen => Sys2Proof.Machine.execWindowOpen s
  | .windowModify => Sys2Proof.Machine.execWindowModify s
  | .windowClose => Sys2Proof.Machine.execWindowClose s
  | .replayEntryExpire half src seq => Sys2Proof.Machine.execReplayEntryExpire half src seq s
  | .atomicUnitWriteback addr => Sys2Proof.Machine.execAtomicUnitWriteback addr s
  | .rcacheInvalidate q => Sys2Proof.Machine.execRcacheInvalidate q s
  | .collQueueLaunch block parts => Sys2Proof.Machine.execCollQueueLaunch block parts s
  | .collectiveIssue => Sys2Proof.Machine.execCollectiveIssue s
  | .collectiveActivate half => Sys2Proof.Machine.execCollectiveActivate half s
  | .collLocalInput collId chunk segment => Sys2Proof.Machine.execCollLocalInput collId chunk segment s
  | .collPacketReceive p => Sys2Proof.Machine.execCollPacketReceive p s
  | .greySegmentReduce collId level chunk segment => Sys2Proof.Machine.execGreySegmentReduce collId level chunk segment s
  | .collWatchdogExpire collId => Sys2Proof.Machine.execCollWatchdogExpire collId s
  | .collAbort => Sys2Proof.Machine.execCollAbort s
  | .pendingEntryExpire collId => Sys2Proof.Machine.execPendingEntryExpire collId s
  | .collGroupTableCommit r handle digest => Sys2Proof.Machine.execCollGroupTableCommit r handle digest s
  | .configRequest c => Sys2Proof.Machine.execConfigRequest c s
  | .mailboxUnknownCommand => Sys2Proof.Machine.execMailboxUnknownCommand s
  | .msixUnmask vector => Sys2Proof.Machine.execMsixUnmask vector s
  | .dataPortWrite first bytes poison => Sys2Proof.Machine.execDataPortWrite first bytes poison s
  | .dataPortRead first r => Sys2Proof.Machine.execDataPortRead first r s
  | .bar2Access offset a => Sys2Proof.Machine.execBar2Access offset a s
  | .hostSnoop addr => Sys2Proof.Machine.execHostSnoop addr s
  | .atsInvalidation pasid page => Sys2Proof.Machine.execAtsInvalidation pasid page s
  | .pageResponse pasid page => Sys2Proof.Machine.execPageResponse pasid page s
  | .cxlMemRead x => Sys2Proof.Machine.execCxlMemRead x s
  | .cxlMemWrite line mask data poison => Sys2Proof.Machine.execCxlMemWrite line mask data poison s
  | .bisnpResponse line => Sys2Proof.Machine.execBisnpResponse line s
  | .bisnpTimeout line => Sys2Proof.Machine.execBisnpTimeout line s
  | .perstNAssert => Sys2Proof.Machine.execPerstNAssert s
  | .hotReset => Sys2Proof.Machine.execHotReset s
  | .hostLinkDown => Sys2Proof.Machine.execHostLinkDown s
  | .functionLevelReset => Sys2Proof.Machine.execFunctionLevelReset s
  | .hostQueuesDestroy => Sys2Proof.Machine.execHostQueuesDestroy s
  | .perstNDeassert refclk => Sys2Proof.Machine.execPerstNDeassert refclk s
  | .hostLinkTrained gen width => Sys2Proof.Machine.execHostLinkTrained gen width s
  | .dapFragment ip port w0 w1 payload reversed => Sys2Proof.Machine.execDapFragment ip port w0 w1 payload reversed s
  | .dapReassemblyTimeout session seq => Sys2Proof.Machine.execDapReassemblyTimeout session seq s
  | .dicRead r key => Sys2Proof.Machine.execDicRead r key s
  | .dicWrite r key value => Sys2Proof.Machine.execDicWrite r key value s
  | .describe r key => Sys2Proof.Machine.execDescribe r key s
  | .domainOpen r key dir size => Sys2Proof.Machine.execDomainOpen r key dir size s
  | .domainSegment r header data => Sys2Proof.Machine.execDomainSegment r header data s
  | .domainCommit r handle digest => Sys2Proof.Machine.execDomainCommit r handle digest s
  | .domainAbort r handle => Sys2Proof.Machine.execDomainAbort r handle s
  | .domainTransferTimeout handle => Sys2Proof.Machine.execDomainTransferTimeout handle s
  | .sessionHello ip port seq role => Sys2Proof.Machine.execSessionHello ip port seq role s
  | .sessionProve r key signature => Sys2Proof.Machine.execSessionProve r key signature s
  | .sessionClose r => Sys2Proof.Machine.execSessionClose r s
  | .keepalive r => Sys2Proof.Machine.execKeepalive r s
  | .sessionProveTimeout session => Sys2Proof.Machine.execSessionProveTimeout session s
  | .sessionIdleExpire session => Sys2Proof.Machine.execSessionIdleExpire session s
  | .authLockoutExpire => Sys2Proof.Machine.execAuthLockoutExpire s
  | .persistCommit key => Sys2Proof.Machine.execPersistCommit key s
  | .dhcpLease ip => Sys2Proof.Machine.execDhcpLease ip s
  | .dhcpTimeout => Sys2Proof.Machine.execDhcpTimeout s
  | .dhcpRetry => Sys2Proof.Machine.execDhcpRetry s
  | .plcaBeaconLoss => Sys2Proof.Machine.execPlcaBeaconLoss s
  | .arpRequest ip => Sys2Proof.Machine.execArpRequest ip s
  | .icmpEcho ip payload => Sys2Proof.Machine.execIcmpEcho ip payload s
  | .memHashKeyWrite r v burnt => Sys2Proof.Machine.execMemHashKeyWrite r v burnt s
  | .chipNumberLockWrite r v burnt => Sys2Proof.Machine.execChipNumberLockWrite r v burnt s
  | .thermalRedOverrideWrite r v burnt => Sys2Proof.Machine.execThermalRedOverrideWrite r v burnt s
  | .lifecycleStateWrite r v burnt => Sys2Proof.Machine.execLifecycleStateWrite r v burnt s
  | .antiRollbackLevelWrite r v burnt => Sys2Proof.Machine.execAntiRollbackLevelWrite r v burnt s
  | .paleEnter mv => Sys2Proof.Machine.execPaleEnter mv s
  | .paleExit mv => Sys2Proof.Machine.execPaleExit mv s
  | .paleLong => Sys2Proof.Machine.execPaleLong s
  | .supplyReset mv => Sys2Proof.Machine.execSupplyReset mv s
  | .auxLoss => Sys2Proof.Machine.execAuxLoss s
  | .converterFault conv => Sys2Proof.Machine.execConverterFault conv s
  | .powerLimitOverrun => Sys2Proof.Machine.execPowerLimitOverrun s
  | .powerLimitRecover => Sys2Proof.Machine.execPowerLimitRecover s
  | .setpointStep half watts => Sys2Proof.Machine.execSetpointStep half watts s
  | .commitDeferralRetry mj => Sys2Proof.Machine.execCommitDeferralRetry mj s
  | .holdUpFault => Sys2Proof.Machine.execHoldUpFault s
  | .sensorReading site r0 r1 => Sys2Proof.Machine.execSensorReading site r0 r1 s
  | .sensorUnflag site sensor => Sys2Proof.Machine.execSensorUnflag site sensor s
  | .amberEnter dom => Sys2Proof.Machine.execAmberEnter dom s
  | .amberStep dom => Sys2Proof.Machine.execAmberStep dom s
  | .amberExit dom => Sys2Proof.Machine.execAmberExit dom s
  | .redExit dom => Sys2Proof.Machine.execRedExit dom s
  | .blackRateTrigger site => Sys2Proof.Machine.execBlackRateTrigger site s
  | .thermalAutoRestart => Sys2Proof.Machine.execThermalAutoRestart s
  | .thermalRestartWrite r v => Sys2Proof.Machine.execThermalRestartWrite r v s
  | .katRun nn failedPass => Sys2Proof.Machine.execKatRun nn failedPass s
  | .checkpointNow r v => Sys2Proof.Machine.execCheckpointNow r v s
  | .checkpointQuiesced => Sys2Proof.Machine.execCheckpointQuiesced s
  | .checkpointQuiesceTimeout => Sys2Proof.Machine.execCheckpointQuiesceTimeout s
  | .checkpointCopyDone => Sys2Proof.Machine.execCheckpointCopyDone s
  | .checkpointRestore r v => Sys2Proof.Machine.execCheckpointRestore r v s
  | .warmRestartWrite r v => Sys2Proof.Machine.execWarmRestartWrite r v s
  | .warmRestartStepDone o => Sys2Proof.Machine.execWarmRestartStepDone o s
  | .firmwareBankCommit r handle digest => Sys2Proof.Machine.execFirmwareBankCommit r handle digest s
  | .firmwareProgramDone images => Sys2Proof.Machine.execFirmwareProgramDone images s
  | .revokeRootKey r v burnt => Sys2Proof.Machine.execRevokeRootKey r v burnt s
  | .attestNonceCommit r handle digest => Sys2Proof.Machine.execAttestNonceCommit r handle digest s
  | .attestationSigned => Sys2Proof.Machine.execAttestationSigned s
  | .identityCertificateCommit r handle digest certKey => Sys2Proof.Machine.execIdentityCertificateCommit r handle digest certKey s
  | .debugTokenCommit r handle digest => Sys2Proof.Machine.execDebugTokenCommit r handle digest s
  | .debugLock r v => Sys2Proof.Machine.execDebugLock r v s
  | .auxPowerUp straps => Sys2Proof.Machine.execAuxPowerUp straps s
  | .mainInputQualified straps => Sys2Proof.Machine.execMainInputQualified straps s
  | .railRetry => Sys2Proof.Machine.execRailRetry s
  | .startupStepDone o => Sys2Proof.Machine.execStartupStepDone o s
  | .startupOverrun => Sys2Proof.Machine.execStartupOverrun s
  | .coldRestartWrite r v => Sys2Proof.Machine.execColdRestartWrite r v s
  | .crossingDrainTimeout island => Sys2Proof.Machine.execCrossingDrainTimeout island s
  | .leakLoopSample ohms => Sys2Proof.Machine.execLeakLoopSample ohms s
  | .leakDryRelease => Sys2Proof.Machine.execLeakDryRelease s
  | .flowLow centiLpm => Sys2Proof.Machine.execFlowLow centiLpm s
  | .auxEfuseTrip => Sys2Proof.Machine.execAuxEfuseTrip s
  | .auxEfuseRetry clear => Sys2Proof.Machine.execAuxEfuseRetry clear s
  | .monTxdFault => Sys2Proof.Machine.execMonTxdFault s
  | .monRxdBreak => Sys2Proof.Machine.execMonRxdBreak s
  | .timeSourceChange refclk => Sys2Proof.Machine.execTimeSourceChange refclk s
  | .snapshotTake r v => Sys2Proof.Machine.execSnapshotTake r v s
  | .markerFlitReceive link epoch reach => Sys2Proof.Machine.execMarkerFlitReceive link epoch reach s
  | .snapshotClose => Sys2Proof.Machine.execSnapshotClose s
  | .journalCommit => Sys2Proof.Machine.execJournalCommit s
  | .monHelp => Sys2Proof.Machine.execMonHelp s
  | .monId => Sys2Proof.Machine.execMonId s
  | .monState => Sys2Proof.Machine.execMonState s
  | .monRd key => Sys2Proof.Machine.execMonRd key s
  | .monJr n => Sys2Proof.Machine.execMonJr n s
  | .monSnap epoch hops => Sys2Proof.Machine.execMonSnap epoch hops s
  | .monWr key value burnt => Sys2Proof.Machine.execMonWr key value burnt s
  | .monToken => Sys2Proof.Machine.execMonToken s
  | .monLoad bytes digest => Sys2Proof.Machine.execMonLoad bytes digest s
  | .monitorBlock data good => Sys2Proof.Machine.execMonitorBlock data good s
  | .monitorTransferTimeout => Sys2Proof.Machine.execMonitorTransferTimeout s
  | .registerWrite offset size value => Sys2Proof.Machine.execRegisterWrite offset size value s
  | .intermediateBusUp straps => Sys2Proof.Machine.execIntermediateBusUp straps s
  | .auxRestore => Sys2Proof.Machine.execAuxRestore s
  | .dimDeferredStart ch => Sys2Proof.Machine.execDimDeferredStart ch s
  | .laneSkewHoldEnd outgoing fibre line => Sys2Proof.Machine.execLaneSkewHoldEnd outgoing fibre line s
  | .trialReadyTimeout => Sys2Proof.Machine.execTrialReadyTimeout s
  | .monTxdDriverRetry clear => Sys2Proof.Machine.execMonTxdDriverRetry clear s
  | .monRxdBreakEnd => Sys2Proof.Machine.execMonRxdBreakEnd s

end Sys2Proof.Machine
end

