-- ==== Sys2Proof/WellFormed.lean ====
section
/-!
DEFINITION. Well-formed commands: every part, line, link, object and vector they name is one that Table MOD-2
and the tables of the chapters number.
-/

namespace Sys2Proof

/-- A number below a bound. -/
def below (n b : Nat) : Bool := decide (n < b)

/-- An optional number below a bound. -/
def optBelow (o : Option Nat) (b : Nat) : Bool :=
  match o with
  | some n => below n b
  | none => true

/-- Lines of 64 B in LPDDR (Table MOD-6). -/
def lineCount : Nat := 0x012000000000 / 64

/-- Whether every part a command names exists. -/
def Instr.wf : Instr → Bool
  | .bridgeFlitReceive bundle _ _ => below bundle 96
  | .bundleRetire bundle => below bundle 96
  | .pilotLinkFailure => true
  | .pilotTrainRetry _ => true
  | .arrayPass nn _ => below nn 64
  | .arrayRowCommit nn _ => below nn 64
  | .witnessRerunDone nn _ => below nn 64
  | .bankHandoff nn => below nn 64
  | .arrayDescriptorComplete nn => below nn 64
  | .vectorProgram nn _ => below nn 64
  | .treeMerge nn _ => below nn 64
  | .scan nn _ => below nn 64
  | .rebias nn _ => below nn 64
  | .vectorDescriptorComplete nn => below nn 64
  | .layerOpen q _ => below q 1025
  | .layerAttemptEnd q _ => below q 1025
  | .escalationImageCommit _ _ _ => true
  | .streamStart engine => below engine 72
  | .claimGrant slice => below slice 64
  | .streamRequestIssue _ => true
  | .streamRequestDone engine _ _ _ => below engine 72
  | .seamMarker q => below q 1025
  | .seamOpen q => below q 1025
  | .deadlockWatchFire slice => below slice 64
  | .spillCopyDone slice => below slice 64
  | .spillReclaim slice => below slice 64
  | .restoreCopyDone slice => below slice 64
  | .tileStoreScrub slice _ _ => below slice 64
  | .lpddrReadComplete package channel _ => below package 16 && below channel 4
  | .lpddrWriteAccept line _ _ _ => below line lineCount
  | .packageTempRead pkg _ => below pkg 16
  | .channelOvertemp ch => below ch 64
  | .lpddrScrubRead ch _ => below ch 64
  | .retrainStart ch => below ch 64
  | .retrainEnd ch _ => below ch 64
  | .softRepairStart ch _ _ => below ch 64
  | .softRepairEnd ch _ _ => below ch 64
  | .channelFailure ch => below ch 64
  | .queueLaunch _ _ => true
  | .queueDestroy => true
  | .qsyDoorbell q _ => below q 1025
  | .descriptorFetch q _ => below q 1025
  | .descriptorIssue _ => true
  | .qsyCmdRelease q => below q 1025
  | .qsyCmdDiscard q => below q 1025
  | .qsyCmdAbort q => below q 1025
  | .qsyIrqWrite q _ => below q 1025
  | .cplPendingTimeout q => below q 1025
  | .syncSignal obj _ => below obj 32768
  | .syncSet obj _ => below obj 32768
  | .waitPoll _ => true
  | .coreWatchdogExpire core _ _ => below core 8
  | .coreRestartDone core => below core 8
  | .supervisorWatchdogExpire => true
  | .lightLoss laser line => below laser 8 && optBelow line 17
  | .lightRestore laser line => below laser 8 && optBelow line 17
  | .lockInReading ring _ => below ring 1088
  | .feedForwardUpdate ring sites => below ring 1088 && sites.all (fun x => below x 88 && decide (64 ≤ x))
  | .ringLockLoss ring => below ring 1088
  | .rotorStep fibre => below fibre 32
  | .rotorLineLocked fibre => below fibre 32
  | .rotorAcceptTimeout fibre => below fibre 32
  | .idleDropSweep inFibre _ => below inFibre 32
  | .laneRecoveryEnd ring _ _ => below ring 1088
  | .beaconSend fibre line => below fibre 32 && below line 17
  | .beaconReceive inFibre line _ => below inFibre 32 && below line 17
  | .mapEntryExpire fibre line => below fibre 32 && below line 17
  | .laneDemandCommit _ _ _ => true
  | .lineRequestSend fibre line => below fibre 32 && below line 17
  | .lineRequest chip outFibre line inFibre => below chip 16384 && below outFibre 32 && below line 17 && below inFibre 32
  | .lineGrant fibre line _ => below fibre 32 && below line 17
  | .lineRefuse fibre line => below fibre 32 && below line 17
  | .flitReceive inFibre line _ => below inFibre 32 && below line 17
  | .flitResendTimeout link _ => below link 64
  | .flitRetryLimit link _ => below link 64
  | .linkReform link => below link 64
  | .linkRemove link => below link 64
  | .laneErrorRemoval link lane => below link 64 && below lane 128
  | .laneTrainingDone _ fibre line _ => below fibre 32 && below line 17
  | .capability link _ _ _ => below link 64
  | .capabilityAck link _ => below link 64
  | .propose link _ toLine _ => below link 64 && below toLine 17
  | .accept link _ => below link 64
  | .rotorAbort link _ => below link 64
  | .laneDown link _ _ => below link 64
  | .laneJoin link _ _ => below link 64
  | .laneLeave link _ _ => below link 64
  | .greyNotice link _ => below link 64
  | .intendedMapCommit _ _ _ => true
  | .linkQuarantineWrite _ _ => true
  | .packetRoute _ _ => true
  | .escapeWaitExpire _ _ => true
  | .escapeStall _ _ => true
  | .routeTableLoad _ _ _ => true
  | .epochSwitch _ _ => true
  | .drainArm _ _ => true
  | .epochRelease _ _ => true
  | .hotWindowGrow _ _ dest => below dest 16384
  | .classWindowAdjust _ _ _ => true
  | .loadRequest _ => true
  | .storeRequest _ => true
  | .atomicRequest _ => true
  | .remoteSignalRequest _ => true
  | .fabricReplyReceive _ => true
  | .replyTimeout _ => true
  | .windowOpen => true
  | .windowModify => true
  | .windowClose => true
  | .replayEntryExpire _ _ _ => true
  | .atomicUnitWriteback _ => true
  | .rcacheInvalidate q => below q 1025
  | .collQueueLaunch _ _ => true
  | .collectiveIssue => true
  | .collectiveActivate _ => true
  | .collLocalInput _ _ _ => true
  | .collPacketReceive _ => true
  | .greySegmentReduce _ _ _ _ => true
  | .collWatchdogExpire _ => true
  | .collAbort => true
  | .pendingEntryExpire _ => true
  | .collGroupTableCommit _ _ _ => true
  | .configRequest _ => true
  | .mailboxUnknownCommand => true
  | .msixUnmask vector => optBelow vector 2048
  | .dataPortWrite _ _ _ => true
  | .dataPortRead _ _ => true
  | .bar2Access _ _ => true
  | .hostSnoop _ => true
  | .atsInvalidation _ _ => true
  | .pageResponse _ _ => true
  | .cxlMemRead _ => true
  | .cxlMemWrite line _ _ _ => below line lineCount
  | .bisnpResponse line => below line lineCount
  | .bisnpTimeout line => below line lineCount
  | .perstNAssert => true
  | .hotReset => true
  | .hostLinkDown => true
  | .functionLevelReset => true
  | .hostQueuesDestroy => true
  | .perstNDeassert _ => true
  | .hostLinkTrained _ _ => true
  | .dapFragment _ _ _ _ _ _ => true
  | .dapReassemblyTimeout _ _ => true
  | .dicRead _ _ => true
  | .dicWrite _ _ _ => true
  | .describe _ _ => true
  | .domainOpen _ _ _ _ => true
  | .domainSegment _ _ _ => true
  | .domainCommit _ _ _ => true
  | .domainAbort _ _ => true
  | .domainTransferTimeout _ => true
  | .sessionHello _ _ _ _ => true
  | .sessionProve _ _ _ => true
  | .sessionClose _ => true
  | .keepalive _ => true
  | .sessionProveTimeout _ => true
  | .sessionIdleExpire _ => true
  | .authLockoutExpire => true
  | .persistCommit _ => true
  | .dhcpLease _ => true
  | .dhcpTimeout => true
  | .dhcpRetry => true
  | .plcaBeaconLoss => true
  | .arpRequest _ => true
  | .icmpEcho _ _ => true
  | .memHashKeyWrite _ _ _ => true
  | .chipNumberLockWrite _ _ _ => true
  | .thermalRedOverrideWrite _ _ _ => true
  | .lifecycleStateWrite _ _ _ => true
  | .antiRollbackLevelWrite _ _ _ => true
  | .paleEnter _ => true
  | .paleExit _ => true
  | .paleLong => true
  | .supplyReset _ => true
  | .auxLoss => true
  | .converterFault conv => below conv 8
  | .powerLimitOverrun => true
  | .powerLimitRecover => true
  | .setpointStep _ _ => true
  | .commitDeferralRetry _ => true
  | .holdUpFault => true
  | .sensorReading site _ _ => below site 88
  | .sensorUnflag site sensor => below site 88 && below sensor 2
  | .amberEnter dom => below dom 8
  | .amberStep dom => below dom 8
  | .amberExit dom => below dom 8
  | .redExit dom => below dom 8
  | .blackRateTrigger site => below site 88
  | .thermalAutoRestart => true
  | .thermalRestartWrite _ _ => true
  | .katRun nn _ => below nn 64
  | .checkpointNow _ _ => true
  | .checkpointQuiesced => true
  | .checkpointQuiesceTimeout => true
  | .checkpointCopyDone => true
  | .checkpointRestore _ _ => true
  | .warmRestartWrite _ _ => true
  | .warmRestartStepDone _ => true
  | .firmwareBankCommit _ _ _ => true
  | .firmwareProgramDone _ => true
  | .revokeRootKey _ _ _ => true
  | .attestNonceCommit _ _ _ => true
  | .attestationSigned => true
  | .identityCertificateCommit _ _ _ _ => true
  | .debugTokenCommit _ _ _ => true
  | .debugLock _ _ => true
  | .auxPowerUp _ => true
  | .mainInputQualified _ => true
  | .railRetry => true
  | .startupStepDone _ => true
  | .startupOverrun => true
  | .coldRestartWrite _ _ => true
  | .crossingDrainTimeout _ => true
  | .leakLoopSample _ => true
  | .leakDryRelease => true
  | .flowLow _ => true
  | .auxEfuseTrip => true
  | .auxEfuseRetry _ => true
  | .monTxdFault => true
  | .monRxdBreak => true
  | .timeSourceChange _ => true
  | .snapshotTake _ _ => true
  | .markerFlitReceive link _ _ => below link 64
  | .snapshotClose => true
  | .journalCommit => true
  | .monHelp => true
  | .monId => true
  | .monState => true
  | .monRd _ => true
  | .monJr _ => true
  | .monSnap _ _ => true
  | .monWr _ _ _ => true
  | .monToken => true
  | .monLoad _ _ => true
  | .monitorBlock _ _ => true
  | .monitorTransferTimeout => true
  | .registerWrite _ _ _ => true
  | .intermediateBusUp _ => true
  | .auxRestore => true
  | .dimDeferredStart ch => below ch 64
  | .laneSkewHoldEnd _ fibre line => below fibre 32 && below line 17
  | .trialReadyTimeout => true
  | .monTxdDriverRetry _ => true
  | .monRxdBreakEnd => true

end Sys2Proof
end

