-- ==== Sys2Proof/Safety.lean ====
section
/-!
DEFINITION. What claims about a run are written in: the canonical form of the two memories, what a command leaves
unchanged, and what an event leaves in the journal.
-/

namespace Sys2Proof

open Sys2Proof.Machine

/-- LPDDR and the tile store are in the canonical form of byte memory. -/
def MemOk (s : State) : Prop := Memory.wf s.lpddr = true ∧ Memory.wf s.tile = true

/-- Numeric Dictionary objects other than those listed hold what they held. -/
def SameObjs (s t : State) (ks : List Nat) : Prop := ∀ k, k ∉ ks → objGet t k = objGet s k

/-- An object has counted `n` more, holding at the top of its type (R431). -/
def Counted (s t : State) (k n : Nat) : Prop := objGet t k = satAdd (objTop k) (objGet s k) n

/-- Every byte of a memory outside `n` bytes from `a` reads as before. -/
def SameBytesBut (m m' : Mem) (a n : Nat) : Prop := ∀ x, x < a ∨ a + n ≤ x → memRead m' x = memRead m x

/-- Every byte of LPDDR and of the tile store outside `n` bytes from an offset reads as before. -/
def SameMemoryBut (s t : State) (off n : Nat) : Prop :=
  (off < lpddrSize → SameBytesBut s.lpddr t.lpddr off n ∧ t.tile = s.tile)
    ∧ (lpddrSize ≤ off → SameBytesBut s.tile t.tile (off - tileBase) n ∧ t.lpddr = s.lpddr)

/-- Where the journal's buffer has room, it has gained exactly one entry: this event with these arguments (R438). -/
def Logged (s t : State) (e : JEvent) (args : List Nat) (al : Bool) : Prop :=
  s.obs.jbuf.length < 4096 → ∃ n : JEntry, t.obs.jbuf = s.obs.jbuf ++ [n] ∧ n.event = e ∧ n.args = args ∧ n.alert = al
    ∧ n.boot = s.obs.bootCount ∧ n.timeNs = s.now - s.coldAt

/-- The objects a journalled event may change. -/
def journalObjs : List Nat := [Obj.journalNextSeq, Obj.journalDropped]

/-- The objects a journalled event that raises ALERT_N may change (R419). -/
def alertObjs : List Nat := [Obj.journalNextSeq, Obj.journalDropped, Obj.alertPending]

/-- Matrix array Ann, its vector unit, and an engine's contexts. -/
def arrayOf (s : State) (nn : Nat) : ArrayUnit := s.arrays.getD nn {}
def vecOf (s : State) (nn : Nat) : VecUnit := s.vecs.getD nn {}

/-- Every byte of a memory outside the byte ranges (offset, length) of a slice reads as before. -/
def SameOutside (m m' : Mem) (nn : Nat) (rs : List (Nat × Nat)) : Prop :=
  ∀ x, (∀ r ∈ rs, x < nn * sliceSize + r.1 ∨ nn * sliceSize + r.1 + r.2 ≤ x) → memRead m' x = memRead m x

/-- The objects that the end of a descriptor may change: its tail signal, its record (R110, R198). -/
def tailObjs : List Nat :=
  [Obj.seqIssueStalls, Obj.remoteSignalFaults, Obj.windowMisses, Obj.memDimStalledRequests, 0x802001, 0x802002] ++ journalObjs

/-- A descriptor has ended in its queue: with a record written and one descriptor outstanding less where a slot of the ring is
ready for it, and else it waits for one with all that follows its record (R110, R188). -/
def OneCompleted (s t : State) (q : Nat) : Prop :=
  ∀ v, smGet s.queues q = some v →
    (slotReady s v 0 = true → ∃ v', smGet t.queues q = some v' ∧ v'.outstanding = v.outstanding - 1
      ∧ v'.cplTail = (v.cplTail + 1) % 2 ^ 32 ∧ v'.waitRing = v.waitRing)
    ∧ (slotReady s v 0 = false → ∃ v' d, smGet t.queues q = some v' ∧ v'.outstanding = v.outstanding ∧ v'.cplTail = v.cplTail
      ∧ v'.waitRing = v.waitRing ++ [d] ∧ d.done.isSome = true)

/-- A fetched descriptor as its engine takes it (R124, R192). -/
def issuedAs (s : State) (q : Nat) (f : Fetched) : Issued :=
  { queue := q, seq := f.seq, words := f.words, inLayer := f.inLayer, early := f.early, mute := ovfTrapIgnored s q f.seq f.inLayer }

/-- A queue whose pending and enabled interrupt bits have all been sent (R188, Table QSY-4). -/
def toldQueue (v : Queue) : Queue :=
  { v with trapSent := v.trapSent || v.trapPend && v.trapEn, cplSent := v.cplSent || v.cplPend && v.cplEn,
           errSent := v.errSent || v.errPend && v.errEn }

/-- A queue takes a value and sends the vectors of its pending bits; no other queue changes, and where no bit is to be sent nothing
else does (R188, Table QSY-4). -/
def QueueTells (s t : State) (q : Nat) (v : Queue) : Prop :=
  smGet t.queues q = some (toldQueue v) ∧ (∀ k, k ≠ q → smGet t.queues k = smGet s.queues k)
    ∧ t = { s with queues := t.queues, dic := t.dic, out := t.out, host := t.host }
    ∧ (toldQueue v = v → t.out = s.out ∧ t.host = s.host)

/-- The end of a descriptor of queue q changes nothing else (R110 to R113, R188, R198): no other queue and, in this module's memory,
no byte but those of the record's slot. -/
def EndFrame (s t : State) (q : Nat) : Prop :=
  t = { s with free := t.free, out := t.out, dic := t.dic, tile := t.tile, tilePoison := t.tilePoison, lpddr := t.lpddr
               lpddrPoison := t.lpddrPoison, lpddrBad := t.lpddrBad, chans := t.chans, claims := t.claims, queues := t.queues
               sync := t.sync, waiters := t.waiters, routerW := t.routerW, routerE := t.routerE, outst := t.outst
               nextTag := t.nextTag, host := t.host, obs := t.obs }
    ∧ (∀ k, k ≠ q → smGet t.queues k = smGet s.queues k)
    ∧ ∀ v, smGet s.queues q = some v → MemOk s → v.cplAddr % 64 = 0 →
        (∀ off, spaceOf (v.cplAddr + 64 * (v.cplTail % 2 ^ v.cplLog2)) = .localOff off → SameMemoryBut s t off 64)
        ∧ ((∀ off, spaceOf (v.cplAddr + 64 * (v.cplTail % 2 ^ v.cplLog2)) ≠ .localOff off) → t.tile = s.tile ∧ t.lpddr = s.lpddr)

/-- What a collective's command may change (R292 to R309): collectives and what they hold, the output in memory with what a write of
it changes, packets, the end of a descriptor, and the counts. -/
def CollFrame (s t : State) : Prop :=
  t = { s with free := t.free, out := t.out, dic := t.dic, layers := t.layers, tile := t.tile, tilePoison := t.tilePoison
               lpddr := t.lpddr, lpddrPoison := t.lpddrPoison, lpddrBad := t.lpddrBad, chans := t.chans, claims := t.claims
               queues := t.queues, sync := t.sync, waiters := t.waiters, routerW := t.routerW, routerE := t.routerE
               outst := t.outst, nextTag := t.nextTag, colls := t.colls, slots := t.slots, greys := t.greys
               pendColls := t.pendColls, ended := t.ended, collEcho := t.collEcho, host := t.host, obs := t.obs }

/-- n events have been counted in a clocked island for an object (R410, R411): its count there has grown, its toggle has changed
where no acknowledgement was due, and one is due; no other crossing has changed. -/
def EventSent (s t : State) (i : Island) (key n : Nat) : Prop :=
  let w := smGetD t.wires (islandIx i) {}
  t.wires = smSet s.wires (islandIx i) w
    ∧ smGetD w.counts key 0 = satAdd (objTop key) (smGetD (smGetD s.wires (islandIx i) {}).counts key 0) n
    ∧ (∀ k, k ≠ key → smGetD w.counts k 0 = smGetD (smGetD s.wires (islandIx i) {}).counts k 0)
    ∧ ((smGetD s.wires (islandIx i) {}).ackAt = none →
        w.toggle = !(smGetD s.wires (islandIx i) {}).toggle ∧ w.ackAt = some (s.now + islandGap i))
    ∧ ((smGetD s.wires (islandIx i) {}).ackAt ≠ none →
        w.toggle = (smGetD s.wires (islandIx i) {}).toggle ∧ w.ackAt = (smGetD s.wires (islandIx i) {}).ackAt)

/-- The objects into which the counts of an island are read. -/
def islandObjs (s : State) (i : Island) : List Nat := (smGetD s.wires (islandIx i) {}).counts.map Prod.fst

/-- The outcome a stream request ends with: lines of the flat window that its read found uncorrectable end it as cause 5 (R147,
R164). -/
def doneOutcome (s : State) (c : StreamCtx) (r : Req) (o : FarOutcome) : FarOutcome :=
  let lost := tileLost (tileReads s c r) (match o with
    | .done ev => ev
    | _ => [])
  if lost = 0 then o else .fail 5 lost

/-- A stream request may end now: no reply of another module, no back-invalidation, no crossing of the bridge and no turn of its
channel is to come, the host holds none of its lines, and a request of host memory finds its link up (R12, R168, R323, R327). -/
def MayEnd (s : State) (e : Nat) (c : StreamCtx) (r : Req) : Prop :=
  s.outst.any (fun (x : Outst) => x.who == .stream e c.d.seq r.id) = false ∧ snoopWaits s (snoopLines s c r) = false
    ∧ snoopFailed s (snoopLines s c r) = false ∧ (snoopLines s c r).any (tracked s) = false ∧ crossHeld s e c r = false
    ∧ readQueued s e c.d.seq r.id = false ∧ hostGone s c r = false

/-- The state in which a row of an array's run is computed: row 0 of a pass swaps the weight registers first (R64). -/
def rowState (s : State) (nn : Nat) (run : ArrayRun) : State := if run.row = 0 then swapTiles s nn run else s

/-- The check of row m as it is computed in a state, with column N's output where a shadow column checks (R73 to R75, R95). -/
def rowCheck (s : State) (nn : Nat) (run : ArrayRun) (m : Nat) (upset : List (Nat × Nat)) : Check :=
  checkRow s nn run m (rowOutputs s nn run m upset) (if hasShadow run.d.words then shadowOutput s nn run m upset else 0)

/-- The next row of an array's run: of its current pass, or row 0 of the next once no missed row waits (R62, R75). -/
def NextRow (run next : ArrayRun) : Prop :=
  run.row < arrM run.d.words ∧ next = run
    ∨ arrM run.d.words ≤ run.row ∧ run.missed = [] ∧ run.pass + 1 ≠ arrTiles run.d.words
      ∧ next = { run with pass := run.pass + 1, row := 0 }

/-- Only array Ann of the arrays has changed, and of it only what a row changes. -/
def OnlyRowsOf (s t : State) (nn : Nat) (b : Nat) : Prop :=
  (∀ k, k ≠ nn → arrayOf t k = arrayOf s k)
  ∧ arrayOf t nn = { arrayOf s nn with
      run := (arrayOf t nn).run, banks := (arrayOf t nn).banks, bankMeta := (arrayOf t nn).bankMeta
      trees := (arrayOf t nn).trees, active := (arrayOf t nn).active, standby := (arrayOf t nn).standby }
  ∧ (∀ k, k ≠ b → (arrayOf t nn).banks.getD k [] = (arrayOf s nn).banks.getD k []
      ∧ (arrayOf t nn).trees.getD k [] = (arrayOf s nn).trees.getD k [])

/-- Every part of the module is in its place: as many arrays, engines, channels, lines, links and sensors as it has. -/
def PartsOk (s : State) : Prop :=
  s.arrays.length = 64 ∧ s.vecs.length = 64 ∧ s.engines.length = 72 ∧ s.scrubLine.length = 64 ∧ s.chans.length = 64
  ∧ s.pkgs.length = 16 ∧ s.cores.length = 8 ∧ s.lasers.length = 8 ∧ s.rings.length = 1088 ∧ s.rotors.length = 32
  ∧ s.specMap.length = 544 ∧ s.links.length = 64 ∧ s.power.doms.length = 8 ∧ s.power.sites.length = 88

/-- The objects that a change of links and lanes may change: states and round trips of the 64 links, and what goes with a link
that falls dark (R241, R242). -/
def linkObjs : List Nat :=
  [Obj.linkDarkEvents, Obj.drainDirty, Obj.resentFlits, Obj.retryWindowStalls] ++ journalObjs
    ++ (List.range 64).flatMap (fun k => [Obj.linkState + k, Obj.linkRttNs + k])

/-- A control flit can be given to a link: the link is formed as far as the flit needs, and has a lane in service that may carry it
(R235, R241, R246). -/
def CanSend (s : State) (k : Nat) (c : Ctl) : Prop :=
  ctlFits (linkOf s k) c = true ∧ (laneFor (linkOf s k) (.control c)).isSome = true

/-- A control flit has been given to a link: it is kept in the link's retry memory until it is acknowledged, or waits for a window
(R235, R238). -/
def Given (t : State) (k : Nat) (c : Ctl) : Prop :=
  (∃ u ∈ (linkOf t k).unacked, u.body = .control c) ∨ c ∈ (linkOf t k).waitCtl

/-- A flit has come on line j of in-fibre x: its codewords' errors are counted in its facet's island, and its drop ring is one place
on in its group of codewords (R231, R411). -/
def FlitSeen (s t : State) (x j : Nat) (f : Flit) : Prop :=
  (∀ i, i ≠ islandIx (.facet (x / 8)) → smGet t.wires i = smGet s.wires i)
  ∧ (∀ key, smGetD (smGetD t.wires (islandIx (.facet (x / 8))) {}).counts key 0
      = (if key = Obj.fecUncorrectable then
          satAdd (objTop key) (smGetD (smGetD s.wires (islandIx (.facet (x / 8))) {}).counts key 0) f.uncorrectable
        else if key = Obj.fecCorrectedSymbols then
          satAdd (objTop key) (smGetD (smGetD s.wires (islandIx (.facet (x / 8))) {}).counts key 0) f.corrected
        else smGetD (smGetD s.wires (islandIx (.facet (x / 8))) {}).counts key 0))
  ∧ (ringOf t (dropRing x j)).cwPos = ((ringOf s (dropRing x j)).cwPos + 1) % 5
  ∧ (ringOf t (dropRing x j)).cwBad = (decide ((ringOf s (dropRing x j)).cwPos ≠ 4) && decide (f.uncorrectable ≠ 0))
  ∧ (∀ q, q ≠ dropRing x j → ringOf t q = ringOf s q)

/-- The in-lanes of a link with the errors of a flit noted on one of them (R244). -/
def lanesNoted (s : State) (k idx : Nat) (f : Flit) : List Lane :=
  (linkOf s k).inLanes.map (fun l => if l.idx = idx then noteErrors s.now f l else l)

/-- A fabric request is served now: the module is Ready, no line that it touches is, or was in vain, being taken back from the
host, and none lies in a Dim channel (R176, R327). -/
def ServedNow (s : State) (off n : Nat) : Prop :=
  servesFabric s = true ∧ snoopFailed s (touchedLines s off n) = false ∧ snoopWaits s (touchedLines s off n) = false
    ∧ (touchedLines s off n).any (tracked s) = false ∧ dimLine s off (if regionOf s off = .lpddr then n else 0) = none

/-- An engine may read a run of offsets now: the host holds no copy of its lines, and none lies in a Dim channel (R176, R327). -/
def EngineReads (s : State) (off n : Nat) : Prop :=
  snoopWaits s (lpddrLines off n) = false ∧ (lpddrLines off n).any (tracked s) = false ∧ dimLine s off n = none

/-- A scheduler may read n bytes at an address now: in this module's memory no back-invalidation of its lines is awaited or due, and
none lies in a Dim channel (R176, R327). -/
def SchedReads (s : State) (addr n : Nat) : Prop :=
  ∀ off, spaceOf addr = .localOff off → snoopFailed s (lpddrLines off n) = false ∧ EngineReads s off n

/-- An engine may write a run of offsets now: the host holds no copy of its lines, and no Dim channel's queue is full (R168, R176,
R327). -/
def EngineWrites (s : State) (off n : Nat) : Prop :=
  snoopWaits s (lpddrLines off n) = false ∧ (lpddrLines off n).any (tracked s) = false ∧ (linesOf off n).all (writeRoom s) = true

/-- The collective engine may write a segment of this member's output, if it writes any. -/
def OutputFree (s : State) (ws : List Word64) (c seg : Nat) : Prop :=
  writesOut s ws c = true → EngineWrites s (dstSeg s ws c seg) (segBytes (outFmt ws) (outScaled ws))

/-- A fabric request has left its ejection port and has had its one reply, put into the router of a half: to the request's source,
on VC4, with its tag and PathHash, the next Seq of the half's replies, and its mark as Echo (R251, R263, R275, R279). -/
def Replied (s t : State) (h : Half) (p : Packet) (tag status mask : Nat) (data : Bytes) : Prop :=
  (routerOf t h).held = (routerOf s h).held ++
      [{ id := (routerOf s h).nextId, from_ := none, since := s.now, copies := none
         p := { mkPacket s p.src 4 (routerOf s h).seqReply p.pathHash (.rep tag status mask data) with echo := p.mark } }]
    ∧ (routerOf t h).seqReply = ((routerOf s h).seqReply + 2) % 65536
    ∧ (routerOf t (otherHalf h)).held = (routerOf s (otherHalf h)).held
    ∧ ∀ g, (routerOf t g).ejected = (routerOf s g).ejected.erase p

/-- A mailbox command has ended with a status (R319). -/
def MailboxEnded (t : State) (status : Nat) : Prop := t.host.busy = false ∧ t.host.done = true ∧ t.host.status = status

/-- A request about an object is let through to it: before core 3 runs only where the supervisor serves it, and an object
of half E only while half E is reached and its own core does not restart (R333, R335). -/
def GateOpen (s : State) (sup : Bool) (key : Nat) : Prop :=
  (core3 s = 0 ∧ sup = true) ∨ (core3 s = 1 ∧ (isHalfE key = true → reachE s = true ∧ (s.cores.getD 7 {}).st ≠ 2))

/-- A Dictionary request has come by a route and is served, in a role and in a state `s0` (R333, R335, R336, R338 to R340, R439):
through the mailbox it is the request of the running DicRequest, whole and well formed; in an open session it is a held message,
whole and well formed, from the session's own address and with a new Seq, which core 3 takes; by the monitor it is a read, or a
write with the debug unlock. -/
def Asked (s : State) (r : Route) (sup : Bool) (op key : Nat) (payload : Bytes) (role : Role) (s0 : State) : Prop :=
  core3 s ≠ 2 ∧ GateOpen s0 sup key
  ∧ match r with
    | .host => role = .host ∧ s0 = s ∧ s.host.busy = true ∧ s.host.running = 0x20 ∧ headerOk (hostMsg s) = true
        ∧ msgOp (hostMsg s) = op ∧ op < 0x20 ∧ formOk op (msgPayload (hostMsg s)) = true ∧ msgSession (hostMsg s) = 0
        ∧ msgKey (hostMsg s) = key ∧ msgPayload (hostMsg s) = payload
    | .mgmt ip port session seq => s0 = takeMsg s ip port session seq ∧ ∃ m x, readyMsg s ip port session seq = some m
        ∧ headerOk m = true ∧ msgOp m = op ∧ formOk op (msgPayload m) = true ∧ msgKey m = key ∧ msgPayload m = payload
        ∧ sessionOf s session = some x ∧ x.opened = true ∧ x.ip = ip ∧ x.port = port
        ∧ (x.lastReply.isSome = true → x.lastSeq < seq) ∧ role = sessionRole x
    | .monRead => role = .host ∧ s0 = s ∧ op = 0x01
    | .monWrite => role = .vendor ∧ s0 = s ∧ op = 0x02 ∧ objGet s Obj.debugUnlocked = 1 ∧ s.sec.monitorWrite = true

/-- The state after the answer to a request that was asked in a state has gone out by its route: to the mailbox, to the session
that keeps it for a repeat, or to the monitor (R333, R338, R340, R439). -/
def answered (s : State) (r : Route) (key : Nat) (a : Answer) : State :=
  match r with
  | .host => hostReply a.st (hostMsg s) a.status a.data
  | .mgmt ip port session seq =>
    let o := dapOut ip port session seq (((readyMsg s ip port session seq).map msgOp).getD 0) a.status a.data
    emit (updSession a.st session (fun y => { y with lastSeq := seq, lastReply := some o, last := s.now })) o
  | _ => monReply a key

/-- A Write of a numeric object that passes the checks of R449 up to the object's own rule. -/
def WriteReady (s : State) (r : Route) (sup : Bool) (key : Nat) (v : Bytes) (role : Role) (row : ObjRow) (s0 : State) : Prop :=
  Asked s r sup 0x02 key v role s0 ∧ numCheck s0 role key v none = .inr (row, leNat v)

/-- A write of a limited-write object that passes its checks, differs from the value that stands, finds writes left, and
finds energy for its burn (R342, R354). -/
def FuseReady (s : State) (r : Route) (key left : Nat) (v : Bytes) (role : Role) (row : ObjRow) (s0 : State) : Prop :=
  WriteReady s r false key v role row s0 ∧ leNat v ≠ objGet s0 key ∧ objGet s0 left ≠ 0 ∧ s0.power.pale = false
    ∧ mayCommit s0 = true

/-- A DomainCommit of a transfer that passes the checks of R344 up to the object's own rule: the transfer is one of this
object by this route, whole, of a size the object takes, and its image has the digest given. -/
def CommitReady (s : State) (r : Route) (sup : Bool) (key handle : Nat) (digest : Bytes) (x : Xfer) (role : Role)
    (row : ObjRow) (s0 : State) : Prop :=
  xferOf s handle = some x ∧ x.key = key ∧ xferRoute r x = true
  ∧ Asked s r sup 0x12 (heldKey s r) (natLe 2 handle ++ digest) role s0
  ∧ x.write = true ∧ objRow key = some row ∧ row.access.writes = true ∧ mayWriteDom (dropXfer s0 x.handle) row role = true
  ∧ x.got = x.size ∧ x.size ≤ row.hi ∧ sha256 (xferImage x) = digest

/-- The state in which an accepted image takes effect: its transfer is over, and the image stands in its object, is due
for flash and is journalled as R334 and R343 say. -/
def imageIn (s0 : State) (r : Route) (role : Role) (row : ObjRow) (x : Xfer) : State :=
  applyDom (dropXfer s0 x.handle) r role row x.key (xferImage x)

/-- No setpoint of a compute sub-domain lies above its ceiling, and DomainVoltageMv and ThermalState report what is in
effect (R349, R358). -/
def VoltsShown (s : State) : Prop :=
  (∀ d, d < 8 → (domAt s d).setpoint ≤ ceilingOf s d ∧ objGet s (Obj.domainVoltageMv + d) = voltage s d)
    ∧ objGet s Obj.thermalState = thermalNow s

/-- The objects that a change of a ceiling or a setpoint may change. -/
def voltObjs : List Nat := Obj.thermalState :: (List.range 8).map (fun d => Obj.domainVoltageMv + d)

/-- The objects that a reading of the main input changes (Table PWR-4). -/
def supplyObjs : List Nat := [Obj.supplyVoltageMv, Obj.supplyMinMv]

/-- A reading of the main input in mV has been noted: the present value, and the lowest since the last read of it. -/
def SupplyNoted (s t : State) (mv : Nat) : Prop :=
  objGet t Obj.supplyVoltageMv = mv
    ∧ objGet t Obj.supplyMinMv = if objGet s Obj.supplyMinMv = 0 then mv else min (objGet s Obj.supplyMinMv) mv

end Sys2Proof
end

