-- ==== Sys2Proof/Certificates/Slice0/Obligations.lean ====
section
/-!
DEFINITION. The statements for the provers. A statement about a command gives, under hypotheses on the state and the
operands alone, the next state the command answers: what it writes, and that it writes nothing else (the frame is the
equation that rebuilds the next state from the old one and the fields it may write).
-/

open Sys2Proof Sys2Proof.Machine

/-- A step takes the command at the front of the queue and is its meaning on the state with the queue's rest; on an
empty queue one nanosecond passes (the model's choice: log entry 2): it is loss time where R378 counts it, the acknowledgements of
event crossings return and only counted objects they carry change (R410), every 16th nanosecond is a flit slot of the links, and
nothing else changes. -/
def Obligations.StepRunsTheFrontCommand : Prop :=
  (∀ (c : Instr) (rest : List Instr) (s : State), step { s with pending := c :: rest } = exec c { s with pending := rest })
  ∧ (∀ (c : Instr) (rest : List Instr) (s : State), s.pending = c :: rest → step s = exec c { s with pending := rest })
  ∧ (∀ s : State, s.pending = [] → ∃ t, step s = .next t
      ∧ t = { s with now := s.now + 1, lossNs := s.lossNs + boolNat (losing s), wires := t.wires, dic := t.dic, links := t.links
                     out := t.out }
      ∧ SameObjs s t (s.wires.flatMap (fun e => e.2.counts.map Prod.fst))
      ∧ (s.wires = [] → t.dic = s.dic ∧ t.wires = [])
      ∧ ((s.now + 1) % 16 ≠ 0 → t.links = s.links ∧ t.out = s.out))

/-- No command that names existing parts stops: every well-formed command answers a next state in every state, none is ever
refused, and a command stops only where it names a part that the module does not have; there it does, as is said for each kind
of part. -/
def Obligations.WellFormedCommandAnswersNextState : Prop :=
  (∀ (c : Instr) (s : State), c.wf = true → ∃ t, exec c s = .next t)
  ∧ (∀ (c : Instr) (s : State), (∃ t, exec c s = .next t) ∨ (c.wf = false ∧ exec c s = .fault .noSuchPart))
  ∧ (∀ (n : Nat) (s : State),
    (96 ≤ n → exec (.bundleRetire n) s = .fault .noSuchPart)
    ∧ (64 ≤ n → exec (.bankHandoff n) s = .fault .noSuchPart ∧ exec (.vectorDescriptorComplete n) s = .fault .noSuchPart
      ∧ exec (.katRun n none) s = .fault .noSuchPart ∧ exec (.spillCopyDone n) s = .fault .noSuchPart
      ∧ exec (.channelFailure n) s = .fault .noSuchPart ∧ exec (.linkRemove n) s = .fault .noSuchPart)
    ∧ (72 ≤ n → exec (.streamStart n) s = .fault .noSuchPart) ∧ (8 ≤ n → exec (.coreRestartDone n) s = .fault .noSuchPart
      ∧ exec (.converterFault n) s = .fault .noSuchPart ∧ exec (.amberEnter n) s = .fault .noSuchPart)
    ∧ (32 ≤ n → exec (.rotorStep n) s = .fault .noSuchPart) ∧ (1088 ≤ n → exec (.ringLockLoss n) s = .fault .noSuchPart)
    ∧ (88 ≤ n → exec (.sensorReading n 0 0) s = .fault .noSuchPart))

/-- First in, first out: a command leaves the waiting commands as they are and takes no time, so a step that has a
command to run ends with exactly the rest of the queue and at the same moment. -/
def Obligations.CommandsLeaveQueueAndClock : Prop :=
  (∀ (c : Instr) (s t : State), exec c s = .next t → t.pending = s.pending ∧ t.now = s.now)
  ∧ (∀ (c : Instr) (rest : List Instr) (s t : State), s.pending = c :: rest → step s = .next t →
      t.pending = rest ∧ t.now = s.now)

/-- Every step keeps the canonical form of LPDDR and of the tile store: addresses strictly rising, and no byte listed
that an unlisted address reads as. -/
def Obligations.StepKeepsMemoryCanonical : Prop :=
  ∀ s t : State, MemOk s → step s = .next t → MemOk t

/-- What reset leaves (R401: a start has yet to begin): nothing waiting, no power, memory in canonical form with nothing
listed, no queue launched, no link bound, every synchronisation object 0, and objects of every table at the table's
default. That an object the tables give no default reads 0 is the model's choice (log entry 4). -/
def Obligations.ResetStateValues : Prop :=
  MemOk State.reset ∧ PartsOk State.reset ∧ State.reset.pending = [] ∧ State.reset.power.on = false ∧ State.reset.queues = []
  ∧ State.reset.lpddr = [] ∧ State.reset.tile = [] ∧ (∀ l ∈ State.reset.links, l.bound = false)
  ∧ (∀ o, syncGet State.reset o = 0) ∧ (∀ k, objGet State.reset k = objDefault k)
  ∧ objGet State.reset Obj.moduleState = 0 ∧ objGet State.reset Obj.startupStep = 0
  ∧ objGet State.reset Obj.bridgeState = 3 ∧ objGet State.reset Obj.memState = 3
  ∧ (∀ ch, ch < 64 → objGet State.reset (Obj.memChannelState + ch) = 5)
  ∧ (∀ k, k < 64 → objGet State.reset (Obj.linkState + k) = 4)
  ∧ objGet State.reset Obj.thermalRedC = 100 ∧ objGet State.reset Obj.powerCapW = 2250
  ∧ objGet State.reset Obj.spillAreaMiB = 64 ∧ objGet State.reset Obj.deadlockWatchUs = 200
  ∧ objGet State.reset Obj.rotorStepUs = 2940 ∧ objGet State.reset Obj.routeBankState = 2
  ∧ objGet State.reset Obj.replayLifetimeUs = 4000 ∧ objGet State.reset Obj.collWatchdogMs = 2000
  ∧ objGet State.reset Obj.lifecycleWritesLeft = 9 ∧ objGet State.reset Obj.timeSource = 1
  ∧ objGet State.reset Obj.coreWatchdogMs = 5 ∧ objGet State.reset (Obj.coreWatchdogMs + 3) = 100

/-- BRIDGE_FLIT_RECEIVE of a flit that is due on a working bundle (R11, R14, R23): a flit that fails its CRC is not delivered
but waits on its bundle with its failures counted, and each send after the first, up to 16, counts as a retry; a line of the
memory group that passes is written once to its line of LPDDR or of the tile store, with its poison bit as it came; a packet
of the router group that passes leaves the bridge's buffer once, for the ejection port of the half it goes to or, on its way
to another chip, for the link that was chosen for it, and is routed again if that link carries it no more. A flit that is not
due changes nothing. In each case nothing else changes. BUNDLE_RETIRE once one flit has failed all 16 retries on a bundle,
above the thresholds of R24 (R23): the bundle's bit is set in its map, its group loses one bundle, BridgeState is 1, the
retirement is journalled with the bundle number and raises ALERT_N, and the bundle's flits wait on a working bundle of its
group, none lost (which one is the model's choice: log entry 11). Before that the command changes nothing. Below the
thresholds while the module is Ready the bridge fails (R25): every engine is empty, no layer or collective is active, and
ModuleState is 2. PILOT_LINK_FAILURE and PILOT_TRAIN_RETRY (R406): a trained pilot link that fails gives PilotState 2, a
journal entry and ALERT_N, and an untrained one changes nothing; a retry that trains before step 5 gives PilotState 1. -/
def Obligations.BridgeFlitsBundlesAndPilotLink : Prop :=
  (∀ (b : Nat) (f : BridgeFlit) (s : State), b < 96 → bundleWorks s b = true → flitDue s b f = true →
    ∃ t, exec (.bridgeFlitReceive b f false) s = .next t
      ∧ t = { s with dic := t.dic
                     bridge := { s.bridge with waiting := s.bridge.waiting.filter (fun (x : BridgeWait) => !(x.bundle == b && x.flit == f))
                                   ++ [{ bundle := b, flit := f, fails := flitFails s b f + 1 }] } }
      ∧ (flitFails s b f < 16 → Counted s t Obj.bridgeRetries 1) ∧ (16 ≤ flitFails s b f → t.dic = s.dic)
      ∧ SameObjs s t [Obj.bridgeRetries])
  ∧ (∀ (b a : Nat) (d : LineData) (s : State), b < 64 → bundleWorks s b = true → d.bytes.length = 64 →
    regionOf s (a / 64 * 64) = .lpddr →
    ∃ t, exec (.bridgeFlitReceive b (.line a d) true) s = .next t
      ∧ t = { s with dic := t.dic, lpddr := t.lpddr, lpddrPoison := t.lpddrPoison, lpddrBad := t.lpddrBad, chans := t.chans
                     bridge := { s.bridge with
                       waiting := s.bridge.waiting.filter (fun (x : BridgeWait) => !(x.bundle == b && x.flit == .line a d)) } }
      ∧ (∀ i, i < 64 → memRead t.lpddr (a / 64 * 64 + i) = d.bytes.getD i 0) ∧ SameBytesBut s.lpddr t.lpddr (a / 64 * 64) 64
      ∧ nsHas t.lpddrPoison (a / 64) = d.poison ∧ nsHas t.lpddrBad (a / 64) = false
      ∧ (∀ l, l ≠ a / 64 → nsHas t.lpddrPoison l = nsHas s.lpddrPoison l ∧ nsHas t.lpddrBad l = nsHas s.lpddrBad l)
      ∧ SameObjs s t [Obj.memDimStalledRequests])
  ∧ (∀ (b a : Nat) (d : LineData) (s : State), b < 64 → bundleWorks s b = true → d.bytes.length = 64 →
    regionOf s (a / 64 * 64) = .tile →
    ∃ t, exec (.bridgeFlitReceive b (.line a d) true) s = .next t
      ∧ t = { s with tile := t.tile, tilePoison := t.tilePoison
                     bridge := { s.bridge with
                       waiting := s.bridge.waiting.filter (fun (x : BridgeWait) => !(x.bundle == b && x.flit == .line a d)) } }
      ∧ (∀ i, i < 64 → memRead t.tile (a / 64 * 64 - tileBase + i) = d.bytes.getD i 0)
      ∧ SameBytesBut s.tile t.tile (a / 64 * 64 - tileBase) 64 ∧ nsHas t.tilePoison (tileLine (a / 64 * 64)) = d.poison
      ∧ (∀ l, l ≠ tileLine (a / 64 * 64) → nsHas t.tilePoison l = nsHas s.tilePoison l))
  ∧ (∀ (b : Nat) (p : Packet) (x : Crossing) (s : State), 64 ≤ b → b < 96 → bundleWorks s b = true →
    crossingOf s p none = some x →
    ∃ t, exec (.bridgeFlitReceive b (.packet p none) true) s = .next t
      ∧ t = { s with routerW := t.routerW, routerE := t.routerE
                     bridge := { s.bridge with
                       waiting := s.bridge.waiting.filter (fun (y : BridgeWait) => !(y.bundle == b && y.flit == .packet p none))
                       crossing := s.bridge.crossing.erase x } }
      ∧ routerOf t x.to_ = { routerOf s x.to_ with ejected := (routerOf s x.to_).ejected ++ [p] }
      ∧ routerOf t (otherHalf x.to_) = routerOf s (otherHalf x.to_))
  ∧ (∀ (b k : Nat) (p : Packet) (x : Crossing) (s u : State), 64 ≤ b → b < 96 → bundleWorks s b = true →
    crossingOf s p (some k) = some x →
    u = { s with bridge := { s.bridge with
            waiting := s.bridge.waiting.filter (fun (y : BridgeWait) => !(y.bundle == b && y.flit == .packet p (some k)))
            crossing := s.bridge.crossing.erase x } } →
    ((linkOf s k).bound = true → linkState s k ≤ (if p.vc = 0 then 2 else 1) →
      exec (.bridgeFlitReceive b (.packet p (some k)) true) s = .next (linkSend u k p))
    ∧ ((linkOf s k).bound = false ∨ (if p.vc = 0 then 2 else 1) < linkState s k →
      exec (.bridgeFlitReceive b (.packet p (some k)) true) s = .next (reinject u (linkHalf s k) k [(s.now, p)])))
  ∧ (∀ (b : Nat) (f : BridgeFlit) (ok : Bool) (s : State), b < 96 → bundleWorks s b = false ∨ flitDue s b f = false →
    exec (.bridgeFlitReceive b f ok) s = .next s)
  ∧ (∀ (b : Nat) (s : State), b < 64 → bundleWorks s b = true → retireDue s b = true →
    49 ≤ objGet s Obj.bridgeMemBundles → 24 ≤ objGet s Obj.bridgeRouterBundles →
    ∃ t, exec (.bundleRetire b) s = .next t
      ∧ t = { s with dic := t.dic, bridge := { s.bridge with waiting := t.bridge.waiting }, obs := t.obs }
      ∧ objGet t Obj.bridgeRetiredMap = setNatBit b (objGet s Obj.bridgeRetiredMap)
      ∧ objGet t Obj.bridgeMemBundles = objGet s Obj.bridgeMemBundles - 1 ∧ objGet t Obj.bridgeState = 1
      ∧ Counted s t Obj.alertPending 1 ∧ t.bridge.waiting.map BridgeWait.flit = s.bridge.waiting.map BridgeWait.flit
      ∧ SameObjs s t ([Obj.bridgeRetiredMap, Obj.bridgeMemBundles, Obj.bridgeState] ++ alertObjs)
      ∧ Logged s t .bundleRetired [b] true)
  ∧ (∀ (b : Nat) (s : State), 64 ≤ b → b < 96 → bundleWorks s b = true → retireDue s b = true →
    48 ≤ objGet s Obj.bridgeMemBundles → 25 ≤ objGet s Obj.bridgeRouterBundles →
    ∃ t, exec (.bundleRetire b) s = .next t
      ∧ t = { s with dic := t.dic, bridge := { s.bridge with waiting := t.bridge.waiting }, obs := t.obs }
      ∧ objGet t Obj.bridgeRetiredMapHigh = setNatBit (b - 64) (objGet s Obj.bridgeRetiredMapHigh)
      ∧ objGet t Obj.bridgeRouterBundles = objGet s Obj.bridgeRouterBundles - 1 ∧ objGet t Obj.bridgeState = 1
      ∧ Counted s t Obj.alertPending 1 ∧ t.bridge.waiting.map BridgeWait.flit = s.bridge.waiting.map BridgeWait.flit
      ∧ SameObjs s t ([Obj.bridgeRetiredMapHigh, Obj.bridgeRouterBundles, Obj.bridgeState] ++ alertObjs)
      ∧ Logged s t .bundleRetired [b] true)
  ∧ (∀ (b m : Nat) (s t : State), b < 96 → retireDue s b = true → bundleWorks s b = true → m ∈ groupMates b → m ≠ b →
    bundleWorks s m = true → exec (.bundleRetire b) s = .next t → t.bridge.waiting.all (fun (x : BridgeWait) => x.bundle != b) = true)
  ∧ (∀ (b : Nat) (s : State), b < 96 → bundleWorks s b = false ∨ retireDue s b = false → exec (.bundleRetire b) s = .next s)
  ∧ (∀ (b : Nat) (s : State), objGet s Obj.moduleState = 1 → bundleWorks s b = true → retireDue s b = true →
    (b < 64 ∧ objGet s Obj.bridgeMemBundles ≤ 48) ∨ (64 ≤ b ∧ b < 96 ∧ objGet s Obj.bridgeRouterBundles ≤ 24) →
    ∃ t, exec (.bundleRetire b) s = .next t ∧ objGet t Obj.moduleState = 2 ∧ (∀ g ∈ t.engines, g.ctx = [])
      ∧ (∀ a ∈ t.arrays, a.run = none ∧ a.fifo = []) ∧ t.layers = [] ∧ t.colls = [] ∧ t.waitClaims = []
      ∧ t.bridge.crossing = [] ∧ t.bridge.waiting = [] ∧ t.mgmt = s.mgmt ∧ t.power = s.power ∧ t.sync = s.sync)
  ∧ (∀ (b : Nat) (s : State), objGet s Obj.moduleState ≠ 1 → bundleWorks s b = true → retireDue s b = true →
    (b < 64 ∧ objGet s Obj.bridgeMemBundles ≤ 48) ∨ (64 ≤ b ∧ b < 96 ∧ objGet s Obj.bridgeRouterBundles ≤ 24) →
    ∃ t, exec (.bundleRetire b) s = .next t
      ∧ t = { s with dic := t.dic, bridge := { s.bridge with waiting := t.bridge.waiting }, obs := t.obs }
      ∧ objGet t Obj.bridgeState = 2 ∧ objGet t Obj.moduleState = objGet s Obj.moduleState)
  ∧ (∀ s : State, objGet s Obj.pilotState = 1 →
    ∃ t, exec .pilotLinkFailure s = .next t ∧ t = { s with dic := t.dic, obs := t.obs } ∧ objGet t Obj.pilotState = 2
      ∧ Counted s t Obj.alertPending 1 ∧ SameObjs s t (Obj.pilotState :: alertObjs) ∧ Logged s t .pilotFailed [] true)
  ∧ (∀ s : State, objGet s Obj.pilotState ≠ 1 → exec .pilotLinkFailure s = .next s)
  ∧ (∀ s : State, s.seqs.running = true → objGet s Obj.pilotState = 0 → 2 ≤ s.seqs.startStep → s.seqs.startStep < 5 →
    (∃ t, exec (.pilotTrainRetry true) s = .next t ∧ t = { s with dic := t.dic } ∧ objGet t Obj.pilotState = 1
      ∧ SameObjs s t [Obj.pilotState])
    ∧ exec (.pilotTrainRetry false) s = .next s)
  ∧ (∀ (b : Bool) (s : State), s.seqs.running = false ∨ objGet s Obj.pilotState ≠ 0 ∨ s.seqs.startStep < 2 ∨ 5 ≤ s.seqs.startStep →
    exec (.pilotTrainRetry b) s = .next s)

/-- ARRAY_PASS (R77, R71, R63, R89): the first issued descriptor of an idle array in service, when nothing rejects it, becomes
the array's run at pass 0 and row 0 with its first tile in the standby registers; a descriptor that starts trees clears those
of its columns; an error that its reads met is corrected, or poisons its line (R164). A descriptor that is rejected leaves the
array idle and its queue gets the end of one descriptor. One that a seam issued early only has its first tile loaded until its
own wait holds (R146). While a descriptor computes, the next one waits, until the other has only its bank to hand over (R71).
Nothing else changes. ARRAY_ROW_COMMIT and WITNESS_RERUN_DONE (R62, R72 to R75): a row whose check does not miss is written to
the bank, every other row of it kept, and counted as committed; one that misses counts a witness miss, writes nothing and
waits to be recomputed; a row that misses again counts as poisoned and, of a K descriptor, is NaR in every column. The bank of
a row is an existing one of the array. Only this array, its other bank excepted, and the counters of checks and load waits
change. -/
def Obligations.ArrayPassesRunRowByRow : Prop :=
  (∀ (nn : Nat) (tst : List TstEvent) (d : Issued) (r : List Issued) (s : State), nn < 64 → (arrayOf s nn).run = none →
    (arrayOf s nn).fifo = d :: r → (arrayOf s nn).retirePending = false → holdsArray s nn d = false → issuedReady s d = true →
    arrayRetired s nn = false →
    arrReject (updArray (applyTst s nn tst) nn (fun a => { a with fifo := r })) nn d.queue d.words = none →
    ∃ t w, exec (.arrayPass nn tst) s = .next t ∧ t = { s with dic := t.dic, arrays := t.arrays, tilePoison := t.tilePoison }
      ∧ arrayOf t nn = { arrayOf s nn with
          fifo := r, run := some { d := d, c := shadowCol (arrayOf s nn).shadow d.words }, standby := some w
          ranFrom := (arrayOf s nn).ranFrom.or (some s.now), trees := (arrayOf t nn).trees }
      ∧ tileIs w d 0 = true
      ∧ (∀ k, k ≠ nn → arrayOf t k = arrayOf s k)
      ∧ ((arrTopK d.words && !arrAcc d.words) = false → (arrayOf t nn).trees = (arrayOf s nn).trees)
      ∧ ((arrTopK d.words && !arrAcc d.words) = true → arrBank d.words < (arrayOf s nn).trees.length →
          ∀ n, n < arrN d.words → smGet ((arrayOf t nn).trees.getD (arrBank d.words) []) n = some {})
      ∧ (tst = [] → t.tilePoison = s.tilePoison ∧ t.dic = s.dic) ∧ SameObjs s t [Obj.tstCorrected, Obj.tstUncorrectable])
  ∧ (∀ (nn : Nat) (d : Issued) (r : List Issued) (st : Nat) (s : State), nn < 64 → (arrayOf s nn).run = none →
    (arrayOf s nn).fifo = d :: r → (arrayOf s nn).retirePending = false → holdsArray s nn d = false → issuedReady s d = true →
    arrayRetired s nn = false → d.inLayer = false →
    arrReject (updArray s nn (fun a => { a with fifo := r })) nn d.queue d.words = some st →
    ∃ t, exec (.arrayPass nn []) s = .next t ∧ EndFrame { s with arrays := t.arrays } t d.queue
      ∧ arrayOf t nn = { arrayOf s nn with fifo := r } ∧ (∀ k, k ≠ nn → arrayOf t k = arrayOf s k)
      ∧ OneCompleted s t d.queue ∧ SameObjs s t tailObjs)
  ∧ (∀ (nn : Nat) (tst : List TstEvent) (d : Issued) (r : List Issued) (run : ArrayRun) (s : State), nn < 64 →
    (arrayOf s nn).run = some run → (arrayOf s nn).fifo = d :: r → (arrayOf s nn).retirePending = false →
    holdsArray s nn d = false → issuedReady s d = true →
    ((arrayOf s nn).leaving = none → mayFollow run d.words = true →
      ∃ u, leaveCells s nn run = u ∧ u = { s with arrays := u.arrays } ∧ (∀ k, k ≠ nn → arrayOf u k = arrayOf s k)
        ∧ arrayOf u nn = { arrayOf s nn with
            leaving := some { run with res := tileResult run ((arrayOf s nn).banks.getD (arrBank run.d.words) []) }
            shadow := cursorAfter (arrayOf s nn) run, run := none }
        ∧ exec (.arrayPass nn tst) s = exec (.arrayPass nn tst) u)
    ∧ ((arrayOf s nn).leaving ≠ none ∨ mayFollow run d.words = false → exec (.arrayPass nn tst) s = .next s))
  ∧ (∀ (nn : Nat) (tst : List TstEvent) (d : Issued) (r : List Issued) (s : State), nn < 64 → (arrayOf s nn).fifo = d :: r →
    ((arrayOf s nn).retirePending = true ∨ holdsArray s nn d = true → exec (.arrayPass nn tst) s = .next s)
    ∧ ((arrayOf s nn).retirePending = false → holdsArray s nn d = false → issuedReady s d = false →
      (d.early = false ∨ (arrayOf s nn).run ≠ none ∨ arrayRetired s nn = true → exec (.arrayPass nn tst) s = .next s)
      ∧ (d.early = true → (arrayOf s nn).run = none → (arrayOf s nn).standby = none → arrayRetired s nn = false →
        arrReject s nn d.queue d.words = none →
        ∃ t w, exec (.arrayPass nn tst) s = .next t ∧ t = { s with dic := t.dic, arrays := t.arrays, tilePoison := t.tilePoison }
          ∧ arrayOf t nn = { arrayOf s nn with standby := some w } ∧ tileIs w d 0 = true
          ∧ (∀ k, k ≠ nn → arrayOf t k = arrayOf s k) ∧ SameObjs s t [Obj.tstCorrected, Obj.tstUncorrectable])))
  ∧ (∀ (nn : Nat) (tst : List TstEvent) (s : State), nn < 64 → (arrayOf s nn).fifo = [] → exec (.arrayPass nn tst) s = .next s)
  ∧ (∀ (nn : Nat) (upset : List (Nat × Nat)) (run next : ArrayRun) (s : State), nn < 64 → (arrayOf s nn).run = some run →
    NextRow run next → arrBank run.d.words < (arrayOf s nn).banks.length →
    rowCheck (rowState s nn next) nn next next.row upset ≠ .miss →
    ∃ t run', exec (.arrayRowCommit nn upset) s = .next t ∧ t = { s with dic := t.dic, arrays := t.arrays }
      ∧ OnlyRowsOf s t nn (arrBank run.d.words) ∧ (arrayOf t nn).run = some run' ∧ run'.row = next.row + 1
      ∧ run'.pass = next.pass ∧ run'.committed = run.committed + 1 ∧ run'.missed = run.missed ∧ run'.d = run.d
      ∧ run'.handed = run.handed ∧ run'.lost = run.lost ∧ run'.c = run.c
      ∧ (∀ n a, (rowOutputs (rowState s nn next) nn next next.row upset)[n]? = some a →
          (smGet ((arrayOf t nn).banks.getD (arrBank run.d.words) []) (next.row * arrNt run.d.words + n)).map BankVal.value
            = some (BitVec.ofNat 32 a.code))
      ∧ (∀ k, k < next.row * arrNt run.d.words ∨ next.row * arrNt run.d.words + arrN run.d.words ≤ k →
          smGet ((arrayOf t nn).banks.getD (arrBank run.d.words) []) k
            = smGet ((arrayOf s nn).banks.getD (arrBank run.d.words) []) k)
      ∧ SameObjs s t [Obj.metricRowsExcluded, Obj.metricSaturations, Obj.shadowChecks, Obj.witnessRowsSkipped,
          Obj.arrayLoadWaitSteps])
  ∧ (∀ (nn : Nat) (upset : List (Nat × Nat)) (run next : ArrayRun) (s : State), nn < 64 → (arrayOf s nn).run = some run →
    NextRow run next → rowCheck (rowState s nn next) nn next next.row upset = .miss →
    ∃ t run', exec (.arrayRowCommit nn upset) s = .next t ∧ t = { s with dic := t.dic, arrays := t.arrays }
      ∧ OnlyRowsOf s t nn (arrBank run.d.words) ∧ (arrayOf t nn).banks = (arrayOf s nn).banks
      ∧ (arrayOf t nn).trees = (arrayOf s nn).trees ∧ (arrayOf t nn).bankMeta = (arrayOf s nn).bankMeta
      ∧ (arrayOf t nn).run = some run'
      ∧ run' = { next with row := next.row + 1, missed := next.missed ++ [next.row]
                           res := { next.res with witness := true, missesDesc := next.res.missesDesc + 1 } }
      ∧ Counted s t Obj.witnessMisses 1 ∧ SameObjs s t [Obj.witnessMisses, Obj.shadowChecks, Obj.arrayLoadWaitSteps])
  ∧ (∀ (nn : Nat) (upset : List (Nat × Nat)) (run : ArrayRun) (m : Nat) (rest : List Nat) (s : State), nn < 64 →
    (arrayOf s nn).run = some run → run.missed = m :: rest → arrBank run.d.words < (arrayOf s nn).banks.length →
    ∃ t run', exec (.witnessRerunDone nn upset) s = .next t ∧ t = { s with dic := t.dic, arrays := t.arrays }
      ∧ OnlyRowsOf s t nn (arrBank run.d.words) ∧ (arrayOf t nn).run = some run' ∧ run'.missed = rest
      ∧ run'.row = run.row ∧ run'.pass = run.pass ∧ run'.committed = run.committed + 1 ∧ run'.d = run.d
      ∧ run'.handed = run.handed ∧ run'.c = run.c
      ∧ (rowCheck (reloadTiles s nn run) nn run m upset = .miss →
          Counted s t Obj.witnessMisses 1 ∧ Counted s t Obj.witnessRowsPoisoned 1 ∧ run'.lost = run.lost ++ [m]
          ∧ SameObjs s t [Obj.witnessMisses, Obj.witnessRowsPoisoned, Obj.metricRowsExcluded, Obj.metricSaturations,
              Obj.shadowChecks]
          ∧ ((arrA run.d.words).isInt = false → ∀ n, n < arrN run.d.words →
              smGet ((arrayOf t nn).banks.getD (arrBank run.d.words) []) (m * arrNt run.d.words + n)
                = some ⟨BitVec.ofNat 32 (Fmt.k32).narCode, true⟩))
      ∧ (rowCheck (reloadTiles s nn run) nn run m upset ≠ .miss →
          run'.lost = run.lost
          ∧ SameObjs s t [Obj.metricRowsExcluded, Obj.metricSaturations, Obj.shadowChecks, Obj.witnessRowsSkipped]
          ∧ ∀ n a, (rowOutputs (reloadTiles s nn run) nn run m upset)[n]? = some a →
              (smGet ((arrayOf t nn).banks.getD (arrBank run.d.words) []) (m * arrNt run.d.words + n)).map BankVal.value
                = some (BitVec.ofNat 32 a.code)))

/-- BANK_HANDOFF and ARRAY_DESCRIPTOR_COMPLETE (R62, R71, R80, R93): the next committed row of a Final descriptor reaches the
vector unit's side, value for value, and all the records of a TopK descriptor at once, its banks and trees kept; a descriptor
whose rows are all committed, entered and handed over leaves the array with the end of one descriptor in its queue, its banks and
trees kept, and one with witness misses counts a miss event (R370); one not yet over changes nothing. -/
def Obligations.ArrayHandsOverAndCompletes : Prop :=
  (∀ (nn : Nat) (run : ArrayRun) (s : State), nn < 64 → (arrayOf s nn).leaving.or (arrayOf s nn).run = some run →
    arrFinal run.d.words = true → arrTopK run.d.words = false → run.handed ≠ arrM run.d.words → rowFinal run run.handed = true →
    arrBank run.d.words < (arrayOf s nn).handoff.length →
    ∃ t h, exec (.bankHandoff nn) s = .next t ∧ t = { s with arrays := t.arrays } ∧ (∀ k, k ≠ nn → arrayOf t k = arrayOf s k)
      ∧ arrayOf t nn = { arrayOf s nn with
          handoff := (arrayOf s nn).handoff.set (arrBank run.d.words) (some h)
          leaving := (arrayOf t nn).leaving, run := (arrayOf t nn).run }
      ∧ ((arrayOf s nn).leaving = none → (arrayOf t nn).leaving = none
          ∧ (arrayOf t nn).run = some { run with handed := run.handed + 1 })
      ∧ ((arrayOf s nn).leaving = some run → (arrayOf t nn).run = (arrayOf s nn).run
          ∧ (arrayOf t nn).leaving = some { run with handed := run.handed + 1 })
      ∧ (∀ n, n < arrN run.d.words → (smGet h.vals (run.handed * 65536 + n)).map BankVal.value
          = some (smGetD ((arrayOf s nn).banks.getD (arrBank run.d.words) []) (run.handed * arrNt run.d.words + n)
              ⟨0, false⟩).value))
  ∧ (∀ (nn : Nat) (run : ArrayRun) (s : State), nn < 64 → (arrayOf s nn).leaving = none → (arrayOf s nn).run = some run →
    arrFinal run.d.words = true → arrTopK run.d.words = true → run.handed ≠ arrM run.d.words → run.entered = arrM run.d.words →
    ∃ t h, exec (.bankHandoff nn) s = .next t ∧ t = { s with arrays := t.arrays } ∧ (∀ k, k ≠ nn → arrayOf t k = arrayOf s k)
      ∧ arrayOf t nn = { arrayOf s nn with
          handoff := (arrayOf s nn).handoff.set (arrBank run.d.words) (some h)
          run := some { run with handed := arrM run.d.words } }
      ∧ h.rows = arrN run.d.words)
  ∧ (∀ (nn : Nat) (run : ArrayRun) (r : Result) (s : State), nn < 64 → overRun (arrayOf s nn) = some (run, r) →
    r.missesDesc = 0 → (arrayOf s nn).retirePending = false → run.d.inLayer = false →
    ∃ t, exec (.arrayDescriptorComplete nn) s = .next t ∧ EndFrame { s with arrays := t.arrays } t run.d.queue
      ∧ arrayOf t nn = clearRun (arrayOf s nn) s.now ∧ (∀ k, k ≠ nn → arrayOf t k = arrayOf s k)
      ∧ OneCompleted s t run.d.queue ∧ SameObjs s t tailObjs)
  ∧ (∀ (nn : Nat) (run : ArrayRun) (r : Result) (s : State), nn < 64 → overRun (arrayOf s nn) = some (run, r) →
    r.missesDesc ≠ 0 → (arrayOf s nn).retirePending = false → run.d.inLayer = false → (arrayOf s nn).missTimes.length < 2 →
    ∃ t, exec (.arrayDescriptorComplete nn) s = .next t ∧ EndFrame { s with arrays := t.arrays } t run.d.queue
      ∧ arrayOf t nn = { clearRun (arrayOf s nn) s.now with missTimes := (arrayOf s nn).missTimes ++ [s.now] }
      ∧ (∀ k, k ≠ nn → arrayOf t k = arrayOf s k) ∧ OneCompleted s t run.d.queue ∧ Counted s t Obj.arrayMissEvents 1
      ∧ SameObjs s t (Obj.arrayMissEvents :: tailObjs))
  ∧ (∀ (nn : Nat) (s : State), nn < 64 → overRun (arrayOf s nn) = none → exec (.arrayDescriptorComplete nn) s = .next s)

/-- VECTOR_PROGRAM and TREE_MERGE (R101, R108): the first issued descriptor of an idle vector unit, when nothing rejects it,
has run and waits for its completion; of the tile store only the ranges of its outputs change, and the record of each merged
column is the merge of its input records, where the outputs do not overwrite them. A descriptor that is rejected, and one of a
retired pair, end with their status (R7, R372); one whose wait does not hold, whose range a spill holds, or of another kind
than the command, and a unit that is not idle, change nothing; so for SCAN and REBIAS too. SCAN and REBIAS (R115, R117, R131):
a scan writes only its row and column scales and holds its amax in the result; with an AmaxTarget in this module's LPDDR the
word there becomes the greater of itself and the amax, and with one in another module the atomic is sent and the scan waits
for its reply; a rebias of rows that do not overlap adds its bias to every scale byte, holding at 254 and leaving 255 (and a
byte of a poisoned line, which reads as 255) at 255, and writes nothing else. VECTOR_DESCRIPTOR_COMPLETE (R110, R115): a
descriptor that has run completes with one record and one descriptor outstanding less, and its unit is idle; while the scan's
atomic waits for its reply nothing happens. -/
def Obligations.VectorRunsWriteOutputsAndScales : Prop :=
  (∀ (nn : Nat) (tst : List TstEvent) (d : Issued) (r : List Issued) (s s1 : State), nn < 64 → (vecOf s nn).done = none →
    (vecOf s nn).fifo = d :: r → opcode d.words = 0x30 → issuedReady s d = true → arrayRetired s nn = false →
    spillHolds s nn d.queue (ownRanges d.words) = false →
    s1 = updVec (applyTst s nn tst) nn (fun u => { u with fifo := r }) → vecReject s1 nn d.queue d.words = none →
    ∃ t x, exec (.vectorProgram nn tst) s = .next t
      ∧ t = { s with free := t.free, dic := t.dic, vecs := t.vecs, tile := t.tile, tilePoison := t.tilePoison }
      ∧ (vecOf t nn).done = some (d, x) ∧ (vecOf t nn).fifo = r ∧ (∀ k, k ≠ nn → vecOf t k = vecOf s k)
      ∧ SameOutside s.tile t.tile nn (opRanges d.words 4 ++ opRanges d.words 5)
      ∧ SameObjs s t [Obj.tstCorrected, Obj.tstUncorrectable])
  ∧ (∀ (nn : Nat) (tst : List TstEvent) (d : Issued) (r : List Issued) (s s1 : State), nn < 64 → (vecOf s nn).done = none →
    (vecOf s nn).fifo = d :: r → opcode d.words = 0x31 → issuedReady s d = true → arrayRetired s nn = false →
    spillHolds s nn d.queue (ownRanges d.words) = false →
    s1 = updVec (applyTst s nn tst) nn (fun u => { u with fifo := r }) → mrgReject s1 nn d.queue d.words = none →
    ∃ t x, exec (.treeMerge nn tst) s = .next t
      ∧ t = { s with dic := t.dic, vecs := t.vecs, tile := t.tile, tilePoison := t.tilePoison }
      ∧ (vecOf t nn).done = some (d, x) ∧ (vecOf t nn).fifo = r ∧ (∀ k, k ≠ nn → vecOf t k = vecOf s k)
      ∧ SameOutside s.tile t.tile nn [(mrgOutAddr d.words, mrgN d.words * (1 + mrgK d.words) * 8)]
      ∧ ((∀ set, set < mrgSets d.words →
            mrgOutAddr d.words + mrgN d.words * (1 + mrgK d.words) * 8 ≤ mrgInAddr d.words + set * mrgStride d.words
            ∨ mrgInAddr d.words + set * mrgStride d.words + mrgN d.words * (1 + mrgInK d.words) * 8 ≤ mrgOutAddr d.words) →
          ∀ n, n < mrgN d.words →
          memBytes t.tile (nn * sliceSize + mrgOutAddr d.words + n * (1 + mrgK d.words) * 8) ((1 + mrgK d.words) * 8)
            = bytesOf (mrgOut d.words ((List.range (mrgSets d.words)).foldl (mrgRecord s1 nn d.words n) {})))
      ∧ SameObjs s t [Obj.tstCorrected, Obj.tstUncorrectable])
  ∧ (∀ (c : Nat → List TstEvent → Instr) (op : Nat) (rej : State → Nat → Nat → List Word64 → Option Nat) (nn : Nat) (d : Issued)
      (r : List Issued) (s : State), nn < 64 →
    (c = .vectorProgram ∧ op = 0x30 ∧ rej = vecReject) ∨ (c = .treeMerge ∧ op = 0x31 ∧ rej = mrgReject)
      ∨ (c = .scan ∧ op = 0x32 ∧ rej = scanReject ∧ nextAmax s nn = none) ∨ (c = .rebias ∧ op = 0x33 ∧ rej = rebReject) →
    ((vecOf s nn).done = none → (vecOf s nn).fifo = d :: r → opcode d.words = op → issuedReady s d = true → d.inLayer = false →
      spillHolds s nn d.queue (ownRanges d.words) = false →
      arrayRetired s nn = true ∨ (rej (updVec s nn (fun u => { u with fifo := r })) nn d.queue d.words).isSome = true →
      ∃ t, exec (c nn []) s = .next t ∧ EndFrame { s with vecs := t.vecs } t d.queue ∧ (vecOf t nn).fifo = r
        ∧ (vecOf t nn).done = none ∧ (∀ k, k ≠ nn → vecOf t k = vecOf s k) ∧ OneCompleted s t d.queue ∧ SameObjs s t tailObjs)
    ∧ (∀ tst, (vecOf s nn).done ≠ none ∨ (vecOf s nn).fifo = []
        ∨ (∃ d r, (vecOf s nn).fifo = d :: r ∧ (opcode d.words ≠ op ∨ issuedReady s d = false
            ∨ spillHolds s nn d.queue (ownRanges d.words) = true)) →
      exec (c nn tst) s = .next s))
  ∧ (∀ (nn : Nat) (tst : List TstEvent) (d : Issued) (r : List Issued) (s s1 : State), nn < 64 → (vecOf s nn).done = none →
    (vecOf s nn).fifo = d :: r → opcode d.words = 0x32 → issuedReady s d = true → arrayRetired s nn = false →
    spillHolds s nn d.queue (ownRanges d.words) = false →
    s1 = updVec (applyTst s nn tst) nn (fun u => { u with fifo := r }) → scanReject s1 nn d.queue d.words = none →
    scanAmax d.words = 0 →
    ∃ t x, exec (.scan nn tst) s = .next t
      ∧ t = { s with dic := t.dic, vecs := t.vecs, tile := t.tile, tilePoison := t.tilePoison }
      ∧ (vecOf t nn).done = some (d, x) ∧ (vecOf t nn).fifo = r ∧ (vecOf t nn).amaxWait = (vecOf s nn).amaxWait
      ∧ x.amax = (encodeK .k32 .nearest (amaxOf ((List.range (scanM d.words)).map (fun m =>
          amaxOf ((List.range (scanN d.words)).map (fun n => (scanElem s1 nn d.words m n).1)))))).code
      ∧ (∀ k, k ≠ nn → vecOf t k = vecOf s k)
      ∧ SameOutside s.tile t.tile nn
          ((if scanRows d.words then
              [(scanRAddr d.words, (scanM d.words - 1) * scanRStride d.words + scanN d.words / blockOf (scanBlock d.words))]
            else []) ++
           (if scanCols d.words then
              [(scanCAddr d.words, (scanN d.words - 1) * scanCStride d.words + scanM d.words / blockOf (scanBlock d.words))]
            else []))
      ∧ SameObjs s t [Obj.tstCorrected, Obj.tstUncorrectable])
  ∧ (∀ (nn off : Nat) (d : Issued) (r : List Issued) (s s1 : State), nn < 64 → (vecOf s nn).done = none →
    (vecOf s nn).fifo = d :: r → opcode d.words = 0x32 → issuedReady s d = true → arrayRetired s nn = false →
    spillHolds s nn d.queue (ownRanges d.words) = false →
    s1 = updVec s nn (fun u => { u with fifo := r }) → scanReject s1 nn d.queue d.words = none →
    spaceOf (scanAmax d.words) = .localOff off → off % 4 = 0 → regionOf s off = .lpddr → linePoison s off = false →
    snoopFailed s (lpddrLines off 4) = false → EngineReads s off 4 → MemOk s →
    ∃ t x, exec (.scan nn []) s = .next t
      ∧ t = { s with vecs := t.vecs, tile := t.tile, tilePoison := t.tilePoison, lpddr := t.lpddr, lpddrPoison := t.lpddrPoison
                     lpddrBad := t.lpddrBad, chans := t.chans, atoms := t.atoms }
      ∧ (vecOf t nn).done = some (d, x) ∧ (vecOf t nn).fifo = r ∧ (vecOf t nn).amaxWait = (vecOf s nn).amaxWait ∧ x.status = 0
      ∧ (∀ k, k ≠ nn → vecOf t k = vecOf s k) ∧ SameBytesBut s.lpddr t.lpddr off 4
      ∧ leNat (memBytes t.lpddr off 4) = max (leNat (memBytes s.lpddr off 4)) x.amax
      ∧ x.amax = (encodeK .k32 .nearest (amaxOf ((List.range (scanM d.words)).map (fun m =>
          amaxOf ((List.range (scanN d.words)).map (fun n => (scanElem s1 nn d.words m n).1)))))).code)
  ∧ (∀ (nn c off far : Nat) (w : Bool) (d : Issued) (r : List Issued) (s s1 : State), nn < 64 → (vecOf s nn).done = none →
    (vecOf s nn).fifo = d :: r → opcode d.words = 0x32 → issuedReady s d = true → arrayRetired s nn = false →
    spillHolds s nn d.queue (ownRanges d.words) = false →
    s1 = updVec s nn (fun u => { u with fifo := r }) → scanReject s1 nn d.queue d.words = none →
    spaceOf (scanAmax d.words) = .fabric c off → c ≠ chip s →
    (sendThrough s c off 4 .atomic = none →
      ∃ t x, exec (.scan nn []) s = .next t
        ∧ t = { s with dic := t.dic, vecs := t.vecs, tile := t.tile, tilePoison := t.tilePoison }
        ∧ (vecOf t nn).done = some (d, x) ∧ x.status = fabNoWindow ∧ Counted s t Obj.windowMisses 1
        ∧ SameObjs s t [Obj.windowMisses])
    ∧ (sendThrough s c off 4 .atomic = some (far, w) →
      ∃ t x, exec (.scan nn []) s = .next t
        ∧ t = { s with dic := t.dic, vecs := t.vecs, tile := t.tile, tilePoison := t.tilePoison, routerW := t.routerW
                       routerE := t.routerE, outst := t.outst, nextTag := t.nextTag }
        ∧ (vecOf t nn).done = some (d, x) ∧ (vecOf t nn).amaxWait = true ∧ (vecOf t nn).fifo = r
        ∧ (∀ k, k ≠ nn → vecOf t k = vecOf s k) ∧ (∃ o ∈ t.outst, o.who = .scan nn) ∧ SameObjs s t [Obj.seqIssueStalls]))
  ∧ (∀ (nn : Nat) (tst : List TstEvent) (d : Issued) (r : List Issued) (s s1 : State), nn < 64 → (vecOf s nn).done = none →
    (vecOf s nn).fifo = d :: r → opcode d.words = 0x33 → issuedReady s d = true → arrayRetired s nn = false →
    spillHolds s nn d.queue (ownRanges d.words) = false →
    s1 = updVec (applyTst s nn tst) nn (fun u => { u with fifo := r }) → rebReject s1 nn d.queue d.words = none →
    ∃ t x, exec (.rebias nn tst) s = .next t
      ∧ t = { s with dic := t.dic, vecs := t.vecs, tile := t.tile, tilePoison := t.tilePoison }
      ∧ (vecOf t nn).done = some (d, x) ∧ (vecOf t nn).fifo = r ∧ (∀ k, k ≠ nn → vecOf t k = vecOf s k)
      ∧ SameOutside s.tile t.tile nn [rebRange d.words]
      ∧ (rebM d.words = 1 ∨ rebN d.words ≤ rebStride d.words → ∀ m n, m < rebM d.words → n < rebN d.words →
          memRead t.tile (nn * sliceSize + rebAddr d.words + m * rebStride d.words + n)
            = (let b := scaleByte s1 nn (rebAddr d.words + m * rebStride d.words + n)
               BitVec.ofNat 8 (if b = 255 then 255 else min 254 (b + rebBias d.words))))
      ∧ SameObjs s t [Obj.tstCorrected, Obj.tstUncorrectable])
  ∧ (∀ (nn : Nat) (d : Issued) (x : Result) (s : State), nn < 64 → (vecOf s nn).done = some (d, x) →
    (vecOf s nn).amaxWait = false → d.inLayer = false →
    ∃ t, exec (.vectorDescriptorComplete nn) s = .next t ∧ EndFrame { s with vecs := t.vecs } t d.queue
      ∧ vecOf t nn = { vecOf s nn with done := none }
      ∧ (∀ k, k ≠ nn → vecOf t k = vecOf s k) ∧ OneCompleted s t d.queue ∧ SameObjs s t tailObjs)
  ∧ (∀ (nn : Nat) (d : Issued) (x : Result) (s : State), nn < 64 → (vecOf s nn).done = some (d, x) →
    (vecOf s nn).amaxWait = true → exec (.vectorDescriptorComplete nn) s = .next s)
  ∧ (∀ (nn : Nat) (s : State), nn < 64 → (vecOf s nn).done = none → exec (.vectorDescriptorComplete nn) s = .next s)

/-- LAYER_OPEN (R120, R123): a LayerOpen that the scheduler of its queue's home half may run, and that nothing rejects,
becomes an open layer at the lowest present rung at or above its entry's CurRung: its attempt's descriptors, read clean from
the rung's list, take the queue's next DescSeq numbers, and the values of the layer-local objects are kept. One that is
rejected leaves a record and is outstanding no more; one that may not run yet only has its wait registered and its stall
counted. LAYER_ATTEMPT_END (R123 to R127): an attempt that was not cut is published: the layer is closed and its descriptor
completes; above its start rung its entry rises and takes EscHoldSteps, counted in EscEvents; at the start rung HoldLeft falls
by one, and from 1 or 0 the entry steps down to the next lower present rung, counted in EscStepDowns; elsewhere its entry
stays; an exhausted layer is counted. An attempt cut by an overflow is repeated one present rung higher with the layer-local
objects as they were at its start. While its queue is halted, or an attempt still runs, nothing changes. -/
def Obligations.LayerAttemptsStartAndEnd : Prop :=
  (∀ (q : Nat) (list : List Fetch) (s : State) (v : Queue) (f : Fetched), q < 1025 → smGet s.queues q = some v →
    v.fetched.find? (fun f => opcode f.words == 0x50 && schedulerOwn s q v.halves f) = some f →
    schedReady s (homeOfHalves v.halves) q f = (s, true) → layReject f.words = none →
    SchedReads s (layAddr f.words (layStart s f.words)) (128 * layLen f.words (layStart s f.words)) →
    (∀ i, i < layLen f.words (layStart s f.words) →
      (readClean s (layAddr f.words (layStart s f.words) + 128 * i) 128 (list.getD i .hostFault)).2 ≠ none) →
    ∃ t l v', exec (.layerOpen q list) s = .next t ∧ t = { s with queues := t.queues, layers := t.layers }
      ∧ l ∈ t.layers ∧ l.queue = q ∧ l.seq = f.seq ∧ l.words = f.words ∧ l.start = layStart s f.words ∧ l.rung = l.start
      ∧ l.attempts = 1 ∧ l.firstSeq = v.nextSeq ∧ l.left.length = layLen f.words l.rung ∧ l.cut = false
      ∧ l.saved = localObjs s f.words ∧ (∀ m ∈ s.layers, m.queue ≠ q ∨ m.seq ≠ f.seq → m ∈ t.layers)
      ∧ smGet t.queues q = some v' ∧ v'.nextSeq = v.nextSeq + layLen f.words l.rung ∧ v'.outstanding = v.outstanding + 1
      ∧ (∀ p, p ≠ q → smGet t.queues p = smGet s.queues p))
  ∧ (∀ (q st : Nat) (list : List Fetch) (s : State) (v : Queue) (f : Fetched), q < 1025 → smGet s.queues q = some v →
    v.fetched.find? (fun f => opcode f.words == 0x50 && schedulerOwn s q v.halves f) = some f →
    schedReady s (homeOfHalves v.halves) q f = (s, true) → layReject f.words = some st → f.inLayer = false →
    SchedReads s (layAddr f.words (layStart s f.words)) (128 * layLen f.words (layStart s f.words)) →
    ∃ t, exec (.layerOpen q list) s = .next t ∧ EndFrame s t q ∧ SameObjs s t tailObjs
      ∧ (slotReady s v 0 = true → ∃ v', smGet t.queues q = some v' ∧ v'.outstanding = v.outstanding
          ∧ v'.cplTail = (v.cplTail + 1) % 2 ^ 32))
  ∧ (∀ (q : Nat) (list : List Fetch) (s : State) (v : Queue) (f : Fetched), q < 1025 → smGet s.queues q = some v →
    v.fetched.find? (fun f => opcode f.words == 0x50 && schedulerOwn s q v.halves f) = some f →
    (schedReady s (homeOfHalves v.halves) q f).2 = false →
    exec (.layerOpen q list) s = .next (schedReady s (homeOfHalves v.halves) q f).1)
  ∧ (∀ (q : Nat) (list : List Fetch) (s : State), q < 1025 →
    (∀ v, smGet s.queues q = some v →
      v.fetched.find? (fun f => opcode f.words == 0x50 && schedulerOwn s q v.halves f) = none) →
    exec (.layerOpen q list) s = .next s)
  ∧ (∀ (q : Nat) (list : List Fetch) (s : State) (v : Queue) (l : Layer), q < 1025 → smGet s.queues q = some v →
    s.layers.find? (fun l => l.queue == q && l.left.isEmpty) = some l → v.trapped = false → v.state = 1 →
    mayIssue s (homeOfHalves v.halves) = true → l.cut = false →
    ∃ t, exec (.layerAttemptEnd q list) s = .next t ∧ EndFrame { s with esc := t.esc, layers := t.layers } t q
      ∧ t.layers = s.layers.filter (fun x => !(x.queue == l.queue && x.seq == l.seq)) ∧ OneCompleted s t q
      ∧ (l.start < l.rung → escGet t (layId l.words) = (max (escGet s (layId l.words)).1 l.rung, objGet s Obj.escHoldSteps)
          ∧ Counted s t Obj.escEvents 1)
      ∧ (l.rung ≤ l.start → l.start ≠ (escGet s (layId l.words)).1 ∨ l.start ≤ layLow l.words → t.esc = s.esc)
      ∧ (l.rung ≤ l.start → l.start = (escGet s (layId l.words)).1 → layLow l.words < l.start →
          (1 < (escGet s (layId l.words)).2 →
            escGet t (layId l.words) = ((escGet s (layId l.words)).1, (escGet s (layId l.words)).2 - 1))
          ∧ ((escGet s (layId l.words)).2 ≤ 1 → Counted s t Obj.escStepDowns 1
            ∧ ∃ g, g = ((layRungs l.words).filter (fun r => decide (r < l.start))).getLastD (layLow l.words)
              ∧ escGet t (layId l.words) = (g, if layLow l.words < g then objGet s Obj.escHoldSteps else 0)))
      ∧ (∀ i, i ≠ layId l.words → escGet t i = escGet s i)
      ∧ (l.sawOF = true → l.rung = l.top → Counted s t Obj.escExhausted 1)
      ∧ SameObjs s t ([Obj.escEvents, Obj.escStepDowns, Obj.escExhausted] ++ tailObjs))
  ∧ (∀ (q : Nat) (list : List Fetch) (s : State) (v : Queue) (l : Layer) (g : Nat), q < 1025 → smGet s.queues q = some v →
    s.layers.find? (fun l => l.queue == q && l.left.isEmpty) = some l → v.trapped = false → v.state = 1 →
    mayIssue s (homeOfHalves v.halves) = true → l.cut = true →
    g = nextRung l → SchedReads s (layAddr l.words g) (128 * layLen l.words g) →
    (∀ i, i < layLen l.words g → (readClean s (layAddr l.words g + 128 * i) 128 (list.getD i .hostFault)).2 ≠ none) →
    (l.saved.map Prod.fst).Nodup →
    ∃ t m, exec (.layerAttemptEnd q list) s = .next t
      ∧ t = { s with dic := t.dic, layers := t.layers, claims := t.claims, queues := t.queues, sync := t.sync
                     waiters := t.waiters }
      ∧ (∀ p, p ≠ q → smGet t.queues p = smGet s.queues p) ∧ m ∈ t.layers ∧ m.queue = l.queue ∧ m.seq = l.seq ∧ m.rung = g
      ∧ m.attempts = l.attempts + 1 ∧ m.abandoned = l.abandoned + l.seqs.length ∧ m.start = l.start
      ∧ Counted s t Obj.escAbandonedDescs l.seqs.length ∧ SameObjs s t [Obj.escAbandonedDescs] ∧ t.esc = s.esc
      ∧ (∀ e ∈ l.saved, syncGet t e.1 = BitVec.ofNat 64 e.2)
      ∧ (∀ o, o ∉ l.saved.map Prod.fst → syncGet t o = syncGet s o))
  ∧ (∀ (q : Nat) (list : List Fetch) (s : State), q < 1025 →
    (∀ v, smGet s.queues q = some v →
      s.layers.find? (fun l => l.queue == q && l.left.isEmpty) = none ∨ v.trapped = true ∨ v.state ≠ 1
        ∨ mayIssue s (homeOfHalves v.halves) = false) →
    exec (.layerAttemptEnd q list) s = .next s)

/-- ESCALATION_IMAGE_COMMIT (R128): an accepted image of 16,384 B sets every layer's entry, and is not held beside them. -/
def Obligations.EscalationImageSetsEntries : Prop :=
  ∀ (r : Route) (handle : Nat) (digest : Bytes) (s : State) (x : Xfer) (role : Role) (row : ObjRow) (s0 : State), CommitReady s r false Obj.escalationImage handle digest x role row s0 → x.size = 16384 →
    (∀ i, i < 4096 → escEntry (xferImage x) i / 4 % 2 ^ 14 = 0) →
    ∃ u, exec (.escalationImageCommit r handle digest) s = .next (answered s r (heldKey s r) ⟨u, 0, []⟩)
      ∧ u = { imageIn s0 r role row x with doms := u.doms, esc := u.esc }
      ∧ (∀ i, i < 4096 → escGet u i = (escEntry (xferImage x) i % 4, escEntry (xferImage x) i / 2 ^ 16))
      ∧ smGet u.doms Obj.escalationImage = none

/-- STREAM_START and CLAIM_GRANT (R136, R139, R159): an engine's first descriptor that may start, and that nothing rejects,
starts; one with no pages in the overflow pool is ready at once, and one with some has its claim granted at once or put behind
the waiting ones and counted in ClaimWaits; a rejected one leaves its engine and ends with a record; the first waiting claim
of a slice that can be granted is granted whole, and its stream is ready. Where none may start, or none can be granted,
nothing changes. STREAM_REQUEST_ISSUE (R134, R141, R143, R167): the next descriptor in turn that is ready, below its limits
and whose slot is open makes one request, covering consecutive units or blocks of one granule and tile: an In or Copy request
of host memory asks the host for exactly its lines, one of LPDDR stands in its channel's queue or waits for it; an Out
request, where its reads find no line uncorrectable and its destination is in this module, holds the bytes of its slice; where
none has a request to make, nothing changes, and one held at a limit is counted once. STREAM_REQUEST_DONE (R142, R148): a
request of an In stream ends in every outcome: its units count as finished, and outside the lines it writes no byte of the
tile store changes; one whose channel has not served it stays. -/
def Obligations.StreamsClaimPagesAndMoveLines : Prop :=
  (∀ (e : Nat) (s : State) (c : StreamCtx) (pool : List Nat) (cl : Claim), e < 72 →
    (engineCtx s e).find? (fun c => !c.started && issuedReady s c.d && !spillHolds s e c.d.queue (strRanges c.d.words)) = some c →
    strReject c.d.words (halvesOf s c.d.queue) = none →
    (strIsCopy c.d.words = false → (strPages c.d.words).any (pageForeign s e c.d.queue) = false) →
    pool = (if strIsCopy c.d.words then [] else (strPages c.d.words).filter (pageInPool s e)) →
    cl = { slice := e, queue := c.d.queue, seq := c.d.seq, pages := pool, since := s.now,
           release := if strDir c.d.words = 0 && strWaitEn c.d.words then
               some (strWaitObj c.d.words, (strWaitBase c.d.words + strRunTiles c.d.words) % 2 ^ 64) else none } →
    ∃ t c', exec (.streamStart e) s = .next t ∧ c' ∈ engineCtx t e
      ∧ c' = { c with started := true, ready := c'.ready, next := strFirst c.d.words, nextScale := strFirst c.d.words, lastMove := s.now }
      ∧ (∀ k, k ≠ e → engineCtx t k = engineCtx s k)
      ∧ (pool = [] → t = { s with engines := t.engines } ∧ c'.ready = true)
      ∧ (pool ≠ [] → grantable { s with waitClaims := s.waitClaims ++ [cl] } s.waitClaims.length = true →
          t = { s with engines := t.engines, claims := s.claims ++ [cl] } ∧ c'.ready = true)
      ∧ (pool ≠ [] → grantable { s with waitClaims := s.waitClaims ++ [cl] } s.waitClaims.length = false →
          t = { s with engines := t.engines, waitClaims := s.waitClaims ++ [cl], dic := t.dic }
          ∧ c'.ready = claimHeld s c.d.queue c.d.seq ∧ Counted s t Obj.claimWaits 1 ∧ SameObjs s t [Obj.claimWaits]))
  ∧ (∀ (e st : Nat) (s : State) (c : StreamCtx), e < 72 →
    (engineCtx s e).find? (fun c => !c.started && issuedReady s c.d && !spillHolds s e c.d.queue (strRanges c.d.words)) = some c →
    strReject c.d.words (halvesOf s c.d.queue) = some st → c.d.inLayer = false →
    ∃ t, exec (.streamStart e) s = .next t ∧ EndFrame { s with engines := t.engines } t c.d.queue ∧ OneCompleted s t c.d.queue
      ∧ engineCtx t e = (engineCtx s e).filter (fun x => !(x.d.queue == c.d.queue && x.d.seq == c.d.seq))
      ∧ (∀ k, k ≠ e → engineCtx t k = engineCtx s k) ∧ SameObjs s t tailObjs)
  ∧ (∀ (e : Nat) (s : State), e < 72 →
    (∀ c ∈ engineCtx s e, c.started = true ∨ issuedReady s c.d = false
      ∨ spillHolds s e c.d.queue (strRanges c.d.words) = true) → exec (.streamStart e) s = .next s)
  ∧ (∀ (slice i : Nat) (w : Claim) (s : State), slice < 64 →
    (List.range s.waitClaims.length).find? (fun i => ((s.waitClaims[i]?).map Claim.slice) == some slice && grantable s i
        && !((s.waitClaims[i]?).map Claim.reclaim).getD false) = some i →
    s.waitClaims[i]? = some w →
    ∃ t, exec (.claimGrant slice) s = .next t
      ∧ t = { s with engines := t.engines, waitClaims := s.waitClaims.eraseIdx i, claims := s.claims ++ [{ w with since := s.now }] }
      ∧ (∀ c ∈ engineCtx t slice, c.d.queue = w.queue → c.d.seq = w.seq → c.ready = true ∧ c.lastMove = s.now)
      ∧ (∀ k, k ≠ slice → engineCtx t k = engineCtx s k))
  ∧ (∀ (slice : Nat) (s : State), slice < 64 → (∀ i w, s.waitClaims[i]? = some w → w.slice = slice →
      grantable s i = false ∨ w.reclaim = true) → exec (.claimGrant slice) s = .next s)
  ∧ (∀ (e u n o : Nat) (tst : List TstEvent) (scale : Bool) (s : State) (c : StreamCtx) (r : Req), e < 72 → (s.engines.getD e {}).rr < 4 →
    (engineCtx s e)[(s.engines.getD e {}).rr]? = some c → findCtx s e c.d.queue c.d.seq = some c →
    nextReq c = some (scale, u) → c.started = true → c.ready = true → slotOpen s c (u / strPerTile c.d.words) = true →
    atLimit s e c.d.queue = false →
    n = reqCount c.d.words scale u (farOf c.d.words scale u / 256) (u / strPerTile c.d.words) (strPerTile c.d.words) →
    r = { id := c.nextId, u0 := u, n := n, scale := scale, far := farOf c.d.words scale u / 64 * 64 } →
    (strDir c.d.words = 1 → (∀ x ∈ tst, x.uncorrectable = false)
        ∧ outBytes s e [] c.d.words { r with far := (reqLines c.d.words r).headD 0 } ≠ []
        ∧ (nearLines (outBytes s e [] c.d.words { r with far := (reqLines c.d.words r).headD 0 })).all
            (putHere s (destTop c.d.words scale)) = true) →
    (strDir c.d.words ≠ 1 → spaceOf (farTop c.d.words scale + (reqLines c.d.words r).headD 0) = .localOff o
        ∨ spaceOf (farTop c.d.words scale + (reqLines c.d.words r).headD 0) = .hostAddr o) →
    ∃ t c' x, exec (.streamRequestIssue { engine := e, tst := tst }) s = .next t ∧ c' ∈ engineCtx t e ∧ c'.d = c.d
      ∧ c'.reqs = c.reqs ++ [x] ∧ x.id = c.nextId ∧ x.u0 = u ∧ x.n = n ∧ x.scale = scale ∧ c'.nextId = c.nextId + 1
      ∧ (scale = false → c'.next = u + n ∧ c'.nextScale = c.nextScale)
      ∧ (scale = true → c'.nextScale = u + n * strRu c.d.words ∧ c'.next = c.next)
      ∧ t = { s with engines := t.engines, out := t.out, host := t.host, dic := t.dic, chans := t.chans }
      ∧ SameObjs s t [Obj.memDimStalledRequests, Obj.tstCorrected, Obj.streamSourcePoisonLines]
      ∧ (strDir c.d.words = 1 → t.chans = s.chans
          ∧ x.data = (outBytes s e [] c.d.words { r with far := (reqLines c.d.words r).headD 0 }).map (fun b => (b.near, b.val)))
      ∧ (∀ a, strDir c.d.words ≠ 1 → spaceOf (farTop c.d.words scale + (reqLines c.d.words r).headD 0) = .hostAddr a →
          t.out = s.out ++ [.hostRead a ((reqLines c.d.words r).getLastD 0 + 64 - (reqLines c.d.words r).headD 0)]
          ∧ t.chans = s.chans ∧ t.dic = s.dic)
      ∧ (∀ a, strDir c.d.words ≠ 1 → spaceOf (farTop c.d.words scale + (reqLines c.d.words r).headD 0) = .localOff a →
          channelOf s a < s.chans.length → regionOf s a = .lpddr → readQueued t e c.d.seq x.id = true)
      ∧ (∀ k, k ≠ e → engineCtx t k = engineCtx s k))
  ∧ (∀ (e seq id : Nat) (o : FarOutcome) (s : State) (c : StreamCtx) (r : Req), e < 72 →
    (engineCtx s e).find? (fun c => c.d.seq == seq && c.reqs.any (fun r => r.id == id)) = some c →
    findCtx s e c.d.queue c.d.seq = some c → c.reqs.find? (fun r => r.id == id) = some r →
    MayEnd s e c r → strDir c.d.words = 0 → r.sent = false → strScaled c.d.words = false →
    c.badBlocks = [] → (∃ x ∈ c.reqs, x.id ≠ id) →
    ∃ t c', exec (.streamRequestDone e seq id o) s = .next t ∧ c' ∈ engineCtx t e ∧ c'.d = c.d
      ∧ c'.reqs = c.reqs.filter (fun x => x.id != id)
      ∧ smGetD c'.doneUnits (r.u0 / strPerTile c.d.words) 0 = smGetD c.doneUnits (r.u0 / strPerTile c.d.words) 0 + r.n
      ∧ t = { s with out := t.out, dic := t.dic, engines := t.engines, tile := t.tile, tilePoison := t.tilePoison,
                     lpddrBad := t.lpddrBad, sync := t.sync, waiters := t.waiters, claims := t.claims, host := t.host
                     chans := t.chans, free := t.free, wires := t.wires }
      ∧ (∀ a, (∀ l ∈ nearLines (arrived c.d.words r (gotLine s c.d.words r (doneOutcome s c r o))),
            a / 64 ≠ e * (sliceSize / 64) + l) →
          memRead t.tile a = memRead s.tile a)
      ∧ (∀ k, k ≠ e → engineCtx t k = engineCtx s k))
  ∧ (∀ (e : Nat) (tst : List TstEvent) (s : State), e < 72 →
    (∀ c ∈ engineCtx s e, c.started = false ∨ c.ready = false ∨ nextReq c = none) →
    exec (.streamRequestIssue { engine := e, tst := tst }) s = .next s)
  ∧ (∀ (e u : Nat) (scale : Bool) (tst : List TstEvent) (s : State) (c : StreamCtx), e < 72 → engineCtx s e = [c] →
    nextReq c = some (scale, u) → c.started = true → c.ready = true → slotOpen s c (u / strPerTile c.d.words) = true →
    atLimit s e c.d.queue = true →
    ∃ t, exec (.streamRequestIssue { engine := e, tst := tst }) s = .next t ∧ t = { s with engines := t.engines, dic := t.dic }
      ∧ engineCtx t e = [{ c with heldAtLimit := true }] ∧ (∀ k, k ≠ e → engineCtx t k = engineCtx s k)
      ∧ (c.heldAtLimit = false → Counted s t Obj.streamLimitStalls 1 ∧ SameObjs s t [Obj.streamLimitStalls])
      ∧ (c.heldAtLimit = true → t.dic = s.dic))
  ∧ (∀ (e seq id : Nat) (o : FarOutcome) (s : State), e < 72 → s.host.atsWait = [] →
    (∀ c ∈ engineCtx s e, c.d.seq = seq → (∀ r ∈ c.reqs, r.id ≠ id) ∨ readQueued s e seq id = true
      ∨ s.outst.any (fun (x : Outst) => x.who == .stream e seq id) = true) →
    exec (.streamRequestDone e seq id o) s = .next s)

/-- SEAM_MARKER and SEAM_OPEN (R144 to R146): a marker that every serving half may run, and that nothing rejects, waits to
open and holds one place among the outstanding descriptors; once no earlier compute descriptor is left to issue and no wait of
its own is registered, it opens: SeamsOpened counts it and it completes with one record. A rejected marker ends with its record;
one that may not run or open yet stays. -/
def Obligations.SeamsWaitAndOpen : Prop :=
  (∀ (q : Nat) (s : State) (v : Queue) (f : Fetched), smGet s.queues q = some v →
    v.fetched.find? (fun f => opcode f.words == 0x41 && schedulerOwn s q v.halves f) = some f →
    (∀ h, todoIn f h = true → seamReady s h q f = (s, true)) → seamReject f.words = none →
    (∀ g ∈ v.fetched, g.seq = f.seq → g = f) → (∀ i, i < seamCount f.words → reached s (seamObj f.words i) (seamValue f.words i) = true) →
    ∃ t v', exec (.seamMarker q) s = .next t ∧ t = { s with queues := t.queues } ∧ smGet t.queues q = some v'
      ∧ v'.seams = v.seams ++ [{ seq := f.seq, words := f.words, opened := false, inLayer := f.inLayer }]
      ∧ v'.outstanding = v.outstanding + 1
      ∧ (∀ g ∈ v'.fetched, g.seq ≠ f.seq) ∧ (∀ p, p ≠ q → smGet t.queues p = smGet s.queues p))
  ∧ (∀ (q : Nat) (s : State) (v : Queue) (m : Seam), smGet s.queues q = some v →
    v.seams.find? (fun x => !x.opened) = some m → v.state = 1 → hasWait s q m.seq = false →
    mayIssue s (homeOfHalves v.halves) = true → seamBusy s q v m = false → m.inLayer = false →
    ∃ t v', exec (.seamOpen q) s = .next t ∧ EndFrame s t q ∧ smGet t.queues q = some v'
      ∧ v'.seams.head? = some { m with opened := true } ∧ (∀ x ∈ v'.seams, x ≠ { m with opened := true } → x.opened = false)
      ∧ v'.fetched = markEarly m (seamEnd v m) v.fetched (arraysSince v m.seq)
      ∧ Counted s t Obj.seamsOpened 1 ∧ OneCompleted s t q ∧ SameObjs s t (Obj.seamsOpened :: tailObjs))
  ∧ (∀ (q st : Nat) (s : State) (v : Queue) (f : Fetched), smGet s.queues q = some v →
    v.fetched.find? (fun f => opcode f.words == 0x41 && schedulerOwn s q v.halves f) = some f →
    (∀ h, todoIn f h = true → seamReady s h q f = (s, true)) → seamReject f.words = some st →
    (∀ g ∈ v.fetched, g.seq = f.seq → g = f) → f.inLayer = false →
    ∃ t, exec (.seamMarker q) s = .next t ∧ EndFrame s t q ∧ SameObjs s t tailObjs
      ∧ (slotReady s v 0 = true → ∃ v', smGet t.queues q = some v' ∧ v'.outstanding = v.outstanding
          ∧ v'.cplTail = (v.cplTail + 1) % 2 ^ 32 ∧ v'.seams = v.seams ∧ (∀ g ∈ v'.fetched, g.seq ≠ f.seq)))
  ∧ (∀ (q : Nat) (s : State), (∀ v, smGet s.queues q = some v →
      v.fetched.find? (fun f => opcode f.words == 0x41 && schedulerOwn s q v.halves f) = none) →
    exec (.seamMarker q) s = .next s)
  ∧ (∀ (q : Nat) (s : State), (∀ v m, smGet s.queues q = some v → v.seams.find? (fun x => !x.opened) = some m →
      v.state ≠ 1 ∨ hasWait s q m.seq = true ∨ mayIssue s (homeOfHalves v.halves) = false ∨ seamBusy s q v m = true) →
    exec (.seamOpen q) s = .next s)

/-- DEADLOCK_WATCH_FIRE, SPILL_COPY_DONE, SPILL_RECLAIM and RESTORE_COPY_DONE (R162, R163): where a claim has waited for the
watch time on holders that are all stalled, the holder to spill first begins to be copied out, counted in DeadlockBreaks; its
range then stands in the spill area with every byte and poison bit, its claim is given up, and the range waits ahead of every
other claim; once nothing overlaps it, it is claimed again; and when it has been copied back, the range holds the bytes that
were spilled, no byte outside it has changed, and its stream is ready. Where the spill area cannot hold the range, the waiting claim's
queue halts with its event, counted in DeadlockSpillFull; while started descriptors still use a range, or the half's scheduler
restarts, nothing is copied. -/
def Obligations.BreakerSpillsAndRestores : Prop :=
  (∀ (slice : Nat) (s : State) (w h : Claim), slice < 64 →
    s.waitClaims.find? (fun w => w.slice == slice && !w.halted && !w.reclaim
      && decide (w.since + us s.watchEff ≤ s.now) && !(holders s w).isEmpty && (holders s w).all (stalled s)
      && !s.spills.any (fun x => x.stage == 0 && x.waiter == (w.queue, w.seq))) = some w →
    schedRuns s (halfOf64 slice) = true →
    pickHolder s ((holders s w).filter (fun c => !s.spills.any (fun x => x.holder.queue == c.queue && x.holder.seq == c.seq)))
      = some h →
    spillUsed s + 4096 * h.pages.length ≤ s.spillEff * 1048576 →
    ∃ t, exec (.deadlockWatchFire slice) s = .next t
      ∧ t = { s with dic := t.dic, engines := t.engines, spills := t.spills, obs := t.obs }
      ∧ t.spills = s.spills ++ [{ holder := h, waiter := (w.queue, w.seq), stage := 0, bytes := [], poison := [] }]
      ∧ (∀ c ∈ engineCtx t h.slice, c.d.queue = h.queue → c.d.seq = h.seq → c.ready = false)
      ∧ Counted s t Obj.deadlockBreaks 1 ∧ SameObjs s t (Obj.deadlockBreaks :: journalObjs))
  ∧ (∀ (slice : Nat) (s : State) (w h : Claim) (v : Queue), slice < 64 →
    s.waitClaims.find? (fun w => w.slice == slice && !w.halted && !w.reclaim
      && decide (w.since + us s.watchEff ≤ s.now) && !(holders s w).isEmpty && (holders s w).all (stalled s)
      && !s.spills.any (fun x => x.stage == 0 && x.waiter == (w.queue, w.seq))) = some w →
    schedRuns s (halfOf64 slice) = true →
    pickHolder s ((holders s w).filter (fun c => !s.spills.any (fun x => x.holder.queue == c.queue && x.holder.seq == c.seq)))
      = some h →
    s.spillEff * 1048576 < spillUsed s + 4096 * h.pages.length → smGet s.queues w.queue = some v →
    ∃ t v', exec (.deadlockWatchFire slice) s = .next t
      ∧ t = { s with dic := t.dic, waitClaims := t.waitClaims, queues := t.queues, out := t.out, host := t.host }
      ∧ Counted s t Obj.deadlockSpillFull 1 ∧ SameObjs s t [Obj.deadlockSpillFull] ∧ smGet t.queues w.queue = some v'
      ∧ v'.trapped = true ∧ v'.trapPend = true ∧ v'.state = (if v.state = 1 then 2 else v.state)
      ∧ (∀ c ∈ t.waitClaims, c.queue = w.queue → c.seq = w.seq → c.halted = true) ∧ t.waitClaims.length = s.waitClaims.length)
  ∧ (∀ (slice : Nat) (s : State) (x : Spill), slice < 64 → s.spills.find? (fun x => x.holder.slice == slice && x.stage == 0
      && !startedOver s x.holder && !breakerWaits s x.holder) = some x → (x.holder.queue, x.holder.seq) ≠ x.waiter →
    ∃ t y, exec (.spillCopyDone slice) s = .next t ∧ y ∈ t.spills ∧ y.holder = x.holder ∧ y.stage = 1
      ∧ y.bytes = s.tile.filter (fun c => pageHas slice x.holder.pages c.1)
      ∧ y.poison = s.tilePoison.filter (fun l => pageHas slice x.holder.pages (64 * l))
      ∧ t.waitClaims.head? = some { x.holder with reclaim := true, since := s.now }
      ∧ Counted s t Obj.spillBytes (4096 * x.holder.pages.length) ∧ t.tile = s.tile ∧ t.lpddr = s.lpddr
      ∧ SameObjs s t ([Obj.spillBytes, Obj.deadlockBreaks, Obj.deadlockSpillFull] ++ journalObjs))
  ∧ (∀ (slice : Nat) (s : State) (x : Spill), slice < 64 →
    s.spills.find? (fun x => x.holder.slice == slice && x.stage == 1 && schedRuns s (halfOf64 slice)) = some x →
    (∀ o v, x.holder.release = some (o, v) → reached s o v = false) → (heldClaims s slice).length < 16 →
    (heldClaims s slice).any (fun c => meets c.pages x.holder.pages) = false →
    ∃ t y, exec (.spillReclaim slice) s = .next t
      ∧ t = { s with claims := s.claims ++ [{ x.holder with reclaim := false, since := s.now }], waitClaims := t.waitClaims,
                     spills := t.spills }
      ∧ y ∈ t.spills ∧ y = { x with stage := 2 })
  ∧ (∀ (slice : Nat) (s : State) (x : Spill), slice < 64 →
    s.spills.find? (fun x => x.holder.slice == slice && x.stage == 2 && !breakerWaits s x.holder) = some x →
    claimHeld s x.holder.queue x.holder.seq = true →
    x.bytes = x.bytes.filter (fun c => pageHas slice x.holder.pages c.1) → smWf x.bytes = true →
    ∃ t, exec (.restoreCopyDone slice) s = .next t
      ∧ t = { s with engines := t.engines, tile := t.tile, tilePoison := t.tilePoison, spills := s.spills.filter (fun y => y != x) }
      ∧ (∀ a, pageHas slice x.holder.pages a = true → memRead t.tile a = memRead x.bytes a)
      ∧ (∀ a, pageHas slice x.holder.pages a = false → memRead t.tile a = memRead s.tile a)
      ∧ (∀ c ∈ engineCtx t slice, c.d.queue = x.holder.queue → c.d.seq = x.holder.seq → c.ready = true ∧ c.lastMove = s.now))
  ∧ (∀ (slice : Nat) (s : State), slice < 64 → (∀ x ∈ s.spills, x.holder.slice = slice → x.stage = 0 →
      startedOver s x.holder = true ∨ breakerWaits s x.holder = true) → exec (.spillCopyDone slice) s = .next s)
  ∧ (∀ (slice : Nat) (s : State), slice < 64 → schedRuns s (halfOf64 slice) = false →
    exec (.deadlockWatchFire slice) s = .next s ∧ exec (.spillReclaim slice) s = .next s)

/-- TILE_STORE_SCRUB and LPDDR_SCRUB_READ (R164 to R166, R175): a scrub visit reads the next line of its slice, or in its
class's turn the next granule of its channel, and moves on; corrected words are counted, and a line with an uncorrectable word
reads poisoned from then on and is counted. No byte of either memory changes. A scrub read that is not due, or not in its
turn, changes nothing. LPDDR_READ_COMPLETE and LPDDR_WRITE_ACCEPT (R169, R172, R173, R176): a channel serves the oldest read
of class 1 first, then writes where they go ahead, then the oldest read, then writes, then a write-back; the read served
leaves the queue, a line of it found uncorrectable is marked so, corrected and uncorrectable lines are counted in the
channel's island, and no byte and no other line changes; a Dim channel serves nothing. An accepted write stores exactly the
bytes of its mask, the line's other bytes stay unless the line was uncorrectable, and the line's poison bit is the write's, or
stays set for a partial write. -/
def Obligations.LinesScrubbedReadAndWritten : Prop :=
  (∀ (slice l : Nat) (w0 w1 : Ecc) (s : State), slice < 64 → PartsOk s → l = s.scrubLine.getD slice 0 →
    ∃ t, exec (.tileStoreScrub slice w0 w1) s = .next t
      ∧ t = { s with dic := t.dic, persist := t.persist, tilePoison := t.tilePoison, remaps := t.remaps,
                     corrRuns := t.corrRuns, scrubLine := t.scrubLine, scrubWrap := t.scrubWrap, spareOut := t.spareOut, obs := t.obs }
      ∧ t.scrubLine.getD slice 0 = (if l + 1 < 147456 then l + 1 else 0)
      ∧ (∀ k, k ≠ slice → t.scrubLine.getD k 0 = s.scrubLine.getD k 0)
      ∧ (w0 = .uncorrectable ∨ w1 = .uncorrectable →
          nsHas t.tilePoison (slice * 147456 + l) = true ∧ Counted s t Obj.tstUncorrectable 1)
      ∧ (w0 ≠ .uncorrectable → w1 ≠ .uncorrectable → t.tilePoison = s.tilePoison)
      ∧ (∀ k, k ≠ slice * 147456 + l → nsHas t.tilePoison k = nsHas s.tilePoison k)
      ∧ (w0 = .corrected → w1 = .corrected → Counted s t Obj.tstCorrected 2)
      ∧ (w0 = .corrected ∧ w1 ≠ .corrected ∨ w0 ≠ .corrected ∧ w1 = .corrected → Counted s t Obj.tstCorrected 1)
      ∧ SameObjs s t ([Obj.tstUncorrectable, Obj.tstCorrected, Obj.tstLineRemaps, Obj.tstSparesLeftMin,
          Obj.tstScrubPasses] ++ alertObjs))
  ∧ (∀ (ch i : Nat) (es : List Ecc) (s : State), ch < 64 → PartsOk s → chanUp s ch = true → (chanOf s ch).dim = none →
    scrubDue s ch ≤ s.now → scrubTurn s ch = true → i < 4 →
    ∃ t, exec (.lpddrScrubRead ch es) s = .next t
      ∧ t = { s with dic := t.dic, lpddrPoison := t.lpddrPoison, lpddrBad := t.lpddrBad, chans := t.chans, obs := t.obs
                     wires := t.wires }
      ∧ (chanOf t ch).scrubPos = (if (chanOf s ch).scrubPos + 1 < 75497472 then (chanOf s ch).scrubPos + 1 else 0)
      ∧ (∀ k, k ≠ ch → (chanOf t k).scrubPos = (chanOf s k).scrubPos)
      ∧ (es[i]? = some .uncorrectable → writePending s (granuleOff s.keyEff ch (chanOf s ch).scrubPos / 64 + i) = false →
          nsHas t.lpddrPoison (granuleOff s.keyEff ch (chanOf s ch).scrubPos / 64 + i) = true
          ∧ nsHas t.lpddrBad (granuleOff s.keyEff ch (chanOf s ch).scrubPos / 64 + i) = false)
      ∧ ((∀ e ∈ es.take 4, e = .clean) → t.wires = s.wires ∧ t.dic = s.dic ∧ t.lpddrPoison = s.lpddrPoison
          ∧ t.lpddrBad = s.lpddrBad)
      ∧ SameObjs s t journalObjs)
  ∧ (∀ (ch : Nat) (es : List Ecc) (s : State), ch < 64 →
    chanUp s ch = false ∨ (chanOf s ch).dim ≠ none ∨ s.now < scrubDue s ch ∨ scrubTurn s ch = false →
    exec (.lpddrScrubRead ch es) s = .next s)
  ∧ (∀ (now : Nat) (c : Chan),
    ((∃ x ∈ c.readQ, classOne now x = true) →
      ∃ i x, turnOf now c = some (.read i) ∧ c.readQ[i]? = some x ∧ classOne now x = true
        ∧ ∀ j y, j < i → c.readQ[j]? = some y → classOne now y = false)
    ∧ ((∀ x ∈ c.readQ, classOne now x = false) → writesFirst now c = true → turnOf now c = some .write)
    ∧ ((∀ x ∈ c.readQ, classOne now x = false) → writesFirst now c = false → c.readQ ≠ [] → turnOf now c = some (.read 0))
    ∧ (c.readQ = [] → c.writeQ ≠ [] → turnOf now c = some .write)
    ∧ (c.readQ = [] → c.writeQ = [] → c.back ≠ [] → turnOf now c = some .back))
  ∧ (∀ (p k i : Nat) (es : List Ecc) (x : ChRead) (s : State), p < 16 → k < 4 → 4 * p + k < s.chans.length →
    chanUp s (4 * p + k) = true → (chanOf s (4 * p + k)).dim = none →
    (chanOf s (4 * p + k)).back = [] ∨ s.now < (chanOf s (4 * p + k)).lastBack + us 100 →
    turnOf s.now (chanOf s (4 * p + k)) = some (.read i) → (chanOf s (4 * p + k)).readQ[i]? = some x →
    ∃ t, exec (.lpddrReadComplete p k es) s = .next t ∧ t = { s with lpddrBad := t.lpddrBad, chans := t.chans, wires := t.wires }
      ∧ (chanOf t (4 * p + k)).readQ = (readOut s.now i (chanOf s (4 * p + k))).readQ
      ∧ (∀ j, j < x.n → es[j]? = some .uncorrectable → nsHas t.lpddrBad (x.line + j) = true)
      ∧ (∀ l, l < x.line ∨ x.line + x.n ≤ l → nsHas t.lpddrBad l = nsHas s.lpddrBad l)
      ∧ (∀ l, nsHas s.lpddrBad l = true → nsHas t.lpddrBad l = true)
      ∧ ((∀ e ∈ es.take x.n, e = .clean) → t.lpddrBad = s.lpddrBad ∧ t.wires = s.wires)
      ∧ (es.take x.n = [.corrected] →
          EventSent s t (.channel (channelOf s (64 * x.line))) Obj.memCorrected 1 ∧ t.lpddrBad = s.lpddrBad)
      ∧ (es.take x.n = [.uncorrectable] → EventSent s t (.channel (channelOf s (64 * x.line))) Obj.memUncorrectable 1))
  ∧ (∀ (p k : Nat) (es : List Ecc) (s : State), p < 16 → k < 4 → 4 * p + k < s.chans.length →
    chanUp s (4 * p + k) = true → (chanOf s (4 * p + k)).dim = none →
    (chanOf s (4 * p + k)).back = [] ∨ s.now < (chanOf s (4 * p + k)).lastBack + us 100 → (chanOf s (4 * p + k)).readQ = [] →
    (chanOf s (4 * p + k)).writeQ ≠ [] →
    ∃ t, exec (.lpddrReadComplete p k es) s = .next t ∧ t = { s with chans := t.chans }
      ∧ chanOf t (4 * p + k) = writeOut s.now (chanOf s (4 * p + k)) ∧ (∀ j, j ≠ 4 * p + k → chanOf t j = chanOf s j))
  ∧ (∀ (p k : Nat) (es : List Ecc) (s : State), p < 16 → k < 4 →
    chanUp s (4 * p + k) = false ∨ (chanOf s (4 * p + k)).dim ≠ none → exec (.lpddrReadComplete p k es) s = .next s)
  ∧ (∀ (line mask : Nat) (data : Bytes) (poison : Bool) (s : State), line < lpddrSize / 64 →
    chanUp s (channelOf s (64 * line)) = true →
    ∃ t, exec (.lpddrWriteAccept line mask data poison) s = .next t
      ∧ t = { s with free := t.free, dic := t.dic, lpddr := t.lpddr, lpddrPoison := t.lpddrPoison, lpddrBad := t.lpddrBad,
                     chans := t.chans }
      ∧ SameBytesBut s.lpddr t.lpddr (64 * line) 64
      ∧ (∀ i, i < 64 → natBit i mask = true → memRead t.lpddr (64 * line + i) = data.getD i 0)
      ∧ (∀ i, i < 64 → natBit i mask = false → nsHas s.lpddrBad line = false →
          memRead t.lpddr (64 * line + i) = memRead s.lpddr (64 * line + i))
      ∧ (mask % 2 ^ 64 = 2 ^ 64 - 1 → nsHas t.lpddrPoison line = poison)
      ∧ (mask % 2 ^ 64 ≠ 2 ^ 64 - 1 → nsHas t.lpddrPoison line = (poison || nsHas s.lpddrPoison line || nsHas s.lpddrBad line))
      ∧ nsHas t.lpddrBad line = false ∧ SameObjs s t [Obj.memDimStalledRequests])

/-- PACKAGE_TEMP_READ and CHANNEL_OVERTEMP (R174): a reading stands in its object, the package takes the refresh state of
Table MEM-3 for it, downward one state at a time, and each of its four channels that is in use and not Dim is throttled
exactly in state 3; 100 ms above 105 degrees are journalled once with ALERT_N. RETRAIN_START, SOFT_REPAIR_START and
DIM_DEFERRED_START (R176 to R178): an event that falls due on a channel in use starts a Dim period at once where R177 allows
one, and waits its turn where not; RETRAIN_END and SOFT_REPAIR_END end the period, and the channel serves again; the end of a
retraining resets the channel's crossings, their counts read (R413, R414). CHANNEL_FAILURE (R179): a channel in use that fails
is failed, MemState is 2 and ModuleState 3, with ALERT_N; every engine is empty, no layer or collective is active, and every
queue that ran or was halted is aborting or aborted. A second failed retraining in a row (R176) is such a failure. -/
def Obligations.HeatAndDimPeriodsHoldChannels : Prop :=
  (∀ (pkg i : Nat) (c : Int) (s : State), pkg < 16 → PartsOk s → i < 4 →
    ∃ t, exec (.packageTempRead pkg c) s = .next t ∧ t = { s with dic := t.dic, chans := t.chans, pkgs := t.pkgs }
      ∧ objGet t (Obj.memPackageTemp + pkg) = codeOf 32 c
      ∧ t.pkgs.getD pkg 0 = refreshNext (s.pkgs.getD pkg 0) c ∧ (∀ k, k ≠ pkg → t.pkgs.getD k 0 = s.pkgs.getD k 0)
      ∧ (chanUp s (4 * pkg + i) = true → (chanOf s (4 * pkg + i)).dim = none →
          chanState t (4 * pkg + i) = (if refreshNext (s.pkgs.getD pkg 0) c = 3 then 3 else 0))
      ∧ (105 < c → (chanOf t (4 * pkg + i)).hotSince = some ((chanOf s (4 * pkg + i)).hotSince.getD s.now))
      ∧ (c ≤ 105 → (chanOf t (4 * pkg + i)).hotSince = none)
      ∧ SameObjs s t ([Obj.memPackageTemp + pkg, Obj.memThrottleMs, Obj.memState] ++
          (List.range 4).map (fun k => Obj.memChannelState + (4 * pkg + k))))
  ∧ (∀ (ch t0 : Nat) (s : State), ch < 64 → (chanOf s ch).hotSince = some t0 → t0 + ms 100 ≤ s.now → (chanOf s ch).hotTold = false →
    ∃ t, exec (.channelOvertemp ch) s = .next t ∧ t = { s with dic := t.dic, chans := t.chans, obs := t.obs }
      ∧ chanOf t ch = { chanOf s ch with hotTold := true } ∧ (∀ k, k ≠ ch → chanOf t k = chanOf s k)
      ∧ Counted s t Obj.alertPending 1 ∧ SameObjs s t alertObjs
      ∧ Logged s t .channelHot [ch, objGet s (Obj.memPackageTemp + pkgOf ch)] true)
  ∧ (∀ (ch : Nat) (c : Instr) (e : DimEvent) (s : State), ch < 64 → PartsOk s → dimAllowed s ch = true →
    (c = .retrainStart ch ∧ e = .retrain ∧ retrainDue s ch = true
      ∨ (∃ b r, c = .softRepairStart ch b r ∧ e = .repair b r ∧ repairDue s ch b r = true)
      ∨ (∃ r, c = .dimDeferredStart ch ∧ (chanOf s ch).due = e :: r)) →
    ∃ t, exec c s = .next t ∧ t = { s with dic := t.dic, chans := t.chans } ∧ (chanOf t ch).dim = some (e, s.now)
      ∧ chanState t ch = dimState e ∧ (∀ k, k ≠ ch → chanOf t k = chanOf s k) ∧ Counted s t Obj.memDimEvents 1
      ∧ Counted s t Obj.memDimStalledRequests
          ((chanOf s ch).readQ.length + (chanOf s ch).readWait.length + (chanOf s ch).writeQ.length)
      ∧ SameObjs s t [Obj.memDimEvents, Obj.memDimStalledRequests, Obj.memThrottleMs, Obj.memState, Obj.memChannelState + ch])
  ∧ (∀ (ch : Nat) (c : Instr) (e : DimEvent) (s : State), ch < 64 → PartsOk s → chanUp s ch = true → dimAllowed s ch = false →
    (chanOf s ch).due.contains e = false → (chanOf s ch).dim.map Prod.fst ≠ some e →
    (c = .retrainStart ch ∧ e = .retrain ∧ retrainDue s ch = true
      ∨ (∃ b r, c = .softRepairStart ch b r ∧ e = .repair b r ∧ repairDue s ch b r = true)) →
    ∃ t, exec c s = .next t ∧ t = { s with chans := t.chans }
      ∧ chanOf t ch = { chanOf s ch with due := (chanOf s ch).due ++ [e] } ∧ (∀ k, k ≠ ch → chanOf t k = chanOf s k))
  ∧ (∀ (ch t0 : Nat) (ok : Bool) (s : State), ch < 64 → (chanOf s ch).dim = some (.retrain, t0) →
    (ok = true ∨ (chanOf s ch).trainFails = 0) → s.host.waits = [] →
    ∃ t, exec (.retrainEnd ch ok) s = .next t ∧ t = { s with dic := t.dic, chans := t.chans, wires := smErase s.wires (16 + ch) }
      ∧ (chanOf t ch).dim = none
      ∧ (chanOf t ch).lastTrain = s.now ∧ (chanOf t ch).lastDim = some s.now
      ∧ (chanOf t ch).trainFails = (if ok then 0 else 1) ∧ chanState t ch = (if s.pkgs.getD (pkgOf ch) 0 = 3 then 3 else 0)
      ∧ (islandObjs s (.channel ch) = [] →
          objGet t Obj.memDimLongestUs = max (objGet s Obj.memDimLongestUs) ((s.now - t0) / 1000))
      ∧ SameObjs s t ([Obj.memDimLongestUs, Obj.memThrottleMs, Obj.memState, Obj.memChannelState + ch]
          ++ islandObjs s (.channel ch)))
  ∧ (∀ (ch t0 bank row : Nat) (resource : Bool) (bad : List Nat) (s : State), ch < 64 →
    (chanOf s ch).dim = some (.repair bank row, t0) → s.host.waits = [] →
    ∃ t, exec (.softRepairEnd ch resource bad) s = .next t
      ∧ t = { s with dic := t.dic, persist := t.persist, lpddrPoison := t.lpddrPoison, lpddrBad := t.lpddrBad,
                     chans := t.chans, repairs := t.repairs }
      ∧ (chanOf t ch).dim = none ∧ chanState t ch = (if s.pkgs.getD (pkgOf ch) 0 = 3 then 3 else 0)
      ∧ { ch := ch, bank := bank, row := row, hard := !resource } ∈ t.repairs
      ∧ (resource = true → Counted s t Obj.memSoftRepairs 1)
      ∧ (resource = false → t.lpddrPoison = s.lpddrPoison ∧ t.lpddrBad = s.lpddrBad)
      ∧ SameObjs s t [Obj.memSoftRepairs, Obj.memDimLongestUs, Obj.memThrottleMs, Obj.memState, Obj.memChannelState + ch])
  ∧ (∀ (ch : Nat) (c : Instr) (s : State), ch < 64 → PartsOk s →
      (c = .channelFailure ch ∧ chanUp s ch = true
        ∨ ∃ t0, c = .retrainEnd ch false ∧ (chanOf s ch).dim = some (.retrain, t0) ∧ 1 ≤ (chanOf s ch).trainFails) →
      ∃ t, exec c s = .next t ∧ chanState t ch = 4 ∧ objGet t Obj.memState = 2 ∧ objGet t Obj.moduleState = 3
        ∧ (chanOf t ch).dim = none ∧ (∀ g ∈ t.engines, g.ctx = []) ∧ (∀ a ∈ t.arrays, a.run = none ∧ a.fifo = [])
        ∧ t.layers = [] ∧ t.colls = [] ∧ t.waitClaims = []
        ∧ (∀ q v, smGet t.queues q = some v → v.state ≠ 1 ∧ v.state ≠ 2) ∧ t.power = s.power ∧ t.mgmt = s.mgmt ∧ t.links = s.links)

/-- QUEUE_LAUNCH and COLL_QUEUE_LAUNCH (R158, R182, R183): the running launch, while the module is Ready, reads its block; one
that meets every rule puts the queue that its block describes in place, empty and running, with its partitions, and ends ok;
one that does not ends invalid, with no queue and no partition changed. QUEUE_DESTROY (R183): an accepted one takes the queue
and its partitions away; one that the queue's state forbids ends refused and leaves them. A command that does not run changes
nothing, and outside Ready each ends not-ready. The host's writes of a control page outside the bridge-failed state (R185,
R187, R113, Table QSY-4): QSY_DOORBELL within the ring moves the producer index and nothing else, beyond it sets DoorbellError
and counts; discard and release resume a trapped queue with its withheld signals gone; abort empties a queue and moves it to
state 3 or 4; QSY_IRQ sets the enables and clears the pending bits it names; a vector is sent once for each setting of an
enabled bit. CPL_PENDING_TIMEOUT: a record unread for 20 µs sets CplPend. A doorbell while its scheduler restarts, or in a
checkpoint, is latched, and in the bridge-failed state every one of these writes is ignored. -/
def Obligations.QueuesLaunchedAndControlled : Prop :=
  (∀ (coll : Bool) (block parts : Fetch) (s : State) (bs : Bytes) (q n : Nat) (b : List Word64) (v : Queue) (ps : List Partition),
    s.host.busy = true → s.host.running = (if coll then 3 else 1) → isReady s = true → mbxArg s 1 / 2 ^ 21 = 0 →
    SchedReads s (mbxArg s 0) 64 →
    readClean s (mbxArg s 0) 64 block = (s, some bs) → b = wordsOf bs 8 → q = (if coll then collQ else dField b 0 9 0) →
    v = queueOfBlock q b (if natBit 20 (mbxArg s 1) then some (mbxArg s 1 % 2 ^ 20) else none) → n = dField b 3 9 0 →
    launchOk s q v b = true → (n ≠ 0 → SchedReads s (wordAt b 4).toNat (8 * n)) → (n = 0 → ps = []) →
    (n ≠ 0 → (readClean s (wordAt b 4).toNat (8 * n) parts).1 = s
      ∧ (readClean s (wordAt b 4).toNat (8 * n) parts).2.bind (fun l => partsOf s q (wordsOf l n)) = some ps) →
    partsOk s ps = true →
    ∃ t, exec (if coll then .collQueueLaunch block parts else .queueLaunch block parts) s = .next t
      ∧ t = { s with out := t.out, queues := smSet s.queues q v, parts := s.parts ++ ps, host := t.host }
      ∧ v.state = 1 ∧ v.outstanding = 0 ∧ v.head = 0 ∧ v.prod = 0 ∧ v.fetched = [] ∧ smGet s.queues q = none
      ∧ t.host.busy = false ∧ t.host.done = true ∧ t.host.status = 0)
  ∧ (∀ (coll : Bool) (block parts : Fetch) (s : State) (bs : Bytes) (q : Nat) (b : List Word64) (v : Queue),
    s.host.busy = true → s.host.running = (if coll then 3 else 1) → isReady s = true → mbxArg s 1 / 2 ^ 21 = 0 →
    SchedReads s (mbxArg s 0) 64 →
    readClean s (mbxArg s 0) 64 block = (s, some bs) → b = wordsOf bs 8 → q = (if coll then collQ else dField b 0 9 0) →
    v = queueOfBlock q b (if natBit 20 (mbxArg s 1) then some (mbxArg s 1 % 2 ^ 20) else none) →
    (launchOk s q v b = false ∨ dField b 3 9 0 ≠ 0 ∧ SchedReads s (wordAt b 4).toNat (8 * dField b 3 9 0)
      ∧ (readClean s (wordAt b 4).toNat (8 * dField b 3 9 0) parts).1 = s
      ∧ ((readClean s (wordAt b 4).toNat (8 * dField b 3 9 0) parts).2.bind (fun l => partsOf s q (wordsOf l (dField b 3 9 0)))).any
          (partsOk s) = false) →
    ∃ t, exec (if coll then .collQueueLaunch block parts else .queueLaunch block parts) s = .next t
      ∧ t = { s with out := t.out, host := t.host } ∧ t.host.busy = false ∧ t.host.status = 3)
  ∧ (∀ (s : State) (v : Queue), s.host.busy = true → s.host.running = 2 → isReady s = true → mbxArg s 0 < 2 ^ 10 →
    smGet s.queues (mbxArg s 0) = some v →
    ∃ t, exec .queueDestroy s = .next t
      ∧ (destroyOk v = true → t = { s with out := t.out, queues := smErase s.queues (mbxArg s 0), host := t.host,
                                           parts := s.parts.filter (fun p => p.queue != mbxArg s 0) } ∧ t.host.status = 0)
      ∧ (destroyOk v = false → t = { s with out := t.out, host := t.host } ∧ t.host.status = 4) ∧ t.host.busy = false)
  ∧ (∀ (c : Instr) (k st : Nat) (block parts : Fetch) (s : State),
    (((c = .queueLaunch block parts ∧ k = 1 ∨ c = .collQueueLaunch block parts ∧ k = 3)
        ∧ (isReady s = false ∧ st = 6 ∨ isReady s = true ∧ mbxArg s 1 / 2 ^ 21 ≠ 0 ∧ st = 1))
      ∨ c = .queueDestroy ∧ k = 2 ∧ (isReady s = false ∧ st = 6 ∨ isReady s = true ∧ mbxArg s 0 / 2 ^ 10 ≠ 0 ∧ st = 1
          ∨ isReady s = true ∧ mbxArg s 0 / 2 ^ 10 = 0 ∧ smGet s.queues (mbxArg s 0) = none ∧ st = 4)) →
    ∃ t, exec c s = .next t
      ∧ (s.host.busy = true → s.host.running = k →
          t = { s with out := t.out, host := t.host } ∧ t.host.busy = false ∧ t.host.done = true ∧ t.host.status = st)
      ∧ (s.host.busy = false ∨ s.host.running ≠ k → t = s))
  ∧ (∀ (q p : Nat) (s : State) (v : Queue), q < 1025 → bridgeFailed s = false → smGet s.queues q = some v →
    ∃ t v', exec (.qsyDoorbell q p) s = .next t ∧ smGet t.queues q = some v' ∧ (∀ k, k ≠ q → smGet t.queues k = smGet s.queues k)
      ∧ (doorbellHeld s v = true → t = { s with queues := t.queues } ∧ v' = { v with latched := v.latched ++ [p] })
      ∧ (doorbellHeld s v = false → diff32 (p % 2 ^ 32) v.prod = 0 → t = s)
      ∧ (doorbellHeld s v = false → diff32 (p % 2 ^ 32) v.prod ≠ 0 → diff32 (p % 2 ^ 32) v.head ≤ 2 ^ v.ringLog2 →
          t = { s with queues := t.queues } ∧ v' = { v with prod := p % 2 ^ 32 })
      ∧ (doorbellHeld s v = false → diff32 (p % 2 ^ 32) v.prod ≠ 0 → 2 ^ v.ringLog2 < diff32 (p % 2 ^ 32) v.head →
          QueueTells s t q { v with doorbellError := true, errPend := true } ∧ Counted s t Obj.doorbellErrors 1
          ∧ SameObjs s t [Obj.doorbellErrors]))
  ∧ (∀ (q : Nat) (release : Bool) (s : State) (v : Queue), q < 1025 → bridgeFailed s = false → smGet s.queues q = some v →
    ∃ t v', exec (if release then .qsyCmdRelease q else .qsyCmdDiscard q) s = .next t ∧ smGet t.queues q = some v'
      ∧ (v.trapped = false → t = s)
      ∧ (v.trapped = true → v'.trapped = false ∧ v'.trappedCount = 0 ∧ v'.withheld = [] ∧ v'.state = (if v.state = 2 then 1 else v.state)
          ∧ ∀ c ∈ t.waitClaims, c.queue = q → c.halted = false)
      ∧ v'.outstanding = v.outstanding ∧ v'.fetched = v.fetched ∧ (∀ k, k ≠ q → smGet t.queues k = smGet s.queues k)
      ∧ (release = false ∨ v.withheld = [] → t = { s with queues := t.queues, waitClaims := t.waitClaims })
      ∧ t = { s with out := t.out, dic := t.dic, claims := t.claims, waitClaims := t.waitClaims, queues := t.queues, sync := t.sync
                     waiters := t.waiters, routerW := t.routerW, routerE := t.routerE, outst := t.outst, nextTag := t.nextTag
                     host := t.host, obs := t.obs }
      ∧ SameObjs s t tailObjs)
  ∧ (∀ (q : Nat) (s : State) (v : Queue), q < 1025 → bridgeFailed s = false → smGet s.queues q = some v → v.state = 1 ∨ v.state = 2 →
    ∃ t v', exec (.qsyCmdAbort q) s = .next t ∧ smGet t.queues q = some v'
      ∧ v'.outstanding = v.outstanding - (s.layers.filter (fun l => l.queue == q)).length
          - (v.seams.filter (fun x => !x.opened)).length - (haltedStreams s q).length
      ∧ v'.state = (if v'.outstanding = 0 then 4 else 3)
      ∧ v'.fetched = [] ∧ v'.withheld = [] ∧ v'.trapped = false ∧ v'.head = v.prod
      ∧ v'.nextSeq = v.nextSeq + diff32 v.prod v.head ∧ (∀ l ∈ t.layers, l.queue ≠ q)
      ∧ (∀ k, k ≠ q → smGet t.queues k = smGet s.queues k) ∧ t.sync = s.sync ∧ t.arrays = s.arrays ∧ t.vecs = s.vecs)
  ∧ (∀ (q : Nat) (s : State) (v : Queue), q < 1025 → smGet s.queues q = some v → v.state ≠ 1 → v.state ≠ 2 →
    exec (.qsyCmdAbort q) s = .next s)
  ∧ (∀ (q w : Nat) (s : State) (v : Queue), q < 1025 → bridgeFailed s = false → smGet s.queues q = some v →
    ∃ t, exec (.qsyIrqWrite q w) s = .next t ∧ t.dic = s.dic
      ∧ QueueTells s t q { v with trapEn := natBit 0 w, cplEn := natBit 1 w, errEn := natBit 2 w
                                  trapPend := v.trapPend && !natBit 8 w, cplPend := v.cplPend && !natBit 9 w
                                  errPend := v.errPend && !natBit 10 w, trapSent := v.trapSent && (v.trapPend && !natBit 8 w)
                                  cplSent := v.cplSent && (v.cplPend && !natBit 9 w)
                                  errSent := v.errSent && (v.errPend && !natBit 10 w) })
  ∧ (∀ (q : Nat) (s : State) (v : Queue), q < 1025 → smGet s.queues q = some v →
    ∃ t, exec (.cplPendingTimeout q) s = .next t
      ∧ ((∃ t0 ∈ v.pendTimes, t0 + us 20 ≤ s.now) → t.dic = s.dic ∧ QueueTells s t q { v with cplPend := true })
      ∧ ((∀ t0 ∈ v.pendTimes, s.now < t0 + us 20) → t = s))
  ∧ (∀ (q w : Nat) (s : State), q < 1025 → bridgeFailed s = true →
    exec (.qsyDoorbell q w) s = .next s ∧ exec (.qsyCmdRelease q) s = .next s ∧ exec (.qsyCmdDiscard q) s = .next s
      ∧ exec (.qsyCmdAbort q) s = .next s ∧ exec (.qsyIrqWrite q w) s = .next s)

/-- DESCRIPTOR_FETCH (R184, R191, R452): the descriptor at QSY_HEAD, read clean, takes the next DescSeq and joins those to be
issued; one that cannot be read clean completes with its queue trapped; where none may be fetched nothing changes. DESCRIPTOR_ISSUE
(R192, R193): where the first queue in a half's order has a descriptor that may be issued now, it goes to the engine it names, behind
those issued before, and its queue has one more outstanding; a rejected one ends with its record; a half that may not issue does
nothing. -/
def Obligations.DescriptorsFetchedAndIssued : Prop :=
  (∀ (q : Nat) (f : Fetch) (s : State) (v : Queue) (bs : Bytes), q < 1025 → smGet s.queues q = some v → fetchOk s v = true →
    SchedReads s (v.ringAddr + 128 * (v.head % 2 ^ v.ringLog2)) 128 →
    readClean s (v.ringAddr + 128 * (v.head % 2 ^ v.ringLog2)) 128 f = (s, some bs) →
    ∃ t v' g, exec (.descriptorFetch q f) s = .next t ∧ t = { s with queues := t.queues } ∧ smGet t.queues q = some v'
      ∧ v'.head = (v.head + 1) % 2 ^ 32 ∧ v'.nextSeq = v.nextSeq + 1 ∧ v'.fetched = v.fetched ++ [g] ∧ g.seq = v.nextSeq
      ∧ g.words = wordsOf bs 16 ∧ g.inLayer = false ∧ v'.outstanding = v.outstanding
      ∧ (∀ k, k ≠ q → smGet t.queues k = smGet s.queues k))
  ∧ (∀ (q : Nat) (f : Fetch) (s s1 : State) (v : Queue), q < 1025 → smGet s.queues q = some v → fetchOk s v = true →
    (∀ off, spaceOf (v.ringAddr + 128 * (v.head % 2 ^ v.ringLog2)) = .localOff off →
      snoopFailed s (lpddrLines off 128) = true ∨ EngineReads s off 128) →
    readClean s (v.ringAddr + 128 * (v.head % 2 ^ v.ringLog2)) 128 f = (s1, none) →
    ∃ t v', exec (.descriptorFetch q f) s = .next t ∧ EndFrame s t q ∧ smGet t.queues q = some v' ∧ v'.head = (v.head + 1) % 2 ^ 32
      ∧ v'.trapped = true ∧ v'.state = 2 ∧ v'.outstanding = v.outstanding ∧ v'.fetched = v.fetched
      ∧ SameObjs s t tailObjs)
  ∧ (∀ (q : Nat) (f : Fetch) (s : State), q < 1025 → (∀ v, smGet s.queues q = some v → fetchOk s v = false) →
    exec (.descriptorFetch q f) s = .next s)
  ∧ (∀ (h : Half) (q : Nat) (rest : List Nat) (r : List Fetched) (s : State) (v : Queue) (f : Fetched), PartsOk s →
    mayIssue s h = true → serveOrder s h = q :: rest → smGet s.queues q = some v → candidates s q v h = f :: r →
    f.early = false → waitDone s q f = true → slotFree v = true → schedulerOwn s q v.halves f = false →
    issueReject q v.halves f.words (outsideLayer s q f) = none → engineRoom s h f.words = true →
    (isCompute (opcode f.words) = true → arrayRetired s (tailTarget f.words) = false) →
    (isCompute (opcode f.words) = true ∨ opcode f.words = 0x40 ∧ (strEngine f.words < 72 ∨ strEngine f.words = 126)) →
    ∃ t v', exec (.descriptorIssue h) s = .next t
      ∧ t = { s with arrays := t.arrays, vecs := t.vecs, engines := t.engines, moverRR := t.moverRR, queues := t.queues,
                     schedRR := t.schedRR }
      ∧ smGet t.queues q = some v' ∧ v'.outstanding = v.outstanding + 1 ∧ (∀ g ∈ v'.fetched, g.seq = f.seq → todoIn g h = false)
      ∧ (opcode f.words = 0x20 → (arrayOf t (tailTarget f.words)).fifo = (arrayOf s (tailTarget f.words)).fifo
            ++ [issuedAs s q f])
      ∧ (isCompute (opcode f.words) = true → opcode f.words ≠ 0x20 →
          (vecOf t (tailTarget f.words)).fifo = (vecOf s (tailTarget f.words)).fifo
            ++ [issuedAs s q f])
      ∧ (opcode f.words = 0x40 → strEngine f.words = 126 → ∃ e, pickMover s h = some e ∧ engineCtx t e = engineCtx s e
            ++ [{ d := issuedAs s q f }])
      ∧ (opcode f.words = 0x40 → strEngine f.words < 72 → engineCtx t (strEngine f.words) = engineCtx s (strEngine f.words)
            ++ [{ d := issuedAs s q f }])
      ∧ (∀ k, k ≠ q → smGet t.queues k = smGet s.queues k))
  ∧ (∀ (h : Half) (q st : Nat) (rest : List Nat) (r : List Fetched) (s : State) (v : Queue) (f : Fetched),
    mayIssue s h = true → serveOrder s h = q :: rest → smGet s.queues q = some v → candidates s q v h = f :: r →
    f.early = false → waitDone s q f = true → slotFree v = true → f.inLayer = false →
    issueReject q v.halves f.words (outsideLayer s q f) = some st →
    ∃ t, exec (.descriptorIssue h) s = .next t ∧ EndFrame { s with schedRR := t.schedRR } t q ∧ SameObjs s t tailObjs
      ∧ (slotReady s v 0 = true → ∃ v', smGet t.queues q = some v' ∧ v'.outstanding = v.outstanding
          ∧ v'.cplTail = (v.cplTail + 1) % 2 ^ 32 ∧ (∀ g ∈ v'.fetched, g.seq = f.seq → todoIn g h = false)))
  ∧ (∀ (h : Half) (s : State), mayIssue s h = false → exec (.descriptorIssue h) s = .next s)

/-- SYNC_SIGNAL, SYNC_SET and WAIT_POLL (R194, R195, R197): a signal adds its amount modulo 2^64 and a set stores its value; a
table wait and a claim that the new value reaches are released, and no other; a poll releases the polled waits of its half
that hold. No other object, queue or byte of memory changes. CORE_WATCHDOG_EXPIRE, CORE_RESTART_DONE and
SUPERVISOR_WATCHDOG_EXPIRE (R21, R199 to R201, R220, Table CTL-2): a running core whose watchdog expires fewer than three
times in ten minutes is held in reset and journalled, its other cores run on, and its times are kept; core 2's open rotor
steps are abandoned, and a scheduler's queues show it and a checkpoint fails; a core of half E that no path reaches stays as
it is. A core that is back runs and is counted, and a scheduler's queues take their latched doorbells. A supervisor that
restarts measures its times anew and keeps what the main domains are. -/
def Obligations.SynchronisationObjectsAndCores : Prop :=
  (∀ (o n : Nat) (set : Bool) (s : State), o < 32768 →
    ∃ t, exec (if set then .syncSet o n else .syncSignal o n) s = .next t
      ∧ t = { s with sync := t.sync, waiters := t.waiters, claims := t.claims }
      ∧ syncGet t o = (if set then BitVec.ofNat 64 n else syncGet s o + BitVec.ofNat 64 n)
      ∧ (∀ k, k ≠ o → syncGet t k = syncGet s k)
      ∧ (∀ w, w ∈ t.waiters ↔ w ∈ s.waiters ∧ ¬(w.obj = o ∧ w.polled = false ∧ w.value ≤ (syncGet t o).toNat))
      ∧ (∀ c, c ∈ t.claims ↔ c ∈ s.claims ∧ ∀ v, c.release = some (o, v) → ¬ v ≤ (syncGet t o).toNat))
  ∧ (∀ (h : Half) (s : State), ∃ t, exec (.waitPoll h) s = .next t ∧ t = { s with waiters := t.waiters }
      ∧ (∀ w, w ∈ t.waiters ↔ w ∈ s.waiters ∧ ¬(w.polled = true ∧ halfOfObj w.obj = h ∧ w.value ≤ (syncGet s w.obj).toNat)))
  ∧ (∀ (i pc : Nat) (image : Bool) (s : State), i < 8 → (coreAt s i).st = 1 → (recentRestarts s i).length < 3 →
    (4 ≤ i → pathE s = true) →
    ∃ t, exec (.coreWatchdogExpire i pc image) s = .next t ∧ (coreAt t i).st = 2 ∧ (coreAt t i).restarts = recentRestarts s i ++ [s.now] ∧ (∀ k, k ≠ i → coreAt t k = coreAt s k)
      ∧ (i % 2 = 1 → t = { s with dic := t.dic, cores := t.cores, obs := t.obs } ∧ SameObjs s t journalObjs
          ∧ Logged s t .coreRestart [i, pc] false)
      ∧ (i % 4 = 2 → t = { s with dic := t.dic, cores := t.cores, rotors := t.rotors, links := t.links, obs := t.obs }
          ∧ (∀ k, k < 16 → (rotorOf t ((if i < 4 then 0 else 16) + k)).phase = 0) ∧ SameObjs s t (Obj.rotorAborts :: Obj.retryWindowStalls :: journalObjs))
      ∧ (isSched i = true → s.seqs.ckptStep = 0 → t = { s with dic := t.dic, cores := t.cores, queues := t.queues, obs := t.obs }
          ∧ SameObjs s t journalObjs)
      ∧ (isSched i = true → s.seqs.ckptStep ≠ 0 →
          t = { s with out := t.out, dic := t.dic, cores := t.cores, queues := t.queues, host := t.host
                       seqs := { s.seqs with ckptStep := 0 }, obs := t.obs }
          ∧ objGet t Obj.checkpointState = 3 ∧ SameObjs s t (Obj.checkpointState :: Obj.doorbellErrors :: journalObjs))
      ∧ (isSched i = true → ∀ q v, smGet t.queues q = some v →
          v.schedRestarting = (serves v.halves .w && (coreAt t 0).st == 2 || serves v.halves .e && (coreAt t 4).st == 2)))
  ∧ (∀ (i pc : Nat) (image : Bool) (s : State), i < 8 → (coreAt s i).st ≠ 1 ∨ 4 ≤ i ∧ pathE s = false →
    exec (.coreWatchdogExpire i pc image) s = .next s)
  ∧ (∀ (i : Nat) (s : State), i < 8 → (coreAt s i).st = 2 →
    ∃ t, exec (.coreRestartDone i) s = .next t
      ∧ t = { s with out := t.out, dic := t.dic, cores := t.cores, queues := t.queues, host := t.host }
      ∧ (coreAt t i).st = 1 ∧ (∀ k, k ≠ i → coreAt t k = coreAt s k) ∧ Counted s t (Obj.coreRestarts + i) 1
      ∧ (isSched i = false → t.host = s.host ∧ SameObjs s t [Obj.coreRestarts + i])
      ∧ (isSched i = true → SameObjs s t [Obj.coreRestarts + i, Obj.doorbellErrors]
          ∧ ∀ q v, smWf s.queues = true → smGet t.queues q = some v → doorbellHeld t v = false → v.latched = []))
  ∧ (∀ (i : Nat) (s : State), i < 8 → (coreAt s i).st ≠ 2 → exec (.coreRestartDone i) s = .next s)
  ∧ (∀ s : State, s.power.on = false → exec .supervisorWatchdogExpire s = .next s)
  ∧ (∀ s : State, s.power.on = true → ∃ t, exec .supervisorWatchdogExpire s = .next t
      ∧ t = { s with power := t.power, iface := t.iface } ∧ t.power.doms = s.power.doms ∧ t.power.on = true
      ∧ t.power.sites.length = s.power.sites.length ∧ (∀ x ∈ t.power.sites, x.hist = [] ∧ x.blackSince = none)
      ∧ t.iface.leakLast = [] ∧ t.iface.flowSince = none)

/-- LIGHT_LOSS and LIGHT_RESTORE (R209): light lost at an input makes its state 4, and on one line clears the line's usable
bit, with one alert; when it is back, the state is the input's class again, or the bit is set. The loss of light that is lost
already, on an input, on a line or on a line that is not usable, and the return of light that was not lost, change nothing.
LOCK_IN_READING, FEED_FORWARD_UPDATE and RING_LOCK_LOSS (R211, R213, R214): a reading beyond 5 GHz is one more in a row and
any other ends the row (the loop's new code is open: log entry 3); the feed-forward moves the heater code by alpha times the
change of its site's temperature, within 16 bits, where its site is the nearest with a sensor that is not flagged; a locked
ring with three bad readings in a row, or whose code has left its window, loses lock, is counted, and its lane's recovery
begins. LANE_RECOVERY_END (R222): a ring not found is swept in full, then once more, then retired with an alert; one that is
found is locked and its lane is trained: admitted, its recovery is over; refused for skew, it is over and the line is not
tried again for 1 s; failed, the lane is trained once more and then swept. -/
def Obligations.LightAndRingsLostAndRecovered : Prop :=
  (∀ (k : Nat) (line : Option Nat) (s : State), k < 8 → PartsOk s → (laserAt s k).dark = false →
    (∀ j, line = some j → natBit j (laserAt s k).lostLines = false ∧ natBit j (objGet s (Obj.laserLinesUsable + k)) = true) →
    ∃ t, exec (.lightLoss k line) s = .next t
      ∧ t = { s with out := t.out, dic := t.dic, lasers := t.lasers, rotors := t.rotors, specMap := t.specMap, links := t.links,
                     routerW := t.routerW, routerE := t.routerE, outst := t.outst, obs := t.obs }
      ∧ (line = none → objGet t (Obj.laserInputState + k) = 4 ∧ (laserAt t k).dark = true
          ∧ SameObjs s t ([Obj.laserInputState + k, Obj.alertPending, Obj.rotorAborts] ++ linkObjs))
      ∧ (∀ j, line = some j → objGet t (Obj.laserLinesUsable + k) = clearNatBit j (objGet s (Obj.laserLinesUsable + k))
          ∧ (laserAt t k).lostLines = setNatBit j (laserAt s k).lostLines
          ∧ SameObjs s t ([Obj.laserLinesUsable + k, Obj.alertPending, Obj.rotorAborts] ++ linkObjs))
      ∧ (∀ i, i ≠ k → laserAt t i = laserAt s i) ∧ Counted s t Obj.alertPending 1)
  ∧ (∀ (k : Nat) (line : Option Nat) (s : State), k < 8 → PartsOk s → (line = none → (laserAt s k).dark = true) →
    (∀ j, line = some j → natBit j (laserAt s k).lostLines = true) →
    ∃ t, exec (.lightRestore k line) s = .next t
      ∧ t = { s with dic := t.dic, lasers := t.lasers, rings := t.rings, recovery := t.recovery, obs := t.obs }
      ∧ (line = none → objGet t (Obj.laserInputState + k) = (laserAt s k).cls ∧ (laserAt t k).dark = false
          ∧ SameObjs s t ((Obj.laserInputState + k) :: journalObjs))
      ∧ (∀ j, line = some j → objGet t (Obj.laserLinesUsable + k) = setNatBit j (objGet s (Obj.laserLinesUsable + k))
          ∧ (laserAt t k).lostLines = clearNatBit j (laserAt s k).lostLines ∧ SameObjs s t ((Obj.laserLinesUsable + k) :: journalObjs)))
  ∧ (∀ (k : Nat) (s : State), k < 8 → (laserAt s k).dark = true → exec (.lightLoss k none) s = .next s)
  ∧ (∀ (k : Nat) (s : State), k < 8 → (laserAt s k).dark = false → exec (.lightRestore k none) s = .next s)
  ∧ (∀ (k j : Nat) (s : State), k < 8 →
    ((laserAt s k).dark = true ∨ natBit j (laserAt s k).lostLines = true
      ∨ natBit j (objGet s (Obj.laserLinesUsable + k)) = false → exec (.lightLoss k (some j)) s = .next s)
    ∧ (natBit j (laserAt s k).lostLines = false → exec (.lightRestore k (some j)) s = .next s))
  ∧ (∀ (r : Nat) (e : Int) (s : State), r < 1088 → PartsOk s → (ringOf s r).locked = true →
    ∃ t, exec (.lockInReading r e) s = .next t ∧ t = { s with free := t.free, rings := t.rings }
      ∧ (ringOf t r).bad = (if 5000 < e.natAbs then (ringOf s r).bad + 1 else 0) ∧ (ringOf t r).locked = true
      ∧ (∀ q, q ≠ r → (combMode s (r / 68) = false ∨ 544 ≤ r ∨
            r ≠ modRing (laserAt s (r / 68)).refFibre (laserAt s (r / 68)).refLine) → ringOf t q = ringOf s q))
  ∧ (∀ (r n : Nat) (sites : List Nat) (c : Int) (s : State), r < 1088 → PartsOk s → (∀ m ∈ sites, 64 ≤ m ∧ m < 88) →
    (siteFor s sites = none → exec (.feedForwardUpdate r sites) s = .next s)
    ∧ (siteFor s sites = some (n, c) →
      ∃ t, exec (.feedForwardUpdate r sites) s = .next t ∧ t = { s with rings := t.rings }
        ∧ ringOf t r = { ringOf s r with code := (ringOf t r).code, ff := some (n, c) }
        ∧ (∀ c0, (ringOf s r).ff = some (n, c0) →
            (ringOf t r).code = max 0 (min (65535 * 128) ((ringOf s r).code + (ringOf s r).alpha * (c - c0))))
        ∧ ((∀ c0, (ringOf s r).ff ≠ some (n, c0)) → (ringOf t r).code = (ringOf s r).code)
        ∧ (∀ q, q ≠ r → ringOf t q = ringOf s q)))
  ∧ (∀ (r : Nat) (s : State), r < 1088 → PartsOk s → (ringOf s r).locked = true → 3 ≤ (ringOf s r).bad ∨ inWindow (ringOf s r) = false →
    ∃ t, exec (.ringLockLoss r) s = .next t
      ∧ t = { s with out := t.out, dic := t.dic, lasers := t.lasers, rings := t.rings, rotors := t.rotors, specMap := t.specMap,
                     recovery := t.recovery, links := t.links, routerW := t.routerW, routerE := t.routerE, outst := t.outst,
                     obs := t.obs }
      ∧ (ringOf t r).locked = false ∧ (ringOf t r).bad = 0 ∧ Counted s t Obj.lockLosses 1
      ∧ (∀ x, findLane s (decide (r < 544)) (ringFibre r) (r % 17) = some x → (ringOf t r).sweep = 1 ∧ ∃ y ∈ t.recovery, y.ring = r)
      ∧ (∀ q, q ≠ r → ringOf t q = ringOf s q) ∧ SameObjs s t ([Obj.lockLosses, Obj.rotorAborts] ++ linkObjs))
  ∧ (∀ (r : Nat) (s : State), r < 1088 → (ringOf s r).locked = false ∨ (ringOf s r).bad < 3 ∧ inWindow (ringOf s r) = true →
    exec (.ringLockLoss r) s = .next s)
  ∧ (∀ (r : Nat) (found out : Bool) (tr : TrainResult) (s : State), r < 1088 → PartsOk s → (ringOf s r).sweep ≠ 0 →
    core2Busy s (ringFibre r) = false → out = decide (r < 544) →
    ∃ t, exec (.laneRecoveryEnd r found tr) s = .next t
      ∧ t = { s with out := t.out, dic := t.dic, persist := t.persist, doms := t.doms, lasers := t.lasers, rings := t.rings
                     specMap := t.specMap, reassign := t.reassign, recovery := t.recovery, trainFails := t.trainFails
                     inGrant := t.inGrant, links := t.links, skewHold := t.skewHold, routerW := t.routerW, routerE := t.routerE
                     outst := t.outst, obs := t.obs }
      ∧ (∀ q, q ≠ r → found = true → verdict s out (ringFibre r) (r % 17) tr ≠ .skewed → ringOf t q = ringOf s q)
      ∧ (found = false → (ringOf s r).sweep = 1 → t = { s with rings := t.rings } ∧ (ringOf t r).sweep = 2)
      ∧ (found = false → (ringOf s r).sweep ≠ 1 → (ringOf s r).fullFails = 0 →
          t = { s with rings := t.rings } ∧ (ringOf t r).sweep = 3 ∧ (ringOf t r).fullFails = 1)
      ∧ (found = false → (ringOf s r).sweep ≠ 1 → (ringOf s r).fullFails ≠ 0 →
          ringRetired t r = true ∧ (ringOf t r).parked = true ∧ Counted s t Obj.alertPending 1)
      ∧ (found = true → (∀ x ∈ s.recovery, x.ring ≠ r) → t = { s with rings := t.rings }
          ∧ ringOf t r = { ringOf s r with locked := true, parked := false, fullFails := 0, sweep := 0, bad := 0 })
      ∧ (∀ x lane, found = true → s.recovery.find? (fun x => x.ring == r) = some x → recoveredLane s x = some lane →
          (verdict s out (ringFibre r) (r % 17) tr = .admitted →
            (ringOf t r).locked = true ∧ (ringOf t r).sweep = 0 ∧ (∀ y ∈ t.recovery, y.ring ≠ r)
              ∧ objGet t (Obj.linkRttNs + x.link) = tr.rttNs ∧ t.skewHold = s.skewHold)
          ∧ (verdict s out (ringFibre r) (r % 17) tr = .skewed →
            (∀ y ∈ t.recovery, y.ring ≠ r) ∧ smGet t.skewHold (ringAt out (ringFibre r) (r % 17)) = some (s.now + ms 1000))
          ∧ (verdict s out (ringFibre r) (r % 17) tr = .failed →
            t.recovery = s.recovery ∧ t.skewHold = s.skewHold ∧ (ringOf t r).locked = (ringOf s r).locked
              ∧ ((lane.tries = 0 → ringOf t r = ringOf s r)
                ∧ (lane.tries ≠ 0 → (ringOf t r).sweep = 1 ∧ (ringOf t r).fullFails = 0))))
      ∧ SameObjs s t (Obj.alertPending :: Obj.wrongLineEvents :: linkObjs))
  ∧ (∀ (r : Nat) (found : Bool) (tr : TrainResult) (s : State), r < 1088 →
    (ringOf s r).sweep = 0 ∨ core2Busy s (ringFibre r) = true → exec (.laneRecoveryEnd r found tr) s = .next s)

/-- ROTOR_STEP, ROTOR_LINE_LOCKED and ROTOR_ACCEPT_TIMEOUT (R215, R216, R218, R220): a step that is due makes the next line grey
when it carries no lane, and counts; a lane there that can move is to be moved to the grey line; any other leaves service for
the step, its peer being told, unless it is the last of its link, whose line is skipped and counted. Once the grey line's ring is
locked, a lane that can move is proposed to its peer, one in recovery aborts the step, and where none can move the line waits; no
Accept within 50 µs aborts the step. A rotor that holds does not step. IDLE_DROP_SWEEP (R219): every drop ring of a fibre that carries no lane and is not retired is locked exactly where its line was found. -/
def Obligations.RotorStepsProposesAndAborts : Prop :=
  (∀ (x a : Nat) (s : State), x < 32 → PartsOk s → (rotorOf s x).grey < 17 → a < 17 → rotorHolds s x = false →
    (rotorOf s x).phase ≠ 3 → (rotorOf s x).since + us (objGet s Obj.rotorStepUs) ≤ s.now → facetClear s x = true →
    a = nextOf s x → stepWaits s x a = false →
    (findLane s true x a = none →
      ∃ t, exec (.rotorStep x) s = .next t
        ∧ t = { s with dic := t.dic, lasers := t.lasers, rings := t.rings, rotors := t.rotors, specMap := t.specMap, obs := t.obs }
        ∧ rotorOf t x = { rotorOf s x with
            grey := a, next := none, phase := 1, lane := none, removed := none, aborts := 0, since := s.now }
        ∧ (specOf t x a).lineState = 2 ∧ (ringOf t (modRing x a)).locked = false ∧ (∀ y, y ≠ x → rotorOf t y = rotorOf s y)
        ∧ Counted s t Obj.rotorSteps 1 ∧ SameObjs s t (Obj.rotorSteps :: journalObjs))
    ∧ (∀ k lane, findLane s true x a = some (k, lane) →
      (canMigrate s x a (rotorOf s x).grey k = true →
        ∃ t, exec (.rotorStep x) s = .next t ∧ t = { s with rotors := t.rotors }
          ∧ rotorOf t x = { rotorOf s x with next := some a, phase := 1, lane := none, since := s.now }
          ∧ (∀ y, y ≠ x → rotorOf t y = rotorOf s y))
      ∧ (canMigrate s x a (rotorOf s x).grey k = false → ((linkOf s k).outLanes.filter laneUp).length ≤ 1 →
        findLane s true x (nextLine s x 17 a) = none → nextLine s x 17 a < 17 →
        ∃ t, exec (.rotorStep x) s = .next t ∧ Counted s t Obj.rotorSkips 1 ∧ Counted s t Obj.rotorSteps 1
          ∧ (rotorOf t x).grey = nextLine s x 17 a ∧ t.links = s.links ∧ SameObjs s t (Obj.rotorSkips :: Obj.rotorSteps :: journalObjs))
      ∧ (canMigrate s x a (rotorOf s x).grey k = false → 1 < ((linkOf s k).outLanes.filter laneUp).length →
        ∃ t, exec (.rotorStep x) s = .next t ∧ (rotorOf t x).removed = some (k, lane.idx) ∧ (rotorOf t x).grey = a
          ∧ t = { s with out := t.out, dic := t.dic, lasers := t.lasers, rings := t.rings, rotors := t.rotors, specMap := t.specMap,
                         links := t.links, routerW := t.routerW, routerE := t.routerE, outst := t.outst, obs := t.obs }
          ∧ (∀ l ∈ (linkOf t k).outLanes, l.idx = lane.idx → l.why = 5)
          ∧ Counted s t Obj.rotorSteps 1 ∧ SameObjs s t (Obj.rotorSteps :: linkObjs))))
  ∧ (∀ (x : Nat) (s : State), x < 32 → rotorHolds s x = true → exec (.rotorStep x) s = .next s)
  ∧ (∀ (x a : Nat) (s : State), x < 32 → PartsOk s → (rotorOf s x).grey < 17 → rotorHolds s x = false → (rotorOf s x).phase = 1 →
    a = nextOf s x → (∀ k lane, findLane s true x a = some (k, lane) → canMigrate s x a (rotorOf s x).grey k = false) →
    ∃ t, exec (.rotorLineLocked x) s = .next t ∧ t = { s with rings := t.rings, rotors := t.rotors }
      ∧ rotorOf t x = { rotorOf s x with phase := 2 } ∧ (ringOf t (modRing x (rotorOf s x).grey)).locked = true
      ∧ (∀ q, q ≠ modRing x (rotorOf s x).grey → ringOf t q = ringOf s q))
  ∧ (∀ (x a k : Nat) (lane : Lane) (s : State), x < 32 → PartsOk s → (rotorOf s x).grey < 17 → rotorHolds s x = false →
    (rotorOf s x).phase = 1 → a = nextOf s x → findLane s true x a = some (k, lane) → lane.why ≠ 0 →
    canMigrate s x a (rotorOf s x).grey k = true →
    ∃ t, exec (.rotorLineLocked x) s = .next t ∧ t = { s with dic := t.dic, rings := t.rings, rotors := t.rotors, obs := t.obs }
      ∧ (rotorOf t x).phase = 0 ∧ (rotorOf t x).aborts = (rotorOf s x).aborts + 1 ∧ Counted s t Obj.rotorAborts 1
      ∧ SameObjs s t (Obj.rotorAborts :: journalObjs))
  ∧ (∀ (x : Nat) (s : State), x < 32 → (rotorOf s x).phase ≠ 1 ∨ rotorHolds s x = true → exec (.rotorLineLocked x) s = .next s)
  ∧ (∀ (x a k : Nat) (lane : Lane) (s : State), x < 32 → PartsOk s → (rotorOf s x).grey < 17 → rotorHolds s x = false →
    (rotorOf s x).phase = 1 → a = nextOf s x → findLane s true x a = some (k, lane) → lane.why = 0 →
    canMigrate s x a (rotorOf s x).grey k = true → CanSend s k (.propose lane.idx a (rotorOf s x).grey) →
    ∃ t, exec (.rotorLineLocked x) s = .next t ∧ t = { s with dic := t.dic, rings := t.rings, rotors := t.rotors, links := t.links }
      ∧ rotorOf t x = { rotorOf s x with next := some a, phase := 3, lane := some (k, lane.idx), proposed := s.now }
      ∧ Given t k (.propose lane.idx a (rotorOf s x).grey) ∧ SameObjs s t [Obj.retryWindowStalls]
      ∧ (∀ y, y ≠ x → rotorOf t y = rotorOf s y) ∧ (∀ i, i ≠ k → linkOf t i = linkOf s i))
  ∧ (∀ (x : Nat) (s : State), x < 32 → (rotorOf s x).phase = 3 → (rotorOf s x).proposed + us 50 ≤ s.now →
    ∃ t, exec (.rotorAcceptTimeout x) s = .next t
      ∧ t = { s with dic := t.dic, rotors := t.rotors, links := t.links, obs := t.obs }
      ∧ (∀ k i, (rotorOf s x).lane = some (k, i) → k < s.links.length → CanSend s k (.rotorAbort { own := true, idx := i }) →
          Given t k (.rotorAbort { own := true, idx := i }))
      ∧ (rotorOf t x).phase = 0 ∧ (rotorOf t x).lane = none ∧ (rotorOf t x).grey = (rotorOf s x).grey
      ∧ (rotorOf t x).aborts = (rotorOf s x).aborts + 1 ∧ (rotorOf t x).held = ((rotorOf s x).held || decide (7 ≤ (rotorOf s x).aborts))
      ∧ Counted s t Obj.rotorAborts 1 ∧ SameObjs s t (Obj.rotorAborts :: Obj.retryWindowStalls :: journalObjs))
  ∧ (∀ (k j m : Nat) (s : State), k < 32 → PartsOk s → j < 17 →
    ∃ t, exec (.idleDropSweep k m) s = .next t ∧ t = { s with rings := t.rings, sweptAt := s.sweptAt.set k s.now }
      ∧ (findLane s false k j = none → ringRetired s (dropRing k j) = false → (ringOf t (dropRing k j)).locked = natBit j m)
      ∧ ((findLane s false k j).isSome = true ∨ ringRetired s (dropRing k j) = true → ringOf t (dropRing k j) = ringOf s (dropRing k j))
      ∧ (∀ q, q < dropRing k 0 ∨ dropRing k 16 < q → ringOf t q = ringOf s q))

/-- BEACON_SEND, BEACON_RECEIVE and MAP_ENTRY_EXPIRE (R225, R245 to R248): an unlit line with light sends one beacon frame,
whose reports are then sent, and whose ring is parked first on the grey line; a beacon of another chip is kept with its
version and its place for the next report, one that fails its check changes nothing, and one of this module's own is an alert;
a report of this module's line fills the line's entry; an entry of an unlit line whose report is more than 200 ms old is no
longer valid. Lines on demand (R226, R227): an accepted LaneDemand image is the list in force; a line that can be lit towards
the first peer whose demand is unmet asks for it and is being reassigned; a peer's request is granted, or refused with nothing
else changed; a granted line whose training passes is no longer being reassigned and is counted, and a refused one is free
again. -/
def Obligations.BeaconsAndLinesOnDemand : Prop :=
  (∀ (x j : Nat) (s : State), x < 32 → j < 17 → PartsOk s → isLit (specOf s x j) = false → (specOf s x j).lineState ≠ 5 →
    (laserAt s (laserOf x)).dark = false → x ∉ s.tapped → fibreUp s x = true →
    ∃ t, exec (.beaconSend x j) s = .next t
      ∧ t = { s with out := s.out ++ [.beacon x j (beaconWords s x j (beaconReports s x j))], dic := t.dic, heard := t.heard,
                     lasers := t.lasers, rings := t.rings, obs := t.obs }
      ∧ (∀ r ∈ beaconReports s x j, ∀ e ∈ t.heard, r ∉ e.2)
      ∧ ((rotorOf s x).grey = j ∧ (rotorOf s x).phase = 1 → (ringOf t (modRing x j)).parked = true ∧ (ringOf t (modRing x j)).locked = false
          ∧ SameObjs s t journalObjs ∧ ∀ q, q ≠ modRing x j → ringOf t q = ringOf s q)
      ∧ ((rotorOf s x).grey ≠ j ∨ (rotorOf s x).phase ≠ 1 → t.rings = s.rings ∧ t.lasers = s.lasers ∧ t.dic = s.dic ∧ t.obs = s.obs))
  ∧ (∀ (x j : Nat) (s : State), x < 32 → j < 17 →
    (isLit (specOf s x j) = true ∨ (specOf s x j).lineState = 5 ∨ (laserAt s (laserOf x)).dark = true ∨ x ∈ s.tapped
      ∨ fibreUp s x = false) → exec (.beaconSend x j) s = .next s)
  ∧ (∀ (k j : Nat) (b : Beacon) (s : State), k < 32 → j < 17 → b.crcOk = false ∨ fibreUp s k = false →
    exec (.beaconReceive k j b) s = .next s)
  ∧ (∀ (k j : Nat) (b : Beacon) (s : State), k < 32 → j < 17 → PartsOk s → b.crcOk = true → fibreUp s k = true → b.chip = chip s →
    ∃ t, exec (.beaconReceive k j b) s = .next t ∧ Counted s t Obj.alertPending 1 ∧ t.heard = s.heard ∧ t.inPeer = s.inPeer
      ∧ SameObjs s t (Obj.alertPending :: linkObjs))
  ∧ (∀ (k j : Nat) (b : Beacon) (s : State), k < 32 → j < 17 → PartsOk s → b.crcOk = true → fibreUp s k = true → b.chip ≠ chip s →
    ∃ t, exec (.beaconReceive k j b) s = .next t ∧ t.inPeer = smSet s.inPeer (17 * k + j) (b.chip, b.outFibre)
      ∧ t.peerVer = smSet s.peerVer b.chip b.versionMax
      ∧ { chip := b.chip, outFibre := b.outFibre, line := b.line, inFibre := k } ∈ smGetD t.heard b.chip []
      ∧ (b.reports = [] → b.versionMax ≠ 1 → t.specMap = s.specMap ∧ t.rings = s.rings)
      ∧ (∀ r, b.reports = [r] → b.versionMax ≠ 1 → r.chip = chip s → r.outFibre < 32 → r.line < 17 →
          (specOf t r.outFibre r.line).chip = b.chip ∧ (specOf t r.outFibre r.line).inFibre = r.inFibre
          ∧ (specOf t r.outFibre r.line).valid = true ∧ (specOf t r.outFibre r.line).reported = s.now)
      ∧ t.lpddr = s.lpddr ∧ t.queues = s.queues ∧ SameObjs s t ([Obj.alertPending, Obj.mapMismatches] ++ linkObjs))
  ∧ (∀ (x j : Nat) (s : State), x < 32 → j < 17 → PartsOk s →
    ∃ t, exec (.mapEntryExpire x j) s = .next t ∧ t = { s with specMap := t.specMap }
      ∧ ((specOf s x j).valid = true → isLit (specOf s x j) = false → (specOf s x j).reported + ms 200 < s.now →
          specOf t x j = { specOf s x j with valid := false })
      ∧ (isLit (specOf s x j) = true ∨ s.now ≤ (specOf s x j).reported + ms 200 → t = s)
      ∧ (∀ y i, i < 17 → (y, i) ≠ (x, j) → specOf t y i = specOf s y i))
  ∧ (∀ (r : Route) (handle : Nat) (digest : Bytes) (s : State) (x : Xfer) (role : Role) (row : ObjRow) (s0 : State), CommitReady s r false Obj.laneDemand handle digest x role row s0 → x.size % 8 = 0 →
    (∀ d ∈ demandsOf (x.size / 8) (xferImage x), d.lanes ≤ 128) →
    ∃ u, exec (.laneDemandCommit r handle digest) s = .next (answered s r (heldKey s r) ⟨u, 0, []⟩)
      ∧ u.demand = demandsOf (x.size / 8) (xferImage x)
      ∧ u = { imageIn s0 r role row x with
                out := u.out, dic := u.dic, lasers := u.lasers, rings := u.rings, specMap := u.specMap, demand := u.demand,
                links := u.links, routerW := u.routerW, routerE := u.routerE, outst := u.outst, obs := u.obs })
  ∧ (∀ (x j c : Nat) (s : State), x < 32 → j < 17 → PartsOk s → servedFirst s = some c → (specOf s x j).chip = c →
    lightable s x j = true →
    ∃ t, exec (.lineRequestSend x j) s = .next t
      ∧ t = { s with out := s.out ++ [.lineRequest c x j (specOf s x j).inFibre], specMap := t.specMap, reassign := smSet s.reassign x j,
                     backDue := s.backDue.erase c }
      ∧ specOf t x j = { specOf s x j with lineState := 4 } ∧ (∀ y i, i < 17 → (y, i) ≠ (x, j) → specOf t y i = specOf s y i))
  ∧ (∀ (c x j k : Nat) (s : State), k < 32 → j < 17 → c ≠ chip s → inFree s c k j = true → lanesComing s c < 128 →
    ((linkTo s c).isSome = true ∨ (freeLink s).isSome = true
        ∧ s.specMap.any (fun e => e.chip == c && (isLit e || e.lineState == 4)) = true → c ∉ s.backDue →
      exec (.lineRequest c x j k) s = .next { s with
        out := s.out ++ [.lineGrant c x j], inGrant := s.inGrant ++ [17 * k + j], inPeer := smSet s.inPeer (17 * k + j) (c, x) })
    ∧ (linkTo s c = none → (freeLink s).isSome = true → c ∉ s.backDue →
      s.specMap.any (fun e => e.chip == c && (isLit e || e.lineState == 4)) = false →
      s.specMap.any (fun e => e.valid && e.chip == c && e.lineState != 5) = true →
      (candidatesTo s c = [] →
        exec (.lineRequest c x j k) s = .next { s with
          out := s.out ++ [.lineGrant c x j], inGrant := s.inGrant ++ [17 * k + j], inPeer := smSet s.inPeer (17 * k + j) (c, x)
          backDue := s.backDue ++ [c] })
      ∧ (∀ y i rest, candidatesTo s c = (y, i) :: rest →
        ∃ t, exec (.lineRequest c x j k) s = .next t
          ∧ t = { s with
              out := s.out ++ [.lineGrant c x j, .lineRequest c y i (specOf s y i).inFibre], inGrant := s.inGrant ++ [17 * k + j]
              inPeer := smSet s.inPeer (17 * k + j) (c, x), specMap := t.specMap, reassign := smSet s.reassign y i })))
  ∧ (∀ (c x j k : Nat) (s : State), k < 32 → j < 17 →
    (c = chip s ∨ 128 ≤ lanesComing s c ∨ inFree s c k j = false ∨ linkTo s c = none ∧ freeLink s = none
      ∨ linkTo s c = none ∧ s.specMap.any (fun e => e.chip == c && (isLit e || e.lineState == 4)) = false
          ∧ s.specMap.any (fun e => e.valid && e.chip == c && e.lineState != 5) = false) →
    exec (.lineRequest c x j k) s = .next { s with out := s.out ++ [.lineRefuse c x j] })
  ∧ (∀ (x j c : Nat) (r : TrainResult) (s : State), x < 32 → j < 17 → PartsOk s → smGet s.reassign x = some j →
    (verdict s true x j r = .admitted → peerOn s true x j = some c → c ≠ chip s →
      (∀ k, linkTo s c = some k → (linkOf s k).outLanes.length < 128) → (linkTo s c = none → (freeLink s).isSome = true) →
      ∃ t, exec (.lineGrant x j r) s = .next t ∧ smGet t.reassign x = none ∧ Counted s t Obj.reassignments 1
        ∧ .training x j (outTag s x j) ∈ t.out ∧ (ringOf t (modRing x j)).sweep = 0
        ∧ (∀ y, y ≠ x → smGet t.reassign y = smGet s.reassign y) ∧ SameObjs s t (Obj.reassignments :: linkObjs)
        ∧ t.skewHold = s.skewHold ∧ t.recovery = s.recovery)
    ∧ (verdict s true x j r = .skewed →
      ∃ t, exec (.lineGrant x j r) s = .next t ∧ smGet t.reassign x = none
        ∧ smGet t.skewHold (modRing x j) = some (s.now + ms 1000) ∧ SameObjs s t linkObjs)
    ∧ (verdict s true x j r = .failed → findLane s true x j = none → modRing x j ∉ s.trainFails →
      exec (.lineGrant x j r) s = .next { s with
        out := s.out ++ [.training x j (outTag s x j)], trainFails := s.trainFails ++ [modRing x j] }))
  ∧ (∀ (x j : Nat) (s : State), x < 32 → j < 17 → PartsOk s → smGet s.reassign x = some j →
    ∃ t, exec (.lineRefuse x j) s = .next t
      ∧ t = { s with dic := t.dic, specMap := t.specMap, reassign := smErase s.reassign x, backDue := t.backDue }
      ∧ specOf t x j = { specOf s x j with lineState := 0 } ∧ Counted s t Obj.reassignRefusals 1
      ∧ SameObjs s t [Obj.reassignRefusals] ∧ (∀ y i, i < 17 → (y, i) ≠ (x, j) → specOf t y i = specOf s y i))
  ∧ (∀ (x j : Nat) (r : TrainResult) (s : State), x < 32 → j < 17 → smGet s.reassign x ≠ some j →
    exec (.lineGrant x j r) s = .next s ∧ exec (.lineRefuse x j) s = .next s)
  ∧ (∀ (x j : Nat) (s : State), x < 32 → j < 17 → servedFirst s = none ∨ lightable s x j = false →
    exec (.lineRequestSend x j) s = .next s)

/-- FLIT_RECEIVE on an in-lane in service (R217, R231, R233, R234, R238, R254): a flit that fails CRC or FEC is not delivered
and its FlitSeq is asked for again; one that came before is counted and dropped; an idle flit and any flit in order release
the flits that its header acknowledges and the credits that it returns; of the next flit in order a packet of VC1 to VC9 on a
Grey link is dropped and counted and its credits are owed back, and any other goes to the router of the half that received it.
A flit with another LaneTag is not delivered, is counted, and its lane goes out of service into recovery. The first flit with
the new Phase on the line to which a lane was accepted moves the lane. On a line without a lane only its codewords are
counted. FLIT_RESEND_TIMEOUT (R238): a kept flit not acknowledged for the round trip plus 1 µs is queued to be sent again, at
most 16 times in all, and counted. Other flits change nothing but the request for a flit that is missing here. -/
def Obligations.FlitsDeliveredOrResent : Prop :=
  (∀ (x j k : Nat) (lane : Lane) (f : Flit) (s : State), x < 32 → j < 17 → PartsOk s → findLane s false x j = some (k, lane) →
    (linkOf s k).nego ≠ 0 → lane.why = 0 → f.crcOk = false ∨ codewordBad (ringOf s (dropRing x j)) f.uncorrectable = true →
    ∃ t, exec (.flitReceive x j f) s = .next t ∧ t = { s with rings := t.rings, links := t.links, wires := t.wires } ∧ FlitSeen s t x j f
      ∧ linkOf t k = { linkOf s k with
          inLanes := lanesNoted s k lane.idx f, nak := some f.flitSeq, asked := some (f.flitSeq, s.now) }
      ∧ (∀ i, i ≠ k → linkOf t i = linkOf s i))
  ∧ (∀ (x j k : Nat) (lane : Lane) (f : Flit) (s : State), x < 32 → j < 17 → PartsOk s → findLane s false x j = some (k, lane) →
    (linkOf s k).nego ≠ 0 → lane.why = 0 → lane.moveTo = none → f.crcOk = true →
    codewordBad (ringOf s (dropRing x j)) f.uncorrectable = false → lane.tag = some f.tag → f.body ≠ .idle → f.body ≠ .training →
    reforming s k f = false →
    flitBefore f.flitSeq (linkOf s k).rxNext = true ∨ (smGet (linkOf s k).rxHeld f.flitSeq).isSome = true →
    ∃ t, exec (.flitReceive x j f) s = .next t
      ∧ t = { s with dic := t.dic, rings := t.rings, links := t.links, wires := t.wires } ∧ FlitSeen s t x j f
      ∧ linkOf t k = { linkOf s k with inLanes := lanesNoted s k lane.idx f } ∧ Counted s t Obj.flitDuplicates 1
      ∧ (∀ i, i ≠ k → linkOf t i = linkOf s i) ∧ SameObjs s t [Obj.flitDuplicates])
  ∧ (∀ (x j k : Nat) (lane : Lane) (f : Flit) (s : State), x < 32 → j < 17 → PartsOk s → findLane s false x j = some (k, lane) →
    (linkOf s k).nego ≠ 0 → lane.why = 0 → lane.moveTo = none → f.crcOk = true →
    codewordBad (ringOf s (dropRing x j)) f.uncorrectable = false → lane.tag = some f.tag → f.nak = none →
    (linkOf s k).waitCtl = [] → (linkOf s k).occ.length = 10 → f.creditVC < 10 →
    (f.body = .idle →
      ∃ t, exec (.flitReceive x j f) s = .next t ∧ t = { s with rings := t.rings, links := t.links, wires := t.wires }
        ∧ FlitSeen s t x j f ∧ (linkOf t k).rxNext = (linkOf s k).rxNext ∧ (linkOf t k).lastRx = s.now
        ∧ (linkOf t k).unacked = (linkOf s k).unacked.filter (fun (u : Unacked) => !flitBefore u.seq f.ackSeq)
        ∧ (∀ vc, (linkOf t k).occ.getD vc 0 = (linkOf s k).occ.getD vc 0 - (if vc = f.creditVC then f.creditCount else 0))
        ∧ (∀ i, i ≠ k → linkOf t i = linkOf s i))
    ∧ (∀ p : Packet, f.body = .packets [p] → f.flitSeq = (linkOf s k).rxNext → (linkOf s k).rxHeld = [] →
      (linkOf s k).rxNext < 2 ^ 20 → (∀ l ∈ (linkOf s k).inLanes, l.leaveAt = none) →
      (linkState s k = 2 → p.vc ≠ 0 →
        ∃ t, exec (.flitReceive x j f) s = .next t
          ∧ t = { s with dic := t.dic, rings := t.rings, links := t.links, wires := t.wires } ∧ FlitSeen s t x j f
          ∧ (linkOf t k).rxNext = ((linkOf s k).rxNext + 1) % 2 ^ 20 ∧ (linkOf t k).rxHeld = []
          ∧ (linkOf t k).owe = (linkOf s k).owe.modify p.vc (· + creditsOf p)
          ∧ Counted s t Obj.greyDrops 1 ∧ SameObjs s t [Obj.greyDrops] ∧ (∀ i, i ≠ k → linkOf t i = linkOf s i))
      ∧ (linkState s k = 3 → p.vc ≠ 0 →
        ∃ t, exec (.flitReceive x j f) s = .next t
          ∧ t = { s with rings := t.rings, links := t.links, wires := t.wires } ∧ FlitSeen s t x j f
          ∧ (linkOf t k).rxNext = ((linkOf s k).rxNext + 1) % 2 ^ 20
          ∧ (linkOf t k).owe = (linkOf s k).owe.modify p.vc (· + creditsOf p) ∧ (∀ i, i ≠ k → linkOf t i = linkOf s i))
      ∧ (linkState s k ≠ 2 ∨ p.vc = 0 → linkState s k ≠ 3 → (linkOf s k).version ≠ 1 →
        ∃ t, exec (.flitReceive x j f) s = .next t
          ∧ t = { s with dic := t.dic, rings := t.rings, links := t.links, routerW := t.routerW, routerE := t.routerE, wires := t.wires }
          ∧ FlitSeen s t x j f ∧ (linkOf t k).rxNext = ((linkOf s k).rxNext + 1) % 2 ^ 20
          ∧ (linkOf t k).unacked = (linkOf s k).unacked.filter (fun (u : Unacked) => !flitBefore u.seq f.ackSeq)
          ∧ (routerOf t (halfOf32 x)).held = (routerOf s (halfOf32 x)).held
              ++ [{ id := (routerOf s (halfOf32 x)).nextId, p := p, from_ := some k, since := s.now, copies := none }]
          ∧ routerOf t (otherHalf (halfOf32 x)) = routerOf s (otherHalf (halfOf32 x))
          ∧ SameObjs s t [Obj.drainDirty] ∧ (∀ i, i ≠ k → linkOf t i = linkOf s i))))
  ∧ (∀ (x j k : Nat) (lane : Lane) (f : Flit) (s : State), x < 32 → j < 17 → PartsOk s →
    findLane s false x j = some (k, lane) → (linkOf s k).nego ≠ 0 → lane.why = 0 → lane.moveTo = none → f.crcOk = true →
    codewordBad (ringOf s (dropRing x j)) f.uncorrectable = false → lane.tag ≠ some f.tag →
    ∃ t, exec (.flitReceive x j f) s = .next t
      ∧ t = { s with dic := t.dic, rings := t.rings, recovery := t.recovery, links := t.links, routerW := t.routerW,
                     routerE := t.routerE, outst := t.outst, obs := t.obs, wires := t.wires } ∧ FlitSeen s t x j f
      ∧ (linkOf t k).rxNext = (linkOf s k).rxNext ∧ (∀ l ∈ (linkOf t k).inLanes, l.idx = lane.idx → l.why = 2)
      ∧ (∃ y ∈ t.recovery, y.ring = dropRing x lane.line) ∧ (ringOf t (dropRing x lane.line)).sweep = 1
      ∧ (CanSend s k (.laneDown { own := false, idx := lane.idx } 2) → linkState t k ≠ 3 →
          Given t k (.laneDown { own := false, idx := lane.idx } 2))
      ∧ Counted s t Obj.wrongLineEvents 1 ∧ SameObjs s t (Obj.wrongLineEvents :: linkObjs))
  ∧ (∀ (x j k : Nat) (lane : Lane) (g : LaneTag) (f : Flit) (s : State), x < 32 → j < 17 → PartsOk s →
    findLane s false x j = none → movingTo s x j = some (k, lane) → (linkOf s k).nego ≠ 0 → lane.why = 0 → f.crcOk = true →
    codewordBad (ringOf s (dropRing x j)) f.uncorrectable = false → f.phase ≠ lane.phase → lane.tag = some g →
    f.tag = { g with line := j } → f.body = .idle → f.nak = none → (linkOf s k).waitCtl = [] →
    ∃ t, exec (.flitReceive x j f) s = .next t ∧ t = { s with rings := t.rings, links := t.links, wires := t.wires }
      ∧ FlitSeen s t x j f
      ∧ (∀ l ∈ (linkOf t k).inLanes, l.idx = lane.idx → l.line = j ∧ l.phase = f.phase ∧ l.moveTo = none ∧ l.tag = some f.tag)
      ∧ (∀ i, i ≠ k → linkOf t i = linkOf s i))
  ∧ (∀ (x j : Nat) (f : Flit) (s : State), x < 32 → j < 17 → PartsOk s → findLane s false x j = none → movingTo s x j = none →
    ∃ t, exec (.flitReceive x j f) s = .next t ∧ t = { s with rings := t.rings, wires := t.wires } ∧ FlitSeen s t x j f)
  ∧ (∀ (k q : Nat) (s : State), k < 64 → PartsOk s → (linkOf s k).nego ≠ 0 →
    (linkOf s k).unacked.any (fun (u : Unacked) => u.seq == q && ackLate s k u) = true →
    (∀ u ∈ (linkOf s k).unacked, u.seq = q → u.sends < 16 ∧ (laneFor (linkOf s k) u.body).isSome = true) →
    ∃ t, exec (.flitResendTimeout k q) s = .next t ∧ t = { s with dic := t.dic, links := t.links }
      ∧ (linkOf t k).unacked = (linkOf s k).unacked.map (fun (u : Unacked) =>
          if u.seq = q then { u with sends := u.sends + 1, at_ := s.now } else u)
      ∧ (∃ a ∈ (linkOf t k).outLanes, q ∈ a.q ∧ a.why = 0)
      ∧ linkOf t k = { linkOf s k with
          unacked := (linkOf t k).unacked, nak := (linkOf t k).nak, asked := (linkOf t k).asked, outLanes := (linkOf t k).outLanes }
      ∧ (linkOf t k).outLanes.map (fun (a : Lane) => { a with q := [] }) = (linkOf s k).outLanes.map (fun (a : Lane) => { a with q := [] })
      ∧ (∀ i, i ≠ k → linkOf t i = linkOf s i) ∧ Counted s t Obj.flitRetries 1 ∧ SameObjs s t [Obj.flitRetries])
  ∧ (∀ (k q : Nat) (s : State), k < 64 →
    (linkOf s k).nego = 0 ∨ (linkOf s k).unacked.any (fun (u : Unacked) => u.seq == q && ackLate s k u) = false →
    ∃ t, exec (.flitResendTimeout k q) s = .next t ∧ t = { s with links := t.links }
      ∧ ∀ i, linkOf t i = { linkOf s i with nak := (linkOf t i).nak, asked := (linkOf t i).asked })

/-- FLIT_RETRY_LIMIT: R240. A flit sent 16 times without acknowledgement makes its link Dark: every flit it still owes is handed back,
counted, and the transition is counted and journalled; a flit sent fewer times, or acknowledged, changes nothing. -/
def Obligations.FlitRetryLimitDarkensTheLink : Prop :=
  (∀ (k q : Nat) (s : State), k < 64 → PartsOk s → (linkOf s k).nego ≠ 0 →
    (linkOf s k).unacked.any (fun (u : Unacked) => u.seq == q && decide (16 ≤ u.sends)) = true →
    ∃ t, exec (.flitRetryLimit k q) s = .next t
      ∧ t = { s with dic := t.dic, links := t.links, routerW := t.routerW, routerE := t.routerE, outst := t.outst, obs := t.obs }
      ∧ linkState t k = 3 ∧ (linkOf t k).unacked = [] ∧ (linkOf t k).nego = 0 ∧ (linkOf t k).darkSince = some s.now
      ∧ (linkOf t k).waitCtl = [] ∧ (linkOf t k).outLanes = (linkOf s k).outLanes.map (fun (a : Lane) => { a with q := [] })
      ∧ (linkOf t k).inLanes.map Lane.idx = (linkOf s k).inLanes.map Lane.idx
      ∧ (∀ i, i ≠ k → linkOf t i = linkOf s i) ∧ Counted s t Obj.linkDarkEvents 1
      ∧ Counted s t Obj.resentFlits (linkOf s k).unacked.length
      ∧ SameObjs s t ([Obj.linkState + k, Obj.linkDarkEvents, Obj.drainDirty, Obj.resentFlits] ++ journalObjs)
      ∧ Logged s t .linkDark [k, (linkOf s k).peer, 2] false)
  ∧ (∀ (k q : Nat) (s : State), k < 64 →
    (linkOf s k).nego = 0 ∨ (linkOf s k).unacked.any (fun (u : Unacked) => u.seq == q && decide (16 ≤ u.sends)) = false →
    exec (.flitRetryLimit k q) s = .next s)

/-- LINK_REFORM and LINK_REMOVE (R243, R246): a Dark link that has held its minima for 1 ms starts to negotiate anew, with its
flit numbers and buffers cleared and Capability as its first flit; one with no lane in service for LinkRemoveMs is removed,
its lines are dark, its ID is free, and a demand must light the next lane to its peer. LANE_ERROR_REMOVAL (R244): a lane in
service whose errors have passed a threshold leaves it, is counted, and the other end is told; a lane below the thresholds
stays. LANE_TRAINING_DONE and LANE_SKEW_HOLD_END (R229, R230, R236, R237): a lane out of service whose training is admitted is
back in service, an in-lane of a formed link once LaneJoin has come, with the measured round trip kept; a new lane joins the
link to its peer, or the first one towards a peer binds the lowest free link, and an in-lane waits where there is none; a line
skewed by more than 512 ns is journalled and held for 1 s; another failure is tried once more, and then its ring is swept
again. The hold ends when it is over, not before. -/
def Obligations.LinksAndLanesBroughtUp : Prop :=
  (∀ (k d c : Nat) (s : State), k < 64 → PartsOk s → (linkOf s k).bound = true → (linkOf s k).darkSince = some d →
    (linkOf s k).okSince = some c → c + ms 1 ≤ s.now → atMinimum s (linkOf s k) = true → (linkOf s k).inLanes ≠ [] →
    (∃ l ∈ (linkOf s k).outLanes, l.why = 0) →
    ∃ t, exec (.linkReform k) s = .next t
      ∧ t = { s with dic := t.dic, links := t.links, routerW := t.routerW, routerE := t.routerE }
      ∧ (linkOf t k).darkSince = none ∧ (linkOf t k).rxNext = 0 ∧ (linkOf t k).rxHeld = [] ∧ (linkOf t k).nak = none
      ∧ (linkOf t k).nego = 1 ∧ linkState t k = 3 ∧ (linkOf t k).txSeq = 1 ∧ (linkOf t k).waitCtl = []
      ∧ (linkOf t k).unacked = [{ seq := 0, sends := 1, born := s.now, at_ := s.now
                                  body := .control (.capability (linkOf s k).version (capsOf (linkOf s k).version) Config.epochProto) }]
      ∧ (linkOf t k).outLanes.map (fun (a : Lane) => { a with q := [], told := true })
          = (linkOf s k).outLanes.map (fun (a : Lane) => { a with q := [], told := true })
      ∧ (∀ i, i ≠ k → linkOf t i = linkOf s i) ∧ SameObjs s t [Obj.linkState + k]
      ∧ (∀ h, (routerOf t h).held.map Held.p = (routerOf s h).held.map Held.p))
  ∧ (∀ (k : Nat) (s : State), k < 64 → (linkOf s k).darkSince = none ∨ (linkOf s k).okSince = none
        ∨ atMinimum s (linkOf s k) = false → exec (.linkReform k) s = .next s)
  ∧ (∀ (k d c : Nat) (s : State), k < 64 → PartsOk s → (linkOf s k).bound = true → (linkOf s k).darkSince = some d →
    (linkOf s k).noneSince = some c → c + ms (objGet s Obj.linkRemoveMs) ≤ s.now →
    ∃ t, exec (.linkRemove k) s = .next t
      ∧ t = { s with dic := t.dic, lasers := t.lasers, rings := t.rings, specMap := t.specMap, links := t.links,
                     needDemand := t.needDemand, obs := t.obs }
      ∧ linkOf t k = { tx := (linkOf s k).tx, rx := (linkOf s k).rx, recEpoch := (linkOf s k).recEpoch,
                       recCount := (linkOf s k).recCount }
      ∧ (∀ l ∈ (linkOf s k).outLanes, (specOf t l.fibre l.line).lineState = 0 ∧ (specOf t l.fibre l.line).link = 0)
      ∧ (linkOf s k).peer ∈ t.needDemand ∧ (∀ c, c ≠ (linkOf s k).peer → (c ∈ t.needDemand ↔ c ∈ s.needDemand))
      ∧ (∀ i, i ≠ k → linkOf t i = linkOf s i) ∧ linkState t k = 4 ∧ objGet t (Obj.linkRttNs + k) = 0
      ∧ SameObjs s t ([Obj.linkRttNs + k, Obj.linkState + k] ++ journalObjs))
  ∧ (∀ (k : Nat) (s : State), k < 64 → (linkOf s k).darkSince = none ∨ (linkOf s k).noneSince = none →
    exec (.linkRemove k) s = .next s)
  ∧ (∀ (k i : Nat) (lane : Lane) (s : State), k < 64 → i < 128 → PartsOk s → laneBy s k false i = some lane → lane.why = 0 →
    (tooManyErrors lane = true →
      ∃ t, exec (.laneErrorRemoval k i) s = .next t
        ∧ t = { s with dic := t.dic, links := t.links, routerW := t.routerW, routerE := t.routerE, outst := t.outst, obs := t.obs }
        ∧ (∀ l ∈ (linkOf t k).inLanes, l.idx = i → l.why = 4)
        ∧ (linkOf t k).outLanes.map (fun (a : Lane) => { a with q := [] })
            = (linkOf s k).outLanes.map (fun (a : Lane) => { a with q := [] })
        ∧ (CanSend s k (.laneDown { own := false, idx := i } 4) → linkState t k ≠ 3 →
            Given t k (.laneDown { own := false, idx := i } 4))
        ∧ (∀ n, n ≠ k → linkOf t n = linkOf s n) ∧ Counted s t Obj.laneErrorRemovals 1
        ∧ SameObjs s t ([Obj.laneErrorRemovals, Obj.linkState + k, Obj.linkDarkEvents, Obj.drainDirty, Obj.resentFlits,
            Obj.retryWindowStalls] ++ journalObjs))
    ∧ (tooManyErrors lane = false → exec (.laneErrorRemoval k i) s = .next s))
  ∧ (∀ (k i : Nat) (s : State), k < 64 → i < 128 → (∀ lane, laneBy s k false i = some lane → lane.why ≠ 0) →
    exec (.laneErrorRemoval k i) s = .next s)
  ∧ (∀ (o : Bool) (x j k : Nat) (lane : Lane) (r : TrainResult) (s : State), x < 32 → j < 17 → PartsOk s →
    findLane s o x j = some (k, lane) → retrains o lane = true → smGet s.skewHold (ringAt o x j) = none →
    s.recovery.any (fun (y : Recovery) => y.ring == ringAt o x j) = false →
    (verdict s o x j r = .admitted →
      ∃ t, exec (.laneTrainingDone o x j r) s = .next t
        ∧ t = { s with out := t.out, dic := t.dic, rings := t.rings, trainFails := t.trainFails, specMap := t.specMap, links := t.links,
                       routerW := t.routerW, routerE := t.routerE, outst := t.outst, obs := t.obs }
        ∧ (o = true → .training x j (outTag s x j) ∈ t.out
            ∧ (∀ l ∈ (linkOf t k).outLanes, l.idx = lane.idx → l.why = 0 ∧ l.tries = 0)
            ∧ ((linkOf s k).nego = 3 → CanSend s k (.laneJoin lane.idx (linkOf s k).txSeq) → linkState t k ≠ 3 →
                Given t k (.laneJoin lane.idx (linkOf s k).txSeq)))
        ∧ (o = false →
            ((linkOf s k).nego = 3 → lane.joinAt = none →
              (linkOf t k).inLanes = (linkOf s k).inLanes.map (fun (l : Lane) =>
                if l.idx = lane.idx then { l with ready := true, tries := 0 } else l))
            ∧ ((linkOf s k).nego ≠ 3 ∨ lane.joinAt ≠ none → ∀ l ∈ (linkOf t k).inLanes, l.idx = lane.idx → l.why = 0))
        ∧ (ringOf t (ringAt o x j)).locked = true ∧ (∀ q, q ≠ ringAt o x j → ringOf t q = ringOf s q)
        ∧ objGet t (Obj.linkRttNs + k) = r.rttNs ∧ (∀ n, n ≠ k → linkOf t n = linkOf s n)
        ∧ SameObjs s t ([Obj.linkRttNs + k, Obj.linkState + k, Obj.linkDarkEvents, Obj.drainDirty, Obj.resentFlits,
            Obj.retryWindowStalls] ++ journalObjs))
    ∧ (verdict s o x j r = .skewed →
      ∃ t, exec (.laneTrainingDone o x j r) s = .next t ∧ smGet t.skewHold (ringAt o x j) = some (s.now + ms 1000)
        ∧ SameObjs s t linkObjs)
    ∧ (verdict s o x j r = .failed → lane.tries = 0 →
      ∃ t, exec (.laneTrainingDone o x j r) s = .next t ∧ t = { s with out := t.out, dic := t.dic, links := t.links }
        ∧ (∀ l ∈ (if o then (linkOf t k).outLanes else (linkOf t k).inLanes), l.idx = lane.idx → l.tries = 1)
        ∧ (∀ n, n ≠ k → linkOf t n = linkOf s n) ∧ SameObjs s t [Obj.wrongLineEvents])
    ∧ (verdict s o x j r = .failed → lane.tries ≠ 0 →
      ∃ t, exec (.laneTrainingDone o x j r) s = .next t
        ∧ t = { s with out := t.out, dic := t.dic, lasers := t.lasers, rings := t.rings, recovery := t.recovery, links := t.links
                       obs := t.obs }
        ∧ (∃ y ∈ t.recovery, y.ring = ringAt o x j) ∧ (ringOf t (ringAt o x j)).sweep = 1
        ∧ (∀ n, n ≠ k → linkOf t n = linkOf s n) ∧ SameObjs s t (Obj.wrongLineEvents :: journalObjs)))
  ∧ (∀ (o : Bool) (x j k : Nat) (lane : Lane) (r : TrainResult) (s : State), x < 32 → j < 17 →
    findLane s o x j = some (k, lane) → retrains o lane = false → exec (.laneTrainingDone o x j r) s = .next s)
  ∧ (∀ (x j c : Nat) (r : TrainResult) (s : State), x < 32 → j < 17 → PartsOk s → findLane s true x j = none →
    directOut s x j = true → peerOn s true x j = some c → c ≠ chip s → smGet s.skewHold (modRing x j) = none →
    s.recovery.any (fun (y : Recovery) => y.ring == modRing x j) = false → (∀ d ∈ s.demand, d.chip ≠ c) →
    (∀ k, verdict s true x j r = .admitted → linkTo s c = some k → (linkOf s k).outLanes.length < 128 →
      ∃ t, exec (.laneTrainingDone true x j r) s = .next t
        ∧ (linkOf t k).outLanes.map Lane.idx = (linkOf s k).outLanes.map Lane.idx ++ [freeIdx (linkOf s k).outLanes]
        ∧ (∃ l ∈ (linkOf t k).outLanes, l.fibre = x ∧ l.line = j ∧ l.idx = freeIdx (linkOf s k).outLanes ∧ l.why = 0)
        ∧ (specOf t x j).lineState = 1 ∧ (specOf t x j).link = k ∧ (ringOf t (modRing x j)).locked = true
        ∧ objGet t (Obj.linkRttNs + k) = r.rttNs ∧ (∀ n, n ≠ k → linkOf t n = linkOf s n) ∧ t.lpddr = s.lpddr ∧ t.queues = s.queues)
    ∧ (∀ k, verdict s true x j r = .admitted → linkTo s c = none → freeLink s = some k →
      ∃ t, exec (.laneTrainingDone true x j r) s = .next t
        ∧ (linkOf t k).bound = true ∧ (linkOf t k).peer = c ∧ (∀ i, i < k → (linkOf s i).bound = true)
        ∧ (∃ l, (linkOf t k).outLanes = [l] ∧ l.fibre = x ∧ l.line = j ∧ l.idx = 0 ∧ l.why = 0)
        ∧ (linkOf t k).inLanes.map Lane.idx = (s.strayIn.filter (fun e => e.1 == c)).map (fun e => e.2.idx)
        ∧ (s.strayIn.all (fun e => e.1 != c) = true → linkState t k = 4 ∧ (linkOf t k).nego = 0)
        ∧ (s.strayIn.any (fun e => e.1 == c) = true → linkState t k = 3 ∧ (linkOf t k).nego = 1)
        ∧ (∀ e ∈ t.strayIn, e.1 ≠ c) ∧ objGet t (Obj.linkRttNs + k) = r.rttNs ∧ (∀ n, n ≠ k → linkOf t n = linkOf s n)
        ∧ SameObjs s t [Obj.linkRttNs + k, Obj.linkState + k])
    ∧ (verdict s true x j r = .skewed →
      ∃ t, exec (.laneTrainingDone true x j r) s = .next t
        ∧ t = { s with out := t.out, dic := t.dic, lasers := t.lasers, rings := t.rings, specMap := t.specMap, reassign := t.reassign,
                       skewHold := t.skewHold, obs := t.obs }
        ∧ smGet t.skewHold (modRing x j) = some (s.now + ms 1000) ∧ (ringOf t (modRing x j)).parked = true
        ∧ SameObjs s t journalObjs ∧ (combMode s (laserOf x) = false → Logged s t .laneSkew [1, x, j] false))
    ∧ (verdict s true x j r = .failed → modRing x j ∉ s.trainFails →
      exec (.laneTrainingDone true x j r) s = .next { s with
        out := s.out ++ [.training x j (outTag s x j)], trainFails := s.trainFails ++ [modRing x j] }))
  ∧ (∀ (x j c : Nat) (r : TrainResult) (s : State), x < 32 → j < 17 → PartsOk s → findLane s false x j = none →
    laneExpected s x j = true → peerOn s false x j = some c → c ≠ chip s → smGet s.skewHold (dropRing x j) = none →
    s.recovery.any (fun (y : Recovery) => y.ring == dropRing x j) = false →
    (verdict s false x j r = .admitted →
      (linkTo s c = none →
        ∃ t, exec (.laneTrainingDone false x j r) s = .next t
          ∧ t = { s with rings := t.rings, trainFails := t.trainFails, inGrant := t.inGrant, strayIn := t.strayIn }
          ∧ (∃ l, t.strayIn = s.strayIn ++ [(c, l)] ∧ l.fibre = x ∧ l.line = j ∧ l.idx = r.tag.laneIndex ∧ l.tag = some r.tag)
          ∧ (ringOf t (dropRing x j)).locked = true)
      ∧ (∀ k, linkTo s c = some k → ((linkOf s k).inLanes ++ (linkOf s k).left).length < 128 →
        ∃ t, exec (.laneTrainingDone false x j r) s = .next t ∧ objGet t (Obj.linkRttNs + k) = r.rttNs
          ∧ (∃ l ∈ (linkOf t k).inLanes ++ (linkOf t k).left, l.fibre = x ∧ l.line = j ∧ l.idx = r.tag.laneIndex ∧ l.tag = some r.tag)
          ∧ ((linkOf s k).nego = 3 → smGet (linkOf s k).joins r.tag.laneIndex = none →
              (linkOf t k).inLanes = (linkOf s k).inLanes ∧ linkState t k = linkState s k)
          ∧ (ringOf t (dropRing x j)).locked = true ∧ (∀ n, n ≠ k → linkOf t n = linkOf s n) ∧ t.lpddr = s.lpddr
          ∧ t.queues = s.queues))
    ∧ (verdict s false x j r = .skewed →
      ∃ t, exec (.laneTrainingDone false x j r) s = .next t
        ∧ t = { s with skewHold := t.skewHold, inGrant := t.inGrant, dic := t.dic, obs := t.obs }
        ∧ smGet t.skewHold (dropRing x j) = some (s.now + ms 1000) ∧ SameObjs s t journalObjs ∧ Logged s t .laneSkew [0, x, j] false))
  ∧ (∀ (o : Bool) (x j : Nat) (s : State), x < 32 → j < 17 →
    (∀ e, smGet s.skewHold (ringAt o x j) = some e → e ≤ s.now →
      exec (.laneSkewHoldEnd o x j) s = .next { s with skewHold := smErase s.skewHold (ringAt o x j) })
    ∧ (∀ e, smGet s.skewHold (ringAt o x j) = some e → s.now < e → exec (.laneSkewHoldEnd o x j) s = .next s))

/-- CAPABILITY, CAPABILITY_ACK and GREY_NOTICE (R243, R246, Tables LNK-7 and LNK-8): while a link negotiates, the agreed set
is the AND of both ends', another EpochProto holds the link Grey with a journal entry, and the set is acknowledged; a peer
that forms a formed link again makes it Dark and negotiate here too; the acknowledgement ends the negotiation, the link takes
the state it belongs in and its lanes are announced; on a link that negotiates no more, GreyNotice sets or lifts cause 5.
INTENDED_MAP_COMMIT and LINK_QUARANTINE_WRITE (R247, R248): an accepted image is in force without its reserved bits, and every
bound link that carries a lane or a report that disagrees with it holds GreyCause 1; an accepted write of LinkQuarantine
stands in the object, and every bound link holds GreyCause 3 exactly where its bit is set. -/
def Obligations.NoticesAndMapsHoldLinksGrey : Prop :=
  (∀ (k v caps proto v' : Nat) (s : State), k < 64 → PartsOk s → (linkOf s k).bound = true →
    (linkOf s k).nego = 1 ∨ (linkOf s k).nego = 2 → v' = (if v = 1 then 1 else (linkOf s k).version) →
    ∃ t, exec (.capability k v caps proto) s = .next t ∧ t = { s with dic := t.dic, links := t.links, obs := t.obs }
      ∧ (linkOf t k).nego = 2 ∧ (linkOf t k).version = v' ∧ (linkOf t k).agreed = Nat.land (capsOf v') caps % 256
      ∧ ((linkOf s k).outLanes.any laneUp = true → Given t k (.capabilityAck (linkOf t k).agreed))
      ∧ (proto = Config.epochProto → (linkOf t k).causes = (linkOf s k).causes.erase 2 ∧ SameObjs s t [Obj.retryWindowStalls]
          ∧ t.obs = s.obs)
      ∧ (proto ≠ Config.epochProto → 2 ∈ (linkOf t k).causes ∧ SameObjs s t (Obj.retryWindowStalls :: journalObjs)
          ∧ Logged s t .epochProtoDiffers [k, (linkOf s k).peer, Config.epochProto, proto] false)
      ∧ (∀ i, i ≠ k → linkOf t i = linkOf s i))
  ∧ (∀ (k v caps : Nat) (s : State), k < 64 → PartsOk s → (linkOf s k).bound = true → (linkOf s k).nego = 3 →
    (linkOf s k).inLanes ≠ [] → (linkOf s k).outLanes ≠ [] →
    ∃ t, exec (.capability k v caps Config.epochProto) s = .next t
      ∧ t = { s with dic := t.dic, links := t.links, routerW := t.routerW, routerE := t.routerE, outst := t.outst, obs := t.obs }
      ∧ (linkOf t k).nego = 2 ∧ linkState t k = 3 ∧ (linkOf t k).rxNext = 0 ∧ (linkOf t k).rxHeld = []
      ∧ Counted s t Obj.linkDarkEvents 1 ∧ (∀ i, i ≠ k → linkOf t i = linkOf s i)
      ∧ SameObjs s t ([Obj.linkState + k, Obj.linkDarkEvents, Obj.drainDirty, Obj.resentFlits] ++ journalObjs))
  ∧ (∀ (k v caps proto a : Nat) (s : State), k < 64 →
    ((linkOf s k).bound = false ∨ (linkOf s k).nego = 0 → exec (.capability k v caps proto) s = .next s)
    ∧ ((linkOf s k).bound = false ∨ (linkOf s k).nego = 0 ∨ (linkOf s k).nego = 3 → exec (.capabilityAck k a) s = .next s))
  ∧ (∀ (k a : Nat) (s : State), k < 64 → PartsOk s → (linkOf s k).bound = true → (linkOf s k).darkSince = none →
    (linkOf s k).nego = 1 ∨ (linkOf s k).nego = 2 → atMinimum s (linkOf s k) = true →
    (linkOf s k).inLanes ≠ [] → (linkOf s k).outLanes ≠ [] →
    ∃ t, exec (.capabilityAck k a) s = .next t
      ∧ t = { s with dic := t.dic, links := t.links, routerW := t.routerW, routerE := t.routerE, outst := t.outst, obs := t.obs }
      ∧ (linkOf t k).nego = 3 ∧ linkState t k = litState (linkOf t k)
      ∧ (linkOf t k).agreed = Nat.land (if (linkOf s k).nego = 1 then capsOf (linkOf s k).version else (linkOf s k).agreed) a
      ∧ (∀ l ∈ (linkOf t k).outLanes, l.why = 0 → l.told = true) ∧ (∀ i, i ≠ k → linkOf t i = linkOf s i)
      ∧ SameObjs s t ([Obj.linkState + k, Obj.drainDirty, Obj.resentFlits, Obj.retryWindowStalls] ++ journalObjs))
  ∧ (∀ (k c : Nat) (s : State), k < 64 → PartsOk s → (linkOf s k).bound = true → (linkOf s k).nego = 3 →
    ∃ t, exec (.greyNotice k c) s = .next t
      ∧ t = { s with dic := t.dic, links := t.links, routerW := t.routerW, routerE := t.routerE, outst := t.outst, obs := t.obs }
      ∧ (c = 0 → (linkOf t k).causes = (linkOf s k).causes.erase 5)
      ∧ (c ≠ 0 → (linkOf t k).causes = if (linkOf s k).causes.contains 5 then (linkOf s k).causes else (linkOf s k).causes ++ [5])
      ∧ (∀ i, i ≠ k → linkOf t i = linkOf s i)
      ∧ SameObjs s t ([Obj.linkState + k, Obj.linkDarkEvents, Obj.drainDirty, Obj.resentFlits, Obj.retryWindowStalls] ++ journalObjs))
  ∧ (∀ (k c : Nat) (s : State), k < 64 → (linkOf s k).bound = false ∨ (linkOf s k).nego ≠ 3 →
    exec (.greyNotice k c) s = .next s)
  ∧ (∀ (r : Route) (handle : Nat) (digest : Bytes) (s : State) (x : Xfer) (role : Role) (row : ObjRow) (s0 : State),
    CommitReady s r false Obj.intendedMap handle digest x role row s0 → x.size = 2176 → PartsOk s0 →
    ∃ u, exec (.intendedMapCommit r handle digest) s = .next (answered s r (heldKey s r) ⟨u, 0, []⟩)
      ∧ domGet u Obj.intendedMap = mapFields (xferImage x)
      ∧ (∀ k, k < 64 → (linkOf u k).bound = true → linkDisagrees u k = true → 1 ∈ (linkOf u k).causes)
      ∧ u = { imageIn s0 r role row x with
                out := u.out, dic := u.dic, doms := u.doms, links := u.links, routerW := u.routerW, routerE := u.routerE,
                outst := u.outst, obs := u.obs })
  ∧ (∀ (r : Route) (v : Bytes) (s : State) (role : Role) (row : ObjRow) (s0 : State),
    WriteReady s r false Obj.linkQuarantine v role row s0 → PartsOk s0 → (∀ k, k < 64 → (linkOf s0 k).causes.Nodup) →
    ∃ u, exec (.linkQuarantineWrite r v) s = .next (answered s r Obj.linkQuarantine ⟨u, 0, []⟩)
      ∧ objGet u Obj.linkQuarantine = leNat v
      ∧ (∀ k, k < 64 → (linkOf u k).bound = true → (3 ∈ (linkOf u k).causes ↔ natBit k (leNat v) = true))
      ∧ u = { applyNum s0 r role row Obj.linkQuarantine (leNat v) with
                out := u.out, dic := u.dic, links := u.links, routerW := u.routerW, routerE := u.routerE, outst := u.outst,
                obs := u.obs })

/-- PROPOSE, ACCEPT and ROTOR_ABORT (R216, R217, R220): a good copy of a lane in service is accepted, a bad one is not
answered; at Accept the switch flit leaves on both lines with the other Phase, the lane is on the grey line and its old line turns
grey, but for a lane that has left service; an abort ends the move this end accepted, or the step of this end's rotor, which counts
it. LANE_DOWN, LANE_JOIN and LANE_LEAVE (R222, R223, R236, Table LNK-2): a lane the other end reports down leaves service here and,
but after a loss of light or errors, is recovered; one that joins is back once its training here has ended; one that leaves is gone
from the FlitSeq named on. -/
def Obligations.LanesMovedDownJoinedAndLeft : Prop :=
  (∀ (k i j : Nat) (ok : Bool) (s : State), k < 64 → PartsOk s →
    (∀ lane, laneBy s k false i = some lane → lane.why = 0 → natBit 5 (linkOf s k).agreed = true → j < 17 → ok = true →
      ∃ t, exec (.propose k i j ok) s = .next t ∧ t = { s with dic := t.dic, links := t.links }
        ∧ (CanSend s k (.accept i) → Given t k (.accept i)) ∧ (∀ l ∈ (linkOf t k).inLanes, l.idx = i → l.moveTo = some j)
        ∧ SameObjs s t [Obj.retryWindowStalls] ∧ ∀ n, n ≠ k → linkOf t n = linkOf s n)
    ∧ (ok = false ∨ natBit 5 (linkOf s k).agreed = false ∨ 17 ≤ j ∨ (∀ lane, laneBy s k false i = some lane → lane.why ≠ 0) →
        exec (.propose k i j ok) s = .next s))
  ∧ (∀ (k i x : Nat) (lane : Lane) (s : State), k < 64 → PartsOk s → acceptFibre s k i = some x →
    laneBy s k true i = some lane → (rotorOf s x).grey < 17 → lane.line < 17 →
    (lane.why ≠ 0 → exec (.accept k i) s = .next s)
    ∧ (lane.why = 0 →
      ∃ t f w1, exec (.accept k i) s = .next t ∧ t = { s with out := t.out, rotors := t.rotors, specMap := t.specMap, links := t.links }
        ∧ f = nextFlit (linkOf s k) lane
        ∧ t.out = s.out ++ [lane.line, (rotorOf s x).grey].map (fun j =>
            Out.flit lane.fibre j (headWord0 (kindOf f.2) true (!lane.phase) (tagOf k lane j) f.1) w1 (ctlCode f.2) f.2)
        ∧ rotorOf t x = { rotorOf s x with phase := 0, lane := none, aborts := 0 }
        ∧ (∃ l ∈ (linkOf t k).outLanes, l.idx = i ∧ l.line = (rotorOf s x).grey ∧ l.phase = !lane.phase)
        ∧ (specOf t x (rotorOf s x).grey).lineState = 1 ∧ (specOf t x (rotorOf s x).grey).link = k
        ∧ (lane.line ≠ (rotorOf s x).grey → (specOf t x lane.line).lineState = 2)
        ∧ (∀ y, y ≠ x → rotorOf t y = rotorOf s y) ∧ (∀ n, n ≠ k → linkOf t n = linkOf s n)))
  ∧ (∀ (k i : Nat) (s : State), k < 64 → acceptFibre s k i = none → exec (.accept k i) s = .next s)
  ∧ (∀ (k i : Nat) (s : State), k < 64 → PartsOk s →
    (∃ t, exec (.rotorAbort k { own := true, idx := i }) s = .next t ∧ t = { s with links := t.links }
      ∧ (linkOf t k).inLanes = (linkOf s k).inLanes.map (fun (l : Lane) => if l.idx = i then { l with moveTo := none } else l)
      ∧ linkOf t k = { linkOf s k with inLanes := (linkOf t k).inLanes } ∧ ∀ n, n ≠ k → linkOf t n = linkOf s n)
    ∧ (∀ x, acceptFibre s k i = some x →
      ∃ t, exec (.rotorAbort k { own := false, idx := i }) s = .next t ∧ t = { s with dic := t.dic, rotors := t.rotors, obs := t.obs }
        ∧ (rotorOf t x).phase = 0 ∧ (rotorOf t x).lane = none ∧ (rotorOf t x).grey = (rotorOf s x).grey
        ∧ (rotorOf t x).aborts = (rotorOf s x).aborts + 1 ∧ (∀ y, y ≠ x → rotorOf t y = rotorOf s y) ∧ Counted s t Obj.rotorAborts 1
        ∧ SameObjs s t (Obj.rotorAborts :: journalObjs))
    ∧ (acceptFibre s k i = none → exec (.rotorAbort k { own := false, idx := i }) s = .next s))
  ∧ (∀ (k c why : Nat) (r : LaneRef) (lane : Lane) (s : State), k < 64 → PartsOk s → laneBy s k (!r.own) r.idx = some lane →
    why = (if c = 3 ∨ c = 4 then c else 2) →
    (lane.why ≠ 0 → exec (.laneDown k r c) s = .next s)
    ∧ (lane.why = 0 → lane.fibre < 32 → lane.line < 17 →
      ∃ t, exec (.laneDown k r c) s = .next t
        ∧ t = { s with dic := t.dic, lasers := t.lasers, rings := t.rings, rotors := t.rotors, specMap := t.specMap,
                       recovery := t.recovery, links := t.links, routerW := t.routerW, routerE := t.routerE, outst := t.outst,
                       obs := t.obs }
        ∧ (∀ l ∈ (if r.own then (linkOf t k).inLanes else (linkOf t k).outLanes), l.idx = r.idx → l.why = why)
        ∧ (why = 2 → (∃ y ∈ t.recovery, y.ring = laneRing (!r.own) lane) ∧ (ringOf t (laneRing (!r.own) lane)).sweep = 1)
        ∧ (why ≠ 2 → t.recovery = s.recovery ∧ t.rings = s.rings) ∧ (∀ n, n ≠ k → linkOf t n = linkOf s n)
        ∧ SameObjs s t ([Obj.rotorAborts, Obj.linkState + k, Obj.linkDarkEvents, Obj.drainDirty, Obj.resentFlits,
            Obj.retryWindowStalls] ++ journalObjs)))
  ∧ (∀ (k c : Nat) (r : LaneRef) (s : State), k < 64 → laneBy s k (!r.own) r.idx = none → exec (.laneDown k r c) s = .next s)
  ∧ (∀ (k i q : Nat) (lane : Lane) (s : State), k < 64 → PartsOk s → laneBy s k false i = some lane →
    (lane.why = 0 → exec (.laneJoin k i q) s = .next s)
    ∧ (lane.why ≠ 0 → lane.ready = true ∨ lane.why = 3 →
      ∃ t, exec (.laneJoin k i q) s = .next t
        ∧ t = { s with dic := t.dic, links := t.links, routerW := t.routerW, routerE := t.routerE, outst := t.outst, obs := t.obs }
        ∧ (∀ l ∈ (linkOf t k).inLanes, l.idx = i → l.why = 0 ∧ l.last = some ((q + 2 ^ 20 - 1) % 2 ^ 20))
        ∧ ∀ n, n ≠ k → linkOf t n = linkOf s n)
    ∧ (lane.why ≠ 0 → lane.ready = false → lane.why ≠ 3 →
      ∃ t, exec (.laneJoin k i q) s = .next t ∧ t = { s with links := t.links }
        ∧ linkOf t k = { linkOf s k with
            inLanes := (linkOf s k).inLanes.map (fun (l : Lane) => if l.idx = i then { l with joinAt := some q } else l) }
        ∧ ∀ n, n ≠ k → linkOf t n = linkOf s n)
    ∧ (flitBefore (linkOf s k).rxNext q = true →
      ∃ t, exec (.laneLeave k i q) s = .next t ∧ t = { s with links := t.links }
        ∧ linkOf t k = { linkOf s k with
            inLanes := (linkOf s k).inLanes.map (fun (l : Lane) => if l.idx = i then { l with leaveAt := some q } else l) }
        ∧ ∀ n, n ≠ k → linkOf t n = linkOf s n)
    ∧ (flitBefore (linkOf s k).rxNext q = false →
      ∃ t, exec (.laneLeave k i q) s = .next t
        ∧ t = { s with dic := t.dic, lasers := t.lasers, rings := t.rings, specMap := t.specMap, recovery := t.recovery,
                       inGrant := t.inGrant, links := t.links, routerW := t.routerW, routerE := t.routerE, outst := t.outst,
                       obs := t.obs }
        ∧ (∀ l ∈ (linkOf t k).inLanes, l.idx ≠ i)
        ∧ ((linkOf s k).inLanes.any (fun (l : Lane) => l.idx != i) = true →
            (linkOf t k).inLanes.map Lane.idx = ((linkOf s k).inLanes.map Lane.idx).filter (fun n => n != i)
            ∧ (linkOf t k).left = (linkOf s k).left ++ [lane])
        ∧ ((linkOf s k).inLanes.any (fun (l : Lane) => l.idx != i) = false → linkState t k = 4 ∧ (linkOf t k).bound = false)
        ∧ ∀ n, n ≠ k → linkOf t n = linkOf s n))
  ∧ (∀ (k i q : Nat) (s : State), k < 64 → laneBy s k false i = none →
    exec (.laneLeave k i q) s = .next s
    ∧ ((∀ l ∈ (linkOf s k).left, l.idx ≠ i) → (linkOf s k).nego ≠ 3 → exec (.laneJoin k i q) s = .next s)
    ∧ ((∀ l ∈ (linkOf s k).left, l.idx ≠ i) → (linkOf s k).nego = 3 → k < s.links.length →
      ∃ t, exec (.laneJoin k i q) s = .next t ∧ t = { s with links := t.links }
        ∧ linkOf t k = { linkOf s k with joins := smSet (linkOf s k).joins i q } ∧ ∀ n, n ≠ k → linkOf t n = linkOf s n)
    ∧ (∀ lane, (linkOf s k).left.find? (fun (l : Lane) => l.idx == i) = some lane → findLane s false lane.fibre lane.line = none →
      (linkOf s k).nego = 3 → (linkOf s k).darkSince = none → k < s.links.length →
      ∃ t, exec (.laneJoin k i q) s = .next t
        ∧ t = { s with dic := t.dic, links := t.links, routerW := t.routerW, routerE := t.routerE, outst := t.outst, obs := t.obs }
        ∧ (∃ l ∈ (linkOf t k).inLanes, l.idx = i ∧ l.fibre = lane.fibre ∧ l.line = lane.line ∧ l.why = 0)
        ∧ (∀ l ∈ (linkOf t k).left, l.idx ≠ i) ∧ ∀ n, n ≠ k → linkOf t n = linkOf s n))

/-- PACKET_ROUTE of a held packet (R251, R253 to R257, R262, R264): a malformed one is dropped and counted; of VC1 to VC9, one
its injection window does not let in stays, counted once; one for this module goes to the ejection port of its half, or into
the bridge when that is the other one; one whose epoch's bank is Free, and one of 63 hops, is dropped and counted; any other
goes out on the link that `choose` names once that output serves it, one hop further, and leaves its buffer, its credits owed
back to the link it came on; where none can take it, it stays; without a valid escape link it is dropped. A multicast packet
is ejected once and goes on along its axis on the escape channel; a copy that cannot be sent is counted and its origin told. A
resent atomic or signal to a peer without a replay cache ends as outcome unknown. A VC0 packet goes to its chip where that is
a peer and else along the escape link, as far as 64 KiB of them are held. ESCAPE_WAIT_EXPIRE (R256): a packet whose escape
link has been unusable for EscapeWaitUs is dropped and counted, not sooner. -/
def Obligations.PacketsRoutedOrHeldBack : Prop :=
  (∀ (h : Half) (id : Nat) (s : State), heldOf s h id = none → exec (.packetRoute h id) s = .next s)
  ∧ (∀ (h : Half) (id : Nat) (x : Held) (s : State), heldOf s h id = some x → malformed x.p = true →
    ∃ t, exec (.packetRoute h id) s = .next t
      ∧ t = { s with dic := t.dic, links := t.links, routerW := t.routerW, routerE := t.routerE }
      ∧ routerOf t h = { routerOf s h with held := (routerOf s h).held.filter (fun (y : Held) => y.id != id) }
      ∧ routerOf t (otherHalf h) = routerOf s (otherHalf h) ∧ (∀ n, x.from_ ≠ some n → linkOf t n = linkOf s n)
      ∧ Counted s t Obj.routeMalformed 1 ∧ SameObjs s t [Obj.routeMalformed])
  ∧ (∀ (h : Half) (id : Nat) (x : Held) (s : State), heldOf s h id = some x → malformed x.p = false → x.p.vc ≠ 0 →
    (windowLets s h x = false →
      (x.winTold = true → exec (.packetRoute h id) s = .next s)
      ∧ (x.winTold = false →
        ∃ t, exec (.packetRoute h id) s = .next t ∧ t = { s with dic := t.dic, routerW := t.routerW, routerE := t.routerE }
          ∧ routerOf t h = { routerOf s h with
              held := (routerOf s h).held.map (fun (y : Held) => if y.id = id then { y with winTold := true } else y) }
          ∧ routerOf t (otherHalf h) = routerOf s (otherHalf h)
          ∧ Counted s t Obj.injectWindowStalls 1 ∧ SameObjs s t [Obj.injectWindowStalls]))
    ∧ (windowLets s h x = true → x.p.dest = chip s → x.p.mcast = false → ejectOk s h x.p = true →
      ∃ t, exec (.packetRoute h id) s = .next t
        ∧ t = { s with links := t.links, routerW := t.routerW, routerE := t.routerE, bridge := t.bridge }
        ∧ (routerOf t h).held = (routerOf s h).held.filter (fun (y : Held) => y.id != id)
        ∧ (∀ n, x.from_ ≠ some n → linkOf t n = linkOf s n)
        ∧ (ejectHalf s h x.p = h → (routerOf t h).ejected = (routerOf s h).ejected ++ [x.p] ∧ t.bridge = s.bridge
            ∧ routerOf t (otherHalf h) = routerOf s (otherHalf h))
        ∧ (ejectHalf s h x.p ≠ h →
            t.bridge = { s.bridge with crossing := s.bridge.crossing ++ [{ p := x.p, link := none, to_ := otherHalf h }] }
            ∧ routerOf t (otherHalf h) = routerOf s (otherHalf h) ∧ (routerOf t h).ejected = (routerOf s h).ejected))
    ∧ (windowLets s h x = true → x.p.dest = chip s → x.p.mcast = false → ejectOk s h x.p = false →
      exec (.packetRoute h id) s = .next s)
    ∧ (windowLets s h x = true → x.p.dest ≠ chip s ∨ x.p.mcast = true → bankState s x.p.epoch = 0 →
      ∃ t, exec (.packetRoute h id) s = .next t
        ∧ t = { s with dic := t.dic, links := t.links, routerW := t.routerW, routerE := t.routerE }
        ∧ Counted s t Obj.epochMisses 1 ∧ SameObjs s t [Obj.epochMisses]
        ∧ ∃ new, (routerOf t h).held = (routerOf s h).held.filter (fun (y : Held) => y.id != id) ++ new
          ∧ ∀ y ∈ new, y.p.dest = x.p.src ∧ y.p.vc = 4)
    ∧ (windowLets s h x = true → x.p.dest ≠ chip s ∨ x.p.mcast = true → bankState s x.p.epoch ≠ 0 → 63 ≤ x.p.hops →
      ∃ t, exec (.packetRoute h id) s = .next t
        ∧ t = { s with dic := t.dic, links := t.links, routerW := t.routerW, routerE := t.routerE }
        ∧ Counted s t Obj.hopLimitDrops 1 ∧ SameObjs s t [Obj.hopLimitDrops])
    ∧ (windowLets s h x = true → x.p.dest ≠ chip s → x.p.mcast = false → bankState s x.p.epoch ≠ 0 → x.p.hops < 63 →
      (∀ k vc, choose s h x.p = .send k vc → (served s h k x).isSome = true → x.p.resent = false → k < s.links.length →
        ∃ t, exec (.packetRoute h id) s = .next t
          ∧ t = { s with dic := t.dic, links := t.links, routerW := t.routerW, routerE := t.routerE, bridge := t.bridge }
          ∧ (leaving s k vc x).hops = x.p.hops + 1
          ∧ (routerOf t h).held = (routerOf s h).held.filter (fun (y : Held) => y.id != id)
          ∧ routerOf t (otherHalf h) = routerOf s (otherHalf h) ∧ SameObjs s t [Obj.congMarks]
          ∧ (∀ n, n ≠ k → x.from_ ≠ some n → linkOf t n = linkOf s n)
          ∧ (linkHalf s k = h → t.bridge = s.bridge
              ∧ ∃ u ∈ (linkOf t k).unacked, u.body = .packets [leaving s k vc x] ∧ u.born = s.now ∧ u.sends = 1)
          ∧ (linkHalf s k ≠ h →
              t.bridge.crossing = s.bridge.crossing ++ [{ p := leaving s k vc x, link := some k, to_ := otherHalf h }]))
      ∧ (∀ k vc, choose s h x.p = .send k vc → served s h k x = none → exec (.packetRoute h id) s = .next s)
      ∧ (choose s h x.p = .wait →
        ∃ t, exec (.packetRoute h id) s = .next t ∧ t = { s with dic := t.dic, routerW := t.routerW, routerE := t.routerE }
          ∧ (routerOf t h).held.map (fun (y : Held) => (y.id, y.p)) = (routerOf s h).held.map (fun (y : Held) => (y.id, y.p))
          ∧ SameObjs s t [Obj.retryWindowStalls])
      ∧ (choose s h x.p = .noEscape →
        ∃ t, exec (.packetRoute h id) s = .next t
          ∧ t = { s with dic := t.dic, links := t.links, routerW := t.routerW, routerE := t.routerE }
          ∧ Counted s t Obj.noRouteDrops 1 ∧ SameObjs s t [Obj.noRouteDrops])
      ∧ (choose s h x.p = .badEscape →
        ∃ t, exec (.packetRoute h id) s = .next t ∧ t = { s with routerW := t.routerW, routerE := t.routerE }
          ∧ (routerOf t h).held = (routerOf s h).held.map (fun (y : Held) =>
              if y.id = id then { y with badSince := y.badSince.or (some s.now) } else y))))
  ∧ (∀ (h : Half) (id : Nat) (x : Held) (s : State) (k vc : Nat), heldOf s h id = some x → malformed x.p = false → x.p.vc ≠ 0 →
    windowLets s h x = true → x.p.dest ≠ chip s → x.p.mcast = false → bankState s x.p.epoch ≠ 0 → x.p.hops < 63 →
    choose s h x.p = .send k vc → (served s h k x).isSome = true → x.p.resent = true → isSequenced x.p = true →
    x.p.dest = (linkOf s k).peer → natBit 4 (linkOf s k).agreed = false →
    ∃ t, exec (.packetRoute h id) s = .next t
      ∧ t = { s with dic := t.dic, links := t.links, routerW := t.routerW, routerE := t.routerE, bridge := t.bridge, obs := t.obs }
      ∧ Counted s t Obj.outcomeUnknown 1 ∧ SameObjs s t (Obj.outcomeUnknown :: journalObjs)
      ∧ Logged s t .outcomeUnknown [x.p.src, x.p.seq] false)
  ∧ (∀ (h : Half) (id : Nat) (x : Held) (s : State), heldOf s h id = some x → malformed x.p = false → x.p.vc ≠ 0 →
    windowLets s h x = true → x.p.mcast = true → bankState s x.p.epoch ≠ 0 → x.p.hops < 63 →
    (copiesOf s x = (true, false, false) → ejectOk s h x.p = true → ejectHalf s h x.p = h →
      ∃ t, exec (.packetRoute h id) s = .next t ∧ t = { s with links := t.links, routerW := t.routerW, routerE := t.routerE }
        ∧ routerOf t h = { routerOf s h with
            held := (routerOf s h).held.filter (fun (y : Held) => y.id != id), ejected := (routerOf s h).ejected ++ [x.p] }
        ∧ (∀ n, x.from_ ≠ some n → linkOf t n = linkOf s n))
    ∧ (copiesOf s x = (true, false, false) → ejectOk s h x.p = false →
      ∃ t, exec (.packetRoute h id) s = .next t ∧ t = { s with routerW := t.routerW, routerE := t.routerE }
        ∧ routerOf t h = { routerOf s h with held := (routerOf s h).held.map (fun (y : Held) =>
            if y.id = id then { y with copies := some (true, false, false) } else y) })
    ∧ (∀ k, copiesOf s x = (false, true, false) → axisPlus s x.p.axis = some k →
      usableLink s k { x.p with vc := escapeVc x.p.vc x.p.epoch } = true → canSend s k (escapeVc x.p.vc x.p.epoch) x.p = true →
      (served s h k x).isSome = true → linkHalf s k = h → k < s.links.length →
      ∃ t, exec (.packetRoute h id) s = .next t
        ∧ t = { s with dic := t.dic, links := t.links, routerW := t.routerW, routerE := t.routerE } ∧ SameObjs s t [Obj.congMarks]
        ∧ (routerOf t h).held = (routerOf s h).held.filter (fun (y : Held) => y.id != id)
        ∧ (∃ u ∈ (linkOf t k).unacked, u.body = .packets [leaving s k (escapeVc x.p.vc x.p.epoch) x])
        ∧ (∀ n, n ≠ k → x.from_ ≠ some n → linkOf t n = linkOf s n)))
  ∧ (∀ (h : Half) (id off tag : Nat) (o : FabOp) (x : Held) (s : State), heldOf s h id = some x → malformed x.p = false →
    x.p.vc ≠ 0 → windowLets s h x = true → x.p.mcast = true → bankState s x.p.epoch ≠ 0 → x.p.hops < 63 →
    copiesOf s x = (false, true, false) → axisPlus s x.p.axis = none → x.p.body = .req off tag o →
    id ≠ (routerOf s h).nextId →
    ∃ t, exec (.packetRoute h id) s = .next t
      ∧ t = { s with dic := t.dic, links := t.links, routerW := t.routerW, routerE := t.routerE }
      ∧ Counted s t Obj.mcastShort 1 ∧ SameObjs s t [Obj.mcastShort]
      ∧ (routerOf t h).held.dropLast = (routerOf s h).held.filter (fun (z : Held) => z.id != id)
      ∧ (routerOf t h).held.getLast?.map (fun (z : Held) => (z.p.dest, z.p.body))
          = some (x.p.src, .rep tag fabShort 0 (natLe 1 (axisOwn s x.p.axis + 1) ++ natLe 1 x.p.hi)))
  ∧ (∀ (h : Half) (id : Nat) (x : Held) (s : State), heldOf s h id = some x → malformed x.p = false → x.p.vc = 0 → x.p.dest = chip s →
    (match x.p.body with
      | .report _ => True
      | _ => ∃ t, exec (.packetRoute h id) s = .next t ∧ t = { s with links := t.links, routerW := t.routerW, routerE := t.routerE }
      ∧ routerOf t h = { routerOf s h with held := (routerOf s h).held.filter (fun (y : Held) => y.id != id) }
      ∧ routerOf t (otherHalf h) = routerOf s (otherHalf h) ∧ (∀ n, x.from_ ≠ some n → linkOf t n = linkOf s n)))
  ∧ (∀ (h : Half) (id : Nat) (x : Held) (s : State), heldOf s h id = some x → malformed x.p = false → x.p.vc = 0 → x.p.dest ≠ chip s →
    (65536 < mgmtBytes s h id + 4 * x.p.len →
      ∃ t, exec (.packetRoute h id) s = .next t
        ∧ t = { s with dic := t.dic, links := t.links, routerW := t.routerW, routerE := t.routerE }
        ∧ Counted s t Obj.mgmtDrops 1 ∧ SameObjs s t [Obj.mgmtDrops])
    ∧ (∀ k, mgmtBytes s h id + 4 * x.p.len ≤ 65536 → x.p.hops < 63 → mgmtLink s h x.p = some k → carriesMgmt s k = true →
      reachLink s h k = true → windowOpenFor (linkOf s k) x.p = true → (served s h k x).isSome = true → linkHalf s k = h →
      k < s.links.length → x.p.resent = false →
      ∃ t, exec (.packetRoute h id) s = .next t ∧ t = { s with links := t.links, routerW := t.routerW, routerE := t.routerE }
        ∧ (∃ u ∈ (linkOf t k).unacked, u.body = .packets [leaving s k 0 x])
        ∧ (routerOf t h).held = (routerOf s h).held.filter (fun (y : Held) => y.id != id)
        ∧ (∀ n, n ≠ k → x.from_ ≠ some n → linkOf t n = linkOf s n))
    ∧ (mgmtBytes s h id + 4 * x.p.len ≤ 65536 → x.p.hops < 63 → mgmtLink s h x.p = none →
      ∃ t, exec (.packetRoute h id) s = .next t
        ∧ t = { s with dic := t.dic, links := t.links, routerW := t.routerW, routerE := t.routerE }
        ∧ Counted s t Obj.noRouteDrops 1 ∧ SameObjs s t [Obj.noRouteDrops]))
  ∧ (∀ (h : Half) (id e : Nat) (x : Held) (s : State), heldOf s h id = some x → x.badSince = some e →
    (s.now < e + us (objGet s Obj.escapeWaitUs) → exec (.escapeWaitExpire h id) s = .next s)
    ∧ (e + us (objGet s Obj.escapeWaitUs) ≤ s.now → x.p.vc = 0 ∨ choose s h x.p = .badEscape →
      ∃ t, exec (.escapeWaitExpire h id) s = .next t
        ∧ t = { s with dic := t.dic, links := t.links, routerW := t.routerW, routerE := t.routerE }
        ∧ Counted s t Obj.noRouteDrops 1 ∧ SameObjs s t [Obj.noRouteDrops]
        ∧ ∃ new, (routerOf t h).held = (routerOf s h).held.filter (fun (y : Held) => y.id != id) ++ new
          ∧ ∀ y ∈ new, y.p.dest = x.p.src ∧ y.p.vc = 4))
  ∧ (∀ (h : Half) (id : Nat) (x : Held) (s : State), heldOf s h id = some x → x.badSince = none →
    exec (.escapeWaitExpire h id) s = .next s)

/-- ESCAPE_STALL: R259. A packet held on an escape VC for EscapeStallMs (10 ms by default) adds 1 to EscapeStalls and is journalled
with its link, VC and destination, on ALERT_N; nothing is dropped. A packet told already, on another VC, or held for less changes
nothing. -/
def Obligations.EscapeStallsCountedAndTold : Prop :=
  objGet State.reset Obj.escapeStallMs = 10
  ∧ (∀ (h : Half) (id : Nat) (x : Held) (s : State), heldOf s h id = some x → x.stallTold = false → x.p.vc ≠ 0 →
    isAdaptive x.p.vc = false → x.since + ms (objGet s Obj.escapeStallMs) ≤ s.now →
    ∃ t, exec (.escapeStall h id) s = .next t
      ∧ t = { s with dic := t.dic, routerW := t.routerW, routerE := t.routerE, obs := t.obs }
      ∧ (routerOf t h).held = (routerOf s h).held.map (fun (y : Held) => if y.id = id then { y with stallTold := true } else y)
      ∧ Counted s t Obj.escapeStalls 1 ∧ Counted s t Obj.alertPending 1 ∧ SameObjs s t (Obj.escapeStalls :: alertObjs)
      ∧ Logged s t .escapeStall [x.from_.getD 64, x.p.vc, x.p.dest] true)
  ∧ (∀ (h : Half) (id : Nat) (x : Held) (s : State), heldOf s h id = some x →
    x.stallTold = true ∨ x.p.vc = 0 ∨ isAdaptive x.p.vc = true ∨ s.now < x.since + ms (objGet s Obj.escapeStallMs) →
    exec (.escapeStall h id) s = .next s)

/-- ROUTE_TABLE_LOAD, EPOCH_SWITCH, DRAIN_ARM and EPOCH_RELEASE (R260, R261, Table RTE-4): an accepted image fills the bank
that is Free or Loaded in both halves, which is then Loaded; a switch makes the Loaded bank Active and the other Draining; a
DrainArm says whether a packet of the Draining epoch is held; a release frees the Draining bank. Out of turn each is refused
with status 0x08 and changes nothing. HOT_WINDOW_GROW and CLASS_WINDOW_ADJUST (R264, Table RTE-6): a hot destination's window
without an echo for 4 µs grows by 65,536 bytes, and its entry goes when it would reach its class's window; an injection queue
more than 768 KiB full cuts the class window by an eighth, down to 16,384 bytes, at most every 10 µs, one less than 256 KiB
full lets it grow by 65,536 bytes, up to 8 MiB, at most every 4 µs; otherwise nothing changes. -/
def Obligations.RouteBanksAndInjectionWindows : Prop :=
  (∀ (r : Route) (handle : Nat) (digest : Bytes) (s : State) (x : Xfer) (role : Role) (row : ObjRow) (s0 : State),
    CommitReady s r false Obj.routeTableLoad handle digest x role row s0 → x.size = 262144 →
    (∀ b, loadBank s0 = some b → tableReserved 32768 (xferImage x) = false →
      ∃ u, exec (.routeTableLoad r handle digest) s = .next (answered s r (heldKey s r) ⟨u, 0, []⟩)
        ∧ u = { imageIn s0 r role row x with dic := u.dic, routerW := u.routerW, routerE := u.routerE }
        ∧ (if b = 0 then u.routerW.bank0 else u.routerW.bank1) = entriesOf 16384 0 ((xferImage x).take 131072)
        ∧ (if b = 0 then u.routerE.bank0 else u.routerE.bank1) = entriesOf 16384 0 ((xferImage x).drop 131072)
        ∧ (if b = 0 then u.routerW.bank1 = s0.routerW.bank1 else u.routerW.bank0 = s0.routerW.bank0)
        ∧ u.routerW.held = s0.routerW.held ∧ bankState u b = 1 ∧ bankState u (1 - b) = bankState s0 (1 - b))
    ∧ (loadBank s0 = none ∨ tableReserved 32768 (xferImage x) = true →
      exec (.routeTableLoad r handle digest) s = .next (answered s r (heldKey s r) ⟨dropXfer s0 x.handle, 0x08, []⟩)))
  ∧ (∀ (r : Route) (v : Bytes) (s : State) (role : Role) (row : ObjRow) (s0 : State),
    WriteReady s r false Obj.epochSwitch v role row s0 → leNat v ≤ 1 →
    (bankState s0 (leNat v) = 1 → bankState s0 (1 - leNat v) = 2 →
      ∃ u, exec (.epochSwitch r v) s = .next (answered s r Obj.epochSwitch ⟨u, 0, []⟩)
        ∧ u = { applyNum s0 r role row Obj.epochSwitch (leNat v) with dic := u.dic, armed := false }
        ∧ bankState u (leNat v) = 2 ∧ bankState u (1 - leNat v) = 3 ∧ objGet u Obj.routeEpochActive = leNat v)
    ∧ (bankState s0 (leNat v) ≠ 1 ∨ bankState s0 (1 - leNat v) ≠ 2 →
      exec (.epochSwitch r v) s = .next (answered s r Obj.epochSwitch ⟨s0, 0x08, []⟩)))
  ∧ (∀ (r : Route) (v : Bytes) (s : State) (role : Role) (row : ObjRow) (s0 : State),
    WriteReady s r false Obj.drainArm v role row s0 → leNat v ≠ 0 →
    ((drainBank s0).isSome = true →
      ∃ u, exec (.drainArm r v) s = .next (answered s r Obj.drainArm ⟨u, 0, []⟩)
        ∧ u = { applyNum s0 r role row Obj.drainArm (leNat v) with dic := u.dic, armed := true }
        ∧ (objGet u Obj.drainDirty = if oldEpochPackets s0 = 0 then 0 else 1))
    ∧ (drainBank s0 = none → exec (.drainArm r v) s = .next (answered s r Obj.drainArm ⟨s0, 0x08, []⟩)))
  ∧ (∀ (r : Route) (v : Bytes) (s : State) (role : Role) (row : ObjRow) (s0 : State) (b : Nat),
    WriteReady s r false Obj.epochRelease v role row s0 → leNat v ≠ 0 →
    (drainBank s0 = some b → oldEpochPackets s0 = 0 →
      ∃ u, exec (.epochRelease r v) s = .next (answered s r Obj.epochRelease ⟨u, 0, []⟩)
        ∧ u = { applyNum s0 r role row Obj.epochRelease (leNat v) with dic := u.dic, armed := false }
        ∧ bankState u b = 0 ∧ bankState u (1 - b) = bankState s0 (1 - b))
    ∧ (drainBank s0 = none ∨ oldEpochPackets s0 ≠ 0 → exec (.epochRelease r v) s = .next (answered s r Obj.epochRelease ⟨s0, 0x08, []⟩)))
  ∧ (∀ (h : Half) (c : PClass) (d : Nat) (s : State),
    ∃ t, exec (.hotWindowGrow h c d) s = .next t ∧ t = { s with routerW := t.routerW, routerE := t.routerE }
      ∧ routerOf t (otherHalf h) = routerOf s (otherHalf h)
      ∧ routerOf t h = { routerOf s h with hot := (routerOf t h).hot }
      ∧ (∀ e ∈ (routerOf s h).hot, ¬ (e.cls = c ∧ e.dest = d ∧ e.echoed + us 4 ≤ s.now) → e ∈ (routerOf t h).hot)
      ∧ (∀ e ∈ (routerOf s h).hot, e.cls = c → e.dest = d → e.echoed + us 4 ≤ s.now →
          e.window + 65536 < classWindow (routerOf s h) c →
          { e with window := e.window + 65536, echoed := s.now } ∈ (routerOf t h).hot)
      ∧ (∀ e ∈ (routerOf s h).hot, e.cls = c → e.dest = d → e.echoed + us 4 ≤ s.now →
          classWindow (routerOf s h) c ≤ e.window + 65536 → e ∉ (routerOf t h).hot))
  ∧ (∀ (h : Half) (n : Nat) (s : State),
    ∃ t, exec (.classWindowAdjust h .request n) s = .next t ∧ t = { s with routerW := t.routerW, routerE := t.routerE }
      ∧ routerOf t (otherHalf h) = routerOf s (otherHalf h)
      ∧ (786432 < n → (routerOf s h).winLastReq + us 10 ≤ s.now → routerOf t h = { routerOf s h with
          winReq := max 16384 ((routerOf s h).winReq - (routerOf s h).winReq / 8), winLastReq := s.now })
      ∧ (n < 262144 → (routerOf s h).winLastReq + us 4 ≤ s.now → routerOf t h = { routerOf s h with
          winReq := min 8388608 ((routerOf s h).winReq + 65536), winLastReq := s.now })
      ∧ (262144 ≤ n → n ≤ 786432 → t = s) ∧ (s.now < (routerOf s h).winLastReq + us 4 → t = s))
  ∧ (∀ (h : Half) (n : Nat) (s : State),
    ∃ t, exec (.classWindowAdjust h .coll n) s = .next t ∧ t = { s with routerW := t.routerW, routerE := t.routerE }
      ∧ routerOf t (otherHalf h) = routerOf s (otherHalf h)
      ∧ (786432 < n → (routerOf s h).winLastColl + us 10 ≤ s.now → routerOf t h = { routerOf s h with
          winColl := max 16384 ((routerOf s h).winColl - (routerOf s h).winColl / 8), winLastColl := s.now })
      ∧ (n < 262144 → (routerOf s h).winLastColl + us 4 ≤ s.now → routerOf t h = { routerOf s h with
          winColl := min 8388608 ((routerOf s h).winColl + 65536), winLastColl := s.now })
      ∧ (262144 ≤ n → n ≤ 786432 → t = s) ∧ (s.now < (routerOf s h).winLastColl + us 4 → t = s))
  ∧ (∀ (h : Half) (n : Nat) (s : State), exec (.classWindowAdjust h .reply n) s = .next s ∧ exec (.classWindowAdjust h .mgmt n) s = .next s)

/-- LOAD_REQUEST and STORE_REQUEST (R18, R276, R278, R279, R285, R327): outside Ready each is answered not-ready with no
effect; a load is answered with its bytes and each line's poison bit, as its reads find them, or with address-error and every
line marked poisoned, and changes no byte of memory; a store to LPDDR or the tile store writes exactly the masked bytes of its
line, one to a synchronisation object writes the whole word, one to a control page writes its registers, and any other form is
answered address-error with nothing stored. A store waits while its channel or slice has just admitted one, and a tracked line
is back-invalidated first. ATOMIC_REQUEST and REMOTE_SIGNAL_REQUEST (R276, R277, R281 to R284, Table FAB-4): an atomic of a
form of the table on a clean word stores the new value there and nothing elsewhere and answers the old one; one on a poisoned
line stores nothing and is answered with its poison bit; a signal adds its amount to its object; each enters the replay cache,
which answers the same request again without applying it; one too old to decide is answered outcome-unknown, counted and
journalled, and applied nowhere; other forms are answered address-error. -/
def Obligations.FabricRequestsServedOnce : Prop :=
  (∀ (q : TargetRead) (p : Packet) (off tag n : Nat) (s s1 : State), q.packet = p → p.body = .req off tag (.load n) →
    s1 = linesFound s (linesOf off n) q.ev →
    (servesFabric s = false →
      ∃ t, exec (.loadRequest q) s = .next t ∧ t = { s with routerW := t.routerW, routerE := t.routerE }
        ∧ Replied s t (homeHalf s off) p tag fabNotReady 0 [])
    ∧ (∀ data mask, ServedNow s off n → loadAt s1 off n = some (data, mask) →
      ∃ t, exec (.loadRequest q) s = .next t
        ∧ t = { s1 with free := t.free, routerW := t.routerW, routerE := t.routerE } ∧ t.lpddr = s.lpddr ∧ t.tile = s.tile
        ∧ Replied s t (homeHalf s off) p tag 0 mask data ∧ SameObjs s t [Obj.tstCorrected, Obj.tstUncorrectable]
        ∧ (q.ev = [] → t.dic = s.dic ∧ t.wires = s.wires ∧ t.chans = s.chans ∧ t.lpddrBad = s.lpddrBad
            ∧ t.tilePoison = s.tilePoison))
    ∧ (ServedNow s off n → loadAt s1 off n = none →
      ∃ t, exec (.loadRequest q) s = .next t ∧ t = { s1 with dic := t.dic, routerW := t.routerW, routerE := t.routerE }
        ∧ Replied s t (homeHalf s off) p tag fabAddress (2 ^ min 4 (linesOf off n).length - 1) []
        ∧ (regionOf s off = .reserved → q.ev = [] → Counted s t (fabAddrErrorKey (homeHalf s off)) 1)
        ∧ SameObjs s1 t (if regionOf s off = .reserved then [fabAddrErrorKey (homeHalf s off)] else []))
    ∧ (∀ l, servesFabric s = true → snoopFailed s [l] = false → snoopWaits s [l] = false → touchedLines s off n = [l] → tracked s l = true →
      ∃ t, exec (.loadRequest q) s = .next t ∧ t = { s with out := s.out ++ [.backInvalidate l true], host := t.host }
        ∧ t.host.bisnp = s.host.bisnp ++ [(l, s.now)]))
  ∧ (∀ (p : Packet) (off tag mask line : Nat) (data : Bytes) (poison : Bool) (s : State),
    p.body = .req off tag (.store mask data poison) → line = off / 64 * 64 →
    (servesFabric s = false →
      ∃ t, exec (.storeRequest p) s = .next t ∧ t = { s with routerW := t.routerW, routerE := t.routerE }
        ∧ Replied s t (homeHalf s line) p tag fabNotReady 0 [])
    ∧ (ServedNow s line 64 → admitLate s line = true → exec (.storeRequest p) s = .next s)
    ∧ (ServedNow s line 64 → admitLate s line = false → regionOf s line = .lpddr ∨ regionOf s line = .tile → data.length = 64 →
      MemOk s →
      ∃ t, exec (.storeRequest p) s = .next t
        ∧ t = { s with free := t.free, tile := t.tile, tilePoison := t.tilePoison, lpddr := t.lpddr, lpddrPoison := t.lpddrPoison,
                       lpddrBad := t.lpddrBad, chans := t.chans, atoms := t.atoms, admits := t.admits, routerW := t.routerW,
                       routerE := t.routerE }
        ∧ Replied s t (homeHalf s line) p tag 0 0 [] ∧ SameMemoryBut s t line 64
        ∧ (∀ i, i < 64 → natBit i mask = true → (rawBytes t line 64).getD i 0 = data.getD i 0)
        ∧ (linePoison s line = false → ∀ i, i < 64 → natBit i mask = false →
            (rawBytes t line 64).getD i 0 = (rawBytes s line 64).getD i 0)
        ∧ (poison = true → linePoison t line = true) ∧ (poison = false → mask = fullMask → linePoison t line = false))
    ∧ (∀ k, ServedNow s line 64 → regionOf s line = .sync → oneWord mask = some k →
      ∃ t, exec (.storeRequest p) s = .next t
        ∧ t = { s with sync := t.sync, waiters := t.waiters, claims := t.claims, atoms := t.atoms, routerW := t.routerW,
                       routerE := t.routerE }
        ∧ Replied s t (homeHalf s line) p tag 0 0 []
        ∧ syncGet t ((line - syncBase) / 8 + k) = BitVec.ofNat 64 (leNat ((data.drop (8 * k)).take 8))
        ∧ (∀ o, o ≠ (line - syncBase) / 8 + k → syncGet t o = syncGet s o))
    ∧ (ServedNow s line 64 → regionOf s line = .page →
      ∃ t, exec (.storeRequest p) s = .next t
        ∧ t = { pageStore s line mask data with atoms := t.atoms, routerW := t.routerW, routerE := t.routerE })
    ∧ (ServedNow s line 64 → localPutOk s line mask = false →
      ∃ t, exec (.storeRequest p) s = .next t
        ∧ t = { s with dic := t.dic, atoms := t.atoms, routerW := t.routerW, routerE := t.routerE }
        ∧ Replied s t (homeHalf s line) p tag fabAddress 0 [] ∧ SameObjs s t [0x802001, 0x802002]))
  ∧ (∀ (q : TargetRead) (p : Packet) (off tag op age a b n old : Nat) (w : Bool) (s s1 : State), q.packet = p →
    p.body = .req off tag (.atomic op w age a b) → n = (if w then 8 else 4) → ServedNow s off n → admitLate s off = false →
    old = leNat (rawBytes s off n) → s1 = linesFound s (linesOf off 1) q.ev →
    (atomicForm s off op w = true → replayFind s (homeHalf s off) p.src p.seq = none → applies s (homeHalf s off) p age = true →
      regionOf s off = .lpddr ∨ regionOf s off = .tile → linePoison s1 off = false → MemOk s →
      ∃ t, exec (.atomicRequest q) s = .next t
        ∧ t = { s1 with dic := t.dic, tile := t.tile, tilePoison := t.tilePoison, lpddr := t.lpddr, lpddrPoison := t.lpddrPoison,
                        lpddrBad := t.lpddrBad, chans := t.chans, admits := t.admits, routerW := t.routerW, routerE := t.routerE,
                        evicted := t.evicted, replay := t.replay, atoms := t.atoms }
        ∧ leNat (rawBytes t off n) = atomNew (8 * n) op old a b % 256 ^ n ∧ SameMemoryBut s t off n
        ∧ Replied s t (homeHalf s off) p tag 0 0 (natLe 8 old)
        ∧ { half := homeHalf s off, src := p.src, seq := p.seq, reply := .rep tag 0 0 (natLe 8 old), born := s.now,
            pinned := p.resent } ∈ t.replay
        ∧ SameObjs s1 t [Obj.replayEarlyEvictions, Obj.atomicCombines])
    ∧ (atomicForm s off op w = true → replayFind s (homeHalf s off) p.src p.seq = none → applies s (homeHalf s off) p age = true →
      regionOf s off = .lpddr ∨ regionOf s off = .tile → linePoison s1 off = true →
      ∃ t v, exec (.atomicRequest q) s = .next t
        ∧ t = { s1 with free := t.free, dic := t.dic, admits := t.admits, routerW := t.routerW, routerE := t.routerE,
                        evicted := t.evicted, replay := t.replay }
        ∧ t.lpddr = s.lpddr ∧ t.tile = s.tile ∧ Replied s t (homeHalf s off) p tag 0 1 (natLe 8 v)
        ∧ SameObjs s1 t [Obj.replayEarlyEvictions])
    ∧ (∀ o, atomicForm s off op w = true → replayFind s (homeHalf s off) p.src p.seq = none →
      applies s (homeHalf s off) p age = true → regionOf s off = .sync → o = (off - syncBase) / 8 →
      ∃ t, exec (.atomicRequest q) s = .next t
        ∧ t = { s with dic := t.dic, sync := t.sync, waiters := t.waiters, claims := t.claims, routerW := t.routerW, routerE := t.routerE,
                       evicted := t.evicted, replay := t.replay }
        ∧ syncGet t o = syncGet s o + BitVec.ofNat 64 a ∧ (∀ i, i ≠ o → syncGet t i = syncGet s i)
        ∧ Replied s t (homeHalf s off) p tag 0 0 (natLe 8 (syncGet s o).toNat) ∧ SameObjs s t [Obj.replayEarlyEvictions])
    ∧ (∀ g st m d, atomicForm s off op w = true →
      (replayFind s (homeHalf s off) p.src p.seq).map Replay.reply = some (.rep g st m d) →
      ∃ t, exec (.atomicRequest q) s = .next t ∧ t = { s with dic := t.dic, admits := t.admits, routerW := t.routerW, routerE := t.routerE }
        ∧ Replied s t (homeHalf s off) p tag st m d ∧ Counted s t Obj.replayHits 1 ∧ SameObjs s t [Obj.replayHits])
    ∧ (atomicForm s off op w = true → replayFind s (homeHalf s off) p.src p.seq = none →
      applies s (homeHalf s off) p age = false →
      ∃ t, exec (.atomicRequest q) s = .next t
        ∧ t = { s with dic := t.dic, admits := t.admits, routerW := t.routerW, routerE := t.routerE, obs := t.obs }
        ∧ Replied s t (homeHalf s off) p tag fabUnknown 0 [] ∧ Counted s t Obj.outcomeUnknown 1
        ∧ SameObjs s t (Obj.outcomeUnknown :: journalObjs) ∧ Logged s t .outcomeUnknown [p.src, p.seq] false)
    ∧ (atomicForm s off op w = false →
      ∃ t, exec (.atomicRequest q) s = .next t ∧ t = { s with dic := t.dic, admits := t.admits, routerW := t.routerW, routerE := t.routerE }
        ∧ Replied s t (homeHalf s off) p tag fabAddress 0 [] ∧ SameObjs s t [0x802001, 0x802002]))
  ∧ (∀ (q : TargetRead) (off tag op age a b : Nat) (w : Bool) (s : State), q.packet.body = .req off tag (.atomic op w age a b) →
    (servesFabric s = false →
      ∃ t, exec (.atomicRequest q) s = .next t ∧ t = { s with routerW := t.routerW, routerE := t.routerE }
        ∧ Replied s t (homeHalf s off) q.packet tag fabNotReady 0 [])
    ∧ (ServedNow s off (if w then 8 else 4) → admitLate s off = true → exec (.atomicRequest q) s = .next s))
  ∧ (∀ (p : Packet) (off tag age n : Nat) (s : State), p.body = .req off tag (.signal age n) → ServedNow s off 8 →
    admitLate s off = false →
    (regionOf s off = .sync → off % 8 = 0 → replayFind s (homeHalf s off) p.src p.seq = none →
      applies s (homeHalf s off) p age = true →
      ∃ t, exec (.remoteSignalRequest p) s = .next t
        ∧ t = { s with dic := t.dic, sync := t.sync, waiters := t.waiters, claims := t.claims, routerW := t.routerW,
                       routerE := t.routerE, evicted := t.evicted, replay := t.replay }
        ∧ syncGet t ((off - syncBase) / 8) = syncGet s ((off - syncBase) / 8) + BitVec.ofNat 64 n
        ∧ (∀ o, o ≠ (off - syncBase) / 8 → syncGet t o = syncGet s o)
        ∧ Replied s t (homeHalf s off) p tag 0 0 [] ∧ (replayFind t (homeHalf s off) p.src p.seq).isSome = true
        ∧ SameObjs s t [Obj.replayEarlyEvictions])
    ∧ (∀ g st m d, regionOf s off = .sync → off % 8 = 0 →
      (replayFind s (homeHalf s off) p.src p.seq).map Replay.reply = some (.rep g st m d) →
      ∃ t, exec (.remoteSignalRequest p) s = .next t ∧ t = { s with dic := t.dic, routerW := t.routerW, routerE := t.routerE }
        ∧ Replied s t (homeHalf s off) p tag st m d ∧ Counted s t Obj.replayHits 1 ∧ SameObjs s t [Obj.replayHits])
    ∧ (regionOf s off ≠ .sync ∨ off % 8 ≠ 0 →
      ∃ t, exec (.remoteSignalRequest p) s = .next t ∧ t = { s with dic := t.dic, admits := t.admits, routerW := t.routerW, routerE := t.routerE }
        ∧ Replied s t (homeHalf s off) p tag fabAddress 0 [] ∧ SameObjs s t [0x802001, 0x802002]))
  ∧ (∀ (p : Packet) (off tag age n : Nat) (s : State), p.body = .req off tag (.signal age n) → servesFabric s = false →
    ∃ t, exec (.remoteSignalRequest p) s = .next t ∧ t = { s with routerW := t.routerW, routerE := t.routerE }
      ∧ Replied s t (homeHalf s off) p tag fabNotReady 0 [])

/-- FABRIC_REPLY_RECEIVE and REPLY_TIMEOUT (R198, R279, R280): a reply that names no outstanding tag is counted late and
changes no request; one that names a tag ends that request, whose tag is free again or, resent, held back; a request not
answered for ReplyTimeoutUs is ended as a failure and counted, not sooner; a remote tail signal that fails is counted and
journalled. -/
def Obligations.RepliesEndRequests : Prop :=
  (∀ (p : Packet) (tag st m : Nat) (d : Bytes) (s : State), p.body = .rep tag st m d →
    (s.outst.find? (fun (o : Outst) => o.tag == tag) = none →
      ∃ t, exec (.fabricReplyReceive p) s = .next t ∧ t = { s with dic := t.dic, routerW := t.routerW, routerE := t.routerE }
        ∧ (∀ h, (routerOf t h).held = (routerOf s h).held) ∧ Counted s t Obj.lateReplies 1 ∧ SameObjs s t [Obj.lateReplies])
    ∧ (∀ o q n, s.outst.find? (fun (o : Outst) => o.tag == tag) = some o → o.who = .tail q n →
      ∃ t, exec (.fabricReplyReceive p) s = .next t ∧ t.outst = s.outst.erase o
        ∧ (p.echo = true → (routerOf t o.half).hot.any (fun (x : Hot) => x.cls == .request && x.dest == o.dest) = true)
        ∧ (p.echo = false → ∀ h, (routerOf t h).hot = (routerOf s h).hot)
        ∧ (o.resent = false → t.tagHold = s.tagHold)
        ∧ (o.resent = true → smGet t.tagHold o.tag = some (s.now + us (objGet s Obj.replyTimeoutUs)))
        ∧ (st = 0 → t = { s with routerW := t.routerW, routerE := t.routerE, outst := t.outst, tagHold := t.tagHold })
        ∧ (st ≠ 0 → t = { s with out := t.out, dic := t.dic, queues := t.queues, routerW := t.routerW, routerE := t.routerE,
                                 outst := t.outst, tagHold := t.tagHold, host := t.host, obs := t.obs }
            ∧ Counted s t Obj.remoteSignalFaults 1 ∧ SameObjs s t (Obj.remoteSignalFaults :: journalObjs)
            ∧ Logged s t .remoteSignalFailed [q, n] false))
    ∧ (∀ o e n i, s.outst.find? (fun (o : Outst) => o.tag == tag) = some o → o.who = .stream e n i → findReq s e n i = none →
      ∃ t, exec (.fabricReplyReceive p) s = .next t ∧ t.outst = s.outst.erase o
        ∧ t = { s with routerW := t.routerW, routerE := t.routerE, outst := t.outst, tagHold := t.tagHold })
    ∧ (∀ o k, s.outst.find? (fun (o : Outst) => o.tag == tag) = some o → o.who = .scan k → PartsOk s → k < 64 →
      ∃ t, exec (.fabricReplyReceive p) s = .next t ∧ t.outst = s.outst.erase o ∧ (vecOf t k).amaxWait = false
        ∧ t = { s with vecs := t.vecs, routerW := t.routerW, routerE := t.routerE, outst := t.outst, tagHold := t.tagHold }))
  ∧ (∀ (p : Packet) (id : Nat) (s : State), p.body = .collEcho id →
    ∃ t, exec (.fabricReplyReceive p) s = .next t ∧ t = { s with routerW := t.routerW, routerE := t.routerE }
      ∧ (routerOf t (if id % 2 = 0 then .w else .e)).hot.any (fun (x : Hot) => x.cls == .coll && x.dest == p.src) = true)
  ∧ (∀ (tag : Nat) (o : Outst) (s : State), s.outst.find? (fun (o : Outst) => o.tag == tag) = some o →
    (s.now < o.since + us (objGet s Obj.replyTimeoutUs) → exec (.replyTimeout tag) s = .next s)
    ∧ (∀ q n, o.since + us (objGet s Obj.replyTimeoutUs) ≤ s.now → o.who = .tail q n →
      ∃ t, exec (.replyTimeout tag) s = .next t ∧ t.outst = s.outst.erase o
        ∧ t = { s with out := t.out, dic := t.dic, queues := t.queues, outst := t.outst, tagHold := t.tagHold, host := t.host,
                       obs := t.obs }
        ∧ Counted s t Obj.fabReplyTimeouts 1 ∧ Counted s t Obj.remoteSignalFaults 1
        ∧ SameObjs s t ([Obj.fabReplyTimeouts, Obj.remoteSignalFaults] ++ journalObjs)
        ∧ Logged s t .remoteSignalFailed [q, n] false)
    ∧ (∀ k, o.since + us (objGet s Obj.replyTimeoutUs) ≤ s.now → o.who = .scan k → PartsOk s → k < 64 →
      ∃ t, exec (.replyTimeout tag) s = .next t ∧ t.outst = s.outst.erase o ∧ (vecOf t k).amaxWait = false
        ∧ t = { s with dic := t.dic, vecs := t.vecs, outst := t.outst, tagHold := t.tagHold }
        ∧ Counted s t Obj.fabReplyTimeouts 1 ∧ SameObjs s t [Obj.fabReplyTimeouts])
    ∧ (∀ e n i, o.since + us (objGet s Obj.replyTimeoutUs) ≤ s.now → o.who = .stream e n i → findReq s e n i = none →
      ∃ t, exec (.replyTimeout tag) s = .next t ∧ t = { s with dic := t.dic, outst := s.outst.erase o, tagHold := t.tagHold }
        ∧ Counted s t Obj.fabReplyTimeouts 1 ∧ SameObjs s t [Obj.fabReplyTimeouts]))
  ∧ (∀ (tag : Nat) (s : State), s.outst.find? (fun (o : Outst) => o.tag == tag) = none → exec (.replyTimeout tag) s = .next s)

/-- WINDOW_OPEN, WINDOW_MODIFY and WINDOW_CLOSE (R273): a valid entry takes the lowest free index, which the command returns,
or replaces an open window; a close frees the index; a command that is refused ends with its status and changes no window.
REPLAY_ENTRY_EXPIRE, ATOMIC_UNIT_WRITEBACK and RCACHE_INVALIDATE (R282, R285, R289): a replay entry of 4 ms is evicted, not a
younger one; a word idle for 100 ns leaves its unit, no other; an invalidate drops what its range holds in the serving halves,
and the fills still to come for it, and completes with one record; a rejected one invalidates nothing. -/
def Obligations.WindowsReplayAndCachesKept : Prop :=
  (∀ s : State, s.host.busy = true → isReady s = true →
    (s.host.running = 0x10 →
      (∀ i, winRefusal s 0 = none → freeWindow s = some i →
        ∃ t, exec .windowOpen s = .next t
          ∧ t = { s with out := t.out, windows := smSet s.windows i (winArg s 0), host := t.host } ∧ MailboxEnded t 0
          ∧ t.host.results = s.host.results.set 0 (BitVec.ofNat 64 i) ∧ smGet s.windows i = none)
      ∧ (winRefusal s 0 = none → freeWindow s = none →
        ∃ t, exec .windowOpen s = .next t ∧ t = { s with out := t.out, host := t.host } ∧ MailboxEnded t 0x25)
      ∧ (∀ e, winRefusal s 0 = some e →
        ∃ t, exec .windowOpen s = .next t ∧ t = { s with out := t.out, host := t.host } ∧ MailboxEnded t e))
    ∧ (s.host.running = 0x11 →
      (winRefusal s 1 = none → (smGet s.windows (mbxArg s 0)).isSome = true →
        ∃ t, exec .windowModify s = .next t
          ∧ t = { s with out := t.out, windows := smSet s.windows (mbxArg s 0) (winArg s 1), host := t.host } ∧ MailboxEnded t 0)
      ∧ (winRefusal s 1 = none → smGet s.windows (mbxArg s 0) = none →
        ∃ t, exec .windowModify s = .next t ∧ t = { s with out := t.out, host := t.host } ∧ MailboxEnded t 3)
      ∧ (∀ e, winRefusal s 1 = some e →
        ∃ t, exec .windowModify s = .next t ∧ t = { s with out := t.out, host := t.host } ∧ MailboxEnded t e))
    ∧ (s.host.running = 0x12 →
      ((smGet s.windows (mbxArg s 0)).isSome = true →
        ∃ t, exec .windowClose s = .next t
          ∧ t = { s with out := t.out, windows := smErase s.windows (mbxArg s 0), host := t.host } ∧ MailboxEnded t 0)
      ∧ (smGet s.windows (mbxArg s 0) = none →
        ∃ t, exec .windowClose s = .next t ∧ t = { s with out := t.out, host := t.host } ∧ MailboxEnded t 3)))
  ∧ (∀ s : State, s.host.busy = false → exec .windowOpen s = .next s ∧ exec .windowModify s = .next s ∧ exec .windowClose s = .next s)
  ∧ (∀ (h : Half) (src seq : Nat) (s : State), replayFind s h src seq = none → exec (.replayEntryExpire h src seq) s = .next s)
  ∧ (∀ (h : Half) (src seq : Nat) (x : Replay) (s : State), replayFind s h src seq = some x →
    (4000 ≤ replayAge s x →
      ∃ t, exec (.replayEntryExpire h src seq) s = .next t ∧ t = { s with replay := s.replay.erase x, evicted := t.evicted })
    ∧ (replayAge s x < 4000 → exec (.replayEntryExpire h src seq) s = .next s))
  ∧ (∀ (a : Nat) (s : State),
    ∃ t, exec (.atomicUnitWriteback a) s = .next t ∧ t = { s with atoms := t.atoms }
      ∧ ∀ x : HeldWord, x ∈ t.atoms ↔ x ∈ s.atoms ∧ ¬ (x.addr = a ∧ x.last + 100 ≤ s.now))
  ∧ (∀ (q : Nat) (s : State) (v : Queue) (f : Fetched), smGet s.queues q = some v →
    v.fetched.find? (fun f => opcode f.words == 0x42 && schedulerOwn s q v.halves f) = some f →
    (∀ h, todoIn f h = true → schedReady s h q f = (s, true)) → rciReject f.words = none →
    (∀ g ∈ v.fetched, g.seq = f.seq → g = f) →
    ∃ t v', exec (.rcacheInvalidate q) s = .next t ∧ smGet t.queues q = some v'
      ∧ v'.outstanding = (if slotReady s v 0 then v.outstanding else v.outstanding + 1)
      ∧ (∀ g ∈ v'.fetched, g.seq ≠ f.seq)
      ∧ (∀ x : CacheLine, x ∈ t.rcache ↔ x ∈ s.rcache ∧ ¬ (serves v.halves x.half = true ∧ rciHits f.words x.chip x.granule = true))
      ∧ (∀ o ∈ t.outst, o ∈ s.outst ∨ o.fillOk = false) ∧ Counted s t Obj.rCacheInvalidations 1
      ∧ SameObjs s t (Obj.rCacheInvalidations :: tailObjs)
      ∧ t = { s with free := t.free, out := t.out, dic := t.dic, layers := t.layers, tile := t.tile, tilePoison := t.tilePoison,
                     lpddr := t.lpddr, lpddrPoison := t.lpddrPoison, lpddrBad := t.lpddrBad, chans := t.chans, claims := t.claims,
                     queues := t.queues, sync := t.sync, waiters := t.waiters, routerW := t.routerW, routerE := t.routerE,
                     outst := t.outst, nextTag := t.nextTag, rcache := t.rcache, host := t.host, obs := t.obs })
  ∧ (∀ (q st : Nat) (s : State) (v : Queue) (f : Fetched), smGet s.queues q = some v →
    v.fetched.find? (fun f => opcode f.words == 0x42 && schedulerOwn s q v.halves f) = some f →
    (∀ h, todoIn f h = true → schedReady s h q f = (s, true)) → rciReject f.words = some st →
    (∀ g ∈ v.fetched, g.seq = f.seq → g = f) → f.inLayer = false →
    ∃ t, exec (.rcacheInvalidate q) s = .next t ∧ EndFrame s t q ∧ SameObjs s t tailObjs ∧ t.rcache = s.rcache)
  ∧ (∀ (q : Nat) (s : State), (∀ v, smGet s.queues q = some v →
      v.fetched.find? (fun f => opcode f.words == 0x42 && schedulerOwn s q v.halves f) = none) →
    exec (.rcacheInvalidate q) s = .next s)

/-- COLLECTIVE_ISSUE and COLLECTIVE_ACTIVATE (R293, R295, R297): the next collective descriptor of half W, or else of half E,
that its rules accept waits to become active and is outstanding; one that they reject completes and starts nothing. The first
one waiting in a half becomes active while fewer than 256 are active there and its gather maps fit; otherwise it waits.
COLL_LOCAL_INPUT (R301): a member that sends its local input bare sends the 32 packets of the segment to the next rank, once;
without an active collective, or while its tail wait does not hold, nothing happens. COLL_PACKET_RECEIVE and
GREY_SEGMENT_REDUCE (R301, R302, R304, R305, R309), where the memory of this member's output takes writes: a packet of a chunk
that is done is counted and dropped; a new input of a segment with a slot is combined there under its rank; one of a
collective not active here opens its pending entry and keeps its input in a slot; one of a collective that has ended is
counted late; a result not seen before is written where the output stands, and nowhere else. A grey packet at the owner opens
its entry while the collective's grey buffer has room; a grey segment that is complete gives up its entries; without entries
nothing happens. -/
def Obligations.CollectivesIssuedAndCombined : Prop :=
  (∀ (h : Half) (s : State) (v : Queue) (f : Fetched), h = .w ∨ issueColl s .w = (s, false) → smGet s.queues collQ = some v →
    (candidates s collQ v h).find? (fun f => schedulerOwn s collQ v.halves f) = some f → mayIssue s h = true → v.state = 1 →
    slotFree v = true →
    (colReject s f.words = none →
      ∃ t v', exec .collectiveIssue s = .next t
        ∧ t = { s with dic := t.dic, queues := t.queues, waiters := t.waiters, colls := t.colls, ended := t.ended }
        ∧ t.colls = s.colls ++ [{ id := colId f.words, d := { queue := collQ, seq := f.seq, words := f.words }, since := s.now }]
        ∧ smGet t.queues collQ = some v' ∧ v'.outstanding = v.outstanding + 1 ∧ (∀ e ∈ t.ended, e.coll ≠ colId f.words)
        ∧ (∀ q, q ≠ collQ → smGet t.queues q = smGet s.queues q) ∧ SameObjs s t [Obj.waitTableFullEvents])
    ∧ (∀ st, colReject s f.words = some st →
      ∃ t v', exec .collectiveIssue s = .next t ∧ EndFrame s t collQ ∧ smGet t.queues collQ = some v'
        ∧ v'.outstanding = (if slotReady s v 0 then v.outstanding else v.outstanding + 1) ∧ SameObjs s t tailObjs))
  ∧ (∀ s : State, smGet s.queues collQ = none → exec .collectiveIssue s = .next s)
  ∧ (∀ (h : Half) (s : State) (c : Coll), s.colls.find? (fun (c : Coll) => !c.active && colHalf c.id == h) = some c →
    (activeIn s h < 256 → mapsUsed s h + colDepth c.d.words ≤ 512 → pendOf s c.id = none → (∀ x ∈ s.slots, x.coll ≠ c.id) →
      ∃ t, exec (.collectiveActivate h) s = .next t ∧ t = { s with colls := t.colls }
        ∧ t.colls = s.colls.map (fun (x : Coll) => if x.id = c.id then { x with active := true, grey := [], passed := [] } else x))
    ∧ (activeIn s h < 256 → mapsUsed s h + colDepth c.d.words ≤ 512 →
      ∃ t, exec (.collectiveActivate h) s = .next t ∧ pendOf t c.id = none
        ∧ SameObjs s t ([Obj.collDuplicates, Obj.greyOverflows, Obj.greyChunks] ++ tailObjs) ∧ CollFrame s t)
    ∧ (256 ≤ activeIn s h ∨ 512 < mapsUsed s h + colDepth c.d.words → exec (.collectiveActivate h) s = .next s))
  ∧ (∀ (h : Half) (s : State), s.colls.find? (fun (c : Coll) => !c.active && colHalf c.id == h) = none →
    exec (.collectiveActivate h) s = .next s)
  ∧ (∀ (id c seg : Nat) (s : State) (x : Coll), activeColl s id = some x → colId x.d.words = id →
    (hasWait s collQ x.d.seq = true ∨ x.localDone.contains (c, seg) = true ∨ chunkDone x c = true →
      exec (.collLocalInput id c seg) s = .next s)
    ∧ (∀ g o, g = levelGroup s x.d.words 0 → o = ownerOf s x.d.words 0 c → hasWait s collQ x.d.seq = false →
      c < colChunks x.d.words → seg < segsIn x.d.words c → x.localDone.contains (c, seg) = false → chunkDone x c = false →
      c < x.signalled + colDepth x.d.words → isSpread x.d.words = false → sendsBare g o c g.own = true → g.own ≠ o →
      slotOf s id 0 c seg = none → writesOut s x.d.words c = true → x.outSegs.contains (c, seg) = false →
      EngineReads s (srcSeg s x.d.words c seg) (segBytes (inFmt x.d.words) (inScaled x.d.words)) → OutputFree s x.d.words c seg →
      ∃ t ps k, exec (.collLocalInput id c seg) s = .next t
        ∧ t = { s with colls := t.colls, routerW := t.routerW, routerE := t.routerE }
        ∧ (routerOf t (colHalf id)).held = (routerOf s (colHalf id)).held ++ ps ∧ ps.length = 32
        ∧ (∀ y ∈ ps, y.p.dest = g.chipOf (partialTo g o c g.own) ∧ y.p.vc = 7)
        ∧ activeColl t id = some k ∧ (c, seg) ∈ k.localDone ∧ (0, c, seg) ∈ k.sentSegs))
  ∧ (∀ (id c seg : Nat) (s : State), activeColl s id = none → exec (.collLocalInput id c seg) s = .next s)
  ∧ (∀ (id c seg : Nat) (s : State), ∃ t, exec (.collLocalInput id c seg) s = .next t ∧ CollFrame s t)
  ∧ (∀ (p : Packet) (h : CollHdr) (s : State) (x : Coll), p.body = .coll h → p.mark = false → activeColl s h.collId = some x →
    colId x.d.words = h.collId → OutputFree s x.d.words h.chunk h.segment →
    (chunkDone x h.chunk = true →
      ∃ t, exec (.collPacketReceive p) s = .next t
        ∧ t = { s with dic := t.dic, routerW := t.routerW, routerE := t.routerE, colls := t.colls }
        ∧ Counted s t Obj.collDuplicates 1 ∧ SameObjs s t [Obj.collDuplicates])
    ∧ (∀ g y, chunkDone x h.chunk = false → h.kind = .partialSum → g = levelGroup s x.d.words h.level →
      g.own = ownerOf s x.d.words h.level h.chunk → slotOf s h.collId h.level h.chunk h.segment = some y →
      x.sentSegs.contains (h.level, h.chunk, h.segment) = false → smGet y.got (256 * h.position + h.sender) = none →
      h.sender < 256 → (∃ i, i < 32 ∧ i ≠ h.position ∧ slotCount y i ≠ g.members) → h.segment < segsIn x.d.words h.chunk →
      writesOut s x.d.words h.chunk = true → x.outSegs.contains (h.chunk, h.segment) = false →
      ∃ t z, exec (.collPacketReceive p) s = .next t
        ∧ t = { s with routerW := t.routerW, routerE := t.routerE, colls := t.colls, slots := t.slots }
        ∧ slotOf t h.collId h.level h.chunk h.segment = some z
        ∧ z.got = smSet y.got (256 * h.position + h.sender) h.count
        ∧ z.acc = (combineVals x.d.words [] (packetVals h) (64 * h.position) { y with got := z.got } x.res).1.acc)
    ∧ (∀ a, chunkDone x h.chunk = false → h.kind = .result → ¬ (h.sender = ownRank s x.d.words h.level ∧ h.owner = chip s) →
      x.gotRes.contains (h.level, h.chunk, h.segment, h.position) = false → x.outSegs.contains (h.chunk, h.segment) = false →
      writesOut s x.d.words h.chunk = true → outScaled x.d.words = false → h.segment < segsIn x.d.words h.chunk →
      (∃ i, i < resultPackets x.d.words ∧ i ≠ h.position ∧ x.gotRes.contains (h.level, h.chunk, h.segment, i) = false) →
      a = dstSeg s x.d.words h.chunk h.segment + 256 * h.position → a % 64 = 0 → plainRun s a 256 = true → h.data.length = 64 →
      MemOk s →
      ∃ t, exec (.collPacketReceive p) s = .next t
        ∧ t = { s with free := t.free, dic := t.dic, tile := t.tile, tilePoison := t.tilePoison, lpddr := t.lpddr,
                       lpddrPoison := t.lpddrPoison, lpddrBad := t.lpddrBad, chans := t.chans, routerW := t.routerW,
                       routerE := t.routerE, colls := t.colls }
        ∧ rawBytes t a 256 = bytes32 h.data ∧ SameMemoryBut s t a 256 ∧ SameObjs s t [Obj.memDimStalledRequests]))
  ∧ (∀ (p : Packet) (h : CollHdr) (s : State), p.body = .coll h → p.mark = false → activeColl s h.collId = none →
    (s.ended.any (fun (e : Ended) => e.coll == h.collId) = true →
      ∃ t, exec (.collPacketReceive p) s = .next t ∧ t = { s with dic := t.dic, routerW := t.routerW, routerE := t.routerE }
        ∧ Counted s t Obj.collLateDrops 1 ∧ SameObjs s t [Obj.collLateDrops])
    ∧ (s.ended.any (fun (e : Ended) => e.coll == h.collId) = false → pendOf s h.collId = none → h.kind = .partialSum →
      slotOf s h.collId h.level h.chunk h.segment = none → slotsIn s (colHalf h.collId) < 2048 →
      ∃ t y, exec (.collPacketReceive p) s = .next t
        ∧ t = { s with routerW := t.routerW, routerE := t.routerE, slots := t.slots, pendColls := t.pendColls }
        ∧ t.pendColls = s.pendColls ++ [{ half := colHalf h.collId, coll := h.collId, since := s.now }]
        ∧ slotOf t h.collId h.level h.chunk h.segment = some y ∧ y.parts = [(h.position, packetVals h)]
        ∧ smGet y.got (256 * h.position + h.sender) = some h.count))
  ∧ (∀ (id level c seg : Nat) (s : State) (x : Coll), activeColl s id = some x →
    (greysOf s id level c seg = [] → exec (.greySegmentReduce id level c seg) s = .next s)
    ∧ ((levelGroup s x.d.words level).own = ownerOf s x.d.words level c → greysOf s id level c seg ≠ [] →
      x.sentSegs.contains (level, c, seg) = false → OutputFree s x.d.words c seg →
      (∀ pos, pos < 32 → coverage s id level c seg pos = (levelGroup s x.d.words level).members) →
      ∃ t, exec (.greySegmentReduce id level c seg) s = .next t ∧ (∀ e ∈ greysOf s id level c seg, e ∉ t.greys)
        ∧ SameObjs s t ([Obj.collDuplicates, Obj.greyChunks] ++ tailObjs) ∧ CollFrame s t))
  ∧ (∀ (id level c seg : Nat) (s : State), activeColl s id = none → exec (.greySegmentReduce id level c seg) s = .next s)
  ∧ (∀ (p : Packet) (s : State), ∃ t, exec (.collPacketReceive p) s = .next t ∧ CollFrame s t)
  ∧ (∀ (id c seg level : Nat) (x : Coll) (p : Packet) (h : CollHdr) (s : State), p.body = .coll h → p.mark = false →
    h = { h with collId := id, chunk := c, segment := seg, level := level, kind := .grey } → activeColl s id = some x →
    colId x.d.words = id → OutputFree s x.d.words c seg → chunkDone x c = false → x.sentSegs.contains (level, c, seg) = false →
    (greysOf s id level c seg).find? (fun e => e.sender == h.sender) = none →
    8256 * ((s.greys.filter (fun (e : Grey) => e.coll == x.id)).length + 1) ≤ colGreyBytes x.d.words →
    ∃ t e, exec (.collPacketReceive p) s = .next t ∧ t = { s with routerW := t.routerW, routerE := t.routerE, greys := s.greys ++ [e] }
      ∧ e.coll = id ∧ e.level = level ∧ e.chunk = c ∧ e.segment = seg ∧ e.sender = h.sender ∧ e.counts = [(h.position, h.count)])

/-- COLL_WATCHDOG_EXPIRE, COLL_ABORT, PENDING_ENTRY_EXPIRE and COLL_GROUP_TABLE_COMMIT (R294, R308, R309): a collective whose
watchdog has expired, or that CollAbort names, is counted, leaves the engine with everything it held there, is kept as ended
with the ranks it misses, and its descriptor completes; a pending entry not adopted in time is dropped with its slots and
counted; a group table takes effect unless it changes an entry that an active collective names, which is refused. -/
def Obligations.CollectivesEndAndPendingEntriesExpire : Prop :=
  (∀ (id : Nat) (s : State) (x : Coll), collOf s id = some x →
    (s.now < x.since + ms (collWatch s x) → exec (.collWatchdogExpire id) s = .next s)
    ∧ (x.since + ms (collWatch s x) ≤ s.now →
      ∃ t, exec (.collWatchdogExpire id) s = .next t ∧ collOf t id = none ∧ (∀ y ∈ t.slots, y.coll ≠ id)
        ∧ (∀ y ∈ t.greys, y.coll ≠ id)
        ∧ { coll := id, ranks0 := missingAt s x.d.words x 0, ranks1 := missingAt s x.d.words x 1 } ∈ t.ended
        ∧ (∀ y ∈ s.colls, y.id ≠ id → y ∈ t.colls) ∧ OneCompleted s t x.d.queue ∧ Counted s t Obj.collTimeouts 1
        ∧ SameObjs s t (Obj.collTimeouts :: tailObjs) ∧ CollFrame s t))
  ∧ (∀ (id : Nat) (s : State), collOf s id = none → exec (.collWatchdogExpire id) s = .next s)
  ∧ (∀ s : State, s.host.busy = false → exec .collAbort s = .next s)
  ∧ (∀ (id : Nat) (s : State), pendOf s id = none → exec (.pendingEntryExpire id) s = .next s)
  ∧ (∀ s : State, s.host.busy = true → s.host.running = 4 → isReady s = true →
    (∀ x, mbxArg s 0 < 2 ^ 16 → collOf s (mbxArg s 0) = some x →
      ∃ t, exec .collAbort s = .next t ∧ MailboxEnded t 0 ∧ collOf t (mbxArg s 0) = none ∧ OneCompleted s t x.d.queue
        ∧ Counted s t Obj.collTimeouts 1 ∧ SameObjs s t (Obj.collTimeouts :: tailObjs) ∧ CollFrame s t)
    ∧ (mbxArg s 0 < 2 ^ 16 → collOf s (mbxArg s 0) = none →
      ∃ t, exec .collAbort s = .next t ∧ t = { s with out := t.out, host := t.host } ∧ MailboxEnded t 4)
    ∧ (2 ^ 16 ≤ mbxArg s 0 →
      ∃ t, exec .collAbort s = .next t ∧ t = { s with out := t.out, host := t.host } ∧ MailboxEnded t 1))
  ∧ (∀ (id : Nat) (s : State) (p : PendColl), pendOf s id = some p →
    (s.now < p.since + ms (objGet s Obj.collWatchdogMs) → exec (.pendingEntryExpire id) s = .next s)
    ∧ (p.since + ms (objGet s Obj.collWatchdogMs) ≤ s.now →
      ∃ t, exec (.pendingEntryExpire id) s = .next t ∧ t = { s with dic := t.dic, slots := t.slots, pendColls := t.pendColls }
        ∧ t.pendColls = s.pendColls.filter (fun (x : PendColl) => x.coll != id) ∧ t.slots = s.slots.filter (fun (x : Slot) => x.coll != id) ∧ Counted s t Obj.collOrphans 1
        ∧ SameObjs s t [Obj.collOrphans]))
  ∧ (∀ (r : Route) (handle : Nat) (digest : Bytes) (s : State) (x : Xfer) (role : Role) (row : ObjRow) (s0 : State),
    CommitReady s r false Obj.collGroupTable handle digest x role row s0 → x.size = 540672 →
    (groupsHeld s0 (xferImage x) = false →
      exec (.collGroupTableCommit r handle digest) s = .next (answered s r (heldKey s r) ⟨imageIn s0 r role row x, 0, []⟩)
        ∧ domGet (imageIn s0 r role row x) Obj.collGroupTable = xferImage x)
    ∧ (groupsHeld s0 (xferImage x) = true →
      exec (.collGroupTableCommit r handle digest) s = .next (answered s r (heldKey s r) ⟨dropXfer s0 x.handle, 0x08, []⟩)))

/-- CONFIG_REQUEST, MAILBOX_UNKNOWN_COMMAND, MSIX_UNMASK and REGISTER_WRITE (R311, R313, R316 to R320): before Ready and
within 100 ms of a host-facing reset a configuration request is answered with retry status and nothing else; otherwise the
identity reads as the spec gives it and the enables take their value; a command no table names ends with status 2; a vector
that is unmasked and pending is sent once; Go starts a command with its arguments as they stand, or is counted and ignored
while one runs; arguments, Done, the interrupt register and the data port's address are written as their layout says.
DATA_PORT_WRITE, DATA_PORT_READ and BAR2_ACCESS (R320, R321, R327, R344): outside Ready an access of the Local domain is not
applied and sets AddrError; a write stores its bytes at the port's line and nowhere else, a read returns the bytes there; one
at a line that the host may cache waits; the port serves an open Host transfer in its declared size; an access through BAR2
reads or writes exactly its bytes in Ready, and does nothing outside it. -/
def Obligations.HostRegistersAndPortsServed : Prop :=
  (∀ (c : ConfigOp) (s : State), cfgRetry s = true → exec (.configRequest c) s = .next { s with out := s.out ++ [.config none] })
  ∧ (∀ (reg : Nat) (s : State), cfgRetry s = false →
    exec (.configRequest (.read reg)) s
        = .next { s with out := s.out ++ [.config (some (cfgDword s reg))], free := s.free + 1 }
      ∧ (reg = 0x00 → cfgDword s reg = 0x0D201FD7) ∧ (reg = 0x08 → cfgDword s reg / 256 = 0x120000)
      ∧ (reg = 0x2C → cfgDword s reg = 0x00011FD7))
  ∧ (∀ (on : Bool) (s : State), cfgRetry s = false →
    (∃ t, exec (.configRequest (.atsEnable on)) s = .next t ∧ t = { s with out := s.out ++ [.config (some 0)], host := t.host }
        ∧ t.host = { s.host with atsEnable := on, ats := if on then s.host.ats else [] })
    ∧ (∃ t, exec (.configRequest (.msixEnable on)) s = .next t ∧ t = { s with out := t.out, host := t.host }
        ∧ t.host = { s.host with msixEnable := on, msixPend := t.host.msixPend }
        ∧ (on = false → t.host.msixPend = s.host.msixPend)
        ∧ (on = true → ∀ v, v ∈ s.host.msixPend → nsHas s.host.msixOpen v = true → .msix v ∈ t.out ∧ nsHas t.host.msixPend v = false)))
  ∧ (∀ s : State, s.host.busy = true →
    (mbxCommands.contains s.host.running = false →
      ∃ t, exec .mailboxUnknownCommand s = .next t ∧ t = { s with out := t.out, host := t.host } ∧ MailboxEnded t 2)
    ∧ (mbxCommands.contains s.host.running = true → exec .mailboxUnknownCommand s = .next s))
  ∧ (∀ s : State, s.host.busy = false → exec .mailboxUnknownCommand s = .next s)
  ∧ (∀ (v : Nat) (s : State), v < 2048 →
    ∃ t, exec (.msixUnmask (some v)) s = .next t ∧ t = { s with out := t.out, host := t.host }
      ∧ t.host = { s.host with msixOpen := nsAdd s.host.msixOpen v, msixPend := t.host.msixPend }
      ∧ (s.host.msixEnable = true → v ∈ s.host.msixPend → .msix v ∈ t.out ∧ nsHas t.host.msixPend v = false)
      ∧ (s.host.msixEnable = false → t.out = s.out ∧ t.host.msixPend = s.host.msixPend))
  ∧ (∀ s : State, ∃ t, exec (.msixUnmask none) s = .next t ∧ t = { s with out := t.out, host := t.host }
      ∧ t.host = { s.host with msixEnable := true, msixPend := t.host.msixPend })
  ∧ (∀ (v : Nat) (s : State), v < 2 ^ 33 → natBit 32 v = true →
    (s.host.busy = false → exec (.registerWrite 0x400000 8 v) s = .next { s with host := { s.host with
        command := v % 2 ^ 16, tag := v / 2 ^ 16 % 2 ^ 16, busy := true, done := false, running := v % 2 ^ 16,
        runTag := v / 2 ^ 16 % 2 ^ 16, runArgs := s.host.args, runPayload := s.host.payload } })
    ∧ (s.host.busy = true →
      ∃ t, exec (.registerWrite 0x400000 8 v) s = .next t ∧ t = { s with host := t.host, dic := t.dic }
        ∧ t.host = { s.host with command := v % 2 ^ 16, tag := v / 2 ^ 16 % 2 ^ 16 } ∧ Counted s t Obj.mbxIgnored 1
        ∧ SameObjs s t [Obj.mbxIgnored]))
  ∧ (∀ (i v : Nat) (s : State), i < 8 → v < 2 ^ 64 →
    exec (.registerWrite (0x400040 + 8 * i) 8 v) s
      = .next { s with host := { s.host with args := s.host.args.set i (BitVec.ofNat 64 v) } })
  ∧ (∀ (v : Nat) (s : State), v < 2 ^ 64 →
    exec (.registerWrite 0x400008 8 v) s = .next { s with host := { s.host with done := s.host.done && !natBit 1 v } }
    ∧ exec (.registerWrite 0x400010 8 v) s = .next { s with host := { s.host with vector := v % 2048, irqEn := natBit 11 v } }
    ∧ exec (.registerWrite 0x401000 8 v) s = .next { s with host := { s.host with dpAddr := v / 64 * 64 } })
  ∧ (∀ (off n v : Nat) (s : State), 0x418000 ≤ off → exec (.registerWrite off n v) s = .next s)
  ∧ (∀ (d v : Nat) (s : State), d < 8192 → v < 2 ^ 32 →
    ∃ t, exec (.registerWrite (0x410000 + 4 * d) 4 v) s = .next t ∧ t = { s with out := t.out, host := t.host }
      ∧ t.host = { s.host with msixTable := smSet s.host.msixTable d v, msixOpen := t.host.msixOpen, msixPend := t.host.msixPend }
      ∧ (d % 4 ≠ 3 → t.host.msixOpen = s.host.msixOpen ∧ t.out = s.out ∧ t.host.msixPend = s.host.msixPend)
      ∧ (d % 4 = 3 → nsHas t.host.msixOpen (d / 4) = !natBit 0 v))
  ∧ (∀ (o b : Nat) (s : State), o < 0xF00 → b < 256 →
    exec (.registerWrite (0x400100 + o) 1 b) s
      = .next { s with host := { s.host with payload := smSet s.host.payload o (BitVec.ofNat 8 b) } })
  ∧ (∀ (first off n : Nat) (data : Bytes) (poison : Bool) (s : State), s.host.domain = false → n = data.length → 0 < n →
    first + n ≤ 64 → spaceOf s.host.dpAddr = .localOff off →
    (isReady s = false →
      exec (.dataPortWrite first data poison) s = .next { s with host := { s.host with addrError := true } }
      ∧ ∀ ev, exec (.dataPortRead first ⟨n, ev⟩) s = .next { s with
          host := { s.host with addrError := true }, out := s.out ++ [.busData (List.replicate n 0) false] })
    ∧ (isReady s = true → regionOf s off = .lpddr ∨ regionOf s off = .tile → off % 64 = 0 → dpTracked s off = false →
      linePoison s off = false → dimLine s off 64 = none → MemOk s →
      (∃ t, exec (.dataPortWrite first data poison) s = .next t
        ∧ t = { s with tile := t.tile, tilePoison := t.tilePoison, lpddr := t.lpddr, lpddrPoison := t.lpddrPoison,
                       lpddrBad := t.lpddrBad, chans := t.chans, host := t.host }
        ∧ rawBytes t (off + first) n = data ∧ SameMemoryBut s t (off + first) n ∧ linePoison t off = poison
        ∧ t.host = { s.host with dpAddr := if s.host.autoInc = true ∧ 64 ≤ first + n then (s.host.dpAddr + 64) % 2 ^ 64
                                           else s.host.dpAddr })
      ∧ (∃ t, exec (.dataPortRead first ⟨n, []⟩) s = .next t
        ∧ t = { s with out := s.out ++ [.busData (rawBytes s (off + first) n) false], free := t.free, host := t.host }
        ∧ t.host = { s.host with dpAddr := if s.host.autoInc = true ∧ 64 ≤ first + n then (s.host.dpAddr + 64) % 2 ^ 64
                                           else s.host.dpAddr }))
    ∧ (isReady s = true → regionOf s off = .lpddr → off % 64 = 0 → dpTracked s off = true →
      (∃ t, exec (.dataPortWrite first data poison) s = .next t ∧ t = { s with out := t.out, host := t.host }
        ∧ t.host.waits = s.host.waits ++ [.dataPort (off / 64) (some (data, poison)) first n []]
        ∧ t.host.bisnp.any (fun b => b.1 == off / 64) = true)
      ∧ ∀ ev, ∃ t, exec (.dataPortRead first ⟨n, ev⟩) s = .next t ∧ t = { s with out := t.out, host := t.host }
        ∧ t.host.waits = s.host.waits ++ [.dataPort (off / 64) none first n ev]
        ∧ t.host.bisnp.any (fun b => b.1 == off / 64) = true)
    ∧ (isReady s = true → regionOf s off = .lpddr → off % 64 = 0 → dpTracked s off = false → (dimLine s off 64).isSome = true →
      ∀ ev, ∃ t, exec (.dataPortRead first ⟨n, ev⟩) s = .next t ∧ t = { s with dic := t.dic, host := t.host }
        ∧ t.host.waits = s.host.waits ++ [.dataPort (off / 64) none first n ev] ∧ Counted s t Obj.memDimStalledRequests 1
        ∧ SameObjs s t [Obj.memDimStalledRequests])
    ∧ (isReady s = true → regionOf s off = .reserved →
      (∃ t, exec (.dataPortWrite first data poison) s = .next t ∧ t = { s with dic := t.dic, host := t.host }
        ∧ t.host = { s.host with addrError := true } ∧ Counted s t (fabAddrErrorKey (homeHalf s off)) 1
        ∧ SameObjs s t [fabAddrErrorKey (homeHalf s off)])
      ∧ ∀ ev, ∃ t, exec (.dataPortRead first ⟨n, ev⟩) s = .next t
        ∧ t = { s with dic := t.dic, host := { s.host with addrError := true },
                       out := s.out ++ [.busData (List.replicate n 0) false] }
        ∧ Counted s t (fabAddrErrorKey (homeHalf s off)) 1 ∧ SameObjs s t [fabAddrErrorKey (homeHalf s off)]))
  ∧ (∀ (first n at_ : Nat) (data : Bytes) (s : State) (x : Xfer), s.host.domain = true → n = data.length → 0 < n →
    first + n ≤ 64 → hostXfer s (dpKey s.host.dpAddr) = some x → dpDomainOk s = true → at_ = dpOff s.host.dpAddr + first →
    at_ + n ≤ x.size →
    (x.write = true → x.key ≠ Obj.firmwareBank →
      ∃ t y, exec (.dataPortWrite first data false) s = .next t ∧ t = { s with mgmt := t.mgmt, host := t.host }
        ∧ t.mgmt = { s.mgmt with xfers := t.mgmt.xfers } ∧ hostXfer t (dpKey s.host.dpAddr) = some y
        ∧ y = { x with image := y.image, got := max x.got (at_ + n), last := s.now }
        ∧ (∀ i, i < n → smGet y.image (at_ + i) = some (data.getD i 0))
        ∧ (∀ k, k < at_ ∨ at_ + n ≤ k → smGet y.image k = smGet x.image k))
    ∧ (x.write = false →
      ∀ ev, ∃ t, exec (.dataPortRead first ⟨n, ev⟩) s = .next t
        ∧ t = { s with mgmt := t.mgmt, host := t.host,
                       out := s.out ++ [.busData ((List.range n).map (fun i => smGetD x.image (at_ + i) 0)) false] }))
  ∧ (∀ (off o n : Nat) (data : Bytes) (poison : Bool) (s : State), o = s.host.bar2Base + off → n = data.length →
    (isReady s = false →
      exec (.bar2Access off (.write data poison)) s = .next s ∧ ∀ ev, exec (.bar2Access off (.read n ev)) s = .next s)
    ∧ (n = 0 ∨ s.host.bar2GiB * 2 ^ 30 < off + n →
      exec (.bar2Access off (.write data poison)) s = .next s ∧ ∀ ev, exec (.bar2Access off (.read n ev)) s = .next s)
    ∧ (isReady s = true → 0 < n → off + n ≤ s.host.bar2GiB * 2 ^ 30 → plainRun s o n = false →
      ∀ ev, ∃ t, exec (.bar2Access off (.read n ev)) s = .next t
        ∧ t = { s with dic := t.dic, free := s.free + ceilDiv n 8,
                       out := s.out ++ [.busData ((List.range n).map (freeByteAt s)) true] }
        ∧ Counted s t (fabAddrErrorKey (homeHalf s o)) 1 ∧ SameObjs s t [fabAddrErrorKey (homeHalf s o)])
    ∧ (isReady s = true → 0 < n → off + n ≤ s.host.bar2GiB * 2 ^ 30 → plainRun s o n = true → dimLine s o n = none →
      (runBad s o n = false →
        exec (.bar2Access off (.read n [])) s = .next { s with out := s.out ++ [.busData (rawBytes s o n) (runPoison s o n)] })
      ∧ (runPoison s o n = false → MemOk s →
        ∃ t, exec (.bar2Access off (.write data poison)) s = .next t
          ∧ t = { s with tile := t.tile, tilePoison := t.tilePoison, lpddr := t.lpddr, lpddrPoison := t.lpddrPoison,
                         lpddrBad := t.lpddrBad, chans := t.chans }
          ∧ rawBytes t o n = data ∧ SameMemoryBut s t o n)))

/-- HOST_SNOOP, ATS_INVALIDATION, PAGE_RESPONSE, CXL_MEM_READ, CXL_MEM_WRITE, BISNP_RESPONSE and BISNP_TIMEOUT (R323 to R328): a
snoop always misses; an invalidated translation is gone; a page response answers one request; in Ready a CXL read returns the
line and a write stores its masked bytes, outside Ready the one reads poison and the other is dropped; a read of a Dim channel waits; an answered
back-invalidation ends the line's tracking, and one unanswered for 1 ms is counted and ends the accesses that wait. -/
def Obligations.HostMemoryTrafficServed : Prop :=
  (∀ (a : Nat) (s : State), exec (.hostSnoop a) s = .next { s with out := s.out ++ [.snoopMiss a] })
  ∧ (∀ (p g : Nat) (s : State),
    ∃ t, exec (.atsInvalidation p g) s = .next t ∧ t = { s with out := t.out, host := t.host }
      ∧ t.host = { s.host with ats := s.host.ats.filter (fun k => k != (p, g)), atsWait := t.host.atsWait }
      ∧ (pageUsed s (p, g) = false → .atsComplete p g ∈ t.out))
  ∧ (∀ (p g : Nat) (s : State),
    exec (.pageResponse p g) s = .next { s with host := { s.host with pageReqs := s.host.pageReqs.erase (p, g) } })
  ∧ (∀ (line : Nat) (s : State), inRegion s line = true →
    (isReady s = true → dimLine s (64 * line) 64 = none →
      ∃ t, exec (.cxlMemRead ⟨line, .clean⟩) s = .next t ∧ t = { s with out := t.out, free := t.free, host := t.host }
        ∧ t.out.take s.out.length = s.out
        ∧ (runBad s (64 * line) 64 = false →
            t.out.getLast? = some (.busData (rawBytes s (64 * line) 64) (linePoison s (64 * line))) ∧ t.free = s.free)
        ∧ t.host = { s.host with snoopW := t.host.snoopW, snoopE := t.host.snoopE }
        ∧ (s.host.gen = 1 → tracked t line = true))
    ∧ (isReady s = true → (dimLine s (64 * line) 64).isSome = true →
      ∀ e, ∃ t, exec (.cxlMemRead ⟨line, e⟩) s = .next t ∧ t = { s with dic := t.dic, host := t.host }
        ∧ t.host = { s.host with waits := s.host.waits ++ [.cxlRead line [⟨line, e⟩]] }
        ∧ Counted s t Obj.memDimStalledRequests 1 ∧ SameObjs s t [Obj.memDimStalledRequests])
    ∧ (isReady s = false →
      ∀ e, exec (.cxlMemRead ⟨line, e⟩) s
        = .next { s with out := s.out ++ [.busData ((List.range 64).map (freeByteAt s)) true], free := s.free + 8 }))
  ∧ (∀ (line mask : Nat) (data : Bytes) (poison : Bool) (s : State), inRegion s line = true → mask < 2 ^ 64 →
    (isReady s = true → data.length = 64 → 64 * line < lpddrSize → linePoison s (64 * line) = false → dimLine s (64 * line) 64 = none →
        MemOk s →
      ∃ t, exec (.cxlMemWrite line mask data poison) s = .next t
        ∧ t = { s with out := t.out, lpddr := t.lpddr, lpddrPoison := t.lpddrPoison, lpddrBad := t.lpddrBad, chans := t.chans,
                       host := t.host }
        ∧ SameMemoryBut s t (64 * line) 64
        ∧ (∀ i, i < 64 → (rawBytes t (64 * line) 64).getD i 0
            = if natBit i mask then data.getD i 0 else (rawBytes s (64 * line) 64).getD i 0)
        ∧ linePoison t (64 * line) = poison)
    ∧ (isReady s = false → objGet s Obj.moduleState = 4 →
      ∃ t, exec (.cxlMemWrite line mask data poison) s = .next t ∧ t = { s with dic := t.dic }
        ∧ Counted s t Obj.cxlMemDropped 1 ∧ SameObjs s t [Obj.cxlMemDropped])
    ∧ (isReady s = false → objGet s Obj.moduleState ≠ 4 → exec (.cxlMemWrite line mask data poison) s = .next s))
  ∧ (∀ (line : Nat) (s : State), s.host.bisnp.any (fun b => b.1 == line) = true →
    (s.host.waits = [] → (∀ e ∈ s.queues, e.2.waitRing = []) →
      ∃ t, exec (.bisnpResponse line) s = .next t ∧ t = { s with host := t.host }
        ∧ t.host = { s.host with bisnp := s.host.bisnp.filter (fun b => b.1 != line), snoopW := s.host.snoopW.erase line,
                                 snoopE := s.host.snoopE.erase line })
    ∧ (∀ data first, s.host.waits = [.dataPort line (some (data, false)) first data.length []] → (∀ e ∈ s.queues, e.2.waitRing = []) →
      s.host.bisnp.all (fun b => b.1 == line) = true → isReady s = true → dimLine s (64 * line) 64 = none →
      regionOf s (64 * line) = .lpddr → 0 < data.length → first + data.length ≤ 64 → linePoison s (64 * line) = false → MemOk s →
      ∃ t, exec (.bisnpResponse line) s = .next t
        ∧ t = { s with host := t.host, lpddr := t.lpddr, lpddrPoison := t.lpddrPoison, lpddrBad := t.lpddrBad, chans := t.chans }
        ∧ t.host.waits = [] ∧ rawBytes t (64 * line + first) data.length = data
        ∧ SameMemoryBut s t (64 * line + first) data.length)
    ∧ (s.host.bisnp.any (fun b => b.1 == line && decide (b.2 + ms 1 ≤ s.now)) = true → (∀ e ∈ s.queues, e.2.waitRing = []) →
      ∃ t, exec (.bisnpTimeout line) s = .next t ∧ t = { s with dic := t.dic, host := t.host, out := t.out }
        ∧ line ∈ t.host.bisnpBad ∧ (∀ w ∈ t.host.waits, portOf line w = false) ∧ t.host.snoopW = s.host.snoopW
        ∧ (s.host.waits.any (portOf line) = true → t.host.addrError = true) ∧ Counted s t Obj.bISnpTimeouts 1
        ∧ SameObjs s t [Obj.bISnpTimeouts]))
  ∧ (∀ (line : Nat) (s : State), s.host.bisnp.any (fun b => b.1 == line) = false →
    exec (.bisnpResponse line) s = .next s ∧ exec (.bisnpTimeout line) s = .next s)

/-- PERST_N_ASSERT, HOT_RESET, HOST_LINK_DOWN, FUNCTION_LEVEL_RESET and HOST_QUEUES_DESTROY (R328): a host-facing reset aborts
every running or halted queue, ends every collective, closes every send window and forgets the host's cached lines; the link is
down, but for a function-level reset; once nothing is outstanding every queue is destroyed with its partitions, not before.
PERST_N_DEASSERT and HOST_LINK_TRAINED (R312, R403): a trained link has its generation and width; before step 5 and under
PERST_N no link trains. -/
def Obligations.HostFacingResetsEmptyTheHostState : Prop :=
  (∀ (c : Instr) (s : State), c = .perstNAssert ∨ c = .hotReset ∨ c = .hostLinkDown ∨ c = .functionLevelReset →
    ∃ t, exec c s = .next t
      ∧ t = { s with free := t.free, out := t.out, dic := t.dic, layers := t.layers, engines := t.engines, tile := t.tile,
                     tilePoison := t.tilePoison, lpddr := t.lpddr, lpddrPoison := t.lpddrPoison, lpddrBad := t.lpddrBad,
                     chans := t.chans, claims := t.claims, waitClaims := t.waitClaims, spills := t.spills, queues := t.queues,
                     sync := t.sync, waiters := t.waiters, routerW := t.routerW, routerE := t.routerE, windows := [],
                     outst := t.outst, nextTag := t.nextTag, wires := t.wires, colls := [], slots := t.slots, greys := t.greys,
                     ended := t.ended, host := t.host, obs := t.obs }
      ∧ (∀ q v, smGet s.queues q = some v → v.state = 1 ∨ v.state = 2 →
          ∃ v', smGet t.queues q = some v' ∧ (v'.state = 3 ∨ v'.state = 4))
      ∧ t.host.snoopW = [] ∧ t.host.snoopE = [] ∧ t.host.bisnp = [] ∧ (s.host.waits = [] → t.host.waits = [])
      ∧ t.host.resetting = true
      ∧ t.host.resetSince = some s.now
      ∧ (c ≠ .functionLevelReset → t.host.gen = 0 ∧ t.host.width = 0 ∧ objGet t Obj.hostLinkGen = 0)
      ∧ (c = .functionLevelReset → t.host.gen = s.host.gen ∧ objGet t Obj.hostLinkGen = objGet s Obj.hostLinkGen)
      ∧ (c = .perstNAssert → t.host.perst = true)
      ∧ (s.host.waits = [] → SameObjs s t ([Obj.streamFaultLines, Obj.pageRequestsDropped, Obj.tstUncorrectable, Obj.streamPageRequests,
          Obj.streamFaultDescs, Obj.memUncorrectable, Obj.doorbellErrors, Obj.hostLinkGen, Obj.streamSourcePoisonLines]
          ++ tailObjs)))
  ∧ (∀ s : State, s.host.resetting = true → (∀ e ∈ s.queues, e.2.outstanding = 0) →
    ∃ t, exec .hostQueuesDestroy s = .next t
      ∧ t = { s with dic := t.dic, parts := t.parts, queues := [], host := t.host, obs := t.obs }
      ∧ (∀ p ∈ t.parts, p ∈ s.parts ∧ smGet s.queues p.queue = none) ∧ t.host = { s.host with resetting := false }
      ∧ SameObjs s t journalObjs)
  ∧ (∀ s : State, s.host.resetting = false ∨ s.queues.any (fun e => e.2.outstanding != 0) = true →
    exec .hostQueuesDestroy s = .next s)
  ∧ (∀ (ref : Bool) (s : State), s.host.perst = true →
    ∃ t, exec (.perstNDeassert ref) s = .next t ∧ t = { s with host := t.host }
      ∧ t.host = { s.host with perst := false, refclk := ref, resetSince := s.host.resetSince.map (fun _ => s.now) })
  ∧ (∀ (g w : Nat) (s : State),
    (s.host.perst = false → s.host.refclk = true → 5 ≤ s.seqs.startStep → 1 ≤ g → g ≤ 6 →
      w = 1 ∨ w = 2 ∨ w = 4 ∨ w = 8 ∨ w = 16 →
      ∃ t, exec (.hostLinkTrained g w) s = .next t ∧ t = { s with dic := t.dic, host := { s.host with gen := g, width := w } }
        ∧ objGet t Obj.hostLinkGen = g ∧ SameObjs s t [Obj.hostLinkGen])
    ∧ (s.host.perst = true ∨ s.host.refclk = false ∨ s.seqs.startStep < 5 → exec (.hostLinkTrained g w) s = .next s))

/-- The answer to a Dictionary request goes out by the request's route (R333, R335, R336, R338 to R340, R398, R439): through the
mailbox it ends the command, in a session the reply is kept for a repeat, on the monitor it is a value or a status. A repeated request of a session gets the kept reply and does nothing else, a lower Seq is dropped, one from a foreign address is
dropped and counted; a line of the monitor during a restart of core 3 is discarded and counted. DAP_FRAGMENT and DAP_REASSEMBLY_TIMEOUT: a message of one
fragment waits whole, a fragment of several is kept, a malformed one is answered so, and a partial message is dropped 100 ms
after its first fragment; without the management MAC nothing is taken. -/
def Obligations.RequestsReachTheirObjects : Prop :=
  (∀ (a : Answer) (key : Nat) (s : State), MailboxEnded (answered s .host key a) 0
    ∧ answered s .monRead key a
        = (if a.status ≠ 0 ∨ a.data = [] then emit a.st (.monitorStatus a.status) else emit a.st (.monitorValue key a.data)))
  ∧ (∀ (ip port id seq key : Nat) (m : Bytes) (x : Session) (a : Answer) (s : State), readyMsg s ip port id seq = some m →
    sessionOf a.st id = some x →
    ∃ t y, answered s (.mgmt ip port id seq) key a = t ∧ sessionOf t id = some y ∧ y.lastSeq = seq ∧ y.last = s.now
      ∧ y.lastReply = some (.dap ip port id seq (msgOp m % 128 + 128) a.status a.data)
      ∧ t = { a.st with out := a.st.out ++ [.dap ip port id seq (msgOp m % 128 + 128) a.status a.data], mgmt := t.mgmt })
  ∧ (∀ (ip port id seq : Nat) (m : Bytes) (x : Session) (o : Out) (s : State), readyMsg s ip port id seq = some m →
    headerOk m = true → msgOp m = 0x23 → formOk 0x23 (msgPayload m) = true → msgPayload m = [] → core3 s ≠ 2 →
    sessionOf s id = some x → x.opened = true →
    (x.ip = ip → x.port = port → x.lastSeq = seq → x.lastReply = some o →
      exec (.keepalive (.mgmt ip port id seq)) s = .next (emit (takeMsg s ip port id seq) o))
    ∧ (x.ip = ip → x.port = port → seq < x.lastSeq → x.lastReply = some o →
      exec (.keepalive (.mgmt ip port id seq)) s = .next (takeMsg s ip port id seq))
    ∧ (x.ip ≠ ip ∨ x.port ≠ port →
      ∃ t, exec (.keepalive (.mgmt ip port id seq)) s = .next t ∧ Counted s t Obj.authFailures 1
        ∧ t = { takeMsg s ip port id seq with dic := t.dic } ∧ SameObjs s t [Obj.authFailures]))
  ∧ (∀ (k : Nat) (s : State), core3 s = 2 → exec (.dicRead .monRead k) s = .next (objInc s Obj.monLinesDiscarded))
  ∧ (∀ (ip port : Nat) (w0 w1 : Word64) (payload : Bytes) (s : State),
    (macUp s = false → exec (.dapFragment ip port w0 w1 payload false) s = .next s)
    ∧ (macUp s = true → dapFormed w0 w1 payload = false →
      exec (.dapFragment ip port w0 w1 payload false) s = .next { s with
        out := s.out ++ [.dap ip port (dapSession w0) (dapSeq w0) (dapOp w0 % 128 + 128) 0x0E []] })
    ∧ (macUp s = true → dapFormed w0 w1 payload = true → dapCount w1 = 1 → s.mgmt.daps.find? (samePartial ip port w0) = none →
      ∃ t, exec (.dapFragment ip port w0 w1 payload false) s = .next t ∧ t = { s with mgmt := t.mgmt }
        ∧ t.mgmt = { s.mgmt with ready := s.mgmt.ready
            ++ [(ip, port, dapSession w0, dapSeq w0, wholeMsg w0 w1 payload)], daps := t.mgmt.daps })
    ∧ (macUp s = true → dapFormed w0 w1 payload = true → 1 < dapCount w1 → s.mgmt.daps.find? (samePartial ip port w0) = none →
      ∃ t, exec (.dapFragment ip port w0 w1 payload false) s = .next t ∧ t = { s with mgmt := t.mgmt }
        ∧ t.mgmt.ready = s.mgmt.ready
        ∧ { session := dapSession w0, seq := dapSeq w0, ip := ip, port := port, since := s.now, count := dapCount w1,
            frags := [(dapIndex w1, payload)] } ∈ t.mgmt.daps))
  ∧ (∀ (ip port : Nat) (w0 w1 : Word64) (payload : Bytes) (s : State), macUp s = true →
    ∃ t, exec (.dapFragment ip port w0 w1 payload true) s = .next t
      ∧ t = { s with dic := t.dic, out := t.out, mgmt := t.mgmt, obs := t.obs }
      ∧ (objGet s Obj.mgmtPairReversed = 0 → objGet t Obj.mgmtPairReversed = 1 ∧ Logged s t .pairReversed [] false)
      ∧ (objGet s Obj.mgmtPairReversed ≠ 0 → t.dic = s.dic ∧ t.obs = s.obs)
      ∧ SameObjs s t (Obj.mgmtPairReversed :: journalObjs)
      ∧ (dapFormed w0 w1 payload = false → t.mgmt = s.mgmt
          ∧ t.out = s.out ++ [.dap ip port (dapSession w0) (dapSeq w0) (dapOp w0 % 128 + 128) 0x0E []]))
  ∧ (∀ (id seq : Nat) (s : State),
    ∃ t, exec (.dapReassemblyTimeout id seq) s = .next t ∧ t = { s with mgmt := { s.mgmt with daps := t.mgmt.daps } }
      ∧ ∀ p, p ∈ t.mgmt.daps ↔ p ∈ s.mgmt.daps ∧ ¬ (p.session = id ∧ p.seq = seq ∧ p.since + ms 100 ≤ s.now))

/-- DIC_READ, DIC_WRITE and DESCRIBE that reach their object (R330 to R332, R448, R449): a read answers the object's value in
its length and, for access RC, clears it; a write is refused for an unknown object, its access, its class, its length and its
range, in that order, with nothing changed, and else the object holds the value; Describe answers the object's description.
PERSIST_COMMIT (R334, R354): a written object's value goes to flash, or, without the energy, is deferred and counted. -/
def Obligations.ObjectsReadWrittenAndKept : Prop :=
  (∀ (r : Route) (k : Nat) (s : State) (role : Role) (s0 : State),
    Asked s r (supReads s k) 0x01 k [] role s0 →
    (objRow k = none → exec (.dicRead r k) s = .next (answered s r k ⟨s0, 0x01, []⟩))
    ∧ (∀ row, objRow k = some row →
      (row.access = .wo ∨ row.typ = .domain → exec (.dicRead r k) s = .next (answered s r k ⟨s0, 0x04, []⟩))
      ∧ (row.typ.numeric = true → row.access ≠ .wo → row.access ≠ .rc →
        exec (.dicRead r k) s = .next (answered s r k ⟨s0, 0, natLe row.typ.len (objRead s0 k)⟩))
      ∧ (row.typ.numeric = true → row.access = .rc →
        ∃ u, exec (.dicRead r k) s = .next (answered s r k ⟨u, 0, natLe row.typ.len (objRead s0 k)⟩) ∧ u = { s0 with dic := u.dic }
          ∧ objGet u k = (if k = Obj.supplyMinMv then objGet s0 Obj.supplyVoltageMv else 0) ∧ SameObjs s0 u [k])
      ∧ (row.typ = .str → row.access ≠ .wo → exec (.dicRead r k) s = .next (answered s r k ⟨s0, 0, strRead k⟩))))
  ∧ (∀ (r : Route) (k : Nat) (v : Bytes) (s : State) (role : Role) (s0 : State), ownRow k = false →
    Asked s r false 0x02 k v role s0 →
    (objRow k = none → exec (.dicWrite r k v) s = .next (answered s r k ⟨s0, 0x01, []⟩))
    ∧ (∀ row, objRow k = some row →
      (row.access.writes = false ∨ row.typ.numeric = false → exec (.dicWrite r k v) s = .next (answered s r k ⟨s0, 0x04, []⟩))
      ∧ (row.access.writes = true → row.typ.numeric = true →
        (mayWrite row.cls role = false → exec (.dicWrite r k v) s = .next (answered s r k ⟨s0, 0x05, []⟩))
        ∧ (mayWrite row.cls role = true → v.length ≠ row.typ.len → exec (.dicWrite r k v) s = .next (answered s r k ⟨s0, 0x02, []⟩))
        ∧ (mayWrite row.cls role = true → v.length = row.typ.len → rangeOk s0 row k (leNat v) = false →
          exec (.dicWrite r k v) s = .next (answered s r k ⟨s0, 0x03, []⟩))
        ∧ (mayWrite row.cls role = true → v.length = row.typ.len → rangeOk s0 row k (leNat v) = true → ownRule k s0 (leNat v) ≠ 0 →
          exec (.dicWrite r k v) s = .next (answered s r k ⟨s0, ownRule k s0 (leNat v), []⟩))
        ∧ (mayWrite row.cls role = true → v.length = row.typ.len → rangeOk s0 row k (leNat v) = true → ownRule k s0 (leNat v) = 0 →
          k ≠ Obj.arrayRetiredMap → k ≠ Obj.linkMinLanesPct → keyIn k Obj.axisInfo 4 = false →
          ∃ u, exec (.dicWrite r k v) s = .next (answered s r k ⟨u, 0, []⟩)
            ∧ u = { s0 with dic := u.dic, persist := u.persist, obs := u.obs } ∧ SameObjs s0 u (k :: journalObjs)
            ∧ (row.access ≠ .wo → k ∉ journalObjs → objGet u k = leNat v)
            ∧ (row.kept = true → row.access = .rw → nsHas u.persist k = true)))))
  ∧ (∀ (r : Route) (v : Bytes) (s : State) (role : Role) (row : ObjRow) (s0 : State),
    WriteReady s r false Obj.arrayRetiredMap v role row s0 → ownRule Obj.arrayRetiredMap s0 (leNat v) = 0 →
    ∃ u, exec (.dicWrite r Obj.arrayRetiredMap v) s = .next (answered s r Obj.arrayRetiredMap ⟨u, 0, []⟩)
      ∧ u = { s0 with dic := u.dic, persist := u.persist, obs := u.obs, arrays := u.arrays, unretired := u.unretired }
      ∧ objGet u Obj.arrayRetiredMap = leNat v ∧ SameObjs s0 u (Obj.arrayRetiredMap :: journalObjs)
      ∧ ∀ n, n < 64 → natBit n (objGet s0 Obj.arrayRetiredMap) = true → natBit n (leNat v) = false →
          natBit n u.unretired = true ∧ (arrayOf u n).missTimes = [])
  ∧ (∀ (r : Route) (v : Bytes) (s : State) (role : Role) (row : ObjRow) (s0 : State),
    WriteReady s r false Obj.linkMinLanesPct v role row s0 →
    ∃ u, exec (.dicWrite r Obj.linkMinLanesPct v) s = .next (answered s r Obj.linkMinLanesPct ⟨u, 0, []⟩)
      ∧ u = { s0 with dic := u.dic, persist := u.persist, links := u.links, routerW := u.routerW, routerE := u.routerE,
                      outst := u.outst, obs := u.obs } ∧ objGet u Obj.linkMinLanesPct = leNat v)
  ∧ (∀ (r : Route) (a : Nat) (v : Bytes) (s : State) (role : Role) (row : ObjRow) (s0 : State), a < 4 →
    WriteReady s r false (Obj.axisInfo + a) v role row s0 →
    ∃ u, exec (.dicWrite r (Obj.axisInfo + a) v) s = .next (answered s r (Obj.axisInfo + a) ⟨u, 0, []⟩)
      ∧ u = { s0 with dic := u.dic, persist := u.persist, obs := u.obs } ∧ objGet u (Obj.axisInfo + a) = leNat v % 2 ^ 30
      ∧ SameObjs s0 u ((Obj.axisInfo + a) :: journalObjs))
  ∧ (∀ (r : Route) (k : Nat) (s : State) (role : Role) (s0 : State),
    Asked s r false 0x03 k [] role s0 →
    (objRow k = none → exec (.describe r k) s = .next (answered s r k ⟨s0, 0x01, []⟩))
    ∧ (∀ row, objRow k = some row → exec (.describe r k) s = .next (answered s r k ⟨s0, 0, describeBytes row k⟩)))
  ∧ (∀ (k : Nat) (s : State),
    (nsHas s.persist k = false → exec (.persistCommit k) s = .next s)
    ∧ (nsHas s.persist k = true → mayCommit s = false →
      ∃ t, exec (.persistCommit k) s = .next t ∧ t = { s with dic := t.dic } ∧ Counted s t Obj.commitDeferrals 1
        ∧ SameObjs s t [Obj.commitDeferrals])
    ∧ (nsHas s.persist k = true → mayCommit s = true →
      ∃ t, exec (.persistCommit k) s = .next t
        ∧ t = { s with flash := t.flash, persist := nsDel s.persist k, domsFlash := t.domsFlash, remapsFlash := t.remapsFlash,
                       repairsFlash := t.repairsFlash }
        ∧ (k < 0xA00000 → k ≠ Obj.tstRemapList → k ≠ Obj.memRepairList → smGet t.flash k = smGet s.dic k)
        ∧ (0xA00000 ≤ k → k ≠ Obj.tstRemapList → k ≠ Obj.memRepairList → smGet t.domsFlash k = smGet s.doms k)))

/-- DOMAIN_OPEN, DOMAIN_SEGMENT, DOMAIN_COMMIT, DOMAIN_ABORT and DOMAIN_TRANSFER_TIMEOUT that reach their object (R344, R345,
R449, R450): an open gives the next handle, a read keeping the image as it is; a second write of an object is refused; a
segment's bytes enter their transfer and no other, one beyond the declared size sets AddrError and is answered range; a commit
with the image's digest puts the image in force, another digest ends the transfer only; an abort, and 30 s without a segment,
end the transfer. -/
def Obligations.TransfersOpenedFilledAndCommitted : Prop :=
  (∀ (r : Route) (k dir size : Nat) (s : State) (role : Role) (s0 : State) (row : ObjRow),
    Asked s r (supBank s k) 0x10 k (natLe 1 dir ++ natLe 5 size) role s0 → objRow k = some row → row.typ = .domain →
    k ≠ Obj.firmwareBank →
    (dir = 1 → row.access.writes = true → mayWriteDom s0 row role = true → (r = .host → s0.mgmt.xfers.any Xfer.byHost = false) →
      (openOf s0 k true = 0 →
        exec (.domainOpen r k dir size) s = .next (answered s r k
          ⟨{ s0 with mgmt := { s0.mgmt with
              nextHandle := s0.mgmt.nextHandle % 65535 + 1
              xfers := s0.mgmt.xfers ++ [{ handle := s0.mgmt.nextHandle, key := k, write := true, size := size, byHost := r == .host,
                                           session := routeSession r, last := s0.now }] } }, 0, natLe 2 s0.mgmt.nextHandle⟩))
      ∧ (openOf s0 k true ≠ 0 → exec (.domainOpen r k dir size) s = .next (answered s r k ⟨s0, 0x08, []⟩)))
    ∧ (dir = 0 → row.access ≠ .wo → (r = .host → s0.mgmt.xfers.any Xfer.byHost = false) → openOf s0 k false < 8 →
      exec (.domainOpen r k dir size) s = .next (answered s r k
        ⟨{ s0 with mgmt := { s0.mgmt with
            nextHandle := s0.mgmt.nextHandle % 65535 + 1
            xfers := s0.mgmt.xfers ++ [{ handle := s0.mgmt.nextHandle, key := k, write := false, size := (domImage s0 k).length,
                                         byHost := r == .host, session := routeSession r,
                                         image := (domImage s0 k).zipIdx.map (fun b => (b.2, b.1)), last := s0.now }] } }, 0,
         natLe 2 s0.mgmt.nextHandle⟩)))
  ∧ (∀ (r : Route) (header data : Bytes) (off dir n : Nat) (s : State) (role : Role) (s0 : State) (x : Xfer),
    Asked s r s.seqs.recovery 0x11 (heldKey s r) (header ++ data) role s0 → r ≠ .host → off = leNat ((header.drop 2).take 5) →
    dir = leNat ((header.drop 7).take 1) → n = leNat ((header.drop 8).take 2) → 0 < n → n ≤ 1024 →
    routeXfer s0 r (leNat (header.take 2)) = some x → x.key ≠ Obj.firmwareBank →
    (dir = 1 → n = data.length → x.write = true →
      (off + n ≤ x.size →
        ∃ u y, exec (.domainSegment r header data) s = .next (answered s r (heldKey s r) ⟨u, 0, []⟩)
          ∧ u = { s0 with mgmt := { s0.mgmt with xfers := u.mgmt.xfers } } ∧ xferOf u x.handle = some y
          ∧ y = { x with image := y.image, got := max x.got (off + n), last := s0.now }
          ∧ (∀ i, i < n → smGet y.image (off + i) = some (data.getD i 0))
          ∧ (∀ i, i < off ∨ off + n ≤ i → smGet y.image i = smGet x.image i)
          ∧ (∀ z ∈ s0.mgmt.xfers, z.handle ≠ x.handle → z ∈ u.mgmt.xfers))
      ∧ (x.size < off + n →
        ∃ u, exec (.domainSegment r header data) s = .next (answered s r (heldKey s r) ⟨u, 0x03, []⟩) ∧ u.host.addrError = true
          ∧ u = { s0 with host := { s0.host with addrError := true }, mgmt := { s0.mgmt with xfers := u.mgmt.xfers } }))
    ∧ (dir = 0 → x.write = false →
      ∃ u, exec (.domainSegment r header data) s = .next (answered s r (heldKey s r) ⟨u, 0, readSegment x off n⟩)
        ∧ u = { s0 with mgmt := { s0.mgmt with xfers := u.mgmt.xfers } }))
  ∧ (∀ (r : Route) (handle : Nat) (digest : Bytes) (s : State) (x : Xfer) (role : Role) (row : ObjRow) (s0 : State), ownCommit x.key = false →
    (CommitReady s r false x.key handle digest x role row s0 →
      (keyIn x.key Obj.managerKeyHash 4 = true → x.size = 0 ∨ x.size = 32) →
      exec (.domainCommit r handle digest) s = .next (answered s r (heldKey s r) ⟨imageIn s0 r role row x, 0, []⟩)
        ∧ (row.access ≠ .wo → domGet (imageIn s0 r role row x) x.key = xferImage x)
        ∧ (row.kept = true → nsHas (imageIn s0 r role row x).persist x.key = true))
    ∧ (routeXfer s r handle = some x → Asked s r false 0x12 (heldKey s r) (natLe 2 handle ++ digest) role s0 →
      x.write = true → objRow x.key = some row → row.access.writes = true → mayWriteDom (dropXfer s0 x.handle) row role = true →
      x.got = x.size → x.size ≤ row.hi → keyIn x.key Obj.managerKeyHash 4 = false → sha256 (xferImage x) ≠ digest →
      exec (.domainCommit r handle digest) s = .next (answered s r (heldKey s r) ⟨dropXfer s0 x.handle, 0x0A, []⟩)))
  ∧ (∀ (r : Route) (handle : Nat) (s : State) (role : Role) (s0 : State),
    Asked s r s.seqs.recovery 0x13 (heldKey s r) (natLe 2 handle) role s0 →
    (routeXfer s0 r handle = none → exec (.domainAbort r handle) s = .next (answered s r (heldKey s r) ⟨s0, 0x09, []⟩))
    ∧ (∀ x, routeXfer s0 r handle = some x →
      exec (.domainAbort r handle) s = .next (answered s r (heldKey s r) ⟨dropXfer s0 handle, 0, []⟩) ∧ xferOf (dropXfer s0 handle) handle = none))
  ∧ (∀ (handle : Nat) (s : State) (x : Xfer), xferOf s handle = some x →
    (x.last + ms 30000 ≤ s.now → exec (.domainTransferTimeout handle) s = .next (dropXfer s handle))
    ∧ (s.now < x.last + ms 30000 → exec (.domainTransferTimeout handle) s = .next s))
  ∧ (∀ (handle : Nat) (s : State), xferOf s handle = none → exec (.domainTransferTimeout handle) s = .next s)

/-- The sessions of the management network (R339, Table DIC-5): SESSION_HELLO opens a session not yet proved, with a fresh
SessionId and nonce, unless four are open or SessionHello is locked out; SESSION_PROVE with a proof by an accepted key opens
it to requests, any other closes it, is counted and journalled, and the eighth within 60 s locks SessionHello out for 60 s;
SESSION_CLOSE closes it, KEEPALIVE leaves it; 10 s without a proof, or SessionIdleS without a request, close it; the lockout
ends after its 60 s. The management port (R337): a lease sets MgmtIpv4; 10 s without one sets the link-local address, and only
where none is set; without a lease a retry sends Discover; the loss of the PLCA beacon is counted; a request for the module's
own address and an echo request are answered. While the MAC does not run each changes nothing. -/
def Obligations.SessionsAndManagementPort : Prop :=
  (∀ (ip port seq role : Nat) (m : Bytes) (s : State), readyMsg s ip port 0 seq = some m → msgOp m = 0x20 → headerOk m = true →
    formOk 0x20 (msgPayload m) = true → leNat (msgPayload m) = role → core3 s ≠ 2 → servesRole s role = true →
    (lockedOut s = false → s.mgmt.sessions.length < 4 →
      ∃ t x data, exec (.sessionHello ip port seq role) s = .next t
        ∧ t = { s with free := s.free + 4, out := s.out ++ [.dap ip port 0 seq 0xA0 0 data], mgmt := t.mgmt }
        ∧ t.mgmt.sessions = s.mgmt.sessions ++ [x] ∧ t.mgmt.nextSession = s.mgmt.nextSession % 65535 + 1
        ∧ x = { id := s.mgmt.nextSession, role := role, ip := ip, port := port, nonce := newNonce s, opened := false, last := s.now }
        ∧ data = natLe 2 x.id ++ x.nonce ++ padTo 16 Config.serial)
    ∧ (lockedOut s = true →
      exec (.sessionHello ip port seq role) s = .next (emit (takeMsg s ip port 0 seq) (.dap ip port 0 seq 0xA0 0x0D [])))
    ∧ (lockedOut s = false → 4 ≤ s.mgmt.sessions.length →
      exec (.sessionHello ip port seq role) s = .next (emit (takeMsg s ip port 0 seq) (.dap ip port 0 seq 0xA0 0x07 []))))
  ∧ (∀ (ip port id seq : Nat) (key sig m : Bytes) (x : Session) (s : State), readyMsg s ip port id seq = some m → msgOp m = 0x21 →
    headerOk m = true → formOk 0x21 (msgPayload m) = true → msgPayload m = key ++ sig → core3 s ≠ 2 → sessionOf s id = some x →
    x.ip = ip → x.port = port → x.opened = false → servesRole s x.role = true →
    (x.last + ms 10000 ≤ s.now → exec (.sessionProve (.mgmt ip port id seq) key sig) s
      = .next (emit (closeSession (takeMsg s ip port id seq) id) (.dap ip port id seq 0xA1 0x0C [])))
    ∧ (s.now < x.last + ms 10000 → proofOk s x key sig = true →
      ∃ t y, exec (.sessionProve (.mgmt ip port id seq) key sig) s = .next t
        ∧ t = { s with out := s.out ++ [.dap ip port id seq 0xA1 0 []], mgmt := t.mgmt } ∧ sessionOf t id = some y
        ∧ y.opened = true ∧ y.key = key ∧ y.role = x.role ∧ t.mgmt.lockUntil = s.mgmt.lockUntil)
    ∧ (s.now < x.last + ms 10000 → proofOk s x key sig = false →
      ∃ t, exec (.sessionProve (.mgmt ip port id seq) key sig) s = .next t
        ∧ t = { s with out := s.out ++ [.dap ip port id seq 0xA1 0x0D []], dic := t.dic, mgmt := t.mgmt, obs := t.obs }
        ∧ sessionOf t id = none ∧ Counted s t Obj.authFailures 1 ∧ SameObjs s t (Obj.authFailures :: journalObjs)
        ∧ t.mgmt.failTimes = s.mgmt.failTimes.filter (fun e => decide (s.now < e + ms 60000)) ++ [s.now]
        ∧ t.mgmt.lockUntil = (if 8 ≤ t.mgmt.failTimes.length then some (s.now + ms 60000) else s.mgmt.lockUntil)
        ∧ Logged s t .authFailed [id, ip, x.role] false))
  ∧ (∀ (r : Route) (s : State) (role : Role) (s0 : State),
    (Asked s r (supSession s) 0x22 (heldKey s r) [] role s0 →
      exec (.sessionClose r) s = .next (answered s r (heldKey s r) ⟨closeSession s0 (routeSession r), 0, []⟩)
        ∧ sessionOf (closeSession s0 (routeSession r)) (routeSession r) = none)
    ∧ (Asked s r (supSession s) 0x23 (heldKey s r) [] role s0 → exec (.keepalive r) s = .next (answered s r (heldKey s r) ⟨s0, 0, []⟩)))
  ∧ (∀ (id : Nat) (x : Session) (s : State), sessionOf s id = some x →
    (x.opened = false → x.last + ms 10000 ≤ s.now → exec (.sessionProveTimeout id) s = .next (closeSession s id))
    ∧ (x.opened = true ∨ s.now < x.last + ms 10000 → exec (.sessionProveTimeout id) s = .next s)
    ∧ (x.opened = true → x.last + objGet s Obj.sessionIdleS * ms 1000 ≤ s.now →
        exec (.sessionIdleExpire id) s = .next (closeSession s id))
    ∧ (x.opened = false ∨ s.now < x.last + objGet s Obj.sessionIdleS * ms 1000 → exec (.sessionIdleExpire id) s = .next s))
  ∧ (∀ (e : Nat) (s : State), s.mgmt.lockUntil = some e →
    (e ≤ s.now → exec .authLockoutExpire s = .next { s with mgmt := { s.mgmt with lockUntil := none, failTimes := [] } })
    ∧ (s.now < e → exec .authLockoutExpire s = .next s))
  ∧ (∀ (id : Nat) (s : State), (sessionOf s id = none →
      exec (.sessionProveTimeout id) s = .next s ∧ exec (.sessionIdleExpire id) s = .next s)
    ∧ (s.mgmt.lockUntil = none → exec .authLockoutExpire s = .next s))
  ∧ (∀ (ip : Nat) (payload : Bytes) (s : State), macUp s = false →
    exec (.dhcpLease ip) s = .next s ∧ exec .dhcpTimeout s = .next s ∧ exec .dhcpRetry s = .next s
      ∧ exec .plcaBeaconLoss s = .next s ∧ exec (.arpRequest ip) s = .next s ∧ exec (.icmpEcho ip payload) s = .next s)
  ∧ (∀ (ip : Nat) (s : State), macUp s = true →
    ∃ t, exec (.dhcpLease ip) s = .next t ∧ t = { s with dic := t.dic, mgmt := { s.mgmt with lease := true } }
      ∧ objGet t Obj.mgmtIpv4 = ip % 2 ^ 32 ∧ SameObjs s t [Obj.mgmtIpv4])
  ∧ (∀ s : State, macUp s = true →
    (s.mgmt.lease = false → objGet s Obj.mgmtIpv4 = 0 →
      ∃ t, exec .dhcpTimeout s = .next t ∧ t = { s with dic := t.dic } ∧ objGet t Obj.mgmtIpv4 = linkLocal s
        ∧ SameObjs s t [Obj.mgmtIpv4])
    ∧ (s.mgmt.lease = true ∨ objGet s Obj.mgmtIpv4 ≠ 0 → exec .dhcpTimeout s = .next s)
    ∧ (s.mgmt.lease = false → exec .dhcpRetry s = .next { s with out := s.out ++ [.dhcpDiscover] })
    ∧ (s.mgmt.lease = true → exec .dhcpRetry s = .next s)
    ∧ (∃ t, exec .plcaBeaconLoss s = .next t ∧ t = { s with dic := t.dic, mgmt := { s.mgmt with plca := false } }
        ∧ Counted s t Obj.mgmtPlcaLoss 1 ∧ SameObjs s t [Obj.mgmtPlcaLoss]))
  ∧ (∀ (ip : Nat) (payload : Bytes) (s : State), macUp s = true →
    (ip = objGet s Obj.mgmtIpv4 → ip ≠ 0 → exec (.arpRequest ip) s = .next { s with out := s.out ++ [.arpReply ip] })
    ∧ (ip ≠ objGet s Obj.mgmtIpv4 → exec (.arpRequest ip) s = .next s)
    ∧ (objGet s Obj.mgmtIpv4 ≠ 0 → exec (.icmpEcho ip payload) s = .next { s with out := s.out ++ [.icmpReply ip payload] })
    ∧ (objGet s Obj.mgmtIpv4 = 0 → exec (.icmpEcho ip payload) s = .next s))

/-- The limited-write objects (R171, R341, R342, R359, R390, Table DIC-6) MemHashKey, ChipNumberLock, ThermalRedOverride and
AntiRollbackLevel. A Write that passes its checks answers ok and burns nothing where the value stands already, exhausted
where no write is left, busy in Pale and where the energy is missing; else it burns one fuse, the object takes the value, and
the write is journalled. A burn that fails costs the fuse and leaves the value. A key is written
if none of its masks is 0; a level other than the next one, or above RunningSecVersion, with range; a raised level is measured. -/
def Obligations.LimitedObjectsWrittenAtACost : Prop :=
  ∀ (c : Route → Bytes → Bool → Instr) (key left : Nat),
    ((c = .memHashKeyWrite ∧ key = Obj.memHashKey ∧ left = Obj.memHashKeyWritesLeft)
      ∨ (c = .chipNumberLockWrite ∧ key = Obj.chipNumberLock ∧ left = Obj.chipNumberLockWritesLeft)
      ∨ (c = .thermalRedOverrideWrite ∧ key = Obj.thermalRedOverride ∧ left = Obj.thermalRedOverrideWritesLeft)
      ∨ (c = .antiRollbackLevelWrite ∧ key = Obj.antiRollbackLevel ∧ left = Obj.antiRollbackWritesLeft)) →
    ∀ (r : Route) (v : Bytes) (burnt : Bool) (s : State) (role : Role) (row : ObjRow) (s0 : State),
    WriteReady s r false key v role row s0 →
    (leNat v = objGet s0 key → exec (c r v burnt) s = .next (answered s r key ⟨s0, 0, []⟩))
    ∧ (leNat v ≠ objGet s0 key → key = Obj.antiRollbackLevel →
      leNat v ≠ objGet s0 key + 1 ∨ objGet s0 Obj.runningSecVersion < leNat v →
      exec (c r v burnt) s = .next (answered s r key ⟨s0, 0x03, []⟩))
    ∧ (leNat v ≠ objGet s0 key → (key = Obj.memHashKey → (List.range 6).any (fun i => hashMask (leNat v) i == 0) = false) →
      (key = Obj.antiRollbackLevel → leNat v = objGet s0 key + 1 ∧ leNat v ≤ objGet s0 Obj.runningSecVersion) →
      (objGet s0 left = 0 → exec (c r v burnt) s = .next (answered s r key ⟨s0, 0x06, []⟩))
      ∧ (objGet s0 left ≠ 0 → s0.power.pale = true → exec (c r v burnt) s = .next (answered s r key ⟨s0, 0x07, []⟩))
      ∧ (objGet s0 left ≠ 0 → s0.power.pale = false → mayCommit s0 = false →
        ∃ u, exec (c r v burnt) s = .next (answered s r key ⟨u, 0x07, []⟩) ∧ u = { s0 with dic := u.dic }
          ∧ Counted s0 u Obj.commitDeferrals 1 ∧ SameObjs s0 u [Obj.commitDeferrals])
      ∧ (FuseReady s r key left v role row s0 → burnt = false →
        ∃ u, exec (c r v burnt) s = .next (answered s r key ⟨u, if objGet s0 left = 1 then 0x06 else 0x07, []⟩)
          ∧ u = { s0 with dic := u.dic } ∧ objGet u left = objGet s0 left - 1 ∧ SameObjs s0 u [left])
      ∧ (FuseReady s r key left v role row s0 → burnt = true →
        ∃ u, exec (c r v burnt) s = .next (answered s r key ⟨u, 0, []⟩)
          ∧ u = { s0 with dic := u.dic, sec := u.sec, obs := u.obs } ∧ objGet u key = leNat v
          ∧ objGet u left = objGet s0 left - 1 ∧ SameObjs s0 u (key :: left :: journalObjs)
          ∧ u.sec = (if key = Obj.antiRollbackLevel then (measEvent s0 0x23 (natLe 1 (leNat v))).sec else s0.sec)
          ∧ Logged s0 u .objectWritten [key, roleCode role, routeSession r, routeSource r, objGet s0 key, leNat v] false))

/-- LIFECYCLE_STATE_WRITE (R395, Table SEC-5, R392, R398) and REVOKE_ROOT_KEY (R391). LifecycleState takes only the changes of Table
SEC-5, for one fuse each, the last of which is kept for Scrapped; each change is measured with code 0x21 and has its own
effect: a device identity at Provisioned, the end of the debug unlock at Production, the objects' defaults and no session at
Returned, and at Scrapped the identity's end and a cold start. A revoked root key slot is measured with code 0x22 and its
Vendor sessions close; the other slot's revocation, and a slot that the active bank uses, refuse it. -/
def Obligations.LifecycleAndRootKeysChange : Prop :=
  (∀ (r : Route) (v : Bytes) (burnt : Bool) (s : State) (role : Role) (row : ObjRow) (s0 u : State) (old n : Nat),
    old = objGet s0 Obj.lifecycleState → n = leNat v → Asked s r false 0x02 Obj.lifecycleState v role s0 →
    numCheck s0 role Obj.lifecycleState v (some (lifeClass old n)) = .inr (row, n) →
    (n = old → exec (.lifecycleStateWrite r v burnt) s = .next (runAsked (answered s r Obj.lifecycleState ⟨s0, 0, []⟩)))
    ∧ (n ≠ old → lifeStep old n = false → exec (.lifecycleStateWrite r v burnt) s = .next (runAsked (answered s r Obj.lifecycleState ⟨s0, 0x03, []⟩)))
    ∧ (n ≠ old → lifeStep old n = true →
      objGet s0 Obj.lifecycleWritesLeft = 0 ∨ (objGet s0 Obj.lifecycleWritesLeft = 1 ∧ n ≠ 4) →
      exec (.lifecycleStateWrite r v burnt) s = .next (runAsked (answered s r Obj.lifecycleState ⟨s0, 0x06, []⟩)))
    ∧ (n ≠ old → lifeStep old n = true → objGet s0 Obj.lifecycleWritesLeft ≠ 0 → (objGet s0 Obj.lifecycleWritesLeft = 1 → n = 4) →
      s0.power.pale = true →
      exec (.lifecycleStateWrite r v burnt) s = .next (runAsked (answered s r Obj.lifecycleState ⟨s0, 0x07, []⟩)))
    ∧ (n ≠ old → lifeStep old n = true → objGet s0 Obj.lifecycleWritesLeft ≠ 0 → (objGet s0 Obj.lifecycleWritesLeft = 1 → n = 4) →
      s0.power.pale = false → mayCommit s0 = false →
      exec (.lifecycleStateWrite r v burnt) s
        = .next (runAsked (answered s r Obj.lifecycleState ⟨objInc s0 Obj.commitDeferrals, 0x07, []⟩)))
    ∧ (n ≠ old → lifeStep old n = true → objGet s0 Obj.lifecycleWritesLeft ≠ 0 → (objGet s0 Obj.lifecycleWritesLeft = 1 → n = 4) →
      s0.power.pale = false → mayCommit s0 = true → burnt = false →
      exec (.lifecycleStateWrite r v burnt) s = .next (runAsked (answered s r Obj.lifecycleState
        ⟨objPut s0 Obj.lifecycleWritesLeft (objGet s0 Obj.lifecycleWritesLeft - 1),
         if objGet s0 Obj.lifecycleWritesLeft = 1 then 0x06 else 0x07, []⟩)))
    ∧ (n ≠ old → lifeStep old n = true → objGet s0 Obj.lifecycleWritesLeft ≠ 0 → (objGet s0 Obj.lifecycleWritesLeft = 1 → n = 4) →
      s0.power.pale = false → mayCommit s0 = true → burnt = true →
      u = lifeEffect old (journalWrite (objPut (objPut s0 Obj.lifecycleWritesLeft (objGet s0 Obj.lifecycleWritesLeft - 1))
        Obj.lifecycleState n) r role Obj.lifecycleState old n) →
      exec (.lifecycleStateWrite r v burnt) s = .next (runAsked (answered s r Obj.lifecycleState ⟨u, 0, []⟩)) ∧ objGet u Obj.lifecycleState = n
        ∧ objGet u Obj.lifecycleWritesLeft = objGet s0 Obj.lifecycleWritesLeft - 1
        ∧ u.sec.meas = (measEvent s0 0x21 (natLe 1 n)).sec.meas ∧ u.sec.log = (measEvent s0 0x21 (natLe 1 n)).sec.log
        ∧ (n = 1 → u = { s0 with dic := u.dic, sec := u.sec, obs := u.obs } ∧ u.sec.identity = true ∧ u.sec.seedBurnt = true)
        ∧ (n = 2 → u = { s0 with dic := u.dic, sec := u.sec, obs := u.obs }
          ∧ (objGet s0 Obj.debugAllowProduction = 0 → objGet u Obj.debugUnlocked = 0 ∧ u.sec.monitorWrite = false)
          ∧ SameObjs s0 u ([Obj.lifecycleState, Obj.lifecycleWritesLeft, Obj.debugUnlocked] ++ journalObjs))
        ∧ (n = 3 → u.mgmt.sessions = []
          ∧ ∀ k, returnsToDefault k = true → smGet u.dic k = none ∧ smGet u.doms k = none)
        ∧ (n = 4 → u = { s0 with dic := u.dic, seqs := { s0.seqs with asked := 4 }, sec := u.sec, obs := u.obs }
          ∧ u.sec.identity = false)))
  ∧ (∀ s : State, (s.seqs.asked = 0 → runAsked s = s)
    ∧ (s.seqs.asked = 4 → s.power.pale = false → runAsked s = coldStart { s with seqs := { s.seqs with asked := 0 } } 4))
  ∧ (∀ (r : Route) (v : Bytes) (burnt : Bool) (s : State) (role : Role) (row : ObjRow) (s0 : State) (n : Nat),
    n = leNat v → WriteReady s r false Obj.revokeRootKey v role row s0 →
    (natBit n (objGet s0 Obj.rootKeyRevoked) = true → exec (.revokeRootKey r v burnt) s = .next (answered s r Obj.revokeRootKey ⟨s0, 0, []⟩))
    ∧ (natBit n (objGet s0 Obj.rootKeyRevoked) = false →
      natBit (1 - n) (objGet s0 Obj.rootKeyRevoked) = true
        ∨ (bankImages s0 (objGet s0 Obj.activeBank)).any (fun i => i.keySlot == n) = true →
      exec (.revokeRootKey r v burnt) s = .next (answered s r Obj.revokeRootKey ⟨s0, 0x08, []⟩))
    ∧ (natBit n (objGet s0 Obj.rootKeyRevoked) = false → mayRevoke s0 n = true → s0.power.pale = true →
      exec (.revokeRootKey r v burnt) s = .next (answered s r Obj.revokeRootKey ⟨s0, 0x07, []⟩))
    ∧ (natBit n (objGet s0 Obj.rootKeyRevoked) = false → mayRevoke s0 n = true → s0.power.pale = false → mayCommit s0 = false →
      exec (.revokeRootKey r v burnt) s = .next (answered s r Obj.revokeRootKey ⟨objInc s0 Obj.commitDeferrals, 0x07, []⟩))
    ∧ (natBit n (objGet s0 Obj.rootKeyRevoked) = false → mayRevoke s0 n = true → s0.power.pale = false → mayCommit s0 = true →
      ∃ u, exec (.revokeRootKey r v burnt) s = .next (answered s r Obj.revokeRootKey ⟨u, 0, []⟩)
        ∧ u = { s0 with dic := u.dic, mgmt := { s0.mgmt with sessions := u.mgmt.sessions }, sec := u.sec, obs := u.obs }
        ∧ objGet u Obj.rootKeyRevoked = setNatBit n (objGet s0 Obj.rootKeyRevoked)
        ∧ SameObjs s0 u (Obj.rootKeyRevoked :: journalObjs)
        ∧ u.sec = (measEvent s0 0x22 (natLe 1 (setNatBit n (objGet s0 Obj.rootKeyRevoked)))).sec
        ∧ ∀ x, x ∈ u.mgmt.sessions ↔
            x ∈ s0.mgmt.sessions ∧ ¬ (x.role = 2 ∧ x.opened = true ∧ keyAccepted u 2 x.key = false)))

/-- FIRMWARE_BANK_COMMIT and FIRMWARE_PROGRAM_DONE (R387 to R389): an accepted FirmwareBank image sets FirmwareUpdateState 1,
and is refused with locked while a queue is launched. Programming ends, out of Pale, with state 4 for a bank that is not
valid; else with the inactive bank requested for the next boot and state 2, and in recovery with bank A active and a cold
start. ATTEST_NONCE_COMMIT, ATTESTATION_SIGNED and IDENTITY_CERTIFICATE_COMMIT (R393, R394): a nonce of 32 B captures the
report's values at once and sets AttestState 1, refused with locked while one is being signed and in Blank and Scrapped;
signing stores the captured values with their signature as AttestationReport, and sets AttestState 2. The certificate is taken
once, for the module's own key. -/
def Obligations.FirmwareAttestationAndCertificate : Prop :=
  (∀ (r : Route) (handle : Nat) (digest : Bytes) (s : State) (x : Xfer) (role : Role) (row : ObjRow) (s0 : State), CommitReady s r s.seqs.recovery Obj.firmwareBank handle digest x role row s0 →
    (s0.queues = [] →
      ∃ u, exec (.firmwareBankCommit r handle digest) s = .next (answered s r (heldKey s r) ⟨u, 0, []⟩)
        ∧ u = { imageIn s0 r role row x with dic := u.dic } ∧ objGet u Obj.firmwareUpdateState = 1
        ∧ SameObjs s0 u (Obj.firmwareUpdateState :: journalObjs))
    ∧ (s0.queues ≠ [] → exec (.firmwareBankCommit r handle digest) s = .next (answered s r (heldKey s r) ⟨dropXfer s0 x.handle, 0x08, []⟩)))
  ∧ (∀ (images : List ImageInfo) (s : State),
    (objGet s Obj.firmwareUpdateState ≠ 1 ∨ s.power.on = false ∨ s.power.pale = true →
      exec (.firmwareProgramDone images) s = .next s)
    ∧ (objGet s Obj.firmwareUpdateState = 1 → s.power.on = true → s.power.pale = false →
      (bankValid s images = false ∨ images.all (imageBoots s) = false →
        ∃ t, exec (.firmwareProgramDone images) s = .next t ∧ t = { s with dic := t.dic }
          ∧ objGet t Obj.firmwareUpdateState = 4 ∧ SameObjs s t [Obj.firmwareUpdateState])
      ∧ (bankValid s images = true → images.all (imageBoots s) = true → s.seqs.recovery = false →
        ∃ t, exec (.firmwareProgramDone images) s = .next t ∧ t = { s with dic := t.dic, sec := t.sec }
          ∧ t.sec = (if objGet s Obj.activeBank = 0 then { s.sec with bankB := images } else { s.sec with bankA := images })
          ∧ objGet t Obj.firmwareUpdateState = 2 ∧ objGet t Obj.bootBankRequest = 1 - objGet s Obj.activeBank
          ∧ SameObjs s t [Obj.firmwareUpdateState, Obj.bootBankRequest])
      ∧ (bankValid s images = true → images.all (imageBoots s) = true → s.seqs.recovery = true →
        ∃ u, exec (.firmwareProgramDone images) s = .next (beginCold u true)
          ∧ u = { s with dic := u.dic, sec := { s.sec with bankA := images } } ∧ objGet u Obj.activeBank = 0
          ∧ objGet u Obj.firmwareUpdateState = 0 ∧ SameObjs s u [Obj.activeBank, Obj.firmwareUpdateState])))
  ∧ (∀ (r : Route) (handle : Nat) (digest : Bytes) (s : State) (x : Xfer) (role : Role) (row : ObjRow) (s0 : State), CommitReady s r false Obj.attestNonce handle digest x role row s0 → x.size = 32 →
    (objGet s0 Obj.attestState ≠ 1 → objGet s0 Obj.lifecycleState ≠ 0 → objGet s0 Obj.lifecycleState ≠ 4 →
      ∃ u, exec (.attestNonceCommit r handle digest) s = .next (answered s r (heldKey s r) ⟨u, 0, []⟩)
        ∧ u = { imageIn s0 r role row x with dic := u.dic, sec := u.sec }
        ∧ u.sec = { s0.sec with attestNonce := xferImage x, capture := reportBody (imageIn s0 r role row x) (xferImage x) }
        ∧ objGet u Obj.attestState = 1 ∧ SameObjs s0 u (Obj.attestState :: journalObjs))
    ∧ (objGet s0 Obj.attestState = 1 ∨ objGet s0 Obj.lifecycleState = 0 ∨ objGet s0 Obj.lifecycleState = 4 →
      exec (.attestNonceCommit r handle digest) s = .next (answered s r (heldKey s r) ⟨dropXfer s0 x.handle, 0x08, []⟩)))
  ∧ (∀ s : State, (objGet s Obj.attestState ≠ 1 ∨ core3 s ≠ 1 → exec .attestationSigned s = .next s)
    ∧ (objGet s Obj.attestState = 1 → core3 s = 1 →
      ∃ t, exec .attestationSigned s = .next t
        ∧ t = { s with dic := t.dic, doms := t.doms, sec := { s.sec with reports := s.sec.reports + 1 } }
        ∧ objGet t Obj.attestState = 2 ∧ SameObjs s t [Obj.attestState]
        ∧ domGet t Obj.attestationReport = s.sec.capture ++ padTo 7856 (signReport s.sec.capture)
        ∧ ∀ k, k ≠ Obj.attestationReport → domGet t k = domGet s k))
  ∧ (∀ (r : Route) (handle : Nat) (digest certKey : Bytes) (s : State) (x : Xfer) (role : Role) (row : ObjRow) (s0 : State), CommitReady s r false Obj.identityCertificate handle digest x role row s0 →
    (domGet s0 Obj.identityCertificate = [] → s0.sec.identity = true → certKey = identityKey →
      exec (.identityCertificateCommit r handle digest certKey) s = .next (answered s r (heldKey s r) ⟨imageIn s0 r role row x, 0, []⟩)
        ∧ domGet (imageIn s0 r role row x) Obj.identityCertificate = xferImage x)
    ∧ (domGet s0 Obj.identityCertificate ≠ [] ∨ s0.sec.identity = false ∨ certKey ≠ identityKey →
      exec (.identityCertificateCommit r handle digest certKey) s = .next (answered s r (heldKey s r) ⟨dropXfer s0 x.handle, 0x08, []⟩)))

/-- DEBUG_TOKEN_COMMIT and DEBUG_LOCK (R397, R398): an accepted token sets DebugUnlocked, is measured with code 0x20 and
journalled, and its bit decides on the monitor's writes; a refused one is counted in AuthFailures; either draws DebugNonce afresh.
A DebugLock write of 1 ends the unlock. -/
def Obligations.DebugUnlockedAndLocked : Prop :=
  (∀ (r : Route) (handle : Nat) (digest : Bytes) (s : State) (x : Xfer) (role : Role) (row : ObjRow) (s0 : State), CommitReady s r false Obj.debugToken handle digest x role row s0 → x.size = 7920 →
    (tokenOk s0 (xferImage x) = true →
      ∃ u, exec (.debugTokenCommit r handle digest) s = .next (answered s r (heldKey s r) ⟨u, 0, []⟩)
        ∧ u = { imageIn s0 r role row x with free := s0.free + 1, dic := u.dic, sec := u.sec, obs := u.obs }
        ∧ u.sec = { (measEvent s0 0x20 (natLe 1 1)).sec with monitorWrite := natBit 16 (leNat ((xferImage x).take 8)) }
        ∧ objGet u Obj.debugUnlocked = 1 ∧ objGet u Obj.debugNonce = (freeNow s0).toNat
        ∧ SameObjs s0 u ([Obj.debugUnlocked, Obj.debugNonce] ++ journalObjs)
        ∧ Logged (imageIn s0 r role row x) u .debugUnlocked [boolNat u.sec.monitorWrite] false)
    ∧ (tokenOk s0 (xferImage x) = false →
      ∃ u, exec (.debugTokenCommit r handle digest) s = .next (answered s r (heldKey s r) ⟨u, 0x08, []⟩)
        ∧ u = { dropXfer s0 x.handle with free := s0.free + 1, dic := u.dic } ∧ Counted s0 u Obj.authFailures 1
        ∧ objGet u Obj.debugNonce = (freeNow s0).toNat ∧ SameObjs s0 u [Obj.authFailures, Obj.debugNonce]))
  ∧ (∀ (r : Route) (v : Bytes) (s : State) (role : Role) (row : ObjRow) (s0 : State),
    WriteReady s r false Obj.debugLock v role row s0 →
    (leNat v = 1 →
      ∃ u, exec (.debugLock r v) s = .next (answered s r Obj.debugLock ⟨u, 0, []⟩)
        ∧ u = { applyNum s0 r role row Obj.debugLock 1 with dic := u.dic, sec := { s0.sec with monitorWrite := false } }
        ∧ objGet u Obj.debugUnlocked = 0 ∧ SameObjs s0 u (Obj.debugUnlocked :: journalObjs))
    ∧ (leNat v = 0 → exec (.debugLock r v) s = .next (answered s r Obj.debugLock ⟨applyNum s0 r role row Obj.debugLock 0, 0, []⟩)))

/-- KAT_RUN (R371, R372): a known-answer run that is due counts; one that passes advances the array's seed and is due again
KatPeriodS later; a first failure is counted, journalled and repeated at once with the same seed, a second in a row retires the
array. CHECKPOINT_NOW, CHECKPOINT_QUIESCED, CHECKPOINT_QUIESCE_TIMEOUT and CHECKPOINT_COPY_DONE (R373, R374): a checkpoint begins in
Ready only; once all is quiet the header's Valid bit is cleared; the copy ends with the next epoch, a valid header and every byte
of the tile store in the area, and changes no byte outside the area; it fails after CheckpointQuiesceMs. CHECKPOINT_RESTORE
(R375): refused with locked unless the module is Ready with no queue and a valid checkpoint of its own; else the area is copied
back. -/
def Obligations.KnownAnswersAndCheckpoints : Prop :=
  (∀ (nn : Nat) (f : Option Nat) (s : State), nn < 64 → katDue s nn = false → exec (.katRun nn f) s = .next s)
  ∧ (∀ (nn : Nat) (s : State), nn < 64 → s.arrays.length = 64 → katDue s nn = true →
    (∃ t, exec (.katRun nn none) s = .next t ∧ t = { s with dic := t.dic, arrays := t.arrays }
      ∧ arrayOf t nn = { arrayOf s nn with katLast := s.now, katFails := 0, katSeed := ((arrayOf s nn).katSeed + 1) % 256, active := none, standby := none }
      ∧ (∀ m, m ≠ nn → arrayOf t m = arrayOf s m) ∧ Counted s t Obj.katRuns 1 ∧ SameObjs s t [Obj.katRuns])
    ∧ (∀ p, (arrayOf s nn).katFails = 0 → (arrayOf s nn).missTimes.length < 2 →
      ∃ t, exec (.katRun nn (some p)) s = .next t ∧ t = { s with dic := t.dic, arrays := t.arrays, obs := t.obs }
        ∧ arrayOf t nn = { arrayOf s nn with katFails := 1, missTimes := (arrayOf s nn).missTimes ++ [s.now], active := none, standby := none }
        ∧ (∀ m, m ≠ nn → arrayOf t m = arrayOf s m) ∧ Counted s t Obj.katRuns 1 ∧ Counted s t Obj.katFailures 1
        ∧ Counted s t Obj.arrayMissEvents 1 ∧ Logged s t .katFailed [nn, (arrayOf s nn).katSeed, p] false
        ∧ SameObjs s t ([Obj.katRuns, Obj.katFailures, Obj.arrayMissEvents] ++ journalObjs))
    ∧ (∀ p, ∃ t, exec (.katRun nn (some p)) s = .next t
        ∧ t = { s with free := t.free, out := t.out, dic := t.dic, arrays := t.arrays, vecs := t.vecs, layers := t.layers
                       tile := t.tile, tilePoison := t.tilePoison, lpddr := t.lpddr, lpddrPoison := t.lpddrPoison
                       lpddrBad := t.lpddrBad, chans := t.chans, claims := t.claims, queues := t.queues, sync := t.sync
                       waiters := t.waiters, routerW := t.routerW, routerE := t.routerE, outst := t.outst, nextTag := t.nextTag
                       host := t.host, obs := t.obs }
        ∧ Counted s t Obj.katRuns 1 ∧ Counted s t Obj.katFailures 1 ∧ Counted s t Obj.arrayMissEvents 1
        ∧ (0 < (arrayOf s nn).katFails → natBit nn (objGet t Obj.arrayRetiredMap) = true
          ∧ (arrayOf t nn).banks = [[], []] ∧ (arrayOf t nn).trees = [[], []] ∧ (arrayOf t nn).fifo = [] ∧ (vecOf t nn).fifo = [])))
  ∧ (∀ (r : Route) (v : Bytes) (s : State) (role : Role) (row : ObjRow) (s0 : State),
    WriteReady s r false Obj.checkpointNow v role row s0 →
    (leNat v = 0 → exec (.checkpointNow r v) s = .next (answered s r Obj.checkpointNow ⟨applyNum s0 r role row Obj.checkpointNow 0, 0, []⟩))
    ∧ (leNat v = 1 → objGet s0 Obj.moduleState = 4 ∨ s0.seqs.ckptStep ≠ 0 →
      exec (.checkpointNow r v) s = .next (answered s r Obj.checkpointNow ⟨s0, 0x07, []⟩))
    ∧ (leNat v = 1 → objGet s0 Obj.moduleState ≠ 4 → objGet s0 Obj.moduleState ≠ 1 → s0.seqs.ckptStep = 0 →
      exec (.checkpointNow r v) s = .next (answered s r Obj.checkpointNow ⟨s0, 0x0B, []⟩))
    ∧ (leNat v = 1 → objGet s0 Obj.moduleState = 1 → s0.seqs.ckptStep = 0 →
      ∃ u, exec (.checkpointNow r v) s = .next (answered s r Obj.checkpointNow ⟨u, 0, []⟩)
        ∧ u = { applyNum s0 r role row Obj.checkpointNow 1 with
          dic := u.dic, seqs := { s0.seqs with ckptStep := 2, ckptSince := s0.now } }
        ∧ objGet u Obj.checkpointState = 1 ∧ SameObjs s0 u (Obj.checkpointState :: journalObjs)))
  ∧ (∀ s : State,
    (s.seqs.ckptStep ≠ 2 ∨ quiet s = false → exec .checkpointQuiesced s = .next s)
    ∧ (s.seqs.ckptStep = 2 → quiet s = true →
      ∃ t, exec .checkpointQuiesced s = .next t ∧ t = { s with lpddr := t.lpddr, seqs := { s.seqs with ckptStep := 3 } }
        ∧ natBit 32 (ckptHeader t) = false ∧ SameBytesBut s.lpddr t.lpddr (ckptBase s) 8)
    ∧ (s.seqs.ckptStep ≠ 2 ∨ s.now < s.seqs.ckptSince + ms (objGet s Obj.checkpointQuiesceMs) →
      exec .checkpointQuiesceTimeout s = .next s)
    ∧ (s.seqs.ckptStep = 2 → s.seqs.ckptSince + ms (objGet s Obj.checkpointQuiesceMs) ≤ s.now →
      ∃ u, exec .checkpointQuiesceTimeout s = .next (takeDoorbells u)
        ∧ u = { s with dic := u.dic, seqs := { s.seqs with ckptStep := 0 }, obs := u.obs } ∧ objGet u Obj.checkpointState = 3
        ∧ Logged s u .checkpointFailed [2] false ∧ SameObjs s u (Obj.checkpointState :: journalObjs))
    ∧ (s.seqs.ckptStep ≠ 3 ∨ s.chans.all (fun c => c.dim.isNone) = false → exec .checkpointCopyDone s = .next s)
    ∧ (s.seqs.ckptStep = 3 → s.chans.all (fun c => c.dim.isNone) = true → MemOk s → s.arrays.length = 64 →
      (∀ a ∈ s.arrays, ∀ b, (∀ e ∈ a.banks.getD b [], e.1 < 65536)
        ∧ (∀ e ∈ a.trees.getD b [], e.1 < 2048)) →
      (∀ e ∈ s.sync, e.1 < 32768) →
      ∃ t, exec .checkpointCopyDone s = .next (takeDoorbells t)
        ∧ t = { s with dic := t.dic, lpddr := t.lpddr, lpddrPoison := t.lpddrPoison, lpddrBad := t.lpddrBad,
                       seqs := { s.seqs with ckptStep := 0 } }
        ∧ objGet t Obj.checkpointEpoch = (objGet s Obj.checkpointEpoch + 1) % 2 ^ 32 ∧ objGet t Obj.checkpointState = 2
        ∧ SameObjs s t [Obj.checkpointEpoch, Obj.checkpointState]
        ∧ ckptHeader t = objGet t Obj.checkpointEpoch + 2 ^ 32
        ∧ (∀ i, i < tileSize → memRead t.lpddr (ckptBase s + areaTile + i) = memRead s.tile i)
        ∧ SameBytesBut s.lpddr t.lpddr (ckptBase s) ckptSize))
  ∧ (∀ (r : Route) (v : Bytes) (s : State) (role : Role) (row : ObjRow) (s0 : State),
    WriteReady s r false Obj.checkpointRestore v role row s0 →
    (leNat v = 0 → exec (.checkpointRestore r v) s = .next (answered s r Obj.checkpointRestore ⟨applyNum s0 r role row Obj.checkpointRestore 0, 0, []⟩))
    ∧ (leNat v = 1 → mayRestore s0 = false → exec (.checkpointRestore r v) s = .next (answered s r Obj.checkpointRestore ⟨s0, 0x08, []⟩))
    ∧ (leNat v = 1 → mayRestore s0 = true → MemOk s0 →
      ∃ u, exec (.checkpointRestore r v) s = .next (answered s r Obj.checkpointRestore ⟨u, 0, []⟩)
        ∧ u = { applyNum s0 r role row Obj.checkpointRestore 1 with
          doms := u.doms, arrays := u.arrays, esc := u.esc, tile := u.tile, tilePoison := u.tilePoison, sync := u.sync }
        ∧ u.arrays.length = s0.arrays.length
        ∧ (∀ i, i < 32768 → smGetD u.sync i 0 = BitVec.ofNat 64 (leNat (memBytes s0.lpddr (ckptBase s0 + areaSync + 8 * i) 8)))
        ∧ ∀ i, i < tileSize → memRead u.tile i = memRead s0.lpddr (ckptBase s0 + areaTile + i)))

/-- WARM_RESTART_WRITE and WARM_RESTART_STEP_DONE (R376, R377, Table REL-4, R25): a requested warm restart is refused while the
module starts or restarts, and to the Host in the bridge-failed state; else it begins, counted and journalled, with every layer
and descriptor dropped. Its steps are taken in order, each only when due: step 3 resets the dies but not LPDDR, step 4 verifies
the six images and measures them, steps 5 to 7 start the cores, train the bridge and the memory, step 9 the light, and step 10
ends in Ready, in the bridge-failed state, or in the memory-failed state. -/
def Obligations.WarmRestartsRunStepByStep : Prop :=
  (∀ (r : Route) (v : Bytes) (s : State) (role : Role) (row : ObjRow) (s0 : State),
    WriteReady s r false Obj.warmRestart v role row s0 →
    (leNat v = 0 → exec (.warmRestartWrite r v) s = .next (runAsked (answered s r Obj.warmRestart ⟨applyNum s0 r role row Obj.warmRestart 0, 0, []⟩)))
    ∧ (leNat v = 1 → objGet s0 Obj.moduleState = 0 ∨ objGet s0 Obj.moduleState = 4 →
      exec (.warmRestartWrite r v) s = .next (runAsked (answered s r Obj.warmRestart ⟨s0, 0x0B, []⟩)))
    ∧ (leNat v = 1 → objGet s0 Obj.moduleState = 2 → role = .host →
      exec (.warmRestartWrite r v) s = .next (runAsked (answered s r Obj.warmRestart ⟨s0, 0x05, []⟩)))
    ∧ (leNat v = 1 → objGet s0 Obj.moduleState ≠ 0 → objGet s0 Obj.moduleState ≠ 4 → (objGet s0 Obj.moduleState = 2 → role ≠ .host) →
      ∃ u, exec (.warmRestartWrite r v) s = .next (runAsked (answered s r Obj.warmRestart ⟨u, 0, []⟩))
        ∧ u = { applyNum s0 r role row Obj.warmRestart 1 with
          seqs := { s0.seqs with asked := if objGet s0 Obj.moduleState = 2 then 3 else 1 } }))
  ∧ (∀ s : State, s.seqs.asked = 1 ∨ s.seqs.asked = 3 →
    ∃ t, runAsked s = t ∧ t.seqs = { s.seqs with asked := 0, warmStep := 0, warmSince := s.now, running := false, ckptStep := 0 }
      ∧ objGet t Obj.moduleState = 4 ∧ objGet t Obj.lastRestartCause = s.seqs.asked ∧ objGet t Obj.lastResetSource = 5
      ∧ Counted s t Obj.warmRestarts 1 ∧ (s.seqs.ckptStep ≠ 0 → objGet t Obj.checkpointState = 3)
      ∧ t = { s with out := t.out, dic := t.dic, arrays := t.arrays, vecs := t.vecs, layers := t.layers, engines := t.engines
                     chans := t.chans, claims := t.claims, waitClaims := t.waitClaims, spills := t.spills, queues := t.queues
                     waiters := t.waiters, outst := t.outst, colls := t.colls, slots := t.slots, greys := t.greys
                     pendColls := t.pendColls, host := t.host, seqs := t.seqs, obs := t.obs }
      ∧ t.layers = [] ∧ t.colls = [] ∧ t.slots = [] ∧ t.waitClaims = [] ∧ (∀ g ∈ t.engines, g.ctx = [])
      ∧ (∀ a ∈ t.arrays, a.run = none ∧ a.fifo = []) ∧ Logged s t .warmRestart [s.seqs.asked] false
      ∧ SameObjs s t ([Obj.moduleState, Obj.lastRestartCause, Obj.lastResetSource, Obj.warmRestarts, Obj.checkpointState]
          ++ journalObjs))
  ∧ (∀ (o : StepOutcome) (s : State), s.power.on = false ∨ objGet s Obj.moduleState ≠ 4 →
    exec (.warmRestartStepDone o) s = .next s)
  ∧ (∀ s : State, s.power.on = true → objGet s Obj.moduleState = 4 →
    (∀ n, n = 0 ∨ n = 1 ∨ n = 7 → s.seqs.warmStep = n →
      exec (.warmRestartStepDone .ok) s = .next { s with seqs := { s.seqs with warmStep := n + 1 } })
    ∧ (s.seqs.warmStep = 2 →
      ∃ t, exec (.warmRestartStepDone .ok) s = .next t ∧ t.seqs.warmStep = 3 ∧ objGet t Obj.moduleState = 4 ∧ t.lpddr = s.lpddr
        ∧ t.lpddrPoison = s.lpddrPoison ∧ t.tile = [] ∧ t.sync = [] ∧ t.queues = [] ∧ t.cores = State.reset.cores
        ∧ (∀ a ∈ t.arrays, a.run = none ∧ a.banks = ({} : ArrayUnit).banks) ∧ t.remaps = s.remaps ∧ t.repairs = s.repairs
        ∧ t.power = s.power ∧ t.pending = s.pending ∧ t.now = s.now
        ∧ t.sec.meas.getD 0 [] = (chainStart s false).sec.meas.getD 0 [])
    ∧ (∀ is, s.seqs.warmStep = 3 → typesAre is [1, 2, 3, 4, 5, 6] = true →
      (verifyImages s is = none →
        ∃ t, exec (.warmRestartStepDone (.images is)) s = .next t
          ∧ t = { s with dic := t.dic, seqs := { s.seqs with warmStep := 4 }, sec := t.sec }
          ∧ t.sec.meas = (is.foldl measImage s).sec.meas ∧ t.sec.log = (is.foldl measImage s).sec.log
          ∧ SameObjs s t [Obj.firmwareVersion, Obj.runningSecVersion, Obj.bankState])
      ∧ (∀ ty, verifyImages s is = some ty →
        exec (.warmRestartStepDone (.images is)) s = .next (bootFailed s ty true)))
    ∧ (∀ b : Bool, s.seqs.warmStep = 4 →
      ∃ t, exec (.warmRestartStepDone (if b then .ok else .pilotUntrained)) s = .next t
        ∧ t = { s with dic := t.dic, cores := t.cores, seqs := { s.seqs with warmStep := 5, halfE := b } }
        ∧ (∀ i, i < 8 → (coreAt t i).st = if i < 4 ∨ b = true then 1 else 0)
        ∧ objGet t Obj.pilotState = boolNat b ∧ SameObjs s t [Obj.pilotState])
    ∧ (∀ failed, s.seqs.warmStep = 5 →
      ∃ t, exec (.warmRestartStepDone (.wires failed)) s = .next t
        ∧ t = { s with dic := t.dic, bridge := t.bridge, host := t.host, seqs := { s.seqs with warmStep := 6 }, obs := t.obs }
        ∧ objGet t Obj.bridgeMemBundles = ((List.range 64).filter (bundleTrains t)).length
        ∧ objGet t Obj.bridgeRouterBundles = ((List.range 32).filter (fun b => bundleTrains t (64 + b))).length
        ∧ (objGet t Obj.bridgeState = 2 ↔ objGet t Obj.bridgeMemBundles < 48 ∨ objGet t Obj.bridgeRouterBundles < 24)
        ∧ t.host = (if objGet t Obj.bridgeState = 2 then { s.host with cxlGiB := 0 } else s.host)
        ∧ SameObjs s t ([Obj.bridgeMemBundles, Obj.bridgeRouterBundles, Obj.bridgeRetiredMap, Obj.bridgeRetiredMapHigh,
            Obj.bridgeSparesUsed, Obj.bridgeState] ++ journalObjs))
    ∧ (∀ failed, s.seqs.warmStep = 6 →
      ∃ t, exec (.warmRestartStepDone (.channels failed)) s = .next t
        ∧ t = { s with dic := t.dic, chans := t.chans, host := t.host, seqs := { s.seqs with warmStep := 7 }, obs := t.obs }
        ∧ (∀ c, c < 64 → objGet t (Obj.memChannelState + c) = if failed.contains c then 4 else 0)
        ∧ ((∀ c ∈ failed, 64 ≤ c) → objGet t Obj.memState = 0 ∧ objGet t Obj.moduleState = 4 ∧ t.host = s.host)
        ∧ ((∃ c ∈ failed, c < 64) → objGet t Obj.memState = 2 ∧ objGet t Obj.moduleState = 3
            ∧ t.host = { s.host with cxlGiB := 0 })
        ∧ SameObjs s t ([Obj.memState, Obj.moduleState] ++ (List.range 64).map (Obj.memChannelState + ·) ++ alertObjs))
    ∧ (∀ (es : List LaserExam) (unlocked again : List Nat), s.seqs.warmStep = 8 →
      ∃ t, exec (.warmRestartStepDone (.reup es unlocked again)) s = .next t
        ∧ t = { s with free := s.free + 1088, dic := t.dic, persist := t.persist, doms := t.doms, lasers := t.lasers,
                       rings := t.rings, rotors := t.rotors, specMap := t.specMap, tapped := t.tapped, reassign := t.reassign,
                       recovery := t.recovery, inGrant := t.inGrant, links := t.links, routerW := t.routerW,
                       routerE := t.routerE, outst := t.outst, seqs := { s.seqs with warmStep := 9 }, obs := t.obs }
        ∧ (∀ k e, k < (if s.seqs.halfE then 8 else 4) → es[k]? = some e → objGet t (Obj.laserInputState + k) = laserState s k e))
    ∧ (s.seqs.warmStep = 9 →
      ∃ t, exec (.warmRestartStepDone .ok) s = .next t ∧ t.seqs.warmStep = 10
        ∧ objGet t Obj.moduleState = (if objGet s Obj.memState = 2 then 3
            else if objGet s Obj.bridgeState = 2 ∨ s.seqs.halfE = false then 2 else 1)
        ∧ (natBit 32 (ckptHeader s) = true → objGet t Obj.checkpointState = 2 ∧ objGet t Obj.checkpointEpoch = ckptHeader s % 2 ^ 32)
        ∧ (∀ nn, nn < s.arrays.length → arrayOf t nn = { arrayOf s nn with katLast := s.now })
        ∧ t = { s with dic := t.dic, arrays := t.arrays, links := t.links, routerW := t.routerW, routerE := t.routerE
                       outst := t.outst, host := t.host, seqs := t.seqs, obs := t.obs }
        ∧ t.host = (if objGet t Obj.moduleState = 2 then { s.host with cxlGiB := 0 } else s.host)
        ∧ (objGet t Obj.moduleState = 1 → s.seqs.trial = true → objGet t Obj.activeBank = s.seqs.bootBank
          ∧ objGet t Obj.bootBankRequest = 0xFF ∧ objGet t Obj.firmwareUpdateState = 3 ∧ t.seqs.trial = false)))

/-- AUX_POWER_UP, INTERMEDIATE_BUS_UP, MAIN_INPUT_QUALIFIED, AUX_RESTORE, RAIL_RETRY, STARTUP_OVERRUN, TRIAL_READY_TIMEOUT and
COLD_RESTART_WRITE (R353, R389, R401, R402, R405, R407, R420): power starts a cold start from step 1, a qualified main input ends
its wait, a failed rail is tried again after its time, a start beyond 14 s is counted once, and a trial not Ready in its time
ends with a cold start. A cold start begins with nothing kept but what is persistent, with its own boot count and its own cause. -/
def Obligations.PowerStartsTheModule : Prop :=
  (∀ (straps : Nat) (s : State), s.power.on = true →
    exec (.auxPowerUp straps) s = .next s ∧ exec (.intermediateBusUp straps) s = .next s)
  ∧ (∀ (straps : Nat) (c : Nat → Instr) (aux : Bool) (s : State), s.power.on = false →
    (c = .auxPowerUp ∧ aux = true) ∨ (c = .intermediateBusUp ∧ aux = false) →
    ∃ t, exec (c straps) s = .next t ∧ t.power.on = true ∧ t.power.aux = aux ∧ t.power.intermediate = !aux
      ∧ (nsHas s.persist Obj.lastResetSource = false → objGet t Obj.lastResetSource = 1)
      ∧ (nsHas s.persist Obj.auxState = false → objGet t Obj.auxState = boolNat (!aux)) ∧ objGet t Obj.moduleState = 0
      ∧ objGet t Obj.startupStep = 0 ∧ t.seqs.startStep = 0 ∧ t.seqs.running = true ∧ t.seqs.waitFrom = none
      ∧ t.seqs.startPoint = s.now ∧ t.seqs.straps = straps ∧ t.coldAt = s.now ∧ t.obs.bootCount = s.obs.bootCount + 1
      ∧ t.lpddr = [] ∧ t.tile = [] ∧ t.queues = [] ∧ t.colls = [] ∧ t.links = State.reset.links ∧ t.cores = State.reset.cores
      ∧ t.mgmt.sessions = [] ∧ t.persist = [] ∧ t.flash = s.flash ∧ t.pending = s.pending ∧ t.now = s.now)
  ∧ (∀ (source : Nat) (s : State),
    ∃ t, coldStart s source = t ∧ objGet t Obj.moduleState = 0 ∧ t.coldAt = s.now
      ∧ (nsHas s.persist Obj.lastResetSource = false → objGet t Obj.lastResetSource = source)
      ∧ t.obs.bootCount = s.obs.bootCount + 1 ∧ t.lpddr = [] ∧ t.tile = [] ∧ t.queues = [] ∧ t.persist = [] ∧ t.flash = s.flash
      ∧ t.colls = [] ∧ t.links = State.reset.links ∧ t.cores = State.reset.cores ∧ t.mgmt.sessions = [] ∧ t.pending = s.pending ∧ t.now = s.now
      ∧ t.power.black = false ∧ t.power.doms = List.replicate 8 {}
      ∧ (objGet s Obj.lifecycleState ≠ 4 → nsHas s.persist Obj.lifecycleState = false →
          t.seqs.running = true ∧ t.seqs.startStep = 3 ∧ t.seqs.waitFrom = some s.now ∧ t.seqs.needFirst = true))
  ∧ (∀ (straps : Nat) (s : State),
    (s.power.on = false → exec (.mainInputQualified straps) s = .next s)
    ∧ (s.power.on = true →
      ∃ t, exec (.mainInputQualified straps) s = .next t
        ∧ t = { s with dic := t.dic, power := { s.power with mainOk := true, intermediate := true }, seqs := t.seqs, obs := t.obs }
        ∧ objGet t Obj.mainInputState = 1 ∧ SameObjs s t ([Obj.mainInputState, Obj.posId, Obj.mgmtIpv4] ++ journalObjs)
        ∧ t.seqs = { s.seqs with straps := straps, waitFrom := none,
                                 waitNs := match s.seqs.waitFrom with
                                   | some w => s.seqs.waitNs + (s.now - w)
                                   | none => s.seqs.waitNs }
        ∧ (s.seqs.waitFrom.isSome = true → s.seqs.fromFour = true → objGet t Obj.posId = straps % 16)))
  ∧ (∀ s : State,
    (s.power.on = true → s.power.aux = false → s.iface.efuseOpen = false →
      ∃ t, exec .auxRestore s = .next t ∧ t = { s with dic := t.dic, power := { s.power with aux := true } }
        ∧ objGet t Obj.auxState = 0 ∧ SameObjs s t [Obj.auxState])
    ∧ (s.power.on = false ∨ s.power.aux = true ∨ s.iface.efuseOpen = true → exec .auxRestore s = .next s)
    ∧ (∀ at_, s.seqs.railRetryAt = some at_ →
      (at_ ≤ s.now → exec .railRetry s = .next { s with seqs := { s.seqs with railRetryAt := none } })
      ∧ (s.now < at_ → exec .railRetry s = .next s))
    ∧ (s.seqs.railRetryAt = none → exec .railRetry s = .next s)
    ∧ (s.seqs.running = true → s.seqs.overTold = false → 14000 < runningMs s →
      ∃ t, exec .startupOverrun s = .next t
        ∧ t = { s with dic := t.dic, seqs := { s.seqs with overTold := true }, obs := t.obs }
        ∧ Counted s t Obj.startupOverruns 1 ∧ SameObjs s t (Obj.startupOverruns :: journalObjs)
        ∧ Logged s t .startOverrun [s.seqs.startStep] false)
    ∧ (s.seqs.running = false ∨ s.seqs.overTold = true ∨ runningMs s ≤ 14000 → exec .startupOverrun s = .next s)
    ∧ (s.seqs.trial = true → (s.seqs.running = true ∧ 14000 < runningMs s)
        ∨ (objGet s Obj.moduleState = 4 ∧ s.seqs.warmSince + ms 8000 < s.now) →
      ∃ u, exec .trialReadyTimeout s = .next (beginCold u true)
        ∧ u = { s with dic := u.dic, seqs := { s.seqs with trial := false, trialFails := 0 } }
        ∧ objGet u Obj.bootBankRequest = 255 ∧ objGet u Obj.firmwareUpdateState = 5
        ∧ SameObjs s u [Obj.bootBankRequest, Obj.firmwareUpdateState])
    ∧ (s.seqs.trial = false ∨ ((s.seqs.running = false ∨ runningMs s ≤ 14000)
        ∧ (objGet s Obj.moduleState ≠ 4 ∨ s.now ≤ s.seqs.warmSince + ms 8000)) → exec .trialReadyTimeout s = .next s))
  ∧ (∀ (r : Route) (v : Bytes) (s : State) (role : Role) (row : ObjRow) (s0 : State),
    WriteReady s r false Obj.coldRestart v role row s0 →
    (leNat v = 0 → exec (.coldRestartWrite r v) s = .next (runAsked (answered s r Obj.coldRestart ⟨applyNum s0 r role row Obj.coldRestart 0, 0, []⟩)))
    ∧ (leNat v = 1 → objGet s0 Obj.moduleState = 0 ∨ objGet s0 Obj.moduleState = 4 →
      exec (.coldRestartWrite r v) s = .next (runAsked (answered s r Obj.coldRestart ⟨s0, 0x0B, []⟩)))
    ∧ (leNat v = 1 → objGet s0 Obj.moduleState ≠ 0 → objGet s0 Obj.moduleState ≠ 4 →
      ∃ u, exec (.coldRestartWrite r v) s = .next (runAsked (answered s r Obj.coldRestart ⟨u, 0, []⟩))
        ∧ u = { applyNum s0 r role row Obj.coldRestart 1 with seqs := { s0.seqs with asked := 4 } }))
  ∧ (∀ s : State, s.seqs.asked = 4 → s.power.pale = true →
    runAsked s = { s with seqs := { s.seqs with asked := 0, coldPending := true } })

/-- STARTUP_STEP_DONE (R401 to R406, Table BOOT-1, Table BOOT-2, R382 to R387): a step is taken only when it is the one due, and sets
StartupStep. Step 2 measures ROM and fuses, reads POS_ID and chooses the boot bank; step 3 verifies the type 1 image; step 4
sets the compute rails to 720 mV, or tries a failed rail once more after 1 s; step 5 verifies the other images and starts the
cores; steps 6 and 7 train the bridge and the memory; steps 9 and 10 examine the light and sweep the rings; step 14, and step 8
with failed memory, end the start. An image that fails is counted and the other bank is tried, and after it the module
stays in recovery. -/
def Obligations.StartStepsTakenInOrder : Prop :=
  (∀ (o : StepOutcome) (s : State), s.power.on = false ∨ s.seqs.running = false → exec (.startupStepDone o) s = .next s)
  ∧ (∀ (is : List ImageInfo) (mj d : Nat) (wires : List (Nat × Nat)) (chans : List Nat) (es : List LaserExam) (u a : List Nat) (s : State),
    exec (.startupStepDone (.reup es u a)) s = .next s
    ∧ (stepAfter s ≠ 3 → stepAfter s ≠ 5 → exec (.startupStepDone (.images is)) s = .next s)
    ∧ (stepAfter s ≠ 4 → exec (.startupStepDone (.rails mj)) s = .next s ∧ exec (.startupStepDone (.railFailed d)) s = .next s)
    ∧ (stepAfter s ≠ 6 → exec (.startupStepDone (.wires wires)) s = .next s)
    ∧ (stepAfter s ≠ 7 → exec (.startupStepDone (.channels chans)) s = .next s)
    ∧ (stepAfter s ≠ 9 → exec (.startupStepDone (.lasers es)) s = .next s)
    ∧ (stepAfter s ≠ 10 → exec (.startupStepDone (.rings u a)) s = .next s))
  ∧ (∀ s : State, s.power.on = true → s.seqs.running = true →
    (∀ n, stepAfter s = n → n = 1 ∨ n = 11 ∨ n = 13 ∨ (n = 8 ∧ objGet s Obj.memState ≠ 2) →
      ∃ t, exec (.startupStepDone .ok) s = .next t ∧ t = { s with dic := t.dic, seqs := { s.seqs with startStep := n } }
        ∧ objGet t Obj.startupStep = n ∧ SameObjs s t [Obj.startupStep])
    ∧ (∀ b : Bool, stepAfter s = 2 →
      ∃ t, exec (.startupStepDone (if b then .ok else .pilotUntrained)) s = .next t
        ∧ t = { s with dic := t.dic, seqs := t.seqs, sec := t.sec, obs := t.obs } ∧ t.seqs.startStep = 2
        ∧ objGet t Obj.startupStep = 2 ∧ objGet t Obj.pilotState = boolNat b ∧ objGet t Obj.posId = s.seqs.straps % 16
        ∧ t.sec.meas.getD 0 [] = (chainStart s false).sec.meas.getD 0 []
        ∧ (objGet s Obj.lifecycleState = 4 → t.seqs.running = false)
        ∧ (objGet s Obj.lifecycleState ≠ 4 → t.seqs.running = true ∧ (2 ≤ objGet s Obj.bootBankRequest →
            t.seqs.bootBank = objGet s Obj.activeBank ∧ t.seqs.trial = false)
          ∧ (objGet s Obj.bootBankRequest < 2 → s.seqs.trialFails < 2 →
            t.seqs.bootBank = objGet s Obj.bootBankRequest ∧ t.seqs.trial = true)
          ∧ (objGet s Obj.bootBankRequest < 2 → 2 ≤ s.seqs.trialFails →
            t.seqs.bootBank = objGet s Obj.activeBank ∧ t.seqs.trial = false ∧ objGet t Obj.bootBankRequest = 255)))
    ∧ (∀ is, stepAfter s = 3 → typesAre is [1] = true →
      (verifyImages s is = none →
        ∃ t, exec (.startupStepDone (.images is)) s = .next t ∧ t = { s with dic := t.dic, seqs := t.seqs, sec := t.sec }
          ∧ t.seqs = { s.seqs with startStep := 3, needFirst := false, waitFrom := if s.power.mainOk then none else some s.now }
          ∧ objGet t Obj.startupStep = 3 ∧ SameObjs s t [Obj.startupStep] ∧ t.sec.meas = (is.foldl measImage s).sec.meas)
      ∧ (∀ ty, verifyImages s is = some ty → exec (.startupStepDone (.images is)) s = .next (bootFailed s ty false)))
    ∧ (stepAfter s = 4 → mayRamp s = true →
      (∀ mj, ∃ t, exec (.startupStepDone (.rails mj)) s = .next t
        ∧ t = { s with dic := t.dic, power := t.power, seqs := { s.seqs with startStep := 4 } } ∧ t.power.shdnBlack = false
        ∧ objGet t Obj.startupStep = 4 ∧ objGet t Obj.holdUpMj = min 2000 mj ∧ t.power.doms.length = s.power.doms.length
        ∧ (∀ d, d < 8 → d < s.power.doms.length → (domAt t d).setpoint = min 720 (ceilingOf t d)
            ∧ objGet t (Obj.domainVoltageMv + d) = min 720 (ceilingOf t d)))
      ∧ (∀ d, ∃ t, exec (.startupStepDone (.railFailed d)) s = .next t
        ∧ t = { s with dic := t.dic, power := { s.power with doms := List.replicate 8 {} }, seqs := t.seqs, obs := t.obs }
        ∧ t.seqs = { s.seqs with railFails := s.seqs.railFails + 1, running := decide (s.seqs.railFails = 0)
                                 railRetryAt := if s.seqs.railFails = 0 then some (s.now + ms 1000) else none }
        ∧ SameObjs s t alertObjs ∧ Logged s t .railFailed [d] true))
    ∧ (stepAfter s = 4 → mayRamp s = false → ∀ mj d,
      exec (.startupStepDone (.rails mj)) s = .next s ∧ exec (.startupStepDone (.railFailed d)) s = .next s)
    ∧ (∀ is, stepAfter s = 5 → typesAre is (if s.seqs.needFirst then [1, 2, 3, 4, 5, 6] else [2, 3, 4, 5, 6]) = true →
      (verifyImages s is = none →
        ∃ t, exec (.startupStepDone (.images is)) s = .next t
          ∧ t = { s with dic := t.dic, cores := t.cores, seqs := t.seqs, sec := t.sec }
          ∧ t.seqs = { s.seqs with startStep := 5, needFirst := false, halfE := objGet s Obj.pilotState == 1 }
          ∧ (∀ i, i < 8 → (coreAt t i).st = if i < 4 ∨ objGet s Obj.pilotState = 1 then 1 else 0)
          ∧ objGet t Obj.startupStep = 5 ∧ t.sec.meas = (is.foldl measImage s).sec.meas
          ∧ SameObjs s t [Obj.startupStep, Obj.firmwareVersion, Obj.runningSecVersion, Obj.bankState])
      ∧ (∀ ty, verifyImages s is = some ty → exec (.startupStepDone (.images is)) s = .next (bootFailed s ty true)))
    ∧ (∀ failed, stepAfter s = 6 →
      ∃ t, exec (.startupStepDone (.wires failed)) s = .next t
        ∧ t = { s with dic := t.dic, bridge := t.bridge, host := t.host, seqs := { s.seqs with startStep := 6 }, obs := t.obs }
        ∧ objGet t Obj.startupStep = 6
        ∧ objGet t Obj.bridgeMemBundles = ((List.range 64).filter (bundleTrains t)).length
        ∧ objGet t Obj.bridgeRouterBundles = ((List.range 32).filter (fun b => bundleTrains t (64 + b))).length
        ∧ (objGet t Obj.bridgeState = 2 ↔ objGet t Obj.bridgeMemBundles < 48 ∨ objGet t Obj.bridgeRouterBundles < 24)
        ∧ t.host = (if objGet t Obj.bridgeState = 2 then { s.host with cxlGiB := 0 } else s.host))
    ∧ (∀ failed, stepAfter s = 7 →
      ∃ t, exec (.startupStepDone (.channels failed)) s = .next t
        ∧ t = { s with dic := t.dic, persist := t.persist, chans := t.chans, repairs := t.repairs, host := t.host,
                       seqs := { s.seqs with startStep := 7 }, obs := t.obs }
        ∧ objGet t Obj.startupStep = 7 ∧ (∀ c, c < 64 → objGet t (Obj.memChannelState + c) = if failed.contains c then 4 else 0)
        ∧ ((∀ c ∈ failed, 64 ≤ c) → objGet t Obj.memState = 0) ∧ ((∃ c ∈ failed, c < 64) → objGet t Obj.memState = 2)
        ∧ (objGet s Obj.memHardRepairArm ≠ 0 → objGet t Obj.memHardRepairArm = 0 ∧ t.repairs = [])
        ∧ (objGet s Obj.memHardRepairArm = 0 → t.repairs = s.repairs)
        ∧ SameObjs s t ([Obj.startupStep, Obj.memState, Obj.memHardRepairArm] ++ (List.range 64).map (Obj.memChannelState + ·) ++ alertObjs))
    ∧ (∀ es, stepAfter s = 9 →
      ∃ t, exec (.startupStepDone (.lasers es)) s = .next t
        ∧ t = { s with dic := t.dic, lasers := t.lasers, specMap := t.specMap, tapped := t.tapped,
                       seqs := { s.seqs with startStep := 9 }, obs := t.obs }
        ∧ objGet t Obj.startupStep = 9
        ∧ (∀ k e, k < (if s.seqs.halfE then 8 else 4) → es[k]? = some e → objGet t (Obj.laserInputState + k) = laserState s k e
            ∧ objGet t (Obj.laserLinesUsable + k) = examLines e))
    ∧ (∀ unlocked again, stepAfter s = 10 →
      ∃ t, exec (.startupStepDone (.rings unlocked again)) s = .next t
        ∧ t = { s with free := s.free + 1088, dic := t.dic, persist := t.persist, doms := t.doms, lasers := t.lasers,
                       rings := t.rings, rotors := t.rotors, specMap := t.specMap, reassign := t.reassign,
                       recovery := t.recovery, inGrant := t.inGrant, links := t.links, routerW := t.routerW,
                       routerE := t.routerE, outst := t.outst, seqs := { s.seqs with startStep := 10 }, obs := t.obs }
        ∧ objGet t Obj.startupStep = 10
        ∧ (∀ q, q < 1088 → q < s.rings.length → fibreUp s (ringFibre q) = true →
            (ringRetired s q = false → (ringOf t q).locked = !(unlocked.contains q && again.contains q))
            ∧ (ringRetired s q = true → (ringOf t q).locked = !(unlocked.contains q || again.contains q))))
    ∧ (stepAfter s = 12 →
      ∃ t, exec (.startupStepDone .ok) s = .next t
        ∧ t = { s with dic := t.dic, links := t.links, routerW := t.routerW, routerE := t.routerE, outst := t.outst,
                       seqs := { s.seqs with startStep := 12 }, obs := t.obs }
        ∧ objGet t Obj.startupStep = 12)
    ∧ (∀ n, stepAfter s = n → n = 14 ∨ (n = 8 ∧ objGet s Obj.memState = 2) →
      ∃ t, exec (.startupStepDone .ok) s = .next t
        ∧ t = { s with dic := t.dic, arrays := t.arrays, links := t.links, routerW := t.routerW, routerE := t.routerE
                       outst := t.outst, host := t.host, seqs := t.seqs, obs := t.obs }
        ∧ t.seqs.running = false ∧ t.seqs.startStep = n ∧ objGet t Obj.startupStep = n
        ∧ objGet t Obj.startupMs = startMs s
        ∧ objGet t Obj.moduleState = (if objGet s Obj.memState = 2 then 3
            else if objGet s Obj.bridgeState = 2 ∨ s.seqs.halfE = false then 2 else 1)
        ∧ (∀ nn, nn < s.arrays.length → arrayOf t nn = { arrayOf s nn with katLast := s.now })))
  ∧ (∀ (ty : Nat) (hot : Bool) (s : State), s.seqs.trial = false →
    (s.seqs.secondBank = false →
      ∃ t, bootFailed s ty hot = t ∧ t = { s with dic := t.dic, seqs := t.seqs, sec := t.sec, obs := t.obs }
        ∧ t.seqs = { s.seqs with secondBank := true, bootBank := 1 - s.seqs.bootBank, needFirst := true }
        ∧ Counted s t Obj.bootVerifyFailures 1 ∧ SameObjs s t (Obj.bootVerifyFailures :: journalObjs)
        ∧ Logged s t .bootVerifyFailed [s.seqs.bootBank, ty] false ∧ t.sec.chain = [])
    ∧ (s.seqs.secondBank = true →
      ∃ t, bootFailed s ty hot = t ∧ t.seqs.recovery = true ∧ t.seqs.running = false ∧ objGet t Obj.startupStep = 2
        ∧ objGet t Obj.moduleState = 0 ∧ t.power.doms = List.replicate 8 {} ∧ t.queues = []))
  ∧ (∀ (ty : Nat) (s : State), s.seqs.trial = true →
    (∃ u, bootFailed s ty true = beginCold u true
      ∧ u = { s with dic := u.dic, seqs := { s.seqs with trial := false, trialFails := 0 }, obs := u.obs }
      ∧ objGet u Obj.bootBankRequest = 255 ∧ objGet u Obj.firmwareUpdateState = 5 ∧ Counted s u Obj.bootVerifyFailures 1
      ∧ Logged s u .bootVerifyFailed [s.seqs.bootBank, ty] false)
    ∧ (∃ t, bootFailed s ty false = t ∧ t = { s with dic := t.dic, seqs := t.seqs, sec := t.sec, obs := t.obs }
      ∧ t.seqs = { s.seqs with trial := false, trialFails := 0, secondBank := false, needFirst := true, bootBank := objGet s Obj.activeBank }
      ∧ objGet t Obj.bootBankRequest = 255 ∧ objGet t Obj.firmwareUpdateState = 5 ∧ Counted s t Obj.bootVerifyFailures 1
      ∧ Logged s t .bootVerifyFailed [s.seqs.bootBank, ty] false ∧ t.sec.chain = []))

/-- CROSSING_DRAIN_TIMEOUT (R413, R414): 10 µs after a channel's retraining its reads that have not completed fail as
cause 4; a facet's links send again every flit they still owe that has sends left; an island's crossings are reset, and what they
counted is read. A crossing as a nanosecond passes (R410, R411): until its acknowledgement is back nothing changes; then one pulse
goes to the far side, which reads the counts, if it is at work. -/
def Obligations.CrossingsDrainedOrFailed : Prop :=
  (∀ (c : Nat) (s : State),
    ((∀ since, (chanOf s c).dim = some (.retrain, since) → s.now < since + us 10) →
      exec (.crossingDrainTimeout (.channel c)) s = .next s)
    ∧ (∀ since, (chanOf s c).dim = some (.retrain, since) → since + us 10 ≤ s.now →
      exec (.crossingDrainTimeout (.channel c)) s = .next (islandReset (failReads s c) (.channel c))
        ∧ (openReads s (fun _ x r => inChannel s c x r) = [] → failReads s c = s)
        ∧ (∀ e x r q, openReads s (fun _ x r => inChannel s c x r) = [(e, x, r)] → findCtx s e x.d.queue x.d.seq = some q →
            q.reqs.any (fun y => y.id == r.id) = true → failReads s c = finishReq s e q r (.fail 4 15))))
  ∧ (∀ (f : Nat) (s : State),
    ∃ t, exec (.crossingDrainTimeout (.facet f)) s = .next t
      ∧ t = { s with dic := t.dic, links := t.links, wires := smErase s.wires (islandIx (.facet f)) }
      ∧ SameObjs s t (Obj.flitRetries :: islandObjs s (.facet f))
      ∧ (∀ k, k < 64 → ((linkOf s k).outLanes.any (fun l => l.fibre / 8 == f) = false → linkOf t k = linkOf s k)
        ∧ (linkOf t k).unacked.map Unacked.seq = (linkOf s k).unacked.map Unacked.seq
        ∧ (k < s.links.length → (linkOf s k).outLanes.any (fun l => l.fibre / 8 == f) = true → ∀ u, (linkOf s k).unacked = [u] →
            u.sends < 16 → (laneFor (linkOf s k) u.body).isSome = true → (linkOf t k).unacked = [{ u with sends := u.sends + 1, at_ := s.now }])))
  ∧ (∀ (b : Nat) (i : Island) (s : State), i = .bundle b ∨ i = .hostPhy ∨ i = .pilot ∨ i = .mac ∨ i = .uart →
    ∃ t, exec (.crossingDrainTimeout i) s = .next t ∧ t = { s with dic := t.dic, wires := smErase s.wires (islandIx i) }
      ∧ SameObjs s t (islandObjs s i)
      ∧ (∀ key n, (smGetD s.wires (islandIx i) {}).counts = [(key, n)] → Counted s t key n))
  ∧ (∀ (i : Island) (w : EventWire) (s : State), s.pending = [] → s.wires = [(islandIx i, w)] →
    (∀ u, w.ackAt = some u → u ≤ s.now + 1 →
      (wireTaken s (islandIx i) = true →
        ∃ t, step s = .next t ∧ t.wires = [(islandIx i, { w with seen := w.toggle, ackAt := none, pulse := false, counts := [] })]
          ∧ (∀ key n, w.counts = [(key, n)] → Counted s t key n ∧ SameObjs s t [key]))
      ∧ (wireTaken s (islandIx i) = false →
        ∃ t, step s = .next t ∧ t.wires = [(islandIx i, { w with seen := w.toggle, ackAt := none, pulse := true })]
          ∧ t.dic = s.dic))
    ∧ (∀ u, w.ackAt = some u → s.now + 1 < u → w.pulse = false →
      ∃ t, step s = .next t ∧ t.wires = s.wires ∧ t.dic = s.dic))

/-- PALE_ENTER, PALE_EXIT and PALE_LONG (R351): below 42.0 V the module is Pale, every ceiling at the floor; above 44.0 V, and 2 ms
on, Pale ends, is counted, its longest is kept, and a cold start that waited begins; 10 s in Pale are told once. SUPPLY_RESET
(R352): below 36.0 V or above 62.0 V the module is switched off, with AUX into a cold start that waits for the main input,
without it unpowered; counted and journalled. AUX_LOSS (R353): with the intermediate bus the island runs on, told; without it the
module is unpowered. -/
def Obligations.SupplyDipsAndResets : Prop :=
  (∀ (mv : Nat) (s : State), s.power.on = true → 36000 ≤ mv →
    (s.power.pale = false → s.power.mainOk = true → s.power.black = false → mv < 42000 →
      ∃ t, exec (.paleEnter mv) s = .next t ∧ t = { s with dic := t.dic, power := t.power }
        ∧ t.power = { s.power with pale := true, paleSince := s.now, paleLow := s.now, paleTold := false, doms := t.power.doms }
        ∧ SupplyNoted s t mv ∧ VoltsShown t ∧ (∀ d, d < 8 → (domAt t d).setpoint = min (domAt s d).setpoint 550)
        ∧ SameObjs s t (supplyObjs ++ voltObjs))
    ∧ (s.power.pale = true →
      ∃ t, exec (.paleEnter mv) s = .next t
        ∧ t = { s with dic := t.dic, power := { s.power with paleLow := if mv ≤ 44000 then s.now else s.power.paleLow } }
        ∧ SupplyNoted s t mv ∧ SameObjs s t supplyObjs)
    ∧ (s.power.pale = false → s.power.mainOk = false ∨ s.power.black = true ∨ 42000 ≤ mv → exec (.paleEnter mv) s = .next s))
  ∧ (∀ (mv : Nat) (s : State), s.power.on = false ∨ mv < 36000 → exec (.paleEnter mv) s = .next s)
  ∧ (∀ (mv : Nat) (s : State),
    (s.power.pale = true → 44000 < mv → s.power.paleLow + ms 2 ≤ s.now →
      ∃ u, exec (.paleExit mv) s = .next (if s.seqs.coldPending = true then coldStart u 4 else u)
        ∧ u = { s with dic := u.dic, power := u.power }
        ∧ u.power = { s.power with pale := false, paleTold := false, doms := u.power.doms } ∧ SupplyNoted s u mv ∧ VoltsShown u
        ∧ (∀ d, d < 8 → d < s.power.doms.length → (domAt u d).last = s.now) ∧ Counted s u Obj.paleEvents 1
        ∧ objGet u Obj.paleLongestMs = max (objGet s Obj.paleLongestMs) (ceilDiv (s.now - s.power.paleSince) 1000000)
        ∧ SameObjs s u ([Obj.paleEvents, Obj.paleLongestMs] ++ supplyObjs ++ voltObjs))
    ∧ (s.power.pale = false ∨ mv ≤ 44000 ∨ s.now < s.power.paleLow + ms 2 → exec (.paleExit mv) s = .next s))
  ∧ (∀ s : State,
    (s.power.pale = true → s.power.paleTold = false → s.power.paleSince + ms 10000 ≤ s.now →
      ∃ t, exec .paleLong s = .next t ∧ t = { s with dic := t.dic, power := { s.power with paleTold := true }, obs := t.obs }
        ∧ SameObjs s t alertObjs ∧ Logged s t .paleLong [s.now - s.power.paleSince] true)
    ∧ (s.power.pale = false ∨ s.power.paleTold = true ∨ s.now < s.power.paleSince + ms 10000 → exec .paleLong s = .next s))
  ∧ (∀ (mv : Int) (s : State),
    (s.power.on = false ∨ (36000 ≤ mv ∧ mv ≤ 62000) → exec (.supplyReset mv) s = .next s)
    ∧ (s.power.on = true → mv < 36000 ∨ 62000 < mv → s.power.mainOk = false → s.power.intermediate = false →
      ∃ t, exec (.supplyReset mv) s = .next t ∧ t = { s with dic := t.dic, obs := t.obs }
        ∧ objGet t Obj.mainInputState = inputState mv ∧ SupplyNoted s t mv.toNat
        ∧ SameObjs s t (Obj.mainInputState :: supplyObjs ++ alertObjs)
        ∧ (inputState mv = 2 → objGet s Obj.mainInputState ≠ 2 → Logged s t .mainReversed [1, 2] true))
    ∧ (s.power.on = true → mv < 36000 ∨ 62000 < mv → s.power.mainOk = true ∨ s.power.intermediate = true →
      ∃ u, u = { s with dic := u.dic, power := if s.power.aux = true then
            { s.power with mainOk := false, intermediate := false, pale := false } else s.power, obs := u.obs }
        ∧ objGet u Obj.mainInputState = inputState mv ∧ SupplyNoted s u mv.toNat ∧ Counted s u Obj.supplyResets 1
        ∧ SameObjs s u ([Obj.mainInputState, Obj.supplyResets] ++ supplyObjs ++ alertObjs)
        ∧ (inputState mv ≠ 2 ∨ objGet s Obj.mainInputState = 2 → Logged s u .supplyReset [codeOf 32 mv] false)
        ∧ (s.power.aux = false → exec (.supplyReset mv) s = .next (unpower u))
        ∧ (s.power.aux = true → s.power.black = true → exec (.supplyReset mv) s = .next u)
        ∧ (s.power.aux = true → s.power.black = false → exec (.supplyReset mv) s = .next (coldStart u 2))))
  ∧ (∀ s : State,
    (s.power.on = true → s.power.aux = true → s.power.intermediate = true →
      ∃ t, exec .auxLoss s = .next t ∧ t = { s with dic := t.dic, power := { s.power with aux := false }, obs := t.obs }
        ∧ objGet t Obj.auxState = 1 ∧ SameObjs s t (Obj.auxState :: alertObjs) ∧ Logged s t .auxLost [] true)
    ∧ (s.power.on = true → s.power.aux = true → s.power.intermediate = false →
      exec .auxLoss s = .next (unpower { s with power := { s.power with aux := false } }))
    ∧ (s.power.on = false ∨ s.power.aux = false → exec .auxLoss s = .next s)
    ∧ (∃ t, unpower s = t ∧ t.power = {} ∧ t.lpddr = [] ∧ t.tile = [] ∧ t.queues = [] ∧ t.persist = [] ∧ t.flash = s.flash
        ∧ t.mgmt = {} ∧ t.obs = { jring := s.obs.jring, bootCount := s.obs.bootCount }))

/-- CONVERTER_FAULT, POWER_LIMIT_OVERRUN and POWER_LIMIT_RECOVER (R350): a lost converter is told, with five or fewer left, or
with the limit overrun, every ceiling is at the floor until the input has recovered. SETPOINT_STEP (R349, R350): each setpoint
of the half falls 5 mV in 100 µs above the limit, and rises 5 mV in 250 µs towards its target, never above its ceiling.
COMMIT_DEFERRAL_RETRY and HOLD_UP_FAULT (R354): the hold-up bank's energy is reported, a deferred commit below 0.60 J is counted,
and 60 s below it are told once. -/
def Obligations.ConvertersSetpointsAndHoldUp : Prop :=
  (∀ (c : Nat) (s : State), c < 8 →
    (s.power.on = true → natBit c (objGet s Obj.convertersOk) = true →
      ∃ t, exec (.converterFault c) s = .next t ∧ t = { s with dic := t.dic, power := t.power, obs := t.obs }
        ∧ objGet t Obj.convertersOk = clearNatBit c (objGet s Obj.convertersOk) ∧ Logged s t .converterLost [c] true
        ∧ (5 < convertersOn t → t.power = s.power ∧ SameObjs s t (Obj.convertersOk :: alertObjs))
        ∧ (convertersOn t ≤ 5 → t.power = { s.power with hwFloor := true, doms := t.power.doms } ∧ VoltsShown t
          ∧ SameObjs s t (Obj.convertersOk :: alertObjs ++ voltObjs)))
    ∧ (s.power.on = false ∨ natBit c (objGet s Obj.convertersOk) = false → exec (.converterFault c) s = .next s))
  ∧ (∀ s : State,
    (s.power.on = true → convertersOn s = 6 ∨ convertersOn s = 7 → lasted s.now s.power.overSince (ms 1) = true →
      ∃ t, exec .powerLimitOverrun s = .next t ∧ t = { s with dic := t.dic, power := t.power }
        ∧ t.power = { s.power with hwFloor := true, doms := t.power.doms } ∧ VoltsShown t
        ∧ (∀ d, d < 8 → (domAt t d).setpoint = min (domAt s d).setpoint 550) ∧ SameObjs s t voltObjs)
    ∧ (s.power.on = false ∨ convertersOn s < 6 ∨ 7 < convertersOn s ∨ lasted s.now s.power.overSince (ms 1) = false → exec .powerLimitOverrun s = .next s)
    ∧ (s.power.hwFloor = true → 6 ≤ convertersOn s → lasted s.now s.power.underSince (ms 10) = true →
      ∃ t, exec .powerLimitRecover s = .next t ∧ t = { s with dic := t.dic, power := t.power }
        ∧ t.power = { s.power with hwFloor := false, doms := t.power.doms } ∧ VoltsShown t
        ∧ (∀ d, d < 8 → d < s.power.doms.length → (domAt t d).last = s.now) ∧ SameObjs s t voltObjs)
    ∧ (s.power.hwFloor = false ∨ convertersOn s < 6 ∨ lasted s.now s.power.underSince (ms 10) = false → exec .powerLimitRecover s = .next s))
  ∧ (∀ (h : Half) (watts w : Nat) (ov un : Option Nat) (s : State), w = min 65535 watts →
    ov = heldSince s.now s.power.overSince (decide (powerLimit s < watts)) →
    un = heldSince s.now s.power.underSince (decide (100 * watts ≤ 95 * powerLimit s)) →
    (s.power.on = false → exec (.setpointStep h watts) s = .next s)
    ∧ (s.power.on = true → (coreAt s (4 * halfIx h + 1)).st ≠ 1 →
      ∃ t, exec (.setpointStep h watts) s = .next t
        ∧ t = { s with dic := t.dic, power := { s.power with overSince := ov, underSince := un } } ∧ objGet t Obj.inputPowerW = w
        ∧ SameObjs s t [Obj.inputPowerW])
    ∧ (s.power.on = true → (coreAt s (4 * halfIx h + 1)).st = 1 → PartsOk s →
      ∃ t, exec (.setpointStep h watts) s = .next t ∧ t = { s with dic := t.dic, power := t.power }
        ∧ t.power = { s.power with doms := t.power.doms, overSince := ov, underSince := un } ∧ objGet t Obj.inputPowerW = w ∧ VoltsShown t
        ∧ SameObjs s t (Obj.inputPowerW :: voltObjs)
        ∧ ∀ d, 4 * halfIx h ≤ d → d < 4 * halfIx h + 4 → (domAt s d).setpoint ≠ 0 → (domAt s d).setpoint ≤ ceilingOf s d →
          (powerLimit s < w → (domAt s d).last + us 100 ≤ s.now →
            (domAt t d).setpoint = min (max 550 ((domAt s d).setpoint - 5)) (ceilingOf s d) ∧ (domAt t d).last = s.now)
          ∧ (powerLimit s < w → s.now < (domAt s d).last + us 100 → domAt t d = domAt s d)
          ∧ (w ≤ powerLimit s → ∀ target, target = min (if mayBoost t h = true then 800 else 720) (ceilingOf s d) →
            (target < (domAt s d).setpoint → (domAt t d).setpoint = target)
            ∧ ((domAt s d).setpoint < target → (domAt s d).last + us 250 ≤ s.now →
              (domAt t d).setpoint = min target ((domAt s d).setpoint + 5) ∧ (domAt t d).last = s.now)
            ∧ ((domAt s d).setpoint < target → s.now < (domAt s d).last + us 250 → domAt t d = domAt s d)
            ∧ ((domAt s d).setpoint = target → domAt t d = domAt s d))))
  ∧ (∀ (mj : Nat) (s : State),
    (s.power.on = false → exec (.commitDeferralRetry mj) s = .next s)
    ∧ (s.power.on = true →
      ∃ t, exec (.commitDeferralRetry mj) s = .next t ∧ t = { s with dic := t.dic, power := t.power }
        ∧ t.power = { s.power with lowBankSince := t.power.lowBankSince, lowBankTold := t.power.lowBankTold }
        ∧ objGet t Obj.holdUpMj = min 2000 mj ∧ SameObjs s t [Obj.holdUpMj, Obj.commitDeferrals]
        ∧ (600 ≤ mj → t.power.lowBankSince = none ∧ t.power.lowBankTold = false
          ∧ objGet t Obj.commitDeferrals = objGet s Obj.commitDeferrals)
        ∧ (mj < 600 → (s.power.lowBankSince = none → t.power.lowBankSince = some s.now)
          ∧ (∀ a, s.power.lowBankSince = some a → t.power.lowBankSince = some a)
          ∧ (s.persist ≠ [] → s.power.pale = false → Counted s t Obj.commitDeferrals 1)
          ∧ (s.persist = [] ∨ s.power.pale = true → objGet t Obj.commitDeferrals = objGet s Obj.commitDeferrals))))
  ∧ (∀ s : State,
    (∀ a, s.power.lowBankSince = some a → s.power.lowBankTold = false → a + ms 60000 ≤ s.now →
      ∃ t, exec .holdUpFault s = .next t ∧ t = { s with dic := t.dic, power := { s.power with lowBankTold := true }, obs := t.obs }
        ∧ SameObjs s t alertObjs ∧ Logged s t .holdUpFault [objGet s Obj.holdUpMj] true)
    ∧ (∀ a, s.power.lowBankSince = some a → s.now < a + ms 60000 → exec .holdUpFault s = .next s)
    ∧ (s.power.lowBankSince = none ∨ s.power.lowBankTold = true → exec .holdUpFault s = .next s))

/-- SENSOR_READING and SENSOR_UNFLAG (R356, R357): a site reports the higher of its sensors that are not flagged; a reading outside
−20 °C to 150 °C flags its sensor, told, until both have agreed for 10 s. AMBER_ENTER, AMBER_STEP and AMBER_EXIT (R358): the ceiling
falls 20 mV below the voltage in effect, 20 mV more each 50 µs, and is free again after 1 ms. A site at ThermalRedC holds its
sub-domains at the floor until RED_EXIT finds it 5 °C cooler for 10 ms. At ThermalBlackC, and at BLACK_RATE_TRIGGER, the module
shuts down (R360), and starts again by THERMAL_AUTO_RESTART after 5 s below 60 °C, or by THERMAL_RESTART_WRITE, refused with busy
while a sensor reads 60 °C or more. -/
def Obligations.SensorsAmberRedAndBlack : Prop :=
  (∀ (n : Nat) (r0 r1 : Int) (s : State), n < 88 → s.power.on = false → exec (.sensorReading n r0 r1) s = .next s)
  ∧ (∀ (n : Nat) (r0 r1 : Int) (s : State), n < 88 → s.power.on = true → PartsOk s →
    (∃ t, exec (.sensorReading n r0 r1) s = .next t ∧ (siteAt t n).s0 = r0 ∧ (siteAt t n).s1 = r1
      ∧ (siteAt t n).hist = ((r0, r1) :: (siteAt s n).hist).take 6 ∧ (∀ m, m ≠ n → siteAt t m = siteAt s m))
    ∧ (outOfRange r0 = true → outOfRange r1 = true →
      ∃ t, exec (.sensorReading n r0 r1) s = .next t ∧ t = { s with dic := t.dic, power := t.power, obs := t.obs }
        ∧ (siteAt t n).flag0 = true ∧ (siteAt t n).flag1 = true ∧ (∀ d ∈ domsOfSite n, (domAt t d).red = true) ∧ VoltsShown t
        ∧ SameObjs s t ([Obj.thermalHottestC, Obj.redEvents] ++ voltObjs ++ alertObjs)))
  ∧ (∀ (n : Nat) (r0 r1 T : Int) (s : State), n < 88 → s.power.on = true → PartsOk s → jumped r0 r1 ((siteAt s n).hist.take 2) = false →
    jumped r1 r0 (((siteAt s n).hist.take 2).map Prod.swap) = false →
    (outOfRange r0 = false → outOfRange r1 = false → siteNow { siteAt s n with s0 := r0, s1 := r1 } = some T →
      (T < 8 * ((objGet s Obj.thermalRedC : Nat) : Int) → T < 8 * ((objGet s Obj.thermalBlackC : Nat) : Int) →
        ∃ t, exec (.sensorReading n r0 r1) s = .next t ∧ t = { s with dic := t.dic, power := t.power }
          ∧ t.power = { s.power with sites := t.power.sites, coolSince := t.power.coolSince } ∧ (siteAt t n).s0 = r0
          ∧ (siteAt t n).s1 = r1 ∧ (siteAt t n).hist = ((r0, r1) :: (siteAt s n).hist).take 6
          ∧ (siteAt t n).flag0 = (siteAt s n).flag0 ∧ (siteAt t n).flag1 = (siteAt s n).flag1
          ∧ (∀ m, m ≠ n → siteAt t m = siteAt s m) ∧ objGet t (Obj.siteTemp + n) = codeOf 32 T
          ∧ SameObjs s t [Obj.siteTemp + n, Obj.thermalHottestC])
      ∧ (8 * ((objGet s Obj.thermalRedC : Nat) : Int) ≤ T → T < 8 * ((objGet s Obj.thermalBlackC : Nat) : Int) →
        ∃ t, exec (.sensorReading n r0 r1) s = .next t ∧ t = { s with dic := t.dic, power := t.power }
          ∧ (siteAt t n).red = true ∧ (∀ m, m ≠ n → siteAt t m = siteAt s m) ∧ objGet t (Obj.siteTemp + n) = codeOf 32 T
          ∧ (∀ d ∈ domsOfSite n, (domAt t d).red = true ∧ (domAt t d).setpoint = min (domAt s d).setpoint 550) ∧ VoltsShown t
          ∧ (∀ d, d < 8 → d ∉ domsOfSite n → (domAt t d).red = (domAt s d).red)
          ∧ Counted s t Obj.redEvents ((domsOfSite n).filter (fun d => !(domAt s d).red)).length
          ∧ SameObjs s t ([Obj.siteTemp + n, Obj.thermalHottestC, Obj.redEvents] ++ voltObjs))
      ∧ (8 * ((objGet s Obj.thermalBlackC : Nat) : Int) ≤ T → s.power.black = false →
        ∃ u, exec (.sensorReading n r0 r1) s = .next (blackShutdown u n 0) ∧ u = { s with dic := u.dic, power := u.power }
          ∧ u.power.black = false ∧ (siteAt u n).s0 = r0 ∧ (siteAt u n).s1 = r1)
      ∧ (8 * ((objGet s Obj.thermalBlackC : Nat) : Int) ≤ T → s.power.black = true →
        ∃ t, exec (.sensorReading n r0 r1) s = .next t ∧ t = { s with dic := t.dic, power := t.power } ∧ t.power.black = true))
    ∧ (outOfRange r0 = true → outOfRange r1 = false → (siteAt s n).flag0 = false → (siteAt s n).flag1 = false → T = r1 →
      T < 8 * ((objGet s Obj.thermalRedC : Nat) : Int) → T < 8 * ((objGet s Obj.thermalBlackC : Nat) : Int) →
      ∃ t, exec (.sensorReading n r0 r1) s = .next t ∧ t = { s with dic := t.dic, power := t.power, obs := t.obs }
        ∧ (siteAt t n).flag0 = true ∧ (siteAt t n).flag1 = false ∧ objGet t (Obj.siteTemp + n) = codeOf 32 T
        ∧ Logged s t .sensorFlagged [n, 0] true ∧ SameObjs s t ([Obj.siteTemp + n, Obj.thermalHottestC] ++ alertObjs)))
  ∧ (∀ (n k : Nat) (s : State), n < 88 → k < 2 → PartsOk s →
    (∀ a, (siteAt s n).agree = some a → a + ms 10000 ≤ s.now →
      ∃ t, exec (.sensorUnflag n k) s = .next t ∧ t = { s with power := { s.power with sites := t.power.sites } }
        ∧ siteAt t n = (if k = 0 then { siteAt s n with flag0 := false } else { siteAt s n with flag1 := false })
        ∧ (∀ m, m ≠ n → siteAt t m = siteAt s m))
    ∧ (∀ a, (siteAt s n).agree = some a → s.now < a + ms 10000 → exec (.sensorUnflag n k) s = .next s)
    ∧ ((siteAt s n).agree = none → exec (.sensorUnflag n k) s = .next s))
  ∧ (∀ (d : Nat) (s : State), d < 8 → PartsOk s →
    (amberDue s d = true → (domAt s d).amber = none → 0 < (domAt s d).setpoint →
      ∃ t, exec (.amberEnter d) s = .next t ∧ t = { s with dic := t.dic, power := { s.power with doms := t.power.doms } }
        ∧ (domAt t d).amber = some (s.now, max 550 (voltage s d - 20), s.now) ∧ VoltsShown t ∧ Counted s t Obj.amberEvents 1
        ∧ SameObjs s t (Obj.amberEvents :: voltObjs))
    ∧ (amberDue s d = false ∨ (domAt s d).amber ≠ none ∨ (domAt s d).setpoint = 0 → exec (.amberEnter d) s = .next s)
    ∧ ((domAt s d).amber = none → exec (.amberStep d) s = .next s ∧ exec (.amberExit d) s = .next s)
    ∧ (∀ since c last, (domAt s d).amber = some (since, c, last) →
      (last + us 50 ≤ s.now → (sitesOfDom d).any (fun n => (siteAt s n).amberSince.isSome) = true →
        ∃ t, exec (.amberStep d) s = .next t ∧ t = { s with dic := t.dic, power := { s.power with doms := t.power.doms } }
          ∧ (domAt t d).amber = some (since, max 550 (c - 20), last + us 50) ∧ VoltsShown t ∧ SameObjs s t voltObjs)
      ∧ (s.now < last + us 50 ∨ (sitesOfDom d).any (fun n => (siteAt s n).amberSince.isSome) = false →
        exec (.amberStep d) s = .next s)
      ∧ (amberOver s d = true →
        ∃ t, exec (.amberExit d) s = .next t ∧ t = { s with dic := t.dic, power := { s.power with doms := t.power.doms } }
          ∧ (domAt t d).amber = none ∧ (domAt t d).last = s.now ∧ VoltsShown t
          ∧ Counted s t Obj.amberMs (ceilDiv (s.now - since) 1000000) ∧ SameObjs s t (Obj.amberMs :: voltObjs))
      ∧ (amberOver s d = false → exec (.amberExit d) s = .next s))
    ∧ ((domAt s d).red = true → (sitesOfDom d).any (holdsRed s) = false →
      ∃ t, exec (.redExit d) s = .next t
        ∧ t = { s with dic := t.dic, power := { s.power with doms := t.power.doms, sites := t.power.sites } }
        ∧ (domAt t d).red = false ∧ (domAt t d).last = s.now ∧ VoltsShown t ∧ SameObjs s t voltObjs
        ∧ (∀ e, e ≠ d → e < 8 → (domAt t e).red = (domAt s e).red))
    ∧ ((domAt s d).red = false ∨ (sitesOfDom d).any (holdsRed s) = true → exec (.redExit d) s = .next s))
  ∧ (∀ (n trigger : Nat) (s : State), n < 88 →
    (∀ a, (siteAt s n).blackSince = some a → s.power.on = true → a + us 100 ≤ s.now →
      exec (.blackRateTrigger n) s = .next (blackShutdown s n 1))
    ∧ (∀ a, (siteAt s n).blackSince = some a → s.now < a + us 100 → exec (.blackRateTrigger n) s = .next s)
    ∧ ((siteAt s n).blackSince = none ∨ s.power.on = false → exec (.blackRateTrigger n) s = .next s)
    ∧ (s.power.black = true → blackShutdown s n trigger = s)
    ∧ (s.power.black = false →
      ∃ t, blackShutdown s n trigger = t ∧ t.power.black = true ∧ t.power.shdnBlack = true ∧ shdnLow t = true
        ∧ objGet t Obj.moduleState = 5 ∧ objGet t Obj.thermalState = 3 ∧ objGet t Obj.startupStep = 3 ∧ t.seqs.running = false
        ∧ (∀ d, d < 8 → (domAt t d).setpoint = 0 ∧ objGet t (Obj.domainVoltageMv + d) = 0) ∧ t.lpddr = [] ∧ t.tile = []
        ∧ t.queues = [] ∧ t.mgmt.sessions = s.mgmt.sessions ∧ t.flash = s.flash
        ∧ (nsHas s.persist Obj.blackShutdowns = false → Counted s t Obj.blackShutdowns 1)
        ∧ t.power.blackTimes = (s.power.blackTimes.filter (fun b => decide (s.now < b + 3600 * ms 1000))) ++ [s.now]
        ∧ t.power.autoSuspended = (s.power.autoSuspended || decide (3 ≤ t.power.blackTimes.length))))
  ∧ (∀ s : State,
    (∀ a, s.power.coolSince = some a → s.power.black = true → objGet s Obj.thermalAutoRestart = 1 → s.power.autoSuspended = false →
      a + ms 5000 ≤ s.now →
      exec .thermalAutoRestart s = .next (coldStart { s with power := { s.power with black := false } } 3))
    ∧ (∀ a, s.power.coolSince = some a → s.now < a + ms 5000 → exec .thermalAutoRestart s = .next s)
    ∧ (s.power.coolSince = none ∨ s.power.black = false ∨ objGet s Obj.thermalAutoRestart ≠ 1 ∨ s.power.autoSuspended = true →
      exec .thermalAutoRestart s = .next s)
    ∧ (s.seqs.asked = 5 → s.power.black = true →
      runAsked s = coldStart { s with seqs := { s.seqs with asked := 0 }, power := { s.power with black := false } } 3)
    ∧ (s.seqs.asked = 5 → s.power.black = false → runAsked s = { s with seqs := { s.seqs with asked := 0 } }))
  ∧ (∀ (r : Route) (v : Bytes) (s : State) (role : Role) (row : ObjRow) (s0 : State),
    WriteReady s r true Obj.thermalRestart v role row s0 →
    (leNat v = 0 → exec (.thermalRestartWrite r v) s = .next (runAsked (answered s r Obj.thermalRestart ⟨applyNum s0 r role row Obj.thermalRestart 0, 0, []⟩)))
    ∧ (leNat v = 1 → s0.power.sites.any (fun x => decide (480 ≤ x.s0) || decide (480 ≤ x.s1)) = true →
      exec (.thermalRestartWrite r v) s = .next (runAsked (answered s r Obj.thermalRestart ⟨s0, 0x07, []⟩)))
    ∧ (leNat v = 1 → s0.power.sites.any (fun x => decide (480 ≤ x.s0) || decide (480 ≤ x.s1)) = false →
      ∃ u, exec (.thermalRestartWrite r v) s = .next (runAsked (answered s r Obj.thermalRestart ⟨u, 0, []⟩))
        ∧ u = { applyNum s0 r role row Obj.thermalRestart 1 with
          power := { s0.power with autoSuspended := false, blackTimes := [] }, seqs := { s0.seqs with asked := 5 } }))

/-- The module's interfaces (R426, R428, R429, R432, Table MOD-18): LEAK_LOOP_SAMPLE reports the loop, its class after three equal
readings, and drives SHDN_N at a leak that LeakAction asks for, until LEAK_DRY_RELEASE after 10 s dry; FLOW_LOW is told once an
episode after 5 s; AUX_EFUSE_TRIP isolates AUX, tried again after 1 s; a serial line that is short or broken is released or
ignored, and taken back when it is well; TIME_SOURCE_CHANGE is journalled. -/
def Obligations.InterfacesWatchedAndReported : Prop :=
  (∀ (ohms : Nat) (s : State),
    (s.power.on = false → exec (.leakLoopSample ohms) s = .next s)
    ∧ (s.power.on = true → ∀ c, c = leakClass ohms →
      ∃ t, exec (.leakLoopSample ohms) s = .next t
        ∧ t = { s with dic := t.dic, power := { s.power with shdnLeak := t.power.shdnLeak }, iface := t.iface, obs := t.obs }
        ∧ t.iface = { s.iface with leakLast := (c :: s.iface.leakLast).take 3, dryHold := heldSince s.now s.iface.dryHold (c == 0) }
        ∧ objGet t Obj.leakLoopOhms = min ohms (2 ^ 32 - 1) ∧ SameObjs s t ([Obj.leakLoopOhms, Obj.leakState] ++ alertObjs)
        ∧ (s.iface.leakLast.take 2 = [c, c] → objGet t Obj.leakState = c
          ∧ (objGet s Obj.leakState ≠ c → Logged s t .leakChanged [9, 10, c, ohms] (c != 0)))
        ∧ (s.iface.leakLast.take 2 ≠ [c, c] → objGet t Obj.leakState = objGet s Obj.leakState ∧ t.obs = s.obs)
        ∧ t.power.shdnLeak = (s.power.shdnLeak || (objGet t Obj.leakState == 1 && objGet s Obj.leakAction == 1))))
  ∧ (∀ s : State,
    (∀ a, s.iface.dryHold = some a → a + ms 10000 ≤ s.now →
      exec .leakDryRelease s = .next { s with power := { s.power with shdnLeak := false } })
    ∧ (∀ a, s.iface.dryHold = some a → s.now < a + ms 10000 → exec .leakDryRelease s = .next s)
    ∧ (s.iface.dryHold = none → exec .leakDryRelease s = .next s))
  ∧ (∀ (centi : Nat) (s : State),
    (s.power.on = false ∨ objGet s Obj.flowTachEnable ≠ 1 → exec (.flowLow centi) s = .next s)
    ∧ (s.power.on = true → objGet s Obj.flowTachEnable = 1 → objGet s Obj.flowMinLpm ≤ centi →
      ∃ t, exec (.flowLow centi) s = .next t
        ∧ t = { s with dic := t.dic, iface := { s.iface with flowSince := none, flowEpisode := false } }
        ∧ objGet t Obj.flowCentiLpm = min 65535 centi ∧ SameObjs s t [Obj.flowCentiLpm])
    ∧ (s.power.on = true → objGet s Obj.flowTachEnable = 1 → centi < objGet s Obj.flowMinLpm →
      (s.iface.flowSince = none →
        ∃ t, exec (.flowLow centi) s = .next t ∧ t = { s with dic := t.dic, iface := { s.iface with flowSince := some s.now } }
          ∧ objGet t Obj.flowCentiLpm = min 65535 centi ∧ SameObjs s t [Obj.flowCentiLpm])
      ∧ (∀ a, s.iface.flowSince = some a → a + ms 5000 ≤ s.now → s.iface.flowEpisode = false →
        ∃ t, exec (.flowLow centi) s = .next t
          ∧ t = { s with dic := t.dic, iface := { s.iface with flowEpisode := true }, obs := t.obs }
          ∧ objGet t Obj.flowCentiLpm = min 65535 centi ∧ Logged s t .flowLow [centi] true ∧ SameObjs s t (Obj.flowCentiLpm :: alertObjs))
      ∧ (∀ a, s.iface.flowSince = some a → s.now < a + ms 5000 ∨ s.iface.flowEpisode = true →
        ∃ t, exec (.flowLow centi) s = .next t ∧ t = { s with dic := t.dic } ∧ objGet t Obj.flowCentiLpm = min 65535 centi
          ∧ SameObjs s t [Obj.flowCentiLpm])))
  ∧ (∀ (c : Instr) (s : State),
    (c = .auxEfuseTrip ∧ s.power.on = true ∧ s.power.aux = true)
      ∨ (c = .auxEfuseRetry false ∧ s.power.on = true ∧ s.iface.efuseOpen = true ∧ s.iface.efuseAt + ms 1000 ≤ s.now) →
    (s.power.intermediate = true →
      ∃ t, exec c s = .next t
        ∧ t = { s with dic := t.dic, power := { s.power with aux := false }
                       iface := { s.iface with efuseOpen := true, efuseAt := s.now }, obs := t.obs }
        ∧ objGet t Obj.auxState = 1 ∧ Counted s t Obj.auxEfuseTrips 1 ∧ Logged s t .auxEfuse [1, 5] false
        ∧ SameObjs s t ([Obj.auxEfuseTrips, Obj.auxState] ++ journalObjs))
    ∧ (s.power.intermediate = false →
      ∃ u, exec c s = .next (unpower u)
        ∧ u = { s with dic := u.dic, power := { s.power with aux := false }
                       iface := { s.iface with efuseOpen := true, efuseAt := s.now }, obs := u.obs }
        ∧ Counted s u Obj.auxEfuseTrips 1 ∧ Logged s u .auxEfuse [1, 5] false
        ∧ SameObjs s u (Obj.auxEfuseTrips :: journalObjs)))
  ∧ (∀ s : State,
    (s.power.on = false ∨ s.power.aux = false → exec .auxEfuseTrip s = .next s)
    ∧ (s.power.on = true → s.iface.efuseOpen = true → s.iface.efuseAt + ms 1000 ≤ s.now →
      ∃ t, exec (.auxEfuseRetry true) s = .next t
        ∧ t = { s with dic := t.dic, power := { s.power with aux := true }, iface := { s.iface with efuseOpen := false } }
        ∧ objGet t Obj.auxState = 0 ∧ SameObjs s t [Obj.auxState])
    ∧ (∀ b, s.power.on = false ∨ s.iface.efuseOpen = false ∨ s.now < s.iface.efuseAt + ms 1000 →
      exec (.auxEfuseRetry b) s = .next s)
    ∧ (s.power.on = true → s.iface.txReleased = false →
      ∃ t, exec .monTxdFault s = .next t
        ∧ t = { s with dic := t.dic, iface := { s.iface with txReleased := true, txAt := s.now }, obs := t.obs }
        ∧ objGet t Obj.monLineFault = setNatBit 0 (objGet s Obj.monLineFault) ∧ Logged s t .monTxd [2, 4] false
        ∧ SameObjs s t (Obj.monLineFault :: journalObjs))
    ∧ (s.power.on = false ∨ s.iface.txReleased = true → exec .monTxdFault s = .next s)
    ∧ (s.iface.txReleased = true → s.iface.txAt + ms 1000 ≤ s.now →
      (∃ t, exec (.monTxdDriverRetry true) s = .next t ∧ t = { s with dic := t.dic, iface := { s.iface with txReleased := false } }
        ∧ objGet t Obj.monLineFault = clearNatBit 0 (objGet s Obj.monLineFault) ∧ SameObjs s t [Obj.monLineFault])
      ∧ exec (.monTxdDriverRetry false) s = .next { s with iface := { s.iface with txAt := s.now } })
    ∧ (∀ b, s.iface.txReleased = false ∨ s.now < s.iface.txAt + ms 1000 → exec (.monTxdDriverRetry b) s = .next s)
    ∧ (s.power.on = true → s.iface.rxIgnored = false →
      ∃ t, exec .monRxdBreak s = .next t ∧ t = { s with dic := t.dic, iface := { s.iface with rxIgnored := true }, obs := t.obs }
        ∧ objGet t Obj.monLineFault = setNatBit 1 (objGet s Obj.monLineFault) ∧ Logged s t .monRxd [2, 5] false
        ∧ SameObjs s t (Obj.monLineFault :: journalObjs))
    ∧ (s.power.on = false ∨ s.iface.rxIgnored = true → exec .monRxdBreak s = .next s)
    ∧ (s.iface.rxIgnored = true →
      ∃ t, exec .monRxdBreakEnd s = .next t ∧ t = { s with dic := t.dic, iface := { s.iface with rxIgnored := false } }
        ∧ objGet t Obj.monLineFault = clearNatBit 1 (objGet s Obj.monLineFault) ∧ SameObjs s t [Obj.monLineFault])
    ∧ (s.iface.rxIgnored = false → exec .monRxdBreakEnd s = .next s))
  ∧ (∀ (b : Bool) (s : State),
    (s.power.on = true → objGet s Obj.timeSource ≠ boolNat (!b) →
      ∃ t, exec (.timeSourceChange b) s = .next t ∧ t = { s with dic := t.dic, obs := t.obs }
        ∧ objGet t Obj.timeSource = boolNat (!b) ∧ Logged s t .timeSource [boolNat (!b)] false
        ∧ SameObjs s t (Obj.timeSource :: journalObjs))
    ∧ (s.power.on = false ∨ objGet s Obj.timeSource = boolNat (!b) → exec (.timeSourceChange b) s = .next s))

/-- SNAPSHOT_TAKE, MARKER_FLIT_RECEIVE and SNAPSHOT_CLOSE (R434 to R437, Table MON-2): a snapshot copies every counter at once, makes
every bound link record and sends a marker on those that take one; refused with busy during a snapshot, and nothing happens for an
epoch held already. The marker of a new epoch starts one with a Reach one less, its own link having nothing to record; the marker
of the epoch in progress ends a link's record. It closes when every record has ended, or after 10 ms with the links that have not
marked incomplete. JOURNAL_COMMIT (R438): the pending entries go into the ring of 262,144, or, without the energy, are
deferred. -/
def Obligations.SnapshotsTakenAndJournalKept : Prop :=
  (∀ (r : Route) (v : Bytes) (s : State) (role : Role) (row : ObjRow) (s0 : State),
    WriteReady s r false Obj.snapshotTake v role row s0 →
    (s0.obs.current.isSome = true → exec (.snapshotTake r v) s = .next (answered s r Obj.snapshotTake ⟨s0, 0x07, []⟩))
    ∧ (s0.obs.current = none → epochTaken s0 (leNat v % 2 ^ 32) = true →
      exec (.snapshotTake r v) s = .next (answered s r Obj.snapshotTake ⟨applyNum s0 r role row Obj.snapshotTake (leNat v), 0, []⟩))
    ∧ (s0.obs.current = none → epochTaken s0 (leNat v % 2 ^ 32) = false → s0.links.length = 64 →
      ∃ u, exec (.snapshotTake r v) s = .next (answered s r Obj.snapshotTake ⟨u, 0, []⟩)
        ∧ u = { s0 with free := u.free, dic := u.dic, persist := u.persist, links := u.links, obs := u.obs }
        ∧ u.obs.current = some (leNat v % 2 ^ 32, leNat v / 2 ^ 32 % 64, s0.now) ∧ u.obs.target = olderBank s0
        ∧ objGet u Obj.snapshotState = 1
        ∧ snapBank u u.obs.target = { epoch := some (leNat v % 2 ^ 32), origin := chip s0, cut := s0.now - s0.coldAt, incomplete := 0,
                                      values := (snapBank u u.obs.target).values,
                                      links := List.replicate 64 [0, 0, 0, 0, 0, 0], complete := false }
        ∧ (∀ (i : Nat) (k : SnapKey), snapKeys[i]? = some k → pathE s0 = true ∨ isHalfE k.1 = false →
            (snapBank u u.obs.target).values[i]? = some (counterNow (applyNum s0 r role row Obj.snapshotTake (leNat v)) k))
        ∧ (pathE s0 = true → u.free = s0.free)
        ∧ (∀ k, k < 64 → ((linkOf s0 k).bound = true →
            (linkOf u k).recEpoch = some (leNat v % 2 ^ 32) ∧ (linkOf u k).recCount = [0, 0, 0, 0, 0, 0])
          ∧ ((linkOf s0 k).bound = false → linkOf u k = linkOf s0 k)
          ∧ (takesMarker s0 k = true → CanSend s0 k (.marker (leNat v % 2 ^ 32) (leNat v / 2 ^ 32 % 64)) →
              Given u k (.marker (leNat v % 2 ^ 32) (leNat v / 2 ^ 32 % 64))))))
  ∧ (∀ (k e reach : Nat) (s : State), k < 64 → s.links.length = 64 →
    ((linkOf s k).recEpoch = some e →
      ∃ t, exec (.markerFlitReceive k e reach) s = .next t ∧ t = { s with links := t.links, obs := t.obs }
        ∧ linkOf t k = { linkOf s k with recEpoch := none } ∧ (∀ i, i ≠ k → linkOf t i = linkOf s i)
        ∧ snapBank t s.obs.target = { snapBank s s.obs.target with
          links := (snapBank s s.obs.target).links.set k (linkOf s k).recCount })
    ∧ ((linkOf s k).recEpoch ≠ some e → epochTaken s e = true → exec (.markerFlitReceive k e reach) s = .next s)
    ∧ ((linkOf s k).recEpoch ≠ some e → epochTaken s e = false → reach = 0 →
      s.obs.current = none ∨ s.obs.heldMarks.any (fun h => h.1 == e) = false →
      exec (.markerFlitReceive k e reach) s = .next s)
    ∧ ((linkOf s k).recEpoch ≠ some e → epochTaken s e = false → s.obs.current.isSome = true → 0 < reach →
      s.obs.heldMarks.any (fun h => h.1 == e) = false →
      exec (.markerFlitReceive k e reach) s = .next { s with obs := { s.obs with
        heldMarks := s.obs.heldMarks ++ [(e, reach)], earlyMarks := s.obs.earlyMarks ++ [(e, k)] } })
    ∧ ((linkOf s k).recEpoch ≠ some e → epochTaken s e = false → s.obs.current.isSome = true →
      s.obs.heldMarks.any (fun h => h.1 == e) = true →
      exec (.markerFlitReceive k e reach) s = .next { s with obs := { s.obs with earlyMarks := s.obs.earlyMarks ++ [(e, k)] } })
    ∧ ((linkOf s k).recEpoch ≠ some e → epochTaken s e = false → s.obs.current = none → 0 < reach →
      ∃ t, exec (.markerFlitReceive k e reach) s = .next t
        ∧ t = { s with free := t.free, dic := t.dic, links := t.links, obs := t.obs }
        ∧ t.obs.current = some (e, reach - 1, s.now) ∧ t.obs.target = olderBank s ∧ objGet t Obj.snapshotState = 1
        ∧ (∀ (i : Nat) (x : SnapKey), snapKeys[i]? = some x → pathE s = true ∨ isHalfE x.1 = false →
            (snapBank t t.obs.target).values[i]? = some (counterNow s x))
        ∧ (pathE s = true → t.free = s.free + 1)
        ∧ ((linkOf s k).bound = true → (linkOf t k).recEpoch = none)
        ∧ (snapBank t t.obs.target).links.getD k [] = [0, 0, 0, 0, 0, 0]
        ∧ (∀ i, i < 64 → i ≠ k → (linkOf s i).bound = true → (linkOf t i).recEpoch = some e
            ∧ (takesMarker s i = true → CanSend s i (.marker e (reach - 1)) → Given t i (.marker e (reach - 1))))
        ∧ SameObjs s t [Obj.snapshotState, Obj.retryWindowStalls]))
  ∧ (∀ s : State,
    (s.obs.current = none → exec .snapshotClose s = .next s)
    ∧ (∀ e reach at_, s.obs.current = some (e, reach, at_) →
      (s.now < at_ + ms 10 → recordsEnded s e = false → exec .snapshotClose s = .next s)
      ∧ (at_ + ms 10 ≤ s.now ∨ recordsEnded s e = true → s.obs.heldMarks = [] → s.links.length = 64 →
        ∃ t, exec .snapshotClose s = .next t ∧ t = { s with dic := t.dic, links := t.links, obs := t.obs } ∧ t.obs.current = none
          ∧ objGet t Obj.snapshotEpoch = e ∧ objGet t Obj.snapshotState = 2 ∧ Counted s t Obj.snapshotsTaken 1
          ∧ SameObjs s t [Obj.snapshotEpoch, Obj.snapshotState, Obj.snapshotsTaken]
          ∧ (snapBank t s.obs.target).complete = true
          ∧ (snapBank t s.obs.target).incomplete = Nat.lor (snapBank s s.obs.target).incomplete (openRecords s e)
          ∧ (∀ k, k < 64 → (linkOf t k).recEpoch ≠ some e))
      ∧ (∀ e2 r2 rest, at_ + ms 10 ≤ s.now ∨ recordsEnded s e = true → s.obs.heldMarks = (e2, r2) :: rest → s.links.length = 64 →
        ((snapBank s (1 - s.obs.target)).complete = true → (snapBank s (1 - s.obs.target)).cut < (snapBank s s.obs.target).cut) →
        ∃ t, exec .snapshotClose s = .next t ∧ t = { s with free := t.free, dic := t.dic, links := t.links, obs := t.obs }
          ∧ t.obs.current = some (e2, r2 - 1, s.now) ∧ t.obs.heldMarks = rest ∧ objGet t Obj.snapshotEpoch = e
          ∧ objGet t Obj.snapshotState = 1 ∧ Counted s t Obj.snapshotsTaken 1 ∧ (snapBank t s.obs.target).complete = true
          ∧ SameObjs s t [Obj.snapshotEpoch, Obj.snapshotState, Obj.snapshotsTaken, Obj.retryWindowStalls])))
  ∧ (∀ s : State,
    (s.power.on = true → s.obs.jbuf ≠ [] → s.obs.lastCommit + ms 1000 ≤ s.now ∨ 256 ≤ s.obs.jbuf.length →
      (mayCommit s = true →
        exec .journalCommit s = .next { s with obs := { s.obs with
          jring := (s.obs.jring ++ s.obs.jbuf).drop ((s.obs.jring ++ s.obs.jbuf).length - 262144), jbuf := [], lastCommit := s.now } })
      ∧ (mayCommit s = false →
        ∃ t, exec .journalCommit s = .next t ∧ t = { s with dic := t.dic } ∧ Counted s t Obj.commitDeferrals 1
          ∧ SameObjs s t [Obj.commitDeferrals]))
    ∧ (s.power.on = false ∨ s.obs.jbuf = [] ∨ (s.now < s.obs.lastCommit + ms 1000 ∧ s.obs.jbuf.length < 256) →
      exec .journalCommit s = .next s))

/-- The Onal monitor's lines (R439, Table MON-4): nothing is taken while the monitor does not hear or a transfer runs; a line during
core 3's restart is discarded and counted; before core 3 runs, help, jr and token answer not-ready. help, id, state and jr
print; rd, snap and wr do what a read and a write by the monitor do, each write row of its own included. -/
def Obligations.MonitorLinesAnswered : Prop :=
  (∀ (c : Instr) (k n e h : Nat) (v d : Bytes) (b : Bool) (s : State),
    c ∈ [.monHelp, .monId, .monState, .monRd k, .monJr n, .monSnap e h, .monWr k v b, .monToken, .monLoad n d] →
    (monHears s = false ∨ s.obs.xfer.isSome = true → exec c s = .next s)
    ∧ (monHears s = true → s.obs.xfer = none → core3 s = 2 →
      ∃ t, exec c s = .next t ∧ t = { s with dic := t.dic } ∧ Counted s t Obj.monLinesDiscarded 1
        ∧ SameObjs s t [Obj.monLinesDiscarded]))
  ∧ (∀ (n : Nat) (s : State), monHears s = true → s.obs.xfer = none → core3 s = 0 → s.iface.txReleased = false →
    ∀ c, c ∈ [.monHelp, .monJr n, .monToken] →
      exec c s = .next { s with out := s.out ++ [.monitorStatus 0x0B, .monitor "onal> "] })
  ∧ (∀ s : State, monHears s = true → s.obs.xfer = none → core3 s = 1 → s.iface.txReleased = false →
    exec .monHelp s = .next { s with out := s.out ++ [.monitor monNames, .monitor "onal> "] }
    ∧ (∀ n, 1 ≤ n → n ≤ 256 →
      exec (.monJr n) s = .next { s with out := s.out ++
        [.monitorEntries ((s.obs.jring ++ s.obs.jbuf).drop ((s.obs.jring ++ s.obs.jbuf).length - n)), .monitor "onal> "] })
    ∧ (∀ n, n = 0 ∨ 256 < n → exec (.monJr n) s = .next { s with out := s.out ++ [.monitorStatus 0x03, .monitor "onal> "] }))
  ∧ (∀ s : State, monHears s = true → s.obs.xfer = none → core3 s = 1 → s.iface.txReleased = true →
    exec .monHelp s = .next s ∧ exec .monId s = .next s ∧ exec .monState s = .next s)
  ∧ (∀ s : State, monHears s = true → s.obs.xfer = none → core3 s ≠ 2 → s.iface.txReleased = false →
    (∀ c ks, (c = .monId ∧ ks = [Obj.productCode, Obj.serialNumber, Obj.chipNumber, Obj.firmwareVersion])
        ∨ (c = .monState ∧ ks = [Obj.moduleState, Obj.startupStep, Obj.thermalState, Obj.bridgeState, Obj.memState]
            ++ (List.range 64).map (fun k => Obj.linkState + k)) →
      exec c s = .next { s with out := s.out ++ ks.map (fun k => .monitorValue k (match objRow k with
        | some row => if row.typ = .str then strRead k else natLe row.typ.len (objRead s k)
        | none => [])) ++ [.monitor "onal> "] })
    ∧ (∀ k, ∃ t, exec (.dicRead .monRead k) s = .next t ∧ exec (.monRd k) s = .next (prompt t))
    ∧ (∀ e h, ∃ t, exec (.snapshotTake .monWrite (natLe 8 (e % 2 ^ 32 + h % 64 * 2 ^ 32))) s = .next t
      ∧ exec (.monSnap e h) s = .next (prompt t))
    ∧ (∀ k v b, ownRow k = false → ∃ t, exec (.dicWrite .monWrite k v) s = .next t ∧ exec (.monWr k v b) s = .next (prompt t))
    ∧ (∀ (k : Nat) (c : Instr) (v : Bytes) (b : Bool), (k, c) ∈ [
        (Obj.warmRestart, .warmRestartWrite .monWrite v), (Obj.coldRestart, .coldRestartWrite .monWrite v),
        (Obj.thermalRestart, .thermalRestartWrite .monWrite v), (Obj.checkpointNow, .checkpointNow .monWrite v),
        (Obj.checkpointRestore, .checkpointRestore .monWrite v), (Obj.epochSwitch, .epochSwitch .monWrite v),
        (Obj.drainArm, .drainArm .monWrite v), (Obj.epochRelease, .epochRelease .monWrite v),
        (Obj.linkQuarantine, .linkQuarantineWrite .monWrite v), (Obj.memHashKey, .memHashKeyWrite .monWrite v b),
        (Obj.chipNumberLock, .chipNumberLockWrite .monWrite v b),
        (Obj.thermalRedOverride, .thermalRedOverrideWrite .monWrite v b),
        (Obj.lifecycleState, .lifecycleStateWrite .monWrite v b),
        (Obj.antiRollbackLevel, .antiRollbackLevelWrite .monWrite v b), (Obj.revokeRootKey, .revokeRootKey .monWrite v b),
        (Obj.debugLock, .debugLock .monWrite v), (Obj.snapshotTake, .snapshotTake .monWrite v)] →
      ∃ t, exec c s = .next t ∧ exec (.monWr k v b) s = .next (prompt t)))
  ∧ (∀ t : State, prompt t = if t.obs.xfer.isSome then t else { t with out := t.out ++ [.monitor "onal> "] })

/-- MON_TOKEN, MON_LOAD, MONITOR_BLOCK and MONITOR_TRANSFER_TIMEOUT (R440, Table MON-4): a transfer is started only where its rules let
it; a good block of the right length is taken and answered, a bad one is asked for again and the eighth in a row ends the
transfer; the whole token unlocks or is refused as R397 says, the whole bank is checked against its digest and its rules, and
starts the update; 5 s without a byte end the transfer. -/
def Obligations.MonitorTransfersTaken : Prop :=
  (∀ s : State, monHears s = true → s.obs.xfer = none → s.iface.txReleased = false →
    (core3 s = 1 → exec .monToken s = .next { s with obs := { s.obs with
      xfer := some (0, 7920, []), xferDigest := [], xferBad := 0, xferLast := s.now } })
    ∧ (∀ n d, core3 s ≠ 2 → s.seqs.recovery = true ∨ (core3 s = 1 ∧ objGet s Obj.debugUnlocked = 1 ∧ s.sec.monitorWrite = true) →
      (s.queues = [] → 0 < n → n ≤ 67108864 →
        exec (.monLoad n d) s = .next { s with obs := { s.obs with
          xfer := some (1, n, []), xferDigest := d, xferBad := 0, xferLast := s.now } })
      ∧ (s.queues ≠ [] → exec (.monLoad n d) s = .next { s with out := s.out ++ [.monitorStatus 0x08, .monitor "onal> "] })
      ∧ (s.queues = [] → n = 0 ∨ 67108864 < n → exec (.monLoad n d) s = .next { s with out := s.out ++ [.monitorStatus 0x03, .monitor "onal> "] }))
    ∧ (∀ n d, s.seqs.recovery = false → core3 s = 0 →
      exec (.monLoad n d) s = .next { s with out := s.out ++ [.monitorStatus 0x0B, .monitor "onal> "] })
    ∧ (∀ n d, s.seqs.recovery = false → core3 s = 1 → objGet s Obj.debugUnlocked ≠ 1 ∨ s.sec.monitorWrite = false →
      exec (.monLoad n d) s = .next { s with out := s.out ++ [.monitorStatus 0x05, .monitor "onal> "] }))
  ∧ (∀ (data : Bytes) (good : Bool) (s : State), monHears s = false ∨ core3 s = 2 ∨ s.obs.xfer = none →
    exec (.monitorBlock data good) s = .next s)
  ∧ (∀ (data have_ all : Bytes) (good : Bool) (kind total : Nat) (s : State), monHears s = true → core3 s ≠ 2 →
    s.iface.txReleased = false → s.obs.xfer = some (kind, total, have_) → all = have_ ++ data →
    (good = false ∨ data.length ≠ min 1024 (total - have_.length) →
      (s.obs.xferBad < 7 → exec (.monitorBlock data good) s = .next { s with
        out := s.out ++ [.monitorBlock false], obs := { s.obs with xferBad := s.obs.xferBad + 1, xferLast := s.now } })
      ∧ (7 ≤ s.obs.xferBad → exec (.monitorBlock data good) s = .next { s with
        out := s.out ++ [.monitorBlock false, .monitorStatus 0x0E, .monitor "onal> "]
        obs := { s.obs with xfer := none, xferDigest := [], xferBad := 0, xferLast := s.now } }))
    ∧ (good = true → data.length = min 1024 (total - have_.length) →
      (all.length < total → exec (.monitorBlock data good) s = .next { s with
        out := s.out ++ [.monitorBlock true]
        obs := { s.obs with xfer := some (kind, total, all), xferBad := 0, xferLast := s.now } })
      ∧ (total ≤ all.length → kind = 0 → tokenOk s all = true →
        ∃ t, exec (.monitorBlock data good) s = .next t
          ∧ t = { s with free := s.free + 1, out := s.out ++ [.monitorBlock true, .monitorStatus 0, .monitor "onal> "], dic := t.dic, sec := t.sec,
                         obs := t.obs }
          ∧ t.sec = { (measEvent s 0x20 (natLe 1 1)).sec with monitorWrite := natBit 16 (leNat (all.take 8)) }
          ∧ objGet t Obj.debugUnlocked = 1 ∧ objGet t Obj.debugNonce = (freeNow s).toNat ∧ t.obs.xfer = none
          ∧ SameObjs s t ([Obj.debugUnlocked, Obj.debugNonce] ++ journalObjs))
      ∧ (total ≤ all.length → kind = 0 → tokenOk s all = false →
        ∃ t, exec (.monitorBlock data good) s = .next t
          ∧ t = { s with free := s.free + 1, out := s.out ++ [.monitorBlock true, .monitorStatus 0x08, .monitor "onal> "], dic := t.dic, obs := t.obs }
          ∧ Counted s t Obj.authFailures 1 ∧ objGet t Obj.debugNonce = (freeNow s).toNat ∧ t.obs.xfer = none
          ∧ SameObjs s t [Obj.authFailures, Obj.debugNonce])
      ∧ (total ≤ all.length → kind = 1 → sha256 all ≠ s.obs.xferDigest ∨ s.queues ≠ [] →
        ∃ t, exec (.monitorBlock data good) s = .next t
          ∧ t = { s with out := s.out ++ [.monitorBlock true,
                    .monitorStatus (if sha256 all = s.obs.xferDigest then 0x08 else 0x0A), .monitor "onal> "], obs := t.obs }
          ∧ t.obs.xfer = none)
      ∧ (total ≤ all.length → kind = 1 → sha256 all = s.obs.xferDigest → s.queues = [] → all.length ≤ 67108864 →
        ∃ t, exec (.monitorBlock data good) s = .next t
          ∧ t = { s with out := s.out ++ [.monitorBlock true, .monitorStatus 0, .monitor "onal> "], dic := t.dic, tile := t.tile,
                         tilePoison := t.tilePoison, obs := t.obs }
          ∧ objGet t Obj.firmwareUpdateState = 1 ∧ t.obs.xfer = none
          ∧ (s.seqs.recovery = false → ∀ i, i < all.length → memRead t.tile i = all.getD i 0)
          ∧ (s.seqs.recovery = true → t.tile = s.tile ∧ t.tilePoison = s.tilePoison)
          ∧ SameObjs s t (Obj.firmwareUpdateState :: journalObjs))))
  ∧ (∀ s : State,
    (s.obs.xfer.isSome = true → s.obs.xferLast + ms 5000 ≤ s.now → s.iface.txReleased = false →
      exec .monitorTransferTimeout s = .next { s with out := s.out ++ [.monitorStatus 0x0E, .monitor "onal> "],
                                                      obs := { s.obs with xfer := none, xferDigest := [], xferBad := 0 } })
    ∧ (s.obs.xfer.isSome = true → s.obs.xferLast + ms 5000 ≤ s.now → s.iface.txReleased = true →
      exec .monitorTransferTimeout s = .next { s with obs := { s.obs with xfer := none, xferDigest := [], xferBad := 0 } })
    ∧ (s.obs.xfer = none ∨ s.now < s.obs.xferLast + ms 5000 → exec .monitorTransferTimeout s = .next s))

/-- Every part of the module stays in its place (Table MOD-2): from a state with as many arrays, engines, channels, lines, rings,
links, supplies and sensors as the module has, every step answers another such state. -/
def Obligations.StepKeepsEveryPart : Prop :=
  ∀ s t : State, PartsOk s → step s = .next t → PartsOk t
end

