-- ==== Sys2Proof/Laws/Ask.lean ====
section
/-!
SUPPORT. What a Dictionary request that is served does (R333, R335, R336, R340).
-/

namespace Sys2Proof.Laws

open Sys2Proof Sys2Proof.Machine

/-- Where a request is let through, its object's answer is the answer. -/
theorem gate_open (s : State) (sup : Bool) (key : Nat) (a : Answer) (h : GateOpen s sup key) : gate s sup key a = a := by
  unfold gate
  rcases h with ⟨h0, h1⟩ | ⟨h0, h1⟩
  · simp [h0, h1]
  · by_cases hk : isHalfE key = true
    · have h7 := (h1 hk).2
      simp only [h0, hk, (h1 hk).1]
      simp at h7 ⊢
      exact fun h => absurd h h7
    · simp [h0, hk]

/-- A session found by a number has that number. -/
theorem sessionOf_id (s : State) (id : Nat) (x : Session) (h : sessionOf s id = some x) : x.id = id := by
  simpa using List.find?_some h

/-- What a request that is served does: the object's answer in the state `s0`, sent by the request's route. -/
theorem ask_asked (s : State) (r : Route) (sup : Bool) (op key : Nat) (payload : Bytes) (role : Role) (s0 : State)
    (run : State → Role → Answer) (h : Asked s r sup op key payload role s0) :
    ask s r sup op key payload run = answered s r key (run s0 role) := by
  obtain ⟨h2, hg, h⟩ := h
  cases r with
  | host =>
    obtain ⟨rfl, rfl, hb, hr, hh, ho, ho2, hf, hs, hk, hp⟩ := h
    have h20 : ¬ 32 ≤ op := by omega
    rw [hp] at hf
    simp only [ask, askHost, answered, gate_open _ _ _ _ hg]
    simp [hb, hr, hh, ho, hf, hs, hk, hp, h2, h20]
  | mgmt ip port session seq =>
    obtain ⟨rfl, m, x, hm, hh, ho, hf, hk, hp, hs, hx, hi, hpo, hl, rfl⟩ := h
    have h2' : core3 (takeMsg s ip port session seq) ≠ 2 := h2
    have hs' : sessionOf (takeMsg s ip port session seq) session = some x := hs
    have hid := sessionOf_id _ _ _ hs
    have hseq : ¬ (seq = x.lastSeq ∧ x.lastReply.isSome = true) := by
      rintro ⟨a, b⟩; have := hl b; omega
    have hseq' : ¬ (seq ≤ x.lastSeq ∧ x.lastReply.isSome = true) := by
      rintro ⟨a, b⟩; have := hl b; omega
    rw [hp] at hf
    simp only [ask, askMgmt, hm, answered, h2', hs', hx, inSession, gate_open _ _ _ _ hg, hseq, hseq', hid]
    simp [hh, ho, hf, hk, hp, hi, hpo]
    rfl
  | monRead =>
    obtain ⟨rfl, rfl, rfl⟩ := h
    simp [ask, askMon, answered, gate_open _ _ _ _ hg, h2]
  | monWrite =>
    obtain ⟨rfl, rfl, rfl, hd, hw⟩ := h
    simp [ask, askMon, answered, gate_open _ _ _ _ hg, h2, hd, hw]

end Sys2Proof.Laws
end

