-- ==== Sys2Proof/Laws/Foot.lean ====
section
/-!
SUPPORT. Footprints: a state with some fields taken from another state. The footprint of an operation is the set of
fields it may change.
-/

namespace Sys2Proof.Machine

def footAdmits (s t : State) : State :=
  { s with admits := t.admits }

def footArrays (s t : State) : State :=
  { s with arrays := t.arrays }

def footAtoms (s t : State) : State :=
  { s with atoms := t.atoms }

def footBridge (s t : State) : State :=
  { s with bridge := t.bridge }

def footChans (s t : State) : State :=
  { s with chans := t.chans }

def footClaims (s t : State) : State :=
  { s with claims := t.claims }

def footColls (s t : State) : State :=
  { s with colls := t.colls }

def footCores (s t : State) : State :=
  { s with cores := t.cores }

def footDic (s t : State) : State :=
  { s with dic := t.dic }

def footDoms (s t : State) : State :=
  { s with doms := t.doms }

def footEngines (s t : State) : State :=
  { s with engines := t.engines }

def footEsc (s t : State) : State :=
  { s with esc := t.esc }

def footFree (s t : State) : State :=
  { s with free := t.free }

def footHeard (s t : State) : State :=
  { s with heard := t.heard }

def footHost (s t : State) : State :=
  { s with host := t.host }

def footIface (s t : State) : State :=
  { s with iface := t.iface }

def footLasers (s t : State) : State :=
  { s with lasers := t.lasers }

def footLayers (s t : State) : State :=
  { s with layers := t.layers }

def footLinks (s t : State) : State :=
  { s with links := t.links }

def footMgmt (s t : State) : State :=
  { s with mgmt := t.mgmt }

def footObs (s t : State) : State :=
  { s with obs := t.obs }

def footOut (s t : State) : State :=
  { s with out := t.out }

def footOutst (s t : State) : State :=
  { s with outst := t.outst }

def footPendColls (s t : State) : State :=
  { s with pendColls := t.pendColls }

def footPersist (s t : State) : State :=
  { s with persist := t.persist }

def footPower (s t : State) : State :=
  { s with power := t.power }

def footQueues (s t : State) : State :=
  { s with queues := t.queues }

def footRcache (s t : State) : State :=
  { s with rcache := t.rcache }

def footRings (s t : State) : State :=
  { s with rings := t.rings }

def footRotors (s t : State) : State :=
  { s with rotors := t.rotors }

def footSec (s t : State) : State :=
  { s with sec := t.sec }

def footSeqs (s t : State) : State :=
  { s with seqs := t.seqs }

def footSkewHold (s t : State) : State :=
  { s with skewHold := t.skewHold }

def footSlots (s t : State) : State :=
  { s with slots := t.slots }

def footSpecMap (s t : State) : State :=
  { s with specMap := t.specMap }

def footTile (s t : State) : State :=
  { s with tile := t.tile }

def footTilePoison (s t : State) : State :=
  { s with tilePoison := t.tilePoison }

def footVecs (s t : State) : State :=
  { s with vecs := t.vecs }

def footWaiters (s t : State) : State :=
  { s with waiters := t.waiters }

def footWires (s t : State) : State :=
  { s with wires := t.wires }

def footArraysUnretired (s t : State) : State :=
  { s with arrays := t.arrays, unretired := t.unretired }

def footBridgeLinks (s t : State) : State :=
  { s with bridge := t.bridge, links := t.links }

def footChansWires (s t : State) : State :=
  { s with chans := t.chans, wires := t.wires }

def footCoresSeqs (s t : State) : State :=
  { s with cores := t.cores, seqs := t.seqs }

def footDicArmed (s t : State) : State :=
  { s with dic := t.dic, armed := t.armed }

def footDicArrays (s t : State) : State :=
  { s with dic := t.dic, arrays := t.arrays }

def footDicAtoms (s t : State) : State :=
  { s with dic := t.dic, atoms := t.atoms }

def footDicChans (s t : State) : State :=
  { s with dic := t.dic, chans := t.chans }

def footDicColls (s t : State) : State :=
  { s with dic := t.dic, colls := t.colls }

def footDicHost (s t : State) : State :=
  { s with dic := t.dic, host := t.host }

def footDicLinks (s t : State) : State :=
  { s with dic := t.dic, links := t.links }

def footDicObs (s t : State) : State :=
  { s with dic := t.dic, obs := t.obs }

def footDicPower (s t : State) : State :=
  { s with dic := t.dic, power := t.power }

def footDicQueues (s t : State) : State :=
  { s with dic := t.dic, queues := t.queues }

def footDicSec (s t : State) : State :=
  { s with dic := t.dic, sec := t.sec }

def footDicSeqs (s t : State) : State :=
  { s with dic := t.dic, seqs := t.seqs }

def footDicTilePoison (s t : State) : State :=
  { s with dic := t.dic, tilePoison := t.tilePoison }

def footDicWaiters (s t : State) : State :=
  { s with dic := t.dic, waiters := t.waiters }

def footDicWires (s t : State) : State :=
  { s with dic := t.dic, wires := t.wires }

def footDomsEsc (s t : State) : State :=
  { s with doms := t.doms, esc := t.esc }

def footEvictedReplay (s t : State) : State :=
  { s with evicted := t.evicted, replay := t.replay }

def footFreeDic (s t : State) : State :=
  { s with free := t.free, dic := t.dic }

def footFreeOut (s t : State) : State :=
  { s with free := t.free, out := t.out }

def footFreeRings (s t : State) : State :=
  { s with free := t.free, rings := t.rings }

def footLinksObs (s t : State) : State :=
  { s with links := t.links, obs := t.obs }

def footLpddrPoisonLpddrBad (s t : State) : State :=
  { s with lpddrPoison := t.lpddrPoison, lpddrBad := t.lpddrBad }

def footOutDic (s t : State) : State :=
  { s with out := t.out, dic := t.dic }

def footOutHost (s t : State) : State :=
  { s with out := t.out, host := t.host }

def footOutLinks (s t : State) : State :=
  { s with out := t.out, links := t.links }

def footOutMgmt (s t : State) : State :=
  { s with out := t.out, mgmt := t.mgmt }

def footOutObs (s t : State) : State :=
  { s with out := t.out, obs := t.obs }

def footOutstRcache (s t : State) : State :=
  { s with outst := t.outst, rcache := t.rcache }

def footOutstTagHold (s t : State) : State :=
  { s with outst := t.outst, tagHold := t.tagHold }

def footPartsQueues (s t : State) : State :=
  { s with parts := t.parts, queues := t.queues }

def footPersistDoms (s t : State) : State :=
  { s with persist := t.persist, doms := t.doms }

def footPersistRepairs (s t : State) : State :=
  { s with persist := t.persist, repairs := t.repairs }

def footRingsSweptAt (s t : State) : State :=
  { s with rings := t.rings, sweptAt := t.sweptAt }

def footRingsTrainFails (s t : State) : State :=
  { s with rings := t.rings, trainFails := t.trainFails }

def footRotorsSpecMap (s t : State) : State :=
  { s with rotors := t.rotors, specMap := t.specMap }

def footRouterWRouterE (s t : State) : State :=
  { s with routerW := t.routerW, routerE := t.routerE }

def footStrayInLinks (s t : State) : State :=
  { s with strayIn := t.strayIn, links := t.links }

def footTileTilePoison (s t : State) : State :=
  { s with tile := t.tile, tilePoison := t.tilePoison }

def footWaitClaimsQueues (s t : State) : State :=
  { s with waitClaims := t.waitClaims, queues := t.queues }

def footBridgeRouterWRouterE (s t : State) : State :=
  { s with bridge := t.bridge, routerW := t.routerW, routerE := t.routerE }

def footClaimsSyncWaiters (s t : State) : State :=
  { s with claims := t.claims, sync := t.sync, waiters := t.waiters }

def footClaimsWaitClaimsSpills (s t : State) : State :=
  { s with claims := t.claims, waitClaims := t.waitClaims, spills := t.spills }

def footCollsSlotsGreys (s t : State) : State :=
  { s with colls := t.colls, slots := t.slots, greys := t.greys }

def footDicArraysTilePoison (s t : State) : State :=
  { s with dic := t.dic, arrays := t.arrays, tilePoison := t.tilePoison }

def footDicBridgeLinks (s t : State) : State :=
  { s with dic := t.dic, bridge := t.bridge, links := t.links }

def footDicBridgeObs (s t : State) : State :=
  { s with dic := t.dic, bridge := t.bridge, obs := t.obs }

def footDicChansObs (s t : State) : State :=
  { s with dic := t.dic, chans := t.chans, obs := t.obs }

def footDicChansPkgs (s t : State) : State :=
  { s with dic := t.dic, chans := t.chans, pkgs := t.pkgs }

def footDicClaimsWaitClaims (s t : State) : State :=
  { s with dic := t.dic, claims := t.claims, waitClaims := t.waitClaims }

def footDicCollsPendColls (s t : State) : State :=
  { s with dic := t.dic, colls := t.colls, pendColls := t.pendColls }

def footDicCollsSlots (s t : State) : State :=
  { s with dic := t.dic, colls := t.colls, slots := t.slots }

def footDicCorrRunsObs (s t : State) : State :=
  { s with dic := t.dic, corrRuns := t.corrRuns, obs := t.obs }

def footDicEscObs (s t : State) : State :=
  { s with dic := t.dic, esc := t.esc, obs := t.obs }

def footDicIfaceObs (s t : State) : State :=
  { s with dic := t.dic, iface := t.iface, obs := t.obs }

def footDicLasersObs (s t : State) : State :=
  { s with dic := t.dic, lasers := t.lasers, obs := t.obs }

def footDicLinksObs (s t : State) : State :=
  { s with dic := t.dic, links := t.links, obs := t.obs }

def footDicMgmtObs (s t : State) : State :=
  { s with dic := t.dic, mgmt := t.mgmt, obs := t.obs }

def footDicPersistObs (s t : State) : State :=
  { s with dic := t.dic, persist := t.persist, obs := t.obs }

def footDicPersistRepairs (s t : State) : State :=
  { s with dic := t.dic, persist := t.persist, repairs := t.repairs }

def footDicPowerObs (s t : State) : State :=
  { s with dic := t.dic, power := t.power, obs := t.obs }

def footDicPowerSeqs (s t : State) : State :=
  { s with dic := t.dic, power := t.power, seqs := t.seqs }

def footDicQueuesWaiters (s t : State) : State :=
  { s with dic := t.dic, queues := t.queues, waiters := t.waiters }

def footDicRotorsObs (s t : State) : State :=
  { s with dic := t.dic, rotors := t.rotors, obs := t.obs }

def footDicRouterWRouterE (s t : State) : State :=
  { s with dic := t.dic, routerW := t.routerW, routerE := t.routerE }

def footDicScrubLineScrubWrap (s t : State) : State :=
  { s with dic := t.dic, scrubLine := t.scrubLine, scrubWrap := t.scrubWrap }

def footDicSeqsObs (s t : State) : State :=
  { s with dic := t.dic, seqs := t.seqs, obs := t.obs }

def footDicSeqsSec (s t : State) : State :=
  { s with dic := t.dic, seqs := t.seqs, sec := t.sec }

def footDicSlotsPendColls (s t : State) : State :=
  { s with dic := t.dic, slots := t.slots, pendColls := t.pendColls }

def footDicTappedObs (s t : State) : State :=
  { s with dic := t.dic, tapped := t.tapped, obs := t.obs }

def footEnginesClaimsWaitClaims (s t : State) : State :=
  { s with engines := t.engines, claims := t.claims, waitClaims := t.waitClaims }

def footEnginesTileTilePoison (s t : State) : State :=
  { s with engines := t.engines, tile := t.tile, tilePoison := t.tilePoison }

def footFreeOutHost (s t : State) : State :=
  { s with free := t.free, out := t.out, host := t.host }

def footFreeOutMgmt (s t : State) : State :=
  { s with free := t.free, out := t.out, mgmt := t.mgmt }

def footFreeTileTilePoison (s t : State) : State :=
  { s with free := t.free, tile := t.tile, tilePoison := t.tilePoison }

def footLayersQueuesWaiters (s t : State) : State :=
  { s with layers := t.layers, queues := t.queues, waiters := t.waiters }

def footLinksRouterWRouterE (s t : State) : State :=
  { s with links := t.links, routerW := t.routerW, routerE := t.routerE }

def footLpddrLpddrPoisonLpddrBad (s t : State) : State :=
  { s with lpddr := t.lpddr, lpddrPoison := t.lpddrPoison, lpddrBad := t.lpddrBad }

def footLpddrBadChansWires (s t : State) : State :=
  { s with lpddrBad := t.lpddrBad, chans := t.chans, wires := t.wires }

def footOutDicMgmt (s t : State) : State :=
  { s with out := t.out, dic := t.dic, mgmt := t.mgmt }

def footOutQueuesHost (s t : State) : State :=
  { s with out := t.out, queues := t.queues, host := t.host }

def footOutWindowsHost (s t : State) : State :=
  { s with out := t.out, windows := t.windows, host := t.host }

def footRouterWRouterECollEcho (s t : State) : State :=
  { s with routerW := t.routerW, routerE := t.routerE, collEcho := t.collEcho }

def footRouterWRouterEColls (s t : State) : State :=
  { s with routerW := t.routerW, routerE := t.routerE, colls := t.colls }

def foot4_0 (s t : State) : State :=
  { s with arrays := t.arrays, vecs := t.vecs, engines := t.engines, moverRR := t.moverRR }

def foot4_1 (s t : State) : State :=
  { s with claims := t.claims, sync := t.sync, waiters := t.waiters, colls := t.colls }

def foot4_2 (s t : State) : State :=
  { s with dic := t.dic, chans := t.chans, host := t.host, obs := t.obs }

def foot4_3 (s t : State) : State :=
  { s with dic := t.dic, colls := t.colls, slots := t.slots, pendColls := t.pendColls }

def foot4_4 (s t : State) : State :=
  { s with dic := t.dic, doms := t.doms, remaps := t.remaps, repairs := t.repairs }

def foot4_5 (s t : State) : State :=
  { s with dic := t.dic, lasers := t.lasers, rings := t.rings, obs := t.obs }

def foot4_6 (s t : State) : State :=
  { s with dic := t.dic, links := t.links, routerW := t.routerW, routerE := t.routerE }

def foot4_7 (s t : State) : State :=
  { s with dic := t.dic, parts := t.parts, queues := t.queues, obs := t.obs }

def foot4_8 (s t : State) : State :=
  { s with dic := t.dic, persist := t.persist, doms := t.doms, obs := t.obs }

def foot4_9 (s t : State) : State :=
  { s with dic := t.dic, power := t.power, iface := t.iface, obs := t.obs }

def foot4_10 (s t : State) : State :=
  { s with dic := t.dic, power := t.power, seqs := t.seqs, obs := t.obs }

def foot4_11 (s t : State) : State :=
  { s with dic := t.dic, rotors := t.rotors, links := t.links, obs := t.obs }

def foot4_12 (s t : State) : State :=
  { s with dic := t.dic, routerW := t.routerW, routerE := t.routerE, obs := t.obs }

def foot4_13 (s t : State) : State :=
  { s with dic := t.dic, routerW := t.routerW, routerE := t.routerE, outst := t.outst }

def foot4_14 (s t : State) : State :=
  { s with dic := t.dic, seqs := t.seqs, sec := t.sec, obs := t.obs }

def foot4_15 (s t : State) : State :=
  { s with dic := t.dic, specMap := t.specMap, reassign := t.reassign, backDue := t.backDue }

def foot4_16 (s t : State) : State :=
  { s with engines := t.engines, claims := t.claims, sync := t.sync, waiters := t.waiters }

def foot4_17 (s t : State) : State :=
  { s with engines := t.engines, claims := t.claims, waitClaims := t.waitClaims, spills := t.spills }

def foot4_18 (s t : State) : State :=
  { s with engines := t.engines, tile := t.tile, tilePoison := t.tilePoison, spills := t.spills }

def foot4_19 (s t : State) : State :=
  { s with flash := t.flash, domsFlash := t.domsFlash, remapsFlash := t.remapsFlash,
           repairsFlash := t.repairsFlash }

def foot4_20 (s t : State) : State :=
  { s with free := t.free, dic := t.dic, links := t.links, obs := t.obs }

def foot4_21 (s t : State) : State :=
  { s with free := t.free, dic := t.dic, sec := t.sec, obs := t.obs }

def foot4_22 (s t : State) : State :=
  { s with free := t.free, lpddr := t.lpddr, lpddrPoison := t.lpddrPoison, lpddrBad := t.lpddrBad }

def foot4_23 (s t : State) : State :=
  { s with out := t.out, dic := t.dic, chans := t.chans, host := t.host }

def foot4_24 (s t : State) : State :=
  { s with out := t.out, dic := t.dic, engines := t.engines, host := t.host }

def foot4_25 (s t : State) : State :=
  { s with out := t.out, dic := t.dic, host := t.host, mgmt := t.mgmt }

def foot4_26 (s t : State) : State :=
  { s with out := t.out, dic := t.dic, mgmt := t.mgmt, obs := t.obs }

def foot4_27 (s t : State) : State :=
  { s with out := t.out, dic := t.dic, queues := t.queues, host := t.host }

def foot4_28 (s t : State) : State :=
  { s with out := t.out, parts := t.parts, queues := t.queues, host := t.host }

def foot4_29 (s t : State) : State :=
  { s with out := t.out, rotors := t.rotors, specMap := t.specMap, links := t.links }

def foot4_30 (s t : State) : State :=
  { s with out := t.out, specMap := t.specMap, reassign := t.reassign, backDue := t.backDue }

def foot4_31 (s t : State) : State :=
  { s with routerW := t.routerW, routerE := t.routerE, colls := t.colls, slots := t.slots }

def foot5_0 (s t : State) : State :=
  { s with dic := t.dic, bridge := t.bridge, links := t.links, routerW := t.routerW, routerE := t.routerE }

def foot5_1 (s t : State) : State :=
  { s with dic := t.dic, lasers := t.lasers, rings := t.rings, recovery := t.recovery, obs := t.obs }

def foot5_2 (s t : State) : State :=
  { s with dic := t.dic, lasers := t.lasers, specMap := t.specMap, tapped := t.tapped, obs := t.obs }

def foot5_3 (s t : State) : State :=
  { s with dic := t.dic, links := t.links, routerW := t.routerW, routerE := t.routerE, outst := t.outst }

def foot5_4 (s t : State) : State :=
  { s with dic := t.dic, parts := t.parts, queues := t.queues, host := t.host, obs := t.obs }

def foot5_5 (s t : State) : State :=
  { s with dic := t.dic, persist := t.persist, doms := t.doms, mgmt := t.mgmt, obs := t.obs }

def foot5_6 (s t : State) : State :=
  { s with dic := t.dic, persist := t.persist, doms := t.doms, remaps := t.remaps, repairs := t.repairs }

def foot5_7 (s t : State) : State :=
  { s with dic := t.dic, rings := t.rings, rotors := t.rotors, links := t.links, obs := t.obs }

def foot5_8 (s t : State) : State :=
  { s with dic := t.dic, routerW := t.routerW, routerE := t.routerE, colls := t.colls, pendColls := t.pendColls }

def foot5_9 (s t : State) : State :=
  { s with dic := t.dic, routerW := t.routerW, routerE := t.routerE, evicted := t.evicted, replay := t.replay }

def foot5_10 (s t : State) : State :=
  { s with dic := t.dic, routerW := t.routerW, routerE := t.routerE, outst := t.outst, nextTag := t.nextTag }

def foot5_11 (s t : State) : State :=
  { s with dic := t.dic, tilePoison := t.tilePoison, lpddrBad := t.lpddrBad, chans := t.chans, wires := t.wires }

def foot5_12 (s t : State) : State :=
  { s with free := t.free, out := t.out, dic := t.dic, sec := t.sec, obs := t.obs }

def foot5_13 (s t : State) : State :=
  { s with out := t.out, dic := t.dic, host := t.host, mgmt := t.mgmt, obs := t.obs }

def foot5_14 (s t : State) : State :=
  { s with out := t.out, dic := t.dic, queues := t.queues, cores := t.cores, host := t.host }

def foot5_15 (s t : State) : State :=
  { s with out := t.out, dic := t.dic, queues := t.queues, host := t.host, obs := t.obs }

def foot6_0 (s t : State) : State :=
  { s with dic := t.dic, bridge := t.bridge, links := t.links, routerW := t.routerW, routerE := t.routerE,
           obs := t.obs }

def foot6_1 (s t : State) : State :=
  { s with dic := t.dic, lasers := t.lasers, rings := t.rings, rotors := t.rotors, specMap := t.specMap,
           obs := t.obs }

def foot6_2 (s t : State) : State :=
  { s with dic := t.dic, lasers := t.lasers, rings := t.rings, specMap := t.specMap, links := t.links,
           obs := t.obs }

def foot6_3 (s t : State) : State :=
  { s with dic := t.dic, links := t.links, routerW := t.routerW, routerE := t.routerE, outst := t.outst,
           obs := t.obs }

def foot6_4 (s t : State) : State :=
  { s with dic := t.dic, lpddrPoison := t.lpddrPoison, lpddrBad := t.lpddrBad, chans := t.chans, wires := t.wires,
           obs := t.obs }

def foot6_5 (s t : State) : State :=
  { s with dic := t.dic, persist := t.persist, remaps := t.remaps, corrRuns := t.corrRuns, spareOut := t.spareOut,
           obs := t.obs }

def foot6_6 (s t : State) : State :=
  { s with dic := t.dic, routerW := t.routerW, routerE := t.routerE, colls := t.colls, slots := t.slots,
           pendColls := t.pendColls }

def foot6_7 (s t : State) : State :=
  { s with dic := t.dic, routerW := t.routerW, routerE := t.routerE, evicted := t.evicted, replay := t.replay,
           obs := t.obs }

def foot6_8 (s t : State) : State :=
  { s with doms := t.doms, arrays := t.arrays, esc := t.esc, tile := t.tile, tilePoison := t.tilePoison,
           sync := t.sync }

def foot6_9 (s t : State) : State :=
  { s with free := t.free, dic := t.dic, engines := t.engines, tile := t.tile, tilePoison := t.tilePoison,
           chans := t.chans }

def foot6_10 (s t : State) : State :=
  { s with out := t.out, dic := t.dic, chans := t.chans, parts := t.parts, queues := t.queues, host := t.host }

def foot6_11 (s t : State) : State :=
  { s with out := t.out, dic := t.dic, host := t.host, mgmt := t.mgmt, sec := t.sec, obs := t.obs }

def foot6_12 (s t : State) : State :=
  { s with out := t.out, dic := t.dic, lasers := t.lasers, rings := t.rings, heard := t.heard, obs := t.obs }

def foot6_13 (s t : State) : State :=
  { s with out := t.out, dic := t.dic, persist := t.persist, host := t.host, mgmt := t.mgmt, obs := t.obs }

def foot6_14 (s t : State) : State :=
  { s with out := t.out, dic := t.dic, queues := t.queues, host := t.host, seqs := t.seqs, obs := t.obs }

def foot6_15 (s t : State) : State :=
  { s with out := t.out, dic := t.dic, routerW := t.routerW, routerE := t.routerE, outst := t.outst,
           nextTag := t.nextTag }

def foot6_16 (s t : State) : State :=
  { s with out := t.out, specMap := t.specMap, reassign := t.reassign, inPeer := t.inPeer, inGrant := t.inGrant,
           backDue := t.backDue }

def foot7_0 (s t : State) : State :=
  { s with dic := t.dic, lasers := t.lasers, rings := t.rings, specMap := t.specMap, needDemand := t.needDemand,
           links := t.links, obs := t.obs }

def foot7_1 (s t : State) : State :=
  { s with dic := t.dic, specMap := t.specMap, links := t.links, routerW := t.routerW, routerE := t.routerE,
           outst := t.outst, obs := t.obs }

def foot7_2 (s t : State) : State :=
  { s with out := t.out, dic := t.dic, chans := t.chans, routerW := t.routerW, routerE := t.routerE,
           admits := t.admits, host := t.host }

def foot7_3 (s t : State) : State :=
  { s with out := t.out, dic := t.dic, persist := t.persist, armed := t.armed, host := t.host, mgmt := t.mgmt,
           obs := t.obs }

def foot7_4 (s t : State) : State :=
  { s with out := t.out, dic := t.dic, persist := t.persist, doms := t.doms, host := t.host, mgmt := t.mgmt,
           obs := t.obs }

def foot7_5 (s t : State) : State :=
  { s with out := t.out, dic := t.dic, persist := t.persist, host := t.host, mgmt := t.mgmt, sec := t.sec,
           obs := t.obs }

def foot7_6 (s t : State) : State :=
  { s with out := t.out, dic := t.dic, persist := t.persist, host := t.host, mgmt := t.mgmt, seqs := t.seqs,
           obs := t.obs }

def foot8_0 (s t : State) : State :=
  { s with dic := t.dic, arrays := t.arrays, unretired := t.unretired, links := t.links, routerW := t.routerW,
           routerE := t.routerE, outst := t.outst, obs := t.obs }

def foot8_1 (s t : State) : State :=
  { s with dic := t.dic, keyEff := t.keyEff, spillEff := t.spillEff, watchEff := t.watchEff, rcEff := t.rcEff,
           laserMode := t.laserMode, host := t.host, iface := t.iface }

def foot8_2 (s t : State) : State :=
  { s with dic := t.dic, lasers := t.lasers, rings := t.rings, recovery := t.recovery, trainFails := t.trainFails,
           inGrant := t.inGrant, links := t.links, obs := t.obs }

def foot8_3 (s t : State) : State :=
  { s with dic := t.dic, persist := t.persist, doms := t.doms, links := t.links, routerW := t.routerW,
           routerE := t.routerE, outst := t.outst, obs := t.obs }

def foot8_4 (s t : State) : State :=
  { s with dic := t.dic, rotors := t.rotors, specMap := t.specMap, links := t.links, routerW := t.routerW,
           routerE := t.routerE, outst := t.outst, obs := t.obs }

def foot8_5 (s t : State) : State :=
  { s with free := t.free, dic := t.dic, tile := t.tile, tilePoison := t.tilePoison, lpddr := t.lpddr,
           lpddrPoison := t.lpddrPoison, lpddrBad := t.lpddrBad, chans := t.chans }

def foot8_6 (s t : State) : State :=
  { s with free := t.free, out := t.out, dic := t.dic, persist := t.persist, links := t.links, host := t.host,
           mgmt := t.mgmt, obs := t.obs }

def foot8_7 (s t : State) : State :=
  { s with free := t.free, out := t.out, dic := t.dic, tilePoison := t.tilePoison, lpddrBad := t.lpddrBad,
           chans := t.chans, wires := t.wires, host := t.host }

def foot8_8 (s t : State) : State :=
  { s with out := t.out, dic := t.dic, engines := t.engines, waitClaims := t.waitClaims, spills := t.spills,
           queues := t.queues, host := t.host, obs := t.obs }

def foot9_0 (s t : State) : State :=
  { s with dic := t.dic, arrays := t.arrays, links := t.links, routerW := t.routerW, routerE := t.routerE,
           outst := t.outst, host := t.host, seqs := t.seqs, obs := t.obs }

def foot9_1 (s t : State) : State :=
  { s with dic := t.dic, lasers := t.lasers, rings := t.rings, specMap := t.specMap, links := t.links,
           routerW := t.routerW, routerE := t.routerE, outst := t.outst, obs := t.obs }

def foot9_2 (s t : State) : State :=
  { s with dic := t.dic, lasers := t.lasers, rotors := t.rotors, specMap := t.specMap, links := t.links,
           routerW := t.routerW, routerE := t.routerE, outst := t.outst, obs := t.obs }

def foot9_3 (s t : State) : State :=
  { s with dic := t.dic, persist := t.persist, tilePoison := t.tilePoison, remaps := t.remaps,
           corrRuns := t.corrRuns, scrubLine := t.scrubLine, scrubWrap := t.scrubWrap, spareOut := t.spareOut,
           obs := t.obs }

def foot9_4 (s t : State) : State :=
  { s with free := t.free, dic := t.dic, tile := t.tile, tilePoison := t.tilePoison, lpddr := t.lpddr,
           lpddrPoison := t.lpddrPoison, lpddrBad := t.lpddrBad, chans := t.chans, colls := t.colls }

def foot9_5 (s t : State) : State :=
  { s with free := t.free, dic := t.dic, tile := t.tile, tilePoison := t.tilePoison, lpddr := t.lpddr,
           lpddrPoison := t.lpddrPoison, lpddrBad := t.lpddrBad, chans := t.chans, mgmt := t.mgmt }

def foot9_6 (s t : State) : State :=
  { s with free := t.free, out := t.out, dic := t.dic, tile := t.tile, tilePoison := t.tilePoison,
           lpddr := t.lpddr, lpddrPoison := t.lpddrPoison, lpddrBad := t.lpddrBad, chans := t.chans }

def foot9_7 (s t : State) : State :=
  { s with out := t.out, dic := t.dic, engines := t.engines, claims := t.claims, waitClaims := t.waitClaims,
           spills := t.spills, queues := t.queues, host := t.host, obs := t.obs }

def foot10_0 (s t : State) : State :=
  { s with dic := t.dic, bridge := t.bridge, lasers := t.lasers, rings := t.rings, specMap := t.specMap,
           links := t.links, routerW := t.routerW, routerE := t.routerE, outst := t.outst, obs := t.obs }

def foot10_1 (s t : State) : State :=
  { s with dic := t.dic, lasers := t.lasers, rings := t.rings, rotors := t.rotors, specMap := t.specMap,
           links := t.links, routerW := t.routerW, routerE := t.routerE, outst := t.outst, obs := t.obs }

def foot10_2 (s t : State) : State :=
  { s with dic := t.dic, lasers := t.lasers, rings := t.rings, specMap := t.specMap, demand := t.demand,
           links := t.links, routerW := t.routerW, routerE := t.routerE, outst := t.outst, obs := t.obs }

def foot10_3 (s t : State) : State :=
  { s with free := t.free, dic := t.dic, tile := t.tile, tilePoison := t.tilePoison, lpddr := t.lpddr,
           lpddrPoison := t.lpddrPoison, lpddrBad := t.lpddrBad, chans := t.chans, host := t.host, mgmt := t.mgmt }

def foot10_4 (s t : State) : State :=
  { s with free := t.free, out := t.out, dic := t.dic, tile := t.tile, tilePoison := t.tilePoison,
           lpddr := t.lpddr, lpddrPoison := t.lpddrPoison, lpddrBad := t.lpddrBad, chans := t.chans, obs := t.obs }

def foot10_5 (s t : State) : State :=
  { s with out := t.out, dic := t.dic, persist := t.persist, links := t.links, routerW := t.routerW,
           routerE := t.routerE, outst := t.outst, host := t.host, mgmt := t.mgmt, obs := t.obs }

def foot11_0 (s t : State) : State :=
  { s with dic := t.dic, lasers := t.lasers, rings := t.rings, rotors := t.rotors, specMap := t.specMap,
           recovery := t.recovery, links := t.links, routerW := t.routerW, routerE := t.routerE, outst := t.outst,
           obs := t.obs }

def foot11_1 (s t : State) : State :=
  { s with dic := t.dic, lasers := t.lasers, rings := t.rings, specMap := t.specMap, recovery := t.recovery,
           inGrant := t.inGrant, links := t.links, routerW := t.routerW, routerE := t.routerE, outst := t.outst,
           obs := t.obs }

def foot11_2 (s t : State) : State :=
  { s with dic := t.dic, persist := t.persist, doms := t.doms, links := t.links, routerW := t.routerW,
           routerE := t.routerE, outst := t.outst, mgmt := t.mgmt, seqs := t.seqs, sec := t.sec, obs := t.obs }

def foot11_3 (s t : State) : State :=
  { s with dic := t.dic, rings := t.rings, specMap := t.specMap, trainFails := t.trainFails, inGrant := t.inGrant,
           strayIn := t.strayIn, links := t.links, routerW := t.routerW, routerE := t.routerE, outst := t.outst,
           obs := t.obs }

def foot11_4 (s t : State) : State :=
  { s with free := t.free, dic := t.dic, tile := t.tile, tilePoison := t.tilePoison, lpddr := t.lpddr,
           lpddrPoison := t.lpddrPoison, lpddrBad := t.lpddrBad, chans := t.chans, routerW := t.routerW,
           routerE := t.routerE, colls := t.colls }

def foot11_5 (s t : State) : State :=
  { s with free := t.free, out := t.out, dic := t.dic, tile := t.tile, tilePoison := t.tilePoison,
           lpddr := t.lpddr, lpddrPoison := t.lpddrPoison, lpddrBad := t.lpddrBad, chans := t.chans,
           queues := t.queues, host := t.host }

def foot11_6 (s t : State) : State :=
  { s with free := t.free, out := t.out, dic := t.dic, tile := t.tile, tilePoison := t.tilePoison,
           lpddr := t.lpddr, lpddrPoison := t.lpddrPoison, lpddrBad := t.lpddrBad, chans := t.chans, sec := t.sec,
           obs := t.obs }

def foot11_7 (s t : State) : State :=
  { s with free := t.free, out := t.out, dic := t.dic, tilePoison := t.tilePoison, lpddrBad := t.lpddrBad,
           chans := t.chans, routerW := t.routerW, routerE := t.routerE, wires := t.wires, admits := t.admits,
           host := t.host }

def foot12_0 (s t : State) : State :=
  { s with dic := t.dic, lasers := t.lasers, rings := t.rings, specMap := t.specMap, heard := t.heard,
           inPeer := t.inPeer, peerVer := t.peerVer, links := t.links, routerW := t.routerW, routerE := t.routerE,
           outst := t.outst, obs := t.obs }

def foot12_1 (s t : State) : State :=
  { s with dic := t.dic, lasers := t.lasers, rings := t.rings, specMap := t.specMap, trainFails := t.trainFails,
           strayIn := t.strayIn, needDemand := t.needDemand, links := t.links, routerW := t.routerW,
           routerE := t.routerE, outst := t.outst, obs := t.obs }

def foot12_2 (s t : State) : State :=
  { s with free := t.free, dic := t.dic, tile := t.tile, tilePoison := t.tilePoison, lpddr := t.lpddr,
           lpddrPoison := t.lpddrPoison, lpddrBad := t.lpddrBad, chans := t.chans, claims := t.claims,
           sync := t.sync, waiters := t.waiters, atoms := t.atoms }

def foot12_3 (s t : State) : State :=
  { s with out := t.out, dic := t.dic, claims := t.claims, queues := t.queues, sync := t.sync,
           waiters := t.waiters, routerW := t.routerW, routerE := t.routerE, outst := t.outst,
           nextTag := t.nextTag, host := t.host, obs := t.obs }

def foot12_4 (s t : State) : State :=
  { s with out := t.out, dic := t.dic, persist := t.persist, arrays := t.arrays, unretired := t.unretired,
           links := t.links, routerW := t.routerW, routerE := t.routerE, outst := t.outst, host := t.host,
           mgmt := t.mgmt, obs := t.obs }

def foot12_5 (s t : State) : State :=
  { s with out := t.out, dic := t.dic, persist := t.persist, doms := t.doms, arrays := t.arrays, esc := t.esc,
           tile := t.tile, tilePoison := t.tilePoison, sync := t.sync, host := t.host, mgmt := t.mgmt,
           obs := t.obs }

def foot13_0 (s t : State) : State :=
  { s with dic := t.dic, lasers := t.lasers, rings := t.rings, specMap := t.specMap, reassign := t.reassign,
           recovery := t.recovery, inGrant := t.inGrant, links := t.links, skewHold := t.skewHold,
           routerW := t.routerW, routerE := t.routerE, outst := t.outst, obs := t.obs }

def foot13_1 (s t : State) : State :=
  { s with dic := t.dic, lasers := t.lasers, rings := t.rings, specMap := t.specMap, trainFails := t.trainFails,
           inGrant := t.inGrant, strayIn := t.strayIn, needDemand := t.needDemand, links := t.links,
           routerW := t.routerW, routerE := t.routerE, outst := t.outst, obs := t.obs }

def foot13_2 (s t : State) : State :=
  { s with free := t.free, dic := t.dic, tile := t.tile, tilePoison := t.tilePoison, lpddr := t.lpddr,
           lpddrPoison := t.lpddrPoison, lpddrBad := t.lpddrBad, chans := t.chans, routerW := t.routerW,
           routerE := t.routerE, colls := t.colls, slots := t.slots, pendColls := t.pendColls }

def foot13_3 (s t : State) : State :=
  { s with out := t.out, dic := t.dic, chans := t.chans, claims := t.claims, sync := t.sync, waiters := t.waiters,
           routerW := t.routerW, routerE := t.routerE, evicted := t.evicted, replay := t.replay,
           admits := t.admits, host := t.host, obs := t.obs }

def foot13_4 (s t : State) : State :=
  { s with out := t.out, dic := t.dic, claims := t.claims, waitClaims := t.waitClaims, queues := t.queues,
           sync := t.sync, waiters := t.waiters, routerW := t.routerW, routerE := t.routerE, outst := t.outst,
           nextTag := t.nextTag, host := t.host, obs := t.obs }

def foot14_0 (s t : State) : State :=
  { s with dic := t.dic, persist := t.persist, doms := t.doms, lasers := t.lasers, rings := t.rings,
           specMap := t.specMap, reassign := t.reassign, recovery := t.recovery, inGrant := t.inGrant,
           links := t.links, routerW := t.routerW, routerE := t.routerE, outst := t.outst, obs := t.obs }

def foot14_1 (s t : State) : State :=
  { s with free := t.free, out := t.out, dic := t.dic, lasers := t.lasers, rings := t.rings, rotors := t.rotors,
           specMap := t.specMap, recovery := t.recovery, inGrant := t.inGrant, links := t.links,
           routerW := t.routerW, routerE := t.routerE, outst := t.outst, obs := t.obs }

def foot15_0 (s t : State) : State :=
  { s with arrays := t.arrays, vecs := t.vecs, layers := t.layers, engines := t.engines, chans := t.chans,
           claims := t.claims, waitClaims := t.waitClaims, spills := t.spills, queues := t.queues,
           waiters := t.waiters, outst := t.outst, colls := t.colls, slots := t.slots, greys := t.greys,
           pendColls := t.pendColls }

def foot15_1 (s t : State) : State :=
  { s with free := t.free, out := t.out, dic := t.dic, lasers := t.lasers, rings := t.rings, rotors := t.rotors,
           specMap := t.specMap, recovery := t.recovery, inGrant := t.inGrant, links := t.links,
           routerW := t.routerW, routerE := t.routerE, outst := t.outst, wires := t.wires, obs := t.obs }

def foot15_2 (s t : State) : State :=
  { s with out := t.out, dic := t.dic, lasers := t.lasers, rings := t.rings, specMap := t.specMap,
           reassign := t.reassign, recovery := t.recovery, trainFails := t.trainFails, inGrant := t.inGrant,
           links := t.links, skewHold := t.skewHold, routerW := t.routerW, routerE := t.routerE, outst := t.outst,
           obs := t.obs }

def foot16 (s t : State) : State :=
  { s with free := t.free, dic := t.dic, persist := t.persist, doms := t.doms, lasers := t.lasers,
           rings := t.rings, rotors := t.rotors, specMap := t.specMap, reassign := t.reassign,
           recovery := t.recovery, inGrant := t.inGrant, links := t.links, routerW := t.routerW,
           routerE := t.routerE, outst := t.outst, obs := t.obs }

def foot17_0 (s t : State) : State :=
  { s with free := t.free, out := t.out, dic := t.dic, layers := t.layers, engines := t.engines, tile := t.tile,
           tilePoison := t.tilePoison, lpddr := t.lpddr, lpddrPoison := t.lpddrPoison, lpddrBad := t.lpddrBad,
           chans := t.chans, claims := t.claims, waitClaims := t.waitClaims, spills := t.spills,
           queues := t.queues, waiters := t.waiters, host := t.host }

def foot17_1 (s t : State) : State :=
  { s with out := t.out, dic := t.dic, lasers := t.lasers, rings := t.rings, specMap := t.specMap,
           reassign := t.reassign, recovery := t.recovery, trainFails := t.trainFails, inGrant := t.inGrant,
           strayIn := t.strayIn, needDemand := t.needDemand, links := t.links, skewHold := t.skewHold,
           routerW := t.routerW, routerE := t.routerE, outst := t.outst, obs := t.obs }

def foot17_2 (s t : State) : State :=
  { s with out := t.out, dic := t.dic, persist := t.persist, doms := t.doms, lasers := t.lasers, rings := t.rings,
           specMap := t.specMap, reassign := t.reassign, recovery := t.recovery, trainFails := t.trainFails,
           inGrant := t.inGrant, links := t.links, skewHold := t.skewHold, routerW := t.routerW,
           routerE := t.routerE, outst := t.outst, obs := t.obs }

def foot19 (s t : State) : State :=
  { s with free := t.free, out := t.out, dic := t.dic, tile := t.tile, tilePoison := t.tilePoison,
           lpddr := t.lpddr, lpddrPoison := t.lpddrPoison, lpddrBad := t.lpddrBad, chans := t.chans,
           claims := t.claims, queues := t.queues, sync := t.sync, waiters := t.waiters, routerW := t.routerW,
           routerE := t.routerE, outst := t.outst, nextTag := t.nextTag, host := t.host, obs := t.obs }

def foot20_0 (s t : State) : State :=
  { s with free := t.free, out := t.out, dic := t.dic, layers := t.layers, tile := t.tile,
           tilePoison := t.tilePoison, lpddr := t.lpddr, lpddrPoison := t.lpddrPoison, lpddrBad := t.lpddrBad,
           chans := t.chans, claims := t.claims, queues := t.queues, sync := t.sync, waiters := t.waiters,
           routerW := t.routerW, routerE := t.routerE, outst := t.outst, nextTag := t.nextTag, host := t.host,
           obs := t.obs }

def foot20_1 (s t : State) : State :=
  { s with out := t.out, dic := t.dic, arrays := t.arrays, vecs := t.vecs, layers := t.layers,
           engines := t.engines, chans := t.chans, claims := t.claims, waitClaims := t.waitClaims,
           spills := t.spills, queues := t.queues, waiters := t.waiters, outst := t.outst, colls := t.colls,
           slots := t.slots, greys := t.greys, pendColls := t.pendColls, host := t.host, seqs := t.seqs,
           obs := t.obs }

def foot21_0 (s t : State) : State :=
  { s with free := t.free, out := t.out, dic := t.dic, arrays := t.arrays, layers := t.layers, tile := t.tile,
           tilePoison := t.tilePoison, lpddr := t.lpddr, lpddrPoison := t.lpddrPoison, lpddrBad := t.lpddrBad,
           chans := t.chans, claims := t.claims, queues := t.queues, sync := t.sync, waiters := t.waiters,
           routerW := t.routerW, routerE := t.routerE, outst := t.outst, nextTag := t.nextTag, host := t.host,
           obs := t.obs }

def foot21_1 (s t : State) : State :=
  { s with free := t.free, out := t.out, dic := t.dic, esc := t.esc, layers := t.layers, tile := t.tile,
           tilePoison := t.tilePoison, lpddr := t.lpddr, lpddrPoison := t.lpddrPoison, lpddrBad := t.lpddrBad,
           chans := t.chans, claims := t.claims, queues := t.queues, sync := t.sync, waiters := t.waiters,
           routerW := t.routerW, routerE := t.routerE, outst := t.outst, nextTag := t.nextTag, host := t.host,
           obs := t.obs }

def foot21_2 (s t : State) : State :=
  { s with free := t.free, out := t.out, dic := t.dic, layers := t.layers, tile := t.tile,
           tilePoison := t.tilePoison, lpddr := t.lpddr, lpddrPoison := t.lpddrPoison, lpddrBad := t.lpddrBad,
           chans := t.chans, claims := t.claims, queues := t.queues, sync := t.sync, waiters := t.waiters,
           routerW := t.routerW, routerE := t.routerE, outst := t.outst, nextTag := t.nextTag, rcache := t.rcache,
           host := t.host, obs := t.obs }

def foot21_3 (s t : State) : State :=
  { s with free := t.free, out := t.out, dic := t.dic, tile := t.tile, tilePoison := t.tilePoison,
           lpddr := t.lpddr, lpddrPoison := t.lpddrPoison, lpddrBad := t.lpddrBad, chans := t.chans,
           claims := t.claims, sync := t.sync, waiters := t.waiters, routerW := t.routerW, routerE := t.routerE,
           evicted := t.evicted, replay := t.replay, atoms := t.atoms, wires := t.wires, admits := t.admits,
           host := t.host, obs := t.obs }

def foot21_4 (s t : State) : State :=
  { s with free := t.free, out := t.out, dic := t.dic, vecs := t.vecs, layers := t.layers, tile := t.tile,
           tilePoison := t.tilePoison, lpddr := t.lpddr, lpddrPoison := t.lpddrPoison, lpddrBad := t.lpddrBad,
           chans := t.chans, claims := t.claims, queues := t.queues, sync := t.sync, waiters := t.waiters,
           routerW := t.routerW, routerE := t.routerE, outst := t.outst, nextTag := t.nextTag, host := t.host,
           obs := t.obs }

def foot22_0 (s t : State) : State :=
  { s with free := t.free, out := t.out, dic := t.dic, arrays := t.arrays, vecs := t.vecs, layers := t.layers,
           tile := t.tile, tilePoison := t.tilePoison, lpddr := t.lpddr, lpddrPoison := t.lpddrPoison,
           lpddrBad := t.lpddrBad, chans := t.chans, claims := t.claims, queues := t.queues, sync := t.sync,
           waiters := t.waiters, routerW := t.routerW, routerE := t.routerE, outst := t.outst,
           nextTag := t.nextTag, host := t.host, obs := t.obs }

def foot22_1 (s t : State) : State :=
  { s with free := t.free, out := t.out, dic := t.dic, layers := t.layers, engines := t.engines, tile := t.tile,
           tilePoison := t.tilePoison, lpddr := t.lpddr, lpddrPoison := t.lpddrPoison, lpddrBad := t.lpddrBad,
           chans := t.chans, claims := t.claims, waitClaims := t.waitClaims, queues := t.queues, sync := t.sync,
           waiters := t.waiters, routerW := t.routerW, routerE := t.routerE, outst := t.outst,
           nextTag := t.nextTag, host := t.host, obs := t.obs }

def foot22_2 (s t : State) : State :=
  { s with free := t.free, out := t.out, dic := t.dic, layers := t.layers, tile := t.tile,
           tilePoison := t.tilePoison, lpddr := t.lpddr, lpddrPoison := t.lpddrPoison, lpddrBad := t.lpddrBad,
           chans := t.chans, claims := t.claims, queues := t.queues, sync := t.sync, waiters := t.waiters,
           routerW := t.routerW, routerE := t.routerE, outst := t.outst, nextTag := t.nextTag, colls := t.colls,
           ended := t.ended, host := t.host, obs := t.obs }

def foot23_0 (s t : State) : State :=
  { s with free := t.free, out := t.out, dic := t.dic, layers := t.layers, engines := t.engines, tile := t.tile,
           tilePoison := t.tilePoison, lpddr := t.lpddr, lpddrPoison := t.lpddrPoison, lpddrBad := t.lpddrBad,
           chans := t.chans, claims := t.claims, waitClaims := t.waitClaims, spills := t.spills,
           queues := t.queues, sync := t.sync, waiters := t.waiters, routerW := t.routerW, routerE := t.routerE,
           outst := t.outst, nextTag := t.nextTag, host := t.host, obs := t.obs }

def foot23_1 (s t : State) : State :=
  { s with free := t.free, out := t.out, dic := t.dic, layers := t.layers, tile := t.tile,
           tilePoison := t.tilePoison, lpddr := t.lpddr, lpddrPoison := t.lpddrPoison, lpddrBad := t.lpddrBad,
           chans := t.chans, claims := t.claims, queues := t.queues, sync := t.sync, waiters := t.waiters,
           routerW := t.routerW, routerE := t.routerE, outst := t.outst, nextTag := t.nextTag, colls := t.colls,
           slots := t.slots, greys := t.greys, host := t.host, obs := t.obs }

def foot24_0 (s t : State) : State :=
  { s with free := t.free, out := t.out, dic := t.dic, arrays := t.arrays, vecs := t.vecs, layers := t.layers,
           engines := t.engines, moverRR := t.moverRR, tile := t.tile, tilePoison := t.tilePoison,
           lpddr := t.lpddr, lpddrPoison := t.lpddrPoison, lpddrBad := t.lpddrBad, chans := t.chans,
           claims := t.claims, queues := t.queues, sync := t.sync, waiters := t.waiters, routerW := t.routerW,
           routerE := t.routerE, outst := t.outst, nextTag := t.nextTag, host := t.host, obs := t.obs }

def foot24_1 (s t : State) : State :=
  { s with free := t.free, out := t.out, dic := t.dic, arrays := t.arrays, vecs := t.vecs, layers := t.layers,
           engines := t.engines, tile := t.tile, tilePoison := t.tilePoison, lpddr := t.lpddr,
           lpddrPoison := t.lpddrPoison, lpddrBad := t.lpddrBad, chans := t.chans, claims := t.claims,
           waitClaims := t.waitClaims, spills := t.spills, queues := t.queues, waiters := t.waiters,
           outst := t.outst, colls := t.colls, slots := t.slots, greys := t.greys, pendColls := t.pendColls,
           host := t.host }

def foot24_2 (s t : State) : State :=
  { s with free := t.free, out := t.out, dic := t.dic, layers := t.layers, engines := t.engines, tile := t.tile,
           tilePoison := t.tilePoison, lpddr := t.lpddr, lpddrPoison := t.lpddrPoison, lpddrBad := t.lpddrBad,
           chans := t.chans, claims := t.claims, waitClaims := t.waitClaims, spills := t.spills,
           queues := t.queues, sync := t.sync, waiters := t.waiters, routerW := t.routerW, routerE := t.routerE,
           outst := t.outst, nextTag := t.nextTag, wires := t.wires, host := t.host, obs := t.obs }

def foot24_3 (s t : State) : State :=
  { s with free := t.free, out := t.out, dic := t.dic, layers := t.layers, tile := t.tile,
           tilePoison := t.tilePoison, lpddr := t.lpddr, lpddrPoison := t.lpddrPoison, lpddrBad := t.lpddrBad,
           chans := t.chans, claims := t.claims, queues := t.queues, sync := t.sync, waiters := t.waiters,
           routerW := t.routerW, routerE := t.routerE, outst := t.outst, nextTag := t.nextTag, colls := t.colls,
           slots := t.slots, greys := t.greys, ended := t.ended, host := t.host, obs := t.obs }

def foot24_4 (s t : State) : State :=
  { s with free := t.free, out := t.out, dic := t.dic, layers := t.layers, tile := t.tile,
           tilePoison := t.tilePoison, lpddr := t.lpddr, lpddrPoison := t.lpddrPoison, lpddrBad := t.lpddrBad,
           chans := t.chans, claims := t.claims, queues := t.queues, sync := t.sync, waiters := t.waiters,
           routerW := t.routerW, routerE := t.routerE, outst := t.outst, nextTag := t.nextTag, colls := t.colls,
           slots := t.slots, greys := t.greys, pendColls := t.pendColls, host := t.host, obs := t.obs }

def foot25_0 (s t : State) : State :=
  { s with free := t.free, out := t.out, dic := t.dic, arrays := t.arrays, vecs := t.vecs, layers := t.layers,
           engines := t.engines, moverRR := t.moverRR, tile := t.tile, tilePoison := t.tilePoison,
           lpddr := t.lpddr, lpddrPoison := t.lpddrPoison, lpddrBad := t.lpddrBad, chans := t.chans,
           claims := t.claims, queues := t.queues, sync := t.sync, waiters := t.waiters, schedRR := t.schedRR,
           routerW := t.routerW, routerE := t.routerE, outst := t.outst, nextTag := t.nextTag, host := t.host,
           obs := t.obs }

def foot25_1 (s t : State) : State :=
  { s with free := t.free, out := t.out, dic := t.dic, bridge := t.bridge, layers := t.layers,
           engines := t.engines, tile := t.tile, tilePoison := t.tilePoison, lpddr := t.lpddr,
           lpddrPoison := t.lpddrPoison, lpddrBad := t.lpddrBad, chans := t.chans, claims := t.claims,
           waitClaims := t.waitClaims, spills := t.spills, queues := t.queues, sync := t.sync,
           waiters := t.waiters, links := t.links, routerW := t.routerW, routerE := t.routerE, outst := t.outst,
           nextTag := t.nextTag, host := t.host, obs := t.obs }

def foot25_2 (s t : State) : State :=
  { s with free := t.free, out := t.out, dic := t.dic, layers := t.layers, engines := t.engines, tile := t.tile,
           tilePoison := t.tilePoison, lpddr := t.lpddr, lpddrPoison := t.lpddrPoison, lpddrBad := t.lpddrBad,
           chans := t.chans, claims := t.claims, waitClaims := t.waitClaims, spills := t.spills,
           queues := t.queues, sync := t.sync, waiters := t.waiters, routerW := t.routerW, routerE := t.routerE,
           outst := t.outst, nextTag := t.nextTag, atoms := t.atoms, admits := t.admits, host := t.host,
           obs := t.obs }

def foot25_3 (s t : State) : State :=
  { s with free := t.free, out := t.out, dic := t.dic, layers := t.layers, engines := t.engines, tile := t.tile,
           tilePoison := t.tilePoison, lpddr := t.lpddr, lpddrPoison := t.lpddrPoison, lpddrBad := t.lpddrBad,
           chans := t.chans, claims := t.claims, waitClaims := t.waitClaims, spills := t.spills,
           queues := t.queues, sync := t.sync, waiters := t.waiters, routerW := t.routerW, routerE := t.routerE,
           outst := t.outst, nextTag := t.nextTag, wires := t.wires, host := t.host, mgmt := t.mgmt, obs := t.obs }

def foot25_4 (s t : State) : State :=
  { s with free := t.free, out := t.out, dic := t.dic, layers := t.layers, engines := t.engines, tile := t.tile,
           tilePoison := t.tilePoison, lpddr := t.lpddr, lpddrPoison := t.lpddrPoison, lpddrBad := t.lpddrBad,
           chans := t.chans, claims := t.claims, waitClaims := t.waitClaims, spills := t.spills,
           queues := t.queues, sync := t.sync, waiters := t.waiters, routerW := t.routerW, routerE := t.routerE,
           outst := t.outst, nextTag := t.nextTag, wires := t.wires, rcache := t.rcache, host := t.host,
           obs := t.obs }

def foot25_5 (s t : State) : State :=
  { s with free := t.free, out := t.out, dic := t.dic, layers := t.layers, tile := t.tile,
           tilePoison := t.tilePoison, lpddr := t.lpddr, lpddrPoison := t.lpddrPoison, lpddrBad := t.lpddrBad,
           chans := t.chans, claims := t.claims, queues := t.queues, sync := t.sync, waiters := t.waiters,
           routerW := t.routerW, routerE := t.routerE, outst := t.outst, nextTag := t.nextTag, colls := t.colls,
           slots := t.slots, greys := t.greys, pendColls := t.pendColls, ended := t.ended, host := t.host,
           obs := t.obs }

def foot26_0 (s t : State) : State :=
  { s with free := t.free, out := t.out, dic := t.dic, layers := t.layers, tile := t.tile,
           tilePoison := t.tilePoison, lpddr := t.lpddr, lpddrPoison := t.lpddrPoison, lpddrBad := t.lpddrBad,
           chans := t.chans, claims := t.claims, queues := t.queues, sync := t.sync, waiters := t.waiters,
           routerW := t.routerW, routerE := t.routerE, outst := t.outst, nextTag := t.nextTag, colls := t.colls,
           slots := t.slots, greys := t.greys, pendColls := t.pendColls, ended := t.ended, collEcho := t.collEcho,
           host := t.host, obs := t.obs }

def foot26_1 (s t : State) : State :=
  { s with free := t.free, out := t.out, dic := t.dic, persist := t.persist, layers := t.layers,
           engines := t.engines, tile := t.tile, tilePoison := t.tilePoison, lpddr := t.lpddr,
           lpddrPoison := t.lpddrPoison, lpddrBad := t.lpddrBad, chans := t.chans, repairs := t.repairs,
           claims := t.claims, waitClaims := t.waitClaims, spills := t.spills, queues := t.queues, sync := t.sync,
           waiters := t.waiters, routerW := t.routerW, routerE := t.routerE, outst := t.outst,
           nextTag := t.nextTag, wires := t.wires, host := t.host, obs := t.obs }

def foot27 (s t : State) : State :=
  { s with free := t.free, out := t.out, dic := t.dic, vecs := t.vecs, layers := t.layers, engines := t.engines,
           tile := t.tile, tilePoison := t.tilePoison, lpddr := t.lpddr, lpddrPoison := t.lpddrPoison,
           lpddrBad := t.lpddrBad, chans := t.chans, claims := t.claims, waitClaims := t.waitClaims,
           spills := t.spills, queues := t.queues, sync := t.sync, waiters := t.waiters, routerW := t.routerW,
           routerE := t.routerE, outst := t.outst, nextTag := t.nextTag, tagHold := t.tagHold, wires := t.wires,
           rcache := t.rcache, host := t.host, obs := t.obs }

def foot29_0 (s t : State) : State :=
  { s with free := t.free, out := t.out, dic := t.dic, bridge := t.bridge, arrays := t.arrays, vecs := t.vecs,
           layers := t.layers, engines := t.engines, tile := t.tile, tilePoison := t.tilePoison, lpddr := t.lpddr,
           lpddrPoison := t.lpddrPoison, lpddrBad := t.lpddrBad, chans := t.chans, claims := t.claims,
           waitClaims := t.waitClaims, spills := t.spills, queues := t.queues, waiters := t.waiters,
           links := t.links, routerW := t.routerW, routerE := t.routerE, outst := t.outst, colls := t.colls,
           slots := t.slots, greys := t.greys, pendColls := t.pendColls, host := t.host, obs := t.obs }

def foot29_1 (s t : State) : State :=
  { s with free := t.free, out := t.out, dic := t.dic, layers := t.layers, engines := t.engines, tile := t.tile,
           tilePoison := t.tilePoison, lpddr := t.lpddr, lpddrPoison := t.lpddrPoison, lpddrBad := t.lpddrBad,
           chans := t.chans, claims := t.claims, waitClaims := t.waitClaims, spills := t.spills,
           queues := t.queues, sync := t.sync, waiters := t.waiters, routerW := t.routerW, routerE := t.routerE,
           windows := t.windows, outst := t.outst, nextTag := t.nextTag, wires := t.wires, colls := t.colls,
           slots := t.slots, greys := t.greys, ended := t.ended, host := t.host, obs := t.obs }

def foot30 (s t : State) : State :=
  { s with free := t.free, out := t.out, dic := t.dic, arrays := t.arrays, vecs := t.vecs, layers := t.layers,
           engines := t.engines, tile := t.tile, tilePoison := t.tilePoison, lpddr := t.lpddr,
           lpddrPoison := t.lpddrPoison, lpddrBad := t.lpddrBad, chans := t.chans, claims := t.claims,
           waitClaims := t.waitClaims, spills := t.spills, queues := t.queues, sync := t.sync,
           waiters := t.waiters, routerW := t.routerW, routerE := t.routerE, outst := t.outst,
           nextTag := t.nextTag, wires := t.wires, colls := t.colls, slots := t.slots, greys := t.greys,
           pendColls := t.pendColls, host := t.host, obs := t.obs }

def footRun (s t : State) : State := { t with pending := s.pending, now := s.now }

end Sys2Proof.Machine
end

