-- ==== Sys2Proof/Laws/State.lean ====
section
/-!
SUPPORT. One lemma per field for the updates every meaning is made of: an object put, a message sent, a free value
drawn, an event journalled.
-/

namespace Sys2Proof.Machine

@[simp] theorem objPut_pending (s : State) (k v : Nat) : (objPut s k v).pending = s.pending := rfl
@[simp] theorem objPut_now (s : State) (k v : Nat) : (objPut s k v).now = s.now := rfl
@[simp] theorem objPut_coldAt (s : State) (k v : Nat) : (objPut s k v).coldAt = s.coldAt := rfl
@[simp] theorem objPut_lossNs (s : State) (k v : Nat) : (objPut s k v).lossNs = s.lossNs := rfl
@[simp] theorem objPut_free (s : State) (k v : Nat) : (objPut s k v).free = s.free := rfl
@[simp] theorem objPut_out (s : State) (k v : Nat) : (objPut s k v).out = s.out := rfl
@[simp] theorem objPut_flash (s : State) (k v : Nat) : (objPut s k v).flash = s.flash := rfl
@[simp] theorem objPut_persist (s : State) (k v : Nat) : (objPut s k v).persist = s.persist := rfl
@[simp] theorem objPut_doms (s : State) (k v : Nat) : (objPut s k v).doms = s.doms := rfl
@[simp] theorem objPut_domsFlash (s : State) (k v : Nat) : (objPut s k v).domsFlash = s.domsFlash := rfl
@[simp] theorem objPut_bridge (s : State) (k v : Nat) : (objPut s k v).bridge = s.bridge := rfl
@[simp] theorem objPut_arrays (s : State) (k v : Nat) : (objPut s k v).arrays = s.arrays := rfl
@[simp] theorem objPut_vecs (s : State) (k v : Nat) : (objPut s k v).vecs = s.vecs := rfl
@[simp] theorem objPut_esc (s : State) (k v : Nat) : (objPut s k v).esc = s.esc := rfl
@[simp] theorem objPut_layers (s : State) (k v : Nat) : (objPut s k v).layers = s.layers := rfl
@[simp] theorem objPut_engines (s : State) (k v : Nat) : (objPut s k v).engines = s.engines := rfl
@[simp] theorem objPut_moverRR (s : State) (k v : Nat) : (objPut s k v).moverRR = s.moverRR := rfl
@[simp] theorem objPut_tile (s : State) (k v : Nat) : (objPut s k v).tile = s.tile := rfl
@[simp] theorem objPut_tilePoison (s : State) (k v : Nat) : (objPut s k v).tilePoison = s.tilePoison := rfl
@[simp] theorem objPut_remaps (s : State) (k v : Nat) : (objPut s k v).remaps = s.remaps := rfl
@[simp] theorem objPut_remapsFlash (s : State) (k v : Nat) : (objPut s k v).remapsFlash = s.remapsFlash := rfl
@[simp] theorem objPut_repairsFlash (s : State) (k v : Nat) : (objPut s k v).repairsFlash = s.repairsFlash := rfl
@[simp] theorem objPut_corrRuns (s : State) (k v : Nat) : (objPut s k v).corrRuns = s.corrRuns := rfl
@[simp] theorem objPut_scrubLine (s : State) (k v : Nat) : (objPut s k v).scrubLine = s.scrubLine := rfl
@[simp] theorem objPut_scrubWrap (s : State) (k v : Nat) : (objPut s k v).scrubWrap = s.scrubWrap := rfl
@[simp] theorem objPut_spareOut (s : State) (k v : Nat) : (objPut s k v).spareOut = s.spareOut := rfl
@[simp] theorem objPut_lpddr (s : State) (k v : Nat) : (objPut s k v).lpddr = s.lpddr := rfl
@[simp] theorem objPut_lpddrPoison (s : State) (k v : Nat) : (objPut s k v).lpddrPoison = s.lpddrPoison := rfl
@[simp] theorem objPut_lpddrBad (s : State) (k v : Nat) : (objPut s k v).lpddrBad = s.lpddrBad := rfl
@[simp] theorem objPut_chans (s : State) (k v : Nat) : (objPut s k v).chans = s.chans := rfl
@[simp] theorem objPut_pkgs (s : State) (k v : Nat) : (objPut s k v).pkgs = s.pkgs := rfl
@[simp] theorem objPut_repairs (s : State) (k v : Nat) : (objPut s k v).repairs = s.repairs := rfl
@[simp] theorem objPut_keyEff (s : State) (k v : Nat) : (objPut s k v).keyEff = s.keyEff := rfl
@[simp] theorem objPut_spillEff (s : State) (k v : Nat) : (objPut s k v).spillEff = s.spillEff := rfl
@[simp] theorem objPut_watchEff (s : State) (k v : Nat) : (objPut s k v).watchEff = s.watchEff := rfl
@[simp] theorem objPut_rcEff (s : State) (k v : Nat) : (objPut s k v).rcEff = s.rcEff := rfl
@[simp] theorem objPut_laserMode (s : State) (k v : Nat) : (objPut s k v).laserMode = s.laserMode := rfl
@[simp] theorem objPut_unretired (s : State) (k v : Nat) : (objPut s k v).unretired = s.unretired := rfl
@[simp] theorem objPut_parts (s : State) (k v : Nat) : (objPut s k v).parts = s.parts := rfl
@[simp] theorem objPut_claims (s : State) (k v : Nat) : (objPut s k v).claims = s.claims := rfl
@[simp] theorem objPut_waitClaims (s : State) (k v : Nat) : (objPut s k v).waitClaims = s.waitClaims := rfl
@[simp] theorem objPut_spills (s : State) (k v : Nat) : (objPut s k v).spills = s.spills := rfl
@[simp] theorem objPut_queues (s : State) (k v : Nat) : (objPut s k v).queues = s.queues := rfl
@[simp] theorem objPut_sync (s : State) (k v : Nat) : (objPut s k v).sync = s.sync := rfl
@[simp] theorem objPut_waiters (s : State) (k v : Nat) : (objPut s k v).waiters = s.waiters := rfl
@[simp] theorem objPut_cores (s : State) (k v : Nat) : (objPut s k v).cores = s.cores := rfl
@[simp] theorem objPut_schedRR (s : State) (k v : Nat) : (objPut s k v).schedRR = s.schedRR := rfl
@[simp] theorem objPut_lasers (s : State) (k v : Nat) : (objPut s k v).lasers = s.lasers := rfl
@[simp] theorem objPut_rings (s : State) (k v : Nat) : (objPut s k v).rings = s.rings := rfl
@[simp] theorem objPut_rotors (s : State) (k v : Nat) : (objPut s k v).rotors = s.rotors := rfl
@[simp] theorem objPut_specMap (s : State) (k v : Nat) : (objPut s k v).specMap = s.specMap := rfl
@[simp] theorem objPut_demand (s : State) (k v : Nat) : (objPut s k v).demand = s.demand := rfl
@[simp] theorem objPut_reassign (s : State) (k v : Nat) : (objPut s k v).reassign = s.reassign := rfl
@[simp] theorem objPut_recovery (s : State) (k v : Nat) : (objPut s k v).recovery = s.recovery := rfl
@[simp] theorem objPut_sweptAt (s : State) (k v : Nat) : (objPut s k v).sweptAt = s.sweptAt := rfl
@[simp] theorem objPut_heard (s : State) (k v : Nat) : (objPut s k v).heard = s.heard := rfl
@[simp] theorem objPut_inPeer (s : State) (k v : Nat) : (objPut s k v).inPeer = s.inPeer := rfl
@[simp] theorem objPut_peerVer (s : State) (k v : Nat) : (objPut s k v).peerVer = s.peerVer := rfl
@[simp] theorem objPut_trainFails (s : State) (k v : Nat) : (objPut s k v).trainFails = s.trainFails := rfl
@[simp] theorem objPut_inGrant (s : State) (k v : Nat) : (objPut s k v).inGrant = s.inGrant := rfl
@[simp] theorem objPut_strayIn (s : State) (k v : Nat) : (objPut s k v).strayIn = s.strayIn := rfl
@[simp] theorem objPut_backDue (s : State) (k v : Nat) : (objPut s k v).backDue = s.backDue := rfl
@[simp] theorem objPut_needDemand (s : State) (k v : Nat) : (objPut s k v).needDemand = s.needDemand := rfl
@[simp] theorem objPut_tapped (s : State) (k v : Nat) : (objPut s k v).tapped = s.tapped := rfl
@[simp] theorem objPut_links (s : State) (k v : Nat) : (objPut s k v).links = s.links := rfl
@[simp] theorem objPut_skewHold (s : State) (k v : Nat) : (objPut s k v).skewHold = s.skewHold := rfl
@[simp] theorem objPut_armed (s : State) (k v : Nat) : (objPut s k v).armed = s.armed := rfl
@[simp] theorem objPut_routerW (s : State) (k v : Nat) : (objPut s k v).routerW = s.routerW := rfl
@[simp] theorem objPut_routerE (s : State) (k v : Nat) : (objPut s k v).routerE = s.routerE := rfl
@[simp] theorem objPut_windows (s : State) (k v : Nat) : (objPut s k v).windows = s.windows := rfl
@[simp] theorem objPut_outst (s : State) (k v : Nat) : (objPut s k v).outst = s.outst := rfl
@[simp] theorem objPut_nextTag (s : State) (k v : Nat) : (objPut s k v).nextTag = s.nextTag := rfl
@[simp] theorem objPut_tagHold (s : State) (k v : Nat) : (objPut s k v).tagHold = s.tagHold := rfl
@[simp] theorem objPut_evicted (s : State) (k v : Nat) : (objPut s k v).evicted = s.evicted := rfl
@[simp] theorem objPut_replay (s : State) (k v : Nat) : (objPut s k v).replay = s.replay := rfl
@[simp] theorem objPut_atoms (s : State) (k v : Nat) : (objPut s k v).atoms = s.atoms := rfl
@[simp] theorem objPut_wires (s : State) (k v : Nat) : (objPut s k v).wires = s.wires := rfl
@[simp] theorem objPut_admits (s : State) (k v : Nat) : (objPut s k v).admits = s.admits := rfl
@[simp] theorem objPut_rcache (s : State) (k v : Nat) : (objPut s k v).rcache = s.rcache := rfl
@[simp] theorem objPut_colls (s : State) (k v : Nat) : (objPut s k v).colls = s.colls := rfl
@[simp] theorem objPut_slots (s : State) (k v : Nat) : (objPut s k v).slots = s.slots := rfl
@[simp] theorem objPut_greys (s : State) (k v : Nat) : (objPut s k v).greys = s.greys := rfl
@[simp] theorem objPut_pendColls (s : State) (k v : Nat) : (objPut s k v).pendColls = s.pendColls := rfl
@[simp] theorem objPut_ended (s : State) (k v : Nat) : (objPut s k v).ended = s.ended := rfl
@[simp] theorem objPut_collEcho (s : State) (k v : Nat) : (objPut s k v).collEcho = s.collEcho := rfl
@[simp] theorem objPut_host (s : State) (k v : Nat) : (objPut s k v).host = s.host := rfl
@[simp] theorem objPut_mgmt (s : State) (k v : Nat) : (objPut s k v).mgmt = s.mgmt := rfl
@[simp] theorem objPut_power (s : State) (k v : Nat) : (objPut s k v).power = s.power := rfl
@[simp] theorem objPut_seqs (s : State) (k v : Nat) : (objPut s k v).seqs = s.seqs := rfl
@[simp] theorem objPut_sec (s : State) (k v : Nat) : (objPut s k v).sec = s.sec := rfl
@[simp] theorem objPut_iface (s : State) (k v : Nat) : (objPut s k v).iface = s.iface := rfl
@[simp] theorem objPut_obs (s : State) (k v : Nat) : (objPut s k v).obs = s.obs := rfl

@[simp] theorem objAdd_pending (s : State) (k n : Nat) : (objAdd s k n).pending = s.pending := rfl
@[simp] theorem objAdd_now (s : State) (k n : Nat) : (objAdd s k n).now = s.now := rfl
@[simp] theorem objAdd_coldAt (s : State) (k n : Nat) : (objAdd s k n).coldAt = s.coldAt := rfl
@[simp] theorem objAdd_lossNs (s : State) (k n : Nat) : (objAdd s k n).lossNs = s.lossNs := rfl
@[simp] theorem objAdd_free (s : State) (k n : Nat) : (objAdd s k n).free = s.free := rfl
@[simp] theorem objAdd_out (s : State) (k n : Nat) : (objAdd s k n).out = s.out := rfl
@[simp] theorem objAdd_flash (s : State) (k n : Nat) : (objAdd s k n).flash = s.flash := rfl
@[simp] theorem objAdd_persist (s : State) (k n : Nat) : (objAdd s k n).persist = s.persist := rfl
@[simp] theorem objAdd_doms (s : State) (k n : Nat) : (objAdd s k n).doms = s.doms := rfl
@[simp] theorem objAdd_domsFlash (s : State) (k n : Nat) : (objAdd s k n).domsFlash = s.domsFlash := rfl
@[simp] theorem objAdd_bridge (s : State) (k n : Nat) : (objAdd s k n).bridge = s.bridge := rfl
@[simp] theorem objAdd_arrays (s : State) (k n : Nat) : (objAdd s k n).arrays = s.arrays := rfl
@[simp] theorem objAdd_vecs (s : State) (k n : Nat) : (objAdd s k n).vecs = s.vecs := rfl
@[simp] theorem objAdd_esc (s : State) (k n : Nat) : (objAdd s k n).esc = s.esc := rfl
@[simp] theorem objAdd_layers (s : State) (k n : Nat) : (objAdd s k n).layers = s.layers := rfl
@[simp] theorem objAdd_engines (s : State) (k n : Nat) : (objAdd s k n).engines = s.engines := rfl
@[simp] theorem objAdd_moverRR (s : State) (k n : Nat) : (objAdd s k n).moverRR = s.moverRR := rfl
@[simp] theorem objAdd_tile (s : State) (k n : Nat) : (objAdd s k n).tile = s.tile := rfl
@[simp] theorem objAdd_tilePoison (s : State) (k n : Nat) : (objAdd s k n).tilePoison = s.tilePoison := rfl
@[simp] theorem objAdd_remaps (s : State) (k n : Nat) : (objAdd s k n).remaps = s.remaps := rfl
@[simp] theorem objAdd_remapsFlash (s : State) (k n : Nat) : (objAdd s k n).remapsFlash = s.remapsFlash := rfl
@[simp] theorem objAdd_repairsFlash (s : State) (k n : Nat) : (objAdd s k n).repairsFlash = s.repairsFlash := rfl
@[simp] theorem objAdd_corrRuns (s : State) (k n : Nat) : (objAdd s k n).corrRuns = s.corrRuns := rfl
@[simp] theorem objAdd_scrubLine (s : State) (k n : Nat) : (objAdd s k n).scrubLine = s.scrubLine := rfl
@[simp] theorem objAdd_scrubWrap (s : State) (k n : Nat) : (objAdd s k n).scrubWrap = s.scrubWrap := rfl
@[simp] theorem objAdd_spareOut (s : State) (k n : Nat) : (objAdd s k n).spareOut = s.spareOut := rfl
@[simp] theorem objAdd_lpddr (s : State) (k n : Nat) : (objAdd s k n).lpddr = s.lpddr := rfl
@[simp] theorem objAdd_lpddrPoison (s : State) (k n : Nat) : (objAdd s k n).lpddrPoison = s.lpddrPoison := rfl
@[simp] theorem objAdd_lpddrBad (s : State) (k n : Nat) : (objAdd s k n).lpddrBad = s.lpddrBad := rfl
@[simp] theorem objAdd_chans (s : State) (k n : Nat) : (objAdd s k n).chans = s.chans := rfl
@[simp] theorem objAdd_pkgs (s : State) (k n : Nat) : (objAdd s k n).pkgs = s.pkgs := rfl
@[simp] theorem objAdd_repairs (s : State) (k n : Nat) : (objAdd s k n).repairs = s.repairs := rfl
@[simp] theorem objAdd_keyEff (s : State) (k n : Nat) : (objAdd s k n).keyEff = s.keyEff := rfl
@[simp] theorem objAdd_spillEff (s : State) (k n : Nat) : (objAdd s k n).spillEff = s.spillEff := rfl
@[simp] theorem objAdd_watchEff (s : State) (k n : Nat) : (objAdd s k n).watchEff = s.watchEff := rfl
@[simp] theorem objAdd_rcEff (s : State) (k n : Nat) : (objAdd s k n).rcEff = s.rcEff := rfl
@[simp] theorem objAdd_laserMode (s : State) (k n : Nat) : (objAdd s k n).laserMode = s.laserMode := rfl
@[simp] theorem objAdd_unretired (s : State) (k n : Nat) : (objAdd s k n).unretired = s.unretired := rfl
@[simp] theorem objAdd_parts (s : State) (k n : Nat) : (objAdd s k n).parts = s.parts := rfl
@[simp] theorem objAdd_claims (s : State) (k n : Nat) : (objAdd s k n).claims = s.claims := rfl
@[simp] theorem objAdd_waitClaims (s : State) (k n : Nat) : (objAdd s k n).waitClaims = s.waitClaims := rfl
@[simp] theorem objAdd_spills (s : State) (k n : Nat) : (objAdd s k n).spills = s.spills := rfl
@[simp] theorem objAdd_queues (s : State) (k n : Nat) : (objAdd s k n).queues = s.queues := rfl
@[simp] theorem objAdd_sync (s : State) (k n : Nat) : (objAdd s k n).sync = s.sync := rfl
@[simp] theorem objAdd_waiters (s : State) (k n : Nat) : (objAdd s k n).waiters = s.waiters := rfl
@[simp] theorem objAdd_cores (s : State) (k n : Nat) : (objAdd s k n).cores = s.cores := rfl
@[simp] theorem objAdd_schedRR (s : State) (k n : Nat) : (objAdd s k n).schedRR = s.schedRR := rfl
@[simp] theorem objAdd_lasers (s : State) (k n : Nat) : (objAdd s k n).lasers = s.lasers := rfl
@[simp] theorem objAdd_rings (s : State) (k n : Nat) : (objAdd s k n).rings = s.rings := rfl
@[simp] theorem objAdd_rotors (s : State) (k n : Nat) : (objAdd s k n).rotors = s.rotors := rfl
@[simp] theorem objAdd_specMap (s : State) (k n : Nat) : (objAdd s k n).specMap = s.specMap := rfl
@[simp] theorem objAdd_demand (s : State) (k n : Nat) : (objAdd s k n).demand = s.demand := rfl
@[simp] theorem objAdd_reassign (s : State) (k n : Nat) : (objAdd s k n).reassign = s.reassign := rfl
@[simp] theorem objAdd_recovery (s : State) (k n : Nat) : (objAdd s k n).recovery = s.recovery := rfl
@[simp] theorem objAdd_sweptAt (s : State) (k n : Nat) : (objAdd s k n).sweptAt = s.sweptAt := rfl
@[simp] theorem objAdd_heard (s : State) (k n : Nat) : (objAdd s k n).heard = s.heard := rfl
@[simp] theorem objAdd_inPeer (s : State) (k n : Nat) : (objAdd s k n).inPeer = s.inPeer := rfl
@[simp] theorem objAdd_peerVer (s : State) (k n : Nat) : (objAdd s k n).peerVer = s.peerVer := rfl
@[simp] theorem objAdd_trainFails (s : State) (k n : Nat) : (objAdd s k n).trainFails = s.trainFails := rfl
@[simp] theorem objAdd_inGrant (s : State) (k n : Nat) : (objAdd s k n).inGrant = s.inGrant := rfl
@[simp] theorem objAdd_strayIn (s : State) (k n : Nat) : (objAdd s k n).strayIn = s.strayIn := rfl
@[simp] theorem objAdd_backDue (s : State) (k n : Nat) : (objAdd s k n).backDue = s.backDue := rfl
@[simp] theorem objAdd_needDemand (s : State) (k n : Nat) : (objAdd s k n).needDemand = s.needDemand := rfl
@[simp] theorem objAdd_tapped (s : State) (k n : Nat) : (objAdd s k n).tapped = s.tapped := rfl
@[simp] theorem objAdd_links (s : State) (k n : Nat) : (objAdd s k n).links = s.links := rfl
@[simp] theorem objAdd_skewHold (s : State) (k n : Nat) : (objAdd s k n).skewHold = s.skewHold := rfl
@[simp] theorem objAdd_armed (s : State) (k n : Nat) : (objAdd s k n).armed = s.armed := rfl
@[simp] theorem objAdd_routerW (s : State) (k n : Nat) : (objAdd s k n).routerW = s.routerW := rfl
@[simp] theorem objAdd_routerE (s : State) (k n : Nat) : (objAdd s k n).routerE = s.routerE := rfl
@[simp] theorem objAdd_windows (s : State) (k n : Nat) : (objAdd s k n).windows = s.windows := rfl
@[simp] theorem objAdd_outst (s : State) (k n : Nat) : (objAdd s k n).outst = s.outst := rfl
@[simp] theorem objAdd_nextTag (s : State) (k n : Nat) : (objAdd s k n).nextTag = s.nextTag := rfl
@[simp] theorem objAdd_tagHold (s : State) (k n : Nat) : (objAdd s k n).tagHold = s.tagHold := rfl
@[simp] theorem objAdd_evicted (s : State) (k n : Nat) : (objAdd s k n).evicted = s.evicted := rfl
@[simp] theorem objAdd_replay (s : State) (k n : Nat) : (objAdd s k n).replay = s.replay := rfl
@[simp] theorem objAdd_atoms (s : State) (k n : Nat) : (objAdd s k n).atoms = s.atoms := rfl
@[simp] theorem objAdd_wires (s : State) (k n : Nat) : (objAdd s k n).wires = s.wires := rfl
@[simp] theorem objAdd_admits (s : State) (k n : Nat) : (objAdd s k n).admits = s.admits := rfl
@[simp] theorem objAdd_rcache (s : State) (k n : Nat) : (objAdd s k n).rcache = s.rcache := rfl
@[simp] theorem objAdd_colls (s : State) (k n : Nat) : (objAdd s k n).colls = s.colls := rfl
@[simp] theorem objAdd_slots (s : State) (k n : Nat) : (objAdd s k n).slots = s.slots := rfl
@[simp] theorem objAdd_greys (s : State) (k n : Nat) : (objAdd s k n).greys = s.greys := rfl
@[simp] theorem objAdd_pendColls (s : State) (k n : Nat) : (objAdd s k n).pendColls = s.pendColls := rfl
@[simp] theorem objAdd_ended (s : State) (k n : Nat) : (objAdd s k n).ended = s.ended := rfl
@[simp] theorem objAdd_collEcho (s : State) (k n : Nat) : (objAdd s k n).collEcho = s.collEcho := rfl
@[simp] theorem objAdd_host (s : State) (k n : Nat) : (objAdd s k n).host = s.host := rfl
@[simp] theorem objAdd_mgmt (s : State) (k n : Nat) : (objAdd s k n).mgmt = s.mgmt := rfl
@[simp] theorem objAdd_power (s : State) (k n : Nat) : (objAdd s k n).power = s.power := rfl
@[simp] theorem objAdd_seqs (s : State) (k n : Nat) : (objAdd s k n).seqs = s.seqs := rfl
@[simp] theorem objAdd_sec (s : State) (k n : Nat) : (objAdd s k n).sec = s.sec := rfl
@[simp] theorem objAdd_iface (s : State) (k n : Nat) : (objAdd s k n).iface = s.iface := rfl
@[simp] theorem objAdd_obs (s : State) (k n : Nat) : (objAdd s k n).obs = s.obs := rfl

@[simp] theorem objInc_pending (s : State) (k : Nat) : (objInc s k).pending = s.pending := rfl
@[simp] theorem objInc_now (s : State) (k : Nat) : (objInc s k).now = s.now := rfl
@[simp] theorem objInc_coldAt (s : State) (k : Nat) : (objInc s k).coldAt = s.coldAt := rfl
@[simp] theorem objInc_lossNs (s : State) (k : Nat) : (objInc s k).lossNs = s.lossNs := rfl
@[simp] theorem objInc_free (s : State) (k : Nat) : (objInc s k).free = s.free := rfl
@[simp] theorem objInc_out (s : State) (k : Nat) : (objInc s k).out = s.out := rfl
@[simp] theorem objInc_flash (s : State) (k : Nat) : (objInc s k).flash = s.flash := rfl
@[simp] theorem objInc_persist (s : State) (k : Nat) : (objInc s k).persist = s.persist := rfl
@[simp] theorem objInc_doms (s : State) (k : Nat) : (objInc s k).doms = s.doms := rfl
@[simp] theorem objInc_domsFlash (s : State) (k : Nat) : (objInc s k).domsFlash = s.domsFlash := rfl
@[simp] theorem objInc_bridge (s : State) (k : Nat) : (objInc s k).bridge = s.bridge := rfl
@[simp] theorem objInc_arrays (s : State) (k : Nat) : (objInc s k).arrays = s.arrays := rfl
@[simp] theorem objInc_vecs (s : State) (k : Nat) : (objInc s k).vecs = s.vecs := rfl
@[simp] theorem objInc_esc (s : State) (k : Nat) : (objInc s k).esc = s.esc := rfl
@[simp] theorem objInc_layers (s : State) (k : Nat) : (objInc s k).layers = s.layers := rfl
@[simp] theorem objInc_engines (s : State) (k : Nat) : (objInc s k).engines = s.engines := rfl
@[simp] theorem objInc_moverRR (s : State) (k : Nat) : (objInc s k).moverRR = s.moverRR := rfl
@[simp] theorem objInc_tile (s : State) (k : Nat) : (objInc s k).tile = s.tile := rfl
@[simp] theorem objInc_tilePoison (s : State) (k : Nat) : (objInc s k).tilePoison = s.tilePoison := rfl
@[simp] theorem objInc_remaps (s : State) (k : Nat) : (objInc s k).remaps = s.remaps := rfl
@[simp] theorem objInc_remapsFlash (s : State) (k : Nat) : (objInc s k).remapsFlash = s.remapsFlash := rfl
@[simp] theorem objInc_repairsFlash (s : State) (k : Nat) : (objInc s k).repairsFlash = s.repairsFlash := rfl
@[simp] theorem objInc_corrRuns (s : State) (k : Nat) : (objInc s k).corrRuns = s.corrRuns := rfl
@[simp] theorem objInc_scrubLine (s : State) (k : Nat) : (objInc s k).scrubLine = s.scrubLine := rfl
@[simp] theorem objInc_scrubWrap (s : State) (k : Nat) : (objInc s k).scrubWrap = s.scrubWrap := rfl
@[simp] theorem objInc_spareOut (s : State) (k : Nat) : (objInc s k).spareOut = s.spareOut := rfl
@[simp] theorem objInc_lpddr (s : State) (k : Nat) : (objInc s k).lpddr = s.lpddr := rfl
@[simp] theorem objInc_lpddrPoison (s : State) (k : Nat) : (objInc s k).lpddrPoison = s.lpddrPoison := rfl
@[simp] theorem objInc_lpddrBad (s : State) (k : Nat) : (objInc s k).lpddrBad = s.lpddrBad := rfl
@[simp] theorem objInc_chans (s : State) (k : Nat) : (objInc s k).chans = s.chans := rfl
@[simp] theorem objInc_pkgs (s : State) (k : Nat) : (objInc s k).pkgs = s.pkgs := rfl
@[simp] theorem objInc_repairs (s : State) (k : Nat) : (objInc s k).repairs = s.repairs := rfl
@[simp] theorem objInc_keyEff (s : State) (k : Nat) : (objInc s k).keyEff = s.keyEff := rfl
@[simp] theorem objInc_spillEff (s : State) (k : Nat) : (objInc s k).spillEff = s.spillEff := rfl
@[simp] theorem objInc_watchEff (s : State) (k : Nat) : (objInc s k).watchEff = s.watchEff := rfl
@[simp] theorem objInc_rcEff (s : State) (k : Nat) : (objInc s k).rcEff = s.rcEff := rfl
@[simp] theorem objInc_laserMode (s : State) (k : Nat) : (objInc s k).laserMode = s.laserMode := rfl
@[simp] theorem objInc_unretired (s : State) (k : Nat) : (objInc s k).unretired = s.unretired := rfl
@[simp] theorem objInc_parts (s : State) (k : Nat) : (objInc s k).parts = s.parts := rfl
@[simp] theorem objInc_claims (s : State) (k : Nat) : (objInc s k).claims = s.claims := rfl
@[simp] theorem objInc_waitClaims (s : State) (k : Nat) : (objInc s k).waitClaims = s.waitClaims := rfl
@[simp] theorem objInc_spills (s : State) (k : Nat) : (objInc s k).spills = s.spills := rfl
@[simp] theorem objInc_queues (s : State) (k : Nat) : (objInc s k).queues = s.queues := rfl
@[simp] theorem objInc_sync (s : State) (k : Nat) : (objInc s k).sync = s.sync := rfl
@[simp] theorem objInc_waiters (s : State) (k : Nat) : (objInc s k).waiters = s.waiters := rfl
@[simp] theorem objInc_cores (s : State) (k : Nat) : (objInc s k).cores = s.cores := rfl
@[simp] theorem objInc_schedRR (s : State) (k : Nat) : (objInc s k).schedRR = s.schedRR := rfl
@[simp] theorem objInc_lasers (s : State) (k : Nat) : (objInc s k).lasers = s.lasers := rfl
@[simp] theorem objInc_rings (s : State) (k : Nat) : (objInc s k).rings = s.rings := rfl
@[simp] theorem objInc_rotors (s : State) (k : Nat) : (objInc s k).rotors = s.rotors := rfl
@[simp] theorem objInc_specMap (s : State) (k : Nat) : (objInc s k).specMap = s.specMap := rfl
@[simp] theorem objInc_demand (s : State) (k : Nat) : (objInc s k).demand = s.demand := rfl
@[simp] theorem objInc_reassign (s : State) (k : Nat) : (objInc s k).reassign = s.reassign := rfl
@[simp] theorem objInc_recovery (s : State) (k : Nat) : (objInc s k).recovery = s.recovery := rfl
@[simp] theorem objInc_sweptAt (s : State) (k : Nat) : (objInc s k).sweptAt = s.sweptAt := rfl
@[simp] theorem objInc_heard (s : State) (k : Nat) : (objInc s k).heard = s.heard := rfl
@[simp] theorem objInc_inPeer (s : State) (k : Nat) : (objInc s k).inPeer = s.inPeer := rfl
@[simp] theorem objInc_peerVer (s : State) (k : Nat) : (objInc s k).peerVer = s.peerVer := rfl
@[simp] theorem objInc_trainFails (s : State) (k : Nat) : (objInc s k).trainFails = s.trainFails := rfl
@[simp] theorem objInc_inGrant (s : State) (k : Nat) : (objInc s k).inGrant = s.inGrant := rfl
@[simp] theorem objInc_strayIn (s : State) (k : Nat) : (objInc s k).strayIn = s.strayIn := rfl
@[simp] theorem objInc_backDue (s : State) (k : Nat) : (objInc s k).backDue = s.backDue := rfl
@[simp] theorem objInc_needDemand (s : State) (k : Nat) : (objInc s k).needDemand = s.needDemand := rfl
@[simp] theorem objInc_tapped (s : State) (k : Nat) : (objInc s k).tapped = s.tapped := rfl
@[simp] theorem objInc_links (s : State) (k : Nat) : (objInc s k).links = s.links := rfl
@[simp] theorem objInc_skewHold (s : State) (k : Nat) : (objInc s k).skewHold = s.skewHold := rfl
@[simp] theorem objInc_armed (s : State) (k : Nat) : (objInc s k).armed = s.armed := rfl
@[simp] theorem objInc_routerW (s : State) (k : Nat) : (objInc s k).routerW = s.routerW := rfl
@[simp] theorem objInc_routerE (s : State) (k : Nat) : (objInc s k).routerE = s.routerE := rfl
@[simp] theorem objInc_windows (s : State) (k : Nat) : (objInc s k).windows = s.windows := rfl
@[simp] theorem objInc_outst (s : State) (k : Nat) : (objInc s k).outst = s.outst := rfl
@[simp] theorem objInc_nextTag (s : State) (k : Nat) : (objInc s k).nextTag = s.nextTag := rfl
@[simp] theorem objInc_tagHold (s : State) (k : Nat) : (objInc s k).tagHold = s.tagHold := rfl
@[simp] theorem objInc_evicted (s : State) (k : Nat) : (objInc s k).evicted = s.evicted := rfl
@[simp] theorem objInc_replay (s : State) (k : Nat) : (objInc s k).replay = s.replay := rfl
@[simp] theorem objInc_atoms (s : State) (k : Nat) : (objInc s k).atoms = s.atoms := rfl
@[simp] theorem objInc_wires (s : State) (k : Nat) : (objInc s k).wires = s.wires := rfl
@[simp] theorem objInc_admits (s : State) (k : Nat) : (objInc s k).admits = s.admits := rfl
@[simp] theorem objInc_rcache (s : State) (k : Nat) : (objInc s k).rcache = s.rcache := rfl
@[simp] theorem objInc_colls (s : State) (k : Nat) : (objInc s k).colls = s.colls := rfl
@[simp] theorem objInc_slots (s : State) (k : Nat) : (objInc s k).slots = s.slots := rfl
@[simp] theorem objInc_greys (s : State) (k : Nat) : (objInc s k).greys = s.greys := rfl
@[simp] theorem objInc_pendColls (s : State) (k : Nat) : (objInc s k).pendColls = s.pendColls := rfl
@[simp] theorem objInc_ended (s : State) (k : Nat) : (objInc s k).ended = s.ended := rfl
@[simp] theorem objInc_collEcho (s : State) (k : Nat) : (objInc s k).collEcho = s.collEcho := rfl
@[simp] theorem objInc_host (s : State) (k : Nat) : (objInc s k).host = s.host := rfl
@[simp] theorem objInc_mgmt (s : State) (k : Nat) : (objInc s k).mgmt = s.mgmt := rfl
@[simp] theorem objInc_power (s : State) (k : Nat) : (objInc s k).power = s.power := rfl
@[simp] theorem objInc_seqs (s : State) (k : Nat) : (objInc s k).seqs = s.seqs := rfl
@[simp] theorem objInc_sec (s : State) (k : Nat) : (objInc s k).sec = s.sec := rfl
@[simp] theorem objInc_iface (s : State) (k : Nat) : (objInc s k).iface = s.iface := rfl
@[simp] theorem objInc_obs (s : State) (k : Nat) : (objInc s k).obs = s.obs := rfl

@[simp] theorem objMax_pending (s : State) (k v : Nat) : (objMax s k v).pending = s.pending := rfl
@[simp] theorem objMax_now (s : State) (k v : Nat) : (objMax s k v).now = s.now := rfl
@[simp] theorem objMax_coldAt (s : State) (k v : Nat) : (objMax s k v).coldAt = s.coldAt := rfl
@[simp] theorem objMax_lossNs (s : State) (k v : Nat) : (objMax s k v).lossNs = s.lossNs := rfl
@[simp] theorem objMax_free (s : State) (k v : Nat) : (objMax s k v).free = s.free := rfl
@[simp] theorem objMax_out (s : State) (k v : Nat) : (objMax s k v).out = s.out := rfl
@[simp] theorem objMax_flash (s : State) (k v : Nat) : (objMax s k v).flash = s.flash := rfl
@[simp] theorem objMax_persist (s : State) (k v : Nat) : (objMax s k v).persist = s.persist := rfl
@[simp] theorem objMax_doms (s : State) (k v : Nat) : (objMax s k v).doms = s.doms := rfl
@[simp] theorem objMax_domsFlash (s : State) (k v : Nat) : (objMax s k v).domsFlash = s.domsFlash := rfl
@[simp] theorem objMax_bridge (s : State) (k v : Nat) : (objMax s k v).bridge = s.bridge := rfl
@[simp] theorem objMax_arrays (s : State) (k v : Nat) : (objMax s k v).arrays = s.arrays := rfl
@[simp] theorem objMax_vecs (s : State) (k v : Nat) : (objMax s k v).vecs = s.vecs := rfl
@[simp] theorem objMax_esc (s : State) (k v : Nat) : (objMax s k v).esc = s.esc := rfl
@[simp] theorem objMax_layers (s : State) (k v : Nat) : (objMax s k v).layers = s.layers := rfl
@[simp] theorem objMax_engines (s : State) (k v : Nat) : (objMax s k v).engines = s.engines := rfl
@[simp] theorem objMax_moverRR (s : State) (k v : Nat) : (objMax s k v).moverRR = s.moverRR := rfl
@[simp] theorem objMax_tile (s : State) (k v : Nat) : (objMax s k v).tile = s.tile := rfl
@[simp] theorem objMax_tilePoison (s : State) (k v : Nat) : (objMax s k v).tilePoison = s.tilePoison := rfl
@[simp] theorem objMax_remaps (s : State) (k v : Nat) : (objMax s k v).remaps = s.remaps := rfl
@[simp] theorem objMax_remapsFlash (s : State) (k v : Nat) : (objMax s k v).remapsFlash = s.remapsFlash := rfl
@[simp] theorem objMax_repairsFlash (s : State) (k v : Nat) : (objMax s k v).repairsFlash = s.repairsFlash := rfl
@[simp] theorem objMax_corrRuns (s : State) (k v : Nat) : (objMax s k v).corrRuns = s.corrRuns := rfl
@[simp] theorem objMax_scrubLine (s : State) (k v : Nat) : (objMax s k v).scrubLine = s.scrubLine := rfl
@[simp] theorem objMax_scrubWrap (s : State) (k v : Nat) : (objMax s k v).scrubWrap = s.scrubWrap := rfl
@[simp] theorem objMax_spareOut (s : State) (k v : Nat) : (objMax s k v).spareOut = s.spareOut := rfl
@[simp] theorem objMax_lpddr (s : State) (k v : Nat) : (objMax s k v).lpddr = s.lpddr := rfl
@[simp] theorem objMax_lpddrPoison (s : State) (k v : Nat) : (objMax s k v).lpddrPoison = s.lpddrPoison := rfl
@[simp] theorem objMax_lpddrBad (s : State) (k v : Nat) : (objMax s k v).lpddrBad = s.lpddrBad := rfl
@[simp] theorem objMax_chans (s : State) (k v : Nat) : (objMax s k v).chans = s.chans := rfl
@[simp] theorem objMax_pkgs (s : State) (k v : Nat) : (objMax s k v).pkgs = s.pkgs := rfl
@[simp] theorem objMax_repairs (s : State) (k v : Nat) : (objMax s k v).repairs = s.repairs := rfl
@[simp] theorem objMax_keyEff (s : State) (k v : Nat) : (objMax s k v).keyEff = s.keyEff := rfl
@[simp] theorem objMax_spillEff (s : State) (k v : Nat) : (objMax s k v).spillEff = s.spillEff := rfl
@[simp] theorem objMax_watchEff (s : State) (k v : Nat) : (objMax s k v).watchEff = s.watchEff := rfl
@[simp] theorem objMax_rcEff (s : State) (k v : Nat) : (objMax s k v).rcEff = s.rcEff := rfl
@[simp] theorem objMax_laserMode (s : State) (k v : Nat) : (objMax s k v).laserMode = s.laserMode := rfl
@[simp] theorem objMax_unretired (s : State) (k v : Nat) : (objMax s k v).unretired = s.unretired := rfl
@[simp] theorem objMax_parts (s : State) (k v : Nat) : (objMax s k v).parts = s.parts := rfl
@[simp] theorem objMax_claims (s : State) (k v : Nat) : (objMax s k v).claims = s.claims := rfl
@[simp] theorem objMax_waitClaims (s : State) (k v : Nat) : (objMax s k v).waitClaims = s.waitClaims := rfl
@[simp] theorem objMax_spills (s : State) (k v : Nat) : (objMax s k v).spills = s.spills := rfl
@[simp] theorem objMax_queues (s : State) (k v : Nat) : (objMax s k v).queues = s.queues := rfl
@[simp] theorem objMax_sync (s : State) (k v : Nat) : (objMax s k v).sync = s.sync := rfl
@[simp] theorem objMax_waiters (s : State) (k v : Nat) : (objMax s k v).waiters = s.waiters := rfl
@[simp] theorem objMax_cores (s : State) (k v : Nat) : (objMax s k v).cores = s.cores := rfl
@[simp] theorem objMax_schedRR (s : State) (k v : Nat) : (objMax s k v).schedRR = s.schedRR := rfl
@[simp] theorem objMax_lasers (s : State) (k v : Nat) : (objMax s k v).lasers = s.lasers := rfl
@[simp] theorem objMax_rings (s : State) (k v : Nat) : (objMax s k v).rings = s.rings := rfl
@[simp] theorem objMax_rotors (s : State) (k v : Nat) : (objMax s k v).rotors = s.rotors := rfl
@[simp] theorem objMax_specMap (s : State) (k v : Nat) : (objMax s k v).specMap = s.specMap := rfl
@[simp] theorem objMax_demand (s : State) (k v : Nat) : (objMax s k v).demand = s.demand := rfl
@[simp] theorem objMax_reassign (s : State) (k v : Nat) : (objMax s k v).reassign = s.reassign := rfl
@[simp] theorem objMax_recovery (s : State) (k v : Nat) : (objMax s k v).recovery = s.recovery := rfl
@[simp] theorem objMax_sweptAt (s : State) (k v : Nat) : (objMax s k v).sweptAt = s.sweptAt := rfl
@[simp] theorem objMax_heard (s : State) (k v : Nat) : (objMax s k v).heard = s.heard := rfl
@[simp] theorem objMax_inPeer (s : State) (k v : Nat) : (objMax s k v).inPeer = s.inPeer := rfl
@[simp] theorem objMax_peerVer (s : State) (k v : Nat) : (objMax s k v).peerVer = s.peerVer := rfl
@[simp] theorem objMax_trainFails (s : State) (k v : Nat) : (objMax s k v).trainFails = s.trainFails := rfl
@[simp] theorem objMax_inGrant (s : State) (k v : Nat) : (objMax s k v).inGrant = s.inGrant := rfl
@[simp] theorem objMax_strayIn (s : State) (k v : Nat) : (objMax s k v).strayIn = s.strayIn := rfl
@[simp] theorem objMax_backDue (s : State) (k v : Nat) : (objMax s k v).backDue = s.backDue := rfl
@[simp] theorem objMax_needDemand (s : State) (k v : Nat) : (objMax s k v).needDemand = s.needDemand := rfl
@[simp] theorem objMax_tapped (s : State) (k v : Nat) : (objMax s k v).tapped = s.tapped := rfl
@[simp] theorem objMax_links (s : State) (k v : Nat) : (objMax s k v).links = s.links := rfl
@[simp] theorem objMax_skewHold (s : State) (k v : Nat) : (objMax s k v).skewHold = s.skewHold := rfl
@[simp] theorem objMax_armed (s : State) (k v : Nat) : (objMax s k v).armed = s.armed := rfl
@[simp] theorem objMax_routerW (s : State) (k v : Nat) : (objMax s k v).routerW = s.routerW := rfl
@[simp] theorem objMax_routerE (s : State) (k v : Nat) : (objMax s k v).routerE = s.routerE := rfl
@[simp] theorem objMax_windows (s : State) (k v : Nat) : (objMax s k v).windows = s.windows := rfl
@[simp] theorem objMax_outst (s : State) (k v : Nat) : (objMax s k v).outst = s.outst := rfl
@[simp] theorem objMax_nextTag (s : State) (k v : Nat) : (objMax s k v).nextTag = s.nextTag := rfl
@[simp] theorem objMax_tagHold (s : State) (k v : Nat) : (objMax s k v).tagHold = s.tagHold := rfl
@[simp] theorem objMax_evicted (s : State) (k v : Nat) : (objMax s k v).evicted = s.evicted := rfl
@[simp] theorem objMax_replay (s : State) (k v : Nat) : (objMax s k v).replay = s.replay := rfl
@[simp] theorem objMax_atoms (s : State) (k v : Nat) : (objMax s k v).atoms = s.atoms := rfl
@[simp] theorem objMax_wires (s : State) (k v : Nat) : (objMax s k v).wires = s.wires := rfl
@[simp] theorem objMax_admits (s : State) (k v : Nat) : (objMax s k v).admits = s.admits := rfl
@[simp] theorem objMax_rcache (s : State) (k v : Nat) : (objMax s k v).rcache = s.rcache := rfl
@[simp] theorem objMax_colls (s : State) (k v : Nat) : (objMax s k v).colls = s.colls := rfl
@[simp] theorem objMax_slots (s : State) (k v : Nat) : (objMax s k v).slots = s.slots := rfl
@[simp] theorem objMax_greys (s : State) (k v : Nat) : (objMax s k v).greys = s.greys := rfl
@[simp] theorem objMax_pendColls (s : State) (k v : Nat) : (objMax s k v).pendColls = s.pendColls := rfl
@[simp] theorem objMax_ended (s : State) (k v : Nat) : (objMax s k v).ended = s.ended := rfl
@[simp] theorem objMax_collEcho (s : State) (k v : Nat) : (objMax s k v).collEcho = s.collEcho := rfl
@[simp] theorem objMax_host (s : State) (k v : Nat) : (objMax s k v).host = s.host := rfl
@[simp] theorem objMax_mgmt (s : State) (k v : Nat) : (objMax s k v).mgmt = s.mgmt := rfl
@[simp] theorem objMax_power (s : State) (k v : Nat) : (objMax s k v).power = s.power := rfl
@[simp] theorem objMax_seqs (s : State) (k v : Nat) : (objMax s k v).seqs = s.seqs := rfl
@[simp] theorem objMax_sec (s : State) (k v : Nat) : (objMax s k v).sec = s.sec := rfl
@[simp] theorem objMax_iface (s : State) (k v : Nat) : (objMax s k v).iface = s.iface := rfl
@[simp] theorem objMax_obs (s : State) (k v : Nat) : (objMax s k v).obs = s.obs := rfl

@[simp] theorem objBit_pending (s : State) (k i : Nat) (b : Bool) : (objBit s k i b).pending = s.pending := rfl
@[simp] theorem objBit_now (s : State) (k i : Nat) (b : Bool) : (objBit s k i b).now = s.now := rfl
@[simp] theorem objBit_coldAt (s : State) (k i : Nat) (b : Bool) : (objBit s k i b).coldAt = s.coldAt := rfl
@[simp] theorem objBit_lossNs (s : State) (k i : Nat) (b : Bool) : (objBit s k i b).lossNs = s.lossNs := rfl
@[simp] theorem objBit_free (s : State) (k i : Nat) (b : Bool) : (objBit s k i b).free = s.free := rfl
@[simp] theorem objBit_out (s : State) (k i : Nat) (b : Bool) : (objBit s k i b).out = s.out := rfl
@[simp] theorem objBit_flash (s : State) (k i : Nat) (b : Bool) : (objBit s k i b).flash = s.flash := rfl
@[simp] theorem objBit_persist (s : State) (k i : Nat) (b : Bool) : (objBit s k i b).persist = s.persist := rfl
@[simp] theorem objBit_doms (s : State) (k i : Nat) (b : Bool) : (objBit s k i b).doms = s.doms := rfl
@[simp] theorem objBit_domsFlash (s : State) (k i : Nat) (b : Bool) : (objBit s k i b).domsFlash = s.domsFlash := rfl
@[simp] theorem objBit_bridge (s : State) (k i : Nat) (b : Bool) : (objBit s k i b).bridge = s.bridge := rfl
@[simp] theorem objBit_arrays (s : State) (k i : Nat) (b : Bool) : (objBit s k i b).arrays = s.arrays := rfl
@[simp] theorem objBit_vecs (s : State) (k i : Nat) (b : Bool) : (objBit s k i b).vecs = s.vecs := rfl
@[simp] theorem objBit_esc (s : State) (k i : Nat) (b : Bool) : (objBit s k i b).esc = s.esc := rfl
@[simp] theorem objBit_layers (s : State) (k i : Nat) (b : Bool) : (objBit s k i b).layers = s.layers := rfl
@[simp] theorem objBit_engines (s : State) (k i : Nat) (b : Bool) : (objBit s k i b).engines = s.engines := rfl
@[simp] theorem objBit_moverRR (s : State) (k i : Nat) (b : Bool) : (objBit s k i b).moverRR = s.moverRR := rfl
@[simp] theorem objBit_tile (s : State) (k i : Nat) (b : Bool) : (objBit s k i b).tile = s.tile := rfl
@[simp] theorem objBit_tilePoison (s : State) (k i : Nat) (b : Bool) : (objBit s k i b).tilePoison = s.tilePoison := rfl
@[simp] theorem objBit_remaps (s : State) (k i : Nat) (b : Bool) : (objBit s k i b).remaps = s.remaps := rfl
@[simp] theorem objBit_remapsFlash (s : State) (k i : Nat) (b : Bool) : (objBit s k i b).remapsFlash = s.remapsFlash := rfl
@[simp] theorem objBit_repairsFlash (s : State) (k i : Nat) (b : Bool) : (objBit s k i b).repairsFlash = s.repairsFlash := rfl
@[simp] theorem objBit_corrRuns (s : State) (k i : Nat) (b : Bool) : (objBit s k i b).corrRuns = s.corrRuns := rfl
@[simp] theorem objBit_scrubLine (s : State) (k i : Nat) (b : Bool) : (objBit s k i b).scrubLine = s.scrubLine := rfl
@[simp] theorem objBit_scrubWrap (s : State) (k i : Nat) (b : Bool) : (objBit s k i b).scrubWrap = s.scrubWrap := rfl
@[simp] theorem objBit_spareOut (s : State) (k i : Nat) (b : Bool) : (objBit s k i b).spareOut = s.spareOut := rfl
@[simp] theorem objBit_lpddr (s : State) (k i : Nat) (b : Bool) : (objBit s k i b).lpddr = s.lpddr := rfl
@[simp] theorem objBit_lpddrPoison (s : State) (k i : Nat) (b : Bool) : (objBit s k i b).lpddrPoison = s.lpddrPoison := rfl
@[simp] theorem objBit_lpddrBad (s : State) (k i : Nat) (b : Bool) : (objBit s k i b).lpddrBad = s.lpddrBad := rfl
@[simp] theorem objBit_chans (s : State) (k i : Nat) (b : Bool) : (objBit s k i b).chans = s.chans := rfl
@[simp] theorem objBit_pkgs (s : State) (k i : Nat) (b : Bool) : (objBit s k i b).pkgs = s.pkgs := rfl
@[simp] theorem objBit_repairs (s : State) (k i : Nat) (b : Bool) : (objBit s k i b).repairs = s.repairs := rfl
@[simp] theorem objBit_keyEff (s : State) (k i : Nat) (b : Bool) : (objBit s k i b).keyEff = s.keyEff := rfl
@[simp] theorem objBit_spillEff (s : State) (k i : Nat) (b : Bool) : (objBit s k i b).spillEff = s.spillEff := rfl
@[simp] theorem objBit_watchEff (s : State) (k i : Nat) (b : Bool) : (objBit s k i b).watchEff = s.watchEff := rfl
@[simp] theorem objBit_rcEff (s : State) (k i : Nat) (b : Bool) : (objBit s k i b).rcEff = s.rcEff := rfl
@[simp] theorem objBit_laserMode (s : State) (k i : Nat) (b : Bool) : (objBit s k i b).laserMode = s.laserMode := rfl
@[simp] theorem objBit_unretired (s : State) (k i : Nat) (b : Bool) : (objBit s k i b).unretired = s.unretired := rfl
@[simp] theorem objBit_parts (s : State) (k i : Nat) (b : Bool) : (objBit s k i b).parts = s.parts := rfl
@[simp] theorem objBit_claims (s : State) (k i : Nat) (b : Bool) : (objBit s k i b).claims = s.claims := rfl
@[simp] theorem objBit_waitClaims (s : State) (k i : Nat) (b : Bool) : (objBit s k i b).waitClaims = s.waitClaims := rfl
@[simp] theorem objBit_spills (s : State) (k i : Nat) (b : Bool) : (objBit s k i b).spills = s.spills := rfl
@[simp] theorem objBit_queues (s : State) (k i : Nat) (b : Bool) : (objBit s k i b).queues = s.queues := rfl
@[simp] theorem objBit_sync (s : State) (k i : Nat) (b : Bool) : (objBit s k i b).sync = s.sync := rfl
@[simp] theorem objBit_waiters (s : State) (k i : Nat) (b : Bool) : (objBit s k i b).waiters = s.waiters := rfl
@[simp] theorem objBit_cores (s : State) (k i : Nat) (b : Bool) : (objBit s k i b).cores = s.cores := rfl
@[simp] theorem objBit_schedRR (s : State) (k i : Nat) (b : Bool) : (objBit s k i b).schedRR = s.schedRR := rfl
@[simp] theorem objBit_lasers (s : State) (k i : Nat) (b : Bool) : (objBit s k i b).lasers = s.lasers := rfl
@[simp] theorem objBit_rings (s : State) (k i : Nat) (b : Bool) : (objBit s k i b).rings = s.rings := rfl
@[simp] theorem objBit_rotors (s : State) (k i : Nat) (b : Bool) : (objBit s k i b).rotors = s.rotors := rfl
@[simp] theorem objBit_specMap (s : State) (k i : Nat) (b : Bool) : (objBit s k i b).specMap = s.specMap := rfl
@[simp] theorem objBit_demand (s : State) (k i : Nat) (b : Bool) : (objBit s k i b).demand = s.demand := rfl
@[simp] theorem objBit_reassign (s : State) (k i : Nat) (b : Bool) : (objBit s k i b).reassign = s.reassign := rfl
@[simp] theorem objBit_recovery (s : State) (k i : Nat) (b : Bool) : (objBit s k i b).recovery = s.recovery := rfl
@[simp] theorem objBit_sweptAt (s : State) (k i : Nat) (b : Bool) : (objBit s k i b).sweptAt = s.sweptAt := rfl
@[simp] theorem objBit_heard (s : State) (k i : Nat) (b : Bool) : (objBit s k i b).heard = s.heard := rfl
@[simp] theorem objBit_inPeer (s : State) (k i : Nat) (b : Bool) : (objBit s k i b).inPeer = s.inPeer := rfl
@[simp] theorem objBit_peerVer (s : State) (k i : Nat) (b : Bool) : (objBit s k i b).peerVer = s.peerVer := rfl
@[simp] theorem objBit_trainFails (s : State) (k i : Nat) (b : Bool) : (objBit s k i b).trainFails = s.trainFails := rfl
@[simp] theorem objBit_inGrant (s : State) (k i : Nat) (b : Bool) : (objBit s k i b).inGrant = s.inGrant := rfl
@[simp] theorem objBit_strayIn (s : State) (k i : Nat) (b : Bool) : (objBit s k i b).strayIn = s.strayIn := rfl
@[simp] theorem objBit_backDue (s : State) (k i : Nat) (b : Bool) : (objBit s k i b).backDue = s.backDue := rfl
@[simp] theorem objBit_needDemand (s : State) (k i : Nat) (b : Bool) : (objBit s k i b).needDemand = s.needDemand := rfl
@[simp] theorem objBit_tapped (s : State) (k i : Nat) (b : Bool) : (objBit s k i b).tapped = s.tapped := rfl
@[simp] theorem objBit_links (s : State) (k i : Nat) (b : Bool) : (objBit s k i b).links = s.links := rfl
@[simp] theorem objBit_skewHold (s : State) (k i : Nat) (b : Bool) : (objBit s k i b).skewHold = s.skewHold := rfl
@[simp] theorem objBit_armed (s : State) (k i : Nat) (b : Bool) : (objBit s k i b).armed = s.armed := rfl
@[simp] theorem objBit_routerW (s : State) (k i : Nat) (b : Bool) : (objBit s k i b).routerW = s.routerW := rfl
@[simp] theorem objBit_routerE (s : State) (k i : Nat) (b : Bool) : (objBit s k i b).routerE = s.routerE := rfl
@[simp] theorem objBit_windows (s : State) (k i : Nat) (b : Bool) : (objBit s k i b).windows = s.windows := rfl
@[simp] theorem objBit_outst (s : State) (k i : Nat) (b : Bool) : (objBit s k i b).outst = s.outst := rfl
@[simp] theorem objBit_nextTag (s : State) (k i : Nat) (b : Bool) : (objBit s k i b).nextTag = s.nextTag := rfl
@[simp] theorem objBit_tagHold (s : State) (k i : Nat) (b : Bool) : (objBit s k i b).tagHold = s.tagHold := rfl
@[simp] theorem objBit_evicted (s : State) (k i : Nat) (b : Bool) : (objBit s k i b).evicted = s.evicted := rfl
@[simp] theorem objBit_replay (s : State) (k i : Nat) (b : Bool) : (objBit s k i b).replay = s.replay := rfl
@[simp] theorem objBit_atoms (s : State) (k i : Nat) (b : Bool) : (objBit s k i b).atoms = s.atoms := rfl
@[simp] theorem objBit_wires (s : State) (k i : Nat) (b : Bool) : (objBit s k i b).wires = s.wires := rfl
@[simp] theorem objBit_admits (s : State) (k i : Nat) (b : Bool) : (objBit s k i b).admits = s.admits := rfl
@[simp] theorem objBit_rcache (s : State) (k i : Nat) (b : Bool) : (objBit s k i b).rcache = s.rcache := rfl
@[simp] theorem objBit_colls (s : State) (k i : Nat) (b : Bool) : (objBit s k i b).colls = s.colls := rfl
@[simp] theorem objBit_slots (s : State) (k i : Nat) (b : Bool) : (objBit s k i b).slots = s.slots := rfl
@[simp] theorem objBit_greys (s : State) (k i : Nat) (b : Bool) : (objBit s k i b).greys = s.greys := rfl
@[simp] theorem objBit_pendColls (s : State) (k i : Nat) (b : Bool) : (objBit s k i b).pendColls = s.pendColls := rfl
@[simp] theorem objBit_ended (s : State) (k i : Nat) (b : Bool) : (objBit s k i b).ended = s.ended := rfl
@[simp] theorem objBit_collEcho (s : State) (k i : Nat) (b : Bool) : (objBit s k i b).collEcho = s.collEcho := rfl
@[simp] theorem objBit_host (s : State) (k i : Nat) (b : Bool) : (objBit s k i b).host = s.host := rfl
@[simp] theorem objBit_mgmt (s : State) (k i : Nat) (b : Bool) : (objBit s k i b).mgmt = s.mgmt := rfl
@[simp] theorem objBit_power (s : State) (k i : Nat) (b : Bool) : (objBit s k i b).power = s.power := rfl
@[simp] theorem objBit_seqs (s : State) (k i : Nat) (b : Bool) : (objBit s k i b).seqs = s.seqs := rfl
@[simp] theorem objBit_sec (s : State) (k i : Nat) (b : Bool) : (objBit s k i b).sec = s.sec := rfl
@[simp] theorem objBit_iface (s : State) (k i : Nat) (b : Bool) : (objBit s k i b).iface = s.iface := rfl
@[simp] theorem objBit_obs (s : State) (k i : Nat) (b : Bool) : (objBit s k i b).obs = s.obs := rfl

@[simp] theorem domPut_pending (s : State) (k : Nat) (b : Bytes) : (domPut s k b).pending = s.pending := rfl
@[simp] theorem domPut_now (s : State) (k : Nat) (b : Bytes) : (domPut s k b).now = s.now := rfl
@[simp] theorem domPut_coldAt (s : State) (k : Nat) (b : Bytes) : (domPut s k b).coldAt = s.coldAt := rfl
@[simp] theorem domPut_lossNs (s : State) (k : Nat) (b : Bytes) : (domPut s k b).lossNs = s.lossNs := rfl
@[simp] theorem domPut_free (s : State) (k : Nat) (b : Bytes) : (domPut s k b).free = s.free := rfl
@[simp] theorem domPut_out (s : State) (k : Nat) (b : Bytes) : (domPut s k b).out = s.out := rfl
@[simp] theorem domPut_dic (s : State) (k : Nat) (b : Bytes) : (domPut s k b).dic = s.dic := rfl
@[simp] theorem domPut_flash (s : State) (k : Nat) (b : Bytes) : (domPut s k b).flash = s.flash := rfl
@[simp] theorem domPut_persist (s : State) (k : Nat) (b : Bytes) : (domPut s k b).persist = s.persist := rfl
@[simp] theorem domPut_domsFlash (s : State) (k : Nat) (b : Bytes) : (domPut s k b).domsFlash = s.domsFlash := rfl
@[simp] theorem domPut_bridge (s : State) (k : Nat) (b : Bytes) : (domPut s k b).bridge = s.bridge := rfl
@[simp] theorem domPut_arrays (s : State) (k : Nat) (b : Bytes) : (domPut s k b).arrays = s.arrays := rfl
@[simp] theorem domPut_vecs (s : State) (k : Nat) (b : Bytes) : (domPut s k b).vecs = s.vecs := rfl
@[simp] theorem domPut_esc (s : State) (k : Nat) (b : Bytes) : (domPut s k b).esc = s.esc := rfl
@[simp] theorem domPut_layers (s : State) (k : Nat) (b : Bytes) : (domPut s k b).layers = s.layers := rfl
@[simp] theorem domPut_engines (s : State) (k : Nat) (b : Bytes) : (domPut s k b).engines = s.engines := rfl
@[simp] theorem domPut_moverRR (s : State) (k : Nat) (b : Bytes) : (domPut s k b).moverRR = s.moverRR := rfl
@[simp] theorem domPut_tile (s : State) (k : Nat) (b : Bytes) : (domPut s k b).tile = s.tile := rfl
@[simp] theorem domPut_tilePoison (s : State) (k : Nat) (b : Bytes) : (domPut s k b).tilePoison = s.tilePoison := rfl
@[simp] theorem domPut_remaps (s : State) (k : Nat) (b : Bytes) : (domPut s k b).remaps = s.remaps := rfl
@[simp] theorem domPut_remapsFlash (s : State) (k : Nat) (b : Bytes) : (domPut s k b).remapsFlash = s.remapsFlash := rfl
@[simp] theorem domPut_repairsFlash (s : State) (k : Nat) (b : Bytes) : (domPut s k b).repairsFlash = s.repairsFlash := rfl
@[simp] theorem domPut_corrRuns (s : State) (k : Nat) (b : Bytes) : (domPut s k b).corrRuns = s.corrRuns := rfl
@[simp] theorem domPut_scrubLine (s : State) (k : Nat) (b : Bytes) : (domPut s k b).scrubLine = s.scrubLine := rfl
@[simp] theorem domPut_scrubWrap (s : State) (k : Nat) (b : Bytes) : (domPut s k b).scrubWrap = s.scrubWrap := rfl
@[simp] theorem domPut_spareOut (s : State) (k : Nat) (b : Bytes) : (domPut s k b).spareOut = s.spareOut := rfl
@[simp] theorem domPut_lpddr (s : State) (k : Nat) (b : Bytes) : (domPut s k b).lpddr = s.lpddr := rfl
@[simp] theorem domPut_lpddrPoison (s : State) (k : Nat) (b : Bytes) : (domPut s k b).lpddrPoison = s.lpddrPoison := rfl
@[simp] theorem domPut_lpddrBad (s : State) (k : Nat) (b : Bytes) : (domPut s k b).lpddrBad = s.lpddrBad := rfl
@[simp] theorem domPut_chans (s : State) (k : Nat) (b : Bytes) : (domPut s k b).chans = s.chans := rfl
@[simp] theorem domPut_pkgs (s : State) (k : Nat) (b : Bytes) : (domPut s k b).pkgs = s.pkgs := rfl
@[simp] theorem domPut_repairs (s : State) (k : Nat) (b : Bytes) : (domPut s k b).repairs = s.repairs := rfl
@[simp] theorem domPut_keyEff (s : State) (k : Nat) (b : Bytes) : (domPut s k b).keyEff = s.keyEff := rfl
@[simp] theorem domPut_spillEff (s : State) (k : Nat) (b : Bytes) : (domPut s k b).spillEff = s.spillEff := rfl
@[simp] theorem domPut_watchEff (s : State) (k : Nat) (b : Bytes) : (domPut s k b).watchEff = s.watchEff := rfl
@[simp] theorem domPut_rcEff (s : State) (k : Nat) (b : Bytes) : (domPut s k b).rcEff = s.rcEff := rfl
@[simp] theorem domPut_laserMode (s : State) (k : Nat) (b : Bytes) : (domPut s k b).laserMode = s.laserMode := rfl
@[simp] theorem domPut_unretired (s : State) (k : Nat) (b : Bytes) : (domPut s k b).unretired = s.unretired := rfl
@[simp] theorem domPut_parts (s : State) (k : Nat) (b : Bytes) : (domPut s k b).parts = s.parts := rfl
@[simp] theorem domPut_claims (s : State) (k : Nat) (b : Bytes) : (domPut s k b).claims = s.claims := rfl
@[simp] theorem domPut_waitClaims (s : State) (k : Nat) (b : Bytes) : (domPut s k b).waitClaims = s.waitClaims := rfl
@[simp] theorem domPut_spills (s : State) (k : Nat) (b : Bytes) : (domPut s k b).spills = s.spills := rfl
@[simp] theorem domPut_queues (s : State) (k : Nat) (b : Bytes) : (domPut s k b).queues = s.queues := rfl
@[simp] theorem domPut_sync (s : State) (k : Nat) (b : Bytes) : (domPut s k b).sync = s.sync := rfl
@[simp] theorem domPut_waiters (s : State) (k : Nat) (b : Bytes) : (domPut s k b).waiters = s.waiters := rfl
@[simp] theorem domPut_cores (s : State) (k : Nat) (b : Bytes) : (domPut s k b).cores = s.cores := rfl
@[simp] theorem domPut_schedRR (s : State) (k : Nat) (b : Bytes) : (domPut s k b).schedRR = s.schedRR := rfl
@[simp] theorem domPut_lasers (s : State) (k : Nat) (b : Bytes) : (domPut s k b).lasers = s.lasers := rfl
@[simp] theorem domPut_rings (s : State) (k : Nat) (b : Bytes) : (domPut s k b).rings = s.rings := rfl
@[simp] theorem domPut_rotors (s : State) (k : Nat) (b : Bytes) : (domPut s k b).rotors = s.rotors := rfl
@[simp] theorem domPut_specMap (s : State) (k : Nat) (b : Bytes) : (domPut s k b).specMap = s.specMap := rfl
@[simp] theorem domPut_demand (s : State) (k : Nat) (b : Bytes) : (domPut s k b).demand = s.demand := rfl
@[simp] theorem domPut_reassign (s : State) (k : Nat) (b : Bytes) : (domPut s k b).reassign = s.reassign := rfl
@[simp] theorem domPut_recovery (s : State) (k : Nat) (b : Bytes) : (domPut s k b).recovery = s.recovery := rfl
@[simp] theorem domPut_sweptAt (s : State) (k : Nat) (b : Bytes) : (domPut s k b).sweptAt = s.sweptAt := rfl
@[simp] theorem domPut_heard (s : State) (k : Nat) (b : Bytes) : (domPut s k b).heard = s.heard := rfl
@[simp] theorem domPut_inPeer (s : State) (k : Nat) (b : Bytes) : (domPut s k b).inPeer = s.inPeer := rfl
@[simp] theorem domPut_peerVer (s : State) (k : Nat) (b : Bytes) : (domPut s k b).peerVer = s.peerVer := rfl
@[simp] theorem domPut_trainFails (s : State) (k : Nat) (b : Bytes) : (domPut s k b).trainFails = s.trainFails := rfl
@[simp] theorem domPut_inGrant (s : State) (k : Nat) (b : Bytes) : (domPut s k b).inGrant = s.inGrant := rfl
@[simp] theorem domPut_strayIn (s : State) (k : Nat) (b : Bytes) : (domPut s k b).strayIn = s.strayIn := rfl
@[simp] theorem domPut_backDue (s : State) (k : Nat) (b : Bytes) : (domPut s k b).backDue = s.backDue := rfl
@[simp] theorem domPut_needDemand (s : State) (k : Nat) (b : Bytes) : (domPut s k b).needDemand = s.needDemand := rfl
@[simp] theorem domPut_tapped (s : State) (k : Nat) (b : Bytes) : (domPut s k b).tapped = s.tapped := rfl
@[simp] theorem domPut_links (s : State) (k : Nat) (b : Bytes) : (domPut s k b).links = s.links := rfl
@[simp] theorem domPut_skewHold (s : State) (k : Nat) (b : Bytes) : (domPut s k b).skewHold = s.skewHold := rfl
@[simp] theorem domPut_armed (s : State) (k : Nat) (b : Bytes) : (domPut s k b).armed = s.armed := rfl
@[simp] theorem domPut_routerW (s : State) (k : Nat) (b : Bytes) : (domPut s k b).routerW = s.routerW := rfl
@[simp] theorem domPut_routerE (s : State) (k : Nat) (b : Bytes) : (domPut s k b).routerE = s.routerE := rfl
@[simp] theorem domPut_windows (s : State) (k : Nat) (b : Bytes) : (domPut s k b).windows = s.windows := rfl
@[simp] theorem domPut_outst (s : State) (k : Nat) (b : Bytes) : (domPut s k b).outst = s.outst := rfl
@[simp] theorem domPut_nextTag (s : State) (k : Nat) (b : Bytes) : (domPut s k b).nextTag = s.nextTag := rfl
@[simp] theorem domPut_tagHold (s : State) (k : Nat) (b : Bytes) : (domPut s k b).tagHold = s.tagHold := rfl
@[simp] theorem domPut_evicted (s : State) (k : Nat) (b : Bytes) : (domPut s k b).evicted = s.evicted := rfl
@[simp] theorem domPut_replay (s : State) (k : Nat) (b : Bytes) : (domPut s k b).replay = s.replay := rfl
@[simp] theorem domPut_atoms (s : State) (k : Nat) (b : Bytes) : (domPut s k b).atoms = s.atoms := rfl
@[simp] theorem domPut_wires (s : State) (k : Nat) (b : Bytes) : (domPut s k b).wires = s.wires := rfl
@[simp] theorem domPut_admits (s : State) (k : Nat) (b : Bytes) : (domPut s k b).admits = s.admits := rfl
@[simp] theorem domPut_rcache (s : State) (k : Nat) (b : Bytes) : (domPut s k b).rcache = s.rcache := rfl
@[simp] theorem domPut_colls (s : State) (k : Nat) (b : Bytes) : (domPut s k b).colls = s.colls := rfl
@[simp] theorem domPut_slots (s : State) (k : Nat) (b : Bytes) : (domPut s k b).slots = s.slots := rfl
@[simp] theorem domPut_greys (s : State) (k : Nat) (b : Bytes) : (domPut s k b).greys = s.greys := rfl
@[simp] theorem domPut_pendColls (s : State) (k : Nat) (b : Bytes) : (domPut s k b).pendColls = s.pendColls := rfl
@[simp] theorem domPut_ended (s : State) (k : Nat) (b : Bytes) : (domPut s k b).ended = s.ended := rfl
@[simp] theorem domPut_collEcho (s : State) (k : Nat) (b : Bytes) : (domPut s k b).collEcho = s.collEcho := rfl
@[simp] theorem domPut_host (s : State) (k : Nat) (b : Bytes) : (domPut s k b).host = s.host := rfl
@[simp] theorem domPut_mgmt (s : State) (k : Nat) (b : Bytes) : (domPut s k b).mgmt = s.mgmt := rfl
@[simp] theorem domPut_power (s : State) (k : Nat) (b : Bytes) : (domPut s k b).power = s.power := rfl
@[simp] theorem domPut_seqs (s : State) (k : Nat) (b : Bytes) : (domPut s k b).seqs = s.seqs := rfl
@[simp] theorem domPut_sec (s : State) (k : Nat) (b : Bytes) : (domPut s k b).sec = s.sec := rfl
@[simp] theorem domPut_iface (s : State) (k : Nat) (b : Bytes) : (domPut s k b).iface = s.iface := rfl
@[simp] theorem domPut_obs (s : State) (k : Nat) (b : Bytes) : (domPut s k b).obs = s.obs := rfl

@[simp] theorem emit_pending (s : State) (o : Out) : (emit s o).pending = s.pending := rfl
@[simp] theorem emit_now (s : State) (o : Out) : (emit s o).now = s.now := rfl
@[simp] theorem emit_coldAt (s : State) (o : Out) : (emit s o).coldAt = s.coldAt := rfl
@[simp] theorem emit_lossNs (s : State) (o : Out) : (emit s o).lossNs = s.lossNs := rfl
@[simp] theorem emit_free (s : State) (o : Out) : (emit s o).free = s.free := rfl
@[simp] theorem emit_dic (s : State) (o : Out) : (emit s o).dic = s.dic := rfl
@[simp] theorem emit_flash (s : State) (o : Out) : (emit s o).flash = s.flash := rfl
@[simp] theorem emit_persist (s : State) (o : Out) : (emit s o).persist = s.persist := rfl
@[simp] theorem emit_doms (s : State) (o : Out) : (emit s o).doms = s.doms := rfl
@[simp] theorem emit_domsFlash (s : State) (o : Out) : (emit s o).domsFlash = s.domsFlash := rfl
@[simp] theorem emit_bridge (s : State) (o : Out) : (emit s o).bridge = s.bridge := rfl
@[simp] theorem emit_arrays (s : State) (o : Out) : (emit s o).arrays = s.arrays := rfl
@[simp] theorem emit_vecs (s : State) (o : Out) : (emit s o).vecs = s.vecs := rfl
@[simp] theorem emit_esc (s : State) (o : Out) : (emit s o).esc = s.esc := rfl
@[simp] theorem emit_layers (s : State) (o : Out) : (emit s o).layers = s.layers := rfl
@[simp] theorem emit_engines (s : State) (o : Out) : (emit s o).engines = s.engines := rfl
@[simp] theorem emit_moverRR (s : State) (o : Out) : (emit s o).moverRR = s.moverRR := rfl
@[simp] theorem emit_tile (s : State) (o : Out) : (emit s o).tile = s.tile := rfl
@[simp] theorem emit_tilePoison (s : State) (o : Out) : (emit s o).tilePoison = s.tilePoison := rfl
@[simp] theorem emit_remaps (s : State) (o : Out) : (emit s o).remaps = s.remaps := rfl
@[simp] theorem emit_remapsFlash (s : State) (o : Out) : (emit s o).remapsFlash = s.remapsFlash := rfl
@[simp] theorem emit_repairsFlash (s : State) (o : Out) : (emit s o).repairsFlash = s.repairsFlash := rfl
@[simp] theorem emit_corrRuns (s : State) (o : Out) : (emit s o).corrRuns = s.corrRuns := rfl
@[simp] theorem emit_scrubLine (s : State) (o : Out) : (emit s o).scrubLine = s.scrubLine := rfl
@[simp] theorem emit_scrubWrap (s : State) (o : Out) : (emit s o).scrubWrap = s.scrubWrap := rfl
@[simp] theorem emit_spareOut (s : State) (o : Out) : (emit s o).spareOut = s.spareOut := rfl
@[simp] theorem emit_lpddr (s : State) (o : Out) : (emit s o).lpddr = s.lpddr := rfl
@[simp] theorem emit_lpddrPoison (s : State) (o : Out) : (emit s o).lpddrPoison = s.lpddrPoison := rfl
@[simp] theorem emit_lpddrBad (s : State) (o : Out) : (emit s o).lpddrBad = s.lpddrBad := rfl
@[simp] theorem emit_chans (s : State) (o : Out) : (emit s o).chans = s.chans := rfl
@[simp] theorem emit_pkgs (s : State) (o : Out) : (emit s o).pkgs = s.pkgs := rfl
@[simp] theorem emit_repairs (s : State) (o : Out) : (emit s o).repairs = s.repairs := rfl
@[simp] theorem emit_keyEff (s : State) (o : Out) : (emit s o).keyEff = s.keyEff := rfl
@[simp] theorem emit_spillEff (s : State) (o : Out) : (emit s o).spillEff = s.spillEff := rfl
@[simp] theorem emit_watchEff (s : State) (o : Out) : (emit s o).watchEff = s.watchEff := rfl
@[simp] theorem emit_rcEff (s : State) (o : Out) : (emit s o).rcEff = s.rcEff := rfl
@[simp] theorem emit_laserMode (s : State) (o : Out) : (emit s o).laserMode = s.laserMode := rfl
@[simp] theorem emit_unretired (s : State) (o : Out) : (emit s o).unretired = s.unretired := rfl
@[simp] theorem emit_parts (s : State) (o : Out) : (emit s o).parts = s.parts := rfl
@[simp] theorem emit_claims (s : State) (o : Out) : (emit s o).claims = s.claims := rfl
@[simp] theorem emit_waitClaims (s : State) (o : Out) : (emit s o).waitClaims = s.waitClaims := rfl
@[simp] theorem emit_spills (s : State) (o : Out) : (emit s o).spills = s.spills := rfl
@[simp] theorem emit_queues (s : State) (o : Out) : (emit s o).queues = s.queues := rfl
@[simp] theorem emit_sync (s : State) (o : Out) : (emit s o).sync = s.sync := rfl
@[simp] theorem emit_waiters (s : State) (o : Out) : (emit s o).waiters = s.waiters := rfl
@[simp] theorem emit_cores (s : State) (o : Out) : (emit s o).cores = s.cores := rfl
@[simp] theorem emit_schedRR (s : State) (o : Out) : (emit s o).schedRR = s.schedRR := rfl
@[simp] theorem emit_lasers (s : State) (o : Out) : (emit s o).lasers = s.lasers := rfl
@[simp] theorem emit_rings (s : State) (o : Out) : (emit s o).rings = s.rings := rfl
@[simp] theorem emit_rotors (s : State) (o : Out) : (emit s o).rotors = s.rotors := rfl
@[simp] theorem emit_specMap (s : State) (o : Out) : (emit s o).specMap = s.specMap := rfl
@[simp] theorem emit_demand (s : State) (o : Out) : (emit s o).demand = s.demand := rfl
@[simp] theorem emit_reassign (s : State) (o : Out) : (emit s o).reassign = s.reassign := rfl
@[simp] theorem emit_recovery (s : State) (o : Out) : (emit s o).recovery = s.recovery := rfl
@[simp] theorem emit_sweptAt (s : State) (o : Out) : (emit s o).sweptAt = s.sweptAt := rfl
@[simp] theorem emit_heard (s : State) (o : Out) : (emit s o).heard = s.heard := rfl
@[simp] theorem emit_inPeer (s : State) (o : Out) : (emit s o).inPeer = s.inPeer := rfl
@[simp] theorem emit_peerVer (s : State) (o : Out) : (emit s o).peerVer = s.peerVer := rfl
@[simp] theorem emit_trainFails (s : State) (o : Out) : (emit s o).trainFails = s.trainFails := rfl
@[simp] theorem emit_inGrant (s : State) (o : Out) : (emit s o).inGrant = s.inGrant := rfl
@[simp] theorem emit_strayIn (s : State) (o : Out) : (emit s o).strayIn = s.strayIn := rfl
@[simp] theorem emit_backDue (s : State) (o : Out) : (emit s o).backDue = s.backDue := rfl
@[simp] theorem emit_needDemand (s : State) (o : Out) : (emit s o).needDemand = s.needDemand := rfl
@[simp] theorem emit_tapped (s : State) (o : Out) : (emit s o).tapped = s.tapped := rfl
@[simp] theorem emit_links (s : State) (o : Out) : (emit s o).links = s.links := rfl
@[simp] theorem emit_skewHold (s : State) (o : Out) : (emit s o).skewHold = s.skewHold := rfl
@[simp] theorem emit_armed (s : State) (o : Out) : (emit s o).armed = s.armed := rfl
@[simp] theorem emit_routerW (s : State) (o : Out) : (emit s o).routerW = s.routerW := rfl
@[simp] theorem emit_routerE (s : State) (o : Out) : (emit s o).routerE = s.routerE := rfl
@[simp] theorem emit_windows (s : State) (o : Out) : (emit s o).windows = s.windows := rfl
@[simp] theorem emit_outst (s : State) (o : Out) : (emit s o).outst = s.outst := rfl
@[simp] theorem emit_nextTag (s : State) (o : Out) : (emit s o).nextTag = s.nextTag := rfl
@[simp] theorem emit_tagHold (s : State) (o : Out) : (emit s o).tagHold = s.tagHold := rfl
@[simp] theorem emit_evicted (s : State) (o : Out) : (emit s o).evicted = s.evicted := rfl
@[simp] theorem emit_replay (s : State) (o : Out) : (emit s o).replay = s.replay := rfl
@[simp] theorem emit_atoms (s : State) (o : Out) : (emit s o).atoms = s.atoms := rfl
@[simp] theorem emit_wires (s : State) (o : Out) : (emit s o).wires = s.wires := rfl
@[simp] theorem emit_admits (s : State) (o : Out) : (emit s o).admits = s.admits := rfl
@[simp] theorem emit_rcache (s : State) (o : Out) : (emit s o).rcache = s.rcache := rfl
@[simp] theorem emit_colls (s : State) (o : Out) : (emit s o).colls = s.colls := rfl
@[simp] theorem emit_slots (s : State) (o : Out) : (emit s o).slots = s.slots := rfl
@[simp] theorem emit_greys (s : State) (o : Out) : (emit s o).greys = s.greys := rfl
@[simp] theorem emit_pendColls (s : State) (o : Out) : (emit s o).pendColls = s.pendColls := rfl
@[simp] theorem emit_ended (s : State) (o : Out) : (emit s o).ended = s.ended := rfl
@[simp] theorem emit_collEcho (s : State) (o : Out) : (emit s o).collEcho = s.collEcho := rfl
@[simp] theorem emit_host (s : State) (o : Out) : (emit s o).host = s.host := rfl
@[simp] theorem emit_mgmt (s : State) (o : Out) : (emit s o).mgmt = s.mgmt := rfl
@[simp] theorem emit_power (s : State) (o : Out) : (emit s o).power = s.power := rfl
@[simp] theorem emit_seqs (s : State) (o : Out) : (emit s o).seqs = s.seqs := rfl
@[simp] theorem emit_sec (s : State) (o : Out) : (emit s o).sec = s.sec := rfl
@[simp] theorem emit_iface (s : State) (o : Out) : (emit s o).iface = s.iface := rfl
@[simp] theorem emit_obs (s : State) (o : Out) : (emit s o).obs = s.obs := rfl

@[simp] theorem freeStep_pending (s : State) : (freeStep s).pending = s.pending := rfl
@[simp] theorem freeStep_now (s : State) : (freeStep s).now = s.now := rfl
@[simp] theorem freeStep_coldAt (s : State) : (freeStep s).coldAt = s.coldAt := rfl
@[simp] theorem freeStep_lossNs (s : State) : (freeStep s).lossNs = s.lossNs := rfl
@[simp] theorem freeStep_out (s : State) : (freeStep s).out = s.out := rfl
@[simp] theorem freeStep_dic (s : State) : (freeStep s).dic = s.dic := rfl
@[simp] theorem freeStep_flash (s : State) : (freeStep s).flash = s.flash := rfl
@[simp] theorem freeStep_persist (s : State) : (freeStep s).persist = s.persist := rfl
@[simp] theorem freeStep_doms (s : State) : (freeStep s).doms = s.doms := rfl
@[simp] theorem freeStep_domsFlash (s : State) : (freeStep s).domsFlash = s.domsFlash := rfl
@[simp] theorem freeStep_bridge (s : State) : (freeStep s).bridge = s.bridge := rfl
@[simp] theorem freeStep_arrays (s : State) : (freeStep s).arrays = s.arrays := rfl
@[simp] theorem freeStep_vecs (s : State) : (freeStep s).vecs = s.vecs := rfl
@[simp] theorem freeStep_esc (s : State) : (freeStep s).esc = s.esc := rfl
@[simp] theorem freeStep_layers (s : State) : (freeStep s).layers = s.layers := rfl
@[simp] theorem freeStep_engines (s : State) : (freeStep s).engines = s.engines := rfl
@[simp] theorem freeStep_moverRR (s : State) : (freeStep s).moverRR = s.moverRR := rfl
@[simp] theorem freeStep_tile (s : State) : (freeStep s).tile = s.tile := rfl
@[simp] theorem freeStep_tilePoison (s : State) : (freeStep s).tilePoison = s.tilePoison := rfl
@[simp] theorem freeStep_remaps (s : State) : (freeStep s).remaps = s.remaps := rfl
@[simp] theorem freeStep_remapsFlash (s : State) : (freeStep s).remapsFlash = s.remapsFlash := rfl
@[simp] theorem freeStep_repairsFlash (s : State) : (freeStep s).repairsFlash = s.repairsFlash := rfl
@[simp] theorem freeStep_corrRuns (s : State) : (freeStep s).corrRuns = s.corrRuns := rfl
@[simp] theorem freeStep_scrubLine (s : State) : (freeStep s).scrubLine = s.scrubLine := rfl
@[simp] theorem freeStep_scrubWrap (s : State) : (freeStep s).scrubWrap = s.scrubWrap := rfl
@[simp] theorem freeStep_spareOut (s : State) : (freeStep s).spareOut = s.spareOut := rfl
@[simp] theorem freeStep_lpddr (s : State) : (freeStep s).lpddr = s.lpddr := rfl
@[simp] theorem freeStep_lpddrPoison (s : State) : (freeStep s).lpddrPoison = s.lpddrPoison := rfl
@[simp] theorem freeStep_lpddrBad (s : State) : (freeStep s).lpddrBad = s.lpddrBad := rfl
@[simp] theorem freeStep_chans (s : State) : (freeStep s).chans = s.chans := rfl
@[simp] theorem freeStep_pkgs (s : State) : (freeStep s).pkgs = s.pkgs := rfl
@[simp] theorem freeStep_repairs (s : State) : (freeStep s).repairs = s.repairs := rfl
@[simp] theorem freeStep_keyEff (s : State) : (freeStep s).keyEff = s.keyEff := rfl
@[simp] theorem freeStep_spillEff (s : State) : (freeStep s).spillEff = s.spillEff := rfl
@[simp] theorem freeStep_watchEff (s : State) : (freeStep s).watchEff = s.watchEff := rfl
@[simp] theorem freeStep_rcEff (s : State) : (freeStep s).rcEff = s.rcEff := rfl
@[simp] theorem freeStep_laserMode (s : State) : (freeStep s).laserMode = s.laserMode := rfl
@[simp] theorem freeStep_unretired (s : State) : (freeStep s).unretired = s.unretired := rfl
@[simp] theorem freeStep_parts (s : State) : (freeStep s).parts = s.parts := rfl
@[simp] theorem freeStep_claims (s : State) : (freeStep s).claims = s.claims := rfl
@[simp] theorem freeStep_waitClaims (s : State) : (freeStep s).waitClaims = s.waitClaims := rfl
@[simp] theorem freeStep_spills (s : State) : (freeStep s).spills = s.spills := rfl
@[simp] theorem freeStep_queues (s : State) : (freeStep s).queues = s.queues := rfl
@[simp] theorem freeStep_sync (s : State) : (freeStep s).sync = s.sync := rfl
@[simp] theorem freeStep_waiters (s : State) : (freeStep s).waiters = s.waiters := rfl
@[simp] theorem freeStep_cores (s : State) : (freeStep s).cores = s.cores := rfl
@[simp] theorem freeStep_schedRR (s : State) : (freeStep s).schedRR = s.schedRR := rfl
@[simp] theorem freeStep_lasers (s : State) : (freeStep s).lasers = s.lasers := rfl
@[simp] theorem freeStep_rings (s : State) : (freeStep s).rings = s.rings := rfl
@[simp] theorem freeStep_rotors (s : State) : (freeStep s).rotors = s.rotors := rfl
@[simp] theorem freeStep_specMap (s : State) : (freeStep s).specMap = s.specMap := rfl
@[simp] theorem freeStep_demand (s : State) : (freeStep s).demand = s.demand := rfl
@[simp] theorem freeStep_reassign (s : State) : (freeStep s).reassign = s.reassign := rfl
@[simp] theorem freeStep_recovery (s : State) : (freeStep s).recovery = s.recovery := rfl
@[simp] theorem freeStep_sweptAt (s : State) : (freeStep s).sweptAt = s.sweptAt := rfl
@[simp] theorem freeStep_heard (s : State) : (freeStep s).heard = s.heard := rfl
@[simp] theorem freeStep_inPeer (s : State) : (freeStep s).inPeer = s.inPeer := rfl
@[simp] theorem freeStep_peerVer (s : State) : (freeStep s).peerVer = s.peerVer := rfl
@[simp] theorem freeStep_trainFails (s : State) : (freeStep s).trainFails = s.trainFails := rfl
@[simp] theorem freeStep_inGrant (s : State) : (freeStep s).inGrant = s.inGrant := rfl
@[simp] theorem freeStep_strayIn (s : State) : (freeStep s).strayIn = s.strayIn := rfl
@[simp] theorem freeStep_backDue (s : State) : (freeStep s).backDue = s.backDue := rfl
@[simp] theorem freeStep_needDemand (s : State) : (freeStep s).needDemand = s.needDemand := rfl
@[simp] theorem freeStep_tapped (s : State) : (freeStep s).tapped = s.tapped := rfl
@[simp] theorem freeStep_links (s : State) : (freeStep s).links = s.links := rfl
@[simp] theorem freeStep_skewHold (s : State) : (freeStep s).skewHold = s.skewHold := rfl
@[simp] theorem freeStep_armed (s : State) : (freeStep s).armed = s.armed := rfl
@[simp] theorem freeStep_routerW (s : State) : (freeStep s).routerW = s.routerW := rfl
@[simp] theorem freeStep_routerE (s : State) : (freeStep s).routerE = s.routerE := rfl
@[simp] theorem freeStep_windows (s : State) : (freeStep s).windows = s.windows := rfl
@[simp] theorem freeStep_outst (s : State) : (freeStep s).outst = s.outst := rfl
@[simp] theorem freeStep_nextTag (s : State) : (freeStep s).nextTag = s.nextTag := rfl
@[simp] theorem freeStep_tagHold (s : State) : (freeStep s).tagHold = s.tagHold := rfl
@[simp] theorem freeStep_evicted (s : State) : (freeStep s).evicted = s.evicted := rfl
@[simp] theorem freeStep_replay (s : State) : (freeStep s).replay = s.replay := rfl
@[simp] theorem freeStep_atoms (s : State) : (freeStep s).atoms = s.atoms := rfl
@[simp] theorem freeStep_wires (s : State) : (freeStep s).wires = s.wires := rfl
@[simp] theorem freeStep_admits (s : State) : (freeStep s).admits = s.admits := rfl
@[simp] theorem freeStep_rcache (s : State) : (freeStep s).rcache = s.rcache := rfl
@[simp] theorem freeStep_colls (s : State) : (freeStep s).colls = s.colls := rfl
@[simp] theorem freeStep_slots (s : State) : (freeStep s).slots = s.slots := rfl
@[simp] theorem freeStep_greys (s : State) : (freeStep s).greys = s.greys := rfl
@[simp] theorem freeStep_pendColls (s : State) : (freeStep s).pendColls = s.pendColls := rfl
@[simp] theorem freeStep_ended (s : State) : (freeStep s).ended = s.ended := rfl
@[simp] theorem freeStep_collEcho (s : State) : (freeStep s).collEcho = s.collEcho := rfl
@[simp] theorem freeStep_host (s : State) : (freeStep s).host = s.host := rfl
@[simp] theorem freeStep_mgmt (s : State) : (freeStep s).mgmt = s.mgmt := rfl
@[simp] theorem freeStep_power (s : State) : (freeStep s).power = s.power := rfl
@[simp] theorem freeStep_seqs (s : State) : (freeStep s).seqs = s.seqs := rfl
@[simp] theorem freeStep_sec (s : State) : (freeStep s).sec = s.sec := rfl
@[simp] theorem freeStep_iface (s : State) : (freeStep s).iface = s.iface := rfl
@[simp] theorem freeStep_obs (s : State) : (freeStep s).obs = s.obs := rfl

@[simp] theorem alert_pending (s : State) : (alert s).pending = s.pending := rfl
@[simp] theorem alert_now (s : State) : (alert s).now = s.now := rfl
@[simp] theorem alert_coldAt (s : State) : (alert s).coldAt = s.coldAt := rfl
@[simp] theorem alert_lossNs (s : State) : (alert s).lossNs = s.lossNs := rfl
@[simp] theorem alert_free (s : State) : (alert s).free = s.free := rfl
@[simp] theorem alert_out (s : State) : (alert s).out = s.out := rfl
@[simp] theorem alert_flash (s : State) : (alert s).flash = s.flash := rfl
@[simp] theorem alert_persist (s : State) : (alert s).persist = s.persist := rfl
@[simp] theorem alert_doms (s : State) : (alert s).doms = s.doms := rfl
@[simp] theorem alert_domsFlash (s : State) : (alert s).domsFlash = s.domsFlash := rfl
@[simp] theorem alert_bridge (s : State) : (alert s).bridge = s.bridge := rfl
@[simp] theorem alert_arrays (s : State) : (alert s).arrays = s.arrays := rfl
@[simp] theorem alert_vecs (s : State) : (alert s).vecs = s.vecs := rfl
@[simp] theorem alert_esc (s : State) : (alert s).esc = s.esc := rfl
@[simp] theorem alert_layers (s : State) : (alert s).layers = s.layers := rfl
@[simp] theorem alert_engines (s : State) : (alert s).engines = s.engines := rfl
@[simp] theorem alert_moverRR (s : State) : (alert s).moverRR = s.moverRR := rfl
@[simp] theorem alert_tile (s : State) : (alert s).tile = s.tile := rfl
@[simp] theorem alert_tilePoison (s : State) : (alert s).tilePoison = s.tilePoison := rfl
@[simp] theorem alert_remaps (s : State) : (alert s).remaps = s.remaps := rfl
@[simp] theorem alert_remapsFlash (s : State) : (alert s).remapsFlash = s.remapsFlash := rfl
@[simp] theorem alert_repairsFlash (s : State) : (alert s).repairsFlash = s.repairsFlash := rfl
@[simp] theorem alert_corrRuns (s : State) : (alert s).corrRuns = s.corrRuns := rfl
@[simp] theorem alert_scrubLine (s : State) : (alert s).scrubLine = s.scrubLine := rfl
@[simp] theorem alert_scrubWrap (s : State) : (alert s).scrubWrap = s.scrubWrap := rfl
@[simp] theorem alert_spareOut (s : State) : (alert s).spareOut = s.spareOut := rfl
@[simp] theorem alert_lpddr (s : State) : (alert s).lpddr = s.lpddr := rfl
@[simp] theorem alert_lpddrPoison (s : State) : (alert s).lpddrPoison = s.lpddrPoison := rfl
@[simp] theorem alert_lpddrBad (s : State) : (alert s).lpddrBad = s.lpddrBad := rfl
@[simp] theorem alert_chans (s : State) : (alert s).chans = s.chans := rfl
@[simp] theorem alert_pkgs (s : State) : (alert s).pkgs = s.pkgs := rfl
@[simp] theorem alert_repairs (s : State) : (alert s).repairs = s.repairs := rfl
@[simp] theorem alert_keyEff (s : State) : (alert s).keyEff = s.keyEff := rfl
@[simp] theorem alert_spillEff (s : State) : (alert s).spillEff = s.spillEff := rfl
@[simp] theorem alert_watchEff (s : State) : (alert s).watchEff = s.watchEff := rfl
@[simp] theorem alert_rcEff (s : State) : (alert s).rcEff = s.rcEff := rfl
@[simp] theorem alert_laserMode (s : State) : (alert s).laserMode = s.laserMode := rfl
@[simp] theorem alert_unretired (s : State) : (alert s).unretired = s.unretired := rfl
@[simp] theorem alert_parts (s : State) : (alert s).parts = s.parts := rfl
@[simp] theorem alert_claims (s : State) : (alert s).claims = s.claims := rfl
@[simp] theorem alert_waitClaims (s : State) : (alert s).waitClaims = s.waitClaims := rfl
@[simp] theorem alert_spills (s : State) : (alert s).spills = s.spills := rfl
@[simp] theorem alert_queues (s : State) : (alert s).queues = s.queues := rfl
@[simp] theorem alert_sync (s : State) : (alert s).sync = s.sync := rfl
@[simp] theorem alert_waiters (s : State) : (alert s).waiters = s.waiters := rfl
@[simp] theorem alert_cores (s : State) : (alert s).cores = s.cores := rfl
@[simp] theorem alert_schedRR (s : State) : (alert s).schedRR = s.schedRR := rfl
@[simp] theorem alert_lasers (s : State) : (alert s).lasers = s.lasers := rfl
@[simp] theorem alert_rings (s : State) : (alert s).rings = s.rings := rfl
@[simp] theorem alert_rotors (s : State) : (alert s).rotors = s.rotors := rfl
@[simp] theorem alert_specMap (s : State) : (alert s).specMap = s.specMap := rfl
@[simp] theorem alert_demand (s : State) : (alert s).demand = s.demand := rfl
@[simp] theorem alert_reassign (s : State) : (alert s).reassign = s.reassign := rfl
@[simp] theorem alert_recovery (s : State) : (alert s).recovery = s.recovery := rfl
@[simp] theorem alert_sweptAt (s : State) : (alert s).sweptAt = s.sweptAt := rfl
@[simp] theorem alert_heard (s : State) : (alert s).heard = s.heard := rfl
@[simp] theorem alert_inPeer (s : State) : (alert s).inPeer = s.inPeer := rfl
@[simp] theorem alert_peerVer (s : State) : (alert s).peerVer = s.peerVer := rfl
@[simp] theorem alert_trainFails (s : State) : (alert s).trainFails = s.trainFails := rfl
@[simp] theorem alert_inGrant (s : State) : (alert s).inGrant = s.inGrant := rfl
@[simp] theorem alert_strayIn (s : State) : (alert s).strayIn = s.strayIn := rfl
@[simp] theorem alert_backDue (s : State) : (alert s).backDue = s.backDue := rfl
@[simp] theorem alert_needDemand (s : State) : (alert s).needDemand = s.needDemand := rfl
@[simp] theorem alert_tapped (s : State) : (alert s).tapped = s.tapped := rfl
@[simp] theorem alert_links (s : State) : (alert s).links = s.links := rfl
@[simp] theorem alert_skewHold (s : State) : (alert s).skewHold = s.skewHold := rfl
@[simp] theorem alert_armed (s : State) : (alert s).armed = s.armed := rfl
@[simp] theorem alert_routerW (s : State) : (alert s).routerW = s.routerW := rfl
@[simp] theorem alert_routerE (s : State) : (alert s).routerE = s.routerE := rfl
@[simp] theorem alert_windows (s : State) : (alert s).windows = s.windows := rfl
@[simp] theorem alert_outst (s : State) : (alert s).outst = s.outst := rfl
@[simp] theorem alert_nextTag (s : State) : (alert s).nextTag = s.nextTag := rfl
@[simp] theorem alert_tagHold (s : State) : (alert s).tagHold = s.tagHold := rfl
@[simp] theorem alert_evicted (s : State) : (alert s).evicted = s.evicted := rfl
@[simp] theorem alert_replay (s : State) : (alert s).replay = s.replay := rfl
@[simp] theorem alert_atoms (s : State) : (alert s).atoms = s.atoms := rfl
@[simp] theorem alert_wires (s : State) : (alert s).wires = s.wires := rfl
@[simp] theorem alert_admits (s : State) : (alert s).admits = s.admits := rfl
@[simp] theorem alert_rcache (s : State) : (alert s).rcache = s.rcache := rfl
@[simp] theorem alert_colls (s : State) : (alert s).colls = s.colls := rfl
@[simp] theorem alert_slots (s : State) : (alert s).slots = s.slots := rfl
@[simp] theorem alert_greys (s : State) : (alert s).greys = s.greys := rfl
@[simp] theorem alert_pendColls (s : State) : (alert s).pendColls = s.pendColls := rfl
@[simp] theorem alert_ended (s : State) : (alert s).ended = s.ended := rfl
@[simp] theorem alert_collEcho (s : State) : (alert s).collEcho = s.collEcho := rfl
@[simp] theorem alert_host (s : State) : (alert s).host = s.host := rfl
@[simp] theorem alert_mgmt (s : State) : (alert s).mgmt = s.mgmt := rfl
@[simp] theorem alert_power (s : State) : (alert s).power = s.power := rfl
@[simp] theorem alert_seqs (s : State) : (alert s).seqs = s.seqs := rfl
@[simp] theorem alert_sec (s : State) : (alert s).sec = s.sec := rfl
@[simp] theorem alert_iface (s : State) : (alert s).iface = s.iface := rfl
@[simp] theorem alert_obs (s : State) : (alert s).obs = s.obs := rfl

/-- What journalling changes: the journal's buffer, and objects. -/
theorem journalPut_shape (s : State) (n : JEntry) :
    journalPut s n = { s with dic := (journalPut s n).dic, obs := { s.obs with jbuf := (journalPut s n).obs.jbuf } } := by
  unfold journalPut
  split
  · rfl
  · cases lowestEntry s.obs.jbuf with
    | none => rfl
    | some l => dsimp only; split <;> rfl

@[simp] theorem journalPut_pending (s : State) (n : JEntry) : (journalPut s n).pending = s.pending := by rw [journalPut_shape]
@[simp] theorem journalPut_now (s : State) (n : JEntry) : (journalPut s n).now = s.now := by rw [journalPut_shape]
@[simp] theorem journalPut_coldAt (s : State) (n : JEntry) : (journalPut s n).coldAt = s.coldAt := by rw [journalPut_shape]
@[simp] theorem journalPut_lossNs (s : State) (n : JEntry) : (journalPut s n).lossNs = s.lossNs := by rw [journalPut_shape]
@[simp] theorem journalPut_free (s : State) (n : JEntry) : (journalPut s n).free = s.free := by rw [journalPut_shape]
@[simp] theorem journalPut_out (s : State) (n : JEntry) : (journalPut s n).out = s.out := by rw [journalPut_shape]
@[simp] theorem journalPut_flash (s : State) (n : JEntry) : (journalPut s n).flash = s.flash := by rw [journalPut_shape]
@[simp] theorem journalPut_persist (s : State) (n : JEntry) : (journalPut s n).persist = s.persist := by rw [journalPut_shape]
@[simp] theorem journalPut_doms (s : State) (n : JEntry) : (journalPut s n).doms = s.doms := by rw [journalPut_shape]
@[simp] theorem journalPut_domsFlash (s : State) (n : JEntry) : (journalPut s n).domsFlash = s.domsFlash := by rw [journalPut_shape]
@[simp] theorem journalPut_bridge (s : State) (n : JEntry) : (journalPut s n).bridge = s.bridge := by rw [journalPut_shape]
@[simp] theorem journalPut_arrays (s : State) (n : JEntry) : (journalPut s n).arrays = s.arrays := by rw [journalPut_shape]
@[simp] theorem journalPut_vecs (s : State) (n : JEntry) : (journalPut s n).vecs = s.vecs := by rw [journalPut_shape]
@[simp] theorem journalPut_esc (s : State) (n : JEntry) : (journalPut s n).esc = s.esc := by rw [journalPut_shape]
@[simp] theorem journalPut_layers (s : State) (n : JEntry) : (journalPut s n).layers = s.layers := by rw [journalPut_shape]
@[simp] theorem journalPut_engines (s : State) (n : JEntry) : (journalPut s n).engines = s.engines := by rw [journalPut_shape]
@[simp] theorem journalPut_moverRR (s : State) (n : JEntry) : (journalPut s n).moverRR = s.moverRR := by rw [journalPut_shape]
@[simp] theorem journalPut_tile (s : State) (n : JEntry) : (journalPut s n).tile = s.tile := by rw [journalPut_shape]
@[simp] theorem journalPut_tilePoison (s : State) (n : JEntry) : (journalPut s n).tilePoison = s.tilePoison := by rw [journalPut_shape]
@[simp] theorem journalPut_remaps (s : State) (n : JEntry) : (journalPut s n).remaps = s.remaps := by rw [journalPut_shape]
@[simp] theorem journalPut_remapsFlash (s : State) (n : JEntry) : (journalPut s n).remapsFlash = s.remapsFlash := by rw [journalPut_shape]
@[simp] theorem journalPut_repairsFlash (s : State) (n : JEntry) : (journalPut s n).repairsFlash = s.repairsFlash := by rw [journalPut_shape]
@[simp] theorem journalPut_corrRuns (s : State) (n : JEntry) : (journalPut s n).corrRuns = s.corrRuns := by rw [journalPut_shape]
@[simp] theorem journalPut_scrubLine (s : State) (n : JEntry) : (journalPut s n).scrubLine = s.scrubLine := by rw [journalPut_shape]
@[simp] theorem journalPut_scrubWrap (s : State) (n : JEntry) : (journalPut s n).scrubWrap = s.scrubWrap := by rw [journalPut_shape]
@[simp] theorem journalPut_spareOut (s : State) (n : JEntry) : (journalPut s n).spareOut = s.spareOut := by rw [journalPut_shape]
@[simp] theorem journalPut_lpddr (s : State) (n : JEntry) : (journalPut s n).lpddr = s.lpddr := by rw [journalPut_shape]
@[simp] theorem journalPut_lpddrPoison (s : State) (n : JEntry) : (journalPut s n).lpddrPoison = s.lpddrPoison := by rw [journalPut_shape]
@[simp] theorem journalPut_lpddrBad (s : State) (n : JEntry) : (journalPut s n).lpddrBad = s.lpddrBad := by rw [journalPut_shape]
@[simp] theorem journalPut_chans (s : State) (n : JEntry) : (journalPut s n).chans = s.chans := by rw [journalPut_shape]
@[simp] theorem journalPut_pkgs (s : State) (n : JEntry) : (journalPut s n).pkgs = s.pkgs := by rw [journalPut_shape]
@[simp] theorem journalPut_repairs (s : State) (n : JEntry) : (journalPut s n).repairs = s.repairs := by rw [journalPut_shape]
@[simp] theorem journalPut_keyEff (s : State) (n : JEntry) : (journalPut s n).keyEff = s.keyEff := by rw [journalPut_shape]
@[simp] theorem journalPut_spillEff (s : State) (n : JEntry) : (journalPut s n).spillEff = s.spillEff := by rw [journalPut_shape]
@[simp] theorem journalPut_watchEff (s : State) (n : JEntry) : (journalPut s n).watchEff = s.watchEff := by rw [journalPut_shape]
@[simp] theorem journalPut_rcEff (s : State) (n : JEntry) : (journalPut s n).rcEff = s.rcEff := by rw [journalPut_shape]
@[simp] theorem journalPut_laserMode (s : State) (n : JEntry) : (journalPut s n).laserMode = s.laserMode := by rw [journalPut_shape]
@[simp] theorem journalPut_unretired (s : State) (n : JEntry) : (journalPut s n).unretired = s.unretired := by rw [journalPut_shape]
@[simp] theorem journalPut_parts (s : State) (n : JEntry) : (journalPut s n).parts = s.parts := by rw [journalPut_shape]
@[simp] theorem journalPut_claims (s : State) (n : JEntry) : (journalPut s n).claims = s.claims := by rw [journalPut_shape]
@[simp] theorem journalPut_waitClaims (s : State) (n : JEntry) : (journalPut s n).waitClaims = s.waitClaims := by rw [journalPut_shape]
@[simp] theorem journalPut_spills (s : State) (n : JEntry) : (journalPut s n).spills = s.spills := by rw [journalPut_shape]
@[simp] theorem journalPut_queues (s : State) (n : JEntry) : (journalPut s n).queues = s.queues := by rw [journalPut_shape]
@[simp] theorem journalPut_sync (s : State) (n : JEntry) : (journalPut s n).sync = s.sync := by rw [journalPut_shape]
@[simp] theorem journalPut_waiters (s : State) (n : JEntry) : (journalPut s n).waiters = s.waiters := by rw [journalPut_shape]
@[simp] theorem journalPut_cores (s : State) (n : JEntry) : (journalPut s n).cores = s.cores := by rw [journalPut_shape]
@[simp] theorem journalPut_schedRR (s : State) (n : JEntry) : (journalPut s n).schedRR = s.schedRR := by rw [journalPut_shape]
@[simp] theorem journalPut_lasers (s : State) (n : JEntry) : (journalPut s n).lasers = s.lasers := by rw [journalPut_shape]
@[simp] theorem journalPut_rings (s : State) (n : JEntry) : (journalPut s n).rings = s.rings := by rw [journalPut_shape]
@[simp] theorem journalPut_rotors (s : State) (n : JEntry) : (journalPut s n).rotors = s.rotors := by rw [journalPut_shape]
@[simp] theorem journalPut_specMap (s : State) (n : JEntry) : (journalPut s n).specMap = s.specMap := by rw [journalPut_shape]
@[simp] theorem journalPut_demand (s : State) (n : JEntry) : (journalPut s n).demand = s.demand := by rw [journalPut_shape]
@[simp] theorem journalPut_reassign (s : State) (n : JEntry) : (journalPut s n).reassign = s.reassign := by rw [journalPut_shape]
@[simp] theorem journalPut_recovery (s : State) (n : JEntry) : (journalPut s n).recovery = s.recovery := by rw [journalPut_shape]
@[simp] theorem journalPut_sweptAt (s : State) (n : JEntry) : (journalPut s n).sweptAt = s.sweptAt := by rw [journalPut_shape]
@[simp] theorem journalPut_heard (s : State) (n : JEntry) : (journalPut s n).heard = s.heard := by rw [journalPut_shape]
@[simp] theorem journalPut_inPeer (s : State) (n : JEntry) : (journalPut s n).inPeer = s.inPeer := by rw [journalPut_shape]
@[simp] theorem journalPut_peerVer (s : State) (n : JEntry) : (journalPut s n).peerVer = s.peerVer := by rw [journalPut_shape]
@[simp] theorem journalPut_trainFails (s : State) (n : JEntry) : (journalPut s n).trainFails = s.trainFails := by rw [journalPut_shape]
@[simp] theorem journalPut_inGrant (s : State) (n : JEntry) : (journalPut s n).inGrant = s.inGrant := by rw [journalPut_shape]
@[simp] theorem journalPut_strayIn (s : State) (n : JEntry) : (journalPut s n).strayIn = s.strayIn := by rw [journalPut_shape]
@[simp] theorem journalPut_backDue (s : State) (n : JEntry) : (journalPut s n).backDue = s.backDue := by rw [journalPut_shape]
@[simp] theorem journalPut_needDemand (s : State) (n : JEntry) : (journalPut s n).needDemand = s.needDemand := by rw [journalPut_shape]
@[simp] theorem journalPut_tapped (s : State) (n : JEntry) : (journalPut s n).tapped = s.tapped := by rw [journalPut_shape]
@[simp] theorem journalPut_links (s : State) (n : JEntry) : (journalPut s n).links = s.links := by rw [journalPut_shape]
@[simp] theorem journalPut_skewHold (s : State) (n : JEntry) : (journalPut s n).skewHold = s.skewHold := by rw [journalPut_shape]
@[simp] theorem journalPut_armed (s : State) (n : JEntry) : (journalPut s n).armed = s.armed := by rw [journalPut_shape]
@[simp] theorem journalPut_routerW (s : State) (n : JEntry) : (journalPut s n).routerW = s.routerW := by rw [journalPut_shape]
@[simp] theorem journalPut_routerE (s : State) (n : JEntry) : (journalPut s n).routerE = s.routerE := by rw [journalPut_shape]
@[simp] theorem journalPut_windows (s : State) (n : JEntry) : (journalPut s n).windows = s.windows := by rw [journalPut_shape]
@[simp] theorem journalPut_outst (s : State) (n : JEntry) : (journalPut s n).outst = s.outst := by rw [journalPut_shape]
@[simp] theorem journalPut_nextTag (s : State) (n : JEntry) : (journalPut s n).nextTag = s.nextTag := by rw [journalPut_shape]
@[simp] theorem journalPut_tagHold (s : State) (n : JEntry) : (journalPut s n).tagHold = s.tagHold := by rw [journalPut_shape]
@[simp] theorem journalPut_evicted (s : State) (n : JEntry) : (journalPut s n).evicted = s.evicted := by rw [journalPut_shape]
@[simp] theorem journalPut_replay (s : State) (n : JEntry) : (journalPut s n).replay = s.replay := by rw [journalPut_shape]
@[simp] theorem journalPut_atoms (s : State) (n : JEntry) : (journalPut s n).atoms = s.atoms := by rw [journalPut_shape]
@[simp] theorem journalPut_wires (s : State) (n : JEntry) : (journalPut s n).wires = s.wires := by rw [journalPut_shape]
@[simp] theorem journalPut_admits (s : State) (n : JEntry) : (journalPut s n).admits = s.admits := by rw [journalPut_shape]
@[simp] theorem journalPut_rcache (s : State) (n : JEntry) : (journalPut s n).rcache = s.rcache := by rw [journalPut_shape]
@[simp] theorem journalPut_colls (s : State) (n : JEntry) : (journalPut s n).colls = s.colls := by rw [journalPut_shape]
@[simp] theorem journalPut_slots (s : State) (n : JEntry) : (journalPut s n).slots = s.slots := by rw [journalPut_shape]
@[simp] theorem journalPut_greys (s : State) (n : JEntry) : (journalPut s n).greys = s.greys := by rw [journalPut_shape]
@[simp] theorem journalPut_pendColls (s : State) (n : JEntry) : (journalPut s n).pendColls = s.pendColls := by rw [journalPut_shape]
@[simp] theorem journalPut_ended (s : State) (n : JEntry) : (journalPut s n).ended = s.ended := by rw [journalPut_shape]
@[simp] theorem journalPut_collEcho (s : State) (n : JEntry) : (journalPut s n).collEcho = s.collEcho := by rw [journalPut_shape]
@[simp] theorem journalPut_host (s : State) (n : JEntry) : (journalPut s n).host = s.host := by rw [journalPut_shape]
@[simp] theorem journalPut_mgmt (s : State) (n : JEntry) : (journalPut s n).mgmt = s.mgmt := by rw [journalPut_shape]
@[simp] theorem journalPut_power (s : State) (n : JEntry) : (journalPut s n).power = s.power := by rw [journalPut_shape]
@[simp] theorem journalPut_seqs (s : State) (n : JEntry) : (journalPut s n).seqs = s.seqs := by rw [journalPut_shape]
@[simp] theorem journalPut_sec (s : State) (n : JEntry) : (journalPut s n).sec = s.sec := by rw [journalPut_shape]
@[simp] theorem journalPut_iface (s : State) (n : JEntry) : (journalPut s n).iface = s.iface := by rw [journalPut_shape]

@[simp] theorem journal_pending (s : State) (e : JEvent) (as : List Nat) : (journal s e as).pending = s.pending := journalPut_pending s _
@[simp] theorem journal_now (s : State) (e : JEvent) (as : List Nat) : (journal s e as).now = s.now := journalPut_now s _
@[simp] theorem journal_coldAt (s : State) (e : JEvent) (as : List Nat) : (journal s e as).coldAt = s.coldAt := journalPut_coldAt s _
@[simp] theorem journal_lossNs (s : State) (e : JEvent) (as : List Nat) : (journal s e as).lossNs = s.lossNs := journalPut_lossNs s _
@[simp] theorem journal_free (s : State) (e : JEvent) (as : List Nat) : (journal s e as).free = s.free := journalPut_free s _
@[simp] theorem journal_out (s : State) (e : JEvent) (as : List Nat) : (journal s e as).out = s.out := journalPut_out s _
@[simp] theorem journal_flash (s : State) (e : JEvent) (as : List Nat) : (journal s e as).flash = s.flash := journalPut_flash s _
@[simp] theorem journal_persist (s : State) (e : JEvent) (as : List Nat) : (journal s e as).persist = s.persist := journalPut_persist s _
@[simp] theorem journal_doms (s : State) (e : JEvent) (as : List Nat) : (journal s e as).doms = s.doms := journalPut_doms s _
@[simp] theorem journal_domsFlash (s : State) (e : JEvent) (as : List Nat) : (journal s e as).domsFlash = s.domsFlash := journalPut_domsFlash s _
@[simp] theorem journal_bridge (s : State) (e : JEvent) (as : List Nat) : (journal s e as).bridge = s.bridge := journalPut_bridge s _
@[simp] theorem journal_arrays (s : State) (e : JEvent) (as : List Nat) : (journal s e as).arrays = s.arrays := journalPut_arrays s _
@[simp] theorem journal_vecs (s : State) (e : JEvent) (as : List Nat) : (journal s e as).vecs = s.vecs := journalPut_vecs s _
@[simp] theorem journal_esc (s : State) (e : JEvent) (as : List Nat) : (journal s e as).esc = s.esc := journalPut_esc s _
@[simp] theorem journal_layers (s : State) (e : JEvent) (as : List Nat) : (journal s e as).layers = s.layers := journalPut_layers s _
@[simp] theorem journal_engines (s : State) (e : JEvent) (as : List Nat) : (journal s e as).engines = s.engines := journalPut_engines s _
@[simp] theorem journal_moverRR (s : State) (e : JEvent) (as : List Nat) : (journal s e as).moverRR = s.moverRR := journalPut_moverRR s _
@[simp] theorem journal_tile (s : State) (e : JEvent) (as : List Nat) : (journal s e as).tile = s.tile := journalPut_tile s _
@[simp] theorem journal_tilePoison (s : State) (e : JEvent) (as : List Nat) : (journal s e as).tilePoison = s.tilePoison := journalPut_tilePoison s _
@[simp] theorem journal_remaps (s : State) (e : JEvent) (as : List Nat) : (journal s e as).remaps = s.remaps := journalPut_remaps s _
@[simp] theorem journal_remapsFlash (s : State) (e : JEvent) (as : List Nat) : (journal s e as).remapsFlash = s.remapsFlash := journalPut_remapsFlash s _
@[simp] theorem journal_repairsFlash (s : State) (e : JEvent) (as : List Nat) : (journal s e as).repairsFlash = s.repairsFlash := journalPut_repairsFlash s _
@[simp] theorem journal_corrRuns (s : State) (e : JEvent) (as : List Nat) : (journal s e as).corrRuns = s.corrRuns := journalPut_corrRuns s _
@[simp] theorem journal_scrubLine (s : State) (e : JEvent) (as : List Nat) : (journal s e as).scrubLine = s.scrubLine := journalPut_scrubLine s _
@[simp] theorem journal_scrubWrap (s : State) (e : JEvent) (as : List Nat) : (journal s e as).scrubWrap = s.scrubWrap := journalPut_scrubWrap s _
@[simp] theorem journal_spareOut (s : State) (e : JEvent) (as : List Nat) : (journal s e as).spareOut = s.spareOut := journalPut_spareOut s _
@[simp] theorem journal_lpddr (s : State) (e : JEvent) (as : List Nat) : (journal s e as).lpddr = s.lpddr := journalPut_lpddr s _
@[simp] theorem journal_lpddrPoison (s : State) (e : JEvent) (as : List Nat) : (journal s e as).lpddrPoison = s.lpddrPoison := journalPut_lpddrPoison s _
@[simp] theorem journal_lpddrBad (s : State) (e : JEvent) (as : List Nat) : (journal s e as).lpddrBad = s.lpddrBad := journalPut_lpddrBad s _
@[simp] theorem journal_chans (s : State) (e : JEvent) (as : List Nat) : (journal s e as).chans = s.chans := journalPut_chans s _
@[simp] theorem journal_pkgs (s : State) (e : JEvent) (as : List Nat) : (journal s e as).pkgs = s.pkgs := journalPut_pkgs s _
@[simp] theorem journal_repairs (s : State) (e : JEvent) (as : List Nat) : (journal s e as).repairs = s.repairs := journalPut_repairs s _
@[simp] theorem journal_keyEff (s : State) (e : JEvent) (as : List Nat) : (journal s e as).keyEff = s.keyEff := journalPut_keyEff s _
@[simp] theorem journal_spillEff (s : State) (e : JEvent) (as : List Nat) : (journal s e as).spillEff = s.spillEff := journalPut_spillEff s _
@[simp] theorem journal_watchEff (s : State) (e : JEvent) (as : List Nat) : (journal s e as).watchEff = s.watchEff := journalPut_watchEff s _
@[simp] theorem journal_rcEff (s : State) (e : JEvent) (as : List Nat) : (journal s e as).rcEff = s.rcEff := journalPut_rcEff s _
@[simp] theorem journal_laserMode (s : State) (e : JEvent) (as : List Nat) : (journal s e as).laserMode = s.laserMode := journalPut_laserMode s _
@[simp] theorem journal_unretired (s : State) (e : JEvent) (as : List Nat) : (journal s e as).unretired = s.unretired := journalPut_unretired s _
@[simp] theorem journal_parts (s : State) (e : JEvent) (as : List Nat) : (journal s e as).parts = s.parts := journalPut_parts s _
@[simp] theorem journal_claims (s : State) (e : JEvent) (as : List Nat) : (journal s e as).claims = s.claims := journalPut_claims s _
@[simp] theorem journal_waitClaims (s : State) (e : JEvent) (as : List Nat) : (journal s e as).waitClaims = s.waitClaims := journalPut_waitClaims s _
@[simp] theorem journal_spills (s : State) (e : JEvent) (as : List Nat) : (journal s e as).spills = s.spills := journalPut_spills s _
@[simp] theorem journal_queues (s : State) (e : JEvent) (as : List Nat) : (journal s e as).queues = s.queues := journalPut_queues s _
@[simp] theorem journal_sync (s : State) (e : JEvent) (as : List Nat) : (journal s e as).sync = s.sync := journalPut_sync s _
@[simp] theorem journal_waiters (s : State) (e : JEvent) (as : List Nat) : (journal s e as).waiters = s.waiters := journalPut_waiters s _
@[simp] theorem journal_cores (s : State) (e : JEvent) (as : List Nat) : (journal s e as).cores = s.cores := journalPut_cores s _
@[simp] theorem journal_schedRR (s : State) (e : JEvent) (as : List Nat) : (journal s e as).schedRR = s.schedRR := journalPut_schedRR s _
@[simp] theorem journal_lasers (s : State) (e : JEvent) (as : List Nat) : (journal s e as).lasers = s.lasers := journalPut_lasers s _
@[simp] theorem journal_rings (s : State) (e : JEvent) (as : List Nat) : (journal s e as).rings = s.rings := journalPut_rings s _
@[simp] theorem journal_rotors (s : State) (e : JEvent) (as : List Nat) : (journal s e as).rotors = s.rotors := journalPut_rotors s _
@[simp] theorem journal_specMap (s : State) (e : JEvent) (as : List Nat) : (journal s e as).specMap = s.specMap := journalPut_specMap s _
@[simp] theorem journal_demand (s : State) (e : JEvent) (as : List Nat) : (journal s e as).demand = s.demand := journalPut_demand s _
@[simp] theorem journal_reassign (s : State) (e : JEvent) (as : List Nat) : (journal s e as).reassign = s.reassign := journalPut_reassign s _
@[simp] theorem journal_recovery (s : State) (e : JEvent) (as : List Nat) : (journal s e as).recovery = s.recovery := journalPut_recovery s _
@[simp] theorem journal_sweptAt (s : State) (e : JEvent) (as : List Nat) : (journal s e as).sweptAt = s.sweptAt := journalPut_sweptAt s _
@[simp] theorem journal_heard (s : State) (e : JEvent) (as : List Nat) : (journal s e as).heard = s.heard := journalPut_heard s _
@[simp] theorem journal_inPeer (s : State) (e : JEvent) (as : List Nat) : (journal s e as).inPeer = s.inPeer := journalPut_inPeer s _
@[simp] theorem journal_peerVer (s : State) (e : JEvent) (as : List Nat) : (journal s e as).peerVer = s.peerVer := journalPut_peerVer s _
@[simp] theorem journal_trainFails (s : State) (e : JEvent) (as : List Nat) : (journal s e as).trainFails = s.trainFails := journalPut_trainFails s _
@[simp] theorem journal_inGrant (s : State) (e : JEvent) (as : List Nat) : (journal s e as).inGrant = s.inGrant := journalPut_inGrant s _
@[simp] theorem journal_strayIn (s : State) (e : JEvent) (as : List Nat) : (journal s e as).strayIn = s.strayIn := journalPut_strayIn s _
@[simp] theorem journal_backDue (s : State) (e : JEvent) (as : List Nat) : (journal s e as).backDue = s.backDue := journalPut_backDue s _
@[simp] theorem journal_needDemand (s : State) (e : JEvent) (as : List Nat) : (journal s e as).needDemand = s.needDemand := journalPut_needDemand s _
@[simp] theorem journal_tapped (s : State) (e : JEvent) (as : List Nat) : (journal s e as).tapped = s.tapped := journalPut_tapped s _
@[simp] theorem journal_links (s : State) (e : JEvent) (as : List Nat) : (journal s e as).links = s.links := journalPut_links s _
@[simp] theorem journal_skewHold (s : State) (e : JEvent) (as : List Nat) : (journal s e as).skewHold = s.skewHold := journalPut_skewHold s _
@[simp] theorem journal_armed (s : State) (e : JEvent) (as : List Nat) : (journal s e as).armed = s.armed := journalPut_armed s _
@[simp] theorem journal_routerW (s : State) (e : JEvent) (as : List Nat) : (journal s e as).routerW = s.routerW := journalPut_routerW s _
@[simp] theorem journal_routerE (s : State) (e : JEvent) (as : List Nat) : (journal s e as).routerE = s.routerE := journalPut_routerE s _
@[simp] theorem journal_windows (s : State) (e : JEvent) (as : List Nat) : (journal s e as).windows = s.windows := journalPut_windows s _
@[simp] theorem journal_outst (s : State) (e : JEvent) (as : List Nat) : (journal s e as).outst = s.outst := journalPut_outst s _
@[simp] theorem journal_nextTag (s : State) (e : JEvent) (as : List Nat) : (journal s e as).nextTag = s.nextTag := journalPut_nextTag s _
@[simp] theorem journal_tagHold (s : State) (e : JEvent) (as : List Nat) : (journal s e as).tagHold = s.tagHold := journalPut_tagHold s _
@[simp] theorem journal_evicted (s : State) (e : JEvent) (as : List Nat) : (journal s e as).evicted = s.evicted := journalPut_evicted s _
@[simp] theorem journal_replay (s : State) (e : JEvent) (as : List Nat) : (journal s e as).replay = s.replay := journalPut_replay s _
@[simp] theorem journal_atoms (s : State) (e : JEvent) (as : List Nat) : (journal s e as).atoms = s.atoms := journalPut_atoms s _
@[simp] theorem journal_wires (s : State) (e : JEvent) (as : List Nat) : (journal s e as).wires = s.wires := journalPut_wires s _
@[simp] theorem journal_admits (s : State) (e : JEvent) (as : List Nat) : (journal s e as).admits = s.admits := journalPut_admits s _
@[simp] theorem journal_rcache (s : State) (e : JEvent) (as : List Nat) : (journal s e as).rcache = s.rcache := journalPut_rcache s _
@[simp] theorem journal_colls (s : State) (e : JEvent) (as : List Nat) : (journal s e as).colls = s.colls := journalPut_colls s _
@[simp] theorem journal_slots (s : State) (e : JEvent) (as : List Nat) : (journal s e as).slots = s.slots := journalPut_slots s _
@[simp] theorem journal_greys (s : State) (e : JEvent) (as : List Nat) : (journal s e as).greys = s.greys := journalPut_greys s _
@[simp] theorem journal_pendColls (s : State) (e : JEvent) (as : List Nat) : (journal s e as).pendColls = s.pendColls := journalPut_pendColls s _
@[simp] theorem journal_ended (s : State) (e : JEvent) (as : List Nat) : (journal s e as).ended = s.ended := journalPut_ended s _
@[simp] theorem journal_collEcho (s : State) (e : JEvent) (as : List Nat) : (journal s e as).collEcho = s.collEcho := journalPut_collEcho s _
@[simp] theorem journal_host (s : State) (e : JEvent) (as : List Nat) : (journal s e as).host = s.host := journalPut_host s _
@[simp] theorem journal_mgmt (s : State) (e : JEvent) (as : List Nat) : (journal s e as).mgmt = s.mgmt := journalPut_mgmt s _
@[simp] theorem journal_power (s : State) (e : JEvent) (as : List Nat) : (journal s e as).power = s.power := journalPut_power s _
@[simp] theorem journal_seqs (s : State) (e : JEvent) (as : List Nat) : (journal s e as).seqs = s.seqs := journalPut_seqs s _
@[simp] theorem journal_sec (s : State) (e : JEvent) (as : List Nat) : (journal s e as).sec = s.sec := journalPut_sec s _
@[simp] theorem journal_iface (s : State) (e : JEvent) (as : List Nat) : (journal s e as).iface = s.iface := journalPut_iface s _

@[simp] theorem journalAlert_pending (s : State) (e : JEvent) (as : List Nat) : (journalAlert s e as).pending = s.pending := journalPut_pending s _
@[simp] theorem journalAlert_now (s : State) (e : JEvent) (as : List Nat) : (journalAlert s e as).now = s.now := journalPut_now s _
@[simp] theorem journalAlert_coldAt (s : State) (e : JEvent) (as : List Nat) : (journalAlert s e as).coldAt = s.coldAt := journalPut_coldAt s _
@[simp] theorem journalAlert_lossNs (s : State) (e : JEvent) (as : List Nat) : (journalAlert s e as).lossNs = s.lossNs := journalPut_lossNs s _
@[simp] theorem journalAlert_free (s : State) (e : JEvent) (as : List Nat) : (journalAlert s e as).free = s.free := journalPut_free s _
@[simp] theorem journalAlert_out (s : State) (e : JEvent) (as : List Nat) : (journalAlert s e as).out = s.out := journalPut_out s _
@[simp] theorem journalAlert_flash (s : State) (e : JEvent) (as : List Nat) : (journalAlert s e as).flash = s.flash := journalPut_flash s _
@[simp] theorem journalAlert_persist (s : State) (e : JEvent) (as : List Nat) : (journalAlert s e as).persist = s.persist := journalPut_persist s _
@[simp] theorem journalAlert_doms (s : State) (e : JEvent) (as : List Nat) : (journalAlert s e as).doms = s.doms := journalPut_doms s _
@[simp] theorem journalAlert_domsFlash (s : State) (e : JEvent) (as : List Nat) : (journalAlert s e as).domsFlash = s.domsFlash := journalPut_domsFlash s _
@[simp] theorem journalAlert_bridge (s : State) (e : JEvent) (as : List Nat) : (journalAlert s e as).bridge = s.bridge := journalPut_bridge s _
@[simp] theorem journalAlert_arrays (s : State) (e : JEvent) (as : List Nat) : (journalAlert s e as).arrays = s.arrays := journalPut_arrays s _
@[simp] theorem journalAlert_vecs (s : State) (e : JEvent) (as : List Nat) : (journalAlert s e as).vecs = s.vecs := journalPut_vecs s _
@[simp] theorem journalAlert_esc (s : State) (e : JEvent) (as : List Nat) : (journalAlert s e as).esc = s.esc := journalPut_esc s _
@[simp] theorem journalAlert_layers (s : State) (e : JEvent) (as : List Nat) : (journalAlert s e as).layers = s.layers := journalPut_layers s _
@[simp] theorem journalAlert_engines (s : State) (e : JEvent) (as : List Nat) : (journalAlert s e as).engines = s.engines := journalPut_engines s _
@[simp] theorem journalAlert_moverRR (s : State) (e : JEvent) (as : List Nat) : (journalAlert s e as).moverRR = s.moverRR := journalPut_moverRR s _
@[simp] theorem journalAlert_tile (s : State) (e : JEvent) (as : List Nat) : (journalAlert s e as).tile = s.tile := journalPut_tile s _
@[simp] theorem journalAlert_tilePoison (s : State) (e : JEvent) (as : List Nat) : (journalAlert s e as).tilePoison = s.tilePoison := journalPut_tilePoison s _
@[simp] theorem journalAlert_remaps (s : State) (e : JEvent) (as : List Nat) : (journalAlert s e as).remaps = s.remaps := journalPut_remaps s _
@[simp] theorem journalAlert_remapsFlash (s : State) (e : JEvent) (as : List Nat) : (journalAlert s e as).remapsFlash = s.remapsFlash := journalPut_remapsFlash s _
@[simp] theorem journalAlert_repairsFlash (s : State) (e : JEvent) (as : List Nat) : (journalAlert s e as).repairsFlash = s.repairsFlash := journalPut_repairsFlash s _
@[simp] theorem journalAlert_corrRuns (s : State) (e : JEvent) (as : List Nat) : (journalAlert s e as).corrRuns = s.corrRuns := journalPut_corrRuns s _
@[simp] theorem journalAlert_scrubLine (s : State) (e : JEvent) (as : List Nat) : (journalAlert s e as).scrubLine = s.scrubLine := journalPut_scrubLine s _
@[simp] theorem journalAlert_scrubWrap (s : State) (e : JEvent) (as : List Nat) : (journalAlert s e as).scrubWrap = s.scrubWrap := journalPut_scrubWrap s _
@[simp] theorem journalAlert_spareOut (s : State) (e : JEvent) (as : List Nat) : (journalAlert s e as).spareOut = s.spareOut := journalPut_spareOut s _
@[simp] theorem journalAlert_lpddr (s : State) (e : JEvent) (as : List Nat) : (journalAlert s e as).lpddr = s.lpddr := journalPut_lpddr s _
@[simp] theorem journalAlert_lpddrPoison (s : State) (e : JEvent) (as : List Nat) : (journalAlert s e as).lpddrPoison = s.lpddrPoison := journalPut_lpddrPoison s _
@[simp] theorem journalAlert_lpddrBad (s : State) (e : JEvent) (as : List Nat) : (journalAlert s e as).lpddrBad = s.lpddrBad := journalPut_lpddrBad s _
@[simp] theorem journalAlert_chans (s : State) (e : JEvent) (as : List Nat) : (journalAlert s e as).chans = s.chans := journalPut_chans s _
@[simp] theorem journalAlert_pkgs (s : State) (e : JEvent) (as : List Nat) : (journalAlert s e as).pkgs = s.pkgs := journalPut_pkgs s _
@[simp] theorem journalAlert_repairs (s : State) (e : JEvent) (as : List Nat) : (journalAlert s e as).repairs = s.repairs := journalPut_repairs s _
@[simp] theorem journalAlert_keyEff (s : State) (e : JEvent) (as : List Nat) : (journalAlert s e as).keyEff = s.keyEff := journalPut_keyEff s _
@[simp] theorem journalAlert_spillEff (s : State) (e : JEvent) (as : List Nat) : (journalAlert s e as).spillEff = s.spillEff := journalPut_spillEff s _
@[simp] theorem journalAlert_watchEff (s : State) (e : JEvent) (as : List Nat) : (journalAlert s e as).watchEff = s.watchEff := journalPut_watchEff s _
@[simp] theorem journalAlert_rcEff (s : State) (e : JEvent) (as : List Nat) : (journalAlert s e as).rcEff = s.rcEff := journalPut_rcEff s _
@[simp] theorem journalAlert_laserMode (s : State) (e : JEvent) (as : List Nat) : (journalAlert s e as).laserMode = s.laserMode := journalPut_laserMode s _
@[simp] theorem journalAlert_unretired (s : State) (e : JEvent) (as : List Nat) : (journalAlert s e as).unretired = s.unretired := journalPut_unretired s _
@[simp] theorem journalAlert_parts (s : State) (e : JEvent) (as : List Nat) : (journalAlert s e as).parts = s.parts := journalPut_parts s _
@[simp] theorem journalAlert_claims (s : State) (e : JEvent) (as : List Nat) : (journalAlert s e as).claims = s.claims := journalPut_claims s _
@[simp] theorem journalAlert_waitClaims (s : State) (e : JEvent) (as : List Nat) : (journalAlert s e as).waitClaims = s.waitClaims := journalPut_waitClaims s _
@[simp] theorem journalAlert_spills (s : State) (e : JEvent) (as : List Nat) : (journalAlert s e as).spills = s.spills := journalPut_spills s _
@[simp] theorem journalAlert_queues (s : State) (e : JEvent) (as : List Nat) : (journalAlert s e as).queues = s.queues := journalPut_queues s _
@[simp] theorem journalAlert_sync (s : State) (e : JEvent) (as : List Nat) : (journalAlert s e as).sync = s.sync := journalPut_sync s _
@[simp] theorem journalAlert_waiters (s : State) (e : JEvent) (as : List Nat) : (journalAlert s e as).waiters = s.waiters := journalPut_waiters s _
@[simp] theorem journalAlert_cores (s : State) (e : JEvent) (as : List Nat) : (journalAlert s e as).cores = s.cores := journalPut_cores s _
@[simp] theorem journalAlert_schedRR (s : State) (e : JEvent) (as : List Nat) : (journalAlert s e as).schedRR = s.schedRR := journalPut_schedRR s _
@[simp] theorem journalAlert_lasers (s : State) (e : JEvent) (as : List Nat) : (journalAlert s e as).lasers = s.lasers := journalPut_lasers s _
@[simp] theorem journalAlert_rings (s : State) (e : JEvent) (as : List Nat) : (journalAlert s e as).rings = s.rings := journalPut_rings s _
@[simp] theorem journalAlert_rotors (s : State) (e : JEvent) (as : List Nat) : (journalAlert s e as).rotors = s.rotors := journalPut_rotors s _
@[simp] theorem journalAlert_specMap (s : State) (e : JEvent) (as : List Nat) : (journalAlert s e as).specMap = s.specMap := journalPut_specMap s _
@[simp] theorem journalAlert_demand (s : State) (e : JEvent) (as : List Nat) : (journalAlert s e as).demand = s.demand := journalPut_demand s _
@[simp] theorem journalAlert_reassign (s : State) (e : JEvent) (as : List Nat) : (journalAlert s e as).reassign = s.reassign := journalPut_reassign s _
@[simp] theorem journalAlert_recovery (s : State) (e : JEvent) (as : List Nat) : (journalAlert s e as).recovery = s.recovery := journalPut_recovery s _
@[simp] theorem journalAlert_sweptAt (s : State) (e : JEvent) (as : List Nat) : (journalAlert s e as).sweptAt = s.sweptAt := journalPut_sweptAt s _
@[simp] theorem journalAlert_heard (s : State) (e : JEvent) (as : List Nat) : (journalAlert s e as).heard = s.heard := journalPut_heard s _
@[simp] theorem journalAlert_inPeer (s : State) (e : JEvent) (as : List Nat) : (journalAlert s e as).inPeer = s.inPeer := journalPut_inPeer s _
@[simp] theorem journalAlert_peerVer (s : State) (e : JEvent) (as : List Nat) : (journalAlert s e as).peerVer = s.peerVer := journalPut_peerVer s _
@[simp] theorem journalAlert_trainFails (s : State) (e : JEvent) (as : List Nat) : (journalAlert s e as).trainFails = s.trainFails := journalPut_trainFails s _
@[simp] theorem journalAlert_inGrant (s : State) (e : JEvent) (as : List Nat) : (journalAlert s e as).inGrant = s.inGrant := journalPut_inGrant s _
@[simp] theorem journalAlert_strayIn (s : State) (e : JEvent) (as : List Nat) : (journalAlert s e as).strayIn = s.strayIn := journalPut_strayIn s _
@[simp] theorem journalAlert_backDue (s : State) (e : JEvent) (as : List Nat) : (journalAlert s e as).backDue = s.backDue := journalPut_backDue s _
@[simp] theorem journalAlert_needDemand (s : State) (e : JEvent) (as : List Nat) : (journalAlert s e as).needDemand = s.needDemand := journalPut_needDemand s _
@[simp] theorem journalAlert_tapped (s : State) (e : JEvent) (as : List Nat) : (journalAlert s e as).tapped = s.tapped := journalPut_tapped s _
@[simp] theorem journalAlert_links (s : State) (e : JEvent) (as : List Nat) : (journalAlert s e as).links = s.links := journalPut_links s _
@[simp] theorem journalAlert_skewHold (s : State) (e : JEvent) (as : List Nat) : (journalAlert s e as).skewHold = s.skewHold := journalPut_skewHold s _
@[simp] theorem journalAlert_armed (s : State) (e : JEvent) (as : List Nat) : (journalAlert s e as).armed = s.armed := journalPut_armed s _
@[simp] theorem journalAlert_routerW (s : State) (e : JEvent) (as : List Nat) : (journalAlert s e as).routerW = s.routerW := journalPut_routerW s _
@[simp] theorem journalAlert_routerE (s : State) (e : JEvent) (as : List Nat) : (journalAlert s e as).routerE = s.routerE := journalPut_routerE s _
@[simp] theorem journalAlert_windows (s : State) (e : JEvent) (as : List Nat) : (journalAlert s e as).windows = s.windows := journalPut_windows s _
@[simp] theorem journalAlert_outst (s : State) (e : JEvent) (as : List Nat) : (journalAlert s e as).outst = s.outst := journalPut_outst s _
@[simp] theorem journalAlert_nextTag (s : State) (e : JEvent) (as : List Nat) : (journalAlert s e as).nextTag = s.nextTag := journalPut_nextTag s _
@[simp] theorem journalAlert_tagHold (s : State) (e : JEvent) (as : List Nat) : (journalAlert s e as).tagHold = s.tagHold := journalPut_tagHold s _
@[simp] theorem journalAlert_evicted (s : State) (e : JEvent) (as : List Nat) : (journalAlert s e as).evicted = s.evicted := journalPut_evicted s _
@[simp] theorem journalAlert_replay (s : State) (e : JEvent) (as : List Nat) : (journalAlert s e as).replay = s.replay := journalPut_replay s _
@[simp] theorem journalAlert_atoms (s : State) (e : JEvent) (as : List Nat) : (journalAlert s e as).atoms = s.atoms := journalPut_atoms s _
@[simp] theorem journalAlert_wires (s : State) (e : JEvent) (as : List Nat) : (journalAlert s e as).wires = s.wires := journalPut_wires s _
@[simp] theorem journalAlert_admits (s : State) (e : JEvent) (as : List Nat) : (journalAlert s e as).admits = s.admits := journalPut_admits s _
@[simp] theorem journalAlert_rcache (s : State) (e : JEvent) (as : List Nat) : (journalAlert s e as).rcache = s.rcache := journalPut_rcache s _
@[simp] theorem journalAlert_colls (s : State) (e : JEvent) (as : List Nat) : (journalAlert s e as).colls = s.colls := journalPut_colls s _
@[simp] theorem journalAlert_slots (s : State) (e : JEvent) (as : List Nat) : (journalAlert s e as).slots = s.slots := journalPut_slots s _
@[simp] theorem journalAlert_greys (s : State) (e : JEvent) (as : List Nat) : (journalAlert s e as).greys = s.greys := journalPut_greys s _
@[simp] theorem journalAlert_pendColls (s : State) (e : JEvent) (as : List Nat) : (journalAlert s e as).pendColls = s.pendColls := journalPut_pendColls s _
@[simp] theorem journalAlert_ended (s : State) (e : JEvent) (as : List Nat) : (journalAlert s e as).ended = s.ended := journalPut_ended s _
@[simp] theorem journalAlert_collEcho (s : State) (e : JEvent) (as : List Nat) : (journalAlert s e as).collEcho = s.collEcho := journalPut_collEcho s _
@[simp] theorem journalAlert_host (s : State) (e : JEvent) (as : List Nat) : (journalAlert s e as).host = s.host := journalPut_host s _
@[simp] theorem journalAlert_mgmt (s : State) (e : JEvent) (as : List Nat) : (journalAlert s e as).mgmt = s.mgmt := journalPut_mgmt s _
@[simp] theorem journalAlert_power (s : State) (e : JEvent) (as : List Nat) : (journalAlert s e as).power = s.power := journalPut_power s _
@[simp] theorem journalAlert_seqs (s : State) (e : JEvent) (as : List Nat) : (journalAlert s e as).seqs = s.seqs := journalPut_seqs s _
@[simp] theorem journalAlert_sec (s : State) (e : JEvent) (as : List Nat) : (journalAlert s e as).sec = s.sec := journalPut_sec s _
@[simp] theorem journalAlert_iface (s : State) (e : JEvent) (as : List Nat) : (journalAlert s e as).iface = s.iface := journalPut_iface s _

end Sys2Proof.Machine
end

