-- ==== Sys2Proof/Laws/KeepsA.lean ====
section
/-!
SUPPORT. What each shared operation can change (part 1 of 4): a view of the state that no field of its footprint
reaches reads the same after it.
-/

namespace Sys2Proof.Machine

set_option linter.unusedSimpArgs false
set_option linter.unusedTactic false
set_option linter.unreachableTactic false

theorem foldlState {α γ : Type} (g : State → γ) (f : State → α → State) (h : ∀ s a, g (f s a) = g s) (l : List α) (s : State) :
    g (l.foldl f s) = g s := by
  induction l generalizing s with
  | nil => rfl
  | cons a l ih => rw [List.foldl_cons, ih, h]

theorem objPut_keeps {γ : Type} (vw : State → γ) (hg : ∀ s t, vw (footDic s t) = vw s)
    (s : State) (k : ℕ) (v : ℕ) :
    vw (objPut s k v) = vw s := by
  have h0 : ∀ s x0, vw { s with dic := x0 } = vw s := fun s x0 => hg s { s with dic := x0 }
  unfold objPut
  repeat' first | with_reducible rfl | with_reducible refine (foldlState vw _ (fun s a => ?_) _ _).trans ?_ | simp only [h0, foldlState vw, id_eq] | split

theorem objAdd_keeps {γ : Type} (vw : State → γ) (hg : ∀ s t, vw (footDic s t) = vw s)
    (s : State) (k : ℕ) (n : ℕ) :
    vw (objAdd s k n) = vw s := by
  unfold objAdd
  repeat' first | with_reducible rfl | with_reducible refine (foldlState vw _ (fun s a => ?_) _ _).trans ?_ | simp only [objPut_keeps vw hg, foldlState vw, id_eq] | split

theorem objInc_keeps {γ : Type} (vw : State → γ) (hg : ∀ s t, vw (footDic s t) = vw s)
    (s : State) (k : ℕ) :
    vw (objInc s k) = vw s := by
  unfold objInc
  repeat' first | with_reducible rfl | with_reducible refine (foldlState vw _ (fun s a => ?_) _ _).trans ?_ | simp only [objAdd_keeps vw hg, foldlState vw, id_eq] | split

theorem objMax_keeps {γ : Type} (vw : State → γ) (hg : ∀ s t, vw (footDic s t) = vw s)
    (s : State) (k : ℕ) (v : ℕ) :
    vw (objMax s k v) = vw s := by
  unfold objMax
  repeat' first | with_reducible rfl | with_reducible refine (foldlState vw _ (fun s a => ?_) _ _).trans ?_ | simp only [objPut_keeps vw hg, foldlState vw, id_eq] | split

theorem objBit_keeps {γ : Type} (vw : State → γ) (hg : ∀ s t, vw (footDic s t) = vw s)
    (s : State) (k : ℕ) (i : ℕ) (b : Bool) :
    vw (objBit s k i b) = vw s := by
  unfold objBit
  repeat' first | with_reducible rfl | with_reducible refine (foldlState vw _ (fun s a => ?_) _ _).trans ?_ | simp only [objPut_keeps vw hg, foldlState vw, id_eq] | split

theorem domPut_keeps {γ : Type} (vw : State → γ) (hg : ∀ s t, vw (footDoms s t) = vw s)
    (s : State) (k : ℕ) (b : Bytes) :
    vw (domPut s k b) = vw s := by
  have h0 : ∀ s x0, vw { s with doms := x0 } = vw s := fun s x0 => hg s { s with doms := x0 }
  unfold domPut
  repeat' first | with_reducible rfl | with_reducible refine (foldlState vw _ (fun s a => ?_) _ _).trans ?_ | simp only [h0, foldlState vw, id_eq] | split

theorem emit_keeps {γ : Type} (vw : State → γ) (hg : ∀ s t, vw (footOut s t) = vw s)
    (s : State) (o : Out) :
    vw (emit s o) = vw s := by
  have h0 : ∀ s x0, vw { s with out := x0 } = vw s := fun s x0 => hg s { s with out := x0 }
  unfold emit
  repeat' first | with_reducible rfl | with_reducible refine (foldlState vw _ (fun s a => ?_) _ _).trans ?_ | simp only [h0, foldlState vw, id_eq] | split

theorem freeStep_keeps {γ : Type} (vw : State → γ) (hg : ∀ s t, vw (footFree s t) = vw s)
    (s : State) :
    vw (freeStep s) = vw s := by
  have h0 : ∀ s x0, vw { s with free := x0 } = vw s := fun s x0 => hg s { s with free := x0 }
  unfold freeStep
  repeat' first | with_reducible rfl | with_reducible refine (foldlState vw _ (fun s a => ?_) _ _).trans ?_ | simp only [h0, foldlState vw, id_eq] | split

theorem alert_keeps {γ : Type} (vw : State → γ) (hg : ∀ s t, vw (footDic s t) = vw s)
    (s : State) :
    vw (alert s) = vw s := by
  unfold alert
  repeat' first | with_reducible rfl | with_reducible refine (foldlState vw _ (fun s a => ?_) _ _).trans ?_ | simp only [objInc_keeps vw hg, foldlState vw, id_eq] | split

theorem journalPut_keeps {γ : Type} (vw : State → γ) (hg : ∀ s t, vw (footDicObs s t) = vw s)
    (s : State) (n : JEntry) :
    vw (journalPut s n) = vw s := by
  have h0 : ∀ s x0, vw { s with obs := x0 } = vw s := fun s x0 => hg s { s with obs := x0 }
  unfold journalPut
  repeat' first | with_reducible rfl | with_reducible refine (foldlState vw _ (fun s a => ?_) _ _).trans ?_ | simp only [h0, objInc_keeps vw (fun s t => hg s (footDic s t)), foldlState vw, id_eq] | split

theorem journal_keeps {γ : Type} (vw : State → γ) (hg : ∀ s t, vw (footDicObs s t) = vw s)
    (s : State) (e : JEvent) (args : List ℕ) :
    vw (journal s e args) = vw s := by
  unfold journal
  repeat' first | with_reducible rfl | with_reducible refine (foldlState vw _ (fun s a => ?_) _ _).trans ?_ | simp only [journalPut_keeps vw hg, foldlState vw, id_eq] | split

theorem journalAlert_keeps {γ : Type} (vw : State → γ) (hg : ∀ s t, vw (footDicObs s t) = vw s)
    (s : State) (e : JEvent) (args : List ℕ) :
    vw (journalAlert s e args) = vw s := by
  unfold journalAlert
  repeat' first | with_reducible rfl | with_reducible refine (foldlState vw _ (fun s a => ?_) _ _).trans ?_ | simp only [journalPut_keeps vw hg, alert_keeps vw (fun s t => hg s (footDic s t)), foldlState vw, id_eq] | split

theorem countAddrError_keeps {γ : Type} (vw : State → γ) (hg : ∀ s t, vw (footDic s t) = vw s)
    (s : State) (off : ℕ) :
    vw (countAddrError s off) = vw s := by
  unfold countAddrError
  repeat' first | with_reducible rfl | with_reducible refine (foldlState vw _ (fun s a => ?_) _ _).trans ?_ | simp only [objInc_keeps vw hg, foldlState vw, id_eq] | split

theorem afterRead_keeps {γ : Type} (vw : State → γ) (hg : ∀ s t, vw (footFree s t) = vw s)
    (s : State) (off : ℕ) (n : ℕ) :
    vw (afterRead s off n) = vw s := by
  have h0 : ∀ s x0, vw { s with free := x0 } = vw s := fun s x0 => hg s { s with free := x0 }
  unfold afterRead
  repeat' first | with_reducible rfl | with_reducible refine (foldlState vw _ (fun s a => ?_) _ _).trans ?_ | simp only [h0, foldlState vw, id_eq] | split

theorem writeTileLine_keeps {γ : Type} (vw : State → γ) (hg : ∀ s t, vw (footTileTilePoison s t) = vw s)
    (s : State) (line : ℕ) (mask : ℕ) (data : Bytes) (poison : Bool) :
    vw (writeTileLine s line mask data poison) = vw s := by
  have h0 : ∀ s x0 x1, vw { s with tile := x0, tilePoison := x1 } = vw s := fun s x0 x1 => hg s { s with tile := x0, tilePoison := x1 }
  unfold writeTileLine
  repeat' first | with_reducible rfl | with_reducible refine (foldlState vw _ (fun s a => ?_) _ _).trans ?_ | simp only [h0, foldlState vw, id_eq] | split

theorem writeLpddrLine_keeps {γ : Type} (vw : State → γ) (hg : ∀ s t, vw (foot4_22 s t) = vw s)
    (s : State) (line : ℕ) (mask : ℕ) (data : Bytes) (poison : Bool) :
    vw (writeLpddrLine s line mask data poison) = vw s := by
  have h0 : ∀ s x0 x1 x2 x3, vw { s with free := x0, lpddr := x1, lpddrPoison := x2, lpddrBad := x3 } = vw s := fun s x0 x1 x2 x3 => hg s { s with free := x0, lpddr := x1, lpddrPoison := x2, lpddrBad := x3 }
  unfold writeLpddrLine
  repeat' first | with_reducible rfl | with_reducible refine (foldlState vw _ (fun s a => ?_) _ _).trans ?_ | simp only [h0, foldlState vw, id_eq] | split

theorem updChan_keeps {γ : Type} (vw : State → γ) (hg : ∀ s t, vw (footChans s t) = vw s)
    (s : State) (ch : ℕ) (f : Chan → Chan) :
    vw (updChan s ch f) = vw s := by
  have h0 : ∀ s x0, vw { s with chans := x0 } = vw s := fun s x0 => hg s { s with chans := x0 }
  unfold updChan
  repeat' first | with_reducible rfl | with_reducible refine (foldlState vw _ (fun s a => ?_) _ _).trans ?_ | simp only [h0, foldlState vw, id_eq] | split

theorem noteWrite_keeps {γ : Type} (vw : State → γ) (hg : ∀ s t, vw (footDicChans s t) = vw s)
    (s : State) (line : ℕ) :
    vw (noteWrite s line) = vw s := by
  unfold noteWrite
  repeat' first | with_reducible rfl | with_reducible refine (foldlState vw _ (fun s a => ?_) _ _).trans ?_ | simp only [updChan_keeps vw (fun s t => hg s (footChans s t)), objInc_keeps vw (fun s t => hg s (footDic s t)), foldlState vw, id_eq] | split

theorem writeLine_keeps {γ : Type} (vw : State → γ) (hg : ∀ s t, vw (foot8_5 s t) = vw s)
    (s : State) (off : ℕ) (mask : ℕ) (data : Bytes) (poison : Bool) :
    vw (writeLine s off mask data poison) = vw s := by
  unfold writeLine
  repeat' first | with_reducible rfl | with_reducible refine (foldlState vw _ (fun s a => ?_) _ _).trans ?_ | simp only [writeTileLine_keeps vw (fun s t => hg s (footTileTilePoison s t)), writeLpddrLine_keeps vw (fun s t => hg s (foot4_22 s t)), noteWrite_keeps vw (fun s t => hg s (footDicChans s t)), foldlState vw, id_eq] | split

theorem writeRun_keeps {γ : Type} (vw : State → γ) (hg : ∀ s t, vw (foot8_5 s t) = vw s)
    (s : State) (off : ℕ) (data : Bytes) (poison : Bool) (x1 : ℕ) :
    vw (writeRun s off data poison x1) = vw s := by
  fun_induction writeRun s off data poison x1
  all_goals repeat' first | with_reducible rfl | assumption | with_reducible refine (foldlState vw _ (fun s a => ?_) _ _).trans ?_ | simp only [*, writeLine_keeps vw hg, foldlState vw, id_eq] | split | simp +zetaDelta only [writeLine_keeps vw hg, foldlState vw, id_eq]

theorem writeBytes_keeps {γ : Type} (vw : State → γ) (hg : ∀ s t, vw (foot8_5 s t) = vw s)
    (s : State) (off : ℕ) (data : Bytes) (poison : Bool) :
    vw (writeBytes s off data poison) = vw s := by
  unfold writeBytes
  repeat' first | with_reducible rfl | with_reducible refine (foldlState vw _ (fun s a => ?_) _ _).trans ?_ | simp only [writeRun_keeps vw hg, foldlState vw, id_eq] | split

theorem dimStall_keeps {γ : Type} (vw : State → γ) (hg : ∀ s t, vw (footDicChans s t) = vw s)
    (s : State) (ch : ℕ) (key : ℕ × ℕ × ℕ) :
    vw (dimStall s ch key) = vw s := by
  unfold dimStall
  repeat' first | with_reducible rfl | with_reducible refine (foldlState vw _ (fun s a => ?_) _ _).trans ?_ | simp only [updChan_keeps vw (fun s t => hg s (footChans s t)), objInc_keeps vw (fun s t => hg s (footDic s t)), foldlState vw, id_eq] | split

theorem pastDim_keeps {γ : Type} (vw : State → γ) (hg : ∀ s t, vw (footDicChans s t) = vw s)
    (s : State) (off : ℕ) (n : ℕ) (key : ℕ × ℕ × ℕ) (go : State → State)
    (h_go : ∀ s, vw (go s) = vw s) :
    vw (pastDim s off n key go) = vw s := by
  unfold pastDim
  repeat' first | with_reducible rfl | with_reducible refine (foldlState vw _ (fun s a => ?_) _ _).trans ?_ | simp only [h_go, dimStall_keeps vw hg, foldlState vw, id_eq] | split

theorem islandEvent_keeps {γ : Type} (vw : State → γ) (hg : ∀ s t, vw (footWires s t) = vw s)
    (s : State) (i : Island) (key : ℕ) (n : ℕ) :
    vw (islandEvent s i key n) = vw s := by
  have h0 : ∀ s x0, vw { s with wires := x0 } = vw s := fun s x0 => hg s { s with wires := x0 }
  unfold islandEvent
  repeat' first | with_reducible rfl | with_reducible refine (foldlState vw _ (fun s a => ?_) _ _).trans ?_ | simp only [h0, foldlState vw, id_eq] | split

theorem readCounts_keeps {γ : Type} (vw : State → γ) (hg : ∀ s t, vw (footDicWires s t) = vw s)
    (s : State) (k : ℕ) :
    vw (readCounts s k) = vw s := by
  have h0 : ∀ s x0, vw { s with wires := x0 } = vw s := fun s x0 => hg s { s with wires := x0 }
  unfold readCounts
  repeat' first | with_reducible rfl | with_reducible refine (foldlState vw _ (fun s a => ?_) _ _).trans ?_ | simp only [h0, objAdd_keeps vw (fun s t => hg s (footDic s t)), foldlState vw, id_eq] | split

theorem settleWire_keeps {γ : Type} (vw : State → γ) (hg : ∀ s t, vw (footDicWires s t) = vw s)
    (s : State) (k : ℕ) :
    vw (settleWire s k) = vw s := by
  have h0 : ∀ s x0, vw { s with wires := x0 } = vw s := fun s x0 => hg s { s with wires := x0 }
  unfold settleWire
  repeat' first | with_reducible rfl | with_reducible refine (foldlState vw _ (fun s a => ?_) _ _).trans ?_ | simp only [h0, readCounts_keeps vw hg, foldlState vw, id_eq] | split

theorem settleWires_keeps {γ : Type} (vw : State → γ) (hg : ∀ s t, vw (footDicWires s t) = vw s)
    (s : State) :
    vw (settleWires s) = vw s := by
  unfold settleWires
  repeat' first | with_reducible rfl | with_reducible refine (foldlState vw _ (fun s a => ?_) _ _).trans ?_ | simp only [settleWire_keeps vw hg, foldlState vw, id_eq] | split

theorem islandReset_keeps {γ : Type} (vw : State → γ) (hg : ∀ s t, vw (footDicWires s t) = vw s)
    (s : State) (i : Island) :
    vw (islandReset s i) = vw s := by
  have h0 : ∀ s x0, vw { s with wires := x0 } = vw s := fun s x0 => hg s { s with wires := x0 }
  unfold islandReset
  repeat' first | with_reducible rfl | with_reducible refine (foldlState vw _ (fun s a => ?_) _ _).trans ?_ | simp only [h0, readCounts_keeps vw hg, foldlState vw, id_eq] | split

theorem applyTst_keeps {γ : Type} (vw : State → γ) (hg : ∀ s t, vw (footDicTilePoison s t) = vw s)
    (s : State) (slice : ℕ) (x1 : List TstEvent) :
    vw (applyTst s slice x1) = vw s := by
  have h0 : ∀ s x0, vw { s with tilePoison := x0 } = vw s := fun s x0 => hg s { s with tilePoison := x0 }
  fun_induction applyTst s slice x1
  all_goals repeat' first | with_reducible rfl | assumption | with_reducible refine (foldlState vw _ (fun s a => ?_) _ _).trans ?_ | simp only [*, h0, objInc_keeps vw (fun s t => hg s (footDic s t)), foldlState vw, id_eq] | split | simp +zetaDelta only [h0, objInc_keeps vw (fun s t => hg s (footDic s t)), foldlState vw, id_eq]

theorem noteRow_keeps {γ : Type} (vw : State → γ) (hg : ∀ s t, vw (footChans s t) = vw s)
    (s : State) (line : ℕ) (pass : Option ℕ) :
    vw (noteRow s line pass) = vw s := by
  unfold noteRow
  repeat' first | with_reducible rfl | with_reducible refine (foldlState vw _ (fun s a => ?_) _ _).trans ?_ | simp only [updChan_keeps vw hg, foldlState vw, id_eq] | split

theorem noteCorrected_keeps {γ : Type} (vw : State → γ) (hg : ∀ s t, vw (footChansWires s t) = vw s)
    (s : State) (line : ℕ) :
    vw (noteCorrected s line) = vw s := by
  unfold noteCorrected
  repeat' first | with_reducible rfl | with_reducible refine (foldlState vw _ (fun s a => ?_) _ _).trans ?_ | simp only [updChan_keeps vw (fun s t => hg s (footChans s t)), islandEvent_keeps vw (fun s t => hg s (footWires s t)), foldlState vw, id_eq] | split

theorem readDecoded_keeps {γ : Type} (vw : State → γ) (hg : ∀ s t, vw (footLpddrBadChansWires s t) = vw s)
    (s : State) (line : ℕ) (e : Ecc) :
    vw (readDecoded s line e) = vw s := by
  have h0 : ∀ s x0, vw { s with lpddrBad := x0 } = vw s := fun s x0 => hg s { s with lpddrBad := x0 }
  unfold readDecoded
  repeat' first | with_reducible rfl | with_reducible refine (foldlState vw _ (fun s a => ?_) _ _).trans ?_ | simp only [h0, noteRow_keeps vw (fun s t => hg s (footChans s t)), islandEvent_keeps vw (fun s t => hg s (footWires s t)), noteCorrected_keeps vw (fun s t => hg s (footChansWires s t)), foldlState vw, id_eq] | split

theorem lineFound_keeps {γ : Type} (vw : State → γ) (hg : ∀ s t, vw (foot5_11 s t) = vw s)
    (s : State) (x : LineEvent) :
    vw (lineFound s x) = vw s := by
  have h0 : ∀ s x0, vw { s with tilePoison := x0 } = vw s := fun s x0 => hg s { s with tilePoison := x0 }
  unfold lineFound
  repeat' first | with_reducible rfl | with_reducible refine (foldlState vw _ (fun s a => ?_) _ _).trans ?_ | simp only [h0, objInc_keeps vw (fun s t => hg s (footDic s t)), readDecoded_keeps vw (fun s t => hg s (footLpddrBadChansWires s t)), foldlState vw, id_eq] | split

theorem linesFound_keeps {γ : Type} (vw : State → γ) (hg : ∀ s t, vw (foot5_11 s t) = vw s)
    (s : State) (lines : List ℕ) (ev : List LineEvent) :
    vw (linesFound s lines ev) = vw s := by
  unfold linesFound
  repeat' first | with_reducible rfl | with_reducible refine (foldlState vw _ (fun s a => ?_) _ _).trans ?_ | simp only [lineFound_keeps vw hg, foldlState vw, id_eq] | split

theorem releaseWaits_keeps {γ : Type} (vw : State → γ) (hg : ∀ s t, vw (footWaiters s t) = vw s)
    (s : State) (o : ℕ) (v : ℕ) :
    vw (releaseWaits s o v) = vw s := by
  have h0 : ∀ s x0, vw { s with waiters := x0 } = vw s := fun s x0 => hg s { s with waiters := x0 }
  unfold releaseWaits
  repeat' first | with_reducible rfl | with_reducible refine (foldlState vw _ (fun s a => ?_) _ _).trans ?_ | simp only [h0, foldlState vw, id_eq] | split

theorem releaseClaims_keeps {γ : Type} (vw : State → γ) (hg : ∀ s t, vw (footClaims s t) = vw s)
    (s : State) (o : ℕ) (v : ℕ) :
    vw (releaseClaims s o v) = vw s := by
  have h0 : ∀ s x0, vw { s with claims := x0 } = vw s := fun s x0 => hg s { s with claims := x0 }
  unfold releaseClaims
  repeat' first | with_reducible rfl | with_reducible refine (foldlState vw _ (fun s a => ?_) _ _).trans ?_ | simp only [h0, foldlState vw, id_eq] | split

theorem syncPut_keeps {γ : Type} (vw : State → γ) (hg : ∀ s t, vw (footClaimsSyncWaiters s t) = vw s)
    (s : State) (o : ℕ) (v : Word64) :
    vw (syncPut s o v) = vw s := by
  have h0 : ∀ s x0, vw { s with sync := x0 } = vw s := fun s x0 => hg s { s with sync := x0 }
  unfold syncPut
  repeat' first | with_reducible rfl | with_reducible refine (foldlState vw _ (fun s a => ?_) _ _).trans ?_ | simp only [h0, releaseWaits_keeps vw (fun s t => hg s (footWaiters s t)), releaseClaims_keeps vw (fun s t => hg s (footClaims s t)), foldlState vw, id_eq] | split

theorem syncAdd_keeps {γ : Type} (vw : State → γ) (hg : ∀ s t, vw (footClaimsSyncWaiters s t) = vw s)
    (s : State) (o : ℕ) (amount : ℕ) :
    vw (syncAdd s o amount) = vw s := by
  unfold syncAdd
  repeat' first | with_reducible rfl | with_reducible refine (foldlState vw _ (fun s a => ?_) _ _).trans ?_ | simp only [syncPut_keeps vw hg, foldlState vw, id_eq] | split

theorem backInvalidate_keeps {γ : Type} (vw : State → γ) (hg : ∀ s t, vw (footOutHost s t) = vw s)
    (s : State) (read : Bool) (x1 : List ℕ) :
    vw (backInvalidate s read x1) = vw s := by
  have h0 : ∀ s x0, vw { s with host := x0 } = vw s := fun s x0 => hg s { s with host := x0 }
  fun_induction backInvalidate s read x1
  all_goals repeat' first | with_reducible rfl | assumption | with_reducible refine (foldlState vw _ (fun s a => ?_) _ _).trans ?_ | simp only [*, h0, emit_keeps vw (fun s t => hg s (footOut s t)), foldlState vw, id_eq] | split | simp +zetaDelta only [h0, emit_keeps vw (fun s t => hg s (footOut s t)), foldlState vw, id_eq]

theorem pastSnoop_keeps {γ : Type} (vw : State → γ) (hg : ∀ s t, vw (footOutHost s t) = vw s)
    (s : State) (read : Bool) (lines : List ℕ) (go : State → State)
    (h_go : ∀ s, vw (go s) = vw s) :
    vw (pastSnoop s read lines go) = vw s := by
  unfold pastSnoop
  repeat' first | with_reducible rfl | with_reducible refine (foldlState vw _ (fun s a => ?_) _ _).trans ?_ | simp only [h_go, backInvalidate_keeps vw hg, foldlState vw, id_eq] | split

theorem forgetBad_keeps {γ : Type} (vw : State → γ) (hg : ∀ s t, vw (footHost s t) = vw s)
    (s : State) (lines : List ℕ) :
    vw (forgetBad s lines) = vw s := by
  have h0 : ∀ s x0, vw { s with host := x0 } = vw s := fun s x0 => hg s { s with host := x0 }
  unfold forgetBad
  repeat' first | with_reducible rfl | with_reducible refine (foldlState vw _ (fun s a => ?_) _ _).trans ?_ | simp only [h0, foldlState vw, id_eq] | split

theorem pastLocal_keeps {γ : Type} (vw : State → γ) (hg : ∀ s t, vw (foot4_23 s t) = vw s)
    (s : State) (off : ℕ) (n : ℕ) (key : ℕ × ℕ × ℕ) (go : State → State)
    (h_go : ∀ s, vw (go s) = vw s) :
    vw (pastLocal s off n key go) = vw s := by
  have k_pastDim := pastDim_keeps vw (fun s t => hg s (footDicChans s t))
  have k_pastSnoop := pastSnoop_keeps vw (fun s t => hg s (footOutHost s t))
  unfold pastLocal
  repeat' first | with_reducible rfl | with_reducible refine (foldlState vw _ (fun s a => ?_) _ _).trans ?_ | with_reducible refine (k_pastDim _ _ _ _ _ (fun _ => ?_)).trans ?_ | with_reducible refine (k_pastSnoop _ _ _ _ (fun _ => ?_)).trans ?_ | simp only [h_go, pastDim_keeps vw (fun s t => hg s (footDicChans s t)), pastSnoop_keeps vw (fun s t => hg s (footOutHost s t)), foldlState vw, id_eq] | split

theorem readPastDim_keeps {γ : Type} (vw : State → γ) (hg : ∀ s t, vw (foot4_23 s t) = vw s)
    (s : State) (addr : ℕ) (n : ℕ) (key : ℕ × ℕ × ℕ) (go : State → State)
    (h_go : ∀ s, vw (go s) = vw s) :
    vw (readPastDim s addr n key go) = vw s := by
  unfold readPastDim
  repeat' first | with_reducible rfl | with_reducible refine (foldlState vw _ (fun s a => ?_) _ _).trans ?_ | with_reducible refine (pastLocal_keeps vw hg _ _ _ _ _ (fun _ => ?_)).trans ?_ | simp only [h_go, pastLocal_keeps vw hg, foldlState vw, id_eq] | split

theorem updRouter_keeps {γ : Type} (vw : State → γ) (hg : ∀ s t, vw (footRouterWRouterE s t) = vw s)
    (s : State) (h : Half) (f : Router → Router) :
    vw (updRouter s h f) = vw s := by
  have h0 : ∀ s x0 x1, vw { s with routerW := x0, routerE := x1 } = vw s := fun s x0 x1 => hg s { s with routerW := x0, routerE := x1 }
  unfold updRouter
  repeat' first | with_reducible rfl | with_reducible refine (foldlState vw _ (fun s a => ?_) _ _).trans ?_ | simp only [h0, foldlState vw, id_eq] | split

theorem inject_keeps {γ : Type} (vw : State → γ) (hg : ∀ s t, vw (footRouterWRouterE s t) = vw s)
    (s : State) (h : Half) (p : Packet) (from_ : Option ℕ) (copies : (Option (Bool × Bool × Bool))) :
    vw (inject s h p from_ copies) = vw s := by
  unfold inject
  repeat' first | with_reducible rfl | with_reducible refine (foldlState vw _ (fun s a => ?_) _ _).trans ?_ | simp only [updRouter_keeps vw hg, foldlState vw, id_eq] | split

theorem nextReplySeq_keeps {γ : Type} (vw : State → γ) (hg : ∀ s t, vw (footRouterWRouterE s t) = vw s)
    (s : State) (h : Half) :
    vw (nextReplySeq s h) = vw s := by
  unfold nextReplySeq
  repeat' first | with_reducible rfl | with_reducible refine (foldlState vw _ (fun s a => ?_) _ _).trans ?_ | simp only [updRouter_keeps vw hg, foldlState vw, id_eq] | split

theorem nextCollSeq_keeps {γ : Type} (vw : State → γ) (hg : ∀ s t, vw (footRouterWRouterE s t) = vw s)
    (s : State) (h : Half) :
    vw (nextCollSeq s h) = vw s := by
  unfold nextCollSeq
  repeat' first | with_reducible rfl | with_reducible refine (foldlState vw _ (fun s a => ?_) _ _).trans ?_ | simp only [updRouter_keeps vw hg, foldlState vw, id_eq] | split

theorem takeSeq_keeps {γ : Type} (vw : State → γ) (hg : ∀ s t, vw (footDicRouterWRouterE s t) = vw s)
    (s : State) (h : Half) :
    vw (takeSeq s h) = vw s := by
  unfold takeSeq
  repeat' first | with_reducible rfl | with_reducible refine (foldlState vw _ (fun s a => ?_) _ _).trans ?_ | simp only [objInc_keeps vw (fun s t => hg s (footDic s t)), updRouter_keeps vw (fun s t => hg s (footRouterWRouterE s t)), foldlState vw, id_eq] | split

theorem sendRequest_keeps {γ : Type} (vw : State → γ) (hg : ∀ s t, vw (foot5_10 s t) = vw s)
    (s : State) (h : Half) (dest : ℕ) (off : ℕ) (op : FabOp) (who : Requester) (fill : Bool) (want : ℕ) :
    vw (sendRequest s h dest off op who fill want) = vw s := by
  have h0 : ∀ s x0 x1, vw { s with outst := x0, nextTag := x1 } = vw s := fun s x0 x1 => hg s { s with outst := x0, nextTag := x1 }
  unfold sendRequest
  repeat' first | with_reducible rfl | with_reducible refine (foldlState vw _ (fun s a => ?_) _ _).trans ?_ | simp only [h0, inject_keeps vw (fun s t => hg s (footRouterWRouterE s t)), takeSeq_keeps vw (fun s t => hg s (footDicRouterWRouterE s t)), foldlState vw, id_eq] | split

theorem sendVector_keeps {γ : Type} (vw : State → γ) (hg : ∀ s t, vw (footOutHost s t) = vw s)
    (s : State) (v : ℕ) :
    vw (sendVector s v) = vw s := by
  have h0 : ∀ s x0, vw { s with host := x0 } = vw s := fun s x0 => hg s { s with host := x0 }
  unfold sendVector
  repeat' first | with_reducible rfl | with_reducible refine (foldlState vw _ (fun s a => ?_) _ _).trans ?_ | simp only [h0, emit_keeps vw (fun s t => hg s (footOut s t)), foldlState vw, id_eq] | split

theorem updQ_keeps {γ : Type} (vw : State → γ) (hg : ∀ s t, vw (footQueues s t) = vw s)
    (s : State) (q : ℕ) (f : Queue → Queue) :
    vw (updQ s q f) = vw s := by
  have h0 : ∀ s x0, vw { s with queues := x0 } = vw s := fun s x0 => hg s { s with queues := x0 }
  unfold updQ
  repeat' first | with_reducible rfl | with_reducible refine (foldlState vw _ (fun s a => ?_) _ _).trans ?_ | simp only [h0, foldlState vw, id_eq] | split

theorem writeQueueMem_keeps {γ : Type} (vw : State → γ) (hg : ∀ s t, vw (foot9_6 s t) = vw s)
    (s : State) (addr : ℕ) (data : Bytes) :
    vw (writeQueueMem s addr data) = vw s := by
  unfold writeQueueMem
  repeat' first | with_reducible rfl | with_reducible refine (foldlState vw _ (fun s a => ?_) _ _).trans ?_ | simp only [countAddrError_keeps vw (fun s t => hg s (footDic s t)), emit_keeps vw (fun s t => hg s (footOut s t)), writeBytes_keeps vw (fun s t => hg s (foot8_5 s t)), foldlState vw, id_eq] | split

theorem sendQueueIrqs_keeps {γ : Type} (vw : State → γ) (hg : ∀ s t, vw (footOutQueuesHost s t) = vw s)
    (s : State) (q : ℕ) :
    vw (sendQueueIrqs s q) = vw s := by
  unfold sendQueueIrqs
  repeat' first | with_reducible rfl | with_reducible refine (foldlState vw _ (fun s a => ?_) _ _).trans ?_ | simp only [sendVector_keeps vw (fun s t => hg s (footOutHost s t)), updQ_keeps vw (fun s t => hg s (footQueues s t)), foldlState vw, id_eq] | split

theorem raiseTrap_keeps {γ : Type} (vw : State → γ) (hg : ∀ s t, vw (footOutQueuesHost s t) = vw s)
    (s : State) (q : ℕ) :
    vw (raiseTrap s q) = vw s := by
  unfold raiseTrap
  repeat' first | with_reducible rfl | with_reducible refine (foldlState vw _ (fun s a => ?_) _ _).trans ?_ | simp only [sendQueueIrqs_keeps vw hg, updQ_keeps vw (fun s t => hg s (footQueues s t)), foldlState vw, id_eq] | split

theorem raiseCpl_keeps {γ : Type} (vw : State → γ) (hg : ∀ s t, vw (footOutQueuesHost s t) = vw s)
    (s : State) (q : ℕ) :
    vw (raiseCpl s q) = vw s := by
  unfold raiseCpl
  repeat' first | with_reducible rfl | with_reducible refine (foldlState vw _ (fun s a => ?_) _ _).trans ?_ | simp only [sendQueueIrqs_keeps vw hg, updQ_keeps vw (fun s t => hg s (footQueues s t)), foldlState vw, id_eq] | split

theorem raiseErr_keeps {γ : Type} (vw : State → γ) (hg : ∀ s t, vw (footOutQueuesHost s t) = vw s)
    (s : State) (q : ℕ) :
    vw (raiseErr s q) = vw s := by
  unfold raiseErr
  repeat' first | with_reducible rfl | with_reducible refine (foldlState vw _ (fun s a => ?_) _ _).trans ?_ | simp only [sendQueueIrqs_keeps vw hg, updQ_keeps vw (fun s t => hg s (footQueues s t)), foldlState vw, id_eq] | split

theorem putRecord_keeps {γ : Type} (vw : State → γ) (hg : ∀ s t, vw (foot11_5 s t) = vw s)
    (s : State) (q : ℕ) (v : Queue) (words : List Word64) :
    vw (putRecord s q v words) = vw s := by
  unfold putRecord
  repeat' first | with_reducible rfl | with_reducible refine (foldlState vw _ (fun s a => ?_) _ _).trans ?_ | simp only [raiseCpl_keeps vw (fun s t => hg s (footOutQueuesHost s t)), writeQueueMem_keeps vw (fun s t => hg s (foot9_6 s t)), updQ_keeps vw (fun s t => hg s (footQueues s t)), foldlState vw, id_eq] | split

theorem askSlot_keeps {γ : Type} (vw : State → γ) (hg : ∀ s t, vw (footOutHost s t) = vw s)
    (s : State) (v : Queue) :
    vw (askSlot s v) = vw s := by
  unfold askSlot
  repeat' first | with_reducible rfl | with_reducible refine (foldlState vw _ (fun s a => ?_) _ _).trans ?_ | simp only [backInvalidate_keeps vw hg, foldlState vw, id_eq] | split

theorem parkRecord_keeps {γ : Type} (vw : State → γ) (hg : ∀ s t, vw (footOutQueuesHost s t) = vw s)
    (s : State) (q : ℕ) (v : Queue) (w : Parked) :
    vw (parkRecord s q v w) = vw s := by
  unfold parkRecord
  repeat' first | with_reducible rfl | with_reducible refine (foldlState vw _ (fun s a => ?_) _ _).trans ?_ | simp only [askSlot_keeps vw (fun s t => hg s (footOutHost s t)), updQ_keeps vw (fun s t => hg s (footQueues s t)), foldlState vw, id_eq] | split

theorem writeRecord_keeps {γ : Type} (vw : State → γ) (hg : ∀ s t, vw (foot11_5 s t) = vw s)
    (s : State) (q : ℕ) (words : List Word64) :
    vw (writeRecord s q words) = vw s := by
  unfold writeRecord
  repeat' first | with_reducible rfl | with_reducible refine (foldlState vw _ (fun s a => ?_) _ _).trans ?_ | simp only [putRecord_keeps vw hg, parkRecord_keeps vw (fun s t => hg s (footOutQueuesHost s t)), foldlState vw, id_eq] | split

theorem writeSpare_keeps {γ : Type} (vw : State → γ) (hg : ∀ s t, vw (foot11_5 s t) = vw s)
    (s : State) (q : ℕ) (words : List Word64) :
    vw (writeSpare s q words) = vw s := by
  unfold writeSpare
  repeat' first | with_reducible rfl | with_reducible refine (foldlState vw _ (fun s a => ?_) _ _).trans ?_ | simp only [putRecord_keeps vw hg, parkRecord_keeps vw (fun s t => hg s (footOutQueuesHost s t)), foldlState vw, id_eq] | split

theorem remoteSignalFailed_keeps {γ : Type} (vw : State → γ) (hg : ∀ s t, vw (foot5_15 s t) = vw s)
    (s : State) (q : ℕ) (seq : ℕ) :
    vw (remoteSignalFailed s q seq) = vw s := by
  unfold remoteSignalFailed
  repeat' first | with_reducible rfl | with_reducible refine (foldlState vw _ (fun s a => ?_) _ _).trans ?_ | simp only [journal_keeps vw (fun s t => hg s (footDicObs s t)), objInc_keeps vw (fun s t => hg s (footDic s t)), updQ_keeps vw (fun s t => hg s (footQueues s t)), raiseErr_keeps vw (fun s t => hg s (footOutQueuesHost s t)), foldlState vw, id_eq] | split

theorem remoteSignal_keeps {γ : Type} (vw : State → γ) (hg : ∀ s t, vw (foot12_3 s t) = vw s)
    (s : State) (h : Half) (q : ℕ) (seq : ℕ) (c : ℕ) (obj : ℕ) (amount : ℕ) :
    vw (remoteSignal s h q seq c obj amount) = vw s := by
  unfold remoteSignal
  repeat' first | with_reducible rfl | with_reducible refine (foldlState vw _ (fun s a => ?_) _ _).trans ?_ | simp only [syncAdd_keeps vw (fun s t => hg s (footClaimsSyncWaiters s t)), countAddrError_keeps vw (fun s t => hg s (footDic s t)), objInc_keeps vw (fun s t => hg s (footDic s t)), remoteSignalFailed_keeps vw (fun s t => hg s (foot5_15 s t)), sendRequest_keeps vw (fun s t => hg s (foot5_10 s t)), foldlState vw, id_eq] | split

theorem tailSignal_keeps {γ : Type} (vw : State → γ) (hg : ∀ s t, vw (foot12_3 s t) = vw s)
    (s : State) (h : Half) (q : ℕ) (seq : ℕ) (ws : List Word64) :
    vw (tailSignal s h q seq ws) = vw s := by
  unfold tailSignal
  repeat' first | with_reducible rfl | with_reducible refine (foldlState vw _ (fun s a => ?_) _ _).trans ?_ | simp only [syncAdd_keeps vw (fun s t => hg s (footClaimsSyncWaiters s t)), remoteSignal_keeps vw hg, foldlState vw, id_eq] | split

theorem trapQueue_keeps {γ : Type} (vw : State → γ) (hg : ∀ s t, vw (footOutQueuesHost s t) = vw s)
    (s : State) (q : ℕ) (seq : ℕ) :
    vw (trapQueue s q seq) = vw s := by
  unfold trapQueue
  repeat' first | with_reducible rfl | with_reducible refine (foldlState vw _ (fun s a => ?_) _ _).trans ?_ | simp only [raiseTrap_keeps vw hg, updQ_keeps vw (fun s t => hg s (footQueues s t)), foldlState vw, id_eq] | split

theorem endDesc_keeps {γ : Type} (vw : State → γ) (hg : ∀ s t, vw (foot12_3 s t) = vw s)
    (s : State) (v : Queue) (d : Done) :
    vw (endDesc s v d) = vw s := by
  unfold endDesc
  repeat' first | with_reducible rfl | with_reducible refine (foldlState vw _ (fun s a => ?_) _ _).trans ?_ | simp only [tailSignal_keeps vw hg, trapQueue_keeps vw (fun s t => hg s (footOutQueuesHost s t)), updQ_keeps vw (fun s t => hg s (footQueues s t)), foldlState vw, id_eq] | split

theorem finishDesc_keeps {γ : Type} (vw : State → γ) (hg : ∀ s t, vw (foot19 s t) = vw s)
    (s : State) (d : Done) :
    vw (finishDesc s d) = vw s := by
  unfold finishDesc
  repeat' first | with_reducible rfl | with_reducible refine (foldlState vw _ (fun s a => ?_) _ _).trans ?_ | simp only [putRecord_keeps vw (fun s t => hg s (foot11_5 s t)), endDesc_keeps vw (fun s t => hg s (foot12_3 s t)), parkRecord_keeps vw (fun s t => hg s (footOutQueuesHost s t)), foldlState vw, id_eq] | split

theorem unpark_keeps {γ : Type} (vw : State → γ) (hg : ∀ s t, vw (foot19 s t) = vw s)
    (s : State) (q : ℕ) (v : Queue) (w : Parked) :
    ∀ t, unpark s q v w = some t → vw t = vw s := by
  intro t ht
  unfold unpark at ht
  split at ht <;> split at ht <;> first | (cases ht; done) | (injection ht with ht; subst ht)
  · exact (endDesc_keeps vw (fun s t => hg s (foot12_3 s t)) _ _ _).trans (putRecord_keeps vw (fun s t => hg s (foot11_5 s t)) _ _ _ _)
  · exact putRecord_keeps vw (fun s t => hg s (foot11_5 s t)) _ _ _ _

theorem drainRing_keeps {γ : Type} (vw : State → γ) (hg : ∀ s t, vw (foot19 s t) = vw s)
    (s : State) (q : ℕ) (x1 : ℕ) :
    vw (drainRing s q x1) = vw s := by
  fun_induction drainRing s q x1
  all_goals repeat' first | with_reducible rfl | assumption | with_reducible refine (foldlState vw _ (fun s a => ?_) _ _).trans ?_ | with_reducible refine Eq.trans (unpark_keeps vw hg _ _ _ _ _ ‹unpark _ _ _ _ = some _›) ?_ | simp only [*, askSlot_keeps vw (fun s t => hg s (footOutHost s t)), updQ_keeps vw (fun s t => hg s (footQueues s t)), foldlState vw, id_eq] | split | simp +zetaDelta only [askSlot_keeps vw (fun s t => hg s (footOutHost s t)), updQ_keeps vw (fun s t => hg s (footQueues s t)), foldlState vw, id_eq]

theorem updLayer_keeps {γ : Type} (vw : State → γ) (hg : ∀ s t, vw (footLayers s t) = vw s)
    (s : State) (q : ℕ) (seq : ℕ) (f : Layer → Layer) :
    vw (updLayer s q seq f) = vw s := by
  have h0 : ∀ s x0, vw { s with layers := x0 } = vw s := fun s x0 => hg s { s with layers := x0 }
  unfold updLayer
  repeat' first | with_reducible rfl | with_reducible refine (foldlState vw _ (fun s a => ?_) _ _).trans ?_ | simp only [h0, foldlState vw, id_eq] | split

theorem cutAttempt_keeps {γ : Type} (vw : State → γ) (hg : ∀ s t, vw (footLayersQueuesWaiters s t) = vw s)
    (s : State) (l : Layer) :
    vw (cutAttempt s l) = vw s := by
  have h0 : ∀ s x0, vw { s with waiters := x0 } = vw s := fun s x0 => hg s { s with waiters := x0 }
  unfold cutAttempt
  repeat' first | with_reducible rfl | with_reducible refine (foldlState vw _ (fun s a => ?_) _ _).trans ?_ | simp only [h0, updLayer_keeps vw (fun s t => hg s (footLayers s t)), updQ_keeps vw (fun s t => hg s (footQueues s t)), foldlState vw, id_eq] | split

theorem layerDies_keeps {γ : Type} (vw : State → γ) (hg : ∀ s t, vw (foot20_0 s t) = vw s)
    (s : State) (l : Layer) (status : ℕ) :
    vw (layerDies s l status) = vw s := by
  have h0 : ∀ s x0, vw { s with layers := x0 } = vw s := fun s x0 => hg s { s with layers := x0 }
  unfold layerDies
  repeat' first | with_reducible rfl | with_reducible refine (foldlState vw _ (fun s a => ?_) _ _).trans ?_ | simp only [h0, cutAttempt_keeps vw (fun s t => hg s (footLayersQueuesWaiters s t)), finishDesc_keeps vw (fun s t => hg s (foot19 s t)), foldlState vw, id_eq] | split

theorem layerHook_keeps {γ : Type} (vw : State → γ) (hg : ∀ s t, vw (foot20_0 s t) = vw s)
    (s : State) (d : Done) (trapped : Bool) :
    vw (layerHook s d trapped) = vw s := by
  unfold layerHook
  repeat' first | with_reducible rfl | with_reducible refine (foldlState vw _ (fun s a => ?_) _ _).trans ?_ | simp only [cutAttempt_keeps vw (fun s t => hg s (footLayersQueuesWaiters s t)), updLayer_keeps vw (fun s t => hg s (footLayers s t)), layerDies_keeps vw hg, foldlState vw, id_eq] | split

theorem completeDesc_keeps {γ : Type} (vw : State → γ) (hg : ∀ s t, vw (foot20_0 s t) = vw s)
    (s : State) (d : Done) :
    vw (completeDesc s d) = vw s := by
  unfold completeDesc
  repeat' first | with_reducible rfl | with_reducible refine (foldlState vw _ (fun s a => ?_) _ _).trans ?_ | simp only [finishDesc_keeps vw (fun s t => hg s (foot19 s t)), layerHook_keeps vw hg, foldlState vw, id_eq] | split

theorem rejectDesc_keeps {γ : Type} (vw : State → γ) (hg : ∀ s t, vw (foot20_0 s t) = vw s)
    (s : State) (d : Issued) (status : ℕ) (engine : ℕ) :
    vw (rejectDesc s d status engine) = vw s := by
  unfold rejectDesc
  repeat' first | with_reducible rfl | with_reducible refine (foldlState vw _ (fun s a => ?_) _ _).trans ?_ | simp only [completeDesc_keeps vw hg, foldlState vw, id_eq] | split

theorem abortRecord_keeps {γ : Type} (vw : State → γ) (hg : ∀ s t, vw (foot11_5 s t) = vw s)
    (s : State) (q : ℕ) (seq : ℕ) (op : ℕ) (engine : ℕ) (body : List Word64) :
    vw (abortRecord s q seq op engine body) = vw s := by
  unfold abortRecord
  repeat' first | with_reducible rfl | with_reducible refine (foldlState vw _ (fun s a => ?_) _ _).trans ?_ | simp only [writeSpare_keeps vw hg, foldlState vw, id_eq] | split

theorem doorbellTake_keeps {γ : Type} (vw : State → γ) (hg : ∀ s t, vw (foot4_27 s t) = vw s)
    (s : State) (q : ℕ) (p : ℕ) :
    vw (doorbellTake s q p) = vw s := by
  unfold doorbellTake
  repeat' first | with_reducible rfl | with_reducible refine (foldlState vw _ (fun s a => ?_) _ _).trans ?_ | simp only [objInc_keeps vw (fun s t => hg s (footDic s t)), updQ_keeps vw (fun s t => hg s (footQueues s t)), raiseErr_keeps vw (fun s t => hg s (footOutQueuesHost s t)), foldlState vw, id_eq] | split

theorem doorbellWrite_keeps {γ : Type} (vw : State → γ) (hg : ∀ s t, vw (foot4_27 s t) = vw s)
    (s : State) (q : ℕ) (p : ℕ) :
    vw (doorbellWrite s q p) = vw s := by
  unfold doorbellWrite
  repeat' first | with_reducible rfl | with_reducible refine (foldlState vw _ (fun s a => ?_) _ _).trans ?_ | simp only [doorbellTake_keeps vw hg, updQ_keeps vw (fun s t => hg s (footQueues s t)), foldlState vw, id_eq] | split

theorem takeLatched_keeps {γ : Type} (vw : State → γ) (hg : ∀ s t, vw (foot4_27 s t) = vw s)
    (s : State) (q : ℕ) :
    vw (takeLatched s q) = vw s := by
  unfold takeLatched
  repeat' first | with_reducible rfl | with_reducible refine (foldlState vw _ (fun s a => ?_) _ _).trans ?_ | simp only [doorbellTake_keeps vw hg, updQ_keeps vw (fun s t => hg s (footQueues s t)), foldlState vw, id_eq] | split

theorem takeDoorbells_keeps {γ : Type} (vw : State → γ) (hg : ∀ s t, vw (foot4_27 s t) = vw s)
    (s : State) :
    vw (takeDoorbells s) = vw s := by
  unfold takeDoorbells
  repeat' first | with_reducible rfl | with_reducible refine (foldlState vw _ (fun s a => ?_) _ _).trans ?_ | simp only [takeLatched_keeps vw hg, foldlState vw, id_eq] | split

theorem makeTails_keeps {γ : Type} (vw : State → γ) (hg : ∀ s t, vw (foot12_3 s t) = vw s)
    (s : State) (q : ℕ) (v : Queue) (x1 : List (ℕ × List Word64)) :
    vw (makeTails s q v x1) = vw s := by
  fun_induction makeTails s q v x1
  all_goals repeat' first | with_reducible rfl | assumption | with_reducible refine (foldlState vw _ (fun s a => ?_) _ _).trans ?_ | simp only [*, tailSignal_keeps vw hg, foldlState vw, id_eq] | split | simp +zetaDelta only [tailSignal_keeps vw hg, foldlState vw, id_eq]

theorem clearTrap_keeps {γ : Type} (vw : State → γ) (hg : ∀ s t, vw (footWaitClaimsQueues s t) = vw s)
    (s : State) (q : ℕ) :
    vw (clearTrap s q) = vw s := by
  have h0 : ∀ s x0, vw { s with waitClaims := x0 } = vw s := fun s x0 => hg s { s with waitClaims := x0 }
  unfold clearTrap
  repeat' first | with_reducible rfl | with_reducible refine (foldlState vw _ (fun s a => ?_) _ _).trans ?_ | simp only [h0, updQ_keeps vw (fun s t => hg s (footQueues s t)), foldlState vw, id_eq] | split

theorem releaseQueue_keeps {γ : Type} (vw : State → γ) (hg : ∀ s t, vw (foot13_4 s t) = vw s)
    (s : State) (q : ℕ) :
    vw (releaseQueue s q) = vw s := by
  unfold releaseQueue
  repeat' first | with_reducible rfl | with_reducible refine (foldlState vw _ (fun s a => ?_) _ _).trans ?_ | simp only [makeTails_keeps vw (fun s t => hg s (foot12_3 s t)), clearTrap_keeps vw (fun s t => hg s (footWaitClaimsQueues s t)), foldlState vw, id_eq] | split

theorem discardQueue_keeps {γ : Type} (vw : State → γ) (hg : ∀ s t, vw (footWaitClaimsQueues s t) = vw s)
    (s : State) (q : ℕ) :
    vw (discardQueue s q) = vw s := by
  unfold discardQueue
  repeat' first | with_reducible rfl | with_reducible refine (foldlState vw _ (fun s a => ?_) _ _).trans ?_ | simp only [clearTrap_keeps vw hg, foldlState vw, id_eq] | split

theorem abortRecords_keeps {γ : Type} (vw : State → γ) (hg : ∀ s t, vw (foot11_5 s t) = vw s)
    (s : State) (q : ℕ) (x1 : List (ℕ × ℕ × ℕ)) :
    vw (abortRecords s q x1) = vw s := by
  fun_induction abortRecords s q x1
  all_goals repeat' first | with_reducible rfl | assumption | with_reducible refine (foldlState vw _ (fun s a => ?_) _ _).trans ?_ | simp only [*, abortRecord_keeps vw hg, foldlState vw, id_eq] | split | simp +zetaDelta only [abortRecord_keeps vw hg, foldlState vw, id_eq]

theorem abortLayers_keeps {γ : Type} (vw : State → γ) (hg : ∀ s t, vw (foot11_5 s t) = vw s)
    (s : State) (q : ℕ) (x1 : List Layer) :
    vw (abortLayers s q x1) = vw s := by
  fun_induction abortLayers s q x1
  all_goals repeat' first | with_reducible rfl | assumption | with_reducible refine (foldlState vw _ (fun s a => ?_) _ _).trans ?_ | simp only [*, abortRecord_keeps vw hg, foldlState vw, id_eq] | split | simp +zetaDelta only [abortRecord_keeps vw hg, foldlState vw, id_eq]

theorem dropStreams_keeps {γ : Type} (vw : State → γ) (hg : ∀ s t, vw (foot4_17 s t) = vw s)
    (s : State) (q : ℕ) (gone : List ℕ) :
    vw (dropStreams s q gone) = vw s := by
  have h0 : ∀ s x0 x1 x2 x3, vw { s with engines := x0, claims := x1, waitClaims := x2, spills := x3 } = vw s := fun s x0 x1 x2 x3 => hg s { s with engines := x0, claims := x1, waitClaims := x2, spills := x3 }
  unfold dropStreams
  repeat' first | with_reducible rfl | with_reducible refine (foldlState vw _ (fun s a => ?_) _ _).trans ?_ | simp only [h0, foldlState vw, id_eq] | split

theorem abortQueue_keeps {γ : Type} (vw : State → γ) (hg : ∀ s t, vw (foot17_0 s t) = vw s)
    (s : State) (q : ℕ) :
    vw (abortQueue s q) = vw s := by
  have h0 : ∀ s x0 x1 x2, vw { s with free := x0, layers := x1, waiters := x2 } = vw s := fun s x0 x1 x2 => hg s { s with free := x0, layers := x1, waiters := x2 }
  unfold abortQueue
  repeat' first | with_reducible rfl | with_reducible refine (foldlState vw _ (fun s a => ?_) _ _).trans ?_ | simp only [h0, abortLayers_keeps vw (fun s t => hg s (foot11_5 s t)), updQ_keeps vw (fun s t => hg s (footQueues s t)), abortRecords_keeps vw (fun s t => hg s (foot11_5 s t)), dropStreams_keeps vw (fun s t => hg s (foot4_17 s t)), foldlState vw, id_eq] | split

theorem irqWrite_keeps {γ : Type} (vw : State → γ) (hg : ∀ s t, vw (footOutQueuesHost s t) = vw s)
    (s : State) (q : ℕ) (w : ℕ) :
    vw (irqWrite s q w) = vw s := by
  unfold irqWrite
  repeat' first | with_reducible rfl | with_reducible refine (foldlState vw _ (fun s a => ?_) _ _).trans ?_ | simp only [sendQueueIrqs_keeps vw hg, updQ_keeps vw (fun s t => hg s (footQueues s t)), foldlState vw, id_eq] | split

theorem cplHeadWrite_keeps {γ : Type} (vw : State → γ) (hg : ∀ s t, vw (foot19 s t) = vw s)
    (s : State) (q : ℕ) (w : ℕ) :
    vw (cplHeadWrite s q w) = vw s := by
  unfold cplHeadWrite
  repeat' first | with_reducible rfl | with_reducible refine (foldlState vw _ (fun s a => ?_) _ _).trans ?_ | simp only [drainRing_keeps vw hg, updQ_keeps vw (fun s t => hg s (footQueues s t)), foldlState vw, id_eq] | split

theorem pageWrite_keeps {γ : Type} (vw : State → γ) (hg : ∀ s t, vw (foot23_0 s t) = vw s)
    (s : State) (q : ℕ) (reg : ℕ) (w : ℕ) :
    vw (pageWrite s q reg w) = vw s := by
  unfold pageWrite
  repeat' first | with_reducible rfl | with_reducible refine (foldlState vw _ (fun s a => ?_) _ _).trans ?_ | simp only [doorbellWrite_keeps vw (fun s t => hg s (foot4_27 s t)), abortQueue_keeps vw (fun s t => hg s (foot17_0 s t)), irqWrite_keeps vw (fun s t => hg s (footOutQueuesHost s t)), cplHeadWrite_keeps vw (fun s t => hg s (foot19 s t)), discardQueue_keeps vw (fun s t => hg s (footWaitClaimsQueues s t)), updQ_keeps vw (fun s t => hg s (footQueues s t)), releaseQueue_keeps vw (fun s t => hg s (foot13_4 s t)), foldlState vw, id_eq] | split

theorem pageStoreWords_keeps {γ : Type} (vw : State → γ) (hg : ∀ s t, vw (foot23_0 s t) = vw s)
    (s : State) (line : ℕ) (mask : ℕ) (data : Bytes) (x1 : List ℕ) :
    vw (pageStoreWords s line mask data x1) = vw s := by
  induction x1 generalizing s with
  | nil => rfl
  | cons k r ih =>
    unfold pageStoreWords
    refine (ih _).trans ?_
    split
    · exact pageWrite_keeps vw hg _ _ _ _
    · split
      · exact pageWrite_keeps vw hg _ _ _ _
      · rfl

theorem pageStore_keeps {γ : Type} (vw : State → γ) (hg : ∀ s t, vw (foot23_0 s t) = vw s)
    (s : State) (line : ℕ) (mask : ℕ) (data : Bytes) :
    vw (pageStore s line mask data) = vw s := by
  unfold pageStore
  repeat' first | with_reducible rfl | with_reducible refine (foldlState vw _ (fun s a => ?_) _ _).trans ?_ | simp only [pageStoreWords_keeps vw hg, foldlState vw, id_eq] | split

theorem localPut_keeps {γ : Type} (vw : State → γ) (hg : ∀ s t, vw (foot23_0 s t) = vw s)
    (s : State) (line : ℕ) (mask : ℕ) (data : Bytes) (poison : Bool) :
    vw (localPut s line mask data poison) = vw s := by
  unfold localPut
  repeat' first | with_reducible rfl | with_reducible refine (foldlState vw _ (fun s a => ?_) _ _).trans ?_ | simp only [pageStore_keeps vw hg, countAddrError_keeps vw (fun s t => hg s (footDic s t)), syncPut_keeps vw (fun s t => hg s (footClaimsSyncWaiters s t)), writeLine_keeps vw (fun s t => hg s (foot8_5 s t)), foldlState vw, id_eq] | split

theorem addWait_keeps {γ : Type} (vw : State → γ) (hg : ∀ s t, vw (footDicWaiters s t) = vw s)
    (s : State) (obj : ℕ) (value : ℕ) (q : ℕ) (seq : ℕ) :
    vw (addWait s obj value q seq) = vw s := by
  have h0 : ∀ s x0, vw { s with waiters := x0 } = vw s := fun s x0 => hg s { s with waiters := x0 }
  unfold addWait
  repeat' first | with_reducible rfl | with_reducible refine (foldlState vw _ (fun s a => ?_) _ _).trans ?_ | simp only [h0, objInc_keeps vw (fun s t => hg s (footDic s t)), foldlState vw, id_eq] | split

theorem updEngine_keeps {γ : Type} (vw : State → γ) (hg : ∀ s t, vw (footEngines s t) = vw s)
    (s : State) (e : ℕ) (f : Engine → Engine) :
    vw (updEngine s e f) = vw s := by
  have h0 : ∀ s x0, vw { s with engines := x0 } = vw s := fun s x0 => hg s { s with engines := x0 }
  unfold updEngine
  repeat' first | with_reducible rfl | with_reducible refine (foldlState vw _ (fun s a => ?_) _ _).trans ?_ | simp only [h0, foldlState vw, id_eq] | split

theorem updCtx_keeps {γ : Type} (vw : State → γ) (hg : ∀ s t, vw (footEngines s t) = vw s)
    (s : State) (e : ℕ) (q : ℕ) (seq : ℕ) (f : StreamCtx → StreamCtx) :
    vw (updCtx s e q seq f) = vw s := by
  unfold updCtx
  repeat' first | with_reducible rfl | with_reducible refine (foldlState vw _ (fun s a => ?_) _ _).trans ?_ | simp only [updEngine_keeps vw hg, foldlState vw, id_eq] | split

theorem dropCtx_keeps {γ : Type} (vw : State → γ) (hg : ∀ s t, vw (footEngines s t) = vw s)
    (s : State) (e : ℕ) (q : ℕ) (seq : ℕ) :
    vw (dropCtx s e q seq) = vw s := by
  unfold dropCtx
  repeat' first | with_reducible rfl | with_reducible refine (foldlState vw _ (fun s a => ?_) _ _).trans ?_ | simp only [updEngine_keeps vw hg, foldlState vw, id_eq] | split

theorem dropClaim_keeps {γ : Type} (vw : State → γ) (hg : ∀ s t, vw (footClaimsWaitClaimsSpills s t) = vw s)
    (s : State) (q : ℕ) (seq : ℕ) :
    vw (dropClaim s q seq) = vw s := by
  have h0 : ∀ s x0 x1 x2, vw { s with claims := x0, waitClaims := x1, spills := x2 } = vw s := fun s x0 x1 x2 => hg s { s with claims := x0, waitClaims := x1, spills := x2 }
  unfold dropClaim
  repeat' first | with_reducible rfl | with_reducible refine (foldlState vw _ (fun s a => ?_) _ _).trans ?_ | simp only [h0, foldlState vw, id_eq] | split

theorem tileSignals_keeps {γ : Type} (vw : State → γ) (hg : ∀ s t, vw (foot4_16 s t) = vw s)
    (s : State) (e : ℕ) (q : ℕ) (seq : ℕ) (x1 : ℕ) :
    vw (tileSignals s e q seq x1) = vw s := by
  fun_induction tileSignals s e q seq x1
  all_goals repeat' first | with_reducible rfl | assumption | with_reducible refine (foldlState vw _ (fun s a => ?_) _ _).trans ?_ | simp only [*, syncAdd_keeps vw (fun s t => hg s (footClaimsSyncWaiters s t)), updCtx_keeps vw (fun s t => hg s (footEngines s t)), foldlState vw, id_eq] | split | simp +zetaDelta only [syncAdd_keeps vw (fun s t => hg s (footClaimsSyncWaiters s t)), updCtx_keeps vw (fun s t => hg s (footEngines s t)), foldlState vw, id_eq]

theorem tallied_keeps {γ : Type} (vw : State → γ) (hg : ∀ s t, vw (footDic s t) = vw s)
    (s : State) (e : ℕ) (c0 : StreamCtx) :
    vw (tallied s e c0) = vw s := by
  unfold tallied
  repeat' first | with_reducible rfl | with_reducible refine (foldlState vw _ (fun s a => ?_) _ _).trans ?_ | simp only [objAdd_keeps vw hg, foldlState vw, id_eq] | split

theorem endStream_keeps {γ : Type} (vw : State → γ) (hg : ∀ s t, vw (foot23_0 s t) = vw s)
    (s : State) (e : ℕ) (c : StreamCtx) (status : Option ℕ) :
    vw (endStream s e c status) = vw s := by
  have h0 : ∀ s x0, vw { s with claims := x0 } = vw s := fun s x0 => hg s { s with claims := x0 }
  unfold endStream
  repeat' first | with_reducible rfl | with_reducible refine (foldlState vw _ (fun s a => ?_) _ _).trans ?_ | simp only [h0, dropCtx_keeps vw (fun s t => hg s (footEngines s t)), objInc_keeps vw (fun s t => hg s (footDic s t)), dropClaim_keeps vw (fun s t => hg s (footClaimsWaitClaimsSpills s t)), completeDesc_keeps vw (fun s t => hg s (foot20_0 s t)), foldlState vw, id_eq] | split

theorem advance_keeps {γ : Type} (vw : State → γ) (hg : ∀ s t, vw (foot23_0 s t) = vw s)
    (s : State) (e : ℕ) (q : ℕ) (seq : ℕ) :
    vw (advance s e q seq) = vw s := by
  unfold advance
  repeat' first | with_reducible rfl | with_reducible refine (foldlState vw _ (fun s a => ?_) _ _).trans ?_ | simp only [endStream_keeps vw hg, tileSignals_keeps vw (fun s t => hg s (foot4_16 s t)), foldlState vw, id_eq] | split

theorem pageFault_keeps {γ : Type} (vw : State → γ) (hg : ∀ s t, vw (foot4_24 s t) = vw s)
    (s : State) (e : ℕ) (q : ℕ) (seq : ℕ) (page : ℕ) :
    vw (pageFault s e q seq page) = vw s := by
  have h0 : ∀ s x0, vw { s with host := x0 } = vw s := fun s x0 => hg s { s with host := x0 }
  unfold pageFault
  repeat' first | with_reducible rfl | with_reducible refine (foldlState vw _ (fun s a => ?_) _ _).trans ?_ | simp only [h0, updCtx_keeps vw (fun s t => hg s (footEngines s t)), objInc_keeps vw (fun s t => hg s (footDic s t)), emit_keeps vw (fun s t => hg s (footOut s t)), foldlState vw, id_eq] | split

theorem placeSlice_keeps {γ : Type} (vw : State → γ) (hg : ∀ s t, vw (footTileTilePoison s t) = vw s)
    (s : State) (slice : ℕ) (fmt : ℕ) (scale : Bool) (bs : List UByte) (x1 : List ℕ) :
    vw (placeSlice s slice fmt scale bs x1) = vw s := by
  fun_induction placeSlice s slice fmt scale bs x1
  all_goals repeat' first | with_reducible rfl | assumption | with_reducible refine (foldlState vw _ (fun s a => ?_) _ _).trans ?_ | simp only [*, writeTileLine_keeps vw hg, foldlState vw, id_eq] | split | simp +zetaDelta only [writeTileLine_keeps vw hg, foldlState vw, id_eq]

theorem fixScales_keeps {γ : Type} (vw : State → γ) (hg : ∀ s t, vw (footTileTilePoison s t) = vw s)
    (s : State) (slice : ℕ) (ws : List Word64) (x1 : List ℕ) :
    vw (fixScales s slice ws x1) = vw s := by
  fun_induction fixScales s slice ws x1
  all_goals repeat' first | with_reducible rfl | assumption | with_reducible refine (foldlState vw _ (fun s a => ?_) _ _).trans ?_ | simp only [*, writeTileLine_keeps vw hg, foldlState vw, id_eq] | split | simp +zetaDelta only [writeTileLine_keeps vw hg, foldlState vw, id_eq]

theorem hostPut_keeps {γ : Type} (vw : State → γ) (hg : ∀ s t, vw (footOut s t) = vw s)
    (s : State) (addr : ℕ) (poison : Bool) (x1 : List (ℕ × Bytes)) :
    vw (hostPut s addr poison x1) = vw s := by
  fun_induction hostPut s addr poison x1
  all_goals repeat' first | with_reducible rfl | assumption | with_reducible refine (foldlState vw _ (fun s a => ?_) _ _).trans ?_ | simp only [*, emit_keeps vw hg, foldlState vw, id_eq] | split | simp +zetaDelta only [emit_keeps vw hg, foldlState vw, id_eq]

theorem atsHold_keeps {γ : Type} (vw : State → γ) (hg : ∀ s t, vw (footHost s t) = vw s)
    (s : State) (pasid : ℕ) (page : ℕ) :
    vw (atsHold s pasid page) = vw s := by
  have h0 : ∀ s x0, vw { s with host := x0 } = vw s := fun s x0 => hg s { s with host := x0 }
  unfold atsHold
  repeat' first | with_reducible rfl | with_reducible refine (foldlState vw _ (fun s a => ?_) _ _).trans ?_ | simp only [h0, foldlState vw, id_eq] | split

theorem sendStores_keeps {γ : Type} (vw : State → γ) (hg : ∀ s t, vw (foot6_15 s t) = vw s)
    (s : State) (h : Half) (who : Requester) (top : ℕ) (fmt : ℕ) (scale : Bool) (bs : List UByte) (x1 : List ℕ) :
    vw (sendStores s h who top fmt scale bs x1) = vw s := by
  fun_induction sendStores s h who top fmt scale bs x1
  all_goals repeat' first | with_reducible rfl | assumption | with_reducible refine (foldlState vw _ (fun s a => ?_) _ _).trans ?_ | simp only [*, hostPut_keeps vw (fun s t => hg s (footOut s t)), sendRequest_keeps vw (fun s t => hg s (foot5_10 s t)), foldlState vw, id_eq] | split | simp +zetaDelta only [hostPut_keeps vw (fun s t => hg s (footOut s t)), sendRequest_keeps vw (fun s t => hg s (foot5_10 s t)), foldlState vw, id_eq]

theorem putLocal_keeps {γ : Type} (vw : State → γ) (hg : ∀ s t, vw (foot23_0 s t) = vw s)
    (s : State) (top : ℕ) (fmt : ℕ) (scale : Bool) (bs : List UByte) (x1 : List ℕ) :
    vw (putLocal s top fmt scale bs x1).1 = vw s := by
  induction x1 generalizing s with
  | nil => rfl
  | cons l r ih =>
    unfold putLocal
    dsimp only
    split
    · exact (ih _).trans (localPut_keeps vw hg _ _ _ _ _)
    · exact ih _

theorem writePhase_keeps {γ : Type} (vw : State → γ) (hg : ∀ s t, vw (foot23_0 s t) = vw s)
    (s : State) (e : ℕ) (c : StreamCtx) (r : Req) (bs : List UByte) :
    vw (writePhase s e c r bs) = vw s := by
  unfold writePhase
  repeat' first | with_reducible rfl | with_reducible refine (foldlState vw _ (fun s a => ?_) _ _).trans ?_ | exact (congrArg (fun p => vw p.1) ‹putLocal _ _ _ _ _ _ = _›).symm.trans (putLocal_keeps vw hg _ _ _ _ _ _) | simp only [putLocal_keeps vw hg, sendStores_keeps vw (fun s t => hg s (foot6_15 s t)), updCtx_keeps vw (fun s t => hg s (footEngines s t)), objInc_keeps vw (fun s t => hg s (footDic s t)), foldlState vw, id_eq] | split

theorem inPhase_keeps {γ : Type} (vw : State → γ) (hg : ∀ s t, vw (footEnginesTileTilePoison s t) = vw s)
    (s : State) (e : ℕ) (c : StreamCtx) (r : Req) (bs : List UByte) :
    vw (inPhase s e c r bs) = vw s := by
  unfold inPhase
  repeat' first | with_reducible rfl | with_reducible refine (foldlState vw _ (fun s a => ?_) _ _).trans ?_ | simp only [updCtx_keeps vw (fun s t => hg s (footEngines s t)), fixScales_keeps vw (fun s t => hg s (footTileTilePoison s t)), placeSlice_keeps vw (fun s t => hg s (footTileTilePoison s t)), foldlState vw, id_eq] | split

theorem markFresh_keeps {γ : Type} (vw : State → γ) (hg : ∀ s t, vw (foot5_11 s t) = vw s)
    (s : State) (r : Req) (cause : ℕ) (mask : ℕ) (x1 : List ℕ) :
    vw (markFresh s r cause mask x1) = vw s := by
  have h0 : ∀ s x0, vw { s with tilePoison := x0 } = vw s := fun s x0 => hg s { s with tilePoison := x0 }
  fun_induction markFresh s r cause mask x1
  all_goals repeat' first | with_reducible rfl | assumption | with_reducible refine (foldlState vw _ (fun s a => ?_) _ _).trans ?_ | simp only [*, h0, objInc_keeps vw (fun s t => hg s (footDic s t)), readDecoded_keeps vw (fun s t => hg s (footLpddrBadChansWires s t)), foldlState vw, id_eq] | split | simp +zetaDelta only [h0, objInc_keeps vw (fun s t => hg s (footDic s t)), readDecoded_keeps vw (fun s t => hg s (footLpddrBadChansWires s t)), foldlState vw, id_eq]

theorem countReserved_keeps {γ : Type} (vw : State → γ) (hg : ∀ s t, vw (footDic s t) = vw s)
    (s : State) (x1 : List ℕ) :
    vw (countReserved s x1) = vw s := by
  fun_induction countReserved s x1
  all_goals repeat' first | with_reducible rfl | assumption | with_reducible refine (foldlState vw _ (fun s a => ?_) _ _).trans ?_ | simp only [*, countAddrError_keeps vw hg, foldlState vw, id_eq] | split | simp +zetaDelta only [countAddrError_keeps vw hg, foldlState vw, id_eq]

theorem dropReads_keeps {γ : Type} (vw : State → γ) (hg : ∀ s t, vw (footChans s t) = vw s)
    (s : State) (e : ℕ) (seq : ℕ) (id : ℕ) :
    vw (dropReads s e seq id) = vw s := by
  have h0 : ∀ s x0, vw { s with chans := x0 } = vw s := fun s x0 => hg s { s with chans := x0 }
  unfold dropReads
  repeat' first | with_reducible rfl | with_reducible refine (foldlState vw _ (fun s a => ?_) _ _).trans ?_ | simp only [h0, foldlState vw, id_eq] | split

theorem finishReq_keeps {γ : Type} (vw : State → γ) (hg : ∀ s t, vw (foot24_2 s t) = vw s)
    (s : State) (e : ℕ) (c : StreamCtx) (r : Req) (o : FarOutcome) :
    vw (finishReq s e c r o) = vw s := by
  unfold finishReq
  repeat' first | with_reducible rfl | with_reducible refine (foldlState vw _ (fun s a => ?_) _ _).trans ?_ | simp only [writePhase_keeps vw (fun s t => hg s (foot23_0 s t)), updCtx_keeps vw (fun s t => hg s (footEngines s t)), advance_keeps vw (fun s t => hg s (foot23_0 s t)), inPhase_keeps vw (fun s t => hg s (footEnginesTileTilePoison s t)), afterRead_keeps vw (fun s t => hg s (footFree s t)), pageFault_keeps vw (fun s t => hg s (foot4_24 s t)), countReserved_keeps vw (fun s t => hg s (footDic s t)), dropReads_keeps vw (fun s t => hg s (footChans s t)), markFresh_keeps vw (fun s t => hg s (foot5_11 s t)), tallied_keeps vw (fun s t => hg s (footDic s t)), foldlState vw, id_eq] | split

theorem addReq_keeps {γ : Type} (vw : State → γ) (hg : ∀ s t, vw (footEngines s t) = vw s)
    (s : State) (e : ℕ) (c : StreamCtx) (r : Req) (scale : Bool) (upTo : ℕ) :
    vw (addReq s e c r scale upTo) = vw s := by
  unfold addReq
  repeat' first | with_reducible rfl | with_reducible refine (foldlState vw _ (fun s a => ?_) _ _).trans ?_ | simp only [updCtx_keeps vw hg, foldlState vw, id_eq] | split

theorem askRead_keeps {γ : Type} (vw : State → γ) (hg : ∀ s t, vw (footDicChans s t) = vw s)
    (s : State) (e : ℕ) (c : StreamCtx) (r : Req) (far : ℕ) :
    vw (askRead s e c r far) = vw s := by
  unfold askRead
  repeat' first | with_reducible rfl | with_reducible refine (foldlState vw _ (fun s a => ?_) _ _).trans ?_ | simp only [updChan_keeps vw (fun s t => hg s (footChans s t)), objInc_keeps vw (fun s t => hg s (footDic s t)), foldlState vw, id_eq] | split

theorem readPhase_keeps {γ : Type} (vw : State → γ) (hg : ∀ s t, vw (foot24_2 s t) = vw s)
    (s : State) (e : ℕ) (c : StreamCtx) (r : Req) :
    vw (readPhase s e c r) = vw s := by
  unfold readPhase
  repeat' first | with_reducible rfl | with_reducible refine (foldlState vw _ (fun s a => ?_) _ _).trans ?_ | simp only [backInvalidate_keeps vw (fun s t => hg s (footOutHost s t)), updCtx_keeps vw (fun s t => hg s (footEngines s t)), askRead_keeps vw (fun s t => hg s (footDicChans s t)), finishReq_keeps vw hg, objInc_keeps vw (fun s t => hg s (footDic s t)), emit_keeps vw (fun s t => hg s (footOut s t)), sendRequest_keeps vw (fun s t => hg s (foot5_10 s t)), atsHold_keeps vw (fun s t => hg s (footHost s t)), foldlState vw, id_eq] | split

theorem issueOut_keeps {γ : Type} (vw : State → γ) (hg : ∀ s t, vw (foot23_0 s t) = vw s)
    (s : State) (e : ℕ) (c : StreamCtx) (r0 : Req) (upTo : ℕ) (tst : List TstEvent) :
    vw (issueOut s e c r0 upTo tst) = vw s := by
  unfold issueOut
  repeat' first | with_reducible rfl | with_reducible refine (foldlState vw _ (fun s a => ?_) _ _).trans ?_ | simp only [writePhase_keeps vw hg, backInvalidate_keeps vw (fun s t => hg s (footOutHost s t)), updCtx_keeps vw (fun s t => hg s (footEngines s t)), advance_keeps vw hg, tallied_keeps vw (fun s t => hg s (footDic s t)), applyTst_keeps vw (fun s t => hg s (footDicTilePoison s t)), addReq_keeps vw (fun s t => hg s (footEngines s t)), foldlState vw, id_eq] | split

theorem issueReq_keeps {γ : Type} (vw : State → γ) (hg : ∀ s t, vw (foot24_2 s t) = vw s)
    (s : State) (e : ℕ) (c : StreamCtx) (scale : Bool) (u : ℕ) (tst : List TstEvent) :
    vw (issueReq s e c scale u tst) = vw s := by
  unfold issueReq
  repeat' first | with_reducible rfl | with_reducible refine (foldlState vw _ (fun s a => ?_) _ _).trans ?_ | simp only [issueOut_keeps vw (fun s t => hg s (foot23_0 s t)), readPhase_keeps vw hg, addReq_keeps vw (fun s t => hg s (footEngines s t)), foldlState vw, id_eq] | split

theorem issueScan_keeps {γ : Type} (vw : State → γ) (hg : ∀ s t, vw (foot24_2 s t) = vw s)
    (s : State) (e : ℕ) (tst : List TstEvent) (x1 : List ℕ) :
    vw (issueScan s e tst x1) = vw s := by
  fun_induction issueScan s e tst x1
  all_goals repeat' first | with_reducible rfl | assumption | with_reducible refine (foldlState vw _ (fun s a => ?_) _ _).trans ?_ | simp only [*, updEngine_keeps vw (fun s t => hg s (footEngines s t)), addWait_keeps vw (fun s t => hg s (footDicWaiters s t)), objInc_keeps vw (fun s t => hg s (footDic s t)), updCtx_keeps vw (fun s t => hg s (footEngines s t)), issueReq_keeps vw hg, foldlState vw, id_eq] | split | simp +zetaDelta only [updEngine_keeps vw (fun s t => hg s (footEngines s t)), addWait_keeps vw (fun s t => hg s (footDicWaiters s t)), objInc_keeps vw (fun s t => hg s (footDic s t)), updCtx_keeps vw (fun s t => hg s (footEngines s t)), issueReq_keeps vw hg, foldlState vw, id_eq]

theorem requestClaim_keeps {γ : Type} (vw : State → γ) (hg : ∀ s t, vw (footDicClaimsWaitClaims s t) = vw s)
    (s : State) (cl : Claim) :
    vw (requestClaim s cl) = vw s := by
  have h0 : ∀ s x0 x1, vw { s with claims := x0, waitClaims := x1 } = vw s := fun s x0 x1 => hg s { s with claims := x0, waitClaims := x1 }
  unfold requestClaim
  repeat' first | with_reducible rfl | with_reducible refine (foldlState vw _ (fun s a => ?_) _ _).trans ?_ | simp only [h0, objInc_keeps vw (fun s t => hg s (footDic s t)), foldlState vw, id_eq] | split

theorem startStream_keeps {γ : Type} (vw : State → γ) (hg : ∀ s t, vw (foot22_1 s t) = vw s)
    (s : State) (e : ℕ) (c : StreamCtx) :
    vw (startStream s e c) = vw s := by
  unfold startStream
  repeat' first | with_reducible rfl | with_reducible refine (foldlState vw _ (fun s a => ?_) _ _).trans ?_ | simp only [updCtx_keeps vw (fun s t => hg s (footEngines s t)), dropCtx_keeps vw (fun s t => hg s (footEngines s t)), rejectDesc_keeps vw (fun s t => hg s (foot20_0 s t)), requestClaim_keeps vw (fun s t => hg s (footDicClaimsWaitClaims s t)), foldlState vw, id_eq] | split

theorem streamStartAt_keeps {γ : Type} (vw : State → γ) (hg : ∀ s t, vw (foot22_1 s t) = vw s)
    (s : State) (e : ℕ) :
    vw (streamStartAt s e) = vw s := by
  unfold streamStartAt
  repeat' first | with_reducible rfl | with_reducible refine (foldlState vw _ (fun s a => ?_) _ _).trans ?_ | simp only [startStream_keeps vw hg, foldlState vw, id_eq] | split

theorem grantIn_keeps {γ : Type} (vw : State → γ) (hg : ∀ s t, vw (footEnginesClaimsWaitClaims s t) = vw s)
    (s : State) (slice : ℕ) :
    vw (grantIn s slice) = vw s := by
  have h0 : ∀ s x0 x1, vw { s with claims := x0, waitClaims := x1 } = vw s := fun s x0 x1 => hg s { s with claims := x0, waitClaims := x1 }
  unfold grantIn
  repeat' first | with_reducible rfl | with_reducible refine (foldlState vw _ (fun s a => ?_) _ _).trans ?_ | simp only [h0, updCtx_keeps vw (fun s t => hg s (footEngines s t)), foldlState vw, id_eq] | split

theorem streamDoneAt_keeps {γ : Type} (vw : State → γ) (hg : ∀ s t, vw (foot24_2 s t) = vw s)
    (s : State) (e : ℕ) (seq : ℕ) (id : ℕ) (o : FarOutcome) :
    vw (streamDoneAt s e seq id o) = vw s := by
  unfold streamDoneAt
  repeat' first | with_reducible rfl | with_reducible refine (foldlState vw _ (fun s a => ?_) _ _).trans ?_ | simp only [backInvalidate_keeps vw (fun s t => hg s (footOutHost s t)), finishReq_keeps vw hg, linesFound_keeps vw (fun s t => hg s (foot5_11 s t)), dimStall_keeps vw (fun s t => hg s (footDicChans s t)), forgetBad_keeps vw (fun s t => hg s (footHost s t)), foldlState vw, id_eq] | split

theorem atsSettle_keeps {γ : Type} (vw : State → γ) (hg : ∀ s t, vw (footOutHost s t) = vw s)
    (s : State) :
    vw (atsSettle s) = vw s := by
  have h0 : ∀ s x0, vw { s with host := x0 } = vw s := fun s x0 => hg s { s with host := x0 }
  unfold atsSettle
  repeat' first | with_reducible rfl | with_reducible refine (foldlState vw _ (fun s a => ?_) _ _).trans ?_ | simp only [h0, emit_keeps vw (fun s t => hg s (footOut s t)), foldlState vw, id_eq] | split

theorem setTodo_keeps {γ : Type} (vw : State → γ) (hg : ∀ s t, vw (footQueues s t) = vw s)
    (s : State) (q : ℕ) (seq : ℕ) (w : Bool) (e : Bool) :
    vw (setTodo s q seq w e) = vw s := by
  unfold setTodo
  repeat' first | with_reducible rfl | with_reducible refine (foldlState vw _ (fun s a => ?_) _ _).trans ?_ | simp only [updQ_keeps vw hg, foldlState vw, id_eq] | split

theorem markIssued_keeps {γ : Type} (vw : State → γ) (hg : ∀ s t, vw (footQueues s t) = vw s)
    (s : State) (q : ℕ) (f : Fetched) (h : Half) :
    vw (markIssued s q f h) = vw s := by
  unfold markIssued
  repeat' first | with_reducible rfl | with_reducible refine (foldlState vw _ (fun s a => ?_) _ _).trans ?_ | simp only [setTodo_keeps vw hg, foldlState vw, id_eq] | split

theorem updFetched_keeps {γ : Type} (vw : State → γ) (hg : ∀ s t, vw (footQueues s t) = vw s)
    (s : State) (q : ℕ) (seq : ℕ) (g : Fetched → Fetched) :
    vw (updFetched s q seq g) = vw s := by
  unfold updFetched
  repeat' first | with_reducible rfl | with_reducible refine (foldlState vw _ (fun s a => ?_) _ _).trans ?_ | simp only [updQ_keeps vw hg, foldlState vw, id_eq] | split

theorem noteWait_keeps {γ : Type} (vw : State → γ) (hg : ∀ s t, vw (footDicQueuesWaiters s t) = vw s)
    (s : State) (q : ℕ) (f : Fetched) :
    vw (noteWait s q f) = vw s := by
  unfold noteWait
  repeat' first | with_reducible rfl | with_reducible refine (foldlState vw _ (fun s a => ?_) _ _).trans ?_ | simp only [updFetched_keeps vw (fun s t => hg s (footQueues s t)), addWait_keeps vw (fun s t => hg s (footDicWaiters s t)), foldlState vw, id_eq] | split

theorem noteStall_keeps {γ : Type} (vw : State → γ) (hg : ∀ s t, vw (footDicQueues s t) = vw s)
    (s : State) (q : ℕ) (f : Fetched) :
    vw (noteStall s q f) = vw s := by
  unfold noteStall
  repeat' first | with_reducible rfl | with_reducible refine (foldlState vw _ (fun s a => ?_) _ _).trans ?_ | simp only [updFetched_keeps vw (fun s t => hg s (footQueues s t)), objInc_keeps vw (fun s t => hg s (footDic s t)), foldlState vw, id_eq] | split

theorem addFetched_keeps {γ : Type} (vw : State → γ) (hg : ∀ s t, vw (footQueues s t) = vw s)
    (s : State) (q : ℕ) (seq : ℕ) (ws : List Word64) (inLayer : Bool) :
    vw (addFetched s q seq ws inLayer) = vw s := by
  unfold addFetched
  repeat' first | with_reducible rfl | with_reducible refine (foldlState vw _ (fun s a => ?_) _ _).trans ?_ | simp only [updQ_keeps vw hg, foldlState vw, id_eq] | split

theorem unreadable_keeps {γ : Type} (vw : State → γ) (hg : ∀ s t, vw (foot20_0 s t) = vw s)
    (s : State) (q : ℕ) (seq : ℕ) (inLayer : Bool) :
    vw (unreadable s q seq inLayer) = vw s := by
  unfold unreadable
  repeat' first | with_reducible rfl | with_reducible refine (foldlState vw _ (fun s a => ?_) _ _).trans ?_ | simp only [trapQueue_keeps vw (fun s t => hg s (footOutQueuesHost s t)), writeSpare_keeps vw (fun s t => hg s (foot11_5 s t)), layerHook_keeps vw hg, foldlState vw, id_eq] | split

theorem handTo_keeps {γ : Type} (vw : State → γ) (hg : ∀ s t, vw (foot4_0 s t) = vw s)
    (s : State) (h : Half) (d : Issued) :
    vw (handTo s h d) = vw s := by
  have h0 : ∀ s x0 x1 x2, vw { s with arrays := x0, vecs := x1, moverRR := x2 } = vw s := fun s x0 x1 x2 => hg s { s with arrays := x0, vecs := x1, moverRR := x2 }
  unfold handTo
  repeat' first | with_reducible rfl | with_reducible refine (foldlState vw _ (fun s a => ?_) _ _).trans ?_ | simp only [h0, updEngine_keeps vw (fun s t => hg s (footEngines s t)), foldlState vw, id_eq] | split

theorem issueTo_keeps {γ : Type} (vw : State → γ) (hg : ∀ s t, vw (foot24_0 s t) = vw s)
    (s : State) (h : Half) (q : ℕ) (halves : ℕ) (f : Fetched) :
    vw (issueTo s h q halves f) = vw s := by
  unfold issueTo
  repeat' first | with_reducible rfl | with_reducible refine (foldlState vw _ (fun s a => ?_) _ _).trans ?_ | simp only [handTo_keeps vw (fun s t => hg s (foot4_0 s t)), markIssued_keeps vw (fun s t => hg s (footQueues s t)), rejectDesc_keeps vw (fun s t => hg s (foot20_0 s t)), updQ_keeps vw (fun s t => hg s (footQueues s t)), foldlState vw, id_eq] | split

theorem issueFrom_keeps {γ : Type} (vw : State → γ) (hg : ∀ s t, vw (foot24_0 s t) = vw s)
    (s : State) (h : Half) (q : ℕ) (halves : ℕ) (x1 : List Fetched) :
    vw (issueFrom s h q halves x1).1 = vw s := by
  fun_induction issueFrom s h q halves x1
  all_goals repeat' first | with_reducible rfl | assumption | with_reducible refine (foldlState vw _ (fun s a => ?_) _ _).trans ?_ | simp only [*, noteStall_keeps vw (fun s t => hg s (footDicQueues s t)), noteWait_keeps vw (fun s t => hg s (footDicQueuesWaiters s t)), issueTo_keeps vw hg, foldlState vw, id_eq] | split | simp +zetaDelta only [noteStall_keeps vw (fun s t => hg s (footDicQueues s t)), noteWait_keeps vw (fun s t => hg s (footDicQueuesWaiters s t)), issueTo_keeps vw hg, foldlState vw, id_eq]

theorem issueAny_keeps {γ : Type} (vw : State → γ) (hg : ∀ s t, vw (foot25_0 s t) = vw s)
    (s : State) (h : Half) (x1 : List ℕ) :
    vw (issueAny s h x1) = vw s := by
  have h0 : ∀ s x0, vw { s with schedRR := x0 } = vw s := fun s x0 => hg s { s with schedRR := x0 }
  fun_induction issueAny s h x1
  all_goals repeat' first | with_reducible rfl | assumption | with_reducible refine (foldlState vw _ (fun s a => ?_) _ _).trans ?_ | exact (congrArg (fun p => vw p.1) ‹issueFrom _ _ _ _ _ = _›).symm.trans (issueFrom_keeps vw (fun s t => hg s (foot24_0 s t)) _ _ _ _ _) | simp only [*, h0, issueFrom_keeps vw (fun s t => hg s (foot24_0 s t)), foldlState vw, id_eq] | split | simp +zetaDelta only [h0, issueFrom_keeps vw (fun s t => hg s (foot24_0 s t)), foldlState vw, id_eq]

theorem seamReady_keeps {γ : Type} (vw : State → γ) (hg : ∀ s t, vw (footDicQueues s t) = vw s)
    (s : State) (h : Half) (q : ℕ) (f : Fetched) :
    vw (seamReady s h q f).1 = vw s := by
  unfold seamReady
  repeat' first | with_reducible rfl | with_reducible refine (foldlState vw _ (fun s a => ?_) _ _).trans ?_ | simp only [noteStall_keeps vw hg, foldlState vw, id_eq] | split

theorem schedReady_keeps {γ : Type} (vw : State → γ) (hg : ∀ s t, vw (footDicQueuesWaiters s t) = vw s)
    (s : State) (h : Half) (q : ℕ) (f : Fetched) :
    vw (schedReady s h q f).1 = vw s := by
  unfold schedReady
  repeat' first | with_reducible rfl | with_reducible refine (foldlState vw _ (fun s a => ?_) _ _).trans ?_ | simp only [noteStall_keeps vw (fun s t => hg s (footDicQueues s t)), noteWait_keeps vw hg, foldlState vw, id_eq] | split

end Sys2Proof.Machine
end

