-- ==== Sys2Proof/Laws/KeepsB.lean ====
section
/-!
SUPPORT. What each shared operation can change (part 2 of 4): a view of the state that no field of its footprint
reaches reads the same after it.
-/

namespace Sys2Proof.Machine

set_option linter.unusedSimpArgs false
set_option linter.unusedTactic false
set_option linter.unreachableTactic false

theorem mbxEnd_keeps {γ : Type} (vw : State → γ) (hg : ∀ s t, vw (footOutHost s t) = vw s)
    (s : State) (status : ℕ) :
    vw (mbxEnd s status) = vw s := by
  have h0 : ∀ s x0, vw { s with host := x0 } = vw s := fun s x0 => hg s { s with host := x0 }
  unfold mbxEnd
  repeat' first | with_reducible rfl | with_reducible refine (foldlState vw _ (fun s a => ?_) _ _).trans ?_ | simp only [h0, sendVector_keeps vw hg, foldlState vw, id_eq] | split

theorem mbxResult_keeps {γ : Type} (vw : State → γ) (hg : ∀ s t, vw (footHost s t) = vw s)
    (s : State) (i : ℕ) (v : ℕ) :
    vw (mbxResult s i v) = vw s := by
  have h0 : ∀ s x0, vw { s with host := x0 } = vw s := fun s x0 => hg s { s with host := x0 }
  unfold mbxResult
  repeat' first | with_reducible rfl | with_reducible refine (foldlState vw _ (fun s a => ?_) _ _).trans ?_ | simp only [h0, foldlState vw, id_eq] | split

theorem mbxRun_keeps {γ : Type} (vw : State → γ) (hg : ∀ s t, vw (footOutHost s t) = vw s)
    (s : State) (cmd : ℕ) (f : State → State)
    (h_f : ∀ s, vw (f s) = vw s) :
    vw (mbxRun s cmd f) = vw s := by
  unfold mbxRun
  repeat' first | with_reducible rfl | with_reducible refine (foldlState vw _ (fun s a => ?_) _ _).trans ?_ | simp only [h_f, mbxEnd_keeps vw hg, foldlState vw, id_eq] | split

theorem readClean_keeps {γ : Type} (vw : State → γ) (hg : ∀ s t, vw (footDicHost s t) = vw s)
    (s : State) (addr : ℕ) (n : ℕ) (f : Fetch) :
    vw (readClean s addr n f).1 = vw s := by
  unfold readClean
  repeat' first | with_reducible rfl | with_reducible refine (foldlState vw _ (fun s a => ?_) _ _).trans ?_ | simp only [countAddrError_keeps vw (fun s t => hg s (footDic s t)), forgetBad_keeps vw (fun s t => hg s (footHost s t)), foldlState vw, id_eq] | split

theorem hostReply_keeps {γ : Type} (vw : State → γ) (hg : ∀ s t, vw (footOutHost s t) = vw s)
    (s : State) (m : Bytes) (status : ℕ) (data : Bytes) :
    vw (hostReply s m status data) = vw s := by
  have h0 : ∀ s x0, vw { s with host := x0 } = vw s := fun s x0 => hg s { s with host := x0 }
  unfold hostReply
  repeat' first | with_reducible rfl | with_reducible refine (foldlState vw _ (fun s a => ?_) _ _).trans ?_ | simp only [h0, mbxEnd_keeps vw hg, foldlState vw, id_eq] | split

theorem gate_keeps {γ : Type} (vw : State → γ) (s : State) (sup : Bool) (key : Nat) (a : Answer) (h : vw a.st = vw s) :
    vw (gate s sup key a).st = vw s := by
  unfold gate
  repeat' first | with_reducible rfl | exact h | split

theorem askHost_keeps {γ : Type} (vw : State → γ) (hg : ∀ s t, vw (footOutHost s t) = vw s)
    (s : State) (op : ℕ) (key : ℕ) (payload : Bytes) (run : State → Role → Answer) (sup : Bool)
    (h_run : ∀ s a0, vw (run s a0).st = vw s) :
    vw (askHost s op key payload run sup) = vw s := by
  unfold askHost
  repeat' first | with_reducible rfl | with_reducible refine (foldlState vw _ (fun s a => ?_) _ _).trans ?_ | with_reducible refine gate_keeps vw _ _ _ _ ?_ | simp only [h_run, mbxEnd_keeps vw hg, hostReply_keeps vw hg, foldlState vw, id_eq] | split

theorem updSession_keeps {γ : Type} (vw : State → γ) (hg : ∀ s t, vw (footMgmt s t) = vw s)
    (s : State) (id : ℕ) (f : Session → Session) :
    vw (updSession s id f) = vw s := by
  have h0 : ∀ s x0, vw { s with mgmt := x0 } = vw s := fun s x0 => hg s { s with mgmt := x0 }
  unfold updSession
  repeat' first | with_reducible rfl | with_reducible refine (foldlState vw _ (fun s a => ?_) _ _).trans ?_ | simp only [h0, foldlState vw, id_eq] | split

theorem takeMsg_keeps {γ : Type} (vw : State → γ) (hg : ∀ s t, vw (footMgmt s t) = vw s)
    (s : State) (ip : ℕ) (port : ℕ) (session : ℕ) (seq : ℕ) :
    vw (takeMsg s ip port session seq) = vw s := by
  have h0 : ∀ s x0, vw { s with mgmt := x0 } = vw s := fun s x0 => hg s { s with mgmt := x0 }
  unfold takeMsg
  repeat' first | with_reducible rfl | with_reducible refine (foldlState vw _ (fun s a => ?_) _ _).trans ?_ | simp only [h0, foldlState vw, id_eq] | split

theorem inSession_keeps {γ : Type} (vw : State → γ) (hg : ∀ s t, vw (footOutDicMgmt s t) = vw s)
    (s : State) (x : Session) (ip : ℕ) (port : ℕ) (seq : ℕ) (op : ℕ) (run : State → Answer)
    (h_run : ∀ s, vw (run s).st = vw s) :
    vw (inSession s x ip port seq op run) = vw s := by
  unfold inSession
  repeat' first | with_reducible rfl | with_reducible refine (foldlState vw _ (fun s a => ?_) _ _).trans ?_ | simp only [h_run, objInc_keeps vw (fun s t => hg s (footDic s t)), emit_keeps vw (fun s t => hg s (footOut s t)), updSession_keeps vw (fun s t => hg s (footMgmt s t)), foldlState vw, id_eq] | split

theorem askMgmt_keeps {γ : Type} (vw : State → γ) (hg : ∀ s t, vw (footOutDicMgmt s t) = vw s)
    (s : State) (ip : ℕ) (port : ℕ) (session : ℕ) (seq : ℕ) (op : ℕ) (key : ℕ) (payload : Bytes) (run : State → Role → Answer) (sup : Bool)
    (h_run : ∀ s a0, vw (run s a0).st = vw s) :
    vw (askMgmt s ip port session seq op key payload run sup) = vw s := by
  unfold askMgmt
  repeat' first | with_reducible rfl | with_reducible refine (foldlState vw _ (fun s a => ?_) _ _).trans ?_ | with_reducible refine (inSession_keeps vw hg _ _ _ _ _ _ _ (fun _ => ?_)).trans ?_ | with_reducible refine gate_keeps vw _ _ _ _ ?_ | simp only [h_run, emit_keeps vw (fun s t => hg s (footOut s t)), inSession_keeps vw hg, takeMsg_keeps vw (fun s t => hg s (footMgmt s t)), foldlState vw, id_eq] | split

theorem monReply_keeps {γ : Type} (vw : State → γ) (hg : ∀ s t, vw (footOut s t) = vw s) (a : Answer) (key : Nat) :
    vw (monReply a key) = vw a.st := by
  unfold monReply
  repeat' first | with_reducible rfl | simp only [emit_keeps vw hg] | split

theorem askMon_keeps {γ : Type} (vw : State → γ) (hg : ∀ s t, vw (footOutDic s t) = vw s)
    (s : State) (write : Bool) (key : ℕ) (run : State → Role → Answer) (sup : Bool)
    (h_run : ∀ s a0, vw (run s a0).st = vw s) :
    vw (askMon s write key run sup) = vw s := by
  unfold askMon
  repeat' first | with_reducible rfl | with_reducible refine (foldlState vw _ (fun s a => ?_) _ _).trans ?_ | with_reducible refine gate_keeps vw _ _ _ _ ?_ | simp only [h_run, objInc_keeps vw (fun s t => hg s (footDic s t)), emit_keeps vw (fun s t => hg s (footOut s t)), foldlState vw, id_eq, monReply_keeps vw (fun s t => hg s (footOut s t))] | split

theorem ask_keeps {γ : Type} (vw : State → γ) (hg : ∀ s t, vw (foot4_25 s t) = vw s)
    (s : State) (r : Route) (sup : Bool) (op : ℕ) (key : ℕ) (payload : Bytes) (run : State → Role → Answer)
    (h_run : ∀ s a0, vw (run s a0).st = vw s) :
    vw (ask s r sup op key payload run) = vw s := by
  have k_askMgmt := askMgmt_keeps vw (fun s t => hg s (footOutDicMgmt s t))
  have k_askHost := askHost_keeps vw (fun s t => hg s (footOutHost s t))
  have k_askMon := askMon_keeps vw (fun s t => hg s (footOutDic s t))
  unfold ask
  repeat' first | with_reducible rfl | with_reducible refine (foldlState vw _ (fun s a => ?_) _ _).trans ?_ | with_reducible refine (k_askMgmt _ _ _ _ _ _ _ _ _ _ (fun _ _ => ?_)).trans ?_ | with_reducible refine (k_askHost _ _ _ _ _ _ (fun _ _ => ?_)).trans ?_ | with_reducible refine (k_askMon _ _ _ _ _ (fun _ _ => ?_)).trans ?_ | simp only [h_run, askMgmt_keeps vw (fun s t => hg s (footOutDicMgmt s t)), askHost_keeps vw (fun s t => hg s (footOutHost s t)), askMon_keeps vw (fun s t => hg s (footOutDic s t)), foldlState vw, id_eq] | split

theorem journalWrite_keeps {γ : Type} (vw : State → γ) (hg : ∀ s t, vw (footDicObs s t) = vw s)
    (s : State) (r : Route) (role : Role) (key : ℕ) (old : ℕ) (new : ℕ) :
    vw (journalWrite s r role key old new) = vw s := by
  unfold journalWrite
  repeat' first | with_reducible rfl | with_reducible refine (foldlState vw _ (fun s a => ?_) _ _).trans ?_ | simp only [journal_keeps vw hg, foldlState vw, id_eq] | split

theorem notePersist_keeps {γ : Type} (vw : State → γ) (hg : ∀ s t, vw (footPersist s t) = vw s)
    (s : State) (key : ℕ) :
    vw (notePersist s key) = vw s := by
  have h0 : ∀ s x0, vw { s with persist := x0 } = vw s := fun s x0 => hg s { s with persist := x0 }
  unfold notePersist
  repeat' first | with_reducible rfl | with_reducible refine (foldlState vw _ (fun s a => ?_) _ _).trans ?_ | simp only [h0, foldlState vw, id_eq] | split

theorem applyNum_keeps {γ : Type} (vw : State → γ) (hg : ∀ s t, vw (footDicPersistObs s t) = vw s)
    (s : State) (r : Route) (role : Role) (row : ObjRow) (key : ℕ) (n : ℕ) :
    vw (applyNum s r role row key n) = vw s := by
  unfold applyNum
  repeat' first | with_reducible rfl | with_reducible refine (foldlState vw _ (fun s a => ?_) _ _).trans ?_ | simp only [journalWrite_keeps vw (fun s t => hg s (footDicObs s t)), objPut_keeps vw (fun s t => hg s (footDic s t)), notePersist_keeps vw (fun s t => hg s (footPersist s t)), foldlState vw, id_eq] | split

theorem writeNum_keeps {γ : Type} (vw : State → γ) (hg : ∀ s t, vw (footDicPersistObs s t) = vw s)
    (s : State) (r : Route) (role : Role) (key : ℕ) (v : Bytes) (own : State → ℕ → ℕ) (effect : State → ℕ → State)
    (h_effect : ∀ s a0, vw (effect s a0) = vw s) :
    vw (writeNum s r role key v own effect).st = vw s := by
  unfold writeNum
  repeat' first | with_reducible rfl | with_reducible refine (foldlState vw _ (fun s a => ?_) _ _).trans ?_ | simp only [h_effect, applyNum_keeps vw hg, foldlState vw, id_eq] | split

theorem writeRow_keeps {γ : Type} (vw : State → γ) (hg : ∀ s t, vw (foot6_13 s t) = vw s)
    (s : State) (r : Route) (key : ℕ) (v : Bytes) (sup : Bool) (own : State → ℕ → ℕ) (effect : State → ℕ → State)
    (h_effect : ∀ s a0, vw (effect s a0) = vw s) :
    vw (writeRow s r key v sup own effect) = vw s := by
  have k_writeNum := writeNum_keeps vw (fun s t => hg s (footDicPersistObs s t))
  have k_ask := ask_keeps vw (fun s t => hg s (foot4_25 s t))
  unfold writeRow
  repeat' first | with_reducible rfl | with_reducible refine (foldlState vw _ (fun s a => ?_) _ _).trans ?_ | with_reducible refine (k_writeNum _ _ _ _ _ _ _ (fun _ _ => ?_)).trans ?_ | with_reducible refine (k_ask _ _ _ _ _ _ _ (fun _ _ => ?_)).trans ?_ | simp only [h_effect, writeNum_keeps vw (fun s t => hg s (footDicPersistObs s t)), ask_keeps vw (fun s t => hg s (foot4_25 s t)), foldlState vw, id_eq] | split

theorem fuseWrite_keeps {γ : Type} (vw : State → γ) (hg : ∀ s t, vw (footDicObs s t) = vw s)
    (s : State) (r : Route) (role : Role) (key : ℕ) (left : ℕ) (n : ℕ) (last : Bool) (burnt : Bool) (effect : State → State)
    (h_effect : ∀ s, vw (effect s) = vw s) :
    vw (fuseWrite s r role key left n last burnt effect).st = vw s := by
  unfold fuseWrite
  repeat' first | with_reducible rfl | with_reducible refine (foldlState vw _ (fun s a => ?_) _ _).trans ?_ | simp only [h_effect, objInc_keeps vw (fun s t => hg s (footDic s t)), journalWrite_keeps vw hg, objPut_keeps vw (fun s t => hg s (footDic s t)), foldlState vw, id_eq] | split

theorem fuseRow_keeps {γ : Type} (vw : State → γ) (hg : ∀ s t, vw (foot5_13 s t) = vw s)
    (s : State) (r : Route) (key : ℕ) (left : ℕ) (v : Bytes) (burnt : Bool) (own : State → ℕ → ℕ) (effect : State → State)
    (h_effect : ∀ s, vw (effect s) = vw s) :
    vw (fuseRow s r key left v burnt own effect) = vw s := by
  have k_fuseWrite := fuseWrite_keeps vw (fun s t => hg s (footDicObs s t))
  have k_ask := ask_keeps vw (fun s t => hg s (foot4_25 s t))
  unfold fuseRow
  repeat' first | with_reducible rfl | with_reducible refine (foldlState vw _ (fun s a => ?_) _ _).trans ?_ | with_reducible refine (k_fuseWrite _ _ _ _ _ _ _ _ _ (fun _ => ?_)).trans ?_ | with_reducible refine (k_ask _ _ _ _ _ _ _ (fun _ _ => ?_)).trans ?_ | simp only [h_effect, fuseWrite_keeps vw (fun s t => hg s (footDicObs s t)), ask_keeps vw (fun s t => hg s (foot4_25 s t)), foldlState vw, id_eq] | split

theorem dropXfer_keeps {γ : Type} (vw : State → γ) (hg : ∀ s t, vw (footMgmt s t) = vw s)
    (s : State) (handle : ℕ) :
    vw (dropXfer s handle) = vw s := by
  have h0 : ∀ s x0, vw { s with mgmt := x0 } = vw s := fun s x0 => hg s { s with mgmt := x0 }
  unfold dropXfer
  repeat' first | with_reducible rfl | with_reducible refine (foldlState vw _ (fun s a => ?_) _ _).trans ?_ | simp only [h0, foldlState vw, id_eq] | split

theorem applyDom_keeps {γ : Type} (vw : State → γ) (hg : ∀ s t, vw (foot4_8 s t) = vw s)
    (s : State) (r : Route) (role : Role) (row : ObjRow) (key : ℕ) (image : Bytes) :
    vw (applyDom s r role row key image) = vw s := by
  unfold applyDom
  repeat' first | with_reducible rfl | with_reducible refine (foldlState vw _ (fun s a => ?_) _ _).trans ?_ | simp only [domPut_keeps vw (fun s t => hg s (footDoms s t)), journal_keeps vw (fun s t => hg s (footDicObs s t)), notePersist_keeps vw (fun s t => hg s (footPersist s t)), foldlState vw, id_eq] | split

theorem commitDom_keeps {γ : Type} (vw : State → γ) (hg : ∀ s t, vw (foot5_5 s t) = vw s)
    (s : State) (r : Route) (role : Role) (x : Xfer) (digest : Bytes) (check : ℕ → Bool) (own : State → Bytes → ℕ) (effect : State → Bytes → State) (refused : (State → State))
    (h_effect : ∀ s a0, vw (effect s a0) = vw s) (h_refused : ∀ s, vw (refused s) = vw s) :
    vw (commitDom s r role x digest check own effect refused).st = vw s := by
  unfold commitDom
  repeat' first | with_reducible rfl | with_reducible refine (foldlState vw _ (fun s a => ?_) _ _).trans ?_ | simp only [h_effect, h_refused, applyDom_keeps vw (fun s t => hg s (foot4_8 s t)), dropXfer_keeps vw (fun s t => hg s (footMgmt s t)), foldlState vw, id_eq] | split

theorem commitRow_keeps {γ : Type} (vw : State → γ) (hg : ∀ s t, vw (foot7_4 s t) = vw s)
    (s : State) (r : Route) (key : ℕ) (handle : ℕ) (digest : Bytes) (sup : Bool) (check : ℕ → Bool) (own : State → Bytes → ℕ) (effect : State → Bytes → State) (refused : (State → State))
    (h_effect : ∀ s a0, vw (effect s a0) = vw s) (h_refused : ∀ s, vw (refused s) = vw s) :
    vw (commitRow s r key handle digest sup check own effect refused) = vw s := by
  have k_commitDom := commitDom_keeps vw (fun s t => hg s (foot5_5 s t))
  have k_ask := ask_keeps vw (fun s t => hg s (foot4_25 s t))
  unfold commitRow
  repeat' first | with_reducible rfl | with_reducible refine (foldlState vw _ (fun s a => ?_) _ _).trans ?_ | with_reducible refine (k_commitDom _ _ _ _ _ _ _ _ _ (fun _ _ => ?_) (fun _ => ?_)).trans ?_ | with_reducible refine (k_ask _ _ _ _ _ _ _ (fun _ _ => ?_)).trans ?_ | simp only [h_effect, h_refused, commitDom_keeps vw (fun s t => hg s (foot5_5 s t)), ask_keeps vw (fun s t => hg s (foot4_25 s t)), foldlState vw, id_eq] | split

theorem updRing_keeps {γ : Type} (vw : State → γ) (hg : ∀ s t, vw (footRings s t) = vw s)
    (s : State) (r : ℕ) (f : Ring → Ring) :
    vw (updRing s r f) = vw s := by
  have h0 : ∀ s x0, vw { s with rings := x0 } = vw s := fun s x0 => hg s { s with rings := x0 }
  unfold updRing
  repeat' first | with_reducible rfl | with_reducible refine (foldlState vw _ (fun s a => ?_) _ _).trans ?_ | simp only [h0, foldlState vw, id_eq] | split

theorem setRingRetired_keeps {γ : Type} (vw : State → γ) (hg : ∀ s t, vw (footPersistDoms s t) = vw s)
    (s : State) (r : ℕ) (b : Bool) :
    vw (setRingRetired s r b) = vw s := by
  unfold setRingRetired
  repeat' first | with_reducible rfl | with_reducible refine (foldlState vw _ (fun s a => ?_) _ _).trans ?_ | simp only [domPut_keeps vw (fun s t => hg s (footDoms s t)), notePersist_keeps vw (fun s t => hg s (footPersist s t)), foldlState vw, id_eq] | split

theorem updRotor_keeps {γ : Type} (vw : State → γ) (hg : ∀ s t, vw (footRotors s t) = vw s)
    (s : State) (x : ℕ) (f : Rotor → Rotor) :
    vw (updRotor s x f) = vw s := by
  have h0 : ∀ s x0, vw { s with rotors := x0 } = vw s := fun s x0 => hg s { s with rotors := x0 }
  unfold updRotor
  repeat' first | with_reducible rfl | with_reducible refine (foldlState vw _ (fun s a => ?_) _ _).trans ?_ | simp only [h0, foldlState vw, id_eq] | split

theorem updLaser_keeps {γ : Type} (vw : State → γ) (hg : ∀ s t, vw (footLasers s t) = vw s)
    (s : State) (k : ℕ) (f : Laser → Laser) :
    vw (updLaser s k f) = vw s := by
  have h0 : ∀ s x0, vw { s with lasers := x0 } = vw s := fun s x0 => hg s { s with lasers := x0 }
  unfold updLaser
  repeat' first | with_reducible rfl | with_reducible refine (foldlState vw _ (fun s a => ?_) _ _).trans ?_ | simp only [h0, foldlState vw, id_eq] | split

theorem moveRef_keeps {γ : Type} (vw : State → γ) (hg : ∀ s t, vw (footDicLasersObs s t) = vw s)
    (s : State) (k : ℕ) :
    vw (moveRef s k) = vw s := by
  unfold moveRef
  repeat' first | with_reducible rfl | with_reducible refine (foldlState vw _ (fun s a => ?_) _ _).trans ?_ | simp only [journal_keeps vw (fun s t => hg s (footDicObs s t)), updLaser_keeps vw (fun s t => hg s (footLasers s t)), foldlState vw, id_eq] | split

theorem unlockRing_keeps {γ : Type} (vw : State → γ) (hg : ∀ s t, vw (foot4_5 s t) = vw s)
    (s : State) (r : ℕ) (f : Ring → Ring) :
    vw (unlockRing s r f) = vw s := by
  unfold unlockRing
  repeat' first | with_reducible rfl | with_reducible refine (foldlState vw _ (fun s a => ?_) _ _).trans ?_ | simp only [moveRef_keeps vw (fun s t => hg s (footDicLasersObs s t)), updRing_keeps vw (fun s t => hg s (footRings s t)), foldlState vw, id_eq] | split

theorem parkRing_keeps {γ : Type} (vw : State → γ) (hg : ∀ s t, vw (foot4_5 s t) = vw s)
    (s : State) (r : ℕ) :
    vw (parkRing s r) = vw s := by
  unfold parkRing
  repeat' first | with_reducible rfl | with_reducible refine (foldlState vw _ (fun s a => ?_) _ _).trans ?_ | simp only [unlockRing_keeps vw hg, foldlState vw, id_eq] | split

theorem updLink_keeps {γ : Type} (vw : State → γ) (hg : ∀ s t, vw (footLinks s t) = vw s)
    (s : State) (k : ℕ) (f : Link → Link) :
    vw (updLink s k f) = vw s := by
  have h0 : ∀ s x0, vw { s with links := x0 } = vw s := fun s x0 => hg s { s with links := x0 }
  unfold updLink
  repeat' first | with_reducible rfl | with_reducible refine (foldlState vw _ (fun s a => ?_) _ _).trans ?_ | simp only [h0, foldlState vw, id_eq] | split

theorem updSpec_keeps {γ : Type} (vw : State → γ) (hg : ∀ s t, vw (footSpecMap s t) = vw s)
    (s : State) (x : ℕ) (j : ℕ) (f : MapEntry → MapEntry) :
    vw (updSpec s x j f) = vw s := by
  have h0 : ∀ s x0, vw { s with specMap := x0 } = vw s := fun s x0 => hg s { s with specMap := x0 }
  unfold updSpec
  repeat' first | with_reducible rfl | with_reducible refine (foldlState vw _ (fun s a => ?_) _ _).trans ?_ | simp only [h0, foldlState vw, id_eq] | split

theorem updLane_keeps {γ : Type} (vw : State → γ) (hg : ∀ s t, vw (footLinks s t) = vw s)
    (s : State) (k : ℕ) (outgoing : Bool) (idx : ℕ) (f : Lane → Lane) :
    vw (updLane s k outgoing idx f) = vw s := by
  unfold updLane
  repeat' first | with_reducible rfl | with_reducible refine (foldlState vw _ (fun s a => ?_) _ _).trans ?_ | simp only [updLink_keeps vw hg, foldlState vw, id_eq] | split

theorem oweCredit_keeps {γ : Type} (vw : State → γ) (hg : ∀ s t, vw (footLinks s t) = vw s)
    (s : State) (k : ℕ) (p : Packet) :
    vw (oweCredit s k p) = vw s := by
  unfold oweCredit
  repeat' first | with_reducible rfl | with_reducible refine (foldlState vw _ (fun s a => ?_) _ _).trans ?_ | simp only [updLink_keeps vw hg, foldlState vw, id_eq] | split

theorem sendFlit_keeps {γ : Type} (vw : State → γ) (hg : ∀ s t, vw (footLinks s t) = vw s)
    (s : State) (k : ℕ) (b : FlitBody) :
    vw (sendFlit s k b) = vw s := by
  unfold sendFlit
  repeat' first | with_reducible rfl | with_reducible refine (foldlState vw _ (fun s a => ?_) _ _).trans ?_ | simp only [updLink_keeps vw hg, foldlState vw, id_eq] | split

theorem sendCtl_keeps {γ : Type} (vw : State → γ) (hg : ∀ s t, vw (footDicLinks s t) = vw s)
    (s : State) (k : ℕ) (c : Ctl) :
    vw (sendCtl s k c) = vw s := by
  unfold sendCtl
  repeat' first | with_reducible rfl | with_reducible refine (foldlState vw _ (fun s a => ?_) _ _).trans ?_ | simp only [updLink_keeps vw (fun s t => hg s (footLinks s t)), objInc_keeps vw (fun s t => hg s (footDic s t)), sendFlit_keeps vw (fun s t => hg s (footLinks s t)), foldlState vw, id_eq] | split

theorem drainCtl_keeps {γ : Type} (vw : State → γ) (hg : ∀ s t, vw (footLinks s t) = vw s)
    (s : State) (k : ℕ) (x1 : ℕ) :
    vw (drainCtl s k x1) = vw s := by
  fun_induction drainCtl s k x1
  all_goals repeat' first | with_reducible rfl | assumption | with_reducible refine (foldlState vw _ (fun s a => ?_) _ _).trans ?_ | simp only [*, sendFlit_keeps vw hg, updLink_keeps vw hg, foldlState vw, id_eq] | split | simp +zetaDelta only [sendFlit_keeps vw hg, updLink_keeps vw hg, foldlState vw, id_eq]

theorem slotFlit_keeps {γ : Type} (vw : State → γ) (hg : ∀ s t, vw (footOutLinks s t) = vw s)
    (s : State) (k : ℕ) (a : Lane) (lines : List ℕ) (switch : Bool) (phase : Bool) :
    vw (slotFlit s k a lines switch phase) = vw s := by
  unfold slotFlit
  repeat' first | with_reducible rfl | with_reducible refine (foldlState vw _ (fun s a => ?_) _ _).trans ?_ | simp only [updLink_keeps vw (fun s t => hg s (footLinks s t)), emit_keeps vw (fun s t => hg s (footOut s t)), foldlState vw, id_eq] | split

theorem slotLink_keeps {γ : Type} (vw : State → γ) (hg : ∀ s t, vw (footOutLinks s t) = vw s)
    (s : State) (k : ℕ) :
    vw (slotLink s k) = vw s := by
  unfold slotLink
  repeat' first | with_reducible rfl | with_reducible refine (foldlState vw _ (fun s a => ?_) _ _).trans ?_ | simp only [slotFlit_keeps vw hg, foldlState vw, id_eq] | split

theorem flitSlots_keeps {γ : Type} (vw : State → γ) (hg : ∀ s t, vw (footOutLinks s t) = vw s)
    (s : State) :
    vw (flitSlots s) = vw s := by
  unfold flitSlots
  repeat' first | with_reducible rfl | with_reducible refine (foldlState vw _ (fun s a => ?_) _ _).trans ?_ | simp only [slotLink_keeps vw hg, foldlState vw, id_eq] | split

theorem noteOld_keeps {γ : Type} (vw : State → γ) (hg : ∀ s t, vw (footDic s t) = vw s)
    (s : State) (p : Packet) :
    vw (noteOld s p) = vw s := by
  unfold noteOld
  repeat' first | with_reducible rfl | with_reducible refine (foldlState vw _ (fun s a => ?_) _ _).trans ?_ | simp only [objPut_keeps vw hg, foldlState vw, id_eq] | split

theorem noteResent_keeps {γ : Type} (vw : State → γ) (hg : ∀ s t, vw (footOutst s t) = vw s)
    (s : State) (p : Packet) :
    vw (noteResent s p) = vw s := by
  have h0 : ∀ s x0, vw { s with outst := x0 } = vw s := fun s x0 => hg s { s with outst := x0 }
  unfold noteResent
  repeat' first | with_reducible rfl | with_reducible refine (foldlState vw _ (fun s a => ?_) _ _).trans ?_ | simp only [h0, foldlState vw, id_eq] | split

theorem reinject_keeps {γ : Type} (vw : State → γ) (hg : ∀ s t, vw (foot4_13 s t) = vw s)
    (s : State) (h : Half) (k : ℕ) (x1 : List (ℕ × Packet)) :
    vw (reinject s h k x1) = vw s := by
  fun_induction reinject s h k x1
  all_goals repeat' first | with_reducible rfl | assumption | with_reducible refine (foldlState vw _ (fun s a => ?_) _ _).trans ?_ | simp only [*, noteResent_keeps vw (fun s t => hg s (footOutst s t)), noteOld_keeps vw (fun s t => hg s (footDic s t)), inject_keeps vw (fun s t => hg s (footRouterWRouterE s t)), foldlState vw, id_eq] | split | simp +zetaDelta only [noteResent_keeps vw (fun s t => hg s (footOutst s t)), noteOld_keeps vw (fun s t => hg s (footDic s t)), inject_keeps vw (fun s t => hg s (footRouterWRouterE s t)), foldlState vw, id_eq]

theorem handBack_keeps {γ : Type} (vw : State → γ) (hg : ∀ s t, vw (foot5_3 s t) = vw s)
    (s : State) (k : ℕ) (grey : Bool) :
    vw (handBack s k grey) = vw s := by
  unfold handBack
  repeat' first | with_reducible rfl | with_reducible refine (foldlState vw _ (fun s a => ?_) _ _).trans ?_ | simp only [updLink_keeps vw (fun s t => hg s (footLinks s t)), reinject_keeps vw (fun s t => hg s (foot4_13 s t)), objAdd_keeps vw (fun s t => hg s (footDic s t)), foldlState vw, id_eq] | split

theorem goDark_keeps {γ : Type} (vw : State → γ) (hg : ∀ s t, vw (foot6_3 s t) = vw s)
    (s : State) (k : ℕ) (cause : ℕ) :
    vw (goDark s k cause) = vw s := by
  unfold goDark
  repeat' first | with_reducible rfl | with_reducible refine (foldlState vw _ (fun s a => ?_) _ _).trans ?_ | simp only [updLink_keeps vw (fun s t => hg s (footLinks s t)), journal_keeps vw (fun s t => hg s (footDicObs s t)), objInc_keeps vw (fun s t => hg s (footDic s t)), handBack_keeps vw (fun s t => hg s (foot5_3 s t)), objPut_keeps vw (fun s t => hg s (footDic s t)), foldlState vw, id_eq] | split

theorem goGrey_keeps {γ : Type} (vw : State → γ) (hg : ∀ s t, vw (foot6_3 s t) = vw s)
    (s : State) (k : ℕ) :
    vw (goGrey s k) = vw s := by
  unfold goGrey
  repeat' first | with_reducible rfl | with_reducible refine (foldlState vw _ (fun s a => ?_) _ _).trans ?_ | simp only [journal_keeps vw (fun s t => hg s (footDicObs s t)), handBack_keeps vw (fun s t => hg s (foot5_3 s t)), objPut_keeps vw (fun s t => hg s (footDic s t)), foldlState vw, id_eq] | split

theorem tellCause_keeps {γ : Type} (vw : State → γ) (hg : ∀ s t, vw (footDicLinks s t) = vw s)
    (s : State) (k : ℕ) :
    vw (tellCause s k) = vw s := by
  unfold tellCause
  repeat' first | with_reducible rfl | with_reducible refine (foldlState vw _ (fun s a => ?_) _ _).trans ?_ | simp only [updLink_keeps vw (fun s t => hg s (footLinks s t)), sendCtl_keeps vw hg, foldlState vw, id_eq] | split

theorem noteTimes_keeps {γ : Type} (vw : State → γ) (hg : ∀ s t, vw (footLinks s t) = vw s)
    (s : State) (k : ℕ) :
    vw (noteTimes s k) = vw s := by
  unfold noteTimes
  repeat' first | with_reducible rfl | with_reducible refine (foldlState vw _ (fun s a => ?_) _ _).trans ?_ | simp only [updLink_keeps vw hg, foldlState vw, id_eq] | split

theorem settleLink_keeps {γ : Type} (vw : State → γ) (hg : ∀ s t, vw (foot6_3 s t) = vw s)
    (s : State) (k : ℕ) :
    vw (settleLink s k) = vw s := by
  unfold settleLink
  repeat' first | with_reducible rfl | with_reducible refine (foldlState vw _ (fun s a => ?_) _ _).trans ?_ | simp only [tellCause_keeps vw (fun s t => hg s (footDicLinks s t)), objPut_keeps vw (fun s t => hg s (footDic s t)), goGrey_keeps vw hg, goDark_keeps vw hg, noteTimes_keeps vw (fun s t => hg s (footLinks s t)), foldlState vw, id_eq] | split

theorem setCause_keeps {γ : Type} (vw : State → γ) (hg : ∀ s t, vw (foot6_3 s t) = vw s)
    (s : State) (k : ℕ) (cause : ℕ) (on : Bool) :
    vw (setCause s k cause on) = vw s := by
  unfold setCause
  repeat' first | with_reducible rfl | with_reducible refine (foldlState vw _ (fun s a => ?_) _ _).trans ?_ | simp only [updLink_keeps vw (fun s t => hg s (footLinks s t)), settleLink_keeps vw hg, foldlState vw, id_eq] | split

theorem greyAll_keeps {γ : Type} (vw : State → γ) (hg : ∀ s t, vw (foot6_3 s t) = vw s)
    (s : State) (cause : ℕ) :
    vw (greyAll s cause) = vw s := by
  unfold greyAll
  repeat' first | with_reducible rfl | with_reducible refine (foldlState vw _ (fun s a => ?_) _ _).trans ?_ | simp only [setCause_keeps vw hg, foldlState vw, id_eq] | split

theorem journalMismatches_keeps {γ : Type} (vw : State → γ) (hg : ∀ s t, vw (footDicObs s t) = vw s)
    (s : State) (lines : List ℕ) :
    vw (journalMismatches s lines) = vw s := by
  unfold journalMismatches
  repeat' first | with_reducible rfl | with_reducible refine (foldlState vw _ (fun s a => ?_) _ _).trans ?_ | simp only [journalAlert_keeps vw hg, foldlState vw, id_eq] | split

theorem checkMap_keeps {γ : Type} (vw : State → γ) (hg : ∀ s t, vw (foot6_3 s t) = vw s)
    (s : State) :
    vw (checkMap s) = vw s := by
  unfold checkMap
  repeat' first | with_reducible rfl | with_reducible refine (foldlState vw _ (fun s a => ?_) _ _).trans ?_ | simp only [setCause_keeps vw hg, foldlState vw, id_eq] | split

theorem forgetHeld_keeps {γ : Type} (vw : State → γ) (hg : ∀ s t, vw (footRouterWRouterE s t) = vw s)
    (s : State) (k : ℕ) :
    vw (forgetHeld s k) = vw s := by
  unfold forgetHeld
  repeat' first | with_reducible rfl | with_reducible refine (foldlState vw _ (fun s a => ?_) _ _).trans ?_ | simp only [updRouter_keeps vw hg, foldlState vw, id_eq] | split

theorem startNego_keeps {γ : Type} (vw : State → γ) (hg : ∀ s t, vw (foot6_3 s t) = vw s)
    (s : State) (k : ℕ) :
    vw (startNego s k) = vw s := by
  unfold startNego
  repeat' first | with_reducible rfl | with_reducible refine (foldlState vw _ (fun s a => ?_) _ _).trans ?_ | simp only [updLink_keeps vw (fun s t => hg s (footLinks s t)), sendCtl_keeps vw (fun s t => hg s (footDicLinks s t)), settleLink_keeps vw hg, forgetHeld_keeps vw (fun s t => hg s (footRouterWRouterE s t)), foldlState vw, id_eq] | split

theorem bindLink_keeps {γ : Type} (vw : State → γ) (hg : ∀ s t, vw (footStrayInLinks s t) = vw s)
    (s : State) (c : ℕ) (version : ℕ) :
    vw (bindLink s c version).1 = vw s := by
  have h0 : ∀ s x0, vw { s with strayIn := x0 } = vw s := fun s x0 => hg s { s with strayIn := x0 }
  unfold bindLink
  repeat' first | with_reducible rfl | with_reducible refine (foldlState vw _ (fun s a => ?_) _ _).trans ?_ | simp only [h0, updLink_keeps vw (fun s t => hg s (footLinks s t)), foldlState vw, id_eq] | split

theorem tellJoin_keeps {γ : Type} (vw : State → γ) (hg : ∀ s t, vw (footDicLinks s t) = vw s)
    (s : State) (k : ℕ) (idx : ℕ) :
    vw (tellJoin s k idx) = vw s := by
  unfold tellJoin
  repeat' first | with_reducible rfl | with_reducible refine (foldlState vw _ (fun s a => ?_) _ _).trans ?_ | simp only [updLane_keeps vw (fun s t => hg s (footLinks s t)), sendCtl_keeps vw hg, foldlState vw, id_eq] | split

theorem tellJoins_keeps {γ : Type} (vw : State → γ) (hg : ∀ s t, vw (footDicLinks s t) = vw s)
    (s : State) (k : ℕ) :
    vw (tellJoins s k) = vw s := by
  unfold tellJoins
  repeat' first | with_reducible rfl | with_reducible refine (foldlState vw _ (fun s a => ?_) _ _).trans ?_ | simp only [tellJoin_keeps vw hg, foldlState vw, id_eq] | split

theorem joinLane_keeps {γ : Type} (vw : State → γ) (hg : ∀ s t, vw (foot7_1 s t) = vw s)
    (s : State) (k : ℕ) (outgoing : Bool) (lane : Lane) :
    vw (joinLane s k outgoing lane) = vw s := by
  unfold joinLane
  repeat' first | with_reducible rfl | with_reducible refine (foldlState vw _ (fun s a => ?_) _ _).trans ?_ | simp only [updLink_keeps vw (fun s t => hg s (footLinks s t)), updSpec_keeps vw (fun s t => hg s (footSpecMap s t)), tellJoin_keeps vw (fun s t => hg s (footDicLinks s t)), settleLink_keeps vw (fun s t => hg s (foot6_3 s t)), startNego_keeps vw (fun s t => hg s (foot6_3 s t)), foldlState vw, id_eq] | split

theorem returnLane_keeps {γ : Type} (vw : State → γ) (hg : ∀ s t, vw (foot7_1 s t) = vw s)
    (s : State) (k : ℕ) (outgoing : Bool) (lane : Lane) :
    vw (returnLane s k outgoing lane) = vw s := by
  unfold returnLane
  repeat' first | with_reducible rfl | with_reducible refine (foldlState vw _ (fun s a => ?_) _ _).trans ?_ | simp only [updSpec_keeps vw (fun s t => hg s (footSpecMap s t)), updLane_keeps vw (fun s t => hg s (footLinks s t)), tellJoin_keeps vw (fun s t => hg s (footDicLinks s t)), settleLink_keeps vw (fun s t => hg s (foot6_3 s t)), foldlState vw, id_eq] | split

theorem laneOut_keeps {γ : Type} (vw : State → γ) (hg : ∀ s t, vw (foot7_1 s t) = vw s)
    (s : State) (k : ℕ) (outgoing : Bool) (lane : Lane) (why : ℕ) (tell : Bool) :
    vw (laneOut s k outgoing lane why tell) = vw s := by
  unfold laneOut
  repeat' first | with_reducible rfl | with_reducible refine (foldlState vw _ (fun s a => ?_) _ _).trans ?_ | simp only [updSpec_keeps vw (fun s t => hg s (footSpecMap s t)), updLane_keeps vw (fun s t => hg s (footLinks s t)), sendCtl_keeps vw (fun s t => hg s (footDicLinks s t)), settleLink_keeps vw (fun s t => hg s (foot6_3 s t)), foldlState vw, id_eq] | split

theorem removeLink_keeps {γ : Type} (vw : State → γ) (hg : ∀ s t, vw (foot6_2 s t) = vw s)
    (s : State) (k : ℕ) :
    vw (removeLink s k) = vw s := by
  unfold removeLink
  repeat' first | with_reducible rfl | with_reducible refine (foldlState vw _ (fun s a => ?_) _ _).trans ?_ | simp only [updLink_keeps vw (fun s t => hg s (footLinks s t)), updSpec_keeps vw (fun s t => hg s (footSpecMap s t)), parkRing_keeps vw (fun s t => hg s (foot4_5 s t)), objPut_keeps vw (fun s t => hg s (footDic s t)), foldlState vw, id_eq] | split

theorem darkenLine_keeps {γ : Type} (vw : State → γ) (hg : ∀ s t, vw (foot9_1 s t) = vw s)
    (s : State) (x : ℕ) (j : ℕ) :
    vw (darkenLine s x j) = vw s := by
  unfold darkenLine
  repeat' first | with_reducible rfl | with_reducible refine (foldlState vw _ (fun s a => ?_) _ _).trans ?_ | simp only [updLink_keeps vw (fun s t => hg s (footLinks s t)), updSpec_keeps vw (fun s t => hg s (footSpecMap s t)), handBack_keeps vw (fun s t => hg s (foot5_3 s t)), parkRing_keeps vw (fun s t => hg s (foot4_5 s t)), sendCtl_keeps vw (fun s t => hg s (footDicLinks s t)), settleLink_keeps vw (fun s t => hg s (foot6_3 s t)), removeLink_keeps vw (fun s t => hg s (foot6_2 s t)), foldlState vw, id_eq] | split

theorem updBank_keeps {γ : Type} (vw : State → γ) (hg : ∀ s t, vw (footObs s t) = vw s)
    (s : State) (b : ℕ) (f : SnapBank → SnapBank) :
    vw (updBank s b f) = vw s := by
  have h0 : ∀ s x0, vw { s with obs := x0 } = vw s := fun s x0 => hg s { s with obs := x0 }
  unfold updBank
  repeat' first | with_reducible rfl | with_reducible refine (foldlState vw _ (fun s a => ?_) _ _).trans ?_ | simp only [h0, foldlState vw, id_eq] | split

theorem markLink_keeps {γ : Type} (vw : State → γ) (hg : ∀ s t, vw (footDicLinks s t) = vw s)
    (e : ℕ) (reach : ℕ) (s : State) (k : ℕ) :
    vw (markLink e reach s k) = vw s := by
  unfold markLink
  repeat' first | with_reducible rfl | with_reducible refine (foldlState vw _ (fun s a => ?_) _ _).trans ?_ | simp only [updLink_keeps vw (fun s t => hg s (footLinks s t)), sendCtl_keeps vw hg, foldlState vw, id_eq] | split

theorem startSnap_keeps {γ : Type} (vw : State → γ) (hg : ∀ s t, vw (foot4_20 s t) = vw s)
    (s : State) (e : ℕ) (reach : ℕ) (origin : ℕ) :
    vw (startSnap s e reach origin) = vw s := by
  have h0 : ∀ s x0 x1 x2, vw { s with free := x0, links := x1, obs := x2 } = vw s := fun s x0 x1 x2 => hg s { s with free := x0, links := x1, obs := x2 }
  unfold startSnap
  repeat' first | with_reducible rfl | with_reducible refine (foldlState vw _ (fun s a => ?_) _ _).trans ?_ | simp only [h0, markLink_keeps vw (fun s t => hg s (footDicLinks s t)), objPut_keeps vw (fun s t => hg s (footDic s t)), updBank_keeps vw (fun s t => hg s (footObs s t)), foldlState vw, id_eq] | split

theorem joinSnap_keeps {γ : Type} (vw : State → γ) (hg : ∀ s t, vw (foot4_20 s t) = vw s)
    (s : State) (e : ℕ) (reach : ℕ) :
    vw (joinSnap s e reach) = vw s := by
  unfold joinSnap
  repeat' first | with_reducible rfl | with_reducible refine (foldlState vw _ (fun s a => ?_) _ _).trans ?_ | simp only [freeStep_keeps vw (fun s t => hg s (footFree s t)), startSnap_keeps vw hg, foldlState vw, id_eq] | split

theorem endRecord_keeps {γ : Type} (vw : State → γ) (hg : ∀ s t, vw (footLinksObs s t) = vw s)
    (s : State) (k : ℕ) :
    vw (endRecord s k) = vw s := by
  have h0 : ∀ s x0, vw { s with links := x0 } = vw s := fun s x0 => hg s { s with links := x0 }
  unfold endRecord
  repeat' first | with_reducible rfl | with_reducible refine (foldlState vw _ (fun s a => ?_) _ _).trans ?_ | simp only [h0, updLink_keeps vw (fun s t => hg s (footLinks s t)), updBank_keeps vw (fun s t => hg s (footObs s t)), foldlState vw, id_eq] | split

theorem takeMarker_keeps {γ : Type} (vw : State → γ) (hg : ∀ s t, vw (foot4_20 s t) = vw s)
    (s : State) (k : ℕ) (e : ℕ) (reach : ℕ) :
    vw (takeMarker s k e reach) = vw s := by
  have h0 : ∀ s x0, vw { s with obs := x0 } = vw s := fun s x0 => hg s { s with obs := x0 }
  unfold takeMarker
  repeat' first | with_reducible rfl | with_reducible refine (foldlState vw _ (fun s a => ?_) _ _).trans ?_ | simp only [h0, joinSnap_keeps vw hg, endRecord_keeps vw (fun s t => hg s (footLinksObs s t)), foldlState vw, id_eq] | split

theorem closeRecords_keeps {γ : Type} (vw : State → γ) (hg : ∀ s t, vw (footLinksObs s t) = vw s)
    (s : State) (e : ℕ) :
    vw (closeRecords s e) = vw s := by
  unfold closeRecords
  repeat' first | with_reducible rfl | with_reducible refine (foldlState vw _ (fun s a => ?_) _ _).trans ?_ | simp only [endRecord_keeps vw hg, foldlState vw, id_eq] | split

theorem startHeld_keeps {γ : Type} (vw : State → γ) (hg : ∀ s t, vw (foot4_20 s t) = vw s)
    (s : State) :
    vw (startHeld s) = vw s := by
  have h0 : ∀ s x0, vw { s with obs := x0 } = vw s := fun s x0 => hg s { s with obs := x0 }
  unfold startHeld
  repeat' first | with_reducible rfl | with_reducible refine (foldlState vw _ (fun s a => ?_) _ _).trans ?_ | simp only [h0, joinSnap_keeps vw hg, endRecord_keeps vw (fun s t => hg s (footLinksObs s t)), updBank_keeps vw (fun s t => hg s (footObs s t)), foldlState vw, id_eq] | split

theorem closeSnap_keeps {γ : Type} (vw : State → γ) (hg : ∀ s t, vw (foot4_20 s t) = vw s)
    (s : State) :
    vw (closeSnap s) = vw s := by
  have h0 : ∀ s x0, vw { s with obs := x0 } = vw s := fun s x0 => hg s { s with obs := x0 }
  unfold closeSnap
  repeat' first | with_reducible rfl | with_reducible refine (foldlState vw _ (fun s a => ?_) _ _).trans ?_ | simp only [h0, startHeld_keeps vw hg, objInc_keeps vw (fun s t => hg s (footDic s t)), closeRecords_keeps vw (fun s t => hg s (footLinksObs s t)), objPut_keeps vw (fun s t => hg s (footDic s t)), updBank_keeps vw (fun s t => hg s (footObs s t)), foldlState vw, id_eq] | split

theorem dropSnaps_keeps {γ : Type} (vw : State → γ) (hg : ∀ s t, vw (footDicLinksObs s t) = vw s)
    (s : State) :
    vw (dropSnaps s) = vw s := by
  have h0 : ∀ s x0 x1, vw { s with links := x0, obs := x1 } = vw s := fun s x0 x1 => hg s { s with links := x0, obs := x1 }
  unfold dropSnaps
  repeat' first | with_reducible rfl | with_reducible refine (foldlState vw _ (fun s a => ?_) _ _).trans ?_ | simp only [h0, objPut_keeps vw (fun s t => hg s (footDic s t)), foldlState vw, id_eq] | split

theorem abortRotor_keeps {γ : Type} (vw : State → γ) (hg : ∀ s t, vw (footDicRotorsObs s t) = vw s)
    (s : State) (x : ℕ) :
    vw (abortRotor s x) = vw s := by
  unfold abortRotor
  repeat' first | with_reducible rfl | with_reducible refine (foldlState vw _ (fun s a => ?_) _ _).trans ?_ | simp only [journal_keeps vw (fun s t => hg s (footDicObs s t)), objInc_keeps vw (fun s t => hg s (footDic s t)), updRotor_keeps vw (fun s t => hg s (footRotors s t)), foldlState vw, id_eq] | split

theorem abortTold_keeps {γ : Type} (vw : State → γ) (hg : ∀ s t, vw (foot4_11 s t) = vw s)
    (s : State) (x : ℕ) :
    vw (abortTold s x) = vw s := by
  unfold abortTold
  repeat' first | with_reducible rfl | with_reducible refine (foldlState vw _ (fun s a => ?_) _ _).trans ?_ | simp only [sendCtl_keeps vw (fun s t => hg s (footDicLinks s t)), abortRotor_keeps vw (fun s t => hg s (footDicRotorsObs s t)), foldlState vw, id_eq] | split

theorem startRecovery_keeps {γ : Type} (vw : State → γ) (hg : ∀ s t, vw (foot5_1 s t) = vw s)
    (s : State) (ring : ℕ) (k : ℕ) (outgoing : Bool) (lane : ℕ) (full : Bool) :
    vw (startRecovery s ring k outgoing lane full) = vw s := by
  have h0 : ∀ s x0, vw { s with recovery := x0 } = vw s := fun s x0 => hg s { s with recovery := x0 }
  unfold startRecovery
  repeat' first | with_reducible rfl | with_reducible refine (foldlState vw _ (fun s a => ?_) _ _).trans ?_ | simp only [h0, unlockRing_keeps vw (fun s t => hg s (foot4_5 s t)), foldlState vw, id_eq] | split

theorem dropLane_keeps {γ : Type} (vw : State → γ) (hg : ∀ s t, vw (foot11_1 s t) = vw s)
    (s : State) (k : ℕ) (outgoing : Bool) (lane : Lane) :
    vw (dropLane s k outgoing lane) = vw s := by
  have h0 : ∀ s x0 x1, vw { s with recovery := x0, inGrant := x1 } = vw s := fun s x0 x1 => hg s { s with recovery := x0, inGrant := x1 }
  unfold dropLane
  repeat' first | with_reducible rfl | with_reducible refine (foldlState vw _ (fun s a => ?_) _ _).trans ?_ | simp only [h0, updLink_keeps vw (fun s t => hg s (footLinks s t)), updSpec_keeps vw (fun s t => hg s (footSpecMap s t)), handBack_keeps vw (fun s t => hg s (foot5_3 s t)), settleLink_keeps vw (fun s t => hg s (foot6_3 s t)), removeLink_keeps vw (fun s t => hg s (foot6_2 s t)), foldlState vw, id_eq] | split

theorem retireRing_keeps {γ : Type} (vw : State → γ) (hg : ∀ s t, vw (foot14_0 s t) = vw s)
    (s : State) (r : ℕ) :
    vw (retireRing s r) = vw s := by
  have h0 : ∀ s x0 x1 x2, vw { s with reassign := x0, recovery := x1, inGrant := x2 } = vw s := fun s x0 x1 x2 => hg s { s with reassign := x0, recovery := x1, inGrant := x2 }
  unfold retireRing
  repeat' first | with_reducible rfl | with_reducible refine (foldlState vw _ (fun s a => ?_) _ _).trans ?_ | simp only [h0, unlockRing_keeps vw (fun s t => hg s (foot4_5 s t)), journal_keeps vw (fun s t => hg s (footDicObs s t)), dropLane_keeps vw (fun s t => hg s (foot11_1 s t)), updSpec_keeps vw (fun s t => hg s (footSpecMap s t)), setRingRetired_keeps vw (fun s t => hg s (footPersistDoms s t)), journalAlert_keeps vw (fun s t => hg s (footDicObs s t)), foldlState vw, id_eq] | split

theorem requestLine_keeps {γ : Type} (vw : State → γ) (hg : ∀ s t, vw (foot4_30 s t) = vw s)
    (s : State) (x : ℕ) (j : ℕ) :
    vw (requestLine s x j) = vw s := by
  have h0 : ∀ s x0 x1, vw { s with reassign := x0, backDue := x1 } = vw s := fun s x0 x1 => hg s { s with reassign := x0, backDue := x1 }
  unfold requestLine
  repeat' first | with_reducible rfl | with_reducible refine (foldlState vw _ (fun s a => ?_) _ _).trans ?_ | simp only [h0, updSpec_keeps vw (fun s t => hg s (footSpecMap s t)), emit_keeps vw (fun s t => hg s (footOut s t)), foldlState vw, id_eq] | split

theorem darkenSurplus_keeps {γ : Type} (vw : State → γ) (hg : ∀ s t, vw (foot9_1 s t) = vw s)
    (s : State) (d : Demand) :
    vw (darkenSurplus s d) = vw s := by
  unfold darkenSurplus
  repeat' first | with_reducible rfl | with_reducible refine (foldlState vw _ (fun s a => ?_) _ _).trans ?_ | simp only [darkenLine_keeps vw hg, foldlState vw, id_eq] | split

theorem trimDemand_keeps {γ : Type} (vw : State → γ) (hg : ∀ s t, vw (foot9_1 s t) = vw s)
    (s : State) (c : ℕ) :
    vw (trimDemand s c) = vw s := by
  unfold trimDemand
  repeat' first | with_reducible rfl | with_reducible refine (foldlState vw _ (fun s a => ?_) _ _).trans ?_ | simp only [darkenSurplus_keeps vw hg, foldlState vw, id_eq] | split

theorem runTraining_keeps {γ : Type} (vw : State → γ) (hg : ∀ s t, vw (footOutDic s t) = vw s)
    (s : State) (outgoing : Bool) (fibre : ℕ) (line : ℕ) (t : TrainResult) :
    vw (runTraining s outgoing fibre line t) = vw s := by
  unfold runTraining
  repeat' first | with_reducible rfl | with_reducible refine (foldlState vw _ (fun s a => ?_) _ _).trans ?_ | simp only [objInc_keeps vw (fun s t => hg s (footDic s t)), emit_keeps vw (fun s t => hg s (footOut s t)), foldlState vw, id_eq] | split

theorem lockRing_keeps {γ : Type} (vw : State → γ) (hg : ∀ s t, vw (footRingsTrainFails s t) = vw s)
    (s : State) (outgoing : Bool) (fibre : ℕ) (line : ℕ) :
    vw (lockRing s outgoing fibre line) = vw s := by
  have h0 : ∀ s x0, vw { s with trainFails := x0 } = vw s := fun s x0 => hg s { s with trainFails := x0 }
  unfold lockRing
  repeat' first | with_reducible rfl | with_reducible refine (foldlState vw _ (fun s a => ?_) _ _).trans ?_ | simp only [h0, updRing_keeps vw (fun s t => hg s (footRings s t)), foldlState vw, id_eq] | split

theorem admitOut_keeps {γ : Type} (vw : State → γ) (hg : ∀ s t, vw (foot12_1 s t) = vw s)
    (s : State) (fibre : ℕ) (line : ℕ) (t : TrainResult) :
    vw (admitOut s fibre line t) = vw s := by
  have h0 : ∀ s x0, vw { s with needDemand := x0 } = vw s := fun s x0 => hg s { s with needDemand := x0 }
  unfold admitOut
  repeat' first | with_reducible rfl | with_reducible refine (foldlState vw _ (fun s a => ?_) _ _).trans ?_ | exact (congrArg (fun p => vw p.1) ‹bindLink _ _ _ = _›).symm.trans (bindLink_keeps vw (fun s t => hg s (footStrayInLinks s t)) _ _ _) | simp only [h0, joinLane_keeps vw (fun s t => hg s (foot7_1 s t)), trimDemand_keeps vw (fun s t => hg s (foot9_1 s t)), bindLink_keeps vw (fun s t => hg s (footStrayInLinks s t)), objPut_keeps vw (fun s t => hg s (footDic s t)), lockRing_keeps vw (fun s t => hg s (footRingsTrainFails s t)), foldlState vw, id_eq] | split

theorem admitIn_keeps {γ : Type} (vw : State → γ) (hg : ∀ s t, vw (foot11_3 s t) = vw s)
    (s : State) (fibre : ℕ) (line : ℕ) (t : TrainResult) :
    vw (admitIn s fibre line t) = vw s := by
  have h0 : ∀ s x0 x1, vw { s with inGrant := x0, strayIn := x1 } = vw s := fun s x0 x1 => hg s { s with inGrant := x0, strayIn := x1 }
  unfold admitIn
  repeat' first | with_reducible rfl | with_reducible refine (foldlState vw _ (fun s a => ?_) _ _).trans ?_ | simp only [h0, updLink_keeps vw (fun s t => hg s (footLinks s t)), joinLane_keeps vw (fun s t => hg s (foot7_1 s t)), objPut_keeps vw (fun s t => hg s (footDic s t)), lockRing_keeps vw (fun s t => hg s (footRingsTrainFails s t)), foldlState vw, id_eq] | split

theorem admitNew_keeps {γ : Type} (vw : State → γ) (hg : ∀ s t, vw (foot13_1 s t) = vw s)
    (s : State) (outgoing : Bool) (fibre : ℕ) (line : ℕ) (t : TrainResult) :
    vw (admitNew s outgoing fibre line t) = vw s := by
  unfold admitNew
  repeat' first | with_reducible rfl | with_reducible refine (foldlState vw _ (fun s a => ?_) _ _).trans ?_ | simp only [admitIn_keeps vw (fun s t => hg s (foot11_3 s t)), admitOut_keeps vw (fun s t => hg s (foot12_1 s t)), foldlState vw, id_eq] | split

theorem refuseSkew_keeps {γ : Type} (vw : State → γ) (hg : ∀ s t, vw (foot13_0 s t) = vw s)
    (s : State) (outgoing : Bool) (fibre : ℕ) (line : ℕ) :
    vw (refuseSkew s outgoing fibre line) = vw s := by
  have h0 : ∀ s x0 x1 x2, vw { s with reassign := x0, inGrant := x1, skewHold := x2 } = vw s := fun s x0 x1 x2 => hg s { s with reassign := x0, inGrant := x1, skewHold := x2 }
  unfold refuseSkew
  repeat' first | with_reducible rfl | with_reducible refine (foldlState vw _ (fun s a => ?_) _ _).trans ?_ | simp only [h0, journal_keeps vw (fun s t => hg s (footDicObs s t)), dropLane_keeps vw (fun s t => hg s (foot11_1 s t)), darkenLine_keeps vw (fun s t => hg s (foot9_1 s t)), foldlState vw, id_eq] | split

theorem failTraining_keeps {γ : Type} (vw : State → γ) (hg : ∀ s t, vw (foot8_2 s t) = vw s)
    (s : State) (outgoing : Bool) (fibre : ℕ) (line : ℕ) :
    vw (failTraining s outgoing fibre line) = vw s := by
  have h0 : ∀ s x0 x1, vw { s with trainFails := x0, inGrant := x1 } = vw s := fun s x0 x1 => hg s { s with trainFails := x0, inGrant := x1 }
  unfold failTraining
  repeat' first | with_reducible rfl | with_reducible refine (foldlState vw _ (fun s a => ?_) _ _).trans ?_ | simp only [h0, unlockRing_keeps vw (fun s t => hg s (foot4_5 s t)), startRecovery_keeps vw (fun s t => hg s (foot5_1 s t)), updLane_keeps vw (fun s t => hg s (footLinks s t)), foldlState vw, id_eq] | split

theorem takeCapability_keeps {γ : Type} (vw : State → γ) (hg : ∀ s t, vw (footDicLinksObs s t) = vw s)
    (s : State) (k : ℕ) (version : ℕ) (caps : ℕ) (proto : ℕ) :
    vw (takeCapability s k version caps proto) = vw s := by
  unfold takeCapability
  repeat' first | with_reducible rfl | with_reducible refine (foldlState vw _ (fun s a => ?_) _ _).trans ?_ | simp only [updLink_keeps vw (fun s t => hg s (footLinks s t)), journal_keeps vw (fun s t => hg s (footDicObs s t)), sendCtl_keeps vw (fun s t => hg s (footDicLinks s t)), foldlState vw, id_eq] | split

theorem takeCapabilityAck_keeps {γ : Type} (vw : State → γ) (hg : ∀ s t, vw (foot6_3 s t) = vw s)
    (s : State) (k : ℕ) (agreed : ℕ) :
    vw (takeCapabilityAck s k agreed) = vw s := by
  unfold takeCapabilityAck
  repeat' first | with_reducible rfl | with_reducible refine (foldlState vw _ (fun s a => ?_) _ _).trans ?_ | simp only [updLink_keeps vw (fun s t => hg s (footLinks s t)), tellJoins_keeps vw (fun s t => hg s (footDicLinks s t)), settleLink_keeps vw hg, foldlState vw, id_eq] | split

theorem peerReforms_keeps {γ : Type} (vw : State → γ) (hg : ∀ s t, vw (foot6_3 s t) = vw s)
    (s : State) (k : ℕ) :
    vw (peerReforms s k) = vw s := by
  unfold peerReforms
  repeat' first | with_reducible rfl | with_reducible refine (foldlState vw _ (fun s a => ?_) _ _).trans ?_ | simp only [startNego_keeps vw hg, goDark_keeps vw hg, foldlState vw, id_eq] | split

theorem takePropose_keeps {γ : Type} (vw : State → γ) (hg : ∀ s t, vw (footDicLinks s t) = vw s)
    (s : State) (k : ℕ) (idx : ℕ) (line : ℕ) (copyOk : Bool) :
    vw (takePropose s k idx line copyOk) = vw s := by
  unfold takePropose
  repeat' first | with_reducible rfl | with_reducible refine (foldlState vw _ (fun s a => ?_) _ _).trans ?_ | simp only [updLane_keeps vw (fun s t => hg s (footLinks s t)), sendCtl_keeps vw hg, foldlState vw, id_eq] | split

theorem takeAccept_keeps {γ : Type} (vw : State → γ) (hg : ∀ s t, vw (foot4_29 s t) = vw s)
    (s : State) (k : ℕ) (idx : ℕ) :
    vw (takeAccept s k idx) = vw s := by
  unfold takeAccept
  repeat' first | with_reducible rfl | with_reducible refine (foldlState vw _ (fun s a => ?_) _ _).trans ?_ | simp only [slotFlit_keeps vw (fun s t => hg s (footOutLinks s t)), updSpec_keeps vw (fun s t => hg s (footSpecMap s t)), updLane_keeps vw (fun s t => hg s (footLinks s t)), updRotor_keeps vw (fun s t => hg s (footRotors s t)), foldlState vw, id_eq] | split

theorem takeAbort_keeps {γ : Type} (vw : State → γ) (hg : ∀ s t, vw (foot4_11 s t) = vw s)
    (s : State) (k : ℕ) (r : LaneRef) :
    vw (takeAbort s k r) = vw s := by
  unfold takeAbort
  repeat' first | with_reducible rfl | with_reducible refine (foldlState vw _ (fun s a => ?_) _ _).trans ?_ | simp only [updLane_keeps vw (fun s t => hg s (footLinks s t)), abortRotor_keeps vw (fun s t => hg s (footDicRotorsObs s t)), foldlState vw, id_eq] | split

theorem takeDown_keeps {γ : Type} (vw : State → γ) (hg : ∀ s t, vw (foot11_0 s t) = vw s)
    (s : State) (k : ℕ) (r : LaneRef) (cause : ℕ) :
    vw (takeDown s k r cause) = vw s := by
  unfold takeDown
  repeat' first | with_reducible rfl | with_reducible refine (foldlState vw _ (fun s a => ?_) _ _).trans ?_ | simp only [startRecovery_keeps vw (fun s t => hg s (foot5_1 s t)), laneOut_keeps vw (fun s t => hg s (foot7_1 s t)), abortRotor_keeps vw (fun s t => hg s (footDicRotorsObs s t)), foldlState vw, id_eq] | split

theorem takeJoin_keeps {γ : Type} (vw : State → γ) (hg : ∀ s t, vw (foot7_1 s t) = vw s)
    (s : State) (k : ℕ) (idx : ℕ) (seq : ℕ) :
    vw (takeJoin s k idx seq) = vw s := by
  unfold takeJoin
  repeat' first | with_reducible rfl | with_reducible refine (foldlState vw _ (fun s a => ?_) _ _).trans ?_ | simp only [updLink_keeps vw (fun s t => hg s (footLinks s t)), joinLane_keeps vw hg, updLane_keeps vw (fun s t => hg s (footLinks s t)), settleLink_keeps vw (fun s t => hg s (foot6_3 s t)), foldlState vw, id_eq] | split

theorem leaveLane_keeps {γ : Type} (vw : State → γ) (hg : ∀ s t, vw (foot11_1 s t) = vw s)
    (s : State) (k : ℕ) (lane : Lane) :
    vw (leaveLane s k lane) = vw s := by
  unfold leaveLane
  repeat' first | with_reducible rfl | with_reducible refine (foldlState vw _ (fun s a => ?_) _ _).trans ?_ | simp only [updLink_keeps vw (fun s t => hg s (footLinks s t)), dropLane_keeps vw hg, foldlState vw, id_eq] | split

theorem takeLeave_keeps {γ : Type} (vw : State → γ) (hg : ∀ s t, vw (foot11_1 s t) = vw s)
    (s : State) (k : ℕ) (idx : ℕ) (seq : ℕ) :
    vw (takeLeave s k idx seq) = vw s := by
  unfold takeLeave
  repeat' first | with_reducible rfl | with_reducible refine (foldlState vw _ (fun s a => ?_) _ _).trans ?_ | simp only [leaveLane_keeps vw hg, updLane_keeps vw (fun s t => hg s (footLinks s t)), foldlState vw, id_eq] | split

theorem finishLeaves_keeps {γ : Type} (vw : State → γ) (hg : ∀ s t, vw (foot11_1 s t) = vw s)
    (s : State) (k : ℕ) :
    vw (finishLeaves s k) = vw s := by
  unfold finishLeaves
  repeat' first | with_reducible rfl | with_reducible refine (foldlState vw _ (fun s a => ?_) _ _).trans ?_ | simp only [leaveLane_keeps vw hg, foldlState vw, id_eq] | split

theorem takeGrey_keeps {γ : Type} (vw : State → γ) (hg : ∀ s t, vw (foot6_3 s t) = vw s)
    (s : State) (k : ℕ) (cause : ℕ) :
    vw (takeGrey s k cause) = vw s := by
  unfold takeGrey
  repeat' first | with_reducible rfl | with_reducible refine (foldlState vw _ (fun s a => ?_) _ _).trans ?_ | simp only [setCause_keeps vw hg, foldlState vw, id_eq] | split

theorem takeCtl_keeps {γ : Type} (vw : State → γ) (hg : ∀ s t, vw (foot14_1 s t) = vw s)
    (s : State) (k : ℕ) (x1 : Ctl) :
    vw (takeCtl s k x1) = vw s := by
  unfold takeCtl
  repeat' first | with_reducible rfl | with_reducible refine (foldlState vw _ (fun s a => ?_) _ _).trans ?_ | simp only [takeCapability_keeps vw (fun s t => hg s (footDicLinksObs s t)), takeGrey_keeps vw (fun s t => hg s (foot6_3 s t)), takeDown_keeps vw (fun s t => hg s (foot11_0 s t)), takeAccept_keeps vw (fun s t => hg s (foot4_29 s t)), takeLeave_keeps vw (fun s t => hg s (foot11_1 s t)), takePropose_keeps vw (fun s t => hg s (footDicLinks s t)), takeCapabilityAck_keeps vw (fun s t => hg s (foot6_3 s t)), takeMarker_keeps vw (fun s t => hg s (foot4_20 s t)), takeJoin_keeps vw (fun s t => hg s (foot7_1 s t)), takeAbort_keeps vw (fun s t => hg s (foot4_11 s t)), foldlState vw, id_eq] | split

theorem countRx_keeps {γ : Type} (vw : State → γ) (hg : ∀ s t, vw (footLinks s t) = vw s)
    (s : State) (k : ℕ) (p : Packet) :
    vw (countRx s k p) = vw s := by
  unfold countRx
  repeat' first | with_reducible rfl | with_reducible refine (foldlState vw _ (fun s a => ?_) _ _).trans ?_ | simp only [updLink_keeps vw hg, foldlState vw, id_eq] | split

theorem deliverPacket_keeps {γ : Type} (vw : State → γ) (hg : ∀ s t, vw (foot4_6 s t) = vw s)
    (s : State) (k : ℕ) (x : ℕ) (p : Packet) :
    vw (deliverPacket s k x p) = vw s := by
  unfold deliverPacket
  repeat' first | with_reducible rfl | with_reducible refine (foldlState vw _ (fun s a => ?_) _ _).trans ?_ | simp only [countRx_keeps vw (fun s t => hg s (footLinks s t)), objInc_keeps vw (fun s t => hg s (footDic s t)), inject_keeps vw (fun s t => hg s (footRouterWRouterE s t)), noteOld_keeps vw (fun s t => hg s (footDic s t)), oweCredit_keeps vw (fun s t => hg s (footLinks s t)), foldlState vw, id_eq] | split

theorem deliverBody_keeps {γ : Type} (vw : State → γ) (hg : ∀ s t, vw (foot14_1 s t) = vw s)
    (s : State) (k : ℕ) (x : ℕ) (x1 : FlitBody) :
    vw (deliverBody s k x x1) = vw s := by
  unfold deliverBody
  repeat' first | with_reducible rfl | with_reducible refine (foldlState vw _ (fun s a => ?_) _ _).trans ?_ | simp only [deliverPacket_keeps vw (fun s t => hg s (foot4_6 s t)), takeCtl_keeps vw hg, foldlState vw, id_eq] | split

theorem deliverRun_keeps {γ : Type} (vw : State → γ) (hg : ∀ s t, vw (foot14_1 s t) = vw s)
    (s : State) (k : ℕ) (x : ℕ) (x1 : ℕ) :
    vw (deliverRun s k x x1) = vw s := by
  fun_induction deliverRun s k x x1
  all_goals repeat' first | with_reducible rfl | assumption | with_reducible refine (foldlState vw _ (fun s a => ?_) _ _).trans ?_ | simp only [*, deliverBody_keeps vw hg, updLink_keeps vw (fun s t => hg s (footLinks s t)), foldlState vw, id_eq] | split | simp +zetaDelta only [deliverBody_keeps vw hg, updLink_keeps vw (fun s t => hg s (footLinks s t)), foldlState vw, id_eq]

theorem noteLater_keeps {γ : Type} (vw : State → γ) (hg : ∀ s t, vw (footLinks s t) = vw s)
    (s : State) (k : ℕ) :
    vw (noteLater s k) = vw s := by
  unfold noteLater
  repeat' first | with_reducible rfl | with_reducible refine (foldlState vw _ (fun s a => ?_) _ _).trans ?_ | simp only [updLink_keeps vw hg, foldlState vw, id_eq] | split

theorem askAgain_keeps {γ : Type} (vw : State → γ) (hg : ∀ s t, vw (footLinks s t) = vw s)
    (s : State) (k : ℕ) (seq : ℕ) :
    vw (askAgain s k seq) = vw s := by
  unfold askAgain
  repeat' first | with_reducible rfl | with_reducible refine (foldlState vw _ (fun s a => ?_) _ _).trans ?_ | simp only [updLink_keeps vw hg, foldlState vw, id_eq] | split

theorem nakMissing_keeps {γ : Type} (vw : State → γ) (hg : ∀ s t, vw (footLinks s t) = vw s)
    (s : State) (k : ℕ) :
    vw (nakMissing s k) = vw s := by
  unfold nakMissing
  repeat' first | with_reducible rfl | with_reducible refine (foldlState vw _ (fun s a => ?_) _ _).trans ?_ | simp only [askAgain_keeps vw hg, foldlState vw, id_eq] | split

theorem resendFlit_keeps {γ : Type} (vw : State → γ) (hg : ∀ s t, vw (footDicLinks s t) = vw s)
    (s : State) (k : ℕ) (seq : ℕ) :
    vw (resendFlit s k seq) = vw s := by
  unfold resendFlit
  repeat' first | with_reducible rfl | with_reducible refine (foldlState vw _ (fun s a => ?_) _ _).trans ?_ | simp only [updLink_keeps vw (fun s t => hg s (footLinks s t)), objInc_keeps vw (fun s t => hg s (footDic s t)), foldlState vw, id_eq] | split

theorem takeHeader_keeps {γ : Type} (vw : State → γ) (hg : ∀ s t, vw (footDicLinks s t) = vw s)
    (s : State) (k : ℕ) (f : Flit) :
    vw (takeHeader s k f) = vw s := by
  unfold takeHeader
  repeat' first | with_reducible rfl | with_reducible refine (foldlState vw _ (fun s a => ?_) _ _).trans ?_ | simp only [updLink_keeps vw (fun s t => hg s (footLinks s t)), resendFlit_keeps vw hg, drainCtl_keeps vw (fun s t => hg s (footLinks s t)), foldlState vw, id_eq] | split

theorem acceptFlit_keeps {γ : Type} (vw : State → γ) (hg : ∀ s t, vw (foot14_1 s t) = vw s)
    (s : State) (k : ℕ) (idx : ℕ) (x : ℕ) (f : Flit) :
    vw (acceptFlit s k idx x f) = vw s := by
  unfold acceptFlit
  repeat' first | with_reducible rfl | with_reducible refine (foldlState vw _ (fun s a => ?_) _ _).trans ?_ | simp only [updLink_keeps vw (fun s t => hg s (footLinks s t)), finishLeaves_keeps vw (fun s t => hg s (foot11_1 s t)), nakMissing_keeps vw (fun s t => hg s (footLinks s t)), noteLater_keeps vw (fun s t => hg s (footLinks s t)), updLane_keeps vw (fun s t => hg s (footLinks s t)), takeHeader_keeps vw (fun s t => hg s (footDicLinks s t)), deliverRun_keeps vw hg, foldlState vw, id_eq] | split

theorem takeIdle_keeps {γ : Type} (vw : State → γ) (hg : ∀ s t, vw (footDicLinks s t) = vw s)
    (s : State) (k : ℕ) (idx : ℕ) (f : Flit) :
    vw (takeIdle s k idx f) = vw s := by
  unfold takeIdle
  repeat' first | with_reducible rfl | with_reducible refine (foldlState vw _ (fun s a => ?_) _ _).trans ?_ | simp only [nakMissing_keeps vw (fun s t => hg s (footLinks s t)), noteLater_keeps vw (fun s t => hg s (footLinks s t)), updLane_keeps vw (fun s t => hg s (footLinks s t)), takeHeader_keeps vw hg, foldlState vw, id_eq] | split

theorem checkFlit_keeps {γ : Type} (vw : State → γ) (hg : ∀ s t, vw (foot14_1 s t) = vw s)
    (s : State) (k : ℕ) (x : ℕ) (lane : Lane) (f : Flit) :
    vw (checkFlit s k x lane f) = vw s := by
  unfold checkFlit
  repeat' first | with_reducible rfl | with_reducible refine (foldlState vw _ (fun s a => ?_) _ _).trans ?_ | simp only [peerReforms_keeps vw (fun s t => hg s (foot6_3 s t)), startRecovery_keeps vw (fun s t => hg s (foot5_1 s t)), objInc_keeps vw (fun s t => hg s (footDic s t)), updLane_keeps vw (fun s t => hg s (footLinks s t)), takeIdle_keeps vw (fun s t => hg s (footDicLinks s t)), askAgain_keeps vw (fun s t => hg s (footLinks s t)), acceptFlit_keeps vw hg, sendCtl_keeps vw (fun s t => hg s (footDicLinks s t)), laneOut_keeps vw (fun s t => hg s (foot7_1 s t)), foldlState vw, id_eq] | split

theorem takeFlit_keeps {γ : Type} (vw : State → γ) (hg : ∀ s t, vw (foot15_1 s t) = vw s)
    (s : State) (x : ℕ) (j : ℕ) (f : Flit) :
    vw (takeFlit s x j f) = vw s := by
  unfold takeFlit
  repeat' first | with_reducible rfl | with_reducible refine (foldlState vw _ (fun s a => ?_) _ _).trans ?_ | simp only [checkFlit_keeps vw (fun s t => hg s (foot14_1 s t)), updLane_keeps vw (fun s t => hg s (footLinks s t)), islandEvent_keeps vw (fun s t => hg s (footWires s t)), updRing_keeps vw (fun s t => hg s (footRings s t)), foldlState vw, id_eq] | split

theorem noteAdmit_keeps {γ : Type} (vw : State → γ) (hg : ∀ s t, vw (footAdmits s t) = vw s)
    (s : State) (off : ℕ) :
    vw (noteAdmit s off) = vw s := by
  have h0 : ∀ s x0, vw { s with admits := x0 } = vw s := fun s x0 => hg s { s with admits := x0 }
  unfold noteAdmit
  repeat' first | with_reducible rfl | with_reducible refine (foldlState vw _ (fun s a => ?_) _ _).trans ?_ | simp only [h0, foldlState vw, id_eq] | split

theorem holdWord_keeps {γ : Type} (vw : State → γ) (hg : ∀ s t, vw (footDicAtoms s t) = vw s)
    (s : State) (off : ℕ) :
    vw (holdWord s off) = vw s := by
  have h0 : ∀ s x0, vw { s with atoms := x0 } = vw s := fun s x0 => hg s { s with atoms := x0 }
  unfold holdWord
  repeat' first | with_reducible rfl | with_reducible refine (foldlState vw _ (fun s a => ?_) _ _).trans ?_ | simp only [h0, objInc_keeps vw (fun s t => hg s (footDic s t)), foldlState vw, id_eq] | split

theorem atomicAt_keeps {γ : Type} (vw : State → γ) (hg : ∀ s t, vw (foot12_2 s t) = vw s)
    (s : State) (off : ℕ) (op : ℕ) (w64 : Bool) (a : ℕ) (b : ℕ) :
    vw (atomicAt s off op w64 a b).st = vw s := by
  unfold atomicAt
  repeat' first | with_reducible rfl | with_reducible refine (foldlState vw _ (fun s a => ?_) _ _).trans ?_ | simp only [syncAdd_keeps vw (fun s t => hg s (footClaimsSyncWaiters s t)), countAddrError_keeps vw (fun s t => hg s (footDic s t)), holdWord_keeps vw (fun s t => hg s (footDicAtoms s t)), freeStep_keeps vw (fun s t => hg s (footFree s t)), writeBytes_keeps vw (fun s t => hg s (foot8_5 s t)), foldlState vw, id_eq] | split

theorem touchWord_keeps {γ : Type} (vw : State → γ) (hg : ∀ s t, vw (footAtoms s t) = vw s)
    (s : State) (line : ℕ) :
    vw (touchWord s line) = vw s := by
  have h0 : ∀ s x0, vw { s with atoms := x0 } = vw s := fun s x0 => hg s { s with atoms := x0 }
  unfold touchWord
  repeat' first | with_reducible rfl | with_reducible refine (foldlState vw _ (fun s a => ?_) _ _).trans ?_ | simp only [h0, foldlState vw, id_eq] | split

theorem updArray_keeps {γ : Type} (vw : State → γ) (hg : ∀ s t, vw (footArrays s t) = vw s)
    (s : State) (nn : ℕ) (f : ArrayUnit → ArrayUnit) :
    vw (updArray s nn f) = vw s := by
  have h0 : ∀ s x0, vw { s with arrays := x0 } = vw s := fun s x0 => hg s { s with arrays := x0 }
  unfold updArray
  repeat' first | with_reducible rfl | with_reducible refine (foldlState vw _ (fun s a => ?_) _ _).trans ?_ | simp only [h0, foldlState vw, id_eq] | split

theorem retireAll_keeps {γ : Type} (vw : State → γ) (hg : ∀ s t, vw (foot20_0 s t) = vw s)
    (s : State) (nn : ℕ) (x1 : List Issued) :
    vw (retireAll s nn x1) = vw s := by
  fun_induction retireAll s nn x1
  all_goals repeat' first | with_reducible rfl | assumption | with_reducible refine (foldlState vw _ (fun s a => ?_) _ _).trans ?_ | simp only [*, rejectDesc_keeps vw hg, foldlState vw, id_eq] | split | simp +zetaDelta only [rejectDesc_keeps vw hg, foldlState vw, id_eq]

theorem retireArray_keeps {γ : Type} (vw : State → γ) (hg : ∀ s t, vw (foot22_0 s t) = vw s)
    (s : State) (nn : ℕ) :
    vw (retireArray s nn) = vw s := by
  have h0 : ∀ s x0, vw { s with vecs := x0 } = vw s := fun s x0 => hg s { s with vecs := x0 }
  unfold retireArray
  repeat' first | with_reducible rfl | with_reducible refine (foldlState vw _ (fun s a => ?_) _ _).trans ?_ | simp only [h0, objBit_keeps vw (fun s t => hg s (footDic s t)), retireAll_keeps vw (fun s t => hg s (foot20_0 s t)), updArray_keeps vw (fun s t => hg s (footArrays s t)), journalAlert_keeps vw (fun s t => hg s (footDicObs s t)), foldlState vw, id_eq] | split

theorem missEvent_keeps {γ : Type} (vw : State → γ) (hg : ∀ s t, vw (foot22_0 s t) = vw s)
    (s : State) (nn : ℕ) :
    vw (missEvent s nn) = vw s := by
  unfold missEvent
  repeat' first | with_reducible rfl | with_reducible refine (foldlState vw _ (fun s a => ?_) _ _).trans ?_ | simp only [retireArray_keeps vw hg, objInc_keeps vw (fun s t => hg s (footDic s t)), updArray_keeps vw (fun s t => hg s (footArrays s t)), foldlState vw, id_eq] | split

theorem swapTiles_keeps {γ : Type} (vw : State → γ) (hg : ∀ s t, vw (footDicArrays s t) = vw s)
    (s : State) (nn : ℕ) (run : ArrayRun) :
    vw (swapTiles s nn run) = vw s := by
  unfold swapTiles
  repeat' first | with_reducible rfl | with_reducible refine (foldlState vw _ (fun s a => ?_) _ _).trans ?_ | simp only [objAdd_keeps vw (fun s t => hg s (footDic s t)), updArray_keeps vw (fun s t => hg s (footArrays s t)), foldlState vw, id_eq] | split

theorem reloadTiles_keeps {γ : Type} (vw : State → γ) (hg : ∀ s t, vw (footArrays s t) = vw s)
    (s : State) (nn : ℕ) (run : ArrayRun) :
    vw (reloadTiles s nn run) = vw s := by
  unfold reloadTiles
  repeat' first | with_reducible rfl | with_reducible refine (foldlState vw _ (fun s a => ?_) _ _).trans ?_ | simp only [updArray_keeps vw hg, foldlState vw, id_eq] | split

theorem beginArray_keeps {γ : Type} (vw : State → γ) (hg : ∀ s t, vw (footArrays s t) = vw s)
    (s : State) (nn : ℕ) (d : Issued) :
    vw (beginArray s nn d) = vw s := by
  unfold beginArray
  repeat' first | with_reducible rfl | with_reducible refine (foldlState vw _ (fun s a => ?_) _ _).trans ?_ | simp only [updArray_keeps vw hg, foldlState vw, id_eq] | split

theorem leaveCells_keeps {γ : Type} (vw : State → γ) (hg : ∀ s t, vw (footArrays s t) = vw s)
    (s : State) (nn : ℕ) (run : ArrayRun) :
    vw (leaveCells s nn run) = vw s := by
  unfold leaveCells
  repeat' first | with_reducible rfl | with_reducible refine (foldlState vw _ (fun s a => ?_) _ _).trans ?_ | simp only [updArray_keeps vw hg, foldlState vw, id_eq] | split

theorem takeArray_keeps {γ : Type} (vw : State → γ) (hg : ∀ s t, vw (foot21_0 s t) = vw s)
    (s : State) (nn : ℕ) (d : Issued) (r : List Issued) :
    vw (takeArray s nn d r) = vw s := by
  unfold takeArray
  repeat' first | with_reducible rfl | with_reducible refine (foldlState vw _ (fun s a => ?_) _ _).trans ?_ | simp only [beginArray_keeps vw (fun s t => hg s (footArrays s t)), rejectDesc_keeps vw (fun s t => hg s (foot20_0 s t)), updArray_keeps vw (fun s t => hg s (footArrays s t)), foldlState vw, id_eq] | split

theorem preload_keeps {γ : Type} (vw : State → γ) (hg : ∀ s t, vw (footDicArraysTilePoison s t) = vw s)
    (s : State) (nn : ℕ) (d : Issued) (tst : List TstEvent) :
    vw (preload s nn d tst) = vw s := by
  unfold preload
  repeat' first | with_reducible rfl | with_reducible refine (foldlState vw _ (fun s a => ?_) _ _).trans ?_ | simp only [updArray_keeps vw (fun s t => hg s (footArrays s t)), applyTst_keeps vw (fun s t => hg s (footDicTilePoison s t)), foldlState vw, id_eq] | split

theorem arrayPass_keeps {γ : Type} (vw : State → γ) (hg : ∀ s t, vw (foot21_0 s t) = vw s)
    (s : State) (nn : ℕ) (tst : List TstEvent) :
    vw (arrayPass s nn tst) = vw s := by
  unfold arrayPass
  repeat' first | with_reducible rfl | with_reducible refine (foldlState vw _ (fun s a => ?_) _ _).trans ?_ | simp only [preload_keeps vw (fun s t => hg s (footDicArraysTilePoison s t)), leaveCells_keeps vw (fun s t => hg s (footArrays s t)), takeArray_keeps vw hg, applyTst_keeps vw (fun s t => hg s (footDicTilePoison s t)), foldlState vw, id_eq] | split

theorem updRun_keeps {γ : Type} (vw : State → γ) (hg : ∀ s t, vw (footArrays s t) = vw s)
    (s : State) (nn : ℕ) (f : ArrayRun → ArrayRun) :
    vw (updRun s nn f) = vw s := by
  unfold updRun
  repeat' first | with_reducible rfl | with_reducible refine (foldlState vw _ (fun s a => ?_) _ _).trans ?_ | simp only [updArray_keeps vw hg, foldlState vw, id_eq] | split

theorem enterRows_keeps {γ : Type} (vw : State → γ) (hg : ∀ s t, vw (footDicArrays s t) = vw s)
    (s : State) (nn : ℕ) (x1 : ℕ) :
    vw (enterRows s nn x1) = vw s := by
  fun_induction enterRows s nn x1
  all_goals repeat' first | with_reducible rfl | assumption | with_reducible refine (foldlState vw _ (fun s a => ?_) _ _).trans ?_ | simp only [*, objAdd_keeps vw (fun s t => hg s (footDic s t)), updArray_keeps vw (fun s t => hg s (footArrays s t)), updRun_keeps vw (fun s t => hg s (footArrays s t)), foldlState vw, id_eq] | split | simp +zetaDelta only [objAdd_keeps vw (fun s t => hg s (footDic s t)), updArray_keeps vw (fun s t => hg s (footArrays s t)), updRun_keeps vw (fun s t => hg s (footArrays s t)), foldlState vw, id_eq]

theorem commitArrayRow_keeps {γ : Type} (vw : State → γ) (hg : ∀ s t, vw (footDicArrays s t) = vw s)
    (s : State) (nn : ℕ) (m : ℕ) (outs : List Acc) :
    vw (commitArrayRow s nn m outs) = vw s := by
  unfold commitArrayRow
  repeat' first | with_reducible rfl | with_reducible refine (foldlState vw _ (fun s a => ?_) _ _).trans ?_ | simp only [objAdd_keeps vw (fun s t => hg s (footDic s t)), updArray_keeps vw (fun s t => hg s (footArrays s t)), updRun_keeps vw (fun s t => hg s (footArrays s t)), foldlState vw, id_eq] | split

theorem keepShadow_keeps {γ : Type} (vw : State → γ) (hg : ∀ s t, vw (footArrays s t) = vw s)
    (s : State) (nn : ℕ) (run : ArrayRun) (m : ℕ) (code : ℕ) :
    vw (keepShadow s nn run m code) = vw s := by
  unfold keepShadow
  repeat' first | with_reducible rfl | with_reducible refine (foldlState vw _ (fun s a => ?_) _ _).trans ?_ | simp only [updArray_keeps vw hg, foldlState vw, id_eq] | split

theorem countCheck_keeps {γ : Type} (vw : State → γ) (hg : ∀ s t, vw (footDic s t) = vw s)
    (s : State) (run : ArrayRun) (c : Check) :
    vw (countCheck s run c) = vw s := by
  unfold countCheck
  repeat' first | with_reducible rfl | with_reducible refine (foldlState vw _ (fun s a => ?_) _ _).trans ?_ | simp only [objInc_keeps vw hg, foldlState vw, id_eq] | split

theorem countMiss_keeps {γ : Type} (vw : State → γ) (hg : ∀ s t, vw (footDicArrays s t) = vw s)
    (s : State) (nn : ℕ) :
    vw (countMiss s nn) = vw s := by
  unfold countMiss
  repeat' first | with_reducible rfl | with_reducible refine (foldlState vw _ (fun s a => ?_) _ _).trans ?_ | simp only [objInc_keeps vw (fun s t => hg s (footDic s t)), updRun_keeps vw (fun s t => hg s (footArrays s t)), foldlState vw, id_eq] | split

theorem rowCommit_keeps {γ : Type} (vw : State → γ) (hg : ∀ s t, vw (footDicArrays s t) = vw s)
    (s : State) (nn : ℕ) (upset : List (ℕ × ℕ)) :
    vw (rowCommit s nn upset) = vw s := by
  unfold rowCommit
  repeat' first | with_reducible rfl | with_reducible refine (foldlState vw _ (fun s a => ?_) _ _).trans ?_ | simp only [keepShadow_keeps vw (fun s t => hg s (footArrays s t)), commitArrayRow_keeps vw hg, countCheck_keeps vw (fun s t => hg s (footDic s t)), swapTiles_keeps vw hg, updRun_keeps vw (fun s t => hg s (footArrays s t)), enterRows_keeps vw hg, countMiss_keeps vw hg, foldlState vw, id_eq] | split

theorem rerunDone_keeps {γ : Type} (vw : State → γ) (hg : ∀ s t, vw (footDicArrays s t) = vw s)
    (s : State) (nn : ℕ) (upset : List (ℕ × ℕ)) :
    vw (rerunDone s nn upset) = vw s := by
  unfold rerunDone
  repeat' first | with_reducible rfl | with_reducible refine (foldlState vw _ (fun s a => ?_) _ _).trans ?_ | simp only [keepShadow_keeps vw (fun s t => hg s (footArrays s t)), commitArrayRow_keeps vw hg, countCheck_keeps vw (fun s t => hg s (footDic s t)), reloadTiles_keeps vw (fun s t => hg s (footArrays s t)), objInc_keeps vw (fun s t => hg s (footDic s t)), updRun_keeps vw (fun s t => hg s (footArrays s t)), enterRows_keeps vw hg, countMiss_keeps vw hg, foldlState vw, id_eq] | split

theorem handOff_keeps {γ : Type} (vw : State → γ) (hg : ∀ s t, vw (footArrays s t) = vw s)
    (s : State) (nn : ℕ) :
    vw (handOff s nn) = vw s := by
  unfold handOff
  repeat' first | with_reducible rfl | with_reducible refine (foldlState vw _ (fun s a => ?_) _ _).trans ?_ | simp only [updArray_keeps vw hg, foldlState vw, id_eq] | split

theorem arrayDone_keeps {γ : Type} (vw : State → γ) (hg : ∀ s t, vw (foot22_0 s t) = vw s)
    (s : State) (nn : ℕ) :
    vw (arrayDone s nn) = vw s := by
  unfold arrayDone
  repeat' first | with_reducible rfl | with_reducible refine (foldlState vw _ (fun s a => ?_) _ _).trans ?_ | simp only [missEvent_keeps vw hg, retireArray_keeps vw hg, updArray_keeps vw (fun s t => hg s (footArrays s t)), completeDesc_keeps vw (fun s t => hg s (foot20_0 s t)), foldlState vw, id_eq] | split

theorem updVec_keeps {γ : Type} (vw : State → γ) (hg : ∀ s t, vw (footVecs s t) = vw s)
    (s : State) (nn : ℕ) (f : VecUnit → VecUnit) :
    vw (updVec s nn f) = vw s := by
  have h0 : ∀ s x0, vw { s with vecs := x0 } = vw s := fun s x0 => hg s { s with vecs := x0 }
  unfold updVec
  repeat' first | with_reducible rfl | with_reducible refine (foldlState vw _ (fun s a => ?_) _ _).trans ?_ | simp only [h0, foldlState vw, id_eq] | split

theorem foldlVRun {α γ : Type} (vw : State → γ) (f : VRun → α → VRun) (h : ∀ r a, vw (f r a).s = vw r.s) (l : List α) (r : VRun) :
    vw (l.foldl f r).s = vw r.s := by
  induction l generalizing r with
  | nil => rfl
  | cons a l ih => rw [List.foldl_cons, ih, h]

theorem putBytes_keeps {γ : Type} (vw : State → γ) (hg : ∀ s t, vw (footTile s t) = vw s)
    (r : VRun) (a : ℕ) (bs : Bytes) (tag : Bool) :
    vw (putBytes r a bs tag).s = vw r.s := by
  have h0 : ∀ s x0, vw { s with tile := x0 } = vw s := fun s x0 => hg s { s with tile := x0 }
  unfold putBytes
  repeat' first | with_reducible rfl | with_reducible refine (foldlState vw _ (fun s a => ?_) _ _).trans ?_ | with_reducible refine (foldlVRun vw _ (fun s a => ?_) _ _).trans ?_ | simp only [h0, foldlState vw, id_eq] | split

theorem putElem_keeps {γ : Type} (vw : State → γ) (hg : ∀ s t, vw (footTile s t) = vw s)
    (r : VRun) (nn : ℕ) (f : Fmt) (off : ℕ) (i : ℕ) (code : ℕ) (tag : Bool) :
    vw (putElem r nn f off i code tag).s = vw r.s := by
  have h0 : ∀ s x0, vw { s with tile := x0 } = vw s := fun s x0 => hg s { s with tile := x0 }
  unfold putElem
  repeat' first | with_reducible rfl | with_reducible refine (foldlState vw _ (fun s a => ?_) _ _).trans ?_ | with_reducible refine (foldlVRun vw _ (fun s a => ?_) _ _).trans ?_ | simp only [h0, foldlState vw, id_eq] | split

theorem settleLines_keeps {γ : Type} (vw : State → γ) (hg : ∀ s t, vw (footTilePoison s t) = vw s)
    (s : State) (x1 : SMap (ℕ × Bool)) :
    vw (settleLines s x1) = vw s := by
  have h0 : ∀ s x0, vw { s with tilePoison := x0 } = vw s := fun s x0 => hg s { s with tilePoison := x0 }
  fun_induction settleLines s x1
  all_goals repeat' first | with_reducible rfl | assumption | with_reducible refine (foldlState vw _ (fun s a => ?_) _ _).trans ?_ | simp only [*, h0, foldlState vw, id_eq] | split | simp +zetaDelta only [h0, foldlState vw, id_eq]

theorem putScaleBytes_keeps {γ : Type} (vw : State → γ) (hg : ∀ s t, vw (footTile s t) = vw s)
    (r : VRun) (a : ℕ) (bs : Bytes) (poisoned : Bool) :
    vw (putScaleBytes r a bs poisoned).s = vw r.s := by
  have h0 : ∀ s x0, vw { s with tile := x0 } = vw s := fun s x0 => hg s { s with tile := x0 }
  unfold putScaleBytes
  repeat' first | with_reducible rfl | with_reducible refine (foldlState vw _ (fun s a => ?_) _ _).trans ?_ | with_reducible refine (foldlVRun vw _ (fun s a => ?_) _ _).trans ?_ | simp only [h0, putBytes_keeps vw hg, foldlState vw, id_eq] | split

theorem putScale_keeps {γ : Type} (vw : State → γ) (hg : ∀ s t, vw (footTile s t) = vw s)
    (r : VRun) (nn : ℕ) (ws : List Word64) (o : ℕ) (f : Fmt) (vs : List KVal) (tags : List Bool) (j : ℕ) (e : VElem) :
    vw (putScale r nn ws o f vs tags j e).s = vw r.s := by
  unfold putScale
  repeat' first | with_reducible rfl | with_reducible refine (foldlState vw _ (fun s a => ?_) _ _).trans ?_ | with_reducible refine (foldlVRun vw _ (fun s a => ?_) _ _).trans ?_ | simp only [putScaleBytes_keeps vw hg, foldlState vw, id_eq] | split

theorem putRow_keeps {γ : Type} (vw : State → γ) (hg : ∀ s t, vw (footTile s t) = vw s)
    (r : VRun) (c : VCfg) (nn : ℕ) (ws : List Word64) (op : ℕ) (k : ℕ) (m : ℕ) :
    vw (putRow r c nn ws op k m).s = vw r.s := by
  unfold putRow
  repeat' first | with_reducible rfl | with_reducible refine (foldlState vw _ (fun s a => ?_) _ _).trans ?_ | with_reducible refine (foldlVRun vw _ (fun s a => ?_) _ _).trans ?_ | simp only [putElem_keeps vw hg, foldlState vw, id_eq] | split

theorem reduceGroup_keeps {γ : Type} (vw : State → γ) (hg : ∀ s t, vw (footTile s t) = vw s)
    (c : VCfg) (nn : ℕ) (ws : List Word64) (op : ℕ) (k : ℕ) (x1 : List VElem) (x2 : VRun) :
    vw (reduceGroup c nn ws op k x1 x2).s = vw x2.s := by
  fun_induction reduceGroup c nn ws op k x1 x2
  all_goals repeat' first | with_reducible rfl | assumption | with_reducible refine (foldlState vw _ (fun s a => ?_) _ _).trans ?_ | with_reducible refine (foldlVRun vw _ (fun s a => ?_) _ _).trans ?_ | simp only [*, putRow_keeps vw hg, foldlState vw, id_eq] | split | simp +zetaDelta only [putRow_keeps vw hg, foldlState vw, id_eq]

theorem outGroup_keeps {γ : Type} (vw : State → γ) (hg : ∀ s t, vw (footTile s t) = vw s) (c : VCfg) (nn : Nat)
    (ws : List Word64) (o : Nat) (f : Fmt) (vs : List KVal) (tags : List Bool) (es : List VElem) (j : Nat) (r : VRun) :
    vw (outGroup c nn ws o f vs tags es j r).2.s = vw r.s := by
  induction es generalizing j r with
  | nil => rfl
  | cons e es ih => simp only [outGroup, ih, putScale_keeps vw hg, putElem_keeps vw hg]

theorem outIf_keeps {γ : Type} (vw : State → γ) (hg : ∀ s t, vw (footTile s t) = vw s) (c : VCfg) (nn : Nat)
    (ws : List Word64) (o : Nat) (es : List VElem) (r : VRun) : vw (outIf c nn ws o es r).2.s = vw r.s := by
  unfold outIf
  repeat' first | with_reducible rfl | simp only [outGroup_keeps vw hg] | split

theorem vecGroup_keeps {γ : Type} (vw : State → γ) (hg : ∀ s t, vw (footTileTilePoison s t) = vw s)
    (c : VCfg) (nn : ℕ) (ws : List Word64) (prog : List ℕ) (ptag : Bool) (j0 : ℕ) (n : ℕ) (r : VRun) :
    vw (vecGroup c nn ws prog ptag j0 n r).s = vw r.s := by
  have h : ∀ s t, vw (footTile s t) = vw s := fun s t => hg s (footTile s t)
  unfold vecGroup
  dsimp only
  refine (settleLines_keeps vw (fun s t => hg s (footTilePoison s t)) _ _).trans ?_
  split
  · simp only [reduceGroup_keeps vw h, outIf_keeps vw h]
  · simp only [outIf_keeps vw h]

theorem vecGroups_keeps {γ : Type} (vw : State → γ) (hg : ∀ s t, vw (footTileTilePoison s t) = vw s)
    (c : VCfg) (nn : ℕ) (ws : List Word64) (prog : List ℕ) (ptag : Bool) (x1 : ℕ) (x2 : ℕ) (x3 : VRun) :
    vw (vecGroups c nn ws prog ptag x1 x2 x3).s = vw x3.s := by
  fun_induction vecGroups c nn ws prog ptag x1 x2 x3
  all_goals repeat' first | with_reducible rfl | assumption | with_reducible refine (foldlState vw _ (fun s a => ?_) _ _).trans ?_ | with_reducible refine (foldlVRun vw _ (fun s a => ?_) _ _).trans ?_ | simp only [*, vecGroup_keeps vw hg, foldlState vw, id_eq] | split | simp +zetaDelta only [vecGroup_keeps vw hg, foldlState vw, id_eq]

theorem vecExec_keeps {γ : Type} (vw : State → γ) (hg : ∀ s t, vw (footFreeTileTilePoison s t) = vw s)
    (s : State) (nn : ℕ) (ws : List Word64) :
    vw (vecExec s nn ws).1 = vw s := by
  have h0 : ∀ s x0, vw { s with free := x0 } = vw s := fun s x0 => hg s { s with free := x0 }
  unfold vecExec
  repeat' first | with_reducible rfl | with_reducible refine (foldlState vw _ (fun s a => ?_) _ _).trans ?_ | with_reducible refine (foldlVRun vw _ (fun s a => ?_) _ _).trans ?_ | simp only [h0, vecGroups_keeps vw (fun s t => hg s (footTileTilePoison s t)), foldlState vw, id_eq] | split

theorem vecStart_keeps {γ : Type} (vw : State → γ) (hg : ∀ s t, vw (foot21_4 s t) = vw s)
    (s : State) (nn : ℕ) (op : ℕ) (tst : List TstEvent) (reject : State → ℕ → List Word64 → Option ℕ) (run : State → Issued → State × Result)
    (h_run : ∀ s a0, vw (run s a0).1 = vw s) :
    vw (vecStart s nn op tst reject run) = vw s := by
  unfold vecStart
  repeat' first | with_reducible rfl | with_reducible refine (foldlState vw _ (fun s a => ?_) _ _).trans ?_ | simp only [h_run, rejectDesc_keeps vw (fun s t => hg s (foot20_0 s t)), applyTst_keeps vw (fun s t => hg s (footDicTilePoison s t)), updVec_keeps vw (fun s t => hg s (footVecs s t)), foldlState vw, id_eq] | split

theorem mrgColumn_keeps {γ : Type} (vw : State → γ) (hg : ∀ s t, vw (footTileTilePoison s t) = vw s)
    (nn : ℕ) (ws : List Word64) (r : VRun) (n : ℕ) :
    vw (mrgColumn nn ws r n).s = vw r.s := by
  unfold mrgColumn
  repeat' first | with_reducible rfl | with_reducible refine (foldlState vw _ (fun s a => ?_) _ _).trans ?_ | with_reducible refine (foldlVRun vw _ (fun s a => ?_) _ _).trans ?_ | simp only [settleLines_keeps vw (fun s t => hg s (footTilePoison s t)), putBytes_keeps vw (fun s t => hg s (footTile s t)), foldlState vw, id_eq] | split

theorem mrgExec_keeps {γ : Type} (vw : State → γ) (hg : ∀ s t, vw (footTileTilePoison s t) = vw s)
    (s : State) (nn : ℕ) (ws : List Word64) :
    vw (mrgExec s nn ws).1 = vw s := by
  unfold mrgExec
  repeat' first | with_reducible rfl | with_reducible refine (foldlState vw _ (fun s a => ?_) _ _).trans ?_ | with_reducible refine (foldlVRun vw _ (fun s a => ?_) _ _).trans ?_ | simp only [mrgColumn_keeps vw hg, foldlState vw, id_eq] | split

theorem putScales_keeps {γ : Type} (vw : State → γ) (hg : ∀ s t, vw (footTile s t) = vw s)
    (nn : ℕ) (ws : List Word64) (off : ℕ) (r : VRun) (vs : List KVal) :
    vw (putScales nn ws off r vs).s = vw r.s := by
  unfold putScales
  repeat' first | with_reducible rfl | with_reducible refine (foldlState vw _ (fun s a => ?_) _ _).trans ?_ | with_reducible refine (foldlVRun vw _ (fun s a => ?_) _ _).trans ?_ | simp only [putBytes_keeps vw hg, foldlState vw, id_eq] | split

theorem scanExec_keeps {γ : Type} (vw : State → γ) (hg : ∀ s t, vw (footTileTilePoison s t) = vw s)
    (s : State) (nn : ℕ) (ws : List Word64) :
    vw (scanExec s nn ws).1 = vw s := by
  unfold scanExec
  repeat' first | with_reducible rfl | with_reducible refine (foldlState vw _ (fun s a => ?_) _ _).trans ?_ | with_reducible refine (foldlVRun vw _ (fun s a => ?_) _ _).trans ?_ | simp only [settleLines_keeps vw (fun s t => hg s (footTilePoison s t)), putScales_keeps vw (fun s t => hg s (footTile s t)), foldlState vw, id_eq] | split

theorem amaxPastDim_keeps {γ : Type} (vw : State → γ) (hg : ∀ s t, vw (foot4_23 s t) = vw s)
    (s : State) (nn : ℕ) (go : State → State)
    (h_go : ∀ s, vw (go s) = vw s) :
    vw (amaxPastDim s nn go) = vw s := by
  unfold amaxPastDim
  repeat' first | with_reducible rfl | with_reducible refine (foldlState vw _ (fun s a => ?_) _ _).trans ?_ | with_reducible refine (pastLocal_keeps vw hg _ _ _ _ _ (fun _ => ?_)).trans ?_ | simp only [h_go, pastLocal_keeps vw hg, foldlState vw, id_eq] | split

theorem rebByte_keeps {γ : Type} (vw : State → γ) (hg : ∀ s t, vw (footTile s t) = vw s)
    (s0 : State) (nn : ℕ) (ws : List Word64) (r : VRun) (off : ℕ) :
    vw (rebByte s0 nn ws r off).s = vw r.s := by
  unfold rebByte
  repeat' first | with_reducible rfl | with_reducible refine (foldlState vw _ (fun s a => ?_) _ _).trans ?_ | with_reducible refine (foldlVRun vw _ (fun s a => ?_) _ _).trans ?_ | simp only [putBytes_keeps vw hg, foldlState vw, id_eq] | split

theorem rebExec_keeps {γ : Type} (vw : State → γ) (hg : ∀ s t, vw (footTileTilePoison s t) = vw s)
    (s : State) (nn : ℕ) (ws : List Word64) :
    vw (rebExec s nn ws).1 = vw s := by
  unfold rebExec
  repeat' first | with_reducible rfl | with_reducible refine (foldlState vw _ (fun s a => ?_) _ _).trans ?_ | with_reducible refine (foldlVRun vw _ (fun s a => ?_) _ _).trans ?_ | simp only [settleLines_keeps vw (fun s t => hg s (footTilePoison s t)), rebByte_keeps vw (fun s t => hg s (footTile s t)), foldlState vw, id_eq] | split

theorem vecDone_keeps {γ : Type} (vw : State → γ) (hg : ∀ s t, vw (foot21_4 s t) = vw s)
    (s : State) (nn : ℕ) :
    vw (vecDone s nn) = vw s := by
  unfold vecDone
  repeat' first | with_reducible rfl | with_reducible refine (foldlState vw _ (fun s a => ?_) _ _).trans ?_ | simp only [updVec_keeps vw (fun s t => hg s (footVecs s t)), completeDesc_keeps vw (fun s t => hg s (foot20_0 s t)), foldlState vw, id_eq] | split

theorem takeEjected_keeps {γ : Type} (vw : State → γ) (hg : ∀ s t, vw (footRouterWRouterE s t) = vw s)
    (s : State) (p : Packet) :
    vw (takeEjected s p) = vw s := by
  unfold takeEjected
  repeat' first | with_reducible rfl | with_reducible refine (foldlState vw _ (fun s a => ?_) _ _).trans ?_ | simp only [updRouter_keeps vw hg, foldlState vw, id_eq] | split

theorem replyTo_keeps {γ : Type} (vw : State → γ) (hg : ∀ s t, vw (footRouterWRouterE s t) = vw s)
    (s : State) (h : Half) (p : Packet) (tag : ℕ) (status : ℕ) (mask : ℕ) (data : Bytes) :
    vw (replyTo s h p tag status mask data) = vw s := by
  unfold replyTo
  repeat' first | with_reducible rfl | with_reducible refine (foldlState vw _ (fun s a => ?_) _ _).trans ?_ | simp only [inject_keeps vw hg, nextReplySeq_keeps vw hg, foldlState vw, id_eq] | split

theorem serveRequest_keeps {γ : Type} (vw : State → γ) (hg : ∀ s t, vw (foot7_2 s t) = vw s)
    (s : State) (p : Packet) (off : ℕ) (tag : ℕ) (n : ℕ) (read : Bool) (run : State → Half → State)
    (h_run : ∀ s a0, vw (run s a0) = vw s) :
    vw (serveRequest s p off tag n read run) = vw s := by
  have k_pastDim := pastDim_keeps vw (fun s t => hg s (footDicChans s t))
  unfold serveRequest
  repeat' first | with_reducible rfl | with_reducible refine (foldlState vw _ (fun s a => ?_) _ _).trans ?_ | with_reducible refine (k_pastDim _ _ _ _ _ (fun _ => ?_)).trans ?_ | simp only [h_run, pastDim_keeps vw (fun s t => hg s (footDicChans s t)), replyTo_keeps vw (fun s t => hg s (footRouterWRouterE s t)), backInvalidate_keeps vw (fun s t => hg s (footOutHost s t)), takeEjected_keeps vw (fun s t => hg s (footRouterWRouterE s t)), forgetBad_keeps vw (fun s t => hg s (footHost s t)), noteAdmit_keeps vw (fun s t => hg s (footAdmits s t)), foldlState vw, id_eq] | split

theorem evictReplay_keeps {γ : Type} (vw : State → γ) (hg : ∀ s t, vw (footEvictedReplay s t) = vw s)
    (s : State) (x : Replay) :
    vw (evictReplay s x) = vw s := by
  have h0 : ∀ s x0 x1, vw { s with evicted := x0, replay := x1 } = vw s := fun s x0 x1 => hg s { s with evicted := x0, replay := x1 }
  unfold evictReplay
  repeat' first | with_reducible rfl | with_reducible refine (foldlState vw _ (fun s a => ?_) _ _).trans ?_ | simp only [h0, foldlState vw, id_eq] | split

theorem enterReplay_keeps {γ : Type} (vw : State → γ) (hg : ∀ s t, vw (foot5_9 s t) = vw s)
    (s : State) (h : Half) (src : ℕ) (seq : ℕ) (reply : Body) (pinned : Bool) :
    vw (enterReplay s h src seq reply pinned) = vw s := by
  have h0 : ∀ s x0, vw { s with replay := x0 } = vw s := fun s x0 => hg s { s with replay := x0 }
  unfold enterReplay
  repeat' first | with_reducible rfl | with_reducible refine (foldlState vw _ (fun s a => ?_) _ _).trans ?_ | simp only [h0, objInc_keeps vw (fun s t => hg s (footDic s t)), evictReplay_keeps vw (fun s t => hg s (footEvictedReplay s t)), updRouter_keeps vw (fun s t => hg s (footRouterWRouterE s t)), foldlState vw, id_eq] | split

theorem sequenced_keeps {γ : Type} (vw : State → γ) (hg : ∀ s t, vw (foot6_7 s t) = vw s)
    (s : State) (h : Half) (p : Packet) (tag : ℕ) (age : ℕ) (run : State → State × ℕ × ℕ × Bytes)
    (h_run : ∀ s, vw (run s).1 = vw s) :
    vw (sequenced s h p tag age run) = vw s := by
  unfold sequenced
  repeat' first | with_reducible rfl | with_reducible refine (foldlState vw _ (fun s a => ?_) _ _).trans ?_ | simp only [h_run, replyTo_keeps vw (fun s t => hg s (footRouterWRouterE s t)), journal_keeps vw (fun s t => hg s (footDicObs s t)), objInc_keeps vw (fun s t => hg s (footDic s t)), enterReplay_keeps vw (fun s t => hg s (foot5_9 s t)), foldlState vw, id_eq] | split

theorem releaseTag_keeps {γ : Type} (vw : State → γ) (hg : ∀ s t, vw (footOutstTagHold s t) = vw s)
    (s : State) (o : Outst) :
    vw (releaseTag s o) = vw s := by
  have h0 : ∀ s x0 x1, vw { s with outst := x0, tagHold := x1 } = vw s := fun s x0 x1 => hg s { s with outst := x0, tagHold := x1 }
  unfold releaseTag
  repeat' first | with_reducible rfl | with_reducible refine (foldlState vw _ (fun s a => ?_) _ _).trans ?_ | simp only [h0, foldlState vw, id_eq] | split

theorem fillCache_keeps {γ : Type} (vw : State → γ) (hg : ∀ s t, vw (footRcache s t) = vw s)
    (s : State) (h : Half) (c : ℕ) (g : ℕ) (data : List LineData) :
    vw (fillCache s h c g data) = vw s := by
  have h0 : ∀ s x0, vw { s with rcache := x0 } = vw s := fun s x0 => hg s { s with rcache := x0 }
  unfold fillCache
  repeat' first | with_reducible rfl | with_reducible refine (foldlState vw _ (fun s a => ?_) _ _).trans ?_ | simp only [h0, foldlState vw, id_eq] | split

theorem streamAnswer_keeps {γ : Type} (vw : State → γ) (hg : ∀ s t, vw (foot25_4 s t) = vw s)
    (s : State) (o : Outst) (e : ℕ) (seq : ℕ) (id : ℕ) (status : ℕ) (mask : ℕ) (data : Bytes) :
    vw (streamAnswer s o e seq id status mask data) = vw s := by
  unfold streamAnswer
  repeat' first | with_reducible rfl | with_reducible refine (foldlState vw _ (fun s a => ?_) _ _).trans ?_ | simp only [updCtx_keeps vw (fun s t => hg s (footEngines s t)), finishReq_keeps vw (fun s t => hg s (foot24_2 s t)), fillCache_keeps vw (fun s t => hg s (footRcache s t)), tallied_keeps vw (fun s t => hg s (footDic s t)), foldlState vw, id_eq] | split

theorem answer_keeps {γ : Type} (vw : State → γ) (hg : ∀ s t, vw (foot27 s t) = vw s)
    (s : State) (o : Outst) (status : ℕ) (mask : ℕ) (data : Bytes) :
    vw (answer s o status mask data) = vw s := by
  unfold answer
  repeat' first | with_reducible rfl | with_reducible refine (foldlState vw _ (fun s a => ?_) _ _).trans ?_ | simp only [releaseTag_keeps vw (fun s t => hg s (footOutstTagHold s t)), streamAnswer_keeps vw (fun s t => hg s (foot25_4 s t)), remoteSignalFailed_keeps vw (fun s t => hg s (foot5_15 s t)), updVec_keeps vw (fun s t => hg s (footVecs s t)), foldlState vw, id_eq] | split

theorem echoFrom_keeps {γ : Type} (vw : State → γ) (hg : ∀ s t, vw (footRouterWRouterE s t) = vw s)
    (s : State) (h : Half) (c : PClass) (d : ℕ) :
    vw (echoFrom s h c d) = vw s := by
  unfold echoFrom
  repeat' first | with_reducible rfl | with_reducible refine (foldlState vw _ (fun s a => ?_) _ _).trans ?_ | simp only [updRouter_keeps vw hg, foldlState vw, id_eq] | split

theorem updHeld_keeps {γ : Type} (vw : State → γ) (hg : ∀ s t, vw (footRouterWRouterE s t) = vw s)
    (s : State) (h : Half) (id : ℕ) (f : Held → Held) :
    vw (updHeld s h id f) = vw s := by
  unfold updHeld
  repeat' first | with_reducible rfl | with_reducible refine (foldlState vw _ (fun s a => ?_) _ _).trans ?_ | simp only [updRouter_keeps vw hg, foldlState vw, id_eq] | split

theorem leaveRouter_keeps {γ : Type} (vw : State → γ) (hg : ∀ s t, vw (footLinksRouterWRouterE s t) = vw s)
    (s : State) (h : Half) (x : Held) :
    vw (leaveRouter s h x) = vw s := by
  unfold leaveRouter
  repeat' first | with_reducible rfl | with_reducible refine (foldlState vw _ (fun s a => ?_) _ _).trans ?_ | simp only [updRouter_keeps vw (fun s t => hg s (footRouterWRouterE s t)), oweCredit_keeps vw (fun s t => hg s (footLinks s t)), foldlState vw, id_eq] | split

theorem dropPacket_keeps {γ : Type} (vw : State → γ) (hg : ∀ s t, vw (foot4_6 s t) = vw s)
    (s : State) (h : Half) (x : Held) (counter : ℕ) (status : ℕ) :
    vw (dropPacket s h x counter status) = vw s := by
  unfold dropPacket
  repeat' first | with_reducible rfl | with_reducible refine (foldlState vw _ (fun s a => ?_) _ _).trans ?_ | simp only [replyTo_keeps vw (fun s t => hg s (footRouterWRouterE s t)), objInc_keeps vw (fun s t => hg s (footDic s t)), leaveRouter_keeps vw (fun s t => hg s (footLinksRouterWRouterE s t)), foldlState vw, id_eq] | split

theorem linkSend_keeps {γ : Type} (vw : State → γ) (hg : ∀ s t, vw (footLinks s t) = vw s)
    (s : State) (k : ℕ) (p : Packet) :
    vw (linkSend s k p) = vw s := by
  unfold linkSend
  repeat' first | with_reducible rfl | with_reducible refine (foldlState vw _ (fun s a => ?_) _ _).trans ?_ | simp only [updLink_keeps vw hg, sendFlit_keeps vw hg, foldlState vw, id_eq] | split

theorem putCrossing_keeps {γ : Type} (vw : State → γ) (hg : ∀ s t, vw (footBridge s t) = vw s)
    (s : State) (x : Crossing) :
    vw (putCrossing s x) = vw s := by
  have h0 : ∀ s x0, vw { s with bridge := x0 } = vw s := fun s x0 => hg s { s with bridge := x0 }
  unfold putCrossing
  repeat' first | with_reducible rfl | with_reducible refine (foldlState vw _ (fun s a => ?_) _ _).trans ?_ | simp only [h0, foldlState vw, id_eq] | split

theorem sendCopy_keeps {γ : Type} (vw : State → γ) (hg : ∀ s t, vw (footDicBridgeLinks s t) = vw s)
    (s : State) (h : Half) (k : ℕ) (vc : ℕ) (x : Held) :
    vw (sendCopy s h k vc x) = vw s := by
  unfold sendCopy
  repeat' first | with_reducible rfl | with_reducible refine (foldlState vw _ (fun s a => ?_) _ _).trans ?_ | simp only [updLink_keeps vw (fun s t => hg s (footLinks s t)), objInc_keeps vw (fun s t => hg s (footDic s t)), linkSend_keeps vw (fun s t => hg s (footLinks s t)), putCrossing_keeps vw (fun s t => hg s (footBridge s t)), foldlState vw, id_eq] | split

theorem sendOn_keeps {γ : Type} (vw : State → γ) (hg : ∀ s t, vw (foot6_0 s t) = vw s)
    (s : State) (h : Half) (k : ℕ) (vc : ℕ) (x : Held) :
    vw (sendOn s h k vc x) = vw s := by
  unfold sendOn
  repeat' first | with_reducible rfl | with_reducible refine (foldlState vw _ (fun s a => ?_) _ _).trans ?_ | simp only [dropPacket_keeps vw (fun s t => hg s (foot4_6 s t)), journal_keeps vw (fun s t => hg s (footDicObs s t)), leaveRouter_keeps vw (fun s t => hg s (footLinksRouterWRouterE s t)), sendCopy_keeps vw (fun s t => hg s (footDicBridgeLinks s t)), foldlState vw, id_eq] | split

theorem putEjected_keeps {γ : Type} (vw : State → γ) (hg : ∀ s t, vw (footRouterWRouterE s t) = vw s)
    (s : State) (h : Half) (p : Packet) :
    vw (putEjected s h p) = vw s := by
  unfold putEjected
  repeat' first | with_reducible rfl | with_reducible refine (foldlState vw _ (fun s a => ?_) _ _).trans ?_ | simp only [updRouter_keeps vw hg, foldlState vw, id_eq] | split

theorem ejectTo_keeps {γ : Type} (vw : State → γ) (hg : ∀ s t, vw (footBridgeRouterWRouterE s t) = vw s)
    (s : State) (h : Half) (p : Packet) :
    vw (ejectTo s h p) = vw s := by
  unfold ejectTo
  repeat' first | with_reducible rfl | with_reducible refine (foldlState vw _ (fun s a => ?_) _ _).trans ?_ | simp only [putEjected_keeps vw (fun s t => hg s (footRouterWRouterE s t)), putCrossing_keeps vw (fun s t => hg s (footBridge s t)), foldlState vw, id_eq] | split

theorem setDeficit_keeps {γ : Type} (vw : State → γ) (hg : ∀ s t, vw (footBridgeLinks s t) = vw s)
    (s : State) (h : Half) (k : ℕ) (d : List ℕ) :
    vw (setDeficit s h k d) = vw s := by
  have h0 : ∀ s x0, vw { s with bridge := x0 } = vw s := fun s x0 => hg s { s with bridge := x0 }
  unfold setDeficit
  repeat' first | with_reducible rfl | with_reducible refine (foldlState vw _ (fun s a => ?_) _ _).trans ?_ | simp only [h0, updLink_keeps vw (fun s t => hg s (footLinks s t)), foldlState vw, id_eq] | split

theorem served_keeps {γ : Type} (vw : State → γ) (hg : ∀ s t, vw (footBridgeLinks s t) = vw s)
    (s : State) (h : Half) (k : ℕ) (x : Held) :
    ∀ t, served s h k x = some t → vw t = vw s := by
  intro t ht
  unfold served at ht
  dsimp only at ht
  split at ht
  · split at ht
    · injection ht with ht
      subst ht
      exact setDeficit_keeps vw hg _ _ _ _
    · cases ht
  · cases ht

end Sys2Proof.Machine
end

