-- ==== Sys2Proof/Laws/KeepsC.lean ====
section
/-!
SUPPORT. What each shared operation can change (part 3 of 4): a view of the state that no field of its footprint
reaches reads the same after it.
-/

namespace Sys2Proof.Machine

set_option linter.unusedSimpArgs false
set_option linter.unusedTactic false
set_option linter.unreachableTactic false

theorem updColl_keeps {γ : Type} (vw : State → γ) (hg : ∀ s t, vw (footColls s t) = vw s)
    (s : State) (id : ℕ) (f : Coll → Coll) :
    vw (updColl s id f) = vw s := by
  have h0 : ∀ s x0, vw { s with colls := x0 } = vw s := fun s x0 => hg s { s with colls := x0 }
  unfold updColl
  repeat' first | with_reducible rfl | with_reducible refine (foldlState vw _ (fun s a => ?_) _ _).trans ?_ | simp only [h0, foldlState vw, id_eq] | split

theorem updPend_keeps {γ : Type} (vw : State → γ) (hg : ∀ s t, vw (footPendColls s t) = vw s)
    (s : State) (id : ℕ) (f : PendColl → PendColl) :
    vw (updPend s id f) = vw s := by
  have h0 : ∀ s x0, vw { s with pendColls := x0 } = vw s := fun s x0 => hg s { s with pendColls := x0 }
  unfold updPend
  repeat' first | with_reducible rfl | with_reducible refine (foldlState vw _ (fun s a => ?_) _ _).trans ?_ | simp only [h0, foldlState vw, id_eq] | split

theorem updSlot_keeps {γ : Type} (vw : State → γ) (hg : ∀ s t, vw (footSlots s t) = vw s)
    (s : State) (id : ℕ) (level : ℕ) (c : ℕ) (seg : ℕ) (f : Slot → Slot) :
    vw (updSlot s id level c seg f) = vw s := by
  have h0 : ∀ s x0, vw { s with slots := x0 } = vw s := fun s x0 => hg s { s with slots := x0 }
  unfold updSlot
  repeat' first | with_reducible rfl | with_reducible refine (foldlState vw _ (fun s a => ?_) _ _).trans ?_ | simp only [h0, foldlState vw, id_eq] | split

theorem countDup_keeps {γ : Type} (vw : State → γ) (hg : ∀ s t, vw (footDicColls s t) = vw s)
    (s : State) (id : ℕ) :
    vw (countDup s id) = vw s := by
  unfold countDup
  repeat' first | with_reducible rfl | with_reducible refine (foldlState vw _ (fun s a => ?_) _ _).trans ?_ | simp only [updColl_keeps vw (fun s t => hg s (footColls s t)), objInc_keeps vw (fun s t => hg s (footDic s t)), foldlState vw, id_eq] | split

theorem sendColl_keeps {γ : Type} (vw : State → γ) (hg : ∀ s t, vw (footRouterWRouterE s t) = vw s)
    (s : State) (dest : ℕ) (h : CollHdr) :
    vw (sendColl s dest h) = vw s := by
  unfold sendColl
  repeat' first | with_reducible rfl | with_reducible refine (foldlState vw _ (fun s a => ?_) _ _).trans ?_ | simp only [inject_keeps vw hg, nextCollSeq_keeps vw hg, foldlState vw, id_eq] | split

theorem intoSlot_keeps {γ : Type} (vw : State → γ) (hg : ∀ s t, vw (footDicCollsSlots s t) = vw s)
    (s : State) (x : Slot) (ws : Option (List Word64)) (inv : List ℕ) (pos : ℕ) (sender : ℕ) (count : ℕ) (vs : List BankVal) :
    vw (intoSlot s x ws inv pos sender count vs) = vw s := by
  unfold intoSlot
  repeat' first | with_reducible rfl | with_reducible refine (foldlState vw _ (fun s a => ?_) _ _).trans ?_ | simp only [updColl_keeps vw (fun s t => hg s (footColls s t)), countDup_keeps vw (fun s t => hg s (footDicColls s t)), updSlot_keeps vw (fun s t => hg s (footSlots s t)), foldlState vw, id_eq] | split

theorem turnChunkGrey_keeps {γ : Type} (vw : State → γ) (hg : ∀ s t, vw (footDicCollsPendColls s t) = vw s)
    (s : State) (id : ℕ) (c : ℕ) :
    vw (turnChunkGrey s id c) = vw s := by
  unfold turnChunkGrey
  repeat' first | with_reducible rfl | with_reducible refine (foldlState vw _ (fun s a => ?_) _ _).trans ?_ | simp only [updColl_keeps vw (fun s t => hg s (footColls s t)), objInc_keeps vw (fun s t => hg s (footDic s t)), updPend_keeps vw (fun s t => hg s (footPendColls s t)), foldlState vw, id_eq] | split

theorem greyPass_keeps {γ : Type} (vw : State → γ) (hg : ∀ s t, vw (foot5_8 s t) = vw s)
    (s : State) (h : CollHdr) :
    vw (greyPass s h) = vw s := by
  unfold greyPass
  repeat' first | with_reducible rfl | with_reducible refine (foldlState vw _ (fun s a => ?_) _ _).trans ?_ | simp only [updColl_keeps vw (fun s t => hg s (footColls s t)), turnChunkGrey_keeps vw (fun s t => hg s (footDicCollsPendColls s t)), sendColl_keeps vw (fun s t => hg s (footRouterWRouterE s t)), updPend_keeps vw (fun s t => hg s (footPendColls s t)), foldlState vw, id_eq] | split

theorem takeInput_keeps {γ : Type} (vw : State → γ) (hg : ∀ s t, vw (foot6_6 s t) = vw s)
    (s : State) (ws : Option (List Word64)) (inv : List ℕ) (h : CollHdr) (vs : List BankVal) :
    vw (takeInput s ws inv h vs) = vw s := by
  have h0 : ∀ s x0, vw { s with slots := x0 } = vw s := fun s x0 => hg s { s with slots := x0 }
  unfold takeInput
  repeat' first | with_reducible rfl | with_reducible refine (foldlState vw _ (fun s a => ?_) _ _).trans ?_ | simp only [h0, greyPass_keeps vw (fun s t => hg s (foot5_8 s t)), countDup_keeps vw (fun s t => hg s (footDicColls s t)), intoSlot_keeps vw (fun s t => hg s (footDicCollsSlots s t)), foldlState vw, id_eq] | split

theorem takeNotice_keeps {γ : Type} (vw : State → γ) (hg : ∀ s t, vw (foot4_3 s t) = vw s)
    (s : State) (h : CollHdr) :
    vw (takeNotice s h) = vw s := by
  unfold takeNotice
  repeat' first | with_reducible rfl | with_reducible refine (foldlState vw _ (fun s a => ?_) _ _).trans ?_ | simp only [updColl_keeps vw (fun s t => hg s (footColls s t)), turnChunkGrey_keeps vw (fun s t => hg s (footDicCollsPendColls s t)), updSlot_keeps vw (fun s t => hg s (footSlots s t)), updPend_keeps vw (fun s t => hg s (footPendColls s t)), foldlState vw, id_eq] | split

theorem sendPartial_keeps {γ : Type} (vw : State → γ) (hg : ∀ s t, vw (footRouterWRouterEColls s t) = vw s)
    (s : State) (ws : List Word64) (level : ℕ) (c : ℕ) (seg : ℕ) (count : ℕ → ℕ) (vs : List BankVal) :
    vw (sendPartial s ws level c seg count vs) = vw s := by
  unfold sendPartial
  repeat' first | with_reducible rfl | with_reducible refine (foldlState vw _ (fun s a => ?_) _ _).trans ?_ | simp only [updColl_keeps vw (fun s t => hg s (footColls s t)), sendColl_keeps vw (fun s t => hg s (footRouterWRouterE s t)), foldlState vw, id_eq] | split

theorem sendNotice_keeps {γ : Type} (vw : State → γ) (hg : ∀ s t, vw (footRouterWRouterE s t) = vw s)
    (s : State) (ws : List Word64) (level : ℕ) (c : ℕ) (seg : ℕ) :
    vw (sendNotice s ws level c seg) = vw s := by
  unfold sendNotice
  repeat' first | with_reducible rfl | with_reducible refine (foldlState vw _ (fun s a => ?_) _ _).trans ?_ | simp only [sendColl_keeps vw hg, foldlState vw, id_eq] | split

theorem enterLocal_keeps {γ : Type} (vw : State → γ) (hg : ∀ s t, vw (foot6_6 s t) = vw s)
    (s : State) (ws : List Word64) (level : ℕ) (c : ℕ) (seg : ℕ) (vs : List BankVal) (inv : List ℕ) :
    vw (enterLocal s ws level c seg vs inv) = vw s := by
  unfold enterLocal
  repeat' first | with_reducible rfl | with_reducible refine (foldlState vw _ (fun s a => ?_) _ _).trans ?_ | simp only [sendNotice_keeps vw (fun s t => hg s (footRouterWRouterE s t)), sendPartial_keeps vw (fun s t => hg s (footRouterWRouterEColls s t)), takeInput_keeps vw hg, foldlState vw, id_eq] | split

theorem writeLines_keeps {γ : Type} (vw : State → γ) (hg : ∀ s t, vw (foot8_5 s t) = vw s)
    (s : State) (off : ℕ) (mask : ℕ) (data : Bytes) (x1 : ℕ) :
    vw (writeLines s off mask data x1) = vw s := by
  fun_induction writeLines s off mask data x1
  all_goals repeat' first | with_reducible rfl | assumption | with_reducible refine (foldlState vw _ (fun s a => ?_) _ _).trans ?_ | simp only [*, writeBytes_keeps vw hg, foldlState vw, id_eq] | split | simp +zetaDelta only [writeBytes_keeps vw hg, foldlState vw, id_eq]

theorem writeResult_keeps {γ : Type} (vw : State → γ) (hg : ∀ s t, vw (foot9_4 s t) = vw s)
    (s : State) (ws : List Word64) (c : ℕ) (seg : ℕ) (pos : ℕ) (mask : ℕ) (data : Bytes) :
    vw (writeResult s ws c seg pos mask data) = vw s := by
  unfold writeResult
  repeat' first | with_reducible rfl | with_reducible refine (foldlState vw _ (fun s a => ?_) _ _).trans ?_ | simp only [updColl_keeps vw (fun s t => hg s (footColls s t)), writeLines_keeps vw (fun s t => hg s (foot8_5 s t)), writeBytes_keeps vw (fun s t => hg s (foot8_5 s t)), foldlState vw, id_eq] | split

theorem spreadAt_keeps {γ : Type} (vw : State → γ) (hg : ∀ s t, vw (footRouterWRouterE s t) = vw s)
    (s : State) (ws : List Word64) (level : ℕ) (h : CollHdr) :
    vw (spreadAt s ws level h) = vw s := by
  unfold spreadAt
  repeat' first | with_reducible rfl | with_reducible refine (foldlState vw _ (fun s a => ?_) _ _).trans ?_ | simp only [inject_keeps vw hg, nextCollSeq_keeps vw hg, sendColl_keeps vw hg, foldlState vw, id_eq] | split

theorem passResult_keeps {γ : Type} (vw : State → γ) (hg : ∀ s t, vw (foot11_4 s t) = vw s)
    (s : State) (ws : List Word64) (h : CollHdr) :
    vw (passResult s ws h) = vw s := by
  unfold passResult
  repeat' first | with_reducible rfl | with_reducible refine (foldlState vw _ (fun s a => ?_) _ _).trans ?_ | simp only [updColl_keeps vw (fun s t => hg s (footColls s t)), spreadAt_keeps vw (fun s t => hg s (footRouterWRouterE s t)), writeResult_keeps vw (fun s t => hg s (foot9_4 s t)), foldlState vw, id_eq] | split

theorem spread_keeps {γ : Type} (vw : State → γ) (hg : ∀ s t, vw (foot11_4 s t) = vw s)
    (s : State) (ws : List Word64) (level : ℕ) (c : ℕ) (seg : ℕ) (vs : List BankVal) (inv : List ℕ) :
    vw (spread s ws level c seg vs inv) = vw s := by
  unfold spread
  repeat' first | with_reducible rfl | with_reducible refine (foldlState vw _ (fun s a => ?_) _ _).trans ?_ | simp only [updColl_keeps vw (fun s t => hg s (footColls s t)), passResult_keeps vw hg, foldlState vw, id_eq] | split

theorem closeSeg_keeps {γ : Type} (vw : State → γ) (hg : ∀ s t, vw (foot4_31 s t) = vw s)
    (s : State) (ws : List Word64) (level : ℕ) (c : ℕ) (seg : ℕ) :
    vw (closeSeg s ws level c seg).1 = vw s := by
  unfold closeSeg
  repeat' first | with_reducible rfl | with_reducible refine (foldlState vw _ (fun s a => ?_) _ _).trans ?_ | simp only [sendPartial_keeps vw (fun s t => hg s (footRouterWRouterEColls s t)), updColl_keeps vw (fun s t => hg s (footColls s t)), updSlot_keeps vw (fun s t => hg s (footSlots s t)), foldlState vw, id_eq] | split

theorem stageOn_keeps {γ : Type} (vw : State → γ) (hg : ∀ s t, vw (foot13_2 s t) = vw s)
    (s : State) (ws : List Word64) (level : ℕ) (c : ℕ) (seg : ℕ) (vs : List BankVal) (inv : List ℕ) :
    vw (stageOn s ws level c seg vs inv) = vw s := by
  unfold stageOn
  repeat' first | with_reducible rfl | with_reducible refine (foldlState vw _ (fun s a => ?_) _ _).trans ?_ | exact (congrArg (fun p => vw p.1) ‹closeSeg _ _ _ _ _ = _›).symm.trans (closeSeg_keeps vw (fun s t => hg s (foot4_31 s t)) _ _ _ _ _) | simp only [closeSeg_keeps vw (fun s t => hg s (foot4_31 s t)), enterLocal_keeps vw (fun s t => hg s (foot6_6 s t)), spread_keeps vw (fun s t => hg s (foot11_4 s t)), foldlState vw, id_eq] | split

theorem advanceSeg_keeps {γ : Type} (vw : State → γ) (hg : ∀ s t, vw (foot13_2 s t) = vw s)
    (s : State) (ws : List Word64) (level : ℕ) (c : ℕ) (seg : ℕ) :
    vw (advanceSeg s ws level c seg) = vw s := by
  unfold advanceSeg
  repeat' first | with_reducible rfl | with_reducible refine (foldlState vw _ (fun s a => ?_) _ _).trans ?_ | exact (congrArg (fun p => vw p.1) ‹closeSeg _ _ _ _ _ = _›).symm.trans (closeSeg_keeps vw (fun s t => hg s (foot4_31 s t)) _ _ _ _ _) | simp only [closeSeg_keeps vw (fun s t => hg s (foot4_31 s t)), stageOn_keeps vw hg, foldlState vw, id_eq] | split

theorem signalChunks_keeps {γ : Type} (vw : State → γ) (hg : ∀ s t, vw (foot4_1 s t) = vw s)
    (s : State) (ws : List Word64) (x1 : ℕ) :
    vw (signalChunks s ws x1) = vw s := by
  fun_induction signalChunks s ws x1
  all_goals repeat' first | with_reducible rfl | assumption | with_reducible refine (foldlState vw _ (fun s a => ?_) _ _).trans ?_ | simp only [*, updColl_keeps vw (fun s t => hg s (footColls s t)), syncAdd_keeps vw (fun s t => hg s (footClaimsSyncWaiters s t)), foldlState vw, id_eq] | split | simp +zetaDelta only [updColl_keeps vw (fun s t => hg s (footColls s t)), syncAdd_keeps vw (fun s t => hg s (footClaimsSyncWaiters s t)), foldlState vw, id_eq]

theorem dropColl_keeps {γ : Type} (vw : State → γ) (hg : ∀ s t, vw (footCollsSlotsGreys s t) = vw s)
    (s : State) (id : ℕ) :
    vw (dropColl s id) = vw s := by
  have h0 : ∀ s x0 x1 x2, vw { s with colls := x0, slots := x1, greys := x2 } = vw s := fun s x0 x1 x2 => hg s { s with colls := x0, slots := x1, greys := x2 }
  unfold dropColl
  repeat' first | with_reducible rfl | with_reducible refine (foldlState vw _ (fun s a => ?_) _ _).trans ?_ | simp only [h0, foldlState vw, id_eq] | split

theorem completeColl_keeps {γ : Type} (vw : State → γ) (hg : ∀ s t, vw (foot23_1 s t) = vw s)
    (s : State) (ws : List Word64) :
    vw (completeColl s ws) = vw s := by
  unfold completeColl
  repeat' first | with_reducible rfl | with_reducible refine (foldlState vw _ (fun s a => ?_) _ _).trans ?_ | simp only [dropColl_keeps vw (fun s t => hg s (footCollsSlotsGreys s t)), completeDesc_keeps vw (fun s t => hg s (foot20_0 s t)), foldlState vw, id_eq] | split

theorem closeChunk_keeps {γ : Type} (vw : State → γ) (hg : ∀ s t, vw (foot23_1 s t) = vw s)
    (s : State) (ws : List Word64) (c : ℕ) :
    vw (closeChunk s ws c) = vw s := by
  have h0 : ∀ s x0, vw { s with slots := x0 } = vw s := fun s x0 => hg s { s with slots := x0 }
  unfold closeChunk
  repeat' first | with_reducible rfl | with_reducible refine (foldlState vw _ (fun s a => ?_) _ _).trans ?_ | simp only [h0, updColl_keeps vw (fun s t => hg s (footColls s t)), signalChunks_keeps vw (fun s t => hg s (foot4_1 s t)), completeColl_keeps vw hg, foldlState vw, id_eq] | split

theorem endColl_keeps {γ : Type} (vw : State → γ) (hg : ∀ s t, vw (foot24_3 s t) = vw s)
    (s : State) (x : Coll) (status : ℕ) :
    vw (endColl s x status) = vw s := by
  have h0 : ∀ s x0 x1, vw { s with waiters := x0, ended := x1 } = vw s := fun s x0 x1 => hg s { s with waiters := x0, ended := x1 }
  unfold endColl
  repeat' first | with_reducible rfl | with_reducible refine (foldlState vw _ (fun s a => ?_) _ _).trans ?_ | simp only [h0, dropColl_keeps vw (fun s t => hg s (footCollsSlotsGreys s t)), completeDesc_keeps vw (fun s t => hg s (foot20_0 s t)), foldlState vw, id_eq] | split

theorem adopt_keeps {γ : Type} (vw : State → γ) (hg : ∀ s t, vw (foot24_4 s t) = vw s)
    (s : State) (ws : List Word64) (x1 : List Slot) :
    vw (adopt s ws x1) = vw s := by
  fun_induction adopt s ws x1
  all_goals repeat' first | with_reducible rfl | assumption | with_reducible refine (foldlState vw _ (fun s a => ?_) _ _).trans ?_ | simp only [*, updSlot_keeps vw (fun s t => hg s (footSlots s t)), updColl_keeps vw (fun s t => hg s (footColls s t)), closeChunk_keeps vw (fun s t => hg s (foot23_1 s t)), advanceSeg_keeps vw (fun s t => hg s (foot13_2 s t)), foldlState vw, id_eq] | split | simp +zetaDelta only [updSlot_keeps vw (fun s t => hg s (footSlots s t)), updColl_keeps vw (fun s t => hg s (footColls s t)), closeChunk_keeps vw (fun s t => hg s (foot23_1 s t)), advanceSeg_keeps vw (fun s t => hg s (foot13_2 s t)), foldlState vw, id_eq]

theorem seamWaits_keeps {γ : Type} (vw : State → γ) (hg : ∀ s t, vw (footDicWaiters s t) = vw s)
    (s : State) (q : ℕ) (seq : ℕ) (ws : List Word64) (x1 : List ℕ) :
    vw (seamWaits s q seq ws x1) = vw s := by
  fun_induction seamWaits s q seq ws x1
  all_goals repeat' first | with_reducible rfl | assumption | with_reducible refine (foldlState vw _ (fun s a => ?_) _ _).trans ?_ | simp only [*, addWait_keeps vw hg, foldlState vw, id_eq] | split | simp +zetaDelta only [addWait_keeps vw hg, foldlState vw, id_eq]

theorem runSeam_keeps {γ : Type} (vw : State → γ) (hg : ∀ s t, vw (foot20_0 s t) = vw s)
    (s : State) (q : ℕ) (f : Fetched) :
    vw (runSeam s q f) = vw s := by
  unfold runSeam
  repeat' first | with_reducible rfl | with_reducible refine (foldlState vw _ (fun s a => ?_) _ _).trans ?_ | simp only [seamWaits_keeps vw (fun s t => hg s (footDicWaiters s t)), rejectDesc_keeps vw hg, updQ_keeps vw (fun s t => hg s (footQueues s t)), foldlState vw, id_eq] | split

theorem reachIn_keeps {γ : Type} (vw : State → γ) (hg : ∀ s t, vw (footQueues s t) = vw s)
    (ready : State → Half → ℕ → Fetched → State × Bool) (s : State) (q : ℕ) (f : Fetched) (h : Half)
    (h_ready : ∀ s a0 a1 a2, vw (ready s a0 a1 a2).1 = vw s) :
    vw (reachIn ready s q f h) = vw s := by
  unfold reachIn
  repeat' first | with_reducible rfl | with_reducible refine (foldlState vw _ (fun s a => ?_) _ _).trans ?_ | simp only [h_ready, updFetched_keeps vw hg, foldlState vw, id_eq] | split

theorem runTogether_keeps {γ : Type} (vw : State → γ) (hg : ∀ s t, vw (footQueues s t) = vw s)
    (ready : State → Half → ℕ → Fetched → State × Bool) (s : State) (q : ℕ) (op : ℕ) (run : State → Fetched → State)
    (h_ready : ∀ s a0 a1 a2, vw (ready s a0 a1 a2).1 = vw s) (h_run : ∀ s a0, vw (run s a0) = vw s) :
    vw (runTogether ready s q op run) = vw s := by
  unfold runTogether
  repeat' first | with_reducible rfl | with_reducible refine (foldlState vw _ (fun s a => ?_) _ _).trans ?_ | with_reducible refine (reachIn_keeps vw hg _ _ _ _ _ (fun _ _ _ _ => ?_)).trans ?_ | simp only [h_ready, h_run, reachIn_keeps vw hg, setTodo_keeps vw hg, foldlState vw, id_eq] | split

theorem seamMarkerAt_keeps {γ : Type} (vw : State → γ) (hg : ∀ s t, vw (foot20_0 s t) = vw s)
    (s : State) (q : ℕ) :
    vw (seamMarkerAt s q) = vw s := by
  have k_runTogether := runTogether_keeps vw (fun s t => hg s (footQueues s t))
  unfold seamMarkerAt
  repeat' first | with_reducible rfl | with_reducible refine (foldlState vw _ (fun s a => ?_) _ _).trans ?_ | with_reducible refine (k_runTogether _ _ _ _ _ (fun _ _ _ _ => ?_) (fun _ _ => ?_)).trans ?_ | exact (congrArg (fun p => vw p.1) ‹seamReady _ _ _ _ = _›).symm.trans (seamReady_keeps vw (fun s t => hg s (footDicQueues s t)) _ _ _ _) | simp only [runTogether_keeps vw (fun s t => hg s (footQueues s t)), seamReady_keeps vw (fun s t => hg s (footDicQueues s t)), runSeam_keeps vw hg, foldlState vw, id_eq] | split

theorem seamOpenAt_keeps {γ : Type} (vw : State → γ) (hg : ∀ s t, vw (foot20_0 s t) = vw s)
    (s : State) (q : ℕ) :
    vw (seamOpenAt s q) = vw s := by
  unfold seamOpenAt
  repeat' first | with_reducible rfl | with_reducible refine (foldlState vw _ (fun s a => ?_) _ _).trans ?_ | simp only [objInc_keeps vw (fun s t => hg s (footDic s t)), updQ_keeps vw (fun s t => hg s (footQueues s t)), completeDesc_keeps vw hg, foldlState vw, id_eq] | split

theorem breakFor_keeps {γ : Type} (vw : State → γ) (hg : ∀ s t, vw (foot8_8 s t) = vw s)
    (s : State) (w : Claim) :
    vw (breakFor s w) = vw s := by
  have h0 : ∀ s x0 x1, vw { s with waitClaims := x0, spills := x1 } = vw s := fun s x0 x1 => hg s { s with waitClaims := x0, spills := x1 }
  unfold breakFor
  repeat' first | with_reducible rfl | with_reducible refine (foldlState vw _ (fun s a => ?_) _ _).trans ?_ | simp only [h0, journal_keeps vw (fun s t => hg s (footDicObs s t)), updCtx_keeps vw (fun s t => hg s (footEngines s t)), objInc_keeps vw (fun s t => hg s (footDic s t)), raiseTrap_keeps vw (fun s t => hg s (footOutQueuesHost s t)), updQ_keeps vw (fun s t => hg s (footQueues s t)), foldlState vw, id_eq] | split

theorem watchFire_keeps {γ : Type} (vw : State → γ) (hg : ∀ s t, vw (foot8_8 s t) = vw s)
    (s : State) (slice : ℕ) :
    vw (watchFire s slice) = vw s := by
  unfold watchFire
  repeat' first | with_reducible rfl | with_reducible refine (foldlState vw _ (fun s a => ?_) _ _).trans ?_ | simp only [breakFor_keeps vw hg, foldlState vw, id_eq] | split

theorem grantClaim_keeps {γ : Type} (vw : State → γ) (hg : ∀ s t, vw (footEnginesClaimsWaitClaims s t) = vw s)
    (s : State) (i : ℕ) :
    vw (grantClaim s i) = vw s := by
  have h0 : ∀ s x0 x1, vw { s with claims := x0, waitClaims := x1 } = vw s := fun s x0 x1 => hg s { s with claims := x0, waitClaims := x1 }
  unfold grantClaim
  repeat' first | with_reducible rfl | with_reducible refine (foldlState vw _ (fun s a => ?_) _ _).trans ?_ | simp only [h0, updCtx_keeps vw (fun s t => hg s (footEngines s t)), foldlState vw, id_eq] | split

theorem grantWaiter_keeps {γ : Type} (vw : State → γ) (hg : ∀ s t, vw (foot9_7 s t) = vw s)
    (s : State) (waiter : ℕ × ℕ) :
    vw (grantWaiter s waiter) = vw s := by
  unfold grantWaiter
  repeat' first | with_reducible rfl | with_reducible refine (foldlState vw _ (fun s a => ?_) _ _).trans ?_ | simp only [grantClaim_keeps vw (fun s t => hg s (footEnginesClaimsWaitClaims s t)), breakFor_keeps vw (fun s t => hg s (foot8_8 s t)), foldlState vw, id_eq] | split

theorem spillDone_keeps {γ : Type} (vw : State → γ) (hg : ∀ s t, vw (foot9_7 s t) = vw s)
    (s : State) (slice : ℕ) :
    vw (spillDone s slice) = vw s := by
  have h0 : ∀ s x0 x1 x2, vw { s with claims := x0, waitClaims := x1, spills := x2 } = vw s := fun s x0 x1 x2 => hg s { s with claims := x0, waitClaims := x1, spills := x2 }
  unfold spillDone
  repeat' first | with_reducible rfl | with_reducible refine (foldlState vw _ (fun s a => ?_) _ _).trans ?_ | simp only [h0, objAdd_keeps vw (fun s t => hg s (footDic s t)), grantWaiter_keeps vw hg, foldlState vw, id_eq] | split

theorem reclaim_keeps {γ : Type} (vw : State → γ) (hg : ∀ s t, vw (footClaimsWaitClaimsSpills s t) = vw s)
    (s : State) (slice : ℕ) :
    vw (reclaim s slice) = vw s := by
  have h0 : ∀ s x0 x1 x2, vw { s with claims := x0, waitClaims := x1, spills := x2 } = vw s := fun s x0 x1 x2 => hg s { s with claims := x0, waitClaims := x1, spills := x2 }
  unfold reclaim
  repeat' first | with_reducible rfl | with_reducible refine (foldlState vw _ (fun s a => ?_) _ _).trans ?_ | simp only [h0, foldlState vw, id_eq] | split

theorem restoreDone_keeps {γ : Type} (vw : State → γ) (hg : ∀ s t, vw (foot4_18 s t) = vw s)
    (s : State) (slice : ℕ) :
    vw (restoreDone s slice) = vw s := by
  have h0 : ∀ s x0 x1 x2, vw { s with tile := x0, tilePoison := x1, spills := x2 } = vw s := fun s x0 x1 x2 => hg s { s with tile := x0, tilePoison := x1, spills := x2 }
  unfold restoreDone
  repeat' first | with_reducible rfl | with_reducible refine (foldlState vw _ (fun s a => ?_) _ _).trans ?_ | simp only [h0, updCtx_keeps vw (fun s t => hg s (footEngines s t)), foldlState vw, id_eq] | split

theorem launch_keeps {γ : Type} (vw : State → γ) (hg : ∀ s t, vw (foot6_10 s t) = vw s)
    (coll : Bool) (block : Fetch) (parts : Fetch) (s : State) :
    vw (launch coll block parts s) = vw s := by
  have h0 : ∀ s x0 x1, vw { s with parts := x0, queues := x1 } = vw s := fun s x0 x1 => hg s { s with parts := x0, queues := x1 }
  have k_readPastDim := readPastDim_keeps vw (fun s t => hg s (foot4_23 s t))
  unfold launch
  repeat' first | with_reducible rfl | with_reducible refine (foldlState vw _ (fun s a => ?_) _ _).trans ?_ | exact (congrArg (fun p => vw p.1) ‹readClean _ _ _ _ = _›).symm.trans (readClean_keeps vw (fun s t => hg s (footDicHost s t)) _ _ _ _) | with_reducible refine (k_readPastDim _ _ _ _ _ (fun _ => ?_)).trans ?_ | simp only [h0, readClean_keeps vw (fun s t => hg s (footDicHost s t)), mbxEnd_keeps vw (fun s t => hg s (footOutHost s t)), readPastDim_keeps vw (fun s t => hg s (foot4_23 s t)), foldlState vw, id_eq] | split

theorem removeQueue_keeps {γ : Type} (vw : State → γ) (hg : ∀ s t, vw (footPartsQueues s t) = vw s)
    (s : State) (q : ℕ) :
    vw (removeQueue s q) = vw s := by
  have h0 : ∀ s x0 x1, vw { s with parts := x0, queues := x1 } = vw s := fun s x0 x1 => hg s { s with parts := x0, queues := x1 }
  unfold removeQueue
  repeat' first | with_reducible rfl | with_reducible refine (foldlState vw _ (fun s a => ?_) _ _).trans ?_ | simp only [h0, foldlState vw, id_eq] | split

theorem destroy_keeps {γ : Type} (vw : State → γ) (hg : ∀ s t, vw (foot4_28 s t) = vw s)
    (s : State) :
    vw (destroy s) = vw s := by
  unfold destroy
  repeat' first | with_reducible rfl | with_reducible refine (foldlState vw _ (fun s a => ?_) _ _).trans ?_ | simp only [removeQueue_keeps vw (fun s t => hg s (footPartsQueues s t)), mbxEnd_keeps vw (fun s t => hg s (footOutHost s t)), foldlState vw, id_eq] | split

theorem hostPage_keeps {γ : Type} (vw : State → γ) (hg : ∀ s t, vw (foot23_0 s t) = vw s)
    (s : State) (q : ℕ) (reg : ℕ) (w : ℕ) :
    vw (hostPage s q reg w) = vw s := by
  unfold hostPage
  repeat' first | with_reducible rfl | with_reducible refine (foldlState vw _ (fun s a => ?_) _ _).trans ?_ | simp only [pageWrite_keeps vw hg, foldlState vw, id_eq] | split

theorem cplTimeout_keeps {γ : Type} (vw : State → γ) (hg : ∀ s t, vw (footOutQueuesHost s t) = vw s)
    (s : State) (q : ℕ) :
    vw (cplTimeout s q) = vw s := by
  unfold cplTimeout
  repeat' first | with_reducible rfl | with_reducible refine (foldlState vw _ (fun s a => ?_) _ _).trans ?_ | simp only [raiseCpl_keeps vw hg, foldlState vw, id_eq] | split

theorem fetchOne_keeps {γ : Type} (vw : State → γ) (hg : ∀ s t, vw (foot20_0 s t) = vw s)
    (s : State) (q : ℕ) (f : Fetch) :
    vw (fetchOne s q f) = vw s := by
  have k_readPastDim := readPastDim_keeps vw (fun s t => hg s (foot4_23 s t))
  unfold fetchOne
  repeat' first | with_reducible rfl | with_reducible refine (foldlState vw _ (fun s a => ?_) _ _).trans ?_ | exact (congrArg (fun p => vw p.1) ‹readClean _ _ _ _ = _›).symm.trans (readClean_keeps vw (fun s t => hg s (footDicHost s t)) _ _ _ _) | with_reducible refine (k_readPastDim _ _ _ _ _ (fun _ => ?_)).trans ?_ | simp only [unreadable_keeps vw hg, readClean_keeps vw (fun s t => hg s (footDicHost s t)), readPastDim_keeps vw (fun s t => hg s (foot4_23 s t)), updQ_keeps vw (fun s t => hg s (footQueues s t)), addFetched_keeps vw (fun s t => hg s (footQueues s t)), foldlState vw, id_eq] | split

theorem issueColl_keeps {γ : Type} (vw : State → γ) (hg : ∀ s t, vw (foot22_2 s t) = vw s)
    (s : State) (h : Half) :
    vw (issueColl s h).1 = vw s := by
  have h0 : ∀ s x0 x1, vw { s with colls := x0, ended := x1 } = vw s := fun s x0 x1 => hg s { s with colls := x0, ended := x1 }
  unfold issueColl
  repeat' first | with_reducible rfl | with_reducible refine (foldlState vw _ (fun s a => ?_) _ _).trans ?_ | simp only [h0, markIssued_keeps vw (fun s t => hg s (footQueues s t)), rejectDesc_keeps vw (fun s t => hg s (foot20_0 s t)), noteStall_keeps vw (fun s t => hg s (footDicQueues s t)), addWait_keeps vw (fun s t => hg s (footDicWaiters s t)), updQ_keeps vw (fun s t => hg s (footQueues s t)), foldlState vw, id_eq] | split

theorem colReads_keeps {γ : Type} (vw : State → γ) (hg : ∀ s t, vw (foot4_23 s t) = vw s)
    (s : State) (ws : List Word64) (c : ℕ) (seg : ℕ) (go : State → State)
    (h_go : ∀ s, vw (go s) = vw s) :
    vw (colReads s ws c seg go) = vw s := by
  have k_pastDim := pastDim_keeps vw (fun s t => hg s (footDicChans s t))
  have k_pastSnoop := pastSnoop_keeps vw (fun s t => hg s (footOutHost s t))
  unfold colReads
  repeat' first | with_reducible rfl | with_reducible refine (foldlState vw _ (fun s a => ?_) _ _).trans ?_ | with_reducible refine (k_pastDim _ _ _ _ _ (fun _ => ?_)).trans ?_ | with_reducible refine (k_pastSnoop _ _ _ _ (fun _ => ?_)).trans ?_ | simp only [h_go, pastDim_keeps vw (fun s t => hg s (footDicChans s t)), pastSnoop_keeps vw (fun s t => hg s (footOutHost s t)), foldlState vw, id_eq] | split

theorem colWrites_keeps {γ : Type} (vw : State → γ) (hg : ∀ s t, vw (foot4_23 s t) = vw s)
    (s : State) (ws : List Word64) (c : ℕ) (seg : ℕ) (go : State → State)
    (h_go : ∀ s, vw (go s) = vw s) :
    vw (colWrites s ws c seg go) = vw s := by
  have k_pastSnoop := pastSnoop_keeps vw (fun s t => hg s (footOutHost s t))
  unfold colWrites
  repeat' first | with_reducible rfl | with_reducible refine (foldlState vw _ (fun s a => ?_) _ _).trans ?_ | with_reducible refine (k_pastSnoop _ _ _ _ (fun _ => ?_)).trans ?_ | simp only [h_go, pastSnoop_keeps vw (fun s t => hg s (footOutHost s t)), dimStall_keeps vw (fun s t => hg s (footDicChans s t)), foldlState vw, id_eq] | split

theorem localInput_keeps {γ : Type} (vw : State → γ) (hg : ∀ s t, vw (foot24_4 s t) = vw s)
    (s : State) (id : ℕ) (c : ℕ) (seg : ℕ) :
    vw (localInput s id c seg) = vw s := by
  have k_colWrites := colWrites_keeps vw (fun s t => hg s (foot4_23 s t))
  have k_colReads := colReads_keeps vw (fun s t => hg s (foot4_23 s t))
  unfold localInput
  repeat' first | with_reducible rfl | with_reducible refine (foldlState vw _ (fun s a => ?_) _ _).trans ?_ | with_reducible refine (k_colWrites _ _ _ _ _ (fun _ => ?_)).trans ?_ | with_reducible refine (k_colReads _ _ _ _ _ (fun _ => ?_)).trans ?_ | simp only [colWrites_keeps vw (fun s t => hg s (foot4_23 s t)), colReads_keeps vw (fun s t => hg s (foot4_23 s t)), updColl_keeps vw (fun s t => hg s (footColls s t)), enterLocal_keeps vw (fun s t => hg s (foot6_6 s t)), advanceSeg_keeps vw (fun s t => hg s (foot13_2 s t)), spread_keeps vw (fun s t => hg s (foot11_4 s t)), closeChunk_keeps vw (fun s t => hg s (foot23_1 s t)), foldlState vw, id_eq] | split

theorem echoMark_keeps {γ : Type} (vw : State → γ) (hg : ∀ s t, vw (footRouterWRouterECollEcho s t) = vw s)
    (s : State) (p : Packet) (id : ℕ) :
    vw (echoMark s p id) = vw s := by
  have h0 : ∀ s x0, vw { s with collEcho := x0 } = vw s := fun s x0 => hg s { s with collEcho := x0 }
  unfold echoMark
  repeat' first | with_reducible rfl | with_reducible refine (foldlState vw _ (fun s a => ?_) _ _).trans ?_ | simp only [h0, inject_keeps vw (fun s t => hg s (footRouterWRouterE s t)), nextReplySeq_keeps vw (fun s t => hg s (footRouterWRouterE s t)), foldlState vw, id_eq] | split

theorem takeGreyPacket_keeps {γ : Type} (vw : State → γ) (hg : ∀ s t, vw (foot24_3 s t) = vw s)
    (s : State) (x : Coll) (h : CollHdr) :
    vw (takeGreyPacket s x h) = vw s := by
  have h0 : ∀ s x0, vw { s with greys := x0 } = vw s := fun s x0 => hg s { s with greys := x0 }
  unfold takeGreyPacket
  repeat' first | with_reducible rfl | with_reducible refine (foldlState vw _ (fun s a => ?_) _ _).trans ?_ | simp only [h0, objInc_keeps vw (fun s t => hg s (footDic s t)), endColl_keeps vw hg, countDup_keeps vw (fun s t => hg s (footDicColls s t)), foldlState vw, id_eq] | split

theorem takeActive_keeps {γ : Type} (vw : State → γ) (hg : ∀ s t, vw (foot25_5 s t) = vw s)
    (s : State) (x : Coll) (h : CollHdr) :
    vw (takeActive s x h) = vw s := by
  unfold takeActive
  repeat' first | with_reducible rfl | with_reducible refine (foldlState vw _ (fun s a => ?_) _ _).trans ?_ | simp only [takeNotice_keeps vw (fun s t => hg s (foot4_3 s t)), takeInput_keeps vw (fun s t => hg s (foot6_6 s t)), passResult_keeps vw (fun s t => hg s (foot11_4 s t)), advanceSeg_keeps vw (fun s t => hg s (foot13_2 s t)), countDup_keeps vw (fun s t => hg s (footDicColls s t)), takeGreyPacket_keeps vw (fun s t => hg s (foot24_3 s t)), closeChunk_keeps vw (fun s t => hg s (foot23_1 s t)), foldlState vw, id_eq] | split

theorem activate_keeps {γ : Type} (vw : State → γ) (hg : ∀ s t, vw (foot25_5 s t) = vw s)
    (s : State) (h : Half) :
    vw (activate s h) = vw s := by
  have h0 : ∀ s x0, vw { s with pendColls := x0 } = vw s := fun s x0 => hg s { s with pendColls := x0 }
  unfold activate
  repeat' first | with_reducible rfl | with_reducible refine (foldlState vw _ (fun s a => ?_) _ _).trans ?_ | simp only [h0, updColl_keeps vw (fun s t => hg s (footColls s t)), adopt_keeps vw (fun s t => hg s (foot24_4 s t)), takeActive_keeps vw hg, foldlState vw, id_eq] | split

theorem takePending_keeps {γ : Type} (vw : State → γ) (hg : ∀ s t, vw (foot6_6 s t) = vw s)
    (s : State) (h : CollHdr) :
    vw (takePending s h) = vw s := by
  have h0 : ∀ s x0, vw { s with pendColls := x0 } = vw s := fun s x0 => hg s { s with pendColls := x0 }
  unfold takePending
  repeat' first | with_reducible rfl | with_reducible refine (foldlState vw _ (fun s a => ?_) _ _).trans ?_ | simp only [h0, takeNotice_keeps vw (fun s t => hg s (foot4_3 s t)), takeInput_keeps vw hg, updPend_keeps vw (fun s t => hg s (footPendColls s t)), foldlState vw, id_eq] | split

theorem takeColl_keeps {γ : Type} (vw : State → γ) (hg : ∀ s t, vw (foot26_0 s t) = vw s)
    (s : State) (p : Packet) :
    vw (takeColl s p) = vw s := by
  have k_colWrites := colWrites_keeps vw (fun s t => hg s (foot4_23 s t))
  unfold takeColl
  repeat' first | with_reducible rfl | with_reducible refine (foldlState vw _ (fun s a => ?_) _ _).trans ?_ | with_reducible refine (k_colWrites _ _ _ _ _ (fun _ => ?_)).trans ?_ | simp only [colWrites_keeps vw (fun s t => hg s (foot4_23 s t)), echoFrom_keeps vw (fun s t => hg s (footRouterWRouterE s t)), echoMark_keeps vw (fun s t => hg s (footRouterWRouterECollEcho s t)), takePending_keeps vw (fun s t => hg s (foot6_6 s t)), objInc_keeps vw (fun s t => hg s (footDic s t)), takeEjected_keeps vw (fun s t => hg s (footRouterWRouterE s t)), takeActive_keeps vw (fun s t => hg s (foot25_5 s t)), foldlState vw, id_eq] | split

theorem reduceGrey_keeps {γ : Type} (vw : State → γ) (hg : ∀ s t, vw (foot24_4 s t) = vw s)
    (s : State) (id : ℕ) (level : ℕ) (c : ℕ) (seg : ℕ) :
    vw (reduceGrey s id level c seg) = vw s := by
  have h0 : ∀ s x0, vw { s with greys := x0 } = vw s := fun s x0 => hg s { s with greys := x0 }
  have k_colWrites := colWrites_keeps vw (fun s t => hg s (foot4_23 s t))
  unfold reduceGrey
  repeat' first | with_reducible rfl | with_reducible refine (foldlState vw _ (fun s a => ?_) _ _).trans ?_ | with_reducible refine (k_colWrites _ _ _ _ _ (fun _ => ?_)).trans ?_ | simp only [h0, colWrites_keeps vw (fun s t => hg s (foot4_23 s t)), updColl_keeps vw (fun s t => hg s (footColls s t)), updSlot_keeps vw (fun s t => hg s (footSlots s t)), stageOn_keeps vw (fun s t => hg s (foot13_2 s t)), closeChunk_keeps vw (fun s t => hg s (foot23_1 s t)), foldlState vw, id_eq] | split

theorem collExpire_keeps {γ : Type} (vw : State → γ) (hg : ∀ s t, vw (foot24_3 s t) = vw s)
    (s : State) (id : ℕ) :
    vw (collExpire s id) = vw s := by
  unfold collExpire
  repeat' first | with_reducible rfl | with_reducible refine (foldlState vw _ (fun s a => ?_) _ _).trans ?_ | simp only [objInc_keeps vw (fun s t => hg s (footDic s t)), endColl_keeps vw hg, foldlState vw, id_eq] | split

theorem abortColl_keeps {γ : Type} (vw : State → γ) (hg : ∀ s t, vw (foot24_3 s t) = vw s)
    (s : State) :
    vw (abortColl s) = vw s := by
  unfold abortColl
  repeat' first | with_reducible rfl | with_reducible refine (foldlState vw _ (fun s a => ?_) _ _).trans ?_ | simp only [objInc_keeps vw (fun s t => hg s (footDic s t)), endColl_keeps vw hg, mbxEnd_keeps vw (fun s t => hg s (footOutHost s t)), foldlState vw, id_eq] | split

theorem pendExpire_keeps {γ : Type} (vw : State → γ) (hg : ∀ s t, vw (footDicSlotsPendColls s t) = vw s)
    (s : State) (id : ℕ) :
    vw (pendExpire s id) = vw s := by
  have h0 : ∀ s x0 x1, vw { s with slots := x0, pendColls := x1 } = vw s := fun s x0 x1 => hg s { s with slots := x0, pendColls := x1 }
  unfold pendExpire
  repeat' first | with_reducible rfl | with_reducible refine (foldlState vw _ (fun s a => ?_) _ _).trans ?_ | simp only [h0, objInc_keeps vw (fun s t => hg s (footDic s t)), foldlState vw, id_eq] | split

theorem loseLane_keeps {γ : Type} (vw : State → γ) (hg : ∀ s t, vw (foot8_4 s t) = vw s)
    (s : State) (x : ℕ × ℕ) :
    vw (loseLane s x) = vw s := by
  unfold loseLane
  repeat' first | with_reducible rfl | with_reducible refine (foldlState vw _ (fun s a => ?_) _ _).trans ?_ | simp only [abortTold_keeps vw (fun s t => hg s (foot4_11 s t)), laneOut_keeps vw (fun s t => hg s (foot7_1 s t)), foldlState vw, id_eq] | split

theorem loseLight_keeps {γ : Type} (vw : State → γ) (hg : ∀ s t, vw (foot9_2 s t) = vw s)
    (s : State) (laser : ℕ) (line : Option ℕ) :
    vw (loseLight s laser line) = vw s := by
  unfold loseLight
  repeat' first | with_reducible rfl | with_reducible refine (foldlState vw _ (fun s a => ?_) _ _).trans ?_ | simp only [loseLane_keeps vw (fun s t => hg s (foot8_4 s t)), objBit_keeps vw (fun s t => hg s (footDic s t)), updLaser_keeps vw (fun s t => hg s (footLasers s t)), objPut_keeps vw (fun s t => hg s (footDic s t)), journalAlert_keeps vw (fun s t => hg s (footDicObs s t)), foldlState vw, id_eq] | split

theorem regainLane_keeps {γ : Type} (vw : State → γ) (hg : ∀ s t, vw (foot5_1 s t) = vw s)
    (s : State) (x : ℕ × ℕ) :
    vw (regainLane s x) = vw s := by
  unfold regainLane
  repeat' first | with_reducible rfl | with_reducible refine (foldlState vw _ (fun s a => ?_) _ _).trans ?_ | simp only [startRecovery_keeps vw hg, foldlState vw, id_eq] | split

theorem gainLight_keeps {γ : Type} (vw : State → γ) (hg : ∀ s t, vw (foot5_1 s t) = vw s)
    (s : State) (laser : ℕ) (line : Option ℕ) :
    vw (gainLight s laser line) = vw s := by
  unfold gainLight
  repeat' first | with_reducible rfl | with_reducible refine (foldlState vw _ (fun s a => ?_) _ _).trans ?_ | simp only [objBit_keeps vw (fun s t => hg s (footDic s t)), regainLane_keeps vw hg, updLaser_keeps vw (fun s t => hg s (footLasers s t)), objPut_keeps vw (fun s t => hg s (footDic s t)), foldlState vw, id_eq] | split

theorem lockIn_keeps {γ : Type} (vw : State → γ) (hg : ∀ s t, vw (footFreeRings s t) = vw s)
    (s : State) (r : ℕ) (err : ℤ) :
    vw (lockIn s r err) = vw s := by
  unfold lockIn
  repeat' first | with_reducible rfl | with_reducible refine (foldlState vw _ (fun s a => ?_) _ _).trans ?_ | simp only [freeStep_keeps vw (fun s t => hg s (footFree s t)), updRing_keeps vw (fun s t => hg s (footRings s t)), foldlState vw, id_eq] | split

theorem feedForward_keeps {γ : Type} (vw : State → γ) (hg : ∀ s t, vw (footRings s t) = vw s)
    (s : State) (r : ℕ) (sites : List ℕ) :
    vw (feedForward s r sites) = vw s := by
  unfold feedForward
  repeat' first | with_reducible rfl | with_reducible refine (foldlState vw _ (fun s a => ?_) _ _).trans ?_ | simp only [updRing_keeps vw hg, foldlState vw, id_eq] | split

theorem loseLock_keeps {γ : Type} (vw : State → γ) (hg : ∀ s t, vw (foot11_0 s t) = vw s)
    (s : State) (r : ℕ) :
    vw (loseLock s r) = vw s := by
  unfold loseLock
  repeat' first | with_reducible rfl | with_reducible refine (foldlState vw _ (fun s a => ?_) _ _).trans ?_ | simp only [unlockRing_keeps vw (fun s t => hg s (foot4_5 s t)), abortTold_keeps vw (fun s t => hg s (foot4_11 s t)), startRecovery_keeps vw (fun s t => hg s (foot5_1 s t)), objInc_keeps vw (fun s t => hg s (footDic s t)), laneOut_keeps vw (fun s t => hg s (foot7_1 s t)), foldlState vw, id_eq] | split

theorem turnGrey_keeps {γ : Type} (vw : State → γ) (hg : ∀ s t, vw (foot6_1 s t) = vw s)
    (s : State) (x : ℕ) (g : ℕ) (a : ℕ) :
    vw (turnGrey s x g a) = vw s := by
  unfold turnGrey
  repeat' first | with_reducible rfl | with_reducible refine (foldlState vw _ (fun s a => ?_) _ _).trans ?_ | simp only [unlockRing_keeps vw (fun s t => hg s (foot4_5 s t)), updSpec_keeps vw (fun s t => hg s (footSpecMap s t)), objInc_keeps vw (fun s t => hg s (footDic s t)), moveRef_keeps vw (fun s t => hg s (footDicLasersObs s t)), updRotor_keeps vw (fun s t => hg s (footRotors s t)), foldlState vw, id_eq] | split

theorem stepRotor_keeps {γ : Type} (vw : State → γ) (hg : ∀ s t, vw (foot10_1 s t) = vw s)
    (s : State) (x : ℕ) (g : ℕ) (x1 : ℕ) (x2 : ℕ) :
    vw (stepRotor s x g x1 x2) = vw s := by
  fun_induction stepRotor s x g x1 x2
  all_goals repeat' first | with_reducible rfl | assumption | with_reducible refine (foldlState vw _ (fun s a => ?_) _ _).trans ?_ | simp only [*, sendCtl_keeps vw (fun s t => hg s (footDicLinks s t)), objInc_keeps vw (fun s t => hg s (footDic s t)), turnGrey_keeps vw (fun s t => hg s (foot6_1 s t)), updRotor_keeps vw (fun s t => hg s (footRotors s t)), updLane_keeps vw (fun s t => hg s (footLinks s t)), settleLink_keeps vw (fun s t => hg s (foot6_3 s t)), foldlState vw, id_eq] | split | simp +zetaDelta only [sendCtl_keeps vw (fun s t => hg s (footDicLinks s t)), objInc_keeps vw (fun s t => hg s (footDic s t)), turnGrey_keeps vw (fun s t => hg s (foot6_1 s t)), updRotor_keeps vw (fun s t => hg s (footRotors s t)), updLane_keeps vw (fun s t => hg s (footLinks s t)), settleLink_keeps vw (fun s t => hg s (foot6_3 s t)), foldlState vw, id_eq]

theorem rotorStep_keeps {γ : Type} (vw : State → γ) (hg : ∀ s t, vw (foot10_1 s t) = vw s)
    (s : State) (x : ℕ) :
    vw (rotorStep s x) = vw s := by
  unfold rotorStep
  repeat' first | with_reducible rfl | with_reducible refine (foldlState vw _ (fun s a => ?_) _ _).trans ?_ | simp only [stepRotor_keeps vw hg, foldlState vw, id_eq] | split

theorem rotorLocked_keeps {γ : Type} (vw : State → γ) (hg : ∀ s t, vw (foot5_7 s t) = vw s)
    (s : State) (x : ℕ) :
    vw (rotorLocked s x) = vw s := by
  unfold rotorLocked
  repeat' first | with_reducible rfl | with_reducible refine (foldlState vw _ (fun s a => ?_) _ _).trans ?_ | simp only [sendCtl_keeps vw (fun s t => hg s (footDicLinks s t)), updRing_keeps vw (fun s t => hg s (footRings s t)), abortRotor_keeps vw (fun s t => hg s (footDicRotorsObs s t)), updRotor_keeps vw (fun s t => hg s (footRotors s t)), foldlState vw, id_eq] | split

theorem rotorLate_keeps {γ : Type} (vw : State → γ) (hg : ∀ s t, vw (foot4_11 s t) = vw s)
    (s : State) (x : ℕ) :
    vw (rotorLate s x) = vw s := by
  unfold rotorLate
  repeat' first | with_reducible rfl | with_reducible refine (foldlState vw _ (fun s a => ?_) _ _).trans ?_ | simp only [abortTold_keeps vw hg, foldlState vw, id_eq] | split

theorem idleSweep_keeps {γ : Type} (vw : State → γ) (hg : ∀ s t, vw (footRingsSweptAt s t) = vw s)
    (s : State) (k : ℕ) (locked : ℕ) :
    vw (idleSweep s k locked) = vw s := by
  have h0 : ∀ s x0, vw { s with sweptAt := x0 } = vw s := fun s x0 => hg s { s with sweptAt := x0 }
  unfold idleSweep
  repeat' first | with_reducible rfl | with_reducible refine (foldlState vw _ (fun s a => ?_) _ _).trans ?_ | simp only [h0, updRing_keeps vw (fun s t => hg s (footRings s t)), foldlState vw, id_eq] | split

theorem retrained_keeps {γ : Type} (vw : State → γ) (hg : ∀ s t, vw (foot15_2 s t) = vw s)
    (s : State) (r : ℕ) (t : TrainResult) :
    vw (retrained s r t) = vw s := by
  have h0 : ∀ s x0, vw { s with recovery := x0 } = vw s := fun s x0 => hg s { s with recovery := x0 }
  unfold retrained
  repeat' first | with_reducible rfl | with_reducible refine (foldlState vw _ (fun s a => ?_) _ _).trans ?_ | simp only [h0, returnLane_keeps vw (fun s t => hg s (foot7_1 s t)), refuseSkew_keeps vw (fun s t => hg s (foot13_0 s t)), updLane_keeps vw (fun s t => hg s (footLinks s t)), objPut_keeps vw (fun s t => hg s (footDic s t)), updRing_keeps vw (fun s t => hg s (footRings s t)), lockRing_keeps vw (fun s t => hg s (footRingsTrainFails s t)), runTraining_keeps vw (fun s t => hg s (footOutDic s t)), foldlState vw, id_eq] | split

theorem recoveryEnd_keeps {γ : Type} (vw : State → γ) (hg : ∀ s t, vw (foot17_2 s t) = vw s)
    (s : State) (r : ℕ) (found : Bool) (t : TrainResult) :
    vw (recoveryEnd s r found t) = vw s := by
  unfold recoveryEnd
  repeat' first | with_reducible rfl | with_reducible refine (foldlState vw _ (fun s a => ?_) _ _).trans ?_ | simp only [retrained_keeps vw (fun s t => hg s (foot15_2 s t)), retireRing_keeps vw (fun s t => hg s (foot14_0 s t)), updRing_keeps vw (fun s t => hg s (footRings s t)), foldlState vw, id_eq] | split

theorem dropReports_keeps {γ : Type} (vw : State → γ) (hg : ∀ s t, vw (footHeard s t) = vw s)
    (s : State) (rs : List BeaconReport) :
    vw (dropReports s rs) = vw s := by
  have h0 : ∀ s x0, vw { s with heard := x0 } = vw s := fun s x0 => hg s { s with heard := x0 }
  unfold dropReports
  repeat' first | with_reducible rfl | with_reducible refine (foldlState vw _ (fun s a => ?_) _ _).trans ?_ | simp only [h0, foldlState vw, id_eq] | split

theorem sendBeacon_keeps {γ : Type} (vw : State → γ) (hg : ∀ s t, vw (foot6_12 s t) = vw s)
    (s : State) (x : ℕ) (j : ℕ) :
    vw (sendBeacon s x j) = vw s := by
  unfold sendBeacon
  repeat' first | with_reducible rfl | with_reducible refine (foldlState vw _ (fun s a => ?_) _ _).trans ?_ | simp only [dropReports_keeps vw (fun s t => hg s (footHeard s t)), emit_keeps vw (fun s t => hg s (footOut s t)), parkRing_keeps vw (fun s t => hg s (foot4_5 s t)), foldlState vw, id_eq] | split

theorem takeReport_keeps {γ : Type} (vw : State → γ) (hg : ∀ s t, vw (foot9_1 s t) = vw s)
    (s : State) (c : ℕ) (r : BeaconReport) :
    vw (takeReport s c r) = vw s := by
  unfold takeReport
  repeat' first | with_reducible rfl | with_reducible refine (foldlState vw _ (fun s a => ?_) _ _).trans ?_ | simp only [journal_keeps vw (fun s t => hg s (footDicObs s t)), updSpec_keeps vw (fun s t => hg s (footSpecMap s t)), objInc_keeps vw (fun s t => hg s (footDic s t)), darkenLine_keeps vw hg, foldlState vw, id_eq] | split

theorem takeReports_keeps {γ : Type} (vw : State → γ) (hg : ∀ s t, vw (foot9_1 s t) = vw s)
    (s : State) (c : ℕ) (rs : List BeaconReport) :
    vw (takeReports s c rs) = vw s := by
  unfold takeReports
  repeat' first | with_reducible rfl | with_reducible refine (foldlState vw _ (fun s a => ?_) _ _).trans ?_ | simp only [checkMap_keeps vw (fun s t => hg s (foot6_3 s t)), journalMismatches_keeps vw (fun s t => hg s (footDicObs s t)), takeReport_keeps vw hg, foldlState vw, id_eq] | split

theorem darkenV1_keeps {γ : Type} (vw : State → γ) (hg : ∀ s t, vw (foot9_1 s t) = vw s)
    (s : State) (c : ℕ) :
    vw (darkenV1 s c) = vw s := by
  unfold darkenV1
  repeat' first | with_reducible rfl | with_reducible refine (foldlState vw _ (fun s a => ?_) _ _).trans ?_ | simp only [journal_keeps vw (fun s t => hg s (footDicObs s t)), darkenLine_keeps vw hg, foldlState vw, id_eq] | split

theorem sendReport_keeps {γ : Type} (vw : State → γ) (hg : ∀ s t, vw (footRouterWRouterE s t) = vw s)
    (s : State) (c : ℕ) (r : BeaconReport) :
    vw (sendReport s c r) = vw s := by
  unfold sendReport
  repeat' first | with_reducible rfl | with_reducible refine (foldlState vw _ (fun s a => ?_) _ _).trans ?_ | simp only [inject_keeps vw hg, foldlState vw, id_eq] | split

theorem hearBeacon_keeps {γ : Type} (vw : State → γ) (hg : ∀ s t, vw (foot12_0 s t) = vw s)
    (s : State) (k : ℕ) (j : ℕ) (b : Beacon) :
    vw (hearBeacon s k j b) = vw s := by
  have h0 : ∀ s x0 x1 x2, vw { s with heard := x0, inPeer := x1, peerVer := x2 } = vw s := fun s x0 x1 x2 => hg s { s with heard := x0, inPeer := x1, peerVer := x2 }
  unfold hearBeacon
  repeat' first | with_reducible rfl | with_reducible refine (foldlState vw _ (fun s a => ?_) _ _).trans ?_ | simp only [h0, checkMap_keeps vw (fun s t => hg s (foot6_3 s t)), darkenLine_keeps vw (fun s t => hg s (foot9_1 s t)), takeReports_keeps vw (fun s t => hg s (foot9_1 s t)), sendReport_keeps vw (fun s t => hg s (footRouterWRouterE s t)), darkenV1_keeps vw (fun s t => hg s (foot9_1 s t)), journalAlert_keeps vw (fun s t => hg s (footDicObs s t)), foldlState vw, id_eq] | split

theorem expireEntry_keeps {γ : Type} (vw : State → γ) (hg : ∀ s t, vw (footSpecMap s t) = vw s)
    (s : State) (x : ℕ) (j : ℕ) :
    vw (expireEntry s x j) = vw s := by
  unfold expireEntry
  repeat' first | with_reducible rfl | with_reducible refine (foldlState vw _ (fun s a => ?_) _ _).trans ?_ | simp only [updSpec_keeps vw hg, foldlState vw, id_eq] | split

theorem setDemand_keeps {γ : Type} (vw : State → γ) (hg : ∀ s t, vw (foot10_2 s t) = vw s)
    (s : State) (image : Bytes) :
    vw (setDemand s image) = vw s := by
  have h0 : ∀ s x0, vw { s with demand := x0 } = vw s := fun s x0 => hg s { s with demand := x0 }
  unfold setDemand
  repeat' first | with_reducible rfl | with_reducible refine (foldlState vw _ (fun s a => ?_) _ _).trans ?_ | simp only [h0, darkenSurplus_keeps vw (fun s t => hg s (foot9_1 s t)), foldlState vw, id_eq] | split

theorem sendLineRequest_keeps {γ : Type} (vw : State → γ) (hg : ∀ s t, vw (foot4_30 s t) = vw s)
    (s : State) (x : ℕ) (j : ℕ) :
    vw (sendLineRequest s x j) = vw s := by
  unfold sendLineRequest
  repeat' first | with_reducible rfl | with_reducible refine (foldlState vw _ (fun s a => ?_) _ _).trans ?_ | simp only [requestLine_keeps vw hg, foldlState vw, id_eq] | split

theorem takeLineRequest_keeps {γ : Type} (vw : State → γ) (hg : ∀ s t, vw (foot6_16 s t) = vw s)
    (s : State) (c : ℕ) (x : ℕ) (j : ℕ) (k : ℕ) :
    vw (takeLineRequest s c x j k) = vw s := by
  have h0 : ∀ s x0 x1 x2, vw { s with inPeer := x0, inGrant := x1, backDue := x2 } = vw s := fun s x0 x1 x2 => hg s { s with inPeer := x0, inGrant := x1, backDue := x2 }
  unfold takeLineRequest
  repeat' first | with_reducible rfl | with_reducible refine (foldlState vw _ (fun s a => ?_) _ _).trans ?_ | simp only [h0, requestLine_keeps vw (fun s t => hg s (foot4_30 s t)), emit_keeps vw (fun s t => hg s (footOut s t)), foldlState vw, id_eq] | split

theorem takeGrant_keeps {γ : Type} (vw : State → γ) (hg : ∀ s t, vw (foot17_1 s t) = vw s)
    (s : State) (x : ℕ) (j : ℕ) (t : TrainResult) :
    vw (takeGrant s x j t) = vw s := by
  have h0 : ∀ s x0, vw { s with reassign := x0 } = vw s := fun s x0 => hg s { s with reassign := x0 }
  unfold takeGrant
  repeat' first | with_reducible rfl | with_reducible refine (foldlState vw _ (fun s a => ?_) _ _).trans ?_ | simp only [h0, refuseSkew_keeps vw (fun s t => hg s (foot13_0 s t)), updSpec_keeps vw (fun s t => hg s (footSpecMap s t)), objInc_keeps vw (fun s t => hg s (footDic s t)), admitNew_keeps vw (fun s t => hg s (foot13_1 s t)), failTraining_keeps vw (fun s t => hg s (foot8_2 s t)), runTraining_keeps vw (fun s t => hg s (footOutDic s t)), foldlState vw, id_eq] | split

theorem takeRefusal_keeps {γ : Type} (vw : State → γ) (hg : ∀ s t, vw (foot4_15 s t) = vw s)
    (s : State) (x : ℕ) (j : ℕ) :
    vw (takeRefusal s x j) = vw s := by
  have h0 : ∀ s x0 x1, vw { s with reassign := x0, backDue := x1 } = vw s := fun s x0 x1 => hg s { s with reassign := x0, backDue := x1 }
  unfold takeRefusal
  repeat' first | with_reducible rfl | with_reducible refine (foldlState vw _ (fun s a => ?_) _ _).trans ?_ | simp only [h0, updSpec_keeps vw (fun s t => hg s (footSpecMap s t)), objInc_keeps vw (fun s t => hg s (footDic s t)), foldlState vw, id_eq] | split

theorem routeMgmt_keeps {γ : Type} (vw : State → γ) (hg : ∀ s t, vw (foot10_0 s t) = vw s)
    (s : State) (h : Half) (x : Held) :
    vw (routeMgmt s h x) = vw s := by
  unfold routeMgmt
  repeat' first | with_reducible rfl | with_reducible refine (foldlState vw _ (fun s a => ?_) _ _).trans ?_ | exact (served_keeps vw (fun s t => hg s (footBridgeLinks s t)) _ _ _ _ _ ‹served _ _ _ _ = some _›) | simp only [dropPacket_keeps vw (fun s t => hg s (foot4_6 s t)), objInc_keeps vw (fun s t => hg s (footDic s t)), leaveRouter_keeps vw (fun s t => hg s (footLinksRouterWRouterE s t)), sendOn_keeps vw (fun s t => hg s (foot6_0 s t)), updHeld_keeps vw (fun s t => hg s (footRouterWRouterE s t)), takeReports_keeps vw (fun s t => hg s (foot9_1 s t)), foldlState vw, id_eq] | split

theorem mcastShort_keeps {γ : Type} (vw : State → γ) (hg : ∀ s t, vw (footDicRouterWRouterE s t) = vw s)
    (s : State) (h : Half) (x : Held) (lo : ℕ) (hi : ℕ) :
    vw (mcastShort s h x lo hi) = vw s := by
  unfold mcastShort
  repeat' first | with_reducible rfl | with_reducible refine (foldlState vw _ (fun s a => ?_) _ _).trans ?_ | simp only [replyTo_keeps vw (fun s t => hg s (footRouterWRouterE s t)), objInc_keeps vw (fun s t => hg s (footDic s t)), sendColl_keeps vw (fun s t => hg s (footRouterWRouterE s t)), foldlState vw, id_eq] | split

theorem mcastSide_keeps {γ : Type} (vw : State → γ) (hg : ∀ s t, vw (foot5_0 s t) = vw s)
    (s : State) (h : Half) (x : Held) (todo : Bool) (link : Option ℕ) (lo : ℕ) (hi : ℕ) :
    vw (mcastSide s h x todo link lo hi).1 = vw s := by
  unfold mcastSide
  repeat' first | with_reducible rfl | with_reducible refine (foldlState vw _ (fun s a => ?_) _ _).trans ?_ | exact (served_keeps vw (fun s t => hg s (footBridgeLinks s t)) _ _ _ _ _ ‹served _ _ _ _ = some _›) | simp only [mcastShort_keeps vw (fun s t => hg s (footDicRouterWRouterE s t)), objInc_keeps vw (fun s t => hg s (footDic s t)), sendCopy_keeps vw (fun s t => hg s (footDicBridgeLinks s t)), foldlState vw, id_eq] | split

theorem routeMcast_keeps {γ : Type} (vw : State → γ) (hg : ∀ s t, vw (foot5_0 s t) = vw s)
    (s : State) (h : Half) (x : Held) :
    vw (routeMcast s h x) = vw s := by
  unfold routeMcast
  repeat' first | with_reducible rfl | with_reducible refine (foldlState vw _ (fun s a => ?_) _ _).trans ?_ | exact (congrArg (fun p => vw p.1) ‹mcastSide _ _ _ _ _ _ _ = _›).symm.trans (mcastSide_keeps vw hg _ _ _ _ _ _ _) | simp only [ejectTo_keeps vw (fun s t => hg s (footBridgeRouterWRouterE s t)), mcastSide_keeps vw hg, leaveRouter_keeps vw (fun s t => hg s (footLinksRouterWRouterE s t)), updHeld_keeps vw (fun s t => hg s (footRouterWRouterE s t)), foldlState vw, id_eq] | split

theorem routeChosen_keeps {γ : Type} (vw : State → γ) (hg : ∀ s t, vw (foot6_0 s t) = vw s)
    (s : State) (h : Half) (x : Held) :
    vw (routeChosen s h x) = vw s := by
  unfold routeChosen
  repeat' first | with_reducible rfl | with_reducible refine (foldlState vw _ (fun s a => ?_) _ _).trans ?_ | exact (served_keeps vw (fun s t => hg s (footBridgeLinks s t)) _ _ _ _ _ ‹served _ _ _ _ = some _›) | simp only [dropPacket_keeps vw (fun s t => hg s (foot4_6 s t)), objInc_keeps vw (fun s t => hg s (footDic s t)), sendOn_keeps vw hg, updHeld_keeps vw (fun s t => hg s (footRouterWRouterE s t)), foldlState vw, id_eq] | split

theorem routePacket_keeps {γ : Type} (vw : State → γ) (hg : ∀ s t, vw (foot10_0 s t) = vw s)
    (s : State) (h : Half) (id : ℕ) :
    vw (routePacket s h id) = vw s := by
  unfold routePacket
  repeat' first | with_reducible rfl | with_reducible refine (foldlState vw _ (fun s a => ?_) _ _).trans ?_ | simp only [dropPacket_keeps vw (fun s t => hg s (foot4_6 s t)), routeMgmt_keeps vw hg, ejectTo_keeps vw (fun s t => hg s (footBridgeRouterWRouterE s t)), objInc_keeps vw (fun s t => hg s (footDic s t)), leaveRouter_keeps vw (fun s t => hg s (footLinksRouterWRouterE s t)), updHeld_keeps vw (fun s t => hg s (footRouterWRouterE s t)), routeChosen_keeps vw (fun s t => hg s (foot6_0 s t)), routeMcast_keeps vw (fun s t => hg s (foot5_0 s t)), foldlState vw, id_eq] | split

theorem escapeExpire_keeps {γ : Type} (vw : State → γ) (hg : ∀ s t, vw (foot6_0 s t) = vw s)
    (s : State) (h : Half) (id : ℕ) :
    vw (escapeExpire s h id) = vw s := by
  unfold escapeExpire
  repeat' first | with_reducible rfl | with_reducible refine (foldlState vw _ (fun s a => ?_) _ _).trans ?_ | simp only [dropPacket_keeps vw (fun s t => hg s (foot4_6 s t)), routeChosen_keeps vw hg, foldlState vw, id_eq] | split

theorem stallTold_keeps {γ : Type} (vw : State → γ) (hg : ∀ s t, vw (foot4_12 s t) = vw s)
    (s : State) (h : Half) (id : ℕ) :
    vw (stallTold s h id) = vw s := by
  unfold stallTold
  repeat' first | with_reducible rfl | with_reducible refine (foldlState vw _ (fun s a => ?_) _ _).trans ?_ | simp only [objInc_keeps vw (fun s t => hg s (footDic s t)), updHeld_keeps vw (fun s t => hg s (footRouterWRouterE s t)), journalAlert_keeps vw (fun s t => hg s (footDicObs s t)), foldlState vw, id_eq] | split

theorem setBank_keeps {γ : Type} (vw : State → γ) (hg : ∀ s t, vw (footDic s t) = vw s)
    (s : State) (b : ℕ) (st : ℕ) :
    vw (setBank s b st) = vw s := by
  unfold setBank
  repeat' first | with_reducible rfl | with_reducible refine (foldlState vw _ (fun s a => ?_) _ _).trans ?_ | simp only [objPut_keeps vw hg, foldlState vw, id_eq] | split

theorem loadTables_keeps {γ : Type} (vw : State → γ) (hg : ∀ s t, vw (footDicRouterWRouterE s t) = vw s)
    (s : State) (image : Bytes) :
    vw (loadTables s image) = vw s := by
  unfold loadTables
  repeat' first | with_reducible rfl | with_reducible refine (foldlState vw _ (fun s a => ?_) _ _).trans ?_ | simp only [setBank_keeps vw (fun s t => hg s (footDic s t)), updRouter_keeps vw (fun s t => hg s (footRouterWRouterE s t)), foldlState vw, id_eq] | split

theorem switchEpoch_keeps {γ : Type} (vw : State → γ) (hg : ∀ s t, vw (footDicArmed s t) = vw s)
    (s : State) (e : ℕ) :
    vw (switchEpoch s e) = vw s := by
  have h0 : ∀ s x0, vw { s with armed := x0 } = vw s := fun s x0 => hg s { s with armed := x0 }
  unfold switchEpoch
  repeat' first | with_reducible rfl | with_reducible refine (foldlState vw _ (fun s a => ?_) _ _).trans ?_ | simp only [h0, setBank_keeps vw (fun s t => hg s (footDic s t)), objPut_keeps vw (fun s t => hg s (footDic s t)), foldlState vw, id_eq] | split

theorem writeEpochSwitch_keeps {γ : Type} (vw : State → γ) (hg : ∀ s t, vw (foot7_3 s t) = vw s)
    (r : Route) (v : Bytes) (s : State) :
    vw (writeEpochSwitch r v s) = vw s := by
  have k_writeRow := writeRow_keeps vw (fun s t => hg s (foot6_13 s t))
  unfold writeEpochSwitch
  repeat' first | with_reducible rfl | with_reducible refine (foldlState vw _ (fun s a => ?_) _ _).trans ?_ | with_reducible refine (k_writeRow _ _ _ _ _ _ _ (fun _ _ => ?_)).trans ?_ | simp only [switchEpoch_keeps vw (fun s t => hg s (footDicArmed s t)), writeRow_keeps vw (fun s t => hg s (foot6_13 s t)), foldlState vw, id_eq] | split

theorem armDrain_keeps {γ : Type} (vw : State → γ) (hg : ∀ s t, vw (footDicArmed s t) = vw s)
    (s : State) (n : ℕ) :
    vw (armDrain s n) = vw s := by
  have h0 : ∀ s x0, vw { s with armed := x0 } = vw s := fun s x0 => hg s { s with armed := x0 }
  unfold armDrain
  repeat' first | with_reducible rfl | with_reducible refine (foldlState vw _ (fun s a => ?_) _ _).trans ?_ | simp only [h0, objPut_keeps vw (fun s t => hg s (footDic s t)), foldlState vw, id_eq] | split

theorem writeDrainArm_keeps {γ : Type} (vw : State → γ) (hg : ∀ s t, vw (foot7_3 s t) = vw s)
    (r : Route) (v : Bytes) (s : State) :
    vw (writeDrainArm r v s) = vw s := by
  have k_writeRow := writeRow_keeps vw (fun s t => hg s (foot6_13 s t))
  unfold writeDrainArm
  repeat' first | with_reducible rfl | with_reducible refine (foldlState vw _ (fun s a => ?_) _ _).trans ?_ | with_reducible refine (k_writeRow _ _ _ _ _ _ _ (fun _ _ => ?_)).trans ?_ | simp only [writeRow_keeps vw (fun s t => hg s (foot6_13 s t)), armDrain_keeps vw (fun s t => hg s (footDicArmed s t)), foldlState vw, id_eq] | split

theorem releaseEpoch_keeps {γ : Type} (vw : State → γ) (hg : ∀ s t, vw (footDicArmed s t) = vw s)
    (s : State) (n : ℕ) :
    vw (releaseEpoch s n) = vw s := by
  have h0 : ∀ s x0, vw { s with armed := x0 } = vw s := fun s x0 => hg s { s with armed := x0 }
  unfold releaseEpoch
  repeat' first | with_reducible rfl | with_reducible refine (foldlState vw _ (fun s a => ?_) _ _).trans ?_ | simp only [h0, setBank_keeps vw (fun s t => hg s (footDic s t)), foldlState vw, id_eq] | split

theorem writeEpochRelease_keeps {γ : Type} (vw : State → γ) (hg : ∀ s t, vw (foot7_3 s t) = vw s)
    (r : Route) (v : Bytes) (s : State) :
    vw (writeEpochRelease r v s) = vw s := by
  have k_writeRow := writeRow_keeps vw (fun s t => hg s (foot6_13 s t))
  unfold writeEpochRelease
  repeat' first | with_reducible rfl | with_reducible refine (foldlState vw _ (fun s a => ?_) _ _).trans ?_ | with_reducible refine (k_writeRow _ _ _ _ _ _ _ (fun _ _ => ?_)).trans ?_ | simp only [writeRow_keeps vw (fun s t => hg s (foot6_13 s t)), releaseEpoch_keeps vw (fun s t => hg s (footDicArmed s t)), foldlState vw, id_eq] | split

theorem growHot_keeps {γ : Type} (vw : State → γ) (hg : ∀ s t, vw (footRouterWRouterE s t) = vw s)
    (s : State) (h : Half) (c : PClass) (d : ℕ) :
    vw (growHot s h c d) = vw s := by
  unfold growHot
  repeat' first | with_reducible rfl | with_reducible refine (foldlState vw _ (fun s a => ?_) _ _).trans ?_ | simp only [updRouter_keeps vw hg, foldlState vw, id_eq] | split

theorem adjustWindow_keeps {γ : Type} (vw : State → γ) (hg : ∀ s t, vw (footRouterWRouterE s t) = vw s)
    (s : State) (h : Half) (c : PClass) (fill : ℕ) :
    vw (adjustWindow s h c fill) = vw s := by
  unfold adjustWindow
  repeat' first | with_reducible rfl | with_reducible refine (foldlState vw _ (fun s a => ?_) _ _).trans ?_ | simp only [updRouter_keeps vw hg, foldlState vw, id_eq] | split

theorem escPut_keeps {γ : Type} (vw : State → γ) (hg : ∀ s t, vw (footEsc s t) = vw s)
    (s : State) (id : ℕ) (cur : ℕ) (hold : ℕ) :
    vw (escPut s id cur hold) = vw s := by
  have h0 : ∀ s x0, vw { s with esc := x0 } = vw s := fun s x0 => hg s { s with esc := x0 }
  unfold escPut
  repeat' first | with_reducible rfl | with_reducible refine (foldlState vw _ (fun s a => ?_) _ _).trans ?_ | simp only [h0, foldlState vw, id_eq] | split

theorem readVariant_keeps {γ : Type} (vw : State → γ) (hg : ∀ s t, vw (foot20_0 s t) = vw s)
    (s : State) (q : ℕ) (addr : ℕ) (seq : ℕ) (list : List Fetch) (x1 : ℕ) :
    vw (readVariant s q addr seq list x1) = vw s := by
  fun_induction readVariant s q addr seq list x1
  all_goals repeat' first | with_reducible rfl | assumption | with_reducible refine (foldlState vw _ (fun s a => ?_) _ _).trans ?_ | exact (congrArg (fun p => vw p.1) ‹readClean _ _ _ _ = _›).symm.trans (readClean_keeps vw (fun s t => hg s (footDicHost s t)) _ _ _ _) | simp only [*, unreadable_keeps vw hg, addFetched_keeps vw (fun s t => hg s (footQueues s t)), readClean_keeps vw (fun s t => hg s (footDicHost s t)), foldlState vw, id_eq] | split | simp +zetaDelta only [unreadable_keeps vw hg, addFetched_keeps vw (fun s t => hg s (footQueues s t)), readClean_keeps vw (fun s t => hg s (footDicHost s t)), foldlState vw, id_eq]

theorem startAttempt_keeps {γ : Type} (vw : State → γ) (hg : ∀ s t, vw (foot20_0 s t) = vw s)
    (s : State) (l : Layer) (list : List Fetch) :
    vw (startAttempt s l list) = vw s := by
  have h0 : ∀ s x0, vw { s with layers := x0 } = vw s := fun s x0 => hg s { s with layers := x0 }
  unfold startAttempt
  repeat' first | with_reducible rfl | with_reducible refine (foldlState vw _ (fun s a => ?_) _ _).trans ?_ | simp only [h0, readVariant_keeps vw hg, updQ_keeps vw (fun s t => hg s (footQueues s t)), foldlState vw, id_eq] | split

theorem openLayer_keeps {γ : Type} (vw : State → γ) (hg : ∀ s t, vw (foot20_0 s t) = vw s)
    (s : State) (q : ℕ) (f : Fetched) (list : List Fetch) :
    vw (openLayer s q f list) = vw s := by
  unfold openLayer
  repeat' first | with_reducible rfl | with_reducible refine (foldlState vw _ (fun s a => ?_) _ _).trans ?_ | simp only [rejectDesc_keeps vw hg, updQ_keeps vw (fun s t => hg s (footQueues s t)), startAttempt_keeps vw hg, foldlState vw, id_eq] | split

theorem layerOpenAt_keeps {γ : Type} (vw : State → γ) (hg : ∀ s t, vw (foot20_0 s t) = vw s)
    (s : State) (q : ℕ) (list : List Fetch) :
    vw (layerOpenAt s q list) = vw s := by
  have k_readPastDim := readPastDim_keeps vw (fun s t => hg s (foot4_23 s t))
  unfold layerOpenAt
  repeat' first | with_reducible rfl | with_reducible refine (foldlState vw _ (fun s a => ?_) _ _).trans ?_ | exact (congrArg (fun p => vw p.1) ‹schedReady _ _ _ _ = _›).symm.trans (schedReady_keeps vw (fun s t => hg s (footDicQueuesWaiters s t)) _ _ _ _) | with_reducible refine (k_readPastDim _ _ _ _ _ (fun _ => ?_)).trans ?_ | simp only [schedReady_keeps vw (fun s t => hg s (footDicQueuesWaiters s t)), openLayer_keeps vw hg, readPastDim_keeps vw (fun s t => hg s (foot4_23 s t)), setTodo_keeps vw (fun s t => hg s (footQueues s t)), foldlState vw, id_eq] | split

theorem writeBack_keeps {γ : Type} (vw : State → γ) (hg : ∀ s t, vw (footClaimsSyncWaiters s t) = vw s)
    (s : State) (x1 : List (ℕ × ℕ)) :
    vw (writeBack s x1) = vw s := by
  fun_induction writeBack s x1
  all_goals repeat' first | with_reducible rfl | assumption | with_reducible refine (foldlState vw _ (fun s a => ?_) _ _).trans ?_ | simp only [*, syncPut_keeps vw hg, foldlState vw, id_eq] | split | simp +zetaDelta only [syncPut_keeps vw hg, foldlState vw, id_eq]

theorem escUpdate_keeps {γ : Type} (vw : State → γ) (hg : ∀ s t, vw (footDicEscObs s t) = vw s)
    (s : State) (l : Layer) :
    vw (escUpdate s l) = vw s := by
  unfold escUpdate
  repeat' first | with_reducible rfl | with_reducible refine (foldlState vw _ (fun s a => ?_) _ _).trans ?_ | simp only [journal_keeps vw (fun s t => hg s (footDicObs s t)), objInc_keeps vw (fun s t => hg s (footDic s t)), escPut_keeps vw (fun s t => hg s (footEsc s t)), foldlState vw, id_eq] | split

theorem publish_keeps {γ : Type} (vw : State → γ) (hg : ∀ s t, vw (foot21_1 s t) = vw s)
    (s : State) (l : Layer) :
    vw (publish s l) = vw s := by
  have h0 : ∀ s x0, vw { s with layers := x0 } = vw s := fun s x0 => hg s { s with layers := x0 }
  unfold publish
  repeat' first | with_reducible rfl | with_reducible refine (foldlState vw _ (fun s a => ?_) _ _).trans ?_ | simp only [h0, journal_keeps vw (fun s t => hg s (footDicObs s t)), objInc_keeps vw (fun s t => hg s (footDic s t)), escUpdate_keeps vw (fun s t => hg s (footDicEscObs s t)), completeDesc_keeps vw (fun s t => hg s (foot20_0 s t)), foldlState vw, id_eq] | split

theorem repeatLayer_keeps {γ : Type} (vw : State → γ) (hg : ∀ s t, vw (foot20_0 s t) = vw s)
    (s : State) (l : Layer) (list : List Fetch) :
    vw (repeatLayer s l list) = vw s := by
  unfold repeatLayer
  repeat' first | with_reducible rfl | with_reducible refine (foldlState vw _ (fun s a => ?_) _ _).trans ?_ | simp only [objAdd_keeps vw (fun s t => hg s (footDic s t)), writeBack_keeps vw (fun s t => hg s (footClaimsSyncWaiters s t)), startAttempt_keeps vw hg, foldlState vw, id_eq] | split

theorem attemptEnd_keeps {γ : Type} (vw : State → γ) (hg : ∀ s t, vw (foot21_1 s t) = vw s)
    (s : State) (q : ℕ) (list : List Fetch) :
    vw (attemptEnd s q list) = vw s := by
  have k_readPastDim := readPastDim_keeps vw (fun s t => hg s (foot4_23 s t))
  unfold attemptEnd
  repeat' first | with_reducible rfl | with_reducible refine (foldlState vw _ (fun s a => ?_) _ _).trans ?_ | with_reducible refine (k_readPastDim _ _ _ _ _ (fun _ => ?_)).trans ?_ | simp only [repeatLayer_keeps vw (fun s t => hg s (foot20_0 s t)), publish_keeps vw hg, readPastDim_keeps vw (fun s t => hg s (foot4_23 s t)), foldlState vw, id_eq] | split

theorem escImageApply_keeps {γ : Type} (vw : State → γ) (hg : ∀ s t, vw (footDomsEsc s t) = vw s)
    (s : State) (image : Bytes) :
    vw (escImageApply s image) = vw s := by
  have h0 : ∀ s x0, vw { s with doms := x0 } = vw s := fun s x0 => hg s { s with doms := x0 }
  unfold escImageApply
  repeat' first | with_reducible rfl | with_reducible refine (foldlState vw _ (fun s a => ?_) _ _).trans ?_ | simp only [h0, escPut_keeps vw (fun s t => hg s (footEsc s t)), foldlState vw, id_eq] | split

theorem poisonRead_keeps {γ : Type} (vw : State → γ) (hg : ∀ s t, vw (foot6_9 s t) = vw s)
    (cause : ℕ) (s : State) (x : ℕ × StreamCtx × Req) :
    vw (poisonRead cause s x) = vw s := by
  have h0 : ∀ s x0, vw { s with free := x0 } = vw s := fun s x0 => hg s { s with free := x0 }
  unfold poisonRead
  repeat' first | with_reducible rfl | with_reducible refine (foldlState vw _ (fun s a => ?_) _ _).trans ?_ | simp only [h0, updCtx_keeps vw (fun s t => hg s (footEngines s t)), inPhase_keeps vw (fun s t => hg s (footEnginesTileTilePoison s t)), dropReads_keeps vw (fun s t => hg s (footChans s t)), tallied_keeps vw (fun s t => hg s (footDic s t)), foldlState vw, id_eq] | split

theorem poisonReads_keeps {γ : Type} (vw : State → γ) (hg : ∀ s t, vw (foot6_9 s t) = vw s)
    (s : State) (pick : ℕ → StreamCtx → Req → Bool) (cause : ℕ) :
    vw (poisonReads s pick cause) = vw s := by
  unfold poisonReads
  repeat' first | with_reducible rfl | with_reducible refine (foldlState vw _ (fun s a => ?_) _ _).trans ?_ | simp only [poisonRead_keeps vw hg, foldlState vw, id_eq] | split

theorem stopDesc_keeps {γ : Type} (vw : State → γ) (hg : ∀ s t, vw (foot11_5 s t) = vw s)
    (s : State) (d : Done) :
    vw (stopDesc s d) = vw s := by
  unfold stopDesc
  repeat' first | with_reducible rfl | with_reducible refine (foldlState vw _ (fun s a => ?_) _ _).trans ?_ | simp only [writeRecord_keeps vw hg, updQ_keeps vw (fun s t => hg s (footQueues s t)), foldlState vw, id_eq] | split

theorem clearEngines_keeps {γ : Type} (vw : State → γ) (hg : ∀ s t, vw (foot15_0 s t) = vw s)
    (s : State) :
    vw (clearEngines s) = vw s := by
  have h0 : ∀ s x0 x1 x2 x3 x4 x5 x6 x7 x8 x9 x10 x11 x12 x13 x14, vw { s with arrays := x0, vecs := x1, layers := x2, engines := x3, chans := x4, claims := x5, waitClaims := x6, spills := x7, queues := x8, waiters := x9, outst := x10, colls := x11, slots := x12, greys := x13, pendColls := x14 } = vw s := fun s x0 x1 x2 x3 x4 x5 x6 x7 x8 x9 x10 x11 x12 x13 x14 => hg s { s with arrays := x0, vecs := x1, layers := x2, engines := x3, chans := x4, claims := x5, waitClaims := x6, spills := x7, queues := x8, waiters := x9, outst := x10, colls := x11, slots := x12, greys := x13, pendColls := x14 }
  unfold clearEngines
  repeat' first | with_reducible rfl | with_reducible refine (foldlState vw _ (fun s a => ?_) _ _).trans ?_ | simp only [h0, foldlState vw, id_eq] | split

theorem haltQueues_keeps {γ : Type} (vw : State → γ) (hg : ∀ s t, vw (footOutQueuesHost s t) = vw s)
    (s : State) :
    vw (haltQueues s) = vw s := by
  unfold haltQueues
  repeat' first | with_reducible rfl | with_reducible refine (foldlState vw _ (fun s a => ?_) _ _).trans ?_ | simp only [raiseTrap_keeps vw hg, updQ_keeps vw (fun s t => hg s (footQueues s t)), foldlState vw, id_eq] | split

theorem haltEngines_keeps {γ : Type} (vw : State → γ) (hg : ∀ s t, vw (foot24_1 s t) = vw s)
    (s : State) (status : ℕ) :
    vw (haltEngines s status) = vw s := by
  unfold haltEngines
  repeat' first | with_reducible rfl | with_reducible refine (foldlState vw _ (fun s a => ?_) _ _).trans ?_ | simp only [stopDesc_keeps vw (fun s t => hg s (foot11_5 s t)), haltQueues_keeps vw (fun s t => hg s (footOutQueuesHost s t)), clearEngines_keeps vw (fun s t => hg s (foot15_0 s t)), foldlState vw, id_eq] | split

theorem updBridge_keeps {γ : Type} (vw : State → γ) (hg : ∀ s t, vw (footBridge s t) = vw s)
    (s : State) (f : Bridge → Bridge) :
    vw (updBridge s f) = vw s := by
  have h0 : ∀ s x0, vw { s with bridge := x0 } = vw s := fun s x0 => hg s { s with bridge := x0 }
  unfold updBridge
  repeat' first | with_reducible rfl | with_reducible refine (foldlState vw _ (fun s a => ?_) _ _).trans ?_ | simp only [h0, foldlState vw, id_eq] | split

theorem deliverFlit_keeps {γ : Type} (vw : State → γ) (hg : ∀ s t, vw (foot25_1 s t) = vw s)
    (s : State) (x1 : BridgeFlit) :
    vw (deliverFlit s x1) = vw s := by
  unfold deliverFlit
  repeat' first | with_reducible rfl | with_reducible refine (foldlState vw _ (fun s a => ?_) _ _).trans ?_ | simp only [localPut_keeps vw (fun s t => hg s (foot23_0 s t)), reinject_keeps vw (fun s t => hg s (foot4_13 s t)), putEjected_keeps vw (fun s t => hg s (footRouterWRouterE s t)), linkSend_keeps vw (fun s t => hg s (footLinks s t)), updBridge_keeps vw (fun s t => hg s (footBridge s t)), foldlState vw, id_eq] | split

theorem bridgeFlit_keeps {γ : Type} (vw : State → γ) (hg : ∀ s t, vw (foot25_1 s t) = vw s)
    (s : State) (b : ℕ) (f : BridgeFlit) (crcOk : Bool) :
    vw (bridgeFlit s b f crcOk) = vw s := by
  unfold bridgeFlit
  repeat' first | with_reducible rfl | with_reducible refine (foldlState vw _ (fun s a => ?_) _ _).trans ?_ | simp only [deliverFlit_keeps vw hg, objInc_keeps vw (fun s t => hg s (footDic s t)), updBridge_keeps vw (fun s t => hg s (footBridge s t)), foldlState vw, id_eq] | split

theorem bridgeFails_keeps {γ : Type} (vw : State → γ) (hg : ∀ s t, vw (foot29_0 s t) = vw s)
    (s : State) :
    vw (bridgeFails s) = vw s := by
  unfold bridgeFails
  repeat' first | with_reducible rfl | with_reducible refine (foldlState vw _ (fun s a => ?_) _ _).trans ?_ | simp only [haltEngines_keeps vw (fun s t => hg s (foot24_1 s t)), journal_keeps vw (fun s t => hg s (footDicObs s t)), greyAll_keeps vw (fun s t => hg s (foot6_3 s t)), poisonReads_keeps vw (fun s t => hg s (foot6_9 s t)), objPut_keeps vw (fun s t => hg s (footDic s t)), updBridge_keeps vw (fun s t => hg s (footBridge s t)), foldlState vw, id_eq] | split

theorem moveFlits_keeps {γ : Type} (vw : State → γ) (hg : ∀ s t, vw (footBridge s t) = vw s)
    (s : State) (b : ℕ) :
    vw (moveFlits s b) = vw s := by
  unfold moveFlits
  repeat' first | with_reducible rfl | with_reducible refine (foldlState vw _ (fun s a => ?_) _ _).trans ?_ | simp only [updBridge_keeps vw hg, foldlState vw, id_eq] | split

theorem retireBundle_keeps {γ : Type} (vw : State → γ) (hg : ∀ s t, vw (foot29_0 s t) = vw s)
    (s : State) (b : ℕ) :
    vw (retireBundle s b) = vw s := by
  unfold retireBundle
  repeat' first | with_reducible rfl | with_reducible refine (foldlState vw _ (fun s a => ?_) _ _).trans ?_ | simp only [objBit_keeps vw (fun s t => hg s (footDic s t)), objPut_keeps vw (fun s t => hg s (footDic s t)), bridgeFails_keeps vw hg, journalAlert_keeps vw (fun s t => hg s (footDicObs s t)), moveFlits_keeps vw (fun s t => hg s (footBridge s t)), foldlState vw, id_eq] | split

theorem pilotFails_keeps {γ : Type} (vw : State → γ) (hg : ∀ s t, vw (footDicObs s t) = vw s)
    (s : State) :
    vw (pilotFails s) = vw s := by
  unfold pilotFails
  repeat' first | with_reducible rfl | with_reducible refine (foldlState vw _ (fun s a => ?_) _ _).trans ?_ | simp only [objPut_keeps vw (fun s t => hg s (footDic s t)), journalAlert_keeps vw hg, foldlState vw, id_eq] | split

theorem serveLoad_keeps {γ : Type} (vw : State → γ) (hg : ∀ s t, vw (foot11_7 s t) = vw s)
    (s : State) (p : Packet) (ev : List LineEvent) :
    vw (serveLoad s p ev) = vw s := by
  have k_serveRequest := serveRequest_keeps vw (fun s t => hg s (foot7_2 s t))
  unfold serveLoad
  repeat' first | with_reducible rfl | with_reducible refine (foldlState vw _ (fun s a => ?_) _ _).trans ?_ | with_reducible refine (k_serveRequest _ _ _ _ _ _ _ (fun _ _ => ?_)).trans ?_ | simp only [replyTo_keeps vw (fun s t => hg s (footRouterWRouterE s t)), afterRead_keeps vw (fun s t => hg s (footFree s t)), countReserved_keeps vw (fun s t => hg s (footDic s t)), linesFound_keeps vw (fun s t => hg s (foot5_11 s t)), serveRequest_keeps vw (fun s t => hg s (foot7_2 s t)), foldlState vw, id_eq] | split

theorem serveStore_keeps {γ : Type} (vw : State → γ) (hg : ∀ s t, vw (foot25_2 s t) = vw s)
    (s : State) (p : Packet) :
    vw (serveStore s p) = vw s := by
  have k_serveRequest := serveRequest_keeps vw (fun s t => hg s (foot7_2 s t))
  unfold serveStore
  repeat' first | with_reducible rfl | with_reducible refine (foldlState vw _ (fun s a => ?_) _ _).trans ?_ | with_reducible refine (k_serveRequest _ _ _ _ _ _ _ (fun _ _ => ?_)).trans ?_ | simp only [replyTo_keeps vw (fun s t => hg s (footRouterWRouterE s t)), localPut_keeps vw (fun s t => hg s (foot23_0 s t)), touchWord_keeps vw (fun s t => hg s (footAtoms s t)), serveRequest_keeps vw (fun s t => hg s (foot7_2 s t)), foldlState vw, id_eq] | split

theorem serveAtomic_keeps {γ : Type} (vw : State → γ) (hg : ∀ s t, vw (foot21_3 s t) = vw s)
    (s : State) (p : Packet) (ev : List LineEvent) :
    vw (serveAtomic s p ev) = vw s := by
  have k_sequenced := sequenced_keeps vw (fun s t => hg s (foot6_7 s t))
  have k_serveRequest := serveRequest_keeps vw (fun s t => hg s (foot7_2 s t))
  unfold serveAtomic
  repeat' first | with_reducible rfl | with_reducible refine (foldlState vw _ (fun s a => ?_) _ _).trans ?_ | with_reducible refine (k_sequenced _ _ _ _ _ _ (fun _ => ?_)).trans ?_ | with_reducible refine (k_serveRequest _ _ _ _ _ _ _ (fun _ _ => ?_)).trans ?_ | simp only [replyTo_keeps vw (fun s t => hg s (footRouterWRouterE s t)), sequenced_keeps vw (fun s t => hg s (foot6_7 s t)), countAddrError_keeps vw (fun s t => hg s (footDic s t)), linesFound_keeps vw (fun s t => hg s (foot5_11 s t)), atomicAt_keeps vw (fun s t => hg s (foot12_2 s t)), serveRequest_keeps vw (fun s t => hg s (foot7_2 s t)), foldlState vw, id_eq] | split

theorem serveSignal_keeps {γ : Type} (vw : State → γ) (hg : ∀ s t, vw (foot13_3 s t) = vw s)
    (s : State) (p : Packet) :
    vw (serveSignal s p) = vw s := by
  have k_sequenced := sequenced_keeps vw (fun s t => hg s (foot6_7 s t))
  have k_serveRequest := serveRequest_keeps vw (fun s t => hg s (foot7_2 s t))
  unfold serveSignal
  repeat' first | with_reducible rfl | with_reducible refine (foldlState vw _ (fun s a => ?_) _ _).trans ?_ | with_reducible refine (k_sequenced _ _ _ _ _ _ (fun _ => ?_)).trans ?_ | with_reducible refine (k_serveRequest _ _ _ _ _ _ _ (fun _ _ => ?_)).trans ?_ | simp only [replyTo_keeps vw (fun s t => hg s (footRouterWRouterE s t)), sequenced_keeps vw (fun s t => hg s (foot6_7 s t)), syncAdd_keeps vw (fun s t => hg s (footClaimsSyncWaiters s t)), countAddrError_keeps vw (fun s t => hg s (footDic s t)), serveRequest_keeps vw (fun s t => hg s (foot7_2 s t)), foldlState vw, id_eq] | split

theorem takeReply_keeps {γ : Type} (vw : State → γ) (hg : ∀ s t, vw (foot27 s t) = vw s)
    (s : State) (p : Packet) :
    vw (takeReply s p) = vw s := by
  unfold takeReply
  repeat' first | with_reducible rfl | with_reducible refine (foldlState vw _ (fun s a => ?_) _ _).trans ?_ | simp only [echoFrom_keeps vw (fun s t => hg s (footRouterWRouterE s t)), objInc_keeps vw (fun s t => hg s (footDic s t)), answer_keeps vw hg, takeEjected_keeps vw (fun s t => hg s (footRouterWRouterE s t)), foldlState vw, id_eq] | split

theorem replyLate_keeps {γ : Type} (vw : State → γ) (hg : ∀ s t, vw (foot27 s t) = vw s)
    (s : State) (tag : ℕ) :
    vw (replyLate s tag) = vw s := by
  unfold replyLate
  repeat' first | with_reducible rfl | with_reducible refine (foldlState vw _ (fun s a => ?_) _ _).trans ?_ | simp only [objInc_keeps vw (fun s t => hg s (footDic s t)), answer_keeps vw hg, foldlState vw, id_eq] | split

theorem openWindow_keeps {γ : Type} (vw : State → γ) (hg : ∀ s t, vw (footOutWindowsHost s t) = vw s)
    (s : State) :
    vw (openWindow s) = vw s := by
  have h0 : ∀ s x0, vw { s with windows := x0 } = vw s := fun s x0 => hg s { s with windows := x0 }
  unfold openWindow
  repeat' first | with_reducible rfl | with_reducible refine (foldlState vw _ (fun s a => ?_) _ _).trans ?_ | simp only [h0, mbxResult_keeps vw (fun s t => hg s (footHost s t)), mbxEnd_keeps vw (fun s t => hg s (footOutHost s t)), foldlState vw, id_eq] | split

theorem modifyWindow_keeps {γ : Type} (vw : State → γ) (hg : ∀ s t, vw (footOutWindowsHost s t) = vw s)
    (s : State) :
    vw (modifyWindow s) = vw s := by
  have h0 : ∀ s x0, vw { s with windows := x0 } = vw s := fun s x0 => hg s { s with windows := x0 }
  unfold modifyWindow
  repeat' first | with_reducible rfl | with_reducible refine (foldlState vw _ (fun s a => ?_) _ _).trans ?_ | simp only [h0, mbxEnd_keeps vw (fun s t => hg s (footOutHost s t)), foldlState vw, id_eq] | split

theorem closeWindow_keeps {γ : Type} (vw : State → γ) (hg : ∀ s t, vw (footOutWindowsHost s t) = vw s)
    (s : State) :
    vw (closeWindow s) = vw s := by
  have h0 : ∀ s x0, vw { s with windows := x0 } = vw s := fun s x0 => hg s { s with windows := x0 }
  unfold closeWindow
  repeat' first | with_reducible rfl | with_reducible refine (foldlState vw _ (fun s a => ?_) _ _).trans ?_ | simp only [h0, mbxEnd_keeps vw (fun s t => hg s (footOutHost s t)), foldlState vw, id_eq] | split

theorem expireReplay_keeps {γ : Type} (vw : State → γ) (hg : ∀ s t, vw (footEvictedReplay s t) = vw s)
    (s : State) (h : Half) (src : ℕ) (seq : ℕ) :
    vw (expireReplay s h src seq) = vw s := by
  unfold expireReplay
  repeat' first | with_reducible rfl | with_reducible refine (foldlState vw _ (fun s a => ?_) _ _).trans ?_ | simp only [evictReplay_keeps vw hg, foldlState vw, id_eq] | split

theorem atomWriteBack_keeps {γ : Type} (vw : State → γ) (hg : ∀ s t, vw (footAtoms s t) = vw s)
    (s : State) (addr : ℕ) :
    vw (atomWriteBack s addr) = vw s := by
  have h0 : ∀ s x0, vw { s with atoms := x0 } = vw s := fun s x0 => hg s { s with atoms := x0 }
  unfold atomWriteBack
  repeat' first | with_reducible rfl | with_reducible refine (foldlState vw _ (fun s a => ?_) _ _).trans ?_ | simp only [h0, foldlState vw, id_eq] | split

theorem rciHalf_keeps {γ : Type} (vw : State → γ) (hg : ∀ s t, vw (footOutstRcache s t) = vw s)
    (s : State) (ws : List Word64) (h : Half) :
    vw (rciHalf s ws h) = vw s := by
  have h0 : ∀ s x0 x1, vw { s with outst := x0, rcache := x1 } = vw s := fun s x0 x1 => hg s { s with outst := x0, rcache := x1 }
  unfold rciHalf
  repeat' first | with_reducible rfl | with_reducible refine (foldlState vw _ (fun s a => ?_) _ _).trans ?_ | simp only [h0, foldlState vw, id_eq] | split

theorem rciRun_keeps {γ : Type} (vw : State → γ) (hg : ∀ s t, vw (foot21_2 s t) = vw s)
    (q : ℕ) (s : State) (f : Fetched) :
    vw (rciRun q s f) = vw s := by
  unfold rciRun
  repeat' first | with_reducible rfl | with_reducible refine (foldlState vw _ (fun s a => ?_) _ _).trans ?_ | simp only [objInc_keeps vw (fun s t => hg s (footDic s t)), rejectDesc_keeps vw (fun s t => hg s (foot20_0 s t)), rciHalf_keeps vw (fun s t => hg s (footOutstRcache s t)), updQ_keeps vw (fun s t => hg s (footQueues s t)), completeDesc_keeps vw (fun s t => hg s (foot20_0 s t)), foldlState vw, id_eq] | split

end Sys2Proof.Machine
end

