-- ==== Sys2Proof/Laws/KeepsD.lean ====
section
/-!
SUPPORT. What each shared operation can change (part 4 of 4): a view of the state that no field of its footprint
reaches reads the same after it.
-/

namespace Sys2Proof.Machine

set_option linter.unusedSimpArgs false
set_option linter.unusedTactic false
set_option linter.unreachableTactic false

theorem updHost_keeps {γ : Type} (vw : State → γ) (hg : ∀ s t, vw (footHost s t) = vw s)
    (s : State) (f : HostPort → HostPort) :
    vw (updHost s f) = vw s := by
  have h0 : ∀ s x0, vw { s with host := x0 } = vw s := fun s x0 => hg s { s with host := x0 }
  unfold updHost
  repeat' first | with_reducible rfl | with_reducible refine (foldlState vw _ (fun s a => ?_) _ _).trans ?_ | simp only [h0, foldlState vw, id_eq] | split

theorem sendPending_keeps {γ : Type} (vw : State → γ) (hg : ∀ s t, vw (footOutHost s t) = vw s)
    (s : State) :
    vw (sendPending s) = vw s := by
  unfold sendPending
  repeat' first | with_reducible rfl | with_reducible refine (foldlState vw _ (fun s a => ?_) _ _).trans ?_ | simp only [updHost_keeps vw (fun s t => hg s (footHost s t)), emit_keeps vw (fun s t => hg s (footOut s t)), foldlState vw, id_eq] | split

theorem config_keeps {γ : Type} (vw : State → γ) (hg : ∀ s t, vw (footFreeOutHost s t) = vw s)
    (s : State) (x1 : ConfigOp) :
    vw (config s x1) = vw s := by
  unfold config
  repeat' first | with_reducible rfl | with_reducible refine (foldlState vw _ (fun s a => ?_) _ _).trans ?_ | simp only [updHost_keeps vw (fun s t => hg s (footHost s t)), emit_keeps vw (fun s t => hg s (footOut s t)), freeStep_keeps vw (fun s t => hg s (footFree s t)), sendPending_keeps vw (fun s t => hg s (footOutHost s t)), foldlState vw, id_eq] | split

theorem startCommand_keeps {γ : Type} (vw : State → γ) (hg : ∀ s t, vw (footDicHost s t) = vw s)
    (s : State) :
    vw (startCommand s) = vw s := by
  unfold startCommand
  repeat' first | with_reducible rfl | with_reducible refine (foldlState vw _ (fun s a => ?_) _ _).trans ?_ | simp only [updHost_keeps vw (fun s t => hg s (footHost s t)), objInc_keeps vw (fun s t => hg s (footDic s t)), foldlState vw, id_eq] | split

theorem mbxWrite_keeps {γ : Type} (vw : State → γ) (hg : ∀ s t, vw (footDicHost s t) = vw s)
    (s : State) (off : ℕ) (at_ : ℕ) (size : ℕ) (v : ℕ) :
    vw (mbxWrite s off at_ size v) = vw s := by
  unfold mbxWrite
  repeat' first | with_reducible rfl | with_reducible refine (foldlState vw _ (fun s a => ?_) _ _).trans ?_ | simp only [updHost_keeps vw (fun s t => hg s (footHost s t)), startCommand_keeps vw hg, foldlState vw, id_eq] | split

theorem dpWrite_keeps {γ : Type} (vw : State → γ) (hg : ∀ s t, vw (footHost s t) = vw s)
    (s : State) (off : ℕ) (at_ : ℕ) (size : ℕ) (v : ℕ) :
    vw (dpWrite s off at_ size v) = vw s := by
  unfold dpWrite
  repeat' first | with_reducible rfl | with_reducible refine (foldlState vw _ (fun s a => ?_) _ _).trans ?_ | simp only [updHost_keeps vw hg, foldlState vw, id_eq] | split

theorem msixWrite_keeps {γ : Type} (vw : State → γ) (hg : ∀ s t, vw (footOutHost s t) = vw s)
    (s : State) (dword : ℕ) (v : ℕ) :
    vw (msixWrite s dword v) = vw s := by
  unfold msixWrite
  repeat' first | with_reducible rfl | with_reducible refine (foldlState vw _ (fun s a => ?_) _ _).trans ?_ | simp only [updHost_keeps vw (fun s t => hg s (footHost s t)), sendPending_keeps vw hg, foldlState vw, id_eq] | split

theorem bar0Page_keeps {γ : Type} (vw : State → γ) (hg : ∀ s t, vw (foot23_0 s t) = vw s)
    (s : State) (off : ℕ) (size : ℕ) (v : ℕ) :
    vw (bar0Page s off size v) = vw s := by
  unfold bar0Page
  repeat' first | with_reducible rfl | with_reducible refine (foldlState vw _ (fun s a => ?_) _ _).trans ?_ | simp only [hostPage_keeps vw hg, foldlState vw, id_eq] | split

theorem updXfer_keeps {γ : Type} (vw : State → γ) (hg : ∀ s t, vw (footMgmt s t) = vw s)
    (s : State) (handle : ℕ) (f : Xfer → Xfer) :
    vw (updXfer s handle f) = vw s := by
  have h0 : ∀ s x0, vw { s with mgmt := x0 } = vw s := fun s x0 => hg s { s with mgmt := x0 }
  unfold updXfer
  repeat' first | with_reducible rfl | with_reducible refine (foldlState vw _ (fun s a => ?_) _ _).trans ?_ | simp only [h0, foldlState vw, id_eq] | split

theorem writeSegment_keeps {γ : Type} (vw : State → γ) (hg : ∀ s t, vw (foot9_5 s t) = vw s)
    (s : State) (x : Xfer) (off : ℕ) (data : Bytes) :
    vw (writeSegment s x off data) = vw s := by
  unfold writeSegment
  repeat' first | with_reducible rfl | with_reducible refine (foldlState vw _ (fun s a => ?_) _ _).trans ?_ | simp only [updXfer_keeps vw (fun s t => hg s (footMgmt s t)), writeBytes_keeps vw (fun s t => hg s (foot8_5 s t)), foldlState vw, id_eq] | split

theorem addrErr_keeps {γ : Type} (vw : State → γ) (hg : ∀ s t, vw (footHost s t) = vw s)
    (s : State) :
    vw (addrErr s) = vw s := by
  unfold addrErr
  repeat' first | with_reducible rfl | with_reducible refine (foldlState vw _ (fun s a => ?_) _ _).trans ?_ | simp only [updHost_keeps vw hg, foldlState vw, id_eq] | split

theorem dpAdvance_keeps {γ : Type} (vw : State → γ) (hg : ∀ s t, vw (footHost s t) = vw s)
    (s : State) (first : ℕ) (n : ℕ) :
    vw (dpAdvance s first n) = vw s := by
  unfold dpAdvance
  repeat' first | with_reducible rfl | with_reducible refine (foldlState vw _ (fun s a => ?_) _ _).trans ?_ | simp only [updHost_keeps vw hg, foldlState vw, id_eq] | split

theorem dpPut_keeps {γ : Type} (vw : State → γ) (hg : ∀ s t, vw (foot23_0 s t) = vw s)
    (s : State) (off : ℕ) (first : ℕ) (data : Bytes) (poison : Bool) :
    vw (dpPut s off first data poison) = vw s := by
  unfold dpPut
  repeat' first | with_reducible rfl | with_reducible refine (foldlState vw _ (fun s a => ?_) _ _).trans ?_ | simp only [localPut_keeps vw hg, foldlState vw, id_eq] | split

theorem dpGet_keeps {γ : Type} (vw : State → γ) (hg : ∀ s t, vw (foot8_7 s t) = vw s)
    (s : State) (off : ℕ) (first : ℕ) (n : ℕ) (ev : List LineEvent) :
    vw (dpGet s off first n ev) = vw s := by
  unfold dpGet
  repeat' first | with_reducible rfl | with_reducible refine (foldlState vw _ (fun s a => ?_) _ _).trans ?_ | simp only [updHost_keeps vw (fun s t => hg s (footHost s t)), afterRead_keeps vw (fun s t => hg s (footFree s t)), emit_keeps vw (fun s t => hg s (footOut s t)), linesFound_keeps vw (fun s t => hg s (foot5_11 s t)), foldlState vw, id_eq] | split

theorem setSnoop_keeps {γ : Type} (vw : State → γ) (hg : ∀ s t, vw (footHost s t) = vw s)
    (s : State) (h : Half) (ls : List ℕ) :
    vw (setSnoop s h ls) = vw s := by
  unfold setSnoop
  repeat' first | with_reducible rfl | with_reducible refine (foldlState vw _ (fun s a => ?_) _ _).trans ?_ | simp only [updHost_keeps vw hg, foldlState vw, id_eq] | split

theorem track_keeps {γ : Type} (vw : State → γ) (hg : ∀ s t, vw (footOutHost s t) = vw s)
    (s : State) (line : ℕ) :
    vw (track s line) = vw s := by
  unfold track
  repeat' first | with_reducible rfl | with_reducible refine (foldlState vw _ (fun s a => ?_) _ _).trans ?_ | simp only [emit_keeps vw (fun s t => hg s (footOut s t)), setSnoop_keeps vw (fun s t => hg s (footHost s t)), foldlState vw, id_eq] | split

theorem openData_keeps {γ : Type} (vw : State → γ) (hg : ∀ s t, vw (footFreeOut s t) = vw s)
    (s : State) (n : ℕ) :
    vw (openData s n) = vw s := by
  have h0 : ∀ s x0, vw { s with free := x0 } = vw s := fun s x0 => hg s { s with free := x0 }
  unfold openData
  repeat' first | with_reducible rfl | with_reducible refine (foldlState vw _ (fun s a => ?_) _ _).trans ?_ | simp only [h0, emit_keeps vw (fun s t => hg s (footOut s t)), foldlState vw, id_eq] | split

theorem serveHost_keeps {γ : Type} (vw : State → γ) (hg : ∀ s t, vw (foot24_2 s t) = vw s)
    (s : State) (w : PortWait) :
    vw (serveHost s w) = vw s := by
  unfold serveHost
  repeat' first | with_reducible rfl | with_reducible refine (foldlState vw _ (fun s a => ?_) _ _).trans ?_ | simp only [dpGet_keeps vw (fun s t => hg s (foot8_7 s t)), openData_keeps vw (fun s t => hg s (footFreeOut s t)), track_keeps vw (fun s t => hg s (footOutHost s t)), updHost_keeps vw (fun s t => hg s (footHost s t)), objInc_keeps vw (fun s t => hg s (footDic s t)), afterRead_keeps vw (fun s t => hg s (footFree s t)), emit_keeps vw (fun s t => hg s (footOut s t)), dpPut_keeps vw (fun s t => hg s (foot23_0 s t)), linesFound_keeps vw (fun s t => hg s (foot5_11 s t)), writeLine_keeps vw (fun s t => hg s (foot8_5 s t)), writeBytes_keeps vw (fun s t => hg s (foot8_5 s t)), foldlState vw, id_eq] | split

theorem parkHost_keeps {γ : Type} (vw : State → γ) (hg : ∀ s t, vw (footHost s t) = vw s)
    (s : State) (w : PortWait) :
    vw (parkHost s w) = vw s := by
  unfold parkHost
  repeat' first | with_reducible rfl | with_reducible refine (foldlState vw _ (fun s a => ?_) _ _).trans ?_ | simp only [updHost_keeps vw hg, foldlState vw, id_eq] | split

theorem hostAccess_keeps {γ : Type} (vw : State → γ) (hg : ∀ s t, vw (foot24_2 s t) = vw s)
    (s : State) (w : PortWait) :
    vw (hostAccess s w) = vw s := by
  unfold hostAccess
  repeat' first | with_reducible rfl | with_reducible refine (foldlState vw _ (fun s a => ?_) _ _).trans ?_ | simp only [serveHost_keeps vw hg, objInc_keeps vw (fun s t => hg s (footDic s t)), parkHost_keeps vw (fun s t => hg s (footHost s t)), foldlState vw, id_eq] | split

theorem hostSettle_keeps {γ : Type} (vw : State → γ) (hg : ∀ s t, vw (foot24_2 s t) = vw s)
    (s : State) :
    vw (hostSettle s) = vw s := by
  unfold hostSettle
  repeat' first | with_reducible rfl | with_reducible refine (foldlState vw _ (fun s a => ?_) _ _).trans ?_ | simp only [serveHost_keeps vw hg, updHost_keeps vw (fun s t => hg s (footHost s t)), parkHost_keeps vw (fun s t => hg s (footHost s t)), foldlState vw, id_eq] | split

theorem portAccess_keeps {γ : Type} (vw : State → γ) (hg : ∀ s t, vw (foot24_2 s t) = vw s)
    (s : State) (off : ℕ) (write : Option (Bytes × Bool)) (first : ℕ) (n : ℕ) (ev : List LineEvent) :
    vw (portAccess s off write first n ev) = vw s := by
  unfold portAccess
  repeat' first | with_reducible rfl | with_reducible refine (foldlState vw _ (fun s a => ?_) _ _).trans ?_ | simp only [backInvalidate_keeps vw (fun s t => hg s (footOutHost s t)), parkHost_keeps vw (fun s t => hg s (footHost s t)), hostAccess_keeps vw hg, foldlState vw, id_eq] | split

theorem dataWrite_keeps {γ : Type} (vw : State → γ) (hg : ∀ s t, vw (foot25_3 s t) = vw s)
    (s : State) (first : ℕ) (data : Bytes) (poison : Bool) :
    vw (dataWrite s first data poison) = vw s := by
  unfold dataWrite
  repeat' first | with_reducible rfl | with_reducible refine (foldlState vw _ (fun s a => ?_) _ _).trans ?_ | simp only [dpAdvance_keeps vw (fun s t => hg s (footHost s t)), countReserved_keeps vw (fun s t => hg s (footDic s t)), portAccess_keeps vw (fun s t => hg s (foot24_2 s t)), writeSegment_keeps vw (fun s t => hg s (foot9_5 s t)), addrErr_keeps vw (fun s t => hg s (footHost s t)), foldlState vw, id_eq] | split

theorem dataRead_keeps {γ : Type} (vw : State → γ) (hg : ∀ s t, vw (foot25_3 s t) = vw s)
    (s : State) (first : ℕ) (n : ℕ) (ev : List LineEvent) :
    vw (dataRead s first n ev) = vw s := by
  unfold dataRead
  repeat' first | with_reducible rfl | with_reducible refine (foldlState vw _ (fun s a => ?_) _ _).trans ?_ | simp only [updXfer_keeps vw (fun s t => hg s (footMgmt s t)), dpAdvance_keeps vw (fun s t => hg s (footHost s t)), emit_keeps vw (fun s t => hg s (footOut s t)), countReserved_keeps vw (fun s t => hg s (footDic s t)), portAccess_keeps vw (fun s t => hg s (foot24_2 s t)), addrErr_keeps vw (fun s t => hg s (footHost s t)), foldlState vw, id_eq] | split

theorem bar0Write_keeps {γ : Type} (vw : State → γ) (hg : ∀ s t, vw (foot25_3 s t) = vw s)
    (s : State) (off : ℕ) (size : ℕ) (v : ℕ) :
    vw (bar0Write s off size v) = vw s := by
  unfold bar0Write
  repeat' first | with_reducible rfl | with_reducible refine (foldlState vw _ (fun s a => ?_) _ _).trans ?_ | simp only [dataWrite_keeps vw hg, dpWrite_keeps vw (fun s t => hg s (footHost s t)), bar0Page_keeps vw (fun s t => hg s (foot23_0 s t)), mbxWrite_keeps vw (fun s t => hg s (footDicHost s t)), msixWrite_keeps vw (fun s t => hg s (footOutHost s t)), foldlState vw, id_eq] | split

theorem bar2_keeps {γ : Type} (vw : State → γ) (hg : ∀ s t, vw (foot24_2 s t) = vw s)
    (s : State) (off : ℕ) (a : HostAccess) :
    vw (bar2 s off a) = vw s := by
  unfold bar2
  repeat' first | with_reducible rfl | with_reducible refine (foldlState vw _ (fun s a => ?_) _ _).trans ?_ | simp only [openData_keeps vw (fun s t => hg s (footFreeOut s t)), countAddrError_keeps vw (fun s t => hg s (footDic s t)), hostAccess_keeps vw hg, foldlState vw, id_eq] | split

theorem drainAll_keeps {γ : Type} (vw : State → γ) (hg : ∀ s t, vw (foot19 s t) = vw s)
    (s : State) :
    vw (drainAll s) = vw s := by
  unfold drainAll
  repeat' first | with_reducible rfl | with_reducible refine (foldlState vw _ (fun s a => ?_) _ _).trans ?_ | simp only [drainRing_keeps vw hg, foldlState vw, id_eq] | split

theorem bisnpAnswered_keeps {γ : Type} (vw : State → γ) (hg : ∀ s t, vw (foot24_2 s t) = vw s)
    (s : State) (line : ℕ) :
    vw (bisnpAnswered s line) = vw s := by
  unfold bisnpAnswered
  repeat' first | with_reducible rfl | with_reducible refine (foldlState vw _ (fun s a => ?_) _ _).trans ?_ | simp only [drainAll_keeps vw (fun s t => hg s (foot19 s t)), hostSettle_keeps vw hg, updHost_keeps vw (fun s t => hg s (footHost s t)), foldlState vw, id_eq] | split

theorem dpFailed_keeps {γ : Type} (vw : State → γ) (hg : ∀ s t, vw (footOutHost s t) = vw s)
    (s : State) (w : PortWait) :
    vw (dpFailed s w) = vw s := by
  unfold dpFailed
  repeat' first | with_reducible rfl | with_reducible refine (foldlState vw _ (fun s a => ?_) _ _).trans ?_ | simp only [emit_keeps vw (fun s t => hg s (footOut s t)), addrErr_keeps vw (fun s t => hg s (footHost s t)), foldlState vw, id_eq] | split

theorem bisnpLate_keeps {γ : Type} (vw : State → γ) (hg : ∀ s t, vw (foot19 s t) = vw s)
    (s : State) (line : ℕ) :
    vw (bisnpLate s line) = vw s := by
  unfold bisnpLate
  repeat' first | with_reducible rfl | with_reducible refine (foldlState vw _ (fun s a => ?_) _ _).trans ?_ | simp only [drainAll_keeps vw hg, updHost_keeps vw (fun s t => hg s (footHost s t)), objInc_keeps vw (fun s t => hg s (footDic s t)), dpFailed_keeps vw (fun s t => hg s (footOutHost s t)), foldlState vw, id_eq] | split

theorem failHostReqs_keeps {γ : Type} (vw : State → γ) (hg : ∀ s t, vw (foot24_2 s t) = vw s)
    (s : State) :
    vw (failHostReqs s) = vw s := by
  unfold failHostReqs
  repeat' first | with_reducible rfl | with_reducible refine (foldlState vw _ (fun s a => ?_) _ _).trans ?_ | simp only [finishReq_keeps vw hg, foldlState vw, id_eq] | split

theorem cancelColls_keeps {γ : Type} (vw : State → γ) (hg : ∀ s t, vw (foot24_3 s t) = vw s)
    (s : State) :
    vw (cancelColls s) = vw s := by
  unfold cancelColls
  repeat' first | with_reducible rfl | with_reducible refine (foldlState vw _ (fun s a => ?_) _ _).trans ?_ | simp only [endColl_keeps vw hg, foldlState vw, id_eq] | split

theorem hostReset_keeps {γ : Type} (vw : State → γ) (hg : ∀ s t, vw (foot29_1 s t) = vw s)
    (s : State) :
    vw (hostReset s) = vw s := by
  have h0 : ∀ s x0, vw { s with windows := x0 } = vw s := fun s x0 => hg s { s with windows := x0 }
  unfold hostReset
  repeat' first | with_reducible rfl | with_reducible refine (foldlState vw _ (fun s a => ?_) _ _).trans ?_ | simp only [h0, atsSettle_keeps vw (fun s t => hg s (footOutHost s t)), hostSettle_keeps vw (fun s t => hg s (foot24_2 s t)), abortQueue_keeps vw (fun s t => hg s (foot17_0 s t)), updHost_keeps vw (fun s t => hg s (footHost s t)), cancelColls_keeps vw (fun s t => hg s (foot24_3 s t)), failHostReqs_keeps vw (fun s t => hg s (foot24_2 s t)), foldlState vw, id_eq] | split

theorem linkGone_keeps {γ : Type} (vw : State → γ) (hg : ∀ s t, vw (footDicHost s t) = vw s)
    (s : State) :
    vw (linkGone s) = vw s := by
  unfold linkGone
  repeat' first | with_reducible rfl | with_reducible refine (foldlState vw _ (fun s a => ?_) _ _).trans ?_ | simp only [updHost_keeps vw (fun s t => hg s (footHost s t)), objPut_keeps vw (fun s t => hg s (footDic s t)), foldlState vw, id_eq] | split

theorem destroyQueue_keeps {γ : Type} (vw : State → γ) (hg : ∀ s t, vw (foot4_7 s t) = vw s)
    (s : State) (q : ℕ) :
    vw (destroyQueue s q) = vw s := by
  unfold destroyQueue
  repeat' first | with_reducible rfl | with_reducible refine (foldlState vw _ (fun s a => ?_) _ _).trans ?_ | simp only [removeQueue_keeps vw (fun s t => hg s (footPartsQueues s t)), journal_keeps vw (fun s t => hg s (footDicObs s t)), foldlState vw, id_eq] | split

theorem destroyAll_keeps {γ : Type} (vw : State → γ) (hg : ∀ s t, vw (foot5_4 s t) = vw s)
    (s : State) :
    vw (destroyAll s) = vw s := by
  unfold destroyAll
  repeat' first | with_reducible rfl | with_reducible refine (foldlState vw _ (fun s a => ?_) _ _).trans ?_ | simp only [updHost_keeps vw (fun s t => hg s (footHost s t)), destroyQueue_keeps vw (fun s t => hg s (foot4_7 s t)), foldlState vw, id_eq] | split

theorem linkTrained_keeps {γ : Type} (vw : State → γ) (hg : ∀ s t, vw (footDicHost s t) = vw s)
    (s : State) (gen : ℕ) (width : ℕ) :
    vw (linkTrained s gen width) = vw s := by
  unfold linkTrained
  repeat' first | with_reducible rfl | with_reducible refine (foldlState vw _ (fun s a => ?_) _ _).trans ?_ | simp only [updHost_keeps vw (fun s t => hg s (footHost s t)), objPut_keeps vw (fun s t => hg s (footDic s t)), foldlState vw, id_eq] | split

theorem remapLine_keeps {γ : Type} (vw : State → γ) (hg : ∀ s t, vw (foot6_5 s t) = vw s)
    (s : State) (slice : ℕ) (gl : ℕ) :
    vw (remapLine s slice gl) = vw s := by
  have h0 : ∀ s x0 x1 x2, vw { s with remaps := x0, corrRuns := x1, spareOut := x2 } = vw s := fun s x0 x1 x2 => hg s { s with remaps := x0, corrRuns := x1, spareOut := x2 }
  unfold remapLine
  repeat' first | with_reducible rfl | with_reducible refine (foldlState vw _ (fun s a => ?_) _ _).trans ?_ | simp only [h0, journal_keeps vw (fun s t => hg s (footDicObs s t)), objInc_keeps vw (fun s t => hg s (footDic s t)), objPut_keeps vw (fun s t => hg s (footDic s t)), notePersist_keeps vw (fun s t => hg s (footPersist s t)), journalAlert_keeps vw (fun s t => hg s (footDicObs s t)), foldlState vw, id_eq] | split

theorem scrubWord_keeps {γ : Type} (vw : State → γ) (hg : ∀ s t, vw (footDicCorrRunsObs s t) = vw s)
    (s : State) (slice : ℕ) (gl : ℕ) (i : ℕ) (x1 : Ecc) :
    vw (scrubWord s slice gl i x1) = vw s := by
  have h0 : ∀ s x0, vw { s with corrRuns := x0 } = vw s := fun s x0 => hg s { s with corrRuns := x0 }
  unfold scrubWord
  repeat' first | with_reducible rfl | with_reducible refine (foldlState vw _ (fun s a => ?_) _ _).trans ?_ | simp only [h0, journal_keeps vw (fun s t => hg s (footDicObs s t)), objInc_keeps vw (fun s t => hg s (footDic s t)), foldlState vw, id_eq] | split

theorem scrubNext_keeps {γ : Type} (vw : State → γ) (hg : ∀ s t, vw (footDicScrubLineScrubWrap s t) = vw s)
    (s : State) (slice : ℕ) :
    vw (scrubNext s slice) = vw s := by
  have h0 : ∀ s x0 x1, vw { s with scrubLine := x0, scrubWrap := x1 } = vw s := fun s x0 x1 => hg s { s with scrubLine := x0, scrubWrap := x1 }
  unfold scrubNext
  repeat' first | with_reducible rfl | with_reducible refine (foldlState vw _ (fun s a => ?_) _ _).trans ?_ | simp only [h0, objInc_keeps vw (fun s t => hg s (footDic s t)), foldlState vw, id_eq] | split

theorem scrubTile_keeps {γ : Type} (vw : State → γ) (hg : ∀ s t, vw (foot9_3 s t) = vw s)
    (s : State) (slice : ℕ) (w0 : Ecc) (w1 : Ecc) :
    vw (scrubTile s slice w0 w1) = vw s := by
  have h0 : ∀ s x0, vw { s with tilePoison := x0 } = vw s := fun s x0 => hg s { s with tilePoison := x0 }
  unfold scrubTile
  repeat' first | with_reducible rfl | with_reducible refine (foldlState vw _ (fun s a => ?_) _ _).trans ?_ | simp only [h0, scrubWord_keeps vw (fun s t => hg s (footDicCorrRunsObs s t)), remapLine_keeps vw (fun s t => hg s (foot6_5 s t)), objInc_keeps vw (fun s t => hg s (footDic s t)), scrubNext_keeps vw (fun s t => hg s (footDicScrubLineScrubWrap s t)), foldlState vw, id_eq] | split

theorem settleMem_keeps {γ : Type} (vw : State → γ) (hg : ∀ s t, vw (footDic s t) = vw s)
    (s : State) :
    vw (settleMem s) = vw s := by
  unfold settleMem
  repeat' first | with_reducible rfl | with_reducible refine (foldlState vw _ (fun s a => ?_) _ _).trans ?_ | simp only [objPut_keeps vw hg, foldlState vw, id_eq] | split

theorem setChan_keeps {γ : Type} (vw : State → γ) (hg : ∀ s t, vw (footDicChans s t) = vw s)
    (s : State) (ch : ℕ) (st : ℕ) :
    vw (setChan s ch st) = vw s := by
  unfold setChan
  repeat' first | with_reducible rfl | with_reducible refine (foldlState vw _ (fun s a => ?_) _ _).trans ?_ | simp only [updChan_keeps vw (fun s t => hg s (footChans s t)), settleMem_keeps vw (fun s t => hg s (footDic s t)), objAdd_keeps vw (fun s t => hg s (footDic s t)), objPut_keeps vw (fun s t => hg s (footDic s t)), foldlState vw, id_eq] | split

theorem decodeLines_keeps {γ : Type} (vw : State → γ) (hg : ∀ s t, vw (footLpddrBadChansWires s t) = vw s)
    (s : State) (line : ℕ) (x1 : List Ecc) :
    vw (decodeLines s line x1) = vw s := by
  fun_induction decodeLines s line x1
  all_goals repeat' first | with_reducible rfl | assumption | with_reducible refine (foldlState vw _ (fun s a => ?_) _ _).trans ?_ | simp only [*, readDecoded_keeps vw hg, foldlState vw, id_eq] | split | simp +zetaDelta only [readDecoded_keeps vw hg, foldlState vw, id_eq]

theorem serveChannel_keeps {γ : Type} (vw : State → γ) (hg : ∀ s t, vw (footLpddrBadChansWires s t) = vw s)
    (s : State) (ch : ℕ) (es : List Ecc) :
    vw (serveChannel s ch es) = vw s := by
  unfold serveChannel
  repeat' first | with_reducible rfl | with_reducible refine (foldlState vw _ (fun s a => ?_) _ _).trans ?_ | simp only [updChan_keeps vw (fun s t => hg s (footChans s t)), decodeLines_keeps vw hg, foldlState vw, id_eq] | split

theorem chanTemp_keeps {γ : Type} (vw : State → γ) (hg : ∀ s t, vw (footDicChans s t) = vw s)
    (t : ℤ) (s : State) (ch : ℕ) :
    vw (chanTemp t s ch) = vw s := by
  unfold chanTemp
  repeat' first | with_reducible rfl | with_reducible refine (foldlState vw _ (fun s a => ?_) _ _).trans ?_ | simp only [updChan_keeps vw (fun s t => hg s (footChans s t)), setChan_keeps vw hg, foldlState vw, id_eq] | split

theorem packageTemp_keeps {γ : Type} (vw : State → γ) (hg : ∀ s t, vw (footDicChansPkgs s t) = vw s)
    (s : State) (pkg : ℕ) (t : ℤ) :
    vw (packageTemp s pkg t) = vw s := by
  have h0 : ∀ s x0, vw { s with pkgs := x0 } = vw s := fun s x0 => hg s { s with pkgs := x0 }
  unfold packageTemp
  repeat' first | with_reducible rfl | with_reducible refine (foldlState vw _ (fun s a => ?_) _ _).trans ?_ | simp only [h0, chanTemp_keeps vw (fun s t => hg s (footDicChans s t)), objPut_keeps vw (fun s t => hg s (footDic s t)), foldlState vw, id_eq] | split

theorem overtemp_keeps {γ : Type} (vw : State → γ) (hg : ∀ s t, vw (footDicChansObs s t) = vw s)
    (s : State) (ch : ℕ) :
    vw (overtemp s ch) = vw s := by
  unfold overtemp
  repeat' first | with_reducible rfl | with_reducible refine (foldlState vw _ (fun s a => ?_) _ _).trans ?_ | simp only [updChan_keeps vw (fun s t => hg s (footChans s t)), journalAlert_keeps vw (fun s t => hg s (footDicObs s t)), foldlState vw, id_eq] | split

theorem scrubLpddrLine_keeps {γ : Type} (vw : State → γ) (hg : ∀ s t, vw (foot6_4 s t) = vw s)
    (s : State) (line : ℕ) (e : Ecc) :
    vw (scrubLpddrLine s line e) = vw s := by
  have h0 : ∀ s x0 x1, vw { s with lpddrPoison := x0, lpddrBad := x1 } = vw s := fun s x0 x1 => hg s { s with lpddrPoison := x0, lpddrBad := x1 }
  unfold scrubLpddrLine
  repeat' first | with_reducible rfl | with_reducible refine (foldlState vw _ (fun s a => ?_) _ _).trans ?_ | simp only [h0, noteRow_keeps vw (fun s t => hg s (footChans s t)), journal_keeps vw (fun s t => hg s (footDicObs s t)), islandEvent_keeps vw (fun s t => hg s (footWires s t)), noteCorrected_keeps vw (fun s t => hg s (footChansWires s t)), foldlState vw, id_eq] | split

theorem scrubLines_keeps {γ : Type} (vw : State → γ) (hg : ∀ s t, vw (foot6_4 s t) = vw s)
    (s : State) (line : ℕ) (x1 : List Ecc) :
    vw (scrubLines s line x1) = vw s := by
  fun_induction scrubLines s line x1
  all_goals repeat' first | with_reducible rfl | assumption | with_reducible refine (foldlState vw _ (fun s a => ?_) _ _).trans ?_ | simp only [*, scrubLpddrLine_keeps vw hg, foldlState vw, id_eq] | split | simp +zetaDelta only [scrubLpddrLine_keeps vw hg, foldlState vw, id_eq]

theorem scrubGranule_keeps {γ : Type} (vw : State → γ) (hg : ∀ s t, vw (foot6_4 s t) = vw s)
    (s : State) (ch : ℕ) (es : List Ecc) :
    vw (scrubGranule s ch es) = vw s := by
  unfold scrubGranule
  repeat' first | with_reducible rfl | with_reducible refine (foldlState vw _ (fun s a => ?_) _ _).trans ?_ | simp only [updChan_keeps vw (fun s t => hg s (footChans s t)), scrubLines_keeps vw hg, foldlState vw, id_eq] | split

theorem failReads_keeps {γ : Type} (vw : State → γ) (hg : ∀ s t, vw (foot24_2 s t) = vw s)
    (s : State) (ch : ℕ) :
    vw (failReads s ch) = vw s := by
  unfold failReads
  repeat' first | with_reducible rfl | with_reducible refine (foldlState vw _ (fun s a => ?_) _ _).trans ?_ | simp only [finishReq_keeps vw hg, foldlState vw, id_eq] | split

theorem failChannel_keeps {γ : Type} (vw : State → γ) (hg : ∀ s t, vw (foot30 s t) = vw s)
    (s : State) (ch : ℕ) :
    vw (failChannel s ch) = vw s := by
  unfold failChannel
  repeat' first | with_reducible rfl | with_reducible refine (foldlState vw _ (fun s a => ?_) _ _).trans ?_ | simp only [haltEngines_keeps vw (fun s t => hg s (foot24_1 s t)), hostSettle_keeps vw (fun s t => hg s (foot24_2 s t)), journal_keeps vw (fun s t => hg s (footDicObs s t)), updChan_keeps vw (fun s t => hg s (footChans s t)), abortQueue_keeps vw (fun s t => hg s (foot17_0 s t)), setChan_keeps vw (fun s t => hg s (footDicChans s t)), poisonReads_keeps vw (fun s t => hg s (foot6_9 s t)), objPut_keeps vw (fun s t => hg s (footDic s t)), journalAlert_keeps vw (fun s t => hg s (footDicObs s t)), foldlState vw, id_eq] | split

theorem startDim_keeps {γ : Type} (vw : State → γ) (hg : ∀ s t, vw (footDicChans s t) = vw s)
    (s : State) (ch : ℕ) (e : DimEvent) :
    vw (startDim s ch e) = vw s := by
  unfold startDim
  repeat' first | with_reducible rfl | with_reducible refine (foldlState vw _ (fun s a => ?_) _ _).trans ?_ | simp only [updChan_keeps vw (fun s t => hg s (footChans s t)), objInc_keeps vw (fun s t => hg s (footDic s t)), setChan_keeps vw hg, objAdd_keeps vw (fun s t => hg s (footDic s t)), foldlState vw, id_eq] | split

theorem fallDue_keeps {γ : Type} (vw : State → γ) (hg : ∀ s t, vw (footDicChans s t) = vw s)
    (s : State) (ch : ℕ) (e : DimEvent) :
    vw (fallDue s ch e) = vw s := by
  unfold fallDue
  repeat' first | with_reducible rfl | with_reducible refine (foldlState vw _ (fun s a => ?_) _ _).trans ?_ | simp only [updChan_keeps vw (fun s t => hg s (footChans s t)), startDim_keeps vw hg, foldlState vw, id_eq] | split

theorem leaveDim_keeps {γ : Type} (vw : State → γ) (hg : ∀ s t, vw (foot24_2 s t) = vw s)
    (s : State) (ch : ℕ) (since : ℕ) :
    vw (leaveDim s ch since) = vw s := by
  unfold leaveDim
  repeat' first | with_reducible rfl | with_reducible refine (foldlState vw _ (fun s a => ?_) _ _).trans ?_ | simp only [hostSettle_keeps vw hg, updChan_keeps vw (fun s t => hg s (footChans s t)), setChan_keeps vw (fun s t => hg s (footDicChans s t)), objMax_keeps vw (fun s t => hg s (footDic s t)), foldlState vw, id_eq] | split

theorem endRetrain_keeps {γ : Type} (vw : State → γ) (hg : ∀ s t, vw (foot30 s t) = vw s)
    (s : State) (ch : ℕ) (ok : Bool) :
    vw (endRetrain s ch ok) = vw s := by
  unfold endRetrain
  repeat' first | with_reducible rfl | with_reducible refine (foldlState vw _ (fun s a => ?_) _ _).trans ?_ | simp only [updChan_keeps vw (fun s t => hg s (footChans s t)), leaveDim_keeps vw (fun s t => hg s (foot24_2 s t)), failChannel_keeps vw hg, islandReset_keeps vw (fun s t => hg s (footDicWires s t)), foldlState vw, id_eq] | split

theorem poisonLines_keeps {γ : Type} (vw : State → γ) (hg : ∀ s t, vw (footLpddrPoisonLpddrBad s t) = vw s)
    (s : State) (x1 : List ℕ) :
    vw (poisonLines s x1) = vw s := by
  have h0 : ∀ s x0 x1, vw { s with lpddrPoison := x0, lpddrBad := x1 } = vw s := fun s x0 x1 => hg s { s with lpddrPoison := x0, lpddrBad := x1 }
  fun_induction poisonLines s x1
  all_goals repeat' first | with_reducible rfl | assumption | with_reducible refine (foldlState vw _ (fun s a => ?_) _ _).trans ?_ | simp only [*, h0, foldlState vw, id_eq] | split | simp +zetaDelta only [h0, foldlState vw, id_eq]

theorem listRepair_keeps {γ : Type} (vw : State → γ) (hg : ∀ s t, vw (footPersistRepairs s t) = vw s)
    (s : State) (ch : ℕ) (bank : ℕ) (row : ℕ) (hard : Bool) :
    vw (listRepair s ch bank row hard) = vw s := by
  have h0 : ∀ s x0, vw { s with repairs := x0 } = vw s := fun s x0 => hg s { s with repairs := x0 }
  unfold listRepair
  repeat' first | with_reducible rfl | with_reducible refine (foldlState vw _ (fun s a => ?_) _ _).trans ?_ | simp only [h0, notePersist_keeps vw (fun s t => hg s (footPersist s t)), foldlState vw, id_eq] | split

theorem endRepair_keeps {γ : Type} (vw : State → γ) (hg : ∀ s t, vw (foot26_1 s t) = vw s)
    (s : State) (ch : ℕ) (resource : Bool) (bad : List ℕ) :
    vw (endRepair s ch resource bad) = vw s := by
  unfold endRepair
  repeat' first | with_reducible rfl | with_reducible refine (foldlState vw _ (fun s a => ?_) _ _).trans ?_ | simp only [listRepair_keeps vw (fun s t => hg s (footPersistRepairs s t)), poisonLines_keeps vw (fun s t => hg s (footLpddrPoisonLpddrBad s t)), updChan_keeps vw (fun s t => hg s (footChans s t)), objInc_keeps vw (fun s t => hg s (footDic s t)), leaveDim_keeps vw (fun s t => hg s (foot24_2 s t)), foldlState vw, id_eq] | split

theorem writeMemHashKey_keeps {γ : Type} (vw : State → γ) (hg : ∀ s t, vw (foot5_13 s t) = vw s)
    (r : Route) (v : Bytes) (burnt : Bool) (s : State) :
    vw (writeMemHashKey r v burnt s) = vw s := by
  unfold writeMemHashKey
  repeat' first | with_reducible rfl | with_reducible refine (foldlState vw _ (fun s a => ?_) _ _).trans ?_ | with_reducible refine (fuseRow_keeps vw hg _ _ _ _ _ _ _ _ (fun _ => ?_)).trans ?_ | simp only [fuseRow_keeps vw hg, foldlState vw, id_eq] | split

theorem flitTimeout_keeps {γ : Type} (vw : State → γ) (hg : ∀ s t, vw (footDicLinks s t) = vw s)
    (s : State) (k : ℕ) (seq : ℕ) :
    vw (flitTimeout s k seq) = vw s := by
  unfold flitTimeout
  repeat' first | with_reducible rfl | with_reducible refine (foldlState vw _ (fun s a => ?_) _ _).trans ?_ | simp only [resendFlit_keeps vw hg, nakMissing_keeps vw (fun s t => hg s (footLinks s t)), foldlState vw, id_eq] | split

theorem retryLimit_keeps {γ : Type} (vw : State → γ) (hg : ∀ s t, vw (foot6_3 s t) = vw s)
    (s : State) (k : ℕ) (seq : ℕ) :
    vw (retryLimit s k seq) = vw s := by
  unfold retryLimit
  repeat' first | with_reducible rfl | with_reducible refine (foldlState vw _ (fun s a => ?_) _ _).trans ?_ | simp only [goDark_keeps vw hg, noteTimes_keeps vw (fun s t => hg s (footLinks s t)), foldlState vw, id_eq] | split

theorem reform_keeps {γ : Type} (vw : State → γ) (hg : ∀ s t, vw (foot6_3 s t) = vw s)
    (s : State) (k : ℕ) :
    vw (reform s k) = vw s := by
  unfold reform
  repeat' first | with_reducible rfl | with_reducible refine (foldlState vw _ (fun s a => ?_) _ _).trans ?_ | simp only [startNego_keeps vw hg, foldlState vw, id_eq] | split

theorem removeDark_keeps {γ : Type} (vw : State → γ) (hg : ∀ s t, vw (foot7_0 s t) = vw s)
    (s : State) (k : ℕ) :
    vw (removeDark s k) = vw s := by
  have h0 : ∀ s x0, vw { s with needDemand := x0 } = vw s := fun s x0 => hg s { s with needDemand := x0 }
  unfold removeDark
  repeat' first | with_reducible rfl | with_reducible refine (foldlState vw _ (fun s a => ?_) _ _).trans ?_ | simp only [h0, removeLink_keeps vw (fun s t => hg s (foot6_2 s t)), foldlState vw, id_eq] | split

theorem removeForErrors_keeps {γ : Type} (vw : State → γ) (hg : ∀ s t, vw (foot7_1 s t) = vw s)
    (s : State) (k : ℕ) (idx : ℕ) :
    vw (removeForErrors s k idx) = vw s := by
  unfold removeForErrors
  repeat' first | with_reducible rfl | with_reducible refine (foldlState vw _ (fun s a => ?_) _ _).trans ?_ | simp only [objInc_keeps vw (fun s t => hg s (footDic s t)), laneOut_keeps vw hg, foldlState vw, id_eq] | split

theorem trainingDone_keeps {γ : Type} (vw : State → γ) (hg : ∀ s t, vw (foot17_1 s t) = vw s)
    (s : State) (outgoing : Bool) (fibre : ℕ) (line : ℕ) (t : TrainResult) :
    vw (trainingDone s outgoing fibre line t) = vw s := by
  unfold trainingDone
  repeat' first | with_reducible rfl | with_reducible refine (foldlState vw _ (fun s a => ?_) _ _).trans ?_ | simp only [returnLane_keeps vw (fun s t => hg s (foot7_1 s t)), refuseSkew_keeps vw (fun s t => hg s (foot13_0 s t)), admitNew_keeps vw (fun s t => hg s (foot13_1 s t)), objPut_keeps vw (fun s t => hg s (footDic s t)), failTraining_keeps vw (fun s t => hg s (foot8_2 s t)), lockRing_keeps vw (fun s t => hg s (footRingsTrainFails s t)), runTraining_keeps vw (fun s t => hg s (footOutDic s t)), foldlState vw, id_eq] | split

theorem skewHoldEnd_keeps {γ : Type} (vw : State → γ) (hg : ∀ s t, vw (footSkewHold s t) = vw s)
    (s : State) (outgoing : Bool) (fibre : ℕ) (line : ℕ) :
    vw (skewHoldEnd s outgoing fibre line) = vw s := by
  have h0 : ∀ s x0, vw { s with skewHold := x0 } = vw s := fun s x0 => hg s { s with skewHold := x0 }
  unfold skewHoldEnd
  repeat' first | with_reducible rfl | with_reducible refine (foldlState vw _ (fun s a => ?_) _ _).trans ?_ | simp only [h0, foldlState vw, id_eq] | split

theorem applyIntended_keeps {γ : Type} (vw : State → γ) (hg : ∀ s t, vw (foot6_3 s t) = vw s)
    (s : State) :
    vw (applyIntended s) = vw s := by
  unfold applyIntended
  repeat' first | with_reducible rfl | with_reducible refine (foldlState vw _ (fun s a => ?_) _ _).trans ?_ | simp only [checkMap_keeps vw hg, journalMismatches_keeps vw (fun s t => hg s (footDicObs s t)), foldlState vw, id_eq] | split

theorem applyQuarantine_keeps {γ : Type} (vw : State → γ) (hg : ∀ s t, vw (foot6_3 s t) = vw s)
    (s : State) (n : ℕ) :
    vw (applyQuarantine s n) = vw s := by
  unfold applyQuarantine
  repeat' first | with_reducible rfl | with_reducible refine (foldlState vw _ (fun s a => ?_) _ _).trans ?_ | simp only [setCause_keeps vw hg, foldlState vw, id_eq] | split

theorem writeLinkQuarantine_keeps {γ : Type} (vw : State → γ) (hg : ∀ s t, vw (foot10_5 s t) = vw s)
    (r : Route) (v : Bytes) (s : State) :
    vw (writeLinkQuarantine r v s) = vw s := by
  have k_writeRow := writeRow_keeps vw (fun s t => hg s (foot6_13 s t))
  unfold writeLinkQuarantine
  repeat' first | with_reducible rfl | with_reducible refine (foldlState vw _ (fun s a => ?_) _ _).trans ?_ | with_reducible refine (k_writeRow _ _ _ _ _ _ _ (fun _ _ => ?_)).trans ?_ | simp only [applyQuarantine_keeps vw (fun s t => hg s (foot6_3 s t)), writeRow_keeps vw (fun s t => hg s (foot6_13 s t)), foldlState vw, id_eq] | split

theorem updSeqs_keeps {γ : Type} (vw : State → γ) (hg : ∀ s t, vw (footSeqs s t) = vw s)
    (s : State) (f : Seqs → Seqs) :
    vw (updSeqs s f) = vw s := by
  have h0 : ∀ s x0, vw { s with seqs := x0 } = vw s := fun s x0 => hg s { s with seqs := x0 }
  unfold updSeqs
  repeat' first | with_reducible rfl | with_reducible refine (foldlState vw _ (fun s a => ?_) _ _).trans ?_ | simp only [h0, foldlState vw, id_eq] | split

theorem updSec_keeps {γ : Type} (vw : State → γ) (hg : ∀ s t, vw (footSec s t) = vw s)
    (s : State) (f : Sec → Sec) :
    vw (updSec s f) = vw s := by
  have h0 : ∀ s x0, vw { s with sec := x0 } = vw s := fun s x0 => hg s { s with sec := x0 }
  unfold updSec
  repeat' first | with_reducible rfl | with_reducible refine (foldlState vw _ (fun s a => ?_) _ _).trans ?_ | simp only [h0, foldlState vw, id_eq] | split

theorem setStep_keeps {γ : Type} (vw : State → γ) (hg : ∀ s t, vw (footDicSeqs s t) = vw s)
    (s : State) (n : ℕ) :
    vw (setStep s n) = vw s := by
  unfold setStep
  repeat' first | with_reducible rfl | with_reducible refine (foldlState vw _ (fun s a => ?_) _ _).trans ?_ | simp only [updSeqs_keeps vw (fun s t => hg s (footSeqs s t)), objPut_keeps vw (fun s t => hg s (footDic s t)), foldlState vw, id_eq] | split

theorem putBank_keeps {γ : Type} (vw : State → γ) (hg : ∀ s t, vw (footSec s t) = vw s)
    (s : State) (bank : ℕ) (is : List ImageInfo) :
    vw (putBank s bank is) = vw s := by
  unfold putBank
  repeat' first | with_reducible rfl | with_reducible refine (foldlState vw _ (fun s a => ?_) _ _).trans ?_ | simp only [updSec_keeps vw hg, foldlState vw, id_eq] | split

theorem measExtend_keeps {γ : Type} (vw : State → γ) (hg : ∀ s t, vw (footSec s t) = vw s)
    (s : State) (reg : ℕ) (code : ℕ) (sec : ℕ) (fw : ℕ) (digest : Bytes) :
    vw (measExtend s reg code sec fw digest) = vw s := by
  unfold measExtend
  repeat' first | with_reducible rfl | with_reducible refine (foldlState vw _ (fun s a => ?_) _ _).trans ?_ | simp only [updSec_keeps vw hg, foldlState vw, id_eq] | split

theorem measEvent_keeps {γ : Type} (vw : State → γ) (hg : ∀ s t, vw (footSec s t) = vw s)
    (s : State) (code : ℕ) (value : Bytes) :
    vw (measEvent s code value) = vw s := by
  unfold measEvent
  repeat' first | with_reducible rfl | with_reducible refine (foldlState vw _ (fun s a => ?_) _ _).trans ?_ | simp only [measExtend_keeps vw hg, foldlState vw, id_eq] | split

theorem measImage_keeps {γ : Type} (vw : State → γ) (hg : ∀ s t, vw (footSec s t) = vw s)
    (s : State) (i : ImageInfo) :
    vw (measImage s i) = vw s := by
  unfold measImage
  repeat' first | with_reducible rfl | with_reducible refine (foldlState vw _ (fun s a => ?_) _ _).trans ?_ | simp only [measExtend_keeps vw hg, foldlState vw, id_eq] | split

theorem chainStart_keeps {γ : Type} (vw : State → γ) (hg : ∀ s t, vw (footSec s t) = vw s)
    (s : State) (keep0 : Bool) :
    vw (chainStart s keep0) = vw s := by
  unfold chainStart
  repeat' first | with_reducible rfl | with_reducible refine (foldlState vw _ (fun s a => ?_) _ _).trans ?_ | simp only [measExtend_keeps vw hg, updSec_keeps vw hg, foldlState vw, id_eq] | split

theorem trialFailed_keeps {γ : Type} (vw : State → γ) (hg : ∀ s t, vw (footDicSeqs s t) = vw s)
    (s : State) :
    vw (trialFailed s) = vw s := by
  unfold trialFailed
  repeat' first | with_reducible rfl | with_reducible refine (foldlState vw _ (fun s a => ?_) _ _).trans ?_ | simp only [updSeqs_keeps vw (fun s t => hg s (footSeqs s t)), objPut_keeps vw (fun s t => hg s (footDic s t)), foldlState vw, id_eq] | split

theorem chooseBank_keeps {γ : Type} (vw : State → γ) (hg : ∀ s t, vw (footDicSeqsSec s t) = vw s)
    (s : State) :
    vw (chooseBank s) = vw s := by
  unfold chooseBank
  repeat' first | with_reducible rfl | with_reducible refine (foldlState vw _ (fun s a => ?_) _ _).trans ?_ | simp only [updSeqs_keeps vw (fun s t => hg s (footSeqs s t)), measEvent_keeps vw (fun s t => hg s (footSec s t)), trialFailed_keeps vw (fun s t => hg s (footDicSeqs s t)), foldlState vw, id_eq] | split

theorem revertKey_keeps {γ : Type} (vw : State → γ) (hg : ∀ s t, vw (foot4_4 s t) = vw s)
    (s : State) (k : ℕ) :
    vw (revertKey s k) = vw s := by
  have h0 : ∀ s x0 x1 x2 x3, vw { s with dic := x0, doms := x1, remaps := x2, repairs := x3 } = vw s := fun s x0 x1 x2 x3 => hg s { s with dic := x0, doms := x1, remaps := x2, repairs := x3 }
  unfold revertKey
  repeat' first | with_reducible rfl | with_reducible refine (foldlState vw _ (fun s a => ?_) _ _).trans ?_ | simp only [h0, foldlState vw, id_eq] | split

theorem revertPersist_keeps {γ : Type} (vw : State → γ) (hg : ∀ s t, vw (foot5_6 s t) = vw s)
    (s : State) :
    vw (revertPersist s) = vw s := by
  have h0 : ∀ s x0, vw { s with persist := x0 } = vw s := fun s x0 => hg s { s with persist := x0 }
  unfold revertPersist
  repeat' first | with_reducible rfl | with_reducible refine (foldlState vw _ (fun s a => ?_) _ _).trans ?_ | simp only [h0, revertKey_keeps vw (fun s t => hg s (foot4_4 s t)), foldlState vw, id_eq] | split

theorem applyRestart_keeps {γ : Type} (vw : State → γ) (hg : ∀ s t, vw (foot8_1 s t) = vw s)
    (s : State) (cold : Bool) :
    vw (applyRestart s cold) = vw s := by
  have h0 : ∀ s x0 x1 x2 x3 x4 x5, vw { s with keyEff := x0, spillEff := x1, watchEff := x2, rcEff := x3, laserMode := x4, iface := x5 } = vw s := fun s x0 x1 x2 x3 x4 x5 => hg s { s with keyEff := x0, spillEff := x1, watchEff := x2, rcEff := x3, laserMode := x4, iface := x5 }
  unfold applyRestart
  repeat' first | with_reducible rfl | with_reducible refine (foldlState vw _ (fun s a => ?_) _ _).trans ?_ | simp only [h0, updHost_keeps vw (fun s t => hg s (footHost s t)), objPut_keeps vw (fun s t => hg s (footDic s t)), foldlState vw, id_eq] | split

theorem dieReset_keeps {γ : Type} (vw : State → γ) (hg : ∀ s t, vw (footRun s t) = vw s)
    (s : State) (cold : Bool) :
    vw (dieReset s cold) = vw s := by
  have hall : ∀ s t : State, t.pending = s.pending → t.now = s.now → vw t = vw s := by
    intro s t h1 h2
    have h := hg s t
    rwa [show footRun s t = t by unfold footRun; rw [← h1, ← h2]] at h
  unfold dieReset
  refine (applyRestart_keeps vw (fun s t => hg s (foot8_1 s t)) _ _).trans ?_
  refine hall _ _ ?_ ?_
  · cases cold <;> simp only [objPut_pending, freeStep_pending] <;> (repeat' first | rfl | split | simp only [objPut_pending, objPut_now, dropSnaps_keeps State.pending (fun _ _ => rfl), dropSnaps_keeps State.now (fun _ _ => rfl)])
  · cases cold <;> simp only [objPut_now, freeStep_now] <;> (repeat' first | rfl | split | simp only [objPut_pending, objPut_now, dropSnaps_keeps State.pending (fun _ _ => rfl), dropSnaps_keeps State.now (fun _ _ => rfl)])

theorem railsOff_keeps {γ : Type} (vw : State → γ) (hg : ∀ s t, vw (footPower s t) = vw s)
    (s : State) :
    vw (railsOff s) = vw s := by
  have h0 : ∀ s x0, vw { s with power := x0 } = vw s := fun s x0 => hg s { s with power := x0 }
  unfold railsOff
  repeat' first | with_reducible rfl | with_reducible refine (foldlState vw _ (fun s a => ?_) _ _).trans ?_ | simp only [h0, foldlState vw, id_eq] | split

theorem mainOff_keeps {γ : Type} (vw : State → γ) (hg : ∀ s t, vw (footRun s t) = vw s)
    (s : State) :
    vw (mainOff s) = vw s := by
  unfold mainOff
  repeat' first | with_reducible rfl | with_reducible refine (foldlState vw _ (fun s a => ?_) _ _).trans ?_ | simp only [updSeqs_keeps vw (fun s t => hg s (footSeqs s t)), dieReset_keeps vw hg, revertPersist_keeps vw (fun s t => hg s (foot5_6 s t)), railsOff_keeps vw (fun s t => hg s (footPower s t)), foldlState vw, id_eq] | split

theorem beginCold_keeps {γ : Type} (vw : State → γ) (hg : ∀ s t, vw (footRun s t) = vw s)
    (s : State) (four : Bool) :
    vw (beginCold s four) = vw s := by
  have h0 : ∀ s x0 x1 x2 x3 x4, vw { s with coldAt := x0, lossNs := x1, recovery := x2, power := x3, obs := x4 } = vw s := fun s x0 x1 x2 x3 x4 => hg s { s with coldAt := x0, lossNs := x1, recovery := x2, power := x3, obs := x4 }
  unfold beginCold
  repeat' first | with_reducible rfl | with_reducible refine (foldlState vw _ (fun s a => ?_) _ _).trans ?_ | simp only [h0, chainStart_keeps vw (fun s t => hg s (footSec s t)), updSeqs_keeps vw (fun s t => hg s (footSeqs s t)), mainOff_keeps vw hg, chooseBank_keeps vw (fun s t => hg s (footDicSeqsSec s t)), objPut_keeps vw (fun s t => hg s (footDic s t)), setStep_keeps vw (fun s t => hg s (footDicSeqs s t)), foldlState vw, id_eq] | split

theorem coldStart_keeps {γ : Type} (vw : State → γ) (hg : ∀ s t, vw (footRun s t) = vw s)
    (s : State) (source : ℕ) :
    vw (coldStart s source) = vw s := by
  unfold coldStart
  repeat' first | with_reducible rfl | with_reducible refine (foldlState vw _ (fun s a => ?_) _ _).trans ?_ | simp only [beginCold_keeps vw hg, objPut_keeps vw (fun s t => hg s (footDic s t)), foldlState vw, id_eq] | split

theorem enterRecovery_keeps {γ : Type} (vw : State → γ) (hg : ∀ s t, vw (footRun s t) = vw s)
    (s : State) :
    vw (enterRecovery s) = vw s := by
  have h0 : ∀ s x0, vw { s with recovery := x0 } = vw s := fun s x0 => hg s { s with recovery := x0 }
  unfold enterRecovery
  repeat' first | with_reducible rfl | with_reducible refine (foldlState vw _ (fun s a => ?_) _ _).trans ?_ | simp only [h0, updSeqs_keeps vw (fun s t => hg s (footSeqs s t)), mainOff_keeps vw hg, alert_keeps vw (fun s t => hg s (footDic s t)), objPut_keeps vw (fun s t => hg s (footDic s t)), setStep_keeps vw (fun s t => hg s (footDicSeqs s t)), foldlState vw, id_eq] | split

theorem bootFailed_keeps {γ : Type} (vw : State → γ) (hg : ∀ s t, vw (footRun s t) = vw s)
    (s : State) (imageType : ℕ) (hot : Bool) :
    vw (bootFailed s imageType hot) = vw s := by
  unfold bootFailed
  repeat' first | with_reducible rfl | with_reducible refine (foldlState vw _ (fun s a => ?_) _ _).trans ?_ | simp only [chainStart_keeps vw (fun s t => hg s (footSec s t)), updSeqs_keeps vw (fun s t => hg s (footSeqs s t)), journal_keeps vw (fun s t => hg s (footDicObs s t)), objInc_keeps vw (fun s t => hg s (footDic s t)), chooseBank_keeps vw (fun s t => hg s (footDicSeqsSec s t)), beginCold_keeps vw hg, enterRecovery_keeps vw hg, trialFailed_keeps vw (fun s t => hg s (footDicSeqs s t)), foldlState vw, id_eq] | split

theorem acceptImages_keeps {γ : Type} (vw : State → γ) (hg : ∀ s t, vw (footSec s t) = vw s)
    (s : State) (is : List ImageInfo) :
    vw (acceptImages s is) = vw s := by
  unfold acceptImages
  repeat' first | with_reducible rfl | with_reducible refine (foldlState vw _ (fun s a => ?_) _ _).trans ?_ | simp only [measImage_keeps vw hg, updSec_keeps vw hg, foldlState vw, id_eq] | split

theorem bankBooted_keeps {γ : Type} (vw : State → γ) (hg : ∀ s t, vw (footDicSec s t) = vw s)
    (s : State) :
    vw (bankBooted s) = vw s := by
  unfold bankBooted
  repeat' first | with_reducible rfl | with_reducible refine (foldlState vw _ (fun s a => ?_) _ _).trans ?_ | simp only [putBank_keeps vw (fun s t => hg s (footSec s t)), objPut_keeps vw (fun s t => hg s (footDic s t)), foldlState vw, id_eq] | split

theorem coresRun_keeps {γ : Type} (vw : State → γ) (hg : ∀ s t, vw (footCoresSeqs s t) = vw s)
    (s : State) (halfE : Bool) :
    vw (coresRun s halfE) = vw s := by
  have h0 : ∀ s x0, vw { s with cores := x0 } = vw s := fun s x0 => hg s { s with cores := x0 }
  unfold coresRun
  repeat' first | with_reducible rfl | with_reducible refine (foldlState vw _ (fun s a => ?_) _ _).trans ?_ | simp only [h0, updSeqs_keeps vw (fun s t => hg s (footSeqs s t)), foldlState vw, id_eq] | split

theorem tellWires_keeps {γ : Type} (vw : State → γ) (hg : ∀ s t, vw (footDicObs s t) = vw s)
    (s : State) (b : ℕ) :
    vw (tellWires s b) = vw s := by
  unfold tellWires
  repeat' first | with_reducible rfl | with_reducible refine (foldlState vw _ (fun s a => ?_) _ _).trans ?_ | simp only [journal_keeps vw hg, foldlState vw, id_eq] | split

theorem trainBridge_keeps {γ : Type} (vw : State → γ) (hg : ∀ s t, vw (footDicBridgeObs s t) = vw s)
    (s : State) (failed : List (ℕ × ℕ)) :
    vw (trainBridge s failed) = vw s := by
  unfold trainBridge
  repeat' first | with_reducible rfl | with_reducible refine (foldlState vw _ (fun s a => ?_) _ _).trans ?_ | simp only [objPut_keeps vw (fun s t => hg s (footDic s t)), tellWires_keeps vw (fun s t => hg s (footDicObs s t)), updBridge_keeps vw (fun s t => hg s (footBridge s t)), foldlState vw, id_eq] | split

theorem noRegion_keeps {γ : Type} (vw : State → γ) (hg : ∀ s t, vw (footHost s t) = vw s)
    (s : State) :
    vw (noRegion s) = vw s := by
  unfold noRegion
  repeat' first | with_reducible rfl | with_reducible refine (foldlState vw _ (fun s a => ?_) _ _).trans ?_ | simp only [updHost_keeps vw hg, foldlState vw, id_eq] | split

theorem trainChannel_keeps {γ : Type} (vw : State → γ) (hg : ∀ s t, vw (footDicChansObs s t) = vw s)
    (failed : List ℕ) (s : State) (ch : ℕ) :
    vw (trainChannel failed s ch) = vw s := by
  unfold trainChannel
  repeat' first | with_reducible rfl | with_reducible refine (foldlState vw _ (fun s a => ?_) _ _).trans ?_ | simp only [updChan_keeps vw (fun s t => hg s (footChans s t)), objPut_keeps vw (fun s t => hg s (footDic s t)), journalAlert_keeps vw (fun s t => hg s (footDicObs s t)), foldlState vw, id_eq] | split

theorem trainMemory_keeps {γ : Type} (vw : State → γ) (hg : ∀ s t, vw (foot4_2 s t) = vw s)
    (s : State) (failed : List ℕ) :
    vw (trainMemory s failed) = vw s := by
  unfold trainMemory
  repeat' first | with_reducible rfl | with_reducible refine (foldlState vw _ (fun s a => ?_) _ _).trans ?_ | simp only [trainChannel_keeps vw (fun s t => hg s (footDicChansObs s t)), objPut_keeps vw (fun s t => hg s (footDic s t)), noRegion_keeps vw (fun s t => hg s (footHost s t)), foldlState vw, id_eq] | split

theorem hardRepair_keeps {γ : Type} (vw : State → γ) (hg : ∀ s t, vw (footDicPersistRepairs s t) = vw s)
    (s : State) :
    vw (hardRepair s) = vw s := by
  have h0 : ∀ s x0, vw { s with repairs := x0 } = vw s := fun s x0 => hg s { s with repairs := x0 }
  unfold hardRepair
  repeat' first | with_reducible rfl | with_reducible refine (foldlState vw _ (fun s a => ?_) _ _).trans ?_ | simp only [h0, objPut_keeps vw (fun s t => hg s (footDic s t)), notePersist_keeps vw (fun s t => hg s (footPersist s t)), foldlState vw, id_eq] | split

theorem laserReport_keeps {γ : Type} (vw : State → γ) (hg : ∀ s t, vw (footDicObs s t) = vw s)
    (s : State) (k : ℕ) (e : LaserExam) (x1 : ℕ) :
    vw (laserReport s k e x1) = vw s := by
  unfold laserReport
  repeat' first | with_reducible rfl | with_reducible refine (foldlState vw _ (fun s a => ?_) _ _).trans ?_ | simp only [journal_keeps vw hg, journalAlert_keeps vw hg, foldlState vw, id_eq] | split

theorem excludeLines_keeps {γ : Type} (vw : State → γ) (hg : ∀ s t, vw (footSpecMap s t) = vw s)
    (s : State) (k : ℕ) (lines : ℕ) :
    vw (excludeLines s k lines) = vw s := by
  unfold excludeLines
  repeat' first | with_reducible rfl | with_reducible refine (foldlState vw _ (fun s a => ?_) _ _).trans ?_ | simp only [updSpec_keeps vw hg, foldlState vw, id_eq] | split

theorem tapFibres_keeps {γ : Type} (vw : State → γ) (hg : ∀ s t, vw (footDicTappedObs s t) = vw s)
    (s : State) (k : ℕ) (e : LaserExam) :
    vw (tapFibres s k e) = vw s := by
  have h0 : ∀ s x0, vw { s with tapped := x0 } = vw s := fun s x0 => hg s { s with tapped := x0 }
  unfold tapFibres
  repeat' first | with_reducible rfl | with_reducible refine (foldlState vw _ (fun s a => ?_) _ _).trans ?_ | simp only [h0, journalAlert_keeps vw (fun s t => hg s (footDicObs s t)), foldlState vw, id_eq] | split

theorem examineLaser_keeps {γ : Type} (vw : State → γ) (hg : ∀ s t, vw (foot5_2 s t) = vw s)
    (s : State) (x : LaserExam × ℕ) :
    vw (examineLaser s x) = vw s := by
  unfold examineLaser
  repeat' first | with_reducible rfl | with_reducible refine (foldlState vw _ (fun s a => ?_) _ _).trans ?_ | simp only [tapFibres_keeps vw (fun s t => hg s (footDicTappedObs s t)), laserReport_keeps vw (fun s t => hg s (footDicObs s t)), updLaser_keeps vw (fun s t => hg s (footLasers s t)), excludeLines_keeps vw (fun s t => hg s (footSpecMap s t)), objPut_keeps vw (fun s t => hg s (footDic s t)), foldlState vw, id_eq] | split

theorem examineLasers_keeps {γ : Type} (vw : State → γ) (hg : ∀ s t, vw (foot5_2 s t) = vw s)
    (s : State) (es : List LaserExam) :
    vw (examineLasers s es) = vw s := by
  unfold examineLasers
  repeat' first | with_reducible rfl | with_reducible refine (foldlState vw _ (fun s a => ?_) _ _).trans ?_ | simp only [examineLaser_keeps vw hg, foldlState vw, id_eq] | split

theorem foundRing_keeps {γ : Type} (vw : State → γ) (hg : ∀ s t, vw (footRings s t) = vw s)
    (s : State) (r : ℕ) :
    vw (foundRing s r) = vw s := by
  unfold foundRing
  repeat' first | with_reducible rfl | with_reducible refine (foldlState vw _ (fun s a => ?_) _ _).trans ?_ | simp only [updRing_keeps vw hg, foldlState vw, id_eq] | split

theorem sweepRing_keeps {γ : Type} (vw : State → γ) (hg : ∀ s t, vw (foot14_0 s t) = vw s)
    (unlocked : List ℕ) (again : List ℕ) (cold : Bool) (s : State) (r : ℕ) :
    vw (sweepRing unlocked again cold s r) = vw s := by
  unfold sweepRing
  repeat' first | with_reducible rfl | with_reducible refine (foldlState vw _ (fun s a => ?_) _ _).trans ?_ | simp only [foundRing_keeps vw (fun s t => hg s (footRings s t)), updSpec_keeps vw (fun s t => hg s (footSpecMap s t)), setRingRetired_keeps vw (fun s t => hg s (footPersistDoms s t)), retireRing_keeps vw hg, updRing_keeps vw (fun s t => hg s (footRings s t)), foldlState vw, id_eq] | split

theorem startRotor_keeps {γ : Type} (vw : State → γ) (hg : ∀ s t, vw (footRotorsSpecMap s t) = vw s)
    (s : State) (x : ℕ) :
    vw (startRotor s x) = vw s := by
  unfold startRotor
  repeat' first | with_reducible rfl | with_reducible refine (foldlState vw _ (fun s a => ?_) _ _).trans ?_ | simp only [updSpec_keeps vw (fun s t => hg s (footSpecMap s t)), updRotor_keeps vw (fun s t => hg s (footRotors s t)), foldlState vw, id_eq] | split

theorem sweepAll_keeps {γ : Type} (vw : State → γ) (hg : ∀ s t, vw (foot16 s t) = vw s)
    (s : State) (unlocked : List ℕ) (again : List ℕ) (cold : Bool) :
    vw (sweepAll s unlocked again cold) = vw s := by
  have h0 : ∀ s x0, vw { s with free := x0 } = vw s := fun s x0 => hg s { s with free := x0 }
  unfold sweepAll
  repeat' first | with_reducible rfl | with_reducible refine (foldlState vw _ (fun s a => ?_) _ _).trans ?_ | simp only [h0, sweepRing_keeps vw (fun s t => hg s (foot14_0 s t)), moveRef_keeps vw (fun s t => hg s (footDicLasersObs s t)), startRotor_keeps vw (fun s t => hg s (footRotorsSpecMap s t)), foldlState vw, id_eq] | split

theorem confirmTrial_keeps {γ : Type} (vw : State → γ) (hg : ∀ s t, vw (footDicSeqs s t) = vw s)
    (s : State) :
    vw (confirmTrial s) = vw s := by
  unfold confirmTrial
  repeat' first | with_reducible rfl | with_reducible refine (foldlState vw _ (fun s a => ?_) _ _).trans ?_ | simp only [updSeqs_keeps vw (fun s t => hg s (footSeqs s t)), objPut_keeps vw (fun s t => hg s (footDic s t)), foldlState vw, id_eq] | split

theorem endStart_keeps {γ : Type} (vw : State → γ) (hg : ∀ s t, vw (foot9_0 s t) = vw s)
    (s : State) :
    vw (endStart s) = vw s := by
  have h0 : ∀ s x0, vw { s with arrays := x0 } = vw s := fun s x0 => hg s { s with arrays := x0 }
  unfold endStart
  repeat' first | with_reducible rfl | with_reducible refine (foldlState vw _ (fun s a => ?_) _ _).trans ?_ | simp only [h0, greyAll_keeps vw (fun s t => hg s (foot6_3 s t)), confirmTrial_keeps vw (fun s t => hg s (footDicSeqs s t)), objPut_keeps vw (fun s t => hg s (footDic s t)), noRegion_keeps vw (fun s t => hg s (footHost s t)), foldlState vw, id_eq] | split

theorem coldDone_keeps {γ : Type} (vw : State → γ) (hg : ∀ s t, vw (foot9_0 s t) = vw s)
    (s : State) :
    vw (coldDone s) = vw s := by
  unfold coldDone
  repeat' first | with_reducible rfl | with_reducible refine (foldlState vw _ (fun s a => ?_) _ _).trans ?_ | simp only [updSeqs_keeps vw (fun s t => hg s (footSeqs s t)), endStart_keeps vw hg, objPut_keeps vw (fun s t => hg s (footDic s t)), foldlState vw, id_eq] | split

theorem startWarm_keeps {γ : Type} (vw : State → γ) (hg : ∀ s t, vw (foot20_1 s t) = vw s)
    (s : State) (cause : ℕ) :
    vw (startWarm s cause) = vw s := by
  unfold startWarm
  repeat' first | with_reducible rfl | with_reducible refine (foldlState vw _ (fun s a => ?_) _ _).trans ?_ | simp only [updSeqs_keeps vw (fun s t => hg s (footSeqs s t)), journal_keeps vw (fun s t => hg s (footDicObs s t)), objInc_keeps vw (fun s t => hg s (footDic s t)), mbxEnd_keeps vw (fun s t => hg s (footOutHost s t)), objPut_keeps vw (fun s t => hg s (footDic s t)), clearEngines_keeps vw (fun s t => hg s (foot15_0 s t)), foldlState vw, id_eq] | split

theorem autoWarm_keeps {γ : Type} (vw : State → γ) (hg : ∀ s t, vw (footRun s t) = vw s)
    (s : State) :
    vw (autoWarm s) = vw s := by
  unfold autoWarm
  repeat' first | with_reducible rfl | with_reducible refine (foldlState vw _ (fun s a => ?_) _ _).trans ?_ | simp only [updSeqs_keeps vw (fun s t => hg s (footSeqs s t)), startWarm_keeps vw (fun s t => hg s (foot20_1 s t)), beginCold_keeps vw hg, objPut_keeps vw (fun s t => hg s (footDic s t)), foldlState vw, id_eq] | split

theorem warmDone_keeps {γ : Type} (vw : State → γ) (hg : ∀ s t, vw (foot9_0 s t) = vw s)
    (s : State) :
    vw (warmDone s) = vw s := by
  unfold warmDone
  repeat' first | with_reducible rfl | with_reducible refine (foldlState vw _ (fun s a => ?_) _ _).trans ?_ | simp only [endStart_keeps vw hg, objPut_keeps vw (fun s t => hg s (footDic s t)), foldlState vw, id_eq] | split

theorem updPower_keeps {γ : Type} (vw : State → γ) (hg : ∀ s t, vw (footPower s t) = vw s)
    (s : State) (f : Power → Power) :
    vw (updPower s f) = vw s := by
  have h0 : ∀ s x0, vw { s with power := x0 } = vw s := fun s x0 => hg s { s with power := x0 }
  unfold updPower
  repeat' first | with_reducible rfl | with_reducible refine (foldlState vw _ (fun s a => ?_) _ _).trans ?_ | simp only [h0, foldlState vw, id_eq] | split

theorem updDom_keeps {γ : Type} (vw : State → γ) (hg : ∀ s t, vw (footPower s t) = vw s)
    (s : State) (d : ℕ) (f : Dom → Dom) :
    vw (updDom s d f) = vw s := by
  unfold updDom
  repeat' first | with_reducible rfl | with_reducible refine (foldlState vw _ (fun s a => ?_) _ _).trans ?_ | simp only [updPower_keeps vw hg, foldlState vw, id_eq] | split

theorem updSite_keeps {γ : Type} (vw : State → γ) (hg : ∀ s t, vw (footPower s t) = vw s)
    (s : State) (n : ℕ) (f : Site → Site) :
    vw (updSite s n f) = vw s := by
  unfold updSite
  repeat' first | with_reducible rfl | with_reducible refine (foldlState vw _ (fun s a => ?_) _ _).trans ?_ | simp only [updPower_keeps vw hg, foldlState vw, id_eq] | split

theorem settleVolts_keeps {γ : Type} (vw : State → γ) (hg : ∀ s t, vw (footDicPower s t) = vw s)
    (s : State) :
    vw (settleVolts s) = vw s := by
  unfold settleVolts
  repeat' first | with_reducible rfl | with_reducible refine (foldlState vw _ (fun s a => ?_) _ _).trans ?_ | simp only [updDom_keeps vw (fun s t => hg s (footPower s t)), objPut_keeps vw (fun s t => hg s (footDic s t)), foldlState vw, id_eq] | split

theorem ceilingRose_keeps {γ : Type} (vw : State → γ) (hg : ∀ s t, vw (footDicPower s t) = vw s)
    (s : State) (ds : List ℕ) :
    vw (ceilingRose s ds) = vw s := by
  unfold ceilingRose
  repeat' first | with_reducible rfl | with_reducible refine (foldlState vw _ (fun s a => ?_) _ _).trans ?_ | simp only [updDom_keeps vw (fun s t => hg s (footPower s t)), settleVolts_keeps vw hg, foldlState vw, id_eq] | split

theorem noteSupply_keeps {γ : Type} (vw : State → γ) (hg : ∀ s t, vw (footDic s t) = vw s)
    (s : State) (mv : ℤ) :
    vw (noteSupply s mv) = vw s := by
  unfold noteSupply
  repeat' first | with_reducible rfl | with_reducible refine (foldlState vw _ (fun s a => ?_) _ _).trans ?_ | simp only [objPut_keeps vw hg, foldlState vw, id_eq] | split

theorem endPale_keeps {γ : Type} (vw : State → γ) (hg : ∀ s t, vw (footDicPower s t) = vw s)
    (s : State) :
    vw (endPale s) = vw s := by
  unfold endPale
  repeat' first | with_reducible rfl | with_reducible refine (foldlState vw _ (fun s a => ?_) _ _).trans ?_ | simp only [ceilingRose_keeps vw hg, updPower_keeps vw (fun s t => hg s (footPower s t)), objInc_keeps vw (fun s t => hg s (footDic s t)), objMax_keeps vw (fun s t => hg s (footDic s t)), foldlState vw, id_eq] | split

theorem unpower_keeps {γ : Type} (vw : State → γ) (hg : ∀ s t, vw (footRun s t) = vw s)
    (s : State) :
    vw (unpower s) = vw s := by
  have h0 : ∀ s x0 x1 x2 x3 x4 x5 x6, vw { s with dic := x0, mgmt := x1, power := x2, seqs := x3, sec := x4, iface := x5, obs := x6 } = vw s := fun s x0 x1 x2 x3 x4 x5 x6 => hg s { s with dic := x0, mgmt := x1, power := x2, seqs := x3, sec := x4, iface := x5, obs := x6 }
  unfold unpower
  repeat' first | with_reducible rfl | with_reducible refine (foldlState vw _ (fun s a => ?_) _ _).trans ?_ | simp only [h0, mainOff_keeps vw hg, foldlState vw, id_eq] | split

theorem flagSensor_keeps {γ : Type} (vw : State → γ) (hg : ∀ s t, vw (footDicPowerObs s t) = vw s)
    (s : State) (n : ℕ) (sensor : ℕ) :
    vw (flagSensor s n sensor) = vw s := by
  unfold flagSensor
  repeat' first | with_reducible rfl | with_reducible refine (foldlState vw _ (fun s a => ?_) _ _).trans ?_ | simp only [updSite_keeps vw (fun s t => hg s (footPower s t)), journalAlert_keeps vw (fun s t => hg s (footDicObs s t)), foldlState vw, id_eq] | split

theorem checkSensors_keeps {γ : Type} (vw : State → γ) (hg : ∀ s t, vw (footDicPowerObs s t) = vw s)
    (s : State) (n : ℕ) (olds : List (ℤ × ℤ)) (r0 : ℤ) (r1 : ℤ) :
    vw (checkSensors s n olds r0 r1) = vw s := by
  unfold checkSensors
  repeat' first | with_reducible rfl | with_reducible refine (foldlState vw _ (fun s a => ?_) _ _).trans ?_ | simp only [flagSensor_keeps vw hg, foldlState vw, id_eq] | split

theorem timeSite_keeps {γ : Type} (vw : State → γ) (hg : ∀ s t, vw (footPower s t) = vw s)
    (s : State) (n : ℕ) :
    vw (timeSite s n) = vw s := by
  unfold timeSite
  repeat' first | with_reducible rfl | with_reducible refine (foldlState vw _ (fun s a => ?_) _ _).trans ?_ | simp only [updSite_keeps vw hg, foldlState vw, id_eq] | split

theorem reportSite_keeps {γ : Type} (vw : State → γ) (hg : ∀ s t, vw (footDic s t) = vw s)
    (s : State) (n : ℕ) :
    vw (reportSite s n) = vw s := by
  unfold reportSite
  repeat' first | with_reducible rfl | with_reducible refine (foldlState vw _ (fun s a => ?_) _ _).trans ?_ | simp only [objPut_keeps vw hg, foldlState vw, id_eq] | split

theorem redDom_keeps {γ : Type} (vw : State → γ) (hg : ∀ s t, vw (footDicPower s t) = vw s)
    (s : State) (d : ℕ) :
    vw (redDom s d) = vw s := by
  unfold redDom
  repeat' first | with_reducible rfl | with_reducible refine (foldlState vw _ (fun s a => ?_) _ _).trans ?_ | simp only [objInc_keeps vw (fun s t => hg s (footDic s t)), updDom_keeps vw (fun s t => hg s (footPower s t)), foldlState vw, id_eq] | split

theorem checkRed_keeps {γ : Type} (vw : State → γ) (hg : ∀ s t, vw (footDicPower s t) = vw s)
    (s : State) (n : ℕ) :
    vw (checkRed s n) = vw s := by
  unfold checkRed
  repeat' first | with_reducible rfl | with_reducible refine (foldlState vw _ (fun s a => ?_) _ _).trans ?_ | simp only [redDom_keeps vw hg, updSite_keeps vw (fun s t => hg s (footPower s t)), settleVolts_keeps vw hg, foldlState vw, id_eq] | split

theorem blackShutdown_keeps {γ : Type} (vw : State → γ) (hg : ∀ s t, vw (footRun s t) = vw s)
    (s : State) (n : ℕ) (trigger : ℕ) :
    vw (blackShutdown s n trigger) = vw s := by
  have h0 : ∀ s x0 x1, vw { s with recovery := x0, mgmt := x1 } = vw s := fun s x0 x1 => hg s { s with recovery := x0, mgmt := x1 }
  unfold blackShutdown
  repeat' first | with_reducible rfl | with_reducible refine (foldlState vw _ (fun s a => ?_) _ _).trans ?_ | simp only [h0, updSeqs_keeps vw (fun s t => hg s (footSeqs s t)), updPower_keeps vw (fun s t => hg s (footPower s t)), objInc_keeps vw (fun s t => hg s (footDic s t)), mainOff_keeps vw hg, objPut_keeps vw (fun s t => hg s (footDic s t)), setStep_keeps vw (fun s t => hg s (footDicSeqs s t)), journalAlert_keeps vw (fun s t => hg s (footDicObs s t)), settleVolts_keeps vw (fun s t => hg s (footDicPower s t)), foldlState vw, id_eq] | split

theorem checkBlack_keeps {γ : Type} (vw : State → γ) (hg : ∀ s t, vw (footRun s t) = vw s)
    (s : State) (n : ℕ) :
    vw (checkBlack s n) = vw s := by
  unfold checkBlack
  repeat' first | with_reducible rfl | with_reducible refine (foldlState vw _ (fun s a => ?_) _ _).trans ?_ | simp only [blackShutdown_keeps vw hg, foldlState vw, id_eq] | split

theorem readSite_keeps {γ : Type} (vw : State → γ) (hg : ∀ s t, vw (footRun s t) = vw s)
    (s : State) (n : ℕ) (r0 : ℤ) (r1 : ℤ) :
    vw (readSite s n r0 r1) = vw s := by
  unfold readSite
  repeat' first | with_reducible rfl | with_reducible refine (foldlState vw _ (fun s a => ?_) _ _).trans ?_ | simp only [checkRed_keeps vw (fun s t => hg s (footDicPower s t)), checkBlack_keeps vw hg, checkSensors_keeps vw (fun s t => hg s (footDicPowerObs s t)), updPower_keeps vw (fun s t => hg s (footPower s t)), timeSite_keeps vw (fun s t => hg s (footPower s t)), reportSite_keeps vw (fun s t => hg s (footDic s t)), updSite_keeps vw (fun s t => hg s (footPower s t)), foldlState vw, id_eq] | split

theorem stepDom_keeps {γ : Type} (vw : State → γ) (hg : ∀ s t, vw (footPower s t) = vw s)
    (h : Half) (s : State) (d : ℕ) :
    vw (stepDom h s d) = vw s := by
  unfold stepDom
  repeat' first | with_reducible rfl | with_reducible refine (foldlState vw _ (fun s a => ?_) _ _).trans ?_ | simp only [updDom_keeps vw hg, foldlState vw, id_eq] | split

theorem notePower_keeps {γ : Type} (vw : State → γ) (hg : ∀ s t, vw (footDicPower s t) = vw s)
    (s : State) (watts : ℕ) :
    vw (notePower s watts) = vw s := by
  unfold notePower
  repeat' first | with_reducible rfl | with_reducible refine (foldlState vw _ (fun s a => ?_) _ _).trans ?_ | simp only [updPower_keeps vw (fun s t => hg s (footPower s t)), objPut_keeps vw (fun s t => hg s (footDic s t)), foldlState vw, id_eq] | split

theorem stepHalf_keeps {γ : Type} (vw : State → γ) (hg : ∀ s t, vw (footDicPower s t) = vw s)
    (s : State) (h : Half) (watts : ℕ) :
    vw (stepHalf s h watts) = vw s := by
  unfold stepHalf
  repeat' first | with_reducible rfl | with_reducible refine (foldlState vw _ (fun s a => ?_) _ _).trans ?_ | simp only [stepDom_keeps vw (fun s t => hg s (footPower s t)), notePower_keeps vw hg, settleVolts_keeps vw hg, foldlState vw, id_eq] | split

theorem updCore_keeps {γ : Type} (vw : State → γ) (hg : ∀ s t, vw (footCores s t) = vw s)
    (s : State) (i : ℕ) (f : Core → Core) :
    vw (updCore s i f) = vw s := by
  have h0 : ∀ s x0, vw { s with cores := x0 } = vw s := fun s x0 => hg s { s with cores := x0 }
  unfold updCore
  repeat' first | with_reducible rfl | with_reducible refine (foldlState vw _ (fun s a => ?_) _ _).trans ?_ | simp only [h0, foldlState vw, id_eq] | split

theorem markScheds_keeps {γ : Type} (vw : State → γ) (hg : ∀ s t, vw (footQueues s t) = vw s)
    (s : State) :
    vw (markScheds s) = vw s := by
  have h0 : ∀ s x0, vw { s with queues := x0 } = vw s := fun s x0 => hg s { s with queues := x0 }
  unfold markScheds
  repeat' first | with_reducible rfl | with_reducible refine (foldlState vw _ (fun s a => ?_) _ _).trans ?_ | simp only [h0, foldlState vw, id_eq] | split

theorem failCheckpoint_keeps {γ : Type} (vw : State → γ) (hg : ∀ s t, vw (foot6_14 s t) = vw s)
    (s : State) :
    vw (failCheckpoint s) = vw s := by
  unfold failCheckpoint
  repeat' first | with_reducible rfl | with_reducible refine (foldlState vw _ (fun s a => ?_) _ _).trans ?_ | simp only [updSeqs_keeps vw (fun s t => hg s (footSeqs s t)), journal_keeps vw (fun s t => hg s (footDicObs s t)), takeDoorbells_keeps vw (fun s t => hg s (foot4_27 s t)), objPut_keeps vw (fun s t => hg s (footDic s t)), foldlState vw, id_eq] | split

theorem abortSteps_keeps {γ : Type} (vw : State → γ) (hg : ∀ s t, vw (foot4_11 s t) = vw s)
    (s : State) (first : ℕ) :
    vw (abortSteps s first) = vw s := by
  unfold abortSteps
  repeat' first | with_reducible rfl | with_reducible refine (foldlState vw _ (fun s a => ?_) _ _).trans ?_ | simp only [abortTold_keeps vw hg, foldlState vw, id_eq] | split

theorem watchdog_keeps {γ : Type} (vw : State → γ) (hg : ∀ s t, vw (footRun s t) = vw s)
    (s : State) (i : ℕ) (pc : ℕ) :
    vw (watchdog s i pc) = vw s := by
  unfold watchdog
  repeat' first | with_reducible rfl | with_reducible refine (foldlState vw _ (fun s a => ?_) _ _).trans ?_ | simp only [updCore_keeps vw (fun s t => hg s (footCores s t)), journal_keeps vw (fun s t => hg s (footDicObs s t)), markScheds_keeps vw (fun s t => hg s (footQueues s t)), autoWarm_keeps vw hg, failCheckpoint_keeps vw (fun s t => hg s (foot6_14 s t)), abortSteps_keeps vw (fun s t => hg s (foot4_11 s t)), foldlState vw, id_eq] | split

theorem coreBack_keeps {γ : Type} (vw : State → γ) (hg : ∀ s t, vw (foot5_14 s t) = vw s)
    (s : State) (i : ℕ) :
    vw (coreBack s i) = vw s := by
  unfold coreBack
  repeat' first | with_reducible rfl | with_reducible refine (foldlState vw _ (fun s a => ?_) _ _).trans ?_ | simp only [updCore_keeps vw (fun s t => hg s (footCores s t)), markScheds_keeps vw (fun s t => hg s (footQueues s t)), objInc_keeps vw (fun s t => hg s (footDic s t)), emit_keeps vw (fun s t => hg s (footOut s t)), takeDoorbells_keeps vw (fun s t => hg s (foot4_27 s t)), foldlState vw, id_eq] | split

theorem endPaleWait_keeps {γ : Type} (vw : State → γ) (hg : ∀ s t, vw (footRun s t) = vw s)
    (s : State) :
    vw (endPaleWait s) = vw s := by
  unfold endPaleWait
  repeat' first | with_reducible rfl | with_reducible refine (foldlState vw _ (fun s a => ?_) _ _).trans ?_ | simp only [coldStart_keeps vw hg, foldlState vw, id_eq] | split

theorem supplyDown_keeps {γ : Type} (vw : State → γ) (hg : ∀ s t, vw (footRun s t) = vw s)
    (s : State) :
    vw (supplyDown s) = vw s := by
  unfold supplyDown
  repeat' first | with_reducible rfl | with_reducible refine (foldlState vw _ (fun s a => ?_) _ _).trans ?_ | simp only [unpower_keeps vw hg, updPower_keeps vw (fun s t => hg s (footPower s t)), coldStart_keeps vw hg, foldlState vw, id_eq] | split

theorem leaveBlack_keeps {γ : Type} (vw : State → γ) (hg : ∀ s t, vw (footRun s t) = vw s)
    (s : State) :
    vw (leaveBlack s) = vw s := by
  unfold leaveBlack
  repeat' first | with_reducible rfl | with_reducible refine (foldlState vw _ (fun s a => ?_) _ _).trans ?_ | simp only [updPower_keeps vw (fun s t => hg s (footPower s t)), coldStart_keeps vw hg, foldlState vw, id_eq] | split

theorem runAsked_keeps {γ : Type} (vw : State → γ) (hg : ∀ s t, vw (footRun s t) = vw s)
    (s : State) :
    vw (runAsked s) = vw s := by
  unfold runAsked
  repeat' first | with_reducible rfl | with_reducible refine (foldlState vw _ (fun s a => ?_) _ _).trans ?_ | simp only [updSeqs_keeps vw (fun s t => hg s (footSeqs s t)), startWarm_keeps vw (fun s t => hg s (foot20_1 s t)), coldStart_keeps vw hg, leaveBlack_keeps vw hg, foldlState vw, id_eq] | split

theorem askRestart_keeps {γ : Type} (vw : State → γ) (hg : ∀ s t, vw (footSeqs s t) = vw s)
    (s : State) (n : ℕ) :
    vw (askRestart s n) = vw s := by
  unfold askRestart
  repeat' first | with_reducible rfl | with_reducible refine (foldlState vw _ (fun s a => ?_) _ _).trans ?_ | simp only [updSeqs_keeps vw hg, foldlState vw, id_eq] | split

theorem writeThermalRestart_keeps {γ : Type} (vw : State → γ) (hg : ∀ s t, vw (footRun s t) = vw s)
    (r : Route) (v : Bytes) (s : State) :
    vw (writeThermalRestart r v s) = vw s := by
  have k_writeRow := writeRow_keeps vw (fun s t => hg s (foot6_13 s t))
  unfold writeThermalRestart
  repeat' first | with_reducible rfl | with_reducible refine (foldlState vw _ (fun s a => ?_) _ _).trans ?_ | with_reducible refine (k_writeRow _ _ _ _ _ _ _ (fun _ _ => ?_)).trans ?_ | simp only [updPower_keeps vw (fun s t => hg s (footPower s t)), askRestart_keeps vw (fun s t => hg s (footSeqs s t)), writeRow_keeps vw (fun s t => hg s (foot6_13 s t)), runAsked_keeps vw hg, foldlState vw, id_eq] | split

theorem posRead_keeps {γ : Type} (vw : State → γ) (hg : ∀ s t, vw (footDicObs s t) = vw s)
    (s : State) :
    vw (posRead s) = vw s := by
  unfold posRead
  repeat' first | with_reducible rfl | with_reducible refine (foldlState vw _ (fun s a => ?_) _ _).trans ?_ | simp only [journal_keeps vw hg, objPut_keeps vw (fun s t => hg s (footDic s t)), foldlState vw, id_eq] | split

theorem powerUp_keeps {γ : Type} (vw : State → γ) (hg : ∀ s t, vw (footRun s t) = vw s)
    (s : State) (straps : ℕ) (aux : Bool) :
    vw (powerUp s straps aux) = vw s := by
  unfold powerUp
  repeat' first | with_reducible rfl | with_reducible refine (foldlState vw _ (fun s a => ?_) _ _).trans ?_ | simp only [updSeqs_keeps vw (fun s t => hg s (footSeqs s t)), updPower_keeps vw (fun s t => hg s (footPower s t)), beginCold_keeps vw hg, objPut_keeps vw (fun s t => hg s (footDic s t)), foldlState vw, id_eq] | split

theorem endWait_keeps {γ : Type} (vw : State → γ) (hg : ∀ s t, vw (footDicSeqsObs s t) = vw s)
    (s : State) :
    vw (endWait s) = vw s := by
  unfold endWait
  repeat' first | with_reducible rfl | with_reducible refine (foldlState vw _ (fun s a => ?_) _ _).trans ?_ | simp only [updSeqs_keeps vw (fun s t => hg s (footSeqs s t)), posRead_keeps vw (fun s t => hg s (footDicObs s t)), foldlState vw, id_eq] | split

theorem stepTwo_keeps {γ : Type} (vw : State → γ) (hg : ∀ s t, vw (foot4_14 s t) = vw s)
    (s : State) (trained : Bool) :
    vw (stepTwo s trained) = vw s := by
  unfold stepTwo
  repeat' first | with_reducible rfl | with_reducible refine (foldlState vw _ (fun s a => ?_) _ _).trans ?_ | simp only [chainStart_keeps vw (fun s t => hg s (footSec s t)), updSeqs_keeps vw (fun s t => hg s (footSeqs s t)), posRead_keeps vw (fun s t => hg s (footDicObs s t)), chooseBank_keeps vw (fun s t => hg s (footDicSeqsSec s t)), objPut_keeps vw (fun s t => hg s (footDic s t)), setStep_keeps vw (fun s t => hg s (footDicSeqs s t)), foldlState vw, id_eq] | split

theorem stepThree_keeps {γ : Type} (vw : State → γ) (hg : ∀ s t, vw (footRun s t) = vw s)
    (s : State) (is : List ImageInfo) :
    vw (stepThree s is) = vw s := by
  unfold stepThree
  repeat' first | with_reducible rfl | with_reducible refine (foldlState vw _ (fun s a => ?_) _ _).trans ?_ | simp only [updSeqs_keeps vw (fun s t => hg s (footSeqs s t)), bootFailed_keeps vw hg, setStep_keeps vw (fun s t => hg s (footDicSeqs s t)), acceptImages_keeps vw (fun s t => hg s (footSec s t)), foldlState vw, id_eq] | split

theorem stepFour_keeps {γ : Type} (vw : State → γ) (hg : ∀ s t, vw (footDicPowerSeqs s t) = vw s)
    (s : State) (mj : ℕ) :
    vw (stepFour s mj) = vw s := by
  unfold stepFour
  repeat' first | with_reducible rfl | with_reducible refine (foldlState vw _ (fun s a => ?_) _ _).trans ?_ | simp only [updPower_keeps vw (fun s t => hg s (footPower s t)), objPut_keeps vw (fun s t => hg s (footDic s t)), setStep_keeps vw (fun s t => hg s (footDicSeqs s t)), settleVolts_keeps vw (fun s t => hg s (footDicPower s t)), foldlState vw, id_eq] | split

theorem railFail_keeps {γ : Type} (vw : State → γ) (hg : ∀ s t, vw (foot4_10 s t) = vw s)
    (s : State) (d : ℕ) :
    vw (railFail s d) = vw s := by
  unfold railFail
  repeat' first | with_reducible rfl | with_reducible refine (foldlState vw _ (fun s a => ?_) _ _).trans ?_ | simp only [updSeqs_keeps vw (fun s t => hg s (footSeqs s t)), railsOff_keeps vw (fun s t => hg s (footPower s t)), journalAlert_keeps vw (fun s t => hg s (footDicObs s t)), foldlState vw, id_eq] | split

theorem stepFive_keeps {γ : Type} (vw : State → γ) (hg : ∀ s t, vw (footRun s t) = vw s)
    (s : State) (is : List ImageInfo) :
    vw (stepFive s is) = vw s := by
  unfold stepFive
  repeat' first | with_reducible rfl | with_reducible refine (foldlState vw _ (fun s a => ?_) _ _).trans ?_ | simp only [updSeqs_keeps vw (fun s t => hg s (footSeqs s t)), bootFailed_keeps vw hg, bankBooted_keeps vw (fun s t => hg s (footDicSec s t)), coresRun_keeps vw (fun s t => hg s (footCoresSeqs s t)), setStep_keeps vw (fun s t => hg s (footDicSeqs s t)), acceptImages_keeps vw (fun s t => hg s (footSec s t)), foldlState vw, id_eq] | split

theorem startStepDone_keeps {γ : Type} (vw : State → γ) (hg : ∀ s t, vw (footRun s t) = vw s)
    (s : State) (o : StepOutcome) :
    vw (startStepDone s o) = vw s := by
  unfold startStepDone
  repeat' first | with_reducible rfl | with_reducible refine (foldlState vw _ (fun s a => ?_) _ _).trans ?_ | simp only [railFail_keeps vw (fun s t => hg s (foot4_10 s t)), stepFive_keeps vw hg, examineLasers_keeps vw (fun s t => hg s (foot5_2 s t)), applyIntended_keeps vw (fun s t => hg s (foot6_3 s t)), coldDone_keeps vw (fun s t => hg s (foot9_0 s t)), stepFour_keeps vw (fun s t => hg s (footDicPowerSeqs s t)), stepTwo_keeps vw (fun s t => hg s (foot4_14 s t)), hardRepair_keeps vw (fun s t => hg s (footDicPersistRepairs s t)), sweepAll_keeps vw (fun s t => hg s (foot16 s t)), trainMemory_keeps vw (fun s t => hg s (foot4_2 s t)), trainBridge_keeps vw (fun s t => hg s (footDicBridgeObs s t)), stepThree_keeps vw hg, setStep_keeps vw (fun s t => hg s (footDicSeqs s t)), noRegion_keeps vw (fun s t => hg s (footHost s t)), foldlState vw, id_eq] | split

theorem writeColdRestart_keeps {γ : Type} (vw : State → γ) (hg : ∀ s t, vw (footRun s t) = vw s)
    (r : Route) (v : Bytes) (s : State) :
    vw (writeColdRestart r v s) = vw s := by
  have k_writeRow := writeRow_keeps vw (fun s t => hg s (foot6_13 s t))
  unfold writeColdRestart
  repeat' first | with_reducible rfl | with_reducible refine (foldlState vw _ (fun s a => ?_) _ _).trans ?_ | with_reducible refine (k_writeRow _ _ _ _ _ _ _ (fun _ _ => ?_)).trans ?_ | simp only [askRestart_keeps vw (fun s t => hg s (footSeqs s t)), writeRow_keeps vw (fun s t => hg s (foot6_13 s t)), runAsked_keeps vw hg, foldlState vw, id_eq] | split

theorem facetResend_keeps {γ : Type} (vw : State → γ) (hg : ∀ s t, vw (footDicLinks s t) = vw s)
    (s : State) (f : ℕ) :
    vw (facetResend s f) = vw s := by
  unfold facetResend
  repeat' first | with_reducible rfl | with_reducible refine (foldlState vw _ (fun s a => ?_) _ _).trans ?_ | simp only [resendFlit_keeps vw hg, foldlState vw, id_eq] | split

theorem writeWarmRestart_keeps {γ : Type} (vw : State → γ) (hg : ∀ s t, vw (footRun s t) = vw s)
    (r : Route) (v : Bytes) (s : State) :
    vw (writeWarmRestart r v s) = vw s := by
  have k_ask := ask_keeps vw (fun s t => hg s (foot4_25 s t))
  unfold writeWarmRestart
  repeat' first | with_reducible rfl | with_reducible refine (foldlState vw _ (fun s a => ?_) _ _).trans ?_ | with_reducible refine (k_ask _ _ _ _ _ _ _ (fun _ _ => ?_)).trans ?_ | simp only [applyNum_keeps vw (fun s t => hg s (footDicPersistObs s t)), askRestart_keeps vw (fun s t => hg s (footSeqs s t)), runAsked_keeps vw hg, ask_keeps vw (fun s t => hg s (foot4_25 s t)), foldlState vw, id_eq] | split

theorem warmStepTo_keeps {γ : Type} (vw : State → γ) (hg : ∀ s t, vw (footSeqs s t) = vw s)
    (s : State) (n : ℕ) :
    vw (warmStepTo s n) = vw s := by
  unfold warmStepTo
  repeat' first | with_reducible rfl | with_reducible refine (foldlState vw _ (fun s a => ?_) _ _).trans ?_ | simp only [updSeqs_keeps vw hg, foldlState vw, id_eq] | split

theorem warmReset_keeps {γ : Type} (vw : State → γ) (hg : ∀ s t, vw (footRun s t) = vw s)
    (s : State) :
    vw (warmReset s) = vw s := by
  unfold warmReset
  repeat' first | with_reducible rfl | with_reducible refine (foldlState vw _ (fun s a => ?_) _ _).trans ?_ | simp only [chainStart_keeps vw (fun s t => hg s (footSec s t)), dieReset_keeps vw hg, chooseBank_keeps vw (fun s t => hg s (footDicSeqsSec s t)), objPut_keeps vw (fun s t => hg s (footDic s t)), foldlState vw, id_eq] | split

theorem warmVerify_keeps {γ : Type} (vw : State → γ) (hg : ∀ s t, vw (footRun s t) = vw s)
    (s : State) (is : List ImageInfo) :
    vw (warmVerify s is) = vw s := by
  unfold warmVerify
  repeat' first | with_reducible rfl | with_reducible refine (foldlState vw _ (fun s a => ?_) _ _).trans ?_ | simp only [bootFailed_keeps vw hg, bankBooted_keeps vw (fun s t => hg s (footDicSec s t)), warmStepTo_keeps vw (fun s t => hg s (footSeqs s t)), acceptImages_keeps vw (fun s t => hg s (footSec s t)), foldlState vw, id_eq] | split

theorem warmStepDone_keeps {γ : Type} (vw : State → γ) (hg : ∀ s t, vw (footRun s t) = vw s)
    (s : State) (o : StepOutcome) :
    vw (warmStepDone s o) = vw s := by
  unfold warmStepDone
  repeat' first | with_reducible rfl | with_reducible refine (foldlState vw _ (fun s a => ?_) _ _).trans ?_ | simp only [warmVerify_keeps vw hg, examineLasers_keeps vw (fun s t => hg s (foot5_2 s t)), applyIntended_keeps vw (fun s t => hg s (foot6_3 s t)), coresRun_keeps vw (fun s t => hg s (footCoresSeqs s t)), sweepAll_keeps vw (fun s t => hg s (foot16 s t)), trainMemory_keeps vw (fun s t => hg s (foot4_2 s t)), warmDone_keeps vw (fun s t => hg s (foot9_0 s t)), trainBridge_keeps vw (fun s t => hg s (footDicBridgeObs s t)), warmReset_keeps vw hg, warmStepTo_keeps vw (fun s t => hg s (footSeqs s t)), objPut_keeps vw (fun s t => hg s (footDic s t)), noRegion_keeps vw (fun s t => hg s (footHost s t)), foldlState vw, id_eq] | split

theorem katPassed_keeps {γ : Type} (vw : State → γ) (hg : ∀ s t, vw (footDicArrays s t) = vw s)
    (s : State) (nn : ℕ) :
    vw (katPassed s nn) = vw s := by
  unfold katPassed
  repeat' first | with_reducible rfl | with_reducible refine (foldlState vw _ (fun s a => ?_) _ _).trans ?_ | simp only [objInc_keeps vw (fun s t => hg s (footDic s t)), updArray_keeps vw (fun s t => hg s (footArrays s t)), foldlState vw, id_eq] | split

theorem katFailed_keeps {γ : Type} (vw : State → γ) (hg : ∀ s t, vw (foot22_0 s t) = vw s)
    (s : State) (nn : ℕ) (pass : ℕ) :
    vw (katFailed s nn pass) = vw s := by
  unfold katFailed
  repeat' first | with_reducible rfl | with_reducible refine (foldlState vw _ (fun s a => ?_) _ _).trans ?_ | simp only [missEvent_keeps vw hg, journal_keeps vw (fun s t => hg s (footDicObs s t)), retireArray_keeps vw hg, objInc_keeps vw (fun s t => hg s (footDic s t)), updArray_keeps vw (fun s t => hg s (footArrays s t)), foldlState vw, id_eq] | split

theorem writeCheckpointNow_keeps {γ : Type} (vw : State → γ) (hg : ∀ s t, vw (foot7_6 s t) = vw s)
    (r : Route) (v : Bytes) (s : State) :
    vw (writeCheckpointNow r v s) = vw s := by
  have k_writeRow := writeRow_keeps vw (fun s t => hg s (foot6_13 s t))
  unfold writeCheckpointNow
  repeat' first | with_reducible rfl | with_reducible refine (foldlState vw _ (fun s a => ?_) _ _).trans ?_ | with_reducible refine (k_writeRow _ _ _ _ _ _ _ (fun _ _ => ?_)).trans ?_ | simp only [updSeqs_keeps vw (fun s t => hg s (footSeqs s t)), writeRow_keeps vw (fun s t => hg s (foot6_13 s t)), objPut_keeps vw (fun s t => hg s (footDic s t)), foldlState vw, id_eq] | split

theorem copyOut_keeps {γ : Type} (vw : State → γ) (hg : ∀ s t, vw (footLpddrLpddrPoisonLpddrBad s t) = vw s)
    (s : State) (epoch : ℕ) :
    vw (copyOut s epoch) = vw s := by
  have h0 : ∀ s x0 x1 x2, vw { s with lpddr := x0, lpddrPoison := x1, lpddrBad := x2 } = vw s := fun s x0 x1 x2 => hg s { s with lpddr := x0, lpddrPoison := x1, lpddrBad := x2 }
  unfold copyOut
  repeat' first | with_reducible rfl | with_reducible refine (foldlState vw _ (fun s a => ?_) _ _).trans ?_ | simp only [h0, foldlState vw, id_eq] | split

theorem copyIn_keeps {γ : Type} (vw : State → γ) (hg : ∀ s t, vw (foot6_8 s t) = vw s)
    (s : State) :
    vw (copyIn s) = vw s := by
  have h0 : ∀ s x0 x1 x2 x3, vw { s with arrays := x0, tile := x1, tilePoison := x2, sync := x3 } = vw s := fun s x0 x1 x2 x3 => hg s { s with arrays := x0, tile := x1, tilePoison := x2, sync := x3 }
  unfold copyIn
  repeat' first | with_reducible rfl | with_reducible refine (foldlState vw _ (fun s a => ?_) _ _).trans ?_ | simp only [h0, escImageApply_keeps vw (fun s t => hg s (footDomsEsc s t)), foldlState vw, id_eq] | split

theorem writeCheckpointRestore_keeps {γ : Type} (vw : State → γ) (hg : ∀ s t, vw (foot12_5 s t) = vw s)
    (r : Route) (v : Bytes) (s : State) :
    vw (writeCheckpointRestore r v s) = vw s := by
  have k_writeRow := writeRow_keeps vw (fun s t => hg s (foot6_13 s t))
  unfold writeCheckpointRestore
  repeat' first | with_reducible rfl | with_reducible refine (foldlState vw _ (fun s a => ?_) _ _).trans ?_ | with_reducible refine (k_writeRow _ _ _ _ _ _ _ (fun _ _ => ?_)).trans ?_ | simp only [writeRow_keeps vw (fun s t => hg s (foot6_13 s t)), copyIn_keeps vw (fun s t => hg s (foot6_8 s t)), foldlState vw, id_eq] | split

theorem clearRead_keeps {γ : Type} (vw : State → γ) (hg : ∀ s t, vw (footDic s t) = vw s)
    (s : State) (k : ℕ) :
    vw (clearRead s k) = vw s := by
  unfold clearRead
  repeat' first | with_reducible rfl | with_reducible refine (foldlState vw _ (fun s a => ?_) _ _).trans ?_ | simp only [objPut_keeps vw hg, foldlState vw, id_eq] | split

theorem readObj_keeps {γ : Type} (vw : State → γ) (hg : ∀ s t, vw (footDic s t) = vw s)
    (s : State) (k : ℕ) :
    vw (readObj s k).st = vw s := by
  unfold readObj
  repeat' first | with_reducible rfl | with_reducible refine (foldlState vw _ (fun s a => ?_) _ _).trans ?_ | simp only [clearRead_keeps vw hg, foldlState vw, id_eq] | split

theorem readRow_keeps {γ : Type} (vw : State → γ) (hg : ∀ s t, vw (foot4_25 s t) = vw s)
    (s : State) (r : Route) (k : ℕ) :
    vw (readRow s r k) = vw s := by
  unfold readRow
  repeat' first | with_reducible rfl | with_reducible refine (foldlState vw _ (fun s a => ?_) _ _).trans ?_ | with_reducible refine (ask_keeps vw hg _ _ _ _ _ _ _ (fun _ _ => ?_)).trans ?_ | simp only [readObj_keeps vw (fun s t => hg s (footDic s t)), ask_keeps vw hg, foldlState vw, id_eq] | split

theorem returnArrays_keeps {γ : Type} (vw : State → γ) (hg : ∀ s t, vw (footArraysUnretired s t) = vw s)
    (s : State) (old : ℕ) (new : ℕ) :
    vw (returnArrays s old new) = vw s := by
  have h0 : ∀ s x0 x1, vw { s with arrays := x0, unretired := x1 } = vw s := fun s x0 x1 => hg s { s with arrays := x0, unretired := x1 }
  unfold returnArrays
  repeat' first | with_reducible rfl | with_reducible refine (foldlState vw _ (fun s a => ?_) _ _).trans ?_ | simp only [h0, foldlState vw, id_eq] | split

theorem writeEffect_keeps {γ : Type} (vw : State → γ) (hg : ∀ s t, vw (foot8_0 s t) = vw s)
    (k : ℕ) (old : ℕ) (s : State) (n : ℕ) :
    vw (writeEffect k old s n) = vw s := by
  unfold writeEffect
  repeat' first | with_reducible rfl | with_reducible refine (foldlState vw _ (fun s a => ?_) _ _).trans ?_ | simp only [returnArrays_keeps vw (fun s t => hg s (footArraysUnretired s t)), settleLink_keeps vw (fun s t => hg s (foot6_3 s t)), objPut_keeps vw (fun s t => hg s (footDic s t)), foldlState vw, id_eq] | split

theorem writePlain_keeps {γ : Type} (vw : State → γ) (hg : ∀ s t, vw (foot12_4 s t) = vw s)
    (r : Route) (k : ℕ) (v : Bytes) (s : State) :
    vw (writePlain r k v s) = vw s := by
  have k_writeRow := writeRow_keeps vw (fun s t => hg s (foot6_13 s t))
  unfold writePlain
  repeat' first | with_reducible rfl | with_reducible refine (foldlState vw _ (fun s a => ?_) _ _).trans ?_ | with_reducible refine (k_writeRow _ _ _ _ _ _ _ (fun _ _ => ?_)).trans ?_ | simp only [writeEffect_keeps vw (fun s t => hg s (foot8_0 s t)), writeRow_keeps vw (fun s t => hg s (foot6_13 s t)), foldlState vw, id_eq] | split

theorem toFlash_keeps {γ : Type} (vw : State → γ) (hg : ∀ s t, vw (foot4_19 s t) = vw s)
    (s : State) (k : ℕ) :
    vw (toFlash s k) = vw s := by
  have h0 : ∀ s x0 x1 x2 x3, vw { s with flash := x0, domsFlash := x1, remapsFlash := x2, repairsFlash := x3 } = vw s := fun s x0 x1 x2 x3 => hg s { s with flash := x0, domsFlash := x1, remapsFlash := x2, repairsFlash := x3 }
  unfold toFlash
  repeat' first | with_reducible rfl | with_reducible refine (foldlState vw _ (fun s a => ?_) _ _).trans ?_ | simp only [h0, foldlState vw, id_eq] | split

theorem openXfer_keeps {γ : Type} (vw : State → γ) (hg : ∀ s t, vw (footMgmt s t) = vw s)
    (s : State) (r : Route) (k : ℕ) (dir : ℕ) (size : ℕ) :
    vw (openXfer s r k dir size).st = vw s := by
  have h0 : ∀ s x0, vw { s with mgmt := x0 } = vw s := fun s x0 => hg s { s with mgmt := x0 }
  unfold openXfer
  repeat' first | with_reducible rfl | with_reducible refine (foldlState vw _ (fun s a => ?_) _ _).trans ?_ | simp only [h0, foldlState vw, id_eq] | split

theorem domainOpen_keeps {γ : Type} (vw : State → γ) (hg : ∀ s t, vw (footMgmt s t) = vw s)
    (r : Route) (k : ℕ) (dir : ℕ) (size : ℕ) (s : State) (role : Role) :
    vw (domainOpen r k dir size s role).st = vw s := by
  unfold domainOpen
  repeat' first | with_reducible rfl | with_reducible refine (foldlState vw _ (fun s a => ?_) _ _).trans ?_ | simp only [openXfer_keeps vw hg, foldlState vw, id_eq] | split

theorem segment_keeps {γ : Type} (vw : State → γ) (hg : ∀ s t, vw (foot10_3 s t) = vw s)
    (r : Route) (header : Bytes) (data : Bytes) (s : State) :
    vw (segment r header data s).st = vw s := by
  unfold segment
  repeat' first | with_reducible rfl | with_reducible refine (foldlState vw _ (fun s a => ?_) _ _).trans ?_ | simp only [updXfer_keeps vw (fun s t => hg s (footMgmt s t)), writeSegment_keeps vw (fun s t => hg s (foot9_5 s t)), addrErr_keeps vw (fun s t => hg s (footHost s t)), foldlState vw, id_eq] | split

theorem writeChipNumberLock_keeps {γ : Type} (vw : State → γ) (hg : ∀ s t, vw (foot5_13 s t) = vw s)
    (r : Route) (v : Bytes) (burnt : Bool) (s : State) :
    vw (writeChipNumberLock r v burnt s) = vw s := by
  unfold writeChipNumberLock
  repeat' first | with_reducible rfl | with_reducible refine (foldlState vw _ (fun s a => ?_) _ _).trans ?_ | with_reducible refine (fuseRow_keeps vw hg _ _ _ _ _ _ _ _ (fun _ => ?_)).trans ?_ | simp only [fuseRow_keeps vw hg, foldlState vw, id_eq] | split

theorem writeThermalRedOverride_keeps {γ : Type} (vw : State → γ) (hg : ∀ s t, vw (foot5_13 s t) = vw s)
    (r : Route) (v : Bytes) (burnt : Bool) (s : State) :
    vw (writeThermalRedOverride r v burnt s) = vw s := by
  unfold writeThermalRedOverride
  repeat' first | with_reducible rfl | with_reducible refine (foldlState vw _ (fun s a => ?_) _ _).trans ?_ | with_reducible refine (fuseRow_keeps vw hg _ _ _ _ _ _ _ _ (fun _ => ?_)).trans ?_ | simp only [fuseRow_keeps vw hg, foldlState vw, id_eq] | split

theorem writeAntiRollback_keeps {γ : Type} (vw : State → γ) (hg : ∀ s t, vw (foot6_11 s t) = vw s)
    (r : Route) (v : Bytes) (burnt : Bool) (s : State) :
    vw (writeAntiRollback r v burnt s) = vw s := by
  have k_fuseRow := fuseRow_keeps vw (fun s t => hg s (foot5_13 s t))
  unfold writeAntiRollback
  repeat' first | with_reducible rfl | with_reducible refine (foldlState vw _ (fun s a => ?_) _ _).trans ?_ | with_reducible refine (k_fuseRow _ _ _ _ _ _ _ _ (fun _ => ?_)).trans ?_ | simp only [fuseRow_keeps vw (fun s t => hg s (foot5_13 s t)), measEvent_keeps vw (fun s t => hg s (footSec s t)), foldlState vw, id_eq] | split

theorem toDefaults_keeps {γ : Type} (vw : State → γ) (hg : ∀ s t, vw (foot8_3 s t) = vw s)
    (s : State) :
    vw (toDefaults s) = vw s := by
  have h0 : ∀ s x0 x1, vw { s with dic := x0, doms := x1 } = vw s := fun s x0 x1 => hg s { s with dic := x0, doms := x1 }
  unfold toDefaults
  repeat' first | with_reducible rfl | with_reducible refine (foldlState vw _ (fun s a => ?_) _ _).trans ?_ | simp only [h0, applyIntended_keeps vw (fun s t => hg s (foot6_3 s t)), settleLink_keeps vw (fun s t => hg s (foot6_3 s t)), notePersist_keeps vw (fun s t => hg s (footPersist s t)), foldlState vw, id_eq] | split

theorem lifeEffect_keeps {γ : Type} (vw : State → γ) (hg : ∀ s t, vw (foot11_2 s t) = vw s)
    (old : ℕ) (s : State) :
    vw (lifeEffect old s) = vw s := by
  have h0 : ∀ s x0, vw { s with mgmt := x0 } = vw s := fun s x0 => hg s { s with mgmt := x0 }
  unfold lifeEffect
  repeat' first | with_reducible rfl | with_reducible refine (foldlState vw _ (fun s a => ?_) _ _).trans ?_ | simp only [h0, askRestart_keeps vw (fun s t => hg s (footSeqs s t)), measEvent_keeps vw (fun s t => hg s (footSec s t)), updSec_keeps vw (fun s t => hg s (footSec s t)), objPut_keeps vw (fun s t => hg s (footDic s t)), toDefaults_keeps vw (fun s t => hg s (foot8_3 s t)), foldlState vw, id_eq] | split

theorem writeLifecycle_keeps {γ : Type} (vw : State → γ) (hg : ∀ s t, vw (footRun s t) = vw s)
    (r : Route) (v : Bytes) (burnt : Bool) (s : State) :
    vw (writeLifecycle r v burnt s) = vw s := by
  have k_fuseWrite := fuseWrite_keeps vw (fun s t => hg s (footDicObs s t))
  have k_ask := ask_keeps vw (fun s t => hg s (foot4_25 s t))
  unfold writeLifecycle
  repeat' first | with_reducible rfl | with_reducible refine (foldlState vw _ (fun s a => ?_) _ _).trans ?_ | with_reducible refine (k_fuseWrite _ _ _ _ _ _ _ _ _ (fun _ => ?_)).trans ?_ | with_reducible refine (k_ask _ _ _ _ _ _ _ (fun _ _ => ?_)).trans ?_ | simp only [runAsked_keeps vw hg, lifeEffect_keeps vw (fun s t => hg s (foot11_2 s t)), fuseWrite_keeps vw (fun s t => hg s (footDicObs s t)), ask_keeps vw (fun s t => hg s (foot4_25 s t)), foldlState vw, id_eq] | split

theorem updMgmt_keeps {γ : Type} (vw : State → γ) (hg : ∀ s t, vw (footMgmt s t) = vw s)
    (s : State) (f : Mgmt → Mgmt) :
    vw (updMgmt s f) = vw s := by
  have h0 : ∀ s x0, vw { s with mgmt := x0 } = vw s := fun s x0 => hg s { s with mgmt := x0 }
  unfold updMgmt
  repeat' first | with_reducible rfl | with_reducible refine (foldlState vw _ (fun s a => ?_) _ _).trans ?_ | simp only [h0, foldlState vw, id_eq] | split

theorem putReady_keeps {γ : Type} (vw : State → γ) (hg : ∀ s t, vw (footOutMgmt s t) = vw s)
    (s : State) (ip : ℕ) (port : ℕ) (w0 : Word64) (w1 : Word64) (payload : Bytes) :
    vw (putReady s ip port w0 w1 payload) = vw s := by
  unfold putReady
  repeat' first | with_reducible rfl | with_reducible refine (foldlState vw _ (fun s a => ?_) _ _).trans ?_ | simp only [updMgmt_keeps vw (fun s t => hg s (footMgmt s t)), emit_keeps vw (fun s t => hg s (footOut s t)), foldlState vw, id_eq] | split

theorem takeFragment_keeps {γ : Type} (vw : State → γ) (hg : ∀ s t, vw (footOutMgmt s t) = vw s)
    (s : State) (ip : ℕ) (port : ℕ) (w0 : Word64) (w1 : Word64) (payload : Bytes) :
    vw (takeFragment s ip port w0 w1 payload) = vw s := by
  unfold takeFragment
  repeat' first | with_reducible rfl | with_reducible refine (foldlState vw _ (fun s a => ?_) _ _).trans ?_ | simp only [putReady_keeps vw hg, updMgmt_keeps vw (fun s t => hg s (footMgmt s t)), foldlState vw, id_eq] | split

theorem noteReversed_keeps {γ : Type} (vw : State → γ) (hg : ∀ s t, vw (footDicObs s t) = vw s)
    (s : State) (reversed : Bool) :
    vw (noteReversed s reversed) = vw s := by
  unfold noteReversed
  repeat' first | with_reducible rfl | with_reducible refine (foldlState vw _ (fun s a => ?_) _ _).trans ?_ | simp only [journal_keeps vw hg, objPut_keeps vw (fun s t => hg s (footDic s t)), foldlState vw, id_eq] | split

theorem plainReply_keeps {γ : Type} (vw : State → γ) (hg : ∀ s t, vw (footOut s t) = vw s)
    (s : State) (ip : ℕ) (port : ℕ) (session : ℕ) (seq : ℕ) (op : ℕ) (status : ℕ) (data : Bytes) :
    vw (plainReply s ip port session seq op status data) = vw s := by
  unfold plainReply
  repeat' first | with_reducible rfl | with_reducible refine (foldlState vw _ (fun s a => ?_) _ _).trans ?_ | simp only [emit_keeps vw hg, foldlState vw, id_eq] | split

theorem openHello_keeps {γ : Type} (vw : State → γ) (hg : ∀ s t, vw (footFreeOutMgmt s t) = vw s)
    (s : State) (ip : ℕ) (port : ℕ) (seq : ℕ) (role : ℕ) :
    vw (openHello s ip port seq role) = vw s := by
  have h0 : ∀ s x0 x1, vw { s with free := x0, mgmt := x1 } = vw s := fun s x0 x1 => hg s { s with free := x0, mgmt := x1 }
  unfold openHello
  repeat' first | with_reducible rfl | with_reducible refine (foldlState vw _ (fun s a => ?_) _ _).trans ?_ | simp only [h0, plainReply_keeps vw (fun s t => hg s (footOut s t)), foldlState vw, id_eq] | split

theorem hello_keeps {γ : Type} (vw : State → γ) (hg : ∀ s t, vw (footFreeOutMgmt s t) = vw s)
    (s : State) (ip : ℕ) (port : ℕ) (seq : ℕ) (role : ℕ) :
    vw (hello s ip port seq role) = vw s := by
  unfold hello
  repeat' first | with_reducible rfl | with_reducible refine (foldlState vw _ (fun s a => ?_) _ _).trans ?_ | simp only [openHello_keeps vw hg, takeMsg_keeps vw (fun s t => hg s (footMgmt s t)), plainReply_keeps vw (fun s t => hg s (footOut s t)), foldlState vw, id_eq] | split

theorem closeSession_keeps {γ : Type} (vw : State → γ) (hg : ∀ s t, vw (footMgmt s t) = vw s)
    (s : State) (id : ℕ) :
    vw (closeSession s id) = vw s := by
  unfold closeSession
  repeat' first | with_reducible rfl | with_reducible refine (foldlState vw _ (fun s a => ?_) _ _).trans ?_ | simp only [updMgmt_keeps vw hg, foldlState vw, id_eq] | split

theorem proofFailed_keeps {γ : Type} (vw : State → γ) (hg : ∀ s t, vw (footDicMgmtObs s t) = vw s)
    (s : State) (x : Session) :
    vw (proofFailed s x) = vw s := by
  unfold proofFailed
  repeat' first | with_reducible rfl | with_reducible refine (foldlState vw _ (fun s a => ?_) _ _).trans ?_ | simp only [journal_keeps vw (fun s t => hg s (footDicObs s t)), updMgmt_keeps vw (fun s t => hg s (footMgmt s t)), closeSession_keeps vw (fun s t => hg s (footMgmt s t)), objInc_keeps vw (fun s t => hg s (footDic s t)), foldlState vw, id_eq] | split

theorem proved_keeps {γ : Type} (vw : State → γ) (hg : ∀ s t, vw (foot4_26 s t) = vw s)
    (s : State) (x : Session) (seq : ℕ) (key : Bytes) (sig : Bytes) :
    vw (proved s x seq key sig) = vw s := by
  unfold proved
  repeat' first | with_reducible rfl | with_reducible refine (foldlState vw _ (fun s a => ?_) _ _).trans ?_ | simp only [proofFailed_keeps vw (fun s t => hg s (footDicMgmtObs s t)), emit_keeps vw (fun s t => hg s (footOut s t)), updSession_keeps vw (fun s t => hg s (footMgmt s t)), plainReply_keeps vw (fun s t => hg s (footOut s t)), foldlState vw, id_eq] | split

theorem prove_keeps {γ : Type} (vw : State → γ) (hg : ∀ s t, vw (foot4_26 s t) = vw s)
    (s : State) (ip : ℕ) (port : ℕ) (session : ℕ) (seq : ℕ) (key : Bytes) (sig : Bytes) :
    vw (prove s ip port session seq key sig) = vw s := by
  have k_inSession := inSession_keeps vw (fun s t => hg s (footOutDicMgmt s t))
  unfold prove
  repeat' first | with_reducible rfl | with_reducible refine (foldlState vw _ (fun s a => ?_) _ _).trans ?_ | with_reducible refine (k_inSession _ _ _ _ _ _ _ (fun _ => ?_)).trans ?_ | simp only [proved_keeps vw hg, closeSession_keeps vw (fun s t => hg s (footMgmt s t)), objInc_keeps vw (fun s t => hg s (footDic s t)), inSession_keeps vw (fun s t => hg s (footOutDicMgmt s t)), takeMsg_keeps vw (fun s t => hg s (footMgmt s t)), plainReply_keeps vw (fun s t => hg s (footOut s t)), foldlState vw, id_eq] | split

theorem startUpdate_keeps {γ : Type} (vw : State → γ) (hg : ∀ s t, vw (footDic s t) = vw s)
    (s : State) :
    vw (startUpdate s) = vw s := by
  unfold startUpdate
  repeat' first | with_reducible rfl | with_reducible refine (foldlState vw _ (fun s a => ?_) _ _).trans ?_ | simp only [objPut_keeps vw hg, foldlState vw, id_eq] | split

theorem programDone_keeps {γ : Type} (vw : State → γ) (hg : ∀ s t, vw (footRun s t) = vw s)
    (s : State) (is : List ImageInfo) :
    vw (programDone s is) = vw s := by
  unfold programDone
  repeat' first | with_reducible rfl | with_reducible refine (foldlState vw _ (fun s a => ?_) _ _).trans ?_ | simp only [putBank_keeps vw (fun s t => hg s (footSec s t)), beginCold_keeps vw hg, objPut_keeps vw (fun s t => hg s (footDic s t)), foldlState vw, id_eq] | split

theorem closeRevoked_keeps {γ : Type} (vw : State → γ) (hg : ∀ s t, vw (footMgmt s t) = vw s)
    (s : State) :
    vw (closeRevoked s) = vw s := by
  unfold closeRevoked
  repeat' first | with_reducible rfl | with_reducible refine (foldlState vw _ (fun s a => ?_) _ _).trans ?_ | simp only [updMgmt_keeps vw hg, foldlState vw, id_eq] | split

theorem writeRevoke_keeps {γ : Type} (vw : State → γ) (hg : ∀ s t, vw (foot7_5 s t) = vw s)
    (r : Route) (v : Bytes) (s : State) :
    vw (writeRevoke r v s) = vw s := by
  have k_ask := ask_keeps vw (fun s t => hg s (foot4_25 s t))
  unfold writeRevoke
  repeat' first | with_reducible rfl | with_reducible refine (foldlState vw _ (fun s a => ?_) _ _).trans ?_ | with_reducible refine (k_ask _ _ _ _ _ _ _ (fun _ _ => ?_)).trans ?_ | simp only [applyNum_keeps vw (fun s t => hg s (footDicPersistObs s t)), objInc_keeps vw (fun s t => hg s (footDic s t)), objBit_keeps vw (fun s t => hg s (footDic s t)), measEvent_keeps vw (fun s t => hg s (footSec s t)), closeRevoked_keeps vw (fun s t => hg s (footMgmt s t)), ask_keeps vw (fun s t => hg s (foot4_25 s t)), foldlState vw, id_eq] | split

theorem drawNonce_keeps {γ : Type} (vw : State → γ) (hg : ∀ s t, vw (footFreeDic s t) = vw s)
    (s : State) :
    vw (drawNonce s) = vw s := by
  unfold drawNonce
  repeat' first | with_reducible rfl | with_reducible refine (foldlState vw _ (fun s a => ?_) _ _).trans ?_ | simp only [freeStep_keeps vw (fun s t => hg s (footFree s t)), objPut_keeps vw (fun s t => hg s (footDic s t)), foldlState vw, id_eq] | split

theorem unlock_keeps {γ : Type} (vw : State → γ) (hg : ∀ s t, vw (foot4_21 s t) = vw s)
    (s : State) (t : Bytes) :
    vw (unlock s t) = vw s := by
  unfold unlock
  repeat' first | with_reducible rfl | with_reducible refine (foldlState vw _ (fun s a => ?_) _ _).trans ?_ | simp only [journal_keeps vw (fun s t => hg s (footDicObs s t)), drawNonce_keeps vw (fun s t => hg s (footFreeDic s t)), measEvent_keeps vw (fun s t => hg s (footSec s t)), updSec_keeps vw (fun s t => hg s (footSec s t)), objPut_keeps vw (fun s t => hg s (footDic s t)), foldlState vw, id_eq] | split

theorem tokenRefused_keeps {γ : Type} (vw : State → γ) (hg : ∀ s t, vw (footFreeDic s t) = vw s)
    (s : State) :
    vw (tokenRefused s) = vw s := by
  unfold tokenRefused
  repeat' first | with_reducible rfl | with_reducible refine (foldlState vw _ (fun s a => ?_) _ _).trans ?_ | simp only [drawNonce_keeps vw hg, objInc_keeps vw (fun s t => hg s (footDic s t)), foldlState vw, id_eq] | split

theorem endUnlock_keeps {γ : Type} (vw : State → γ) (hg : ∀ s t, vw (footDicSec s t) = vw s)
    (s : State) :
    vw (endUnlock s) = vw s := by
  unfold endUnlock
  repeat' first | with_reducible rfl | with_reducible refine (foldlState vw _ (fun s a => ?_) _ _).trans ?_ | simp only [updSec_keeps vw (fun s t => hg s (footSec s t)), objPut_keeps vw (fun s t => hg s (footDic s t)), foldlState vw, id_eq] | split

theorem writeDebugLock_keeps {γ : Type} (vw : State → γ) (hg : ∀ s t, vw (foot7_5 s t) = vw s)
    (r : Route) (v : Bytes) (s : State) :
    vw (writeDebugLock r v s) = vw s := by
  have k_writeRow := writeRow_keeps vw (fun s t => hg s (foot6_13 s t))
  unfold writeDebugLock
  repeat' first | with_reducible rfl | with_reducible refine (foldlState vw _ (fun s a => ?_) _ _).trans ?_ | with_reducible refine (k_writeRow _ _ _ _ _ _ _ (fun _ _ => ?_)).trans ?_ | simp only [endUnlock_keeps vw (fun s t => hg s (footDicSec s t)), writeRow_keeps vw (fun s t => hg s (foot6_13 s t)), foldlState vw, id_eq] | split

theorem updIface_keeps {γ : Type} (vw : State → γ) (hg : ∀ s t, vw (footIface s t) = vw s)
    (s : State) (f : Iface → Iface) :
    vw (updIface s f) = vw s := by
  have h0 : ∀ s x0, vw { s with iface := x0 } = vw s := fun s x0 => hg s { s with iface := x0 }
  unfold updIface
  repeat' first | with_reducible rfl | with_reducible refine (foldlState vw _ (fun s a => ?_) _ _).trans ?_ | simp only [h0, foldlState vw, id_eq] | split

theorem leakChange_keeps {γ : Type} (vw : State → γ) (hg : ∀ s t, vw (footDicObs s t) = vw s)
    (s : State) (c : ℕ) (ohms : ℕ) :
    vw (leakChange s c ohms) = vw s := by
  unfold leakChange
  repeat' first | with_reducible rfl | with_reducible refine (foldlState vw _ (fun s a => ?_) _ _).trans ?_ | simp only [journal_keeps vw hg, objPut_keeps vw (fun s t => hg s (footDic s t)), journalAlert_keeps vw hg, foldlState vw, id_eq] | split

theorem leakSample_keeps {γ : Type} (vw : State → γ) (hg : ∀ s t, vw (foot4_9 s t) = vw s)
    (s : State) (ohms : ℕ) :
    vw (leakSample s ohms) = vw s := by
  unfold leakSample
  repeat' first | with_reducible rfl | with_reducible refine (foldlState vw _ (fun s a => ?_) _ _).trans ?_ | simp only [updIface_keeps vw (fun s t => hg s (footIface s t)), updPower_keeps vw (fun s t => hg s (footPower s t)), objPut_keeps vw (fun s t => hg s (footDic s t)), leakChange_keeps vw (fun s t => hg s (footDicObs s t)), foldlState vw, id_eq] | split

theorem flowRead_keeps {γ : Type} (vw : State → γ) (hg : ∀ s t, vw (footDicIfaceObs s t) = vw s)
    (s : State) (centi : ℕ) :
    vw (flowRead s centi) = vw s := by
  unfold flowRead
  repeat' first | with_reducible rfl | with_reducible refine (foldlState vw _ (fun s a => ?_) _ _).trans ?_ | simp only [updIface_keeps vw (fun s t => hg s (footIface s t)), objPut_keeps vw (fun s t => hg s (footDic s t)), journalAlert_keeps vw (fun s t => hg s (footDicObs s t)), foldlState vw, id_eq] | split

theorem efuseOpens_keeps {γ : Type} (vw : State → γ) (hg : ∀ s t, vw (footRun s t) = vw s)
    (s : State) :
    vw (efuseOpens s) = vw s := by
  unfold efuseOpens
  repeat' first | with_reducible rfl | with_reducible refine (foldlState vw _ (fun s a => ?_) _ _).trans ?_ | simp only [journal_keeps vw (fun s t => hg s (footDicObs s t)), updIface_keeps vw (fun s t => hg s (footIface s t)), unpower_keeps vw hg, updPower_keeps vw (fun s t => hg s (footPower s t)), objInc_keeps vw (fun s t => hg s (footDic s t)), objPut_keeps vw (fun s t => hg s (footDic s t)), foldlState vw, id_eq] | split

theorem writeSnapshotTake_keeps {γ : Type} (vw : State → γ) (hg : ∀ s t, vw (foot8_6 s t) = vw s)
    (r : Route) (v : Bytes) (s : State) :
    vw (writeSnapshotTake r v s) = vw s := by
  have k_writeRow := writeRow_keeps vw (fun s t => hg s (foot6_13 s t))
  unfold writeSnapshotTake
  repeat' first | with_reducible rfl | with_reducible refine (foldlState vw _ (fun s a => ?_) _ _).trans ?_ | with_reducible refine (k_writeRow _ _ _ _ _ _ _ (fun _ _ => ?_)).trans ?_ | simp only [writeRow_keeps vw (fun s t => hg s (foot6_13 s t)), startSnap_keeps vw (fun s t => hg s (foot4_20 s t)), foldlState vw, id_eq] | split

theorem journalFlush_keeps {γ : Type} (vw : State → γ) (hg : ∀ s t, vw (footObs s t) = vw s)
    (s : State) :
    vw (journalFlush s) = vw s := by
  have h0 : ∀ s x0, vw { s with obs := x0 } = vw s := fun s x0 => hg s { s with obs := x0 }
  unfold journalFlush
  repeat' first | with_reducible rfl | with_reducible refine (foldlState vw _ (fun s a => ?_) _ _).trans ?_ | simp only [h0, foldlState vw, id_eq] | split

theorem prompt_keeps {γ : Type} (vw : State → γ) (hg : ∀ s t, vw (footOut s t) = vw s)
    (s : State) :
    vw (prompt s) = vw s := by
  unfold prompt
  repeat' first | with_reducible rfl | with_reducible refine (foldlState vw _ (fun s a => ?_) _ _).trans ?_ | simp only [emit_keeps vw hg, foldlState vw, id_eq] | split

theorem muted_keeps {γ : Type} (vw : State → γ) (hg : ∀ s t, vw (footOut s t) = vw s) (s t : State) :
    vw (muted s t) = vw t := by
  have h0 : ∀ (s : State) x, vw { s with out := x } = vw s := fun s x => hg s { s with out := x }
  unfold muted
  split
  · exact h0 t _
  · rfl

theorem monLine_keeps {γ : Type} (vw : State → γ) (hg : ∀ s t, vw (footOutDic s t) = vw s)
    (s : State) (sup : Bool) (run : State → State)
    (h_run : ∀ s, vw (run s) = vw s) :
    vw (monLine s sup run) = vw s := by
  unfold monLine
  repeat' first | with_reducible rfl | with_reducible refine (foldlState vw _ (fun s a => ?_) _ _).trans ?_ | simp only [h_run, objInc_keeps vw (fun s t => hg s (footDic s t)), emit_keeps vw (fun s t => hg s (footOut s t)), prompt_keeps vw (fun s t => hg s (footOut s t)), foldlState vw, id_eq, muted_keeps vw (fun s t => hg s (footOut s t))] | split

theorem printObjs_keeps {γ : Type} (vw : State → γ) (hg : ∀ s t, vw (footOut s t) = vw s)
    (s : State) (ks : List ℕ) :
    vw (printObjs s ks) = vw s := by
  unfold printObjs
  repeat' first | with_reducible rfl | with_reducible refine (foldlState vw _ (fun s a => ?_) _ _).trans ?_ | simp only [emit_keeps vw hg, foldlState vw, id_eq] | split

theorem monWrite_keeps {γ : Type} (vw : State → γ) (hg : ∀ s t, vw (footRun s t) = vw s)
    (k : ℕ) (v : Bytes) (burnt : Bool) (s : State) :
    vw (monWrite k v burnt s) = vw s := by
  unfold monWrite
  simp only [apply_ite vw, ite_self, writeRevoke_keeps vw (fun s t => hg s (foot7_5 s t)), writeEpochRelease_keeps vw (fun s t => hg s (foot7_3 s t)), writeAntiRollback_keeps vw (fun s t => hg s (foot6_11 s t)), writeMemHashKey_keeps vw (fun s t => hg s (foot5_13 s t)), writeCheckpointRestore_keeps vw (fun s t => hg s (foot12_5 s t)), writeDebugLock_keeps vw (fun s t => hg s (foot7_5 s t)), writeColdRestart_keeps vw hg, writeChipNumberLock_keeps vw (fun s t => hg s (foot5_13 s t)), writeLifecycle_keeps vw hg, writeWarmRestart_keeps vw hg, writeCheckpointNow_keeps vw (fun s t => hg s (foot7_6 s t)), writeThermalRestart_keeps vw hg, writeEpochSwitch_keeps vw (fun s t => hg s (foot7_3 s t)), writeSnapshotTake_keeps vw (fun s t => hg s (foot8_6 s t)), writeThermalRedOverride_keeps vw (fun s t => hg s (foot5_13 s t)), writeLinkQuarantine_keeps vw (fun s t => hg s (foot10_5 s t)), writeDrainArm_keeps vw (fun s t => hg s (foot7_3 s t)), writePlain_keeps vw (fun s t => hg s (foot12_4 s t)), foldlState vw, id_eq]

theorem startBinary_keeps {γ : Type} (vw : State → γ) (hg : ∀ s t, vw (footObs s t) = vw s)
    (s : State) (kind : ℕ) (total : ℕ) (digest : Bytes) :
    vw (startBinary s kind total digest) = vw s := by
  have h0 : ∀ s x0, vw { s with obs := x0 } = vw s := fun s x0 => hg s { s with obs := x0 }
  unfold startBinary
  repeat' first | with_reducible rfl | with_reducible refine (foldlState vw _ (fun s a => ?_) _ _).trans ?_ | simp only [h0, foldlState vw, id_eq] | split

theorem endBinary_keeps {γ : Type} (vw : State → γ) (hg : ∀ s t, vw (footOutObs s t) = vw s)
    (s : State) (status : ℕ) :
    vw (endBinary s status) = vw s := by
  have h0 : ∀ s x0, vw { s with obs := x0 } = vw s := fun s x0 => hg s { s with obs := x0 }
  unfold endBinary
  repeat' first | with_reducible rfl | with_reducible refine (foldlState vw _ (fun s a => ?_) _ _).trans ?_ | simp only [h0, emit_keeps vw (fun s t => hg s (footOut s t)), prompt_keeps vw (fun s t => hg s (footOut s t)), foldlState vw, id_eq] | split

theorem takeToken_keeps {γ : Type} (vw : State → γ) (hg : ∀ s t, vw (foot5_12 s t) = vw s)
    (s : State) (t : Bytes) :
    vw (takeToken s t) = vw s := by
  unfold takeToken
  repeat' first | with_reducible rfl | with_reducible refine (foldlState vw _ (fun s a => ?_) _ _).trans ?_ | simp only [tokenRefused_keeps vw (fun s t => hg s (footFreeDic s t)), unlock_keeps vw (fun s t => hg s (foot4_21 s t)), endBinary_keeps vw (fun s t => hg s (footOutObs s t)), foldlState vw, id_eq] | split

theorem takeLoad_keeps {γ : Type} (vw : State → γ) (hg : ∀ s t, vw (foot10_4 s t) = vw s)
    (s : State) (image : Bytes) :
    vw (takeLoad s image) = vw s := by
  unfold takeLoad
  repeat' first | with_reducible rfl | with_reducible refine (foldlState vw _ (fun s a => ?_) _ _).trans ?_ | simp only [journal_keeps vw (fun s t => hg s (footDicObs s t)), endBinary_keeps vw (fun s t => hg s (footOutObs s t)), startUpdate_keeps vw (fun s t => hg s (footDic s t)), writeBytes_keeps vw (fun s t => hg s (foot8_5 s t)), foldlState vw, id_eq] | split

theorem takeBlock_keeps {γ : Type} (vw : State → γ) (hg : ∀ s t, vw (foot11_6 s t) = vw s)
    (s : State) (data : Bytes) (good : Bool) :
    vw (takeBlock s data good) = vw s := by
  have h0 : ∀ s x0, vw { s with obs := x0 } = vw s := fun s x0 => hg s { s with obs := x0 }
  unfold takeBlock
  repeat' first | with_reducible rfl | with_reducible refine (foldlState vw _ (fun s a => ?_) _ _).trans ?_ | simp only [h0, takeToken_keeps vw (fun s t => hg s (foot5_12 s t)), takeLoad_keeps vw (fun s t => hg s (foot10_4 s t)), emit_keeps vw (fun s t => hg s (footOut s t)), endBinary_keeps vw (fun s t => hg s (footOutObs s t)), foldlState vw, id_eq] | split

end Sys2Proof.Machine
end

