-- ==== Sys2Proof/Laws/Store.lean ====
section
/-!
SUPPORT. Sparse tables and byte memory: a read after a write, and the canonical form that every write keeps.
-/

namespace Sys2Proof.Machine

/-! ### Tables -/

@[simp] theorem smGet_smSet_self {α : Type} (m : SMap α) (k : Nat) (v : α) : smGet (smSet m k v) k = some v := by
  induction m with
  | nil => simp [smSet, smGet]
  | cons h r ih =>
    obtain ⟨k', v'⟩ := h
    simp only [smSet]
    split
    · simp [smGet]
    · split
      · simp [smGet]
      · simp [smGet, *]

theorem smGet_smSet_ne {α : Type} (m : SMap α) (k k' : Nat) (v : α) (h : k' ≠ k) :
    smGet (smSet m k v) k' = smGet m k' := by
  induction m with
  | nil => simp [smSet, smGet, h]
  | cons e r ih =>
    obtain ⟨a, b⟩ := e
    simp only [smSet]
    split
    · subst_vars; simp [smGet, h]
    · split
      · simp [smGet, h]
      · simp [smGet, ih]

theorem smWf_tail {α : Type} (e : Nat × α) (r : SMap α) (h : smWf (e :: r) = true) : smWf r = true := by
  cases r with
  | nil => rfl
  | cons f r => simp only [smWf, Bool.and_eq_true] at h; exact h.2

@[simp] theorem smGet_smErase_self {α : Type} (m : SMap α) (k : Nat) : smGet (smErase m k) k = none := by
  induction m with
  | nil => rfl
  | cons e r ih =>
    obtain ⟨a, b⟩ := e
    simp only [smErase]
    split
    · exact ih
    · simp [smGet, *]

theorem smGet_smErase_ne {α : Type} (m : SMap α) (k k' : Nat) (hk : k' ≠ k) : smGet (smErase m k) k' = smGet m k' := by
  induction m with
  | nil => rfl
  | cons e r ih =>
    obtain ⟨a, b⟩ := e
    simp only [smErase]
    split
    · subst_vars; simp [smGet, hk, ih]
    · simp [smGet, ih]

/-- Putting a value keeps the rising form. -/
theorem smWf_smSet {α : Type} (m : SMap α) (k : Nat) (v : α) (h : smWf m = true) : smWf (smSet m k v) = true := by
  induction m with
  | nil => rfl
  | cons e r ih =>
    obtain ⟨a, b⟩ := e
    simp only [smSet]
    split
    · subst_vars
      cases r with
      | nil => rfl
      | cons f r => simpa [smWf] using h
    · split
      · simp [smWf, *]
      · have ih := ih (smWf_tail _ _ h)
        cases r with
        | nil => simp [smSet, smWf]; omega
        | cons f r =>
          obtain ⟨a', b'⟩ := f
          simp only [smWf, Bool.and_eq_true, decide_eq_true_eq] at h
          simp only [smSet] at ih ⊢
          split
          · rename_i hk; rw [if_pos hk] at ih
            simp only [smWf, Bool.and_eq_true, decide_eq_true_eq]
            exact ⟨by omega, ih⟩
          · rename_i hk; rw [if_neg hk] at ih
            split
            · rename_i hl; rw [if_pos hl] at ih
              simp only [smWf, Bool.and_eq_true, decide_eq_true_eq]
              exact ⟨by omega, hl, h.2⟩
            · rename_i hl; rw [if_neg hl] at ih
              simp only [smWf, Bool.and_eq_true, decide_eq_true_eq]
              exact ⟨h.1, ih⟩

/-- Every entry of a rising table whose first key is above `a` leaves room for `a`. -/
theorem smWf_cons_iff {α : Type} (a : Nat) (b : α) (r : SMap α) :
    smWf ((a, b) :: r) = true ↔ smWf r = true ∧ ∀ e ∈ r, a < e.1 := by
  induction r generalizing a b with
  | nil => simp [smWf]
  | cons f r ih =>
    obtain ⟨a', b'⟩ := f
    simp only [smWf, Bool.and_eq_true, decide_eq_true_eq, List.mem_cons, forall_eq_or_imp]
    constructor
    · rintro ⟨h1, h2⟩
      exact ⟨h2, h1, fun e he => by have := ((ih a' b').1 h2).2 e he; omega⟩
    · rintro ⟨h1, h2, _⟩
      exact ⟨h2, h1⟩

theorem mem_smErase {α : Type} (m : SMap α) (k : Nat) (e : Nat × α) (h : e ∈ smErase m k) : e ∈ m := by
  induction m with
  | nil => simp [smErase] at h
  | cons f r ih =>
    obtain ⟨a, b⟩ := f
    simp only [smErase] at h
    split at h
    · exact List.mem_cons_of_mem _ (ih h)
    · rcases List.mem_cons.1 h with h | h
      · simp [h]
      · exact List.mem_cons_of_mem _ (ih h)

theorem mem_smSet {α : Type} (m : SMap α) (k : Nat) (v : α) (e : Nat × α) (h : e ∈ smSet m k v) : e = (k, v) ∨ e ∈ m := by
  induction m with
  | nil => simp [smSet] at h; exact .inl h
  | cons f r ih =>
    obtain ⟨a, b⟩ := f
    simp only [smSet] at h
    split at h
    · rcases List.mem_cons.1 h with h | h
      · exact .inl h
      · exact .inr (List.mem_cons_of_mem _ h)
    · split at h
      · rcases List.mem_cons.1 h with h | h
        · exact .inl h
        · exact .inr h
      · rcases List.mem_cons.1 h with h | h
        · exact .inr (by simp [h])
        · rcases ih h with h | h
          · exact .inl h
          · exact .inr (List.mem_cons_of_mem _ h)

/-- Taking a key out keeps the rising form. -/
theorem smWf_smErase {α : Type} (m : SMap α) (k : Nat) (h : smWf m = true) : smWf (smErase m k) = true := by
  induction m with
  | nil => rfl
  | cons e r ih =>
    obtain ⟨a, b⟩ := e
    simp only [smErase]
    split
    · exact ih (smWf_tail _ _ h)
    · rw [smWf_cons_iff] at h ⊢
      exact ⟨ih h.1, fun e he => h.2 e (mem_smErase _ _ _ he)⟩

/-- Keeping some entries keeps the rising form. -/
theorem smWf_filter {α : Type} (m : SMap α) (p : Nat × α → Bool) (h : smWf m = true) : smWf (m.filter p) = true := by
  induction m with
  | nil => rfl
  | cons e r ih =>
    obtain ⟨a, b⟩ := e
    rw [smWf_cons_iff] at h
    have ih := ih h.1
    rw [List.filter_cons]
    split
    · rw [smWf_cons_iff]
      exact ⟨ih, fun e he => h.2 e (List.mem_of_mem_filter he)⟩
    · exact ih

/-! ### Sets of numbers -/

theorem nsHas_nsAdd (ns : List Nat) (k x : Nat) : nsHas (nsAdd ns k) x = (decide (k = x) || nsHas ns x) := by
  induction ns with
  | nil => simp [nsAdd, nsHas]
  | cons a r ih =>
    simp only [nsAdd]
    split
    · subst_vars; by_cases h : a = x <;> simp [nsHas, h]
    · split
      · by_cases h : k = x <;> simp [nsHas, h]
      · by_cases h : a = x <;> simp [nsHas, h, ih]

theorem nsHas_nsDel (ns : List Nat) (k x : Nat) : nsHas (nsDel ns k) x = (!decide (k = x) && nsHas ns x) := by
  induction ns with
  | nil => simp [nsDel, nsHas]
  | cons a r ih =>
    simp only [nsDel]
    split
    · subst_vars; by_cases h : a = x
      · subst_vars; simp [ih]
      · simp [nsHas, h, ih]
    · by_cases h : a = x
      · subst_vars; simp [nsHas]; omega
      · simp [nsHas, h, ih]

theorem nsHas_nsPut (ns : List Nat) (k x : Nat) (b : Bool) :
    nsHas (nsPut ns k b) x = if k = x then b else nsHas ns x := by
  unfold nsPut
  cases b <;> by_cases h : k = x <;> simp [nsHas_nsAdd, nsHas_nsDel, h]

/-! ### Byte memory -/

theorem memory_wf_iff (m : Mem) : Memory.wf m = true ↔ smWf m = true ∧ ∀ e ∈ m, e.2 ≠ emptyByte := by
  simp [Memory.wf, List.all_eq_true, bne_iff_ne]

@[simp] theorem memory_wf_nil : Memory.wf [] = true := rfl

/-- A byte written keeps the canonical form. -/
theorem memory_wf_memWrite (m : Mem) (a : Nat) (b : Byte) (h : Memory.wf m = true) : Memory.wf (memWrite m a b) = true := by
  rw [memory_wf_iff] at h ⊢
  unfold memWrite
  split
  · exact ⟨smWf_smErase _ _ h.1, fun e he => h.2 e (mem_smErase _ _ _ he)⟩
  · refine ⟨smWf_smSet _ _ _ h.1, fun e he => ?_⟩
    rcases mem_smSet _ _ _ _ he with he | he
    · subst he; assumption
    · exact h.2 e he

theorem memory_wf_filter (m : Mem) (p : Host.Cell → Bool) (h : Memory.wf m = true) : Memory.wf (m.filter p) = true := by
  rw [memory_wf_iff] at h ⊢
  exact ⟨smWf_filter _ _ h.1, fun e he => h.2 e (List.mem_of_mem_filter he)⟩

theorem memory_wf_memStore (m : Mem) (a : Nat) (bs : Bytes) (h : Memory.wf m = true) : Memory.wf (memStore m a bs) = true := by
  induction bs generalizing m a with
  | nil => exact h
  | cons b bs ih => exact ih _ _ (memory_wf_memWrite m a b h)

theorem memory_wf_memStoreMask (m : Mem) (a mask : Nat) (bs : Bytes) (h : Memory.wf m = true) :
    Memory.wf (memStoreMask m a mask bs) = true := by
  induction bs generalizing m a mask with
  | nil => exact h
  | cons b bs ih =>
    simp only [memStoreMask]
    refine ih _ _ _ ?_
    split
    · exact memory_wf_memWrite m a b h
    · exact h

/-- A byte written reads back. -/
@[simp] theorem memRead_memWrite_self (m : Mem) (a : Nat) (b : Byte) : memRead (memWrite m a b) a = b := by
  unfold memRead memWrite smGetD
  split
  · subst_vars; rw [smGet_smErase_self]; rfl
  · simp

/-- A byte written leaves every other byte. -/
theorem memRead_memWrite_ne (m : Mem) (a x : Nat) (b : Byte) (hx : x ≠ a) : memRead (memWrite m a b) x = memRead m x := by
  unfold memRead memWrite smGetD
  split
  · rw [smGet_smErase_ne _ _ _ hx]
  · rw [smGet_smSet_ne _ _ _ _ hx]

/-- A run stored leaves every byte outside it. -/
theorem memRead_memStore_out (m : Mem) (a x : Nat) (bs : Bytes) (hx : x < a ∨ a + bs.length ≤ x) :
    memRead (memStore m a bs) x = memRead m x := by
  induction bs generalizing m a with
  | nil => rfl
  | cons b bs ih =>
    simp only [List.length_cons] at hx
    simp only [memStore]
    rw [ih _ _ (by omega), memRead_memWrite_ne m a x b (by omega)]

/-- A masked run stored leaves every byte outside it. -/
theorem memRead_memStoreMask_out (m : Mem) (a x mask : Nat) (bs : Bytes) (hx : x < a ∨ a + bs.length ≤ x) :
    memRead (memStoreMask m a mask bs) x = memRead m x := by
  induction bs generalizing m a mask with
  | nil => rfl
  | cons b bs ih =>
    simp only [List.length_cons] at hx
    simp only [memStoreMask]
    split
    · rw [ih _ _ _ (by omega), memRead_memWrite_ne m a x b (by omega)]
    · exact ih _ _ _ (by omega)

/-- Byte i of a run stored reads back. -/
theorem memRead_memStore_in (m : Mem) (a i : Nat) (bs : Bytes) (hi : i < bs.length) :
    memRead (memStore m a bs) (a + i) = bs[i] := by
  induction bs generalizing m a i with
  | nil => simp at hi
  | cons b bs ih =>
    simp only [memStore]
    cases i with
    | zero =>
      simp only [Nat.add_zero, List.getElem_cons_zero]
      rw [memRead_memStore_out _ _ _ _ (by omega), memRead_memWrite_self m a b]
    | succ j =>
      have := ih (memWrite m a b) (a + 1) j (by simpa using hi)
      simpa [Nat.add_comm, Nat.add_left_comm] using this

/-- Byte i of a masked run: written where its mask bit is set, kept where it is clear (R276). -/
theorem memRead_memStoreMask_in (m : Mem) (a i mask : Nat) (bs : Bytes) (hi : i < bs.length) :
    memRead (memStoreMask m a mask bs) (a + i) = if (mask / 2 ^ i) % 2 = 1 then bs[i] else memRead m (a + i) := by
  induction bs generalizing m a i mask with
  | nil => simp at hi
  | cons b bs ih =>
    simp only [memStoreMask]
    cases i with
    | zero =>
      simp only [Nat.add_zero, List.getElem_cons_zero, Nat.pow_zero, Nat.div_one]
      split
      · rw [memRead_memStoreMask_out _ _ _ _ _ (by omega), memRead_memWrite_self m a b]
      · rw [memRead_memStoreMask_out _ _ _ _ _ (by omega)]
    | succ j =>
      have e := ih (if mask % 2 = 1 then memWrite m a b else m) (a + 1) j (mask / 2) (by simpa using hi)
      rw [show a + (j + 1) = a + 1 + j by omega, e, Nat.div_div_eq_div_mul,
        show 2 * 2 ^ j = 2 ^ (j + 1) by rw [Nat.pow_succ]; omega]
      simp only [List.getElem_cons_succ]
      split
      · rfl
      · split
        · exact memRead_memWrite_ne m a _ b (by omega)
        · rfl

end Sys2Proof.Machine
end

