-- ==== Sys2Proof/Laws/MemForm.lean ====
section
/-!
SUPPORT. The canonical form of LPDDR and of the tile store: every operation that writes memory keeps it. (An operation
that writes none has neither memory in its footprint.)
-/

namespace Sys2Proof.Machine

set_option linter.unusedSimpArgs false
set_option linter.unusedTactic false
set_option linter.unreachableTactic false
set_option linter.unusedVariables false

theorem foldlMem {α : Type} (f : State → α → State) (h : ∀ s a, MemOk s → MemOk (f s a)) (l : List α) (s : State)
    (hs : MemOk s) : MemOk (l.foldl f s) := by
  induction l generalizing s with
  | nil => exact hs
  | cons a l ih => exact ih _ (h s a hs)

theorem foldlMemV {α : Type} (f : VRun → α → VRun) (h : ∀ r a, MemOk r.s → MemOk (f r a).s) (l : List α) (r : VRun)
    (hs : MemOk r.s) : MemOk (l.foldl f r).s := by
  induction l generalizing r with
  | nil => exact hs
  | cons a l ih => exact ih _ (h r a hs)

theorem gate_memOk (s : State) (sup : Bool) (key : Nat) (a : Answer) (hs : MemOk s) (h : MemOk a.st) :
    MemOk (gate s sup key a).st := by
  unfold gate
  repeat' first | assumption | split

theorem memOk_of {s t : State} (h1 : t.lpddr = s.lpddr) (h2 : t.tile = s.tile) (h : MemOk s) : MemOk t := by
  unfold MemOk
  rw [h1, h2]
  exact h

theorem writeTileLine_memOk (s : State) (line : ℕ) (mask : ℕ) (data : Bytes) (poison : Bool) (hs : MemOk s) :
    MemOk (writeTileLine s line mask data poison) := by
  exact ⟨hs.1, memory_wf_memStoreMask _ _ _ _ hs.2⟩

theorem writeLpddrLine_memOk (s : State) (line : ℕ) (mask : ℕ) (data : Bytes) (poison : Bool) (hs : MemOk s) :
    MemOk (writeLpddrLine s line mask data poison) := by
  unfold writeLpddrLine
  split
  · exact ⟨memory_wf_memStoreMask _ _ _ _ (memory_wf_memStore _ _ _ hs.1), hs.2⟩
  · exact ⟨memory_wf_memStoreMask _ _ _ _ hs.1, hs.2⟩

theorem writeLine_memOk (s : State) (off : ℕ) (mask : ℕ) (data : Bytes) (poison : Bool) (hs : MemOk s) :
    MemOk (writeLine s off mask data poison) := by
  unfold writeLine
  repeat' first | with_reducible assumption | with_reducible refine writeTileLine_memOk _ _ _ _ _  ?_ | with_reducible refine writeLpddrLine_memOk _ _ _ _ _  ?_ | with_reducible refine foldlMem _ (fun s a h => ?_) _ _ ?_ | simp only [id_eq, noteWrite_keeps MemOk (fun _ _ => rfl)] | split

theorem writeRun_memOk (s : State) (off : ℕ) (data : Bytes) (poison : Bool) (x1 : ℕ) (hs : MemOk s) :
    MemOk (writeRun s off data poison x1) := by
  fun_induction writeRun s off data poison x1
  all_goals repeat' first | with_reducible assumption | with_reducible refine writeLine_memOk _ _ _ _ _  ?_ | with_reducible refine foldlMem _ (fun s a h => ?_) _ _ ?_ | simp only [id_eq] | split | (rename_i ih; with_reducible refine ih ?_) | simp +zetaDelta only [id_eq]

theorem writeBytes_memOk (s : State) (off : ℕ) (data : Bytes) (poison : Bool) (hs : MemOk s) :
    MemOk (writeBytes s off data poison) := by
  unfold writeBytes
  repeat' first | with_reducible assumption | with_reducible refine writeRun_memOk _ _ _ _ _  ?_ | with_reducible refine foldlMem _ (fun s a h => ?_) _ _ ?_ | simp only [id_eq] | split

theorem pastDim_memOk (s : State) (off : ℕ) (n : ℕ) (key : ℕ × ℕ × ℕ) (go : State → State)
    (h_go : ∀ s, MemOk s → MemOk ((go s))) (hs : MemOk s) :
    MemOk (pastDim s off n key go) := by
  unfold pastDim
  repeat' first | with_reducible assumption | with_reducible refine h_go _ ?_ | with_reducible refine foldlMem _ (fun s a h => ?_) _ _ ?_ | simp only [id_eq, dimStall_keeps MemOk (fun _ _ => rfl)] | split

theorem pastSnoop_memOk (s : State) (read : Bool) (lines : List ℕ) (go : State → State)
    (h_go : ∀ s, MemOk s → MemOk ((go s))) (hs : MemOk s) :
    MemOk (pastSnoop s read lines go) := by
  unfold pastSnoop
  repeat' first | with_reducible assumption | with_reducible refine h_go _ ?_ | with_reducible refine foldlMem _ (fun s a h => ?_) _ _ ?_ | simp only [id_eq, backInvalidate_keeps MemOk (fun _ _ => rfl)] | split

theorem pastLocal_memOk (s : State) (off : ℕ) (n : ℕ) (key : ℕ × ℕ × ℕ) (go : State → State)
    (h_go : ∀ s, MemOk s → MemOk ((go s))) (hs : MemOk s) :
    MemOk (pastLocal s off n key go) := by
  unfold pastLocal
  repeat' first | with_reducible assumption | with_reducible refine pastDim_memOk _ _ _ _ _ (fun _ h => ?_) ?_ | with_reducible refine pastSnoop_memOk _ _ _ _ (fun _ h => ?_) ?_ | with_reducible refine h_go _ ?_ | with_reducible refine foldlMem _ (fun s a h => ?_) _ _ ?_ | simp only [id_eq] | split

theorem readPastDim_memOk (s : State) (addr : ℕ) (n : ℕ) (key : ℕ × ℕ × ℕ) (go : State → State)
    (h_go : ∀ s, MemOk s → MemOk ((go s))) (hs : MemOk s) :
    MemOk (readPastDim s addr n key go) := by
  unfold readPastDim
  repeat' first | with_reducible assumption | with_reducible refine pastLocal_memOk _ _ _ _ _ (fun _ h => ?_) ?_ | with_reducible refine h_go _ ?_ | with_reducible refine foldlMem _ (fun s a h => ?_) _ _ ?_ | simp only [id_eq] | split

theorem writeQueueMem_memOk (s : State) (addr : ℕ) (data : Bytes) (hs : MemOk s) :
    MemOk (writeQueueMem s addr data) := by
  unfold writeQueueMem
  repeat' first | with_reducible assumption | with_reducible refine writeBytes_memOk _ _ _ _  ?_ | with_reducible refine foldlMem _ (fun s a h => ?_) _ _ ?_ | simp only [id_eq, countAddrError_keeps MemOk (fun _ _ => rfl), emit_keeps MemOk (fun _ _ => rfl)] | split

theorem putRecord_memOk (s : State) (q : ℕ) (v : Queue) (words : List Word64) (hs : MemOk s) :
    MemOk (putRecord s q v words) := by
  unfold putRecord
  repeat' first | with_reducible assumption | with_reducible refine writeQueueMem_memOk _ _ _  ?_ | with_reducible refine foldlMem _ (fun s a h => ?_) _ _ ?_ | simp only [id_eq, raiseCpl_keeps MemOk (fun _ _ => rfl), updQ_keeps MemOk (fun _ _ => rfl)] | split

theorem writeRecord_memOk (s : State) (q : ℕ) (words : List Word64) (hs : MemOk s) :
    MemOk (writeRecord s q words) := by
  unfold writeRecord
  repeat' first | with_reducible assumption | with_reducible refine putRecord_memOk _ _ _ _  ?_ | with_reducible refine foldlMem _ (fun s a h => ?_) _ _ ?_ | simp only [id_eq, parkRecord_keeps MemOk (fun _ _ => rfl)] | split

theorem writeSpare_memOk (s : State) (q : ℕ) (words : List Word64) (hs : MemOk s) :
    MemOk (writeSpare s q words) := by
  unfold writeSpare
  repeat' first | with_reducible assumption | with_reducible refine putRecord_memOk _ _ _ _  ?_ | with_reducible refine foldlMem _ (fun s a h => ?_) _ _ ?_ | simp only [id_eq, parkRecord_keeps MemOk (fun _ _ => rfl)] | split

theorem finishDesc_memOk (s : State) (d : Done) (hs : MemOk s) :
    MemOk (finishDesc s d) := by
  unfold finishDesc
  repeat' first | with_reducible assumption | with_reducible refine putRecord_memOk _ _ _ _  ?_ | with_reducible refine foldlMem _ (fun s a h => ?_) _ _ ?_ | simp only [id_eq, endDesc_keeps MemOk (fun _ _ => rfl), parkRecord_keeps MemOk (fun _ _ => rfl)] | split

theorem unpark_memOk (s : State) (q : ℕ) (v : Queue) (w : Parked) (hs : MemOk s) :
    ∀ t, unpark s q v w = some t → MemOk t := by
  intro t ht
  unfold unpark at ht
  split at ht <;> split at ht <;> first | (cases ht; done) | (injection ht with ht; subst ht)
  · exact (endDesc_keeps MemOk (fun _ _ => rfl) _ _ _).symm ▸ putRecord_memOk _ _ _ _ hs
  · exact putRecord_memOk _ _ _ _ hs

theorem drainRing_memOk (s : State) (q : ℕ) (x1 : ℕ) (hs : MemOk s) :
    MemOk (drainRing s q x1) := by
  fun_induction drainRing s q x1
  all_goals repeat' first | with_reducible assumption | with_reducible refine unpark_memOk _ _ _ _ ?_ _ ‹unpark _ _ _ _ = some _› | with_reducible refine foldlMem _ (fun s a h => ?_) _ _ ?_ | simp only [id_eq, askSlot_keeps MemOk (fun _ _ => rfl), updQ_keeps MemOk (fun _ _ => rfl)] | split | (rename_i ih; with_reducible refine ih ?_) | simp +zetaDelta only [id_eq, askSlot_keeps MemOk (fun _ _ => rfl), updQ_keeps MemOk (fun _ _ => rfl)]

theorem layerDies_memOk (s : State) (l : Layer) (status : ℕ) (hs : MemOk s) :
    MemOk (layerDies s l status) := by
  have h0 : ∀ s x0, MemOk { s with layers := x0 } = MemOk s := fun s x0 => rfl
  unfold layerDies
  repeat' first | with_reducible assumption | with_reducible refine finishDesc_memOk _ _  ?_ | with_reducible refine foldlMem _ (fun s a h => ?_) _ _ ?_ | simp only [id_eq, cutAttempt_keeps MemOk (fun _ _ => rfl), h0] | split

theorem layerHook_memOk (s : State) (d : Done) (trapped : Bool) (hs : MemOk s) :
    MemOk (layerHook s d trapped) := by
  unfold layerHook
  repeat' first | with_reducible assumption | with_reducible refine layerDies_memOk _ _ _  ?_ | with_reducible refine foldlMem _ (fun s a h => ?_) _ _ ?_ | simp only [id_eq, cutAttempt_keeps MemOk (fun _ _ => rfl), updLayer_keeps MemOk (fun _ _ => rfl)] | split

theorem completeDesc_memOk (s : State) (d : Done) (hs : MemOk s) :
    MemOk (completeDesc s d) := by
  unfold completeDesc
  repeat' first | with_reducible assumption | with_reducible refine finishDesc_memOk _ _  ?_ | with_reducible refine layerHook_memOk _ _ _  ?_ | with_reducible refine foldlMem _ (fun s a h => ?_) _ _ ?_ | simp only [id_eq] | split

theorem rejectDesc_memOk (s : State) (d : Issued) (status : ℕ) (engine : ℕ) (hs : MemOk s) :
    MemOk (rejectDesc s d status engine) := by
  unfold rejectDesc
  repeat' first | with_reducible assumption | with_reducible refine completeDesc_memOk _ _  ?_ | with_reducible refine foldlMem _ (fun s a h => ?_) _ _ ?_ | simp only [id_eq] | split

theorem abortRecord_memOk (s : State) (q : ℕ) (seq : ℕ) (op : ℕ) (engine : ℕ) (body : List Word64) (hs : MemOk s) :
    MemOk (abortRecord s q seq op engine body) := by
  unfold abortRecord
  repeat' first | with_reducible assumption | with_reducible refine writeSpare_memOk _ _ _  ?_ | with_reducible refine foldlMem _ (fun s a h => ?_) _ _ ?_ | simp only [id_eq] | split

theorem abortRecords_memOk (s : State) (q : ℕ) (x1 : List (ℕ × ℕ × ℕ)) (hs : MemOk s) :
    MemOk (abortRecords s q x1) := by
  fun_induction abortRecords s q x1
  all_goals repeat' first | with_reducible assumption | with_reducible refine abortRecord_memOk _ _ _ _ _ _  ?_ | with_reducible refine foldlMem _ (fun s a h => ?_) _ _ ?_ | simp only [id_eq] | split | (rename_i ih; with_reducible refine ih ?_) | simp +zetaDelta only [id_eq]

theorem abortLayers_memOk (s : State) (q : ℕ) (x1 : List Layer) (hs : MemOk s) :
    MemOk (abortLayers s q x1) := by
  fun_induction abortLayers s q x1
  all_goals repeat' first | with_reducible assumption | with_reducible refine abortRecord_memOk _ _ _ _ _ _  ?_ | with_reducible refine foldlMem _ (fun s a h => ?_) _ _ ?_ | simp only [id_eq] | split | (rename_i ih; with_reducible refine ih ?_) | simp +zetaDelta only [id_eq]

theorem abortQueue_memOk (s : State) (q : ℕ) (hs : MemOk s) :
    MemOk (abortQueue s q) := by
  have hu : ∀ s' f, MemOk s' → MemOk (updQ s' q f) := fun s' f h => by
    rw [updQ_keeps MemOk (fun _ _ => rfl)]; exact h
  unfold abortQueue
  split
  · exact hs
  · dsimp only
    split
    · refine hu _ _ (abortLayers_memOk _ _ _ (abortRecords_memOk _ _ _ (hu _ _ ?_)))
      refine memOk_of ?_ ?_ hs
      · simp only [dropStreams_keeps State.lpddr (fun _ _ => rfl)]
      · simp only [dropStreams_keeps State.tile (fun _ _ => rfl)]
    · exact hs

theorem cplHeadWrite_memOk (s : State) (q : ℕ) (w : ℕ) (hs : MemOk s) :
    MemOk (cplHeadWrite s q w) := by
  unfold cplHeadWrite
  repeat' first | with_reducible assumption | with_reducible refine drainRing_memOk _ _ _  ?_ | with_reducible refine foldlMem _ (fun s a h => ?_) _ _ ?_ | simp only [id_eq, updQ_keeps MemOk (fun _ _ => rfl)] | split

theorem pageWrite_memOk (s : State) (q : ℕ) (reg : ℕ) (w : ℕ) (hs : MemOk s) :
    MemOk (pageWrite s q reg w) := by
  unfold pageWrite
  repeat' first | with_reducible assumption | with_reducible refine abortQueue_memOk _ _  ?_ | with_reducible refine cplHeadWrite_memOk _ _ _  ?_ | with_reducible refine foldlMem _ (fun s a h => ?_) _ _ ?_ | simp only [id_eq, doorbellWrite_keeps MemOk (fun _ _ => rfl), irqWrite_keeps MemOk (fun _ _ => rfl), discardQueue_keeps MemOk (fun _ _ => rfl), updQ_keeps MemOk (fun _ _ => rfl), releaseQueue_keeps MemOk (fun _ _ => rfl)] | split

theorem pageStoreWords_memOk (s : State) (line : ℕ) (mask : ℕ) (data : Bytes) (x1 : List ℕ) (hs : MemOk s) :
    MemOk (pageStoreWords s line mask data x1) := by
  induction x1 generalizing s with
  | nil => exact hs
  | cons k r ih =>
    unfold pageStoreWords
    refine ih _ ?_
    split
    · exact pageWrite_memOk _ _ _ _ hs
    · split
      · exact pageWrite_memOk _ _ _ _ hs
      · exact hs

theorem pageStore_memOk (s : State) (line : ℕ) (mask : ℕ) (data : Bytes) (hs : MemOk s) :
    MemOk (pageStore s line mask data) := by
  unfold pageStore
  repeat' first | with_reducible assumption | with_reducible refine pageStoreWords_memOk _ _ _ _ _  ?_ | with_reducible refine foldlMem _ (fun s a h => ?_) _ _ ?_ | simp only [id_eq] | split

theorem localPut_memOk (s : State) (line : ℕ) (mask : ℕ) (data : Bytes) (poison : Bool) (hs : MemOk s) :
    MemOk (localPut s line mask data poison) := by
  unfold localPut
  repeat' first | with_reducible assumption | with_reducible refine pageStore_memOk _ _ _ _  ?_ | with_reducible refine writeLine_memOk _ _ _ _ _  ?_ | with_reducible refine foldlMem _ (fun s a h => ?_) _ _ ?_ | simp only [id_eq, countAddrError_keeps MemOk (fun _ _ => rfl), syncPut_keeps MemOk (fun _ _ => rfl)] | split

theorem endStream_memOk (s : State) (e : ℕ) (c : StreamCtx) (status : Option ℕ) (hs : MemOk s) :
    MemOk (endStream s e c status) := by
  have h0 : ∀ s x0, MemOk { s with claims := x0 } = MemOk s := fun s x0 => rfl
  unfold endStream
  repeat' first | with_reducible assumption | with_reducible refine completeDesc_memOk _ _  ?_ | with_reducible refine foldlMem _ (fun s a h => ?_) _ _ ?_ | simp only [id_eq, dropCtx_keeps MemOk (fun _ _ => rfl), objInc_keeps MemOk (fun _ _ => rfl), dropClaim_keeps MemOk (fun _ _ => rfl), h0] | split

theorem advance_memOk (s : State) (e : ℕ) (q : ℕ) (seq : ℕ) (hs : MemOk s) :
    MemOk (advance s e q seq) := by
  unfold advance
  repeat' first | with_reducible assumption | with_reducible refine endStream_memOk _ _ _ _  ?_ | with_reducible refine foldlMem _ (fun s a h => ?_) _ _ ?_ | simp only [id_eq, tileSignals_keeps MemOk (fun _ _ => rfl)] | split

theorem placeSlice_memOk (s : State) (slice : ℕ) (fmt : ℕ) (scale : Bool) (bs : List UByte) (x1 : List ℕ) (hs : MemOk s) :
    MemOk (placeSlice s slice fmt scale bs x1) := by
  fun_induction placeSlice s slice fmt scale bs x1
  all_goals repeat' first | with_reducible assumption | with_reducible refine writeTileLine_memOk _ _ _ _ _  ?_ | with_reducible refine foldlMem _ (fun s a h => ?_) _ _ ?_ | simp only [id_eq] | split | (rename_i ih; with_reducible refine ih ?_) | simp +zetaDelta only [id_eq]

theorem fixScales_memOk (s : State) (slice : ℕ) (ws : List Word64) (x1 : List ℕ) (hs : MemOk s) :
    MemOk (fixScales s slice ws x1) := by
  fun_induction fixScales s slice ws x1
  all_goals repeat' first | with_reducible assumption | with_reducible refine writeTileLine_memOk _ _ _ _ _  ?_ | with_reducible refine foldlMem _ (fun s a h => ?_) _ _ ?_ | simp only [id_eq] | split | (rename_i ih; with_reducible refine ih ?_) | simp +zetaDelta only [id_eq]

theorem putLocal_memOk (s : State) (top : ℕ) (fmt : ℕ) (scale : Bool) (bs : List UByte) (x1 : List ℕ) (hs : MemOk s) :
    MemOk (putLocal s top fmt scale bs x1).1 := by
  fun_induction putLocal s top fmt scale bs x1
  all_goals repeat' first | with_reducible assumption | with_reducible refine localPut_memOk _ _ _ _ _  ?_ | with_reducible refine foldlMem _ (fun s a h => ?_) _ _ ?_ | simp only [id_eq] | split | (rename_i ih; with_reducible refine ih ?_) | simp +zetaDelta only [id_eq]

theorem writePhase_memOk (s : State) (e : ℕ) (c : StreamCtx) (r : Req) (bs : List UByte) (hs : MemOk s) :
    MemOk (writePhase s e c r bs) := by
  unfold writePhase
  repeat' first | with_reducible assumption | with_reducible refine putLocal_memOk _ _ _ _ _ _  ?_ | with_reducible refine foldlMem _ (fun s a h => ?_) _ _ ?_ | (have e := congrArg Prod.fst ‹putLocal _ _ _ _ _ _ = _›; dsimp only at e; rw [← e]; refine putLocal_memOk _ _ _ _ _ _ ?_) | simp only [id_eq, sendStores_keeps MemOk (fun _ _ => rfl), updCtx_keeps MemOk (fun _ _ => rfl), objInc_keeps MemOk (fun _ _ => rfl)] | split

theorem inPhase_memOk (s : State) (e : ℕ) (c : StreamCtx) (r : Req) (bs : List UByte) (hs : MemOk s) :
    MemOk (inPhase s e c r bs) := by
  unfold inPhase
  repeat' first | with_reducible assumption | with_reducible refine fixScales_memOk _ _ _ _  ?_ | with_reducible refine placeSlice_memOk _ _ _ _ _ _  ?_ | with_reducible refine foldlMem _ (fun s a h => ?_) _ _ ?_ | simp only [id_eq, updCtx_keeps MemOk (fun _ _ => rfl)] | split

theorem finishReq_memOk (s : State) (e : ℕ) (c : StreamCtx) (r : Req) (o : FarOutcome) (hs : MemOk s) :
    MemOk (finishReq s e c r o) := by
  unfold finishReq
  repeat' first | with_reducible assumption | with_reducible refine writePhase_memOk _ _ _ _ _  ?_ | with_reducible refine advance_memOk _ _ _ _  ?_ | with_reducible refine inPhase_memOk _ _ _ _ _  ?_ | with_reducible refine foldlMem _ (fun s a h => ?_) _ _ ?_ | simp only [id_eq, updCtx_keeps MemOk (fun _ _ => rfl), afterRead_keeps MemOk (fun _ _ => rfl), pageFault_keeps MemOk (fun _ _ => rfl), countReserved_keeps MemOk (fun _ _ => rfl), dropReads_keeps MemOk (fun _ _ => rfl), markFresh_keeps MemOk (fun _ _ => rfl), tallied_keeps MemOk (fun _ _ => rfl)] | split

theorem readPhase_memOk (s : State) (e : ℕ) (c : StreamCtx) (r : Req) (hs : MemOk s) :
    MemOk (readPhase s e c r) := by
  unfold readPhase
  repeat' first | with_reducible assumption | with_reducible refine finishReq_memOk _ _ _ _ _  ?_ | with_reducible refine foldlMem _ (fun s a h => ?_) _ _ ?_ | simp only [id_eq, backInvalidate_keeps MemOk (fun _ _ => rfl), updCtx_keeps MemOk (fun _ _ => rfl), askRead_keeps MemOk (fun _ _ => rfl), objInc_keeps MemOk (fun _ _ => rfl), emit_keeps MemOk (fun _ _ => rfl), sendRequest_keeps MemOk (fun _ _ => rfl), atsHold_keeps MemOk (fun _ _ => rfl)] | split

theorem issueOut_memOk (s : State) (e : ℕ) (c : StreamCtx) (r0 : Req) (upTo : ℕ) (tst : List TstEvent) (hs : MemOk s) :
    MemOk (issueOut s e c r0 upTo tst) := by
  unfold issueOut
  repeat' first | with_reducible assumption | with_reducible refine writePhase_memOk _ _ _ _ _  ?_ | with_reducible refine advance_memOk _ _ _ _  ?_ | with_reducible refine foldlMem _ (fun s a h => ?_) _ _ ?_ | simp only [id_eq, backInvalidate_keeps MemOk (fun _ _ => rfl), updCtx_keeps MemOk (fun _ _ => rfl), tallied_keeps MemOk (fun _ _ => rfl), applyTst_keeps MemOk (fun _ _ => rfl), addReq_keeps MemOk (fun _ _ => rfl)] | split

theorem issueReq_memOk (s : State) (e : ℕ) (c : StreamCtx) (scale : Bool) (u : ℕ) (tst : List TstEvent) (hs : MemOk s) :
    MemOk (issueReq s e c scale u tst) := by
  unfold issueReq
  repeat' first | with_reducible assumption | with_reducible refine issueOut_memOk _ _ _ _ _ _  ?_ | with_reducible refine readPhase_memOk _ _ _ _  ?_ | with_reducible refine foldlMem _ (fun s a h => ?_) _ _ ?_ | simp only [id_eq, addReq_keeps MemOk (fun _ _ => rfl)] | split

theorem issueScan_memOk (s : State) (e : ℕ) (tst : List TstEvent) (x1 : List ℕ) (hs : MemOk s) :
    MemOk (issueScan s e tst x1) := by
  fun_induction issueScan s e tst x1
  all_goals repeat' first | with_reducible assumption | with_reducible refine issueReq_memOk _ _ _ _ _ _  ?_ | with_reducible refine foldlMem _ (fun s a h => ?_) _ _ ?_ | simp only [id_eq, addWait_keeps MemOk (fun _ _ => rfl), updCtx_keeps MemOk (fun _ _ => rfl), objInc_keeps MemOk (fun _ _ => rfl), updEngine_keeps MemOk (fun _ _ => rfl)] | split | (rename_i ih; with_reducible refine ih ?_) | simp +zetaDelta only [id_eq, addWait_keeps MemOk (fun _ _ => rfl), updCtx_keeps MemOk (fun _ _ => rfl), objInc_keeps MemOk (fun _ _ => rfl), updEngine_keeps MemOk (fun _ _ => rfl)]

theorem startStream_memOk (s : State) (e : ℕ) (c : StreamCtx) (hs : MemOk s) :
    MemOk (startStream s e c) := by
  unfold startStream
  repeat' first | with_reducible assumption | with_reducible refine rejectDesc_memOk _ _ _ _  ?_ | with_reducible refine foldlMem _ (fun s a h => ?_) _ _ ?_ | simp only [id_eq, updCtx_keeps MemOk (fun _ _ => rfl), dropCtx_keeps MemOk (fun _ _ => rfl), requestClaim_keeps MemOk (fun _ _ => rfl)] | split

theorem streamStartAt_memOk (s : State) (e : ℕ) (hs : MemOk s) :
    MemOk (streamStartAt s e) := by
  unfold streamStartAt
  repeat' first | with_reducible assumption | with_reducible refine startStream_memOk _ _ _  ?_ | with_reducible refine foldlMem _ (fun s a h => ?_) _ _ ?_ | simp only [id_eq] | split

theorem streamDoneAt_memOk (s : State) (e : ℕ) (seq : ℕ) (id : ℕ) (o : FarOutcome) (hs : MemOk s) :
    MemOk (streamDoneAt s e seq id o) := by
  unfold streamDoneAt
  repeat' first | with_reducible assumption | with_reducible refine finishReq_memOk _ _ _ _ _  ?_ | with_reducible refine foldlMem _ (fun s a h => ?_) _ _ ?_ | simp only [id_eq, backInvalidate_keeps MemOk (fun _ _ => rfl), linesFound_keeps MemOk (fun _ _ => rfl), dimStall_keeps MemOk (fun _ _ => rfl), forgetBad_keeps MemOk (fun _ _ => rfl)] | split

theorem unreadable_memOk (s : State) (q : ℕ) (seq : ℕ) (inLayer : Bool) (hs : MemOk s) :
    MemOk (unreadable s q seq inLayer) := by
  unfold unreadable
  repeat' first | with_reducible assumption | with_reducible refine writeSpare_memOk _ _ _  ?_ | with_reducible refine layerHook_memOk _ _ _  ?_ | with_reducible refine foldlMem _ (fun s a h => ?_) _ _ ?_ | simp only [id_eq, trapQueue_keeps MemOk (fun _ _ => rfl)] | split

theorem issueTo_memOk (s : State) (h : Half) (q : ℕ) (halves : ℕ) (f : Fetched) (hs : MemOk s) :
    MemOk (issueTo s h q halves f) := by
  unfold issueTo
  repeat' first | with_reducible assumption | with_reducible refine rejectDesc_memOk _ _ _ _  ?_ | with_reducible refine foldlMem _ (fun s a h => ?_) _ _ ?_ | simp only [id_eq, handTo_keeps MemOk (fun _ _ => rfl), markIssued_keeps MemOk (fun _ _ => rfl), updQ_keeps MemOk (fun _ _ => rfl)] | split

theorem issueFrom_memOk (s : State) (h : Half) (q : ℕ) (halves : ℕ) (x1 : List Fetched) (hs : MemOk s) :
    MemOk (issueFrom s h q halves x1).1 := by
  fun_induction issueFrom s h q halves x1
  all_goals repeat' first | with_reducible assumption | with_reducible refine issueTo_memOk _ _ _ _ _  ?_ | with_reducible refine foldlMem _ (fun s a h => ?_) _ _ ?_ | simp only [id_eq, noteStall_keeps MemOk (fun _ _ => rfl), noteWait_keeps MemOk (fun _ _ => rfl)] | split | (rename_i ih; with_reducible refine ih ?_) | simp +zetaDelta only [id_eq, noteStall_keeps MemOk (fun _ _ => rfl), noteWait_keeps MemOk (fun _ _ => rfl)]

theorem issueAny_memOk (s : State) (h : Half) (x1 : List ℕ) (hs : MemOk s) :
    MemOk (issueAny s h x1) := by
  have h0 : ∀ s x0, MemOk { s with schedRR := x0 } = MemOk s := fun s x0 => rfl
  fun_induction issueAny s h x1
  all_goals repeat' first | with_reducible assumption | with_reducible refine issueFrom_memOk _ _ _ _ _  ?_ | with_reducible refine foldlMem _ (fun s a h => ?_) _ _ ?_ | (have e := congrArg Prod.fst ‹issueFrom _ _ _ _ _ = _›; dsimp only at e; rw [← e]; refine issueFrom_memOk _ _ _ _ _ ?_) | simp only [id_eq, h0] | split | (rename_i ih; with_reducible refine ih ?_) | simp +zetaDelta only [id_eq, h0]

theorem mbxRun_memOk (s : State) (cmd : ℕ) (f : State → State)
    (h_f : ∀ s, MemOk s → MemOk ((f s))) (hs : MemOk s) :
    MemOk (mbxRun s cmd f) := by
  unfold mbxRun
  repeat' first | with_reducible assumption | with_reducible refine h_f _ ?_ | with_reducible refine foldlMem _ (fun s a h => ?_) _ _ ?_ | simp only [id_eq, mbxEnd_keeps MemOk (fun _ _ => rfl)] | split

theorem askHost_memOk (s : State) (op : ℕ) (key : ℕ) (payload : Bytes) (run : State → Role → Answer) (sup : Bool)
    (h_run : ∀ s a0, MemOk s → MemOk ((run s a0).st)) (hs : MemOk s) :
    MemOk (askHost s op key payload run sup) := by
  unfold askHost
  repeat' first | with_reducible assumption | with_reducible refine gate_memOk _ _ _ _ ?_ ?_ | with_reducible refine h_run _ _ ?_ | with_reducible refine foldlMem _ (fun s a h => ?_) _ _ ?_ | simp only [id_eq, mbxEnd_keeps MemOk (fun _ _ => rfl), hostReply_keeps MemOk (fun _ _ => rfl)] | split

theorem inSession_memOk (s : State) (x : Session) (ip : ℕ) (port : ℕ) (seq : ℕ) (op : ℕ) (run : State → Answer)
    (h_run : ∀ s, MemOk s → MemOk ((run s).st)) (hs : MemOk s) :
    MemOk (inSession s x ip port seq op run) := by
  unfold inSession
  repeat' first | with_reducible assumption | with_reducible refine h_run _ ?_ | with_reducible refine foldlMem _ (fun s a h => ?_) _ _ ?_ | simp only [id_eq, objInc_keeps MemOk (fun _ _ => rfl), emit_keeps MemOk (fun _ _ => rfl), updSession_keeps MemOk (fun _ _ => rfl)] | split

theorem askMgmt_memOk (s : State) (ip : ℕ) (port : ℕ) (session : ℕ) (seq : ℕ) (op : ℕ) (key : ℕ) (payload : Bytes) (run : State → Role → Answer) (sup : Bool)
    (h_run : ∀ s a0, MemOk s → MemOk ((run s a0).st)) (hs : MemOk s) :
    MemOk (askMgmt s ip port session seq op key payload run sup) := by
  unfold askMgmt
  repeat' first | with_reducible assumption | with_reducible refine inSession_memOk _ _ _ _ _ _ _ (fun _ h => ?_) ?_ | with_reducible refine gate_memOk _ _ _ _ ?_ ?_ | with_reducible refine h_run _ _ ?_ | with_reducible refine foldlMem _ (fun s a h => ?_) _ _ ?_ | simp only [id_eq, emit_keeps MemOk (fun _ _ => rfl), takeMsg_keeps MemOk (fun _ _ => rfl)] | split

theorem askMon_memOk (s : State) (write : Bool) (key : ℕ) (run : State → Role → Answer) (sup : Bool)
    (h_run : ∀ s a0, MemOk s → MemOk ((run s a0).st)) (hs : MemOk s) :
    MemOk (askMon s write key run sup) := by
  unfold askMon
  repeat' first | with_reducible assumption | with_reducible refine gate_memOk _ _ _ _ ?_ ?_ | with_reducible refine h_run _ _ ?_ | with_reducible refine foldlMem _ (fun s a h => ?_) _ _ ?_ | simp only [id_eq, objInc_keeps MemOk (fun _ _ => rfl), emit_keeps MemOk (fun _ _ => rfl), monReply_keeps MemOk (fun _ _ => rfl)] | split

theorem ask_memOk (s : State) (r : Route) (sup : Bool) (op : ℕ) (key : ℕ) (payload : Bytes) (run : State → Role → Answer)
    (h_run : ∀ s a0, MemOk s → MemOk ((run s a0).st)) (hs : MemOk s) :
    MemOk (ask s r sup op key payload run) := by
  unfold ask
  repeat' first | with_reducible assumption | with_reducible refine askMgmt_memOk _ _ _ _ _ _ _ _ _ _ (fun _ _ h => ?_) ?_ | with_reducible refine askHost_memOk _ _ _ _ _ _ (fun _ _ h => ?_) ?_ | with_reducible refine askMon_memOk _ _ _ _ _ (fun _ _ h => ?_) ?_ | with_reducible refine h_run _ _ ?_ | with_reducible refine foldlMem _ (fun s a h => ?_) _ _ ?_ | simp only [id_eq] | split

theorem writeNum_memOk (s : State) (r : Route) (role : Role) (key : ℕ) (v : Bytes) (own : State → ℕ → ℕ) (effect : State → ℕ → State)
    (h_effect : ∀ s a0, MemOk s → MemOk ((effect s a0))) (hs : MemOk s) :
    MemOk (writeNum s r role key v own effect).st := by
  unfold writeNum
  repeat' first | with_reducible assumption | with_reducible refine h_effect _ _ ?_ | with_reducible refine foldlMem _ (fun s a h => ?_) _ _ ?_ | simp only [id_eq, applyNum_keeps MemOk (fun _ _ => rfl)] | split

theorem writeRow_memOk (s : State) (r : Route) (key : ℕ) (v : Bytes) (sup : Bool) (own : State → ℕ → ℕ) (effect : State → ℕ → State)
    (h_effect : ∀ s a0, MemOk s → MemOk ((effect s a0))) (hs : MemOk s) :
    MemOk (writeRow s r key v sup own effect) := by
  unfold writeRow
  repeat' first | with_reducible assumption | with_reducible refine writeNum_memOk _ _ _ _ _ _ _ (fun _ _ h => ?_) ?_ | with_reducible refine ask_memOk _ _ _ _ _ _ _ (fun _ _ h => ?_) ?_ | with_reducible refine h_effect _ _ ?_ | with_reducible refine foldlMem _ (fun s a h => ?_) _ _ ?_ | simp only [id_eq] | split

theorem fuseWrite_memOk (s : State) (r : Route) (role : Role) (key : ℕ) (left : ℕ) (n : ℕ) (last : Bool) (burnt : Bool) (effect : State → State)
    (h_effect : ∀ s, MemOk s → MemOk ((effect s))) (hs : MemOk s) :
    MemOk (fuseWrite s r role key left n last burnt effect).st := by
  unfold fuseWrite
  repeat' first | with_reducible assumption | with_reducible refine h_effect _ ?_ | with_reducible refine foldlMem _ (fun s a h => ?_) _ _ ?_ | simp only [id_eq, objInc_keeps MemOk (fun _ _ => rfl), journalWrite_keeps MemOk (fun _ _ => rfl), objPut_keeps MemOk (fun _ _ => rfl)] | split

theorem fuseRow_memOk (s : State) (r : Route) (key : ℕ) (left : ℕ) (v : Bytes) (burnt : Bool) (own : State → ℕ → ℕ) (effect : State → State)
    (h_effect : ∀ s, MemOk s → MemOk ((effect s))) (hs : MemOk s) :
    MemOk (fuseRow s r key left v burnt own effect) := by
  unfold fuseRow
  repeat' first | with_reducible assumption | with_reducible refine fuseWrite_memOk _ _ _ _ _ _ _ _ _ (fun _ h => ?_) ?_ | with_reducible refine ask_memOk _ _ _ _ _ _ _ (fun _ _ h => ?_) ?_ | with_reducible refine h_effect _ ?_ | with_reducible refine foldlMem _ (fun s a h => ?_) _ _ ?_ | simp only [id_eq] | split

theorem commitDom_memOk (s : State) (r : Route) (role : Role) (x : Xfer) (digest : Bytes) (check : ℕ → Bool) (own : State → Bytes → ℕ) (effect : State → Bytes → State) (refused : (State → State))
    (h_effect : ∀ s a0, MemOk s → MemOk ((effect s a0))) (h_refused : ∀ s, MemOk s → MemOk ((refused s))) (hs : MemOk s) :
    MemOk (commitDom s r role x digest check own effect refused).st := by
  unfold commitDom
  dsimp only
  have hd : MemOk (dropXfer s x.handle) := cast (dropXfer_keeps MemOk (fun _ _ => rfl) s x.handle).symm hs
  have he : ∀ s key row image, MemOk s → MemOk (applyDom s r role row key image) := fun s key row image h =>
    cast (applyDom_keeps MemOk (fun _ _ => rfl) s r role row key image).symm h
  repeat' first | with_reducible assumption | with_reducible exact h_refused _ hd | with_reducible exact h_effect _ _ (he _ _ _ _ hd) | split

theorem commitRow_memOk (s : State) (r : Route) (key : ℕ) (handle : ℕ) (digest : Bytes) (sup : Bool) (check : ℕ → Bool) (own : State → Bytes → ℕ) (effect : State → Bytes → State) (refused : (State → State))
    (h_effect : ∀ s a0, MemOk s → MemOk ((effect s a0))) (h_refused : ∀ s, MemOk s → MemOk ((refused s))) (hs : MemOk s) :
    MemOk (commitRow s r key handle digest sup check own effect refused) := by
  unfold commitRow
  repeat' first | with_reducible assumption | with_reducible refine commitDom_memOk _ _ _ _ _ _ _ _ _ (fun _ _ h => ?_) (fun _ h => ?_) ?_ | with_reducible refine ask_memOk _ _ _ _ _ _ _ (fun _ _ h => ?_) ?_ | with_reducible refine h_effect _ _ ?_ | with_reducible refine h_refused _ ?_ | with_reducible refine foldlMem _ (fun s a h => ?_) _ _ ?_ | simp only [id_eq] | split

theorem atomicAt_memOk (s : State) (off : ℕ) (op : ℕ) (w64 : Bool) (a : ℕ) (b : ℕ) (hs : MemOk s) :
    MemOk (atomicAt s off op w64 a b).st := by
  unfold atomicAt
  repeat' first | with_reducible assumption | with_reducible refine writeBytes_memOk _ _ _ _  ?_ | with_reducible refine foldlMem _ (fun s a h => ?_) _ _ ?_ | simp only [id_eq, syncAdd_keeps MemOk (fun _ _ => rfl), countAddrError_keeps MemOk (fun _ _ => rfl), holdWord_keeps MemOk (fun _ _ => rfl), freeStep_keeps MemOk (fun _ _ => rfl)] | split

theorem retireAll_memOk (s : State) (nn : ℕ) (x1 : List Issued) (hs : MemOk s) :
    MemOk (retireAll s nn x1) := by
  fun_induction retireAll s nn x1
  all_goals repeat' first | with_reducible assumption | with_reducible refine rejectDesc_memOk _ _ _ _  ?_ | with_reducible refine foldlMem _ (fun s a h => ?_) _ _ ?_ | simp only [id_eq] | split | (rename_i ih; with_reducible refine ih ?_) | simp +zetaDelta only [id_eq]

theorem retireArray_memOk (s : State) (nn : ℕ) (hs : MemOk s) :
    MemOk (retireArray s nn) := by
  have h0 : ∀ s x0, MemOk { s with vecs := x0 } = MemOk s := fun s x0 => rfl
  unfold retireArray
  repeat' first | with_reducible assumption | with_reducible refine retireAll_memOk _ _ _  ?_ | with_reducible refine foldlMem _ (fun s a h => ?_) _ _ ?_ | simp only [id_eq, objBit_keeps MemOk (fun _ _ => rfl), updArray_keeps MemOk (fun _ _ => rfl), journalAlert_keeps MemOk (fun _ _ => rfl), h0] | split

theorem missEvent_memOk (s : State) (nn : ℕ) (hs : MemOk s) :
    MemOk (missEvent s nn) := by
  unfold missEvent
  repeat' first | with_reducible assumption | with_reducible refine retireArray_memOk _ _  ?_ | with_reducible refine foldlMem _ (fun s a h => ?_) _ _ ?_ | simp only [id_eq, objInc_keeps MemOk (fun _ _ => rfl), updArray_keeps MemOk (fun _ _ => rfl)] | split

theorem takeArray_memOk (s : State) (nn : ℕ) (d : Issued) (r : List Issued) (hs : MemOk s) :
    MemOk (takeArray s nn d r) := by
  unfold takeArray
  repeat' first | with_reducible assumption | with_reducible refine rejectDesc_memOk _ _ _ _  ?_ | with_reducible refine foldlMem _ (fun s a h => ?_) _ _ ?_ | simp only [id_eq, beginArray_keeps MemOk (fun _ _ => rfl), updArray_keeps MemOk (fun _ _ => rfl)] | split

theorem arrayPass_memOk (s : State) (nn : ℕ) (tst : List TstEvent) (hs : MemOk s) :
    MemOk (arrayPass s nn tst) := by
  unfold arrayPass
  repeat' first | with_reducible assumption | with_reducible refine takeArray_memOk _ _ _ _  ?_ | with_reducible refine foldlMem _ (fun s a h => ?_) _ _ ?_ | simp only [id_eq, preload_keeps MemOk (fun _ _ => rfl), leaveCells_keeps MemOk (fun _ _ => rfl), applyTst_keeps MemOk (fun _ _ => rfl)] | split

theorem arrayDone_memOk (s : State) (nn : ℕ) (hs : MemOk s) :
    MemOk (arrayDone s nn) := by
  unfold arrayDone
  repeat' first | with_reducible assumption | with_reducible refine missEvent_memOk _ _  ?_ | with_reducible refine retireArray_memOk _ _  ?_ | with_reducible refine completeDesc_memOk _ _  ?_ | with_reducible refine foldlMem _ (fun s a h => ?_) _ _ ?_ | simp only [id_eq, updArray_keeps MemOk (fun _ _ => rfl)] | split

theorem putBytes_memOk (r : VRun) (a : ℕ) (bs : Bytes) (tag : Bool) (hs : MemOk r.s) :
    MemOk (putBytes r a bs tag).s := by
  exact ⟨hs.1, memory_wf_memStore _ _ _ hs.2⟩

theorem putElem_memOk (r : VRun) (nn : ℕ) (f : Fmt) (off : ℕ) (i : ℕ) (code : ℕ) (tag : Bool) (hs : MemOk r.s) :
    MemOk (putElem r nn f off i code tag).s := by
  unfold putElem
  dsimp only
  split <;> exact ⟨hs.1, memory_wf_memStore _ _ _ hs.2⟩

theorem putScaleBytes_memOk (r : VRun) (a : ℕ) (bs : Bytes) (poisoned : Bool) (hs : MemOk r.s) :
    MemOk (putScaleBytes r a bs poisoned).s := by
  unfold putScaleBytes
  split
  · exact ⟨hs.1, memory_wf_memStore _ _ _ hs.2⟩
  · exact putBytes_memOk _ _ _ _ hs

theorem putScale_memOk (r : VRun) (nn : ℕ) (ws : List Word64) (o : ℕ) (f : Fmt) (vs : List KVal) (tags : List Bool) (j : ℕ) (e : VElem) (hs : MemOk r.s) :
    MemOk (putScale r nn ws o f vs tags j e).s := by
  unfold putScale
  repeat' first | with_reducible assumption | with_reducible refine putScaleBytes_memOk _ _ _ _  ?_ | with_reducible refine foldlMem _ (fun s a h => ?_) _ _ ?_ | with_reducible refine foldlMemV _ (fun s a h => ?_) _ _ ?_ | simp only [id_eq] | split

theorem putRow_memOk (r : VRun) (c : VCfg) (nn : ℕ) (ws : List Word64) (op : ℕ) (k : ℕ) (m : ℕ) (hs : MemOk r.s) :
    MemOk (putRow r c nn ws op k m).s := by
  unfold putRow
  repeat' first | with_reducible assumption | with_reducible refine putElem_memOk _ _ _ _ _ _ _  ?_ | with_reducible refine foldlMem _ (fun s a h => ?_) _ _ ?_ | with_reducible refine foldlMemV _ (fun s a h => ?_) _ _ ?_ | simp only [id_eq] | split

theorem reduceGroup_memOk (c : VCfg) (nn : ℕ) (ws : List Word64) (op : ℕ) (k : ℕ) (x1 : List VElem) (x2 : VRun) (hs : MemOk x2.s) :
    MemOk (reduceGroup c nn ws op k x1 x2).s := by
  induction x1 generalizing x2 with
  | nil => exact hs
  | cons e es ih =>
    unfold reduceGroup
    refine ih _ ?_
    split
    · exact putRow_memOk _ _ _ _ _ _ _ hs
    · exact hs

theorem outGroup_memOk (c : VCfg) (nn : Nat) (ws : List Word64) (o : Nat) (f : Fmt) (vs : List KVal) (tags : List Bool) (es : List VElem) (j : Nat)
    (r : VRun) (hs : MemOk r.s) : MemOk (outGroup c nn ws o f vs tags es j r).2.s := by
  induction es generalizing j r with
  | nil => exact hs
  | cons e es ih => exact ih _ _ (putElem_memOk _ _ _ _ _ _ _ (putScale_memOk _ _ _ _ _ _ _ _ _ hs))

theorem vecGroup_memOk (c : VCfg) (nn : ℕ) (ws : List Word64) (prog : List ℕ) (ptag : Bool) (j0 : ℕ) (n : ℕ) (r : VRun) (hs : MemOk r.s) :
    MemOk (vecGroup c nn ws prog ptag j0 n r).s := by
  have ho : ∀ es o r, MemOk r.s → MemOk (outIf c nn ws o es r).2.s := fun es o r h => by
    unfold outIf
    repeat' first | exact h | split
    all_goals exact outGroup_memOk _ _ _ _ _ _ _ _ _ _ h
  unfold vecGroup
  dsimp only
  rw [settleLines_keeps MemOk (fun _ _ => rfl)]
  split
  · exact reduceGroup_memOk _ _ _ _ _ _ _ (ho _ _ _ (ho _ _ _ hs))
  · exact ho _ _ _ (ho _ _ _ hs)

theorem vecGroups_memOk (c : VCfg) (nn : ℕ) (ws : List Word64) (prog : List ℕ) (ptag : Bool) (x1 : ℕ) (x2 : ℕ) (x3 : VRun) (hs : MemOk x3.s) :
    MemOk (vecGroups c nn ws prog ptag x1 x2 x3).s := by
  fun_induction vecGroups c nn ws prog ptag x1 x2 x3
  all_goals repeat' first | with_reducible assumption | with_reducible refine vecGroup_memOk _ _ _ _ _ _ _ _  ?_ | with_reducible refine foldlMem _ (fun s a h => ?_) _ _ ?_ | with_reducible refine foldlMemV _ (fun s a h => ?_) _ _ ?_ | simp only [id_eq] | split | (rename_i ih; with_reducible refine ih ?_) | simp +zetaDelta only [id_eq]

theorem vecExec_memOk (s : State) (nn : ℕ) (ws : List Word64) (hs : MemOk s) :
    MemOk (vecExec s nn ws).1 := by
  have h0 : ∀ s x0, MemOk { s with free := x0 } = MemOk s := fun s x0 => rfl
  unfold vecExec
  repeat' first | with_reducible assumption | with_reducible refine vecGroups_memOk _ _ _ _ _ _ _ _  ?_ | with_reducible refine foldlMem _ (fun s a h => ?_) _ _ ?_ | with_reducible refine foldlMemV _ (fun s a h => ?_) _ _ ?_ | simp only [id_eq, h0] | split

theorem vecStart_memOk (s : State) (nn : ℕ) (op : ℕ) (tst : List TstEvent) (reject : State → ℕ → List Word64 → Option ℕ) (run : State → Issued → State × Result)
    (h_run : ∀ s a0, MemOk s → MemOk ((run s a0).1)) (hs : MemOk s) :
    MemOk (vecStart s nn op tst reject run) := by
  unfold vecStart
  repeat' first | with_reducible assumption | with_reducible refine rejectDesc_memOk _ _ _ _  ?_ | with_reducible refine h_run _ _ ?_ | with_reducible refine foldlMem _ (fun s a h => ?_) _ _ ?_ | simp only [id_eq, applyTst_keeps MemOk (fun _ _ => rfl), updVec_keeps MemOk (fun _ _ => rfl)] | split

theorem mrgColumn_memOk (nn : ℕ) (ws : List Word64) (r : VRun) (n : ℕ) (hs : MemOk r.s) :
    MemOk (mrgColumn nn ws r n).s := by
  unfold mrgColumn
  repeat' first | with_reducible assumption | with_reducible refine putBytes_memOk _ _ _ _  ?_ | with_reducible refine foldlMem _ (fun s a h => ?_) _ _ ?_ | with_reducible refine foldlMemV _ (fun s a h => ?_) _ _ ?_ | simp only [id_eq, settleLines_keeps MemOk (fun _ _ => rfl)] | split

theorem mrgExec_memOk (s : State) (nn : ℕ) (ws : List Word64) (hs : MemOk s) :
    MemOk (mrgExec s nn ws).1 := by
  unfold mrgExec
  repeat' first | with_reducible assumption | with_reducible refine mrgColumn_memOk _ _ _ _  ?_ | with_reducible refine foldlMem _ (fun s a h => ?_) _ _ ?_ | with_reducible refine foldlMemV _ (fun s a h => ?_) _ _ ?_ | simp only [id_eq] | split

theorem putScales_memOk (nn : ℕ) (ws : List Word64) (off : ℕ) (r : VRun) (vs : List KVal) (hs : MemOk r.s) :
    MemOk (putScales nn ws off r vs).s := by
  unfold putScales
  repeat' first | with_reducible assumption | with_reducible refine putBytes_memOk _ _ _ _  ?_ | with_reducible refine foldlMem _ (fun s a h => ?_) _ _ ?_ | with_reducible refine foldlMemV _ (fun s a h => ?_) _ _ ?_ | simp only [id_eq] | split

theorem scanExec_memOk (s : State) (nn : ℕ) (ws : List Word64) (hs : MemOk s) :
    MemOk (scanExec s nn ws).1 := by
  unfold scanExec
  repeat' first | with_reducible assumption | with_reducible refine putScales_memOk _ _ _ _ _  ?_ | with_reducible refine foldlMem _ (fun s a h => ?_) _ _ ?_ | with_reducible refine foldlMemV _ (fun s a h => ?_) _ _ ?_ | simp only [id_eq, settleLines_keeps MemOk (fun _ _ => rfl)] | split

theorem amaxPastDim_memOk (s : State) (nn : ℕ) (go : State → State)
    (h_go : ∀ s, MemOk s → MemOk ((go s))) (hs : MemOk s) :
    MemOk (amaxPastDim s nn go) := by
  unfold amaxPastDim
  repeat' first | with_reducible assumption | with_reducible refine pastLocal_memOk _ _ _ _ _ (fun _ h => ?_) ?_ | with_reducible refine h_go _ ?_ | with_reducible refine foldlMem _ (fun s a h => ?_) _ _ ?_ | simp only [id_eq] | split

theorem rebByte_memOk (s0 : State) (nn : ℕ) (ws : List Word64) (r : VRun) (off : ℕ) (hs : MemOk r.s) :
    MemOk (rebByte s0 nn ws r off).s := by
  unfold rebByte
  repeat' first | with_reducible assumption | with_reducible refine putBytes_memOk _ _ _ _  ?_ | with_reducible refine foldlMem _ (fun s a h => ?_) _ _ ?_ | with_reducible refine foldlMemV _ (fun s a h => ?_) _ _ ?_ | simp only [id_eq] | split

theorem rebExec_memOk (s : State) (nn : ℕ) (ws : List Word64) (hs : MemOk s) :
    MemOk (rebExec s nn ws).1 := by
  unfold rebExec
  repeat' first | with_reducible assumption | with_reducible refine rebByte_memOk _ _ _ _ _  ?_ | with_reducible refine foldlMem _ (fun s a h => ?_) _ _ ?_ | with_reducible refine foldlMemV _ (fun s a h => ?_) _ _ ?_ | simp only [id_eq, settleLines_keeps MemOk (fun _ _ => rfl)] | split

theorem vecDone_memOk (s : State) (nn : ℕ) (hs : MemOk s) :
    MemOk (vecDone s nn) := by
  unfold vecDone
  repeat' first | with_reducible assumption | with_reducible refine completeDesc_memOk _ _  ?_ | with_reducible refine foldlMem _ (fun s a h => ?_) _ _ ?_ | simp only [id_eq, updVec_keeps MemOk (fun _ _ => rfl)] | split

theorem serveRequest_memOk (s : State) (p : Packet) (off : ℕ) (tag : ℕ) (n : ℕ) (read : Bool) (run : State → Half → State)
    (h_run : ∀ s a0, MemOk s → MemOk ((run s a0))) (hs : MemOk s) :
    MemOk (serveRequest s p off tag n read run) := by
  unfold serveRequest
  repeat' first | with_reducible assumption | with_reducible refine pastDim_memOk _ _ _ _ _ (fun _ h => ?_) ?_ | with_reducible refine h_run _ _ ?_ | with_reducible refine foldlMem _ (fun s a h => ?_) _ _ ?_ | simp only [id_eq, replyTo_keeps MemOk (fun _ _ => rfl), backInvalidate_keeps MemOk (fun _ _ => rfl), takeEjected_keeps MemOk (fun _ _ => rfl), forgetBad_keeps MemOk (fun _ _ => rfl), noteAdmit_keeps MemOk (fun _ _ => rfl)] | split

theorem sequenced_memOk (s : State) (h : Half) (p : Packet) (tag : ℕ) (age : ℕ) (run : State → State × ℕ × ℕ × Bytes)
    (h_run : ∀ s, MemOk s → MemOk ((run s).1)) (hs : MemOk s) :
    MemOk (sequenced s h p tag age run) := by
  unfold sequenced
  repeat' first | with_reducible assumption | with_reducible refine h_run _ ?_ | with_reducible refine foldlMem _ (fun s a h => ?_) _ _ ?_ | simp only [id_eq, replyTo_keeps MemOk (fun _ _ => rfl), journal_keeps MemOk (fun _ _ => rfl), objInc_keeps MemOk (fun _ _ => rfl), enterReplay_keeps MemOk (fun _ _ => rfl)] | split

theorem streamAnswer_memOk (s : State) (o : Outst) (e : ℕ) (seq : ℕ) (id : ℕ) (status : ℕ) (mask : ℕ) (data : Bytes) (hs : MemOk s) :
    MemOk (streamAnswer s o e seq id status mask data) := by
  unfold streamAnswer
  repeat' first | with_reducible assumption | with_reducible refine finishReq_memOk _ _ _ _ _  ?_ | with_reducible refine foldlMem _ (fun s a h => ?_) _ _ ?_ | simp only [id_eq, updCtx_keeps MemOk (fun _ _ => rfl), fillCache_keeps MemOk (fun _ _ => rfl), tallied_keeps MemOk (fun _ _ => rfl)] | split

theorem answer_memOk (s : State) (o : Outst) (status : ℕ) (mask : ℕ) (data : Bytes) (hs : MemOk s) :
    MemOk (answer s o status mask data) := by
  unfold answer
  repeat' first | with_reducible assumption | with_reducible refine streamAnswer_memOk _ _ _ _ _ _ _ _  ?_ | with_reducible refine foldlMem _ (fun s a h => ?_) _ _ ?_ | simp only [id_eq, releaseTag_keeps MemOk (fun _ _ => rfl), remoteSignalFailed_keeps MemOk (fun _ _ => rfl), updVec_keeps MemOk (fun _ _ => rfl)] | split

theorem writeLines_memOk (s : State) (off : ℕ) (mask : ℕ) (data : Bytes) (x1 : ℕ) (hs : MemOk s) :
    MemOk (writeLines s off mask data x1) := by
  fun_induction writeLines s off mask data x1
  all_goals repeat' first | with_reducible assumption | with_reducible refine writeBytes_memOk _ _ _ _  ?_ | with_reducible refine foldlMem _ (fun s a h => ?_) _ _ ?_ | simp only [id_eq] | split | (rename_i ih; with_reducible refine ih ?_) | simp +zetaDelta only [id_eq]

theorem writeResult_memOk (s : State) (ws : List Word64) (c : ℕ) (seg : ℕ) (pos : ℕ) (mask : ℕ) (data : Bytes) (hs : MemOk s) :
    MemOk (writeResult s ws c seg pos mask data) := by
  unfold writeResult
  repeat' first | with_reducible assumption | with_reducible refine writeLines_memOk _ _ _ _ _  ?_ | with_reducible refine writeBytes_memOk _ _ _ _  ?_ | with_reducible refine foldlMem _ (fun s a h => ?_) _ _ ?_ | simp only [id_eq, updColl_keeps MemOk (fun _ _ => rfl)] | split

theorem passResult_memOk (s : State) (ws : List Word64) (h : CollHdr) (hs : MemOk s) :
    MemOk (passResult s ws h) := by
  unfold passResult
  repeat' first | with_reducible assumption | with_reducible refine writeResult_memOk _ _ _ _ _ _ _  ?_ | with_reducible refine foldlMem _ (fun s a h => ?_) _ _ ?_ | simp only [id_eq, updColl_keeps MemOk (fun _ _ => rfl), spreadAt_keeps MemOk (fun _ _ => rfl)] | split

theorem spread_memOk (s : State) (ws : List Word64) (level : ℕ) (c : ℕ) (seg : ℕ) (vs : List BankVal) (inv : List ℕ) (hs : MemOk s) :
    MemOk (spread s ws level c seg vs inv) := by
  unfold spread
  repeat' first | with_reducible assumption | with_reducible refine passResult_memOk _ _ _  ?_ | with_reducible refine foldlMem _ (fun s a h => ?_) _ _ ?_ | simp only [id_eq, updColl_keeps MemOk (fun _ _ => rfl)] | split

theorem stageOn_memOk (s : State) (ws : List Word64) (level : ℕ) (c : ℕ) (seg : ℕ) (vs : List BankVal) (inv : List ℕ) (hs : MemOk s) :
    MemOk (stageOn s ws level c seg vs inv) := by
  unfold stageOn
  repeat' first | with_reducible assumption | with_reducible refine spread_memOk _ _ _ _ _ _ _  ?_ | with_reducible refine foldlMem _ (fun s a h => ?_) _ _ ?_ | (have e := congrArg Prod.fst ‹closeSeg _ _ _ _ _ = _›; dsimp only at e; rw [← e]; refine cast (closeSeg_keeps MemOk (fun _ _ => rfl) _ _ _ _ _).symm ?_) | simp only [id_eq, closeSeg_keeps MemOk (fun _ _ => rfl), enterLocal_keeps MemOk (fun _ _ => rfl)] | split

theorem advanceSeg_memOk (s : State) (ws : List Word64) (level : ℕ) (c : ℕ) (seg : ℕ) (hs : MemOk s) :
    MemOk (advanceSeg s ws level c seg) := by
  unfold advanceSeg
  repeat' first | with_reducible assumption | with_reducible refine stageOn_memOk _ _ _ _ _ _ _  ?_ | with_reducible refine foldlMem _ (fun s a h => ?_) _ _ ?_ | (have e := congrArg Prod.fst ‹closeSeg _ _ _ _ _ = _›; dsimp only at e; rw [← e]; refine cast (closeSeg_keeps MemOk (fun _ _ => rfl) _ _ _ _ _).symm ?_) | simp only [id_eq, closeSeg_keeps MemOk (fun _ _ => rfl)] | split

theorem completeColl_memOk (s : State) (ws : List Word64) (hs : MemOk s) :
    MemOk (completeColl s ws) := by
  unfold completeColl
  repeat' first | with_reducible assumption | with_reducible refine completeDesc_memOk _ _  ?_ | with_reducible refine foldlMem _ (fun s a h => ?_) _ _ ?_ | simp only [id_eq, dropColl_keeps MemOk (fun _ _ => rfl)] | split

theorem closeChunk_memOk (s : State) (ws : List Word64) (c : ℕ) (hs : MemOk s) :
    MemOk (closeChunk s ws c) := by
  have h0 : ∀ s x0, MemOk { s with slots := x0 } = MemOk s := fun s x0 => rfl
  unfold closeChunk
  repeat' first | with_reducible assumption | with_reducible refine completeColl_memOk _ _  ?_ | with_reducible refine foldlMem _ (fun s a h => ?_) _ _ ?_ | simp only [id_eq, updColl_keeps MemOk (fun _ _ => rfl), signalChunks_keeps MemOk (fun _ _ => rfl), h0] | split

theorem endColl_memOk (s : State) (x : Coll) (status : ℕ) (hs : MemOk s) :
    MemOk (endColl s x status) := by
  have h0 : ∀ s x0 x1, MemOk { s with waiters := x0, ended := x1 } = MemOk s := fun s x0 x1 => rfl
  unfold endColl
  repeat' first | with_reducible assumption | with_reducible refine completeDesc_memOk _ _  ?_ | with_reducible refine foldlMem _ (fun s a h => ?_) _ _ ?_ | simp only [id_eq, dropColl_keeps MemOk (fun _ _ => rfl), h0] | split

theorem adopt_memOk (s : State) (ws : List Word64) (x1 : List Slot) (hs : MemOk s) :
    MemOk (adopt s ws x1) := by
  fun_induction adopt s ws x1
  all_goals repeat' first | with_reducible assumption | with_reducible refine closeChunk_memOk _ _ _  ?_ | with_reducible refine advanceSeg_memOk _ _ _ _ _  ?_ | with_reducible refine foldlMem _ (fun s a h => ?_) _ _ ?_ | simp only [id_eq, updColl_keeps MemOk (fun _ _ => rfl), updSlot_keeps MemOk (fun _ _ => rfl)] | split | (rename_i ih; with_reducible refine ih ?_) | simp +zetaDelta only [id_eq, updColl_keeps MemOk (fun _ _ => rfl), updSlot_keeps MemOk (fun _ _ => rfl)]

theorem runSeam_memOk (s : State) (q : ℕ) (f : Fetched) (hs : MemOk s) :
    MemOk (runSeam s q f) := by
  unfold runSeam
  repeat' first | with_reducible assumption | with_reducible refine rejectDesc_memOk _ _ _ _  ?_ | with_reducible refine foldlMem _ (fun s a h => ?_) _ _ ?_ | simp only [id_eq, seamWaits_keeps MemOk (fun _ _ => rfl), updQ_keeps MemOk (fun _ _ => rfl)] | split

theorem reachIn_memOk (ready : State → Half → ℕ → Fetched → State × Bool) (s : State) (q : ℕ) (f : Fetched) (h : Half)
    (h_ready : ∀ s a0 a1 a2, MemOk s → MemOk ((ready s a0 a1 a2).1)) (hs : MemOk s) :
    MemOk (reachIn ready s q f h) := by
  unfold reachIn
  repeat' first | with_reducible assumption | with_reducible refine h_ready _ _ _ _ ?_ | with_reducible refine foldlMem _ (fun s a h => ?_) _ _ ?_ | simp only [id_eq, updFetched_keeps MemOk (fun _ _ => rfl)] | split

theorem runTogether_memOk (ready : State → Half → ℕ → Fetched → State × Bool) (s : State) (q : ℕ) (op : ℕ) (run : State → Fetched → State)
    (h_ready : ∀ s a0 a1 a2, MemOk s → MemOk ((ready s a0 a1 a2).1)) (h_run : ∀ s a0, MemOk s → MemOk ((run s a0))) (hs : MemOk s) :
    MemOk (runTogether ready s q op run) := by
  unfold runTogether
  repeat' first | with_reducible assumption | with_reducible refine reachIn_memOk _ _ _ _ _ (fun _ _ _ _ h => ?_) ?_ | with_reducible refine h_ready _ _ _ _ ?_ | with_reducible refine h_run _ _ ?_ | with_reducible refine foldlMem _ (fun s a h => ?_) _ _ ?_ | simp only [id_eq, setTodo_keeps MemOk (fun _ _ => rfl)] | split

theorem seamMarkerAt_memOk (s : State) (q : ℕ) (hs : MemOk s) :
    MemOk (seamMarkerAt s q) := by
  unfold seamMarkerAt
  repeat' first | with_reducible assumption | with_reducible refine runTogether_memOk _ _ _ _ _ (fun _ _ _ _ h => ?_) (fun _ _ h => ?_) ?_ | with_reducible refine runSeam_memOk _ _ _  ?_ | with_reducible refine foldlMem _ (fun s a h => ?_) _ _ ?_ | (have e := congrArg Prod.fst ‹seamReady _ _ _ _ = _›; dsimp only at e; rw [← e]; refine cast (seamReady_keeps MemOk (fun _ _ => rfl) _ _ _ _).symm ?_) | simp only [id_eq, seamReady_keeps MemOk (fun _ _ => rfl)] | split

theorem seamOpenAt_memOk (s : State) (q : ℕ) (hs : MemOk s) :
    MemOk (seamOpenAt s q) := by
  unfold seamOpenAt
  repeat' first | with_reducible assumption | with_reducible refine completeDesc_memOk _ _  ?_ | with_reducible refine foldlMem _ (fun s a h => ?_) _ _ ?_ | simp only [id_eq, objInc_keeps MemOk (fun _ _ => rfl), updQ_keeps MemOk (fun _ _ => rfl)] | split

theorem memory_wf_putCells (m : Mem) (l : List (Nat × Byte)) (h : Memory.wf m = true) : Memory.wf (putCells m l) = true := by
  induction l generalizing m with
  | nil => exact h
  | cons e r ih =>
    obtain ⟨a, b⟩ := e
    exact ih _ (memory_wf_memWrite m a b h)

theorem restoreDone_memOk (s : State) (slice : ℕ) (hs : MemOk s) :
    MemOk (restoreDone s slice) := by
  unfold restoreDone
  split
  · exact hs
  · dsimp only
    split
    · exact hs
    · rw [updCtx_keeps MemOk (fun _ _ => rfl)]
      exact ⟨hs.1, memory_wf_putCells _ _ (memory_wf_filter _ _ hs.2)⟩

theorem hostPage_memOk (s : State) (q : ℕ) (reg : ℕ) (w : ℕ) (hs : MemOk s) :
    MemOk (hostPage s q reg w) := by
  unfold hostPage
  repeat' first | with_reducible assumption | with_reducible refine pageWrite_memOk _ _ _ _  ?_ | with_reducible refine foldlMem _ (fun s a h => ?_) _ _ ?_ | simp only [id_eq] | split

theorem fetchOne_memOk (s : State) (q : ℕ) (f : Fetch) (hs : MemOk s) :
    MemOk (fetchOne s q f) := by
  unfold fetchOne
  repeat' first | with_reducible assumption | with_reducible refine unreadable_memOk _ _ _ _  ?_ | with_reducible refine readPastDim_memOk _ _ _ _ _ (fun _ h => ?_) ?_ | with_reducible refine foldlMem _ (fun s a h => ?_) _ _ ?_ | (have e := congrArg Prod.fst ‹readClean _ _ _ _ = _›; dsimp only at e; rw [← e]; refine cast (readClean_keeps MemOk (fun _ _ => rfl) _ _ _ _).symm ?_) | simp only [id_eq, readClean_keeps MemOk (fun _ _ => rfl), updQ_keeps MemOk (fun _ _ => rfl), addFetched_keeps MemOk (fun _ _ => rfl)] | split

theorem issueColl_memOk (s : State) (h : Half) (hs : MemOk s) :
    MemOk (issueColl s h).1 := by
  have h0 : ∀ s x0 x1, MemOk { s with colls := x0, ended := x1 } = MemOk s := fun s x0 x1 => rfl
  unfold issueColl
  repeat' first | with_reducible assumption | with_reducible refine rejectDesc_memOk _ _ _ _  ?_ | with_reducible refine foldlMem _ (fun s a h => ?_) _ _ ?_ | simp only [id_eq, markIssued_keeps MemOk (fun _ _ => rfl), noteStall_keeps MemOk (fun _ _ => rfl), addWait_keeps MemOk (fun _ _ => rfl), updQ_keeps MemOk (fun _ _ => rfl), h0] | split

theorem colReads_memOk (s : State) (ws : List Word64) (c : ℕ) (seg : ℕ) (go : State → State)
    (h_go : ∀ s, MemOk s → MemOk ((go s))) (hs : MemOk s) :
    MemOk (colReads s ws c seg go) := by
  unfold colReads
  repeat' first | with_reducible assumption | with_reducible refine pastDim_memOk _ _ _ _ _ (fun _ h => ?_) ?_ | with_reducible refine pastSnoop_memOk _ _ _ _ (fun _ h => ?_) ?_ | with_reducible refine h_go _ ?_ | with_reducible refine foldlMem _ (fun s a h => ?_) _ _ ?_ | simp only [id_eq] | split

theorem colWrites_memOk (s : State) (ws : List Word64) (c : ℕ) (seg : ℕ) (go : State → State)
    (h_go : ∀ s, MemOk s → MemOk ((go s))) (hs : MemOk s) :
    MemOk (colWrites s ws c seg go) := by
  unfold colWrites
  repeat' first | with_reducible assumption | with_reducible refine pastSnoop_memOk _ _ _ _ (fun _ h => ?_) ?_ | with_reducible refine h_go _ ?_ | with_reducible refine foldlMem _ (fun s a h => ?_) _ _ ?_ | simp only [id_eq, dimStall_keeps MemOk (fun _ _ => rfl)] | split

theorem localInput_memOk (s : State) (id : ℕ) (c : ℕ) (seg : ℕ) (hs : MemOk s) :
    MemOk (localInput s id c seg) := by
  unfold localInput
  repeat' first | with_reducible assumption | with_reducible refine colWrites_memOk _ _ _ _ _ (fun _ h => ?_) ?_ | with_reducible refine colReads_memOk _ _ _ _ _ (fun _ h => ?_) ?_ | with_reducible refine advanceSeg_memOk _ _ _ _ _  ?_ | with_reducible refine spread_memOk _ _ _ _ _ _ _  ?_ | with_reducible refine closeChunk_memOk _ _ _  ?_ | with_reducible refine foldlMem _ (fun s a h => ?_) _ _ ?_ | simp only [id_eq, updColl_keeps MemOk (fun _ _ => rfl), enterLocal_keeps MemOk (fun _ _ => rfl)] | split

theorem takeGreyPacket_memOk (s : State) (x : Coll) (h : CollHdr) (hs : MemOk s) :
    MemOk (takeGreyPacket s x h) := by
  have h0 : ∀ s x0, MemOk { s with greys := x0 } = MemOk s := fun s x0 => rfl
  unfold takeGreyPacket
  repeat' first | with_reducible assumption | with_reducible refine endColl_memOk _ _ _  ?_ | with_reducible refine foldlMem _ (fun s a h => ?_) _ _ ?_ | simp only [id_eq, objInc_keeps MemOk (fun _ _ => rfl), countDup_keeps MemOk (fun _ _ => rfl), h0] | split

theorem takeActive_memOk (s : State) (x : Coll) (h : CollHdr) (hs : MemOk s) :
    MemOk (takeActive s x h) := by
  unfold takeActive
  repeat' first | with_reducible assumption | with_reducible refine passResult_memOk _ _ _  ?_ | with_reducible refine advanceSeg_memOk _ _ _ _ _  ?_ | with_reducible refine takeGreyPacket_memOk _ _ _  ?_ | with_reducible refine closeChunk_memOk _ _ _  ?_ | with_reducible refine foldlMem _ (fun s a h => ?_) _ _ ?_ | simp only [id_eq, takeNotice_keeps MemOk (fun _ _ => rfl), takeInput_keeps MemOk (fun _ _ => rfl), countDup_keeps MemOk (fun _ _ => rfl)] | split

theorem activate_memOk (s : State) (h : Half) (hs : MemOk s) :
    MemOk (activate s h) := by
  have h0 : ∀ s x0, MemOk { s with pendColls := x0 } = MemOk s := fun s x0 => rfl
  unfold activate
  repeat' first | with_reducible assumption | with_reducible refine adopt_memOk _ _ _  ?_ | with_reducible refine takeActive_memOk _ _ _  ?_ | with_reducible refine foldlMem _ (fun s a h => ?_) _ _ ?_ | simp only [id_eq, updColl_keeps MemOk (fun _ _ => rfl), h0] | split

theorem takeColl_memOk (s : State) (p : Packet) (hs : MemOk s) :
    MemOk (takeColl s p) := by
  unfold takeColl
  repeat' first | with_reducible assumption | with_reducible refine colWrites_memOk _ _ _ _ _ (fun _ h => ?_) ?_ | with_reducible refine takeActive_memOk _ _ _  ?_ | with_reducible refine foldlMem _ (fun s a h => ?_) _ _ ?_ | simp only [id_eq, echoFrom_keeps MemOk (fun _ _ => rfl), echoMark_keeps MemOk (fun _ _ => rfl), takePending_keeps MemOk (fun _ _ => rfl), objInc_keeps MemOk (fun _ _ => rfl), takeEjected_keeps MemOk (fun _ _ => rfl)] | split

theorem reduceGrey_memOk (s : State) (id : ℕ) (level : ℕ) (c : ℕ) (seg : ℕ) (hs : MemOk s) :
    MemOk (reduceGrey s id level c seg) := by
  have h0 : ∀ s x0, MemOk { s with greys := x0 } = MemOk s := fun s x0 => rfl
  unfold reduceGrey
  repeat' first | with_reducible assumption | with_reducible refine colWrites_memOk _ _ _ _ _ (fun _ h => ?_) ?_ | with_reducible refine stageOn_memOk _ _ _ _ _ _ _  ?_ | with_reducible refine closeChunk_memOk _ _ _  ?_ | with_reducible refine foldlMem _ (fun s a h => ?_) _ _ ?_ | simp only [id_eq, updColl_keeps MemOk (fun _ _ => rfl), updSlot_keeps MemOk (fun _ _ => rfl), h0] | split

theorem collExpire_memOk (s : State) (id : ℕ) (hs : MemOk s) :
    MemOk (collExpire s id) := by
  unfold collExpire
  repeat' first | with_reducible assumption | with_reducible refine endColl_memOk _ _ _  ?_ | with_reducible refine foldlMem _ (fun s a h => ?_) _ _ ?_ | simp only [id_eq, objInc_keeps MemOk (fun _ _ => rfl)] | split

theorem abortColl_memOk (s : State) (hs : MemOk s) :
    MemOk (abortColl s) := by
  unfold abortColl
  repeat' first | with_reducible assumption | with_reducible refine endColl_memOk _ _ _  ?_ | with_reducible refine foldlMem _ (fun s a h => ?_) _ _ ?_ | simp only [id_eq, objInc_keeps MemOk (fun _ _ => rfl), mbxEnd_keeps MemOk (fun _ _ => rfl)] | split

theorem readVariant_memOk (s : State) (q : ℕ) (addr : ℕ) (seq : ℕ) (list : List Fetch) (x1 : ℕ) (hs : MemOk s) :
    MemOk (readVariant s q addr seq list x1) := by
  fun_induction readVariant s q addr seq list x1
  all_goals repeat' first | with_reducible assumption | with_reducible refine unreadable_memOk _ _ _ _  ?_ | with_reducible refine foldlMem _ (fun s a h => ?_) _ _ ?_ | (have e := congrArg Prod.fst ‹readClean _ _ _ _ = _›; dsimp only at e; rw [← e]; refine cast (readClean_keeps MemOk (fun _ _ => rfl) _ _ _ _).symm ?_) | simp only [id_eq, readClean_keeps MemOk (fun _ _ => rfl), addFetched_keeps MemOk (fun _ _ => rfl)] | split | (rename_i ih; with_reducible refine ih ?_) | simp +zetaDelta only [id_eq, readClean_keeps MemOk (fun _ _ => rfl), addFetched_keeps MemOk (fun _ _ => rfl)]

theorem startAttempt_memOk (s : State) (l : Layer) (list : List Fetch) (hs : MemOk s) :
    MemOk (startAttempt s l list) := by
  have h0 : ∀ s x0, MemOk { s with layers := x0 } = MemOk s := fun s x0 => rfl
  unfold startAttempt
  repeat' first | with_reducible assumption | with_reducible refine readVariant_memOk _ _ _ _ _ _  ?_ | with_reducible refine foldlMem _ (fun s a h => ?_) _ _ ?_ | simp only [id_eq, updQ_keeps MemOk (fun _ _ => rfl), h0] | split

theorem openLayer_memOk (s : State) (q : ℕ) (f : Fetched) (list : List Fetch) (hs : MemOk s) :
    MemOk (openLayer s q f list) := by
  unfold openLayer
  repeat' first | with_reducible assumption | with_reducible refine rejectDesc_memOk _ _ _ _  ?_ | with_reducible refine startAttempt_memOk _ _ _  ?_ | with_reducible refine foldlMem _ (fun s a h => ?_) _ _ ?_ | simp only [id_eq, updQ_keeps MemOk (fun _ _ => rfl)] | split

theorem layerOpenAt_memOk (s : State) (q : ℕ) (list : List Fetch) (hs : MemOk s) :
    MemOk (layerOpenAt s q list) := by
  unfold layerOpenAt
  repeat' first | with_reducible assumption | with_reducible refine openLayer_memOk _ _ _ _  ?_ | with_reducible refine readPastDim_memOk _ _ _ _ _ (fun _ h => ?_) ?_ | with_reducible refine foldlMem _ (fun s a h => ?_) _ _ ?_ | (have e := congrArg Prod.fst ‹schedReady _ _ _ _ = _›; dsimp only at e; rw [← e]; refine cast (schedReady_keeps MemOk (fun _ _ => rfl) _ _ _ _).symm ?_) | simp only [id_eq, schedReady_keeps MemOk (fun _ _ => rfl), setTodo_keeps MemOk (fun _ _ => rfl)] | split

theorem publish_memOk (s : State) (l : Layer) (hs : MemOk s) :
    MemOk (publish s l) := by
  have h0 : ∀ s x0, MemOk { s with layers := x0 } = MemOk s := fun s x0 => rfl
  unfold publish
  repeat' first | with_reducible assumption | with_reducible refine completeDesc_memOk _ _  ?_ | with_reducible refine foldlMem _ (fun s a h => ?_) _ _ ?_ | simp only [id_eq, journal_keeps MemOk (fun _ _ => rfl), objInc_keeps MemOk (fun _ _ => rfl), escUpdate_keeps MemOk (fun _ _ => rfl), h0] | split

theorem repeatLayer_memOk (s : State) (l : Layer) (list : List Fetch) (hs : MemOk s) :
    MemOk (repeatLayer s l list) := by
  unfold repeatLayer
  repeat' first | with_reducible assumption | with_reducible refine startAttempt_memOk _ _ _  ?_ | with_reducible refine foldlMem _ (fun s a h => ?_) _ _ ?_ | simp only [id_eq, objAdd_keeps MemOk (fun _ _ => rfl), writeBack_keeps MemOk (fun _ _ => rfl)] | split

theorem attemptEnd_memOk (s : State) (q : ℕ) (list : List Fetch) (hs : MemOk s) :
    MemOk (attemptEnd s q list) := by
  unfold attemptEnd
  repeat' first | with_reducible assumption | with_reducible refine repeatLayer_memOk _ _ _  ?_ | with_reducible refine publish_memOk _ _  ?_ | with_reducible refine readPastDim_memOk _ _ _ _ _ (fun _ h => ?_) ?_ | with_reducible refine foldlMem _ (fun s a h => ?_) _ _ ?_ | simp only [id_eq] | split

theorem poisonRead_memOk (cause : ℕ) (s : State) (x : ℕ × StreamCtx × Req) (hs : MemOk s) :
    MemOk (poisonRead cause s x) := by
  have h0 : ∀ s x0, MemOk { s with free := x0 } = MemOk s := fun s x0 => rfl
  unfold poisonRead
  repeat' first | with_reducible assumption | with_reducible refine inPhase_memOk _ _ _ _ _  ?_ | with_reducible refine foldlMem _ (fun s a h => ?_) _ _ ?_ | simp only [id_eq, updCtx_keeps MemOk (fun _ _ => rfl), dropReads_keeps MemOk (fun _ _ => rfl), tallied_keeps MemOk (fun _ _ => rfl), h0] | split

theorem poisonReads_memOk (s : State) (pick : ℕ → StreamCtx → Req → Bool) (cause : ℕ) (hs : MemOk s) :
    MemOk (poisonReads s pick cause) := by
  unfold poisonReads
  repeat' first | with_reducible assumption | with_reducible refine poisonRead_memOk _ _ _  ?_ | with_reducible refine foldlMem _ (fun s a h => ?_) _ _ ?_ | simp only [id_eq] | split

theorem stopDesc_memOk (s : State) (d : Done) (hs : MemOk s) :
    MemOk (stopDesc s d) := by
  unfold stopDesc
  repeat' first | with_reducible assumption | with_reducible refine writeRecord_memOk _ _ _  ?_ | with_reducible refine foldlMem _ (fun s a h => ?_) _ _ ?_ | simp only [id_eq, updQ_keeps MemOk (fun _ _ => rfl)] | split

theorem haltEngines_memOk (s : State) (status : ℕ) (hs : MemOk s) :
    MemOk (haltEngines s status) := by
  unfold haltEngines
  repeat' first | with_reducible assumption | with_reducible refine stopDesc_memOk _ _  ?_ | with_reducible refine foldlMem _ (fun s a h => ?_) _ _ ?_ | simp only [id_eq, haltQueues_keeps MemOk (fun _ _ => rfl), clearEngines_keeps MemOk (fun _ _ => rfl)] | split

theorem deliverFlit_memOk (s : State) (x1 : BridgeFlit) (hs : MemOk s) :
    MemOk (deliverFlit s x1) := by
  unfold deliverFlit
  repeat' first | with_reducible assumption | with_reducible refine localPut_memOk _ _ _ _ _  ?_ | with_reducible refine foldlMem _ (fun s a h => ?_) _ _ ?_ | simp only [id_eq, reinject_keeps MemOk (fun _ _ => rfl), putEjected_keeps MemOk (fun _ _ => rfl), linkSend_keeps MemOk (fun _ _ => rfl), updBridge_keeps MemOk (fun _ _ => rfl)] | split

theorem bridgeFlit_memOk (s : State) (b : ℕ) (f : BridgeFlit) (crcOk : Bool) (hs : MemOk s) :
    MemOk (bridgeFlit s b f crcOk) := by
  unfold bridgeFlit
  repeat' first | with_reducible assumption | with_reducible refine deliverFlit_memOk _ _  ?_ | with_reducible refine foldlMem _ (fun s a h => ?_) _ _ ?_ | simp only [id_eq, objInc_keeps MemOk (fun _ _ => rfl), updBridge_keeps MemOk (fun _ _ => rfl)] | split

theorem bridgeFails_memOk (s : State) (hs : MemOk s) :
    MemOk (bridgeFails s) := by
  unfold bridgeFails
  repeat' first | with_reducible assumption | with_reducible refine haltEngines_memOk _ _  ?_ | with_reducible refine poisonReads_memOk _ _ _  ?_ | with_reducible refine foldlMem _ (fun s a h => ?_) _ _ ?_ | simp only [id_eq, journal_keeps MemOk (fun _ _ => rfl), greyAll_keeps MemOk (fun _ _ => rfl), objPut_keeps MemOk (fun _ _ => rfl), updBridge_keeps MemOk (fun _ _ => rfl)] | split

theorem retireBundle_memOk (s : State) (b : ℕ) (hs : MemOk s) :
    MemOk (retireBundle s b) := by
  unfold retireBundle
  repeat' first | with_reducible assumption | with_reducible refine bridgeFails_memOk _  ?_ | with_reducible refine foldlMem _ (fun s a h => ?_) _ _ ?_ | simp only [id_eq, objBit_keeps MemOk (fun _ _ => rfl), objPut_keeps MemOk (fun _ _ => rfl), journalAlert_keeps MemOk (fun _ _ => rfl), moveFlits_keeps MemOk (fun _ _ => rfl)] | split

theorem serveStore_memOk (s : State) (p : Packet) (hs : MemOk s) :
    MemOk (serveStore s p) := by
  unfold serveStore
  repeat' first | with_reducible assumption | with_reducible refine localPut_memOk _ _ _ _ _  ?_ | with_reducible refine serveRequest_memOk _ _ _ _ _ _ _ (fun _ _ h => ?_) ?_ | with_reducible refine foldlMem _ (fun s a h => ?_) _ _ ?_ | simp only [id_eq, replyTo_keeps MemOk (fun _ _ => rfl), touchWord_keeps MemOk (fun _ _ => rfl)] | split

theorem serveAtomic_memOk (s : State) (p : Packet) (ev : List LineEvent) (hs : MemOk s) :
    MemOk (serveAtomic s p ev) := by
  unfold serveAtomic
  repeat' first | with_reducible assumption | with_reducible refine sequenced_memOk _ _ _ _ _ _ (fun _ h => ?_) ?_ | with_reducible refine atomicAt_memOk _ _ _ _ _ _  ?_ | with_reducible refine serveRequest_memOk _ _ _ _ _ _ _ (fun _ _ h => ?_) ?_ | with_reducible refine foldlMem _ (fun s a h => ?_) _ _ ?_ | simp only [id_eq, replyTo_keeps MemOk (fun _ _ => rfl), countAddrError_keeps MemOk (fun _ _ => rfl), linesFound_keeps MemOk (fun _ _ => rfl)] | split

theorem takeReply_memOk (s : State) (p : Packet) (hs : MemOk s) :
    MemOk (takeReply s p) := by
  unfold takeReply
  repeat' first | with_reducible assumption | with_reducible refine answer_memOk _ _ _ _ _  ?_ | with_reducible refine foldlMem _ (fun s a h => ?_) _ _ ?_ | simp only [id_eq, echoFrom_keeps MemOk (fun _ _ => rfl), objInc_keeps MemOk (fun _ _ => rfl), takeEjected_keeps MemOk (fun _ _ => rfl)] | split

theorem replyLate_memOk (s : State) (tag : ℕ) (hs : MemOk s) :
    MemOk (replyLate s tag) := by
  unfold replyLate
  repeat' first | with_reducible assumption | with_reducible refine answer_memOk _ _ _ _ _  ?_ | with_reducible refine foldlMem _ (fun s a h => ?_) _ _ ?_ | simp only [id_eq, objInc_keeps MemOk (fun _ _ => rfl)] | split

theorem rciRun_memOk (q : ℕ) (s : State) (f : Fetched) (hs : MemOk s) :
    MemOk (rciRun q s f) := by
  unfold rciRun
  repeat' first | with_reducible assumption | with_reducible refine rejectDesc_memOk _ _ _ _  ?_ | with_reducible refine completeDesc_memOk _ _  ?_ | with_reducible refine foldlMem _ (fun s a h => ?_) _ _ ?_ | simp only [id_eq, objInc_keeps MemOk (fun _ _ => rfl), rciHalf_keeps MemOk (fun _ _ => rfl), updQ_keeps MemOk (fun _ _ => rfl)] | split

theorem bar0Page_memOk (s : State) (off : ℕ) (size : ℕ) (v : ℕ) (hs : MemOk s) :
    MemOk (bar0Page s off size v) := by
  unfold bar0Page
  repeat' first | with_reducible assumption | with_reducible refine hostPage_memOk _ _ _ _  ?_ | with_reducible refine foldlMem _ (fun s a h => ?_) _ _ ?_ | simp only [id_eq] | split

theorem writeSegment_memOk (s : State) (x : Xfer) (off : ℕ) (data : Bytes) (hs : MemOk s) :
    MemOk (writeSegment s x off data) := by
  unfold writeSegment
  repeat' first | with_reducible assumption | with_reducible refine writeBytes_memOk _ _ _ _  ?_ | with_reducible refine foldlMem _ (fun s a h => ?_) _ _ ?_ | simp only [id_eq, updXfer_keeps MemOk (fun _ _ => rfl)] | split

theorem dpPut_memOk (s : State) (off : ℕ) (first : ℕ) (data : Bytes) (poison : Bool) (hs : MemOk s) :
    MemOk (dpPut s off first data poison) := by
  unfold dpPut
  repeat' first | with_reducible assumption | with_reducible refine localPut_memOk _ _ _ _ _  ?_ | with_reducible refine foldlMem _ (fun s a h => ?_) _ _ ?_ | simp only [id_eq] | split

theorem serveHost_memOk (s : State) (w : PortWait) (hs : MemOk s) :
    MemOk (serveHost s w) := by
  unfold serveHost
  repeat' first | with_reducible assumption | with_reducible refine dpPut_memOk _ _ _ _ _  ?_ | with_reducible refine writeLine_memOk _ _ _ _ _  ?_ | with_reducible refine writeBytes_memOk _ _ _ _  ?_ | with_reducible refine foldlMem _ (fun s a h => ?_) _ _ ?_ | simp only [id_eq, dpGet_keeps MemOk (fun _ _ => rfl), openData_keeps MemOk (fun _ _ => rfl), track_keeps MemOk (fun _ _ => rfl), updHost_keeps MemOk (fun _ _ => rfl), objInc_keeps MemOk (fun _ _ => rfl), afterRead_keeps MemOk (fun _ _ => rfl), emit_keeps MemOk (fun _ _ => rfl), linesFound_keeps MemOk (fun _ _ => rfl)] | split

theorem hostAccess_memOk (s : State) (w : PortWait) (hs : MemOk s) :
    MemOk (hostAccess s w) := by
  unfold hostAccess
  repeat' first | with_reducible assumption | with_reducible refine serveHost_memOk _ _  ?_ | with_reducible refine foldlMem _ (fun s a h => ?_) _ _ ?_ | simp only [id_eq, objInc_keeps MemOk (fun _ _ => rfl), parkHost_keeps MemOk (fun _ _ => rfl)] | split

theorem hostSettle_memOk (s : State) (hs : MemOk s) :
    MemOk (hostSettle s) := by
  unfold hostSettle
  repeat' first | with_reducible assumption | with_reducible refine serveHost_memOk _ _  ?_ | with_reducible refine foldlMem _ (fun s a h => ?_) _ _ ?_ | simp only [id_eq, updHost_keeps MemOk (fun _ _ => rfl), parkHost_keeps MemOk (fun _ _ => rfl)] | split

theorem portAccess_memOk (s : State) (off : ℕ) (write : Option (Bytes × Bool)) (first : ℕ) (n : ℕ) (ev : List LineEvent) (hs : MemOk s) :
    MemOk (portAccess s off write first n ev) := by
  unfold portAccess
  repeat' first | with_reducible assumption | with_reducible refine hostAccess_memOk _ _  ?_ | with_reducible refine foldlMem _ (fun s a h => ?_) _ _ ?_ | simp only [id_eq, backInvalidate_keeps MemOk (fun _ _ => rfl), parkHost_keeps MemOk (fun _ _ => rfl)] | split

theorem dataWrite_memOk (s : State) (first : ℕ) (data : Bytes) (poison : Bool) (hs : MemOk s) :
    MemOk (dataWrite s first data poison) := by
  unfold dataWrite
  repeat' first | with_reducible assumption | with_reducible refine portAccess_memOk _ _ _ _ _ _  ?_ | with_reducible refine writeSegment_memOk _ _ _ _  ?_ | with_reducible refine foldlMem _ (fun s a h => ?_) _ _ ?_ | simp only [id_eq, dpAdvance_keeps MemOk (fun _ _ => rfl), countReserved_keeps MemOk (fun _ _ => rfl), addrErr_keeps MemOk (fun _ _ => rfl)] | split

theorem dataRead_memOk (s : State) (first : ℕ) (n : ℕ) (ev : List LineEvent) (hs : MemOk s) :
    MemOk (dataRead s first n ev) := by
  unfold dataRead
  repeat' first | with_reducible assumption | with_reducible refine portAccess_memOk _ _ _ _ _ _  ?_ | with_reducible refine foldlMem _ (fun s a h => ?_) _ _ ?_ | simp only [id_eq, updXfer_keeps MemOk (fun _ _ => rfl), dpAdvance_keeps MemOk (fun _ _ => rfl), emit_keeps MemOk (fun _ _ => rfl), countReserved_keeps MemOk (fun _ _ => rfl), addrErr_keeps MemOk (fun _ _ => rfl)] | split

theorem bar0Write_memOk (s : State) (off : ℕ) (size : ℕ) (v : ℕ) (hs : MemOk s) :
    MemOk (bar0Write s off size v) := by
  unfold bar0Write
  repeat' first | with_reducible assumption | with_reducible refine dataWrite_memOk _ _ _ _  ?_ | with_reducible refine bar0Page_memOk _ _ _ _  ?_ | with_reducible refine foldlMem _ (fun s a h => ?_) _ _ ?_ | simp only [id_eq, dpWrite_keeps MemOk (fun _ _ => rfl), mbxWrite_keeps MemOk (fun _ _ => rfl), msixWrite_keeps MemOk (fun _ _ => rfl)] | split

theorem bar2_memOk (s : State) (off : ℕ) (a : HostAccess) (hs : MemOk s) :
    MemOk (bar2 s off a) := by
  unfold bar2
  repeat' first | with_reducible assumption | with_reducible refine hostAccess_memOk _ _  ?_ | with_reducible refine foldlMem _ (fun s a h => ?_) _ _ ?_ | simp only [id_eq, openData_keeps MemOk (fun _ _ => rfl), countAddrError_keeps MemOk (fun _ _ => rfl)] | split

theorem drainAll_memOk (s : State) (hs : MemOk s) :
    MemOk (drainAll s) := by
  unfold drainAll
  repeat' first | with_reducible assumption | with_reducible refine drainRing_memOk _ _ _  ?_ | with_reducible refine foldlMem _ (fun s a h => ?_) _ _ ?_ | simp only [id_eq] | split

theorem bisnpAnswered_memOk (s : State) (line : ℕ) (hs : MemOk s) :
    MemOk (bisnpAnswered s line) := by
  unfold bisnpAnswered
  repeat' first | with_reducible assumption | with_reducible refine drainAll_memOk _  ?_ | with_reducible refine hostSettle_memOk _  ?_ | with_reducible refine foldlMem _ (fun s a h => ?_) _ _ ?_ | simp only [id_eq, updHost_keeps MemOk (fun _ _ => rfl)] | split

theorem bisnpLate_memOk (s : State) (line : ℕ) (hs : MemOk s) :
    MemOk (bisnpLate s line) := by
  unfold bisnpLate
  repeat' first | with_reducible assumption | with_reducible refine drainAll_memOk _  ?_ | with_reducible refine foldlMem _ (fun s a h => ?_) _ _ ?_ | simp only [id_eq, updHost_keeps MemOk (fun _ _ => rfl), objInc_keeps MemOk (fun _ _ => rfl), dpFailed_keeps MemOk (fun _ _ => rfl)] | split

theorem failHostReqs_memOk (s : State) (hs : MemOk s) :
    MemOk (failHostReqs s) := by
  unfold failHostReqs
  repeat' first | with_reducible assumption | with_reducible refine finishReq_memOk _ _ _ _ _  ?_ | with_reducible refine foldlMem _ (fun s a h => ?_) _ _ ?_ | simp only [id_eq] | split

theorem cancelColls_memOk (s : State) (hs : MemOk s) :
    MemOk (cancelColls s) := by
  unfold cancelColls
  repeat' first | with_reducible assumption | with_reducible refine endColl_memOk _ _ _  ?_ | with_reducible refine foldlMem _ (fun s a h => ?_) _ _ ?_ | simp only [id_eq] | split

theorem hostReset_memOk (s : State) (hs : MemOk s) :
    MemOk (hostReset s) := by
  have h0 : ∀ s x0, MemOk { s with windows := x0 } = MemOk s := fun s x0 => rfl
  unfold hostReset
  repeat' first | with_reducible assumption | with_reducible refine hostSettle_memOk _  ?_ | with_reducible refine abortQueue_memOk _ _  ?_ | with_reducible refine cancelColls_memOk _  ?_ | with_reducible refine failHostReqs_memOk _  ?_ | with_reducible refine foldlMem _ (fun s a h => ?_) _ _ ?_ | simp only [id_eq, atsSettle_keeps MemOk (fun _ _ => rfl), updHost_keeps MemOk (fun _ _ => rfl), h0] | split

theorem failReads_memOk (s : State) (ch : ℕ) (hs : MemOk s) :
    MemOk (failReads s ch) := by
  unfold failReads
  repeat' first | with_reducible assumption | with_reducible refine finishReq_memOk _ _ _ _ _  ?_ | with_reducible refine foldlMem _ (fun s a h => ?_) _ _ ?_ | simp only [id_eq] | split

theorem failChannel_memOk (s : State) (ch : ℕ) (hs : MemOk s) :
    MemOk (failChannel s ch) := by
  unfold failChannel
  repeat' first | with_reducible assumption | with_reducible refine haltEngines_memOk _ _  ?_ | with_reducible refine hostSettle_memOk _  ?_ | with_reducible refine abortQueue_memOk _ _  ?_ | with_reducible refine poisonReads_memOk _ _ _  ?_ | with_reducible refine foldlMem _ (fun s a h => ?_) _ _ ?_ | simp only [id_eq, journal_keeps MemOk (fun _ _ => rfl), updChan_keeps MemOk (fun _ _ => rfl), setChan_keeps MemOk (fun _ _ => rfl), objPut_keeps MemOk (fun _ _ => rfl), journalAlert_keeps MemOk (fun _ _ => rfl)] | split

theorem leaveDim_memOk (s : State) (ch : ℕ) (since : ℕ) (hs : MemOk s) :
    MemOk (leaveDim s ch since) := by
  unfold leaveDim
  repeat' first | with_reducible assumption | with_reducible refine hostSettle_memOk _  ?_ | with_reducible refine foldlMem _ (fun s a h => ?_) _ _ ?_ | simp only [id_eq, updChan_keeps MemOk (fun _ _ => rfl), setChan_keeps MemOk (fun _ _ => rfl), objMax_keeps MemOk (fun _ _ => rfl)] | split

theorem endRetrain_memOk (s : State) (ch : ℕ) (ok : Bool) (hs : MemOk s) :
    MemOk (endRetrain s ch ok) := by
  unfold endRetrain
  repeat' first | with_reducible assumption | with_reducible refine leaveDim_memOk _ _ _  ?_ | with_reducible refine failChannel_memOk _ _  ?_ | with_reducible refine foldlMem _ (fun s a h => ?_) _ _ ?_ | simp only [id_eq, updChan_keeps MemOk (fun _ _ => rfl), islandReset_keeps MemOk (fun _ _ => rfl)] | split

theorem endRepair_memOk (s : State) (ch : ℕ) (resource : Bool) (bad : List ℕ) (hs : MemOk s) :
    MemOk (endRepair s ch resource bad) := by
  unfold endRepair
  repeat' first | with_reducible assumption | with_reducible refine leaveDim_memOk _ _ _  ?_ | with_reducible refine foldlMem _ (fun s a h => ?_) _ _ ?_ | simp only [id_eq, listRepair_keeps MemOk (fun _ _ => rfl), poisonLines_keeps MemOk (fun _ _ => rfl), updChan_keeps MemOk (fun _ _ => rfl), objInc_keeps MemOk (fun _ _ => rfl)] | split

theorem dieReset_memOk (s : State) (cold : Bool) (hs : MemOk s) :
    MemOk (dieReset s cold) := by
  have hd : MemOk (dropSnaps s) := by rw [dropSnaps_keeps MemOk (fun _ _ => rfl)]; exact hs
  unfold dieReset
  simp only [applyRestart_keeps MemOk (fun _ _ => rfl), objPut_keeps MemOk (fun _ _ => rfl), freeStep_keeps MemOk (fun _ _ => rfl)]
  repeat' split
  all_goals try simp only [objPut_keeps MemOk (fun _ _ => rfl)]
  all_goals first | exact ⟨memory_wf_nil, memory_wf_nil⟩ | exact ⟨hd.1, memory_wf_nil⟩ | skip

theorem mainOff_memOk (s : State) (hs : MemOk s) :
    MemOk (mainOff s) := by
  unfold mainOff
  repeat' first | with_reducible assumption | with_reducible refine dieReset_memOk _ _  ?_ | with_reducible refine foldlMem _ (fun s a h => ?_) _ _ ?_ | simp only [id_eq, updSeqs_keeps MemOk (fun _ _ => rfl), revertPersist_keeps MemOk (fun _ _ => rfl), railsOff_keeps MemOk (fun _ _ => rfl)] | split

theorem beginCold_memOk (s : State) (four : Bool) (hs : MemOk s) :
    MemOk (beginCold s four) := by
  have h0 : ∀ s x0 x1 x2 x3 x4, MemOk { s with coldAt := x0, lossNs := x1, recovery := x2, power := x3, obs := x4 } = MemOk s := fun s x0 x1 x2 x3 x4 => rfl
  unfold beginCold
  repeat' first | with_reducible assumption | with_reducible refine mainOff_memOk _  ?_ | with_reducible refine foldlMem _ (fun s a h => ?_) _ _ ?_ | simp only [id_eq, chainStart_keeps MemOk (fun _ _ => rfl), updSeqs_keeps MemOk (fun _ _ => rfl), chooseBank_keeps MemOk (fun _ _ => rfl), objPut_keeps MemOk (fun _ _ => rfl), setStep_keeps MemOk (fun _ _ => rfl), h0] | split

theorem coldStart_memOk (s : State) (source : ℕ) (hs : MemOk s) :
    MemOk (coldStart s source) := by
  unfold coldStart
  repeat' first | with_reducible assumption | with_reducible refine beginCold_memOk _ _  ?_ | with_reducible refine foldlMem _ (fun s a h => ?_) _ _ ?_ | simp only [id_eq, objPut_keeps MemOk (fun _ _ => rfl)] | split

theorem enterRecovery_memOk (s : State) (hs : MemOk s) :
    MemOk (enterRecovery s) := by
  have h0 : ∀ s x0, MemOk { s with recovery := x0 } = MemOk s := fun s x0 => rfl
  unfold enterRecovery
  repeat' first | with_reducible assumption | with_reducible refine mainOff_memOk _  ?_ | with_reducible refine foldlMem _ (fun s a h => ?_) _ _ ?_ | simp only [id_eq, updSeqs_keeps MemOk (fun _ _ => rfl), alert_keeps MemOk (fun _ _ => rfl), objPut_keeps MemOk (fun _ _ => rfl), setStep_keeps MemOk (fun _ _ => rfl), h0] | split

theorem bootFailed_memOk (s : State) (imageType : ℕ) (hot : Bool) (hs : MemOk s) :
    MemOk (bootFailed s imageType hot) := by
  unfold bootFailed
  repeat' first | with_reducible assumption | with_reducible refine beginCold_memOk _ _  ?_ | with_reducible refine enterRecovery_memOk _  ?_ | with_reducible refine foldlMem _ (fun s a h => ?_) _ _ ?_ | simp only [id_eq, chainStart_keeps MemOk (fun _ _ => rfl), updSeqs_keeps MemOk (fun _ _ => rfl), journal_keeps MemOk (fun _ _ => rfl), objInc_keeps MemOk (fun _ _ => rfl), chooseBank_keeps MemOk (fun _ _ => rfl), trialFailed_keeps MemOk (fun _ _ => rfl)] | split

theorem autoWarm_memOk (s : State) (hs : MemOk s) :
    MemOk (autoWarm s) := by
  unfold autoWarm
  repeat' first | with_reducible assumption | with_reducible refine beginCold_memOk _ _  ?_ | with_reducible refine foldlMem _ (fun s a h => ?_) _ _ ?_ | simp only [id_eq, updSeqs_keeps MemOk (fun _ _ => rfl), startWarm_keeps MemOk (fun _ _ => rfl), objPut_keeps MemOk (fun _ _ => rfl)] | split

theorem unpower_memOk (s : State) (hs : MemOk s) :
    MemOk (unpower s) := by
  have h0 : ∀ s x0 x1 x2 x3 x4 x5 x6, MemOk { s with dic := x0, mgmt := x1, power := x2, seqs := x3, sec := x4, iface := x5, obs := x6 } = MemOk s := fun s x0 x1 x2 x3 x4 x5 x6 => rfl
  unfold unpower
  repeat' first | with_reducible assumption | with_reducible refine mainOff_memOk _  ?_ | with_reducible refine foldlMem _ (fun s a h => ?_) _ _ ?_ | simp only [id_eq, h0] | split

theorem blackShutdown_memOk (s : State) (n : ℕ) (trigger : ℕ) (hs : MemOk s) :
    MemOk (blackShutdown s n trigger) := by
  have h0 : ∀ s x0 x1, MemOk { s with recovery := x0, mgmt := x1 } = MemOk s := fun s x0 x1 => rfl
  unfold blackShutdown
  repeat' first | with_reducible assumption | with_reducible refine mainOff_memOk _  ?_ | with_reducible refine foldlMem _ (fun s a h => ?_) _ _ ?_ | simp only [id_eq, updSeqs_keeps MemOk (fun _ _ => rfl), updPower_keeps MemOk (fun _ _ => rfl), objInc_keeps MemOk (fun _ _ => rfl), objPut_keeps MemOk (fun _ _ => rfl), setStep_keeps MemOk (fun _ _ => rfl), journalAlert_keeps MemOk (fun _ _ => rfl), settleVolts_keeps MemOk (fun _ _ => rfl), h0] | split

theorem checkBlack_memOk (s : State) (n : ℕ) (hs : MemOk s) :
    MemOk (checkBlack s n) := by
  unfold checkBlack
  repeat' first | with_reducible assumption | with_reducible refine blackShutdown_memOk _ _ _  ?_ | with_reducible refine foldlMem _ (fun s a h => ?_) _ _ ?_ | simp only [id_eq] | split

theorem readSite_memOk (s : State) (n : ℕ) (r0 : ℤ) (r1 : ℤ) (hs : MemOk s) :
    MemOk (readSite s n r0 r1) := by
  unfold readSite
  repeat' first | with_reducible assumption | with_reducible refine checkBlack_memOk _ _  ?_ | with_reducible refine foldlMem _ (fun s a h => ?_) _ _ ?_ | simp only [id_eq, checkRed_keeps MemOk (fun _ _ => rfl), checkSensors_keeps MemOk (fun _ _ => rfl), updPower_keeps MemOk (fun _ _ => rfl), timeSite_keeps MemOk (fun _ _ => rfl), reportSite_keeps MemOk (fun _ _ => rfl), updSite_keeps MemOk (fun _ _ => rfl)] | split

theorem watchdog_memOk (s : State) (i : ℕ) (pc : ℕ) (hs : MemOk s) :
    MemOk (watchdog s i pc) := by
  unfold watchdog
  repeat' first | with_reducible assumption | with_reducible refine autoWarm_memOk _  ?_ | with_reducible refine foldlMem _ (fun s a h => ?_) _ _ ?_ | simp only [id_eq, updCore_keeps MemOk (fun _ _ => rfl), journal_keeps MemOk (fun _ _ => rfl), markScheds_keeps MemOk (fun _ _ => rfl), failCheckpoint_keeps MemOk (fun _ _ => rfl), abortSteps_keeps MemOk (fun _ _ => rfl)] | split

theorem endPaleWait_memOk (s : State) (hs : MemOk s) :
    MemOk (endPaleWait s) := by
  unfold endPaleWait
  repeat' first | with_reducible assumption | with_reducible refine coldStart_memOk _ _  ?_ | with_reducible refine foldlMem _ (fun s a h => ?_) _ _ ?_ | simp only [id_eq] | split

theorem supplyDown_memOk (s : State) (hs : MemOk s) :
    MemOk (supplyDown s) := by
  unfold supplyDown
  repeat' first | with_reducible assumption | with_reducible refine unpower_memOk _  ?_ | with_reducible refine coldStart_memOk _ _  ?_ | with_reducible refine foldlMem _ (fun s a h => ?_) _ _ ?_ | simp only [id_eq, updPower_keeps MemOk (fun _ _ => rfl)] | split

theorem leaveBlack_memOk (s : State) (hs : MemOk s) :
    MemOk (leaveBlack s) := by
  unfold leaveBlack
  repeat' first | with_reducible assumption | with_reducible refine coldStart_memOk _ _  ?_ | with_reducible refine foldlMem _ (fun s a h => ?_) _ _ ?_ | simp only [id_eq, updPower_keeps MemOk (fun _ _ => rfl)] | split

theorem runAsked_memOk (s : State) (hs : MemOk s) :
    MemOk (runAsked s) := by
  unfold runAsked
  repeat' first | with_reducible assumption | with_reducible refine coldStart_memOk _ _  ?_ | with_reducible refine leaveBlack_memOk _  ?_ | with_reducible refine foldlMem _ (fun s a h => ?_) _ _ ?_ | simp only [id_eq, updSeqs_keeps MemOk (fun _ _ => rfl), startWarm_keeps MemOk (fun _ _ => rfl)] | split

theorem writeThermalRestart_memOk (r : Route) (v : Bytes) (s : State) (hs : MemOk s) :
    MemOk (writeThermalRestart r v s) := by
  unfold writeThermalRestart
  repeat' first | with_reducible assumption | with_reducible refine writeRow_memOk _ _ _ _ _ _ _ (fun _ _ h => ?_) ?_ | with_reducible refine runAsked_memOk _  ?_ | with_reducible refine foldlMem _ (fun s a h => ?_) _ _ ?_ | simp only [id_eq, updPower_keeps MemOk (fun _ _ => rfl), askRestart_keeps MemOk (fun _ _ => rfl)] | split

theorem powerUp_memOk (s : State) (straps : ℕ) (aux : Bool) (hs : MemOk s) :
    MemOk (powerUp s straps aux) := by
  unfold powerUp
  repeat' first | with_reducible assumption | with_reducible refine beginCold_memOk _ _  ?_ | with_reducible refine foldlMem _ (fun s a h => ?_) _ _ ?_ | simp only [id_eq, updSeqs_keeps MemOk (fun _ _ => rfl), updPower_keeps MemOk (fun _ _ => rfl), objPut_keeps MemOk (fun _ _ => rfl)] | split

theorem stepThree_memOk (s : State) (is : List ImageInfo) (hs : MemOk s) :
    MemOk (stepThree s is) := by
  unfold stepThree
  repeat' first | with_reducible assumption | with_reducible refine bootFailed_memOk _ _ _  ?_ | with_reducible refine foldlMem _ (fun s a h => ?_) _ _ ?_ | simp only [id_eq, updSeqs_keeps MemOk (fun _ _ => rfl), setStep_keeps MemOk (fun _ _ => rfl), acceptImages_keeps MemOk (fun _ _ => rfl)] | split

theorem stepFive_memOk (s : State) (is : List ImageInfo) (hs : MemOk s) :
    MemOk (stepFive s is) := by
  unfold stepFive
  repeat' first | with_reducible assumption | with_reducible refine bootFailed_memOk _ _ _  ?_ | with_reducible refine foldlMem _ (fun s a h => ?_) _ _ ?_ | simp only [id_eq, updSeqs_keeps MemOk (fun _ _ => rfl), bankBooted_keeps MemOk (fun _ _ => rfl), coresRun_keeps MemOk (fun _ _ => rfl), setStep_keeps MemOk (fun _ _ => rfl), acceptImages_keeps MemOk (fun _ _ => rfl)] | split

theorem startStepDone_memOk (s : State) (o : StepOutcome) (hs : MemOk s) :
    MemOk (startStepDone s o) := by
  unfold startStepDone
  repeat' first | with_reducible assumption | with_reducible refine stepFive_memOk _ _  ?_ | with_reducible refine stepThree_memOk _ _  ?_ | with_reducible refine foldlMem _ (fun s a h => ?_) _ _ ?_ | simp only [id_eq, railFail_keeps MemOk (fun _ _ => rfl), examineLasers_keeps MemOk (fun _ _ => rfl), applyIntended_keeps MemOk (fun _ _ => rfl), coldDone_keeps MemOk (fun _ _ => rfl), stepFour_keeps MemOk (fun _ _ => rfl), stepTwo_keeps MemOk (fun _ _ => rfl), hardRepair_keeps MemOk (fun _ _ => rfl), sweepAll_keeps MemOk (fun _ _ => rfl), trainMemory_keeps MemOk (fun _ _ => rfl), trainBridge_keeps MemOk (fun _ _ => rfl), setStep_keeps MemOk (fun _ _ => rfl), noRegion_keeps MemOk (fun _ _ => rfl)] | split

theorem writeColdRestart_memOk (r : Route) (v : Bytes) (s : State) (hs : MemOk s) :
    MemOk (writeColdRestart r v s) := by
  unfold writeColdRestart
  repeat' first | with_reducible assumption | with_reducible refine writeRow_memOk _ _ _ _ _ _ _ (fun _ _ h => ?_) ?_ | with_reducible refine runAsked_memOk _  ?_ | with_reducible refine foldlMem _ (fun s a h => ?_) _ _ ?_ | simp only [id_eq, askRestart_keeps MemOk (fun _ _ => rfl)] | split

theorem writeWarmRestart_memOk (r : Route) (v : Bytes) (s : State) (hs : MemOk s) :
    MemOk (writeWarmRestart r v s) := by
  unfold writeWarmRestart
  repeat' first | with_reducible assumption | with_reducible refine runAsked_memOk _  ?_ | with_reducible refine ask_memOk _ _ _ _ _ _ _ (fun _ _ h => ?_) ?_ | with_reducible refine foldlMem _ (fun s a h => ?_) _ _ ?_ | simp only [id_eq, applyNum_keeps MemOk (fun _ _ => rfl), askRestart_keeps MemOk (fun _ _ => rfl)] | split

theorem warmReset_memOk (s : State) (hs : MemOk s) :
    MemOk (warmReset s) := by
  unfold warmReset
  repeat' first | with_reducible assumption | with_reducible refine dieReset_memOk _ _  ?_ | with_reducible refine foldlMem _ (fun s a h => ?_) _ _ ?_ | simp only [id_eq, chainStart_keeps MemOk (fun _ _ => rfl), chooseBank_keeps MemOk (fun _ _ => rfl), objPut_keeps MemOk (fun _ _ => rfl)] | split

theorem warmVerify_memOk (s : State) (is : List ImageInfo) (hs : MemOk s) :
    MemOk (warmVerify s is) := by
  unfold warmVerify
  repeat' first | with_reducible assumption | with_reducible refine bootFailed_memOk _ _ _  ?_ | with_reducible refine foldlMem _ (fun s a h => ?_) _ _ ?_ | simp only [id_eq, bankBooted_keeps MemOk (fun _ _ => rfl), warmStepTo_keeps MemOk (fun _ _ => rfl), acceptImages_keeps MemOk (fun _ _ => rfl)] | split

theorem warmStepDone_memOk (s : State) (o : StepOutcome) (hs : MemOk s) :
    MemOk (warmStepDone s o) := by
  unfold warmStepDone
  repeat' first | with_reducible assumption | with_reducible refine warmVerify_memOk _ _  ?_ | with_reducible refine warmReset_memOk _  ?_ | with_reducible refine foldlMem _ (fun s a h => ?_) _ _ ?_ | simp only [id_eq, examineLasers_keeps MemOk (fun _ _ => rfl), applyIntended_keeps MemOk (fun _ _ => rfl), coresRun_keeps MemOk (fun _ _ => rfl), sweepAll_keeps MemOk (fun _ _ => rfl), trainMemory_keeps MemOk (fun _ _ => rfl), warmDone_keeps MemOk (fun _ _ => rfl), trainBridge_keeps MemOk (fun _ _ => rfl), warmStepTo_keeps MemOk (fun _ _ => rfl), objPut_keeps MemOk (fun _ _ => rfl), noRegion_keeps MemOk (fun _ _ => rfl)] | split

theorem katFailed_memOk (s : State) (nn : ℕ) (pass : ℕ) (hs : MemOk s) :
    MemOk (katFailed s nn pass) := by
  unfold katFailed
  repeat' first | with_reducible assumption | with_reducible refine missEvent_memOk _ _  ?_ | with_reducible refine retireArray_memOk _ _  ?_ | with_reducible refine foldlMem _ (fun s a h => ?_) _ _ ?_ | simp only [id_eq, journal_keeps MemOk (fun _ _ => rfl), objInc_keeps MemOk (fun _ _ => rfl), updArray_keeps MemOk (fun _ _ => rfl)] | split

theorem smWf_append {α : Type} (a b : SMap α) (ha : smWf a = true) (hb : smWf b = true)
    (h : ∀ x ∈ a, ∀ y ∈ b, x.1 < y.1) : smWf (a ++ b) = true := by
  induction a with
  | nil => exact hb
  | cons e r ih =>
    obtain ⟨k, v⟩ := e
    rw [smWf_cons_iff] at ha
    rw [List.cons_append, smWf_cons_iff]
    refine ⟨ih ha.1 (fun x hx => h x (List.mem_cons_of_mem _ hx)), fun y hy => ?_⟩
    rcases List.mem_append.1 hy with hy | hy
    · exact ha.2 y hy
    · exact h _ List.mem_cons_self y hy

theorem memory_wf_append (a b : Mem) (ha : Memory.wf a = true) (hb : Memory.wf b = true)
    (h : ∀ x ∈ a, ∀ y ∈ b, x.1 < y.1) : Memory.wf (a ++ b) = true := by
  rw [memory_wf_iff] at ha hb ⊢
  refine ⟨smWf_append a b ha.1 hb.1 h, fun e he => ?_⟩
  rcases List.mem_append.1 he with he | he
  · exact ha.2 e he
  · exact hb.2 e he

/-- Addresses moved up by one amount keep the canonical form. -/
theorem memory_wf_shift (m : Mem) (f : Nat → Nat) (h : Memory.wf m = true)
    (hf : ∀ x ∈ m, ∀ y ∈ m, x.1 < y.1 → f x.1 < f y.1) : Memory.wf (m.map (fun c => (f c.1, c.2))) = true := by
  rw [memory_wf_iff] at h ⊢
  refine ⟨?_, fun e he => ?_⟩
  · have hw := h.1
    clear h
    induction m with
    | nil => rfl
    | cons e r ih =>
      obtain ⟨k, v⟩ := e
      rw [smWf_cons_iff] at hw
      rw [List.map_cons, smWf_cons_iff]
      refine ⟨ih (fun x hx y hy => hf x (List.mem_cons_of_mem _ hx) y (List.mem_cons_of_mem _ hy)) hw.1, fun y hy => ?_⟩
      obtain ⟨z, hz, rfl⟩ := List.mem_map.1 hy
      exact hf (k, v) List.mem_cons_self z (List.mem_cons_of_mem _ hz) (hw.2 z hz)
  · obtain ⟨z, hz, rfl⟩ := List.mem_map.1 he
    exact h.2 z hz

theorem memory_wf_memSplice (m : Mem) (lo hi : Nat) (cells : Mem) (hm : Memory.wf m = true) (hc : Memory.wf cells = true)
    (hl : lo ≤ hi) : Memory.wf (memSplice m lo hi cells) = true := by
  unfold memSplice
  refine memory_wf_append _ _ (memory_wf_append _ _ (memory_wf_filter _ _ hm) (memory_wf_filter _ _ hc) ?_)
    (memory_wf_filter _ _ hm) ?_
  · intro x hx y hy
    simp only [List.mem_filter, decide_eq_true_eq, Bool.and_eq_true] at hx hy
    omega
  · intro x hx y hy
    simp only [List.mem_append, List.mem_filter, decide_eq_true_eq, Bool.and_eq_true] at hx hy
    omega

theorem foldlMemory {α : Type} (f : Mem → α → Mem) (h : ∀ m a, Memory.wf m = true → Memory.wf (f m a) = true) (l : List α)
    (m : Mem) (hm : Memory.wf m = true) : Memory.wf (l.foldl f m) = true := by
  induction l generalizing m with
  | nil => exact hm
  | cons a l ih => exact ih _ (h m a hm)

theorem memory_wf_storeBank (base : Nat) (m : Mem) (x : ArrayUnit × Nat) (h : Memory.wf m = true) :
    Memory.wf (storeBank base m x) = true := by
  unfold storeBank
  refine foldlMemory _ (fun m b h => ?_) _ _ h
  refine foldlMemory _ (fun m e h => memory_wf_memStore _ _ _ h) _ _ ?_
  exact foldlMemory _ (fun m e h => memory_wf_memStore _ _ _ h) _ _ h

theorem copyOut_memOk (s : State) (epoch : ℕ) (hs : MemOk s) :
    MemOk (copyOut s epoch) := by
  refine ⟨?_, hs.2⟩
  refine memory_wf_memStore _ _ _ ?_
  refine foldlMemory _ (fun m x h => memory_wf_storeBank _ m x h) _ _ ?_
  refine foldlMemory _ (fun m e h => memory_wf_memStore _ _ _ h) _ _ ?_
  refine memory_wf_memStore _ _ _ ?_
  refine memory_wf_memSplice _ _ _ _ hs.1 ?_ (Nat.le_add_right _ _)
  exact memory_wf_shift s.tile (fun a => ckptBase s + areaTile + a) hs.2 (fun x _ y _ h => by omega)

theorem copyIn_memOk (s : State) (hs : MemOk s) :
    MemOk (copyIn s) := by
  have ht : ∀ base n, Memory.wf ((memSlice s.lpddr base n).map (fun c => (c.1 - base, c.2))) = true := by
    intro base n
    refine memory_wf_shift (memSlice s.lpddr base n) (fun a => a - base) (memory_wf_filter _ _ hs.1) (fun x hx y hy h => ?_)
    simp only [memSlice, List.mem_filter, decide_eq_true_eq, Bool.and_eq_true] at hx hy
    omega
  have h1 : (copyIn s).lpddr = s.lpddr := copyIn_keeps State.lpddr (fun _ _ => rfl) s
  refine ⟨by rw [h1]; exact hs.1, ?_⟩
  unfold copyIn
  generalize escImageApply s (rawBytes s (ckptBase s + areaEsc) 16384) = x
  exact ht (ckptBase s + areaTile) tileSize

theorem writeCheckpointRestore_memOk (r : Route) (v : Bytes) (s : State) (hs : MemOk s) :
    MemOk (writeCheckpointRestore r v s) := by
  unfold writeCheckpointRestore
  repeat' first | with_reducible assumption | with_reducible refine writeRow_memOk _ _ _ _ _ _ _ (fun _ _ h => ?_) ?_ | with_reducible refine copyIn_memOk _  ?_ | with_reducible refine foldlMem _ (fun s a h => ?_) _ _ ?_ | simp only [id_eq] | split

theorem segment_memOk (r : Route) (header : Bytes) (data : Bytes) (s : State) (hs : MemOk s) :
    MemOk (segment r header data s).st := by
  unfold segment
  repeat' first | with_reducible assumption | with_reducible refine writeSegment_memOk _ _ _ _  ?_ | with_reducible refine foldlMem _ (fun s a h => ?_) _ _ ?_ | simp only [id_eq, updXfer_keeps MemOk (fun _ _ => rfl), addrErr_keeps MemOk (fun _ _ => rfl)] | split

theorem writeLifecycle_memOk (r : Route) (v : Bytes) (burnt : Bool) (s : State) (hs : MemOk s) :
    MemOk (writeLifecycle r v burnt s) := by
  unfold writeLifecycle
  repeat' first | with_reducible assumption | with_reducible refine runAsked_memOk _  ?_ | with_reducible refine fuseWrite_memOk _ _ _ _ _ _ _ _ _ (fun _ h => ?_) ?_ | with_reducible refine ask_memOk _ _ _ _ _ _ _ (fun _ _ h => ?_) ?_ | with_reducible refine foldlMem _ (fun s a h => ?_) _ _ ?_ | simp only [id_eq, lifeEffect_keeps MemOk (fun _ _ => rfl)] | split

theorem programDone_memOk (s : State) (is : List ImageInfo) (hs : MemOk s) :
    MemOk (programDone s is) := by
  unfold programDone
  repeat' first | with_reducible assumption | with_reducible refine beginCold_memOk _ _  ?_ | with_reducible refine foldlMem _ (fun s a h => ?_) _ _ ?_ | simp only [id_eq, putBank_keeps MemOk (fun _ _ => rfl), objPut_keeps MemOk (fun _ _ => rfl)] | split

theorem efuseOpens_memOk (s : State) (hs : MemOk s) :
    MemOk (efuseOpens s) := by
  unfold efuseOpens
  repeat' first | with_reducible assumption | with_reducible refine unpower_memOk _  ?_ | with_reducible refine foldlMem _ (fun s a h => ?_) _ _ ?_ | simp only [id_eq, journal_keeps MemOk (fun _ _ => rfl), updIface_keeps MemOk (fun _ _ => rfl), updPower_keeps MemOk (fun _ _ => rfl), objInc_keeps MemOk (fun _ _ => rfl), objPut_keeps MemOk (fun _ _ => rfl)] | split

theorem monLine_memOk (s : State) (sup : Bool) (run : State → State)
    (h_run : ∀ s, MemOk s → MemOk ((run s))) (hs : MemOk s) :
    MemOk (monLine s sup run) := by
  unfold monLine
  repeat' first | with_reducible assumption | with_reducible refine h_run _ ?_ | with_reducible refine foldlMem _ (fun s a h => ?_) _ _ ?_ | simp only [id_eq, objInc_keeps MemOk (fun _ _ => rfl), emit_keeps MemOk (fun _ _ => rfl), prompt_keeps MemOk (fun _ _ => rfl), muted_keeps MemOk (fun _ _ => rfl)] | split

theorem iteMem {p : Prop} [Decidable p] {a b : State} (ha : MemOk a) (hb : MemOk b) : MemOk (if p then a else b) := by
  split
  · exact ha
  · exact hb

theorem monWrite_memOk (k : ℕ) (v : Bytes) (burnt : Bool) (s : State) (hs : MemOk s) :
    MemOk (monWrite k v burnt s) := by
  unfold monWrite
  dsimp only
  refine iteMem (writeWarmRestart_memOk _ _ _ hs) ?_
  refine iteMem (writeColdRestart_memOk _ _ _ hs) ?_
  refine iteMem (writeThermalRestart_memOk _ _ _ hs) ?_
  refine iteMem (by rw [writeCheckpointNow_keeps MemOk (fun _ _ => rfl)]; exact hs) ?_
  refine iteMem (writeCheckpointRestore_memOk _ _ _ hs) ?_
  refine iteMem (by rw [writeEpochSwitch_keeps MemOk (fun _ _ => rfl)]; exact hs) ?_
  refine iteMem (by rw [writeDrainArm_keeps MemOk (fun _ _ => rfl)]; exact hs) ?_
  refine iteMem (by rw [writeEpochRelease_keeps MemOk (fun _ _ => rfl)]; exact hs) ?_
  refine iteMem (by rw [writeLinkQuarantine_keeps MemOk (fun _ _ => rfl)]; exact hs) ?_
  refine iteMem (by rw [writeMemHashKey_keeps MemOk (fun _ _ => rfl)]; exact hs) ?_
  refine iteMem (by rw [writeChipNumberLock_keeps MemOk (fun _ _ => rfl)]; exact hs) ?_
  refine iteMem (by rw [writeThermalRedOverride_keeps MemOk (fun _ _ => rfl)]; exact hs) ?_
  refine iteMem (writeLifecycle_memOk _ _ _ _ hs) ?_
  refine iteMem (by rw [writeAntiRollback_keeps MemOk (fun _ _ => rfl)]; exact hs) ?_
  refine iteMem (by rw [writeRevoke_keeps MemOk (fun _ _ => rfl)]; exact hs) ?_
  refine iteMem (by rw [writeDebugLock_keeps MemOk (fun _ _ => rfl)]; exact hs) ?_
  refine iteMem (by rw [writeSnapshotTake_keeps MemOk (fun _ _ => rfl)]; exact hs) ?_
  rw [writePlain_keeps MemOk (fun _ _ => rfl)]; exact hs

theorem takeLoad_memOk (s : State) (image : Bytes) (hs : MemOk s) :
    MemOk (takeLoad s image) := by
  unfold takeLoad
  repeat' first | with_reducible assumption | with_reducible refine writeBytes_memOk _ _ _ _  ?_ | with_reducible refine foldlMem _ (fun s a h => ?_) _ _ ?_ | simp only [id_eq, journal_keeps MemOk (fun _ _ => rfl), endBinary_keeps MemOk (fun _ _ => rfl), startUpdate_keeps MemOk (fun _ _ => rfl)] | split

theorem takeBlock_memOk (s : State) (data : Bytes) (good : Bool) (hs : MemOk s) :
    MemOk (takeBlock s data good) := by
  have h0 : ∀ s x0, MemOk { s with obs := x0 } = MemOk s := fun s x0 => rfl
  unfold takeBlock
  repeat' first | with_reducible assumption | with_reducible refine takeLoad_memOk _ _  ?_ | with_reducible refine foldlMem _ (fun s a h => ?_) _ _ ?_ | simp only [id_eq, takeToken_keeps MemOk (fun _ _ => rfl), emit_keeps MemOk (fun _ _ => rfl), endBinary_keeps MemOk (fun _ _ => rfl), h0] | split

end Sys2Proof.Machine
end

