-- ==== Sys2Proof/Laws/Objects.lean ====
section
/-!
SUPPORT. Dictionary objects: what a put, a count and a bit leave in the object named and in every other, and what an
event leaves in the journal.
-/

namespace Sys2Proof.Machine

@[simp] theorem objGet_objPut_self (s : State) (k v : Nat) : objGet (objPut s k v) k = v := by
  simp [objGet, objPut, smGetD]

theorem objGet_objPut_ne (s : State) (k k' v : Nat) (h : k' ≠ k) : objGet (objPut s k v) k' = objGet s k' := by
  simp [objGet, objPut, smGetD, smGet_smSet_ne _ _ _ _ h]

@[simp] theorem objGet_objAdd_self (s : State) (k n : Nat) : objGet (objAdd s k n) k = satAdd (objTop k) (objGet s k) n := by
  simp [objAdd]

@[simp] theorem objGet_objInc_self (s : State) (k : Nat) : objGet (objInc s k) k = satAdd (objTop k) (objGet s k) 1 := by
  simp [objInc]

@[simp] theorem objGet_objMax_self (s : State) (k v : Nat) : objGet (objMax s k v) k = max (objGet s k) v := by
  simp [objMax]

theorem objGet_objAdd_ne (s : State) (k k' n : Nat) (h : k' ≠ k) : objGet (objAdd s k n) k' = objGet s k' :=
  objGet_objPut_ne s k k' _ h

theorem objGet_objInc_ne (s : State) (k k' : Nat) (h : k' ≠ k) : objGet (objInc s k) k' = objGet s k' :=
  objGet_objPut_ne s k k' _ h

theorem objGet_objMax_ne (s : State) (k k' v : Nat) (h : k' ≠ k) : objGet (objMax s k v) k' = objGet s k' :=
  objGet_objPut_ne s k k' _ h

theorem objGet_objBit_ne (s : State) (k k' i : Nat) (b : Bool) (h : k' ≠ k) : objGet (objBit s k i b) k' = objGet s k' :=
  objGet_objPut_ne s k k' _ h

@[simp] theorem objGet_objBit_self (s : State) (k i : Nat) (b : Bool) :
    objGet (objBit s k i b) k = if b then setNatBit i (objGet s k) else clearNatBit i (objGet s k) := by
  simp [objBit]

/-- An object of a state whose objects are those of another. -/
theorem objGet_congr (s t : State) (k : Nat) (h : t.dic = s.dic) : objGet t k = objGet s k := by
  unfold objGet; rw [h]

@[simp] theorem objGet_emit (s : State) (o : Out) (k : Nat) : objGet (emit s o) k = objGet s k := rfl
@[simp] theorem objGet_freeStep (s : State) (k : Nat) : objGet (freeStep s) k = objGet s k := rfl
@[simp] theorem objGet_domPut (s : State) (d : Nat) (b : Bytes) (k : Nat) : objGet (domPut s d b) k = objGet s k := rfl

/-- Journalling changes no object but JournalNextSeq and JournalDropped (R438). -/
theorem objGet_journalPut (s : State) (n : JEntry) (k : Nat) (h1 : k ≠ Obj.journalNextSeq) (h2 : k ≠ Obj.journalDropped) :
    objGet (journalPut s n) k = objGet s k := by
  unfold journalPut
  split
  · exact objGet_objInc_ne _ _ _ h1
  · cases lowestEntry s.obs.jbuf with
    | none => rfl
    | some l =>
      dsimp only
      split
      · exact objGet_objInc_ne _ _ _ h2
      · rw [objGet_objInc_ne _ _ _ h2, objGet_objInc_ne _ _ _ h1]; rfl

theorem objGet_journal (s : State) (e : JEvent) (as : List Nat) (k : Nat) (h1 : k ≠ Obj.journalNextSeq)
    (h2 : k ≠ Obj.journalDropped) : objGet (journal s e as) k = objGet s k := objGet_journalPut s _ k h1 h2

theorem objGet_alert_ne (s : State) (k : Nat) (h : k ≠ Obj.alertPending) : objGet (alert s) k = objGet s k :=
  objGet_objInc_ne _ _ _ h

theorem objGet_journalAlert (s : State) (e : JEvent) (as : List Nat) (k : Nat) (h1 : k ≠ Obj.journalNextSeq)
    (h2 : k ≠ Obj.journalDropped) (h3 : k ≠ Obj.alertPending) : objGet (journalAlert s e as) k = objGet s k := by
  unfold journalAlert
  rw [objGet_alert_ne _ _ h3, objGet_journalPut _ _ _ h1 h2]

/-- AlertPending counts an event that raises ALERT_N (R419). -/
theorem objGet_journalAlert_pending (s : State) (e : JEvent) (as : List Nat) :
    objGet (journalAlert s e as) Obj.alertPending = satAdd (objTop Obj.alertPending) (objGet s Obj.alertPending) 1 := by
  unfold journalAlert alert
  rw [objGet_objInc_self, objGet_journalPut _ _ _ (by decide) (by decide)]

/-- With room in the buffer, journalling appends one entry. -/
theorem journalPut_jbuf (s : State) (n : JEntry) (h : s.obs.jbuf.length < 4096) :
    (journalPut s n).obs.jbuf = s.obs.jbuf ++ [n] := by
  unfold journalPut; rw [if_pos h]; rfl

theorem logged_journal (s : State) (e : JEvent) (as : List Nat) : Logged s (journal s e as) e as false := by
  intro h
  exact ⟨_, journalPut_jbuf _ _ h, rfl, rfl, rfl, rfl, rfl⟩

theorem logged_journalAlert (s : State) (e : JEvent) (as : List Nat) : Logged s (journalAlert s e as) e as true := by
  intro h
  exact ⟨_, by simpa [journalAlert, alert, objInc, objAdd, objPut] using journalPut_jbuf _ _ h, rfl, rfl, rfl, rfl, rfl⟩

end Sys2Proof.Machine
end

