-- ==== Sys2Proof/Laws/Parts.lean ====
section
/-!
SUPPORT. Every part stays in its place: each operation keeps as many arrays, engines, channels, lines, links and sensors as
the module has. (An operation that touches none of them has none in its footprint.)
-/

namespace Sys2Proof.Machine

set_option linter.unusedSimpArgs false
set_option linter.unusedTactic false
set_option linter.unreachableTactic false
set_option linter.unusedVariables false

/-- How many there are of each part. -/
def lens (s : State) : List Nat :=
  [s.arrays.length, s.vecs.length, s.engines.length, s.scrubLine.length, s.chans.length, s.pkgs.length, s.cores.length,
   s.lasers.length, s.rings.length, s.rotors.length, s.specMap.length, s.links.length, s.power.doms.length,
   s.power.sites.length]

theorem partsOk_iff (s : State) : PartsOk s ↔ lens s = [64, 64, 72, 64, 64, 16, 8, 8, 1088, 32, 544, 64, 8, 88] := by
  simp [PartsOk, lens]

theorem partsOk_of {s t : State} (hs : PartsOk s) (h : lens t = lens s) : PartsOk t := by
  rw [partsOk_iff] at *
  rw [h, hs]

theorem foldlParts {α : Type} (f : State → α → State) (h : ∀ s a, PartsOk s → PartsOk (f s a)) (l : List α) (s : State)
    (hs : PartsOk s) : PartsOk (l.foldl f s) := by
  induction l generalizing s with
  | nil => exact hs
  | cons a l ih => exact ih _ (h s a hs)

theorem foldlPartsV {α : Type} (f : VRun → α → VRun) (h : ∀ r a, PartsOk r.s → PartsOk (f r a).s) (l : List α) (r : VRun)
    (hs : PartsOk r.s) : PartsOk (l.foldl f r).s := by
  induction l generalizing r with
  | nil => exact hs
  | cons a l ih => exact ih _ (h r a hs)

theorem gate_partsOk (s : State) (sup : Bool) (key : Nat) (a : Answer) (hs : PartsOk s) (h : PartsOk a.st) :
    PartsOk (gate s sup key a).st := by
  unfold gate
  repeat' first | assumption | split

theorem updChan_partsOk (s : State) (ch : ℕ) (f : Chan → Chan) (hs : PartsOk s) :
    PartsOk (updChan s ch f) := by
  unfold updChan
  repeat' first | with_reducible assumption | with_reducible refine foldlParts _ (fun s a h => ?_) _ _ ?_ | simp only [id_eq] | split | exact partsOk_of ‹PartsOk _› (by simp [lens, modifyAt])

theorem noteWrite_partsOk (s : State) (line : ℕ) (hs : PartsOk s) :
    PartsOk (noteWrite s line) := by
  unfold noteWrite
  repeat' first | with_reducible assumption | with_reducible refine updChan_partsOk _ _ _  ?_ | with_reducible refine foldlParts _ (fun s a h => ?_) _ _ ?_ | simp only [id_eq, objInc_keeps PartsOk (fun _ _ => rfl)] | split

theorem writeLine_partsOk (s : State) (off : ℕ) (mask : ℕ) (data : Bytes) (poison : Bool) (hs : PartsOk s) :
    PartsOk (writeLine s off mask data poison) := by
  unfold writeLine
  repeat' first | with_reducible assumption | with_reducible refine noteWrite_partsOk _ _  ?_ | with_reducible refine foldlParts _ (fun s a h => ?_) _ _ ?_ | simp only [id_eq, writeTileLine_keeps PartsOk (fun _ _ => rfl), writeLpddrLine_keeps PartsOk (fun _ _ => rfl)] | split

theorem writeRun_partsOk (s : State) (off : ℕ) (data : Bytes) (poison : Bool) (x1 : ℕ) (hs : PartsOk s) :
    PartsOk (writeRun s off data poison x1) := by
  fun_induction writeRun s off data poison x1
  all_goals repeat' first | with_reducible assumption | with_reducible refine writeLine_partsOk _ _ _ _ _  ?_ | with_reducible refine foldlParts _ (fun s a h => ?_) _ _ ?_ | simp only [id_eq] | split | (rename_i ih; with_reducible refine ih ?_) | simp +zetaDelta only [id_eq]

theorem writeBytes_partsOk (s : State) (off : ℕ) (data : Bytes) (poison : Bool) (hs : PartsOk s) :
    PartsOk (writeBytes s off data poison) := by
  unfold writeBytes
  repeat' first | with_reducible assumption | with_reducible refine writeRun_partsOk _ _ _ _ _  ?_ | with_reducible refine foldlParts _ (fun s a h => ?_) _ _ ?_ | simp only [id_eq] | split

theorem dimStall_partsOk (s : State) (ch : ℕ) (key : ℕ × ℕ × ℕ) (hs : PartsOk s) :
    PartsOk (dimStall s ch key) := by
  unfold dimStall
  repeat' first | with_reducible assumption | with_reducible refine updChan_partsOk _ _ _  ?_ | with_reducible refine foldlParts _ (fun s a h => ?_) _ _ ?_ | simp only [id_eq, objInc_keeps PartsOk (fun _ _ => rfl)] | split

theorem pastDim_partsOk (s : State) (off : ℕ) (n : ℕ) (key : ℕ × ℕ × ℕ) (go : State → State)
    (h_go : ∀ s, PartsOk s → PartsOk ((go s))) (hs : PartsOk s) :
    PartsOk (pastDim s off n key go) := by
  unfold pastDim
  repeat' first | with_reducible assumption | with_reducible refine dimStall_partsOk _ _ _  ?_ | with_reducible refine h_go _ ?_ | with_reducible refine foldlParts _ (fun s a h => ?_) _ _ ?_ | simp only [id_eq] | split

theorem noteRow_partsOk (s : State) (line : ℕ) (pass : Option ℕ) (hs : PartsOk s) :
    PartsOk (noteRow s line pass) := by
  unfold noteRow
  repeat' first | with_reducible assumption | with_reducible refine updChan_partsOk _ _ _  ?_ | with_reducible refine foldlParts _ (fun s a h => ?_) _ _ ?_ | simp only [id_eq] | split

theorem noteCorrected_partsOk (s : State) (line : ℕ) (hs : PartsOk s) :
    PartsOk (noteCorrected s line) := by
  unfold noteCorrected
  repeat' first | with_reducible assumption | with_reducible refine updChan_partsOk _ _ _  ?_ | with_reducible refine foldlParts _ (fun s a h => ?_) _ _ ?_ | simp only [id_eq, islandEvent_keeps PartsOk (fun _ _ => rfl)] | split

theorem readDecoded_partsOk (s : State) (line : ℕ) (e : Ecc) (hs : PartsOk s) :
    PartsOk (readDecoded s line e) := by
  have h0 : ∀ s x0, PartsOk { s with lpddrBad := x0 } = PartsOk s := fun s x0 => rfl
  unfold readDecoded
  repeat' first | with_reducible assumption | with_reducible refine noteRow_partsOk _ _ _  ?_ | with_reducible refine noteCorrected_partsOk _ _  ?_ | with_reducible refine foldlParts _ (fun s a h => ?_) _ _ ?_ | simp only [id_eq, islandEvent_keeps PartsOk (fun _ _ => rfl), h0] | split

theorem lineFound_partsOk (s : State) (x : LineEvent) (hs : PartsOk s) :
    PartsOk (lineFound s x) := by
  have h0 : ∀ s x0, PartsOk { s with tilePoison := x0 } = PartsOk s := fun s x0 => rfl
  unfold lineFound
  repeat' first | with_reducible assumption | with_reducible refine readDecoded_partsOk _ _ _  ?_ | with_reducible refine foldlParts _ (fun s a h => ?_) _ _ ?_ | simp only [id_eq, objInc_keeps PartsOk (fun _ _ => rfl), h0] | split

theorem linesFound_partsOk (s : State) (lines : List ℕ) (ev : List LineEvent) (hs : PartsOk s) :
    PartsOk (linesFound s lines ev) := by
  unfold linesFound
  repeat' first | with_reducible assumption | with_reducible refine lineFound_partsOk _ _  ?_ | with_reducible refine foldlParts _ (fun s a h => ?_) _ _ ?_ | simp only [id_eq] | split

theorem pastSnoop_partsOk (s : State) (read : Bool) (lines : List ℕ) (go : State → State)
    (h_go : ∀ s, PartsOk s → PartsOk ((go s))) (hs : PartsOk s) :
    PartsOk (pastSnoop s read lines go) := by
  unfold pastSnoop
  repeat' first | with_reducible assumption | with_reducible refine h_go _ ?_ | with_reducible refine foldlParts _ (fun s a h => ?_) _ _ ?_ | simp only [id_eq, backInvalidate_keeps PartsOk (fun _ _ => rfl)] | split

theorem pastLocal_partsOk (s : State) (off : ℕ) (n : ℕ) (key : ℕ × ℕ × ℕ) (go : State → State)
    (h_go : ∀ s, PartsOk s → PartsOk ((go s))) (hs : PartsOk s) :
    PartsOk (pastLocal s off n key go) := by
  unfold pastLocal
  repeat' first | with_reducible assumption | with_reducible refine pastDim_partsOk _ _ _ _ _ (fun _ h => ?_) ?_ | with_reducible refine pastSnoop_partsOk _ _ _ _ (fun _ h => ?_) ?_ | with_reducible refine h_go _ ?_ | with_reducible refine foldlParts _ (fun s a h => ?_) _ _ ?_ | simp only [id_eq] | split

theorem readPastDim_partsOk (s : State) (addr : ℕ) (n : ℕ) (key : ℕ × ℕ × ℕ) (go : State → State)
    (h_go : ∀ s, PartsOk s → PartsOk ((go s))) (hs : PartsOk s) :
    PartsOk (readPastDim s addr n key go) := by
  unfold readPastDim
  repeat' first | with_reducible assumption | with_reducible refine pastLocal_partsOk _ _ _ _ _ (fun _ h => ?_) ?_ | with_reducible refine h_go _ ?_ | with_reducible refine foldlParts _ (fun s a h => ?_) _ _ ?_ | simp only [id_eq] | split

theorem writeQueueMem_partsOk (s : State) (addr : ℕ) (data : Bytes) (hs : PartsOk s) :
    PartsOk (writeQueueMem s addr data) := by
  unfold writeQueueMem
  repeat' first | with_reducible assumption | with_reducible refine writeBytes_partsOk _ _ _ _  ?_ | with_reducible refine foldlParts _ (fun s a h => ?_) _ _ ?_ | simp only [id_eq, countAddrError_keeps PartsOk (fun _ _ => rfl), emit_keeps PartsOk (fun _ _ => rfl)] | split

theorem putRecord_partsOk (s : State) (q : ℕ) (v : Queue) (words : List Word64) (hs : PartsOk s) :
    PartsOk (putRecord s q v words) := by
  unfold putRecord
  repeat' first | with_reducible assumption | with_reducible refine writeQueueMem_partsOk _ _ _  ?_ | with_reducible refine foldlParts _ (fun s a h => ?_) _ _ ?_ | simp only [id_eq, raiseCpl_keeps PartsOk (fun _ _ => rfl), updQ_keeps PartsOk (fun _ _ => rfl)] | split

theorem writeRecord_partsOk (s : State) (q : ℕ) (words : List Word64) (hs : PartsOk s) :
    PartsOk (writeRecord s q words) := by
  unfold writeRecord
  repeat' first | with_reducible assumption | with_reducible refine putRecord_partsOk _ _ _ _  ?_ | with_reducible refine foldlParts _ (fun s a h => ?_) _ _ ?_ | simp only [id_eq, parkRecord_keeps PartsOk (fun _ _ => rfl)] | split

theorem writeSpare_partsOk (s : State) (q : ℕ) (words : List Word64) (hs : PartsOk s) :
    PartsOk (writeSpare s q words) := by
  unfold writeSpare
  repeat' first | with_reducible assumption | with_reducible refine putRecord_partsOk _ _ _ _  ?_ | with_reducible refine foldlParts _ (fun s a h => ?_) _ _ ?_ | simp only [id_eq, parkRecord_keeps PartsOk (fun _ _ => rfl)] | split

theorem finishDesc_partsOk (s : State) (d : Done) (hs : PartsOk s) :
    PartsOk (finishDesc s d) := by
  unfold finishDesc
  repeat' first | with_reducible assumption | with_reducible refine putRecord_partsOk _ _ _ _  ?_ | with_reducible refine foldlParts _ (fun s a h => ?_) _ _ ?_ | simp only [id_eq, endDesc_keeps PartsOk (fun _ _ => rfl), parkRecord_keeps PartsOk (fun _ _ => rfl)] | split

theorem unpark_partsOk (s : State) (q : ℕ) (v : Queue) (w : Parked) (hs : PartsOk s) :
    ∀ t, unpark s q v w = some t → PartsOk t := by
  intro t ht
  unfold unpark at ht
  split at ht <;> split at ht <;> first | (cases ht; done) | (injection ht with ht; subst ht)
  · exact (endDesc_keeps PartsOk (fun _ _ => rfl) _ _ _).symm ▸ putRecord_partsOk _ _ _ _ hs
  · exact putRecord_partsOk _ _ _ _ hs

theorem drainRing_partsOk (s : State) (q : ℕ) (x1 : ℕ) (hs : PartsOk s) :
    PartsOk (drainRing s q x1) := by
  fun_induction drainRing s q x1
  all_goals repeat' first | with_reducible assumption | with_reducible refine unpark_partsOk _ _ _ _ ?_ _ ‹unpark _ _ _ _ = some _› | with_reducible refine foldlParts _ (fun s a h => ?_) _ _ ?_ | simp only [id_eq, updQ_keeps PartsOk (fun _ _ => rfl), askSlot_keeps PartsOk (fun _ _ => rfl)] | split | (rename_i ih; with_reducible refine ih ?_) | simp +zetaDelta only [id_eq, updQ_keeps PartsOk (fun _ _ => rfl), askSlot_keeps PartsOk (fun _ _ => rfl)]

theorem layerDies_partsOk (s : State) (l : Layer) (status : ℕ) (hs : PartsOk s) :
    PartsOk (layerDies s l status) := by
  have h0 : ∀ s x0, PartsOk { s with layers := x0 } = PartsOk s := fun s x0 => rfl
  unfold layerDies
  repeat' first | with_reducible assumption | with_reducible refine finishDesc_partsOk _ _  ?_ | with_reducible refine foldlParts _ (fun s a h => ?_) _ _ ?_ | simp only [id_eq, cutAttempt_keeps PartsOk (fun _ _ => rfl), h0] | split

theorem layerHook_partsOk (s : State) (d : Done) (trapped : Bool) (hs : PartsOk s) :
    PartsOk (layerHook s d trapped) := by
  unfold layerHook
  repeat' first | with_reducible assumption | with_reducible refine layerDies_partsOk _ _ _  ?_ | with_reducible refine foldlParts _ (fun s a h => ?_) _ _ ?_ | simp only [id_eq, cutAttempt_keeps PartsOk (fun _ _ => rfl), updLayer_keeps PartsOk (fun _ _ => rfl)] | split

theorem completeDesc_partsOk (s : State) (d : Done) (hs : PartsOk s) :
    PartsOk (completeDesc s d) := by
  unfold completeDesc
  repeat' first | with_reducible assumption | with_reducible refine finishDesc_partsOk _ _  ?_ | with_reducible refine layerHook_partsOk _ _ _  ?_ | with_reducible refine foldlParts _ (fun s a h => ?_) _ _ ?_ | simp only [id_eq] | split

theorem rejectDesc_partsOk (s : State) (d : Issued) (status : ℕ) (engine : ℕ) (hs : PartsOk s) :
    PartsOk (rejectDesc s d status engine) := by
  unfold rejectDesc
  repeat' first | with_reducible assumption | with_reducible refine completeDesc_partsOk _ _  ?_ | with_reducible refine foldlParts _ (fun s a h => ?_) _ _ ?_ | simp only [id_eq] | split

theorem abortRecord_partsOk (s : State) (q : ℕ) (seq : ℕ) (op : ℕ) (engine : ℕ) (body : List Word64) (hs : PartsOk s) :
    PartsOk (abortRecord s q seq op engine body) := by
  unfold abortRecord
  repeat' first | with_reducible assumption | with_reducible refine writeSpare_partsOk _ _ _  ?_ | with_reducible refine foldlParts _ (fun s a h => ?_) _ _ ?_ | simp only [id_eq] | split

theorem abortRecords_partsOk (s : State) (q : ℕ) (x1 : List (ℕ × ℕ × ℕ)) (hs : PartsOk s) :
    PartsOk (abortRecords s q x1) := by
  fun_induction abortRecords s q x1
  all_goals repeat' first | with_reducible assumption | with_reducible refine abortRecord_partsOk _ _ _ _ _ _  ?_ | with_reducible refine foldlParts _ (fun s a h => ?_) _ _ ?_ | simp only [id_eq] | split | (rename_i ih; with_reducible refine ih ?_) | simp +zetaDelta only [id_eq]

theorem abortLayers_partsOk (s : State) (q : ℕ) (x1 : List Layer) (hs : PartsOk s) :
    PartsOk (abortLayers s q x1) := by
  fun_induction abortLayers s q x1
  all_goals repeat' first | with_reducible assumption | with_reducible refine abortRecord_partsOk _ _ _ _ _ _  ?_ | with_reducible refine foldlParts _ (fun s a h => ?_) _ _ ?_ | simp only [id_eq] | split | (rename_i ih; with_reducible refine ih ?_) | simp +zetaDelta only [id_eq]

theorem dropStreams_partsOk (s : State) (q : ℕ) (gone : List ℕ) (hs : PartsOk s) :
    PartsOk (dropStreams s q gone) := by
  have h0 : ∀ s x0 x1 x2, PartsOk { s with claims := x0, waitClaims := x1, spills := x2 } = PartsOk s := fun s x0 x1 x2 => rfl
  unfold dropStreams
  repeat' first | with_reducible assumption | with_reducible refine foldlParts _ (fun s a h => ?_) _ _ ?_ | simp only [id_eq, h0] | split | exact partsOk_of ‹PartsOk _› (by simp [lens, modifyAt])

theorem abortQueue_partsOk (s : State) (q : ℕ) (hs : PartsOk s) :
    PartsOk (abortQueue s q) := by
  have h0 : ∀ s x0 x1 x2, PartsOk { s with free := x0, layers := x1, waiters := x2 } = PartsOk s := fun s x0 x1 x2 => rfl
  unfold abortQueue
  repeat' first | with_reducible assumption | with_reducible refine abortLayers_partsOk _ _ _  ?_ | with_reducible refine abortRecords_partsOk _ _ _  ?_ | with_reducible refine dropStreams_partsOk _ _ _  ?_ | with_reducible refine foldlParts _ (fun s a h => ?_) _ _ ?_ | simp only [id_eq, updQ_keeps PartsOk (fun _ _ => rfl), h0] | split

theorem cplHeadWrite_partsOk (s : State) (q : ℕ) (w : ℕ) (hs : PartsOk s) :
    PartsOk (cplHeadWrite s q w) := by
  unfold cplHeadWrite
  repeat' first | with_reducible assumption | with_reducible refine drainRing_partsOk _ _ _  ?_ | with_reducible refine foldlParts _ (fun s a h => ?_) _ _ ?_ | simp only [id_eq, updQ_keeps PartsOk (fun _ _ => rfl)] | split

theorem pageWrite_partsOk (s : State) (q : ℕ) (reg : ℕ) (w : ℕ) (hs : PartsOk s) :
    PartsOk (pageWrite s q reg w) := by
  unfold pageWrite
  repeat' first | with_reducible assumption | with_reducible refine abortQueue_partsOk _ _  ?_ | with_reducible refine cplHeadWrite_partsOk _ _ _  ?_ | with_reducible refine foldlParts _ (fun s a h => ?_) _ _ ?_ | simp only [id_eq, doorbellWrite_keeps PartsOk (fun _ _ => rfl), irqWrite_keeps PartsOk (fun _ _ => rfl), discardQueue_keeps PartsOk (fun _ _ => rfl), updQ_keeps PartsOk (fun _ _ => rfl), releaseQueue_keeps PartsOk (fun _ _ => rfl)] | split

theorem pageStoreWords_partsOk (s : State) (line : ℕ) (mask : ℕ) (data : Bytes) (x1 : List ℕ) (hs : PartsOk s) :
    PartsOk (pageStoreWords s line mask data x1) := by
  fun_induction pageStoreWords s line mask data x1
  all_goals repeat' first | with_reducible assumption | with_reducible refine pageWrite_partsOk _ _ _ _  ?_ | with_reducible refine foldlParts _ (fun s a h => ?_) _ _ ?_ | simp only [id_eq] | split | (rename_i ih; with_reducible refine ih ?_) | simp +zetaDelta only [id_eq]

theorem pageStore_partsOk (s : State) (line : ℕ) (mask : ℕ) (data : Bytes) (hs : PartsOk s) :
    PartsOk (pageStore s line mask data) := by
  unfold pageStore
  repeat' first | with_reducible assumption | with_reducible refine pageStoreWords_partsOk _ _ _ _ _  ?_ | with_reducible refine foldlParts _ (fun s a h => ?_) _ _ ?_ | simp only [id_eq] | split

theorem localPut_partsOk (s : State) (line : ℕ) (mask : ℕ) (data : Bytes) (poison : Bool) (hs : PartsOk s) :
    PartsOk (localPut s line mask data poison) := by
  unfold localPut
  repeat' first | with_reducible assumption | with_reducible refine pageStore_partsOk _ _ _ _  ?_ | with_reducible refine writeLine_partsOk _ _ _ _ _  ?_ | with_reducible refine foldlParts _ (fun s a h => ?_) _ _ ?_ | simp only [id_eq, countAddrError_keeps PartsOk (fun _ _ => rfl), syncPut_keeps PartsOk (fun _ _ => rfl)] | split

theorem updEngine_partsOk (s : State) (e : ℕ) (f : Engine → Engine) (hs : PartsOk s) :
    PartsOk (updEngine s e f) := by
  unfold updEngine
  repeat' first | with_reducible assumption | with_reducible refine foldlParts _ (fun s a h => ?_) _ _ ?_ | simp only [id_eq] | split | exact partsOk_of ‹PartsOk _› (by simp [lens, modifyAt])

theorem updCtx_partsOk (s : State) (e : ℕ) (q : ℕ) (seq : ℕ) (f : StreamCtx → StreamCtx) (hs : PartsOk s) :
    PartsOk (updCtx s e q seq f) := by
  unfold updCtx
  repeat' first | with_reducible assumption | with_reducible refine updEngine_partsOk _ _ _  ?_ | with_reducible refine foldlParts _ (fun s a h => ?_) _ _ ?_ | simp only [id_eq] | split

theorem dropCtx_partsOk (s : State) (e : ℕ) (q : ℕ) (seq : ℕ) (hs : PartsOk s) :
    PartsOk (dropCtx s e q seq) := by
  unfold dropCtx
  repeat' first | with_reducible assumption | with_reducible refine updEngine_partsOk _ _ _  ?_ | with_reducible refine foldlParts _ (fun s a h => ?_) _ _ ?_ | simp only [id_eq] | split

theorem tileSignals_partsOk (s : State) (e : ℕ) (q : ℕ) (seq : ℕ) (x1 : ℕ) (hs : PartsOk s) :
    PartsOk (tileSignals s e q seq x1) := by
  fun_induction tileSignals s e q seq x1
  · exact hs
  · exact hs
  · rename_i ih
    refine ih ?_
    split
    · rw [syncAdd_keeps PartsOk (fun _ _ => rfl)]; exact updCtx_partsOk _ _ _ _ _ hs
    · exact updCtx_partsOk _ _ _ _ _ hs
  · exact hs

theorem endStream_partsOk (s : State) (e : ℕ) (c : StreamCtx) (status : Option ℕ) (hs : PartsOk s) :
    PartsOk (endStream s e c status) := by
  have h0 : ∀ s x0, PartsOk { s with claims := x0 } = PartsOk s := fun s x0 => rfl
  unfold endStream
  repeat' first | with_reducible assumption | with_reducible refine dropCtx_partsOk _ _ _ _  ?_ | with_reducible refine completeDesc_partsOk _ _  ?_ | with_reducible refine foldlParts _ (fun s a h => ?_) _ _ ?_ | simp only [id_eq, objInc_keeps PartsOk (fun _ _ => rfl), dropClaim_keeps PartsOk (fun _ _ => rfl), h0] | split

theorem advance_partsOk (s : State) (e : ℕ) (q : ℕ) (seq : ℕ) (hs : PartsOk s) :
    PartsOk (advance s e q seq) := by
  unfold advance
  repeat' first | with_reducible assumption | with_reducible refine endStream_partsOk _ _ _ _  ?_ | with_reducible refine tileSignals_partsOk _ _ _ _ _  ?_ | with_reducible refine foldlParts _ (fun s a h => ?_) _ _ ?_ | simp only [id_eq] | split

theorem pageFault_partsOk (s : State) (e : ℕ) (q : ℕ) (seq : ℕ) (page : ℕ) (hs : PartsOk s) :
    PartsOk (pageFault s e q seq page) := by
  have h0 : ∀ s x0, PartsOk { s with host := x0 } = PartsOk s := fun s x0 => rfl
  unfold pageFault
  repeat' first | with_reducible assumption | with_reducible refine updCtx_partsOk _ _ _ _ _  ?_ | with_reducible refine foldlParts _ (fun s a h => ?_) _ _ ?_ | simp only [id_eq, objInc_keeps PartsOk (fun _ _ => rfl), emit_keeps PartsOk (fun _ _ => rfl), h0] | split

theorem putLocal_partsOk (s : State) (top : ℕ) (fmt : ℕ) (scale : Bool) (bs : List UByte) (x1 : List ℕ) (hs : PartsOk s) :
    PartsOk (putLocal s top fmt scale bs x1).1 := by
  fun_induction putLocal s top fmt scale bs x1
  all_goals repeat' first | with_reducible assumption | with_reducible refine localPut_partsOk _ _ _ _ _  ?_ | with_reducible refine foldlParts _ (fun s a h => ?_) _ _ ?_ | simp only [id_eq] | split | (rename_i ih; with_reducible refine ih ?_) | simp +zetaDelta only [id_eq]

theorem writePhase_partsOk (s : State) (e : ℕ) (c : StreamCtx) (r : Req) (bs : List UByte) (hs : PartsOk s) :
    PartsOk (writePhase s e c r bs) := by
  unfold writePhase
  repeat' first | with_reducible assumption | with_reducible refine putLocal_partsOk _ _ _ _ _ _  ?_ | with_reducible refine updCtx_partsOk _ _ _ _ _  ?_ | with_reducible refine foldlParts _ (fun s a h => ?_) _ _ ?_ | (have e := congrArg Prod.fst ‹putLocal _ _ _ _ _ _ = _›; dsimp only at e; rw [← e]; refine putLocal_partsOk _ _ _ _ _ _ ?_) | simp only [id_eq, sendStores_keeps PartsOk (fun _ _ => rfl), objInc_keeps PartsOk (fun _ _ => rfl)] | split

theorem inPhase_partsOk (s : State) (e : ℕ) (c : StreamCtx) (r : Req) (bs : List UByte) (hs : PartsOk s) :
    PartsOk (inPhase s e c r bs) := by
  unfold inPhase
  repeat' first | with_reducible assumption | with_reducible refine updCtx_partsOk _ _ _ _ _  ?_ | with_reducible refine foldlParts _ (fun s a h => ?_) _ _ ?_ | simp only [id_eq, fixScales_keeps PartsOk (fun _ _ => rfl), placeSlice_keeps PartsOk (fun _ _ => rfl)] | split

theorem markFresh_partsOk (s : State) (r : Req) (cause : ℕ) (mask : ℕ) (x1 : List ℕ) (hs : PartsOk s) :
    PartsOk (markFresh s r cause mask x1) := by
  have h0 : ∀ s x0, PartsOk { s with tilePoison := x0 } = PartsOk s := fun s x0 => rfl
  fun_induction markFresh s r cause mask x1
  all_goals repeat' first | with_reducible assumption | with_reducible refine readDecoded_partsOk _ _ _  ?_ | with_reducible refine foldlParts _ (fun s a h => ?_) _ _ ?_ | simp only [id_eq, objInc_keeps PartsOk (fun _ _ => rfl), h0] | split | (rename_i ih; with_reducible refine ih ?_) | simp +zetaDelta only [id_eq, objInc_keeps PartsOk (fun _ _ => rfl), h0]

theorem dropReads_partsOk (s : State) (e : ℕ) (seq : ℕ) (id : ℕ) (hs : PartsOk s) :
    PartsOk (dropReads s e seq id) := by
  unfold dropReads
  repeat' first | with_reducible assumption | with_reducible refine foldlParts _ (fun s a h => ?_) _ _ ?_ | simp only [id_eq] | split | exact partsOk_of ‹PartsOk _› (by simp [lens, modifyAt])

theorem finishReq_partsOk (s : State) (e : ℕ) (c : StreamCtx) (r : Req) (o : FarOutcome) (hs : PartsOk s) :
    PartsOk (finishReq s e c r o) := by
  unfold finishReq
  repeat' first | with_reducible assumption | with_reducible refine writePhase_partsOk _ _ _ _ _  ?_ | with_reducible refine updCtx_partsOk _ _ _ _ _  ?_ | with_reducible refine advance_partsOk _ _ _ _  ?_ | with_reducible refine inPhase_partsOk _ _ _ _ _  ?_ | with_reducible refine pageFault_partsOk _ _ _ _ _  ?_ | with_reducible refine dropReads_partsOk _ _ _ _  ?_ | with_reducible refine markFresh_partsOk _ _ _ _ _  ?_ | with_reducible refine foldlParts _ (fun s a h => ?_) _ _ ?_ | simp only [id_eq, afterRead_keeps PartsOk (fun _ _ => rfl), countReserved_keeps PartsOk (fun _ _ => rfl), tallied_keeps PartsOk (fun _ _ => rfl)] | split

theorem addReq_partsOk (s : State) (e : ℕ) (c : StreamCtx) (r : Req) (scale : Bool) (upTo : ℕ) (hs : PartsOk s) :
    PartsOk (addReq s e c r scale upTo) := by
  unfold addReq
  repeat' first | with_reducible assumption | with_reducible refine updCtx_partsOk _ _ _ _ _  ?_ | with_reducible refine foldlParts _ (fun s a h => ?_) _ _ ?_ | simp only [id_eq] | split

theorem askRead_partsOk (s : State) (e : ℕ) (c : StreamCtx) (r : Req) (far : ℕ) (hs : PartsOk s) :
    PartsOk (askRead s e c r far) := by
  unfold askRead
  repeat' first | with_reducible assumption | with_reducible refine updChan_partsOk _ _ _  ?_ | with_reducible refine foldlParts _ (fun s a h => ?_) _ _ ?_ | simp only [id_eq, objInc_keeps PartsOk (fun _ _ => rfl)] | split

theorem readPhase_partsOk (s : State) (e : ℕ) (c : StreamCtx) (r : Req) (hs : PartsOk s) :
    PartsOk (readPhase s e c r) := by
  unfold readPhase
  repeat' first | with_reducible assumption | with_reducible refine updCtx_partsOk _ _ _ _ _  ?_ | with_reducible refine askRead_partsOk _ _ _ _ _  ?_ | with_reducible refine finishReq_partsOk _ _ _ _ _  ?_ | with_reducible refine foldlParts _ (fun s a h => ?_) _ _ ?_ | simp only [id_eq, backInvalidate_keeps PartsOk (fun _ _ => rfl), objInc_keeps PartsOk (fun _ _ => rfl), emit_keeps PartsOk (fun _ _ => rfl), sendRequest_keeps PartsOk (fun _ _ => rfl), atsHold_keeps PartsOk (fun _ _ => rfl)] | split

theorem issueOut_partsOk (s : State) (e : ℕ) (c : StreamCtx) (r0 : Req) (upTo : ℕ) (tst : List TstEvent) (hs : PartsOk s) :
    PartsOk (issueOut s e c r0 upTo tst) := by
  unfold issueOut
  repeat' first | with_reducible assumption | with_reducible refine writePhase_partsOk _ _ _ _ _  ?_ | with_reducible refine updCtx_partsOk _ _ _ _ _  ?_ | with_reducible refine advance_partsOk _ _ _ _  ?_ | with_reducible refine addReq_partsOk _ _ _ _ _ _  ?_ | with_reducible refine foldlParts _ (fun s a h => ?_) _ _ ?_ | simp only [id_eq, backInvalidate_keeps PartsOk (fun _ _ => rfl), tallied_keeps PartsOk (fun _ _ => rfl), applyTst_keeps PartsOk (fun _ _ => rfl)] | split

theorem issueReq_partsOk (s : State) (e : ℕ) (c : StreamCtx) (scale : Bool) (u : ℕ) (tst : List TstEvent) (hs : PartsOk s) :
    PartsOk (issueReq s e c scale u tst) := by
  unfold issueReq
  repeat' first | with_reducible assumption | with_reducible refine issueOut_partsOk _ _ _ _ _ _  ?_ | with_reducible refine readPhase_partsOk _ _ _ _  ?_ | with_reducible refine addReq_partsOk _ _ _ _ _ _  ?_ | with_reducible refine foldlParts _ (fun s a h => ?_) _ _ ?_ | simp only [id_eq] | split

theorem issueScan_partsOk (s : State) (e : ℕ) (tst : List TstEvent) (x1 : List ℕ) (hs : PartsOk s) :
    PartsOk (issueScan s e tst x1) := by
  fun_induction issueScan s e tst x1
  all_goals repeat' first | with_reducible assumption | with_reducible refine updEngine_partsOk _ _ _  ?_ | with_reducible refine issueReq_partsOk _ _ _ _ _ _  ?_ | with_reducible refine updCtx_partsOk _ _ _ _ _  ?_ | with_reducible refine foldlParts _ (fun s a h => ?_) _ _ ?_ | simp only [id_eq, addWait_keeps PartsOk (fun _ _ => rfl), objInc_keeps PartsOk (fun _ _ => rfl)] | split | (rename_i ih; with_reducible refine ih ?_) | simp +zetaDelta only [id_eq, addWait_keeps PartsOk (fun _ _ => rfl), objInc_keeps PartsOk (fun _ _ => rfl)]

theorem startStream_partsOk (s : State) (e : ℕ) (c : StreamCtx) (hs : PartsOk s) :
    PartsOk (startStream s e c) := by
  unfold startStream
  repeat' first | with_reducible assumption | with_reducible refine updCtx_partsOk _ _ _ _ _  ?_ | with_reducible refine dropCtx_partsOk _ _ _ _  ?_ | with_reducible refine rejectDesc_partsOk _ _ _ _  ?_ | with_reducible refine foldlParts _ (fun s a h => ?_) _ _ ?_ | simp only [id_eq, requestClaim_keeps PartsOk (fun _ _ => rfl)] | split

theorem streamStartAt_partsOk (s : State) (e : ℕ) (hs : PartsOk s) :
    PartsOk (streamStartAt s e) := by
  unfold streamStartAt
  repeat' first | with_reducible assumption | with_reducible refine startStream_partsOk _ _ _  ?_ | with_reducible refine foldlParts _ (fun s a h => ?_) _ _ ?_ | simp only [id_eq] | split

theorem grantIn_partsOk (s : State) (slice : ℕ) (hs : PartsOk s) :
    PartsOk (grantIn s slice) := by
  have h0 : ∀ s x0 x1, PartsOk { s with claims := x0, waitClaims := x1 } = PartsOk s := fun s x0 x1 => rfl
  unfold grantIn
  repeat' first | with_reducible assumption | with_reducible refine updCtx_partsOk _ _ _ _ _  ?_ | with_reducible refine foldlParts _ (fun s a h => ?_) _ _ ?_ | simp only [id_eq, h0] | split

theorem streamDoneAt_partsOk (s : State) (e : ℕ) (seq : ℕ) (id : ℕ) (o : FarOutcome) (hs : PartsOk s) :
    PartsOk (streamDoneAt s e seq id o) := by
  unfold streamDoneAt
  repeat' first | with_reducible assumption | with_reducible refine finishReq_partsOk _ _ _ _ _  ?_ | with_reducible refine linesFound_partsOk _ _ _  ?_ | with_reducible refine dimStall_partsOk _ _ _  ?_ | with_reducible refine foldlParts _ (fun s a h => ?_) _ _ ?_ | simp only [id_eq, backInvalidate_keeps PartsOk (fun _ _ => rfl), forgetBad_keeps PartsOk (fun _ _ => rfl)] | split

theorem unreadable_partsOk (s : State) (q : ℕ) (seq : ℕ) (inLayer : Bool) (hs : PartsOk s) :
    PartsOk (unreadable s q seq inLayer) := by
  unfold unreadable
  repeat' first | with_reducible assumption | with_reducible refine writeSpare_partsOk _ _ _  ?_ | with_reducible refine layerHook_partsOk _ _ _  ?_ | with_reducible refine foldlParts _ (fun s a h => ?_) _ _ ?_ | simp only [id_eq, trapQueue_keeps PartsOk (fun _ _ => rfl)] | split

theorem handTo_partsOk (s : State) (h : Half) (d : Issued) (hs : PartsOk s) :
    PartsOk (handTo s h d) := by
  have h0 : ∀ s x0, PartsOk { s with moverRR := x0 } = PartsOk s := fun s x0 => rfl
  unfold handTo
  repeat' first | with_reducible assumption | with_reducible refine updEngine_partsOk _ _ _  ?_ | with_reducible refine foldlParts _ (fun s a h => ?_) _ _ ?_ | simp only [id_eq, h0] | split | exact partsOk_of ‹PartsOk _› (by simp [lens, modifyAt])

theorem issueTo_partsOk (s : State) (h : Half) (q : ℕ) (halves : ℕ) (f : Fetched) (hs : PartsOk s) :
    PartsOk (issueTo s h q halves f) := by
  unfold issueTo
  repeat' first | with_reducible assumption | with_reducible refine handTo_partsOk _ _ _  ?_ | with_reducible refine rejectDesc_partsOk _ _ _ _  ?_ | with_reducible refine foldlParts _ (fun s a h => ?_) _ _ ?_ | simp only [id_eq, markIssued_keeps PartsOk (fun _ _ => rfl), updQ_keeps PartsOk (fun _ _ => rfl)] | split

theorem issueFrom_partsOk (s : State) (h : Half) (q : ℕ) (halves : ℕ) (x1 : List Fetched) (hs : PartsOk s) :
    PartsOk (issueFrom s h q halves x1).1 := by
  fun_induction issueFrom s h q halves x1
  all_goals repeat' first | with_reducible assumption | with_reducible refine issueTo_partsOk _ _ _ _ _  ?_ | with_reducible refine foldlParts _ (fun s a h => ?_) _ _ ?_ | simp only [id_eq, noteWait_keeps PartsOk (fun _ _ => rfl), noteStall_keeps PartsOk (fun _ _ => rfl)] | split | (rename_i ih; with_reducible refine ih ?_) | simp +zetaDelta only [id_eq, noteWait_keeps PartsOk (fun _ _ => rfl), noteStall_keeps PartsOk (fun _ _ => rfl)]

theorem issueAny_partsOk (s : State) (h : Half) (x1 : List ℕ) (hs : PartsOk s) :
    PartsOk (issueAny s h x1) := by
  have h0 : ∀ s x0, PartsOk { s with schedRR := x0 } = PartsOk s := fun s x0 => rfl
  fun_induction issueAny s h x1
  all_goals repeat' first | with_reducible assumption | with_reducible refine issueFrom_partsOk _ _ _ _ _  ?_ | with_reducible refine foldlParts _ (fun s a h => ?_) _ _ ?_ | (have e := congrArg Prod.fst ‹issueFrom _ _ _ _ _ = _›; dsimp only at e; rw [← e]; refine issueFrom_partsOk _ _ _ _ _ ?_) | simp only [id_eq, h0] | split | (rename_i ih; with_reducible refine ih ?_) | simp +zetaDelta only [id_eq, h0]

theorem mbxRun_partsOk (s : State) (cmd : ℕ) (f : State → State)
    (h_f : ∀ s, PartsOk s → PartsOk ((f s))) (hs : PartsOk s) :
    PartsOk (mbxRun s cmd f) := by
  unfold mbxRun
  repeat' first | with_reducible assumption | with_reducible refine h_f _ ?_ | with_reducible refine foldlParts _ (fun s a h => ?_) _ _ ?_ | simp only [id_eq, mbxEnd_keeps PartsOk (fun _ _ => rfl)] | split

theorem askHost_partsOk (s : State) (op : ℕ) (key : ℕ) (payload : Bytes) (run : State → Role → Answer) (sup : Bool)
    (h_run : ∀ s a0, PartsOk s → PartsOk ((run s a0).st)) (hs : PartsOk s) :
    PartsOk (askHost s op key payload run sup) := by
  unfold askHost
  repeat' first | with_reducible assumption | with_reducible refine gate_partsOk _ _ _ _ ?_ ?_ | with_reducible refine h_run _ _ ?_ | with_reducible refine foldlParts _ (fun s a h => ?_) _ _ ?_ | simp only [id_eq, mbxEnd_keeps PartsOk (fun _ _ => rfl), hostReply_keeps PartsOk (fun _ _ => rfl)] | split

theorem inSession_partsOk (s : State) (x : Session) (ip : ℕ) (port : ℕ) (seq : ℕ) (op : ℕ) (run : State → Answer)
    (h_run : ∀ s, PartsOk s → PartsOk ((run s).st)) (hs : PartsOk s) :
    PartsOk (inSession s x ip port seq op run) := by
  unfold inSession
  repeat' first | with_reducible assumption | with_reducible refine h_run _ ?_ | with_reducible refine foldlParts _ (fun s a h => ?_) _ _ ?_ | simp only [id_eq, objInc_keeps PartsOk (fun _ _ => rfl), emit_keeps PartsOk (fun _ _ => rfl), updSession_keeps PartsOk (fun _ _ => rfl)] | split

theorem askMgmt_partsOk (s : State) (ip : ℕ) (port : ℕ) (session : ℕ) (seq : ℕ) (op : ℕ) (key : ℕ) (payload : Bytes) (run : State → Role → Answer) (sup : Bool)
    (h_run : ∀ s a0, PartsOk s → PartsOk ((run s a0).st)) (hs : PartsOk s) :
    PartsOk (askMgmt s ip port session seq op key payload run sup) := by
  unfold askMgmt
  repeat' first | with_reducible assumption | with_reducible refine inSession_partsOk _ _ _ _ _ _ _ (fun _ h => ?_) ?_ | with_reducible refine gate_partsOk _ _ _ _ ?_ ?_ | with_reducible refine h_run _ _ ?_ | with_reducible refine foldlParts _ (fun s a h => ?_) _ _ ?_ | simp only [id_eq, emit_keeps PartsOk (fun _ _ => rfl), takeMsg_keeps PartsOk (fun _ _ => rfl)] | split

theorem askMon_partsOk (s : State) (write : Bool) (key : ℕ) (run : State → Role → Answer) (sup : Bool)
    (h_run : ∀ s a0, PartsOk s → PartsOk ((run s a0).st)) (hs : PartsOk s) :
    PartsOk (askMon s write key run sup) := by
  unfold askMon
  repeat' first | with_reducible assumption | with_reducible refine gate_partsOk _ _ _ _ ?_ ?_ | with_reducible refine h_run _ _ ?_ | with_reducible refine foldlParts _ (fun s a h => ?_) _ _ ?_ | simp only [id_eq, objInc_keeps PartsOk (fun _ _ => rfl), emit_keeps PartsOk (fun _ _ => rfl), monReply_keeps PartsOk (fun _ _ => rfl)] | split

theorem ask_partsOk (s : State) (r : Route) (sup : Bool) (op : ℕ) (key : ℕ) (payload : Bytes) (run : State → Role → Answer)
    (h_run : ∀ s a0, PartsOk s → PartsOk ((run s a0).st)) (hs : PartsOk s) :
    PartsOk (ask s r sup op key payload run) := by
  unfold ask
  repeat' first | with_reducible assumption | with_reducible refine askMgmt_partsOk _ _ _ _ _ _ _ _ _ _ (fun _ _ h => ?_) ?_ | with_reducible refine askHost_partsOk _ _ _ _ _ _ (fun _ _ h => ?_) ?_ | with_reducible refine askMon_partsOk _ _ _ _ _ (fun _ _ h => ?_) ?_ | with_reducible refine h_run _ _ ?_ | with_reducible refine foldlParts _ (fun s a h => ?_) _ _ ?_ | simp only [id_eq] | split

theorem writeNum_partsOk (s : State) (r : Route) (role : Role) (key : ℕ) (v : Bytes) (own : State → ℕ → ℕ) (effect : State → ℕ → State)
    (h_effect : ∀ s a0, PartsOk s → PartsOk ((effect s a0))) (hs : PartsOk s) :
    PartsOk (writeNum s r role key v own effect).st := by
  unfold writeNum
  repeat' first | with_reducible assumption | with_reducible refine h_effect _ _ ?_ | with_reducible refine foldlParts _ (fun s a h => ?_) _ _ ?_ | simp only [id_eq, applyNum_keeps PartsOk (fun _ _ => rfl)] | split

theorem writeRow_partsOk (s : State) (r : Route) (key : ℕ) (v : Bytes) (sup : Bool) (own : State → ℕ → ℕ) (effect : State → ℕ → State)
    (h_effect : ∀ s a0, PartsOk s → PartsOk ((effect s a0))) (hs : PartsOk s) :
    PartsOk (writeRow s r key v sup own effect) := by
  unfold writeRow
  repeat' first | with_reducible assumption | with_reducible refine writeNum_partsOk _ _ _ _ _ _ _ (fun _ _ h => ?_) ?_ | with_reducible refine ask_partsOk _ _ _ _ _ _ _ (fun _ _ h => ?_) ?_ | with_reducible refine h_effect _ _ ?_ | with_reducible refine foldlParts _ (fun s a h => ?_) _ _ ?_ | simp only [id_eq] | split

theorem fuseWrite_partsOk (s : State) (r : Route) (role : Role) (key : ℕ) (left : ℕ) (n : ℕ) (last : Bool) (burnt : Bool) (effect : State → State)
    (h_effect : ∀ s, PartsOk s → PartsOk ((effect s))) (hs : PartsOk s) :
    PartsOk (fuseWrite s r role key left n last burnt effect).st := by
  unfold fuseWrite
  repeat' first | with_reducible assumption | with_reducible refine h_effect _ ?_ | with_reducible refine foldlParts _ (fun s a h => ?_) _ _ ?_ | simp only [id_eq, objInc_keeps PartsOk (fun _ _ => rfl), journalWrite_keeps PartsOk (fun _ _ => rfl), objPut_keeps PartsOk (fun _ _ => rfl)] | split

theorem fuseRow_partsOk (s : State) (r : Route) (key : ℕ) (left : ℕ) (v : Bytes) (burnt : Bool) (own : State → ℕ → ℕ) (effect : State → State)
    (h_effect : ∀ s, PartsOk s → PartsOk ((effect s))) (hs : PartsOk s) :
    PartsOk (fuseRow s r key left v burnt own effect) := by
  unfold fuseRow
  repeat' first | with_reducible assumption | with_reducible refine fuseWrite_partsOk _ _ _ _ _ _ _ _ _ (fun _ h => ?_) ?_ | with_reducible refine ask_partsOk _ _ _ _ _ _ _ (fun _ _ h => ?_) ?_ | with_reducible refine h_effect _ ?_ | with_reducible refine foldlParts _ (fun s a h => ?_) _ _ ?_ | simp only [id_eq] | split

theorem commitDom_partsOk (s : State) (r : Route) (role : Role) (x : Xfer) (digest : Bytes) (check : ℕ → Bool) (own : State → Bytes → ℕ) (effect : State → Bytes → State) (refused : (State → State))
    (h_effect : ∀ s a0, PartsOk s → PartsOk ((effect s a0))) (h_refused : ∀ s, PartsOk s → PartsOk ((refused s))) (hs : PartsOk s) :
    PartsOk (commitDom s r role x digest check own effect refused).st := by
  unfold commitDom
  repeat' first | with_reducible assumption | with_reducible refine h_effect _ _ ?_ | with_reducible refine h_refused _ ?_ | with_reducible refine foldlParts _ (fun s a h => ?_) _ _ ?_ | simp only [id_eq, applyDom_keeps PartsOk (fun _ _ => rfl), dropXfer_keeps PartsOk (fun _ _ => rfl)] | split

theorem commitRow_partsOk (s : State) (r : Route) (key : ℕ) (handle : ℕ) (digest : Bytes) (sup : Bool) (check : ℕ → Bool) (own : State → Bytes → ℕ) (effect : State → Bytes → State) (refused : (State → State))
    (h_effect : ∀ s a0, PartsOk s → PartsOk ((effect s a0))) (h_refused : ∀ s, PartsOk s → PartsOk ((refused s))) (hs : PartsOk s) :
    PartsOk (commitRow s r key handle digest sup check own effect refused) := by
  unfold commitRow
  repeat' first | with_reducible assumption | with_reducible refine commitDom_partsOk _ _ _ _ _ _ _ _ _ (fun _ _ h => ?_) (fun _ h => ?_) ?_ | with_reducible refine ask_partsOk _ _ _ _ _ _ _ (fun _ _ h => ?_) ?_ | with_reducible refine h_effect _ _ ?_ | with_reducible refine h_refused _ ?_ | with_reducible refine foldlParts _ (fun s a h => ?_) _ _ ?_ | simp only [id_eq] | split

theorem updRing_partsOk (s : State) (r : ℕ) (f : Ring → Ring) (hs : PartsOk s) :
    PartsOk (updRing s r f) := by
  unfold updRing
  repeat' first | with_reducible assumption | with_reducible refine foldlParts _ (fun s a h => ?_) _ _ ?_ | simp only [id_eq] | split | exact partsOk_of ‹PartsOk _› (by simp [lens, modifyAt])

theorem updRotor_partsOk (s : State) (x : ℕ) (f : Rotor → Rotor) (hs : PartsOk s) :
    PartsOk (updRotor s x f) := by
  unfold updRotor
  repeat' first | with_reducible assumption | with_reducible refine foldlParts _ (fun s a h => ?_) _ _ ?_ | simp only [id_eq] | split | exact partsOk_of ‹PartsOk _› (by simp [lens, modifyAt])

theorem updLaser_partsOk (s : State) (k : ℕ) (f : Laser → Laser) (hs : PartsOk s) :
    PartsOk (updLaser s k f) := by
  unfold updLaser
  repeat' first | with_reducible assumption | with_reducible refine foldlParts _ (fun s a h => ?_) _ _ ?_ | simp only [id_eq] | split | exact partsOk_of ‹PartsOk _› (by simp [lens, modifyAt])

theorem moveRef_partsOk (s : State) (k : ℕ) (hs : PartsOk s) :
    PartsOk (moveRef s k) := by
  unfold moveRef
  repeat' first | with_reducible assumption | with_reducible refine updLaser_partsOk _ _ _  ?_ | with_reducible refine foldlParts _ (fun s a h => ?_) _ _ ?_ | simp only [id_eq, journal_keeps PartsOk (fun _ _ => rfl)] | split

theorem unlockRing_partsOk (s : State) (r : ℕ) (f : Ring → Ring) (hs : PartsOk s) :
    PartsOk (unlockRing s r f) := by
  unfold unlockRing
  repeat' first | with_reducible assumption | with_reducible refine moveRef_partsOk _ _  ?_ | with_reducible refine updRing_partsOk _ _ _  ?_ | with_reducible refine foldlParts _ (fun s a h => ?_) _ _ ?_ | simp only [id_eq] | split

theorem parkRing_partsOk (s : State) (r : ℕ) (hs : PartsOk s) :
    PartsOk (parkRing s r) := by
  unfold parkRing
  repeat' first | with_reducible assumption | with_reducible refine unlockRing_partsOk _ _ _  ?_ | with_reducible refine foldlParts _ (fun s a h => ?_) _ _ ?_ | simp only [id_eq] | split

theorem updLink_partsOk (s : State) (k : ℕ) (f : Link → Link) (hs : PartsOk s) :
    PartsOk (updLink s k f) := by
  unfold updLink
  repeat' first | with_reducible assumption | with_reducible refine foldlParts _ (fun s a h => ?_) _ _ ?_ | simp only [id_eq] | split | exact partsOk_of ‹PartsOk _› (by simp [lens, modifyAt])

theorem updSpec_partsOk (s : State) (x : ℕ) (j : ℕ) (f : MapEntry → MapEntry) (hs : PartsOk s) :
    PartsOk (updSpec s x j f) := by
  unfold updSpec
  repeat' first | with_reducible assumption | with_reducible refine foldlParts _ (fun s a h => ?_) _ _ ?_ | simp only [id_eq] | split | exact partsOk_of ‹PartsOk _› (by simp [lens, modifyAt])

theorem updLane_partsOk (s : State) (k : ℕ) (outgoing : Bool) (idx : ℕ) (f : Lane → Lane) (hs : PartsOk s) :
    PartsOk (updLane s k outgoing idx f) := by
  unfold updLane
  repeat' first | with_reducible assumption | with_reducible refine updLink_partsOk _ _ _  ?_ | with_reducible refine foldlParts _ (fun s a h => ?_) _ _ ?_ | simp only [id_eq] | split

theorem oweCredit_partsOk (s : State) (k : ℕ) (p : Packet) (hs : PartsOk s) :
    PartsOk (oweCredit s k p) := by
  unfold oweCredit
  repeat' first | with_reducible assumption | with_reducible refine updLink_partsOk _ _ _  ?_ | with_reducible refine foldlParts _ (fun s a h => ?_) _ _ ?_ | simp only [id_eq] | split

theorem sendFlit_partsOk (s : State) (k : ℕ) (b : FlitBody) (hs : PartsOk s) :
    PartsOk (sendFlit s k b) := by
  unfold sendFlit
  repeat' first | with_reducible assumption | with_reducible refine updLink_partsOk _ _ _  ?_ | with_reducible refine foldlParts _ (fun s a h => ?_) _ _ ?_ | simp only [id_eq] | split

theorem sendCtl_partsOk (s : State) (k : ℕ) (c : Ctl) (hs : PartsOk s) :
    PartsOk (sendCtl s k c) := by
  unfold sendCtl
  repeat' first | with_reducible assumption | with_reducible refine updLink_partsOk _ _ _  ?_ | with_reducible refine sendFlit_partsOk _ _ _  ?_ | with_reducible refine foldlParts _ (fun s a h => ?_) _ _ ?_ | simp only [id_eq, objInc_keeps PartsOk (fun _ _ => rfl)] | split

theorem drainCtl_partsOk (s : State) (k : ℕ) (x1 : ℕ) (hs : PartsOk s) :
    PartsOk (drainCtl s k x1) := by
  fun_induction drainCtl s k x1
  all_goals repeat' first | with_reducible assumption | with_reducible refine updLink_partsOk _ _ _  ?_ | with_reducible refine sendFlit_partsOk _ _ _  ?_ | with_reducible refine foldlParts _ (fun s a h => ?_) _ _ ?_ | simp only [id_eq] | split | (rename_i ih; with_reducible refine ih ?_) | simp +zetaDelta only [id_eq]

theorem slotFlit_partsOk (s : State) (k : ℕ) (a : Lane) (lines : List ℕ) (switch : Bool) (phase : Bool) (hs : PartsOk s) :
    PartsOk (slotFlit s k a lines switch phase) := by
  unfold slotFlit
  repeat' first | with_reducible assumption | with_reducible refine updLink_partsOk _ _ _  ?_ | with_reducible refine foldlParts _ (fun s a h => ?_) _ _ ?_ | simp only [id_eq, emit_keeps PartsOk (fun _ _ => rfl)] | split

theorem slotLink_partsOk (s : State) (k : ℕ) (hs : PartsOk s) :
    PartsOk (slotLink s k) := by
  unfold slotLink
  repeat' first | with_reducible assumption | with_reducible refine slotFlit_partsOk _ _ _ _ _ _  ?_ | with_reducible refine foldlParts _ (fun s a h => ?_) _ _ ?_ | simp only [id_eq] | split

theorem flitSlots_partsOk (s : State) (hs : PartsOk s) :
    PartsOk (flitSlots s) := by
  unfold flitSlots
  repeat' first | with_reducible assumption | with_reducible refine slotLink_partsOk _ _  ?_ | with_reducible refine foldlParts _ (fun s a h => ?_) _ _ ?_ | simp only [id_eq] | split

theorem handBack_partsOk (s : State) (k : ℕ) (grey : Bool) (hs : PartsOk s) :
    PartsOk (handBack s k grey) := by
  unfold handBack
  repeat' first | with_reducible assumption | with_reducible refine updLink_partsOk _ _ _  ?_ | with_reducible refine foldlParts _ (fun s a h => ?_) _ _ ?_ | simp only [id_eq, reinject_keeps PartsOk (fun _ _ => rfl), objAdd_keeps PartsOk (fun _ _ => rfl)] | split

theorem goDark_partsOk (s : State) (k : ℕ) (cause : ℕ) (hs : PartsOk s) :
    PartsOk (goDark s k cause) := by
  unfold goDark
  repeat' first | with_reducible assumption | with_reducible refine updLink_partsOk _ _ _  ?_ | with_reducible refine handBack_partsOk _ _ _  ?_ | with_reducible refine foldlParts _ (fun s a h => ?_) _ _ ?_ | simp only [id_eq, journal_keeps PartsOk (fun _ _ => rfl), objInc_keeps PartsOk (fun _ _ => rfl), objPut_keeps PartsOk (fun _ _ => rfl)] | split

theorem goGrey_partsOk (s : State) (k : ℕ) (hs : PartsOk s) :
    PartsOk (goGrey s k) := by
  unfold goGrey
  repeat' first | with_reducible assumption | with_reducible refine handBack_partsOk _ _ _  ?_ | with_reducible refine foldlParts _ (fun s a h => ?_) _ _ ?_ | simp only [id_eq, journal_keeps PartsOk (fun _ _ => rfl), objPut_keeps PartsOk (fun _ _ => rfl)] | split

theorem tellCause_partsOk (s : State) (k : ℕ) (hs : PartsOk s) :
    PartsOk (tellCause s k) := by
  unfold tellCause
  repeat' first | with_reducible assumption | with_reducible refine updLink_partsOk _ _ _  ?_ | with_reducible refine sendCtl_partsOk _ _ _  ?_ | with_reducible refine foldlParts _ (fun s a h => ?_) _ _ ?_ | simp only [id_eq] | split

theorem noteTimes_partsOk (s : State) (k : ℕ) (hs : PartsOk s) :
    PartsOk (noteTimes s k) := by
  unfold noteTimes
  repeat' first | with_reducible assumption | with_reducible refine updLink_partsOk _ _ _  ?_ | with_reducible refine foldlParts _ (fun s a h => ?_) _ _ ?_ | simp only [id_eq] | split

theorem settleLink_partsOk (s : State) (k : ℕ) (hs : PartsOk s) :
    PartsOk (settleLink s k) := by
  unfold settleLink
  repeat' first | with_reducible assumption | with_reducible refine tellCause_partsOk _ _  ?_ | with_reducible refine goGrey_partsOk _ _  ?_ | with_reducible refine goDark_partsOk _ _ _  ?_ | with_reducible refine noteTimes_partsOk _ _  ?_ | with_reducible refine foldlParts _ (fun s a h => ?_) _ _ ?_ | simp only [id_eq, objPut_keeps PartsOk (fun _ _ => rfl)] | split

theorem setCause_partsOk (s : State) (k : ℕ) (cause : ℕ) (on : Bool) (hs : PartsOk s) :
    PartsOk (setCause s k cause on) := by
  unfold setCause
  repeat' first | with_reducible assumption | with_reducible refine updLink_partsOk _ _ _  ?_ | with_reducible refine settleLink_partsOk _ _  ?_ | with_reducible refine foldlParts _ (fun s a h => ?_) _ _ ?_ | simp only [id_eq] | split

theorem greyAll_partsOk (s : State) (cause : ℕ) (hs : PartsOk s) :
    PartsOk (greyAll s cause) := by
  unfold greyAll
  repeat' first | with_reducible assumption | with_reducible refine setCause_partsOk _ _ _ _  ?_ | with_reducible refine foldlParts _ (fun s a h => ?_) _ _ ?_ | simp only [id_eq] | split

theorem checkMap_partsOk (s : State) (hs : PartsOk s) :
    PartsOk (checkMap s) := by
  unfold checkMap
  repeat' first | with_reducible assumption | with_reducible refine setCause_partsOk _ _ _ _  ?_ | with_reducible refine foldlParts _ (fun s a h => ?_) _ _ ?_ | simp only [id_eq] | split

theorem startNego_partsOk (s : State) (k : ℕ) (hs : PartsOk s) :
    PartsOk (startNego s k) := by
  unfold startNego
  repeat' first | with_reducible assumption | with_reducible refine updLink_partsOk _ _ _  ?_ | with_reducible refine sendCtl_partsOk _ _ _  ?_ | with_reducible refine settleLink_partsOk _ _  ?_ | with_reducible refine foldlParts _ (fun s a h => ?_) _ _ ?_ | simp only [id_eq, forgetHeld_keeps PartsOk (fun _ _ => rfl)] | split

theorem bindLink_partsOk (s : State) (c : ℕ) (version : ℕ) (hs : PartsOk s) :
    PartsOk (bindLink s c version).1 := by
  have h0 : ∀ s x0, PartsOk { s with strayIn := x0 } = PartsOk s := fun s x0 => rfl
  unfold bindLink
  repeat' first | with_reducible assumption | with_reducible refine updLink_partsOk _ _ _  ?_ | with_reducible refine foldlParts _ (fun s a h => ?_) _ _ ?_ | simp only [id_eq, h0] | split

theorem tellJoin_partsOk (s : State) (k : ℕ) (idx : ℕ) (hs : PartsOk s) :
    PartsOk (tellJoin s k idx) := by
  unfold tellJoin
  repeat' first | with_reducible assumption | with_reducible refine updLane_partsOk _ _ _ _ _  ?_ | with_reducible refine sendCtl_partsOk _ _ _  ?_ | with_reducible refine foldlParts _ (fun s a h => ?_) _ _ ?_ | simp only [id_eq] | split

theorem tellJoins_partsOk (s : State) (k : ℕ) (hs : PartsOk s) :
    PartsOk (tellJoins s k) := by
  unfold tellJoins
  repeat' first | with_reducible assumption | with_reducible refine tellJoin_partsOk _ _ _  ?_ | with_reducible refine foldlParts _ (fun s a h => ?_) _ _ ?_ | simp only [id_eq] | split

theorem joinLane_partsOk (s : State) (k : ℕ) (outgoing : Bool) (lane : Lane) (hs : PartsOk s) :
    PartsOk (joinLane s k outgoing lane) := by
  unfold joinLane
  repeat' first | with_reducible assumption | with_reducible refine updLink_partsOk _ _ _  ?_ | with_reducible refine updSpec_partsOk _ _ _ _  ?_ | with_reducible refine tellJoin_partsOk _ _ _  ?_ | with_reducible refine settleLink_partsOk _ _  ?_ | with_reducible refine startNego_partsOk _ _  ?_ | with_reducible refine foldlParts _ (fun s a h => ?_) _ _ ?_ | simp only [id_eq] | split

theorem returnLane_partsOk (s : State) (k : ℕ) (outgoing : Bool) (lane : Lane) (hs : PartsOk s) :
    PartsOk (returnLane s k outgoing lane) := by
  unfold returnLane
  repeat' first | with_reducible assumption | with_reducible refine updSpec_partsOk _ _ _ _  ?_ | with_reducible refine updLane_partsOk _ _ _ _ _  ?_ | with_reducible refine tellJoin_partsOk _ _ _  ?_ | with_reducible refine settleLink_partsOk _ _  ?_ | with_reducible refine foldlParts _ (fun s a h => ?_) _ _ ?_ | simp only [id_eq] | split

theorem laneOut_partsOk (s : State) (k : ℕ) (outgoing : Bool) (lane : Lane) (why : ℕ) (tell : Bool) (hs : PartsOk s) :
    PartsOk (laneOut s k outgoing lane why tell) := by
  unfold laneOut
  repeat' first | with_reducible assumption | with_reducible refine updSpec_partsOk _ _ _ _  ?_ | with_reducible refine updLane_partsOk _ _ _ _ _  ?_ | with_reducible refine sendCtl_partsOk _ _ _  ?_ | with_reducible refine settleLink_partsOk _ _  ?_ | with_reducible refine foldlParts _ (fun s a h => ?_) _ _ ?_ | simp only [id_eq] | split

theorem removeLink_partsOk (s : State) (k : ℕ) (hs : PartsOk s) :
    PartsOk (removeLink s k) := by
  unfold removeLink
  repeat' first | with_reducible assumption | with_reducible refine updLink_partsOk _ _ _  ?_ | with_reducible refine updSpec_partsOk _ _ _ _  ?_ | with_reducible refine parkRing_partsOk _ _  ?_ | with_reducible refine foldlParts _ (fun s a h => ?_) _ _ ?_ | simp only [id_eq, objPut_keeps PartsOk (fun _ _ => rfl)] | split

theorem darkenLine_partsOk (s : State) (x : ℕ) (j : ℕ) (hs : PartsOk s) :
    PartsOk (darkenLine s x j) := by
  unfold darkenLine
  repeat' first | with_reducible assumption | with_reducible refine updLink_partsOk _ _ _  ?_ | with_reducible refine updSpec_partsOk _ _ _ _  ?_ | with_reducible refine handBack_partsOk _ _ _  ?_ | with_reducible refine parkRing_partsOk _ _  ?_ | with_reducible refine sendCtl_partsOk _ _ _  ?_ | with_reducible refine settleLink_partsOk _ _  ?_ | with_reducible refine removeLink_partsOk _ _  ?_ | with_reducible refine foldlParts _ (fun s a h => ?_) _ _ ?_ | simp only [id_eq] | split

theorem markLink_partsOk (e : ℕ) (reach : ℕ) (s : State) (k : ℕ) (hs : PartsOk s) :
    PartsOk (markLink e reach s k) := by
  unfold markLink
  repeat' first | with_reducible assumption | with_reducible refine updLink_partsOk _ _ _  ?_ | with_reducible refine sendCtl_partsOk _ _ _  ?_ | with_reducible refine foldlParts _ (fun s a h => ?_) _ _ ?_ | simp only [id_eq] | split

theorem startSnap_partsOk (s : State) (e : ℕ) (reach : ℕ) (origin : ℕ) (hs : PartsOk s) :
    PartsOk (startSnap s e reach origin) := by
  have h0 : ∀ s x0 x1, PartsOk { s with free := x0, obs := x1 } = PartsOk s := fun s x0 x1 => rfl
  unfold startSnap
  repeat' first | with_reducible assumption | with_reducible refine markLink_partsOk _ _ _ _  ?_ | with_reducible refine foldlParts _ (fun s a h => ?_) _ _ ?_ | simp only [id_eq, objPut_keeps PartsOk (fun _ _ => rfl), updBank_keeps PartsOk (fun _ _ => rfl), h0] | split | exact partsOk_of ‹PartsOk _› (by simp [lens, modifyAt])

theorem joinSnap_partsOk (s : State) (e : ℕ) (reach : ℕ) (hs : PartsOk s) :
    PartsOk (joinSnap s e reach) := by
  unfold joinSnap
  repeat' first | with_reducible assumption | with_reducible refine startSnap_partsOk _ _ _ _  ?_ | with_reducible refine foldlParts _ (fun s a h => ?_) _ _ ?_ | simp only [id_eq, freeStep_keeps PartsOk (fun _ _ => rfl)] | split

theorem endRecord_partsOk (s : State) (k : ℕ) (hs : PartsOk s) :
    PartsOk (endRecord s k) := by
  unfold endRecord
  repeat' first | with_reducible assumption | with_reducible refine updLink_partsOk _ _ _  ?_ | with_reducible refine foldlParts _ (fun s a h => ?_) _ _ ?_ | simp only [id_eq, updBank_keeps PartsOk (fun _ _ => rfl)] | split | exact partsOk_of ‹PartsOk _› (by simp [lens, modifyAt])

theorem takeMarker_partsOk (s : State) (k : ℕ) (e : ℕ) (reach : ℕ) (hs : PartsOk s) :
    PartsOk (takeMarker s k e reach) := by
  have h0 : ∀ s x0, PartsOk { s with obs := x0 } = PartsOk s := fun s x0 => rfl
  unfold takeMarker
  repeat' first | with_reducible assumption | with_reducible refine joinSnap_partsOk _ _ _  ?_ | with_reducible refine endRecord_partsOk _ _  ?_ | with_reducible refine foldlParts _ (fun s a h => ?_) _ _ ?_ | simp only [id_eq, h0] | split

theorem closeRecords_partsOk (s : State) (e : ℕ) (hs : PartsOk s) :
    PartsOk (closeRecords s e) := by
  unfold closeRecords
  repeat' first | with_reducible assumption | with_reducible refine endRecord_partsOk _ _  ?_ | with_reducible refine foldlParts _ (fun s a h => ?_) _ _ ?_ | simp only [id_eq] | split

theorem startHeld_partsOk (s : State) (hs : PartsOk s) :
    PartsOk (startHeld s) := by
  have h0 : ∀ s x0, PartsOk { s with obs := x0 } = PartsOk s := fun s x0 => rfl
  unfold startHeld
  repeat' first | with_reducible assumption | with_reducible refine joinSnap_partsOk _ _ _  ?_ | with_reducible refine endRecord_partsOk _ _  ?_ | with_reducible refine foldlParts _ (fun s a h => ?_) _ _ ?_ | simp only [id_eq, updBank_keeps PartsOk (fun _ _ => rfl), h0] | split

theorem closeSnap_partsOk (s : State) (hs : PartsOk s) :
    PartsOk (closeSnap s) := by
  have h0 : ∀ s x0, PartsOk { s with obs := x0 } = PartsOk s := fun s x0 => rfl
  unfold closeSnap
  repeat' first | with_reducible assumption | with_reducible refine startHeld_partsOk _  ?_ | with_reducible refine closeRecords_partsOk _ _  ?_ | with_reducible refine foldlParts _ (fun s a h => ?_) _ _ ?_ | simp only [id_eq, objInc_keeps PartsOk (fun _ _ => rfl), objPut_keeps PartsOk (fun _ _ => rfl), updBank_keeps PartsOk (fun _ _ => rfl), h0] | split

theorem dropSnaps_partsOk (s : State) (hs : PartsOk s) :
    PartsOk (dropSnaps s) := by
  have h0 : ∀ s x0, PartsOk { s with obs := x0 } = PartsOk s := fun s x0 => rfl
  unfold dropSnaps
  repeat' first | with_reducible assumption | with_reducible refine foldlParts _ (fun s a h => ?_) _ _ ?_ | simp only [id_eq, objPut_keeps PartsOk (fun _ _ => rfl), h0] | split | exact partsOk_of ‹PartsOk _› (by simp [lens, modifyAt])

theorem abortRotor_partsOk (s : State) (x : ℕ) (hs : PartsOk s) :
    PartsOk (abortRotor s x) := by
  unfold abortRotor
  repeat' first | with_reducible assumption | with_reducible refine updRotor_partsOk _ _ _  ?_ | with_reducible refine foldlParts _ (fun s a h => ?_) _ _ ?_ | simp only [id_eq, journal_keeps PartsOk (fun _ _ => rfl), objInc_keeps PartsOk (fun _ _ => rfl)] | split

theorem abortTold_partsOk (s : State) (x : ℕ) (hs : PartsOk s) :
    PartsOk (abortTold s x) := by
  unfold abortTold
  repeat' first | with_reducible assumption | with_reducible refine sendCtl_partsOk _ _ _  ?_ | with_reducible refine abortRotor_partsOk _ _  ?_ | with_reducible refine foldlParts _ (fun s a h => ?_) _ _ ?_ | simp only [id_eq] | split

theorem startRecovery_partsOk (s : State) (ring : ℕ) (k : ℕ) (outgoing : Bool) (lane : ℕ) (full : Bool) (hs : PartsOk s) :
    PartsOk (startRecovery s ring k outgoing lane full) := by
  have h0 : ∀ s x0, PartsOk { s with recovery := x0 } = PartsOk s := fun s x0 => rfl
  unfold startRecovery
  repeat' first | with_reducible assumption | with_reducible refine unlockRing_partsOk _ _ _  ?_ | with_reducible refine foldlParts _ (fun s a h => ?_) _ _ ?_ | simp only [id_eq, h0] | split

theorem dropLane_partsOk (s : State) (k : ℕ) (outgoing : Bool) (lane : Lane) (hs : PartsOk s) :
    PartsOk (dropLane s k outgoing lane) := by
  have h0 : ∀ s x0 x1, PartsOk { s with recovery := x0, inGrant := x1 } = PartsOk s := fun s x0 x1 => rfl
  unfold dropLane
  repeat' first | with_reducible assumption | with_reducible refine updLink_partsOk _ _ _  ?_ | with_reducible refine updSpec_partsOk _ _ _ _  ?_ | with_reducible refine handBack_partsOk _ _ _  ?_ | with_reducible refine settleLink_partsOk _ _  ?_ | with_reducible refine removeLink_partsOk _ _  ?_ | with_reducible refine foldlParts _ (fun s a h => ?_) _ _ ?_ | simp only [id_eq, h0] | split

theorem retireRing_partsOk (s : State) (r : ℕ) (hs : PartsOk s) :
    PartsOk (retireRing s r) := by
  have h0 : ∀ s x0 x1 x2, PartsOk { s with reassign := x0, recovery := x1, inGrant := x2 } = PartsOk s := fun s x0 x1 x2 => rfl
  unfold retireRing
  repeat' first | with_reducible assumption | with_reducible refine unlockRing_partsOk _ _ _  ?_ | with_reducible refine dropLane_partsOk _ _ _ _  ?_ | with_reducible refine updSpec_partsOk _ _ _ _  ?_ | with_reducible refine foldlParts _ (fun s a h => ?_) _ _ ?_ | simp only [id_eq, journal_keeps PartsOk (fun _ _ => rfl), setRingRetired_keeps PartsOk (fun _ _ => rfl), journalAlert_keeps PartsOk (fun _ _ => rfl), h0] | split

theorem requestLine_partsOk (s : State) (x : ℕ) (j : ℕ) (hs : PartsOk s) :
    PartsOk (requestLine s x j) := by
  have h0 : ∀ s x0 x1, PartsOk { s with reassign := x0, backDue := x1 } = PartsOk s := fun s x0 x1 => rfl
  unfold requestLine
  repeat' first | with_reducible assumption | with_reducible refine updSpec_partsOk _ _ _ _  ?_ | with_reducible refine foldlParts _ (fun s a h => ?_) _ _ ?_ | simp only [id_eq, emit_keeps PartsOk (fun _ _ => rfl), h0] | split

theorem darkenSurplus_partsOk (s : State) (d : Demand) (hs : PartsOk s) :
    PartsOk (darkenSurplus s d) := by
  unfold darkenSurplus
  repeat' first | with_reducible assumption | with_reducible refine darkenLine_partsOk _ _ _  ?_ | with_reducible refine foldlParts _ (fun s a h => ?_) _ _ ?_ | simp only [id_eq] | split

theorem trimDemand_partsOk (s : State) (c : ℕ) (hs : PartsOk s) :
    PartsOk (trimDemand s c) := by
  unfold trimDemand
  repeat' first | with_reducible assumption | with_reducible refine darkenSurplus_partsOk _ _  ?_ | with_reducible refine foldlParts _ (fun s a h => ?_) _ _ ?_ | simp only [id_eq] | split

theorem lockRing_partsOk (s : State) (outgoing : Bool) (fibre : ℕ) (line : ℕ) (hs : PartsOk s) :
    PartsOk (lockRing s outgoing fibre line) := by
  have h0 : ∀ s x0, PartsOk { s with trainFails := x0 } = PartsOk s := fun s x0 => rfl
  unfold lockRing
  repeat' first | with_reducible assumption | with_reducible refine updRing_partsOk _ _ _  ?_ | with_reducible refine foldlParts _ (fun s a h => ?_) _ _ ?_ | simp only [id_eq, h0] | split

theorem admitOut_partsOk (s : State) (fibre : ℕ) (line : ℕ) (t : TrainResult) (hs : PartsOk s) :
    PartsOk (admitOut s fibre line t) := by
  have h0 : ∀ s x0, PartsOk { s with needDemand := x0 } = PartsOk s := fun s x0 => rfl
  unfold admitOut
  repeat' first | with_reducible assumption | with_reducible refine joinLane_partsOk _ _ _ _  ?_ | with_reducible refine trimDemand_partsOk _ _  ?_ | with_reducible refine bindLink_partsOk _ _ _  ?_ | with_reducible refine lockRing_partsOk _ _ _ _  ?_ | with_reducible refine foldlParts _ (fun s a h => ?_) _ _ ?_ | (have e := congrArg Prod.fst ‹bindLink _ _ _ = _›; dsimp only at e; rw [← e]; refine bindLink_partsOk _ _ _ ?_) | simp only [id_eq, objPut_keeps PartsOk (fun _ _ => rfl), h0] | split

theorem admitIn_partsOk (s : State) (fibre : ℕ) (line : ℕ) (t : TrainResult) (hs : PartsOk s) :
    PartsOk (admitIn s fibre line t) := by
  have h0 : ∀ s x0 x1, PartsOk { s with inGrant := x0, strayIn := x1 } = PartsOk s := fun s x0 x1 => rfl
  unfold admitIn
  repeat' first | with_reducible assumption | with_reducible refine updLink_partsOk _ _ _  ?_ | with_reducible refine joinLane_partsOk _ _ _ _  ?_ | with_reducible refine lockRing_partsOk _ _ _ _  ?_ | with_reducible refine foldlParts _ (fun s a h => ?_) _ _ ?_ | simp only [id_eq, objPut_keeps PartsOk (fun _ _ => rfl), h0] | split

theorem admitNew_partsOk (s : State) (outgoing : Bool) (fibre : ℕ) (line : ℕ) (t : TrainResult) (hs : PartsOk s) :
    PartsOk (admitNew s outgoing fibre line t) := by
  unfold admitNew
  repeat' first | with_reducible assumption | with_reducible refine admitIn_partsOk _ _ _ _  ?_ | with_reducible refine admitOut_partsOk _ _ _ _  ?_ | with_reducible refine foldlParts _ (fun s a h => ?_) _ _ ?_ | simp only [id_eq] | split

theorem refuseSkew_partsOk (s : State) (outgoing : Bool) (fibre : ℕ) (line : ℕ) (hs : PartsOk s) :
    PartsOk (refuseSkew s outgoing fibre line) := by
  have h0 : ∀ s x0 x1 x2, PartsOk { s with reassign := x0, inGrant := x1, skewHold := x2 } = PartsOk s := fun s x0 x1 x2 => rfl
  unfold refuseSkew
  repeat' first | with_reducible assumption | with_reducible refine dropLane_partsOk _ _ _ _  ?_ | with_reducible refine darkenLine_partsOk _ _ _  ?_ | with_reducible refine foldlParts _ (fun s a h => ?_) _ _ ?_ | simp only [id_eq, journal_keeps PartsOk (fun _ _ => rfl), h0] | split

theorem failTraining_partsOk (s : State) (outgoing : Bool) (fibre : ℕ) (line : ℕ) (hs : PartsOk s) :
    PartsOk (failTraining s outgoing fibre line) := by
  have h0 : ∀ s x0 x1, PartsOk { s with trainFails := x0, inGrant := x1 } = PartsOk s := fun s x0 x1 => rfl
  unfold failTraining
  repeat' first | with_reducible assumption | with_reducible refine unlockRing_partsOk _ _ _  ?_ | with_reducible refine startRecovery_partsOk _ _ _ _ _ _  ?_ | with_reducible refine updLane_partsOk _ _ _ _ _  ?_ | with_reducible refine foldlParts _ (fun s a h => ?_) _ _ ?_ | simp only [id_eq, h0] | split

theorem takeCapability_partsOk (s : State) (k : ℕ) (version : ℕ) (caps : ℕ) (proto : ℕ) (hs : PartsOk s) :
    PartsOk (takeCapability s k version caps proto) := by
  unfold takeCapability
  repeat' first | with_reducible assumption | with_reducible refine updLink_partsOk _ _ _  ?_ | with_reducible refine sendCtl_partsOk _ _ _  ?_ | with_reducible refine foldlParts _ (fun s a h => ?_) _ _ ?_ | simp only [id_eq, journal_keeps PartsOk (fun _ _ => rfl)] | split

theorem takeCapabilityAck_partsOk (s : State) (k : ℕ) (agreed : ℕ) (hs : PartsOk s) :
    PartsOk (takeCapabilityAck s k agreed) := by
  unfold takeCapabilityAck
  repeat' first | with_reducible assumption | with_reducible refine updLink_partsOk _ _ _  ?_ | with_reducible refine tellJoins_partsOk _ _  ?_ | with_reducible refine settleLink_partsOk _ _  ?_ | with_reducible refine foldlParts _ (fun s a h => ?_) _ _ ?_ | simp only [id_eq] | split

theorem peerReforms_partsOk (s : State) (k : ℕ) (hs : PartsOk s) :
    PartsOk (peerReforms s k) := by
  unfold peerReforms
  repeat' first | with_reducible assumption | with_reducible refine startNego_partsOk _ _  ?_ | with_reducible refine goDark_partsOk _ _ _  ?_ | with_reducible refine foldlParts _ (fun s a h => ?_) _ _ ?_ | simp only [id_eq] | split

theorem takePropose_partsOk (s : State) (k : ℕ) (idx : ℕ) (line : ℕ) (copyOk : Bool) (hs : PartsOk s) :
    PartsOk (takePropose s k idx line copyOk) := by
  unfold takePropose
  repeat' first | with_reducible assumption | with_reducible refine updLane_partsOk _ _ _ _ _  ?_ | with_reducible refine sendCtl_partsOk _ _ _  ?_ | with_reducible refine foldlParts _ (fun s a h => ?_) _ _ ?_ | simp only [id_eq] | split

theorem takeAccept_partsOk (s : State) (k : ℕ) (idx : ℕ) (hs : PartsOk s) :
    PartsOk (takeAccept s k idx) := by
  unfold takeAccept
  repeat' first | with_reducible assumption | with_reducible refine slotFlit_partsOk _ _ _ _ _ _  ?_ | with_reducible refine updSpec_partsOk _ _ _ _  ?_ | with_reducible refine updLane_partsOk _ _ _ _ _  ?_ | with_reducible refine updRotor_partsOk _ _ _  ?_ | with_reducible refine foldlParts _ (fun s a h => ?_) _ _ ?_ | simp only [id_eq] | split

theorem takeAbort_partsOk (s : State) (k : ℕ) (r : LaneRef) (hs : PartsOk s) :
    PartsOk (takeAbort s k r) := by
  unfold takeAbort
  repeat' first | with_reducible assumption | with_reducible refine updLane_partsOk _ _ _ _ _  ?_ | with_reducible refine abortRotor_partsOk _ _  ?_ | with_reducible refine foldlParts _ (fun s a h => ?_) _ _ ?_ | simp only [id_eq] | split

theorem takeDown_partsOk (s : State) (k : ℕ) (r : LaneRef) (cause : ℕ) (hs : PartsOk s) :
    PartsOk (takeDown s k r cause) := by
  unfold takeDown
  repeat' first | with_reducible assumption | with_reducible refine startRecovery_partsOk _ _ _ _ _ _  ?_ | with_reducible refine laneOut_partsOk _ _ _ _ _ _  ?_ | with_reducible refine abortRotor_partsOk _ _  ?_ | with_reducible refine foldlParts _ (fun s a h => ?_) _ _ ?_ | simp only [id_eq] | split

theorem takeJoin_partsOk (s : State) (k : ℕ) (idx : ℕ) (seq : ℕ) (hs : PartsOk s) :
    PartsOk (takeJoin s k idx seq) := by
  unfold takeJoin
  repeat' first | with_reducible assumption | with_reducible refine updLink_partsOk _ _ _  ?_ | with_reducible refine joinLane_partsOk _ _ _ _  ?_ | with_reducible refine updLane_partsOk _ _ _ _ _  ?_ | with_reducible refine settleLink_partsOk _ _  ?_ | with_reducible refine foldlParts _ (fun s a h => ?_) _ _ ?_ | simp only [id_eq] | split

theorem leaveLane_partsOk (s : State) (k : ℕ) (lane : Lane) (hs : PartsOk s) :
    PartsOk (leaveLane s k lane) := by
  unfold leaveLane
  repeat' first | with_reducible assumption | with_reducible refine updLink_partsOk _ _ _  ?_ | with_reducible refine dropLane_partsOk _ _ _ _  ?_ | with_reducible refine foldlParts _ (fun s a h => ?_) _ _ ?_ | simp only [id_eq] | split

theorem takeLeave_partsOk (s : State) (k : ℕ) (idx : ℕ) (seq : ℕ) (hs : PartsOk s) :
    PartsOk (takeLeave s k idx seq) := by
  unfold takeLeave
  repeat' first | with_reducible assumption | with_reducible refine leaveLane_partsOk _ _ _  ?_ | with_reducible refine updLane_partsOk _ _ _ _ _  ?_ | with_reducible refine foldlParts _ (fun s a h => ?_) _ _ ?_ | simp only [id_eq] | split

theorem finishLeaves_partsOk (s : State) (k : ℕ) (hs : PartsOk s) :
    PartsOk (finishLeaves s k) := by
  unfold finishLeaves
  repeat' first | with_reducible assumption | with_reducible refine leaveLane_partsOk _ _ _  ?_ | with_reducible refine foldlParts _ (fun s a h => ?_) _ _ ?_ | simp only [id_eq] | split

theorem takeGrey_partsOk (s : State) (k : ℕ) (cause : ℕ) (hs : PartsOk s) :
    PartsOk (takeGrey s k cause) := by
  unfold takeGrey
  repeat' first | with_reducible assumption | with_reducible refine setCause_partsOk _ _ _ _  ?_ | with_reducible refine foldlParts _ (fun s a h => ?_) _ _ ?_ | simp only [id_eq] | split

theorem takeCtl_partsOk (s : State) (k : ℕ) (x1 : Ctl) (hs : PartsOk s) :
    PartsOk (takeCtl s k x1) := by
  unfold takeCtl
  repeat' first | with_reducible assumption | with_reducible refine takeCapability_partsOk _ _ _ _ _  ?_ | with_reducible refine takeGrey_partsOk _ _ _  ?_ | with_reducible refine takeDown_partsOk _ _ _ _  ?_ | with_reducible refine takeAccept_partsOk _ _ _  ?_ | with_reducible refine takeLeave_partsOk _ _ _ _  ?_ | with_reducible refine takePropose_partsOk _ _ _ _ _  ?_ | with_reducible refine takeCapabilityAck_partsOk _ _ _  ?_ | with_reducible refine takeMarker_partsOk _ _ _ _  ?_ | with_reducible refine takeJoin_partsOk _ _ _ _  ?_ | with_reducible refine takeAbort_partsOk _ _ _  ?_ | with_reducible refine foldlParts _ (fun s a h => ?_) _ _ ?_ | simp only [id_eq] | split

theorem countRx_partsOk (s : State) (k : ℕ) (p : Packet) (hs : PartsOk s) :
    PartsOk (countRx s k p) := by
  unfold countRx
  repeat' first | with_reducible assumption | with_reducible refine updLink_partsOk _ _ _  ?_ | with_reducible refine foldlParts _ (fun s a h => ?_) _ _ ?_ | simp only [id_eq] | split

theorem deliverPacket_partsOk (s : State) (k : ℕ) (x : ℕ) (p : Packet) (hs : PartsOk s) :
    PartsOk (deliverPacket s k x p) := by
  unfold deliverPacket
  repeat' first | with_reducible assumption | with_reducible refine countRx_partsOk _ _ _  ?_ | with_reducible refine oweCredit_partsOk _ _ _  ?_ | with_reducible refine foldlParts _ (fun s a h => ?_) _ _ ?_ | simp only [id_eq, objInc_keeps PartsOk (fun _ _ => rfl), inject_keeps PartsOk (fun _ _ => rfl), noteOld_keeps PartsOk (fun _ _ => rfl)] | split

theorem deliverBody_partsOk (s : State) (k : ℕ) (x : ℕ) (x1 : FlitBody) (hs : PartsOk s) :
    PartsOk (deliverBody s k x x1) := by
  unfold deliverBody
  repeat' first | with_reducible assumption | with_reducible refine deliverPacket_partsOk _ _ _ _  ?_ | with_reducible refine takeCtl_partsOk _ _ _  ?_ | with_reducible refine foldlParts _ (fun s a h => ?_) _ _ ?_ | simp only [id_eq] | split

theorem deliverRun_partsOk (s : State) (k : ℕ) (x : ℕ) (x1 : ℕ) (hs : PartsOk s) :
    PartsOk (deliverRun s k x x1) := by
  fun_induction deliverRun s k x x1
  all_goals repeat' first | with_reducible assumption | with_reducible refine deliverBody_partsOk _ _ _ _  ?_ | with_reducible refine updLink_partsOk _ _ _  ?_ | with_reducible refine foldlParts _ (fun s a h => ?_) _ _ ?_ | simp only [id_eq] | split | (rename_i ih; with_reducible refine ih ?_) | simp +zetaDelta only [id_eq]

theorem noteLater_partsOk (s : State) (k : ℕ) (hs : PartsOk s) :
    PartsOk (noteLater s k) := by
  unfold noteLater
  repeat' first | with_reducible assumption | with_reducible refine updLink_partsOk _ _ _  ?_ | with_reducible refine foldlParts _ (fun s a h => ?_) _ _ ?_ | simp only [id_eq] | split

theorem askAgain_partsOk (s : State) (k : ℕ) (seq : ℕ) (hs : PartsOk s) :
    PartsOk (askAgain s k seq) := by
  unfold askAgain
  repeat' first | with_reducible assumption | with_reducible refine updLink_partsOk _ _ _  ?_ | with_reducible refine foldlParts _ (fun s a h => ?_) _ _ ?_ | simp only [id_eq] | split

theorem nakMissing_partsOk (s : State) (k : ℕ) (hs : PartsOk s) :
    PartsOk (nakMissing s k) := by
  unfold nakMissing
  repeat' first | with_reducible assumption | with_reducible refine askAgain_partsOk _ _ _  ?_ | with_reducible refine foldlParts _ (fun s a h => ?_) _ _ ?_ | simp only [id_eq] | split

theorem resendFlit_partsOk (s : State) (k : ℕ) (seq : ℕ) (hs : PartsOk s) :
    PartsOk (resendFlit s k seq) := by
  unfold resendFlit
  repeat' first | with_reducible assumption | with_reducible refine updLink_partsOk _ _ _  ?_ | with_reducible refine foldlParts _ (fun s a h => ?_) _ _ ?_ | simp only [id_eq, objInc_keeps PartsOk (fun _ _ => rfl)] | split

theorem takeHeader_partsOk (s : State) (k : ℕ) (f : Flit) (hs : PartsOk s) :
    PartsOk (takeHeader s k f) := by
  unfold takeHeader
  repeat' first | with_reducible assumption | with_reducible refine updLink_partsOk _ _ _  ?_ | with_reducible refine resendFlit_partsOk _ _ _  ?_ | with_reducible refine drainCtl_partsOk _ _ _  ?_ | with_reducible refine foldlParts _ (fun s a h => ?_) _ _ ?_ | simp only [id_eq] | split

theorem acceptFlit_partsOk (s : State) (k : ℕ) (idx : ℕ) (x : ℕ) (f : Flit) (hs : PartsOk s) :
    PartsOk (acceptFlit s k idx x f) := by
  unfold acceptFlit
  repeat' first | with_reducible assumption | with_reducible refine updLink_partsOk _ _ _  ?_ | with_reducible refine finishLeaves_partsOk _ _  ?_ | with_reducible refine nakMissing_partsOk _ _  ?_ | with_reducible refine noteLater_partsOk _ _  ?_ | with_reducible refine updLane_partsOk _ _ _ _ _  ?_ | with_reducible refine takeHeader_partsOk _ _ _  ?_ | with_reducible refine deliverRun_partsOk _ _ _ _  ?_ | with_reducible refine foldlParts _ (fun s a h => ?_) _ _ ?_ | simp only [id_eq] | split

theorem takeIdle_partsOk (s : State) (k : ℕ) (idx : ℕ) (f : Flit) (hs : PartsOk s) :
    PartsOk (takeIdle s k idx f) := by
  unfold takeIdle
  repeat' first | with_reducible assumption | with_reducible refine nakMissing_partsOk _ _  ?_ | with_reducible refine noteLater_partsOk _ _  ?_ | with_reducible refine updLane_partsOk _ _ _ _ _  ?_ | with_reducible refine takeHeader_partsOk _ _ _  ?_ | with_reducible refine foldlParts _ (fun s a h => ?_) _ _ ?_ | simp only [id_eq] | split

theorem checkFlit_partsOk (s : State) (k : ℕ) (x : ℕ) (lane : Lane) (f : Flit) (hs : PartsOk s) :
    PartsOk (checkFlit s k x lane f) := by
  unfold checkFlit
  repeat' first | with_reducible assumption | with_reducible refine peerReforms_partsOk _ _  ?_ | with_reducible refine startRecovery_partsOk _ _ _ _ _ _  ?_ | with_reducible refine updLane_partsOk _ _ _ _ _  ?_ | with_reducible refine takeIdle_partsOk _ _ _ _  ?_ | with_reducible refine askAgain_partsOk _ _ _  ?_ | with_reducible refine acceptFlit_partsOk _ _ _ _ _  ?_ | with_reducible refine sendCtl_partsOk _ _ _  ?_ | with_reducible refine laneOut_partsOk _ _ _ _ _ _  ?_ | with_reducible refine foldlParts _ (fun s a h => ?_) _ _ ?_ | simp only [id_eq, objInc_keeps PartsOk (fun _ _ => rfl)] | split

theorem takeFlit_partsOk (s : State) (x : ℕ) (j : ℕ) (f : Flit) (hs : PartsOk s) :
    PartsOk (takeFlit s x j f) := by
  unfold takeFlit
  repeat' first | with_reducible assumption | with_reducible refine checkFlit_partsOk _ _ _ _ _  ?_ | with_reducible refine updLane_partsOk _ _ _ _ _  ?_ | with_reducible refine updRing_partsOk _ _ _  ?_ | with_reducible refine foldlParts _ (fun s a h => ?_) _ _ ?_ | simp only [id_eq, islandEvent_keeps PartsOk (fun _ _ => rfl)] | split

theorem atomicAt_partsOk (s : State) (off : ℕ) (op : ℕ) (w64 : Bool) (a : ℕ) (b : ℕ) (hs : PartsOk s) :
    PartsOk (atomicAt s off op w64 a b).st := by
  unfold atomicAt
  repeat' first | with_reducible assumption | with_reducible refine writeBytes_partsOk _ _ _ _  ?_ | with_reducible refine foldlParts _ (fun s a h => ?_) _ _ ?_ | simp only [id_eq, syncAdd_keeps PartsOk (fun _ _ => rfl), countAddrError_keeps PartsOk (fun _ _ => rfl), holdWord_keeps PartsOk (fun _ _ => rfl), freeStep_keeps PartsOk (fun _ _ => rfl)] | split

theorem updArray_partsOk (s : State) (nn : ℕ) (f : ArrayUnit → ArrayUnit) (hs : PartsOk s) :
    PartsOk (updArray s nn f) := by
  unfold updArray
  repeat' first | with_reducible assumption | with_reducible refine foldlParts _ (fun s a h => ?_) _ _ ?_ | simp only [id_eq] | split | exact partsOk_of ‹PartsOk _› (by simp [lens, modifyAt])

theorem retireAll_partsOk (s : State) (nn : ℕ) (x1 : List Issued) (hs : PartsOk s) :
    PartsOk (retireAll s nn x1) := by
  fun_induction retireAll s nn x1
  all_goals repeat' first | with_reducible assumption | with_reducible refine rejectDesc_partsOk _ _ _ _  ?_ | with_reducible refine foldlParts _ (fun s a h => ?_) _ _ ?_ | simp only [id_eq] | split | (rename_i ih; with_reducible refine ih ?_) | simp +zetaDelta only [id_eq]

theorem retireArray_partsOk (s : State) (nn : ℕ) (hs : PartsOk s) :
    PartsOk (retireArray s nn) := by
  have h1 : ∀ x, PartsOk x → PartsOk { x with vecs := modifyAt x.vecs nn (fun (u : VecUnit) => { u with fifo := [] }) } :=
    fun x h => partsOk_of h (by simp [lens, modifyAt])
  unfold retireArray
  dsimp only
  repeat' first | exact hs | refine retireAll_partsOk _ _ _ ?_ | refine h1 _ ?_ | refine updArray_partsOk _ _ _ ?_ | simp only [journalAlert_keeps PartsOk (fun _ _ => rfl), objBit_keeps PartsOk (fun _ _ => rfl)] | split

theorem missEvent_partsOk (s : State) (nn : ℕ) (hs : PartsOk s) :
    PartsOk (missEvent s nn) := by
  unfold missEvent
  repeat' first | with_reducible assumption | with_reducible refine retireArray_partsOk _ _  ?_ | with_reducible refine updArray_partsOk _ _ _  ?_ | with_reducible refine foldlParts _ (fun s a h => ?_) _ _ ?_ | simp only [id_eq, objInc_keeps PartsOk (fun _ _ => rfl)] | split

theorem swapTiles_partsOk (s : State) (nn : ℕ) (run : ArrayRun) (hs : PartsOk s) :
    PartsOk (swapTiles s nn run) := by
  unfold swapTiles
  repeat' first | with_reducible assumption | with_reducible refine updArray_partsOk _ _ _  ?_ | with_reducible refine foldlParts _ (fun s a h => ?_) _ _ ?_ | simp only [id_eq, objAdd_keeps PartsOk (fun _ _ => rfl)] | split

theorem reloadTiles_partsOk (s : State) (nn : ℕ) (run : ArrayRun) (hs : PartsOk s) :
    PartsOk (reloadTiles s nn run) := by
  unfold reloadTiles
  repeat' first | with_reducible assumption | with_reducible refine updArray_partsOk _ _ _  ?_ | with_reducible refine foldlParts _ (fun s a h => ?_) _ _ ?_ | simp only [id_eq] | split

theorem beginArray_partsOk (s : State) (nn : ℕ) (d : Issued) (hs : PartsOk s) :
    PartsOk (beginArray s nn d) := by
  unfold beginArray
  repeat' first | with_reducible assumption | with_reducible refine updArray_partsOk _ _ _  ?_ | with_reducible refine foldlParts _ (fun s a h => ?_) _ _ ?_ | simp only [id_eq] | split

theorem leaveCells_partsOk (s : State) (nn : ℕ) (run : ArrayRun) (hs : PartsOk s) :
    PartsOk (leaveCells s nn run) := by
  unfold leaveCells
  repeat' first | with_reducible assumption | with_reducible refine updArray_partsOk _ _ _  ?_ | with_reducible refine foldlParts _ (fun s a h => ?_) _ _ ?_ | simp only [id_eq] | split

theorem takeArray_partsOk (s : State) (nn : ℕ) (d : Issued) (r : List Issued) (hs : PartsOk s) :
    PartsOk (takeArray s nn d r) := by
  unfold takeArray
  repeat' first | with_reducible assumption | with_reducible refine beginArray_partsOk _ _ _  ?_ | with_reducible refine rejectDesc_partsOk _ _ _ _  ?_ | with_reducible refine updArray_partsOk _ _ _  ?_ | with_reducible refine foldlParts _ (fun s a h => ?_) _ _ ?_ | simp only [id_eq] | split

theorem preload_partsOk (s : State) (nn : ℕ) (d : Issued) (tst : List TstEvent) (hs : PartsOk s) :
    PartsOk (preload s nn d tst) := by
  unfold preload
  repeat' first | with_reducible assumption | with_reducible refine updArray_partsOk _ _ _  ?_ | with_reducible refine foldlParts _ (fun s a h => ?_) _ _ ?_ | simp only [id_eq, applyTst_keeps PartsOk (fun _ _ => rfl)] | split

theorem arrayPass_partsOk (s : State) (nn : ℕ) (tst : List TstEvent) (hs : PartsOk s) :
    PartsOk (arrayPass s nn tst) := by
  unfold arrayPass
  repeat' first | with_reducible assumption | with_reducible refine preload_partsOk _ _ _ _  ?_ | with_reducible refine leaveCells_partsOk _ _ _  ?_ | with_reducible refine takeArray_partsOk _ _ _ _  ?_ | with_reducible refine foldlParts _ (fun s a h => ?_) _ _ ?_ | simp only [id_eq, applyTst_keeps PartsOk (fun _ _ => rfl)] | split

theorem updRun_partsOk (s : State) (nn : ℕ) (f : ArrayRun → ArrayRun) (hs : PartsOk s) :
    PartsOk (updRun s nn f) := by
  unfold updRun
  repeat' first | with_reducible assumption | with_reducible refine updArray_partsOk _ _ _  ?_ | with_reducible refine foldlParts _ (fun s a h => ?_) _ _ ?_ | simp only [id_eq] | split

theorem enterRows_partsOk (s : State) (nn : ℕ) (x1 : ℕ) (hs : PartsOk s) :
    PartsOk (enterRows s nn x1) := by
  fun_induction enterRows s nn x1
  all_goals repeat' first | with_reducible assumption | with_reducible refine updArray_partsOk _ _ _  ?_ | with_reducible refine updRun_partsOk _ _ _  ?_ | with_reducible refine foldlParts _ (fun s a h => ?_) _ _ ?_ | simp only [id_eq, objAdd_keeps PartsOk (fun _ _ => rfl)] | split | (rename_i ih; with_reducible refine ih ?_) | simp +zetaDelta only [id_eq, objAdd_keeps PartsOk (fun _ _ => rfl)]

theorem commitArrayRow_partsOk (s : State) (nn : ℕ) (m : ℕ) (outs : List Acc) (hs : PartsOk s) :
    PartsOk (commitArrayRow s nn m outs) := by
  unfold commitArrayRow
  repeat' first | with_reducible assumption | with_reducible refine updArray_partsOk _ _ _  ?_ | with_reducible refine updRun_partsOk _ _ _  ?_ | with_reducible refine foldlParts _ (fun s a h => ?_) _ _ ?_ | simp only [id_eq, objAdd_keeps PartsOk (fun _ _ => rfl)] | split

theorem keepShadow_partsOk (s : State) (nn : ℕ) (run : ArrayRun) (m : ℕ) (code : ℕ) (hs : PartsOk s) :
    PartsOk (keepShadow s nn run m code) := by
  unfold keepShadow
  repeat' first | with_reducible assumption | with_reducible refine updArray_partsOk _ _ _  ?_ | with_reducible refine foldlParts _ (fun s a h => ?_) _ _ ?_ | simp only [id_eq] | split

theorem countMiss_partsOk (s : State) (nn : ℕ) (hs : PartsOk s) :
    PartsOk (countMiss s nn) := by
  unfold countMiss
  repeat' first | with_reducible assumption | with_reducible refine updRun_partsOk _ _ _  ?_ | with_reducible refine foldlParts _ (fun s a h => ?_) _ _ ?_ | simp only [id_eq, objInc_keeps PartsOk (fun _ _ => rfl)] | split

theorem rowCommit_partsOk (s : State) (nn : ℕ) (upset : List (ℕ × ℕ)) (hs : PartsOk s) :
    PartsOk (rowCommit s nn upset) := by
  unfold rowCommit
  repeat' first | with_reducible assumption | with_reducible refine keepShadow_partsOk _ _ _ _ _  ?_ | with_reducible refine commitArrayRow_partsOk _ _ _ _  ?_ | with_reducible refine swapTiles_partsOk _ _ _  ?_ | with_reducible refine updRun_partsOk _ _ _  ?_ | with_reducible refine enterRows_partsOk _ _ _  ?_ | with_reducible refine countMiss_partsOk _ _  ?_ | with_reducible refine foldlParts _ (fun s a h => ?_) _ _ ?_ | simp only [id_eq, countCheck_keeps PartsOk (fun _ _ => rfl)] | split

theorem rerunDone_partsOk (s : State) (nn : ℕ) (upset : List (ℕ × ℕ)) (hs : PartsOk s) :
    PartsOk (rerunDone s nn upset) := by
  unfold rerunDone
  repeat' first | with_reducible assumption | with_reducible refine keepShadow_partsOk _ _ _ _ _  ?_ | with_reducible refine commitArrayRow_partsOk _ _ _ _  ?_ | with_reducible refine reloadTiles_partsOk _ _ _  ?_ | with_reducible refine updRun_partsOk _ _ _  ?_ | with_reducible refine enterRows_partsOk _ _ _  ?_ | with_reducible refine countMiss_partsOk _ _  ?_ | with_reducible refine foldlParts _ (fun s a h => ?_) _ _ ?_ | simp only [id_eq, countCheck_keeps PartsOk (fun _ _ => rfl), objInc_keeps PartsOk (fun _ _ => rfl)] | split

theorem handOff_partsOk (s : State) (nn : ℕ) (hs : PartsOk s) :
    PartsOk (handOff s nn) := by
  unfold handOff
  repeat' first | with_reducible assumption | with_reducible refine updArray_partsOk _ _ _  ?_ | with_reducible refine foldlParts _ (fun s a h => ?_) _ _ ?_ | simp only [id_eq] | split

theorem arrayDone_partsOk (s : State) (nn : ℕ) (hs : PartsOk s) :
    PartsOk (arrayDone s nn) := by
  unfold arrayDone
  repeat' first | with_reducible assumption | with_reducible refine missEvent_partsOk _ _  ?_ | with_reducible refine retireArray_partsOk _ _  ?_ | with_reducible refine updArray_partsOk _ _ _  ?_ | with_reducible refine completeDesc_partsOk _ _  ?_ | with_reducible refine foldlParts _ (fun s a h => ?_) _ _ ?_ | simp only [id_eq] | split

theorem updVec_partsOk (s : State) (nn : ℕ) (f : VecUnit → VecUnit) (hs : PartsOk s) :
    PartsOk (updVec s nn f) := by
  unfold updVec
  repeat' first | with_reducible assumption | with_reducible refine foldlParts _ (fun s a h => ?_) _ _ ?_ | simp only [id_eq] | split | exact partsOk_of ‹PartsOk _› (by simp [lens, modifyAt])

theorem vecStart_partsOk (s : State) (nn : ℕ) (op : ℕ) (tst : List TstEvent) (reject : State → ℕ → List Word64 → Option ℕ) (run : State → Issued → State × Result)
    (h_run : ∀ s a0, PartsOk s → PartsOk ((run s a0).1)) (hs : PartsOk s) :
    PartsOk (vecStart s nn op tst reject run) := by
  unfold vecStart
  repeat' first | with_reducible assumption | with_reducible refine rejectDesc_partsOk _ _ _ _  ?_ | with_reducible refine updVec_partsOk _ _ _  ?_ | with_reducible refine h_run _ _ ?_ | with_reducible refine foldlParts _ (fun s a h => ?_) _ _ ?_ | simp only [id_eq, applyTst_keeps PartsOk (fun _ _ => rfl)] | split

theorem amaxPastDim_partsOk (s : State) (nn : ℕ) (go : State → State)
    (h_go : ∀ s, PartsOk s → PartsOk ((go s))) (hs : PartsOk s) :
    PartsOk (amaxPastDim s nn go) := by
  unfold amaxPastDim
  repeat' first | with_reducible assumption | with_reducible refine pastLocal_partsOk _ _ _ _ _ (fun _ h => ?_) ?_ | with_reducible refine h_go _ ?_ | with_reducible refine foldlParts _ (fun s a h => ?_) _ _ ?_ | simp only [id_eq] | split

theorem vecDone_partsOk (s : State) (nn : ℕ) (hs : PartsOk s) :
    PartsOk (vecDone s nn) := by
  unfold vecDone
  repeat' first | with_reducible assumption | with_reducible refine updVec_partsOk _ _ _  ?_ | with_reducible refine completeDesc_partsOk _ _  ?_ | with_reducible refine foldlParts _ (fun s a h => ?_) _ _ ?_ | simp only [id_eq] | split

theorem serveRequest_partsOk (s : State) (p : Packet) (off : ℕ) (tag : ℕ) (n : ℕ) (read : Bool) (run : State → Half → State)
    (h_run : ∀ s a0, PartsOk s → PartsOk ((run s a0))) (hs : PartsOk s) :
    PartsOk (serveRequest s p off tag n read run) := by
  unfold serveRequest
  repeat' first | with_reducible assumption | with_reducible refine pastDim_partsOk _ _ _ _ _ (fun _ h => ?_) ?_ | with_reducible refine h_run _ _ ?_ | with_reducible refine foldlParts _ (fun s a h => ?_) _ _ ?_ | simp only [id_eq, replyTo_keeps PartsOk (fun _ _ => rfl), backInvalidate_keeps PartsOk (fun _ _ => rfl), takeEjected_keeps PartsOk (fun _ _ => rfl), forgetBad_keeps PartsOk (fun _ _ => rfl), noteAdmit_keeps PartsOk (fun _ _ => rfl)] | split

theorem sequenced_partsOk (s : State) (h : Half) (p : Packet) (tag : ℕ) (age : ℕ) (run : State → State × ℕ × ℕ × Bytes)
    (h_run : ∀ s, PartsOk s → PartsOk ((run s).1)) (hs : PartsOk s) :
    PartsOk (sequenced s h p tag age run) := by
  unfold sequenced
  repeat' first | with_reducible assumption | with_reducible refine h_run _ ?_ | with_reducible refine foldlParts _ (fun s a h => ?_) _ _ ?_ | simp only [id_eq, replyTo_keeps PartsOk (fun _ _ => rfl), journal_keeps PartsOk (fun _ _ => rfl), objInc_keeps PartsOk (fun _ _ => rfl), enterReplay_keeps PartsOk (fun _ _ => rfl)] | split

theorem streamAnswer_partsOk (s : State) (o : Outst) (e : ℕ) (seq : ℕ) (id : ℕ) (status : ℕ) (mask : ℕ) (data : Bytes) (hs : PartsOk s) :
    PartsOk (streamAnswer s o e seq id status mask data) := by
  unfold streamAnswer
  repeat' first | with_reducible assumption | with_reducible refine updCtx_partsOk _ _ _ _ _  ?_ | with_reducible refine finishReq_partsOk _ _ _ _ _  ?_ | with_reducible refine foldlParts _ (fun s a h => ?_) _ _ ?_ | simp only [id_eq, fillCache_keeps PartsOk (fun _ _ => rfl), tallied_keeps PartsOk (fun _ _ => rfl)] | split

theorem answer_partsOk (s : State) (o : Outst) (status : ℕ) (mask : ℕ) (data : Bytes) (hs : PartsOk s) :
    PartsOk (answer s o status mask data) := by
  unfold answer
  repeat' first | with_reducible assumption | with_reducible refine streamAnswer_partsOk _ _ _ _ _ _ _ _  ?_ | with_reducible refine updVec_partsOk _ _ _  ?_ | with_reducible refine foldlParts _ (fun s a h => ?_) _ _ ?_ | simp only [id_eq, releaseTag_keeps PartsOk (fun _ _ => rfl), remoteSignalFailed_keeps PartsOk (fun _ _ => rfl)] | split

theorem leaveRouter_partsOk (s : State) (h : Half) (x : Held) (hs : PartsOk s) :
    PartsOk (leaveRouter s h x) := by
  unfold leaveRouter
  repeat' first | with_reducible assumption | with_reducible refine oweCredit_partsOk _ _ _  ?_ | with_reducible refine foldlParts _ (fun s a h => ?_) _ _ ?_ | simp only [id_eq, updRouter_keeps PartsOk (fun _ _ => rfl)] | split

theorem dropPacket_partsOk (s : State) (h : Half) (x : Held) (counter : ℕ) (status : ℕ) (hs : PartsOk s) :
    PartsOk (dropPacket s h x counter status) := by
  unfold dropPacket
  repeat' first | with_reducible assumption | with_reducible refine leaveRouter_partsOk _ _ _  ?_ | with_reducible refine foldlParts _ (fun s a h => ?_) _ _ ?_ | simp only [id_eq, replyTo_keeps PartsOk (fun _ _ => rfl), objInc_keeps PartsOk (fun _ _ => rfl)] | split

theorem linkSend_partsOk (s : State) (k : ℕ) (p : Packet) (hs : PartsOk s) :
    PartsOk (linkSend s k p) := by
  unfold linkSend
  repeat' first | with_reducible assumption | with_reducible refine updLink_partsOk _ _ _  ?_ | with_reducible refine sendFlit_partsOk _ _ _  ?_ | with_reducible refine foldlParts _ (fun s a h => ?_) _ _ ?_ | simp only [id_eq] | split

theorem sendCopy_partsOk (s : State) (h : Half) (k : ℕ) (vc : ℕ) (x : Held) (hs : PartsOk s) :
    PartsOk (sendCopy s h k vc x) := by
  unfold sendCopy
  repeat' first | with_reducible assumption | with_reducible refine updLink_partsOk _ _ _  ?_ | with_reducible refine linkSend_partsOk _ _ _  ?_ | with_reducible refine foldlParts _ (fun s a h => ?_) _ _ ?_ | simp only [id_eq, objInc_keeps PartsOk (fun _ _ => rfl), putCrossing_keeps PartsOk (fun _ _ => rfl)] | split

theorem sendOn_partsOk (s : State) (h : Half) (k : ℕ) (vc : ℕ) (x : Held) (hs : PartsOk s) :
    PartsOk (sendOn s h k vc x) := by
  unfold sendOn
  repeat' first | with_reducible assumption | with_reducible refine dropPacket_partsOk _ _ _ _ _  ?_ | with_reducible refine leaveRouter_partsOk _ _ _  ?_ | with_reducible refine sendCopy_partsOk _ _ _ _ _  ?_ | with_reducible refine foldlParts _ (fun s a h => ?_) _ _ ?_ | simp only [id_eq, journal_keeps PartsOk (fun _ _ => rfl)] | split

theorem setDeficit_partsOk (s : State) (h : Half) (k : ℕ) (d : List ℕ) (hs : PartsOk s) :
    PartsOk (setDeficit s h k d) := by
  have h0 : ∀ s x0, PartsOk { s with bridge := x0 } = PartsOk s := fun s x0 => rfl
  unfold setDeficit
  repeat' first | with_reducible assumption | with_reducible refine updLink_partsOk _ _ _  ?_ | with_reducible refine foldlParts _ (fun s a h => ?_) _ _ ?_ | simp only [id_eq, h0] | split

theorem served_partsOk (s : State) (h : Half) (k : ℕ) (x : Held) (hs : PartsOk s) :
    ∀ t, served s h k x = some t → PartsOk t := by
  intro t ht
  unfold served at ht
  dsimp only at ht
  split at ht
  · split at ht
    · injection ht with ht
      subst ht
      exact setDeficit_partsOk _ _ _ _ hs
    · cases ht
  · cases ht

theorem writeLines_partsOk (s : State) (off : ℕ) (mask : ℕ) (data : Bytes) (x1 : ℕ) (hs : PartsOk s) :
    PartsOk (writeLines s off mask data x1) := by
  fun_induction writeLines s off mask data x1
  all_goals repeat' first | with_reducible assumption | with_reducible refine writeBytes_partsOk _ _ _ _  ?_ | with_reducible refine foldlParts _ (fun s a h => ?_) _ _ ?_ | simp only [id_eq] | split | (rename_i ih; with_reducible refine ih ?_) | simp +zetaDelta only [id_eq]

theorem writeResult_partsOk (s : State) (ws : List Word64) (c : ℕ) (seg : ℕ) (pos : ℕ) (mask : ℕ) (data : Bytes) (hs : PartsOk s) :
    PartsOk (writeResult s ws c seg pos mask data) := by
  unfold writeResult
  repeat' first | with_reducible assumption | with_reducible refine writeLines_partsOk _ _ _ _ _  ?_ | with_reducible refine writeBytes_partsOk _ _ _ _  ?_ | with_reducible refine foldlParts _ (fun s a h => ?_) _ _ ?_ | simp only [id_eq, updColl_keeps PartsOk (fun _ _ => rfl)] | split

theorem passResult_partsOk (s : State) (ws : List Word64) (h : CollHdr) (hs : PartsOk s) :
    PartsOk (passResult s ws h) := by
  unfold passResult
  repeat' first | with_reducible assumption | with_reducible refine writeResult_partsOk _ _ _ _ _ _ _  ?_ | with_reducible refine foldlParts _ (fun s a h => ?_) _ _ ?_ | simp only [id_eq, updColl_keeps PartsOk (fun _ _ => rfl), spreadAt_keeps PartsOk (fun _ _ => rfl)] | split

theorem spread_partsOk (s : State) (ws : List Word64) (level : ℕ) (c : ℕ) (seg : ℕ) (vs : List BankVal) (inv : List ℕ) (hs : PartsOk s) :
    PartsOk (spread s ws level c seg vs inv) := by
  unfold spread
  repeat' first | with_reducible assumption | with_reducible refine passResult_partsOk _ _ _  ?_ | with_reducible refine foldlParts _ (fun s a h => ?_) _ _ ?_ | simp only [id_eq, updColl_keeps PartsOk (fun _ _ => rfl)] | split

theorem stageOn_partsOk (s : State) (ws : List Word64) (level : ℕ) (c : ℕ) (seg : ℕ) (vs : List BankVal) (inv : List ℕ) (hs : PartsOk s) :
    PartsOk (stageOn s ws level c seg vs inv) := by
  unfold stageOn
  repeat' first | with_reducible assumption | with_reducible refine spread_partsOk _ _ _ _ _ _ _  ?_ | with_reducible refine foldlParts _ (fun s a h => ?_) _ _ ?_ | (have e := congrArg Prod.fst ‹closeSeg _ _ _ _ _ = _›; dsimp only at e; rw [← e]; refine cast (closeSeg_keeps PartsOk (fun _ _ => rfl) _ _ _ _ _).symm ?_) | simp only [id_eq, closeSeg_keeps PartsOk (fun _ _ => rfl), enterLocal_keeps PartsOk (fun _ _ => rfl)] | split

theorem advanceSeg_partsOk (s : State) (ws : List Word64) (level : ℕ) (c : ℕ) (seg : ℕ) (hs : PartsOk s) :
    PartsOk (advanceSeg s ws level c seg) := by
  unfold advanceSeg
  repeat' first | with_reducible assumption | with_reducible refine stageOn_partsOk _ _ _ _ _ _ _  ?_ | with_reducible refine foldlParts _ (fun s a h => ?_) _ _ ?_ | (have e := congrArg Prod.fst ‹closeSeg _ _ _ _ _ = _›; dsimp only at e; rw [← e]; refine cast (closeSeg_keeps PartsOk (fun _ _ => rfl) _ _ _ _ _).symm ?_) | simp only [id_eq, closeSeg_keeps PartsOk (fun _ _ => rfl)] | split

theorem completeColl_partsOk (s : State) (ws : List Word64) (hs : PartsOk s) :
    PartsOk (completeColl s ws) := by
  unfold completeColl
  repeat' first | with_reducible assumption | with_reducible refine completeDesc_partsOk _ _  ?_ | with_reducible refine foldlParts _ (fun s a h => ?_) _ _ ?_ | simp only [id_eq, dropColl_keeps PartsOk (fun _ _ => rfl)] | split

theorem closeChunk_partsOk (s : State) (ws : List Word64) (c : ℕ) (hs : PartsOk s) :
    PartsOk (closeChunk s ws c) := by
  have h0 : ∀ s x0, PartsOk { s with slots := x0 } = PartsOk s := fun s x0 => rfl
  unfold closeChunk
  repeat' first | with_reducible assumption | with_reducible refine completeColl_partsOk _ _  ?_ | with_reducible refine foldlParts _ (fun s a h => ?_) _ _ ?_ | simp only [id_eq, updColl_keeps PartsOk (fun _ _ => rfl), signalChunks_keeps PartsOk (fun _ _ => rfl), h0] | split

theorem endColl_partsOk (s : State) (x : Coll) (status : ℕ) (hs : PartsOk s) :
    PartsOk (endColl s x status) := by
  have h0 : ∀ s x0 x1, PartsOk { s with waiters := x0, ended := x1 } = PartsOk s := fun s x0 x1 => rfl
  unfold endColl
  repeat' first | with_reducible assumption | with_reducible refine completeDesc_partsOk _ _  ?_ | with_reducible refine foldlParts _ (fun s a h => ?_) _ _ ?_ | simp only [id_eq, dropColl_keeps PartsOk (fun _ _ => rfl), h0] | split

theorem adopt_partsOk (s : State) (ws : List Word64) (x1 : List Slot) (hs : PartsOk s) :
    PartsOk (adopt s ws x1) := by
  fun_induction adopt s ws x1
  all_goals repeat' first | with_reducible assumption | with_reducible refine advanceSeg_partsOk _ _ _ _ _  ?_ | with_reducible refine closeChunk_partsOk _ _ _  ?_ | with_reducible refine foldlParts _ (fun s a h => ?_) _ _ ?_ | simp only [id_eq, updSlot_keeps PartsOk (fun _ _ => rfl), updColl_keeps PartsOk (fun _ _ => rfl)] | split | (rename_i ih; with_reducible refine ih ?_) | simp +zetaDelta only [id_eq, updSlot_keeps PartsOk (fun _ _ => rfl), updColl_keeps PartsOk (fun _ _ => rfl)]

theorem runSeam_partsOk (s : State) (q : ℕ) (f : Fetched) (hs : PartsOk s) :
    PartsOk (runSeam s q f) := by
  unfold runSeam
  repeat' first | with_reducible assumption | with_reducible refine rejectDesc_partsOk _ _ _ _  ?_ | with_reducible refine foldlParts _ (fun s a h => ?_) _ _ ?_ | simp only [id_eq, seamWaits_keeps PartsOk (fun _ _ => rfl), updQ_keeps PartsOk (fun _ _ => rfl)] | split

theorem reachIn_partsOk (ready : State → Half → ℕ → Fetched → State × Bool) (s : State) (q : ℕ) (f : Fetched) (h : Half)
    (h_ready : ∀ s a0 a1 a2, PartsOk s → PartsOk ((ready s a0 a1 a2).1)) (hs : PartsOk s) :
    PartsOk (reachIn ready s q f h) := by
  unfold reachIn
  repeat' first | with_reducible assumption | with_reducible refine h_ready _ _ _ _ ?_ | with_reducible refine foldlParts _ (fun s a h => ?_) _ _ ?_ | simp only [id_eq, updFetched_keeps PartsOk (fun _ _ => rfl)] | split

theorem runTogether_partsOk (ready : State → Half → ℕ → Fetched → State × Bool) (s : State) (q : ℕ) (op : ℕ) (run : State → Fetched → State)
    (h_ready : ∀ s a0 a1 a2, PartsOk s → PartsOk ((ready s a0 a1 a2).1)) (h_run : ∀ s a0, PartsOk s → PartsOk ((run s a0))) (hs : PartsOk s) :
    PartsOk (runTogether ready s q op run) := by
  unfold runTogether
  repeat' first | with_reducible assumption | with_reducible refine reachIn_partsOk _ _ _ _ _ (fun _ _ _ _ h => ?_) ?_ | with_reducible refine h_ready _ _ _ _ ?_ | with_reducible refine h_run _ _ ?_ | with_reducible refine foldlParts _ (fun s a h => ?_) _ _ ?_ | simp only [id_eq, setTodo_keeps PartsOk (fun _ _ => rfl)] | split

theorem seamMarkerAt_partsOk (s : State) (q : ℕ) (hs : PartsOk s) :
    PartsOk (seamMarkerAt s q) := by
  unfold seamMarkerAt
  repeat' first | with_reducible assumption | with_reducible refine runTogether_partsOk _ _ _ _ _ (fun _ _ _ _ h => ?_) (fun _ _ h => ?_) ?_ | with_reducible refine runSeam_partsOk _ _ _  ?_ | with_reducible refine foldlParts _ (fun s a h => ?_) _ _ ?_ | (have e := congrArg Prod.fst ‹seamReady _ _ _ _ = _›; dsimp only at e; rw [← e]; refine cast (seamReady_keeps PartsOk (fun _ _ => rfl) _ _ _ _).symm ?_) | simp only [id_eq, seamReady_keeps PartsOk (fun _ _ => rfl)] | split

theorem seamOpenAt_partsOk (s : State) (q : ℕ) (hs : PartsOk s) :
    PartsOk (seamOpenAt s q) := by
  unfold seamOpenAt
  repeat' first | with_reducible assumption | with_reducible refine completeDesc_partsOk _ _  ?_ | with_reducible refine foldlParts _ (fun s a h => ?_) _ _ ?_ | simp only [id_eq, objInc_keeps PartsOk (fun _ _ => rfl), updQ_keeps PartsOk (fun _ _ => rfl)] | split

theorem breakFor_partsOk (s : State) (w : Claim) (hs : PartsOk s) :
    PartsOk (breakFor s w) := by
  have h0 : ∀ s x0 x1, PartsOk { s with waitClaims := x0, spills := x1 } = PartsOk s := fun s x0 x1 => rfl
  unfold breakFor
  repeat' first | with_reducible assumption | with_reducible refine updCtx_partsOk _ _ _ _ _  ?_ | with_reducible refine foldlParts _ (fun s a h => ?_) _ _ ?_ | simp only [id_eq, journal_keeps PartsOk (fun _ _ => rfl), objInc_keeps PartsOk (fun _ _ => rfl), raiseTrap_keeps PartsOk (fun _ _ => rfl), updQ_keeps PartsOk (fun _ _ => rfl), h0] | split

theorem watchFire_partsOk (s : State) (slice : ℕ) (hs : PartsOk s) :
    PartsOk (watchFire s slice) := by
  unfold watchFire
  repeat' first | with_reducible assumption | with_reducible refine breakFor_partsOk _ _  ?_ | with_reducible refine foldlParts _ (fun s a h => ?_) _ _ ?_ | simp only [id_eq] | split

theorem grantClaim_partsOk (s : State) (i : ℕ) (hs : PartsOk s) :
    PartsOk (grantClaim s i) := by
  have h0 : ∀ s x0 x1, PartsOk { s with claims := x0, waitClaims := x1 } = PartsOk s := fun s x0 x1 => rfl
  unfold grantClaim
  repeat' first | with_reducible assumption | with_reducible refine updCtx_partsOk _ _ _ _ _  ?_ | with_reducible refine foldlParts _ (fun s a h => ?_) _ _ ?_ | simp only [id_eq, h0] | split

theorem grantWaiter_partsOk (s : State) (waiter : ℕ × ℕ) (hs : PartsOk s) :
    PartsOk (grantWaiter s waiter) := by
  unfold grantWaiter
  repeat' first | with_reducible assumption | with_reducible refine grantClaim_partsOk _ _  ?_ | with_reducible refine breakFor_partsOk _ _  ?_ | with_reducible refine foldlParts _ (fun s a h => ?_) _ _ ?_ | simp only [id_eq] | split

theorem spillDone_partsOk (s : State) (slice : ℕ) (hs : PartsOk s) :
    PartsOk (spillDone s slice) := by
  have h0 : ∀ s x0 x1 x2, PartsOk { s with claims := x0, waitClaims := x1, spills := x2 } = PartsOk s := fun s x0 x1 x2 => rfl
  unfold spillDone
  repeat' first | with_reducible assumption | with_reducible refine grantWaiter_partsOk _ _  ?_ | with_reducible refine foldlParts _ (fun s a h => ?_) _ _ ?_ | simp only [id_eq, objAdd_keeps PartsOk (fun _ _ => rfl), h0] | split

theorem restoreDone_partsOk (s : State) (slice : ℕ) (hs : PartsOk s) :
    PartsOk (restoreDone s slice) := by
  have h0 : ∀ s x0 x1 x2, PartsOk { s with tile := x0, tilePoison := x1, spills := x2 } = PartsOk s := fun s x0 x1 x2 => rfl
  unfold restoreDone
  repeat' first | with_reducible assumption | with_reducible refine updCtx_partsOk _ _ _ _ _  ?_ | with_reducible refine foldlParts _ (fun s a h => ?_) _ _ ?_ | simp only [id_eq, h0] | split

theorem launch_partsOk (coll : Bool) (block : Fetch) (parts : Fetch) (s : State) (hs : PartsOk s) :
    PartsOk (launch coll block parts s) := by
  have h0 : ∀ s x0 x1, PartsOk { s with parts := x0, queues := x1 } = PartsOk s := fun s x0 x1 => rfl
  unfold launch
  repeat' first | with_reducible assumption | with_reducible refine readPastDim_partsOk _ _ _ _ _ (fun _ h => ?_) ?_ | with_reducible refine foldlParts _ (fun s a h => ?_) _ _ ?_ | (have e := congrArg Prod.fst ‹readClean _ _ _ _ = _›; dsimp only at e; rw [← e]; refine cast (readClean_keeps PartsOk (fun _ _ => rfl) _ _ _ _).symm ?_) | simp only [id_eq, readClean_keeps PartsOk (fun _ _ => rfl), mbxEnd_keeps PartsOk (fun _ _ => rfl), h0] | split

theorem hostPage_partsOk (s : State) (q : ℕ) (reg : ℕ) (w : ℕ) (hs : PartsOk s) :
    PartsOk (hostPage s q reg w) := by
  unfold hostPage
  repeat' first | with_reducible assumption | with_reducible refine pageWrite_partsOk _ _ _ _  ?_ | with_reducible refine foldlParts _ (fun s a h => ?_) _ _ ?_ | simp only [id_eq] | split

theorem fetchOne_partsOk (s : State) (q : ℕ) (f : Fetch) (hs : PartsOk s) :
    PartsOk (fetchOne s q f) := by
  unfold fetchOne
  repeat' first | with_reducible assumption | with_reducible refine unreadable_partsOk _ _ _ _  ?_ | with_reducible refine readPastDim_partsOk _ _ _ _ _ (fun _ h => ?_) ?_ | with_reducible refine foldlParts _ (fun s a h => ?_) _ _ ?_ | (have e := congrArg Prod.fst ‹readClean _ _ _ _ = _›; dsimp only at e; rw [← e]; refine cast (readClean_keeps PartsOk (fun _ _ => rfl) _ _ _ _).symm ?_) | simp only [id_eq, readClean_keeps PartsOk (fun _ _ => rfl), updQ_keeps PartsOk (fun _ _ => rfl), addFetched_keeps PartsOk (fun _ _ => rfl)] | split

theorem issueColl_partsOk (s : State) (h : Half) (hs : PartsOk s) :
    PartsOk (issueColl s h).1 := by
  have h0 : ∀ s x0 x1, PartsOk { s with colls := x0, ended := x1 } = PartsOk s := fun s x0 x1 => rfl
  unfold issueColl
  repeat' first | with_reducible assumption | with_reducible refine rejectDesc_partsOk _ _ _ _  ?_ | with_reducible refine foldlParts _ (fun s a h => ?_) _ _ ?_ | simp only [id_eq, markIssued_keeps PartsOk (fun _ _ => rfl), noteStall_keeps PartsOk (fun _ _ => rfl), addWait_keeps PartsOk (fun _ _ => rfl), updQ_keeps PartsOk (fun _ _ => rfl), h0] | split

theorem colReads_partsOk (s : State) (ws : List Word64) (c : ℕ) (seg : ℕ) (go : State → State)
    (h_go : ∀ s, PartsOk s → PartsOk ((go s))) (hs : PartsOk s) :
    PartsOk (colReads s ws c seg go) := by
  unfold colReads
  repeat' first | with_reducible assumption | with_reducible refine pastDim_partsOk _ _ _ _ _ (fun _ h => ?_) ?_ | with_reducible refine pastSnoop_partsOk _ _ _ _ (fun _ h => ?_) ?_ | with_reducible refine h_go _ ?_ | with_reducible refine foldlParts _ (fun s a h => ?_) _ _ ?_ | simp only [id_eq] | split

theorem colWrites_partsOk (s : State) (ws : List Word64) (c : ℕ) (seg : ℕ) (go : State → State)
    (h_go : ∀ s, PartsOk s → PartsOk ((go s))) (hs : PartsOk s) :
    PartsOk (colWrites s ws c seg go) := by
  unfold colWrites
  repeat' first | with_reducible assumption | with_reducible refine pastSnoop_partsOk _ _ _ _ (fun _ h => ?_) ?_ | with_reducible refine dimStall_partsOk _ _ _  ?_ | with_reducible refine h_go _ ?_ | with_reducible refine foldlParts _ (fun s a h => ?_) _ _ ?_ | simp only [id_eq] | split

theorem localInput_partsOk (s : State) (id : ℕ) (c : ℕ) (seg : ℕ) (hs : PartsOk s) :
    PartsOk (localInput s id c seg) := by
  unfold localInput
  repeat' first | with_reducible assumption | with_reducible refine colWrites_partsOk _ _ _ _ _ (fun _ h => ?_) ?_ | with_reducible refine colReads_partsOk _ _ _ _ _ (fun _ h => ?_) ?_ | with_reducible refine advanceSeg_partsOk _ _ _ _ _  ?_ | with_reducible refine spread_partsOk _ _ _ _ _ _ _  ?_ | with_reducible refine closeChunk_partsOk _ _ _  ?_ | with_reducible refine foldlParts _ (fun s a h => ?_) _ _ ?_ | simp only [id_eq, updColl_keeps PartsOk (fun _ _ => rfl), enterLocal_keeps PartsOk (fun _ _ => rfl)] | split

theorem takeGreyPacket_partsOk (s : State) (x : Coll) (h : CollHdr) (hs : PartsOk s) :
    PartsOk (takeGreyPacket s x h) := by
  have h0 : ∀ s x0, PartsOk { s with greys := x0 } = PartsOk s := fun s x0 => rfl
  unfold takeGreyPacket
  repeat' first | with_reducible assumption | with_reducible refine endColl_partsOk _ _ _  ?_ | with_reducible refine foldlParts _ (fun s a h => ?_) _ _ ?_ | simp only [id_eq, objInc_keeps PartsOk (fun _ _ => rfl), countDup_keeps PartsOk (fun _ _ => rfl), h0] | split

theorem takeActive_partsOk (s : State) (x : Coll) (h : CollHdr) (hs : PartsOk s) :
    PartsOk (takeActive s x h) := by
  unfold takeActive
  repeat' first | with_reducible assumption | with_reducible refine passResult_partsOk _ _ _  ?_ | with_reducible refine advanceSeg_partsOk _ _ _ _ _  ?_ | with_reducible refine takeGreyPacket_partsOk _ _ _  ?_ | with_reducible refine closeChunk_partsOk _ _ _  ?_ | with_reducible refine foldlParts _ (fun s a h => ?_) _ _ ?_ | simp only [id_eq, takeNotice_keeps PartsOk (fun _ _ => rfl), takeInput_keeps PartsOk (fun _ _ => rfl), countDup_keeps PartsOk (fun _ _ => rfl)] | split

theorem activate_partsOk (s : State) (h : Half) (hs : PartsOk s) :
    PartsOk (activate s h) := by
  have h0 : ∀ s x0, PartsOk { s with pendColls := x0 } = PartsOk s := fun s x0 => rfl
  unfold activate
  repeat' first | with_reducible assumption | with_reducible refine adopt_partsOk _ _ _  ?_ | with_reducible refine takeActive_partsOk _ _ _  ?_ | with_reducible refine foldlParts _ (fun s a h => ?_) _ _ ?_ | simp only [id_eq, updColl_keeps PartsOk (fun _ _ => rfl), h0] | split

theorem takeColl_partsOk (s : State) (p : Packet) (hs : PartsOk s) :
    PartsOk (takeColl s p) := by
  unfold takeColl
  repeat' first | with_reducible assumption | with_reducible refine colWrites_partsOk _ _ _ _ _ (fun _ h => ?_) ?_ | with_reducible refine takeActive_partsOk _ _ _  ?_ | with_reducible refine foldlParts _ (fun s a h => ?_) _ _ ?_ | simp only [id_eq, echoFrom_keeps PartsOk (fun _ _ => rfl), echoMark_keeps PartsOk (fun _ _ => rfl), takePending_keeps PartsOk (fun _ _ => rfl), objInc_keeps PartsOk (fun _ _ => rfl), takeEjected_keeps PartsOk (fun _ _ => rfl)] | split

theorem reduceGrey_partsOk (s : State) (id : ℕ) (level : ℕ) (c : ℕ) (seg : ℕ) (hs : PartsOk s) :
    PartsOk (reduceGrey s id level c seg) := by
  have h0 : ∀ s x0, PartsOk { s with greys := x0 } = PartsOk s := fun s x0 => rfl
  unfold reduceGrey
  repeat' first | with_reducible assumption | with_reducible refine colWrites_partsOk _ _ _ _ _ (fun _ h => ?_) ?_ | with_reducible refine stageOn_partsOk _ _ _ _ _ _ _  ?_ | with_reducible refine closeChunk_partsOk _ _ _  ?_ | with_reducible refine foldlParts _ (fun s a h => ?_) _ _ ?_ | simp only [id_eq, updColl_keeps PartsOk (fun _ _ => rfl), updSlot_keeps PartsOk (fun _ _ => rfl), h0] | split

theorem collExpire_partsOk (s : State) (id : ℕ) (hs : PartsOk s) :
    PartsOk (collExpire s id) := by
  unfold collExpire
  repeat' first | with_reducible assumption | with_reducible refine endColl_partsOk _ _ _  ?_ | with_reducible refine foldlParts _ (fun s a h => ?_) _ _ ?_ | simp only [id_eq, objInc_keeps PartsOk (fun _ _ => rfl)] | split

theorem abortColl_partsOk (s : State) (hs : PartsOk s) :
    PartsOk (abortColl s) := by
  unfold abortColl
  repeat' first | with_reducible assumption | with_reducible refine endColl_partsOk _ _ _  ?_ | with_reducible refine foldlParts _ (fun s a h => ?_) _ _ ?_ | simp only [id_eq, objInc_keeps PartsOk (fun _ _ => rfl), mbxEnd_keeps PartsOk (fun _ _ => rfl)] | split

theorem loseLane_partsOk (s : State) (x : ℕ × ℕ) (hs : PartsOk s) :
    PartsOk (loseLane s x) := by
  unfold loseLane
  repeat' first | with_reducible assumption | with_reducible refine abortTold_partsOk _ _  ?_ | with_reducible refine laneOut_partsOk _ _ _ _ _ _  ?_ | with_reducible refine foldlParts _ (fun s a h => ?_) _ _ ?_ | simp only [id_eq] | split

theorem loseLight_partsOk (s : State) (laser : ℕ) (line : Option ℕ) (hs : PartsOk s) :
    PartsOk (loseLight s laser line) := by
  unfold loseLight
  repeat' first | with_reducible assumption | with_reducible refine loseLane_partsOk _ _  ?_ | with_reducible refine updLaser_partsOk _ _ _  ?_ | with_reducible refine foldlParts _ (fun s a h => ?_) _ _ ?_ | simp only [id_eq, objBit_keeps PartsOk (fun _ _ => rfl), objPut_keeps PartsOk (fun _ _ => rfl), journalAlert_keeps PartsOk (fun _ _ => rfl)] | split

theorem regainLane_partsOk (s : State) (x : ℕ × ℕ) (hs : PartsOk s) :
    PartsOk (regainLane s x) := by
  unfold regainLane
  repeat' first | with_reducible assumption | with_reducible refine startRecovery_partsOk _ _ _ _ _ _  ?_ | with_reducible refine foldlParts _ (fun s a h => ?_) _ _ ?_ | simp only [id_eq] | split

theorem gainLight_partsOk (s : State) (laser : ℕ) (line : Option ℕ) (hs : PartsOk s) :
    PartsOk (gainLight s laser line) := by
  unfold gainLight
  repeat' first | with_reducible assumption | with_reducible refine regainLane_partsOk _ _  ?_ | with_reducible refine updLaser_partsOk _ _ _  ?_ | with_reducible refine foldlParts _ (fun s a h => ?_) _ _ ?_ | simp only [id_eq, objBit_keeps PartsOk (fun _ _ => rfl), objPut_keeps PartsOk (fun _ _ => rfl)] | split

theorem lockIn_partsOk (s : State) (r : ℕ) (err : ℤ) (hs : PartsOk s) :
    PartsOk (lockIn s r err) := by
  unfold lockIn
  repeat' first | with_reducible assumption | with_reducible refine updRing_partsOk _ _ _  ?_ | with_reducible refine foldlParts _ (fun s a h => ?_) _ _ ?_ | simp only [id_eq, freeStep_keeps PartsOk (fun _ _ => rfl)] | split

theorem feedForward_partsOk (s : State) (r : ℕ) (sites : List ℕ) (hs : PartsOk s) :
    PartsOk (feedForward s r sites) := by
  unfold feedForward
  repeat' first | with_reducible assumption | with_reducible refine updRing_partsOk _ _ _  ?_ | with_reducible refine foldlParts _ (fun s a h => ?_) _ _ ?_ | simp only [id_eq] | split

theorem loseLock_partsOk (s : State) (r : ℕ) (hs : PartsOk s) :
    PartsOk (loseLock s r) := by
  unfold loseLock
  repeat' first | with_reducible assumption | with_reducible refine unlockRing_partsOk _ _ _  ?_ | with_reducible refine abortTold_partsOk _ _  ?_ | with_reducible refine startRecovery_partsOk _ _ _ _ _ _  ?_ | with_reducible refine laneOut_partsOk _ _ _ _ _ _  ?_ | with_reducible refine foldlParts _ (fun s a h => ?_) _ _ ?_ | simp only [id_eq, objInc_keeps PartsOk (fun _ _ => rfl)] | split

theorem turnGrey_partsOk (s : State) (x : ℕ) (g : ℕ) (a : ℕ) (hs : PartsOk s) :
    PartsOk (turnGrey s x g a) := by
  unfold turnGrey
  repeat' first | with_reducible assumption | with_reducible refine unlockRing_partsOk _ _ _  ?_ | with_reducible refine updSpec_partsOk _ _ _ _  ?_ | with_reducible refine moveRef_partsOk _ _  ?_ | with_reducible refine updRotor_partsOk _ _ _  ?_ | with_reducible refine foldlParts _ (fun s a h => ?_) _ _ ?_ | simp only [id_eq, objInc_keeps PartsOk (fun _ _ => rfl)] | split

theorem stepRotor_partsOk (s : State) (x : ℕ) (g : ℕ) (x1 : ℕ) (x2 : ℕ) (hs : PartsOk s) :
    PartsOk (stepRotor s x g x1 x2) := by
  fun_induction stepRotor s x g x1 x2
  all_goals repeat' first | with_reducible assumption | with_reducible refine turnGrey_partsOk _ _ _ _  ?_ | with_reducible refine updRotor_partsOk _ _ _  ?_ | with_reducible refine settleLink_partsOk _ _  ?_ | with_reducible refine updLane_partsOk _ _ _ _ _  ?_ | with_reducible refine sendCtl_partsOk _ _ _  ?_ | with_reducible refine foldlParts _ (fun s a h => ?_) _ _ ?_ | simp only [id_eq, objInc_keeps PartsOk (fun _ _ => rfl)] | split | (rename_i ih; with_reducible refine ih ?_) | simp +zetaDelta only [id_eq, objInc_keeps PartsOk (fun _ _ => rfl)]

theorem rotorStep_partsOk (s : State) (x : ℕ) (hs : PartsOk s) :
    PartsOk (rotorStep s x) := by
  unfold rotorStep
  repeat' first | with_reducible assumption | with_reducible refine stepRotor_partsOk _ _ _ _ _  ?_ | with_reducible refine foldlParts _ (fun s a h => ?_) _ _ ?_ | simp only [id_eq] | split

theorem rotorLocked_partsOk (s : State) (x : ℕ) (hs : PartsOk s) :
    PartsOk (rotorLocked s x) := by
  unfold rotorLocked
  repeat' first | with_reducible assumption | with_reducible refine sendCtl_partsOk _ _ _  ?_ | with_reducible refine updRing_partsOk _ _ _  ?_ | with_reducible refine abortRotor_partsOk _ _  ?_ | with_reducible refine updRotor_partsOk _ _ _  ?_ | with_reducible refine foldlParts _ (fun s a h => ?_) _ _ ?_ | simp only [id_eq] | split

theorem rotorLate_partsOk (s : State) (x : ℕ) (hs : PartsOk s) :
    PartsOk (rotorLate s x) := by
  unfold rotorLate
  repeat' first | with_reducible assumption | with_reducible refine abortTold_partsOk _ _  ?_ | with_reducible refine foldlParts _ (fun s a h => ?_) _ _ ?_ | simp only [id_eq] | split

theorem idleSweep_partsOk (s : State) (k : ℕ) (locked : ℕ) (hs : PartsOk s) :
    PartsOk (idleSweep s k locked) := by
  have h0 : ∀ s x0, PartsOk { s with sweptAt := x0 } = PartsOk s := fun s x0 => rfl
  unfold idleSweep
  repeat' first | with_reducible assumption | with_reducible refine updRing_partsOk _ _ _  ?_ | with_reducible refine foldlParts _ (fun s a h => ?_) _ _ ?_ | simp only [id_eq, h0] | split

theorem retrained_partsOk (s : State) (r : ℕ) (t : TrainResult) (hs : PartsOk s) :
    PartsOk (retrained s r t) := by
  have h0 : ∀ s x0, PartsOk { s with recovery := x0 } = PartsOk s := fun s x0 => rfl
  unfold retrained
  repeat' first | with_reducible assumption | with_reducible refine returnLane_partsOk _ _ _ _  ?_ | with_reducible refine refuseSkew_partsOk _ _ _ _  ?_ | with_reducible refine updLane_partsOk _ _ _ _ _  ?_ | with_reducible refine updRing_partsOk _ _ _  ?_ | with_reducible refine lockRing_partsOk _ _ _ _  ?_ | with_reducible refine foldlParts _ (fun s a h => ?_) _ _ ?_ | simp only [id_eq, objPut_keeps PartsOk (fun _ _ => rfl), runTraining_keeps PartsOk (fun _ _ => rfl), h0] | split

theorem recoveryEnd_partsOk (s : State) (r : ℕ) (found : Bool) (t : TrainResult) (hs : PartsOk s) :
    PartsOk (recoveryEnd s r found t) := by
  unfold recoveryEnd
  repeat' first | with_reducible assumption | with_reducible refine retrained_partsOk _ _ _  ?_ | with_reducible refine retireRing_partsOk _ _  ?_ | with_reducible refine updRing_partsOk _ _ _  ?_ | with_reducible refine foldlParts _ (fun s a h => ?_) _ _ ?_ | simp only [id_eq] | split

theorem sendBeacon_partsOk (s : State) (x : ℕ) (j : ℕ) (hs : PartsOk s) :
    PartsOk (sendBeacon s x j) := by
  unfold sendBeacon
  repeat' first | with_reducible assumption | with_reducible refine parkRing_partsOk _ _  ?_ | with_reducible refine foldlParts _ (fun s a h => ?_) _ _ ?_ | simp only [id_eq, dropReports_keeps PartsOk (fun _ _ => rfl), emit_keeps PartsOk (fun _ _ => rfl)] | split

theorem takeReport_partsOk (s : State) (c : ℕ) (r : BeaconReport) (hs : PartsOk s) :
    PartsOk (takeReport s c r) := by
  unfold takeReport
  repeat' first | with_reducible assumption | with_reducible refine updSpec_partsOk _ _ _ _  ?_ | with_reducible refine darkenLine_partsOk _ _ _  ?_ | with_reducible refine foldlParts _ (fun s a h => ?_) _ _ ?_ | simp only [id_eq, journal_keeps PartsOk (fun _ _ => rfl), objInc_keeps PartsOk (fun _ _ => rfl)] | split

theorem takeReports_partsOk (s : State) (c : ℕ) (rs : List BeaconReport) (hs : PartsOk s) :
    PartsOk (takeReports s c rs) := by
  unfold takeReports
  repeat' first | with_reducible assumption | with_reducible refine checkMap_partsOk _  ?_ | with_reducible refine takeReport_partsOk _ _ _  ?_ | with_reducible refine foldlParts _ (fun s a h => ?_) _ _ ?_ | simp only [id_eq, journalMismatches_keeps PartsOk (fun _ _ => rfl)] | split

theorem darkenV1_partsOk (s : State) (c : ℕ) (hs : PartsOk s) :
    PartsOk (darkenV1 s c) := by
  unfold darkenV1
  repeat' first | with_reducible assumption | with_reducible refine darkenLine_partsOk _ _ _  ?_ | with_reducible refine foldlParts _ (fun s a h => ?_) _ _ ?_ | simp only [id_eq, journal_keeps PartsOk (fun _ _ => rfl)] | split

theorem hearBeacon_partsOk (s : State) (k : ℕ) (j : ℕ) (b : Beacon) (hs : PartsOk s) :
    PartsOk (hearBeacon s k j b) := by
  have h0 : ∀ s x0 x1 x2, PartsOk { s with heard := x0, inPeer := x1, peerVer := x2 } = PartsOk s := fun s x0 x1 x2 => rfl
  unfold hearBeacon
  repeat' first | with_reducible assumption | with_reducible refine checkMap_partsOk _  ?_ | with_reducible refine darkenLine_partsOk _ _ _  ?_ | with_reducible refine takeReports_partsOk _ _ _  ?_ | with_reducible refine darkenV1_partsOk _ _  ?_ | with_reducible refine foldlParts _ (fun s a h => ?_) _ _ ?_ | simp only [id_eq, sendReport_keeps PartsOk (fun _ _ => rfl), journalAlert_keeps PartsOk (fun _ _ => rfl), h0] | split

theorem expireEntry_partsOk (s : State) (x : ℕ) (j : ℕ) (hs : PartsOk s) :
    PartsOk (expireEntry s x j) := by
  unfold expireEntry
  repeat' first | with_reducible assumption | with_reducible refine updSpec_partsOk _ _ _ _  ?_ | with_reducible refine foldlParts _ (fun s a h => ?_) _ _ ?_ | simp only [id_eq] | split

theorem setDemand_partsOk (s : State) (image : Bytes) (hs : PartsOk s) :
    PartsOk (setDemand s image) := by
  have h0 : ∀ s x0, PartsOk { s with demand := x0 } = PartsOk s := fun s x0 => rfl
  unfold setDemand
  repeat' first | with_reducible assumption | with_reducible refine darkenSurplus_partsOk _ _  ?_ | with_reducible refine foldlParts _ (fun s a h => ?_) _ _ ?_ | simp only [id_eq, h0] | split

theorem sendLineRequest_partsOk (s : State) (x : ℕ) (j : ℕ) (hs : PartsOk s) :
    PartsOk (sendLineRequest s x j) := by
  unfold sendLineRequest
  repeat' first | with_reducible assumption | with_reducible refine requestLine_partsOk _ _ _  ?_ | with_reducible refine foldlParts _ (fun s a h => ?_) _ _ ?_ | simp only [id_eq] | split

theorem takeLineRequest_partsOk (s : State) (c : ℕ) (x : ℕ) (j : ℕ) (k : ℕ) (hs : PartsOk s) :
    PartsOk (takeLineRequest s c x j k) := by
  have h0 : ∀ s x0 x1 x2, PartsOk { s with inPeer := x0, inGrant := x1, backDue := x2 } = PartsOk s := fun s x0 x1 x2 => rfl
  unfold takeLineRequest
  repeat' first | with_reducible assumption | with_reducible refine requestLine_partsOk _ _ _  ?_ | with_reducible refine foldlParts _ (fun s a h => ?_) _ _ ?_ | simp only [id_eq, emit_keeps PartsOk (fun _ _ => rfl), h0] | split

theorem takeGrant_partsOk (s : State) (x : ℕ) (j : ℕ) (t : TrainResult) (hs : PartsOk s) :
    PartsOk (takeGrant s x j t) := by
  have h0 : ∀ s x0, PartsOk { s with reassign := x0 } = PartsOk s := fun s x0 => rfl
  unfold takeGrant
  repeat' first | with_reducible assumption | with_reducible refine refuseSkew_partsOk _ _ _ _  ?_ | with_reducible refine updSpec_partsOk _ _ _ _  ?_ | with_reducible refine admitNew_partsOk _ _ _ _ _  ?_ | with_reducible refine failTraining_partsOk _ _ _ _  ?_ | with_reducible refine foldlParts _ (fun s a h => ?_) _ _ ?_ | simp only [id_eq, objInc_keeps PartsOk (fun _ _ => rfl), runTraining_keeps PartsOk (fun _ _ => rfl), h0] | split

theorem takeRefusal_partsOk (s : State) (x : ℕ) (j : ℕ) (hs : PartsOk s) :
    PartsOk (takeRefusal s x j) := by
  have h0 : ∀ s x0 x1, PartsOk { s with reassign := x0, backDue := x1 } = PartsOk s := fun s x0 x1 => rfl
  unfold takeRefusal
  repeat' first | with_reducible assumption | with_reducible refine updSpec_partsOk _ _ _ _  ?_ | with_reducible refine foldlParts _ (fun s a h => ?_) _ _ ?_ | simp only [id_eq, objInc_keeps PartsOk (fun _ _ => rfl), h0] | split

theorem routeMgmt_partsOk (s : State) (h : Half) (x : Held) (hs : PartsOk s) :
    PartsOk (routeMgmt s h x) := by
  unfold routeMgmt
  repeat' first | with_reducible assumption | with_reducible refine dropPacket_partsOk _ _ _ _ _  ?_ | with_reducible refine leaveRouter_partsOk _ _ _  ?_ | with_reducible refine sendOn_partsOk _ _ _ _ _  ?_ | with_reducible refine served_partsOk _ _ _ _ ?_ _ ‹served _ _ _ _ = some _› | with_reducible refine takeReports_partsOk _ _ _  ?_ | with_reducible refine foldlParts _ (fun s a h => ?_) _ _ ?_ | simp only [id_eq, objInc_keeps PartsOk (fun _ _ => rfl), updHeld_keeps PartsOk (fun _ _ => rfl)] | split

theorem mcastSide_partsOk (s : State) (h : Half) (x : Held) (todo : Bool) (link : Option ℕ) (lo : ℕ) (hi : ℕ) (hs : PartsOk s) :
    PartsOk (mcastSide s h x todo link lo hi).1 := by
  unfold mcastSide
  repeat' first | with_reducible assumption | with_reducible refine served_partsOk _ _ _ _ ?_ _ ‹served _ _ _ _ = some _› | with_reducible refine sendCopy_partsOk _ _ _ _ _  ?_ | with_reducible refine foldlParts _ (fun s a h => ?_) _ _ ?_ | simp only [id_eq, mcastShort_keeps PartsOk (fun _ _ => rfl), objInc_keeps PartsOk (fun _ _ => rfl)] | split

theorem routeMcast_partsOk (s : State) (h : Half) (x : Held) (hs : PartsOk s) :
    PartsOk (routeMcast s h x) := by
  unfold routeMcast
  repeat' first | with_reducible assumption | with_reducible refine mcastSide_partsOk _ _ _ _ _ _ _  ?_ | with_reducible refine leaveRouter_partsOk _ _ _  ?_ | with_reducible refine foldlParts _ (fun s a h => ?_) _ _ ?_ | (have e := congrArg Prod.fst ‹mcastSide _ _ _ _ _ _ _ = _›; dsimp only at e; rw [← e]; refine mcastSide_partsOk _ _ _ _ _ _ _ ?_) | simp only [id_eq, ejectTo_keeps PartsOk (fun _ _ => rfl), updHeld_keeps PartsOk (fun _ _ => rfl)] | split

theorem routeChosen_partsOk (s : State) (h : Half) (x : Held) (hs : PartsOk s) :
    PartsOk (routeChosen s h x) := by
  unfold routeChosen
  repeat' first | with_reducible assumption | with_reducible refine dropPacket_partsOk _ _ _ _ _  ?_ | with_reducible refine sendOn_partsOk _ _ _ _ _  ?_ | with_reducible refine served_partsOk _ _ _ _ ?_ _ ‹served _ _ _ _ = some _› | with_reducible refine foldlParts _ (fun s a h => ?_) _ _ ?_ | simp only [id_eq, objInc_keeps PartsOk (fun _ _ => rfl), updHeld_keeps PartsOk (fun _ _ => rfl)] | split

theorem routePacket_partsOk (s : State) (h : Half) (id : ℕ) (hs : PartsOk s) :
    PartsOk (routePacket s h id) := by
  unfold routePacket
  repeat' first | with_reducible assumption | with_reducible refine dropPacket_partsOk _ _ _ _ _  ?_ | with_reducible refine routeMgmt_partsOk _ _ _  ?_ | with_reducible refine leaveRouter_partsOk _ _ _  ?_ | with_reducible refine routeChosen_partsOk _ _ _  ?_ | with_reducible refine routeMcast_partsOk _ _ _  ?_ | with_reducible refine foldlParts _ (fun s a h => ?_) _ _ ?_ | simp only [id_eq, ejectTo_keeps PartsOk (fun _ _ => rfl), objInc_keeps PartsOk (fun _ _ => rfl), updHeld_keeps PartsOk (fun _ _ => rfl)] | split

theorem escapeExpire_partsOk (s : State) (h : Half) (id : ℕ) (hs : PartsOk s) :
    PartsOk (escapeExpire s h id) := by
  unfold escapeExpire
  repeat' first | with_reducible assumption | with_reducible refine dropPacket_partsOk _ _ _ _ _  ?_ | with_reducible refine routeChosen_partsOk _ _ _  ?_ | with_reducible refine foldlParts _ (fun s a h => ?_) _ _ ?_ | simp only [id_eq] | split

theorem readVariant_partsOk (s : State) (q : ℕ) (addr : ℕ) (seq : ℕ) (list : List Fetch) (x1 : ℕ) (hs : PartsOk s) :
    PartsOk (readVariant s q addr seq list x1) := by
  fun_induction readVariant s q addr seq list x1
  all_goals repeat' first | with_reducible assumption | with_reducible refine unreadable_partsOk _ _ _ _  ?_ | with_reducible refine foldlParts _ (fun s a h => ?_) _ _ ?_ | (have e := congrArg Prod.fst ‹readClean _ _ _ _ = _›; dsimp only at e; rw [← e]; refine cast (readClean_keeps PartsOk (fun _ _ => rfl) _ _ _ _).symm ?_) | simp only [id_eq, addFetched_keeps PartsOk (fun _ _ => rfl), readClean_keeps PartsOk (fun _ _ => rfl)] | split | (rename_i ih; with_reducible refine ih ?_) | simp +zetaDelta only [id_eq, addFetched_keeps PartsOk (fun _ _ => rfl), readClean_keeps PartsOk (fun _ _ => rfl)]

theorem startAttempt_partsOk (s : State) (l : Layer) (list : List Fetch) (hs : PartsOk s) :
    PartsOk (startAttempt s l list) := by
  have h0 : ∀ s x0, PartsOk { s with layers := x0 } = PartsOk s := fun s x0 => rfl
  unfold startAttempt
  repeat' first | with_reducible assumption | with_reducible refine readVariant_partsOk _ _ _ _ _ _  ?_ | with_reducible refine foldlParts _ (fun s a h => ?_) _ _ ?_ | simp only [id_eq, updQ_keeps PartsOk (fun _ _ => rfl), h0] | split

theorem openLayer_partsOk (s : State) (q : ℕ) (f : Fetched) (list : List Fetch) (hs : PartsOk s) :
    PartsOk (openLayer s q f list) := by
  unfold openLayer
  repeat' first | with_reducible assumption | with_reducible refine rejectDesc_partsOk _ _ _ _  ?_ | with_reducible refine startAttempt_partsOk _ _ _  ?_ | with_reducible refine foldlParts _ (fun s a h => ?_) _ _ ?_ | simp only [id_eq, updQ_keeps PartsOk (fun _ _ => rfl)] | split

theorem layerOpenAt_partsOk (s : State) (q : ℕ) (list : List Fetch) (hs : PartsOk s) :
    PartsOk (layerOpenAt s q list) := by
  unfold layerOpenAt
  repeat' first | with_reducible assumption | with_reducible refine openLayer_partsOk _ _ _ _  ?_ | with_reducible refine readPastDim_partsOk _ _ _ _ _ (fun _ h => ?_) ?_ | with_reducible refine foldlParts _ (fun s a h => ?_) _ _ ?_ | (have e := congrArg Prod.fst ‹schedReady _ _ _ _ = _›; dsimp only at e; rw [← e]; refine cast (schedReady_keeps PartsOk (fun _ _ => rfl) _ _ _ _).symm ?_) | simp only [id_eq, schedReady_keeps PartsOk (fun _ _ => rfl), setTodo_keeps PartsOk (fun _ _ => rfl)] | split

theorem publish_partsOk (s : State) (l : Layer) (hs : PartsOk s) :
    PartsOk (publish s l) := by
  have h0 : ∀ s x0, PartsOk { s with layers := x0 } = PartsOk s := fun s x0 => rfl
  unfold publish
  repeat' first | with_reducible assumption | with_reducible refine completeDesc_partsOk _ _  ?_ | with_reducible refine foldlParts _ (fun s a h => ?_) _ _ ?_ | simp only [id_eq, journal_keeps PartsOk (fun _ _ => rfl), objInc_keeps PartsOk (fun _ _ => rfl), escUpdate_keeps PartsOk (fun _ _ => rfl), h0] | split

theorem repeatLayer_partsOk (s : State) (l : Layer) (list : List Fetch) (hs : PartsOk s) :
    PartsOk (repeatLayer s l list) := by
  unfold repeatLayer
  repeat' first | with_reducible assumption | with_reducible refine startAttempt_partsOk _ _ _  ?_ | with_reducible refine foldlParts _ (fun s a h => ?_) _ _ ?_ | simp only [id_eq, objAdd_keeps PartsOk (fun _ _ => rfl), writeBack_keeps PartsOk (fun _ _ => rfl)] | split

theorem attemptEnd_partsOk (s : State) (q : ℕ) (list : List Fetch) (hs : PartsOk s) :
    PartsOk (attemptEnd s q list) := by
  unfold attemptEnd
  repeat' first | with_reducible assumption | with_reducible refine repeatLayer_partsOk _ _ _  ?_ | with_reducible refine publish_partsOk _ _  ?_ | with_reducible refine readPastDim_partsOk _ _ _ _ _ (fun _ h => ?_) ?_ | with_reducible refine foldlParts _ (fun s a h => ?_) _ _ ?_ | simp only [id_eq] | split

theorem poisonRead_partsOk (cause : ℕ) (s : State) (x : ℕ × StreamCtx × Req) (hs : PartsOk s) :
    PartsOk (poisonRead cause s x) := by
  have h0 : ∀ s x0, PartsOk { s with free := x0 } = PartsOk s := fun s x0 => rfl
  unfold poisonRead
  repeat' first | with_reducible assumption | with_reducible refine updCtx_partsOk _ _ _ _ _  ?_ | with_reducible refine inPhase_partsOk _ _ _ _ _  ?_ | with_reducible refine dropReads_partsOk _ _ _ _  ?_ | with_reducible refine foldlParts _ (fun s a h => ?_) _ _ ?_ | simp only [id_eq, tallied_keeps PartsOk (fun _ _ => rfl), h0] | split

theorem poisonReads_partsOk (s : State) (pick : ℕ → StreamCtx → Req → Bool) (cause : ℕ) (hs : PartsOk s) :
    PartsOk (poisonReads s pick cause) := by
  unfold poisonReads
  repeat' first | with_reducible assumption | with_reducible refine poisonRead_partsOk _ _ _  ?_ | with_reducible refine foldlParts _ (fun s a h => ?_) _ _ ?_ | simp only [id_eq] | split

theorem stopDesc_partsOk (s : State) (d : Done) (hs : PartsOk s) :
    PartsOk (stopDesc s d) := by
  unfold stopDesc
  repeat' first | with_reducible assumption | with_reducible refine writeRecord_partsOk _ _ _  ?_ | with_reducible refine foldlParts _ (fun s a h => ?_) _ _ ?_ | simp only [id_eq, updQ_keeps PartsOk (fun _ _ => rfl)] | split

theorem clearEngines_partsOk (s : State) (hs : PartsOk s) :
    PartsOk (clearEngines s) := by
  have h0 : ∀ s x0 x1 x2 x3 x4 x5 x6 x7 x8 x9 x10, PartsOk { s with layers := x0, claims := x1, waitClaims := x2, spills := x3, queues := x4, waiters := x5, outst := x6, colls := x7, slots := x8, greys := x9, pendColls := x10 } = PartsOk s := fun s x0 x1 x2 x3 x4 x5 x6 x7 x8 x9 x10 => rfl
  unfold clearEngines
  repeat' first | with_reducible assumption | with_reducible refine foldlParts _ (fun s a h => ?_) _ _ ?_ | simp only [id_eq, h0] | split | exact partsOk_of ‹PartsOk _› (by simp [lens, modifyAt])

theorem haltEngines_partsOk (s : State) (status : ℕ) (hs : PartsOk s) :
    PartsOk (haltEngines s status) := by
  unfold haltEngines
  repeat' first | with_reducible assumption | with_reducible refine stopDesc_partsOk _ _  ?_ | with_reducible refine clearEngines_partsOk _  ?_ | with_reducible refine foldlParts _ (fun s a h => ?_) _ _ ?_ | simp only [id_eq, haltQueues_keeps PartsOk (fun _ _ => rfl)] | split

theorem deliverFlit_partsOk (s : State) (x1 : BridgeFlit) (hs : PartsOk s) :
    PartsOk (deliverFlit s x1) := by
  unfold deliverFlit
  repeat' first | with_reducible assumption | with_reducible refine localPut_partsOk _ _ _ _ _  ?_ | with_reducible refine linkSend_partsOk _ _ _  ?_ | with_reducible refine foldlParts _ (fun s a h => ?_) _ _ ?_ | simp only [id_eq, reinject_keeps PartsOk (fun _ _ => rfl), putEjected_keeps PartsOk (fun _ _ => rfl), updBridge_keeps PartsOk (fun _ _ => rfl)] | split

theorem bridgeFlit_partsOk (s : State) (b : ℕ) (f : BridgeFlit) (crcOk : Bool) (hs : PartsOk s) :
    PartsOk (bridgeFlit s b f crcOk) := by
  unfold bridgeFlit
  repeat' first | with_reducible assumption | with_reducible refine deliverFlit_partsOk _ _  ?_ | with_reducible refine foldlParts _ (fun s a h => ?_) _ _ ?_ | simp only [id_eq, objInc_keeps PartsOk (fun _ _ => rfl), updBridge_keeps PartsOk (fun _ _ => rfl)] | split

theorem bridgeFails_partsOk (s : State) (hs : PartsOk s) :
    PartsOk (bridgeFails s) := by
  unfold bridgeFails
  repeat' first | with_reducible assumption | with_reducible refine haltEngines_partsOk _ _  ?_ | with_reducible refine greyAll_partsOk _ _  ?_ | with_reducible refine poisonReads_partsOk _ _ _  ?_ | with_reducible refine foldlParts _ (fun s a h => ?_) _ _ ?_ | simp only [id_eq, journal_keeps PartsOk (fun _ _ => rfl), objPut_keeps PartsOk (fun _ _ => rfl), updBridge_keeps PartsOk (fun _ _ => rfl)] | split

theorem retireBundle_partsOk (s : State) (b : ℕ) (hs : PartsOk s) :
    PartsOk (retireBundle s b) := by
  unfold retireBundle
  repeat' first | with_reducible assumption | with_reducible refine bridgeFails_partsOk _  ?_ | with_reducible refine foldlParts _ (fun s a h => ?_) _ _ ?_ | simp only [id_eq, objBit_keeps PartsOk (fun _ _ => rfl), objPut_keeps PartsOk (fun _ _ => rfl), journalAlert_keeps PartsOk (fun _ _ => rfl), moveFlits_keeps PartsOk (fun _ _ => rfl)] | split

theorem serveLoad_partsOk (s : State) (p : Packet) (ev : List LineEvent) (hs : PartsOk s) :
    PartsOk (serveLoad s p ev) := by
  unfold serveLoad
  repeat' first | with_reducible assumption | with_reducible refine linesFound_partsOk _ _ _  ?_ | with_reducible refine serveRequest_partsOk _ _ _ _ _ _ _ (fun _ _ h => ?_) ?_ | with_reducible refine foldlParts _ (fun s a h => ?_) _ _ ?_ | simp only [id_eq, replyTo_keeps PartsOk (fun _ _ => rfl), afterRead_keeps PartsOk (fun _ _ => rfl), countReserved_keeps PartsOk (fun _ _ => rfl)] | split

theorem serveStore_partsOk (s : State) (p : Packet) (hs : PartsOk s) :
    PartsOk (serveStore s p) := by
  unfold serveStore
  repeat' first | with_reducible assumption | with_reducible refine localPut_partsOk _ _ _ _ _  ?_ | with_reducible refine serveRequest_partsOk _ _ _ _ _ _ _ (fun _ _ h => ?_) ?_ | with_reducible refine foldlParts _ (fun s a h => ?_) _ _ ?_ | simp only [id_eq, replyTo_keeps PartsOk (fun _ _ => rfl), touchWord_keeps PartsOk (fun _ _ => rfl)] | split

theorem serveAtomic_partsOk (s : State) (p : Packet) (ev : List LineEvent) (hs : PartsOk s) :
    PartsOk (serveAtomic s p ev) := by
  unfold serveAtomic
  repeat' first | with_reducible assumption | with_reducible refine sequenced_partsOk _ _ _ _ _ _ (fun _ h => ?_) ?_ | with_reducible refine linesFound_partsOk _ _ _  ?_ | with_reducible refine atomicAt_partsOk _ _ _ _ _ _  ?_ | with_reducible refine serveRequest_partsOk _ _ _ _ _ _ _ (fun _ _ h => ?_) ?_ | with_reducible refine foldlParts _ (fun s a h => ?_) _ _ ?_ | simp only [id_eq, replyTo_keeps PartsOk (fun _ _ => rfl), countAddrError_keeps PartsOk (fun _ _ => rfl)] | split

theorem serveSignal_partsOk (s : State) (p : Packet) (hs : PartsOk s) :
    PartsOk (serveSignal s p) := by
  unfold serveSignal
  repeat' first | with_reducible assumption | with_reducible refine sequenced_partsOk _ _ _ _ _ _ (fun _ h => ?_) ?_ | with_reducible refine serveRequest_partsOk _ _ _ _ _ _ _ (fun _ _ h => ?_) ?_ | with_reducible refine foldlParts _ (fun s a h => ?_) _ _ ?_ | simp only [id_eq, replyTo_keeps PartsOk (fun _ _ => rfl), syncAdd_keeps PartsOk (fun _ _ => rfl), countAddrError_keeps PartsOk (fun _ _ => rfl)] | split

theorem takeReply_partsOk (s : State) (p : Packet) (hs : PartsOk s) :
    PartsOk (takeReply s p) := by
  unfold takeReply
  repeat' first | with_reducible assumption | with_reducible refine answer_partsOk _ _ _ _ _  ?_ | with_reducible refine foldlParts _ (fun s a h => ?_) _ _ ?_ | simp only [id_eq, echoFrom_keeps PartsOk (fun _ _ => rfl), objInc_keeps PartsOk (fun _ _ => rfl), takeEjected_keeps PartsOk (fun _ _ => rfl)] | split

theorem replyLate_partsOk (s : State) (tag : ℕ) (hs : PartsOk s) :
    PartsOk (replyLate s tag) := by
  unfold replyLate
  repeat' first | with_reducible assumption | with_reducible refine answer_partsOk _ _ _ _ _  ?_ | with_reducible refine foldlParts _ (fun s a h => ?_) _ _ ?_ | simp only [id_eq, objInc_keeps PartsOk (fun _ _ => rfl)] | split

theorem rciRun_partsOk (q : ℕ) (s : State) (f : Fetched) (hs : PartsOk s) :
    PartsOk (rciRun q s f) := by
  unfold rciRun
  repeat' first | with_reducible assumption | with_reducible refine rejectDesc_partsOk _ _ _ _  ?_ | with_reducible refine completeDesc_partsOk _ _  ?_ | with_reducible refine foldlParts _ (fun s a h => ?_) _ _ ?_ | simp only [id_eq, objInc_keeps PartsOk (fun _ _ => rfl), rciHalf_keeps PartsOk (fun _ _ => rfl), updQ_keeps PartsOk (fun _ _ => rfl)] | split

theorem bar0Page_partsOk (s : State) (off : ℕ) (size : ℕ) (v : ℕ) (hs : PartsOk s) :
    PartsOk (bar0Page s off size v) := by
  unfold bar0Page
  repeat' first | with_reducible assumption | with_reducible refine hostPage_partsOk _ _ _ _  ?_ | with_reducible refine foldlParts _ (fun s a h => ?_) _ _ ?_ | simp only [id_eq] | split

theorem writeSegment_partsOk (s : State) (x : Xfer) (off : ℕ) (data : Bytes) (hs : PartsOk s) :
    PartsOk (writeSegment s x off data) := by
  unfold writeSegment
  repeat' first | with_reducible assumption | with_reducible refine writeBytes_partsOk _ _ _ _  ?_ | with_reducible refine foldlParts _ (fun s a h => ?_) _ _ ?_ | simp only [id_eq, updXfer_keeps PartsOk (fun _ _ => rfl)] | split

theorem dpPut_partsOk (s : State) (off : ℕ) (first : ℕ) (data : Bytes) (poison : Bool) (hs : PartsOk s) :
    PartsOk (dpPut s off first data poison) := by
  unfold dpPut
  repeat' first | with_reducible assumption | with_reducible refine localPut_partsOk _ _ _ _ _  ?_ | with_reducible refine foldlParts _ (fun s a h => ?_) _ _ ?_ | simp only [id_eq] | split

theorem dpGet_partsOk (s : State) (off : ℕ) (first : ℕ) (n : ℕ) (ev : List LineEvent) (hs : PartsOk s) :
    PartsOk (dpGet s off first n ev) := by
  unfold dpGet
  repeat' first | with_reducible assumption | with_reducible refine linesFound_partsOk _ _ _  ?_ | with_reducible refine foldlParts _ (fun s a h => ?_) _ _ ?_ | simp only [id_eq, updHost_keeps PartsOk (fun _ _ => rfl), afterRead_keeps PartsOk (fun _ _ => rfl), emit_keeps PartsOk (fun _ _ => rfl)] | split

theorem serveHost_partsOk (s : State) (w : PortWait) (hs : PartsOk s) :
    PartsOk (serveHost s w) := by
  unfold serveHost
  repeat' first | with_reducible assumption | with_reducible refine dpGet_partsOk _ _ _ _ _  ?_ | with_reducible refine dpPut_partsOk _ _ _ _ _  ?_ | with_reducible refine linesFound_partsOk _ _ _  ?_ | with_reducible refine writeLine_partsOk _ _ _ _ _  ?_ | with_reducible refine writeBytes_partsOk _ _ _ _  ?_ | with_reducible refine foldlParts _ (fun s a h => ?_) _ _ ?_ | simp only [id_eq, openData_keeps PartsOk (fun _ _ => rfl), track_keeps PartsOk (fun _ _ => rfl), updHost_keeps PartsOk (fun _ _ => rfl), objInc_keeps PartsOk (fun _ _ => rfl), afterRead_keeps PartsOk (fun _ _ => rfl), emit_keeps PartsOk (fun _ _ => rfl)] | split

theorem hostAccess_partsOk (s : State) (w : PortWait) (hs : PartsOk s) :
    PartsOk (hostAccess s w) := by
  unfold hostAccess
  repeat' first | with_reducible assumption | with_reducible refine serveHost_partsOk _ _  ?_ | with_reducible refine foldlParts _ (fun s a h => ?_) _ _ ?_ | simp only [id_eq, objInc_keeps PartsOk (fun _ _ => rfl), parkHost_keeps PartsOk (fun _ _ => rfl)] | split

theorem hostSettle_partsOk (s : State) (hs : PartsOk s) :
    PartsOk (hostSettle s) := by
  unfold hostSettle
  repeat' first | with_reducible assumption | with_reducible refine serveHost_partsOk _ _  ?_ | with_reducible refine foldlParts _ (fun s a h => ?_) _ _ ?_ | simp only [id_eq, updHost_keeps PartsOk (fun _ _ => rfl), parkHost_keeps PartsOk (fun _ _ => rfl)] | split

theorem portAccess_partsOk (s : State) (off : ℕ) (write : Option (Bytes × Bool)) (first : ℕ) (n : ℕ) (ev : List LineEvent) (hs : PartsOk s) :
    PartsOk (portAccess s off write first n ev) := by
  unfold portAccess
  repeat' first | with_reducible assumption | with_reducible refine hostAccess_partsOk _ _  ?_ | with_reducible refine foldlParts _ (fun s a h => ?_) _ _ ?_ | simp only [id_eq, backInvalidate_keeps PartsOk (fun _ _ => rfl), parkHost_keeps PartsOk (fun _ _ => rfl)] | split

theorem dataWrite_partsOk (s : State) (first : ℕ) (data : Bytes) (poison : Bool) (hs : PartsOk s) :
    PartsOk (dataWrite s first data poison) := by
  unfold dataWrite
  repeat' first | with_reducible assumption | with_reducible refine portAccess_partsOk _ _ _ _ _ _  ?_ | with_reducible refine writeSegment_partsOk _ _ _ _  ?_ | with_reducible refine foldlParts _ (fun s a h => ?_) _ _ ?_ | simp only [id_eq, dpAdvance_keeps PartsOk (fun _ _ => rfl), countReserved_keeps PartsOk (fun _ _ => rfl), addrErr_keeps PartsOk (fun _ _ => rfl)] | split

theorem dataRead_partsOk (s : State) (first : ℕ) (n : ℕ) (ev : List LineEvent) (hs : PartsOk s) :
    PartsOk (dataRead s first n ev) := by
  unfold dataRead
  repeat' first | with_reducible assumption | with_reducible refine portAccess_partsOk _ _ _ _ _ _  ?_ | with_reducible refine foldlParts _ (fun s a h => ?_) _ _ ?_ | simp only [id_eq, updXfer_keeps PartsOk (fun _ _ => rfl), dpAdvance_keeps PartsOk (fun _ _ => rfl), emit_keeps PartsOk (fun _ _ => rfl), countReserved_keeps PartsOk (fun _ _ => rfl), addrErr_keeps PartsOk (fun _ _ => rfl)] | split

theorem bar0Write_partsOk (s : State) (off : ℕ) (size : ℕ) (v : ℕ) (hs : PartsOk s) :
    PartsOk (bar0Write s off size v) := by
  unfold bar0Write
  repeat' first | with_reducible assumption | with_reducible refine dataWrite_partsOk _ _ _ _  ?_ | with_reducible refine bar0Page_partsOk _ _ _ _  ?_ | with_reducible refine foldlParts _ (fun s a h => ?_) _ _ ?_ | simp only [id_eq, dpWrite_keeps PartsOk (fun _ _ => rfl), mbxWrite_keeps PartsOk (fun _ _ => rfl), msixWrite_keeps PartsOk (fun _ _ => rfl)] | split

theorem bar2_partsOk (s : State) (off : ℕ) (a : HostAccess) (hs : PartsOk s) :
    PartsOk (bar2 s off a) := by
  unfold bar2
  repeat' first | with_reducible assumption | with_reducible refine hostAccess_partsOk _ _  ?_ | with_reducible refine foldlParts _ (fun s a h => ?_) _ _ ?_ | simp only [id_eq, openData_keeps PartsOk (fun _ _ => rfl), countAddrError_keeps PartsOk (fun _ _ => rfl)] | split

theorem drainAll_partsOk (s : State) (hs : PartsOk s) :
    PartsOk (drainAll s) := by
  unfold drainAll
  repeat' first | with_reducible assumption | with_reducible refine drainRing_partsOk _ _ _  ?_ | with_reducible refine foldlParts _ (fun s a h => ?_) _ _ ?_ | simp only [id_eq] | split

theorem bisnpAnswered_partsOk (s : State) (line : ℕ) (hs : PartsOk s) :
    PartsOk (bisnpAnswered s line) := by
  unfold bisnpAnswered
  repeat' first | with_reducible assumption | with_reducible refine drainAll_partsOk _  ?_ | with_reducible refine hostSettle_partsOk _  ?_ | with_reducible refine foldlParts _ (fun s a h => ?_) _ _ ?_ | simp only [id_eq, updHost_keeps PartsOk (fun _ _ => rfl)] | split

theorem bisnpLate_partsOk (s : State) (line : ℕ) (hs : PartsOk s) :
    PartsOk (bisnpLate s line) := by
  unfold bisnpLate
  repeat' first | with_reducible assumption | with_reducible refine drainAll_partsOk _  ?_ | with_reducible refine foldlParts _ (fun s a h => ?_) _ _ ?_ | simp only [id_eq, updHost_keeps PartsOk (fun _ _ => rfl), objInc_keeps PartsOk (fun _ _ => rfl), dpFailed_keeps PartsOk (fun _ _ => rfl)] | split

theorem failHostReqs_partsOk (s : State) (hs : PartsOk s) :
    PartsOk (failHostReqs s) := by
  unfold failHostReqs
  repeat' first | with_reducible assumption | with_reducible refine finishReq_partsOk _ _ _ _ _  ?_ | with_reducible refine foldlParts _ (fun s a h => ?_) _ _ ?_ | simp only [id_eq] | split

theorem cancelColls_partsOk (s : State) (hs : PartsOk s) :
    PartsOk (cancelColls s) := by
  unfold cancelColls
  repeat' first | with_reducible assumption | with_reducible refine endColl_partsOk _ _ _  ?_ | with_reducible refine foldlParts _ (fun s a h => ?_) _ _ ?_ | simp only [id_eq] | split

theorem hostReset_partsOk (s : State) (hs : PartsOk s) :
    PartsOk (hostReset s) := by
  have h0 : ∀ s x0, PartsOk { s with windows := x0 } = PartsOk s := fun s x0 => rfl
  unfold hostReset
  repeat' first | with_reducible assumption | with_reducible refine hostSettle_partsOk _  ?_ | with_reducible refine abortQueue_partsOk _ _  ?_ | with_reducible refine cancelColls_partsOk _  ?_ | with_reducible refine failHostReqs_partsOk _  ?_ | with_reducible refine foldlParts _ (fun s a h => ?_) _ _ ?_ | simp only [id_eq, atsSettle_keeps PartsOk (fun _ _ => rfl), updHost_keeps PartsOk (fun _ _ => rfl), h0] | split

theorem scrubNext_partsOk (s : State) (slice : ℕ) (hs : PartsOk s) :
    PartsOk (scrubNext s slice) := by
  have h0 : ∀ s x0, PartsOk { s with scrubWrap := x0 } = PartsOk s := fun s x0 => rfl
  unfold scrubNext
  repeat' first | with_reducible assumption | with_reducible refine foldlParts _ (fun s a h => ?_) _ _ ?_ | simp only [id_eq, objInc_keeps PartsOk (fun _ _ => rfl), h0] | split | exact partsOk_of ‹PartsOk _› (by simp [lens, modifyAt])

theorem scrubTile_partsOk (s : State) (slice : ℕ) (w0 : Ecc) (w1 : Ecc) (hs : PartsOk s) :
    PartsOk (scrubTile s slice w0 w1) := by
  have h0 : ∀ s x0, PartsOk { s with tilePoison := x0 } = PartsOk s := fun s x0 => rfl
  unfold scrubTile
  repeat' first | with_reducible assumption | with_reducible refine scrubNext_partsOk _ _  ?_ | with_reducible refine foldlParts _ (fun s a h => ?_) _ _ ?_ | simp only [id_eq, scrubWord_keeps PartsOk (fun _ _ => rfl), remapLine_keeps PartsOk (fun _ _ => rfl), objInc_keeps PartsOk (fun _ _ => rfl), h0] | split

theorem setChan_partsOk (s : State) (ch : ℕ) (st : ℕ) (hs : PartsOk s) :
    PartsOk (setChan s ch st) := by
  unfold setChan
  repeat' first | with_reducible assumption | with_reducible refine updChan_partsOk _ _ _  ?_ | with_reducible refine foldlParts _ (fun s a h => ?_) _ _ ?_ | simp only [id_eq, settleMem_keeps PartsOk (fun _ _ => rfl), objAdd_keeps PartsOk (fun _ _ => rfl), objPut_keeps PartsOk (fun _ _ => rfl)] | split

theorem decodeLines_partsOk (s : State) (line : ℕ) (x1 : List Ecc) (hs : PartsOk s) :
    PartsOk (decodeLines s line x1) := by
  fun_induction decodeLines s line x1
  all_goals repeat' first | with_reducible assumption | with_reducible refine readDecoded_partsOk _ _ _  ?_ | with_reducible refine foldlParts _ (fun s a h => ?_) _ _ ?_ | simp only [id_eq] | split | (rename_i ih; with_reducible refine ih ?_) | simp +zetaDelta only [id_eq]

theorem serveChannel_partsOk (s : State) (ch : ℕ) (es : List Ecc) (hs : PartsOk s) :
    PartsOk (serveChannel s ch es) := by
  unfold serveChannel
  repeat' first | with_reducible assumption | with_reducible refine updChan_partsOk _ _ _  ?_ | with_reducible refine decodeLines_partsOk _ _ _  ?_ | with_reducible refine foldlParts _ (fun s a h => ?_) _ _ ?_ | simp only [id_eq] | split

theorem chanTemp_partsOk (t : ℤ) (s : State) (ch : ℕ) (hs : PartsOk s) :
    PartsOk (chanTemp t s ch) := by
  unfold chanTemp
  repeat' first | with_reducible assumption | with_reducible refine updChan_partsOk _ _ _  ?_ | with_reducible refine setChan_partsOk _ _ _  ?_ | with_reducible refine foldlParts _ (fun s a h => ?_) _ _ ?_ | simp only [id_eq] | split

theorem packageTemp_partsOk (s : State) (pkg : ℕ) (t : ℤ) (hs : PartsOk s) :
    PartsOk (packageTemp s pkg t) := by
  unfold packageTemp
  repeat' first | with_reducible assumption | with_reducible refine chanTemp_partsOk _ _ _  ?_ | with_reducible refine foldlParts _ (fun s a h => ?_) _ _ ?_ | simp only [id_eq, objPut_keeps PartsOk (fun _ _ => rfl)] | split | exact partsOk_of ‹PartsOk _› (by simp [lens, modifyAt])

theorem overtemp_partsOk (s : State) (ch : ℕ) (hs : PartsOk s) :
    PartsOk (overtemp s ch) := by
  unfold overtemp
  repeat' first | with_reducible assumption | with_reducible refine updChan_partsOk _ _ _  ?_ | with_reducible refine foldlParts _ (fun s a h => ?_) _ _ ?_ | simp only [id_eq, journalAlert_keeps PartsOk (fun _ _ => rfl)] | split

theorem scrubLpddrLine_partsOk (s : State) (line : ℕ) (e : Ecc) (hs : PartsOk s) :
    PartsOk (scrubLpddrLine s line e) := by
  have h0 : ∀ s x0 x1, PartsOk { s with lpddrPoison := x0, lpddrBad := x1 } = PartsOk s := fun s x0 x1 => rfl
  unfold scrubLpddrLine
  repeat' first | with_reducible assumption | with_reducible refine noteRow_partsOk _ _ _  ?_ | with_reducible refine noteCorrected_partsOk _ _  ?_ | with_reducible refine foldlParts _ (fun s a h => ?_) _ _ ?_ | simp only [id_eq, journal_keeps PartsOk (fun _ _ => rfl), islandEvent_keeps PartsOk (fun _ _ => rfl), h0] | split

theorem scrubLines_partsOk (s : State) (line : ℕ) (x1 : List Ecc) (hs : PartsOk s) :
    PartsOk (scrubLines s line x1) := by
  fun_induction scrubLines s line x1
  all_goals repeat' first | with_reducible assumption | with_reducible refine scrubLpddrLine_partsOk _ _ _  ?_ | with_reducible refine foldlParts _ (fun s a h => ?_) _ _ ?_ | simp only [id_eq] | split | (rename_i ih; with_reducible refine ih ?_) | simp +zetaDelta only [id_eq]

theorem scrubGranule_partsOk (s : State) (ch : ℕ) (es : List Ecc) (hs : PartsOk s) :
    PartsOk (scrubGranule s ch es) := by
  unfold scrubGranule
  repeat' first | with_reducible assumption | with_reducible refine updChan_partsOk _ _ _  ?_ | with_reducible refine scrubLines_partsOk _ _ _  ?_ | with_reducible refine foldlParts _ (fun s a h => ?_) _ _ ?_ | simp only [id_eq] | split

theorem failReads_partsOk (s : State) (ch : ℕ) (hs : PartsOk s) :
    PartsOk (failReads s ch) := by
  unfold failReads
  repeat' first | with_reducible assumption | with_reducible refine finishReq_partsOk _ _ _ _ _  ?_ | with_reducible refine foldlParts _ (fun s a h => ?_) _ _ ?_ | simp only [id_eq] | split

theorem failChannel_partsOk (s : State) (ch : ℕ) (hs : PartsOk s) :
    PartsOk (failChannel s ch) := by
  unfold failChannel
  repeat' first | with_reducible assumption | with_reducible refine haltEngines_partsOk _ _  ?_ | with_reducible refine hostSettle_partsOk _  ?_ | with_reducible refine updChan_partsOk _ _ _  ?_ | with_reducible refine abortQueue_partsOk _ _  ?_ | with_reducible refine setChan_partsOk _ _ _  ?_ | with_reducible refine poisonReads_partsOk _ _ _  ?_ | with_reducible refine foldlParts _ (fun s a h => ?_) _ _ ?_ | simp only [id_eq, journal_keeps PartsOk (fun _ _ => rfl), objPut_keeps PartsOk (fun _ _ => rfl), journalAlert_keeps PartsOk (fun _ _ => rfl)] | split

theorem startDim_partsOk (s : State) (ch : ℕ) (e : DimEvent) (hs : PartsOk s) :
    PartsOk (startDim s ch e) := by
  unfold startDim
  repeat' first | with_reducible assumption | with_reducible refine updChan_partsOk _ _ _  ?_ | with_reducible refine setChan_partsOk _ _ _  ?_ | with_reducible refine foldlParts _ (fun s a h => ?_) _ _ ?_ | simp only [id_eq, objInc_keeps PartsOk (fun _ _ => rfl), objAdd_keeps PartsOk (fun _ _ => rfl)] | split

theorem fallDue_partsOk (s : State) (ch : ℕ) (e : DimEvent) (hs : PartsOk s) :
    PartsOk (fallDue s ch e) := by
  unfold fallDue
  repeat' first | with_reducible assumption | with_reducible refine updChan_partsOk _ _ _  ?_ | with_reducible refine startDim_partsOk _ _ _  ?_ | with_reducible refine foldlParts _ (fun s a h => ?_) _ _ ?_ | simp only [id_eq] | split

theorem leaveDim_partsOk (s : State) (ch : ℕ) (since : ℕ) (hs : PartsOk s) :
    PartsOk (leaveDim s ch since) := by
  unfold leaveDim
  repeat' first | with_reducible assumption | with_reducible refine hostSettle_partsOk _  ?_ | with_reducible refine updChan_partsOk _ _ _  ?_ | with_reducible refine setChan_partsOk _ _ _  ?_ | with_reducible refine foldlParts _ (fun s a h => ?_) _ _ ?_ | simp only [id_eq, objMax_keeps PartsOk (fun _ _ => rfl)] | split

theorem endRetrain_partsOk (s : State) (ch : ℕ) (ok : Bool) (hs : PartsOk s) :
    PartsOk (endRetrain s ch ok) := by
  unfold endRetrain
  repeat' first | with_reducible assumption | with_reducible refine updChan_partsOk _ _ _  ?_ | with_reducible refine leaveDim_partsOk _ _ _  ?_ | with_reducible refine failChannel_partsOk _ _  ?_ | with_reducible refine foldlParts _ (fun s a h => ?_) _ _ ?_ | simp only [id_eq, islandReset_keeps PartsOk (fun _ _ => rfl)] | split

theorem endRepair_partsOk (s : State) (ch : ℕ) (resource : Bool) (bad : List ℕ) (hs : PartsOk s) :
    PartsOk (endRepair s ch resource bad) := by
  unfold endRepair
  repeat' first | with_reducible assumption | with_reducible refine updChan_partsOk _ _ _  ?_ | with_reducible refine leaveDim_partsOk _ _ _  ?_ | with_reducible refine foldlParts _ (fun s a h => ?_) _ _ ?_ | simp only [id_eq, listRepair_keeps PartsOk (fun _ _ => rfl), poisonLines_keeps PartsOk (fun _ _ => rfl), objInc_keeps PartsOk (fun _ _ => rfl)] | split

theorem flitTimeout_partsOk (s : State) (k : ℕ) (seq : ℕ) (hs : PartsOk s) :
    PartsOk (flitTimeout s k seq) := by
  unfold flitTimeout
  repeat' first | with_reducible assumption | with_reducible refine resendFlit_partsOk _ _ _  ?_ | with_reducible refine nakMissing_partsOk _ _  ?_ | with_reducible refine foldlParts _ (fun s a h => ?_) _ _ ?_ | simp only [id_eq] | split

theorem retryLimit_partsOk (s : State) (k : ℕ) (seq : ℕ) (hs : PartsOk s) :
    PartsOk (retryLimit s k seq) := by
  unfold retryLimit
  repeat' first | with_reducible assumption | with_reducible refine goDark_partsOk _ _ _  ?_ | with_reducible refine noteTimes_partsOk _ _  ?_ | with_reducible refine foldlParts _ (fun s a h => ?_) _ _ ?_ | simp only [id_eq] | split

theorem reform_partsOk (s : State) (k : ℕ) (hs : PartsOk s) :
    PartsOk (reform s k) := by
  unfold reform
  repeat' first | with_reducible assumption | with_reducible refine startNego_partsOk _ _  ?_ | with_reducible refine foldlParts _ (fun s a h => ?_) _ _ ?_ | simp only [id_eq] | split

theorem removeDark_partsOk (s : State) (k : ℕ) (hs : PartsOk s) :
    PartsOk (removeDark s k) := by
  have h0 : ∀ s x0, PartsOk { s with needDemand := x0 } = PartsOk s := fun s x0 => rfl
  unfold removeDark
  repeat' first | with_reducible assumption | with_reducible refine removeLink_partsOk _ _  ?_ | with_reducible refine foldlParts _ (fun s a h => ?_) _ _ ?_ | simp only [id_eq, h0] | split

theorem removeForErrors_partsOk (s : State) (k : ℕ) (idx : ℕ) (hs : PartsOk s) :
    PartsOk (removeForErrors s k idx) := by
  unfold removeForErrors
  repeat' first | with_reducible assumption | with_reducible refine laneOut_partsOk _ _ _ _ _ _  ?_ | with_reducible refine foldlParts _ (fun s a h => ?_) _ _ ?_ | simp only [id_eq, objInc_keeps PartsOk (fun _ _ => rfl)] | split

theorem trainingDone_partsOk (s : State) (outgoing : Bool) (fibre : ℕ) (line : ℕ) (t : TrainResult) (hs : PartsOk s) :
    PartsOk (trainingDone s outgoing fibre line t) := by
  unfold trainingDone
  repeat' first | with_reducible assumption | with_reducible refine returnLane_partsOk _ _ _ _  ?_ | with_reducible refine refuseSkew_partsOk _ _ _ _  ?_ | with_reducible refine admitNew_partsOk _ _ _ _ _  ?_ | with_reducible refine failTraining_partsOk _ _ _ _  ?_ | with_reducible refine lockRing_partsOk _ _ _ _  ?_ | with_reducible refine foldlParts _ (fun s a h => ?_) _ _ ?_ | simp only [id_eq, objPut_keeps PartsOk (fun _ _ => rfl), runTraining_keeps PartsOk (fun _ _ => rfl)] | split

theorem applyIntended_partsOk (s : State) (hs : PartsOk s) :
    PartsOk (applyIntended s) := by
  unfold applyIntended
  repeat' first | with_reducible assumption | with_reducible refine checkMap_partsOk _  ?_ | with_reducible refine foldlParts _ (fun s a h => ?_) _ _ ?_ | simp only [id_eq, journalMismatches_keeps PartsOk (fun _ _ => rfl)] | split

theorem applyQuarantine_partsOk (s : State) (n : ℕ) (hs : PartsOk s) :
    PartsOk (applyQuarantine s n) := by
  unfold applyQuarantine
  repeat' first | with_reducible assumption | with_reducible refine setCause_partsOk _ _ _ _  ?_ | with_reducible refine foldlParts _ (fun s a h => ?_) _ _ ?_ | simp only [id_eq] | split

theorem writeLinkQuarantine_partsOk (r : Route) (v : Bytes) (s : State) (hs : PartsOk s) :
    PartsOk (writeLinkQuarantine r v s) := by
  unfold writeLinkQuarantine
  repeat' first | with_reducible assumption | with_reducible refine applyQuarantine_partsOk _ _  ?_ | with_reducible refine writeRow_partsOk _ _ _ _ _ _ _ (fun _ _ h => ?_) ?_ | with_reducible refine foldlParts _ (fun s a h => ?_) _ _ ?_ | simp only [id_eq] | split

theorem reset_partsOk : PartsOk State.reset := by
  refine ⟨?_, ?_, ?_, ?_, ?_, ?_, ?_, ?_, ?_, ?_, ?_, ?_, ?_, ?_⟩ <;> first | exact List.length_replicate | rfl

theorem dieReset_partsOk (s : State) (cold : Bool) (hs : PartsOk s) :
    PartsOk (dieReset s cold) := by
  have hd : PartsOk (dropSnaps s) := dropSnaps_partsOk s hs
  have hr : PartsOk State.reset := reset_partsOk
  unfold dieReset
  simp only [applyRestart_keeps PartsOk (fun _ _ => rfl), objPut_keeps PartsOk (fun _ _ => rfl), freeStep_keeps PartsOk (fun _ _ => rfl)]
  generalize dropSnaps s = x at hd ⊢
  generalize State.reset = r at hr ⊢
  repeat' split
  all_goals try simp only [objPut_keeps PartsOk (fun _ _ => rfl)]
  all_goals simp_all [PartsOk]

theorem railsOff_partsOk (s : State) (hs : PartsOk s) :
    PartsOk (railsOff s) := by
  simp_all [PartsOk, railsOff]

theorem mainOff_partsOk (s : State) (hs : PartsOk s) :
    PartsOk (mainOff s) := by
  unfold mainOff
  repeat' first | with_reducible assumption | with_reducible refine dieReset_partsOk _ _  ?_ | with_reducible refine railsOff_partsOk _  ?_ | with_reducible refine foldlParts _ (fun s a h => ?_) _ _ ?_ | simp only [id_eq, updSeqs_keeps PartsOk (fun _ _ => rfl), revertPersist_keeps PartsOk (fun _ _ => rfl)] | split

theorem iteParts {p : Prop} [Decidable p] {a b : State} (ha : PartsOk a) (hb : PartsOk b) : PartsOk (if p then a else b) := by
  split
  · exact ha
  · exact hb

theorem beginCold_partsOk (s : State) (four : Bool) (hs : PartsOk s) :
    PartsOk (beginCold s four) := by
  have hm := mainOff_partsOk s hs
  have h1 : ∀ x : State, PartsOk x → PartsOk { x with power := { x.power with
      black := false, coolSince := none, mainOk := x.power.mainOk && !four,
      sites := x.power.sites.map (fun (y : Site) => { y with flag0 := false, flag1 := false }) } } :=
    fun x h => partsOk_of h (by simp [lens])
  unfold beginCold
  dsimp only
  generalize mainOff s = x at hm ⊢
  have hk : ∀ (x : State) (f : Seqs → Seqs), PartsOk (updSeqs x f) = PartsOk x := fun x f =>
    updSeqs_keeps PartsOk (fun _ _ => rfl) x f
  refine iteParts ?_ (iteParts ?_ ?_)
  · refine h1 _ ?_
    simp only [setStep_keeps PartsOk (fun _ _ => rfl), objPut_keeps PartsOk (fun _ _ => rfl), hk]
    exact hm
  · simp only [setStep_keeps PartsOk (fun _ _ => rfl), hk]
    refine h1 _ ?_
    simp only [setStep_keeps PartsOk (fun _ _ => rfl), objPut_keeps PartsOk (fun _ _ => rfl), hk]
    exact hm
  · simp only [chooseBank_keeps PartsOk (fun _ _ => rfl), chainStart_keeps PartsOk (fun _ _ => rfl)]
    refine h1 _ ?_
    simp only [setStep_keeps PartsOk (fun _ _ => rfl), objPut_keeps PartsOk (fun _ _ => rfl), hk]
    exact hm

theorem coldStart_partsOk (s : State) (source : ℕ) (hs : PartsOk s) :
    PartsOk (coldStart s source) := by
  unfold coldStart
  repeat' first | with_reducible assumption | with_reducible refine beginCold_partsOk _ _  ?_ | with_reducible refine foldlParts _ (fun s a h => ?_) _ _ ?_ | simp only [id_eq, objPut_keeps PartsOk (fun _ _ => rfl)] | split

theorem enterRecovery_partsOk (s : State) (hs : PartsOk s) :
    PartsOk (enterRecovery s) := by
  have h0 : ∀ s x0, PartsOk { s with recovery := x0 } = PartsOk s := fun s x0 => rfl
  unfold enterRecovery
  repeat' first | with_reducible assumption | with_reducible refine mainOff_partsOk _  ?_ | with_reducible refine foldlParts _ (fun s a h => ?_) _ _ ?_ | simp only [id_eq, updSeqs_keeps PartsOk (fun _ _ => rfl), alert_keeps PartsOk (fun _ _ => rfl), objPut_keeps PartsOk (fun _ _ => rfl), setStep_keeps PartsOk (fun _ _ => rfl), h0] | split

theorem bootFailed_partsOk (s : State) (imageType : ℕ) (hot : Bool) (hs : PartsOk s) :
    PartsOk (bootFailed s imageType hot) := by
  unfold bootFailed
  repeat' first | with_reducible assumption | with_reducible refine beginCold_partsOk _ _  ?_ | with_reducible refine enterRecovery_partsOk _  ?_ | with_reducible refine foldlParts _ (fun s a h => ?_) _ _ ?_ | simp only [id_eq, chainStart_keeps PartsOk (fun _ _ => rfl), updSeqs_keeps PartsOk (fun _ _ => rfl), journal_keeps PartsOk (fun _ _ => rfl), objInc_keeps PartsOk (fun _ _ => rfl), chooseBank_keeps PartsOk (fun _ _ => rfl), trialFailed_keeps PartsOk (fun _ _ => rfl)] | split

theorem coresRun_partsOk (s : State) (halfE : Bool) (hs : PartsOk s) :
    PartsOk (coresRun s halfE) := by
  simp_all [PartsOk, coresRun, updSeqs]

theorem trainChannel_partsOk (failed : List ℕ) (s : State) (ch : ℕ) (hs : PartsOk s) :
    PartsOk (trainChannel failed s ch) := by
  unfold trainChannel
  repeat' first | with_reducible assumption | with_reducible refine updChan_partsOk _ _ _  ?_ | with_reducible refine foldlParts _ (fun s a h => ?_) _ _ ?_ | simp only [id_eq, objPut_keeps PartsOk (fun _ _ => rfl), journalAlert_keeps PartsOk (fun _ _ => rfl)] | split

theorem trainMemory_partsOk (s : State) (failed : List ℕ) (hs : PartsOk s) :
    PartsOk (trainMemory s failed) := by
  unfold trainMemory
  repeat' first | with_reducible assumption | with_reducible refine trainChannel_partsOk _ _ _  ?_ | with_reducible refine foldlParts _ (fun s a h => ?_) _ _ ?_ | simp only [id_eq, objPut_keeps PartsOk (fun _ _ => rfl), noRegion_keeps PartsOk (fun _ _ => rfl)] | split

theorem excludeLines_partsOk (s : State) (k : ℕ) (lines : ℕ) (hs : PartsOk s) :
    PartsOk (excludeLines s k lines) := by
  unfold excludeLines
  repeat' first | with_reducible assumption | with_reducible refine updSpec_partsOk _ _ _ _  ?_ | with_reducible refine foldlParts _ (fun s a h => ?_) _ _ ?_ | simp only [id_eq] | split

theorem examineLaser_partsOk (s : State) (x : LaserExam × ℕ) (hs : PartsOk s) :
    PartsOk (examineLaser s x) := by
  unfold examineLaser
  repeat' first | with_reducible assumption | with_reducible refine updLaser_partsOk _ _ _  ?_ | with_reducible refine excludeLines_partsOk _ _ _  ?_ | with_reducible refine foldlParts _ (fun s a h => ?_) _ _ ?_ | simp only [id_eq, tapFibres_keeps PartsOk (fun _ _ => rfl), laserReport_keeps PartsOk (fun _ _ => rfl), objPut_keeps PartsOk (fun _ _ => rfl)] | split

theorem examineLasers_partsOk (s : State) (es : List LaserExam) (hs : PartsOk s) :
    PartsOk (examineLasers s es) := by
  unfold examineLasers
  repeat' first | with_reducible assumption | with_reducible refine examineLaser_partsOk _ _  ?_ | with_reducible refine foldlParts _ (fun s a h => ?_) _ _ ?_ | simp only [id_eq] | split

theorem foundRing_partsOk (s : State) (r : ℕ) (hs : PartsOk s) :
    PartsOk (foundRing s r) := by
  unfold foundRing
  repeat' first | with_reducible assumption | with_reducible refine updRing_partsOk _ _ _  ?_ | with_reducible refine foldlParts _ (fun s a h => ?_) _ _ ?_ | simp only [id_eq] | split

theorem sweepRing_partsOk (unlocked : List ℕ) (again : List ℕ) (cold : Bool) (s : State) (r : ℕ) (hs : PartsOk s) :
    PartsOk (sweepRing unlocked again cold s r) := by
  unfold sweepRing
  repeat' first | with_reducible assumption | with_reducible refine foundRing_partsOk _ _  ?_ | with_reducible refine updSpec_partsOk _ _ _ _  ?_ | with_reducible refine retireRing_partsOk _ _  ?_ | with_reducible refine updRing_partsOk _ _ _  ?_ | with_reducible refine foldlParts _ (fun s a h => ?_) _ _ ?_ | simp only [id_eq, setRingRetired_keeps PartsOk (fun _ _ => rfl)] | split

theorem startRotor_partsOk (s : State) (x : ℕ) (hs : PartsOk s) :
    PartsOk (startRotor s x) := by
  unfold startRotor
  repeat' first | with_reducible assumption | with_reducible refine updSpec_partsOk _ _ _ _  ?_ | with_reducible refine updRotor_partsOk _ _ _  ?_ | with_reducible refine foldlParts _ (fun s a h => ?_) _ _ ?_ | simp only [id_eq] | split

theorem sweepAll_partsOk (s : State) (unlocked : List ℕ) (again : List ℕ) (cold : Bool) (hs : PartsOk s) :
    PartsOk (sweepAll s unlocked again cold) := by
  have h : ∀ l : List Nat, PartsOk { l.foldl (sweepRing unlocked again cold) s with
      free := (l.foldl (sweepRing unlocked again cold) s).free + 1088 } := fun l =>
    partsOk_of (foldlParts (sweepRing unlocked again cold) (fun s a h => sweepRing_partsOk unlocked again cold s a h) l s hs)
      (by simp only [lens])
  unfold sweepAll
  exact foldlParts _ (fun s a h => moveRef_partsOk s a h) _ _ (foldlParts _ (fun s a h => startRotor_partsOk s a h) _ _ (h _))

theorem endStart_partsOk (s : State) (hs : PartsOk s) :
    PartsOk (endStart s) := by
  unfold endStart
  repeat' first | with_reducible assumption | with_reducible refine greyAll_partsOk _ _  ?_ | with_reducible refine foldlParts _ (fun s a h => ?_) _ _ ?_ | simp only [id_eq, confirmTrial_keeps PartsOk (fun _ _ => rfl), objPut_keeps PartsOk (fun _ _ => rfl), noRegion_keeps PartsOk (fun _ _ => rfl)] | split | exact partsOk_of ‹PartsOk _› (by simp [lens, modifyAt])

theorem coldDone_partsOk (s : State) (hs : PartsOk s) :
    PartsOk (coldDone s) := by
  unfold coldDone
  repeat' first | with_reducible assumption | with_reducible refine endStart_partsOk _  ?_ | with_reducible refine foldlParts _ (fun s a h => ?_) _ _ ?_ | simp only [id_eq, updSeqs_keeps PartsOk (fun _ _ => rfl), objPut_keeps PartsOk (fun _ _ => rfl)] | split

theorem startWarm_partsOk (s : State) (cause : ℕ) (hs : PartsOk s) :
    PartsOk (startWarm s cause) := by
  unfold startWarm
  repeat' first | with_reducible assumption | with_reducible refine clearEngines_partsOk _  ?_ | with_reducible refine foldlParts _ (fun s a h => ?_) _ _ ?_ | simp only [id_eq, updSeqs_keeps PartsOk (fun _ _ => rfl), journal_keeps PartsOk (fun _ _ => rfl), objInc_keeps PartsOk (fun _ _ => rfl), mbxEnd_keeps PartsOk (fun _ _ => rfl), objPut_keeps PartsOk (fun _ _ => rfl)] | split

theorem autoWarm_partsOk (s : State) (hs : PartsOk s) :
    PartsOk (autoWarm s) := by
  unfold autoWarm
  repeat' first | with_reducible assumption | with_reducible refine startWarm_partsOk _ _  ?_ | with_reducible refine beginCold_partsOk _ _  ?_ | with_reducible refine foldlParts _ (fun s a h => ?_) _ _ ?_ | simp only [id_eq, updSeqs_keeps PartsOk (fun _ _ => rfl), objPut_keeps PartsOk (fun _ _ => rfl)] | split

theorem warmDone_partsOk (s : State) (hs : PartsOk s) :
    PartsOk (warmDone s) := by
  unfold warmDone
  repeat' first | with_reducible assumption | with_reducible refine endStart_partsOk _  ?_ | with_reducible refine foldlParts _ (fun s a h => ?_) _ _ ?_ | simp only [id_eq, objPut_keeps PartsOk (fun _ _ => rfl)] | split

theorem updPower_partsOk (s : State) (f : Power → Power)
    (hf : ∀ p, (f p).doms.length = p.doms.length ∧ (f p).sites.length = p.sites.length) (hs : PartsOk s) :
    PartsOk (updPower s f) := by
  exact partsOk_of hs (by simp [lens, updPower, hf])

theorem updDom_partsOk (s : State) (d : ℕ) (f : Dom → Dom) (hs : PartsOk s) :
    PartsOk (updDom s d f) := by
  unfold updDom
  repeat' first | with_reducible assumption | with_reducible refine updPower_partsOk _ _ (fun p => by simp [modifyAt]) ?_ | with_reducible refine foldlParts _ (fun s a h => ?_) _ _ ?_ | simp only [id_eq] | split

theorem updSite_partsOk (s : State) (n : ℕ) (f : Site → Site) (hs : PartsOk s) :
    PartsOk (updSite s n f) := by
  unfold updSite
  repeat' first | with_reducible assumption | with_reducible refine updPower_partsOk _ _ (fun p => by simp [modifyAt]) ?_ | with_reducible refine foldlParts _ (fun s a h => ?_) _ _ ?_ | simp only [id_eq] | split

theorem settleVolts_partsOk (s : State) (hs : PartsOk s) :
    PartsOk (settleVolts s) := by
  unfold settleVolts
  repeat' first | with_reducible assumption | with_reducible refine updDom_partsOk _ _ _  ?_ | with_reducible refine foldlParts _ (fun s a h => ?_) _ _ ?_ | simp only [id_eq, objPut_keeps PartsOk (fun _ _ => rfl)] | split

theorem ceilingRose_partsOk (s : State) (ds : List ℕ) (hs : PartsOk s) :
    PartsOk (ceilingRose s ds) := by
  unfold ceilingRose
  repeat' first | with_reducible assumption | with_reducible refine updDom_partsOk _ _ _  ?_ | with_reducible refine settleVolts_partsOk _  ?_ | with_reducible refine foldlParts _ (fun s a h => ?_) _ _ ?_ | simp only [id_eq] | split

theorem endPale_partsOk (s : State) (hs : PartsOk s) :
    PartsOk (endPale s) := by
  unfold endPale
  repeat' first | with_reducible assumption | with_reducible refine ceilingRose_partsOk _ _  ?_ | with_reducible refine updPower_partsOk _ _ (fun p => by simp [modifyAt]) ?_ | with_reducible refine foldlParts _ (fun s a h => ?_) _ _ ?_ | simp only [id_eq, objInc_keeps PartsOk (fun _ _ => rfl), objMax_keeps PartsOk (fun _ _ => rfl)] | split

theorem unpower_partsOk (s : State) (hs : PartsOk s) :
    PartsOk (unpower s) := by
  have hm := mainOff_partsOk s hs
  unfold unpower
  dsimp only
  generalize mainOff s = x at hm ⊢
  simp_all [PartsOk]

theorem flagSensor_partsOk (s : State) (n : ℕ) (sensor : ℕ) (hs : PartsOk s) :
    PartsOk (flagSensor s n sensor) := by
  unfold flagSensor
  repeat' first | with_reducible assumption | with_reducible refine updSite_partsOk _ _ _  ?_ | with_reducible refine foldlParts _ (fun s a h => ?_) _ _ ?_ | simp only [id_eq, journalAlert_keeps PartsOk (fun _ _ => rfl)] | split

theorem checkSensors_partsOk (s : State) (n : ℕ) (olds : List (ℤ × ℤ)) (r0 : ℤ) (r1 : ℤ) (hs : PartsOk s) :
    PartsOk (checkSensors s n olds r0 r1) := by
  unfold checkSensors
  repeat' first | with_reducible assumption | with_reducible refine flagSensor_partsOk _ _ _  ?_ | with_reducible refine foldlParts _ (fun s a h => ?_) _ _ ?_ | simp only [id_eq] | split

theorem timeSite_partsOk (s : State) (n : ℕ) (hs : PartsOk s) :
    PartsOk (timeSite s n) := by
  unfold timeSite
  repeat' first | with_reducible assumption | with_reducible refine updSite_partsOk _ _ _  ?_ | with_reducible refine foldlParts _ (fun s a h => ?_) _ _ ?_ | simp only [id_eq] | split

theorem redDom_partsOk (s : State) (d : ℕ) (hs : PartsOk s) :
    PartsOk (redDom s d) := by
  unfold redDom
  repeat' first | with_reducible assumption | with_reducible refine updDom_partsOk _ _ _  ?_ | with_reducible refine foldlParts _ (fun s a h => ?_) _ _ ?_ | simp only [id_eq, objInc_keeps PartsOk (fun _ _ => rfl)] | split

theorem checkRed_partsOk (s : State) (n : ℕ) (hs : PartsOk s) :
    PartsOk (checkRed s n) := by
  unfold checkRed
  repeat' first | with_reducible assumption | with_reducible refine redDom_partsOk _ _  ?_ | with_reducible refine updSite_partsOk _ _ _  ?_ | with_reducible refine settleVolts_partsOk _  ?_ | with_reducible refine foldlParts _ (fun s a h => ?_) _ _ ?_ | simp only [id_eq] | split

theorem blackShutdown_partsOk (s : State) (n : ℕ) (trigger : ℕ) (hs : PartsOk s) :
    PartsOk (blackShutdown s n trigger) := by
  have h0 : ∀ s x0 x1, PartsOk { s with recovery := x0, mgmt := x1 } = PartsOk s := fun s x0 x1 => rfl
  unfold blackShutdown
  repeat' first | with_reducible assumption | with_reducible refine updPower_partsOk _ _ (fun p => by simp [modifyAt]) ?_ | with_reducible refine mainOff_partsOk _  ?_ | with_reducible refine settleVolts_partsOk _  ?_ | with_reducible refine foldlParts _ (fun s a h => ?_) _ _ ?_ | simp only [id_eq, updSeqs_keeps PartsOk (fun _ _ => rfl), objInc_keeps PartsOk (fun _ _ => rfl), objPut_keeps PartsOk (fun _ _ => rfl), setStep_keeps PartsOk (fun _ _ => rfl), journalAlert_keeps PartsOk (fun _ _ => rfl), h0] | split

theorem checkBlack_partsOk (s : State) (n : ℕ) (hs : PartsOk s) :
    PartsOk (checkBlack s n) := by
  unfold checkBlack
  repeat' first | with_reducible assumption | with_reducible refine blackShutdown_partsOk _ _ _  ?_ | with_reducible refine foldlParts _ (fun s a h => ?_) _ _ ?_ | simp only [id_eq] | split

theorem readSite_partsOk (s : State) (n : ℕ) (r0 : ℤ) (r1 : ℤ) (hs : PartsOk s) :
    PartsOk (readSite s n r0 r1) := by
  unfold readSite
  repeat' first | with_reducible assumption | with_reducible refine checkRed_partsOk _ _  ?_ | with_reducible refine checkBlack_partsOk _ _  ?_ | with_reducible refine checkSensors_partsOk _ _ _ _ _  ?_ | with_reducible refine updPower_partsOk _ _ (fun p => by simp [modifyAt]) ?_ | with_reducible refine timeSite_partsOk _ _  ?_ | with_reducible refine updSite_partsOk _ _ _  ?_ | with_reducible refine foldlParts _ (fun s a h => ?_) _ _ ?_ | simp only [id_eq, reportSite_keeps PartsOk (fun _ _ => rfl)] | split

theorem stepDom_partsOk (h : Half) (s : State) (d : ℕ) (hs : PartsOk s) :
    PartsOk (stepDom h s d) := by
  unfold stepDom
  repeat' first | with_reducible assumption | with_reducible refine updDom_partsOk _ _ _  ?_ | with_reducible refine foldlParts _ (fun s a h => ?_) _ _ ?_ | simp only [id_eq] | split

theorem notePower_partsOk (s : State) (watts : ℕ) (hs : PartsOk s) :
    PartsOk (notePower s watts) := by
  unfold notePower
  repeat' first | with_reducible assumption | with_reducible refine updPower_partsOk _ _ (fun p => by simp [modifyAt]) ?_ | with_reducible refine foldlParts _ (fun s a h => ?_) _ _ ?_ | simp only [id_eq, objPut_keeps PartsOk (fun _ _ => rfl)] | split

theorem stepHalf_partsOk (s : State) (h : Half) (watts : ℕ) (hs : PartsOk s) :
    PartsOk (stepHalf s h watts) := by
  unfold stepHalf
  repeat' first | with_reducible assumption | with_reducible refine stepDom_partsOk _ _ _  ?_ | with_reducible refine notePower_partsOk _ _  ?_ | with_reducible refine settleVolts_partsOk _  ?_ | with_reducible refine foldlParts _ (fun s a h => ?_) _ _ ?_ | simp only [id_eq] | split

theorem updCore_partsOk (s : State) (i : ℕ) (f : Core → Core) (hs : PartsOk s) :
    PartsOk (updCore s i f) := by
  unfold updCore
  repeat' first | with_reducible assumption | with_reducible refine foldlParts _ (fun s a h => ?_) _ _ ?_ | simp only [id_eq] | split | exact partsOk_of ‹PartsOk _› (by simp [lens, modifyAt])

theorem abortSteps_partsOk (s : State) (first : ℕ) (hs : PartsOk s) :
    PartsOk (abortSteps s first) := by
  unfold abortSteps
  repeat' first | with_reducible assumption | with_reducible refine abortTold_partsOk _ _  ?_ | with_reducible refine foldlParts _ (fun s a h => ?_) _ _ ?_ | simp only [id_eq] | split

theorem watchdog_partsOk (s : State) (i : ℕ) (pc : ℕ) (hs : PartsOk s) :
    PartsOk (watchdog s i pc) := by
  unfold watchdog
  repeat' first | with_reducible assumption | with_reducible refine updCore_partsOk _ _ _  ?_ | with_reducible refine autoWarm_partsOk _  ?_ | with_reducible refine abortSteps_partsOk _ _  ?_ | with_reducible refine foldlParts _ (fun s a h => ?_) _ _ ?_ | simp only [id_eq, journal_keeps PartsOk (fun _ _ => rfl), markScheds_keeps PartsOk (fun _ _ => rfl), failCheckpoint_keeps PartsOk (fun _ _ => rfl)] | split

theorem coreBack_partsOk (s : State) (i : ℕ) (hs : PartsOk s) :
    PartsOk (coreBack s i) := by
  unfold coreBack
  repeat' first | with_reducible assumption | with_reducible refine updCore_partsOk _ _ _  ?_ | with_reducible refine foldlParts _ (fun s a h => ?_) _ _ ?_ | simp only [id_eq, markScheds_keeps PartsOk (fun _ _ => rfl), objInc_keeps PartsOk (fun _ _ => rfl), emit_keeps PartsOk (fun _ _ => rfl), takeDoorbells_keeps PartsOk (fun _ _ => rfl)] | split

theorem endPaleWait_partsOk (s : State) (hs : PartsOk s) :
    PartsOk (endPaleWait s) := by
  unfold endPaleWait
  repeat' first | with_reducible assumption | with_reducible refine coldStart_partsOk _ _  ?_ | with_reducible refine foldlParts _ (fun s a h => ?_) _ _ ?_ | simp only [id_eq] | split

theorem supplyDown_partsOk (s : State) (hs : PartsOk s) :
    PartsOk (supplyDown s) := by
  unfold supplyDown
  repeat' first | with_reducible assumption | with_reducible refine unpower_partsOk _  ?_ | with_reducible refine updPower_partsOk _ _ (fun p => by simp [modifyAt]) ?_ | with_reducible refine coldStart_partsOk _ _  ?_ | with_reducible refine foldlParts _ (fun s a h => ?_) _ _ ?_ | simp only [id_eq] | split

theorem leaveBlack_partsOk (s : State) (hs : PartsOk s) :
    PartsOk (leaveBlack s) := by
  unfold leaveBlack
  repeat' first | with_reducible assumption | with_reducible refine updPower_partsOk _ _ (fun p => by simp [modifyAt]) ?_ | with_reducible refine coldStart_partsOk _ _  ?_ | with_reducible refine foldlParts _ (fun s a h => ?_) _ _ ?_ | simp only [id_eq] | split

theorem runAsked_partsOk (s : State) (hs : PartsOk s) :
    PartsOk (runAsked s) := by
  unfold runAsked
  repeat' first | with_reducible assumption | with_reducible refine startWarm_partsOk _ _  ?_ | with_reducible refine coldStart_partsOk _ _  ?_ | with_reducible refine leaveBlack_partsOk _  ?_ | with_reducible refine foldlParts _ (fun s a h => ?_) _ _ ?_ | simp only [id_eq, updSeqs_keeps PartsOk (fun _ _ => rfl)] | split

theorem writeThermalRestart_partsOk (r : Route) (v : Bytes) (s : State) (hs : PartsOk s) :
    PartsOk (writeThermalRestart r v s) := by
  unfold writeThermalRestart
  repeat' first | with_reducible assumption | with_reducible refine updPower_partsOk _ _ (fun p => by simp [modifyAt]) ?_ | with_reducible refine writeRow_partsOk _ _ _ _ _ _ _ (fun _ _ h => ?_) ?_ | with_reducible refine runAsked_partsOk _  ?_ | with_reducible refine foldlParts _ (fun s a h => ?_) _ _ ?_ | simp only [id_eq, askRestart_keeps PartsOk (fun _ _ => rfl)] | split

theorem powerUp_partsOk (s : State) (straps : ℕ) (aux : Bool) (hs : PartsOk s) :
    PartsOk (powerUp s straps aux) := by
  unfold powerUp
  repeat' first | with_reducible assumption | with_reducible refine updPower_partsOk _ _ (fun p => by simp [modifyAt]) ?_ | with_reducible refine beginCold_partsOk _ _  ?_ | with_reducible refine foldlParts _ (fun s a h => ?_) _ _ ?_ | simp only [id_eq, updSeqs_keeps PartsOk (fun _ _ => rfl), objPut_keeps PartsOk (fun _ _ => rfl)] | split

theorem stepThree_partsOk (s : State) (is : List ImageInfo) (hs : PartsOk s) :
    PartsOk (stepThree s is) := by
  unfold stepThree
  repeat' first | with_reducible assumption | with_reducible refine bootFailed_partsOk _ _ _  ?_ | with_reducible refine foldlParts _ (fun s a h => ?_) _ _ ?_ | simp only [id_eq, updSeqs_keeps PartsOk (fun _ _ => rfl), setStep_keeps PartsOk (fun _ _ => rfl), acceptImages_keeps PartsOk (fun _ _ => rfl)] | split

theorem stepFour_partsOk (s : State) (mj : ℕ) (hs : PartsOk s) :
    PartsOk (stepFour s mj) := by
  unfold stepFour
  repeat' first | with_reducible assumption | with_reducible refine updPower_partsOk _ _ (fun p => by simp [modifyAt]) ?_ | with_reducible refine settleVolts_partsOk _  ?_ | with_reducible refine foldlParts _ (fun s a h => ?_) _ _ ?_ | simp only [id_eq, objPut_keeps PartsOk (fun _ _ => rfl), setStep_keeps PartsOk (fun _ _ => rfl)] | split

theorem railFail_partsOk (s : State) (d : ℕ) (hs : PartsOk s) :
    PartsOk (railFail s d) := by
  unfold railFail
  repeat' first | with_reducible assumption | with_reducible refine railsOff_partsOk _  ?_ | with_reducible refine foldlParts _ (fun s a h => ?_) _ _ ?_ | simp only [id_eq, updSeqs_keeps PartsOk (fun _ _ => rfl), journalAlert_keeps PartsOk (fun _ _ => rfl)] | split

theorem stepFive_partsOk (s : State) (is : List ImageInfo) (hs : PartsOk s) :
    PartsOk (stepFive s is) := by
  unfold stepFive
  repeat' first | with_reducible assumption | with_reducible refine bootFailed_partsOk _ _ _  ?_ | with_reducible refine coresRun_partsOk _ _  ?_ | with_reducible refine foldlParts _ (fun s a h => ?_) _ _ ?_ | simp only [id_eq, updSeqs_keeps PartsOk (fun _ _ => rfl), bankBooted_keeps PartsOk (fun _ _ => rfl), setStep_keeps PartsOk (fun _ _ => rfl), acceptImages_keeps PartsOk (fun _ _ => rfl)] | split

theorem startStepDone_partsOk (s : State) (o : StepOutcome) (hs : PartsOk s) :
    PartsOk (startStepDone s o) := by
  unfold startStepDone
  repeat' first | with_reducible assumption | with_reducible refine railFail_partsOk _ _  ?_ | with_reducible refine stepFive_partsOk _ _  ?_ | with_reducible refine examineLasers_partsOk _ _  ?_ | with_reducible refine applyIntended_partsOk _  ?_ | with_reducible refine coldDone_partsOk _  ?_ | with_reducible refine stepFour_partsOk _ _  ?_ | with_reducible refine sweepAll_partsOk _ _ _ _  ?_ | with_reducible refine trainMemory_partsOk _ _  ?_ | with_reducible refine stepThree_partsOk _ _  ?_ | with_reducible refine foldlParts _ (fun s a h => ?_) _ _ ?_ | simp only [id_eq, stepTwo_keeps PartsOk (fun _ _ => rfl), hardRepair_keeps PartsOk (fun _ _ => rfl), trainBridge_keeps PartsOk (fun _ _ => rfl), setStep_keeps PartsOk (fun _ _ => rfl), noRegion_keeps PartsOk (fun _ _ => rfl)] | split

theorem writeColdRestart_partsOk (r : Route) (v : Bytes) (s : State) (hs : PartsOk s) :
    PartsOk (writeColdRestart r v s) := by
  unfold writeColdRestart
  repeat' first | with_reducible assumption | with_reducible refine writeRow_partsOk _ _ _ _ _ _ _ (fun _ _ h => ?_) ?_ | with_reducible refine runAsked_partsOk _  ?_ | with_reducible refine foldlParts _ (fun s a h => ?_) _ _ ?_ | simp only [id_eq, askRestart_keeps PartsOk (fun _ _ => rfl)] | split

theorem facetResend_partsOk (s : State) (f : ℕ) (hs : PartsOk s) :
    PartsOk (facetResend s f) := by
  unfold facetResend
  repeat' first | with_reducible assumption | with_reducible refine resendFlit_partsOk _ _ _  ?_ | with_reducible refine foldlParts _ (fun s a h => ?_) _ _ ?_ | simp only [id_eq] | split

theorem writeWarmRestart_partsOk (r : Route) (v : Bytes) (s : State) (hs : PartsOk s) :
    PartsOk (writeWarmRestart r v s) := by
  unfold writeWarmRestart
  repeat' first | with_reducible assumption | with_reducible refine runAsked_partsOk _  ?_ | with_reducible refine ask_partsOk _ _ _ _ _ _ _ (fun _ _ h => ?_) ?_ | with_reducible refine foldlParts _ (fun s a h => ?_) _ _ ?_ | simp only [id_eq, applyNum_keeps PartsOk (fun _ _ => rfl), askRestart_keeps PartsOk (fun _ _ => rfl)] | split

theorem warmReset_partsOk (s : State) (hs : PartsOk s) :
    PartsOk (warmReset s) := by
  unfold warmReset
  repeat' first | with_reducible assumption | with_reducible refine dieReset_partsOk _ _  ?_ | with_reducible refine foldlParts _ (fun s a h => ?_) _ _ ?_ | simp only [id_eq, chainStart_keeps PartsOk (fun _ _ => rfl), chooseBank_keeps PartsOk (fun _ _ => rfl), objPut_keeps PartsOk (fun _ _ => rfl)] | split

theorem warmVerify_partsOk (s : State) (is : List ImageInfo) (hs : PartsOk s) :
    PartsOk (warmVerify s is) := by
  unfold warmVerify
  repeat' first | with_reducible assumption | with_reducible refine bootFailed_partsOk _ _ _  ?_ | with_reducible refine foldlParts _ (fun s a h => ?_) _ _ ?_ | simp only [id_eq, bankBooted_keeps PartsOk (fun _ _ => rfl), warmStepTo_keeps PartsOk (fun _ _ => rfl), acceptImages_keeps PartsOk (fun _ _ => rfl)] | split

theorem warmStepDone_partsOk (s : State) (o : StepOutcome) (hs : PartsOk s) :
    PartsOk (warmStepDone s o) := by
  unfold warmStepDone
  repeat' first | with_reducible assumption | with_reducible refine warmVerify_partsOk _ _  ?_ | with_reducible refine examineLasers_partsOk _ _  ?_ | with_reducible refine applyIntended_partsOk _  ?_ | with_reducible refine coresRun_partsOk _ _  ?_ | with_reducible refine sweepAll_partsOk _ _ _ _  ?_ | with_reducible refine trainMemory_partsOk _ _  ?_ | with_reducible refine warmDone_partsOk _  ?_ | with_reducible refine warmReset_partsOk _  ?_ | with_reducible refine foldlParts _ (fun s a h => ?_) _ _ ?_ | simp only [id_eq, trainBridge_keeps PartsOk (fun _ _ => rfl), warmStepTo_keeps PartsOk (fun _ _ => rfl), objPut_keeps PartsOk (fun _ _ => rfl), noRegion_keeps PartsOk (fun _ _ => rfl)] | split

theorem katPassed_partsOk (s : State) (nn : ℕ) (hs : PartsOk s) :
    PartsOk (katPassed s nn) := by
  unfold katPassed
  repeat' first | with_reducible assumption | with_reducible refine updArray_partsOk _ _ _  ?_ | with_reducible refine foldlParts _ (fun s a h => ?_) _ _ ?_ | simp only [id_eq, objInc_keeps PartsOk (fun _ _ => rfl)] | split

theorem katFailed_partsOk (s : State) (nn : ℕ) (pass : ℕ) (hs : PartsOk s) :
    PartsOk (katFailed s nn pass) := by
  unfold katFailed
  repeat' first | with_reducible assumption | with_reducible refine missEvent_partsOk _ _  ?_ | with_reducible refine retireArray_partsOk _ _  ?_ | with_reducible refine updArray_partsOk _ _ _  ?_ | with_reducible refine foldlParts _ (fun s a h => ?_) _ _ ?_ | simp only [id_eq, journal_keeps PartsOk (fun _ _ => rfl), objInc_keeps PartsOk (fun _ _ => rfl)] | split

theorem copyIn_partsOk (s : State) (hs : PartsOk s) :
    PartsOk (copyIn s) := by
  have he : PartsOk (escImageApply s (rawBytes s (ckptBase s + areaEsc) 16384)) := by
    rw [escImageApply_keeps PartsOk (fun _ _ => rfl)]; exact hs
  have ha : (s.arrays.zipIdx.map (arrayFrom s)).length = 64 := by simp [hs.1]
  unfold copyIn
  dsimp only
  generalize escImageApply s (rawBytes s (ckptBase s + areaEsc) 16384) = x at he ⊢
  exact ⟨ha, he.2⟩

theorem writeCheckpointRestore_partsOk (r : Route) (v : Bytes) (s : State) (hs : PartsOk s) :
    PartsOk (writeCheckpointRestore r v s) := by
  unfold writeCheckpointRestore
  repeat' first | with_reducible assumption | with_reducible refine writeRow_partsOk _ _ _ _ _ _ _ (fun _ _ h => ?_) ?_ | with_reducible refine copyIn_partsOk _  ?_ | with_reducible refine foldlParts _ (fun s a h => ?_) _ _ ?_ | simp only [id_eq] | split

theorem returnArrays_partsOk (s : State) (old : ℕ) (new : ℕ) (hs : PartsOk s) :
    PartsOk (returnArrays s old new) := by
  have h0 : ∀ s x0, PartsOk { s with unretired := x0 } = PartsOk s := fun s x0 => rfl
  unfold returnArrays
  repeat' first | with_reducible assumption | with_reducible refine foldlParts _ (fun s a h => ?_) _ _ ?_ | simp only [id_eq, h0] | split | exact partsOk_of ‹PartsOk _› (by simp [lens, modifyAt])

theorem writeEffect_partsOk (k : ℕ) (old : ℕ) (s : State) (n : ℕ) (hs : PartsOk s) :
    PartsOk (writeEffect k old s n) := by
  unfold writeEffect
  repeat' first | with_reducible assumption | with_reducible refine returnArrays_partsOk _ _ _  ?_ | with_reducible refine settleLink_partsOk _ _  ?_ | with_reducible refine foldlParts _ (fun s a h => ?_) _ _ ?_ | simp only [id_eq, objPut_keeps PartsOk (fun _ _ => rfl)] | split

theorem writePlain_partsOk (r : Route) (k : ℕ) (v : Bytes) (s : State) (hs : PartsOk s) :
    PartsOk (writePlain r k v s) := by
  unfold writePlain
  repeat' first | with_reducible assumption | with_reducible refine writeEffect_partsOk _ _ _ _  ?_ | with_reducible refine writeRow_partsOk _ _ _ _ _ _ _ (fun _ _ h => ?_) ?_ | with_reducible refine foldlParts _ (fun s a h => ?_) _ _ ?_ | simp only [id_eq] | split

theorem segment_partsOk (r : Route) (header : Bytes) (data : Bytes) (s : State) (hs : PartsOk s) :
    PartsOk (segment r header data s).st := by
  unfold segment
  repeat' first | with_reducible assumption | with_reducible refine writeSegment_partsOk _ _ _ _  ?_ | with_reducible refine foldlParts _ (fun s a h => ?_) _ _ ?_ | simp only [id_eq, updXfer_keeps PartsOk (fun _ _ => rfl), addrErr_keeps PartsOk (fun _ _ => rfl)] | split

theorem toDefaults_partsOk (s : State) (hs : PartsOk s) :
    PartsOk (toDefaults s) := by
  have h0 : ∀ s x0 x1, PartsOk { s with dic := x0, doms := x1 } = PartsOk s := fun s x0 x1 => rfl
  unfold toDefaults
  repeat' first | with_reducible assumption | with_reducible refine applyIntended_partsOk _  ?_ | with_reducible refine settleLink_partsOk _ _  ?_ | with_reducible refine foldlParts _ (fun s a h => ?_) _ _ ?_ | simp only [id_eq, notePersist_keeps PartsOk (fun _ _ => rfl), h0] | split

theorem lifeEffect_partsOk (old : ℕ) (s : State) (hs : PartsOk s) :
    PartsOk (lifeEffect old s) := by
  have h0 : ∀ s x0, PartsOk { s with mgmt := x0 } = PartsOk s := fun s x0 => rfl
  unfold lifeEffect
  repeat' first | with_reducible assumption | with_reducible refine toDefaults_partsOk _  ?_ | with_reducible refine foldlParts _ (fun s a h => ?_) _ _ ?_ | simp only [id_eq, askRestart_keeps PartsOk (fun _ _ => rfl), measEvent_keeps PartsOk (fun _ _ => rfl), updSec_keeps PartsOk (fun _ _ => rfl), objPut_keeps PartsOk (fun _ _ => rfl), h0] | split

theorem writeLifecycle_partsOk (r : Route) (v : Bytes) (burnt : Bool) (s : State) (hs : PartsOk s) :
    PartsOk (writeLifecycle r v burnt s) := by
  unfold writeLifecycle
  repeat' first | with_reducible assumption | with_reducible refine runAsked_partsOk _  ?_ | with_reducible refine lifeEffect_partsOk _ _  ?_ | with_reducible refine fuseWrite_partsOk _ _ _ _ _ _ _ _ _ (fun _ h => ?_) ?_ | with_reducible refine ask_partsOk _ _ _ _ _ _ _ (fun _ _ h => ?_) ?_ | with_reducible refine foldlParts _ (fun s a h => ?_) _ _ ?_ | simp only [id_eq] | split

theorem programDone_partsOk (s : State) (is : List ImageInfo) (hs : PartsOk s) :
    PartsOk (programDone s is) := by
  unfold programDone
  repeat' first | with_reducible assumption | with_reducible refine beginCold_partsOk _ _  ?_ | with_reducible refine foldlParts _ (fun s a h => ?_) _ _ ?_ | simp only [id_eq, putBank_keeps PartsOk (fun _ _ => rfl), objPut_keeps PartsOk (fun _ _ => rfl)] | split

theorem leakSample_partsOk (s : State) (ohms : ℕ) (hs : PartsOk s) :
    PartsOk (leakSample s ohms) := by
  unfold leakSample
  repeat' first | with_reducible assumption | with_reducible refine updPower_partsOk _ _ (fun p => by simp [modifyAt]) ?_ | with_reducible refine foldlParts _ (fun s a h => ?_) _ _ ?_ | simp only [id_eq, updIface_keeps PartsOk (fun _ _ => rfl), objPut_keeps PartsOk (fun _ _ => rfl), leakChange_keeps PartsOk (fun _ _ => rfl)] | split

theorem efuseOpens_partsOk (s : State) (hs : PartsOk s) :
    PartsOk (efuseOpens s) := by
  unfold efuseOpens
  repeat' first | with_reducible assumption | with_reducible refine unpower_partsOk _  ?_ | with_reducible refine updPower_partsOk _ _ (fun p => by simp [modifyAt]) ?_ | with_reducible refine foldlParts _ (fun s a h => ?_) _ _ ?_ | simp only [id_eq, journal_keeps PartsOk (fun _ _ => rfl), updIface_keeps PartsOk (fun _ _ => rfl), objInc_keeps PartsOk (fun _ _ => rfl), objPut_keeps PartsOk (fun _ _ => rfl)] | split

theorem writeSnapshotTake_partsOk (r : Route) (v : Bytes) (s : State) (hs : PartsOk s) :
    PartsOk (writeSnapshotTake r v s) := by
  unfold writeSnapshotTake
  repeat' first | with_reducible assumption | with_reducible refine writeRow_partsOk _ _ _ _ _ _ _ (fun _ _ h => ?_) ?_ | with_reducible refine startSnap_partsOk _ _ _ _  ?_ | with_reducible refine foldlParts _ (fun s a h => ?_) _ _ ?_ | simp only [id_eq] | split

theorem monLine_partsOk (s : State) (sup : Bool) (run : State → State)
    (h_run : ∀ s, PartsOk s → PartsOk ((run s))) (hs : PartsOk s) :
    PartsOk (monLine s sup run) := by
  unfold monLine
  repeat' first | with_reducible assumption | with_reducible refine h_run _ ?_ | with_reducible refine foldlParts _ (fun s a h => ?_) _ _ ?_ | simp only [id_eq, objInc_keeps PartsOk (fun _ _ => rfl), emit_keeps PartsOk (fun _ _ => rfl), prompt_keeps PartsOk (fun _ _ => rfl), muted_keeps PartsOk (fun _ _ => rfl)] | split

theorem monWrite_partsOk (k : ℕ) (v : Bytes) (burnt : Bool) (s : State) (hs : PartsOk s) :
    PartsOk (monWrite k v burnt s) := by
  unfold monWrite
  dsimp only
  refine iteParts (writeWarmRestart_partsOk _ _ _ hs) ?_
  refine iteParts (writeColdRestart_partsOk _ _ _ hs) ?_
  refine iteParts (writeThermalRestart_partsOk _ _ _ hs) ?_
  refine iteParts (by rw [writeCheckpointNow_keeps PartsOk (fun _ _ => rfl)]; exact hs) ?_
  refine iteParts (writeCheckpointRestore_partsOk _ _ _ hs) ?_
  refine iteParts (by rw [writeEpochSwitch_keeps PartsOk (fun _ _ => rfl)]; exact hs) ?_
  refine iteParts (by rw [writeDrainArm_keeps PartsOk (fun _ _ => rfl)]; exact hs) ?_
  refine iteParts (by rw [writeEpochRelease_keeps PartsOk (fun _ _ => rfl)]; exact hs) ?_
  refine iteParts (writeLinkQuarantine_partsOk _ _ _ hs) ?_
  refine iteParts (by rw [writeMemHashKey_keeps PartsOk (fun _ _ => rfl)]; exact hs) ?_
  refine iteParts (by rw [writeChipNumberLock_keeps PartsOk (fun _ _ => rfl)]; exact hs) ?_
  refine iteParts (by rw [writeThermalRedOverride_keeps PartsOk (fun _ _ => rfl)]; exact hs) ?_
  refine iteParts (writeLifecycle_partsOk _ _ _ _ hs) ?_
  refine iteParts (by rw [writeAntiRollback_keeps PartsOk (fun _ _ => rfl)]; exact hs) ?_
  refine iteParts (by rw [writeRevoke_keeps PartsOk (fun _ _ => rfl)]; exact hs) ?_
  refine iteParts (by rw [writeDebugLock_keeps PartsOk (fun _ _ => rfl)]; exact hs) ?_
  refine iteParts (writeSnapshotTake_partsOk _ _ _ hs) ?_
  exact writePlain_partsOk _ _ _ _ hs

theorem takeLoad_partsOk (s : State) (image : Bytes) (hs : PartsOk s) :
    PartsOk (takeLoad s image) := by
  unfold takeLoad
  repeat' first | with_reducible assumption | with_reducible refine writeBytes_partsOk _ _ _ _  ?_ | with_reducible refine foldlParts _ (fun s a h => ?_) _ _ ?_ | simp only [id_eq, journal_keeps PartsOk (fun _ _ => rfl), endBinary_keeps PartsOk (fun _ _ => rfl), startUpdate_keeps PartsOk (fun _ _ => rfl)] | split

theorem takeBlock_partsOk (s : State) (data : Bytes) (good : Bool) (hs : PartsOk s) :
    PartsOk (takeBlock s data good) := by
  have h0 : ∀ s x0, PartsOk { s with obs := x0 } = PartsOk s := fun s x0 => rfl
  unfold takeBlock
  repeat' first | with_reducible assumption | with_reducible refine takeLoad_partsOk _ _  ?_ | with_reducible refine foldlParts _ (fun s a h => ?_) _ _ ?_ | simp only [id_eq, takeToken_keeps PartsOk (fun _ _ => rfl), emit_keeps PartsOk (fun _ _ => rfl), endBinary_keeps PartsOk (fun _ _ => rfl), h0] | split

end Sys2Proof.Machine
end

