-- ==== Sys2Proof/Tests/Slice0.lean ====
section
/-!
SUPPORT. The model's own tests.
-/
end

/-!
A link that goes Dark (R240 to R242): what handing its flits back, darkening it and noting its times leave in the links,
the Dictionary objects and the journal, and with it the obligation of FLIT_RETRY_LIMIT.
-/

namespace Sys2Proof.Machine

/-! ### Links read after an update -/

theorem linkOf_congr {s t : State} (h : t.links = s.links) (k : Nat) : linkOf t k = linkOf s k := by
  unfold linkOf; rw [h]

theorem linkOf_updLink_self (s : State) (k : Nat) (f : Link → Link) (h : k < s.links.length) :
    linkOf (updLink s k f) k = f (linkOf s k) := by
  simp [linkOf, updLink, modifyAt, h]

theorem linkOf_updLink_ne (s : State) (k i : Nat) (f : Link → Link) (h : i ≠ k) :
    linkOf (updLink s k f) i = linkOf s i := by
  simp [linkOf, updLink, modifyAt, h.symm]

@[simp] theorem linkOf_objPut (s : State) (x v k : Nat) : linkOf (objPut s x v) k = linkOf s k := rfl

@[simp] theorem linkOf_objInc (s : State) (x k : Nat) : linkOf (objInc s x) k = linkOf s k := rfl

@[simp] theorem length_links_updLink (s : State) (k : Nat) (f : Link → Link) :
    (updLink s k f).links.length = s.links.length := by
  simp [updLink, modifyAt]

@[simp] theorem objGet_updLink (s : State) (k : Nat) (f : Link → Link) (x : Nat) :
    objGet (updLink s k f) x = objGet s x := rfl

/-! ### Flits handed back (R242) -/

@[simp] theorem links_reinject (s : State) (h : Half) (k : Nat) (ps : List (Nat × Packet)) :
    (reinject s h k ps).links = s.links := reinject_keeps State.links (fun _ _ => rfl) s h k ps

theorem objGet_noteOld_ne (s : State) (p : Packet) (x : Nat) (h : x ≠ Obj.drainDirty) :
    objGet (noteOld s p) x = objGet s x := by
  unfold noteOld
  split
  · exact objGet_objPut_ne s _ x 1 h
  · rfl

/-- Packets routed again touch one object only, DrainDirty (R261). -/
theorem objGet_reinject_ne (s : State) (h : Half) (k : Nat) (ps : List (Nat × Packet)) (x : Nat) (hx : x ≠ Obj.drainDirty) :
    objGet (reinject s h k ps) x = objGet s x := by
  induction ps generalizing s with
  | nil => rfl
  | cons a r ih =>
    obtain ⟨t, p⟩ := a
    rw [reinject, ih, inject_keeps (objGet · x) (fun _ _ => rfl), objGet_noteOld_ne _ _ _ hx,
      noteResent_keeps (objGet · x) (fun _ _ => rfl)]

/-- A Dark link hands every kept flit to the router and keeps none. -/
theorem linkOf_handBack_self (s : State) (k : Nat) (h : k < s.links.length) :
    linkOf (handBack s k false) k = { linkOf s k with unacked := [] } := by
  unfold handBack
  exact (linkOf_congr (links_reinject _ _ _ _) k).trans (linkOf_updLink_self s k _ h)

theorem linkOf_handBack_ne (s : State) (k i : Nat) (grey : Bool) (h : i ≠ k) :
    linkOf (handBack s k grey) i = linkOf s i := by
  unfold handBack
  exact (linkOf_congr (links_reinject _ _ _ _) i).trans (linkOf_updLink_ne s k i _ h)

@[simp] theorem length_links_handBack (s : State) (k : Nat) (grey : Bool) :
    (handBack s k grey).links.length = s.links.length := by
  simp [handBack]

@[simp] theorem now_handBack (s : State) (k : Nat) (grey : Bool) : (handBack s k grey).now = s.now :=
  handBack_keeps State.now (fun _ _ => rfl) s k grey

@[simp] theorem obs_handBack (s : State) (k : Nat) (grey : Bool) : (handBack s k grey).obs = s.obs :=
  handBack_keeps State.obs (fun _ _ => rfl) s k grey

@[simp] theorem coldAt_handBack (s : State) (k : Nat) (grey : Bool) : (handBack s k grey).coldAt = s.coldAt :=
  handBack_keeps State.coldAt (fun _ _ => rfl) s k grey

/-- Every flit a Dark link hands back is counted in ResentFlits. -/
theorem counted_handBack_resentFlits (s : State) (k : Nat) :
    Counted s (handBack s k false) Obj.resentFlits (linkOf s k).unacked.length := by
  unfold Counted handBack
  rw [objGet_reinject_ne _ _ _ _ _ (by decide), objGet_objAdd_self]
  rfl

theorem objGet_handBack_ne (s : State) (k : Nat) (grey : Bool) (x : Nat) (h1 : x ≠ Obj.drainDirty)
    (h2 : x ≠ Obj.resentFlits) : objGet (handBack s k grey) x = objGet s x := by
  unfold handBack
  rw [objGet_reinject_ne _ _ _ _ _ h1, objGet_objAdd_ne _ _ _ _ h2, objGet_updLink]

/-! ### A link goes Dark (R240 to R242) -/

/-- A link that has just gone Dark: no kept flit, no queue, no negotiation, and no in-lane that waits for LaneJoin. -/
def darkened (now : Nat) (l : Link) : Link :=
  { l with
    unacked := [], darkSince := some now, okSince := none, nego := 0, waitCtl := [], told := 0
    outLanes := l.outLanes.map (fun (a : Lane) => { a with q := [] })
    inLanes := l.inLanes.map (fun (a : Lane) => if a.ready then { a with why := 0, ready := false } else a) }

/-- Darkening changes no in-lane's index. -/
theorem darkened_inLanes_idx (now : Nat) (l : Link) : (darkened now l).inLanes.map Lane.idx = l.inLanes.map Lane.idx := by
  have idx_eq : ∀ a : Lane, (if a.ready then { a with why := 0, ready := false } else a).idx = a.idx := by
    intro a
    split <;> rfl
  simp [darkened, idx_eq]

theorem linkOf_goDark_self (s : State) (k cause : Nat) (h : k < s.links.length) :
    linkOf (goDark s k cause) k = darkened s.now (linkOf s k) := by
  unfold goDark
  rw [linkOf_congr (journal_links _ _ _), linkOf_updLink_self _ _ _ (by simpa using h), linkOf_objInc, linkOf_objPut,
    linkOf_handBack_self s k h]
  simp [darkened]

theorem linkOf_goDark_ne (s : State) (k i cause : Nat) (h : i ≠ k) : linkOf (goDark s k cause) i = linkOf s i := by
  unfold goDark
  rw [linkOf_congr (journal_links _ _ _), linkOf_updLink_ne _ _ _ _ h]
  exact linkOf_handBack_ne s k i false h

@[simp] theorem length_links_goDark (s : State) (k cause : Nat) : (goDark s k cause).links.length = s.links.length := by
  simp [goDark]

/-- The objects of a link gone Dark: those left by handing back, its LinkState, and LinkDarkEvents. -/
theorem objGet_goDark (s : State) (k cause x : Nat) (h1 : x ≠ Obj.journalNextSeq) (h2 : x ≠ Obj.journalDropped) :
    objGet (goDark s k cause) x
      = objGet (objInc (objPut (handBack s k false) (Obj.linkState + k) 3) Obj.linkDarkEvents) x := by
  unfold goDark
  rw [objGet_journal _ _ _ _ h1 h2, objGet_updLink]

/-- The 64 LinkState objects are none of the other objects that a Dark link changes. -/
theorem linkState_key_ne {k : Nat} (h : k < 64) {x : Nat}
    (hx : x ∈ [Obj.linkDarkEvents, Obj.drainDirty, Obj.resentFlits] ++ journalObjs) : x ≠ Obj.linkState + k := by
  rintro rfl
  simp only [journalObjs, Obj.linkState, Obj.linkDarkEvents, Obj.drainDirty, Obj.resentFlits, Obj.journalNextSeq,
    Obj.journalDropped, List.cons_append, List.nil_append, List.mem_cons, List.not_mem_nil, or_false] at hx
  omega

theorem linkState_goDark (s : State) (k cause : Nat) (h : k < 64) : linkState (goDark s k cause) k = 3 := by
  unfold linkState
  rw [objGet_goDark _ _ _ _ (linkState_key_ne h (by decide)).symm (linkState_key_ne h (by decide)).symm,
    objGet_objInc_ne _ _ _ (linkState_key_ne h (by decide)).symm, objGet_objPut_self]

theorem counted_goDark_linkDarkEvents (s : State) (k cause : Nat) (h : k < 64) :
    Counted s (goDark s k cause) Obj.linkDarkEvents 1 := by
  unfold Counted
  rw [objGet_goDark _ _ _ _ (by decide) (by decide), objGet_objInc_self,
    objGet_objPut_ne _ _ _ _ (linkState_key_ne h (by decide)), objGet_handBack_ne _ _ _ _ (by decide) (by decide)]

theorem counted_goDark_resentFlits (s : State) (k cause : Nat) (h : k < 64) :
    Counted s (goDark s k cause) Obj.resentFlits (linkOf s k).unacked.length := by
  unfold Counted
  rw [objGet_goDark _ _ _ _ (by decide) (by decide), objGet_objInc_ne _ _ _ (by decide),
    objGet_objPut_ne _ _ _ _ (linkState_key_ne h (by decide))]
  exact counted_handBack_resentFlits s k

theorem sameObjs_goDark (s : State) (k cause : Nat) :
    SameObjs s (goDark s k cause) ([Obj.linkState + k, Obj.linkDarkEvents, Obj.drainDirty, Obj.resentFlits] ++ journalObjs) := by
  intro x hx
  simp only [journalObjs, List.cons_append, List.nil_append, List.mem_cons, List.not_mem_nil, or_false, not_or] at hx
  obtain ⟨hstate, hdark, hdirty, hresent, hseq, hdropped⟩ := hx
  rw [objGet_goDark _ _ _ _ hseq hdropped, objGet_objInc_ne _ _ _ hdark, objGet_objPut_ne _ _ _ _ hstate,
    objGet_handBack_ne _ _ _ _ hdirty hresent]

/-- A transition to Dark is journalled with the link, its peer and the cause. -/
theorem logged_goDark (s : State) (k cause : Nat) (h : k < s.links.length) :
    Logged s (goDark s k cause) .linkDark [k, (linkOf s k).peer, cause] false := by
  intro room
  have peer_eq : (linkOf (goDark s k cause) k).peer = (linkOf s k).peer := by rw [linkOf_goDark_self s k cause h]; rfl
  unfold goDark at peer_eq ⊢
  rw [linkOf_congr (journal_links _ _ _)] at peer_eq
  rw [← peer_eq]
  simpa [updLink] using logged_journal _ _ _ (by simpa [updLink] using room)

/-! ### Times noted (R243) -/

/-- Noting a link's times changes only since when it holds its minima and since when no lane is in service. -/
theorem linkOf_noteTimes_self (s : State) (k : Nat) (h : k < s.links.length) :
    linkOf (noteTimes s k) k
      = { linkOf s k with okSince := (linkOf (noteTimes s k) k).okSince, noneSince := (linkOf (noteTimes s k) k).noneSince } := by
  unfold noteTimes
  rw [linkOf_updLink_self _ _ _ h]

theorem linkOf_noteTimes_ne (s : State) (k i : Nat) (h : i ≠ k) : linkOf (noteTimes s k) i = linkOf s i :=
  linkOf_updLink_ne s k i _ h

@[simp] theorem objGet_noteTimes (s : State) (k x : Nat) : objGet (noteTimes s k) x = objGet s x := rfl

/-- Noting times journals nothing: an event logged before stays the one event logged. -/
theorem logged_noteTimes {s t : State} {e : JEvent} {as : List Nat} {al : Bool} (h : Logged s t e as al) (k : Nat) :
    Logged s (noteTimes t k) e as al := h

/-! ### The retry limit (R240) -/

/-- A flit of the link has been sent 16 times without acknowledgement. -/
theorem retryLimit_of_spent (s : State) (k q : Nat) (hn : (linkOf s k).nego ≠ 0)
    (hu : (linkOf s k).unacked.any (fun (u : Unacked) => u.seq == q && decide (16 ≤ u.sends)) = true) :
    retryLimit s k q = noteTimes (goDark s k 2) k := by
  simp [retryLimit, hn, hu]

/-- The link negotiates, or the flit is acknowledged or has been sent fewer times. -/
theorem retryLimit_of_not_spent (s : State) (k q : Nat)
    (h : (linkOf s k).nego = 0
      ∨ (linkOf s k).unacked.any (fun (u : Unacked) => u.seq == q && decide (16 ≤ u.sends)) = false) :
    retryLimit s k q = s := by
  unfold retryLimit
  rcases h with hn | hu
  · simp [hn]
  · rw [hu, Bool.and_false]; rfl

theorem exec_flitRetryLimit (s : State) (k q : Nat) (h : k < 64) :
    exec (.flitRetryLimit k q) s = .next (retryLimit s k q) := by
  change need (decide (k < 64)) (retryLimit s k q) = _
  simp [need, h]

/-- The fields that the retry limit may change. -/
theorem retryLimit_eq_foot (s : State) (k q : Nat) : retryLimit s k q = foot6_3 s (retryLimit s k q) :=
  retryLimit_keeps (foot6_3 · (retryLimit s k q)) (fun _ _ => rfl) s k q

/-- Settles O24: the link goes Dark with cause 2 by `goDark`, after which only its times are noted. -/
theorem flitRetryLimitDarkensTheLink : Obligations.FlitRetryLimitDarkensTheLink := by
  unfold Obligations.FlitRetryLimitDarkensTheLink
  constructor
  · intro k q s hk hs hn hu
    have hlen : k < s.links.length := by
      obtain ⟨_, _, _, _, _, _, _, _, _, _, _, hlinks, _⟩ := hs
      omega
    have hself : linkOf (noteTimes (goDark s k 2) k) k = _ := linkOf_noteTimes_self _ _ (by simpa using hlen)
    rw [linkOf_goDark_self s k 2 hlen] at hself
    refine ⟨_, exec_flitRetryLimit s k q hk, retryLimit_eq_foot s k q, ?_⟩
    rw [retryLimit_of_spent s k q hn hu]
    have hobj : ∀ x, objGet (noteTimes (goDark s k 2) k) x = objGet (goDark s k 2) x := objGet_noteTimes _ k
    refine ⟨(hobj _).trans (linkState_goDark s k 2 hk), ?_, ?_, ?_, ?_, ?_, ?_, ?_,
      (hobj _).trans (counted_goDark_linkDarkEvents s k 2 hk), (hobj _).trans (counted_goDark_resentFlits s k 2 hk),
      fun x hx => (hobj x).trans (sameObjs_goDark s k 2 x hx), logged_noteTimes (logged_goDark s k 2 hlen) k⟩
    case refine_6 => rw [hself]; exact darkened_inLanes_idx s.now (linkOf s k)
    case refine_7 => exact fun i hi => (linkOf_noteTimes_ne _ _ _ hi).trans (linkOf_goDark_ne s k i 2 hi)
    all_goals rw [hself]; rfl
  · intro k q s hk h
    rw [exec_flitRetryLimit s k q hk, retryLimit_of_not_spent s k q h]

/-! ### A state at the retry limit -/

/-- A module out of reset whose link 5, fully negotiated, keeps flit 9 after its 16th send and flit 10 after its first. -/
def spentState : State :=
  updLink State.reset 5 (fun l =>
    { l with nego := 3, peer := 7, unacked := [⟨9, 16, 0, 0, .begins 1⟩, ⟨10, 1, 0, 0, .begins 1⟩] })

theorem spentState_partsOk : PartsOk spentState := updLink_partsOk _ _ _ reset_partsOk

theorem linkOf_spentState : linkOf spentState 5
    = { linkOf State.reset 5 with nego := 3, peer := 7, unacked := [⟨9, 16, 0, 0, .begins 1⟩, ⟨10, 1, 0, 0, .begins 1⟩] } :=
  linkOf_updLink_self _ _ _ (by simp only [State.reset, List.length_replicate]; decide)

/-- The hypotheses of both clauses are met: flit 9 has reached the limit, and link 5 goes Dark; flit 10 has not. -/
theorem spentState_flitRetryLimit :
    (∃ t, exec (.flitRetryLimit 5 9) spentState = .next t ∧ linkState t 5 = 3 ∧ (linkOf t 5).unacked = [])
      ∧ exec (.flitRetryLimit 5 10) spentState = .next spentState := by
  obtain ⟨darkens, keeps⟩ := flitRetryLimitDarkensTheLink
  constructor
  · obtain ⟨t, ht, -, hdark, hnone, -⟩ := darkens 5 9 spentState (by decide) spentState_partsOk
      (by simp [linkOf_spentState]) (by simp [linkOf_spentState])
    exact ⟨t, ht, hdark, hnone⟩
  · exact keeps 5 10 spentState (by decide) (.inr (by simp [linkOf_spentState]))

end Sys2Proof.Machine

/-!
A packet that has not moved (R259): what counting it, marking it told and journalling it leave in the routers, the
Dictionary objects and the journal, and with it the obligation of ESCAPE_STALL.
-/

namespace Sys2Proof.Machine

/-! ### Routers read after an update -/

theorem routerOf_updRouter_self (s : State) (h : Half) (f : Router → Router) :
    routerOf (updRouter s h f) h = f (routerOf s h) := by
  cases h <;> rfl

theorem routerOf_congr {s t : State} (hw : t.routerW = s.routerW) (he : t.routerE = s.routerE) (h : Half) :
    routerOf t h = routerOf s h := by
  cases h
  case w => exact hw
  case e => exact he

@[simp] theorem routerOf_objInc (s : State) (k : Nat) (h : Half) : routerOf (objInc s k) h = routerOf s h :=
  routerOf_congr (objInc_routerW s k) (objInc_routerE s k) h

@[simp] theorem routerOf_journalAlert (s : State) (e : JEvent) (as : List Nat) (h : Half) :
    routerOf (journalAlert s e as) h = routerOf s h :=
  routerOf_congr (journalAlert_routerW s e as) (journalAlert_routerE s e as) h

theorem held_updHeld (s : State) (h : Half) (id : Nat) (f : Held → Held) :
    (routerOf (updHeld s h id f) h).held
      = (routerOf s h).held.map (fun (y : Held) => if y.id = id then f y else y) := by
  unfold updHeld
  rw [routerOf_updRouter_self]

@[simp] theorem objGet_updHeld (s : State) (h : Half) (id : Nat) (f : Held → Held) (k : Nat) :
    objGet (updHeld s h id f) k = objGet s k :=
  updHeld_keeps (objGet · k) (fun _ _ => rfl) s h id f

@[simp] theorem obs_updHeld (s : State) (h : Half) (id : Nat) (f : Held → Held) : (updHeld s h id f).obs = s.obs :=
  updHeld_keeps State.obs (fun _ _ => rfl) s h id f

@[simp] theorem now_updHeld (s : State) (h : Half) (id : Nat) (f : Held → Held) : (updHeld s h id f).now = s.now :=
  updHeld_keeps State.now (fun _ _ => rfl) s h id f

@[simp] theorem coldAt_updHeld (s : State) (h : Half) (id : Nat) (f : Held → Held) : (updHeld s h id f).coldAt = s.coldAt :=
  updHeld_keeps State.coldAt (fun _ _ => rfl) s h id f

/-- An event logged depends on what was before it only through the journal, the boot count and the time. -/
theorem logged_of_congr {s s' t : State} {e : JEvent} {as : List Nat} {al : Bool} (hobs : s'.obs = s.obs)
    (hnow : s'.now = s.now) (hcold : s'.coldAt = s.coldAt) (h : Logged s' t e as al) : Logged s t e as al := by
  unfold Logged at h ⊢
  rwa [hobs, hnow, hcold] at h

/-! ### A stall told (R259) -/

/-- A stalled packet that has been counted and marked told, before its event is journalled. -/
def stallCounted (s : State) (h : Half) (id : Nat) : State :=
  updHeld (objInc s Obj.escapeStalls) h id (fun y => { y with stallTold := true })

/-- A packet on an escape VC, not told yet, has been held for EscapeStallMs. -/
theorem stallTold_of_due {s : State} {h : Half} {id : Nat} {x : Held} (hx : heldOf s h id = some x)
    (hnew : x.stallTold = false) (hvc : x.p.vc ≠ 0) (hesc : isAdaptive x.p.vc = false)
    (hdue : x.since + ms (objGet s Obj.escapeStallMs) ≤ s.now) :
    stallTold s h id
      = journalAlert (stallCounted s h id) .escapeStall [x.from_.getD 64, x.p.vc, x.p.dest] := by
  simp [stallTold, stallCounted, hx, hnew, hvc, hesc, Nat.not_lt.mpr hdue]

/-- A packet told already, on another VC, or held for less. -/
theorem stallTold_of_not_due {s : State} {h : Half} {id : Nat} {x : Held} (hx : heldOf s h id = some x)
    (hnot : x.stallTold = true ∨ x.p.vc = 0 ∨ isAdaptive x.p.vc = true
      ∨ s.now < x.since + ms (objGet s Obj.escapeStallMs)) :
    stallTold s h id = s := by
  simp only [stallTold, hx]
  rw [if_pos]
  simpa [or_assoc] using hnot

/-- The fields that telling a stall may change. -/
theorem stallTold_eq_foot (s : State) (h : Half) (id : Nat) : stallTold s h id = foot4_12 s (stallTold s h id) :=
  stallTold_keeps (foot4_12 · (stallTold s h id)) (fun _ _ => rfl) s h id

theorem held_stallCounted (s : State) (h : Half) (id : Nat) :
    (routerOf (stallCounted s h id) h).held
      = (routerOf s h).held.map (fun (y : Held) => if y.id = id then { y with stallTold := true } else y) := by
  unfold stallCounted
  rw [held_updHeld, routerOf_objInc]

theorem counted_stallCounted (s : State) (h : Half) (id : Nat) : Counted s (stallCounted s h id) Obj.escapeStalls 1 := by
  simp [Counted, stallCounted]

theorem objGet_stallCounted_ne (s : State) (h : Half) (id k : Nat) (hk : k ≠ Obj.escapeStalls) :
    objGet (stallCounted s h id) k = objGet s k := by
  unfold stallCounted
  rw [objGet_updHeld, objGet_objInc_ne _ _ _ hk]

theorem logged_stallCounted {s t : State} {h : Half} {id : Nat} {e : JEvent} {as : List Nat} {al : Bool}
    (hl : Logged (stallCounted s h id) t e as al) : Logged s t e as al := by
  exact logged_of_congr (by simp [stallCounted]) (by simp [stallCounted]) (by simp [stallCounted]) hl

/-- Settles O29: the packet is counted and marked told, then journalled on ALERT_N; no other branch changes the state. -/
theorem escapeStallsCountedAndTold : Obligations.EscapeStallsCountedAndTold := by
  unfold Obligations.EscapeStallsCountedAndTold
  refine ⟨by decide, ?_, ?_⟩
  · intro h id x s hx hnew hvc hesc hdue
    refine ⟨stallTold s h id, rfl, stallTold_eq_foot s h id, ?_⟩
    rw [stallTold_of_due hx hnew hvc hesc hdue]
    refine ⟨?held, ?stalls, ?alert, ?same, logged_stallCounted (logged_journalAlert _ _ _)⟩
    case held => rw [routerOf_journalAlert, held_stallCounted]
    case stalls =>
      unfold Counted
      rw [objGet_journalAlert _ _ _ _ (by decide) (by decide) (by decide)]
      exact counted_stallCounted s h id
    case alert =>
      unfold Counted
      rw [objGet_journalAlert_pending, objGet_stallCounted_ne _ _ _ _ (by decide)]
    case same =>
      intro k hk
      simp only [alertObjs, List.mem_cons, List.not_mem_nil, or_false, not_or] at hk
      obtain ⟨hstalls, hseq, hdropped, hpending⟩ := hk
      rw [objGet_journalAlert _ _ _ _ hseq hdropped hpending, objGet_stallCounted_ne _ _ _ _ hstalls]
  · intro h id x s hx hnot
    exact congrArg Host.Outcome.next (stallTold_of_not_due hx hnot)

/-! ### A state with a stalled packet -/

/-- A packet for chip 9 that came on link 5 and is held on an escape VC since time 0. -/
def stalledHeld : Held :=
  { id := 3, from_ := some 5, since := 0
    p := { dest := 9, src := 2, vc := 2, epoch := 0, resent := false, mark := false, echo := false, mcast := false,
           len := 0, seq := 0, pathHash := 0, hops := 0, axis := 0, lo := 0, hi := 0, reservedZero := true,
           body := .req 0 0 (.load 4) } }

/-- A module out of reset whose router of half W has held `stalledHeld` for a number of nanoseconds. -/
def stalledState (ns : Nat) : State :=
  { State.reset with now := ns, routerW := { held := [stalledHeld] } }

theorem heldOf_stalledState (ns : Nat) : heldOf (stalledState ns) .w 3 = some stalledHeld := rfl

theorem escapeStallMs_stalledState (ns : Nat) : objGet (stalledState ns) Obj.escapeStallMs = 10 :=
  escapeStallsCountedAndTold.1

/-- The hypotheses of both clauses are met, on either side of 10 ms: at 10,000,000 ns the packet is journalled, and stays
held; 1 ns earlier nothing happens. -/
theorem stalledState_escapeStall :
    (∃ t, exec (.escapeStall .w 3) (stalledState 10000000) = .next t
        ∧ (routerOf t .w).held = [{ stalledHeld with stallTold := true }]
        ∧ Logged (stalledState 10000000) t .escapeStall [5, 2, 9] true)
      ∧ exec (.escapeStall .w 3) (stalledState 9999999) = .next (stalledState 9999999) := by
  obtain ⟨-, tells, keeps⟩ := escapeStallsCountedAndTold
  constructor
  · obtain ⟨t, ht, -, hheld, -, -, -, hlog⟩ := tells .w 3 stalledHeld (stalledState 10000000) (heldOf_stalledState _) rfl
      (by decide) (by decide) (by rw [escapeStallMs_stalledState]; decide)
    exact ⟨t, ht, hheld, hlog⟩
  · exact keeps .w 3 stalledHeld _ (heldOf_stalledState _)
      (.inr (.inr (.inr (by rw [escapeStallMs_stalledState]; decide))))

end Sys2Proof.Machine

/-!
What every command does, whichever it is: it leaves the queue and the clock,
and it keeps the canonical form of memory and every part in its place. A command's meaning is one operation, or one behind a
`need`; each case cites what the operation keeps.
-/

namespace Sys2Proof.Machine

/-- What a command answers, when it answers a next state, has a property. -/
def Ensures (P : State → Prop) (r : Res) : Prop := ∀ t, r = .next t → P t

theorem ensures_next {P : State → Prop} {u : State} (h : P u) : Ensures P (.next u) := by
  intro t ht
  cases ht
  exact h

theorem ensures_need {P : State → Prop} {ok : Bool} {u : State} (h : P u) : Ensures P (need ok u) := by
  cases ok with
  | true => exact ensures_next h
  | false => exact fun t ht => nomatch ht

/-- The waiting commands and the clock. -/
def queueClock (s : State) : List Instr × Nat := (s.pending, s.now)


/-! ### A command that stops although it counts as well-formed -/

/-- A request of an engine that the module does not have: the command counts as well-formed all the same. -/
theorem wf_streamRequestIssue (r : SliceRead) : (Instr.streamRequestIssue r).wf = true := rfl

theorem exec_streamRequestIssue_missing (r : SliceRead) (s : State) (h : 72 ≤ r.engine) :
    exec (.streamRequestIssue r) s = .fault .noSuchPart := by
  have hb : decide (r.engine < 72) = false := decide_eq_false (Nat.not_lt.mpr h)
  change need (decide (r.engine < 72)) _ = _
  rw [hb]
  rfl

/-- Refutes O2: STREAM_REQUEST_ISSUE for engine 72 counts as well-formed, since its engine stands in a record that
well-formedness does not look into, and stops with a missing part in every state, out of reset for one. -/
theorem not_wellFormedCommandAnswersNextState : ¬ Obligations.WellFormedCommandAnswersNextState := by
  unfold Obligations.WellFormedCommandAnswersNextState
  rintro ⟨answers, -⟩
  obtain ⟨t, ht⟩ := answers (.streamRequestIssue { engine := 72, tst := [] }) State.reset (wf_streamRequestIssue _)
  rw [exec_streamRequestIssue_missing _ _ (by decide)] at ht
  cases ht

/-! ### The queue and the clock -/

theorem scanAtomic_keeps {γ : Type} (vw : State → γ) (hg : ∀ s t, vw (footRun s t) = vw s) (s : State) (nn : Nat)
    (ws : List Word64) (code : Nat) : vw (scanAtomic s nn ws code).st = vw s := by
  unfold scanAtomic amaxHere
  split
  · rfl
  split
  · split
    · exact forgetBad_keeps vw (fun s t => hg s (footHost s t)) _ _
    · exact atomicAt_keeps vw (fun s t => hg s (foot12_2 s t)) _ _ _ _ _ _
  · split
    · exact objInc_keeps vw (fun s t => hg s (footDic s t)) _ _
    · split
      · split
        · exact forgetBad_keeps vw (fun s t => hg s (footHost s t)) _ _
        · exact atomicAt_keeps vw (fun s t => hg s (foot12_2 s t)) _ _ _ _ _ _
      · exact (updVec_keeps vw (fun s t => hg s (footVecs s t)) _ _ _).trans
          (sendRequest_keeps vw (fun s t => hg s (foot5_10 s t)) _ _ _ _ _ _ _ _)
  · rfl

theorem exec_keeps_queueClock (c : Instr) (s : State) : Ensures (fun t => queueClock t = queueClock s) (exec c s) := by
  cases c with
  | bridgeFlitReceive bundle flit crcOk => exact ensures_need (bridgeFlit_keeps queueClock (fun _ _ => rfl) _ _ _ _)
  | bundleRetire bundle => exact ensures_need (retireBundle_keeps queueClock (fun _ _ => rfl) _ _)
  | pilotLinkFailure => exact ensures_next (pilotFails_keeps queueClock (fun _ _ => rfl) _)
  | pilotTrainRetry trained =>
    exact ensures_next (by simp only [apply_ite queueClock, ite_self, objPut_keeps queueClock (fun _ _ => rfl)])
  | arrayPass nn tst => exact ensures_need (arrayPass_keeps queueClock (fun _ _ => rfl) _ _ _)
  | arrayRowCommit nn upset => exact ensures_need (rowCommit_keeps queueClock (fun _ _ => rfl) _ _ _)
  | witnessRerunDone nn upset => exact ensures_need (rerunDone_keeps queueClock (fun _ _ => rfl) _ _ _)
  | bankHandoff nn => exact ensures_need (handOff_keeps queueClock (fun _ _ => rfl) _ _)
  | arrayDescriptorComplete nn => exact ensures_need (arrayDone_keeps queueClock (fun _ _ => rfl) _ _)
  | vectorProgram nn tst =>
    exact ensures_need (vecStart_keeps queueClock (fun _ _ => rfl) _ _ _ _ _ _ (fun _ _ => vecExec_keeps queueClock
      (fun _ _ => rfl) _ _ _))
  | treeMerge nn tst =>
    exact ensures_need (vecStart_keeps queueClock (fun _ _ => rfl) _ _ _ _ _ _ (fun _ _ => mrgExec_keeps queueClock
      (fun _ _ => rfl) _ _ _))
  | scan nn tst =>
    exact ensures_need (amaxPastDim_keeps queueClock (fun _ _ => rfl) _ _ _ (fun _ => vecStart_keeps queueClock
      (fun _ _ => rfl) _ _ _ _ _ _ (fun _ _ => scanAtomic_keeps queueClock (fun _ _ => rfl) _ _ _ _ |>.trans
      (scanExec_keeps queueClock (fun _ _ => rfl) _ _ _))))
  | rebias nn tst =>
    exact ensures_need (vecStart_keeps queueClock (fun _ _ => rfl) _ _ _ _ _ _ (fun _ _ => rebExec_keeps queueClock
      (fun _ _ => rfl) _ _ _))
  | vectorDescriptorComplete nn => exact ensures_need (vecDone_keeps queueClock (fun _ _ => rfl) _ _)
  | layerOpen q list => exact ensures_need (layerOpenAt_keeps queueClock (fun _ _ => rfl) _ _ _)
  | layerAttemptEnd q list => exact ensures_need (attemptEnd_keeps queueClock (fun _ _ => rfl) _ _ _)
  | escalationImageCommit r handle digest =>
    exact ensures_next (commitRow_keeps queueClock (fun _ _ => rfl) _ _ _ _ _ _ _ _ _ _
      (fun _ _ => escImageApply_keeps queueClock (fun _ _ => rfl) _ _) (fun _ => rfl))
  | streamStart engine => exact ensures_need (streamStartAt_keeps queueClock (fun _ _ => rfl) _ _)
  | claimGrant slice => exact ensures_need (grantIn_keeps queueClock (fun _ _ => rfl) _ _)
  | streamRequestIssue r => exact ensures_need (by simp only [issueScan_keeps queueClock (fun _ _ => rfl)])
  | streamRequestDone engine seq req o =>
    exact ensures_need (by simp only [atsSettle_keeps queueClock (fun _ _ => rfl),
      streamDoneAt_keeps queueClock (fun _ _ => rfl)])
  | seamMarker q => exact ensures_next (seamMarkerAt_keeps queueClock (fun _ _ => rfl) _ _)
  | seamOpen q => exact ensures_next (seamOpenAt_keeps queueClock (fun _ _ => rfl) _ _)
  | deadlockWatchFire slice => exact ensures_need (watchFire_keeps queueClock (fun _ _ => rfl) _ _)
  | spillCopyDone slice => exact ensures_need (spillDone_keeps queueClock (fun _ _ => rfl) _ _)
  | spillReclaim slice => exact ensures_need (reclaim_keeps queueClock (fun _ _ => rfl) _ _)
  | restoreCopyDone slice => exact ensures_need (restoreDone_keeps queueClock (fun _ _ => rfl) _ _)
  | tileStoreScrub slice w0 w1 => exact ensures_need (scrubTile_keeps queueClock (fun _ _ => rfl) _ _ _ _)
  | lpddrReadComplete package channel es =>
    exact ensures_need (by simp only [apply_ite queueClock, ite_self, serveChannel_keeps queueClock (fun _ _ => rfl)])
  | lpddrWriteAccept line mask data poison =>
    exact ensures_need (by simp only [apply_ite queueClock, ite_self, writeLine_keeps queueClock (fun _ _ => rfl)])
  | packageTempRead pkg tempC => exact ensures_need (packageTemp_keeps queueClock (fun _ _ => rfl) _ _ _)
  | channelOvertemp ch => exact ensures_need (overtemp_keeps queueClock (fun _ _ => rfl) _ _)
  | lpddrScrubRead ch es => exact ensures_need (scrubGranule_keeps queueClock (fun _ _ => rfl) _ _ _)
  | retrainStart ch =>
    exact ensures_need (by simp only [apply_ite queueClock, ite_self, fallDue_keeps queueClock (fun _ _ => rfl)])
  | retrainEnd ch ok => exact ensures_need (endRetrain_keeps queueClock (fun _ _ => rfl) _ _ _)
  | softRepairStart ch bank row =>
    exact ensures_need (by simp only [apply_ite queueClock, ite_self, fallDue_keeps queueClock (fun _ _ => rfl)])
  | softRepairEnd ch resource bad => exact ensures_need (endRepair_keeps queueClock (fun _ _ => rfl) _ _ _ _)
  | channelFailure ch =>
    exact ensures_need (by simp only [apply_ite queueClock, ite_self, failChannel_keeps queueClock (fun _ _ => rfl)])
  | queueLaunch block parts =>
    exact ensures_next (mbxRun_keeps queueClock (fun _ _ => rfl) _ _ _ (fun _ => launch_keeps queueClock
      (fun _ _ => rfl) _ _ _ _))
  | queueDestroy =>
    exact ensures_next (mbxRun_keeps queueClock (fun _ _ => rfl) _ _ _ (fun _ => destroy_keeps queueClock (fun _ _ => rfl) _))
  | qsyDoorbell q p => exact ensures_need (hostPage_keeps queueClock (fun _ _ => rfl) _ _ _ _)
  | descriptorFetch q f => exact ensures_need (fetchOne_keeps queueClock (fun _ _ => rfl) _ _ _)
  | descriptorIssue half =>
    exact ensures_next (by simp only [apply_ite queueClock, ite_self, issueAny_keeps queueClock (fun _ _ => rfl)])
  | qsyCmdRelease q => exact ensures_need (hostPage_keeps queueClock (fun _ _ => rfl) _ _ _ _)
  | qsyCmdDiscard q => exact ensures_need (hostPage_keeps queueClock (fun _ _ => rfl) _ _ _ _)
  | qsyCmdAbort q => exact ensures_need (hostPage_keeps queueClock (fun _ _ => rfl) _ _ _ _)
  | qsyIrqWrite q v => exact ensures_need (hostPage_keeps queueClock (fun _ _ => rfl) _ _ _ _)
  | cplPendingTimeout q => exact ensures_need (cplTimeout_keeps queueClock (fun _ _ => rfl) _ _)
  | syncSignal obj amount => exact ensures_need (syncAdd_keeps queueClock (fun _ _ => rfl) _ _ _)
  | syncSet obj value => exact ensures_need (by simp only [syncPut_keeps queueClock (fun _ _ => rfl)])
  | waitPoll half => exact ensures_next rfl
  | coreWatchdogExpire core pc imageOk =>
    exact ensures_need (by simp only [apply_ite queueClock, ite_self, watchdog_keeps queueClock (fun _ _ => rfl)])
  | coreRestartDone core =>
    exact ensures_need (by simp only [apply_ite queueClock, ite_self, coreBack_keeps queueClock (fun _ _ => rfl)])
  | supervisorWatchdogExpire =>
    refine ensures_next ?_
    split
    · exact updPower_keeps queueClock (fun _ _ => rfl) _ _
    · exact rfl
  | lightLoss laser line => exact ensures_need (loseLight_keeps queueClock (fun _ _ => rfl) _ _ _)
  | lightRestore laser line => exact ensures_need (gainLight_keeps queueClock (fun _ _ => rfl) _ _ _)
  | lockInReading ring errMHz => exact ensures_need (lockIn_keeps queueClock (fun _ _ => rfl) _ _ _)
  | feedForwardUpdate ring sites => exact ensures_need (by simp only [feedForward_keeps queueClock (fun _ _ => rfl)])
  | ringLockLoss ring => exact ensures_need (loseLock_keeps queueClock (fun _ _ => rfl) _ _)
  | rotorStep fibre => exact ensures_need (rotorStep_keeps queueClock (fun _ _ => rfl) _ _)
  | rotorLineLocked fibre => exact ensures_need (rotorLocked_keeps queueClock (fun _ _ => rfl) _ _)
  | rotorAcceptTimeout fibre => exact ensures_need (rotorLate_keeps queueClock (fun _ _ => rfl) _ _)
  | idleDropSweep inFibre locked => exact ensures_need (idleSweep_keeps queueClock (fun _ _ => rfl) _ _ _)
  | laneRecoveryEnd ring found t => exact ensures_need (recoveryEnd_keeps queueClock (fun _ _ => rfl) _ _ _ _)
  | beaconSend fibre line => exact ensures_need (sendBeacon_keeps queueClock (fun _ _ => rfl) _ _ _)
  | beaconReceive inFibre line b => exact ensures_need (hearBeacon_keeps queueClock (fun _ _ => rfl) _ _ _ _)
  | mapEntryExpire fibre line => exact ensures_need (expireEntry_keeps queueClock (fun _ _ => rfl) _ _ _)
  | laneDemandCommit r handle digest =>
    exact ensures_next (commitRow_keeps queueClock (fun _ _ => rfl) _ _ _ _ _ _ _ _ _ _
      (fun _ _ => setDemand_keeps queueClock (fun _ _ => rfl) _ _) (fun _ => rfl))
  | lineRequestSend fibre line => exact ensures_need (sendLineRequest_keeps queueClock (fun _ _ => rfl) _ _ _)
  | lineRequest chip outFibre line inFibre => exact ensures_need (takeLineRequest_keeps queueClock (fun _ _ => rfl) _ _ _ _ _)
  | lineGrant fibre line t => exact ensures_need (takeGrant_keeps queueClock (fun _ _ => rfl) _ _ _ _)
  | lineRefuse fibre line => exact ensures_need (takeRefusal_keeps queueClock (fun _ _ => rfl) _ _ _)
  | flitReceive inFibre line f => exact ensures_need (takeFlit_keeps queueClock (fun _ _ => rfl) _ _ _ _)
  | flitResendTimeout link flitSeq => exact ensures_need (flitTimeout_keeps queueClock (fun _ _ => rfl) _ _ _)
  | flitRetryLimit link flitSeq => exact ensures_need (retryLimit_keeps queueClock (fun _ _ => rfl) _ _ _)
  | linkReform link => exact ensures_need (reform_keeps queueClock (fun _ _ => rfl) _ _)
  | linkRemove link => exact ensures_need (removeDark_keeps queueClock (fun _ _ => rfl) _ _)
  | laneErrorRemoval link lane => exact ensures_need (removeForErrors_keeps queueClock (fun _ _ => rfl) _ _ _)
  | laneTrainingDone outgoing fibre line t => exact ensures_need (trainingDone_keeps queueClock (fun _ _ => rfl) _ _ _ _ _)
  | capability link version caps epochProto =>
    exact ensures_need (by simp only [apply_ite queueClock, ite_self, takeCapability_keeps queueClock (fun _ _ => rfl),
      peerReforms_keeps queueClock (fun _ _ => rfl)])
  | capabilityAck link agreed => exact ensures_need (takeCapabilityAck_keeps queueClock (fun _ _ => rfl) _ _ _)
  | propose link lane toLine copyOk => exact ensures_need (takePropose_keeps queueClock (fun _ _ => rfl) _ _ _ _ _)
  | accept link lane => exact ensures_need (takeAccept_keeps queueClock (fun _ _ => rfl) _ _ _)
  | rotorAbort link lane => exact ensures_need (takeAbort_keeps queueClock (fun _ _ => rfl) _ _ _)
  | laneDown link lane cause => exact ensures_need (takeDown_keeps queueClock (fun _ _ => rfl) _ _ _ _)
  | laneJoin link lane flitSeq => exact ensures_need (takeJoin_keeps queueClock (fun _ _ => rfl) _ _ _ _)
  | laneLeave link lane flitSeq => exact ensures_need (takeLeave_keeps queueClock (fun _ _ => rfl) _ _ _ _)
  | greyNotice link cause => exact ensures_need (takeGrey_keeps queueClock (fun _ _ => rfl) _ _ _)
  | intendedMapCommit r handle digest =>
    exact ensures_next (commitRow_keeps queueClock (fun _ _ => rfl) _ _ _ _ _ _ _ _ _ _ (fun _ _ =>
      (applyIntended_keeps queueClock (fun _ _ => rfl) _).trans (domPut_keeps queueClock (fun _ _ => rfl) _ _ _))
      (fun _ => rfl))
  | linkQuarantineWrite r v => exact ensures_next (writeLinkQuarantine_keeps queueClock (fun _ _ => rfl) _ _ _)
  | packetRoute half id => exact ensures_next (routePacket_keeps queueClock (fun _ _ => rfl) _ _ _)
  | escapeWaitExpire half id => exact ensures_next (escapeExpire_keeps queueClock (fun _ _ => rfl) _ _ _)
  | escapeStall half id => exact ensures_next (stallTold_keeps queueClock (fun _ _ => rfl) _ _ _)
  | routeTableLoad r handle digest =>
    exact ensures_next (commitRow_keeps queueClock (fun _ _ => rfl) _ _ _ _ _ _ _ _ _ _
      (fun _ _ => loadTables_keeps queueClock (fun _ _ => rfl) _ _) (fun _ => rfl))
  | epochSwitch r v => exact ensures_next (writeEpochSwitch_keeps queueClock (fun _ _ => rfl) _ _ _)
  | drainArm r v => exact ensures_next (writeDrainArm_keeps queueClock (fun _ _ => rfl) _ _ _)
  | epochRelease r v => exact ensures_next (writeEpochRelease_keeps queueClock (fun _ _ => rfl) _ _ _)
  | hotWindowGrow half cls dest => exact ensures_next (growHot_keeps queueClock (fun _ _ => rfl) _ _ _ _)
  | classWindowAdjust half cls fill => exact ensures_next (adjustWindow_keeps queueClock (fun _ _ => rfl) _ _ _ _)
  | loadRequest p => exact ensures_next (by simp only [serveLoad_keeps queueClock (fun _ _ => rfl)])
  | storeRequest p => exact ensures_next (serveStore_keeps queueClock (fun _ _ => rfl) _ _)
  | atomicRequest p => exact ensures_next (by simp only [serveAtomic_keeps queueClock (fun _ _ => rfl)])
  | remoteSignalRequest p => exact ensures_next (serveSignal_keeps queueClock (fun _ _ => rfl) _ _)
  | fabricReplyReceive p => exact ensures_next (takeReply_keeps queueClock (fun _ _ => rfl) _ _)
  | replyTimeout tag => exact ensures_next (replyLate_keeps queueClock (fun _ _ => rfl) _ _)
  | windowOpen =>
    exact ensures_next (mbxRun_keeps queueClock (fun _ _ => rfl) _ _ _ (fun _ => openWindow_keeps queueClock
      (fun _ _ => rfl) _))
  | windowModify =>
    exact ensures_next (mbxRun_keeps queueClock (fun _ _ => rfl) _ _ _ (fun _ => modifyWindow_keeps queueClock
      (fun _ _ => rfl) _))
  | windowClose =>
    exact ensures_next (mbxRun_keeps queueClock (fun _ _ => rfl) _ _ _ (fun _ => closeWindow_keeps queueClock
      (fun _ _ => rfl) _))
  | replayEntryExpire half src seq => exact ensures_next (expireReplay_keeps queueClock (fun _ _ => rfl) _ _ _ _)
  | atomicUnitWriteback addr => exact ensures_next (atomWriteBack_keeps queueClock (fun _ _ => rfl) _ _)
  | rcacheInvalidate q =>
    exact ensures_next (runTogether_keeps queueClock (fun _ _ => rfl) _ _ _ _ _ (fun _ _ _ _ => schedReady_keeps queueClock
      (fun _ _ => rfl) _ _ _ _) (fun _ _ => rciRun_keeps queueClock (fun _ _ => rfl) _ _ _))
  | collQueueLaunch block parts =>
    exact ensures_next (mbxRun_keeps queueClock (fun _ _ => rfl) _ _ _ (fun _ => launch_keeps queueClock
      (fun _ _ => rfl) _ _ _ _))
  | collectiveIssue =>
    exact ensures_next (by simp only [apply_ite queueClock, ite_self, issueColl_keeps queueClock (fun _ _ => rfl)])
  | collectiveActivate half => exact ensures_next (activate_keeps queueClock (fun _ _ => rfl) _ _)
  | collLocalInput collId chunk segment => exact ensures_next (localInput_keeps queueClock (fun _ _ => rfl) _ _ _ _)
  | collPacketReceive p => exact ensures_next (takeColl_keeps queueClock (fun _ _ => rfl) _ _)
  | greySegmentReduce collId level chunk segment => exact ensures_next (reduceGrey_keeps queueClock (fun _ _ => rfl) _ _ _ _ _)
  | collWatchdogExpire collId => exact ensures_next (collExpire_keeps queueClock (fun _ _ => rfl) _ _)
  | collAbort =>
    exact ensures_next (mbxRun_keeps queueClock (fun _ _ => rfl) _ _ _ (fun _ => abortColl_keeps queueClock (fun _ _ => rfl) _))
  | pendingEntryExpire collId => exact ensures_next (pendExpire_keeps queueClock (fun _ _ => rfl) _ _)
  | collGroupTableCommit r handle digest =>
    exact ensures_next (commitRow_keeps queueClock (fun _ _ => rfl) _ _ _ _ _ _ _ _ _ _ (fun _ _ => rfl) (fun _ => rfl))
  | configRequest c =>
    exact ensures_next (by simp only [apply_ite queueClock, ite_self, emit_keeps queueClock (fun _ _ => rfl),
      config_keeps queueClock (fun _ _ => rfl)])
  | mailboxUnknownCommand =>
    exact ensures_next (by simp only [apply_ite queueClock, ite_self, mbxEnd_keeps queueClock (fun _ _ => rfl)])
  | msixUnmask vector =>
    cases vector with
    | some v => exact ensures_need (by simp only [sendPending_keeps queueClock (fun _ _ => rfl),
      updHost_keeps queueClock (fun _ _ => rfl)])
    | none => exact ensures_next (by simp only [sendPending_keeps queueClock (fun _ _ => rfl),
      updHost_keeps queueClock (fun _ _ => rfl)])
  | dataPortWrite first bytes poison => exact ensures_next (dataWrite_keeps queueClock (fun _ _ => rfl) _ _ _ _)
  | dataPortRead first r => exact ensures_next (by simp only [dataRead_keeps queueClock (fun _ _ => rfl)])
  | bar2Access offset a => exact ensures_next (bar2_keeps queueClock (fun _ _ => rfl) _ _ _)
  | hostSnoop addr => exact ensures_next (by simp only [emit_keeps queueClock (fun _ _ => rfl)])
  | atsInvalidation pasid page =>
    exact ensures_next (by simp only [atsSettle_keeps queueClock (fun _ _ => rfl), updHost_keeps queueClock (fun _ _ => rfl)])
  | pageResponse pasid page => exact ensures_next (by simp only [updHost_keeps queueClock (fun _ _ => rfl)])
  | cxlMemRead x =>
    exact ensures_next (by simp only [apply_ite queueClock, ite_self, hostAccess_keeps queueClock (fun _ _ => rfl),
      openData_keeps queueClock (fun _ _ => rfl)])
  | cxlMemWrite line mask data poison =>
    exact ensures_next (by simp only [apply_ite queueClock, ite_self, hostAccess_keeps queueClock (fun _ _ => rfl),
      objInc_keeps queueClock (fun _ _ => rfl)])
  | bisnpResponse line => exact ensures_next (bisnpAnswered_keeps queueClock (fun _ _ => rfl) _ _)
  | bisnpTimeout line => exact ensures_next (bisnpLate_keeps queueClock (fun _ _ => rfl) _ _)
  | perstNAssert =>
    exact ensures_next (by simp only [updHost_keeps queueClock (fun _ _ => rfl), linkGone_keeps queueClock (fun _ _ => rfl),
      hostReset_keeps queueClock (fun _ _ => rfl)])
  | hotReset =>
    exact ensures_next (by simp only [linkGone_keeps queueClock (fun _ _ => rfl), hostReset_keeps queueClock (fun _ _ => rfl)])
  | hostLinkDown =>
    exact ensures_next (by simp only [linkGone_keeps queueClock (fun _ _ => rfl), hostReset_keeps queueClock (fun _ _ => rfl)])
  | functionLevelReset => exact ensures_next (hostReset_keeps queueClock (fun _ _ => rfl) _)
  | hostQueuesDestroy => exact ensures_next (destroyAll_keeps queueClock (fun _ _ => rfl) _)
  | perstNDeassert refclk =>
    exact ensures_next (by simp only [apply_ite queueClock, ite_self, updHost_keeps queueClock (fun _ _ => rfl)])
  | hostLinkTrained gen width => exact ensures_next (linkTrained_keeps queueClock (fun _ _ => rfl) _ _ _)
  | dapFragment ip port w0 w1 payload reversed =>
    exact ensures_next (by simp only [apply_ite queueClock, ite_self, noteReversed_keeps queueClock (fun _ _ => rfl),
      emit_keeps queueClock (fun _ _ => rfl), takeFragment_keeps queueClock (fun _ _ => rfl)])
  | dapReassemblyTimeout session seq => exact ensures_next (by simp only [updMgmt_keeps queueClock (fun _ _ => rfl)])
  | dicRead r key => exact ensures_next (readRow_keeps queueClock (fun _ _ => rfl) _ _ _)
  | dicWrite r key value =>
    exact ensures_next (by simp only [apply_ite queueClock, ite_self, writePlain_keeps queueClock (fun _ _ => rfl)])
  | describe r key =>
    refine ensures_next (ask_keeps queueClock (fun _ _ => rfl) _ _ _ _ _ _ _ (fun _ _ => ?_))
    split <;> exact rfl
  | domainOpen r key dir size =>
    exact ensures_next (ask_keeps queueClock (fun _ _ => rfl) _ _ _ _ _ _ _ (fun _ _ => domainOpen_keeps queueClock
      (fun _ _ => rfl) _ _ _ _ _ _))
  | domainSegment r header data =>
    exact ensures_next (ask_keeps queueClock (fun _ _ => rfl) _ _ _ _ _ _ _ (fun _ _ => segment_keeps queueClock
      (fun _ _ => rfl) _ _ _ _))
  | domainCommit r handle digest =>
    refine ensures_next ?_
    split
    · exact ask_keeps queueClock (fun _ _ => rfl) _ _ _ _ _ _ _ (fun _ _ => rfl)
    · split
      · exact rfl
      · exact commitRow_keeps queueClock (fun _ _ => rfl) _ _ _ _ _ _ _ _ _ _ (fun _ _ => rfl) (fun _ => rfl)
  | domainAbort r handle =>
    refine ensures_next (ask_keeps queueClock (fun _ _ => rfl) _ _ _ _ _ _ _ (fun _ _ => ?_))
    split
    · exact rfl
    · exact dropXfer_keeps queueClock (fun _ _ => rfl) _ _
  | domainTransferTimeout handle =>
    refine ensures_next ?_
    split <;> simp only [apply_ite queueClock, ite_self, dropXfer_keeps queueClock (fun _ _ => rfl)]
  | sessionHello ip port seq role => exact ensures_next (hello_keeps queueClock (fun _ _ => rfl) _ _ _ _ _)
  | sessionProve r key signature =>
    refine ensures_next ?_
    split <;> simp only [prove_keeps queueClock (fun _ _ => rfl)]
  | sessionClose r =>
    exact ensures_next (ask_keeps queueClock (fun _ _ => rfl) _ _ _ _ _ _ _ (fun _ _ => closeSession_keeps queueClock
      (fun _ _ => rfl) _ _))
  | keepalive r => exact ensures_next (ask_keeps queueClock (fun _ _ => rfl) _ _ _ _ _ _ _ (fun _ _ => rfl))
  | sessionProveTimeout session =>
    refine ensures_next ?_
    split <;> simp only [apply_ite queueClock, ite_self, closeSession_keeps queueClock (fun _ _ => rfl)]
  | sessionIdleExpire session =>
    refine ensures_next ?_
    split <;> simp only [apply_ite queueClock, ite_self, closeSession_keeps queueClock (fun _ _ => rfl)]
  | authLockoutExpire =>
    refine ensures_next ?_
    split <;> simp only [apply_ite queueClock, ite_self, updMgmt_keeps queueClock (fun _ _ => rfl)]
  | persistCommit key =>
    refine ensures_next ?_
    split
    · exact rfl
    split
    · exact objInc_keeps queueClock (fun _ _ => rfl) _ _
    · exact toFlash_keeps queueClock (fun _ _ => rfl) _ _
  | dhcpLease ip =>
    exact ensures_next (by simp only [apply_ite queueClock, ite_self, objPut_keeps queueClock (fun _ _ => rfl),
      updMgmt_keeps queueClock (fun _ _ => rfl)])
  | dhcpTimeout => exact ensures_next (by simp only [apply_ite queueClock, ite_self, objPut_keeps queueClock (fun _ _ => rfl)])
  | dhcpRetry => exact ensures_next (by simp only [apply_ite queueClock, ite_self, emit_keeps queueClock (fun _ _ => rfl)])
  | plcaBeaconLoss =>
    exact ensures_next (by simp only [apply_ite queueClock, ite_self, objInc_keeps queueClock (fun _ _ => rfl),
      updMgmt_keeps queueClock (fun _ _ => rfl)])
  | arpRequest ip => exact ensures_next (by simp only [apply_ite queueClock, ite_self, emit_keeps queueClock (fun _ _ => rfl)])
  | icmpEcho ip payload =>
    exact ensures_next (by simp only [apply_ite queueClock, ite_self, emit_keeps queueClock (fun _ _ => rfl)])
  | memHashKeyWrite r v burnt => exact ensures_next (writeMemHashKey_keeps queueClock (fun _ _ => rfl) _ _ _ _)
  | chipNumberLockWrite r v burnt => exact ensures_next (writeChipNumberLock_keeps queueClock (fun _ _ => rfl) _ _ _ _)
  | thermalRedOverrideWrite r v burnt => exact ensures_next (writeThermalRedOverride_keeps queueClock (fun _ _ => rfl) _ _ _ _)
  | lifecycleStateWrite r v burnt => exact ensures_next (writeLifecycle_keeps queueClock (fun _ _ => rfl) _ _ _ _)
  | antiRollbackLevelWrite r v burnt => exact ensures_next (writeAntiRollback_keeps queueClock (fun _ _ => rfl) _ _ _ _)
  | paleEnter mv =>
    exact ensures_next (by simp only [apply_ite queueClock, ite_self, settleVolts_keeps queueClock (fun _ _ => rfl),
      updPower_keeps queueClock (fun _ _ => rfl), noteSupply_keeps queueClock (fun _ _ => rfl)])
  | paleExit mv =>
    exact ensures_next (by simp only [apply_ite queueClock, ite_self, endPaleWait_keeps queueClock (fun _ _ => rfl),
      endPale_keeps queueClock (fun _ _ => rfl), noteSupply_keeps queueClock (fun _ _ => rfl)])
  | paleLong =>
    exact ensures_next (by simp only [apply_ite queueClock, ite_self, updPower_keeps queueClock (fun _ _ => rfl),
      journalAlert_keeps queueClock (fun _ _ => rfl)])
  | supplyReset mv =>
    exact ensures_next (by simp only [apply_ite queueClock, ite_self, objPut_keeps queueClock (fun _ _ => rfl),
      noteSupply_keeps queueClock (fun _ _ => rfl), journalAlert_keeps queueClock (fun _ _ => rfl),
      supplyDown_keeps queueClock (fun _ _ => rfl), journal_keeps queueClock (fun _ _ => rfl),
      objInc_keeps queueClock (fun _ _ => rfl)])
  | auxLoss =>
    exact ensures_next (by simp only [apply_ite queueClock, ite_self, updPower_keeps queueClock (fun _ _ => rfl),
      journalAlert_keeps queueClock (fun _ _ => rfl), objPut_keeps queueClock (fun _ _ => rfl),
      unpower_keeps queueClock (fun _ _ => rfl)])
  | converterFault conv =>
    exact ensures_need (by simp only [apply_ite queueClock, ite_self, journalAlert_keeps queueClock (fun _ _ => rfl),
      objBit_keeps queueClock (fun _ _ => rfl), settleVolts_keeps queueClock (fun _ _ => rfl),
      updPower_keeps queueClock (fun _ _ => rfl)])
  | powerLimitOverrun =>
    exact ensures_next (by simp only [apply_ite queueClock, ite_self, settleVolts_keeps queueClock (fun _ _ => rfl),
      updPower_keeps queueClock (fun _ _ => rfl)])
  | powerLimitRecover =>
    exact ensures_next (by simp only [apply_ite queueClock, ite_self, ceilingRose_keeps queueClock (fun _ _ => rfl),
      updPower_keeps queueClock (fun _ _ => rfl)])
  | setpointStep half watts =>
    exact ensures_next (by simp only [apply_ite queueClock, ite_self, stepHalf_keeps queueClock (fun _ _ => rfl)])
  | commitDeferralRetry mj =>
    exact ensures_next (by simp only [apply_ite queueClock, ite_self, objPut_keeps queueClock (fun _ _ => rfl),
      updPower_keeps queueClock (fun _ _ => rfl), objInc_keeps queueClock (fun _ _ => rfl)])
  | holdUpFault =>
    refine ensures_next ?_
    split <;> simp only [apply_ite queueClock, ite_self, updPower_keeps queueClock (fun _ _ => rfl),
      journalAlert_keeps queueClock (fun _ _ => rfl)]
  | sensorReading site r0 r1 =>
    exact ensures_need (by simp only [apply_ite queueClock, ite_self, readSite_keeps queueClock (fun _ _ => rfl)])
  | sensorUnflag site sensor =>
    refine ensures_need ?_
    split <;> simp only [apply_ite queueClock, ite_self, updSite_keeps queueClock (fun _ _ => rfl)]
  | amberEnter dom =>
    exact ensures_need (by simp only [apply_ite queueClock, ite_self, settleVolts_keeps queueClock (fun _ _ => rfl),
      updDom_keeps queueClock (fun _ _ => rfl), objInc_keeps queueClock (fun _ _ => rfl)])
  | amberStep dom =>
    refine ensures_need ?_
    split <;> simp only [apply_ite queueClock, ite_self, settleVolts_keeps queueClock (fun _ _ => rfl),
      updDom_keeps queueClock (fun _ _ => rfl)]
  | amberExit dom =>
    refine ensures_need ?_
    split <;> simp only [apply_ite queueClock, ite_self, ceilingRose_keeps queueClock (fun _ _ => rfl),
      updDom_keeps queueClock (fun _ _ => rfl), objAdd_keeps queueClock (fun _ _ => rfl)]
  | redExit dom =>
    refine ensures_need ?_
    split
    · exact (ceilingRose_keeps queueClock (fun _ _ => rfl) _ _).trans ((foldlState queueClock _
      (fun _ _ => updSite_keeps queueClock (fun _ _ => rfl) _ _ _) _ _).trans (updDom_keeps queueClock (fun _ _ => rfl) _ _ _))
    · exact rfl
  | blackRateTrigger site =>
    refine ensures_need ?_
    split <;> simp only [apply_ite queueClock, ite_self, blackShutdown_keeps queueClock (fun _ _ => rfl)]
  | thermalAutoRestart =>
    refine ensures_next ?_
    split <;> simp only [apply_ite queueClock, ite_self, leaveBlack_keeps queueClock (fun _ _ => rfl)]
  | thermalRestartWrite r v => exact ensures_next (writeThermalRestart_keeps queueClock (fun _ _ => rfl) _ _ _)
  | katRun nn failedPass =>
    refine ensures_need ?_
    cases failedPass <;> simp only [apply_ite queueClock, ite_self, katPassed_keeps queueClock (fun _ _ => rfl),
      katFailed_keeps queueClock (fun _ _ => rfl)]
  | checkpointNow r v => exact ensures_next (writeCheckpointNow_keeps queueClock (fun _ _ => rfl) _ _ _)
  | checkpointQuiesced =>
    refine ensures_next ?_
    split
    · exact updSeqs_keeps queueClock (fun _ _ => rfl) _ _
    · exact rfl
  | checkpointQuiesceTimeout =>
    exact ensures_next (by simp only [apply_ite queueClock, ite_self, failCheckpoint_keeps queueClock (fun _ _ => rfl)])
  | checkpointCopyDone =>
    exact ensures_next (by simp only [apply_ite queueClock, ite_self, copyOut_keeps queueClock (fun _ _ => rfl),
      takeDoorbells_keeps queueClock (fun _ _ => rfl), objPut_keeps queueClock (fun _ _ => rfl),
      updSeqs_keeps queueClock (fun _ _ => rfl)])
  | checkpointRestore r v => exact ensures_next (writeCheckpointRestore_keeps queueClock (fun _ _ => rfl) _ _ _)
  | warmRestartWrite r v => exact ensures_next (writeWarmRestart_keeps queueClock (fun _ _ => rfl) _ _ _)
  | warmRestartStepDone o =>
    exact ensures_next (by simp only [apply_ite queueClock, ite_self, warmStepDone_keeps queueClock (fun _ _ => rfl)])
  | firmwareBankCommit r handle digest =>
    exact ensures_next (commitRow_keeps queueClock (fun _ _ => rfl) _ _ _ _ _ _ _ _ _ _
      (fun _ _ => startUpdate_keeps queueClock (fun _ _ => rfl) _) (fun _ => rfl))
  | firmwareProgramDone images =>
    exact ensures_next (by simp only [apply_ite queueClock, ite_self, programDone_keeps queueClock (fun _ _ => rfl)])
  | revokeRootKey r v burnt => exact ensures_next (writeRevoke_keeps queueClock (fun _ _ => rfl) _ _ _)
  | attestNonceCommit r handle digest =>
    exact ensures_next (commitRow_keeps queueClock (fun _ _ => rfl) _ _ _ _ _ _ _ _ _ _ (fun _ _ => (objPut_keeps queueClock
      (fun _ _ => rfl) _ _ _).trans (updSec_keeps queueClock (fun _ _ => rfl) _ _)) (fun _ => rfl))
  | attestationSigned =>
    exact ensures_next (by simp only [apply_ite queueClock, ite_self, domPut_keeps queueClock (fun _ _ => rfl),
      objPut_keeps queueClock (fun _ _ => rfl), updSec_keeps queueClock (fun _ _ => rfl)])
  | identityCertificateCommit r handle digest certKey =>
    exact ensures_next (commitRow_keeps queueClock (fun _ _ => rfl) _ _ _ _ _ _ _ _ _ _ (fun _ _ => rfl) (fun _ => rfl))
  | debugTokenCommit r handle digest =>
    exact ensures_next (commitRow_keeps queueClock (fun _ _ => rfl) _ _ _ _ _ _ _ _ _ _ (fun _ _ => unlock_keeps queueClock
      (fun _ _ => rfl) _ _) (fun _ => tokenRefused_keeps queueClock (fun _ _ => rfl) _))
  | debugLock r v => exact ensures_next (writeDebugLock_keeps queueClock (fun _ _ => rfl) _ _ _)
  | auxPowerUp straps =>
    exact ensures_next (by simp only [apply_ite queueClock, ite_self, powerUp_keeps queueClock (fun _ _ => rfl)])
  | mainInputQualified straps =>
    exact ensures_next (by simp only [apply_ite queueClock, ite_self, updPower_keeps queueClock (fun _ _ => rfl),
      endWait_keeps queueClock (fun _ _ => rfl), updSeqs_keeps queueClock (fun _ _ => rfl),
      objPut_keeps queueClock (fun _ _ => rfl)])
  | railRetry =>
    refine ensures_next ?_
    split <;> simp only [apply_ite queueClock, ite_self, updSeqs_keeps queueClock (fun _ _ => rfl)]
  | startupStepDone o =>
    exact ensures_next (by simp only [apply_ite queueClock, ite_self, startStepDone_keeps queueClock (fun _ _ => rfl)])
  | startupOverrun =>
    exact ensures_next (by simp only [apply_ite queueClock, ite_self, updSeqs_keeps queueClock (fun _ _ => rfl),
      journal_keeps queueClock (fun _ _ => rfl), objInc_keeps queueClock (fun _ _ => rfl)])
  | coldRestartWrite r v => exact ensures_next (writeColdRestart_keeps queueClock (fun _ _ => rfl) _ _ _)
  | crossingDrainTimeout island =>
    refine ensures_next ?_
    cases island with
    | channel c =>
      dsimp only
      split
      · simp only [apply_ite queueClock, ite_self, islandReset_keeps queueClock (fun _ _ => rfl),
        failReads_keeps queueClock (fun _ _ => rfl)]
      · exact rfl
    | facet f => simp only [islandReset_keeps queueClock (fun _ _ => rfl), facetResend_keeps queueClock (fun _ _ => rfl)]
    | _ => simp only [islandReset_keeps queueClock (fun _ _ => rfl)]
  | leakLoopSample ohms =>
    exact ensures_next (by simp only [apply_ite queueClock, ite_self, leakSample_keeps queueClock (fun _ _ => rfl)])
  | leakDryRelease =>
    refine ensures_next ?_
    split <;> simp only [apply_ite queueClock, ite_self, updPower_keeps queueClock (fun _ _ => rfl)]
  | flowLow centiLpm =>
    exact ensures_next (by simp only [apply_ite queueClock, ite_self, flowRead_keeps queueClock (fun _ _ => rfl)])
  | auxEfuseTrip =>
    exact ensures_next (by simp only [apply_ite queueClock, ite_self, efuseOpens_keeps queueClock (fun _ _ => rfl)])
  | auxEfuseRetry clear =>
    exact ensures_next (by simp only [apply_ite queueClock, ite_self, objPut_keeps queueClock (fun _ _ => rfl),
      updIface_keeps queueClock (fun _ _ => rfl), updPower_keeps queueClock (fun _ _ => rfl),
      efuseOpens_keeps queueClock (fun _ _ => rfl)])
  | monTxdFault =>
    exact ensures_next (by simp only [apply_ite queueClock, ite_self, journal_keeps queueClock (fun _ _ => rfl),
      objBit_keeps queueClock (fun _ _ => rfl), updIface_keeps queueClock (fun _ _ => rfl)])
  | monRxdBreak =>
    exact ensures_next (by simp only [apply_ite queueClock, ite_self, journal_keeps queueClock (fun _ _ => rfl),
      objBit_keeps queueClock (fun _ _ => rfl), updIface_keeps queueClock (fun _ _ => rfl)])
  | timeSourceChange refclk =>
    exact ensures_next (by simp only [apply_ite queueClock, ite_self, journal_keeps queueClock (fun _ _ => rfl),
      objPut_keeps queueClock (fun _ _ => rfl)])
  | snapshotTake r v => exact ensures_next (writeSnapshotTake_keeps queueClock (fun _ _ => rfl) _ _ _)
  | markerFlitReceive link epoch reach => exact ensures_need (takeMarker_keeps queueClock (fun _ _ => rfl) _ _ _ _)
  | snapshotClose => exact ensures_next (closeSnap_keeps queueClock (fun _ _ => rfl) _)
  | journalCommit =>
    exact ensures_next (by simp only [apply_ite queueClock, ite_self, journalFlush_keeps queueClock (fun _ _ => rfl),
      objInc_keeps queueClock (fun _ _ => rfl)])
  | monHelp =>
    exact ensures_next (monLine_keeps queueClock (fun _ _ => rfl) _ _ _ (fun _ => emit_keeps queueClock (fun _ _ => rfl) _ _))
  | monId =>
    exact ensures_next (monLine_keeps queueClock (fun _ _ => rfl) _ _ _ (fun _ => printObjs_keeps queueClock
      (fun _ _ => rfl) _ _))
  | monState =>
    exact ensures_next (monLine_keeps queueClock (fun _ _ => rfl) _ _ _ (fun _ => printObjs_keeps queueClock
      (fun _ _ => rfl) _ _))
  | monRd key =>
    exact ensures_next (monLine_keeps queueClock (fun _ _ => rfl) _ _ _ (fun _ => readRow_keeps queueClock
      (fun _ _ => rfl) _ _ _))
  | monJr n =>
    refine ensures_next (monLine_keeps queueClock (fun _ _ => rfl) _ _ _ (fun _ => ?_))
    split <;> exact emit_keeps queueClock (fun _ _ => rfl) _ _
  | monSnap epoch hops =>
    exact ensures_next (monLine_keeps queueClock (fun _ _ => rfl) _ _ _ (fun _ => writeSnapshotTake_keeps queueClock
      (fun _ _ => rfl) _ _ _))
  | monWr key value burnt =>
    exact ensures_next (monLine_keeps queueClock (fun _ _ => rfl) _ _ _ (fun _ => monWrite_keeps queueClock
      (fun _ _ => rfl) _ _ _ _))
  | monToken =>
    exact ensures_next (monLine_keeps queueClock (fun _ _ => rfl) _ _ _ (fun _ => startBinary_keeps queueClock
      (fun _ _ => rfl) _ _ _ _))
  | monLoad bytes digest =>
    refine ensures_next (monLine_keeps queueClock (fun _ _ => rfl) _ _ _ (fun s => ?_))
    simp only [apply_ite queueClock, emit_keeps queueClock (fun _ _ => rfl), startBinary_keeps queueClock (fun _ _ => rfl),
      ite_self]
  | monitorBlock data good =>
    exact ensures_next (by simp only [apply_ite queueClock, ite_self, muted_keeps queueClock (fun _ _ => rfl),
      takeBlock_keeps queueClock (fun _ _ => rfl)])
  | monitorTransferTimeout =>
    exact ensures_next (by simp only [apply_ite queueClock, ite_self, muted_keeps queueClock (fun _ _ => rfl),
      endBinary_keeps queueClock (fun _ _ => rfl)])
  | registerWrite offset size value => exact ensures_next (bar0Write_keeps queueClock (fun _ _ => rfl) _ _ _ _)
  | intermediateBusUp straps =>
    exact ensures_next (by simp only [apply_ite queueClock, ite_self, powerUp_keeps queueClock (fun _ _ => rfl)])
  | auxRestore =>
    exact ensures_next (by simp only [apply_ite queueClock, ite_self, objPut_keeps queueClock (fun _ _ => rfl),
      updPower_keeps queueClock (fun _ _ => rfl)])
  | dimDeferredStart ch =>
    refine ensures_need ?_
    split <;> simp only [apply_ite queueClock, ite_self, startDim_keeps queueClock (fun _ _ => rfl)]
  | laneSkewHoldEnd outgoing fibre line => exact ensures_need (skewHoldEnd_keeps queueClock (fun _ _ => rfl) _ _ _ _)
  | trialReadyTimeout =>
    exact ensures_next (by simp only [apply_ite queueClock, ite_self, beginCold_keeps queueClock (fun _ _ => rfl),
      trialFailed_keeps queueClock (fun _ _ => rfl)])
  | monTxdDriverRetry clear =>
    exact ensures_next (by simp only [apply_ite queueClock, ite_self, objBit_keeps queueClock (fun _ _ => rfl),
      updIface_keeps queueClock (fun _ _ => rfl)])
  | monRxdBreakEnd =>
    exact ensures_next (by simp only [apply_ite queueClock, ite_self, objBit_keeps queueClock (fun _ _ => rfl),
      updIface_keeps queueClock (fun _ _ => rfl)])

/-- Settles O3: no meaning writes the queue or the clock, and a step takes only the front command off the queue. -/
theorem commandsLeaveQueueAndClock : Obligations.CommandsLeaveQueueAndClock := by
  unfold Obligations.CommandsLeaveQueueAndClock
  have keeps : ∀ (c : Instr) (s t : State), exec c s = .next t → t.pending = s.pending ∧ t.now = s.now := by
    intro c s t ht
    exact Prod.mk.inj (exec_keeps_queueClock c s t ht)
  refine ⟨keeps, fun c rest s t hp ht => ?_⟩
  rw [step, hp] at ht
  exact keeps c _ t ht

/-! ### The canonical form of memory -/

theorem amaxHere_memOk (s : State) (off code : Nat) (hs : MemOk s) : MemOk (amaxHere s off code).st := by
  unfold amaxHere
  split
  · exact (forgetBad_keeps MemOk (fun _ _ => rfl) _ _).mpr hs
  · exact atomicAt_memOk _ _ _ _ _ _ hs

theorem scanAtomic_memOk (s : State) (nn : Nat) (ws : List Word64) (code : Nat) (hs : MemOk s) :
    MemOk (scanAtomic s nn ws code).st := by
  unfold scanAtomic
  split
  · exact hs
  split
  · exact amaxHere_memOk _ _ _ hs
  · split
    · exact (objInc_keeps MemOk (fun _ _ => rfl) _ _).mpr hs
    · split
      · exact amaxHere_memOk _ _ _ hs
      · exact (updVec_keeps MemOk (fun _ _ => rfl) _ _ _).mpr ((sendRequest_keeps MemOk (fun _ _ => rfl) _ _ _ _ _ _ _ _).mpr hs)
  · exact hs

theorem exec_memOk (c : Instr) (s : State) (hs : MemOk s) : Ensures MemOk (exec c s) := by
  cases c with
  | bridgeFlitReceive bundle flit crcOk => exact ensures_need (bridgeFlit_memOk _ _ _ _ hs)
  | bundleRetire bundle => exact ensures_need (retireBundle_memOk _ _ hs)
  | pilotLinkFailure => exact ensures_next (by simpa only [pilotFails_keeps MemOk (fun _ _ => rfl)] using hs)
  | pilotTrainRetry trained =>
    exact ensures_next (by simp only [apply_ite MemOk, ite_self, objPut_keeps MemOk (fun _ _ => rfl), hs])
  | arrayPass nn tst => exact ensures_need (arrayPass_memOk _ _ _ hs)
  | arrayRowCommit nn upset => exact ensures_need (by simpa only [rowCommit_keeps MemOk (fun _ _ => rfl)] using hs)
  | witnessRerunDone nn upset => exact ensures_need (by simpa only [rerunDone_keeps MemOk (fun _ _ => rfl)] using hs)
  | bankHandoff nn => exact ensures_need (by simpa only [handOff_keeps MemOk (fun _ _ => rfl)] using hs)
  | arrayDescriptorComplete nn => exact ensures_need (arrayDone_memOk _ _ hs)
  | vectorProgram nn tst => exact ensures_need (vecStart_memOk _ _ _ _ _ _ (fun _ _ h => vecExec_memOk _ _ _ h) hs)
  | treeMerge nn tst => exact ensures_need (vecStart_memOk _ _ _ _ _ _ (fun _ _ h => mrgExec_memOk _ _ _ h) hs)
  | scan nn tst =>
    exact ensures_need (amaxPastDim_memOk _ _ _ (fun _ h => vecStart_memOk _ _ _ _ _ _
      (fun _ _ h => scanAtomic_memOk _ _ _ _ (scanExec_memOk _ _ _ h)) h) hs)
  | rebias nn tst => exact ensures_need (vecStart_memOk _ _ _ _ _ _ (fun _ _ h => rebExec_memOk _ _ _ h) hs)
  | vectorDescriptorComplete nn => exact ensures_need (vecDone_memOk _ _ hs)
  | layerOpen q list => exact ensures_need (layerOpenAt_memOk _ _ _ hs)
  | layerAttemptEnd q list => exact ensures_need (attemptEnd_memOk _ _ _ hs)
  | escalationImageCommit r handle digest =>
    exact ensures_next (commitRow_memOk _ _ _ _ _ _ _ _ _ _ (fun _ _ h => (escImageApply_keeps MemOk
      (fun _ _ => rfl) _ _).mpr h) (fun _ h => h) hs)
  | streamStart engine => exact ensures_need (streamStartAt_memOk _ _ hs)
  | claimGrant slice => exact ensures_need (by simpa only [grantIn_keeps MemOk (fun _ _ => rfl)] using hs)
  | streamRequestIssue r => exact ensures_need (by simp only [issueScan_memOk, hs])
  | streamRequestDone engine seq req o =>
    exact ensures_need (by simp only [atsSettle_keeps MemOk (fun _ _ => rfl), streamDoneAt_memOk, hs])
  | seamMarker q => exact ensures_next (seamMarkerAt_memOk _ _ hs)
  | seamOpen q => exact ensures_next (seamOpenAt_memOk _ _ hs)
  | deadlockWatchFire slice => exact ensures_need (by simpa only [watchFire_keeps MemOk (fun _ _ => rfl)] using hs)
  | spillCopyDone slice => exact ensures_need (by simpa only [spillDone_keeps MemOk (fun _ _ => rfl)] using hs)
  | spillReclaim slice => exact ensures_need (by simpa only [reclaim_keeps MemOk (fun _ _ => rfl)] using hs)
  | restoreCopyDone slice => exact ensures_need (restoreDone_memOk _ _ hs)
  | tileStoreScrub slice w0 w1 => exact ensures_need (by simpa only [scrubTile_keeps MemOk (fun _ _ => rfl)] using hs)
  | lpddrReadComplete package channel es =>
    exact ensures_need (by simp only [apply_ite MemOk, ite_self, serveChannel_keeps MemOk (fun _ _ => rfl), hs])
  | lpddrWriteAccept line mask data poison => exact ensures_need (by simp only [apply_ite MemOk, ite_self, writeLine_memOk, hs])
  | packageTempRead pkg tempC => exact ensures_need (by simpa only [packageTemp_keeps MemOk (fun _ _ => rfl)] using hs)
  | channelOvertemp ch => exact ensures_need (by simpa only [overtemp_keeps MemOk (fun _ _ => rfl)] using hs)
  | lpddrScrubRead ch es => exact ensures_need (by simpa only [scrubGranule_keeps MemOk (fun _ _ => rfl)] using hs)
  | retrainStart ch => exact ensures_need (by simp only [apply_ite MemOk, ite_self, fallDue_keeps MemOk (fun _ _ => rfl), hs])
  | retrainEnd ch ok => exact ensures_need (endRetrain_memOk _ _ _ hs)
  | softRepairStart ch bank row =>
    exact ensures_need (by simp only [apply_ite MemOk, ite_self, fallDue_keeps MemOk (fun _ _ => rfl), hs])
  | softRepairEnd ch resource bad => exact ensures_need (endRepair_memOk _ _ _ _ hs)
  | channelFailure ch => exact ensures_need (by simp only [apply_ite MemOk, ite_self, failChannel_memOk, hs])
  | queueLaunch block parts =>
    exact ensures_next (mbxRun_memOk _ _ _ (fun _ h => (launch_keeps MemOk (fun _ _ => rfl) _ _ _ _).mpr h) hs)
  | queueDestroy => exact ensures_next (mbxRun_memOk _ _ _ (fun _ h => (destroy_keeps MemOk (fun _ _ => rfl) _).mpr h) hs)
  | qsyDoorbell q p => exact ensures_need (hostPage_memOk _ _ _ _ hs)
  | descriptorFetch q f => exact ensures_need (fetchOne_memOk _ _ _ hs)
  | descriptorIssue half => exact ensures_next (by simp only [apply_ite MemOk, ite_self, issueAny_memOk, hs])
  | qsyCmdRelease q => exact ensures_need (hostPage_memOk _ _ _ _ hs)
  | qsyCmdDiscard q => exact ensures_need (hostPage_memOk _ _ _ _ hs)
  | qsyCmdAbort q => exact ensures_need (hostPage_memOk _ _ _ _ hs)
  | qsyIrqWrite q v => exact ensures_need (hostPage_memOk _ _ _ _ hs)
  | cplPendingTimeout q => exact ensures_need (by simpa only [cplTimeout_keeps MemOk (fun _ _ => rfl)] using hs)
  | syncSignal obj amount => exact ensures_need (by simpa only [syncAdd_keeps MemOk (fun _ _ => rfl)] using hs)
  | syncSet obj value => exact ensures_need (by simp only [syncPut_keeps MemOk (fun _ _ => rfl), hs])
  | waitPoll half => exact ensures_next hs
  | coreWatchdogExpire core pc imageOk => exact ensures_need (by simp only [apply_ite MemOk, ite_self, watchdog_memOk, hs])
  | coreRestartDone core =>
    exact ensures_need (by simp only [apply_ite MemOk, ite_self, coreBack_keeps MemOk (fun _ _ => rfl), hs])
  | supervisorWatchdogExpire =>
    refine ensures_next ?_
    split
    · exact (updPower_keeps MemOk (fun _ _ => rfl) _ _).mpr hs
    · exact hs
  | lightLoss laser line => exact ensures_need (by simpa only [loseLight_keeps MemOk (fun _ _ => rfl)] using hs)
  | lightRestore laser line => exact ensures_need (by simpa only [gainLight_keeps MemOk (fun _ _ => rfl)] using hs)
  | lockInReading ring errMHz => exact ensures_need (by simpa only [lockIn_keeps MemOk (fun _ _ => rfl)] using hs)
  | feedForwardUpdate ring sites => exact ensures_need (by simp only [feedForward_keeps MemOk (fun _ _ => rfl), hs])
  | ringLockLoss ring => exact ensures_need (by simpa only [loseLock_keeps MemOk (fun _ _ => rfl)] using hs)
  | rotorStep fibre => exact ensures_need (by simpa only [rotorStep_keeps MemOk (fun _ _ => rfl)] using hs)
  | rotorLineLocked fibre => exact ensures_need (by simpa only [rotorLocked_keeps MemOk (fun _ _ => rfl)] using hs)
  | rotorAcceptTimeout fibre => exact ensures_need (by simpa only [rotorLate_keeps MemOk (fun _ _ => rfl)] using hs)
  | idleDropSweep inFibre locked => exact ensures_need (by simpa only [idleSweep_keeps MemOk (fun _ _ => rfl)] using hs)
  | laneRecoveryEnd ring found t => exact ensures_need (by simpa only [recoveryEnd_keeps MemOk (fun _ _ => rfl)] using hs)
  | beaconSend fibre line => exact ensures_need (by simpa only [sendBeacon_keeps MemOk (fun _ _ => rfl)] using hs)
  | beaconReceive inFibre line b => exact ensures_need (by simpa only [hearBeacon_keeps MemOk (fun _ _ => rfl)] using hs)
  | mapEntryExpire fibre line => exact ensures_need (by simpa only [expireEntry_keeps MemOk (fun _ _ => rfl)] using hs)
  | laneDemandCommit r handle digest =>
    exact ensures_next (commitRow_memOk _ _ _ _ _ _ _ _ _ _ (fun _ _ h => (setDemand_keeps MemOk
      (fun _ _ => rfl) _ _).mpr h) (fun _ h => h) hs)
  | lineRequestSend fibre line => exact ensures_need (by simpa only [sendLineRequest_keeps MemOk (fun _ _ => rfl)] using hs)
  | lineRequest chip outFibre line inFibre =>
    exact ensures_need (by simpa only [takeLineRequest_keeps MemOk (fun _ _ => rfl)] using hs)
  | lineGrant fibre line t => exact ensures_need (by simpa only [takeGrant_keeps MemOk (fun _ _ => rfl)] using hs)
  | lineRefuse fibre line => exact ensures_need (by simpa only [takeRefusal_keeps MemOk (fun _ _ => rfl)] using hs)
  | flitReceive inFibre line f => exact ensures_need (by simpa only [takeFlit_keeps MemOk (fun _ _ => rfl)] using hs)
  | flitResendTimeout link flitSeq => exact ensures_need (by simpa only [flitTimeout_keeps MemOk (fun _ _ => rfl)] using hs)
  | flitRetryLimit link flitSeq => exact ensures_need (by simpa only [retryLimit_keeps MemOk (fun _ _ => rfl)] using hs)
  | linkReform link => exact ensures_need (by simpa only [reform_keeps MemOk (fun _ _ => rfl)] using hs)
  | linkRemove link => exact ensures_need (by simpa only [removeDark_keeps MemOk (fun _ _ => rfl)] using hs)
  | laneErrorRemoval link lane => exact ensures_need (by simpa only [removeForErrors_keeps MemOk (fun _ _ => rfl)] using hs)
  | laneTrainingDone outgoing fibre line t =>
    exact ensures_need (by simpa only [trainingDone_keeps MemOk (fun _ _ => rfl)] using hs)
  | capability link version caps epochProto =>
    exact ensures_need (by simp only [apply_ite MemOk, ite_self, takeCapability_keeps MemOk (fun _ _ => rfl),
      peerReforms_keeps MemOk (fun _ _ => rfl), hs])
  | capabilityAck link agreed => exact ensures_need (by simpa only [takeCapabilityAck_keeps MemOk (fun _ _ => rfl)] using hs)
  | propose link lane toLine copyOk => exact ensures_need (by simpa only [takePropose_keeps MemOk (fun _ _ => rfl)] using hs)
  | accept link lane => exact ensures_need (by simpa only [takeAccept_keeps MemOk (fun _ _ => rfl)] using hs)
  | rotorAbort link lane => exact ensures_need (by simpa only [takeAbort_keeps MemOk (fun _ _ => rfl)] using hs)
  | laneDown link lane cause => exact ensures_need (by simpa only [takeDown_keeps MemOk (fun _ _ => rfl)] using hs)
  | laneJoin link lane flitSeq => exact ensures_need (by simpa only [takeJoin_keeps MemOk (fun _ _ => rfl)] using hs)
  | laneLeave link lane flitSeq => exact ensures_need (by simpa only [takeLeave_keeps MemOk (fun _ _ => rfl)] using hs)
  | greyNotice link cause => exact ensures_need (by simpa only [takeGrey_keeps MemOk (fun _ _ => rfl)] using hs)
  | intendedMapCommit r handle digest =>
    exact ensures_next (commitRow_memOk _ _ _ _ _ _ _ _ _ _ (fun _ _ h => (applyIntended_keeps MemOk (fun _ _ => rfl) _).mpr
      ((domPut_keeps MemOk (fun _ _ => rfl) _ _ _).mpr h)) (fun _ h => h) hs)
  | linkQuarantineWrite r v => exact ensures_next (by simpa only [writeLinkQuarantine_keeps MemOk (fun _ _ => rfl)] using hs)
  | packetRoute half id => exact ensures_next (by simpa only [routePacket_keeps MemOk (fun _ _ => rfl)] using hs)
  | escapeWaitExpire half id => exact ensures_next (by simpa only [escapeExpire_keeps MemOk (fun _ _ => rfl)] using hs)
  | escapeStall half id => exact ensures_next (by simpa only [stallTold_keeps MemOk (fun _ _ => rfl)] using hs)
  | routeTableLoad r handle digest =>
    exact ensures_next (commitRow_memOk _ _ _ _ _ _ _ _ _ _ (fun _ _ h => (loadTables_keeps MemOk
      (fun _ _ => rfl) _ _).mpr h) (fun _ h => h) hs)
  | epochSwitch r v => exact ensures_next (by simpa only [writeEpochSwitch_keeps MemOk (fun _ _ => rfl)] using hs)
  | drainArm r v => exact ensures_next (by simpa only [writeDrainArm_keeps MemOk (fun _ _ => rfl)] using hs)
  | epochRelease r v => exact ensures_next (by simpa only [writeEpochRelease_keeps MemOk (fun _ _ => rfl)] using hs)
  | hotWindowGrow half cls dest => exact ensures_next (by simpa only [growHot_keeps MemOk (fun _ _ => rfl)] using hs)
  | classWindowAdjust half cls fill => exact ensures_next (by simpa only [adjustWindow_keeps MemOk (fun _ _ => rfl)] using hs)
  | loadRequest p => exact ensures_next (by simp only [serveLoad_keeps MemOk (fun _ _ => rfl), hs])
  | storeRequest p => exact ensures_next (serveStore_memOk _ _ hs)
  | atomicRequest p => exact ensures_next (by simp only [serveAtomic_memOk, hs])
  | remoteSignalRequest p => exact ensures_next (by simpa only [serveSignal_keeps MemOk (fun _ _ => rfl)] using hs)
  | fabricReplyReceive p => exact ensures_next (takeReply_memOk _ _ hs)
  | replyTimeout tag => exact ensures_next (replyLate_memOk _ _ hs)
  | windowOpen => exact ensures_next (mbxRun_memOk _ _ _ (fun _ h => (openWindow_keeps MemOk (fun _ _ => rfl) _).mpr h) hs)
  | windowModify => exact ensures_next (mbxRun_memOk _ _ _ (fun _ h => (modifyWindow_keeps MemOk (fun _ _ => rfl) _).mpr h) hs)
  | windowClose => exact ensures_next (mbxRun_memOk _ _ _ (fun _ h => (closeWindow_keeps MemOk (fun _ _ => rfl) _).mpr h) hs)
  | replayEntryExpire half src seq => exact ensures_next (by simpa only [expireReplay_keeps MemOk (fun _ _ => rfl)] using hs)
  | atomicUnitWriteback addr => exact ensures_next (by simpa only [atomWriteBack_keeps MemOk (fun _ _ => rfl)] using hs)
  | rcacheInvalidate q =>
    exact ensures_next (runTogether_memOk _ _ _ _ _ (fun _ _ _ _ h => (schedReady_keeps MemOk
      (fun _ _ => rfl) _ _ _ _).mpr h) (fun _ _ h => rciRun_memOk _ _ _ h) hs)
  | collQueueLaunch block parts =>
    exact ensures_next (mbxRun_memOk _ _ _ (fun _ h => (launch_keeps MemOk (fun _ _ => rfl) _ _ _ _).mpr h) hs)
  | collectiveIssue => exact ensures_next (by simp only [apply_ite MemOk, ite_self, issueColl_memOk, hs])
  | collectiveActivate half => exact ensures_next (activate_memOk _ _ hs)
  | collLocalInput collId chunk segment => exact ensures_next (localInput_memOk _ _ _ _ hs)
  | collPacketReceive p => exact ensures_next (takeColl_memOk _ _ hs)
  | greySegmentReduce collId level chunk segment => exact ensures_next (reduceGrey_memOk _ _ _ _ _ hs)
  | collWatchdogExpire collId => exact ensures_next (collExpire_memOk _ _ hs)
  | collAbort => exact ensures_next (mbxRun_memOk _ _ _ (fun _ h => abortColl_memOk _ h) hs)
  | pendingEntryExpire collId => exact ensures_next (by simpa only [pendExpire_keeps MemOk (fun _ _ => rfl)] using hs)
  | collGroupTableCommit r handle digest =>
    exact ensures_next (commitRow_memOk _ _ _ _ _ _ _ _ _ _ (fun _ _ h => h) (fun _ h => h) hs)
  | configRequest c =>
    exact ensures_next (by simp only [apply_ite MemOk, ite_self, emit_keeps MemOk (fun _ _ => rfl),
      config_keeps MemOk (fun _ _ => rfl), hs])
  | mailboxUnknownCommand =>
    exact ensures_next (by simp only [apply_ite MemOk, ite_self, mbxEnd_keeps MemOk (fun _ _ => rfl), hs])
  | msixUnmask vector =>
    cases vector with
    | some v => exact ensures_need (by simp only [sendPending_keeps MemOk (fun _ _ => rfl),
      updHost_keeps MemOk (fun _ _ => rfl), hs])
    | none => exact ensures_next (by simp only [sendPending_keeps MemOk (fun _ _ => rfl),
      updHost_keeps MemOk (fun _ _ => rfl), hs])
  | dataPortWrite first bytes poison => exact ensures_next (dataWrite_memOk _ _ _ _ hs)
  | dataPortRead first r => exact ensures_next (by simp only [dataRead_memOk, hs])
  | bar2Access offset a => exact ensures_next (bar2_memOk _ _ _ hs)
  | hostSnoop addr => exact ensures_next (by simp only [emit_keeps MemOk (fun _ _ => rfl), hs])
  | atsInvalidation pasid page =>
    exact ensures_next (by simp only [atsSettle_keeps MemOk (fun _ _ => rfl), updHost_keeps MemOk (fun _ _ => rfl), hs])
  | pageResponse pasid page => exact ensures_next (by simp only [updHost_keeps MemOk (fun _ _ => rfl), hs])
  | cxlMemRead x =>
    exact ensures_next (by simp only [apply_ite MemOk, ite_self, hostAccess_memOk, openData_keeps MemOk (fun _ _ => rfl), hs])
  | cxlMemWrite line mask data poison =>
    exact ensures_next (by simp only [apply_ite MemOk, ite_self, hostAccess_memOk, objInc_keeps MemOk (fun _ _ => rfl), hs])
  | bisnpResponse line => exact ensures_next (bisnpAnswered_memOk _ _ hs)
  | bisnpTimeout line => exact ensures_next (bisnpLate_memOk _ _ hs)
  | perstNAssert =>
    exact ensures_next (by simp only [updHost_keeps MemOk (fun _ _ => rfl), linkGone_keeps MemOk (fun _ _ => rfl),
      hostReset_memOk, hs])
  | hotReset => exact ensures_next (by simp only [linkGone_keeps MemOk (fun _ _ => rfl), hostReset_memOk, hs])
  | hostLinkDown => exact ensures_next (by simp only [linkGone_keeps MemOk (fun _ _ => rfl), hostReset_memOk, hs])
  | functionLevelReset => exact ensures_next (hostReset_memOk _ hs)
  | hostQueuesDestroy => exact ensures_next (by simpa only [destroyAll_keeps MemOk (fun _ _ => rfl)] using hs)
  | perstNDeassert refclk =>
    exact ensures_next (by simp only [apply_ite MemOk, ite_self, updHost_keeps MemOk (fun _ _ => rfl), hs])
  | hostLinkTrained gen width => exact ensures_next (by simpa only [linkTrained_keeps MemOk (fun _ _ => rfl)] using hs)
  | dapFragment ip port w0 w1 payload reversed =>
    exact ensures_next (by simp only [apply_ite MemOk, ite_self, noteReversed_keeps MemOk (fun _ _ => rfl),
      emit_keeps MemOk (fun _ _ => rfl), takeFragment_keeps MemOk (fun _ _ => rfl), hs])
  | dapReassemblyTimeout session seq => exact ensures_next (by simp only [updMgmt_keeps MemOk (fun _ _ => rfl), hs])
  | dicRead r key => exact ensures_next (by simpa only [readRow_keeps MemOk (fun _ _ => rfl)] using hs)
  | dicWrite r key value =>
    exact ensures_next (by simp only [apply_ite MemOk, ite_self, writePlain_keeps MemOk (fun _ _ => rfl), hs])
  | describe r key =>
    refine ensures_next (ask_memOk _ _ _ _ _ _ _ (fun _ _ h => ?_) hs)
    split <;> exact h
  | domainOpen r key dir size =>
    exact ensures_next (ask_memOk _ _ _ _ _ _ _ (fun _ _ h => (domainOpen_keeps MemOk (fun _ _ => rfl) _ _ _ _ _ _).mpr h) hs)
  | domainSegment r header data => exact ensures_next (ask_memOk _ _ _ _ _ _ _ (fun _ _ h => segment_memOk _ _ _ _ h) hs)
  | domainCommit r handle digest =>
    refine ensures_next ?_
    split
    · exact ask_memOk _ _ _ _ _ _ _ (fun _ _ h => h) hs
    · split
      · exact hs
      · exact commitRow_memOk _ _ _ _ _ _ _ _ _ _ (fun _ _ h => h) (fun _ h => h) hs
  | domainAbort r handle =>
    refine ensures_next (ask_memOk _ _ _ _ _ _ _ (fun _ _ h => ?_) hs)
    split
    · exact h
    · exact (dropXfer_keeps MemOk (fun _ _ => rfl) _ _).mpr h
  | domainTransferTimeout handle =>
    refine ensures_next ?_
    split <;> simp only [apply_ite MemOk, ite_self, dropXfer_keeps MemOk (fun _ _ => rfl), hs]
  | sessionHello ip port seq role => exact ensures_next (by simpa only [hello_keeps MemOk (fun _ _ => rfl)] using hs)
  | sessionProve r key signature =>
    refine ensures_next ?_
    split <;> simp only [prove_keeps MemOk (fun _ _ => rfl), hs]
  | sessionClose r =>
    exact ensures_next (ask_memOk _ _ _ _ _ _ _ (fun _ _ h => (closeSession_keeps MemOk (fun _ _ => rfl) _ _).mpr h) hs)
  | keepalive r => exact ensures_next (ask_memOk _ _ _ _ _ _ _ (fun _ _ h => h) hs)
  | sessionProveTimeout session =>
    refine ensures_next ?_
    split <;> simp only [apply_ite MemOk, ite_self, closeSession_keeps MemOk (fun _ _ => rfl), hs]
  | sessionIdleExpire session =>
    refine ensures_next ?_
    split <;> simp only [apply_ite MemOk, ite_self, closeSession_keeps MemOk (fun _ _ => rfl), hs]
  | authLockoutExpire =>
    refine ensures_next ?_
    split <;> simp only [apply_ite MemOk, ite_self, updMgmt_keeps MemOk (fun _ _ => rfl), hs]
  | persistCommit key =>
    refine ensures_next ?_
    split
    · exact hs
    split
    · exact (objInc_keeps MemOk (fun _ _ => rfl) _ _).mpr hs
    · exact (toFlash_keeps MemOk (fun _ _ => rfl) _ _).mpr hs
  | dhcpLease ip =>
    exact ensures_next (by simp only [apply_ite MemOk, ite_self, objPut_keeps MemOk (fun _ _ => rfl),
      updMgmt_keeps MemOk (fun _ _ => rfl), hs])
  | dhcpTimeout => exact ensures_next (by simp only [apply_ite MemOk, ite_self, objPut_keeps MemOk (fun _ _ => rfl), hs])
  | dhcpRetry => exact ensures_next (by simp only [apply_ite MemOk, ite_self, emit_keeps MemOk (fun _ _ => rfl), hs])
  | plcaBeaconLoss =>
    exact ensures_next (by simp only [apply_ite MemOk, ite_self, objInc_keeps MemOk (fun _ _ => rfl),
      updMgmt_keeps MemOk (fun _ _ => rfl), hs])
  | arpRequest ip => exact ensures_next (by simp only [apply_ite MemOk, ite_self, emit_keeps MemOk (fun _ _ => rfl), hs])
  | icmpEcho ip payload => exact ensures_next (by simp only [apply_ite MemOk, ite_self, emit_keeps MemOk (fun _ _ => rfl), hs])
  | memHashKeyWrite r v burnt => exact ensures_next (by simpa only [writeMemHashKey_keeps MemOk (fun _ _ => rfl)] using hs)
  | chipNumberLockWrite r v burnt =>
    exact ensures_next (by simpa only [writeChipNumberLock_keeps MemOk (fun _ _ => rfl)] using hs)
  | thermalRedOverrideWrite r v burnt =>
    exact ensures_next (by simpa only [writeThermalRedOverride_keeps MemOk (fun _ _ => rfl)] using hs)
  | lifecycleStateWrite r v burnt => exact ensures_next (writeLifecycle_memOk _ _ _ _ hs)
  | antiRollbackLevelWrite r v burnt =>
    exact ensures_next (by simpa only [writeAntiRollback_keeps MemOk (fun _ _ => rfl)] using hs)
  | paleEnter mv =>
    exact ensures_next (by simp only [apply_ite MemOk, ite_self, settleVolts_keeps MemOk (fun _ _ => rfl),
      updPower_keeps MemOk (fun _ _ => rfl), noteSupply_keeps MemOk (fun _ _ => rfl), hs])
  | paleExit mv =>
    exact ensures_next (by simp only [apply_ite MemOk, ite_self, endPaleWait_memOk, endPale_keeps MemOk (fun _ _ => rfl),
      noteSupply_keeps MemOk (fun _ _ => rfl), hs])
  | paleLong =>
    exact ensures_next (by simp only [apply_ite MemOk, ite_self, updPower_keeps MemOk (fun _ _ => rfl),
      journalAlert_keeps MemOk (fun _ _ => rfl), hs])
  | supplyReset mv =>
    exact ensures_next (by simp only [apply_ite MemOk, ite_self, objPut_keeps MemOk (fun _ _ => rfl),
      noteSupply_keeps MemOk (fun _ _ => rfl), journalAlert_keeps MemOk (fun _ _ => rfl), supplyDown_memOk,
      journal_keeps MemOk (fun _ _ => rfl), objInc_keeps MemOk (fun _ _ => rfl), hs])
  | auxLoss =>
    exact ensures_next (by simp only [apply_ite MemOk, ite_self, updPower_keeps MemOk (fun _ _ => rfl),
      journalAlert_keeps MemOk (fun _ _ => rfl), objPut_keeps MemOk (fun _ _ => rfl), unpower_memOk, hs])
  | converterFault conv =>
    exact ensures_need (by simp only [apply_ite MemOk, ite_self, journalAlert_keeps MemOk (fun _ _ => rfl),
      objBit_keeps MemOk (fun _ _ => rfl), settleVolts_keeps MemOk (fun _ _ => rfl), updPower_keeps MemOk (fun _ _ => rfl), hs])
  | powerLimitOverrun =>
    exact ensures_next (by simp only [apply_ite MemOk, ite_self, settleVolts_keeps MemOk (fun _ _ => rfl),
      updPower_keeps MemOk (fun _ _ => rfl), hs])
  | powerLimitRecover =>
    exact ensures_next (by simp only [apply_ite MemOk, ite_self, ceilingRose_keeps MemOk (fun _ _ => rfl),
      updPower_keeps MemOk (fun _ _ => rfl), hs])
  | setpointStep half watts =>
    exact ensures_next (by simp only [apply_ite MemOk, ite_self, stepHalf_keeps MemOk (fun _ _ => rfl), hs])
  | commitDeferralRetry mj =>
    exact ensures_next (by simp only [apply_ite MemOk, ite_self, objPut_keeps MemOk (fun _ _ => rfl),
      updPower_keeps MemOk (fun _ _ => rfl), objInc_keeps MemOk (fun _ _ => rfl), hs])
  | holdUpFault =>
    refine ensures_next ?_
    split <;> simp only [apply_ite MemOk, ite_self, updPower_keeps MemOk (fun _ _ => rfl),
      journalAlert_keeps MemOk (fun _ _ => rfl), hs]
  | sensorReading site r0 r1 => exact ensures_need (by simp only [apply_ite MemOk, ite_self, readSite_memOk, hs])
  | sensorUnflag site sensor =>
    refine ensures_need ?_
    split <;> simp only [apply_ite MemOk, ite_self, updSite_keeps MemOk (fun _ _ => rfl), hs]
  | amberEnter dom =>
    exact ensures_need (by simp only [apply_ite MemOk, ite_self, settleVolts_keeps MemOk (fun _ _ => rfl),
      updDom_keeps MemOk (fun _ _ => rfl), objInc_keeps MemOk (fun _ _ => rfl), hs])
  | amberStep dom =>
    refine ensures_need ?_
    split <;> simp only [apply_ite MemOk, ite_self, settleVolts_keeps MemOk (fun _ _ => rfl),
      updDom_keeps MemOk (fun _ _ => rfl), hs]
  | amberExit dom =>
    refine ensures_need ?_
    split <;> simp only [apply_ite MemOk, ite_self, ceilingRose_keeps MemOk (fun _ _ => rfl),
      updDom_keeps MemOk (fun _ _ => rfl), objAdd_keeps MemOk (fun _ _ => rfl), hs]
  | redExit dom =>
    refine ensures_need ?_
    split
    · exact (ceilingRose_keeps MemOk (fun _ _ => rfl) _ _).mpr (foldlMem _ (fun _ _ h => (updSite_keeps MemOk
      (fun _ _ => rfl) _ _ _).mpr h) _ _ ((updDom_keeps MemOk (fun _ _ => rfl) _ _ _).mpr hs))
    · exact hs
  | blackRateTrigger site =>
    refine ensures_need ?_
    split <;> simp only [apply_ite MemOk, ite_self, blackShutdown_memOk, hs]
  | thermalAutoRestart =>
    refine ensures_next ?_
    split <;> simp only [apply_ite MemOk, ite_self, leaveBlack_memOk, hs]
  | thermalRestartWrite r v => exact ensures_next (writeThermalRestart_memOk _ _ _ hs)
  | katRun nn failedPass =>
    refine ensures_need ?_
    cases failedPass <;> simp only [apply_ite MemOk, ite_self, katPassed_keeps MemOk (fun _ _ => rfl), katFailed_memOk, hs]
  | checkpointNow r v => exact ensures_next (by simpa only [writeCheckpointNow_keeps MemOk (fun _ _ => rfl)] using hs)
  | checkpointQuiesced =>
    refine ensures_next ?_
    split
    · exact (updSeqs_keeps MemOk (fun _ _ => rfl) _ _).mpr ⟨memory_wf_memStore _ _ _ hs.1, hs.2⟩
    · exact hs
  | checkpointQuiesceTimeout =>
    exact ensures_next (by simp only [apply_ite MemOk, ite_self, failCheckpoint_keeps MemOk (fun _ _ => rfl), hs])
  | checkpointCopyDone =>
    exact ensures_next (by simp only [apply_ite MemOk, ite_self, copyOut_memOk, takeDoorbells_keeps MemOk (fun _ _ => rfl),
      objPut_keeps MemOk (fun _ _ => rfl), updSeqs_keeps MemOk (fun _ _ => rfl), hs])
  | checkpointRestore r v => exact ensures_next (writeCheckpointRestore_memOk _ _ _ hs)
  | warmRestartWrite r v => exact ensures_next (writeWarmRestart_memOk _ _ _ hs)
  | warmRestartStepDone o => exact ensures_next (by simp only [apply_ite MemOk, ite_self, warmStepDone_memOk, hs])
  | firmwareBankCommit r handle digest =>
    exact ensures_next (commitRow_memOk _ _ _ _ _ _ _ _ _ _ (fun _ _ h => (startUpdate_keeps MemOk
      (fun _ _ => rfl) _).mpr h) (fun _ h => h) hs)
  | firmwareProgramDone images => exact ensures_next (by simp only [apply_ite MemOk, ite_self, programDone_memOk, hs])
  | revokeRootKey r v burnt => exact ensures_next (by simpa only [writeRevoke_keeps MemOk (fun _ _ => rfl)] using hs)
  | attestNonceCommit r handle digest =>
    exact ensures_next (commitRow_memOk _ _ _ _ _ _ _ _ _ _ (fun _ _ h => (objPut_keeps MemOk (fun _ _ => rfl) _ _ _).mpr
      ((updSec_keeps MemOk (fun _ _ => rfl) _ _).mpr h)) (fun _ h => h) hs)
  | attestationSigned =>
    exact ensures_next (by simp only [apply_ite MemOk, ite_self, domPut_keeps MemOk (fun _ _ => rfl),
      objPut_keeps MemOk (fun _ _ => rfl), updSec_keeps MemOk (fun _ _ => rfl), hs])
  | identityCertificateCommit r handle digest certKey =>
    exact ensures_next (commitRow_memOk _ _ _ _ _ _ _ _ _ _ (fun _ _ h => h) (fun _ h => h) hs)
  | debugTokenCommit r handle digest =>
    exact ensures_next (commitRow_memOk _ _ _ _ _ _ _ _ _ _ (fun _ _ h => (unlock_keeps MemOk (fun _ _ => rfl) _ _).mpr h)
      (fun _ h => (tokenRefused_keeps MemOk (fun _ _ => rfl) _).mpr h) hs)
  | debugLock r v => exact ensures_next (by simpa only [writeDebugLock_keeps MemOk (fun _ _ => rfl)] using hs)
  | auxPowerUp straps => exact ensures_next (by simp only [apply_ite MemOk, ite_self, powerUp_memOk, hs])
  | mainInputQualified straps =>
    exact ensures_next (by simp only [apply_ite MemOk, ite_self, updPower_keeps MemOk (fun _ _ => rfl),
      endWait_keeps MemOk (fun _ _ => rfl), updSeqs_keeps MemOk (fun _ _ => rfl), objPut_keeps MemOk (fun _ _ => rfl), hs])
  | railRetry =>
    refine ensures_next ?_
    split <;> simp only [apply_ite MemOk, ite_self, updSeqs_keeps MemOk (fun _ _ => rfl), hs]
  | startupStepDone o => exact ensures_next (by simp only [apply_ite MemOk, ite_self, startStepDone_memOk, hs])
  | startupOverrun =>
    exact ensures_next (by simp only [apply_ite MemOk, ite_self, updSeqs_keeps MemOk (fun _ _ => rfl),
      journal_keeps MemOk (fun _ _ => rfl), objInc_keeps MemOk (fun _ _ => rfl), hs])
  | coldRestartWrite r v => exact ensures_next (writeColdRestart_memOk _ _ _ hs)
  | crossingDrainTimeout island =>
    refine ensures_next ?_
    cases island with
    | channel c =>
      dsimp only
      split
      · simp only [apply_ite MemOk, ite_self, islandReset_keeps MemOk (fun _ _ => rfl), failReads_memOk, hs]
      · exact hs
    | facet f => simp only [islandReset_keeps MemOk (fun _ _ => rfl), facetResend_keeps MemOk (fun _ _ => rfl), hs]
    | _ => simp only [islandReset_keeps MemOk (fun _ _ => rfl), hs]
  | leakLoopSample ohms =>
    exact ensures_next (by simp only [apply_ite MemOk, ite_self, leakSample_keeps MemOk (fun _ _ => rfl), hs])
  | leakDryRelease =>
    refine ensures_next ?_
    split <;> simp only [apply_ite MemOk, ite_self, updPower_keeps MemOk (fun _ _ => rfl), hs]
  | flowLow centiLpm => exact ensures_next (by simp only [apply_ite MemOk, ite_self, flowRead_keeps MemOk (fun _ _ => rfl), hs])
  | auxEfuseTrip => exact ensures_next (by simp only [apply_ite MemOk, ite_self, efuseOpens_memOk, hs])
  | auxEfuseRetry clear =>
    exact ensures_next (by simp only [apply_ite MemOk, ite_self, objPut_keeps MemOk (fun _ _ => rfl),
      updIface_keeps MemOk (fun _ _ => rfl), updPower_keeps MemOk (fun _ _ => rfl), efuseOpens_memOk, hs])
  | monTxdFault =>
    exact ensures_next (by simp only [apply_ite MemOk, ite_self, journal_keeps MemOk (fun _ _ => rfl),
      objBit_keeps MemOk (fun _ _ => rfl), updIface_keeps MemOk (fun _ _ => rfl), hs])
  | monRxdBreak =>
    exact ensures_next (by simp only [apply_ite MemOk, ite_self, journal_keeps MemOk (fun _ _ => rfl),
      objBit_keeps MemOk (fun _ _ => rfl), updIface_keeps MemOk (fun _ _ => rfl), hs])
  | timeSourceChange refclk =>
    exact ensures_next (by simp only [apply_ite MemOk, ite_self, journal_keeps MemOk (fun _ _ => rfl),
      objPut_keeps MemOk (fun _ _ => rfl), hs])
  | snapshotTake r v => exact ensures_next (by simpa only [writeSnapshotTake_keeps MemOk (fun _ _ => rfl)] using hs)
  | markerFlitReceive link epoch reach => exact ensures_need (by simpa only [takeMarker_keeps MemOk (fun _ _ => rfl)] using hs)
  | snapshotClose => exact ensures_next (by simpa only [closeSnap_keeps MemOk (fun _ _ => rfl)] using hs)
  | journalCommit =>
    exact ensures_next (by simp only [apply_ite MemOk, ite_self, journalFlush_keeps MemOk (fun _ _ => rfl),
      objInc_keeps MemOk (fun _ _ => rfl), hs])
  | monHelp => exact ensures_next (monLine_memOk _ _ _ (fun _ h => (emit_keeps MemOk (fun _ _ => rfl) _ _).mpr h) hs)
  | monId => exact ensures_next (monLine_memOk _ _ _ (fun _ h => (printObjs_keeps MemOk (fun _ _ => rfl) _ _).mpr h) hs)
  | monState => exact ensures_next (monLine_memOk _ _ _ (fun _ h => (printObjs_keeps MemOk (fun _ _ => rfl) _ _).mpr h) hs)
  | monRd key => exact ensures_next (monLine_memOk _ _ _ (fun _ h => (readRow_keeps MemOk (fun _ _ => rfl) _ _ _).mpr h) hs)
  | monJr n =>
    refine ensures_next (monLine_memOk _ _ _ (fun _ h => ?_) hs)
    split <;> exact (emit_keeps MemOk (fun _ _ => rfl) _ _).mpr h
  | monSnap epoch hops =>
    exact ensures_next (monLine_memOk _ _ _ (fun _ h => (writeSnapshotTake_keeps MemOk (fun _ _ => rfl) _ _ _).mpr h) hs)
  | monWr key value burnt => exact ensures_next (monLine_memOk _ _ _ (fun _ h => monWrite_memOk _ _ _ _ h) hs)
  | monToken => exact ensures_next (monLine_memOk _ _ _ (fun _ h => (startBinary_keeps MemOk (fun _ _ => rfl) _ _ _ _).mpr h) hs)
  | monLoad bytes digest =>
    refine ensures_next (monLine_memOk _ _ _ (fun s h => ?_) hs)
    simp only [apply_ite MemOk, emit_keeps MemOk (fun _ _ => rfl), startBinary_keeps MemOk (fun _ _ => rfl), ite_self, h]
  | monitorBlock data good =>
    exact ensures_next (by simp only [apply_ite MemOk, ite_self, muted_keeps MemOk (fun _ _ => rfl), takeBlock_memOk, hs])
  | monitorTransferTimeout =>
    exact ensures_next (by simp only [apply_ite MemOk, ite_self, muted_keeps MemOk (fun _ _ => rfl),
      endBinary_keeps MemOk (fun _ _ => rfl), hs])
  | registerWrite offset size value => exact ensures_next (bar0Write_memOk _ _ _ _ hs)
  | intermediateBusUp straps => exact ensures_next (by simp only [apply_ite MemOk, ite_self, powerUp_memOk, hs])
  | auxRestore =>
    exact ensures_next (by simp only [apply_ite MemOk, ite_self, objPut_keeps MemOk (fun _ _ => rfl),
      updPower_keeps MemOk (fun _ _ => rfl), hs])
  | dimDeferredStart ch =>
    refine ensures_need ?_
    split <;> simp only [apply_ite MemOk, ite_self, startDim_keeps MemOk (fun _ _ => rfl), hs]
  | laneSkewHoldEnd outgoing fibre line => exact ensures_need (by simpa only [skewHoldEnd_keeps MemOk (fun _ _ => rfl)] using hs)
  | trialReadyTimeout =>
    exact ensures_next (by simp only [apply_ite MemOk, ite_self, beginCold_memOk, trialFailed_keeps MemOk (fun _ _ => rfl), hs])
  | monTxdDriverRetry clear =>
    exact ensures_next (by simp only [apply_ite MemOk, ite_self, objBit_keeps MemOk (fun _ _ => rfl),
      updIface_keeps MemOk (fun _ _ => rfl), hs])
  | monRxdBreakEnd =>
    exact ensures_next (by simp only [apply_ite MemOk, ite_self, objBit_keeps MemOk (fun _ _ => rfl),
      updIface_keeps MemOk (fun _ _ => rfl), hs])

/-- The fields that change with time alone (R378, R410, R233). -/
def footTick (s t : State) : State :=
  { s with now := t.now, lossNs := t.lossNs, wires := t.wires, dic := t.dic, links := t.links, out := t.out }

/-- The passing of a nanosecond leaves whatever neither the clock, the loss time, the crossings nor the flit slots reach. -/
theorem tick_keeps {γ : Type} (vw : State → γ) (hg : ∀ s t, vw (footTick s t) = vw s) (s : State) : vw (tick s) = vw s := by
  have start : ∀ n l, vw { s with now := n, lossNs := l } = vw s := fun n l => hg s { s with now := n, lossNs := l }
  have settled : ∀ u, vw (settleWires u) = vw u := settleWires_keeps vw (fun u t => hg u { footDicWires u t with now := u.now })
  have slots : ∀ u, vw (flitSlots u) = vw u := flitSlots_keeps vw (fun u t => hg u { footOutLinks u t with now := u.now })
  unfold tick
  dsimp only
  split
  · rw [slots, settled, start]
  · rw [settled, start]

/-- Settles O4: every command keeps the form, and the passing of time reaches neither memory. -/
theorem stepKeepsMemoryCanonical : Obligations.StepKeepsMemoryCanonical := by
  unfold Obligations.StepKeepsMemoryCanonical
  intro s t hs ht
  unfold step at ht
  split at ht
  · cases ht
    exact (tick_keeps MemOk (fun _ _ => rfl) s).mpr hs
  · next c rest hp =>
    have hr : MemOk { s with pending := rest } := hs
    exact exec_memOk c _ hr t ht

/-! ### Every part in its place -/

theorem amaxHere_partsOk (s : State) (off code : Nat) (hs : PartsOk s) : PartsOk (amaxHere s off code).st := by
  unfold amaxHere
  split
  · exact (forgetBad_keeps PartsOk (fun _ _ => rfl) _ _).mpr hs
  · exact atomicAt_partsOk _ _ _ _ _ _ hs

theorem scanAtomic_partsOk (s : State) (nn : Nat) (ws : List Word64) (code : Nat) (hs : PartsOk s) :
    PartsOk (scanAtomic s nn ws code).st := by
  unfold scanAtomic
  split
  · exact hs
  split
  · exact amaxHere_partsOk _ _ _ hs
  · split
    · exact (objInc_keeps PartsOk (fun _ _ => rfl) _ _).mpr hs
    · split
      · exact amaxHere_partsOk _ _ _ hs
      · exact updVec_partsOk _ _ _ ((sendRequest_keeps PartsOk (fun _ _ => rfl) _ _ _ _ _ _ _ _).mpr hs)
  · exact hs

theorem exec_partsOk (c : Instr) (s : State) (hs : PartsOk s) : Ensures PartsOk (exec c s) := by
  cases c with
  | bridgeFlitReceive bundle flit crcOk => exact ensures_need (bridgeFlit_partsOk _ _ _ _ hs)
  | bundleRetire bundle => exact ensures_need (retireBundle_partsOk _ _ hs)
  | pilotLinkFailure => exact ensures_next (by simpa only [pilotFails_keeps PartsOk (fun _ _ => rfl)] using hs)
  | pilotTrainRetry trained =>
    exact ensures_next (by simp only [apply_ite PartsOk, ite_self, objPut_keeps PartsOk (fun _ _ => rfl), hs])
  | arrayPass nn tst => exact ensures_need (arrayPass_partsOk _ _ _ hs)
  | arrayRowCommit nn upset => exact ensures_need (rowCommit_partsOk _ _ _ hs)
  | witnessRerunDone nn upset => exact ensures_need (rerunDone_partsOk _ _ _ hs)
  | bankHandoff nn => exact ensures_need (handOff_partsOk _ _ hs)
  | arrayDescriptorComplete nn => exact ensures_need (arrayDone_partsOk _ _ hs)
  | vectorProgram nn tst =>
    exact ensures_need (vecStart_partsOk _ _ _ _ _ _ (fun _ _ h => (vecExec_keeps PartsOk (fun _ _ => rfl) _ _ _).mpr h) hs)
  | treeMerge nn tst =>
    exact ensures_need (vecStart_partsOk _ _ _ _ _ _ (fun _ _ h => (mrgExec_keeps PartsOk (fun _ _ => rfl) _ _ _).mpr h) hs)
  | scan nn tst =>
    exact ensures_need (amaxPastDim_partsOk _ _ _ (fun _ h => vecStart_partsOk _ _ _ _ _ _
      (fun _ _ h => scanAtomic_partsOk _ _ _ _ ((scanExec_keeps PartsOk (fun _ _ => rfl) _ _ _).mpr h)) h) hs)
  | rebias nn tst =>
    exact ensures_need (vecStart_partsOk _ _ _ _ _ _ (fun _ _ h => (rebExec_keeps PartsOk (fun _ _ => rfl) _ _ _).mpr h) hs)
  | vectorDescriptorComplete nn => exact ensures_need (vecDone_partsOk _ _ hs)
  | layerOpen q list => exact ensures_need (layerOpenAt_partsOk _ _ _ hs)
  | layerAttemptEnd q list => exact ensures_need (attemptEnd_partsOk _ _ _ hs)
  | escalationImageCommit r handle digest =>
    exact ensures_next (commitRow_partsOk _ _ _ _ _ _ _ _ _ _ (fun _ _ h => (escImageApply_keeps PartsOk
      (fun _ _ => rfl) _ _).mpr h) (fun _ h => h) hs)
  | streamStart engine => exact ensures_need (streamStartAt_partsOk _ _ hs)
  | claimGrant slice => exact ensures_need (grantIn_partsOk _ _ hs)
  | streamRequestIssue r => exact ensures_need (by simp only [issueScan_partsOk, hs])
  | streamRequestDone engine seq req o =>
    exact ensures_need (by simp only [atsSettle_keeps PartsOk (fun _ _ => rfl), streamDoneAt_partsOk, hs])
  | seamMarker q => exact ensures_next (seamMarkerAt_partsOk _ _ hs)
  | seamOpen q => exact ensures_next (seamOpenAt_partsOk _ _ hs)
  | deadlockWatchFire slice => exact ensures_need (watchFire_partsOk _ _ hs)
  | spillCopyDone slice => exact ensures_need (spillDone_partsOk _ _ hs)
  | spillReclaim slice => exact ensures_need (by simpa only [reclaim_keeps PartsOk (fun _ _ => rfl)] using hs)
  | restoreCopyDone slice => exact ensures_need (restoreDone_partsOk _ _ hs)
  | tileStoreScrub slice w0 w1 => exact ensures_need (scrubTile_partsOk _ _ _ _ hs)
  | lpddrReadComplete package channel es =>
    exact ensures_need (by simp only [apply_ite PartsOk, ite_self, serveChannel_partsOk, hs])
  | lpddrWriteAccept line mask data poison =>
    exact ensures_need (by simp only [apply_ite PartsOk, ite_self, writeLine_partsOk, hs])
  | packageTempRead pkg tempC => exact ensures_need (packageTemp_partsOk _ _ _ hs)
  | channelOvertemp ch => exact ensures_need (overtemp_partsOk _ _ hs)
  | lpddrScrubRead ch es => exact ensures_need (scrubGranule_partsOk _ _ _ hs)
  | retrainStart ch => exact ensures_need (by simp only [apply_ite PartsOk, ite_self, fallDue_partsOk, hs])
  | retrainEnd ch ok => exact ensures_need (endRetrain_partsOk _ _ _ hs)
  | softRepairStart ch bank row => exact ensures_need (by simp only [apply_ite PartsOk, ite_self, fallDue_partsOk, hs])
  | softRepairEnd ch resource bad => exact ensures_need (endRepair_partsOk _ _ _ _ hs)
  | channelFailure ch => exact ensures_need (by simp only [apply_ite PartsOk, ite_self, failChannel_partsOk, hs])
  | queueLaunch block parts => exact ensures_next (mbxRun_partsOk _ _ _ (fun _ h => launch_partsOk _ _ _ _ h) hs)
  | queueDestroy => exact ensures_next (mbxRun_partsOk _ _ _ (fun _ h => (destroy_keeps PartsOk (fun _ _ => rfl) _).mpr h) hs)
  | qsyDoorbell q p => exact ensures_need (hostPage_partsOk _ _ _ _ hs)
  | descriptorFetch q f => exact ensures_need (fetchOne_partsOk _ _ _ hs)
  | descriptorIssue half => exact ensures_next (by simp only [apply_ite PartsOk, ite_self, issueAny_partsOk, hs])
  | qsyCmdRelease q => exact ensures_need (hostPage_partsOk _ _ _ _ hs)
  | qsyCmdDiscard q => exact ensures_need (hostPage_partsOk _ _ _ _ hs)
  | qsyCmdAbort q => exact ensures_need (hostPage_partsOk _ _ _ _ hs)
  | qsyIrqWrite q v => exact ensures_need (hostPage_partsOk _ _ _ _ hs)
  | cplPendingTimeout q => exact ensures_need (by simpa only [cplTimeout_keeps PartsOk (fun _ _ => rfl)] using hs)
  | syncSignal obj amount => exact ensures_need (by simpa only [syncAdd_keeps PartsOk (fun _ _ => rfl)] using hs)
  | syncSet obj value => exact ensures_need (by simp only [syncPut_keeps PartsOk (fun _ _ => rfl), hs])
  | waitPoll half => exact ensures_next hs
  | coreWatchdogExpire core pc imageOk => exact ensures_need (by simp only [apply_ite PartsOk, ite_self, watchdog_partsOk, hs])
  | coreRestartDone core => exact ensures_need (by simp only [apply_ite PartsOk, ite_self, coreBack_partsOk, hs])
  | supervisorWatchdogExpire =>
    refine ensures_next ?_
    split
    · exact updPower_partsOk _ _ (fun p => by simp) hs
    · exact hs
  | lightLoss laser line => exact ensures_need (loseLight_partsOk _ _ _ hs)
  | lightRestore laser line => exact ensures_need (gainLight_partsOk _ _ _ hs)
  | lockInReading ring errMHz => exact ensures_need (lockIn_partsOk _ _ _ hs)
  | feedForwardUpdate ring sites => exact ensures_need (by simp only [feedForward_partsOk, hs])
  | ringLockLoss ring => exact ensures_need (loseLock_partsOk _ _ hs)
  | rotorStep fibre => exact ensures_need (rotorStep_partsOk _ _ hs)
  | rotorLineLocked fibre => exact ensures_need (rotorLocked_partsOk _ _ hs)
  | rotorAcceptTimeout fibre => exact ensures_need (rotorLate_partsOk _ _ hs)
  | idleDropSweep inFibre locked => exact ensures_need (idleSweep_partsOk _ _ _ hs)
  | laneRecoveryEnd ring found t => exact ensures_need (recoveryEnd_partsOk _ _ _ _ hs)
  | beaconSend fibre line => exact ensures_need (sendBeacon_partsOk _ _ _ hs)
  | beaconReceive inFibre line b => exact ensures_need (hearBeacon_partsOk _ _ _ _ hs)
  | mapEntryExpire fibre line => exact ensures_need (expireEntry_partsOk _ _ _ hs)
  | laneDemandCommit r handle digest =>
    exact ensures_next (commitRow_partsOk _ _ _ _ _ _ _ _ _ _ (fun _ _ h => setDemand_partsOk _ _ h) (fun _ h => h) hs)
  | lineRequestSend fibre line => exact ensures_need (sendLineRequest_partsOk _ _ _ hs)
  | lineRequest chip outFibre line inFibre => exact ensures_need (takeLineRequest_partsOk _ _ _ _ _ hs)
  | lineGrant fibre line t => exact ensures_need (takeGrant_partsOk _ _ _ _ hs)
  | lineRefuse fibre line => exact ensures_need (takeRefusal_partsOk _ _ _ hs)
  | flitReceive inFibre line f => exact ensures_need (takeFlit_partsOk _ _ _ _ hs)
  | flitResendTimeout link flitSeq => exact ensures_need (flitTimeout_partsOk _ _ _ hs)
  | flitRetryLimit link flitSeq => exact ensures_need (retryLimit_partsOk _ _ _ hs)
  | linkReform link => exact ensures_need (reform_partsOk _ _ hs)
  | linkRemove link => exact ensures_need (removeDark_partsOk _ _ hs)
  | laneErrorRemoval link lane => exact ensures_need (removeForErrors_partsOk _ _ _ hs)
  | laneTrainingDone outgoing fibre line t => exact ensures_need (trainingDone_partsOk _ _ _ _ _ hs)
  | capability link version caps epochProto =>
    exact ensures_need (by simp only [apply_ite PartsOk, ite_self, takeCapability_partsOk, peerReforms_partsOk, hs])
  | capabilityAck link agreed => exact ensures_need (takeCapabilityAck_partsOk _ _ _ hs)
  | propose link lane toLine copyOk => exact ensures_need (takePropose_partsOk _ _ _ _ _ hs)
  | accept link lane => exact ensures_need (takeAccept_partsOk _ _ _ hs)
  | rotorAbort link lane => exact ensures_need (takeAbort_partsOk _ _ _ hs)
  | laneDown link lane cause => exact ensures_need (takeDown_partsOk _ _ _ _ hs)
  | laneJoin link lane flitSeq => exact ensures_need (takeJoin_partsOk _ _ _ _ hs)
  | laneLeave link lane flitSeq => exact ensures_need (takeLeave_partsOk _ _ _ _ hs)
  | greyNotice link cause => exact ensures_need (takeGrey_partsOk _ _ _ hs)
  | intendedMapCommit r handle digest =>
    exact ensures_next (commitRow_partsOk _ _ _ _ _ _ _ _ _ _ (fun _ _ h => applyIntended_partsOk _ ((domPut_keeps PartsOk
      (fun _ _ => rfl) _ _ _).mpr h)) (fun _ h => h) hs)
  | linkQuarantineWrite r v => exact ensures_next (writeLinkQuarantine_partsOk _ _ _ hs)
  | packetRoute half id => exact ensures_next (routePacket_partsOk _ _ _ hs)
  | escapeWaitExpire half id => exact ensures_next (escapeExpire_partsOk _ _ _ hs)
  | escapeStall half id => exact ensures_next (by simpa only [stallTold_keeps PartsOk (fun _ _ => rfl)] using hs)
  | routeTableLoad r handle digest =>
    exact ensures_next (commitRow_partsOk _ _ _ _ _ _ _ _ _ _ (fun _ _ h => (loadTables_keeps PartsOk
      (fun _ _ => rfl) _ _).mpr h) (fun _ h => h) hs)
  | epochSwitch r v => exact ensures_next (by simpa only [writeEpochSwitch_keeps PartsOk (fun _ _ => rfl)] using hs)
  | drainArm r v => exact ensures_next (by simpa only [writeDrainArm_keeps PartsOk (fun _ _ => rfl)] using hs)
  | epochRelease r v => exact ensures_next (by simpa only [writeEpochRelease_keeps PartsOk (fun _ _ => rfl)] using hs)
  | hotWindowGrow half cls dest => exact ensures_next (by simpa only [growHot_keeps PartsOk (fun _ _ => rfl)] using hs)
  | classWindowAdjust half cls fill => exact ensures_next (by simpa only [adjustWindow_keeps PartsOk (fun _ _ => rfl)] using hs)
  | loadRequest p => exact ensures_next (by simp only [serveLoad_partsOk, hs])
  | storeRequest p => exact ensures_next (serveStore_partsOk _ _ hs)
  | atomicRequest p => exact ensures_next (by simp only [serveAtomic_partsOk, hs])
  | remoteSignalRequest p => exact ensures_next (serveSignal_partsOk _ _ hs)
  | fabricReplyReceive p => exact ensures_next (takeReply_partsOk _ _ hs)
  | replyTimeout tag => exact ensures_next (replyLate_partsOk _ _ hs)
  | windowOpen => exact ensures_next (mbxRun_partsOk _ _ _ (fun _ h => (openWindow_keeps PartsOk (fun _ _ => rfl) _).mpr h) hs)
  | windowModify =>
    exact ensures_next (mbxRun_partsOk _ _ _ (fun _ h => (modifyWindow_keeps PartsOk (fun _ _ => rfl) _).mpr h) hs)
  | windowClose => exact ensures_next (mbxRun_partsOk _ _ _ (fun _ h => (closeWindow_keeps PartsOk (fun _ _ => rfl) _).mpr h) hs)
  | replayEntryExpire half src seq => exact ensures_next (by simpa only [expireReplay_keeps PartsOk (fun _ _ => rfl)] using hs)
  | atomicUnitWriteback addr => exact ensures_next (by simpa only [atomWriteBack_keeps PartsOk (fun _ _ => rfl)] using hs)
  | rcacheInvalidate q =>
    exact ensures_next (runTogether_partsOk _ _ _ _ _ (fun _ _ _ _ h => (schedReady_keeps PartsOk
      (fun _ _ => rfl) _ _ _ _).mpr h) (fun _ _ h => rciRun_partsOk _ _ _ h) hs)
  | collQueueLaunch block parts => exact ensures_next (mbxRun_partsOk _ _ _ (fun _ h => launch_partsOk _ _ _ _ h) hs)
  | collectiveIssue => exact ensures_next (by simp only [apply_ite PartsOk, ite_self, issueColl_partsOk, hs])
  | collectiveActivate half => exact ensures_next (activate_partsOk _ _ hs)
  | collLocalInput collId chunk segment => exact ensures_next (localInput_partsOk _ _ _ _ hs)
  | collPacketReceive p => exact ensures_next (takeColl_partsOk _ _ hs)
  | greySegmentReduce collId level chunk segment => exact ensures_next (reduceGrey_partsOk _ _ _ _ _ hs)
  | collWatchdogExpire collId => exact ensures_next (collExpire_partsOk _ _ hs)
  | collAbort => exact ensures_next (mbxRun_partsOk _ _ _ (fun _ h => abortColl_partsOk _ h) hs)
  | pendingEntryExpire collId => exact ensures_next (by simpa only [pendExpire_keeps PartsOk (fun _ _ => rfl)] using hs)
  | collGroupTableCommit r handle digest =>
    exact ensures_next (commitRow_partsOk _ _ _ _ _ _ _ _ _ _ (fun _ _ h => h) (fun _ h => h) hs)
  | configRequest c =>
    exact ensures_next (by simp only [apply_ite PartsOk, ite_self, emit_keeps PartsOk (fun _ _ => rfl),
      config_keeps PartsOk (fun _ _ => rfl), hs])
  | mailboxUnknownCommand =>
    exact ensures_next (by simp only [apply_ite PartsOk, ite_self, mbxEnd_keeps PartsOk (fun _ _ => rfl), hs])
  | msixUnmask vector =>
    cases vector with
    | some v => exact ensures_need (by simp only [sendPending_keeps PartsOk (fun _ _ => rfl),
      updHost_keeps PartsOk (fun _ _ => rfl), hs])
    | none => exact ensures_next (by simp only [sendPending_keeps PartsOk (fun _ _ => rfl),
      updHost_keeps PartsOk (fun _ _ => rfl), hs])
  | dataPortWrite first bytes poison => exact ensures_next (dataWrite_partsOk _ _ _ _ hs)
  | dataPortRead first r => exact ensures_next (by simp only [dataRead_partsOk, hs])
  | bar2Access offset a => exact ensures_next (bar2_partsOk _ _ _ hs)
  | hostSnoop addr => exact ensures_next (by simp only [emit_keeps PartsOk (fun _ _ => rfl), hs])
  | atsInvalidation pasid page =>
    exact ensures_next (by simp only [atsSettle_keeps PartsOk (fun _ _ => rfl), updHost_keeps PartsOk (fun _ _ => rfl), hs])
  | pageResponse pasid page => exact ensures_next (by simp only [updHost_keeps PartsOk (fun _ _ => rfl), hs])
  | cxlMemRead x =>
    exact ensures_next (by simp only [apply_ite PartsOk, ite_self, hostAccess_partsOk,
      openData_keeps PartsOk (fun _ _ => rfl), hs])
  | cxlMemWrite line mask data poison =>
    exact ensures_next (by simp only [apply_ite PartsOk, ite_self, hostAccess_partsOk, objInc_keeps PartsOk (fun _ _ => rfl),
      hs])
  | bisnpResponse line => exact ensures_next (bisnpAnswered_partsOk _ _ hs)
  | bisnpTimeout line => exact ensures_next (bisnpLate_partsOk _ _ hs)
  | perstNAssert =>
    exact ensures_next (by simp only [updHost_keeps PartsOk (fun _ _ => rfl), linkGone_keeps PartsOk (fun _ _ => rfl),
      hostReset_partsOk, hs])
  | hotReset => exact ensures_next (by simp only [linkGone_keeps PartsOk (fun _ _ => rfl), hostReset_partsOk, hs])
  | hostLinkDown => exact ensures_next (by simp only [linkGone_keeps PartsOk (fun _ _ => rfl), hostReset_partsOk, hs])
  | functionLevelReset => exact ensures_next (hostReset_partsOk _ hs)
  | hostQueuesDestroy => exact ensures_next (by simpa only [destroyAll_keeps PartsOk (fun _ _ => rfl)] using hs)
  | perstNDeassert refclk =>
    exact ensures_next (by simp only [apply_ite PartsOk, ite_self, updHost_keeps PartsOk (fun _ _ => rfl), hs])
  | hostLinkTrained gen width => exact ensures_next (by simpa only [linkTrained_keeps PartsOk (fun _ _ => rfl)] using hs)
  | dapFragment ip port w0 w1 payload reversed =>
    exact ensures_next (by simp only [apply_ite PartsOk, ite_self, noteReversed_keeps PartsOk (fun _ _ => rfl),
      emit_keeps PartsOk (fun _ _ => rfl), takeFragment_keeps PartsOk (fun _ _ => rfl), hs])
  | dapReassemblyTimeout session seq => exact ensures_next (by simp only [updMgmt_keeps PartsOk (fun _ _ => rfl), hs])
  | dicRead r key => exact ensures_next (by simpa only [readRow_keeps PartsOk (fun _ _ => rfl)] using hs)
  | dicWrite r key value => exact ensures_next (by simp only [apply_ite PartsOk, ite_self, writePlain_partsOk, hs])
  | describe r key =>
    refine ensures_next (ask_partsOk _ _ _ _ _ _ _ (fun _ _ h => ?_) hs)
    split <;> exact h
  | domainOpen r key dir size =>
    exact ensures_next (ask_partsOk _ _ _ _ _ _ _ (fun _ _ h => (domainOpen_keeps PartsOk
      (fun _ _ => rfl) _ _ _ _ _ _).mpr h) hs)
  | domainSegment r header data => exact ensures_next (ask_partsOk _ _ _ _ _ _ _ (fun _ _ h => segment_partsOk _ _ _ _ h) hs)
  | domainCommit r handle digest =>
    refine ensures_next ?_
    split
    · exact ask_partsOk _ _ _ _ _ _ _ (fun _ _ h => h) hs
    · split
      · exact hs
      · exact commitRow_partsOk _ _ _ _ _ _ _ _ _ _ (fun _ _ h => h) (fun _ h => h) hs
  | domainAbort r handle =>
    refine ensures_next (ask_partsOk _ _ _ _ _ _ _ (fun _ _ h => ?_) hs)
    split
    · exact h
    · exact (dropXfer_keeps PartsOk (fun _ _ => rfl) _ _).mpr h
  | domainTransferTimeout handle =>
    refine ensures_next ?_
    split <;> simp only [apply_ite PartsOk, ite_self, dropXfer_keeps PartsOk (fun _ _ => rfl), hs]
  | sessionHello ip port seq role => exact ensures_next (by simpa only [hello_keeps PartsOk (fun _ _ => rfl)] using hs)
  | sessionProve r key signature =>
    refine ensures_next ?_
    split <;> simp only [prove_keeps PartsOk (fun _ _ => rfl), hs]
  | sessionClose r =>
    exact ensures_next (ask_partsOk _ _ _ _ _ _ _ (fun _ _ h => (closeSession_keeps PartsOk (fun _ _ => rfl) _ _).mpr h) hs)
  | keepalive r => exact ensures_next (ask_partsOk _ _ _ _ _ _ _ (fun _ _ h => h) hs)
  | sessionProveTimeout session =>
    refine ensures_next ?_
    split <;> simp only [apply_ite PartsOk, ite_self, closeSession_keeps PartsOk (fun _ _ => rfl), hs]
  | sessionIdleExpire session =>
    refine ensures_next ?_
    split <;> simp only [apply_ite PartsOk, ite_self, closeSession_keeps PartsOk (fun _ _ => rfl), hs]
  | authLockoutExpire =>
    refine ensures_next ?_
    split <;> simp only [apply_ite PartsOk, ite_self, updMgmt_keeps PartsOk (fun _ _ => rfl), hs]
  | persistCommit key =>
    refine ensures_next ?_
    split
    · exact hs
    split
    · exact (objInc_keeps PartsOk (fun _ _ => rfl) _ _).mpr hs
    · exact (toFlash_keeps PartsOk (fun _ _ => rfl) _ _).mpr hs
  | dhcpLease ip =>
    exact ensures_next (by simp only [apply_ite PartsOk, ite_self, objPut_keeps PartsOk (fun _ _ => rfl),
      updMgmt_keeps PartsOk (fun _ _ => rfl), hs])
  | dhcpTimeout => exact ensures_next (by simp only [apply_ite PartsOk, ite_self, objPut_keeps PartsOk (fun _ _ => rfl), hs])
  | dhcpRetry => exact ensures_next (by simp only [apply_ite PartsOk, ite_self, emit_keeps PartsOk (fun _ _ => rfl), hs])
  | plcaBeaconLoss =>
    exact ensures_next (by simp only [apply_ite PartsOk, ite_self, objInc_keeps PartsOk (fun _ _ => rfl),
      updMgmt_keeps PartsOk (fun _ _ => rfl), hs])
  | arpRequest ip => exact ensures_next (by simp only [apply_ite PartsOk, ite_self, emit_keeps PartsOk (fun _ _ => rfl), hs])
  | icmpEcho ip payload =>
    exact ensures_next (by simp only [apply_ite PartsOk, ite_self, emit_keeps PartsOk (fun _ _ => rfl), hs])
  | memHashKeyWrite r v burnt => exact ensures_next (by simpa only [writeMemHashKey_keeps PartsOk (fun _ _ => rfl)] using hs)
  | chipNumberLockWrite r v burnt =>
    exact ensures_next (by simpa only [writeChipNumberLock_keeps PartsOk (fun _ _ => rfl)] using hs)
  | thermalRedOverrideWrite r v burnt =>
    exact ensures_next (by simpa only [writeThermalRedOverride_keeps PartsOk (fun _ _ => rfl)] using hs)
  | lifecycleStateWrite r v burnt => exact ensures_next (writeLifecycle_partsOk _ _ _ _ hs)
  | antiRollbackLevelWrite r v burnt =>
    exact ensures_next (by simpa only [writeAntiRollback_keeps PartsOk (fun _ _ => rfl)] using hs)
  | paleEnter mv =>
    refine ensures_next ?_
    split
    · exact settleVolts_partsOk _ (updPower_partsOk _ _ (fun _ => ⟨rfl,
      rfl⟩) ((noteSupply_keeps PartsOk (fun _ _ => rfl) _ _).mpr hs))
    · split
      · exact updPower_partsOk _ _ (fun _ => ⟨rfl, rfl⟩) ((noteSupply_keeps PartsOk (fun _ _ => rfl) _ _).mpr hs)
      · exact hs
  | paleExit mv =>
    exact ensures_next (by simp only [apply_ite PartsOk, ite_self, endPaleWait_partsOk, endPale_partsOk,
      noteSupply_keeps PartsOk (fun _ _ => rfl), hs])
  | paleLong =>
    refine ensures_next ?_
    split
    · exact updPower_partsOk _ _ (fun _ => ⟨rfl, rfl⟩) ((journalAlert_keeps PartsOk (fun _ _ => rfl) _ _ _).mpr hs)
    · exact hs
  | supplyReset mv =>
    exact ensures_next (by simp only [apply_ite PartsOk, ite_self, objPut_keeps PartsOk (fun _ _ => rfl),
      noteSupply_keeps PartsOk (fun _ _ => rfl), journalAlert_keeps PartsOk (fun _ _ => rfl), supplyDown_partsOk,
      journal_keeps PartsOk (fun _ _ => rfl), objInc_keeps PartsOk (fun _ _ => rfl), hs])
  | auxLoss =>
    refine ensures_next ?_
    have hp : PartsOk (updPower s (fun p => { p with aux := false })) := updPower_partsOk _ _ (fun _ => ⟨rfl, rfl⟩) hs
    split
    · dsimp only
      split
      · exact (journalAlert_keeps PartsOk (fun _ _ => rfl) _ _ _).mpr ((objPut_keeps PartsOk (fun _ _ => rfl) _ _ _).mpr hp)
      · exact unpower_partsOk _ hp
    · exact hs
  | converterFault conv =>
    refine ensures_need ?_
    have hp : PartsOk (journalAlert (objBit s Obj.convertersOk conv false) .converterLost [conv]) :=
      (journalAlert_keeps PartsOk (fun _ _ => rfl) _ _ _).mpr ((objBit_keeps PartsOk (fun _ _ => rfl) _ _ _ _).mpr hs)
    split
    · exact iteParts (settleVolts_partsOk _ (updPower_partsOk _ _ (fun _ => ⟨rfl, rfl⟩) hp)) hp
    · exact hs
  | powerLimitOverrun => exact ensures_next (iteParts (settleVolts_partsOk _ (updPower_partsOk _ _ (fun _ => ⟨rfl, rfl⟩) hs)) hs)
  | powerLimitRecover =>
    exact ensures_next (iteParts (ceilingRose_partsOk _ _ (updPower_partsOk _ _ (fun _ => ⟨rfl, rfl⟩) hs)) hs)
  | setpointStep half watts => exact ensures_next (by simp only [apply_ite PartsOk, ite_self, stepHalf_partsOk, hs])
  | commitDeferralRetry mj =>
    refine ensures_next ?_
    split
    · have hp : ∀ f : Power → Power, (∀ p, (f p).doms.length = p.doms.length ∧ (f p).sites.length = p.sites.length) →
          PartsOk (updPower (objPut s Obj.holdUpMj (min 2000 mj)) f) :=
        fun f hf => updPower_partsOk _ f hf ((objPut_keeps PartsOk (fun _ _ => rfl) _ _ _).mpr hs)
      exact iteParts ((objInc_keeps PartsOk (fun _ _ => rfl) _ _).mpr (hp _ (fun _ => ⟨rfl, rfl⟩))) (hp _ (fun _ => ⟨rfl, rfl⟩))
    · exact hs
  | holdUpFault =>
    refine ensures_next ?_
    split
    · exact iteParts (updPower_partsOk _ _ (fun _ => ⟨rfl, rfl⟩) ((journalAlert_keeps PartsOk (fun _ _ => rfl) _ _ _).mpr hs)) hs
    · exact hs
  | sensorReading site r0 r1 => exact ensures_need (by simp only [apply_ite PartsOk, ite_self, readSite_partsOk, hs])
  | sensorUnflag site sensor =>
    refine ensures_need ?_
    split <;> simp only [apply_ite PartsOk, ite_self, updSite_partsOk, hs]
  | amberEnter dom =>
    exact ensures_need (by simp only [apply_ite PartsOk, ite_self, settleVolts_partsOk, updDom_partsOk,
      objInc_keeps PartsOk (fun _ _ => rfl), hs])
  | amberStep dom =>
    refine ensures_need ?_
    split <;> simp only [apply_ite PartsOk, ite_self, settleVolts_partsOk, updDom_partsOk, hs]
  | amberExit dom =>
    refine ensures_need ?_
    split <;> simp only [apply_ite PartsOk, ite_self, ceilingRose_partsOk, updDom_partsOk,
      objAdd_keeps PartsOk (fun _ _ => rfl), hs]
  | redExit dom =>
    refine ensures_need ?_
    split
    · exact ceilingRose_partsOk _ _ (foldlParts _ (fun _ _ h => updSite_partsOk _ _ _ h) _ _ (updDom_partsOk _ _ _ hs))
    · exact hs
  | blackRateTrigger site =>
    refine ensures_need ?_
    split <;> simp only [apply_ite PartsOk, ite_self, blackShutdown_partsOk, hs]
  | thermalAutoRestart =>
    refine ensures_next ?_
    split <;> simp only [apply_ite PartsOk, ite_self, leaveBlack_partsOk, hs]
  | thermalRestartWrite r v => exact ensures_next (writeThermalRestart_partsOk _ _ _ hs)
  | katRun nn failedPass =>
    refine ensures_need ?_
    cases failedPass <;> simp only [apply_ite PartsOk, ite_self, katPassed_partsOk, katFailed_partsOk, hs]
  | checkpointNow r v => exact ensures_next (by simpa only [writeCheckpointNow_keeps PartsOk (fun _ _ => rfl)] using hs)
  | checkpointQuiesced =>
    refine ensures_next ?_
    split
    · exact (updSeqs_keeps PartsOk (fun _ _ => rfl) _ _).mpr hs
    · exact hs
  | checkpointQuiesceTimeout =>
    exact ensures_next (by simp only [apply_ite PartsOk, ite_self, failCheckpoint_keeps PartsOk (fun _ _ => rfl), hs])
  | checkpointCopyDone =>
    exact ensures_next (by simp only [apply_ite PartsOk, ite_self, copyOut_keeps PartsOk (fun _ _ => rfl),
      takeDoorbells_keeps PartsOk (fun _ _ => rfl), objPut_keeps PartsOk (fun _ _ => rfl),
      updSeqs_keeps PartsOk (fun _ _ => rfl), hs])
  | checkpointRestore r v => exact ensures_next (writeCheckpointRestore_partsOk _ _ _ hs)
  | warmRestartWrite r v => exact ensures_next (writeWarmRestart_partsOk _ _ _ hs)
  | warmRestartStepDone o => exact ensures_next (by simp only [apply_ite PartsOk, ite_self, warmStepDone_partsOk, hs])
  | firmwareBankCommit r handle digest =>
    exact ensures_next (commitRow_partsOk _ _ _ _ _ _ _ _ _ _ (fun _ _ h => (startUpdate_keeps PartsOk
      (fun _ _ => rfl) _).mpr h) (fun _ h => h) hs)
  | firmwareProgramDone images => exact ensures_next (by simp only [apply_ite PartsOk, ite_self, programDone_partsOk, hs])
  | revokeRootKey r v burnt => exact ensures_next (by simpa only [writeRevoke_keeps PartsOk (fun _ _ => rfl)] using hs)
  | attestNonceCommit r handle digest =>
    exact ensures_next (commitRow_partsOk _ _ _ _ _ _ _ _ _ _ (fun _ _ h => (objPut_keeps PartsOk
      (fun _ _ => rfl) _ _ _).mpr ((updSec_keeps PartsOk (fun _ _ => rfl) _ _).mpr h)) (fun _ h => h) hs)
  | attestationSigned =>
    exact ensures_next (by simp only [apply_ite PartsOk, ite_self, domPut_keeps PartsOk (fun _ _ => rfl),
      objPut_keeps PartsOk (fun _ _ => rfl), updSec_keeps PartsOk (fun _ _ => rfl), hs])
  | identityCertificateCommit r handle digest certKey =>
    exact ensures_next (commitRow_partsOk _ _ _ _ _ _ _ _ _ _ (fun _ _ h => h) (fun _ h => h) hs)
  | debugTokenCommit r handle digest =>
    exact ensures_next (commitRow_partsOk _ _ _ _ _ _ _ _ _ _ (fun _ _ h => (unlock_keeps PartsOk
      (fun _ _ => rfl) _ _).mpr h) (fun _ h => (tokenRefused_keeps PartsOk (fun _ _ => rfl) _).mpr h) hs)
  | debugLock r v => exact ensures_next (by simpa only [writeDebugLock_keeps PartsOk (fun _ _ => rfl)] using hs)
  | auxPowerUp straps => exact ensures_next (by simp only [apply_ite PartsOk, ite_self, powerUp_partsOk, hs])
  | mainInputQualified straps =>
    refine ensures_next ?_
    split
    · exact (endWait_keeps PartsOk (fun _ _ => rfl) _).mpr ((updSeqs_keeps PartsOk (fun _ _ => rfl) _ _).mpr
        ((objPut_keeps PartsOk (fun _ _ => rfl) _ _ _).mpr (updPower_partsOk _ _ (fun _ => ⟨rfl, rfl⟩) hs)))
    · exact hs
  | railRetry =>
    refine ensures_next ?_
    split <;> simp only [apply_ite PartsOk, ite_self, updSeqs_keeps PartsOk (fun _ _ => rfl), hs]
  | startupStepDone o => exact ensures_next (by simp only [apply_ite PartsOk, ite_self, startStepDone_partsOk, hs])
  | startupOverrun =>
    exact ensures_next (by simp only [apply_ite PartsOk, ite_self, updSeqs_keeps PartsOk (fun _ _ => rfl),
      journal_keeps PartsOk (fun _ _ => rfl), objInc_keeps PartsOk (fun _ _ => rfl), hs])
  | coldRestartWrite r v => exact ensures_next (writeColdRestart_partsOk _ _ _ hs)
  | crossingDrainTimeout island =>
    refine ensures_next ?_
    cases island with
    | channel c =>
      dsimp only
      split
      · simp only [apply_ite PartsOk, ite_self, islandReset_keeps PartsOk (fun _ _ => rfl), failReads_partsOk, hs]
      · exact hs
    | facet f => simp only [islandReset_keeps PartsOk (fun _ _ => rfl), facetResend_partsOk, hs]
    | _ => simp only [islandReset_keeps PartsOk (fun _ _ => rfl), hs]
  | leakLoopSample ohms => exact ensures_next (by simp only [apply_ite PartsOk, ite_self, leakSample_partsOk, hs])
  | leakDryRelease =>
    refine ensures_next ?_
    split
    · exact iteParts (updPower_partsOk _ _ (fun _ => ⟨rfl, rfl⟩) hs) hs
    · exact hs
  | flowLow centiLpm =>
    exact ensures_next (by simp only [apply_ite PartsOk, ite_self, flowRead_keeps PartsOk (fun _ _ => rfl), hs])
  | auxEfuseTrip => exact ensures_next (by simp only [apply_ite PartsOk, ite_self, efuseOpens_partsOk, hs])
  | auxEfuseRetry clear =>
    refine ensures_next ?_
    split
    · exact iteParts ((objPut_keeps PartsOk (fun _ _ => rfl) _ _ _).mpr ((updIface_keeps PartsOk (fun _ _ => rfl) _ _).mpr
        (updPower_partsOk _ _ (fun _ => ⟨rfl, rfl⟩) hs))) (efuseOpens_partsOk _ hs)
    · exact hs
  | monTxdFault =>
    exact ensures_next (by simp only [apply_ite PartsOk, ite_self, journal_keeps PartsOk (fun _ _ => rfl),
      objBit_keeps PartsOk (fun _ _ => rfl), updIface_keeps PartsOk (fun _ _ => rfl), hs])
  | monRxdBreak =>
    exact ensures_next (by simp only [apply_ite PartsOk, ite_self, journal_keeps PartsOk (fun _ _ => rfl),
      objBit_keeps PartsOk (fun _ _ => rfl), updIface_keeps PartsOk (fun _ _ => rfl), hs])
  | timeSourceChange refclk =>
    exact ensures_next (by simp only [apply_ite PartsOk, ite_self, journal_keeps PartsOk (fun _ _ => rfl),
      objPut_keeps PartsOk (fun _ _ => rfl), hs])
  | snapshotTake r v => exact ensures_next (writeSnapshotTake_partsOk _ _ _ hs)
  | markerFlitReceive link epoch reach => exact ensures_need (takeMarker_partsOk _ _ _ _ hs)
  | snapshotClose => exact ensures_next (closeSnap_partsOk _ hs)
  | journalCommit =>
    exact ensures_next (by simp only [apply_ite PartsOk, ite_self, journalFlush_keeps PartsOk (fun _ _ => rfl),
      objInc_keeps PartsOk (fun _ _ => rfl), hs])
  | monHelp => exact ensures_next (monLine_partsOk _ _ _ (fun _ h => (emit_keeps PartsOk (fun _ _ => rfl) _ _).mpr h) hs)
  | monId => exact ensures_next (monLine_partsOk _ _ _ (fun _ h => (printObjs_keeps PartsOk (fun _ _ => rfl) _ _).mpr h) hs)
  | monState => exact ensures_next (monLine_partsOk _ _ _ (fun _ h => (printObjs_keeps PartsOk (fun _ _ => rfl) _ _).mpr h) hs)
  | monRd key => exact ensures_next (monLine_partsOk _ _ _ (fun _ h => (readRow_keeps PartsOk (fun _ _ => rfl) _ _ _).mpr h) hs)
  | monJr n =>
    refine ensures_next (monLine_partsOk _ _ _ (fun _ h => ?_) hs)
    split <;> exact (emit_keeps PartsOk (fun _ _ => rfl) _ _).mpr h
  | monSnap epoch hops => exact ensures_next (monLine_partsOk _ _ _ (fun _ h => writeSnapshotTake_partsOk _ _ _ h) hs)
  | monWr key value burnt => exact ensures_next (monLine_partsOk _ _ _ (fun _ h => monWrite_partsOk _ _ _ _ h) hs)
  | monToken =>
    exact ensures_next (monLine_partsOk _ _ _ (fun _ h => (startBinary_keeps PartsOk (fun _ _ => rfl) _ _ _ _).mpr h) hs)
  | monLoad bytes digest =>
    refine ensures_next (monLine_partsOk _ _ _ (fun s h => ?_) hs)
    simp only [apply_ite PartsOk, emit_keeps PartsOk (fun _ _ => rfl), startBinary_keeps PartsOk (fun _ _ => rfl), ite_self, h]
  | monitorBlock data good =>
    exact ensures_next (by simp only [apply_ite PartsOk, ite_self, muted_keeps PartsOk (fun _ _ => rfl), takeBlock_partsOk, hs])
  | monitorTransferTimeout =>
    exact ensures_next (by simp only [apply_ite PartsOk, ite_self, muted_keeps PartsOk (fun _ _ => rfl),
      endBinary_keeps PartsOk (fun _ _ => rfl), hs])
  | registerWrite offset size value => exact ensures_next (bar0Write_partsOk _ _ _ _ hs)
  | intermediateBusUp straps => exact ensures_next (by simp only [apply_ite PartsOk, ite_self, powerUp_partsOk, hs])
  | auxRestore =>
    refine ensures_next ?_
    split
    · exact (objPut_keeps PartsOk (fun _ _ => rfl) _ _ _).mpr (updPower_partsOk _ _ (fun _ => ⟨rfl, rfl⟩) hs)
    · exact hs
  | dimDeferredStart ch =>
    refine ensures_need ?_
    split <;> simp only [apply_ite PartsOk, ite_self, startDim_partsOk, hs]
  | laneSkewHoldEnd outgoing fibre line =>
    exact ensures_need (by simpa only [skewHoldEnd_keeps PartsOk (fun _ _ => rfl)] using hs)
  | trialReadyTimeout =>
    exact ensures_next (by simp only [apply_ite PartsOk, ite_self, beginCold_partsOk,
      trialFailed_keeps PartsOk (fun _ _ => rfl), hs])
  | monTxdDriverRetry clear =>
    exact ensures_next (by simp only [apply_ite PartsOk, ite_self, objBit_keeps PartsOk (fun _ _ => rfl),
      updIface_keeps PartsOk (fun _ _ => rfl), hs])
  | monRxdBreakEnd =>
    exact ensures_next (by simp only [apply_ite PartsOk, ite_self, objBit_keeps PartsOk (fun _ _ => rfl),
      updIface_keeps PartsOk (fun _ _ => rfl), hs])

/-- Time passes over every part in its place. -/
theorem tick_partsOk (s : State) (hs : PartsOk s) : PartsOk (tick s) := by
  have settled : PartsOk (settleWires { s with now := s.now + 1, lossNs := s.lossNs + boolNat (losing s) }) :=
    (settleWires_keeps PartsOk (fun _ _ => rfl) _).mpr hs
  unfold tick
  dsimp only
  exact iteParts (flitSlots_partsOk _ settled) settled

/-- Settles O59: every command and the passing of time keep each part in its place. -/
theorem stepKeepsEveryPart : Obligations.StepKeepsEveryPart := by
  unfold Obligations.StepKeepsEveryPart
  intro s t hs ht
  unfold step at ht
  split at ht
  · cases ht
    exact tick_partsOk s hs
  · next c rest hp =>
    have hr : PartsOk { s with pending := rest } := hs
    exact exec_partsOk c _ hr t ht

end Sys2Proof.Machine

/-!
A step (log entry 2) and reset: the front command is run on the rest of the queue, an empty queue lets a nanosecond pass, and
what a module out of reset holds.
-/

namespace Sys2Proof.Machine

/-! ### Event crossings read (R410) -/

theorem mem_of_smGet {α : Type} {m : SMap α} {k : Nat} {v : α} (h : smGet m k = some v) : (k, v) ∈ m := by
  induction m with
  | nil => cases h
  | cons e r ih =>
    obtain ⟨a, b⟩ := e
    simp only [smGet] at h
    split at h
    · cases h
      subst_vars
      exact List.mem_cons_self
    · exact List.mem_cons_of_mem _ (ih h)

theorem objGet_foldl_objAdd_ne (l : List (Nat × Nat)) (s : State) (k : Nat) (hk : k ∉ l.map Prod.fst) :
    objGet (l.foldl (fun s e => objAdd s e.1 e.2) s) k = objGet s k := by
  induction l generalizing s with
  | nil => rfl
  | cons e r ih =>
    simp only [List.map_cons, List.mem_cons, not_or] at hk
    rw [List.foldl_cons, ih _ hk.2, objGet_objAdd_ne _ _ _ _ hk.1]

/-- The objects that the counts of crossings are for. -/
def countedObjs (ws : SMap EventWire) : List Nat := ws.flatMap (fun e => e.2.counts.map Prod.fst)

theorem mem_countedObjs_of_smGetD {ws : SMap EventWire} {k x : Nat} (h : x ∈ (smGetD ws k {}).counts.map Prod.fst) :
    x ∈ countedObjs ws := by
  unfold smGetD at h
  cases hg : smGet ws k with
  | none => simp [hg] at h
  | some w => exact List.mem_flatMap.mpr ⟨(k, w), mem_of_smGet hg, by simpa [hg] using h⟩

theorem countedObjs_smSet_subset {ws : SMap EventWire} {k : Nat} {w : EventWire}
    (h : ∀ x ∈ w.counts.map Prod.fst, x ∈ countedObjs ws) : countedObjs (smSet ws k w) ⊆ countedObjs ws := by
  intro x hx
  obtain ⟨e, he, hxe⟩ := List.mem_flatMap.mp hx
  rcases mem_smSet _ _ _ _ he with rfl | he
  · exact h x hxe
  · exact List.mem_flatMap.mpr ⟨e, he, hxe⟩

/-- A state whose crossings count for no object outside `K`, and whose objects outside `K` are those of `s`. -/
def CountsWithin (s : State) (K : List Nat) (t : State) : Prop := countedObjs t.wires ⊆ K ∧ SameObjs s t K

theorem countsWithin_readCounts {s t : State} {K : List Nat} (k : Nat) (h : CountsWithin s K t) :
    CountsWithin s K (readCounts t k) := by
  obtain ⟨hw, ho⟩ := h
  constructor
  · have hwires : (readCounts t k).wires = smSet t.wires k { smGetD t.wires k {} with pulse := false, counts := [] } :=
      foldlState State.wires (fun s (e : Nat × Nat) => objAdd s e.1 e.2) (fun _ _ => rfl) _ _
    rw [hwires]
    exact List.Subset.trans (countedObjs_smSet_subset (by simp)) hw
  · intro x hx
    exact (objGet_foldl_objAdd_ne _ _ _ fun hm => hx (hw (mem_countedObjs_of_smGetD hm))).trans (ho x hx)

/-- An acknowledgement that returns on a crossing leaves one pulse at its far side. -/
def wireAcked (s : State) (k : Nat) : State :=
  let w := smGetD s.wires k {}
  if w.ackAt.any (fun t => decide (t ≤ s.now)) then
    { s with wires := smSet s.wires k { w with seen := w.toggle, ackAt := none, pulse := true } }
  else s

theorem settleWire_eq (s : State) (k : Nat) :
    settleWire s k = if (smGetD (wireAcked s k).wires k {}).pulse && wireTaken (wireAcked s k) k then readCounts (wireAcked s k) k
      else wireAcked s k := rfl

theorem countsWithin_wireAcked {s t : State} {K : List Nat} (k : Nat) (h : CountsWithin s K t) :
    CountsWithin s K (wireAcked t k) := by
  unfold wireAcked
  dsimp only
  split
  · exact ⟨List.Subset.trans (countedObjs_smSet_subset fun x hx => mem_countedObjs_of_smGetD hx) h.1, h.2⟩
  · exact h

theorem countsWithin_settleWire {s t : State} {K : List Nat} (k : Nat) (h : CountsWithin s K t) :
    CountsWithin s K (settleWire t k) := by
  rw [settleWire_eq]
  split
  · exact countsWithin_readCounts k (countsWithin_wireAcked k h)
  · exact countsWithin_wireAcked k h

/-- As time passes, only counted objects that crossings carry change. -/
theorem sameObjs_settleWires (s : State) : SameObjs s (settleWires s) (countedObjs s.wires) := by
  have within : ∀ (l : List Nat) (t : State), CountsWithin s (countedObjs s.wires) t →
      CountsWithin s (countedObjs s.wires) (l.foldl settleWire t) := by
    intro l
    induction l with
    | nil => exact fun t h => h
    | cons k l ih => exact fun t h => ih _ (countsWithin_settleWire k h)
  exact (within _ s ⟨fun _ h => h, fun _ _ => rfl⟩).2

theorem settleWires_of_nil {s : State} (h : s.wires = []) : settleWires s = s := by
  unfold settleWires
  rw [h]
  rfl

/-- The state in which the crossings of a passing nanosecond settle. -/
def oneLater (s : State) : State := { s with now := s.now + 1, lossNs := s.lossNs + boolNat (losing s) }

theorem tick_eq (s : State) :
    tick s = if (s.now + 1) % 16 = 0 then flitSlots (settleWires (oneLater s)) else settleWires (oneLater s) := by
  have hnow : (settleWires (oneLater s)).now = s.now + 1 := settleWires_keeps State.now (fun _ _ => rfl) (oneLater s)
  change (if (settleWires (oneLater s)).now % 16 = 0 then _ else _) = _
  rw [hnow]
  rfl

/-- The fields that settled crossings and flit slots change. -/
def footSettled (s t : State) : State := { s with wires := t.wires, dic := t.dic, links := t.links, out := t.out }

/-- What neither crossings, objects, links nor output reach is as one nanosecond later. -/
theorem tick_keeps_oneLater {γ : Type} (vw : State → γ) (hg : ∀ s t, vw (footSettled s t) = vw s) (s : State) :
    vw (tick s) = vw (oneLater s) := by
  have settled : ∀ u, vw (settleWires u) = vw u := settleWires_keeps vw (fun u t => hg u (footDicWires u t))
  have slots : ∀ u, vw (flitSlots u) = vw u := flitSlots_keeps vw (fun u t => hg u (footOutLinks u t))
  rw [tick_eq]
  split
  · rw [slots, settled]
  · exact settled _

theorem objGet_tick (s : State) (k : Nat) : objGet (tick s) k = objGet (settleWires (oneLater s)) k := by
  rw [tick_eq]
  split
  · exact flitSlots_keeps (objGet · k) (fun _ _ => rfl) _
  · rfl

/-- Settles O1: a step is `exec` on the rest of the queue, or the passing of a nanosecond. -/
theorem stepRunsTheFrontCommand : Obligations.StepRunsTheFrontCommand := by
  unfold Obligations.StepRunsTheFrontCommand
  refine ⟨fun c rest s => rfl, fun c rest s h => by rw [step, h], fun s h => ?_⟩
  refine ⟨tick s, by rw [step, h], ?frame, ?objs, ?none, ?slot⟩
  case frame =>
    exact tick_keeps_oneLater (footSettled · (tick s)) (fun _ _ => rfl) s
  case objs => exact fun k hk => (objGet_tick s k).trans (sameObjs_settleWires (oneLater s) k hk)
  case none =>
    intro hw
    have hs : settleWires (oneLater s) = oneLater s := settleWires_of_nil hw
    rw [tick_eq, hs]
    split
    · exact ⟨flitSlots_keeps State.dic (fun _ _ => rfl) _, (flitSlots_keeps State.wires (fun _ _ => rfl) _).trans hw⟩
    · exact ⟨rfl, hw⟩
  case slot =>
    intro hn
    rw [tick_eq, if_neg hn]
    exact ⟨settleWires_keeps State.links (fun _ _ => rfl) _, settleWires_keeps State.out (fun _ _ => rfl) _⟩

/-! ### Out of reset -/

/-- Out of reset every numeric object reads as its default. -/
theorem objGet_reset (k : Nat) : objGet State.reset k = objDefault k := rfl

theorem objDefault_memChannelState : ∀ ch < 64, objDefault (Obj.memChannelState + ch) = 5 := by decide

theorem objDefault_linkState : ∀ k < 64, objDefault (Obj.linkState + k) = 4 := by decide

/-- Settles O5: the fields of `State.reset`, and the defaults of the object tables. -/
theorem resetStateValues : Obligations.ResetStateValues := by
  unfold Obligations.ResetStateValues
  refine ⟨⟨rfl, rfl⟩, reset_partsOk, rfl, rfl, rfl, rfl, rfl, ?links, fun o => rfl, objGet_reset, ?_⟩
  case links =>
    intro l hl
    rw [List.eq_of_mem_replicate hl]
  · simp only [objGet_reset]
    exact ⟨by decide, by decide, by decide, by decide, objDefault_memChannelState, objDefault_linkState, by decide, by decide,
      by decide, by decide, by decide, by decide, by decide, by decide, by decide, by decide, by decide, by decide⟩

end Sys2Proof.Machine

/-!
What the statements about single commands share: which objects an update changes, what it counts and logs, and the result of a
command whose parts exist.
-/

namespace Sys2Proof

open Sys2Proof.Machine

/-! ### Objects left alone -/

theorem SameObjs.refl (s : State) (ks : List Nat) : SameObjs s s ks := fun _ _ => rfl

theorem SameObjs.trans {s t u : State} {ks : List Nat} (h : SameObjs s t ks) (h' : SameObjs t u ks) : SameObjs s u ks :=
  fun k hk => (h' k hk).trans (h k hk)

theorem SameObjs.mono {s t : State} {ks ks' : List Nat} (h : SameObjs s t ks) (hs : ks ⊆ ks') : SameObjs s t ks' :=
  fun k hk => h k fun hm => hk (hs hm)

/-- Objects depend on the Dictionary's table alone. -/
theorem SameObjs.of_dic {s t u : State} {ks : List Nat} (h : SameObjs s t ks) (hd : u.dic = t.dic) : SameObjs s u ks :=
  fun k hk => (objGet_congr t u k hd).trans (h k hk)

theorem SameObjs.objPut {s t : State} {ks : List Nat} (h : SameObjs s t ks) (k v : Nat) (hk : k ∈ ks) :
    SameObjs s (objPut t k v) ks :=
  fun x hx => (objGet_objPut_ne t k x v fun hxk => hx (hxk ▸ hk)).trans (h x hx)

theorem SameObjs.objAdd {s t : State} {ks : List Nat} (h : SameObjs s t ks) (k n : Nat) (hk : k ∈ ks) :
    SameObjs s (objAdd t k n) ks := h.objPut k _ hk

theorem SameObjs.objInc {s t : State} {ks : List Nat} (h : SameObjs s t ks) (k : Nat) (hk : k ∈ ks) :
    SameObjs s (objInc t k) ks := h.objPut k _ hk

theorem SameObjs.objMax {s t : State} {ks : List Nat} (h : SameObjs s t ks) (k v : Nat) (hk : k ∈ ks) :
    SameObjs s (objMax t k v) ks := h.objPut k _ hk

theorem SameObjs.objBit {s t : State} {ks : List Nat} (h : SameObjs s t ks) (k i : Nat) (b : Bool) (hk : k ∈ ks) :
    SameObjs s (objBit t k i b) ks := h.objPut k _ hk

theorem SameObjs.journal {s t : State} {ks : List Nat} (h : SameObjs s t ks) (e : JEvent) (as : List Nat)
    (hks : journalObjs ⊆ ks) : SameObjs s (journal t e as) ks :=
  fun k hk => (objGet_journal t e as k (fun hx => hk (hks (by simp [journalObjs, hx])))
    (fun hx => hk (hks (by simp [journalObjs, hx])))).trans (h k hk)

theorem SameObjs.journalAlert {s t : State} {ks : List Nat} (h : SameObjs s t ks) (e : JEvent) (as : List Nat)
    (hks : alertObjs ⊆ ks) : SameObjs s (journalAlert t e as) ks :=
  fun k hk => (objGet_journalAlert t e as k (fun hx => hk (hks (by simp [alertObjs, hx])))
    (fun hx => hk (hks (by simp [alertObjs, hx]))) (fun hx => hk (hks (by simp [alertObjs, hx])))).trans (h k hk)

/-- A fold of steps that each leave the objects outside a list. -/
theorem SameObjs.foldl {α : Type} {s t : State} {ks : List Nat} (h : SameObjs s t ks) (f : State → α → State)
    (hf : ∀ u a, SameObjs u (f u a) ks) (l : List α) : SameObjs s (l.foldl f t) ks := by
  induction l generalizing t with
  | nil => exact h
  | cons a l ih => exact ih (h.trans (hf t a))

/-! ### Events logged -/

/-- What an event logged depends on: the journal, the boot count and the time. -/
def logView (s : State) : Obs × Nat × Nat := (s.obs, s.now, s.coldAt)

theorem Logged.of_view {s s' t : State} {e : JEvent} {as : List Nat} {al : Bool} (h : Logged s' t e as al)
    (hv : logView s' = logView s) : Logged s t e as al := by
  simp only [logView, Prod.mk.injEq] at hv
  obtain ⟨hobs, hnow, hcold⟩ := hv
  exact logged_of_congr hobs hnow hcold h

theorem Logged.of_obs {s t t' : State} {e : JEvent} {as : List Nat} {al : Bool} (h : Logged s t e as al)
    (ho : t'.obs = t.obs) : Logged s t' e as al := by
  unfold Logged at h ⊢
  rwa [ho]

end Sys2Proof

namespace Sys2Proof.Machine

/-! ### Commands whose parts exist -/

theorem need_of {ok : Bool} (h : ok = true) (u : State) : need ok u = .next u := if_pos h

theorem need_lt {n b : Nat} (h : n < b) (u : State) : need (decide (n < b)) u = .next u := need_of (decide_eq_true h) u

/-! ### Objects read after an event -/

@[simp] theorem objGet_journal_of_ne (s : State) (e : JEvent) (as : List Nat) (k : Nat)
    (h : k ≠ Obj.journalNextSeq ∧ k ≠ Obj.journalDropped) : objGet (journal s e as) k = objGet s k :=
  objGet_journal s e as k h.1 h.2

end Sys2Proof.Machine

/-!
The bridge (R11 to R25, R406): a flit on a bundle, a bundle retired, the bridge failed, and the pilot link.
-/

namespace Sys2Proof.Machine

/-! ### Bits of a number -/

theorem natBit_eq_testBit (i n : Nat) : natBit i n = n.testBit i := by
  rw [Nat.testBit_eq_decide_div_mod_eq]
  rfl

/-- Adding 2^i where bit i is clear sets it and carries nowhere. -/
theorem testBit_add_two_pow {n i : Nat} (h : n.testBit i = false) (j : Nat) :
    (n + 2 ^ i).testBit j = (decide (i = j) || n.testBit j) := by
  have heven : n / 2 ^ i % 2 = 0 := by
    rw [Nat.testBit_eq_decide_div_mod_eq] at h
    simpa using h
  have hr : n % 2 ^ i < 2 ^ i := Nat.mod_lt _ (Nat.two_pow_pos i)
  have hn : n = 2 ^ i * (2 * (n / 2 ^ i / 2)) + n % 2 ^ i := by
    rw [show 2 * (n / 2 ^ i / 2) = n / 2 ^ i by omega, Nat.div_add_mod]
  have hsum : n + 2 ^ i = 2 ^ i * (2 * (n / 2 ^ i / 2) + 1) + n % 2 ^ i := by
    rw [Nat.mul_add, Nat.mul_one]
    omega
  generalize n % 2 ^ i = r at hr hn hsum
  generalize n / 2 ^ i / 2 = q at hn hsum
  rw [hsum, Nat.testBit_two_pow_mul_add _ hr, hn, Nat.testBit_two_pow_mul_add _ hr]
  rcases Nat.lt_trichotomy j i with hji | rfl | hji
  · simp [hji, Nat.ne_of_gt hji]
  · simp [Nat.testBit_zero]
  · obtain ⟨k, rfl⟩ : ∃ k, j = i + (k + 1) := ⟨j - i - 1, by omega⟩
    have hdiv : (2 * q + 1) / 2 = q := by omega
    simp [Nat.testBit_succ, hdiv]

/-- Setting bit i sets it and leaves every other bit. -/
theorem natBit_setNatBit (i j n : Nat) : natBit j (setNatBit i n) = (decide (i = j) || natBit j n) := by
  unfold setNatBit
  split
  · next h => by_cases hij : i = j <;> simp_all
  · next h =>
    simp only [natBit_eq_testBit] at h ⊢
    exact testBit_add_two_pow (by simpa using h) j

/-! ### Whole lines written -/

theorem fullMask_bit : ∀ i < 64, fullMask / 2 ^ i % 2 = 1 := by decide

theorem length_of_full {bs : Bytes} {i : Nat} (h : bs.length = 64) (hi : i < 64) : i < bs.length := by omega

theorem memRead_memStoreMask_full (m : Mem) (a : Nat) {bs : Bytes} (h : bs.length = 64) {i : Nat} (hi : i < 64) :
    memRead (memStoreMask m a fullMask bs) (a + i) = bs.getD i 0 := by
  rw [memRead_memStoreMask_in m a i fullMask bs (by omega), if_pos (fullMask_bit i hi),
    List.getD_eq_getElem _ _ (by omega)]

/-- A whole line stored changes no byte outside it. -/
theorem sameBytesBut_memStoreMask (m : Mem) (a mask : Nat) {bs : Bytes} (h : bs.length = 64) :
    SameBytesBut m (memStoreMask m a mask bs) a 64 :=
  fun x hx => memRead_memStoreMask_out m a x mask bs (by omega)

/-- A whole line of LPDDR written: its bytes, its poison bit as given, and no uncorrectable line left there (R169). -/
theorem writeLpddrLine_full (s : State) (line : Nat) (data : Bytes) (poison : Bool) :
    writeLpddrLine s line fullMask data poison
      = { s with lpddr := memStoreMask s.lpddr (64 * line) fullMask data, lpddrPoison := nsPut s.lpddrPoison line poison
                 lpddrBad := nsDel s.lpddrBad line } := by
  simp [writeLpddrLine]

/-- A whole line of the tile store written (R164). -/
theorem writeTileLine_full (s : State) (line : Nat) (data : Bytes) (poison : Bool) :
    writeTileLine s line fullMask data poison
      = { s with tile := memStoreMask s.tile (64 * line) fullMask data, tilePoison := nsPut s.tilePoison line poison } := by
  simp [writeTileLine]

theorem regionOf_lpddr {s : State} {off : Nat} (h : regionOf s off = .lpddr) : off < lpddrSize := by
  unfold regionOf at h
  split at h
  · assumption
  · split at h
    · cases h
    split at h
    · cases h
    split at h <;> cases h

theorem regionOf_tile {s : State} {off : Nat} (h : regionOf s off = .tile) : tileBase ≤ off ∧ off < tileBase + tileSize := by
  unfold regionOf at h
  split at h
  · split at h <;> cases h
  · split at h
    · assumption
    split at h
    · cases h
    split at h <;> cases h

theorem regionOf_congr {s t : State} (h : t.spillEff = s.spillEff) (off : Nat) : regionOf t off = regionOf s off := by
  unfold regionOf spillBase
  rw [h]

/-- The write of a line noted at its channel counts a Dim stall at most. -/
theorem sameObjs_noteWrite (s : State) (line : Nat) : SameObjs s (noteWrite s line) [Obj.memDimStalledRequests] := by
  unfold noteWrite
  dsimp only
  split
  · exact ((SameObjs.refl s _).objInc _ (by decide)).of_dic rfl
  · exact (SameObjs.refl s _).of_dic rfl

/-! ### A flit on a bundle (R14, R23) -/

theorem bridgeFlit_of_not_due {s : State} {b : Nat} {f : BridgeFlit} (h : bundleWorks s b = false ∨ flitDue s b f = false)
    (ok : Bool) : bridgeFlit s b f ok = s := by
  unfold bridgeFlit
  rcases h with h | h <;> simp [h]

/-- A flit that has failed its CRC and waits on its bundle. -/
def flitWaits (s : State) (b : Nat) (f : BridgeFlit) : State :=
  updBridge s (fun g => { g with waiting := notWaiting s b f ++ [{ bundle := b, flit := f, fails := flitFails s b f + 1 }] })

/-- A flit that fails its CRC waits on its bundle, and a send after the first, up to 16, is counted. -/
theorem bridgeFlit_failed {s : State} {b : Nat} {f : BridgeFlit} (hw : bundleWorks s b = true) (hd : flitDue s b f = true) :
    bridgeFlit s b f false
      = if flitFails s b f < 16 then objInc (flitWaits s b f) Obj.bridgeRetries else flitWaits s b f := by
  simp [bridgeFlit, hw, hd, flitWaits]

/-- A flit that has passed waits no more. -/
def flitPassed (s : State) (b : Nat) (f : BridgeFlit) : State := updBridge s (fun g => { g with waiting := notWaiting s b f })

/-- A flit that passes is delivered. -/
theorem bridgeFlit_passed {s : State} {b : Nat} {f : BridgeFlit} (hw : bundleWorks s b = true) (hd : flitDue s b f = true) :
    bridgeFlit s b f true = deliverFlit (flitPassed s b f) f := by
  simp [bridgeFlit, hw, hd, flitPassed]

theorem crossingOf_flitPassed (s : State) (b : Nat) (f : BridgeFlit) (p : Packet) (k : Option Nat) :
    crossingOf (flitPassed s b f) p k = crossingOf s p k := rfl

theorem flitDue_line (s : State) {b : Nat} (h : b < 64) (a : Nat) (d : LineData) : flitDue s b (.line a d) = true := by
  simp [flitDue, groupCarries, h]

theorem flitDue_packet {s : State} {b : Nat} (h : 64 ≤ b) {p : Packet} {k : Option Nat} {x : Crossing}
    (hx : crossingOf s p k = some x) : flitDue s b (.packet p k) = true := by
  simp [flitDue, groupCarries, h, hx]

/-- A line of LPDDR as the other half sent it, before its channel notes the write. -/
def lineStored (s : State) (a : Nat) (d : LineData) : State :=
  { s with lpddr := memStoreMask s.lpddr (a / 64 * 64) fullMask d.bytes, lpddrPoison := nsPut s.lpddrPoison (a / 64) d.poison
           lpddrBad := nsDel s.lpddrBad (a / 64) }

/-- A line that crosses into LPDDR is written whole. -/
theorem deliverFlit_line_lpddr {s : State} {a : Nat} (d : LineData) (h : regionOf s (a / 64 * 64) = .lpddr) :
    deliverFlit s (.line a d) = noteWrite (lineStored s a d) (a / 64) := by
  have hline : a / 64 * 64 / 64 = a / 64 := Nat.mul_div_cancel _ (by decide)
  simp only [deliverFlit, localPut, h, writeLine, if_pos (regionOf_lpddr h), hline, writeLpddrLine_full, lineStored]
  rw [Nat.mul_comm 64]

/-- What a write of an LPDDR line changes (R169, R176). -/
def footLine (s t : State) : State :=
  { s with dic := t.dic, lpddr := t.lpddr, lpddrPoison := t.lpddrPoison, lpddrBad := t.lpddrBad, chans := t.chans }

theorem tileLine_mul {a : Nat} (h : tileBase ≤ a / 64 * 64) : 64 * tileLine (a / 64 * 64) = a / 64 * 64 - tileBase := by
  simp only [tileLine, tileBase] at h ⊢
  omega

/-- A line that crosses into the tile store is written whole. -/
theorem deliverFlit_line_tile {s : State} {a : Nat} (d : LineData) (h : regionOf s (a / 64 * 64) = .tile) :
    deliverFlit s (.line a d)
      = { s with tile := memStoreMask s.tile (a / 64 * 64 - tileBase) fullMask d.bytes
                 tilePoison := nsPut s.tilePoison (tileLine (a / 64 * 64)) d.poison } := by
  have hbase := (regionOf_tile h).1
  have hout : ¬ a / 64 * 64 < lpddrSize := by
    simp only [tileBase, lpddrSize] at hbase ⊢
    omega
  simp only [deliverFlit, localPut, h, writeLine, if_neg hout, writeTileLine_full, tileLine_mul hbase]

/-! ### A bundle retired (R23, R24) -/

theorem retireBundle_of_not_due {s : State} {b : Nat} (h : bundleWorks s b = false ∨ retireDue s b = false) :
    retireBundle s b = s := by
  unfold retireBundle
  rcases h with h | h <;> simp [h]

/-- A bundle's bit set in its map, and its group one bundle smaller. -/
def bundleOut (s : State) (b : Nat) : State :=
  if b < 64 then objPut (objBit s Obj.bridgeRetiredMap b true) Obj.bridgeMemBundles (objGet s Obj.bridgeMemBundles - 1)
  else objPut (objBit s Obj.bridgeRetiredMapHigh (b - 64) true) Obj.bridgeRouterBundles (objGet s Obj.bridgeRouterBundles - 1)

/-- A bundle out of service, its flits moved, and its retirement journalled. -/
def bundleGone (s : State) (b : Nat) : State :=
  journalAlert (objPut (moveFlits (bundleOut s b) b) Obj.bridgeState 1) .bundleRetired [b]

theorem retireBundle_of_due {s : State} {b : Nat} (hw : bundleWorks s b = true) (hd : retireDue s b = true) :
    retireBundle s b
      = if objGet (bundleGone s b) Obj.bridgeMemBundles < 48 ∨ objGet (bundleGone s b) Obj.bridgeRouterBundles < 24 then
          bridgeFails (bundleGone s b)
        else bundleGone s b := by
  have hdue : (!(bundleWorks s b && retireDue s b)) = false := by rw [hw, hd]; rfl
  unfold retireBundle
  rw [hdue]
  rfl

theorem moveFlits_objGet (s : State) (b k : Nat) : objGet (moveFlits s b) k = objGet s k :=
  moveFlits_keeps (objGet · k) (fun _ _ => rfl) s b

/-- The objects of a bundle gone, outside those that its event changes. -/
theorem objGet_bundleGone (s : State) (b k : Nat) (hk : k ∉ Obj.bridgeState :: alertObjs) :
    objGet (bundleGone s b) k = objGet (bundleOut s b) k := by
  simp only [alertObjs, List.mem_cons, List.not_mem_nil, or_false, not_or] at hk
  obtain ⟨hstate, hseq, hdropped, halert⟩ := hk
  unfold bundleGone
  rw [objGet_journalAlert _ _ _ _ hseq hdropped halert, objGet_objPut_ne _ _ _ _ hstate, moveFlits_objGet]

theorem objGet_bundleGone_bridgeState (s : State) (b : Nat) : objGet (bundleGone s b) Obj.bridgeState = 1 := by
  unfold bundleGone
  rw [objGet_journalAlert _ _ _ _ (by decide) (by decide) (by decide), objGet_objPut_self]

theorem bundleOut_mem {b : Nat} (h : b < 64) (s : State) : bundleOut s b
    = objPut (objBit s Obj.bridgeRetiredMap b true) Obj.bridgeMemBundles (objGet s Obj.bridgeMemBundles - 1) := if_pos h

theorem bundleOut_router {b : Nat} (h : 64 ≤ b) (s : State) : bundleOut s b
    = objPut (objBit s Obj.bridgeRetiredMapHigh (b - 64) true) Obj.bridgeRouterBundles (objGet s Obj.bridgeRouterBundles - 1) :=
  if_neg (Nat.not_lt.mpr h)

/-- A bundle's retirement does not touch ModuleState. -/
theorem bundleOut_moduleState (s : State) (b : Nat) : objGet (bundleOut s b) Obj.moduleState = objGet s Obj.moduleState := by
  unfold bundleOut
  split
  · rw [objGet_objPut_ne _ _ _ _ (by decide), objGet_objBit_ne _ _ _ _ _ (by decide)]
  · rw [objGet_objPut_ne _ _ _ _ (by decide), objGet_objBit_ne _ _ _ _ _ (by decide)]

theorem bundleOut_keeps {γ : Type} (vw : State → γ) (hg : ∀ s t, vw (footDic s t) = vw s) (s : State) (b : Nat) :
    vw (bundleOut s b) = vw s := by
  unfold bundleOut
  split
  · rw [objPut_keeps vw hg, objBit_keeps vw hg]
  · rw [objPut_keeps vw hg, objBit_keeps vw hg]

/-- The event of a bundle retired is counted and logged on ALERT_N. -/
theorem counted_bundleGone (s : State) (b : Nat) : Counted s (bundleGone s b) Obj.alertPending 1 := by
  unfold Counted bundleGone
  rw [objGet_journalAlert_pending, objGet_objPut_ne _ _ _ _ (by decide), moveFlits_objGet]
  unfold bundleOut
  split
  · rw [objGet_objPut_ne _ _ _ _ (by decide), objGet_objBit_ne _ _ _ _ _ (by decide)]
  · rw [objGet_objPut_ne _ _ _ _ (by decide), objGet_objBit_ne _ _ _ _ _ (by decide)]

theorem logged_bundleGone (s : State) (b : Nat) : Logged s (bundleGone s b) .bundleRetired [b] true := by
  refine (logged_journalAlert _ _ _).of_view ?_
  rw [objPut_keeps logView (fun _ _ => rfl), moveFlits_keeps logView (fun _ _ => rfl), bundleOut_keeps logView (fun _ _ => rfl)]

theorem sameObjs_bundleGone (s : State) (b : Nat) (ks : List Nat) (h : SameObjs s (bundleOut s b) ks)
    (hk : Obj.bridgeState :: alertObjs ⊆ ks) : SameObjs s (bundleGone s b) ks :=
  fun k hn => (objGet_bundleGone s b k fun hm => hn (hk hm)).trans (h k hn)

/-- Moving flits to another bundle loses none. -/
theorem moveFlits_flits (s : State) (b : Nat) :
    (moveFlits s b).bridge.waiting.map BridgeWait.flit = s.bridge.waiting.map BridgeWait.flit := by
  unfold moveFlits
  split
  · simp only [updBridge, List.map_map]
    refine List.map_congr_left fun x _ => ?_
    simp only [Function.comp]
    split <;> rfl
  · rfl

/-- Of the bridge, moving flits changes only the flits that wait. -/
theorem moveFlits_bridge (s : State) (b : Nat) :
    (moveFlits s b).bridge = { s.bridge with waiting := (moveFlits s b).bridge.waiting } := by
  unfold moveFlits
  split <;> rfl

theorem bundleGone_bridge (s : State) (b : Nat) : (bundleGone s b).bridge = (moveFlits (bundleOut s b) b).bridge :=
  journalAlert_keeps State.bridge (fun _ _ => rfl) _ _ _

/-- A bundle gone changes objects, the flits that wait, and the journal. -/
theorem bundleGone_frame (s : State) (b : Nat) : bundleGone s b
    = { s with dic := (bundleGone s b).dic, bridge := { s.bridge with waiting := (bundleGone s b).bridge.waiting }
               obs := (bundleGone s b).obs } := by
  have frame : bundleGone s b = footDicBridgeObs s (bundleGone s b) := by
    have keeps : ∀ u, footDicBridgeObs (bundleGone u b) (bundleGone s b) = footDicBridgeObs u (bundleGone s b) := by
      intro u
      unfold bundleGone
      rw [journalAlert_keeps (footDicBridgeObs · _) (fun _ _ => rfl), objPut_keeps (footDicBridgeObs · _) (fun _ _ => rfl),
        moveFlits_keeps (footDicBridgeObs · _) (fun _ _ => rfl), bundleOut_keeps (footDicBridgeObs · _) (fun _ _ => rfl)]
    exact keeps s
  have hbridge : (bundleGone s b).bridge = { s.bridge with waiting := (bundleGone s b).bridge.waiting } := by
    rw [bundleGone_bridge, moveFlits_bridge, bundleOut_keeps State.bridge (fun _ _ => rfl)]
  rw [← hbridge]
  exact frame

theorem bundleGone_flits (s : State) (b : Nat) :
    (bundleGone s b).bridge.waiting.map BridgeWait.flit = s.bridge.waiting.map BridgeWait.flit := by
  rw [bundleGone_bridge, moveFlits_flits, bundleOut_keeps State.bridge (fun _ _ => rfl)]

/-- A retired bundle carries nothing. -/
theorem bundleWorks_bundleOut_self {b : Nat} (s : State) : bundleWorks (bundleOut s b) b = false := by
  have hretired : bundleRetired (bundleOut s b) b = true := by
    unfold bundleRetired
    split
    · next h =>
      rw [bundleOut_mem h, objGet_objPut_ne _ _ _ _ (by decide), objGet_objBit_self, if_pos rfl, natBit_setNatBit]
      simp
    · next h =>
      rw [bundleOut_router (Nat.not_lt.mp h), objGet_objPut_ne _ _ _ _ (by decide), objGet_objBit_self, if_pos rfl,
        natBit_setNatBit]
      simp
  simp [bundleWorks, hretired]

/-- Another bundle of the group works as before. -/
theorem bundleWorks_bundleOut_mate {s : State} {b m : Nat} (hm : m ∈ groupMates b) (hne : m ≠ b) :
    bundleWorks (bundleOut s b) m = bundleWorks s m := by
  unfold bundleWorks bridgeUp bundleRetired
  by_cases h : b < 64
  · have hm64 : m < 64 := by simpa [groupMates, h] using hm
    rw [bundleOut_mem h, if_pos hm64, if_pos hm64, objGet_objPut_ne _ _ _ _ (by decide), objGet_objPut_ne _ _ _ _ (by decide),
      objGet_objBit_ne _ _ _ _ _ (by decide), objGet_objBit_self, if_pos rfl, natBit_setNatBit]
    simp [Ne.symm hne]
  · have hm64 : 64 ≤ m := by
      simp only [groupMates, if_neg h, List.mem_map] at hm
      omega
    have hdiff : b - 64 ≠ m - 64 := by omega
    rw [bundleOut_router (Nat.not_lt.mp h), if_neg (Nat.not_lt.mpr hm64), if_neg (Nat.not_lt.mpr hm64),
      objGet_objPut_ne _ _ _ _ (by decide), objGet_objPut_ne _ _ _ _ (by decide), objGet_objBit_ne _ _ _ _ _ (by decide),
      objGet_objBit_self, if_pos rfl, natBit_setNatBit]
    simp [hdiff]

/-- No flit waits on a bundle whose group has another working bundle. -/
theorem bundleGone_empty {s : State} {b m : Nat} (hm : m ∈ groupMates b) (hne : m ≠ b) (hw : bundleWorks s m = true) :
    (bundleGone s b).bridge.waiting.all (fun (x : BridgeWait) => x.bundle != b) = true := by
  rw [bundleGone_bridge]
  unfold moveFlits
  split
  · next n hn =>
    have hnb : n ≠ b := by
      rintro rfl
      exact absurd (bundleWorks_bundleOut_self s) (by rw [List.find?_some hn]; decide)
    simp only [updBridge, List.all_map, List.all_eq_true, Function.comp]
    intro x _
    split
    · simpa using hnb
    · next hx => simpa using hx
  · next hn =>
    rw [List.find?_eq_none] at hn
    exact absurd ((bundleWorks_bundleOut_mate hm hne).trans hw) (hn m hm)

/-! ### The bridge failed (R25) -/

/-- Engines empty of work, as a failed bridge leaves them. -/
def EnginesEmpty (t : State) : Prop :=
  (∀ g ∈ t.engines, g.ctx = []) ∧ (∀ a ∈ t.arrays, a.run = none ∧ a.fifo = []) ∧ t.layers = [] ∧ t.colls = []
    ∧ t.waitClaims = []

theorem enginesEmpty_clearEngines (s : State) : EnginesEmpty (clearEngines s) := by
  refine ⟨fun g hg => ?_, fun a ha => ?_, rfl, rfl, rfl⟩
  · obtain ⟨_, _, rfl⟩ := List.mem_map.mp hg
    rfl
  · obtain ⟨_, _, rfl⟩ := List.mem_map.mp ha
    exact ⟨rfl, rfl⟩

theorem enginesEmpty_haltEngines (s : State) (status : Nat) : EnginesEmpty (haltEngines s status) := by
  unfold haltEngines
  dsimp only
  rw [haltQueues_keeps EnginesEmpty (fun _ _ => rfl)]
  exact enginesEmpty_clearEngines _

/-- A bridge that fails while the module does not run is only marked failed. -/
theorem bridgeFails_of_not_ready {s : State} (h : objGet s Obj.moduleState ≠ 1) :
    bridgeFails s = objPut s Obj.bridgeState 2 := by
  have hr : isReady (objPut s Obj.bridgeState 2) = false := by
    simp [isReady, objGet_objPut_ne _ _ _ _ (show Obj.moduleState ≠ Obj.bridgeState by decide), h]
  simp [bridgeFails, hr]

/-- The bridge's buffers lost, and every bound link Grey with cause 4. -/
def bridgeEmptied (s : State) : State := greyAll (updBridge s (fun g => { g with crossing := [], waiting := [] })) 4

theorem bridgeEmptied_bridge (s : State) : (bridgeEmptied s).bridge = { s.bridge with crossing := [], waiting := [] } :=
  greyAll_keeps State.bridge (fun _ _ => rfl) _ _

/-- A bridge that fails while the module runs: engines halted, the bridge emptied, and the module bridge-failed. -/
theorem bridgeFails_of_ready {s : State} (h : objGet s Obj.moduleState = 1) :
    ∃ u, bridgeFails s = journal (objPut (bridgeEmptied (haltEngines u 5)) Obj.moduleState 2) .bridgeFailed [] := by
  have hr : (!isReady (objPut s Obj.bridgeState 2)) = false := by
    simp [isReady, objGet_objPut_ne _ _ _ _ (show Obj.moduleState ≠ Obj.bridgeState by decide), h]
  unfold bridgeFails
  dsimp only
  rw [hr]
  exact ⟨journal (poisonReads (objPut s Obj.bridgeState 2) (crossesE (objPut s Obj.bridgeState 2)) 0) .outcomeUnknown
    [crossedStores (objPut s Obj.bridgeState 2)], if_neg Bool.false_ne_true⟩

/-- What a failed bridge leaves while the module runs (R25). -/
theorem bridgeFails_empty {s : State} (h : objGet s Obj.moduleState = 1) :
    objGet (bridgeFails s) Obj.moduleState = 2 ∧ EnginesEmpty (bridgeFails s)
      ∧ (bridgeFails s).bridge.crossing = [] ∧ (bridgeFails s).bridge.waiting = [] := by
  obtain ⟨u, hu⟩ := bridgeFails_of_ready h
  have hbridge : (bridgeFails s).bridge = { (haltEngines u 5).bridge with crossing := [], waiting := [] } := by
    rw [hu, journal_keeps State.bridge (fun _ _ => rfl), objPut_keeps State.bridge (fun _ _ => rfl), bridgeEmptied_bridge]
  refine ⟨?_, ?_, by rw [hbridge], by rw [hbridge]⟩
  · rw [hu, objGet_journal _ _ _ _ (by decide) (by decide), objGet_objPut_self]
  · rw [hu, journal_keeps EnginesEmpty (fun _ _ => rfl), objPut_keeps EnginesEmpty (fun _ _ => rfl)]
    unfold bridgeEmptied
    rw [greyAll_keeps EnginesEmpty (fun _ _ => rfl), updBridge_keeps EnginesEmpty (fun _ _ => rfl)]
    exact enginesEmpty_haltEngines _ _

/-! ### Where a packet goes -/

theorem routerOf_putEjected (s : State) (h : Half) (p : Packet) :
    routerOf (putEjected s h p) h = { routerOf s h with ejected := (routerOf s h).ejected ++ [p] } := by
  cases h <;> rfl

theorem routerOf_putEjected_other (s : State) (h : Half) (p : Packet) :
    routerOf (putEjected s h p) (otherHalf h) = routerOf s (otherHalf h) := by
  cases h <;> rfl

/-- A packet taken out of the bridge's buffer. -/
def crossed (s : State) (x : Crossing) : State := updBridge s (fun g => { g with crossing := g.crossing.erase x })

theorem deliverFlit_packet_none {s : State} {p : Packet} {x : Crossing} (hx : crossingOf s p none = some x) :
    deliverFlit s (.packet p none) = putEjected (crossed s x) x.to_ p := by
  simp only [deliverFlit, hx, crossed]

/-- A packet whose link still carries it goes out there. -/
theorem deliverFlit_packet_sent {s : State} {p : Packet} {k : Nat} {x : Crossing} (hx : crossingOf s p (some k) = some x)
    (hb : (linkOf s k).bound = true) (hs : linkState s k ≤ (if p.vc = 0 then 2 else 1)) :
    deliverFlit s (.packet p (some k)) = linkSend (crossed s x) k p := by
  simp only [deliverFlit, hx]
  exact if_pos (Bool.and_eq_true_iff.mpr ⟨hb, decide_eq_true hs⟩)

/-- A packet whose link carries it no more is routed again. -/
theorem deliverFlit_packet_again {s : State} {p : Packet} {k : Nat} {x : Crossing} (hx : crossingOf s p (some k) = some x)
    (h : (linkOf s k).bound = false ∨ (if p.vc = 0 then 2 else 1) < linkState s k) :
    deliverFlit s (.packet p (some k)) = reinject (crossed s x) (linkHalf s k) k [(s.now, p)] := by
  simp only [deliverFlit, hx]
  refine if_neg fun hc => ?_
  obtain ⟨hbound, hstate⟩ := Bool.and_eq_true_iff.mp hc
  rcases h with h | h
  · exact Bool.false_ne_true (h.symm.trans hbound)
  · exact absurd (of_decide_eq_true hstate) (Nat.not_le.mpr h)

/-! ### The obligation -/

theorem exec_bridgeFlitReceive {b : Nat} (h : b < 96) (f : BridgeFlit) (ok : Bool) (s : State) :
    exec (.bridgeFlitReceive b f ok) s = .next (bridgeFlit s b f ok) := need_lt h _

theorem exec_bundleRetire {b : Nat} (h : b < 96) (s : State) : exec (.bundleRetire b) s = .next (retireBundle s b) := need_lt h _

theorem exec_pilotLinkFailure (s : State) : exec .pilotLinkFailure s = .next (pilotFails s) := rfl

/-- A bundle that goes with its group at the threshold or below fails the bridge. -/
theorem retireBundle_fails {s : State} {b : Nat} (hw : bundleWorks s b = true) (hd : retireDue s b = true)
    (hlow : (b < 64 ∧ objGet s Obj.bridgeMemBundles ≤ 48) ∨ (64 ≤ b ∧ b < 96 ∧ objGet s Obj.bridgeRouterBundles ≤ 24)) :
    retireBundle s b = bridgeFails (bundleGone s b) := by
  rw [retireBundle_of_due hw hd, if_pos]
  rcases hlow with ⟨hb, hn⟩ | ⟨hb, -, hn⟩
  · left
    rw [objGet_bundleGone _ _ _ (by decide), bundleOut_mem hb, objGet_objPut_self]
    omega
  · right
    rw [objGet_bundleGone _ _ _ (by decide), bundleOut_router hb, objGet_objPut_self]
    omega

/-- Settles O6: the flit's and the bundle's cases above, each with its frame. -/
theorem bridgeFlitsBundlesAndPilotLink : Obligations.BridgeFlitsBundlesAndPilotLink := by
  unfold Obligations.BridgeFlitsBundlesAndPilotLink
  refine ⟨?crc, ?lineLpddr, ?lineTile, ?packetEject, ?packetLink, ?notDue, ?retireMem, ?retireRouter, ?moved, ?keep, ?fails,
    ?marked, ?pilot, ?pilotKeep, ?train, ?noTrain⟩
  case crc =>
    intro b f s hb hw hd
    rw [exec_bridgeFlitReceive hb, bridgeFlit_failed hw hd]
    refine ⟨_, rfl, ?_⟩
    by_cases hn : flitFails s b f < 16
    · rw [if_pos hn]
      refine ⟨rfl, fun _ => ?_, fun h => absurd hn (Nat.not_lt.mpr h), (SameObjs.refl s _).of_dic rfl |>.objInc _ (by decide)⟩
      exact objGet_objInc_self (flitWaits s b f) Obj.bridgeRetries
    · rw [if_neg hn]
      exact ⟨rfl, fun h => absurd h hn, fun _ => rfl, (SameObjs.refl s _).of_dic rfl⟩
  case lineLpddr =>
    intro b a d s hb hw hlen hreg
    rw [exec_bridgeFlitReceive (by omega), bridgeFlit_passed hw (flitDue_line s hb a d),
      deliverFlit_line_lpddr d (by rwa [regionOf_congr rfl])]
    refine ⟨_, rfl, noteWrite_keeps (footLine · (noteWrite _ _)) (fun _ _ => rfl) _ _, ?_⟩
    rw [noteWrite_keeps State.lpddr (fun _ _ => rfl), noteWrite_keeps State.lpddrPoison (fun _ _ => rfl),
      noteWrite_keeps State.lpddrBad (fun _ _ => rfl)]
    refine ⟨fun i hi => memRead_memStoreMask_full _ _ hlen hi, sameBytesBut_memStoreMask _ _ _ hlen, ?_, ?_, fun l hl => ?_,
      sameObjs_noteWrite _ _⟩
    · exact (nsHas_nsPut _ _ _ _).trans (if_pos rfl)
    · exact (nsHas_nsDel _ _ _).trans (by simp)
    · exact ⟨(nsHas_nsPut _ _ _ _).trans (if_neg (Ne.symm hl)), (nsHas_nsDel _ _ _).trans (by simp [Ne.symm hl]; rfl)⟩
  case lineTile =>
    intro b a d s hb hw hlen hreg
    rw [exec_bridgeFlitReceive (by omega), bridgeFlit_passed hw (flitDue_line s hb a d),
      deliverFlit_line_tile d (by rwa [regionOf_congr rfl])]
    exact ⟨_, rfl, rfl, fun i hi => memRead_memStoreMask_full _ _ hlen hi, sameBytesBut_memStoreMask _ _ _ hlen,
      (nsHas_nsPut _ _ _ _).trans (if_pos rfl),
      fun l hl => (nsHas_nsPut _ _ _ _).trans (if_neg (Ne.symm hl))⟩
  case packetEject =>
    intro b p x s hb hb' hw hx
    rw [exec_bridgeFlitReceive hb', bridgeFlit_passed hw (flitDue_packet hb hx), deliverFlit_packet_none (x := x) (by rwa [crossingOf_flitPassed])]
    exact ⟨_, rfl, putEjected_keeps (footRouterWRouterE · (putEjected _ _ _)) (fun _ _ => rfl) _ _ _,
      routerOf_putEjected _ _ _, routerOf_putEjected_other _ _ _⟩
  case packetLink =>
    intro b k p x s u hb hb' hw hx hu
    rw [exec_bridgeFlitReceive hb', bridgeFlit_passed hw (flitDue_packet hb hx), hu]
    rw [← crossingOf_flitPassed s b (.packet p (some k))] at hx
    exact ⟨fun hbound hstate => congrArg _ (deliverFlit_packet_sent hx hbound hstate),
      fun h => congrArg _ (deliverFlit_packet_again hx h)⟩
  case notDue =>
    intro b f ok s hb h
    rw [exec_bridgeFlitReceive hb, bridgeFlit_of_not_due h]
  case retireMem =>
    intro b s hb hw hd hmem hrouter
    rw [exec_bundleRetire (by omega), retireBundle_of_due hw hd, if_neg]
    · refine ⟨_, rfl, bundleGone_frame s b, ?_, ?_, objGet_bundleGone_bridgeState s b, counted_bundleGone s b,
        bundleGone_flits s b, ?_, logged_bundleGone s b⟩
      · rw [objGet_bundleGone _ _ _ (by decide), bundleOut_mem hb, objGet_objPut_ne _ _ _ _ (by decide), objGet_objBit_self,
          if_pos rfl]
      · rw [objGet_bundleGone _ _ _ (by decide), bundleOut_mem hb, objGet_objPut_self]
      · refine sameObjs_bundleGone s b _ ?_ (by decide)
        rw [bundleOut_mem hb]
        exact ((SameObjs.refl s _).objBit _ _ _ (by decide)).objPut _ _ (by decide)
    · rw [objGet_bundleGone _ _ _ (by decide), objGet_bundleGone _ _ _ (by decide), bundleOut_mem hb, objGet_objPut_self,
        objGet_objPut_ne _ _ _ _ (by decide), objGet_objBit_ne _ _ _ _ _ (by decide)]
      omega
  case retireRouter =>
    intro b s hb hb' hw hd hmem hrouter
    rw [exec_bundleRetire hb', retireBundle_of_due hw hd, if_neg]
    · refine ⟨_, rfl, bundleGone_frame s b, ?_, ?_, objGet_bundleGone_bridgeState s b, counted_bundleGone s b,
        bundleGone_flits s b, ?_, logged_bundleGone s b⟩
      · rw [objGet_bundleGone _ _ _ (by decide), bundleOut_router hb, objGet_objPut_ne _ _ _ _ (by decide), objGet_objBit_self,
          if_pos rfl]
      · rw [objGet_bundleGone _ _ _ (by decide), bundleOut_router hb, objGet_objPut_self]
      · refine sameObjs_bundleGone s b _ ?_ (by decide)
        rw [bundleOut_router hb]
        exact ((SameObjs.refl s _).objBit _ _ _ (by decide)).objPut _ _ (by decide)
    · rw [objGet_bundleGone _ _ _ (by decide), objGet_bundleGone _ _ _ (by decide), bundleOut_router hb, objGet_objPut_self,
        objGet_objPut_ne _ _ _ _ (by decide), objGet_objBit_ne _ _ _ _ _ (by decide)]
      omega
  case moved =>
    intro b m s t hb hd hw hm hne hmw ht
    rw [exec_bundleRetire hb, retireBundle_of_due hw hd] at ht
    cases ht
    split
    · by_cases hready : objGet (bundleGone s b) Obj.moduleState = 1
      · rw [(bridgeFails_empty hready).2.2.2]
        rfl
      · rw [bridgeFails_of_not_ready hready]
        exact bundleGone_empty hm hne hmw
    · exact bundleGone_empty hm hne hmw
  case keep =>
    intro b s hb h
    rw [exec_bundleRetire hb, retireBundle_of_not_due h]
  case fails =>
    intro b s hready hw hd hlow
    have hgone : objGet (bundleGone s b) Obj.moduleState = 1 := by
      rw [objGet_bundleGone _ _ _ (by decide), bundleOut_moduleState, hready]
    obtain ⟨hstate, ⟨hctx, hrun, hlayers, hcolls, hclaims⟩, hcrossing, hwaiting⟩ := bridgeFails_empty hgone
    have hmgmt := retireBundle_keeps State.mgmt (fun _ _ => rfl) s b
    have hpower := retireBundle_keeps State.power (fun _ _ => rfl) s b
    have hsync := retireBundle_keeps State.sync (fun _ _ => rfl) s b
    rw [retireBundle_fails hw hd hlow] at hmgmt hpower hsync
    rw [exec_bundleRetire (by omega), retireBundle_fails hw hd hlow]
    exact ⟨_, rfl, hstate, hctx, hrun, hlayers, hcolls, hclaims, hcrossing, hwaiting, hmgmt, hpower, hsync⟩
  case marked =>
    intro b s hready hw hd hlow
    have hgone : objGet (bundleGone s b) Obj.moduleState = objGet s Obj.moduleState := by
      rw [objGet_bundleGone _ _ _ (by decide), bundleOut_moduleState]
    rw [exec_bundleRetire (by omega), retireBundle_fails hw hd hlow, bridgeFails_of_not_ready (by rwa [hgone])]
    refine ⟨_, rfl, ?_, objGet_objPut_self _ _ _, (objGet_objPut_ne _ _ _ _ (by decide)).trans hgone⟩
    exact congrArg (fun u => objPut u Obj.bridgeState 2) (bundleGone_frame s b)
  case pilot =>
    intro s h
    rw [exec_pilotLinkFailure, pilotFails, if_pos h]
    refine ⟨_, rfl, journalAlert_keeps (footDicObs · (journalAlert _ _ _)) (fun _ _ => rfl) _ _ _, ?_, ?_, ?_, ?_⟩
    · rw [objGet_journalAlert _ _ _ _ (by decide) (by decide) (by decide), objGet_objPut_self]
    · unfold Counted
      rw [objGet_journalAlert_pending, objGet_objPut_ne _ _ _ _ (by decide)]
    · exact ((SameObjs.refl s _).objPut _ _ (by decide)).journalAlert _ _ (by decide)
    · exact (logged_journalAlert (objPut s Obj.pilotState 2) _ _).of_view rfl
  case pilotKeep =>
    intro s h
    rw [exec_pilotLinkFailure, pilotFails, if_neg h]
  case train =>
    intro s hrun hpilot h2 h5
    refine ⟨⟨objPut s Obj.pilotState 1, congrArg Host.Outcome.next (if_pos ⟨hrun, hpilot, h2, h5, rfl⟩), rfl,
      objGet_objPut_self _ _ _, (SameObjs.refl s _).objPut _ _ (by decide)⟩, congrArg Host.Outcome.next (if_neg ?_)⟩
    rintro ⟨-, -, -, -, h⟩
    cases h
  case noTrain =>
    intro b s h
    refine congrArg Host.Outcome.next (if_neg ?_)
    rintro ⟨hrun, hpilot, h2, h5, -⟩
    rcases h with h | h | h | h
    · exact Bool.false_ne_true (h.symm.trans hrun)
    · exact h hpilot
    · omega
    · omega

end Sys2Proof.Machine

/-!
Supplies and heat: what settling the voltages does to each sub-domain and to the objects that report them.
-/

namespace Sys2Proof.Machine

/-! ### One element of a list changed -/

theorem getD_modifyAt {α : Type} (l : List α) (i j : Nat) (f : α → α) (d : α) :
    (modifyAt l i f).getD j d = if i = j ∧ j < l.length then f (l.getD j d) else l.getD j d := by
  unfold modifyAt
  by_cases hj : j < l.length
  · by_cases hij : i = j <;> simp [List.getD, hj, hij]
  · simp [List.getD, hj]

/-! ### Sub-domains and sites -/

theorem domAt_updDom (s : State) (d e : Nat) (f : Dom → Dom) :
    domAt (updDom s d f) e = if d = e ∧ e < s.power.doms.length then f (domAt s e) else domAt s e :=
  getD_modifyAt _ _ _ _ _

theorem siteAt_updSite (s : State) (n m : Nat) (f : Site → Site) :
    siteAt (updSite s n f) m = if n = m ∧ m < s.power.sites.length then f (siteAt s m) else siteAt s m :=
  getD_modifyAt _ _ _ _ _

theorem domAt_of_le (s : State) {d : Nat} (h : s.power.doms.length ≤ d) : domAt s d = {} := by
  simp [domAt, List.getD, List.getElem?_eq_none h]

/-- What the ceilings and ThermalState depend on. -/
def heatView (s : State) : Bool × Bool × Bool × List (Bool × Option (Nat × Nat × Nat)) :=
  (s.power.pale, s.power.hwFloor, s.power.black, s.power.doms.map (fun x => (x.red, x.amber)))

theorem domHeat_congr {s t : State} (h : heatView s = heatView t) (d : Nat) :
    (domAt s d).red = (domAt t d).red ∧ (domAt s d).amber = (domAt t d).amber := by
  have key (u : State) : ((domAt u d).red, (domAt u d).amber) = (heatView u).2.2.2.getD d (false, none) := by
    simp only [domAt, heatView, List.getD, List.getElem?_map]
    cases u.power.doms[d]? <;> rfl
  have hst := (key s).trans ((congrArg (fun v => v.2.2.2.getD d (false, none)) h).trans (key t).symm)
  exact ⟨congrArg Prod.fst hst, congrArg Prod.snd hst⟩

theorem ceilingOf_congr {s t : State} (h : heatView s = heatView t) (d : Nat) : ceilingOf s d = ceilingOf t d := by
  obtain ⟨hred, hamber⟩ := domHeat_congr h d
  simp only [heatView, Prod.mk.injEq] at h
  obtain ⟨hpale, hfloor, -, -⟩ := h
  simp only [ceilingOf, hpale, hfloor, hred, hamber]

theorem thermalNow_congr {s t : State} (h : heatView s = heatView t) : thermalNow s = thermalNow t := by
  have key (u : State) : thermalNow u = if u.power.black then 3
      else if (heatView u).2.2.2.any (fun p => p.1) then 2 else if (heatView u).2.2.2.any (fun p => p.2.isSome) then 1 else 0 := by
    simp only [thermalNow, heatView, List.any_map]
    rfl
  rw [key s, key t, h]
  simp only [heatView, Prod.mk.injEq] at h
  rw [h.2.2.1]

/-- A sub-domain whose setpoint falls to its ceiling. -/
def lowered (x : Dom) (c : Nat) : Dom := { x with setpoint := min x.setpoint c }

/-- The setpoint of one sub-domain settled. -/
def settleDom (s : State) (d : Nat) : State := updDom s d (fun x => { x with setpoint := min x.setpoint (ceilingOf s d) })

theorem domAt_settleDom (s : State) (d e : Nat) :
    domAt (settleDom s d) e = if d = e then lowered (domAt s e) (ceilingOf s e) else domAt s e := by
  refine (domAt_updDom _ _ _ _).trans ?_
  by_cases hde : d = e
  · subst hde
    by_cases hd : d < s.power.doms.length
    · simp [hd, lowered]
    · simp [hd, lowered, domAt_of_le s (Nat.le_of_not_lt hd)]
  · simp [hde]

theorem heatView_updDom (s : State) (d : Nat) (f : Dom → Dom) (hf : ∀ x, (f x).red = x.red ∧ (f x).amber = x.amber) :
    heatView (updDom s d f) = heatView s := by
  have key : (modifyAt s.power.doms d f).map (fun x => (x.red, x.amber)) = s.power.doms.map (fun x => (x.red, x.amber)) := by
    refine List.ext_getElem (by simp [modifyAt]) fun i h1 h2 => ?_
    simp only [modifyAt, List.getElem_map, List.getElem_modify]
    by_cases hi : d = i <;> simp [hi, hf]
  simp only [heatView, updDom, updPower, key]

theorem heatView_settleDoms (s : State) (l : List Nat) : heatView (l.foldl settleDom s) = heatView s :=
  foldlState heatView settleDom (fun u d => heatView_updDom u d _ fun _ => ⟨rfl, rfl⟩) _ _

theorem domAt_settleDoms (s : State) (n e : Nat) :
    domAt ((List.range n).foldl settleDom s) e = if e < n then lowered (domAt s e) (ceilingOf s e) else domAt s e := by
  induction n with
  | zero => rfl
  | succ n ih =>
    rw [List.range_succ, List.foldl_append, List.foldl_cons, List.foldl_nil, domAt_settleDom, ih,
      ceilingOf_congr (heatView_settleDoms s _) e]
    by_cases hen : e = n
    · simp [hen]
    · have h1 : ¬ n = e := fun h => hen h.symm
      have h2 : e < n + 1 ↔ e < n := by omega
      simp [h1, h2]

/-! ### The voltages settled -/

/-- The objects of R349 and R358 report. -/
def showVolts (s : State) : State :=
  objPut ((List.range 8).foldl (fun s d => objPut s (Obj.domainVoltageMv + d) (voltage s d)) s) Obj.thermalState (thermalNow s)

theorem showFold_power (s : State) (l : List Nat) :
    (l.foldl (fun s d => objPut s (Obj.domainVoltageMv + d) (voltage s d)) s).power = s.power :=
  foldlState State.power _ (fun u _ => objPut_keeps State.power (fun _ _ => rfl) u _ _) _ _

theorem voltage_of_power {s t : State} (h : s.power = t.power) (d : Nat) : voltage s d = voltage t d := by
  simp only [voltage, ceilingOf, domAt, h]
  rfl

theorem thermalNow_of_power {s t : State} (h : s.power = t.power) : thermalNow s = thermalNow t := by
  simp only [thermalNow, h]

theorem settleVolts_eq (s : State) : settleVolts s = showVolts ((List.range 8).foldl settleDom s) := rfl

theorem showVolts_power (s : State) : (showVolts s).power = s.power := by
  refine (objPut_keeps State.power (fun _ _ => rfl) _ _ _).trans ?_
  exact showFold_power _ _

theorem domAt_settleVolts (s : State) (d : Nat) :
    domAt (settleVolts s) d = if d < 8 then lowered (domAt s d) (ceilingOf s d) else domAt s d := by
  rw [settleVolts_eq, ← domAt_settleDoms]
  exact congrArg (fun p : Power => p.doms.getD d {}) (showVolts_power _)

theorem heatView_settleVolts (s : State) : heatView (settleVolts s) = heatView s := by
  rw [settleVolts_eq, ← heatView_settleDoms s (List.range 8)]
  simp only [heatView, showVolts_power]

/-- The supplies without the sub-domains. -/
def bareSupplies (s : State) : Power := { s.power with doms := [] }

theorem power_of_bare {s t : State} (h : bareSupplies t = bareSupplies s) : t.power = { s.power with doms := t.power.doms } :=
  (congrArg (fun p : Power => { p with doms := t.power.doms }) h)

theorem settleVolts_bare (s : State) : bareSupplies (settleVolts s) = bareSupplies s := by
  rw [settleVolts_eq]
  refine (congrArg (fun p : Power => { p with doms := [] }) (showVolts_power _)).trans ?_
  exact foldlState bareSupplies settleDom (fun _ _ => rfl) _ _

theorem settleVolts_power (s : State) :
    (settleVolts s).power = { s.power with doms := (settleVolts s).power.doms } :=
  power_of_bare (settleVolts_bare s)

theorem objGet_showFold (s : State) (n d : Nat) (hd : d < n) :
    objGet ((List.range n).foldl (fun s d => objPut s (Obj.domainVoltageMv + d) (voltage s d)) s) (Obj.domainVoltageMv + d)
      = voltage s d := by
  induction n with
  | zero => exact absurd hd (Nat.not_lt_zero _)
  | succ n ih =>
    rw [List.range_succ, List.foldl_append, List.foldl_cons, List.foldl_nil]
    by_cases hdn : d = n
    · subst hdn
      rw [objGet_objPut_self]
      exact voltage_of_power (showFold_power _ _) d
    · rw [objGet_objPut_ne _ _ _ _ (by omega)]
      exact ih (by omega)

theorem voltObjs_mem {d : Nat} (hd : d < 8) : Obj.domainVoltageMv + d ∈ voltObjs :=
  List.mem_cons_of_mem _ (List.mem_map_of_mem (List.mem_range.mpr hd))

theorem sameObjs_showVolts (s : State) : SameObjs s (showVolts s) voltObjs := by
  refine SameObjs.objPut ?_ _ _ List.mem_cons_self
  suffices h : ∀ l : List Nat, (∀ d ∈ l, d < 8) → ∀ t, SameObjs s t voltObjs →
      SameObjs s (l.foldl (fun s d => objPut s (Obj.domainVoltageMv + d) (voltage s d)) t) voltObjs from
    h _ (fun d hd => List.mem_range.mp hd) _ (SameObjs.refl _ _)
  intro l
  induction l with
  | nil => exact fun _ _ h => h
  | cons d l ih =>
    exact fun hl t h => ih (fun e he => hl e (List.mem_cons_of_mem _ he)) _ (h.objPut _ _ (voltObjs_mem (hl d List.mem_cons_self)))

theorem sameObjs_settleVolts (s : State) : SameObjs s (settleVolts s) voltObjs := by
  rw [settleVolts_eq]
  refine fun k hk => (sameObjs_showVolts _ k hk).trans ?_
  exact foldlState (objGet · k) settleDom (fun u d => updDom_keeps (objGet · k) (fun _ _ => rfl) u d _) _ _

theorem voltsShown_settleVolts (s : State) : VoltsShown (settleVolts s) := by
  refine ⟨fun d hd => ⟨?_, ?_⟩, ?_⟩
  · rw [domAt_settleVolts, if_pos hd, ceilingOf_congr (heatView_settleVolts s) d]
    exact Nat.min_le_right _ _
  · rw [settleVolts_eq, voltage_of_power (showVolts_power _) d, showVolts,
      objGet_objPut_ne _ _ _ _ (by simp only [Obj.domainVoltageMv, Obj.thermalState]; omega)]
    exact objGet_showFold _ 8 d hd
  · rw [settleVolts_eq, thermalNow_of_power (showVolts_power _), showVolts, objGet_objPut_self]

theorem footDicPower_settleVolts (s : State) : settleVolts s = { s with dic := (settleVolts s).dic, power := (settleVolts s).power } :=
  settleVolts_keeps (footDicPower · (settleVolts s)) (fun _ _ => rfl) s

theorem setpoint_settleVolts (s : State) {d : Nat} (hd : d < 8) :
    (domAt (settleVolts s) d).setpoint = min (domAt s d).setpoint (ceilingOf s d) := by
  rw [domAt_settleVolts, if_pos hd]
  rfl

/-! ### A ceiling that rose -/

/-- The time from which core 1 raises the setpoint of a sub-domain. -/
def timeDom (s : State) (d : Nat) : State := updDom s d (fun x => { x with last := s.now })

theorem ceilingRose_eq (s : State) (ds : List Nat) : ceilingRose s ds = settleVolts (ds.foldl timeDom s) := rfl

theorem timeDoms_now (s : State) (ds : List Nat) : (ds.foldl timeDom s).now = s.now :=
  foldlState State.now timeDom (fun _ _ => rfl) _ _

theorem timeDoms_length (s : State) (ds : List Nat) : (ds.foldl timeDom s).power.doms.length = s.power.doms.length :=
  foldlState (fun s => s.power.doms.length) timeDom (fun _ _ => List.length_modify _ _ _) _ _

theorem domAt_timeDoms (s : State) (ds : List Nat) (e : Nat) :
    domAt (ds.foldl timeDom s) e
      = if e ∈ ds ∧ e < s.power.doms.length then { domAt s e with last := s.now } else domAt s e := by
  induction ds generalizing s with
  | nil => simp
  | cons d ds ih =>
    rw [List.foldl_cons, ih]
    have hl : (timeDom s d).power.doms.length = s.power.doms.length := List.length_modify _ _ _
    have hd : domAt (timeDom s d) e = if d = e ∧ e < s.power.doms.length then { domAt s e with last := s.now } else domAt s e :=
      domAt_updDom _ _ _ _
    rw [hl, hd]
    have hn : (timeDom s d).now = s.now := rfl
    rw [hn]
    by_cases he : e < s.power.doms.length
    · by_cases hde : d = e
      · simp [he, hde]
      · simp [he, hde, Ne.symm hde]
    · simp [he]

theorem heatView_timeDoms (s : State) (ds : List Nat) : heatView (ds.foldl timeDom s) = heatView s :=
  foldlState heatView timeDom (fun u d => heatView_updDom u d _ fun _ => ⟨rfl, rfl⟩) _ _

theorem ceilingRose_bare (s : State) (ds : List Nat) : bareSupplies (ceilingRose s ds) = bareSupplies s :=
  (settleVolts_bare _).trans (foldlState bareSupplies timeDom (fun _ _ => rfl) _ _)

theorem heatView_ceilingRose (s : State) (ds : List Nat) : heatView (ceilingRose s ds) = heatView s :=
  (heatView_settleVolts _).trans (heatView_timeDoms s ds)

theorem voltsShown_ceilingRose (s : State) (ds : List Nat) : VoltsShown (ceilingRose s ds) := voltsShown_settleVolts _

theorem sameObjs_ceilingRose (s : State) (ds : List Nat) : SameObjs s (ceilingRose s ds) voltObjs :=
  fun k hk => (sameObjs_settleVolts _ k hk).trans
    (foldlState (objGet · k) timeDom (fun u d => updDom_keeps (objGet · k) (fun _ _ => rfl) u d _) _ _)

theorem last_ceilingRose (s : State) (ds : List Nat) {e : Nat} (he : e < 8) (hd : e ∈ ds) (hl : e < s.power.doms.length) :
    (domAt (ceilingRose s ds) e).last = s.now := by
  rw [ceilingRose_eq, domAt_settleVolts, if_pos he, domAt_timeDoms, if_pos ⟨hd, hl⟩]
  rfl

/-! ### A reading of the main input -/

theorem supplyNoted_noteSupply (s : State) (mv : Int) : SupplyNoted s (noteSupply s mv) mv.toNat := by
  refine ⟨?_, objGet_objPut_self _ _ _⟩
  exact (objGet_objPut_ne _ _ _ _ (by decide)).trans (objGet_objPut_self _ _ _)

theorem sameObjs_noteSupply (s : State) (mv : Int) : SameObjs s (noteSupply s mv) supplyObjs :=
  ((SameObjs.refl s _).objPut _ _ (by decide)).objPut _ _ (by decide)

/-- A reading stays noted while its objects stay. -/
theorem supplyNoted_of_same {s t u : State} {mv : Nat} (h : SupplyNoted s t mv)
    (h1 : objGet u Obj.supplyVoltageMv = objGet t Obj.supplyVoltageMv)
    (h2 : objGet u Obj.supplyMinMv = objGet t Obj.supplyMinMv) : SupplyNoted s u mv :=
  ⟨h1.trans h.1, h2.trans h.2⟩

end Sys2Proof.Machine

/-!
What a reset of the dies and the loss of the main domains leave, and the supply dips, supply resets and AUX losses (O52).
-/

namespace Sys2Proof.Machine

/-! ### Resets -/

/-- An object set in one case only keeps what does not depend on the objects. -/
theorem ite_objPut_keeps {γ : Type} (vw : State → γ) (hg : ∀ s t, vw (footDic s t) = vw s) (b : Bool) (s : State) (k v : Nat) :
    vw (if b then objPut s k v else s) = vw s := by
  cases b
  · rfl
  · exact objPut_keeps vw hg s k v

theorem ite_keeps_objPut {γ : Type} (vw : State → γ) (hg : ∀ s t, vw (footDic s t) = vw s) (b : Bool) (s : State) (k v : Nat) :
    vw (if b then s else objPut s k v) = vw s := by
  cases b
  · exact objPut_keeps vw hg s k v
  · rfl

/-- The memories, the queues, and what a restart keeps. -/
def resetView (s : State) : (Mem × Mem) × (SMap Queue × SMap Nat × List Nat)
    × (Power × Seqs) × (Nat × Nat) × (List JEntry × Nat) :=
  ((s.tile, s.lpddr), (s.queues, s.flash, s.persist), (s.power, s.seqs), (s.now, s.coldAt), (s.obs.jring, s.obs.bootCount))

theorem resetView_dropSnaps (s : State) : resetView (dropSnaps s) = resetView s := by
  unfold dropSnaps
  dsimp only
  split <;> rfl

theorem resetView_dieReset (s : State) (cold : Bool) :
    resetView (dieReset s cold) = (([], if cold then [] else s.lpddr), ([], s.flash, s.persist),
      (s.power, { s.seqs with ckptStep := 0, halfE := false }), (s.now, s.coldAt), (s.obs.jring, s.obs.bootCount)) := by
  unfold dieReset
  simp only [applyRestart_keeps resetView (fun _ _ => rfl), objPut_keeps resetView (fun _ _ => rfl),
    freeStep_keeps resetView (fun _ _ => rfl), ite_objPut_keeps resetView (fun _ _ => rfl),
    ite_keeps_objPut resetView (fun _ _ => rfl)]
  have h := resetView_dropSnaps s
  simp only [resetView, Prod.mk.injEq] at h ⊢
  simp only [h, and_true]
  exact ⟨rfl, rfl⟩

theorem resetView_mainOff (s : State) :
    resetView (mainOff s) = (([], []), ([], s.flash, []), ({ s.power with doms := List.replicate 8 {} },
      { s.seqs with trialFails := if s.seqs.trial then s.seqs.trialFails + 1 else s.seqs.trialFails, trial := false,
                    ckptStep := 0, halfE := false }), (s.now, s.coldAt), (s.obs.jring, s.obs.bootCount)) := by
  have hrails (u : State) : resetView (railsOff u) = ((resetView u).1, (resetView u).2.1,
      ({ (resetView u).2.2.1.1 with doms := List.replicate 8 {} }, (resetView u).2.2.1.2), (resetView u).2.2.2) := rfl
  unfold mainOff
  rw [hrails, resetView_dieReset]
  simp only [revertPersist_keeps State.flash (fun _ _ => rfl), revertPersist_keeps State.power (fun _ _ => rfl),
    revertPersist_keeps State.seqs (fun _ _ => rfl), revertPersist_keeps State.now (fun _ _ => rfl),
    revertPersist_keeps State.coldAt (fun _ _ => rfl), revertPersist_keeps State.obs (fun _ _ => rfl)]
  rfl

theorem footDicPower_self (s : State) : footDicPower s s = s := rfl

/-! ### Pale -/

/-- Pale begins: a reading is noted, and every ceiling falls to the floor. -/
def paleBegun (s : State) (mv : Nat) : State :=
  settleVolts (updPower (noteSupply s mv) (fun p => { p with pale := true, paleSince := s.now, paleLow := s.now, paleTold := false }))

theorem paleEnter_enters (mv : Nat) (s : State) (hon : s.power.on = true) (hmv : 36000 ≤ mv) (hp : s.power.pale = false)
    (hm : s.power.mainOk = true) (hb : s.power.black = false) (hlow : mv < 42000) :
    exec (.paleEnter mv) s = .next (paleBegun s mv) :=
  congrArg Host.Outcome.next (if_pos ⟨hon, hm, by simp [hp], by simp [hb], hlow, hmv⟩)

theorem noteSupply_power (s : State) (mv : Int) : (noteSupply s mv).power = s.power :=
  noteSupply_keeps State.power (fun _ _ => rfl) s mv

theorem paleBegun_power (s : State) (mv : Nat) : (paleBegun s mv).power =
    { s.power with pale := true, paleSince := s.now, paleLow := s.now, paleTold := false, doms := (paleBegun s mv).power.doms } := by
  refine (settleVolts_power _).trans ?_
  simp only [updPower, noteSupply_power]
  rfl

theorem setpoint_paleBegun (s : State) (mv : Nat) {d : Nat} (hd : d < 8) :
    (domAt (paleBegun s mv) d).setpoint = min (domAt s d).setpoint 550 := by
  refine (setpoint_settleVolts _ hd).trans ?_
  have hdom : domAt (updPower (noteSupply s mv)
      (fun p => { p with pale := true, paleSince := s.now, paleLow := s.now, paleTold := false })) d = domAt s d := by
    simp only [domAt, updPower, noteSupply_power]
  rw [hdom]
  rfl

theorem sameObjs_paleBegun (s : State) (mv : Nat) : SameObjs s (paleBegun s mv) (supplyObjs ++ voltObjs) := by
  have h := (sameObjs_noteSupply s mv).mono (List.subset_append_left supplyObjs voltObjs)
  exact (h.of_dic (u := updPower (noteSupply s mv) _) rfl).trans ((sameObjs_settleVolts _).mono (List.subset_append_right _ _))

theorem supplyObjs_voltObjs {k : Nat} (h : k ∈ supplyObjs) : k ∉ voltObjs := by
  revert k; decide

theorem supplyNoted_paleBegun (s : State) (mv : Nat) : SupplyNoted s (paleBegun s mv) mv :=
  supplyNoted_of_same (supplyNoted_noteSupply s mv) (sameObjs_settleVolts _ _ (by decide)) (sameObjs_settleVolts _ _ (by decide))

theorem frame_paleBegun (s : State) (mv : Nat) :
    paleBegun s mv = { s with dic := (paleBegun s mv).dic, power := (paleBegun s mv).power } := by
  have key (vw : State → State) (hg : ∀ s t, vw (footDicPower s t) = vw s) : vw (paleBegun s mv) = vw s :=
    (settleVolts_keeps vw hg _).trans ((updPower_keeps vw (fun s t => hg s (footPower s t)) _ _).trans
      (noteSupply_keeps vw (fun s t => hg s (footDic s t)) s mv))
  exact (footDicPower_self (paleBegun s mv)).symm.trans (key (footDicPower · (paleBegun s mv)) fun _ _ => rfl)

/-- A further reading in Pale. -/
def paleRead (s : State) (mv : Nat) : State :=
  updPower (noteSupply s mv) (fun p => { p with paleLow := if mv ≤ 44000 then s.now else p.paleLow })

theorem paleEnter_reads (mv : Nat) (s : State) (hon : s.power.on = true) (hmv : 36000 ≤ mv) (hp : s.power.pale = true) :
    exec (.paleEnter mv) s = .next (paleRead s mv) :=
  congrArg Host.Outcome.next ((if_neg (by simp [hp])).trans (if_pos ⟨hon, hp, hmv⟩))

theorem paleEnter_idle (mv : Nat) (s : State)
    (h : s.power.on = false ∨ mv < 36000
      ∨ s.power.pale = false ∧ (s.power.mainOk = false ∨ s.power.black = true ∨ 42000 ≤ mv)) :
    exec (.paleEnter mv) s = .next s := by
  refine congrArg Host.Outcome.next ((if_neg ?_).trans (if_neg ?_))
  · rintro ⟨hon, hm, hp, hb, hlow, hmv⟩
    rcases h with h | h | ⟨-, h | h | h⟩
    · simp_all
    · omega
    · simp_all
    · simp_all
    · omega
  · rintro ⟨hon, hp, hmv⟩
    rcases h with h | h | ⟨h, -⟩
    · simp_all
    · omega
    · simp_all

theorem paleRead_frame (s : State) (mv : Nat) : paleRead s mv
    = { s with dic := (paleRead s mv).dic, power := { s.power with paleLow := if mv ≤ 44000 then s.now else s.power.paleLow } } := by
  have h := noteSupply_keeps (footDic · (noteSupply s mv)) (fun _ _ => rfl) s mv
  have h' : noteSupply s mv = { s with dic := (noteSupply s mv).dic } := h
  unfold paleRead
  rw [h']
  rfl

/-- Pale over: the reading noted, the period counted, and the ceilings free again. -/
def paleOver (s : State) (mv : Nat) : State := endPale (noteSupply s mv)

/-- The counters of a period in Pale that is over. -/
def paleCounted (s : State) : State :=
  objMax (objInc s Obj.paleEvents) Obj.paleLongestMs (ceilDiv (s.now - s.power.paleSince) 1000000)

theorem endPale_eq (s : State) :
    endPale s = ceilingRose (updPower (paleCounted s) (fun p => { p with pale := false, paleTold := false })) (List.range 8) := rfl

theorem paleCounted_keeps {γ : Type} (vw : State → γ) (hg : ∀ s t, vw (footDic s t) = vw s) (s : State) :
    vw (paleCounted s) = vw s :=
  (objMax_keeps vw hg _ _ _).trans (objInc_keeps vw hg _ _)

theorem paleExit_ends (mv : Nat) (s : State) (hp : s.power.pale = true) (hmv : 44000 < mv) (ht : s.power.paleLow + ms 2 ≤ s.now) :
    exec (.paleExit mv) s = .next (if s.seqs.coldPending = true then coldStart (paleOver s mv) 4 else paleOver s mv) := by
  refine congrArg Host.Outcome.next ((if_pos ⟨hp, hmv, ht⟩).trans ?_)
  have h : (paleOver s mv).seqs = s.seqs := (endPale_keeps State.seqs (fun _ _ => rfl) _).trans
    (noteSupply_keeps State.seqs (fun _ _ => rfl) _ _)
  rw [← h]
  rfl

theorem paleExit_idle (mv : Nat) (s : State) (h : s.power.pale = false ∨ mv ≤ 44000 ∨ s.now < s.power.paleLow + ms 2) :
    exec (.paleExit mv) s = .next s := by
  refine congrArg Host.Outcome.next (if_neg ?_)
  rintro ⟨hp, hmv, ht⟩
  rcases h with h | h | h
  · simp_all
  · omega
  · omega

theorem paleOver_frame (s : State) (mv : Nat) : paleOver s mv = { s with dic := (paleOver s mv).dic, power := (paleOver s mv).power } := by
  have key (vw : State → State) (hg : ∀ s t, vw (footDicPower s t) = vw s) : vw (paleOver s mv) = vw s :=
    (endPale_keeps vw hg _).trans (noteSupply_keeps vw (fun s t => hg s (footDic s t)) s mv)
  exact (footDicPower_self (paleOver s mv)).symm.trans (key (footDicPower · (paleOver s mv)) fun _ _ => rfl)

theorem bare_updPower (s : State) (f : Power → Power) : bareSupplies (updPower s f) = { f s.power with doms := [] } := rfl

theorem paleOver_power (s : State) (mv : Nat) :
    (paleOver s mv).power = { s.power with pale := false, paleTold := false, doms := (paleOver s mv).power.doms } := by
  have h : bareSupplies (paleOver s mv) = { s.power with pale := false, paleTold := false, doms := [] } := by
    rw [paleOver, endPale_eq, ceilingRose_bare, bare_updPower, paleCounted_keeps State.power (fun _ _ => rfl), noteSupply_power]
  exact congrArg (fun p : Power => { p with doms := (paleOver s mv).power.doms }) h

theorem paleOver_last (s : State) (mv d : Nat) (hd : d < 8) (hl : d < s.power.doms.length) :
    (domAt (paleOver s mv) d).last = s.now := by
  have hp : (paleCounted (noteSupply s mv)).power = s.power :=
    (paleCounted_keeps State.power (fun _ _ => rfl) _).trans (noteSupply_power s mv)
  have hn : (paleCounted (noteSupply s mv)).now = s.now :=
    (paleCounted_keeps State.now (fun _ _ => rfl) _).trans (noteSupply_keeps State.now (fun _ _ => rfl) s mv)
  rw [paleOver, endPale_eq]
  refine (last_ceilingRose _ _ hd (List.mem_range.mpr hd) ?_).trans hn
  exact (congrArg (fun p : Power => p.doms.length) hp) ▸ hl

theorem objGet_paleOver (s : State) (mv k : Nat) (hk : k ∉ voltObjs) :
    objGet (paleOver s mv) k = objGet (paleCounted (noteSupply s mv)) k :=
  sameObjs_ceilingRose _ _ k hk

theorem paleOver_objs (s : State) (mv : Nat) :
    SupplyNoted s (paleOver s mv) mv ∧ Counted s (paleOver s mv) Obj.paleEvents 1
      ∧ objGet (paleOver s mv) Obj.paleLongestMs = max (objGet s Obj.paleLongestMs) (ceilDiv (s.now - s.power.paleSince) 1000000)
      ∧ SameObjs s (paleOver s mv) ([Obj.paleEvents, Obj.paleLongestMs] ++ supplyObjs ++ voltObjs) := by
  have hn := sameObjs_noteSupply s mv
  have hc : SameObjs (noteSupply s mv) (paleCounted (noteSupply s mv)) [Obj.paleEvents, Obj.paleLongestMs] :=
    ((SameObjs.refl _ _).objInc _ (by decide)).objMax _ _ (by decide)
  refine ⟨supplyNoted_of_same (supplyNoted_noteSupply s mv) ?_ ?_, ?_, ?_, ?_⟩
  · exact (objGet_paleOver _ _ _ (by decide)).trans (hc _ (by decide))
  · exact (objGet_paleOver _ _ _ (by decide)).trans (hc _ (by decide))
  · refine (objGet_paleOver _ _ _ (by decide)).trans ((objGet_objPut_ne _ _ _ _ (by decide)).trans ?_)
    refine (objGet_objPut_self _ _ _).trans ?_
    rw [hn _ (by decide)]
  · refine (objGet_paleOver _ _ _ (by decide)).trans ((objGet_objPut_self _ _ _).trans ?_)
    have h1 : objGet (objInc (noteSupply s mv) Obj.paleEvents) Obj.paleLongestMs = objGet s Obj.paleLongestMs :=
      (objGet_objPut_ne _ _ _ _ (by decide)).trans (hn _ (by decide))
    have h2 : (noteSupply s mv).now = s.now := noteSupply_keeps State.now (fun _ _ => rfl) s mv
    rw [h1, noteSupply_power, h2]
  · have hu : SameObjs s (paleCounted (noteSupply s mv)) ([Obj.paleEvents, Obj.paleLongestMs] ++ supplyObjs ++ voltObjs) :=
      (hn.mono (by decide)).trans (hc.mono (by decide))
    exact (hu.of_dic (u := updPower (paleCounted (noteSupply s mv)) _) rfl).trans ((sameObjs_ceilingRose _ _).mono (by decide))

/-! ### Ten seconds in Pale -/

theorem paleLong_idle (s : State)
    (h : s.power.pale = false ∨ s.power.paleTold = true ∨ s.now < s.power.paleSince + ms 10000) : exec .paleLong s = .next s := by
  refine congrArg Host.Outcome.next (if_neg ?_)
  rintro ⟨hp, htold, ht⟩
  rcases h with h | h | h
  · simp_all
  · simp_all
  · omega

/-- The supervisor's notice of a long Pale. -/
def paleTold (s : State) : State :=
  updPower (journalAlert s .paleLong [s.now - s.power.paleSince]) (fun p => { p with paleTold := true })

theorem paleLong_tells (s : State) (hp : s.power.pale = true) (htold : s.power.paleTold = false)
    (ht : s.power.paleSince + ms 10000 ≤ s.now) : exec .paleLong s = .next (paleTold s) :=
  congrArg Host.Outcome.next (if_pos ⟨hp, by simp [htold], ht⟩)

theorem frame_journalAlert (s : State) (e : JEvent) (as : List Nat) :
    journalAlert s e as = { s with dic := (journalAlert s e as).dic, obs := (journalAlert s e as).obs } :=
  journalAlert_keeps (footDicObs · (journalAlert s e as)) (fun _ _ => rfl) s e as

theorem paleTold_frame (s : State) :
    paleTold s = { s with dic := (paleTold s).dic, power := { s.power with paleTold := true }, obs := (paleTold s).obs } := by
  unfold paleTold
  rw [frame_journalAlert s .paleLong [s.now - s.power.paleSince]]
  rfl

/-! ### Supply resets -/

/-- A reading outside the operating range noted, and a reversed input told. -/
def supplyRead (s : State) (mv : Int) : State :=
  let t := objPut (noteSupply s mv) Obj.mainInputState (inputState mv)
  if inputState mv = 2 ∧ objGet s Obj.mainInputState ≠ 2 then journalAlert t .mainReversed [1, 2] else t

/-- A supply reset counted and journalled. -/
def resetNoted (s : State) (mv : Int) : State :=
  journal (objInc (supplyRead s mv) Obj.supplyResets) .supplyReset [codeOf 32 mv]

theorem supplyRead_keeps {γ : Type} (vw : State → γ) (hg : ∀ s t, vw (footDicObs s t) = vw s) (s : State) (mv : Int) :
    vw (supplyRead s mv) = vw s := by
  have hb : vw (objPut (noteSupply s mv) Obj.mainInputState (inputState mv)) = vw s :=
    (objPut_keeps vw (fun s t => hg s (footDic s t)) _ _ _).trans (noteSupply_keeps vw (fun s t => hg s (footDic s t)) _ _)
  simp only [supplyRead]
  split
  · exact (journalAlert_keeps vw hg _ _ _).trans hb
  · exact hb

theorem resetNoted_keeps {γ : Type} (vw : State → γ) (hg : ∀ s t, vw (footDicObs s t) = vw s) (s : State) (mv : Int) :
    vw (resetNoted s mv) = vw s :=
  (journal_keeps vw hg _ _ _).trans ((objInc_keeps vw (fun s t => hg s (footDic s t)) _ _).trans (supplyRead_keeps vw hg s mv))

/-- The objects of a reading, before anything is told. -/
theorem sameObjs_inputRead (s : State) (mv : Int) :
    SameObjs s (objPut (noteSupply s mv) Obj.mainInputState (inputState mv)) (Obj.mainInputState :: supplyObjs ++ alertObjs) :=
  ((sameObjs_noteSupply s mv).mono (by decide)).objPut _ _ (by decide)

theorem sameObjs_supplyRead (s : State) (mv : Int) :
    SameObjs s (supplyRead s mv) (Obj.mainInputState :: supplyObjs ++ alertObjs) := by
  simp only [supplyRead]
  split
  · exact (sameObjs_inputRead s mv).journalAlert _ _ (by decide)
  · exact sameObjs_inputRead s mv

/-- A notice of a reversed input leaves the reading's own objects. -/
theorem objGet_supplyRead (s : State) (mv : Int) (k : Nat) (hk : k ∉ alertObjs) :
    objGet (supplyRead s mv) k = objGet (objPut (noteSupply s mv) Obj.mainInputState (inputState mv)) k := by
  simp only [supplyRead]
  split
  · exact ((SameObjs.refl _ _).journalAlert _ _ (fun _ h => h)) k hk
  · rfl

theorem supplyRead_state (s : State) (mv : Int) : objGet (supplyRead s mv) Obj.mainInputState = inputState mv :=
  (objGet_supplyRead _ _ _ (by decide)).trans (objGet_objPut_self _ _ _)

theorem supplyNoted_supplyRead (s : State) (mv : Int) : SupplyNoted s (supplyRead s mv) mv.toNat :=
  supplyNoted_of_same (supplyNoted_noteSupply s mv)
    ((objGet_supplyRead s mv Obj.supplyVoltageMv (by decide)).trans (objGet_objPut_ne _ _ _ _ (by decide)))
    ((objGet_supplyRead s mv Obj.supplyMinMv (by decide)).trans (objGet_objPut_ne _ _ _ _ (by decide)))

theorem logView_inputRead (s : State) (mv : Int) : logView (objPut (noteSupply s mv) Obj.mainInputState (inputState mv)) = logView s :=
  (objPut_keeps logView (fun _ _ => rfl) _ _ _).trans (noteSupply_keeps logView (fun _ _ => rfl) s mv)

theorem logged_supplyRead (s : State) (mv : Int) (h : inputState mv = 2) (h' : objGet s Obj.mainInputState ≠ 2) :
    Logged s (supplyRead s mv) .mainReversed [1, 2] true := by
  simp only [supplyRead, if_pos (And.intro h h')]
  exact (logged_journalAlert _ _ _).of_view (logView_inputRead s mv)

theorem logged_resetNoted (s : State) (mv : Int) (h : inputState mv ≠ 2 ∨ objGet s Obj.mainInputState = 2) :
    Logged s (resetNoted s mv) .supplyReset [codeOf 32 mv] false := by
  have hn : ¬ (inputState mv = 2 ∧ objGet s Obj.mainInputState ≠ 2) := fun hc => h.elim (fun h => h hc.1) (fun h => hc.2 h)
  have hr : supplyRead s mv = objPut (noteSupply s mv) Obj.mainInputState (inputState mv) := if_neg hn
  refine (logged_journal _ _ _).of_view ?_
  rw [hr]
  exact (objInc_keeps logView (fun _ _ => rfl) _ _).trans (logView_inputRead s mv)

theorem objGet_resetNoted (s : State) (mv : Int) (k : Nat) (hk : k ∉ journalObjs) (hk' : k ≠ Obj.supplyResets) :
    objGet (resetNoted s mv) k = objGet (supplyRead s mv) k :=
  ((SameObjs.refl _ _).journal _ _ (fun _ h => h) k hk).trans (objGet_objPut_ne _ _ _ _ hk')

theorem resetNoted_objs (s : State) (mv : Int) :
    objGet (resetNoted s mv) Obj.mainInputState = inputState mv ∧ SupplyNoted s (resetNoted s mv) mv.toNat
      ∧ Counted s (resetNoted s mv) Obj.supplyResets 1
      ∧ SameObjs s (resetNoted s mv) ([Obj.mainInputState, Obj.supplyResets] ++ supplyObjs ++ alertObjs) := by
  have hr := sameObjs_supplyRead s mv
  refine ⟨(objGet_resetNoted _ _ _ (by decide) (by decide)).trans (supplyRead_state s mv),
    supplyNoted_of_same (supplyNoted_supplyRead s mv) (objGet_resetNoted _ _ _ (by decide) (by decide))
      (objGet_resetNoted _ _ _ (by decide) (by decide)), ?_, ?_⟩
  · have hc : objGet (resetNoted s mv) Obj.supplyResets = objGet (objInc (supplyRead s mv) Obj.supplyResets) Obj.supplyResets :=
      (SameObjs.refl _ _).journal _ _ (fun _ h => h) _ (by decide)
    refine hc.trans ((objGet_objPut_self _ _ _).trans ?_)
    rw [hr _ (by decide)]
  · exact ((hr.mono (by decide)).objInc _ (by decide)).journal _ _ (by decide)

/-- The supplies of a module on AUX that waits for its main input. -/
def inputLost (s : State) : State := updPower s (fun p => { p with mainOk := false, intermediate := false, pale := false })

/-- The state a supply reset starts from: counted, and on AUX with the main input lost. -/
def resetFrom (s : State) (mv : Int) : State := if s.power.aux = true then inputLost (resetNoted s mv) else resetNoted s mv

theorem supplyReset_idle (mv : Int) (s : State) (h : s.power.on = false ∨ (36000 ≤ mv ∧ mv ≤ 62000)) :
    exec (.supplyReset mv) s = .next s := by
  refine congrArg Host.Outcome.next (if_neg ?_)
  rintro ⟨hon, hmv⟩
  rcases h with h | h
  · simp_all
  · omega

theorem exec_supplyReset (mv : Int) (s : State) (hon : s.power.on = true) (hmv : mv < 36000 ∨ 62000 < mv) :
    exec (.supplyReset mv) s = .next (if (supplyRead s mv).power.mainOk ∨ (supplyRead s mv).power.intermediate
      then supplyDown (resetNoted s mv) else supplyRead s mv) :=
  congrArg Host.Outcome.next (if_pos ⟨hon, hmv⟩)

theorem supplyRead_power (s : State) (mv : Int) : (supplyRead s mv).power = s.power :=
  supplyRead_keeps State.power (fun _ _ => rfl) s mv

theorem resetNoted_power (s : State) (mv : Int) : (resetNoted s mv).power = s.power :=
  resetNoted_keeps State.power (fun _ _ => rfl) s mv

theorem footDicObs_self (s : State) : footDicObs s s = s := rfl

theorem supplyRead_frame (s : State) (mv : Int) :
    supplyRead s mv = { s with dic := (supplyRead s mv).dic, obs := (supplyRead s mv).obs } :=
  (footDicObs_self (supplyRead s mv)).symm.trans (supplyRead_keeps (footDicObs · (supplyRead s mv)) (fun _ _ => rfl) s mv)

theorem resetNoted_frame (s : State) (mv : Int) :
    resetNoted s mv = { s with dic := (resetNoted s mv).dic, obs := (resetNoted s mv).obs } :=
  (footDicObs_self (resetNoted s mv)).symm.trans (resetNoted_keeps (footDicObs · (resetNoted s mv)) (fun _ _ => rfl) s mv)

theorem resetFrom_dic (s : State) (mv : Int) : (resetFrom s mv).dic = (resetNoted s mv).dic := by
  unfold resetFrom
  split <;> rfl

theorem resetFrom_obs (s : State) (mv : Int) : (resetFrom s mv).obs = (resetNoted s mv).obs := by
  unfold resetFrom
  split <;> rfl

theorem resetFrom_frame (s : State) (mv : Int) :
    resetFrom s mv = { s with dic := (resetFrom s mv).dic, power := if s.power.aux = true then
      { s.power with mainOk := false, intermediate := false, pale := false } else s.power, obs := (resetFrom s mv).obs } := by
  rw [resetFrom_dic, resetFrom_obs]
  unfold resetFrom
  rw [resetNoted_frame s mv]
  split <;> rfl

/-- What a supply reset leaves of the state it starts from. -/
theorem supplyReset_resets (mv : Int) (s : State) (hon : s.power.on = true) (hmv : mv < 36000 ∨ 62000 < mv)
    (hin : s.power.mainOk = true ∨ s.power.intermediate = true) :
    (s.power.aux = false → exec (.supplyReset mv) s = .next (unpower (resetFrom s mv)))
    ∧ (s.power.aux = true → s.power.black = true → exec (.supplyReset mv) s = .next (resetFrom s mv))
    ∧ (s.power.aux = true → s.power.black = false → exec (.supplyReset mv) s = .next (coldStart (resetFrom s mv) 2)) := by
  rw [exec_supplyReset mv s hon hmv, supplyRead_power, if_pos hin]
  unfold supplyDown resetFrom
  rw [resetNoted_power]
  refine ⟨fun ha => ?_, fun ha hb => ?_, fun ha hb => ?_⟩
  · simp only [ha, if_true, if_neg Bool.false_ne_true]
  · simp only [ha, hb, if_true, Bool.true_eq_false, if_false]
    rfl
  · simp only [ha, hb, if_true, Bool.true_eq_false, if_false, Bool.false_eq_true]
    rfl

/-! ### AUX -/

/-- AUX gone while the intermediate bus carries the island. -/
def auxGone (s : State) : State :=
  journalAlert (objPut (updPower s (fun p => { p with aux := false })) Obj.auxState 1) .auxLost []

theorem auxLoss_told (s : State) (hon : s.power.on = true) (ha : s.power.aux = true) (hi : s.power.intermediate = true) :
    exec .auxLoss s = .next (auxGone s) :=
  congrArg Host.Outcome.next ((if_pos ⟨hon, ha⟩).trans (if_pos hi))

theorem auxLoss_dead (s : State) (hon : s.power.on = true) (ha : s.power.aux = true) (hi : s.power.intermediate = false) :
    exec .auxLoss s = .next (unpower { s with power := { s.power with aux := false } }) :=
  congrArg Host.Outcome.next ((if_pos ⟨hon, ha⟩).trans (if_neg (by simp [updPower, hi])))

theorem auxLoss_idle (s : State) (h : s.power.on = false ∨ s.power.aux = false) : exec .auxLoss s = .next s := by
  refine congrArg Host.Outcome.next (if_neg ?_)
  rintro ⟨hon, ha⟩
  simp_all

theorem auxGone_frame (s : State) :
    auxGone s = { s with dic := (auxGone s).dic, power := { s.power with aux := false }, obs := (auxGone s).obs } := by
  unfold auxGone
  rw [frame_journalAlert]
  rfl

theorem auxGone_objs (s : State) : objGet (auxGone s) Obj.auxState = 1 ∧ SameObjs s (auxGone s) (Obj.auxState :: alertObjs)
    ∧ Logged s (auxGone s) .auxLost [] true := by
  have hput : SameObjs s (objPut (updPower s (fun p => { p with aux := false })) Obj.auxState 1) (Obj.auxState :: alertObjs) :=
    ((SameObjs.refl s _).of_dic (u := updPower s _) rfl).objPut _ _ (by decide)
  refine ⟨?_, hput.journalAlert _ _ (by decide), (logged_journalAlert _ _ _).of_view rfl⟩
  exact (objGet_journalAlert _ _ _ _ (by decide) (by decide) (by decide)).trans (objGet_objPut_self _ _ _)

theorem unpower_leaves (s : State) :
    (unpower s).power = {} ∧ (unpower s).lpddr = [] ∧ (unpower s).tile = [] ∧ (unpower s).queues = [] ∧ (unpower s).persist = []
      ∧ (unpower s).flash = s.flash ∧ (unpower s).mgmt = {}
      ∧ (unpower s).obs = { jring := s.obs.jring, bootCount := s.obs.bootCount } := by
  have h := resetView_mainOff s
  simp only [resetView, Prod.mk.injEq] at h
  obtain ⟨⟨htile, hlpddr⟩, ⟨hqueues, hflash, hpersist⟩, -, -, hring, hboot⟩ := h
  refine ⟨rfl, hlpddr, htile, hqueues, hpersist, hflash, rfl, ?_⟩
  have hobs : (unpower s).obs = { jring := (mainOff s).obs.jring, bootCount := (mainOff s).obs.bootCount } := rfl
  rw [hobs, hring, hboot]

/-! ### The obligation -/

/-- Settles O52: each command's update of the supplies, the objects it reports and the restart it begins. -/
theorem supplyDipsAndResets : Obligations.SupplyDipsAndResets := by
  unfold Obligations.SupplyDipsAndResets
  refine ⟨fun mv s hon hmv => ⟨fun hp hm hb hlow => ?_, fun hp => ?_, fun hp h => paleEnter_idle mv s (.inr (.inr ⟨hp, h⟩))⟩,
    fun mv s h => paleEnter_idle mv s (h.imp_right .inl), fun mv s => ⟨fun hp hmv ht => ?_, paleExit_idle mv s⟩,
    fun s => ⟨fun hp htold ht => ?_, paleLong_idle s⟩, fun mv s => ⟨supplyReset_idle mv s, fun hon hmv hm hi => ?_,
    fun hon hmv hin => ?_⟩, fun s => ⟨fun hon ha hi => ?_, auxLoss_dead s, auxLoss_idle s, _, rfl, unpower_leaves s⟩⟩
  · exact ⟨_, paleEnter_enters mv s hon hmv hp hm hb hlow, frame_paleBegun s mv, paleBegun_power s mv, supplyNoted_paleBegun s mv,
      voltsShown_settleVolts _, fun d hd => setpoint_paleBegun s mv hd, sameObjs_paleBegun s mv⟩
  · exact ⟨_, paleEnter_reads mv s hon hmv hp, paleRead_frame s mv, supplyNoted_noteSupply s mv,
      (sameObjs_noteSupply s mv).of_dic rfl⟩
  · obtain ⟨hnoted, hcounted, hlongest, hsame⟩ := paleOver_objs s mv
    exact ⟨_, paleExit_ends mv s hp hmv ht, paleOver_frame s mv, paleOver_power s mv, hnoted, voltsShown_ceilingRose _ _,
      paleOver_last s mv, hcounted, hlongest, hsame⟩
  · exact ⟨_, paleLong_tells s hp htold ht, paleTold_frame s, ((SameObjs.refl s _).journalAlert _ _ (by decide)).of_dic rfl,
      (logged_journalAlert _ _ _).of_obs rfl⟩
  · refine ⟨supplyRead s mv, ?_, supplyRead_frame s mv, supplyRead_state s mv, supplyNoted_supplyRead s mv,
      sameObjs_supplyRead s mv, logged_supplyRead s mv⟩
    rw [exec_supplyReset mv s hon hmv, supplyRead_power, if_neg (by simp [hm, hi])]
  · obtain ⟨hstate, hnoted, hcounted, hsame⟩ := resetNoted_objs s mv
    have hd := resetFrom_dic s mv
    exact ⟨resetFrom s mv, resetFrom_frame s mv, (objGet_congr _ _ _ hd).trans hstate,
      supplyNoted_of_same hnoted (objGet_congr _ _ _ hd) (objGet_congr _ _ _ hd), (objGet_congr _ _ _ hd).trans hcounted,
      hsame.of_dic hd, fun h => (logged_resetNoted s mv h).of_obs (resetFrom_obs s mv), supplyReset_resets mv s hon hmv hin⟩
  · exact ⟨_, auxLoss_told s hon ha hi, auxGone_frame s, auxGone_objs s⟩

end Sys2Proof.Machine

/-!
Converters, setpoints and the hold-up bank (O53).
-/

namespace Sys2Proof.Machine

/-! ### The floor of hardware -/

/-- Hardware sets every ceiling to the floor. -/
def floored (s : State) : State := settleVolts (updPower s (fun p => { p with hwFloor := true }))

theorem floored_frame (s : State) : floored s = { s with dic := (floored s).dic, power := (floored s).power } :=
  (footDicPower_self (floored s)).symm.trans
    ((settleVolts_keeps (footDicPower · (floored s)) (fun _ _ => rfl) _).trans
      (updPower_keeps (footDicPower · (floored s)) (fun _ _ => rfl) _ _))

theorem floored_power (s : State) : (floored s).power = { s.power with hwFloor := true, doms := (floored s).power.doms } :=
  settleVolts_power _

theorem sameObjs_floored (s : State) : SameObjs s (floored s) voltObjs :=
  ((SameObjs.refl s _).of_dic (u := updPower s _) rfl).trans (sameObjs_settleVolts _)

theorem setpoint_floored (s : State) {d : Nat} (hd : d < 8) :
    (domAt (floored s) d).setpoint = min (domAt s d).setpoint 550 := by
  refine (setpoint_settleVolts _ hd).trans ?_
  have hc : ceilingOf (updPower s (fun p => { p with hwFloor := true })) d = 550 := if_pos (by simp [updPower])
  rw [hc]
  rfl

/-! ### Converters -/

/-- A converter that stopped, told. -/
def converterLost (s : State) (c : Nat) : State := journalAlert (objBit s Obj.convertersOk c false) .converterLost [c]

theorem exec_converterFault (c : Nat) (s : State) (hc : c < 8) (hon : s.power.on = true)
    (hb : natBit c (objGet s Obj.convertersOk) = true) :
    exec (.converterFault c) s
      = .next (if convertersOn (converterLost s c) ≤ 5 then floored (converterLost s c) else converterLost s c) :=
  (need_lt hc _).trans (congrArg Host.Outcome.next (if_pos ⟨hon, hb⟩))

theorem converterFault_idle (c : Nat) (s : State) (hc : c < 8)
    (h : s.power.on = false ∨ natBit c (objGet s Obj.convertersOk) = false) : exec (.converterFault c) s = .next s := by
  refine (need_lt hc _).trans (congrArg Host.Outcome.next (if_neg ?_))
  rintro ⟨hon, hb⟩
  simp_all

theorem converterLost_keeps {γ : Type} (vw : State → γ) (hg : ∀ s t, vw (footDicObs s t) = vw s) (s : State) (c : Nat) :
    vw (converterLost s c) = vw s :=
  (journalAlert_keeps vw hg _ _ _).trans (objBit_keeps vw (fun s t => hg s (footDic s t)) _ _ _ _)

theorem converterLost_frame (s : State) (c : Nat) :
    converterLost s c = { s with dic := (converterLost s c).dic, obs := (converterLost s c).obs } :=
  (footDicObs_self (converterLost s c)).symm.trans (converterLost_keeps (footDicObs · (converterLost s c)) (fun _ _ => rfl) s c)

theorem converterLost_objs (s : State) (c : Nat) :
    objGet (converterLost s c) Obj.convertersOk = clearNatBit c (objGet s Obj.convertersOk)
      ∧ Logged s (converterLost s c) .converterLost [c] true ∧ SameObjs s (converterLost s c) (Obj.convertersOk :: alertObjs) := by
  refine ⟨?_, (logged_journalAlert _ _ _).of_view rfl,
    ((SameObjs.refl _ _).objBit _ _ _ (by decide)).journalAlert _ _ (by decide)⟩
  exact (objGet_journalAlert _ _ _ _ (by decide) (by decide) (by decide)).trans (objGet_objPut_self _ _ _)

theorem convertersOn_floored (s : State) : convertersOn (floored s) = convertersOn s := by
  simp only [convertersOn, sameObjs_floored s Obj.convertersOk (by decide)]

theorem frame_floored_lost (s : State) (c : Nat) : floored (converterLost s c) = { s with
    dic := (floored (converterLost s c)).dic, power := (floored (converterLost s c)).power,
    obs := (floored (converterLost s c)).obs } := by
  have hobs : (floored (converterLost s c)).obs = (converterLost s c).obs := settleVolts_keeps State.obs (fun _ _ => rfl) _
  have hf := floored_frame (converterLost s c)
  generalize floored (converterLost s c) = t at *
  rw [converterLost_frame s c] at hf
  rw [hobs]
  exact hf

theorem converterFault_faults (c : Nat) (s : State) (hc : c < 8) (hon : s.power.on = true)
    (hb : natBit c (objGet s Obj.convertersOk) = true) :
    ∃ t, exec (.converterFault c) s = .next t ∧ t = { s with dic := t.dic, power := t.power, obs := t.obs }
      ∧ objGet t Obj.convertersOk = clearNatBit c (objGet s Obj.convertersOk) ∧ Logged s t .converterLost [c] true
      ∧ (5 < convertersOn t → t.power = s.power ∧ SameObjs s t (Obj.convertersOk :: alertObjs))
      ∧ (convertersOn t ≤ 5 → t.power = { s.power with hwFloor := true, doms := t.power.doms } ∧ VoltsShown t
        ∧ SameObjs s t (Obj.convertersOk :: alertObjs ++ voltObjs)) := by
  obtain ⟨hbit, hlog, hsame⟩ := converterLost_objs s c
  have hp : (converterLost s c).power = s.power := converterLost_keeps State.power (fun _ _ => rfl) s c
  refine ⟨_, exec_converterFault c s hc hon hb, ?_⟩
  by_cases h5 : convertersOn (converterLost s c) ≤ 5
  · rw [if_pos h5]
    refine ⟨?_, (sameObjs_floored _ _ (by decide)).trans hbit, hlog.of_obs (settleVolts_keeps State.obs (fun _ _ => rfl) _),
      fun h => absurd h ?_, fun _ => ⟨?_, voltsShown_settleVolts _, ?_⟩⟩
    · exact frame_floored_lost s c
    · rw [convertersOn_floored]
      omega
    · rw [← hp]
      exact floored_power _
    · exact (hsame.mono (List.subset_append_left _ _)).trans ((sameObjs_floored _).mono (List.subset_append_right _ _))
  · rw [if_neg h5]
    exact ⟨(converterLost_frame s c).trans (by rw [hp]), hbit, hlog, fun _ => ⟨hp, hsame⟩, fun h => absurd h h5⟩

/-! ### The limit of input power -/

theorem powerLimitOverrun_floors (s : State) (hon : s.power.on = true) (hc : convertersOn s = 6 ∨ convertersOn s = 7)
    (hl : lasted s.now s.power.overSince (ms 1) = true) : exec .powerLimitOverrun s = .next (floored s) :=
  congrArg Host.Outcome.next (if_pos ⟨hon, by omega, by omega, hl⟩)

theorem powerLimitOverrun_idle (s : State) (h : s.power.on = false ∨ convertersOn s < 6 ∨ 7 < convertersOn s
      ∨ lasted s.now s.power.overSince (ms 1) = false) : exec .powerLimitOverrun s = .next s := by
  refine congrArg Host.Outcome.next (if_neg ?_)
  rintro ⟨hon, h6, h7, hl⟩
  rcases h with h | h | h | h
  · simp_all
  · omega
  · omega
  · simp_all

/-- The floor lifted. -/
def unfloored (s : State) : State := ceilingRose (updPower s (fun p => { p with hwFloor := false })) (List.range 8)

theorem powerLimitRecover_lifts (s : State) (hf : s.power.hwFloor = true) (h6 : 6 ≤ convertersOn s)
    (hl : lasted s.now s.power.underSince (ms 10) = true) : exec .powerLimitRecover s = .next (unfloored s) :=
  congrArg Host.Outcome.next (if_pos ⟨hf, h6, hl⟩)

theorem powerLimitRecover_idle (s : State) (h : s.power.hwFloor = false ∨ convertersOn s < 6
      ∨ lasted s.now s.power.underSince (ms 10) = false) : exec .powerLimitRecover s = .next s := by
  refine congrArg Host.Outcome.next (if_neg ?_)
  rintro ⟨hf, h6, hl⟩
  rcases h with h | h | h
  · simp_all
  · omega
  · simp_all

theorem unfloored_frame (s : State) : unfloored s = { s with dic := (unfloored s).dic, power := (unfloored s).power } :=
  (footDicPower_self (unfloored s)).symm.trans
    ((ceilingRose_keeps (footDicPower · (unfloored s)) (fun _ _ => rfl) _ _).trans
      (updPower_keeps (footDicPower · (unfloored s)) (fun _ _ => rfl) _ _))

theorem unfloored_power (s : State) :
    (unfloored s).power = { s.power with hwFloor := false, doms := (unfloored s).power.doms } :=
  power_of_bare (ceilingRose_bare (updPower s (fun p => { p with hwFloor := false })) _)

theorem sameObjs_unfloored (s : State) : SameObjs s (unfloored s) voltObjs :=
  ((SameObjs.refl s _).of_dic (u := updPower s _) rfl).trans (sameObjs_ceilingRose _ _)

/-! ### Setpoints -/

/-- A setpoint after one adjustment: by the limit, the target and the time of the last one (R349, R350). -/
def stepped (above : Bool) (target now : Nat) (x : Dom) : Dom :=
  if x.setpoint = 0 then x
  else if above then (if x.last + us 100 ≤ now then { x with setpoint := max floorMv (x.setpoint - 5), last := now } else x)
  else if target < x.setpoint then { x with setpoint := target, last := now }
  else if x.setpoint < target ∧ x.last + us 250 ≤ now then { x with setpoint := min target (x.setpoint + 5), last := now }
  else x

/-- Whether input power lies above its limit. -/
def overLimit (s : State) : Bool := decide (powerLimit s < objGet s Obj.inputPowerW)

/-- The voltage core 1 brings a sub-domain to. -/
def targetOf (s : State) (h : Half) (d : Nat) : Nat := min (if mayBoost s h then topMv else defaultMv) (ceilingOf s d)

theorem stepDom_eq (h : Half) (s : State) (d : Nat) : stepDom h s d
    = if (domAt s d).setpoint = 0 then s
      else if powerLimit s < objGet s Obj.inputPowerW then
        if (domAt s d).last + us 100 ≤ s.now then
          updDom s d (fun x => { x with setpoint := max floorMv (x.setpoint - 5), last := s.now }) else s
      else if targetOf s h d < (domAt s d).setpoint then
        updDom s d (fun x => { x with setpoint := targetOf s h d, last := s.now })
      else if (domAt s d).setpoint < targetOf s h d ∧ (domAt s d).last + us 250 ≤ s.now then
        updDom s d (fun x => { x with setpoint := min (targetOf s h d) (x.setpoint + 5), last := s.now })
      else s := rfl

theorem domAt_stepDom (h : Half) (s : State) (d e : Nat) (hl : d < s.power.doms.length) :
    domAt (stepDom h s d) e = if d = e then stepped (overLimit s) (targetOf s h e) s.now (domAt s e) else domAt s e := by
  have hu (f : Dom → Dom) : domAt (updDom s d f) e = if d = e then f (domAt s e) else domAt s e := by
    rw [domAt_updDom]
    by_cases hde : d = e
    · subst hde; simp [hl]
    · simp [hde]
  by_cases hde : d = e
  · subst hde
    simp only [if_true] at hu ⊢
    simp only [stepDom_eq, stepped, overLimit, decide_eq_true_eq]
    split
    · rfl
    · split
      · split
        · exact hu _
        · rfl
      · split
        · exact hu _
        · split
          · exact hu _
          · rfl
  · simp only [if_neg hde] at hu ⊢
    rw [stepDom_eq]
    split
    · rfl
    · split
      · split
        · exact hu _
        · rfl
      · split
        · exact hu _
        · split
          · exact hu _
          · rfl

/-- What an adjustment reads besides its own sub-domain. -/
def stepView (h : Half) (s : State) : Bool × Bool × Nat × (Bool × Bool × Bool × List (Bool × Option (Nat × Nat × Nat))) × Nat :=
  (mayBoost s h, overLimit s, s.now, heatView s, s.power.doms.length)

theorem stepView_updDom (h : Half) (s : State) (d : Nat) (f : Dom → Dom) (hf : ∀ x, (f x).red = x.red ∧ (f x).amber = x.amber) :
    stepView h (updDom s d f) = stepView h s := by
  have hlen : (updDom s d f).power.doms.length = s.power.doms.length := List.length_modify _ _ _
  have hb : mayBoost (updDom s d f) h = mayBoost s h := rfl
  have ho : overLimit (updDom s d f) = overLimit s := rfl
  have hn : (updDom s d f).now = s.now := rfl
  simp only [stepView, hlen, hb, ho, hn, heatView_updDom s d f hf]

theorem stepDom_cases {p : State → Prop} (h : Half) (s : State) (d : Nat) (h0 : p s)
    (hu : ∀ f : Dom → Dom, (∀ x, (f x).red = x.red ∧ (f x).amber = x.amber) → p (updDom s d f)) : p (stepDom h s d) := by
  rw [stepDom_eq]
  split
  · exact h0
  · split
    · split
      · exact hu _ fun _ => ⟨rfl, rfl⟩
      · exact h0
    · split
      · exact hu _ fun _ => ⟨rfl, rfl⟩
      · split
        · exact hu _ fun _ => ⟨rfl, rfl⟩
        · exact h0

theorem stepView_stepDom (h h' : Half) (s : State) (d : Nat) : stepView h (stepDom h' s d) = stepView h s :=
  stepDom_cases (p := fun u => stepView h u = stepView h s) h' s d rfl fun f hf => stepView_updDom h s d f hf

theorem targetOf_congr {h : Half} {s t : State} (hv : stepView h s = stepView h t) (d : Nat) :
    targetOf s h d = targetOf t h d := by
  simp only [stepView, Prod.mk.injEq] at hv
  obtain ⟨hb, -, -, hh, -⟩ := hv
  simp only [targetOf, hb, ceilingOf_congr hh d]

theorem domAt_stepDoms (h : Half) (l : List Nat) (s : State) (hl : ∀ d ∈ l, d < s.power.doms.length) (hn : l.Nodup) (e : Nat) :
    domAt (l.foldl (stepDom h) s) e
      = if e ∈ l then stepped (overLimit s) (targetOf s h e) s.now (domAt s e) else domAt s e := by
  induction l generalizing s with
  | nil => simp
  | cons d l ih =>
    have hv := stepView_stepDom h h s d
    have ht := targetOf_congr hv e
    simp only [stepView, Prod.mk.injEq] at hv
    obtain ⟨-, ho, hnow, -, hlen⟩ := hv
    obtain ⟨hd, hn⟩ := List.nodup_cons.mp hn
    rw [List.foldl_cons, ih _ (fun x hx => hlen ▸ hl x (List.mem_cons_of_mem _ hx)) hn, ho, ht, hnow,
      domAt_stepDom h s d e (hl d List.mem_cons_self)]
    by_cases hde : d = e
    · subst hde
      simp [hd]
    · simp [hde, Ne.symm hde]

/-- The four sub-domains of a half. -/
def domsOfHalf (h : Half) : List Nat := (List.range 4).map (fun i => 4 * halfIx h + i)

theorem mem_domsOfHalf {h : Half} {d : Nat} : d ∈ domsOfHalf h ↔ 4 * halfIx h ≤ d ∧ d < 4 * halfIx h + 4 := by
  simp only [domsOfHalf, List.mem_map, List.mem_range]
  exact ⟨fun ⟨i, hi, he⟩ => by omega, fun ⟨h1, h2⟩ => ⟨d - 4 * halfIx h, by omega, by omega⟩⟩

theorem nodup_domsOfHalf (h : Half) : (domsOfHalf h).Nodup := by cases h <;> decide

/-- The four sub-domains of a half adjusted and settled. -/
def halfStepped (s : State) (h : Half) : State := settleVolts ((domsOfHalf h).foldl (stepDom h) s)

theorem stepDoms_keeps {γ : Type} (vw : State → γ) (hg : ∀ s t, vw (footPower s t) = vw s) (h : Half) (s : State) (l : List Nat) :
    vw (l.foldl (stepDom h) s) = vw s :=
  foldlState vw (stepDom h) (fun u d => stepDom_cases (p := fun v => vw v = vw u) h u d rfl fun f _ => updDom_keeps vw hg u d f) _ _

theorem stepDoms_bare (h : Half) (s : State) (l : List Nat) : bareSupplies (l.foldl (stepDom h) s) = bareSupplies s :=
  foldlState bareSupplies (stepDom h)
    (fun u d => stepDom_cases (p := fun v => bareSupplies v = bareSupplies u) h u d rfl fun _ _ => rfl) _ _

theorem stepView_stepDoms (h h' : Half) (s : State) (l : List Nat) : stepView h (l.foldl (stepDom h') s) = stepView h s :=
  foldlState (stepView h) (stepDom h') (fun u d => stepView_stepDom h h' u d) _ _

theorem domAt_halfStepped (s : State) (h : Half) (d : Nat) (hl : s.power.doms.length = 8) (hd : d ∈ domsOfHalf h) :
    domAt (halfStepped s h) d
      = lowered (stepped (overLimit s) (targetOf s h d) s.now (domAt s d)) (ceilingOf s d) := by
  have h8 : ∀ e ∈ domsOfHalf h, e < 8 := by cases h <;> decide
  have hv := stepView_stepDoms h h s (domsOfHalf h)
  simp only [stepView, Prod.mk.injEq] at hv
  obtain ⟨-, -, -, hh, -⟩ := hv
  rw [halfStepped, domAt_settleVolts, if_pos (h8 d hd), ceilingOf_congr hh d,
    domAt_stepDoms h _ s (fun e he => hl ▸ h8 e he) (nodup_domsOfHalf h), if_pos hd]

theorem lowered_of_le {x : Dom} {c : Nat} (h : x.setpoint ≤ c) : lowered x c = x := by
  unfold lowered
  rw [Nat.min_eq_left h]

/-- What one adjustment, settled, does to a setpoint that is on and not above its ceiling: input power `w` against its limit. -/
theorem adjusted (limit w top c now : Nat) (x y : Dom)
    (hy : y = lowered (stepped (decide (limit < w)) (min top c) now x) c) (h0 : x.setpoint ≠ 0) (hc : x.setpoint ≤ c) :
    (limit < w → x.last + us 100 ≤ now → y.setpoint = min (max 550 (x.setpoint - 5)) c ∧ y.last = now)
    ∧ (limit < w → now < x.last + us 100 → y = x)
    ∧ (w ≤ limit → ∀ target, target = min top c →
      (target < x.setpoint → y.setpoint = target)
      ∧ (x.setpoint < target → x.last + us 250 ≤ now → y.setpoint = min target (x.setpoint + 5) ∧ y.last = now)
      ∧ (x.setpoint < target → now < x.last + us 250 → y = x)
      ∧ (x.setpoint = target → y = x)) := by
  have htc : min top c ≤ c := Nat.min_le_right _ _
  rw [stepped, if_neg h0] at hy
  refine ⟨fun ha hl => ?_, fun ha hl => ?_, fun ha target ht => ?_⟩
  · rw [if_pos (decide_eq_true ha), if_pos hl] at hy
    subst hy
    exact ⟨rfl, rfl⟩
  · rw [if_pos (decide_eq_true ha), if_neg (Nat.not_le_of_lt hl)] at hy
    exact hy.trans (lowered_of_le hc)
  · subst ht
    rw [if_neg (by simp [Nat.not_lt_of_le ha])] at hy
    refine ⟨fun hlt => ?_, fun hlt hl => ?_, fun hlt hl => ?_, fun he => ?_⟩
    · rw [if_pos hlt] at hy
      subst hy
      exact Nat.min_eq_left htc
    · rw [if_neg (Nat.lt_asymm hlt), if_pos ⟨hlt, hl⟩] at hy
      subst hy
      exact ⟨Nat.min_eq_left ((Nat.min_le_left _ _).trans htc), rfl⟩
    · rw [if_neg (Nat.lt_asymm hlt), if_neg (fun h => Nat.not_le_of_lt hl h.2)] at hy
      exact hy.trans (lowered_of_le hc)
    · rw [if_neg (by omega), if_neg (by omega)] at hy
      exact hy.trans (lowered_of_le hc)

/-- The measurement of input power that an adjustment follows. -/
theorem notePower_frame (s : State) (watts : Nat) : notePower s watts = { s with
    dic := (notePower s watts).dic
    power := { s.power with
      overSince := heldSince s.now s.power.overSince (decide (powerLimit s < watts))
      underSince := heldSince s.now s.power.underSince (decide (100 * watts ≤ 95 * powerLimit s)) } } := rfl

theorem sameObjs_notePower (s : State) (watts : Nat) : SameObjs s (notePower s watts) [Obj.inputPowerW] :=
  ((SameObjs.refl s _).objPut Obj.inputPowerW (min 65535 watts) (by decide)).of_dic rfl

theorem inputPower_notePower (s : State) (watts : Nat) : objGet (notePower s watts) Obj.inputPowerW = min 65535 watts :=
  objGet_objPut_self s Obj.inputPowerW (min 65535 watts)

theorem powerLimit_congr {s t : State} (hc : objGet t Obj.convertersOk = objGet s Obj.convertersOk)
    (hp : objGet t Obj.powerCapW = objGet s Obj.powerCapW) : powerLimit t = powerLimit s := by
  simp only [powerLimit, convertersOn, hc, hp]
  rfl

theorem powerLimit_notePower (s : State) (watts : Nat) : powerLimit (notePower s watts) = powerLimit s :=
  powerLimit_congr (sameObjs_notePower s watts _ (by decide)) (sameObjs_notePower s watts _ (by decide))

theorem halfStepped_keeps {γ : Type} (vw : State → γ) (hg : ∀ s t, vw (footDicPower s t) = vw s) (s : State) (h : Half) :
    vw (halfStepped s h) = vw s :=
  (settleVolts_keeps vw hg _).trans (stepDoms_keeps vw (fun s t => hg s (footPower s t)) h s _)

theorem sameObjs_halfStepped (s : State) (h : Half) : SameObjs s (halfStepped s h) voltObjs :=
  fun k hk => (sameObjs_settleVolts _ k hk).trans (stepDoms_keeps (objGet · k) (fun _ _ => rfl) h s _)

theorem halfStepped_bare (s : State) (h : Half) : bareSupplies (halfStepped s h) = bareSupplies s :=
  (settleVolts_bare _).trans (stepDoms_bare h s _)

theorem siteAt_of_bare {s t : State} (h : bareSupplies t = bareSupplies s) (n : Nat) : siteAt t n = siteAt s n := by
  have hs : (bareSupplies t).sites = (bareSupplies s).sites := by rw [h]
  have ht : t.power.sites = s.power.sites := hs
  unfold siteAt
  rw [ht]

theorem mayBoost_halfStepped (s : State) (h : Half) : mayBoost (halfStepped s h) h = mayBoost s h := by
  have hs (n : Nat) : siteAt (halfStepped s h) n = siteAt s n :=
    siteAt_of_bare (halfStepped_bare s h) n
  have ho := sameObjs_halfStepped s h
  simp only [mayBoost, convertersOn, ho Obj.boostEnable (by decide), ho Obj.convertersOk (by decide),
    ho Obj.inputPowerW (by decide), ho Obj.powerCapW (by decide), hs]
  rfl

theorem exec_setpointStep (h : Half) (watts : Nat) (s : State) (hon : s.power.on = true) :
    exec (.setpointStep h watts) s = .next (stepHalf s h watts) :=
  congrArg Host.Outcome.next (if_pos hon)

theorem stepHalf_running (s : State) (h : Half) (watts : Nat) (hc : (coreAt s (4 * halfIx h + 1)).st = 1) :
    stepHalf s h watts = halfStepped (notePower s watts) h := if_neg (fun hn => hn hc)

theorem stepHalf_stopped (s : State) (h : Half) (watts : Nat) (hc : (coreAt s (4 * halfIx h + 1)).st ≠ 1) :
    stepHalf s h watts = notePower s watts := if_pos hc

theorem halfStepped_frame (s : State) (h : Half) (watts : Nat) : halfStepped (notePower s watts) h = { s with
    dic := (halfStepped (notePower s watts) h).dic, power := (halfStepped (notePower s watts) h).power } :=
  (footDicPower_self _).symm.trans (halfStepped_keeps (footDicPower · (halfStepped (notePower s watts) h)) (fun _ _ => rfl) _ h)

/-- The sub-domains of a half after an adjustment that follows a measurement. -/
theorem domAt_measured (s : State) (h : Half) (watts d : Nat) (hl : s.power.doms.length = 8) (hd : d ∈ domsOfHalf h) :
    domAt (halfStepped (notePower s watts) h) d = lowered (stepped (decide (powerLimit s < min 65535 watts))
      (min (if mayBoost (halfStepped (notePower s watts) h) h = true then 800 else 720) (ceilingOf s d)) s.now (domAt s d))
      (ceilingOf s d) := by
  rw [domAt_halfStepped (notePower s watts) h d hl hd, mayBoost_halfStepped]
  have ho : overLimit (notePower s watts) = decide (powerLimit s < min 65535 watts) := by
    rw [overLimit, powerLimit_notePower, inputPower_notePower]
  rw [ho]
  rfl

/-! ### The hold-up bank -/

/-- A measurement of the bank with what is timed from it. -/
def bankMeasured (s : State) (mj : Nat) : State :=
  updPower (objPut s Obj.holdUpMj (min 2000 mj)) (fun p =>
    { p with lowBankSince := heldSince s.now p.lowBankSince (decide (mj < stepMj)),
             lowBankTold := p.lowBankTold && decide (mj < stepMj) })

/-- A measurement of the bank: a commit step that waits is counted as deferred again. -/
def bankRetried (s : State) (mj : Nat) : State :=
  if mj < stepMj ∧ s.persist ≠ [] ∧ s.power.pale = false then objInc (bankMeasured s mj) Obj.commitDeferrals else bankMeasured s mj

theorem exec_commitDeferralRetry (mj : Nat) (s : State) (hon : s.power.on = true) :
    exec (.commitDeferralRetry mj) s = .next (bankRetried s mj) := by
  have hiff : (decide (mj < stepMj) = true ∧ (!s.persist.isEmpty) = true ∧ (!s.power.pale) = true)
      ↔ (mj < stepMj ∧ s.persist ≠ [] ∧ s.power.pale = false) := by
    simp
  refine congrArg Host.Outcome.next ((if_pos hon).trans ?_)
  by_cases h : mj < stepMj ∧ s.persist ≠ [] ∧ s.power.pale = false
  · exact (if_pos (hiff.mpr h)).trans (if_pos h).symm
  · exact (if_neg (fun h' => h (hiff.mp h'))).trans (if_neg h).symm

theorem bankRetried_keeps {γ : Type} (vw : State → γ) (hg : ∀ s t, vw (footDic s t) = vw s) (s : State) (mj : Nat) :
    vw (bankRetried s mj) = vw (bankMeasured s mj) := by
  unfold bankRetried
  split
  · exact objInc_keeps vw hg _ _
  · rfl

theorem bankRetried_power (s : State) (mj : Nat) : (bankRetried s mj).power = { s.power with
    lowBankSince := heldSince s.now s.power.lowBankSince (decide (mj < stepMj))
    lowBankTold := s.power.lowBankTold && decide (mj < stepMj) } :=
  bankRetried_keeps State.power (fun _ _ => rfl) s mj

theorem bankRetried_frame (s : State) (mj : Nat) :
    bankRetried s mj = { s with dic := (bankRetried s mj).dic, power := (bankRetried s mj).power } :=
  (footDicPower_self (bankRetried s mj)).symm.trans
    (bankRetried_keeps (footDicPower · (bankRetried s mj)) (fun _ _ => rfl) s mj)

theorem sameObjs_bankMeasured (s : State) (mj : Nat) : SameObjs s (bankMeasured s mj) [Obj.holdUpMj] :=
  ((SameObjs.refl s _).objPut _ _ (by decide)).of_dic rfl

theorem bankRetried_objs (s : State) (mj : Nat) : objGet (bankRetried s mj) Obj.holdUpMj = min 2000 mj
    ∧ SameObjs s (bankRetried s mj) [Obj.holdUpMj, Obj.commitDeferrals] := by
  have hm : objGet (bankMeasured s mj) Obj.holdUpMj = min 2000 mj := objGet_objPut_self s Obj.holdUpMj (min 2000 mj)
  have hs := (sameObjs_bankMeasured s mj).mono (ks' := [Obj.holdUpMj, Obj.commitDeferrals]) (by decide)
  unfold bankRetried
  split
  · exact ⟨(objGet_objPut_ne _ _ _ _ (by decide)).trans hm, hs.objInc _ (by decide)⟩
  · exact ⟨hm, hs⟩

theorem deferrals_counted (s : State) (mj : Nat) (h : mj < stepMj ∧ s.persist ≠ [] ∧ s.power.pale = false) :
    Counted s (bankRetried s mj) Obj.commitDeferrals 1 := by
  rw [bankRetried, if_pos h]
  refine (objGet_objPut_self _ _ _).trans ?_
  rw [sameObjs_bankMeasured s mj _ (by decide)]

theorem deferrals_kept (s : State) (mj : Nat) (h : ¬ (mj < stepMj ∧ s.persist ≠ [] ∧ s.power.pale = false)) :
    objGet (bankRetried s mj) Obj.commitDeferrals = objGet s Obj.commitDeferrals := by
  rw [bankRetried, if_neg h]
  exact sameObjs_bankMeasured s mj _ (by decide)

/-- A low bank told. -/
def bankTold (s : State) : State :=
  updPower (journalAlert s .holdUpFault [objGet s Obj.holdUpMj]) (fun p => { p with lowBankTold := true })

theorem exec_holdUpFault (s : State) : exec .holdUpFault s = .next (match s.power.lowBankSince with
    | some t => if !s.power.lowBankTold ∧ t + ms 60000 ≤ s.now then bankTold s else s
    | none => s) := rfl

theorem bankTold_frame (s : State) :
    bankTold s = { s with dic := (bankTold s).dic, power := { s.power with lowBankTold := true }, obs := (bankTold s).obs } := by
  unfold bankTold
  rw [frame_journalAlert]
  rfl

/-! ### The obligation -/

/-- Settles O53: the floor and the setpoints by what settling does to each sub-domain, the hold-up bank by its measurement. -/
theorem convertersSetpointsAndHoldUp : Obligations.ConvertersSetpointsAndHoldUp := by
  unfold Obligations.ConvertersSetpointsAndHoldUp
  refine ⟨fun c s hc => ⟨converterFault_faults c s hc, converterFault_idle c s hc⟩,
    fun s => ⟨fun hon hc hl => ?_, powerLimitOverrun_idle s, fun hf h6 hl => ?_, powerLimitRecover_idle s⟩,
    fun h watts w ov un s hw hov hun => ⟨fun hon => ?_, fun hon hc => ?_, fun hon hc hp => ?_⟩,
    fun mj s => ⟨fun hon => ?_, fun hon => ?_⟩, fun s => ⟨fun a ha htold ht => ?_, fun a ha ht => ?_, fun h => ?_⟩⟩
  · exact ⟨_, powerLimitOverrun_floors s hon hc hl, floored_frame s, floored_power s, voltsShown_settleVolts _,
      fun d hd => setpoint_floored s hd, sameObjs_floored s⟩
  · exact ⟨_, powerLimitRecover_lifts s hf h6 hl, unfloored_frame s, unfloored_power s, voltsShown_ceilingRose _ _,
      fun d hd hlen => last_ceilingRose _ _ hd (List.mem_range.mpr hd) hlen, sameObjs_unfloored s⟩
  · exact congrArg Host.Outcome.next (if_neg (by simp [hon]))
  · subst hw hov hun
    exact ⟨_, exec_setpointStep h watts s hon, by rw [stepHalf_stopped s h watts hc]; exact notePower_frame s watts,
      by rw [stepHalf_stopped s h watts hc]; exact inputPower_notePower s watts,
      by rw [stepHalf_stopped s h watts hc]; exact sameObjs_notePower s watts⟩
  · subst hw hov hun
    refine ⟨halfStepped (notePower s watts) h, (exec_setpointStep h watts s hon).trans ?_, halfStepped_frame s h watts,
      power_of_bare (halfStepped_bare _ h), (sameObjs_halfStepped _ h _ (by decide)).trans (inputPower_notePower s watts),
      voltsShown_settleVolts _, ?_, fun d hlo hhi h0 hle => ?_⟩
    · rw [stepHalf_running s h watts hc]
    · exact ((sameObjs_notePower s watts).mono (by decide)).trans ((sameObjs_halfStepped _ h).mono (List.subset_cons_self _ _))
    · obtain ⟨-, -, -, -, -, -, -, -, -, -, -, -, hlen, -⟩ := hp
      exact adjusted _ _ _ _ _ _ _ (domAt_measured s h watts d hlen (mem_domsOfHalf.mpr ⟨hlo, hhi⟩)) h0 hle
  · exact congrArg Host.Outcome.next (if_neg (by simp [hon]))
  · obtain ⟨hmj, hsame⟩ := bankRetried_objs s mj
    have hpow := bankRetried_power s mj
    refine ⟨_, exec_commitDeferralRetry mj s hon, bankRetried_frame s mj, ?_, hmj, hsame, fun h600 => ⟨?_, ?_, ?_⟩,
      fun h600 => ⟨fun hn => ?_, fun a ha => ?_, fun hne hpale => deferrals_counted s mj ⟨h600, hne, hpale⟩,
        fun h => deferrals_kept s mj ?_⟩⟩
    · rw [hpow]
    · rw [hpow]
      simp [heldSince, stepMj, Nat.not_lt.mpr h600]
    · rw [hpow]
      simp [stepMj, Nat.not_lt.mpr h600]
    · exact deferrals_kept s mj fun h => Nat.not_lt.mpr h600 h.1
    · rw [hpow]
      simp [heldSince, stepMj, h600, hn]
    · rw [hpow]
      simp [heldSince, stepMj, h600, ha]
    · rintro ⟨-, hne, hpale⟩
      rcases h with h | h
      · exact hne h
      · simp [hpale] at h
  · refine ⟨bankTold s, ?_, bankTold_frame s, ((SameObjs.refl s _).journalAlert _ _ (by decide)).of_dic rfl,
      (logged_journalAlert _ _ _).of_obs rfl⟩
    rw [exec_holdUpFault, ha]
    exact congrArg Host.Outcome.next (if_pos ⟨by simp [htold], ht⟩)
  · rw [exec_holdUpFault, ha]
    exact congrArg Host.Outcome.next (if_neg fun hc => Nat.not_le_of_lt ht hc.2)
  · rw [exec_holdUpFault]
    rcases h with h | h
    · rw [h]
    · cases s.power.lowBankSince
      · rfl
      · exact congrArg Host.Outcome.next (if_neg (by simp [h]))

end Sys2Proof.Machine

/-!
Sensors (O54): a reading that finds its sub-domain Red already counts no entry, and so cannot bring a counter that stands beyond the
top of its type back to it.
-/

namespace Sys2Proof.Machine

/-- A module whose sub-domain CW0 is Red already, and whose RedEvents holds more than its eight bytes can. -/
def redBeyond : State :=
  { State.reset with
    dic := [(Obj.redEvents, 2 ^ 64)]
    power := { on := true, doms := [{ red := true }, {}, {}, {}, {}, {}, {}, {}] } }

theorem redEvents_stay : objGet (readSite redBeyond 0 800 800) Obj.redEvents = 2 ^ 64 := by decide

theorem redEvents_top : satAdd (objTop Obj.redEvents) (objGet redBeyond Obj.redEvents) 0 = 2 ^ 64 - 1 := by decide

/-- Refutes O54: at 100 °C a site whose sub-domain is Red already counts nothing, but the statement has RedEvents counted by 0 and
held at the top of its type, which a value beyond the top is not. -/
theorem not_sensorsAmberRedAndBlack : ¬ Obligations.SensorsAmberRedAndBlack := by
  unfold Obligations.SensorsAmberRedAndBlack
  intro h
  obtain ⟨-, -, hread, -⟩ := h
  have hparts : PartsOk redBeyond := by unfold PartsOk; decide +kernel
  obtain ⟨hin, -⟩ := hread 0 800 800 800 redBeyond (by decide) rfl hparts (by decide) (by decide)
  obtain ⟨-, hred, -⟩ := hin (by decide) (by decide) (by decide)
  obtain ⟨t, hexec, -, -, -, -, -, -, -, hcount, -⟩ := hred (by decide) (by decide)
  have ht : readSite redBeyond 0 800 800 = t := Host.Outcome.next.inj hexec
  have hnone : ((domsOfSite 0).filter (fun d => !(domAt redBeyond d).red)).length = 0 := by decide
  rw [Counted, hnone, redEvents_top, ← ht, redEvents_stay] at hcount
  exact absurd hcount (by decide)

end Sys2Proof.Machine

/-!
The module's interfaces: leak loop, coolant flow, AUX e-fuse, serial lines and time source (O55).
-/

namespace Sys2Proof.Machine

theorem frame_journal (s : State) (e : JEvent) (as : List Nat) :
    journal s e as = { s with dic := (journal s e as).dic, obs := (journal s e as).obs } :=
  journal_keeps (footDicObs · (journal s e as)) (fun _ _ => rfl) s e as

/-! ### The leak loop -/

/-- A reading of the leak loop reported, and timed. -/
def leakRead (s : State) (ohms : Nat) : State :=
  updIface (objPut s Obj.leakLoopOhms (min ohms (2 ^ 32 - 1))) (fun x =>
    { x with leakLast := (leakClass ohms :: x.leakLast).take 3, dryHold := heldSince s.now x.dryHold (leakClass ohms == 0) })

/-- The class the readings agree on, reported. -/
def leakClassed (s : State) (ohms : Nat) : State :=
  if s.iface.leakLast.take 2 = [leakClass ohms, leakClass ohms] ∧ objGet s Obj.leakState ≠ leakClass ohms then
    leakChange (leakRead s ohms) (leakClass ohms) ohms
  else leakRead s ohms

theorem leakChange_keeps' {γ : Type} (vw : State → γ) (hg : ∀ s t, vw (footDicObs s t) = vw s) (s : State) (c ohms : Nat) :
    vw (leakChange s c ohms) = vw s := by
  have hp : vw (objPut s Obj.leakState c) = vw s := objPut_keeps vw (fun s t => hg s (footDic s t)) _ _ _
  unfold leakChange
  split
  · exact (journal_keeps vw hg _ _ _).trans hp
  · exact (journalAlert_keeps vw hg _ _ _).trans hp

theorem threeAgree_leakRead (s : State) (ohms : Nat) :
    threeAgree (leakRead s ohms) (leakClass ohms) = true ↔ s.iface.leakLast.take 2 = [leakClass ohms, leakClass ohms] := by
  have h : (leakRead s ohms).iface.leakLast = leakClass ohms :: s.iface.leakLast.take 2 := rfl
  rw [threeAgree, h]
  simp

theorem sameObjs_leakRead (s : State) (ohms : Nat) : SameObjs s (leakRead s ohms) [Obj.leakLoopOhms] :=
  ((SameObjs.refl s _).objPut _ (min ohms (2 ^ 32 - 1)) (by decide)).of_dic rfl

theorem leakSample_eq (s : State) (ohms : Nat) : leakSample s ohms =
    if objGet (leakClassed s ohms) Obj.leakState = 1 ∧ objGet (leakClassed s ohms) Obj.leakAction = 1 then
      updPower (leakClassed s ohms) (fun p => { p with shdnLeak := true })
    else leakClassed s ohms := by
  have hs : (if threeAgree (leakRead s ohms) (leakClass ohms) ∧ objGet (leakRead s ohms) Obj.leakState ≠ leakClass ohms then
      leakChange (leakRead s ohms) (leakClass ohms) ohms else leakRead s ohms) = leakClassed s ohms := by
    simp only [leakClassed, threeAgree_leakRead, sameObjs_leakRead s ohms Obj.leakState (by decide)]
  rw [← hs]
  rfl

theorem leakClassed_keeps {γ : Type} (vw : State → γ) (hg : ∀ s t, vw (footDicObs s t) = vw s) (s : State) (ohms : Nat) :
    vw (leakClassed s ohms) = vw (leakRead s ohms) := by
  unfold leakClassed
  split
  · exact leakChange_keeps' vw hg _ _ _
  · rfl

theorem objGet_leakChange_state (s : State) (c ohms : Nat) : objGet (leakChange s c ohms) Obj.leakState = c := by
  unfold leakChange
  split
  · exact (objGet_journal _ _ _ _ (by decide) (by decide)).trans (objGet_objPut_self _ _ _)
  · exact (objGet_journalAlert _ _ _ _ (by decide) (by decide) (by decide)).trans (objGet_objPut_self _ _ _)

theorem sameObjs_leakChange (s : State) (c ohms : Nat) : SameObjs s (leakChange s c ohms) (Obj.leakState :: alertObjs) := by
  unfold leakChange
  split
  · exact ((SameObjs.refl _ _).objPut _ _ (by decide)).journal _ _ (by decide)
  · exact ((SameObjs.refl _ _).objPut _ _ (by decide)).journalAlert _ _ (by decide)

theorem logged_leakChange (s : State) (c ohms : Nat) :
    Logged s (leakChange s c ohms) .leakChanged [9, 10, c, ohms] (c != 0) := by
  by_cases hc : c = 0
  · subst hc
    exact (logged_journal (objPut s Obj.leakState 0) .leakChanged [9, 10, 0, ohms]).of_view rfl
  · have hb : (c != 0) = true := by simp [hc]
    rw [hb, leakChange, if_neg hc]
    exact (logged_journalAlert _ _ _).of_view rfl

theorem leakClassed_objs (s : State) (ohms : Nat) :
    objGet (leakClassed s ohms) Obj.leakLoopOhms = min ohms (2 ^ 32 - 1)
      ∧ SameObjs s (leakClassed s ohms) ([Obj.leakLoopOhms, Obj.leakState] ++ alertObjs)
      ∧ (s.iface.leakLast.take 2 = [leakClass ohms, leakClass ohms] → objGet (leakClassed s ohms) Obj.leakState = leakClass ohms
        ∧ (objGet s Obj.leakState ≠ leakClass ohms →
          Logged s (leakClassed s ohms) .leakChanged [9, 10, leakClass ohms, ohms] (leakClass ohms != 0)))
      ∧ (s.iface.leakLast.take 2 ≠ [leakClass ohms, leakClass ohms] →
        objGet (leakClassed s ohms) Obj.leakState = objGet s Obj.leakState ∧ (leakClassed s ohms).obs = s.obs) := by
  have hr := sameObjs_leakRead s ohms
  have hohms : objGet (leakRead s ohms) Obj.leakLoopOhms = min ohms (2 ^ 32 - 1) := objGet_objPut_self s _ _
  unfold leakClassed
  split
  next h =>
    obtain ⟨hagree, hne⟩ := h
    have hc := sameObjs_leakChange (leakRead s ohms) (leakClass ohms) ohms
    exact ⟨(hc _ (by decide)).trans hohms, (hr.mono (by decide)).trans (hc.mono (by decide)),
      fun _ => ⟨objGet_leakChange_state _ _ _, fun _ => (logged_leakChange _ _ _).of_view rfl⟩, fun h => absurd hagree h⟩
  next h =>
    refine ⟨hohms, hr.mono (by decide), fun hagree => ?_, fun _ => ⟨hr _ (by decide), rfl⟩⟩
    have hstate : objGet s Obj.leakState = leakClass ohms := Decidable.byContradiction fun hne => h ⟨hagree, hne⟩
    exact ⟨(hr _ (by decide)).trans hstate, fun hne => absurd hstate hne⟩

theorem leakSample_keeps_of {γ : Type} (vw : State → γ) (hg : ∀ s t, vw (footPower s t) = vw s) (s : State) (ohms : Nat) :
    vw (leakSample s ohms) = vw (leakClassed s ohms) := by
  rw [leakSample_eq]
  split
  · exact updPower_keeps vw hg _ _
  · rfl

theorem leakClassed_power (s : State) (ohms : Nat) : (leakClassed s ohms).power = s.power :=
  leakClassed_keeps State.power (fun _ _ => rfl) s ohms

theorem leakSample_power (s : State) (ohms : Nat) : (leakSample s ohms).power = { s.power with
    shdnLeak := s.power.shdnLeak || (objGet (leakSample s ohms) Obj.leakState == 1 && objGet s Obj.leakAction == 1) } := by
  have hact : objGet (leakClassed s ohms) Obj.leakAction = objGet s Obj.leakAction :=
    (leakClassed_objs s ohms).2.1 _ (by decide)
  rw [leakSample_keeps_of (objGet · Obj.leakState) (fun _ _ => rfl), leakSample_eq, hact]
  split
  next h =>
    have hp : (updPower (leakClassed s ohms) (fun p => { p with shdnLeak := true })).power
      = { (leakClassed s ohms).power with shdnLeak := true } := rfl
    rw [hp, leakClassed_power]
    simp [h]
  next h =>
    rw [leakClassed_power]
    have hb : (objGet (leakClassed s ohms) Obj.leakState == 1 && objGet s Obj.leakAction == 1) = false := by
      simpa using h
    rw [hb, Bool.or_false]

theorem foot4_9_self (s : State) : foot4_9 s s = s := rfl

theorem leakSample_frame (s : State) (ohms : Nat) : leakSample s ohms = { s with
    dic := (leakSample s ohms).dic, power := (leakSample s ohms).power
    iface := (leakSample s ohms).iface, obs := (leakSample s ohms).obs } := by
  have h1 := leakSample_keeps_of (foot4_9 · (leakSample s ohms)) (fun _ _ => rfl) s ohms
  have h2 := leakClassed_keeps (foot4_9 · (leakSample s ohms)) (fun _ _ => rfl) s ohms
  exact (foot4_9_self _).symm.trans (h1.trans h2)

theorem leakSample_iface (s : State) (ohms : Nat) : (leakSample s ohms).iface = { s.iface with
    leakLast := (leakClass ohms :: s.iface.leakLast).take 3
    dryHold := heldSince s.now s.iface.dryHold (leakClass ohms == 0) } :=
  (leakSample_keeps_of State.iface (fun _ _ => rfl) s ohms).trans (leakClassed_keeps State.iface (fun _ _ => rfl) s ohms)

/-- What one reading of the loop does. -/
theorem leakLoopSample_reads (ohms : Nat) (s : State) (hon : s.power.on = true) (c : Nat) (hc : c = leakClass ohms) :
    ∃ t, exec (.leakLoopSample ohms) s = .next t
      ∧ t = { s with dic := t.dic, power := { s.power with shdnLeak := t.power.shdnLeak }, iface := t.iface, obs := t.obs }
      ∧ t.iface = { s.iface with leakLast := (c :: s.iface.leakLast).take 3, dryHold := heldSince s.now s.iface.dryHold (c == 0) }
      ∧ objGet t Obj.leakLoopOhms = min ohms (2 ^ 32 - 1) ∧ SameObjs s t ([Obj.leakLoopOhms, Obj.leakState] ++ alertObjs)
      ∧ (s.iface.leakLast.take 2 = [c, c] → objGet t Obj.leakState = c
        ∧ (objGet s Obj.leakState ≠ c → Logged s t .leakChanged [9, 10, c, ohms] (c != 0)))
      ∧ (s.iface.leakLast.take 2 ≠ [c, c] → objGet t Obj.leakState = objGet s Obj.leakState ∧ t.obs = s.obs)
      ∧ t.power.shdnLeak = (s.power.shdnLeak || (objGet t Obj.leakState == 1 && objGet s Obj.leakAction == 1)) := by
  subst hc
  obtain ⟨hohms, hsame, hagree, hdiffer⟩ := leakClassed_objs s ohms
  have hobj (k : Nat) : objGet (leakSample s ohms) k = objGet (leakClassed s ohms) k :=
    leakSample_keeps_of (objGet · k) (fun _ _ => rfl) s ohms
  have hobs : (leakSample s ohms).obs = (leakClassed s ohms).obs := leakSample_keeps_of State.obs (fun _ _ => rfl) s ohms
  have hpow := leakSample_power s ohms
  refine ⟨leakSample s ohms, congrArg Host.Outcome.next (if_pos hon), ?_, leakSample_iface s ohms, (hobj _).trans hohms,
    fun k hk => (hobj k).trans (hsame k hk), fun h => ?_, fun h => ?_, congrArg Power.shdnLeak hpow⟩
  · refine (leakSample_frame s ohms).trans ?_
    rw [hpow]
  · obtain ⟨hstate, hlog⟩ := hagree h
    exact ⟨(hobj _).trans hstate, fun hne => (hlog hne).of_obs hobs⟩
  · obtain ⟨hstate, hold⟩ := hdiffer h
    exact ⟨(hobj _).trans hstate, hobs.trans hold⟩

theorem leakDryRelease_cases (s : State) :
    (∀ a, s.iface.dryHold = some a → a + ms 10000 ≤ s.now →
      exec .leakDryRelease s = .next { s with power := { s.power with shdnLeak := false } })
    ∧ (∀ a, s.iface.dryHold = some a → s.now < a + ms 10000 → exec .leakDryRelease s = .next s)
    ∧ (s.iface.dryHold = none → exec .leakDryRelease s = .next s) := by
  have h : exec .leakDryRelease s = .next (match s.iface.dryHold with
    | some t => if t + ms 10000 ≤ s.now then updPower s (fun p => { p with shdnLeak := false }) else s
    | none => s) := rfl
  refine ⟨fun a ha ht => ?_, fun a ha ht => ?_, fun hn => ?_⟩
  · rw [h, ha]
    exact congrArg Host.Outcome.next (if_pos ht)
  · rw [h, ha]
    exact congrArg Host.Outcome.next (if_neg (Nat.not_le_of_lt ht))
  · rw [h, hn]

/-! ### Coolant flow -/

/-- A flow reading reported, and its episode kept while it is low. -/
def flowSeen (s : State) (centi : Nat) : State :=
  updIface (objPut s Obj.flowCentiLpm (min 65535 centi)) (fun x =>
    { x with flowSince := heldSince s.now s.iface.flowSince (decide (centi < objGet s Obj.flowMinLpm))
             flowEpisode := x.flowEpisode && decide (centi < objGet s Obj.flowMinLpm) })

/-- A low flow told, once in its episode. -/
def flowTold (s : State) (centi : Nat) : State :=
  updIface (journalAlert (flowSeen s centi) .flowLow [centi]) (fun x => { x with flowEpisode := true })

theorem exec_flowLow (centi : Nat) (s : State) (hon : s.power.on = true) (htach : objGet s Obj.flowTachEnable = 1) :
    exec (.flowLow centi) s = .next (flowRead s centi) := congrArg Host.Outcome.next (if_pos ⟨hon, htach⟩)

theorem flowLow_idle (centi : Nat) (s : State) (h : s.power.on = false ∨ objGet s Obj.flowTachEnable ≠ 1) :
    exec (.flowLow centi) s = .next s := by
  refine congrArg Host.Outcome.next (if_neg ?_)
  rintro ⟨hon, htach⟩
  rcases h with h | h
  · simp_all
  · exact h htach

theorem flowRead_eq (s : State) (centi : Nat) : flowRead s centi =
    match heldSince s.now s.iface.flowSince (decide (centi < objGet s Obj.flowMinLpm)) with
    | some t => if t + ms 5000 ≤ (flowSeen s centi).now ∧ !(flowSeen s centi).iface.flowEpisode then flowTold s centi
      else flowSeen s centi
    | none => flowSeen s centi := rfl

theorem flowSeen_objs (s : State) (centi : Nat) : objGet (flowSeen s centi) Obj.flowCentiLpm = min 65535 centi
    ∧ SameObjs s (flowSeen s centi) [Obj.flowCentiLpm] :=
  ⟨objGet_objPut_self s _ _, ((SameObjs.refl s _).objPut _ (min 65535 centi) (by decide)).of_dic rfl⟩

theorem flowSeen_low (s : State) (centi : Nat) (hl : centi < objGet s Obj.flowMinLpm) : flowSeen s centi = { s with
    dic := (flowSeen s centi).dic, iface := { s.iface with flowSince := some (s.iface.flowSince.getD s.now) } } := by
  unfold flowSeen heldSince
  rw [decide_eq_true hl]
  simp only [updIface, objPut, Bool.and_true, if_true]

theorem flowSeen_enough (s : State) (centi : Nat) (hl : objGet s Obj.flowMinLpm ≤ centi) : flowSeen s centi = { s with
    dic := (flowSeen s centi).dic, iface := { s.iface with flowSince := none, flowEpisode := false } } := by
  unfold flowSeen heldSince
  rw [decide_eq_false (Nat.not_lt_of_le hl)]
  simp only [updIface, objPut, Bool.and_false, Bool.false_eq_true, if_false]

theorem flowRead_enough (s : State) (centi : Nat) (hl : objGet s Obj.flowMinLpm ≤ centi) : flowRead s centi = flowSeen s centi := by
  rw [flowRead_eq, heldSince, decide_eq_false (Nat.not_lt_of_le hl)]
  rfl

theorem flowRead_low (s : State) (centi : Nat) (hl : centi < objGet s Obj.flowMinLpm) : flowRead s centi =
    if s.iface.flowSince.getD s.now + ms 5000 ≤ s.now ∧ s.iface.flowEpisode = false then flowTold s centi
    else flowSeen s centi := by
  have hiff : (s.iface.flowSince.getD s.now + ms 5000 ≤ (flowSeen s centi).now ∧ (!(flowSeen s centi).iface.flowEpisode) = true)
      ↔ (s.iface.flowSince.getD s.now + ms 5000 ≤ s.now ∧ s.iface.flowEpisode = false) := by
    rw [flowSeen_low s centi hl]
    simp
  rw [flowRead_eq, heldSince, decide_eq_true hl]
  simp only [if_true, hiff]

theorem flowTold_objs (s : State) (centi : Nat) : objGet (flowTold s centi) Obj.flowCentiLpm = min 65535 centi
    ∧ Logged s (flowTold s centi) .flowLow [centi] true ∧ SameObjs s (flowTold s centi) (Obj.flowCentiLpm :: alertObjs) := by
  obtain ⟨hput, hsame⟩ := flowSeen_objs s centi
  exact ⟨(objGet_journalAlert _ _ _ _ (by decide) (by decide) (by decide)).trans hput,
    ((logged_journalAlert (flowSeen s centi) _ _).of_view rfl).of_obs rfl,
    ((hsame.mono (by decide)).journalAlert .flowLow [centi] (by decide)).of_dic rfl⟩

theorem flowTold_frame (s : State) (centi : Nat) (hl : centi < objGet s Obj.flowMinLpm) : flowTold s centi = { s with
    dic := (flowTold s centi).dic
    iface := { s.iface with flowSince := some (s.iface.flowSince.getD s.now), flowEpisode := true }
    obs := (flowTold s centi).obs } := by
  have h := flowSeen_low s centi hl
  unfold flowTold
  generalize flowSeen s centi = u at h ⊢
  generalize u.dic = d at h
  subst h
  rw [frame_journalAlert]
  rfl

/-! ### The AUX e-fuse -/

/-- The trip counted and journalled. -/
def efuseNoted (s : State) : State := journal (objInc s Obj.auxEfuseTrips) .auxEfuse [1, 5]

/-- The e-fuse open: counted, journalled, and AUX isolated. -/
def efuseTripped (s : State) : State :=
  updIface (updPower (efuseNoted s) (fun p => { p with aux := false }))
    (fun x => { x with efuseOpen := true, efuseAt := s.now })

theorem efuseTripped_frame (s : State) : efuseTripped s = { s with
    dic := (efuseTripped s).dic, power := { s.power with aux := false }
    iface := { s.iface with efuseOpen := true, efuseAt := s.now }, obs := (efuseTripped s).obs } := by
  unfold efuseTripped efuseNoted
  rw [frame_journal]
  rfl

theorem efuseOpens_eq (s : State) : efuseOpens s =
    if s.power.intermediate then objPut (efuseTripped s) Obj.auxState 1 else unpower (efuseTripped s) := by
  have hnow : (journal (objInc s Obj.auxEfuseTrips) .auxEfuse [1, 5]).now = s.now :=
    (journal_keeps State.now (fun _ _ => rfl) _ _ _).trans (objInc_keeps State.now (fun _ _ => rfl) _ _)
  have hinter : (efuseTripped s).power.intermediate = s.power.intermediate := by rw [efuseTripped_frame]
  rw [← hinter]
  unfold efuseTripped efuseNoted
  rw [← hnow]
  rfl

theorem efuseNoted_objs (s : State) : Counted s (efuseNoted s) Obj.auxEfuseTrips 1
    ∧ Logged s (efuseNoted s) .auxEfuse [1, 5] false ∧ SameObjs s (efuseNoted s) (Obj.auxEfuseTrips :: journalObjs) := by
  have hinc : SameObjs s (objInc s Obj.auxEfuseTrips) (Obj.auxEfuseTrips :: journalObjs) :=
    (SameObjs.refl s _).objInc _ (by decide)
  refine ⟨?_, (logged_journal (objInc s Obj.auxEfuseTrips) _ _).of_view rfl, hinc.journal _ _ (by decide)⟩
  exact (objGet_journal (objInc s Obj.auxEfuseTrips) _ _ _ (by decide) (by decide)).trans (objGet_objPut_self _ _ _)

theorem efuseTripped_objs (s : State) : Counted s (efuseTripped s) Obj.auxEfuseTrips 1
    ∧ Logged s (efuseTripped s) .auxEfuse [1, 5] false ∧ SameObjs s (efuseTripped s) (Obj.auxEfuseTrips :: journalObjs) := by
  have hd : (efuseTripped s).dic = (efuseNoted s).dic :=
    (updIface_keeps State.dic (fun _ _ => rfl) _ _).trans (updPower_keeps State.dic (fun _ _ => rfl) _ _)
  have ho : (efuseTripped s).obs = (efuseNoted s).obs :=
    (updIface_keeps State.obs (fun _ _ => rfl) _ _).trans (updPower_keeps State.obs (fun _ _ => rfl) _ _)
  obtain ⟨hcount, hlog, hsame⟩ := efuseNoted_objs s
  exact ⟨(objGet_congr _ _ _ hd).trans hcount, hlog.of_obs ho, hsame.of_dic hd⟩

/-- A trip, and a retry that finds the short still there. -/
theorem exec_efuse (c : Instr) (s : State) (h : (c = .auxEfuseTrip ∧ s.power.on = true ∧ s.power.aux = true)
      ∨ (c = .auxEfuseRetry false ∧ s.power.on = true ∧ s.iface.efuseOpen = true ∧ s.iface.efuseAt + ms 1000 ≤ s.now)) :
    exec c s = .next (efuseOpens s) := by
  rcases h with ⟨rfl, h⟩ | ⟨rfl, h⟩
  · exact congrArg Host.Outcome.next (if_pos h)
  · exact congrArg Host.Outcome.next ((if_pos h).trans (if_neg Bool.false_ne_true))

theorem efuse_opens (c : Instr) (s : State) (h : (c = .auxEfuseTrip ∧ s.power.on = true ∧ s.power.aux = true)
      ∨ (c = .auxEfuseRetry false ∧ s.power.on = true ∧ s.iface.efuseOpen = true ∧ s.iface.efuseAt + ms 1000 ≤ s.now)) :
    (s.power.intermediate = true → exec c s = .next (objPut (efuseTripped s) Obj.auxState 1))
    ∧ (s.power.intermediate = false → exec c s = .next (unpower (efuseTripped s))) := by
  rw [exec_efuse c s h, efuseOpens_eq]
  exact ⟨fun hi => congrArg Host.Outcome.next (if_pos hi), fun hi => congrArg Host.Outcome.next (if_neg (by simp [hi]))⟩

/-- The e-fuse closed again. -/
def efuseClosed (s : State) : State :=
  objPut (updIface (updPower s (fun p => { p with aux := true })) (fun x => { x with efuseOpen := false })) Obj.auxState 0

theorem auxEfuseRetry_closes (s : State) (hon : s.power.on = true) (ho : s.iface.efuseOpen = true)
    (ht : s.iface.efuseAt + ms 1000 ≤ s.now) : exec (.auxEfuseRetry true) s = .next (efuseClosed s) :=
  congrArg Host.Outcome.next ((if_pos ⟨hon, ho, ht⟩).trans (if_pos rfl))

theorem auxEfuseRetry_idle (b : Bool) (s : State)
    (h : s.power.on = false ∨ s.iface.efuseOpen = false ∨ s.now < s.iface.efuseAt + ms 1000) :
    exec (.auxEfuseRetry b) s = .next s := by
  refine congrArg Host.Outcome.next (if_neg ?_)
  rintro ⟨hon, ho, ht⟩
  rcases h with h | h | h
  · simp_all
  · simp_all
  · omega

theorem auxEfuseTrip_idle (s : State) (h : s.power.on = false ∨ s.power.aux = false) : exec .auxEfuseTrip s = .next s := by
  refine congrArg Host.Outcome.next (if_neg ?_)
  rintro ⟨hon, ha⟩
  simp_all

/-! ### Serial lines and the time source -/

/-- A serial line's fault reported and journalled. -/
def lineFault (s : State) (i : Nat) (e : JEvent) (as : List Nat) : State := journal (objBit s Obj.monLineFault i true) e as

theorem lineFault_frame (s : State) (i : Nat) (e : JEvent) (as : List Nat) :
    lineFault s i e as = { s with dic := (lineFault s i e as).dic, obs := (lineFault s i e as).obs } := by
  unfold lineFault
  rw [frame_journal]
  rfl

theorem lineFault_objs (s : State) (i : Nat) (e : JEvent) (as : List Nat) :
    objGet (lineFault s i e as) Obj.monLineFault = setNatBit i (objGet s Obj.monLineFault) ∧ Logged s (lineFault s i e as) e as false
      ∧ SameObjs s (lineFault s i e as) (Obj.monLineFault :: journalObjs) :=
  ⟨(objGet_journal (objBit s Obj.monLineFault i true) _ _ _ (by decide) (by decide)).trans (objGet_objPut_self _ _ _),
    (logged_journal (objBit s Obj.monLineFault i true) _ _).of_view rfl,
    ((SameObjs.refl s _).objBit Obj.monLineFault i true (by decide)).journal e as (by decide)⟩

theorem lineClear_objs (s : State) (i : Nat) :
    objGet (objBit s Obj.monLineFault i false) Obj.monLineFault = clearNatBit i (objGet s Obj.monLineFault)
      ∧ SameObjs s (objBit s Obj.monLineFault i false) [Obj.monLineFault] :=
  ⟨objGet_objPut_self _ _ _, (SameObjs.refl s _).objBit _ _ _ (by decide)⟩

/-- The output released. -/
def txReleased (s : State) : State := updIface s (fun x => { x with txReleased := true, txAt := s.now })

/-- The input ignored, or heard again. -/
def rxIgnored (s : State) (b : Bool) : State := updIface s (fun x => { x with rxIgnored := b })

theorem monTxdFault_cases (s : State) :
    (s.power.on = true → s.iface.txReleased = false → exec .monTxdFault s = .next (lineFault (txReleased s) 0 .monTxd [2, 4]))
    ∧ (s.power.on = false ∨ s.iface.txReleased = true → exec .monTxdFault s = .next s) := by
  refine ⟨fun hon hr => congrArg Host.Outcome.next (if_pos ⟨hon, by simp [hr]⟩), fun h => congrArg Host.Outcome.next (if_neg ?_)⟩
  rintro ⟨hon, hr⟩
  simp_all

theorem monRxdBreak_cases (s : State) :
    (s.power.on = true → s.iface.rxIgnored = false → exec .monRxdBreak s = .next (lineFault (rxIgnored s true) 1 .monRxd [2, 5]))
    ∧ (s.power.on = false ∨ s.iface.rxIgnored = true → exec .monRxdBreak s = .next s) := by
  refine ⟨fun hon hr => congrArg Host.Outcome.next (if_pos ⟨hon, by simp [hr]⟩), fun h => congrArg Host.Outcome.next (if_neg ?_)⟩
  rintro ⟨hon, hr⟩
  simp_all

/-- The output driven again. -/
def txDriven (s : State) : State := updIface s (fun x => { x with txReleased := false })

theorem monTxdDriverRetry_cases (b : Bool) (s : State) :
    (s.iface.txReleased = true → s.iface.txAt + ms 1000 ≤ s.now → exec (.monTxdDriverRetry b) s = .next (if b then
      objBit (txDriven s) Obj.monLineFault 0 false else { s with iface := { s.iface with txAt := s.now } }))
    ∧ (s.iface.txReleased = false ∨ s.now < s.iface.txAt + ms 1000 → exec (.monTxdDriverRetry b) s = .next s) := by
  refine ⟨fun hr ht => congrArg Host.Outcome.next (if_pos ⟨hr, ht⟩), fun h => congrArg Host.Outcome.next (if_neg ?_)⟩
  rintro ⟨hr, ht⟩
  rcases h with h | h
  · simp_all
  · omega

theorem timeSourceChange_cases (b : Bool) (s : State) :
    (s.power.on = true → objGet s Obj.timeSource ≠ boolNat (!b) → exec (.timeSourceChange b) s
      = .next (journal (objPut s Obj.timeSource (boolNat (!b))) .timeSource [boolNat (!b)]))
    ∧ (s.power.on = false ∨ objGet s Obj.timeSource = boolNat (!b) → exec (.timeSourceChange b) s = .next s) := by
  refine ⟨fun hon ht => congrArg Host.Outcome.next (if_pos ⟨hon, ht⟩), fun h => congrArg Host.Outcome.next (if_neg ?_)⟩
  rintro ⟨hon, ht⟩
  rcases h with h | h
  · simp_all
  · exact ht h

/-! ### The obligation -/

/-- Settles O55: one case equation for each command, and what each update reports. -/
theorem interfacesWatchedAndReported : Obligations.InterfacesWatchedAndReported := by
  unfold Obligations.InterfacesWatchedAndReported
  refine ⟨fun ohms s => ⟨fun hon => congrArg Host.Outcome.next (if_neg (by simp [hon])), leakLoopSample_reads ohms s⟩,
    leakDryRelease_cases, fun centi s => ⟨flowLow_idle centi s, fun hon htach hl => ?_, fun hon htach hl =>
      ⟨fun hn => ?_, fun a ha ht he => ?_, fun a ha h => ?_⟩⟩, fun c s h => ?_, fun s => ⟨auxEfuseTrip_idle s,
      fun hon ho ht => ?_, fun b => auxEfuseRetry_idle b s, fun hon hr => ?_, (monTxdFault_cases s).2, fun hr ht => ⟨?_, ?_⟩,
      fun b => (monTxdDriverRetry_cases b s).2, fun hon hr => ?_, (monRxdBreak_cases s).2, fun hr => ?_, fun hr => ?_⟩,
    fun b s => ⟨fun hon ht => ?_, (timeSourceChange_cases b s).2⟩⟩
  · exact ⟨flowSeen s centi, (exec_flowLow centi s hon htach).trans (congrArg _ (flowRead_enough s centi hl)),
      flowSeen_enough s centi hl, flowSeen_objs s centi⟩
  · have hr : flowRead s centi = flowSeen s centi :=
      (flowRead_low s centi hl).trans (if_neg (by simp [hn, ms]))
    have hf := flowSeen_low s centi hl
    rw [hn] at hf
    exact ⟨flowSeen s centi, (exec_flowLow centi s hon htach).trans (congrArg _ hr), hf, flowSeen_objs s centi⟩
  · have hr : flowRead s centi = flowTold s centi :=
      (flowRead_low s centi hl).trans (if_pos ⟨by rw [ha]; exact ht, he⟩)
    have hf := flowTold_frame s centi hl
    rw [ha, Option.getD_some, ← ha] at hf
    exact ⟨flowTold s centi, (exec_flowLow centi s hon htach).trans (congrArg _ hr), hf, flowTold_objs s centi⟩
  · have hr : flowRead s centi = flowSeen s centi := by
      refine (flowRead_low s centi hl).trans (if_neg ?_)
      rw [ha]
      rintro ⟨ht, he⟩
      rcases h with h | h
      · exact absurd ht (Nat.not_le_of_lt h)
      · simp_all
    have hf := flowSeen_low s centi hl
    rw [ha, Option.getD_some, ← ha] at hf
    exact ⟨flowSeen s centi, (exec_flowLow centi s hon htach).trans (congrArg _ hr), hf, flowSeen_objs s centi⟩
  · obtain ⟨hbus, hdead⟩ := efuse_opens c s h
    obtain ⟨hcount, hlog, hsame⟩ := efuseTripped_objs s
    refine ⟨fun hi => ⟨_, hbus hi, ?_, objGet_objPut_self _ _ _, (objGet_objPut_ne _ _ _ _ (by decide)).trans hcount,
      hlog.of_obs rfl, (hsame.mono (by decide)).objPut _ _ (by decide)⟩,
      fun hi => ⟨_, hdead hi, efuseTripped_frame s, hcount, hlog, hsame⟩⟩
    rw [efuseTripped_frame]
    rfl
  · exact ⟨_, auxEfuseRetry_closes s hon ho ht, rfl, objGet_objPut_self _ _ _,
      (SameObjs.refl s _).of_dic (u := updIface (updPower s _) _) rfl |>.objPut _ _ (by decide)⟩
  · exact ⟨_, (monTxdFault_cases s).1 hon hr, lineFault_frame _ _ _ _, lineFault_objs (txReleased s) _ _ _⟩
  · exact ⟨_, (monTxdDriverRetry_cases true s).1 hr ht, rfl, lineClear_objs (txDriven s) 0⟩
  · exact (monTxdDriverRetry_cases false s).1 hr ht
  · exact ⟨_, (monRxdBreak_cases s).1 hon hr, lineFault_frame _ _ _ _, lineFault_objs (rxIgnored s true) _ _ _⟩
  · exact ⟨_, congrArg Host.Outcome.next (if_pos hr), rfl, lineClear_objs (rxIgnored s false) 1⟩
  · exact congrArg Host.Outcome.next (if_neg (by simp [hr]))
  · exact ⟨_, (timeSourceChange_cases b s).1 hon ht, frame_journal _ _ _,
      (objGet_journal _ _ _ _ (by decide) (by decide)).trans (objGet_objPut_self _ _ _), (logged_journal _ _ _).of_view rfl,
      ((SameObjs.refl s _).objPut _ _ (by decide)).journal _ _ (by decide)⟩

end Sys2Proof.Machine

/-!
Crossings that do not drain (O51).
-/

namespace Sys2Proof.Machine

/-! ### Links changed one by one -/

theorem linkOf_of_le (s : State) {k : Nat} (h : s.links.length ≤ k) : linkOf s k = {} := by
  simp [linkOf, List.getD, List.getElem?_eq_none h]

/-- A change of every link by itself, of the links below a number. -/
theorem linkOf_foldl_range (g : State → Nat → State) (φ : Nat → Link → Link) (P : State → Prop) (n : Nat)
    (hP : ∀ u k, P u → P (g u k)) (hself : ∀ u k, k < n → P u → linkOf (g u k) k = φ k (linkOf u k))
    (hne : ∀ u k j, j ≠ k → linkOf (g u k) j = linkOf u j) (s : State) (hs : P s) (k : Nat) :
    linkOf ((List.range n).foldl g s) k = if k < n then φ k (linkOf s k) else linkOf s k := by
  have hfold : ∀ l : List Nat, ∀ u, P u → P (l.foldl g u) := by
    intro l
    induction l with
    | nil => exact fun _ h => h
    | cons a l ih => exact fun u h => ih _ (hP u a h)
  induction n with
  | zero => rfl
  | succ n ih =>
    have ih := ih fun u i hi => hself u i (Nat.lt_succ_of_lt hi)
    rw [List.range_succ, List.foldl_append, List.foldl_cons, List.foldl_nil]
    by_cases hk : k = n
    · subst hk
      rw [hself _ _ (Nat.lt_succ_self _) (hfold _ s hs), ih]
      simp
    · rw [hne _ _ _ hk, ih]
      have h2 : k < n + 1 ↔ k < n := by omega
      simp only [h2]

/-! ### Flits sent again -/

/-- A link that sends an owed flit again. -/
def resentLink (now : Nat) (l : Link) (seq : Nat) : Link :=
  match l.unacked.find? (fun (u : Unacked) => u.seq == seq && decide (u.sends < 16)) with
  | none => l
  | some u =>
    match laneFor l u.body with
    | none => l
    | some i =>
      { enqueue l i seq with
        unacked := l.unacked.map (fun (u : Unacked) => if u.seq = seq then { u with sends := u.sends + 1, at_ := now } else u) }

theorem linkOf_resendFlit_self (s : State) (k seq : Nat) :
    linkOf (resendFlit s k seq) k = resentLink s.now (linkOf s k) seq := by
  cases hf : (linkOf s k).unacked.find? (fun (u : Unacked) => u.seq == seq && decide (u.sends < 16)) with
  | none => simp only [resendFlit, resentLink, hf]
  | some u =>
    have hk : k < s.links.length := by
      refine Nat.lt_of_not_le fun hle => ?_
      rw [linkOf_of_le s hle] at hf
      cases hf
    cases hl : laneFor (linkOf s k) u.body with
    | none => simp only [resendFlit, resentLink, hf, hl]
    | some i => simp only [resendFlit, resentLink, hf, hl, linkOf_objInc, linkOf_updLink_self _ _ _ hk]

theorem linkOf_resendFlit_ne (s : State) (k j seq : Nat) (h : j ≠ k) : linkOf (resendFlit s k seq) j = linkOf s j := by
  simp only [resendFlit]
  split
  · rfl
  · split
    · rfl
    · rw [linkOf_objInc, linkOf_updLink_ne _ _ _ _ h]

theorem sameObjs_resendFlit (s : State) (k seq : Nat) : SameObjs s (resendFlit s k seq) [Obj.flitRetries] := by
  simp only [resendFlit]
  split
  · exact SameObjs.refl _ _
  · split
    · exact SameObjs.refl _ _
    · exact ((SameObjs.refl s _).of_dic (u := updLink s k _) rfl).objInc _ (by decide)

theorem seqs_resentLink (now : Nat) (l : Link) (seq : Nat) :
    (resentLink now l seq).unacked.map Unacked.seq = l.unacked.map Unacked.seq := by
  unfold resentLink
  split
  · rfl
  · split
    · rfl
    · rw [List.map_map]
      refine List.map_congr_left fun u _ => ?_
      simp only [Function.comp]
      split <;> rfl

/-- A link that sends every owed flit again. -/
def allResent (now : Nat) (l : Link) (us : List Unacked) : Link := us.foldl (fun l u => resentLink now l u.seq) l

theorem seqs_allResent (now : Nat) (us : List Unacked) (l : Link) :
    (allResent now l us).unacked.map Unacked.seq = l.unacked.map Unacked.seq := by
  induction us generalizing l with
  | nil => rfl
  | cons u us ih => exact (ih _).trans (seqs_resentLink _ _ _)

/-- The flits that one link owes over a facet, sent again. -/
def facetOne (f : Nat) (s : State) (k : Nat) : State :=
  if (linkOf s k).outLanes.any (fun (l : Lane) => l.fibre / 8 == f) then
    (linkOf s k).unacked.foldl (fun s (u : Unacked) => resendFlit s k u.seq) s
  else s

/-- One link after its facet's crossing was reset. -/
def facetLink (f now : Nat) (l : Link) : Link :=
  if l.outLanes.any (fun (a : Lane) => a.fibre / 8 == f) then allResent now l l.unacked else l

theorem resendFlit_now (s : State) (k seq : Nat) : (resendFlit s k seq).now = s.now :=
  resendFlit_keeps State.now (fun _ _ => rfl) s k seq

theorem linkOf_foldl_resendFlit_self (us : List Unacked) (s : State) (k : Nat) :
    linkOf (us.foldl (fun s (u : Unacked) => resendFlit s k u.seq) s) k = allResent s.now (linkOf s k) us := by
  induction us generalizing s with
  | nil => rfl
  | cons u us ih => rw [List.foldl_cons, ih, resendFlit_now, linkOf_resendFlit_self]; rfl

theorem linkOf_foldl_resendFlit_ne (us : List Unacked) (s : State) (k j : Nat) (h : j ≠ k) :
    linkOf (us.foldl (fun s (u : Unacked) => resendFlit s k u.seq) s) j = linkOf s j := by
  induction us generalizing s with
  | nil => rfl
  | cons u us ih => rw [List.foldl_cons, ih, linkOf_resendFlit_ne _ _ _ _ h]

theorem linkOf_facetOne_self (f : Nat) (s : State) (k : Nat) :
    linkOf (facetOne f s k) k = facetLink f s.now (linkOf s k) := by
  unfold facetOne facetLink
  split
  · exact linkOf_foldl_resendFlit_self _ _ _
  · rfl

theorem linkOf_facetOne_ne (f : Nat) (s : State) (k j : Nat) (h : j ≠ k) : linkOf (facetOne f s k) j = linkOf s j := by
  unfold facetOne
  split
  · exact linkOf_foldl_resendFlit_ne _ _ _ _ h
  · rfl

theorem facetOne_keeps {γ : Type} (vw : State → γ) (hg : ∀ s t, vw (footDicLinks s t) = vw s) (f : Nat) (s : State) (k : Nat) :
    vw (facetOne f s k) = vw s := by
  unfold facetOne
  split
  · exact foldlState vw _ (fun u (a : Unacked) => resendFlit_keeps vw hg u k a.seq) _ _
  · rfl

theorem linkOf_facetResend (s : State) (f : Nat) {k : Nat} (hk : k < 64) :
    linkOf (facetResend s f) k = facetLink f s.now (linkOf s k) :=
  (linkOf_foldl_range (facetOne f) (fun _ => facetLink f s.now) (fun u => u.now = s.now) 64
    (fun u i hu => (facetOne_keeps State.now (fun _ _ => rfl) f u i).trans hu) (fun u i _ hu => hu ▸ linkOf_facetOne_self f u i)
    (fun u i j h => linkOf_facetOne_ne f u i j h) s rfl k).trans (if_pos hk)

theorem sameObjs_facetResend (s : State) (f : Nat) : SameObjs s (facetResend s f) [Obj.flitRetries] := by
  refine (SameObjs.refl s _).foldl (facetOne f) (fun u k => ?_) _
  unfold facetOne
  split
  · exact (SameObjs.refl u _).foldl _ (fun v (a : Unacked) => sameObjs_resendFlit v k a.seq) _
  · exact SameObjs.refl _ _

/-- A single owed flit that has sends left, and a lane to go on, is sent once more. -/
theorem allResent_single (now : Nat) (l : Link) (u : Unacked) (hu : l.unacked = [u]) (hs : u.sends < 16)
    (hl : (laneFor l u.body).isSome = true) : (allResent now l l.unacked).unacked = [{ u with sends := u.sends + 1, at_ := now }] := by
  obtain ⟨i, hi⟩ := Option.isSome_iff_exists.mp hl
  simp [allResent, resentLink, hu, hs, hi]

/-! ### An island reset -/

theorem smErase_smSet {α : Type} (m : SMap α) (k : Nat) (v : α) : smErase (smSet m k v) k = smErase m k := by
  induction m with
  | nil => simp [smSet, smErase]
  | cons e r ih =>
    obtain ⟨a, b⟩ := e
    simp only [smSet]
    split
    next h => simp [smErase, h]
    next h =>
      split
      · simp [smErase, h]
      · simp [smErase, h, ih]

theorem readCounts_wires (s : State) (k : Nat) :
    (readCounts s k).wires = smSet s.wires k { smGetD s.wires k {} with pulse := false, counts := [] } :=
  foldlState State.wires (fun s (e : Nat × Nat) => objAdd s e.1 e.2) (fun _ _ => rfl) _ _

theorem islandReset_wires (s : State) (i : Island) : (islandReset s i).wires = smErase s.wires (islandIx i) := by
  refine (congrArg (smErase · (islandIx i)) (readCounts_wires s (islandIx i))).trans ?_
  exact smErase_smSet _ _ _

theorem footDicWires_self (s : State) : footDicWires s s = s := rfl

theorem islandReset_frame (s : State) (i : Island) :
    islandReset s i = { s with dic := (islandReset s i).dic, wires := smErase s.wires (islandIx i) } := by
  rw [← islandReset_wires]
  exact (footDicWires_self _).symm.trans (islandReset_keeps (footDicWires · (islandReset s i)) (fun _ _ => rfl) s i)

theorem objGet_readCounts_ne (s : State) (k x : Nat) (h : x ∉ (smGetD s.wires k {}).counts.map Prod.fst) :
    objGet (readCounts s k) x = objGet s x := objGet_foldl_objAdd_ne _ _ _ h

theorem sameObjs_islandReset (s : State) (i : Island) : SameObjs s (islandReset s i) (islandObjs s i) :=
  fun x hx => objGet_readCounts_ne s (islandIx i) x hx

theorem counted_readCounts (s : State) (k key n : Nat) (h : (smGetD s.wires k {}).counts = [(key, n)]) :
    Counted s (readCounts s k) key n := by
  unfold readCounts
  dsimp only
  rw [h]
  exact objGet_objPut_self _ _ _

theorem counted_islandReset (s : State) (i : Island) (key n : Nat) (h : (smGetD s.wires (islandIx i) {}).counts = [(key, n)]) :
    Counted s (islandReset s i) key n := counted_readCounts s _ key n h

/-! ### What the reset of an island runs -/

theorem crossingDrain_channel (c : Nat) (s : State) :
    ((∀ since, (chanOf s c).dim = some (.retrain, since) → s.now < since + us 10) →
      exec (.crossingDrainTimeout (.channel c)) s = .next s)
    ∧ (∀ since, (chanOf s c).dim = some (.retrain, since) → since + us 10 ≤ s.now →
      exec (.crossingDrainTimeout (.channel c)) s = .next (islandReset (failReads s c) (.channel c))) := by
  have h : exec (.crossingDrainTimeout (.channel c)) s = .next (match (chanOf s c).dim with
    | some (.retrain, t) => if t + us 10 ≤ s.now then islandReset (failReads s c) (.channel c) else s
    | _ => s) := rfl
  rw [h]
  refine ⟨fun hw => ?_, fun since hd ht => ?_⟩
  · split
    next since hd => exact congrArg Host.Outcome.next (if_neg (Nat.not_le_of_lt (hw since hd)))
    next => rfl
  · rw [hd]
    exact congrArg Host.Outcome.next (if_pos ht)

/-- What ends one open read that a failed channel owed. -/
def readFailed (s : State) (x : Nat × StreamCtx × Req) : State :=
  match findCtx s x.1 x.2.1.d.queue x.2.1.d.seq with
  | some c => if c.reqs.any (fun (r : Req) => r.id == x.2.2.id) then finishReq s x.1 c x.2.2 (.fail 4 15) else s
  | none => s

theorem failReads_eq (s : State) (ch : Nat) :
    failReads s ch = (openReads s (fun _ c r => inChannel s ch c r)).foldl readFailed s := rfl

theorem failReads_single (s : State) (ch e : Nat) (x : StreamCtx) (r : Req) (q : StreamCtx)
    (h : openReads s (fun _ c r => inChannel s ch c r) = [(e, x, r)]) (hf : findCtx s e x.d.queue x.d.seq = some q)
    (hr : q.reqs.any (fun y => y.id == r.id) = true) : failReads s ch = finishReq s e q r (.fail 4 15) := by
  rw [failReads_eq, h, List.foldl_cons, List.foldl_nil, readFailed, hf]
  exact if_pos hr

/-! ### A crossing as a nanosecond passes -/

theorem settleWires_single (s : State) (k : Nat) (w : EventWire) (h : s.wires = [(k, w)]) : settleWires s = settleWire s k := by
  unfold settleWires
  rw [h]
  rfl

theorem smGetD_single {α : Type} (k : Nat) (v d : α) : smGetD [(k, v)] k d = v := by simp [smGetD, smGet]

theorem smSet_single {α : Type} (k : Nat) (v v' : α) : smSet [(k, v)] k v' = [(k, v')] := by simp [smSet]

/-- A crossing whose acknowledgement has come back. -/
def ackedWire (w : EventWire) : EventWire := { w with seen := w.toggle, ackAt := none, pulse := true }

theorem wireAcked_back (s : State) (k u : Nat) (w : EventWire) (h : s.wires = [(k, w)]) (ha : w.ackAt = some u) (hu : u ≤ s.now) :
    wireAcked s k = { s with wires := [(k, ackedWire w)] } := by
  unfold wireAcked
  simp only [h, smGetD_single, ha, Option.any_some, decide_eq_true hu, if_true, smSet_single]
  rfl

theorem wireAcked_out (s : State) (k u : Nat) (w : EventWire) (h : s.wires = [(k, w)]) (ha : w.ackAt = some u) (hu : s.now < u) :
    wireAcked s k = s := by
  unfold wireAcked
  simp only [h, smGetD_single, ha, Option.any_some, decide_eq_false (Nat.not_le_of_lt hu), Bool.false_eq_true, if_false]

theorem wireTaken_of_cores {s t : State} (h : t.cores = s.cores) (k : Nat) : wireTaken t k = wireTaken s k := by
  unfold wireTaken
  rw [h]

/-- The state one nanosecond on, with one crossing acknowledged. -/
def ackedLater (s : State) (k : Nat) (w : EventWire) : State := { oneLater s with wires := [(k, ackedWire w)] }

theorem settleWire_back (s : State) (k u : Nat) (w : EventWire) (h : s.wires = [(k, w)]) (ha : w.ackAt = some u) (hu : u ≤ s.now + 1) :
    settleWires (oneLater s) = if wireTaken s k then readCounts (ackedLater s k w) k else ackedLater s k w := by
  have hw : (oneLater s).wires = [(k, w)] := h
  rw [settleWires_single _ _ _ hw, settleWire_eq, wireAcked_back _ _ _ _ hw ha hu]
  have hp : (smGetD (ackedLater s k w).wires k {}).pulse = true := by
    rw [ackedLater, smGetD_single]
    rfl
  have ht : wireTaken (ackedLater s k w) k = wireTaken s k := rfl
  change (if (smGetD (ackedLater s k w).wires k {}).pulse && wireTaken (ackedLater s k w) k then readCounts (ackedLater s k w) k
    else ackedLater s k w) = _
  rw [hp, ht, Bool.true_and]

theorem settleWire_out (s : State) (k u : Nat) (w : EventWire) (h : s.wires = [(k, w)]) (ha : w.ackAt = some u) (hu : s.now + 1 < u)
    (hp : w.pulse = false) : settleWires (oneLater s) = oneLater s := by
  have hw : (oneLater s).wires = [(k, w)] := h
  rw [settleWires_single _ _ _ hw, settleWire_eq, wireAcked_out _ _ _ _ hw ha hu, hw, smGetD_single, hp]
  rfl

theorem tick_wires (s : State) : (tick s).wires = (settleWires (oneLater s)).wires := by
  rw [tick_eq]
  split
  · exact flitSlots_keeps State.wires (fun _ _ => rfl) _
  · rfl

theorem tick_dic (s : State) : (tick s).dic = (settleWires (oneLater s)).dic := by
  rw [tick_eq]
  split
  · exact flitSlots_keeps State.dic (fun _ _ => rfl) _
  · rfl

theorem wire_tick (s : State) (k : Nat) (w : EventWire) (hp : s.pending = []) (h : s.wires = [(k, w)]) :
    (∀ u, w.ackAt = some u → u ≤ s.now + 1 →
      (wireTaken s k = true →
        ∃ t, step s = .next t ∧ t.wires = [(k, { w with seen := w.toggle, ackAt := none, pulse := false, counts := [] })]
          ∧ (∀ key n, w.counts = [(key, n)] → Counted s t key n ∧ SameObjs s t [key]))
      ∧ (wireTaken s k = false →
        ∃ t, step s = .next t ∧ t.wires = [(k, { w with seen := w.toggle, ackAt := none, pulse := true })]
          ∧ t.dic = s.dic))
    ∧ (∀ u, w.ackAt = some u → s.now + 1 < u → w.pulse = false →
      ∃ t, step s = .next t ∧ t.wires = s.wires ∧ t.dic = s.dic) := by
  have hstep : step s = .next (tick s) := by rw [step, hp]
  refine ⟨fun u ha hu => ⟨fun ht => ⟨tick s, hstep, ?_, fun key n hc => ?_⟩, fun ht => ⟨tick s, hstep, ?_, ?_⟩⟩,
    fun u ha hu hpulse => ⟨tick s, hstep, ?_, ?_⟩⟩
  · rw [tick_wires, settleWire_back s k u w h ha hu, if_pos ht, readCounts_wires, ackedLater, smGetD_single, smSet_single]
    rfl
  · have hd : (tick s).dic = (readCounts (ackedLater s k w) k).dic := by
      rw [tick_dic, settleWire_back s k u w h ha hu, if_pos ht]
    have hcounts : (smGetD (ackedLater s k w).wires k {}).counts = [(key, n)] := by
      rw [ackedLater, smGetD_single]
      exact hc
    refine ⟨(objGet_congr _ _ _ hd).trans (counted_readCounts _ k key n hcounts), fun x hx => ?_⟩
    exact (objGet_congr _ _ _ hd).trans (objGet_readCounts_ne _ _ _ (by rw [hcounts]; exact hx))
  · rw [tick_wires, settleWire_back s k u w h ha hu, if_neg (by simp [ht])]
    rfl
  · rw [tick_dic, settleWire_back s k u w h ha hu, if_neg (by simp [ht])]
    rfl
  · rw [tick_wires, settleWire_out s k u w h ha hu hpulse]
    rfl
  · rw [tick_dic, settleWire_out s k u w h ha hu hpulse]
    rfl

/-! ### The obligation -/

/-- The fields that the reset of a facet's crossings changes. -/
def footFacet (s t : State) : State := { s with dic := t.dic, links := t.links, wires := t.wires }

theorem footFacet_self (s : State) : footFacet s s = s := rfl

theorem facetReset_frame (s : State) (f : Nat) : islandReset (facetResend s f) (.facet f) = { s with
    dic := (islandReset (facetResend s f) (.facet f)).dic, links := (islandReset (facetResend s f) (.facet f)).links
    wires := smErase s.wires (islandIx (.facet f)) } := by
  have hw : (facetResend s f).wires = s.wires := facetResend_keeps State.wires (fun _ _ => rfl) s f
  rw [← hw, ← islandReset_wires]
  have h1 := islandReset_keeps (footFacet · (islandReset (facetResend s f) (.facet f))) (fun _ _ => rfl) (facetResend s f) (.facet f)
  have h2 := facetResend_keeps (footFacet · (islandReset (facetResend s f) (.facet f))) (fun _ _ => rfl) s f
  exact (footFacet_self _).symm.trans (h1.trans h2)

/-- Settles O51: what each island owes ends by its block's rule, its crossings are read, and a crossing settles in a tick. -/
theorem crossingsDrainedOrFailed : Obligations.CrossingsDrainedOrFailed := by
  unfold Obligations.CrossingsDrainedOrFailed
  refine ⟨fun c s => ⟨(crossingDrain_channel c s).1, fun since hd ht => ⟨(crossingDrain_channel c s).2 since hd ht,
      fun h => by rw [failReads_eq, h]; rfl, fun e x r q h hf hr => failReads_single s c e x r q h hf hr⟩⟩,
    fun f s => ⟨_, rfl, facetReset_frame s f, ?_, fun k hk => ?_⟩, fun b i s h => ?_,
    fun i w s hp h => wire_tick s (islandIx i) w hp h⟩
  · have hw : (facetResend s f).wires = s.wires := facetResend_keeps State.wires (fun _ _ => rfl) s f
    have hi : islandObjs (facetResend s f) (.facet f) = islandObjs s (.facet f) := by rw [islandObjs, hw]; rfl
    refine SameObjs.trans ((sameObjs_facetResend s f).mono (by simp)) ?_
    have hr := sameObjs_islandReset (facetResend s f) (.facet f)
    rw [hi] at hr
    exact hr.mono (List.subset_cons_self _ _)
  · have hl : linkOf (islandReset (facetResend s f) (.facet f)) k = facetLink f s.now (linkOf s k) :=
      (islandReset_keeps (linkOf · k) (fun _ _ => rfl) _ _).trans (linkOf_facetResend s f hk)
    rw [hl]
    refine ⟨fun hn => if_neg (by simp [hn]), ?_, fun _ hy u hu hs hlane => ?_⟩
    · unfold facetLink
      split
      · exact seqs_allResent _ _ _
      · rfl
    · rw [facetLink, if_pos hy]
      exact allResent_single _ _ u hu hs hlane
  · refine ⟨islandReset s i, ?_, islandReset_frame s i, sameObjs_islandReset s i, fun key n => counted_islandReset s i key n⟩
    rcases h with rfl | rfl | rfl | rfl | rfl <;> rfl

end Sys2Proof.Machine

/-!
Runs of bytes written to the tile store and to LPDDR, line by line.
-/

namespace Sys2Proof.Machine

/-! ### A masked line that is a run of bytes -/

theorem memStoreMask_maskFrom_zero (n : Nat) (m : Mem) (a : Nat) (d : Bytes) (h : d.length = n) :
    memStoreMask m a (2 ^ n - 1) d = memStore m a d := by
  induction n generalizing m a d with
  | zero => rw [List.eq_nil_of_length_eq_zero h]; rfl
  | succ n ih =>
    cases d with
    | nil => cases h
    | cons b bs =>
      have hp : 0 < 2 ^ n := Nat.two_pow_pos n
      have h1 : (2 ^ (n + 1) - 1) % 2 = 1 := by omega
      have h2 : (2 ^ (n + 1) - 1) / 2 = 2 ^ n - 1 := by omega
      rw [memStoreMask, memStore, if_pos h1, h2]
      exact ih _ _ _ (Nat.succ.inj h)

theorem memStoreMask_maskFrom (b n : Nat) (m : Mem) (a : Nat) (d : Bytes) (h : d.length = n) :
    memStoreMask m a (maskFrom b n) (List.replicate b 0 ++ d) = memStore m (a + b) d := by
  induction b generalizing a with
  | zero => simpa [maskFrom] using memStoreMask_maskFrom_zero n m a d h
  | succ b ih =>
    have he : maskFrom (b + 1) n = 2 * maskFrom b n := by simp only [maskFrom, Nat.pow_succ]; ac_rfl
    have h1 : ¬ maskFrom (b + 1) n % 2 = 1 := by omega
    have h2 : maskFrom (b + 1) n / 2 = maskFrom b n := by omega
    rw [List.replicate_succ, List.cons_append, memStoreMask, if_neg h1, h2, ih]
    congr 1
    omega

theorem memStore_append (m : Mem) (a : Nat) (x y : Bytes) : memStore m a (x ++ y) = memStore (memStore m a x) (a + x.length) y := by
  induction x generalizing m a with
  | nil => rfl
  | cons b x ih =>
    rw [List.cons_append, memStore, ih, memStore, List.length_cons]
    congr 1
    omega

/-! ### The tile store -/

theorem tileBase_ge : lpddrSize ≤ tileBase := by decide

theorem writeLine_tile (s : State) (off mask : Nat) (data : Bytes) (poison : Bool) (h : tileBase ≤ off) :
    writeLine s off mask data poison = writeTileLine s (tileLine off) mask data poison :=
  if_neg (Nat.not_lt.mpr (tileBase_ge.trans h))

theorem writeRun_tile_keeps {γ : Type} (vw : State → γ) (hg : ∀ s t, vw (footTileTilePoison s t) = vw s) (k : Nat) (s : State) (off : Nat)
    (data : Bytes) (poison : Bool) (h : tileBase ≤ off) : vw (writeRun s off data poison k) = vw s := by
  induction k generalizing s off data with
  | zero => rfl
  | succ k ih =>
    rw [writeRun]
    dsimp only
    split
    · rfl
    · rw [ih _ _ _ (h.trans (Nat.le_add_right _ _)), writeLine_tile _ _ _ _ _ h]
      exact hg s (writeTileLine s _ _ _ _)

theorem writeBytes_tile_keeps {γ : Type} (vw : State → γ) (hg : ∀ s t, vw (footTileTilePoison s t) = vw s) (s : State) (off : Nat)
    (data : Bytes) (poison : Bool) (h : tileBase ≤ off) : vw (writeBytes s off data poison) = vw s :=
  writeRun_tile_keeps vw hg _ s off data poison h

theorem tileLine_place {off : Nat} (h : tileBase ≤ off) : 64 * tileLine off + off % 64 = off - tileBase := by
  simp only [tileLine, tileBase] at h ⊢
  omega

theorem writeRun_tile_bytes (k : Nat) (s : State) (off : Nat) (data : Bytes) (poison : Bool) (h : tileBase ≤ off)
    (hk : data.length = 0 ∨ data.length + off % 64 ≤ 64 * k) : (writeRun s off data poison k).tile = memStore s.tile (off - tileBase) data := by
  induction k generalizing s off data with
  | zero =>
    rw [List.eq_nil_of_length_eq_zero (by omega : data.length = 0)]
    rfl
  | succ k ih =>
    rw [writeRun]
    dsimp only
    split
    next he =>
      rw [List.isEmpty_iff.mp he]
      rfl
    next he =>
      have hlen : (data.take (min (64 - off % 64) data.length)).length = min (64 - off % 64) data.length := by simp
      have hmod : off % 64 < 64 := Nat.mod_lt _ (by decide)
      have hne : data.length ≠ 0 := fun h0 => he (List.isEmpty_iff.mpr (List.eq_nil_of_length_eq_zero h0))
      have hdrop : (data.drop (min (64 - off % 64) data.length)).length = 0
          ∨ (data.drop (min (64 - off % 64) data.length)).length + (off + min (64 - off % 64) data.length) % 64 ≤ 64 * k := by
        rw [List.length_drop]
        rcases Nat.le_total (64 - off % 64) data.length with hc | hc
        · rw [Nat.min_eq_left hc]; omega
        · rw [Nat.min_eq_right hc]; omega
      rw [ih _ _ _ (h.trans (Nat.le_add_right _ _)) hdrop, writeLine_tile _ _ _ _ _ h, writeTileLine,
        memStoreMask_maskFrom _ _ _ _ _ hlen, tileLine_place h]
      have happ := memStore_append s.tile (off - tileBase) (data.take (min (64 - off % 64) data.length))
        (data.drop (min (64 - off % 64) data.length))
      rw [List.take_append_drop, hlen] at happ
      rw [happ, Nat.sub_add_comm h]

/-- A run of bytes written to the tile store. -/
theorem writeBytes_tile (s : State) (off : Nat) (data : Bytes) (poison : Bool) (h : tileBase ≤ off) :
    (writeBytes s off data poison).tile = memStore s.tile (off - tileBase) data := by
  have hmod : off % 64 < 64 := Nat.mod_lt _ (by decide)
  exact writeRun_tile_bytes _ s off data poison h (by omega)

theorem memRead_memStore_getD (m : Mem) (a i : Nat) (bs : Bytes) (hi : i < bs.length) :
    memRead (memStore m a bs) (a + i) = bs.getD i 0 := by
  rw [memRead_memStore_in m a i bs hi]
  simp [List.getD, hi]

end Sys2Proof.Machine

/-!
The Onal monitor: its lines (O57) and its binary transfers (O58).
-/

namespace Sys2Proof.Machine

/-! ### Lines -/

theorem monLine_unheard (s : State) (sup : Bool) (run : State → State) (h : monHears s = false ∨ s.obs.xfer.isSome = true) :
    monLine s sup run = s := if_pos (by rcases h with h | h <;> simp [h])

theorem monLine_discarded (s : State) (sup : Bool) (run : State → State) (hh : monHears s = true) (hx : s.obs.xfer = none)
    (hc : core3 s = 2) : monLine s sup run = objInc s Obj.monLinesDiscarded :=
  (if_neg (by simp [hh, hx])).trans (if_pos hc)

theorem monLine_heard (s : State) (sup : Bool) (run : State → State) (hh : monHears s = true) (hx : s.obs.xfer = none)
    (hc : core3 s ≠ 2) : monLine s sup run
      = muted s (prompt (if core3 s = 0 ∧ !sup then emit s (.monitorStatus 0x0B) else run s)) :=
  (if_neg (by simp [hh, hx])).trans (if_neg hc)

theorem muted_driven (s t : State) (h : s.iface.txReleased = false) : muted s t = t := if_neg (by simp [h])

/-- What a line does while MON_TXD is driven. -/
theorem monLine_driven (s : State) (sup : Bool) (run : State → State) (hh : monHears s = true) (hx : s.obs.xfer = none)
    (hc : core3 s ≠ 2) (ht : s.iface.txReleased = false) (hsup : core3 s = 1 ∨ sup = true) :
    monLine s sup run = prompt (run s) := by
  rw [monLine_heard s sup run hh hx hc, muted_driven _ _ ht, if_neg]
  rintro ⟨h0, hs⟩
  rcases hsup with h | h
  · omega
  · simp [h] at hs

/-- The monitor's prompt (R439). -/
abbrev promptOut : Out := .monitor "onal> "

theorem prompt_idle (s : State) (h : s.obs.xfer = none) : prompt s = emit s promptOut := if_neg (by simp [h])

theorem prompt_emitted (s : State) (os : List Out) (h : s.obs.xfer = none) :
    prompt { s with out := s.out ++ os } = { s with out := s.out ++ (os ++ [promptOut]) } := by
  rw [prompt_idle { s with out := s.out ++ os } h, emit]
  simp only [List.append_assoc]

/-- A line whose answers go out on MON_TXD alone does nothing while the driver is released. -/
theorem muted_emitted (s : State) (os : List Out) (h : s.iface.txReleased = true) (hos : os.all isMonitor = true) :
    muted s { s with out := s.out ++ os } = s := by
  have hf : os.filter (fun o => !isMonitor o) = [] := by
    rw [List.filter_eq_nil_iff]
    intro o ho
    simp [List.all_eq_true.mp hos o ho]
  simp only [muted, h, if_true, List.drop_left, hf, List.append_nil]

/-- The value of an object as the monitor prints it. -/
def shownObj (s : State) (k : Nat) : Out :=
  .monitorValue k (match objRow k with
    | some row => if row.typ = .str then strRead k else natLe row.typ.len (objRead s k)
    | none => [])

theorem shownObj_emit (s : State) (os : List Out) (k : Nat) : shownObj { s with out := s.out ++ os } k = shownObj s k := rfl

theorem printObjs_eq (s : State) (ks : List Nat) : printObjs s ks = { s with out := s.out ++ ks.map (shownObj s) } := by
  have key : ∀ (ks : List Nat) (os : List Out), printObjs { s with out := s.out ++ os } ks
      = { s with out := s.out ++ (os ++ ks.map (shownObj s)) } := by
    intro ks
    induction ks with
    | nil => intro os; simp [printObjs]
    | cons k ks ih =>
      intro os
      have hstep : printObjs { s with out := s.out ++ os } (k :: ks)
          = printObjs { s with out := s.out ++ (os ++ [shownObj s k]) } ks := by
        rw [← List.append_assoc]
        rfl
      rw [hstep, ih]
      simp
  have h0 := key ks []
  simpa using h0

/-! ### The commands as lines -/

/-- Every line of Table MON-4 is a line of the monitor. -/
theorem exec_monLine (c : Instr) (k n e h : Nat) (v d : Bytes) (b : Bool)
    (hc : c ∈ [Instr.monHelp, .monId, .monState, .monRd k, .monJr n, .monSnap e h, .monWr k v b, .monToken, .monLoad n d]) :
    ∃ sup run, ∀ s, exec c s = .next (monLine s sup run) := by
  simp only [List.mem_cons, List.not_mem_nil, or_false] at hc
  rcases hc with rfl | rfl | rfl | rfl | rfl | rfl | rfl | rfl | rfl <;> exact ⟨_, _, fun _ => rfl⟩

theorem monLines_unserved (c : Instr) (n : Nat) (s : State) (hc : c ∈ [Instr.monHelp, .monJr n, .monToken])
    (hh : monHears s = true) (hx : s.obs.xfer = none) (h0 : core3 s = 0) (ht : s.iface.txReleased = false) :
    exec c s = .next { s with out := s.out ++ [.monitorStatus 0x0B, promptOut] } := by
  have hline : ∃ run, exec c s = .next (monLine s false run) := by
    simp only [List.mem_cons, List.not_mem_nil, or_false] at hc
    rcases hc with rfl | rfl | rfl <;> exact ⟨_, rfl⟩
  obtain ⟨run, hrun⟩ := hline
  rw [hrun, monLine_heard s false run hh hx (by omega), muted_driven _ _ ht, if_pos ⟨h0, rfl⟩]
  exact congrArg Host.Outcome.next (prompt_emitted s [.monitorStatus 0x0B] hx)

theorem exec_ownRow (k : Nat) (c : Instr) (v : Bytes) (b : Bool) (s : State) (h : (k, c) ∈ [
    (Obj.warmRestart, Instr.warmRestartWrite .monWrite v), (Obj.coldRestart, .coldRestartWrite .monWrite v),
    (Obj.thermalRestart, .thermalRestartWrite .monWrite v), (Obj.checkpointNow, .checkpointNow .monWrite v),
    (Obj.checkpointRestore, .checkpointRestore .monWrite v), (Obj.epochSwitch, .epochSwitch .monWrite v),
    (Obj.drainArm, .drainArm .monWrite v), (Obj.epochRelease, .epochRelease .monWrite v),
    (Obj.linkQuarantine, .linkQuarantineWrite .monWrite v), (Obj.memHashKey, .memHashKeyWrite .monWrite v b),
    (Obj.chipNumberLock, .chipNumberLockWrite .monWrite v b), (Obj.thermalRedOverride, .thermalRedOverrideWrite .monWrite v b),
    (Obj.lifecycleState, .lifecycleStateWrite .monWrite v b), (Obj.antiRollbackLevel, .antiRollbackLevelWrite .monWrite v b),
    (Obj.revokeRootKey, .revokeRootKey .monWrite v b), (Obj.debugLock, .debugLock .monWrite v),
    (Obj.snapshotTake, .snapshotTake .monWrite v)]) : exec c s = .next (monWrite k v b s) := by
  simp only [List.mem_cons, List.not_mem_nil, or_false, Prod.mk.injEq] at h
  rcases h with ⟨rfl, rfl⟩ | ⟨rfl, rfl⟩ | ⟨rfl, rfl⟩ | ⟨rfl, rfl⟩ | ⟨rfl, rfl⟩ | ⟨rfl, rfl⟩ | ⟨rfl, rfl⟩ | ⟨rfl, rfl⟩ | ⟨rfl, rfl⟩
    | ⟨rfl, rfl⟩ | ⟨rfl, rfl⟩ | ⟨rfl, rfl⟩ | ⟨rfl, rfl⟩ | ⟨rfl, rfl⟩ | ⟨rfl, rfl⟩ | ⟨rfl, rfl⟩ | ⟨rfl, rfl⟩ <;> rfl

theorem monWrite_plain (k : Nat) (v : Bytes) (b : Bool) (s : State) (h : ownRow k = false) :
    exec (.dicWrite .monWrite k v) s = .next (monWrite k v b s) := by
  have hd : exec (.dicWrite .monWrite k v) s = .next (writePlain .monWrite k v s) :=
    congrArg Host.Outcome.next (if_neg (by simp [h]))
  rw [hd]
  simp only [ownRow, List.contains_cons, List.contains_nil, Bool.or_false, Bool.or_eq_false_iff, beq_eq_false_iff_ne] at h
  simp only [monWrite, h, if_false]

/-- Settles O57: each line is the monitor's common line with a run of its own. -/
theorem monitorLinesAnswered : Obligations.MonitorLinesAnswered := by
  unfold Obligations.MonitorLinesAnswered
  refine ⟨fun c k n e h v d b s hc => ?_, fun n s hh hx h0 ht c hc => monLines_unserved c n s hc hh hx h0 ht,
    fun s hh hx h1 ht => ⟨?_, fun n hlo hhi => ?_, fun n hn => ?_⟩, fun s hh hx h1 ht => ⟨?_, ?_, ?_⟩,
    fun s hh hx hc ht => ⟨fun c ks h => ?_, fun k => ⟨_, rfl, ?_⟩, fun e h => ⟨_, rfl, ?_⟩, fun k v b ho =>
      ⟨_, monWrite_plain k v b s ho, ?_⟩, fun k c v b h => ⟨_, exec_ownRow k c v b s h, ?_⟩⟩, fun t => rfl⟩
  · obtain ⟨sup, run, hrun⟩ := exec_monLine c k n e h v d b hc
    refine ⟨fun hu => (hrun s).trans (congrArg _ (monLine_unheard s sup run hu)), fun hh hx h2 => ⟨_, (hrun s).trans (congrArg _
      (monLine_discarded s sup run hh hx h2)), rfl, objGet_objPut_self _ _ _, (SameObjs.refl _ _).objInc _ (by decide)⟩⟩
  · refine congrArg Host.Outcome.next ((monLine_driven s false _ hh hx (by omega) ht (.inl h1)).trans ?_)
    exact prompt_emitted s [.monitor monNames] hx
  · refine congrArg Host.Outcome.next ((monLine_driven s false _ hh hx (by omega) ht (.inl h1)).trans ?_)
    rw [if_pos ⟨hlo, hhi⟩]
    exact prompt_emitted s [.monitorEntries (newestEntries s n)] hx
  · refine congrArg Host.Outcome.next ((monLine_driven s false _ hh hx (by omega) ht (.inl h1)).trans ?_)
    rw [if_neg (by omega)]
    exact prompt_emitted s [.monitorStatus 0x03] hx
  · refine congrArg Host.Outcome.next ((monLine_heard s false _ hh hx (by omega)).trans ?_)
    rw [if_neg (by omega)]
    exact (congrArg (muted s) (prompt_emitted s [.monitor monNames] hx)).trans (muted_emitted s _ ht (by decide))
  · refine congrArg Host.Outcome.next ((monLine_heard s true _ hh hx (by omega)).trans ?_)
    rw [if_neg (by omega), printObjs_eq]
    exact (congrArg (muted s) (prompt_emitted s _ hx)).trans (muted_emitted s _ ht (by simp [shownObj, isMonitor]))
  · refine congrArg Host.Outcome.next ((monLine_heard s true _ hh hx (by omega)).trans ?_)
    rw [if_neg (by omega), printObjs_eq]
    exact (congrArg (muted s) (prompt_emitted s _ hx)).trans (muted_emitted s _ ht (by simp [shownObj, isMonitor]))
  · have hline : exec c s = .next (monLine s true (printObjs · ks)) := by
      rcases h with ⟨rfl, rfl⟩ | ⟨rfl, rfl⟩ <;> rfl
    rw [hline, monLine_driven s true _ hh hx hc ht (.inr rfl), printObjs_eq, prompt_emitted _ _ hx, List.append_assoc]
    rfl
  · exact congrArg Host.Outcome.next (monLine_driven s true _ hh hx hc ht (.inr rfl))
  · exact congrArg Host.Outcome.next (monLine_driven s true _ hh hx hc ht (.inr rfl))
  · exact congrArg Host.Outcome.next (monLine_driven s true _ hh hx hc ht (.inr rfl))
  · exact congrArg Host.Outcome.next (monLine_driven s true _ hh hx hc ht (.inr rfl))

end Sys2Proof.Machine

/-!
The monitor's binary transfers (O58).
-/

namespace Sys2Proof.Machine

/-! ### A transfer that starts, and one that ends -/

theorem monLine_started (s : State) (sup : Bool) (kind total : Nat) (digest : Bytes) (run : State → State) (hh : monHears s = true)
    (hx : s.obs.xfer = none) (hc : core3 s ≠ 2) (ht : s.iface.txReleased = false) (hsup : core3 s = 1 ∨ sup = true)
    (hr : run s = startBinary s kind total digest) : monLine s sup run = startBinary s kind total digest := by
  rw [monLine_driven s sup run hh hx hc ht hsup, hr]
  rfl

theorem monLine_status (s : State) (sup : Bool) (n : Nat) (run : State → State) (hh : monHears s = true)
    (hx : s.obs.xfer = none) (hc : core3 s ≠ 2) (ht : s.iface.txReleased = false) (hsup : core3 s = 1 ∨ sup = true)
    (hr : run s = emit s (.monitorStatus n)) :
    monLine s sup run = { s with out := s.out ++ [.monitorStatus n, promptOut] } := by
  rw [monLine_driven s sup run hh hx hc ht hsup, hr]
  exact prompt_emitted s [.monitorStatus n] hx

/-- What MON_LOAD answers when its line is served. -/
def loadAnswer (n : Nat) (d : Bytes) (s : State) : State :=
  if !s.seqs.recovery && core3 s = 0 then emit s (.monitorStatus 0x0B)
  else if !s.seqs.recovery && !(objGet s Obj.debugUnlocked == 1 && s.sec.monitorWrite) then emit s (.monitorStatus 0x05)
  else if !s.queues.isEmpty then emit s (.monitorStatus 0x08)
  else if n = 0 ∨ 67108864 < n then emit s (.monitorStatus 0x03)
  else startBinary s 1 n d

theorem exec_monLoad (n : Nat) (d : Bytes) (s : State) : exec (.monLoad n d) s = .next (monLine s true (loadAnswer n d)) := rfl

/-- The rules of FirmwareBank decide about a load that is allowed. -/
theorem loadAnswer_allowed (n : Nat) (d : Bytes) (s : State)
    (h : s.seqs.recovery = true ∨ (core3 s = 1 ∧ objGet s Obj.debugUnlocked = 1 ∧ s.sec.monitorWrite = true)) :
    loadAnswer n d s = if !s.queues.isEmpty then emit s (.monitorStatus 0x08)
      else if n = 0 ∨ 67108864 < n then emit s (.monitorStatus 0x03) else startBinary s 1 n d := by
  unfold loadAnswer
  rcases h with h | ⟨hc, hu, hm⟩
  · simp only [h, Bool.not_true, Bool.false_and, Bool.false_eq_true, if_false]
  · simp only [hc, hu, hm, beq_self_eq_true, Bool.and_true, Bool.not_true, Bool.and_false, Bool.false_eq_true, if_false,
      Nat.one_ne_zero, decide_false]

/-- A transfer over: its answer and the prompt. -/
theorem endBinary_eq (s : State) (n : Nat) : endBinary s n = { s with
    out := s.out ++ [.monitorStatus n, promptOut], obs := { s.obs with xfer := none, xferDigest := [], xferBad := 0 } } :=
  prompt_emitted { s with obs := { s.obs with xfer := none, xferDigest := [], xferBad := 0 } } [.monitorStatus n] rfl

/-! ### Blocks -/

/-- A good block taken. -/
def blockTaken (s : State) (kind total : Nat) (all : Bytes) : State :=
  emit { s with obs := { s.obs with xfer := some (kind, total, all), xferBad := 0, xferLast := s.now } } (.monitorBlock true)

/-- A bad block asked for again. -/
def blockRefused (s : State) : State :=
  emit { s with obs := { s.obs with xferBad := s.obs.xferBad + 1, xferLast := s.now } } (.monitorBlock false)

theorem exec_monitorBlock (data : Bytes) (good : Bool) (s : State) (hh : monHears s = true) (hc : core3 s ≠ 2)
    (ht : s.iface.txReleased = false) : exec (.monitorBlock data good) s = .next (takeBlock s data good) :=
  congrArg Host.Outcome.next ((if_pos ⟨hh, hc⟩).trans (muted_driven _ _ ht))

theorem takeBlock_eq (s : State) (data have_ : Bytes) (good : Bool) (kind total : Nat) (hx : s.obs.xfer = some (kind, total, have_)) :
    takeBlock s data good = if good = true ∧ data.length = min 1024 (total - have_.length) then
        if (have_ ++ data).length < total then blockTaken s kind total (have_ ++ data)
        else if kind = 0 then takeToken (blockTaken s kind total (have_ ++ data)) (have_ ++ data)
        else takeLoad (blockTaken s kind total (have_ ++ data)) (have_ ++ data)
      else if 8 ≤ s.obs.xferBad + 1 then endBinary (blockRefused s) 0x0E else blockRefused s := by
  unfold takeBlock
  rw [hx]
  rfl

theorem muted_self (s : State) : muted s s = s := by
  unfold muted
  split
  · simp
  · rfl

theorem monitorBlock_idle (data : Bytes) (good : Bool) (s : State) (h : monHears s = false ∨ core3 s = 2 ∨ s.obs.xfer = none) :
    exec (.monitorBlock data good) s = .next s := by
  refine congrArg Host.Outcome.next ?_
  split
  next hc =>
    have hx : s.obs.xfer = none := by
      rcases h with h | h | h
      · simp [h] at hc
      · exact absurd h hc.2
      · exact h
    have hb : takeBlock s data good = s := by
      unfold takeBlock
      rw [hx]
    rw [hb, muted_self]
  next => rfl

/-! ### Tokens -/

theorem unlock_sec (s : State) (t : Bytes) :
    (unlock s t).sec = { (measEvent s 0x20 (natLe 1 1)).sec with monitorWrite := natBit 16 (leNat (t.take 8)) } := by
  unfold unlock
  dsimp only
  rw [drawNonce_keeps State.sec (fun _ _ => rfl), journal_keeps State.sec (fun _ _ => rfl)]
  rfl

theorem unlock_free (s : State) (t : Bytes) : (unlock s t).free = s.free + 1 := by
  unfold unlock drawNonce
  dsimp only
  rw [objPut_keeps State.free (fun _ _ => rfl), freeStep, journal_keeps State.free (fun _ _ => rfl),
    measEvent_keeps State.free (fun _ _ => rfl), updSec_keeps State.free (fun _ _ => rfl), objPut_keeps State.free (fun _ _ => rfl)]

/-- The state of an unlock before its nonce is drawn. -/
def unlocking (s : State) (t : Bytes) : State :=
  measEvent (updSec (objPut s Obj.debugUnlocked 1) (fun x => { x with monitorWrite := natBit 16 (leNat (t.take 8)) })) 0x20 (natLe 1 1)

theorem unlock_eq (s : State) (t : Bytes) :
    unlock s t = drawNonce (journal (unlocking s t) .debugUnlocked [boolNat (natBit 16 (leNat (t.take 8)))]) := rfl

theorem objGet_unlocking (s : State) (t : Bytes) (k : Nat) : objGet (unlocking s t) k = objGet (objPut s Obj.debugUnlocked 1) k :=
  (measEvent_keeps (objGet · k) (fun _ _ => rfl) _ _ _).trans (updSec_keeps (objGet · k) (fun _ _ => rfl) _ _)

theorem sameObjs_unlock (s : State) (t : Bytes) : SameObjs s (unlock s t) ([Obj.debugUnlocked, Obj.debugNonce] ++ journalObjs) := by
  have h1 : SameObjs s (unlocking s t) ([Obj.debugUnlocked, Obj.debugNonce] ++ journalObjs) := fun k hk =>
    (objGet_unlocking s t k).trans (((SameObjs.refl s _).objPut Obj.debugUnlocked 1 (by decide)) k hk)
  rw [unlock_eq, drawNonce]
  exact SameObjs.objPut ((h1.journal _ _ (by decide)).of_dic (freeStep_keeps State.dic (fun _ _ => rfl) _)) _ _ (by decide)

theorem objGet_unlock_unlocked (s : State) (t : Bytes) : objGet (unlock s t) Obj.debugUnlocked = 1 := by
  rw [unlock_eq, drawNonce, objGet_objPut_ne _ _ _ _ (by decide), objGet_freeStep, objGet_journal _ _ _ _ (by decide) (by decide),
    objGet_unlocking, objGet_objPut_self]

theorem unlocking_free (s : State) (t : Bytes) : (unlocking s t).free = s.free :=
  (measEvent_keeps State.free (fun _ _ => rfl) _ _ _).trans (updSec_keeps State.free (fun _ _ => rfl) _ _)

theorem freeNow_congr {s t : State} (h : t.free = s.free) : freeNow t = freeNow s := by
  unfold freeNow
  rw [h]

theorem objGet_unlock_nonce (s : State) (t : Bytes) : objGet (unlock s t) Obj.debugNonce = (freeNow s).toNat := by
  rw [unlock_eq, drawNonce, objGet_objPut_self,
    freeNow_congr ((journal_keeps State.free (fun _ _ => rfl) _ _ _).trans (unlocking_free s t))]

theorem tokenRefused_objs (s : State) : Counted s (tokenRefused s) Obj.authFailures 1
    ∧ objGet (tokenRefused s) Obj.debugNonce = (freeNow s).toNat
    ∧ SameObjs s (tokenRefused s) [Obj.authFailures, Obj.debugNonce] ∧ (tokenRefused s).free = s.free + 1 :=
  ⟨(objGet_objPut_ne _ _ _ _ (by decide)).trans (objGet_objPut_self _ _ _), objGet_objPut_self _ _ _,
    ((SameObjs.refl s _).objInc _ (by decide)).of_dic (freeStep_keeps State.dic (fun _ _ => rfl) _) |>.objPut _ _ (by decide), rfl⟩

theorem tokenOk_congr {s t : State} (h : t.dic = s.dic) (d : Bytes) : tokenOk t d = tokenOk s d := by
  simp only [tokenOk, rootKeyOk, lifeAdmitsDebug, objGet_congr s t _ h]

theorem takeToken_eq (s : State) (d : Bytes) :
    takeToken s d = if tokenOk s d then endBinary (unlock s d) 0 else endBinary (tokenRefused s) 0x08 := rfl

theorem blockTaken_dic (s : State) (kind total : Nat) (d : Bytes) : (blockTaken s kind total d).dic = s.dic := rfl

theorem token_frame (s : State) (kind total : Nat) (d : Bytes) : takeToken (blockTaken s kind total d) d = { s with
    free := (takeToken (blockTaken s kind total d) d).free, out := (takeToken (blockTaken s kind total d) d).out
    dic := (takeToken (blockTaken s kind total d) d).dic, sec := (takeToken (blockTaken s kind total d) d).sec
    obs := (takeToken (blockTaken s kind total d) d).obs } :=
  takeToken_keeps (foot5_12 · (takeToken (blockTaken s kind total d) d)) (fun _ _ => rfl) (blockTaken s kind total d) d

/-- An accepted token: the block, the answer, and the unlock of R397. -/
theorem token_accepted (s : State) (kind total : Nat) (d : Bytes) (ho : tokenOk s d = true) :
    ∃ t, takeToken (blockTaken s kind total d) d = t
      ∧ t = { s with free := s.free + 1, out := s.out ++ [.monitorBlock true, .monitorStatus 0, promptOut], dic := t.dic,
                     sec := t.sec, obs := t.obs }
      ∧ t.sec = { (measEvent s 0x20 (natLe 1 1)).sec with monitorWrite := natBit 16 (leNat (d.take 8)) }
      ∧ objGet t Obj.debugUnlocked = 1 ∧ objGet t Obj.debugNonce = (freeNow s).toNat ∧ t.obs.xfer = none
      ∧ SameObjs s t ([Obj.debugUnlocked, Obj.debugNonce] ++ journalObjs) := by
  have hf := token_frame s kind total d
  have he : takeToken (blockTaken s kind total d) d = endBinary (unlock (blockTaken s kind total d) d) 0 :=
    (takeToken_eq _ _).trans (if_pos ((tokenOk_congr (blockTaken_dic s kind total d) d).trans ho))
  rw [he] at hf
  have hout : (endBinary (unlock (blockTaken s kind total d) d) 0).out
      = s.out ++ [.monitorBlock true, .monitorStatus 0, promptOut] := by
    rw [endBinary_eq]
    dsimp only
    rw [unlock_keeps State.out (fun _ _ => rfl)]
    simp [blockTaken, emit]
  have hfree : (endBinary (unlock (blockTaken s kind total d) d) 0).free = s.free + 1 :=
    (endBinary_keeps State.free (fun _ _ => rfl) _ _).trans (unlock_free _ _)
  have hobj (k : Nat) : objGet (endBinary (unlock (blockTaken s kind total d) d) 0) k
      = objGet (unlock (blockTaken s kind total d) d) k := endBinary_keeps (objGet · k) (fun _ _ => rfl) _ _
  rw [hout, hfree] at hf
  refine ⟨_, he, hf, ?_, (hobj _).trans (objGet_unlock_unlocked _ _), (hobj _).trans (objGet_unlock_nonce _ _), ?_, fun k hk =>
    (hobj k).trans (sameObjs_unlock _ _ k hk)⟩
  · exact (endBinary_keeps State.sec (fun _ _ => rfl) _ _).trans (unlock_sec _ _)
  · rw [endBinary_eq]

/-- A refused token is counted. -/
theorem token_refused (s : State) (kind total : Nat) (d : Bytes) (ho : tokenOk s d = false) :
    ∃ t, takeToken (blockTaken s kind total d) d = t
      ∧ t = { s with free := s.free + 1, out := s.out ++ [.monitorBlock true, .monitorStatus 0x08, promptOut], dic := t.dic,
                     obs := t.obs }
      ∧ Counted s t Obj.authFailures 1 ∧ objGet t Obj.debugNonce = (freeNow s).toNat ∧ t.obs.xfer = none
      ∧ SameObjs s t [Obj.authFailures, Obj.debugNonce] := by
  obtain ⟨hcount, hnonce, hsame, hfree⟩ := tokenRefused_objs (blockTaken s kind total d)
  have hf := token_frame s kind total d
  have he : takeToken (blockTaken s kind total d) d = endBinary (tokenRefused (blockTaken s kind total d)) 0x08 :=
    (takeToken_eq _ _).trans (if_neg (by rw [tokenOk_congr (blockTaken_dic s kind total d) d, ho]; exact Bool.false_ne_true))
  rw [he] at hf
  have hout : (endBinary (tokenRefused (blockTaken s kind total d)) 0x08).out
      = s.out ++ [.monitorBlock true, .monitorStatus 0x08, promptOut] := by
    rw [endBinary_eq]
    dsimp only
    rw [tokenRefused_keeps State.out (fun _ _ => rfl)]
    simp [blockTaken, emit]
  have hfree' : (endBinary (tokenRefused (blockTaken s kind total d)) 0x08).free = s.free + 1 :=
    (endBinary_keeps State.free (fun _ _ => rfl) _ _).trans hfree
  have hsec : (endBinary (tokenRefused (blockTaken s kind total d)) 0x08).sec = s.sec :=
    (endBinary_keeps State.sec (fun _ _ => rfl) _ _).trans (tokenRefused_keeps State.sec (fun _ _ => rfl) _)
  have hobj (k : Nat) : objGet (endBinary (tokenRefused (blockTaken s kind total d)) 0x08) k
      = objGet (tokenRefused (blockTaken s kind total d)) k := endBinary_keeps (objGet · k) (fun _ _ => rfl) _ _
  rw [hout, hfree', hsec] at hf
  refine ⟨_, he, hf, (hobj _).trans hcount, (hobj _).trans hnonce, ?_, fun k hk => (hobj k).trans (hsame k hk)⟩
  rw [endBinary_eq]

/-! ### Firmware banks -/

/-- A bank that passes its rules: staged outside recovery, and journalled. -/
def loadStaged (s : State) (image : Bytes) : State :=
  journal (if s.seqs.recovery then s else writeBytes s tileBase image false) .domainCommitted
    [Obj.firmwareBank, 2, 0, 1, shaNat [], shaNat image]

theorem takeLoad_eq (s : State) (image : Bytes) : takeLoad s image
    = if sha256 image ≠ s.obs.xferDigest then endBinary s 0x0A
      else if updateRule s image ≠ 0 then endBinary s 0x08
      else endBinary (startUpdate (loadStaged s image)) 0 := rfl

theorem updateRule_eq_zero (s : State) (image : Bytes) : updateRule s image = 0 ↔ s.queues = [] := by
  unfold updateRule
  cases s.queues <;> simp

theorem load_refused (s : State) (kind total : Nat) (d : Bytes) (h : sha256 d ≠ s.obs.xferDigest ∨ s.queues ≠ []) :
    ∃ t, takeLoad (blockTaken s kind total d) d = t
      ∧ t = { s with out := s.out ++ [.monitorBlock true, .monitorStatus (if sha256 d = s.obs.xferDigest then 0x08 else 0x0A),
                promptOut], obs := t.obs }
      ∧ t.obs.xfer = none := by
  have he : takeLoad (blockTaken s kind total d) d
      = endBinary (blockTaken s kind total d) (if sha256 d = s.obs.xferDigest then 0x08 else 0x0A) := by
    have hd : (blockTaken s kind total d).obs.xferDigest = s.obs.xferDigest := rfl
    rw [takeLoad_eq, hd]
    by_cases hs : sha256 d = s.obs.xferDigest
    · have hq : updateRule (blockTaken s kind total d) d ≠ 0 := fun h0 =>
        h.elim (fun h => h hs) (fun h => h ((updateRule_eq_zero _ d).mp h0))
      rw [if_neg (fun h => h hs), if_pos hq, if_pos hs]
    · rw [if_pos hs, if_neg hs]
  refine ⟨_, he, ?_, ?_⟩
  · rw [endBinary_eq]
    simp [blockTaken, emit]
  · rw [endBinary_eq]

/-- The fields that a bank received by the monitor changes. -/
def footLoad (s t : State) : State :=
  { s with out := t.out, dic := t.dic, tile := t.tile, tilePoison := t.tilePoison, obs := t.obs }

theorem loadStaged_keeps {γ : Type} (vw : State → γ) (hg : ∀ s t, vw (footLoad s t) = vw s) (s : State) (d : Bytes) :
    vw (loadStaged s d) = vw s := by
  refine (journal_keeps vw (fun s t => hg s (footDicObs s t)) _ _ _).trans ?_
  split
  · rfl
  · exact writeBytes_tile_keeps vw (fun s t => hg s (footTileTilePoison s t)) s _ _ _ (Nat.le_refl _)

theorem loadStaged_field {γ : Type} (vw : State → γ) (hg : ∀ s t, vw (footDicObs s t) = vw s) (s : State) (d : Bytes) :
    vw (loadStaged s d) = vw (if s.seqs.recovery then s else writeBytes s tileBase d false) := journal_keeps vw hg _ _ _

/-- A bank taken: staged, and its update started. -/
def loadTaken (s : State) (kind total : Nat) (d : Bytes) : State :=
  endBinary (startUpdate (loadStaged (blockTaken s kind total d) d)) 0

theorem load_accepted_eq (s : State) (kind total : Nat) (d : Bytes) (hs : sha256 d = s.obs.xferDigest) (hq : s.queues = []) :
    takeLoad (blockTaken s kind total d) d = loadTaken s kind total d := by
  rw [takeLoad_eq, if_neg (fun h => h hs), if_neg (fun h => h ((updateRule_eq_zero _ d).mpr hq))]
  rfl

theorem loadTaken_keeps {γ : Type} (vw : State → γ) (hg : ∀ s t, vw (footLoad s t) = vw s) (s : State) (kind total : Nat) (d : Bytes) :
    vw (loadTaken s kind total d) = vw s :=
  (endBinary_keeps vw (fun s t => hg s (footOutObs s t)) _ _).trans ((startUpdate_keeps vw (fun s t => hg s (footDic s t)) _).trans
    ((loadStaged_keeps vw hg _ _).trans (hg s (blockTaken s kind total d))))

theorem footLoad_self (s : State) : footLoad s s = s := rfl

theorem loadTaken_out (s : State) (kind total : Nat) (d : Bytes) : (loadTaken s kind total d).out
    = s.out ++ [.monitorBlock true, .monitorStatus 0, promptOut] := by
  have h : (startUpdate (loadStaged (blockTaken s kind total d) d)).out = s.out ++ [.monitorBlock true] := by
    rw [startUpdate_keeps State.out (fun _ _ => rfl), loadStaged_field State.out (fun _ _ => rfl)]
    split
    · rfl
    · exact writeBytes_tile_keeps State.out (fun _ _ => rfl) _ _ _ _ (Nat.le_refl _)
  rw [loadTaken, endBinary_eq]
  dsimp only
  rw [h, List.append_assoc]
  rfl

theorem loadTaken_memory {γ : Type} (vw : State → γ) (hg : ∀ s t, vw (footDicObs s t) = vw s) (ho : ∀ s t, vw (footOut s t) = vw s)
    (s : State) (kind total : Nat) (d : Bytes) : vw (loadTaken s kind total d)
      = vw (if s.seqs.recovery then blockTaken s kind total d else writeBytes (blockTaken s kind total d) tileBase d false) := by
  have hend (u : State) (n : Nat) : vw (endBinary u n) = vw u := endBinary_keeps vw (fun s t => (ho _ t).trans (hg s (footObs s t))) u n
  rw [loadTaken, hend, startUpdate_keeps vw (fun s t => hg s (footDic s t)), loadStaged_field vw hg]
  rfl

theorem sameObjs_loadTaken (s : State) (kind total : Nat) (d : Bytes) :
    SameObjs s (loadTaken s kind total d) (Obj.firmwareUpdateState :: journalObjs) := by
  have hw : (if (blockTaken s kind total d).seqs.recovery then blockTaken s kind total d
      else writeBytes (blockTaken s kind total d) tileBase d false).dic = s.dic := by
    split
    · rfl
    · exact writeBytes_tile_keeps State.dic (fun _ _ => rfl) _ _ _ _ (Nat.le_refl _)
  have h1 := (SameObjs.refl s (Obj.firmwareUpdateState :: journalObjs)).of_dic hw
  have h2 : SameObjs s (startUpdate (loadStaged (blockTaken s kind total d) d)) (Obj.firmwareUpdateState :: journalObjs) :=
    (h1.journal _ _ (by decide)).objPut _ _ (by decide)
  exact h2.of_dic (endBinary_keeps State.dic (fun _ _ => rfl) _ _)

theorem load_accepted (s : State) (kind total : Nat) (d : Bytes) (hs : sha256 d = s.obs.xferDigest) (hq : s.queues = []) :
    ∃ t, takeLoad (blockTaken s kind total d) d = t
      ∧ t = { s with out := s.out ++ [.monitorBlock true, .monitorStatus 0, promptOut], dic := t.dic, tile := t.tile,
                     tilePoison := t.tilePoison, obs := t.obs }
      ∧ objGet t Obj.firmwareUpdateState = 1 ∧ t.obs.xfer = none
      ∧ (s.seqs.recovery = false → ∀ i, i < d.length → memRead t.tile i = d.getD i 0)
      ∧ (s.seqs.recovery = true → t.tile = s.tile ∧ t.tilePoison = s.tilePoison)
      ∧ SameObjs s t (Obj.firmwareUpdateState :: journalObjs) := by
  have hf : loadTaken s kind total d = footLoad s (loadTaken s kind total d) :=
    (footLoad_self _).symm.trans (loadTaken_keeps (footLoad · (loadTaken s kind total d)) (fun _ _ => rfl) s kind total d)
  refine ⟨_, load_accepted_eq s kind total d hs hq, ?_, ?_, ?_, fun hr i hi => ?_, fun hr => ⟨?_, ?_⟩, sameObjs_loadTaken s kind total d⟩
  · rw [← loadTaken_out s kind total d]
    exact hf
  · exact (endBinary_keeps (objGet · _) (fun _ _ => rfl) _ _).trans (objGet_objPut_self _ _ _)
  · rw [loadTaken, endBinary_eq]
  · rw [loadTaken_memory State.tile (fun _ _ => rfl) (fun _ _ => rfl), if_neg (by simp [hr]),
      writeBytes_tile _ _ _ _ (Nat.le_refl _), Nat.sub_self]
    have hm := memRead_memStore_getD (blockTaken s kind total d).tile 0 i d hi
    rwa [Nat.zero_add] at hm
  · rw [loadTaken_memory State.tile (fun _ _ => rfl) (fun _ _ => rfl), if_pos hr]
    rfl
  · rw [loadTaken_memory State.tilePoison (fun _ _ => rfl) (fun _ _ => rfl), if_pos hr]
    rfl

/-! ### The obligation -/

/-- Settles O58: a block is taken, asked for again, or ends its transfer; a whole token or bank is judged by its rules. -/
theorem monitorTransfersTaken : Obligations.MonitorTransfersTaken := by
  unfold Obligations.MonitorTransfersTaken
  refine ⟨fun s hh hx ht => ⟨fun hc => ?_, fun n d hc ha => ⟨fun hq hlo hhi => ?_, fun hq => ?_, fun hq hn => ?_⟩,
      fun n d hr h0 => ?_, fun n d hr h1 hu => ?_⟩, monitorBlock_idle,
    fun data have_ all good kind total s hh hc ht hx hall => ?_, fun s => ⟨fun hx hl ht => ?_, fun hx hl ht => ?_, fun h => ?_⟩⟩
  · exact congrArg Host.Outcome.next (monLine_started s false 0 7920 [] _ hh hx (by omega) ht (.inl hc) rfl)
  · rw [exec_monLoad]
    refine congrArg Host.Outcome.next (monLine_started s true 1 n d _ hh hx hc ht (.inr rfl) ?_)
    rw [loadAnswer_allowed n d s ha, if_neg (by simp [hq]), if_neg (by omega)]
  · rw [exec_monLoad]
    refine congrArg Host.Outcome.next (monLine_status s true _ _ hh hx hc ht (.inr rfl) ?_)
    rw [loadAnswer_allowed n d s ha, if_pos (by simpa using hq)]
  · rw [exec_monLoad]
    refine congrArg Host.Outcome.next (monLine_status s true _ _ hh hx hc ht (.inr rfl) ?_)
    rw [loadAnswer_allowed n d s ha, if_neg (by simp [hq]), if_pos hn]
  · rw [exec_monLoad]
    refine congrArg Host.Outcome.next (monLine_status s true _ _ hh hx (by omega) ht (.inr rfl) ?_)
    exact if_pos (by simp [hr, h0])
  · rw [exec_monLoad]
    refine congrArg Host.Outcome.next (monLine_status s true _ _ hh hx (by omega) ht (.inr rfl) ?_)
    refine (if_neg (by simp [h1])).trans (if_pos ?_)
    rcases hu with h | h <;> simp [hr, h]
  · subst hall
    rw [exec_monitorBlock data good s hh hc ht, takeBlock_eq s data have_ good kind total hx]
    refine ⟨fun hbad => ?_, fun hg hl => ?_⟩
    · have hn : ¬ (good = true ∧ data.length = min 1024 (total - have_.length)) := by
        rintro ⟨hg, hl⟩
        rcases hbad with h | h
        · simp [hg] at h
        · exact h hl
      rw [if_neg hn]
      refine ⟨fun h7 => ?_, fun h7 => ?_⟩
      · rw [if_neg (by omega)]
        rfl
      · rw [if_pos (by omega), endBinary_eq]
        simp [blockRefused, emit]
    · rw [if_pos ⟨hg, hl⟩]
      refine ⟨fun hlt => ?_, fun hge hk ho => ?_, fun hge hk ho => ?_, fun hge hk h => ?_, fun hge hk hs hq _ => ?_⟩
      · rw [if_pos hlt]
        rfl
      · rw [if_neg (by omega), if_pos hk]
        obtain ⟨t, he, h⟩ := token_accepted s kind total _ ho
        exact ⟨t, congrArg _ he, h⟩
      · rw [if_neg (by omega), if_pos hk]
        obtain ⟨t, he, h⟩ := token_refused s kind total _ ho
        exact ⟨t, congrArg _ he, h⟩
      · rw [if_neg (by omega), if_neg (by omega)]
        obtain ⟨t, he, h⟩ := load_refused s kind total _ h
        exact ⟨t, congrArg _ he, h⟩
      · rw [if_neg (by omega), if_neg (by omega)]
        obtain ⟨t, he, h⟩ := load_accepted s kind total _ hs hq
        exact ⟨t, congrArg _ he, h⟩
  · refine congrArg Host.Outcome.next ((if_pos ⟨hx, hl⟩).trans ?_)
    rw [muted_driven _ _ ht, endBinary_eq]
  · refine congrArg Host.Outcome.next ((if_pos ⟨hx, hl⟩).trans ?_)
    rw [endBinary_eq]
    simp [muted, ht, isMonitor]
  · refine congrArg Host.Outcome.next (if_neg ?_)
    rintro ⟨hx, hl⟩
    rcases h with h | h
    · simp [h] at hx
    · omega

end Sys2Proof.Machine

/-!
What the statements about requests and about links share: the outcome of a write that reaches its object, and a control flit given to a
link.
-/

namespace Sys2Proof.Machine

/-! ### Writes of numeric objects (R449) -/

/-- The answer of a write that passed its checks: its own rule decides, and then its effect follows. -/
def ownAnswer (s0 : State) (r : Route) (role : Role) (row : ObjRow) (key n : Nat) (own : State → Nat → Nat)
    (effect : State → Nat → State) : Answer :=
  if own s0 n ≠ 0 then ⟨s0, own s0 n, []⟩ else ⟨effect (applyNum s0 r role row key n) n, 0, []⟩

theorem writeNum_checked (s0 : State) (r : Route) (role : Role) (row : ObjRow) (key n : Nat) (v : Bytes) (own : State → Nat → Nat)
    (effect : State → Nat → State) (h : numCheck s0 role key v none = .inr (row, n)) :
    writeNum s0 r role key v own effect = ownAnswer s0 r role row key n own effect := by
  unfold writeNum
  rw [h]
  rfl

/-- A write that is ready is answered as its object's rule and effect say. -/
theorem writeRow_ready (s : State) (r : Route) (key : Nat) (v : Bytes) (sup : Bool) (role : Role) (row : ObjRow) (s0 : State)
    (own : State → Nat → Nat) (effect : State → Nat → State) (h : WriteReady s r sup key v role row s0) :
    writeRow s r key v sup own effect = answered s r key (ownAnswer s0 r role row key (leNat v) own effect) := by
  rw [writeRow, Laws.ask_asked _ _ _ _ _ _ _ _ _ h.1, writeNum_checked _ _ _ _ _ _ _ _ _ h.2]

theorem ownAnswer_refused (s0 : State) (r : Route) (role : Role) (row : ObjRow) (key n : Nat) (own : State → Nat → Nat)
    (effect : State → Nat → State) (h : own s0 n ≠ 0) : ownAnswer s0 r role row key n own effect = ⟨s0, own s0 n, []⟩ := if_pos h

theorem ownAnswer_taken (s0 : State) (r : Route) (role : Role) (row : ObjRow) (key n : Nat) (own : State → Nat → Nat)
    (effect : State → Nat → State) (h : own s0 n = 0) :
    ownAnswer s0 r role row key n own effect = ⟨effect (applyNum s0 r role row key n) n, 0, []⟩ := if_neg (by simp [h])

theorem sameObjs_applyNum (s : State) (r : Route) (role : Role) (row : ObjRow) (key n : Nat) :
    SameObjs s (applyNum s r role row key n) (key :: journalObjs) := by
  have h1 : SameObjs s (if row.access = .wo then s else objPut s key n) (key :: journalObjs) := by
    split
    · exact SameObjs.refl _ _
    · exact (SameObjs.refl _ _).objPut _ _ List.mem_cons_self
  have h2 : SameObjs s (if row.kept ∧ row.access = .rw then notePersist (if row.access = .wo then s else objPut s key n) key
      else (if row.access = .wo then s else objPut s key n)) (key :: journalObjs) := by
    split
    · exact h1.of_dic rfl
    · exact h1
  simp only [applyNum]
  split
  · exact h2.journal _ _ (List.subset_cons_self _ _)
  · exact h2

/-- The fields that a write of a numeric object may change. -/
theorem applyNum_frame (s : State) (r : Route) (role : Role) (row : ObjRow) (key n : Nat) : applyNum s r role row key n = { s with
    dic := (applyNum s r role row key n).dic, persist := (applyNum s r role row key n).persist
    obs := (applyNum s r role row key n).obs } :=
  applyNum_keeps (footDicPersistObs · (applyNum s r role row key n)) (fun _ _ => rfl) s r role row key n

/-- A written object that holds a value holds the new one. -/
theorem objGet_applyNum_self (s : State) (r : Route) (role : Role) (row : ObjRow) (key n : Nat) (hw : row.access ≠ .wo)
    (hj : key ∉ journalObjs) : objGet (applyNum s r role row key n) key = n := by
  have h1 : objGet (if row.kept ∧ row.access = .rw then notePersist (objPut s key n) key else objPut s key n) key = n := by
    split
    · exact objGet_objPut_self s key n
    · exact objGet_objPut_self s key n
  simp only [applyNum, if_neg hw]
  split
  · exact (((SameObjs.refl _ _).journal _ _ (fun _ h => h)) key hj).trans h1
  · exact h1

theorem pathE_of_objs {s t : State} (h1 : objGet t Obj.bridgeState = objGet s Obj.bridgeState)
    (h2 : objGet t Obj.pilotState = objGet s Obj.pilotState) : pathE t = pathE s := by
  simp only [pathE, bridgeUp, h1, h2]

theorem chip_eq_objGet (s : State) : chip s = objGet s 0 := rfl

/-! ### A control flit given to a link (R235, R238) -/

/-- A link that a flit of a body is given to. -/
def flitGiven (now : Nat) (b : FlitBody) (l : Link) : Link :=
  match laneFor l b with
  | none => l
  | some i =>
    { enqueue l i l.txSeq with
      txSeq := (l.txSeq + 1) % 2 ^ 20
      unacked := l.unacked ++ [{ seq := l.txSeq, sends := 1, born := now, at_ := now, body := b }] }

/-- A link that a control flit is given to: sent, or waiting for its window. -/
def ctlGiven (now : Nat) (c : Ctl) (l : Link) : Link :=
  if !ctlFits l c then l
  else if l.unacked.length < retryWindow l ∧ l.waitCtl = [] then flitGiven now (.control c) l
  else { l with waitCtl := l.waitCtl ++ [c] }

theorem sendFlit_eq (s : State) (k : Nat) (b : FlitBody) : sendFlit s k b = updLink s k (flitGiven s.now b) := rfl

theorem linkOf_sendCtl_self (s : State) (k : Nat) (c : Ctl) (hk : k < s.links.length) :
    linkOf (sendCtl s k c) k = ctlGiven s.now c (linkOf s k) := by
  simp only [sendCtl, ctlGiven]
  split
  · rfl
  · split
    · rw [sendFlit_eq, linkOf_updLink_self _ _ _ hk]
    · rw [linkOf_objInc, linkOf_updLink_self _ _ _ hk]

theorem linkOf_sendCtl_ne (s : State) (k j : Nat) (c : Ctl) (h : j ≠ k) : linkOf (sendCtl s k c) j = linkOf s j := by
  simp only [sendCtl]
  split
  · rfl
  · split
    · rw [sendFlit_eq, linkOf_updLink_ne _ _ _ _ h]
    · rw [linkOf_objInc, linkOf_updLink_ne _ _ _ _ h]

theorem sameObjs_sendCtl (s : State) (k : Nat) (c : Ctl) : SameObjs s (sendCtl s k c) [Obj.retryWindowStalls] := by
  simp only [sendCtl]
  split
  · exact SameObjs.refl _ _
  · split
    · exact (SameObjs.refl s _).of_dic rfl
    · exact ((SameObjs.refl s _).of_dic (u := updLink s k _) rfl).objInc _ (by decide)

/-- A link's record of a control flit it has been given. -/
def HoldsCtl (l : Link) (c : Ctl) : Prop := (∃ u ∈ l.unacked, u.body = .control c) ∨ c ∈ l.waitCtl

theorem given_iff (t : State) (k : Nat) (c : Ctl) : Given t k c ↔ HoldsCtl (linkOf t k) c := Iff.rfl

theorem holdsCtl_ctlGiven (now : Nat) (c : Ctl) (l : Link) (hf : ctlFits l c = true)
    (hl : (laneFor l (.control c)).isSome = true) : HoldsCtl (ctlGiven now c l) c := by
  obtain ⟨i, hi⟩ := Option.isSome_iff_exists.mp hl
  unfold ctlGiven
  rw [if_neg (by simp [hf])]
  split
  · refine .inl ⟨{ seq := l.txSeq, sends := 1, born := now, at_ := now, body := .control c }, ?_, rfl⟩
    simp only [flitGiven, hi, List.mem_append, List.mem_singleton, or_true]
  · exact .inr (by simp)

/-- A flit given to a link leaves what the link is and what it records. -/
theorem flitGiven_keeps {γ : Type} (vw : Link → γ)
    (hg : ∀ (l : Link) (x : List Lane) (q : Nat) (us : List Unacked), vw { l with outLanes := x, txSeq := q, unacked := us } = vw l)
    (now : Nat) (b : FlitBody) (l : Link) : vw (flitGiven now b l) = vw l := by
  unfold flitGiven
  split
  · rfl
  · exact hg l _ _ _

theorem ctlGiven_keeps {γ : Type} (vw : Link → γ) (hg : ∀ (l : Link) (x : List Lane) (q : Nat) (us : List Unacked) (cs : List Ctl),
    vw { l with outLanes := x, txSeq := q, unacked := us, waitCtl := cs } = vw l) (now : Nat) (c : Ctl) (l : Link) :
    vw (ctlGiven now c l) = vw l := by
  unfold ctlGiven
  split
  · rfl
  · split
    · exact flitGiven_keeps vw (fun l x q us => hg l x q us l.waitCtl) _ _ _
    · exact hg l _ _ _ _

end Sys2Proof.Machine

/-!
Snapshots and the journal (O56).
-/

namespace Sys2Proof.Machine

/-! ### Shadow banks -/

theorem snapBank_updBank_self (s : State) (b : Nat) (f : SnapBank → SnapBank) : snapBank (updBank s b f) b = f (snapBank s b) := by
  unfold snapBank updBank
  split <;> rfl

/-- The two shadow banks are bank 0 and any other number. -/
theorem snapBank_updBank_other (s : State) (b c : Nat) (f : SnapBank → SnapBank) (h : b = 0 ↔ c ≠ 0) :
    snapBank (updBank s b f) c = snapBank s c := by
  unfold snapBank updBank
  by_cases hb : b = 0
  · rw [if_pos hb, if_neg (h.mp hb), if_neg (h.mp hb)]
  · have hc : c = 0 := Decidable.byContradiction fun hc => hb (h.mpr hc)
    rw [if_neg hb, if_pos hc, if_pos hc]

theorem snapBank_of_obs {s t : State} (h : t.obs = s.obs) (b : Nat) : snapBank t b = snapBank s b := by
  unfold snapBank
  rw [h]

/-- What of the observations a change of a bank leaves. -/
def snapRest (s : State) : Option (Nat × Nat × Nat) × Nat × List (Nat × Nat) × List (Nat × Nat) :=
  (s.obs.current, s.obs.target, s.obs.heldMarks, s.obs.earlyMarks)

theorem rest_current {s t : State} (h : snapRest t = snapRest s) : t.obs.current = s.obs.current := congrArg Prod.fst h

theorem rest_target {s t : State} (h : snapRest t = snapRest s) : t.obs.target = s.obs.target := congrArg (fun v => v.2.1) h

theorem rest_held {s t : State} (h : snapRest t = snapRest s) : t.obs.heldMarks = s.obs.heldMarks := congrArg (fun v => v.2.2.1) h

theorem snapRest_updBank (s : State) (b : Nat) (f : SnapBank → SnapBank) : snapRest (updBank s b f) = snapRest s := by
  unfold updBank
  split <;> rfl

/-! ### Links marked -/

/-- A link that starts to record. -/
def recording (e : Nat) (l : Link) : Link := { l with recEpoch := some e, recCount := [0, 0, 0, 0, 0, 0] }

/-- A link as the start of a snapshot leaves it; `low` says that its state is Green, Yellow or Grey. -/
def markedLink (e reach now : Nat) (low : Bool) (l : Link) : Link :=
  if !l.bound then l
  else if l.bound && low && natBit 6 l.agreed then ctlGiven now (.marker e reach) (recording e l) else recording e l

theorem linkState_of_dic {s t : State} (h : t.dic = s.dic) (k : Nat) : linkState t k = linkState s k := objGet_congr s t _ h

theorem markLink_eq (e reach : Nat) (s : State) (k : Nat) : markLink e reach s k =
    if !(linkOf s k).bound then s
    else if takesMarker (updLink s k (recording e)) k then sendCtl (updLink s k (recording e)) k (.marker e reach)
    else updLink s k (recording e) := rfl

theorem linkOf_markLink_self (e reach : Nat) (s : State) (k : Nat) :
    linkOf (markLink e reach s k) k = markedLink e reach s.now (decide (linkState s k ≤ 2)) (linkOf s k) := by
  rw [markLink_eq, markedLink]
  by_cases hb : (linkOf s k).bound = true
  · have hk : k < s.links.length := by
      refine Nat.lt_of_not_le fun hle => ?_
      rw [linkOf_of_le s hle] at hb
      cases hb
    have hu : linkOf (updLink s k (recording e)) k = recording e (linkOf s k) := linkOf_updLink_self _ _ _ hk
    have ht : takesMarker (updLink s k (recording e)) k
        = ((linkOf s k).bound && decide (linkState s k ≤ 2) && natBit 6 (linkOf s k).agreed) := by
      unfold takesMarker
      rw [hu]
      rfl
    have hnb : ¬ (!(linkOf s k).bound) = true := by simp [hb]
    rw [if_neg hnb, if_neg hnb, ht]
    split
    · rw [linkOf_sendCtl_self _ _ _ (by simpa using hk), hu]
      rfl
    · exact hu
  · rw [if_pos (by simpa using hb), if_pos (by simpa using hb)]

theorem linkOf_markLink_ne (e reach : Nat) (s : State) (k j : Nat) (h : j ≠ k) : linkOf (markLink e reach s k) j = linkOf s j := by
  rw [markLink_eq]
  split
  · rfl
  · split
    · rw [linkOf_sendCtl_ne _ _ _ _ h, linkOf_updLink_ne _ _ _ _ h]
    · rw [linkOf_updLink_ne _ _ _ _ h]

theorem sameObjs_markLink (e reach : Nat) (s : State) (k : Nat) : SameObjs s (markLink e reach s k) [Obj.retryWindowStalls] := by
  have hu : SameObjs s (updLink s k (recording e)) [Obj.retryWindowStalls] := (SameObjs.refl s _).of_dic rfl
  rw [markLink_eq]
  split
  · exact SameObjs.refl _ _
  · split
    · exact hu.trans (sameObjs_sendCtl _ _ _)
    · exact hu

/-- Every link marked. -/
def allMarked (e reach : Nat) (s : State) : State := (List.range 64).foldl (markLink e reach) s

theorem allMarked_keeps {γ : Type} (vw : State → γ) (hg : ∀ s t, vw (footDicLinks s t) = vw s) (e reach : Nat) (s : State) :
    vw (allMarked e reach s) = vw s := foldlState vw _ (fun u k => markLink_keeps vw hg e reach u k) _ _

theorem sameObjs_allMarked (e reach : Nat) (s : State) : SameObjs s (allMarked e reach s) [Obj.retryWindowStalls] :=
  (SameObjs.refl s _).foldl _ (fun u k => sameObjs_markLink e reach u k) _

theorem linkState_ne_stalls (k : Nat) (h : k < 64) : Obj.linkState + k ≠ Obj.retryWindowStalls := by
  simp only [Obj.linkState, Obj.retryWindowStalls]
  omega

theorem linkOf_allMarked (e reach : Nat) (s : State) {k : Nat} (hk : k < 64) :
    linkOf (allMarked e reach s) k = markedLink e reach s.now (decide (linkState s k ≤ 2)) (linkOf s k) := by
  refine (linkOf_foldl_range (markLink e reach) (fun i => markedLink e reach s.now (decide (linkState s i ≤ 2)))
    (fun u => u.now = s.now ∧ ∀ i, i < 64 → linkState u i = linkState s i) 64 (fun u i hu => ?_) (fun u i hi hu => ?_)
    (fun u i j h => linkOf_markLink_ne e reach u i j h) s ⟨rfl, fun _ _ => rfl⟩ k).trans (if_pos hk)
  · obtain ⟨hnow, hst⟩ := hu
    exact ⟨(markLink_keeps State.now (fun _ _ => rfl) e reach u i).trans hnow, fun j hj =>
      (sameObjs_markLink e reach u i _ (by simpa using linkState_ne_stalls j hj)).trans (hst j hj)⟩
  · obtain ⟨hnow, hst⟩ := hu
    rw [linkOf_markLink_self, hnow, hst i hi]

/-- A snapshot started on every bound link, whatever else the links hold. -/
theorem marked_bound (e reach now : Nat) (low : Bool) (l : Link) (hb : l.bound = true) :
    (markedLink e reach now low l).recEpoch = some e ∧ (markedLink e reach now low l).recCount = [0, 0, 0, 0, 0, 0]
      ∧ (markedLink e reach now low l).bound = true := by
  unfold markedLink
  rw [if_neg (by rw [hb]; decide)]
  split
  · refine ⟨?_, ?_, ?_⟩
    · exact ctlGiven_keeps Link.recEpoch (fun _ _ _ _ _ => rfl) _ _ _
    · exact ctlGiven_keeps Link.recCount (fun _ _ _ _ _ => rfl) _ _ _
    · exact (ctlGiven_keeps Link.bound (fun _ _ _ _ _ => rfl) _ _ _).trans hb
  · exact ⟨rfl, rfl, hb⟩

theorem marked_unbound (e reach now : Nat) (low : Bool) (l : Link) (hb : l.bound = false) : markedLink e reach now low l = l :=
  if_pos (by simp [hb])

theorem marked_holds (e reach now : Nat) (low : Bool) (l : Link) (ht : (l.bound && low && natBit 6 l.agreed) = true)
    (hf : ctlFits l (.marker e reach) = true) (hl : (laneFor l (.control (.marker e reach))).isSome = true) :
    HoldsCtl (markedLink e reach now low l) (.marker e reach) := by
  have hb : l.bound = true := by
    simp only [Bool.and_eq_true] at ht
    exact ht.1.1
  unfold markedLink
  rw [if_neg (by rw [hb]; decide), if_pos ht]
  exact holdsCtl_ctlGiven _ _ _ hf hl

/-! ### A snapshot started -/

/-- The bank and the progress that a start of a snapshot sets. -/
def snapBegun (s : State) (e reach origin : Nat) : State :=
  let u := updBank { s with free := if pathE s then s.free else s.free + (cutValues s).length } (olderBank s) (fun _ =>
    { epoch := some e, origin := origin, cut := s.now - s.coldAt, incomplete := 0, values := cutValues s,
      links := List.replicate 64 [0, 0, 0, 0, 0, 0], complete := false })
  objPut { u with obs := { u.obs with current := some (e, reach, u.now), target := olderBank s } } Obj.snapshotState 1

theorem startSnap_eq (s : State) (e reach origin : Nat) : startSnap s e reach origin = allMarked e reach (snapBegun s e reach origin) := by
  unfold startSnap snapBegun updBank
  dsimp only
  split <;> rfl

theorem view_of_foot {γ : Type} (vw : State → γ) {foot : State → State → State} (hg : ∀ s t, vw (foot s t) = vw s) {s u : State}
    (h : u = foot s u) : vw u = vw s := (congrArg vw h).trans (hg s u)

theorem snapBegun_keeps {γ : Type} (vw : State → γ) (hg : ∀ s t, vw (foot4_20 s t) = vw s) (s : State) (e reach origin : Nat) :
    vw (snapBegun s e reach origin) = vw s := by
  unfold snapBegun updBank
  dsimp only
  rw [objPut_keeps vw (fun s t => hg s (footDic s t))]
  split
  · exact view_of_foot vw hg rfl
  · exact view_of_foot vw hg rfl

theorem sameObjs_snapBegun (s : State) (e reach origin : Nat) : SameObjs s (snapBegun s e reach origin) [Obj.snapshotState] := by
  unfold snapBegun
  dsimp only
  refine SameObjs.objPut ((SameObjs.refl s _).of_dic ?_) _ _ (by decide)
  exact updBank_keeps State.dic (fun _ _ => rfl) _ _ _

theorem snapBegun_now (s : State) (e reach origin : Nat) : (snapBegun s e reach origin).now = s.now :=
  snapBegun_keeps State.now (fun _ _ => rfl) s e reach origin

theorem snapBegun_links (s : State) (e reach origin : Nat) : (snapBegun s e reach origin).links = s.links := by
  unfold snapBegun
  dsimp only
  rw [objPut_keeps State.links (fun _ _ => rfl)]
  exact updBank_keeps State.links (fun _ _ => rfl) _ _ _

theorem snapBegun_free (s : State) (e reach origin : Nat) (h : pathE s = true) : (snapBegun s e reach origin).free = s.free := by
  unfold snapBegun
  dsimp only
  rw [objPut_keeps State.free (fun _ _ => rfl)]
  refine (updBank_keeps State.free (fun _ _ => rfl) _ _ _).trans ?_
  simp only [h, if_true]

theorem snapBegun_progress (s : State) (e reach origin : Nat) : (snapBegun s e reach origin).obs.current = some (e, reach, s.now)
    ∧ (snapBegun s e reach origin).obs.target = olderBank s
    ∧ (snapBegun s e reach origin).obs.heldMarks = s.obs.heldMarks
    ∧ (snapBegun s e reach origin).obs.earlyMarks = s.obs.earlyMarks := by
  unfold snapBegun updBank
  dsimp only
  split <;> exact ⟨rfl, rfl, rfl, rfl⟩

/-- What the bank of a snapshot holds as it starts. -/
def startBank (s : State) (e origin : Nat) : SnapBank :=
  { epoch := some e, origin := origin, cut := s.now - s.coldAt, incomplete := 0, values := cutValues s,
    links := List.replicate 64 [0, 0, 0, 0, 0, 0], complete := false }

theorem snapBank_snapBegun (s : State) (e reach origin : Nat) :
    snapBank (snapBegun s e reach origin) (olderBank s) = startBank s e origin := by
  unfold snapBegun snapBank updBank
  dsimp only
  split <;> rfl

theorem snapBank_snapBegun_other (s : State) (e reach origin b : Nat) (h : olderBank s = 0 ↔ b ≠ 0) :
    snapBank (snapBegun s e reach origin) b = snapBank s b := by
  have hu := snapBank_updBank_other { s with free := if pathE s then s.free else s.free + (cutValues s).length } (olderBank s) b
    (fun _ => startBank s e origin) h
  exact hu

theorem cutValues_at (s : State) (i : Nat) (k : SnapKey) (hk : snapKeys[i]? = some k) (h : pathE s = true ∨ isHalfE k.1 = false) :
    (cutValues s)[i]? = some (counterNow s k) := by
  have hn : (isHalfE k.1 && !pathE s) = false := by rcases h with h | h <;> simp [h]
  rw [cutValues, List.getElem?_mapIdx, hk, Option.map_some, hn, if_neg Bool.false_ne_true]

theorem startBank_values (s : State) (e origin : Nat) : (startBank s e origin).values = cutValues s := by rw [startBank]

/-- A snapshot as its start leaves it. -/
theorem startSnap_obs (s : State) (e reach origin : Nat) :
    (startSnap s e reach origin).obs = (snapBegun s e reach origin).obs := by
  rw [startSnap_eq]
  exact allMarked_keeps State.obs (fun _ _ => rfl) _ _ _

theorem snapBank_startSnap (s : State) (e reach origin b : Nat) :
    snapBank (startSnap s e reach origin) b = snapBank (snapBegun s e reach origin) b :=
  snapBank_of_obs (startSnap_obs s e reach origin) b

theorem sameObjs_startSnap (s : State) (e reach origin : Nat) :
    SameObjs s (startSnap s e reach origin) [Obj.snapshotState, Obj.retryWindowStalls] := by
  rw [startSnap_eq]
  exact ((sameObjs_snapBegun s e reach origin).mono (by decide)).trans ((sameObjs_allMarked _ _ _).mono (by decide))

theorem objGet_startSnap_state (s : State) (e reach origin : Nat) : objGet (startSnap s e reach origin) Obj.snapshotState = 1 := by
  rw [startSnap_eq, sameObjs_allMarked _ _ _ _ (by decide)]
  exact objGet_objPut_self _ _ _

theorem startSnap_free (s : State) (e reach origin : Nat) (h : pathE s = true) : (startSnap s e reach origin).free = s.free := by
  rw [startSnap_eq, allMarked_keeps State.free (fun _ _ => rfl), snapBegun_free _ _ _ _ h]

theorem linkOf_startSnap (s : State) (e reach origin : Nat) {k : Nat} (hk : k < 64) :
    linkOf (startSnap s e reach origin) k = markedLink e reach s.now (decide (linkState s k ≤ 2)) (linkOf s k) := by
  have hst : linkState (snapBegun s e reach origin) k = linkState s k := by
    refine sameObjs_snapBegun s e reach origin _ ?_
    simp only [List.mem_singleton, Obj.linkState, Obj.snapshotState]
    omega
  rw [startSnap_eq, linkOf_allMarked _ _ _ hk, snapBegun_now, hst, linkOf_congr (snapBegun_links s e reach origin)]

theorem foot4_20_self (s : State) : foot4_20 s s = s := rfl

theorem startSnap_frame (s : State) (e reach origin : Nat) : startSnap s e reach origin = { s with
    free := (startSnap s e reach origin).free, dic := (startSnap s e reach origin).dic
    links := (startSnap s e reach origin).links, obs := (startSnap s e reach origin).obs } :=
  (foot4_20_self _).symm.trans (startSnap_keeps (foot4_20 · (startSnap s e reach origin)) (fun _ _ => rfl) s e reach origin)

/-! ### SNAPSHOT_TAKE -/

/-- The effect of a write of SnapshotTake. -/
def takeSnap (s : State) (n : Nat) : State :=
  if epochTaken s (n % 2 ^ 32) then s else startSnap s (n % 2 ^ 32) (n / 2 ^ 32 % 64) (chip s)

theorem exec_snapshotTake (r : Route) (v : Bytes) (s : State) : exec (.snapshotTake r v) s
    = .next (writeRow s r Obj.snapshotTake v false (fun s _ => if s.obs.current.isSome then 0x07 else 0) takeSnap) := rfl

/-- A journal entry changes of the observations only what waits for the ring. -/
theorem journalPut_obs (s : State) (n : JEntry) : ∃ b, (journalPut s n).obs = { s.obs with jbuf := b } := by
  unfold journalPut
  split
  · exact ⟨_, rfl⟩
  · split
    · split
      · exact ⟨_, rfl⟩
      · exact ⟨_, rfl⟩
    · exact ⟨_, rfl⟩

theorem applyNum_obs (s : State) (r : Route) (role : Role) (row : ObjRow) (key n : Nat) :
    ∃ b, (applyNum s r role row key n).obs = { s.obs with jbuf := b } := by
  have h1 : (if row.kept ∧ row.access = .rw then notePersist (if row.access = .wo then s else objPut s key n) key
      else (if row.access = .wo then s else objPut s key n)).obs = s.obs := by
    split <;> split <;> rfl
  simp only [applyNum]
  split
  · obtain ⟨b, hb⟩ := journalPut_obs _ (journalEntry _ _ _ _)
    exact ⟨b, hb.trans (by rw [h1])⟩
  · exact ⟨_, h1⟩

theorem epochTaken_of_obs {s t : State} {b : List JEntry} (h : t.obs = { s.obs with jbuf := b }) (e : Nat) :
    epochTaken t e = epochTaken s e := by
  unfold epochTaken
  rw [h]

theorem olderBank_of_obs {s t : State} {b : List JEntry} (h : t.obs = { s.obs with jbuf := b }) : olderBank t = olderBank s := by
  unfold olderBank newerIsOne
  rw [h]

/-- The fields that a write of SnapshotTake may change. -/
def footSnap (s t : State) : State :=
  { s with free := t.free, dic := t.dic, persist := t.persist, links := t.links, obs := t.obs }

theorem takesMarker_of_objs {s t : State} (k : Nat) (hl : t.links = s.links) (ho : linkState t k = linkState s k) :
    takesMarker t k = takesMarker s k := by
  unfold takesMarker
  rw [linkOf_congr hl, ho]

/-- What a snapshot does to a link that was given the state `s`. -/
theorem startSnap_link (s : State) (e reach origin : Nat) {k : Nat} (hk : k < 64) :
    ((linkOf s k).bound = true → (linkOf (startSnap s e reach origin) k).recEpoch = some e
      ∧ (linkOf (startSnap s e reach origin) k).recCount = [0, 0, 0, 0, 0, 0])
    ∧ ((linkOf s k).bound = false → linkOf (startSnap s e reach origin) k = linkOf s k)
    ∧ (takesMarker s k = true → CanSend s k (.marker e reach) → Given (startSnap s e reach origin) k (.marker e reach)) := by
  rw [given_iff, linkOf_startSnap s e reach origin hk]
  refine ⟨fun hb => ?_, fun hb => marked_unbound _ _ _ _ _ hb, fun ht ⟨hf, hl⟩ => marked_holds _ _ _ _ _ ht hf hl⟩
  obtain ⟨h1, h2, _⟩ := marked_bound e reach s.now (decide (linkState s k ≤ 2)) (linkOf s k) hb
  exact ⟨h1, h2⟩

theorem startSnap_bank (s : State) (e reach origin : Nat) :
    (startSnap s e reach origin).obs.current = some (e, reach, s.now) ∧ (startSnap s e reach origin).obs.target = olderBank s
    ∧ snapBank (startSnap s e reach origin) (startSnap s e reach origin).obs.target = startBank s e origin := by
  obtain ⟨hc, ht, _, _⟩ := snapBegun_progress s e reach origin
  have hobs := startSnap_obs s e reach origin
  have htar : (startSnap s e reach origin).obs.target = olderBank s := by rw [hobs, ht]
  refine ⟨by rw [hobs, hc], htar, ?_⟩
  rw [htar, snapBank_startSnap, snapBank_snapBegun]

theorem linkState_notMem {k : Nat} {ks : List Nat} (h : ∀ x ∈ ks, x < Obj.linkState ∨ Obj.linkState + 64 ≤ x) (hk : k < 64) :
    Obj.linkState + k ∉ ks := fun hm => by
  have := h _ hm
  omega

theorem snapshotTake_started (s0 : State) (r : Route) (role : Role) (row : ObjRow) (n : Nat)
    (hn : epochTaken s0 (n % 2 ^ 32) = false) :
    takeSnap (applyNum s0 r role row Obj.snapshotTake n) n
      = startSnap (applyNum s0 r role row Obj.snapshotTake n) (n % 2 ^ 32) (n / 2 ^ 32 % 64) (chip s0) := by
  obtain ⟨b, hb⟩ := applyNum_obs s0 r role row Obj.snapshotTake n
  have hc : chip (applyNum s0 r role row Obj.snapshotTake n) = chip s0 := by
    rw [chip_eq_objGet, chip_eq_objGet, sameObjs_applyNum s0 r role row _ n 0 (by decide)]
  rw [takeSnap, if_neg (by rw [epochTaken_of_obs hb, hn]; decide), hc]

theorem pathE_applyNum (s : State) (r : Route) (role : Role) (row : ObjRow) (key n : Nat)
    (h1 : Obj.bridgeState ∉ key :: journalObjs) (h2 : Obj.pilotState ∉ key :: journalObjs) :
    pathE (applyNum s r role row key n) = pathE s :=
  pathE_of_objs (sameObjs_applyNum s r role row key n _ h1) (sameObjs_applyNum s r role row key n _ h2)

theorem linkState_applyTake (s : State) (r : Route) (role : Role) (row : ObjRow) (n : Nat) {k : Nat} (hk : k < 64) :
    linkState (applyNum s r role row Obj.snapshotTake n) k = linkState s k :=
  sameObjs_applyNum s r role row Obj.snapshotTake n _ (linkState_notMem (by decide) hk)

theorem snapshotTake_ready (r : Route) (v : Bytes) (s : State) (role : Role) (row : ObjRow) (s0 : State)
    (hw : WriteReady s r false Obj.snapshotTake v role row s0) (hc : s0.obs.current = none) :
    exec (.snapshotTake r v) s = .next (answered s r Obj.snapshotTake
      ⟨takeSnap (applyNum s0 r role row Obj.snapshotTake (leNat v)) (leNat v), 0, []⟩) := by
  rw [exec_snapshotTake, writeRow_ready _ _ _ _ _ _ _ _ _ _ hw, ownAnswer_taken _ _ _ _ _ _ _ _ (by rw [hc]; rfl)]

theorem snapshotTake_busy (r : Route) (v : Bytes) (s : State) (role : Role) (row : ObjRow) (s0 : State)
    (hw : WriteReady s r false Obj.snapshotTake v role row s0) (hc : s0.obs.current.isSome = true) :
    exec (.snapshotTake r v) s = .next (answered s r Obj.snapshotTake ⟨s0, 0x07, []⟩) := by
  rw [exec_snapshotTake, writeRow_ready _ _ _ _ _ _ _ _ _ _ hw, ownAnswer_refused _ _ _ _ _ _ _ _ (by rw [hc]; decide), if_pos hc]

theorem takeSnap_frame (s0 : State) (r : Route) (role : Role) (row : ObjRow) (n e reach o : Nat) :
    startSnap (applyNum s0 r role row Obj.snapshotTake n) e reach o
      = footSnap s0 (startSnap (applyNum s0 r role row Obj.snapshotTake n) e reach o) := by
  generalize hu : startSnap (applyNum s0 r role row Obj.snapshotTake n) e reach o = u
  have h1 := startSnap_keeps (footSnap · u) (fun _ _ => rfl) (applyNum s0 r role row Obj.snapshotTake n) e reach o
  have h2 := applyNum_keeps (footSnap · u) (fun _ _ => rfl) s0 r role row Obj.snapshotTake n
  rw [hu] at h1
  exact h1.trans h2

/-- SNAPSHOT_TAKE of an epoch not held, while no snapshot runs (R434). -/
theorem snapshotTake_new (r : Route) (v : Bytes) (s : State) (role : Role) (row : ObjRow) (s0 : State)
    (hw : WriteReady s r false Obj.snapshotTake v role row s0) (hc : s0.obs.current = none)
    (hn : epochTaken s0 (leNat v % 2 ^ 32) = false) :
    ∃ u, exec (.snapshotTake r v) s = .next (answered s r Obj.snapshotTake ⟨u, 0, []⟩)
      ∧ u = { s0 with free := u.free, dic := u.dic, persist := u.persist, links := u.links, obs := u.obs }
      ∧ u.obs.current = some (leNat v % 2 ^ 32, leNat v / 2 ^ 32 % 64, s0.now) ∧ u.obs.target = olderBank s0
      ∧ objGet u Obj.snapshotState = 1
      ∧ snapBank u u.obs.target = { epoch := some (leNat v % 2 ^ 32), origin := chip s0, cut := s0.now - s0.coldAt, incomplete := 0,
                                    values := (snapBank u u.obs.target).values,
                                    links := List.replicate 64 [0, 0, 0, 0, 0, 0], complete := false }
      ∧ (∀ (i : Nat) (k : SnapKey), snapKeys[i]? = some k → pathE s0 = true ∨ isHalfE k.1 = false →
          (snapBank u u.obs.target).values[i]? = some (counterNow (applyNum s0 r role row Obj.snapshotTake (leNat v)) k))
      ∧ (pathE s0 = true → u.free = s0.free)
      ∧ (∀ k, k < 64 → ((linkOf s0 k).bound = true →
          (linkOf u k).recEpoch = some (leNat v % 2 ^ 32) ∧ (linkOf u k).recCount = [0, 0, 0, 0, 0, 0])
        ∧ ((linkOf s0 k).bound = false → linkOf u k = linkOf s0 k)
        ∧ (takesMarker s0 k = true → CanSend s0 k (.marker (leNat v % 2 ^ 32) (leNat v / 2 ^ 32 % 64)) →
            Given u k (.marker (leNat v % 2 ^ 32) (leNat v / 2 ^ 32 % 64)))) := by
  have hstart := snapshotTake_started s0 r role row (leNat v) hn
  have hexec := snapshotTake_ready r v s role row s0 hw hc
  have hframe := takeSnap_frame s0 r role row (leNat v) (leNat v % 2 ^ 32) (leNat v / 2 ^ 32 % 64) (chip s0)
  have hpath := pathE_applyNum s0 r role row Obj.snapshotTake (leNat v) (by decide) (by decide)
  obtain ⟨b, hobs⟩ := applyNum_obs s0 r role row Obj.snapshotTake (leNat v)
  have hold := olderBank_of_obs hobs
  have hnow : (applyNum s0 r role row Obj.snapshotTake (leNat v)).now = s0.now := by rw [applyNum_frame]
  have hcold : (applyNum s0 r role row Obj.snapshotTake (leNat v)).coldAt = s0.coldAt := by rw [applyNum_frame]
  have hfree : (applyNum s0 r role row Obj.snapshotTake (leNat v)).free = s0.free := by rw [applyNum_frame]
  have hlinks : (applyNum s0 r role row Obj.snapshotTake (leNat v)).links = s0.links := by rw [applyNum_frame]
  have hstate (k : Nat) (hk : k < 64) := linkState_applyTake s0 r role row (leNat v) hk
  rw [hstart] at hexec
  generalize applyNum s0 r role row Obj.snapshotTake (leNat v) = a at *
  generalize leNat v % 2 ^ 32 = e at *
  generalize leNat v / 2 ^ 32 % 64 = reach at *
  obtain ⟨hcur, htar, hbank⟩ := startSnap_bank a e reach (chip s0)
  refine ⟨_, hexec, hframe, hcur.trans (by rw [hnow]), htar.trans hold, objGet_startSnap_state _ _ _ _, ?_, fun i k hi hp => ?_,
    fun hp => (startSnap_free _ _ _ _ (hpath.trans hp)).trans hfree, fun k hk => ?_⟩
  · have hvals := congrArg SnapBank.values hbank
    refine hbank.trans ?_
    rw [hvals, startBank, hnow, hcold]
  · have hcut := cutValues_at a i k hi (hp.imp_left hpath.trans)
    rw [hbank]
    exact congrArg (·[i]?) (startBank_values a e (chip s0)) |>.trans hcut
  · obtain ⟨h1, h2, h3⟩ := startSnap_link a e reach (chip s0) hk
    have hlink : linkOf a k = linkOf s0 k := linkOf_congr hlinks k
    rw [hlink] at h1 h2
    refine ⟨h1, h2, fun ht hsend => h3 ((takesMarker_of_objs k hlinks (hstate k hk)).trans ht) ?_⟩
    rw [CanSend, hlink]
    exact hsend

/-! ### MARKER_FLIT_RECEIVE -/

theorem exec_marker (k e reach : Nat) (s : State) (hk : k < 64) :
    exec (.markerFlitReceive k e reach) s = .next (takeMarker s k e reach) := need_lt hk _

theorem takeMarker_recording (k e reach : Nat) (s : State) (h : (linkOf s k).recEpoch = some e) :
    takeMarker s k e reach = endRecord s k := if_pos h

theorem takeMarker_other (k e reach : Nat) (s : State) (h : (linkOf s k).recEpoch ≠ some e) (hn : epochTaken s e = false) :
    takeMarker s k e reach = match s.obs.current with
      | some _ =>
        if s.obs.heldMarks.any (fun h => h.1 == e) then
          { s with obs := { s.obs with earlyMarks := s.obs.earlyMarks ++ [(e, k)] } }
        else if reach = 0 then s
        else { s with obs := { s.obs with heldMarks := s.obs.heldMarks ++ [(e, reach)], earlyMarks := s.obs.earlyMarks ++ [(e, k)] } }
      | none =>
        if reach = 0 then s
        else if (linkOf (joinSnap s e reach) k).recEpoch = some e then endRecord (joinSnap s e reach) k else joinSnap s e reach := by
  rw [takeMarker, if_neg h, if_neg (by rw [hn]; decide)] <;> rfl

theorem endRecord_frame (s : State) (k : Nat) :
    endRecord s k = { s with links := (endRecord s k).links, obs := (endRecord s k).obs } :=
  (endRecord_keeps (footLinksObs · (endRecord s k)) (fun _ _ => rfl) s k : _)

/-- A link whose record has ended. -/
def recordEnded (l : Link) : Link := { l with recEpoch := none }

theorem endRecord_eq (s : State) (k : Nat) : endRecord s k = updLink (updBank s s.obs.target (fun b =>
    { b with links := b.links.set k (linkOf s k).recCount })) k recordEnded := rfl

theorem linkOf_updBank (s : State) (b k : Nat) (f : SnapBank → SnapBank) : linkOf (updBank s b f) k = linkOf s k :=
  updBank_keeps (fun t => linkOf t k) (fun _ _ => rfl) s b f

theorem linkOf_endRecord_self (s : State) (k : Nat) (hk : k < s.links.length) :
    linkOf (endRecord s k) k = recordEnded (linkOf s k) := by
  have hlen : (updBank s s.obs.target (fun b => { b with links := b.links.set k (linkOf s k).recCount })).links = s.links :=
    updBank_keeps State.links (fun _ _ => rfl) _ _ _
  rw [endRecord_eq, linkOf_updLink_self _ _ _ (by rw [hlen]; exact hk), linkOf_updBank]

theorem linkOf_endRecord_ne (s : State) (k i : Nat) (h : i ≠ k) : linkOf (endRecord s k) i = linkOf s i := by
  rw [endRecord_eq, linkOf_updLink_ne _ _ _ _ h, linkOf_updBank]

/-- The ended record stands in the bank of the snapshot in progress. -/
theorem snapBank_endRecord (s : State) (k : Nat) : snapBank (endRecord s k) s.obs.target
    = { snapBank s s.obs.target with links := (snapBank s s.obs.target).links.set k (linkOf s k).recCount } :=
  snapBank_updBank_self s s.obs.target _

theorem snapRest_endRecord (s : State) (k : Nat) : snapRest (endRecord s k) = snapRest s := snapRest_updBank s _ _

theorem joinSnap_eq (s : State) (e reach : Nat) :
    joinSnap s e reach = startSnap (freeStep s) e (reach - 1) ((freeNow s).toNat % 2 ^ 14) := rfl

theorem sameObjs_joinSnap (s : State) (e reach : Nat) :
    SameObjs s (joinSnap s e reach) [Obj.snapshotState, Obj.retryWindowStalls] := by
  rw [joinSnap_eq]
  exact ((SameObjs.refl s _).of_dic (freeStep_dic s)).trans (sameObjs_startSnap _ _ _ _)

theorem counterNow_freeStep (s : State) (x : SnapKey) : counterNow (freeStep s) x = counterNow s x := rfl

theorem endRecord_dic (s : State) (k : Nat) : (endRecord s k).dic = s.dic := endRecord_keeps State.dic (fun _ _ => rfl) s k

/-- A snapshot joined, and the link of its marker not recording. -/
def joinedBy (s : State) (k e reach : Nat) : State :=
  if (linkOf (joinSnap s e reach) k).recEpoch = some e then endRecord (joinSnap s e reach) k else joinSnap s e reach

theorem joinedBy_keeps {γ : Type} (vw : State → γ) (hg : ∀ s t, vw (foot4_20 s t) = vw s) (s : State) (k e reach : Nat) :
    vw (joinedBy s k e reach) = vw s := by
  unfold joinedBy
  split
  · exact (endRecord_keeps vw (fun s t => hg s (footLinksObs s t)) _ k).trans (joinSnap_keeps vw hg s e reach)
  · exact joinSnap_keeps vw hg s e reach

/-- What ending the marker's own record leaves of the snapshot joined. -/
theorem joinedBy_of {γ : Type} (vw : State → γ) (hg : ∀ u k, vw (endRecord u k) = vw u) (s : State) (k e reach : Nat) :
    vw (joinedBy s k e reach) = vw (joinSnap s e reach) := by
  unfold joinedBy
  split
  · exact hg _ _
  · rfl

theorem joinSnap_links_length (s : State) (e reach : Nat) (h : s.links.length = 64) : (joinSnap s e reach).links.length = 64 := by
  have hf (u : State) (k : Nat) : (markLink e (reach - 1) u k).links.length = u.links.length := by
    rw [markLink_eq]
    split
    · rfl
    · split
      · simp only [sendCtl]
        split
        · simp
        · split <;> simp [sendFlit_eq]
      · simp
  rw [joinSnap_eq, startSnap_eq]
  refine (foldlState (fun t => t.links.length) _ hf _ _).trans ?_
  rw [snapBegun_links, freeStep_links, h]

theorem linkOf_joinSnap (s : State) (e reach : Nat) {k : Nat} (hk : k < 64) :
    ((linkOf s k).bound = true → (linkOf (joinSnap s e reach) k).recEpoch = some e
      ∧ (linkOf (joinSnap s e reach) k).recCount = [0, 0, 0, 0, 0, 0])
    ∧ ((linkOf s k).bound = false → linkOf (joinSnap s e reach) k = linkOf s k)
    ∧ (takesMarker s k = true → CanSend s k (.marker e (reach - 1)) → Given (joinSnap s e reach) k (.marker e (reach - 1))) :=
  startSnap_link (freeStep s) e (reach - 1) _ hk

theorem joinSnap_bank (s : State) (e reach : Nat) :
    (joinSnap s e reach).obs.current = some (e, reach - 1, s.now) ∧ (joinSnap s e reach).obs.target = olderBank s
    ∧ ∃ o, snapBank (joinSnap s e reach) (joinSnap s e reach).obs.target = startBank (freeStep s) e o := by
  rw [joinSnap_eq]
  generalize (freeNow s).toNat % 2 ^ 14 = o
  obtain ⟨hcur, htar, hbank⟩ := startSnap_bank (freeStep s) e (reach - 1) o
  exact ⟨hcur, htar, o, hbank⟩

/-- A snapshot bank's values, which the end of a record leaves. -/
theorem bankValues_endRecord (s : State) (k : Nat) :
    (snapBank (endRecord s k) (endRecord s k).obs.target).values = (snapBank s s.obs.target).values := by
  have ht : (endRecord s k).obs.target = s.obs.target := rest_target (snapRest_endRecord s k)
  rw [ht, snapBank_endRecord]

theorem joinedBy_link_other (s : State) (k i e reach : Nat) (h : i ≠ k) :
    linkOf (joinedBy s k e reach) i = linkOf (joinSnap s e reach) i := by
  unfold joinedBy
  split
  · exact linkOf_endRecord_ne _ _ _ h
  · rfl

theorem joinedBy_link_self (s : State) (k e reach : Nat) (hk : k < 64) (hlen : s.links.length = 64)
    (hb : (linkOf s k).bound = true) : (linkOf (joinedBy s k e reach) k).recEpoch = none := by
  have hrec := ((linkOf_joinSnap s e reach hk).1 hb).1
  have hl : k < (joinSnap s e reach).links.length := by rw [joinSnap_links_length s e reach hlen]; exact hk
  rw [joinedBy, if_pos hrec, linkOf_endRecord_self _ _ hl]
  rfl

theorem getD_replicate_of_lt {α : Type} {k n : Nat} (hk : k < n) (x d : α) : (List.replicate n x).getD k d = x := by
  simp [List.getD_eq_getElem?_getD, hk]

theorem getD_set_replicate {α : Type} {k n : Nat} (hk : k < n) (x d : α) : ((List.replicate n x).set k x).getD k d = x := by
  simp [List.getD_eq_getElem?_getD, hk]

theorem joinedBy_record (s : State) (k e reach : Nat) (hk : k < 64) (hrec : (linkOf s k).recEpoch ≠ some e) :
    (snapBank (joinedBy s k e reach) (joinedBy s k e reach).obs.target).links.getD k [] = [0, 0, 0, 0, 0, 0] := by
  obtain ⟨_, _, o, hbank⟩ := joinSnap_bank s e reach
  have hlinks : (snapBank (joinSnap s e reach) (joinSnap s e reach).obs.target).links = List.replicate 64 [0, 0, 0, 0, 0, 0] := by
    rw [hbank, startBank]
  obtain ⟨hbound, hunbound, _⟩ := linkOf_joinSnap s e reach hk
  unfold joinedBy
  split
  next h =>
    have hb : (linkOf s k).bound = true := by
      refine Decidable.byContradiction fun hb => hrec ?_
      rw [← hunbound (by simpa using hb)]
      exact h
    have ht : (endRecord (joinSnap s e reach) k).obs.target = (joinSnap s e reach).obs.target :=
      rest_target (snapRest_endRecord _ k)
    rw [ht, snapBank_endRecord]
    rw [hlinks, (hbound hb).2, getD_set_replicate hk]
  next h =>
    rw [hlinks, getD_replicate_of_lt hk]

/-- The marker of a new epoch, while no snapshot runs, starts one (R435). -/
theorem marker_joins (k e reach : Nat) (s : State) (hk : k < 64) (hlen : s.links.length = 64)
    (hrec : (linkOf s k).recEpoch ≠ some e) (hn : epochTaken s e = false) (hc : s.obs.current = none) (hr : 0 < reach) :
    ∃ t, exec (.markerFlitReceive k e reach) s = .next t
      ∧ t = { s with free := t.free, dic := t.dic, links := t.links, obs := t.obs }
      ∧ t.obs.current = some (e, reach - 1, s.now) ∧ t.obs.target = olderBank s ∧ objGet t Obj.snapshotState = 1
      ∧ (∀ (i : Nat) (x : SnapKey), snapKeys[i]? = some x → pathE s = true ∨ isHalfE x.1 = false →
          (snapBank t t.obs.target).values[i]? = some (counterNow s x))
      ∧ (pathE s = true → t.free = s.free + 1)
      ∧ ((linkOf s k).bound = true → (linkOf t k).recEpoch = none)
      ∧ (snapBank t t.obs.target).links.getD k [] = [0, 0, 0, 0, 0, 0]
      ∧ (∀ i, i < 64 → i ≠ k → (linkOf s i).bound = true → (linkOf t i).recEpoch = some e
          ∧ (takesMarker s i = true → CanSend s i (.marker e (reach - 1)) → Given t i (.marker e (reach - 1))))
      ∧ SameObjs s t [Obj.snapshotState, Obj.retryWindowStalls] := by
  have hexec : exec (.markerFlitReceive k e reach) s = .next (joinedBy s k e reach) := by
    rw [exec_marker _ _ _ _ hk, takeMarker_other _ _ _ _ hrec hn, hc]
    exact congrArg Host.Outcome.next (if_neg (by omega))
  obtain ⟨hcur, htar, o, hbank⟩ := joinSnap_bank s e reach
  have hrest := joinedBy_of snapRest snapRest_endRecord s k e reach
  have hvals : (snapBank (joinedBy s k e reach) (joinedBy s k e reach).obs.target).values
      = (snapBank (joinSnap s e reach) (joinSnap s e reach).obs.target).values :=
    joinedBy_of (fun t => (snapBank t t.obs.target).values) bankValues_endRecord s k e reach
  have hcur' := (rest_current hrest).trans hcur
  have htar' := (rest_target hrest).trans htar
  have hframe := (foot4_20_self _).symm.trans (joinedBy_keeps (foot4_20 · (joinedBy s k e reach)) (fun _ _ => rfl) s k e reach)
  refine ⟨_, hexec, hframe, hcur', htar', ?_, fun i x hi hp => ?_, fun hp => ?_,
    joinedBy_link_self s k e reach hk hlen, joinedBy_record s k e reach hk hrec, fun i hi hik hb => ?_, ?_⟩
  · rw [joinedBy_of (objGet · Obj.snapshotState) (fun u k => objGet_congr u _ _ (endRecord_dic u k))]
    exact objGet_startSnap_state _ _ _ _
  · have hcut := cutValues_at (freeStep s) i x hi hp
    have hv := hvals.trans ((congrArg SnapBank.values hbank).trans (startBank_values _ _ _))
    rw [hv, hcut, counterNow_freeStep]
  · rw [joinedBy_of State.free (endRecord_keeps State.free (fun _ _ => rfl)), joinSnap_eq]
    exact startSnap_free (freeStep s) _ _ _ hp
  · obtain ⟨hbound, _, hgiven⟩ := linkOf_joinSnap s e reach hi
    rw [given_iff, joinedBy_link_other _ _ _ _ _ hik]
    exact ⟨(hbound hb).1, hgiven⟩
  · intro x hx
    rw [joinedBy_of (objGet · x) (fun u k => objGet_congr u _ _ (endRecord_dic u k))]
    exact sameObjs_joinSnap s e reach x hx

/-! ### SNAPSHOT_CLOSE -/

theorem exec_snapshotClose (s : State) : exec .snapshotClose s = .next (closeSnap s) := rfl

/-- A bank without the records of its links. -/
def bankHead (b : SnapBank) : Option Nat × Nat × Nat × Nat × List Nat × Bool :=
  (b.epoch, b.origin, b.cut, b.incomplete, b.values, b.complete)

/-- What of the observations the end of a record leaves. -/
def headView (s : State) :=
  (bankHead s.obs.bank0, bankHead s.obs.bank1, snapRest s)

theorem headView_updBank (s : State) (b : Nat) (f : SnapBank → SnapBank) (hf : ∀ x, bankHead (f x) = bankHead x) :
    headView (updBank s b f) = headView s := by
  unfold updBank
  split
  · exact congrArg (fun h => (h, bankHead s.obs.bank1, snapRest s)) (hf _)
  · exact congrArg (fun h => (bankHead s.obs.bank0, h, snapRest s)) (hf _)

theorem headView_endRecord (s : State) (k : Nat) : headView (endRecord s k) = headView s :=
  headView_updBank s s.obs.target _ (fun _ => rfl)

/-- A record of the epoch ended, another left. -/
def endIf (e : Nat) (s : State) (k : Nat) : State := if (linkOf s k).recEpoch = some e then endRecord s k else s

theorem closeRecords_eq (s : State) (e : Nat) : closeRecords s e = (List.range 64).foldl (endIf e) s := rfl

theorem endIf_of {γ : Type} (vw : State → γ) (hg : ∀ u k, vw (endRecord u k) = vw u) (e : Nat) (u : State) (k : Nat) :
    vw (endIf e u k) = vw u := by
  unfold endIf
  split
  · exact hg u k
  · rfl

theorem closeRecords_of {γ : Type} (vw : State → γ) (hg : ∀ u k, vw (endRecord u k) = vw u) (s : State) (e : Nat) :
    vw (closeRecords s e) = vw s := foldlState vw _ (endIf_of vw hg e) _ _

theorem links_length_endRecord (s : State) (k : Nat) : (endRecord s k).links.length = s.links.length := by
  have hb := updBank_keeps State.links (fun _ _ => rfl) s s.obs.target
    (fun b => { b with links := b.links.set k (linkOf s k).recCount })
  simp [endRecord_eq, hb]

theorem closeRecords_ended (s : State) (e : Nat) (hlen : s.links.length = 64) {k : Nat} (hk : k < 64) :
    (linkOf (closeRecords s e) k).recEpoch ≠ some e := by
  have h := linkOf_foldl_range (endIf e) (fun _ l => if l.recEpoch = some e then recordEnded l else l)
    (fun u => u.links.length = 64) 64 (fun u i hu => (endIf_of (fun t => t.links.length) links_length_endRecord e u i).trans hu)
    (fun u i hi hu => ?_) (fun u i j hij => ?_) s hlen k
  · rw [closeRecords_eq, h, if_pos hk]
    split
    · exact nofun
    · assumption
  · unfold endIf
    split
    · exact linkOf_endRecord_self u i (hu.symm ▸ hi)
    · rfl
  · unfold endIf
    split
    · exact linkOf_endRecord_ne u i j hij
    · rfl

/-- The bank of the snapshot in progress, complete. -/
def bankClosed (u : State) (m : Nat) : State :=
  updBank u u.obs.target (fun b => { b with complete := true, incomplete := Nat.lor b.incomplete m })

/-- The progress and the objects of a closed snapshot. -/
def progressClosed (u : State) (e : Nat) : State :=
  objInc (objPut (objPut { u with obs := { u.obs with current := none } } Obj.snapshotEpoch e) Obj.snapshotState 2) Obj.snapshotsTaken

/-- The state once the snapshot in progress is closed, before a held marker starts the next. -/
def snapClosed (s : State) (e : Nat) : State := progressClosed (bankClosed (closeRecords s e) (openRecords s e)) e

theorem snapBank_progressClosed (u : State) (e b : Nat) : snapBank (progressClosed u e) b = snapBank u b := rfl

theorem progressClosed_links (u : State) (e : Nat) : (progressClosed u e).links = u.links := rfl

theorem progressClosed_free (u : State) (e : Nat) : (progressClosed u e).free = u.free := rfl

theorem progressClosed_progress (u : State) (e : Nat) : (progressClosed u e).obs.current = none
    ∧ (progressClosed u e).obs.heldMarks = u.obs.heldMarks ∧ (progressClosed u e).obs.target = u.obs.target := ⟨rfl, rfl, rfl⟩

theorem progressClosed_keeps {γ : Type} (vw : State → γ) (hg : ∀ s t, vw (foot4_20 s t) = vw s) (u : State) (e : Nat) :
    vw (progressClosed u e) = vw u := by
  have hobj (u : State) (k v : Nat) : vw (objPut u k v) = vw u := objPut_keeps vw (fun s t => hg s (footDic s t)) u k v
  unfold progressClosed
  rw [objInc_keeps vw (fun s t => hg s (footDic s t)), hobj, hobj]
  exact view_of_foot vw hg rfl

theorem progressClosed_objs (u : State) (e : Nat) : objGet (progressClosed u e) Obj.snapshotEpoch = e
    ∧ objGet (progressClosed u e) Obj.snapshotState = 2 ∧ Counted u (progressClosed u e) Obj.snapshotsTaken 1 := by
  unfold progressClosed
  refine ⟨?_, ?_, ?_⟩
  · rw [objInc, objAdd, objGet_objPut_ne _ _ _ _ (by decide), objGet_objPut_ne _ _ _ _ (by decide), objGet_objPut_self]
  · rw [objInc, objAdd, objGet_objPut_ne _ _ _ _ (by decide), objGet_objPut_self]
  · rw [Counted, objInc, objAdd, objGet_objPut_self, objGet_objPut_ne _ _ _ _ (by decide), objGet_objPut_ne _ _ _ _ (by decide)]
    rfl

theorem sameObjs_progressClosed (u : State) (e : Nat) :
    SameObjs u (progressClosed u e) [Obj.snapshotEpoch, Obj.snapshotState, Obj.snapshotsTaken] :=
  SameObjs.objInc (SameObjs.objPut (SameObjs.objPut ((SameObjs.refl u _).of_dic rfl) _ _ (by decide)) _ _ (by decide)) _ (by decide)

theorem closeSnap_due (s : State) (e reach at_ : Nat) (hc : s.obs.current = some (e, reach, at_))
    (h : at_ + ms 10 ≤ s.now ∨ recordsEnded s e = true) : closeSnap s = startHeld (snapClosed s e) := by
  have hn : ¬ (s.now < at_ + ms 10 ∧ (!recordsEnded s e) = true) := fun ⟨h1, h2⟩ => by
    rcases h with h | h
    · omega
    · rw [h] at h2
      cases h2
  unfold closeSnap snapClosed
  rw [hc]
  dsimp only
  rw [if_neg hn]
  generalize closeRecords s e = c
  rfl

theorem closeSnap_waits (s : State) (e reach at_ : Nat) (hc : s.obs.current = some (e, reach, at_))
    (h1 : s.now < at_ + ms 10) (h2 : recordsEnded s e = false) : closeSnap s = s := by
  unfold closeSnap
  rw [hc]
  exact if_pos ⟨h1, by rw [h2]; rfl⟩

theorem closeSnap_none (s : State) (hc : s.obs.current = none) : closeSnap s = s := by
  unfold closeSnap
  rw [hc]

theorem closeRecords_head (s : State) (e : Nat) : headView (closeRecords s e) = headView s :=
  closeRecords_of headView headView_endRecord s e

theorem head_rest {s t : State} (h : headView t = headView s) : snapRest t = snapRest s := congrArg (fun v => v.2.2) h

theorem head_bank {s t : State} (h : headView t = headView s) (b : Nat) : bankHead (snapBank t b) = bankHead (snapBank s b) := by
  unfold snapBank
  split
  · exact congrArg Prod.fst h
  · exact congrArg (fun v => v.2.1) h

theorem bankHead_complete {a b : SnapBank} (h : bankHead a = bankHead b) : a.complete = b.complete :=
  congrArg (fun v => v.2.2.2.2.2) h

theorem bankHead_cut {a b : SnapBank} (h : bankHead a = bankHead b) : a.cut = b.cut := congrArg (fun v => v.2.2.1) h

theorem bankHead_incomplete {a b : SnapBank} (h : bankHead a = bankHead b) : a.incomplete = b.incomplete :=
  congrArg (fun v => v.2.2.2.1) h

theorem closeRecords_target (s : State) (e : Nat) : (closeRecords s e).obs.target = s.obs.target :=
  rest_target (head_rest (closeRecords_head s e))

theorem bankClosed_keeps {γ : Type} (vw : State → γ) (hg : ∀ s t, vw (footObs s t) = vw s) (s : State) (e : Nat) :
    vw (bankClosed s e) = vw s := updBank_keeps vw hg _ _ _

theorem bankClosed_target (s : State) (m : Nat) : snapBank (bankClosed s m) s.obs.target
    = { snapBank s s.obs.target with complete := true, incomplete := Nat.lor (snapBank s s.obs.target).incomplete m } :=
  snapBank_updBank_self _ _ _

/-- The closed snapshot's bank is complete, with the links that have not marked. -/
theorem snapClosed_target (s : State) (e : Nat) : (snapBank (snapClosed s e) s.obs.target).complete = true
    ∧ (snapBank (snapClosed s e) s.obs.target).incomplete = Nat.lor (snapBank s s.obs.target).incomplete (openRecords s e)
    ∧ (snapBank (snapClosed s e) s.obs.target).cut = (snapBank s s.obs.target).cut := by
  have hb := head_bank (closeRecords_head s e) s.obs.target
  have ht := bankClosed_target (closeRecords s e) (openRecords s e)
  rw [closeRecords_target] at ht
  rw [snapClosed, snapBank_progressClosed, ht]
  exact ⟨rfl, congrArg (Nat.lor · _) (bankHead_incomplete hb), bankHead_cut (a := snapBank (closeRecords s e) s.obs.target) hb⟩

theorem snapClosed_other (s : State) (e b : Nat) (h : s.obs.target = 0 ↔ b ≠ 0) :
    bankHead (snapBank (snapClosed s e) b) = bankHead (snapBank s b) := by
  rw [snapClosed, snapBank_progressClosed, bankClosed, closeRecords_target, snapBank_updBank_other _ _ _ _ h]
  exact head_bank (closeRecords_head s e) b

theorem snapClosed_keeps {γ : Type} (vw : State → γ) (hg : ∀ s t, vw (foot4_20 s t) = vw s) (s : State) (e : Nat) :
    vw (snapClosed s e) = vw s := by
  rw [snapClosed, progressClosed_keeps vw hg, bankClosed_keeps vw (fun s t => hg s (footObs s t)),
    closeRecords_keeps vw (fun s t => hg s (footLinksObs s t))]

theorem closed_dic (s : State) (e m : Nat) : (bankClosed (closeRecords s e) m).dic = s.dic := by
  rw [bankClosed_keeps State.dic (fun _ _ => rfl), closeRecords_keeps State.dic (fun _ _ => rfl)]

theorem sameObjs_snapClosed (s : State) (e : Nat) :
    SameObjs s (snapClosed s e) [Obj.snapshotEpoch, Obj.snapshotState, Obj.snapshotsTaken] :=
  ((SameObjs.refl s _).of_dic (closed_dic s e _)).trans (sameObjs_progressClosed _ _)

theorem snapClosed_objs (s : State) (e : Nat) : objGet (snapClosed s e) Obj.snapshotEpoch = e
    ∧ objGet (snapClosed s e) Obj.snapshotState = 2 ∧ Counted s (snapClosed s e) Obj.snapshotsTaken 1 := by
  obtain ⟨h1, h2, h3⟩ := progressClosed_objs (bankClosed (closeRecords s e) (openRecords s e)) e
  refine ⟨h1, h2, ?_⟩
  rw [Counted, objGet_congr s _ _ (closed_dic s e _)] at h3
  exact h3

theorem snapClosed_links (s : State) (e : Nat) : (snapClosed s e).links = (closeRecords s e).links := by
  rw [snapClosed, progressClosed_links, bankClosed_keeps State.links (fun _ _ => rfl)]

theorem snapClosed_progress (s : State) (e : Nat) : (snapClosed s e).obs.current = none
    ∧ (snapClosed s e).obs.heldMarks = s.obs.heldMarks ∧ (snapClosed s e).obs.target = s.obs.target := by
  have hr : snapRest (bankClosed (closeRecords s e) (openRecords s e)) = snapRest s :=
    (snapRest_updBank _ _ _).trans (head_rest (closeRecords_head s e))
  obtain ⟨h1, h2, h3⟩ := progressClosed_progress (bankClosed (closeRecords s e) (openRecords s e)) e
  exact ⟨h1, h2.trans (rest_held hr), h3.trans (rest_target hr)⟩

theorem startHeld_none (s : State) (h : s.obs.heldMarks = []) : startHeld s = s := by
  unfold startHeld
  rw [h]

/-- A snapshot that closes with no marker held (R436). -/
theorem close_last (s : State) (e reach at_ : Nat) (hc : s.obs.current = some (e, reach, at_))
    (hdue : at_ + ms 10 ≤ s.now ∨ recordsEnded s e = true) (hheld : s.obs.heldMarks = []) (hlen : s.links.length = 64) :
    ∃ t, exec .snapshotClose s = .next t ∧ t = { s with dic := t.dic, links := t.links, obs := t.obs } ∧ t.obs.current = none
      ∧ objGet t Obj.snapshotEpoch = e ∧ objGet t Obj.snapshotState = 2 ∧ Counted s t Obj.snapshotsTaken 1
      ∧ SameObjs s t [Obj.snapshotEpoch, Obj.snapshotState, Obj.snapshotsTaken]
      ∧ (snapBank t s.obs.target).complete = true
      ∧ (snapBank t s.obs.target).incomplete = Nat.lor (snapBank s s.obs.target).incomplete (openRecords s e)
      ∧ (∀ k, k < 64 → (linkOf t k).recEpoch ≠ some e) := by
  obtain ⟨hcur, hmarks, _⟩ := snapClosed_progress s e
  obtain ⟨hepoch, hstate, hcount⟩ := snapClosed_objs s e
  obtain ⟨hcomplete, hincomplete, _⟩ := snapClosed_target s e
  have hexec : exec .snapshotClose s = .next (snapClosed s e) := by
    rw [exec_snapshotClose, closeSnap_due s e reach at_ hc hdue, startHeld_none _ (hmarks.trans hheld)]
  refine ⟨_, hexec, ?_, hcur, hepoch, hstate, hcount, sameObjs_snapClosed s e, hcomplete, hincomplete, fun k hk => ?_⟩
  · have hfree : (snapClosed s e).free = s.free := by
      rw [snapClosed, progressClosed_free, bankClosed_keeps State.free (fun _ _ => rfl),
        closeRecords_keeps State.free (fun _ _ => rfl)]
    have hframe := (foot4_20_self _).symm.trans (snapClosed_keeps (foot4_20 · (snapClosed s e)) (fun _ _ => rfl) s e)
    generalize snapClosed s e = t at *
    rw [foot4_20, hfree] at hframe
    exact hframe
  · rw [linkOf_congr (snapClosed_links s e)]
    exact closeRecords_ended s e hlen hk

/-- A link whose marker came before its snapshot: its record ends at once, and it counts as incomplete. -/
def earlyMark (e : Nat) (s : State) (k : Nat) : State :=
  updBank (endIf e s k) s.obs.target (fun b => { b with incomplete := setNatBit k b.incomplete })

/-- The state in which a held marker's snapshot starts. -/
def heldTaken (s : State) (e : Nat) (rest : List (Nat × Nat)) : State :=
  { s with obs := { s.obs with heldMarks := rest, earlyMarks := s.obs.earlyMarks.filter (fun x => x.1 != e) } }

theorem earlyMark_keeps {γ : Type} (vw : State → γ) (hg : ∀ s t, vw (footLinksObs s t) = vw s) (e : Nat) (s : State) (k : Nat) :
    vw (earlyMark e s k) = vw s := by
  unfold earlyMark
  rw [updBank_keeps vw (fun s t => hg s (footObs s t))]
  exact endIf_of vw (endRecord_keeps vw hg) e s k

theorem snapRest_earlyMark (e : Nat) (s : State) (k : Nat) : snapRest (earlyMark e s k) = snapRest s :=
  (snapRest_updBank _ _ _).trans (endIf_of snapRest snapRest_endRecord e s k)

/-- An early mark changes the bank in progress only, not the other one. -/
theorem bank_earlyMark (e : Nat) (s : State) (k b : Nat) (h : s.obs.target = 0 ↔ b ≠ 0) :
    bankHead (snapBank (earlyMark e s k) b) = bankHead (snapBank s b) := by
  rw [earlyMark, snapBank_updBank_other _ _ _ _ h]
  exact head_bank (endIf_of headView headView_endRecord e s k) b

theorem bank_earlyMarks (e b : Nat) (l : List Nat) (s : State) (h : s.obs.target = 0 ↔ b ≠ 0) :
    bankHead (snapBank (l.foldl (earlyMark e) s) b) = bankHead (snapBank s b) := by
  induction l generalizing s with
  | nil => rfl
  | cons k l ih =>
    have ht : (earlyMark e s k).obs.target = s.obs.target := rest_target (snapRest_earlyMark e s k)
    rw [List.foldl_cons, ih _ (by rw [ht]; exact h), bank_earlyMark e s k b h]

/-- The snapshot of a held marker started, with its early marks. -/
def heldStarted (s : State) (e reach : Nat) (rest : List (Nat × Nat)) (early : List Nat) : State :=
  early.foldl (earlyMark e) (joinSnap (heldTaken s e rest) e reach)

theorem startHeld_some (s : State) (e reach : Nat) (rest : List (Nat × Nat)) (h : s.obs.heldMarks = (e, reach) :: rest) :
    startHeld s = heldStarted s e reach rest ((s.obs.earlyMarks.filter (fun x => x.1 == e)).map Prod.snd) := by
  unfold startHeld
  rw [h]
  rfl

theorem heldStarted_of {γ : Type} (vw : State → γ) (e : Nat) (hg : ∀ u k, vw (earlyMark e u k) = vw u) (s : State) (reach : Nat)
    (rest : List (Nat × Nat)) (early : List Nat) :
    vw (heldStarted s e reach rest early) = vw (joinSnap (heldTaken s e rest) e reach) := foldlState vw _ hg _ _

theorem heldStarted_keeps {γ : Type} (vw : State → γ) (hg : ∀ s t, vw (foot4_20 s t) = vw s) (s : State) (e reach : Nat)
    (rest : List (Nat × Nat)) (early : List Nat) : vw (heldStarted s e reach rest early) = vw s := by
  rw [heldStarted_of vw e (earlyMark_keeps vw (fun s t => hg s (footLinksObs s t)) e), joinSnap_keeps vw hg]
  exact view_of_foot vw hg rfl

theorem joinSnap_held (s : State) (e reach : Nat) : (joinSnap s e reach).obs.heldMarks = s.obs.heldMarks := by
  rw [joinSnap_eq, startSnap_obs]
  exact (snapBegun_progress (freeStep s) _ _ _).2.2.1

/-- The start of a snapshot changes the older bank only. -/
theorem snapBank_joinSnap (s : State) (e reach b : Nat) (h : olderBank s = 0 ↔ b ≠ 0) :
    snapBank (joinSnap s e reach) b = snapBank s b := by
  rw [joinSnap_eq, snapBank_startSnap]
  exact snapBank_snapBegun_other (freeStep s) _ _ _ b h

theorem joinSnap_state (s : State) (e reach : Nat) : objGet (joinSnap s e reach) Obj.snapshotState = 1 := by
  rw [joinSnap_eq]
  exact objGet_startSnap_state _ _ _ _

/-- The older bank is the one that the snapshot just closed does not stand in. -/
theorem olderBank_other (s : State) (b : Nat) (hb : (snapBank s b).complete = true)
    (ho : (snapBank s (1 - b)).complete = true → (snapBank s (1 - b)).cut < (snapBank s b).cut) : olderBank s = 0 ↔ b ≠ 0 := by
  unfold snapBank at *
  unfold olderBank newerIsOne
  by_cases h : b = 0
  · subst h
    rw [if_pos rfl] at hb ho
    rw [if_neg (by decide)] at ho
    have hn : ¬ (s.obs.bank1.complete && (!s.obs.bank0.complete || decide (s.obs.bank0.cut < s.obs.bank1.cut))) = true := by
      simp only [hb, Bool.and_eq_true, Bool.not_true, Bool.false_or, decide_eq_true_eq, not_and]
      intro h1
      have := ho h1
      omega
    rw [if_neg hn, if_pos hb]
    simp
  · have h1 : 1 - b = 0 := by omega
    rw [if_neg h] at hb ho
    rw [if_pos h1] at ho
    have hn : (s.obs.bank1.complete && (!s.obs.bank0.complete || decide (s.obs.bank0.cut < s.obs.bank1.cut))) = true := by
      cases hc : s.obs.bank0.complete with
      | false => simp [hb]
      | true => simp [hb, ho hc]
    rw [if_pos hn]
    simp [h]

/-- A snapshot that closes while a marker is held: the held one starts the next (R436). -/
theorem close_held (s : State) (e reach at_ e2 r2 : Nat) (rest : List (Nat × Nat)) (hc : s.obs.current = some (e, reach, at_))
    (hdue : at_ + ms 10 ≤ s.now ∨ recordsEnded s e = true) (hheld : s.obs.heldMarks = (e2, r2) :: rest)
    (hother : (snapBank s (1 - s.obs.target)).complete = true →
      (snapBank s (1 - s.obs.target)).cut < (snapBank s s.obs.target).cut) :
    ∃ t, exec .snapshotClose s = .next t ∧ t = { s with free := t.free, dic := t.dic, links := t.links, obs := t.obs }
      ∧ t.obs.current = some (e2, r2 - 1, s.now) ∧ t.obs.heldMarks = rest ∧ objGet t Obj.snapshotEpoch = e
      ∧ objGet t Obj.snapshotState = 1 ∧ Counted s t Obj.snapshotsTaken 1 ∧ (snapBank t s.obs.target).complete = true
      ∧ SameObjs s t [Obj.snapshotEpoch, Obj.snapshotState, Obj.snapshotsTaken, Obj.retryWindowStalls] := by
  obtain ⟨-, hmarks, -⟩ := snapClosed_progress s e
  obtain ⟨hepoch, -, hcount⟩ := snapClosed_objs s e
  obtain ⟨hcomplete, -, hcut⟩ := snapClosed_target s e
  have hsame := sameObjs_snapClosed s e
  have hnow : (snapClosed s e).now = s.now := snapClosed_keeps State.now (fun _ _ => rfl) s e
  have hframe (v : State) : foot4_20 (snapClosed s e) v = foot4_20 s v := snapClosed_keeps (foot4_20 · v) (fun _ _ => rfl) s e
  have hold : olderBank (snapClosed s e) = 0 ↔ s.obs.target ≠ 0 := by
    refine olderBank_other _ _ hcomplete fun h => ?_
    have hb := snapClosed_other s e (1 - s.obs.target) (by omega)
    rw [bankHead_cut hb, hcut]
    exact hother ((bankHead_complete hb).symm.trans h)
  have hexec : exec .snapshotClose s = .next (startHeld (snapClosed s e)) := by
    rw [exec_snapshotClose, closeSnap_due s e reach at_ hc hdue]
  rw [startHeld_some _ e2 r2 rest (hmarks.trans hheld)] at hexec
  generalize snapClosed s e = c at *
  generalize (c.obs.earlyMarks.filter (fun x => x.1 == e2)).map Prod.snd = early at *
  have hrest := heldStarted_of snapRest e2 (snapRest_earlyMark e2) c r2 rest early
  have hdic := heldStarted_of State.dic e2 (earlyMark_keeps State.dic (fun _ _ => rfl) e2) c r2 rest early
  obtain ⟨hcur, htar, -⟩ := joinSnap_bank (heldTaken c e2 rest) e2 r2
  have hbank : bankHead (snapBank (heldStarted c e2 r2 rest early) s.obs.target) = bankHead (snapBank c s.obs.target) := by
    rw [heldStarted, bank_earlyMarks _ _ _ _ (by rw [htar]; exact hold), snapBank_joinSnap (heldTaken c e2 rest) e2 r2 _ hold]
    rfl
  have hjoin : SameObjs c (heldStarted c e2 r2 rest early) [Obj.snapshotState, Obj.retryWindowStalls] :=
    (((SameObjs.refl c _).of_dic (u := heldTaken c e2 rest) rfl).trans (sameObjs_joinSnap _ e2 r2)).of_dic hdic
  have hkeep := (foot4_20_self _).symm.trans
    (heldStarted_keeps (foot4_20 · (heldStarted c e2 r2 rest early)) (fun _ _ => rfl) c e2 r2 rest early)
  refine ⟨_, hexec, hkeep.trans (hframe _), ?_, ?_, ?_, ?_, ?_, (bankHead_complete hbank).trans hcomplete, ?_⟩
  · rw [rest_current hrest, hcur]
    exact congrArg (fun t => some (e2, r2 - 1, t)) hnow
  · rw [rest_held hrest, joinSnap_held]
    rfl
  · rw [hjoin _ (by decide), hepoch]
  · rw [objGet_congr _ _ _ hdic, joinSnap_state]
  · rw [Counted, hjoin _ (by decide)]
    exact hcount
  · exact (hsame.mono (by decide)).trans (hjoin.mono (by decide))

/-! ### JOURNAL_COMMIT (R438) -/

theorem exec_journalCommit (s : State) : exec .journalCommit s = .next
    (if s.power.on ∧ !s.obs.jbuf.isEmpty ∧ (s.obs.lastCommit + ms 1000 ≤ s.now ∨ 256 ≤ s.obs.jbuf.length) then
      (if mayCommit s then journalFlush s else objInc s Obj.commitDeferrals) else s) := rfl

theorem journalCommit_due (s : State) (hon : s.power.on = true) (hbuf : s.obs.jbuf ≠ [])
    (hdue : s.obs.lastCommit + ms 1000 ≤ s.now ∨ 256 ≤ s.obs.jbuf.length) : exec .journalCommit s = .next
    (if mayCommit s then journalFlush s else objInc s Obj.commitDeferrals) := by
  rw [exec_journalCommit, if_pos ⟨hon, by simp [hbuf], hdue⟩]

theorem journalCommit_idle (s : State)
    (h : s.power.on = false ∨ s.obs.jbuf = [] ∨ (s.now < s.obs.lastCommit + ms 1000 ∧ s.obs.jbuf.length < 256)) :
    exec .journalCommit s = .next s := by
  refine congrArg Host.Outcome.next (if_neg ?_)
  rintro ⟨hon, hbuf, hdue⟩
  rcases h with h | h | h
  · rw [h] at hon
    cases hon
  · simp [h] at hbuf
  · omega

/-! ### The statement -/

/-- Settles O56: a snapshot copies the counters and marks every bound link, ends and closes as its markers say, and the journal is
committed when it is due. -/
theorem snapshotsTakenAndJournalKept : Obligations.SnapshotsTakenAndJournalKept := by
  unfold Obligations.SnapshotsTakenAndJournalKept
  refine ⟨fun r v s role row s0 hw => ⟨fun hc => ?_, fun hc hn => ?_, fun hc hn _ => ?_⟩,
    fun k e reach s hk hlen => ⟨fun h => ?_, fun h hn => ?_, fun h hn hr hc => ?_, fun h hn hc hr hm => ?_, fun h hn hc hm => ?_,
      fun h hn hc hr => ?_⟩, fun s => ⟨fun hc => ?_, fun e reach at_ hc => ⟨fun h1 h2 => ?_, fun h1 h2 h3 => ?_,
      fun e2 r2 rest h1 h2 h3 h4 => ?_⟩⟩, fun s => ⟨fun h1 h2 h3 => ⟨fun h => ?_, fun h => ?_⟩, fun h => ?_⟩⟩
  · exact snapshotTake_busy r v s role row s0 hw hc
  · rw [snapshotTake_ready r v s role row s0 hw hc]
    obtain ⟨b, hb⟩ := applyNum_obs s0 r role row Obj.snapshotTake (leNat v)
    rw [takeSnap, if_pos ((epochTaken_of_obs hb _).trans hn)]
  · exact snapshotTake_new r v s role row s0 hw hc hn
  · refine ⟨_, (exec_marker k e reach s hk).trans (congrArg Host.Outcome.next (takeMarker_recording k e reach s h)),
      endRecord_frame s k, linkOf_endRecord_self s k (hlen.symm ▸ hk), fun i hi => linkOf_endRecord_ne s k i hi,
      snapBank_endRecord s k⟩
  · rw [exec_marker _ _ _ _ hk, takeMarker, if_neg h, if_pos hn]
  · rw [exec_marker _ _ _ _ hk, takeMarker_other _ _ _ _ h hn]
    rcases hc with hc | hm
    · rw [hc]
      exact congrArg Host.Outcome.next (if_pos hr)
    · cases hcur : s.obs.current with
      | none => exact congrArg Host.Outcome.next (if_pos hr)
      | some c => exact congrArg Host.Outcome.next ((if_neg (by simp [hm])).trans (if_pos hr))
  · rw [exec_marker _ _ _ _ hk, takeMarker_other _ _ _ _ h hn]
    obtain ⟨c, hcur⟩ := Option.isSome_iff_exists.mp hc
    rw [hcur]
    exact congrArg Host.Outcome.next ((if_neg (by rw [hm]; decide)).trans (if_neg (by omega)))
  · rw [exec_marker _ _ _ _ hk, takeMarker_other _ _ _ _ h hn]
    obtain ⟨c, hcur⟩ := Option.isSome_iff_exists.mp hc
    rw [hcur]
    exact congrArg Host.Outcome.next (if_pos hm)
  · exact marker_joins k e reach s hk hlen h hn hc hr
  · rw [exec_snapshotClose, closeSnap_none s hc]
  · rw [exec_snapshotClose, closeSnap_waits s e reach at_ hc h1 h2]
  · exact close_last s e reach at_ hc h1 h2 h3
  · exact close_held s e reach at_ e2 r2 rest hc h1 h2 h4
  · rw [journalCommit_due s h1 h2 h3, if_pos h]
    rfl
  · rw [journalCommit_due s h1 h2 h3, if_neg (by rw [h]; decide)]
    exact ⟨_, rfl, rfl, objGet_objPut_self _ _ _, (SameObjs.refl s _).objInc _ (by decide)⟩
  · exact journalCommit_idle s h

end Sys2Proof.Machine

/-!
Domain transfers that commit (R344, R345), and the escalation image (O11).
-/

namespace Sys2Proof.Machine

/-! ### A DomainCommit that reaches its object -/

theorem commitRow_asked (s : State) (r : Route) (sup : Bool) (key handle : Nat) (digest : Bytes) (x : Xfer) (role : Role)
    (row : ObjRow) (s0 : State) (check : Nat → Bool) (own : State → Bytes → Nat) (effect : State → Bytes → State)
    (refused : State → State) (h : CommitReady s r sup key handle digest x role row s0) :
    commitRow s r key handle digest sup check own effect refused
      = answered s r (heldKey s r) (commitDom s0 r role x digest check own effect refused) := by
  obtain ⟨hx, hk, hr, ha, -⟩ := h
  unfold commitRow
  rw [hx]
  exact (if_pos ⟨hk, hr⟩).trans (Laws.ask_asked _ _ _ _ _ _ _ _ _ ha)

/-- What an image that passes the checks of R344 is answered: its object's rule decides, and then its effect follows. -/
theorem commitDom_ready (s : State) (r : Route) (sup : Bool) (key handle : Nat) (digest : Bytes) (x : Xfer) (role : Role)
    (row : ObjRow) (s0 : State) (check : Nat → Bool) (own : State → Bytes → Nat) (effect : State → Bytes → State)
    (refused : State → State) (h : CommitReady s r sup key handle digest x role row s0) (hc : check x.size = true) :
    commitDom s0 r role x digest check own effect refused
      = if own (dropXfer s0 x.handle) (xferImage x) ≠ 0 then
          ⟨refused (dropXfer s0 x.handle), own (dropXfer s0 x.handle) (xferImage x), []⟩
        else ⟨effect (imageIn s0 r role row x) (xferImage x), 0, []⟩ := by
  obtain ⟨-, hk, -, -, hw, hrow, hacc, hmay, hgot, hsize, hsha⟩ := h
  unfold commitDom
  rw [hk, hrow]
  dsimp only
  rw [if_neg (by simp [hw]), if_neg (by simp [hacc]), if_neg (by simp [hmay]), if_neg (by simp [hgot, hc]; omega),
    if_neg (by simp [hsha])]
  rw [imageIn, hk]

theorem commitRow_taken (s : State) (r : Route) (sup : Bool) (key handle : Nat) (digest : Bytes) (x : Xfer) (role : Role)
    (row : ObjRow) (s0 : State) (check : Nat → Bool) (own : State → Bytes → Nat) (effect : State → Bytes → State)
    (refused : State → State) (h : CommitReady s r sup key handle digest x role row s0) (hc : check x.size = true)
    (ho : own (dropXfer s0 x.handle) (xferImage x) = 0) : commitRow s r key handle digest sup check own effect refused
      = answered s r (heldKey s r) ⟨effect (imageIn s0 r role row x) (xferImage x), 0, []⟩ := by
  rw [commitRow_asked _ _ _ _ _ _ _ _ _ _ _ _ _ _ h, commitDom_ready _ _ _ _ _ _ _ _ _ _ _ _ _ _ h hc, if_neg (by simp [ho])]

theorem commitRow_refused (s : State) (r : Route) (sup : Bool) (key handle : Nat) (digest : Bytes) (x : Xfer) (role : Role)
    (row : ObjRow) (s0 : State) (check : Nat → Bool) (own : State → Bytes → Nat) (effect : State → Bytes → State)
    (refused : State → State) (h : CommitReady s r sup key handle digest x role row s0) (hc : check x.size = true)
    (ho : own (dropXfer s0 x.handle) (xferImage x) ≠ 0) : commitRow s r key handle digest sup check own effect refused
      = answered s r (heldKey s r) ⟨refused (dropXfer s0 x.handle), own (dropXfer s0 x.handle) (xferImage x), []⟩ := by
  rw [commitRow_asked _ _ _ _ _ _ _ _ _ _ _ _ _ _ h, commitDom_ready _ _ _ _ _ _ _ _ _ _ _ _ _ _ h hc, if_pos ho]

/-! ### The escalation image (R128) -/

theorem escGet_escPut_self (s : State) (i cur hold : Nat) : escGet (escPut s i cur hold) i = (cur, hold) := by
  unfold escGet escPut smGetD
  dsimp only
  split
  next h => rw [smGet_smErase_self, h.1, h.2]; rfl
  next h => rw [smGet_smSet_self]; rfl

theorem escGet_escPut_ne (s : State) (i j cur hold : Nat) (h : j ≠ i) : escGet (escPut s i cur hold) j = escGet s j := by
  unfold escGet escPut smGetD
  dsimp only
  split
  · rw [smGet_smErase_ne _ _ _ h]
  · rw [smGet_smSet_ne _ _ _ _ h]

/-- The entries of an image put, one after another. -/
def escImagePut (image : Bytes) (n : Nat) (s : State) : State :=
  (List.range n).foldl (fun s i => escPut s i (escEntry image i % 4) (escEntry image i / 2 ^ 16)) s

theorem escImagePut_succ (image : Bytes) (n : Nat) (s : State) : escImagePut image (n + 1) s
    = escPut (escImagePut image n s) n (escEntry image n % 4) (escEntry image n / 2 ^ 16) := by
  simp [escImagePut, List.range_succ]

theorem escGet_escImagePut (image : Bytes) (n : Nat) (s : State) (i : Nat) (hi : i < n) :
    escGet (escImagePut image n s) i = (escEntry image i % 4, escEntry image i / 2 ^ 16) := by
  induction n with
  | zero => omega
  | succ n ih =>
    rw [escImagePut_succ]
    by_cases h : i = n
    · subst h
      exact escGet_escPut_self _ _ _ _
    · rw [escGet_escPut_ne _ _ _ _ _ h]
      exact ih (by omega)

theorem escImagePut_frame (image : Bytes) (n : Nat) (s : State) :
    escImagePut image n s = { s with esc := (escImagePut image n s).esc } := by
  induction n with
  | zero => rfl
  | succ n ih =>
    rw [escImagePut_succ]
    generalize escImagePut image n s = t at *
    rw [ih]
    rfl

theorem escImageApply_eq (s : State) (image : Bytes) :
    escImageApply s image = escImagePut image 4096 { s with doms := smErase s.doms Obj.escalationImage } := rfl

theorem escImageCheck_ok (s : State) (image : Bytes) (h : ∀ i, i < 4096 → escEntry image i / 4 % 2 ^ 14 = 0) :
    escImageCheck s image = 0 := by
  refine if_neg fun hany => ?_
  obtain ⟨i, hi, hne⟩ := List.any_eq_true.mp hany
  rw [h i (List.mem_range.mp hi)] at hne
  cases hne

/-- Settles O11: every entry of an accepted escalation image stands in its layer's entry, and the image is not held beside them. -/
theorem escalationImageSetsEntries : Obligations.EscalationImageSetsEntries := by
  unfold Obligations.EscalationImageSetsEntries
  intro r handle digest s x role row s0 hready hsize hbits
  have hexec : exec (.escalationImageCommit r handle digest) s = .next (answered s r (heldKey s r)
      ⟨escImageApply (imageIn s0 r role row x) (xferImage x), 0, []⟩) :=
    congrArg Host.Outcome.next (commitRow_taken s r false _ handle digest x role row s0 _ _ _ _ hready (by simp [hsize])
      (escImageCheck_ok _ _ hbits))
  rw [escImageApply_eq] at hexec
  generalize imageIn s0 r role row x = a at *
  have hframe := escImagePut_frame (xferImage x) 4096 { a with doms := smErase a.doms Obj.escalationImage }
  have hentry := escGet_escImagePut (xferImage x) 4096 { a with doms := smErase a.doms Obj.escalationImage }
  generalize escImagePut (xferImage x) 4096 { a with doms := smErase a.doms Obj.escalationImage } = u at *
  refine ⟨u, hexec, ?_, fun i hi => hentry i hi, ?_⟩
  · rw [hframe]
  · rw [hframe]
    exact smGet_smErase_self _ _

end Sys2Proof.Machine

/-!
What changes of queues leave, and the doorbells taken when a scheduler is back.
-/

namespace Sys2Proof.Machine

/-! ### Queues changed -/

theorem smGet_smModify {α : Type} (m : SMap α) (k j : Nat) (f : α → α) :
    smGet (smModify m k f) j = if j = k then (smGet m k).map f else smGet m j := by
  unfold smModify
  by_cases h : j = k
  · subst h
    rw [if_pos rfl]
    split
    next v hv => rw [smGet_smSet_self, hv]; rfl
    next hn => rw [hn]; rfl
  · rw [if_neg h]
    split
    · exact smGet_smSet_ne _ _ _ _ h
    · rfl

theorem smGet_updQ_self (s : State) (q : Nat) (f : Queue → Queue) :
    smGet (updQ s q f).queues q = (smGet s.queues q).map f := (smGet_smModify _ _ _ _).trans (if_pos rfl)

theorem smGet_updQ_ne (s : State) (q p : Nat) (f : Queue → Queue) (h : p ≠ q) :
    smGet (updQ s q f).queues p = smGet s.queues p := (smGet_smModify _ _ _ _).trans (if_neg h)

/-- A view of one queue, or nothing where it is not launched. -/
def queueView {γ : Type} (qv : Queue → γ) (q : Nat) (s : State) : Option γ := (smGet s.queues q).map qv

theorem queueView_updQ {γ : Type} (qv : Queue → γ) (p : Nat) (s : State) (q : Nat) (f : Queue → Queue)
    (hf : ∀ v, qv (f v) = qv v) : queueView qv p (updQ s q f) = queueView qv p s := by
  unfold queueView
  by_cases h : p = q
  · subst h
    rw [smGet_updQ_self, Option.map_map]
    congr 1
    funext v
    exact hf v
  · rw [smGet_updQ_ne _ _ _ _ h]

theorem queueView_of_queues {γ : Type} (qv : Queue → γ) (p : Nat) {s t : State} (h : t.queues = s.queues) :
    queueView qv p t = queueView qv p s := congrArg (fun m => (smGet m p).map qv) h

/-- What a queue's interrupts leave of it. -/
theorem queueView_sendQueueIrqs {γ : Type} (qv : Queue → γ)
    (hq : ∀ v a b c, qv { v with trapSent := a, cplSent := b, errSent := c } = qv v) (p : Nat) (s : State) (q : Nat) :
    queueView qv p (sendQueueIrqs s q) = queueView qv p s := by
  have hv (u : State) (n : Nat) : queueView qv p (sendVector u n) = queueView qv p u :=
    queueView_of_queues qv p (sendVector_keeps State.queues (fun _ _ => rfl) u n)
  have hite (u : State) (c : Bool) (n : Nat) : queueView qv p (if c then sendVector u n else u) = queueView qv p u := by
    split
    · exact hv u n
    · rfl
  unfold sendQueueIrqs
  split
  · rfl
  · rw [hite, hite, hite]
    exact queueView_updQ qv p s q _ (fun v => hq v _ _ _)

theorem queueView_raiseErr {γ : Type} (qv : Queue → γ)
    (hq : ∀ v a b c d, qv { v with trapSent := a, cplSent := b, errSent := c, errPend := d } = qv v) (p : Nat) (s : State) (q : Nat) :
    queueView qv p (raiseErr s q) = queueView qv p s := by
  rw [raiseErr, queueView_sendQueueIrqs qv (fun v a b c => hq v a b c v.errPend)]
  exact queueView_updQ qv p s q _ (fun v => hq v _ _ _ _)

/-! ### Doorbells taken -/

/-- What taking a producer index leaves of a queue. -/
theorem queueView_doorbellTake {γ : Type} (qv : Queue → γ)
    (hq : ∀ v a b c d e g, qv { v with trapSent := a, cplSent := b, errSent := c, errPend := d, doorbellError := e, prod := g } = qv v)
    (k : Nat) (s : State) (q p : Nat) : queueView qv k (doorbellTake s q p) = queueView qv k s := by
  unfold doorbellTake
  split
  · rfl
  · dsimp only
    split
    · rfl
    · split
      · exact queueView_updQ qv k s q _ (fun v => hq v v.trapSent v.cplSent v.errSent v.errPend v.doorbellError _)
      · rw [queueView_raiseErr qv (fun v a b c d => hq v a b c d v.doorbellError v.prod)]
        exact (queueView_of_queues qv k rfl).trans
          (queueView_updQ qv k s q _ (fun v => hq v v.trapSent v.cplSent v.errSent v.errPend _ v.prod))

theorem queueView_takeLatched {γ : Type} (qv : Queue → γ)
    (hq : ∀ v a b c d e g l, qv { v with trapSent := a, cplSent := b, errSent := c, errPend := d, doorbellError := e, prod := g
                                         latched := l } = qv v)
    (k : Nat) (s : State) (q : Nat) : queueView qv k (takeLatched s q) = queueView qv k s := by
  unfold takeLatched
  split
  · rfl
  · rw [foldlState (queueView qv k) _ (fun u p => queueView_doorbellTake qv
      (fun v a b c d e g => hq v a b c d e g v.latched) k u q p)]
    exact queueView_updQ qv k s q _ (fun v => hq v v.trapSent v.cplSent v.errSent v.errPend v.doorbellError v.prod [])

theorem queueView_takeDoorbells {γ : Type} (qv : Queue → γ)
    (hq : ∀ v a b c d e g l, qv { v with trapSent := a, cplSent := b, errSent := c, errPend := d, doorbellError := e, prod := g
                                         latched := l } = qv v)
    (k : Nat) (s : State) : queueView qv k (takeDoorbells s) = queueView qv k s := by
  refine foldlState (queueView qv k) _ (fun u e => ?_) _ _
  split
  · rfl
  · exact queueView_takeLatched qv hq k u e.1

theorem sameObjs_doorbellTake (s : State) (q p : Nat) : SameObjs s (doorbellTake s q p) [Obj.doorbellErrors] := by
  have hu (f : Queue → Queue) : SameObjs s (updQ s q f) [Obj.doorbellErrors] := (SameObjs.refl s _).of_dic rfl
  unfold doorbellTake
  split
  · exact SameObjs.refl _ _
  · dsimp only
    split
    · exact SameObjs.refl _ _
    · split
      · exact hu _
      · exact ((hu _).objInc _ (by decide)).of_dic (raiseErr_keeps State.dic (fun _ _ => rfl) _ _)

theorem sameObjs_takeDoorbells (s : State) : SameObjs s (takeDoorbells s) [Obj.doorbellErrors] := by
  refine (SameObjs.refl s _).foldl _ (fun u e => ?_) _
  split
  · exact SameObjs.refl _ _
  · unfold takeLatched
    split
    · exact SameObjs.refl _ _
    · exact ((SameObjs.refl u _).of_dic (u := updQ u e.1 _) rfl).foldl _ (fun w p => sameObjs_doorbellTake w e.1 p) _

/-- A queue without latched doorbells. -/
def NoneLatched (s : State) (q : Nat) : Prop := ∀ v, smGet s.queues q = some v → v.latched = []

theorem noneLatched_of_view {s t : State} {q : Nat} (h : queueView Queue.latched q t = queueView Queue.latched q s)
    (hs : NoneLatched s q) : NoneLatched t q := fun v hv => by
  rw [queueView, hv, Option.map_some, queueView] at h
  obtain ⟨w, hw, hl⟩ := Option.map_eq_some_iff.mp h.symm
  rw [← hl]
  exact hs w hw

theorem noneLatched_takeLatched_self (s : State) (q : Nat) : NoneLatched (takeLatched s q) q := by
  unfold takeLatched
  split
  next hn =>
    intro v hv
    rw [hn] at hv
    cases hv
  next w hw =>
    refine noneLatched_of_view (foldlState (queueView Queue.latched q) _
      (fun u p => queueView_doorbellTake Queue.latched (fun _ _ _ _ _ _ _ => rfl) q u q p) _ _) fun v hv => ?_
    rw [smGet_updQ_self, hw] at hv
    cases hv
    rfl

theorem noneLatched_takeLatched (s : State) (q p : Nat) (h : NoneLatched s q) : NoneLatched (takeLatched s p) q := by
  by_cases hp : p = q
  · subst hp
    exact noneLatched_takeLatched_self s p
  · unfold takeLatched
    split
    · exact h
    · refine noneLatched_of_view (foldlState (queueView Queue.latched q) _
        (fun u x => queueView_doorbellTake Queue.latched (fun _ _ _ _ _ _ _ => rfl) q u p x) _ _) fun v hv => ?_
      rw [smGet_updQ_ne _ _ _ _ (Ne.symm hp)] at hv
      exact h v hv

theorem doorbellHeld_of {s t : State} {v w : Queue} (hc : t.cores = s.cores) (hs : t.seqs = s.seqs) (hv : w.halves = v.halves) :
    doorbellHeld t w = doorbellHeld s v := by
  unfold doorbellHeld
  rw [hc, hs, hv]

theorem takeLatched_held (s : State) (q : Nat) (v : Queue) : doorbellHeld (takeLatched s q) v = doorbellHeld s v :=
  doorbellHeld_of (takeLatched_keeps State.cores (fun _ _ => rfl) s q) (takeLatched_keeps State.seqs (fun _ _ => rfl) s q) rfl

theorem noneLatched_fold (l : List (Nat × Queue)) (q : Nat) (s : State)
    (h : NoneLatched s q ∨ ∃ e ∈ l, e.1 = q ∧ doorbellHeld s e.2 = false) :
    NoneLatched (l.foldl (fun s e => if doorbellHeld s e.2 then s else takeLatched s e.1) s) q := by
  induction l generalizing s with
  | nil =>
    rcases h with h | ⟨e, he, -⟩
    · exact h
    · cases he
  | cons a l ih =>
    rw [List.foldl_cons]
    refine ih _ ?_
    by_cases ha : doorbellHeld s a.2 = true
    · rw [if_pos ha]
      refine h.imp_right fun ⟨e, he, hq, hd⟩ => ⟨e, ?_, hq, hd⟩
      rcases List.mem_cons.mp he with rfl | he
      · rw [ha] at hd
        cases hd
      · exact he
    · rw [if_neg ha]
      rcases h with h | ⟨e, he, hq, hd⟩
      · exact .inl (noneLatched_takeLatched s q a.1 h)
      · rcases List.mem_cons.mp he with rfl | he
        · exact .inl (hq ▸ noneLatched_takeLatched_self s e.1)
        · exact .inr ⟨e, he, hq, (takeLatched_held s a.1 e.2).trans hd⟩

/-- A queue whose doorbells are not held has none latched once they are taken (R201). -/
theorem takeDoorbells_latched (s : State) (q : Nat) (v : Queue) (hv : smGet (takeDoorbells s).queues q = some v)
    (hd : doorbellHeld (takeDoorbells s) v = false) : v.latched = [] := by
  have hview := queueView_takeDoorbells Queue.halves (fun _ _ _ _ _ _ _ _ => rfl) q s
  rw [queueView, hv, Option.map_some, queueView] at hview
  obtain ⟨w, hw, hh⟩ := Option.map_eq_some_iff.mp hview.symm
  have hheld : doorbellHeld s w = false := by
    rw [← hd]
    exact (doorbellHeld_of (takeDoorbells_keeps State.cores (fun _ _ => rfl) s)
      (takeDoorbells_keeps State.seqs (fun _ _ => rfl) s) hh.symm).symm
  exact noneLatched_fold s.queues q s (.inr ⟨(q, w), mem_of_smGet hw, rfl, hheld⟩) v hv

end Sys2Proof.Machine

/-!
Synchronisation objects, control cores and the supervisor (O19).
-/

namespace Sys2Proof.Machine

/-! ### Synchronisation objects (R194, R195, R197) -/

theorem exec_syncWrite (o n : Nat) (set : Bool) (s : State) (ho : o < 32768) :
    exec (if set then .syncSet o n else .syncSignal o n) s
      = .next (syncPut s o (if set then BitVec.ofNat 64 n else syncGet s o + BitVec.ofNat 64 n)) := by
  cases set
  · exact need_lt ho _
  · exact need_lt ho _

theorem syncGet_syncPut_self (s : State) (o : Nat) (v : Word64) : syncGet (syncPut s o v) o = v := by
  simp [syncGet, syncPut, releaseClaims, releaseWaits, smGetD]

theorem syncGet_syncPut_ne (s : State) (o k : Nat) (v : Word64) (h : k ≠ o) : syncGet (syncPut s o v) k = syncGet s k := by
  simp [syncGet, syncPut, releaseClaims, releaseWaits, smGetD, smGet_smSet_ne _ _ _ _ h]

theorem mem_waiters_syncPut (s : State) (o : Nat) (v : Word64) (w : Waiter) :
    w ∈ (syncPut s o v).waiters ↔ w ∈ s.waiters ∧ ¬(w.obj = o ∧ w.polled = false ∧ w.value ≤ v.toNat) := by
  simp only [syncPut, releaseClaims, releaseWaits, List.mem_filter, Bool.not_eq_true', Bool.and_eq_false_iff]
  cases w.polled <;> simp [Classical.or_iff_not_imp_left]

theorem mem_claims_syncPut (s : State) (o : Nat) (v : Word64) (c : Claim) :
    c ∈ (syncPut s o v).claims ↔ c ∈ s.claims ∧ ∀ x, c.release = some (o, x) → ¬ x ≤ v.toNat := by
  simp only [syncPut, releaseClaims, releaseWaits, List.mem_filter]
  refine and_congr_right fun _ => ?_
  cases hr : c.release with
  | none => simp
  | some p =>
    obtain ⟨o', v'⟩ := p
    by_cases ho : o' = o
    · subst ho
      simp
    · simp [ho]

theorem syncPut_frame (s : State) (o : Nat) (v : Word64) : syncPut s o v = { s with
    sync := (syncPut s o v).sync, waiters := (syncPut s o v).waiters, claims := (syncPut s o v).claims } := rfl

theorem mem_waiters_waitPoll (s : State) (h : Half) (w : Waiter) :
    w ∈ s.waiters.filter (fun w => !(w.polled && halfOfObj w.obj == h && reached s w.obj w.value))
      ↔ w ∈ s.waiters ∧ ¬(w.polled = true ∧ halfOfObj w.obj = h ∧ w.value ≤ (syncGet s w.obj).toNat) := by
  rw [List.mem_filter]
  refine and_congr_right fun _ => ?_
  simp only [reached, Bool.not_eq_true', ← Bool.not_eq_true, Bool.and_eq_true, beq_iff_eq, decide_eq_true_eq, and_assoc]

/-! ### A core changed -/

theorem coreAt_updCore (s : State) (i j : Nat) (f : Core → Core) :
    coreAt (updCore s i f) j = if i = j ∧ j < s.cores.length then f (coreAt s j) else coreAt s j := getD_modifyAt _ _ _ _ _

theorem coreAt_congr {s t : State} (h : t.cores = s.cores) (i : Nat) : coreAt t i = coreAt s i := congrArg (·.getD i {}) h

/-- A core that runs, or restarts, is one of the module. -/
theorem core_exists (s : State) (i : Nat) (h : (coreAt s i).st ≠ 0) : i < s.cores.length := by
  refine Nat.lt_of_not_le fun hle => h ?_
  simp [coreAt, List.getD, List.getElem?_eq_none hle]

theorem coreAt_updCore_self (s : State) (i : Nat) (f : Core → Core) (h : (coreAt s i).st ≠ 0) :
    coreAt (updCore s i f) i = f (coreAt s i) := (coreAt_updCore s i i f).trans (if_pos ⟨rfl, core_exists s i h⟩)

theorem coreAt_updCore_ne (s : State) (i j : Nat) (f : Core → Core) (h : j ≠ i) : coreAt (updCore s i f) j = coreAt s j :=
  (coreAt_updCore s i j f).trans (if_neg fun hc => h hc.1.symm)

/-! ### Rotor steps abandoned (R220) -/

theorem rotorOf_updRotor (s : State) (x y : Nat) (f : Rotor → Rotor) :
    rotorOf (updRotor s x f) y = if x = y ∧ y < s.rotors.length then f (rotorOf s y) else rotorOf s y := getD_modifyAt _ _ _ _ _

theorem rotorOf_congr {s t : State} (h : t.rotors = s.rotors) (x : Nat) : rotorOf t x = rotorOf s x := congrArg (·.getD x {}) h

/-- A fibre without a rotor has no step. -/
theorem rotorOf_of_le (s : State) {x : Nat} (h : s.rotors.length ≤ x) : rotorOf s x = {} := by
  simp [rotorOf, List.getD, List.getElem?_eq_none h]

/-- A rotor whose step is abandoned for the n-th time. -/
def stepAborted (n : Nat) (r : Rotor) : Rotor := { r with phase := 0, lane := none, aborts := n, held := r.held || decide (8 ≤ n) }

theorem abortRotor_eq (s : State) (x : Nat) : abortRotor s x =
    if (rotorOf s x).aborts + 1 = 8 then
      journal (objInc (updRotor s x (stepAborted ((rotorOf s x).aborts + 1))) Obj.rotorAborts) .rotorHeld [x]
    else objInc (updRotor s x (stepAborted ((rotorOf s x).aborts + 1))) Obj.rotorAborts := rfl

theorem rotorOf_abortRotor (s : State) (x y : Nat) : (rotorOf (abortRotor s x) y).phase = if x = y then 0 else (rotorOf s y).phase := by
  have hr (f : Rotor → Rotor) (k : Nat) : rotorOf (objInc (updRotor s x f) k) y = rotorOf (updRotor s x f) y := rfl
  have hphase : (rotorOf (updRotor s x (stepAborted ((rotorOf s x).aborts + 1))) y).phase
      = if x = y then 0 else (rotorOf s y).phase := by
    rw [rotorOf_updRotor]
    by_cases hx : x = y
    · rw [if_pos hx]
      split
      · rfl
      next h => rw [rotorOf_of_le s (by omega)]
    · rw [if_neg hx, if_neg (fun h => hx h.1)]
  rw [abortRotor_eq]
  split
  · rw [rotorOf_congr (journal_keeps State.rotors (fun _ _ => rfl) _ _ _), hr, hphase]
  · rw [hr, hphase]

theorem rotorOf_abortTold (s : State) (x y : Nat) : (rotorOf (abortTold s x) y).phase = if x = y then 0 else (rotorOf s y).phase := by
  unfold abortTold
  split
  · rw [rotorOf_abortRotor, rotorOf_congr (sendCtl_keeps State.rotors (fun _ _ => rfl) _ _ _)]
  · exact rotorOf_abortRotor s x y

theorem sameObjs_abortTold (s : State) (x : Nat) :
    SameObjs s (abortTold s x) (Obj.rotorAborts :: Obj.retryWindowStalls :: journalObjs) := by
  have habort (u : State) : SameObjs u (abortRotor u x) (Obj.rotorAborts :: Obj.retryWindowStalls :: journalObjs) := by
    have hinc (f : Rotor → Rotor) : SameObjs u (objInc (updRotor u x f) Obj.rotorAborts)
        (Obj.rotorAborts :: Obj.retryWindowStalls :: journalObjs) :=
      ((SameObjs.refl u _).of_dic (u := updRotor u x f) rfl).objInc _ (by decide)
    unfold abortRotor
    dsimp only
    split
    · exact (hinc _).journal _ _ (by decide)
    · exact hinc _
  unfold abortTold
  split
  · exact ((sameObjs_sendCtl s _ _).mono (by decide)).trans (habort _)
  · exact habort s

/-- A rotor step abandoned where one runs. -/
def abortIf (first : Nat) (s : State) (i : Nat) : State := if (rotorOf s (first + i)).phase = 0 then s else abortTold s (first + i)

theorem abortSteps_eq (s : State) (first : Nat) : abortSteps s first = (List.range 16).foldl (abortIf first) s := rfl

theorem rotorOf_abortIf (first : Nat) (s : State) (i y : Nat) :
    (rotorOf (abortIf first s i) y).phase = if first + i = y then 0 else (rotorOf s y).phase := by
  unfold abortIf
  split
  next h =>
    split
    next hy => rw [← hy, h]
    next => rfl
  next h => exact rotorOf_abortTold s _ y

theorem abortSteps_phase (first n : Nat) (s : State) (k : Nat) (hk : k < n) :
    (rotorOf ((List.range n).foldl (abortIf first) s) (first + k)).phase = 0 := by
  induction n with
  | zero => omega
  | succ n ih =>
    rw [List.range_succ, List.foldl_append, List.foldl_cons, List.foldl_nil, rotorOf_abortIf]
    split
    · rfl
    · exact ih (by omega)

theorem sameObjs_abortSteps (s : State) (first : Nat) :
    SameObjs s (abortSteps s first) (Obj.rotorAborts :: Obj.retryWindowStalls :: journalObjs) := by
  refine (SameObjs.refl s _).foldl _ (fun u i => ?_) _
  split
  · exact SameObjs.refl _ _
  · exact sameObjs_abortTold u _

/-! ### Schedulers marked -/

/-- Whether a scheduler of a queue's halves restarts. -/
def schedDown (s : State) (v : Queue) : Bool :=
  serves v.halves .w && (coreAt s 0).st == 2 || serves v.halves .e && (coreAt s 4).st == 2

/-- Every queue reports whether a scheduler of its halves restarts. -/
def SchedsMarked (s : State) : Prop := ∀ q v, smGet s.queues q = some v → v.schedRestarting = schedDown s v

theorem smGet_mapSnd {α : Type} (m : SMap α) (f : α → α) (k : Nat) :
    smGet (m.map (fun e => (e.1, f e.2))) k = (smGet m k).map f := by
  induction m with
  | nil => rfl
  | cons e r ih =>
    rw [List.map_cons, smGet, smGet]
    split
    · rfl
    · exact ih

theorem schedsMarked_markScheds (s : State) : SchedsMarked (markScheds s) := by
  intro q v hv
  have hm : smGet (markScheds s).queues q = (smGet s.queues q).map (fun v => { v with schedRestarting := schedDown s v }) :=
    smGet_mapSnd s.queues (fun v => { v with schedRestarting := schedDown s v }) q
  rw [hm] at hv
  obtain ⟨w, -, rfl⟩ := Option.map_eq_some_iff.mp hv
  rfl

theorem schedDown_of {s t : State} {v w : Queue} (hc : t.cores = s.cores) (hv : w.halves = v.halves) : schedDown t w = schedDown s v := by
  unfold schedDown
  rw [coreAt_congr hc, coreAt_congr hc, hv]

theorem schedsMarked_takeDoorbells (s : State) (h : SchedsMarked s) : SchedsMarked (takeDoorbells s) := by
  intro q v hv
  have hview := queueView_takeDoorbells (fun v => (v.halves, v.schedRestarting)) (fun _ _ _ _ _ _ _ _ => rfl) q s
  rw [queueView, hv, Option.map_some, queueView] at hview
  obtain ⟨w, hw, hh⟩ := Option.map_eq_some_iff.mp hview.symm
  obtain ⟨hhalves, hmark⟩ := Prod.mk.inj hh
  rw [← hmark, h q w hw]
  exact (schedDown_of (takeDoorbells_keeps State.cores (fun _ _ => rfl) s) hhalves.symm).symm

theorem schedsMarked_of {s t : State} (hq : t.queues = s.queues) (hc : t.cores = s.cores) (h : SchedsMarked s) : SchedsMarked t := by
  intro q v hv
  rw [hq] at hv
  rw [h q v hv, schedDown_of hc rfl]

/-! ### A core's watchdog (R200, R202) -/

/-- A core held in reset, journalled. -/
def coreHeld (s : State) (i pc : Nat) : State :=
  journal (updCore s i (fun c => { c with st := 2, restarts := recentRestarts s i ++ [s.now] })) .coreRestart [i, pc]

theorem exec_coreWatchdogExpire (i pc : Nat) (image : Bool) (s : State) (hi : i < 8) : exec (.coreWatchdogExpire i pc image) s
    = .next (if (coreAt s i).st = 1 ∧ (i < 4 ∨ pathE s = true) then watchdog s i pc else s) := need_lt hi _

theorem coreHeld_core (s : State) (i pc : Nat) (h : (coreAt s i).st = 1) :
    (coreAt (coreHeld s i pc) i).st = 2 ∧ (coreAt (coreHeld s i pc) i).restarts = recentRestarts s i ++ [s.now] := by
  have hc : (coreHeld s i pc).cores = (updCore s i (fun c => { c with st := 2, restarts := recentRestarts s i ++ [s.now] })).cores :=
    journal_keeps State.cores (fun _ _ => rfl) _ _ _
  rw [coreAt_congr hc, coreAt_updCore_self _ _ _ (by omega)]
  exact ⟨rfl, rfl⟩

theorem coreHeld_other (s : State) (i pc k : Nat) (h : k ≠ i) : coreAt (coreHeld s i pc) k = coreAt s k := by
  rw [coreHeld, coreAt_congr (journal_keeps State.cores (fun _ _ => rfl) _ _ _), coreAt_updCore_ne _ _ _ _ h]

theorem sameObjs_coreHeld (s : State) (i pc : Nat) : SameObjs s (coreHeld s i pc) journalObjs :=
  ((SameObjs.refl s _).of_dic (u := updCore s i _) rfl).journal _ _ (by decide)

def footCoresJournal (s t : State) : State := { s with dic := t.dic, cores := t.cores, obs := t.obs }

theorem footCoresJournal_self (s : State) : footCoresJournal s s = s := rfl

theorem coreHeld_keeps {γ : Type} (vw : State → γ) (hg : ∀ s t, vw (footCoresJournal s t) = vw s) (s : State) (i pc : Nat) :
    vw (coreHeld s i pc) = vw s :=
  (journal_keeps vw (fun s t => hg s (footDicObs s t)) _ _ _).trans (updCore_keeps vw (fun s t => hg s (footCores s t)) _ _ _)

theorem watchdog_held (s : State) (i pc : Nat) (h : (recentRestarts s i).length < 3) : watchdog s i pc
    = if isSched i then failCheckpoint (markScheds (if i % 4 = 2 then abortSteps (coreHeld s i pc) (if i < 4 then 0 else 16)
        else coreHeld s i pc))
      else if i % 4 = 2 then abortSteps (coreHeld s i pc) (if i < 4 then 0 else 16) else coreHeld s i pc := if_neg (by omega)

theorem isSched_iff (i : Nat) : isSched i = true ↔ i % 4 = 0 := by simp [isSched]

/-- What a core's restart does, by the core: a rotor core abandons its steps, a scheduler marks its queues and ends a checkpoint. -/
theorem watchdog_sched (s : State) (i pc : Nat) (h : (recentRestarts s i).length < 3) (hi : isSched i = true) :
    watchdog s i pc = failCheckpoint (markScheds (coreHeld s i pc)) := by
  rw [watchdog_held s i pc h, if_pos hi, if_neg (by have := (isSched_iff i).mp hi; omega)]

theorem watchdog_rotor (s : State) (i pc : Nat) (h : (recentRestarts s i).length < 3) (hi : i % 4 = 2) :
    watchdog s i pc = abortSteps (coreHeld s i pc) (if i < 4 then 0 else 16) := by
  rw [watchdog_held s i pc h, if_neg (by rw [isSched_iff]; omega), if_pos hi]

theorem watchdog_plain (s : State) (i pc : Nat) (h : (recentRestarts s i).length < 3) (hi : i % 2 = 1) :
    watchdog s i pc = coreHeld s i pc := by
  rw [watchdog_held s i pc h, if_neg (by rw [isSched_iff]; omega), if_neg (by omega)]

theorem markScheds_cores (s : State) : (markScheds s).cores = s.cores := rfl

theorem failCheckpoint_idle (s : State) (h : s.seqs.ckptStep = 0) : failCheckpoint s = s := if_pos h

/-- A checkpoint that fails before the doorbells held for it are taken. -/
def checkpointGone (s : State) : State :=
  journal (objPut (updSeqs s (fun q => { q with ckptStep := 0 })) Obj.checkpointState 3) .checkpointFailed [s.seqs.ckptStep]

theorem failCheckpoint_running (s : State) (h : s.seqs.ckptStep ≠ 0) : failCheckpoint s = takeDoorbells (checkpointGone s) := if_neg h

theorem watchdog_cores (s : State) (i pc : Nat) (h : (recentRestarts s i).length < 3) :
    (watchdog s i pc).cores = (coreHeld s i pc).cores := by
  rw [watchdog_held s i pc h]
  split
  · rw [failCheckpoint_keeps State.cores (fun _ _ => rfl), markScheds_cores]
    split
    · exact abortSteps_keeps State.cores (fun _ _ => rfl) _ _
    · rfl
  · split
    · exact abortSteps_keeps State.cores (fun _ _ => rfl) _ _
    · rfl

theorem checkpointGone_state (s : State) : objGet (takeDoorbells (checkpointGone s)) Obj.checkpointState = 3 := by
  rw [sameObjs_takeDoorbells _ _ (by decide), checkpointGone, objGet_journal _ _ _ _ (by decide) (by decide), objGet_objPut_self]

theorem sameObjs_checkpointGone (s : State) : SameObjs s (takeDoorbells (checkpointGone s))
    (Obj.checkpointState :: Obj.doorbellErrors :: journalObjs) := by
  have hput : SameObjs s (objPut (updSeqs s (fun q => { q with ckptStep := 0 })) Obj.checkpointState 3)
      (Obj.checkpointState :: Obj.doorbellErrors :: journalObjs) :=
    ((SameObjs.refl s _).of_dic (u := updSeqs s _) rfl).objPut _ _ (by decide)
  exact (hput.journal _ _ (by decide)).trans ((sameObjs_takeDoorbells _).mono (by decide))

theorem checkpointGone_queues (s : State) : (checkpointGone s).queues = s.queues := journal_keeps State.queues (fun _ _ => rfl) _ _ _

theorem checkpointGone_cores (s : State) : (checkpointGone s).cores = s.cores := journal_keeps State.cores (fun _ _ => rfl) _ _ _

theorem checkpointGone_seqs (s : State) : (checkpointGone s).seqs = { s.seqs with ckptStep := 0 } :=
  journal_keeps State.seqs (fun _ _ => rfl) _ _ _

theorem schedsMarked_failCheckpoint (s : State) (h : SchedsMarked s) : SchedsMarked (failCheckpoint s) := by
  unfold failCheckpoint
  split
  · exact h
  · exact schedsMarked_takeDoorbells _ (schedsMarked_of (checkpointGone_queues s) (checkpointGone_cores s) h)

def footRotorCore (s t : State) : State :=
  { s with dic := t.dic, cores := t.cores, rotors := t.rotors, links := t.links, obs := t.obs }

theorem footRotorCore_self (s : State) : footRotorCore s s = s := rfl

/-- What a scheduler's restart may change, but for the checkpoint's own step. -/
def footSchedDown (s t : State) : State :=
  { s with out := t.out, dic := t.dic, cores := t.cores, queues := t.queues, host := t.host, seqs := t.seqs, obs := t.obs }

theorem footSchedDown_self (s : State) : footSchedDown s s = s := rfl

def footSchedIdle (s t : State) : State := { s with dic := t.dic, cores := t.cores, queues := t.queues, obs := t.obs }

/-- What taking the doorbells and the mark of a restarted scheduler may change. -/
def footCoreBack (s t : State) : State :=
  { s with out := t.out, dic := t.dic, cores := t.cores, queues := t.queues, host := t.host }

theorem footCoreBack_self (s : State) : footCoreBack s s = s := rfl

theorem watchdog_plain_frame (s : State) (i pc : Nat) :
    coreHeld s i pc = footCoresJournal s (coreHeld s i pc) ∧ SameObjs s (coreHeld s i pc) journalObjs
      ∧ Logged s (coreHeld s i pc) .coreRestart [i, pc] false :=
  ⟨(footCoresJournal_self _).symm.trans (coreHeld_keeps (footCoresJournal · (coreHeld s i pc)) (fun _ _ => rfl) s i pc),
    sameObjs_coreHeld s i pc, (logged_journal _ _ _).of_view rfl⟩

theorem watchdog_rotor_frame (s : State) (i pc first : Nat) :
    abortSteps (coreHeld s i pc) first = footRotorCore s (abortSteps (coreHeld s i pc) first) := by
  generalize ht : abortSteps (coreHeld s i pc) first = t
  have h1 := abortSteps_keeps (footRotorCore · t) (fun _ _ => rfl) (coreHeld s i pc) first
  rw [ht] at h1
  exact (footRotorCore_self t).symm.trans (h1.trans (coreHeld_keeps (footRotorCore · t) (fun _ _ => rfl) s i pc))

/-- What happens with each kind of core when its watchdog expires for less than the third time in ten minutes. -/
theorem coreWatchdog_restarts (i pc : Nat) (image : Bool) (s : State) (hi : i < 8) (hst : (coreAt s i).st = 1)
    (hr : (recentRestarts s i).length < 3) (hp : 4 ≤ i → pathE s = true) :
    ∃ t, exec (.coreWatchdogExpire i pc image) s = .next t ∧ (coreAt t i).st = 2
      ∧ (coreAt t i).restarts = recentRestarts s i ++ [s.now] ∧ (∀ k, k ≠ i → coreAt t k = coreAt s k)
      ∧ (i % 2 = 1 → t = { s with dic := t.dic, cores := t.cores, obs := t.obs } ∧ SameObjs s t journalObjs
          ∧ Logged s t .coreRestart [i, pc] false)
      ∧ (i % 4 = 2 → t = { s with dic := t.dic, cores := t.cores, rotors := t.rotors, links := t.links, obs := t.obs }
          ∧ (∀ k, k < 16 → (rotorOf t ((if i < 4 then 0 else 16) + k)).phase = 0)
          ∧ SameObjs s t (Obj.rotorAborts :: Obj.retryWindowStalls :: journalObjs))
      ∧ (isSched i = true → s.seqs.ckptStep = 0 → t = { s with dic := t.dic, cores := t.cores, queues := t.queues, obs := t.obs }
          ∧ SameObjs s t journalObjs)
      ∧ (isSched i = true → s.seqs.ckptStep ≠ 0 →
          t = { s with out := t.out, dic := t.dic, cores := t.cores, queues := t.queues, host := t.host
                       seqs := { s.seqs with ckptStep := 0 }, obs := t.obs }
          ∧ objGet t Obj.checkpointState = 3 ∧ SameObjs s t (Obj.checkpointState :: Obj.doorbellErrors :: journalObjs))
      ∧ (isSched i = true → ∀ q v, smGet t.queues q = some v →
          v.schedRestarting = (serves v.halves .w && (coreAt t 0).st == 2 || serves v.halves .e && (coreAt t 4).st == 2)) := by
  have hexec : exec (.coreWatchdogExpire i pc image) s = .next (watchdog s i pc) := by
    rw [exec_coreWatchdogExpire i pc image s hi, if_pos ⟨hst, by
      by_cases h4 : i < 4
      · exact .inl h4
      · exact .inr (hp (by omega))⟩]
  have hcore := coreAt_congr (watchdog_cores s i pc hr)
  obtain ⟨hst2, hres⟩ := coreHeld_core s i pc hst
  have hseqs : (markScheds (coreHeld s i pc)).seqs = s.seqs := coreHeld_keeps State.seqs (fun _ _ => rfl) s i pc
  have hmark : SameObjs s (markScheds (coreHeld s i pc)) journalObjs := (sameObjs_coreHeld s i pc).of_dic rfl
  refine ⟨_, hexec, by rw [hcore, hst2], by rw [hcore, hres], fun k hk => by rw [hcore, coreHeld_other s i pc k hk],
    fun h => ?_, fun h => ?_, fun h hz => ?_, fun h hz => ?_, fun h => ?_⟩
  · rw [watchdog_plain s i pc hr h]
    exact watchdog_plain_frame s i pc
  · rw [watchdog_rotor s i pc hr h]
    exact ⟨watchdog_rotor_frame s i pc _, fun k hk => abortSteps_phase _ 16 _ k hk,
      ((sameObjs_coreHeld s i pc).mono (by decide)).trans (sameObjs_abortSteps _ _)⟩
  · rw [watchdog_sched s i pc hr h, failCheckpoint_idle _ (by rw [hseqs, hz])]
    refine ⟨?_, hmark⟩
    have hframe := (watchdog_plain_frame s i pc).1
    generalize coreHeld s i pc = t at *
    rw [hframe]
    rfl
  · rw [watchdog_sched s i pc hr h, failCheckpoint_running _ (by rw [hseqs]; exact hz)]
    refine ⟨?_, checkpointGone_state _, (hmark.mono (by decide)).trans (sameObjs_checkpointGone _)⟩
    generalize ht : takeDoorbells (checkpointGone (markScheds (coreHeld s i pc))) = t
    have hs : t.seqs = { s.seqs with ckptStep := 0 } := by
      rw [← ht, takeDoorbells_keeps State.seqs (fun _ _ => rfl), checkpointGone_seqs, hseqs]
    have h1 := takeDoorbells_keeps (footSchedDown · t) (fun _ _ => rfl) (checkpointGone (markScheds (coreHeld s i pc)))
    have h2 : footSchedDown (checkpointGone (markScheds (coreHeld s i pc))) t = footSchedDown (markScheds (coreHeld s i pc)) t :=
      journal_keeps (footSchedDown · t) (fun _ _ => rfl) _ _ _
    have h3 := coreHeld_keeps (footSchedDown · t) (fun _ _ => rfl) s i pc
    rw [ht] at h1
    have hframe : t = footSchedDown s t := (footSchedDown_self t).symm.trans (h1.trans (h2.trans h3))
    rw [footSchedDown, hs] at hframe
    exact hframe
  · rw [watchdog_sched s i pc hr h]
    exact schedsMarked_failCheckpoint _ (schedsMarked_markScheds _)

theorem coreWatchdog_idle (i pc : Nat) (image : Bool) (s : State) (hi : i < 8) (h : (coreAt s i).st ≠ 1 ∨ 4 ≤ i ∧ pathE s = false) :
    exec (.coreWatchdogExpire i pc image) s = .next s := by
  rw [exec_coreWatchdogExpire i pc image s hi, if_neg]
  rintro ⟨h1, h2⟩
  rcases h with h | ⟨h4, hp⟩
  · exact h h1
  · rw [hp] at h2
    rcases h2 with h2 | h2
    · omega
    · cases h2

/-! ### A core back (R200, R201) -/

/-- A core that runs again, counted, with its mark on the queues. -/
def coreRuns (s : State) (i : Nat) : State := markScheds (objInc (updCore s i (fun c => { c with st := 1 })) (Obj.coreRestarts + i))

theorem coreBack_eq (s : State) (i : Nat) : coreBack s i
    = if i = 3 then emit (if isSched i then takeDoorbells (coreRuns s i) else coreRuns s i) (.monitor "onal> ")
      else if isSched i then takeDoorbells (coreRuns s i) else coreRuns s i := rfl

theorem coreBack_sched (s : State) (i : Nat) (h : isSched i = true) : coreBack s i = takeDoorbells (coreRuns s i) := by
  rw [coreBack_eq, if_neg (by have := (isSched_iff i).mp h; omega), if_pos h]

theorem sameObjs_coreRuns (s : State) (i : Nat) : SameObjs s (coreRuns s i) [Obj.coreRestarts + i] :=
  (((SameObjs.refl s _).of_dic (u := updCore s i _) rfl).objInc _ (by simp)).of_dic rfl

theorem counted_coreRuns (s : State) (i : Nat) : Counted s (coreRuns s i) (Obj.coreRestarts + i) 1 := objGet_objPut_self _ _ _

/-- The core back, whatever follows of its restart. -/
theorem coreBack_of {γ : Type} (vw : State → γ) (h1 : ∀ u, vw (takeDoorbells u) = vw u) (h2 : ∀ u o, vw (emit u o) = vw u)
    (s : State) (i : Nat) : vw (coreBack s i) = vw (coreRuns s i) := by
  rw [coreBack_eq]
  split
  · rw [h2]
    split
    · exact h1 _
    · rfl
  · split
    · exact h1 _
    · rfl

theorem coreRuns_frame (s : State) (i : Nat) : coreRuns s i
    = { s with dic := (coreRuns s i).dic, cores := (coreRuns s i).cores, queues := (coreRuns s i).queues } := rfl

theorem coreRuns_host (s : State) (i : Nat) : (coreRuns s i).host = s.host := rfl

theorem coreRestart_done (i : Nat) (s : State) (hi : i < 8) (hst : (coreAt s i).st = 2) :
    ∃ t, exec (.coreRestartDone i) s = .next t
      ∧ t = { s with out := t.out, dic := t.dic, cores := t.cores, queues := t.queues, host := t.host }
      ∧ (coreAt t i).st = 1 ∧ (∀ k, k ≠ i → coreAt t k = coreAt s k) ∧ Counted s t (Obj.coreRestarts + i) 1
      ∧ (isSched i = false → t.host = s.host ∧ SameObjs s t [Obj.coreRestarts + i])
      ∧ (isSched i = true → SameObjs s t [Obj.coreRestarts + i, Obj.doorbellErrors]
          ∧ ∀ q v, smWf s.queues = true → smGet t.queues q = some v → doorbellHeld t v = false → v.latched = []) := by
  have hexec : exec (.coreRestartDone i) s = .next (coreBack s i) := (need_lt hi _).trans (congrArg Host.Outcome.next (if_pos hst))
  have hcores : (coreBack s i).cores = (updCore s i (fun c => { c with st := 1 })).cores :=
    (coreBack_of State.cores (takeDoorbells_keeps State.cores (fun _ _ => rfl)) (fun _ _ => rfl) s i).trans rfl
  have hcore := coreAt_congr hcores
  have hne : Obj.coreRestarts + i ∉ [Obj.doorbellErrors] := by
    simp only [List.mem_singleton, Obj.coreRestarts, Obj.doorbellErrors]
    omega
  have hframe := coreBack_of (footCoreBack · (coreBack s i)) (takeDoorbells_keeps (footCoreBack · _) (fun _ _ => rfl))
    (fun _ _ => rfl) s i
  refine ⟨_, hexec, ((footCoreBack_self _).symm.trans hframe).trans rfl, ?_, fun k hk => ?_, ?_, fun h => ⟨?_, ?_⟩,
    fun h => ⟨?_, fun q v _ hv hd => ?_⟩⟩
  · rw [hcore, coreAt_updCore_self _ _ _ (by omega)]
  · rw [hcore, coreAt_updCore_ne _ _ _ _ hk]
  · rw [Counted, coreBack_of (objGet · (Obj.coreRestarts + i)) (fun u => sameObjs_takeDoorbells u _ hne) (fun _ _ => rfl)]
    exact counted_coreRuns s i
  · rw [coreBack_eq, h]
    split <;> rfl
  · rw [coreBack_eq, h]
    split
    · exact (sameObjs_coreRuns s i).of_dic rfl
    · exact sameObjs_coreRuns s i
  · rw [coreBack_sched s i h]
    exact ((sameObjs_coreRuns s i).mono (by simp)).trans ((sameObjs_takeDoorbells _).mono (by simp))
  · rw [coreBack_sched s i h] at hv hd
    exact takeDoorbells_latched _ q v hv hd

/-! ### The statement -/

/-- Settles O19: a signal or a set changes its object and what waits for it, and a core or the supervisor restarts alone. -/
theorem synchronisationObjectsAndCores : Obligations.SynchronisationObjectsAndCores := by
  unfold Obligations.SynchronisationObjectsAndCores
  refine ⟨fun o n set s ho => ?_, fun h s => ⟨_, rfl, rfl, mem_waiters_waitPoll s h⟩,
    fun i pc image s hi hst hr hp => coreWatchdog_restarts i pc image s hi hst hr hp,
    fun i pc image s hi h => coreWatchdog_idle i pc image s hi h, fun i s hi hst => coreRestart_done i s hi hst,
    fun i s hi hst => (need_lt hi _).trans (congrArg Host.Outcome.next (if_neg hst)),
    fun s h => congrArg Host.Outcome.next (if_neg (by rw [h]; decide)), fun s h => ?_⟩
  · refine ⟨_, exec_syncWrite o n set s ho, syncPut_frame _ _ _, syncGet_syncPut_self _ _ _,
      fun k hk => syncGet_syncPut_ne _ _ _ _ hk, fun w => ?_, fun c => ?_⟩
    · rw [mem_waiters_syncPut, syncGet_syncPut_self]
    · rw [mem_claims_syncPut, syncGet_syncPut_self]
  · refine ⟨_, congrArg Host.Outcome.next (if_pos h), rfl, rfl, h, List.length_map _, fun x hx => ?_, rfl, rfl⟩
    obtain ⟨y, -, rfl⟩ := List.mem_map.mp hx
    exact ⟨rfl, rfl⟩

end Sys2Proof.Machine

/-!
The end of a descriptor: its record, its queue and what it leaves unchanged (R110 to R113, R188, R198).
-/

namespace Sys2Proof.Machine

/-! ### Bytes of a record -/

theorem natLe_length (k n : Nat) : (natLe k n).length = k := by
  induction k generalizing n with
  | zero => rfl
  | succ k ih => rw [natLe, List.length_cons, ih]

theorem bytesOf_length (ws : List Word64) : (bytesOf ws).length = 8 * ws.length := by
  induction ws with
  | nil => rfl
  | cons w ws ih =>
    have h : bytesOf (w :: ws) = natLe 8 w.toNat ++ bytesOf ws := rfl
    rw [h, List.length_append, natLe_length, ih, List.length_cons]
    omega

theorem recordOf_length (d : Done) (b : Bool) (h : d.body.length ≤ 6) : (bytesOf (recordOf d b)).length ≤ 64 := by
  rw [bytesOf_length, recordOf, List.length_append]
  simp only [recordHead, List.length_cons, List.length_nil]
  omega

/-! ### One line written -/

theorem sameBytesBut_refl (m : Mem) (a n : Nat) : SameBytesBut m m a n := fun _ _ => rfl

theorem sameMemoryBut_refl (s : State) (off n : Nat) : SameMemoryBut s s off n :=
  ⟨fun _ => ⟨sameBytesBut_refl _ _ _, rfl⟩, fun _ => ⟨sameBytesBut_refl _ _ _, rfl⟩⟩

theorem sameMemoryBut_of_same {s t u : State} {off n : Nat} (h : SameMemoryBut s t off n) (hl : u.lpddr = t.lpddr)
    (ht : u.tile = t.tile) : SameMemoryBut s u off n := by
  unfold SameMemoryBut at *
  rw [hl, ht]
  exact h

theorem freeLine_length (s : State) : (freeLine s).length = 64 := by
  rw [freeLine, List.length_map, List.length_range]

theorem writeLpddrLine_outside (s : State) (line mask : Nat) (data : Bytes) (poison : Bool) (h : data.length ≤ 64) :
    SameBytesBut s.lpddr (writeLpddrLine s line mask data poison).lpddr (64 * line) 64
      ∧ (writeLpddrLine s line mask data poison).tile = s.tile := by
  unfold writeLpddrLine
  split
  · refine ⟨fun x hx => ?_, rfl⟩
    exact (memRead_memStoreMask_out _ _ x _ _ (by omega)).trans
      (memRead_memStore_out _ _ x _ (by rw [freeLine_length]; exact hx))
  · exact ⟨fun x hx => memRead_memStoreMask_out _ _ x _ _ (by omega), rfl⟩

theorem tileLine_aligned {off : Nat} (h : off % 64 = 0) : 64 * tileLine off = off - tileBase := by
  simp only [tileLine, tileBase]
  omega

theorem sameMemoryBut_writeLine (s : State) (off mask : Nat) (data : Bytes) (poison : Bool) (ha : off % 64 = 0)
    (hd : data.length ≤ 64) : SameMemoryBut s (writeLine s off mask data poison) off 64 := by
  unfold writeLine
  split
  next hl =>
    refine ⟨fun _ => ?_, fun hge => absurd hl (by omega)⟩
    obtain ⟨hbytes, htile⟩ := writeLpddrLine_outside s (off / 64) mask data poison hd
    rw [noteWrite_keeps State.lpddr (fun _ _ => rfl), noteWrite_keeps State.tile (fun _ _ => rfl)]
    rw [show 64 * (off / 64) = off by omega] at hbytes
    exact ⟨hbytes, htile⟩
  next hl =>
    refine ⟨fun hlt => absurd hlt hl, fun _ => ⟨fun x hx => ?_, rfl⟩⟩
    refine memRead_memStoreMask_out _ _ x _ _ ?_
    rw [tileLine_aligned ha]
    omega

theorem writeRun_nil (s : State) (off : Nat) (poison : Bool) (k : Nat) : writeRun s off [] poison k = s := by
  cases k <;> rfl

theorem writeBytes_line (s : State) (off : Nat) (data : Bytes) (poison : Bool) (ha : off % 64 = 0) (hd : data.length ≤ 64)
    (hne : data ≠ []) : writeBytes s off data poison = writeLine s off (maskFrom 0 data.length) data poison := by
  have hempty : ¬ data.isEmpty = true := by simpa using hne
  have hmin : min (64 - 0) data.length = data.length := by omega
  rw [writeBytes, writeRun, if_neg hempty]
  dsimp only
  rw [ha, hmin, List.take_length, List.drop_length, writeRun_nil]
  rfl

theorem sameMemoryBut_writeBytes (s : State) (off : Nat) (data : Bytes) (poison : Bool) (ha : off % 64 = 0)
    (hd : data.length ≤ 64) : SameMemoryBut s (writeBytes s off data poison) off 64 := by
  by_cases hne : data = []
  · rw [hne, writeBytes, writeRun_nil]
    exact sameMemoryBut_refl _ _ _
  · rw [writeBytes_line s off data poison ha hd hne]
    exact sameMemoryBut_writeLine _ _ _ _ _ ha hd

theorem sameObjs_writeLine (s : State) (off mask : Nat) (data : Bytes) (poison : Bool) :
    SameObjs s (writeLine s off mask data poison) [Obj.memDimStalledRequests] := by
  unfold writeLine
  split
  · have hw : SameObjs s (writeLpddrLine s (off / 64) mask data poison) [Obj.memDimStalledRequests] :=
      (SameObjs.refl s _).of_dic (writeLpddrLine_keeps State.dic (fun _ _ => rfl) _ _ _ _ _)
    exact hw.trans (sameObjs_noteWrite _ _)
  · exact (SameObjs.refl s _).of_dic rfl

theorem sameObjs_writeRun (k : Nat) (s : State) (off : Nat) (data : Bytes) (poison : Bool) :
    SameObjs s (writeRun s off data poison k) [Obj.memDimStalledRequests] := by
  induction k generalizing s off data with
  | zero => exact SameObjs.refl _ _
  | succ k ih =>
    rw [writeRun]
    split
    · exact SameObjs.refl _ _
    · exact (sameObjs_writeLine _ _ _ _ _).trans (ih _ _ _)

/-! ### A write of queue memory -/

theorem spaceOf_localOff {a off : Nat} (h : spaceOf a = .localOff off) : off = a % 2 ^ 44 := by
  unfold spaceOf at h
  dsimp only at h
  split at h
  · split at h
    · exact (Space.localOff.inj h).symm
    · cases h
  · split at h
    · cases h
    · split at h
      · split at h <;> cases h
      · cases h

theorem fabAddrErrorKey_mem (h : Half) : fabAddrErrorKey h ∈ [0x802001, 0x802002] := by
  cases h <;> decide

theorem sameObjs_countAddrError (s : State) (off : Nat) : SameObjs s (countAddrError s off) [0x802001, 0x802002] :=
  (SameObjs.refl s _).objInc _ (fabAddrErrorKey_mem _)

/-- The objects that a write of a record may change. -/
def recordObjs : List Nat := [Obj.memDimStalledRequests, 0x802001, 0x802002]

theorem sameObjs_writeQueueMem (s : State) (addr : Nat) (data : Bytes) : SameObjs s (writeQueueMem s addr data) recordObjs := by
  unfold writeQueueMem
  split
  · split
    · exact (sameObjs_writeRun _ _ _ _ _).mono (by decide)
    · exact (sameObjs_countAddrError _ _).mono (by decide)
  · exact (SameObjs.refl s _).of_dic rfl
  · exact SameObjs.refl _ _

/-- A write of at most 64 bytes at an aligned address changes its line of this module's memory only. -/
theorem writeQueueMem_local (s : State) (addr : Nat) (data : Bytes) (ha : addr % 64 = 0) (hd : data.length ≤ 64) (off : Nat)
    (h : spaceOf addr = .localOff off) : SameMemoryBut s (writeQueueMem s addr data) off 64 := by
  have hoff : off % 64 = 0 := by
    rw [spaceOf_localOff h]
    omega
  unfold writeQueueMem
  rw [h]
  dsimp only
  split
  · exact sameMemoryBut_writeBytes _ _ _ _ hoff hd
  · exact sameMemoryBut_of_same (sameMemoryBut_refl s _ _) rfl rfl

theorem writeQueueMem_other (s : State) (addr : Nat) (data : Bytes) (h : ∀ off, spaceOf addr ≠ .localOff off) :
    (writeQueueMem s addr data).tile = s.tile ∧ (writeQueueMem s addr data).lpddr = s.lpddr := by
  unfold writeQueueMem
  split
  next off ho => exact absurd ho (h off)
  · exact ⟨rfl, rfl⟩
  · exact ⟨rfl, rfl⟩

theorem writeQueueMem_queues (s : State) (addr : Nat) (data : Bytes) : (writeQueueMem s addr data).queues = s.queues :=
  writeQueueMem_keeps State.queues (fun _ _ => rfl) s addr data

/-! ### The queue of a descriptor that ends -/

/-- What of a queue the end of a descriptor and its interrupts leave: all but its summary, its trap, its pending bits and its count of
outstanding descriptors. -/
def unended (v : Queue) : Queue :=
  { v with nv := false, ovf := false, uf := false, narSeen := false, poisoned := false, witness := false, firstNV := none
           outstanding := 0, withheld := [], trapped := false, trappedCount := 0, firstTrap := 0, trapValid := false, state := 0
           trapPend := false, cplPend := false, errPend := false, trapSent := false, cplSent := false, errSent := false
           signalFault := false }

/-- A queue's outstanding descriptors, and what its end leaves. -/
def steady (v : Queue) : Queue := { unended v with outstanding := v.outstanding }

/-- No queue but q has changed. -/
def OthersKept (s t : State) (q : Nat) : Prop := ∀ k, k ≠ q → smGet t.queues k = smGet s.queues k

theorem OthersKept.refl (s : State) (q : Nat) : OthersKept s s q := fun _ _ => rfl

theorem OthersKept.trans {s t u : State} {q : Nat} (h : OthersKept s t q) (h' : OthersKept t u q) : OthersKept s u q :=
  fun k hk => (h' k hk).trans (h k hk)

theorem OthersKept.of_queues {s t u : State} {q : Nat} (h : OthersKept s t q) (hu : u.queues = t.queues) : OthersKept s u q :=
  fun k hk => (congrArg (smGet · k) hu).trans (h k hk)

theorem OthersKept.updQ {s t : State} {q : Nat} (h : OthersKept s t q) (f : Queue → Queue) : OthersKept s (updQ t q f) q :=
  fun k hk => (smGet_updQ_ne _ _ _ _ hk).trans (h k hk)

theorem OthersKept.sendQueueIrqs {s t : State} {q : Nat} (h : OthersKept s t q) : OthersKept s (sendQueueIrqs t q) q := by
  have hv (c : Bool) (n : Nat) (u : State) (hu : OthersKept s u q) : OthersKept s (if c then sendVector u n else u) q := by
    split
    · exact hu.of_queues (sendVector_keeps State.queues (fun _ _ => rfl) u n)
    · exact hu
  unfold Machine.sendQueueIrqs
  split
  · exact h
  · exact hv _ _ _ (hv _ _ _ (hv _ _ _ (h.updQ _)))

theorem OthersKept.raiseErr {s t : State} {q : Nat} (h : OthersKept s t q) : OthersKept s (raiseErr t q) q := (h.updQ _).sendQueueIrqs

theorem OthersKept.raiseCpl {s t : State} {q : Nat} (h : OthersKept s t q) : OthersKept s (raiseCpl t q) q := (h.updQ _).sendQueueIrqs

theorem OthersKept.trapQueue {s t : State} {q : Nat} (h : OthersKept s t q) (seq : Nat) : OthersKept s (trapQueue t q seq) q :=
  ((h.updQ _).updQ _).sendQueueIrqs

theorem queueView_raise {γ : Type} (qv : Queue → γ) (hq : ∀ v, qv (unended v) = qv v) (s : State) (q p : Nat) (f : Queue → Queue)
    (hf : ∀ v, unended (f v) = unended v) : queueView qv p (sendQueueIrqs (updQ s q f) q) = queueView qv p s := by
  have hquiet {v w : Queue} (h : unended v = unended w) : qv v = qv w := by rw [← hq v, h, hq w]
  rw [queueView_sendQueueIrqs qv (fun v a b c => hquiet rfl)]
  exact queueView_updQ qv p s q f (fun v => hquiet (hf v))

theorem queueView_raiseSteady {γ : Type} (qv : Queue → γ) (hq : ∀ v, qv (steady v) = qv v) (s : State) (q p : Nat)
    (f : Queue → Queue) (hf : ∀ v, steady (f v) = steady v) : queueView qv p (sendQueueIrqs (updQ s q f) q) = queueView qv p s := by
  have hsteady {v w : Queue} (h : steady v = steady w) : qv v = qv w := by rw [← hq v, h, hq w]
  rw [queueView_sendQueueIrqs qv (fun v a b c => hsteady rfl)]
  exact queueView_updQ qv p s q f (fun v => hsteady (hf v))

theorem queueView_trapQueue (s : State) (q seq p : Nat) : queueView steady p (trapQueue s q seq) = queueView steady p s := by
  unfold trapQueue raiseTrap
  refine (queueView_raiseSteady steady (fun _ => rfl) _ q p _ ?_).trans (queueView_updQ steady p s q _ ?_)
  · exact fun _ => rfl
  · exact fun _ => rfl

theorem queueView_raiseCpl (s : State) (q p : Nat) : queueView steady p (raiseCpl s q) = queueView steady p s :=
  queueView_raiseSteady steady (fun _ => rfl) s q p _ (fun _ => rfl)

theorem queueView_remoteSignalFailed (s : State) (q seq p : Nat) :
    queueView steady p (remoteSignalFailed s q seq) = queueView steady p s := by
  unfold remoteSignalFailed
  rw [queueView_of_queues steady p (journal_keeps State.queues (fun _ _ => rfl) _ _ _)]
  unfold raiseErr
  refine (queueView_raiseSteady steady (fun _ => rfl) _ q p _ ?_).trans
    (queueView_updQ steady p (objInc s Obj.remoteSignalFaults) q _ ?_)
  · exact fun _ => rfl
  · exact fun _ => rfl

theorem OthersKept.remoteSignalFailed {s t : State} {q : Nat} (h : OthersKept s t q) (seq : Nat) :
    OthersKept s (remoteSignalFailed t q seq) q := by
  have hu : OthersKept s (Machine.raiseErr (Machine.updQ (objInc t Obj.remoteSignalFaults) q (fun x => { x with signalFault := true })) q) q :=
    OthersKept.raiseErr (OthersKept.updQ (h.of_queues (u := objInc t Obj.remoteSignalFaults) rfl) _)
  exact hu.of_queues (journal_keeps State.queues (fun _ _ => rfl) _ _ _)

theorem sendRequest_queues (s : State) (h : Half) (dest off : Nat) (op : FabOp) (who : Requester) (fill : Bool) (want : Nat) :
    (sendRequest s h dest off op who fill want).queues = s.queues :=
  sendRequest_keeps State.queues (fun _ _ => rfl) s h dest off op who fill want

/-- What a tail signal does to the queues: nothing, or it fails. -/
theorem remoteSignal_queue {P : State → Prop} (s : State) (h : Half) (q seq c obj amount : Nat) (h0 : P s)
    (hq : ∀ {t u : State}, P t → u.queues = t.queues → P u) (hf : ∀ t, P t → P (remoteSignalFailed t q seq)) :
    P (remoteSignal s h q seq c obj amount) := by
  unfold remoteSignal
  dsimp only
  split
  · exact hf _ (hq h0 rfl)
  · split
    · split
      · exact hq h0 (syncPut_keeps State.queues (fun _ _ => rfl) _ _ _)
      · exact hf _ (hq h0 rfl)
    · exact hq h0 (sendRequest_queues _ _ _ _ _ _ _ _)

theorem tailSignal_queue {P : State → Prop} (s : State) (h : Half) (q seq : Nat) (ws : List Word64) (h0 : P s)
    (hq : ∀ {t u : State}, P t → u.queues = t.queues → P u) (hf : ∀ t, P t → P (remoteSignalFailed t q seq)) :
    P (tailSignal s h q seq ws) := by
  unfold tailSignal
  split
  · split
    · exact remoteSignal_queue s h q seq _ _ _ h0 hq hf
    · exact hq h0 (syncPut_keeps State.queues (fun _ _ => rfl) _ _ _)
  · exact h0

theorem OthersKept.tailSignal {s t : State} {q : Nat} (h : OthersKept s t q) (hf : Half) (seq : Nat) (ws : List Word64) :
    OthersKept s (tailSignal t hf q seq ws) q :=
  tailSignal_queue (P := fun u => OthersKept s u q) t hf q seq ws h (fun h hu => h.of_queues hu) (fun _ h => h.remoteSignalFailed seq)

theorem queueView_tailSignal (s : State) (h : Half) (q seq p : Nat) (ws : List Word64) :
    queueView steady p (tailSignal s h q seq ws) = queueView steady p s :=
  tailSignal_queue (P := fun u => queueView steady p u = queueView steady p s) s h q seq ws rfl
    (fun h hu => (queueView_of_queues steady p hu).trans h) (fun t h => (queueView_remoteSignalFailed t q seq p).trans h)

/-! ### The end of a descriptor -/

/-- The queue's count of outstanding descriptors, one less. -/
def oneLess (s : State) (d : Done) : State :=
  updQ s d.queue (fun x => { excSum x (if d.raises then d.summary else 0) d.seq with outstanding := x.outstanding - 1 })

/-- What follows a descriptor's record: its trap, or its tail signal. -/
def afterRecord (s : State) (v : Queue) (d : Done) : State :=
  if trapNow v d then trapQueue (updQ s d.queue (fun x => { x with withheld := x.withheld ++ [(d.seq, d.words)] })) d.queue d.seq
  else if d.signals then tailSignal s (endHalf v d.engine) d.queue d.seq d.words
  else s

/-- A queue that is aborting is aborted once nothing is outstanding. -/
def abortDone (s : State) (q : Nat) : State :=
  updQ s q (fun x => if x.state = 3 ∧ x.outstanding = 0 then { x with state := 4 } else x)

theorem endDesc_eq (s : State) (v : Queue) (d : Done) : endDesc s v d = abortDone (afterRecord (oneLess s d) v d) d.queue := rfl

theorem queueView_afterRecord (s : State) (v : Queue) (d : Done) (p : Nat) :
    queueView steady p (afterRecord s v d) = queueView steady p s := by
  unfold afterRecord
  split
  · exact (queueView_trapQueue _ _ _ p).trans (queueView_updQ steady p s d.queue _ (fun _ => rfl))
  · split
    · exact queueView_tailSignal _ _ _ _ p _
    · rfl

theorem queueView_abortDone (s : State) (q p : Nat) : queueView steady p (abortDone s q) = queueView steady p s := by
  refine queueView_updQ steady p s q _ (fun v => ?_)
  split <;> rfl

theorem OthersKept.endDesc {s t : State} (v : Queue) (d : Done) (h : OthersKept s t d.queue) : OthersKept s (endDesc t v d) d.queue := by
  have h1 : OthersKept s (oneLess t d) d.queue := h.updQ _
  have h2 : OthersKept s (afterRecord (oneLess t d) v d) d.queue := by
    unfold afterRecord
    split
    · exact (h1.updQ _).trapQueue _
    · split
      · exact h1.tailSignal _ _ _
      · exact h1
  exact h2.updQ _

/-- A view of a queue in the state says what the queue there is. -/
theorem queue_of_view {γ : Type} {qv : Queue → γ} {q : Nat} {s t : State} {w : Queue} (h : queueView qv q t = queueView qv q s)
    (hw : smGet s.queues q = some w) : ∃ v, smGet t.queues q = some v ∧ qv v = qv w := by
  rw [queueView, queueView, hw, Option.map_some] at h
  obtain ⟨v, hv, he⟩ := Option.map_eq_some_iff.mp h
  exact ⟨v, hv, he⟩

theorem steady_outstanding {v w : Queue} (h : steady v = steady w) : v.outstanding = w.outstanding := by
  have ho := congrArg Queue.outstanding h
  exact ho

theorem unended_of_steady {v w : Queue} (h : steady v = steady w) : unended v = unended w := by
  have hu := congrArg unended h
  exact hu

theorem unended_of {γ : Type} (qv : Queue → γ) (hq : ∀ v, qv (unended v) = qv v) {v w : Queue} (h : unended v = unended w) :
    qv v = qv w := by
  rw [← hq v, h, hq w]

theorem endDesc_queue (s : State) (v : Queue) (d : Done) (w : Queue) (hw : smGet s.queues d.queue = some w) :
    ∃ x, smGet (endDesc s v d).queues d.queue = some x ∧ unended x = unended w ∧ x.outstanding = w.outstanding - 1 := by
  have hl : smGet (oneLess s d).queues d.queue
      = some { excSum w (if d.raises then d.summary else 0) d.seq with outstanding := w.outstanding - 1 } := by
    rw [oneLess, smGet_updQ_self, hw, Option.map_some]
  have hview : queueView steady d.queue (endDesc s v d) = queueView steady d.queue (oneLess s d) :=
    (queueView_abortDone _ _ _).trans (queueView_afterRecord _ _ _ _)
  obtain ⟨x, hx, hs⟩ := queue_of_view hview hl
  have hq := unended_of_steady hs
  have ho := steady_outstanding hs
  exact ⟨x, hx, hq, ho⟩

/-! ### The record -/

/-- A queue whose next record has been written. -/
def recorded (s : State) (v : Queue) : Queue := { v with cplTail := (v.cplTail + 1) % 2 ^ 32, pendTimes := v.pendTimes ++ [s.now] }

/-- A record in its slot, before its interrupt. -/
def recordPut (s : State) (q : Nat) (v : Queue) (words : List Word64) : State :=
  updQ (writeQueueMem s (v.cplAddr + 64 * (v.cplTail % 2 ^ v.cplLog2)) (bytesOf words)) q (recorded s)

theorem putRecord_eq (s : State) (q : Nat) (v : Queue) (words : List Word64) : putRecord s q v words
    = if v.threshold ≤ diff32 (v.cplTail + 1) v.cplHead then raiseCpl (recordPut s q v words) q else recordPut s q v words := by
  have hnow : (writeQueueMem s (v.cplAddr + 64 * (v.cplTail % 2 ^ v.cplLog2)) (bytesOf words)).now = s.now :=
    writeQueueMem_keeps State.now (fun _ _ => rfl) _ _ _
  unfold putRecord recordPut recorded
  dsimp only
  rw [hnow]

theorem OthersKept.putRecord {s t : State} {q : Nat} (h : OthersKept s t q) (v : Queue) (words : List Word64) :
    OthersKept s (putRecord t q v words) q := by
  have hr : OthersKept s (recordPut t q v words) q := (h.of_queues (writeQueueMem_queues _ _ _)).updQ _
  rw [putRecord_eq]
  split
  · exact hr.raiseCpl
  · exact hr

theorem putRecord_queue (s : State) (q : Nat) (v : Queue) (words : List Word64) (w : Queue) (hw : smGet s.queues q = some w) :
    ∃ x, smGet (putRecord s q v words).queues q = some x ∧ steady x = steady (recorded s w) := by
  have hr : smGet (recordPut s q v words).queues q = some (recorded s w) := by
    rw [recordPut, smGet_updQ_self, writeQueueMem_queues, hw, Option.map_some]
  rw [putRecord_eq]
  split
  · exact queue_of_view (queueView_raiseCpl _ q q) hr
  · exact ⟨_, hr, rfl⟩

/-! ### The end of a descriptor, with its record or waiting for one -/

theorem finishDesc_ready (s : State) (d : Done) (v : Queue) (hv : smGet s.queues d.queue = some v) (hr : slotReady s v 0 = true) :
    finishDesc s d = endDesc (putRecord s d.queue v (recordOf d (trapNow v d))) v d := by
  unfold finishDesc
  rw [hv]
  exact if_pos hr

theorem finishDesc_parked (s : State) (d : Done) (v : Queue) (hv : smGet s.queues d.queue = some v) (hr : slotReady s v 0 = false) :
    finishDesc s d = parkRecord s d.queue v { done := some d } := by
  unfold finishDesc
  rw [hv]
  exact if_neg (by rw [hr]; decide)

theorem finishDesc_none (s : State) (d : Done) (hv : smGet s.queues d.queue = none) : finishDesc s d = s := by
  unfold finishDesc
  rw [hv]

theorem askSlot_queues (s : State) (v : Queue) : (askSlot s v).queues = s.queues := askSlot_keeps State.queues (fun _ _ => rfl) s v

theorem parkRecord_queue (s : State) (q : Nat) (v : Queue) (w : Parked) :
    smGet (parkRecord s q v w).queues q = (smGet s.queues q).map (fun x => { x with waitRing := x.waitRing ++ [w] }) := by
  rw [parkRecord, askSlot_queues, smGet_updQ_self]

theorem OthersKept.finishDesc {s t : State} (d : Done) (h : OthersKept s t d.queue) : OthersKept s (finishDesc t d) d.queue := by
  unfold Machine.finishDesc
  split
  · exact h
  · split
    · exact (h.putRecord _ _).endDesc _ _
    · exact (h.updQ _).of_queues (askSlot_queues _ _)

/-- Where the ring has a slot ready, the queue of a descriptor that ends has one record more and one descriptor outstanding less. -/
theorem finishDesc_queue_ready (s : State) (d : Done) (v : Queue) (hv : smGet s.queues d.queue = some v)
    (hr : slotReady s v 0 = true) : ∃ x, smGet (finishDesc s d).queues d.queue = some x ∧ unended x = unended (recorded s v)
      ∧ x.outstanding = v.outstanding - 1 := by
  obtain ⟨w, hw, hs⟩ := putRecord_queue s d.queue v (recordOf d (trapNow v d)) v hv
  obtain ⟨x, hx, hq, ho⟩ := endDesc_queue _ v d w hw
  rw [finishDesc_ready s d v hv hr]
  have hw1 : w.outstanding = v.outstanding := by
    have h := steady_outstanding hs
    exact h
  exact ⟨x, hx, hq.trans (unended_of_steady hs), ho.trans (congrArg (· - 1) hw1)⟩

theorem finishDesc_queue_parked (s : State) (d : Done) (v : Queue) (hv : smGet s.queues d.queue = some v)
    (hr : slotReady s v 0 = false) :
    smGet (finishDesc s d).queues d.queue = some { v with waitRing := v.waitRing ++ [{ done := some d }] } := by
  rw [finishDesc_parked s d v hv hr, parkRecord_queue, hv]
  rfl

theorem oneCompleted_finishDesc (s : State) (d : Done) : OneCompleted s (finishDesc s d) d.queue := by
  intro v hv
  refine ⟨fun hr => ?_, fun hr => ?_⟩
  · obtain ⟨x, hx, hq, ho⟩ := finishDesc_queue_ready s d v hv hr
    have hring : x.waitRing = (recorded s v).waitRing := unended_of Queue.waitRing (fun _ => rfl) hq
    exact ⟨x, hx, ho, unended_of Queue.cplTail (fun _ => rfl) hq, hring⟩
  · exact ⟨_, _, finishDesc_queue_parked s d v hv hr, rfl, rfl, rfl, rfl⟩

/-! ### Objects and memory at the end of a descriptor -/

theorem sameObjs_sendQueueIrqs (s : State) (q : Nat) (f : Queue → Queue) (ks : List Nat) :
    SameObjs s (sendQueueIrqs (updQ s q f) q) ks :=
  (SameObjs.refl s _).of_dic (sendQueueIrqs_keeps State.dic (fun _ _ => rfl) (updQ s q f) q)

theorem sameObjs_trapQueue (s : State) (q seq : Nat) (ks : List Nat) : SameObjs s (trapQueue s q seq) ks :=
  (SameObjs.refl s _).of_dic (trapQueue_keeps State.dic (fun _ _ => rfl) s q seq)

theorem sameObjs_remoteSignalFailed (s : State) (q seq : Nat) : SameObjs s (remoteSignalFailed s q seq) tailObjs := by
  have hinc : SameObjs s (objInc s Obj.remoteSignalFaults) tailObjs := (SameObjs.refl s _).objInc _ (by decide)
  have hraise : SameObjs s (raiseErr (updQ (objInc s Obj.remoteSignalFaults) q (fun x => { x with signalFault := true })) q) tailObjs :=
    (hinc.of_dic (u := updQ (objInc s Obj.remoteSignalFaults) q _) rfl).of_dic (raiseErr_keeps State.dic (fun _ _ => rfl) _ _)
  exact hraise.journal _ _ (by decide)

theorem sameObjs_takeSeq (s : State) (h : Half) : SameObjs s (takeSeq s h) [Obj.seqIssueStalls] := by
  have hr (u : State) (f : Router → Router) (ks : List Nat) : SameObjs u (updRouter u h f) ks :=
    (SameObjs.refl u _).of_dic (updRouter_keeps State.dic (fun _ _ => rfl) u h f)
  have hite (b : Bool) : SameObjs s (if b then objInc s Obj.seqIssueStalls else s) [Obj.seqIssueStalls] := by
    split
    · exact (SameObjs.refl s _).objInc _ List.mem_cons_self
    · exact SameObjs.refl _ _
  unfold takeSeq
  exact (hite _).trans (hr _ _ _)

theorem sameObjs_sendRequest (s : State) (h : Half) (dest off : Nat) (op : FabOp) (who : Requester) (fill : Bool) (want : Nat) :
    SameObjs s (sendRequest s h dest off op who fill want) [Obj.seqIssueStalls] := by
  have hi (u : State) (p : Packet) : SameObjs u (inject u h p none) [Obj.seqIssueStalls] :=
    (SameObjs.refl u _).of_dic (inject_keeps State.dic (fun _ _ => rfl) u h p none none)
  unfold sendRequest
  dsimp only
  refine SameObjs.of_dic (t := inject _ h _ none) ?_ rfl
  refine SameObjs.trans ?_ (hi _ _)
  have hite (b : Bool) : SameObjs s (if b then takeSeq s h else s) [Obj.seqIssueStalls] := by
    split
    · exact sameObjs_takeSeq s h
    · exact SameObjs.refl _ _
  exact hite _

theorem sameObjs_remoteSignal (s : State) (h : Half) (q seq c obj amount : Nat) :
    SameObjs s (remoteSignal s h q seq c obj amount) tailObjs := by
  unfold remoteSignal
  dsimp only
  split
  · exact ((SameObjs.refl s _).objInc _ (by decide)).trans (sameObjs_remoteSignalFailed _ _ _)
  · split
    · split
      · exact (SameObjs.refl s _).of_dic (syncPut_keeps State.dic (fun _ _ => rfl) _ _ _)
      · exact ((sameObjs_countAddrError s _).mono (by decide)).trans (sameObjs_remoteSignalFailed _ _ _)
    · exact (sameObjs_sendRequest _ _ _ _ _ _ _ _).mono (by decide)

theorem sameObjs_tailSignal (s : State) (h : Half) (q seq : Nat) (ws : List Word64) : SameObjs s (tailSignal s h q seq ws) tailObjs := by
  unfold tailSignal
  split
  · split
    · exact sameObjs_remoteSignal s h q seq _ _ _
    · exact (SameObjs.refl s _).of_dic (syncPut_keeps State.dic (fun _ _ => rfl) _ _ _)
  · exact SameObjs.refl _ _

theorem sameObjs_endDesc (s : State) (v : Queue) (d : Done) : SameObjs s (endDesc s v d) tailObjs := by
  have hq (u : State) (f : Queue → Queue) : SameObjs u (updQ u d.queue f) tailObjs := (SameObjs.refl u _).of_dic rfl
  have hafter (u : State) : SameObjs u (afterRecord u v d) tailObjs := by
    unfold afterRecord
    split
    · exact (hq _ _).trans (sameObjs_trapQueue _ _ _ _)
    · split
      · exact sameObjs_tailSignal _ _ _ _ _
      · exact SameObjs.refl _ _
  exact ((hq s _).trans (hafter _)).trans (hq _ _)

theorem sameObjs_putRecord (s : State) (q : Nat) (v : Queue) (words : List Word64) : SameObjs s (putRecord s q v words) recordObjs := by
  have hr : SameObjs s (recordPut s q v words) recordObjs := (sameObjs_writeQueueMem s _ _).of_dic rfl
  rw [putRecord_eq]
  split
  · exact hr.of_dic (raiseCpl_keeps State.dic (fun _ _ => rfl) _ _)
  · exact hr

theorem sameObjs_parkRecord (s : State) (q : Nat) (v : Queue) (w : Parked) (ks : List Nat) : SameObjs s (parkRecord s q v w) ks :=
  (SameObjs.refl s _).of_dic (parkRecord_keeps State.dic (fun _ _ => rfl) s q v w)

theorem sameObjs_finishDesc (s : State) (d : Done) : SameObjs s (finishDesc s d) tailObjs := by
  unfold finishDesc
  split
  · exact SameObjs.refl _ _
  · split
    · exact ((sameObjs_putRecord _ _ _ _).mono (by decide)).trans (sameObjs_endDesc _ _ _)
    · exact sameObjs_parkRecord _ _ _ _ _

/-- The two memories of this module. -/
def memories (s : State) : Mem × Mem := (s.tile, s.lpddr)

theorem memories_endDesc (s : State) (v : Queue) (d : Done) : memories (endDesc s v d) = memories s :=
  endDesc_keeps memories (fun _ _ => rfl) s v d

theorem memories_putRecord (s : State) (q : Nat) (v : Queue) (words : List Word64) : memories (putRecord s q v words)
    = memories (writeQueueMem s (v.cplAddr + 64 * (v.cplTail % 2 ^ v.cplLog2)) (bytesOf words)) := by
  rw [putRecord_eq]
  split
  · exact (raiseCpl_keeps memories (fun _ _ => rfl) _ _).trans rfl
  · rfl

theorem memories_parkRecord (s : State) (q : Nat) (v : Queue) (w : Parked) : memories (parkRecord s q v w) = memories s :=
  parkRecord_keeps memories (fun _ _ => rfl) s q v w

/-- What the end of a descriptor of queue q may change of this module's memory: the bytes of the record's slot. -/
def SlotOnly (s t : State) (q : Nat) : Prop := ∀ v, smGet s.queues q = some v → v.cplAddr % 64 = 0 →
  (∀ off, spaceOf (v.cplAddr + 64 * (v.cplTail % 2 ^ v.cplLog2)) = .localOff off → SameMemoryBut s t off 64)
    ∧ ((∀ off, spaceOf (v.cplAddr + 64 * (v.cplTail % 2 ^ v.cplLog2)) ≠ .localOff off) → t.tile = s.tile ∧ t.lpddr = s.lpddr)

theorem slotOnly_of_memories {s t : State} (q : Nat) (h : memories t = memories s) : SlotOnly s t q := by
  obtain ⟨ht, hl⟩ := Prod.mk.inj h
  exact fun v _ _ => ⟨fun off _ => sameMemoryBut_of_same (sameMemoryBut_refl s _ _) hl ht, fun _ => ⟨ht, hl⟩⟩

theorem SlotOnly.of_memories {s t u : State} {q : Nat} (h : SlotOnly s t q) (hu : memories u = memories t) : SlotOnly s u q := by
  obtain ⟨ht, hl⟩ := Prod.mk.inj hu
  intro v hv ha
  obtain ⟨h1, h2⟩ := h v hv ha
  exact ⟨fun off ho => sameMemoryBut_of_same (h1 off ho) hl ht, fun ho => ⟨ht.trans (h2 ho).1, hl.trans (h2 ho).2⟩⟩

theorem slotOnly_putRecord (s : State) (q : Nat) (v : Queue) (words : List Word64) (hv : smGet s.queues q = some v)
    (hw : words.length ≤ 8) : SlotOnly s (putRecord s q v words) q := by
  have hlen : (bytesOf words).length ≤ 64 := by
    rw [bytesOf_length]
    omega
  refine SlotOnly.of_memories (t := writeQueueMem s (v.cplAddr + 64 * (v.cplTail % 2 ^ v.cplLog2)) (bytesOf words)) ?_
    (memories_putRecord s q v words)
  intro w hw' ha
  rw [hv] at hw'
  cases hw'
  exact ⟨fun off ho => writeQueueMem_local _ _ _ (by omega) hlen off ho, fun ho => writeQueueMem_other _ _ _ ho⟩

theorem recordOf_words (d : Done) (b : Bool) (h : d.body.length ≤ 6) : (recordOf d b).length ≤ 8 := by
  rw [recordOf, List.length_append]
  simp only [recordHead, List.length_cons, List.length_nil]
  omega

theorem slotOnly_finishDesc (s : State) (d : Done) (hd : d.body.length ≤ 6) : SlotOnly s (finishDesc s d) d.queue := by
  cases hv : smGet s.queues d.queue with
  | none =>
    rw [finishDesc_none s d hv]
    exact slotOnly_of_memories _ rfl
  | some v =>
    by_cases hr : slotReady s v 0 = true
    · rw [finishDesc_ready s d v hv hr]
      exact (slotOnly_putRecord s _ v _ hv (recordOf_words d _ hd)).of_memories (memories_endDesc _ _ _)
    · rw [finishDesc_parked s d v hv (by simpa using hr)]
      exact slotOnly_of_memories _ (memories_parkRecord _ _ _ _)

theorem foot19_self (s : State) : foot19 s s = s := rfl

/-- The end of a descriptor changes its queue, its record's slot and what a tail signal reaches. -/
theorem endFrame_finishDesc (s : State) (d : Done) (hd : d.body.length ≤ 6) : EndFrame s (finishDesc s d) d.queue :=
  ⟨(foot19_self _).symm.trans (finishDesc_keeps (foot19 · (finishDesc s d)) (fun _ _ => rfl) s d),
    (OthersKept.refl s d.queue).finishDesc d, fun v hv _ ha => slotOnly_finishDesc s d hd v hv ha⟩

/-- What comes before the end of a descriptor leaves all that the end is measured against. -/
theorem EndFrame.of_before {s u t : State} {q : Nat} (h : EndFrame u t q) (hf : ∀ x, foot19 u x = foot19 s x)
    (hq : OthersKept s u q) (hm : memories u = memories s)
    (hv : ∀ v, smGet s.queues q = some v → ∃ w, smGet u.queues q = some w ∧ w.cplAddr = v.cplAddr ∧ w.cplTail = v.cplTail
      ∧ w.cplLog2 = v.cplLog2) : EndFrame s t q := by
  obtain ⟨h1, h2, h3⟩ := h
  obtain ⟨htile, hlpddr⟩ := Prod.mk.inj hm
  refine ⟨h1.trans (hf t), fun k hk => (h2 k hk).trans (hq k hk), fun v hs hok ha => ?_⟩
  obtain ⟨w, hw, ha', ht', hl'⟩ := hv v hs
  have hok' : MemOk u := by
    unfold MemOk
    rw [htile, hlpddr]
    exact hok
  have h4 := h3 w hw hok' (by rw [ha']; exact ha)
  rw [ha', ht', hl'] at h4
  unfold SameMemoryBut at *
  rw [htile, hlpddr] at h4
  exact h4

/-! ### A descriptor outside an attempt that completes -/

theorem completeDesc_plain (s : State) (d : Done) (h : d.inLayer = false) : completeDesc s d = finishDesc s d := by
  unfold completeDesc layerHook
  rw [if_neg (by rw [h]; decide)]

end Sys2Proof.Machine

/-!
Queues that are aborted (R187), and accesses of the host that go on (R320).
-/

namespace Sys2Proof.Machine

/-! ### Records of descriptors that were never issued -/

/-- What of a queue a record of its ring leaves. -/
def unrecorded (v : Queue) : Queue :=
  { v with cplTail := 0, pendTimes := [], waitRing := [], cplPend := false, trapSent := false, cplSent := false, errSent := false }

theorem queueView_recordPut (s : State) (q p : Nat) (v : Queue) (words : List Word64) :
    queueView unrecorded p (recordPut s q v words) = queueView unrecorded p s :=
  (queueView_updQ unrecorded p _ q (recorded s) (fun _ => rfl)).trans
    (queueView_of_queues unrecorded p (writeQueueMem_queues _ _ _))

theorem queueView_putRecord (s : State) (q p : Nat) (v : Queue) (words : List Word64) :
    queueView unrecorded p (putRecord s q v words) = queueView unrecorded p s := by
  rw [putRecord_eq]
  split
  · unfold raiseCpl
    rw [queueView_sendQueueIrqs unrecorded (fun _ _ _ _ => rfl)]
    refine (queueView_updQ unrecorded p _ q _ ?_).trans (queueView_recordPut s q p v words)
    exact fun _ => rfl
  · exact queueView_recordPut s q p v words

theorem queueView_parkRecord (s : State) (q p : Nat) (v : Queue) (w : Parked) :
    queueView unrecorded p (parkRecord s q v w) = queueView unrecorded p s :=
  (queueView_of_queues unrecorded p (askSlot_queues _ _)).trans (queueView_updQ unrecorded p s q _ (fun _ => rfl))

theorem queueView_writeSpare (s : State) (q p : Nat) (words : List Word64) :
    queueView unrecorded p (writeSpare s q words) = queueView unrecorded p s := by
  unfold writeSpare
  split
  · split
    · exact queueView_putRecord s q p _ words
    · exact queueView_parkRecord s q p _ _
  · rfl

theorem queueView_abortRecords (q p : Nat) (l : List (Nat × Nat × Nat)) (s : State) :
    queueView unrecorded p (abortRecords s q l) = queueView unrecorded p s := by
  induction l generalizing s with
  | nil => rfl
  | cons e l ih => exact (ih _).trans (queueView_writeSpare s q p _)

theorem queueView_abortLayers (q p : Nat) (l : List Layer) (s : State) :
    queueView unrecorded p (abortLayers s q l) = queueView unrecorded p s := by
  induction l generalizing s with
  | nil => rfl
  | cons e l ih => exact (ih _).trans (queueView_writeSpare s q p _)

/-! ### A queue aborted -/

/-- A queue that neither runs nor is halted. -/
def Stopped (s : State) (q : Nat) : Prop := ∀ v, smGet s.queues q = some v → v.state ≠ 1 ∧ v.state ≠ 2

theorem stopped_of_view {s t : State} {q : Nat} (h : queueView Queue.state q t = queueView Queue.state q s) (hs : Stopped s q) :
    Stopped t q := fun v hv => by
  rw [queueView, hv, Option.map_some, queueView] at h
  obtain ⟨w, hw, hst⟩ := Option.map_eq_some_iff.mp h.symm
  rw [← hst]
  exact hs w hw

theorem queueView_state_of {s t : State} {q : Nat} (h : queueView unrecorded q t = queueView unrecorded q s) :
    queueView Queue.state q t = queueView Queue.state q s := by
  have hs (u : State) : queueView Queue.state q u = (queueView unrecorded q u).map Queue.state := by
    unfold queueView
    rw [Option.map_map]
    rfl
  rw [hs, hs, h]

/-- The state in which an aborted queue's records are written. -/
def queueCut (s : State) (q : Nat) (v : Queue) : State :=
  updQ { dropStreams s q ((haltedStreams s q).map Prod.fst) with
    free := s.free + diff32 v.prod v.head
    waiters := s.waiters.filter (fun w => !(w.queue == q && (v.fetched.map (fun (f : Fetched) => f.seq)
      ++ (s.layers.filter (fun l => l.queue == q)).map Layer.seq ++ (v.seams.filter (fun x => !x.opened)).map Seam.seq
      ++ (haltedStreams s q).map Prod.fst).contains w.seq))
    layers := s.layers.filter (fun l => l.queue != q) } q (fun x =>
    { x with
      state := 3, withheld := [], trapped := false, trappedCount := 0, trapValid := false, firstTrap := 0
      fetched := [], seams := x.seams.filter (fun y => y.opened)
      head := v.prod, nextSeq := v.nextSeq + diff32 v.prod v.head
      outstanding := x.outstanding - (s.layers.filter (fun l => l.queue == q)).length
        - (v.seams.filter (fun x => !x.opened)).length - (haltedStreams s q).length })

/-- An aborted queue without anything outstanding is aborted at once. -/
def cutDone (s : State) (q : Nat) : State := updQ s q (fun x => if x.outstanding = 0 then { x with state := 4 } else x)

theorem abortQueue_running (s : State) (q : Nat) (v : Queue) (hv : smGet s.queues q = some v) (hst : v.state = 1 ∨ v.state = 2) :
    ∃ rs, abortQueue s q = cutDone (abortLayers (abortRecords (queueCut s q v) q rs) q (s.layers.filter (fun l => l.queue == q))) q := by
  refine ⟨haltedStreams s q ++ v.fetched.map (fun (f : Fetched) => (f.seq, opcode f.words, descEngine f.words))
    ++ (List.range (diff32 v.prod v.head)).map (fun i =>
        (v.nextSeq + i, (slotHead s v (v.head + i)).1, (slotHead s v (v.head + i)).2))
    ++ (v.seams.filter (fun x => !x.opened)).map (fun x => (x.seq, 0x41, 127)), ?_⟩
  unfold abortQueue
  rw [hv]
  dsimp only
  rw [if_pos hst]
  unfold queueCut cutDone
  rw [List.map_map]
  rfl

theorem abortQueue_idle (s : State) (q : Nat) (h : Stopped s q) : abortQueue s q = s := by
  unfold abortQueue
  split
  · rfl
  next v hv =>
    have hs := h v hv
    dsimp only
    exact if_neg (by omega)

theorem queueCut_queue (s : State) (q : Nat) (v : Queue) : queueView Queue.state q (queueCut s q v)
    = (smGet s.queues q).map (fun _ => 3) := by
  rw [queueCut, queueView, smGet_updQ_self, Option.map_map]
  rfl

theorem stopped_abortQueue_self (s : State) (q : Nat) : Stopped (abortQueue s q) q := by
  by_cases hs : Stopped s q
  · rw [abortQueue_idle s q hs]
    exact hs
  · obtain ⟨v, hv, hst⟩ : ∃ v, smGet s.queues q = some v ∧ (v.state = 1 ∨ v.state = 2) := by
      unfold Stopped at hs
      push Not at hs
      obtain ⟨v, hv, h2⟩ := hs
      exact ⟨v, hv, by omega⟩
    obtain ⟨rs, ha⟩ := abortQueue_running s q v hv hst
    have hview : queueView Queue.state q (abortLayers (abortRecords (queueCut s q v) q rs) q
        (s.layers.filter (fun l => l.queue == q))) = some 3 := by
      rw [queueView_state_of (queueView_abortLayers q q _ _), queueView_state_of (queueView_abortRecords q q _ _),
        queueCut_queue, hv]
      rfl
    rw [ha]
    intro w hw
    obtain ⟨x, hx, hx3⟩ := Option.map_eq_some_iff.mp hview
    rw [cutDone, smGet_updQ_self, hx, Option.map_some] at hw
    cases hw
    split
    · exact ⟨by simp, by simp⟩
    · omega

theorem queueView_abortQueue_ne (s : State) (q p : Nat) (h : p ≠ q) : queueView unrecorded p (abortQueue s q) = queueView unrecorded p s := by
  by_cases hs : Stopped s q
  · rw [abortQueue_idle s q hs]
  · obtain ⟨v, hv, hst⟩ : ∃ v, smGet s.queues q = some v ∧ (v.state = 1 ∨ v.state = 2) := by
      unfold Stopped at hs
      push Not at hs
      obtain ⟨v, hv, h2⟩ := hs
      exact ⟨v, hv, by omega⟩
    obtain ⟨rs, ha⟩ := abortQueue_running s q v hv hst
    have hother (u : State) (f : Queue → Queue) : queueView unrecorded p (updQ u q f) = queueView unrecorded p u :=
      congrArg (Option.map unrecorded) (smGet_updQ_ne u q p f h)
    rw [ha, cutDone, hother, queueView_abortLayers, queueView_abortRecords, queueCut, hother]
    exact queueView_of_queues unrecorded p rfl

theorem stopped_abortQueue (s : State) (q p : Nat) (h : Stopped s p) : Stopped (abortQueue s q) p := by
  by_cases hp : p = q
  · subst hp
    exact stopped_abortQueue_self s p
  · exact stopped_of_view (queueView_state_of (queueView_abortQueue_ne s q p hp)) h

theorem stopped_abortQueues (l : List Nat) (s : State) (q : Nat) (h : Stopped s q ∨ q ∈ l) : Stopped (l.foldl abortQueue s) q := by
  induction l generalizing s with
  | nil =>
    rcases h with h | h
    · exact h
    · cases h
  | cons a l ih =>
    rw [List.foldl_cons]
    refine ih _ ?_
    rcases h with h | h
    · exact .inl (stopped_abortQueue s a q h)
    · rcases List.mem_cons.mp h with rfl | h
      · exact .inl (stopped_abortQueue_self s q)
      · exact .inr h

theorem stopped_of_none {s : State} {q : Nat} (h : smGet s.queues q = none) : Stopped s q := fun v hv => by
  rw [h] at hv
  cases hv

/-- With every queue aborted, none runs and none is halted. -/
theorem stopped_allAborted (s : State) (q : Nat) : Stopped ((smKeys s.queues).foldl abortQueue s) q := by
  refine stopped_abortQueues _ s q ?_
  cases hv : smGet s.queues q with
  | none => exact .inl (stopped_of_none hv)
  | some v => exact .inr (List.mem_map.mpr ⟨(q, v), mem_of_smGet hv, rfl⟩)

/-- Abortion drops what waits, and starts nothing. -/
theorem abortQueue_of {γ : Type} (vw : State → γ) (h1 : ∀ s t, vw (foot11_5 s t) = vw s) (s : State) (q : Nat)
    (h2 : ∀ v, vw (queueCut s q v) = vw s) : vw (abortQueue s q) = vw s := by
  have hsp (u : State) (ws : List Word64) : vw (writeSpare u q ws) = vw u := writeSpare_keeps vw h1 u q ws
  have hrec (l : List (Nat × Nat × Nat)) (u : State) : vw (abortRecords u q l) = vw u := by
    induction l generalizing u with
    | nil => rfl
    | cons e l ih => exact (ih _).trans (hsp _ _)
  have hlay (l : List Layer) (u : State) : vw (abortLayers u q l) = vw u := by
    induction l generalizing u with
    | nil => rfl
    | cons e l ih => exact (ih _).trans (hsp _ _)
  by_cases hs : Stopped s q
  · rw [abortQueue_idle s q hs]
  · obtain ⟨v, hv, hst⟩ : ∃ v, smGet s.queues q = some v ∧ (v.state = 1 ∨ v.state = 2) := by
      unfold Stopped at hs
      push Not at hs
      obtain ⟨v, hv, h3⟩ := hs
      exact ⟨v, hv, by omega⟩
    obtain ⟨rs, ha⟩ := abortQueue_running s q v hv hst
    have hupd (u : State) (f : Queue → Queue) : vw (updQ u q f) = vw u := updQ_keeps vw (fun s t => h1 s (footQueues s t)) u q f
    rw [ha, cutDone, hupd, hlay, hrec, h2]

theorem enginesEmpty_queueCut (s : State) (q : Nat) (v : Queue) (h : EnginesEmpty s) : EnginesEmpty (queueCut s q v) := by
  have hempty (u : State) (n : Nat) (ws : List Waiter) (gone : List Nat) (hu : EnginesEmpty u) :
      EnginesEmpty { dropStreams u q gone with free := n, waiters := ws, layers := u.layers.filter (fun l => l.queue != q) } := by
    obtain ⟨hctx, hrun, hlay, hcoll, hclaim⟩ := hu
    refine ⟨fun g hg => ?_, hrun, ?_, hcoll, ?_⟩
    · obtain ⟨y, hy, rfl⟩ := List.mem_map.mp hg
      simp [hctx y hy]
    · simp [hlay]
    · simp [dropStreams, hclaim]
  rw [queueCut, updQ_keeps EnginesEmpty (fun _ _ => rfl)]
  exact hempty s _ _ _ h

theorem enginesEmpty_abortQueue (s : State) (q : Nat) (h : EnginesEmpty s) : EnginesEmpty (abortQueue s q) :=
  (abortQueue_of EnginesEmpty (fun _ _ => rfl) s q (fun v => propext ⟨fun _ => h, fun _ => enginesEmpty_queueCut s q v h⟩)).mpr h

theorem enginesEmpty_abortQueues (l : List Nat) (s : State) (h : EnginesEmpty s) : EnginesEmpty (l.foldl abortQueue s) := by
  induction l generalizing s with
  | nil => exact h
  | cons a l ih => exact ih _ (enginesEmpty_abortQueue s a h)

/-! ### Host accesses that go on while the module is not Ready -/

/-- What the accesses of the host may change while the module is not Ready: what it hears, and the port. -/
def footHostIdle (s t : State) : State := { s with free := t.free, out := t.out, host := t.host }

theorem serveHost_idle {γ : Type} (vw : State → γ) (hg : ∀ s t, vw (footHostIdle s t) = vw s) (s : State) (w : PortWait)
    (hr : isReady s = false) (h4 : objGet s Obj.moduleState ≠ 4) : vw (serveHost s w) = vw s := by
  have hopen (n : Nat) : vw (openData s n) = vw s := view_of_foot vw hg rfl
  unfold serveHost
  split <;> simp only [hr, Bool.false_eq_true, if_false]
  · exact view_of_foot vw hg rfl
  · exact hopen _
  · rw [if_neg h4]
  · exact hopen _

theorem hostSettle_idle {γ : Type} (vw : State → γ) (hg : ∀ s t, vw (footHostIdle s t) = vw s) (s : State)
    (hr : isReady s = false) (h4 : objGet s Obj.moduleState ≠ 4) : vw (hostSettle s) = vw s := by
  have hmod (u : State) : isReady u = (objGet u Obj.moduleState == 1) := rfl
  have hfold (l : List PortWait) (u : State) (hu : objGet u Obj.moduleState = objGet s Obj.moduleState) :
      vw (l.foldl (fun s w => if snoopHeld s w || (isReady s && (heldLine s w).isSome) then parkHost s w else serveHost s w) u)
        = vw u := by
    induction l generalizing u with
    | nil => rfl
    | cons w l ih =>
      have hru : isReady u = false := by
        rw [hmod, hu, ← hmod]
        exact hr
      have hstep {δ : Type} (wv : State → δ) (hwv : ∀ s t, wv (footHostIdle s t) = wv s) :
          wv (if snoopHeld u w || (isReady u && (heldLine u w).isSome) then parkHost u w else serveHost u w) = wv u := by
        split
        · exact view_of_foot wv hwv rfl
        · exact serveHost_idle wv hwv u w hru (by rw [hu]; exact h4)
      rw [List.foldl_cons, ih _ ((hstep (objGet · Obj.moduleState) (fun _ _ => rfl)).trans hu)]
      exact hstep vw hg
  have hclear (h : HostPort) : vw { s with host := h } = vw s := view_of_foot vw hg rfl
  exact (hfold s.host.waits (updHost s (fun h => { h with waits := [] })) rfl).trans (hclear _)

theorem hostSettle_empty (s : State) (h : s.host.waits = []) : hostSettle s = s := by
  have hs : updHost s (fun x => { x with waits := [] }) = s := by
    have hh : ({ s.host with waits := [] } : HostPort) = s.host := by
      rw [← h]
    exact congrArg (fun x => { s with host := x }) hh
  unfold hostSettle
  rw [h, hs]
  rfl

end Sys2Proof.Machine

/-!
Seams: a marker that every serving half may run waits to open, and opens its range (O13).
-/

namespace Sys2Proof.Machine

/-! ### A marker reached by the schedulers of its halves (R144) -/

theorem reached_of_seamReady {s : State} {h : Half} {q : Nat} {f : Fetched} {v : Queue} (hv : smGet s.queues q = some v)
    (hr : seamReady s h q f = (s, true)) : mayIssue s h = true ∧ v.state = 1 ∧ slotFree v = true := by
  unfold seamReady at hr
  rw [hv] at hr
  dsimp only at hr
  split at hr
  · simp at hr
  next h1 =>
    split at hr
    · simp at hr
    next h2 => simpa [and_assoc] using And.intro h1 h2

theorem seamReady_of {s : State} {h : Half} {q : Nat} {f : Fetched} {v : Queue} (hv : smGet s.queues q = some v)
    (hm : mayIssue s h = true) (hst : v.state = 1) (hf : slotFree v = true) : seamReady s h q f = (s, true) := by
  unfold seamReady
  simp [hv, hm, hst, hf]

/-- What of a queue the schedulers' reaching a descriptor leaves: all but the descriptors still to be issued. -/
def unfetched (v : Queue) : Queue := { v with fetched := [] }

/-- The descriptor of sequence number n no longer waits for half h. -/
def ReachedIn (n : Nat) (h : Half) (v : Queue) : Prop := ∀ g ∈ v.fetched, g.seq = n → todoIn g h = false

/-- A state that has only come by the reaching of a descriptor: its queue, with that descriptor in it, and the rest of the state. -/
structure Reaching (s u : State) (q : Nat) (v w : Queue) (n : Nat) : Prop where
  queue : smGet u.queues q = some w
  rest : u = { s with queues := u.queues }
  others : OthersKept s u q
  kept : unfetched w = unfetched v
  there : ∃ g ∈ w.fetched, g.seq = n

/-- A descriptor that half h has left. -/
def leftIn : Half → Fetched → Fetched
  | .w, y => { y with todoW := false }
  | .e, y => { y with todoE := false }

theorem todoIn_leftIn (g : Fetched) (h k : Half) (hg : todoIn g k = false ∨ k = h) : todoIn (leftIn h g) k = false := by
  cases h <;> cases k <;> simp_all [todoIn, leftIn]

theorem leftIn_seq (h : Half) (g : Fetched) : (leftIn h g).seq = g.seq := by cases h <;> rfl

theorem reachIn_eq {ready : State → Half → Nat → Fetched → State × Bool} (u : State) (q : Nat) (f : Fetched) (h : Half)
    (hr : todoIn f h = true → ready u h q f = (u, true)) :
    reachIn ready u q f h = if todoIn f h then updFetched u q f.seq (leftIn h) else u := by
  unfold reachIn
  cases ht : todoIn f h with
  | false => rfl
  | true =>
    rw [if_pos rfl, hr ht]
    cases h <;> rfl

/-- A queue whose descriptor n half h has left. -/
def halfLeft (n : Nat) (h : Half) (w : Queue) : Queue :=
  { w with fetched := w.fetched.map (fun g => if g.seq = n then leftIn h g else g) }

theorem reachedIn_halfLeft (n : Nat) (h k : Half) (w : Queue) (hw : ∀ g ∈ w.fetched, g.seq = n → todoIn g k = false ∨ k = h) :
    ReachedIn n k (halfLeft n h w) := by
  intro y hy hyn
  obtain ⟨x, hx, rfl⟩ := List.mem_map.mp hy
  by_cases hxn : x.seq = n
  · rw [if_pos hxn]
    exact todoIn_leftIn x h k (hw x hx hxn)
  · rw [if_neg hxn] at hyn
    exact absurd hyn hxn

/-- A half that may run a descriptor reaches it. -/
theorem reachIn_holds {ready : State → Half → Nat → Fetched → State × Bool} {s u : State} {q : Nat} {v w : Queue} {f : Fetched}
    (h : Half) (hu : Reaching s u q v w f.seq)
    (hr : todoIn f h = true → ready u h q f = (u, true)) (hf : todoIn f h = false → ReachedIn f.seq h w) :
    ∃ x, Reaching s (reachIn ready u q f h) q v x f.seq ∧ ReachedIn f.seq h x ∧ ∀ k, ReachedIn f.seq k w → ReachedIn f.seq k x := by
  rw [reachIn_eq u q f h hr]
  cases ht : todoIn f h with
  | false => exact ⟨w, hu, hf ht, fun _ hk => hk⟩
  | true =>
    obtain ⟨hq, hrest, ho, hk, g, hg, hn⟩ := hu
    refine ⟨halfLeft f.seq h w, ⟨?_, ?_, ho.updQ _, hk, leftIn h g, ?_, (leftIn_seq h g).trans hn⟩,
      reachedIn_halfLeft _ h h w (fun _ _ _ => Or.inr rfl), fun k hkw => reachedIn_halfLeft _ h k w (fun g hg hn => Or.inl (hkw g hg hn))⟩
    · refine (smGet_updQ_self u q _).trans ?_
      rw [hq]
      rfl
    · rw [hrest]
      rfl
    · exact List.mem_map.mpr ⟨g, hg, if_pos hn⟩

/-- Where every serving half may run it, a descriptor is reached in both; half W's reaching it leaves it ready in half E. -/
theorem reachedBoth {ready : State → Half → Nat → Fetched → State × Bool} (s : State) (q : Nat) (v : Queue) (f : Fetched)
    (hv : smGet s.queues q = some v) (hmem : f ∈ v.fetched) (hr : ∀ h, todoIn f h = true → ready s h q f = (s, true))
    (hkeep : ready s .e q f = (s, true)
      → ready (updFetched s q f.seq (leftIn .w)) .e q f = (updFetched s q f.seq (leftIn .w), true))
    (hone : ∀ g ∈ v.fetched, g.seq = f.seq → g = f) :
    ∃ w, Reaching s (reachIn ready (reachIn ready s q f .w) q f .e) q v w f.seq
      ∧ ReachedIn f.seq .w w ∧ ReachedIn f.seq .e w := by
  have h0 : Reaching s s q v v f.seq := ⟨hv, rfl, OthersKept.refl s q, rfl, f, hmem, rfl⟩
  have hf0 (h : Half) (ht : todoIn f h = false) : ReachedIn f.seq h v := fun g hg hn => by rw [hone g hg hn]; exact ht
  obtain ⟨w1, h1, hw1, hk1⟩ := reachIn_holds .w h0 (hr .w) (hf0 .w)
  have he : todoIn f .e = true → ready (reachIn ready s q f .w) .e q f = (reachIn ready s q f .w, true) := fun ht => by
    rw [reachIn_eq s q f .w (hr .w)]
    split
    · exact hkeep (hr .e ht)
    · exact hr .e ht
  obtain ⟨w2, h2, he2, hk2⟩ := reachIn_holds .e h1 he (fun ht => hk1 .e (hf0 .e ht))
  exact ⟨w2, h2, hk2 .w hw1, he2⟩

theorem seamReady_leftIn {s : State} {q : Nat} {v : Queue} {f : Fetched} {h k : Half} (n : Nat) (hv : smGet s.queues q = some v)
    (hr : seamReady s h q f = (s, true)) :
    seamReady (updFetched s q n (leftIn k)) h q f = (updFetched s q n (leftIn k), true) := by
  obtain ⟨hm, hst, hfree⟩ := reached_of_seamReady hv hr
  refine seamReady_of (v := halfLeft n k v) ?_ hm hst hfree
  refine (smGet_updQ_self s q _).trans ?_
  rw [hv]
  rfl

/-- A marker that has been reached everywhere leaves the descriptors to be issued. -/
def issuedQueue (w : Queue) (n : Nat) : Queue :=
  { w with fetched := (w.fetched.map (fun (f : Fetched) =>
      if f.seq = n then { f with todoW := false, todoE := false } else f)).filter (fun (f : Fetched) => f.todoW || f.todoE) }

theorem issuedQueue_gone (w : Queue) (n : Nat) : ∀ g ∈ (issuedQueue w n).fetched, g.seq ≠ n := by
  intro g hg hn
  obtain ⟨hm, ht⟩ := List.mem_filter.mp hg
  obtain ⟨x, -, rfl⟩ := List.mem_map.mp hm
  split at hn <;> split at ht <;> simp_all

/-- A descriptor that both halves execute together runs once it is reached in both. -/
theorem runTogether_runs {ready : State → Half → Nat → Fetched → State × Bool} {s : State} {q op : Nat} {v : Queue} {f : Fetched}
    (run : State → Fetched → State) (hv : smGet s.queues q = some v)
    (hfind : v.fetched.find? (fun f => opcode f.words == op && schedulerOwn s q v.halves f) = some f)
    (hreach : ∃ w, Reaching s (reachIn ready (reachIn ready s q f .w) q f .e) q v w f.seq
      ∧ ReachedIn f.seq .w w ∧ ReachedIn f.seq .e w) :
    ∃ u x, runTogether ready s q op run = run u f ∧ u = { s with queues := u.queues } ∧ OthersKept s u q
      ∧ smGet u.queues q = some x ∧ unfetched x = unfetched v ∧ ∀ g ∈ x.fetched, g.seq ≠ f.seq := by
  obtain ⟨w, ⟨hq, hrest, ho, hk, g, hg, hgn⟩, hw, he⟩ := hreach
  have hy : ∃ y, w.fetched.find? (fun y => y.seq == f.seq) = some y := by
    rw [← Option.isSome_iff_exists, List.find?_isSome]
    exact ⟨g, hg, by simp [hgn]⟩
  obtain ⟨y, hy⟩ := hy
  have hyn : y.seq = f.seq := by simpa using List.find?_some hy
  have hyw : y.todoW = false := hw y (List.mem_of_find?_eq_some hy) hyn
  have hye : y.todoE = false := he y (List.mem_of_find?_eq_some hy) hyn
  generalize hu : reachIn ready (reachIn ready s q f .w) q f .e = u at hq hrest ho
  refine ⟨setTodo u q f.seq false false, issuedQueue w f.seq, ?_, ?_, ho.updQ _, ?_, hk, issuedQueue_gone w f.seq⟩
  · unfold runTogether
    simp only [hv, hfind, hu, hq, Option.bind_some, hy, hyw, hye, Bool.or_self, Bool.false_eq_true, if_false]
  · rw [hrest]
    rfl
  · rw [setTodo, smGet_updQ_self, hq]
    rfl

theorem runTogether_idle (ready : State → Half → Nat → Fetched → State × Bool) (s : State) (q op : Nat)
    (run : State → Fetched → State) (h : ∀ v, smGet s.queues q = some v →
      v.fetched.find? (fun f => opcode f.words == op && schedulerOwn s q v.halves f) = none) :
    runTogether ready s q op run = s := by
  unfold runTogether
  cases hv : smGet s.queues q with
  | none => rfl
  | some v =>
    dsimp only
    rw [h v hv]

theorem seamMarkerAt_runs (s : State) (q : Nat) (v : Queue) (f : Fetched) (hv : smGet s.queues q = some v)
    (hfind : v.fetched.find? (fun f => opcode f.words == 0x41 && schedulerOwn s q v.halves f) = some f)
    (hr : ∀ h, todoIn f h = true → seamReady s h q f = (s, true)) (hone : ∀ g ∈ v.fetched, g.seq = f.seq → g = f) :
    ∃ u x, seamMarkerAt s q = runSeam u q f ∧ u = { s with queues := u.queues } ∧ OthersKept s u q
      ∧ smGet u.queues q = some x ∧ unfetched x = unfetched v ∧ ∀ g ∈ x.fetched, g.seq ≠ f.seq :=
  runTogether_runs _ hv hfind
    (reachedBoth s q v f hv (List.mem_of_find?_eq_some hfind) hr (seamReady_leftIn f.seq hv) hone)

theorem seamWaits_reached (s : State) (q n : Nat) (ws : List Word64) (l : List Nat)
    (h : ∀ i ∈ l, reached s (seamObj ws i) (seamValue ws i) = true) : seamWaits s q n ws l = s := by
  induction l with
  | nil => rfl
  | cons i l ih =>
    rw [seamWaits, if_pos (h i List.mem_cons_self)]
    exact ih (fun j hj => h j (List.mem_cons_of_mem i hj))

/-- A queue with one descriptor outstanding more. -/
def oneMore (x : Queue) : Queue := { x with outstanding := x.outstanding + 1 }

/-- A queue with a seam more that waits to open. -/
def seamAdded (f : Fetched) (x : Queue) : Queue :=
  { x with seams := x.seams ++ [{ seq := f.seq, words := f.words, opened := false, inLayer := f.inLayer }] }

theorem seamMarker_waits (q : Nat) (s : State) (v : Queue) (f : Fetched) (hv : smGet s.queues q = some v)
    (hfind : v.fetched.find? (fun f => opcode f.words == 0x41 && schedulerOwn s q v.halves f) = some f)
    (hr : ∀ h, todoIn f h = true → seamReady s h q f = (s, true)) (hrej : seamReject f.words = none)
    (hone : ∀ g ∈ v.fetched, g.seq = f.seq → g = f)
    (hall : ∀ i, i < seamCount f.words → reached s (seamObj f.words i) (seamValue f.words i) = true) :
    ∃ t v', exec (.seamMarker q) s = .next t ∧ t = { s with queues := t.queues } ∧ smGet t.queues q = some v'
      ∧ v'.seams = v.seams ++ [{ seq := f.seq, words := f.words, opened := false, inLayer := f.inLayer }]
      ∧ v'.outstanding = v.outstanding + 1
      ∧ (∀ g ∈ v'.fetched, g.seq ≠ f.seq) ∧ (∀ p, p ≠ q → smGet t.queues p = smGet s.queues p) := by
  obtain ⟨u, x, hrun, hrest, ho, hx, hk, hgone⟩ := seamMarkerAt_runs s q v f hv hfind hr hone
  have hw : runSeam u q f = updQ (updQ u q oneMore) q (seamAdded f) := by
    unfold runSeam
    rw [hrej]
    refine seamWaits_reached _ _ _ _ _ (fun i hi => ?_)
    have hi' := hall i (List.mem_range.mp hi)
    rw [hrest]
    exact hi'
  refine ⟨_, seamAdded f (oneMore x), congrArg Host.Outcome.next (hrun.trans hw), ?_, ?_, ?_, ?_, hgone, (ho.updQ _).updQ _⟩
  · rw [hrest]
    rfl
  · rw [smGet_updQ_self, smGet_updQ_self, hx]
    rfl
  · have hs : x.seams = v.seams := (congrArg Queue.seams hk :)
    exact congrArg (· ++ _) hs
  · have hs : x.outstanding = v.outstanding := (congrArg Queue.outstanding hk :)
    exact congrArg (· + 1) hs

theorem seamMarker_idle (q : Nat) (s : State) (h : ∀ v, smGet s.queues q = some v →
    v.fetched.find? (fun f => opcode f.words == 0x41 && schedulerOwn s q v.halves f) = none) : exec (.seamMarker q) s = .next s :=
  congrArg Host.Outcome.next (runTogether_idle _ _ _ _ _ h)

/-! ### A descriptor that ends in a queue that has changed -/

/-- What of a queue the end of its descriptors is measured by. -/
def recordsOf (v : Queue) : Nat × Nat × Nat × Nat × List Parked := (v.cplAddr, v.cplLog2, v.cplTail, v.cplHead, v.waitRing)

/-- A state whose objects and queue q alone differ from s, with q's completion ring as it was. -/
structure RingKept (s u : State) (q : Nat) (v w : Queue) : Prop where
  rest : u = { s with queues := u.queues, dic := u.dic }
  others : OthersKept s u q
  before : smGet s.queues q = some v
  queue : smGet u.queues q = some w
  ring : recordsOf w = recordsOf v

theorem RingKept.slotReady {s u : State} {q : Nat} {v w : Queue} (h : RingKept s u q v w) :
    slotReady u w 0 = slotReady s v 0 := by
  obtain ⟨hrest, -, -, -, hring⟩ := h
  have h1 : ∀ ls, snoopHolds u ls = snoopHolds s ls := fun ls => by
    rw [hrest]
    rfl
  simp only [recordsOf, Prod.mk.injEq] at hring
  obtain ⟨ha, hl, ht, hh, -⟩ := hring
  have hfree : cplFree w = cplFree v := by rw [cplFree, hl, ht, hh, cplFree]
  have hlines : slotLines w = slotLines v := by
    unfold slotLines
    rw [ha, hl, ht]
  rw [Machine.slotReady, h1, hfree, hlines, Machine.slotReady]

theorem RingKept.endFrame {s u : State} {q : Nat} {v w : Queue} (h : RingKept s u q v w) (d : Done) (hq : d.queue = q)
    (hd : d.body.length ≤ 6) : EndFrame s (finishDesc u d) q := by
  obtain ⟨hrest, ho, hv, hw, hring⟩ := h
  subst hq
  simp only [recordsOf, Prod.mk.injEq] at hring
  obtain ⟨ha, hl, ht, -, -⟩ := hring
  refine EndFrame.of_before (endFrame_finishDesc u d hd) (fun x => ?_) ho ?_ (fun v' hv' => ?_)
  · rw [hrest]
    rfl
  · rw [hrest]
    rfl
  · cases hv.symm.trans hv'
    exact ⟨w, hw, ha, ht, hl⟩

theorem RingKept.oneCompleted {s u : State} {v w : Queue} (d : Done) (h : RingKept s u d.queue v w)
    (hout : w.outstanding = v.outstanding) : OneCompleted s (finishDesc u d) d.queue := by
  obtain ⟨hready, hparked⟩ := oneCompleted_finishDesc u d w h.queue
  have hslot := h.slotReady
  have hring := h.ring
  simp only [recordsOf, Prod.mk.injEq] at hring
  obtain ⟨-, -, ht, -, hr⟩ := hring
  intro v' hv'
  cases h.before.symm.trans hv'
  rw [← hslot, ← hout, ← ht, ← hr]
  exact ⟨hready, hparked⟩

/-- Whichever way a descriptor ends, its queue keeps what neither its record nor its parking touches. -/
theorem finishDesc_view {γ : Type} (qv : Queue → γ) (hq : ∀ v, qv (unended v) = qv v)
    (hr : ∀ v a b, qv { v with cplTail := a, pendTimes := b } = qv v) (hp : ∀ v a, qv { v with waitRing := a } = qv v)
    (s : State) (d : Done) (v : Queue) (hv : smGet s.queues d.queue = some v) :
    ∃ x, smGet (finishDesc s d).queues d.queue = some x ∧ qv x = qv v := by
  cases hs : slotReady s v 0 with
  | true =>
    obtain ⟨x, hx, hu, -⟩ := finishDesc_queue_ready s d v hv hs
    exact ⟨x, hx, (unended_of qv hq hu).trans (hr _ _ _)⟩
  | false => exact ⟨_, finishDesc_queue_parked s d v hv hs, hp _ _⟩

/-! ### A seam that opens, and a marker that is rejected -/

/-- A queue whose seam m has opened. -/
def seamGone (v : Queue) (m : Seam) (x : Queue) : Queue :=
  { x with seams := ({ m with opened := true } : Seam) :: x.seams.filter (fun (y : Seam) => !y.opened && y.seq != m.seq)
           fetched := markEarly m (seamEnd v m) x.fetched (arraysSince v m.seq)
           seamArrays := x.seamArrays.filter (fun a => decide (m.seq < a.1)) }

/-- The record of a seam marker. -/
def seamDone (q : Nat) (m : Seam) : Done :=
  { queue := q, seq := m.seq, words := m.words, inLayer := m.inLayer, status := 0, op := 0x41, engine := 127
    summary := 0, body := List.replicate 6 0 }

theorem seamOpenAt_opens (q : Nat) (s : State) (v : Queue) (m : Seam) (hv : smGet s.queues q = some v)
    (hm : v.seams.find? (fun x => !x.opened) = some m) (hst : v.state = 1) (hw : hasWait s q m.seq = false)
    (hi : mayIssue s (homeOfHalves v.halves) = true) (hb : seamBusy s q v m = false) :
    seamOpenAt s q = completeDesc (objInc (updQ s q (seamGone v m)) Obj.seamsOpened) (seamDone q m) := by
  unfold seamOpenAt
  simp only [hv, hm]
  rw [if_neg (by simp [hst, hw, hi, hb])]
  rfl

theorem seamOpen_holds (q : Nat) (s : State) (v : Queue) (m : Seam) (hv : smGet s.queues q = some v)
    (hm : v.seams.find? (fun x => !x.opened) = some m) (hst : v.state = 1) (hw : hasWait s q m.seq = false)
    (hi : mayIssue s (homeOfHalves v.halves) = true) (hb : seamBusy s q v m = false) (hin : m.inLayer = false) :
    ∃ t v', exec (.seamOpen q) s = .next t ∧ EndFrame s t q ∧ smGet t.queues q = some v'
      ∧ v'.seams.head? = some { m with opened := true } ∧ (∀ x ∈ v'.seams, x ≠ { m with opened := true } → x.opened = false)
      ∧ v'.fetched = markEarly m (seamEnd v m) v.fetched (arraysSince v m.seq)
      ∧ Counted s t Obj.seamsOpened 1 ∧ OneCompleted s t q ∧ SameObjs s t (Obj.seamsOpened :: tailObjs) := by
  have hq : smGet (objInc (updQ s q (seamGone v m)) Obj.seamsOpened).queues q = some (seamGone v m v) := by
    refine (smGet_updQ_self s q _).trans ?_
    rw [hv]
    rfl
  have hring : RingKept s (objInc (updQ s q (seamGone v m)) Obj.seamsOpened) q v (seamGone v m v) :=
    ⟨rfl, (OthersKept.refl s q).updQ _, hv, hq, rfl⟩
  have hcount : objGet (objInc (updQ s q (seamGone v m)) Obj.seamsOpened) Obj.seamsOpened
      = satAdd (objTop Obj.seamsOpened) (objGet s Obj.seamsOpened) 1 := objGet_objPut_self _ _ _
  have hsame : SameObjs s (objInc (updQ s q (seamGone v m)) Obj.seamsOpened) [Obj.seamsOpened] :=
    (((SameObjs.refl s _).of_dic rfl : SameObjs s (updQ s q (seamGone v m)) [Obj.seamsOpened])).objInc _ List.mem_cons_self
  have hexec : exec (.seamOpen q) s = .next (finishDesc (objInc (updQ s q (seamGone v m)) Obj.seamsOpened) (seamDone q m)) :=
    congrArg Host.Outcome.next ((seamOpenAt_opens q s v m hv hm hst hw hi hb).trans (completeDesc_plain _ _ hin))
  generalize objInc (updQ s q (seamGone v m)) Obj.seamsOpened = u at hexec hq hring hcount hsame
  obtain ⟨x, hx, hk⟩ := finishDesc_view (fun y => (y.seams, y.fetched)) (fun _ => rfl) (fun _ _ _ => rfl) (fun _ _ => rfl) u
    (seamDone q m) _ hq
  obtain ⟨hseams, hfetched⟩ := Prod.mk.inj hk
  refine ⟨_, x, hexec, hring.endFrame _ rfl le_rfl, hx, ?_, ?_, hfetched, ?_, hring.oneCompleted (seamDone q m) rfl, ?_⟩
  · rw [hseams]
    rfl
  · intro y hy hne
    rw [hseams] at hy
    obtain rfl | hy := List.mem_cons.mp hy
    · exact absurd rfl hne
    · have ho := (List.mem_filter.mp hy).2
      simp only [Bool.and_eq_true, Bool.not_eq_eq_eq_not, Bool.not_true] at ho
      exact ho.1
  · exact ((sameObjs_finishDesc u (seamDone q m)) _ (by decide)).trans hcount
  · exact (hsame.mono (by simp)).trans ((sameObjs_finishDesc u (seamDone q m)).mono (List.subset_cons_self _ _))

theorem seamOpen_idle (q : Nat) (s : State) (h : ∀ v m, smGet s.queues q = some v → v.seams.find? (fun x => !x.opened) = some m →
      v.state ≠ 1 ∨ hasWait s q m.seq = true ∨ mayIssue s (homeOfHalves v.halves) = false ∨ seamBusy s q v m = true) :
    exec (.seamOpen q) s = .next s := by
  refine congrArg Host.Outcome.next ?_
  unfold seamOpenAt
  cases hv : smGet s.queues q with
  | none => rfl
  | some v =>
    cases hm : v.seams.find? (fun x => !x.opened) with
    | none =>
      dsimp only
      rw [hm]
    | some m =>
      dsimp only
      rw [hm]
      dsimp only
      refine if_pos ?_
      rcases h v m hv hm with h | h | h | h <;> simp [h]

/-- The record of a descriptor that is rejected. -/
def rejected (d : Issued) (status engine : Nat) : Done :=
  { queue := d.queue, seq := d.seq, words := d.words, inLayer := d.inLayer, status := status, op := opcode d.words, engine := engine
    summary := 0, body := List.replicate 6 0 }

theorem rejectDesc_eq (s : State) (d : Issued) (st e : Nat) (h : d.inLayer = false) :
    rejectDesc s d st e = finishDesc s (rejected d st e) := completeDesc_plain _ _ h

theorem seamMarker_rejected (q st : Nat) (s : State) (v : Queue) (f : Fetched) (hv : smGet s.queues q = some v)
    (hfind : v.fetched.find? (fun f => opcode f.words == 0x41 && schedulerOwn s q v.halves f) = some f)
    (hr : ∀ h, todoIn f h = true → seamReady s h q f = (s, true)) (hrej : seamReject f.words = some st)
    (hone : ∀ g ∈ v.fetched, g.seq = f.seq → g = f) (hin : f.inLayer = false) :
    ∃ t, exec (.seamMarker q) s = .next t ∧ EndFrame s t q ∧ SameObjs s t tailObjs
      ∧ (slotReady s v 0 = true → ∃ v', smGet t.queues q = some v' ∧ v'.outstanding = v.outstanding
          ∧ v'.cplTail = (v.cplTail + 1) % 2 ^ 32 ∧ v'.seams = v.seams ∧ (∀ g ∈ v'.fetched, g.seq ≠ f.seq)) := by
  obtain ⟨u, x, hrun, hrest, ho, hx, hk, hgone⟩ := seamMarkerAt_runs s q v f hv hfind hr hone
  have hexec : exec (.seamMarker q) s = .next (finishDesc (updQ u q oneMore)
      (rejected { queue := q, seq := f.seq, words := f.words, inLayer := f.inLayer } st 127)) := by
    refine congrArg Host.Outcome.next (hrun.trans ?_)
    unfold runSeam
    rw [hrej]
    exact rejectDesc_eq _ _ _ _ hin
  have hq : smGet (updQ u q oneMore).queues q = some (oneMore x) := by
    rw [smGet_updQ_self, hx]
    rfl
  have hring : RingKept s (updQ u q oneMore) q v (oneMore x) := by
    refine ⟨?_, ho.updQ _, hv, hq, (congrArg recordsOf hk :)⟩
    rw [hrest]
    rfl
  have hsame : SameObjs s (updQ u q oneMore) tailObjs := (SameObjs.refl s _).of_dic (by rw [hrest]; rfl)
  refine ⟨_, hexec, hring.endFrame _ rfl le_rfl, hsame.trans (sameObjs_finishDesc _ _), fun hslot => ?_⟩
  obtain ⟨y, hy, hu, hout⟩ := finishDesc_queue_ready (updQ u q oneMore)
    (rejected { queue := q, seq := f.seq, words := f.words, inLayer := f.inLayer } st 127) (oneMore x) hq
    (hring.slotReady.trans hslot)
  have hxo : x.outstanding = v.outstanding := (congrArg Queue.outstanding hk :)
  have hxs : x.seams = v.seams := (congrArg Queue.seams hk :)
  have hxt : x.cplTail = v.cplTail := (congrArg Queue.cplTail hk :)
  refine ⟨y, hy, ?_, ?_, (unended_of Queue.seams (fun _ => rfl) hu).trans hxs, ?_⟩
  · rw [hout]
    exact hxo
  · refine (unended_of Queue.cplTail (fun _ => rfl) hu).trans ?_
    exact congrArg (fun n => (n + 1) % 2 ^ 32) hxt
  · have hf : y.fetched = x.fetched := (unended_of Queue.fetched (fun _ => rfl) hu).trans rfl
    rw [hf]
    exact hgone

/-- Settles O13: a marker is reached half by half and waits, and a seam opens and completes with one record. -/
theorem seamsWaitAndOpen : Obligations.SeamsWaitAndOpen := by
  unfold Obligations.SeamsWaitAndOpen
  exact ⟨seamMarker_waits, seamOpen_holds, seamMarker_rejected, seamMarker_idle, seamOpen_idle⟩

end Sys2Proof.Machine

/-!
The limited-write objects: a value costs one fuse (O43).
-/

namespace Sys2Proof.Machine

/-! ### A fuse burnt (R342) -/

theorem measEvent_sec_congr {s t : State} (hq : t.seqs = s.seqs) (hs : t.sec = s.sec) (code : Nat) (v : Bytes) :
    (measEvent t code v).sec = (measEvent s code v).sec := by
  simp only [measEvent, measExtend, updSec, hq, hs]

/-- What a limited-write object does in the Dictionary: its value, its remaining writes, its own rule and the effect of a new value. -/
structure FuseKind where
  key : Nat
  left : Nat
  own : State → Nat → Nat
  effect : State → State

/-- The command of a limited-write object. -/
def Burns (k : FuseKind) (c : Route → Bytes → Bool → Instr) : Prop :=
  ∀ r v burnt s, exec (c r v burnt) s = .next (fuseRow s r k.key k.left v burnt k.own k.effect)

/-- The state of a fuse's new value, before its effect. -/
def fuseBurnt (s : State) (r : Route) (role : Role) (key left n : Nat) : State :=
  journalWrite (objPut (objPut s left (objGet s left - 1)) key n) r role key (objGet s key) n

theorem fuseRow_ready (s : State) (r : Route) (key left : Nat) (v : Bytes) (burnt : Bool) (own : State → Nat → Nat)
    (effect : State → State) (role : Role) (row : ObjRow) (s0 : State) (h : WriteReady s r false key v role row s0) :
    fuseRow s r key left v burnt own effect = answered s r key
      (if leNat v ≠ objGet s0 key ∧ own s0 (leNat v) ≠ 0 then ⟨s0, own s0 (leNat v), []⟩
       else fuseWrite s0 r role key left (leNat v) false burnt effect) := by
  rw [fuseRow, Laws.ask_asked _ _ _ _ _ _ _ _ _ h.1, h.2]

theorem fuseWrite_same (s : State) (r : Route) (role : Role) (key left n : Nat) (last burnt : Bool) (effect : State → State)
    (h : n = objGet s key) : fuseWrite s r role key left n last burnt effect = ⟨s, 0, []⟩ := if_pos h

/-- A new value of a limited-write object, after the test of equality. -/
theorem fuseWrite_new (s : State) (r : Route) (role : Role) (key left n : Nat) (last burnt : Bool) (effect : State → State)
    (h : n ≠ objGet s key) : fuseWrite s r role key left n last burnt effect =
      if objGet s left = 0 ∨ last then ⟨s, 0x06, []⟩
      else if s.power.pale then ⟨s, 0x07, []⟩
      else if !mayCommit s then ⟨objInc s Obj.commitDeferrals, 0x07, []⟩
      else if !burnt then ⟨objPut s left (objGet s left - 1), if objGet s left = 1 then 0x06 else 0x07, []⟩
      else ⟨effect (fuseBurnt s r role key left n), 0, []⟩ := by
  unfold fuseWrite
  exact if_neg h

theorem fuseBurnt_frame (s : State) (r : Route) (role : Role) (key left n : Nat) :
    fuseBurnt s r role key left n = { s with dic := (fuseBurnt s r role key left n).dic, obs := (fuseBurnt s r role key left n).obs } :=
  (footDicObs_self (fuseBurnt s r role key left n)).symm.trans
    (journal_keeps (footDicObs · (fuseBurnt s r role key left n)) (fun _ _ => rfl) _ _ _)

theorem sameObjs_fuseBurnt (s : State) (r : Route) (role : Role) (key left n : Nat) :
    SameObjs s (fuseBurnt s r role key left n) (key :: left :: journalObjs) :=
  (((SameObjs.refl s _).objPut left _ (by simp)).objPut key _ (by simp)).journal _ _
    (fun _ hk => List.mem_cons_of_mem _ (List.mem_cons_of_mem _ hk))

theorem objGet_fuseBurnt_key (s : State) (r : Route) (role : Role) (key left n : Nat) (hk : key ∉ journalObjs) :
    objGet (fuseBurnt s r role key left n) key = n := by
  simp only [journalObjs, List.mem_cons, List.not_mem_nil, or_false, not_or] at hk
  rw [fuseBurnt, journalWrite, objGet_journal _ _ _ _ hk.1 hk.2, objGet_objPut_self]

theorem objGet_fuseBurnt_left (s : State) (r : Route) (role : Role) (key left n : Nat) (hl : left ∉ journalObjs)
    (hne : left ≠ key) : objGet (fuseBurnt s r role key left n) left = objGet s left - 1 := by
  simp only [journalObjs, List.mem_cons, List.not_mem_nil, or_false, not_or] at hl
  rw [fuseBurnt, journalWrite, objGet_journal _ _ _ _ hl.1 hl.2, objGet_objPut_ne _ _ _ _ hne, objGet_objPut_self]

/-- What a limited-write object must be for its fuses to count. -/
structure FuseObject (k : FuseKind) : Prop where
  keyQuiet : k.key ∉ journalObjs
  leftQuiet : k.left ∉ journalObjs
  apart : k.left ≠ k.key
  frame : ∀ u, k.effect u = { u with sec := (k.effect u).sec }
  measured : ∀ s u n, u.sec = s.sec → u.seqs = s.seqs → objGet u k.key = n →
    (k.effect u).sec = if k.key = Obj.antiRollbackLevel then (measEvent s 0x23 (natLe 1 n)).sec else s.sec

section
variable {k : FuseKind} {c : Route → Bytes → Bool → Instr} (hc : Burns k c) {r : Route} {v : Bytes} (burnt : Bool) {s : State}
  {role : Role} {row : ObjRow} {s0 : State} (h : WriteReady s r false k.key v role row s0)
include hc h

theorem fuse_same (hv : leNat v = objGet s0 k.key) : exec (c r v burnt) s = .next (answered s r k.key ⟨s0, 0, []⟩) := by
  rw [hc, fuseRow_ready _ _ _ _ _ _ _ _ _ _ _ h, if_neg (fun h => h.1 hv), fuseWrite_same _ _ _ _ _ _ _ _ _ hv]

theorem fuse_refused (hv : leNat v ≠ objGet s0 k.key) (ho : k.own s0 (leNat v) ≠ 0) :
    exec (c r v burnt) s = .next (answered s r k.key ⟨s0, k.own s0 (leNat v), []⟩) := by
  rw [hc, fuseRow_ready _ _ _ _ _ _ _ _ _ _ _ h, if_pos ⟨hv, ho⟩]

theorem fuse_new (hv : leNat v ≠ objGet s0 k.key) (ho : k.own s0 (leNat v) = 0) :
    exec (c r v burnt) s = .next (answered s r k.key (if objGet s0 k.left = 0 ∨ false then ⟨s0, 0x06, []⟩
      else if s0.power.pale then ⟨s0, 0x07, []⟩
      else if !mayCommit s0 then ⟨objInc s0 Obj.commitDeferrals, 0x07, []⟩
      else if !burnt then ⟨objPut s0 k.left (objGet s0 k.left - 1), if objGet s0 k.left = 1 then 0x06 else 0x07, []⟩
      else ⟨k.effect (fuseBurnt s0 r role k.key k.left (leNat v)), 0, []⟩)) := by
  rw [hc, fuseRow_ready _ _ _ _ _ _ _ _ _ _ _ h, if_neg (fun h => h.2 ho), fuseWrite_new _ _ _ _ _ _ _ _ _ hv]

/-- A new value that its rule lets in, outcome by outcome. -/
theorem fuse_written (hk : FuseObject k) (hv : leNat v ≠ objGet s0 k.key) (ho : k.own s0 (leNat v) = 0) :
    (objGet s0 k.left = 0 → exec (c r v burnt) s = .next (answered s r k.key ⟨s0, 0x06, []⟩))
    ∧ (objGet s0 k.left ≠ 0 → s0.power.pale = true → exec (c r v burnt) s = .next (answered s r k.key ⟨s0, 0x07, []⟩))
    ∧ (objGet s0 k.left ≠ 0 → s0.power.pale = false → mayCommit s0 = false →
      ∃ u, exec (c r v burnt) s = .next (answered s r k.key ⟨u, 0x07, []⟩) ∧ u = { s0 with dic := u.dic }
        ∧ Counted s0 u Obj.commitDeferrals 1 ∧ SameObjs s0 u [Obj.commitDeferrals])
    ∧ (FuseReady s r k.key k.left v role row s0 → burnt = false →
      ∃ u, exec (c r v burnt) s = .next (answered s r k.key ⟨u, if objGet s0 k.left = 1 then 0x06 else 0x07, []⟩)
        ∧ u = { s0 with dic := u.dic } ∧ objGet u k.left = objGet s0 k.left - 1 ∧ SameObjs s0 u [k.left])
    ∧ (FuseReady s r k.key k.left v role row s0 → burnt = true →
      ∃ u, exec (c r v burnt) s = .next (answered s r k.key ⟨u, 0, []⟩)
        ∧ u = { s0 with dic := u.dic, sec := u.sec, obs := u.obs } ∧ objGet u k.key = leNat v
        ∧ objGet u k.left = objGet s0 k.left - 1 ∧ SameObjs s0 u (k.key :: k.left :: journalObjs)
        ∧ u.sec = (if k.key = Obj.antiRollbackLevel then (measEvent s0 0x23 (natLe 1 (leNat v))).sec else s0.sec)
        ∧ Logged s0 u .objectWritten [k.key, roleCode role, routeSession r, routeSource r, objGet s0 k.key, leNat v] false) := by
  have hexec := fuse_new hc burnt h hv ho
  refine ⟨fun hl => ?_, fun hl hp => ?_, fun hl hp hm => ?_, fun hr hb => ?_, fun hr hb => ?_⟩
  · rw [hexec, if_pos (Or.inl hl)]
  · rw [hexec, if_neg (by simp [hl]), if_pos hp]
  · refine ⟨objInc s0 Obj.commitDeferrals, ?_, rfl, objGet_objPut_self _ _ _, (SameObjs.refl _ _).objInc _ List.mem_cons_self⟩
    rw [hexec, if_neg (by simp [hl]), if_neg (by simp [hp]), if_pos (by simp [hm])]
  · obtain ⟨-, -, hl, hp, hm⟩ := hr
    refine ⟨objPut s0 k.left (objGet s0 k.left - 1), ?_, rfl, objGet_objPut_self _ _ _, (SameObjs.refl _ _).objPut _ _ List.mem_cons_self⟩
    rw [hexec, if_neg (by simp [hl]), if_neg (by simp [hp]), if_neg (by simp [hm]), if_pos (by simp [hb])]
  · obtain ⟨-, -, hl, hp, hm⟩ := hr
    have hdic : (k.effect (fuseBurnt s0 r role k.key k.left (leNat v))).dic = (fuseBurnt s0 r role k.key k.left (leNat v)).dic := by
      rw [hk.frame]
    have hobj (x : Nat) : objGet (k.effect (fuseBurnt s0 r role k.key k.left (leNat v))) x
        = objGet (fuseBurnt s0 r role k.key k.left (leNat v)) x := objGet_congr _ _ x hdic
    have hrest := fuseBurnt_frame s0 r role k.key k.left (leNat v)
    have hkey := objGet_fuseBurnt_key s0 r role k.key k.left (leNat v) hk.keyQuiet
    refine ⟨k.effect (fuseBurnt s0 r role k.key k.left (leNat v)), ?_, ?_, (hobj _).trans hkey,
      (hobj _).trans (objGet_fuseBurnt_left _ _ _ _ _ _ hk.leftQuiet hk.apart),
      (sameObjs_fuseBurnt s0 r role k.key k.left (leNat v)).of_dic hdic, ?_, ?_⟩
    · rw [hexec, if_neg (by simp [hl]), if_neg (by simp [hp]), if_neg (by simp [hm]), if_neg (by simp [hb])]
    · rw [hk.frame, hrest]
    · refine hk.measured s0 _ _ ?_ ?_ hkey
      · rw [hrest]
      · rw [hrest]
    · have hlog : Logged s0 (fuseBurnt s0 r role k.key k.left (leNat v)) .objectWritten
          [k.key, roleCode role, routeSession r, routeSource r, objGet s0 k.key, leNat v] false := (logged_journal _ _ _).of_view rfl
      refine hlog.of_obs ?_
      rw [hk.frame]

end

/-! ### The four objects -/

def hashKeyFuse : FuseKind := ⟨Obj.memHashKey, Obj.memHashKeyWritesLeft, keyRule, id⟩

def chipLockFuse : FuseKind := ⟨Obj.chipNumberLock, Obj.chipNumberLockWritesLeft, noRule, id⟩

def thermalRedFuse : FuseKind := ⟨Obj.thermalRedOverride, Obj.thermalRedOverrideWritesLeft, noRule, id⟩

/-- A raised level is the next one, and at most that of the running image (R390). -/
def levelRule (s : State) (n : Nat) : Nat :=
  if n = objGet s Obj.antiRollbackLevel + 1 ∧ n ≤ objGet s Obj.runningSecVersion then 0 else 0x03

/-- A raised level is measured (R390). -/
def levelMeasured (s : State) : State := measEvent s 0x23 (natLe 1 (objGet s Obj.antiRollbackLevel))

def rollbackFuse : FuseKind := ⟨Obj.antiRollbackLevel, Obj.antiRollbackWritesLeft, levelRule, levelMeasured⟩

theorem fuseObject_plain (k : FuseKind) (h1 : k.key ∉ journalObjs) (h2 : k.left ∉ journalObjs) (h3 : k.left ≠ k.key)
    (hid : k.effect = id) (hne : k.key ≠ Obj.antiRollbackLevel) : FuseObject k :=
  ⟨h1, h2, h3, fun u => by rw [hid]; rfl, fun s u n hs _ _ => by rw [hid, if_neg hne]; exact hs⟩

theorem fuseObject_rollback : FuseObject rollbackFuse :=
  ⟨by decide, by decide, by decide, fun _ => rfl, fun s u n hs hq hn => by
    refine Eq.trans ?_ (if_pos rfl).symm
    rw [← hn]
    exact measEvent_sec_congr hq hs _ _⟩

/-- Settles O43: each limited-write object's command is a fuse's write with its own rule and effect. -/
theorem limitedObjectsWrittenAtACost : Obligations.LimitedObjectsWrittenAtACost := by
  unfold Obligations.LimitedObjectsWrittenAtACost
  rintro c key left (⟨rfl, rfl, rfl⟩ | ⟨rfl, rfl, rfl⟩ | ⟨rfl, rfl, rfl⟩ | ⟨rfl, rfl, rfl⟩) r v burnt s role row s0 h
  · have hc : Burns hashKeyFuse .memHashKeyWrite := fun _ _ _ _ => rfl
    refine ⟨fuse_same hc burnt h, fun _ h0 => absurd h0 (by decide), fun hv hz _ => ?_⟩
    exact fuse_written hc burnt h (fuseObject_plain hashKeyFuse (by decide) (by decide) (by decide) rfl (by decide)) hv
      (if_neg (by rw [hz rfl]; decide))
  · have hc : Burns chipLockFuse .chipNumberLockWrite := fun _ _ _ _ => rfl
    exact ⟨fuse_same hc burnt h, fun _ h0 => absurd h0 (by decide), fun hv _ _ => fuse_written hc burnt h
      (fuseObject_plain chipLockFuse (by decide) (by decide) (by decide) rfl (by decide)) hv rfl⟩
  · have hc : Burns thermalRedFuse .thermalRedOverrideWrite := fun _ _ _ _ => rfl
    exact ⟨fuse_same hc burnt h, fun _ h0 => absurd h0 (by decide), fun hv _ _ => fuse_written hc burnt h
      (fuseObject_plain thermalRedFuse (by decide) (by decide) (by decide) rfl (by decide)) hv rfl⟩
  · have hc : Burns rollbackFuse .antiRollbackLevelWrite := fun _ _ _ _ => rfl
    refine ⟨fuse_same hc burnt h, fun hv _ hbad => ?_, fun hv _ hgood => fuse_written hc burnt h fuseObject_rollback hv
      (if_pos (hgood rfl))⟩
    have hown : rollbackFuse.own s0 (leNat v) = 0x03 := if_neg (by
      rintro ⟨h1, h2⟩
      exact hbad.elim (fun hb => hb h1) (fun hb => absurd h2 (by omega)))
    have hex := fuse_refused hc burnt h hv (by rw [hown]; decide)
    rw [hown] at hex
    exact hex

end Sys2Proof.Machine

/-!
The debug token and DebugLock (O46).
-/

namespace Sys2Proof.Machine

/-! ### An image in force -/

theorem sameObjs_applyDom (s : State) (r : Route) (role : Role) (row : ObjRow) (key : Nat) (image : Bytes) :
    SameObjs s (applyDom s r role row key image) journalObjs := by
  have h1 : SameObjs s (if row.access = .wo then s else domPut s key image) journalObjs := by
    split
    · exact SameObjs.refl _ _
    · exact (SameObjs.refl s _).of_dic rfl
  have h2 : SameObjs s (if row.kept then notePersist (if row.access = .wo then s else domPut s key image) key
      else if row.access = .wo then s else domPut s key image) journalObjs := by
    split
    · exact h1.of_dic rfl
    · exact h1
  exact h2.journal _ _ (List.Subset.refl _)

theorem sameObjs_imageIn (s : State) (r : Route) (role : Role) (row : ObjRow) (x : Xfer) :
    SameObjs s (imageIn s r role row x) journalObjs :=
  ((SameObjs.refl s journalObjs).of_dic (u := dropXfer s x.handle) rfl).trans (sameObjs_applyDom _ _ _ _ _ _)

theorem imageIn_keeps {γ : Type} (vw : State → γ) (hg : ∀ s t, vw (foot4_8 s t) = vw s)
    (hm : ∀ s m, vw { s with mgmt := m } = vw s) (s : State) (r : Route) (role : Role) (row : ObjRow) (x : Xfer) :
    vw (imageIn s r role row x) = vw s := (applyDom_keeps vw hg _ _ _ _ _ _).trans (hm _ _)

/-! ### A token (R397) -/

/-- What an accepted token changes. -/
def footUnlock (s t : State) : State := { s with free := t.free, dic := t.dic, sec := t.sec, obs := t.obs }

theorem footUnlock_self (s : State) : footUnlock s s = s := rfl

theorem unlock_frame (s : State) (t : Bytes) : unlock s t = { s with
    free := s.free + 1, dic := (unlock s t).dic, sec := (unlock s t).sec, obs := (unlock s t).obs } := by
  have h := (footUnlock_self (unlock s t)).symm.trans (unlock_keeps (footUnlock · (unlock s t)) (fun _ _ => rfl) s t)
  rw [footUnlock, unlock_free] at h
  exact h

theorem logged_unlock (s : State) (t : Bytes) : Logged s (unlock s t) .debugUnlocked [boolNat (unlock s t).sec.monitorWrite] false := by
  rw [unlock_sec, unlock_eq]
  refine Logged.of_obs ?_ (drawNonce_keeps State.obs (fun _ _ => rfl) _)
  refine (logged_journal _ _ _).of_view ?_
  exact (measEvent_keeps logView (fun _ _ => rfl) _ _ _).trans (updSec_keeps logView (fun _ _ => rfl) _ _)

theorem tokenRefused_frame (s : State) : tokenRefused s = { s with free := s.free + 1, dic := (tokenRefused s).dic } := rfl

theorem tokenRule_ok (s : State) (x : Nat) (t : Bytes) (h : tokenOk s t = true) : tokenRule (dropXfer s x) t = 0 :=
  if_pos ((tokenOk_congr rfl t).trans h)

theorem tokenRule_bad (s : State) (x : Nat) (t : Bytes) (h : tokenOk s t = false) : tokenRule (dropXfer s x) t = 0x08 :=
  if_neg (by rw [tokenOk_congr (s := s) (t := dropXfer s x) rfl t, h]; exact Bool.false_ne_true)

theorem debugToken_holds (r : Route) (handle : Nat) (digest : Bytes) (s : State) (x : Xfer) (role : Role) (row : ObjRow) (s0 : State)
    (h : CommitReady s r false Obj.debugToken handle digest x role row s0) (hx : x.size = 7920) :
    (tokenOk s0 (xferImage x) = true →
      ∃ u, exec (.debugTokenCommit r handle digest) s = .next (answered s r (heldKey s r) ⟨u, 0, []⟩)
        ∧ u = { imageIn s0 r role row x with free := s0.free + 1, dic := u.dic, sec := u.sec, obs := u.obs }
        ∧ u.sec = { (measEvent s0 0x20 (natLe 1 1)).sec with monitorWrite := natBit 16 (leNat ((xferImage x).take 8)) }
        ∧ objGet u Obj.debugUnlocked = 1 ∧ objGet u Obj.debugNonce = (freeNow s0).toNat
        ∧ SameObjs s0 u ([Obj.debugUnlocked, Obj.debugNonce] ++ journalObjs)
        ∧ Logged (imageIn s0 r role row x) u .debugUnlocked [boolNat u.sec.monitorWrite] false)
    ∧ (tokenOk s0 (xferImage x) = false →
      ∃ u, exec (.debugTokenCommit r handle digest) s = .next (answered s r (heldKey s r) ⟨u, 0x08, []⟩)
        ∧ u = { dropXfer s0 x.handle with free := s0.free + 1, dic := u.dic } ∧ Counted s0 u Obj.authFailures 1
        ∧ objGet u Obj.debugNonce = (freeNow s0).toNat ∧ SameObjs s0 u [Obj.authFailures, Obj.debugNonce]) := by
  have hsize : (x.size == 7920) = true := by simp [hx]
  refine ⟨fun hok => ?_, fun hbad => ?_⟩
  · have hexec : exec (.debugTokenCommit r handle digest) s = .next (answered s r (heldKey s r)
        ⟨unlock (imageIn s0 r role row x) (xferImage x), 0, []⟩) :=
      congrArg Host.Outcome.next (commitRow_taken s r false _ handle digest x role row s0 _ _ _ _ h hsize (tokenRule_ok _ _ _ hok))
    have hfree : (imageIn s0 r role row x).free = s0.free := imageIn_keeps State.free (fun _ _ => rfl) (fun _ _ => rfl) _ _ _ _ _
    have hsec : (imageIn s0 r role row x).sec = s0.sec := imageIn_keeps State.sec (fun _ _ => rfl) (fun _ _ => rfl) _ _ _ _ _
    have hseqs : (imageIn s0 r role row x).seqs = s0.seqs := imageIn_keeps State.seqs (fun _ _ => rfl) (fun _ _ => rfl) _ _ _ _ _
    have hobjs := sameObjs_imageIn s0 r role row x
    generalize imageIn s0 r role row x = a at *
    refine ⟨_, hexec, ?_, ?_, objGet_unlock_unlocked _ _, ?_, ?_, logged_unlock _ _⟩
    · rw [← hfree]
      exact unlock_frame a (xferImage x)
    · rw [unlock_sec, measEvent_sec_congr hseqs hsec]
    · rw [objGet_unlock_nonce, freeNow_congr hfree]
    · exact (hobjs.mono (List.subset_append_right _ _)).trans (sameObjs_unlock a (xferImage x))
  · have hexec : exec (.debugTokenCommit r handle digest) s = .next (answered s r (heldKey s r)
        ⟨tokenRefused (dropXfer s0 x.handle), 0x08, []⟩) := by
      have hrule := tokenRule_bad s0 x.handle _ hbad
      refine congrArg Host.Outcome.next ((commitRow_refused s r false _ handle digest x role row s0 _ _ _ _ h hsize ?_).trans ?_)
      · rw [hrule]
        decide
      · rw [hrule]
    obtain ⟨hcount, hnonce, hsame, -⟩ := tokenRefused_objs (dropXfer s0 x.handle)
    exact ⟨_, hexec, tokenRefused_frame _, hcount, hnonce, hsame⟩

/-! ### DebugLock (R398) -/

theorem debugLock_wo (row : ObjRow) (h : objRow Obj.debugLock = some row) : row.access = .wo := by
  have hrow : (objRow Obj.debugLock).map ObjRow.access = some .wo := by decide
  rw [h] at hrow
  exact Option.some.inj hrow

theorem numCheck_row {s : State} {role : Role} {key n : Nat} {v : Bytes} {cls : Option DClass} {row : ObjRow}
    (h : numCheck s role key v cls = .inr (row, n)) : objRow key = some row := by
  unfold numCheck at h
  cases hr : objRow key with
  | none => simp [hr] at h
  | some w =>
    rw [hr] at h
    dsimp only at h
    iterate 4
      split at h
      · cases h
    cases h
    rfl

/-- An object that holds no value changes no object but the journal's when it is written. -/
theorem sameObjs_applyNum_wo (s : State) (r : Route) (role : Role) (row : ObjRow) (key n : Nat) (hw : row.access = .wo) :
    SameObjs s (applyNum s r role row key n) journalObjs := by
  simp only [applyNum, hw, if_true, reduceCtorEq, and_false, if_false]
  split
  · exact (SameObjs.refl s _).journal _ _ (List.Subset.refl _)
  · exact SameObjs.refl s _

theorem debugLock_holds (r : Route) (v : Bytes) (s : State) (role : Role) (row : ObjRow) (s0 : State)
    (h : WriteReady s r false Obj.debugLock v role row s0) :
    (leNat v = 1 →
      ∃ u, exec (.debugLock r v) s = .next (answered s r Obj.debugLock ⟨u, 0, []⟩)
        ∧ u = { applyNum s0 r role row Obj.debugLock 1 with dic := u.dic, sec := { s0.sec with monitorWrite := false } }
        ∧ objGet u Obj.debugUnlocked = 0 ∧ SameObjs s0 u (Obj.debugUnlocked :: journalObjs))
    ∧ (leNat v = 0 → exec (.debugLock r v) s = .next (answered s r Obj.debugLock ⟨applyNum s0 r role row Obj.debugLock 0, 0, []⟩)) := by
  have hwo := debugLock_wo row (numCheck_row h.2)
  have hexec : exec (.debugLock r v) s = .next (answered s r Obj.debugLock ⟨if leNat v = 1 then
      endUnlock (applyNum s0 r role row Obj.debugLock (leNat v)) else applyNum s0 r role row Obj.debugLock (leNat v), 0, []⟩) :=
    congrArg Host.Outcome.next ((writeRow_ready _ _ _ _ _ _ _ _ _ _ h).trans
      (congrArg (answered s r Obj.debugLock) (ownAnswer_taken _ _ _ _ _ _ _ _ rfl)))
  refine ⟨fun hv => ?_, fun hv => ?_⟩
  · rw [hv, if_pos rfl] at hexec
    have hsec : (applyNum s0 r role row Obj.debugLock 1).sec = s0.sec := by rw [applyNum_frame]
    have hobjs := sameObjs_applyNum_wo s0 r role row Obj.debugLock 1 hwo
    generalize applyNum s0 r role row Obj.debugLock 1 = a at *
    refine ⟨endUnlock a, hexec, ?_, ?_, ?_⟩
    · rw [← hsec]
      rfl
    · exact (updSec_keeps (objGet · Obj.debugUnlocked) (fun _ _ => rfl) _ _).trans (objGet_objPut_self _ _ _)
    · exact ((hobjs.mono (List.subset_cons_self _ _)).objPut _ _ List.mem_cons_self).of_dic rfl
  · rw [hv] at hexec
    exact hexec

/-- Settles O46: an accepted token unlocks, a refused one is counted, and DebugLock ends the unlock. -/
theorem debugUnlockedAndLocked : Obligations.DebugUnlockedAndLocked := by
  unfold Obligations.DebugUnlockedAndLocked
  exact ⟨debugToken_holds, debugLock_holds⟩

end Sys2Proof.Machine

/-!
What a link's settling leaves of the Dictionary and of the links (R240 to R248).
-/

namespace Sys2Proof.Machine

/-! ### Cells of the Dictionary -/

/-- The Dictionary's table is the same outside these objects. -/
def SameCells (s t : State) (ks : List Nat) : Prop := ∀ k, k ∉ ks → smGet t.dic k = smGet s.dic k

namespace SameCells

variable {s t u : State} {ks ks' : List Nat}

theorem refl (s : State) (ks : List Nat) : SameCells s s ks := fun _ _ => rfl

theorem trans (h : SameCells s t ks) (h' : SameCells t u ks) : SameCells s u ks := fun k hk => (h' k hk).trans (h k hk)

theorem mono (h : SameCells s t ks) (hs : ks ⊆ ks') : SameCells s t ks' := fun k hk => h k fun hm => hk (hs hm)

theorem of_dic (h : SameCells s t ks) (hd : u.dic = t.dic) : SameCells s u ks := fun k hk => by rw [hd]; exact h k hk

theorem objPut (h : SameCells s t ks) (k v : Nat) (hk : k ∈ ks) : SameCells s (objPut t k v) ks :=
  fun x hx => (smGet_smSet_ne t.dic k x v fun hxk => hx (hxk ▸ hk)).trans (h x hx)

theorem objInc (h : SameCells s t ks) (k : Nat) (hk : k ∈ ks) : SameCells s (objInc t k) ks := h.objPut k _ hk

theorem objAdd (h : SameCells s t ks) (k n : Nat) (hk : k ∈ ks) : SameCells s (objAdd t k n) ks := h.objPut k _ hk

theorem journalPut (h : SameCells s t ks) (e : JEntry) (hks : journalObjs ⊆ ks) : SameCells s (journalPut t e) ks := by
  have h1 : Obj.journalNextSeq ∈ ks := hks (by decide)
  have h2 : Obj.journalDropped ∈ ks := hks (by decide)
  unfold Machine.journalPut
  split
  · exact (h.of_dic rfl).objInc _ h1
  · split
    · split
      · exact h.objInc _ h2
      · exact ((h.of_dic rfl).objInc _ h1).objInc _ h2
    · exact h

theorem journal (h : SameCells s t ks) (e : JEvent) (as : List Nat) (hks : journalObjs ⊆ ks) : SameCells s (journal t e as) ks :=
  h.journalPut _ hks

theorem journalAlert (h : SameCells s t ks) (e : JEvent) (as : List Nat) (hks : alertObjs ⊆ ks) :
    SameCells s (journalAlert t e as) ks :=
  (h.journalPut _ fun _ hx => hks (by simp only [journalObjs, alertObjs, List.mem_cons] at hx ⊢; tauto)).objInc _ (hks (by decide))

theorem foldl {α : Type} (h : SameCells s t ks) (f : State → α → State) (l : List α)
    (hf : ∀ u, ∀ a ∈ l, SameCells u (f u a) ks) : SameCells s (l.foldl f t) ks := by
  induction l generalizing t with
  | nil => exact h
  | cons a l ih => exact ih (h.trans (hf t a List.mem_cons_self)) fun u b hb => hf u b (List.mem_cons_of_mem a hb)

theorem objs (h : SameCells s t ks) : SameObjs s t ks := fun k hk => by
  unfold objGet smGetD
  rw [h k hk]

end SameCells

/-! ### Objects of a link that settles -/

theorem sameCells_noteOld (s : State) (p : Packet) : SameCells s (noteOld s p) [Obj.drainDirty] := by
  unfold noteOld
  split
  · exact (SameCells.refl s _).objPut _ _ (by decide)
  · exact SameCells.refl s _

theorem sameCells_reinject (s : State) (h : Half) (k : Nat) (ps : List (Nat × Packet)) :
    SameCells s (reinject s h k ps) [Obj.drainDirty] := by
  induction ps generalizing s with
  | nil => exact SameCells.refl s _
  | cons a r ih =>
    obtain ⟨t, p⟩ := a
    rw [reinject]
    have h1 : SameCells s (noteResent s p) [Obj.drainDirty] :=
      (SameCells.refl s _).of_dic (noteResent_keeps State.dic (fun _ _ => rfl) s p)
    exact ((h1.trans (sameCells_noteOld _ p)).of_dic (inject_keeps State.dic (fun _ _ => rfl) _ _ _ _ _)).trans (ih _)

/-- The objects of packets handed back (R242). -/
def backObjs : List Nat := [Obj.drainDirty, Obj.resentFlits]

theorem sameCells_handBack (s : State) (k : Nat) (grey : Bool) : SameCells s (handBack s k grey) backObjs := by
  unfold handBack
  exact (((SameCells.refl s backObjs).of_dic (u := updLink s k _) rfl).objAdd _ _ (by decide)).trans
    ((sameCells_reinject _ _ _ _).mono (by decide))

/-- The objects that the settling of link k may change. -/
def settleObjs (k : Nat) : List Nat :=
  [Obj.linkState + k, Obj.linkDarkEvents, Obj.drainDirty, Obj.resentFlits, Obj.retryWindowStalls] ++ journalObjs

theorem backObjs_sub (k : Nat) : backObjs ⊆ settleObjs k := by simp [backObjs, settleObjs]

theorem journalObjs_sub_settle (k : Nat) : journalObjs ⊆ settleObjs k := List.subset_append_right _ _

theorem mem_settleObjs {k x : Nat} (h : x ∈ [Obj.linkState + k, Obj.linkDarkEvents, Obj.retryWindowStalls]) : x ∈ settleObjs k := by
  simp only [List.mem_cons, List.not_mem_nil, or_false] at h
  simp only [settleObjs, List.mem_append, List.mem_cons, List.not_mem_nil, or_false]
  tauto

theorem sameCells_goDark (s : State) (k cause : Nat) : SameCells s (goDark s k cause) (settleObjs k) := by
  unfold goDark
  have h1 := (((sameCells_handBack s k false).mono (backObjs_sub k)).objPut (Obj.linkState + k) 3 (mem_settleObjs (by simp))).objInc
    Obj.linkDarkEvents (mem_settleObjs (by simp))
  exact (h1.of_dic (u := updLink _ k _) rfl).journal _ _ (journalObjs_sub_settle k)

theorem sameCells_goGrey (s : State) (k : Nat) : SameCells s (goGrey s k) (settleObjs k) := by
  unfold goGrey
  exact (((sameCells_handBack s k true).mono (backObjs_sub k)).objPut (Obj.linkState + k) 2 (mem_settleObjs (by simp))).journal _ _
    (journalObjs_sub_settle k)

theorem sameCells_sendCtl (s : State) (k : Nat) (c : Ctl) : SameCells s (sendCtl s k c) [Obj.retryWindowStalls] := by
  simp only [sendCtl]
  split
  · exact SameCells.refl _ _
  · split
    · exact (SameCells.refl s _).of_dic rfl
    · exact ((SameCells.refl s _).of_dic (u := updLink s k _) rfl).objInc _ (by decide)

theorem sameCells_tellCause (s : State) (k : Nat) : SameCells s (tellCause s k) [Obj.retryWindowStalls] := by
  simp only [tellCause]
  split
  · exact SameCells.refl _ _
  · exact ((SameCells.refl s _).of_dic (u := updLink s k _) rfl).trans (sameCells_sendCtl _ _ _)

theorem sameCells_settleLink (s : State) (k : Nat) : SameCells s (settleLink s k) (settleObjs k) := by
  have hput (v : Nat) : SameCells s (objPut s (Obj.linkState + k) v) (settleObjs k) :=
    (SameCells.refl s _).objPut _ _ (mem_settleObjs (by simp))
  unfold settleLink
  dsimp only
  split
  · exact hput 4
  · split
    · exact (hput 3).of_dic rfl
    · split
      · exact (hput 3).of_dic rfl
      · split
        · exact (sameCells_goDark s k 1).of_dic rfl
        · refine SameCells.of_dic (SameCells.trans ?_ ((sameCells_tellCause _ _).mono (fun x hx => mem_settleObjs (by simp_all)))) rfl
          split
          · exact sameCells_goGrey s k
          · exact hput _

theorem sameCells_setCause (s : State) (k cause : Nat) (on : Bool) : SameCells s (setCause s k cause on) (settleObjs k) := by
  unfold setCause
  dsimp only
  split
  · exact SameCells.refl _ _
  · exact ((SameCells.refl s _).of_dic (u := updLink s k _) rfl).trans (sameCells_settleLink _ _)

/-- The objects of the links' states and events (R241 to R248). -/
def mapObjs : List Nat :=
  [Obj.linkDarkEvents, Obj.drainDirty, Obj.resentFlits, Obj.retryWindowStalls] ++ alertObjs ++ (List.range 64).map (Obj.linkState + ·)

theorem settleObjs_sub_map {k : Nat} (hk : k < 64) : settleObjs k ⊆ mapObjs := by
  intro x hx
  have hm : Obj.linkState + k ∈ (List.range 64).map (Obj.linkState + ·) := List.mem_map.mpr ⟨k, List.mem_range.mpr hk, rfl⟩
  simp only [settleObjs, mapObjs, journalObjs, alertObjs, List.mem_append, List.mem_cons, List.not_mem_nil, or_false] at hx ⊢
  obtain (rfl | h) | h := hx
  · exact .inr hm
  · tauto
  · tauto

theorem sameCells_checkMap (s : State) : SameCells s (checkMap s) mapObjs := by
  refine (SameCells.refl s _).foldl _ _ (fun u k hk => ?_)
  split
  · exact (sameCells_setCause u k 1 _).mono (settleObjs_sub_map (List.mem_range.mp hk))
  · exact SameCells.refl _ _

theorem sameCells_journalMismatches (s : State) (l : List Nat) : SameCells s (journalMismatches s l) alertObjs :=
  (SameCells.refl s _).foldl _ _ (fun u _ _ => (SameCells.refl u _).journalAlert _ _ (List.Subset.refl _))

theorem sameCells_applyIntended (s : State) : SameCells s (applyIntended s) mapObjs :=
  ((sameCells_journalMismatches s _).mono (fun _ hx => List.mem_append_left _ (List.mem_append_right _ hx))).trans
    (sameCells_checkMap _)

theorem sameCells_settleAll (s : State) : SameCells s ((List.range 64).foldl settleLink s) mapObjs :=
  (SameCells.refl s _).foldl _ _ (fun u k hk => (sameCells_settleLink u k).mono (settleObjs_sub_map (List.mem_range.mp hk)))

end Sys2Proof.Machine

/-!
The lifecycle and the root keys (O44).
-/

namespace Sys2Proof.Machine

/-! ### A change of the lifecycle (R395, Table SEC-5) -/

theorem writeLifecycle_asked (r : Route) (v : Bytes) (burnt : Bool) (s : State) (role : Role) (row : ObjRow) (s0 : State)
    (ha : Asked s r false 0x02 Obj.lifecycleState v role s0)
    (hc : numCheck s0 role Obj.lifecycleState v (some (lifeClass (objGet s0 Obj.lifecycleState) (leNat v))) = .inr (row, leNat v)) :
    exec (.lifecycleStateWrite r v burnt) s = .next (runAsked (answered s r Obj.lifecycleState
      (if leNat v ≠ objGet s0 Obj.lifecycleState ∧ !lifeStep (objGet s0 Obj.lifecycleState) (leNat v) then ⟨s0, 0x03, []⟩
       else fuseWrite s0 r role Obj.lifecycleState Obj.lifecycleWritesLeft (leNat v)
        (objGet s0 Obj.lifecycleWritesLeft == 1 && leNat v != 4) burnt (lifeEffect (objGet s0 Obj.lifecycleState))))) := by
  refine congrArg Host.Outcome.next (congrArg runAsked ?_)
  rw [Laws.ask_asked _ _ _ _ _ _ _ _ _ ha]
  dsimp only
  rw [hc]

/-- A step of the lifecycle's table, before its effect. -/
theorem lifeWrite_step (s0 : State) (r : Route) (role : Role) (burnt : Bool) (old n : Nat) (h : old = objGet s0 Obj.lifecycleState)
    (hn : n ≠ old) (hst : lifeStep old n = true) :
    (if n ≠ objGet s0 Obj.lifecycleState ∧ !lifeStep (objGet s0 Obj.lifecycleState) n then (⟨s0, 0x03, []⟩ : Answer)
       else fuseWrite s0 r role Obj.lifecycleState Obj.lifecycleWritesLeft n
        (objGet s0 Obj.lifecycleWritesLeft == 1 && n != 4) burnt (lifeEffect (objGet s0 Obj.lifecycleState)))
    = if objGet s0 Obj.lifecycleWritesLeft = 0 ∨ (objGet s0 Obj.lifecycleWritesLeft == 1 && n != 4) = true then ⟨s0, 0x06, []⟩
      else if s0.power.pale then ⟨s0, 0x07, []⟩
      else if !mayCommit s0 then ⟨objInc s0 Obj.commitDeferrals, 0x07, []⟩
      else if !burnt then ⟨objPut s0 Obj.lifecycleWritesLeft (objGet s0 Obj.lifecycleWritesLeft - 1),
        if objGet s0 Obj.lifecycleWritesLeft = 1 then 0x06 else 0x07, []⟩
      else ⟨lifeEffect old (fuseBurnt s0 r role Obj.lifecycleState Obj.lifecycleWritesLeft n), 0, []⟩ := by
  subst h
  rw [if_neg (by simp [hst]), fuseWrite_new _ _ _ _ _ _ _ _ _ hn]

/-! ### Its effect -/

/-- The change measured. -/
def lifeMeasured (s : State) : State := measEvent s 0x21 (natLe 1 (objGet s Obj.lifecycleState))

theorem lifeMeasured_objs (s : State) (k : Nat) : objGet (lifeMeasured s) k = objGet s k :=
  measEvent_keeps (objGet · k) (fun _ _ => rfl) _ _ _

/-- The debug unlock ends where Production does not allow it (R398). -/
def productionEntered (s : State) : State :=
  if objGet s Obj.debugAllowProduction = 0 then
    updSec (objPut s Obj.debugUnlocked 0) (fun x => { x with monitorWrite := false }) else s

theorem lifeEffect_provisioned (old : Nat) (s : State) (h : objGet s Obj.lifecycleState = 1) :
    lifeEffect old s = updSec (lifeMeasured s) (fun x => { x with identity := true, seedBurnt := true }) := by
  unfold lifeEffect
  extract_lets new u
  exact if_pos (show new = 1 from h)

theorem lifeEffect_production (old : Nat) (s : State) (h : objGet s Obj.lifecycleState = 2) :
    lifeEffect old s = productionEntered (lifeMeasured s) := by
  unfold lifeEffect
  extract_lets new u
  have hn : new = 2 := h
  rw [if_neg (by rw [hn]; decide), if_pos hn]
  rfl

/-- No session is open. -/
def sessionsEnded (s : State) : State := { s with mgmt := { s.mgmt with sessions := [] } }

theorem sessionsEnded_keeps {γ : Type} (vw : State → γ) (hg : ∀ s m, vw { s with mgmt := m } = vw s) (s : State) :
    vw (sessionsEnded s) = vw s := hg s _

theorem sessionsEnded_sessions (s : State) : (sessionsEnded s).mgmt.sessions = [] := rfl

theorem lifeEffect_returned (s : State) (h : objGet s Obj.lifecycleState = 3) :
    lifeEffect 2 s = sessionsEnded (toDefaults (lifeMeasured s)) := by
  unfold lifeEffect
  extract_lets new u w m
  have hn : new = 3 := h
  have hw : w = toDefaults (lifeMeasured s) := congrArg toDefaults (rfl : u = lifeMeasured s)
  rw [if_neg (by rw [hn]; decide), if_neg (by rw [hn]; decide), if_pos ⟨hn, rfl⟩, ← hw]
  clear_value w
  rfl

theorem lifeEffect_scrapped (old : Nat) (s : State) (h : objGet s Obj.lifecycleState = 4) :
    lifeEffect old s = askRestart (updSec (lifeMeasured s) (fun x => { x with identity := false })) 4 := by
  unfold lifeEffect
  extract_lets new u
  have hn : new = 4 := h
  rw [if_neg (by rw [hn]; decide), if_neg (by rw [hn]; decide), if_neg (by rw [hn]; exact fun h => absurd h.1 (by decide)), if_pos hn]
  rfl

/-! ### Objects returned to their defaults -/

theorem smGet_filter {α : Type} (m : SMap α) (p : Nat → Bool) (k : Nat) :
    smGet (m.filter (fun e => p e.1)) k = if p k then smGet m k else none := by
  induction m with
  | nil => simp [smGet]
  | cons e m ih =>
    obtain ⟨j, v⟩ := e
    rw [List.filter_cons]
    by_cases hk : k = j
    · subst hk
      cases hp : p k <;> simp_all [smGet]
    · cases hp : p j <;> simp_all [smGet]

theorem foldl_notePersist_keeps {γ : Type} (vw : State → γ) (hg : ∀ s p, vw { s with persist := p } = vw s) (l : List Nat) (s : State) :
    vw (l.foldl notePersist s) = vw s := by
  induction l generalizing s with
  | nil => rfl
  | cons k l ih => exact (ih _).trans (hg s _)

/-- The tables without the objects that return to their defaults. -/
def defaulted (s : State) : State :=
  { s with dic := s.dic.filter (fun e => !returnsToDefault e.1), doms := s.doms.filter (fun e => !returnsToDefault e.1) }

theorem toDefaults_eq (s : State) : toDefaults s = (List.range 64).foldl settleLink (applyIntended
    (((smKeys s.dic ++ smKeys s.doms).filter returnsToDefault).foldl notePersist (defaulted s))) := rfl

theorem toDefaults_doms (s : State) : (toDefaults s).doms = (defaulted s).doms := by
  rw [toDefaults_eq]
  have h1 (l : List Nat) (u : State) : (l.foldl settleLink u).doms = u.doms :=
    foldlState State.doms _ (fun u k => settleLink_keeps State.doms (fun _ _ => rfl) u k) l u
  rw [h1, applyIntended_keeps State.doms (fun _ _ => rfl), foldl_notePersist_keeps State.doms (fun _ _ => rfl)]

theorem toDefaults_cells (s : State) : SameCells (defaulted s) (toDefaults s) mapObjs := by
  rw [toDefaults_eq]
  have h1 : SameCells (defaulted s)
      (((smKeys s.dic ++ smKeys s.doms).filter returnsToDefault).foldl notePersist (defaulted s)) mapObjs :=
    (SameCells.refl _ _).of_dic (foldl_notePersist_keeps State.dic (fun _ _ => rfl) _ _)
  exact (h1.trans (sameCells_applyIntended _)).trans (sameCells_settleAll _)

theorem mapObjs_stay (k : Nat) (h : returnsToDefault k = true) : k ∉ mapObjs := by
  have hall : mapObjs.all (fun k => !returnsToDefault k) = true := by decide
  intro hk
  have := List.all_eq_true.mp hall k hk
  simp [h] at this

theorem toDefaults_empty (s : State) (k : Nat) (h : returnsToDefault k = true) :
    smGet (toDefaults s).dic k = none ∧ smGet (toDefaults s).doms k = none := by
  constructor
  · refine (toDefaults_cells s k (mapObjs_stay k h)).trans ((smGet_filter _ (fun k => !returnsToDefault k) _).trans (if_neg ?_))
    simp [h]
  · rw [toDefaults_doms]
    refine (smGet_filter _ (fun k => !returnsToDefault k) _).trans (if_neg ?_)
    simp [h]

theorem toDefaults_kept (s : State) (k : Nat) (hr : returnsToDefault k = false) (hk : k ∉ mapObjs) :
    objGet (toDefaults s) k = objGet s k := by
  unfold objGet smGetD
  rw [toDefaults_cells s k hk]
  refine congrArg (Option.getD · _) ((smGet_filter _ (fun k => !returnsToDefault k) _).trans (if_pos ?_))
  simp [hr]

/-! ### A change of the lifecycle, outcome by outcome -/

theorem lifeStep_cases {old n : Nat} (h : lifeStep old n = true) : n = 1 ∨ n = 2 ∨ (n = 3 ∧ old = 2) ∨ n = 4 := by
  simp [lifeStep] at h
  omega

theorem productionEntered_objs (s : State) (k : Nat) (h : k ≠ Obj.debugUnlocked) : objGet (productionEntered s) k = objGet s k := by
  unfold productionEntered
  split
  · exact (updSec_keeps (objGet · k) (fun _ _ => rfl) _ _).trans (objGet_objPut_ne _ _ _ _ h)
  · rfl

/-- A change of the lifecycle keeps the objects that it does not return to their defaults. -/
theorem lifeEffect_objs {old n : Nat} {s : State} (hn : objGet s Obj.lifecycleState = n) (hst : lifeStep old n = true) (k : Nat)
    (hd : k ≠ Obj.debugUnlocked) (hr : returnsToDefault k = false) (hm : k ∉ mapObjs) : objGet (lifeEffect old s) k = objGet s k := by
  have h0 := lifeMeasured_objs s k
  rcases lifeStep_cases hst with rfl | rfl | ⟨rfl, rfl⟩ | rfl
  · rw [lifeEffect_provisioned old s hn]
    exact (updSec_keeps (objGet · k) (fun _ _ => rfl) _ _).trans h0
  · rw [lifeEffect_production old s hn]
    exact (productionEntered_objs _ k hd).trans h0
  · rw [lifeEffect_returned s hn]
    exact (sessionsEnded_keeps (objGet · k) (fun _ _ => rfl) _).trans ((toDefaults_kept _ k hr hm).trans h0)
  · rw [lifeEffect_scrapped old s hn]
    exact h0

/-- What of the security state a change of the lifecycle measures. -/
def measured (s : State) : List Bytes × List MeasEntry := (s.sec.meas, s.sec.log)

theorem measured_updSec (s : State) (f : Sec → Sec) (h : ∀ x, (f x).meas = x.meas ∧ (f x).log = x.log) :
    measured (updSec s f) = measured s := Prod.ext (h s.sec).1 (h s.sec).2

theorem lifeEffect_measured {old n : Nat} {s : State} (hn : objGet s Obj.lifecycleState = n) (hst : lifeStep old n = true) :
    measured (lifeEffect old s) = measured (lifeMeasured s) := by
  rcases lifeStep_cases hst with rfl | rfl | ⟨rfl, rfl⟩ | rfl
  · rw [lifeEffect_provisioned old s hn]
    exact measured_updSec _ _ (fun _ => ⟨rfl, rfl⟩)
  · rw [lifeEffect_production old s hn]
    unfold productionEntered
    split
    · exact measured_updSec _ _ (fun _ => ⟨rfl, rfl⟩)
    · rfl
  · rw [lifeEffect_returned s hn]
    exact (sessionsEnded_keeps measured (fun _ _ => rfl) _).trans (toDefaults_keeps measured (fun _ _ => rfl) _)
  · rw [lifeEffect_scrapped old s hn]
    exact measured_updSec (lifeMeasured s) _ (fun _ => ⟨rfl, rfl⟩)

theorem lifeMeasured_frame (s : State) : lifeMeasured s = { s with sec := (lifeMeasured s).sec } := rfl

section
variable {s0 w : State} {r : Route} {role : Role} {n : Nat}

/-- The state that a fuse of the lifecycle leaves before its effect. -/
theorem lifeBurnt_frame (hw : w = fuseBurnt s0 r role Obj.lifecycleState Obj.lifecycleWritesLeft n) :
    w = { s0 with dic := w.dic, obs := w.obs } := by
  rw [hw]
  exact fuseBurnt_frame _ _ _ _ _ _

theorem lifeBurnt_provisioned (old : Nat) (hf : w = { s0 with dic := w.dic, obs := w.obs })
    (hn : objGet w Obj.lifecycleState = 1) : ∀ u, u = lifeEffect old w →
      u = { s0 with dic := u.dic, sec := u.sec, obs := u.obs } ∧ u.sec.identity = true ∧ u.sec.seedBurnt = true := by
  rintro u rfl
  rw [lifeEffect_provisioned old w hn]
  refine ⟨?_, rfl, rfl⟩
  rw [lifeMeasured_frame w, hf]
  rfl

theorem lifeBurnt_production (old : Nat) (hf : w = { s0 with dic := w.dic, obs := w.obs })
    (hs : SameObjs s0 w (Obj.lifecycleState :: Obj.lifecycleWritesLeft :: journalObjs))
    (hn : objGet w Obj.lifecycleState = 2) : ∀ u, u = lifeEffect old w →
      u = { s0 with dic := u.dic, sec := u.sec, obs := u.obs }
      ∧ (objGet s0 Obj.debugAllowProduction = 0 → objGet u Obj.debugUnlocked = 0 ∧ u.sec.monitorWrite = false)
      ∧ SameObjs s0 u ([Obj.lifecycleState, Obj.lifecycleWritesLeft, Obj.debugUnlocked] ++ journalObjs) := by
  rintro u rfl
  rw [lifeEffect_production old w hn]
  have hallow : objGet (lifeMeasured w) Obj.debugAllowProduction = objGet s0 Obj.debugAllowProduction :=
    (lifeMeasured_objs w _).trans (hs _ (by decide))
  have hs' : SameObjs s0 (lifeMeasured w) ([Obj.lifecycleState, Obj.lifecycleWritesLeft, Obj.debugUnlocked] ++ journalObjs) :=
    (hs.mono (by decide)).of_dic rfl
  have hf' : lifeMeasured w = { s0 with dic := (lifeMeasured w).dic, sec := (lifeMeasured w).sec, obs := (lifeMeasured w).obs } := by
    rw [lifeMeasured_frame w, hf]
  generalize lifeMeasured w = m at *
  unfold productionEntered
  rw [hallow]
  split
  next h0 =>
    refine ⟨?_, fun _ => ⟨?_, rfl⟩, (hs'.objPut _ _ (by decide)).of_dic rfl⟩
    · rw [hf']
      rfl
    · exact (updSec_keeps (objGet · Obj.debugUnlocked) (fun _ _ => rfl) _ _).trans (objGet_objPut_self _ _ _)
  next h0 => exact ⟨hf', fun h => absurd h h0, hs'⟩

theorem lifeBurnt_scrapped (old : Nat) (hf : w = { s0 with dic := w.dic, obs := w.obs })
    (hn : objGet w Obj.lifecycleState = 4) : ∀ u, u = lifeEffect old w →
      u = { s0 with dic := u.dic, seqs := { s0.seqs with asked := 4 }, sec := u.sec, obs := u.obs } ∧ u.sec.identity = false := by
  rintro u rfl
  rw [lifeEffect_scrapped old w hn]
  refine ⟨?_, rfl⟩
  rw [lifeMeasured_frame w, hf]
  rfl

theorem lifeBurnt_returned (hn : objGet w Obj.lifecycleState = 3) : ∀ u, u = lifeEffect 2 w →
      u.mgmt.sessions = [] ∧ ∀ k, returnsToDefault k = true → smGet u.dic k = none ∧ smGet u.doms k = none := by
  rintro u rfl
  rw [lifeEffect_returned w hn]
  have h := toDefaults_empty (lifeMeasured w)
  generalize toDefaults (lifeMeasured w) = m at *
  exact ⟨rfl, h⟩

end

theorem runAsked_none (s : State) (h : s.seqs.asked = 0) : runAsked s = s := by
  unfold runAsked
  rw [h]
  show updSeqs s _ = s
  have : { s.seqs with asked := 0 } = s.seqs := by rw [← h]
  exact congrArg (fun q => { s with seqs := q }) this

theorem runAsked_cold (s : State) (h : s.seqs.asked = 4) (hp : s.power.pale = false) :
    runAsked s = coldStart { s with seqs := { s.seqs with asked := 0 } } 4 := by
  unfold runAsked
  rw [h]
  exact if_neg (by simp [updSeqs, hp])

theorem lifecycleStateWrite_holds (r : Route) (v : Bytes) (burnt : Bool) (s : State) (role : Role) (row : ObjRow) (s0 u : State)
    (old n : Nat) (hold : old = objGet s0 Obj.lifecycleState) (hnv : n = leNat v)
    (ha : Asked s r false 0x02 Obj.lifecycleState v role s0)
    (hc : numCheck s0 role Obj.lifecycleState v (some (lifeClass old n)) = .inr (row, n)) :
    (n = old → exec (.lifecycleStateWrite r v burnt) s = .next (runAsked (answered s r Obj.lifecycleState ⟨s0, 0, []⟩)))
    ∧ (n ≠ old → lifeStep old n = false →
      exec (.lifecycleStateWrite r v burnt) s = .next (runAsked (answered s r Obj.lifecycleState ⟨s0, 0x03, []⟩)))
    ∧ (n ≠ old → lifeStep old n = true →
      objGet s0 Obj.lifecycleWritesLeft = 0 ∨ (objGet s0 Obj.lifecycleWritesLeft = 1 ∧ n ≠ 4) →
      exec (.lifecycleStateWrite r v burnt) s = .next (runAsked (answered s r Obj.lifecycleState ⟨s0, 0x06, []⟩)))
    ∧ (n ≠ old → lifeStep old n = true → objGet s0 Obj.lifecycleWritesLeft ≠ 0 → (objGet s0 Obj.lifecycleWritesLeft = 1 → n = 4) →
      s0.power.pale = true →
      exec (.lifecycleStateWrite r v burnt) s = .next (runAsked (answered s r Obj.lifecycleState ⟨s0, 0x07, []⟩)))
    ∧ (n ≠ old → lifeStep old n = true → objGet s0 Obj.lifecycleWritesLeft ≠ 0 → (objGet s0 Obj.lifecycleWritesLeft = 1 → n = 4) →
      s0.power.pale = false → mayCommit s0 = false →
      exec (.lifecycleStateWrite r v burnt) s
        = .next (runAsked (answered s r Obj.lifecycleState ⟨objInc s0 Obj.commitDeferrals, 0x07, []⟩)))
    ∧ (n ≠ old → lifeStep old n = true → objGet s0 Obj.lifecycleWritesLeft ≠ 0 → (objGet s0 Obj.lifecycleWritesLeft = 1 → n = 4) →
      s0.power.pale = false → mayCommit s0 = true → burnt = false →
      exec (.lifecycleStateWrite r v burnt) s = .next (runAsked (answered s r Obj.lifecycleState
        ⟨objPut s0 Obj.lifecycleWritesLeft (objGet s0 Obj.lifecycleWritesLeft - 1),
         if objGet s0 Obj.lifecycleWritesLeft = 1 then 0x06 else 0x07, []⟩)))
    ∧ (n ≠ old → lifeStep old n = true → objGet s0 Obj.lifecycleWritesLeft ≠ 0 → (objGet s0 Obj.lifecycleWritesLeft = 1 → n = 4) →
      s0.power.pale = false → mayCommit s0 = true → burnt = true →
      u = lifeEffect old (journalWrite (objPut (objPut s0 Obj.lifecycleWritesLeft (objGet s0 Obj.lifecycleWritesLeft - 1))
        Obj.lifecycleState n) r role Obj.lifecycleState old n) →
      exec (.lifecycleStateWrite r v burnt) s = .next (runAsked (answered s r Obj.lifecycleState ⟨u, 0, []⟩)) ∧ objGet u Obj.lifecycleState = n
        ∧ objGet u Obj.lifecycleWritesLeft = objGet s0 Obj.lifecycleWritesLeft - 1
        ∧ u.sec.meas = (measEvent s0 0x21 (natLe 1 n)).sec.meas ∧ u.sec.log = (measEvent s0 0x21 (natLe 1 n)).sec.log
        ∧ (n = 1 → u = { s0 with dic := u.dic, sec := u.sec, obs := u.obs } ∧ u.sec.identity = true ∧ u.sec.seedBurnt = true)
        ∧ (n = 2 → u = { s0 with dic := u.dic, sec := u.sec, obs := u.obs }
          ∧ (objGet s0 Obj.debugAllowProduction = 0 → objGet u Obj.debugUnlocked = 0 ∧ u.sec.monitorWrite = false)
          ∧ SameObjs s0 u ([Obj.lifecycleState, Obj.lifecycleWritesLeft, Obj.debugUnlocked] ++ journalObjs))
        ∧ (n = 3 → u.mgmt.sessions = []
          ∧ ∀ k, returnsToDefault k = true → smGet u.dic k = none ∧ smGet u.doms k = none)
        ∧ (n = 4 → u = { s0 with dic := u.dic, seqs := { s0.seqs with asked := 4 }, sec := u.sec, obs := u.obs }
          ∧ u.sec.identity = false)) := by
  have hexec := writeLifecycle_asked r v burnt s role row s0 ha (by rw [← hold, ← hnv]; exact hc)
  rw [← hnv] at hexec
  refine ⟨fun h => ?_, fun hn hst => ?_, fun hn hst hl => ?_, fun hn hst hl h1 hp => ?_, fun hn hst hl h1 hp hm => ?_,
    fun hn hst hl h1 hp hm hb => ?_, fun hn hst hl h1 hp hm hb hu => ?_⟩
  · rw [hexec, if_neg (fun hne => hne.1 (h.trans hold)), fuseWrite_same _ _ _ _ _ _ _ _ _ (h.trans hold)]
  · rw [hexec, if_pos (by rw [← hold, hst]; exact ⟨hn, rfl⟩)]
  all_goals rw [lifeWrite_step s0 r role burnt old n hold hn hst] at hexec
  · rw [hexec, if_pos (hl.imp_right fun h => by simp [h])]
  all_goals
    have hleft : ¬ (objGet s0 Obj.lifecycleWritesLeft = 0 ∨ (objGet s0 Obj.lifecycleWritesLeft == 1 && n != 4) = true) := by
      simpa [hl] using h1
  · rw [hexec, if_neg hleft, if_pos hp]
  · rw [hexec, if_neg hleft, if_neg (by simp [hp]), if_pos (by simp [hm])]
  · rw [hexec, if_neg hleft, if_neg (by simp [hp]), if_neg (by simp [hm]), if_pos (by simp [hb])]
  · rw [if_neg hleft, if_neg (by simp [hp]), if_neg (by simp [hm]), if_neg (by simp [hb])] at hexec
    replace hu : u = lifeEffect old (fuseBurnt s0 r role Obj.lifecycleState Obj.lifecycleWritesLeft n) := by
      rw [hu, fuseBurnt, ← hold]
    rw [← hu] at hexec
    have hf := fuseBurnt_frame s0 r role Obj.lifecycleState Obj.lifecycleWritesLeft n
    have hkey := objGet_fuseBurnt_key s0 r role Obj.lifecycleState Obj.lifecycleWritesLeft n (by decide)
    have hrest := objGet_fuseBurnt_left s0 r role Obj.lifecycleState Obj.lifecycleWritesLeft n (by decide) (by decide)
    have hsame := sameObjs_fuseBurnt s0 r role Obj.lifecycleState Obj.lifecycleWritesLeft n
    generalize fuseBurnt s0 r role Obj.lifecycleState Obj.lifecycleWritesLeft n = w at *
    have hmeas := lifeEffect_measured hkey hst
    rw [← hu, lifeMeasured, hkey, hf] at hmeas
    obtain ⟨hmeas1, hmeas2⟩ := Prod.mk.inj hmeas
    refine ⟨hexec, ?_, ?_, hmeas1, hmeas2, fun h => ?_, fun h => ?_, fun h => ?_, fun h => ?_⟩
    · rw [hu, lifeEffect_objs hkey hst _ (by decide) (by decide) (by decide), hkey]
    · rw [hu, lifeEffect_objs hkey hst _ (by decide) (by decide) (by decide), hrest]
    · exact lifeBurnt_provisioned old hf (hkey.trans h) u hu
    · exact lifeBurnt_production old hf hsame (hkey.trans h) u hu
    · have h2 : old = 2 := by
        rcases lifeStep_cases hst with h' | h' | ⟨-, h'⟩ | h' <;> omega
      rw [h2] at hu
      exact lifeBurnt_returned (hkey.trans h) u hu
    · exact lifeBurnt_scrapped old hf (hkey.trans h) u hu

/-! ### A root key revoked (R391) -/

theorem writeRevoke_ready (r : Route) (v : Bytes) (burnt : Bool) (s : State) (role : Role) (row : ObjRow) (s0 : State)
    (h : WriteReady s r false Obj.revokeRootKey v role row s0) :
    exec (.revokeRootKey r v burnt) s = .next (answered s r Obj.revokeRootKey
      (if natBit (leNat v) (objGet s0 Obj.rootKeyRevoked) then ⟨s0, 0, []⟩
      else if !mayRevoke s0 (leNat v) then ⟨s0, 0x08, []⟩
      else if s0.power.pale then ⟨s0, 0x07, []⟩
      else if !mayCommit s0 then ⟨objInc s0 Obj.commitDeferrals, 0x07, []⟩
      else ⟨closeRevoked (measEvent (objBit (applyNum s0 r role row Obj.revokeRootKey (leNat v)) Obj.rootKeyRevoked (leNat v) true) 0x22
        (natLe 1 (objGet (objBit (applyNum s0 r role row Obj.revokeRootKey (leNat v)) Obj.rootKeyRevoked (leNat v) true)
          Obj.rootKeyRevoked))), 0, []⟩)) := by
  refine congrArg Host.Outcome.next ?_
  unfold writeRevoke
  rw [Laws.ask_asked _ _ _ _ _ _ _ _ _ h.1]
  dsimp only
  rw [h.2]

theorem revokeRootKey_wo (row : ObjRow) (h : objRow Obj.revokeRootKey = some row) : row.access = .wo := by
  have hrow : (objRow Obj.revokeRootKey).map ObjRow.access = some .wo := by decide
  rw [h] at hrow
  exact Option.some.inj hrow

/-- A written object that holds no value changes only the journal. -/
theorem applyNum_wo_frame (s : State) (r : Route) (role : Role) (row : ObjRow) (key n : Nat) (hw : row.access = .wo) :
    applyNum s r role row key n = { s with dic := (applyNum s r role row key n).dic, obs := (applyNum s r role row key n).obs } := by
  simp only [applyNum, hw, if_true, reduceCtorEq, and_false, if_false]
  split
  · exact (footDicObs_self _).symm.trans (journal_keeps (footDicObs · (journal s .objectWritten
      [key, roleCode role, routeSession r, routeSource r, objGet s key, n])) (fun _ _ => rfl) _ _ _)
  · rfl

/-- The slot revoked and measured. -/
def slotRevoked (a : State) (n : Nat) : State :=
  measEvent (objBit a Obj.rootKeyRevoked n true) 0x22 (natLe 1 (objGet (objBit a Obj.rootKeyRevoked n true) Obj.rootKeyRevoked))

theorem closeRevoked_frame (s : State) : closeRevoked s = { s with mgmt := { s.mgmt with sessions := (closeRevoked s).mgmt.sessions } } := rfl

theorem mem_closeRevoked (s : State) (x : Session) : x ∈ (closeRevoked s).mgmt.sessions ↔
    x ∈ s.mgmt.sessions ∧ ¬ (x.role = 2 ∧ x.opened = true ∧ keyAccepted (closeRevoked s) 2 x.key = false) := by
  have hk : keyAccepted (closeRevoked s) 2 x.key = keyAccepted s 2 x.key := rfl
  rw [hk]
  unfold closeRevoked updMgmt
  simp only [List.mem_filter, Bool.not_eq_eq_eq_not, Bool.not_true, Bool.and_eq_false_imp, Bool.and_eq_true, beq_iff_eq, not_and,
    Bool.not_eq_false, and_imp, Bool.not_false]

theorem revokeRootKey_burnt (s0 a : State) (n : Nat) (hf : a = { s0 with dic := a.dic, obs := a.obs })
    (hs : SameObjs s0 a journalObjs) : ∀ u, u = closeRevoked (slotRevoked a n) →
      u = { s0 with dic := u.dic, mgmt := { s0.mgmt with sessions := u.mgmt.sessions }, sec := u.sec, obs := u.obs }
        ∧ objGet u Obj.rootKeyRevoked = setNatBit n (objGet s0 Obj.rootKeyRevoked)
        ∧ SameObjs s0 u (Obj.rootKeyRevoked :: journalObjs)
        ∧ u.sec = (measEvent s0 0x22 (natLe 1 (setNatBit n (objGet s0 Obj.rootKeyRevoked)))).sec
        ∧ ∀ x, x ∈ u.mgmt.sessions ↔
            x ∈ s0.mgmt.sessions ∧ ¬ (x.role = 2 ∧ x.opened = true ∧ keyAccepted u 2 x.key = false) := by
  rintro u rfl
  have hbit : objGet (objBit a Obj.rootKeyRevoked n true) Obj.rootKeyRevoked = setNatBit n (objGet s0 Obj.rootKeyRevoked) := by
    rw [objBit, objGet_objPut_self, if_pos rfl, hs _ (by decide)]
  have hobj (k : Nat) : objGet (closeRevoked (slotRevoked a n)) k = objGet (objBit a Obj.rootKeyRevoked n true) k := rfl
  have hsec : a.sec = s0.sec := by rw [hf]
  have hseqs : a.seqs = s0.seqs := by rw [hf]
  have hmgmt : a.mgmt = s0.mgmt := by rw [hf]
  refine ⟨?_, (hobj _).trans hbit, ?_, ?_, fun x => ?_⟩
  · rw [closeRevoked_frame, slotRevoked]
    generalize hm : (closeRevoked _).mgmt.sessions = ss
    rw [hf]
    rfl
  · intro k hk
    exact (hobj k).trans (((hs.mono (List.subset_cons_self _ _)).objBit Obj.rootKeyRevoked n true List.mem_cons_self) k hk)
  · rw [← hbit]
    exact measEvent_sec_congr (s := s0) (t := objBit a Obj.rootKeyRevoked n true) hseqs hsec _ _
  · rw [mem_closeRevoked]
    have : (slotRevoked a n).mgmt.sessions = s0.mgmt.sessions := congrArg Mgmt.sessions hmgmt
    rw [this]

theorem revokeRootKey_holds (r : Route) (v : Bytes) (burnt : Bool) (s : State) (role : Role) (row : ObjRow) (s0 : State) (n : Nat)
    (hn : n = leNat v) (h : WriteReady s r false Obj.revokeRootKey v role row s0) :
    (natBit n (objGet s0 Obj.rootKeyRevoked) = true →
      exec (.revokeRootKey r v burnt) s = .next (answered s r Obj.revokeRootKey ⟨s0, 0, []⟩))
    ∧ (natBit n (objGet s0 Obj.rootKeyRevoked) = false →
      natBit (1 - n) (objGet s0 Obj.rootKeyRevoked) = true
        ∨ (bankImages s0 (objGet s0 Obj.activeBank)).any (fun i => i.keySlot == n) = true →
      exec (.revokeRootKey r v burnt) s = .next (answered s r Obj.revokeRootKey ⟨s0, 0x08, []⟩))
    ∧ (natBit n (objGet s0 Obj.rootKeyRevoked) = false → mayRevoke s0 n = true → s0.power.pale = true →
      exec (.revokeRootKey r v burnt) s = .next (answered s r Obj.revokeRootKey ⟨s0, 0x07, []⟩))
    ∧ (natBit n (objGet s0 Obj.rootKeyRevoked) = false → mayRevoke s0 n = true → s0.power.pale = false → mayCommit s0 = false →
      exec (.revokeRootKey r v burnt) s = .next (answered s r Obj.revokeRootKey ⟨objInc s0 Obj.commitDeferrals, 0x07, []⟩))
    ∧ (natBit n (objGet s0 Obj.rootKeyRevoked) = false → mayRevoke s0 n = true → s0.power.pale = false → mayCommit s0 = true →
      ∃ u, exec (.revokeRootKey r v burnt) s = .next (answered s r Obj.revokeRootKey ⟨u, 0, []⟩)
        ∧ u = { s0 with dic := u.dic, mgmt := { s0.mgmt with sessions := u.mgmt.sessions }, sec := u.sec, obs := u.obs }
        ∧ objGet u Obj.rootKeyRevoked = setNatBit n (objGet s0 Obj.rootKeyRevoked)
        ∧ SameObjs s0 u (Obj.rootKeyRevoked :: journalObjs)
        ∧ u.sec = (measEvent s0 0x22 (natLe 1 (setNatBit n (objGet s0 Obj.rootKeyRevoked)))).sec
        ∧ ∀ x, x ∈ u.mgmt.sessions ↔
            x ∈ s0.mgmt.sessions ∧ ¬ (x.role = 2 ∧ x.opened = true ∧ keyAccepted u 2 x.key = false)) := by
  have hexec := writeRevoke_ready r v burnt s role row s0 h
  rw [← hn] at hexec
  refine ⟨fun hb => ?_, fun hb hno => ?_, fun hb hm hp => ?_, fun hb hm hp hc => ?_, fun hb hm hp hc => ?_⟩
  · rw [hexec, if_pos hb]
  all_goals rw [if_neg (by simp [hb])] at hexec
  · have hmay : mayRevoke s0 n = false := by
      unfold mayRevoke
      rcases hno with hno | hno <;> simp [hno]
    rw [hexec, if_pos (by simp [hmay])]
  all_goals rw [if_neg (by simp [hm])] at hexec
  · rw [hexec, if_pos hp]
  · rw [hexec, if_neg (by simp [hp]), if_pos (by simp [hc])]
  · rw [if_neg (by simp [hp]), if_neg (by simp [hc])] at hexec
    have hwo := revokeRootKey_wo row (numCheck_row h.2)
    exact ⟨_, hexec, revokeRootKey_burnt s0 _ n (applyNum_wo_frame _ _ _ _ _ _ hwo) (sameObjs_applyNum_wo _ _ _ _ _ _ hwo) _ rfl⟩

/-- Settles O44: each change of the lifecycle and each revocation, outcome by outcome. -/
theorem lifecycleAndRootKeysChange : Obligations.LifecycleAndRootKeysChange := by
  unfold Obligations.LifecycleAndRootKeysChange
  exact ⟨lifecycleStateWrite_holds, fun s => ⟨runAsked_none s, runAsked_cold s⟩, revokeRootKey_holds⟩

end Sys2Proof.Machine

/-!
Firmware banks, attestation and the identity certificate (O45).
-/

namespace Sys2Proof.Machine

/-! ### A firmware bank committed and programmed (R387 to R389) -/

theorem firmwareBankCommit_holds (r : Route) (handle : Nat) (digest : Bytes) (s : State) (x : Xfer) (role : Role) (row : ObjRow)
    (s0 : State) (h : CommitReady s r s.seqs.recovery Obj.firmwareBank handle digest x role row s0) :
    (s0.queues = [] →
      ∃ u, exec (.firmwareBankCommit r handle digest) s = .next (answered s r (heldKey s r) ⟨u, 0, []⟩)
        ∧ u = { imageIn s0 r role row x with dic := u.dic } ∧ objGet u Obj.firmwareUpdateState = 1
        ∧ SameObjs s0 u (Obj.firmwareUpdateState :: journalObjs))
    ∧ (s0.queues ≠ [] →
      exec (.firmwareBankCommit r handle digest) s = .next (answered s r (heldKey s r) ⟨dropXfer s0 x.handle, 0x08, []⟩)) := by
  refine ⟨fun hq => ?_, fun hq => ?_⟩
  · have hrule : updateRule (dropXfer s0 x.handle) (xferImage x) = 0 := if_pos (by simp [dropXfer, hq])
    refine ⟨startUpdate (imageIn s0 r role row x), congrArg Host.Outcome.next (commitRow_taken _ _ _ _ _ _ _ _ _ _ _ _ _ _ h rfl hrule),
      rfl, objGet_objPut_self _ _ _, ?_⟩
    exact ((sameObjs_imageIn s0 r role row x).mono (List.subset_cons_self _ _)).objPut _ _ List.mem_cons_self
  · have hrule : updateRule (dropXfer s0 x.handle) (xferImage x) = 0x08 := if_neg (by simp [dropXfer, hq])
    have hr := commitRow_refused s r s.seqs.recovery Obj.firmwareBank handle digest x role row s0 anySize updateRule
      (fun s _ => startUpdate s) id h rfl (by rw [hrule]; decide)
    rw [hrule] at hr
    exact congrArg Host.Outcome.next hr

theorem putBank_sec (s : State) (is : List ImageInfo) (hb : Nat) : (putBank s hb is).sec
    = if hb = 0 then { s.sec with bankA := is } else { s.sec with bankB := is } := by
  unfold putBank
  split <;> rfl

theorem putBank_frame (s : State) (is : List ImageInfo) (b : Nat) : putBank s b is = { s with sec := (putBank s b is).sec } := by
  unfold putBank
  split <;> rfl

theorem programDone_bad (s : State) (is : List ImageInfo) (h : bankBoots s is = false) :
    programDone s is = objPut s Obj.firmwareUpdateState 4 := if_pos (by rw [h]; rfl)

/-- A good bank in recovery, before its cold start. -/
def recoveryBank (s : State) (is : List ImageInfo) : State :=
  objPut (objPut (putBank s 0 is) Obj.activeBank 0) Obj.firmwareUpdateState 0

/-- A good bank outside recovery, for the next boot. -/
def nextBank (s : State) (is : List ImageInfo) : State :=
  objPut (objPut (putBank s (1 - objGet s Obj.activeBank) is) Obj.bootBankRequest (1 - objGet s Obj.activeBank))
    Obj.firmwareUpdateState 2

theorem programDone_recovery (s : State) (is : List ImageInfo) (h : bankBoots s is = true) (hr : s.seqs.recovery = true) :
    programDone s is = beginCold (recoveryBank s is) true := by
  unfold programDone
  rw [if_neg (by simp [h]), if_pos hr]
  rfl

theorem programDone_next (s : State) (is : List ImageInfo) (h : bankBoots s is = true) (hr : s.seqs.recovery = false) :
    programDone s is = nextBank s is := by
  unfold programDone
  rw [if_neg (by simp [h]), if_neg (by simp [hr])]
  rfl

theorem firmwareProgramDone_holds (images : List ImageInfo) (s : State) :
    (objGet s Obj.firmwareUpdateState ≠ 1 ∨ s.power.on = false ∨ s.power.pale = true →
      exec (.firmwareProgramDone images) s = .next s)
    ∧ (objGet s Obj.firmwareUpdateState = 1 → s.power.on = true → s.power.pale = false →
      (bankValid s images = false ∨ images.all (imageBoots s) = false →
        ∃ t, exec (.firmwareProgramDone images) s = .next t ∧ t = { s with dic := t.dic }
          ∧ objGet t Obj.firmwareUpdateState = 4 ∧ SameObjs s t [Obj.firmwareUpdateState])
      ∧ (bankValid s images = true → images.all (imageBoots s) = true → s.seqs.recovery = false →
        ∃ t, exec (.firmwareProgramDone images) s = .next t ∧ t = { s with dic := t.dic, sec := t.sec }
          ∧ t.sec = (if objGet s Obj.activeBank = 0 then { s.sec with bankB := images } else { s.sec with bankA := images })
          ∧ objGet t Obj.firmwareUpdateState = 2 ∧ objGet t Obj.bootBankRequest = 1 - objGet s Obj.activeBank
          ∧ SameObjs s t [Obj.firmwareUpdateState, Obj.bootBankRequest])
      ∧ (bankValid s images = true → images.all (imageBoots s) = true → s.seqs.recovery = true →
        ∃ u, exec (.firmwareProgramDone images) s = .next (beginCold u true)
          ∧ u = { s with dic := u.dic, sec := { s.sec with bankA := images } } ∧ objGet u Obj.activeBank = 0
          ∧ objGet u Obj.firmwareUpdateState = 0 ∧ SameObjs s u [Obj.activeBank, Obj.firmwareUpdateState])) := by
  refine ⟨fun h => congrArg Host.Outcome.next (if_neg ?_), fun h1 hon hp => ?_⟩
  · rintro ⟨h1, h2, h3⟩
    rcases h with h | h | h
    · exact h h1
    · simp [h] at h2
    · simp [h] at h3
  have hexec : exec (.firmwareProgramDone images) s = .next (programDone s images) :=
    congrArg Host.Outcome.next (if_pos ⟨h1, hon, by simp [hp]⟩)
  refine ⟨fun hbad => ?_, fun hv ha hr => ?_, fun hv ha hr => ?_⟩
  · have hb : bankBoots s images = false := by
      unfold bankBoots
      rcases hbad with hb | hb <;> simp [hb]
    rw [programDone_bad s images hb] at hexec
    exact ⟨_, hexec, rfl, objGet_objPut_self _ _ _, (SameObjs.refl _ _).objPut _ _ List.mem_cons_self⟩
  · rw [programDone_next s images (by rw [bankBoots, hv, ha]; rfl) hr] at hexec
    have hd : SameObjs s (putBank s (1 - objGet s Obj.activeBank) images) [Obj.firmwareUpdateState, Obj.bootBankRequest] :=
      (SameObjs.refl s _).of_dic (by rw [putBank_frame])
    refine ⟨_, hexec, ?_, ?_, objGet_objPut_self _ _ _, (objGet_objPut_ne _ _ _ _ (by decide)).trans (objGet_objPut_self _ _ _),
      (hd.objPut _ _ (by decide)).objPut _ _ (by decide)⟩
    · unfold nextBank
      rw [putBank_frame]
      rfl
    · refine (putBank_sec s images (1 - objGet s Obj.activeBank)).trans ?_
      by_cases h0 : objGet s Obj.activeBank = 0
      · rw [if_pos h0, if_neg (by omega)]
      · rw [if_neg h0, if_pos (by omega)]
  · rw [programDone_recovery s images (by rw [bankBoots, hv, ha]; rfl) hr] at hexec
    exact ⟨_, hexec, rfl, (objGet_objPut_ne _ _ _ _ (by decide)).trans (objGet_objPut_self _ _ _), objGet_objPut_self _ _ _,
      (((SameObjs.refl s _).of_dic (u := putBank s 0 images) rfl).objPut _ _ (by decide)).objPut _ _ (by decide)⟩

/-! ### Attestation (R394) -/

/-- The report's values captured for a nonce. -/
def captured (a : State) (nonce : Bytes) : State :=
  objPut (updSec a (fun x => { x with attestNonce := nonce, capture := reportBody a nonce })) Obj.attestState 1

theorem attestNonceCommit_holds (r : Route) (handle : Nat) (digest : Bytes) (s : State) (x : Xfer) (role : Role) (row : ObjRow)
    (s0 : State) (h : CommitReady s r false Obj.attestNonce handle digest x role row s0) (hx : x.size = 32) :
    (objGet s0 Obj.attestState ≠ 1 → objGet s0 Obj.lifecycleState ≠ 0 → objGet s0 Obj.lifecycleState ≠ 4 →
      ∃ u, exec (.attestNonceCommit r handle digest) s = .next (answered s r (heldKey s r) ⟨u, 0, []⟩)
        ∧ u = { imageIn s0 r role row x with dic := u.dic, sec := u.sec }
        ∧ u.sec = { s0.sec with attestNonce := xferImage x, capture := reportBody (imageIn s0 r role row x) (xferImage x) }
        ∧ objGet u Obj.attestState = 1 ∧ SameObjs s0 u (Obj.attestState :: journalObjs))
    ∧ (objGet s0 Obj.attestState = 1 ∨ objGet s0 Obj.lifecycleState = 0 ∨ objGet s0 Obj.lifecycleState = 4 →
      exec (.attestNonceCommit r handle digest) s = .next (answered s r (heldKey s r) ⟨dropXfer s0 x.handle, 0x08, []⟩)) := by
  have hsize : (x.size == 32) = true := by simp [hx]
  refine ⟨fun h1 h2 h3 => ?_, fun hbad => ?_⟩
  · have hrule : attestRule (dropXfer s0 x.handle) (xferImage x) = 0 := if_neg (by
      rintro (h | h | h)
      exacts [h1 h, h2 h, h3 h])
    have hsec : (imageIn s0 r role row x).sec = s0.sec := imageIn_keeps State.sec (fun _ _ => rfl) (fun _ _ => rfl) _ _ _ _ _
    refine ⟨captured (imageIn s0 r role row x) (xferImage x),
      congrArg Host.Outcome.next (commitRow_taken _ _ _ _ _ _ _ _ _ _ _ _ _ _ h hsize hrule), rfl, ?_, objGet_objPut_self _ _ _, ?_⟩
    · rw [← hsec]
      rfl
    · exact SameObjs.objPut (((sameObjs_imageIn s0 r role row x).mono (List.subset_cons_self _ _)).of_dic rfl) _ _ List.mem_cons_self
  · have hrule : attestRule (dropXfer s0 x.handle) (xferImage x) = 0x08 := if_pos hbad
    have hr := commitRow_refused s r false Obj.attestNonce handle digest x role row s0 (fun n => n == 32) attestRule
      (fun s nonce => captured s nonce) id h hsize (by rw [hrule]; decide)
    rw [hrule] at hr
    exact congrArg Host.Outcome.next hr

/-- The captured report, signed. -/
def reportSigned (s : State) : State :=
  objPut (updSec (domPut s Obj.attestationReport (s.sec.capture ++ padTo 7856 (signReport s.sec.capture)))
    (fun x => { x with reports := x.reports + 1 })) Obj.attestState 2

theorem domGet_domPut_self (s : State) (k : Nat) (b : Bytes) : domGet (domPut s k b) k = b := by
  unfold domGet domPut smGetD
  rw [smGet_smSet_self]
  rfl

theorem domGet_domPut_ne (s : State) (k j : Nat) (b : Bytes) (h : j ≠ k) : domGet (domPut s k b) j = domGet s j := by
  unfold domGet domPut smGetD
  rw [smGet_smSet_ne _ _ _ _ h]

theorem attestationSigned_holds (s : State) :
    (objGet s Obj.attestState ≠ 1 ∨ core3 s ≠ 1 → exec .attestationSigned s = .next s)
    ∧ (objGet s Obj.attestState = 1 → core3 s = 1 →
      ∃ t, exec .attestationSigned s = .next t
        ∧ t = { s with dic := t.dic, doms := t.doms, sec := { s.sec with reports := s.sec.reports + 1 } }
        ∧ objGet t Obj.attestState = 2 ∧ SameObjs s t [Obj.attestState]
        ∧ domGet t Obj.attestationReport = s.sec.capture ++ padTo 7856 (signReport s.sec.capture)
        ∧ ∀ k, k ≠ Obj.attestationReport → domGet t k = domGet s k) := by
  refine ⟨fun h => congrArg Host.Outcome.next (if_neg (by rintro ⟨h1, h2⟩; exact h.elim (· h1) (· h2))), fun h1 h2 => ?_⟩
  have hdom (k : Nat) : domGet (reportSigned s) k
      = domGet (domPut s Obj.attestationReport (s.sec.capture ++ padTo 7856 (signReport s.sec.capture))) k := rfl
  refine ⟨reportSigned s, congrArg Host.Outcome.next (if_pos ⟨h1, h2⟩), rfl, objGet_objPut_self _ _ _,
    ((SameObjs.refl s _).of_dic rfl : SameObjs s (updSec (domPut s _ _) _) _).objPut _ _ List.mem_cons_self,
    (hdom _).trans (domGet_domPut_self _ _ _), fun k hk => (hdom k).trans (domGet_domPut_ne _ _ _ _ hk)⟩

/-! ### The identity certificate (R393) -/

theorem identityCertificate_stands (row : ObjRow) (h : objRow Obj.identityCertificate = some row) : row.access ≠ .wo := by
  have hrow : (objRow Obj.identityCertificate).map (fun r => decide (r.access = .wo)) = some false := by decide
  rw [h] at hrow
  simpa using hrow

/-- The image of an object that holds one stands in it. -/
theorem domGet_applyDom (s : State) (r : Route) (role : Role) (row : ObjRow) (key : Nat) (image : Bytes) (hw : row.access ≠ .wo) :
    domGet (applyDom s r role row key image) key = image := by
  unfold applyDom
  dsimp only
  rw [if_neg hw, journal_keeps (domGet · key) (fun _ _ => rfl)]
  split
  · exact domGet_domPut_self s key image
  · exact domGet_domPut_self s key image

theorem identityCertificateCommit_holds (r : Route) (handle : Nat) (digest certKey : Bytes) (s : State) (x : Xfer) (role : Role)
    (row : ObjRow) (s0 : State) (h : CommitReady s r false Obj.identityCertificate handle digest x role row s0) :
    (domGet s0 Obj.identityCertificate = [] → s0.sec.identity = true → certKey = identityKey →
      exec (.identityCertificateCommit r handle digest certKey) s = .next (answered s r (heldKey s r) ⟨imageIn s0 r role row x, 0, []⟩)
        ∧ domGet (imageIn s0 r role row x) Obj.identityCertificate = xferImage x)
    ∧ (domGet s0 Obj.identityCertificate ≠ [] ∨ s0.sec.identity = false ∨ certKey ≠ identityKey →
      exec (.identityCertificateCommit r handle digest certKey) s
        = .next (answered s r (heldKey s r) ⟨dropXfer s0 x.handle, 0x08, []⟩)) := by
  refine ⟨fun h1 h2 h3 => ⟨?_, ?_⟩, fun hbad => ?_⟩
  · have hrule : certRule certKey (dropXfer s0 x.handle) (xferImage x) = 0 := by
      unfold certRule
      have hd : domGet (dropXfer s0 x.handle) Obj.identityCertificate = [] := h1
      have hi : (dropXfer s0 x.handle).sec.identity = true := h2
      rw [hd, hi, h3]
      exact if_neg (by simp)
    exact congrArg Host.Outcome.next (commitRow_taken _ _ _ _ _ _ _ _ _ _ _ _ _ _ h rfl hrule)
  · obtain ⟨-, hkey, -, -, -, hrow, -⟩ := h
    rw [imageIn, hkey]
    exact domGet_applyDom _ _ _ _ _ _ (identityCertificate_stands row hrow)
  · have hrule : certRule certKey (dropXfer s0 x.handle) (xferImage x) = 0x08 := by
      refine if_pos ?_
      have hd : domGet (dropXfer s0 x.handle) Obj.identityCertificate = domGet s0 Obj.identityCertificate := rfl
      have hi : (dropXfer s0 x.handle).sec.identity = s0.sec.identity := rfl
      rw [hd, hi]
      rcases hbad with hb | hb | hb <;> simp [hb]
    have hr := commitRow_refused s r false Obj.identityCertificate handle digest x role row s0 anySize (certRule certKey)
      (fun s _ => s) id h rfl (by rw [hrule]; decide)
    rw [hrule] at hr
    exact congrArg Host.Outcome.next hr

/-- Settles O45: firmware, attestation and certificate, command by command. -/
theorem firmwareAttestationAndCertificate : Obligations.FirmwareAttestationAndCertificate := by
  unfold Obligations.FirmwareAttestationAndCertificate
  exact ⟨firmwareBankCommit_holds, firmwareProgramDone_holds, attestNonceCommit_holds, attestationSigned_holds,
    identityCertificateCommit_holds⟩

end Sys2Proof.Machine

/-!
Objects read, written, described and committed to flash (O40).
-/

namespace Sys2Proof.Machine

/-- A request that reaches its object has changed the management state alone. -/
theorem asked_view {γ : Type} (vw : State → γ) (hg : ∀ s t, vw (footMgmt s t) = vw s) {s s0 : State} {r : Route} {sup : Bool}
    {op key : Nat} {payload : Bytes} {role : Role} (h : Asked s r sup op key payload role s0) : vw s0 = vw s := by
  obtain ⟨-, -, h⟩ := h
  cases r with
  | host =>
    obtain ⟨-, rfl, -⟩ := h
    rfl
  | mgmt ip port session seq =>
    obtain ⟨rfl, -⟩ := h
    exact takeMsg_keeps vw hg s ip port session seq
  | monRead =>
    obtain ⟨-, rfl, -⟩ := h
    rfl
  | monWrite =>
    obtain ⟨-, rfl, -⟩ := h
    rfl

/-! ### Reads (R330, R332, R449) -/

theorem exec_dicRead {s s0 : State} {r : Route} {k : Nat} {role : Role} (h : Asked s r (supReads s k) 0x01 k [] role s0) :
    exec (.dicRead r k) s = .next (answered s r k (readObj s0 k)) :=
  congrArg Host.Outcome.next (Laws.ask_asked _ _ _ _ _ _ _ _ _ h)

theorem readObj_row {s : State} {k : Nat} {row : ObjRow} (h : objRow k = some row) : readObj s k =
    if row.access = .wo ∨ row.typ = .domain then ⟨s, 0x04, []⟩
    else if row.typ = .str then ⟨s, 0, strRead k⟩
    else ⟨if row.access = .rc then clearRead s k else s, 0, natLe row.typ.len (objRead s k)⟩ := by
  unfold readObj
  rw [h]

theorem numeric_not_text {t : DType} (h : t.numeric = true) : t ≠ .str ∧ t ≠ .domain := by
  constructor <;> rintro rfl <;> cases h

theorem dicRead_holds (r : Route) (k : Nat) (s : State) (role : Role) (s0 : State) (h : Asked s r (supReads s k) 0x01 k [] role s0) :
    (objRow k = none → exec (.dicRead r k) s = .next (answered s r k ⟨s0, 0x01, []⟩))
    ∧ (∀ row, objRow k = some row →
      (row.access = .wo ∨ row.typ = .domain → exec (.dicRead r k) s = .next (answered s r k ⟨s0, 0x04, []⟩))
      ∧ (row.typ.numeric = true → row.access ≠ .wo → row.access ≠ .rc →
        exec (.dicRead r k) s = .next (answered s r k ⟨s0, 0, natLe row.typ.len (objRead s0 k)⟩))
      ∧ (row.typ.numeric = true → row.access = .rc →
        ∃ u, exec (.dicRead r k) s = .next (answered s r k ⟨u, 0, natLe row.typ.len (objRead s0 k)⟩) ∧ u = { s0 with dic := u.dic }
          ∧ objGet u k = (if k = Obj.supplyMinMv then objGet s0 Obj.supplyVoltageMv else 0) ∧ SameObjs s0 u [k])
      ∧ (row.typ = .str → row.access ≠ .wo → exec (.dicRead r k) s = .next (answered s r k ⟨s0, 0, strRead k⟩))) := by
  have hexec := exec_dicRead h
  refine ⟨fun hn => ?_, fun row hrow => ?_⟩
  · rw [hexec]
    unfold readObj
    rw [hn]
  rw [readObj_row hrow] at hexec
  refine ⟨fun hw => ?_, fun hn hw hc => ?_, fun hn hc => ?_, fun ht hw => ?_⟩
  · rw [hexec, if_pos hw]
  · obtain ⟨h1, h2⟩ := numeric_not_text hn
    rw [hexec, if_neg (by simp [hw, h2]), if_neg h1, if_neg hc]
  · obtain ⟨h1, h2⟩ := numeric_not_text hn
    rw [if_neg (by simp [hc, h2]), if_neg h1, if_pos hc] at hexec
    exact ⟨clearRead s0 k, hexec, rfl, objGet_objPut_self _ _ _, (SameObjs.refl _ _).objPut _ _ List.mem_cons_self⟩
  · rw [hexec, if_neg (by simp [hw, ht]), if_pos ht]

/-! ### Writes (R331, R332, R449) -/

theorem exec_dicWrite {s s0 : State} {r : Route} {k : Nat} {v : Bytes} {role : Role} (ho : ownRow k = false)
    (h : Asked s r false 0x02 k v role s0) : exec (.dicWrite r k v) s
      = .next (answered s r k (writeNum s0 r role k v (ownRule k) (writeEffect k (objGet s0 k)))) := by
  have hd : objGet s k = objGet s0 k := (asked_view (objGet · k) (fun _ _ => rfl) h).symm
  refine congrArg Host.Outcome.next ((if_neg (by simp [ho])).trans ?_)
  unfold writePlain writeRow
  rw [Laws.ask_asked _ _ _ _ _ _ _ _ _ h, hd]

theorem writeNum_refused {s0 : State} {r : Route} {role : Role} {k e : Nat} {v : Bytes} {own : State → Nat → Nat}
    {effect : State → Nat → State} (h : numCheck s0 role k v none = .inl e) : writeNum s0 r role k v own effect = ⟨s0, e, []⟩ := by
  unfold writeNum
  rw [h]

/-- The checks of a numeric object's write, in their order. -/
theorem numCheck_eq {s : State} {role : Role} {k : Nat} {v : Bytes} {row : ObjRow} (h : objRow k = some row) :
    numCheck s role k v none =
      if !row.access.writes || !row.typ.numeric then .inl 0x04
      else if !mayWrite row.cls role then .inl 0x05
      else if v.length ≠ row.typ.len then .inl 0x02
      else if !rangeOk s row k (leNat v) then .inl 0x03
      else .inr (row, leNat v) := by
  unfold numCheck
  rw [h]
  rfl

theorem exec_dicWrite_ready {s s0 : State} {r : Route} {k : Nat} {v : Bytes} {role : Role} {row : ObjRow} (ho : ownRow k = false)
    (h : WriteReady s r false k v role row s0) (hr : ownRule k s0 (leNat v) = 0) : exec (.dicWrite r k v) s
      = .next (answered s r k ⟨writeEffect k (objGet s0 k) (applyNum s0 r role row k (leNat v)) (leNat v), 0, []⟩) := by
  rw [exec_dicWrite ho h.1, writeNum_checked _ _ _ _ _ _ _ _ _ h.2, ownAnswer_taken _ _ _ _ _ _ _ _ hr]

theorem writeEffect_plain {k : Nat} (old : Nat) (s : State) (n : Nat) (h1 : k ≠ Obj.arrayRetiredMap) (h2 : k ≠ Obj.linkMinLanesPct)
    (h3 : keyIn k Obj.axisInfo 4 = false) : writeEffect k old s n = s := by
  unfold writeEffect
  rw [if_neg h1, if_neg h2, if_neg (by simp [h3])]

theorem applyNum_persist (s : State) (r : Route) (role : Role) (row : ObjRow) (key n : Nat) (hk : row.kept = true)
    (hw : row.access = .rw) : nsHas (applyNum s r role row key n).persist key = true := by
  have h1 : ∀ u : State, nsHas (notePersist u key).persist key = true := fun u => by simp [notePersist, nsHas_nsAdd]
  simp only [applyNum]
  split
  · refine (journal_keeps (fun s => nsHas s.persist key) (fun _ _ => rfl) _ _ _).trans ?_
    rw [if_pos ⟨hk, hw⟩]
    exact h1 _
  · rw [if_pos ⟨hk, hw⟩]
    exact h1 _

theorem dicWrite_holds (r : Route) (k : Nat) (v : Bytes) (s : State) (role : Role) (s0 : State) (ho : ownRow k = false)
    (h : Asked s r false 0x02 k v role s0) :
    (objRow k = none → exec (.dicWrite r k v) s = .next (answered s r k ⟨s0, 0x01, []⟩))
    ∧ (∀ row, objRow k = some row →
      (row.access.writes = false ∨ row.typ.numeric = false → exec (.dicWrite r k v) s = .next (answered s r k ⟨s0, 0x04, []⟩))
      ∧ (row.access.writes = true → row.typ.numeric = true →
        (mayWrite row.cls role = false → exec (.dicWrite r k v) s = .next (answered s r k ⟨s0, 0x05, []⟩))
        ∧ (mayWrite row.cls role = true → v.length ≠ row.typ.len → exec (.dicWrite r k v) s = .next (answered s r k ⟨s0, 0x02, []⟩))
        ∧ (mayWrite row.cls role = true → v.length = row.typ.len → rangeOk s0 row k (leNat v) = false →
          exec (.dicWrite r k v) s = .next (answered s r k ⟨s0, 0x03, []⟩))
        ∧ (mayWrite row.cls role = true → v.length = row.typ.len → rangeOk s0 row k (leNat v) = true → ownRule k s0 (leNat v) ≠ 0 →
          exec (.dicWrite r k v) s = .next (answered s r k ⟨s0, ownRule k s0 (leNat v), []⟩))
        ∧ (mayWrite row.cls role = true → v.length = row.typ.len → rangeOk s0 row k (leNat v) = true → ownRule k s0 (leNat v) = 0 →
          k ≠ Obj.arrayRetiredMap → k ≠ Obj.linkMinLanesPct → keyIn k Obj.axisInfo 4 = false →
          ∃ u, exec (.dicWrite r k v) s = .next (answered s r k ⟨u, 0, []⟩)
            ∧ u = { s0 with dic := u.dic, persist := u.persist, obs := u.obs } ∧ SameObjs s0 u (k :: journalObjs)
            ∧ (row.access ≠ .wo → k ∉ journalObjs → objGet u k = leNat v)
            ∧ (row.kept = true → row.access = .rw → nsHas u.persist k = true)))) := by
  have refused {e : Nat} (hc : numCheck s0 role k v none = .inl e) : exec (.dicWrite r k v) s = .next (answered s r k ⟨s0, e, []⟩) := by
    rw [exec_dicWrite ho h, writeNum_refused hc]
  refine ⟨fun hn => refused (by unfold numCheck; rw [hn]), fun row hrow => ⟨fun hw => refused ?_, fun hw hn => ?_⟩⟩
  · rw [numCheck_eq hrow, if_pos (by rcases hw with hw | hw <;> simp [hw])]
  have hc := numCheck_eq (s := s0) (role := role) (v := v) hrow
  rw [if_neg (by simp [hw, hn])] at hc
  refine ⟨fun hm => refused ?_, fun hm hl => refused ?_, fun hm hl hr => refused ?_, fun hm hl hr hown => ?_,
    fun hm hl hr hown h1 h2 h3 => ?_⟩
  · rw [hc, if_pos (by simp [hm])]
  · rw [hc, if_neg (by simp [hm]), if_pos hl]
  · rw [hc, if_neg (by simp [hm]), if_neg (by simp [hl]), if_pos (by simp [hr])]
  · rw [if_neg (by simp [hm]), if_neg (by simp [hl]), if_neg (by simp [hr])] at hc
    rw [exec_dicWrite ho h, writeNum_checked _ _ _ _ _ _ _ _ _ hc, ownAnswer_refused _ _ _ _ _ _ _ _ hown]
  · rw [if_neg (by simp [hm]), if_neg (by simp [hl]), if_neg (by simp [hr])] at hc
    have hexec := exec_dicWrite_ready ho ⟨h, hc⟩ hown
    rw [writeEffect_plain _ _ _ h1 h2 h3] at hexec
    exact ⟨_, hexec, applyNum_frame _ _ _ _ _ _, sameObjs_applyNum _ _ _ _ _ _,
      fun ha hj => objGet_applyNum_self _ _ _ _ _ _ ha hj, applyNum_persist _ _ _ _ _ _⟩

/-! ### Arrays returned (R372) -/

/-- The bits of a map's arrays that a write clears, gathered. -/
def returnedBits (old new start : Nat) (l : List Nat) : Nat :=
  l.foldl (fun u n => if natBit n old && !natBit n new then setNatBit n u else u) start

theorem natBit_returnedBits (old new start : Nat) (l : List Nat) (n : Nat) (hn : n ∈ l) (h1 : natBit n old = true)
    (h2 : natBit n new = false) : natBit n (returnedBits old new start l) = true := by
  have keep (l : List Nat) (u : Nat) (hu : natBit n u = true) : natBit n (returnedBits old new u l) = true := by
    induction l generalizing u with
    | nil => exact hu
    | cons a l ih =>
      refine ih _ ?_
      dsimp only
      split
      · rw [natBit_setNatBit, hu, Bool.or_true]
      · exact hu
  induction l generalizing start with
  | nil => cases hn
  | cons a l ih =>
    obtain rfl | hn := List.mem_cons.mp hn
    · refine keep l _ ?_
      dsimp only
      rw [if_pos (by simp [h1, h2]), natBit_setNatBit]
      simp
    · exact ih _ hn

theorem returnArrays_frame (s : State) (old new : Nat) : returnArrays s old new =
    { s with arrays := (returnArrays s old new).arrays, unretired := (returnArrays s old new).unretired } := rfl

theorem arrayOf_returnArrays (s : State) (old new n : Nat) (h1 : natBit n old = true) (h2 : natBit n new = false) :
    (arrayOf (returnArrays s old new) n).missTimes = [] := by
  unfold arrayOf returnArrays
  dsimp only
  rw [List.getD_eq_getElem?_getD, List.getElem?_map, List.getElem?_zipIdx]
  cases s.arrays[n]? with
  | none => rfl
  | some a => simp [h1, h2]

theorem row_stands {k : Nat} {row : ObjRow} (hrow : (objRow k).map (fun r => decide (r.access = .wo)) = some false)
    (h : objRow k = some row) : row.access ≠ .wo := by
  rw [h] at hrow
  simpa using hrow

theorem arrayRetiredMap_holds (r : Route) (v : Bytes) (s : State) (role : Role) (row : ObjRow) (s0 : State)
    (h : WriteReady s r false Obj.arrayRetiredMap v role row s0) (hown : ownRule Obj.arrayRetiredMap s0 (leNat v) = 0) :
    ∃ u, exec (.dicWrite r Obj.arrayRetiredMap v) s = .next (answered s r Obj.arrayRetiredMap ⟨u, 0, []⟩)
      ∧ u = { s0 with dic := u.dic, persist := u.persist, obs := u.obs, arrays := u.arrays, unretired := u.unretired }
      ∧ objGet u Obj.arrayRetiredMap = leNat v ∧ SameObjs s0 u (Obj.arrayRetiredMap :: journalObjs)
      ∧ ∀ n, n < 64 → natBit n (objGet s0 Obj.arrayRetiredMap) = true → natBit n (leNat v) = false →
          natBit n u.unretired = true ∧ (arrayOf u n).missTimes = [] := by
  have hexec := exec_dicWrite_ready (by decide) h hown
  have heff : ∀ old a n, writeEffect Obj.arrayRetiredMap old a n = returnArrays a old n := fun old a n => if_pos rfl
  rw [heff] at hexec
  have hf := applyNum_frame s0 r role row Obj.arrayRetiredMap (leNat v)
  have hs := sameObjs_applyNum s0 r role row Obj.arrayRetiredMap (leNat v)
  have hv := objGet_applyNum_self s0 r role row Obj.arrayRetiredMap (leNat v)
    (row_stands (by decide) (numCheck_row h.2)) (by decide)
  generalize applyNum s0 r role row Obj.arrayRetiredMap (leNat v) = a at *
  refine ⟨_, hexec, ?_, hv, hs.of_dic rfl, fun n hn h1 h2 => ⟨?_, arrayOf_returnArrays _ _ _ _ h1 h2⟩⟩
  · rw [returnArrays_frame, hf]
  · exact natBit_returnedBits _ _ _ _ n (List.mem_range.mpr hn) h1 h2

/-! ### LinkMinLanesPct and AxisInfo -/

theorem linkMinLanesPct_holds (r : Route) (v : Bytes) (s : State) (role : Role) (row : ObjRow) (s0 : State)
    (h : WriteReady s r false Obj.linkMinLanesPct v role row s0) :
    ∃ u, exec (.dicWrite r Obj.linkMinLanesPct v) s = .next (answered s r Obj.linkMinLanesPct ⟨u, 0, []⟩)
      ∧ u = { s0 with dic := u.dic, persist := u.persist, links := u.links, routerW := u.routerW, routerE := u.routerE,
                      outst := u.outst, obs := u.obs } ∧ objGet u Obj.linkMinLanesPct = leNat v := by
  have hexec := exec_dicWrite_ready (by decide) h (by
    refine (if_neg ?_).trans ((if_neg ?_).trans (if_neg ?_)) <;> decide)
  have heff : ∀ old a n, writeEffect Obj.linkMinLanesPct old a n = (List.range 64).foldl settleLink a :=
    fun old a n => (if_neg (by decide)).trans (if_pos rfl)
  rw [heff] at hexec
  have hf := applyNum_frame s0 r role row Obj.linkMinLanesPct (leNat v)
  have hv := objGet_applyNum_self s0 r role row Obj.linkMinLanesPct (leNat v)
    (row_stands (by decide) (numCheck_row h.2)) (by decide)
  generalize applyNum s0 r role row Obj.linkMinLanesPct (leNat v) = a at *
  refine ⟨_, hexec, ?_, ((sameCells_settleAll a).objs _ (by decide)).trans hv⟩
  have hfold (l : List Nat) : l.foldl settleLink a = foot6_3 a (l.foldl settleLink a) :=
    (foldlState (foot6_3 · (l.foldl settleLink a)) settleLink (fun u k => settleLink_keeps (foot6_3 · (l.foldl settleLink a)) (fun _ _ => rfl) u k) l a)
  have hp : ((List.range 64).foldl settleLink a).persist = a.persist :=
    foldlState State.persist settleLink (fun u k => settleLink_keeps State.persist (fun _ _ => rfl) u k) _ a
  refine (hfold _).trans ?_
  generalize (List.range 64).foldl settleLink a = t at hp
  rw [hp, hf]
  rfl

theorem axisInfo_keys (a : Nat) (ha : a < 4) : ownRow (Obj.axisInfo + a) = false ∧ keyIn (Obj.axisInfo + a) Obj.axisInfo 4 = true
    ∧ Obj.axisInfo + a ≠ Obj.arrayRetiredMap ∧ Obj.axisInfo + a ≠ Obj.linkMinLanesPct ∧ Obj.axisInfo + a ≠ Obj.chipNumber
    ∧ Obj.axisInfo + a ≠ Obj.linkWeights ∧ Obj.axisInfo + a ∉ journalObjs := by
  interval_cases a <;> decide

theorem axisInfo_holds (r : Route) (a : Nat) (v : Bytes) (s : State) (role : Role) (row : ObjRow) (s0 : State) (ha : a < 4)
    (h : WriteReady s r false (Obj.axisInfo + a) v role row s0) :
    ∃ u, exec (.dicWrite r (Obj.axisInfo + a) v) s = .next (answered s r (Obj.axisInfo + a) ⟨u, 0, []⟩)
      ∧ u = { s0 with dic := u.dic, persist := u.persist, obs := u.obs } ∧ objGet u (Obj.axisInfo + a) = leNat v % 2 ^ 30
      ∧ SameObjs s0 u ((Obj.axisInfo + a) :: journalObjs) := by
  obtain ⟨hown, hin, h1, h2, h3, h4, -⟩ := axisInfo_keys a ha
  have hrule : ownRule (Obj.axisInfo + a) s0 (leNat v) = 0 := by
    unfold ownRule
    rw [if_neg h3, if_neg h1, if_neg h4]
  have hexec := exec_dicWrite_ready hown h hrule
  have heff : ∀ old u n, writeEffect (Obj.axisInfo + a) old u n = objPut u (Obj.axisInfo + a) (n % 2 ^ 30) :=
    fun old u n => (if_neg h1).trans ((if_neg h2).trans (if_pos hin))
  rw [heff] at hexec
  have hf := applyNum_frame s0 r role row (Obj.axisInfo + a) (leNat v)
  have hs := sameObjs_applyNum s0 r role row (Obj.axisInfo + a) (leNat v)
  generalize applyNum s0 r role row (Obj.axisInfo + a) (leNat v) = w at *
  refine ⟨_, hexec, ?_, objGet_objPut_self _ _ _, hs.objPut _ _ List.mem_cons_self⟩
  rw [hf]
  rfl

/-! ### Describe and the flash -/

theorem describe_holds (r : Route) (k : Nat) (s : State) (role : Role) (s0 : State) (h : Asked s r false 0x03 k [] role s0) :
    (objRow k = none → exec (.describe r k) s = .next (answered s r k ⟨s0, 0x01, []⟩))
    ∧ (∀ row, objRow k = some row → exec (.describe r k) s = .next (answered s r k ⟨s0, 0, describeBytes row k⟩)) := by
  refine ⟨fun hn => ?_, fun row hrow => ?_⟩
  · refine congrArg Host.Outcome.next ((Laws.ask_asked _ _ _ _ _ _ _ _ _ h).trans ?_)
    rw [hn]
  · refine congrArg Host.Outcome.next ((Laws.ask_asked _ _ _ _ _ _ _ _ _ h).trans ?_)
    rw [hrow]

theorem toFlash_frame (s : State) (k : Nat) : toFlash s k = { s with
    flash := (toFlash s k).flash, domsFlash := (toFlash s k).domsFlash, remapsFlash := (toFlash s k).remapsFlash
    repairsFlash := (toFlash s k).repairsFlash } := by
  unfold toFlash
  split
  · rfl
  · split
    · rfl
    · split
      · rfl
      · rfl

theorem toFlash_object (s : State) (k : Nat) (hk : k < 0xA00000) (h1 : k ≠ Obj.tstRemapList) (h2 : k ≠ Obj.memRepairList) :
    smGet (toFlash s k).flash k = smGet s.dic k := by
  unfold toFlash
  rw [if_neg h1, if_neg h2, if_neg (by omega)]
  dsimp only
  cases smGet s.dic k with
  | none => exact smGet_smErase_self _ _
  | some v => exact smGet_smSet_self _ _ _

theorem toFlash_domain (s : State) (k : Nat) (hk : 0xA00000 ≤ k) (h1 : k ≠ Obj.tstRemapList) (h2 : k ≠ Obj.memRepairList) :
    smGet (toFlash s k).domsFlash k = smGet s.doms k := by
  unfold toFlash
  rw [if_neg h1, if_neg h2, if_pos hk]
  dsimp only
  cases smGet s.doms k with
  | none => exact smGet_smErase_self _ _
  | some v => exact smGet_smSet_self _ _ _

theorem persistCommit_holds (k : Nat) (s : State) :
    (nsHas s.persist k = false → exec (.persistCommit k) s = .next s)
    ∧ (nsHas s.persist k = true → mayCommit s = false →
      ∃ t, exec (.persistCommit k) s = .next t ∧ t = { s with dic := t.dic } ∧ Counted s t Obj.commitDeferrals 1
        ∧ SameObjs s t [Obj.commitDeferrals])
    ∧ (nsHas s.persist k = true → mayCommit s = true →
      ∃ t, exec (.persistCommit k) s = .next t
        ∧ t = { s with flash := t.flash, persist := nsDel s.persist k, domsFlash := t.domsFlash, remapsFlash := t.remapsFlash,
                       repairsFlash := t.repairsFlash }
        ∧ (k < 0xA00000 → k ≠ Obj.tstRemapList → k ≠ Obj.memRepairList → smGet t.flash k = smGet s.dic k)
        ∧ (0xA00000 ≤ k → k ≠ Obj.tstRemapList → k ≠ Obj.memRepairList → smGet t.domsFlash k = smGet s.doms k)) := by
  refine ⟨fun hn => ?_, fun hp hm => ?_, fun hp hm => ?_⟩
  · exact congrArg Host.Outcome.next (if_pos (by simp [hn]))
  · exact ⟨objInc s Obj.commitDeferrals, congrArg Host.Outcome.next ((if_neg (by simp [hp])).trans (if_pos (by simp [hm]))), rfl,
      objGet_objPut_self _ _ _, (SameObjs.refl _ _).objInc _ List.mem_cons_self⟩
  · exact ⟨toFlash { s with persist := nsDel s.persist k } k,
      congrArg Host.Outcome.next ((if_neg (by simp [hp])).trans (if_neg (by simp [hm]))), toFlash_frame _ _,
      fun hk h1 h2 => toFlash_object _ _ hk h1 h2, fun hk h1 h2 => toFlash_domain _ _ hk h1 h2⟩

/-- Settles O40: reads, writes, descriptions and flash commits, outcome by outcome. -/
theorem objectsReadWrittenAndKept : Obligations.ObjectsReadWrittenAndKept := by
  unfold Obligations.ObjectsReadWrittenAndKept
  exact ⟨dicRead_holds, dicWrite_holds, arrayRetiredMap_holds, linkMinLanesPct_holds, axisInfo_holds, describe_holds, persistCommit_holds⟩

end Sys2Proof.Machine

/-!
Transfers opened, filled, committed, aborted and timed out (O41).
-/

namespace Sys2Proof.Machine

/-! ### A transfer opened (R344, R345) -/

theorem exec_domainOpen {s s0 : State} {r : Route} {k dir size : Nat} {role : Role}
    (h : Asked s r (supBank s k) 0x10 k (natLe 1 dir ++ natLe 5 size) role s0) :
    exec (.domainOpen r k dir size) s = .next (answered s r k (domainOpen r k dir size s0 role)) :=
  congrArg Host.Outcome.next (Laws.ask_asked _ _ _ _ _ _ _ _ _ h)

theorem domainOpen_row {r : Route} {k dir size : Nat} {s : State} {role : Role} {row : ObjRow} (hrow : objRow k = some row)
    (hk : k ≠ Obj.firmwareBank)
    (h1 : ¬ (row.typ ≠ .domain ∨ (dir = 0 ∧ row.access = .wo) ∨ (dir = 1 ∧ (!row.access.writes) = true)))
    (h2 : ¬ (dir = 1 ∧ (!mayWriteDom s row role) = true)) : domainOpen r k dir size s role =
      if (r = .host ∧ s.mgmt.xfers.any Xfer.byHost) ∨ (dir = 1 ∧ openOf s k true ≠ 0) ∨ (dir = 0 ∧ 8 ≤ openOf s k false) then ⟨s, 0x08, []⟩
      else openXfer s r k dir size := by
  unfold domainOpen
  rw [hrow]
  dsimp only
  rw [if_neg h1, if_neg h2]
  refine if_congr Iff.rfl rfl (if_neg (fun h => hk h.1))

theorem domainOpen_holds (r : Route) (k dir size : Nat) (s : State) (role : Role) (s0 : State) (row : ObjRow)
    (h : Asked s r (supBank s k) 0x10 k (natLe 1 dir ++ natLe 5 size) role s0) (hrow : objRow k = some row) (ht : row.typ = .domain)
    (hk : k ≠ Obj.firmwareBank) :
    (dir = 1 → row.access.writes = true → mayWriteDom s0 row role = true → (r = .host → s0.mgmt.xfers.any Xfer.byHost = false) →
      (openOf s0 k true = 0 →
        exec (.domainOpen r k dir size) s = .next (answered s r k
          ⟨{ s0 with mgmt := { s0.mgmt with
              nextHandle := s0.mgmt.nextHandle % 65535 + 1
              xfers := s0.mgmt.xfers ++ [{ handle := s0.mgmt.nextHandle, key := k, write := true, size := size, byHost := r == .host,
                                           session := routeSession r, last := s0.now }] } }, 0, natLe 2 s0.mgmt.nextHandle⟩))
      ∧ (openOf s0 k true ≠ 0 → exec (.domainOpen r k dir size) s = .next (answered s r k ⟨s0, 0x08, []⟩)))
    ∧ (dir = 0 → row.access ≠ .wo → (r = .host → s0.mgmt.xfers.any Xfer.byHost = false) → openOf s0 k false < 8 →
      exec (.domainOpen r k dir size) s = .next (answered s r k
        ⟨{ s0 with mgmt := { s0.mgmt with
            nextHandle := s0.mgmt.nextHandle % 65535 + 1
            xfers := s0.mgmt.xfers ++ [{ handle := s0.mgmt.nextHandle, key := k, write := false, size := (domImage s0 k).length,
                                         byHost := r == .host, session := routeSession r,
                                         image := (domImage s0 k).zipIdx.map (fun b => (b.2, b.1)), last := s0.now }] } }, 0,
         natLe 2 s0.mgmt.nextHandle⟩)) := by
  have hexec := exec_domainOpen h
  refine ⟨fun hd hw hm hh => ?_, fun hd hw hh ho => ?_⟩
  · subst hd
    rw [domainOpen_row hrow hk (by simp [ht, hw]) (by simp [hm])] at hexec
    refine ⟨fun ho => ?_, fun ho => ?_⟩
    · rw [hexec, if_neg (by
        rintro (⟨h1, h2⟩ | ⟨-, h2⟩ | ⟨h2, -⟩)
        · rw [hh h1] at h2
          cases h2
        · exact h2 ho
        · cases h2)]
      rfl
    · rw [hexec, if_pos (Or.inr (Or.inl ⟨rfl, ho⟩))]
  · subst hd
    rw [domainOpen_row hrow hk (by simp [ht, hw]) (by simp)] at hexec
    rw [hexec, if_neg (by
      rintro (⟨h1, h2⟩ | ⟨h2, -⟩ | ⟨-, h2⟩)
      · rw [hh h1] at h2
        cases h2
      · cases h2
      · omega)]
    rfl

/-! ### Bytes entered into a transfer (R450) -/

theorem smGet_putImage (d : Bytes) (m : SMap Byte) (off i : Nat) : smGet (putImage m off d) i
    = if off ≤ i ∧ i < off + d.length then some (d.getD (i - off) 0) else smGet m i := by
  induction d generalizing m off with
  | nil => rw [putImage, if_neg (by simp)]
  | cons b d ih =>
    rw [putImage, ih]
    by_cases h : off + 1 ≤ i ∧ i < off + 1 + d.length
    · rw [if_pos h, if_pos (by simp; omega)]
      obtain ⟨j, rfl⟩ : ∃ j, i = off + 1 + j := ⟨i - off - 1, by omega⟩
      rw [show off + 1 + j - off = j + 1 from by omega, show off + 1 + j - (off + 1) = j from by omega]
      rfl
    · rw [if_neg h]
      by_cases hi : i = off
      · subst hi
        rw [smGet_smSet_self, if_pos (by simp)]
        simp
      · rw [smGet_smSet_ne _ _ _ _ hi, if_neg (by simp; omega)]

/-- A transfer with a segment's bytes. -/
def filled (now off : Nat) (inside : Bytes) (x : Xfer) : Xfer :=
  { x with image := putImage x.image off inside, got := if inside.isEmpty then x.got else max x.got (off + inside.length), last := now }

theorem writeSegment_eq (s : State) (x : Xfer) (off : Nat) (data : Bytes) (hk : x.key ≠ Obj.firmwareBank) :
    writeSegment s x off data = updXfer s x.handle (filled s.now off (data.take (x.size - off))) := by
  unfold writeSegment
  dsimp only
  rw [if_neg (fun h => hk h.1)]
  rfl

theorem updXfer_frame (s : State) (handle : Nat) (f : Xfer → Xfer) :
    updXfer s handle f = { s with mgmt := { s.mgmt with xfers := (updXfer s handle f).mgmt.xfers } } := rfl

theorem find?_map_handle (f : Xfer → Xfer) (hf : ∀ x, (f x).handle = x.handle) (l : List Xfer) (n : Nat) :
    (l.map (fun x => if x.handle = n then f x else x)).find? (fun x => x.handle == n) = (l.find? (fun x => x.handle == n)).map f := by
  induction l with
  | nil => rfl
  | cons a l ih =>
    rw [List.map_cons, List.find?_cons, List.find?_cons]
    by_cases h : a.handle = n
    · simp [h, hf]
    · have hb : (a.handle == n) = false := by simp [h]
      rw [if_neg h, hb, ih]

theorem xferOf_updXfer (s : State) (n : Nat) (f : Xfer → Xfer) (hf : ∀ x, (f x).handle = x.handle) :
    xferOf (updXfer s n f) n = (xferOf s n).map f := find?_map_handle f hf _ _

theorem mem_updXfer (s : State) (n : Nat) (f : Xfer → Xfer) {z : Xfer} (hz : z ∈ s.mgmt.xfers) (hn : z.handle ≠ n) :
    z ∈ (updXfer s n f).mgmt.xfers := List.mem_map.mpr ⟨z, hz, if_neg hn⟩

theorem xferOf_routeXfer {s : State} {r : Route} {n : Nat} {x : Xfer} (h : routeXfer s r n = some x) :
    xferOf s n = some x ∧ xferRoute r x = true := by
  unfold routeXfer at h
  exact Option.filter_eq_some_iff.mp h

theorem handle_xferOf {s : State} {n : Nat} {x : Xfer} (h : xferOf s n = some x) : x.handle = n := by
  simpa using List.find?_some h

/-! ### Segments -/

theorem exec_domainSegment {s s0 : State} {r : Route} {header data : Bytes} {role : Role}
    (h : Asked s r s.seqs.recovery 0x11 (heldKey s r) (header ++ data) role s0) :
    exec (.domainSegment r header data) s = .next (answered s r (heldKey s r) (segment r header data s0)) :=
  congrArg Host.Outcome.next (Laws.ask_asked _ _ _ _ _ _ _ _ _ h)

/-- A segment of a transfer that its route holds, in the transfer's direction. -/
theorem segment_eq (r : Route) (header data : Bytes) (s : State) (x : Xfer) (off dir n : Nat) (hr : r ≠ .host)
    (hoff : off = leNat ((header.drop 2).take 5)) (hdir : dir = leNat ((header.drop 7).take 1))
    (hn : n = leNat ((header.drop 8).take 2)) (h0 : 0 < n) (h1 : n ≤ 1024) (hd : dir ≤ 1) (hl : dir = 1 → n = data.length)
    (hx : routeXfer s r (leNat (header.take 2)) = some x) (hw : x.write = (dir == 1)) (hk : x.key ≠ Obj.firmwareBank) :
    segment r header data s =
      if !x.write then ⟨updXfer s x.handle (fun (x : Xfer) => { x with last := s.now }), 0, readSegment x off n⟩
      else if x.size < off + n then ⟨addrErr (writeSegment s x off data), 0x03, []⟩
      else ⟨writeSegment s x off data, 0, []⟩ := by
  unfold segment
  rw [← hoff, ← hdir, ← hn, hx]
  dsimp only
  rw [if_neg hr, if_neg (by omega), if_neg (by simp [hw])]
  refine if_congr Iff.rfl rfl (if_neg ?_)
  have : inOrder x off = true := by simp [inOrder, hk]
  simp [this]

theorem domainSegment_holds (r : Route) (header data : Bytes) (off dir n : Nat) (s : State) (role : Role) (s0 : State) (x : Xfer)
    (h : Asked s r s.seqs.recovery 0x11 (heldKey s r) (header ++ data) role s0) (hr : r ≠ .host)
    (hoff : off = leNat ((header.drop 2).take 5)) (hdir : dir = leNat ((header.drop 7).take 1))
    (hn : n = leNat ((header.drop 8).take 2)) (h0 : 0 < n) (h1 : n ≤ 1024)
    (hx : routeXfer s0 r (leNat (header.take 2)) = some x) (hk : x.key ≠ Obj.firmwareBank) :
    (dir = 1 → n = data.length → x.write = true →
      (off + n ≤ x.size →
        ∃ u y, exec (.domainSegment r header data) s = .next (answered s r (heldKey s r) ⟨u, 0, []⟩)
          ∧ u = { s0 with mgmt := { s0.mgmt with xfers := u.mgmt.xfers } } ∧ xferOf u x.handle = some y
          ∧ y = { x with image := y.image, got := max x.got (off + n), last := s0.now }
          ∧ (∀ i, i < n → smGet y.image (off + i) = some (data.getD i 0))
          ∧ (∀ i, i < off ∨ off + n ≤ i → smGet y.image i = smGet x.image i)
          ∧ (∀ z ∈ s0.mgmt.xfers, z.handle ≠ x.handle → z ∈ u.mgmt.xfers))
      ∧ (x.size < off + n →
        ∃ u, exec (.domainSegment r header data) s = .next (answered s r (heldKey s r) ⟨u, 0x03, []⟩) ∧ u.host.addrError = true
          ∧ u = { s0 with host := { s0.host with addrError := true }, mgmt := { s0.mgmt with xfers := u.mgmt.xfers } }))
    ∧ (dir = 0 → x.write = false →
      ∃ u, exec (.domainSegment r header data) s = .next (answered s r (heldKey s r) ⟨u, 0, readSegment x off n⟩)
        ∧ u = { s0 with mgmt := { s0.mgmt with xfers := u.mgmt.xfers } }) := by
  have hexec := exec_domainSegment h
  refine ⟨fun hd hl hw => ?_, fun hd hw => ?_⟩
  · rw [segment_eq r header data s0 x off dir n hr hoff hdir hn h0 h1 (by omega) (fun _ => hl) hx (by simp [hw, hd]) hk,
      if_neg (by simp [hw])] at hexec
    rw [writeSegment_eq s0 x off data hk] at hexec
    refine ⟨fun hin => ?_, fun hout => ?_⟩
    · rw [if_neg (by omega)] at hexec
      have htake : data.take (x.size - off) = data := List.take_of_length_le (by omega)
      rw [htake] at hexec
      have hxo := (xferOf_routeXfer hx).1
      rw [← handle_xferOf hxo] at hxo
      have hne : data.isEmpty = false := by
        rw [List.isEmpty_eq_false_iff]
        rintro rfl
        exact absurd hl (by simp; omega)
      have hy : xferOf (updXfer s0 x.handle (filled s0.now off data)) x.handle = some (filled s0.now off data x) := by
        rw [xferOf_updXfer s0 x.handle (filled s0.now off data) (fun _ => rfl), hxo]
        rfl
      refine ⟨_, _, hexec, updXfer_frame _ _ _, hy, ?_, fun i hi => ?_, fun i hi => ?_, fun z hz hzn => mem_updXfer _ _ _ hz hzn⟩
      · simp [filled, hne, hl]
      · refine (smGet_putImage data x.image off (off + i)).trans ?_
        rw [if_pos (by omega), Nat.add_sub_cancel_left]
      · refine (smGet_putImage data x.image off i).trans (if_neg (by omega))
    · rw [if_pos hout] at hexec
      exact ⟨_, hexec, rfl, rfl⟩
  · rw [segment_eq r header data s0 x off dir n hr hoff hdir hn h0 h1 (by omega) (by omega) hx (by simp [hw, hd]) hk,
      if_pos (by simp [hw])] at hexec
    exact ⟨_, hexec, rfl⟩

/-! ### Commits, aborts and timeouts (R344) -/

theorem applyDom_persist (s : State) (r : Route) (role : Role) (row : ObjRow) (key : Nat) (image : Bytes) (hk : row.kept = true) :
    nsHas (applyDom s r role row key image).persist key = true := by
  unfold applyDom
  dsimp only
  rw [if_pos hk, journal_keeps (fun s => nsHas s.persist key) (fun _ _ => rfl)]
  simp [notePersist, nsHas_nsAdd]

/-- A commit of an object without a command of its own. -/
theorem exec_domainCommit {s : State} {r : Route} {handle : Nat} {digest : Bytes} {x : Xfer} (hx : routeXfer s r handle = some x)
    (ho : ownCommit x.key = false) : exec (.domainCommit r handle digest) s = .next (commitRow s r x.key handle digest false
      (fun n => !keyIn x.key Obj.managerKeyHash 4 || n == 0 || n == 32) noRule (fun s _ => s)) := by
  refine congrArg Host.Outcome.next ?_
  rw [hx]
  exact if_neg (by simp [ho])

theorem domainCommit_holds (r : Route) (handle : Nat) (digest : Bytes) (s : State) (x : Xfer) (role : Role) (row : ObjRow) (s0 : State)
    (ho : ownCommit x.key = false) :
    (CommitReady s r false x.key handle digest x role row s0 →
      (keyIn x.key Obj.managerKeyHash 4 = true → x.size = 0 ∨ x.size = 32) →
      exec (.domainCommit r handle digest) s = .next (answered s r (heldKey s r) ⟨imageIn s0 r role row x, 0, []⟩)
        ∧ (row.access ≠ .wo → domGet (imageIn s0 r role row x) x.key = xferImage x)
        ∧ (row.kept = true → nsHas (imageIn s0 r role row x).persist x.key = true))
    ∧ (routeXfer s r handle = some x → Asked s r false 0x12 (heldKey s r) (natLe 2 handle ++ digest) role s0 →
      x.write = true → objRow x.key = some row → row.access.writes = true → mayWriteDom (dropXfer s0 x.handle) row role = true →
      x.got = x.size → x.size ≤ row.hi → keyIn x.key Obj.managerKeyHash 4 = false → sha256 (xferImage x) ≠ digest →
      exec (.domainCommit r handle digest) s = .next (answered s r (heldKey s r) ⟨dropXfer s0 x.handle, 0x0A, []⟩)) := by
  refine ⟨fun h hsize => ⟨?_, fun hw => domGet_applyDom _ _ _ _ _ _ hw, fun hk => applyDom_persist _ _ _ _ _ _ hk⟩,
    fun hx ha hw hrow hacc hmay hgot hle hkey hsha => ?_⟩
  · have hx : routeXfer s r handle = some x := Option.filter_eq_some_iff.mpr ⟨h.1, h.2.2.1⟩
    rw [exec_domainCommit hx ho]
    refine congrArg Host.Outcome.next (commitRow_taken _ _ _ _ _ _ _ _ _ _ _ _ _ _ h ?_ rfl)
    cases hk : keyIn x.key Obj.managerKeyHash 4 with
    | false => rfl
    | true => rcases hsize hk with h | h <;> simp [h]
  · obtain ⟨hxo, hr⟩ := xferOf_routeXfer hx
    rw [exec_domainCommit hx ho]
    refine congrArg Host.Outcome.next ?_
    unfold commitRow
    rw [hxo]
    refine (if_pos ⟨rfl, hr⟩).trans ((Laws.ask_asked _ _ _ _ _ _ _ _ _ ha).trans ?_)
    unfold commitDom
    rw [hrow]
    dsimp only
    rw [if_neg (by simp [hw]), if_neg (by simp [hacc]), if_neg (by simp [hmay]), if_neg (by simp [hgot, hkey]; omega), if_pos hsha]

theorem xferOf_dropXfer (s : State) (n : Nat) : xferOf (dropXfer s n) n = none := by
  unfold xferOf dropXfer
  simp [List.find?_eq_none]

theorem domainAbort_holds (r : Route) (handle : Nat) (s : State) (role : Role) (s0 : State)
    (h : Asked s r s.seqs.recovery 0x13 (heldKey s r) (natLe 2 handle) role s0) :
    (routeXfer s0 r handle = none → exec (.domainAbort r handle) s = .next (answered s r (heldKey s r) ⟨s0, 0x09, []⟩))
    ∧ (∀ x, routeXfer s0 r handle = some x →
      exec (.domainAbort r handle) s = .next (answered s r (heldKey s r) ⟨dropXfer s0 handle, 0, []⟩)
        ∧ xferOf (dropXfer s0 handle) handle = none) := by
  refine ⟨fun hn => ?_, fun x hx => ⟨?_, xferOf_dropXfer _ _⟩⟩
  · refine congrArg Host.Outcome.next ((Laws.ask_asked _ _ _ _ _ _ _ _ _ h).trans ?_)
    rw [hn]
  · refine congrArg Host.Outcome.next ((Laws.ask_asked _ _ _ _ _ _ _ _ _ h).trans ?_)
    rw [hx]
    dsimp only
    rw [handle_xferOf (xferOf_routeXfer hx).1]

theorem domainTransferTimeout_holds (handle : Nat) (s : State) (x : Xfer) (hx : xferOf s handle = some x) :
    (x.last + ms 30000 ≤ s.now → exec (.domainTransferTimeout handle) s = .next (dropXfer s handle))
    ∧ (s.now < x.last + ms 30000 → exec (.domainTransferTimeout handle) s = .next s) := by
  refine ⟨fun h => congrArg Host.Outcome.next ?_, fun h => congrArg Host.Outcome.next ?_⟩
  · rw [hx]
    exact if_pos h
  · rw [hx]
    exact if_neg (by omega)

theorem domainTransferTimeout_none (handle : Nat) (s : State) (hx : xferOf s handle = none) :
    exec (.domainTransferTimeout handle) s = .next s := by
  refine congrArg Host.Outcome.next ?_
  rw [hx]

/-- Settles O41: transfers opened, filled, committed, aborted and timed out, outcome by outcome. -/
theorem transfersOpenedFilledAndCommitted : Obligations.TransfersOpenedFilledAndCommitted := by
  unfold Obligations.TransfersOpenedFilledAndCommitted
  exact ⟨domainOpen_holds, domainSegment_holds, domainCommit_holds, domainAbort_holds, domainTransferTimeout_holds,
    domainTransferTimeout_none⟩

end Sys2Proof.Machine

/-!
The sessions of the management network, and the management port (O42).
-/

namespace Sys2Proof.Machine

/-! ### Sessions read after a change -/

theorem sessionOf_closeSession (s : State) (id : Nat) : sessionOf (closeSession s id) id = none := by
  unfold sessionOf closeSession updMgmt
  simp [List.find?_eq_none]

theorem sessionOf_id {s : State} {id : Nat} {x : Session} (h : sessionOf s id = some x) : x.id = id := by
  simpa using List.find?_some h

theorem find?_map_session (f : Session → Session) (hf : ∀ x, (f x).id = x.id) (l : List Session) (n : Nat) :
    (l.map (fun x => if x.id = n then f x else x)).find? (fun x => x.id == n) = (l.find? (fun x => x.id == n)).map f := by
  induction l with
  | nil => rfl
  | cons a l ih =>
    rw [List.map_cons, List.find?_cons, List.find?_cons]
    by_cases h : a.id = n
    · simp [h, hf]
    · have hb : (a.id == n) = false := by simp [h]
      rw [if_neg h, hb, ih]

theorem sessionOf_updSession (s : State) (n : Nat) (f : Session → Session) (hf : ∀ x, (f x).id = x.id) :
    sessionOf (updSession s n f) n = (sessionOf s n).map f := find?_map_session f hf _ _

/-! ### SessionHello (R339) -/

theorem hello_formed {ip port seq role : Nat} {m : Bytes} {s : State} (h : readyMsg s ip port 0 seq = some m) (hop : msgOp m = 0x20)
    (hh : headerOk m = true) (hf : formOk 0x20 (msgPayload m) = true) (hr : leNat (msgPayload m) = role) (hc : core3 s ≠ 2)
    (hs : servesRole s role = true) : hello s ip port seq role =
      if lockedOut s then emit (takeMsg s ip port 0 seq) (.dap ip port 0 seq 0xA0 0x0D [])
      else if 4 ≤ s.mgmt.sessions.length then emit (takeMsg s ip port 0 seq) (.dap ip port 0 seq 0xA0 0x07 [])
      else openHello (takeMsg s ip port 0 seq) ip port seq role := by
  unfold hello
  rw [h]
  dsimp only
  rw [if_neg (by simp [hop, hr]), if_neg (by simp [hh, hf])]
  have hc' : core3 (takeMsg s ip port 0 seq) ≠ 2 := hc
  have hs' : servesRole (takeMsg s ip port 0 seq) role = true := hs
  rw [if_neg hc', if_neg (by simp [hs'])]
  rfl

theorem sessionHello_holds (ip port seq role : Nat) (m : Bytes) (s : State) (h : readyMsg s ip port 0 seq = some m)
    (hop : msgOp m = 0x20) (hh : headerOk m = true) (hf : formOk 0x20 (msgPayload m) = true) (hr : leNat (msgPayload m) = role)
    (hc : core3 s ≠ 2) (hs : servesRole s role = true) :
    (lockedOut s = false → s.mgmt.sessions.length < 4 →
      ∃ t x data, exec (.sessionHello ip port seq role) s = .next t
        ∧ t = { s with free := s.free + 4, out := s.out ++ [.dap ip port 0 seq 0xA0 0 data], mgmt := t.mgmt }
        ∧ t.mgmt.sessions = s.mgmt.sessions ++ [x] ∧ t.mgmt.nextSession = s.mgmt.nextSession % 65535 + 1
        ∧ x = { id := s.mgmt.nextSession, role := role, ip := ip, port := port, nonce := newNonce s, opened := false, last := s.now }
        ∧ data = natLe 2 x.id ++ x.nonce ++ padTo 16 Config.serial)
    ∧ (lockedOut s = true →
      exec (.sessionHello ip port seq role) s = .next (emit (takeMsg s ip port 0 seq) (.dap ip port 0 seq 0xA0 0x0D [])))
    ∧ (lockedOut s = false → 4 ≤ s.mgmt.sessions.length →
      exec (.sessionHello ip port seq role) s = .next (emit (takeMsg s ip port 0 seq) (.dap ip port 0 seq 0xA0 0x07 []))) := by
  have hexec : exec (.sessionHello ip port seq role) s = .next (hello s ip port seq role) := rfl
  rw [hello_formed h hop hh hf hr hc hs] at hexec
  refine ⟨fun hl hn => ?_, fun hl => ?_, fun hl hn => ?_⟩
  · rw [if_neg (by simp [hl]), if_neg (by omega)] at hexec
    exact ⟨_, _, _, hexec, rfl, rfl, rfl, rfl, rfl⟩
  · rw [hexec, if_pos hl]
  · rw [hexec, if_neg (by simp [hl]), if_pos hn]

/-! ### SessionProve (R339) -/

theorem prove_formed {ip port id seq : Nat} {key sig m : Bytes} {x : Session} {s : State} (h : readyMsg s ip port id seq = some m)
    (hop : msgOp m = 0x21) (hh : headerOk m = true) (hf : formOk 0x21 (msgPayload m) = true) (hp : msgPayload m = key ++ sig)
    (hc : core3 s ≠ 2) (hx : sessionOf s id = some x) (hip : x.ip = ip) (hport : x.port = port) (ho : x.opened = false)
    (hs : servesRole s x.role = true) : prove s ip port id seq key sig =
      if x.last + ms 10000 ≤ s.now then emit (closeSession (takeMsg s ip port id seq) id) (.dap ip port id seq 0xA1 0x0C [])
      else proved (takeMsg s ip port id seq) x seq key sig := by
  unfold prove
  rw [h]
  dsimp only
  rw [if_neg (by simp [hop, hp]), if_neg (by simp [hh, hf])]
  have hc' : core3 (takeMsg s ip port id seq) ≠ 2 := hc
  have hx' : sessionOf (takeMsg s ip port id seq) id = some x := hx
  have hs' : servesRole (takeMsg s ip port id seq) x.role = true := hs
  rw [if_neg hc', hx']
  dsimp only
  rw [if_neg (by simp [hip, hport]), if_neg (by simp [ho]), if_neg (c := (!servesRole (takeMsg s ip port id seq) x.role) = true)
    (by simp [hs'])]
  rfl

/-- A session that a proof opens. -/
def opensWith (key : Bytes) (now seq : Nat) (o : Out) (y : Session) : Session :=
  { y with opened := true, key := key, last := now, lastSeq := seq, lastReply := some o }

/-- The management state of a session's failed proof. -/
def failNoted (s : State) (x : Session) : State :=
  updMgmt (closeSession s x.id) (fun m =>
    { m with failTimes := (s.mgmt.failTimes.filter (fun t => decide (s.now < t + ms 60000))) ++ [s.now]
             lockUntil := if 8 ≤ ((s.mgmt.failTimes.filter (fun t => decide (s.now < t + ms 60000))) ++ [s.now]).length
               then some (s.now + ms 60000) else m.lockUntil })

theorem failNoted_keeps {γ : Type} (vw : State → γ) (hg : ∀ s m, vw { s with mgmt := m } = vw s) (s : State) (x : Session) :
    vw (failNoted s x) = vw s := (hg _ _).trans (hg _ _)

theorem proofFailed_eq (s : State) (x : Session) :
    proofFailed s x = journal (objInc (failNoted s x) Obj.authFailures) .authFailed [x.id, x.ip, x.role] := rfl

/-- What a failed proof changes. -/
def footProof (s t : State) : State := { s with out := t.out, dic := t.dic, mgmt := t.mgmt, obs := t.obs }

theorem footProof_self (s : State) : footProof s s = s := rfl

theorem proofFailed_out (s : State) (x : Session) : (proofFailed s x).out = s.out := by
  rw [proofFailed_eq, journal_keeps State.out (fun _ _ => rfl)]
  rfl

theorem proofFailed_mgmt (s : State) (x : Session) : (proofFailed s x).mgmt = (failNoted s x).mgmt := by
  rw [proofFailed_eq, journal_keeps State.mgmt (fun _ _ => rfl)]
  rfl

theorem proofFailed_frame (s : State) (x : Session) : proofFailed s x = footProof s (proofFailed s x) := by
  have h (t : State) : footProof (proofFailed s x) t = footProof s t := by
    have h1 (u : State) : footProof (objInc u Obj.authFailures) t = footProof u t := rfl
    rw [proofFailed_eq, journal_keeps (footProof · t) (fun _ _ => rfl), h1]
    exact failNoted_keeps (footProof · t) (fun _ _ => rfl) s x
  exact (footProof_self _).symm.trans (h _)

theorem sameObjs_proofFailed (s : State) (x : Session) : SameObjs s (proofFailed s x) (Obj.authFailures :: journalObjs) := by
  rw [proofFailed_eq]
  exact (((SameObjs.refl s _).of_dic (u := failNoted s x) rfl).objInc _ List.mem_cons_self).journal _ _ (List.subset_cons_self _ _)

theorem counted_proofFailed (s : State) (x : Session) : Counted s (proofFailed s x) Obj.authFailures 1 := by
  unfold Counted
  rw [proofFailed_eq, objGet_journal _ _ _ _ (by decide) (by decide)]
  exact objGet_objPut_self _ _ _

theorem logged_proofFailed (s : State) (x : Session) : Logged s (proofFailed s x) .authFailed [x.id, x.ip, x.role] false := by
  rw [proofFailed_eq]
  exact (logged_journal _ _ _).of_view rfl

theorem sessionOf_proofFailed (s : State) (x : Session) : sessionOf (proofFailed s x) x.id = none := by
  have h : (proofFailed s x).mgmt.sessions = (closeSession s x.id).mgmt.sessions := by
    rw [proofFailed_mgmt]
    rfl
  unfold sessionOf
  rw [h]
  exact sessionOf_closeSession s x.id

theorem sessionProve_holds (ip port id seq : Nat) (key sig m : Bytes) (x : Session) (s : State)
    (h : readyMsg s ip port id seq = some m) (hop : msgOp m = 0x21) (hh : headerOk m = true) (hf : formOk 0x21 (msgPayload m) = true)
    (hp : msgPayload m = key ++ sig) (hc : core3 s ≠ 2) (hx : sessionOf s id = some x) (hip : x.ip = ip) (hport : x.port = port)
    (ho : x.opened = false) (hs : servesRole s x.role = true) :
    (x.last + ms 10000 ≤ s.now → exec (.sessionProve (.mgmt ip port id seq) key sig) s
      = .next (emit (closeSession (takeMsg s ip port id seq) id) (.dap ip port id seq 0xA1 0x0C [])))
    ∧ (s.now < x.last + ms 10000 → proofOk s x key sig = true →
      ∃ t y, exec (.sessionProve (.mgmt ip port id seq) key sig) s = .next t
        ∧ t = { s with out := s.out ++ [.dap ip port id seq 0xA1 0 []], mgmt := t.mgmt } ∧ sessionOf t id = some y
        ∧ y.opened = true ∧ y.key = key ∧ y.role = x.role ∧ t.mgmt.lockUntil = s.mgmt.lockUntil)
    ∧ (s.now < x.last + ms 10000 → proofOk s x key sig = false →
      ∃ t, exec (.sessionProve (.mgmt ip port id seq) key sig) s = .next t
        ∧ t = { s with out := s.out ++ [.dap ip port id seq 0xA1 0x0D []], dic := t.dic, mgmt := t.mgmt, obs := t.obs }
        ∧ sessionOf t id = none ∧ Counted s t Obj.authFailures 1 ∧ SameObjs s t (Obj.authFailures :: journalObjs)
        ∧ t.mgmt.failTimes = s.mgmt.failTimes.filter (fun e => decide (s.now < e + ms 60000)) ++ [s.now]
        ∧ t.mgmt.lockUntil = (if 8 ≤ t.mgmt.failTimes.length then some (s.now + ms 60000) else s.mgmt.lockUntil)
        ∧ Logged s t .authFailed [id, ip, x.role] false) := by
  have hexec : exec (.sessionProve (.mgmt ip port id seq) key sig) s = .next (prove s ip port id seq key sig) := rfl
  rw [prove_formed h hop hh hf hp hc hx hip hport ho hs] at hexec
  have hid := sessionOf_id hx
  refine ⟨fun ht => ?_, fun ht hok => ?_, fun ht hbad => ?_⟩
  · rw [hexec, if_pos ht]
  · rw [if_neg (by omega)] at hexec
    have hpr : proved (takeMsg s ip port id seq) x seq key sig = emit (updSession (takeMsg s ip port id seq) x.id (fun y =>
        { y with opened := true, key := key, last := s.now, lastSeq := seq, lastReply := some (dapOut x.ip x.port x.id seq 0x21 0 []) }))
        (dapOut x.ip x.port x.id seq 0x21 0 []) := if_pos hok
    rw [hpr, hip, hport, hid] at hexec
    have hx' : sessionOf (takeMsg s ip port id seq) id = some x := hx
    have hy := sessionOf_updSession (takeMsg s ip port id seq) id (opensWith key s.now seq (dapOut ip port id seq 0x21 0 [])) (fun _ => rfl)
    rw [hx'] at hy
    exact ⟨_, _, hexec, rfl, hy, rfl, rfl, rfl, rfl⟩
  · rw [if_neg (by omega)] at hexec
    have hpr : proved (takeMsg s ip port id seq) x seq key sig
        = emit (proofFailed (takeMsg s ip port id seq) x) (dapOut x.ip x.port x.id seq 0x21 0x0D []) :=
      if_neg (by
        have hb : proofOk (takeMsg s ip port id seq) x key sig = false := hbad
        simp [hb])
    have hfoot := proofFailed_frame (takeMsg s ip port id seq) x
    have hout := proofFailed_out (takeMsg s ip port id seq) x
    have hmgmt := proofFailed_mgmt (takeMsg s ip port id seq) x
    have hnone := sessionOf_proofFailed (takeMsg s ip port id seq) x
    have hcount := counted_proofFailed (takeMsg s ip port id seq) x
    have hsame := sameObjs_proofFailed (takeMsg s ip port id seq) x
    have hlog := logged_proofFailed (takeMsg s ip port id seq) x
    rw [hpr] at hexec
    rw [hid] at hnone
    rw [hip, hid] at hlog
    rw [hip, hport, hid] at hexec
    generalize proofFailed (takeMsg s ip port id seq) x = u at *
    refine ⟨_, hexec, ?_, hnone, hcount, hsame, congrArg Mgmt.failTimes hmgmt, ?_, hlog⟩
    · unfold emit
      rw [hout, hfoot]
      rfl
    · show u.mgmt.lockUntil = if 8 ≤ u.mgmt.failTimes.length then _ else _
      rw [hmgmt]
      rfl

/-! ### The end of a session -/

theorem sessionClose_holds (r : Route) (s : State) (role : Role) (s0 : State) :
    (Asked s r (supSession s) 0x22 (heldKey s r) [] role s0 →
      exec (.sessionClose r) s = .next (answered s r (heldKey s r) ⟨closeSession s0 (routeSession r), 0, []⟩)
        ∧ sessionOf (closeSession s0 (routeSession r)) (routeSession r) = none)
    ∧ (Asked s r (supSession s) 0x23 (heldKey s r) [] role s0 →
      exec (.keepalive r) s = .next (answered s r (heldKey s r) ⟨s0, 0, []⟩)) :=
  ⟨fun h => ⟨congrArg Host.Outcome.next (Laws.ask_asked _ _ _ _ _ _ _ _ _ h), sessionOf_closeSession _ _⟩,
    fun h => congrArg Host.Outcome.next (Laws.ask_asked _ _ _ _ _ _ _ _ _ h)⟩

theorem sessionTimes_hold (id : Nat) (x : Session) (s : State) (hx : sessionOf s id = some x) :
    (x.opened = false → x.last + ms 10000 ≤ s.now → exec (.sessionProveTimeout id) s = .next (closeSession s id))
    ∧ (x.opened = true ∨ s.now < x.last + ms 10000 → exec (.sessionProveTimeout id) s = .next s)
    ∧ (x.opened = true → x.last + objGet s Obj.sessionIdleS * ms 1000 ≤ s.now →
        exec (.sessionIdleExpire id) s = .next (closeSession s id))
    ∧ (x.opened = false ∨ s.now < x.last + objGet s Obj.sessionIdleS * ms 1000 → exec (.sessionIdleExpire id) s = .next s) := by
  refine ⟨fun ho ht => congrArg Host.Outcome.next ?_, fun h => congrArg Host.Outcome.next ?_,
    fun ho ht => congrArg Host.Outcome.next ?_, fun h => congrArg Host.Outcome.next ?_⟩
  all_goals rw [hx]
  · exact if_pos ⟨by simp [ho], ht⟩
  · refine if_neg ?_
    rintro ⟨h1, h2⟩
    rcases h with h | h
    · simp [h] at h1
    · omega
  · exact if_pos ⟨ho, ht⟩
  · refine if_neg ?_
    rintro ⟨h1, h2⟩
    rcases h with h | h
    · simp [h] at h1
    · omega

theorem authLockoutExpire_holds (e : Nat) (s : State) (he : s.mgmt.lockUntil = some e) :
    (e ≤ s.now → exec .authLockoutExpire s = .next { s with mgmt := { s.mgmt with lockUntil := none, failTimes := [] } })
    ∧ (s.now < e → exec .authLockoutExpire s = .next s) := by
  refine ⟨fun h => congrArg Host.Outcome.next ?_, fun h => congrArg Host.Outcome.next ?_⟩
  · rw [he]
    exact if_pos h
  · rw [he]
    exact if_neg (by omega)

theorem sessionTimes_none (id : Nat) (s : State) :
    (sessionOf s id = none → exec (.sessionProveTimeout id) s = .next s ∧ exec (.sessionIdleExpire id) s = .next s)
    ∧ (s.mgmt.lockUntil = none → exec .authLockoutExpire s = .next s) := by
  refine ⟨fun h => ⟨congrArg Host.Outcome.next ?_, congrArg Host.Outcome.next ?_⟩, fun h => congrArg Host.Outcome.next ?_⟩
  all_goals rw [h]

/-! ### The management port (R337) -/

theorem portSilent (ip : Nat) (payload : Bytes) (s : State) (h : macUp s = false) :
    exec (.dhcpLease ip) s = .next s ∧ exec .dhcpTimeout s = .next s ∧ exec .dhcpRetry s = .next s
      ∧ exec .plcaBeaconLoss s = .next s ∧ exec (.arpRequest ip) s = .next s ∧ exec (.icmpEcho ip payload) s = .next s := by
  have hn : ¬ macUp s = true := by simp [h]
  exact ⟨congrArg Host.Outcome.next (if_neg hn), congrArg Host.Outcome.next (if_neg fun h => hn h.1),
    congrArg Host.Outcome.next (if_neg fun h => hn h.1), congrArg Host.Outcome.next (if_neg hn),
    congrArg Host.Outcome.next (if_neg fun h => hn h.1), congrArg Host.Outcome.next (if_neg fun h => hn h.1)⟩

theorem dhcpLease_holds (ip : Nat) (s : State) (h : macUp s = true) :
    ∃ t, exec (.dhcpLease ip) s = .next t ∧ t = { s with dic := t.dic, mgmt := { s.mgmt with lease := true } }
      ∧ objGet t Obj.mgmtIpv4 = ip % 2 ^ 32 ∧ SameObjs s t [Obj.mgmtIpv4] :=
  ⟨_, congrArg Host.Outcome.next (if_pos h), rfl, objGet_objPut_self _ _ _,
    ((SameObjs.refl s _).of_dic (u := updMgmt s (fun m => { m with lease := true })) rfl).objPut _ _ List.mem_cons_self⟩

theorem portWaits (s : State) (h : macUp s = true) :
    (s.mgmt.lease = false → objGet s Obj.mgmtIpv4 = 0 →
      ∃ t, exec .dhcpTimeout s = .next t ∧ t = { s with dic := t.dic } ∧ objGet t Obj.mgmtIpv4 = linkLocal s
        ∧ SameObjs s t [Obj.mgmtIpv4])
    ∧ (s.mgmt.lease = true ∨ objGet s Obj.mgmtIpv4 ≠ 0 → exec .dhcpTimeout s = .next s)
    ∧ (s.mgmt.lease = false → exec .dhcpRetry s = .next { s with out := s.out ++ [.dhcpDiscover] })
    ∧ (s.mgmt.lease = true → exec .dhcpRetry s = .next s)
    ∧ (∃ t, exec .plcaBeaconLoss s = .next t ∧ t = { s with dic := t.dic, mgmt := { s.mgmt with plca := false } }
        ∧ Counted s t Obj.mgmtPlcaLoss 1 ∧ SameObjs s t [Obj.mgmtPlcaLoss]) := by
  refine ⟨fun hl h0 => ⟨objPut s Obj.mgmtIpv4 (linkLocal s), congrArg Host.Outcome.next (if_pos ⟨h, by simp [hl], h0⟩), rfl,
      objGet_objPut_self _ _ _, (SameObjs.refl _ _).objPut _ _ List.mem_cons_self⟩,
    fun hl => congrArg Host.Outcome.next (if_neg ?_), fun hl => congrArg Host.Outcome.next (if_pos ⟨h, by simp [hl]⟩),
    fun hl => congrArg Host.Outcome.next (if_neg (by simp [hl])),
    objInc (updMgmt s (fun m => { m with plca := false })) Obj.mgmtPlcaLoss, congrArg Host.Outcome.next (if_pos h), rfl,
    objGet_objPut_self _ _ _, ((SameObjs.refl s _).of_dic (u := updMgmt s (fun m => { m with plca := false })) rfl).objInc _
      List.mem_cons_self⟩
  rintro ⟨-, h1, h2⟩
  rcases hl with hl | hl
  · simp [hl] at h1
  · exact hl h2

theorem portAnswers (ip : Nat) (payload : Bytes) (s : State) (h : macUp s = true) :
    (ip = objGet s Obj.mgmtIpv4 → ip ≠ 0 → exec (.arpRequest ip) s = .next { s with out := s.out ++ [.arpReply ip] })
    ∧ (ip ≠ objGet s Obj.mgmtIpv4 → exec (.arpRequest ip) s = .next s)
    ∧ (objGet s Obj.mgmtIpv4 ≠ 0 → exec (.icmpEcho ip payload) s = .next { s with out := s.out ++ [.icmpReply ip payload] })
    ∧ (objGet s Obj.mgmtIpv4 = 0 → exec (.icmpEcho ip payload) s = .next s) :=
  ⟨fun h1 h2 => congrArg Host.Outcome.next (if_pos ⟨h, h1, h2⟩), fun h1 => congrArg Host.Outcome.next (if_neg fun hh => h1 hh.2.1),
    fun h1 => congrArg Host.Outcome.next (if_pos ⟨h, h1⟩), fun h1 => congrArg Host.Outcome.next (if_neg fun hh => hh.2 h1)⟩

/-- Settles O42: the sessions and the port, command by command. -/
theorem sessionsAndManagementPort : Obligations.SessionsAndManagementPort := by
  unfold Obligations.SessionsAndManagementPort
  exact ⟨sessionHello_holds, sessionProve_holds, sessionClose_holds, sessionTimes_hold, authLockoutExpire_holds, sessionTimes_none,
    portSilent, dhcpLease_holds, portWaits, portAnswers⟩

end Sys2Proof.Machine

/-!
What a cold start begins with, and the power and restarts that begin one (O49).
-/

namespace Sys2Proof.Machine

/-! ### Objects through a reset of the dies (R334, R377, R407) -/

theorem smGet_filter_keep {α : Type} (m : SMap α) (p : Nat → Bool) (k : Nat) (h : p k = true) :
    smGet (m.filter (fun e => p e.1)) k = smGet m k := (smGet_filter m p k).trans (if_pos h)

theorem nsHas_iff_mem (l : List Nat) (k : Nat) : nsHas l k = true ↔ k ∈ l := by
  induction l with
  | nil => simp [nsHas]
  | cons a l ih =>
    rw [nsHas]
    by_cases h : a = k
    · simp [h]
    · rw [if_neg h, ih, List.mem_cons]
      exact ⟨Or.inr, fun hk => hk.resolve_left fun h' => h h'.symm⟩

theorem smGet_revertKey (s : State) (j k : Nat) (h : j ≠ k) : smGet (revertKey s j).dic k = smGet s.dic k := by
  unfold revertKey
  split
  · rfl
  · split
    · rfl
    · split
      · rfl
      · dsimp only
        split
        · exact smGet_smSet_ne _ _ _ _ h.symm
        · exact smGet_smErase_ne _ _ _ h.symm

/-- An object that awaits no commit keeps its value when uncommitted values revert. -/
theorem objGet_revertPersist (s : State) (k : Nat) (h : nsHas s.persist k = false) : objGet (revertPersist s) k = objGet s k := by
  have hmem : k ∉ s.persist := fun hk => by rw [(nsHas_iff_mem _ _).mpr hk] at h; cases h
  have hfold (l : List Nat) (u : State) (hl : k ∉ l) : smGet (l.foldl revertKey u).dic k = smGet u.dic k := by
    induction l generalizing u with
    | nil => rfl
    | cons a l ih =>
      obtain ⟨ha, hl⟩ := not_or.mp (mt List.mem_cons.mpr hl)
      exact (ih _ hl).trans (smGet_revertKey u a k (Ne.symm ha))
  unfold objGet smGetD
  exact congrArg (Option.getD · _) (hfold s.persist s hmem)

/-- The objects that a reset of the dies sets itself. -/
def resetObjs : List Nat := [Obj.snapshotState, Obj.hostLinkGen, Obj.debugNonce, Obj.tstSparesLeftMin, 0]

theorem objGet_dropSnaps (s : State) (k : Nat) (h : k ∉ resetObjs) : objGet (dropSnaps s) k = objGet s k := by
  have hk : k ≠ Obj.snapshotState := fun e => h (e ▸ by decide)
  unfold dropSnaps
  dsimp only
  split
  · exact objGet_objPut_ne _ _ _ _ hk
  · rfl

theorem objGet_ite_objPut (b : Bool) (s : State) (j v k : Nat) (h : k ≠ j) :
    objGet (if b then objPut s j v else s) k = objGet s k := by
  cases b
  · rfl
  · exact objGet_objPut_ne _ _ _ _ h

theorem objGet_applyRestart (s : State) (cold : Bool) (k : Nat) (h : k ≠ 0) : objGet (applyRestart s cold) k = objGet s k := by
  have hput : objGet (objPut s 0 (objGet s Obj.chipNumber)) k = objGet s k := objGet_objPut_ne _ _ _ _ h
  unfold applyRestart
  dsimp only
  split
  · exact hput
  · exact hput

theorem objGet_filtered (s t : State) (k : Nat) (hd : t.dic = s.dic.filter (fun e => keptKey e.1)) (h : keptKey k = true) :
    objGet t k = objGet s k := by
  unfold objGet smGetD
  rw [hd, smGet_filter_keep _ _ _ h]

/-- A kept object keeps its value through a reset of the dies. -/
theorem objGet_dieReset (s : State) (cold : Bool) (k : Nat) (hk : keptKey k = true) (h : k ∉ resetObjs) :
    objGet (dieReset s cold) k = objGet s k := by
  have h' := h
  simp only [resetObjs, List.mem_cons, List.not_mem_nil, or_false, not_or] at h'
  obtain ⟨h1, h2, h3, h4, h5⟩ := h'
  unfold dieReset
  dsimp only
  rw [objGet_applyRestart _ _ _ h5, objGet_objPut_ne _ _ _ _ h4, objGet_objPut_ne _ _ _ _ h3, freeStep_keeps (objGet · k) (fun _ _ => rfl)]
  refine Eq.trans ?_ (objGet_dropSnaps s k h)
  cases cold with
  | true =>
    refine (objGet_ite_objPut _ _ _ _ _ h1).trans ?_
    exact objGet_filtered (dropSnaps s) _ k rfl hk
  | false =>
    refine (objGet_objPut_ne _ _ _ _ h2).trans ((objGet_ite_objPut _ _ _ _ _ h1).trans ?_)
    exact objGet_filtered (dropSnaps s) _ k rfl hk

theorem objGet_mainOff (s : State) (k : Nat) (hk : keptKey k = true) (h : k ∉ resetObjs) (hp : nsHas s.persist k = false) :
    objGet (mainOff s) k = objGet s k := by
  unfold mainOff
  have h1 (u : State) : objGet (railsOff u) k = objGet u k := rfl
  rw [h1, objGet_dieReset _ _ _ hk h]
  exact objGet_revertPersist (updSeqs s _) k hp

/-! ### The rest of a reset -/

/-- What a cold start empties, and what waits. -/
def emptyView (s : State) : (List Instr × List Coll) × (List Link × List Core) × List Session :=
  ((s.pending, s.colls), (s.links, s.cores), s.mgmt.sessions)

theorem emptyView_dieReset (s : State) (cold : Bool) :
    emptyView (dieReset s cold) = ((s.pending, []), (State.reset.links, State.reset.cores), []) := by
  unfold dieReset
  simp only [applyRestart_keeps emptyView (fun _ _ => rfl), objPut_keeps emptyView (fun _ _ => rfl),
    freeStep_keeps emptyView (fun _ _ => rfl), ite_objPut_keeps emptyView (fun _ _ => rfl), ite_keeps_objPut emptyView (fun _ _ => rfl)]
  simp only [emptyView, dropSnaps_keeps State.pending (fun _ _ => rfl)]
  rfl

theorem emptyView_mainOff (s : State) :
    emptyView (mainOff s) = ((s.pending, []), (State.reset.links, State.reset.cores), []) := by
  have hrails (u : State) : emptyView (railsOff u) = emptyView u := rfl
  unfold mainOff
  rw [hrails, emptyView_dieReset, revertPersist_keeps State.pending (fun _ _ => rfl)]
  rfl

/-! ### A cold start begun (R401, R402) -/

/-- The time of a cold start, and its boot count. -/
def coldTimed (s : State) : State :=
  { s with coldAt := s.now, lossNs := 0, obs := { s.obs with bootCount := s.obs.bootCount + 1 } }

/-- The sequencer of a cold start from step 1, or from step 4. -/
def coldSeqs (s : State) (four : Bool) : State :=
  updSeqs s (fun q =>
    { q with running := true, fromFour := four, startPoint := s.now, waitFrom := if four then some s.now else none, waitNs := 0,
             overTold := false, needFirst := four, railFails := 0, railRetryAt := none, recovery := false, warmStep := 0,
             coldPending := false })

/-- The power state of a cold start. -/
def coldPower (s : State) (four : Bool) : State :=
  { s with power := { s.power with black := false, coolSince := none,
                                   mainOk := s.power.mainOk && !four,
                                   sites := s.power.sites.map (fun (x : Site) => { x with flag0 := false, flag1 := false }) } }

/-- A cold start before its boot chain begins, from the state that the switched-off domains leave. -/
def coldOf (m : State) (four : Bool) : State :=
  coldPower (setStep (objPut (coldSeqs (coldTimed m) four) Obj.moduleState 0) (if four then 3 else 0)) four

/-- A cold start before its boot chain begins. -/
def coldBegun (s : State) (four : Bool) : State := coldOf (mainOff s) four

theorem beginCold_eq (s : State) (four : Bool) : beginCold s four =
    if !four then coldBegun s four
    else if objGet (coldBegun s four) Obj.lifecycleState = 4 then
      updSeqs (setStep (coldBegun s four) 2) (fun q => { q with running := false, waitFrom := none })
    else chooseBank (chainStart (coldBegun s four) true) := by
  unfold beginCold coldBegun
  generalize mainOff s = m
  rfl

theorem objGet_coldOf (m : State) (four : Bool) (k : Nat) (h1 : k ≠ Obj.moduleState) (h2 : k ≠ Obj.startupStep) :
    objGet (coldOf m four) k = objGet m k := by
  have hs : objGet (coldOf m four) k = objGet (objPut (objPut (coldSeqs (coldTimed m) four) Obj.moduleState 0)
      Obj.startupStep (if four then 3 else 0)) k := rfl
  rw [hs, objGet_objPut_ne _ _ _ _ h2, objGet_objPut_ne _ _ _ _ h1]
  rfl

theorem coldOf_objs (m : State) (four : Bool) : objGet (coldOf m four) Obj.moduleState = 0
    ∧ objGet (coldOf m four) Obj.startupStep = if four then 3 else 0 :=
  ⟨(objGet_objPut_ne _ _ _ _ (by decide)).trans (objGet_objPut_self _ _ _), objGet_objPut_self _ _ _⟩

/-- A kept object that awaits no commit keeps its value into a cold start. -/
theorem coldBegun_kept (s : State) (four : Bool) (k : Nat) (hk : keptKey k = true) (h : k ∉ Obj.moduleState :: Obj.startupStep :: resetObjs)
    (hp : nsHas s.persist k = false) : objGet (coldBegun s four) k = objGet s k := by
  simp only [List.mem_cons, not_or] at h
  obtain ⟨h1, h2, h3⟩ := h
  rw [coldBegun, objGet_coldOf _ four k h1 h2, objGet_mainOff s k hk h3 hp]

theorem emptyView_coldBegun (s : State) (four : Bool) :
    emptyView (coldBegun s four) = ((s.pending, []), (State.reset.links, State.reset.cores), []) := by
  have h (m : State) : emptyView (coldOf m four) = emptyView m := rfl
  rw [coldBegun, h, emptyView_mainOff]

theorem resetView_coldOf (m : State) (four : Bool) : resetView (coldOf m four) = ((m.tile, m.lpddr), (m.queues, m.flash, m.persist),
    ({ m.power with black := false, coolSince := none, mainOk := m.power.mainOk && !four
                    sites := m.power.sites.map (fun (x : Site) => { x with flag0 := false, flag1 := false }) },
     { m.seqs with running := true, fromFour := four, startPoint := m.now, waitFrom := if four then some m.now else none, waitNs := 0
                   overTold := false, needFirst := four, railFails := 0, railRetryAt := none, recovery := false, warmStep := 0
                   coldPending := false, startStep := if four then 3 else 0 }), (m.now, m.now), (m.obs.jring, m.obs.bootCount + 1)) := rfl

/-- The memories, queues, power and sequencer of a cold start that begins. -/
theorem resetView_coldBegun (s : State) (four : Bool) : resetView (coldBegun s four) = (([], []), ([], s.flash, []),
    ({ s.power with doms := List.replicate 8 {}, black := false, coolSince := none, mainOk := s.power.mainOk && !four
                    sites := s.power.sites.map (fun (x : Site) => { x with flag0 := false, flag1 := false }) },
     { s.seqs with trialFails := if s.seqs.trial then s.seqs.trialFails + 1 else s.seqs.trialFails, trial := false
                   ckptStep := 0, halfE := false
                   running := true, fromFour := four, startPoint := s.now, waitFrom := if four then some s.now else none, waitNs := 0
                   overTold := false, needFirst := four, railFails := 0, railRetryAt := none, recovery := false, warmStep := 0
                   coldPending := false, startStep := if four then 3 else 0 }), (s.now, s.now), (s.obs.jring, s.obs.bootCount + 1)) := by
  have h := resetView_mainOff s
  rw [coldBegun, resetView_coldOf]
  generalize mainOff s = m at h
  simp only [resetView, Prod.mk.injEq] at h
  obtain ⟨⟨h1, h2⟩, ⟨h3, h4, h5⟩, ⟨h6, h7⟩, ⟨h8, h9⟩, h10, h11⟩ := h
  rw [h1, h2, h3, h4, h5, h6, h7, h8, h10, h11]

/-! ### The boot bank chosen (R384, R389) -/

/-- The active bank boots. -/
def bootsActive (s : State) : State :=
  updSeqs s (fun q => { q with bootBank := objGet s Obj.activeBank, trial := false, secondBank := false })

/-- The requested bank boots as a trial. -/
def bootsTrial (s : State) : State :=
  updSeqs s (fun q => { q with bootBank := objGet s Obj.bootBankRequest, trial := true, secondBank := false })

theorem objGet_trialFailed (s : State) (k : Nat) (h1 : k ≠ Obj.bootBankRequest) (h2 : k ≠ Obj.firmwareUpdateState) :
    objGet (trialFailed s) k = objGet s k :=
  ((objGet_objPut_ne (objPut s Obj.bootBankRequest 0xFF) _ _ _ h2).trans (objGet_objPut_ne _ _ _ _ h1) :)

theorem trialFailed_objs (s : State) : objGet (trialFailed s) Obj.bootBankRequest = 255
    ∧ objGet (trialFailed s) Obj.firmwareUpdateState = 5 :=
  ⟨(objGet_objPut_ne (objPut s Obj.bootBankRequest 0xFF) _ _ _ (by decide)).trans (objGet_objPut_self _ _ _),
    objGet_objPut_self (objPut s Obj.bootBankRequest 0xFF) _ _⟩

theorem trialFailed_frame (s : State) : trialFailed s = { s with
    dic := (trialFailed s).dic, seqs := { s.seqs with trial := false, trialFails := 0 } } := rfl

theorem sameObjs_trialFailed (s : State) : SameObjs s (trialFailed s) [Obj.bootBankRequest, Obj.firmwareUpdateState] := by
  intro k hk
  simp only [List.mem_cons, List.not_mem_nil, or_false, not_or] at hk
  exact objGet_trialFailed s k hk.1 hk.2

/-- The bank of the request, or the active one. -/
def bankChosen (u : State) : State :=
  if objGet u Obj.bootBankRequest < 2 then measEvent (bootsTrial u) 0x24 (natLe 1 (objGet u Obj.bootBankRequest)) else bootsActive u

theorem chooseBank_eq (s : State) : chooseBank s
    = bankChosen (if objGet s Obj.bootBankRequest < 2 ∧ 2 ≤ s.seqs.trialFails then trialFailed s else s) := by
  unfold chooseBank bankChosen
  rfl

theorem chooseBank_active (s : State) (h : 2 ≤ objGet s Obj.bootBankRequest) : chooseBank s = bootsActive s := by
  rw [chooseBank_eq, if_neg (by omega)]
  exact if_neg (by omega)

theorem chooseBank_trial (s : State) (h : objGet s Obj.bootBankRequest < 2) (hf : s.seqs.trialFails < 2) :
    chooseBank s = measEvent (bootsTrial s) 0x24 (natLe 1 (objGet s Obj.bootBankRequest)) := by
  rw [chooseBank_eq, if_neg (by omega)]
  exact if_pos h

theorem chooseBank_failed (s : State) (h : objGet s Obj.bootBankRequest < 2) (hf : 2 ≤ s.seqs.trialFails) :
    chooseBank s = bootsActive (trialFailed s) := by
  have hreq := (trialFailed_objs s).1
  rw [chooseBank_eq, if_pos ⟨h, hf⟩]
  exact if_neg (by omega)

theorem sameObjs_bootsActive (s : State) : SameObjs s (bootsActive s) [Obj.bootBankRequest, Obj.firmwareUpdateState] :=
  (SameObjs.refl s _).of_dic rfl

theorem sameObjs_chooseBank (s : State) : SameObjs s (chooseBank s) [Obj.bootBankRequest, Obj.firmwareUpdateState] := by
  by_cases h : objGet s Obj.bootBankRequest < 2
  · by_cases hf : s.seqs.trialFails < 2
    · rw [chooseBank_trial s h hf]
      exact (SameObjs.refl s _).of_dic (measEvent_keeps State.dic (fun _ _ => rfl) _ _ _)
    · rw [chooseBank_failed s h (by omega)]
      exact (sameObjs_trialFailed s).trans (sameObjs_bootsActive _)
  · rw [chooseBank_active s (by omega)]
    exact sameObjs_bootsActive s

/-- The choice of a bank changes only the sequencer's bank and trial. -/
theorem chooseBank_seqs {γ : Type} (qv : Seqs → γ)
    (hq : ∀ q a b c d, qv { q with bootBank := a, trial := b, secondBank := c, trialFails := d } = qv q) (s : State) :
    qv (chooseBank s).seqs = qv s.seqs := by
  by_cases h : objGet s Obj.bootBankRequest < 2
  · by_cases hf : s.seqs.trialFails < 2
    · rw [chooseBank_trial s h hf, measEvent_keeps State.seqs (fun _ _ => rfl)]
      exact hq s.seqs _ _ _ s.seqs.trialFails
    · rw [chooseBank_failed s h (by omega)]
      exact hq s.seqs _ _ _ _
  · rw [chooseBank_active s (by omega)]
    exact hq s.seqs _ _ _ s.seqs.trialFails

/-! ### What a cold start leaves -/

/-- What a boot chain's beginning leaves of a cold start from step 4. -/
theorem beginCold_view {γ : Type} (vw : State → γ) (hg : ∀ s t, vw (footDicSeqsSec s t) = vw s) (s : State)
    (four : Bool) : vw (beginCold s four) = vw (coldBegun s four) := by
  rw [beginCold_eq]
  generalize coldBegun s four = x
  split
  · rfl
  · split
    · exact view_of_foot vw hg rfl
    · exact (chooseBank_keeps vw hg _).trans (chainStart_keeps vw (fun s t => hg s { s with sec := t.sec }) _ _)

theorem beginCold_objs (s : State) (four : Bool) :
    SameObjs (coldBegun s four) (beginCold s four) [Obj.startupStep, Obj.bootBankRequest, Obj.firmwareUpdateState] := by
  rw [beginCold_eq]
  generalize coldBegun s four = x
  split
  · exact SameObjs.refl _ _
  · split
    · exact ((SameObjs.refl (updSeqs x _) _).objPut Obj.startupStep 2 (by decide)).of_dic rfl
    · exact ((SameObjs.refl x _).of_dic (chainStart_keeps State.dic (fun _ _ => rfl) x true)).trans
        ((sameObjs_chooseBank _).mono (by decide))

theorem beginCold_one (s : State) : beginCold s false = coldBegun s false := by rw [beginCold_eq]; rfl

/-- A cold start from step 4 of a module that is not scrapped waits for the main input after step 3. -/
theorem beginCold_four_seqs {γ : Type} (qv : Seqs → γ)
    (hq : ∀ q a b c d, qv { q with bootBank := a, trial := b, secondBank := c, trialFails := d } = qv q) (s : State)
    (h : objGet (coldBegun s true) Obj.lifecycleState ≠ 4) : qv (beginCold s true).seqs = qv (coldBegun s true).seqs := by
  rw [beginCold_eq]
  simp only [Bool.not_true, Bool.false_eq_true, if_false]
  rw [if_neg h, chooseBank_seqs qv hq, chainStart_keeps State.seqs (fun _ _ => rfl)]

/-- The memories, the waiting commands and the rest that every cold start begins with. -/
def freshView (s : State) : (Mem × Mem) × (SMap Queue × SMap Nat × List Nat) × (Power × Nat) × (Nat × Nat)
    × ((List Instr × List Coll) × (List Link × List Core) × List Session) :=
  ((s.tile, s.lpddr), (s.queues, s.flash, s.persist), (s.power, s.obs.bootCount), (s.now, s.coldAt), emptyView s)

theorem freshView_coldBegun (s : State) (four : Bool) : freshView (coldBegun s four) = (([], []), ([], s.flash, []),
    ({ s.power with doms := List.replicate 8 {}, black := false, coolSince := none, mainOk := s.power.mainOk && !four
                    sites := s.power.sites.map (fun (x : Site) => { x with flag0 := false, flag1 := false }) }, s.obs.bootCount + 1),
    (s.now, s.now), ((s.pending, []), (State.reset.links, State.reset.cores), [])) := by
  have h := resetView_coldBegun s four
  have he := emptyView_coldBegun s four
  generalize coldBegun s four = m at *
  simp only [resetView, Prod.mk.injEq] at h
  obtain ⟨⟨h1, h2⟩, ⟨h3, h4, h5⟩, ⟨h6, -⟩, ⟨h8, h9⟩, -, h11⟩ := h
  rw [freshView, h1, h2, h3, h4, h5, h6, h8, h9, h11, he]

theorem freshView_beginCold (s : State) (four : Bool) : freshView (beginCold s four) = freshView (coldBegun s four) :=
  beginCold_view freshView (fun _ _ => rfl) s four

/-! ### Power comes (R401, R420) -/

/-- The module with power, before its start. -/
def powered (s : State) (straps : Nat) (aux : Bool) : State :=
  updSeqs (objPut (objPut (updPower s (fun p => { p with on := true, aux := aux, intermediate := !aux })) Obj.lastResetSource 1)
    Obj.auxState (if aux then 0 else 1)) (fun q => { q with straps := straps })

theorem powerUp_eq (s : State) (straps : Nat) (aux : Bool) : powerUp s straps aux = coldBegun (powered s straps aux) false :=
  beginCold_one (powered s straps aux)

theorem powered_objs (s : State) (straps : Nat) (aux : Bool) : objGet (powered s straps aux) Obj.lastResetSource = 1
    ∧ objGet (powered s straps aux) Obj.auxState = boolNat (!aux) := by
  refine ⟨(objGet_objPut_ne (objPut _ Obj.lastResetSource 1) _ _ _ (by decide)).trans (objGet_objPut_self _ _ _),
    (objGet_objPut_self (objPut _ Obj.lastResetSource 1) _ _).trans ?_⟩
  cases aux <;> rfl

theorem powerUp_holds (straps : Nat) (aux : Bool) (s : State) :
    ∃ t, powerUp s straps aux = t ∧ t.power.on = true ∧ t.power.aux = aux ∧ t.power.intermediate = !aux
      ∧ (nsHas s.persist Obj.lastResetSource = false → objGet t Obj.lastResetSource = 1)
      ∧ (nsHas s.persist Obj.auxState = false → objGet t Obj.auxState = boolNat (!aux)) ∧ objGet t Obj.moduleState = 0
      ∧ objGet t Obj.startupStep = 0 ∧ t.seqs.startStep = 0 ∧ t.seqs.running = true ∧ t.seqs.waitFrom = none
      ∧ t.seqs.startPoint = s.now ∧ t.seqs.straps = straps ∧ t.coldAt = s.now ∧ t.obs.bootCount = s.obs.bootCount + 1
      ∧ t.lpddr = [] ∧ t.tile = [] ∧ t.queues = [] ∧ t.colls = [] ∧ t.links = State.reset.links ∧ t.cores = State.reset.cores
      ∧ t.mgmt.sessions = [] ∧ t.persist = [] ∧ t.flash = s.flash ∧ t.pending = s.pending ∧ t.now = s.now := by
  obtain ⟨hsrc, haux⟩ := powered_objs s straps aux
  have hv := resetView_coldBegun (powered s straps aux) false
  have he := emptyView_coldBegun (powered s straps aux) false
  obtain ⟨hm, hstep⟩ := coldOf_objs (mainOff (powered s straps aux)) false
  have hkept (k : Nat) (hk : keptKey k = true) (h : k ∉ Obj.moduleState :: Obj.startupStep :: resetObjs) (hp : nsHas s.persist k = false) :
      objGet (coldBegun (powered s straps aux) false) k = objGet (powered s straps aux) k := coldBegun_kept _ _ k hk h hp
  have hk1 (hp : nsHas s.persist Obj.lastResetSource = false) :=
    (hkept Obj.lastResetSource (by decide) (by decide) hp).trans hsrc
  have hk2 (hp : nsHas s.persist Obj.auxState = false) := (hkept Obj.auxState (by decide) (by decide) hp).trans haux
  have hdef : coldOf (mainOff (powered s straps aux)) false = coldBegun (powered s straps aux) false := rfl
  rw [hdef] at hm hstep
  refine ⟨_, powerUp_eq s straps aux, ?_⟩
  generalize coldBegun (powered s straps aux) false = t at *
  simp only [resetView, Prod.mk.injEq] at hv
  obtain ⟨⟨h1, h2⟩, ⟨h3, h4, h5⟩, ⟨h6, h7⟩, ⟨h8, h9⟩, -, h11⟩ := hv
  simp only [emptyView, Prod.mk.injEq] at he
  obtain ⟨⟨e1, e2⟩, ⟨e3, e4⟩, e5⟩ := he
  rw [h6, h7]
  exact ⟨rfl, rfl, rfl, hk1, hk2, hm, hstep, rfl, rfl, rfl, rfl, rfl, h9, h11, h2, h1, h3, e2, e3, e4, e5, h5, h4, e1, h8⟩

theorem powered_commands (straps : Nat) (c : Nat → Instr) (aux : Bool) (s : State) (hon : s.power.on = false)
    (hc : (c = .auxPowerUp ∧ aux = true) ∨ (c = .intermediateBusUp ∧ aux = false)) :
    exec (c straps) s = .next (powerUp s straps aux) := by
  have hn : ¬ s.power.on = true := by simp [hon]
  obtain ⟨rfl, rfl⟩ | ⟨rfl, rfl⟩ := hc
  · exact congrArg Host.Outcome.next (if_neg hn)
  · exact congrArg Host.Outcome.next (if_neg hn)

/-! ### A cold start for a cause -/

theorem coldStart_holds (source : Nat) (s : State) :
    ∃ t, coldStart s source = t ∧ objGet t Obj.moduleState = 0 ∧ t.coldAt = s.now
      ∧ (nsHas s.persist Obj.lastResetSource = false → objGet t Obj.lastResetSource = source)
      ∧ t.obs.bootCount = s.obs.bootCount + 1 ∧ t.lpddr = [] ∧ t.tile = [] ∧ t.queues = [] ∧ t.persist = [] ∧ t.flash = s.flash
      ∧ t.colls = [] ∧ t.links = State.reset.links ∧ t.cores = State.reset.cores ∧ t.mgmt.sessions = [] ∧ t.pending = s.pending ∧ t.now = s.now
      ∧ t.power.black = false ∧ t.power.doms = List.replicate 8 {}
      ∧ (objGet s Obj.lifecycleState ≠ 4 → nsHas s.persist Obj.lifecycleState = false →
          t.seqs.running = true ∧ t.seqs.startStep = 3 ∧ t.seqs.waitFrom = some s.now ∧ t.seqs.needFirst = true) := by
  have hsrc : objGet (objPut s Obj.lastResetSource source) Obj.lastResetSource = source := objGet_objPut_self _ _ _
  have hlife : objGet (objPut s Obj.lastResetSource source) Obj.lifecycleState = objGet s Obj.lifecycleState :=
    objGet_objPut_ne _ _ _ _ (by decide)
  have hcold : coldStart s source = beginCold (objPut s Obj.lastResetSource source) true := rfl
  have hpersist : (objPut s Obj.lastResetSource source).persist = s.persist := rfl
  have hflash : ((objPut s Obj.lastResetSource source).flash, (objPut s Obj.lastResetSource source).obs.bootCount,
      (objPut s Obj.lastResetSource source).now, (objPut s Obj.lastResetSource source).pending) = (s.flash, s.obs.bootCount, s.now, s.pending) := rfl
  generalize objPut s Obj.lastResetSource source = u at *
  simp only [Prod.mk.injEq] at hflash
  obtain ⟨f1, f2, f3, f4⟩ := hflash
  have hfresh := (freshView_beginCold u true).trans (freshView_coldBegun u true)
  have hobjs := beginCold_objs u true
  have hkept (k : Nat) (hk : keptKey k = true) (h : k ∉ Obj.moduleState :: Obj.startupStep :: resetObjs) (hp : nsHas s.persist k = false) :
      objGet (coldBegun u true) k = objGet u k := coldBegun_kept _ _ k hk h (by rw [hpersist]; exact hp)
  have hseqs (hl : objGet s Obj.lifecycleState ≠ 4) (hp : nsHas s.persist Obj.lifecycleState = false) :
      ((beginCold u true).seqs.running, (beginCold u true).seqs.startStep, (beginCold u true).seqs.waitFrom,
        (beginCold u true).seqs.needFirst) = (true, 3, some s.now, true) := by
    have hv := resetView_coldBegun u true
    have h4 := beginCold_four_seqs (fun q => (q.running, q.startStep, q.waitFrom, q.needFirst)) (fun _ _ _ _ _ => rfl) u
      (by rw [hkept Obj.lifecycleState (by decide) (by decide) hp, hlife]; exact hl)
    refine h4.trans ?_
    have hq : (coldBegun u true).seqs = (resetView (coldBegun u true)).2.2.1.2 := rfl
    rw [hq, hv, f3]
    rfl
  refine ⟨_, hcold, ?_⟩
  have hm : objGet (beginCold u true) Obj.moduleState = 0 := (hobjs _ (by decide)).trans (coldOf_objs (mainOff u) true).1
  have hs (hp : nsHas s.persist Obj.lastResetSource = false) : objGet (beginCold u true) Obj.lastResetSource = source :=
    (hobjs _ (by decide)).trans ((hkept _ (by decide) (by decide) hp).trans hsrc)
  generalize beginCold u true = t at *
  simp only [freshView, emptyView, Prod.mk.injEq] at hfresh
  obtain ⟨⟨h1, h2⟩, ⟨h3, h4, h5⟩, ⟨h6, h7⟩, ⟨h8, h9⟩, ⟨e1, e2⟩, ⟨e3, e4⟩, e5⟩ := hfresh
  rw [h6]
  refine ⟨hm, h9.trans f3, hs, h7.trans (congrArg (· + 1) f2), h2, h1, h3, h5, h4.trans f1, e2, e3, e4, e5, e1.trans f4, h8.trans f3, rfl, rfl,
    fun hl hp => ?_⟩
  have h := hseqs hl hp
  simp only [Prod.mk.injEq] at h
  exact h

end Sys2Proof.Machine

/-!
Power and restarts start the module (O49).
-/

namespace Sys2Proof.Machine

/-! ### The main input (R402, R420) -/

theorem powerIdle (straps : Nat) (s : State) (h : s.power.on = true) :
    exec (.auxPowerUp straps) s = .next s ∧ exec (.intermediateBusUp straps) s = .next s :=
  ⟨congrArg Host.Outcome.next (if_pos h), congrArg Host.Outcome.next (if_pos h)⟩

/-- The objects that reading POS_ID may change. -/
def posObjs : List Nat := [Obj.posId, Obj.mgmtIpv4] ++ journalObjs

/-- POS_ID's new value told and stored. -/
def posStored (s : State) : State :=
  objPut (match smGet s.dic Obj.posId with
    | some old => if old = s.seqs.straps % 16 then s else journal s .posIdChanged [old, s.seqs.straps % 16]
    | none => s) Obj.posId (s.seqs.straps % 16)

theorem posRead_eq (s : State) : posRead s =
    if !(posStored s).mgmt.lease ∧ objGet (posStored s) Obj.mgmtIpv4 ≠ 0 then objPut (posStored s) Obj.mgmtIpv4 (linkLocal (posStored s))
    else posStored s := by
  unfold posRead posStored
  rfl

theorem sameObjs_posStored (s : State) : SameObjs s (posStored s) posObjs := by
  unfold posStored
  refine SameObjs.objPut ?_ _ _ (by decide)
  split
  · split
    · exact SameObjs.refl _ _
    · exact (SameObjs.refl s _).journal _ _ (List.subset_append_right _ _)
  · exact SameObjs.refl _ _

theorem sameObjs_posRead (s : State) : SameObjs s (posRead s) posObjs := by
  rw [posRead_eq]
  split
  · exact (sameObjs_posStored s).objPut _ _ (by decide)
  · exact sameObjs_posStored s

theorem objGet_posRead (s : State) : objGet (posRead s) Obj.posId = s.seqs.straps % 16 := by
  rw [posRead_eq]
  split
  · exact (objGet_objPut_ne _ _ _ _ (by decide)).trans (objGet_objPut_self _ _ _)
  · exact objGet_objPut_self _ _ _

theorem posRead_frame (s : State) : posRead s = { s with dic := (posRead s).dic, obs := (posRead s).obs } :=
  (footDicObs_self _).symm.trans (posRead_keeps (footDicObs · (posRead s)) (fun _ _ => rfl) s)

/-- The main input noted with the straps. -/
def inputNoted (s : State) (straps : Nat) : State :=
  updSeqs (objPut (updPower s (fun p => { p with mainOk := true, intermediate := true })) Obj.mainInputState 1)
    (fun q => { q with straps := straps })

theorem mainInputQualified_holds (straps : Nat) (s : State) :
    (s.power.on = false → exec (.mainInputQualified straps) s = .next s)
    ∧ (s.power.on = true →
      ∃ t, exec (.mainInputQualified straps) s = .next t
        ∧ t = { s with dic := t.dic, power := { s.power with mainOk := true, intermediate := true }, seqs := t.seqs, obs := t.obs }
        ∧ objGet t Obj.mainInputState = 1 ∧ SameObjs s t ([Obj.mainInputState, Obj.posId, Obj.mgmtIpv4] ++ journalObjs)
        ∧ t.seqs = { s.seqs with straps := straps, waitFrom := none,
                                 waitNs := match s.seqs.waitFrom with
                                   | some w => s.seqs.waitNs + (s.now - w)
                                   | none => s.seqs.waitNs }
        ∧ (s.seqs.waitFrom.isSome = true → s.seqs.fromFour = true → objGet t Obj.posId = straps % 16)) := by
  refine ⟨fun h => congrArg Host.Outcome.next (if_neg (by simp [h])), fun h => ?_⟩
  have hexec : exec (.mainInputQualified straps) s = .next (endWait (inputNoted s straps)) := congrArg Host.Outcome.next (if_pos h)
  have hin : objGet (inputNoted s straps) Obj.mainInputState = 1 := objGet_objPut_self _ _ _
  have hsame : SameObjs s (inputNoted s straps) ([Obj.mainInputState, Obj.posId, Obj.mgmtIpv4] ++ journalObjs) :=
    (((SameObjs.refl s _).of_dic (u := updPower s _) rfl).objPut Obj.mainInputState 1 (by decide)).of_dic rfl
  cases hw : s.seqs.waitFrom with
  | none =>
    have hend : endWait (inputNoted s straps) = inputNoted s straps := by
      have hw' : (inputNoted s straps).seqs.waitFrom = none := hw
      unfold endWait
      rw [hw']
    rw [hend] at hexec
    have hseqs : (inputNoted s straps).seqs = { s.seqs with straps := straps, waitFrom := none, waitNs := s.seqs.waitNs } := by
      rw [← hw]
      rfl
    exact ⟨_, hexec, rfl, hin, hsame, hseqs, fun h0 => absurd h0 (by simp)⟩
  | some w =>
    have hend : endWait (inputNoted s straps) = if s.seqs.fromFour then posRead (updSeqs (inputNoted s straps) (fun q =>
        { q with waitFrom := none, waitNs := q.waitNs + (s.now - w) })) else updSeqs (inputNoted s straps) (fun q =>
        { q with waitFrom := none, waitNs := q.waitNs + (s.now - w) }) := by
      have hw' : (inputNoted s straps).seqs.waitFrom = some w := hw
      unfold endWait
      rw [hw']
      rfl
    rw [hend] at hexec
    cases hf : s.seqs.fromFour with
    | false =>
      rw [hf] at hexec
      exact ⟨_, hexec, rfl, hin, hsame.of_dic rfl, rfl, fun _ h0 => absurd h0 (by simp)⟩
    | true =>
      rw [hf, if_pos rfl] at hexec
      have hu : updSeqs (inputNoted s straps) (fun q => { q with waitFrom := none, waitNs := q.waitNs + (s.now - w) })
          = { s with dic := (inputNoted s straps).dic, power := { s.power with mainOk := true, intermediate := true }
                     seqs := { s.seqs with straps := straps, waitFrom := none, waitNs := s.seqs.waitNs + (s.now - w) } } := rfl
      have hsame' : SameObjs s (updSeqs (inputNoted s straps) (fun q => { q with waitFrom := none, waitNs := q.waitNs + (s.now - w) }))
          ([Obj.mainInputState, Obj.posId, Obj.mgmtIpv4] ++ journalObjs) := hsame.of_dic rfl
      have hin' : objGet (updSeqs (inputNoted s straps) (fun q => { q with waitFrom := none, waitNs := q.waitNs + (s.now - w) }))
          Obj.mainInputState = 1 := hin
      generalize updSeqs (inputNoted s straps) (fun q => { q with waitFrom := none, waitNs := q.waitNs + (s.now - w) }) = u at *
      have hframe := posRead_frame u
      have hseqs : (posRead u).seqs = u.seqs := by rw [hframe]
      refine ⟨_, hexec, ?_, ((sameObjs_posRead u) _ (by decide)).trans hin', hsame'.trans ((sameObjs_posRead u).mono (by decide)), ?_, fun _ _ => ?_⟩
      · rw [hseqs]
        refine hframe.trans ?_
        rw [hu]
      · rw [hseqs, hu]
      · rw [objGet_posRead, hu]

/-! ### AUX restored, retries and overruns -/

theorem auxRestore_holds (s : State) :
    (s.power.on = true → s.power.aux = false → s.iface.efuseOpen = false →
      ∃ t, exec .auxRestore s = .next t ∧ t = { s with dic := t.dic, power := { s.power with aux := true } }
        ∧ objGet t Obj.auxState = 0 ∧ SameObjs s t [Obj.auxState])
    ∧ (s.power.on = false ∨ s.power.aux = true ∨ s.iface.efuseOpen = true → exec .auxRestore s = .next s) := by
  refine ⟨fun h1 h2 h3 => ⟨objPut (updPower s (fun p => { p with aux := true })) Obj.auxState 0,
    congrArg Host.Outcome.next (if_pos ⟨h1, by simp [h2], by simp [h3]⟩), rfl, objGet_objPut_self _ _ _,
    ((SameObjs.refl s _).of_dic (u := updPower s _) rfl).objPut _ _ List.mem_cons_self⟩, fun h => congrArg Host.Outcome.next (if_neg ?_)⟩
  rintro ⟨h1, h2, h3⟩
  rcases h with h | h | h
  · simp [h] at h1
  · simp [h] at h2
  · simp [h] at h3

theorem railRetry_holds (s : State) :
    (∀ at_, s.seqs.railRetryAt = some at_ →
      (at_ ≤ s.now → exec .railRetry s = .next { s with seqs := { s.seqs with railRetryAt := none } })
      ∧ (s.now < at_ → exec .railRetry s = .next s))
    ∧ (s.seqs.railRetryAt = none → exec .railRetry s = .next s) := by
  refine ⟨fun t ht => ⟨fun h => congrArg Host.Outcome.next ?_, fun h => congrArg Host.Outcome.next ?_⟩,
    fun hn => congrArg Host.Outcome.next ?_⟩
  · rw [ht]
    exact if_pos h
  · rw [ht]
    exact if_neg (by omega)
  · rw [hn]

/-- A start beyond its time, counted and told. -/
def overrunTold (s : State) : State :=
  updSeqs (journal (objInc s Obj.startupOverruns) .startOverrun [s.seqs.startStep]) (fun q => { q with overTold := true })

theorem startupOverrun_holds (s : State) :
    (s.seqs.running = true → s.seqs.overTold = false → 14000 < runningMs s →
      ∃ t, exec .startupOverrun s = .next t
        ∧ t = { s with dic := t.dic, seqs := { s.seqs with overTold := true }, obs := t.obs }
        ∧ Counted s t Obj.startupOverruns 1 ∧ SameObjs s t (Obj.startupOverruns :: journalObjs)
        ∧ Logged s t .startOverrun [s.seqs.startStep] false)
    ∧ (s.seqs.running = false ∨ s.seqs.overTold = true ∨ runningMs s ≤ 14000 → exec .startupOverrun s = .next s) := by
  refine ⟨fun h1 h2 h3 => ?_, fun h => congrArg Host.Outcome.next (if_neg ?_)⟩
  · have hj := journal_keeps (footDicObs · (journal (objInc s Obj.startupOverruns) .startOverrun [s.seqs.startStep])) (fun _ _ => rfl)
      (objInc s Obj.startupOverruns) .startOverrun [s.seqs.startStep]
    have hobj (k : Nat) : objGet (overrunTold s) k
      = objGet (journal (objInc s Obj.startupOverruns) .startOverrun [s.seqs.startStep]) k := rfl
    refine ⟨overrunTold s, congrArg Host.Outcome.next (if_pos ⟨h1, by simp [h2], h3⟩), ?_, ?_, ?_, ?_⟩
    · unfold overrunTold
      generalize journal (objInc s Obj.startupOverruns) .startOverrun [s.seqs.startStep] = u at hj
      have hu : u = { s with dic := u.dic, obs := u.obs } := hj
      rw [hu]
      rfl
    · rw [Counted, hobj, objGet_journal _ _ _ _ (by decide) (by decide)]
      exact objGet_objPut_self _ _ _
    · exact fun k hk => (hobj k).trans ((((SameObjs.refl s _).objInc Obj.startupOverruns List.mem_cons_self).journal _ _
        (List.subset_cons_self _ _)) k hk)
    · exact ((logged_journal (objInc s Obj.startupOverruns) _ _).of_view rfl).of_obs rfl
  · rintro ⟨h1, h2, h3⟩
    rcases h with h | h | h
    · simp [h] at h1
    · simp [h] at h2
    · omega

theorem trialReadyTimeout_holds (s : State) :
    (s.seqs.trial = true → (s.seqs.running = true ∧ 14000 < runningMs s)
        ∨ (objGet s Obj.moduleState = 4 ∧ s.seqs.warmSince + ms 8000 < s.now) →
      ∃ u, exec .trialReadyTimeout s = .next (beginCold u true)
        ∧ u = { s with dic := u.dic, seqs := { s.seqs with trial := false, trialFails := 0 } }
        ∧ objGet u Obj.bootBankRequest = 255 ∧ objGet u Obj.firmwareUpdateState = 5
        ∧ SameObjs s u [Obj.bootBankRequest, Obj.firmwareUpdateState])
    ∧ (s.seqs.trial = false ∨ ((s.seqs.running = false ∨ runningMs s ≤ 14000)
        ∧ (objGet s Obj.moduleState ≠ 4 ∨ s.now ≤ s.seqs.warmSince + ms 8000)) → exec .trialReadyTimeout s = .next s) := by
  refine ⟨fun h1 h2 => ⟨trialFailed s, congrArg Host.Outcome.next (if_pos ⟨h1, h2⟩), trialFailed_frame s, (trialFailed_objs s).1,
    (trialFailed_objs s).2, sameObjs_trialFailed s⟩, fun h => congrArg Host.Outcome.next (if_neg ?_)⟩
  rintro ⟨h1, h2⟩
  rcases h with h | ⟨h, h'⟩
  · simp [h] at h1
  · rcases h2 with ⟨h2, h3⟩ | ⟨h2, h3⟩
    · rcases h with h | h
      · simp [h] at h2
      · omega
    · rcases h' with h' | h'
      · exact h' h2
      · omega

/-! ### A cold restart asked for (R405, R407) -/

theorem coldRestartWrite_holds (r : Route) (v : Bytes) (s : State) (role : Role) (row : ObjRow) (s0 : State)
    (h : WriteReady s r false Obj.coldRestart v role row s0) :
    (leNat v = 0 →
      exec (.coldRestartWrite r v) s = .next (runAsked (answered s r Obj.coldRestart ⟨applyNum s0 r role row Obj.coldRestart 0, 0, []⟩)))
    ∧ (leNat v = 1 → objGet s0 Obj.moduleState = 0 ∨ objGet s0 Obj.moduleState = 4 →
      exec (.coldRestartWrite r v) s = .next (runAsked (answered s r Obj.coldRestart ⟨s0, 0x0B, []⟩)))
    ∧ (leNat v = 1 → objGet s0 Obj.moduleState ≠ 0 → objGet s0 Obj.moduleState ≠ 4 →
      ∃ u, exec (.coldRestartWrite r v) s = .next (runAsked (answered s r Obj.coldRestart ⟨u, 0, []⟩))
        ∧ u = { applyNum s0 r role row Obj.coldRestart 1 with seqs := { s0.seqs with asked := 4 } }) := by
  have hexec : exec (.coldRestartWrite r v) s = .next (runAsked (answered s r Obj.coldRestart (ownAnswer s0 r role row Obj.coldRestart (leNat v)
      (fun s n => if n = 1 ∧ (objGet s Obj.moduleState = 0 ∨ objGet s Obj.moduleState = 4) then 0x0B else 0)
      (fun s n => if n = 1 then askRestart s 4 else s)))) :=
    congrArg Host.Outcome.next (congrArg runAsked (writeRow_ready _ _ _ _ _ _ _ _ _ _ h))
  refine ⟨fun hv => ?_, fun hv hm => ?_, fun hv h0 h4 => ?_⟩
  · rw [hv, ownAnswer_taken _ _ _ _ _ _ _ _ (if_neg (by omega))] at hexec
    exact hexec
  · have hrule : (if leNat v = 1 ∧ (objGet s0 Obj.moduleState = 0 ∨ objGet s0 Obj.moduleState = 4) then 0x0B else 0) = 0x0B :=
      if_pos ⟨hv, hm⟩
    rw [ownAnswer_refused _ _ _ _ _ _ _ _ (by rw [hrule]; decide), hrule] at hexec
    exact hexec
  · rw [hv, ownAnswer_taken _ _ _ _ _ _ _ _ (if_neg (by rintro ⟨-, h | h⟩; exacts [h0 h, h4 h]))] at hexec
    refine ⟨_, hexec, ?_⟩
    have hf := applyNum_frame s0 r role row Obj.coldRestart 1
    have hq : (applyNum s0 r role row Obj.coldRestart 1).seqs = s0.seqs := by rw [hf]
    dsimp only
    rw [if_pos rfl, ← hq]
    rfl

theorem runAsked_pale (s : State) (h : s.seqs.asked = 4) (hp : s.power.pale = true) :
    runAsked s = { s with seqs := { s.seqs with asked := 0, coldPending := true } } := by
  unfold runAsked
  rw [h]
  exact if_pos hp

/-- Settles O49: what starts and restarts the module, command by command. -/
theorem powerStartsTheModule : Obligations.PowerStartsTheModule := by
  unfold Obligations.PowerStartsTheModule
  refine ⟨powerIdle, fun straps c aux s hon hc => ?_, coldStart_holds, mainInputQualified_holds, fun s => ?_, coldRestartWrite_holds, runAsked_pale⟩
  · obtain ⟨t, ht, h⟩ := powerUp_holds straps aux s
    exact ⟨t, (powered_commands straps c aux s hon hc).trans (congrArg Host.Outcome.next ht), h⟩
  · obtain ⟨a1, a2⟩ := auxRestore_holds s
    obtain ⟨b1, b2⟩ := railRetry_holds s
    obtain ⟨c1, c2⟩ := startupOverrun_holds s
    obtain ⟨d1, d2⟩ := trialReadyTimeout_holds s
    exact ⟨a1, a2, b1, b2, c1, c2, d1, d2⟩

end Sys2Proof.Machine

/-!
The steps of a start (O50): step 10 locks a ring and may unlock it again, where a drop ring that is retired takes the last in-lane of
a link and the link is removed, whose out-lane's ring is parked.
-/

namespace Sys2Proof.Machine

/-- A start at step 10, with a link whose only lanes use ring 0 outward and ring 815, the last of half W, inward. -/
def sweepDue : State :=
  { State.reset with
    power := { State.reset.power with on := true }
    seqs := { State.reset.seqs with running := true, startStep := 9 }
    rings := [{}]
    links := [{ outLanes := [{ idx := 0, fibre := 0, line := 0, why := 0 }], inLanes := [{ idx := 0, fibre := 15, line := 16, why := 0 }] }] }

/-- The rings of half W between the first and the last. -/
def middleRings : List Nat := (List.range 271).map (· + 1) ++ (List.range 271).map (· + 544)

theorem rings_sweepDue : (List.range 1088).filter (fun r => fibreUp sweepDue (ringFibre r)) = 0 :: (middleRings ++ [815]) := by
  decide +kernel

theorem sweepRing_found (un : List Nat) (s : State) (r : Nat) (hd : s.doms = []) (hr : r ∉ un) :
    sweepRing un un true s r = foundRing s r := by
  have hret : ringRetired s r = false := by simp [ringRetired, domGet, hd, smGetD, smGet, leNat, natBit]
  simp [sweepRing, hret, hr]

theorem foundRing_beyond (s : State) (r : Nat) (h : s.rings.length ≤ r) : foundRing s r = s := by
  have hl (f : Ring → Ring) : s.rings.modify r f = s.rings := List.modify_eq_self h
  simp only [foundRing, updRing, modifyAt, hl]

/-- The state when only ring 0 and ring 815 have been swept. -/
def endsSwept : State := sweepRing [815] [815] true (foundRing sweepDue 0) 815

theorem middle_swept (s : State) (hd : s.doms = []) (hl : s.rings.length = 1) (l : List Nat) (h : ∀ r ∈ l, 1 ≤ r ∧ r ≠ 815) :
    l.foldl (sweepRing [815] [815] true) s = s := by
  induction l with
  | nil => rfl
  | cons r l ih =>
    obtain ⟨hr, hn⟩ := h r List.mem_cons_self
    rw [List.foldl_cons, sweepRing_found _ s r hd (by simpa using hn), foundRing_beyond s r (hl.trans_le hr)]
    exact ih (fun x hx => h x (List.mem_cons_of_mem r hx))

theorem mem_middleRings : ∀ r ∈ middleRings, 1 ≤ r ∧ r ≠ 815 := by
  intro r hr
  rcases List.mem_append.mp hr with hr | hr
  · obtain ⟨k, hk, rfl⟩ := List.mem_map.mp hr
    have := List.mem_range.mp hk
    omega
  · obtain ⟨k, hk, rfl⟩ := List.mem_map.mp hr
    have := List.mem_range.mp hk
    omega

theorem rings_swept : ((List.range 1088).filter (fun r => fibreUp sweepDue (ringFibre r))).foldl (sweepRing [815] [815] true) sweepDue
    = endsSwept := by
  rw [rings_sweepDue, List.foldl_cons, List.foldl_append, sweepRing_found _ _ 0 rfl (by decide),
    middle_swept (foundRing sweepDue 0) rfl rfl middleRings mem_middleRings]
  rfl

theorem rings_startRotor (s : State) (x : Nat) : (startRotor s x).rings = s.rings := startRotor_keeps (·.rings) (fun _ _ => rfl) s x

theorem rings_moveRef (s : State) (k : Nat) : (moveRef s k).rings = s.rings := moveRef_keeps (·.rings) (fun _ _ => rfl) s k

theorem rings_sweepAll (s : State) (un again : List Nat) (cold : Bool) : (sweepAll s un again cold).rings
    = (((List.range 1088).filter (fun r => fibreUp s (ringFibre r))).foldl (sweepRing un again cold) s).rings := by
  unfold sweepAll
  generalize ((List.range 1088).filter (fun r => fibreUp s (ringFibre r))).foldl (sweepRing un again cold) s = u
  refine (foldlState State.rings moveRef rings_moveRef _ _).trans ?_
  exact foldlState State.rings startRotor rings_startRotor _ _

theorem endParked : (endsSwept.rings.getD 0 {}).locked = false := by decide

/-- Ring 0 is not in the lists of rings that were not found, and step 10 leaves it unlocked. -/
theorem ringParked : (ringOf (sweepAll sweepDue [815] [815] true) 0).locked = false := by
  unfold ringOf
  rw [rings_sweepAll, rings_swept, endParked]

theorem locked_setStep (s : State) (n r : Nat) : (ringOf (setStep s n) r).locked = (ringOf s r).locked := rfl

theorem stepAfter_sweepDue : stepAfter sweepDue = 10 := by decide

theorem startStepDone_rings (s : State) (un again : List Nat) (h : stepAfter s = 10) :
    startStepDone s (.rings un again) = setStep (sweepAll s un again true) 10 := by
  unfold startStepDone
  generalize stepAfter s = n at h
  subst h
  rfl

theorem exec_sweepDue : exec (.startupStepDone (.rings [815] [815])) sweepDue = .next (setStep (sweepAll sweepDue [815] [815] true) 10) := by
  have hon : sweepDue.power.on = true ∧ sweepDue.seqs.running = true := ⟨rfl, rfl⟩
  exact congrArg Host.Outcome.next ((if_pos hon).trans (startStepDone_rings _ _ _ stepAfter_sweepDue))

/-- Refutes O50: retiring ring 815 removes the link whose only in-lane it carried, and the link's out-lane parks ring 0, which the
sweep had locked. -/
theorem not_startStepsTakenInOrder : ¬ Obligations.StartStepsTakenInOrder := by
  unfold Obligations.StartStepsTakenInOrder
  intro h
  obtain ⟨-, -, hstep, -⟩ := h
  obtain ⟨-, -, -, -, -, -, -, -, -, hrings, -⟩ := hstep sweepDue rfl rfl
  obtain ⟨t, hexec, -, -, hlocked⟩ := hrings [815] [815] stepAfter_sweepDue
  obtain ⟨hfound, -⟩ := hlocked 0 (by decide) (by decide) rfl
  have ht : setStep (sweepAll sweepDue [815] [815] true) 10 = t := Host.Outcome.next.inj (exec_sweepDue.symm.trans hexec)
  have hup : (ringOf t 0).locked = true := hfound (by decide)
  rw [← ht, locked_setStep, ringParked] at hup
  exact Bool.noConfusion hup

end Sys2Proof.Machine

/-!
Known-answer runs of an array and its retirement (R371, R372, of O47).
-/

namespace Sys2Proof.Machine

/-! ### The end of a descriptor that belongs to a layer (R125) -/

theorem dic_cutAttempt (s : State) (l : Layer) : (cutAttempt s l).dic = s.dic := cutAttempt_keeps State.dic (fun _ _ => rfl) s l

theorem sameObjs_layerDies (s : State) (l : Layer) (status : Nat) : SameObjs s (layerDies s l status) tailObjs :=
  SameObjs.trans ((SameObjs.refl s _).of_dic (dic_cutAttempt s l)) (sameObjs_finishDesc _ _)

theorem sameObjs_layerHook (s : State) (d : Done) (trapped : Bool) : SameObjs s (layerHook s d trapped) tailObjs := by
  unfold layerHook
  split
  · split
    · exact SameObjs.refl s _
    · dsimp only
      split
      · exact sameObjs_layerDies _ _ _
      · split
        · exact (SameObjs.refl s _).of_dic (dic_cutAttempt _ _)
        · exact SameObjs.refl s _
  · exact SameObjs.refl s _

theorem sameObjs_completeDesc (s : State) (d : Done) : SameObjs s (completeDesc s d) tailObjs :=
  (sameObjs_finishDesc s d).trans (sameObjs_layerHook _ _ _)

theorem sameObjs_rejectDesc (s : State) (d : Issued) (status engine : Nat) : SameObjs s (rejectDesc s d status engine) tailObjs :=
  sameObjs_completeDesc s _

theorem sameObjs_retireAll (nn : Nat) (l : List Issued) (s : State) : SameObjs s (retireAll s nn l) tailObjs := by
  induction l generalizing s with
  | nil => exact SameObjs.refl s _
  | cons d r ih => exact (sameObjs_rejectDesc s d 7 nn).trans (ih _)

/-! ### An array retired (R372) -/

theorem arrayOf_updArray_self (s : State) (nn : Nat) (f : ArrayUnit → ArrayUnit) (h : nn < s.arrays.length) :
    arrayOf (updArray s nn f) nn = f (arrayOf s nn) := by
  unfold arrayOf updArray
  rw [getD_modifyAt]
  simp [h]

theorem arrayOf_updArray_ne (s : State) (nn m : Nat) (f : ArrayUnit → ArrayUnit) (h : m ≠ nn) :
    arrayOf (updArray s nn f) m = arrayOf s m := by
  unfold arrayOf updArray
  rw [getD_modifyAt]
  simp [h.symm]

/-- An array with nothing left in it. -/
def cleared (a : ArrayUnit) : ArrayUnit :=
  { a with fifo := [], retirePending := false, banks := [[], []], trees := [[], []], bankMeta := [none, none], handoff := [none, none]
           active := none, standby := none }

/-- The retirement of an array reported. -/
def retireTold (s : State) (nn : Nat) : State :=
  let s := journalAlert (objBit s Obj.arrayRetiredMap nn true) .arrayRetired [nn]
  if inService s < 56 then journalAlert s .serviceWarning [inService s] else s

/-- Objects that the retirement of an array may change. -/
def retireObjs : List Nat := Obj.arrayRetiredMap :: Obj.alertPending :: tailObjs

theorem alertObjs_retire : alertObjs ⊆ retireObjs := by decide

/-- A retired array's units, emptied. -/
def retireCleared (s : State) (nn : Nat) : State :=
  { updArray (retireTold s nn) nn cleared with
    vecs := modifyAt (retireTold s nn).vecs nn (fun (u : VecUnit) => { u with fifo := [] }) }

theorem retireArray_eq (s : State) (nn : Nat) (h : arrayRetired s nn = false) :
    retireArray s nn = retireAll (retireCleared s nn) nn ((s.arrays.getD nn {}).fifo ++ (s.vecs.getD nn {}).fifo) :=
  if_neg (by simp [h])

theorem sameObjs_retireTold (s : State) (nn : Nat) : SameObjs s (retireTold s nn) retireObjs := by
  have h : SameObjs s (journalAlert (objBit s Obj.arrayRetiredMap nn true) .arrayRetired [nn]) retireObjs :=
    ((SameObjs.refl s _).objBit _ _ _ List.mem_cons_self).journalAlert _ _ alertObjs_retire
  unfold retireTold
  dsimp only
  split
  · exact h.journalAlert _ _ alertObjs_retire
  · exact h

theorem sameObjs_retireArray (s : State) (nn : Nat) : SameObjs s (retireArray s nn) retireObjs := by
  cases h : arrayRetired s nn with
  | true => rw [show retireArray s nn = s from if_pos h]; exact SameObjs.refl s _
  | false =>
    rw [retireArray_eq s nn h]
    exact ((sameObjs_retireTold s nn).of_dic rfl).trans ((sameObjs_retireAll nn _ (retireCleared s nn)).mono (by decide))

/-- An array is out of service with nothing left in it. -/
def Gone (t : State) (nn : Nat) : Prop :=
  natBit nn (objGet t Obj.arrayRetiredMap) = true ∧ (arrayOf t nn).banks = [[], []] ∧ (arrayOf t nn).trees = [[], []]
    ∧ (arrayOf t nn).fifo = [] ∧ (vecOf t nn).fifo = []

theorem objGet_retireTold (s : State) (nn : Nat) : objGet (retireTold s nn) Obj.arrayRetiredMap = setNatBit nn (objGet s Obj.arrayRetiredMap) := by
  have h : objGet (objBit s Obj.arrayRetiredMap nn true) Obj.arrayRetiredMap = setNatBit nn (objGet s Obj.arrayRetiredMap) :=
    objGet_objBit_self s _ _ _
  have hmap : Obj.arrayRetiredMap ∉ alertObjs := by decide
  have h1 : objGet (journalAlert (objBit s Obj.arrayRetiredMap nn true) .arrayRetired [nn]) Obj.arrayRetiredMap
      = setNatBit nn (objGet s Obj.arrayRetiredMap) :=
    ((SameObjs.refl _ alertObjs).journalAlert .arrayRetired [nn] (List.Subset.refl _) _ hmap).trans h
  unfold retireTold
  dsimp only
  split
  · exact ((SameObjs.refl _ alertObjs).journalAlert .serviceWarning _ (List.Subset.refl _) _ hmap).trans h1
  · exact h1

theorem arrays_retireTold (s : State) (nn : Nat) : (retireTold s nn).arrays = s.arrays := by
  have h (u : State) (e : JEvent) (as : List Nat) : (journalAlert u e as).arrays = u.arrays :=
    journalAlert_keeps State.arrays (fun _ _ => rfl) u e as
  unfold retireTold
  dsimp only
  split
  · exact (h _ _ _).trans (h _ _ _)
  · exact h _ _ _

theorem vecOf_retireCleared (s : State) (nn : Nat) : (vecOf (retireCleared s nn) nn).fifo = [] := by
  unfold vecOf retireCleared
  dsimp only
  rw [getD_modifyAt]
  split
  · rfl
  · rename_i h
    have hl : (retireTold s nn).vecs.length ≤ nn := by simpa using h
    rw [List.getD_eq_getElem?_getD, List.getElem?_eq_none hl]
    rfl

theorem gone_retireArray (s : State) (nn : Nat) (h : arrayRetired s nn = false) (hl : nn < s.arrays.length) :
    Gone (retireArray s nn) nn := by
  have hobj : objGet (retireCleared s nn) Obj.arrayRetiredMap = setNatBit nn (objGet s Obj.arrayRetiredMap) := objGet_retireTold s nn
  have harr : arrayOf (retireCleared s nn) nn = cleared (arrayOf s nn) := by
    refine (arrayOf_updArray_self (retireTold s nn) nn cleared (by rw [arrays_retireTold]; exact hl)).trans ?_
    unfold arrayOf
    rw [arrays_retireTold]
  have hvec := vecOf_retireCleared s nn
  rw [retireArray_eq s nn h]
  generalize retireCleared s nn = u at *
  generalize (s.arrays.getD nn {}).fifo ++ (s.vecs.getD nn {}).fifo = fs
  have ha : arrayOf (retireAll u nn fs) nn = arrayOf u nn := retireAll_keeps (arrayOf · nn) (fun _ _ => rfl) u nn fs
  have hv : vecOf (retireAll u nn fs) nn = vecOf u nn := retireAll_keeps (vecOf · nn) (fun _ _ => rfl) u nn fs
  refine ⟨?_, ?_, ?_, ?_, ?_⟩
  · rw [sameObjs_retireAll nn fs u _ (by decide), hobj, natBit_setNatBit]
    simp
  · rw [ha, harr]; rfl
  · rw [ha, harr]; rfl
  · rw [ha, harr]; rfl
  · rw [hv, hvec]

theorem Gone.retired {t : State} {nn : Nat} (h : Gone t nn) : arrayRetired t nn = true := by
  obtain ⟨hbit, -⟩ := h
  simp [arrayRetired, hbit]

theorem retireArray_gone {t : State} {nn : Nat} (h : Gone t nn) : retireArray t nn = t := if_pos h.retired

/-! ### Known-answer runs (R371) -/

/-- The times of an array's last three miss events. -/
def missesOf (s : State) (nn : Nat) : List Nat :=
  ((s.arrays.getD nn {}).missTimes ++ [s.now]).drop (((s.arrays.getD nn {}).missTimes.length + 1) - 3)

/-- A miss event of an array counted. -/
def missNoted (s : State) (nn : Nat) : State :=
  updArray (objInc s Obj.arrayMissEvents) nn (fun a => { a with missTimes := missesOf s nn })

/-- Whether a miss event retires an array that runs nothing. -/
def thirdMiss (s : State) (nn : Nat) : Prop :=
  (missesOf s nn).length = 3 ∧ s.now ≤ (missesOf s nn).headD 0 + 600 * ms 1000

theorem missEvent_idle (s : State) (nn : Nat) (hr : (arrayOf s nn).run = none) (hl : (arrayOf s nn).leaving = none) :
    (thirdMiss s nn ∧ missEvent s nn = retireArray (missNoted s nn) nn) ∨ (¬ thirdMiss s nn ∧ missEvent s nn = missNoted s nn) := by
  have hrun : ((s.arrays.getD nn {}).run.isSome || (s.arrays.getD nn {}).leaving.isSome) = false := by
    rw [show (s.arrays.getD nn {}).run = none from hr, show (s.arrays.getD nn {}).leaving = none from hl]; rfl
  by_cases h : thirdMiss s nn
  · exact Or.inl ⟨h, (if_pos h).trans (if_neg (by rw [show ((objInc s Obj.arrayMissEvents).arrays) = s.arrays from rfl, hrun]; decide))⟩
  · exact Or.inr ⟨h, if_neg h⟩

/-- A failed known-answer run noted at its array. -/
def katNoted (s : State) (nn p : Nat) : State :=
  updArray (journal (objInc (objInc s Obj.katRuns) Obj.katFailures) .katFailed [nn, (s.arrays.getD nn {}).katSeed, p]) nn
    (fun a => { a with katFails := a.katFails + 1, active := none, standby := none })

theorem katFailed_eq (s : State) (nn p : Nat) : katFailed s nn p =
    (if 2 ≤ (arrayOf (missEvent (katNoted s nn p) nn) nn).katFails then retireArray (missEvent (katNoted s nn p) nn) nn
      else missEvent (katNoted s nn p) nn) := rfl

theorem foot22_0_self (s : State) : foot22_0 s s = s := rfl

/-- Objects that every failed run changes. -/
def katObjs : List Nat := [Obj.katRuns, Obj.katFailures, Obj.arrayMissEvents] ++ journalObjs

theorem sameObjs_katNoted (s : State) (nn p : Nat) : SameObjs s (missNoted (katNoted s nn p) nn) katObjs :=
  (((((SameObjs.refl s katObjs).objInc _ (by decide)).objInc _ (by decide)).journal _ _ (by decide)).objInc _ (by decide)).of_dic rfl

theorem objGet_updArray (s : State) (nn : Nat) (f : ArrayUnit → ArrayUnit) (k : Nat) : objGet (updArray s nn f) k = objGet s k := rfl

theorem counted_katNoted (s : State) (nn p : Nat) : Counted s (missNoted (katNoted s nn p) nn) Obj.katRuns 1
    ∧ Counted s (missNoted (katNoted s nn p) nn) Obj.katFailures 1
    ∧ Counted s (missNoted (katNoted s nn p) nn) Obj.arrayMissEvents 1 := by
  refine ⟨?_, ?_, ?_⟩
  · rw [Counted, missNoted, katNoted, objGet_updArray, objGet_objInc_ne _ _ _ (by decide), objGet_updArray,
      objGet_journal _ _ _ _ (by decide) (by decide), objGet_objInc_ne _ _ _ (by decide), objGet_objInc_self]
  · rw [Counted, missNoted, katNoted, objGet_updArray, objGet_objInc_ne _ _ _ (by decide), objGet_updArray,
      objGet_journal _ _ _ _ (by decide) (by decide), objGet_objInc_self, objGet_objInc_ne _ _ _ (by decide)]
  · rw [Counted, missNoted, katNoted, objGet_updArray, objGet_objInc_self, objGet_updArray,
      objGet_journal _ _ _ _ (by decide) (by decide), objGet_objInc_ne _ _ _ (by decide), objGet_objInc_ne _ _ _ (by decide)]

theorem exec_katRun (nn : Nat) (f : Option Nat) (s : State) (hn : nn < 64) (hd : katDue s nn = true) :
    exec (.katRun nn f) s = .next (match f with
      | none => katPassed s nn
      | some p => katFailed s nn p) :=
  (need_lt hn _).trans (congrArg Host.Outcome.next (if_pos hd))

theorem katRun_idle (nn : Nat) (f : Option Nat) (s : State) (hn : nn < 64) (hd : katDue s nn = false) : exec (.katRun nn f) s = .next s :=
  (need_lt hn _).trans (congrArg Host.Outcome.next (if_neg (by rw [hd]; decide)))

theorem katRun_passed (nn : Nat) (s : State) (hn : nn < 64) (hl : s.arrays.length = 64) (hd : katDue s nn = true) :
    ∃ t, exec (.katRun nn none) s = .next t ∧ t = { s with dic := t.dic, arrays := t.arrays }
      ∧ arrayOf t nn = { arrayOf s nn with katLast := s.now, katFails := 0, katSeed := ((arrayOf s nn).katSeed + 1) % 256, active := none, standby := none }
      ∧ (∀ m, m ≠ nn → arrayOf t m = arrayOf s m) ∧ Counted s t Obj.katRuns 1 ∧ SameObjs s t [Obj.katRuns] := by
  refine ⟨katPassed s nn, exec_katRun nn none s hn hd, rfl, ?_, fun m hm => ?_, ?_, ?_⟩
  · exact arrayOf_updArray_self (objInc s Obj.katRuns) nn _ (by rw [show (objInc s Obj.katRuns).arrays = s.arrays from rfl, hl]; exact hn)
  · exact arrayOf_updArray_ne (objInc s Obj.katRuns) nn m _ hm
  · exact objGet_objInc_self s Obj.katRuns
  · exact ((SameObjs.refl s _).objInc _ List.mem_cons_self).of_dic rfl

theorem katDue_stopped {s : State} {nn : Nat} (h : katDue s nn = true) :
    (arrayOf s nn).run = none ∧ (arrayOf s nn).leaving = none ∧ arrayRetired s nn = false := by
  simp only [katDue, Bool.and_eq_true, Bool.not_eq_true', Option.isNone_iff_eq_none] at h
  obtain ⟨⟨⟨⟨-, hret⟩, hrun⟩, hleave⟩, -⟩ := h
  exact ⟨hrun, hleave, hret⟩

theorem arrays_journal (u : State) (e : JEvent) (as : List Nat) : (journal u e as).arrays = u.arrays :=
  journal_keeps State.arrays (fun _ _ => rfl) u e as

/-- The counts and the journal entry of a failed run. -/
def failTold (s : State) (nn p : Nat) : State :=
  journal (objInc (objInc s Obj.katRuns) Obj.katFailures) .katFailed [nn, (s.arrays.getD nn {}).katSeed, p]

theorem arrays_failTold (s : State) (nn p : Nat) : (failTold s nn p).arrays = s.arrays := arrays_journal _ _ _

theorem arrayRetired_noted {s t : State} {nn : Nat} (h : SameObjs s t katObjs) (hu : t.unretired = s.unretired) :
    arrayRetired t nn = arrayRetired s nn := by
  unfold arrayRetired
  rw [hu, h _ (by decide)]

theorem arrayOf_katNoted_self (s : State) (nn p : Nat) (h : nn < s.arrays.length) : arrayOf (katNoted s nn p) nn
    = { arrayOf s nn with katFails := (arrayOf s nn).katFails + 1, active := none, standby := none } := by
  refine (arrayOf_updArray_self (failTold s nn p) nn _ (by rw [arrays_failTold]; exact h)).trans ?_
  unfold arrayOf
  rw [arrays_failTold]

theorem arrayOf_katNoted_ne (s : State) (nn p m : Nat) (h : m ≠ nn) : arrayOf (katNoted s nn p) m = arrayOf s m := by
  refine (arrayOf_updArray_ne (failTold s nn p) nn m _ h).trans ?_
  unfold arrayOf
  rw [arrays_failTold]

theorem length_katNoted (s : State) (nn p : Nat) : (katNoted s nn p).arrays.length = s.arrays.length :=
  (List.length_modify _ _ _).trans (congrArg List.length (arrays_failTold s nn p))

theorem now_katNoted (s : State) (nn p : Nat) : (katNoted s nn p).now = s.now :=
  journal_keeps State.now (fun _ _ => rfl) (objInc (objInc s Obj.katRuns) Obj.katFailures) _ _

theorem arrayOf_missNoted_self (s : State) (nn : Nat) (h : nn < s.arrays.length) :
    arrayOf (missNoted s nn) nn = { arrayOf s nn with missTimes := missesOf s nn } :=
  arrayOf_updArray_self (objInc s Obj.arrayMissEvents) nn _ h

theorem arrayOf_missNoted_ne (s : State) (nn m : Nat) (h : m ≠ nn) : arrayOf (missNoted s nn) m = arrayOf s m :=
  arrayOf_updArray_ne (objInc s Obj.arrayMissEvents) nn m _ h

/-- A state with the objects, arrays and journal of another one. -/
def footKat (s t : State) : State := { s with dic := t.dic, arrays := t.arrays, obs := t.obs }

theorem footKat_self (s : State) : footKat s s = s := rfl

theorem footKat_missNoted (s t : State) (nn : Nat) : footKat (missNoted s nn) t = footKat s t := rfl

theorem footKat_failTold (s t : State) (nn p : Nat) : footKat (failTold s nn p) t = footKat s t :=
  journal_keeps (footKat · t) (fun _ _ => rfl) (objInc (objInc s Obj.katRuns) Obj.katFailures) _ _

theorem footKat_katNoted (s t : State) (nn p : Nat) : footKat (katNoted s nn p) t = footKat s t :=
  footKat_failTold s t nn p

theorem frame_katNoted (s : State) (nn p : Nat) : missNoted (katNoted s nn p) nn = { s with
    dic := (missNoted (katNoted s nn p) nn).dic, arrays := (missNoted (katNoted s nn p) nn).arrays
    obs := (missNoted (katNoted s nn p) nn).obs } :=
  (footKat_self _).symm.trans ((footKat_missNoted _ _ _).trans (footKat_katNoted _ _ _ _))

theorem logged_katNoted (s : State) (nn p : Nat) :
    Logged s (missNoted (katNoted s nn p) nn) .katFailed [nn, (arrayOf s nn).katSeed, p] false :=
  Logged.of_obs ((logged_journal (objInc (objInc s Obj.katRuns) Obj.katFailures) .katFailed
    [nn, (s.arrays.getD nn {}).katSeed, p]).of_view rfl) rfl

theorem missesOf_katNoted (s : State) (nn p : Nat) (hl : nn < s.arrays.length) (hm : (arrayOf s nn).missTimes.length < 2) :
    missesOf (katNoted s nn p) nn = (arrayOf s nn).missTimes ++ [s.now] := by
  have ha : ((katNoted s nn p).arrays.getD nn {}).missTimes = (arrayOf s nn).missTimes :=
    (congrArg ArrayUnit.missTimes (arrayOf_katNoted_self s nn p hl) :)
  unfold missesOf
  rw [ha, now_katNoted, show (arrayOf s nn).missTimes.length + 1 - 3 = 0 by omega, List.drop_zero]

theorem katRun_first (nn p : Nat) (s : State) (hn : nn < 64) (hl : s.arrays.length = 64) (hd : katDue s nn = true)
    (hk : (arrayOf s nn).katFails = 0) (hm : (arrayOf s nn).missTimes.length < 2) :
    ∃ t, exec (.katRun nn (some p)) s = .next t ∧ t = { s with dic := t.dic, arrays := t.arrays, obs := t.obs }
      ∧ arrayOf t nn = { arrayOf s nn with katFails := 1, missTimes := (arrayOf s nn).missTimes ++ [s.now], active := none, standby := none }
      ∧ (∀ m, m ≠ nn → arrayOf t m = arrayOf s m) ∧ Counted s t Obj.katRuns 1 ∧ Counted s t Obj.katFailures 1
      ∧ Counted s t Obj.arrayMissEvents 1 ∧ Logged s t .katFailed [nn, (arrayOf s nn).katSeed, p] false
      ∧ SameObjs s t ([Obj.katRuns, Obj.katFailures, Obj.arrayMissEvents] ++ journalObjs) := by
  have hlt : nn < s.arrays.length := by omega
  obtain ⟨hrun, hleave, -⟩ := katDue_stopped hd
  have hself := arrayOf_katNoted_self s nn p hlt
  have hmiss := missesOf_katNoted s nn p hlt hm
  have harr : arrayOf (missNoted (katNoted s nn p) nn) nn
      = { arrayOf s nn with katFails := 1, missTimes := (arrayOf s nn).missTimes ++ [s.now], active := none, standby := none } := by
    rw [arrayOf_missNoted_self _ _ (by rw [length_katNoted]; exact hlt), hself, hmiss, hk]
  have hnot : ¬ thirdMiss (katNoted s nn p) nn := by
    rintro ⟨h3, -⟩
    rw [hmiss, List.length_append, List.length_singleton] at h3
    omega
  have hev : missEvent (katNoted s nn p) nn = missNoted (katNoted s nn p) nn := by
    rcases missEvent_idle (katNoted s nn p) nn (by rw [hself]; exact hrun) (by rw [hself]; exact hleave) with h | h
    · exact absurd h.1 hnot
    · exact h.2
  have heq : katFailed s nn p = missNoted (katNoted s nn p) nn := by
    rw [katFailed_eq, hev, harr]
    exact if_neg (show ¬ 2 ≤ 1 by decide)
  obtain ⟨h1, h2, h3⟩ := counted_katNoted s nn p
  refine ⟨missNoted (katNoted s nn p) nn, (exec_katRun nn (some p) s hn hd).trans (congrArg Host.Outcome.next heq),
    frame_katNoted s nn p, harr, fun m hm => ?_, h1, h2, h3, logged_katNoted s nn p, sameObjs_katNoted s nn p⟩
  rw [arrayOf_missNoted_ne _ _ _ hm, arrayOf_katNoted_ne _ _ _ _ hm]

/-- A failed run ends either where its miss event was noted, or in the retirement of its array there. -/
theorem katFailed_cases (nn p : Nat) (s : State) (hl : nn < s.arrays.length) (hd : katDue s nn = true) :
    katFailed s nn p = missNoted (katNoted s nn p) nn ∧ (arrayOf s nn).katFails = 0
    ∨ katFailed s nn p = retireArray (missNoted (katNoted s nn p) nn) nn ∧ Gone (katFailed s nn p) nn := by
  obtain ⟨hrun, hleave, hret⟩ := katDue_stopped hd
  have hself := arrayOf_katNoted_self s nn p hl
  have hlen : nn < (katNoted s nn p).arrays.length := by rw [length_katNoted]; exact hl
  have hun : (missNoted (katNoted s nn p) nn).unretired = s.unretired := (congrArg State.unretired (frame_katNoted s nn p) :)
  have hgone := gone_retireArray (missNoted (katNoted s nn p) nn) nn
    ((arrayRetired_noted (sameObjs_katNoted s nn p) hun).trans hret) (by rw [missNoted, updArray]; exact (List.length_modify _ _ _).symm ▸ hlen)
  rw [katFailed_eq]
  rcases missEvent_idle (katNoted s nn p) nn (by rw [hself]; exact hrun) (by rw [hself]; exact hleave) with ⟨-, h⟩ | ⟨-, h⟩
  · right
    rw [h, retireArray_gone hgone, ite_self]
    exact ⟨rfl, hgone⟩
  · have hf : (arrayOf (missNoted (katNoted s nn p) nn) nn).katFails = (arrayOf s nn).katFails + 1 := by
      rw [arrayOf_missNoted_self _ _ hlen, hself]
    rw [h, hf]
    by_cases hk : (arrayOf s nn).katFails = 0
    · exact Or.inl ⟨if_neg (by omega), hk⟩
    · rw [if_pos (by omega)]
      exact Or.inr ⟨rfl, hgone⟩

theorem counted_trans {s t u : State} {k n : Nat} {ks : List Nat} (h : Counted s t k n) (hs : SameObjs t u ks) (hk : k ∉ ks) :
    Counted s u k n := (hs k hk).trans h

theorem katRun_failed (nn p : Nat) (s : State) (hn : nn < 64) (hl : s.arrays.length = 64) (hd : katDue s nn = true) :
    ∃ t, exec (.katRun nn (some p)) s = .next t
      ∧ t = { s with free := t.free, out := t.out, dic := t.dic, arrays := t.arrays, vecs := t.vecs, layers := t.layers
                     tile := t.tile, tilePoison := t.tilePoison, lpddr := t.lpddr, lpddrPoison := t.lpddrPoison
                     lpddrBad := t.lpddrBad, chans := t.chans, claims := t.claims, queues := t.queues, sync := t.sync
                     waiters := t.waiters, routerW := t.routerW, routerE := t.routerE, outst := t.outst, nextTag := t.nextTag
                     host := t.host, obs := t.obs }
      ∧ Counted s t Obj.katRuns 1 ∧ Counted s t Obj.katFailures 1 ∧ Counted s t Obj.arrayMissEvents 1
      ∧ (0 < (arrayOf s nn).katFails → natBit nn (objGet t Obj.arrayRetiredMap) = true
        ∧ (arrayOf t nn).banks = [[], []] ∧ (arrayOf t nn).trees = [[], []] ∧ (arrayOf t nn).fifo = [] ∧ (vecOf t nn).fifo = []) := by
  obtain ⟨h1, h2, h3⟩ := counted_katNoted s nn p
  refine ⟨katFailed s nn p, exec_katRun nn (some p) s hn hd, (foot22_0_self _).symm.trans
    (katFailed_keeps (foot22_0 · (katFailed s nn p)) (fun _ _ => rfl) s nn p), ?_⟩
  rcases katFailed_cases nn p s (by omega) hd with ⟨h, hk⟩ | ⟨h, hgone⟩
  · rw [h]
    exact ⟨h1, h2, h3, fun hpos => absurd hk (by omega)⟩
  · have hs := sameObjs_retireArray (missNoted (katNoted s nn p) nn) nn
    rw [← h] at hs
    exact ⟨counted_trans h1 hs (by decide), counted_trans h2 hs (by decide), counted_trans h3 hs (by decide), fun _ => hgone⟩

end Sys2Proof.Machine

/-!
The checkpoint assist (R373 to R375, O47): what the area holds after the copy, and what a restore reads back.
-/

namespace Sys2Proof.Machine

/-! ### Numbers as bytes, and runs of bytes -/

theorem leNat_natLe (k n : Nat) : leNat (natLe k n) = n % 256 ^ k := by
  induction k generalizing n with
  | zero => simp [natLe, leNat, Nat.mod_one]
  | succ k ih =>
    have h : n % (256 * 256 ^ k) = n % 256 + 256 * (n / 256 % 256 ^ k) := Nat.mod_mul
    rw [natLe, leNat, ih, BitVec.toNat_ofNat, Nat.pow_succ 256, Nat.mul_comm (256 ^ k), h]

theorem leNat_lt (bs : Bytes) : leNat bs < 256 ^ bs.length := by
  induction bs with
  | nil => exact Nat.one_pos
  | cons b bs ih =>
    have hb := b.isLt
    rw [leNat, List.length_cons, Nat.pow_succ]
    omega

theorem memBytes_length (m : Mem) (a n : Nat) : (memBytes m a n).length = n := by
  induction n generalizing a with
  | zero => rfl
  | succ n ih => rw [memBytes, List.length_cons, ih]

theorem memBytes_congr {m m' : Mem} {a n : Nat} (h : ∀ i, i < n → memRead m (a + i) = memRead m' (a + i)) :
    memBytes m a n = memBytes m' a n := by
  induction n generalizing a with
  | zero => rfl
  | succ n ih =>
    rw [memBytes, memBytes, show memRead m a = memRead m' a from h 0 (Nat.succ_pos n)]
    exact congrArg _ (ih (fun i hi => by
      have := h (i + 1) (by omega)
      rwa [show a + (i + 1) = a + 1 + i by omega] at this))

theorem memBytes_memStore (m : Mem) (a : Nat) (bs : Bytes) : memBytes (memStore m a bs) a bs.length = bs := by
  induction bs generalizing m a with
  | nil => rfl
  | cons b bs ih =>
    rw [memStore, List.length_cons, memBytes, ih, memRead_memStore_out _ _ _ _ (by omega), memRead_memWrite_self]

theorem memBytes_memStore_front (m : Mem) (a : Nat) (x y : Bytes) : memBytes (memStore m a (x ++ y)) a x.length = x := by
  rw [memStore_append]
  refine Eq.trans (memBytes_congr fun i hi => ?_) (memBytes_memStore m a x)
  exact memRead_memStore_out _ _ _ _ (by omega)

theorem memBytes_zero {m : Mem} {a : Nat} (n : Nat) (h : ∀ i, i < n → memRead m (a + i) = emptyByte) : leNat (memBytes m a n) = 0 := by
  induction n generalizing a with
  | zero => rfl
  | succ n ih =>
    rw [memBytes, leNat, show memRead m a = emptyByte from h 0 (Nat.succ_pos n), ih (fun i hi => by
      have := h (i + 1) (by omega)
      rwa [show a + (i + 1) = a + 1 + i by omega] at this)]
    rfl

/-! ### The bytes that a run of stores leaves -/

theorem SameBytesBut.trans {m m' m'' : Mem} {a n : Nat} (h : SameBytesBut m m' a n) (h' : SameBytesBut m' m'' a n) :
    SameBytesBut m m'' a n := fun x hx => (h' x hx).trans (h x hx)

theorem SameBytesBut.mono {m m' : Mem} {a n a' n' : Nat} (h : SameBytesBut m m' a n) (h1 : a' ≤ a) (h2 : a + n ≤ a' + n') :
    SameBytesBut m m' a' n' := fun x hx => h x (by omega)

theorem sameBytesBut_memStore (m : Mem) (a : Nat) (bs : Bytes) : SameBytesBut m (memStore m a bs) a bs.length :=
  fun x hx => memRead_memStore_out m a x bs hx

theorem sameBytesBut_foldl {α : Type} (f : Mem → α → Mem) (l : List α) (a n : Nat)
    (h : ∀ m, ∀ e ∈ l, SameBytesBut m (f m e) a n) (m : Mem) : SameBytesBut m (l.foldl f m) a n := by
  induction l generalizing m with
  | nil => exact sameBytesBut_refl m a n
  | cons e l ih =>
    exact SameBytesBut.trans (h m e List.mem_cons_self) (ih (fun m x hx => h m x (List.mem_cons_of_mem e hx)) _)

/-! ### Cells spliced, moved and sliced -/

theorem smGet_append {α : Type} (a b : SMap α) (k : Nat) : smGet (a ++ b) k = (smGet a k).or (smGet b k) := by
  induction a with
  | nil => rfl
  | cons e a ih =>
    obtain ⟨j, v⟩ := e
    by_cases h : k = j
    · simp [smGet, h]
    · simp [smGet, h, ih]

theorem memRead_memSplice (m cells : Mem) (lo hi x : Nat) (hl : lo ≤ hi) :
    memRead (memSplice m lo hi cells) x = if lo ≤ x ∧ x < hi then memRead cells x else memRead m x := by
  have hin : smGet (cells.filter (fun c => decide (lo ≤ c.1) && decide (c.1 < hi))) x
      = if (decide (lo ≤ x) && decide (x < hi)) = true then smGet cells x else none :=
    smGet_filter cells (fun k => decide (lo ≤ k) && decide (k < hi)) x
  have hlo : smGet (m.filter (fun c => decide (c.1 < lo))) x = if decide (x < lo) = true then smGet m x else none :=
    smGet_filter m (fun k => decide (k < lo)) x
  have hhi : smGet (m.filter (fun c => decide (hi ≤ c.1))) x = if decide (hi ≤ x) = true then smGet m x else none :=
    smGet_filter m (fun k => decide (hi ≤ k)) x
  unfold memRead smGetD memSplice
  rw [smGet_append, smGet_append, hin, hlo, hhi]
  by_cases h1 : x < lo
  · simp [h1, show ¬ lo ≤ x by omega, show ¬ hi ≤ x by omega]
  · by_cases h2 : x < hi
    · simp [h1, h2, show lo ≤ x by omega, show ¬ hi ≤ x by omega]
    · simp [h1, h2, show hi ≤ x by omega]

theorem memRead_moved (m : Mem) (d x : Nat) : memRead (m.map (fun c => (d + c.1, c.2))) (d + x) = memRead m x := by
  unfold memRead smGetD
  congr 1
  induction m with
  | nil => rfl
  | cons e m ih => simp [smGet, ih]

theorem smGet_movedDown {α : Type} (m : SMap α) (d x : Nat) (h : ∀ c ∈ m, d ≤ c.1) :
    smGet (m.map (fun c => (c.1 - d, c.2))) x = smGet m (d + x) := by
  induction m with
  | nil => rfl
  | cons e m ih =>
    have he := h e List.mem_cons_self
    rw [List.map_cons, smGet, smGet, ih (fun c hc => h c (List.mem_cons_of_mem e hc))]
    congr 1
    exact propext ⟨fun hx => by omega, fun hx => by omega⟩

theorem memRead_memSlice (m : Mem) (lo n x : Nat) (h1 : lo ≤ x) (h2 : x < lo + n) : memRead (memSlice m lo n) x = memRead m x := by
  unfold memRead smGetD memSlice
  rw [smGet_filter m (fun k => decide (lo ≤ k) && decide (k < lo + n)) x]
  simp [h1, h2]

theorem memRead_slicedDown (m : Mem) (lo n x : Nat) (h : x < n) :
    memRead ((memSlice m lo n).map (fun c => (c.1 - lo, c.2))) x = memRead m (lo + x) := by
  have hlo : ∀ c ∈ memSlice m lo n, lo ≤ c.1 := fun c hc => by
    simp only [memSlice, List.mem_filter, Bool.and_eq_true, decide_eq_true_eq] at hc
    exact hc.2.1
  rw [← memRead_memSlice m lo n (lo + x) (by omega) (by omega)]
  unfold memRead smGetD
  rw [smGet_movedDown _ _ _ hlo]

theorem smGet_mem {α : Type} {m : SMap α} {k : Nat} {v : α} (h : smGet m k = some v) : (k, v) ∈ m := by
  induction m with
  | nil => exact absurd h (by simp [smGet])
  | cons e m ih =>
    obtain ⟨j, w⟩ := e
    by_cases hk : k = j
    · rw [smGet, if_pos hk, Option.some.injEq] at h
      rw [hk, h]
      exact List.mem_cons_self
    · rw [smGet, if_neg hk] at h
      exact List.mem_cons_of_mem _ (ih h)

theorem smGet_foldl_smSet {α : Type} (f : Nat → α) (l : List Nat) (m : SMap α) (k : Nat) :
    smGet (l.foldl (fun m k => smSet m k (f k)) m) k = if k ∈ l then some (f k) else smGet m k := by
  induction l generalizing m with
  | nil => simp
  | cons j l ih =>
    rw [List.foldl_cons, ih]
    by_cases hk : k ∈ l
    · simp [hk]
    · by_cases hj : k = j
      · subst hj; simp [hk]
      · simp [hk, hj, smGet_smSet_ne _ _ _ _ hj]

/-- A record of 8 bytes in a slice with none of its bytes listed reads as 0. -/
theorem record_unlisted (m : Mem) (lo i : Nat) (n : Nat) (hi : 8 * i + 8 ≤ n) (h : i ∉ recordsIn (memSlice m lo n) lo 8) :
    leNat (memBytes m (lo + 8 * i) 8) = 0 := by
  refine memBytes_zero 8 (fun j hj => ?_)
  rw [← memRead_memSlice m lo n _ (by omega) (by omega)]
  cases hg : smGet (memSlice m lo n) (lo + 8 * i + j) with
  | none => unfold memRead smGetD; rw [hg]; rfl
  | some v =>
    refine absurd ?_ h
    unfold recordsIn
    rw [List.mem_dedup, List.mem_map]
    exact ⟨_, smGet_mem hg, by show (lo + 8 * i + j - lo) / 8 = i; omega⟩

/-! ### The states of a checkpoint (R373) -/

/-- What a write of CheckpointNow answers but ok. -/
def ckptRule (s : State) (n : Nat) : Nat :=
  if n ≠ 1 then 0
  else if objGet s Obj.moduleState = 4 ∨ s.seqs.ckptStep ≠ 0 then 0x07
  else if !isReady s then 0x0B else 0

/-- A checkpoint begins. -/
def ckptBegun (s : State) : State :=
  objPut (updSeqs s (fun q => { q with ckptStep := 2, ckptSince := s.now })) Obj.checkpointState 1

section
variable {r : Route} {v : Bytes} {s : State} {role : Role} {row : ObjRow} {s0 : State}

theorem exec_checkpointNow (h : WriteReady s r false Obj.checkpointNow v role row s0) : exec (.checkpointNow r v) s
    = .next (answered s r Obj.checkpointNow (ownAnswer s0 r role row Obj.checkpointNow (leNat v) ckptRule
        (fun s n => if n = 1 then ckptBegun s else s))) :=
  congrArg Host.Outcome.next (writeRow_ready s r Obj.checkpointNow v false role row s0 _ _ h)

theorem checkpointNow_refused (h : WriteReady s r false Obj.checkpointNow v role row s0) (n : Nat) (h1 : ckptRule s0 (leNat v) = n)
    (hn : n ≠ 0) : exec (.checkpointNow r v) s = .next (answered s r Obj.checkpointNow ⟨s0, n, []⟩) := by
  subst h1
  rw [exec_checkpointNow h, ownAnswer_refused _ _ _ _ _ _ _ _ hn]

theorem checkpointNow_taken (h : WriteReady s r false Obj.checkpointNow v role row s0) (hr : ckptRule s0 (leNat v) = 0) :
    exec (.checkpointNow r v) s = .next (answered s r Obj.checkpointNow
      ⟨if leNat v = 1 then ckptBegun (applyNum s0 r role row Obj.checkpointNow (leNat v))
        else applyNum s0 r role row Obj.checkpointNow (leNat v), 0, []⟩) := by
  rw [exec_checkpointNow h, ownAnswer_taken _ _ _ _ _ _ _ _ hr]

theorem row_checkpointNow (h : WriteReady s r false Obj.checkpointNow v role row s0) : row.access = .wo := by
  have hrow : (objRow Obj.checkpointNow).map ObjRow.access = some .wo := by decide
  obtain ⟨-, hnum⟩ := h
  rw [numCheck_row hnum] at hrow
  exact Option.some.inj hrow

theorem ckptBegun_applied (hw : row.access = .wo) :
    ckptBegun (applyNum s0 r role row Obj.checkpointNow 1) = { applyNum s0 r role row Obj.checkpointNow 1 with
        dic := (ckptBegun (applyNum s0 r role row Obj.checkpointNow 1)).dic
        seqs := { s0.seqs with ckptStep := 2, ckptSince := s0.now } }
      ∧ objGet (ckptBegun (applyNum s0 r role row Obj.checkpointNow 1)) Obj.checkpointState = 1
      ∧ SameObjs s0 (ckptBegun (applyNum s0 r role row Obj.checkpointNow 1)) (Obj.checkpointState :: journalObjs) := by
  have hobjs := sameObjs_applyNum_wo s0 r role row Obj.checkpointNow 1 hw
  have hseqs : (applyNum s0 r role row Obj.checkpointNow 1).seqs = s0.seqs :=
    applyNum_keeps State.seqs (fun _ _ => rfl) s0 r role row Obj.checkpointNow 1
  have hnow : (applyNum s0 r role row Obj.checkpointNow 1).now = s0.now :=
    applyNum_keeps State.now (fun _ _ => rfl) s0 r role row Obj.checkpointNow 1
  rw [← hseqs, ← hnow]
  generalize applyNum s0 r role row Obj.checkpointNow 1 = a at *
  refine ⟨rfl, objGet_objPut_self _ _ _, ?_⟩
  exact SameObjs.objPut ((hobjs.mono (List.subset_cons_self _ _)).of_dic rfl) _ _ List.mem_cons_self

theorem checkpointNow_holds (h : WriteReady s r false Obj.checkpointNow v role row s0) :
    (leNat v = 0 → exec (.checkpointNow r v) s = .next (answered s r Obj.checkpointNow ⟨applyNum s0 r role row Obj.checkpointNow 0, 0, []⟩))
    ∧ (leNat v = 1 → objGet s0 Obj.moduleState = 4 ∨ s0.seqs.ckptStep ≠ 0 →
      exec (.checkpointNow r v) s = .next (answered s r Obj.checkpointNow ⟨s0, 0x07, []⟩))
    ∧ (leNat v = 1 → objGet s0 Obj.moduleState ≠ 4 → objGet s0 Obj.moduleState ≠ 1 → s0.seqs.ckptStep = 0 →
      exec (.checkpointNow r v) s = .next (answered s r Obj.checkpointNow ⟨s0, 0x0B, []⟩))
    ∧ (leNat v = 1 → objGet s0 Obj.moduleState = 1 → s0.seqs.ckptStep = 0 →
      ∃ u, exec (.checkpointNow r v) s = .next (answered s r Obj.checkpointNow ⟨u, 0, []⟩)
        ∧ u = { applyNum s0 r role row Obj.checkpointNow 1 with
          dic := u.dic, seqs := { s0.seqs with ckptStep := 2, ckptSince := s0.now } }
        ∧ objGet u Obj.checkpointState = 1 ∧ SameObjs s0 u (Obj.checkpointState :: journalObjs)) := by
  refine ⟨fun h0 => ?_, fun h1 hb => ?_, fun h1 h4 hr hc => ?_, fun h1 hr hc => ?_⟩
  · rw [checkpointNow_taken h (if_pos (by omega)), h0]
    rfl
  · refine checkpointNow_refused h 7 ?_ (by decide)
    rw [ckptRule, if_neg (by omega), if_pos hb]
  · refine checkpointNow_refused h 0x0B ?_ (by decide)
    rw [ckptRule, if_neg (by omega), if_neg (by simp [h4, hc]), if_pos (by simp [isReady, hr])]
  · refine ⟨ckptBegun (applyNum s0 r role row Obj.checkpointNow 1), ?_, ckptBegun_applied (row_checkpointNow h)⟩
    rw [checkpointNow_taken h (by rw [ckptRule, if_neg (by omega), if_neg (by simp [hr, hc]), if_neg (by simp [isReady, hr])]), h1]
    rfl

end

theorem natBit_clearNatBit (i n : Nat) : natBit i (clearNatBit i n) = false := by
  unfold clearNatBit
  split
  · rename_i h
    obtain ⟨c, hc⟩ : ∃ c, n = c + 2 ^ i := ⟨n - 2 ^ i, by
      have : 2 ^ i ≤ n := by
        by_contra hlt
        rw [natBit, Nat.div_eq_of_lt (by omega)] at h
        exact absurd h (by decide)
      omega⟩
    rw [hc] at h ⊢
    rw [Nat.add_sub_cancel]
    unfold natBit at h ⊢
    rw [Nat.add_div_right _ (Nat.two_pow_pos i), beq_iff_eq] at h
    simp only [beq_eq_false_iff_ne, ne_eq]
    omega
  · rename_i h
    simpa using h

theorem clearNatBit_le (i n : Nat) : clearNatBit i n ≤ n := by
  unfold clearNatBit
  split
  · exact Nat.sub_le _ _
  · exact Nat.le_refl _

theorem ckptHeader_lt (s : State) : ckptHeader s < 256 ^ 8 := by
  have h := leNat_lt (memBytes s.lpddr (objGet s Obj.checkpointBase) 8)
  rwa [memBytes_length] at h

/-- A header of 8 bytes at the area's base is the header that is read. -/
theorem header_stored (m : Mem) (a n : Nat) (rest : Bytes) (h : n < 256 ^ 8) :
    leNat (memBytes (memStore m a (natLe 8 n ++ rest)) a 8) = n := by
  have hl := memBytes_memStore_front m a (natLe 8 n) rest
  rw [natLe_length] at hl
  rw [hl, leNat_natLe, Nat.mod_eq_of_lt h]

/-- All is quiet: the header says so no more. -/
def quieted (s : State) : State :=
  updSeqs { s with lpddr := memStore s.lpddr (ckptBase s) (natLe 8 (clearNatBit 32 (ckptHeader s))) } (fun q => { q with ckptStep := 3 })

theorem ckptHeader_quieted (s : State) : ckptHeader (quieted s) = clearNatBit 32 (ckptHeader s) := by
  have h := header_stored s.lpddr (ckptBase s) (clearNatBit 32 (ckptHeader s)) []
    (Nat.lt_of_le_of_lt (clearNatBit_le _ _) (ckptHeader_lt s))
  rw [List.append_nil] at h
  exact h

theorem checkpointQuiesced_holds (s : State) :
    (s.seqs.ckptStep ≠ 2 ∨ quiet s = false → exec .checkpointQuiesced s = .next s)
    ∧ (s.seqs.ckptStep = 2 → quiet s = true →
      ∃ t, exec .checkpointQuiesced s = .next t ∧ t = { s with lpddr := t.lpddr, seqs := { s.seqs with ckptStep := 3 } }
        ∧ natBit 32 (ckptHeader t) = false ∧ SameBytesBut s.lpddr t.lpddr (ckptBase s) 8) := by
  refine ⟨fun h => congrArg Host.Outcome.next (if_neg ?_), fun h2 hq => ?_⟩
  · rintro ⟨h2, hq⟩
    rcases h with h | h
    · exact h h2
    · rw [hq] at h; exact Bool.noConfusion h
  · refine ⟨quieted s, congrArg Host.Outcome.next (if_pos ⟨h2, hq⟩), rfl, ?_, ?_⟩
    · rw [ckptHeader_quieted, natBit_clearNatBit]
    · have h := sameBytesBut_memStore s.lpddr (ckptBase s) (natLe 8 (clearNatBit 32 (ckptHeader s)))
      rwa [natLe_length] at h

/-- A checkpoint that was not quiet in time. -/
def ckptFailed (s : State) : State :=
  journal (objPut (updSeqs s (fun q => { q with ckptStep := 0 })) Obj.checkpointState 3) .checkpointFailed [s.seqs.ckptStep]

theorem checkpointQuiesceTimeout_holds (s : State) :
    (s.seqs.ckptStep ≠ 2 ∨ s.now < s.seqs.ckptSince + ms (objGet s Obj.checkpointQuiesceMs) →
      exec .checkpointQuiesceTimeout s = .next s)
    ∧ (s.seqs.ckptStep = 2 → s.seqs.ckptSince + ms (objGet s Obj.checkpointQuiesceMs) ≤ s.now →
      ∃ u, exec .checkpointQuiesceTimeout s = .next (takeDoorbells u)
        ∧ u = { s with dic := u.dic, seqs := { s.seqs with ckptStep := 0 }, obs := u.obs } ∧ objGet u Obj.checkpointState = 3
        ∧ Logged s u .checkpointFailed [2] false ∧ SameObjs s u (Obj.checkpointState :: journalObjs)) := by
  refine ⟨fun h => congrArg Host.Outcome.next (if_neg (by omega)), fun h2 ht => ?_⟩
  have hex : exec .checkpointQuiesceTimeout s = .next (failCheckpoint s) := congrArg Host.Outcome.next (if_pos ⟨h2, ht⟩)
  have hf : failCheckpoint s = takeDoorbells (ckptFailed s) := if_neg (by omega)
  refine ⟨ckptFailed s, hex.trans (congrArg _ hf), ?_, ?_, ?_, ?_⟩
  · exact (footDicObs_self _).symm.trans (journal_keeps (footDicObs · (ckptFailed s)) (fun _ _ => rfl) _ _ _)
  · exact (objGet_journal _ _ _ _ (by decide) (by decide)).trans (objGet_objPut_self _ _ _)
  · have hl := logged_journal (objPut (updSeqs s (fun q => { q with ckptStep := 0 })) Obj.checkpointState 3) .checkpointFailed
      [s.seqs.ckptStep]
    rw [h2] at hl
    unfold ckptFailed
    rw [h2]
    exact hl.of_view rfl
  · have h0 : SameObjs s (updSeqs s (fun q => { q with ckptStep := 0 })) (Obj.checkpointState :: journalObjs) := fun _ _ => rfl
    exact (h0.objPut _ _ List.mem_cons_self).journal _ _ (List.subset_cons_self _ _)

/-! ### The area (R374) -/

theorem length_flatMap_of {α β : Type} (l : List α) (f : α → List β) (c : Nat) (h : ∀ x ∈ l, (f x).length = c) :
    (l.flatMap f).length = l.length * c := by
  rw [List.length_flatMap, List.map_congr_left h, List.map_const', List.sum_replicate, smul_eq_mul]

theorem escImage_length (s : State) : (escImage s).length = 16384 := by
  refine (length_flatMap_of _ _ 4 fun i _ => natLe_length _ _).trans ?_
  rw [List.length_range]

theorem treeImage_length (x : Option BankMeta) (t : Tree) : (treeImage x t).length = 136 := by
  unfold treeImage
  rw [List.length_append, natLe_length, length_flatMap_of _ _ 8 fun i _ => ?_, List.length_range]
  split <;> exact natLe_length _ _

/-- An array's banks and trees fit their places in the area. -/
def FitsArea (a : ArrayUnit) : Prop :=
  ∀ b, (∀ e ∈ a.banks.getD b [], e.1 < 65536) ∧ (∀ e ∈ a.trees.getD b [], e.1 < 2048)

theorem sameBytesBut_storeBank (base : Nat) (m : Mem) (x : ArrayUnit × Nat) (hx : x.2 < 64) (hf : FitsArea x.1) :
    SameBytesBut m (storeBank base m x) (base + areaBanks) 0x4200000 := by
  unfold storeBank
  refine sameBytesBut_foldl _ _ _ _ (fun m b hb => ?_) m
  obtain ⟨hbank, htree⟩ := hf b
  have hb2 : b < 2 := List.mem_range.1 hb
  refine SameBytesBut.trans (sameBytesBut_foldl _ _ _ _ (fun m e he => ?_) m) (sameBytesBut_foldl _ _ _ _ (fun m e he => ?_) _)
  · have h := sameBytesBut_memStore m (base + areaBanks + (2 * x.2 + b) * bankBytes + 4 * e.1) (natLe 4 e.2.value.toNat)
    have hk := hbank e he
    rw [natLe_length] at h
    exact SameBytesBut.mono h (by omega) (by unfold bankBytes; omega)
  · have h := sameBytesBut_memStore m (base + areaTrees + (2 * x.2 + b) * treeBytes + 136 * e.1)
      (treeImage (x.1.bankMeta.getD b none) e.2)
    have hk := htree e he
    rw [treeImage_length] at h
    exact SameBytesBut.mono h (by unfold areaTrees areaBanks; omega) (by unfold areaTrees areaBanks treeBytes; omega)

/-- The memory with the tile store, the escalation entries, the synchronisation objects and the banks in the area. -/
def areaTiled (s : State) : Mem :=
  memSplice s.lpddr (ckptBase s) (ckptBase s + ckptSize) (s.tile.map (fun c => (ckptBase s + areaTile + c.1, c.2)))

def areaSynced (s : State) : Mem :=
  s.sync.foldl (fun m e => memStore m (ckptBase s + areaSync + 8 * e.1) (natLe 8 e.2.toNat))
    (memStore (areaTiled s) (ckptBase s + areaEsc) (escImage s))

def areaBanked (s : State) : Mem := s.arrays.zipIdx.foldl (storeBank (ckptBase s)) (areaSynced s)

/-- What follows the epoch in the header. -/
def headerRest (s : State) : Bytes := natLe 8 (chip s) ++ natLe 8 (objGet s Obj.arrayRetiredMap) ++ natLe 8 (objGet s Obj.firmwareVersion)

theorem lpddr_copyOut (s : State) (epoch : Nat) :
    (copyOut s epoch).lpddr = memStore (areaBanked s) (ckptBase s) (natLe 8 (epoch + 2 ^ 32) ++ headerRest s) := by
  simp only [headerRest, ← List.append_assoc]
  rfl

theorem headerRest_length (s : State) : (headerRest s).length = 24 := by simp [headerRest, natLe_length]

/-- The objects and banks lie on either side of the tile store's copy. -/
theorem sameBytesBut_areaSynced (s : State) (hs : ∀ e ∈ s.sync, e.1 < 32768) :
    SameBytesBut (areaTiled s) (areaSynced s) (ckptBase s + areaEsc) 0x44000 := by
  have hesc := sameBytesBut_memStore (areaTiled s) (ckptBase s + areaEsc) (escImage s)
  rw [escImage_length] at hesc
  refine SameBytesBut.trans (SameBytesBut.mono hesc (Nat.le_refl _) (by omega)) (sameBytesBut_foldl _ _ _ _ (fun m e he => ?_) _)
  have h := sameBytesBut_memStore m (ckptBase s + areaSync + 8 * e.1) (natLe 8 e.2.toNat)
  have hk := hs e he
  rw [natLe_length] at h
  exact SameBytesBut.mono h (by unfold areaSync areaEsc; omega) (by unfold areaSync areaEsc; omega)

theorem sameBytesBut_areaBanked (s : State) (hl : s.arrays.length = 64) (hf : ∀ a ∈ s.arrays, FitsArea a) :
    SameBytesBut (areaSynced s) (areaBanked s) (ckptBase s + areaBanks) 0x4200000 := by
  refine sameBytesBut_foldl _ _ _ _ (fun m x hx => ?_) _
  obtain ⟨a, n⟩ := x
  have hn := List.mem_zipIdx hx
  refine sameBytesBut_storeBank _ m (a, n) (by show n < 64; omega) (hf a (List.fst_mem_of_mem_zipIdx hx))

theorem sameBytesBut_copyOut_header (s : State) (epoch : Nat) :
    SameBytesBut (areaBanked s) (copyOut s epoch).lpddr (ckptBase s) 32 := by
  have h := sameBytesBut_memStore (areaBanked s) (ckptBase s) (natLe 8 (epoch + 2 ^ 32) ++ headerRest s)
  rw [lpddr_copyOut]
  rwa [List.length_append, natLe_length, headerRest_length] at h

section
variable {s : State} (hl : s.arrays.length = 64) (hf : ∀ a ∈ s.arrays, FitsArea a) (hs : ∀ e ∈ s.sync, e.1 < 32768) (epoch : Nat)
include hl hf hs

theorem sameBytesBut_copyOut : SameBytesBut s.lpddr (copyOut s epoch).lpddr (ckptBase s) ckptSize := by
  have htile : SameBytesBut s.lpddr (areaTiled s) (ckptBase s) ckptSize := fun x hx => by
    rw [areaTiled, memRead_memSplice _ _ _ _ _ (Nat.le_add_right _ _), if_neg (by omega)]
  have hsync : SameBytesBut (areaTiled s) (areaSynced s) (ckptBase s) ckptSize :=
    SameBytesBut.mono (sameBytesBut_areaSynced s hs) (by omega) (by unfold areaEsc ckptSize; omega)
  have hbank : SameBytesBut (areaSynced s) (areaBanked s) (ckptBase s) ckptSize :=
    SameBytesBut.mono (sameBytesBut_areaBanked s hl hf) (by omega) (by unfold areaBanks ckptSize; omega)
  have hhead : SameBytesBut (areaBanked s) (copyOut s epoch).lpddr (ckptBase s) ckptSize :=
    SameBytesBut.mono (sameBytesBut_copyOut_header s epoch) (by omega) (by unfold ckptSize; omega)
  exact SameBytesBut.trans htile (SameBytesBut.trans hsync (SameBytesBut.trans hbank hhead))

theorem tile_copyOut (i : Nat) (hi : i < tileSize) :
    memRead (copyOut s epoch).lpddr (ckptBase s + areaTile + i) = memRead s.tile i := by
  have hti : tileSize = 0x24000000 := rfl
  rw [sameBytesBut_copyOut_header s epoch _ (by unfold areaTile; omega),
    sameBytesBut_areaBanked s hl hf _ (by unfold areaTile areaBanks; omega),
    sameBytesBut_areaSynced s hs _ (by unfold areaTile areaEsc; omega), areaTiled,
    memRead_memSplice _ _ _ _ _ (Nat.le_add_right _ _), if_pos (by unfold areaTile ckptSize; omega), memRead_moved]

end

/-- The copy is complete: the state before the doorbells are taken. -/
def ckptCopied (s : State) : State :=
  objPut (objPut (updSeqs (copyOut s ((objGet s Obj.checkpointEpoch + 1) % 2 ^ 32)) (fun q => { q with ckptStep := 0 }))
    Obj.checkpointEpoch ((objGet s Obj.checkpointEpoch + 1) % 2 ^ 32)) Obj.checkpointState 2

theorem frame_ckptCopied (s : State) : ckptCopied s = { s with
    dic := (ckptCopied s).dic, lpddr := (ckptCopied s).lpddr, lpddrPoison := (ckptCopied s).lpddrPoison
    lpddrBad := (ckptCopied s).lpddrBad, seqs := { s.seqs with ckptStep := 0 } } := by
  unfold ckptCopied
  generalize (objGet s Obj.checkpointEpoch + 1) % 2 ^ 32 = e
  have hu : copyOut s e = { s with lpddr := (copyOut s e).lpddr, lpddrPoison := (copyOut s e).lpddrPoison
                                   lpddrBad := (copyOut s e).lpddrBad } := rfl
  generalize (copyOut s e).lpddr = l, (copyOut s e).lpddrPoison = p, (copyOut s e).lpddrBad = b at hu
  rw [hu]
  rfl

theorem objs_ckptCopied (s : State) :
    objGet (ckptCopied s) Obj.checkpointEpoch = (objGet s Obj.checkpointEpoch + 1) % 2 ^ 32
      ∧ objGet (ckptCopied s) Obj.checkpointState = 2
      ∧ SameObjs s (ckptCopied s) [Obj.checkpointEpoch, Obj.checkpointState] := by
  refine ⟨?_, objGet_objPut_self _ _ _, ?_⟩
  · rw [ckptCopied, objGet_objPut_ne _ _ _ _ (by decide), objGet_objPut_self]
  · have h0 (e : Nat) : SameObjs s (updSeqs (copyOut s e) (fun q => { q with ckptStep := 0 })) [Obj.checkpointEpoch, Obj.checkpointState] :=
      fun _ _ => rfl
    exact ((h0 _).objPut _ _ (by decide)).objPut _ _ (by decide)

theorem lpddr_ckptCopied (s : State) : (ckptCopied s).lpddr = (copyOut s ((objGet s Obj.checkpointEpoch + 1) % 2 ^ 32)).lpddr := rfl

theorem ckptHeader_copied (s : State) : ckptHeader (ckptCopied s) = objGet (ckptCopied s) Obj.checkpointEpoch + 2 ^ 32 := by
  obtain ⟨hepoch, -, hsame⟩ := objs_ckptCopied s
  unfold ckptHeader
  rw [hsame _ (by decide), hepoch, lpddr_ckptCopied, lpddr_copyOut]
  exact header_stored _ _ _ _ (by omega)

theorem checkpointCopyDone_holds (s : State) :
    (s.seqs.ckptStep ≠ 3 ∨ s.chans.all (fun c => c.dim.isNone) = false → exec .checkpointCopyDone s = .next s)
    ∧ (s.seqs.ckptStep = 3 → s.chans.all (fun c => c.dim.isNone) = true → MemOk s → s.arrays.length = 64 →
      (∀ a ∈ s.arrays, ∀ b, (∀ e ∈ a.banks.getD b [], e.1 < 65536)
        ∧ (∀ e ∈ a.trees.getD b [], e.1 < 2048)) →
      (∀ e ∈ s.sync, e.1 < 32768) →
      ∃ t, exec .checkpointCopyDone s = .next (takeDoorbells t)
        ∧ t = { s with dic := t.dic, lpddr := t.lpddr, lpddrPoison := t.lpddrPoison, lpddrBad := t.lpddrBad,
                       seqs := { s.seqs with ckptStep := 0 } }
        ∧ objGet t Obj.checkpointEpoch = (objGet s Obj.checkpointEpoch + 1) % 2 ^ 32 ∧ objGet t Obj.checkpointState = 2
        ∧ SameObjs s t [Obj.checkpointEpoch, Obj.checkpointState]
        ∧ ckptHeader t = objGet t Obj.checkpointEpoch + 2 ^ 32
        ∧ (∀ i, i < tileSize → memRead t.lpddr (ckptBase s + areaTile + i) = memRead s.tile i)
        ∧ SameBytesBut s.lpddr t.lpddr (ckptBase s) ckptSize) := by
  refine ⟨fun h => congrArg Host.Outcome.next (if_neg ?_), fun h3 hd _ hl hf hs => ?_⟩
  · rintro ⟨h3, hd⟩
    rcases h with h | h
    · exact h h3
    · rw [hd] at h; exact Bool.noConfusion h
  · obtain ⟨hepoch, hst, hsame⟩ := objs_ckptCopied s
    have htile := tile_copyOut hl hf hs ((objGet s Obj.checkpointEpoch + 1) % 2 ^ 32)
    have hout := sameBytesBut_copyOut hl hf hs ((objGet s Obj.checkpointEpoch + 1) % 2 ^ 32)
    rw [← lpddr_ckptCopied] at htile hout
    exact ⟨ckptCopied s, congrArg Host.Outcome.next (if_pos ⟨h3, hd⟩), frame_ckptCopied s, hepoch, hst, hsame, ckptHeader_copied s,
      htile, hout⟩

/-! ### Restore (R375) -/

theorem sync_copyIn (s : State) (i : Nat) (hi : i < 32768) :
    smGetD (copyIn s).sync i 0 = BitVec.ofNat 64 (leNat (memBytes s.lpddr (ckptBase s + areaSync + 8 * i) 8)) := by
  unfold copyIn smGetD
  dsimp only
  rw [smGet_foldl_smSet]
  split
  · rfl
  · rename_i h
    rw [record_unlisted s.lpddr (ckptBase s + areaSync) i 262144 (by omega) h]
    rfl

theorem tile_copyIn (s : State) (i : Nat) (hi : i < tileSize) :
    memRead (copyIn s).tile i = memRead s.lpddr (ckptBase s + areaTile + i) :=
  memRead_slicedDown s.lpddr (ckptBase s + areaTile) tileSize i hi

theorem arrays_copyIn (s : State) : (copyIn s).arrays.length = s.arrays.length := by
  unfold copyIn
  dsimp only
  rw [List.length_map, List.length_zipIdx]

theorem foot6_8_self (s : State) : foot6_8 s s = s := rfl

theorem frame_copyIn (s : State) : copyIn s = foot6_8 s (copyIn s) :=
  (foot6_8_self _).symm.trans (copyIn_keeps (foot6_8 · (copyIn s)) (fun _ _ => rfl) s)

theorem checkpointRestore_holds (r : Route) (v : Bytes) (s : State) (role : Role) (row : ObjRow) (s0 : State)
    (h : WriteReady s r false Obj.checkpointRestore v role row s0) :
    (leNat v = 0 → exec (.checkpointRestore r v) s = .next (answered s r Obj.checkpointRestore ⟨applyNum s0 r role row Obj.checkpointRestore 0, 0, []⟩))
    ∧ (leNat v = 1 → mayRestore s0 = false → exec (.checkpointRestore r v) s = .next (answered s r Obj.checkpointRestore ⟨s0, 0x08, []⟩))
    ∧ (leNat v = 1 → mayRestore s0 = true → MemOk s0 →
      ∃ u, exec (.checkpointRestore r v) s = .next (answered s r Obj.checkpointRestore ⟨u, 0, []⟩)
        ∧ u = { applyNum s0 r role row Obj.checkpointRestore 1 with
          doms := u.doms, arrays := u.arrays, esc := u.esc, tile := u.tile, tilePoison := u.tilePoison, sync := u.sync }
        ∧ u.arrays.length = s0.arrays.length
        ∧ (∀ i, i < 32768 → smGetD u.sync i 0 = BitVec.ofNat 64 (leNat (memBytes s0.lpddr (ckptBase s0 + areaSync + 8 * i) 8)))
        ∧ ∀ i, i < tileSize → memRead u.tile i = memRead s0.lpddr (ckptBase s0 + areaTile + i)) := by
  have hex : exec (.checkpointRestore r v) s = .next (answered s r Obj.checkpointRestore (ownAnswer s0 r role row Obj.checkpointRestore
      (leNat v) (fun s n => if n = 1 ∧ !mayRestore s then 0x08 else 0) (fun s n => if n = 1 then copyIn s else s))) :=
    congrArg Host.Outcome.next (writeRow_ready s r Obj.checkpointRestore v false role row s0 _ _ h)
  refine ⟨fun h0 => ?_, fun h1 hm => ?_, fun h1 hm _ => ⟨copyIn (applyNum s0 r role row Obj.checkpointRestore 1), ?_, ?_⟩⟩
  · rw [hex, h0, ownAnswer_taken _ _ _ _ _ _ _ _ rfl]
    rfl
  · rw [hex, h1, ownAnswer_refused _ _ _ _ _ _ _ _ (by simp [hm])]
    simp [hm]
  · rw [hex, h1, ownAnswer_taken _ _ _ _ _ _ _ _ (by simp [hm])]
    rfl
  · have hobjs := sameObjs_applyNum s0 r role row Obj.checkpointRestore 1
    have hbase : ckptBase (applyNum s0 r role row Obj.checkpointRestore 1) = ckptBase s0 := hobjs _ (by decide)
    have hlp : (applyNum s0 r role row Obj.checkpointRestore 1).lpddr = s0.lpddr :=
      applyNum_keeps State.lpddr (fun _ _ => rfl) s0 r role row Obj.checkpointRestore 1
    have harr : (applyNum s0 r role row Obj.checkpointRestore 1).arrays = s0.arrays :=
      applyNum_keeps State.arrays (fun _ _ => rfl) s0 r role row Obj.checkpointRestore 1
    rw [← hbase, ← hlp, ← harr]
    generalize applyNum s0 r role row Obj.checkpointRestore 1 = a
    exact ⟨frame_copyIn a, arrays_copyIn a, sync_copyIn a, tile_copyIn a⟩

/-- Settles O47: a run's array is retired through the miss events of R372, the header of a copy is stored last, and a restore reads
its records back from the area. -/
theorem knownAnswersAndCheckpoints : Obligations.KnownAnswersAndCheckpoints := by
  unfold Obligations.KnownAnswersAndCheckpoints
  refine ⟨fun nn f s hn hd => katRun_idle nn f s hn hd, fun nn s hn hl hd => ⟨katRun_passed nn s hn hl hd,
    fun p hk hm => katRun_first nn p s hn hl hd hk hm, fun p => katRun_failed nn p s hn hl hd⟩,
    fun r v s role row s0 h => checkpointNow_holds h, fun s => ?_, checkpointRestore_holds⟩
  obtain ⟨hq1, hq2⟩ := checkpointQuiesced_holds s
  obtain ⟨ht1, ht2⟩ := checkpointQuiesceTimeout_holds s
  obtain ⟨hc1, hc2⟩ := checkpointCopyDone_holds s
  exact ⟨hq1, hq2, ht1, ht2, hc1, hc2⟩

end Sys2Proof.Machine

/-!
The steps of a start and of a warm restart that train the bridge and the memory and bring up the light (R222, R236, R368, R369, R178 to
R180, R208; Table BOOT-1, Table REL-4).
-/

namespace Sys2Proof.Machine

/-! ### The bridge (R368, R369) -/

/-- The bridge with the wires that failed, each new one told. -/
def wired (s : State) (failed : List (Nat × Nat)) : State :=
  (List.range 96).foldl tellWires
    (updBridge s (fun g => { g with failWires := failed.foldl (fun m e => smSet m e.1 (e.2 % 2 ^ 68)) [], waiting := [], crossing := [] }))

/-- The memory bundles and the router bundles that train. -/
def memTrained (s : State) : Nat := ((List.range 64).filter (bundleTrains s)).length
def rtrTrained (s : State) : Nat := ((List.range 32).filter (fun b => bundleTrains s (64 + b))).length

/-- Objects that report the bridge. -/
def bridgeObjs : List Nat :=
  [Obj.bridgeMemBundles, Obj.bridgeRouterBundles, Obj.bridgeRetiredMap, Obj.bridgeRetiredMapHigh, Obj.bridgeSparesUsed, Obj.bridgeState]
    ++ journalObjs

/-- The map of the bundles of a range that do not train. -/
def retiredBundles (s : State) (first n : Nat) : Nat :=
  (List.range n).foldl (fun a i => if bundleTrains s (first + i) then a else a + 2 ^ i) 0

/-- BridgeState by the bundles that train (R24). -/
def bridgeStateOf (mem rtr : Nat) : Nat := if mem < 48 ∨ rtr < 24 then 2 else if mem + rtr < 96 then 1 else 0

/-- The bundles that train, and those that do not, put. -/
def bundlesTold (u : State) : State :=
  objPut (objPut (objPut (objPut u Obj.bridgeMemBundles (memTrained u)) Obj.bridgeRouterBundles (rtrTrained u))
    Obj.bridgeRetiredMap (retiredBundles u 0 64)) Obj.bridgeRetiredMapHigh (retiredBundles u 64 32)

/-- The bridge's objects put. -/
def bridgeTold (u : State) : State :=
  objPut (objPut (bundlesTold u) Obj.bridgeSparesUsed (sparesInUse (bundlesTold u))) Obj.bridgeState
    (bridgeStateOf (memTrained u) (rtrTrained u))

theorem trainBridge_eq (s : State) (failed : List (Nat × Nat)) : trainBridge s failed = bridgeTold (wired s failed) := by
  unfold trainBridge bridgeTold bundlesTold memTrained rtrTrained retiredBundles bridgeStateOf wired
  rfl

theorem sameObjs_tellWires (s : State) (b : Nat) : SameObjs s (tellWires s b) journalObjs :=
  (SameObjs.refl s _).foldl _ (fun u _ => (SameObjs.refl u _).journal _ _ (List.Subset.refl _)) _

theorem sameObjs_wired (s : State) (failed : List (Nat × Nat)) : SameObjs s (wired s failed) journalObjs :=
  SameObjs.foldl (t := updBridge s _) (fun _ _ => rfl) _ (fun u b => sameObjs_tellWires u b) _

theorem sameObjs_bundlesTold (u : State) : SameObjs u (bundlesTold u) bridgeObjs :=
  ((((SameObjs.refl u bridgeObjs).objPut _ _ (by decide)).objPut _ _ (by decide)).objPut _ _ (by decide)).objPut _ _ (by decide)

theorem sameObjs_bridgeTold (u : State) : SameObjs u (bridgeTold u) bridgeObjs :=
  ((sameObjs_bundlesTold u).objPut _ _ (by decide)).objPut _ _ (by decide)

theorem objs_bundlesTold (u : State) : objGet (bundlesTold u) Obj.bridgeMemBundles = memTrained u
    ∧ objGet (bundlesTold u) Obj.bridgeRouterBundles = rtrTrained u := by
  unfold bundlesTold
  refine ⟨?_, ?_⟩
  · rw [objGet_objPut_ne _ _ _ _ (by decide), objGet_objPut_ne _ _ _ _ (by decide), objGet_objPut_ne _ _ _ _ (by decide),
      objGet_objPut_self]
  · rw [objGet_objPut_ne _ _ _ _ (by decide), objGet_objPut_ne _ _ _ _ (by decide), objGet_objPut_self]

theorem objs_bridgeTold (u : State) : objGet (bridgeTold u) Obj.bridgeMemBundles = memTrained u
    ∧ objGet (bridgeTold u) Obj.bridgeRouterBundles = rtrTrained u
    ∧ objGet (bridgeTold u) Obj.bridgeState = bridgeStateOf (memTrained u) (rtrTrained u) := by
  obtain ⟨hm, hr⟩ := objs_bundlesTold u
  unfold bridgeTold
  refine ⟨?_, ?_, objGet_objPut_self _ _ _⟩
  · rw [objGet_objPut_ne _ _ _ _ (by decide), objGet_objPut_ne _ _ _ _ (by decide), hm]
  · rw [objGet_objPut_ne _ _ _ _ (by decide), objGet_objPut_ne _ _ _ _ (by decide), hr]

theorem goodWires_of_bridge {s t : State} (h : t.bridge = s.bridge) : memTrained t = memTrained s ∧ rtrTrained t = rtrTrained s := by
  have hb (b : Nat) : bundleTrains t b = bundleTrains s b := by
    unfold bundleTrains goodWires badWires
    rw [h]
  simp only [memTrained, rtrTrained, show bundleTrains t = bundleTrains s from funext hb, and_self]

theorem bridgeState_two (mem rtr : Nat) : bridgeStateOf mem rtr = 2 ↔ mem < 48 ∨ rtr < 24 := by
  unfold bridgeStateOf
  split
  · simp_all
  · split <;> simp_all

/-- What training says of the bridge. -/
theorem trainBridge_objs (s : State) (failed : List (Nat × Nat)) :
    objGet (trainBridge s failed) Obj.bridgeMemBundles = memTrained (trainBridge s failed)
      ∧ objGet (trainBridge s failed) Obj.bridgeRouterBundles = rtrTrained (trainBridge s failed)
      ∧ (objGet (trainBridge s failed) Obj.bridgeState = 2 ↔ objGet (trainBridge s failed) Obj.bridgeMemBundles < 48
        ∨ objGet (trainBridge s failed) Obj.bridgeRouterBundles < 24)
      ∧ SameObjs s (trainBridge s failed) bridgeObjs := by
  have hsame := (sameObjs_wired s failed).mono (List.subset_append_right _ _ : journalObjs ⊆ bridgeObjs)
  rw [trainBridge_eq]
  generalize wired s failed = u at *
  obtain ⟨hm, hr, hb⟩ := objs_bridgeTold u
  obtain ⟨hmt, hrt⟩ := goodWires_of_bridge (show (bridgeTold u).bridge = u.bridge from rfl)
  rw [hm, hr, hb, hmt, hrt]
  exact ⟨rfl, rfl, bridgeState_two _ _, hsame.trans (sameObjs_bridgeTold u)⟩

theorem footDicBridgeObs_self (s : State) : footDicBridgeObs s s = s := rfl

theorem trainBridge_frame (s : State) (failed : List (Nat × Nat)) : trainBridge s failed = { s with
    dic := (trainBridge s failed).dic, bridge := (trainBridge s failed).bridge, obs := (trainBridge s failed).obs } :=
  (footDicBridgeObs_self _).symm.trans (trainBridge_keeps (footDicBridgeObs · (trainBridge s failed)) (fun _ _ => rfl) s failed)

/-! ### The channels (R178 to R180) -/

/-- Objects that training the memory may change. -/
def trainObjs : List Nat := [Obj.memState] ++ (List.range 64).map (Obj.memChannelState + ·) ++ alertObjs

theorem channel_not_alert {c : Nat} (hc : c < 64) : Obj.memChannelState + c ∉ alertObjs := by
  simp only [alertObjs, Obj.memChannelState, Obj.journalNextSeq, Obj.journalDropped, Obj.alertPending, List.mem_cons,
    List.not_mem_nil, or_false]
  omega

theorem memState_ne_channel {c : Nat} (hc : c < 64) : Obj.memChannelState + c ≠ Obj.memState := by
  simp only [Obj.memChannelState, Obj.memState]
  omega

theorem trainChannel_self (failed : List Nat) (s : State) (c : Nat) (hc : c < 64) :
    objGet (trainChannel failed s c) (Obj.memChannelState + c) = if failed.contains c then 4 else 0 := by
  unfold trainChannel
  split
  · exact ((SameObjs.refl _ alertObjs).journalAlert _ _ (List.Subset.refl _) _ (channel_not_alert hc)).trans (objGet_objPut_self _ _ _)
  · exact objGet_objPut_self _ _ _

theorem sameObjs_trainChannel (failed : List Nat) (s : State) (c : Nat) :
    SameObjs s (trainChannel failed s c) ((Obj.memChannelState + c) :: alertObjs) := by
  unfold trainChannel
  split
  · exact ((SameObjs.refl s _).objPut _ _ List.mem_cons_self).journalAlert _ _ (List.subset_cons_self _ _)
  · exact (SameObjs.objPut (SameObjs.refl s _) _ _ List.mem_cons_self).of_dic rfl

theorem trainChannels_state (failed : List Nat) (s : State) (n : Nat) (hn : n ≤ 64) (c : Nat) (hc : c < n) :
    objGet ((List.range n).foldl (trainChannel failed) s) (Obj.memChannelState + c) = if failed.contains c then 4 else 0 := by
  induction n with
  | zero => exact absurd hc (Nat.not_lt_zero c)
  | succ n ih =>
    rw [List.range_succ, List.foldl_append, List.foldl_cons, List.foldl_nil]
    by_cases h : c = n
    · subst h; exact trainChannel_self failed _ c (by omega)
    · rw [sameObjs_trainChannel failed _ n _ (fun hm => (List.mem_cons.1 hm).elim (by omega) (channel_not_alert (by omega)))]
      exact ih (by omega) (by omega)

theorem sameObjs_trainChannels (failed : List Nat) (s : State) : SameObjs s ((List.range 64).foldl (trainChannel failed) s) trainObjs := by
  have h (n : Nat) (hn : n ≤ 64) : SameObjs s ((List.range n).foldl (trainChannel failed) s) trainObjs := by
    induction n with
    | zero => exact SameObjs.refl s _
    | succ n ih =>
      rw [List.range_succ, List.foldl_append, List.foldl_cons, List.foldl_nil]
      refine (ih (by omega)).trans ((sameObjs_trainChannel failed _ n).mono (List.cons_subset.2 ⟨?_, List.subset_append_right _ _⟩))
      exact List.mem_append_left _ (List.mem_append_right _ (List.mem_map.2 ⟨n, List.mem_range.2 (by omega), rfl⟩))
  exact h 64 (Nat.le_refl _)

theorem trainMemory_failed (s : State) (failed : List Nat) (h : ∃ c ∈ failed, c < 64) : trainMemory s failed
    = noRegion (objPut ((List.range 64).foldl (trainChannel failed) s) Obj.memState 2) :=
  if_pos (List.any_eq_true.2 (by simpa using h))

theorem trainMemory_passed (s : State) (failed : List Nat) (h : ∀ c ∈ failed, 64 ≤ c) : trainMemory s failed
    = objPut ((List.range 64).foldl (trainChannel failed) s) Obj.memState 0 :=
  if_neg (by simpa using h)

/-- What training says of the memory. -/
theorem trainMemory_objs (s : State) (failed : List Nat) :
    (∀ c, c < 64 → objGet (trainMemory s failed) (Obj.memChannelState + c) = if failed.contains c then 4 else 0)
      ∧ ((∀ c ∈ failed, 64 ≤ c) → objGet (trainMemory s failed) Obj.memState = 0 ∧ (trainMemory s failed).host = s.host)
      ∧ ((∃ c ∈ failed, c < 64) → objGet (trainMemory s failed) Obj.memState = 2
        ∧ (trainMemory s failed).host = { s.host with cxlGiB := 0 })
      ∧ SameObjs s (trainMemory s failed) trainObjs := by
  have hch := trainChannels_state failed s 64 (Nat.le_refl _)
  have hobjs := sameObjs_trainChannels failed s
  have hhost : ((List.range 64).foldl (trainChannel failed) s).host = s.host :=
    foldlState State.host (trainChannel failed) (fun u c => trainChannel_keeps State.host (fun _ _ => rfl) failed u c) _ _
  rw [← hhost]
  have hput (u : State) (v : Nat) (h : ∀ c, c < 64 → objGet u (Obj.memChannelState + c) = if failed.contains c then 4 else 0) :
      ∀ c, c < 64 → objGet (objPut u Obj.memState v) (Obj.memChannelState + c) = if failed.contains c then 4 else 0 := fun c hc => by
    rw [objGet_objPut_ne _ _ _ _ (memState_ne_channel hc), h c hc]
  by_cases hf : ∃ c ∈ failed, c < 64
  · rw [trainMemory_failed s failed hf]
    generalize (List.range 64).foldl (trainChannel failed) s = u at *
    obtain ⟨c, hc, hlt⟩ := hf
    exact ⟨hput u 2 hch, fun hall => absurd (hall c hc) (by omega), fun _ => ⟨objGet_objPut_self u _ _, rfl⟩,
      hobjs.objPut _ _ (by decide)⟩
  · have hall : ∀ c ∈ failed, 64 ≤ c := fun c hc => by
      by_contra hlt
      exact hf ⟨c, hc, by omega⟩
    rw [trainMemory_passed s failed hall]
    generalize (List.range 64).foldl (trainChannel failed) s = u at *
    exact ⟨hput u 0 hch, fun _ => ⟨objGet_objPut_self u _ _, rfl⟩, fun hex => absurd hex hf, hobjs.objPut _ _ (by decide)⟩

/-! ### Lasers examined (R208) -/

/-- Objects of laser input k, and those of the journal. -/
def laserObjs (k : Nat) : List Nat := [Obj.laserInputState + k, Obj.laserLinesUsable + k] ++ alertObjs

theorem alertObjs_laser (k : Nat) : alertObjs ⊆ laserObjs k := List.subset_append_right _ _

theorem dic_excludeLines (s : State) (k lines : Nat) : (excludeLines s k lines).dic = s.dic :=
  excludeLines_keeps State.dic (fun _ _ => rfl) s k lines

theorem sameObjs_tapFibres (s : State) (k : Nat) (e : LaserExam) : SameObjs s (tapFibres s k e) alertObjs := by
  unfold tapFibres
  dsimp only
  exact SameObjs.foldl (t := { s with tapped := _ }) (fun _ _ => rfl) _
    (fun u x => (SameObjs.refl u _).journalAlert _ _ (List.Subset.refl _)) _

theorem sameObjs_laserReport (s : State) (k : Nat) (e : LaserExam) (n : Nat) : SameObjs s (laserReport s k e n) alertObjs := by
  unfold laserReport
  split
  · exact (SameObjs.refl s _).journalAlert _ _ (List.Subset.refl _)
  · exact (SameObjs.refl s _).journalAlert _ _ (List.Subset.refl _)
  · exact (SameObjs.refl s _).journal _ _ (by decide)
  · exact (SameObjs.refl s _).journalAlert _ _ (List.Subset.refl _)
  · exact SameObjs.refl s _

/-- A laser input's state and lines put. -/
def laserPut (s : State) (e : LaserExam) (k : Nat) : State :=
  objPut (objPut s (Obj.laserInputState + k) (laserState s k e)) (Obj.laserLinesUsable + k) (examLines e)

/-- What follows the two objects of an input examined. -/
def laserNoted (u : State) (e : LaserExam) (k st : Nat) : State :=
  let u := updLaser u k (fun l => { l with cls := st, comb := examComb e, dark := !examLight e, lostLines := 0 })
  laserReport (tapFibres (if examLight e then excludeLines u k (examLines e) else u) k e) k e st

theorem examineLaser_eq (s : State) (e : LaserExam) (k : Nat) :
    examineLaser s (e, k) = laserNoted (laserPut s e k) e k (laserState s k e) := rfl

theorem sameObjs_laserNoted (u : State) (e : LaserExam) (k st : Nat) : SameObjs u (laserNoted u e k st) alertObjs := by
  unfold laserNoted
  dsimp only
  refine SameObjs.trans (SameObjs.trans ?_ (sameObjs_tapFibres _ k e)) (sameObjs_laserReport _ k e st)
  split
  · exact SameObjs.of_dic (SameObjs.of_dic (SameObjs.refl u _) rfl) (dic_excludeLines _ _ _)
  · exact (SameObjs.refl u _).of_dic rfl

theorem laser_keys {j k : Nat} (hj : j < 8) (hk : k < 8) : Obj.laserInputState + k ∉ alertObjs ∧ Obj.laserLinesUsable + k ∉ alertObjs
    ∧ Obj.laserInputState + k ≠ Obj.laserLinesUsable + j ∧ Obj.laserInputUse ∉ laserObjs k := by
  simp only [alertObjs, laserObjs, Obj.laserInputState, Obj.laserLinesUsable, Obj.laserInputUse, Obj.journalNextSeq, Obj.journalDropped,
    Obj.alertPending, List.mem_cons, List.mem_append, List.not_mem_nil, or_false]
  omega

theorem sameObjs_examineLaser (s : State) (e : LaserExam) (k : Nat) : SameObjs s (examineLaser s (e, k)) (laserObjs k) := by
  rw [examineLaser_eq]
  refine SameObjs.trans ?_ ((sameObjs_laserNoted _ e k _).mono (alertObjs_laser k))
  exact ((SameObjs.refl s _).objPut _ _ (List.mem_append_left _ List.mem_cons_self)).objPut _ _
    (List.mem_append_left _ (List.mem_cons_of_mem _ List.mem_cons_self))

theorem examineLaser_state (s : State) (e : LaserExam) (k : Nat) (hk : k < 8) :
    objGet (examineLaser s (e, k)) (Obj.laserInputState + k) = laserState s k e := by
  obtain ⟨hs, -, hne, -⟩ := laser_keys hk hk
  rw [examineLaser_eq, sameObjs_laserNoted _ e k _ _ hs, laserPut, objGet_objPut_ne _ _ _ _ hne, objGet_objPut_self]

theorem laserState_congr {s t : State} (hu : objGet t Obj.laserInputUse = objGet s Obj.laserInputUse)
    (hm : t.laserMode = s.laserMode) (k : Nat) (e : LaserExam) : laserState t k e = laserState s k e := by
  unfold laserState
  rw [hu, hm]

theorem examineLasers_other (l : List (LaserExam × Nat)) (j : Nat) (hj : j < 8) (h : ∀ x ∈ l, x.2 ≠ j) (s : State) :
    objGet (l.foldl examineLaser s) (Obj.laserInputState + j) = objGet s (Obj.laserInputState + j) := by
  induction l generalizing s with
  | nil => rfl
  | cons x l ih =>
    have hx : x.2 ≠ j := h x List.mem_cons_self
    refine (ih (fun y hy => h y (List.mem_cons_of_mem x hy)) _).trans (sameObjs_examineLaser s x.1 x.2 _ ?_)
    simp only [laserObjs, alertObjs, Obj.laserInputState, Obj.laserLinesUsable, Obj.journalNextSeq, Obj.journalDropped, Obj.alertPending,
      List.mem_append, List.mem_cons, List.not_mem_nil, or_false]
    omega

theorem examineLasers_state (es : List LaserExam) (n o : Nat) (s : State) (ho : o + n ≤ 8) :
    ∀ k e, k < n → es[k]? = some e →
      objGet (((es.zipIdx o).take n).foldl examineLaser s) (Obj.laserInputState + (o + k)) = laserState s (o + k) e := by
  induction es generalizing n o s with
  | nil => intro k e _ h; exact absurd h (by simp)
  | cons x es ih =>
    intro k e hk h
    obtain ⟨n, rfl⟩ : ∃ m, n = m + 1 := ⟨n - 1, by omega⟩
    rw [List.zipIdx_cons, List.take_succ_cons, List.foldl_cons]
    cases k with
    | zero =>
      obtain rfl : x = e := by simpa using h
      refine (examineLasers_other _ o (by omega) (fun y hy => ?_) _).trans (examineLaser_state s x o (by omega))
      have := List.le_snd_of_mem_zipIdx (List.mem_of_mem_take hy)
      omega
    | succ k =>
      have hmode : (examineLaser s (x, o)).laserMode = s.laserMode := examineLaser_keeps State.laserMode (fun _ _ => rfl) s (x, o)
      obtain ⟨-, -, -, huse⟩ := laser_keys (j := 0) (k := o) (by omega) (by omega)
      have := ih n (o + 1) (examineLaser s (x, o)) (by omega) k e (by omega) (by simpa using h)
      rw [show o + (k + 1) = o + 1 + k by omega, this]
      exact laserState_congr (sameObjs_examineLaser s x o _ huse) hmode _ _

/-- The lasers examined at a start are those of the facets that are served. -/
theorem laserState_examined (s : State) (es : List LaserExam) (k : Nat) (e : LaserExam) (hk : k < if s.seqs.halfE then 8 else 4)
    (h : es[k]? = some e) : objGet (examineLasers s es) (Obj.laserInputState + k) = laserState s k e := by
  have := examineLasers_state es (if s.seqs.halfE then 8 else 4) 0 s (by split <;> omega) k e hk h
  rwa [Nat.zero_add] at this

/-! ### Rings swept (R222) -/

/-- The objects of the optical engines are kept: those of the links, and those of the journal, lie outside their range. -/
def SameLight (s t : State) : Prop := ∀ x, 0x400000 ≤ x → x < 0x410000 → objGet t x = objGet s x

theorem SameLight.trans {s t u : State} (h : SameLight s t) (h' : SameLight t u) : SameLight s u :=
  fun x h1 h2 => (h' x h1 h2).trans (h x h1 h2)

theorem sameLight_of_objs {s t : State} {ks : List Nat} (h : SameObjs s t ks) (hk : ∀ x ∈ ks, x < 0x400000 ∨ 0x410000 ≤ x) : SameLight s t :=
  fun x h1 h2 => h x fun hm => by
    have := hk x hm
    omega

theorem sameLight_of_dic {s t : State} (h : t.dic = s.dic) : SameLight s t := sameLight_of_objs (ks := []) (SameObjs.of_dic (SameObjs.refl s []) h) (by simp)

theorem sameLight_objPut (s : State) (k v : Nat) (h : k < 0x400000 ∨ 0x410000 ≤ k) : SameLight s (objPut s k v) :=
  sameLight_of_objs (SameObjs.objPut (SameObjs.refl s [k]) k v List.mem_cons_self) (by simpa using h)

theorem alertObjs_dark : ∀ x ∈ alertObjs, x < 0x400000 ∨ 0x410000 ≤ x := by decide

theorem sameLight_journal (s : State) (e : JEvent) (as : List Nat) : SameLight s (journal s e as) :=
  sameLight_of_objs ((SameObjs.refl s alertObjs).journal e as (by decide)) alertObjs_dark

theorem sameLight_journalAlert (s : State) (e : JEvent) (as : List Nat) : SameLight s (journalAlert s e as) :=
  sameLight_of_objs ((SameObjs.refl s alertObjs).journalAlert e as (List.Subset.refl _)) alertObjs_dark

theorem SameLight.foldl {α : Type} (f : State → α → State) (hf : ∀ u a, SameLight u (f u a)) (l : List α) (s : State) :
    SameLight s (l.foldl f s) := by
  induction l generalizing s with
  | nil => exact fun _ _ _ => rfl
  | cons a l ih => exact (hf s a).trans (ih _)

theorem sameLight_handBack (s : State) (k : Nat) (grey : Bool) : SameLight s (handBack s k grey) :=
  sameLight_of_objs (sameCells_handBack s k grey).objs (by decide)

theorem settleObjs_dark (k : Nat) : ∀ x ∈ settleObjs k, x < 0x400000 ∨ 0x410000 ≤ x := by
  simp only [settleObjs, journalObjs, List.mem_append, List.mem_cons, List.not_mem_nil, or_false, Obj.linkState]
  rintro x ((rfl | rfl | rfl | rfl | rfl) | rfl | rfl)
  · exact Or.inr (by omega)
  all_goals decide

theorem sameLight_settleLink (s : State) (k : Nat) : SameLight s (settleLink s k) :=
  sameLight_of_objs (sameCells_settleLink s k).objs (settleObjs_dark k)

theorem sameLight_applyIntended (s : State) : SameLight s (applyIntended s) := by
  refine sameLight_of_objs (sameCells_applyIntended s).objs ?_
  simp only [mapObjs, alertObjs, List.mem_append, List.mem_cons, List.not_mem_nil, or_false, Obj.linkState, List.mem_map]
  rintro x (((rfl | rfl | rfl | rfl) | rfl | rfl | rfl) | ⟨k, -, rfl⟩)
  · decide
  · decide
  · decide
  · decide
  · decide
  · decide
  · decide
  · exact Or.inr (by omega)

theorem sameLight_moveRef (s : State) (k : Nat) : SameLight s (moveRef s k) := by
  unfold moveRef
  dsimp only
  split
  · exact sameLight_of_dic rfl
  · split
    · exact sameLight_of_dic rfl
    · split
      · exact sameLight_of_dic rfl
      · split
        · exact (sameLight_of_dic (t := updLaser s k _) rfl).trans (sameLight_journal _ _ _)
        · exact sameLight_of_dic rfl

theorem sameLight_unlockRing (s : State) (r : Nat) (f : Ring → Ring) : SameLight s (unlockRing s r f) := by
  unfold unlockRing
  dsimp only
  split
  · exact (sameLight_of_dic (t := updRing s r _) rfl).trans (sameLight_moveRef _ _)
  · exact sameLight_of_dic rfl

theorem sameLight_removeLink (s : State) (k : Nat) : SameLight s (removeLink s k) := by
  unfold removeLink
  dsimp only
  refine SameLight.trans (SameLight.trans (SameLight.trans (SameLight.foldl _ (fun u l => ?_) _ s) (sameLight_of_dic rfl))
    (sameLight_objPut _ _ _ (Or.inr ?_))) (sameLight_objPut _ _ _ (Or.inr ?_))
  · exact (sameLight_of_dic (t := updSpec u l.fibre l.line _) rfl).trans (sameLight_unlockRing _ _ _)
  · simp only [Obj.linkRttNs]; omega
  · simp only [Obj.linkState]; omega

/-- A lane taken out of its link's lists and out of the map. -/
def laneDropped (s : State) (k : Nat) (outgoing : Bool) (lane : Lane) : State :=
  let s := { s with recovery := s.recovery.filter (fun (r : Recovery) => !(r.link == k && r.outgoing == outgoing && r.lane == lane.idx)) }
  let keep (ls : List Lane) : List Lane := ls.filter (fun (a : Lane) => a.idx != lane.idx)
  let s := updLink s k (fun l => if outgoing then { l with outLanes := keep l.outLanes } else { l with inLanes := keep l.inLanes })
  if outgoing then
    updSpec s lane.fibre lane.line (fun e => { e with lineState := if e.lineState = 5 then 5 else 0, link := 0, lane := 0 })
  else { s with inGrant := s.inGrant.erase (17 * lane.fibre + lane.line) }

theorem dropLane_eq (s : State) (k : Nat) (outgoing : Bool) (lane : Lane) : dropLane s k outgoing lane
    = if (if outgoing then (linkOf (laneDropped s k outgoing lane) k).outLanes else (linkOf (laneDropped s k outgoing lane) k).inLanes).isEmpty
      then removeLink (handBack (laneDropped s k outgoing lane) k false) k else settleLink (laneDropped s k outgoing lane) k := by
  unfold dropLane laneDropped
  rfl

theorem dic_laneDropped (s : State) (k : Nat) (outgoing : Bool) (lane : Lane) : (laneDropped s k outgoing lane).dic = s.dic := by
  cases outgoing <;> rfl

theorem sameLight_dropLane (s : State) (k : Nat) (outgoing : Bool) (lane : Lane) : SameLight s (dropLane s k outgoing lane) := by
  rw [dropLane_eq]
  have h := sameLight_of_dic (dic_laneDropped s k outgoing lane)
  generalize laneDropped s k outgoing lane = u at *
  generalize List.isEmpty _ = b
  cases b
  · exact h.trans (sameLight_settleLink u k)
  · exact h.trans ((sameLight_handBack u k false).trans (sameLight_removeLink _ _))

theorem sameLight_setRingRetired (s : State) (r : Nat) (b : Bool) : SameLight s (setRingRetired s r b) := sameLight_of_dic rfl

/-- A retired ring unlocked and out of recovery. -/
def ringStopped (s : State) (r : Nat) : State :=
  let s := unlockRing (setRingRetired s r true) r (fun g => { g with parked := true, sweep := 0 })
  { s with recovery := s.recovery.filter (fun (x : Recovery) => x.ring != r) }

/-- The lane that a ring carried dropped. -/
def ringDropped (s : State) (r : Nat) : State :=
  match findLane s (decide (r < 544)) (ringFibre r) (r % 17) with
  | some (k, lane) => dropLane s k (decide (r < 544)) lane
  | none => s

/-- The line of a retired ring excluded. -/
def ringExcluded (s : State) (r : Nat) : State :=
  if decide (r < 544) = true then
    updSpec { s with reassign := if smGet s.reassign (ringFibre r) = some (r % 17) then smErase s.reassign (ringFibre r) else s.reassign }
      (ringFibre r) (r % 17) (fun e => { e with lineState := 5, link := 0, lane := 0 })
  else { s with inGrant := s.inGrant.erase (17 * ringFibre r + r % 17) }

theorem retireRing_eq (s : State) (r : Nat) : retireRing s r = journalAlert
    (journal (ringExcluded (ringDropped (ringStopped s r) r) r) .lineExcluded [ringFibre r, r % 17]) .ringRetired [r] := by
  unfold retireRing ringExcluded ringDropped ringStopped
  rfl

theorem sameLight_retireRing (s : State) (r : Nat) : SameLight s (retireRing s r) := by
  have hstop : SameLight s (ringStopped s r) := (sameLight_setRingRetired s r true).trans
    ((sameLight_unlockRing (setRingRetired s r true) r (fun g => { g with parked := true, sweep := 0 })).trans (sameLight_of_dic rfl))
  rw [retireRing_eq]
  generalize ringStopped s r = u at *
  have hdrop : SameLight u (ringDropped u r) := by
    unfold ringDropped
    split
    · exact sameLight_dropLane _ _ _ _
    · exact sameLight_of_dic rfl
  generalize ringDropped u r = w at *
  have hex : SameLight w (ringExcluded w r) := by
    unfold ringExcluded
    split <;> exact sameLight_of_dic rfl
  exact hstop.trans (hdrop.trans (hex.trans ((sameLight_journal _ _ _).trans (sameLight_journalAlert _ _ _))))

theorem sameLight_sweepRing (un again : List Nat) (cold : Bool) (s : State) (r : Nat) : SameLight s (sweepRing un again cold s r) := by
  unfold sweepRing
  dsimp only
  split
  · split
    · exact sameLight_of_dic rfl
    · split <;> exact sameLight_of_dic rfl
  · split
    · exact (sameLight_of_dic (t := updRing s r _) rfl).trans (sameLight_retireRing _ r)
    · exact sameLight_of_dic rfl

theorem sameLight_startRotor (s : State) (x : Nat) : SameLight s (startRotor s x) :=
  sameLight_of_dic (startRotor_keeps State.dic (fun _ _ => rfl) s x)

theorem sameLight_sweepAll (s : State) (un again : List Nat) (cold : Bool) : SameLight s (sweepAll s un again cold) := by
  unfold sweepAll
  dsimp only
  have h1 := SameLight.foldl (sweepRing un again cold) (sameLight_sweepRing un again cold)
    ((List.range 1088).filter (fun r => fibreUp s (ringFibre r))) s
  generalize ((List.range 1088).filter (fun r => fibreUp s (ringFibre r))).foldl (sweepRing un again cold) s = u at *
  have h2 : SameLight u (((List.range 32).filter (fibreUp u)).foldl startRotor { u with free := u.free + 1088 }) :=
    SameLight.trans (t := { u with free := u.free + 1088 }) (sameLight_of_dic rfl) (SameLight.foldl _ sameLight_startRotor _ _)
  exact h1.trans (h2.trans (SameLight.foldl _ sameLight_moveRef _ _))

theorem free_sweepAll (s : State) (un again : List Nat) (cold : Bool) : (sweepAll s un again cold).free = s.free + 1088 := by
  have hs (u : State) (r : Nat) : (sweepRing un again cold u r).free = u.free :=
    sweepRing_keeps State.free (fun _ _ => rfl) un again cold u r
  have h1 := foldlState State.free (sweepRing un again cold) hs ((List.range 1088).filter (fun r => fibreUp s (ringFibre r))) s
  unfold sweepAll
  dsimp only
  generalize ((List.range 1088).filter (fun r => fibreUp s (ringFibre r))).foldl (sweepRing un again cold) s = u at *
  refine (foldlState State.free moveRef (fun u k => moveRef_keeps State.free (fun _ _ => rfl) u k) _ _).trans ?_
  refine (foldlState State.free startRotor (fun u k => startRotor_keeps State.free (fun _ _ => rfl) u k) _ _).trans ?_
  exact congrArg (· + 1088) h1

end Sys2Proof.Machine

/-!
A warm restart runs step by step (R376, R377, Table REL-4, O48).
-/

namespace Sys2Proof.Machine

/-! ### A warm restart asked for (R376) -/

/-- What a checked write of WarmRestart answers. -/
def warmAnswer (s : State) (r : Route) (role : Role) (row : ObjRow) (n : Nat) : Answer :=
  if n = 1 ∧ (objGet s Obj.moduleState = 0 ∨ objGet s Obj.moduleState = 4) then ⟨s, 0x0B, []⟩
  else if n = 1 ∧ objGet s Obj.moduleState = 2 ∧ role = .host then ⟨s, 0x05, []⟩
  else ⟨if n = 1 then askRestart (applyNum s r role row Obj.warmRestart n) (if objGet s Obj.moduleState = 2 then 3 else 1)
    else applyNum s r role row Obj.warmRestart n, 0, []⟩

theorem exec_warmRestartWrite {r : Route} {v : Bytes} {s : State} {role : Role} {row : ObjRow} {s0 : State}
    (h : WriteReady s r false Obj.warmRestart v role row s0) : exec (.warmRestartWrite r v) s
      = .next (runAsked (answered s r Obj.warmRestart (warmAnswer s0 r role row (leNat v)))) := by
  obtain ⟨hasked, hnum⟩ := h
  refine congrArg Host.Outcome.next (congrArg runAsked ?_)
  rw [Laws.ask_asked _ _ _ _ _ _ _ _ _ hasked, hnum]
  rfl

theorem warmRestartWrite_holds (r : Route) (v : Bytes) (s : State) (role : Role) (row : ObjRow) (s0 : State)
    (h : WriteReady s r false Obj.warmRestart v role row s0) :
    (leNat v = 0 → exec (.warmRestartWrite r v) s = .next (runAsked (answered s r Obj.warmRestart ⟨applyNum s0 r role row Obj.warmRestart 0, 0, []⟩)))
    ∧ (leNat v = 1 → objGet s0 Obj.moduleState = 0 ∨ objGet s0 Obj.moduleState = 4 →
      exec (.warmRestartWrite r v) s = .next (runAsked (answered s r Obj.warmRestart ⟨s0, 0x0B, []⟩)))
    ∧ (leNat v = 1 → objGet s0 Obj.moduleState = 2 → role = .host →
      exec (.warmRestartWrite r v) s = .next (runAsked (answered s r Obj.warmRestart ⟨s0, 0x05, []⟩)))
    ∧ (leNat v = 1 → objGet s0 Obj.moduleState ≠ 0 → objGet s0 Obj.moduleState ≠ 4 → (objGet s0 Obj.moduleState = 2 → role ≠ .host) →
      ∃ u, exec (.warmRestartWrite r v) s = .next (runAsked (answered s r Obj.warmRestart ⟨u, 0, []⟩))
        ∧ u = { applyNum s0 r role row Obj.warmRestart 1 with
          seqs := { s0.seqs with asked := if objGet s0 Obj.moduleState = 2 then 3 else 1 } }) := by
  have hex := exec_warmRestartWrite h
  refine ⟨fun h0 => ?_, fun h1 hm => ?_, fun h1 hm hr => ?_, fun h1 hm0 hm4 hr => ?_⟩
  · rw [hex, h0, warmAnswer, if_neg (by omega), if_neg (by omega), if_neg (by omega)]
  · rw [hex, h1, warmAnswer, if_pos ⟨rfl, hm⟩]
  · rw [hex, h1, warmAnswer, if_neg (by omega), if_pos ⟨rfl, hm, hr⟩]
  · have hseqs : (applyNum s0 r role row Obj.warmRestart 1).seqs = s0.seqs :=
      applyNum_keeps State.seqs (fun _ _ => rfl) s0 r role row Obj.warmRestart 1
    refine ⟨askRestart (applyNum s0 r role row Obj.warmRestart 1) (if objGet s0 Obj.moduleState = 2 then 3 else 1), ?_, ?_⟩
    · rw [hex, h1, warmAnswer, if_neg (by omega), if_neg (fun hc => hr hc.2.1 hc.2.2), if_pos rfl]
    · rw [← hseqs]
      rfl

/-! ### A warm restart begins -/

theorem runAsked_warm (s : State) (h : s.seqs.asked = 1 ∨ s.seqs.asked = 3) :
    runAsked s = startWarm (updSeqs s (fun q => { q with asked := 0 })) s.seqs.asked := by
  unfold runAsked
  dsimp only
  generalize s.seqs.asked = n at h
  rcases h with rfl | rfl <;> rfl

/-- The mailbox command that runs ends, and so does a checkpoint. -/
def warmCut (s : State) : State :=
  let s := if s.host.busy then mbxEnd s 0x06 else s
  if s.seqs.ckptStep = 0 then s else objPut (updSeqs s (fun q => { q with ckptStep := 0 })) Obj.checkpointState 3

/-- A warm restart counted, and begun. -/
def warmCounted (s : State) (cause : Nat) : State :=
  let s := objPut (objPut (objInc s Obj.warmRestarts) Obj.lastRestartCause cause) Obj.lastResetSource 5
  objPut (updSeqs s (fun q => { q with warmStep := 0, warmSince := s.now, running := false })) Obj.moduleState 4

theorem startWarm_eq (s : State) (cause : Nat) :
    startWarm s cause = clearEngines (journal (warmCounted (warmCut s) cause) .warmRestart [cause]) := rfl

theorem seqs_mbxEnd (s : State) (n : Nat) : (mbxEnd s n).seqs = s.seqs := mbxEnd_keeps State.seqs (fun _ _ => rfl) s n

theorem seqs_warmCut (s : State) : (warmCut s).seqs = { s.seqs with ckptStep := 0 } := by
  have h : (if s.host.busy then mbxEnd s 0x06 else s).seqs = s.seqs := by
    split
    · exact seqs_mbxEnd s 6
    · rfl
  unfold warmCut
  dsimp only
  generalize (if s.host.busy then mbxEnd s 0x06 else s) = u at *
  rw [h]
  split
  · rename_i h0
    rw [h, ← h0]
  · exact congrArg (fun q : Seqs => { q with ckptStep := 0 }) h

theorem sameObjs_warmCut (s : State) : SameObjs s (warmCut s) [Obj.checkpointState] := by
  have h : SameObjs s (if s.host.busy then mbxEnd s 0x06 else s) [Obj.checkpointState] := by
    split
    · exact (SameObjs.refl s _).of_dic (mbxEnd_keeps State.dic (fun _ _ => rfl) s 6)
    · exact SameObjs.refl s _
  unfold warmCut
  dsimp only
  generalize (if s.host.busy then mbxEnd s 0x06 else s) = u at *
  split
  · exact h
  · exact SameObjs.objPut (t := updSeqs u _) (h.of_dic rfl) _ _ List.mem_cons_self

theorem warmCut_checkpoint (s : State) (h : s.seqs.ckptStep ≠ 0) : objGet (warmCut s) Obj.checkpointState = 3 := by
  have hs : (if s.host.busy then mbxEnd s 0x06 else s).seqs = s.seqs := by
    split
    · exact seqs_mbxEnd s 6
    · rfl
  unfold warmCut
  dsimp only
  generalize (if s.host.busy then mbxEnd s 0x06 else s) = u at *
  rw [hs, if_neg h]
  exact objGet_objPut_self _ _ _

theorem warmCut_keeps {γ : Type} (vw : State → γ) (hg : ∀ (s t : State), vw { s with out := t.out, host := t.host, dic := t.dic, seqs := t.seqs } = vw s)
    (s : State) : vw (warmCut s) = vw s := by
  have h : vw (if s.host.busy then mbxEnd s 0x06 else s) = vw s := by
    split
    · exact mbxEnd_keeps vw (fun s t => hg s { s with out := t.out, host := t.host }) s 6
    · rfl
  unfold warmCut
  dsimp only
  generalize (if s.host.busy then mbxEnd s 0x06 else s) = u at *
  split
  · exact h
  · exact (hg u (objPut (updSeqs u _) _ _)).trans h

/-- Objects that the beginning of a warm restart changes. -/
def warmObjs : List Nat :=
  [Obj.moduleState, Obj.lastRestartCause, Obj.lastResetSource, Obj.warmRestarts, Obj.checkpointState] ++ journalObjs

theorem sameObjs_warmCounted (s : State) (cause : Nat) : SameObjs s (warmCounted s cause) warmObjs :=
  SameObjs.objPut (t := updSeqs _ _)
    (((((SameObjs.refl s warmObjs).objInc _ (by decide)).objPut _ _ (by decide)).objPut _ _ (by decide)).of_dic rfl) _ _ (by decide)

theorem warmCounted_objs (s : State) (cause : Nat) : objGet (warmCounted s cause) Obj.moduleState = 4
    ∧ objGet (warmCounted s cause) Obj.lastRestartCause = cause ∧ objGet (warmCounted s cause) Obj.lastResetSource = 5
    ∧ objGet (warmCounted s cause) Obj.checkpointState = objGet s Obj.checkpointState ∧ Counted s (warmCounted s cause) Obj.warmRestarts 1 := by
  have hu (u : State) (k : Nat) (f : Seqs → Seqs) : objGet (updSeqs u f) k = objGet u k := rfl
  unfold warmCounted
  dsimp only
  refine ⟨objGet_objPut_self _ _ _, ?_, ?_, ?_, ?_⟩
  · rw [objGet_objPut_ne _ _ _ _ (by decide), hu, objGet_objPut_ne _ _ _ _ (by decide), objGet_objPut_self]
  · rw [objGet_objPut_ne _ _ _ _ (by decide), hu, objGet_objPut_self]
  · rw [objGet_objPut_ne _ _ _ _ (by decide), hu, objGet_objPut_ne _ _ _ _ (by decide), objGet_objPut_ne _ _ _ _ (by decide),
      objGet_objInc_ne _ _ _ (by decide)]
  · rw [Counted, objGet_objPut_ne _ _ _ _ (by decide), hu, objGet_objPut_ne _ _ _ _ (by decide), objGet_objPut_ne _ _ _ _ (by decide),
      objGet_objInc_self]

theorem foot20_1_self (s : State) : foot20_1 s s = s := rfl

theorem warmBegins (s : State) (h : s.seqs.asked = 1 ∨ s.seqs.asked = 3) :
    ∃ t, runAsked s = t ∧ t.seqs = { s.seqs with asked := 0, warmStep := 0, warmSince := s.now, running := false, ckptStep := 0 }
      ∧ objGet t Obj.moduleState = 4 ∧ objGet t Obj.lastRestartCause = s.seqs.asked ∧ objGet t Obj.lastResetSource = 5
      ∧ Counted s t Obj.warmRestarts 1 ∧ (s.seqs.ckptStep ≠ 0 → objGet t Obj.checkpointState = 3)
      ∧ t = { s with out := t.out, dic := t.dic, arrays := t.arrays, vecs := t.vecs, layers := t.layers, engines := t.engines
                     chans := t.chans, claims := t.claims, waitClaims := t.waitClaims, spills := t.spills, queues := t.queues
                     waiters := t.waiters, outst := t.outst, colls := t.colls, slots := t.slots, greys := t.greys
                     pendColls := t.pendColls, host := t.host, seqs := t.seqs, obs := t.obs }
      ∧ t.layers = [] ∧ t.colls = [] ∧ t.slots = [] ∧ t.waitClaims = [] ∧ (∀ g ∈ t.engines, g.ctx = [])
      ∧ (∀ a ∈ t.arrays, a.run = none ∧ a.fifo = []) ∧ Logged s t .warmRestart [s.seqs.asked] false
      ∧ SameObjs s t ([Obj.moduleState, Obj.lastRestartCause, Obj.lastResetSource, Obj.warmRestarts, Obj.checkpointState]
          ++ journalObjs) := by
  have heq := (runAsked_warm s h).trans (startWarm_eq _ _)
  have hview (T : State) : foot20_1 (runAsked s) T = foot20_1 s T := by
    rw [runAsked_warm s h]
    exact startWarm_keeps (foot20_1 · T) (fun _ _ => rfl) (updSeqs s _) s.seqs.asked
  have hframe : runAsked s = foot20_1 s (runAsked s) := (foot20_1_self _).symm.trans (hview _)
  generalize s.seqs.asked = cause at *
  have hcut := seqs_warmCut (updSeqs s (fun q => { q with asked := 0 }))
  have hnow : (warmCut (updSeqs s (fun q => { q with asked := 0 }))).now = s.now :=
    warmCut_keeps State.now (fun _ _ => rfl) (updSeqs s _)
  have hobs : logView (warmCut (updSeqs s (fun q => { q with asked := 0 }))) = logView s :=
    warmCut_keeps logView (fun _ _ => rfl) (updSeqs s _)
  have hsame : SameObjs s (warmCut (updSeqs s (fun q => { q with asked := 0 }))) [Obj.checkpointState] :=
    sameObjs_warmCut (updSeqs s _)
  have hck := warmCut_checkpoint (updSeqs s (fun q => { q with asked := 0 }))
  generalize warmCut (updSeqs s (fun q => { q with asked := 0 })) = c at *
  obtain ⟨hm, hcause, hsrc, hckpt, hcount⟩ := warmCounted_objs c cause
  have hseqs : (journal (warmCounted c cause) .warmRestart [cause]).seqs
      = { c.seqs with warmStep := 0, warmSince := c.now, running := false } :=
    journal_keeps State.seqs (fun _ _ => rfl) (warmCounted c cause) _ _
  have hobjs : SameObjs (warmCounted c cause) (journal (warmCounted c cause) .warmRestart [cause]) journalObjs :=
    (SameObjs.refl _ _).journal _ _ (List.Subset.refl _)
  have hlog : Logged s (journal (warmCounted c cause) .warmRestart [cause]) .warmRestart [cause] false :=
    (logged_journal (warmCounted c cause) .warmRestart [cause]).of_view hobs
  have hall : SameObjs s (journal (warmCounted c cause) .warmRestart [cause]) warmObjs :=
    (hsame.mono (by decide)).trans ((sameObjs_warmCounted c cause).trans (hobjs.mono (by decide)))
  generalize journal (warmCounted c cause) .warmRestart [cause] = j at *
  have hdic (k : Nat) : objGet (clearEngines j) k = objGet j k := rfl
  refine ⟨runAsked s, rfl, ?_, ?_, ?_, ?_, ?_, ?_, hframe, ?_⟩
  all_goals rw [heq]
  · rw [show (clearEngines j).seqs = j.seqs from rfl, hseqs, hcut, hnow]
    rfl
  · rw [hdic, hobjs _ (by decide), hm]
  · rw [hdic, hobjs _ (by decide), hcause]
  · rw [hdic, hobjs _ (by decide), hsrc]
  · rw [Counted, hdic, hobjs _ (by decide), hcount, hsame _ (by decide)]
  · intro hs
    rw [hdic, hobjs _ (by decide), hckpt, hck hs]
  · refine ⟨rfl, rfl, rfl, rfl, fun g hg => ?_, fun a ha => ?_, hlog.of_obs rfl, hall.of_dic rfl⟩
    · obtain ⟨g0, -, rfl⟩ := List.mem_map.1 hg
      rfl
    · obtain ⟨a0, -, rfl⟩ := List.mem_map.1 ha
      exact ⟨rfl, rfl⟩

/-! ### The boot chain of a warm restart -/

/-- What the first register of a chain begun anew depends on. -/
theorem chainStart_zero {s t : State} (h : t.seqs.bootBank = s.seqs.bootBank) :
    (chainStart t false).sec.meas.getD 0 [] = (chainStart s false).sec.meas.getD 0 [] := by
  have hc (u : State) : chainStart u false = measExtend (updSec u (fun x => { x with
      meas := List.replicate 4 (List.replicate 32 0), log := [], logOverflow := false, chain := [] })) 0 0x10 0 0 Config.romFuseDigest := by
    unfold chainStart
    exact if_neg (fun hk => Bool.noConfusion hk.1)
  rw [hc, hc]
  unfold measExtend updSec
  dsimp only
  rw [h]

theorem measEvent_zero (s : State) (code : Nat) (v : Bytes) : (measEvent s code v).sec.meas.getD 0 [] = s.sec.meas.getD 0 [] := by
  unfold measEvent measExtend updSec
  dsimp only
  rw [List.getD_eq_getElem?_getD, List.getElem?_set_ne (by decide), List.getD_eq_getElem?_getD]

theorem chooseBank_zero (s : State) : (chooseBank s).sec.meas.getD 0 [] = s.sec.meas.getD 0 [] := by
  by_cases h : objGet s Obj.bootBankRequest < 2
  · by_cases hf : s.seqs.trialFails < 2
    · rw [chooseBank_trial s h hf, measEvent_zero]
      rfl
    · rw [chooseBank_failed s h (by omega)]
      rfl
  · rw [chooseBank_active s (by omega)]
    rfl

/-- Images verified, measured, and reported where all six are. -/
theorem bankBooted_sec (s : State) (is : List ImageInfo) :
    (bankBooted (acceptImages s is)).sec.meas = (is.foldl measImage s).sec.meas
      ∧ (bankBooted (acceptImages s is)).sec.log = (is.foldl measImage s).sec.log := by
  unfold acceptImages
  generalize is.foldl measImage s = m
  have h (u : State) : (bankBooted u).sec.meas = u.sec.meas ∧ (bankBooted u).sec.log = u.sec.log := by
    unfold bankBooted putBank
    by_cases hb : u.seqs.bootBank = 0
    · simp only [updSec, objPut, hb, if_true, and_self]
    · simp only [updSec, objPut, hb, if_false, and_self]
  exact h (updSec m _)

theorem sameObjs_bankBooted (s : State) (is : List ImageInfo) :
    SameObjs s (bankBooted (acceptImages s is)) [Obj.firmwareVersion, Obj.runningSecVersion, Obj.bankState] := by
  have ha : (acceptImages s is).dic = s.dic := acceptImages_keeps State.dic (fun _ _ => rfl) s is
  have h0 := SameObjs.of_dic (SameObjs.refl s [Obj.firmwareVersion, Obj.runningSecVersion, Obj.bankState]) ha
  generalize acceptImages s is = u at *
  unfold bankBooted
  dsimp only
  exact SameObjs.objPut (SameObjs.objPut (SameObjs.objPut (t := putBank u _ _) (h0.of_dic rfl) _ _ (by decide)) _ _ (by decide)) _ _ (by decide)

theorem footDicSec_self (s : State) : footDicSec s s = s := rfl

theorem frame_bankBooted (s : State) (is : List ImageInfo) : bankBooted (acceptImages s is) = { s with
    dic := (bankBooted (acceptImages s is)).dic, sec := (bankBooted (acceptImages s is)).sec } := by
  have h (T : State) : footDicSec (bankBooted (acceptImages s is)) T = footDicSec s T :=
    (bankBooted_keeps (footDicSec · T) (fun _ _ => rfl) (acceptImages s is)).trans
      (acceptImages_keeps (footDicSec · T) (fun _ _ => rfl) s is)
  exact (footDicSec_self _).symm.trans (h _)

/-! ### The dies reset (Table REL-4 step 3) -/

/-- What a warm reset says of the rest of the state. -/
def warmView (s : State) : (Mem × List Nat × Mem) × (SMap Word64 × SMap Queue × List Core) × (List ArrayUnit × SMap Nat × List Repair)
    × (Power × List Instr × Nat) :=
  ((s.lpddr, s.lpddrPoison, s.tile), (s.sync, s.queues, s.cores), (s.arrays, s.remaps, s.repairs), (s.power, s.pending, s.now))

theorem warmView_dieReset (s : State) : warmView (dieReset s false) = ((s.lpddr, s.lpddrPoison, []), ([], [], State.reset.cores),
    (s.arrays.map (fun (a : ArrayUnit) => { missTimes := a.missTimes, katSeed := a.katSeed }), s.remaps, s.repairs),
    (s.power, s.pending, s.now)) := by
  have h : warmView (dropSnaps s) = warmView s := dropSnaps_keeps warmView (fun _ _ => rfl) s
  unfold dieReset
  simp only [applyRestart_keeps warmView (fun _ _ => rfl), objPut_keeps warmView (fun _ _ => rfl),
    freeStep_keeps warmView (fun _ _ => rfl), ite_objPut_keeps warmView (fun _ _ => rfl), ite_keeps_objPut warmView (fun _ _ => rfl)]
  simp only [warmView, Prod.mk.injEq] at h ⊢
  simp only [h, and_true]
  exact ⟨⟨rfl, rfl, rfl⟩, ⟨rfl, rfl⟩, rfl⟩

/-- A view of a warm reset that the boot chain leaves is that of the dies reset. -/
theorem warmReset_view {γ : Type} (vw : State → γ) (hg : ∀ s t, vw (footDicSeqsSec s t) = vw s) (s : State) :
    vw (warmReset s) = vw (dieReset s false) := by
  unfold warmReset
  refine (chooseBank_keeps vw hg _).trans ((chainStart_keeps vw (fun s t => hg s { s with sec := t.sec }) _ _).trans ?_)
  exact hg (dieReset s false) (objPut _ _ _)

theorem warmReset_holds (s : State) : objGet (warmReset s) Obj.moduleState = 4
    ∧ (warmReset s).sec.meas.getD 0 [] = (chainStart s false).sec.meas.getD 0 [] := by
  have hq := resetView_dieReset s false
  simp only [resetView, Prod.mk.injEq] at hq
  obtain ⟨-, -, ⟨-, hseqs⟩, -⟩ := hq
  unfold warmReset
  dsimp only
  generalize dieReset s false = d at *
  refine ⟨?_, ?_⟩
  · have hdic : (chainStart (objPut d Obj.moduleState 4) false).dic = (objPut d Obj.moduleState 4).dic :=
      chainStart_keeps State.dic (fun _ _ => rfl) _ _
    rw [sameObjs_chooseBank _ _ (by decide)]
    refine (SameObjs.of_dic (SameObjs.refl _ []) hdic _ (by simp)).trans (objGet_objPut_self _ _ _)
  · rw [chooseBank_zero]
    exact chainStart_zero (show d.seqs.bootBank = s.seqs.bootBank by rw [hseqs])

/-! ### The steps taken (Table REL-4) -/

/-- The region of a bridge that does not train (R26). -/
def regionLeft (u : State) : State := if objGet u Obj.bridgeState = 2 then noRegion u else u

theorem regionLeft_keeps (u : State) : regionLeft u = { u with host := (regionLeft u).host } := by
  unfold regionLeft
  split <;> rfl

theorem regionLeft_host (u : State) :
    (regionLeft u).host = if objGet u Obj.bridgeState = 2 then { u.host with cxlGiB := 0 } else u.host := by
  unfold regionLeft
  split <;> rfl


theorem warmStepDone_wires (failed : List (Nat × Nat)) (s : State) (hs : s.seqs.warmStep = 5) :
    warmStepDone s (.wires failed) = warmStepTo (regionLeft (trainBridge s failed)) 6 := by
  unfold warmStepDone
  generalize s.seqs.warmStep = m at hs
  subst hs
  rfl

/-- The light brought up again (Table REL-4 step 9). -/
def lightUp (s : State) (es : List LaserExam) (un again : List Nat) : State :=
  applyIntended (sweepAll (examineLasers s es) un again false)

/-- A state with all that the light's coming up may change as in another one. -/
def footLight (s t : State) : State := { foot16 s t with tapped := t.tapped }

theorem footLight_self (s : State) : footLight s s = s := rfl

theorem lightUp_frame (s : State) (es : List LaserExam) (un again : List Nat) : lightUp s es un again
    = footLight s (lightUp s es un again) := by
  have h (T : State) : footLight (lightUp s es un again) T = footLight s T :=
    (applyIntended_keeps (footLight · T) (fun _ _ => rfl) _).trans
      ((sweepAll_keeps (footLight · T) (fun _ _ => rfl) (examineLasers s es) un again false).trans
        (examineLasers_keeps (footLight · T) (fun _ _ => rfl) s es))
  exact (footLight_self _).symm.trans (h _)

theorem lightUp_free (s : State) (es : List LaserExam) (un again : List Nat) : (lightUp s es un again).free = s.free + 1088 := by
  unfold lightUp
  rw [applyIntended_keeps State.free (fun _ _ => rfl), free_sweepAll, examineLasers_keeps State.free (fun _ _ => rfl)]

theorem lightUp_state (s : State) (es : List LaserExam) (un again : List Nat) (k : Nat) (e : LaserExam)
    (hk : k < if s.seqs.halfE then 8 else 4) (h : es[k]? = some e) :
    objGet (lightUp s es un again) (Obj.laserInputState + k) = laserState s k e := by
  have h8 : k < 8 := by split at hk <;> omega
  rw [← laserState_examined s es k e hk h]
  refine ((sameLight_sweepAll _ un again false).trans (sameLight_applyIntended _)) _ ?_ ?_
  · simp only [Obj.laserInputState]; omega
  · simp only [Obj.laserInputState]; omega

/-- The memory's failure reported as the module's (R179). -/
def memoryTold (u : State) : State := if objGet u Obj.memState = 2 then objPut u Obj.moduleState 3 else u

theorem memoryTold_keeps (u : State) : memoryTold u = { u with dic := (memoryTold u).dic } := by
  unfold memoryTold
  split <;> rfl

theorem memoryTold_other (u : State) (k : Nat) (h : k ≠ Obj.moduleState) : objGet (memoryTold u) k = objGet u k := by
  unfold memoryTold
  split
  · exact objGet_objPut_ne _ _ _ _ h
  · rfl

theorem memoryTold_state (u : State) :
    objGet (memoryTold u) Obj.moduleState = if objGet u Obj.memState = 2 then 3 else objGet u Obj.moduleState := by
  unfold memoryTold
  split
  · exact objGet_objPut_self _ _ _
  · rfl

theorem warmStepDone_channels (failed : List Nat) (s : State) (hs : s.seqs.warmStep = 6) :
    warmStepDone s (.channels failed) = memoryTold (warmStepTo (trainMemory s failed) 7) := by
  unfold warmStepDone
  generalize s.seqs.warmStep = m at hs
  subst hs
  rfl

theorem warmStepDone_reup (es : List LaserExam) (un again : List Nat) (s : State) (hs : s.seqs.warmStep = 8) :
    warmStepDone s (.reup es un again) = warmStepTo (lightUp s es un again) 9 := by
  unfold warmStepDone
  generalize s.seqs.warmStep = m at hs
  subst hs
  rfl

theorem warmStepDone_last (s : State) (hs : s.seqs.warmStep = 9) : warmStepDone s .ok = warmStepTo (warmDone s) 10 := by
  unfold warmStepDone
  generalize s.seqs.warmStep = m at hs
  subst hs
  rfl

/-! ### The end of a restart -/

/-- The known-answer runs timed from now. -/
def katsTimed (s : State) : State := { s with arrays := s.arrays.map (fun (a : ArrayUnit) => { a with katLast := s.now }) }

theorem endStart_eq (s : State) : endStart s =
    if objGet s Obj.memState = 2 then objPut (katsTimed s) Obj.moduleState 3
    else if objGet s Obj.bridgeState = 2 ∨ s.seqs.halfE = false then objPut (greyAll (noRegion (katsTimed s)) 4) Obj.moduleState 2
    else confirmTrial (objPut (katsTimed s) Obj.moduleState 1) := by
  have h : (objGet s Obj.bridgeState = 2 ∨ (!s.seqs.halfE) = true) = (objGet s Obj.bridgeState = 2 ∨ s.seqs.halfE = false) := by
    rw [Bool.not_eq_true']
  unfold endStart
  simp only [← h]
  rfl

theorem sameCells_greyAll (s : State) (cause : Nat) : SameCells s (greyAll s cause) mapObjs := by
  refine (SameCells.refl s _).foldl _ _ (fun u k hk => ?_)
  split
  · exact (sameCells_setCause u k cause true).mono (settleObjs_sub_map (List.mem_range.mp hk))
  · exact SameCells.refl _ _

/-- Objects that the end of a start changes. -/
def endObjs : List Nat := [Obj.moduleState, Obj.activeBank, Obj.bootBankRequest, Obj.firmwareUpdateState] ++ mapObjs

theorem sameObjs_confirmTrial (s : State) :
    SameObjs s (confirmTrial s) [Obj.activeBank, Obj.bootBankRequest, Obj.firmwareUpdateState] := by
  unfold confirmTrial
  split
  · exact SameObjs.refl s _
  · exact ((((SameObjs.refl s _).objPut _ _ (by decide)).objPut _ _ (by decide)).objPut _ _ (by decide)).of_dic rfl

theorem sameObjs_endStart (s : State) : SameObjs s (endStart s) endObjs := by
  have h0 : SameObjs s (katsTimed s) endObjs := (SameObjs.refl s _).of_dic rfl
  rw [endStart_eq]
  split
  · exact h0.objPut _ _ List.mem_cons_self
  · split
    · have hg := (sameCells_greyAll (noRegion (katsTimed s)) 4).objs
      refine SameObjs.objPut (SameObjs.trans ((SameObjs.refl s _).of_dic rfl) (SameObjs.mono hg ?_)) _ _ List.mem_cons_self
      exact List.subset_append_right _ _
    · refine (h0.objPut _ _ List.mem_cons_self).trans ((sameObjs_confirmTrial _).mono (List.cons_subset.2 ⟨?_, ?_⟩))
      · exact List.mem_append_left _ (by decide)
      · exact fun x hx => List.mem_append_left _ (List.mem_cons_of_mem _ (List.mem_cons_of_mem _ hx))

/-- The module's state at the end of a start (R25, R179). -/
def endState (s : State) : Nat :=
  if objGet s Obj.memState = 2 then 3 else if objGet s Obj.bridgeState = 2 ∨ s.seqs.halfE = false then 2 else 1

theorem endStart_state (s : State) : objGet (endStart s) Obj.moduleState = endState s := by
  rw [endStart_eq, endState]
  split
  · exact objGet_objPut_self _ _ _
  · split
    · exact objGet_objPut_self _ _ _
    · exact (sameObjs_confirmTrial _ _ (by decide)).trans (objGet_objPut_self _ _ _)

theorem endStart_arrays (s : State) : (endStart s).arrays = s.arrays.map (fun (a : ArrayUnit) => { a with katLast := s.now }) := by
  rw [endStart_eq]
  split
  · rfl
  · split
    · exact (objPut_keeps State.arrays (fun _ _ => rfl) _ _ _).trans (greyAll_keeps State.arrays (fun _ _ => rfl) _ 4)
    · exact confirmTrial_keeps State.arrays (fun _ _ => rfl) _

theorem endStart_host (s : State) : (endStart s).host = if endState s = 2 then { s.host with cxlGiB := 0 } else s.host := by
  rw [endStart_eq, endState]
  split
  · rfl
  · split
    · exact (objPut_keeps State.host (fun _ _ => rfl) _ _ _).trans (greyAll_keeps State.host (fun _ _ => rfl) _ 4)
    · exact confirmTrial_keeps State.host (fun _ _ => rfl) _

theorem endStart_trial (s : State) (h : endState s = 1) (ht : s.seqs.trial = true) :
    objGet (endStart s) Obj.activeBank = s.seqs.bootBank ∧ objGet (endStart s) Obj.bootBankRequest = 0xFF
      ∧ objGet (endStart s) Obj.firmwareUpdateState = 3 ∧ (endStart s).seqs.trial = false := by
  have h1 : ¬ objGet s Obj.memState = 2 := fun hc => by rw [endState, if_pos hc] at h; omega
  have h2 : ¬ (objGet s Obj.bridgeState = 2 ∨ s.seqs.halfE = false) := fun hc => by rw [endState, if_neg h1, if_pos hc] at h; omega
  rw [endStart_eq, if_neg h1, if_neg h2]
  have hu (u : State) (k : Nat) (f : Seqs → Seqs) : objGet (updSeqs u f) k = objGet u k := rfl
  have hc (u : State) (hu : u.seqs.trial = true) : confirmTrial u = updSeqs (objPut (objPut (objPut u Obj.activeBank u.seqs.bootBank)
      Obj.bootBankRequest 0xFF) Obj.firmwareUpdateState 3) (fun q => { q with trial := false, trialFails := 0 }) :=
    if_neg (by simp [hu])
  rw [hc (objPut (katsTimed s) Obj.moduleState 1) ht]
  refine ⟨?_, ?_, ?_, rfl⟩
  · rw [hu, objGet_objPut_ne _ _ _ _ (by decide), objGet_objPut_ne _ _ _ _ (by decide), objGet_objPut_self]
    rfl
  · rw [hu, objGet_objPut_ne _ _ _ _ (by decide), objGet_objPut_self]
  · rw [hu, objGet_objPut_self]

theorem foot9_0_self (s : State) : foot9_0 s s = s := rfl

/-- The header of a checkpoint that stands reported (R375). -/
def headerTold (s : State) : State :=
  if natBit 32 (ckptHeader s) then objPut (objPut s Obj.checkpointState 2) Obj.checkpointEpoch (ckptHeader s % 2 ^ 32) else s

theorem warmDone_eq (s : State) : warmDone s = endStart (headerTold s) := rfl

theorem headerTold_keeps (s : State) : headerTold s = { s with dic := (headerTold s).dic } := by
  unfold headerTold
  split <;> rfl

theorem sameObjs_headerTold (s : State) : SameObjs s (headerTold s) [Obj.checkpointState, Obj.checkpointEpoch] := by
  unfold headerTold
  split
  · exact ((SameObjs.refl s _).objPut _ _ (by decide)).objPut _ _ (by decide)
  · exact SameObjs.refl s _

theorem headerTold_objs (s : State) (h : natBit 32 (ckptHeader s) = true) : objGet (headerTold s) Obj.checkpointState = 2
    ∧ objGet (headerTold s) Obj.checkpointEpoch = ckptHeader s % 2 ^ 32 := by
  rw [headerTold, if_pos h]
  exact ⟨(objGet_objPut_ne _ _ _ _ (by decide)).trans (objGet_objPut_self _ _ _), objGet_objPut_self _ _ _⟩

theorem footTrain_self (s : State) : foot4_2 s s = s := rfl

theorem trainMemory_frame (s : State) (failed : List Nat) : trainMemory s failed = foot4_2 s (trainMemory s failed) :=
  (footTrain_self _).symm.trans (trainMemory_keeps (foot4_2 · (trainMemory s failed)) (fun _ _ => rfl) s failed)

section
variable {s : State} (hon : s.power.on = true) (hm : objGet s Obj.moduleState = 4)
include hon hm

theorem exec_warmStep (o : StepOutcome) : exec (.warmRestartStepDone o) s = .next (warmStepDone s o) :=
  congrArg Host.Outcome.next (if_pos ⟨hon, hm⟩)

/-- A step that only counts. -/
theorem warmStep_plain (n : Nat) (hn : n = 0 ∨ n = 1 ∨ n = 7) (hs : s.seqs.warmStep = n) :
    exec (.warmRestartStepDone .ok) s = .next { s with seqs := { s.seqs with warmStep := n + 1 } } := by
  have h : warmStepDone s .ok = warmStepTo s (n + 1) := by
    unfold warmStepDone
    generalize s.seqs.warmStep = m at hs
    subst hs
    rcases hn with rfl | rfl | rfl <;> rfl
  exact (exec_warmStep hon hm .ok).trans (congrArg _ h)

theorem warmStep_reset (hs : s.seqs.warmStep = 2) :
    ∃ t, exec (.warmRestartStepDone .ok) s = .next t ∧ t.seqs.warmStep = 3 ∧ objGet t Obj.moduleState = 4 ∧ t.lpddr = s.lpddr
      ∧ t.lpddrPoison = s.lpddrPoison ∧ t.tile = [] ∧ t.sync = [] ∧ t.queues = [] ∧ t.cores = State.reset.cores
      ∧ (∀ a ∈ t.arrays, a.run = none ∧ a.banks = ({} : ArrayUnit).banks) ∧ t.remaps = s.remaps ∧ t.repairs = s.repairs
      ∧ t.power = s.power ∧ t.pending = s.pending ∧ t.now = s.now
      ∧ t.sec.meas.getD 0 [] = (chainStart s false).sec.meas.getD 0 [] := by
  have h : warmStepDone s .ok = warmStepTo (warmReset s) 3 := by
    unfold warmStepDone
    generalize s.seqs.warmStep = m at hs
    subst hs
    rfl
  have hv := (warmReset_view warmView (fun _ _ => rfl) s).trans (warmView_dieReset s)
  obtain ⟨hmod, hmeas⟩ := warmReset_holds s
  generalize warmReset s = u at *
  simp only [warmView, Prod.mk.injEq] at hv
  obtain ⟨⟨hl, hp, ht⟩, ⟨hsy, hqu, hco⟩, ⟨har, hrm, hrp⟩, hpo, hpe, hno⟩ := hv
  refine ⟨warmStepTo u 3, (exec_warmStep hon hm .ok).trans (congrArg _ h), rfl, hmod, hl, hp, ht, hsy, hqu, hco, fun a ha => ?_, hrm, hrp,
    hpo, hpe, hno, hmeas⟩
  rw [show (warmStepTo u 3).arrays = u.arrays from rfl, har] at ha
  obtain ⟨b, -, rfl⟩ := List.mem_map.1 ha
  exact ⟨rfl, rfl⟩

theorem warmStep_images (is : List ImageInfo) (hs : s.seqs.warmStep = 3) (ht : typesAre is [1, 2, 3, 4, 5, 6] = true) :
    (verifyImages s is = none →
      ∃ t, exec (.warmRestartStepDone (.images is)) s = .next t
        ∧ t = { s with dic := t.dic, seqs := { s.seqs with warmStep := 4 }, sec := t.sec }
        ∧ t.sec.meas = (is.foldl measImage s).sec.meas ∧ t.sec.log = (is.foldl measImage s).sec.log
        ∧ SameObjs s t [Obj.firmwareVersion, Obj.runningSecVersion, Obj.bankState])
    ∧ (∀ ty, verifyImages s is = some ty →
      exec (.warmRestartStepDone (.images is)) s = .next (bootFailed s ty true)) := by
  have h : warmStepDone s (.images is) = warmVerify s is := by
    unfold warmStepDone
    generalize s.seqs.warmStep = m at hs
    subst hs
    exact if_pos ht
  have hex := (exec_warmStep hon hm (.images is)).trans (congrArg _ h)
  refine ⟨fun hv => ?_, fun ty hv => ?_⟩
  · have hok : warmVerify s is = warmStepTo (bankBooted (acceptImages s is)) 4 := by
      unfold warmVerify
      generalize verifyImages s is = x at hv
      subst hv
      rfl
    have hf := frame_bankBooted s is
    obtain ⟨hmeas, hlog⟩ := bankBooted_sec s is
    have hobjs := sameObjs_bankBooted s is
    generalize bankBooted (acceptImages s is) = u at *
    refine ⟨warmStepTo u 4, hex.trans (congrArg _ hok), ?_, hmeas, hlog, hobjs.of_dic rfl⟩
    rw [hf]
    rfl
  · have hbad : warmVerify s is = bootFailed s ty true := by
      unfold warmVerify
      generalize verifyImages s is = x at hv
      subst hv
      rfl
    exact hex.trans (congrArg _ hbad)

theorem warmStep_cores (b : Bool) (hs : s.seqs.warmStep = 4) :
    ∃ t, exec (.warmRestartStepDone (if b then .ok else .pilotUntrained)) s = .next t
      ∧ t = { s with dic := t.dic, cores := t.cores, seqs := { s.seqs with warmStep := 5, halfE := b } }
      ∧ (∀ i, i < 8 → (coreAt t i).st = if i < 4 ∨ b = true then 1 else 0)
      ∧ objGet t Obj.pilotState = boolNat b ∧ SameObjs s t [Obj.pilotState] := by
  have h : warmStepDone s (if b then .ok else .pilotUntrained)
      = warmStepTo (coresRun (objPut s Obj.pilotState (boolNat b)) b) 5 := by
    unfold warmStepDone
    generalize s.seqs.warmStep = m at hs
    subst hs
    cases b <;> rfl
  refine ⟨warmStepTo (coresRun (objPut s Obj.pilotState (boolNat b)) b) 5, (exec_warmStep hon hm _).trans (congrArg _ h), rfl,
    fun i hi => ?_, objGet_objPut_self _ _ _, ?_⟩
  · have hc (u : State) : (coreAt (warmStepTo (coresRun u b) 5) i).st = if i < 4 ∨ b = true then 1 else 0 := by
      unfold coreAt warmStepTo updSeqs coresRun
      dsimp only
      rw [List.getD_eq_getElem?_getD, List.getElem?_map, List.getElem?_range hi]
      rfl
    exact hc _
  · exact (SameObjs.objPut (SameObjs.refl s _) _ _ List.mem_cons_self).of_dic rfl

theorem warmStep_wires (failed : List (Nat × Nat)) (hs : s.seqs.warmStep = 5) :
    ∃ t, exec (.warmRestartStepDone (.wires failed)) s = .next t
      ∧ t = { s with dic := t.dic, bridge := t.bridge, host := t.host, seqs := { s.seqs with warmStep := 6 }, obs := t.obs }
      ∧ objGet t Obj.bridgeMemBundles = ((List.range 64).filter (bundleTrains t)).length
      ∧ objGet t Obj.bridgeRouterBundles = ((List.range 32).filter (fun b => bundleTrains t (64 + b))).length
      ∧ (objGet t Obj.bridgeState = 2 ↔ objGet t Obj.bridgeMemBundles < 48 ∨ objGet t Obj.bridgeRouterBundles < 24)
      ∧ t.host = (if objGet t Obj.bridgeState = 2 then { s.host with cxlGiB := 0 } else s.host)
      ∧ SameObjs s t ([Obj.bridgeMemBundles, Obj.bridgeRouterBundles, Obj.bridgeRetiredMap, Obj.bridgeRetiredMapHigh,
          Obj.bridgeSparesUsed, Obj.bridgeState] ++ journalObjs) := by
  have hex := (exec_warmStep hon hm (.wires failed)).trans (congrArg _ (warmStepDone_wires failed s hs))
  have hf := trainBridge_frame s failed
  obtain ⟨hmem, hrtr, hst, hobjs⟩ := trainBridge_objs s failed
  generalize trainBridge s failed = u at *
  have hr := regionLeft_keeps u
  have hh := regionLeft_host u
  generalize regionLeft u = w at *
  have hdic (k : Nat) : objGet (warmStepTo w 6) k = objGet u k := by rw [hr]; rfl
  obtain ⟨hb1, hb2⟩ := goodWires_of_bridge (show (warmStepTo w 6).bridge = u.bridge by rw [hr]; rfl)
  refine ⟨warmStepTo w 6, hex, ?_, ?_, ?_, ?_, ?_, ?_⟩
  · rw [hr, hf]
    rfl
  · rw [hdic, hmem, ← hb1]
    rfl
  · rw [hdic, hrtr, ← hb2]
    rfl
  · rw [hdic, hdic, hdic]
    exact hst
  · rw [hdic, show (warmStepTo w 6).host = w.host from rfl, hh, show u.host = s.host by rw [hf]]
  · intro k hk
    rw [hdic]
    exact hobjs k hk

theorem warmStep_channels (failed : List Nat) (hs : s.seqs.warmStep = 6) :
    ∃ t, exec (.warmRestartStepDone (.channels failed)) s = .next t
      ∧ t = { s with dic := t.dic, chans := t.chans, host := t.host, seqs := { s.seqs with warmStep := 7 }, obs := t.obs }
      ∧ (∀ c, c < 64 → objGet t (Obj.memChannelState + c) = if failed.contains c then 4 else 0)
      ∧ ((∀ c ∈ failed, 64 ≤ c) → objGet t Obj.memState = 0 ∧ objGet t Obj.moduleState = 4 ∧ t.host = s.host)
      ∧ ((∃ c ∈ failed, c < 64) → objGet t Obj.memState = 2 ∧ objGet t Obj.moduleState = 3
          ∧ t.host = { s.host with cxlGiB := 0 })
      ∧ SameObjs s t ([Obj.memState, Obj.moduleState] ++ (List.range 64).map (Obj.memChannelState + ·) ++ alertObjs) := by
  have hex := (exec_warmStep hon hm (.channels failed)).trans (congrArg _ (warmStepDone_channels failed s hs))
  have hf := trainMemory_frame s failed
  obtain ⟨hch, hpass, hfail, hobjs⟩ := trainMemory_objs s failed
  generalize trainMemory s failed = u at *
  have hk := memoryTold_keeps (warmStepTo u 7)
  have hother := memoryTold_other (warmStepTo u 7)
  have hstate := memoryTold_state (warmStepTo u 7)
  have hhost : (memoryTold (warmStepTo u 7)).host = u.host := by rw [hk]; rfl
  have hdic (k : Nat) : objGet (warmStepTo u 7) k = objGet u k := rfl
  have hmod : objGet u Obj.moduleState = objGet s Obj.moduleState := hobjs _ (by decide)
  rw [hdic] at hstate
  generalize memoryTold (warmStepTo u 7) = w at *
  refine ⟨w, hex, ?_, fun c hc => ?_, fun hall => ?_, fun hone => ?_, fun k hk' => ?_⟩
  · rw [hk, hf]
    rfl
  · rw [hother _ (by simp only [Obj.memChannelState, Obj.moduleState]; omega), hdic, hch c hc]
  · obtain ⟨h1, h2⟩ := hpass hall
    refine ⟨(hother _ (by decide)).trans h1, ?_, hhost.trans h2⟩
    rw [hstate, hdic, h1, if_neg (by decide), hmod, hm]
  · obtain ⟨h1, h2⟩ := hfail hone
    refine ⟨(hother _ (by decide)).trans h1, ?_, hhost.trans h2⟩
    rw [hstate, hdic, h1, if_pos rfl]
  · have hne : k ≠ Obj.moduleState := fun h => hk' (by rw [h]; simp)
    rw [hother k hne, hdic]
    refine hobjs k (fun hmem => hk' ?_)
    simp only [trainObjs, List.mem_append, List.mem_cons, List.not_mem_nil, or_false] at hmem ⊢
    tauto

theorem warmStep_reup (es : List LaserExam) (un again : List Nat) (hs : s.seqs.warmStep = 8) :
    ∃ t, exec (.warmRestartStepDone (.reup es un again)) s = .next t
      ∧ t = { s with free := s.free + 1088, dic := t.dic, persist := t.persist, doms := t.doms, lasers := t.lasers,
                     rings := t.rings, rotors := t.rotors, specMap := t.specMap, tapped := t.tapped, reassign := t.reassign,
                     recovery := t.recovery, inGrant := t.inGrant, links := t.links, routerW := t.routerW,
                     routerE := t.routerE, outst := t.outst, seqs := { s.seqs with warmStep := 9 }, obs := t.obs }
      ∧ (∀ k e, k < (if s.seqs.halfE then 8 else 4) → es[k]? = some e → objGet t (Obj.laserInputState + k) = laserState s k e) := by
  have hex := (exec_warmStep hon hm (.reup es un again)).trans (congrArg _ (warmStepDone_reup es un again s hs))
  have hf := lightUp_frame s es un again
  have hfree := lightUp_free s es un again
  have hst := lightUp_state s es un again
  generalize lightUp s es un again = u at *
  refine ⟨warmStepTo u 9, hex, ?_, hst⟩
  rw [← hfree, hf]
  rfl

theorem warmStep_last (hs : s.seqs.warmStep = 9) :
    ∃ t, exec (.warmRestartStepDone .ok) s = .next t ∧ t.seqs.warmStep = 10
      ∧ objGet t Obj.moduleState = (if objGet s Obj.memState = 2 then 3
          else if objGet s Obj.bridgeState = 2 ∨ s.seqs.halfE = false then 2 else 1)
      ∧ (natBit 32 (ckptHeader s) = true → objGet t Obj.checkpointState = 2 ∧ objGet t Obj.checkpointEpoch = ckptHeader s % 2 ^ 32)
      ∧ (∀ nn, nn < s.arrays.length → arrayOf t nn = { arrayOf s nn with katLast := s.now })
      ∧ t = { s with dic := t.dic, arrays := t.arrays, links := t.links, routerW := t.routerW, routerE := t.routerE
                     outst := t.outst, host := t.host, seqs := t.seqs, obs := t.obs }
      ∧ t.host = (if objGet t Obj.moduleState = 2 then { s.host with cxlGiB := 0 } else s.host)
      ∧ (objGet t Obj.moduleState = 1 → s.seqs.trial = true → objGet t Obj.activeBank = s.seqs.bootBank
        ∧ objGet t Obj.bootBankRequest = 0xFF ∧ objGet t Obj.firmwareUpdateState = 3 ∧ t.seqs.trial = false) := by
  have hex := (exec_warmStep hon hm .ok).trans (congrArg _ (warmStepDone_last s hs))
  rw [warmDone_eq] at hex
  have hk := headerTold_keeps s
  have hobjs := sameObjs_headerTold s
  have hck := headerTold_objs s
  generalize headerTold s = h at *
  have hstate := endStart_state h
  have harr := endStart_arrays h
  have hhost := endStart_host h
  have htrial := endStart_trial h
  have hend := sameObjs_endStart h
  have hframe (T : State) : foot9_0 (endStart h) T = foot9_0 h T := endStart_keeps (foot9_0 · T) (fun _ _ => rfl) h
  have hes : endState h = endState s := by
    rw [endState, endState, hobjs _ (by decide), hobjs _ (by decide), hk]
  rw [hes] at hstate hhost htrial
  generalize endStart h = e at *
  have hdic (k : Nat) : objGet (warmStepTo e 10) k = objGet e k := rfl
  refine ⟨warmStepTo e 10, hex, rfl, hstate, fun hv => ?_, fun nn hn => ?_, ?_, ?_, fun h1 ht => ?_⟩
  · obtain ⟨h1, h2⟩ := hck hv
    refine ⟨?_, ?_⟩
    · rw [hdic, hend _ (by decide), h1]
    · rw [hdic, hend _ (by decide), h2]
  · have ha : h.arrays = s.arrays := by rw [hk]
    have hnow : h.now = s.now := by rw [hk]
    show e.arrays.getD nn {} = _
    rw [harr, ha, hnow, List.getD_eq_getElem?_getD, List.getElem?_map, List.getElem?_eq_getElem hn]
    unfold arrayOf
    rw [List.getD_eq_getElem?_getD, List.getElem?_eq_getElem hn]
    rfl
  · have hw : warmStepTo e 10 = foot9_0 h (warmStepTo e 10) := (foot9_0_self _).symm.trans (hframe (warmStepTo e 10))
    have hs' : foot9_0 h (warmStepTo e 10) = foot9_0 s (warmStepTo e 10) := by rw [hk]; rfl
    exact hw.trans hs'
  · rw [hdic, hstate, show (warmStepTo e 10).host = e.host from rfl, hhost, hk]
  · rw [hdic, hstate] at h1
    have hb : h.seqs = s.seqs := by rw [hk]
    obtain ⟨h2, h3, h4, h5⟩ := htrial h1 (by rw [hb]; exact ht)
    rw [hb] at h2
    exact ⟨h2, h3, h4, h5⟩

end

/-- Settles O48, step by step of Table REL-4. -/
theorem warmRestartsRunStepByStep : Obligations.WarmRestartsRunStepByStep := by
  unfold Obligations.WarmRestartsRunStepByStep
  refine ⟨warmRestartWrite_holds, warmBegins, fun o s h => congrArg Host.Outcome.next (if_neg ?_), fun s hon hm =>
    ⟨warmStep_plain hon hm, warmStep_reset hon hm, warmStep_images hon hm, warmStep_cores hon hm, warmStep_wires hon hm,
      warmStep_channels hon hm, warmStep_reup hon hm, warmStep_last hon hm⟩⟩
  rintro ⟨hon, hm⟩
  rcases h with h | h
  · rw [hon] at h; exact Bool.noConfusion h
  · exact h hm

end Sys2Proof.Machine

/-!
Host-facing resets (O38): an access that waits at the data port is served during the reset, after the back-invalidations were forgotten,
and where it frees a slot of a completion ring whose line the host may cache it asks for a new one.
-/

namespace Sys2Proof.Machine

/-- An aborted queue with a record that waits for its ring. -/
def waitingQueue : Queue :=
  { id := 0, halves := 0, prio := 0, limit := 0, ringLog2 := 0, cplLog2 := 1, irqVector := 0, ringAddr := 0, cplAddr := 0, threshold := 0
    state := 4, waitRing := [{}] }

/-- A data port write of CPL_HEAD in the control page of queue 0. -/
def headWrite : PortWait := .dataPort (pageBase / 64) (some (natLe 8 0, false)) 56 8 []

/-- Ready, with the write waiting, and the first line of the completion ring held by the host. -/
def recordWaits : State :=
  { State.reset with
    dic := [(Obj.moduleState, 1)]
    queues := [(0, waitingQueue)]
    host := { State.reset.host with gen := 1, snoopW := [0], waits := [headWrite] } }

theorem bisnp_linkGone (s : State) : (linkGone s).host.bisnp = s.host.bisnp := rfl

theorem recordWaits_asks : (hostReset recordWaits).host.bisnp ≠ [] := by decide

/-- Refutes O38: the write served by the reset lets a waiting record ask for its slot, and a back-invalidation stands after it. -/
theorem not_hostFacingResetsEmptyTheHostState : ¬ Obligations.HostFacingResetsEmptyTheHostState := by
  unfold Obligations.HostFacingResetsEmptyTheHostState
  intro h
  obtain ⟨hreset, -⟩ := h
  obtain ⟨t, hexec, -, -, -, -, hbisnp, -⟩ := hreset .hotReset recordWaits (Or.inr (Or.inl rfl))
  have ht : linkGone (hostReset recordWaits) = t := Host.Outcome.next.inj hexec
  rw [← ht, bisnp_linkGone] at hbisnp
  exact recordWaits_asks hbisnp

end Sys2Proof.Machine

/-!
The host memory traffic (R323 to R328, O37).
-/

namespace Sys2Proof.Machine

/-! ### One line of memory -/

theorem linesOf_line (line : Nat) : linesOf (64 * line) 64 = [64 * line] := by
  unfold linesOf
  rw [if_neg (by decide), show (64 * line + 64 - 1) / 64 - 64 * line / 64 + 1 = 1 by omega]
  simp only [List.range_one, List.map_cons, List.map_nil, List.cons.injEq, and_true]
  omega

theorem dimLine_none {s : State} {line : Nat} (h : dimLine s (64 * line) 64 = none) : lineDim s (64 * line) = false := by
  unfold dimLine at h
  rw [linesOf_line] at h
  simpa using h

theorem dimLine_some {s : State} {line : Nat} (h : (dimLine s (64 * line) 64).isSome = true) :
    dimLine s (64 * line) 64 = some (64 * line) := by
  unfold dimLine at h ⊢
  rw [linesOf_line] at h ⊢
  cases hd : lineDim s (64 * line) with
  | true => simp [hd]
  | false => simp [hd] at h

/-- A write to a line of a channel that is not Dim finds room. -/
theorem heldLine_write {s : State} {line : Nat} (h : dimLine s (64 * line) 64 = none) (mask : Nat) (data : Bytes) (poison : Bool) :
    heldLine s (.cxlWrite line mask data poison) = none := by
  have hd := dimLine_none h
  simp [heldLine, linesOf_line, writeRoom, hd]

theorem heldLine_port {s : State} {line : Nat} (h : dimLine s (64 * line) 64 = none) (w : Bytes × Bool) (first n : Nat)
    (ev : List LineEvent) : heldLine s (.dataPort line (some w) first n ev) = none := by
  have hd := dimLine_none h
  simp [heldLine, linesOf_line, writeRoom, hd]

theorem linePoison_clean {s : State} {line : Nat} (hl : 64 * line < lpddrSize) (h : linePoison s (64 * line) = false) :
    nsHas s.lpddrPoison line = false ∧ nsHas s.lpddrBad line = false := by
  unfold linePoison at h
  rwa [if_pos hl, show 64 * line / 64 = line by omega, Bool.or_eq_false_iff] at h

/-- What a write does to a clean line of LPDDR (R169). -/
def cleanStored (s : State) (line mask : Nat) (data : Bytes) (poison : Bool) : State :=
  updChan { s with lpddr := memStoreMask s.lpddr (64 * line) mask data, lpddrPoison := nsPut s.lpddrPoison line poison
                   lpddrBad := nsDel s.lpddrBad line } (channelOf s (64 * line)) (acceptWrite s.now line)

theorem noteWrite_plain (s : State) (line : Nat) (h : (chanOf s (channelOf s (64 * line))).dim.isSome = false) :
    noteWrite s line = updChan s (channelOf s (64 * line)) (acceptWrite s.now line) := by
  unfold noteWrite
  dsimp only
  rw [h]
  rfl

theorem writeLine_clean (s : State) (line mask : Nat) (data : Bytes) (poison : Bool) (hl : 64 * line < lpddrSize)
    (hp : linePoison s (64 * line) = false) (hd : dimLine s (64 * line) 64 = none) :
    writeLine s (64 * line) mask data poison = cleanStored s line mask data poison := by
  obtain ⟨h1, h2⟩ := linePoison_clean hl hp
  have hdim : (chanOf s (channelOf s (64 * line))).dim.isSome = false := by
    have := dimLine_none hd
    unfold lineDim at this
    simpa [hl] using this
  have hw : writeLpddrLine s line mask data poison = { s with
      lpddr := memStoreMask s.lpddr (64 * line) mask data, lpddrPoison := nsPut s.lpddrPoison line poison
      lpddrBad := nsDel s.lpddrBad line } := by
    unfold writeLpddrLine
    rw [h1, h2]
    simp
  unfold writeLine
  rw [if_pos hl, show 64 * line / 64 = line by omega, hw]
  exact noteWrite_plain { s with lpddr := _, lpddrPoison := _, lpddrBad := _ } line hdim

theorem linePoison_stored (s : State) (line mask : Nat) (data : Bytes) (poison : Bool) (hl : 64 * line < lpddrSize) :
    linePoison (cleanStored s line mask data poison) (64 * line) = poison := by
  unfold linePoison
  rw [if_pos hl, show 64 * line / 64 = line by omega]
  show (nsHas (nsPut s.lpddrPoison line poison) line || nsHas (nsDel s.lpddrBad line) line) = poison
  rw [nsHas_nsPut, nsHas_nsDel]
  simp

theorem memBytes_getD (m : Mem) (a n i : Nat) (h : i < n) : (memBytes m a n).getD i 0 = memRead m (a + i) := by
  induction n generalizing a i with
  | zero => exact absurd h (Nat.not_lt_zero i)
  | succ n ih =>
    cases i with
    | zero => rfl
    | succ i =>
      rw [memBytes, List.getD_cons_succ, ih (a + 1) i (by omega)]
      congr 1
      omega

/-! ### The snoop filter (R326) -/

/-- Two states that differ in what the port has sent and in its filters. -/
def Filtered (s t : State) : Prop :=
  ∃ l w e, t = { s with out := s.out ++ l, host := { s.host with snoopW := w, snoopE := e } }

theorem filtered_setSnoop (s : State) (h : Half) (ls : List Nat) : Filtered s (setSnoop s h ls) := by
  cases h
  · exact ⟨[], ls, s.host.snoopE, by rw [List.append_nil]; rfl⟩
  · exact ⟨[], s.host.snoopW, ls, by rw [List.append_nil]; rfl⟩

theorem filtered_track (s : State) (line : Nat) : Filtered s (track s line) := by
  unfold track
  split
  · exact ⟨[], s.host.snoopW, s.host.snoopE, by rw [List.append_nil]⟩
  · dsimp only
    split
    · exact filtered_setSnoop _ _ _
    · split
      · exact filtered_setSnoop _ _ _
      · split
        next old r _ =>
          obtain ⟨l, w, e, h⟩ := filtered_setSnoop (emit s (.backInvalidate old false)) (halfOf64 (channelOf s (64 * line))) (r ++ [line])
          exact ⟨.backInvalidate old false :: l, w, e, by rw [h, emit]; simp⟩
        · exact ⟨[], s.host.snoopW, s.host.snoopE, by rw [List.append_nil]⟩

theorem snoopOf_setSnoop (s : State) (h : Half) (ls : List Nat) : snoopOf (setSnoop s h ls) h = ls := by cases h <;> rfl

theorem tracked_setSnoop (s : State) (line : Nat) (ls : List Nat) (h : line ∈ ls) :
    tracked (setSnoop s (halfOf64 (channelOf s (64 * line))) ls) line = true := by
  have hk : channelOf (setSnoop s (halfOf64 (channelOf s (64 * line))) ls) (64 * line) = channelOf s (64 * line) := by
    generalize halfOf64 (channelOf s (64 * line)) = hf
    cases hf <;> rfl
  unfold tracked
  rw [hk, snoopOf_setSnoop]
  simpa using h

theorem tracked_track (s : State) (line : Nat) (hg : s.host.gen = 1) : tracked (track s line) line = true := by
  unfold track
  rw [if_neg (by omega)]
  dsimp only
  split
  · exact tracked_setSnoop s line _ (by simp)
  · split
    · exact tracked_setSnoop s line _ (by simp)
    · split
      next old r _ => exact tracked_setSnoop (emit s (.backInvalidate old false)) line _ (by simp)
      next hlt _ hnil => rw [hnil] at hlt; exact absurd hlt (by decide)

/-! ### Reads and writes of CXL.mem (R326, R328) -/

theorem linesFound_clean (s : State) (line : Nat) (lines : List Nat) : linesFound s lines [⟨line, .clean⟩] = s := by
  unfold linesFound
  rw [List.filter_cons, List.filter_nil]
  split
  · rw [List.foldl_cons, List.foldl_nil]
    unfold lineFound
    dsimp only
    split <;> rfl
  · rfl

/-- A read of CXL.mem served: the line goes out, and the filter has it. -/
def cxlServed (s : State) (line : Nat) : State :=
  emit (track (afterRead s (64 * line) 64) line) (.busData (readLine s (64 * line)).bytes (readLine s (64 * line)).poison)

theorem exec_cxlMemRead {s : State} {line : Nat} (hin : inRegion s line = true) (hr : isReady s = true) (e : Ecc) :
    exec (.cxlMemRead ⟨line, e⟩) s = .next (hostAccess s (.cxlRead line [⟨line, e⟩])) :=
  congrArg Host.Outcome.next ((if_neg (by rw [hin]; decide)).trans (if_pos hr))

theorem cxlRead_served {s : State} {line : Nat} (hin : inRegion s line = true) (hr : isReady s = true)
    (hd : dimLine s (64 * line) 64 = none) : exec (.cxlMemRead ⟨line, .clean⟩) s = .next (cxlServed s line) := by
  refine (exec_cxlMemRead hin hr .clean).trans (congrArg Host.Outcome.next ?_)
  have hheld : heldLine s (.cxlRead line [⟨line, .clean⟩]) = none := hd
  unfold hostAccess
  rw [hheld]
  unfold serveHost
  simp only [hr, if_true, linesFound_clean]
  rfl

theorem cxlRead_holds {s : State} {line : Nat} (hin : inRegion s line = true) (hr : isReady s = true)
    (hd : dimLine s (64 * line) 64 = none) :
    ∃ t, exec (.cxlMemRead ⟨line, .clean⟩) s = .next t ∧ t = { s with out := t.out, free := t.free, host := t.host }
      ∧ t.out.take s.out.length = s.out
      ∧ (runBad s (64 * line) 64 = false →
          t.out.getLast? = some (.busData (rawBytes s (64 * line) 64) (linePoison s (64 * line))) ∧ t.free = s.free)
      ∧ t.host = { s.host with snoopW := t.host.snoopW, snoopE := t.host.snoopE }
      ∧ (s.host.gen = 1 → tracked t line = true) := by
  refine ⟨cxlServed s line, cxlRead_served hin hr hd, ?_⟩
  have hfree : afterRead s (64 * line) 64 = { s with free := (afterRead s (64 * line) 64).free } := by
    unfold afterRead
    split <;> rfl
  have hgood : runBad s (64 * line) 64 = false → (afterRead s (64 * line) 64).free = s.free := fun hb => by
    unfold afterRead
    rw [if_neg (by rw [hb]; decide)]
  have htr : s.host.gen = 1 → tracked (track (afterRead s (64 * line) 64) line) line = true := fun hg =>
    tracked_track _ line (by rw [hfree]; exact hg)
  obtain ⟨l, w, e, hf⟩ := filtered_track (afterRead s (64 * line) 64) line
  have hbytes : runBad s (64 * line) 64 = false → (readLine s (64 * line)).bytes = rawBytes s (64 * line) 64 := fun hb => by
    unfold readLine readBytes
    dsimp only
    rw [show 64 * line / 64 * 64 = 64 * line by omega, if_neg (by rw [hb]; decide)]
  unfold cxlServed
  rw [hf] at htr ⊢
  generalize (readLine s (64 * line)).bytes = bs at hbytes ⊢
  have hp : (readLine s (64 * line)).poison = linePoison s (64 * line) := rfl
  rw [hp]
  generalize linePoison s (64 * line) = p
  generalize (afterRead s (64 * line) 64).free = fr at hfree hgood
  rw [hfree] at htr ⊢
  refine ⟨rfl, ?_, fun hb => ⟨?_, hgood hb⟩, rfl, htr⟩
  · show ((s.out ++ l) ++ [Out.busData bs p]).take s.out.length = s.out
    rw [List.append_assoc, List.take_left]
  · show ((s.out ++ l) ++ [Out.busData bs p]).getLast? = _
    rw [List.getLast?_concat, hbytes hb]

theorem hostAccess_held {s : State} {w : PortWait} {l : Nat} (h : heldLine s w = some l) :
    hostAccess s w = parkHost (objInc s Obj.memDimStalledRequests) w := by
  unfold hostAccess
  rw [h]

theorem cxlRead_held {s : State} {line : Nat} (hin : inRegion s line = true) (hr : isReady s = true)
    (hd : (dimLine s (64 * line) 64).isSome = true) (e : Ecc) :
    ∃ t, exec (.cxlMemRead ⟨line, e⟩) s = .next t ∧ t = { s with dic := t.dic, host := t.host }
      ∧ t.host = { s.host with waits := s.host.waits ++ [.cxlRead line [⟨line, e⟩]] }
      ∧ Counted s t Obj.memDimStalledRequests 1 ∧ SameObjs s t [Obj.memDimStalledRequests] := by
  have hheld : heldLine s (.cxlRead line [⟨line, e⟩]) = some (64 * line) := dimLine_some hd
  exact ⟨_, (exec_cxlMemRead hin hr e).trans (congrArg _ (hostAccess_held hheld)), rfl, rfl, objGet_objInc_self s _,
    ((SameObjs.refl s _).objInc _ List.mem_cons_self).of_dic rfl⟩

theorem cxlRead_notReady {s : State} {line : Nat} (hin : inRegion s line = true) (hr : isReady s = false) (e : Ecc) :
    exec (.cxlMemRead ⟨line, e⟩) s
      = .next { s with out := s.out ++ [.busData ((List.range 64).map (freeByteAt s)) true], free := s.free + 8 } :=
  congrArg Host.Outcome.next ((if_neg (by rw [hin]; decide)).trans (if_neg (by rw [hr]; decide)))

theorem cxlWrite_holds {s : State} {line mask : Nat} {data : Bytes} {poison : Bool} (hin : inRegion s line = true) (hm : mask < 2 ^ 64)
    (hr : isReady s = true) (hlen : data.length = 64) (hl : 64 * line < lpddrSize) (hp : linePoison s (64 * line) = false)
    (hd : dimLine s (64 * line) 64 = none) :
    ∃ t, exec (.cxlMemWrite line mask data poison) s = .next t
      ∧ t = { s with out := t.out, lpddr := t.lpddr, lpddrPoison := t.lpddrPoison, lpddrBad := t.lpddrBad, chans := t.chans,
                     host := t.host }
      ∧ SameMemoryBut s t (64 * line) 64
      ∧ (∀ i, i < 64 → (rawBytes t (64 * line) 64).getD i 0
          = if natBit i mask then data.getD i 0 else (rawBytes s (64 * line) 64).getD i 0)
      ∧ linePoison t (64 * line) = poison := by
  have hpad : padTo 64 data = data := by
    unfold padTo
    rw [← hlen, List.take_left]
  have hex : exec (.cxlMemWrite line mask data poison) s = .next (track (cleanStored s line mask data poison) line) := by
    refine congrArg Host.Outcome.next ((if_neg (by rw [hin]; decide)).trans ((if_pos hr).trans ?_))
    rw [Nat.mod_eq_of_lt hm, hpad]
    unfold hostAccess
    rw [heldLine_write hd]
    unfold serveHost
    dsimp only
    rw [if_pos hr, writeLine_clean s line mask data poison hl hp hd]
  obtain ⟨l, w, e, hf⟩ := filtered_track (cleanStored s line mask data poison) line
  have hpo := linePoison_stored s line mask data poison hl
  have hmem : (cleanStored s line mask data poison).lpddr = memStoreMask s.lpddr (64 * line) mask data := rfl
  have hframe : cleanStored s line mask data poison = { s with
      lpddr := (cleanStored s line mask data poison).lpddr, lpddrPoison := (cleanStored s line mask data poison).lpddrPoison
      lpddrBad := (cleanStored s line mask data poison).lpddrBad, chans := (cleanStored s line mask data poison).chans } := rfl
  refine ⟨_, hex, ?_, ⟨fun _ => ⟨?_, ?_⟩, fun hge => absurd hl (by omega)⟩, fun i hi => ?_, ?_⟩
  all_goals rw [hf]
  · exact congrArg (fun u : State => { u with out := s.out ++ l, host := { s.host with snoopW := w, snoopE := e } }) hframe
  · exact sameBytesBut_memStoreMask s.lpddr (64 * line) mask hlen
  · rfl
  · unfold rawBytes
    rw [if_pos hl, if_pos hl, memBytes_getD _ _ _ _ hi, memBytes_getD _ _ _ _ hi]
    refine (memRead_memStoreMask_in s.lpddr (64 * line) i mask data (by omega)).trans ?_
    rw [List.getD_eq_getElem _ _ (by omega : i < data.length)]
    simp [natBit]
  · exact hpo

theorem cxlWrite_dropped {s : State} {line mask : Nat} {data : Bytes} {poison : Bool} (hin : inRegion s line = true)
    (hr : isReady s = false) :
    (objGet s Obj.moduleState = 4 →
      ∃ t, exec (.cxlMemWrite line mask data poison) s = .next t ∧ t = { s with dic := t.dic }
        ∧ Counted s t Obj.cxlMemDropped 1 ∧ SameObjs s t [Obj.cxlMemDropped])
    ∧ (objGet s Obj.moduleState ≠ 4 → exec (.cxlMemWrite line mask data poison) s = .next s) := by
  refine ⟨fun h4 => ⟨objInc s Obj.cxlMemDropped, congrArg Host.Outcome.next ?_, rfl, objGet_objInc_self s _,
    (SameObjs.refl s _).objInc _ List.mem_cons_self⟩, fun h4 => congrArg Host.Outcome.next ?_⟩
  · exact (if_neg (by rw [hin]; decide)).trans ((if_neg (by rw [hr]; decide)).trans (if_pos h4))
  · exact (if_neg (by rw [hin]; decide)).trans ((if_neg (by rw [hr]; decide)).trans (if_neg h4))

/-! ### Invalidated translations (R324) -/

theorem atsSettle_out (l : List (Nat × Nat)) (s : State) (k : Nat × Nat) (h : k ∈ l ∨ Out.atsComplete k.1 k.2 ∈ s.out) :
    Out.atsComplete k.1 k.2 ∈ (l.foldl (fun s k =>
      emit { s with host := { s.host with atsWait := s.host.atsWait.erase k } } (.atsComplete k.1 k.2)) s).out := by
  induction l generalizing s with
  | nil => exact h.resolve_left (List.not_mem_nil)
  | cons x l ih =>
    refine ih _ ?_
    rcases h with h | h
    · rcases List.mem_cons.1 h with rfl | h
      · exact Or.inr (List.mem_append_right _ List.mem_cons_self)
      · exact Or.inl h
    · exact Or.inr (List.mem_append_left _ h)

theorem atsSettle_host (l : List (Nat × Nat)) (s : State) : ∃ a o, l.foldl (fun s k =>
    emit { s with host := { s.host with atsWait := s.host.atsWait.erase k } } (.atsComplete k.1 k.2)) s
      = { s with out := o, host := { s.host with atsWait := a } } := by
  induction l generalizing s with
  | nil => exact ⟨s.host.atsWait, s.out, rfl⟩
  | cons x l ih =>
    obtain ⟨a, o, h⟩ := ih (emit { s with host := { s.host with atsWait := s.host.atsWait.erase x } } (.atsComplete x.1 x.2))
    exact ⟨a, o, h⟩

theorem atsInvalidation_holds (p g : Nat) (s : State) :
    ∃ t, exec (.atsInvalidation p g) s = .next t ∧ t = { s with out := t.out, host := t.host }
      ∧ t.host = { s.host with ats := s.host.ats.filter (fun k => k != (p, g)), atsWait := t.host.atsWait }
      ∧ (pageUsed s (p, g) = false → .atsComplete p g ∈ t.out) := by
  refine ⟨_, rfl, ?_⟩
  unfold atsSettle
  dsimp only
  generalize hu : updHost s (fun h => { h with ats := h.ats.filter (fun k => k != (p, g)), atsWait := h.atsWait ++ [(p, g)] }) = u
  have hused : pageUsed u (p, g) = pageUsed s (p, g) := by rw [← hu]; rfl
  obtain ⟨a, o, h⟩ := atsSettle_host (u.host.atsWait.filter (fun k => !pageUsed u k)) u
  have hout := atsSettle_out (u.host.atsWait.filter (fun k => !pageUsed u k)) u (p, g)
  rw [h] at hout ⊢
  refine ⟨by rw [← hu]; rfl, by rw [← hu]; rfl, fun hf => hout (Or.inl ?_)⟩
  rw [List.mem_filter, hused, hf, ← hu]
  exact ⟨List.mem_append_right _ List.mem_cons_self, rfl⟩

/-! ### Back-invalidations answered or late (R327) -/

theorem drainAll_idle (s : State) (h : ∀ e ∈ s.queues, e.2.waitRing = []) : drainAll s = s := by
  have hl (l : List (Nat × Queue)) (u : State) (hl : ∀ e ∈ l, e.2.waitRing = []) :
      l.foldl (fun s e => drainRing s e.1 e.2.waitRing.length) u = u := by
    induction l with
    | nil => rfl
    | cons e l ih =>
      have he : e.2.waitRing = [] := hl e List.mem_cons_self
      rw [List.foldl_cons, he]
      exact ih (fun x hx => hl x (List.mem_cons_of_mem e hx))
  exact hl s.queues s h

/-- A back-invalidation answered: it stands no more, and the line is in no filter. -/
def bisnpEnded (s : State) (line : Nat) : State :=
  updHost s (fun h => { h with bisnp := h.bisnp.filter (fun b => b.1 != line), snoopW := h.snoopW.erase line, snoopE := h.snoopE.erase line })

theorem exec_bisnpResponse {s : State} {line : Nat} (h : s.host.bisnp.any (fun b => b.1 == line) = true) :
    exec (.bisnpResponse line) s = .next (drainAll (hostSettle (bisnpEnded s line))) :=
  congrArg Host.Outcome.next (if_neg (by rw [h]; decide))

theorem bisnp_answered {s : State} {line : Nat} (h : s.host.bisnp.any (fun b => b.1 == line) = true) (hw : s.host.waits = [])
    (hq : ∀ e ∈ s.queues, e.2.waitRing = []) :
    ∃ t, exec (.bisnpResponse line) s = .next t ∧ t = { s with host := t.host }
      ∧ t.host = { s.host with bisnp := s.host.bisnp.filter (fun b => b.1 != line), snoopW := s.host.snoopW.erase line,
                               snoopE := s.host.snoopE.erase line } := by
  refine ⟨bisnpEnded s line, (exec_bisnpResponse h).trans (congrArg Host.Outcome.next ?_), rfl, rfl⟩
  rw [hostSettle_empty (bisnpEnded s line) hw, drainAll_idle (bisnpEnded s line) hq]

/-- The waiting write of the data port served once nothing is under way. -/
def portStored (s : State) (line first : Nat) (data : Bytes) : State :=
  cleanStored (updHost (bisnpEnded s line) (fun h => { h with waits := [] })) line (maskFrom first data.length)
    (List.replicate first 0 ++ data) false

theorem portStored_lpddr (s : State) (line first : Nat) (data : Bytes) :
    (portStored s line first data).lpddr = memStore s.lpddr (64 * line + first) data :=
  memStoreMask_maskFrom first data.length s.lpddr (64 * line) data rfl

theorem cleanStored_frame (s : State) (line mask : Nat) (data : Bytes) (poison : Bool) : cleanStored s line mask data poison = { s with
    lpddr := (cleanStored s line mask data poison).lpddr, lpddrPoison := (cleanStored s line mask data poison).lpddrPoison
    lpddrBad := (cleanStored s line mask data poison).lpddrBad, chans := (cleanStored s line mask data poison).chans } := rfl

theorem portStored_frame (s : State) (line first : Nat) (data : Bytes) : portStored s line first data = { s with
    host := (portStored s line first data).host, lpddr := (portStored s line first data).lpddr
    lpddrPoison := (portStored s line first data).lpddrPoison, lpddrBad := (portStored s line first data).lpddrBad
    chans := (portStored s line first data).chans } ∧ (portStored s line first data).host.waits = [] := by
  unfold portStored
  have hv : updHost (bisnpEnded s line) (fun h => { h with waits := [] }) = { s with
      host := (updHost (bisnpEnded s line) (fun h => { h with waits := [] })).host } := rfl
  have hw : (updHost (bisnpEnded s line) (fun h => { h with waits := [] })).host.waits = [] := rfl
  generalize updHost (bisnpEnded s line) (fun h => { h with waits := [] }) = v at *
  have hc := cleanStored_frame v line (maskFrom first data.length) (List.replicate first 0 ++ data) false
  generalize cleanStored v line (maskFrom first data.length) (List.replicate first 0 ++ data) false = c at *
  refine ⟨?_, ?_⟩
  · rw [hc, hv]
  · rw [hc]
    exact hw

theorem hostSettle_port {s : State} {line first : Nat} {data : Bytes}
    (hw : s.host.waits = [.dataPort line (some (data, false)) first data.length []])
    (hall : s.host.bisnp.all (fun b => b.1 == line) = true) (hr : isReady s = true) (hd : dimLine s (64 * line) 64 = none)
    (hreg : regionOf s (64 * line) = .lpddr) (hp : linePoison s (64 * line) = false) :
    hostSettle (bisnpEnded s line) = portStored s line first data := by
  have hnone : s.host.bisnp.filter (fun b => b.1 != line) = [] := by
    rw [List.filter_eq_nil_iff]
    intro b hb
    simpa using List.all_eq_true.1 hall b hb
  have hwaits : (bisnpEnded s line).host.waits = [.dataPort line (some (data, false)) first data.length []] := hw
  unfold hostSettle portStored
  rw [hwaits, List.foldl_cons, List.foldl_nil]
  have hsn : (updHost (bisnpEnded s line) (fun h => { h with waits := [] })).host.bisnp = [] := hnone
  have hr' : isReady (updHost (bisnpEnded s line) (fun h => { h with waits := [] })) = true := hr
  have hd' : dimLine (updHost (bisnpEnded s line) (fun h => { h with waits := [] })) (64 * line) 64 = none := hd
  have hreg' : regionOf (updHost (bisnpEnded s line) (fun h => { h with waits := [] })) (64 * line) = .lpddr := hreg
  have hp' : linePoison (updHost (bisnpEnded s line) (fun h => { h with waits := [] })) (64 * line) = false := hp
  generalize updHost (bisnpEnded s line) (fun h => { h with waits := [] }) = v at *
  have hheld : snoopHeld v (.dataPort line (some (data, false)) first data.length []) = false := by
    unfold snoopHeld snoopWaits
    rw [hsn]
    rfl
  rw [hheld, heldLine_port hd']
  unfold serveHost
  rw [if_neg (by simp)]
  dsimp only
  rw [if_pos hr']
  unfold dpPut localPut
  rw [hreg']
  exact writeLine_clean v line _ _ false (regionOf_lpddr hreg) hp' hd'

theorem bisnp_written {s : State} {line first : Nat} {data : Bytes} (h : s.host.bisnp.any (fun b => b.1 == line) = true)
    (hw : s.host.waits = [.dataPort line (some (data, false)) first data.length []]) (hq : ∀ e ∈ s.queues, e.2.waitRing = [])
    (hall : s.host.bisnp.all (fun b => b.1 == line) = true) (hr : isReady s = true) (hd : dimLine s (64 * line) 64 = none)
    (hreg : regionOf s (64 * line) = .lpddr) (hf : first + data.length ≤ 64) (hn : 0 < data.length) (hp : linePoison s (64 * line) = false) :
    ∃ t, exec (.bisnpResponse line) s = .next t
      ∧ t = { s with host := t.host, lpddr := t.lpddr, lpddrPoison := t.lpddrPoison, lpddrBad := t.lpddrBad, chans := t.chans }
      ∧ t.host.waits = [] ∧ rawBytes t (64 * line + first) data.length = data
      ∧ SameMemoryBut s t (64 * line + first) data.length := by
  have hl := regionOf_lpddr hreg
  have hoff : 64 * line + first < lpddrSize := by unfold lpddrSize at hl ⊢; omega
  obtain ⟨hframe, hwaits⟩ := portStored_frame s line first data
  have hst := portStored_lpddr s line first data
  have hq' : ∀ e ∈ (portStored s line first data).queues, e.2.waitRing = [] := by rw [hframe]; exact hq
  have hex := (exec_bisnpResponse h).trans (congrArg Host.Outcome.next
    ((congrArg drainAll (hostSettle_port hw hall hr hd hreg hp)).trans (drainAll_idle _ hq')))
  generalize portStored s line first data = t at *
  refine ⟨t, hex, hframe, hwaits, ?_, fun _ => ⟨?_, by rw [hframe]⟩, fun hge => absurd hoff (by omega)⟩
  · rw [rawBytes, if_pos hoff, hst, memBytes_memStore]
  · rw [hst]
    exact sameBytesBut_memStore _ _ _

/-- A back-invalidation given up: counted, and the line's waiting accesses are taken out. -/
def bisnpCounted (s : State) (line : Nat) : State :=
  objInc (updHost s (fun h => { h with bisnp := h.bisnp.filter (fun b => b.1 != line), bisnpBad := h.bisnpBad.filter (· != line) ++ [line]
                                       waits := h.waits.filter (fun w => !portOf line w) })) Obj.bISnpTimeouts

theorem dpFailed_eq (s : State) (w : PortWait) : ∃ o, dpFailed s w = { s with out := o, host := { s.host with addrError := true } } := by
  unfold dpFailed
  split
  · exact ⟨_, rfl⟩
  · exact ⟨s.out, rfl⟩

theorem dpFailed_all (l : List PortWait) (s : State) : ∃ o b, (l ≠ [] → b = true)
    ∧ l.foldl dpFailed s = { s with out := o, host := { s.host with addrError := b } } := by
  have hb (l : List PortWait) (s : State) (hs : s.host.addrError = true) :
      ∃ o, l.foldl dpFailed s = { s with out := o, host := { s.host with addrError := true } } := by
    induction l generalizing s with
    | nil => exact ⟨s.out, by rw [← hs]; rfl⟩
    | cons w l ih =>
      obtain ⟨o, ho⟩ := dpFailed_eq s w
      obtain ⟨o', ho'⟩ := ih (dpFailed s w) (by rw [ho])
      exact ⟨o', by rw [List.foldl_cons, ho', ho]⟩
  cases l with
  | nil => exact ⟨s.out, s.host.addrError, fun h => absurd rfl h, rfl⟩
  | cons w l =>
    obtain ⟨o, ho⟩ := dpFailed_eq s w
    obtain ⟨o', ho'⟩ := hb l (dpFailed s w) (by rw [ho])
    exact ⟨o', true, fun _ => rfl, by rw [List.foldl_cons, ho', ho]⟩

theorem bisnp_late {s : State} {line : Nat} (h : s.host.bisnp.any (fun b => b.1 == line && decide (b.2 + ms 1 ≤ s.now)) = true)
    (hq : ∀ e ∈ s.queues, e.2.waitRing = []) :
    ∃ t, exec (.bisnpTimeout line) s = .next t ∧ t = { s with dic := t.dic, host := t.host, out := t.out }
      ∧ line ∈ t.host.bisnpBad ∧ (∀ w ∈ t.host.waits, portOf line w = false) ∧ t.host.snoopW = s.host.snoopW
      ∧ (s.host.waits.any (portOf line) = true → t.host.addrError = true) ∧ Counted s t Obj.bISnpTimeouts 1
      ∧ SameObjs s t [Obj.bISnpTimeouts] := by
  have hex : exec (.bisnpTimeout line) s
      = .next (drainAll ((s.host.waits.filter (portOf line)).foldl dpFailed (bisnpCounted s line))) :=
    congrArg Host.Outcome.next (if_neg (by rw [h]; decide))
  obtain ⟨o, b, hb, hf⟩ := dpFailed_all (s.host.waits.filter (portOf line)) (bisnpCounted s line)
  have hdr := drainAll_idle { bisnpCounted s line with out := o, host := { (bisnpCounted s line).host with addrError := b } } hq
  rw [hf, hdr] at hex
  refine ⟨_, hex, rfl, ?_, fun w hw => ?_, rfl, fun hany => ?_, objGet_objInc_self _ _, (SameObjs.objInc (t := updHost s _) (fun _ _ => rfl) _ List.mem_cons_self).of_dic rfl⟩
  · exact List.mem_append_right _ List.mem_cons_self
  · have := (List.mem_filter.1 hw).2
    simpa using this
  · obtain ⟨w, hw, hp⟩ := List.any_eq_true.1 hany
    exact hb (List.ne_nil_of_mem (List.mem_filter.2 ⟨hw, hp⟩))

/-- Settles O37. -/
theorem hostMemoryTrafficServed : Obligations.HostMemoryTrafficServed := by
  unfold Obligations.HostMemoryTrafficServed
  refine ⟨fun a s => rfl, atsInvalidation_holds, fun p g s => rfl, fun line s hin => ⟨cxlRead_holds hin, cxlRead_held hin,
    cxlRead_notReady hin⟩, fun line mask data poison s hin hm => ⟨fun hr hlen hl hp hd _ => cxlWrite_holds hin hm hr hlen hl hp hd,
    fun hr => (cxlWrite_dropped hin hr).1, fun hr => (cxlWrite_dropped hin hr).2⟩, fun line s h => ⟨bisnp_answered h,
    fun data first hw hq hall hr hd hreg hn hf hp _ => bisnp_written h hw hq hall hr hd hreg hf hn hp, bisnp_late⟩, fun line s h =>
    ⟨congrArg Host.Outcome.next (if_pos (by rw [h]; decide)), congrArg Host.Outcome.next (if_pos ?_)⟩⟩
  have hno : s.host.bisnp.any (fun b => b.1 == line && decide (b.2 + ms 1 ≤ s.now)) = false := by
    rw [List.any_eq_false] at h ⊢
    intro b hb hc
    exact h b hb (Bool.and_eq_true_iff.1 hc).1
  rw [hno]
  rfl

end Sys2Proof.Machine

/-!
Collectives end, and pending entries expire (R294, R308, R309, O35).
-/

namespace Sys2Proof.Machine

/-! ### Commands of the mailbox -/

theorem mbxRun_ready {s : State} {cmd : Nat} (f : State → State) (hb : s.host.busy = true) (hc : s.host.running = cmd)
    (hr : isReady s = true) : mbxRun s cmd f = f s := by
  unfold mbxRun
  rw [if_pos (by simp [hb, hc]), if_pos hr]

theorem mbxRun_idle {s : State} (cmd : Nat) (f : State → State) (hb : s.host.busy = false) : mbxRun s cmd f = s := by
  unfold mbxRun
  rw [if_neg (by simp [hb])]

/-- How a mailbox command stands to the host. -/
def mbxView (s : State) : Bool × Bool × Nat := (s.host.busy, s.host.done, s.host.status)

theorem mbxView_sendVector (s : State) (v : Nat) : mbxView (sendVector s v) = mbxView s := by
  unfold sendVector
  split <;> rfl

theorem mailboxEnded_mbxEnd (s : State) (status : Nat) : MailboxEnded (mbxEnd s status) status := by
  have h : mbxView (mbxEnd s status) = (false, true, status) := by
    unfold mbxEnd
    dsimp only
    split
    · exact mbxView_sendVector _ _
    · rfl
  simp only [mbxView, Prod.mk.injEq] at h
  exact h

theorem footOutHost_self (s : State) : footOutHost s s = s := rfl

/-- The end of a mailbox command is seen in what the host has and is sent. -/
theorem mbxEnd_frame (s : State) (status : Nat) :
    mbxEnd s status = { s with out := (mbxEnd s status).out, host := (mbxEnd s status).host } :=
  (footOutHost_self _).symm.trans (mbxEnd_keeps (footOutHost · (mbxEnd s status)) (fun _ _ => rfl) s status)

/-! ### Lookups after a removal -/

theorem find_filter_ne {α : Type} (key : α → Nat) (id : Nat) (l : List α) :
    (l.filter (fun x => key x != id)).find? (fun x => key x == id) = none := by
  rw [List.find?_eq_none]
  intro x hx
  have hne := (List.mem_filter.1 hx).2
  simp only [bne_iff_ne, ne_eq] at hne
  simpa using hne

theorem ne_of_mem_filter {α : Type} {key : α → Nat} {id : Nat} {l : List α} {x : α}
    (h : x ∈ l.filter (fun x => key x != id)) : key x ≠ id := by
  simpa using (List.mem_filter.1 h).2

theorem collOf_id {s : State} {id : Nat} {x : Coll} (h : collOf s id = some x) : x.id = id := by
  simpa using List.find?_some h

/-! ### What the engine holds -/

/-- The collective engines' state. -/
def collView (s : State) : List Coll × List Slot × List Grey × List Ended := (s.colls, s.slots, s.greys, s.ended)

theorem collView_finishDesc (s : State) (d : Done) : collView (finishDesc s d) = collView s :=
  finishDesc_keeps collView (fun _ _ => rfl) s d

theorem collView_mbxEnd (s : State) (status : Nat) : collView (mbxEnd s status) = collView s :=
  mbxEnd_keeps collView (fun _ _ => rfl) s status

/-! ### A collective that ends (R308) -/

/-- A collective taken from its engine and kept as ended, with its waits gone. -/
def collTaken (s : State) (x : Coll) : State :=
  { dropColl s x.id with
    waiters := s.waiters.filter (fun w => !(w.queue == x.d.queue && w.seq == x.d.seq))
    ended := s.ended.filter (fun (e : Ended) => e.coll != x.id)
      ++ [{ coll := x.id, ranks0 := missingAt s x.d.words x 0, ranks1 := missingAt s x.d.words x 1 }] }

/-- What an ended collective's record says. -/
def endedDone (s : State) (x : Coll) (status : Nat) : Done :=
  collDone x status (missingOf s x.d.words (missingAt s x.d.words x 0) (missingAt s x.d.words x 1))

theorem endColl_eq (s : State) (x : Coll) (status : Nat) :
    endColl s x status = finishDesc (collTaken s x) (endedDone s x status) :=
  completeDesc_plain _ _ rfl

theorem collView_endColl (s : State) (x : Coll) (status : Nat) :
    collView (endColl s x status) = collView (collTaken s x) := by
  rw [endColl_eq]
  exact collView_finishDesc _ _

theorem oneCompleted_endColl (s : State) (x : Coll) (status : Nat) : OneCompleted s (endColl s x status) x.d.queue := by
  rw [endColl_eq]
  exact oneCompleted_finishDesc (collTaken s x) (endedDone s x status)

theorem sameObjs_endColl (s : State) (x : Coll) (status : Nat) : SameObjs s (endColl s x status) tailObjs := by
  rw [endColl_eq]
  exact sameObjs_finishDesc (collTaken s x) (endedDone s x status)

/-- What the end of a collective may change, taken from another state. -/
def collFoot (s t : State) : State :=
  { s with free := t.free, out := t.out, dic := t.dic, layers := t.layers, tile := t.tile, tilePoison := t.tilePoison
           lpddr := t.lpddr, lpddrPoison := t.lpddrPoison, lpddrBad := t.lpddrBad, chans := t.chans, claims := t.claims
           queues := t.queues, sync := t.sync, waiters := t.waiters, routerW := t.routerW, routerE := t.routerE
           outst := t.outst, nextTag := t.nextTag, colls := t.colls, slots := t.slots, greys := t.greys
           pendColls := t.pendColls, ended := t.ended, collEcho := t.collEcho, host := t.host, obs := t.obs }

theorem collFoot_self (s : State) : collFoot s s = s := rfl

theorem collFrame_collExpire (s : State) (id : Nat) : CollFrame s (collExpire s id) :=
  (collFoot_self _).symm.trans (collExpire_keeps (collFoot · (collExpire s id)) (fun _ _ => rfl) s id)

theorem collFrame_abortColl (s : State) : CollFrame s (abortColl s) :=
  (collFoot_self _).symm.trans (abortColl_keeps (collFoot · (abortColl s)) (fun _ _ => rfl) s)

/-- A collective that ends is counted. -/
def collCounted (s : State) (x : Coll) (status : Nat) : State := endColl (objInc s Obj.collTimeouts) x status

theorem sameObjs_collCounted (s : State) (x : Coll) (status : Nat) :
    SameObjs s (collCounted s x status) (Obj.collTimeouts :: tailObjs) :=
  ((SameObjs.refl s _).objInc Obj.collTimeouts (by simp)).trans
    ((sameObjs_endColl (objInc s Obj.collTimeouts) x status).mono (by simp))

theorem counted_collCounted (s : State) (x : Coll) (status : Nat) : Counted s (collCounted s x status) Obj.collTimeouts 1 :=
  (sameObjs_endColl (objInc s Obj.collTimeouts) x status Obj.collTimeouts (by decide)).trans (objGet_objInc_self s _)

theorem oneCompleted_collCounted (s : State) (x : Coll) (status : Nat) : OneCompleted s (collCounted s x status) x.d.queue :=
  oneCompleted_endColl (objInc s Obj.collTimeouts) x status

theorem collOf_of_view {s t : State} (h : collView s = collView t) (id : Nat) : collOf s id = collOf t id := by
  simp only [collView, Prod.mk.injEq] at h
  simp only [collOf, h.1]

theorem collOf_collCounted (s : State) (x : Coll) (status : Nat) : collOf (collCounted s x status) x.id = none :=
  (collOf_of_view (collView_endColl (objInc s Obj.collTimeouts) x status) x.id).trans
    (find_filter_ne (fun y : Coll => y.id) x.id s.colls)

/-- What is left at the engine once a collective has ended. -/
theorem collsLeft_collCounted (s : State) (x : Coll) (status : Nat) :
    (∀ y ∈ (collCounted s x status).slots, y.coll ≠ x.id) ∧ (∀ y ∈ (collCounted s x status).greys, y.coll ≠ x.id)
      ∧ { coll := x.id, ranks0 := missingAt s x.d.words x 0, ranks1 := missingAt s x.d.words x 1 }
          ∈ (collCounted s x status).ended
      ∧ ∀ y ∈ s.colls, y.id ≠ x.id → y ∈ (collCounted s x status).colls := by
  have h := collView_endColl (objInc s Obj.collTimeouts) x status
  simp only [collView, Prod.mk.injEq] at h
  obtain ⟨hcolls, hslots, hgreys, hended⟩ := h
  rw [collCounted, hcolls, hslots, hgreys, hended]
  refine ⟨fun y hy => ne_of_mem_filter hy, fun y hy => ne_of_mem_filter hy, List.mem_append_right _ (List.mem_singleton.2 rfl),
    fun y hy hne => List.mem_filter.2 ⟨hy, by simpa using hne⟩⟩

/-! ### The watchdog (R308) -/

theorem collExpire_some {s : State} {id : Nat} {x : Coll} (h : collOf s id = some x)
    (hw : x.since + ms (collWatch s x) ≤ s.now) : collExpire s id = collCounted s x 0x40 := by
  unfold collExpire
  rw [h]
  exact if_pos hw

theorem collExpire_early {s : State} {id : Nat} {x : Coll} (h : collOf s id = some x)
    (hw : s.now < x.since + ms (collWatch s x)) : collExpire s id = s := by
  unfold collExpire
  rw [h]
  exact if_neg (by omega)

theorem collExpire_none {s : State} {id : Nat} (h : collOf s id = none) : collExpire s id = s := by
  unfold collExpire
  rw [h]

/-! ### CollAbort (R308, R318) -/

theorem execCollAbort_ready {s : State} (hb : s.host.busy = true) (hc : s.host.running = 4) (hr : isReady s = true) :
    exec .collAbort s = .next (abortColl s) := congrArg Host.Outcome.next (mbxRun_ready abortColl hb hc hr)

theorem abortColl_wide {s : State} (h : 2 ^ 16 ≤ mbxArg s 0) : abortColl s = mbxEnd s 0x01 := by
  unfold abortColl
  rw [if_pos (by simp only [bne_iff_ne, ne_eq]; omega)]

theorem abortColl_none {s : State} (h : mbxArg s 0 < 2 ^ 16) (hc : collOf s (mbxArg s 0) = none) :
    abortColl s = mbxEnd s 0x04 := by
  unfold abortColl
  rw [if_neg (by simp only [bne_iff_ne, ne_eq]; omega), hc]

theorem abortColl_some {s : State} {x : Coll} (h : mbxArg s 0 < 2 ^ 16) (hc : collOf s (mbxArg s 0) = some x) :
    abortColl s = mbxEnd (collCounted s x 0x42) 0x00 := by
  unfold abortColl
  rw [if_neg (by simp only [bne_iff_ne, ne_eq]; omega), hc]
  rfl

theorem OneCompleted.of_queues {s t u : State} {q : Nat} (h : OneCompleted s t q) (hq : u.queues = t.queues) :
    OneCompleted s u q := by
  unfold OneCompleted at *
  rwa [hq]

theorem collAbort_ends {s : State} {x : Coll} (h : mbxArg s 0 < 2 ^ 16) (hc : collOf s (mbxArg s 0) = some x) :
    MailboxEnded (abortColl s) 0 ∧ collOf (abortColl s) (mbxArg s 0) = none ∧ OneCompleted s (abortColl s) x.d.queue
      ∧ Counted s (abortColl s) Obj.collTimeouts 1 ∧ SameObjs s (abortColl s) (Obj.collTimeouts :: tailObjs)
      ∧ CollFrame s (abortColl s) := by
  have hdic : (mbxEnd (collCounted s x 0x42) 0x00).dic = (collCounted s x 0x42).dic :=
    mbxEnd_keeps State.dic (fun _ _ => rfl) _ _
  refine ⟨?_, ?_, ?_, ?_, ?_, collFrame_abortColl s⟩ <;> rw [abortColl_some h hc]
  · exact mailboxEnded_mbxEnd _ _
  · rw [← collOf_id hc]
    exact (collOf_of_view (collView_mbxEnd _ _) _).trans (collOf_collCounted s x 0x42)
  · exact OneCompleted.of_queues (oneCompleted_collCounted s x 0x42) (mbxEnd_keeps State.queues (fun _ _ => rfl) _ _)
  · exact (objGet_congr _ _ _ hdic).trans (counted_collCounted s x 0x42)
  · exact (sameObjs_collCounted s x 0x42).of_dic hdic

/-! ### Pending entries (R309) -/

theorem pendExpire_early {s : State} {id : Nat} {p : PendColl} (h : pendOf s id = some p)
    (hw : s.now < p.since + ms (objGet s Obj.collWatchdogMs)) : pendExpire s id = s := by
  unfold pendExpire
  rw [h]
  exact if_neg (by omega)

theorem pendExpire_none {s : State} {id : Nat} (h : pendOf s id = none) : pendExpire s id = s := by
  unfold pendExpire
  rw [h]

/-- A pending entry dropped with its slots. -/
def pendDropped (s : State) (id : Nat) : State :=
  { s with
    pendColls := s.pendColls.filter (fun (x : PendColl) => x.coll != id)
    slots := s.slots.filter (fun (x : Slot) => x.coll != id) }

theorem pendExpire_late {s : State} {id : Nat} {p : PendColl} (h : pendOf s id = some p)
    (hw : p.since + ms (objGet s Obj.collWatchdogMs) ≤ s.now) :
    pendExpire s id = objInc (pendDropped s id) Obj.collOrphans := by
  unfold pendExpire
  rw [h]
  exact if_pos hw

/-! ### The group table (R294) -/

theorem collGroupTable_stands (row : ObjRow) (h : objRow Obj.collGroupTable = some row) : row.access ≠ .wo := by
  have hrow : (objRow Obj.collGroupTable).map (fun r => decide (r.access = .wo)) = some false := by decide
  rw [h] at hrow
  simpa using hrow

theorem groupTable_taken {r : Route} {handle : Nat} {digest : Bytes} {s : State} {x : Xfer} {role : Role} {row : ObjRow}
    {s0 : State} (h : CommitReady s r false Obj.collGroupTable handle digest x role row s0) (hx : x.size = 540672)
    (hg : groupsHeld s0 (xferImage x) = false) : exec (.collGroupTableCommit r handle digest) s
      = .next (answered s r (heldKey s r) ⟨imageIn s0 r role row x, 0, []⟩) :=
  congrArg Host.Outcome.next (commitRow_taken s r false Obj.collGroupTable handle digest x role row s0 _ _ _ _ h
    (by simp [hx]) (if_neg (by rw [show groupsHeld (dropXfer s0 x.handle) (xferImage x) = groupsHeld s0 (xferImage x) from rfl, hg]; decide)))

theorem groupTable_refused {r : Route} {handle : Nat} {digest : Bytes} {s : State} {x : Xfer} {role : Role} {row : ObjRow}
    {s0 : State} (h : CommitReady s r false Obj.collGroupTable handle digest x role row s0) (hx : x.size = 540672)
    (hg : groupsHeld s0 (xferImage x) = true) : exec (.collGroupTableCommit r handle digest) s
      = .next (answered s r (heldKey s r) ⟨dropXfer s0 x.handle, 0x08, []⟩) := by
  have hown : (if groupsHeld (dropXfer s0 x.handle) (xferImage x) then 0x08 else 0) = 0x08 := if_pos hg
  refine congrArg Host.Outcome.next ((commitRow_refused s r false Obj.collGroupTable handle digest x role row s0 _ _ _ _ h
    (by simp [hx]) (by rw [hown]; decide)).trans ?_)
  rw [hown, id_eq]

/-- Settles O35: a collective that ends leaves its engine and is counted, and its record completes as any other's; only the waits and
the ended list change between. -/
theorem collectivesEndAndPendingEntriesExpire : Obligations.CollectivesEndAndPendingEntriesExpire := by
  unfold Obligations.CollectivesEndAndPendingEntriesExpire
  refine ⟨fun id s x hx => ⟨fun hw => congrArg Host.Outcome.next (collExpire_early hx hw), fun hw => ?_⟩,
    fun id s hx => congrArg Host.Outcome.next (collExpire_none hx), fun s hb => congrArg Host.Outcome.next (mbxRun_idle _ _ hb),
    fun id s hp => congrArg Host.Outcome.next (pendExpire_none hp),
    fun s hb hc hr => ⟨fun x ha hx => ⟨abortColl s, execCollAbort_ready hb hc hr, collAbort_ends ha hx⟩, fun ha hx => ?_, fun ha => ?_⟩,
    fun id s p hp => ⟨fun hw => congrArg Host.Outcome.next (pendExpire_early hp hw), fun hw => ?_⟩,
    fun r handle digest s x role row s0 h hx =>
      ⟨fun hg => ⟨groupTable_taken h hx hg, ?_⟩, fun hg => groupTable_refused h hx hg⟩⟩
  · have hid := collOf_id hx
    obtain ⟨hslots, hgreys, hended, hothers⟩ := collsLeft_collCounted s x 0x40
    have hnone := collOf_collCounted s x 0x40
    have hframe := collFrame_collExpire s id
    rw [hid] at hslots hgreys hended hothers hnone
    rw [collExpire_some hx hw] at hframe
    exact ⟨collCounted s x 0x40, congrArg Host.Outcome.next (collExpire_some hx hw), hnone, hslots, hgreys, hended, hothers,
      oneCompleted_collCounted s x 0x40, counted_collCounted s x 0x40, sameObjs_collCounted s x 0x40, hframe⟩
  · exact ⟨mbxEnd s 0x04, (execCollAbort_ready hb hc hr).trans (congrArg Host.Outcome.next (abortColl_none ha hx)),
      mbxEnd_frame s _, mailboxEnded_mbxEnd s _⟩
  · exact ⟨mbxEnd s 0x01, (execCollAbort_ready hb hc hr).trans (congrArg Host.Outcome.next (abortColl_wide ha)),
      mbxEnd_frame s _, mailboxEnded_mbxEnd s _⟩
  · exact ⟨objInc (pendDropped s id) Obj.collOrphans, congrArg Host.Outcome.next (pendExpire_late hp hw), rfl, rfl, rfl,
      objGet_objInc_self (pendDropped s id) _, SameObjs.objInc (SameObjs.refl s _) _ (by simp)⟩
  · obtain ⟨-, hkey, -, -, -, hrow, -⟩ := h
    rw [imageIn, hkey]
    exact domGet_applyDom _ _ _ _ _ _ (collGroupTable_stands row hrow)

end Sys2Proof.Machine

/-!
Send windows, replay entries, atomic units and the remote read cache (R273, R282, R285, R289, O33).
-/

namespace Sys2Proof.Machine

/-! ### Send windows (R273) -/

theorem hostResults_mbxEnd (s : State) (status : Nat) : (mbxEnd s status).host.results = s.host.results := by
  unfold mbxEnd
  dsimp only
  split
  · unfold sendVector
    split <;> rfl
  · rfl

theorem openWindow_refused {s : State} {e : Nat} (h : winRefusal s 0 = some e) : openWindow s = mbxEnd s e := by
  unfold openWindow
  rw [h]

theorem openWindow_full {s : State} (h : winRefusal s 0 = none) (hf : freeWindow s = none) : openWindow s = mbxEnd s 0x25 := by
  unfold openWindow
  simp only [h, hf]

theorem openWindow_at {s : State} {i : Nat} (h : winRefusal s 0 = none) (hf : freeWindow s = some i) :
    openWindow s = mbxEnd (mbxResult { s with windows := smSet s.windows i (winArg s 0) } 0 i) 0 := by
  unfold openWindow
  simp only [h, hf]

theorem modifyWindow_refused {s : State} {e : Nat} (h : winRefusal s 1 = some e) : modifyWindow s = mbxEnd s e := by
  unfold modifyWindow
  rw [h]

theorem modifyWindow_closed {s : State} (h : winRefusal s 1 = none) (hw : smGet s.windows (mbxArg s 0) = none) :
    modifyWindow s = mbxEnd s 3 := by
  unfold modifyWindow
  simp only [h, hw, Option.isNone_none, if_true]

theorem isNone_not {α : Type} {o : Option α} (h : o.isSome = true) : ¬ o.isNone = true := by
  cases o <;> simp_all

theorem modifyWindow_open {s : State} (h : winRefusal s 1 = none) (hw : (smGet s.windows (mbxArg s 0)).isSome = true) :
    modifyWindow s = mbxEnd { s with windows := smSet s.windows (mbxArg s 0) (winArg s 1) } 0 := by
  unfold modifyWindow
  simp only [h]
  exact if_neg (isNone_not hw)

theorem closeWindow_closed {s : State} (hw : smGet s.windows (mbxArg s 0) = none) : closeWindow s = mbxEnd s 3 :=
  if_pos (by simp [hw])

theorem closeWindow_open {s : State} (hw : (smGet s.windows (mbxArg s 0)).isSome = true) :
    closeWindow s = mbxEnd { s with windows := smErase s.windows (mbxArg s 0) } 0 :=
  if_neg (isNone_not hw)

theorem freeWindow_free {s : State} {i : Nat} (h : freeWindow s = some i) : smGet s.windows i = none := by
  simpa using List.find?_some h

theorem windowOpen_holds (s : State) (hb : s.host.busy = true) (hr : isReady s = true) (hc : s.host.running = 0x10) :
    (∀ i, winRefusal s 0 = none → freeWindow s = some i →
      ∃ t, exec .windowOpen s = .next t
        ∧ t = { s with out := t.out, windows := smSet s.windows i (winArg s 0), host := t.host } ∧ MailboxEnded t 0
        ∧ t.host.results = s.host.results.set 0 (BitVec.ofNat 64 i) ∧ smGet s.windows i = none)
    ∧ (winRefusal s 0 = none → freeWindow s = none →
      ∃ t, exec .windowOpen s = .next t ∧ t = { s with out := t.out, host := t.host } ∧ MailboxEnded t 0x25)
    ∧ (∀ e, winRefusal s 0 = some e →
      ∃ t, exec .windowOpen s = .next t ∧ t = { s with out := t.out, host := t.host } ∧ MailboxEnded t e) := by
  have hx : exec .windowOpen s = .next (openWindow s) := congrArg Host.Outcome.next (mbxRun_ready openWindow hb hc hr)
  refine ⟨fun i h hf => ⟨_, hx.trans (congrArg Host.Outcome.next (openWindow_at h hf)), ?_, mailboxEnded_mbxEnd _ _,
      hostResults_mbxEnd _ _, freeWindow_free hf⟩,
    fun h hf => ⟨_, hx.trans (congrArg Host.Outcome.next (openWindow_full h hf)), mbxEnd_frame s _, mailboxEnded_mbxEnd _ _⟩,
    fun e h => ⟨_, hx.trans (congrArg Host.Outcome.next (openWindow_refused h)), mbxEnd_frame s _, mailboxEnded_mbxEnd _ _⟩⟩
  exact mbxEnd_frame (mbxResult { s with windows := smSet s.windows i (winArg s 0) } 0 i) 0

theorem windowModify_holds (s : State) (hb : s.host.busy = true) (hr : isReady s = true) (hc : s.host.running = 0x11) :
    (winRefusal s 1 = none → (smGet s.windows (mbxArg s 0)).isSome = true →
      ∃ t, exec .windowModify s = .next t
        ∧ t = { s with out := t.out, windows := smSet s.windows (mbxArg s 0) (winArg s 1), host := t.host } ∧ MailboxEnded t 0)
    ∧ (winRefusal s 1 = none → smGet s.windows (mbxArg s 0) = none →
      ∃ t, exec .windowModify s = .next t ∧ t = { s with out := t.out, host := t.host } ∧ MailboxEnded t 3)
    ∧ (∀ e, winRefusal s 1 = some e →
      ∃ t, exec .windowModify s = .next t ∧ t = { s with out := t.out, host := t.host } ∧ MailboxEnded t e) := by
  have hx : exec .windowModify s = .next (modifyWindow s) := congrArg Host.Outcome.next (mbxRun_ready modifyWindow hb hc hr)
  exact ⟨fun h hw => ⟨_, hx.trans (congrArg Host.Outcome.next (modifyWindow_open h hw)),
      mbxEnd_frame { s with windows := smSet s.windows (mbxArg s 0) (winArg s 1) } 0, mailboxEnded_mbxEnd _ _⟩,
    fun h hw => ⟨_, hx.trans (congrArg Host.Outcome.next (modifyWindow_closed h hw)), mbxEnd_frame s _, mailboxEnded_mbxEnd _ _⟩,
    fun e h => ⟨_, hx.trans (congrArg Host.Outcome.next (modifyWindow_refused h)), mbxEnd_frame s _, mailboxEnded_mbxEnd _ _⟩⟩

theorem windowClose_holds (s : State) (hb : s.host.busy = true) (hr : isReady s = true) (hc : s.host.running = 0x12) :
    ((smGet s.windows (mbxArg s 0)).isSome = true →
      ∃ t, exec .windowClose s = .next t
        ∧ t = { s with out := t.out, windows := smErase s.windows (mbxArg s 0), host := t.host } ∧ MailboxEnded t 0)
    ∧ (smGet s.windows (mbxArg s 0) = none →
      ∃ t, exec .windowClose s = .next t ∧ t = { s with out := t.out, host := t.host } ∧ MailboxEnded t 3) := by
  have hx : exec .windowClose s = .next (closeWindow s) := congrArg Host.Outcome.next (mbxRun_ready closeWindow hb hc hr)
  exact ⟨fun hw => ⟨_, hx.trans (congrArg Host.Outcome.next (closeWindow_open hw)),
      mbxEnd_frame { s with windows := smErase s.windows (mbxArg s 0) } 0, mailboxEnded_mbxEnd _ _⟩,
    fun hw => ⟨_, hx.trans (congrArg Host.Outcome.next (closeWindow_closed hw)), mbxEnd_frame s _, mailboxEnded_mbxEnd _ _⟩⟩

/-! ### Replay entries and atomic units (R282, R285) -/

theorem expireReplay_none {s : State} {h : Half} {src seq : Nat} (hr : replayFind s h src seq = none) :
    expireReplay s h src seq = s := by
  unfold expireReplay
  rw [hr]

theorem expireReplay_some {s : State} {h : Half} {src seq : Nat} {x : Replay} (hr : replayFind s h src seq = some x) :
    expireReplay s h src seq = if 4000 ≤ replayAge s x then evictReplay s x else s := by
  unfold expireReplay
  rw [hr]

theorem mem_atomWriteBack (s : State) (a : Nat) (x : HeldWord) :
    x ∈ (atomWriteBack s a).atoms ↔ x ∈ s.atoms ∧ ¬ (x.addr = a ∧ x.last + 100 ≤ s.now) := by
  refine List.mem_filter.trans (and_congr Iff.rfl ?_)
  simp only [Bool.not_eq_true', Bool.and_eq_false_iff, beq_eq_false_iff_ne, decide_eq_false_iff_not, not_and_or]

/-! ### A descriptor reached by the schedulers of both halves (R192) -/

theorem any_map_seq {l : List Fetched} {m : Fetched → Fetched} (hm : ∀ g, (m g).seq = g.seq) (n : Nat) :
    (l.map m).any (fun x => x.seq == n) = l.any (fun x => x.seq == n) := by
  rw [List.any_map]
  exact congrArg l.any (funext fun g => by rw [Function.comp, hm])

section Kept

variable {m : Fetched → Fetched} (h : Half) (hseq : ∀ g, (m g).seq = g.seq) (hin : ∀ g, (m g).inLayer = g.inLayer)
  (hearly : ∀ g, (m g).early = g.early) (htodo : ∀ g, todoIn (m g) h = todoIn g h)
include hseq hin htodo

theorem ringBefore_map (v : Queue) (n : Nat) : ringBefore { v with fetched := v.fetched.map m } h n = ringBefore v h n := by
  unfold ringBefore
  rw [List.any_map]
  exact congrArg v.fetched.any (funext fun g => by rw [Function.comp, hseq, hin, htodo])

omit htodo in
theorem firstAttemptOpen_map (s : State) (q : Nat) (v : Queue) :
    firstAttemptOpen s q { v with fetched := v.fetched.map m } = firstAttemptOpen s q v := by
  unfold firstAttemptOpen
  refine congrArg s.layers.any (funext fun l => ?_)
  rw [List.any_map]
  exact congrArg (_ && ·) (congrArg v.fetched.any (funext fun g => by rw [Function.comp, hseq, hin]))

theorem heads_map (s : State) (q : Nat) (v : Queue) :
    heads s q { v with fetched := v.fetched.map m } h = (heads s q v h).map m := by
  unfold heads
  simp only [ringBefore_map h hseq hin htodo, firstAttemptOpen_map hseq hin, List.find?_map, Function.comp_def, hseq, hin, htodo,
    List.map_append, List.map_filterMap, Option.toList_map]

include hearly

theorem isHead_map (s : State) (q : Nat) (v : Queue) (f : Fetched) :
    isHead s q { v with fetched := v.fetched.map m } h f = isHead s q v h f := by
  unfold isHead candidates
  simp only [heads_map h hseq hin htodo, List.filter_map, ← List.map_append, Function.comp_def, hearly, htodo]
  exact any_map_seq hseq _

end Kept

/-- One half's reaching a descriptor leaves what the other half may issue. -/
theorem isHead_halfLeft (s : State) (q n : Nat) (v : Queue) (f : Fetched) (h k : Half) (hk : k ≠ h) :
    isHead s q (halfLeft n k v) h f = isHead s q v h f := by
  refine isHead_map h (fun g => ?_) (fun g => ?_) (fun g => ?_) (fun g => ?_) s q v f <;> split
  · exact leftIn_seq k g
  · rfl
  · cases k <;> rfl
  · rfl
  · cases k <;> rfl
  · rfl
  · cases k <;> cases h <;> simp_all [todoIn, leftIn]
  · rfl

theorem noteWait_done {s : State} {q : Nat} {f : Fetched} (h : waitDone s q f = true) : noteWait s q f = s :=
  if_pos (by rw [h, Bool.or_true])

theorem reached_of_schedReady {s : State} {h : Half} {q : Nat} {f : Fetched} {v : Queue} (hv : smGet s.queues q = some v)
    (hr : schedReady s h q f = (s, true)) :
    isHead s q v h f = true ∧ mayIssue s h = true ∧ v.state = 1 ∧ waitDone s q f = true ∧ slotFree v = true := by
  unfold schedReady at hr
  dsimp only at hr
  split at hr
  · simp at hr
  next w hw =>
    split at hr
    · simp at hr
    next h1 =>
      split at hr
      · simp at hr
      next h2 =>
        have hs : noteWait s q f = s := congrArg Prod.fst hr
        rw [hs] at hw h1
        cases hv.symm.trans hw
        simpa [and_assoc] using And.intro h1 h2

theorem schedReady_of {s : State} {h : Half} {q : Nat} {f : Fetched} {v : Queue} (hv : smGet s.queues q = some v)
    (hh : isHead s q v h f = true) (hm : mayIssue s h = true) (hst : v.state = 1) (hw : waitDone s q f = true)
    (hf : slotFree v = true) : schedReady s h q f = (s, true) := by
  unfold schedReady
  simp [noteWait_done hw, hv, hh, hm, hst, hw, hf]

theorem schedReady_leftIn {s : State} {q : Nat} {v : Queue} {f : Fetched} {h k : Half} (n : Nat) (hk : k ≠ h)
    (hv : smGet s.queues q = some v) (hr : schedReady s h q f = (s, true)) :
    schedReady (updFetched s q n (leftIn k)) h q f = (updFetched s q n (leftIn k), true) := by
  obtain ⟨hh, hm, hst, hw, hfree⟩ := reached_of_schedReady hv hr
  refine schedReady_of (v := halfLeft n k v) ?_ ((isHead_halfLeft s q n v f h k hk).trans hh) hm hst hw hfree
  refine (smGet_updQ_self s q _).trans ?_
  rw [hv]
  rfl

/-! ### Requests outstanding after the end of a descriptor -/

/-- No request has come that fills a cache. -/
def NoFills (s t : State) : Prop := ∀ o ∈ t.outst, o ∈ s.outst ∨ o.fillOk = false

theorem NoFills.refl (s : State) : NoFills s s := fun _ ho => Or.inl ho

theorem NoFills.trans {s t u : State} (h : NoFills s t) (h' : NoFills t u) : NoFills s u :=
  fun o ho => (h' o ho).elim (h o) Or.inr

theorem NoFills.of_outst {s t u : State} (h : NoFills s t) (ho : u.outst = t.outst) : NoFills s u := by
  unfold NoFills
  rwa [ho]

theorem noFills_same {s t : State} (h : t.outst = s.outst) : NoFills s t := NoFills.of_outst (NoFills.refl s) h

theorem noFills_sendRequest (s : State) (h : Half) (dest off : Nat) (op : FabOp) (who : Requester) (want : Nat) :
    NoFills s (sendRequest s h dest off op who false want) := by
  unfold sendRequest
  dsimp only
  intro o ho
  rw [inject_keeps State.outst (fun _ _ => rfl)] at ho
  rcases List.mem_append.1 ho with ho | ho
  · have hseq (b : Bool) : (if b then takeSeq s h else s).outst = s.outst := by
      cases b
      · rfl
      · exact takeSeq_keeps State.outst (fun _ _ => rfl) s h
    exact Or.inl ((hseq _) ▸ ho)
  · exact Or.inr (List.mem_singleton.1 ho ▸ rfl)

theorem noFills_remoteSignal (s : State) (h : Half) (q seq c obj amount : Nat) : NoFills s (remoteSignal s h q seq c obj amount) := by
  unfold remoteSignal
  dsimp only
  split
  · exact noFills_same (remoteSignalFailed_keeps State.outst (fun _ _ => rfl) _ _ _)
  · split
    · split
      · exact noFills_same (syncAdd_keeps State.outst (fun _ _ => rfl) _ _ _)
      · exact noFills_same ((remoteSignalFailed_keeps State.outst (fun _ _ => rfl) _ _ _).trans
          (countAddrError_keeps State.outst (fun _ _ => rfl) _ _))
    · exact noFills_sendRequest _ _ _ _ _ _ _

theorem noFills_tailSignal (s : State) (h : Half) (q seq : Nat) (ws : List Word64) : NoFills s (tailSignal s h q seq ws) := by
  unfold tailSignal
  split
  · split
    · exact noFills_remoteSignal _ _ _ _ _ _ _
    · exact noFills_same (syncPut_keeps State.outst (fun _ _ => rfl) _ _ _)
  · exact NoFills.refl s

theorem noFills_afterRecord (s : State) (v : Queue) (d : Done) : NoFills s (afterRecord s v d) := by
  unfold afterRecord
  split
  · exact noFills_same (trapQueue_keeps State.outst (fun _ _ => rfl) _ _ _)
  · split
    · exact noFills_tailSignal _ _ _ _ _
    · exact NoFills.refl s

theorem noFills_finishDesc (s : State) (d : Done) : NoFills s (finishDesc s d) := by
  cases hv : smGet s.queues d.queue with
  | none => exact noFills_same (by rw [finishDesc_none s d hv])
  | some v =>
    cases hr : slotReady s v 0 with
    | true =>
      rw [finishDesc_ready s d v hv hr, endDesc_eq]
      have h1 : NoFills s (oneLess (putRecord s d.queue v (recordOf d (trapNow v d))) d) :=
        noFills_same (putRecord_keeps State.outst (fun _ _ => rfl) _ _ _ _)
      exact NoFills.trans h1 (NoFills.of_outst (noFills_afterRecord _ v d) rfl)
    | false =>
      rw [finishDesc_parked s d v hv hr]
      exact noFills_same (parkRecord_keeps State.outst (fun _ _ => rfl) _ _ _ _)

/-! ### A descriptor of an attempt that ends without fault -/

theorem layerHook_mild (s : State) (d : Done) (b : Bool) (hs : d.status = 0) (ho : natBit 1 d.summary = false) :
    ∃ ls, layerHook s d b = { s with layers := ls } := by
  unfold layerHook
  split
  · split
    · exact ⟨_, rfl⟩
    · dsimp only
      rw [if_neg (by simp [hs]), if_neg (by simp [ho])]
      exact ⟨_, rfl⟩
  · exact ⟨_, rfl⟩

theorem completeDesc_mild (s : State) (d : Done) (hs : d.status = 0) (ho : natBit 1 d.summary = false) :
    ∃ ls, completeDesc s d = { finishDesc s d with layers := ls } := layerHook_mild _ d _ hs ho

/-! ### The remote read cache (R289) -/

/-- The cache after the serving halves have invalidated a range. -/
def rciHalves (s : State) (halves : Nat) (ws : List Word64) : State :=
  let s := if serves halves .w then rciHalf s ws .w else s
  if serves halves .e then rciHalf s ws .e else s

/-- The record of an invalidate descriptor. -/
def rciDone (q : Nat) (f : Fetched) : Done :=
  { queue := q, seq := f.seq, words := f.words, inLayer := f.inLayer, status := 0, op := 0x42, engine := 127,
    summary := 0, body := List.replicate 6 0 }

theorem rciRun_ok {q : Nat} {s : State} {f : Fetched} (h : rciReject f.words = none) : rciRun q s f
    = completeDesc (objInc (rciHalves (updQ s q oneMore) (halvesOf s q) f.words) Obj.rCacheInvalidations) (rciDone q f) := by
  unfold rciRun
  dsimp only
  rw [h]
  rfl

theorem rciRun_rejected {q st : Nat} {s : State} {f : Fetched} (h : rciReject f.words = some st) (hin : f.inLayer = false) :
    rciRun q s f = finishDesc (updQ s q oneMore)
      (rejected { queue := q, seq := f.seq, words := f.words, inLayer := f.inLayer } st 127) := by
  unfold rciRun
  dsimp only
  rw [h]
  exact rejectDesc_eq _ _ _ _ hin

theorem mem_rciHalf (s : State) (ws : List Word64) (h : Half) (x : CacheLine) :
    x ∈ (rciHalf s ws h).rcache ↔ x ∈ s.rcache ∧ ¬ (x.half = h ∧ rciHits ws x.chip x.granule = true) := by
  refine List.mem_filter.trans (and_congr Iff.rfl ?_)
  simp only [Bool.not_eq_true', Bool.and_eq_false_iff, beq_eq_false_iff_ne, not_and_or, Bool.not_eq_true]

theorem mem_rciHalves (s : State) (halves : Nat) (ws : List Word64) (x : CacheLine) : x ∈ (rciHalves s halves ws).rcache
    ↔ x ∈ s.rcache ∧ ¬ (serves halves x.half = true ∧ rciHits ws x.chip x.granule = true) := by
  have h1 (u : State) (h : Half) : x ∈ (if serves halves h then rciHalf u ws h else u).rcache
      ↔ x ∈ u.rcache ∧ ¬ (serves halves h = true ∧ x.half = h ∧ rciHits ws x.chip x.granule = true) := by
    split
    next hs => simp only [mem_rciHalf, hs, true_and]
    next hs => simp only [hs, Bool.false_eq_true, false_and, not_false_eq_true, and_true]
  unfold rciHalves
  rw [h1, h1]
  cases x.half <;> simp

theorem noFills_rciHalf (s : State) (ws : List Word64) (h : Half) : NoFills s (rciHalf s ws h) := by
  intro o ho
  obtain ⟨x, hx, rfl⟩ := List.mem_map.1 ho
  split
  · exact Or.inr rfl
  · exact Or.inl hx

theorem noFills_rciHalves (s : State) (halves : Nat) (ws : List Word64) : NoFills s (rciHalves s halves ws) := by
  have h1 (u : State) (h : Half) : NoFills u (if serves halves h then rciHalf u ws h else u) := by
    split
    · exact noFills_rciHalf u ws h
    · exact NoFills.refl u
  exact (h1 _ _).trans (h1 _ _)

theorem rciHalves_eq (s : State) (halves : Nat) (ws : List Word64) :
    rciHalves s halves ws = { s with rcache := (rciHalves s halves ws).rcache, outst := (rciHalves s halves ws).outst } := by
  unfold rciHalves
  dsimp only
  split <;> split <;> rfl

theorem rcacheInvalidate_reached {q : Nat} {s : State} {v : Queue} {f : Fetched} (hv : smGet s.queues q = some v)
    (hfind : v.fetched.find? (fun f => opcode f.words == 0x42 && schedulerOwn s q v.halves f) = some f)
    (hr : ∀ h, todoIn f h = true → schedReady s h q f = (s, true)) (hone : ∀ g ∈ v.fetched, g.seq = f.seq → g = f) :
    ∃ u x, exec (.rcacheInvalidate q) s = .next (rciRun q u f) ∧ u = { s with queues := u.queues } ∧ OthersKept s u q
      ∧ smGet u.queues q = some x ∧ unfetched x = unfetched v ∧ ∀ g ∈ x.fetched, g.seq ≠ f.seq := by
  obtain ⟨u, x, hrun, h⟩ := runTogether_runs (rciRun q) hv hfind
    (reachedBoth s q v f hv (List.mem_of_find?_eq_some hfind) hr (schedReady_leftIn f.seq (by decide) hv) hone)
  exact ⟨u, x, congrArg Host.Outcome.next hrun, h⟩

theorem smGet_oneMore {u : State} {q : Nat} {x : Queue} (hx : smGet u.queues q = some x) :
    smGet (updQ u q oneMore).queues q = some (oneMore x) := by
  rw [smGet_updQ_self, hx]
  rfl

/-- A reached descriptor made outstanding leaves its queue's completion ring. -/
theorem ringKept_oneMore {s u : State} {q : Nat} {v x : Queue} (hv : smGet s.queues q = some v)
    (hrest : u = { s with queues := u.queues }) (ho : OthersKept s u q) (hx : smGet u.queues q = some x)
    (hk : unfetched x = unfetched v) : RingKept s (updQ u q oneMore) q v (oneMore x) := by
  refine ⟨?_, ho.updQ _, hv, smGet_oneMore hx, (congrArg recordsOf hk :)⟩
  rw [hrest]
  rfl

theorem rcacheInvalidate_rejected (q st : Nat) (s : State) (v : Queue) (f : Fetched) (hv : smGet s.queues q = some v)
    (hfind : v.fetched.find? (fun f => opcode f.words == 0x42 && schedulerOwn s q v.halves f) = some f)
    (hr : ∀ h, todoIn f h = true → schedReady s h q f = (s, true)) (hrej : rciReject f.words = some st)
    (hone : ∀ g ∈ v.fetched, g.seq = f.seq → g = f) (hin : f.inLayer = false) :
    ∃ t, exec (.rcacheInvalidate q) s = .next t ∧ EndFrame s t q ∧ SameObjs s t tailObjs ∧ t.rcache = s.rcache := by
  obtain ⟨u, x, hexec, hrest, ho, hx, hk, -⟩ := rcacheInvalidate_reached hv hfind hr hone
  rw [rciRun_rejected hrej hin] at hexec
  have hring := ringKept_oneMore hv hrest ho hx hk
  have hsame : SameObjs s (updQ u q oneMore) tailObjs := (SameObjs.refl s _).of_dic (by rw [hrest]; rfl)
  refine ⟨_, hexec, hring.endFrame _ rfl le_rfl, hsame.trans (sameObjs_finishDesc _ _), ?_⟩
  refine (finishDesc_keeps State.rcache (fun _ _ => rfl) _ _).trans ?_
  rw [hrest]
  rfl

/-- A queue whose descriptor has completed, or waits for its record. -/
theorem finishDesc_outstanding {u : State} {d : Done} {w : Queue} (hw : smGet u.queues d.queue = some w) :
    ∃ x, smGet (finishDesc u d).queues d.queue = some x ∧ x.fetched = w.fetched
      ∧ x.outstanding = if slotReady u w 0 then w.outstanding - 1 else w.outstanding := by
  cases hr : slotReady u w 0 with
  | true =>
    obtain ⟨x, hx, hu, hout⟩ := finishDesc_queue_ready u d w hw hr
    exact ⟨x, hx, (unended_of Queue.fetched (fun _ => rfl) hu).trans rfl, hout⟩
  | false => exact ⟨_, finishDesc_queue_parked u d w hw hr, rfl, rfl⟩

theorem foot21_2_self (s : State) : foot21_2 s s = s := rfl

/-- The frame of an invalidate descriptor. -/
theorem rciRun_frame {s u : State} (q : Nat) (f : Fetched) (hrest : u = { s with queues := u.queues }) :
    rciRun q u f = foot21_2 s (rciRun q u f) := by
  refine (foot21_2_self _).symm.trans ((rciRun_keeps (foot21_2 · (rciRun q u f)) (fun _ _ => rfl) q u f).trans ?_)
  generalize rciRun q u f = t
  rw [hrest]
  rfl

theorem rcacheInvalidate_runs (q : Nat) (s : State) (v : Queue) (f : Fetched) (hv : smGet s.queues q = some v)
    (hfind : v.fetched.find? (fun f => opcode f.words == 0x42 && schedulerOwn s q v.halves f) = some f)
    (hr : ∀ h, todoIn f h = true → schedReady s h q f = (s, true)) (hrej : rciReject f.words = none)
    (hone : ∀ g ∈ v.fetched, g.seq = f.seq → g = f) :
    ∃ t v', exec (.rcacheInvalidate q) s = .next t ∧ smGet t.queues q = some v'
      ∧ v'.outstanding = (if slotReady s v 0 then v.outstanding else v.outstanding + 1)
      ∧ (∀ g ∈ v'.fetched, g.seq ≠ f.seq)
      ∧ (∀ x : CacheLine, x ∈ t.rcache ↔ x ∈ s.rcache ∧ ¬ (serves v.halves x.half = true ∧ rciHits f.words x.chip x.granule = true))
      ∧ (∀ o ∈ t.outst, o ∈ s.outst ∨ o.fillOk = false) ∧ Counted s t Obj.rCacheInvalidations 1
      ∧ SameObjs s t (Obj.rCacheInvalidations :: tailObjs) ∧ t = foot21_2 s t := by
  obtain ⟨u, x, hexec, hrest, ho, hx, hk, hgone⟩ := rcacheInvalidate_reached hv hfind hr hone
  have hframe := rciRun_frame q f hrest
  have hring := ringKept_oneMore hv hrest ho hx hk
  have hslot := hring.slotReady
  have hhalves : halvesOf u q = v.halves := by
    rw [halvesOf, hx]
    exact (congrArg Queue.halves hk :)
  have hmem := mem_rciHalves (updQ u q oneMore) (halvesOf u q) f.words
  have hfills := noFills_rciHalves (updQ u q oneMore) (halvesOf u q) f.words
  have heq := rciHalves_eq (updQ u q oneMore) (halvesOf u q) f.words
  rw [rciRun_ok hrej] at hexec hframe
  generalize rciHalves (updQ u q oneMore) (halvesOf u q) f.words = w at *
  have hq : smGet (objInc w Obj.rCacheInvalidations).queues (rciDone q f).queue = some (oneMore x) := by
    rw [heq]
    exact smGet_oneMore hx
  obtain ⟨y, hy, hfetched, hout⟩ := finishDesc_outstanding hq
  have hslot' : slotReady (objInc w Obj.rCacheInvalidations) (oneMore x) 0 = slotReady s v 0 := by
    rw [← hslot, heq]
    rfl
  have hdic : w.dic = s.dic := by
    rw [heq, hrest]
    rfl
  have hcount : Counted s (objInc w Obj.rCacheInvalidations) Obj.rCacheInvalidations 1 := by
    unfold Counted
    rw [objGet_objInc_self, objGet_congr s w _ hdic]
  have hsame : SameObjs s (objInc w Obj.rCacheInvalidations) [Obj.rCacheInvalidations] :=
    ((SameObjs.refl s _).of_dic hdic).objInc _ List.mem_cons_self
  have hsd := sameObjs_completeDesc (objInc w Obj.rCacheInvalidations) (rciDone q f)
  obtain ⟨ls, hls⟩ := completeDesc_mild (objInc w Obj.rCacheInvalidations) (rciDone q f) rfl (show natBit 1 0 = false by decide)
  have houtst := noFills_finishDesc (objInc w Obj.rCacheInvalidations) (rciDone q f)
  have hcache := finishDesc_keeps State.rcache (fun _ _ => rfl) (objInc w Obj.rCacheInvalidations) (rciDone q f)
  refine ⟨_, y, hexec, ?_, ?_, ?_, fun z => ?_, ?_, ?_, ?_, hframe⟩
  · rw [hls]
    exact hy
  · have hxo : x.outstanding = v.outstanding := (congrArg Queue.outstanding hk :)
    rw [hout, hslot']
    split
    · exact hxo
    · exact congrArg (· + 1) hxo
  · rw [hfetched]
    exact hgone
  · rw [hls, ← hhalves]
    show z ∈ (finishDesc (objInc w Obj.rCacheInvalidations) (rciDone q f)).rcache ↔ _
    rw [hcache]
    refine (hmem z).trans ?_
    rw [hrest]
    rfl
  · rw [hls]
    have hall : NoFills s (finishDesc (objInc w Obj.rCacheInvalidations) (rciDone q f)) := by
      refine NoFills.trans (NoFills.trans (noFills_same ?_) hfills) houtst
      rw [hrest]
      rfl
    exact hall
  · exact (hsd _ (by decide)).trans hcount
  · exact (hsame.mono (by simp)).trans (hsd.mono (List.subset_cons_self _ _))

/-- Settles O33: windows follow the table of entries, replay entries and held words go by their age, and an invalidate drops what
its range holds in the halves that serve its queue. -/
theorem windowsReplayAndCachesKept : Obligations.WindowsReplayAndCachesKept := by
  unfold Obligations.WindowsReplayAndCachesKept
  refine ⟨fun s hb hr => ⟨windowOpen_holds s hb hr, windowModify_holds s hb hr, windowClose_holds s hb hr⟩,
    fun s hb => ⟨congrArg Host.Outcome.next (mbxRun_idle _ _ hb), congrArg Host.Outcome.next (mbxRun_idle _ _ hb),
      congrArg Host.Outcome.next (mbxRun_idle _ _ hb)⟩,
    fun _ _ _ _ hr => congrArg Host.Outcome.next (expireReplay_none hr), fun h src seq x s hr => ⟨fun ha => ?_, fun ha => ?_⟩,
    fun a s => ⟨atomWriteBack s a, rfl, rfl, mem_atomWriteBack s a⟩, rcacheInvalidate_runs, rcacheInvalidate_rejected,
    fun q s h => congrArg Host.Outcome.next (runTogether_idle _ _ _ _ _ h)⟩
  · exact ⟨evictReplay s x, congrArg Host.Outcome.next ((expireReplay_some hr).trans (if_pos ha)), rfl⟩
  · exact congrArg Host.Outcome.next ((expireReplay_some hr).trans (if_neg (by omega)))

end Sys2Proof.Machine

/-!
Replies and timeouts of requests over the fabric (R198, R279, R280, O32).
-/

namespace Sys2Proof.Machine

/-! ### Routers -/

theorem routerOf_updRouter (s : State) (h k : Half) (f : Router → Router) :
    routerOf (updRouter s h f) k = if k = h then f (routerOf s k) else routerOf s k := by
  cases h <;> cases k <;> rfl

/-- What of a router an echo leaves. -/
theorem held_echoFrom (s : State) (h k : Half) (c : PClass) (d : Nat) :
    (routerOf (echoFrom s h c d) k).held = (routerOf s k).held := by
  rw [echoFrom, routerOf_updRouter]
  split
  · dsimp only
    split <;> rfl
  · rfl

theorem routerOf_takeEjected (s : State) (p : Packet) (k : Half) :
    routerOf (takeEjected s p) k = { routerOf s k with ejected := (routerOf s k).ejected.erase p } := by
  cases k <;> rfl

theorem takeEjected_frame (s : State) (p : Packet) :
    takeEjected s p = { s with routerW := (takeEjected s p).routerW, routerE := (takeEjected s p).routerE } := rfl

theorem echoFrom_frame (s : State) (h : Half) (c : PClass) (d : Nat) :
    echoFrom s h c d = { s with routerW := (echoFrom s h c d).routerW, routerE := (echoFrom s h c d).routerE } := by
  cases h <;> rfl

/-- After an echo its destination is hot. -/
theorem hot_echoFrom (s : State) (h : Half) (c : PClass) (d : Nat) :
    (routerOf (echoFrom s h c d) h).hot.any (fun (x : Hot) => x.cls == c && x.dest == d) = true := by
  rw [echoFrom, routerOf_updRouter, if_pos rfl]
  dsimp only
  split
  next hany =>
    obtain ⟨x, hx, hm⟩ := List.any_eq_true.1 hany
    simp only [Bool.and_eq_true, beq_iff_eq] at hm
    refine List.any_eq_true.2 ⟨_, List.mem_map.2 ⟨x, hx, rfl⟩, ?_⟩
    rw [if_pos hm]
    split <;> simp [hm]
  · simp

/-! ### A request that ends (R279, R280) -/

/-- The state in which a request's answer is taken: the packet ejected, and its echo noted. -/
def replySeen (s : State) (p : Packet) (o : Outst) : State :=
  if p.echo then echoFrom (takeEjected s p) o.half .request o.dest else takeEjected s p

theorem replySeen_frame (s : State) (p : Packet) (o : Outst) :
    replySeen s p o = { s with routerW := (replySeen s p o).routerW, routerE := (replySeen s p o).routerE } := by
  unfold replySeen
  split
  · exact echoFrom_frame (takeEjected s p) _ _ _
  · rfl

theorem hot_replySeen (s : State) (p : Packet) (o : Outst) :
    (p.echo = true → (routerOf (replySeen s p o) o.half).hot.any (fun (x : Hot) => x.cls == .request && x.dest == o.dest) = true)
      ∧ (p.echo = false → ∀ h, (routerOf (replySeen s p o) h).hot = (routerOf s h).hot) := by
  refine ⟨fun he => ?_, fun he h => ?_⟩
  · rw [replySeen, if_pos he]
    exact hot_echoFrom _ _ _ _
  · rw [replySeen, if_neg (by simp [he]), routerOf_takeEjected]

theorem takeReply_late {s : State} {p : Packet} {tag st m : Nat} {d : Bytes} (hb : p.body = .rep tag st m d)
    (ho : s.outst.find? (fun (o : Outst) => o.tag == tag) = none) : takeReply s p = objInc (takeEjected s p) Obj.lateReplies := by
  unfold takeReply
  rw [hb]
  dsimp only
  rw [show (takeEjected s p).outst = s.outst from rfl, ho]

theorem takeReply_named {s : State} {p : Packet} {tag st m : Nat} {d : Bytes} {o : Outst} (hb : p.body = .rep tag st m d)
    (ho : s.outst.find? (fun (o : Outst) => o.tag == tag) = some o) :
    takeReply s p = answer (replySeen s p o) o st m d := by
  unfold takeReply
  rw [hb]
  dsimp only
  rw [show (takeEjected s p).outst = s.outst from rfl, ho]
  rfl

theorem replyLate_none {s : State} {tag : Nat} (ho : s.outst.find? (fun (o : Outst) => o.tag == tag) = none) :
    replyLate s tag = s := by
  unfold replyLate
  rw [ho]

theorem replyLate_early {s : State} {tag : Nat} {o : Outst} (ho : s.outst.find? (fun (o : Outst) => o.tag == tag) = some o)
    (hw : s.now < o.since + us (objGet s Obj.replyTimeoutUs)) : replyLate s tag = s := by
  unfold replyLate
  rw [ho]
  exact if_neg (by omega)

theorem replyLate_due {s : State} {tag : Nat} {o : Outst} (ho : s.outst.find? (fun (o : Outst) => o.tag == tag) = some o)
    (hw : o.since + us (objGet s Obj.replyTimeoutUs) ≤ s.now) :
    replyLate s tag = answer (objInc s Obj.fabReplyTimeouts) o (lateStatus o) 15 [] := by
  unfold replyLate
  rw [ho]
  exact if_pos hw

theorem releaseTag_eq (s : State) (o : Outst) :
    releaseTag s o = { s with outst := s.outst.erase o, tagHold := (releaseTag s o).tagHold } := by
  unfold releaseTag
  dsimp only
  split <;> rfl

theorem tagHold_releaseTag (s : State) (o : Outst) : (o.resent = false → (releaseTag s o).tagHold = s.tagHold)
    ∧ (o.resent = true → smGet (releaseTag s o).tagHold o.tag = some (s.now + us (objGet s Obj.replyTimeoutUs))) := by
  unfold releaseTag
  refine ⟨fun h => ?_, fun h => ?_⟩
  · rw [if_neg (by simp [h])]
  · rw [if_pos h]
    exact smGet_smSet_self _ _ _

theorem answer_tail {s : State} {o : Outst} {q n : Nat} (st m : Nat) (d : Bytes) (h : o.who = .tail q n) :
    answer s o st m d = if st = 0 then releaseTag s o else remoteSignalFailed (releaseTag s o) q n := by
  unfold answer
  rw [h]

theorem answer_stream {s : State} {o : Outst} {e n i : Nat} (st m : Nat) (d : Bytes) (h : o.who = .stream e n i)
    (hr : findReq s e n i = none) : answer s o st m d = releaseTag s o := by
  have hr' : findReq (releaseTag s o) e n i = none := by
    rw [releaseTag_eq]
    exact hr
  unfold answer
  rw [h]
  dsimp only
  unfold streamAnswer
  rw [hr']

/-- A vector unit whose scan's atomic has been answered. -/
def amaxEnded (status mask : Nat) (u : VecUnit) : VecUnit :=
  { u with
    amaxWait := false
    done := u.done.map (fun d => (d.1, { d.2 with status := status, poisoned := d.2.poisoned || (status == 0 && natBit 0 mask) })) }

theorem answer_scan {s : State} {o : Outst} {k : Nat} (st m : Nat) (d : Bytes) (h : o.who = .scan k) :
    answer s o st m d = updVec (releaseTag s o) k (amaxEnded st m) := by
  unfold answer
  rw [h]
  rfl

theorem vecOf_updVec_self (s : State) (k : Nat) (f : VecUnit → VecUnit) (h : k < s.vecs.length) :
    vecOf (updVec s k f) k = f (vecOf s k) := by
  refine (getD_modifyAt s.vecs k k f {}).trans ?_
  rw [if_pos ⟨rfl, h⟩]
  rfl

theorem answer_scan_frame (s : State) (o : Outst) (k st m : Nat) (d : Bytes) (h : o.who = .scan k) :
    answer s o st m d = { s with vecs := (answer s o st m d).vecs, outst := s.outst.erase o, tagHold := (answer s o st m d).tagHold } := by
  rw [answer_scan st m d h, releaseTag_eq]
  rfl

theorem amaxWait_answer {s : State} {o : Outst} {k : Nat} (st m : Nat) (d : Bytes) (h : o.who = .scan k) (hk : k < s.vecs.length) :
    (vecOf (answer s o st m d) k).amaxWait = false := by
  have hv : (releaseTag s o).vecs = s.vecs := by rw [releaseTag_eq]
  rw [answer_scan st m d h, vecOf_updVec_self _ _ _ (by rw [hv]; exact hk)]
  rfl

/-! ### A remote tail signal that fails (R198) -/

/-- A queue's failed signal counted and raised. -/
def signalFaultRaised (s : State) (q : Nat) : State :=
  raiseErr (updQ (objInc s Obj.remoteSignalFaults) q (fun x => { x with signalFault := true })) q

theorem signalFaultRaised_dic (s : State) (q : Nat) : (signalFaultRaised s q).dic = (objInc s Obj.remoteSignalFaults).dic :=
  raiseErr_keeps State.dic (fun _ _ => rfl) _ q

/-- What a reply to a remote tail signal that fails may change. -/
def replyFoot (s t : State) : State :=
  { s with out := t.out, dic := t.dic, queues := t.queues, routerW := t.routerW, routerE := t.routerE, outst := t.outst
           tagHold := t.tagHold, host := t.host, obs := t.obs }

theorem replyFoot_self (s : State) : replyFoot s s = s := rfl

theorem remoteSignalFailed_replyFoot (s : State) (q n : Nat) :
    remoteSignalFailed s q n = replyFoot s (remoteSignalFailed s q n) :=
  (replyFoot_self _).symm.trans
    (remoteSignalFailed_keeps (replyFoot · (remoteSignalFailed s q n)) (fun _ _ => rfl) s q n)

/-- What the timeout of a remote tail signal may change. -/
def timeoutFoot (s t : State) : State :=
  { s with out := t.out, dic := t.dic, queues := t.queues, outst := t.outst, tagHold := t.tagHold, host := t.host, obs := t.obs }

theorem timeoutFoot_self (s : State) : timeoutFoot s s = s := rfl

theorem remoteSignalFailed_timeoutFoot (s : State) (q n : Nat) :
    remoteSignalFailed s q n = timeoutFoot s (remoteSignalFailed s q n) :=
  (timeoutFoot_self _).symm.trans
    (remoteSignalFailed_keeps (timeoutFoot · (remoteSignalFailed s q n)) (fun _ _ => rfl) s q n)

theorem counted_remoteSignalFailed (s : State) (q n : Nat) : Counted s (remoteSignalFailed s q n) Obj.remoteSignalFaults 1 :=
  (objGet_journal (signalFaultRaised s q) _ _ _ (by decide) (by decide)).trans
    ((objGet_congr _ _ _ (signalFaultRaised_dic s q)).trans (objGet_objInc_self s _))

theorem sameObjs_signalFailed (s : State) (q n : Nat) :
    SameObjs s (remoteSignalFailed s q n) (Obj.remoteSignalFaults :: journalObjs) :=
  (((SameObjs.refl s _).objInc Obj.remoteSignalFaults List.mem_cons_self).of_dic (signalFaultRaised_dic s q)).journal _ _
    (List.subset_cons_self _ _)

theorem logged_remoteSignalFailed (s : State) (q n : Nat) :
    Logged s (remoteSignalFailed s q n) .remoteSignalFailed [q, n] false :=
  (logged_journal (signalFaultRaised s q) _ _).of_view (raiseErr_keeps logView (fun _ _ => rfl) _ q)

/-! ### Replies -/

theorem reply_late {p : Packet} {tag st m : Nat} {d : Bytes} {s : State} (hb : p.body = .rep tag st m d)
    (ho : s.outst.find? (fun (o : Outst) => o.tag == tag) = none) :
    ∃ t, exec (.fabricReplyReceive p) s = .next t ∧ t = { s with dic := t.dic, routerW := t.routerW, routerE := t.routerE }
      ∧ (∀ h, (routerOf t h).held = (routerOf s h).held) ∧ Counted s t Obj.lateReplies 1 ∧ SameObjs s t [Obj.lateReplies] := by
  refine ⟨_, congrArg Host.Outcome.next (takeReply_late hb ho), rfl, fun h => ?_, objGet_objInc_self (takeEjected s p) _,
    SameObjs.objInc (SameObjs.refl s _) _ (by simp)⟩
  rw [routerOf_objInc, routerOf_takeEjected]

theorem reply_tail {p : Packet} {tag st m : Nat} {d : Bytes} {s : State} {o : Outst} {q n : Nat} (hb : p.body = .rep tag st m d)
    (ho : s.outst.find? (fun (o : Outst) => o.tag == tag) = some o) (hw : o.who = .tail q n) :
    ∃ t, exec (.fabricReplyReceive p) s = .next t ∧ t.outst = s.outst.erase o
      ∧ (p.echo = true → (routerOf t o.half).hot.any (fun (x : Hot) => x.cls == .request && x.dest == o.dest) = true)
      ∧ (p.echo = false → ∀ h, (routerOf t h).hot = (routerOf s h).hot)
      ∧ (o.resent = false → t.tagHold = s.tagHold)
      ∧ (o.resent = true → smGet t.tagHold o.tag = some (s.now + us (objGet s Obj.replyTimeoutUs)))
      ∧ (st = 0 → t = { s with routerW := t.routerW, routerE := t.routerE, outst := t.outst, tagHold := t.tagHold })
      ∧ (st ≠ 0 → t = { s with out := t.out, dic := t.dic, queues := t.queues, routerW := t.routerW, routerE := t.routerE,
                               outst := t.outst, tagHold := t.tagHold, host := t.host, obs := t.obs }
          ∧ Counted s t Obj.remoteSignalFaults 1 ∧ SameObjs s t (Obj.remoteSignalFaults :: journalObjs)
          ∧ Logged s t .remoteSignalFailed [q, n] false) := by
  have hseen := replySeen_frame s p o
  obtain ⟨hhot, hcold⟩ := hot_replySeen s p o
  generalize hu : replySeen s p o = u at hseen hhot hcold
  have hrel := releaseTag_eq u o
  obtain ⟨hkeep, hheld⟩ := tagHold_releaseTag u o
  have hx : exec (.fabricReplyReceive p) s
      = .next (if st = 0 then releaseTag u o else remoteSignalFailed (releaseTag u o) q n) :=
    congrArg Host.Outcome.next ((takeReply_named hb ho).trans (by rw [hu]; exact answer_tail st m d hw))
  have htag : s.tagHold = u.tagHold := by rw [hseen]
  have htime : s.now + us (objGet s Obj.replyTimeoutUs) = u.now + us (objGet u Obj.replyTimeoutUs) := by
    rw [hseen]
    rfl
  generalize releaseTag u o = w at *
  have hdic : w.dic = s.dic := by rw [hrel, hseen]
  have hout : w.outst = s.outst.erase o := by rw [hrel, hseen]
  have hrouter (h : Half) : routerOf w h = routerOf u h := routerOf_congr (by rw [hrel]) (by rw [hrel]) h
  rw [htag, htime]
  by_cases hst : st = 0
  · rw [if_pos hst] at hx
    refine ⟨w, hx, hout, fun he => (by rw [hrouter]; exact hhot he), fun he h => (by rw [hrouter]; exact hcold he h), hkeep, hheld,
      fun _ => ?_, fun h => absurd hst h⟩
    rw [hrel, hseen]
  · rw [if_neg hst] at hx
    have hrouter' (h : Half) : routerOf (remoteSignalFailed w q n) h = routerOf u h :=
      (routerOf_congr (remoteSignalFailed_keeps State.routerW (fun _ _ => rfl) w q n)
        (remoteSignalFailed_keeps State.routerE (fun _ _ => rfl) w q n) h).trans (hrouter h)
    have hth : (remoteSignalFailed w q n).tagHold = w.tagHold := remoteSignalFailed_keeps State.tagHold (fun _ _ => rfl) w q n
    refine ⟨_, hx, (remoteSignalFailed_keeps State.outst (fun _ _ => rfl) w q n).trans hout, fun he => (by rw [hrouter']; exact hhot he),
      fun he h => (by rw [hrouter']; exact hcold he h), fun h => hth.trans (hkeep h), fun h => (by rw [hth]; exact hheld h),
      fun h => absurd h hst, fun _ => ⟨?_, ?_, ?_, ?_⟩⟩
    · refine (remoteSignalFailed_replyFoot w q n).trans ?_
      generalize remoteSignalFailed w q n = x
      rw [hrel, hseen]
      rfl
    · have hc := counted_remoteSignalFailed w q n
      unfold Counted at hc ⊢
      rwa [objGet_congr s w _ hdic] at hc
    · exact ((SameObjs.refl s _).of_dic hdic).trans (sameObjs_signalFailed w q n)
    · refine (logged_remoteSignalFailed w q n).of_view ?_
      rw [hrel, hseen]
      rfl

theorem reply_stream {p : Packet} {tag st m : Nat} {d : Bytes} {s : State} {o : Outst} {e n i : Nat} (hb : p.body = .rep tag st m d)
    (ho : s.outst.find? (fun (o : Outst) => o.tag == tag) = some o) (hw : o.who = .stream e n i) (hr : findReq s e n i = none) :
    ∃ t, exec (.fabricReplyReceive p) s = .next t ∧ t.outst = s.outst.erase o
      ∧ t = { s with routerW := t.routerW, routerE := t.routerE, outst := t.outst, tagHold := t.tagHold } := by
  have hseen := replySeen_frame s p o
  have hx : exec (.fabricReplyReceive p) s = .next (answer (replySeen s p o) o st m d) :=
    congrArg Host.Outcome.next (takeReply_named hb ho)
  generalize replySeen s p o = u at hseen hx
  have hr' : findReq u e n i = none := by
    rw [hseen]
    exact hr
  rw [answer_stream st m d hw hr'] at hx
  have hrel := releaseTag_eq u o
  generalize releaseTag u o = w at hx hrel
  refine ⟨w, hx, ?_, ?_⟩
  · rw [hrel, hseen]
  · rw [hrel, hseen]

theorem reply_scan {p : Packet} {tag st m : Nat} {d : Bytes} {s : State} {o : Outst} {k : Nat} (hb : p.body = .rep tag st m d)
    (ho : s.outst.find? (fun (o : Outst) => o.tag == tag) = some o) (hw : o.who = .scan k) (hp : PartsOk s) (hk : k < 64) :
    ∃ t, exec (.fabricReplyReceive p) s = .next t ∧ t.outst = s.outst.erase o ∧ (vecOf t k).amaxWait = false
      ∧ t = { s with vecs := t.vecs, routerW := t.routerW, routerE := t.routerE, outst := t.outst, tagHold := t.tagHold } := by
  obtain ⟨-, hvecs, -⟩ := hp
  have hseen := replySeen_frame s p o
  have hx : exec (.fabricReplyReceive p) s = .next (answer (replySeen s p o) o st m d) :=
    congrArg Host.Outcome.next (takeReply_named hb ho)
  generalize replySeen s p o = u at hseen hx
  have hf := answer_scan_frame u o k st m d hw
  have ha := amaxWait_answer (s := u) st m d hw (by rw [hseen]; exact hvecs ▸ hk)
  generalize answer u o st m d = w at hx hf ha
  refine ⟨w, hx, ?_, ha, ?_⟩
  · rw [hf, hseen]
  · rw [hf, hseen]

theorem collEcho_holds (p : Packet) (id : Nat) (s : State) (hb : p.body = .collEcho id) :
    ∃ t, exec (.fabricReplyReceive p) s = .next t ∧ t = { s with routerW := t.routerW, routerE := t.routerE }
      ∧ (routerOf t (if id % 2 = 0 then .w else .e)).hot.any (fun (x : Hot) => x.cls == .coll && x.dest == p.src) = true := by
  have hx : takeReply s p = echoFrom (takeEjected s p) (if id % 2 = 0 then .w else .e) .coll p.src := by
    unfold takeReply
    rw [hb]
  exact ⟨_, congrArg Host.Outcome.next hx, echoFrom_frame (takeEjected s p) _ _ _, hot_echoFrom _ _ _ _⟩

/-! ### Timeouts -/

theorem timeout_exec {s : State} {tag : Nat} {o : Outst} (ho : s.outst.find? (fun (o : Outst) => o.tag == tag) = some o)
    (hw : o.since + us (objGet s Obj.replyTimeoutUs) ≤ s.now) :
    exec (.replyTimeout tag) s = .next (answer (objInc s Obj.fabReplyTimeouts) o (lateStatus o) 15 []) :=
  congrArg Host.Outcome.next (replyLate_due ho hw)

/-- What counting a timeout alone gives. -/
theorem timeout_counted {s t : State} (hd : t.dic = (objInc s Obj.fabReplyTimeouts).dic) :
    Counted s t Obj.fabReplyTimeouts 1 ∧ SameObjs s t [Obj.fabReplyTimeouts] :=
  ⟨(objGet_congr _ _ _ hd).trans (objGet_objInc_self s _),
    ((SameObjs.refl s _).objInc Obj.fabReplyTimeouts List.mem_cons_self).of_dic hd⟩

theorem timeout_tail {s : State} {tag : Nat} {o : Outst} {q n : Nat}
    (ho : s.outst.find? (fun (o : Outst) => o.tag == tag) = some o) (hw : o.since + us (objGet s Obj.replyTimeoutUs) ≤ s.now)
    (hq : o.who = .tail q n) :
    ∃ t, exec (.replyTimeout tag) s = .next t ∧ t.outst = s.outst.erase o
      ∧ t = { s with out := t.out, dic := t.dic, queues := t.queues, outst := t.outst, tagHold := t.tagHold, host := t.host,
                     obs := t.obs }
      ∧ Counted s t Obj.fabReplyTimeouts 1 ∧ Counted s t Obj.remoteSignalFaults 1
      ∧ SameObjs s t ([Obj.fabReplyTimeouts, Obj.remoteSignalFaults] ++ journalObjs)
      ∧ Logged s t .remoteSignalFailed [q, n] false := by
  have hst : lateStatus o ≠ 0 := by
    rw [lateStatus, hq]
    exact (by decide : fabUnknown ≠ 0)
  have hx := timeout_exec ho hw
  rw [answer_tail _ _ _ hq, if_neg hst] at hx
  have hrel := releaseTag_eq (objInc s Obj.fabReplyTimeouts) o
  generalize releaseTag (objInc s Obj.fabReplyTimeouts) o = w at hx hrel
  have hdic : w.dic = (objInc s Obj.fabReplyTimeouts).dic := by rw [hrel]
  obtain ⟨hcount, hsame⟩ := timeout_counted hdic
  refine ⟨_, hx, ?_, (remoteSignalFailed_timeoutFoot w q n).trans ?_, ?_, ?_, ?_, ?_⟩
  · refine (remoteSignalFailed_keeps State.outst (fun _ _ => rfl) w q n).trans ?_
    rw [hrel]
    rfl
  · generalize remoteSignalFailed w q n = x
    rw [hrel]
    rfl
  · exact (sameObjs_signalFailed w q n Obj.fabReplyTimeouts (by decide)).trans hcount
  · have hc := counted_remoteSignalFailed w q n
    unfold Counted at hc ⊢
    rwa [hsame Obj.remoteSignalFaults (by decide)] at hc
  · exact (hsame.mono (by simp)).trans ((sameObjs_signalFailed w q n).mono (by simp))
  · refine (logged_remoteSignalFailed w q n).of_view ?_
    rw [hrel]
    rfl

theorem timeout_scan {s : State} {tag : Nat} {o : Outst} {k : Nat} (ho : s.outst.find? (fun (o : Outst) => o.tag == tag) = some o)
    (hw : o.since + us (objGet s Obj.replyTimeoutUs) ≤ s.now) (hq : o.who = .scan k) (hp : PartsOk s) (hk : k < 64) :
    ∃ t, exec (.replyTimeout tag) s = .next t ∧ t.outst = s.outst.erase o ∧ (vecOf t k).amaxWait = false
      ∧ t = { s with dic := t.dic, vecs := t.vecs, outst := t.outst, tagHold := t.tagHold }
      ∧ Counted s t Obj.fabReplyTimeouts 1 ∧ SameObjs s t [Obj.fabReplyTimeouts] := by
  obtain ⟨-, hvecs, -⟩ := hp
  have hf := answer_scan_frame (objInc s Obj.fabReplyTimeouts) o k (lateStatus o) 15 [] hq
  have ha := amaxWait_answer (s := objInc s Obj.fabReplyTimeouts) (lateStatus o) 15 [] hq (hvecs ▸ hk)
  have hx := timeout_exec ho hw
  generalize answer (objInc s Obj.fabReplyTimeouts) o (lateStatus o) 15 [] = w at hf ha hx
  refine ⟨w, hx, ?_, ha, ?_, timeout_counted ?_⟩
  · rw [hf]
    rfl
  · rw [hf]
    rfl
  · rw [hf]

theorem timeout_stream {s : State} {tag : Nat} {o : Outst} {e n i : Nat}
    (ho : s.outst.find? (fun (o : Outst) => o.tag == tag) = some o) (hw : o.since + us (objGet s Obj.replyTimeoutUs) ≤ s.now)
    (hq : o.who = .stream e n i) (hr : findReq s e n i = none) :
    ∃ t, exec (.replyTimeout tag) s = .next t ∧ t = { s with dic := t.dic, outst := s.outst.erase o, tagHold := t.tagHold }
      ∧ Counted s t Obj.fabReplyTimeouts 1 ∧ SameObjs s t [Obj.fabReplyTimeouts] := by
  have hx := timeout_exec ho hw
  rw [answer_stream _ _ _ hq (show findReq (objInc s Obj.fabReplyTimeouts) e n i = none from hr)] at hx
  have hrel := releaseTag_eq (objInc s Obj.fabReplyTimeouts) o
  generalize releaseTag (objInc s Obj.fabReplyTimeouts) o = w at hx hrel
  refine ⟨w, hx, ?_, timeout_counted ?_⟩
  · rw [hrel]
    rfl
  · rw [hrel]

/-- Settles O32: a reply is told by its tag, and ends the one request that has it. -/
theorem repliesEndRequests : Obligations.RepliesEndRequests := by
  unfold Obligations.RepliesEndRequests
  exact ⟨fun _ _ _ _ _ _ hb => ⟨reply_late hb, fun _ _ _ ho hw => reply_tail hb ho hw, fun _ _ _ _ ho hw hr => reply_stream hb ho hw hr,
      fun _ _ ho hw hp hk => reply_scan hb ho hw hp hk⟩,
    collEcho_holds,
    fun _ _ _ ho => ⟨fun hw => congrArg Host.Outcome.next (replyLate_early ho hw), fun _ _ hw hq => timeout_tail ho hw hq,
      fun _ hw hq hp hk => timeout_scan ho hw hq hp hk, fun _ _ _ hw hq hr => timeout_stream ho hw hq hr⟩,
    fun _ _ ho => congrArg Host.Outcome.next (replyLate_none ho)⟩

end Sys2Proof.Machine

/-!
Route banks and injection windows (R260, R261, R264, O30).
-/

namespace Sys2Proof.Machine

/-! ### The states of the two banks (Table RTE-7) -/

theorem bankState_congr {s t : State} (h : objGet t Obj.routeBankState = objGet s Obj.routeBankState) (b : Nat) :
    bankState t b = bankState s b := by
  unfold bankState
  rw [h]

theorem bankState_setBank_self (s : State) {b st : Nat} (hb : b < 2) (hst : st < 4) : bankState (setBank s b st) b = st := by
  unfold bankState setBank
  dsimp only
  rw [objGet_objPut_self]
  generalize objGet s Obj.routeBankState = v
  rcases (by omega : b = 0 ∨ b = 1) with rfl | rfl
  · simp only [Nat.zero_mod, pow_zero]
    omega
  · simp only [Nat.one_mod, pow_one]
    omega

theorem bankState_setBank_other (s : State) {b st : Nat} (hb : b < 2) (hst : st < 4) :
    bankState (setBank s b st) (1 - b) = bankState s (1 - b) := by
  unfold bankState setBank
  dsimp only
  rw [objGet_objPut_self]
  generalize objGet s Obj.routeBankState = v
  rcases (by omega : b = 0 ∨ b = 1) with rfl | rfl
  · simp only [Nat.sub_zero, Nat.one_mod, pow_zero, pow_one]
    omega
  · simp only [Nat.sub_self, Nat.zero_mod, pow_zero, pow_one]
    omega

theorem setBank_frame (s : State) (b st : Nat) : setBank s b st = { s with dic := (setBank s b st).dic } := rfl

theorem loadBank_congr {s t : State} (h : objGet t Obj.routeBankState = objGet s Obj.routeBankState) :
    loadBank t = loadBank s := by
  unfold loadBank
  simp only [bankState_congr h]

theorem drainBank_congr {s t : State} (h : objGet t Obj.routeBankState = objGet s Obj.routeBankState) :
    drainBank t = drainBank s := by
  unfold drainBank
  simp only [bankState_congr h]

theorem lt_of_find_range {n b : Nat} {p : Nat → Bool} (h : (List.range n).find? p = some b) : b < n :=
  List.mem_range.1 (List.mem_of_find?_eq_some h)

/-! ### Routing tables (R260) -/

/-- A bank of a router filled. -/
def bankPut (b : Nat) (m : SMap Nat) (r : Router) : Router := if b = 0 then { r with bank0 := m } else { r with bank1 := m }

/-- Both halves' banks filled from an image. -/
def tablesPut (s : State) (b : Nat) (image : Bytes) : State :=
  updRouter (updRouter s .w (bankPut b (entriesOf 16384 0 (image.take 131072)))) .e
    (bankPut b (entriesOf 16384 0 (image.drop 131072)))

theorem loadTables_eq {s : State} {b : Nat} (image : Bytes) (h : loadBank s = some b) :
    loadTables s image = setBank (tablesPut s b image) b 1 := by
  unfold loadTables
  rw [h]
  rfl

theorem routerW_tablesPut (s : State) (b : Nat) (image : Bytes) :
    (tablesPut s b image).routerW = bankPut b (entriesOf 16384 0 (image.take 131072)) s.routerW := rfl

theorem routerE_tablesPut (s : State) (b : Nat) (image : Bytes) :
    (tablesPut s b image).routerE = bankPut b (entriesOf 16384 0 (image.drop 131072)) s.routerE := rfl

theorem bank_bankPut (b : Nat) (m : SMap Nat) (r : Router) :
    (if b = 0 then (bankPut b m r).bank0 else (bankPut b m r).bank1) = m := by
  unfold bankPut
  split <;> rfl

theorem other_bankPut (b : Nat) (m : SMap Nat) (r : Router) :
    if b = 0 then (bankPut b m r).bank1 = r.bank1 else (bankPut b m r).bank0 = r.bank0 := by
  unfold bankPut
  split <;> rfl

theorem held_bankPut (b : Nat) (m : SMap Nat) (r : Router) : (bankPut b m r).held = r.held := by
  unfold bankPut
  split <;> rfl

/-- What a route table's load asks. -/
def tableRule (s : State) (image : Bytes) : Nat := if (loadBank s).isNone || tableReserved 32768 image then 0x08 else 0

theorem routeTable_taken {r : Route} {handle : Nat} {digest : Bytes} {s : State} {x : Xfer} {role : Role} {row : ObjRow} {s0 : State}
    (h : CommitReady s r false Obj.routeTableLoad handle digest x role row s0) (hx : x.size = 262144) {b : Nat}
    (hb : loadBank s0 = some b) (hres : tableReserved 32768 (xferImage x) = false) :
    ∃ u, exec (.routeTableLoad r handle digest) s = .next (answered s r (heldKey s r) ⟨u, 0, []⟩)
      ∧ u = { imageIn s0 r role row x with dic := u.dic, routerW := u.routerW, routerE := u.routerE }
      ∧ (if b = 0 then u.routerW.bank0 else u.routerW.bank1) = entriesOf 16384 0 ((xferImage x).take 131072)
      ∧ (if b = 0 then u.routerE.bank0 else u.routerE.bank1) = entriesOf 16384 0 ((xferImage x).drop 131072)
      ∧ (if b = 0 then u.routerW.bank1 = s0.routerW.bank1 else u.routerW.bank0 = s0.routerW.bank0)
      ∧ u.routerW.held = s0.routerW.held ∧ bankState u b = 1 ∧ bankState u (1 - b) = bankState s0 (1 - b) := by
  have hrule : tableRule (dropXfer s0 x.handle) (xferImage x) = 0 := by
    refine if_neg ?_
    rw [show loadBank (dropXfer s0 x.handle) = loadBank s0 from rfl, hb, hres]
    simp
  have hexec : exec (.routeTableLoad r handle digest) s = .next (answered s r (heldKey s r)
      ⟨loadTables (imageIn s0 r role row x) (xferImage x), 0, []⟩) :=
    congrArg Host.Outcome.next (commitRow_taken s r false _ handle digest x role row s0 _ tableRule loadTables _ h (by simp [hx]) hrule)
  have hobj : objGet (imageIn s0 r role row x) Obj.routeBankState = objGet s0 Obj.routeBankState :=
    sameObjs_imageIn s0 r role row x _ (by decide)
  have hw : (imageIn s0 r role row x).routerW = s0.routerW := imageIn_keeps State.routerW (fun _ _ => rfl) (fun _ _ => rfl) _ _ _ _ _
  generalize imageIn s0 r role row x = i at *
  rw [loadTables_eq _ ((loadBank_congr hobj).trans hb)] at hexec
  have hb2 : b < 2 := lt_of_find_range hb
  refine ⟨_, hexec, rfl, bank_bankPut b _ i.routerW, bank_bankPut b _ i.routerE, ?_, ?_,
    bankState_setBank_self _ hb2 (by decide), ?_⟩
  · rw [← hw]
    exact other_bankPut b _ i.routerW
  · rw [← hw]
    exact held_bankPut b _ i.routerW
  · exact (bankState_setBank_other _ hb2 (by decide)).trans (bankState_congr hobj _)

theorem routeTable_refused {r : Route} {handle : Nat} {digest : Bytes} {s : State} {x : Xfer} {role : Role} {row : ObjRow} {s0 : State}
    (h : CommitReady s r false Obj.routeTableLoad handle digest x role row s0) (hx : x.size = 262144)
    (hbad : loadBank s0 = none ∨ tableReserved 32768 (xferImage x) = true) :
    exec (.routeTableLoad r handle digest) s = .next (answered s r (heldKey s r) ⟨dropXfer s0 x.handle, 0x08, []⟩) := by
  have hrule : tableRule (dropXfer s0 x.handle) (xferImage x) = 0x08 := by
    refine if_pos ?_
    rw [show loadBank (dropXfer s0 x.handle) = loadBank s0 from rfl]
    rcases hbad with hb | hb <;> simp [hb]
  have hr := commitRow_refused s r false _ handle digest x role row s0 (fun n => n == 262144) tableRule loadTables id h
    (by simp [hx]) (by rw [hrule]; decide)
  rw [hrule] at hr
  exact congrArg Host.Outcome.next hr

/-! ### Epochs (R260, R261) -/

/-- What a write of EpochSwitch asks. -/
def switchRule (s : State) (n : Nat) : Nat := if 1 < n then 0x03 else if switchOk s n then 0 else 0x08

theorem bankState_succ (s : State) {e : Nat} (he : e ≤ 1) : bankState s (e + 1) = bankState s (1 - e) := by
  rcases (by omega : e = 0 ∨ e = 1) with rfl | rfl <;> rfl

theorem epochSwitch_holds (r : Route) (v : Bytes) (s : State) (role : Role) (row : ObjRow) (s0 : State)
    (h : WriteReady s r false Obj.epochSwitch v role row s0) (hv : leNat v ≤ 1) :
    (bankState s0 (leNat v) = 1 → bankState s0 (1 - leNat v) = 2 →
      ∃ u, exec (.epochSwitch r v) s = .next (answered s r Obj.epochSwitch ⟨u, 0, []⟩)
        ∧ u = { applyNum s0 r role row Obj.epochSwitch (leNat v) with dic := u.dic, armed := false }
        ∧ bankState u (leNat v) = 2 ∧ bankState u (1 - leNat v) = 3 ∧ objGet u Obj.routeEpochActive = leNat v)
    ∧ (bankState s0 (leNat v) ≠ 1 ∨ bankState s0 (1 - leNat v) ≠ 2 →
      exec (.epochSwitch r v) s = .next (answered s r Obj.epochSwitch ⟨s0, 0x08, []⟩)) := by
  have hexec : exec (.epochSwitch r v) s = .next (answered s r Obj.epochSwitch
      (ownAnswer s0 r role row Obj.epochSwitch (leNat v) switchRule switchEpoch)) :=
    congrArg Host.Outcome.next (writeRow_ready s r Obj.epochSwitch v false role row s0 switchRule switchEpoch h)
  generalize leNat v = e at *
  refine ⟨fun h1 h2 => ?_, fun hbad => ?_⟩
  · have hrule : switchRule s0 e = 0 := by
      rw [switchRule, if_neg (by omega), if_pos (by simp [switchOk, h1, h2, bankState_succ s0 hv])]
    rw [ownAnswer_taken _ _ _ _ _ _ _ _ hrule] at hexec
    generalize applyNum s0 r role row Obj.epochSwitch e = w at hexec ⊢
    refine ⟨_, hexec, rfl, ?_, ?_, objGet_objPut_self _ _ _⟩
    · exact (bankState_congr (objGet_objPut_ne _ _ _ _ (by decide)) _).trans
        (bankState_setBank_self _ (by omega) (by decide))
    · refine (bankState_congr (objGet_objPut_ne _ _ _ _ (by decide)) _).trans ?_
      refine (bankState_setBank_other _ (by omega) (by decide)).trans ?_
      exact bankState_setBank_self { w with armed := false } (by omega) (by decide)
  · have hrule : switchRule s0 e = 0x08 := by
      rw [switchRule, if_neg (by omega), if_neg]
      rcases hbad with hb | hb <;> simp [switchOk, hb, bankState_succ s0 hv]
    rw [ownAnswer_refused _ _ _ _ _ _ _ _ (by rw [hrule]; decide), hrule] at hexec
    exact hexec

/-- What a write of DrainArm asks. -/
def armRule (s : State) (n : Nat) : Nat := if n != 0 && (drainBank s).isNone then 0x08 else 0

/-- What packets of an earlier epoch are counted by. -/
def oldView (s : State) : List Held × List Held × List Crossing × List Link :=
  (s.routerW.held, s.routerE.held, s.bridge.crossing, s.links)

theorem oldEpochPackets_congr {s t : State} (hv : oldView t = oldView s)
    (ho : objGet t Obj.routeBankState = objGet s Obj.routeBankState) : oldEpochPackets t = oldEpochPackets s := by
  simp only [oldView, Prod.mk.injEq] at hv
  obtain ⟨hw, he, hc, hl⟩ := hv
  have hold : isOld t = isOld s := by
    funext p
    rw [isOld, ho, isOld]
  unfold oldEpochPackets
  rw [hw, he, hc, hl, hold]

theorem applyNum_bankState (s : State) (r : Route) (role : Role) (row : ObjRow) {key : Nat} (n : Nat)
    (hk : Obj.routeBankState ∉ key :: journalObjs) :
    objGet (applyNum s r role row key n) Obj.routeBankState = objGet s Obj.routeBankState :=
  sameObjs_applyNum s r role row key n _ hk

theorem applyNum_oldEpochPackets (s : State) (r : Route) (role : Role) (row : ObjRow) {key : Nat} (n : Nat)
    (hk : Obj.routeBankState ∉ key :: journalObjs) : oldEpochPackets (applyNum s r role row key n) = oldEpochPackets s :=
  oldEpochPackets_congr (applyNum_keeps oldView (fun _ _ => rfl) s r role row key n) (applyNum_bankState s r role row n hk)

theorem drainArm_holds (r : Route) (v : Bytes) (s : State) (role : Role) (row : ObjRow) (s0 : State)
    (h : WriteReady s r false Obj.drainArm v role row s0) (hv : leNat v ≠ 0) :
    ((drainBank s0).isSome = true →
      ∃ u, exec (.drainArm r v) s = .next (answered s r Obj.drainArm ⟨u, 0, []⟩)
        ∧ u = { applyNum s0 r role row Obj.drainArm (leNat v) with dic := u.dic, armed := true }
        ∧ (objGet u Obj.drainDirty = if oldEpochPackets s0 = 0 then 0 else 1))
    ∧ (drainBank s0 = none → exec (.drainArm r v) s = .next (answered s r Obj.drainArm ⟨s0, 0x08, []⟩)) := by
  have hexec : exec (.drainArm r v) s = .next (answered s r Obj.drainArm
      (ownAnswer s0 r role row Obj.drainArm (leNat v) armRule armDrain)) :=
    congrArg Host.Outcome.next (writeRow_ready s r Obj.drainArm v false role row s0 armRule armDrain h)
  refine ⟨fun hd => ?_, fun hd => ?_⟩
  · have hrule : armRule s0 (leNat v) = 0 := if_neg (by simp [Option.isNone_iff_eq_none, Option.isSome_iff_ne_none.1 hd])
    rw [ownAnswer_taken _ _ _ _ _ _ _ _ hrule, armDrain, if_neg hv] at hexec
    have hold := applyNum_oldEpochPackets s0 r role row (key := Obj.drainArm) (leNat v) (by decide)
    generalize applyNum s0 r role row Obj.drainArm (leNat v) = w at hexec hold ⊢
    refine ⟨_, hexec, rfl, (objGet_objPut_self w _ _).trans ?_⟩
    rw [hold]
    by_cases h0 : oldEpochPackets s0 = 0 <;> simp [h0, boolNat]
  · have hrule : armRule s0 (leNat v) = 0x08 := if_pos (by simp [hd, hv])
    rw [ownAnswer_refused _ _ _ _ _ _ _ _ (by rw [hrule]; decide), hrule] at hexec
    exact hexec

/-- What a write of EpochRelease asks. -/
def releaseRule (s : State) (n : Nat) : Nat := if n != 0 && ((drainBank s).isNone || oldEpochPackets s != 0) then 0x08 else 0

theorem releaseEpoch_eq {s : State} {b n : Nat} (h : drainBank s = some b) (hn : n ≠ 0) :
    releaseEpoch s n = { setBank s b 0 with armed := false } := by
  unfold releaseEpoch
  rw [h]
  exact if_neg hn

theorem epochRelease_holds (r : Route) (v : Bytes) (s : State) (role : Role) (row : ObjRow) (s0 : State) (b : Nat)
    (h : WriteReady s r false Obj.epochRelease v role row s0) (hv : leNat v ≠ 0) :
    (drainBank s0 = some b → oldEpochPackets s0 = 0 →
      ∃ u, exec (.epochRelease r v) s = .next (answered s r Obj.epochRelease ⟨u, 0, []⟩)
        ∧ u = { applyNum s0 r role row Obj.epochRelease (leNat v) with dic := u.dic, armed := false }
        ∧ bankState u b = 0 ∧ bankState u (1 - b) = bankState s0 (1 - b))
    ∧ (drainBank s0 = none ∨ oldEpochPackets s0 ≠ 0 →
      exec (.epochRelease r v) s = .next (answered s r Obj.epochRelease ⟨s0, 0x08, []⟩)) := by
  have hexec : exec (.epochRelease r v) s = .next (answered s r Obj.epochRelease
      (ownAnswer s0 r role row Obj.epochRelease (leNat v) releaseRule releaseEpoch)) :=
    congrArg Host.Outcome.next (writeRow_ready s r Obj.epochRelease v false role row s0 releaseRule releaseEpoch h)
  refine ⟨fun hd h0 => ?_, fun hbad => ?_⟩
  · have hrule : releaseRule s0 (leNat v) = 0 := if_neg (by simp [hd, h0])
    have hobj := applyNum_bankState s0 r role row (key := Obj.epochRelease) (leNat v) (by decide)
    rw [ownAnswer_taken _ _ _ _ _ _ _ _ hrule, releaseEpoch_eq ((drainBank_congr hobj).trans hd) hv] at hexec
    generalize applyNum s0 r role row Obj.epochRelease (leNat v) = w at hexec hobj ⊢
    have hb : b < 2 := lt_of_find_range hd
    exact ⟨_, hexec, rfl, bankState_setBank_self w hb (by decide),
      (bankState_setBank_other w hb (by decide)).trans (bankState_congr hobj _)⟩
  · have hrule : releaseRule s0 (leNat v) = 0x08 := if_pos (by rcases hbad with hb | hb <;> simp [hb, hv])
    rw [ownAnswer_refused _ _ _ _ _ _ _ _ (by rw [hrule]; decide), hrule] at hexec
    exact hexec

/-! ### Injection windows (R264, Table RTE-6) -/

theorem updRouter_frame (s : State) (h : Half) (f : Router → Router) :
    updRouter s h f = { s with routerW := (updRouter s h f).routerW, routerE := (updRouter s h f).routerE } := by
  cases h <;> rfl

theorem routerOf_updRouter_other (s : State) (h : Half) (f : Router → Router) :
    routerOf (updRouter s h f) (otherHalf h) = routerOf s (otherHalf h) := by
  cases h <;> rfl

theorem updRouter_same {s : State} {h : Half} {f : Router → Router} (hf : f (routerOf s h) = routerOf s h) :
    updRouter s h f = s := by
  cases h
  · exact congrArg (fun r => { s with routerW := r }) hf
  · exact congrArg (fun r => { s with routerE := r }) hf

/-- A hot destination after its window's time. -/
def hotAfter (c : PClass) (d now w : Nat) (e : Hot) : Option Hot :=
  if e.cls = c ∧ e.dest = d ∧ e.echoed + us 4 ≤ now then
    (if w ≤ e.window + 65536 then none else some { e with window := e.window + 65536, echoed := now })
  else some e

theorem growHot_eq (s : State) (h : Half) (c : PClass) (d : Nat) : growHot s h c d
    = updRouter s h (fun r => { r with hot := r.hot.filterMap (hotAfter c d s.now (classWindow r c)) }) := rfl

theorem hot_growHot (s : State) (h : Half) (c : PClass) (d : Nat) : (routerOf (growHot s h c d) h).hot
    = (routerOf s h).hot.filterMap (hotAfter c d s.now (classWindow (routerOf s h) c)) := by
  rw [growHot_eq, routerOf_updRouter_self]

/-- A window that has been due is not one that is due still. -/
theorem hotAfter_settled {c : PClass} {d now w : Nat} {e x : Hot} (h : hotAfter c d now w x = some e) :
    ¬ (e.cls = c ∧ e.dest = d ∧ e.echoed + us 4 ≤ now) := by
  have hpos : 0 < us 4 := by decide
  rw [hotAfter] at h
  split at h
  · split at h
    · exact absurd h (by simp)
    · rw [← Option.some.inj h]
      rintro ⟨-, -, ht⟩
      exact absurd ht (by show ¬ now + us 4 ≤ now; omega)
  next hx => exact Option.some.inj h ▸ hx

theorem hotWindowGrow_holds (h : Half) (c : PClass) (d : Nat) (s : State) :
    ∃ t, exec (.hotWindowGrow h c d) s = .next t ∧ t = { s with routerW := t.routerW, routerE := t.routerE }
      ∧ routerOf t (otherHalf h) = routerOf s (otherHalf h)
      ∧ routerOf t h = { routerOf s h with hot := (routerOf t h).hot }
      ∧ (∀ e ∈ (routerOf s h).hot, ¬ (e.cls = c ∧ e.dest = d ∧ e.echoed + us 4 ≤ s.now) → e ∈ (routerOf t h).hot)
      ∧ (∀ e ∈ (routerOf s h).hot, e.cls = c → e.dest = d → e.echoed + us 4 ≤ s.now →
          e.window + 65536 < classWindow (routerOf s h) c →
          { e with window := e.window + 65536, echoed := s.now } ∈ (routerOf t h).hot)
      ∧ (∀ e ∈ (routerOf s h).hot, e.cls = c → e.dest = d → e.echoed + us 4 ≤ s.now →
          classWindow (routerOf s h) c ≤ e.window + 65536 → e ∉ (routerOf t h).hot) := by
  refine ⟨growHot s h c d, rfl, updRouter_frame _ _ _, routerOf_updRouter_other _ _ _, ?_, fun e he hn => ?_,
    fun e he h1 h2 h3 h4 => ?_, fun e _ h1 h2 h3 _ hm => ?_⟩
  · rw [growHot_eq, routerOf_updRouter_self]
  · rw [hot_growHot]
    exact List.mem_filterMap.2 ⟨e, he, if_neg hn⟩
  · rw [hot_growHot]
    exact List.mem_filterMap.2 ⟨e, he, (if_pos ⟨h1, h2, h3⟩).trans (if_neg (by omega))⟩
  · rw [hot_growHot] at hm
    obtain ⟨x, -, hx⟩ := List.mem_filterMap.1 hm
    exact hotAfter_settled hx ⟨h1, h2, h3⟩

theorem windowAfter_full {w n since now : Nat} (hn : 786432 < n) (ht : since + us 10 ≤ now) :
    windowAfter w n since now = some (max 16384 (w - w / 8)) := if_pos ⟨hn, ht⟩

theorem windowAfter_low {w n since now : Nat} (hn : n < 262144) (ht : since + us 4 ≤ now) :
    windowAfter w n since now = some (min 8388608 (w + 65536)) := by
  unfold windowAfter
  rw [if_neg (by omega), if_pos ⟨hn, ht⟩]

theorem windowAfter_between {w n since now : Nat} (h1 : 262144 ≤ n) (h2 : n ≤ 786432) : windowAfter w n since now = none := by
  unfold windowAfter
  rw [if_neg (by omega), if_neg (by omega)]

theorem windowAfter_soon {w n since now : Nat} (h : now < since + us 4) : windowAfter w n since now = none := by
  have h10 : us 4 ≤ us 10 := by decide
  unfold windowAfter
  rw [if_neg (by omega), if_neg (by omega)]

theorem classWindowAdjust_request (h : Half) (n : Nat) (s : State) :
    ∃ t, exec (.classWindowAdjust h .request n) s = .next t ∧ t = { s with routerW := t.routerW, routerE := t.routerE }
      ∧ routerOf t (otherHalf h) = routerOf s (otherHalf h)
      ∧ (786432 < n → (routerOf s h).winLastReq + us 10 ≤ s.now → routerOf t h = { routerOf s h with
          winReq := max 16384 ((routerOf s h).winReq - (routerOf s h).winReq / 8), winLastReq := s.now })
      ∧ (n < 262144 → (routerOf s h).winLastReq + us 4 ≤ s.now → routerOf t h = { routerOf s h with
          winReq := min 8388608 ((routerOf s h).winReq + 65536), winLastReq := s.now })
      ∧ (262144 ≤ n → n ≤ 786432 → t = s) ∧ (s.now < (routerOf s h).winLastReq + us 4 → t = s) := by
  refine ⟨adjustWindow s h .request n, rfl, updRouter_frame _ _ _, routerOf_updRouter_other _ _ _, fun hn ht => ?_, fun hn ht => ?_,
    fun h1 h2 => updRouter_same ?_, fun ht => updRouter_same ?_⟩
  · rw [adjustWindow, routerOf_updRouter_self]
    simp only [windowAfter_full hn ht]
  · rw [adjustWindow, routerOf_updRouter_self]
    simp only [windowAfter_low hn ht]
  · simp only [windowAfter_between h1 h2]
  · simp only [windowAfter_soon ht]

theorem classWindowAdjust_coll (h : Half) (n : Nat) (s : State) :
    ∃ t, exec (.classWindowAdjust h .coll n) s = .next t ∧ t = { s with routerW := t.routerW, routerE := t.routerE }
      ∧ routerOf t (otherHalf h) = routerOf s (otherHalf h)
      ∧ (786432 < n → (routerOf s h).winLastColl + us 10 ≤ s.now → routerOf t h = { routerOf s h with
          winColl := max 16384 ((routerOf s h).winColl - (routerOf s h).winColl / 8), winLastColl := s.now })
      ∧ (n < 262144 → (routerOf s h).winLastColl + us 4 ≤ s.now → routerOf t h = { routerOf s h with
          winColl := min 8388608 ((routerOf s h).winColl + 65536), winLastColl := s.now })
      ∧ (262144 ≤ n → n ≤ 786432 → t = s) ∧ (s.now < (routerOf s h).winLastColl + us 4 → t = s) := by
  refine ⟨adjustWindow s h .coll n, rfl, updRouter_frame _ _ _, routerOf_updRouter_other _ _ _, fun hn ht => ?_, fun hn ht => ?_,
    fun h1 h2 => updRouter_same ?_, fun ht => updRouter_same ?_⟩
  · rw [adjustWindow, routerOf_updRouter_self]
    simp only [windowAfter_full hn ht]
  · rw [adjustWindow, routerOf_updRouter_self]
    simp only [windowAfter_low hn ht]
  · simp only [windowAfter_between h1 h2]
  · simp only [windowAfter_soon ht]

/-- Settles O30: the two banks' states are two digits of one object, and an injection window moves only when its time has come. -/
theorem routeBanksAndInjectionWindows : Obligations.RouteBanksAndInjectionWindows := by
  unfold Obligations.RouteBanksAndInjectionWindows
  exact ⟨fun _ _ _ _ _ _ _ _ h hx => ⟨fun _ hb hres => routeTable_taken h hx hb hres, routeTable_refused h hx⟩,
    epochSwitch_holds, drainArm_holds, epochRelease_holds, hotWindowGrow_holds, classWindowAdjust_request, classWindowAdjust_coll,
    fun _ _ _ => ⟨congrArg Host.Outcome.next (updRouter_same rfl), congrArg Host.Outcome.next (updRouter_same rfl)⟩⟩

end Sys2Proof.Machine

/-!
Rings, lasers and lanes: what the operations on them read and leave (R209 to R222).
-/

namespace Sys2Proof.Machine

/-! ### Rings and lasers after an update -/

theorem ringOf_updRing (s : State) (r q : Nat) (f : Ring → Ring) :
    ringOf (updRing s r f) q = if r = q ∧ q < s.rings.length then f (ringOf s q) else ringOf s q := getD_modifyAt _ _ _ _ _

theorem ringOf_updRing_self (s : State) (r : Nat) (f : Ring → Ring) (h : r < s.rings.length) :
    ringOf (updRing s r f) r = f (ringOf s r) := (ringOf_updRing s r r f).trans (if_pos ⟨rfl, h⟩)

theorem ringOf_updRing_ne (s : State) {r q : Nat} (f : Ring → Ring) (h : q ≠ r) :
    ringOf (updRing s r f) q = ringOf s q := (ringOf_updRing s r q f).trans (if_neg fun hx => h hx.1.symm)

theorem ringOf_congr {s t : State} (h : t.rings = s.rings) (q : Nat) : ringOf t q = ringOf s q := by
  unfold ringOf
  rw [h]

theorem ringOf_unlockRing (s : State) (r q : Nat) (f : Ring → Ring) :
    ringOf (unlockRing s r f) q = ringOf (updRing s r (fun g => { f g with locked := false })) q := by
  unfold unlockRing
  dsimp only
  split
  · exact ringOf_congr (moveRef_keeps State.rings (fun _ _ => rfl) _ _) q
  · rfl

theorem ringOf_unlockRing_self (s : State) (r : Nat) (f : Ring → Ring) (h : r < s.rings.length) :
    ringOf (unlockRing s r f) r = { f (ringOf s r) with locked := false } :=
  (ringOf_unlockRing s r r f).trans (ringOf_updRing_self s r _ h)

theorem ringOf_unlockRing_ne (s : State) {r q : Nat} (f : Ring → Ring) (h : q ≠ r) :
    ringOf (unlockRing s r f) q = ringOf s q := (ringOf_unlockRing s r q f).trans (ringOf_updRing_ne s _ h)

theorem laserAt_updLaser (s : State) (k i : Nat) (f : Laser → Laser) : laserAt (updLaser s k f) i
    = if k = i ∧ i < s.lasers.length then f (laserAt s i) else laserAt s i := getD_modifyAt _ _ _ _ _

theorem laserAt_updLaser_self (s : State) (k : Nat) (f : Laser → Laser) (h : k < s.lasers.length) :
    laserAt (updLaser s k f) k = f (laserAt s k) := (laserAt_updLaser s k k f).trans (if_pos ⟨rfl, h⟩)

theorem laserAt_updLaser_ne (s : State) {k i : Nat} (f : Laser → Laser) (h : i ≠ k) :
    laserAt (updLaser s k f) i = laserAt s i := (laserAt_updLaser s k i f).trans (if_neg fun hx => h hx.1.symm)

theorem laserAt_congr {s t : State} (h : t.lasers = s.lasers) (k : Nat) : laserAt t k = laserAt s k := by
  unfold laserAt
  rw [h]

/-! ### The place of a lane -/

/-- Where a lane runs and which it is. -/
def lanePlace (l : Lane) : Nat × Nat × Nat := (l.fibre, l.line, l.idx)

/-- The places of every link's lanes. -/
def lanePlaces (s : State) : List (List (Nat × Nat × Nat) × List (Nat × Nat × Nat)) :=
  s.links.map (fun l => (l.outLanes.map lanePlace, l.inLanes.map lanePlace))

theorem findLane_some {s : State} {o : Bool} {fibre line k : Nat} {lane : Lane} (h : findLane s o fibre line = some (k, lane)) :
    k < s.links.length ∧ (if o then (linkOf s k).outLanes else (linkOf s k).inLanes).find?
      (fun (l : Lane) => l.fibre == fibre && l.line == line) = some lane := by
  unfold findLane at h
  obtain ⟨⟨l, i⟩, hm, hx⟩ := List.exists_of_findSome?_eq_some h
  obtain ⟨hi, hl⟩ := List.mem_zipIdx' hm
  rw [Option.map_eq_some_iff] at hx
  obtain ⟨a, ha, he⟩ := hx
  cases he
  have hlink : linkOf s i = l := by
    unfold linkOf
    rw [List.getD_eq_getElem?_getD, List.getElem?_eq_getElem hi, Option.getD_some]
    exact hl.symm
  rw [hlink]
  exact ⟨hi, ha⟩

theorem findLane_lt {s : State} {o : Bool} {fibre line k : Nat} {lane : Lane} (hp : PartsOk s)
    (h : findLane s o fibre line = some (k, lane)) : k < 64 := by
  obtain ⟨-, -, -, -, -, -, -, -, -, -, -, hlinks, -⟩ := hp
  exact hlinks ▸ (findLane_some h).1

/-- Whether a lane runs on a line is told by the places alone. -/
theorem findLane_isSome (s : State) (o : Bool) (fibre line : Nat) : (findLane s o fibre line).isSome
    = (lanePlaces s).any (fun x => (if o then x.1 else x.2).any (fun y => y.1 == fibre && y.2.1 == line)) := by
  unfold findLane lanePlaces
  rw [List.any_map, Bool.eq_iff_iff, List.findSome?_isSome_iff, List.any_eq_true]
  constructor
  · rintro ⟨⟨l, i⟩, hm, hx⟩
    refine ⟨l, List.fst_mem_of_mem_zipIdx hm, ?_⟩
    rw [Option.isSome_map, List.find?_isSome] at hx
    obtain ⟨a, ha, he⟩ := hx
    cases o
    · exact List.any_eq_true.2 ⟨lanePlace a, List.mem_map_of_mem ha, he⟩
    · exact List.any_eq_true.2 ⟨lanePlace a, List.mem_map_of_mem ha, he⟩
  · rintro ⟨l, hm, hx⟩
    obtain ⟨i, hi, rfl⟩ := List.mem_iff_getElem.1 hm
    refine ⟨(s.links[i], i), List.mk_mem_zipIdx_iff_getElem?.2 (List.getElem?_eq_getElem hi), ?_⟩
    rw [Option.isSome_map, List.find?_isSome]
    cases o
    · obtain ⟨y, hy, he⟩ := List.any_eq_true.1 hx
      obtain ⟨a, ha, rfl⟩ := List.mem_map.1 hy
      exact ⟨a, ha, he⟩
    · obtain ⟨y, hy, he⟩ := List.any_eq_true.1 hx
      obtain ⟨a, ha, rfl⟩ := List.mem_map.1 hy
      exact ⟨a, ha, he⟩

theorem findLane_isSome_congr {s t : State} (h : lanePlaces t = lanePlaces s) (o : Bool) (fibre line : Nat) :
    (findLane t o fibre line).isSome = (findLane s o fibre line).isSome := by
  rw [findLane_isSome, findLane_isSome, h]

theorem lanePlaces_updLink (s : State) (k : Nat) (f : Link → Link)
    (hf : ∀ l, ((f l).outLanes.map lanePlace, (f l).inLanes.map lanePlace) = (l.outLanes.map lanePlace, l.inLanes.map lanePlace)) :
    lanePlaces (updLink s k f) = lanePlaces s := by
  unfold lanePlaces updLink modifyAt
  apply List.ext_getElem?
  intro i
  simp only [List.getElem?_map, List.getElem?_modify]
  cases s.links[i]? with
  | none => rfl
  | some l => by_cases hi : k = i <;> simp [hi, hf]

theorem map_enqueue (ls : List Lane) (i seq : Nat) :
    (ls.map (fun (a : Lane) => if a.idx = i then { a with q := a.q ++ [seq] } else a)).map lanePlace = ls.map lanePlace := by
  rw [List.map_map]
  refine List.map_congr_left fun a _ => ?_
  rw [Function.comp]
  split <;> rfl

theorem lanePlaces_sendFlit (s : State) (k : Nat) (b : FlitBody) : lanePlaces (sendFlit s k b) = lanePlaces s := by
  refine lanePlaces_updLink s k _ fun l => ?_
  dsimp only
  split
  · rfl
  · exact Prod.ext (map_enqueue _ _ _) rfl

theorem lanePlaces_sendCtl (s : State) (k : Nat) (c : Ctl) : lanePlaces (sendCtl s k c) = lanePlaces s := by
  simp only [sendCtl]
  split
  · rfl
  · split
    · exact lanePlaces_sendFlit _ _ _
    · exact lanePlaces_updLink s k _ fun l => rfl

theorem lanePlaces_abortRotor (s : State) (x : Nat) : lanePlaces (abortRotor s x) = lanePlaces s :=
  abortRotor_keeps lanePlaces (fun _ _ => rfl) s x

theorem lanePlaces_abortTold (s : State) (x : Nat) : lanePlaces (abortTold s x) = lanePlaces s := by
  unfold abortTold
  split
  · exact (lanePlaces_abortRotor _ _).trans (lanePlaces_sendCtl _ _ _)
  · exact lanePlaces_abortRotor _ _

/-! ### Objects that lanes' and rings' operations change -/

theorem settleObjs_sub_link {k : Nat} (hk : k < 64) : settleObjs k ⊆ linkObjs := by
  have hs : Obj.linkState + k ∈ (List.range 64).flatMap (fun k => [Obj.linkState + k, Obj.linkRttNs + k]) :=
    List.mem_flatMap.2 ⟨k, List.mem_range.2 hk, List.mem_cons_self⟩
  intro x hx
  simp only [settleObjs, List.mem_append, List.mem_cons, List.not_mem_nil, or_false] at hx
  simp only [linkObjs, List.mem_append, List.mem_cons, List.not_mem_nil, or_false]
  rcases hx with (rfl | rfl | rfl | rfl | rfl) | hx <;> tauto

/-- The objects of `linkObjs` that are no single link's. -/
def linkHead : List Nat :=
  [Obj.linkDarkEvents, Obj.drainDirty, Obj.resentFlits, Obj.retryWindowStalls] ++ journalObjs

theorem sub_linkObjs {l : List Nat} (h : l ⊆ linkHead) : l ⊆ linkObjs := fun _ hx => List.mem_append_left _ (h hx)

/-- An object apart from what every link's service may change. -/
abbrev OffLinks (x : Nat) : Prop :=
  x ∉ linkHead ∧ (x < Obj.linkState ∨ Obj.linkState + 64 ≤ x) ∧ (x < Obj.linkRttNs ∨ Obj.linkRttNs + 64 ≤ x)

theorem not_mem_linkObjs {x : Nat} (h : OffLinks x) : x ∉ linkObjs := by
  obtain ⟨hhead, hstate, hrtt⟩ := h
  intro hx
  rcases List.mem_append.mp hx with hx | hx
  · exact hhead hx
  · obtain ⟨k, hk, hx⟩ := List.mem_flatMap.mp hx
    have hk := List.mem_range.mp hk
    simp only [List.mem_cons, List.not_mem_nil, or_false] at hx
    omega

theorem journalObjs_sub_link : journalObjs ⊆ linkObjs := sub_linkObjs (by decide)

theorem backObjs_sub_link : backObjs ⊆ linkObjs := sub_linkObjs (by decide)

theorem stalls_sub_link : [Obj.retryWindowStalls] ⊆ linkObjs := sub_linkObjs (by decide)

theorem linkState_mem_link {k : Nat} (hk : k < 64) : Obj.linkState + k ∈ linkObjs := settleObjs_sub_link hk (mem_settleObjs (by simp))

theorem linkRttNs_mem_link {k : Nat} (hk : k < 64) : Obj.linkRttNs + k ∈ linkObjs :=
  List.mem_append_right _ (List.mem_flatMap.2 ⟨k, List.mem_range.2 hk, by simp⟩)

theorem sameObjs_settle (s : State) {k : Nat} (hk : k < 64) : SameObjs s (settleLink s k) linkObjs :=
  (sameCells_settleLink s k).objs.mono (settleObjs_sub_link hk)

theorem sameObjs_control (s : State) (k : Nat) (c : Ctl) : SameObjs s (sendCtl s k c) [Obj.retryWindowStalls] :=
  (sameCells_sendCtl s k c).objs

theorem sameObjs_abortRotor (s : State) (x : Nat) : SameObjs s (abortRotor s x) (Obj.rotorAborts :: journalObjs) := by
  unfold abortRotor
  dsimp only
  generalize hu : updRotor s x _ = u
  have h : SameObjs s (objInc u Obj.rotorAborts) (Obj.rotorAborts :: journalObjs) :=
    ((SameObjs.refl s _).of_dic (u := u) (by rw [← hu]; rfl)).objInc _ List.mem_cons_self
  split
  · exact h.journal _ _ (List.subset_cons_self _ _)
  · exact h

/-- The state in which a lane that leaves service has been marked and told. -/
def laneMarked (s : State) (k : Nat) (outgoing : Bool) (lane : Lane) (why : Nat) (tell : Bool) : State :=
  let s := updLane s k outgoing lane.idx (fun l => { l with why := why, q := [], ready := false, joinAt := none })
  let s := if outgoing then updSpec s lane.fibre lane.line (fun e => { e with lineState := 3 }) else s
  if tell then sendCtl s k (.laneDown { own := outgoing, idx := lane.idx } why) else s

theorem laneOut_eq (s : State) (k : Nat) (outgoing : Bool) (lane : Lane) (why : Nat) (tell : Bool) :
    laneOut s k outgoing lane why tell
      = if lane.why != 0 && lane.why != 5 then s else settleLink (laneMarked s k outgoing lane why tell) k := rfl

theorem sameObjs_laneMarked (s : State) (k : Nat) (outgoing : Bool) (lane : Lane) (why : Nat) (tell : Bool) :
    SameObjs s (laneMarked s k outgoing lane why tell) [Obj.retryWindowStalls] := by
  unfold laneMarked
  dsimp only
  generalize hu : (if outgoing then updSpec (updLane s k outgoing lane.idx _) lane.fibre lane.line _ else
    updLane s k outgoing lane.idx _) = u
  have hd : u.dic = s.dic := by
    rw [← hu]
    split <;> rfl
  split
  · exact SameObjs.trans ((SameObjs.refl s _).of_dic hd) (sameObjs_control u k _)
  · exact (SameObjs.refl s _).of_dic hd

theorem sameObjs_laneOut (s : State) {k : Nat} (outgoing : Bool) (lane : Lane) (why : Nat) (tell : Bool) (hk : k < 64) :
    SameObjs s (laneOut s k outgoing lane why tell) linkObjs := by
  rw [laneOut_eq]
  split
  · exact SameObjs.refl s _
  · exact ((sameObjs_laneMarked s k outgoing lane why tell).mono stalls_sub_link).trans (sameObjs_settle _ hk)

theorem sameObjs_moveRef (s : State) (k : Nat) : SameObjs s (moveRef s k) journalObjs := by
  unfold moveRef
  dsimp only
  split
  · exact SameObjs.refl s _
  · split
    · exact SameObjs.refl s _
    · split
      · exact SameObjs.refl s _
      · split
        · exact ((SameObjs.refl s _).of_dic (u := updLaser s k _) rfl).journal _ _ (List.Subset.refl _)
        · exact (SameObjs.refl s _).of_dic rfl

theorem sameObjs_unlockRing (s : State) (r : Nat) (f : Ring → Ring) : SameObjs s (unlockRing s r f) journalObjs := by
  unfold unlockRing
  dsimp only
  split
  · exact ((SameObjs.refl s _).of_dic (u := updRing s r _) rfl).trans (sameObjs_moveRef _ _)
  · exact (SameObjs.refl s _).of_dic rfl

theorem sameObjs_startRecovery (s : State) (r k : Nat) (outgoing : Bool) (lane : Nat) (full : Bool) :
    SameObjs s (startRecovery s r k outgoing lane full) journalObjs := by
  unfold startRecovery
  dsimp only
  have h := sameObjs_unlockRing s r (fun g => { g with sweep := if full then 2 else 1, bad := 0 })
  generalize unlockRing s r _ = u at h ⊢
  split
  · exact h
  · exact h.of_dic rfl

/-- A ring that recovers is unlocked, and its sweep begins. -/
theorem ringOf_startRecovery (s : State) (r k q : Nat) (outgoing : Bool) (lane : Nat) (full : Bool) :
    ringOf (startRecovery s r k outgoing lane full) q
      = ringOf (unlockRing s r (fun g => { g with sweep := if full then 2 else 1, bad := 0 })) q := by
  unfold startRecovery
  dsimp only
  generalize unlockRing s r _ = u
  generalize u.recovery.any _ = b
  cases b <;> rfl

theorem mem_recovery_startRecovery (s : State) (r k : Nat) (outgoing : Bool) (lane : Nat) (full : Bool) :
    ∃ y ∈ (startRecovery s r k outgoing lane full).recovery, y.ring = r := by
  unfold startRecovery
  dsimp only
  generalize unlockRing s r _ = u
  by_cases h : u.recovery.any (fun (x : Recovery) => x.ring == r) = true
  · rw [if_pos h]
    obtain ⟨y, hy, he⟩ := List.any_eq_true.1 h
    exact ⟨y, hy, by simpa using he⟩
  · rw [if_neg h]
    exact ⟨_, List.mem_append_right _ (List.mem_singleton.2 rfl), rfl⟩

theorem sameObjs_removeLink (s : State) {k : Nat} (hk : k < 64) : SameObjs s (removeLink s k) linkObjs := by
  unfold removeLink
  dsimp only
  refine SameObjs.objPut (SameObjs.objPut (SameObjs.of_dic (SameObjs.foldl (SameObjs.refl s _) _ (fun u l => ?_) _) rfl) _ _
    (linkRttNs_mem_link hk)) _ _ (linkState_mem_link hk)
  exact ((SameObjs.refl u _).of_dic (u := updSpec u l.fibre l.line _) rfl).trans
    ((sameObjs_unlockRing _ _ _).mono journalObjs_sub_link)

theorem sameObjs_dropLane (s : State) {k : Nat} (outgoing : Bool) (lane : Lane) (hk : k < 64) :
    SameObjs s (dropLane s k outgoing lane) linkObjs := by
  rw [dropLane_eq]
  have h : SameObjs s (laneDropped s k outgoing lane) linkObjs := (SameObjs.refl s _).of_dic (dic_laneDropped s k outgoing lane)
  generalize laneDropped s k outgoing lane = u at *
  generalize List.isEmpty _ = b
  cases b
  · exact h.trans (sameObjs_settle u hk)
  · exact h.trans (((sameCells_handBack u k false).objs.mono backObjs_sub_link).trans (sameObjs_removeLink _ hk))

end Sys2Proof.Machine

/-!
Light lost and back, and rings that lose and regain their lock (R209 to R222, O20).
-/

namespace Sys2Proof.Machine

/-! ### Light lost (R209) -/

theorem abortObjs_sub_link : Obj.rotorAborts :: Obj.retryWindowStalls :: journalObjs ⊆ Obj.rotorAborts :: linkObjs :=
  List.cons_subset_cons _ (sub_linkObjs (by decide))

theorem not_mem_abort_link {x : Nat} (ha : x ≠ Obj.rotorAborts) (h : OffLinks x) : x ∉ Obj.rotorAborts :: linkObjs :=
  List.not_mem_cons_of_ne_of_not_mem ha (not_mem_linkObjs h)

theorem sameObjs_loseLane (s : State) (x : Nat × Nat) (hp : PartsOk s) :
    SameObjs s (loseLane s x) (Obj.rotorAborts :: linkObjs) := by
  unfold loseLane
  split
  next k lane h =>
    have hk := findLane_lt hp h
    dsimp only
    split
    · exact ((sameObjs_abortTold s x.1).mono abortObjs_sub_link).trans
        ((sameObjs_laneOut _ true lane 3 true hk).mono (List.subset_cons_self _ _))
    · exact (sameObjs_laneOut s true lane 3 true hk).mono (List.subset_cons_self _ _)
  · exact SameObjs.refl s _

theorem sameObjs_loseLanes (l : List (Nat × Nat)) (s : State) (hp : PartsOk s) :
    SameObjs s (l.foldl loseLane s) (Obj.rotorAborts :: linkObjs) := by
  induction l generalizing s with
  | nil => exact SameObjs.refl s _
  | cons x l ih => exact (sameObjs_loseLane s x hp).trans (ih _ (loseLane_partsOk s x hp))

/-- What an event at a laser input is told by: its object, and the value there. -/
def lightObj (k : Nat) : Option Nat → Nat
  | none => Obj.laserInputState + k
  | some _ => Obj.laserLinesUsable + k

/-- An input, or one line of it, dark. -/
def lightOut (s : State) (k : Nat) : Option Nat → State
  | none => objPut (updLaser s k (fun l => { l with dark := true })) (Obj.laserInputState + k) 4
  | some j => objBit (updLaser s k (fun l => { l with lostLines := setNatBit j l.lostLines })) (Obj.laserLinesUsable + k) j false

/-- Whether the loss of light is one that is known. -/
def lossKnown (s : State) (k : Nat) : Option Nat → Bool
  | none => (laserAt s k).dark
  | some j => natBit j (laserAt s k).lostLines || (laserAt s k).dark || !natBit j (objGet s (Obj.laserLinesUsable + k))

theorem loseLight_eq (s : State) (k : Nat) (line : Option Nat) : loseLight s k line = if lossKnown s k line then s else
    journalAlert ((eventPlaces k line).foldl loseLane (lightOut s k line)) .lightLost ([k] ++ line.toList) := by
  cases line <;> rfl

theorem lightObj_apart {k : Nat} (line : Option Nat) (hk : k < 8) :
    lightObj k line ∉ Obj.alertPending :: Obj.rotorAborts :: linkObjs := by
  have hoff : ∀ k < 8, (OffLinks (Obj.laserInputState + k) ∧ Obj.laserInputState + k ∉ [Obj.alertPending, Obj.rotorAborts])
      ∧ OffLinks (Obj.laserLinesUsable + k) ∧ Obj.laserLinesUsable + k ∉ [Obj.alertPending, Obj.rotorAborts] := by decide
  have happ {x : Nat} (h : OffLinks x ∧ x ∉ [Obj.alertPending, Obj.rotorAborts]) :
      x ∉ [Obj.alertPending, Obj.rotorAborts] ++ linkObjs :=
    fun hx => (List.mem_append.mp hx).elim h.2 (not_mem_linkObjs h.1)
  cases line
  · exact happ (hoff k hk).1
  · exact happ (hoff k hk).2

theorem sameObjs_lightOut (s : State) (k : Nat) (line : Option Nat) : SameObjs s (lightOut s k line) [lightObj k line] := by
  cases line
  · exact ((SameObjs.refl s _).of_dic (u := updLaser s k _) rfl).objPut _ _ List.mem_cons_self
  · exact ((SameObjs.refl s _).of_dic (u := updLaser s k _) rfl).objBit _ _ _ List.mem_cons_self

theorem partsOk_lightOut (s : State) (k : Nat) (line : Option Nat) (hp : PartsOk s) : PartsOk (lightOut s k line) := by
  cases line
  · exact updLaser_partsOk s k _ hp
  · exact updLaser_partsOk s k _ hp

/-- An event whose light is lost: the state it ends in. -/
def lightLost (s : State) (k : Nat) (line : Option Nat) : State :=
  journalAlert ((eventPlaces k line).foldl loseLane (lightOut s k line)) .lightLost ([k] ++ line.toList)

theorem sameObjs_lanesLost (s : State) (k : Nat) (line : Option Nat) (hp : PartsOk s) :
    SameObjs (lightOut s k line) ((eventPlaces k line).foldl loseLane (lightOut s k line)) (Obj.rotorAborts :: linkObjs) :=
  sameObjs_loseLanes _ _ (partsOk_lightOut s k line hp)

theorem alertObjs_sub_pending : alertObjs ⊆ Obj.alertPending :: linkObjs := by
  simp only [alertObjs, List.cons_subset, List.mem_cons, List.nil_subset, and_true]
  exact ⟨.inr (journalObjs_sub_link (by decide)), .inr (journalObjs_sub_link (by decide)), .inl trivial⟩

theorem alertObjs_sub_link : alertObjs ⊆ Obj.alertPending :: Obj.rotorAborts :: linkObjs := by
  simp only [alertObjs, List.cons_subset, List.mem_cons, List.nil_subset, and_true]
  exact ⟨.inr (.inr (journalObjs_sub_link (by decide))), .inr (.inr (journalObjs_sub_link (by decide))), .inl trivial⟩

theorem sameObjs_lightLost (s : State) (k : Nat) (line : Option Nat) (hp : PartsOk s) :
    SameObjs (lightOut s k line) (lightLost s k line) (Obj.alertPending :: Obj.rotorAborts :: linkObjs) :=
  ((sameObjs_lanesLost s k line hp).mono (List.subset_cons_self _ _)).journalAlert _ _ alertObjs_sub_link

theorem counted_lightLost (s : State) (k : Nat) (line : Option Nat) (hk : k < 8) (hp : PartsOk s) :
    Counted s (lightLost s k line) Obj.alertPending 1 := by
  unfold Counted lightLost
  rw [objGet_journalAlert_pending, sameObjs_lanesLost s k line hp _ (not_mem_abort_link (by decide) (by decide)), sameObjs_lightOut s k line]
  intro h
  exact lightObj_apart line hk (List.mem_cons.2 (Or.inl (List.mem_singleton.1 h).symm))

theorem laserAt_lightLost (s : State) (k i : Nat) (line : Option Nat) :
    laserAt (lightLost s k line) i = laserAt (lightOut s k line) i :=
  laserAt_congr ((journalAlert_keeps State.lasers (fun _ _ => rfl) _ _ _).trans
    (foldlState State.lasers loseLane (loseLane_keeps State.lasers (fun _ _ => rfl)) _ _)) i

theorem laserAt_lightOut_ne (s : State) {k i : Nat} (line : Option Nat) (h : i ≠ k) :
    laserAt (lightOut s k line) i = laserAt s i := by
  cases line
  · exact laserAt_updLaser_ne s _ h
  · exact laserAt_updLaser_ne s _ h

/-- What a loss of light may change. -/
def lossFoot (s t : State) : State :=
  { s with out := t.out, dic := t.dic, lasers := t.lasers, rotors := t.rotors, specMap := t.specMap, links := t.links
           routerW := t.routerW, routerE := t.routerE, outst := t.outst, obs := t.obs }

theorem lossFoot_self (s : State) : lossFoot s s = s := rfl

theorem loseLight_frame (s : State) (k : Nat) (line : Option Nat) : loseLight s k line = lossFoot s (loseLight s k line) :=
  (lossFoot_self _).symm.trans (loseLight_keeps (lossFoot · (loseLight s k line)) (fun _ _ => rfl) s k line)

theorem lightLoss_holds (k : Nat) (line : Option Nat) (s : State) (hk : k < 8) (hp : PartsOk s) (hd : (laserAt s k).dark = false)
    (hj : ∀ j, line = some j → natBit j (laserAt s k).lostLines = false ∧ natBit j (objGet s (Obj.laserLinesUsable + k)) = true) :
    ∃ t, exec (.lightLoss k line) s = .next t ∧ t = lossFoot s t
      ∧ (line = none → objGet t (Obj.laserInputState + k) = 4 ∧ (laserAt t k).dark = true
          ∧ SameObjs s t ([Obj.laserInputState + k, Obj.alertPending, Obj.rotorAborts] ++ linkObjs))
      ∧ (∀ j, line = some j → objGet t (Obj.laserLinesUsable + k) = clearNatBit j (objGet s (Obj.laserLinesUsable + k))
          ∧ (laserAt t k).lostLines = setNatBit j (laserAt s k).lostLines
          ∧ SameObjs s t ([Obj.laserLinesUsable + k, Obj.alertPending, Obj.rotorAborts] ++ linkObjs))
      ∧ (∀ i, i ≠ k → laserAt t i = laserAt s i) ∧ Counted s t Obj.alertPending 1 := by
  obtain ⟨-, -, -, -, -, -, -, hlasers, -⟩ := id hp
  have hlen : k < s.lasers.length := hlasers ▸ hk
  have hknown : lossKnown s k line = false := by
    cases line with
    | none => exact hd
    | some j => simp [lossKnown, hd, hj j rfl]
  have heq : loseLight s k line = lightLost s k line := by
    rw [loseLight_eq, hknown]
    rfl
  have hframe := loseLight_frame s k line
  have hlast := sameObjs_lightLost s k line hp
  have hsame : SameObjs s (lightLost s k line) (lightObj k line :: Obj.alertPending :: Obj.rotorAborts :: linkObjs) :=
    ((sameObjs_lightOut s k line).mono (by simp)).trans (hlast.mono (List.subset_cons_self _ _))
  have hval := hlast _ (lightObj_apart line hk)
  have hlaser := laserAt_lightLost s k k line
  have hcount := counted_lightLost s k line hk hp
  have hother := fun i (hi : i ≠ k) => (laserAt_lightLost s k i line).trans (laserAt_lightOut_ne s line hi)
  rw [heq] at hframe
  refine ⟨lightLost s k line, (need_lt hk _).trans (congrArg Host.Outcome.next heq), hframe, fun hl => ?_, fun j hl => ?_, hother, hcount⟩
  · subst hl
    refine ⟨hval.trans (objGet_objPut_self _ _ _), ?_, hsame⟩
    rw [hlaser]
    exact congrArg Laser.dark (laserAt_updLaser_self s k _ hlen)
  · subst hl
    refine ⟨hval.trans (objGet_objBit_self _ _ _ _), ?_, hsame⟩
    rw [hlaser]
    exact congrArg Laser.lostLines (laserAt_updLaser_self s k _ hlen)

theorem lightLoss_known {k : Nat} {line : Option Nat} {s : State} (hk : k < 8) (h : lossKnown s k line = true) :
    exec (.lightLoss k line) s = .next s :=
  (need_lt hk _).trans (congrArg Host.Outcome.next ((loseLight_eq s k line).trans (if_pos h)))

/-! ### Light back (R209) -/

/-- An input, or one line of it, lit again. -/
def lightIn (s : State) (k : Nat) : Option Nat → State
  | none => objPut (updLaser s k (fun l => { l with dark := false })) (Obj.laserInputState + k) (laserAt s k).cls
  | some j => objBit (updLaser s k (fun l => { l with lostLines := clearNatBit j l.lostLines })) (Obj.laserLinesUsable + k) j true

/-- Whether light has been lost at an input, or on one line of it. -/
def lightGone (s : State) (k : Nat) : Option Nat → Bool
  | none => (laserAt s k).dark
  | some j => natBit j (laserAt s k).lostLines

/-- An event whose light is back: the state it ends in. -/
def lightBack (s : State) (k : Nat) (line : Option Nat) : State := (eventPlaces k line).foldl regainLane (lightIn s k line)

theorem gainLight_eq (s : State) (k : Nat) (line : Option Nat) :
    gainLight s k line = if !lightGone s k line then s else lightBack s k line := by
  cases line <;> rfl

theorem sameObjs_regainLane (s : State) (x : Nat × Nat) : SameObjs s (regainLane s x) journalObjs := by
  unfold regainLane
  split
  · split
    · exact sameObjs_startRecovery _ _ _ _ _ _
    · exact SameObjs.refl s _
  · exact SameObjs.refl s _

theorem sameObjs_lightIn (s : State) (k : Nat) (line : Option Nat) : SameObjs s (lightIn s k line) [lightObj k line] := by
  cases line
  · exact ((SameObjs.refl s _).of_dic (u := updLaser s k _) rfl).objPut _ _ List.mem_cons_self
  · exact ((SameObjs.refl s _).of_dic (u := updLaser s k _) rfl).objBit _ _ _ List.mem_cons_self

theorem sameObjs_lightBack (s : State) (k : Nat) (line : Option Nat) :
    SameObjs (lightIn s k line) (lightBack s k line) journalObjs :=
  SameObjs.foldl (SameObjs.refl _ _) _ sameObjs_regainLane _

/-- What of an input its reference line is not part of. -/
def laserLight (k : Nat) (s : State) : Bool × Nat × Nat := ((laserAt s k).dark, (laserAt s k).lostLines, (laserAt s k).cls)

theorem laserLight_moveRef (s : State) (k i : Nat) : laserLight i (moveRef s k) = laserLight i s := by
  have hupd (u : State) (x j : Nat) :
      laserLight i (updLaser u k (fun l => { l with refFibre := x, refLine := j })) = laserLight i u := by
    unfold laserLight
    rw [laserAt_updLaser]
    split <;> rfl
  unfold moveRef
  dsimp only
  split
  · rfl
  · split
    · rfl
    · split
      · rfl
      · split
        · exact (journal_keeps (laserLight i) (fun _ _ => rfl) _ _ _).trans (hupd _ _ _)
        · exact hupd _ _ _

theorem laserLight_startRecovery (s : State) (r k : Nat) (outgoing : Bool) (lane : Nat) (full : Bool) (i : Nat) :
    laserLight i (startRecovery s r k outgoing lane full) = laserLight i s := by
  have hun (f : Ring → Ring) : laserLight i (unlockRing s r f) = laserLight i s := by
    unfold unlockRing
    dsimp only
    split
    · exact laserLight_moveRef _ _ _
    · rfl
  unfold startRecovery
  dsimp only
  generalize hu : unlockRing s r _ = u
  have h : laserLight i u = laserLight i s := hu ▸ hun _
  generalize u.recovery.any _ = b
  cases b
  · exact h
  · exact h

theorem laserLight_regainLane (s : State) (x : Nat × Nat) (i : Nat) : laserLight i (regainLane s x) = laserLight i s := by
  unfold regainLane
  split
  · split
    · exact laserLight_startRecovery _ _ _ _ _ _ _
    · rfl
  · rfl

theorem laserLight_lightBack (s : State) (k i : Nat) (line : Option Nat) :
    laserLight i (lightBack s k line) = laserLight i (lightIn s k line) :=
  foldlState (laserLight i) regainLane (fun u x => laserLight_regainLane u x i) _ _

theorem foot5_1_self (s : State) : foot5_1 s s = s := rfl

theorem gainLight_frame (s : State) (k : Nat) (line : Option Nat) : gainLight s k line = foot5_1 s (gainLight s k line) :=
  (foot5_1_self _).symm.trans (gainLight_keeps (foot5_1 · (gainLight s k line)) (fun _ _ => rfl) s k line)

theorem lightRestore_holds (k : Nat) (line : Option Nat) (s : State) (hk : k < 8) (hp : PartsOk s)
    (hd : line = none → (laserAt s k).dark = true) (hj : ∀ j, line = some j → natBit j (laserAt s k).lostLines = true) :
    ∃ t, exec (.lightRestore k line) s = .next t ∧ t = foot5_1 s t
      ∧ (line = none → objGet t (Obj.laserInputState + k) = (laserAt s k).cls ∧ (laserAt t k).dark = false
          ∧ SameObjs s t ((Obj.laserInputState + k) :: journalObjs))
      ∧ (∀ j, line = some j → objGet t (Obj.laserLinesUsable + k) = setNatBit j (objGet s (Obj.laserLinesUsable + k))
          ∧ (laserAt t k).lostLines = clearNatBit j (laserAt s k).lostLines
          ∧ SameObjs s t ((Obj.laserLinesUsable + k) :: journalObjs)) := by
  obtain ⟨-, -, -, -, -, -, -, hlasers, -⟩ := id hp
  have hlen : k < s.lasers.length := hlasers ▸ hk
  have hgone : lightGone s k line = true := by
    cases line with
    | none => exact hd rfl
    | some j => exact hj j rfl
  have heq : gainLight s k line = lightBack s k line := by
    rw [gainLight_eq, hgone]
    rfl
  have hframe := gainLight_frame s k line
  have hlast := sameObjs_lightBack s k line
  have hsame : SameObjs s (lightBack s k line) (lightObj k line :: journalObjs) :=
    ((sameObjs_lightIn s k line).mono (by simp)).trans (hlast.mono (List.subset_cons_self _ _))
  have hval := hlast (lightObj k line) fun h => lightObj_apart line hk
    (List.mem_cons_of_mem _ (List.mem_cons_of_mem _ (journalObjs_sub_link h)))
  have hlaser := laserLight_lightBack s k k line
  have hexec : exec (.lightRestore k line) s = .next (lightBack s k line) := (need_lt hk _).trans (congrArg Host.Outcome.next heq)
  rw [heq] at hframe
  generalize lightBack s k line = t at *
  refine ⟨t, hexec, hframe, fun hl => ?_, fun j hl => ?_⟩
  · subst hl
    refine ⟨hval.trans (objGet_objPut_self _ _ _), ?_, hsame⟩
    exact (congrArg Prod.fst hlaser).trans (congrArg Laser.dark (laserAt_updLaser_self s k _ hlen))
  · subst hl
    refine ⟨hval.trans (objGet_objBit_self _ _ _ _), ?_, hsame⟩
    exact (congrArg (fun x => x.2.1) hlaser).trans (congrArg Laser.lostLines (laserAt_updLaser_self s k _ hlen))

theorem lightRestore_lit {k : Nat} {line : Option Nat} {s : State} (hk : k < 8) (h : lightGone s k line = false) :
    exec (.lightRestore k line) s = .next s := by
  have heq : gainLight s k line = s := by
    rw [gainLight_eq, h]
    exact if_pos (by decide)
  exact (need_lt hk _).trans (congrArg Host.Outcome.next heq)

/-! ### The lock loop (R210 to R214) -/

/-- A locked ring's reading taken. -/
def ringRead (s : State) (r : Nat) (err : Int) : State :=
  updRing (freeStep s) r (fun g => { g with
    code := 128 * (((freeNow s).toNat % 65536 : Nat) : Int), bad := if 5000 < err.natAbs then g.bad + 1 else 0 })

/-- Whether a ring is the reference ring of its input's comb. -/
def isReference (s : State) (r : Nat) : Bool :=
  decide (r < 544) && combMode s (r / 68) && r == modRing (laserAt s (r / 68)).refFibre (laserAt s (r / 68)).refLine

/-- The reference ring's correction to another ring of its input. -/
def combCorrect (r : Nat) (d : Int) (s : State) (q : Nat) : State :=
  if q = r then s else updRing s q (fun h => { h with code := clampCode (h.code + d) })

theorem lockIn_eq {s : State} {r : Nat} (err : Int) (h : (ringOf s r).locked = true) : lockIn s r err
    = if isReference s r then ((List.range 68).map (fun i => 68 * (r / 68) + i)).foldl
        (combCorrect r (128 * (((freeNow s).toNat % 65536 : Nat) : Int) - (ringOf s r).code)) (ringRead s r err)
      else ringRead s r err := by
  unfold lockIn
  dsimp only
  rw [if_neg (by simp [h])]
  rfl

theorem ringOf_combCorrect (r : Nat) (d : Int) (s : State) (q : Nat) : ringOf (combCorrect r d s q) r = ringOf s r := by
  unfold combCorrect
  split
  · rfl
  next h => exact ringOf_updRing_ne s _ fun hr => h hr.symm

theorem ringOf_lockIn_self {s : State} {r : Nat} (err : Int) (h : (ringOf s r).locked = true) :
    ringOf (lockIn s r err) r = ringOf (ringRead s r err) r := by
  rw [lockIn_eq err h]
  split
  · exact foldlState (ringOf · r) _ (ringOf_combCorrect r _) _ _
  · rfl

theorem footFreeRings_self (s : State) : footFreeRings s s = s := rfl

theorem lockInReading_holds (r : Nat) (e : Int) (s : State) (hr : r < 1088) (hp : PartsOk s) (hl : (ringOf s r).locked = true) :
    ∃ t, exec (.lockInReading r e) s = .next t ∧ t = { s with free := t.free, rings := t.rings }
      ∧ (ringOf t r).bad = (if 5000 < e.natAbs then (ringOf s r).bad + 1 else 0) ∧ (ringOf t r).locked = true
      ∧ (∀ q, q ≠ r → (combMode s (r / 68) = false ∨ 544 ≤ r ∨
            r ≠ modRing (laserAt s (r / 68)).refFibre (laserAt s (r / 68)).refLine) → ringOf t q = ringOf s q) := by
  obtain ⟨-, -, -, -, -, -, -, -, hrings, -⟩ := hp
  have hself : ringOf (ringRead s r e) r = _ := ringOf_updRing_self (freeStep s) r _ (hrings ▸ hr)
  have hframe : lockIn s r e = footFreeRings s (lockIn s r e) :=
    (footFreeRings_self _).symm.trans (lockIn_keeps (footFreeRings · (lockIn s r e)) (fun _ _ => rfl) s r e)
  refine ⟨lockIn s r e, need_lt hr _, hframe, ?_, ?_, fun q hq hno => ?_⟩
  · rw [ringOf_lockIn_self e hl, hself]
    rfl
  · rw [ringOf_lockIn_self e hl, hself]
    exact hl
  · have href : isReference s r = false := by
      rw [isReference]
      rcases hno with h | h | h
      · simp [h]
      · simp [Nat.not_lt.2 h]
      · simp [h]
    rw [lockIn_eq e hl, href]
    exact ringOf_updRing_ne (freeStep s) _ hq

/-- A ring's heater code fed forward. -/
def fedForward (n : Nat) (t : Int) (g : Ring) : Ring :=
  match g.ff with
  | some (m, t0) => { g with code := if m = n then clampCode (g.code + g.alpha * (t - t0)) else g.code, ff := some (n, t) }
  | none => { g with ff := some (n, t) }

theorem feedForward_some {s : State} {r n : Nat} {sites : List Nat} {c : Int} (h : siteFor s sites = some (n, c)) :
    feedForward s r sites = updRing s r (fedForward n c) := by
  unfold feedForward
  rw [h]
  rfl

theorem feedForward_none {s : State} {r : Nat} {sites : List Nat} (h : siteFor s sites = none) : feedForward s r sites = s := by
  unfold feedForward
  rw [h]

theorem fedForward_frame (n : Nat) (c : Int) (g : Ring) :
    fedForward n c g = { g with code := (fedForward n c g).code, ff := some (n, c) } := by
  unfold fedForward
  split <;> rfl

theorem fedForward_same {n : Nat} {c c0 : Int} {g : Ring} (h : g.ff = some (n, c0)) :
    (fedForward n c g).code = max 0 (min (65535 * 128) (g.code + g.alpha * (c - c0))) := by
  unfold fedForward
  rw [h]
  exact if_pos rfl

theorem fedForward_other {n : Nat} {c : Int} {g : Ring} (h : ∀ c0, g.ff ≠ some (n, c0)) : (fedForward n c g).code = g.code := by
  unfold fedForward
  split
  next m t0 hm =>
    refine if_neg fun hn => h t0 ?_
    rw [← hn]
    exact hm
  · rfl

theorem feedForwardUpdate_holds (r n : Nat) (sites : List Nat) (c : Int) (s : State) (hr : r < 1088) (hp : PartsOk s)
    (hs : ∀ m ∈ sites, 64 ≤ m ∧ m < 88) :
    (siteFor s sites = none → exec (.feedForwardUpdate r sites) s = .next s)
    ∧ (siteFor s sites = some (n, c) →
      ∃ t, exec (.feedForwardUpdate r sites) s = .next t ∧ t = { s with rings := t.rings }
        ∧ ringOf t r = { ringOf s r with code := (ringOf t r).code, ff := some (n, c) }
        ∧ (∀ c0, (ringOf s r).ff = some (n, c0) →
            (ringOf t r).code = max 0 (min (65535 * 128) ((ringOf s r).code + (ringOf s r).alpha * (c - c0))))
        ∧ ((∀ c0, (ringOf s r).ff ≠ some (n, c0)) → (ringOf t r).code = (ringOf s r).code)
        ∧ (∀ q, q ≠ r → ringOf t q = ringOf s q)) := by
  obtain ⟨-, -, -, -, -, -, -, -, hrings, -⟩ := hp
  have hneed : exec (.feedForwardUpdate r sites) s = .next (feedForward s r sites) := by
    refine need_of ?_ _
    simp only [Bool.and_eq_true, List.all_eq_true, decide_eq_true_eq]
    exact ⟨hr, hs⟩
  refine ⟨fun h => hneed.trans (congrArg Host.Outcome.next (feedForward_none h)), fun h => ?_⟩
  have hself := ringOf_updRing_self s r (fedForward n c) (hrings ▸ hr)
  refine ⟨updRing s r (fedForward n c), hneed.trans (congrArg Host.Outcome.next (feedForward_some h)), rfl, ?_, fun c0 h0 => ?_,
    fun h0 => ?_, fun q hq => ringOf_updRing_ne s _ hq⟩
  · rw [hself]
    exact fedForward_frame _ _ _
  · rw [hself]
    exact fedForward_same h0
  · rw [hself]
    exact fedForward_other h0

/-! ### Loss of lock (R214) -/

/-- A ring that has lost its lock: counted, and a step that was copying a lane to its line aborted. -/
def ringLost (s : State) (r : Nat) : State :=
  let s := objInc (unlockRing s r (fun g => { g with bad := 0 })) Obj.lockLosses
  if decide (r < 544) && (rotorOf s (ringFibre r)).phase == 3 && (rotorOf s (ringFibre r)).grey == r % 17 then abortTold s (ringFibre r) else s

/-- The lane of a ring that has lost its lock: a step that was moving it aborted, out of service, and its recovery begun. -/
def lockLaneLost (u : State) (r k : Nat) (lane : Lane) : State :=
  let u := if decide (r < 544) && (rotorOf u (ringFibre r)).lane == some (k, lane.idx) then abortTold u (ringFibre r) else u
  startRecovery (laneOut u k (decide (r < 544)) lane 2 true) r k (decide (r < 544)) lane.idx false

theorem loseLock_eq (s : State) (r : Nat) : loseLock s r
    = if !((ringOf s r).locked && (decide (3 ≤ (ringOf s r).bad) || !inWindow (ringOf s r))) then s
      else match findLane (ringLost s r) (decide (r < 544)) (ringFibre r) (r % 17) with
        | none => ringLost s r
        | some (k, lane) => lockLaneLost (ringLost s r) r k lane := by
  unfold loseLock
  rfl

/-- A rotor's step that may be aborted first. -/
def mayAbort (b : Bool) (s : State) (x : Nat) : State := if b then abortTold s x else s

theorem sameObjs_mayAbort (b : Bool) (s : State) (x : Nat) :
    SameObjs s (mayAbort b s x) (Obj.rotorAborts :: linkObjs) := by
  unfold mayAbort
  split
  · exact (sameObjs_abortTold s x).mono abortObjs_sub_link
  · exact SameObjs.refl s _

theorem mayAbort_keeps {γ : Type} (vw : State → γ) (hg : ∀ s t, vw (foot4_11 s t) = vw s) (b : Bool) (s : State) (x : Nat) :
    vw (mayAbort b s x) = vw s := by
  unfold mayAbort
  split
  · exact abortTold_keeps vw hg s x
  · rfl

theorem lanePlaces_mayAbort (b : Bool) (s : State) (x : Nat) : lanePlaces (mayAbort b s x) = lanePlaces s := by
  unfold mayAbort
  split
  · exact lanePlaces_abortTold s x
  · rfl

theorem partsOk_mayAbort (b : Bool) (s : State) (x : Nat) (h : PartsOk s) : PartsOk (mayAbort b s x) := by
  unfold mayAbort
  split
  · exact abortTold_partsOk s x h
  · exact h

/-- A lost lock counted. -/
def lossCounted (s : State) (r : Nat) : State := objInc (unlockRing s r (fun g => { g with bad := 0 })) Obj.lockLosses

theorem ringLost_eq (s : State) (r : Nat) : ∃ b, ringLost s r = mayAbort b (lossCounted s r) (ringFibre r) :=
  ⟨decide (r < 544) && (rotorOf (lossCounted s r) (ringFibre r)).phase == 3
    && (rotorOf (lossCounted s r) (ringFibre r)).grey == r % 17, rfl⟩

theorem lockLaneLost_eq (u : State) (r k : Nat) (lane : Lane) : ∃ b, lockLaneLost u r k lane
    = startRecovery (laneOut (mayAbort b u (ringFibre r)) k (decide (r < 544)) lane 2 true) r k (decide (r < 544)) lane.idx false :=
  ⟨decide (r < 544) && (rotorOf u (ringFibre r)).lane == some (k, lane.idx), rfl⟩

theorem counted_lossCounted (s : State) (r : Nat) : Counted s (lossCounted s r) Obj.lockLosses 1 := by
  unfold Counted lossCounted
  rw [objGet_objInc_self, sameObjs_unlockRing s r _ _ (by decide)]

theorem sameObjs_lossCounted (s : State) (r : Nat) : SameObjs s (lossCounted s r) (Obj.lockLosses :: journalObjs) :=
  ((sameObjs_unlockRing s r _).mono (List.subset_cons_self _ _)).objInc _ List.mem_cons_self

theorem sameObjs_ringLost (s : State) (r : Nat) : SameObjs (lossCounted s r) (ringLost s r) (Obj.rotorAborts :: linkObjs) := by
  obtain ⟨b, hb⟩ := ringLost_eq s r
  rw [hb]
  exact sameObjs_mayAbort _ _ _

theorem sameObjs_lockLaneLost (u : State) (r : Nat) {k : Nat} (lane : Lane) (hk : k < 64) :
    SameObjs u (lockLaneLost u r k lane) (Obj.rotorAborts :: linkObjs) := by
  obtain ⟨b, hb⟩ := lockLaneLost_eq u r k lane
  rw [hb]
  exact (sameObjs_mayAbort b u _).trans (((sameObjs_laneOut _ _ lane 2 true hk).mono (List.subset_cons_self _ _)).trans
    ((sameObjs_startRecovery _ _ _ _ _ _).mono (fun x hx => List.mem_cons_of_mem _ (journalObjs_sub_link hx))))

theorem rings_ringLost (s : State) (r q : Nat) : ringOf (ringLost s r) q = ringOf (unlockRing s r (fun g => { g with bad := 0 })) q := by
  obtain ⟨b, hb⟩ := ringLost_eq s r
  rw [hb]
  exact ringOf_congr (mayAbort_keeps State.rings (fun _ _ => rfl) b (lossCounted s r) _) q

theorem ringOf_lockLaneLost (u : State) (r k q : Nat) (lane : Lane) : ringOf (lockLaneLost u r k lane) q
    = if r = q ∧ q < u.rings.length then { ringOf u q with sweep := 1, bad := 0, locked := false } else ringOf u q := by
  obtain ⟨b, hb⟩ := lockLaneLost_eq u r k lane
  rw [hb, ringOf_startRecovery, ringOf_unlockRing]
  have h : (laneOut (mayAbort b u (ringFibre r)) k (decide (r < 544)) lane 2 true).rings = u.rings :=
    (laneOut_keeps State.rings (fun _ _ => rfl) _ _ _ _ _ _).trans (mayAbort_keeps State.rings (fun _ _ => rfl) b u _)
  generalize laneOut _ k _ lane 2 true = w at h
  rw [ringOf_updRing, h, ringOf_congr h q]
  rfl

/-- What the loss of a lock may change. -/
def lockFoot (s t : State) : State :=
  { s with out := t.out, dic := t.dic, lasers := t.lasers, rings := t.rings, rotors := t.rotors, specMap := t.specMap
           recovery := t.recovery, links := t.links, routerW := t.routerW, routerE := t.routerE, outst := t.outst, obs := t.obs }

theorem lockFoot_self (s : State) : lockFoot s s = s := rfl

theorem ringLockLoss_holds (r : Nat) (s : State) (hr : r < 1088) (hp : PartsOk s) (hl : (ringOf s r).locked = true)
    (hlost : 3 ≤ (ringOf s r).bad ∨ inWindow (ringOf s r) = false) :
    ∃ t, exec (.ringLockLoss r) s = .next t ∧ t = lockFoot s t
      ∧ (ringOf t r).locked = false ∧ (ringOf t r).bad = 0 ∧ Counted s t Obj.lockLosses 1
      ∧ (∀ x, findLane s (decide (r < 544)) (ringFibre r) (r % 17) = some x → (ringOf t r).sweep = 1 ∧ ∃ y ∈ t.recovery, y.ring = r)
      ∧ (∀ q, q ≠ r → ringOf t q = ringOf s q) ∧ SameObjs s t ([Obj.lockLosses, Obj.rotorAborts] ++ linkObjs) := by
  obtain ⟨-, -, -, -, -, -, -, -, hrings, -⟩ := id hp
  have hlen : r < s.rings.length := hrings ▸ hr
  have hframe : loseLock s r = lockFoot s (loseLock s r) :=
    (lockFoot_self _).symm.trans (loseLock_keeps (lockFoot · (loseLock s r)) (fun _ _ => rfl) s r)
  have hsub : Obj.lockLosses :: journalObjs ⊆ [Obj.lockLosses, Obj.rotorAborts] ++ linkObjs :=
    List.cons_subset_cons _ fun _ hx => List.mem_cons_of_mem _ (journalObjs_sub_link hx)
  have hsame : SameObjs s (ringLost s r) ([Obj.lockLosses, Obj.rotorAborts] ++ linkObjs) :=
    ((sameObjs_lossCounted s r).mono hsub).trans ((sameObjs_ringLost s r).mono (List.subset_cons_self _ _))
  have hcount : Counted s (ringLost s r) Obj.lockLosses 1 :=
    (sameObjs_ringLost s r _ (not_mem_abort_link (by decide) (by decide))).trans (counted_lossCounted s r)
  have hself : ringOf (ringLost s r) r = { ringOf s r with bad := 0, locked := false } :=
    (rings_ringLost s r r).trans (ringOf_unlockRing_self s r _ hlen)
  have hothers := fun q (hq : q ≠ r) => (rings_ringLost s r q).trans (ringOf_unlockRing_ne s _ hq)
  obtain ⟨b, hb⟩ := ringLost_eq s r
  have hparts : PartsOk (ringLost s r) := by
    rw [hb]
    exact partsOk_mayAbort _ _ _ (unlockRing_partsOk s r _ hp)
  have hplaces : lanePlaces (ringLost s r) = lanePlaces s := by
    rw [hb]
    exact (lanePlaces_mayAbort _ _ _).trans (unlockRing_keeps lanePlaces (fun _ _ => rfl) s r _)
  have hfound := findLane_isSome_congr hplaces (decide (r < 544)) (ringFibre r) (r % 17)
  have heq : loseLock s r = match findLane (ringLost s r) (decide (r < 544)) (ringFibre r) (r % 17) with
      | none => ringLost s r
      | some (k, lane) => lockLaneLost (ringLost s r) r k lane := by
    rw [loseLock_eq, if_neg]
    rcases hlost with h | h <;> simp [hl, h]
  generalize ringLost s r = u at *
  have hexec : exec (.ringLockLoss r) s = .next (loseLock s r) := need_lt hr _
  cases hf : findLane u (decide (r < 544)) (ringFibre r) (r % 17) with
  | none =>
    rw [hf] at heq hfound
    rw [heq] at hframe hexec
    refine ⟨u, hexec, hframe, congrArg Ring.locked hself, congrArg Ring.bad hself, hcount, fun x hx => ?_, hothers, hsame⟩
    rw [hx] at hfound
    exact absurd hfound (by simp)
  | some y =>
    obtain ⟨k, lane⟩ := y
    rw [hf] at heq
    rw [heq] at hframe hexec
    have hk := findLane_lt hparts hf
    have hlast := sameObjs_lockLaneLost u r lane hk
    have hulen : r < u.rings.length := by
      obtain ⟨-, -, -, -, -, -, -, -, h, -⟩ := hparts
      exact h ▸ hr
    have hring : ringOf (lockLaneLost u r k lane) r = { ringOf u r with sweep := 1, bad := 0, locked := false } :=
      (ringOf_lockLaneLost u r k r lane).trans (if_pos ⟨rfl, hulen⟩)
    refine ⟨_, hexec, hframe, congrArg Ring.locked hring, congrArg Ring.bad hring, (hlast _ (not_mem_abort_link (by decide) (by decide))).trans hcount,
      fun _ _ => ⟨congrArg Ring.sweep hring, mem_recovery_startRecovery _ r k _ _ false⟩, fun q hq => ?_,
      hsame.trans (hlast.mono (List.subset_cons_self _ _))⟩
    exact ((ringOf_lockLaneLost u r k q lane).trans (if_neg fun h => hq h.1.symm)).trans (hothers q hq)

theorem ringLockLoss_kept (r : Nat) (s : State) (hr : r < 1088)
    (h : (ringOf s r).locked = false ∨ (ringOf s r).bad < 3 ∧ inWindow (ringOf s r) = true) : exec (.ringLockLoss r) s = .next s := by
  refine (need_lt hr _).trans (congrArg Host.Outcome.next ((loseLock_eq s r).trans (if_pos ?_)))
  rcases h with h | ⟨h1, h2⟩
  · simp [h]
  · simp [Nat.not_le.2 h1, h2]

end Sys2Proof.Machine

/-!
Rings found again, swept wider or retired (R222, O20).
-/

namespace Sys2Proof.Machine

/-! ### A ring retired (R222) -/

theorem leNat_singleton (b : Byte) : leNat [b] = b.toNat := by
  simp [leNat]

theorem drop_take_set {α : Type} {l : List α} {i : Nat} (a : α) (h : i < l.length) : ((l.set i a).drop i).take 1 = [a] := by
  rw [List.drop_set, if_neg (lt_irrefl i), Nat.sub_self, List.drop_eq_getElem_cons h]
  rfl

theorem length_padTo (k : Nat) (bs : Bytes) : (padTo k bs).length = k := by
  simp [padTo]

theorem natBit_mod {i v : Nat} (hi : i < 8) : natBit i (v % 2 ^ 8) = natBit i v := by
  rw [natBit_eq_testBit, natBit_eq_testBit, Nat.testBit_mod_two_pow, decide_eq_true hi, Bool.true_and]

theorem ringRetired_congr {s t : State} (h : t.doms = s.doms) (r : Nat) : ringRetired t r = ringRetired s r := by
  unfold ringRetired domGet
  rw [h]

theorem ringRetired_setRingRetired (s : State) {r : Nat} (hr : r < 1088) : ringRetired (setRingRetired s r true) r = true := by
  have hdoms (u : State) (k : Nat) (b : Bytes) : domGet (notePersist (domPut u k b) k) k = b := domGet_domPut_self u k b
  unfold ringRetired setRingRetired
  dsimp only
  rw [hdoms, drop_take_set _ (by rw [length_padTo]; omega), leNat_singleton, if_pos rfl, BitVec.toNat_ofNat, natBit_mod (by omega),
    natBit_setNatBit, decide_eq_true rfl, Bool.true_or]

/-- A parked ring stays so while others are parked. -/
theorem parked_parkRing {s : State} {r : Nat} (q : Nat) (h : (ringOf s r).parked = true) :
    (ringOf (parkRing s q) r).parked = true := by
  rw [parkRing, ringOf_unlockRing, ringOf_updRing]
  split
  · rfl
  · exact h

theorem parked_removeLink {s : State} {r : Nat} (k : Nat) (h : (ringOf s r).parked = true) :
    (ringOf (removeLink s k) r).parked = true := by
  have hfold (l : List Lane) (u : State) (hu : (ringOf u r).parked = true) : (ringOf (l.foldl (fun s (l : Lane) =>
      parkRing (updSpec s l.fibre l.line (fun e => { e with lineState := 0, link := 0, lane := 0 })) (modRing l.fibre l.line)) u)
        r).parked = true := by
    induction l generalizing u with
    | nil => exact hu
    | cons a l ih => exact ih _ (parked_parkRing _ hu)
  exact hfold _ s h

theorem parked_dropLane {s : State} {r : Nat} (k : Nat) (outgoing : Bool) (lane : Lane) (h : (ringOf s r).parked = true) :
    (ringOf (dropLane s k outgoing lane) r).parked = true := by
  have hd : (ringOf (laneDropped s k outgoing lane) r).parked = true := by
    cases outgoing
    · exact h
    · exact h
  rw [dropLane_eq]
  generalize laneDropped s k outgoing lane = u at *
  generalize List.isEmpty _ = b
  cases b
  · rw [if_neg Bool.false_ne_true, ringOf_congr (settleLink_keeps State.rings (fun _ _ => rfl) u k)]
    exact hd
  · refine parked_removeLink k ?_
    rw [ringOf_congr (handBack_keeps State.rings (fun _ _ => rfl) u k false)]
    exact hd

theorem doms_ringDropped (s : State) (r : Nat) : (ringDropped s r).doms = s.doms := by
  unfold ringDropped
  split
  · exact dropLane_keeps State.doms (fun _ _ => rfl) _ _ _ _
  · rfl

theorem ringExcluded_eq (s : State) (r : Nat) : ringExcluded s r = { s with
    specMap := (ringExcluded s r).specMap, reassign := (ringExcluded s r).reassign, inGrant := (ringExcluded s r).inGrant } := by
  unfold ringExcluded
  split <;> rfl

theorem doms_ringStopped (s : State) (r : Nat) : (ringStopped s r).doms = (setRingRetired s r true).doms :=
  unlockRing_keeps State.doms (fun _ _ => rfl) _ _ _

theorem ringRetired_retireRing (s : State) {r : Nat} (hr : r < 1088) : ringRetired (retireRing s r) r = true := by
  rw [retireRing_eq]
  have h1 : (ringExcluded (ringDropped (ringStopped s r) r) r).doms = (setRingRetired s r true).doms := by
    have hx := ringExcluded_eq (ringDropped (ringStopped s r) r) r
    rw [hx]
    exact (doms_ringDropped _ _).trans (doms_ringStopped s r)
  generalize ringExcluded (ringDropped (ringStopped s r) r) r = w at h1
  refine (ringRetired_congr ?_ r).trans (ringRetired_setRingRetired s hr)
  exact ((journalAlert_keeps State.doms (fun _ _ => rfl) _ _ _).trans (journal_keeps State.doms (fun _ _ => rfl) _ _ _)).trans h1

theorem parked_retireRing (s : State) {r : Nat} (hr : r < s.rings.length) : (ringOf (retireRing s r) r).parked = true := by
  rw [retireRing_eq]
  have h1 : (ringOf (ringStopped s r) r).parked = true :=
    congrArg Ring.parked (ringOf_unlockRing_self (setRingRetired s r true) r (fun g => { g with parked := true, sweep := 0 }) hr)
  generalize ringStopped s r = u at h1
  have h2 : (ringOf (ringDropped u r) r).parked = true := by
    unfold ringDropped
    split
    · exact parked_dropLane _ _ _ h1
    · exact h1
  generalize ringDropped u r = w at h2
  have h3 : (ringOf (ringExcluded w r) r).parked = true := by
    rw [ringExcluded_eq]
    exact h2
  generalize ringExcluded w r = x at h3
  rw [ringOf_congr ((journalAlert_keeps State.rings (fun _ _ => rfl) _ _ _).trans (journal_keeps State.rings (fun _ _ => rfl) _ _ _))]
  exact h3

theorem sameObjs_ringDropped (s : State) (r : Nat) (hp : PartsOk s) : SameObjs s (ringDropped s r) linkObjs := by
  unfold ringDropped
  split
  next h => exact sameObjs_dropLane s _ _ (findLane_lt hp h)
  · exact SameObjs.refl s _

/-- A ring's line excluded and journalled: all of its retirement but the alert. -/
def ringOut (s : State) (r : Nat) : State :=
  journal (ringExcluded (ringDropped (ringStopped s r) r) r) .lineExcluded [ringFibre r, r % 17]

theorem sameObjs_ringOut (s : State) (r : Nat) (hp : PartsOk s) : SameObjs s (ringOut s r) linkObjs := by
  have hstop : SameObjs s (ringStopped s r) journalObjs :=
    ((SameObjs.refl s _).of_dic (u := setRingRetired s r true) rfl).trans
      ((sameObjs_unlockRing (setRingRetired s r true) r (fun g => { g with parked := true, sweep := 0 })).of_dic rfl)
  have hparts : PartsOk (ringStopped s r) :=
    unlockRing_partsOk (setRingRetired s r true) r (fun g => { g with parked := true, sweep := 0 }) hp
  unfold ringOut
  generalize ringStopped s r = u at *
  have hdrop := sameObjs_ringDropped u r hparts
  generalize ringDropped u r = w at *
  have hex : (ringExcluded w r).dic = w.dic := by rw [ringExcluded_eq]
  exact ((((hstop.mono journalObjs_sub_link).trans hdrop).of_dic hex)).journal _ _ journalObjs_sub_link

theorem retireRing_facts (s : State) {r : Nat} (hr : r < 1088) (hp : PartsOk s) :
    ringRetired (retireRing s r) r = true ∧ (ringOf (retireRing s r) r).parked = true ∧ Counted s (retireRing s r) Obj.alertPending 1
      ∧ SameObjs s (retireRing s r) (Obj.alertPending :: linkObjs) := by
  have hout := sameObjs_ringOut s r hp
  have heq : retireRing s r = journalAlert (ringOut s r) .ringRetired [r] := retireRing_eq s r
  refine ⟨ringRetired_retireRing s hr, parked_retireRing s ?_, ?_, ?_⟩
  · obtain ⟨-, -, -, -, -, -, -, -, h, -⟩ := hp
    exact h ▸ hr
  · rw [heq]
    exact (objGet_journalAlert_pending _ _ _).trans (by rw [hout _ (not_mem_linkObjs (by decide))])
  · rw [heq]
    exact (hout.mono (List.subset_cons_self _ _)).journalAlert _ _ alertObjs_sub_pending

/-! ### A ring found again (R222, R237) -/

theorem ringAt_ring {r : Nat} (hr : r < 1088) : ringAt (decide (r < 544)) (ringFibre r) (r % 17) = r := by
  unfold ringAt ringFibre modRing dropRing
  by_cases h : r < 544
  · simp only [h, decide_true, if_true]
    omega
  · simp only [h, decide_false, if_false, Bool.false_eq_true]
    omega

/-- A ring locked again. -/
def ringLocked (g : Ring) : Ring :=
  { g with locked := true, parked := false, bad := 0, fullFails := 0, sweep := 0, cwPos := 0, cwBad := false }

/-- A recovery ended: its ring locked, its training's failures forgotten. -/
def recoveryOver (s : State) (r : Nat) : State :=
  { lockRing s (decide (r < 544)) (ringFibre r) (r % 17) with recovery := s.recovery.filter (fun (y : Recovery) => y.ring != r) }

theorem recoveryOver_eq (s : State) {r : Nat} (hr : r < 1088) : recoveryOver s r
    = { updRing { s with trainFails := s.trainFails.erase r } r ringLocked with
        recovery := s.recovery.filter (fun (y : Recovery) => y.ring != r) } := by
  unfold recoveryOver lockRing
  dsimp only
  rw [ringAt_ring hr]
  rfl

/-- The training of a ring found. -/
def ringTrained (s : State) (r : Nat) (t : TrainResult) : State := runTraining s (decide (r < 544)) (ringFibre r) (r % 17) t

theorem retrained_none {s : State} {r : Nat} (t : TrainResult) (h : s.recovery.find? (fun (x : Recovery) => x.ring == r) = none) :
    retrained s r t
      = updRing s r (fun g => { g with locked := true, parked := false, fullFails := 0, sweep := 0, bad := 0 }) := by
  unfold retrained
  rw [h]

/-- A ring that recovers for a lane, after its training. -/
def laneRetrained (v : Verdict) (s : State) (r : Nat) (t : TrainResult) (x : Recovery) : State :=
  match v, recoveredLane s x with
  | .admitted, some lane => returnLane (objPut (recoveryOver s r) (Obj.linkRttNs + x.link) t.rttNs) x.link x.outgoing lane
  | .skewed, some _ => refuseSkew (recoveryOver s r) (decide (r < 544)) (ringFibre r) (r % 17)
  | .failed, some lane =>
    if lane.tries = 0 then updLane s x.link x.outgoing lane.idx (fun a => { a with tries := 1 })
    else
      updLane (updRing s r (fun g => { g with fullFails := 0, sweep := 1 })) x.link x.outgoing lane.idx (fun a => { a with tries := 0 })
  | _, none => recoveryOver s r

theorem retrained_some {s : State} {r : Nat} (t : TrainResult) {x : Recovery}
    (h : s.recovery.find? (fun (x : Recovery) => x.ring == r) = some x) :
    retrained s r t = laneRetrained (verdict s (decide (r < 544)) (ringFibre r) (r % 17) t) (ringTrained s r t) r t x := by
  unfold retrained
  rw [h]
  rfl

theorem ringTrained_keeps {γ : Type} (vw : State → γ) (hg : ∀ s t, vw (footOutDic s t) = vw s) (s : State) (r : Nat) (t : TrainResult) :
    vw (ringTrained s r t) = vw s := runTraining_keeps vw hg s _ _ _ t

theorem sameObjs_ringTrained (s : State) (r : Nat) (t : TrainResult) : SameObjs s (ringTrained s r t) [Obj.wrongLineEvents] := by
  unfold ringTrained runTraining
  split
  · exact (SameObjs.refl s _).of_dic rfl
  · split
    · exact SameObjs.objInc (SameObjs.refl s _) _ List.mem_cons_self
    · exact SameObjs.refl s _

theorem recoveredLane_congr {s t : State} (h : t.links = s.links) (x : Recovery) : recoveredLane t x = recoveredLane s x := by
  unfold recoveredLane
  rw [linkOf_congr h]

/-- A recovery's lane is one of a link that there is. -/
theorem link_lt_of_recoveredLane {s : State} {x : Recovery} {lane : Lane} (hp : PartsOk s) (h : recoveredLane s x = some lane) :
    x.link < 64 := by
  obtain ⟨-, -, -, -, -, -, -, -, -, -, -, hlinks, -⟩ := hp
  by_contra hx
  rw [recoveredLane, linkOf_of_le s (by omega)] at h
  cases x.outgoing <;> simp at h

theorem sameObjs_returnLane (s : State) (k : Nat) (outgoing : Bool) (lane : Lane) :
    SameObjs s (returnLane s k outgoing lane) (settleObjs k) := by
  have htell (u : State) (i : Nat) : SameObjs u (tellJoin u k i) (settleObjs k) := by
    unfold tellJoin
    split
    · exact (SameObjs.of_dic (SameObjs.refl u _) (u := updLane u k true i (fun a => { a with told := true })) rfl).trans
        ((sameObjs_control _ _ _).mono fun x hx => mem_settleObjs (by simp_all))
    · exact (SameObjs.refl u _).of_dic rfl
  unfold returnLane
  dsimp only
  split
  · exact ((SameObjs.refl s _).of_dic (u := updSpec (updLane s k true lane.idx _) lane.fibre lane.line _) rfl).trans
      ((htell _ _).trans (sameCells_settleLink _ k).objs)
  · split
    · exact ((SameObjs.refl s _).of_dic (u := updLane s k false lane.idx _) rfl).trans (sameCells_settleLink _ k).objs
    · split
      · exact (SameObjs.refl s _).of_dic rfl
      · exact ((SameObjs.refl s _).of_dic (u := updLane s k false lane.idx _) rfl).trans (sameCells_settleLink _ k).objs

theorem recovery_dropLane (s : State) (k : Nat) (outgoing : Bool) (lane : Lane) :
    ∀ y ∈ (dropLane s k outgoing lane).recovery, y ∈ s.recovery := by
  have hd : ∀ y ∈ (laneDropped s k outgoing lane).recovery, y ∈ s.recovery := by
    cases outgoing
    · exact fun y hy => (List.mem_filter.1 hy).1
    · exact fun y hy => (List.mem_filter.1 hy).1
  rw [dropLane_eq]
  generalize laneDropped s k outgoing lane = u at *
  generalize List.isEmpty _ = b
  cases b
  · rw [if_neg Bool.false_ne_true, settleLink_keeps State.recovery (fun _ _ => rfl)]
    exact hd
  · rw [if_pos rfl, removeLink_keeps State.recovery (fun _ _ => rfl), handBack_keeps State.recovery (fun _ _ => rfl)]
    exact hd

theorem sameObjs_parkRing (s : State) (r : Nat) : SameObjs s (parkRing s r) journalObjs := sameObjs_unlockRing s r _

theorem sameObjs_darkenLine (s : State) (x j : Nat) (hp : PartsOk s) : SameObjs s (darkenLine s x j) linkObjs := by
  have hpark (u : State) (f : MapEntry → MapEntry) (r : Nat) : SameObjs u (parkRing (updSpec u x j f) r) linkObjs :=
    ((SameObjs.refl u _).of_dic (u := updSpec u x j f) rfl).trans ((sameObjs_parkRing _ r).mono journalObjs_sub_link)
  unfold darkenLine
  split
  · exact hpark s _ _
  next k lane h =>
    have hk := findLane_lt hp h
    dsimp only
    generalize hu : sendCtl s k _ = u
    have h1 : SameObjs s u linkObjs := hu ▸ (sameObjs_control s k _).mono stalls_sub_link
    generalize hw : updLink u k _ = w
    have h2 : SameObjs s w linkObjs := h1.of_dic (by rw [← hw]; rfl)
    generalize hv : parkRing _ _ = v
    have h3 : SameObjs s v linkObjs := h2.trans (hv ▸ hpark w _ _)
    split
    · exact h3.trans (((sameCells_handBack v k false).objs.mono backObjs_sub_link).trans (sameObjs_removeLink _ hk))
    · exact h3.trans (sameObjs_settle v hk)

/-- A lane refused for skew, its hold begun. -/
def skewHeld (s : State) (outgoing : Bool) (fibre line : Nat) : State :=
  { journal s .laneSkew [boolNat outgoing, fibre, line] with
    skewHold := smSet s.skewHold (ringAt outgoing fibre line) (s.now + ms 1000) }

/-- The line of a lane refused for skew given up. -/
def skewDropped (s : State) (outgoing : Bool) (fibre line : Nat) : State :=
  if outgoing then
    darkenLine { s with reassign := if smGet s.reassign fibre = some line then smErase s.reassign fibre else s.reassign } fibre line
  else
    match findLane { s with inGrant := s.inGrant.erase (17 * fibre + line) } false fibre line with
    | some (k, lane) => dropLane { s with inGrant := s.inGrant.erase (17 * fibre + line) } k false lane
    | none => { s with inGrant := s.inGrant.erase (17 * fibre + line) }

theorem refuseSkew_eq (s : State) (outgoing : Bool) (fibre line : Nat) :
    refuseSkew s outgoing fibre line = skewDropped (skewHeld s outgoing fibre line) outgoing fibre line := by
  have h : (journal s .laneSkew [boolNat outgoing, fibre, line]).skewHold = s.skewHold := journal_keeps State.skewHold (fun _ _ => rfl) _ _ _
  have hn : (journal s .laneSkew [boolNat outgoing, fibre, line]).now = s.now := journal_keeps State.now (fun _ _ => rfl) _ _ _
  unfold refuseSkew skewHeld
  dsimp only
  rw [h, hn]
  rfl

theorem skewDropped_facts (s : State) (outgoing : Bool) (fibre line : Nat) (hp : PartsOk s) :
    (skewDropped s outgoing fibre line).skewHold = s.skewHold
      ∧ (∀ y ∈ (skewDropped s outgoing fibre line).recovery, y ∈ s.recovery)
      ∧ SameObjs s (skewDropped s outgoing fibre line) linkObjs := by
  unfold skewDropped
  split
  · generalize hu : ({ s with reassign := _ } : State) = u
    have h1 : u.skewHold = s.skewHold := by rw [← hu]
    have h2 : u.recovery = s.recovery := by rw [← hu]
    have h3 : SameObjs s u linkObjs := (SameObjs.refl s _).of_dic (by rw [← hu])
    have h4 : PartsOk u := by rw [← hu]; exact hp
    refine ⟨(darkenLine_keeps State.skewHold (fun _ _ => rfl) _ _ _).trans h1, fun y hy => ?_,
      h3.trans (sameObjs_darkenLine u fibre line h4)⟩
    rw [darkenLine_keeps State.recovery (fun _ _ => rfl), h2] at hy
    exact hy
  · generalize hu : ({ s with inGrant := _ } : State) = u
    have h1 : u.skewHold = s.skewHold := by rw [← hu]
    have h2 : u.recovery = s.recovery := by rw [← hu]
    have h3 : SameObjs s u linkObjs := (SameObjs.refl s _).of_dic (by rw [← hu])
    have h4 : PartsOk u := by rw [← hu]; exact hp
    split
    next k lane h =>
      exact ⟨(dropLane_keeps State.skewHold (fun _ _ => rfl) _ _ _ _).trans h1,
        fun y hy => h2 ▸ recovery_dropLane u k false lane y hy, h3.trans (sameObjs_dropLane u false lane (findLane_lt h4 h))⟩
    · exact ⟨h1, fun y hy => h2 ▸ hy, h3⟩

/-! ### A lane trained again (R222, R237, R239) -/

theorem rings_lt {s : State} {r : Nat} (hp : PartsOk s) (hr : r < 1088) : r < s.rings.length := by
  obtain ⟨-, -, -, -, -, -, -, -, h, -⟩ := hp
  exact h ▸ hr

theorem recoveryOver_facts (s : State) {r : Nat} (hr : r < 1088) (hp : PartsOk s) :
    ringOf (recoveryOver s r) r = ringLocked (ringOf s r) ∧ (∀ q, q ≠ r → ringOf (recoveryOver s r) q = ringOf s q)
      ∧ (∀ y ∈ (recoveryOver s r).recovery, y.ring ≠ r) ∧ PartsOk (recoveryOver s r)
      ∧ (recoveryOver s r).dic = s.dic ∧ (recoveryOver s r).skewHold = s.skewHold ∧ (recoveryOver s r).now = s.now := by
  rw [recoveryOver_eq s hr]
  refine ⟨ringOf_updRing_self { s with trainFails := s.trainFails.erase r } r ringLocked (rings_lt hp hr),
    fun q hq => ringOf_updRing_ne { s with trainFails := s.trainFails.erase r } ringLocked hq,
    fun y hy => ?_, updRing_partsOk { s with trainFails := s.trainFails.erase r } r ringLocked hp, rfl, rfl, rfl⟩
  simpa using (List.mem_filter.1 hy).2

theorem linkRttNs_apart {k : Nat} (hk : k < 64) : Obj.linkRttNs + k ∉ settleObjs k := by
  have hhead : ∀ x ∈ Obj.linkState :: linkHead, x + 64 ≤ Obj.linkRttNs ∨ Obj.linkRttNs + 64 ≤ x := by decide
  intro h
  rcases List.mem_cons.mp h with h | h
  · have := hhead _ (List.mem_cons_self ..)
    omega
  · have := hhead _ (List.mem_cons_of_mem _ h)
    omega

theorem laneRetrained_admitted {s : State} {r : Nat} (t : TrainResult) {x : Recovery} {lane : Lane} (hr : r < 1088) (hp : PartsOk s)
    (hx : recoveredLane s x = some lane) :
    ringOf (laneRetrained .admitted s r t x) r = ringLocked (ringOf s r)
      ∧ (∀ q, q ≠ r → ringOf (laneRetrained .admitted s r t x) q = ringOf s q)
      ∧ (∀ y ∈ (laneRetrained .admitted s r t x).recovery, y.ring ≠ r)
      ∧ objGet (laneRetrained .admitted s r t x) (Obj.linkRttNs + x.link) = t.rttNs
      ∧ (laneRetrained .admitted s r t x).skewHold = s.skewHold ∧ SameObjs s (laneRetrained .admitted s r t x) linkObjs := by
  have hk := link_lt_of_recoveredLane hp hx
  have heq : laneRetrained .admitted s r t x
      = returnLane (objPut (recoveryOver s r) (Obj.linkRttNs + x.link) t.rttNs) x.link x.outgoing lane := by
    unfold laneRetrained
    rw [hx]
  obtain ⟨h1, h2, h3, -, hdic, hskew, -⟩ := recoveryOver_facts s hr hp
  rw [heq]
  generalize recoveryOver s r = u at *
  have hput : SameObjs s (objPut u (Obj.linkRttNs + x.link) t.rttNs) linkObjs :=
    ((SameObjs.refl s _).of_dic hdic).objPut _ _ (linkRttNs_mem_link hk)
  have hval : objGet (objPut u (Obj.linkRttNs + x.link) t.rttNs) (Obj.linkRttNs + x.link) = t.rttNs := objGet_objPut_self _ _ _
  have hrings : (objPut u (Obj.linkRttNs + x.link) t.rttNs).rings = u.rings := rfl
  have hrec : (objPut u (Obj.linkRttNs + x.link) t.rttNs).recovery = u.recovery := rfl
  have hhold : (objPut u (Obj.linkRttNs + x.link) t.rttNs).skewHold = u.skewHold := rfl
  generalize objPut u (Obj.linkRttNs + x.link) t.rttNs = w at *
  have hlast := sameObjs_returnLane w x.link x.outgoing lane
  have hring (q : Nat) : ringOf (returnLane w x.link x.outgoing lane) q = ringOf u q :=
    ringOf_congr ((returnLane_keeps State.rings (fun _ _ => rfl) w _ _ _).trans hrings) q
  refine ⟨(hring r).trans h1, fun q hq => (hring q).trans (h2 q hq), ?_, (hlast _ (linkRttNs_apart hk)).trans hval,
    (returnLane_keeps State.skewHold (fun _ _ => rfl) w _ _ _).trans (hhold.trans hskew),
    hput.trans (hlast.mono (settleObjs_sub_link hk))⟩
  rw [returnLane_keeps State.recovery (fun _ _ => rfl), hrec]
  exact h3

theorem laneRetrained_skewed {s : State} {r : Nat} (t : TrainResult) {x : Recovery} {lane : Lane} (hr : r < 1088) (hp : PartsOk s)
    (hx : recoveredLane s x = some lane) : (∀ y ∈ (laneRetrained .skewed s r t x).recovery, y.ring ≠ r)
      ∧ smGet (laneRetrained .skewed s r t x).skewHold r = some (s.now + ms 1000)
      ∧ SameObjs s (laneRetrained .skewed s r t x) linkObjs := by
  have heq : laneRetrained .skewed s r t x = skewDropped
      (skewHeld (recoveryOver s r) (decide (r < 544)) (ringFibre r) (r % 17)) (decide (r < 544)) (ringFibre r) (r % 17) := by
    rw [← refuseSkew_eq]
    unfold laneRetrained
    rw [hx]
  obtain ⟨-, -, h3, hparts, hdic, -, hnow⟩ := recoveryOver_facts s hr hp
  rw [heq]
  generalize recoveryOver s r = u at *
  have hhold : smGet (skewHeld u (decide (r < 544)) (ringFibre r) (r % 17)).skewHold r = some (u.now + ms 1000) := by
    rw [skewHeld, ringAt_ring hr]
    exact smGet_smSet_self _ _ _
  have hrec : (skewHeld u (decide (r < 544)) (ringFibre r) (r % 17)).recovery = u.recovery :=
    journal_keeps State.recovery (fun _ _ => rfl) _ _ _
  have hobjs : SameObjs s (skewHeld u (decide (r < 544)) (ringFibre r) (r % 17)) linkObjs :=
    (((SameObjs.refl s _).of_dic hdic).journal .laneSkew _ journalObjs_sub_link).of_dic rfl
  have hpw : PartsOk (skewHeld u (decide (r < 544)) (ringFibre r) (r % 17)) :=
    (journal_keeps PartsOk (fun _ _ => rfl) u .laneSkew [boolNat (decide (r < 544)), ringFibre r, r % 17]).mpr hparts
  generalize skewHeld u (decide (r < 544)) (ringFibre r) (r % 17) = w at *
  obtain ⟨hh, hy, ho⟩ := skewDropped_facts w (decide (r < 544)) (ringFibre r) (r % 17) hpw
  refine ⟨fun y hm => h3 y (hrec ▸ hy y hm), ?_, hobjs.trans ho⟩
  rw [hh, hhold, hnow]

theorem laneRetrained_failed {s : State} {r : Nat} (t : TrainResult) {x : Recovery} {lane : Lane}
    (hx : recoveredLane s x = some lane) : laneRetrained .failed s r t x
      = if lane.tries = 0 then updLane s x.link x.outgoing lane.idx (fun a => { a with tries := 1 })
        else updLane (updRing s r (fun g => { g with fullFails := 0, sweep := 1 })) x.link x.outgoing lane.idx
          (fun a => { a with tries := 0 }) := by
  unfold laneRetrained
  rw [hx]

theorem laneRetrained_gone {s : State} {r : Nat} (v : Verdict) (t : TrainResult) {x : Recovery} (hx : recoveredLane s x = none) :
    laneRetrained v s r t x = recoveryOver s r := by
  unfold laneRetrained
  rw [hx]
  cases v <;> rfl

theorem sameObjs_laneRetrained {s : State} {r : Nat} (v : Verdict) (t : TrainResult) (x : Recovery) (hr : r < 1088) (hp : PartsOk s) :
    SameObjs s (laneRetrained v s r t x) linkObjs := by
  cases hx : recoveredLane s x with
  | none =>
    rw [laneRetrained_gone v t hx]
    obtain ⟨-, -, -, -, hdic, -⟩ := recoveryOver_facts s hr hp
    exact (SameObjs.refl s _).of_dic hdic
  | some lane =>
    cases v with
    | admitted =>
      obtain ⟨-, -, -, -, -, h⟩ := laneRetrained_admitted t hr hp hx
      exact h
    | skewed =>
      obtain ⟨-, -, h⟩ := laneRetrained_skewed t hr hp hx
      exact h
    | failed =>
      rw [laneRetrained_failed t hx]
      split
      · exact (SameObjs.refl s _).of_dic rfl
      · exact (SameObjs.refl s _).of_dic rfl

theorem ringOf_laneRetrained_ne {s : State} {r : Nat} {v : Verdict} (t : TrainResult) (x : Recovery) (hr : r < 1088) (hp : PartsOk s)
    (hv : v ≠ .skewed) {q : Nat} (hq : q ≠ r) : ringOf (laneRetrained v s r t x) q = ringOf s q := by
  cases hx : recoveredLane s x with
  | none =>
    rw [laneRetrained_gone v t hx]
    obtain ⟨-, h, -⟩ := recoveryOver_facts s hr hp
    exact h q hq
  | some lane =>
    cases v with
    | admitted =>
      obtain ⟨-, h, -⟩ := laneRetrained_admitted t hr hp hx
      exact h q hq
    | skewed => exact absurd rfl hv
    | failed =>
      rw [laneRetrained_failed t hx]
      split
      · rfl
      · exact ringOf_updRing_ne s _ hq

/-! ### The end of a sweep (R222) -/

theorem recoveryEnd_idle {s : State} {r : Nat} (found : Bool) (t : TrainResult)
    (h : (ringOf s r).sweep = 0 ∨ core2Busy s (ringFibre r) = true) : recoveryEnd s r found t = s := if_pos h

theorem recoveryEnd_found {s : State} {r : Nat} (t : TrainResult) (h : ¬ ((ringOf s r).sweep = 0 ∨ core2Busy s (ringFibre r) = true)) :
    recoveryEnd s r true t = retrained s r t := by
  unfold recoveryEnd
  dsimp only
  rw [if_neg h]
  rfl

theorem recoveryEnd_missed {s : State} {r : Nat} (t : TrainResult) (h : ¬ ((ringOf s r).sweep = 0 ∨ core2Busy s (ringFibre r) = true)) :
    recoveryEnd s r false t = if (ringOf s r).sweep = 1 then updRing s r (fun g => { g with sweep := 2 })
      else if (ringOf s r).fullFails = 0 then updRing s r (fun g => { g with sweep := 3, fullFails := 1 })
      else retireRing (updRing s r (fun g => { g with fullFails := 2 })) r := by
  unfold recoveryEnd
  dsimp only
  rw [if_neg h]
  rfl

theorem foot17_2_self (s : State) : foot17_2 s s = s := rfl

theorem recoveryEnd_frame (s : State) (r : Nat) (found : Bool) (t : TrainResult) :
    recoveryEnd s r found t = foot17_2 s (recoveryEnd s r found t) :=
  (foot17_2_self _).symm.trans (recoveryEnd_keeps (foot17_2 · (recoveryEnd s r found t)) (fun _ _ => rfl) s r found t)

theorem sameObjs_recoveryEnd (s : State) {r : Nat} (found : Bool) (t : TrainResult) (hr : r < 1088) (hp : PartsOk s) :
    SameObjs s (recoveryEnd s r found t) (Obj.alertPending :: Obj.wrongLineEvents :: linkObjs) := by
  by_cases h : (ringOf s r).sweep = 0 ∨ core2Busy s (ringFibre r) = true
  · rw [recoveryEnd_idle found t h]
    exact SameObjs.refl s _
  · cases found with
    | false =>
      rw [recoveryEnd_missed t h]
      split
      · exact (SameObjs.refl s _).of_dic rfl
      · split
        · exact (SameObjs.refl s _).of_dic rfl
        · obtain ⟨-, -, -, ho⟩ := retireRing_facts (updRing s r (fun g => { g with fullFails := 2 })) hr (updRing_partsOk s r _ hp)
          exact ((SameObjs.refl s _).of_dic rfl).trans (ho.mono (List.cons_subset_cons _ (List.subset_cons_self _ _)))
    | true =>
      rw [recoveryEnd_found t h]
      cases hf : s.recovery.find? (fun (x : Recovery) => x.ring == r) with
      | none =>
        rw [retrained_none t hf]
        exact (SameObjs.refl s _).of_dic rfl
      | some x =>
        rw [retrained_some t hf]
        have hpt : PartsOk (ringTrained s r t) := (ringTrained_keeps PartsOk (fun _ _ => rfl) s r t).mpr hp
        exact ((sameObjs_ringTrained s r t).mono (by decide)).trans
          ((sameObjs_laneRetrained _ t x hr hpt).mono fun _ hy => List.mem_cons_of_mem _ (List.mem_cons_of_mem _ hy))

theorem laneRecoveryEnd_holds (r : Nat) (found out : Bool) (tr : TrainResult) (s : State) (hr : r < 1088) (hp : PartsOk s)
    (hs : (ringOf s r).sweep ≠ 0) (hc : core2Busy s (ringFibre r) = false) (ho : out = decide (r < 544)) :
    ∃ t, exec (.laneRecoveryEnd r found tr) s = .next t ∧ t = foot17_2 s t
      ∧ (∀ q, q ≠ r → found = true → verdict s out (ringFibre r) (r % 17) tr ≠ .skewed → ringOf t q = ringOf s q)
      ∧ (found = false → (ringOf s r).sweep = 1 → t = { s with rings := t.rings } ∧ (ringOf t r).sweep = 2)
      ∧ (found = false → (ringOf s r).sweep ≠ 1 → (ringOf s r).fullFails = 0 →
          t = { s with rings := t.rings } ∧ (ringOf t r).sweep = 3 ∧ (ringOf t r).fullFails = 1)
      ∧ (found = false → (ringOf s r).sweep ≠ 1 → (ringOf s r).fullFails ≠ 0 →
          ringRetired t r = true ∧ (ringOf t r).parked = true ∧ Counted s t Obj.alertPending 1)
      ∧ (found = true → (∀ x ∈ s.recovery, x.ring ≠ r) → t = { s with rings := t.rings }
          ∧ ringOf t r = { ringOf s r with locked := true, parked := false, fullFails := 0, sweep := 0, bad := 0 })
      ∧ (∀ x lane, found = true → s.recovery.find? (fun x => x.ring == r) = some x → recoveredLane s x = some lane →
          (verdict s out (ringFibre r) (r % 17) tr = .admitted →
            (ringOf t r).locked = true ∧ (ringOf t r).sweep = 0 ∧ (∀ y ∈ t.recovery, y.ring ≠ r)
              ∧ objGet t (Obj.linkRttNs + x.link) = tr.rttNs ∧ t.skewHold = s.skewHold)
          ∧ (verdict s out (ringFibre r) (r % 17) tr = .skewed →
            (∀ y ∈ t.recovery, y.ring ≠ r) ∧ smGet t.skewHold (ringAt out (ringFibre r) (r % 17)) = some (s.now + ms 1000))
          ∧ (verdict s out (ringFibre r) (r % 17) tr = .failed →
            t.recovery = s.recovery ∧ t.skewHold = s.skewHold ∧ (ringOf t r).locked = (ringOf s r).locked
              ∧ ((lane.tries = 0 → ringOf t r = ringOf s r)
                ∧ (lane.tries ≠ 0 → (ringOf t r).sweep = 1 ∧ (ringOf t r).fullFails = 0))))
      ∧ SameObjs s t (Obj.alertPending :: Obj.wrongLineEvents :: linkObjs) := by
  subst ho
  have hrun : ¬ ((ringOf s r).sweep = 0 ∨ core2Busy s (ringFibre r) = true) := by simp [hs, hc]
  have hlen := rings_lt hp hr
  have hpt : PartsOk (ringTrained s r tr) := (ringTrained_keeps PartsOk (fun _ _ => rfl) s r tr).mpr hp
  have hrings := ringTrained_keeps State.rings (fun _ _ => rfl) s r tr
  have hlinks := ringTrained_keeps State.links (fun _ _ => rfl) s r tr
  refine ⟨recoveryEnd s r found tr, need_lt hr _, recoveryEnd_frame s r found tr, fun q hq hf hv => ?_, fun hf h1 => ?_,
    fun hf h1 h2 => ?_, fun hf h1 h2 => ?_, fun hf hnone => ?_, fun x lane hf hx hl => ?_, sameObjs_recoveryEnd s found tr hr hp⟩
  · rw [hf, recoveryEnd_found tr hrun]
    cases hx : s.recovery.find? (fun (x : Recovery) => x.ring == r) with
    | none =>
      rw [retrained_none tr hx]
      exact ringOf_updRing_ne s _ hq
    | some x =>
      rw [retrained_some tr hx]
      exact (ringOf_laneRetrained_ne tr x hr hpt hv hq).trans (ringOf_congr hrings q)
  · rw [hf, recoveryEnd_missed tr hrun, if_pos h1]
    exact ⟨rfl, congrArg Ring.sweep (ringOf_updRing_self s r _ hlen)⟩
  · rw [hf, recoveryEnd_missed tr hrun, if_neg h1, if_pos h2]
    exact ⟨rfl, congrArg Ring.sweep (ringOf_updRing_self s r _ hlen), congrArg Ring.fullFails (ringOf_updRing_self s r _ hlen)⟩
  · rw [hf, recoveryEnd_missed tr hrun, if_neg h1, if_neg h2]
    obtain ⟨h3, h4, h5, -⟩ := retireRing_facts (updRing s r (fun g => { g with fullFails := 2 })) hr (updRing_partsOk s r _ hp)
    exact ⟨h3, h4, h5⟩
  · have hx : s.recovery.find? (fun (x : Recovery) => x.ring == r) = none :=
      List.find?_eq_none.2 fun x hm => by simpa using hnone x hm
    rw [hf, recoveryEnd_found tr hrun, retrained_none tr hx]
    exact ⟨rfl, ringOf_updRing_self s r _ hlen⟩
  · rw [hf, recoveryEnd_found tr hrun, retrained_some tr hx]
    have hl' : recoveredLane (ringTrained s r tr) x = some lane := (recoveredLane_congr hlinks x).trans hl
    have hring := ringOf_congr hrings r
    have hrec := ringTrained_keeps State.recovery (fun _ _ => rfl) s r tr
    have hskew := ringTrained_keeps State.skewHold (fun _ _ => rfl) s r tr
    have hnow := ringTrained_keeps State.now (fun _ _ => rfl) s r tr
    generalize ringTrained s r tr = u at *
    refine ⟨fun hv => ?_, fun hv => ?_, fun hv => ?_⟩
    · rw [hv]
      obtain ⟨h1, -, h3, h4, h5, -⟩ := laneRetrained_admitted tr hr hpt hl'
      exact ⟨congrArg Ring.locked h1, congrArg Ring.sweep h1, h3, h4, h5.trans hskew⟩
    · rw [hv, ringAt_ring hr]
      obtain ⟨h1, h2, -⟩ := laneRetrained_skewed tr hr hpt hl'
      exact ⟨h1, h2.trans (by rw [hnow])⟩
    · rw [hv, laneRetrained_failed tr hl']
      have hself := ringOf_updRing_self u r (fun g => { g with fullFails := 0, sweep := 1 }) (rings_lt hpt hr)
      by_cases ht : lane.tries = 0
      · rw [if_pos ht]
        exact ⟨hrec, hskew, congrArg Ring.locked hring, fun _ => hring, fun h => absurd ht h⟩
      · rw [if_neg ht]
        have hlocked : (ringOf u r).locked = (ringOf s r).locked := congrArg Ring.locked hring
        exact ⟨hrec, hskew, (congrArg Ring.locked hself).trans hlocked, fun h => absurd h ht,
          fun _ => ⟨congrArg Ring.sweep hself, congrArg Ring.fullFails hself⟩⟩

/-- Settles O20: an event of light or of a ring touches that input or ring, and its lane through the link layer alone. -/
theorem lightAndRingsLostAndRecovered : Obligations.LightAndRingsLostAndRecovered := by
  unfold Obligations.LightAndRingsLostAndRecovered
  refine ⟨lightLoss_holds, lightRestore_holds, fun _ _ hk hd => lightLoss_known hk hd, fun _ _ hk hd => lightRestore_lit hk hd,
    fun k j s hk => ⟨fun h => lightLoss_known hk ?_, fun h => lightRestore_lit hk h⟩, lockInReading_holds,
    fun r n sites c s hr hp hs => feedForwardUpdate_holds r n sites c s hr hp hs, ringLockLoss_holds, ringLockLoss_kept,
    laneRecoveryEnd_holds, fun r found tr s hr h => (need_lt hr _).trans (congrArg Host.Outcome.next (recoveryEnd_idle found tr h))⟩
  rcases h with h | h | h <;> simp [lossKnown, h]

end Sys2Proof.Machine

/-!
What a link keeps while it settles (R240 to R243), and control flits given to it.
-/

namespace Sys2Proof.Machine

/-! ### What of a link settling leaves -/

/-- An in-lane that waits for its LaneJoin no more. -/
def laneJoined (a : Lane) : Lane := if a.ready then { a with why := 0, ready := false } else a

/-- What of a link its flits, its times and its negotiation are not part of. -/
def fixedLink (l : Link) : Link :=
  { l with
    outLanes := l.outLanes.map (fun (a : Lane) => { a with q := [] }), inLanes := l.inLanes.map laneJoined
    txSeq := 0, unacked := [], waitCtl := [], told := 0, nego := 0, darkSince := none, okSince := none, noneSince := none }

theorem laneJoined_idem (a : Lane) : laneJoined (laneJoined a) = laneJoined a := by
  unfold laneJoined
  by_cases h : a.ready = true
  · simp [h]
  · simp [h]

theorem fixedLink_darkened (now : Nat) (l : Link) : fixedLink (darkened now l) = fixedLink l := by
  have hin : (l.inLanes.map (fun (a : Lane) => if a.ready then { a with why := 0, ready := false } else a)).map laneJoined
      = l.inLanes.map laneJoined := by
    rw [List.map_map]
    exact List.map_congr_left fun a _ => laneJoined_idem a
  have hout : (l.outLanes.map (fun (a : Lane) => { a with q := [] })).map (fun (a : Lane) => { a with q := [] })
      = l.outLanes.map (fun (a : Lane) => { a with q := [] }) := by
    rw [List.map_map]
    rfl
  unfold fixedLink darkened
  dsimp only
  rw [hin, hout]

theorem fixedLink_flitGiven (now : Nat) (b : FlitBody) (l : Link) : fixedLink (flitGiven now b l) = fixedLink l := by
  have hout (i seq : Nat) : (l.outLanes.map (fun (a : Lane) => if a.idx = i then { a with q := a.q ++ [seq] } else a)).map
      (fun (a : Lane) => { a with q := [] }) = l.outLanes.map (fun (a : Lane) => { a with q := [] }) := by
    rw [List.map_map]
    refine List.map_congr_left fun a _ => ?_
    rw [Function.comp]
    split <;> rfl
  unfold flitGiven
  split
  · rfl
  · unfold fixedLink enqueue
    dsimp only
    rw [hout]

theorem fixedLink_ctlGiven (now : Nat) (c : Ctl) (l : Link) : fixedLink (ctlGiven now c l) = fixedLink l := by
  unfold ctlGiven
  split
  · rfl
  · split
    · exact fixedLink_flitGiven _ _ _
    · rfl

/-! ### Links after an operation on one of them -/

/-- A state in which every link but k is as it was, and link k but for its flits, times and negotiation. -/
def LinkKept (s t : State) (k : Nat) : Prop :=
  t.links.length = s.links.length ∧ fixedLink (linkOf t k) = fixedLink (linkOf s k) ∧ ∀ i, i ≠ k → linkOf t i = linkOf s i

theorem LinkKept.refl (s : State) (k : Nat) : LinkKept s s k := ⟨rfl, rfl, fun _ _ => rfl⟩

theorem LinkKept.trans {s t u : State} {k : Nat} (h : LinkKept s t k) (h' : LinkKept t u k) : LinkKept s u k := by
  obtain ⟨h1, h2, h3⟩ := h
  obtain ⟨h4, h5, h6⟩ := h'
  exact ⟨h4.trans h1, h5.trans h2, fun i hi => (h6 i hi).trans (h3 i hi)⟩

theorem linkKept_of_links {s t : State} (h : t.links = s.links) (k : Nat) : LinkKept s t k :=
  ⟨congrArg List.length h, congrArg fixedLink (linkOf_congr h k), fun i _ => linkOf_congr h i⟩

theorem linkOf_updLink_ge {s : State} {k : Nat} (f : Link → Link) (h : s.links.length ≤ k) : linkOf (updLink s k f) k = linkOf s k := by
  rw [linkOf_of_le s h, linkOf_of_le (updLink s k f) (by simpa [updLink, modifyAt] using h)]

theorem linkKept_updLink (s : State) (k : Nat) (f : Link → Link) (hf : fixedLink (f (linkOf s k)) = fixedLink (linkOf s k)) :
    LinkKept s (updLink s k f) k := by
  refine ⟨by simp [updLink, modifyAt], ?_, fun i hi => linkOf_updLink_ne s k i f hi⟩
  by_cases hk : k < s.links.length
  · rw [linkOf_updLink_self s k f hk]
    exact hf
  · rw [linkOf_updLink_ge f (by omega)]

theorem linkKept_sendCtl (s : State) (k : Nat) (c : Ctl) : LinkKept s (sendCtl s k c) k := by
  simp only [sendCtl]
  split
  · exact LinkKept.refl s k
  · split
    · exact linkKept_updLink s k _ (fixedLink_flitGiven _ _ _)
    · exact linkKept_updLink s k _ rfl

theorem linkKept_handBack (s : State) (k : Nat) (grey : Bool) : LinkKept s (handBack s k grey) k := by
  unfold handBack
  exact (linkKept_updLink s k _ rfl).trans (linkKept_of_links (links_reinject _ _ _ _) k)

theorem linkKept_goDark (s : State) (k cause : Nat) : LinkKept s (goDark s k cause) k := by
  refine ⟨length_links_goDark s k cause, ?_, fun i hi => linkOf_goDark_ne s k i cause hi⟩
  by_cases hk : k < s.links.length
  · rw [linkOf_goDark_self s k cause hk]
    exact fixedLink_darkened _ _
  · rw [linkOf_of_le s (by omega), linkOf_of_le (goDark s k cause) (by rw [length_links_goDark]; omega)]

theorem linkKept_goGrey (s : State) (k : Nat) : LinkKept s (goGrey s k) k := by
  unfold goGrey
  exact (linkKept_handBack s k true).trans (linkKept_of_links (journal_links _ _ _) k)

theorem linkKept_noteTimes (s : State) (k : Nat) : LinkKept s (noteTimes s k) k := linkKept_updLink s k _ rfl

theorem linkKept_tellCause (s : State) (k : Nat) : LinkKept s (tellCause s k) k := by
  unfold tellCause
  dsimp only
  split
  · exact LinkKept.refl s k
  · exact (linkKept_updLink s k _ rfl).trans (linkKept_sendCtl _ k _)

/-- A link that settles keeps its peer, its lanes and all but its flits, times and negotiation. -/
theorem linkKept_settleLink (s : State) (k : Nat) : LinkKept s (settleLink s k) k := by
  have hput (v : Nat) : LinkKept s (objPut s (Obj.linkState + k) v) k := linkKept_of_links rfl k
  unfold settleLink
  dsimp only
  split
  · exact hput 4
  · split
    · exact (hput 3).trans (linkKept_noteTimes _ k)
    · split
      · exact (hput 3).trans (linkKept_noteTimes _ k)
      · split
        · exact (linkKept_goDark s k 1).trans (linkKept_noteTimes _ k)
        · refine (LinkKept.trans ?_ (linkKept_tellCause _ k)).trans (linkKept_noteTimes _ k)
          split
          · exact linkKept_goGrey s k
          · exact hput _

/-- What of an out-lane its queue is not part of. -/
theorem map_outLanes_of_fixed {γ : Type} (f : Lane → γ) (hf : ∀ a : Lane, f { a with q := [] } = f a) {l l' : Link}
    (h : fixedLink l' = fixedLink l) : l'.outLanes.map f = l.outLanes.map f := by
  have h1 : l'.outLanes.map (fun (a : Lane) => { a with q := [] }) = l.outLanes.map (fun (a : Lane) => { a with q := [] }) :=
    congrArg Link.outLanes h
  have h2 := congrArg (List.map f) h1
  rw [List.map_map, List.map_map] at h2
  have hc : (f ∘ fun (a : Lane) => { a with q := [] }) = f := funext hf
  rwa [hc] at h2

theorem map_inLanes_of_fixed {γ : Type} (f : Lane → γ) (hf : ∀ a : Lane, f (laneJoined a) = f a) {l l' : Link}
    (h : fixedLink l' = fixedLink l) : l'.inLanes.map f = l.inLanes.map f := by
  have h1 : l'.inLanes.map laneJoined = l.inLanes.map laneJoined := congrArg Link.inLanes h
  have h2 := congrArg (List.map f) h1
  rw [List.map_map, List.map_map] at h2
  have hc : f ∘ laneJoined = f := funext hf
  rwa [hc] at h2

/-- What holds of every out-lane of a link holds of them once it has settled, if it does not look at their queues. -/
theorem forall_outLanes_of_fixed {P : Lane → Prop} (hP : ∀ a : Lane, P { a with q := [] } = P a) {l l' : Link}
    (h : fixedLink l' = fixedLink l) : (∀ a ∈ l'.outLanes, P a) ↔ ∀ a ∈ l.outLanes, P a := by
  have hm := map_outLanes_of_fixed P hP h
  have hall (ls : List Lane) : (∀ a ∈ ls, P a) ↔ ∀ p ∈ ls.map P, p := by simp only [List.forall_mem_map]
  rw [hall, hall, hm]

theorem given_sendCtl {s : State} {k : Nat} {c : Ctl} (hk : k < s.links.length) (h : CanSend s k c) : Given (sendCtl s k c) k c := by
  obtain ⟨hf, hl⟩ := h
  rw [given_iff, linkOf_sendCtl_self s k c hk]
  exact holdsCtl_ctlGiven _ _ _ hf hl

theorem Given.of_links {s t : State} {k : Nat} {c : Ctl} (h : Given s k c) (ht : t.links = s.links) : Given t k c := by
  rw [given_iff] at h ⊢
  rwa [linkOf_congr ht]

end Sys2Proof.Machine

/-!
The calibration rotor: steps, proposals, aborts and the sweep of idle drop rings (R215 to R220, O21).
-/

namespace Sys2Proof.Machine

/-! ### Rotors and the spectral map after an update -/

theorem rotorOf_updRotor_self {s : State} {x : Nat} (f : Rotor → Rotor) (h : x < s.rotors.length) :
    rotorOf (updRotor s x f) x = f (rotorOf s x) := (rotorOf_updRotor s x x f).trans (if_pos ⟨rfl, h⟩)

theorem rotorOf_updRotor_ne (s : State) {x y : Nat} (f : Rotor → Rotor) (h : y ≠ x) : rotorOf (updRotor s x f) y = rotorOf s y :=
  (rotorOf_updRotor s x y f).trans (if_neg fun hx => h hx.1.symm)

theorem rotors_lt {s : State} {x : Nat} (hp : PartsOk s) (hx : x < 32) : x < s.rotors.length := by
  obtain ⟨-, -, -, -, -, -, -, -, -, h, -⟩ := hp
  exact h ▸ hx

theorem specMap_length {s : State} (hp : PartsOk s) : s.specMap.length = 544 := by
  obtain ⟨-, -, -, -, -, -, -, -, -, -, h, -⟩ := hp
  exact h

theorem specOf_updSpec_self {s : State} {x j : Nat} (f : MapEntry → MapEntry) (h : 17 * x + j < s.specMap.length) :
    specOf (updSpec s x j f) x j = f (specOf s x j) :=
  (getD_modifyAt s.specMap (17 * x + j) (17 * x + j) f {}).trans (if_pos ⟨rfl, h⟩)

theorem specOf_congr {s t : State} (h : t.specMap = s.specMap) (x j : Nat) : specOf t x j = specOf s x j := by
  unfold specOf
  rw [h]

/-! ### A line turns grey (R216, Table OPT-6) -/

/-- The map's lines and the rotor once line a is grey. -/
def greyTurned (s : State) (x g a : Nat) : State :=
  updRotor (updSpec (updSpec s x g (fun e => { e with lineState := if e.lineState = 2 then 0 else e.lineState })) x a
    (fun e => { e with lineState := 2 })) x
    (fun r => { r with grey := a, next := none, phase := 1, lane := none, removed := none, aborts := 0, since := s.now })

theorem turnGrey_eq (s : State) (x g a : Nat) : turnGrey s x g a = moveRef (objInc
    (unlockRing (greyTurned s x g a) (modRing x a) (fun q => { q with parked := false, sweep := 0 })) Obj.rotorSteps) (laserOf x) := rfl

theorem modRing_lt {x a : Nat} (hx : x < 32) (ha : a < 17) : modRing x a < 1088 := by
  unfold modRing
  omega

theorem turnGrey_rotor (s : State) {x : Nat} (g a : Nat) (hx : x < s.rotors.length) :
    rotorOf (turnGrey s x g a) x = { rotorOf s x with
        grey := a, next := none, phase := 1, lane := none, removed := none, aborts := 0, since := s.now }
      ∧ ∀ y, y ≠ x → rotorOf (turnGrey s x g a) y = rotorOf s y := by
  rw [turnGrey_eq]
  have h : (moveRef (objInc (unlockRing (greyTurned s x g a) (modRing x a) (fun q => { q with parked := false, sweep := 0 }))
      Obj.rotorSteps) (laserOf x)).rotors = (greyTurned s x g a).rotors :=
    (moveRef_keeps State.rotors (fun _ _ => rfl) _ _).trans (unlockRing_keeps State.rotors (fun _ _ => rfl) _ _ _)
  generalize moveRef _ _ = t at h
  refine ⟨(rotorOf_congr h x).trans ?_, fun y hy => (rotorOf_congr h y).trans ?_⟩
  · exact rotorOf_updRotor_self (s := updSpec (updSpec s x g _) x a _) _ hx
  · exact rotorOf_updRotor_ne (updSpec (updSpec s x g _) x a _) _ hy

theorem turnGrey_line (s : State) {x a : Nat} (g : Nat) (hx : x < 32) (ha : a < 17) (hp : PartsOk s) :
    (specOf (turnGrey s x g a) x a).lineState = 2 := by
  rw [turnGrey_eq]
  have h : (moveRef (objInc (unlockRing (greyTurned s x g a) (modRing x a) (fun q => { q with parked := false, sweep := 0 }))
      Obj.rotorSteps) (laserOf x)).specMap = (greyTurned s x g a).specMap :=
    (moveRef_keeps State.specMap (fun _ _ => rfl) _ _).trans (unlockRing_keeps State.specMap (fun _ _ => rfl) _ _ _)
  rw [specOf_congr h]
  refine congrArg MapEntry.lineState (specOf_updSpec_self
    (s := updSpec s x g (fun e => { e with lineState := if e.lineState = 2 then 0 else e.lineState })) _ ?_)
  have hlen := specMap_length hp
  simp only [updSpec, modifyAt, List.length_modify]
  omega

theorem turnGrey_ring (s : State) {x a : Nat} (g : Nat) (hx : x < 32) (ha : a < 17) (hp : PartsOk s) :
    (ringOf (turnGrey s x g a) (modRing x a)).locked = false := by
  rw [turnGrey_eq, ringOf_congr (moveRef_keeps State.rings (fun _ _ => rfl) _ _)]
  exact congrArg Ring.locked (ringOf_unlockRing_self (greyTurned s x g a) (modRing x a) _ (rings_lt (s := s) hp (modRing_lt hx ha)))

theorem turnGrey_objs (s : State) (x g a : Nat) : Counted s (turnGrey s x g a) Obj.rotorSteps 1
    ∧ SameObjs s (turnGrey s x g a) (Obj.rotorSteps :: journalObjs) := by
  rw [turnGrey_eq]
  have h1 : SameObjs s (unlockRing (greyTurned s x g a) (modRing x a) (fun q => { q with parked := false, sweep := 0 })) journalObjs :=
    ((SameObjs.refl s _).of_dic (u := greyTurned s x g a) rfl).trans (sameObjs_unlockRing (greyTurned s x g a) _ _)
  generalize unlockRing _ _ _ = u at h1 ⊢
  have h2 := sameObjs_moveRef (objInc u Obj.rotorSteps) (laserOf x)
  refine ⟨?_, ((h1.mono (List.subset_cons_self _ _)).objInc _ List.mem_cons_self).trans (h2.mono (List.subset_cons_self _ _))⟩
  unfold Counted
  rw [h2 _ (by decide), objGet_objInc_self, h1 _ (by decide)]

theorem foot6_1_self (s : State) : foot6_1 s s = s := rfl

theorem turnGrey_frame (s : State) (x g a : Nat) : turnGrey s x g a = foot6_1 s (turnGrey s x g a) :=
  (foot6_1_self _).symm.trans (turnGrey_keeps (foot6_1 · (turnGrey s x g a)) (fun _ _ => rfl) s x g a)

/-! ### Steps (R215, R216, R218) -/

theorem rotorStep_runs {s : State} {x a : Nat} (hh : rotorHolds s x = false) (hph : (rotorOf s x).phase ≠ 3)
    (ht : (rotorOf s x).since + us (objGet s Obj.rotorStepUs) ≤ s.now) (hc : facetClear s x = true) (ha : a = nextOf s x)
    (hw : stepWaits s x a = false) : rotorStep s x = stepRotor s x (rotorOf s x).grey 17 a := by
  subst ha
  unfold rotorStep
  dsimp only
  rw [if_neg (by simp [hh, hph, Nat.not_lt.2 ht, hc, hw])]

theorem rotorStep_holds {s : State} {x : Nat} (hh : rotorHolds s x = true) : rotorStep s x = s := by
  unfold rotorStep
  dsimp only
  exact if_pos (by simp [hh])

theorem stepRotor_none {s : State} {x a : Nat} (g n : Nat) (h : findLane s true x a = none) : stepRotor s x g (n + 1) a = turnGrey s x g a := by
  rw [stepRotor, h]

theorem stepRotor_moves {s : State} {x a g k : Nat} {lane : Lane} (n : Nat) (h : findLane s true x a = some (k, lane))
    (hm : canMigrate s x a g k = true) : stepRotor s x g (n + 1) a
      = updRotor s x (fun r => { r with next := some a, phase := 1, lane := none, since := s.now }) := by
  rw [stepRotor, h]
  exact if_pos hm

theorem stepRotor_skips {s : State} {x a g k : Nat} {lane : Lane} (n : Nat) (h : findLane s true x a = some (k, lane))
    (hm : canMigrate s x a g k = false) (hl : ((linkOf s k).outLanes.filter laneUp).length ≤ 1) :
    stepRotor s x g (n + 1) a = stepRotor (objInc s Obj.rotorSkips) x g n (nextLine s x 17 a) := by
  rw [stepRotor, h]
  exact (if_neg (by simp [hm])).trans (if_pos hl)

/-- The lane of a line taken off its link for a step, and its link settled. -/
def stepLaneOff (s : State) (k : Nat) (lane : Lane) : State :=
  settleLink (updLane (sendCtl s k (.laneLeave lane.idx (linkOf s k).txSeq)) k true lane.idx (fun l => { l with why := 5, q := [] })) k

theorem stepRotor_leaves {s : State} {x a g k : Nat} {lane : Lane} (n : Nat) (h : findLane s true x a = some (k, lane))
    (hm : canMigrate s x a g k = false) (hl : 1 < ((linkOf s k).outLanes.filter laneUp).length) : stepRotor s x g (n + 1) a
      = updRotor (turnGrey (stepLaneOff s k lane) x g a) x (fun r => { r with removed := some (k, lane.idx) }) := by
  rw [stepRotor, h]
  exact (if_neg (by simp [hm])).trans (if_neg (by omega))

theorem sameObjs_stepLaneOff (s : State) {k : Nat} (lane : Lane) (hk : k < 64) : SameObjs s (stepLaneOff s k lane) linkObjs := by
  unfold stepLaneOff
  exact (((sameObjs_control s k _).mono stalls_sub_link).of_dic (u := updLane _ k true lane.idx _) rfl).trans (sameObjs_settle _ hk)

theorem why_stepLaneOff (s : State) {k : Nat} (lane : Lane) (hk : k < s.links.length) :
    ∀ l ∈ (linkOf (stepLaneOff s k lane) k).outLanes, l.idx = lane.idx → l.why = 5 := by
  have hlen := (linkKept_sendCtl s k (.laneLeave lane.idx (linkOf s k).txSeq)).1
  unfold stepLaneOff
  generalize sendCtl s k _ = u at *
  obtain ⟨-, hfixed, -⟩ := linkKept_settleLink (updLane u k true lane.idx (fun l => { l with why := 5, q := [] })) k
  refine (forall_outLanes_of_fixed (P := fun l => l.idx = lane.idx → l.why = 5) (fun _ => rfl) hfixed).2 ?_
  rw [updLane, linkOf_updLink_self _ _ _ (hlen.symm ▸ hk)]
  intro l hl
  obtain ⟨b, -, rfl⟩ := List.mem_map.1 hl
  intro hi
  split at hi
  next hb => rw [if_pos hb]
  next hb => exact absurd hi hb

theorem foot10_1_self (s : State) : foot10_1 s s = s := rfl

theorem rotorStep_grey {x a : Nat} {s : State} (hx : x < 32) (hp : PartsOk s) (ha : a < 17)
    (hrun : rotorStep s x = stepRotor s x (rotorOf s x).grey 17 a) (hf : findLane s true x a = none) :
    ∃ t, exec (.rotorStep x) s = .next t
      ∧ t = { s with dic := t.dic, lasers := t.lasers, rings := t.rings, rotors := t.rotors, specMap := t.specMap, obs := t.obs }
      ∧ rotorOf t x = { rotorOf s x with
          grey := a, next := none, phase := 1, lane := none, removed := none, aborts := 0, since := s.now }
      ∧ (specOf t x a).lineState = 2 ∧ (ringOf t (modRing x a)).locked = false ∧ (∀ y, y ≠ x → rotorOf t y = rotorOf s y)
      ∧ Counted s t Obj.rotorSteps 1 ∧ SameObjs s t (Obj.rotorSteps :: journalObjs) := by
  obtain ⟨h1, h2⟩ := turnGrey_rotor s (rotorOf s x).grey a (rotors_lt hp hx)
  obtain ⟨h3, h4⟩ := turnGrey_objs s x (rotorOf s x).grey a
  exact ⟨turnGrey s x (rotorOf s x).grey a, (need_lt hx _).trans (congrArg Host.Outcome.next (hrun.trans (stepRotor_none _ 16 hf))),
    turnGrey_frame s x _ a, h1, turnGrey_line s _ hx ha hp, turnGrey_ring s _ hx ha hp, h2, h3, h4⟩

theorem rotorStep_skipped {x a k : Nat} {lane : Lane} {s : State} (hx : x < 32) (hp : PartsOk s)
    (hrun : rotorStep s x = stepRotor s x (rotorOf s x).grey 17 a) (hf : findLane s true x a = some (k, lane))
    (hm : canMigrate s x a (rotorOf s x).grey k = false) (hl : ((linkOf s k).outLanes.filter laneUp).length ≤ 1)
    (hnext : findLane s true x (nextLine s x 17 a) = none) :
    ∃ t, exec (.rotorStep x) s = .next t ∧ Counted s t Obj.rotorSkips 1 ∧ Counted s t Obj.rotorSteps 1
      ∧ (rotorOf t x).grey = nextLine s x 17 a ∧ t.links = s.links ∧ SameObjs s t (Obj.rotorSkips :: Obj.rotorSteps :: journalObjs) := by
  have hstep : rotorStep s x = turnGrey (objInc s Obj.rotorSkips) x (rotorOf s x).grey (nextLine s x 17 a) :=
    hrun.trans ((stepRotor_skips 16 hf hm hl).trans (stepRotor_none _ 15 hnext))
  have hskip : SameObjs s (objInc s Obj.rotorSkips) [Obj.rotorSkips] := SameObjs.objInc (SameObjs.refl s _) _ List.mem_cons_self
  have hcount : Counted s (objInc s Obj.rotorSkips) Obj.rotorSkips 1 := objGet_objInc_self s _
  have hrotors : x < (objInc s Obj.rotorSkips).rotors.length := rotors_lt hp hx
  have hlinks : (objInc s Obj.rotorSkips).links = s.links := rfl
  generalize objInc s Obj.rotorSkips = u at *
  obtain ⟨h1, -⟩ := turnGrey_rotor u (rotorOf s x).grey (nextLine s x 17 a) hrotors
  obtain ⟨h3, h4⟩ := turnGrey_objs u x (rotorOf s x).grey (nextLine s x 17 a)
  refine ⟨_, (need_lt hx _).trans (congrArg Host.Outcome.next hstep), (h4 _ (by decide)).trans hcount, ?_, congrArg Rotor.grey h1,
    (turnGrey_keeps State.links (fun _ _ => rfl) u x _ _).trans hlinks,
    (hskip.mono (by simp)).trans (h4.mono (List.subset_cons_self _ _))⟩
  unfold Counted at h3 ⊢
  rw [h3, hskip _ (by decide)]

/-- What a rotor's step may change. -/
def stepFoot (s t : State) : State :=
  { s with out := t.out, dic := t.dic, lasers := t.lasers, rings := t.rings, rotors := t.rotors, specMap := t.specMap
           links := t.links, routerW := t.routerW, routerE := t.routerE, outst := t.outst, obs := t.obs }

theorem stepFoot_self (s : State) : stepFoot s s = s := rfl

theorem rotorStep_left {x a k : Nat} {lane : Lane} {s : State} (hx : x < 32) (hp : PartsOk s)
    (hrun : rotorStep s x = stepRotor s x (rotorOf s x).grey 17 a) (hf : findLane s true x a = some (k, lane))
    (hm : canMigrate s x a (rotorOf s x).grey k = false) (hl : 1 < ((linkOf s k).outLanes.filter laneUp).length) :
    ∃ t, exec (.rotorStep x) s = .next t ∧ (rotorOf t x).removed = some (k, lane.idx) ∧ (rotorOf t x).grey = a
      ∧ t = stepFoot s t ∧ (∀ l ∈ (linkOf t k).outLanes, l.idx = lane.idx → l.why = 5)
      ∧ Counted s t Obj.rotorSteps 1 ∧ SameObjs s t (Obj.rotorSteps :: linkObjs) := by
  have hframe : rotorStep s x = stepFoot s (rotorStep s x) :=
    (stepFoot_self _).symm.trans (rotorStep_keeps (stepFoot · (rotorStep s x)) (fun _ _ => rfl) s x)
  have hstep := hrun.trans (stepRotor_leaves 16 hf hm hl)
  have hk := findLane_lt hp hf
  have hkl := (findLane_some hf).1
  have hoff := sameObjs_stepLaneOff s lane hk
  have hwhy := why_stepLaneOff s lane hkl
  have hparts : PartsOk (stepLaneOff s k lane) := settleLink_partsOk _ k (updLane_partsOk _ k true _ _ (sendCtl_partsOk s k _ hp))
  generalize stepLaneOff s k lane = u at *
  obtain ⟨h1, -⟩ := turnGrey_rotor u (rotorOf s x).grey a (rotors_lt hparts hx)
  obtain ⟨h3, h4⟩ := turnGrey_objs u x (rotorOf s x).grey a
  have hlinks := turnGrey_keeps State.links (fun _ _ => rfl) u x (rotorOf s x).grey a
  have hxt := rotors_lt (turnGrey_partsOk u x (rotorOf s x).grey a hparts) hx
  generalize turnGrey u x (rotorOf s x).grey a = w at *
  have hself := rotorOf_updRotor_self (fun r => { r with removed := some (k, lane.idx) }) hxt
  rw [hstep] at hframe
  refine ⟨_, (need_lt hx _).trans (congrArg Host.Outcome.next hstep), congrArg Rotor.removed hself,
    (congrArg Rotor.grey hself).trans (congrArg Rotor.grey h1), hframe, ?_, ?_, (hoff.mono (List.subset_cons_self _ _)).trans
      (h4.mono (List.cons_subset_cons _ journalObjs_sub_link))⟩
  · show ∀ l ∈ (linkOf w k).outLanes, l.idx = lane.idx → l.why = 5
    rw [linkOf_congr hlinks]
    exact hwhy
  · unfold Counted at h3 ⊢
    rw [hoff _ (not_mem_linkObjs (by decide))] at h3
    exact h3

/-! ### The grey line locked (R216, R220) -/

/-- The ring of the grey line locked. -/
def greyLocked (s : State) (x : Nat) : State :=
  updRing s (modRing x (rotorOf s x).grey) (fun g => { g with locked := true, parked := false, bad := 0, fullFails := 0 })

theorem rotorLocked_eq (s : State) (x : Nat) : rotorLocked s x = if (rotorOf s x).phase ≠ 1 ∨ rotorHolds s x = true then s else
    match findLane s true x (nextOf s x) with
    | none => updRotor (greyLocked s x) x (fun r => { r with phase := 2 })
    | some (k, lane) =>
      if !canMigrate s x (nextOf s x) (rotorOf s x).grey k then updRotor (greyLocked s x) x (fun r => { r with phase := 2 })
      else if lane.why ≠ 0 then abortRotor (greyLocked s x) x
      else
        updRotor (sendCtl (greyLocked s x) k (.propose lane.idx (nextOf s x) (rotorOf s x).grey)) x
          (fun r => { r with next := some (nextOf s x), phase := 3, lane := some (k, lane.idx), proposed := s.now }) := by
  unfold rotorLocked
  rfl

theorem rotorLocked_waits {s : State} {x : Nat} (hh : rotorHolds s x = false) (hph : (rotorOf s x).phase = 1)
    (hno : ∀ k lane, findLane s true x (nextOf s x) = some (k, lane) → canMigrate s x (nextOf s x) (rotorOf s x).grey k = false) :
    rotorLocked s x = updRotor (greyLocked s x) x (fun r => { r with phase := 2 }) := by
  rw [rotorLocked_eq, if_neg (by simp [hh, hph])]
  cases hf : findLane s true x (nextOf s x) with
  | none => rfl
  | some y =>
    obtain ⟨k, lane⟩ := y
    exact if_pos (by simp [hno k lane hf])

theorem rotorLocked_moves {s : State} {x k : Nat} {lane : Lane} (hh : rotorHolds s x = false) (hph : (rotorOf s x).phase = 1)
    (hf : findLane s true x (nextOf s x) = some (k, lane)) (hm : canMigrate s x (nextOf s x) (rotorOf s x).grey k = true) :
    rotorLocked s x = if lane.why ≠ 0 then abortRotor (greyLocked s x) x
      else
        updRotor (sendCtl (greyLocked s x) k (.propose lane.idx (nextOf s x) (rotorOf s x).grey)) x
          (fun r => { r with next := some (nextOf s x), phase := 3, lane := some (k, lane.idx), proposed := s.now }) := by
  rw [rotorLocked_eq, if_neg (by simp [hh, hph]), hf]
  exact if_neg (by simp [hm])

theorem rotorLineLocked_waits (x a : Nat) (s : State) (hx : x < 32) (hp : PartsOk s) (hg : (rotorOf s x).grey < 17)
    (hh : rotorHolds s x = false) (hph : (rotorOf s x).phase = 1) (ha : a = nextOf s x)
    (hno : ∀ k lane, findLane s true x a = some (k, lane) → canMigrate s x a (rotorOf s x).grey k = false) :
    ∃ t, exec (.rotorLineLocked x) s = .next t ∧ t = { s with rings := t.rings, rotors := t.rotors }
      ∧ rotorOf t x = { rotorOf s x with phase := 2 } ∧ (ringOf t (modRing x (rotorOf s x).grey)).locked = true
      ∧ (∀ q, q ≠ modRing x (rotorOf s x).grey → ringOf t q = ringOf s q) := by
  subst ha
  refine ⟨_, (need_lt hx _).trans (congrArg Host.Outcome.next (rotorLocked_waits hh hph hno)), rfl, ?_, ?_, fun q hq => ?_⟩
  · exact rotorOf_updRotor_self (s := greyLocked s x) _ (rotors_lt (s := s) hp hx)
  · exact congrArg Ring.locked (ringOf_updRing_self s (modRing x (rotorOf s x).grey) _ (rings_lt hp (modRing_lt hx hg)))
  · exact ringOf_updRing_ne s _ hq

/-- What an aborted step may change. -/
def abortFoot (s t : State) : State := { s with dic := t.dic, rings := t.rings, rotors := t.rotors, obs := t.obs }

theorem abortFoot_self (s : State) : abortFoot s s = s := rfl

theorem footDicLinks_self (s : State) : footDicLinks s s = s := rfl

theorem abortRotor_rotor (s : State) {x : Nat} (hx : x < s.rotors.length) :
    rotorOf (abortRotor s x) x = stepAborted ((rotorOf s x).aborts + 1) (rotorOf s x) := by
  have hself : rotorOf (objInc (updRotor s x (stepAborted ((rotorOf s x).aborts + 1))) Obj.rotorAborts) x = _ :=
    rotorOf_updRotor_self (stepAborted ((rotorOf s x).aborts + 1)) hx
  rw [abortRotor_eq]
  split
  · rw [rotorOf_congr (journal_keeps State.rotors (fun _ _ => rfl) _ _ _)]
    exact hself
  · exact hself

theorem counted_abortRotor (s : State) (x : Nat) : Counted s (abortRotor s x) Obj.rotorAborts 1 := by
  rw [abortRotor_eq]
  have h : Counted s (objInc (updRotor s x (stepAborted ((rotorOf s x).aborts + 1))) Obj.rotorAborts) Obj.rotorAborts 1 :=
    objGet_objInc_self (updRotor s x _) _
  split
  · exact (objGet_journal _ _ _ _ (by decide) (by decide)).trans h
  · exact h

theorem rotorLineLocked_aborts (x a k : Nat) (lane : Lane) (s : State) (hx : x < 32) (hp : PartsOk s) (_hg : (rotorOf s x).grey < 17)
    (hh : rotorHolds s x = false) (hph : (rotorOf s x).phase = 1) (ha : a = nextOf s x) (hf : findLane s true x a = some (k, lane))
    (hw : lane.why ≠ 0) (hm : canMigrate s x a (rotorOf s x).grey k = true) :
    ∃ t, exec (.rotorLineLocked x) s = .next t ∧ t = { s with dic := t.dic, rings := t.rings, rotors := t.rotors, obs := t.obs }
      ∧ (rotorOf t x).phase = 0 ∧ (rotorOf t x).aborts = (rotorOf s x).aborts + 1 ∧ Counted s t Obj.rotorAborts 1
      ∧ SameObjs s t (Obj.rotorAborts :: journalObjs) := by
  subst ha
  have hstep : rotorLocked s x = abortRotor (greyLocked s x) x := (rotorLocked_moves hh hph hf hm).trans (if_pos hw)
  have hself := abortRotor_rotor (greyLocked s x) (x := x) (rotors_lt (s := s) hp hx)
  exact ⟨_, (need_lt hx _).trans (congrArg Host.Outcome.next hstep),
    (abortFoot_self _).symm.trans (abortRotor_keeps (abortFoot · (abortRotor (greyLocked s x) x)) (fun _ _ => rfl) (greyLocked s x) x),
    congrArg Rotor.phase hself, congrArg Rotor.aborts hself, counted_abortRotor (greyLocked s x) x, sameObjs_abortRotor (greyLocked s x) x⟩

theorem rotorLineLocked_proposes (x a k : Nat) (lane : Lane) (s : State) (hx : x < 32) (hp : PartsOk s) (_hg : (rotorOf s x).grey < 17)
    (hh : rotorHolds s x = false) (hph : (rotorOf s x).phase = 1) (ha : a = nextOf s x) (hf : findLane s true x a = some (k, lane))
    (hw : lane.why = 0) (hm : canMigrate s x a (rotorOf s x).grey k = true) (hc : CanSend s k (.propose lane.idx a (rotorOf s x).grey)) :
    ∃ t, exec (.rotorLineLocked x) s = .next t ∧ t = { s with dic := t.dic, rings := t.rings, rotors := t.rotors, links := t.links }
      ∧ rotorOf t x = { rotorOf s x with next := some a, phase := 3, lane := some (k, lane.idx), proposed := s.now }
      ∧ Given t k (.propose lane.idx a (rotorOf s x).grey) ∧ SameObjs s t [Obj.retryWindowStalls]
      ∧ (∀ y, y ≠ x → rotorOf t y = rotorOf s y) ∧ (∀ i, i ≠ k → linkOf t i = linkOf s i) := by
  subst ha
  have hstep := (rotorLocked_moves hh hph hf hm).trans (if_neg (not_not_intro hw))
  have hk := (findLane_some hf).1
  have hgiven : Given (sendCtl (greyLocked s x) k (.propose lane.idx (nextOf s x) (rotorOf s x).grey)) k
      (.propose lane.idx (nextOf s x) (rotorOf s x).grey) := given_sendCtl (s := greyLocked s x) hk hc
  have hobjs : SameObjs s (sendCtl (greyLocked s x) k (.propose lane.idx (nextOf s x) (rotorOf s x).grey)) [Obj.retryWindowStalls] :=
    sameObjs_control (greyLocked s x) k _
  have hframe : sendCtl (greyLocked s x) k (.propose lane.idx (nextOf s x) (rotorOf s x).grey)
      = footDicLinks (greyLocked s x) (sendCtl (greyLocked s x) k (.propose lane.idx (nextOf s x) (rotorOf s x).grey)) :=
    (footDicLinks_self _).symm.trans (sendCtl_keeps (footDicLinks · _) (fun _ _ => rfl) (greyLocked s x) k _)
  have hne := fun i (hi : i ≠ k) => linkOf_sendCtl_ne (greyLocked s x) k i (.propose lane.idx (nextOf s x) (rotorOf s x).grey) hi
  generalize sendCtl (greyLocked s x) k _ = u at *
  have hrotors : u.rotors = s.rotors := by
    rw [hframe]
    rfl
  refine ⟨_, (need_lt hx _).trans (congrArg Host.Outcome.next hstep), ?_, ?_, hgiven, hobjs, fun y hy => ?_, hne⟩
  · rw [hframe]
    rfl
  · refine (rotorOf_updRotor_self _ (by rw [hrotors]; exact rotors_lt hp hx)).trans ?_
    rw [rotorOf_congr hrotors]
  · exact (rotorOf_updRotor_ne u _ hy).trans (rotorOf_congr hrotors y)

/-! ### A proposal not accepted (R220) -/

theorem rotorLate_due {s : State} {x : Nat} (hph : (rotorOf s x).phase = 3) (ht : (rotorOf s x).proposed + us 50 ≤ s.now) :
    rotorLate s x = abortTold s x := if_pos ⟨hph, ht⟩

/-- The state in which a proposal's abort has been told to the other end. -/
def abortSent (s : State) (x : Nat) : State :=
  match (rotorOf s x).lane with
  | some (k, i) => sendCtl s k (.rotorAbort { own := true, idx := i })
  | none => s

theorem abortTold_eq (s : State) (x : Nat) : abortTold s x = abortRotor (abortSent s x) x := by
  unfold abortTold abortSent
  cases (rotorOf s x).lane <;> rfl

theorem sameObjs_abortSent (s : State) (x : Nat) : SameObjs s (abortSent s x) [Obj.retryWindowStalls] := by
  unfold abortSent
  split
  · exact sameObjs_control s _ _
  · exact SameObjs.refl s _

theorem rotors_abortSent (s : State) (x : Nat) : (abortSent s x).rotors = s.rotors := by
  unfold abortSent
  split
  · exact sendCtl_keeps State.rotors (fun _ _ => rfl) s _ _
  · rfl

theorem foot4_11_self (s : State) : foot4_11 s s = s := rfl

theorem rotorAcceptTimeout_holds (x : Nat) (s : State) (hx : x < 32) (hph : (rotorOf s x).phase = 3)
    (ht : (rotorOf s x).proposed + us 50 ≤ s.now) :
    ∃ t, exec (.rotorAcceptTimeout x) s = .next t
      ∧ t = { s with dic := t.dic, rotors := t.rotors, links := t.links, obs := t.obs }
      ∧ (∀ k i, (rotorOf s x).lane = some (k, i) → k < s.links.length → CanSend s k (.rotorAbort { own := true, idx := i }) →
          Given t k (.rotorAbort { own := true, idx := i }))
      ∧ (rotorOf t x).phase = 0 ∧ (rotorOf t x).lane = none ∧ (rotorOf t x).grey = (rotorOf s x).grey
      ∧ (rotorOf t x).aborts = (rotorOf s x).aborts + 1 ∧ (rotorOf t x).held = ((rotorOf s x).held || decide (7 ≤ (rotorOf s x).aborts))
      ∧ Counted s t Obj.rotorAborts 1 ∧ SameObjs s t (Obj.rotorAborts :: Obj.retryWindowStalls :: journalObjs) := by
  have hlen : x < s.rotors.length := by
    by_contra hge
    rw [rotorOf_of_le s (by omega)] at hph
    exact absurd hph (by decide)
  have hrotor := abortRotor_rotor (abortSent s x) (x := x) (by rw [rotors_abortSent]; exact hlen)
  rw [rotorOf_congr (rotors_abortSent s x)] at hrotor
  have hcount := counted_abortRotor (abortSent s x) x
  have hsent := sameObjs_abortSent s x
  rw [← abortTold_eq] at hrotor hcount
  refine ⟨abortTold s x, (need_lt hx _).trans (congrArg Host.Outcome.next (rotorLate_due hph ht)),
    (foot4_11_self _).symm.trans (abortTold_keeps (foot4_11 · (abortTold s x)) (fun _ _ => rfl) s x), fun k i hl hk hc => ?_,
    (by rw [hrotor]; rfl), (by rw [hrotor]; rfl), (by rw [hrotor]; rfl), (by rw [hrotor]; rfl), ?_, ?_,
    sameObjs_abortTold s x⟩
  · rw [abortTold_eq, abortSent, hl]
    exact Given.of_links (given_sendCtl hk hc) (abortRotor_keeps State.links (fun _ _ => rfl) _ x)
  · refine (congrArg Rotor.held hrotor).trans (congrArg ((rotorOf s x).held || ·) ?_)
    exact decide_eq_decide.2 (by omega)
  · unfold Counted at hcount ⊢
    rw [hcount, hsent _ (by decide)]

/-! ### Idle drop rings (R219) -/

/-- One drop ring swept, where its line carries no lane. -/
def dropSwept (k m : Nat) (s : State) (j : Nat) : State :=
  if (findLane s false k j).isSome || ringRetired s (dropRing k j) then s
  else updRing s (dropRing k j) (fun g => { g with locked := natBit j m, bad := 0 })

theorem idleSweep_eq (s : State) (k m : Nat) :
    idleSweep s k m = { (List.range 17).foldl (dropSwept k m) s with
      sweptAt := ((List.range 17).foldl (dropSwept k m) s).sweptAt.set k ((List.range 17).foldl (dropSwept k m) s).now } := rfl

theorem dropSwept_eq (k m : Nat) (s : State) (j : Nat) : dropSwept k m s j = { s with rings := (dropSwept k m s j).rings } := by
  unfold dropSwept
  split <;> rfl

theorem dropSwept_ne (k m : Nat) (s : State) (j : Nat) {q : Nat} (h : q ≠ dropRing k j) : ringOf (dropSwept k m s j) q = ringOf s q := by
  unfold dropSwept
  split
  · rfl
  · exact ringOf_updRing_ne s _ h

/-- What the drop rings' sweep has changed: the rings of the lines swept, each as its own line says. -/
structure DropsSwept (k m : Nat) (s t : State) (n : Nat) : Prop where
  rest : t = { s with rings := t.rings }
  size : t.rings.length = s.rings.length
  swept : ∀ j, j < n → ((findLane s false k j).isSome || ringRetired s (dropRing k j)) = false →
    (ringOf t (dropRing k j)).locked = natBit j m
  kept : ∀ q, (∀ j, j < n → ((findLane s false k j).isSome || ringRetired s (dropRing k j)) = false → q ≠ dropRing k j) →
    ringOf t q = ringOf s q

theorem dropsSwept_range (k m : Nat) (s : State) (hk : k < 32) (hp : PartsOk s) (n : Nat) (hn : n ≤ 17) :
    DropsSwept k m s ((List.range n).foldl (dropSwept k m) s) n := by
  induction n with
  | zero => exact ⟨rfl, rfl, fun j hj => absurd hj (by omega), fun _ _ => rfl⟩
  | succ n ih =>
    obtain ⟨hrest, hsize, hswept, hkept⟩ := ih (by omega)
    rw [List.range_succ, List.foldl_append, List.foldl_cons, List.foldl_nil]
    generalize (List.range n).foldl (dropSwept k m) s = u at *
    have hcond : ((findLane u false k n).isSome || ringRetired u (dropRing k n))
        = ((findLane s false k n).isSome || ringRetired s (dropRing k n)) := by
      rw [hrest]
      rfl
    have hne {i j : Nat} (h : i ≠ j) : dropRing k i ≠ dropRing k j := by
      unfold dropRing
      omega
    refine ⟨?_, ?_, fun j hj hc => ?_, fun q hq => ?_⟩
    · have h := dropSwept_eq k m u n
      generalize dropSwept k m u n = w at h
      rw [h, hrest]
    · refine Eq.trans ?_ hsize
      unfold dropSwept
      split
      · rfl
      · simp [updRing, modifyAt]
    · rcases Nat.lt_succ_iff_lt_or_eq.1 hj with hj | rfl
      · rw [dropSwept_ne k m u n (hne (by omega))]
        exact hswept j hj hc
      · unfold dropSwept
        rw [hcond, hc]
        refine congrArg Ring.locked (ringOf_updRing_self u (dropRing k j) _ ?_)
        rw [hsize]
        refine rings_lt hp ?_
        unfold dropRing
        omega
    · by_cases hc : ((findLane s false k n).isSome || ringRetired s (dropRing k n)) = false
      · rw [dropSwept_ne k m u n (hq n (by omega) hc)]
        exact hkept q fun j hj => hq j (by omega)
      · unfold dropSwept
        rw [hcond, if_pos (Bool.eq_true_of_not_eq_false hc)]
        exact hkept q fun j hj => hq j (by omega)

theorem idleDropSweep_holds (k j m : Nat) (s : State) (hk : k < 32) (hp : PartsOk s) (hj : j < 17) :
    ∃ t, exec (.idleDropSweep k m) s = .next t ∧ t = { s with rings := t.rings, sweptAt := s.sweptAt.set k s.now }
      ∧ (findLane s false k j = none → ringRetired s (dropRing k j) = false → (ringOf t (dropRing k j)).locked = natBit j m)
      ∧ ((findLane s false k j).isSome = true ∨ ringRetired s (dropRing k j) = true → ringOf t (dropRing k j) = ringOf s (dropRing k j))
      ∧ (∀ q, q < dropRing k 0 ∨ dropRing k 16 < q → ringOf t q = ringOf s q) := by
  obtain ⟨hrest, -, hswept, hkept⟩ := dropsSwept_range k m s hk hp 17 le_rfl
  have heq := idleSweep_eq s k m
  generalize (List.range 17).foldl (dropSwept k m) s = u at *
  have hexec : exec (.idleDropSweep k m) s = .next { u with sweptAt := u.sweptAt.set k u.now } :=
    (need_lt hk _).trans (congrArg Host.Outcome.next heq)
  refine ⟨_, hexec, ?_, fun h1 h2 => hswept j hj (by simp [h1, h2]), fun h => hkept _ fun i hi hc hne => ?_,
    fun q hq => hkept q fun i hi _ hne => ?_⟩
  · rw [hrest]
  · have hij : i = j := by
      unfold dropRing at hne
      omega
    subst hij
    rcases h with h | h <;> simp [h] at hc
  · unfold dropRing at *
    omega

/-- Settles O21: a rotor's step does one of four things to its next line, and an abort leaves the grey line as it was. -/
theorem rotorStepsProposesAndAborts : Obligations.RotorStepsProposesAndAborts := by
  unfold Obligations.RotorStepsProposesAndAborts
  refine ⟨fun x a s hx hp _ ha hh hph ht hc hn hw => ?_, fun x s hx hh => (need_lt hx _).trans (congrArg Host.Outcome.next (rotorStep_holds hh)),
    rotorLineLocked_waits, rotorLineLocked_aborts, fun x s hx h => (need_lt hx _).trans (congrArg Host.Outcome.next ?_),
    rotorLineLocked_proposes, rotorAcceptTimeout_holds, idleDropSweep_holds⟩
  · have hrun := rotorStep_runs hh hph ht hc hn hw
    refine ⟨rotorStep_grey hx hp ha hrun, fun k lane hf => ⟨fun hm => ?_, fun hm hl hnx _ => rotorStep_skipped hx hp hrun hf hm hl hnx,
      fun hm hl => rotorStep_left hx hp hrun hf hm hl⟩⟩
    exact ⟨_, (need_lt hx _).trans (congrArg Host.Outcome.next (hrun.trans (stepRotor_moves 16 hf hm))), rfl,
      rotorOf_updRotor_self _ (rotors_lt hp hx), fun y hy => rotorOf_updRotor_ne s _ hy⟩
  · rw [rotorLocked_eq]
    exact if_pos h

end Sys2Proof.Machine

/-!
Beacons, the spectral map and lines on demand (R225 to R227, R245 to R248, O22).
-/

namespace Sys2Proof.Machine

/-! ### The map, links and folds over parts -/

theorem specOf_updSpec_ne (s : State) {x j y i : Nat} (f : MapEntry → MapEntry) (hj : j < 17) (hi : i < 17)
    (h : (y, i) ≠ (x, j)) : specOf (updSpec s x j f) y i = specOf s y i := by
  refine (getD_modifyAt s.specMap (17 * x + j) (17 * y + i) f {}).trans (if_neg fun hx => h ?_)
  have : y = x ∧ i = j := by omega
  rw [this.1, this.2]

theorem spec_lt {s : State} {x j : Nat} (hp : PartsOk s) (hx : x < 32) (hj : j < 17) : 17 * x + j < s.specMap.length := by
  rw [specMap_length hp]
  omega

theorem SameObjs.foldl_parts {α : Type} {ks : List Nat} (f : State → α → State)
    (hf : ∀ u a, PartsOk u → SameObjs u (f u a) ks ∧ PartsOk (f u a)) (l : List α) (s : State) (hp : PartsOk s) :
    SameObjs s (l.foldl f s) ks := by
  induction l generalizing s with
  | nil => exact SameObjs.refl s _
  | cons a l ih => exact (hf s a hp).1.trans (ih _ (hf s a hp).2)

theorem chip_of_sameObjs {s t : State} {ks : List Nat} (h : SameObjs s t ks) (hk : chipKey ∉ ks) : chip t = chip s := h chipKey hk

/-! ### Beacons sent (R225, R245) -/

/-- The grey line's ring parked before its beacon, if the step has come so far (Table OPT-6). -/
def beaconParked (s : State) (x j : Nat) : State :=
  if (rotorOf s x).grey = j ∧ (rotorOf s x).phase = 1 then parkRing s (modRing x j) else s

theorem sendBeacon_eq (s : State) (x j : Nat) : sendBeacon s x j =
    if isLit (specOf s x j) || (specOf s x j).lineState == 5 || (laserAt s (laserOf x)).dark || s.tapped.contains x
        || !fibreUp s x then s
    else dropReports (emit (beaconParked s x j) (.beacon x j
      (beaconWords (beaconParked s x j) x j (beaconReports (beaconParked s x j) x j)))) (beaconReports (beaconParked s x j) x j) := rfl

theorem beaconParked_keeps {γ : Type} (vw : State → γ) (hg : ∀ s t, vw (foot4_5 s t) = vw s) (s : State) (x j : Nat) :
    vw (beaconParked s x j) = vw s := by
  unfold beaconParked
  split
  · exact parkRing_keeps vw hg s _
  · rfl

theorem sameObjs_beaconParked (s : State) (x j : Nat) : SameObjs s (beaconParked s x j) journalObjs := by
  unfold beaconParked
  split
  · exact sameObjs_parkRing s _
  · exact SameObjs.refl s _

theorem beaconReports_congr {s t : State} (hm : t.specMap = s.specMap) (hh : t.heard = s.heard) (x j : Nat) :
    beaconReports t x j = beaconReports s x j := by
  unfold beaconReports
  rw [specOf_congr hm, hh]

theorem beaconWords_congr {s t : State} (h : SameObjs s t journalObjs) (x j : Nat) (rs : List BeaconReport) :
    beaconWords t x j rs = beaconWords s x j rs := by
  unfold beaconWords
  rw [chip_of_sameObjs h (by decide), h Obj.firmwareVersion (by decide)]

theorem not_mem_dropReports (s : State) (rs : List BeaconReport) : ∀ r ∈ rs, ∀ e ∈ (dropReports s rs).heard, r ∉ e.2 := by
  intro r hr e he hre
  obtain ⟨he, -⟩ := List.mem_filter.mp he
  obtain ⟨a, -, rfl⟩ := List.mem_map.mp he
  have hkept := (List.mem_filter.mp hre).2
  simp [hr] at hkept

/-- The state after a beacon, its parking apart. -/
def beaconSent (s : State) (x j : Nat) : State :=
  dropReports (emit (beaconParked s x j) (.beacon x j (beaconWords s x j (beaconReports s x j)))) (beaconReports s x j)

theorem sendBeacon_sent {s : State} {x j : Nat} (h : (isLit (specOf s x j) || (specOf s x j).lineState == 5
      || (laserAt s (laserOf x)).dark || s.tapped.contains x || !fibreUp s x) = false) :
    sendBeacon s x j = beaconSent s x j := by
  rw [sendBeacon_eq, if_neg (Bool.eq_false_iff.mp h), beaconWords_congr (sameObjs_beaconParked s x j),
    beaconReports_congr (beaconParked_keeps State.specMap (fun _ _ => rfl) s x j)
      (beaconParked_keeps State.heard (fun _ _ => rfl) s x j)]
  rfl

theorem foot4_5_self (s : State) : foot4_5 s s = s := rfl

theorem beaconParked_frame (s : State) (x j : Nat) : beaconParked s x j = foot4_5 s (beaconParked s x j) :=
  (foot4_5_self _).symm.trans (beaconParked_keeps (foot4_5 · (beaconParked s x j)) (fun _ _ => rfl) s x j)

theorem beaconSent_frame (s : State) (x j : Nat) : beaconSent s x j =
    { s with out := s.out ++ [.beacon x j (beaconWords s x j (beaconReports s x j))], dic := (beaconSent s x j).dic,
             heard := (beaconSent s x j).heard, lasers := (beaconSent s x j).lasers, rings := (beaconSent s x j).rings,
             obs := (beaconSent s x j).obs } := by
  unfold beaconSent
  have hframe := beaconParked_frame s x j
  generalize beaconParked s x j = u at *
  generalize beaconWords s x j (beaconReports s x j) = w
  generalize beaconReports s x j = rs
  rw [hframe]
  rfl

theorem beaconSend_sent (x j : Nat) (s : State) (hx : x < 32) (hj : j < 17) (hp : PartsOk s) (hl : isLit (specOf s x j) = false)
    (h5 : (specOf s x j).lineState ≠ 5) (hd : (laserAt s (laserOf x)).dark = false) (ht : x ∉ s.tapped)
    (hu : fibreUp s x = true) :
    ∃ t, exec (.beaconSend x j) s = .next t
      ∧ t = { s with out := s.out ++ [.beacon x j (beaconWords s x j (beaconReports s x j))], dic := t.dic, heard := t.heard,
                     lasers := t.lasers, rings := t.rings, obs := t.obs }
      ∧ (∀ r ∈ beaconReports s x j, ∀ e ∈ t.heard, r ∉ e.2)
      ∧ ((rotorOf s x).grey = j ∧ (rotorOf s x).phase = 1 → (ringOf t (modRing x j)).parked = true
          ∧ (ringOf t (modRing x j)).locked = false
          ∧ SameObjs s t journalObjs ∧ ∀ q, q ≠ modRing x j → ringOf t q = ringOf s q)
      ∧ ((rotorOf s x).grey ≠ j ∨ (rotorOf s x).phase ≠ 1 →
          t.rings = s.rings ∧ t.lasers = s.lasers ∧ t.dic = s.dic ∧ t.obs = s.obs) := by
  refine ⟨beaconSent s x j, (need_of (by simp [hx, hj]) _).trans (congrArg Host.Outcome.next (sendBeacon_sent (by simp [*]))),
    beaconSent_frame s x j, not_mem_dropReports _ _, fun hg => ?_, fun hg => ?_⟩
  · have hpark : beaconParked s x j = parkRing s (modRing x j) := if_pos hg
    have hself : ringOf (beaconParked s x j) (modRing x j) = _ :=
      (congrArg (ringOf · _) hpark).trans (ringOf_unlockRing_self s (modRing x j) _ (rings_lt hp (modRing_lt hx hj)))
    refine ⟨congrArg Ring.parked hself, congrArg Ring.locked hself, (sameObjs_beaconParked s x j).of_dic rfl, fun q hq => ?_⟩
    show ringOf (beaconParked s x j) q = ringOf s q
    rw [hpark]
    exact ringOf_unlockRing_ne s _ hq
  · have hpark : beaconParked s x j = s := if_neg fun h => hg.elim (· h.1) (· h.2)
    unfold beaconSent
    rw [hpark]
    exact ⟨rfl, rfl, rfl, rfl⟩

theorem beaconSend_none (x j : Nat) (s : State) (hx : x < 32) (hj : j < 17)
    (h : isLit (specOf s x j) = true ∨ (specOf s x j).lineState = 5 ∨ (laserAt s (laserOf x)).dark = true ∨ x ∈ s.tapped
      ∨ fibreUp s x = false) : exec (.beaconSend x j) s = .next s := by
  refine (need_of (by simp [hx, hj]) _).trans (congrArg Host.Outcome.next ?_)
  rw [sendBeacon_eq, if_pos (by simpa [or_assoc] using h)]

/-! ### Beacons heard (R225, R245 to R248) -/

/-- A line whose peer has changed darkened and journalled (R225). -/
def peerNoted (s : State) (c : Nat) (r : BeaconReport) : State :=
  if (specOf s r.outFibre r.line).valid && (specOf s r.outFibre r.line).chip != c then
    journal (darkenLine s r.outFibre r.line) .peerChanged [r.outFibre, r.line, (specOf s r.outFibre r.line).chip, c]
  else s

/-- The entry that a report by chip c fills. -/
def reportFilled (now c : Nat) (r : BeaconReport) (e : MapEntry) : MapEntry :=
  { e with chip := c, inFibre := r.inFibre, valid := true, reported := now }

/-- A disagreement of a report with the intended map counted. -/
def mismatchCounted (s : State) (c : Nat) (r : BeaconReport) : State :=
  if disagrees s r.outFibre r.line c r.inFibre then objInc s Obj.mapMismatches else s

theorem takeReport_eq (s : State) (c : Nat) (r : BeaconReport) : takeReport s c r =
    mismatchCounted (updSpec (peerNoted s c r) r.outFibre r.line (reportFilled (peerNoted s c r).now c r)) c r := rfl

theorem sameObjs_peerNoted (s : State) (c : Nat) (r : BeaconReport) (hp : PartsOk s) : SameObjs s (peerNoted s c r) linkObjs := by
  unfold peerNoted
  split
  · exact (sameObjs_darkenLine s _ _ hp).trans ((SameObjs.refl _ _).journal _ _ journalObjs_sub_link)
  · exact SameObjs.refl s _

theorem sameObjs_takeReport (s : State) (c : Nat) (r : BeaconReport) (hp : PartsOk s) :
    SameObjs s (takeReport s c r) (Obj.mapMismatches :: linkObjs) := by
  have hd := (sameObjs_peerNoted s c r hp).mono (List.subset_cons_self Obj.mapMismatches _)
  rw [takeReport_eq]
  generalize peerNoted s c r = u at *
  have hu : SameObjs s (updSpec u r.outFibre r.line (reportFilled u.now c r)) (Obj.mapMismatches :: linkObjs) := hd.of_dic rfl
  generalize updSpec u r.outFibre r.line _ = v at *
  unfold mismatchCounted
  split
  · exact hu.objInc _ (List.mem_cons_self ..)
  · exact hu

/-- The objects a report of a beacon may change. -/
def reportObjs : List Nat := [Obj.alertPending, Obj.mapMismatches] ++ linkObjs

theorem alertObjs_sub_report : alertObjs ⊆ reportObjs := fun _ hx => by
  rcases List.mem_cons.mp (alertObjs_sub_pending hx) with rfl | hx
  · exact List.mem_cons_self ..
  · exact List.mem_append_right _ hx

theorem mapObjs_sub_report : mapObjs ⊆ reportObjs := fun x hx => by
  rcases List.mem_append.mp hx with hx | hx
  · rcases List.mem_append.mp hx with hx | hx
    · exact List.mem_append_right _ (sub_linkObjs (by decide) hx)
    · exact alertObjs_sub_report hx
  · obtain ⟨k, hk, rfl⟩ := List.mem_map.mp hx
    exact List.mem_append_right _ (linkState_mem_link (List.mem_range.mp hk))

/-- The reports that name a line of this module. -/
def ownReports (s : State) (rs : List BeaconReport) : List BeaconReport :=
  rs.filter (fun (r : BeaconReport) => r.chip == chip s && decide (r.outFibre < 32) && decide (r.line < 17))

/-- What follows once the reports are taken: the lines that disagree are journalled, and Grey follows. -/
def reportsTold (s : State) (mine : List BeaconReport) : State :=
  checkMap (journalMismatches s (mine.map (fun r => 17 * r.outFibre + r.line)))

theorem takeReports_eq (s : State) (c : Nat) (rs : List BeaconReport) :
    takeReports s c rs = reportsTold ((ownReports s rs).foldl (fun s r => takeReport s c r) s) (ownReports s rs) := rfl

theorem reportsTold_keeps {γ : Type} (vw : State → γ) (hg : ∀ s t, vw (foot6_3 s t) = vw s) (s : State)
    (mine : List BeaconReport) : vw (reportsTold s mine) = vw s :=
  (checkMap_keeps vw hg _).trans (journalMismatches_keeps vw (fun s t => hg s (footDicObs s t)) s _)

theorem sameObjs_takeReports (s : State) (c : Nat) (rs : List BeaconReport) (hp : PartsOk s) :
    SameObjs s (takeReports s c rs) reportObjs := by
  rw [takeReports_eq]
  have h1 : SameObjs s ((ownReports s rs).foldl (fun s r => takeReport s c r) s) reportObjs :=
    SameObjs.foldl_parts _ (fun u r hu => ⟨(sameObjs_takeReport u c r hu).mono (List.subset_cons_self _ _),
      takeReport_partsOk u c r hu⟩) _ s hp
  generalize List.foldl _ s _ = u at *
  exact (h1.trans ((sameCells_journalMismatches u _).objs.mono alertObjs_sub_report)).trans
    ((sameCells_checkMap _).objs.mono mapObjs_sub_report)

theorem sameObjs_darkenV1 (s : State) (c : Nat) (hp : PartsOk s) : SameObjs s (darkenV1 s c) linkObjs := by
  unfold darkenV1
  dsimp only
  split
  · exact SameObjs.refl s _
  · exact ((SameObjs.refl s _).journal _ _ journalObjs_sub_link).trans (SameObjs.foldl_parts _
      (fun u i hu => ⟨sameObjs_darkenLine u _ _ hu, darkenLine_partsOk u _ _ hu⟩) _ _ ((journal_keeps PartsOk (fun _ _ => rfl) s _ _).mpr hp))

/-- What a beacon of another chip reports back to it. -/
def beaconReport (k : Nat) (b : Beacon) : BeaconReport := { chip := b.chip, outFibre := b.outFibre, line := b.line, inFibre := k }

/-- A beacon's place and version kept, and its report put on the list for its chip. -/
def beaconNoted (s : State) (k j : Nat) (b : Beacon) : State :=
  { s with
    inPeer := smSet s.inPeer (17 * k + j) (b.chip, b.outFibre)
    peerVer := smSet s.peerVer b.chip b.versionMax
    heard := smSet s.heard b.chip (if (smGetD s.heard b.chip []).contains (beaconReport k b) then smGetD s.heard b.chip []
      else smGetD s.heard b.chip [] ++ [beaconReport k b]) }

theorem mem_heard_beaconNoted (s : State) (k j : Nat) (b : Beacon) :
    beaconReport k b ∈ smGetD (beaconNoted s k j b).heard b.chip [] := by
  have h : smGetD (beaconNoted s k j b).heard b.chip [] = if (smGetD s.heard b.chip []).contains (beaconReport k b) then
      smGetD s.heard b.chip [] else smGetD s.heard b.chip [] ++ [beaconReport k b] :=
    congrArg (Option.getD · []) (smGet_smSet_self _ _ _)
  rw [h]
  split
  next hc => exact List.contains_iff_mem.mp hc
  · exact List.mem_append_right _ (List.mem_cons_self ..)

/-- A version 1 chip's lines on routed fibres darkened. -/
def versionHeard (u : State) (b : Beacon) : State := if b.versionMax = 1 then checkMap (darkenV1 u b.chip) else u

/-- A beacon noted and its report passed on. -/
def beaconPassed (s : State) (k j : Nat) (b : Beacon) : State := sendReport (beaconNoted s k j b) b.chip (beaconReport k b)

theorem hearBeacon_other {s : State} {k : Nat} {b : Beacon} (j : Nat) (hcrc : b.crcOk = true) (hu : fibreUp s k = true)
    (hc : b.chip ≠ chip s) :
    hearBeacon s k j b = versionHeard (takeReports (beaconPassed s k j b) b.chip b.reports) b := by
  have h : hearBeacon s k j b = if !b.crcOk || !fibreUp s k then s
      else if b.chip = chip s then journalAlert (darkenLine s b.outFibre b.line) .ownChipHeard [b.outFibre, k]
      else versionHeard (takeReports (beaconPassed s k j b) b.chip b.reports) b := rfl
  rw [h, if_neg (by simp [hcrc, hu]), if_neg hc]

theorem versionHeard_keeps {γ : Type} (vw : State → γ) (hg : ∀ s t, vw (foot9_1 s t) = vw s) (s : State) (b : Beacon) :
    vw (versionHeard s b) = vw s := by
  unfold versionHeard
  split
  · exact (checkMap_keeps vw (fun s t => hg s (foot6_3 s t)) _).trans (darkenV1_keeps vw hg s _)
  · rfl

theorem sameObjs_versionHeard (s : State) (b : Beacon) (hp : PartsOk s) : SameObjs s (versionHeard s b) reportObjs := by
  unfold versionHeard
  split
  · exact ((sameObjs_darkenV1 s _ hp).mono (List.subset_append_right _ _)).trans
      ((sameCells_checkMap _).objs.mono mapObjs_sub_report)
  · exact SameObjs.refl s _

theorem sendReport_dic (s : State) (c : Nat) (r : BeaconReport) : (sendReport s c r).dic = s.dic :=
  sendReport_keeps State.dic (fun _ _ => rfl) s c r

theorem partsOk_beaconPassed (s : State) (k j : Nat) (b : Beacon) (hp : PartsOk s) : PartsOk (beaconPassed s k j b) :=
  (sendReport_keeps PartsOk (fun _ _ => rfl) (beaconNoted s k j b) _ _).mpr hp

/-- A report of one line of this module fills the line's entry. -/
theorem takeReport_entry (s : State) (c : Nat) (r : BeaconReport) (hp : PartsOk s) (hx : r.outFibre < 32) (hj : r.line < 17) :
    (specOf (takeReport s c r) r.outFibre r.line).chip = c ∧ (specOf (takeReport s c r) r.outFibre r.line).inFibre = r.inFibre
      ∧ (specOf (takeReport s c r) r.outFibre r.line).valid = true
      ∧ (specOf (takeReport s c r) r.outFibre r.line).reported = s.now := by
  have hd : PartsOk (peerNoted s c r) ∧ (peerNoted s c r).now = s.now := by
    unfold peerNoted
    split
    · exact ⟨(journal_keeps PartsOk (fun _ _ => rfl) _ _ _).mpr (darkenLine_partsOk s _ _ hp),
        (journal_keeps State.now (fun _ _ => rfl) _ _ _).trans (darkenLine_keeps State.now (fun _ _ => rfl) s _ _)⟩
    · exact ⟨hp, rfl⟩
  rw [takeReport_eq]
  generalize peerNoted s c r = u at *
  have hself := specOf_updSpec_self (s := u) (reportFilled u.now c r) (spec_lt hd.1 hx hj)
  generalize updSpec u r.outFibre r.line _ = v at *
  have hsame : specOf (mismatchCounted v c r) r.outFibre r.line = reportFilled u.now c r (specOf u r.outFibre r.line) := by
    unfold mismatchCounted
    split
    · exact hself
    · exact hself
  exact ⟨congrArg MapEntry.chip hsame, congrArg MapEntry.inFibre hsame, congrArg MapEntry.valid hsame,
    (congrArg MapEntry.reported hsame).trans hd.2⟩

theorem ownReports_one {s : State} {r : BeaconReport} (hc : r.chip = chip s) (hx : r.outFibre < 32) (hj : r.line < 17) :
    ownReports s [r] = [r] := by
  unfold ownReports
  rw [List.filter_cons, if_pos (by simp [hc, hx, hj])]
  rfl

theorem beaconReceive_ignored (k j : Nat) (b : Beacon) (s : State) (hk : k < 32) (hj : j < 17)
    (h : b.crcOk = false ∨ fibreUp s k = false) : exec (.beaconReceive k j b) s = .next s := by
  refine (need_of (by simp [hk, hj]) _).trans (congrArg Host.Outcome.next ?_)
  unfold hearBeacon
  rw [if_pos (by simpa using h)]

theorem beaconReceive_own (k j : Nat) (b : Beacon) (s : State) (hk : k < 32) (hj : j < 17) (hp : PartsOk s)
    (hcrc : b.crcOk = true) (hu : fibreUp s k = true) (hc : b.chip = chip s) :
    ∃ t, exec (.beaconReceive k j b) s = .next t ∧ Counted s t Obj.alertPending 1 ∧ t.heard = s.heard ∧ t.inPeer = s.inPeer
      ∧ SameObjs s t (Obj.alertPending :: linkObjs) := by
  have heq : hearBeacon s k j b = journalAlert (darkenLine s b.outFibre b.line) .ownChipHeard [b.outFibre, k] := by
    unfold hearBeacon
    rw [if_neg (by simp [hcrc, hu]), if_pos hc]
  have hd := sameObjs_darkenLine s b.outFibre b.line hp
  have hheard := darkenLine_keeps State.heard (fun _ _ => rfl) s b.outFibre b.line
  have hin := darkenLine_keeps State.inPeer (fun _ _ => rfl) s b.outFibre b.line
  generalize darkenLine s b.outFibre b.line = u at *
  refine ⟨_, (need_of (by simp [hk, hj]) _).trans (congrArg Host.Outcome.next heq), ?_,
    (journalAlert_keeps State.heard (fun _ _ => rfl) u _ _).trans hheard,
    (journalAlert_keeps State.inPeer (fun _ _ => rfl) u _ _).trans hin,
    (hd.mono (List.subset_cons_self _ _)).trans ((SameObjs.refl u (Obj.alertPending :: linkObjs)).journalAlert _ _ alertObjs_sub_pending)⟩
  unfold Counted
  rw [objGet_journalAlert_pending, hd _ (not_mem_linkObjs (by decide))]

theorem beaconReceive_other (k j : Nat) (b : Beacon) (s : State) (hk : k < 32) (hj : j < 17) (hp : PartsOk s)
    (hcrc : b.crcOk = true) (hu : fibreUp s k = true) (hc : b.chip ≠ chip s) :
    ∃ t, exec (.beaconReceive k j b) s = .next t ∧ t.inPeer = smSet s.inPeer (17 * k + j) (b.chip, b.outFibre)
      ∧ t.peerVer = smSet s.peerVer b.chip b.versionMax
      ∧ { chip := b.chip, outFibre := b.outFibre, line := b.line, inFibre := k } ∈ smGetD t.heard b.chip []
      ∧ (b.reports = [] → b.versionMax ≠ 1 → t.specMap = s.specMap ∧ t.rings = s.rings)
      ∧ (∀ r, b.reports = [r] → b.versionMax ≠ 1 → r.chip = chip s → r.outFibre < 32 → r.line < 17 →
          (specOf t r.outFibre r.line).chip = b.chip ∧ (specOf t r.outFibre r.line).inFibre = r.inFibre
          ∧ (specOf t r.outFibre r.line).valid = true ∧ (specOf t r.outFibre r.line).reported = s.now)
      ∧ t.lpddr = s.lpddr ∧ t.queues = s.queues ∧ SameObjs s t ([Obj.alertPending, Obj.mapMismatches] ++ linkObjs) := by
  have heq := hearBeacon_other j hcrc hu hc
  have hpass := partsOk_beaconPassed s k j b hp
  have hdic : (beaconPassed s k j b).dic = s.dic := sendReport_dic _ _ _
  have hnow : (beaconPassed s k j b).now = s.now := sendReport_keeps State.now (fun _ _ => rfl) (beaconNoted s k j b) _ _
  have hmap : (beaconPassed s k j b).specMap = s.specMap :=
    sendReport_keeps State.specMap (fun _ _ => rfl) (beaconNoted s k j b) _ _
  have hrings : (beaconPassed s k j b).rings = s.rings := sendReport_keeps State.rings (fun _ _ => rfl) (beaconNoted s k j b) _ _
  have hheard : (beaconPassed s k j b).heard = (beaconNoted s k j b).heard :=
    sendReport_keeps State.heard (fun _ _ => rfl) (beaconNoted s k j b) _ _
  have hin : (beaconPassed s k j b).inPeer = (beaconNoted s k j b).inPeer :=
    sendReport_keeps State.inPeer (fun _ _ => rfl) (beaconNoted s k j b) _ _
  have hver : (beaconPassed s k j b).peerVer = (beaconNoted s k j b).peerVer :=
    sendReport_keeps State.peerVer (fun _ _ => rfl) (beaconNoted s k j b) _ _
  have hmem : (beaconPassed s k j b).lpddr = s.lpddr := sendReport_keeps State.lpddr (fun _ _ => rfl) (beaconNoted s k j b) _ _
  have hque : (beaconPassed s k j b).queues = s.queues := sendReport_keeps State.queues (fun _ _ => rfl) (beaconNoted s k j b) _ _
  generalize beaconPassed s k j b = u at *
  have hkeep {γ : Type} (vw : State → γ) (hg : ∀ s t, vw (foot9_1 s t) = vw s) :
      vw (versionHeard (takeReports u b.chip b.reports) b) = vw u :=
    (versionHeard_keeps vw hg _ b).trans (takeReports_keeps vw hg u _ _)
  refine ⟨_, (need_of (by simp [hk, hj]) _).trans (congrArg Host.Outcome.next heq), (hkeep State.inPeer fun _ _ => rfl).trans hin,
    (hkeep State.peerVer fun _ _ => rfl).trans hver, ?_, fun hr hv => ?_, fun r hr hv hrc hx hl => ?_,
    (hkeep State.lpddr fun _ _ => rfl).trans hmem, (hkeep State.queues fun _ _ => rfl).trans hque, ?_⟩
  · rw [hkeep State.heard fun _ _ => rfl, hheard]
    exact mem_heard_beaconNoted s k j b
  · have hv' : versionHeard (takeReports u b.chip b.reports) b = reportsTold u [] := by
      rw [hr]
      exact if_neg hv
    rw [hv']
    exact ⟨(reportsTold_keeps State.specMap (fun _ _ => rfl) u []).trans hmap,
      (reportsTold_keeps State.rings (fun _ _ => rfl) u []).trans hrings⟩
  · have hchip : r.chip = chip u := hrc.trans (by unfold chip; rw [hdic])
    have hv' : versionHeard (takeReports u b.chip b.reports) b = reportsTold (takeReport u b.chip r) [r] := by
      rw [hr, takeReports_eq, ownReports_one hchip hx hl]
      exact if_neg hv
    rw [hv', specOf_congr (reportsTold_keeps State.specMap (fun _ _ => rfl) _ [r]), ← hnow]
    exact takeReport_entry u b.chip r hpass hx hl
  · have h1 : SameObjs s u reportObjs := (SameObjs.refl s _).of_dic hdic
    exact (h1.trans (sameObjs_takeReports u _ _ hpass)).trans
      (sameObjs_versionHeard _ b (takeReports_partsOk u _ _ hpass))

/-! ### Entries that expire (R225) -/

theorem expireEntry_eq (s : State) (x j : Nat) : expireEntry s x j =
    if (specOf s x j).valid && !isLit (specOf s x j) && decide ((specOf s x j).reported + ms 200 < s.now) then
      updSpec s x j (fun e => { e with valid := false }) else s := rfl

theorem mapEntryExpire_holds (x j : Nat) (s : State) (hx : x < 32) (hj : j < 17) (hp : PartsOk s) :
    ∃ t, exec (.mapEntryExpire x j) s = .next t ∧ t = { s with specMap := t.specMap }
      ∧ ((specOf s x j).valid = true → isLit (specOf s x j) = false → (specOf s x j).reported + ms 200 < s.now →
          specOf t x j = { specOf s x j with valid := false })
      ∧ (isLit (specOf s x j) = true ∨ s.now ≤ (specOf s x j).reported + ms 200 → t = s)
      ∧ (∀ y i, i < 17 → (y, i) ≠ (x, j) → specOf t y i = specOf s y i) := by
  refine ⟨_, need_of (by simp [hx, hj]) _, ?_, fun hv hl ht => ?_, fun h => ?_, fun y i hi hne => ?_⟩
  · rw [expireEntry_eq]
    split
    · rfl
    · rfl
  · rw [expireEntry_eq, if_pos (by simp [hv, hl, ht])]
    exact specOf_updSpec_self _ (spec_lt hp hx hj)
  · rw [expireEntry_eq, if_neg]
    rintro hc
    simp only [Bool.and_eq_true, Bool.not_eq_true', decide_eq_true_eq] at hc
    rcases h with h | h
    · rw [hc.1.2] at h
      cases h
    · omega
  · rw [expireEntry_eq]
    split
    · exact specOf_updSpec_ne s _ hj hi hne
    · rfl

/-! ### Lines asked for, granted to a peer, and refused (R226, R227, R230) -/

theorem requestLine_line {s : State} {x j : Nat} (hp : PartsOk s) (hx : x < 32) (hj : j < 17) :
    specOf (requestLine s x j) x j = { specOf s x j with lineState := 4 } :=
  specOf_updSpec_self (fun e => { e with lineState := 4 }) (spec_lt hp hx hj)

theorem requestLine_other (s : State) {x j y i : Nat} (hj : j < 17) (hi : i < 17) (h : (y, i) ≠ (x, j)) :
    specOf (requestLine s x j) y i = specOf s y i :=
  specOf_updSpec_ne s (fun e => { e with lineState := 4 }) hj hi h

theorem lineRequestSend_asks (x j c : Nat) (s : State) (hx : x < 32) (hj : j < 17) (hp : PartsOk s)
    (hs : servedFirst s = some c) (hc : (specOf s x j).chip = c) (hl : lightable s x j = true) :
    ∃ t, exec (.lineRequestSend x j) s = .next t
      ∧ t = { s with out := s.out ++ [.lineRequest c x j (specOf s x j).inFibre], specMap := t.specMap,
                     reassign := smSet s.reassign x j, backDue := s.backDue.erase c }
      ∧ specOf t x j = { specOf s x j with lineState := 4 }
      ∧ (∀ y i, i < 17 → (y, i) ≠ (x, j) → specOf t y i = specOf s y i) := by
  have heq : sendLineRequest s x j = requestLine s x j := by
    unfold sendLineRequest
    rw [hs]
    exact if_pos ⟨hc, hl⟩
  refine ⟨_, (need_of (by simp [hx, hj]) _).trans (congrArg Host.Outcome.next heq), ?_, requestLine_line hp hx hj,
    fun y i hi h => requestLine_other s hj hi h⟩
  rw [← hc]
  rfl

theorem lineRequestSend_idle (x j : Nat) (s : State) (hx : x < 32) (hj : j < 17)
    (h : servedFirst s = none ∨ lightable s x j = false) : exec (.lineRequestSend x j) s = .next s := by
  refine (need_of (by simp [hx, hj]) _).trans (congrArg Host.Outcome.next ?_)
  unfold sendLineRequest
  rcases h with h | h
  · rw [h]
  · cases servedFirst s with
    | none => rfl
    | some c => exact if_neg (by simp [h])

/-- A lane of chip c is lit or being lit. -/
def lineBegun (s : State) (c : Nat) : Bool := s.specMap.any (fun (e : MapEntry) => e.chip == c && (isLit e || e.lineState == 4))

/-- A Valid line of this module leads to chip c. -/
def lineBack (s : State) (c : Nat) : Bool := s.specMap.any (fun (e : MapEntry) => e.valid && e.chip == c && e.lineState != 5)

/-- Whether a peer's LineRequest is granted. -/
def requestOk (s : State) (c k j : Nat) : Bool :=
  inFree s c k j && c != chip s && decide (lanesComing s c < 128)
    && ((linkTo s c).isSome || ((freeLink s).isSome && (lineBegun s c || lineBack s c)))

/-- A peer's line granted, and the lane back noted as due where none is begun. -/
def lineGranted (s : State) (c x j k : Nat) : State :=
  { s with
    out := s.out ++ [.lineGrant c x j]
    inGrant := s.inGrant ++ [17 * k + j], inPeer := smSet s.inPeer (17 * k + j) (c, x)
    backDue := if (linkTo s c).isSome || lineBegun s c || s.backDue.contains c then s.backDue else s.backDue ++ [c] }

/-- The lane back asked for, if it is due and a line can be lit. -/
def laneBackAsked (s : State) (c : Nat) : State :=
  match candidatesTo s c with
  | b :: _ => if s.backDue.contains c then requestLine s b.1 b.2 else s
  | [] => s

theorem takeLineRequest_eq (s : State) (c x j k : Nat) : takeLineRequest s c x j k =
    if !requestOk s c k j then emit s (.lineRefuse c x j) else laneBackAsked (lineGranted s c x j k) c := by
  unfold takeLineRequest requestOk lineBegun lineBack
  dsimp only
  split
  · rfl
  · unfold lineGranted lineBegun laneBackAsked emit
    dsimp only <;> generalize candidatesTo _ c = cs <;> rfl

theorem laneBackAsked_due {s : State} {c y i : Nat} {rest : List (Nat × Nat)} (hc : candidatesTo s c = (y, i) :: rest)
    (hb : c ∈ s.backDue) : laneBackAsked s c = requestLine s y i := by
  unfold laneBackAsked
  rw [hc]
  exact if_pos (List.contains_iff_mem.mpr hb)

theorem laneBackAsked_none {s : State} {c : Nat} (h : candidatesTo s c = [] ∨ c ∉ s.backDue) : laneBackAsked s c = s := by
  unfold laneBackAsked
  split
  next b rest hb =>
    refine if_neg fun hc => ?_
    rcases h with h | h
    · rw [h] at hb
      cases hb
    · exact h (List.contains_iff_mem.mp hc)
  · rfl

theorem requestLine_to {s : State} {c y i : Nat} (hc : (specOf s y i).chip = c) : requestLine s y i =
    { s with out := s.out ++ [.lineRequest c y i (specOf s y i).inFibre], specMap := (requestLine s y i).specMap,
             reassign := smSet s.reassign y i, backDue := s.backDue.erase c } := by
  rw [← hc]
  rfl

/-- Every line that could be lit towards a chip leads to it. -/
theorem chip_of_candidate {s : State} {c y i : Nat} (h : (y, i) ∈ candidatesTo s c) : (specOf s y i).chip = c := by
  obtain ⟨n, -, hn⟩ := List.mem_filterMap.mp h
  split at hn
  next hc =>
    cases hn
    exact of_decide_eq_true (Bool.and_eq_true_iff.mp hc).1
  · cases hn

theorem lineRequest_refused (c x j k : Nat) (s : State) (hk : k < 32) (hj : j < 17)
    (h : c = chip s ∨ 128 ≤ lanesComing s c ∨ inFree s c k j = false ∨ linkTo s c = none ∧ freeLink s = none
      ∨ linkTo s c = none ∧ lineBegun s c = false ∧ lineBack s c = false) :
    exec (.lineRequest c x j k) s = .next { s with out := s.out ++ [.lineRefuse c x j] } := by
  have hno : requestOk s c k j = false := by
    unfold requestOk
    rcases h with h | h | h | ⟨h, h'⟩ | ⟨h, h', h''⟩
    · simp [h]
    · simp [Nat.not_lt.mpr h]
    · simp [h]
    · simp [h, h']
    · simp [h, h', h'']
  refine (need_of (by simp [hk, hj]) _).trans (congrArg Host.Outcome.next ?_)
  rw [takeLineRequest_eq, if_pos (by simp [hno])]
  rfl

theorem lineRequest_taken (c x j k : Nat) (s : State) (hk : k < 32) (hj : j < 17) (h : requestOk s c k j = true) :
    exec (.lineRequest c x j k) s = .next (laneBackAsked (lineGranted s c x j k) c) := by
  refine (need_of (by simp [hk, hj]) _).trans (congrArg Host.Outcome.next ?_)
  rw [takeLineRequest_eq, if_neg (by simp [h])]

theorem requestOk_of {s : State} {c k j : Nat} (hc : c ≠ chip s) (hf : inFree s c k j = true) (hl : lanesComing s c < 128)
    (h : (linkTo s c).isSome = true ∨ (freeLink s).isSome = true ∧ (lineBegun s c = true ∨ lineBack s c = true)) :
    requestOk s c k j = true := by
  unfold requestOk
  rw [Bool.and_eq_true, Bool.and_eq_true, Bool.and_eq_true, Bool.or_eq_true, Bool.and_eq_true, Bool.or_eq_true]
  exact ⟨⟨⟨hf, bne_iff_ne.mpr hc⟩, decide_eq_true hl⟩, h⟩

theorem lineRequest_known (c x j k : Nat) (s : State) (hk : k < 32) (hj : j < 17) (hc : c ≠ chip s)
    (hf : inFree s c k j = true) (hl : lanesComing s c < 128)
    (h : (linkTo s c).isSome = true ∨ (freeLink s).isSome = true ∧ lineBegun s c = true) (hb : c ∉ s.backDue) :
    exec (.lineRequest c x j k) s = .next { s with
      out := s.out ++ [.lineGrant c x j], inGrant := s.inGrant ++ [17 * k + j], inPeer := smSet s.inPeer (17 * k + j) (c, x) } := by
  have hdue : (lineGranted s c x j k).backDue = s.backDue := by
    refine if_pos ?_
    rcases h with h | ⟨-, h⟩
    · simp [h]
    · simp [h]
  have hok := requestOk_of hc hf hl (h.imp_right fun h => ⟨h.1, Or.inl h.2⟩)
  have hnone : c ∉ (lineGranted s c x j k).backDue := by rw [hdue]; exact hb
  rw [lineRequest_taken c x j k s hk hj hok, laneBackAsked_none (Or.inr hnone)]
  refine congrArg Host.Outcome.next ?_
  show { lineGranted s c x j k with backDue := (lineGranted s c x j k).backDue } = _
  rw [hdue]
  rfl

theorem lineRequest_new (c x j k : Nat) (s : State) (hk : k < 32) (hj : j < 17) (hc : c ≠ chip s)
    (hf : inFree s c k j = true) (hl : lanesComing s c < 128) (hto : linkTo s c = none) (hfree : (freeLink s).isSome = true)
    (hb : c ∉ s.backDue) (hbegun : lineBegun s c = false) (hback : lineBack s c = true) :
    (candidatesTo s c = [] →
      exec (.lineRequest c x j k) s = .next { s with
        out := s.out ++ [.lineGrant c x j], inGrant := s.inGrant ++ [17 * k + j], inPeer := smSet s.inPeer (17 * k + j) (c, x)
        backDue := s.backDue ++ [c] })
    ∧ (∀ y i rest, candidatesTo s c = (y, i) :: rest →
      ∃ t, exec (.lineRequest c x j k) s = .next t
        ∧ t = { s with
            out := s.out ++ [.lineGrant c x j, .lineRequest c y i (specOf s y i).inFibre], inGrant := s.inGrant ++ [17 * k + j]
            inPeer := smSet s.inPeer (17 * k + j) (c, x), specMap := t.specMap, reassign := smSet s.reassign y i }) := by
  have hexec := lineRequest_taken c x j k s hk hj (requestOk_of hc hf hl (Or.inr ⟨hfree, Or.inr hback⟩))
  have hdue : lineGranted s c x j k = { s with
      out := s.out ++ [.lineGrant c x j]
      inGrant := s.inGrant ++ [17 * k + j], inPeer := smSet s.inPeer (17 * k + j) (c, x), backDue := s.backDue ++ [c] } := by
    unfold lineGranted
    rw [if_neg (by simp [hto, hbegun, hb])]
  refine ⟨fun hcan => ?_, fun y i rest hcan => ?_⟩
  · rw [hexec, laneBackAsked_none (s := lineGranted s c x j k) (Or.inl hcan), hdue]
  · have hchip : (specOf (lineGranted s c x j k) y i).chip = c :=
      chip_of_candidate (hcan ▸ List.mem_cons_self .. : (y, i) ∈ candidatesTo s c)
    have hin : c ∈ (lineGranted s c x j k).backDue := by
      rw [hdue]
      exact List.mem_append_right _ (List.mem_cons_self ..)
    have herase : (lineGranted s c x j k).backDue.erase c = s.backDue := by
      rw [hdue]
      show (s.backDue ++ [c]).erase c = s.backDue
      rw [List.erase_append_right _ hb, List.erase_cons_head, List.append_nil]
    rw [laneBackAsked_due (s := lineGranted s c x j k) hcan hin] at hexec
    refine ⟨_, hexec, ?_⟩
    rw [requestLine_to hchip, herase]
    unfold lineGranted
    dsimp only
    rw [List.append_assoc]
    rfl

theorem lineRefuse_holds (x j : Nat) (s : State) (hx : x < 32) (hj : j < 17) (hp : PartsOk s) (hr : smGet s.reassign x = some j) :
    ∃ t, exec (.lineRefuse x j) s = .next t
      ∧ t = { s with dic := t.dic, specMap := t.specMap, reassign := smErase s.reassign x, backDue := t.backDue }
      ∧ specOf t x j = { specOf s x j with lineState := 0 } ∧ Counted s t Obj.reassignRefusals 1
      ∧ SameObjs s t [Obj.reassignRefusals] ∧ (∀ y i, i < 17 → (y, i) ≠ (x, j) → specOf t y i = specOf s y i) := by
  refine ⟨_, (need_of (by simp [hx, hj]) _).trans (congrArg Host.Outcome.next (if_neg (not_not_intro hr))), rfl,
    specOf_updSpec_self (fun e => { e with lineState := 0 }) (spec_lt hp hx hj), ?_, ?_,
    fun y i hi h => specOf_updSpec_ne s (fun e => { e with lineState := 0 }) hj hi h⟩
  · exact objGet_objInc_self _ _
  · exact SameObjs.objInc ((SameObjs.refl s _).of_dic rfl) _ (List.mem_cons_self ..)

end Sys2Proof.Machine

/-!
Lines darkened over a demand, and lanes admitted on granted lines (R226, R227, R236, R237, O22).
-/

namespace Sys2Proof.Machine

/-! ### Demands met (R226) -/

theorem length_xferImage (x : Xfer) : (xferImage x).length = x.size := by
  simp [xferImage]

theorem foot10_2_self (s : State) : foot10_2 s s = s := rfl

theorem setDemand_frame (s : State) (image : Bytes) : setDemand s image = foot10_2 s (setDemand s image) :=
  (foot10_2_self _).symm.trans (setDemand_keeps (foot10_2 · (setDemand s image)) (fun _ _ => rfl) s image)

theorem setDemand_demand (s : State) (image : Bytes) : (setDemand s image).demand = demandsOf (image.length / 8) image :=
  foldlState State.demand darkenSurplus (fun u d => darkenSurplus_keeps State.demand (fun _ _ => rfl) u d) _ _

theorem laneDemandCommit_holds (r : Route) (handle : Nat) (digest : Bytes) (s : State) (x : Xfer) (role : Role) (row : ObjRow)
    (s0 : State) (h : CommitReady s r false Obj.laneDemand handle digest x role row s0) (hx : x.size % 8 = 0)
    (hd : ∀ d ∈ demandsOf (x.size / 8) (xferImage x), d.lanes ≤ 128) :
    ∃ u, exec (.laneDemandCommit r handle digest) s = .next (answered s r (heldKey s r) ⟨u, 0, []⟩)
      ∧ u.demand = demandsOf (x.size / 8) (xferImage x)
      ∧ u = { imageIn s0 r role row x with
                out := u.out, dic := u.dic, lasers := u.lasers, rings := u.rings, specMap := u.specMap, demand := u.demand,
                links := u.links, routerW := u.routerW, routerE := u.routerE, outst := u.outst, obs := u.obs } := by
  have hlen := length_xferImage x
  have hok : (demandsOf ((xferImage x).length / 8) (xferImage x)).any (fun (d : Demand) => decide (128 < d.lanes)) = false := by
    rw [hlen, List.any_eq_false]
    intro d hmem
    simpa using hd d hmem
  have hexec : exec (.laneDemandCommit r handle digest) s = .next (answered s r (heldKey s r)
      ⟨setDemand (imageIn s0 r role row x) (xferImage x), 0, []⟩) :=
    congrArg Host.Outcome.next (commitRow_taken s r false _ handle digest x role row s0 _ _ _ _ h (by simp [hx])
      (if_neg (Bool.eq_false_iff.mp hok)))
  generalize imageIn s0 r role row x = a at *
  have hframe := setDemand_frame a (xferImage x)
  have hdem := setDemand_demand a (xferImage x)
  generalize setDemand a (xferImage x) = u at *
  refine ⟨u, hexec, hlen ▸ hdem, ?_⟩
  rw [hframe]
  rfl

/-! ### What darkening keeps of a line and its ring -/

theorem zero_ne_four : (0 : Nat) ≠ 4 := by decide

theorem one_ne_four : (1 : Nat) ≠ 4 := by decide

/-- A line that is not being reassigned, its ring not being swept. -/
def LineCalm (s : State) (x j r : Nat) : Prop := (specOf s x j).lineState ≠ 4 ∧ (ringOf s r).sweep = 0

theorem LineCalm.of_eq {s t : State} {x j r : Nat} (h : LineCalm s x j r) (hm : t.specMap = s.specMap) (hr : t.rings = s.rings) :
    LineCalm t x j r := by
  unfold LineCalm
  rw [specOf_congr hm, ringOf_congr hr]
  exact h

theorem LineCalm.updSpec {s : State} {x j r : Nat} (h : LineCalm s x j r) (y i : Nat) (f : MapEntry → MapEntry)
    (hf : ∀ e, (f e).lineState ≠ 4) : LineCalm (updSpec s y i f) x j r := by
  refine ⟨?_, h.2⟩
  show ((modifyAt s.specMap (17 * y + i) f).getD (17 * x + j) {}).lineState ≠ 4
  rw [getD_modifyAt s.specMap (17 * y + i) (17 * x + j) f {}]
  split
  · exact hf _
  · exact h.1

theorem LineCalm.parkRing {s : State} {x j r : Nat} (h : LineCalm s x j r) (q : Nat) : LineCalm (parkRing s q) x j r := by
  refine ⟨?_, ?_⟩
  · rw [specOf_congr (parkRing_keeps State.specMap (fun _ _ => rfl) s q)]
    exact h.1
  · show (ringOf (unlockRing s q _) r).sweep = 0
    rw [ringOf_unlockRing, ringOf_updRing]
    split
    · exact h.2
    · exact h.2

theorem LineCalm.foldl {α : Type} {x j r : Nat} (f : State → α → State) (hf : ∀ u a, LineCalm u x j r → LineCalm (f u a) x j r)
    (l : List α) (s : State) (h : LineCalm s x j r) : LineCalm (l.foldl f s) x j r := by
  induction l generalizing s with
  | nil => exact h
  | cons a l ih => exact ih _ (hf s a h)

theorem LineCalm.removeLink {s : State} {x j r : Nat} (h : LineCalm s x j r) (k : Nat) : LineCalm (removeLink s k) x j r := by
  unfold Machine.removeLink
  dsimp only
  have hf := LineCalm.foldl (x := x) (j := j) (r := r) (fun s (l : Lane) => Machine.parkRing (Machine.updSpec s l.fibre l.line
    (fun e => { e with lineState := 0, link := 0, lane := 0 })) (modRing l.fibre l.line))
    (fun u a hu => (hu.updSpec a.fibre a.line _ (fun _ => zero_ne_four)).parkRing _) (linkOf s k).outLanes s h
  generalize List.foldl _ s _ = u at *
  exact hf.of_eq rfl rfl

theorem LineCalm.darkenLine {s : State} {x j r : Nat} (h : LineCalm s x j r) (y i : Nat) : LineCalm (darkenLine s y i) x j r := by
  unfold Machine.darkenLine
  split
  · refine (h.updSpec y i _ fun e => ?_).parkRing _
    show (if e.lineState = 5 then 5 else 0) ≠ 4
    split
    · decide
    · decide
  next k lane _ =>
    dsimp only
    generalize hu : sendCtl s k _ = u
    have h1 : LineCalm u x j r := hu ▸ h.of_eq (sendCtl_keeps State.specMap (fun _ _ => rfl) s k _)
      (sendCtl_keeps State.rings (fun _ _ => rfl) s k _)
    generalize hw : updLink u k _ = w
    have h2 : LineCalm w x j r := h1.of_eq (by rw [← hw]; rfl) (by rw [← hw]; rfl)
    have h3 := (h2.updSpec y i (fun e => { e with lineState := 0, link := 0, lane := 0 }) fun _ => zero_ne_four).parkRing (modRing y i)
    generalize Machine.parkRing _ _ = v at *
    split
    · exact (h3.of_eq (handBack_keeps State.specMap (fun _ _ => rfl) v k false)
        (handBack_keeps State.rings (fun _ _ => rfl) v k false)).removeLink k
    · exact h3.of_eq (settleLink_keeps State.specMap (fun _ _ => rfl) v k) (settleLink_keeps State.rings (fun _ _ => rfl) v k)

theorem LineCalm.trimDemand {s : State} {x j r : Nat} (h : LineCalm s x j r) (c : Nat) : LineCalm (trimDemand s c) x j r := by
  unfold Machine.trimDemand
  split
  · exact LineCalm.foldl _ (fun u l hu => hu.darkenLine _ _) _ s h
  · exact h

theorem sameObjs_trimDemand (s : State) (c : Nat) (hp : PartsOk s) : SameObjs s (trimDemand s c) linkObjs := by
  unfold trimDemand
  split
  · exact SameObjs.foldl_parts _ (fun u l hu => ⟨sameObjs_darkenLine u _ _ hu, darkenLine_partsOk u _ _ hu⟩) _ s hp
  · exact SameObjs.refl s _

/-! ### A lane that joins its link (R229, R230, R236) -/

theorem stalls_sub_settle (k : Nat) : [Obj.retryWindowStalls] ⊆ settleObjs k := fun x hx => mem_settleObjs (by simp_all)

theorem sameObjs_startNego (s : State) (k : Nat) : SameObjs s (startNego s k) (settleObjs k) := by
  unfold startNego
  dsimp only
  generalize hu : updLink (forgetHeld s k) k _ = u
  have h1 : SameObjs s u (settleObjs k) := (SameObjs.refl s _).of_dic
    ((congrArg State.dic hu.symm : _).trans (forgetHeld_keeps State.dic (fun _ _ => rfl) s k))
  generalize hv : sendCtl u k _ = v
  have h2 : SameObjs s v (settleObjs k) := h1.trans (hv ▸ (sameObjs_control u k _).mono (stalls_sub_settle k))
  generalize hw : updLink v k _ = w
  exact (h2.of_dic (by rw [← hw]; rfl)).trans (sameCells_settleLink w k).objs

theorem sameObjs_tellJoin (s : State) (k i : Nat) : SameObjs s (tellJoin s k i) [Obj.retryWindowStalls] := by
  unfold tellJoin
  split
  · exact ((SameObjs.refl s _).of_dic rfl).trans (sameObjs_control _ k _)
  · exact (SameObjs.refl s _).of_dic rfl

/-- A lane put on its link, and its line lit. -/
def laneLit (s : State) (k : Nat) (lane : Lane) : State :=
  updSpec (updLink s k (fun l => { l with outLanes := l.outLanes ++ [lane] })) lane.fibre lane.line
    (fun e => { e with lineState := 1, link := k, lane := lane.idx })

theorem joinLane_out (s : State) (k : Nat) (lane : Lane) : joinLane s k true lane =
    if (linkOf (laneLit s k lane) k).nego = 0 ∧ (linkOf (laneLit s k lane) k).darkSince = none
        ∧ (linkOf (laneLit s k lane) k).outLanes ≠ [] ∧ (linkOf (laneLit s k lane) k).inLanes ≠ [] then
      startNego (laneLit s k lane) k
    else settleLink (tellJoin (laneLit s k lane) k lane.idx) k := rfl

theorem joinLane_calm {s : State} {k r : Nat} {lane : Lane} (hl : 17 * lane.fibre + lane.line < s.specMap.length)
    (hr : (ringOf s r).sweep = 0) : LineCalm (joinLane s k true lane) lane.fibre lane.line r := by
  have hlit : LineCalm (laneLit s k lane) lane.fibre lane.line r := by
    refine ⟨?_, hr⟩
    have h := specOf_updSpec_self (s := updLink s k (fun l => { l with outLanes := l.outLanes ++ [lane] }))
      (fun e => { e with lineState := 1, link := k, lane := lane.idx }) hl
    rw [show specOf (laneLit s k lane) lane.fibre lane.line = _ from h]
    exact one_ne_four
  rw [joinLane_out]
  generalize laneLit s k lane = u at *
  split
  · exact hlit.of_eq (startNego_keeps State.specMap (fun _ _ => rfl) u k) (startNego_keeps State.rings (fun _ _ => rfl) u k)
  · exact (hlit.of_eq (tellJoin_keeps State.specMap (fun _ _ => rfl) u k _) (tellJoin_keeps State.rings (fun _ _ => rfl) u k _)).of_eq
      (settleLink_keeps State.specMap (fun _ _ => rfl) _ k) (settleLink_keeps State.rings (fun _ _ => rfl) _ k)

theorem sameObjs_joinLane_out (s : State) (k : Nat) (lane : Lane) : SameObjs s (joinLane s k true lane) (settleObjs k) := by
  have hlit : SameObjs s (laneLit s k lane) (settleObjs k) := (SameObjs.refl s _).of_dic rfl
  rw [joinLane_out]
  generalize laneLit s k lane = u at *
  split
  · exact hlit.trans (sameObjs_startNego u k)
  · exact (hlit.trans ((sameObjs_tellJoin u k _).mono (stalls_sub_settle k))).trans (sameCells_settleLink _ k).objs

/-! ### A new out-lane admitted (R227, R236) -/

theorem linkTo_lt {s : State} {c k : Nat} (hp : PartsOk s) (h : linkTo s c = some k) : k < 64 := by
  obtain ⟨-, -, -, -, -, -, -, -, -, -, -, hlinks, -⟩ := id hp
  obtain ⟨⟨l, i⟩, hmem, hif⟩ := List.exists_of_findSome?_eq_some h
  split at hif
  · cases hif
    have := List.snd_lt_of_mem_zipIdx hmem
    omega
  · cases hif

theorem freeLink_lt {s : State} {k : Nat} (h : freeLink s = some k) : k < 64 := List.mem_range.mp (List.mem_of_find?_eq_some h)

/-- The link to a chip, bound now where there is none: its number, and what binding it leaves. -/
theorem bindLink_some {s : State} {c : Nat} (v : Nat) (hp : PartsOk s)
    (hlen : ∀ k, linkTo s c = some k → (linkOf s k).outLanes.length < 128) (hfree : linkTo s c = none → (freeLink s).isSome = true) :
    ∃ b k, bindLink s c v = (b, some k) ∧ k < 64 ∧ (linkOf b k).outLanes.length < 128 ∧ PartsOk b ∧ b.dic = s.dic := by
  have hparts := bindLink_partsOk s c v hp
  have hdic := bindLink_keeps State.dic (fun _ _ => rfl) s c v
  cases hto : linkTo s c with
  | some k =>
    have heq : bindLink s c v = (s, some k) := by
      unfold bindLink
      rw [hto]
    exact ⟨s, k, heq, linkTo_lt hp hto, hlen k hto, hp, rfl⟩
  | none =>
    obtain ⟨k, hk⟩ := Option.isSome_iff_exists.mp (hfree hto)
    have hlt := freeLink_lt hk
    have heq : bindLink s c v = (updLink { s with strayIn := s.strayIn.filter (fun e => e.1 != c) } k (fun l =>
        { bound := true, peer := c, version := v, inLanes := (s.strayIn.filter (fun e => e.1 == c)).map Prod.snd,
          tx := l.tx, rx := l.rx }), some k) := by
      unfold bindLink
      rw [hto, hk]
    rw [heq] at hparts hdic
    refine ⟨_, k, heq, hlt, ?_, hparts, hdic⟩
    obtain ⟨-, -, -, -, -, -, -, -, -, -, -, hlinks, -⟩ := id hp
    rw [linkOf_updLink_self { s with strayIn := s.strayIn.filter (fun e => e.1 != c) } k _ (show k < s.links.length by omega)]
    exact Nat.zero_lt_succ 127

/-- A state in which a new out-lane to a chip may join link k: its ring locked, the round trip kept, the demand met. -/
def admitReady (b : State) (x j k c rtt : Nat) : State :=
  { objPut (lockRing b true x j) (Obj.linkRttNs + k) rtt with
    needDemand := (objPut (lockRing b true x j) (Obj.linkRttNs + k) rtt).needDemand.erase c }

/-- A new out-lane, which takes the lowest free index. -/
def freshLane (b : State) (x j k : Nat) : Lane := { fibre := x, line := j, idx := freeIdx (linkOf b k).outLanes, why := 0 }

theorem admitOut_bound {s b : State} {x j c k : Nat} (t : TrainResult) (hpeer : peerOn s true x j = some c) (hc : c ≠ chip s)
    (hb : bindLink s c (if smGetD s.peerVer c 2 = 1 then 1 else 2) = (b, some k)) (hfull : (linkOf b k).outLanes.length < 128) :
    admitOut s x j t = trimDemand (joinLane (admitReady b x j k c t.rttNs) k true (freshLane b x j k)) c := by
  unfold admitOut
  rw [hpeer]
  dsimp only
  rw [if_neg hc, hb]
  exact if_neg (Nat.not_le.mpr hfull)

/-- What is left when the lane's ring is locked: the ring, locked and not swept, and no other. -/
theorem admitReady_facts {s b : State} {x j k : Nat} (c rtt : Nat) (hx : x < 32) (hj : j < 17) (hp : PartsOk b)
    (hd : b.dic = s.dic) :
    PartsOk (admitReady b x j k c rtt) ∧ SameObjs s (admitReady b x j k c rtt) [Obj.linkRttNs + k]
      ∧ objGet (admitReady b x j k c rtt) (Obj.linkRttNs + k) = rtt
      ∧ (ringOf (admitReady b x j k c rtt) (modRing x j)).sweep = 0
      ∧ (ringOf (admitReady b x j k c rtt) (modRing x j)).locked = true := by
  have hself := ringOf_updRing_self { b with trainFails := b.trainFails.erase (modRing x j) } (modRing x j)
    (fun g => { g with locked := true, parked := false, bad := 0, fullFails := 0, sweep := 0, cwPos := 0, cwBad := false })
    (rings_lt hp (modRing_lt hx hj))
  have hring : ringOf (lockRing b true x j) (modRing x j) = _ := hself
  have hlp := lockRing_partsOk b true x j hp
  have hld : (lockRing b true x j).dic = s.dic := (lockRing_keeps State.dic (fun _ _ => rfl) b true x j).trans hd
  unfold admitReady
  generalize lockRing b true x j = u at *
  have hput : SameObjs s (objPut u (Obj.linkRttNs + k) rtt) [Obj.linkRttNs + k] :=
    ((SameObjs.refl s _).of_dic hld).objPut _ _ (List.mem_cons_self ..)
  exact ⟨(objPut_keeps PartsOk (fun _ _ => rfl) u (Obj.linkRttNs + k) rtt).mpr hlp, hput.of_dic rfl,
    objGet_objPut_self u (Obj.linkRttNs + k) rtt,
    (congrArg Ring.sweep hring :), (congrArg Ring.locked hring :)⟩

theorem admitOut_facts {s : State} {x j c : Nat} (t : TrainResult) (hx : x < 32) (hj : j < 17) (hp : PartsOk s)
    (hpeer : peerOn s true x j = some c) (hc : c ≠ chip s)
    (hlen : ∀ k, linkTo s c = some k → (linkOf s k).outLanes.length < 128) (hfree : linkTo s c = none → (freeLink s).isSome = true) :
    LineCalm (admitOut s x j t) x j (modRing x j) ∧ SameObjs s (admitOut s x j t) linkObjs := by
  obtain ⟨b, k, hb, hk, hfull, hparts, hdic⟩ := bindLink_some (if smGetD s.peerVer c 2 = 1 then 1 else 2) hp hlen hfree
  obtain ⟨hwp, hws, -, hwr, -⟩ := admitReady_facts (k := k) c t.rttNs hx hj hparts hdic
  rw [admitOut_bound t hpeer hc hb hfull]
  generalize admitReady b x j k c t.rttNs = y at *
  have hjoin := (sameObjs_joinLane_out y k (freshLane b x j k)).mono (settleObjs_sub_link hk)
  have hcalm := joinLane_calm (k := k) (lane := freshLane b x j k) (spec_lt hwp hx hj) hwr
  have hjp := joinLane_partsOk y k true (freshLane b x j k) hwp
  have hrtt : [Obj.linkRttNs + k] ⊆ linkObjs := fun z hz => by
    rw [List.mem_singleton.mp hz]
    exact linkRttNs_mem_link hk
  generalize joinLane y k true _ = z at *
  exact ⟨hcalm.trimDemand c, ((hws.mono hrtt).trans hjoin).trans (sameObjs_trimDemand z c hjp)⟩

/-! ### Grants (R227, R237) -/

/-- The state in which a granted line's training has been sent. -/
def grantTrained (s : State) (x j : Nat) : State := emit s (.training x j (outTag s x j))

theorem takeGrant_admitted {s : State} {x j : Nat} {r : TrainResult} (hr : smGet s.reassign x = some j)
    (hv : verdict s true x j r = .admitted) : takeGrant s x j r =
      if (specOf (admitOut { grantTrained s x j with reassign := smErase s.reassign x } x j r) x j).lineState = 4 then
        updSpec (admitOut { grantTrained s x j with reassign := smErase s.reassign x } x j r) x j (fun e => { e with lineState := 0 })
      else objInc (admitOut { grantTrained s x j with reassign := smErase s.reassign x } x j r) Obj.reassignments := by
  unfold takeGrant
  rw [if_neg (not_not_intro hr)]
  dsimp only
  rw [hv]
  rfl

theorem takeGrant_skewed {s : State} {x j : Nat} {r : TrainResult} (hr : smGet s.reassign x = some j)
    (hv : verdict s true x j r = .skewed) : takeGrant s x j r = refuseSkew (grantTrained s x j) true x j := by
  unfold takeGrant
  rw [if_neg (not_not_intro hr)]
  dsimp only
  rw [hv]
  rfl

theorem takeGrant_failed {s : State} {x j : Nat} {r : TrainResult} (hr : smGet s.reassign x = some j)
    (hv : verdict s true x j r = .failed) : takeGrant s x j r = failTraining (grantTrained s x j) true x j := by
  unfold takeGrant
  rw [if_neg (not_not_intro hr)]
  dsimp only
  rw [hv]
  rfl

theorem lineGrant_admitted {x j c : Nat} {r : TrainResult} {s : State} (hx : x < 32) (hj : j < 17) (hp : PartsOk s)
    (hr : smGet s.reassign x = some j) (hv : verdict s true x j r = .admitted) (hpeer : peerOn s true x j = some c) (hc : c ≠ chip s)
    (hlen : ∀ k, linkTo s c = some k → (linkOf s k).outLanes.length < 128) (hfree : linkTo s c = none → (freeLink s).isSome = true) :
    ∃ t, exec (.lineGrant x j r) s = .next t ∧ smGet t.reassign x = none ∧ Counted s t Obj.reassignments 1
      ∧ .training x j (outTag s x j) ∈ t.out ∧ (ringOf t (modRing x j)).sweep = 0
      ∧ (∀ y, y ≠ x → smGet t.reassign y = smGet s.reassign y) ∧ SameObjs s t (Obj.reassignments :: linkObjs)
      ∧ t.skewHold = s.skewHold ∧ t.recovery = s.recovery := by
  have heq := takeGrant_admitted hr hv
  have hout : (grantTrained s x j).out = s.out ++ [.training x j (outTag s x j)] := rfl
  have hfacts := admitOut_facts (s := { grantTrained s x j with reassign := smErase s.reassign x }) r hx hj hp hpeer hc hlen hfree
  have hkeep {γ : Type} (vw : State → γ) (hg : ∀ s t, vw (foot12_1 s t) = vw s) :=
    admitOut_keeps vw hg { grantTrained s x j with reassign := smErase s.reassign x } x j r
  have hre := hkeep State.reassign (fun _ _ => rfl)
  have hou := (hkeep State.out (fun _ _ => rfl)).trans hout
  have hsk : _ = s.skewHold := hkeep State.skewHold (fun _ _ => rfl)
  have hrc : _ = s.recovery := hkeep State.recovery (fun _ _ => rfl)
  have hsame : SameObjs s (admitOut { grantTrained s x j with reassign := smErase s.reassign x } x j r) linkObjs := hfacts.2
  generalize admitOut { grantTrained s x j with reassign := smErase s.reassign x } x j r = u at *
  rw [if_neg hfacts.1.1] at heq
  refine ⟨_, (need_of (by simp [hx, hj]) _).trans (congrArg Host.Outcome.next heq), ?_, ?_, ?_, hfacts.1.2, fun y hy => ?_,
    (hsame.mono (List.subset_cons_self _ _)).objInc _ (List.mem_cons_self ..), hsk, hrc⟩
  · exact (congrArg (smGet · x) hre).trans (smGet_smErase_self _ _)
  · unfold Counted
    rw [objGet_objInc_self, hsame _ (not_mem_linkObjs (by decide))]
  · rw [show (objInc u Obj.reassignments).out = _ from hou]
    exact List.mem_append_right _ (List.mem_cons_self ..)
  · exact (congrArg (smGet · y) hre).trans (smGet_smErase_ne _ _ _ hy)

theorem lineGrant_skewed {x j : Nat} {r : TrainResult} {s : State} (hx : x < 32) (hj : j < 17) (hp : PartsOk s)
    (hr : smGet s.reassign x = some j) (hv : verdict s true x j r = .skewed) :
    ∃ t, exec (.lineGrant x j r) s = .next t ∧ smGet t.reassign x = none
      ∧ smGet t.skewHold (modRing x j) = some (s.now + ms 1000) ∧ SameObjs s t linkObjs := by
  have heq := (takeGrant_skewed hr hv).trans (refuseSkew_eq _ true x j)
  have hheld : SameObjs s (skewHeld (grantTrained s x j) true x j) linkObjs :=
    ((SameObjs.refl s _).of_dic (u := grantTrained s x j) rfl).trans
      (((SameObjs.refl _ _).journal _ _ journalObjs_sub_link).of_dic rfl)
  have hhold : smGet (skewHeld (grantTrained s x j) true x j).skewHold (modRing x j) = some (s.now + ms 1000) :=
    smGet_smSet_self _ _ _
  have hparts : PartsOk (skewHeld (grantTrained s x j) true x j) :=
    (journal_keeps PartsOk (fun _ _ => rfl) (grantTrained s x j) _ _).mpr hp
  have hre : (skewHeld (grantTrained s x j) true x j).reassign = s.reassign :=
    journal_keeps State.reassign (fun _ _ => rfl) (grantTrained s x j) _ _
  generalize skewHeld (grantTrained s x j) true x j = u at *
  obtain ⟨h1, -, h3⟩ := skewDropped_facts u true x j hparts
  refine ⟨_, (need_of (by simp [hx, hj]) _).trans (congrArg Host.Outcome.next heq), ?_, ?_, hheld.trans h3⟩
  · have hd : (skewDropped u true x j).reassign = smErase s.reassign x := by
      unfold skewDropped
      rw [if_pos rfl, darkenLine_keeps State.reassign (fun _ _ => rfl)]
      show (if smGet u.reassign x = some j then smErase u.reassign x else u.reassign) = _
      rw [hre, if_pos hr]
    exact (congrArg (smGet · x) hd).trans (smGet_smErase_self _ _)
  · rw [h1]
    exact hhold

theorem lineGrant_failed {x j : Nat} {r : TrainResult} {s : State} (hx : x < 32) (hj : j < 17)
    (hr : smGet s.reassign x = some j) (hv : verdict s true x j r = .failed) (hf : findLane s true x j = none)
    (hn : modRing x j ∉ s.trainFails) :
    exec (.lineGrant x j r) s = .next { s with
      out := s.out ++ [.training x j (outTag s x j)], trainFails := s.trainFails ++ [modRing x j] } := by
  refine (need_of (by simp [hx, hj]) _).trans (congrArg Host.Outcome.next ((takeGrant_failed hr hv).trans ?_))
  unfold failTraining
  dsimp only
  rw [show findLane (grantTrained s x j) true x j = none from hf]
  exact if_neg fun h => hn (List.contains_iff_mem.mp h)

theorem lineGrant_other (x j : Nat) (r : TrainResult) (s : State) (hx : x < 32) (hj : j < 17) (h : smGet s.reassign x ≠ some j) :
    exec (.lineGrant x j r) s = .next s ∧ exec (.lineRefuse x j) s = .next s :=
  ⟨(need_of (by simp [hx, hj]) _).trans (congrArg Host.Outcome.next (if_pos h)),
    (need_of (by simp [hx, hj]) _).trans (congrArg Host.Outcome.next (if_pos h))⟩

/-- Settles O22: beacons go out, are heard and expire, and lines are asked for, granted, refused and trained, each as its own lemma
says. -/
theorem beaconsAndLinesOnDemand : Obligations.BeaconsAndLinesOnDemand := by
  unfold Obligations.BeaconsAndLinesOnDemand
  refine ⟨beaconSend_sent, beaconSend_none, beaconReceive_ignored, beaconReceive_own, beaconReceive_other, mapEntryExpire_holds,
    laneDemandCommit_holds, lineRequestSend_asks, fun c x j k s hk hj hc hf hl => ⟨fun h hb => ?_, ?_⟩, lineRequest_refused,
    fun x j c r s hx hj hp hr => ⟨fun hv hpeer hc hlen hfree => ?_, fun hv => ?_, fun hv hf hn => ?_⟩, lineRefuse_holds,
    lineGrant_other, lineRequestSend_idle⟩
  · exact lineRequest_known c x j k s hk hj hc hf hl h hb
  · intro hto hfree hb hbegun hback
    exact lineRequest_new c x j k s hk hj hc hf hl hto hfree hb hbegun hback
  · exact lineGrant_admitted hx hj hp hr hv hpeer hc hlen hfree
  · exact lineGrant_skewed hx hj hp hr hv
  · exact lineGrant_failed hx hj hr hv hf hn

end Sys2Proof.Machine

/-!
Flits (O23): a flit without an uncorrectable codeword adds nothing to its island's count, and so cannot bring a count that stands beyond
the top of its type back to it.
-/

namespace Sys2Proof.Machine

/-- A module whose facet 0 has counted more uncorrectable codewords than FecUncorrectable can hold. -/
def countBeyond : State :=
  { State.reset with wires := [(islandIx (.facet 0), { counts := [(Obj.fecUncorrectable, 2 ^ 64)] })] }

/-- An idle flit without an error, on a line that carries no lane. -/
def cleanFlit : Flit :=
  { crcOk := true, uncorrectable := 0, corrected := 0, tag := { outFibre := 0, line := 0, laneIndex := 0, linkId := 0 }
    switch := false, phase := false, flitSeq := 0, ackSeq := 0, nak := none, creditVC := 0, creditCount := 0, body := .idle }

theorem wires_cleanFlit : (takeFlit countBeyond 0 0 cleanFlit).wires = countBeyond.wires := rfl

theorem countBeyond_top : satAdd (objTop Obj.fecUncorrectable) (2 ^ 64) cleanFlit.uncorrectable = 2 ^ 64 - 1 := by decide

/-- Refutes O23: a flit with no uncorrectable codeword leaves its island's count as it is, but the statement has 0 added to it and the
sum held at the top of its type, which a value beyond the top is not. -/
theorem not_flitsDeliveredOrResent : ¬ Obligations.FlitsDeliveredOrResent := by
  unfold Obligations.FlitsDeliveredOrResent
  intro h
  obtain ⟨-, -, -, -, -, hnone, -⟩ := h
  obtain ⟨t, hexec, -, hseen⟩ := hnone 0 0 cleanFlit countBeyond (by decide) (by decide) reset_partsOk (by decide) (by decide)
  have ht : takeFlit countBeyond 0 0 cleanFlit = t := Host.Outcome.next.inj hexec
  obtain ⟨-, hcount, -⟩ := hseen
  have hkey := hcount Obj.fecUncorrectable
  rw [if_pos rfl, ← ht, wires_cleanFlit] at hkey
  exact absurd (hkey.trans countBeyond_top) (by decide)

end Sys2Proof.Machine

/-!
What a link that settles keeps: its in-lanes, the control flits given to it, and how it starts to negotiate (R237, R241 to R246).
-/

namespace Sys2Proof.Machine

/-! ### The cases of a link that settles -/

theorem links_lt {s : State} {k : Nat} (hp : PartsOk s) (hk : k < 64) : k < s.links.length := by
  obtain ⟨-, -, -, -, -, -, -, -, -, -, -, h, -⟩ := hp
  omega

theorem settleLink_cases (s : State) (k : Nat) :
    settleLink s k = objPut s (Obj.linkState + k) 4 ∨ settleLink s k = noteTimes (objPut s (Obj.linkState + k) 3) k
      ∨ settleLink s k = noteTimes (goDark s k 1) k
      ∨ ∃ u, (u = goGrey s k ∨ ∃ v, u = objPut s (Obj.linkState + k) v) ∧ settleLink s k = noteTimes (tellCause u k) k := by
  unfold settleLink
  dsimp only
  split
  · exact Or.inl rfl
  · split
    · exact Or.inr (Or.inl rfl)
    · split
      · exact Or.inr (Or.inl rfl)
      · split
        · exact Or.inr (Or.inr (Or.inl rfl))
        · refine Or.inr (Or.inr (Or.inr ⟨_, ?_, rfl⟩))
          split
          · exact Or.inl rfl
          · exact Or.inr ⟨_, rfl⟩

/-- A formed part of a link that is bound, has lanes both ways, is not Dark and negotiates is Dark until it has negotiated. -/
theorem settleLink_negotiating {s : State} {k : Nat} (hb : (linkOf s k).bound = true) (ho : (linkOf s k).outLanes ≠ [])
    (hi : (linkOf s k).inLanes ≠ []) (hn : (linkOf s k).nego ≠ 3) :
    settleLink s k = noteTimes (objPut s (Obj.linkState + k) 3) k := by
  unfold settleLink
  dsimp only
  rw [if_neg (by simp [hb, ho, hi])]
  split
  · rfl
  · exact if_pos (by simp [hn])

theorem settleLink_unformed {s : State} {k : Nat}
    (h : (linkOf s k).bound = false ∨ (linkOf s k).outLanes = [] ∨ (linkOf s k).inLanes = []) :
    settleLink s k = objPut s (Obj.linkState + k) 4 := by
  unfold settleLink
  refine if_pos ?_
  rcases h with h | h | h
  · simp [h]
  · simp [h]
  · simp [h]

theorem linkState_objPut (s : State) (k v : Nat) : linkState (objPut s (Obj.linkState + k) v) k = v := objGet_objPut_self ..

theorem linkState_noteTimes (s : State) (k i : Nat) : linkState (noteTimes s k) i = linkState s i := rfl

/-! ### In-lanes -/

/-- What an update of a link leaves of it, if the update's function does. -/
theorem linkField_updLink {γ : Type} (g : Link → γ) (s : State) (k : Nat) (f : Link → Link) (hf : ∀ l, g (f l) = g l) :
    g (linkOf (updLink s k f) k) = g (linkOf s k) := by
  by_cases hk : k < s.links.length
  · rw [linkOf_updLink_self s k f hk, hf]
  · rw [linkOf_updLink_ge f (by omega)]

theorem inLanes_ctlGiven (now : Nat) (c : Ctl) (l : Link) : (ctlGiven now c l).inLanes = l.inLanes := by
  unfold ctlGiven flitGiven
  split
  · rfl
  · split
    · split
      · rfl
      · rfl
    · rfl

theorem inLanes_sendCtl (s : State) (k : Nat) (c : Ctl) : (linkOf (sendCtl s k c) k).inLanes = (linkOf s k).inLanes := by
  by_cases hk : k < s.links.length
  · rw [linkOf_sendCtl_self s k c hk, inLanes_ctlGiven]
  · have hl := (linkKept_sendCtl s k c).1
    rw [linkOf_of_le s (by omega), linkOf_of_le (sendCtl s k c) (by omega)]

theorem inLanes_tellCause (s : State) (k : Nat) : (linkOf (tellCause s k) k).inLanes = (linkOf s k).inLanes := by
  unfold tellCause
  dsimp only
  split
  · rfl
  · rw [inLanes_sendCtl]
    exact linkField_updLink Link.inLanes s k _ fun _ => rfl

theorem inLanes_noteTimes (s : State) (k : Nat) : (linkOf (noteTimes s k) k).inLanes = (linkOf s k).inLanes :=
  linkField_updLink Link.inLanes s k _ fun _ => rfl

theorem inLanes_goGrey (s : State) (k : Nat) : (linkOf (goGrey s k) k).inLanes = (linkOf s k).inLanes := by
  unfold goGrey handBack
  rw [linkOf_congr (journal_links _ _ _) k, linkOf_objPut, linkOf_congr (links_reinject _ _ _ _) k]
  exact linkField_updLink Link.inLanes s k _ fun _ => rfl

theorem inLanes_goDark (s : State) (k cause : Nat) :
    (linkOf (goDark s k cause) k).inLanes = (linkOf s k).inLanes.map laneJoined := by
  by_cases hk : k < s.links.length
  · rw [linkOf_goDark_self s k cause hk]
    rfl
  · rw [linkOf_of_le s (by omega), linkOf_of_le (goDark s k cause) (by rw [length_links_goDark]; omega)]
    rfl

/-- A link that settles keeps its in-lanes, or, gone Dark, lets those that waited for a LaneJoin carry flits. -/
theorem inLanes_settleLink (s : State) (k : Nat) : (linkOf (settleLink s k) k).inLanes = (linkOf s k).inLanes
    ∨ (linkOf (settleLink s k) k).inLanes = (linkOf s k).inLanes.map laneJoined := by
  rcases settleLink_cases s k with h | h | h | ⟨u, hu, h⟩
  · exact Or.inl (by rw [h, linkOf_objPut])
  · exact Or.inl (by rw [h, inLanes_noteTimes, linkOf_objPut])
  · exact Or.inr (by rw [h, inLanes_noteTimes, inLanes_goDark])
  · refine Or.inl ?_
    rw [h, inLanes_noteTimes, inLanes_tellCause]
    rcases hu with rfl | ⟨v, rfl⟩
    · exact inLanes_goGrey s k
    · exact congrArg Link.inLanes (linkOf_objPut s _ v k)

/-- What holds of a lane that does not wait, and of those that no longer do, holds of every in-lane once the link has settled. -/
theorem forall_inLanes_settleLink {P : Lane → Prop} {s : State} {k : Nat} (h : ∀ a ∈ (linkOf s k).inLanes, P a)
    (hP : ∀ a, P a → P (laneJoined a)) : ∀ a ∈ (linkOf (settleLink s k) k).inLanes, P a := by
  intro a ha
  rcases inLanes_settleLink s k with hl | hl
  · rw [hl] at ha
    exact h a ha
  · rw [hl] at ha
    obtain ⟨b, hb, rfl⟩ := List.mem_map.mp ha
    exact hP b (h b hb)

/-! ### Control flits given -/

theorem HoldsCtl.flitGiven {l : Link} {c : Ctl} (h : HoldsCtl l c) (now : Nat) (b : FlitBody) :
    HoldsCtl (flitGiven now b l) c := by
  unfold Machine.flitGiven
  split
  · exact h
  · exact h.imp (fun ⟨u, hu, hb⟩ => ⟨u, List.mem_append_left _ hu, hb⟩) id

theorem HoldsCtl.ctlGiven {l : Link} {c : Ctl} (h : HoldsCtl l c) (now : Nat) (c' : Ctl) : HoldsCtl (ctlGiven now c' l) c := by
  unfold Machine.ctlGiven
  split
  · exact h
  · split
    · exact h.flitGiven now _
    · exact h.imp id fun hc => List.mem_append_left _ hc

theorem given_sendCtl_of {s : State} {k : Nat} {c c' : Ctl} (hk : k < s.links.length) (h : Given s k c) :
    Given (sendCtl s k c') k c := by
  rw [given_iff] at h ⊢
  rw [linkOf_sendCtl_self s k c' hk]
  exact h.ctlGiven _ _

theorem given_updLink {s : State} {k : Nat} {c : Ctl} {f : Link → Link} (hk : k < s.links.length) (h : Given s k c)
    (hf : HoldsCtl (linkOf s k) c → HoldsCtl (f (linkOf s k)) c) : Given (updLink s k f) k c := by
  rw [given_iff] at h ⊢
  rw [linkOf_updLink_self s k f hk]
  exact hf h

theorem given_goGrey {s : State} {k : Nat} {c : Ctl} (hk : k < s.links.length) (h : Given s k c) : Given (goGrey s k) k c := by
  unfold goGrey handBack
  refine Given.of_links (s := updLink s k _) (given_updLink hk h fun h => ?_)
    ((journal_links _ _ _).trans (links_reinject _ _ _ _))
  refine h.imp (fun ⟨u, hu, hb⟩ => ⟨u, ?_, hb⟩) id
  exact List.mem_filter.mpr ⟨hu, by simp [keptInGrey, hb]⟩

/-- A control flit given to a link stays given once it has settled, unless it has gone Dark. -/
theorem given_settleLink {s : State} {k : Nat} {c : Ctl} (hk : k < 64) (hl : k < s.links.length) (h : Given s k c)
    (hn : linkState (settleLink s k) k ≠ 3) : Given (settleLink s k) k c := by
  have hnote {u : State} (hu : Given u k c) (hlen : k < u.links.length) : Given (noteTimes u k) k c :=
    given_updLink hlen hu id
  rcases settleLink_cases s k with heq | heq | heq | ⟨u, hu, heq⟩
  · rw [heq]
    exact Given.of_links h rfl
  · rw [heq, linkState_noteTimes, linkState_objPut] at hn
    exact absurd rfl hn
  · rw [heq, linkState_noteTimes, linkState_goDark s k 1 hk] at hn
    exact absurd rfl hn
  · have hgu : Given u k c ∧ k < u.links.length := by
      rcases hu with rfl | ⟨v, rfl⟩
      · exact ⟨given_goGrey hl h, by rw [(linkKept_goGrey s k).1]; exact hl⟩
      · exact ⟨Given.of_links h rfl, hl⟩
    rw [heq]
    refine hnote ?_ (by rw [(linkKept_tellCause u k).1]; exact hgu.2)
    unfold tellCause
    dsimp only
    split
    · exact hgu.1
    · exact given_sendCtl_of (by rw [length_links_updLink]; exact hgu.2) (given_updLink hgu.2 hgu.1 id)

/-! ### Negotiation started (R246) -/

/-- A link whose numbering and buffers start anew. -/
def negoBegun (l : Link) : Link :=
  { l with
    nego := 1, darkSince := none, okSince := none, txSeq := 0, rxNext := 0, rxHeld := [], nak := none, asked := none,
    unacked := [], waitCtl := [], told := 0, occ := List.replicate 10 0, owe := List.replicate 10 0,
    deficit := [0, 0, 0, 0],
    outLanes := l.outLanes.map (fun (a : Lane) => { a with q := [], told := false })
    inLanes := l.inLanes.map (fun (a : Lane) => { a with last := none, later := none }) }

/-- The first control flit of a link. -/
def capabilityOf (l : Link) : Ctl := .capability l.version (capsOf l.version) Config.epochProto

/-- The causes a link starts with. -/
def causesBegun (cs : List Nat) (l : Link) : Link :=
  { l with causes := (l.causes.filter (fun c => c != 2 && c != 5) ++ cs).dedup }

theorem startNego_eq (s : State) (k : Nat) : startNego s k = settleLink
    (updLink (sendCtl (updLink (forgetHeld s k) k negoBegun) k (capabilityOf (linkOf (updLink (forgetHeld s k) k negoBegun) k))) k
      (causesBegun (firstCauses (sendCtl (updLink (forgetHeld s k) k negoBegun) k
        (capabilityOf (linkOf (updLink (forgetHeld s k) k negoBegun) k))) k))) k := rfl

/-- The link a negotiation has been started on, its causes apart. -/
def capabilityGiven (now : Nat) (l : Link) : Link := flitGiven now (.control (capabilityOf l)) (negoBegun l)

/-- A link, its negotiation started and Capability given to it. -/
def negoSent (s : State) (k : Nat) (cs : List Nat) : State :=
  updLink (updLink (updLink (forgetHeld s k) k negoBegun) k (flitGiven s.now (.control (capabilityOf (linkOf s k))))) k (causesBegun cs)

/-- With an out-lane, a negotiation sends Capability at once, and no count of waits changes. -/
theorem sendCtl_capability {s : State} {k : Nat} (hk : k < s.links.length) (ho : (linkOf s k).outLanes ≠ []) :
    sendCtl (updLink (forgetHeld s k) k negoBegun) k (capabilityOf (linkOf (updLink (forgetHeld s k) k negoBegun) k))
      = updLink (updLink (forgetHeld s k) k negoBegun) k (flitGiven s.now (.control (capabilityOf (linkOf s k)))) := by
  have hlinks := forgetHeld_keeps State.links (fun _ _ => rfl) s k
  have hnow := forgetHeld_keeps State.now (fun _ _ => rfl) s k
  have hof := linkOf_congr hlinks k
  generalize forgetHeld s k = u at *
  have hself := linkOf_updLink_self u k negoBegun (by rw [hlinks]; exact hk)
  rw [hof] at hself
  have hcap : capabilityOf (linkOf (updLink u k negoBegun) k) = capabilityOf (linkOf s k) := by
    rw [hself]
    rfl
  have hpos : 0 < (linkOf s k).outLanes.length := List.length_pos_iff.mpr ho
  rw [hcap]
  unfold sendCtl
  dsimp only
  rw [hself, if_neg (by simp [capabilityOf, ctlFits, negoBegun]), if_pos ⟨by simp [retryWindow, negoBegun, hpos], rfl⟩, sendFlit_eq]
  rw [show (updLink u k negoBegun).now = s.now from hnow]

theorem linkOf_negoSent_self {s : State} {k : Nat} (cs : List Nat) (hk : k < s.links.length) :
    linkOf (negoSent s k cs) k = causesBegun cs (capabilityGiven s.now (linkOf s k)) := by
  have hlinks := forgetHeld_keeps State.links (fun _ _ => rfl) s k
  have hof := linkOf_congr hlinks k
  have hlen : k < (forgetHeld s k).links.length := by rw [hlinks]; exact hk
  unfold negoSent
  rw [linkOf_updLink_self _ k _ (by rw [length_links_updLink, length_links_updLink]; exact hlen),
    linkOf_updLink_self _ k _ (by rw [length_links_updLink]; exact hlen), linkOf_updLink_self _ k _ hlen, hof]
  rfl

theorem linkOf_negoSent_ne (s : State) {k i : Nat} (cs : List Nat) (h : i ≠ k) : linkOf (negoSent s k cs) i = linkOf s i := by
  unfold negoSent
  rw [linkOf_updLink_ne _ k i _ h, linkOf_updLink_ne _ k i _ h, linkOf_updLink_ne _ k i _ h]
  exact linkOf_congr (forgetHeld_keeps State.links (fun _ _ => rfl) s k) i

/-- What a flit given changes of a link: its numbering, what it keeps, and its lanes' queues. -/
theorem flitGiven_frame (now : Nat) (b : FlitBody) (l : Link) : flitGiven now b l =
    { l with txSeq := (flitGiven now b l).txSeq, unacked := (flitGiven now b l).unacked, outLanes := (flitGiven now b l).outLanes } := by
  unfold flitGiven
  split
  · rfl
  · rfl

theorem capabilityGiven_frame (now : Nat) (l : Link) : capabilityGiven now l = { negoBegun l with
    txSeq := (capabilityGiven now l).txSeq, unacked := (capabilityGiven now l).unacked
    outLanes := (capabilityGiven now l).outLanes } := flitGiven_frame now _ (negoBegun l)

/-- What of an out-lane neither its queue nor its word of a LaneJoin is part of. -/
theorem map_outLanes_capabilityGiven {γ : Type} (f : Lane → γ) (hf : ∀ (a : Lane) b, f { a with q := [], told := b } = f a)
    (now : Nat) (l : Link) : (capabilityGiven now l).outLanes.map f = l.outLanes.map f := by
  have h1 := map_outLanes_of_fixed f (fun a => hf a a.told) (fixedLink_flitGiven now (.control (capabilityOf l)) (negoBegun l))
  refine h1.trans ?_
  show (l.outLanes.map (fun (a : Lane) => { a with q := [], told := false })).map f = _
  rw [List.map_map]
  exact List.map_congr_left fun a _ => hf a false

/-- With a lane in service, the link's first flit is its Capability. -/
theorem capabilityGiven_sent {now : Nat} {l : Link} (h : ∃ a ∈ l.outLanes, a.why = 0) :
    (capabilityGiven now l).txSeq = 1 ∧ (capabilityGiven now l).unacked
      = [{ seq := 0, sends := 1, born := now, at_ := now, body := .control (capabilityOf l) }] := by
  obtain ⟨a, ha, hw⟩ := h
  have hmem : { a with q := [], told := false } ∈ (negoBegun l).outLanes.filter
      (fun (a : Lane) => laneUp a && some a.idx != bodyLane (.control (capabilityOf l))) :=
    List.mem_filter.mpr ⟨List.mem_map.mpr ⟨a, ha, rfl⟩, by simp [laneUp, hw, bodyLane, ctlLane, capabilityOf]⟩
  have hlane : ∃ i, laneFor (negoBegun l) (.control (capabilityOf l)) = some i := by
    unfold laneFor
    cases hf : (negoBegun l).outLanes.filter
        (fun (a : Lane) => laneUp a && some a.idx != bodyLane (.control (capabilityOf l))) with
    | nil =>
      rw [hf] at hmem
      cases hmem
    | cons b r => exact ⟨_, rfl⟩
  obtain ⟨i, hi⟩ := hlane
  unfold capabilityGiven flitGiven
  rw [hi]
  exact ⟨rfl, rfl⟩

theorem outLanes_capabilityGiven {now : Nat} {l : Link} (h : l.outLanes ≠ []) : (capabilityGiven now l).outLanes ≠ [] := by
  have hm := congrArg List.length (map_outLanes_capabilityGiven (fun _ => ()) (fun _ _ => rfl) now l)
  rw [List.length_map, List.length_map] at hm
  exact List.length_pos_iff.mp (hm ▸ List.length_pos_iff.mpr h)

/-- A negotiation of a bound link with lanes both ways, in one step. -/
theorem startNego_formed {s : State} {k : Nat} (hk : k < s.links.length) (hb : (linkOf s k).bound = true)
    (ho : (linkOf s k).outLanes ≠ []) (hi : (linkOf s k).inLanes ≠ []) :
    ∃ cs, startNego s k = noteTimes (objPut (negoSent s k cs) (Obj.linkState + k) 3) k := by
  rw [startNego_eq, sendCtl_capability hk ho]
  generalize firstCauses _ k = cs
  refine ⟨cs, settleLink_negotiating (s := negoSent s k cs) ?_ ?_ ?_ ?_⟩
  · rw [linkOf_negoSent_self cs hk, capabilityGiven_frame]
    exact hb
  · rw [linkOf_negoSent_self cs hk]
    exact outLanes_capabilityGiven ho
  · rw [linkOf_negoSent_self cs hk, capabilityGiven_frame]
    exact fun h => hi (List.map_eq_nil_iff.mp h)
  · rw [linkOf_negoSent_self cs hk, capabilityGiven_frame]
    exact Nat.ne_of_lt (by decide : 1 < 3)

end Sys2Proof.Machine

/-!
Links that form again, are removed or lose a lane (R243, R244, O25).
-/

namespace Sys2Proof.Machine

/-! ### Links formed again (R243) -/

theorem reform_idle {s : State} {k : Nat} (h : (linkOf s k).darkSince = none ∨ (linkOf s k).okSince = none
    ∨ atMinimum s (linkOf s k) = false) : reform s k = s := by
  unfold reform
  dsimp only
  split
  next d t hd ho =>
    rw [hd, ho] at h
    simp only [reduceCtorEq, false_or] at h
    exact if_neg (by simp [h])
  · rfl

theorem reform_runs {s : State} {k d c : Nat} (hb : (linkOf s k).bound = true) (hd : (linkOf s k).darkSince = some d)
    (ho : (linkOf s k).okSince = some c) (ht : c + ms 1 ≤ s.now) (hm : atMinimum s (linkOf s k) = true) :
    reform s k = startNego s k := by
  unfold reform
  dsimp only
  rw [hd, ho]
  exact if_pos (by simp [hb, hm, ht])

theorem held_forgetHeld (s : State) (k : Nat) (h : Half) :
    (routerOf (forgetHeld s k) h).held.map Held.p = (routerOf s h).held.map Held.p := by
  have hf (l : List Held) : (l.map (fun (x : Held) => if x.from_ = some k then { x with owes := false } else x)).map Held.p
      = l.map Held.p := by
    rw [List.map_map]
    refine List.map_congr_left fun x _ => ?_
    show (if x.from_ = some k then { x with owes := false } else x).p = x.p
    split
    · rfl
    · rfl
  cases h
  · exact hf _
  · exact hf _

theorem footRouters_self (s : State) : footRouterWRouterE s s = s := rfl

/-- What a negotiation's start may change before its link is Dark. -/
def negoFoot (s t : State) : State := { s with links := t.links, routerW := t.routerW, routerE := t.routerE }

theorem negoSent_keeps {γ : Type} (vw : State → γ) (hg : ∀ s t, vw (negoFoot s t) = vw s) (s : State) (k : Nat) (cs : List Nat) :
    vw (negoSent s k cs) = vw s :=
  have hl := fun s t => hg s (footLinks s t)
  ((updLink_keeps vw hl _ k _).trans (updLink_keeps vw hl _ k _)).trans
    ((updLink_keeps vw hl _ k _).trans (forgetHeld_keeps vw (fun s t => hg s (footRouterWRouterE s t)) s k))

theorem dic_negoSent (s : State) (k : Nat) (cs : List Nat) : (negoSent s k cs).dic = s.dic :=
  forgetHeld_keeps State.dic (fun _ _ => rfl) s k

/-- The state a negotiation leaves, once its link is Dark. -/
def negoDone (s : State) (k : Nat) (cs : List Nat) : State := noteTimes (objPut (negoSent s k cs) (Obj.linkState + k) 3) k

theorem foot4_6_self (s : State) : foot4_6 s s = s := rfl

theorem negoDone_frame (s : State) (k : Nat) (cs : List Nat) : negoDone s k cs = foot4_6 s (negoDone s k cs) :=
  (foot4_6_self _).symm.trans (((updLink_keeps (foot4_6 · (negoDone s k cs)) (fun _ _ => rfl) _ k _).trans
    (objPut_keeps (foot4_6 · (negoDone s k cs)) (fun _ _ => rfl) _ _ _)).trans
      (negoSent_keeps (foot4_6 · (negoDone s k cs)) (fun _ _ => rfl) s k cs))

theorem length_negoSent (s : State) (k : Nat) (cs : List Nat) : (negoSent s k cs).links.length = s.links.length := by
  unfold negoSent
  rw [length_links_updLink, length_links_updLink, length_links_updLink, forgetHeld_keeps State.links (fun _ _ => rfl) s k]

theorem negoDone_link {s : State} {k : Nat} (cs : List Nat) (hk : k < s.links.length) : linkOf (negoDone s k cs) k =
    { causesBegun cs (capabilityGiven s.now (linkOf s k)) with
      okSince := (linkOf (negoDone s k cs) k).okSince, noneSince := (linkOf (negoDone s k cs) k).noneSince } := by
  have h := linkOf_noteTimes_self (objPut (negoSent s k cs) (Obj.linkState + k) 3) k
    (show k < (negoSent s k cs).links.length by rw [length_negoSent]; exact hk)
  rw [linkOf_objPut, linkOf_negoSent_self cs hk] at h
  exact h

theorem negoDone_other (s : State) {k i : Nat} (cs : List Nat) (h : i ≠ k) : linkOf (negoDone s k cs) i = linkOf s i := by
  unfold negoDone
  rw [linkOf_noteTimes_ne _ _ _ h, linkOf_objPut, linkOf_negoSent_ne s cs h]

theorem sameObjs_negoDone (s : State) (k : Nat) (cs : List Nat) : SameObjs s (negoDone s k cs) [Obj.linkState + k] :=
  SameObjs.of_dic (SameObjs.objPut ((SameObjs.refl s _).of_dic (dic_negoSent s k cs)) _ _ (List.mem_cons_self ..)) rfl

theorem linkState_negoDone (s : State) (k : Nat) (cs : List Nat) : linkState (negoDone s k cs) k = 3 :=
  linkState_objPut (negoSent s k cs) k 3

theorem linkReform_forms (k d c : Nat) (s : State) (hk : k < 64) (hp : PartsOk s) (hb : (linkOf s k).bound = true)
    (hd : (linkOf s k).darkSince = some d) (ho : (linkOf s k).okSince = some c) (ht : c + ms 1 ≤ s.now)
    (hm : atMinimum s (linkOf s k) = true) (hin : (linkOf s k).inLanes ≠ []) (hup : ∃ l ∈ (linkOf s k).outLanes, l.why = 0) :
    ∃ t, exec (.linkReform k) s = .next t
      ∧ t = { s with dic := t.dic, links := t.links, routerW := t.routerW, routerE := t.routerE }
      ∧ (linkOf t k).darkSince = none ∧ (linkOf t k).rxNext = 0 ∧ (linkOf t k).rxHeld = [] ∧ (linkOf t k).nak = none
      ∧ (linkOf t k).nego = 1 ∧ linkState t k = 3 ∧ (linkOf t k).txSeq = 1 ∧ (linkOf t k).waitCtl = []
      ∧ (linkOf t k).unacked = [{ seq := 0, sends := 1, born := s.now, at_ := s.now
                                  body := .control (.capability (linkOf s k).version (capsOf (linkOf s k).version) Config.epochProto) }]
      ∧ (linkOf t k).outLanes.map (fun (a : Lane) => { a with q := [], told := true })
          = (linkOf s k).outLanes.map (fun (a : Lane) => { a with q := [], told := true })
      ∧ (∀ i, i ≠ k → linkOf t i = linkOf s i) ∧ SameObjs s t [Obj.linkState + k]
      ∧ (∀ h, (routerOf t h).held.map Held.p = (routerOf s h).held.map Held.p) := by
  have hkl := links_lt hp hk
  have hout : (linkOf s k).outLanes ≠ [] := fun h => by
    obtain ⟨l, hl, -⟩ := hup
    rw [h] at hl
    cases hl
  obtain ⟨cs, hcs⟩ := startNego_formed hkl hb hout hin
  have hrun : reform s k = negoDone s k cs := (reform_runs hb hd ho ht hm).trans hcs
  have hlink := negoDone_link cs hkl
  rw [capabilityGiven_frame] at hlink
  obtain ⟨hseq, hun⟩ := capabilityGiven_sent (now := s.now) hup
  have hrw : (negoDone s k cs).routerW = (forgetHeld s k).routerW := rfl
  have hre : (negoDone s k cs).routerE = (forgetHeld s k).routerE := rfl
  refine ⟨negoDone s k cs, (need_lt hk _).trans (congrArg Host.Outcome.next hrun), negoDone_frame s k cs, by rw [hlink]; rfl, by rw [hlink]; rfl,
    by rw [hlink]; rfl, by rw [hlink]; rfl, by rw [hlink]; rfl, linkState_negoDone s k cs, by rw [hlink]; exact hseq,
    by rw [hlink]; rfl, by rw [hlink]; exact hun, ?_, fun i hi => negoDone_other s cs hi, sameObjs_negoDone s k cs, fun h => ?_⟩
  · rw [hlink]
    exact map_outLanes_capabilityGiven (fun (a : Lane) => { a with q := [], told := true }) (fun _ _ => rfl) s.now (linkOf s k)
  · refine Eq.trans ?_ (held_forgetHeld s k h)
    cases h
    · exact congrArg (fun (r : Router) => r.held.map Held.p) hrw
    · exact congrArg (fun (r : Router) => r.held.map Held.p) hre

/-! ### Links removed (R243) -/

theorem removeDark_idle {s : State} {k : Nat} (h : (linkOf s k).darkSince = none ∨ (linkOf s k).noneSince = none) :
    removeDark s k = s := by
  unfold removeDark
  dsimp only
  split
  next d t hd ho =>
    rw [hd, ho] at h
    simp at h
  · rfl

/-- The peer of a link, for which a LaneDemand entry must light the next lane. -/
def demandNeeded (s : State) (k : Nat) : State :=
  { s with needDemand := if s.needDemand.contains (linkOf s k).peer then s.needDemand else s.needDemand ++ [(linkOf s k).peer] }

theorem removeDark_runs {s : State} {k d c : Nat} (hb : (linkOf s k).bound = true) (hd : (linkOf s k).darkSince = some d)
    (hn : (linkOf s k).noneSince = some c) (ht : c + ms (objGet s Obj.linkRemoveMs) ≤ s.now) :
    removeDark s k = removeLink (demandNeeded s k) k := by
  unfold removeDark
  dsimp only
  rw [hd, hn]
  exact if_pos (by simp [hb, ht])

theorem mem_needDemand (s : State) (k c : Nat) : c ∈ (demandNeeded s k).needDemand ↔ c = (linkOf s k).peer ∨ c ∈ s.needDemand := by
  show c ∈ (if s.needDemand.contains (linkOf s k).peer then s.needDemand else s.needDemand ++ [(linkOf s k).peer]) ↔ _
  split
  next h =>
    refine ⟨Or.inr, fun hc => hc.elim (fun hc => ?_) id⟩
    rw [hc]
    exact List.contains_iff_mem.mp h
  · rw [List.mem_append, List.mem_singleton, or_comm]

/-- One lane of a link that ends: its line is dark. -/
def lineEnded (s : State) (l : Lane) : State :=
  parkRing (updSpec s l.fibre l.line (fun e => { e with lineState := 0, link := 0, lane := 0 })) (modRing l.fibre l.line)

/-- A link's lines dark. -/
def linesEnded (s : State) (ls : List Lane) : State := ls.foldl lineEnded s

/-- What a line that ends may change. -/
def lineFoot (s t : State) : State :=
  { s with dic := t.dic, lasers := t.lasers, rings := t.rings, specMap := t.specMap, obs := t.obs }

theorem linesEnded_keeps {γ : Type} (vw : State → γ) (hg : ∀ s t, vw (lineFoot s t) = vw s) (s : State) (ls : List Lane) :
    vw (linesEnded s ls) = vw s :=
  foldlState vw lineEnded (fun u _ => (parkRing_keeps vw (fun s t => hg s (foot4_5 s t)) _ _).trans
    (updSpec_keeps vw (fun s t => hg s (footSpecMap s t)) u _ _ _)) ls s

/-- A line that is dark and carries no lane. -/
def LineDark (s : State) (x j : Nat) : Prop := (specOf s x j).lineState = 0 ∧ (specOf s x j).link = 0

theorem lineDark_lineEnded (s : State) (l : Lane) (x j : Nat) (h : LineDark s x j ∨ 17 * l.fibre + l.line = 17 * x + j) :
    LineDark (lineEnded s l) x j := by
  unfold LineDark lineEnded
  rw [specOf_congr (parkRing_keeps State.specMap (fun _ _ => rfl) _ _)]
  have hs : specOf (updSpec s l.fibre l.line (fun e => { e with lineState := 0, link := 0, lane := 0 })) x j
      = if 17 * l.fibre + l.line = 17 * x + j ∧ 17 * x + j < s.specMap.length then
          { specOf s x j with lineState := 0, link := 0, lane := 0 } else specOf s x j := getD_modifyAt s.specMap _ _ _ {}
  rw [hs]
  split
  · exact ⟨rfl, rfl⟩
  next hne =>
    rcases h with h | h
    · exact h
    · have hout : specOf s x j = {} := by
        unfold specOf
        rw [List.getD_eq_default _ _ (by omega)]
      rw [hout]
      exact ⟨rfl, rfl⟩

theorem lineDark_linesEnded (ls : List Lane) (s : State) (x j : Nat)
    (h : LineDark s x j ∨ ∃ l ∈ ls, 17 * l.fibre + l.line = 17 * x + j) : LineDark (linesEnded s ls) x j := by
  induction ls generalizing s with
  | nil => exact h.elim id fun ⟨l, hl, _⟩ => by cases hl
  | cons a ls ih =>
    refine ih (lineEnded s a) ?_
    rcases h with h | ⟨l, hl, he⟩
    · exact Or.inl (lineDark_lineEnded s a x j (Or.inl h))
    · rcases List.mem_cons.mp hl with rfl | hl
      · exact Or.inl (lineDark_lineEnded s l x j (Or.inr he))
      · exact Or.inr ⟨l, hl, he⟩

theorem sameObjs_linesEnded (s : State) (ls : List Lane) : SameObjs s (linesEnded s ls) journalObjs :=
  (SameObjs.refl s _).foldl lineEnded (fun u l =>
    ((SameObjs.refl u _).of_dic (u := updSpec u l.fibre l.line _) rfl).trans (sameObjs_parkRing _ _)) ls

/-- The link that ends, on a state whose lines are dark. -/
def linkEnded (s : State) (k : Nat) : State :=
  objPut (objPut (updLink s k (fun l => { tx := l.tx, rx := l.rx, recEpoch := l.recEpoch, recCount := l.recCount }))
    (Obj.linkRttNs + k) 0) (Obj.linkState + k) 4

theorem linkEnded_keeps {γ : Type} (vw : State → γ) (hg : ∀ s t, vw (foot6_2 s t) = vw s) (s : State) (k : Nat) :
    vw (linkEnded s k) = vw s :=
  ((objPut_keeps vw (fun s t => hg s (footDic s t)) _ _ _).trans (objPut_keeps vw (fun s t => hg s (footDic s t)) _ _ _)).trans
    (updLink_keeps vw (fun s t => hg s (footLinks s t)) s k _)

theorem linkRtt_ne_state {k : Nat} : Obj.linkRttNs + k ≠ Obj.linkState + k := by
  have : Obj.linkRttNs ≠ Obj.linkState := by decide
  omega

/-- What the removal of a link may change. -/
def removeFoot (s t : State) : State :=
  { s with dic := t.dic, lasers := t.lasers, rings := t.rings, specMap := t.specMap, links := t.links, needDemand := t.needDemand,
           obs := t.obs }

theorem linkRemove_removes (k d c : Nat) (s : State) (hk : k < 64) (hp : PartsOk s) (hb : (linkOf s k).bound = true)
    (hd : (linkOf s k).darkSince = some d) (hn : (linkOf s k).noneSince = some c)
    (ht : c + ms (objGet s Obj.linkRemoveMs) ≤ s.now) :
    ∃ t, exec (.linkRemove k) s = .next t
      ∧ t = { s with dic := t.dic, lasers := t.lasers, rings := t.rings, specMap := t.specMap, links := t.links,
                     needDemand := t.needDemand, obs := t.obs }
      ∧ linkOf t k = { tx := (linkOf s k).tx, rx := (linkOf s k).rx, recEpoch := (linkOf s k).recEpoch,
                       recCount := (linkOf s k).recCount }
      ∧ (∀ l ∈ (linkOf s k).outLanes, (specOf t l.fibre l.line).lineState = 0 ∧ (specOf t l.fibre l.line).link = 0)
      ∧ (linkOf s k).peer ∈ t.needDemand ∧ (∀ c, c ≠ (linkOf s k).peer → (c ∈ t.needDemand ↔ c ∈ s.needDemand))
      ∧ (∀ i, i ≠ k → linkOf t i = linkOf s i) ∧ linkState t k = 4 ∧ objGet t (Obj.linkRttNs + k) = 0
      ∧ SameObjs s t ([Obj.linkRttNs + k, Obj.linkState + k] ++ journalObjs) := by
  have hkl : k < (demandNeeded s k).links.length := links_lt hp hk
  have heq : removeDark s k = linkEnded (linesEnded (demandNeeded s k) (linkOf s k).outLanes) k := removeDark_runs hb hd hn ht
  have hkeep {γ : Type} (vw : State → γ) (hg : ∀ s t, vw (lineFoot s t) = vw s) :=
    linesEnded_keeps vw hg (demandNeeded s k) (linkOf s k).outLanes
  have hframe : removeFoot s (removeDark s k) = removeDark s k := by
    have h1 := (linkEnded_keeps (removeFoot · (removeDark s k)) (fun _ _ => rfl) _ k).trans
      (hkeep (removeFoot · (removeDark s k)) (fun _ _ => rfl))
    rw [← heq] at h1
    exact h1.symm
  rw [heq] at hframe
  have hlinks := hkeep State.links (fun _ _ => rfl)
  have hneed := hkeep State.needDemand (fun _ _ => rfl)
  have hdark (l : Lane) (hl : l ∈ (linkOf s k).outLanes) := lineDark_linesEnded (linkOf s k).outLanes (demandNeeded s k)
    l.fibre l.line (Or.inr ⟨l, hl, rfl⟩)
  have hobjs : SameObjs s _ journalObjs := ((SameObjs.refl s _).of_dic (u := demandNeeded s k) rfl).trans
    (sameObjs_linesEnded (demandNeeded s k) (linkOf s k).outLanes)
  generalize linesEnded (demandNeeded s k) (linkOf s k).outLanes = u at *
  have hul : k < u.links.length := by rw [hlinks]; exact hkl
  have hof (i : Nat) : linkOf u i = linkOf s i := linkOf_congr hlinks i
  refine ⟨linkEnded u k, (need_lt hk _).trans (congrArg Host.Outcome.next heq), hframe.symm, ?_, hdark, ?_, fun c hc => ?_, fun i hi => ?_,
    objGet_objPut_self _ _ _, ?_, ?_⟩
  · rw [← hof k]
    exact linkOf_updLink_self u k _ hul
  · show _ ∈ u.needDemand
    rw [hneed, mem_needDemand]
    exact Or.inl rfl
  · show c ∈ u.needDemand ↔ _
    rw [hneed, mem_needDemand]
    exact or_iff_right hc
  · exact (linkOf_updLink_ne u k i _ hi).trans (hof i)
  · exact (objGet_objPut_ne _ _ _ _ linkRtt_ne_state).trans (objGet_objPut_self _ _ _)
  · exact SameObjs.objPut (SameObjs.objPut ((hobjs.mono (List.subset_append_right _ _)).of_dic rfl) _ _ (by simp)) _ _ (by simp)

/-! ### Lanes out of service for errors (R244) -/

theorem laneBy_idx {s : State} {k i : Nat} {o : Bool} {lane : Lane} (h : laneBy s k o i = some lane) : lane.idx = i := by
  have := List.find?_some h
  simpa using this

theorem canSend_congr {s t : State} {k : Nat} {c : Ctl} (hn : (linkOf t k).nego = (linkOf s k).nego)
    (ho : (linkOf t k).outLanes = (linkOf s k).outLanes) (h : CanSend s k c) : CanSend t k c := by
  unfold CanSend laneFor at h ⊢
  rw [ho]
  refine ⟨?_, h.2⟩
  have hf : ctlFits (linkOf t k) c = ctlFits (linkOf s k) c := by
    unfold ctlFits
    rw [hn]
  rw [hf]
  exact h.1

theorem laneMarked_in (s : State) (k : Nat) (lane : Lane) (why : Nat) : laneMarked s k false lane why true =
    sendCtl (updLane s k false lane.idx (fun l => { l with why := why, q := [], ready := false, joinAt := none })) k
      (.laneDown { own := false, idx := lane.idx } why) := rfl

/-- An in-lane marked out of service: it alone, and the flit that tells its peer. -/
theorem laneMarked_in_facts {s : State} {k : Nat} (lane : Lane) (why : Nat) (hk : k < s.links.length) :
    (∀ l ∈ (linkOf (laneMarked s k false lane why true) k).inLanes, l.idx = lane.idx → l.why = why ∧ l.ready = false)
    ∧ (linkOf (laneMarked s k false lane why true) k).outLanes.map (fun (a : Lane) => { a with q := [] })
        = (linkOf s k).outLanes.map (fun (a : Lane) => { a with q := [] })
    ∧ (CanSend s k (.laneDown { own := false, idx := lane.idx } why) →
        Given (laneMarked s k false lane why true) k (.laneDown { own := false, idx := lane.idx } why))
    ∧ (∀ n, n ≠ k → linkOf (laneMarked s k false lane why true) n = linkOf s n)
    ∧ (laneMarked s k false lane why true).links.length = s.links.length := by
  have hself : linkOf (updLane s k false lane.idx (fun l => { l with why := why, q := [], ready := false, joinAt := none })) k
      = _ := linkOf_updLink_self s k _ hk
  have hne (n : Nat) (hn : n ≠ k) : linkOf (updLane s k false lane.idx
      (fun l => { l with why := why, q := [], ready := false, joinAt := none })) n = linkOf s n := linkOf_updLink_ne s k n _ hn
  have hlen : (updLane s k false lane.idx (fun l => { l with why := why, q := [], ready := false, joinAt := none })).links.length
      = s.links.length := length_links_updLink s k _
  rw [laneMarked_in]
  generalize updLane s k false lane.idx _ = u at *
  have hkept := linkKept_sendCtl u k (.laneDown { own := false, idx := lane.idx } why)
  refine ⟨fun l hl hi => ?_, ?_, fun hc => given_sendCtl (hlen ▸ hk) (canSend_congr (by rw [hself]; rfl) (by rw [hself]; rfl) hc),
    fun n hn => (hkept.2.2 n hn).trans (hne n hn), hkept.1.trans hlen⟩
  · rw [inLanes_sendCtl, hself] at hl
    obtain ⟨a, -, rfl⟩ := List.mem_map.mp hl
    by_cases ha : a.idx = lane.idx
    · rw [if_pos ha]
      exact ⟨rfl, rfl⟩
    · rw [if_neg ha] at hi
      exact absurd hi ha
  · exact (map_outLanes_of_fixed (fun (a : Lane) => { a with q := [] }) (fun _ => rfl) hkept.2.1).trans
      (congrArg (fun (l : Link) => l.outLanes.map (fun (a : Lane) => { a with q := [] })) hself)

theorem laneMarked_in_keeps {γ : Type} (vw : State → γ) (hg : ∀ s t, vw (foot6_3 s t) = vw s) (s : State) (k : Nat) (lane : Lane)
    (why : Nat) : vw (laneMarked s k false lane why true) = vw s :=
  (sendCtl_keeps vw (fun s t => hg s (footDicLinks s t)) _ k _).trans
    (updLane_keeps vw (fun s t => hg s (footLinks s t)) s k false lane.idx _)

theorem removeForErrors_bad {s : State} {k i : Nat} {lane : Lane} (h : laneBy s k false i = some lane) (hw : lane.why = 0)
    (hm : tooManyErrors lane = true) :
    removeForErrors s k i = settleLink (laneMarked (objInc s Obj.laneErrorRemovals) k false lane 4 true) k := by
  unfold removeForErrors
  rw [h]
  dsimp only
  rw [if_pos (by simp [laneUp, hw, hm]), laneOut_eq, if_neg (by simp [hw])]

theorem removeForErrors_kept {s : State} {k i : Nat}
    (h : ∀ lane, laneBy s k false i = some lane → lane.why ≠ 0 ∨ tooManyErrors lane = false) : removeForErrors s k i = s := by
  unfold removeForErrors
  cases hl : laneBy s k false i with
  | none => rfl
  | some lane =>
    refine if_neg fun hc => ?_
    obtain ⟨h1, h2⟩ := Bool.and_eq_true_iff.mp hc
    rcases h lane hl with h | h
    · exact h (by simpa [laneUp] using h1)
    · rw [h] at h2
      cases h2

theorem foot6_3_self (s : State) : foot6_3 s s = s := rfl

theorem laneErrorRemoval_bad {k i : Nat} {lane : Lane} {s : State} (hk : k < 64) (hi : i < 128) (hp : PartsOk s)
    (h : laneBy s k false i = some lane) (hw : lane.why = 0) (hm : tooManyErrors lane = true) :
    ∃ t, exec (.laneErrorRemoval k i) s = .next t
      ∧ t = { s with dic := t.dic, links := t.links, routerW := t.routerW, routerE := t.routerE, outst := t.outst, obs := t.obs }
      ∧ (∀ l ∈ (linkOf t k).inLanes, l.idx = i → l.why = 4)
      ∧ (linkOf t k).outLanes.map (fun (a : Lane) => { a with q := [] })
          = (linkOf s k).outLanes.map (fun (a : Lane) => { a with q := [] })
      ∧ (CanSend s k (.laneDown { own := false, idx := i } 4) → linkState t k ≠ 3 →
          Given t k (.laneDown { own := false, idx := i } 4))
      ∧ (∀ n, n ≠ k → linkOf t n = linkOf s n) ∧ Counted s t Obj.laneErrorRemovals 1
      ∧ SameObjs s t ([Obj.laneErrorRemovals, Obj.linkState + k, Obj.linkDarkEvents, Obj.drainDirty, Obj.resentFlits,
          Obj.retryWindowStalls] ++ journalObjs) := by
  have hkl := links_lt hp hk
  have hidx := laneBy_idx h
  have heq := removeForErrors_bad h hw hm
  obtain ⟨hin, hout, hgiven, hother, hlen⟩ := laneMarked_in_facts (s := objInc s Obj.laneErrorRemovals) lane 4 hkl
  have hmark := sameObjs_laneMarked (objInc s Obj.laneErrorRemovals) k false lane 4 true
  have hkeep {γ : Type} (vw : State → γ) (hg : ∀ s t, vw (foot6_3 s t) = vw s) :=
    laneMarked_in_keeps vw hg (objInc s Obj.laneErrorRemovals) k lane 4
  have hframe : removeForErrors s k i = foot6_3 s (removeForErrors s k i) := by
    have h1 := (settleLink_keeps (foot6_3 · (removeForErrors s k i)) (fun _ _ => rfl) _ k).trans
      (hkeep (foot6_3 · (removeForErrors s k i)) (fun _ _ => rfl))
    rw [← heq] at h1
    exact (foot6_3_self _).symm.trans h1
  rw [heq] at hframe
  generalize laneMarked (objInc s Obj.laneErrorRemovals) k false lane 4 true = u at *
  have hul : k < u.links.length := by rw [hlen]; exact hkl
  have hkept := linkKept_settleLink u k
  have hobjs : SameObjs (objInc s Obj.laneErrorRemovals) (settleLink u k) (settleObjs k) :=
    (hmark.mono (stalls_sub_settle k)).trans (sameCells_settleLink u k).objs
  refine ⟨_, (need_of (by simp [hk, hi]) _).trans (congrArg Host.Outcome.next heq), hframe, ?_, ?_, fun hc hn => ?_, fun n hn => ?_,
    ?_, ?_⟩
  · have hall := forall_inLanes_settleLink (P := fun a => a.idx = lane.idx → a.why = 4 ∧ a.ready = false) hin fun a ha hai => by
      unfold laneJoined at hai ⊢
      split
      next hr =>
        rw [if_pos hr] at hai
        rw [(ha hai).2] at hr
        cases hr
      next hr =>
        rw [if_neg hr] at hai
        exact ha hai
    intro l hl hli
    exact (hall l hl (hli.trans hidx.symm)).1
  · exact (map_outLanes_of_fixed (fun (a : Lane) => { a with q := [] }) (fun _ => rfl) hkept.2.1).trans hout
  · rw [← hidx] at hc ⊢
    exact given_settleLink hk hul (hgiven hc) hn
  · exact (hkept.2.2 n hn).trans (hother n hn)
  · have hne : Obj.laneErrorRemovals ∉ settleObjs k := fun hm => by
      have := settleObjs_sub_link hk hm
      exact not_mem_linkObjs (by decide) this
    exact (hobjs _ hne).trans (objGet_objInc_self _ _)
  · exact SameObjs.trans ((SameObjs.refl s _).objInc _ (List.mem_cons_self ..)) (hobjs.mono (List.subset_cons_self _ _))

theorem laneErrorRemoval_kept {k i : Nat} {s : State} (hk : k < 64) (hi : i < 128)
    (h : ∀ lane, laneBy s k false i = some lane → lane.why ≠ 0 ∨ tooManyErrors lane = false) :
    exec (.laneErrorRemoval k i) s = .next s :=
  (need_of (by simp [hk, hi]) _).trans (congrArg Host.Outcome.next (removeForErrors_kept h))

end Sys2Proof.Machine

/-!
Lanes trained again: returned, refused for skew, or tried once more (R237, O25).
-/

namespace Sys2Proof.Machine

/-! ### Trainings (R236, R237) -/

theorem findLane_congr {s t : State} (h : t.links = s.links) (o : Bool) (x j : Nat) : findLane t o x j = findLane s o x j := by
  unfold findLane
  rw [h]

theorem sound_of_verdict {s : State} {o : Bool} {x j : Nat} {r : TrainResult} (h : verdict s o x j r ≠ .failed) :
    r.lockOk = true ∧ tagFits s o x j r.tag = true := by
  unfold verdict at h
  cases hb : (r.lockOk && tagFits s o x j r.tag && decide (r.serE6 ≤ 200))
  · rw [hb] at h
    exact absurd rfl h
  · exact (Bool.and_eq_true_iff.mp (Bool.and_eq_true_iff.mp hb).1).imp id id

/-- A training that does not fail counts no wrong line: it may only have been sent. -/
theorem runTraining_sound {s : State} {o : Bool} {x j : Nat} {r : TrainResult} (h : verdict s o x j r ≠ .failed) :
    runTraining s o x j r = { s with out := (runTraining s o x j r).out } := by
  obtain ⟨-, htag⟩ := sound_of_verdict h
  cases o
  · have hno : runTraining s false x j r = s := by
      unfold runTraining
      rw [if_neg Bool.false_ne_true]
      exact if_neg (by simp [htag])
    rw [hno]
  · rfl

theorem sameObjs_runTraining (s : State) (o : Bool) (x j : Nat) (r : TrainResult) :
    SameObjs s (runTraining s o x j r) [Obj.wrongLineEvents] := by
  unfold runTraining
  split
  · exact (SameObjs.refl s _).of_dic rfl
  · split
    · exact (SameObjs.refl s _).objInc _ (List.mem_cons_self ..)
    · exact SameObjs.refl s _

theorem ringAt_lt (o : Bool) {x j : Nat} (hx : x < 32) (hj : j < 17) : ringAt o x j < 1088 := by
  cases o
  · show 544 + 17 * x + j < 1088
    omega
  · exact modRing_lt hx hj

/-- The state in which a lane that trained is admitted: its ring locked, and the round trip kept. -/
def laneLocked (u : State) (o : Bool) (x j k rtt : Nat) : State := objPut (lockRing u o x j) (Obj.linkRttNs + k) rtt

/-- The end of a training of a lane that its link has. -/
def laneTrained (u : State) (o : Bool) (x j k : Nat) (lane : Lane) (r : TrainResult) : Verdict → State
  | .admitted => returnLane (laneLocked u o x j k r.rttNs) k o lane
  | .skewed => refuseSkew u o x j
  | .failed => failTraining u o x j

/-- The end of a training of a new lane. -/
def newTrained (u : State) (o : Bool) (x j : Nat) (r : TrainResult) : Verdict → State
  | .admitted => admitNew u o x j r
  | .skewed => refuseSkew u o x j
  | .failed => failTraining u o x j

/-- Whether a new lane may train on a line. -/
def laneDue (s : State) (o : Bool) (x j : Nat) : Bool := if o then directOut s x j else laneExpected s x j

theorem trainingDone_open {s : State} {o : Bool} {x j : Nat} (r : TrainResult) (hs : smGet s.skewHold (ringAt o x j) = none)
    (hr : s.recovery.any (fun (y : Recovery) => y.ring == ringAt o x j) = false) : trainingDone s o x j r =
      match findLane s o x j with
      | some (k, lane) =>
        if !retrains o lane then s else laneTrained (runTraining s o x j r) o x j k lane r (verdict s o x j r)
      | none => if !laneDue s o x j then s else newTrained (runTraining s o x j r) o x j r (verdict s o x j r) := by
  unfold trainingDone
  dsimp only
  rw [if_neg (by simp [hs, hr])]
  cases findLane s o x j with
  | none =>
    refine ite_congr rfl (fun _ => rfl) fun _ => ?_
    cases verdict s o x j r <;> rfl
  | some y =>
    refine ite_congr rfl (fun _ => rfl) fun _ => ?_
    cases verdict s o x j r <;> rfl

section
variable {s : State} {o : Bool} {x j k : Nat} {lane : Lane}

theorem trainingDone_lane (r : TrainResult) (hf : findLane s o x j = some (k, lane)) (ht : retrains o lane = true)
    (hs : smGet s.skewHold (ringAt o x j) = none) (hr : s.recovery.any (fun (y : Recovery) => y.ring == ringAt o x j) = false) :
    trainingDone s o x j r = laneTrained (runTraining s o x j r) o x j k lane r (verdict s o x j r) := by
  rw [trainingDone_open r hs hr, hf]
  exact if_neg (by simp [ht])

theorem trainingDone_stays (r : TrainResult) (hf : findLane s o x j = some (k, lane)) (ht : retrains o lane = false) :
    trainingDone s o x j r = s := by
  unfold trainingDone
  dsimp only
  split
  · rfl
  · rw [hf]
    exact if_pos (by simp [ht])

end

theorem trainingDone_new {s : State} {o : Bool} {x j : Nat} (r : TrainResult) (hf : findLane s o x j = none)
    (hd : laneDue s o x j = true) (hs : smGet s.skewHold (ringAt o x j) = none)
    (hr : s.recovery.any (fun (y : Recovery) => y.ring == ringAt o x j) = false) :
    trainingDone s o x j r = newTrained (runTraining s o x j r) o x j r (verdict s o x j r) := by
  rw [trainingDone_open r hs hr, hf]
  exact if_neg (by simp [hd])

/-! ### A lane returned to its link (R218, R236, R237) -/

/-- A lane back in service. -/
def laneBack (a : Lane) : Lane := { a with why := 0, tries := 0, ready := false, badAt := [], serNow := 0, serLast := 0 }

theorem laneFor_isSome (l : Link) (b : FlitBody) :
    (laneFor l b).isSome = true ↔ ∃ a ∈ l.outLanes, laneUp a = true ∧ some a.idx ≠ bodyLane b := by
  have hmem (a : Lane) : a ∈ l.outLanes.filter (fun (a : Lane) => laneUp a && some a.idx != bodyLane b)
      ↔ a ∈ l.outLanes ∧ laneUp a = true ∧ some a.idx ≠ bodyLane b := by
    rw [List.mem_filter, Bool.and_eq_true, bne_iff_ne]
  unfold laneFor
  cases hf : l.outLanes.filter (fun (a : Lane) => laneUp a && some a.idx != bodyLane b) with
  | nil =>
    refine iff_of_false (by simp) fun ⟨a, ha⟩ => ?_
    have := (hmem a).mpr ha
    rw [hf] at this
    cases this
  | cons a r => exact iff_of_true rfl ⟨a, (hmem a).mp (hf ▸ List.mem_cons_self ..)⟩

/-- A lane marked as back, and its line lit. -/
def laneRelit (s : State) (k : Nat) (lane : Lane) : State :=
  updSpec (updLane s k true lane.idx laneBack) lane.fibre lane.line (fun e => { e with lineState := 1 })

theorem returnLane_out (s : State) (k : Nat) (lane : Lane) :
    returnLane s k true lane = settleLink (tellJoin (laneRelit s k lane) k lane.idx) k := rfl

/-- The lanes of a link, one of them told that it has joined or not. -/
def laneTold (i : Nat) (b : Bool) (l : Link) : Link :=
  { l with outLanes := l.outLanes.map (fun (a : Lane) => if a.idx = i then { a with told := b } else a) }

theorem tellJoin_eq (s : State) (k i : Nat) : tellJoin s k i =
    if (linkOf s k).nego = 3 then sendCtl (updLink s k (laneTold i true)) k (.laneJoin i (linkOf s k).txSeq)
    else updLink s k (laneTold i false) := rfl

theorem linkOf_tellJoin_ne (s : State) {k n : Nat} (i : Nat) (h : n ≠ k) : linkOf (tellJoin s k i) n = linkOf s n := by
  rw [tellJoin_eq]
  split
  · exact (linkOf_sendCtl_ne _ k n _ h).trans (linkOf_updLink_ne s k n _ h)
  · exact linkOf_updLink_ne s k n _ h

theorem length_tellJoin (s : State) (k i : Nat) : (tellJoin s k i).links.length = s.links.length := by
  rw [tellJoin_eq]
  split
  · exact ((linkKept_sendCtl _ k _).1).trans (length_links_updLink s k _)
  · exact length_links_updLink s k _

/-- What holds of every out-lane, without regard to its queue and what it was told, holds once a LaneJoin is told of one. -/
theorem forall_outLanes_tellJoin {P : Lane → Prop} (hP : ∀ (a : Lane) q b, P { a with q := q, told := b } ↔ P a) {s : State}
    {k : Nat} (i : Nat) (hk : k < s.links.length) (h : ∀ a ∈ (linkOf s k).outLanes, P a) :
    ∀ a ∈ (linkOf (tellJoin s k i) k).outLanes, P a := by
  have htold (b : Bool) : ∀ a ∈ (linkOf (updLink s k (laneTold i b)) k).outLanes, P a := by
    rw [linkOf_updLink_self s k _ hk]
    intro a ha
    obtain ⟨c, hc, rfl⟩ := List.mem_map.mp ha
    split
    · exact (hP c c.q b).mpr (h c hc)
    · exact h c hc
  rw [tellJoin_eq]
  split
  · exact (forall_outLanes_of_fixed (fun a => propext (hP a [] a.told)) (linkKept_sendCtl _ k _).2.1).mpr (htold true)
  · exact htold false

theorem given_tellJoin {s : State} {k i : Nat} (hk : k < s.links.length) (hn : (linkOf s k).nego = 3)
    (h : CanSend s k (.laneJoin i (linkOf s k).txSeq)) : Given (tellJoin s k i) k (.laneJoin i (linkOf s k).txSeq) := by
  rw [tellJoin_eq, if_pos hn]
  obtain ⟨hfit, hlane⟩ := h
  have hself : linkOf (updLink s k (laneTold i true)) k = laneTold i true (linkOf s k) := linkOf_updLink_self s k _ hk
  refine given_sendCtl (by rw [length_links_updLink]; exact hk) ⟨?_, ?_⟩
  · rw [hself]
    exact hfit
  · rw [hself, laneFor_isSome]
    obtain ⟨a, ha, hup, hne⟩ := (laneFor_isSome _ _).mp hlane
    refine ⟨a, List.mem_map.mpr ⟨a, ha, if_neg fun hi => hne ?_⟩, hup, hne⟩
    rw [hi]
    rfl

theorem returnLane_out_facts {s : State} {k : Nat} (lane : Lane) (hk : k < 64) (hl : k < s.links.length) :
    (∀ l ∈ (linkOf (returnLane s k true lane) k).outLanes, l.idx = lane.idx → l.why = 0 ∧ l.tries = 0)
    ∧ ((linkOf s k).nego = 3 → CanSend s k (.laneJoin lane.idx (linkOf s k).txSeq) →
        linkState (returnLane s k true lane) k ≠ 3 → Given (returnLane s k true lane) k (.laneJoin lane.idx (linkOf s k).txSeq))
    ∧ (∀ n, n ≠ k → linkOf (returnLane s k true lane) n = linkOf s n) := by
  have hself : linkOf (laneRelit s k lane) k = { linkOf s k with
      outLanes := (linkOf s k).outLanes.map (fun l => if l.idx = lane.idx then laneBack l else l) } :=
    linkOf_updLink_self s k _ hl
  have hne (n : Nat) (hn : n ≠ k) : linkOf (laneRelit s k lane) n = linkOf s n := linkOf_updLink_ne s k n _ hn
  have hlen : (laneRelit s k lane).links.length = s.links.length := length_links_updLink s k _
  rw [returnLane_out]
  generalize laneRelit s k lane = u at *
  have hul : k < u.links.length := hlen ▸ hl
  have htl : k < (tellJoin u k lane.idx).links.length := by rw [length_tellJoin]; exact hul
  refine ⟨?_, fun hn hc hd => ?_, fun n hn => ?_⟩
  · have hback : ∀ a ∈ (linkOf u k).outLanes, a.idx = lane.idx → a.why = 0 ∧ a.tries = 0 := by
      rw [hself]
      intro a ha hi
      obtain ⟨b, -, rfl⟩ := List.mem_map.mp ha
      by_cases hb : b.idx = lane.idx
      · rw [if_pos hb]
        exact ⟨rfl, rfl⟩
      · rw [if_neg hb] at hi
        exact absurd hi hb
    exact (forall_outLanes_of_fixed (P := fun a => a.idx = lane.idx → a.why = 0 ∧ a.tries = 0) (fun _ => rfl)
      (linkKept_settleLink _ k).2.1).mpr (forall_outLanes_tellJoin (fun _ _ _ => Iff.rfl) lane.idx hul hback)
  · have hseq : (linkOf u k).txSeq = (linkOf s k).txSeq := by rw [hself]
    have hnego : (linkOf u k).nego = 3 := by rw [hself]; exact hn
    refine given_settleLink hk htl ?_ hd
    rw [← hseq]
    refine given_tellJoin hul hnego ?_
    rw [hseq]
    obtain ⟨hfit, hlane⟩ := hc
    refine ⟨?_, ?_⟩
    · rw [hself]
      exact hfit
    · rw [hself, laneFor_isSome]
      obtain ⟨a, ha, hup, hidx⟩ := (laneFor_isSome _ _).mp hlane
      refine ⟨a, List.mem_map.mpr ⟨a, ha, if_neg fun hi => hidx ?_⟩, hup, hidx⟩
      rw [hi]
      rfl
  · exact ((linkKept_settleLink _ k).2.2 n hn).trans ((linkOf_tellJoin_ne u lane.idx hn).trans (hne n hn))

theorem returnLane_in_some (s : State) (k : Nat) {lane : Lane} {q : Nat} (h : lane.joinAt = some q) :
    returnLane s k false lane = settleLink (updLane s k false lane.idx (fun a => joinedAt a q)) k := by
  unfold returnLane
  simp only [Bool.false_eq_true, if_false, h]

theorem returnLane_in_none (s : State) (k : Nat) {lane : Lane} (h : lane.joinAt = none) : returnLane s k false lane =
    if (linkOf s k).nego = 3 then updLane s k false lane.idx (fun a => { a with ready := true, tries := 0 })
    else settleLink (updLane s k false lane.idx laneBack) k := by
  unfold returnLane
  simp only [Bool.false_eq_true, if_false, h]
  rfl

/-- An in-lane set to carry flits again carries them once its link has settled. -/
theorem inLane_back_settles {s : State} {k : Nat} (i : Nat) {f : Lane → Lane} (hk : k < s.links.length)
    (hf : ∀ a, (f a).why = 0 ∧ (f a).ready = false) :
    ∀ l ∈ (linkOf (settleLink (updLane s k false i f) k) k).inLanes, l.idx = i → (∀ a, (f a).idx = a.idx) → l.why = 0 := by
  intro l hl hi hidx
  have hself : linkOf (updLane s k false i f) k = { linkOf s k with
      inLanes := (linkOf s k).inLanes.map (fun l => if l.idx = i then f l else l) } := linkOf_updLink_self s k _ hk
  have hbase : ∀ a ∈ (linkOf (updLane s k false i f) k).inLanes, a.idx = i → a.why = 0 := by
    rw [hself]
    intro a ha hai
    obtain ⟨b, -, rfl⟩ := List.mem_map.mp ha
    by_cases hb : b.idx = i
    · rw [if_pos hb]
      exact (hf b).1
    · rw [if_neg hb] at hai
      exact absurd hai hb
  refine forall_inLanes_settleLink (P := fun a => a.idx = i → a.why = 0) hbase (fun a ha hai => ?_) l hl hi
  unfold laneJoined at hai ⊢
  split
  · rfl
  next hr =>
    rw [if_neg hr] at hai
    exact ha hai

theorem returnLane_in_facts {s : State} {k : Nat} (lane : Lane) (hl : k < s.links.length) :
    ((linkOf s k).nego = 3 → lane.joinAt = none → (linkOf (returnLane s k false lane) k).inLanes =
        (linkOf s k).inLanes.map (fun (l : Lane) => if l.idx = lane.idx then { l with ready := true, tries := 0 } else l))
    ∧ ((linkOf s k).nego ≠ 3 ∨ lane.joinAt ≠ none →
        ∀ l ∈ (linkOf (returnLane s k false lane) k).inLanes, l.idx = lane.idx → l.why = 0)
    ∧ (∀ n, n ≠ k → linkOf (returnLane s k false lane) n = linkOf s n) := by
  have hne (f : Lane → Lane) (n : Nat) (hn : n ≠ k) : linkOf (updLane s k false lane.idx f) n = linkOf s n :=
    linkOf_updLink_ne s k n _ hn
  have hsettle (f : Lane → Lane) (n : Nat) (hn : n ≠ k) : linkOf (settleLink (updLane s k false lane.idx f) k) n = linkOf s n :=
    ((linkKept_settleLink _ k).2.2 n hn).trans (hne f n hn)
  cases hj : lane.joinAt with
  | some q =>
    rw [returnLane_in_some s k hj]
    exact ⟨fun _ h => by simp at h, fun _ l hm hi => inLane_back_settles lane.idx hl (fun _ => ⟨rfl, rfl⟩) l hm hi fun _ => rfl,
      hsettle _⟩
  | none =>
    rw [returnLane_in_none s k hj]
    by_cases hn : (linkOf s k).nego = 3
    · rw [if_pos hn]
      refine ⟨fun _ _ => congrArg Link.inLanes (linkOf_updLink_self s k _ hl), fun h => ?_, hne _⟩
      exact h.elim (fun h => absurd hn h) fun h => absurd rfl h
    · rw [if_neg hn]
      exact ⟨fun h => absurd h hn, fun _ l hm hi => inLane_back_settles lane.idx hl (fun _ => ⟨rfl, rfl⟩) l hm hi fun _ => rfl,
        hsettle _⟩

/-! ### LANE_TRAINING_DONE of a lane of a link -/

/-- The state in which the lane is admitted: its ring locked, the round trip kept, and nothing else. -/
theorem laneLocked_facts {s u : State} {o : Bool} {x j : Nat} (k rtt : Nat) (hx : x < 32) (hj : j < 17) (hp : PartsOk u)
    (hd : u.dic = s.dic) (hr : u.rings = s.rings) :
    (ringOf (laneLocked u o x j k rtt) (ringAt o x j)).locked = true
      ∧ (∀ q, q ≠ ringAt o x j → ringOf (laneLocked u o x j k rtt) q = ringOf s q)
      ∧ objGet (laneLocked u o x j k rtt) (Obj.linkRttNs + k) = rtt
      ∧ SameObjs s (laneLocked u o x j k rtt) [Obj.linkRttNs + k] := by
  have hself := ringOf_updRing_self { u with trainFails := u.trainFails.erase (ringAt o x j) } (ringAt o x j)
    (fun g => { g with locked := true, parked := false, bad := 0, fullFails := 0, sweep := 0, cwPos := 0, cwBad := false })
    (rings_lt hp (ringAt_lt o hx hj))
  have hring : ringOf (lockRing u o x j) (ringAt o x j) = _ := hself
  have hother (q : Nat) (hq : q ≠ ringAt o x j) : ringOf (lockRing u o x j) q = ringOf s q :=
    (ringOf_updRing_ne { u with trainFails := u.trainFails.erase (ringAt o x j) } _ hq).trans (ringOf_congr hr q)
  have hld : (lockRing u o x j).dic = s.dic := (lockRing_keeps State.dic (fun _ _ => rfl) u o x j).trans hd
  unfold laneLocked
  generalize lockRing u o x j = w at *
  exact ⟨(congrArg Ring.locked hring :), hother, objGet_objPut_self w _ _,
    SameObjs.objPut ((SameObjs.refl s _).of_dic hld) _ _ (List.mem_cons_self ..)⟩

/-- What the end of a training that admits a lane may change. -/
def trainFoot (s t : State) : State :=
  { s with out := t.out, dic := t.dic, rings := t.rings, trainFails := t.trainFails, specMap := t.specMap, links := t.links,
           routerW := t.routerW, routerE := t.routerE, outst := t.outst, obs := t.obs }

theorem returned_keeps {γ : Type} (vw : State → γ) (hg : ∀ s t, vw (trainFoot s t) = vw s) (s : State) (o : Bool)
    (x j k rtt : Nat) (lane : Lane) (r : TrainResult) :
    vw (returnLane (laneLocked (runTraining s o x j r) o x j k rtt) k o lane) = vw s :=
  ((returnLane_keeps vw (fun s t => hg s (foot7_1 s t)) _ k o lane).trans
    (objPut_keeps vw (fun s t => hg s (footDic s t)) _ _ _)).trans
    ((lockRing_keeps vw (fun s t => hg s (footRingsTrainFails s t)) _ o x j).trans
      (runTraining_keeps vw (fun s t => hg s (footOutDic s t)) s o x j r))

theorem rtt_sub_lane (k : Nat) : [Obj.linkRttNs + k] ⊆ (Obj.linkRttNs + k) :: settleObjs k :=
  List.cons_subset_cons _ (List.nil_subset _)

theorem trainFoot_self (s : State) : trainFoot s s = s := rfl

section
variable {s : State} {o : Bool} {x j k : Nat} {lane : Lane} {r : TrainResult}

theorem laneTrainingDone_admitted (hx : x < 32) (hj : j < 17) (hp : PartsOk s) (hf : findLane s o x j = some (k, lane))
    (ht : retrains o lane = true) (hs : smGet s.skewHold (ringAt o x j) = none)
    (hr : s.recovery.any (fun (y : Recovery) => y.ring == ringAt o x j) = false) (hv : verdict s o x j r = .admitted) :
    ∃ t, exec (.laneTrainingDone o x j r) s = .next t
      ∧ t = { s with out := t.out, dic := t.dic, rings := t.rings, trainFails := t.trainFails, specMap := t.specMap, links := t.links,
                     routerW := t.routerW, routerE := t.routerE, outst := t.outst, obs := t.obs }
      ∧ (o = true → .training x j (outTag s x j) ∈ t.out
          ∧ (∀ l ∈ (linkOf t k).outLanes, l.idx = lane.idx → l.why = 0 ∧ l.tries = 0)
          ∧ ((linkOf s k).nego = 3 → CanSend s k (.laneJoin lane.idx (linkOf s k).txSeq) → linkState t k ≠ 3 →
              Given t k (.laneJoin lane.idx (linkOf s k).txSeq)))
      ∧ (o = false →
          ((linkOf s k).nego = 3 → lane.joinAt = none →
            (linkOf t k).inLanes = (linkOf s k).inLanes.map (fun (l : Lane) =>
              if l.idx = lane.idx then { l with ready := true, tries := 0 } else l))
          ∧ ((linkOf s k).nego ≠ 3 ∨ lane.joinAt ≠ none → ∀ l ∈ (linkOf t k).inLanes, l.idx = lane.idx → l.why = 0))
      ∧ (ringOf t (ringAt o x j)).locked = true ∧ (∀ q, q ≠ ringAt o x j → ringOf t q = ringOf s q)
      ∧ objGet t (Obj.linkRttNs + k) = r.rttNs ∧ (∀ n, n ≠ k → linkOf t n = linkOf s n)
      ∧ SameObjs s t ([Obj.linkRttNs + k, Obj.linkState + k, Obj.linkDarkEvents, Obj.drainDirty, Obj.resentFlits,
          Obj.retryWindowStalls] ++ journalObjs) := by
  have hkl := (findLane_some hf).1
  have hk := findLane_lt hp hf
  have heq := trainingDone_lane r hf ht hs hr
  rw [hv] at heq
  have hframe : trainingDone s o x j r = trainFoot s (trainingDone s o x j r) := by
    have h1 := returned_keeps (trainFoot · (trainingDone s o x j r)) (fun _ _ => rfl) s o x j k r.rttNs lane r
    rw [show returnLane _ k o lane = trainingDone s o x j r from heq.symm, trainFoot_self] at h1
    exact h1
  have hsound := runTraining_sound (by rw [hv]; simp : verdict s o x j r ≠ .failed)
  have hout : o = true → .training x j (outTag s x j) ∈ (runTraining s o x j r).out := fun ho => by
    subst ho
    exact List.mem_append_right _ (List.mem_cons_self ..)
  generalize runTraining s o x j r = u at *
  have hlinks : u.links = s.links := by rw [hsound]
  obtain ⟨h1, h2, h3, h4⟩ := laneLocked_facts (s := s) (u := u) (o := o) k r.rttNs hx hj (by rw [hsound]; exact hp) (by rw [hsound])
    (by rw [hsound])
  have hwl : (laneLocked u o x j k r.rttNs).links = s.links := hlinks
  have hwo : (laneLocked u o x j k r.rttNs).out = u.out := rfl
  rw [heq] at hframe
  have hrun : laneTrained u o x j k lane r .admitted = returnLane (laneLocked u o x j k r.rttNs) k o lane := rfl
  rw [hrun] at hframe heq
  generalize laneLocked u o x j k r.rttNs = w at *
  have hof (n : Nat) : linkOf w n = linkOf s n := linkOf_congr hwl n
  have hw : k < w.links.length := hwl ▸ hkl
  have hobjs := sameObjs_returnLane w k o lane
  have hrings := returnLane_keeps State.rings (fun _ _ => rfl) w k o lane
  have houtw := returnLane_keeps State.out (fun _ _ => rfl) w k o lane
  refine ⟨_, (need_of (by simp [hx, hj]) _).trans (congrArg Host.Outcome.next heq), hframe, fun ho => ?_, fun ho => ?_,
    ?_, fun q hq => ?_, (hobjs _ (linkRttNs_apart hk)).trans h3, fun n hn => ?_,
    (h4.mono (rtt_sub_lane k)).trans (hobjs.mono (List.subset_cons_self _ _))⟩
  · subst ho
    obtain ⟨f1, f2, -⟩ := returnLane_out_facts lane hk hw
    refine ⟨?_, f1, fun hn hc => ?_⟩
    · rw [houtw, hwo]
      exact hout rfl
    · rw [hof] at f2
      exact f2 hn (canSend_congr (by rw [hof]) (by rw [hof]) hc)
  · subst ho
    obtain ⟨f1, f2, -⟩ := returnLane_in_facts lane hw
    rw [hof] at f1 f2
    exact ⟨f1, f2⟩
  · rw [ringOf_congr hrings]
    exact h1
  · rw [ringOf_congr hrings]
    exact h2 q hq
  · rw [← hof n]
    cases o
    · exact (returnLane_in_facts lane hw).2.2 n hn
    · exact (returnLane_out_facts lane hk hw).2.2 n hn

theorem laneTrainingDone_skewed (hx : x < 32) (hj : j < 17) (hp : PartsOk s) (hf : findLane s o x j = some (k, lane))
    (ht : retrains o lane = true) (hs : smGet s.skewHold (ringAt o x j) = none)
    (hr : s.recovery.any (fun (y : Recovery) => y.ring == ringAt o x j) = false) (hv : verdict s o x j r = .skewed) :
    ∃ t, exec (.laneTrainingDone o x j r) s = .next t ∧ smGet t.skewHold (ringAt o x j) = some (s.now + ms 1000)
      ∧ SameObjs s t linkObjs := by
  have heq := trainingDone_lane r hf ht hs hr
  rw [hv] at heq
  have hsound := runTraining_sound (by rw [hv]; simp : verdict s o x j r ≠ .failed)
  generalize runTraining s o x j r = u at *
  have hrun : laneTrained u o x j k lane r .skewed = skewDropped (skewHeld u o x j) o x j := refuseSkew_eq u o x j
  have hheld : SameObjs s (skewHeld u o x j) linkObjs :=
    ((SameObjs.refl s _).of_dic (u := u) (by rw [hsound])).trans
      (((SameObjs.refl _ _).journal _ _ journalObjs_sub_link).of_dic rfl)
  have hparts : PartsOk (skewHeld u o x j) := (journal_keeps PartsOk (fun _ _ => rfl) u _ _).mpr (by rw [hsound]; exact hp)
  have hhold : smGet (skewHeld u o x j).skewHold (ringAt o x j) = some (s.now + ms 1000) := by
    have hnow : u.now = s.now := by rw [hsound]
    rw [← hnow]
    exact smGet_smSet_self _ _ _
  rw [hrun] at heq
  generalize skewHeld u o x j = w at *
  obtain ⟨f1, -, f3⟩ := skewDropped_facts w o x j hparts
  refine ⟨_, (need_of (by simp [hx, hj]) _).trans (congrArg Host.Outcome.next heq), ?_, hheld.trans f3⟩
  rw [f1]
  exact hhold

/-- A lane that trained and failed: tried again, or swept for. -/
theorem failTraining_lane {u : State} (hf : findLane u o x j = some (k, lane)) : failTraining u o x j =
    if lane.tries = 0 then updLane u k o lane.idx (fun a => { a with tries := 1 })
    else startRecovery (updLane u k o lane.idx (fun a => { a with tries := 0, why := if a.why = 5 then 2 else a.why }))
      (ringAt o x j) k o lane.idx false := by
  unfold failTraining
  dsimp only
  rw [hf]

theorem laneTrainingDone_retried (hx : x < 32) (hj : j < 17) (hf : findLane s o x j = some (k, lane))
    (ht : retrains o lane = true) (hs : smGet s.skewHold (ringAt o x j) = none)
    (hr : s.recovery.any (fun (y : Recovery) => y.ring == ringAt o x j) = false) (hv : verdict s o x j r = .failed)
    (htr : lane.tries = 0) :
    ∃ t, exec (.laneTrainingDone o x j r) s = .next t ∧ t = { s with out := t.out, dic := t.dic, links := t.links }
      ∧ (∀ l ∈ (if o then (linkOf t k).outLanes else (linkOf t k).inLanes), l.idx = lane.idx → l.tries = 1)
      ∧ (∀ n, n ≠ k → linkOf t n = linkOf s n) ∧ SameObjs s t [Obj.wrongLineEvents] := by
  have heq := trainingDone_lane r hf ht hs hr
  rw [hv] at heq
  have hkl := (findLane_some hf).1
  have hlinks := runTraining_keeps State.links (fun _ _ => rfl) s o x j r
  have hobjs := sameObjs_runTraining s o x j r
  have hframe := runTraining_keeps (footOutDic · (runTraining s o x j r)) (fun _ _ => rfl) s o x j r
  generalize runTraining s o x j r = u at *
  have hrun : laneTrained u o x j k lane r .failed = updLane u k o lane.idx (fun a => { a with tries := 1 }) :=
    (failTraining_lane (u := u) ((findLane_congr hlinks o x j).trans hf)).trans (if_pos htr)
  rw [hrun] at heq
  have hself : linkOf (updLane u k o lane.idx (fun a => { a with tries := 1 })) k = _ := linkOf_updLink_self u k _ (hlinks ▸ hkl)
  refine ⟨_, (need_of (by simp [hx, hj]) _).trans (congrArg Host.Outcome.next heq), ?_, ?_, fun n hn => ?_, hobjs.of_dic rfl⟩
  · rw [show u = { s with out := u.out, dic := u.dic } from hframe]
    rfl
  · rw [hself]
    have hmap (ls : List Lane) : ∀ l ∈ ls.map (fun (l : Lane) => if l.idx = lane.idx then { l with tries := 1 } else l),
        l.idx = lane.idx → l.tries = 1 := by
      intro l hl hi
      obtain ⟨a, -, rfl⟩ := List.mem_map.mp hl
      by_cases ha : a.idx = lane.idx
      · rw [if_pos ha]
      · rw [if_neg ha] at hi
        exact absurd hi ha
    cases o
    · exact hmap _
    · exact hmap _
  · exact (linkOf_updLink_ne u k n _ hn).trans (linkOf_congr hlinks n)

/-- What a lane that is swept for may change. -/
def sweptFoot (s t : State) : State :=
  { s with out := t.out, dic := t.dic, lasers := t.lasers, rings := t.rings, recovery := t.recovery, links := t.links, obs := t.obs }

theorem sweptFoot_self (s : State) : sweptFoot s s = s := rfl

theorem laneTrainingDone_swept (hx : x < 32) (hj : j < 17) (hp : PartsOk s) (hf : findLane s o x j = some (k, lane))
    (ht : retrains o lane = true) (hs : smGet s.skewHold (ringAt o x j) = none)
    (hr : s.recovery.any (fun (y : Recovery) => y.ring == ringAt o x j) = false) (hv : verdict s o x j r = .failed)
    (htr : lane.tries ≠ 0) :
    ∃ t, exec (.laneTrainingDone o x j r) s = .next t
      ∧ t = { s with out := t.out, dic := t.dic, lasers := t.lasers, rings := t.rings, recovery := t.recovery, links := t.links
                     obs := t.obs }
      ∧ (∃ y ∈ t.recovery, y.ring = ringAt o x j) ∧ (ringOf t (ringAt o x j)).sweep = 1
      ∧ (∀ n, n ≠ k → linkOf t n = linkOf s n) ∧ SameObjs s t (Obj.wrongLineEvents :: journalObjs) := by
  have heq := trainingDone_lane r hf ht hs hr
  rw [hv] at heq
  have hlinks := runTraining_keeps State.links (fun _ _ => rfl) s o x j r
  have hobjs := sameObjs_runTraining s o x j r
  have hup : PartsOk (runTraining s o x j r) := (runTraining_keeps PartsOk (fun _ _ => rfl) s o x j r).mpr hp
  have hrun : laneTrained (runTraining s o x j r) o x j k lane r .failed =
      startRecovery (updLane (runTraining s o x j r) k o lane.idx
        (fun a => { a with tries := 0, why := if a.why = 5 then 2 else a.why })) (ringAt o x j) k o lane.idx false :=
    (failTraining_lane (u := runTraining s o x j r) ((findLane_congr hlinks o x j).trans hf)).trans (if_neg htr)
  rw [hrun] at heq
  have hframe : trainingDone s o x j r = sweptFoot s (trainingDone s o x j r) := by
    have h1 := ((startRecovery_keeps (sweptFoot · (trainingDone s o x j r)) (fun _ _ => rfl) (updLane (runTraining s o x j r) k o
      lane.idx (fun a => { a with tries := 0, why := if a.why = 5 then 2 else a.why })) (ringAt o x j) k o lane.idx false).trans
        (updLane_keeps (sweptFoot · (trainingDone s o x j r)) (fun _ _ => rfl) _ k o lane.idx _)).trans
          (runTraining_keeps (sweptFoot · (trainingDone s o x j r)) (fun _ _ => rfl) s o x j r)
    rw [← heq] at h1
    exact (sweptFoot_self _).symm.trans h1
  rw [heq] at hframe
  generalize runTraining s o x j r = u at *
  have hother (n : Nat) (hn : n ≠ k) : linkOf (updLane u k o lane.idx
      (fun a => { a with tries := 0, why := if a.why = 5 then 2 else a.why })) n = linkOf s n :=
    (linkOf_updLink_ne u k n _ hn).trans (linkOf_congr hlinks n)
  have hdic : SameObjs s (updLane u k o lane.idx (fun a => { a with tries := 0, why := if a.why = 5 then 2 else a.why }))
      [Obj.wrongLineEvents] := hobjs.of_dic rfl
  have hlt : ringAt o x j < (updLane u k o lane.idx
      (fun a => { a with tries := 0, why := if a.why = 5 then 2 else a.why })).rings.length :=
    rings_lt (updLane_partsOk u k o lane.idx _ hup) (ringAt_lt o hx hj)
  generalize updLane u k o lane.idx _ = w at *
  have hstart := startRecovery_keeps State.links (fun _ _ => rfl) w (ringAt o x j) k o lane.idx false
  refine ⟨_, (need_of (by simp [hx, hj]) _).trans (congrArg Host.Outcome.next heq), hframe,
    mem_recovery_startRecovery w (ringAt o x j) k o lane.idx false, ?_, fun n hn => (linkOf_congr hstart n).trans (hother n hn),
    (hdic.mono (List.cons_subset_cons _ (List.nil_subset _))).trans
      ((sameObjs_startRecovery w _ k o lane.idx false).mono (List.subset_cons_self _ _))⟩
  rw [ringOf_startRecovery, ringOf_unlockRing_self w _ _ hlt]
  rfl

end

theorem laneTrainingDone_stays (o : Bool) (x j k : Nat) (lane : Lane) (r : TrainResult) (s : State) (hx : x < 32) (hj : j < 17)
    (hf : findLane s o x j = some (k, lane)) (ht : retrains o lane = false) : exec (.laneTrainingDone o x j r) s = .next s :=
  (need_of (by simp [hx, hj]) _).trans (congrArg Host.Outcome.next (trainingDone_stays r hf ht))

end Sys2Proof.Machine

/-!
New lanes: they join the link to their peer, bind the lowest free one, or wait for it (R229, R230, R236, R237, O25).
-/

namespace Sys2Proof.Machine

/-! ### The lanes of a link that starts to negotiate -/

theorem linkOf_startNego_ne (s : State) {k n : Nat} (h : n ≠ k) : linkOf (startNego s k) n = linkOf s n := by
  rw [startNego_eq]
  refine ((linkKept_settleLink _ k).2.2 n h).trans ((linkOf_updLink_ne _ k n _ h).trans
    (((linkKept_sendCtl _ k _).2.2 n h).trans ((linkOf_updLink_ne _ k n _ h).trans ?_)))
  exact linkOf_congr (forgetHeld_keeps State.links (fun _ _ => rfl) s k) n

section
variable {γ : Type} {s : State} {k : Nat}

theorem linkOf_negoBegun (hk : k < s.links.length) : linkOf (updLink (forgetHeld s k) k negoBegun) k = negoBegun (linkOf s k) := by
  have hlinks := forgetHeld_keeps State.links (fun _ _ => rfl) s k
  rw [linkOf_updLink_self _ k _ (hlinks ▸ hk), linkOf_congr hlinks]

theorem length_negoBegun (hk : k < s.links.length) : k < (updLink (forgetHeld s k) k negoBegun).links.length := by
  rw [length_links_updLink, forgetHeld_keeps State.links (fun _ _ => rfl) s k]
  exact hk

/-- A negotiation keeps of every out-lane what neither its queue nor what it was told is part of. -/
theorem outLanes_startNego (f : Lane → γ) (hf : ∀ (a : Lane) q b, f { a with q := q, told := b } = f a) (hk : k < s.links.length) :
    (linkOf (startNego s k) k).outLanes.map f = (linkOf s k).outLanes.map f := by
  have hq (a : Lane) : f { a with q := [] } = f a := hf a [] a.told
  have hlen := length_negoBegun hk
  have hself := linkOf_negoBegun hk
  rw [startNego_eq]
  generalize updLink (forgetHeld s k) k negoBegun = u at *
  have hsent := linkKept_sendCtl u k (capabilityOf (linkOf u k))
  generalize sendCtl u k (capabilityOf (linkOf u k)) = w at *
  rw [map_outLanes_of_fixed f hq (linkKept_settleLink _ k).2.1, linkOf_updLink_self w k _ (by rw [hsent.1]; exact hlen)]
  refine (map_outLanes_of_fixed f hq hsent.2.1).trans ?_
  rw [hself]
  show ((linkOf s k).outLanes.map (fun (a : Lane) => { a with q := [], told := false })).map f = _
  rw [List.map_map]
  exact List.map_congr_left fun a _ => hf a [] false

/-- A negotiation keeps of every in-lane what is not of its waiting, nor of what it last delivered. -/
theorem inLanes_startNego (f : Lane → γ) (hf : ∀ a : Lane, f (laneJoined a) = f a)
    (hl : ∀ a : Lane, f { a with last := none, later := none } = f a) (hk : k < s.links.length) :
    (linkOf (startNego s k) k).inLanes.map f = (linkOf s k).inLanes.map f := by
  have hlen := length_negoBegun hk
  have hself := linkOf_negoBegun hk
  rw [startNego_eq]
  generalize updLink (forgetHeld s k) k negoBegun = u at *
  have hsent := linkKept_sendCtl u k (capabilityOf (linkOf u k))
  have hin := inLanes_sendCtl u k (capabilityOf (linkOf u k))
  generalize sendCtl u k (capabilityOf (linkOf u k)) = w at *
  rw [map_inLanes_of_fixed f hf (linkKept_settleLink _ k).2.1, linkOf_updLink_self w k _ (by rw [hsent.1]; exact hlen)]
  show (linkOf w k).inLanes.map f = _
  rw [hin, hself]
  show ((linkOf s k).inLanes.map (fun (a : Lane) => { a with last := none, later := none })).map f = _
  rw [List.map_map]
  exact List.map_congr_left fun a _ => hl a

end

/-! ### A lane that joins -/

theorem linkOf_laneLit_self {s : State} {k : Nat} (lane : Lane) (hk : k < s.links.length) :
    linkOf (laneLit s k lane) k = { linkOf s k with outLanes := (linkOf s k).outLanes ++ [lane] } := linkOf_updLink_self s k _ hk

/-- What holds of a map of the out-lanes holds once one of them is told of. -/
theorem outLanes_tellJoin {γ : Type} (f : Lane → γ) (hf : ∀ (a : Lane) q b, f { a with q := q, told := b } = f a) {s : State} {k : Nat}
    (i : Nat) (hk : k < s.links.length) : (linkOf (tellJoin s k i) k).outLanes.map f = (linkOf s k).outLanes.map f := by
  have htold (b : Bool) : (linkOf (updLink s k (laneTold i b)) k).outLanes.map f = (linkOf s k).outLanes.map f := by
    rw [linkOf_updLink_self s k _ hk]
    show ((linkOf s k).outLanes.map _).map f = _
    rw [List.map_map]
    refine List.map_congr_left fun a _ => ?_
    show f (if a.idx = i then { a with told := b } else a) = f a
    split
    · exact hf a a.q b
    · rfl
  rw [tellJoin_eq]
  split
  · exact (map_outLanes_of_fixed f (fun a => hf a [] a.told) (linkKept_sendCtl _ k _).2.1).trans (htold true)
  · exact htold false

theorem outLanes_joinLane {γ : Type} (f : Lane → γ) (hf : ∀ (a : Lane) q b, f { a with q := q, told := b } = f a) {s : State} {k : Nat}
    (lane : Lane) (hk : k < s.links.length) :
    (linkOf (joinLane s k true lane) k).outLanes.map f = ((linkOf s k).outLanes ++ [lane]).map f := by
  have hself := linkOf_laneLit_self lane hk
  have hlen : k < (laneLit s k lane).links.length := by
    rw [show (laneLit s k lane).links.length = s.links.length from length_links_updLink s k _]
    exact hk
  rw [joinLane_out]
  generalize laneLit s k lane = u at *
  rw [← show (linkOf u k).outLanes = (linkOf s k).outLanes ++ [lane] from congrArg Link.outLanes hself]
  split
  · exact outLanes_startNego f hf hlen
  · exact (map_outLanes_of_fixed f (fun a => hf a [] a.told) (linkKept_settleLink _ k).2.1).trans (outLanes_tellJoin f hf _ hlen)

theorem linkOf_joinLane_ne (s : State) {k n : Nat} (lane : Lane) (h : n ≠ k) : linkOf (joinLane s k true lane) n = linkOf s n := by
  have hlit : linkOf (laneLit s k lane) n = linkOf s n := linkOf_updLink_ne s k n _ h
  rw [joinLane_out]
  split
  · exact (linkOf_startNego_ne _ h).trans hlit
  · exact ((linkKept_settleLink _ k).2.2 n h).trans ((linkOf_tellJoin_ne _ _ h).trans hlit)

theorem specOf_joinLane {s : State} {k : Nat} {lane : Lane} (hl : 17 * lane.fibre + lane.line < s.specMap.length) :
    specOf (joinLane s k true lane) lane.fibre lane.line
      = { specOf s lane.fibre lane.line with lineState := 1, link := k, lane := lane.idx } := by
  have hlit : specOf (laneLit s k lane) lane.fibre lane.line = _ :=
    specOf_updSpec_self (s := updLink s k (fun l => { l with outLanes := l.outLanes ++ [lane] }))
      (fun e => { e with lineState := 1, link := k, lane := lane.idx }) hl
  rw [joinLane_out]
  generalize laneLit s k lane = u at *
  split
  · rw [specOf_congr (startNego_keeps State.specMap (fun _ _ => rfl) u k), hlit]
    rfl
  · rw [specOf_congr (settleLink_keeps State.specMap (fun _ _ => rfl) _ k),
      specOf_congr (tellJoin_keeps State.specMap (fun _ _ => rfl) u k _), hlit]
    rfl

/-! ### A new out-lane (R229, R230) -/

theorem trimDemand_none {s : State} {c : Nat} (h : ∀ d ∈ s.demand, d.chip ≠ c) : trimDemand s c = s := by
  have hf : s.demand.find? (fun (d : Demand) => d.chip == c) = none :=
    List.find?_eq_none.mpr fun d hd => by simpa using h d hd
  unfold trimDemand
  rw [hf]

/-- A lane's place, index and cause of being out of service. -/
def lanePlaceWhy (l : Lane) : Nat × Nat × Nat × Nat := (l.fibre, l.line, l.idx, l.why)

/-- A training of an out-lane has been sent. -/
theorem newTrained_out {s : State} {x j : Nat} (r : TrainResult) (v : Verdict) (hf : findLane s true x j = none)
    (hd : directOut s x j = true) (hs : smGet s.skewHold (modRing x j) = none)
    (hr : s.recovery.any (fun (y : Recovery) => y.ring == modRing x j) = false) (hv : verdict s true x j r = v) :
    trainingDone s true x j r = newTrained (grantTrained s x j) true x j r v := by
  rw [trainingDone_new (o := true) r hf hd hs hr, hv]
  rfl

section
variable {s : State} {x j c : Nat} {r : TrainResult}

/-- The lane admitted to link k of the state `b` with that link bound. -/
def newJoined (b : State) (x j k c rtt : Nat) : State := joinLane (admitReady b x j k c rtt) k true (freshLane b x j k)

theorem newJoined_keeps {γ : Type} (vw : State → γ) (hg : ∀ s t, vw (foot12_1 s t) = vw s) (b : State) (x j k c rtt : Nat) :
    vw (newJoined b x j k c rtt) = vw b :=
  ((joinLane_keeps vw (fun s t => hg s (foot7_1 s t)) _ k true _).trans
    (hg (objPut (lockRing b true x j) (Obj.linkRttNs + k) rtt) (admitReady b x j k c rtt))).trans
    ((objPut_keeps vw (fun s t => hg s (footDic s t)) _ _ _).trans
      (lockRing_keeps vw (fun s t => hg s (footRingsTrainFails s t)) b true x j))

theorem admitOut_joined {b : State} {k : Nat} (hpeer : peerOn s true x j = some c) (hc : c ≠ chip s)
    (hb : bindLink (grantTrained s x j) c (if smGetD s.peerVer c 2 = 1 then 1 else 2) = (b, some k))
    (hfull : (linkOf b k).outLanes.length < 128) (hdem : ∀ d ∈ b.demand, d.chip ≠ c) :
    newTrained (grantTrained s x j) true x j r .admitted = newJoined b x j k c r.rttNs := by
  refine (admitOut_bound (s := grantTrained s x j) r hpeer hc hb hfull).trans ?_
  refine trimDemand_none fun d hd => hdem d ?_
  rwa [show (joinLane (admitReady b x j k c r.rttNs) k true (freshLane b x j k)).demand = b.demand from
    newJoined_keeps State.demand (fun _ _ => rfl) b x j k c r.rttNs] at hd

/-- What a new out-lane of a state changes: its link, its line, its ring, and the objects of its link. -/
theorem newJoined_facts {b : State} {k rtt : Nat} (c : Nat) (hx : x < 32) (hj : j < 17) (hk : k < 64) (hp : PartsOk b)
    (hdic : b.dic = s.dic) :
    (∀ {γ : Type} (f : Lane → γ), (∀ (a : Lane) q b, f { a with q := q, told := b } = f a) →
        (linkOf (newJoined b x j k c rtt) k).outLanes.map f = ((linkOf b k).outLanes ++ [freshLane b x j k]).map f)
      ∧ (specOf (newJoined b x j k c rtt) x j).lineState = 1 ∧ (specOf (newJoined b x j k c rtt) x j).link = k
      ∧ (ringOf (newJoined b x j k c rtt) (modRing x j)).locked = true
      ∧ objGet (newJoined b x j k c rtt) (Obj.linkRttNs + k) = rtt
      ∧ (∀ n, n ≠ k → linkOf (newJoined b x j k c rtt) n = linkOf b n) := by
  obtain ⟨hwp, -, hrtt, -, hlock⟩ := admitReady_facts (s := s) (k := k) c rtt hx hj hp hdic
  have hlinks : (admitReady b x j k c rtt).links = b.links := rfl
  have hdef : newJoined b x j k c rtt = joinLane (admitReady b x j k c rtt) k true (freshLane b x j k) := rfl
  rw [hdef]
  generalize admitReady b x j k c rtt = w at *
  have hof (n : Nat) : linkOf w n = linkOf b n := linkOf_congr hlinks n
  have hspec := specOf_joinLane (s := w) (k := k) (lane := freshLane b x j k) (spec_lt hwp hx hj)
  refine ⟨fun f hf => ?_, congrArg MapEntry.lineState hspec, congrArg MapEntry.link hspec, ?_, ?_,
    fun n hn => (linkOf_joinLane_ne w _ hn).trans (hof n)⟩
  · rw [← hof k]
    exact outLanes_joinLane f hf _ (links_lt hwp hk)
  · rw [ringOf_congr (joinLane_keeps State.rings (fun _ _ => rfl) w k true _)]
    exact hlock
  · exact (sameObjs_joinLane_out w k _ _ (linkRttNs_apart hk)).trans hrtt

theorem newLane_joins (hx : x < 32) (hj : j < 17) (hp : PartsOk s) (hf : findLane s true x j = none)
    (hd : directOut s x j = true) (hpeer : peerOn s true x j = some c) (hc : c ≠ chip s) (hs : smGet s.skewHold (modRing x j) = none)
    (hr : s.recovery.any (fun (y : Recovery) => y.ring == modRing x j) = false) (hdem : ∀ d ∈ s.demand, d.chip ≠ c) {k : Nat}
    (hv : verdict s true x j r = .admitted) (hto : linkTo s c = some k) (hfull : (linkOf s k).outLanes.length < 128) :
    ∃ t, exec (.laneTrainingDone true x j r) s = .next t
      ∧ (linkOf t k).outLanes.map Lane.idx = (linkOf s k).outLanes.map Lane.idx ++ [freeIdx (linkOf s k).outLanes]
      ∧ (∃ l ∈ (linkOf t k).outLanes, l.fibre = x ∧ l.line = j ∧ l.idx = freeIdx (linkOf s k).outLanes ∧ l.why = 0)
      ∧ (specOf t x j).lineState = 1 ∧ (specOf t x j).link = k ∧ (ringOf t (modRing x j)).locked = true
      ∧ objGet t (Obj.linkRttNs + k) = r.rttNs ∧ (∀ n, n ≠ k → linkOf t n = linkOf s n) ∧ t.lpddr = s.lpddr ∧ t.queues = s.queues := by
  have hb : bindLink (grantTrained s x j) c (if smGetD s.peerVer c 2 = 1 then 1 else 2) = (grantTrained s x j, some k) := by
    unfold bindLink
    rw [show linkTo (grantTrained s x j) c = some k from hto]
  have heq := (newTrained_out r .admitted hf hd hs hr hv).trans (admitOut_joined hpeer hc hb hfull hdem)
  obtain ⟨f1, f2, f3, f4, f5, f6⟩ := newJoined_facts (s := s) (b := grantTrained s x j) (k := k) (rtt := r.rttNs) c hx hj
    (linkTo_lt hp hto) hp rfl
  have hmem := f1 lanePlaceWhy fun _ _ _ => rfl
  have hlpddr := newJoined_keeps State.lpddr (fun _ _ => rfl) (grantTrained s x j) x j k c r.rttNs
  have hqueues := newJoined_keeps State.queues (fun _ _ => rfl) (grantTrained s x j) x j k c r.rttNs
  have hidx := f1 Lane.idx fun _ _ _ => rfl
  generalize newJoined (grantTrained s x j) x j k c r.rttNs = t at *
  refine ⟨t, (need_of (by simp [hx, hj]) _).trans (congrArg Host.Outcome.next heq), ?_, ?_, f2, f3, f4, f5, f6, hlpddr, hqueues⟩
  · rw [hidx, List.map_append]
    rfl
  · have hin : (x, j, freeIdx (linkOf s k).outLanes, 0) ∈ (linkOf t k).outLanes.map lanePlaceWhy := by
      rw [hmem, List.map_append]
      exact List.mem_append_right _ (List.mem_cons_self ..)
    obtain ⟨l, hl, he⟩ := List.mem_map.mp hin
    unfold lanePlaceWhy at he
    simp only [Prod.mk.injEq] at he
    exact ⟨l, hl, he⟩

end

end Sys2Proof.Machine

/-!
New lanes that bind a link, wait for one, or are refused, and the end of a hold (R229, R230, R236, R237); O25.
-/

namespace Sys2Proof.Machine

/-! ### The first out-lane towards a chip (R229, R230) -/

section
variable {s : State} {x j c k : Nat} {r : TrainResult}

/-- A link bound to a chip, with the in-lanes that waited for it. -/
def linkBound (s : State) (c v : Nat) (l : Link) : Link :=
  { bound := true, peer := c, version := v, inLanes := (s.strayIn.filter (fun e => e.1 == c)).map Prod.snd, tx := l.tx, rx := l.rx }

/-- The state with link k bound to a chip. -/
def bindState (s : State) (c v k : Nat) : State :=
  updLink { s with strayIn := s.strayIn.filter (fun e => e.1 != c) } k (linkBound s c v)

theorem bindLink_free (v : Nat) (hto : linkTo s c = none) (hfree : freeLink s = some k) :
    bindLink s c v = (bindState s c v k, some k) := by
  unfold bindLink
  rw [hto, hfree]
  rfl

theorem linkOf_bindState_self (c v : Nat) (hk : k < s.links.length) : linkOf (bindState s c v k) k = linkBound s c v (linkOf s k) :=
  linkOf_updLink_self { s with strayIn := s.strayIn.filter (fun e => e.1 != c) } k _ hk

theorem linkOf_bindState_ne (s : State) (c v : Nat) {n : Nat} (h : n ≠ k) : linkOf (bindState s c v k) n = linkOf s n :=
  linkOf_updLink_ne { s with strayIn := s.strayIn.filter (fun e => e.1 != c) } k n _ h

theorem bound_of_freeLink (h : freeLink s = some k) {i : Nat} (hi : i < k) : (linkOf s i).bound = true := by
  have := (List.find?_range_eq_some.mp h).2.2 i hi
  simpa using this

/-- The state in which the first lane of a link bound now is lit. -/
def firstLit (s : State) (x j c v k rtt : Nat) : State :=
  laneLit (admitReady (bindState s c v k) x j k c rtt) k (freshLane (bindState s c v k) x j k)

theorem freshLane_bindState (c v : Nat) (hk : k < s.links.length) :
    freshLane (bindState s c v k) x j k = { fibre := x, line := j, idx := 0, why := 0 } := by
  unfold freshLane
  rw [linkOf_bindState_self c v hk]
  rfl

theorem linkOf_firstLit_self (v rtt : Nat) (hk : k < s.links.length) : linkOf (firstLit s x j c v k rtt) k =
    { linkBound s c v (linkOf s k) with outLanes := [{ fibre := x, line := j, idx := 0, why := 0 }] } := by
  have hlen : k < (admitReady (bindState s c v k) x j k c rtt).links.length := by
    rw [show (admitReady (bindState s c v k) x j k c rtt).links.length = s.links.length from
      length_links_updLink { s with strayIn := s.strayIn.filter (fun e => e.1 != c) } k _]
    exact hk
  unfold firstLit
  rw [linkOf_laneLit_self _ hlen, freshLane_bindState c v hk,
    linkOf_congr (show (admitReady (bindState s c v k) x j k c rtt).links = (bindState s c v k).links from rfl) k,
    linkOf_bindState_self c v hk]
  rfl

theorem linkOf_firstLit_ne (s : State) (v rtt : Nat) {n : Nat} (h : n ≠ k) : linkOf (firstLit s x j c v k rtt) n = linkOf s n :=
  (linkOf_updLink_ne _ k n _ h).trans (linkOf_bindState_ne s c v h)

theorem newJoined_first (v rtt : Nat) (hk : k < s.links.length) : newJoined (bindState s c v k) x j k c rtt =
    if (s.strayIn.filter (fun e => e.1 == c)).map Prod.snd ≠ [] then startNego (firstLit s x j c v k rtt) k
    else settleLink (tellJoin (firstLit s x j c v k rtt) k 0) k := by
  have h : newJoined (bindState s c v k) x j k c rtt = if (linkOf (firstLit s x j c v k rtt) k).nego = 0
      ∧ (linkOf (firstLit s x j c v k rtt) k).darkSince = none ∧ (linkOf (firstLit s x j c v k rtt) k).outLanes ≠ []
      ∧ (linkOf (firstLit s x j c v k rtt) k).inLanes ≠ [] then
        startNego (firstLit s x j c v k rtt) k
      else settleLink (tellJoin (firstLit s x j c v k rtt) k (freshLane (bindState s c v k) x j k).idx) k := rfl
  rw [h, linkOf_firstLit_self v rtt hk, freshLane_bindState c v hk]
  by_cases hin : (s.strayIn.filter (fun e => e.1 == c)).map Prod.snd = []
  · rw [if_neg fun hc => hc.2.2.2 hin, if_neg (not_not_intro hin)]
  · rw [if_pos ⟨rfl, rfl, List.cons_ne_nil _ _, hin⟩, if_pos hin]

theorem sameObjs_firstLit (v rtt : Nat) : SameObjs s (firstLit s x j c v k rtt) [Obj.linkRttNs + k] :=
  SameObjs.of_dic (SameObjs.objPut ((SameObjs.refl s _).of_dic (u := lockRing (bindState s c v k) true x j) rfl) _ _
    (List.mem_cons_self ..)) rfl

/-- What the first lane of a link leaves of it: bound to its peer, with that lane and those that waited. -/
structure FirstLane (s t : State) (x j c k : Nat) : Prop where
  bound : (linkOf t k).bound = true
  peer : (linkOf t k).peer = c
  lane : ∃ l, (linkOf t k).outLanes = [l] ∧ l.fibre = x ∧ l.line = j ∧ l.idx = 0 ∧ l.why = 0
  ins : (linkOf t k).inLanes.map Lane.idx = (s.strayIn.filter (fun e => e.1 == c)).map (fun e => e.2.idx)
  others : ∀ n, n ≠ k → linkOf t n = linkOf s n

theorem lane_of_places {ls : List Lane} {p : Nat × Nat × Nat × Nat} (h : ls.map lanePlaceWhy = [p]) :
    ∃ l, ls = [l] ∧ l.fibre = p.1 ∧ l.line = p.2.1 ∧ l.idx = p.2.2.1 ∧ l.why = p.2.2.2 := by
  obtain ⟨l, hl, rfl⟩ := List.map_eq_singleton_iff.mp h
  exact ⟨l, hl, rfl, rfl, rfl, rfl⟩

/-- Without an in-lane the link is unformed, and does not negotiate yet. -/
theorem firstLane_waits (v rtt : Nat) (hk : k < s.links.length) (hin : s.strayIn.filter (fun e => e.1 == c) = []) :
    FirstLane s (newJoined (bindState s c v k) x j k c rtt) x j c k
      ∧ linkState (newJoined (bindState s c v k) x j k c rtt) k = 4 ∧ (linkOf (newJoined (bindState s c v k) x j k c rtt) k).nego = 0
      ∧ SameObjs s (newJoined (bindState s c v k) x j k c rtt) [Obj.linkRttNs + k, Obj.linkState + k] := by
  have hself := linkOf_firstLit_self (x := x) (j := j) (c := c) v rtt hk
  have hother (n : Nat) (hn : n ≠ k) := linkOf_firstLit_ne (x := x) (j := j) (c := c) s v rtt hn
  have hobjs := sameObjs_firstLit (s := s) (x := x) (j := j) (c := c) (k := k) v rtt
  have hlen : (firstLit s x j c v k rtt).links.length = s.links.length :=
    (length_links_updLink (admitReady (bindState s c v k) x j k c rtt) k _).trans
      (length_links_updLink { s with strayIn := s.strayIn.filter (fun e => e.1 != c) } k _)
  rw [newJoined_first v rtt hk, if_neg (by simp [hin])]
  generalize firstLit s x j c v k rtt = u at *
  have htell : tellJoin u k 0 = updLink u k (laneTold 0 false) := by
    rw [tellJoin_eq, hself]
    exact if_neg (by decide : ¬ (0 : Nat) = 3)
  have hlink : linkOf (updLink u k (laneTold 0 false)) k = laneTold 0 false (linkOf u k) :=
    linkOf_updLink_self u k _ (hlen ▸ hk)
  have hlanes : (linkOf (updLink u k (laneTold 0 false)) k).inLanes = [] := by
    rw [hlink, hself]
    exact congrArg (List.map Prod.snd) hin
  rw [htell, settleLink_unformed (Or.inr (Or.inr hlanes))]
  refine ⟨⟨?_, ?_, ?_, ?_, fun n hn => ?_⟩, linkState_objPut _ k 4, ?_, ?_⟩
  · rw [linkOf_objPut, hlink, hself]
    rfl
  · rw [linkOf_objPut, hlink, hself]
    rfl
  · rw [linkOf_objPut, hlink, hself]
    exact ⟨_, rfl, rfl, rfl, rfl, rfl⟩
  · rw [linkOf_objPut, hlanes, hin]
    rfl
  · rw [linkOf_objPut, linkOf_updLink_ne u k n _ hn]
    exact hother n hn
  · rw [linkOf_objPut, hlink, hself]
    rfl
  · exact SameObjs.objPut (((hobjs.mono (List.cons_subset_cons _ (List.nil_subset _)))).of_dic rfl) _ _ (by simp)

/-- With an in-lane that waited the link is formed, and negotiates. -/
theorem firstLane_negotiates (v rtt : Nat) (hk : k < s.links.length) (hin : s.strayIn.filter (fun e => e.1 == c) ≠ []) :
    FirstLane s (newJoined (bindState s c v k) x j k c rtt) x j c k
      ∧ linkState (newJoined (bindState s c v k) x j k c rtt) k = 3 ∧ (linkOf (newJoined (bindState s c v k) x j k c rtt) k).nego = 1
      ∧ SameObjs s (newJoined (bindState s c v k) x j k c rtt) [Obj.linkRttNs + k, Obj.linkState + k] := by
  have hself := linkOf_firstLit_self (x := x) (j := j) (c := c) v rtt hk
  have hother (n : Nat) (hn : n ≠ k) := linkOf_firstLit_ne (x := x) (j := j) (c := c) s v rtt hn
  have hobjs := sameObjs_firstLit (s := s) (x := x) (j := j) (c := c) (k := k) v rtt
  have hlen : (firstLit s x j c v k rtt).links.length = s.links.length :=
    (length_links_updLink (admitReady (bindState s c v k) x j k c rtt) k _).trans
      (length_links_updLink { s with strayIn := s.strayIn.filter (fun e => e.1 != c) } k _)
  have hne : (s.strayIn.filter (fun e => e.1 == c)).map Prod.snd ≠ [] := fun h => hin (List.map_eq_nil_iff.mp h)
  rw [newJoined_first v rtt hk, if_pos hne]
  generalize firstLit s x j c v k rtt = u at *
  obtain ⟨cs, hcs⟩ := startNego_formed (s := u) (hlen ▸ hk) (by rw [hself]; rfl) (by rw [hself]; exact List.cons_ne_nil _ _)
    (by rw [hself]; exact hne)
  have hout := outLanes_startNego (s := u) lanePlaceWhy (fun _ _ _ => rfl) (hlen ▸ hk)
  have hins := inLanes_startNego (s := u) Lane.idx (fun a => by unfold laneJoined; split <;> rfl) (fun _ => rfl) (hlen ▸ hk)
  rw [show startNego u k = negoDone u k cs from hcs] at hout hins ⊢
  have hlink := negoDone_link cs (hlen ▸ hk : k < u.links.length)
  rw [capabilityGiven_frame] at hlink
  rw [hself] at hout hins
  refine ⟨⟨?_, ?_, lane_of_places hout, ?_, fun n hn => (negoDone_other u cs hn).trans (hother n hn)⟩,
    linkState_negoDone u k cs, ?_, ?_⟩
  · rw [hlink, hself]
    rfl
  · rw [hlink, hself]
    rfl
  · rw [hins]
    exact List.map_map
  · rw [hlink]
    rfl
  · exact (hobjs.mono (List.cons_subset_cons _ (List.nil_subset _))).trans
      ((sameObjs_negoDone u k cs).mono (List.subset_cons_self _ _))

theorem newLane_binds (hx : x < 32) (hj : j < 17) (hp : PartsOk s) (hf : findLane s true x j = none)
    (hd : directOut s x j = true) (hpeer : peerOn s true x j = some c) (hc : c ≠ chip s) (hs : smGet s.skewHold (modRing x j) = none)
    (hr : s.recovery.any (fun (y : Recovery) => y.ring == modRing x j) = false) (hdem : ∀ d ∈ s.demand, d.chip ≠ c)
    (hv : verdict s true x j r = .admitted) (hto : linkTo s c = none) (hfree : freeLink s = some k) :
    ∃ t, exec (.laneTrainingDone true x j r) s = .next t
      ∧ (linkOf t k).bound = true ∧ (linkOf t k).peer = c ∧ (∀ i, i < k → (linkOf s i).bound = true)
      ∧ (∃ l, (linkOf t k).outLanes = [l] ∧ l.fibre = x ∧ l.line = j ∧ l.idx = 0 ∧ l.why = 0)
      ∧ (linkOf t k).inLanes.map Lane.idx = (s.strayIn.filter (fun e => e.1 == c)).map (fun e => e.2.idx)
      ∧ (s.strayIn.all (fun e => e.1 != c) = true → linkState t k = 4 ∧ (linkOf t k).nego = 0)
      ∧ (s.strayIn.any (fun e => e.1 == c) = true → linkState t k = 3 ∧ (linkOf t k).nego = 1)
      ∧ (∀ e ∈ t.strayIn, e.1 ≠ c) ∧ objGet t (Obj.linkRttNs + k) = r.rttNs ∧ (∀ n, n ≠ k → linkOf t n = linkOf s n)
      ∧ SameObjs s t [Obj.linkRttNs + k, Obj.linkState + k] := by
  have hk64 := freeLink_lt hfree
  have hk := links_lt hp hk64
  obtain ⟨v, hver⟩ : ∃ v, v = if smGetD s.peerVer c 2 = 1 then 1 else 2 := ⟨_, rfl⟩
  have hb : bindLink (grantTrained s x j) c (if smGetD s.peerVer c 2 = 1 then 1 else 2)
      = (bindState (grantTrained s x j) c v k, some k) := by
    rw [← hver]
    exact bindLink_free (s := grantTrained s x j) v hto hfree
  have hkg : k < (grantTrained s x j).links.length := hk
  have hfull : (linkOf (bindState (grantTrained s x j) c v k) k).outLanes.length < 128 := by
    rw [linkOf_bindState_self c v hkg]
    exact Nat.zero_lt_succ 127
  have hbp : PartsOk (bindState (grantTrained s x j) c v k) := updLink_partsOk _ k _ hp
  have heq := newTrained_out r .admitted hf hd hs hr hv
  rw [show newTrained (grantTrained s x j) true x j r .admitted = _ from admitOut_joined hpeer hc hb hfull hdem] at heq
  obtain ⟨-, -, -, -, hrtt, -⟩ := newJoined_facts (s := s) (k := k) (rtt := r.rttNs) c hx hj hk64 hbp rfl
  have hgone : ∀ e ∈ (newJoined (bindState (grantTrained s x j) c v k) x j k c r.rttNs).strayIn, e.1 ≠ c := by
    have h : (newJoined (bindState (grantTrained s x j) c v k) x j k c r.rttNs).strayIn
        = (admitReady (bindState (grantTrained s x j) c v k) x j k c r.rttNs).strayIn :=
      joinLane_keeps State.strayIn (fun _ _ => rfl) _ k true _
    rw [h]
    intro e he
    simpa using (List.mem_filter.mp he).2
  have hexec : exec (.laneTrainingDone true x j r) s = _ := (need_of (by simp [hx, hj]) _).trans (congrArg Host.Outcome.next heq)
  have hbelow (i : Nat) (hi : i < k) : (linkOf s i).bound = true := bound_of_freeLink hfree hi
  by_cases hin : s.strayIn.filter (fun e => e.1 == c) = []
  · obtain ⟨hfl, hst, hne, ho⟩ := firstLane_waits (s := grantTrained s x j) (x := x) (j := j) v r.rttNs hkg hin
    refine ⟨_, hexec, hfl.bound, hfl.peer, hbelow, hfl.lane, hfl.ins, fun _ => ⟨hst, hne⟩, fun hany => ?_, hgone, hrtt, hfl.others,
      ho⟩
    obtain ⟨e, he, hec⟩ := List.any_eq_true.mp hany
    have : e ∈ s.strayIn.filter (fun e => e.1 == c) := List.mem_filter.mpr ⟨he, hec⟩
    rw [hin] at this
    cases this
  · obtain ⟨hfl, hst, hne, ho⟩ := firstLane_negotiates (s := grantTrained s x j) (x := x) (j := j) v r.rttNs hkg hin
    refine ⟨_, hexec, hfl.bound, hfl.peer, hbelow, hfl.lane, hfl.ins, fun hall => absurd ?_ hin, fun _ => ⟨hst, hne⟩, hgone, hrtt,
      hfl.others, ho⟩
    refine List.filter_eq_nil_iff.mpr fun e he => ?_
    have := List.all_eq_true.mp hall e he
    simpa using this

end

end Sys2Proof.Machine

/-!
New lines refused for skew, new in-lanes, and the end of a hold (R230, R236, R237); O25 settled.
-/

namespace Sys2Proof.Machine

/-! ### New out-lanes refused or tried again -/

section
variable {s : State} {x j c k : Nat} {r : TrainResult}

theorem darkenLine_none (h : findLane s true x j = none) : darkenLine s x j = parkRing (updSpec s x j (fun e =>
    { e with lineState := if e.lineState = 5 then 5 else 0, link := 0, lane := 0 })) (modRing x j) := by
  unfold darkenLine
  rw [h]

theorem laserOf_modRing (x : Nat) {j : Nat} (hj : j < 17) : modRing x j / 68 = laserOf x := by
  show (17 * x + j) / 68 = x / 4
  omega

/-- Away from comb mode a parked ring moves no reference. -/
theorem parkRing_obs (x : Nat) (hj : j < 17) (hm : combMode s (laserOf x) = false) : (parkRing s (modRing x j)).obs = s.obs := by
  unfold parkRing unlockRing
  dsimp only
  split
  · rw [laserOf_modRing x hj]
    unfold moveRef
    dsimp only
    rw [if_pos]
    · rfl
    · rw [show combMode (updRing s (modRing x j) _) (laserOf x) = false from hm]
      rfl
  · rfl

/-- What a new line refused for skew may change. -/
def skewFoot (s t : State) : State :=
  { s with out := t.out, dic := t.dic, lasers := t.lasers, rings := t.rings, specMap := t.specMap, reassign := t.reassign,
           skewHold := t.skewHold, obs := t.obs }

theorem skewFoot_self (s : State) : skewFoot s s = s := rfl

/-- The line of a refused lane free of its reassignment. -/
def reassignEnded (s : State) (x j : Nat) : State :=
  { s with reassign := if smGet s.reassign x = some j then smErase s.reassign x else s.reassign }

theorem skewHeld_keeps {γ : Type} (vw : State → γ) (hg : ∀ s t, vw (skewFoot s t) = vw s) (s : State) (o : Bool) (x j : Nat) :
    vw (skewHeld s o x j) = vw s :=
  (hg (journal s .laneSkew [boolNat o, x, j]) (skewHeld s o x j)).trans (journal_keeps vw (fun s t => hg s (footDicObs s t)) s _ _)

/-- The line of a refused lane dark, its ring parked. -/
def darkParked (s : State) (x j : Nat) : State :=
  parkRing (updSpec (reassignEnded s x j) x j
    (fun e => { e with lineState := if e.lineState = 5 then 5 else 0, link := 0, lane := 0 })) (modRing x j)

theorem darkParked_keeps {γ : Type} (vw : State → γ) (hg : ∀ s t, vw (skewFoot s t) = vw s) (s : State) (x j : Nat) :
    vw (darkParked s x j) = vw s :=
  ((parkRing_keeps vw (fun s t => hg s (foot4_5 s t)) _ _).trans
    (updSpec_keeps vw (fun s t => hg s (footSpecMap s t)) _ _ _ _)).trans (hg s (reassignEnded s x j))

theorem darkParked_skewHold (s : State) (x j : Nat) : (darkParked s x j).skewHold = s.skewHold :=
  parkRing_keeps State.skewHold (fun _ _ => rfl) _ _

theorem sameObjs_darkParked (s : State) (x j : Nat) : SameObjs s (darkParked s x j) journalObjs :=
  ((SameObjs.refl s _).of_dic rfl).trans (sameObjs_parkRing (updSpec (reassignEnded s x j) x j _) (modRing x j))

theorem darkParked_obs (x : Nat) (hj : j < 17) (hm : combMode s (laserOf x) = false) : (darkParked s x j).obs = s.obs :=
  parkRing_obs (s := updSpec (reassignEnded s x j) x j _) x hj hm

theorem darkParked_parked (h : modRing x j < s.rings.length) : (ringOf (darkParked s x j) (modRing x j)).parked = true :=
  congrArg Ring.parked (ringOf_unlockRing_self (updSpec (reassignEnded s x j) x j _) (modRing x j) _ h)

/-- A new out-lane refused for skew is dark, its ring parked. -/
theorem skewDropped_new (h : findLane s true x j = none) : skewDropped s true x j = darkParked s x j :=
  (if_pos rfl).trans (darkenLine_none (s := reassignEnded s x j) h)

theorem newLane_skewed (hx : x < 32) (hj : j < 17) (hp : PartsOk s) (hf : findLane s true x j = none)
    (hd : directOut s x j = true) (hs : smGet s.skewHold (modRing x j) = none)
    (hr : s.recovery.any (fun (y : Recovery) => y.ring == modRing x j) = false) (hv : verdict s true x j r = .skewed) :
    ∃ t, exec (.laneTrainingDone true x j r) s = .next t
      ∧ t = { s with out := t.out, dic := t.dic, lasers := t.lasers, rings := t.rings, specMap := t.specMap, reassign := t.reassign,
                     skewHold := t.skewHold, obs := t.obs }
      ∧ smGet t.skewHold (modRing x j) = some (s.now + ms 1000) ∧ (ringOf t (modRing x j)).parked = true
      ∧ SameObjs s t journalObjs ∧ (combMode s (laserOf x) = false → Logged s t .laneSkew [1, x, j] false) := by
  have hlinks : (skewHeld (grantTrained s x j) true x j).links = s.links := journal_links (grantTrained s x j) _ _
  have hparts : PartsOk (skewHeld (grantTrained s x j) true x j) :=
    (journal_keeps PartsOk (fun _ _ => rfl) (grantTrained s x j) _ _).mpr hp
  have hhold : smGet (skewHeld (grantTrained s x j) true x j).skewHold (modRing x j) = some (s.now + ms 1000) :=
    smGet_smSet_self _ _ _
  have hobjs : SameObjs s (skewHeld (grantTrained s x j) true x j) journalObjs :=
    ((SameObjs.refl s _).of_dic (u := grantTrained s x j) rfl).trans
      (((SameObjs.refl _ _).journal _ _ (List.Subset.refl _)).of_dic rfl)
  have hlog : Logged s (skewHeld (grantTrained s x j) true x j) .laneSkew [1, x, j] false :=
    Logged.of_obs (Logged.of_view (logged_journal (grantTrained s x j) _ _) rfl) rfl
  have hcomb : combMode (skewHeld (grantTrained s x j) true x j) (laserOf x) = combMode s (laserOf x) :=
    journal_keeps (combMode · (laserOf x)) (fun _ _ => rfl) (grantTrained s x j) _ _
  have heq := (newTrained_out r .skewed hf hd hs hr hv).trans (refuseSkew_eq (grantTrained s x j) true x j)
  rw [skewDropped_new ((findLane_congr hlinks true x j).trans hf)] at heq
  have hframe : trainingDone s true x j r = skewFoot s (trainingDone s true x j r) := by
    have h1 := (darkParked_keeps (skewFoot · (trainingDone s true x j r)) (fun _ _ => rfl)
      (skewHeld (grantTrained s x j) true x j) x j).trans
        (skewHeld_keeps (skewFoot · (trainingDone s true x j r)) (fun _ _ => rfl) (grantTrained s x j) true x j)
    rw [← heq] at h1
    exact (skewFoot_self _).symm.trans h1
  rw [heq] at hframe
  generalize skewHeld (grantTrained s x j) true x j = u at *
  have hlen : modRing x j < u.rings.length := rings_lt hparts (modRing_lt hx hj)
  exact ⟨_, (need_of (by simp [hx, hj]) _).trans (congrArg Host.Outcome.next heq), hframe,
    (congrArg (smGet · (modRing x j)) (darkParked_skewHold u x j)).trans hhold, darkParked_parked hlen,
    hobjs.trans (sameObjs_darkParked u x j),
    fun hm => Logged.of_obs hlog (darkParked_obs x hj (hcomb.trans hm))⟩

theorem newLane_failed (hx : x < 32) (hj : j < 17) (hf : findLane s true x j = none)
    (hd : directOut s x j = true) (hs : smGet s.skewHold (modRing x j) = none)
    (hr : s.recovery.any (fun (y : Recovery) => y.ring == modRing x j) = false) (hv : verdict s true x j r = .failed)
    (hn : modRing x j ∉ s.trainFails) :
    exec (.laneTrainingDone true x j r) s = .next { s with
      out := s.out ++ [.training x j (outTag s x j)], trainFails := s.trainFails ++ [modRing x j] } := by
  refine (need_of (by simp [hx, hj]) _).trans (congrArg Host.Outcome.next ((newTrained_out r .failed hf hd hs hr hv).trans ?_))
  show failTraining (grantTrained s x j) true x j = _
  unfold failTraining
  dsimp only
  rw [show findLane (grantTrained s x j) true x j = none from hf]
  exact if_neg fun h => hn (List.contains_iff_mem.mp h)

/-! ### New in-lanes (R230, R236) -/

/-- A new in-lane, as its training frames name it. -/
def heardLane (x j : Nat) (g : LaneTag) : Lane := { fibre := x, line := j, idx := g.laneIndex, why := 0, tag := some g }

/-- The state in which a new in-lane is admitted: granted no more, its ring locked. -/
def inLocked (s : State) (x j : Nat) : State := lockRing { s with inGrant := s.inGrant.erase (17 * x + j) } false x j

theorem newTrained_in {v : Verdict} (hf : findLane s false x j = none) (hd : laneExpected s x j = true)
    (hs : smGet s.skewHold (dropRing x j) = none)
    (hr : s.recovery.any (fun (y : Recovery) => y.ring == dropRing x j) = false) (hv : verdict s false x j r = v)
    (hne : v ≠ .failed) : trainingDone s false x j r = newTrained s false x j r v := by
  have hsame : runTraining s false x j r = s := by
    obtain ⟨-, htag⟩ := sound_of_verdict (by rw [hv]; exact hne : verdict s false x j r ≠ .failed)
    unfold runTraining
    rw [if_neg Bool.false_ne_true]
    exact if_neg (by simp [htag])
  rw [trainingDone_new (o := false) r hf hd hs hr, hv, hsame]

theorem locked_inLocked (hx : x < 32) (hj : j < 17) (hp : PartsOk s) : (ringOf (inLocked s x j) (dropRing x j)).locked = true :=
  congrArg Ring.locked (ringOf_updRing_self { s with
    inGrant := s.inGrant.erase (17 * x + j), trainFails := s.trainFails.erase (dropRing x j) } (dropRing x j)
      (fun g => { g with locked := true, parked := false, bad := 0, fullFails := 0, sweep := 0, cwPos := 0, cwBad := false })
      (rings_lt hp (ringAt_lt false hx hj)))

theorem newIn_waits (hx : x < 32) (hj : j < 17) (hp : PartsOk s) (hf : findLane s false x j = none)
    (hd : laneExpected s x j = true) (hpeer : peerOn s false x j = some c) (hc : c ≠ chip s)
    (hs : smGet s.skewHold (dropRing x j) = none)
    (hr : s.recovery.any (fun (y : Recovery) => y.ring == dropRing x j) = false) (hv : verdict s false x j r = .admitted)
    (hto : linkTo s c = none) :
    ∃ t, exec (.laneTrainingDone false x j r) s = .next t
      ∧ t = { s with rings := t.rings, trainFails := t.trainFails, inGrant := t.inGrant, strayIn := t.strayIn }
      ∧ (∃ l, t.strayIn = s.strayIn ++ [(c, l)] ∧ l.fibre = x ∧ l.line = j ∧ l.idx = r.tag.laneIndex ∧ l.tag = some r.tag)
      ∧ (ringOf t (dropRing x j)).locked = true := by
  have heq : trainingDone s false x j r
      = { inLocked s x j with strayIn := (inLocked s x j).strayIn ++ [(c, heardLane x j r.tag)] } := by
    refine (newTrained_in hf hd hs hr hv (by simp)).trans ?_
    show admitIn s x j r = _
    unfold admitIn
    rw [hpeer]
    dsimp only
    rw [if_neg hc, show linkTo (lockRing { s with inGrant := s.inGrant.erase (17 * x + j) } false x j) c = none from hto]
    rfl
  have hlock := locked_inLocked hx hj hp
  exact ⟨_, (need_of (by simp [hx, hj]) _).trans (congrArg Host.Outcome.next heq), rfl,
    ⟨heardLane x j r.tag, rfl, rfl, rfl, rfl, rfl⟩, hlock⟩

/-- The state in which link k may take a new in-lane: the round trip kept, and no other lane that had left in its place. -/
def inReady (s : State) (x j k : Nat) (r : TrainResult) : State :=
  updLink (objPut (inLocked s x j) (Obj.linkRttNs + k) r.rttNs) k (fun l =>
    { l with left := l.left.filter (fun (a : Lane) => a.idx != r.tag.laneIndex && !(a.fibre == x && a.line == j)) })

/-- A new in-lane on its link: it joins one that forms or whose LaneJoin came before, and waits for LaneJoin on another. -/
def inTaken (w : State) (k : Nat) (lane : Lane) : State :=
  if (linkOf w k).nego ≠ 3 then joinLane w k false lane
  else
    match smGet (linkOf w k).joins lane.idx with
    | some q => joinLane (updLink w k (fun l => { l with joins := smErase l.joins lane.idx })) k false (joinedAt lane q)
    | none => updLink w k (fun l => { l with left := l.left ++ [lane] })

theorem admitIn_linked (hpeer : peerOn s false x j = some c) (hc : c ≠ chip s) (hto : linkTo s c = some k)
    (hfull : ((linkOf s k).inLanes ++ (linkOf s k).left).length < 128) :
    admitIn s x j r = inTaken (inReady s x j k r) k (heardLane x j r.tag) := by
  unfold admitIn
  rw [hpeer]
  dsimp only
  rw [if_neg hc, show linkTo (lockRing { s with inGrant := s.inGrant.erase (17 * x + j) } false x j) c = some k from hto]
  dsimp only
  exact if_neg (Nat.not_le.mpr hfull)

/-- A lane put on its link. -/
def laneIn (s : State) (k : Nat) (lane : Lane) : State := updLink s k (fun l => { l with inLanes := l.inLanes ++ [lane] })

theorem joinLane_in (s : State) (k : Nat) (lane : Lane) : joinLane s k false lane =
    if (linkOf (laneIn s k lane) k).nego = 0 ∧ (linkOf (laneIn s k lane) k).darkSince = none
        ∧ (linkOf (laneIn s k lane) k).outLanes ≠ [] ∧ (linkOf (laneIn s k lane) k).inLanes ≠ [] then
      startNego (laneIn s k lane) k
    else settleLink (laneIn s k lane) k := rfl

/-- A lane's place, index and LaneTag. -/
def lanePlaceTag (l : Lane) : Nat × Nat × Nat × Option LaneTag := (l.fibre, l.line, l.idx, l.tag)

theorem lanePlaceTag_joined (a : Lane) : lanePlaceTag (laneJoined a) = lanePlaceTag a := by
  unfold laneJoined
  split <;> rfl

theorem mem_inLanes_joinLane {w : State} {lane : Lane} (hk : k < w.links.length) :
    lanePlaceTag lane ∈ (linkOf (joinLane w k false lane) k).inLanes.map lanePlaceTag := by
  have hself : linkOf (laneIn w k lane) k = { linkOf w k with inLanes := (linkOf w k).inLanes ++ [lane] } :=
    linkOf_updLink_self w k _ hk
  have hlen : (laneIn w k lane).links.length = w.links.length := length_links_updLink w k _
  have hmem : lanePlaceTag lane ∈ (linkOf (laneIn w k lane) k).inLanes.map lanePlaceTag := by
    rw [hself]
    exact List.mem_map_of_mem (List.mem_append_right _ (List.mem_cons_self ..))
  rw [joinLane_in]
  generalize laneIn w k lane = u at *
  split
  · rw [inLanes_startNego lanePlaceTag lanePlaceTag_joined (fun _ => rfl) (hlen ▸ hk)]
    exact hmem
  · rw [map_inLanes_of_fixed lanePlaceTag lanePlaceTag_joined (linkKept_settleLink u k).2.1]
    exact hmem

theorem linkOf_joinLane_in_ne (w : State) (lane : Lane) {n : Nat} (h : n ≠ k) :
    linkOf (joinLane w k false lane) n = linkOf w n := by
  have hin : linkOf (laneIn w k lane) n = linkOf w n := linkOf_updLink_ne w k n _ h
  rw [joinLane_in]
  split
  · exact (linkOf_startNego_ne _ h).trans hin
  · exact ((linkKept_settleLink _ k).2.2 n h).trans hin

theorem sameObjs_joinLane_in (w : State) (k : Nat) (lane : Lane) : SameObjs w (joinLane w k false lane) (settleObjs k) := by
  have hin : SameObjs w (laneIn w k lane) (settleObjs k) := (SameObjs.refl w _).of_dic rfl
  rw [joinLane_in]
  split
  · exact hin.trans (sameObjs_startNego _ k)
  · exact hin.trans (sameCells_settleLink _ k).objs

theorem inTaken_keeps {γ : Type} (vw : State → γ) (hg : ∀ s t, vw (foot7_1 s t) = vw s) (w : State) (k : Nat) (lane : Lane) :
    vw (inTaken w k lane) = vw w := by
  unfold inTaken
  split
  · exact joinLane_keeps vw hg w k false lane
  · split
    · exact (joinLane_keeps vw hg _ k false _).trans (updLink_keeps vw (fun s t => hg s (footLinks s t)) w k _)
    · exact updLink_keeps vw (fun s t => hg s (footLinks s t)) w k _

theorem sameObjs_inTaken (w : State) (k : Nat) (lane : Lane) : SameObjs w (inTaken w k lane) (settleObjs k) := by
  unfold inTaken
  split
  · exact sameObjs_joinLane_in w k lane
  · split
    · exact ((SameObjs.refl w _).of_dic rfl).trans (sameObjs_joinLane_in _ k _)
    · exact (SameObjs.refl w _).of_dic rfl

theorem linkOf_inTaken_ne (w : State) (lane : Lane) {n : Nat} (h : n ≠ k) : linkOf (inTaken w k lane) n = linkOf w n := by
  unfold inTaken
  split
  · exact linkOf_joinLane_in_ne w lane h
  · split
    · exact (linkOf_joinLane_in_ne _ _ h).trans (linkOf_updLink_ne w k n _ h)
    · exact linkOf_updLink_ne w k n _ h

/-- A new in-lane stands on its link, or among those that wait to join it. -/
theorem mem_inTaken {w : State} (lane : Lane) (hk : k < w.links.length) :
    lanePlaceTag lane ∈ ((linkOf (inTaken w k lane) k).inLanes ++ (linkOf (inTaken w k lane) k).left).map lanePlaceTag := by
  rw [List.map_append]
  unfold inTaken
  split
  · exact List.mem_append_left _ (mem_inLanes_joinLane hk)
  · split
    next q _ =>
      refine List.mem_append_left _ ?_
      have h := mem_inLanes_joinLane (k := k) (w := updLink w k (fun l => { l with joins := smErase l.joins lane.idx }))
        (lane := joinedAt lane q) (by rw [length_links_updLink]; exact hk)
      exact h
    · refine List.mem_append_right _ ?_
      rw [linkOf_updLink_self w k _ hk]
      exact List.mem_map_of_mem (List.mem_append_right _ (List.mem_cons_self ..))

theorem inTaken_left {w : State} (lane : Lane) (hn : (linkOf w k).nego = 3) (hj : smGet (linkOf w k).joins lane.idx = none) :
    inTaken w k lane = updLink w k (fun l => { l with left := l.left ++ [lane] }) := by
  unfold inTaken
  rw [if_neg (not_not_intro hn), hj]

theorem newIn_joins (hx : x < 32) (hj : j < 17) (hp : PartsOk s) (hf : findLane s false x j = none)
    (hd : laneExpected s x j = true) (hpeer : peerOn s false x j = some c) (hc : c ≠ chip s)
    (hs : smGet s.skewHold (dropRing x j) = none)
    (hr : s.recovery.any (fun (y : Recovery) => y.ring == dropRing x j) = false) (hv : verdict s false x j r = .admitted)
    (hto : linkTo s c = some k) (hfull : ((linkOf s k).inLanes ++ (linkOf s k).left).length < 128) :
    ∃ t, exec (.laneTrainingDone false x j r) s = .next t ∧ objGet t (Obj.linkRttNs + k) = r.rttNs
      ∧ (∃ l ∈ (linkOf t k).inLanes ++ (linkOf t k).left, l.fibre = x ∧ l.line = j ∧ l.idx = r.tag.laneIndex ∧ l.tag = some r.tag)
      ∧ ((linkOf s k).nego = 3 → smGet (linkOf s k).joins r.tag.laneIndex = none →
          (linkOf t k).inLanes = (linkOf s k).inLanes ∧ linkState t k = linkState s k)
      ∧ (ringOf t (dropRing x j)).locked = true ∧ (∀ n, n ≠ k → linkOf t n = linkOf s n) ∧ t.lpddr = s.lpddr
      ∧ t.queues = s.queues := by
  have hk := linkTo_lt hp hto
  have hkl := links_lt hp hk
  have heq : trainingDone s false x j r = inTaken (inReady s x j k r) k (heardLane x j r.tag) :=
    (newTrained_in hf hd hs hr hv (by simp)).trans (admitIn_linked hpeer hc hto hfull)
  have hlock : (ringOf (inReady s x j k r) (dropRing x j)).locked = true := locked_inLocked hx hj hp
  have hself : linkOf (inReady s x j k r) k = { linkOf s k with
      left := (linkOf s k).left.filter (fun (a : Lane) => a.idx != r.tag.laneIndex && !(a.fibre == x && a.line == j)) } :=
    linkOf_updLink_self (objPut (inLocked s x j) (Obj.linkRttNs + k) r.rttNs) k _ hkl
  have hother (n : Nat) (hn : n ≠ k) : linkOf (inReady s x j k r) n = linkOf s n :=
    linkOf_updLink_ne (objPut (inLocked s x j) (Obj.linkRttNs + k) r.rttNs) k n _ hn
  have hlen : k < (inReady s x j k r).links.length :=
    lt_of_lt_of_eq hkl (length_links_updLink (objPut (inLocked s x j) (Obj.linkRttNs + k) r.rttNs) k _).symm
  have hrtt : objGet (inReady s x j k r) (Obj.linkRttNs + k) = r.rttNs := objGet_objPut_self (inLocked s x j) _ _
  have hstate : linkState (inReady s x j k r) k = linkState s k :=
    objGet_objPut_ne (inLocked s x j) _ _ _ (linkRtt_ne_state (k := k)).symm
  have hmem : (inReady s x j k r).lpddr = s.lpddr := rfl
  have hque : (inReady s x j k r).queues = s.queues := rfl
  generalize inReady s x j k r = w at *
  refine ⟨_, (need_of (by simp [hx, hj]) _).trans (congrArg Host.Outcome.next heq),
    (sameObjs_inTaken w k _ _ (linkRttNs_apart hk)).trans hrtt, ?_, fun hn hjo => ?_, ?_,
    fun n hn => (linkOf_inTaken_ne w _ hn).trans (hother n hn),
    (inTaken_keeps State.lpddr (fun _ _ => rfl) w k _).trans hmem, (inTaken_keeps State.queues (fun _ _ => rfl) w k _).trans hque⟩
  · obtain ⟨l, hl, he⟩ := List.mem_map.mp (mem_inTaken (heardLane x j r.tag) hlen)
    unfold lanePlaceTag heardLane at he
    simp only [Prod.mk.injEq] at he
    exact ⟨l, hl, he⟩
  · rw [inTaken_left (k := k) (w := w) (heardLane x j r.tag) (by rw [hself]; exact hn) (by rw [hself]; exact hjo)]
    refine ⟨?_, hstate⟩
    rw [linkOf_updLink_self w k _ hlen, hself]
  · rw [ringOf_congr (inTaken_keeps State.rings (fun _ _ => rfl) w k _)]
    exact hlock

theorem newIn_skewed (hx : x < 32) (hj : j < 17) (hf : findLane s false x j = none)
    (hd : laneExpected s x j = true) (hs : smGet s.skewHold (dropRing x j) = none)
    (hr : s.recovery.any (fun (y : Recovery) => y.ring == dropRing x j) = false) (hv : verdict s false x j r = .skewed) :
    ∃ t, exec (.laneTrainingDone false x j r) s = .next t
      ∧ t = { s with skewHold := t.skewHold, inGrant := t.inGrant, dic := t.dic, obs := t.obs }
      ∧ smGet t.skewHold (dropRing x j) = some (s.now + ms 1000) ∧ SameObjs s t journalObjs ∧ Logged s t .laneSkew [0, x, j] false := by
  have hlinks : (skewHeld s false x j).links = s.links := journal_links s _ _
  have hno : findLane { skewHeld s false x j with inGrant := (skewHeld s false x j).inGrant.erase (17 * x + j) } false x j = none :=
    (findLane_congr hlinks false x j).trans hf
  have heq : trainingDone s false x j r = { skewHeld s false x j with inGrant := (skewHeld s false x j).inGrant.erase (17 * x + j) } := by
    refine (newTrained_in hf hd hs hr hv (by simp)).trans ((refuseSkew_eq s false x j).trans ?_)
    unfold skewDropped
    rw [if_neg Bool.false_ne_true, hno]
  have hframe : journal s .laneSkew [0, x, j] = footDicObs s (journal s .laneSkew [0, x, j]) :=
    journal_keeps (footDicObs · (journal s .laneSkew [0, x, j])) (fun _ _ => rfl) s .laneSkew [0, x, j]
  refine ⟨_, (need_of (by simp [hx, hj]) _).trans (congrArg Host.Outcome.next heq), ?_, smGet_smSet_self _ _ _,
    SameObjs.of_dic ((SameObjs.refl s _).journal .laneSkew [0, x, j] (List.Subset.refl _)) rfl,
    Logged.of_obs (logged_journal s .laneSkew [0, x, j]) rfl⟩
  have hdef : skewHeld s false x j = { journal s .laneSkew [0, x, j] with
    skewHold := smSet s.skewHold (dropRing x j) (s.now + ms 1000) } := rfl
  rw [hdef]
  generalize journal s .laneSkew [0, x, j] = u at *
  rw [hframe]
  rfl

end

/-! ### The end of a hold (R237) -/

theorem laneSkewHoldEnd_holds (o : Bool) (x j : Nat) (s : State) (hx : x < 32) (hj : j < 17) :
    (∀ e, smGet s.skewHold (ringAt o x j) = some e → e ≤ s.now →
      exec (.laneSkewHoldEnd o x j) s = .next { s with skewHold := smErase s.skewHold (ringAt o x j) })
    ∧ (∀ e, smGet s.skewHold (ringAt o x j) = some e → s.now < e → exec (.laneSkewHoldEnd o x j) s = .next s) := by
  have heq {e : Nat} (h : smGet s.skewHold (ringAt o x j) = some e) : skewHoldEnd s o x j =
      if e ≤ s.now then { s with skewHold := smErase s.skewHold (ringAt o x j) } else s := by
    unfold skewHoldEnd
    dsimp only
    rw [show smGet s.skewHold (if o then modRing x j else dropRing x j) = some e from h]
    rfl
  refine ⟨fun e h he => ?_, fun e h he => ?_⟩
  · exact (need_of (by simp [hx, hj]) _).trans (congrArg Host.Outcome.next ((heq h).trans (if_pos he)))
  · exact (need_of (by simp [hx, hj]) _).trans (congrArg Host.Outcome.next ((heq h).trans (if_neg (Nat.not_le.mpr he))))

/-- Settles O25: links form again and are removed, lanes leave for errors, return, and join, each as its own lemma says. -/
theorem linksAndLanesBroughtUp : Obligations.LinksAndLanesBroughtUp := by
  unfold Obligations.LinksAndLanesBroughtUp
  refine ⟨linkReform_forms, fun k s hk h => (need_lt hk _).trans (congrArg Host.Outcome.next (reform_idle h)), linkRemove_removes,
    fun k s hk h => (need_lt hk _).trans (congrArg Host.Outcome.next (removeDark_idle h)),
    fun k i lane s hk hi hp hl hw => ⟨laneErrorRemoval_bad hk hi hp hl hw, fun hm => laneErrorRemoval_kept hk hi fun l h => ?_⟩,
    fun k i s hk hi h => laneErrorRemoval_kept hk hi fun l hl => Or.inl (h l hl),
    fun o x j k lane r s hx hj hp hf ht hs hr => ⟨laneTrainingDone_admitted hx hj hp hf ht hs hr,
      laneTrainingDone_skewed hx hj hp hf ht hs hr, laneTrainingDone_retried hx hj hf ht hs hr,
      laneTrainingDone_swept hx hj hp hf ht hs hr⟩,
    laneTrainingDone_stays,
    fun x j c r s hx hj hp hf hd hpeer hc hs hr hdem => ⟨fun k hv hto hfull => newLane_joins hx hj hp hf hd hpeer hc hs hr hdem hv hto hfull,
      fun k hv hto hfree => newLane_binds hx hj hp hf hd hpeer hc hs hr hdem hv hto hfree, newLane_skewed hx hj hp hf hd hs hr,
      newLane_failed hx hj hf hd hs hr⟩,
    fun x j c r s hx hj hp hf hd hpeer hc hs hr => ⟨fun hv => ⟨newIn_waits hx hj hp hf hd hpeer hc hs hr hv,
      fun k hto hfull => newIn_joins hx hj hp hf hd hpeer hc hs hr hv hto hfull⟩, newIn_skewed hx hj hf hd hs hr⟩,
    laneSkewHoldEnd_holds⟩
  rw [hl] at h
  cases h
  exact Or.inr hm

end Sys2Proof.Machine

/-!
Capability received, and a peer that forms a link again (R246, R243).
-/

namespace Sys2Proof.Machine

/-! ### Capability received -/

/-- A link that has the version and the capabilities of its peer. -/
def capsAgreed (v caps : Nat) (l : Link) : Link := { l with version := v, agreed := Nat.land (capsOf v) caps % 256, nego := 2 }

/-- The causes of a link once its peer's EpochProto is known. -/
def protoCauses (proto : Nat) (cs : List Nat) : List Nat :=
  if proto ≠ Config.epochProto then (if cs.contains 2 then cs else cs ++ [2]) else cs.erase 2

/-- Another EpochProto journalled. -/
def protoNoted (s : State) (k p proto : Nat) : State :=
  if proto ≠ Config.epochProto then journal s .epochProtoDiffers [k, p, Config.epochProto, proto] else s

/-- A link that has heard its peer's Capability, before it acknowledges. -/
def capsHeard (s : State) (k v caps proto : Nat) : State :=
  updLink (protoNoted (updLink s k (capsAgreed v caps)) k (linkOf s k).peer proto) k
    (fun l => { l with causes := protoCauses proto l.causes })

section
variable {s : State} {k v v' caps proto : Nat}

theorem takeCapability_eq (hb : (linkOf s k).bound = true) (hn : (linkOf s k).nego = 1 ∨ (linkOf s k).nego = 2)
    (hv : v' = if v = 1 then 1 else (linkOf s k).version) : takeCapability s k v caps proto =
      sendCtl (capsHeard s k v' caps proto) k (.capabilityAck (linkOf (capsHeard s k v' caps proto) k).agreed) := by
  have hrun : takeCapability s k v caps proto = sendCtl (if proto ≠ Config.epochProto then
        updLink (journal (updLink s k (capsAgreed v' caps)) .epochProtoDiffers [k, (linkOf s k).peer, Config.epochProto, proto]) k
          (fun l => { l with causes := if l.causes.contains 2 then l.causes else l.causes ++ [2] })
      else updLink (updLink s k (capsAgreed v' caps)) k (fun l => { l with causes := l.causes.erase 2 })) k
        (.capabilityAck (linkOf (if proto ≠ Config.epochProto then
        updLink (journal (updLink s k (capsAgreed v' caps)) .epochProtoDiffers [k, (linkOf s k).peer, Config.epochProto, proto]) k
          (fun l => { l with causes := if l.causes.contains 2 then l.causes else l.causes ++ [2] })
      else updLink (updLink s k (capsAgreed v' caps)) k (fun l => { l with causes := l.causes.erase 2 })) k).agreed) := by
    subst hv
    exact if_neg (by rcases hn with h | h <;> simp [hb, h])
  rw [hrun]
  unfold capsHeard protoNoted protoCauses
  split <;> rfl

theorem takeCapability_idle (h : (linkOf s k).bound = false ∨ (linkOf s k).nego = 0) : takeCapability s k v caps proto = s := by
  refine if_pos ?_
  rcases h with h | h
  · simp [h]
  · simp [h]

theorem protoNoted_links (s : State) (k p proto : Nat) : (protoNoted s k p proto).links = s.links := by
  unfold protoNoted
  split
  · exact journal_links _ _ _
  · rfl

theorem capsHeard_self (hk : k < s.links.length) : linkOf (capsHeard s k v caps proto) k =
    { capsAgreed v caps (linkOf s k) with causes := protoCauses proto (linkOf s k).causes } := by
  have hlinks := protoNoted_links (updLink s k (capsAgreed v caps)) k (linkOf s k).peer proto
  unfold capsHeard
  rw [linkOf_updLink_self _ k _ (by rw [hlinks, length_links_updLink]; exact hk), linkOf_congr hlinks, linkOf_updLink_self s k _ hk]
  rfl

theorem capsHeard_ne {i : Nat} (h : i ≠ k) : linkOf (capsHeard s k v caps proto) i = linkOf s i := by
  have hlinks := protoNoted_links (updLink s k (capsAgreed v caps)) k (linkOf s k).peer proto
  unfold capsHeard
  rw [linkOf_updLink_ne _ k i _ h, linkOf_congr hlinks, linkOf_updLink_ne s k i _ h]

theorem length_capsHeard : (capsHeard s k v caps proto).links.length = s.links.length := by
  unfold capsHeard
  rw [length_links_updLink, protoNoted_links, length_links_updLink]

/-- What a control flit given to a link leaves of it. -/
theorem linkOf_sendCtl_keeps {γ : Type} (g : Link → γ) (hg : ∀ (l : Link) (x : List Lane) (q : Nat) (us : List Unacked) (cs : List Ctl),
    g { l with outLanes := x, txSeq := q, unacked := us, waitCtl := cs } = g l) (c : Ctl) (hk : k < s.links.length) :
    g (linkOf (sendCtl s k c) k) = g (linkOf s k) := by
  rw [linkOf_sendCtl_self s k c hk]
  exact ctlGiven_keeps g hg s.now c (linkOf s k)

/-- What of the link a Capability received leaves or sets. -/
theorem takeCapability_link {γ : Type} (g : Link → γ)
    (hg : ∀ (l : Link) (x : List Lane) (q : Nat) (us : List Unacked) (cs : List Ctl),
      g { l with outLanes := x, txSeq := q, unacked := us, waitCtl := cs } = g l)
    (hk : k < s.links.length) (hb : (linkOf s k).bound = true) (hn : (linkOf s k).nego = 1 ∨ (linkOf s k).nego = 2)
    (hv : v' = if v = 1 then 1 else (linkOf s k).version) : g (linkOf (takeCapability s k v caps proto) k) =
      g { capsAgreed v' caps (linkOf s k) with causes := protoCauses proto (linkOf s k).causes } := by
  rw [takeCapability_eq hb hn hv, linkOf_sendCtl_keeps g hg _ (by rw [length_capsHeard]; exact hk), capsHeard_self hk]

theorem takeCapability_other {i : Nat} (h : i ≠ k) (hb : (linkOf s k).bound = true)
    (hn : (linkOf s k).nego = 1 ∨ (linkOf s k).nego = 2) : linkOf (takeCapability s k v caps proto) i = linkOf s i := by
  rw [takeCapability_eq hb hn rfl, linkOf_sendCtl_ne _ _ _ _ h, capsHeard_ne h]

theorem objs_capsHeard_other (hd : proto ≠ Config.epochProto) : SameObjs s (capsHeard s k v caps proto) journalObjs
    ∧ Logged s (capsHeard s k v caps proto) .epochProtoDiffers [k, (linkOf s k).peer, Config.epochProto, proto] false := by
  have hnoted : protoNoted (updLink s k (capsAgreed v caps)) k (linkOf s k).peer proto
      = journal (updLink s k (capsAgreed v caps)) .epochProtoDiffers [k, (linkOf s k).peer, Config.epochProto, proto] := if_pos hd
  unfold capsHeard
  rw [hnoted]
  exact ⟨((((SameObjs.refl s _).of_dic (u := updLink s k (capsAgreed v caps)) rfl)).journal _ _ (List.Subset.refl _)).of_dic rfl,
    (Logged.of_view (logged_journal (updLink s k (capsAgreed v caps)) _ _) rfl).of_obs rfl⟩

theorem objs_capsHeard_same (hd : proto = Config.epochProto) : (capsHeard s k v caps proto).dic = s.dic
    ∧ (capsHeard s k v caps proto).obs = s.obs := by
  have hnoted : protoNoted (updLink s k (capsAgreed v caps)) k (linkOf s k).peer proto = updLink s k (capsAgreed v caps) :=
    if_neg (by simp [hd])
  unfold capsHeard
  rw [hnoted]
  exact ⟨rfl, rfl⟩

theorem sendCtl_obs (s : State) (k : Nat) (c : Ctl) : (sendCtl s k c).obs = s.obs := sendCtl_keeps State.obs (fun _ _ => rfl) s k c

theorem foot_dic_links_obs_self (s : State) : footDicLinksObs s s = s := rfl

theorem takeCapability_frame (s : State) (k v caps proto : Nat) :
    takeCapability s k v caps proto = footDicLinksObs s (takeCapability s k v caps proto) :=
  (foot_dic_links_obs_self _).symm.trans
    (takeCapability_keeps (footDicLinksObs · (takeCapability s k v caps proto)) (fun _ _ => rfl) s k v caps proto)

theorem capability_negotiating (hk : k < 64) (hp : PartsOk s) (hb : (linkOf s k).bound = true)
    (hn : (linkOf s k).nego = 1 ∨ (linkOf s k).nego = 2) (hv : v' = if v = 1 then 1 else (linkOf s k).version) :
    ∃ t, exec (.capability k v caps proto) s = .next t ∧ t = { s with dic := t.dic, links := t.links, obs := t.obs }
      ∧ (linkOf t k).nego = 2 ∧ (linkOf t k).version = v' ∧ (linkOf t k).agreed = Nat.land (capsOf v') caps % 256
      ∧ ((linkOf s k).outLanes.any laneUp = true → Given t k (.capabilityAck (linkOf t k).agreed))
      ∧ (proto = Config.epochProto → (linkOf t k).causes = (linkOf s k).causes.erase 2 ∧ SameObjs s t [Obj.retryWindowStalls]
          ∧ t.obs = s.obs)
      ∧ (proto ≠ Config.epochProto → 2 ∈ (linkOf t k).causes ∧ SameObjs s t (Obj.retryWindowStalls :: journalObjs)
          ∧ Logged s t .epochProtoDiffers [k, (linkOf s k).peer, Config.epochProto, proto] false)
      ∧ (∀ i, i ≠ k → linkOf t i = linkOf s i) := by
  have hkl := links_lt hp hk
  have hrun : exec (.capability k v caps proto) s = .next (takeCapability s k v caps proto) := by
    refine (need_lt hk _).trans (congrArg (fun u => Host.Outcome.next (takeCapability u k v caps proto)) (if_neg ?_))
    rcases hn with h | h <;> simp [h]
  have hcauses := takeCapability_link (caps := caps) (proto := proto) Link.causes (fun _ _ _ _ _ => rfl) hkl hb hn hv
  have hagreed := takeCapability_link (caps := caps) (proto := proto) Link.agreed (fun _ _ _ _ _ => rfl) hkl hb hn hv
  have heq := takeCapability_eq (caps := caps) (proto := proto) hb hn hv
  have hself := capsHeard_self (v := v') (caps := caps) (proto := proto) hkl
  have hobs : (takeCapability s k v caps proto).obs = (capsHeard s k v' caps proto).obs := by
    rw [heq]
    exact sendCtl_obs _ _ _
  have hsent : SameObjs (capsHeard s k v' caps proto) (takeCapability s k v caps proto) [Obj.retryWindowStalls] := by
    rw [heq]
    exact sameObjs_sendCtl _ _ _
  refine ⟨_, hrun, takeCapability_frame s k v caps proto, takeCapability_link Link.nego (fun _ _ _ _ _ => rfl) hkl hb hn hv,
    takeCapability_link Link.version (fun _ _ _ _ _ => rfl) hkl hb hn hv, hagreed, fun hup => ?_, fun hd => ?_, fun hd => ?_,
    fun i hi => takeCapability_other hi hb hn⟩
  · rw [hagreed, heq, hself]
    refine given_sendCtl (by rw [length_capsHeard]; exact hkl) ⟨?_, ?_⟩
    · rw [hself]
      rfl
    · rw [hself, laneFor_isSome]
      obtain ⟨a, ha, hl⟩ := List.any_eq_true.mp hup
      exact ⟨a, ha, hl, by simp [bodyLane, ctlLane]⟩
  · obtain ⟨hdic, hsame⟩ := objs_capsHeard_same (s := s) (k := k) (v := v') (caps := caps) hd
    exact ⟨hcauses.trans (if_neg (by simp [hd])), ((SameObjs.refl s _).of_dic hdic).trans hsent, hobs.trans hsame⟩
  · obtain ⟨hobjs, hlog⟩ := objs_capsHeard_other (s := s) (k := k) (v := v') (caps := caps) hd
    refine ⟨?_, (hobjs.mono (List.subset_cons_self _ _)).trans (hsent.mono (List.cons_subset_cons _ (List.nil_subset _))),
      hlog.of_obs hobs⟩
    rw [hcauses, protoCauses, if_pos hd]
    split
    next h => exact List.contains_iff_mem.mp h
    next h => exact List.mem_append_right _ (List.mem_singleton_self 2)

end

/-! ### A peer that forms the link again (R243) -/

/-- The link of a peer that forms again: Dark, then negotiating anew. -/
def formedAgain (s : State) (k : Nat) (cs : List Nat) : State := negoDone (goDark s k 3) k cs

section
variable {s : State} {k v caps : Nat} {cs : List Nat}

theorem peerReforms_eq (hk : k < s.links.length) (hb : (linkOf s k).bound = true) (hi : (linkOf s k).inLanes ≠ [])
    (ho : (linkOf s k).outLanes ≠ []) : ∃ cs, peerReforms s k = formedAgain s k cs := by
  refine startNego_formed (s := goDark s k 3) (by rw [length_links_goDark]; exact hk) ?_ ?_ ?_
  · rw [linkOf_goDark_self s k 3 hk]
    exact hb
  · rw [linkOf_goDark_self s k 3 hk]
    exact fun h => ho (List.map_eq_nil_iff.mp h)
  · rw [linkOf_goDark_self s k 3 hk]
    exact fun h => hi (List.map_eq_nil_iff.mp h)

theorem formedAgain_link (hk : k < s.links.length) : linkOf (formedAgain s k cs) k =
    { causesBegun cs (capabilityGiven s.now (darkened s.now (linkOf s k))) with
      okSince := (linkOf (formedAgain s k cs) k).okSince, noneSince := (linkOf (formedAgain s k cs) k).noneSince } := by
  have h := negoDone_link (s := goDark s k 3) cs (by rw [length_links_goDark]; exact hk)
  rw [linkOf_goDark_self s k 3 hk, show (goDark s k 3).now = s.now from goDark_keeps State.now (fun _ _ => rfl) s k 3] at h
  exact h

theorem length_negoDone (s : State) (k : Nat) (cs : List Nat) : (negoDone s k cs).links.length = s.links.length :=
  (linkKept_noteTimes _ k).1.trans (length_negoSent s k cs)

theorem formedAgain_other {i : Nat} (h : i ≠ k) : linkOf (formedAgain s k cs) i = linkOf s i :=
  (negoDone_other (goDark s k 3) cs h).trans (linkOf_goDark_ne s k i 3 h)

/-- A link that has sent Capability alone has its window open. -/
theorem unacked_capabilityGiven (now : Nat) (l : Link) : (capabilityGiven now l).unacked.length ≤ 1 := by
  unfold capabilityGiven flitGiven
  split
  · exact Nat.zero_le 1
  · exact Nat.le_refl 1

/-- On a link with its window open a control flit never waits. -/
theorem sameObjs_sendCtl_open {c : Ctl} (hw : (linkOf s k).unacked.length < retryWindow (linkOf s k)) (hc : (linkOf s k).waitCtl = []) :
    SameObjs s (sendCtl s k c) [] := by
  unfold sendCtl
  dsimp only
  split
  · exact SameObjs.refl s _
  · rw [if_pos ⟨hw, hc⟩]
    exact (SameObjs.refl s _).of_dic rfl

theorem sameObjs_formedAgain (hk : k < 64) : SameObjs s (formedAgain s k cs)
    ([Obj.linkState + k, Obj.linkDarkEvents, Obj.drainDirty, Obj.resentFlits] ++ journalObjs)
    ∧ Counted s (formedAgain s k cs) Obj.linkDarkEvents 1 :=
  ⟨(sameObjs_goDark s k 3).trans ((sameObjs_negoDone (goDark s k 3) k cs).mono
      (List.cons_subset_cons _ (List.nil_subset _))),
    counted_trans (counted_goDark_linkDarkEvents s k 3 hk) (sameObjs_negoDone (goDark s k 3) k cs)
      (by simpa using linkState_key_ne hk (x := Obj.linkDarkEvents) (by decide))⟩

theorem capability_formed (hk : k < 64) (hp : PartsOk s) (hb : (linkOf s k).bound = true) (hn : (linkOf s k).nego = 3)
    (hi : (linkOf s k).inLanes ≠ []) (ho : (linkOf s k).outLanes ≠ []) :
    ∃ t, exec (.capability k v caps Config.epochProto) s = .next t
      ∧ t = { s with dic := t.dic, links := t.links, routerW := t.routerW, routerE := t.routerE, outst := t.outst, obs := t.obs }
      ∧ (linkOf t k).nego = 2 ∧ linkState t k = 3 ∧ (linkOf t k).rxNext = 0 ∧ (linkOf t k).rxHeld = []
      ∧ Counted s t Obj.linkDarkEvents 1 ∧ (∀ i, i ≠ k → linkOf t i = linkOf s i)
      ∧ SameObjs s t ([Obj.linkState + k, Obj.linkDarkEvents, Obj.drainDirty, Obj.resentFlits] ++ journalObjs) := by
  have hkl := links_lt hp hk
  obtain ⟨cs, hcs⟩ := peerReforms_eq hkl hb hi ho
  have hrun : exec (.capability k v caps Config.epochProto) s
      = .next (takeCapability (peerReforms s k) k v caps Config.epochProto) :=
    (need_lt hk _).trans (congrArg (fun u => Host.Outcome.next (takeCapability u k v caps Config.epochProto))
      (if_pos (by simp [hb, hn])))
  have hframe : takeCapability (peerReforms s k) k v caps Config.epochProto
      = foot6_3 s (takeCapability (peerReforms s k) k v caps Config.epochProto) := by
    have h1 := (takeCapability_keeps (foot6_3 · (takeCapability (peerReforms s k) k v caps Config.epochProto)) (fun _ _ => rfl)
      (peerReforms s k) k v caps Config.epochProto).trans
        (peerReforms_keeps (foot6_3 · (takeCapability (peerReforms s k) k v caps Config.epochProto)) (fun _ _ => rfl) s k)
    exact (foot6_3_self _).symm.trans h1
  rw [hcs] at hrun hframe
  have hlink := formedAgain_link (cs := cs) hkl
  obtain ⟨hobjs, hdark⟩ := sameObjs_formedAgain (s := s) (cs := cs) hk
  have hstate : linkState (formedAgain s k cs) k = 3 := linkState_negoDone (goDark s k 3) k cs
  have hother (i : Nat) (hi : i ≠ k) : linkOf (formedAgain s k cs) i = linkOf s i := formedAgain_other hi
  have hul : k < (formedAgain s k cs).links.length := by
    rw [formedAgain, length_negoDone, length_links_goDark]
    exact hkl
  generalize formedAgain s k cs = u at *
  have hub : (linkOf u k).bound = true := by
    rw [hlink, capabilityGiven_frame]
    exact hb
  have hun : (linkOf u k).nego = 1 ∨ (linkOf u k).nego = 2 := Or.inl (by rw [hlink, capabilityGiven_frame]; rfl)
  have hheard := capsHeard_self (v := if v = 1 then 1 else (linkOf u k).version) (caps := caps) (proto := Config.epochProto) hul
  have hkept : SameObjs u (takeCapability u k v caps Config.epochProto) [] := by
    rw [takeCapability_eq hub hun rfl]
    refine ((SameObjs.refl u _).of_dic (objs_capsHeard_same rfl).1).trans (sameObjs_sendCtl_open ?_ ?_)
    · have hlt := unacked_capabilityGiven s.now (darkened s.now (linkOf s k))
      have hpos := List.length_pos_iff.mpr (outLanes_capabilityGiven (now := s.now) (l := darkened s.now (linkOf s k))
        fun h => ho (List.map_eq_nil_iff.mp h))
      rw [hheard, hlink]
      show (capabilityGiven s.now (darkened s.now (linkOf s k))).unacked.length
        < 128 * (capabilityGiven s.now (darkened s.now (linkOf s k))).outLanes.length
      omega
    · rw [hheard, hlink, capabilityGiven_frame]
      rfl
  refine ⟨_, hrun, hframe, takeCapability_link Link.nego (fun _ _ _ _ _ => rfl) hul hub hun rfl,
    (hkept _ (List.not_mem_nil)).trans hstate, ?_, ?_, counted_trans hdark hkept (List.not_mem_nil),
    fun i hi => (takeCapability_other hi hub hun).trans (hother i hi), hobjs.trans (hkept.mono (List.nil_subset _))⟩
  · rw [takeCapability_link Link.rxNext (fun _ _ _ _ _ => rfl) hul hub hun rfl, hlink, capabilityGiven_frame]
    rfl
  · rw [takeCapability_link Link.rxHeld (fun _ _ _ _ _ => rfl) hul hub hun rfl, hlink, capabilityGiven_frame]
    rfl

theorem capability_unheard {proto : Nat} (hk : k < 64) (h : (linkOf s k).bound = false ∨ (linkOf s k).nego = 0) :
    exec (.capability k v caps proto) s = .next s := by
  refine (need_lt hk _).trans (congrArg Host.Outcome.next ?_)
  rw [if_neg (by rcases h with h | h <;> simp [h])]
  exact takeCapability_idle h

theorem capabilityAck_unheard {a : Nat} (hk : k < 64)
    (h : (linkOf s k).bound = false ∨ (linkOf s k).nego = 0 ∨ (linkOf s k).nego = 3) :
    exec (.capabilityAck k a) s = .next s := by
  refine (need_lt hk _).trans (congrArg Host.Outcome.next (if_pos ?_))
  rcases h with h | h | h <;> simp [h]

end

end Sys2Proof.Machine

/-!
CapabilityAck received: the end of a negotiation (R246).
-/

namespace Sys2Proof.Machine

/-! ### What flits, tellings and times leave of a link -/

/-- A link without its flits, what it has told its peer, and its times. -/
def fedLink (l : Link) : Link :=
  { l with
    outLanes := l.outLanes.map (fun (a : Lane) => { a with q := [], told := false })
    txSeq := 0, unacked := [], waitCtl := [], told := 0, okSince := none, noneSince := none }

/-- A state in which every link but k is as it was, and link k but for its flits, tellings and times. -/
def LinkFed (s t : State) (k : Nat) : Prop :=
  t.links.length = s.links.length ∧ fedLink (linkOf t k) = fedLink (linkOf s k) ∧ ∀ i, i ≠ k → linkOf t i = linkOf s i

theorem LinkFed.refl (s : State) (k : Nat) : LinkFed s s k := ⟨rfl, rfl, fun _ _ => rfl⟩

theorem LinkFed.trans {s t u : State} {k : Nat} (h : LinkFed s t k) (h' : LinkFed t u k) : LinkFed s u k := by
  obtain ⟨h1, h2, h3⟩ := h
  obtain ⟨h4, h5, h6⟩ := h'
  exact ⟨h4.trans h1, h5.trans h2, fun i hi => (h6 i hi).trans (h3 i hi)⟩

theorem linkFed_of_links {s t : State} (h : t.links = s.links) (k : Nat) : LinkFed s t k :=
  ⟨congrArg List.length h, congrArg fedLink (linkOf_congr h k), fun i _ => linkOf_congr h i⟩

theorem linkFed_updLink (s : State) (k : Nat) (f : Link → Link) (hf : fedLink (f (linkOf s k)) = fedLink (linkOf s k)) :
    LinkFed s (updLink s k f) k := by
  refine ⟨length_links_updLink s k f, ?_, fun i hi => linkOf_updLink_ne s k i f hi⟩
  by_cases hk : k < s.links.length
  · rw [linkOf_updLink_self s k f hk]
    exact hf
  · rw [linkOf_updLink_ge f (by omega)]

theorem fedLink_flitGiven (now : Nat) (b : FlitBody) (l : Link) : fedLink (flitGiven now b l) = fedLink l := by
  have hout (i seq : Nat) : (l.outLanes.map (fun (a : Lane) => if a.idx = i then { a with q := a.q ++ [seq] } else a)).map
      (fun (a : Lane) => { a with q := [], told := false }) = l.outLanes.map (fun (a : Lane) => { a with q := [], told := false }) := by
    rw [List.map_map]
    refine List.map_congr_left fun a _ => ?_
    rw [Function.comp]
    split <;> rfl
  unfold flitGiven
  split
  · rfl
  · unfold fedLink enqueue
    dsimp only
    rw [hout]

theorem fedLink_laneTold (i : Nat) (b : Bool) (l : Link) : fedLink (laneTold i b l) = fedLink l := by
  have hout : (l.outLanes.map (fun (a : Lane) => if a.idx = i then { a with told := b } else a)).map
      (fun (a : Lane) => { a with q := [], told := false }) = l.outLanes.map (fun (a : Lane) => { a with q := [], told := false }) := by
    rw [List.map_map]
    refine List.map_congr_left fun a _ => ?_
    rw [Function.comp]
    split <;> rfl
  unfold fedLink laneTold
  dsimp only
  rw [hout]

theorem linkFed_sendCtl (s : State) (k : Nat) (c : Ctl) : LinkFed s (sendCtl s k c) k := by
  simp only [sendCtl]
  split
  · exact LinkFed.refl s k
  · split
    · exact linkFed_updLink s k _ (fedLink_flitGiven _ _ _)
    · exact linkFed_updLink s k _ rfl

theorem linkFed_handBack (s : State) (k : Nat) (grey : Bool) : LinkFed s (handBack s k grey) k := by
  unfold handBack
  exact (linkFed_updLink s k _ rfl).trans (linkFed_of_links (links_reinject _ _ _ _) k)

theorem linkFed_goGrey (s : State) (k : Nat) : LinkFed s (goGrey s k) k := by
  unfold goGrey
  exact (linkFed_handBack s k true).trans (linkFed_of_links (journal_links _ _ _) k)

theorem linkFed_tellCause (s : State) (k : Nat) : LinkFed s (tellCause s k) k := by
  unfold tellCause
  dsimp only
  split
  · exact LinkFed.refl s k
  · exact (linkFed_updLink s k _ rfl).trans (linkFed_sendCtl _ k _)

theorem linkFed_tellJoin (s : State) (k i : Nat) : LinkFed s (tellJoin s k i) k := by
  rw [tellJoin_eq]
  split
  · exact (linkFed_updLink s k _ (fedLink_laneTold i true _)).trans (linkFed_sendCtl _ k _)
  · exact linkFed_updLink s k _ (fedLink_laneTold i false _)

theorem map_outLanes_of_fed {γ : Type} (f : Lane → γ) (hf : ∀ a : Lane, f { a with q := [], told := false } = f a) {l l' : Link}
    (h : fedLink l' = fedLink l) : l'.outLanes.map f = l.outLanes.map f := by
  have h1 : (l'.outLanes.map (fun (a : Lane) => { a with q := [], told := false })).map f
      = (l.outLanes.map (fun (a : Lane) => { a with q := [], told := false })).map f :=
    congrArg (fun (l : Link) => l.outLanes.map f) h
  rw [List.map_map, List.map_map, show (f ∘ fun (a : Lane) => { a with q := [], told := false }) = f from funext hf] at h1
  exact h1

theorem any_why_map (ls : List Lane) : ls.any (fun (x : Lane) => x.why == 2 || x.why == 3 || x.why == 4)
    = (ls.map Lane.why).any (fun w => w == 2 || w == 3 || w == 4) := by
  rw [List.any_map]
  rfl

theorem litState_of_fed {l l' : Link} (h : fedLink l' = fedLink l) : litState l' = litState l := by
  have hc : l'.causes = l.causes := (congrArg Link.causes h :)
  have hi : l'.inLanes = l.inLanes := (congrArg Link.inLanes h :)
  have ho := map_outLanes_of_fed Lane.why (fun _ => rfl) h
  unfold litState
  rw [hc, any_why_map, any_why_map, List.map_append, List.map_append, hi, ho]

/-! ### A lit link that settles -/

/-- LinkState of a link put as its lanes and causes say. -/
def litPut (s : State) (k : Nat) : State :=
  if litState (linkOf s k) = 2 ∧ linkState s k ≠ 2 then goGrey s k else objPut s (Obj.linkState + k) (litState (linkOf s k))

section
variable {s : State} {k : Nat}

theorem settleLink_lit (hb : (linkOf s k).bound = true) (ho : (linkOf s k).outLanes ≠ []) (hi : (linkOf s k).inLanes ≠ [])
    (hd : (linkOf s k).darkSince = none) (hn : (linkOf s k).nego = 3) (hm : atMinimum s (linkOf s k) = true) :
    settleLink s k = noteTimes (tellCause (litPut s k) k) k := by
  unfold settleLink
  dsimp only
  rw [if_neg (by simp [hb, ho, hi]), if_neg (by simp [hd]), if_neg (by simp [hn]), if_neg (by simp [hm])]
  rfl

theorem linkFed_litPut (s : State) (k : Nat) : LinkFed s (litPut s k) k := by
  unfold litPut
  split
  · exact linkFed_goGrey s k
  · exact linkFed_of_links rfl k

theorem linkState_goGrey (hk : k < 64) : linkState (goGrey s k) k = 2 := by
  unfold goGrey linkState
  rw [objGet_journal _ _ _ _ (linkState_key_ne hk (by decide)).symm (linkState_key_ne hk (by decide)).symm, objGet_objPut_self]

theorem linkState_litPut (hk : k < 64) : linkState (litPut s k) k = litState (linkOf s k) := by
  unfold litPut
  split
  next h => rw [linkState_goGrey hk, h.1]
  next => exact linkState_objPut s k _

/-- The objects that a lit link's settling may change. -/
def litObjs (k : Nat) : List Nat :=
  [Obj.linkState + k, Obj.drainDirty, Obj.resentFlits, Obj.retryWindowStalls] ++ journalObjs

theorem sameObjs_litPut (s : State) (k : Nat) : SameObjs s (litPut s k) (litObjs k) := by
  unfold litPut
  split
  · unfold goGrey
    refine SameObjs.journal (SameObjs.objPut ((sameCells_handBack s k true).objs.mono ?_) _ _ (List.mem_cons_self ..)) _ _
      (List.subset_append_right [Obj.linkState + k, Obj.drainDirty, Obj.resentFlits, Obj.retryWindowStalls] journalObjs)
    intro x hx
    simp only [backObjs, List.mem_cons, List.not_mem_nil, or_false] at hx
    refine List.mem_append_left journalObjs (List.mem_cons_of_mem _ ?_)
    rcases hx with rfl | rfl
    · exact List.mem_cons_self ..
    · exact List.mem_cons_of_mem _ (List.mem_cons_self ..)
  · exact (SameObjs.refl s _).objPut _ _ (List.mem_cons_self ..)

theorem stalls_sub_lit (k : Nat) : [Obj.retryWindowStalls] ⊆ litObjs k := by
  intro x hx
  simp only [List.mem_cons, List.not_mem_nil, or_false] at hx
  simp [litObjs, hx]

theorem linkState_of_stalls {t : State} (hk : k < 64) (h : SameObjs s t [Obj.retryWindowStalls]) : linkState t k = linkState s k :=
  h _ (by
    simp only [List.mem_cons, List.not_mem_nil, or_false, Obj.linkState, Obj.retryWindowStalls]
    omega)

/-! ### LaneJoin told of every lane -/

/-- The out-lanes of link k in service that LaneJoin has not told of are among those of given indices. -/
def UntoldIn (s : State) (k : Nat) (is : List Nat) : Prop :=
  ∀ a ∈ (linkOf s k).outLanes, a.why = 0 → a.told = false → a.idx ∈ is

theorem untoldIn_tellJoin {i : Nat} {is : List Nat} (hk : k < s.links.length) (hn : (linkOf s k).nego = 3)
    (h : UntoldIn s k (i :: is)) : UntoldIn (tellJoin s k i) k is := by
  have hself : linkOf (updLink s k (laneTold i true)) k = laneTold i true (linkOf s k) := linkOf_updLink_self s k _ hk
  have htold : ∀ a ∈ (linkOf (updLink s k (laneTold i true)) k).outLanes, a.why = 0 → a.told = false → a.idx ∈ is := by
    rw [hself]
    intro a ha hw ht
    obtain ⟨b, hb, rfl⟩ := List.mem_map.mp ha
    by_cases hi : b.idx = i
    · rw [if_pos hi] at ht
      cases ht
    · rw [if_neg hi] at hw ht ⊢
      exact (List.mem_cons.mp (h b hb hw ht)).resolve_left hi
  rw [tellJoin_eq, if_pos hn]
  exact (forall_outLanes_of_fixed (P := fun a => a.why = 0 → a.told = false → a.idx ∈ is) (fun _ => rfl)
    (linkKept_sendCtl _ k _).2.1).mpr htold

/-- What the fold of tellJoins leaves. -/
theorem foldl_tellJoin (ls : List Lane) (s : State) (hk : k < s.links.length) (hn : (linkOf s k).nego = 3)
    (h : UntoldIn s k (ls.map Lane.idx)) : UntoldIn (ls.foldl (fun s (a : Lane) => tellJoin s k a.idx) s) k []
      ∧ LinkFed s (ls.foldl (fun s (a : Lane) => tellJoin s k a.idx) s) k
      ∧ SameObjs s (ls.foldl (fun s (a : Lane) => tellJoin s k a.idx) s) [Obj.retryWindowStalls] := by
  induction ls generalizing s with
  | nil => exact ⟨h, LinkFed.refl s k, SameObjs.refl s _⟩
  | cons a ls ih =>
    have hfed := linkFed_tellJoin s k a.idx
    have hnego : (linkOf (tellJoin s k a.idx) k).nego = 3 := (congrArg Link.nego hfed.2.1 :).trans hn
    obtain ⟨h1, h2, h3⟩ := ih (tellJoin s k a.idx) (hfed.1 ▸ hk) hnego (untoldIn_tellJoin hk hn h)
    have hobj : SameObjs s (tellJoin s k a.idx) [Obj.retryWindowStalls] := by
      rw [tellJoin_eq, if_pos hn]
      exact SameObjs.trans ((SameObjs.refl s _).of_dic (u := updLink s k (laneTold a.idx true)) rfl) (sameObjs_sendCtl _ k _)
    exact ⟨h1, hfed.trans h2, hobj.trans h3⟩

theorem tellJoins_facts (hk : k < s.links.length) (hn : (linkOf s k).nego = 3) :
    (∀ l ∈ (linkOf (tellJoins s k) k).outLanes, l.why = 0 → l.told = true) ∧ LinkFed s (tellJoins s k) k
      ∧ SameObjs s (tellJoins s k) [Obj.retryWindowStalls] := by
  obtain ⟨h1, h2, h3⟩ := foldl_tellJoin ((linkOf s k).outLanes.filter (fun (a : Lane) => laneUp a && !a.told)) s hk hn
    fun a ha hw ht => List.mem_map_of_mem (List.mem_filter.mpr ⟨ha, by simp [laneUp, hw, ht]⟩)
  refine ⟨fun l hl hw => ?_, h2, h3⟩
  cases ht : l.told with
  | true => rfl
  | false => cases h1 l hl hw ht

/-! ### The negotiation's end -/

/-- A link that has heard its peer's acknowledgement. -/
def linkAgreed (a : Nat) (l : Link) : Link :=
  { l with agreed := Nat.land (if l.nego = 1 then capsOf l.version else l.agreed) a, nego := 3 }

theorem takeCapabilityAck_eq {a : Nat} (hb : (linkOf s k).bound = true) (hn : (linkOf s k).nego = 1 ∨ (linkOf s k).nego = 2) :
    takeCapabilityAck s k a = tellJoins (settleLink (updLink s k (linkAgreed a)) k) k :=
  if_neg (by rcases hn with h | h <;> simp [hb, h])

theorem capabilityAck_ends {a : Nat} (hk : k < 64) (hp : PartsOk s) (hb : (linkOf s k).bound = true)
    (hd : (linkOf s k).darkSince = none) (hn : (linkOf s k).nego = 1 ∨ (linkOf s k).nego = 2)
    (hm : atMinimum s (linkOf s k) = true) (hi : (linkOf s k).inLanes ≠ []) (ho : (linkOf s k).outLanes ≠ []) :
    ∃ t, exec (.capabilityAck k a) s = .next t
      ∧ t = { s with dic := t.dic, links := t.links, routerW := t.routerW, routerE := t.routerE, outst := t.outst, obs := t.obs }
      ∧ (linkOf t k).nego = 3 ∧ linkState t k = litState (linkOf t k)
      ∧ (linkOf t k).agreed = Nat.land (if (linkOf s k).nego = 1 then capsOf (linkOf s k).version else (linkOf s k).agreed) a
      ∧ (∀ l ∈ (linkOf t k).outLanes, l.why = 0 → l.told = true) ∧ (∀ i, i ≠ k → linkOf t i = linkOf s i)
      ∧ SameObjs s t ([Obj.linkState + k, Obj.drainDirty, Obj.resentFlits, Obj.retryWindowStalls] ++ journalObjs) := by
  have hkl := links_lt hp hk
  have hframe : takeCapabilityAck s k a = foot6_3 s (takeCapabilityAck s k a) :=
    (foot6_3_self _).symm.trans (takeCapabilityAck_keeps (foot6_3 · (takeCapabilityAck s k a)) (fun _ _ => rfl) s k a)
  have hrun : exec (.capabilityAck k a) s = .next (takeCapabilityAck s k a) := need_lt hk _
  have hself : linkOf (updLink s k (linkAgreed a)) k = linkAgreed a (linkOf s k) := linkOf_updLink_self s k _ hkl
  have hne (i : Nat) (h : i ≠ k) : linkOf (updLink s k (linkAgreed a)) i = linkOf s i := linkOf_updLink_ne s k i _ h
  have hlen : (updLink s k (linkAgreed a)).links.length = s.links.length := length_links_updLink s k _
  have hdic : SameObjs s (updLink s k (linkAgreed a)) (litObjs k) := (SameObjs.refl s _).of_dic rfl
  have hset : settleLink (updLink s k (linkAgreed a)) k
      = noteTimes (tellCause (litPut (updLink s k (linkAgreed a)) k) k) k := by
    refine settleLink_lit ?_ ?_ ?_ ?_ ?_ ?_
    · rw [hself]; exact hb
    · rw [hself]; exact ho
    · rw [hself]; exact hi
    · rw [hself]; exact hd
    · rw [hself]; rfl
    · rw [hself]; exact hm
  rw [takeCapabilityAck_eq hb hn, hset] at hrun hframe
  generalize updLink s k (linkAgreed a) = w at *
  have hfed : LinkFed w (noteTimes (tellCause (litPut w k) k) k) k :=
    ((linkFed_litPut w k).trans (linkFed_tellCause _ k)).trans (linkFed_updLink _ k _ rfl)
  have hobj : SameObjs s (noteTimes (tellCause (litPut w k) k) k) (litObjs k) :=
    ((hdic.trans (sameObjs_litPut w k)).trans ((sameCells_tellCause _ k).objs.mono (stalls_sub_lit k))).of_dic rfl
  have hstate : linkState (noteTimes (tellCause (litPut w k) k) k) k = litState (linkOf w k) :=
    (linkState_of_stalls hk (sameCells_tellCause (litPut w k) k).objs).trans (linkState_litPut hk)
  generalize noteTimes (tellCause (litPut w k) k) k = v at *
  have hnego : (linkOf v k).nego = 3 := (congrArg Link.nego hfed.2.1 :).trans (by rw [hself]; rfl)
  obtain ⟨htold, hfed', hobj'⟩ := tellJoins_facts (s := v) (hfed.1 ▸ hlen ▸ hkl) hnego
  obtain ⟨-, hlink, hother⟩ := hfed.trans hfed'
  refine ⟨_, hrun, hframe, (congrArg Link.nego hlink :).trans (by rw [hself]; rfl), ?_,
    (congrArg Link.agreed hlink :).trans (by rw [hself]; rfl), htold, fun i hi => (hother i hi).trans (hne i hi),
    hobj.trans (hobj'.mono (stalls_sub_lit k))⟩
  exact (linkState_of_stalls hk hobj').trans (hstate.trans (litState_of_fed hlink).symm)

end

end Sys2Proof.Machine

/-!
GreyNotice, the intended map, and quarantine: causes that hold links Grey (R247, R248); O26 settled.
-/

namespace Sys2Proof.Machine

/-! ### A cause held or lifted -/

/-- The causes of a link, one of them held or lifted. -/
def causesSet (c : Nat) (on : Bool) (cs : List Nat) : List Nat :=
  if cs.contains c = on then cs else if on then cs ++ [c] else cs.erase c

section
variable {s : State} {k c : Nat} {on : Bool}

theorem setCause_link {γ : Type} (g : Link → γ) (hg : ∀ l l' : Link, fixedLink l' = fixedLink l → g l' = g l) (hk : k < s.links.length) :
    g (linkOf (setCause s k c on) k) = g { linkOf s k with causes := causesSet c on (linkOf s k).causes } := by
  unfold setCause causesSet
  dsimp only
  by_cases h : (linkOf s k).causes.contains c = on
  · rw [if_pos h, if_pos h]
  · rw [if_neg h, if_neg h, hg _ _ (linkKept_settleLink _ k).2.1, linkOf_updLink_self s k _ hk]

theorem causes_setCause (hk : k < s.links.length) :
    (linkOf (setCause s k c on) k).causes = causesSet c on (linkOf s k).causes :=
  setCause_link Link.causes (fun _ _ h => (congrArg Link.causes h :)) hk

theorem linkOf_setCause_ne {i : Nat} (h : i ≠ k) : linkOf (setCause s k c on) i = linkOf s i := by
  unfold setCause
  dsimp only
  split
  · rfl
  · exact ((linkKept_settleLink _ k).2.2 i h).trans (linkOf_updLink_ne s k i _ h)

theorem length_setCause (s : State) (k c : Nat) (on : Bool) : (setCause s k c on).links.length = s.links.length := by
  unfold setCause
  dsimp only
  split
  · rfl
  · exact (linkKept_settleLink _ k).1.trans (length_links_updLink s k _)

theorem mem_causesSet_on (cs : List Nat) : c ∈ causesSet c true cs := by
  unfold causesSet
  split
  next h => exact List.contains_iff_mem.mp h
  next => exact List.mem_append_right _ (List.mem_singleton_self c)

theorem mem_causesSet_iff {cs : List Nat} (hn : cs.Nodup) : c ∈ causesSet c on cs ↔ on = true := by
  cases on with
  | true => exact iff_of_true (mem_causesSet_on cs) rfl
  | false =>
    refine iff_of_false (fun hm => ?_) Bool.false_ne_true
    unfold causesSet at hm
    split at hm
    next h => exact Bool.false_ne_true (h.symm.trans (List.contains_iff_mem.mpr hm))
    next h => exact hn.not_mem_erase hm

/-! ### GreyNotice -/

theorem greyNotice_holds (hk : k < 64) (hp : PartsOk s) (hb : (linkOf s k).bound = true) (hn : (linkOf s k).nego = 3) :
    ∃ t, exec (.greyNotice k c) s = .next t
      ∧ t = { s with dic := t.dic, links := t.links, routerW := t.routerW, routerE := t.routerE, outst := t.outst, obs := t.obs }
      ∧ (c = 0 → (linkOf t k).causes = (linkOf s k).causes.erase 5)
      ∧ (c ≠ 0 → (linkOf t k).causes = if (linkOf s k).causes.contains 5 then (linkOf s k).causes else (linkOf s k).causes ++ [5])
      ∧ (∀ i, i ≠ k → linkOf t i = linkOf s i)
      ∧ SameObjs s t ([Obj.linkState + k, Obj.linkDarkEvents, Obj.drainDirty, Obj.resentFlits, Obj.retryWindowStalls] ++ journalObjs) := by
  have hkl := links_lt hp hk
  have hrun : exec (.greyNotice k c) s = .next (setCause s k 5 (c != 0)) :=
    (need_lt hk _).trans (congrArg Host.Outcome.next (if_pos (by simp [hb, hn])))
  have hcauses := causes_setCause (c := 5) (on := c != 0) hkl
  refine ⟨_, hrun, (foot6_3_self _).symm.trans (setCause_keeps (foot6_3 · (setCause s k 5 (c != 0))) (fun _ _ => rfl) s k 5 _),
    fun h0 => hcauses.trans ?_, fun h0 => hcauses.trans ?_, fun i hi => linkOf_setCause_ne hi, (sameCells_setCause s k 5 _).objs⟩
  · rw [show (c != 0) = false by simp [h0]]
    unfold causesSet
    split
    next h => exact (List.erase_of_not_mem fun hm => Bool.false_ne_true (h.symm.trans (List.contains_iff_mem.mpr hm))).symm
    next => rfl
  · rw [show (c != 0) = true by simp [h0]]
    rfl

theorem greyNotice_unheard (hk : k < 64) (h : (linkOf s k).bound = false ∨ (linkOf s k).nego ≠ 3) :
    exec (.greyNotice k c) s = .next s :=
  (need_lt hk _).trans (congrArg Host.Outcome.next (if_neg (by rcases h with h | h <;> simp [h])))

end

/-! ### A cause held on every bound link as a condition says -/

/-- A cause of link k brought up to date, if the link is bound. -/
def causeChecked (c : Nat) (p : State → Nat → Bool) (s : State) (k : Nat) : State :=
  if (linkOf s k).bound then setCause s k c (p s k) else s

/-- What the check of a cause over links leaves of the state. -/
theorem causeChecked_keeps {γ : Type} (vw : State → γ) (hg : ∀ s t, vw (foot6_3 s t) = vw s) (c : Nat) (p : State → Nat → Bool)
    (s : State) (k : Nat) : vw (causeChecked c p s k) = vw s := by
  unfold causeChecked
  split
  · exact setCause_keeps vw hg s k c _
  · rfl

theorem linkOf_causeChecked_ne (c : Nat) (p : State → Nat → Bool) (s : State) {k i : Nat} (h : i ≠ k) :
    linkOf (causeChecked c p s k) i = linkOf s i := by
  unfold causeChecked
  split
  · exact linkOf_setCause_ne h
  · rfl

theorem length_causeChecked (c : Nat) (p : State → Nat → Bool) (s : State) (k : Nat) :
    (causeChecked c p s k).links.length = s.links.length := by
  unfold causeChecked
  split
  · exact length_setCause s k c _
  · rfl

theorem linkOf_foldl_causeChecked_notMem (c : Nat) (p : State → Nat → Bool) (ks : List Nat) (s : State) {i : Nat} (h : i ∉ ks) :
    linkOf (ks.foldl (causeChecked c p) s) i = linkOf s i := by
  induction ks generalizing s with
  | nil => rfl
  | cons k ks ih =>
    have hne : i ≠ k := fun he => h (he ▸ List.mem_cons_self ..)
    exact (ih _ fun hm => h (List.mem_cons_of_mem _ hm)).trans (linkOf_causeChecked_ne c p s hne)

/-- A checked link is checked once, while it is as it was, in a state that differs by other links only. -/
theorem linkOf_foldl_causeChecked (c : Nat) (p : State → Nat → Bool) (ks : List Nat) (s : State) {i : Nat} (hi : i ∈ ks)
    (hn : ks.Nodup) : ∃ u, linkOf u i = linkOf s i ∧ u = foot6_3 s u ∧ u.links.length = s.links.length
      ∧ linkOf (ks.foldl (causeChecked c p) s) i = linkOf (causeChecked c p u i) i := by
  induction ks generalizing s with
  | nil => cases hi
  | cons k ks ih =>
    obtain ⟨hk, hn⟩ := List.nodup_cons.mp hn
    by_cases he : i = k
    · subst he
      exact ⟨s, rfl, rfl, rfl, linkOf_foldl_causeChecked_notMem c p ks _ hk⟩
    · obtain ⟨u, h1, h2, h3, h4⟩ := ih (causeChecked c p s k) ((List.mem_cons.mp hi).resolve_left he) hn
      refine ⟨u, h1.trans (linkOf_causeChecked_ne c p s he), ?_, h3.trans (length_causeChecked c p s k), h4⟩
      rw [h2]
      exact causeChecked_keeps (foot6_3 · (foot6_3 (causeChecked c p s k) u)) (fun _ _ => rfl) c p s k

/-- A cause of every bound link brought up to date. -/
def checkedAll (c : Nat) (p : State → Nat → Bool) (s : State) : State := (List.range 64).foldl (causeChecked c p) s

theorem checkedAll_keeps {γ : Type} (vw : State → γ) (hg : ∀ s t, vw (foot6_3 s t) = vw s) (c : Nat) (p : State → Nat → Bool)
    (s : State) : vw (checkedAll c p s) = vw s := foldlState vw _ (fun s k => causeChecked_keeps vw hg c p s k) _ s

/-- A checked link of the 64: bound as it was, its causes set by the condition at its turn. -/
theorem checkedLink (c : Nat) (p : State → Nat → Bool) (s : State) {k : Nat} (hk : k < 64) (hl : 64 ≤ s.links.length)
    (hb : (linkOf (checkedAll c p s) k).bound = true) :
    ∃ u, linkOf u k = linkOf s k ∧ u = foot6_3 s u
      ∧ fixedLink (linkOf (checkedAll c p s) k)
        = fixedLink { linkOf s k with causes := causesSet c (p u k) (linkOf s k).causes } := by
  obtain ⟨u, h1, h2, h3, h4⟩ := linkOf_foldl_causeChecked c p (List.range 64) s (List.mem_range.mpr hk) List.nodup_range
  refine ⟨u, h1, h2, ?_⟩
  change (linkOf (List.foldl _ s _) k).bound = true at hb
  change fixedLink (linkOf (List.foldl _ s _) k) = _
  rw [h4] at hb ⊢
  by_cases hub : (linkOf u k).bound = true
  · rw [causeChecked, if_pos hub, setCause_link fixedLink (fun _ _ h => h) (by omega), h1]
  · rw [causeChecked, if_neg hub] at hb
    exact absurd hb hub

/-! ### The intended map (R247) -/

section
variable {s0 : State} {role : Role} {row : ObjRow}

theorem checkMap_eq (s : State) : checkMap s = checkedAll 1 linkDisagrees s := rfl

/-- An out-lane's line. -/
def laneLine (a : Lane) : Nat × Nat := (a.fibre, a.line)

theorem any_laneLine (ls : List Lane) (x j : Nat) : ls.any (fun (a : Lane) => a.fibre == x && a.line == j)
    = (ls.map laneLine).any (fun p => p.1 == x && p.2 == j) := by
  rw [List.any_map]
  rfl

/-- Whether a link disagrees depends on the map, the reports, its peer and its out-lanes' lines. -/
theorem linkDisagrees_congr {s t : State} {k : Nat} (hs : t.specMap = s.specMap) (hd : t.doms = s.doms)
    (hp : (linkOf t k).peer = (linkOf s k).peer) (ho : (linkOf t k).outLanes.map laneLine = (linkOf s k).outLanes.map laneLine) :
    linkDisagrees t k = linkDisagrees s k := by
  have hspec (x j : Nat) : specOf t x j = specOf s x j := by
    unfold specOf
    rw [hs]
  have hint (x j c n : Nat) : disagrees t x j c n = disagrees s x j c n := by
    unfold disagrees intended domGet
    rw [hd]
  unfold linkDisagrees
  simp only [hspec, hint, hp, any_laneLine, ho]

theorem checkMap_holds {s : State} {k : Nat} (hp : PartsOk s) (hk : k < 64) (hb : (linkOf (checkMap s) k).bound = true)
    (hd : linkDisagrees (checkMap s) k = true) : 1 ∈ (linkOf (checkMap s) k).causes := by
  rw [checkMap_eq] at hb hd ⊢
  have hspec := checkedAll_keeps State.specMap (fun _ _ => rfl) 1 linkDisagrees s
  have hdoms := checkedAll_keeps State.doms (fun _ _ => rfl) 1 linkDisagrees s
  obtain ⟨u, h1, h2, h3⟩ := checkedLink 1 linkDisagrees s hk (links_lt hp (by omega : 63 < 64)) hb
  generalize checkedAll 1 linkDisagrees s = t at *
  have hpeer : (linkOf t k).peer = (linkOf s k).peer := (congrArg Link.peer h3 :)
  have hout : (linkOf t k).outLanes.map laneLine = (linkOf s k).outLanes.map laneLine :=
    map_outLanes_of_fixed laneLine (fun _ => rfl) 
      (l := { linkOf s k with causes := causesSet 1 (linkDisagrees u k) (linkOf s k).causes }) h3
  have hu : linkDisagrees u k = true := by
    refine (linkDisagrees_congr (s := t) ?_ ?_ ((congrArg Link.peer h1).trans hpeer.symm) ?_).trans hd
    · rw [h2]
      exact hspec.symm
    · rw [h2]
      exact hdoms.symm
    · rw [h1]
      exact hout.symm
  have hc : (linkOf t k).causes = causesSet 1 (linkDisagrees u k) (linkOf s k).causes := (congrArg Link.causes h3 :)
  rw [hc, hu]
  exact mem_causesSet_on _

/-- What a commit of IntendedMap may change beside its image. -/
def mapFoot (s t : State) : State :=
  { s with out := t.out, dic := t.dic, doms := t.doms, links := t.links, routerW := t.routerW, routerE := t.routerE
           outst := t.outst, obs := t.obs }

theorem mapFoot_self (s : State) : mapFoot s s = s := rfl

theorem imageIn_partsOk {r : Route} {x : Xfer} (h : PartsOk s0) : PartsOk (imageIn s0 r role row x) :=
  (applyDom_keeps PartsOk (fun _ _ => rfl) _ _ _ _ _ _).mpr ((dropXfer_keeps PartsOk (fun _ _ => rfl) _ _).mpr h)

theorem intendedMapCommit_holds {r : Route} {handle : Nat} {digest : Bytes} {s : State} {x : Xfer}
    (h : CommitReady s r false Obj.intendedMap handle digest x role row s0) (hx : x.size = 2176) (hp : PartsOk s0) :
    ∃ u, exec (.intendedMapCommit r handle digest) s = .next (answered s r (heldKey s r) ⟨u, 0, []⟩)
      ∧ domGet u Obj.intendedMap = mapFields (xferImage x)
      ∧ (∀ k, k < 64 → (linkOf u k).bound = true → linkDisagrees u k = true → 1 ∈ (linkOf u k).causes)
      ∧ u = { imageIn s0 r role row x with
                out := u.out, dic := u.dic, doms := u.doms, links := u.links, routerW := u.routerW, routerE := u.routerE,
                outst := u.outst, obs := u.obs } := by
  have hrun : exec (.intendedMapCommit r handle digest) s = .next (answered s r (heldKey s r)
      ⟨applyIntended (domPut (imageIn s0 r role row x) Obj.intendedMap (mapFields (xferImage x))), 0, []⟩) :=
    congrArg Host.Outcome.next (commitRow_taken s r false _ handle digest x role row s0 _ _ _ _ h (by simp [hx]) rfl)
  have hpi := imageIn_partsOk (role := role) (row := row) (r := r) (x := x) hp
  generalize imageIn s0 r role row x = a at *
  generalize hw : domPut a Obj.intendedMap (mapFields (xferImage x)) = w at *
  have hwp : PartsOk w := hw ▸ hpi
  refine ⟨_, hrun, ?_, fun k hk hb hd => ?_, ?_⟩
  · have hdoms := applyIntended_keeps State.doms (fun _ _ => rfl) w
    unfold domGet smGetD
    rw [hdoms, ← hw, domPut, smGet_smSet_self, Option.getD_some]
  · exact checkMap_holds ((journalMismatches_keeps PartsOk (fun _ _ => rfl) w _).mpr hwp) hk hb hd
  · have h1 := applyIntended_keeps (mapFoot · (applyIntended w)) (fun _ _ => rfl) w
    rw [← hw] at h1
    exact (mapFoot_self _).symm.trans (hw ▸ h1)

/-! ### Quarantine (R248) -/

theorem applyQuarantine_eq (s : State) (n : Nat) :
    applyQuarantine s n = checkedAll 3 (fun _ k => natBit k n) s := rfl

/-- What a write of LinkQuarantine may change beside its object. -/
def quarantineFoot (s t : State) : State :=
  { s with out := t.out, dic := t.dic, links := t.links, routerW := t.routerW, routerE := t.routerE, outst := t.outst, obs := t.obs }

theorem quarantineFoot_self (s : State) : quarantineFoot s s = s := rfl

theorem sameObjs_applyQuarantine (s : State) (n : Nat) : SameObjs s (applyQuarantine s n) linkObjs :=
  ((SameCells.refl s _).foldl _ _ (fun u k hk => by
    split
    · exact (sameCells_setCause u k 3 _).mono (settleObjs_sub_link (List.mem_range.mp hk))
    · exact SameCells.refl _ _)).objs

theorem linkQuarantineWrite_holds {r : Route} {v : Bytes} {s : State}
    (h : WriteReady s r false Obj.linkQuarantine v role row s0) (hp : PartsOk s0)
    (hn : ∀ k, k < 64 → (linkOf s0 k).causes.Nodup) :
    ∃ u, exec (.linkQuarantineWrite r v) s = .next (answered s r Obj.linkQuarantine ⟨u, 0, []⟩)
      ∧ objGet u Obj.linkQuarantine = leNat v
      ∧ (∀ k, k < 64 → (linkOf u k).bound = true → (3 ∈ (linkOf u k).causes ↔ natBit k (leNat v) = true))
      ∧ u = { applyNum s0 r role row Obj.linkQuarantine (leNat v) with
                out := u.out, dic := u.dic, links := u.links, routerW := u.routerW, routerE := u.routerE, outst := u.outst,
                obs := u.obs } := by
  have hrun : exec (.linkQuarantineWrite r v) s = .next (answered s r Obj.linkQuarantine
      ⟨applyQuarantine (applyNum s0 r role row Obj.linkQuarantine (leNat v)) (leNat v), 0, []⟩) :=
    congrArg Host.Outcome.next ((writeRow_ready s r _ v false role row s0 noRule applyQuarantine h).trans
      (congrArg (answered s r Obj.linkQuarantine) (ownAnswer_taken _ _ _ _ _ _ _ _ rfl)))
  have hval := objGet_applyNum_self s0 r role row Obj.linkQuarantine (leNat v) (row_stands (by decide) (numCheck_row h.2)) (by decide)
  have hlinks : (applyNum s0 r role row Obj.linkQuarantine (leNat v)).links = s0.links :=
    applyNum_keeps State.links (fun _ _ => rfl) s0 r role row _ _
  generalize applyNum s0 r role row Obj.linkQuarantine (leNat v) = a at *
  generalize leNat v = n at *
  have hobjs := sameObjs_applyQuarantine a n
  have hlen : 64 ≤ a.links.length := by
    rw [hlinks]
    exact links_lt hp (by omega : 63 < 64)
  have hframe := checkedAll_keeps (quarantineFoot · (applyQuarantine a n)) (fun _ _ => rfl) 3 (fun _ k => natBit k n) a
  rw [← applyQuarantine_eq] at hframe
  refine ⟨_, hrun, (hobjs _ (not_mem_linkObjs (by decide))).trans hval, fun k hk hb => ?_, (quarantineFoot_self _).symm.trans hframe⟩
  rw [applyQuarantine_eq] at hb ⊢
  obtain ⟨u, -, -, h3⟩ := checkedLink 3 (fun _ k => natBit k n) a hk hlen hb
  generalize checkedAll 3 (fun _ k => natBit k n) a = t at *
  have hc : (linkOf t k).causes = causesSet 3 (natBit k n) (linkOf a k).causes := (congrArg Link.causes h3 :)
  rw [hc]
  refine mem_causesSet_iff ?_
  rw [linkOf_congr hlinks]
  exact hn k hk

end

/-- Settles O26: a negotiation ends as its flits say, and each cause is held by the fold over the bound links. -/
theorem noticesAndMapsHoldLinksGrey : Obligations.NoticesAndMapsHoldLinksGrey := by
  unfold Obligations.NoticesAndMapsHoldLinksGrey
  exact ⟨fun k v caps proto v' s hk hp hb hn hv => capability_negotiating hk hp hb hn hv,
    fun k v caps s hk hp hb hn hi ho => capability_formed hk hp hb hn hi ho,
    fun k v caps proto a s hk => ⟨fun h => capability_unheard hk h, fun h => capabilityAck_unheard hk h⟩,
    fun k a s hk hp hb hd hn hm hi ho => capabilityAck_ends hk hp hb hd hn hm hi ho,
    fun k c s hk hp hb hn => greyNotice_holds hk hp hb hn,
    fun k c s hk h => greyNotice_unheard hk h,
    fun r handle digest s x role row s0 h hx hp => intendedMapCommit_holds h hx hp,
    fun r v s role row s0 h hp hn => linkQuarantineWrite_holds h hp hn⟩

end Sys2Proof.Machine

/-!
Lanes moved: Propose, Accept and RotorAbort received (R216, R217, R220).
-/

namespace Sys2Proof.Machine

section
variable {s : State} {k i j : Nat} {lane : Lane}

/-! ### Propose (Table OPT-6 step 5) -/

/-- An in-lane of index i that is to move to line j. -/
def moveAccepted (s : State) (k i j : Nat) : State := updLane s k false i (fun l => { l with moveTo := some j })

theorem takePropose_taken (h : laneBy s k false i = some lane) (hw : lane.why = 0) (hb : natBit 5 (linkOf s k).agreed = true)
    (hj : j < 17) : takePropose s k i j true = sendCtl (moveAccepted s k i j) k (.accept i) := by
  unfold takePropose
  rw [h]
  exact if_pos (by simp [hw, hb, hj])

theorem propose_taken (hk : k < 64) (hp : PartsOk s) (h : laneBy s k false i = some lane) (hw : lane.why = 0)
    (hb : natBit 5 (linkOf s k).agreed = true) (hj : j < 17) :
    ∃ t, exec (.propose k i j true) s = .next t ∧ t = { s with dic := t.dic, links := t.links }
      ∧ (CanSend s k (.accept i) → Given t k (.accept i)) ∧ (∀ l ∈ (linkOf t k).inLanes, l.idx = i → l.moveTo = some j)
      ∧ SameObjs s t [Obj.retryWindowStalls] ∧ ∀ n, n ≠ k → linkOf t n = linkOf s n := by
  have hkl := links_lt hp hk
  have hrun : exec (.propose k i j true) s = .next (sendCtl (moveAccepted s k i j) k (.accept i)) :=
    (need_lt hk _).trans (congrArg Host.Outcome.next (takePropose_taken h hw hb hj))
  have hself : linkOf (moveAccepted s k i j) k = _ := linkOf_updLink_self s k _ hkl
  have hne (n : Nat) (hn : n ≠ k) : linkOf (moveAccepted s k i j) n = linkOf s n := linkOf_updLink_ne s k n _ hn
  have hlen : (moveAccepted s k i j).links.length = s.links.length := length_links_updLink s k _
  refine ⟨_, hrun, sendCtl_keeps (footDicLinks · (sendCtl (moveAccepted s k i j) k (.accept i))) (fun _ _ => rfl) _ k _,
    fun hc => given_sendCtl (hlen ▸ hkl) (canSend_congr (by rw [hself]; rfl) (by rw [hself]; rfl) hc), fun l hl hi => ?_,
    SameObjs.trans ((SameObjs.refl s _).of_dic (u := moveAccepted s k i j) rfl) (sameObjs_sendCtl _ k _),
    fun n hn => (linkOf_sendCtl_ne _ k n _ hn).trans (hne n hn)⟩
  rw [inLanes_sendCtl, hself] at hl
  obtain ⟨a, -, rfl⟩ := List.mem_map.mp hl
  by_cases ha : a.idx = i
  · rw [if_pos ha]
  · rw [if_neg ha] at hi
    exact absurd hi ha

theorem propose_unanswered {ok : Bool} (hk : k < 64) (h : ok = false ∨ natBit 5 (linkOf s k).agreed = false ∨ 17 ≤ j
      ∨ ∀ lane, laneBy s k false i = some lane → lane.why ≠ 0) : exec (.propose k i j ok) s = .next s := by
  refine (need_lt hk _).trans (congrArg Host.Outcome.next ?_)
  unfold takePropose
  split
  next lane hl =>
    refine if_neg fun hc => ?_
    simp only [Bool.and_eq_true, beq_iff_eq, decide_eq_true_eq] at hc
    obtain ⟨⟨⟨hok, hw⟩, hb⟩, hj⟩ := hc
    rcases h with h | h | h | h
    · exact absurd hok (by simp [h])
    · exact absurd hb (by simp [h])
    · omega
    · exact h lane hl hw
  next => rfl

/-! ### Accept (Table OPT-6 step 6) -/

theorem emits_out (s : State) (f : Nat → Out) (js : List Nat) :
    (js.foldl (fun s j => emit s (f j)) s).out = s.out ++ js.map f := by
  induction js generalizing s with
  | nil => exact (List.append_nil _).symm
  | cons j js ih =>
    rw [List.foldl_cons, ih]
    exact List.append_assoc s.out [f j] (js.map f)

/-- The out-lanes of a link that a flit has left on one of its lanes, but for that lane's queue, and the other links. -/
theorem slotFlit_lanes {γ : Type} (f : Lane → γ) (hf : ∀ (a : Lane) q, f { a with q := q } = f a) (a : Lane) (js : List Nat)
    (sw ph : Bool) (hk : k < s.links.length) :
    (linkOf (slotFlit s k a js sw ph) k).outLanes.map f = (linkOf s k).outLanes.map f
      ∧ (slotFlit s k a js sw ph).links.length = s.links.length
      ∧ ∀ n, n ≠ k → linkOf (slotFlit s k a js sw ph) n = linkOf s n := by
  unfold slotFlit
  dsimp only
  generalize hw : List.foldl _ s js = w
  have hlinks : w.links = s.links := by
    rw [← hw]
    exact foldlState State.links _ (fun u j => emit_keeps State.links (fun _ _ => rfl) u _) js s
  refine ⟨?_, by rw [length_links_updLink, hlinks], fun n hn => (linkOf_updLink_ne w k n _ hn).trans (linkOf_congr hlinks n)⟩
  rw [linkOf_updLink_self w k _ (hlinks ▸ hk), linkOf_congr hlinks]
  dsimp only
  rw [List.map_map]
  refine List.map_congr_left fun x _ => ?_
  rw [Function.comp]
  split
  · exact hf x _
  · rfl

theorem slotFlit_out (a : Lane) (js : List Nat) (sw ph : Bool) : ∃ w1, (slotFlit s k a js sw ph).out = s.out ++ js.map (fun j =>
    Out.flit a.fibre j (headWord0 (kindOf (nextFlit (linkOf s k) a).2) sw ph (tagOf k a j) (nextFlit (linkOf s k) a).1) w1
      (ctlCode (nextFlit (linkOf s k) a).2) (nextFlit (linkOf s k) a).2) :=
  ⟨_, emits_out s _ js⟩

/-- The lane moved to line g, with the other Phase. -/
def laneMoved (g : Nat) (l : Lane) : Lane := { l with line := g, phase := !l.phase }

/-- The map's lines of a move of lane i of link k: the old one to turn grey, the new one lit. -/
def linesMoved (s : State) (x k i old g : Nat) : State :=
  updSpec (updSpec s x old (fun e => { e with lineState := 2, link := 0, lane := 0 })) x g
    (fun e => { e with lineState := 1, link := k, lane := i })

theorem linesMoved_keeps {γ : Type} (vw : State → γ) (hg : ∀ s t, vw (footSpecMap s t) = vw s) (s : State) (x k i old g : Nat) :
    vw (linesMoved s x k i old g) = vw s :=
  (updSpec_keeps vw hg _ x g _).trans (updSpec_keeps vw hg s x old _)

/-- A rotor whose step has ended. -/
def stepMoved (r : Rotor) : Rotor := { r with phase := 0, lane := none, aborts := 0 }

/-- The state a lane's move leaves. -/
def laneAccepted (s : State) (x k i : Nat) (lane : Lane) (g : Nat) : State :=
  updRotor (linesMoved (updLane (slotFlit s k lane [lane.line, g] true (!lane.phase)) k true i (laneMoved g)) x k i lane.line g) x
    stepMoved

theorem takeAccept_eq {x : Nat} (hx : acceptFibre s k i = some x) (h : laneBy s k true i = some lane) :
    takeAccept s k i = if lane.why ≠ 0 then s else laneAccepted s x k i lane (rotorOf s x).grey := by
  unfold takeAccept
  rw [hx, h]
  rfl

theorem acceptFibre_lt {x : Nat} (h : acceptFibre s k i = some x) : x < 32 := List.mem_range.mp (List.mem_of_find?_eq_some h)

theorem laneBy_out_mem (h : laneBy s k true i = some lane) : lane ∈ (linkOf s k).outLanes := List.mem_of_find?_eq_some h

/-- Of a moved line: what its entry holds, in the map after both entries are written. -/
theorem specOf_linesMoved {x old g : Nat} (hx : x < 32) (hg : g < 17) (ho : old < 17) (hp : PartsOk s) :
    (specOf (linesMoved s x k i old g) x g).lineState = 1 ∧ (specOf (linesMoved s x k i old g) x g).link = k
      ∧ (old ≠ g → (specOf (linesMoved s x k i old g) x old).lineState = 2) := by
  have hnew := specOf_updSpec_self (s := updSpec s x old (fun e => { e with lineState := 2, link := 0, lane := 0 }))
    (fun e => { e with lineState := 1, link := k, lane := i })
    (spec_lt (updSpec_partsOk s x old (fun e => { e with lineState := 2, link := 0, lane := 0 }) hp) hx hg)
  refine ⟨congrArg MapEntry.lineState hnew, congrArg MapEntry.link hnew, fun hne => ?_⟩
  have hold := specOf_updSpec_ne (updSpec s x old (fun e => { e with lineState := 2, link := 0, lane := 0 }))
    (fun e => { e with lineState := 1, link := k, lane := i }) hg ho (x := x) (y := x) (fun h => hne (Prod.mk.inj h).2)
  exact congrArg MapEntry.lineState (hold.trans
    (specOf_updSpec_self (fun e => { e with lineState := 2, link := 0, lane := 0 }) (spec_lt hp hx ho)))

/-- An out-lane's index and Phase. -/
def idxPhase (a : Lane) : Nat × Bool := (a.idx, a.phase)

theorem foot4_29_self (s : State) : foot4_29 s s = s := rfl

theorem laneAccepted_frame (s : State) (x k i : Nat) (lane : Lane) (g : Nat) :
    laneAccepted s x k i lane g = foot4_29 s (laneAccepted s x k i lane g) :=
  (foot4_29_self _).symm.trans ((updRotor_keeps (foot4_29 · (laneAccepted s x k i lane g)) (fun _ _ => rfl) _ x stepMoved).trans
    ((linesMoved_keeps (foot4_29 · (laneAccepted s x k i lane g)) (fun _ _ => rfl) _ x k i lane.line g).trans
      ((updLane_keeps (foot4_29 · (laneAccepted s x k i lane g)) (fun _ _ => rfl) _ k true i (laneMoved g)).trans
        (slotFlit_keeps (foot4_29 · (laneAccepted s x k i lane g)) (fun _ _ => rfl) s k lane [lane.line, g] true (!lane.phase)))))

theorem accept_holds {x : Nat} (hk : k < 64) (hp : PartsOk s) (hf : acceptFibre s k i = some x) (h : laneBy s k true i = some lane)
    (hg : (rotorOf s x).grey < 17) (hl : lane.line < 17) :
    (lane.why ≠ 0 → exec (.accept k i) s = .next s)
    ∧ (lane.why = 0 →
      ∃ t f w1, exec (.accept k i) s = .next t ∧ t = { s with out := t.out, rotors := t.rotors, specMap := t.specMap, links := t.links }
        ∧ f = nextFlit (linkOf s k) lane
        ∧ t.out = s.out ++ [lane.line, (rotorOf s x).grey].map (fun j =>
            Out.flit lane.fibre j (headWord0 (kindOf f.2) true (!lane.phase) (tagOf k lane j) f.1) w1 (ctlCode f.2) f.2)
        ∧ rotorOf t x = { rotorOf s x with phase := 0, lane := none, aborts := 0 }
        ∧ (∃ l ∈ (linkOf t k).outLanes, l.idx = i ∧ l.line = (rotorOf s x).grey ∧ l.phase = !lane.phase)
        ∧ (specOf t x (rotorOf s x).grey).lineState = 1 ∧ (specOf t x (rotorOf s x).grey).link = k
        ∧ (lane.line ≠ (rotorOf s x).grey → (specOf t x lane.line).lineState = 2)
        ∧ (∀ y, y ≠ x → rotorOf t y = rotorOf s y) ∧ (∀ n, n ≠ k → linkOf t n = linkOf s n)) := by
  have hkl := links_lt hp hk
  have hx := acceptFibre_lt hf
  have hrun : exec (.accept k i) s = .next (if lane.why ≠ 0 then s else laneAccepted s x k i lane (rotorOf s x).grey) :=
    (need_lt hk _).trans (congrArg Host.Outcome.next (takeAccept_eq hf h))
  generalize (rotorOf s x).grey = g at *
  refine ⟨fun hw => hrun.trans (congrArg Host.Outcome.next (if_pos hw)), fun hw => ?_⟩
  rw [if_neg (by simp [hw])] at hrun
  have hframe := laneAccepted_frame s x k i lane g
  obtain ⟨w1, hout⟩ := slotFlit_out (s := s) (k := k) lane [lane.line, g] true (!lane.phase)
  obtain ⟨hlanes, hlen, hother⟩ := slotFlit_lanes idxPhase (fun _ _ => rfl) lane [lane.line, g] true (!lane.phase) hkl
  have hrotors := slotFlit_keeps State.rotors (fun _ _ => rfl) s k lane [lane.line, g] true (!lane.phase)
  have hsp : PartsOk (slotFlit s k lane [lane.line, g] true (!lane.phase)) := slotFlit_partsOk _ _ _ _ _ _ hp
  unfold laneAccepted at hrun hframe
  generalize slotFlit s k lane [lane.line, g] true (!lane.phase) = w at *
  have hself : linkOf (updLane w k true i (laneMoved g)) k = _ := linkOf_updLink_self w k _ (hlen ▸ hkl)
  have hne (n : Nat) (hn : n ≠ k) : linkOf (updLane w k true i (laneMoved g)) n = linkOf s n :=
    (linkOf_updLink_ne w k n _ hn).trans (hother n hn)
  obtain ⟨a, ha, hap⟩ := List.mem_map.mp (hlanes ▸ List.mem_map_of_mem (f := idxPhase) (laneBy_out_mem h))
  obtain ⟨hai, hph⟩ := Prod.mk.inj hap
  have hmem : laneMoved g a ∈ (linkOf (updLane w k true i (laneMoved g)) k).outLanes := by
    rw [hself]
    exact List.mem_map.mpr ⟨a, ha, if_pos (hai.trans (laneBy_idx h))⟩
  have hup : PartsOk (updLane w k true i (laneMoved g)) := updLane_partsOk w k true i _ hsp
  have hurot : (updLane w k true i (laneMoved g)).rotors = s.rotors := hrotors
  have huout : (updLane w k true i (laneMoved g)).out = s.out ++ _ := hout
  generalize updLane w k true i (laneMoved g) = u at *
  obtain ⟨hs1, hs2, hs3⟩ := specOf_linesMoved (s := u) (k := k) (i := i) hx hg hl hup
  have hvp : PartsOk (linesMoved u x k i lane.line g) :=
    updSpec_partsOk _ x g _ (updSpec_partsOk u x lane.line _ hup)
  have hvrot : (linesMoved u x k i lane.line g).rotors = s.rotors := hurot
  have hvout : (linesMoved u x k i lane.line g).out = _ := huout
  have hvlinks : (linesMoved u x k i lane.line g).links = u.links := rfl
  generalize linesMoved u x k i lane.line g = v at *
  refine ⟨updRotor v x stepMoved, nextFlit (linkOf s k) lane, w1, hrun, hframe, rfl, hvout,
    (rotorOf_updRotor_self stepMoved (rotors_lt hvp hx)).trans (congrArg stepMoved (rotorOf_congr hvrot x)),
    ⟨laneMoved g a, ?_, hai.trans (laneBy_idx h), rfl, congrArg (! ·) hph⟩, hs1, hs2, hs3,
    fun y hy => (rotorOf_updRotor_ne v stepMoved hy).trans (rotorOf_congr hvrot y),
    fun n hn => (linkOf_congr hvlinks n).trans (hne n hn)⟩
  show laneMoved g a ∈ (linkOf v k).outLanes
  rw [linkOf_congr hvlinks]
  exact hmem

theorem accept_unawaited (hk : k < 64) (h : acceptFibre s k i = none) : exec (.accept k i) s = .next s := by
  refine (need_lt hk _).trans (congrArg Host.Outcome.next ?_)
  unfold takeAccept
  rw [h]

/-! ### RotorAbort (R217) -/

theorem abortRotor_other (s : State) {x y : Nat} (h : y ≠ x) : rotorOf (abortRotor s x) y = rotorOf s y := by
  have hne : rotorOf (objInc (updRotor s x (stepAborted ((rotorOf s x).aborts + 1))) Obj.rotorAborts) y = rotorOf s y :=
    rotorOf_updRotor_ne s _ h
  rw [abortRotor_eq]
  split
  · exact (rotorOf_congr (journal_keeps State.rotors (fun _ _ => rfl) _ _ _) y).trans hne
  · exact hne

theorem rotorAbort_holds (hk : k < 64) (hp : PartsOk s) :
    (∃ t, exec (.rotorAbort k { own := true, idx := i }) s = .next t ∧ t = { s with links := t.links }
      ∧ (linkOf t k).inLanes = (linkOf s k).inLanes.map (fun (l : Lane) => if l.idx = i then { l with moveTo := none } else l)
      ∧ linkOf t k = { linkOf s k with inLanes := (linkOf t k).inLanes } ∧ ∀ n, n ≠ k → linkOf t n = linkOf s n)
    ∧ (∀ x, acceptFibre s k i = some x →
      ∃ t, exec (.rotorAbort k { own := false, idx := i }) s = .next t ∧ t = { s with dic := t.dic, rotors := t.rotors, obs := t.obs }
        ∧ (rotorOf t x).phase = 0 ∧ (rotorOf t x).lane = none ∧ (rotorOf t x).grey = (rotorOf s x).grey
        ∧ (rotorOf t x).aborts = (rotorOf s x).aborts + 1 ∧ (∀ y, y ≠ x → rotorOf t y = rotorOf s y) ∧ Counted s t Obj.rotorAborts 1
        ∧ SameObjs s t (Obj.rotorAborts :: journalObjs))
    ∧ (acceptFibre s k i = none → exec (.rotorAbort k { own := false, idx := i }) s = .next s) := by
  have hself : linkOf (updLane s k false i (fun l => { l with moveTo := none })) k = _ := linkOf_updLink_self s k _ (links_lt hp hk)
  have hpeer (u : State) (hu : (match acceptFibre s k i with
      | some x => abortRotor s x
      | none => s) = u) : exec (.rotorAbort k { own := false, idx := i }) s = .next u :=
    (need_lt hk _).trans (congrArg Host.Outcome.next ((if_neg Bool.false_ne_true).trans hu))
  refine ⟨⟨_, (need_lt hk _).trans (congrArg Host.Outcome.next (if_pos rfl)), rfl, ?_, ?_, fun n hn => linkOf_updLink_ne s k n _ hn⟩,
    fun x hx => ?_, fun hn => hpeer s (by rw [hn])⟩
  · rw [hself]
    rfl
  · rw [hself]
    rfl
  · have hrot := abortRotor_rotor s (rotors_lt hp (acceptFibre_lt hx))
    refine ⟨abortRotor s x, hpeer _ (by rw [hx]), abortRotor_keeps (footDicRotorsObs · (abortRotor s x)) (fun _ _ => rfl) s x,
      congrArg Rotor.phase hrot, congrArg Rotor.lane hrot, (congrArg Rotor.grey hrot :), congrArg Rotor.aborts hrot,
      fun y hy => abortRotor_other s hy, counted_abortRotor s x, sameObjs_abortRotor s x⟩

end

end Sys2Proof.Machine

/-!
Lanes down, joined and left (R222, R236, Table LNK-2); O27 settled.
-/

namespace Sys2Proof.Machine

section
variable {s : State} {k i q : Nat} {lane : Lane}

/-! ### LaneDown -/

/-- The rotor's step that was moving an out-lane reported down, aborted. -/
def moveDropped (s : State) (k i : Nat) (o : Bool) (lane : Lane) : State :=
  if o && (rotorOf s lane.fibre).lane == some (k, i) then abortRotor s lane.fibre else s

theorem moveDropped_keeps {γ : Type} (vw : State → γ) (hg : ∀ s t, vw (footDicRotorsObs s t) = vw s) (s : State) (k i : Nat) (o : Bool)
    (lane : Lane) : vw (moveDropped s k i o lane) = vw s := by
  unfold moveDropped
  split
  · exact abortRotor_keeps vw hg s _
  · rfl

theorem sameObjs_moveDropped (s : State) (k i : Nat) (o : Bool) (lane : Lane) :
    SameObjs s (moveDropped s k i o lane) (Obj.rotorAborts :: journalObjs) := by
  unfold moveDropped
  split
  · exact sameObjs_abortRotor s _
  · exact SameObjs.refl s _

/-- A reported lane out of service. -/
def downMarked (s : State) (k : Nat) (o : Bool) (lane : Lane) (why : Nat) : State :=
  settleLink (laneMarked s k o lane why false) k

theorem takeDown_eq {r : LaneRef} {c why : Nat} (h : laneBy s k (!r.own) r.idx = some lane)
    (hy : why = if c = 3 ∨ c = 4 then c else 2) (hw : lane.why = 0) : takeDown s k r c =
      if why = 2 then startRecovery (downMarked (moveDropped s k r.idx (!r.own) lane) k (!r.own) lane why)
        (laneRing (!r.own) lane) k (!r.own) r.idx false
      else downMarked (moveDropped s k r.idx (!r.own) lane) k (!r.own) lane why := by
  subst hy
  have hout (u : State) (w : Nat) : laneOut u k (!r.own) lane w false = downMarked u k (!r.own) lane w :=
    (laneOut_eq u k (!r.own) lane w false).trans (if_neg (by simp [hw]))
  unfold takeDown
  dsimp only
  rw [h]
  dsimp only
  rw [if_neg (by simp [laneUp, hw]), hout]
  rfl

/-- Marking a lane sets it, and no other link. -/
theorem laneMarked_silent {o : Bool} {why : Nat} (hk : k < s.links.length) :
    (∀ l ∈ (if o then (linkOf (laneMarked s k o lane why false) k).outLanes
        else (linkOf (laneMarked s k o lane why false) k).inLanes), l.idx = lane.idx → l.why = why ∧ l.ready = false)
    ∧ ∀ n, n ≠ k → linkOf (laneMarked s k o lane why false) n = linkOf s n := by
  have hlinks : (laneMarked s k o lane why false).links
      = (updLane s k o lane.idx (fun l => { l with why := why, q := [], ready := false, joinAt := none })).links := by
    cases o <;> rfl
  have hself : linkOf (updLane s k o lane.idx (fun l => { l with why := why, q := [], ready := false, joinAt := none })) k
      = _ := linkOf_updLink_self s k _ hk
  refine ⟨fun l hl hi => ?_, fun n hn => (linkOf_congr hlinks n).trans (linkOf_updLink_ne s k n _ hn)⟩
  rw [linkOf_congr hlinks, hself] at hl
  have hmem : ∃ a : Lane, (if a.idx = lane.idx then { a with why := why, q := [], ready := false, joinAt := none } else a) = l := by
    cases o with
    | true =>
      obtain ⟨a, -, ha⟩ := List.mem_map.mp hl
      exact ⟨a, ha⟩
    | false =>
      obtain ⟨a, -, ha⟩ := List.mem_map.mp hl
      exact ⟨a, ha⟩
  obtain ⟨a, rfl⟩ := hmem
  by_cases ha : a.idx = lane.idx
  · rw [if_pos ha]
    exact ⟨rfl, rfl⟩
  · rw [if_neg ha] at hi
    exact absurd hi ha

theorem downMarked_rest (s : State) (k : Nat) (o : Bool) (lane : Lane) (why : Nat) :
    (downMarked s k o lane why).recovery = s.recovery ∧ (downMarked s k o lane why).rings = s.rings := by
  refine ⟨(settleLink_keeps State.recovery (fun _ _ => rfl) _ k).trans ?_, (settleLink_keeps State.rings (fun _ _ => rfl) _ k).trans ?_⟩
  · cases o <;> rfl
  · cases o <;> rfl

theorem downMarked_facts {o : Bool} {why : Nat} (hk : k < s.links.length) :
    (∀ l ∈ (if o then (linkOf (downMarked s k o lane why) k).outLanes else (linkOf (downMarked s k o lane why) k).inLanes),
      l.idx = lane.idx → l.why = why)
    ∧ ∀ n, n ≠ k → linkOf (downMarked s k o lane why) n = linkOf s n := by
  obtain ⟨h1, h2⟩ := laneMarked_silent (o := o) (why := why) (lane := lane) hk
  unfold downMarked
  generalize laneMarked s k o lane why false = u at *
  obtain ⟨-, hfix, hother⟩ := linkKept_settleLink u k
  refine ⟨?_, fun n hn => (hother n hn).trans (h2 n hn)⟩
  cases o with
  | true =>
    exact (forall_outLanes_of_fixed (P := fun l => l.idx = lane.idx → l.why = why) (fun _ => rfl) hfix).mpr
      fun l hl hi => (h1 l hl hi).1
  | false =>
    refine fun l hl hi => (forall_inLanes_settleLink (P := fun l => l.idx = lane.idx → l.why = why ∧ l.ready = false) h1
      (fun a ha => ?_) l hl hi).1
    unfold laneJoined
    split
    next hr => exact fun he => absurd (ha he).2 (by simp [hr])
    next => exact ha

theorem foot11_0_self (s : State) : foot11_0 s s = s := rfl

theorem laneDown_up {r : LaneRef} {c why : Nat} (hk : k < 64) (hp : PartsOk s) (h : laneBy s k (!r.own) r.idx = some lane)
    (hy : why = if c = 3 ∨ c = 4 then c else 2) (hw : lane.why = 0) (hx : lane.fibre < 32) (hj : lane.line < 17) :
    ∃ t, exec (.laneDown k r c) s = .next t
      ∧ t = { s with dic := t.dic, lasers := t.lasers, rings := t.rings, rotors := t.rotors, specMap := t.specMap,
                     recovery := t.recovery, links := t.links, routerW := t.routerW, routerE := t.routerE, outst := t.outst,
                     obs := t.obs }
      ∧ (∀ l ∈ (if r.own then (linkOf t k).inLanes else (linkOf t k).outLanes), l.idx = r.idx → l.why = why)
      ∧ (why = 2 → (∃ y ∈ t.recovery, y.ring = laneRing (!r.own) lane) ∧ (ringOf t (laneRing (!r.own) lane)).sweep = 1)
      ∧ (why ≠ 2 → t.recovery = s.recovery ∧ t.rings = s.rings) ∧ (∀ n, n ≠ k → linkOf t n = linkOf s n)
      ∧ SameObjs s t ([Obj.rotorAborts, Obj.linkState + k, Obj.linkDarkEvents, Obj.drainDirty, Obj.resentFlits,
          Obj.retryWindowStalls] ++ journalObjs) := by
  have hrun : exec (.laneDown k r c) s = .next (takeDown s k r c) := need_lt hk _
  have hframe : takeDown s k r c = foot11_0 s (takeDown s k r c) :=
    (foot11_0_self _).symm.trans (takeDown_keeps (foot11_0 · (takeDown s k r c)) (fun _ _ => rfl) s k r c)
  rw [takeDown_eq h hy hw] at hrun hframe
  have hidx : lane.idx = r.idx := laneBy_idx h
  have hmlinks := moveDropped_keeps State.links (fun _ _ => rfl) s k r.idx (!r.own) lane
  have hmrec := moveDropped_keeps State.recovery (fun _ _ => rfl) s k r.idx (!r.own) lane
  have hmring := moveDropped_keeps State.rings (fun _ _ => rfl) s k r.idx (!r.own) lane
  have hmobjs := sameObjs_moveDropped s k r.idx (!r.own) lane
  generalize moveDropped s k r.idx (!r.own) lane = m at *
  have hmk : k < m.links.length := hmlinks ▸ links_lt hp hk
  obtain ⟨hwhy, hother⟩ := downMarked_facts (s := m) (o := !r.own) (why := why) (lane := lane) hmk
  obtain ⟨hdrec, hdring⟩ := downMarked_rest m k (!r.own) lane why
  have hdobjs : SameObjs s (downMarked m k (!r.own) lane why) (Obj.rotorAborts :: settleObjs k) :=
    (hmobjs.mono (List.cons_subset_cons _ (journalObjs_sub_settle k))).trans
      ((((sameObjs_laneMarked m k (!r.own) lane why false).mono (stalls_sub_settle k)).trans
        (sameCells_settleLink _ k).objs).mono (List.subset_cons_self _ _))
  generalize downMarked m k (!r.own) lane why = d at *
  have hwhy' : ∀ l ∈ (if r.own then (linkOf d k).inLanes else (linkOf d k).outLanes), l.idx = r.idx → l.why = why := by
    rw [← hidx]
    intro l hl
    refine hwhy l ?_
    cases hown : r.own
    · rw [hown] at hl
      exact hl
    · rw [hown] at hl
      exact hl
  have hdother (n : Nat) (hn : n ≠ k) : linkOf d n = linkOf s n := (hother n hn).trans (linkOf_congr hmlinks n)
  by_cases h2 : why = 2
  · rw [if_pos h2] at hrun hframe
    have hlinks := startRecovery_keeps State.links (fun _ _ => rfl) d (laneRing (!r.own) lane) k (!r.own) r.idx false
    have hlt : laneRing (!r.own) lane < d.rings.length := by
      rw [hdring, hmring]
      exact rings_lt hp (ringAt_lt (!r.own) hx hj)
    refine ⟨_, hrun, hframe, ?_, fun _ => ⟨mem_recovery_startRecovery d _ k (!r.own) r.idx false, ?_⟩, fun hne => absurd h2 hne,
      fun n hn => (linkOf_congr hlinks n).trans (hdother n hn),
      hdobjs.trans ((sameObjs_startRecovery d _ k (!r.own) r.idx false).mono
        (List.Subset.trans (journalObjs_sub_settle k) (List.subset_cons_self _ _)))⟩
    · rw [linkOf_congr hlinks]
      exact hwhy'
    · rw [ringOf_startRecovery, ringOf_unlockRing_self d _ _ hlt]
      rfl
  · rw [if_neg h2] at hrun hframe
    exact ⟨_, hrun, hframe, hwhy', fun he => absurd he h2, fun _ => ⟨hdrec.trans hmrec, hdring.trans hmring⟩, hdother, hdobjs⟩

theorem laneDown_not {r : LaneRef} {c : Nat} (hk : k < 64) (h : ∀ lane, laneBy s k (!r.own) r.idx = some lane → lane.why ≠ 0) :
    exec (.laneDown k r c) s = .next s := by
  refine (need_lt hk _).trans (congrArg Host.Outcome.next ?_)
  unfold takeDown
  dsimp only
  split
  next lane hl => exact if_pos (by simp [laneUp, h lane hl])
  next => rfl

/-! ### LaneJoin -/

/-- An in-lane of index i changed. -/
def inLaneSet (s : State) (k i : Nat) (f : Lane → Lane) : State := updLane s k false i f

theorem inLaneSet_self (f : Lane → Lane) (hk : k < s.links.length) : linkOf (inLaneSet s k i f) k =
    { linkOf s k with inLanes := (linkOf s k).inLanes.map (fun (l : Lane) => if l.idx = i then f l else l) } :=
  linkOf_updLink_self s k _ hk

theorem inLaneSet_ne (f : Lane → Lane) {n : Nat} (h : n ≠ k) : linkOf (inLaneSet s k i f) n = linkOf s n := linkOf_updLink_ne s k n _ h

theorem takeJoin_lane (h : laneBy s k false i = some lane) : takeJoin s k i q =
    if lane.why = 0 then s
    else if lane.ready ∨ lane.why = 3 then settleLink (inLaneSet s k i (fun a => joinedAt a q)) k
    else inLaneSet s k i (fun a => { a with joinAt := some q }) := by
  unfold takeJoin
  rw [h]
  rfl

theorem laneJoin_ready (hk : k < 64) (hp : PartsOk s) (h : laneBy s k false i = some lane) (hw : lane.why ≠ 0)
    (hr : lane.ready = true ∨ lane.why = 3) :
    ∃ t, exec (.laneJoin k i q) s = .next t
      ∧ t = { s with dic := t.dic, links := t.links, routerW := t.routerW, routerE := t.routerE, outst := t.outst, obs := t.obs }
      ∧ (∀ l ∈ (linkOf t k).inLanes, l.idx = i → l.why = 0 ∧ l.last = some ((q + 2 ^ 20 - 1) % 2 ^ 20))
      ∧ ∀ n, n ≠ k → linkOf t n = linkOf s n := by
  have hkl := links_lt hp hk
  have hrun : exec (.laneJoin k i q) s = .next (settleLink (inLaneSet s k i (fun a => joinedAt a q)) k) :=
    (need_lt hk _).trans (congrArg Host.Outcome.next ((takeJoin_lane h).trans ((if_neg hw).trans (if_pos hr))))
  have hframe := settleLink_keeps (foot6_3 · (settleLink (inLaneSet s k i (fun a => joinedAt a q)) k)) (fun _ _ => rfl)
    (inLaneSet s k i (fun a => joinedAt a q)) k
  refine ⟨_, hrun, (foot6_3_self _).symm.trans hframe, fun l hl hi => ?_,
    fun n hn => ((linkKept_settleLink _ k).2.2 n hn).trans (inLaneSet_ne _ hn)⟩
  refine (forall_inLanes_settleLink
    (P := fun l => l.idx = i → (l.why = 0 ∧ l.last = some ((q + 2 ^ 20 - 1) % 2 ^ 20)) ∧ l.ready = false)
    (fun a ha hai => ?_) (fun a ha => ?_) l hl hi).1
  · rw [inLaneSet_self _ hkl] at ha
    obtain ⟨b, -, rfl⟩ := List.mem_map.mp ha
    by_cases hb : b.idx = i
    · rw [if_pos hb]
      exact ⟨⟨rfl, rfl⟩, rfl⟩
    · rw [if_neg hb] at hai
      exact absurd hai hb
  · unfold laneJoined
    split
    next hr => exact fun he => absurd (ha he).2 (by simp [hr])
    next => exact ha

theorem laneJoin_early (hk : k < 64) (hp : PartsOk s) (h : laneBy s k false i = some lane) (hw : lane.why ≠ 0)
    (hr : lane.ready = false) (h3 : lane.why ≠ 3) :
    ∃ t, exec (.laneJoin k i q) s = .next t ∧ t = { s with links := t.links }
      ∧ linkOf t k = { linkOf s k with
          inLanes := (linkOf s k).inLanes.map (fun (l : Lane) => if l.idx = i then { l with joinAt := some q } else l) }
      ∧ ∀ n, n ≠ k → linkOf t n = linkOf s n :=
  ⟨_, (need_lt hk _).trans (congrArg Host.Outcome.next ((takeJoin_lane h).trans ((if_neg hw).trans (if_neg (by simp [hr, h3]))))),
    rfl, inLaneSet_self _ (links_lt hp hk), fun _ hn => inLaneSet_ne _ hn⟩

/-- An in-lane that had left, or was never heard of: its join is kept until it comes. -/
theorem takeJoin_unheard (h : laneBy s k false i = none) (hl : ∀ l ∈ (linkOf s k).left, l.idx ≠ i) : takeJoin s k i q =
    if (linkOf s k).nego = 3 then updLink s k (fun l => { l with joins := smSet l.joins i q }) else s := by
  have hf : (linkOf s k).left.find? (fun (l : Lane) => l.idx == i) = none :=
    List.find?_eq_none.mpr fun l hm => by simp [hl l hm]
  unfold takeJoin
  rw [h]
  dsimp only
  rw [hf]

/-- A link's lanes that had left, one fewer. -/
def leftTaken (s : State) (k i : Nat) : State :=
  updLink s k (fun l => { l with left := l.left.filter (fun (a : Lane) => a.idx != i) })

theorem takeJoin_left (h : laneBy s k false i = none) (hl : (linkOf s k).left.find? (fun (l : Lane) => l.idx == i) = some lane)
    (hf : findLane s false lane.fibre lane.line = none) :
    takeJoin s k i q = joinLane (leftTaken s k i) k false (joinedAt lane q) := by
  have hplaces : (findLane (leftTaken s k i) false lane.fibre lane.line).isSome = false :=
    (findLane_isSome_congr (t := leftTaken s k i) (lanePlaces_updLink s k _ fun _ => rfl) false _ _).trans (by rw [hf]; rfl)
  unfold takeJoin
  rw [h]
  dsimp only
  rw [hl]
  exact if_neg (by rw [show (updLink s k _) = leftTaken s k i from rfl, hplaces]; exact Bool.false_ne_true)

theorem laneJoin_left (hk : k < 64) (hkl : k < s.links.length) (h : laneBy s k false i = none)
    (hl : (linkOf s k).left.find? (fun (l : Lane) => l.idx == i) = some lane)
    (hf : findLane s false lane.fibre lane.line = none) (hn : (linkOf s k).nego = 3) :
    ∃ t, exec (.laneJoin k i q) s = .next t
      ∧ t = { s with dic := t.dic, links := t.links, routerW := t.routerW, routerE := t.routerE, outst := t.outst, obs := t.obs }
      ∧ (∃ l ∈ (linkOf t k).inLanes, l.idx = i ∧ l.fibre = lane.fibre ∧ l.line = lane.line ∧ l.why = 0)
      ∧ (∀ l ∈ (linkOf t k).left, l.idx ≠ i) ∧ ∀ n, n ≠ k → linkOf t n = linkOf s n := by
  have hself : linkOf (leftTaken s k i) k = _ := linkOf_updLink_self s k _ hkl
  have hne (n : Nat) (hn : n ≠ k) : linkOf (leftTaken s k i) n = linkOf s n := linkOf_updLink_ne s k n _ hn
  have hlen : (leftTaken s k i).links.length = s.links.length := length_links_updLink s k _
  have hin : linkOf (laneIn (leftTaken s k i) k (joinedAt lane q)) k = _ := linkOf_updLink_self (leftTaken s k i) k _ (hlen ▸ hkl)
  have hinne (n : Nat) (hn : n ≠ k) : linkOf (laneIn (leftTaken s k i) k (joinedAt lane q)) n = linkOf s n :=
    (linkOf_updLink_ne (leftTaken s k i) k n _ hn).trans (hne n hn)
  have hjoin : joinLane (leftTaken s k i) k false (joinedAt lane q) = settleLink (laneIn (leftTaken s k i) k (joinedAt lane q)) k := by
    rw [joinLane_in]
    refine if_neg fun hc => ?_
    rw [hin, hself] at hc
    exact absurd (hc.1.symm.trans hn) (by decide)
  have hrun : exec (.laneJoin k i q) s = .next (settleLink (laneIn (leftTaken s k i) k (joinedAt lane q)) k) :=
    (need_lt hk _).trans (congrArg Host.Outcome.next ((takeJoin_left h hl hf).trans hjoin))
  have hframe := settleLink_keeps (foot6_3 · (settleLink (laneIn (leftTaken s k i) k (joinedAt lane q)) k)) (fun _ _ => rfl)
    (laneIn (leftTaken s k i) k (joinedAt lane q)) k
  have hleft : (linkOf (laneIn (leftTaken s k i) k (joinedAt lane q)) k).left
      = (linkOf s k).left.filter (fun (a : Lane) => a.idx != i) := by
    rw [hin, hself]
  have hmem : joinedAt lane q ∈ (linkOf (laneIn (leftTaken s k i) k (joinedAt lane q)) k).inLanes := by
    rw [hin]
    exact List.mem_append_right _ (List.mem_singleton_self _)
  have hidx : lane.idx = i := by simpa using List.find?_some hl
  obtain ⟨-, hfix, hother⟩ := linkKept_settleLink (laneIn (leftTaken s k i) k (joinedAt lane q)) k
  refine ⟨_, hrun, (foot6_3_self _).symm.trans hframe, ?_, ?_, fun n hn => (hother n hn).trans (hinne n hn)⟩
  · rcases inLanes_settleLink (laneIn (leftTaken s k i) k (joinedAt lane q)) k with hl | hl
    · exact ⟨joinedAt lane q, hl ▸ hmem, hidx, rfl, rfl, rfl⟩
    · exact ⟨laneJoined (joinedAt lane q), hl ▸ List.mem_map_of_mem hmem, hidx, rfl, rfl, rfl⟩
  · intro l hm
    have hkept : (linkOf (settleLink (laneIn (leftTaken s k i) k (joinedAt lane q)) k) k).left
        = (linkOf (laneIn (leftTaken s k i) k (joinedAt lane q)) k).left := (congrArg Link.left hfix :)
    rw [hkept, hleft] at hm
    simpa using (List.mem_filter.mp hm).2

/-! ### LaneLeave -/

theorem takeLeave_lane (h : laneBy s k false i = some lane) : takeLeave s k i q =
    if flitBefore (linkOf s k).rxNext q then inLaneSet s k i (fun a => { a with leaveAt := some q }) else leaveLane s k lane := by
  unfold takeLeave
  rw [h]
  rfl

/-- A link whose in-lane has left, before it settles or is removed. -/
def laneLeft (s : State) (k : Nat) (lane : Lane) : State :=
  let s := updLink s k (fun l => { l with left := l.left ++ [lane] })
  let s := { s with recovery := s.recovery.filter (fun (r : Recovery) => !(r.link == k && r.outgoing == false && r.lane == lane.idx)) }
  let s := updLink s k (fun l => { l with inLanes := l.inLanes.filter (fun (a : Lane) => a.idx != lane.idx) })
  { s with inGrant := s.inGrant.erase (17 * lane.fibre + lane.line) }

theorem leaveLane_eq (s : State) (k : Nat) (lane : Lane) : leaveLane s k lane =
    if (linkOf (laneLeft s k lane) k).inLanes.isEmpty then removeLink (handBack (laneLeft s k lane) k false) k
    else settleLink (laneLeft s k lane) k := rfl

theorem laneLeft_self (hk : k < s.links.length) : linkOf (laneLeft s k lane) k =
    { linkOf s k with
      left := (linkOf s k).left ++ [lane], inLanes := (linkOf s k).inLanes.filter (fun (a : Lane) => a.idx != lane.idx) } := by
  have h1 := linkOf_updLink_self s k (fun l => { l with left := l.left ++ [lane] }) hk
  have h2 := linkOf_updLink_self (updLink s k (fun l => { l with left := l.left ++ [lane] })) k
    (fun l => { l with inLanes := l.inLanes.filter (fun (a : Lane) => a.idx != lane.idx) }) (by rw [length_links_updLink]; exact hk)
  rw [h1] at h2
  exact h2

theorem laneLeft_ne {n : Nat} (h : n ≠ k) : linkOf (laneLeft s k lane) n = linkOf s n :=
  (linkOf_updLink_ne (updLink s k (fun l => { l with left := l.left ++ [lane] })) k n
    (fun l => { l with inLanes := l.inLanes.filter (fun (a : Lane) => a.idx != lane.idx) }) h).trans (linkOf_updLink_ne s k n _ h)

theorem length_laneLeft : (laneLeft s k lane).links.length = s.links.length :=
  (length_links_updLink (updLink s k (fun l => { l with left := l.left ++ [lane] })) k _).trans (length_links_updLink s k _)

theorem links_linesEnded (s : State) (ls : List Lane) : (linesEnded s ls).links = s.links :=
  linesEnded_keeps State.links (fun _ _ => rfl) s ls

/-- A removed link is bound no more and reports no link. -/
theorem removeLink_facts (hk : k < s.links.length) : (linkOf (removeLink s k) k).bound = false ∧ linkState (removeLink s k) k = 4
    ∧ (linkOf (removeLink s k) k).inLanes = [] ∧ ∀ n, n ≠ k → linkOf (removeLink s k) n = linkOf s n := by
  have hlinks := links_linesEnded s (linkOf s k).outLanes
  have hself := linkOf_updLink_self (linesEnded s (linkOf s k).outLanes) k
    (fun l => { tx := l.tx, rx := l.rx, recEpoch := l.recEpoch, recCount := l.recCount }) (hlinks ▸ hk)
  refine ⟨congrArg Link.bound hself, objGet_objPut_self _ _ _, congrArg Link.inLanes hself, fun n hn => ?_⟩
  exact (linkOf_updLink_ne (linesEnded s (linkOf s k).outLanes) k n _ hn).trans (linkOf_congr hlinks n)

theorem foot11_1_self (s : State) : foot11_1 s s = s := rfl

theorem idx_filter (ls : List Lane) (i : Nat) :
    (ls.filter (fun (a : Lane) => a.idx != i)).map Lane.idx = (ls.map Lane.idx).filter (fun n => n != i) := by
  rw [List.filter_map]
  rfl

theorem idx_laneJoined (a : Lane) : (laneJoined a).idx = a.idx := by
  unfold laneJoined
  split <;> rfl

theorem laneLeave_now (hk : k < 64) (hp : PartsOk s) (h : laneBy s k false i = some lane)
    (hq : flitBefore (linkOf s k).rxNext q = false) :
    ∃ t, exec (.laneLeave k i q) s = .next t
      ∧ t = { s with dic := t.dic, lasers := t.lasers, rings := t.rings, specMap := t.specMap, recovery := t.recovery,
                     inGrant := t.inGrant, links := t.links, routerW := t.routerW, routerE := t.routerE, outst := t.outst,
                     obs := t.obs }
      ∧ (∀ l ∈ (linkOf t k).inLanes, l.idx ≠ i)
      ∧ ((linkOf s k).inLanes.any (fun (l : Lane) => l.idx != i) = true →
          (linkOf t k).inLanes.map Lane.idx = ((linkOf s k).inLanes.map Lane.idx).filter (fun n => n != i)
          ∧ (linkOf t k).left = (linkOf s k).left ++ [lane])
      ∧ ((linkOf s k).inLanes.any (fun (l : Lane) => l.idx != i) = false → linkState t k = 4 ∧ (linkOf t k).bound = false)
      ∧ ∀ n, n ≠ k → linkOf t n = linkOf s n := by
  have hrun : exec (.laneLeave k i q) s = .next (takeLeave s k i q) := need_lt hk _
  have hframe : takeLeave s k i q = foot11_1 s (takeLeave s k i q) :=
    (foot11_1_self _).symm.trans (takeLeave_keeps (foot11_1 · (takeLeave s k i q)) (fun _ _ => rfl) s k i q)
  rw [(takeLeave_lane h).trans (if_neg (by simp [hq])), leaveLane_eq] at hrun hframe
  have hidx : lane.idx = i := laneBy_idx h
  have hkl := links_lt hp hk
  have hself := laneLeft_self (lane := lane) hkl
  have hne (n : Nat) (hn : n ≠ k) : linkOf (laneLeft s k lane) n = linkOf s n := laneLeft_ne hn
  have hlen : k < (laneLeft s k lane).links.length := by
    rw [length_laneLeft]
    exact hkl
  rw [hidx] at hself
  generalize laneLeft s k lane = w at *
  have hany : (linkOf s k).inLanes.any (fun (l : Lane) => l.idx != i) = !(linkOf w k).inLanes.isEmpty := by
    rw [hself]
    show _ = !((linkOf s k).inLanes.filter (fun (a : Lane) => a.idx != i)).isEmpty
    rw [Bool.eq_iff_iff]
    simp
  by_cases he : (linkOf w k).inLanes.isEmpty = true
  · rw [if_pos he] at hrun hframe
    obtain ⟨-, -, hback⟩ := linkKept_handBack w k false
    obtain ⟨h1, h2, h3, h4⟩ := removeLink_facts (s := handBack w k false) (k := k) ((linkKept_handBack w k false).1 ▸ hlen)
    refine ⟨_, hrun, hframe, fun l hl => ?_, fun ha => ?_, fun _ => ⟨h2, h1⟩, fun n hn => (h4 n hn).trans ((hback n hn).trans (hne n hn))⟩
    · rw [h3] at hl
      cases hl
    · rw [hany, he] at ha
      cases ha
  · rw [if_neg he] at hrun hframe
    obtain ⟨-, hfix, hother⟩ := linkKept_settleLink w k
    have hin : (linkOf (settleLink w k) k).inLanes.map Lane.idx = ((linkOf s k).inLanes.map Lane.idx).filter (fun n => n != i) := by
      rw [map_inLanes_of_fixed Lane.idx idx_laneJoined hfix, hself]
      exact idx_filter _ i
    refine ⟨_, hrun, hframe, fun l hl hi => ?_, fun _ => ⟨hin, ?_⟩, fun ha => ?_, fun n hn => (hother n hn).trans (hne n hn)⟩
    · have hm := hin ▸ List.mem_map_of_mem (f := Lane.idx) hl
      simpa [hi] using (List.mem_filter.mp hm).2
    · exact (congrArg Link.left hfix :).trans (by rw [hself]; rfl)
    · rw [hany] at ha
      exact absurd (by simpa using ha) he

theorem laneLeave_later (hk : k < 64) (hp : PartsOk s) (h : laneBy s k false i = some lane)
    (hq : flitBefore (linkOf s k).rxNext q = true) :
    ∃ t, exec (.laneLeave k i q) s = .next t ∧ t = { s with links := t.links }
      ∧ linkOf t k = { linkOf s k with
          inLanes := (linkOf s k).inLanes.map (fun (l : Lane) => if l.idx = i then { l with leaveAt := some q } else l) }
      ∧ ∀ n, n ≠ k → linkOf t n = linkOf s n :=
  ⟨_, (need_lt hk _).trans (congrArg Host.Outcome.next ((takeLeave_lane h).trans (if_pos hq))),
    rfl, inLaneSet_self _ (links_lt hp hk), fun _ hn => inLaneSet_ne _ hn⟩

theorem laneLeave_not (hk : k < 64) (h : laneBy s k false i = none) : exec (.laneLeave k i q) s = .next s := by
  refine (need_lt hk _).trans (congrArg Host.Outcome.next ?_)
  unfold takeLeave
  rw [h]

end

/-- Settles O27: each control flit changes the lanes it names, link by link. -/
theorem lanesMovedDownJoinedAndLeft : Obligations.LanesMovedDownJoinedAndLeft := by
  unfold Obligations.LanesMovedDownJoinedAndLeft
  refine ⟨fun k i j ok s hk hp => ⟨fun lane h hw hb hj hok => ?_, propose_unanswered hk⟩,
    fun k i x lane s hk hp hf h hg hl => accept_holds hk hp hf h hg hl, fun k i s hk h => accept_unawaited hk h,
    fun k i s hk hp => rotorAbort_holds hk hp,
    fun k c why r lane s hk hp h hy => ⟨fun hw => laneDown_not hk fun l hl => ?_, fun hw hx hj => laneDown_up hk hp h hy hw hx hj⟩,
    fun k c r s hk h => laneDown_not hk fun l hl => ?_,
    fun k i q lane s hk hp h => ⟨fun hw => ?_, fun hw hr => laneJoin_ready hk hp h hw hr,
      fun hw hr h3 => laneJoin_early hk hp h hw hr h3, laneLeave_later hk hp h, laneLeave_now hk hp h⟩,
    fun k i q s hk h => ⟨laneLeave_not hk h, fun hl hn => ?_, fun hl hn hkl => ?_,
      fun lane hl hf hn _ hkl => laneJoin_left hk hkl h hl hf hn⟩⟩
  · subst hok
    exact propose_taken hk hp h hw hb hj
  · rw [h] at hl
    exact Option.some.inj hl ▸ hw
  · rw [h] at hl
    cases hl
  · exact (need_lt hk _).trans (congrArg Host.Outcome.next ((takeJoin_lane h).trans (if_pos hw)))
  · exact (need_lt hk _).trans (congrArg Host.Outcome.next ((takeJoin_unheard h hl).trans (if_neg hn)))
  · exact ⟨_, (need_lt hk _).trans (congrArg Host.Outcome.next ((takeJoin_unheard h hl).trans (if_pos hn))), rfl,
      linkOf_updLink_self s k _ hkl, fun n hne => linkOf_updLink_ne s k n _ hne⟩

end Sys2Proof.Machine

/-!
Answers of each route, repeated and foreign messages, and DAP fragments (R336 to R340, R439); O39 settled.
-/

namespace Sys2Proof.Machine

/-! ### How answers go out -/

theorem answered_mgmt {ip port id seq key : Nat} {m : Bytes} {x : Session} {a : Answer} {s : State}
    (hm : readyMsg s ip port id seq = some m) (hx : sessionOf a.st id = some x) :
    ∃ t y, answered s (.mgmt ip port id seq) key a = t ∧ sessionOf t id = some y ∧ y.lastSeq = seq ∧ y.last = s.now
      ∧ y.lastReply = some (.dap ip port id seq (msgOp m % 128 + 128) a.status a.data)
      ∧ t = { a.st with out := a.st.out ++ [.dap ip port id seq (msgOp m % 128 + 128) a.status a.data], mgmt := t.mgmt } := by
  have hop : ((readyMsg s ip port id seq).map msgOp).getD 0 = msgOp m := by rw [hm]; rfl
  have hsess := (sessionOf_updSession a.st id (fun y => { y with
    lastSeq := seq, lastReply := some (dapOut ip port id seq (((readyMsg s ip port id seq).map msgOp).getD 0) a.status a.data)
    last := s.now }) fun _ => rfl).trans (congrArg (Option.map _) hx)
  refine ⟨_, _, rfl, hsess, rfl, rfl, ?_, ?_⟩
  · rw [hop]
    rfl
  · unfold answered
    dsimp only
    rw [hop]
    rfl

/-! ### Keepalive, repeated, late or foreign (R340) -/

section
variable {ip port id seq : Nat} {m : Bytes} {x : Session} {s : State}

/-- A held request of an open session that core 3 takes is looked at in its session. -/
theorem keepalive_inSession (hm : readyMsg s ip port id seq = some m) (hh : headerOk m = true) (ho : msgOp m = 0x23)
    (hf : formOk 0x23 (msgPayload m) = true) (hp : msgPayload m = []) (hc : core3 s ≠ 2) (hx : sessionOf s id = some x)
    (hopen : x.opened = true) : exec (.keepalive (.mgmt ip port id seq)) s = .next (inSession (takeMsg s ip port id seq) x ip port seq
      0x23 (fun u => gate u (supSession s) (heldKey s (.mgmt ip port id seq)) ⟨u, 0, []⟩)) := by
  have hkey : heldKey s (.mgmt ip port id seq) = msgKey m := by
    show ((readyMsg s ip port id seq).map msgKey).getD 0 = _
    rw [hm]
    rfl
  refine congrArg Host.Outcome.next ?_
  show askMgmt s ip port id seq 0x23 _ [] (fun s _ => ⟨s, 0, []⟩) _ = _
  unfold askMgmt
  rw [hm]
  dsimp only
  rw [if_neg (by simp [hh, ho, hf]), if_neg (by simp [ho, hkey, hp]), if_neg (show ¬ core3 (takeMsg s ip port id seq) = 2 from hc),
    show sessionOf (takeMsg s ip port id seq) id = some x from hx]
  exact if_pos hopen

theorem inSession_repeat {o : Out} {op : Nat} {run : State → Answer} (hi : x.ip = ip) (hp : x.port = port) (hs : x.lastSeq = seq)
    (hl : x.lastReply = some o) : inSession s x ip port seq op run = emit s o := by
  unfold inSession
  rw [if_neg (by simp [hi, hp]), if_pos (by simp [hs, hl]), hl]

theorem inSession_late {o : Out} {op : Nat} {run : State → Answer} (hi : x.ip = ip) (hp : x.port = port) (hs : seq < x.lastSeq)
    (hl : x.lastReply = some o) : inSession s x ip port seq op run = s := by
  unfold inSession
  rw [if_neg (by simp [hi, hp]), if_neg (by omega), if_pos (by simp [hl]; omega)]

theorem keepalive_known {o : Out} (hm : readyMsg s ip port id seq = some m) (hh : headerOk m = true) (ho : msgOp m = 0x23)
    (hf : formOk 0x23 (msgPayload m) = true) (hp : msgPayload m = []) (hc : core3 s ≠ 2) (hx : sessionOf s id = some x)
    (hopen : x.opened = true) :
    (x.ip = ip → x.port = port → x.lastSeq = seq → x.lastReply = some o →
      exec (.keepalive (.mgmt ip port id seq)) s = .next (emit (takeMsg s ip port id seq) o))
    ∧ (x.ip = ip → x.port = port → seq < x.lastSeq → x.lastReply = some o →
      exec (.keepalive (.mgmt ip port id seq)) s = .next (takeMsg s ip port id seq))
    ∧ (x.ip ≠ ip ∨ x.port ≠ port →
      ∃ t, exec (.keepalive (.mgmt ip port id seq)) s = .next t ∧ Counted s t Obj.authFailures 1
        ∧ t = { takeMsg s ip port id seq with dic := t.dic } ∧ SameObjs s t [Obj.authFailures]) := by
  have hrun := keepalive_inSession hm hh ho hf hp hc hx hopen
  refine ⟨fun hi hpo hs hl => hrun.trans (congrArg Host.Outcome.next (inSession_repeat hi hpo hs hl)),
    fun hi hpo hs hl => hrun.trans (congrArg Host.Outcome.next (inSession_late hi hpo hs hl)), fun hne => ?_⟩
  exact ⟨objInc (takeMsg s ip port id seq) Obj.authFailures, hrun.trans (congrArg Host.Outcome.next (if_pos hne)),
    objGet_objInc_self (takeMsg s ip port id seq) _, rfl,
    ((SameObjs.refl s _).of_dic (u := takeMsg s ip port id seq) rfl).objInc _ (List.mem_cons_self ..)⟩

end

/-! ### DAP fragments (R338, R428) -/

section
variable {ip port : Nat} {w0 w1 : Word64} {payload : Bytes} {s : State}

theorem dapFragment_run {rev : Bool} (h : macUp s = true) : exec (.dapFragment ip port w0 w1 payload rev) s
    = .next (if !dapFormed w0 w1 payload then emit (noteReversed s rev) (dapOut ip port (dapSession w0) (dapSeq w0) (dapOp w0) 0x0E [])
      else takeFragment (noteReversed s rev) ip port w0 w1 payload) :=
  congrArg Host.Outcome.next (if_neg (by simp [h]))

theorem noteReversed_not (s : State) : noteReversed s false = s := if_neg (by simp)

theorem dapFragment_formed (h : macUp s = true) (hf : dapFormed w0 w1 payload = true) :
    exec (.dapFragment ip port w0 w1 payload false) s = .next (takeFragment s ip port w0 w1 payload) := by
  rw [dapFragment_run h, if_neg (by simp [hf]), noteReversed_not]

/-- The first fragment of a message. -/
def firstPartial (s : State) (ip port : Nat) (w0 w1 : Word64) (payload : Bytes) : Partial :=
  { session := dapSession w0, seq := dapSeq w0, ip := ip, port := port, since := s.now, count := dapCount w1
    frags := [(dapIndex w1, payload)] }

theorem takeFragment_first (h : s.mgmt.daps.find? (samePartial ip port w0) = none) : takeFragment s ip port w0 w1 payload =
    if 1 = dapCount w1 then
      putReady (updMgmt s (fun m => { m with daps := s.mgmt.daps.filter (fun (x : Partial) => !samePartial ip port w0 x) })) ip port
        w0 w1 ([(dapIndex w1, payload)].flatMap Prod.snd)
    else updMgmt s (fun m => { m with daps := s.mgmt.daps.filter (fun (x : Partial) => !samePartial ip port w0 x)
      ++ [firstPartial s ip port w0 w1 payload] }) := by
  have hnone : s.mgmt.daps.find? (fun (x : Partial) => samePartial ip port w0 x && decide (s.now < x.since + ms 100)) = none := by
    rw [List.find?_eq_none] at h ⊢
    intro p hp
    simp [h p hp]
  unfold takeFragment
  rw [hnone]
  rfl

theorem payload_of_formed (h : dapFormed w0 w1 payload = true) : payload.length ≤ 1392 := by
  unfold dapFormed at h
  rw [Bool.and_eq_true] at h
  exact of_decide_eq_true h.2

theorem dapFragment_whole (h : macUp s = true) (hf : dapFormed w0 w1 payload = true) (hc : dapCount w1 = 1)
    (hn : s.mgmt.daps.find? (samePartial ip port w0) = none) :
    ∃ t, exec (.dapFragment ip port w0 w1 payload false) s = .next t ∧ t = { s with mgmt := t.mgmt }
      ∧ t.mgmt = { s.mgmt with ready := s.mgmt.ready
          ++ [(ip, port, dapSession w0, dapSeq w0, wholeMsg w0 w1 payload)], daps := t.mgmt.daps } := by
  have hlen := payload_of_formed hf
  have hready (u : State) : putReady u ip port w0 w1 ([(dapIndex w1, payload)].flatMap Prod.snd)
      = updMgmt u (fun m => { m with ready := m.ready ++ [(ip, port, dapSession w0, dapSeq w0, wholeMsg w0 w1 payload)] }) := by
    rw [show [(dapIndex w1, payload)].flatMap Prod.snd = payload from List.append_nil payload]
    exact if_neg (by omega)
  refine ⟨_, (dapFragment_formed h hf).trans (congrArg Host.Outcome.next ((takeFragment_first hn).trans
    ((if_pos hc.symm).trans (hready _)))), rfl, rfl⟩

theorem dapFragment_part (h : macUp s = true) (hf : dapFormed w0 w1 payload = true) (hc : 1 < dapCount w1)
    (hn : s.mgmt.daps.find? (samePartial ip port w0) = none) :
    ∃ t, exec (.dapFragment ip port w0 w1 payload false) s = .next t ∧ t = { s with mgmt := t.mgmt }
      ∧ t.mgmt.ready = s.mgmt.ready
      ∧ { session := dapSession w0, seq := dapSeq w0, ip := ip, port := port, since := s.now, count := dapCount w1,
          frags := [(dapIndex w1, payload)] } ∈ t.mgmt.daps :=
  ⟨_, (dapFragment_formed h hf).trans (congrArg Host.Outcome.next ((takeFragment_first hn).trans (if_neg (Nat.ne_of_lt hc)))),
    rfl, rfl, List.mem_append_right _ (List.mem_singleton_self _)⟩

/-- What a fragment taken may change. -/
def fragFoot (s t : State) : State := { s with out := t.out, mgmt := t.mgmt }

theorem takeFragment_foot {γ : Type} (vw : State → γ) (hg : ∀ s t, vw (fragFoot s t) = vw s) (s : State) :
    vw (takeFragment s ip port w0 w1 payload) = vw s :=
  takeFragment_keeps vw hg s ip port w0 w1 payload

/-- A pair found reversed is noted once. -/
theorem noteReversed_facts (s : State) :
    (objGet s Obj.mgmtPairReversed = 0 → objGet (noteReversed s true) Obj.mgmtPairReversed = 1
      ∧ Logged s (noteReversed s true) .pairReversed [] false)
    ∧ (objGet s Obj.mgmtPairReversed ≠ 0 → noteReversed s true = s)
    ∧ SameObjs s (noteReversed s true) (Obj.mgmtPairReversed :: journalObjs) := by
  unfold noteReversed
  by_cases h : objGet s Obj.mgmtPairReversed = 0
  · rw [if_pos ⟨rfl, h⟩]
    refine ⟨fun _ => ⟨?_, Logged.of_view (logged_journal (objPut s Obj.mgmtPairReversed 1) _ _) rfl⟩, fun hne => absurd h hne,
      ((SameObjs.refl s _).objPut _ _ (List.mem_cons_self ..)).journal _ _ (List.subset_cons_self _ _)⟩
    rw [objGet_journal _ _ _ _ (by decide) (by decide), objGet_objPut_self]
  · rw [if_neg fun hc => h hc.2]
    exact ⟨fun h0 => absurd h0 h, fun _ => rfl, SameObjs.refl s _⟩

theorem dapFragment_reversed (h : macUp s = true) :
    ∃ t, exec (.dapFragment ip port w0 w1 payload true) s = .next t
      ∧ t = { s with dic := t.dic, out := t.out, mgmt := t.mgmt, obs := t.obs }
      ∧ (objGet s Obj.mgmtPairReversed = 0 → objGet t Obj.mgmtPairReversed = 1 ∧ Logged s t .pairReversed [] false)
      ∧ (objGet s Obj.mgmtPairReversed ≠ 0 → t.dic = s.dic ∧ t.obs = s.obs)
      ∧ SameObjs s t (Obj.mgmtPairReversed :: journalObjs)
      ∧ (dapFormed w0 w1 payload = false → t.mgmt = s.mgmt
          ∧ t.out = s.out ++ [.dap ip port (dapSession w0) (dapSeq w0) (dapOp w0 % 128 + 128) 0x0E []]) := by
  obtain ⟨hnew, hold, hobjs⟩ := noteReversed_facts s
  have hframe := noteReversed_keeps (footDicObs · (noteReversed s true)) (fun _ _ => rfl) s true
  have hrun := dapFragment_run (ip := ip) (port := port) (w0 := w0) (w1 := w1) (payload := payload) (rev := true) h
  generalize noteReversed s true = u at *
  have hu : u = footDicObs s u := hframe
  have hlog (t : State) (hd : t.dic = u.dic) (ho : t.obs = u.obs) :
      (objGet s Obj.mgmtPairReversed = 0 → objGet t Obj.mgmtPairReversed = 1 ∧ Logged s t .pairReversed [] false)
      ∧ (objGet s Obj.mgmtPairReversed ≠ 0 → t.dic = s.dic ∧ t.obs = s.obs)
      ∧ SameObjs s t (Obj.mgmtPairReversed :: journalObjs) := by
    refine ⟨fun h0 => ⟨?_, (hnew h0).2.of_obs ho⟩, fun h0 => ⟨hd.trans (by rw [hold h0]), ho.trans (by rw [hold h0])⟩, hobjs.of_dic hd⟩
    exact (SameObjs.of_dic (SameObjs.refl u []) hd _ List.not_mem_nil).trans (hnew h0).1
  by_cases hf : dapFormed w0 w1 payload = true
  · rw [if_neg (by simp [hf])] at hrun
    have hfrag := takeFragment_foot (ip := ip) (port := port) (w0 := w0) (w1 := w1) (payload := payload)
      (fragFoot · (takeFragment u ip port w0 w1 payload)) (fun _ _ => rfl) u
    obtain ⟨h1, h2, h3⟩ := hlog (takeFragment u ip port w0 w1 payload) (takeFragment_foot State.dic (fun _ _ => rfl) u)
      (takeFragment_foot State.obs (fun _ _ => rfl) u)
    refine ⟨_, hrun, ?_, h1, h2, h3, fun hn => absurd hf (by simp [hn])⟩
    have hself : takeFragment u ip port w0 w1 payload = fragFoot u (takeFragment u ip port w0 w1 payload) := hfrag
    rw [hself, hu]
    rfl
  · rw [if_pos (by simp [hf])] at hrun
    obtain ⟨h1, h2, h3⟩ := hlog (emit u (dapOut ip port (dapSession w0) (dapSeq w0) (dapOp w0) 0x0E [])) rfl rfl
    refine ⟨_, hrun, ?_, h1, h2, h3, fun _ => ⟨?_, ?_⟩⟩
    · rw [hu]
      rfl
    · rw [hu]
      rfl
    · rw [hu]
      rfl

end

theorem dapReassemblyTimeout_holds (id seq : Nat) (s : State) :
    ∃ t, exec (.dapReassemblyTimeout id seq) s = .next t ∧ t = { s with mgmt := { s.mgmt with daps := t.mgmt.daps } }
      ∧ ∀ p, p ∈ t.mgmt.daps ↔ p ∈ s.mgmt.daps ∧ ¬ (p.session = id ∧ p.seq = seq ∧ p.since + ms 100 ≤ s.now) := by
  refine ⟨_, rfl, rfl, fun p => ?_⟩
  show p ∈ s.mgmt.daps.filter _ ↔ _
  rw [List.mem_filter]
  refine and_congr_right fun _ => ?_
  simp
  tauto

/-- Settles O39: each route's answer, the session's memory of its last request, and the fragments of a message. -/
theorem requestsReachTheirObjects : Obligations.RequestsReachTheirObjects := by
  unfold Obligations.RequestsReachTheirObjects
  exact ⟨fun a key s => ⟨mailboxEnded_mbxEnd _ 0, rfl⟩, fun ip port id seq key m x a s hm hx => answered_mgmt hm hx,
    fun ip port id seq m x o s hm hh ho hf hp hc hx hopen => keepalive_known hm hh ho hf hp hc hx hopen,
    fun k s hc => congrArg Host.Outcome.next (if_pos hc),
    fun ip port w0 w1 payload s => ⟨fun h => congrArg Host.Outcome.next (if_pos (by simp [h])),
      fun h hf => by rw [dapFragment_run h, if_pos (by simp [hf]), noteReversed_not]; rfl, dapFragment_whole, dapFragment_part⟩,
    fun ip port w0 w1 payload s h => dapFragment_reversed h, dapReassemblyTimeout_holds⟩

end Sys2Proof.Machine

/-!
Runs of bytes read and written through the host's windows: lines that are clean and on no Dim channel (R169, R176, R321).
-/

namespace Sys2Proof.Machine

/-! ### The lines of a run -/

theorem line_mem_linesOf {off n x : Nat} (h1 : off ≤ x) (h2 : x < off + n) : x / 64 * 64 ∈ linesOf off n := by
  unfold linesOf
  rw [if_neg (by omega)]
  refine List.mem_map.mpr ⟨x / 64 - off / 64, List.mem_range.mpr ?_, ?_⟩
  · have := Nat.div_le_div_right (c := 64) h1
    have := Nat.div_le_div_right (c := 64) (by omega : x ≤ off + n - 1)
    omega
  · have := Nat.div_le_div_right (c := 64) h1
    rw [Nat.add_sub_cancel' this]

/-! ### Channels -/

theorem chanOf_updChan (s : State) (i j : Nat) (f : Chan → Chan) :
    chanOf (updChan s i f) j = if i = j ∧ j < s.chans.length then f (chanOf s j) else chanOf s j := getD_modifyAt _ _ _ _ _

theorem dim_acceptWrite (now line : Nat) (c : Chan) : (acceptWrite now line c).dim = c.dim := by
  unfold acceptWrite
  dsimp only
  split
  · rfl
  · split
    · rfl
    · split <;> rfl

/-- A line of LPDDR that a write finds clean, on no Dim channel. -/
def CleanLine (s : State) (line : Nat) : Prop :=
  nsHas s.lpddrBad line = false ∧ (chanOf s (channelOf s (64 * line))).dim.isSome = false

theorem cleanLine_of_run {s : State} {off n x : Nat} (hp : runPoison s off n = false) (hd : dimLine s off n = none) (h1 : off ≤ x)
    (h2 : x < off + n) (hx : x < lpddrSize) : CleanLine s (x / 64) := by
  have hl := line_mem_linesOf h1 h2
  have hlt : x / 64 * 64 < lpddrSize := by omega
  have hpl : linePoison s (x / 64 * 64) = false := by
    have := List.any_eq_false.mp hp _ hl
    simpa using this
  have hdl : lineDim s (x / 64 * 64) = false := by
    have := List.find?_eq_none.mp hd _ hl
    simpa using this
  rw [Nat.mul_comm] at hpl hdl hlt
  refine ⟨(linePoison_clean hlt hpl).2, ?_⟩
  unfold lineDim at hdl
  simpa [hlt] using hdl

/-! ### A run written in LPDDR -/

/-- Bytes of one clean line written. -/
def clearStored (s : State) (off : Nat) (d : Bytes) (bit : Bool) : State :=
  updChan { s with lpddr := memStore s.lpddr off d, lpddrPoison := nsPut s.lpddrPoison (off / 64) bit
                   lpddrBad := nsDel s.lpddrBad (off / 64) } (channelOf s (64 * (off / 64))) (acceptWrite s.now (off / 64))

theorem writeLine_clear {s : State} {off : Nat} (d : Bytes) (poison : Bool) (ho : off < lpddrSize) (hc : CleanLine s (off / 64)) :
    ∃ bit, writeLine s off (maskFrom (off % 64) d.length) (List.replicate (off % 64) 0 ++ d) poison = clearStored s off d bit := by
  obtain ⟨hb, hd⟩ := hc
  refine ⟨poison || (nsHas s.lpddrPoison (off / 64) && maskFrom (off % 64) d.length != fullMask), ?_⟩
  unfold writeLine writeLpddrLine
  rw [if_pos ho, hb, Bool.false_and, if_neg Bool.false_ne_true, memStoreMask_maskFrom _ _ _ _ _ rfl, Nat.div_add_mod]
  exact noteWrite_plain { s with lpddr := _, lpddrPoison := _, lpddrBad := _ } (off / 64) hd

theorem cleanLine_clearStored {s : State} {off line : Nat} {d : Bytes} {bit : Bool} (h : CleanLine s line) :
    CleanLine (clearStored s off d bit) line := by
  obtain ⟨hb, hd⟩ := h
  refine ⟨?_, ?_⟩
  · show nsHas (nsDel s.lpddrBad (off / 64)) line = false
    rw [nsHas_nsDel, hb, Bool.and_false]
  · have hdim := chanOf_updChan { s with
        lpddr := memStore s.lpddr off d, lpddrPoison := nsPut s.lpddrPoison (off / 64) bit, lpddrBad := nsDel s.lpddrBad (off / 64) }
      (channelOf s (64 * (off / 64))) (channelOf s (64 * line)) (acceptWrite s.now (off / 64))
    refine Eq.trans (congrArg (fun (c : Chan) => c.dim.isSome) hdim) ?_
    split
    · rw [dim_acceptWrite]
      exact hd
    · exact hd

/-- A run of clean lines written: its bytes, and no other. -/
theorem writeRun_clear (k : Nat) (s : State) (off : Nat) (data : Bytes) (poison : Bool)
    (hc : ∀ x, off ≤ x → x < off + data.length → CleanLine s (x / 64)) (hl : off + data.length ≤ lpddrSize)
    (hk : data.length = 0 ∨ data.length + off % 64 ≤ 64 * k) :
    ∃ ps bs cs, writeRun s off data poison k
      = { s with lpddr := memStore s.lpddr off data, lpddrPoison := ps, lpddrBad := bs, chans := cs } := by
  induction k generalizing s off data with
  | zero =>
    rw [List.eq_nil_of_length_eq_zero (by omega : data.length = 0)]
    exact ⟨s.lpddrPoison, s.lpddrBad, s.chans, rfl⟩
  | succ k ih =>
    rw [writeRun]
    dsimp only
    split
    next he =>
      rw [List.isEmpty_iff.mp he]
      exact ⟨s.lpddrPoison, s.lpddrBad, s.chans, rfl⟩
    next he =>
      have hmod : off % 64 < 64 := Nat.mod_lt _ (by decide)
      have hne : data.length ≠ 0 := fun h0 => he (List.isEmpty_iff.mpr (List.eq_nil_of_length_eq_zero h0))
      generalize hn : min (64 - off % 64) data.length = n
      have hnlen : n ≤ data.length := by omega
      have hlen : (data.take n).length = n := by rw [List.length_take]; omega
      obtain ⟨bit, hw⟩ := writeLine_clear (s := s) (off := off) (data.take n) poison (by omega) (hc off (Nat.le_refl _) (by omega))
      rw [hlen] at hw
      rw [hw]
      obtain ⟨ps, bs, cs, hrun⟩ := ih (clearStored s off (data.take n) bit) (off + n) (data.drop n)
        (fun x h1 h2 => cleanLine_clearStored (hc x (by omega) (by rw [List.length_drop] at h2; omega)))
        (by rw [List.length_drop]; omega) (by rw [List.length_drop]; omega)
      refine ⟨ps, bs, cs, hrun.trans ?_⟩
      have happ := memStore_append s.lpddr off (data.take n) (data.drop n)
      rw [List.take_append_drop, hlen] at happ
      rw [happ]
      rfl

theorem writeBytes_clear {s : State} {off : Nat} {data : Bytes} (poison : Bool)
    (hc : ∀ x, off ≤ x → x < off + data.length → CleanLine s (x / 64)) (hl : off + data.length ≤ lpddrSize) :
    ∃ ps bs cs, writeBytes s off data poison
      = { s with lpddr := memStore s.lpddr off data, lpddrPoison := ps, lpddrBad := bs, chans := cs } :=
  writeRun_clear _ s off data poison hc hl (by omega)

/-! ### What a run of stored bytes is -/

section
variable {s t : State} {off : Nat} {data : Bytes}

/-- The bytes of a run in LPDDR stored. -/
theorem run_of_lpddr (ho : off < lpddrSize) (ht : t.lpddr = memStore s.lpddr off data) (hu : t.tile = s.tile) :
    rawBytes t off data.length = data ∧ SameMemoryBut s t off data.length := by
  refine ⟨?_, fun _ => ⟨?_, hu⟩, fun h => absurd ho (by omega)⟩
  · unfold rawBytes
    rw [if_pos ho, ht]
    exact memBytes_memStore _ _ _
  · rw [ht]
    exact sameBytesBut_memStore _ _ _

/-- The bytes of a run in the tile store stored. -/
theorem run_of_tile (ho : tileBase ≤ off) (ht : t.tile = memStore s.tile (off - tileBase) data) (hl : t.lpddr = s.lpddr) :
    rawBytes t off data.length = data ∧ SameMemoryBut s t off data.length := by
  have hge : lpddrSize ≤ off := tileBase_ge.trans ho
  refine ⟨?_, fun h => absurd h (by omega), fun _ => ⟨?_, hl⟩⟩
  · unfold rawBytes
    rw [if_neg (by omega), ht]
    exact memBytes_memStore _ _ _
  · rw [ht]
    exact sameBytesBut_memStore _ _ _

/-- An offset of LPDDR or of the tile store, by its region. -/
theorem lt_of_lpddr (h : regionOf s off = .lpddr) : off < lpddrSize := by
  unfold regionOf at h
  by_cases hl : off < lpddrSize
  · exact hl
  · rw [if_neg hl] at h
    split at h
    · cases h
    · split at h
      · cases h
      · split at h <;> cases h

theorem ge_of_tile (h : regionOf s off = .tile) : tileBase ≤ off ∧ off < tileBase + tileSize := by
  unfold regionOf at h
  by_cases hl : off < lpddrSize
  · rw [if_pos hl] at h
    split at h <;> cases h
  · rw [if_neg hl] at h
    split at h
    next ht => exact ht
    · split at h
      · cases h
      · split at h <;> cases h

theorem plainRun_cases {n : Nat} (h : plainRun s off n = true) :
    (regionOf s off = .lpddr ∧ regionOf s (off + n - 1) = .lpddr) ∨ (regionOf s off = .tile ∧ regionOf s (off + n - 1) = .tile) := by
  unfold plainRun at h
  simp only [Bool.and_eq_true, Bool.or_eq_true, beq_iff_eq] at h
  obtain ⟨h1 | h1, h2⟩ := h
  · exact Or.inl ⟨h1, h2 ▸ h1⟩
  · exact Or.inr ⟨h1, h2 ▸ h1⟩

end

end Sys2Proof.Machine

/-!
Configuration, MSI-X and the registers of BAR0 (R311, R313, R314, R316 to R320).
-/

namespace Sys2Proof.Machine

/-! ### Vectors sent (R316) -/

/-- The pending vectors that are unmasked. -/
def vectorsDue (s : State) : List Nat := s.host.msixPend.filter (nsHas s.host.msixOpen)

theorem sends_eq (vs : List Nat) (s : State) :
    vs.foldl (fun s v => emit (updHost s (fun h => { h with msixPend := nsDel h.msixPend v })) (.msix v)) s
      = { s with out := s.out ++ vs.map Out.msix, host := { s.host with msixPend := vs.foldl nsDel s.host.msixPend } } := by
  induction vs generalizing s with
  | nil => simp
  | cons v vs ih =>
    rw [List.foldl_cons, ih]
    have hout : (s.out ++ [Out.msix v]) ++ vs.map Out.msix = s.out ++ (v :: vs).map Out.msix := List.append_assoc ..
    rw [← hout]
    rfl

theorem sendPending_off {s : State} (h : s.host.msixEnable = false) : sendPending s = s := if_pos (by simp [h])

theorem sendPending_on {s : State} (h : s.host.msixEnable = true) : sendPending s = { s with
    out := s.out ++ (vectorsDue s).map Out.msix
    host := { s.host with msixPend := (vectorsDue s).foldl nsDel s.host.msixPend } } :=
  (if_neg (by simp [h])).trans (sends_eq (vectorsDue s) s)

theorem sendPending_frame (s : State) : sendPending s = { s with
    out := (sendPending s).out, host := { s.host with msixPend := (sendPending s).host.msixPend } } := by
  cases h : s.host.msixEnable with
  | false => rw [sendPending_off h]
  | true => rw [sendPending_on h]

theorem nsHas_foldl_nsDel (vs ns : List Nat) {v : Nat} (h : v ∈ vs ∨ nsHas ns v = false) : nsHas (vs.foldl nsDel ns) v = false := by
  induction vs generalizing ns with
  | nil => exact h.resolve_left List.not_mem_nil
  | cons a vs ih =>
    refine ih _ ?_
    rcases h with h | h
    · rcases List.mem_cons.mp h with rfl | h
      · exact Or.inr (by rw [nsHas_nsDel]; simp)
      · exact Or.inl h
    · exact Or.inr (by rw [nsHas_nsDel, h, Bool.and_false])

/-- An enabled function's pending vector that is unmasked is sent. -/
theorem sendPending_sends {s : State} {v : Nat} (h : s.host.msixEnable = true) (hv : v ∈ s.host.msixPend)
    (ho : nsHas s.host.msixOpen v = true) : .msix v ∈ (sendPending s).out ∧ nsHas (sendPending s).host.msixPend v = false := by
  have hdue : v ∈ vectorsDue s := List.mem_filter.mpr ⟨hv, ho⟩
  rw [sendPending_on h]
  exact ⟨List.mem_append_right _ (List.mem_map_of_mem hdue), nsHas_foldl_nsDel _ _ (Or.inl hdue)⟩

/-! ### Configuration requests -/

section
variable {s : State}

theorem configRequest_answered (c : ConfigOp) (h : cfgRetry s = false) : exec (.configRequest c) s = .next (config s c) :=
  congrArg Host.Outcome.next (if_neg (by simp [h]))

theorem cfgDword_class (s : State) : cfgDword s 0x08 / 256 = 0x120000 := by
  show (0x12000000 + (freeNow s).toNat % 256) / 256 = 0x120000
  have := Nat.mod_lt (freeNow s).toNat (by decide : 0 < 256)
  omega

theorem configRead_holds (reg : Nat) (h : cfgRetry s = false) :
    exec (.configRequest (.read reg)) s
        = .next { s with out := s.out ++ [.config (some (cfgDword s reg))], free := s.free + 1 }
      ∧ (reg = 0x00 → cfgDword s reg = 0x0D201FD7) ∧ (reg = 0x08 → cfgDword s reg / 256 = 0x120000)
      ∧ (reg = 0x2C → cfgDword s reg = 0x00011FD7) :=
  ⟨configRequest_answered _ h, fun hr => by rw [hr]; rfl, fun hr => by rw [hr]; exact cfgDword_class s, fun hr => by rw [hr]; rfl⟩

/-- The MSI-X enable written. -/
def msixSet (s : State) (on : Bool) : State := updHost s (fun h => { h with msixEnable := on })

theorem configEnable_holds (on : Bool) (h : cfgRetry s = false) :
    (∃ t, exec (.configRequest (.atsEnable on)) s = .next t ∧ t = { s with out := s.out ++ [.config (some 0)], host := t.host }
        ∧ t.host = { s.host with atsEnable := on, ats := if on then s.host.ats else [] })
    ∧ (∃ t, exec (.configRequest (.msixEnable on)) s = .next t ∧ t = { s with out := t.out, host := t.host }
        ∧ t.host = { s.host with msixEnable := on, msixPend := t.host.msixPend }
        ∧ (on = false → t.host.msixPend = s.host.msixPend)
        ∧ (on = true → ∀ v, v ∈ s.host.msixPend → nsHas s.host.msixOpen v = true → .msix v ∈ t.out ∧ nsHas t.host.msixPend v = false)) := by
  refine ⟨⟨_, configRequest_answered _ h, rfl, rfl⟩, emit (sendPending (msixSet s on)) (.config (some 0)),
    configRequest_answered _ h, ?_, ?_, fun hon => ?_, fun hon v hv ho => ?_⟩
  · rw [sendPending_frame (msixSet s on)]
    rfl
  · rw [sendPending_frame (msixSet s on)]
    rfl
  · rw [sendPending_off (s := msixSet s on) hon]
    rfl
  · obtain ⟨h1, h2⟩ := sendPending_sends (s := msixSet s on) (v := v) hon hv ho
    exact ⟨List.mem_append_left _ h1, h2⟩

/-! ### Unknown commands, and vectors unmasked -/

theorem mailboxUnknown_ends (hb : s.host.busy = true) (h : mbxCommands.contains s.host.running = false) :
    ∃ t, exec .mailboxUnknownCommand s = .next t ∧ t = { s with out := t.out, host := t.host } ∧ MailboxEnded t 2 :=
  ⟨mbxEnd s 2, congrArg Host.Outcome.next (if_pos (by rw [hb, h]; rfl)), mbxEnd_frame s 2, mailboxEnded_mbxEnd s 2⟩

theorem mailboxUnknown_not (h : s.host.busy = false ∨ mbxCommands.contains s.host.running = true) :
    exec .mailboxUnknownCommand s = .next s := by
  refine congrArg Host.Outcome.next (if_neg ?_)
  rcases h with h | h
  · rw [h]
    exact Bool.false_ne_true
  · rw [h, Bool.not_true, Bool.and_false]
    exact Bool.false_ne_true

/-- A vector's mask cleared. -/
def vectorOpened (s : State) (v : Nat) : State := updHost s (fun h => { h with msixOpen := nsAdd h.msixOpen v })

theorem msixUnmask_one {v : Nat} (h : v < 2048) :
    ∃ t, exec (.msixUnmask (some v)) s = .next t ∧ t = { s with out := t.out, host := t.host }
      ∧ t.host = { s.host with msixOpen := nsAdd s.host.msixOpen v, msixPend := t.host.msixPend }
      ∧ (s.host.msixEnable = true → v ∈ s.host.msixPend → .msix v ∈ t.out ∧ nsHas t.host.msixPend v = false)
      ∧ (s.host.msixEnable = false → t.out = s.out ∧ t.host.msixPend = s.host.msixPend) := by
  refine ⟨sendPending (vectorOpened s v), need_lt h _, ?_, ?_, fun he hv => ?_, fun he => ?_⟩
  · rw [sendPending_frame (vectorOpened s v)]
    rfl
  · rw [sendPending_frame (vectorOpened s v)]
    rfl
  · exact sendPending_sends (s := vectorOpened s v) he hv ((nsHas_nsAdd s.host.msixOpen v v).trans (by simp))
  · rw [sendPending_off (s := vectorOpened s v) he]
    exact ⟨rfl, rfl⟩

theorem msixUnmask_all (s : State) : ∃ t, exec (.msixUnmask none) s = .next t ∧ t = { s with out := t.out, host := t.host }
    ∧ t.host = { s.host with msixEnable := true, msixPend := t.host.msixPend } := by
  refine ⟨sendPending (msixSet s true), rfl, ?_, ?_⟩
  · rw [sendPending_frame (msixSet s true)]
    rfl
  · rw [sendPending_frame (msixSet s true)]
    rfl

/-! ### The mailbox's registers (R317 to R319) -/

theorem mergeBytes_word (old : Nat) {v : Nat} (h : v < 2 ^ 64) : mergeBytes old 0 8 v % 2 ^ 64 = v := by
  unfold mergeBytes
  omega

theorem mergeBytes_zero {v : Nat} (h : v < 2 ^ 64) : mergeBytes 0 0 8 v = v := by
  unfold mergeBytes
  omega

theorem bar0Write_mailbox {off v : Nat} (h1 : 0x400000 ≤ off) (h2 : off < 0x401000) (ha : off % 8 = 0) :
    bar0Write s off 8 v = mbxWrite s off 0 8 v := by
  unfold bar0Write
  dsimp only
  rw [ha, show off / 8 * 8 = off by omega, if_neg (by omega), if_neg (by omega), if_pos h2]

/-- HPT_MBX_COMMAND written. -/
def commandSet (s : State) (v : Nat) : State := updHost s (fun h => { h with command := v % 2 ^ 16, tag := v / 2 ^ 16 % 2 ^ 16 })

theorem registerWrite_go {v : Nat} (hv : v < 2 ^ 33) (hg : natBit 32 v = true) :
    exec (.registerWrite 0x400000 8 v) s = .next (startCommand (commandSet s v)) := by
  have h64 : v < 2 ^ 64 := by omega
  refine congrArg Host.Outcome.next ((bar0Write_mailbox (by decide) (by decide) (by decide)).trans ?_)
  unfold mbxWrite
  rw [mergeBytes_word _ h64, mergeBytes_zero h64]
  dsimp only
  rw [if_pos rfl, if_pos hg]
  rfl

theorem goWrite_holds {v : Nat} (hv : v < 2 ^ 33) (hg : natBit 32 v = true) :
    (s.host.busy = false → exec (.registerWrite 0x400000 8 v) s = .next { s with host := { s.host with
        command := v % 2 ^ 16, tag := v / 2 ^ 16 % 2 ^ 16, busy := true, done := false, running := v % 2 ^ 16,
        runTag := v / 2 ^ 16 % 2 ^ 16, runArgs := s.host.args, runPayload := s.host.payload } })
    ∧ (s.host.busy = true →
      ∃ t, exec (.registerWrite 0x400000 8 v) s = .next t ∧ t = { s with host := t.host, dic := t.dic }
        ∧ t.host = { s.host with command := v % 2 ^ 16, tag := v / 2 ^ 16 % 2 ^ 16 } ∧ Counted s t Obj.mbxIgnored 1
        ∧ SameObjs s t [Obj.mbxIgnored]) := by
  refine ⟨fun hb => (registerWrite_go hv hg).trans (congrArg Host.Outcome.next (if_neg (by simp [commandSet, updHost, hb]))),
    fun hb => ⟨objInc (commandSet s v) Obj.mbxIgnored,
      (registerWrite_go hv hg).trans (congrArg Host.Outcome.next (if_pos hb)), rfl, rfl,
      objGet_objInc_self (commandSet s v) _,
      ((SameObjs.refl s _).of_dic (u := commandSet s v) rfl).objInc _ (List.mem_cons_self ..)⟩⟩

theorem mbxWrite_arg {off v : Nat} (h1 : 0x400040 ≤ off) (h2 : off < 0x400080) (hv : v < 2 ^ 64) : mbxWrite s off 0 8 v
    = updHost s (fun h => { h with args := h.args.set ((off - 0x400040) / 8) (BitVec.ofNat 64 v) }) := by
  unfold mbxWrite
  rw [mergeBytes_word _ hv]
  dsimp only
  rw [if_neg (by omega), if_neg (by omega), if_neg (by omega), if_pos ⟨h1, h2⟩]

theorem argWrite_holds {i v : Nat} (hi : i < 8) (hv : v < 2 ^ 64) : exec (.registerWrite (0x400040 + 8 * i) 8 v) s
    = .next { s with host := { s.host with args := s.host.args.set i (BitVec.ofNat 64 v) } } := by
  have hplace : (0x400040 + 8 * i - 0x400040) / 8 = i := by omega
  have hrun : bar0Write s (0x400040 + 8 * i) 8 v = _ :=
    (bar0Write_mailbox (by omega) (by omega) (by omega)).trans (mbxWrite_arg (by omega) (by omega) hv)
  rw [hplace] at hrun
  exact congrArg Host.Outcome.next hrun

theorem bar0Write_dataPort {off v : Nat} (h1 : 0x401000 ≤ off) (h2 : off < 0x401040) (ha : off % 8 = 0) :
    bar0Write s off 8 v = dpWrite s off 0 8 v := by
  unfold bar0Write
  dsimp only
  rw [ha, show off / 8 * 8 = off by omega, if_neg (by omega), if_neg (by omega), if_neg (by omega), if_neg (by omega), if_pos (by omega)]

theorem mbxWrite_status {v : Nat} (hv : v < 2 ^ 64) :
    mbxWrite s 0x400008 0 8 v = updHost s (fun h => { h with done := h.done && !natBit 1 v }) := by
  unfold mbxWrite
  rw [mergeBytes_zero hv]
  dsimp only
  rw [if_neg (by decide), if_pos rfl]

theorem mbxWrite_irq {v : Nat} (hv : v < 2 ^ 64) :
    mbxWrite s 0x400010 0 8 v = updHost s (fun h => { h with vector := v % 2048, irqEn := natBit 11 v }) := by
  unfold mbxWrite
  rw [mergeBytes_word _ hv]
  dsimp only
  rw [if_neg (by decide), if_neg (by decide), if_pos rfl]

theorem dpWrite_addr {v : Nat} (hv : v < 2 ^ 64) : dpWrite s 0x401000 0 8 v = updHost s (fun h => { h with dpAddr := v / 64 * 64 }) := by
  unfold dpWrite
  rw [mergeBytes_word _ hv]
  exact if_pos rfl

theorem statusWrite_holds {v : Nat} (hv : v < 2 ^ 64) :
    exec (.registerWrite 0x400008 8 v) s = .next { s with host := { s.host with done := s.host.done && !natBit 1 v } }
    ∧ exec (.registerWrite 0x400010 8 v) s = .next { s with host := { s.host with vector := v % 2048, irqEn := natBit 11 v } }
    ∧ exec (.registerWrite 0x401000 8 v) s = .next { s with host := { s.host with dpAddr := v / 64 * 64 } } :=
  ⟨congrArg Host.Outcome.next ((bar0Write_mailbox (by decide) (by decide) (by decide)).trans (mbxWrite_status hv)),
    congrArg Host.Outcome.next ((bar0Write_mailbox (by decide) (by decide) (by decide)).trans (mbxWrite_irq hv)),
    congrArg Host.Outcome.next ((bar0Write_dataPort (by decide) (by decide) (by decide)).trans (dpWrite_addr hv))⟩

theorem reservedWrite_holds {off n v : Nat} (h : 0x418000 ≤ off) : exec (.registerWrite off n v) s = .next s := by
  refine congrArg Host.Outcome.next ?_
  unfold bar0Write
  dsimp only
  split
  · rfl
  · rw [if_neg (by omega), if_neg (by omega), if_neg (by omega), if_neg (by omega), if_neg (by omega)]

theorem payloadWrite_holds {o : Nat} (b : Nat) (ho : o < 0xF00) : exec (.registerWrite (0x400100 + o) 1 b) s
    = .next { s with host := { s.host with payload := smSet s.host.payload o (BitVec.ofNat 8 b) } } := by
  have hplace : (0x400100 + o) / 8 * 8 - 0x400100 + (0x400100 + o) % 8 = o := by omega
  have hbyte : natLe 1 b = [BitVec.ofNat 8 b] := by simp [natLe]
  refine congrArg Host.Outcome.next ?_
  unfold bar0Write
  dsimp only
  rw [if_neg (by omega), if_neg (by omega), if_pos (by omega)]
  unfold mbxWrite
  dsimp only
  rw [if_neg (by omega), if_neg (by omega), if_neg (by omega), if_neg (by omega), if_pos (by omega), hplace, hbyte]
  rfl

/-! ### The MSI-X table -/

/-- A dword of the MSI-X table written. -/
def tableSet (s : State) (d v : Nat) : State := updHost s (fun h => { h with msixTable := smSet h.msixTable d v })

/-- A vector's mask written. -/
def maskSet (s : State) (v : Nat) (on : Bool) : State := updHost s (fun h => { h with msixOpen := nsPut h.msixOpen v on })

theorem tableWrite_run {d v : Nat} (hd : d < 8192) (hv : v < 2 ^ 32) : exec (.registerWrite (0x410000 + 4 * d) 4 v) s
    = .next (if d % 4 = 3 then sendPending (maskSet (tableSet s d v) (d / 4) (!natBit 0 v)) else tableSet s d v) := by
  refine congrArg Host.Outcome.next ?_
  unfold bar0Write
  dsimp only
  rw [if_neg (by omega), if_neg (by omega), if_neg (by omega), if_neg (by omega), if_neg (by omega), if_pos (by omega),
    if_neg (by omega), if_pos (by omega), show (0x410000 + 4 * d - 0x410000) / 4 = d by omega]
  unfold msixWrite
  rw [Nat.mod_eq_of_lt hv]
  rfl

theorem tableWrite_holds {d v : Nat} (hd : d < 8192) (hv : v < 2 ^ 32) :
    ∃ t, exec (.registerWrite (0x410000 + 4 * d) 4 v) s = .next t ∧ t = { s with out := t.out, host := t.host }
      ∧ t.host = { s.host with msixTable := smSet s.host.msixTable d v, msixOpen := t.host.msixOpen, msixPend := t.host.msixPend }
      ∧ (d % 4 ≠ 3 → t.host.msixOpen = s.host.msixOpen ∧ t.out = s.out ∧ t.host.msixPend = s.host.msixPend)
      ∧ (d % 4 = 3 → nsHas t.host.msixOpen (d / 4) = !natBit 0 v) := by
  by_cases h3 : d % 4 = 3
  · have hrun := (tableWrite_run (s := s) hd hv).trans (congrArg Host.Outcome.next (if_pos h3))
    have hmask : (maskSet (tableSet s d v) (d / 4) (!natBit 0 v)).host
        = { s.host with msixTable := smSet s.host.msixTable d v, msixOpen := nsPut s.host.msixOpen (d / 4) (!natBit 0 v) } := rfl
    have hset : maskSet (tableSet s d v) (d / 4) (!natBit 0 v)
        = { s with host := (maskSet (tableSet s d v) (d / 4) (!natBit 0 v)).host } := rfl
    generalize maskSet (tableSet s d v) (d / 4) (!natBit 0 v) = u at *
    have hframe := sendPending_frame u
    generalize sendPending u = t at *
    have hhost : t.host = { u.host with msixPend := t.host.msixPend } := (congrArg State.host hframe :)
    refine ⟨t, hrun, ?_, ?_, fun hne => absurd h3 hne, fun _ => ?_⟩
    · rw [← hhost] at hframe
      refine hframe.trans ?_
      generalize u.host = w at hset
      rw [hset]
    · rw [hhost, hmask]
    · rw [show t.host.msixOpen = u.host.msixOpen from (congrArg HostPort.msixOpen hhost :), hmask]
      exact (nsHas_nsPut _ _ _ _).trans (if_pos rfl)
  · exact ⟨tableSet s d v, (tableWrite_run hd hv).trans (congrArg Host.Outcome.next (if_neg h3)), rfl, rfl, fun _ => ⟨rfl, rfl, rfl⟩,
      fun he => absurd he h3⟩

end

end Sys2Proof.Machine

/-!
The data port (R320, R327, R344): local lines, and the host's transfers.
-/

namespace Sys2Proof.Machine

/-! ### A line read and written at its place -/

section
variable {s : State} {off first n : Nat} {data : Bytes} {poison : Bool}

theorem memBytes_slice (m : Mem) (a k first n : Nat) (h : first + n ≤ k) :
    ((memBytes m a k).drop first).take n = memBytes m (a + first) n := by
  induction k generalizing a first n with
  | zero =>
    rw [show first = 0 by omega, show n = 0 by omega]
    rfl
  | succ k ih =>
    cases first with
    | zero =>
      cases n with
      | zero => rfl
      | succ n =>
        have := ih (a + 1) 0 n (by omega)
        rw [memBytes, List.drop_zero, List.take_succ_cons, memBytes]
        rw [List.drop_zero] at this
        rw [this]
        rfl
    | succ first =>
      rw [memBytes, List.drop_succ_cons, ih (a + 1) first n (by omega), show a + 1 + first = a + (first + 1) by omega]

theorem rawBytes_slice (ha : off % 64 = 0) (hn : 0 < n) (h : first + n ≤ 64) (hb : off < lpddrSize ∨ tileBase ≤ off) :
    ((rawBytes s off 64).drop first).take n = rawBytes s (off + first) n := by
  have hsize : lpddrSize % 64 = 0 := by decide
  unfold rawBytes
  rcases hb with hl | ht
  · rw [if_pos hl, if_pos (by omega), memBytes_slice _ _ _ _ _ h]
  · have hge := tileBase_ge
    rw [if_neg (by omega), if_neg (by omega), memBytes_slice _ _ _ _ _ h, Nat.sub_add_comm ht]

/-- The region of a line the data port may read and write. -/
def MemRegion (s : State) (off : Nat) : Prop := regionOf s off = .lpddr ∨ regionOf s off = .tile

theorem memRegion_place (h : MemRegion s off) : off < lpddrSize ∨ tileBase ≤ off :=
  h.imp lt_of_lpddr fun ht => (ge_of_tile ht).1

/-- What a write of part of a clean line stores. -/
def linePut (s : State) (off first : Nat) (data : Bytes) (poison : Bool) : State :=
  writeLine s off (maskFrom first data.length) (List.replicate first 0 ++ data) poison

theorem dpPut_eq (h : MemRegion s off) : dpPut s off first data poison = linePut s off first data poison := by
  unfold dpPut localPut
  rcases h with h | h <;> rw [h] <;> rfl

theorem linePut_lpddr (ha : off % 64 = 0) (hl : off < lpddrSize) (hp : linePoison s off = false) (hd : dimLine s off 64 = none) :
    linePut s off first data poison = cleanStored s (off / 64) (maskFrom first data.length) (List.replicate first 0 ++ data) poison := by
  have he : off = 64 * (off / 64) := by omega
  rw [he] at hl hp hd
  have h := writeLine_clean s (off / 64) (maskFrom first data.length) (List.replicate first 0 ++ data) poison hl hp hd
  rw [← he] at h
  exact h

/-- What a write of part of a line may change. -/
def putFoot (s t : State) : State :=
  { s with tile := t.tile, tilePoison := t.tilePoison, lpddr := t.lpddr, lpddrPoison := t.lpddrPoison, lpddrBad := t.lpddrBad
           chans := t.chans }

theorem linePut_holds (ha : off % 64 = 0) (hn : 0 < data.length) (hf : first + data.length ≤ 64) (hr : MemRegion s off) (hp : linePoison s off = false)
    (hd : dimLine s off 64 = none) :
    linePut s off first data poison = putFoot s (linePut s off first data poison)
    ∧ rawBytes (linePut s off first data poison) (off + first) data.length = data
    ∧ SameMemoryBut s (linePut s off first data poison) (off + first) data.length
    ∧ linePoison (linePut s off first data poison) off = poison := by
  have hsize : lpddrSize % 64 = 0 := by decide
  rcases memRegion_place hr with hl | ht
  · rw [linePut_lpddr ha hl hp hd]
    have he : off = 64 * (off / 64) := by omega
    have hbytes : (cleanStored s (off / 64) (maskFrom first data.length) (List.replicate first 0 ++ data) poison).lpddr
        = memStore s.lpddr (off + first) data := by
      rw [show off + first = 64 * (off / 64) + first by omega]
      exact memStoreMask_maskFrom first data.length s.lpddr (64 * (off / 64)) data rfl
    have hpois := linePoison_stored s (off / 64) (maskFrom first data.length) (List.replicate first 0 ++ data) poison (he ▸ hl)
    rw [← he] at hpois
    obtain ⟨h1, h2⟩ := run_of_lpddr (s := s) (off := off + first) (data := data) (by omega) hbytes rfl
    exact ⟨rfl, h1, h2, hpois⟩
  · have hge := tileBase_ge
    have hw : linePut s off first data poison
        = writeTileLine s (tileLine off) (maskFrom first data.length) (List.replicate first 0 ++ data) poison :=
      writeLine_tile s off _ _ poison ht
    rw [hw]
    have hbytes : (writeTileLine s (tileLine off) (maskFrom first data.length) (List.replicate first 0 ++ data) poison).tile
        = memStore s.tile (off + first - tileBase) data := by
      rw [Nat.sub_add_comm ht, ← tileLine_aligned ha]
      exact memStoreMask_maskFrom first data.length s.tile (64 * tileLine off) data rfl
    obtain ⟨h1, h2⟩ := run_of_tile (s := s) (off := off + first) (data := data) (by omega) hbytes rfl
    refine ⟨rfl, h1, h2, ?_⟩
    unfold linePoison at hp ⊢
    rw [if_neg (by omega)] at hp ⊢
    show nsHas (nsPut s.tilePoison (tileLine off) _) (tileLine off) = poison
    rw [nsHas_nsPut, if_pos rfl, hp, Bool.false_and, Bool.or_false]

/-! ### Host accesses through the port (R168, R176, R320, R327) -/

/-- The address register after an access that includes byte 63. -/
def addrAfter (s : State) (first n : Nat) : Nat :=
  if s.host.autoInc = true ∧ 64 ≤ first + n then (s.host.dpAddr + 64) % 2 ^ 64 else s.host.dpAddr

theorem dpAdvance_eq (s : State) (first n : Nat) :
    dpAdvance s first n = { s with host := { s.host with dpAddr := addrAfter s first n } } := by
  unfold dpAdvance addrAfter
  split <;> rfl

theorem addrAfter_congr {t : State} (h1 : t.host.autoInc = s.host.autoInc) (h2 : t.host.dpAddr = s.host.dpAddr) :
    addrAfter t first n = addrAfter s first n := by
  unfold addrAfter
  rw [h1, h2]

theorem writeRoom_of_dim (hd : dimLine s off n = none) : (linesOf off n).find? (fun l => !writeRoom s l) = none := by
  rw [List.find?_eq_none]
  intro l hl
  have := List.find?_eq_none.mp hd l hl
  unfold writeRoom
  simp [Bool.eq_false_iff.mpr this]

section
variable (hdom : s.host.domain = false) (hn : 0 < n) (hfit : first + n ≤ 64) (hspace : spaceOf s.host.dpAddr = .localOff off)
include hdom hn hfit hspace

theorem dataRead_local (ev : List LineEvent) : dataRead s first n ev =
    if !dpLocalOk s then emit (addrErr s) (.busData (List.replicate n 0) false)
    else if (localGet s off (off + first) n).cause = 6 then
      emit (addrErr (countReserved s [off])) (.busData (List.replicate n 0) false)
    else dpAdvance (portAccess s off none first n ev) first n := by
  unfold dataRead
  dsimp only
  rw [if_neg (by omega), hdom, hspace]
  rfl

theorem dataWrite_local (hd : n = data.length) : dataWrite s first data poison =
    if !dpLocalOk s then addrErr s
    else if !localPutOk s off (maskFrom first n) then addrErr (countReserved s [off])
    else dpAdvance (portAccess s off (some (data, poison)) first n []) first n := by
  subst hd
  unfold dataWrite
  dsimp only
  rw [if_neg (by omega), hdom, hspace]
  rfl

theorem dataPort_notReady (hd : n = data.length) (hr : isReady s = false) :
    exec (.dataPortWrite first data poison) s = .next { s with host := { s.host with addrError := true } }
    ∧ ∀ ev, exec (.dataPortRead first ⟨n, ev⟩) s = .next { s with
        host := { s.host with addrError := true }, out := s.out ++ [.busData (List.replicate n 0) false] } := by
  have hnot : (!dpLocalOk s) = true := by
    show (!isReady s) = true
    rw [hr]
    rfl
  exact ⟨congrArg Host.Outcome.next ((dataWrite_local hdom hn hfit hspace hd).trans (if_pos hnot)),
    fun ev => congrArg Host.Outcome.next ((dataRead_local hdom hn hfit hspace ev).trans (if_pos hnot))⟩

/-- Of a line in LPDDR or the tile store, a read is no address error. -/
theorem dataRead_memory (hr : isReady s = true) (hm : MemRegion s off) (ev : List LineEvent) :
    dataRead s first n ev = dpAdvance (portAccess s off none first n ev) first n := by
  have hcause : (localGet s off (off + first) n).cause ≠ 6 := by
    unfold localGet
    rcases hm with h | h
    · rw [h]
      dsimp only
      split
      · exact (by decide : 4 ≠ 6)
      · exact (by decide : 0 ≠ 6)
    · rw [h]
      exact (by decide : 0 ≠ 6)
  rw [dataRead_local hdom hn hfit hspace ev, if_neg (by show ¬ (!isReady s) = true; simp [hr]), if_neg hcause]

theorem dataWrite_memory (hd : n = data.length) (hr : isReady s = true) (hm : MemRegion s off) :
    dataWrite s first data poison = dpAdvance (portAccess s off (some (data, poison)) first n []) first n := by
  have hok : localPutOk s off (maskFrom first n) = true := by
    unfold localPutOk
    rcases hm with h | h <;> rw [h]
  rw [dataWrite_local hdom hn hfit hspace hd, if_neg (by show ¬ (!isReady s) = true; simp [hr]), if_neg (by simp [hok])]

/-- A clean line that is not the host's is written and read at once. -/
theorem dataPort_memory (hd : n = data.length) (hr : isReady s = true) (hm : MemRegion s off) (ha : off % 64 = 0)
    (ht : dpTracked s off = false) (hp : linePoison s off = false) (hdim : dimLine s off 64 = none) :
    (∃ t, exec (.dataPortWrite first data poison) s = .next t
      ∧ t = { s with tile := t.tile, tilePoison := t.tilePoison, lpddr := t.lpddr, lpddrPoison := t.lpddrPoison,
                     lpddrBad := t.lpddrBad, chans := t.chans, host := t.host }
      ∧ rawBytes t (off + first) n = data ∧ SameMemoryBut s t (off + first) n ∧ linePoison t off = poison
      ∧ t.host = { s.host with dpAddr := if s.host.autoInc = true ∧ 64 ≤ first + n then (s.host.dpAddr + 64) % 2 ^ 64
                                         else s.host.dpAddr })
    ∧ (∃ t, exec (.dataPortRead first ⟨n, []⟩) s = .next t
      ∧ t = { s with out := s.out ++ [.busData (rawBytes s (off + first) n) false], free := t.free, host := t.host }
      ∧ t.host = { s.host with dpAddr := if s.host.autoInc = true ∧ 64 ≤ first + n then (s.host.dpAddr + 64) % 2 ^ 64
                                         else s.host.dpAddr }) := by
  have hline : 64 * (off / 64) = off := by omega
  have hserve (w : Option (Bytes × Bool)) (hheld : heldLine s (.dataPort (off / 64) w first n []) = none) :
      portAccess s off w first n [] = serveHost s (.dataPort (off / 64) w first n []) := by
    unfold portAccess hostAccess
    dsimp only
    rw [ht, if_neg Bool.false_ne_true, hheld]
  constructor
  · have hput : portAccess s off (some (data, poison)) first n [] = linePut s off first data poison := by
      rw [hserve (some (data, poison)) (by show (linesOf (64 * (off / 64)) 64).find? _ = none; rw [hline]; exact writeRoom_of_dim hdim)]
      refine (if_pos hr).trans ?_
      rw [hline]
      exact dpPut_eq hm
    have hrun : exec (.dataPortWrite first data poison) s = .next (dpAdvance (linePut s off first data poison) first n) :=
      congrArg Host.Outcome.next ((dataWrite_memory hdom hn hfit hspace hd hr hm).trans (by rw [hput]))
    subst hd
    obtain ⟨hframe, hbytes, hsame, hpois⟩ := linePut_holds (poison := poison) ha hn hfit hm hp hdim
    generalize linePut s off first data poison = u at *
    have hhost : u.host = s.host := by rw [hframe]; rfl
    rw [dpAdvance_eq] at hrun
    refine ⟨_, hrun, ?_, hbytes, hsame, hpois, ?_⟩
    · rw [hframe]
      rfl
    · show { u.host with dpAddr := addrAfter u first data.length } = _
      rw [addrAfter_congr (s := s) (by rw [hhost]) (by rw [hhost]), hhost]
      rfl
  · have hget : portAccess s off none first n [] = emit (afterRead s (off / 256 * 256) 256) (.busData (rawBytes s (off + first) n) false) := by
      rw [hserve none (by show dimLine s (64 * (off / 64)) 64 = none; rw [hline]; exact hdim)]
      refine (if_pos hr).trans ?_
      rw [hline]
      have hg : localGet s off (off + first) n = ⟨rawBytes s off 64, false, 0⟩ := by
        unfold localGet
        rcases hm with h | h
        · have hbad : nsHas s.lpddrBad (off / 64) = false := (linePoison_clean (by rw [hline]; exact lt_of_lpddr h) (by rw [hline]; exact hp)).2
          rw [h, hp]
          dsimp only
          rw [hbad]
          rfl
        · rw [h, hp]
      show (if (localGet s off (off + first) n).poison then _ else emit (afterRead s (off / 256 * 256) 256)
        (.busData (((localGet s off (off + first) n).bytes.drop first).take n) (localGet s off (off + first) n).poison)) = _
      rw [hg, rawBytes_slice ha hn hfit (memRegion_place hm)]
      rfl
    have hrun : exec (.dataPortRead first ⟨n, []⟩) s = .next (dpAdvance (emit (afterRead s (off / 256 * 256) 256)
        (.busData (rawBytes s (off + first) n) false)) first n) :=
      congrArg Host.Outcome.next ((dataRead_memory hdom hn hfit hspace hr hm []).trans (by rw [hget]))
    have hafter : afterRead s (off / 256 * 256) 256 = { s with free := (afterRead s (off / 256 * 256) 256).free } := by
      unfold afterRead
      split <;> rfl
    rw [dpAdvance_eq] at hrun
    generalize afterRead s (off / 256 * 256) 256 = u at *
    have hhost : (emit u (.busData (rawBytes s (off + first) n) false)).host = s.host := by rw [hafter]; rfl
    refine ⟨_, hrun, ?_, ?_⟩
    · rw [hafter]
      rfl
    · generalize hw : emit u (.busData (rawBytes s (off + first) n) false) = w at *
      show { w.host with dpAddr := addrAfter w first n } = _
      rw [addrAfter_congr (s := s) (by rw [hhost]) (by rw [hhost]), hhost]
      rfl

end

end

end Sys2Proof.Machine

/-!
The data port on lines the host may cache, on Dim channels and on reserved offsets, and in the host's transfers (R18, R176, R327, R344).
-/

namespace Sys2Proof.Machine

section
variable {s : State} {off first n : Nat} {data : Bytes} {poison : Bool}

/-! ### Back-invalidation (R327) -/

theorem backInvalidate_one {line : Nat} (read : Bool) (ht : tracked s line = true) :
    backInvalidate s read [line] = { s with out := (backInvalidate s read [line]).out, host := (backInvalidate s read [line]).host }
    ∧ (backInvalidate s read [line]).host.waits = s.host.waits
    ∧ (backInvalidate s read [line]).host.bisnp.any (fun b => b.1 == line) = true := by
  by_cases hb : s.host.bisnp.any (fun b => b.1 == line) = true
  · have he : backInvalidate s read [line] = s := if_neg (by simp [hb])
    rw [he]
    exact ⟨rfl, rfl, hb⟩
  · have he : backInvalidate s read [line] = { emit s (.backInvalidate line read) with host := { s.host with
        bisnp := s.host.bisnp ++ [(line, s.now)], bisnpBad := s.host.bisnpBad.erase line } } := if_pos (by simp [ht, hb])
    rw [he]
    refine ⟨rfl, rfl, ?_⟩
    show (s.host.bisnp ++ [(line, s.now)]).any (fun b => b.1 == line) = true
    rw [List.any_append]
    simp

section
variable (hdom : s.host.domain = false) (hn : 0 < n) (hfit : first + n ≤ 64) (hspace : spaceOf s.host.dpAddr = .localOff off)
include hdom hn hfit hspace

/-- An access to a line the host may cache waits for its back-invalidation. -/
theorem dataPort_tracked (hd : n = data.length) (hr : isReady s = true) (hl : regionOf s off = .lpddr) (ht : dpTracked s off = true) :
    (∃ t, exec (.dataPortWrite first data poison) s = .next t ∧ t = { s with out := t.out, host := t.host }
      ∧ t.host.waits = s.host.waits ++ [.dataPort (off / 64) (some (data, poison)) first n []]
      ∧ t.host.bisnp.any (fun b => b.1 == off / 64) = true)
    ∧ ∀ ev, ∃ t, exec (.dataPortRead first ⟨n, ev⟩) s = .next t ∧ t = { s with out := t.out, host := t.host }
      ∧ t.host.waits = s.host.waits ++ [.dataPort (off / 64) none first n ev]
      ∧ t.host.bisnp.any (fun b => b.1 == off / 64) = true := by
  have htr : tracked s (off / 64) = true := by
    unfold dpTracked at ht
    simp only [Bool.and_eq_true] at ht
    exact ht.2
  have hpark (w : Option (Bytes × Bool)) (ev : List LineEvent) : portAccess s off w first n ev
      = parkHost (backInvalidate s w.isNone [off / 64]) (.dataPort (off / 64) w first n ev) := if_pos ht
  have hfacts (w : Option (Bytes × Bool)) (ev : List LineEvent) : dpAdvance (portAccess s off w first n ev) first n
        = { s with out := (dpAdvance (portAccess s off w first n ev) first n).out
                   host := (dpAdvance (portAccess s off w first n ev) first n).host }
      ∧ (dpAdvance (portAccess s off w first n ev) first n).host.waits = s.host.waits ++ [.dataPort (off / 64) w first n ev]
      ∧ (dpAdvance (portAccess s off w first n ev) first n).host.bisnp.any (fun b => b.1 == off / 64) = true := by
    obtain ⟨h1, h2, h3⟩ := backInvalidate_one w.isNone htr
    rw [hpark, dpAdvance_eq]
    generalize backInvalidate s w.isNone [off / 64] = u at *
    refine ⟨?_, congrArg (· ++ _) h2, h3⟩
    rw [h1]
    rfl
  constructor
  · obtain ⟨h1, h2, h3⟩ := hfacts (some (data, poison)) []
    exact ⟨_, congrArg Host.Outcome.next (dataWrite_memory hdom hn hfit hspace hd hr (Or.inl hl)), h1, h2, h3⟩
  · intro ev
    obtain ⟨h1, h2, h3⟩ := hfacts none ev
    exact ⟨_, congrArg Host.Outcome.next (dataRead_memory hdom hn hfit hspace hr (Or.inl hl) ev), h1, h2, h3⟩

/-- A read of a line on a Dim channel waits, and is counted. -/
theorem dataPort_dim (hr : isReady s = true) (hl : regionOf s off = .lpddr) (ha : off % 64 = 0) (ht : dpTracked s off = false)
    (hdim : (dimLine s off 64).isSome = true) (ev : List LineEvent) :
    ∃ t, exec (.dataPortRead first ⟨n, ev⟩) s = .next t ∧ t = { s with dic := t.dic, host := t.host }
      ∧ t.host.waits = s.host.waits ++ [.dataPort (off / 64) none first n ev] ∧ Counted s t Obj.memDimStalledRequests 1
      ∧ SameObjs s t [Obj.memDimStalledRequests] := by
  obtain ⟨l, hld⟩ := Option.isSome_iff_exists.mp hdim
  have hheld : heldLine s (.dataPort (off / 64) none first n ev) = some l := by
    show dimLine s (64 * (off / 64)) 64 = some l
    rw [show 64 * (off / 64) = off by omega]
    exact hld
  have hpark : portAccess s off none first n ev
      = parkHost (objInc s Obj.memDimStalledRequests) (.dataPort (off / 64) none first n ev) := by
    unfold portAccess hostAccess
    dsimp only
    rw [ht, if_neg Bool.false_ne_true, hheld]
  have hrun : exec (.dataPortRead first ⟨n, ev⟩) s = .next (dpAdvance (portAccess s off none first n ev) first n) :=
    congrArg Host.Outcome.next (dataRead_memory hdom hn hfit hspace hr (Or.inl hl) ev)
  rw [hpark, dpAdvance_eq] at hrun
  exact ⟨_, hrun, rfl, rfl, objGet_objInc_self s _, (((SameObjs.refl s _).objInc _ (List.mem_cons_self ..)).of_dic rfl)⟩

/-- An access to a reserved offset is counted, and sets AddrError. -/
theorem dataPort_reserved (hd : n = data.length) (hr : isReady s = true) (hres : regionOf s off = .reserved) :
    (∃ t, exec (.dataPortWrite first data poison) s = .next t ∧ t = { s with dic := t.dic, host := t.host }
      ∧ t.host = { s.host with addrError := true } ∧ Counted s t (fabAddrErrorKey (homeHalf s off)) 1
      ∧ SameObjs s t [fabAddrErrorKey (homeHalf s off)])
    ∧ ∀ ev, ∃ t, exec (.dataPortRead first ⟨n, ev⟩) s = .next t
      ∧ t = { s with dic := t.dic, host := { s.host with addrError := true },
                     out := s.out ++ [.busData (List.replicate n 0) false] }
      ∧ Counted s t (fabAddrErrorKey (homeHalf s off)) 1 ∧ SameObjs s t [fabAddrErrorKey (homeHalf s off)] := by
  have hlocal : ¬ (!dpLocalOk s) = true := by
    show ¬ (!isReady s) = true
    simp [hr]
  have hcount : countReserved s [off] = countAddrError s off := if_pos hres
  have hput : localPutOk s off (maskFrom first n) = false := by
    unfold localPutOk
    rw [hres]
  have hget : (localGet s off (off + first) n).cause = 6 := by
    unfold localGet
    rw [hres]
  have hobjs : Counted s (countAddrError s off) (fabAddrErrorKey (homeHalf s off)) 1
      ∧ SameObjs s (countAddrError s off) [fabAddrErrorKey (homeHalf s off)] :=
    ⟨objGet_objInc_self s _, (SameObjs.refl s _).objInc _ (List.mem_cons_self ..)⟩
  constructor
  · refine ⟨addrErr (countAddrError s off), congrArg Host.Outcome.next ((dataWrite_local hdom hn hfit hspace hd).trans ?_), rfl, rfl,
      hobjs.1, hobjs.2.of_dic rfl⟩
    rw [if_neg hlocal, if_pos (by simp [hput]), hcount]
  · intro ev
    refine ⟨emit (addrErr (countAddrError s off)) (.busData (List.replicate n 0) false),
      congrArg Host.Outcome.next ((dataRead_local hdom hn hfit hspace ev).trans ?_), rfl, hobjs.1, hobjs.2.of_dic rfl⟩
    rw [if_neg hlocal, if_pos hget, hcount]

end

/-! ### The host's transfers (R344) -/

theorem hostXfer_updXfer {x : Xfer} {key : Nat} {f : Xfer → Xfer} (hf : ∀ y : Xfer, (f y).byHost = y.byHost ∧ (f y).key = y.key)
    (h : hostXfer s key = some x) : hostXfer (updXfer s x.handle f) key = some (f x) := by
  unfold hostXfer updXfer at *
  dsimp only
  rw [List.find?_map]
  have hsame : ((fun (y : Xfer) => y.byHost && y.key == key) ∘ fun (y : Xfer) => if y.handle = x.handle then f y else y)
      = fun (y : Xfer) => y.byHost && y.key == key := by
    funext y
    rw [Function.comp]
    split
    · rw [(hf y).1, (hf y).2]
    · rfl
  rw [hsame, h]
  exact congrArg some (if_pos rfl)

section
variable {x : Xfer} {at_ : Nat} (hdom : s.host.domain = true) (hn : 0 < n) (hfit : first + n ≤ 64)
  (hx : hostXfer s (dpKey s.host.dpAddr) = some x) (hok : dpDomainOk s = true) (hat : at_ = dpOff s.host.dpAddr + first)
  (hin : at_ + n ≤ x.size)
include hdom hn hfit hx hok hat hin

theorem domainWrite_holds (hd : n = data.length) (hw : x.write = true) (hk : x.key ≠ Obj.firmwareBank) :
    ∃ t y, exec (.dataPortWrite first data false) s = .next t ∧ t = { s with mgmt := t.mgmt, host := t.host }
      ∧ t.mgmt = { s.mgmt with xfers := t.mgmt.xfers } ∧ hostXfer t (dpKey s.host.dpAddr) = some y
      ∧ y = { x with image := y.image, got := max x.got (at_ + n), last := s.now }
      ∧ (∀ i, i < n → smGet y.image (at_ + i) = some (data.getD i 0))
      ∧ (∀ k, k < at_ ∨ at_ + n ≤ k → smGet y.image k = smGet x.image k) := by
  subst hat hd
  have htake : data.take (x.size - (dpOff s.host.dpAddr + first)) = data := List.take_of_length_le (by omega)
  have hne : data.isEmpty = false := by
    rw [List.isEmpty_eq_false_iff, ← List.length_pos_iff]
    exact hn
  have hrun : dataWrite s first data false
      = dpAdvance (updXfer s x.handle (filled s.now (dpOff s.host.dpAddr + first) data)) first data.length := by
    unfold dataWrite
    dsimp only
    rw [if_neg (by omega), hdom, if_pos rfl, hx]
    dsimp only
    rw [if_neg (by simp [hok, hw, inOrder, hk]; omega), writeSegment_eq s x _ data hk, htake, if_pos hin]
  have hy := hostXfer_updXfer (s := s) (f := filled s.now (dpOff s.host.dpAddr + first) data) (fun _ => ⟨rfl, rfl⟩) hx
  have hgot : filled s.now (dpOff s.host.dpAddr + first) data x = { x with
      image := putImage x.image (dpOff s.host.dpAddr + first) data
      got := max x.got (dpOff s.host.dpAddr + first + data.length), last := s.now } := by
    unfold filled
    rw [hne]
    rfl
  rw [dpAdvance_eq] at hrun
  refine ⟨_, _, congrArg Host.Outcome.next hrun, rfl, rfl, hy, ?_, fun i hi => ?_, fun k hk => ?_⟩
  · rw [hgot]
  · rw [hgot]
    refine (smGet_putImage data x.image _ _).trans ((if_pos (by omega)).trans ?_)
    rw [Nat.add_sub_cancel_left]
  · rw [hgot]
    exact (smGet_putImage data x.image _ _).trans (if_neg (by omega))

theorem domainRead_holds (hw : x.write = false) (ev : List LineEvent) :
    ∃ t, exec (.dataPortRead first ⟨n, ev⟩) s = .next t
      ∧ t = { s with mgmt := t.mgmt, host := t.host,
                     out := s.out ++ [.busData ((List.range n).map (fun i => smGetD x.image (at_ + i) 0)) false] } := by
  subst hat
  have hbytes : padTo n (readSegment x (dpOff s.host.dpAddr + first) n)
      = (List.range n).map (fun i => smGetD x.image (dpOff s.host.dpAddr + first + i) 0) := by
    unfold padTo readSegment
    rw [Nat.min_eq_left (by omega), List.take_append_of_le_length (by simp), List.take_of_length_le (by simp)]
  have hrun : dataRead s first n ev = dpAdvance (emit (updXfer s x.handle (fun y => { y with last := s.now }))
      (.busData ((List.range n).map (fun i => smGetD x.image (dpOff s.host.dpAddr + first + i) 0)) false)) first n := by
    unfold dataRead
    dsimp only
    rw [if_neg (by omega), hdom, if_pos rfl, hx]
    dsimp only
    rw [if_neg (by simp [hok, hw]; omega), hbytes]
  rw [dpAdvance_eq] at hrun
  exact ⟨_, congrArg Host.Outcome.next hrun, rfl⟩

end

end

end Sys2Proof.Machine

/-!
Accesses through BAR2 (R321); O36 settled.
-/

namespace Sys2Proof.Machine

section
variable {s : State} {off o n : Nat} {data : Bytes} {poison : Bool}

/-- The bytes an access covers. -/
def accessLen : HostAccess → Nat
  | .read k _ => k
  | .write bs _ => bs.length

/-- What an access at a reserved offset does (R18). -/
def unplaced (s : State) (o : Nat) : HostAccess → State
  | .read k _ => openData (countAddrError s o) k
  | .write _ _ => countAddrError s o

theorem bar2_eq (s : State) (off : Nat) (a : HostAccess) : bar2 s off a =
    if !isReady s || accessLen a = 0 || decide (s.host.bar2GiB * 2 ^ 30 < off + accessLen a) then s
    else if !plainRun s (s.host.bar2Base + off) (accessLen a) then
      unplaced s (s.host.bar2Base + off) a
    else hostAccess s (.bar2 (s.host.bar2Base + off) a) := by
  cases a <;> rfl

theorem bar2_outside (a : HostAccess) (h : isReady s = false ∨ accessLen a = 0 ∨ s.host.bar2GiB * 2 ^ 30 < off + accessLen a) :
    exec (.bar2Access off a) s = .next s := by
  refine congrArg Host.Outcome.next ((bar2_eq s off a).trans (if_pos ?_))
  rcases h with h | h | h
  · simp [h]
  · simp [h]
  · rw [decide_eq_true h, Bool.or_true]

section
variable (ho : o = s.host.bar2Base + off) (hr : isReady s = true) (hn : 0 < n) (hfit : off + n ≤ s.host.bar2GiB * 2 ^ 30)
include ho hr hn hfit

theorem bar2_inside (a : HostAccess) (ha : accessLen a = n) : exec (.bar2Access off a) s = .next (
    if !plainRun s o n then
      unplaced s o a
    else hostAccess s (.bar2 o a)) := by
  subst ho ha
  refine congrArg Host.Outcome.next ((bar2_eq s off a).trans (if_neg fun hc => ?_))
  rcases (Bool.or_eq_true _ _).mp hc with hc | hc
  · rcases (Bool.or_eq_true _ _).mp hc with hc | hc
    · simp [hr] at hc
    · exact absurd (of_decide_eq_true hc) (Nat.ne_of_gt hn)
  · exact absurd (of_decide_eq_true hc) (Nat.not_lt.mpr hfit)

theorem bar2_reserved (hp : plainRun s o n = false) (ev : List LineEvent) :
    ∃ t, exec (.bar2Access off (.read n ev)) s = .next t
      ∧ t = { s with dic := t.dic, free := s.free + ceilDiv n 8,
                     out := s.out ++ [.busData ((List.range n).map (freeByteAt s)) true] }
      ∧ Counted s t (fabAddrErrorKey (homeHalf s o)) 1 ∧ SameObjs s t [fabAddrErrorKey (homeHalf s o)] :=
  ⟨_, (bar2_inside ho hr hn hfit (.read n ev) rfl).trans (congrArg Host.Outcome.next (if_pos (by simp [hp]))), rfl,
    objGet_objInc_self s _, ((SameObjs.refl s _).objInc _ (List.mem_cons_self ..)).of_dic rfl⟩

theorem bar2_plain (hp : plainRun s o n = true) (a : HostAccess) (ha : accessLen a = n)
    (hheld : heldLine s (.bar2 o a) = none) : exec (.bar2Access off a) s = .next (serveHost s (.bar2 o a)) := by
  refine (bar2_inside ho hr hn hfit a ha).trans (congrArg Host.Outcome.next ((if_neg (by simp [hp])).trans ?_))
  unfold hostAccess
  rw [hheld]

theorem bar2_read (hp : plainRun s o n = true) (hd : dimLine s o n = none) (hb : runBad s o n = false) :
    exec (.bar2Access off (.read n [])) s = .next { s with out := s.out ++ [.busData (rawBytes s o n) (runPoison s o n)] } := by
  refine (bar2_plain ho hr hn hfit hp (.read n []) rfl hd).trans (congrArg Host.Outcome.next ?_)
  have hbytes : readBytes s o n = rawBytes s o n := if_neg (by simp [hb])
  have hafter : afterRead s o n = s := if_neg (by simp [hb])
  refine (if_pos hr).trans ?_
  show emit (afterRead s o n) (.busData (readBytes s o n) (runPoison s o n)) = _
  rw [hafter, hbytes]
  rfl

theorem bar2_write (hl : n = data.length) (hp : plainRun s o n = true) (hd : dimLine s o n = none) (hq : runPoison s o n = false) :
    ∃ t, exec (.bar2Access off (.write data poison)) s = .next t
      ∧ t = { s with tile := t.tile, tilePoison := t.tilePoison, lpddr := t.lpddr, lpddrPoison := t.lpddrPoison,
                     lpddrBad := t.lpddrBad, chans := t.chans }
      ∧ rawBytes t o n = data ∧ SameMemoryBut s t o n := by
  have hrun : exec (.bar2Access off (.write data poison)) s = .next (writeBytes s o data poison) :=
    (bar2_plain ho hr hn hfit hp (.write data poison) hl.symm (by rw [hl] at hd; exact writeRoom_of_dim hd)).trans
      (congrArg Host.Outcome.next (if_pos hr))
  refine ⟨_, hrun, ?_⟩
  rcases plainRun_cases hp with ⟨h1, h2⟩ | ⟨h1, h2⟩
  · have hlo := lt_of_lpddr h1
    have hhi := lt_of_lpddr h2
    subst hl
    obtain ⟨ps, bs, cs, hw⟩ := writeBytes_clear poison (fun x hx1 hx2 => cleanLine_of_run hq hd hx1 hx2 (by omega)) (by omega)
    rw [hw]
    obtain ⟨hbytes, hsame⟩ := run_of_lpddr (s := s)
      (t := { s with lpddr := memStore s.lpddr o data, lpddrPoison := ps, lpddrBad := bs, chans := cs }) hlo rfl rfl
    exact ⟨rfl, hbytes, hsame⟩
  · obtain ⟨hge, -⟩ := ge_of_tile h1
    have hkeep := writeBytes_tile_keeps (putFoot · (writeBytes s o data poison)) (fun _ _ => rfl) s o data poison hge
    have hlp := writeBytes_tile_keeps State.lpddr (fun _ _ => rfl) s o data poison hge
    have htile := writeBytes_tile s o data poison hge
    generalize writeBytes s o data poison = t at *
    subst hl
    obtain ⟨hbytes, hsame⟩ := run_of_tile (s := s) (t := t) hge htile hlp
    exact ⟨hkeep, hbytes, hsame⟩

end

end

/-- Settles O36: each register and port has its own clause; what the port moves is the line or the transfer it names. -/
theorem hostRegistersAndPortsServed : Obligations.HostRegistersAndPortsServed := by
  unfold Obligations.HostRegistersAndPortsServed
  refine ⟨fun c s h => congrArg Host.Outcome.next (if_pos h), fun reg s h => configRead_holds reg h,
    fun on s h => configEnable_holds on h,
    fun s hb => ⟨fun h => mailboxUnknown_ends hb h, fun h => mailboxUnknown_not (Or.inr h)⟩,
    fun s h => mailboxUnknown_not (Or.inl h), fun v s h => msixUnmask_one h, msixUnmask_all,
    fun v s hv hg => goWrite_holds hv hg, fun i v s hi hv => argWrite_holds hi hv, fun v s hv => statusWrite_holds hv,
    fun off n v s h => reservedWrite_holds h, fun d v s hd hv => tableWrite_holds hd hv, fun o b s ho _ => payloadWrite_holds b ho,
    fun first off n data poison s hdom hd hn hfit hsp =>
      ⟨fun hr => dataPort_notReady hdom hn hfit hsp hd hr,
        fun hr hm ha ht hp hdim _ => dataPort_memory hdom hn hfit hsp hd hr hm ha ht hp hdim,
        fun hr hl _ ht => dataPort_tracked hdom hn hfit hsp hd hr hl ht,
        fun hr hl ha ht hdim ev => dataPort_dim hdom hn hfit hsp hr hl ha ht hdim ev,
        fun hr hres => dataPort_reserved hdom hn hfit hsp hd hr hres⟩,
    fun first n at_ data s x hdom hd hn hfit hx hok hat hin =>
      ⟨fun hw hk => domainWrite_holds hdom hn hfit hx hok hat hin hd hw hk,
        fun hw ev => domainRead_holds hdom hn hfit hx hok hat hin hw ev⟩,
    fun off o n data poison s ho hl => ⟨fun hr => ⟨bar2_outside _ (Or.inl hr), fun ev => bar2_outside _ (Or.inl hr)⟩, fun hz => ?_,
      fun hr hn hfit hp ev => bar2_reserved ho hr hn hfit hp ev, fun hr hn hfit hp hd =>
        ⟨fun hb => bar2_read ho hr hn hfit hp hd hb, fun hq _ => bar2_write ho hr hn hfit hl hp hd hq⟩⟩⟩
  exact ⟨bar2_outside (.write data poison) (Or.inr (by subst hl; exact hz)), fun ev => bar2_outside (.read n ev) (Or.inr hz)⟩

end Sys2Proof.Machine

/-!
Packets that leave a router: dropped, or sent on a link (R254 to R257).
-/

namespace Sys2Proof.Machine

section
variable {s : State} {h : Half} {id : Nat} {x : Held}

theorem heldOf_id (hx : heldOf s h id = some x) : x.id = id := by
  simpa using List.find?_some hx

/-! ### A packet's buffer freed -/

/-- The packets a router holds besides one. -/
theorem leaveRouter_frame (s : State) (h : Half) (x : Held) : leaveRouter s h x = { s with
    links := (leaveRouter s h x).links, routerW := (leaveRouter s h x).routerW, routerE := (leaveRouter s h x).routerE } :=
  leaveRouter_keeps (footLinksRouterWRouterE · (leaveRouter s h x)) (fun _ _ => rfl) s h x

/-- Credits owed change no router. -/
theorem routerOf_oweCredit (s : State) (k : Nat) (p : Packet) (h : Half) : routerOf (oweCredit s k p) h = routerOf s h := by
  unfold oweCredit
  split
  · rfl
  · cases h <;> rfl

theorem linkOf_oweCredit_ne (s : State) (p : Packet) {k n : Nat} (hn : n ≠ k) : linkOf (oweCredit s k p) n = linkOf s n := by
  unfold oweCredit
  split
  · rfl
  · exact linkOf_updLink_ne s k n _ hn

theorem unacked_updLink (s : State) (k n : Nat) (f : Link → Link) (hf : ∀ l, (f l).unacked = l.unacked) :
    (linkOf (updLink s k f) n).unacked = (linkOf s n).unacked := by
  by_cases hn : n = k
  · subst hn
    exact linkField_updLink Link.unacked s n f hf
  · rw [linkOf_updLink_ne s k n f hn]

theorem unacked_oweCredit (s : State) (k n : Nat) (p : Packet) : (linkOf (oweCredit s k p) n).unacked = (linkOf s n).unacked := by
  unfold oweCredit
  split
  · rfl
  · exact unacked_updLink s k n _ (fun _ => rfl)

/-- What the packet leaves behind in its router. -/
def heldWithout (r : Router) (i : Nat) : Router := { r with held := r.held.filter (fun (y : Held) => y.id != i) }

theorem routerOf_leaveRouter (s : State) (h : Half) (x : Held) :
    routerOf (leaveRouter s h x) h = heldWithout (routerOf s h) x.id := by
  unfold leaveRouter
  dsimp only
  split
  · split
    · rw [routerOf_oweCredit, routerOf_updRouter_self]
      rfl
    · exact routerOf_updRouter_self s h _
  · exact routerOf_updRouter_self s h _

theorem routerOf_leaveRouter_other (s : State) (h : Half) (x : Held) :
    routerOf (leaveRouter s h x) (otherHalf h) = routerOf s (otherHalf h) := by
  unfold leaveRouter
  dsimp only
  split
  · split
    · rw [routerOf_oweCredit, routerOf_updRouter_other]
    · exact routerOf_updRouter_other s h _
  · exact routerOf_updRouter_other s h _

theorem linkOf_updRouter (s : State) (h : Half) (f : Router → Router) (n : Nat) : linkOf (updRouter s h f) n = linkOf s n := by
  cases h <;> rfl

theorem linkOf_leaveRouter (s : State) (h : Half) {n : Nat} (hn : x.from_ ≠ some n) :
    linkOf (leaveRouter s h x) n = linkOf s n := by
  unfold leaveRouter
  dsimp only
  split
  next k hk =>
    split
    · rw [linkOf_oweCredit_ne _ _ (fun he => hn (hk.trans (congrArg some he.symm))), linkOf_updRouter]
    · exact linkOf_updRouter s h _ n
  next => exact linkOf_updRouter s h _ n

theorem unacked_leaveRouter (s : State) (h : Half) (x : Held) (n : Nat) :
    (linkOf (leaveRouter s h x) n).unacked = (linkOf s n).unacked := by
  unfold leaveRouter
  dsimp only
  split
  · split
    · rw [unacked_oweCredit, linkOf_updRouter]
    · rw [linkOf_updRouter]
  · rw [linkOf_updRouter]

/-! ### A packet dropped -/

/-- The answer to the source of a dropped request. -/
def dropReply (s : State) (h : Half) (p : Packet) (status : Nat) : State :=
  match p.body with
  | .req _ tag _ => replyTo s h p tag status 0 []
  | _ => s

theorem dropPacket_eq (s : State) (h : Half) (x : Held) (c st : Nat) :
    dropPacket s h x c st = dropReply (objInc (leaveRouter s h x) c) h x.p st := rfl

theorem dropPacket_frame (s : State) (h : Half) (x : Held) (c st : Nat) : dropPacket s h x c st = { s with
    dic := (dropPacket s h x c st).dic, links := (dropPacket s h x c st).links,
    routerW := (dropPacket s h x c st).routerW, routerE := (dropPacket s h x c st).routerE } :=
  dropPacket_keeps (foot4_6 · (dropPacket s h x c st)) (fun _ _ => rfl) s h x c st

theorem dropReply_dic (s : State) (h : Half) (p : Packet) (st : Nat) : (dropReply s h p st).dic = s.dic := by
  unfold dropReply
  split
  · exact replyTo_keeps State.dic (fun _ _ => rfl) ..
  · rfl

theorem leaveRouter_dic (s : State) (h : Half) (x : Held) : (leaveRouter s h x).dic = s.dic :=
  leaveRouter_keeps State.dic (fun _ _ => rfl) s h x

theorem dropPacket_dic (s : State) (h : Half) (x : Held) (c st : Nat) : (dropPacket s h x c st).dic = (objInc s c).dic := by
  rw [dropPacket_eq, dropReply_dic]
  exact congrArg (fun u : SMap Nat => (objInc { s with dic := u } c).dic) (leaveRouter_dic s h x)

theorem counted_dropPacket (s : State) (h : Half) (x : Held) (c st : Nat) : Counted s (dropPacket s h x c st) c 1 :=
  (congrArg (fun u : SMap Nat => objGet { s with dic := u } c) (dropPacket_dic s h x c st)).trans (objGet_objInc_self s c)

theorem sameObjs_dropPacket (s : State) (h : Half) (x : Held) (c st : Nat) : SameObjs s (dropPacket s h x c st) [c] :=
  ((SameObjs.refl s _).objInc c List.mem_cons_self).of_dic (dropPacket_dic s h x c st)

/-- What a reply adds to its router. -/
theorem held_replyTo (s : State) (h : Half) (p : Packet) (tag st mask : Nat) (data : Bytes) :
    (routerOf (replyTo s h p tag st mask data) h).held = (routerOf s h).held ++
      [{ id := (routerOf s h).nextId, from_ := none, since := s.now, copies := none
         p := { mkPacket s p.src 4 (routerOf s h).seqReply p.pathHash (.rep tag st mask data) with echo := p.mark } }] := by
  cases h <;> rfl

theorem held_dropReply (s : State) (h : Half) (p : Packet) (st : Nat) :
    ∃ new, (routerOf (dropReply s h p st) h).held = (routerOf s h).held ++ new ∧ ∀ y ∈ new, y.p.dest = p.src ∧ y.p.vc = 4 := by
  unfold dropReply
  split
  · exact ⟨_, held_replyTo .., fun y hy => by cases List.mem_singleton.1 hy; exact ⟨rfl, rfl⟩⟩
  · exact ⟨[], (List.append_nil _).symm, fun y hy => absurd hy List.not_mem_nil⟩

theorem held_dropPacket (s : State) (h : Half) (x : Held) (c st : Nat) :
    ∃ new, (routerOf (dropPacket s h x c st) h).held = (routerOf s h).held.filter (fun (y : Held) => y.id != x.id) ++ new
      ∧ ∀ y ∈ new, y.p.dest = x.p.src ∧ y.p.vc = 4 := by
  obtain ⟨new, hnew, hall⟩ := held_dropReply (objInc (leaveRouter s h x) c) h x.p st
  refine ⟨new, hnew.trans ?_, hall⟩
  rw [routerOf_objInc, routerOf_leaveRouter]
  rfl

/-! ### A copy sent -/

/-- The state once a marked packet is counted. -/
def markCounted (s : State) (k vc : Nat) : State := if marks s k vc then objInc s Obj.congMarks else s

/-- The credits a packet takes at the other end of its link. -/
def creditTaken (s : State) (k vc c : Nat) : State :=
  if vc = 0 then s else updLink s k (fun l => { l with occ := l.occ.modify vc (· + c) })

theorem markCounted_frame (s : State) (k vc : Nat) : markCounted s k vc = { s with dic := (markCounted s k vc).dic } := by
  unfold markCounted
  split <;> rfl

theorem creditTaken_frame (s : State) (k vc c : Nat) : creditTaken s k vc c = { s with links := (creditTaken s k vc c).links } := by
  unfold creditTaken
  split <;> rfl

/-- What a link keeps when the occupancy of its buffers changes. -/
def lanesOf (l : Link) : Link := { l with occ := [], deficit := [], tx := [] }

theorem lanesOf_updLink (s : State) (k n : Nat) (f : Link → Link) (hf : ∀ l, lanesOf (f l) = lanesOf l) :
    lanesOf (linkOf (updLink s k f) n) = lanesOf (linkOf s n) := by
  by_cases hn : n = k
  · subst hn
    exact linkField_updLink lanesOf s n f hf
  · rw [linkOf_updLink_ne s k n f hn]

theorem lanesOf_creditTaken (s : State) (k vc c n : Nat) : lanesOf (linkOf (creditTaken s k vc c) n) = lanesOf (linkOf s n) := by
  unfold creditTaken
  split
  · rfl
  · exact lanesOf_updLink s k n _ (fun _ => rfl)

theorem linkHalf_congr {s t : State} {k : Nat} (hl : lanesOf (linkOf t k) = lanesOf (linkOf s k)) : linkHalf t k = linkHalf s k := by
  unfold linkHalf
  rw [show (linkOf t k).outLanes = (linkOf s k).outLanes from (congrArg Link.outLanes hl :)]

theorem sendCopy_eq (s : State) (h : Half) (k vc : Nat) (x : Held) :
    sendCopy s h k vc x =
      if linkHalf (creditTaken (markCounted s k vc) k vc (creditsOf (leaving s k vc x))) k = h then
        linkSend (creditTaken (markCounted s k vc) k vc (creditsOf (leaving s k vc x))) k (leaving s k vc x)
      else putCrossing (creditTaken (markCounted s k vc) k vc (creditsOf (leaving s k vc x)))
        { p := leaving s k vc x, link := some k, to_ := otherHalf h } := rfl

/-- Two lanes of a link have room for flits while one is in service. -/
theorem laneFor_packets {l : Link} {ps : List Packet} (hl : l.outLanes.any laneUp = true) :
    (laneFor l (.packets ps)).isSome = true := by
  obtain ⟨a, ha, hup⟩ := List.any_eq_true.1 hl
  unfold laneFor
  split
  next hnil =>
    have : a ∈ l.outLanes.filter (fun (a : Lane) => laneUp a && some a.idx != bodyLane (.packets ps)) :=
      List.mem_filter.2 ⟨ha, by simp [hup, bodyLane]⟩
    rw [hnil] at this
    exact absurd this List.not_mem_nil
  · rfl

/-- A flit given to a link leaves its lanes in service. -/
theorem laneUp_flitGiven (now : Nat) (b : FlitBody) (l : Link) :
    (flitGiven now b l).outLanes.any laneUp = l.outLanes.any laneUp := by
  unfold flitGiven
  split
  · rfl
  next i _ =>
    unfold enqueue
    dsimp only
    rw [List.any_map]
    refine congrArg (l.outLanes.any ·) (funext fun a => ?_)
    dsimp only [Function.comp_apply]
    split <;> rfl

theorem flitGiven_packets {l : Link} (now : Nat) (ps : List Packet) (hl : l.outLanes.any laneUp = true) :
    ∃ u ∈ (flitGiven now (.packets ps) l).unacked, u.body = .packets ps ∧ u.born = now ∧ u.sends = 1 := by
  obtain ⟨i, hi⟩ := Option.isSome_iff_exists.1 (laneFor_packets (ps := ps) hl)
  unfold flitGiven
  rw [hi]
  exact ⟨_, List.mem_append_right _ List.mem_cons_self, rfl, rfl, rfl⟩

theorem linkSend_frame (s : State) (k : Nat) (p : Packet) : linkSend s k p = { s with links := (linkSend s k p).links } :=
  linkSend_keeps (footLinks · (linkSend s k p)) (fun _ _ => rfl) s k p

theorem linkOf_linkSend_ne (s : State) (p : Packet) {k n : Nat} (hn : n ≠ k) : linkOf (linkSend s k p) n = linkOf s n := by
  unfold linkSend
  dsimp only
  split <;> split <;> simp only [sendFlit_eq, linkOf_updLink_ne _ _ _ _ hn]

theorem linkOf_sendFlit (s : State) {k : Nat} (b : FlitBody) (hk : k < s.links.length) :
    linkOf (sendFlit s k b) k = flitGiven s.now b (linkOf s k) := by
  rw [sendFlit_eq, linkOf_updLink_self s k _ hk]

/-- The first flit of a packet of two. -/
def packetBegun (s : State) (k : Nat) (p : Packet) : State := if flitsOf p = 2 then sendFlit s k (.begins p.vc) else s

/-- A packet counted as sent. -/
def packetCounted (s : State) (k : Nat) (p : Packet) : State :=
  match countClass p.vc with
  | some c => updLink s k (fun l => { l with tx := l.tx.modify c (satAdd counterMax 1) })
  | none => s

theorem linkSend_eq (s : State) (k : Nat) (p : Packet) :
    linkSend s k p = sendFlit (packetBegun (packetCounted s k p) k p) k (.packets [p]) := rfl

theorem packetCounted_link (s : State) (k : Nat) (p : Packet) : (packetCounted s k p).links.length = s.links.length
    ∧ (packetCounted s k p).now = s.now ∧ lanesOf (linkOf (packetCounted s k p) k) = lanesOf (linkOf s k) := by
  unfold packetCounted
  split
  · exact ⟨length_links_updLink .., rfl, lanesOf_updLink s k k _ (fun _ => rfl)⟩
  · exact ⟨rfl, rfl, rfl⟩

theorem packetBegun_link {s : State} {k : Nat} (p : Packet) (hk : k < s.links.length)
    (hl : (linkOf s k).outLanes.any laneUp = true) : k < (packetBegun s k p).links.length ∧ (packetBegun s k p).now = s.now
    ∧ (linkOf (packetBegun s k p) k).outLanes.any laneUp = true := by
  unfold packetBegun
  split
  · refine ⟨?_, rfl, ?_⟩
    · rw [sendFlit_eq, length_links_updLink]
      exact hk
    · rw [linkOf_sendFlit s _ hk, laneUp_flitGiven]
      exact hl
  · exact ⟨hk, rfl, hl⟩

theorem linkSend_unacked {s : State} {k : Nat} (p : Packet) (hk : k < s.links.length)
    (hl : (linkOf s k).outLanes.any laneUp = true) :
    ∃ u ∈ (linkOf (linkSend s k p) k).unacked, u.body = .packets [p] ∧ u.born = s.now ∧ u.sends = 1 := by
  obtain ⟨hlen, hnow, hlanes⟩ := packetCounted_link s k p
  have hout : (linkOf (packetCounted s k p) k).outLanes = (linkOf s k).outLanes := (congrArg Link.outLanes hlanes :)
  obtain ⟨hk', hnow', hl'⟩ := packetBegun_link (s := packetCounted s k p) p (hlen.symm ▸ hk) (by rw [hout]; exact hl)
  rw [linkSend_eq, linkOf_sendFlit _ _ hk']
  rw [hnow] at hnow'
  rw [hnow']
  exact flitGiven_packets s.now [p] hl'

end

/-! ### What a copy sent by its output changes -/

/-- A copy of a held packet sent on a link by its output. -/
structure CopySent (s t : State) (h : Half) (k vc : Nat) (x : Held) : Prop where
  frame : t = { s with dic := t.dic, links := t.links, bridge := t.bridge }
  objs : SameObjs s t [Obj.congMarks]
  mgmt : vc = 0 → t.dic = s.dic
  others : ∀ n, n ≠ k → linkOf t n = linkOf s n
  near : linkHalf s k = h → t.bridge = s.bridge
  sent : linkHalf s k = h → k < s.links.length → (linkOf s k).outLanes.any laneUp = true →
    ∃ u ∈ (linkOf t k).unacked, u.body = .packets [leaving s k vc x] ∧ u.born = s.now ∧ u.sends = 1
  far : linkHalf s k ≠ h →
    t.bridge.crossing = s.bridge.crossing ++ [{ p := leaving s k vc x, link := some k, to_ := otherHalf h }]

theorem sameObjs_markCounted (s : State) (k vc : Nat) : SameObjs s (markCounted s k vc) [Obj.congMarks] := by
  unfold markCounted
  split
  · exact (SameObjs.refl s _).objInc _ List.mem_cons_self
  · exact SameObjs.refl s _

theorem markCounted_mgmt (s : State) (k : Nat) : markCounted s k 0 = s := if_neg (by simp [marks])

theorem linkOf_creditTaken_ne (s : State) {k n : Nat} (vc c : Nat) (hn : n ≠ k) : linkOf (creditTaken s k vc c) n = linkOf s n := by
  unfold creditTaken
  split
  · rfl
  · exact linkOf_updLink_ne s k n _ hn

theorem length_creditTaken (s : State) (k vc c : Nat) : (creditTaken s k vc c).links.length = s.links.length := by
  unfold creditTaken
  split
  · rfl
  · exact length_links_updLink ..

/-- The state of a copy about to be put on its link. -/
theorem copyReady_facts (s : State) (k vc c : Nat) : ∃ u, u = creditTaken (markCounted s k vc) k vc c
    ∧ u = { s with dic := u.dic, links := u.links } ∧ SameObjs s u [Obj.congMarks] ∧ (vc = 0 → u.dic = s.dic)
    ∧ (∀ n, n ≠ k → linkOf u n = linkOf s n) ∧ lanesOf (linkOf u k) = lanesOf (linkOf s k) ∧ u.links.length = s.links.length := by
  have hm := markCounted_frame s k vc
  have hc := creditTaken_frame (markCounted s k vc) k vc c
  have hlinks : (markCounted s k vc).links = s.links := (congrArg State.links hm :)
  have hdic : (creditTaken (markCounted s k vc) k vc c).dic = (markCounted s k vc).dic := (congrArg State.dic hc :)
  refine ⟨_, rfl, ?_, (sameObjs_markCounted s k vc).of_dic hdic, fun h0 => ?_, fun n hn => ?_, ?_, ?_⟩
  · refine hc.trans ?_
    generalize (creditTaken (markCounted s k vc) k vc c).links = ls at *
    rw [hdic]
    generalize hu : markCounted s k vc = u at *
    rw [hm]
  · subst h0
    exact hdic.trans (congrArg State.dic (markCounted_mgmt s k))
  · rw [linkOf_creditTaken_ne _ vc c hn, linkOf_congr hlinks]
  · rw [lanesOf_creditTaken, linkOf_congr hlinks]
  · rw [length_creditTaken, hlinks]

theorem sendCopy_sent (s : State) (h : Half) (k vc : Nat) (x : Held) : CopySent s (sendCopy s h k vc x) h k vc x := by
  obtain ⟨u, hu, hframe, hobjs, hmgmt, hothers, hlanes, hlen⟩ := copyReady_facts s k vc (creditsOf (leaving s k vc x))
  have hout : (linkOf u k).outLanes = (linkOf s k).outLanes := (congrArg Link.outLanes hlanes :)
  have hhalf := linkHalf_congr hlanes
  have hbridge : u.bridge = s.bridge := (congrArg State.bridge hframe :)
  have hnow : u.now = s.now := (congrArg State.now hframe :)
  rw [sendCopy_eq, ← hu, hhalf]
  by_cases hh : linkHalf s k = h
  · rw [if_pos hh]
    have hsend := linkSend_frame u k (leaving s k vc x)
    have hdic : (linkSend u k (leaving s k vc x)).dic = u.dic := (congrArg State.dic hsend :)
    have hbr : (linkSend u k (leaving s k vc x)).bridge = s.bridge := (congrArg State.bridge hsend :).trans hbridge
    refine ⟨?_, hobjs.of_dic hdic, fun h0 => hdic.trans (hmgmt h0),
      fun n hn => (linkOf_linkSend_ne u _ hn).trans (hothers n hn), fun _ => hbr, fun _ hk hl => ?_, fun hne => absurd hh hne⟩
    · rw [hdic, hbr]
      refine hsend.trans ?_
      generalize (linkSend u k (leaving s k vc x)).links = ls
      rw [hframe]
    · have := linkSend_unacked (s := u) (leaving s k vc x) (hlen.symm ▸ hk) (by rw [hout]; exact hl)
      rw [hnow] at this
      exact this
  · rw [if_neg hh]
    refine ⟨?_, hobjs.of_dic rfl, hmgmt, fun n hn => hothers n hn, fun he => absurd he hh, fun he => absurd he hh, fun _ => ?_⟩
    · show putCrossing u _ = { s with dic := u.dic, links := u.links, bridge := (putCrossing u _).bridge }
      generalize hb : (putCrossing u { p := leaving s k vc x, link := some k, to_ := otherHalf h }).bridge = b
      have hp : putCrossing u { p := leaving s k vc x, link := some k, to_ := otherHalf h } = { u with bridge := b } := by
        rw [← hb]
        rfl
      rw [hp, hframe]
    · exact congrArg (fun b : Bridge => b.crossing ++ [({ p := leaving s k vc x, link := some k, to_ := otherHalf h } : Crossing)]) hbridge

/-- Shares of an output spent. -/
theorem setDeficit_facts (s : State) (h : Half) (k : Nat) (d : List Nat) : ∃ u, u = setDeficit s h k d
    ∧ u = { s with links := u.links, bridge := u.bridge } ∧ u.bridge.crossing = s.bridge.crossing
    ∧ (linkHalf s k = h → u.bridge = s.bridge) ∧ (∀ n, n ≠ k → linkOf u n = linkOf s n)
    ∧ (linkOf u k = { linkOf s k with deficit := (linkOf u k).deficit }) ∧ u.links.length = s.links.length := by
  refine ⟨_, rfl, ?_⟩
  unfold setDeficit
  split
  next hh =>
    refine ⟨rfl, rfl, fun _ => rfl, fun n hn => linkOf_updLink_ne s k n _ hn, ?_, length_links_updLink ..⟩
    by_cases hk : k < s.links.length
    · rw [linkOf_updLink_self s k _ hk]
    · rw [linkOf_updLink_ge _ (Nat.not_lt.1 hk)]
  next hh => cases h <;> exact ⟨rfl, rfl, fun he => absurd he hh, fun _ _ => rfl, rfl, rfl⟩

theorem served_some {s u : State} {h : Half} {k : Nat} {x : Held} (hs : served s h k x = some u) : ∃ d, u = setDeficit s h k d := by
  unfold served at hs
  dsimp only at hs
  split at hs
  next c d _ =>
    split at hs
    · exact ⟨d, (Option.some.inj hs).symm⟩
    · exact absurd hs (by simp)
  next => exact absurd hs (by simp)

/-- A copy sent by the output that serves it. -/
theorem served_copySent {s u : State} {h : Half} {k : Nat} {x : Held} (vc : Nat) (hs : served s h k x = some u) :
    CopySent s (sendCopy u h k vc x) h k vc x := by
  obtain ⟨d, rfl⟩ := served_some hs
  obtain ⟨u, hu, hframe, hcross, hnear, hothers, hself, hlen⟩ := setDeficit_facts s h k d
  rw [← hu]
  have hlanes : lanesOf (linkOf u k) = lanesOf (linkOf s k) := by
    rw [hself]
    rfl
  have hhalf : linkHalf u k = linkHalf s k := linkHalf_congr hlanes
  have hout : (linkOf u k).outLanes = (linkOf s k).outLanes := (congrArg Link.outLanes hlanes :)
  have hnow : u.now = s.now := (congrArg State.now hframe :)
  have hdic : u.dic = s.dic := (congrArg State.dic hframe :)
  have hmarks : marks u k vc = marks s k vc := by
    unfold marks
    rw [hself]
    unfold objGet
    rw [hdic]
  have hleave : leaving u k vc x = leaving s k vc x := by
    unfold leaving
    rw [hmarks, hnow, hself]
  obtain ⟨cframe, cobjs, cmgmt, cothers, cnear, csent, cfar⟩ := sendCopy_sent u h k vc x
  rw [hhalf] at cnear csent cfar
  rw [hleave] at csent cfar
  rw [hlen, hout, hnow] at csent
  rw [hcross] at cfar
  generalize sendCopy u h k vc x = t at *
  refine ⟨?_, ((SameObjs.refl s _).of_dic hdic).trans cobjs, fun h0 => (cmgmt h0).trans hdic,
    fun n hn => (cothers n hn).trans (hothers n hn), fun he => (cnear he).trans (hnear he), csent, cfar⟩
  rw [cframe, hframe]

end Sys2Proof.Machine

/-!
PACKET_ROUTE and ESCAPE_WAIT_EXPIRE: each way a held packet goes (R251 to R257, R264, R265; O28).
-/

namespace Sys2Proof.Machine

section
variable {s : State} {h : Half} {id : Nat} {x : Held}

/-! ### The branches of PACKET_ROUTE -/

theorem packetRoute_none (hx : heldOf s h id = none) : exec (.packetRoute h id) s = .next s := by
  refine congrArg Host.Outcome.next ?_
  unfold routePacket
  rw [hx]

/-- What a packet with a good header does. -/
def routeGood (s : State) (h : Half) (x : Held) : State :=
  if x.p.vc = 0 then routeMgmt s h x
  else if !windowLets s h x then
    (if x.winTold then s else updHeld (objInc s Obj.injectWindowStalls) h x.id (fun y => { y with winTold := true }))
  else if x.p.dest = chip s ∧ !x.p.mcast then
    (if ejectOk s h x.p then ejectTo (leaveRouter s h x) h x.p else s)
  else if bankState s x.p.epoch = 0 then dropPacket s h x Obj.epochMisses fabNoRoute
  else if 63 ≤ x.p.hops then dropPacket s h x Obj.hopLimitDrops fabNoRoute
  else if x.p.mcast then routeMcast s h x
  else routeChosen s h x

theorem routePacket_some (hx : heldOf s h id = some x) : routePacket s h id =
    if malformed x.p then objInc (leaveRouter s h x) Obj.routeMalformed else routeGood s h x := by
  have hid := heldOf_id hx
  subst hid
  unfold routePacket
  rw [hx]
  rfl

theorem packetRoute_malformed (hx : heldOf s h id = some x) (hm : malformed x.p = true) :
    ∃ t, exec (.packetRoute h id) s = .next t
      ∧ t = { s with dic := t.dic, links := t.links, routerW := t.routerW, routerE := t.routerE }
      ∧ routerOf t h = { routerOf s h with held := (routerOf s h).held.filter (fun (y : Held) => y.id != id) }
      ∧ routerOf t (otherHalf h) = routerOf s (otherHalf h) ∧ (∀ n, x.from_ ≠ some n → linkOf t n = linkOf s n)
      ∧ Counted s t Obj.routeMalformed 1 ∧ SameObjs s t [Obj.routeMalformed] := by
  have hid := heldOf_id hx
  subst hid
  have hrun : exec (.packetRoute h x.id) s = .next (objInc (leaveRouter s h x) Obj.routeMalformed) :=
    congrArg Host.Outcome.next ((routePacket_some hx).trans (if_pos hm))
  have hleft := leaveRouter_frame s h x
  have hdic := leaveRouter_dic s h x
  refine ⟨_, hrun, ?_, ?_, ?_, fun n hn => ?_, ?_, ?_⟩
  · generalize leaveRouter s h x = u at *
    show objInc u Obj.routeMalformed = _
    rw [hleft]
    rfl
  · rw [routerOf_objInc, routerOf_leaveRouter]
    rfl
  · rw [routerOf_objInc, routerOf_leaveRouter_other]
  · rw [linkOf_objInc, linkOf_leaveRouter s h hn]
  · exact (objGet_objInc_self _ _).trans (by unfold objGet; rw [hdic])
  · exact ((SameObjs.refl s _).of_dic hdic).objInc _ List.mem_cons_self

section
variable (hx : heldOf s h id = some x) (hm : malformed x.p = false)
include hx hm

theorem packetRoute_good : exec (.packetRoute h id) s = .next (routeGood s h x) :=
  congrArg Host.Outcome.next ((routePacket_some hx).trans (if_neg (by simp [hm])))

theorem packetRoute_mgmt (hv : x.p.vc = 0) : exec (.packetRoute h id) s = .next (routeMgmt s h x) :=
  (packetRoute_good hx hm).trans (congrArg Host.Outcome.next (if_pos hv))

section
variable (hv : x.p.vc ≠ 0)
include hv

theorem packetRoute_windowed (hw : windowLets s h x = false) :
    (x.winTold = true → exec (.packetRoute h id) s = .next s)
    ∧ (x.winTold = false →
      ∃ t, exec (.packetRoute h id) s = .next t ∧ t = { s with dic := t.dic, routerW := t.routerW, routerE := t.routerE }
        ∧ routerOf t h = { routerOf s h with
            held := (routerOf s h).held.map (fun (y : Held) => if y.id = id then { y with winTold := true } else y) }
        ∧ routerOf t (otherHalf h) = routerOf s (otherHalf h)
        ∧ Counted s t Obj.injectWindowStalls 1 ∧ SameObjs s t [Obj.injectWindowStalls]) := by
  have hid := heldOf_id hx
  subst hid
  have hrun := (packetRoute_good hx hm).trans (congrArg Host.Outcome.next ((if_neg hv).trans (if_pos (by simp [hw]))))
  refine ⟨fun ht => hrun.trans (congrArg Host.Outcome.next (if_pos ht)), fun ht =>
    ⟨_, hrun.trans (congrArg Host.Outcome.next (if_neg (by simp [ht]))), ?_, ?_, ?_, ?_, ?_⟩⟩
  · cases h <;> rfl
  · exact (routerOf_updRouter_self (objInc s Obj.injectWindowStalls) h _).trans (by rw [routerOf_objInc])
  · exact (routerOf_updRouter_other (objInc s Obj.injectWindowStalls) h _).trans (by rw [routerOf_objInc])
  · refine Eq.trans ?_ (objGet_objInc_self s _)
    cases h <;> rfl
  · refine ((SameObjs.refl s _).objInc Obj.injectWindowStalls List.mem_cons_self).of_dic ?_
    exact updHeld_keeps State.dic (fun _ _ => rfl) _ _ _ _

section
variable (hw : windowLets s h x = true)
include hw

theorem packetRoute_here (hd : x.p.dest = chip s) (hc : x.p.mcast = false) :
    exec (.packetRoute h id) s = .next (if ejectOk s h x.p then ejectTo (leaveRouter s h x) h x.p else s) :=
  (packetRoute_good hx hm).trans (congrArg Host.Outcome.next
    ((if_neg hv).trans ((if_neg (by simp [hw])).trans (if_pos ⟨hd, by simp [hc]⟩))))

theorem packetRoute_away (hd : x.p.dest ≠ chip s ∨ x.p.mcast = true) :
    exec (.packetRoute h id) s = .next (
      if bankState s x.p.epoch = 0 then dropPacket s h x Obj.epochMisses fabNoRoute
      else if 63 ≤ x.p.hops then dropPacket s h x Obj.hopLimitDrops fabNoRoute
      else if x.p.mcast then routeMcast s h x
      else routeChosen s h x) :=
  (packetRoute_good hx hm).trans (congrArg Host.Outcome.next
    ((if_neg hv).trans ((if_neg (by simp [hw])).trans (if_neg fun hc => by
      rcases hd with hd | hd
      · exact hd hc.1
      · simp [hd] at hc))))

theorem packetRoute_noBank (hd : x.p.dest ≠ chip s ∨ x.p.mcast = true) (hb : bankState s x.p.epoch = 0) :
    exec (.packetRoute h id) s = .next (dropPacket s h x Obj.epochMisses fabNoRoute) :=
  (packetRoute_away hx hm hv hw hd).trans (congrArg Host.Outcome.next (if_pos hb))

theorem packetRoute_tooFar (hd : x.p.dest ≠ chip s ∨ x.p.mcast = true) (hb : bankState s x.p.epoch ≠ 0) (hh : 63 ≤ x.p.hops) :
    exec (.packetRoute h id) s = .next (dropPacket s h x Obj.hopLimitDrops fabNoRoute) :=
  (packetRoute_away hx hm hv hw hd).trans (congrArg Host.Outcome.next ((if_neg hb).trans (if_pos hh)))

theorem packetRoute_mcast (hc : x.p.mcast = true) (hb : bankState s x.p.epoch ≠ 0) (hh : x.p.hops < 63) :
    exec (.packetRoute h id) s = .next (routeMcast s h x) :=
  (packetRoute_away hx hm hv hw (Or.inr hc)).trans (congrArg Host.Outcome.next
    ((if_neg hb).trans ((if_neg (Nat.not_le.2 hh)).trans (if_pos hc))))

theorem packetRoute_chosen (hd : x.p.dest ≠ chip s) (hc : x.p.mcast = false) (hb : bankState s x.p.epoch ≠ 0)
    (hh : x.p.hops < 63) : exec (.packetRoute h id) s = .next (routeChosen s h x) :=
  (packetRoute_away hx hm hv hw (Or.inl hd)).trans (congrArg Host.Outcome.next
    ((if_neg hb).trans ((if_neg (Nat.not_le.2 hh)).trans (if_neg (by simp [hc])))))

end

end

end

/-! ### A packet for this module -/

theorem ejectHalf_leaveRouter (p : Packet) : ejectHalf (leaveRouter s h x) h p = ejectHalf s h p := by
  rw [leaveRouter_frame s h x]
  rfl

theorem ejectTo_left (p : Packet) (he : ejectHalf s h p = h) : ejectTo (leaveRouter s h x) h p = putEjected (leaveRouter s h x) h p :=
  if_pos ((ejectHalf_leaveRouter p).trans he)

theorem ejectTo_far (p : Packet) (he : ejectHalf s h p ≠ h) :
    ejectTo (leaveRouter s h x) h p = putCrossing (leaveRouter s h x) { p := p, link := none, to_ := otherHalf h } :=
  if_neg (fun hc => he ((ejectHalf_leaveRouter p).symm.trans hc))

theorem linkOf_putEjected (s : State) (h : Half) (p : Packet) (n : Nat) : linkOf (putEjected s h p) n = linkOf s n := by
  cases h <;> rfl

theorem ejected_holds (hx : heldOf s h id = some x) (hm : malformed x.p = false) (hv : x.p.vc ≠ 0) (hw : windowLets s h x = true)
    (hd : x.p.dest = chip s) (hc : x.p.mcast = false) (hok : ejectOk s h x.p = true) :
    ∃ t, exec (.packetRoute h id) s = .next t
      ∧ t = { s with links := t.links, routerW := t.routerW, routerE := t.routerE, bridge := t.bridge }
      ∧ (routerOf t h).held = (routerOf s h).held.filter (fun (y : Held) => y.id != id)
      ∧ (∀ n, x.from_ ≠ some n → linkOf t n = linkOf s n)
      ∧ (ejectHalf s h x.p = h → (routerOf t h).ejected = (routerOf s h).ejected ++ [x.p] ∧ t.bridge = s.bridge
          ∧ routerOf t (otherHalf h) = routerOf s (otherHalf h))
      ∧ (ejectHalf s h x.p ≠ h →
          t.bridge = { s.bridge with crossing := s.bridge.crossing ++ [{ p := x.p, link := none, to_ := otherHalf h }] }
          ∧ routerOf t (otherHalf h) = routerOf s (otherHalf h) ∧ (routerOf t h).ejected = (routerOf s h).ejected) := by
  have hid := heldOf_id hx
  subst hid
  have hrun : exec (.packetRoute h x.id) s = .next (ejectTo (leaveRouter s h x) h x.p) :=
    (packetRoute_here hx hm hv hw hd hc).trans (congrArg Host.Outcome.next (if_pos hok))
  have hframe := leaveRouter_frame s h x
  have hself := routerOf_leaveRouter s h x
  have hother := routerOf_leaveRouter_other s h x
  have hlink : ∀ n, x.from_ ≠ some n → linkOf (leaveRouter s h x) n = linkOf s n := fun n hn => linkOf_leaveRouter s h hn
  refine ⟨_, hrun, ?_⟩
  by_cases he : ejectHalf s h x.p = h
  · rw [ejectTo_left _ he]
    generalize leaveRouter s h x = u at *
    have hput : putEjected u h x.p = { u with routerW := (putEjected u h x.p).routerW, routerE := (putEjected u h x.p).routerE } :=
      updRouter_frame u h _
    have hbridge : u.bridge = s.bridge := (congrArg State.bridge hframe :)
    have hput' : (putEjected u h x.p).links = u.links := (congrArg State.links hput :)
    have hputb : (putEjected u h x.p).bridge = s.bridge := (congrArg State.bridge hput :).trans hbridge
    refine ⟨?_, ?_, fun n hn => (linkOf_putEjected u h _ n).trans (hlink n hn), fun _ => ⟨?_, hputb, ?_⟩, fun hne => absurd he hne⟩
    · rw [hput', hputb]
      generalize putEjected u h x.p = t at *
      rw [hput, hframe]
    · rw [routerOf_putEjected, hself]
      rfl
    · rw [routerOf_putEjected, hself]
      rfl
    · rw [routerOf_putEjected_other, hother]
  · rw [ejectTo_far _ he]
    generalize leaveRouter s h x = u at *
    have hbridge : u.bridge = s.bridge := (congrArg State.bridge hframe :)
    refine ⟨?_, congrArg Router.held hself, fun n hn => hlink n hn, fun hh => absurd hh he,
      fun _ => ⟨congrArg (fun b : Bridge => { b with crossing := b.crossing ++ [({ p := x.p, link := none, to_ := otherHalf h } : Crossing)] }) hbridge,
        hother, (congrArg Router.ejected hself :)⟩⟩
    show putCrossing u _ = { s with links := u.links, routerW := u.routerW, routerE := u.routerE, bridge := _ }
    generalize hb : (putCrossing u { p := x.p, link := none, to_ := otherHalf h }).bridge = b
    have hp : putCrossing u { p := x.p, link := none, to_ := otherHalf h } = { u with bridge := b } := by
      rw [← hb]
      rfl
    rw [hp, hframe]

/-! ### A packet sent and gone from its buffer -/

/-- What a copy sent and the buffer freed leave. -/
theorem sentAndLeft {u : State} {k vc : Nat} (hc : CopySent s u h k vc x) : ∃ t, t = leaveRouter u h x
    ∧ t = { s with dic := t.dic, links := t.links, routerW := t.routerW, routerE := t.routerE, bridge := t.bridge }
    ∧ t.dic = u.dic ∧ t.bridge = u.bridge
    ∧ (routerOf t h).held = (routerOf s h).held.filter (fun (y : Held) => y.id != x.id)
    ∧ routerOf t (otherHalf h) = routerOf s (otherHalf h) ∧ SameObjs s t [Obj.congMarks]
    ∧ (∀ n, n ≠ k → x.from_ ≠ some n → linkOf t n = linkOf s n) ∧ (linkOf t k).unacked = (linkOf u k).unacked := by
  have hleft := leaveRouter_frame u h x
  have hdic := leaveRouter_dic u h x
  have hw : u.routerW = s.routerW := (congrArg State.routerW hc.frame :)
  have he : u.routerE = s.routerE := (congrArg State.routerE hc.frame :)
  refine ⟨_, rfl, ?_, hdic, (congrArg State.bridge hleft :), ?_, ?_, hc.objs.of_dic hdic, fun n hn hf => ?_, unacked_leaveRouter u h x k⟩
  · have hcf := hc.frame
    have hb : (leaveRouter u h x).bridge = u.bridge := (congrArg State.bridge hleft :)
    rw [hdic, hb]
    generalize leaveRouter u h x = t at *
    rw [hleft]
    generalize t.links = ls, t.routerW = rw', t.routerE = re
    rw [hcf]
  · rw [routerOf_leaveRouter, routerOf_congr hw he]
    rfl
  · rw [routerOf_leaveRouter_other, routerOf_congr hw he]
  · rw [linkOf_leaveRouter u h hf, hc.others n hn]

theorem sendOn_first {u : State} {k vc : Nat} (hr : x.p.resent = false) :
    sendOn u h k vc x = leaveRouter (sendCopy u h k vc x) h x := if_neg (by simp [hr])

theorem leaving_hops (s : State) (k vc : Nat) (x : Held) : (leaving s k vc x).hops = x.p.hops + 1 := by
  show (addAge (usUp (s.now - x.since)) x.p).hops + 1 = x.p.hops + 1
  unfold addAge
  split <;> rfl

theorem choose_canSend {p : Packet} {k vc : Nat} (hc : choose s h p = .send k vc) : canSend s k vc p = true := by
  unfold choose at hc
  dsimp only at hc
  split at hc
  next k' hk' =>
    obtain ⟨rfl, rfl⟩ := Choice.send.inj hc
    simpa using List.find?_some hk'
  next =>
    split at hc
    · split at hc
      next hs =>
        obtain ⟨rfl, rfl⟩ := Choice.send.inj hc
        exact hs
      next => cases hc
    · split at hc
      · cases hc
      · split at hc <;> cases hc

theorem laneUp_of_windowOpen {l : Link} {p : Packet} (hw : windowOpenFor l p = true) : l.outLanes.any laneUp = true := by
  unfold windowOpenFor at hw
  exact (Bool.and_eq_true_iff.1 hw).2

theorem laneUp_of_canSend {k vc : Nat} {p : Packet} (hc : canSend s k vc p = true) : (linkOf s k).outLanes.any laneUp = true := by
  unfold canSend at hc
  exact laneUp_of_windowOpen (Bool.and_eq_true_iff.1 hc).2

theorem routeChosen_send {k vc : Nat} (hc : choose s h x.p = .send k vc) : routeChosen s h x = (served s h k x).elim s (sendOn · h k vc x) := by
  unfold routeChosen
  rw [hc]
  dsimp only
  cases served s h k x <;> rfl

theorem chosen_sent {k vc : Nat} (hrun : exec (.packetRoute h x.id) s = .next (routeChosen s h x))
    (hc : choose s h x.p = .send k vc) (hs : (served s h k x).isSome = true) (hr : x.p.resent = false) (hk : k < s.links.length) :
    ∃ t, exec (.packetRoute h x.id) s = .next t
      ∧ t = { s with dic := t.dic, links := t.links, routerW := t.routerW, routerE := t.routerE, bridge := t.bridge }
      ∧ (leaving s k vc x).hops = x.p.hops + 1
      ∧ (routerOf t h).held = (routerOf s h).held.filter (fun (y : Held) => y.id != x.id)
      ∧ routerOf t (otherHalf h) = routerOf s (otherHalf h) ∧ SameObjs s t [Obj.congMarks]
      ∧ (∀ n, n ≠ k → x.from_ ≠ some n → linkOf t n = linkOf s n)
      ∧ (linkHalf s k = h → t.bridge = s.bridge
          ∧ ∃ u ∈ (linkOf t k).unacked, u.body = .packets [leaving s k vc x] ∧ u.born = s.now ∧ u.sends = 1)
      ∧ (linkHalf s k ≠ h →
          t.bridge.crossing = s.bridge.crossing ++ [{ p := leaving s k vc x, link := some k, to_ := otherHalf h }]) := by
  obtain ⟨u, hu⟩ := Option.isSome_iff_exists.1 hs
  have hcopy := served_copySent vc hu
  obtain ⟨t, ht, hframe, -, hbridge, hheld, hother, hobjs, hlinks, hun⟩ := sentAndLeft hcopy
  refine ⟨t, hrun.trans (congrArg Host.Outcome.next ?_), hframe, leaving_hops s k vc x, hheld, hother, hobjs, hlinks,
    fun he => ⟨hbridge.trans (hcopy.near he), ?_⟩, fun he => ?_⟩
  · rw [routeChosen_send hc, hu, ht]
    exact sendOn_first hr
  · rw [hun]
    exact hcopy.sent he hk (laneUp_of_canSend (choose_canSend hc))
  · rw [hbridge]
    exact hcopy.far he

theorem chosen_unserved {k vc : Nat} (hc : choose s h x.p = .send k vc) (hs : served s h k x = none) : routeChosen s h x = s := by
  rw [routeChosen_send hc, hs]
  rfl

/-! ### A packet that waits, or has no way on -/

theorem updHeld_frame (s : State) (h : Half) (id : Nat) (f : Held → Held) : updHeld s h id f = { s with
    routerW := (updHeld s h id f).routerW, routerE := (updHeld s h id f).routerE } := updRouter_frame s h _

theorem chosen_waits (hrun : exec (.packetRoute h x.id) s = .next (routeChosen s h x)) (hc : choose s h x.p = .wait) :
    ∃ t, exec (.packetRoute h x.id) s = .next t ∧ t = { s with dic := t.dic, routerW := t.routerW, routerE := t.routerE }
      ∧ (routerOf t h).held.map (fun (y : Held) => (y.id, y.p)) = (routerOf s h).held.map (fun (y : Held) => (y.id, y.p))
      ∧ SameObjs s t [Obj.retryWindowStalls] := by
  have hstep : routeChosen s h x =
      updHeld (if windowStalled s h x.p then objInc s Obj.retryWindowStalls else s) h x.id (fun y => { y with badSince := none }) := by
    unfold routeChosen
    rw [hc]
  have hu : ∃ u, u = (if windowStalled s h x.p then objInc s Obj.retryWindowStalls else s) ∧ u = { s with dic := u.dic }
      ∧ SameObjs s u [Obj.retryWindowStalls] ∧ routerOf u h = routerOf s h := by
    refine ⟨_, rfl, ?_⟩
    split
    · exact ⟨rfl, (SameObjs.refl s _).objInc _ List.mem_cons_self, routerOf_objInc s _ h⟩
    · exact ⟨rfl, SameObjs.refl s _, rfl⟩
  obtain ⟨u, hu, hframe, hobjs, hrouter⟩ := hu
  rw [← hu] at hstep
  refine ⟨_, hrun.trans (congrArg Host.Outcome.next hstep), ?_, ?_, hobjs.of_dic (updHeld_keeps State.dic (fun _ _ => rfl) ..)⟩
  · have hup := updHeld_frame u h x.id (fun y => { y with badSince := none })
    have hd : (updHeld u h x.id (fun y => { y with badSince := none })).dic = u.dic := (congrArg State.dic hup :)
    rw [hd]
    generalize updHeld u h x.id (fun y => { y with badSince := none }) = t at *
    rw [hup, hframe]
  · rw [held_updHeld, hrouter, List.map_map]
    refine List.map_congr_left fun y _ => ?_
    dsimp only [Function.comp_apply]
    split <;> rfl

theorem chosen_bad (hrun : exec (.packetRoute h x.id) s = .next (routeChosen s h x)) (hc : choose s h x.p = .badEscape) :
    ∃ t, exec (.packetRoute h x.id) s = .next t ∧ t = { s with routerW := t.routerW, routerE := t.routerE }
      ∧ (routerOf t h).held = (routerOf s h).held.map (fun (y : Held) =>
          if y.id = x.id then { y with badSince := y.badSince.or (some s.now) } else y) := by
  refine ⟨_, hrun.trans (congrArg Host.Outcome.next ?_), updHeld_frame s h x.id (fun y => { y with badSince := y.badSince.or (some s.now) }),
    held_updHeld ..⟩
  unfold routeChosen
  rw [hc]

/-- A packet dropped: counted, with nothing but its router, the links and objects changed. -/
theorem dropped_holds {c st : Nat} {i : Instr} (hrun : exec i s = .next (dropPacket s h x c st)) :
    ∃ t, exec i s = .next t
      ∧ t = { s with dic := t.dic, links := t.links, routerW := t.routerW, routerE := t.routerE }
      ∧ Counted s t c 1 ∧ SameObjs s t [c] :=
  ⟨_, hrun, dropPacket_frame s h x c st, counted_dropPacket s h x c st, sameObjs_dropPacket s h x c st⟩

/-- As `dropped_holds`, with what the router then holds. -/
theorem dropped_replies {c st : Nat} {i : Instr} (hrun : exec i s = .next (dropPacket s h x c st)) :
    ∃ t, exec i s = .next t
      ∧ t = { s with dic := t.dic, links := t.links, routerW := t.routerW, routerE := t.routerE }
      ∧ Counted s t c 1 ∧ SameObjs s t [c]
      ∧ ∃ new, (routerOf t h).held = (routerOf s h).held.filter (fun (y : Held) => y.id != x.id) ++ new
        ∧ ∀ y ∈ new, y.p.dest = x.p.src ∧ y.p.vc = 4 :=
  ⟨_, hrun, dropPacket_frame s h x c st, counted_dropPacket s h x c st, sameObjs_dropPacket s h x c st, held_dropPacket s h x c st⟩

theorem routeChosen_noEscape (hc : choose s h x.p = .noEscape) : routeChosen s h x = dropPacket s h x Obj.noRouteDrops fabNoRoute := by
  unfold routeChosen
  rw [hc]

/-! ### A resent atomic whose peer keeps no replay cache -/

theorem resent_unknown {k vc : Nat} (hrun : exec (.packetRoute h x.id) s = .next (routeChosen s h x))
    (hc : choose s h x.p = .send k vc) (hs : (served s h k x).isSome = true) (hr : x.p.resent = true)
    (hq : isSequenced x.p = true) (hd : x.p.dest = (linkOf s k).peer) (ha : natBit 4 (linkOf s k).agreed = false) :
    ∃ t, exec (.packetRoute h x.id) s = .next t
      ∧ t = { s with dic := t.dic, links := t.links, routerW := t.routerW, routerE := t.routerE, bridge := t.bridge, obs := t.obs }
      ∧ Counted s t Obj.outcomeUnknown 1 ∧ SameObjs s t (Obj.outcomeUnknown :: journalObjs)
      ∧ Logged s t .outcomeUnknown [x.p.src, x.p.seq] false := by
  obtain ⟨v, hv⟩ := Option.isSome_iff_exists.1 hs
  obtain ⟨d, hvd⟩ := served_some hv
  obtain ⟨u, hu, hframe, -, -, -, hself, -⟩ := setDeficit_facts s h k d
  rw [hvd, ← hu] at hv
  have hpeer : (linkOf u k).peer = (linkOf s k).peer := (congrArg Link.peer hself :)
  have hagreed : (linkOf u k).agreed = (linkOf s k).agreed := (congrArg Link.agreed hself :)
  have hdic : u.dic = s.dic := (congrArg State.dic hframe :)
  have hsend : sendOn u h k vc x = journal (dropPacket u h x Obj.outcomeUnknown fabUnknown) .outcomeUnknown [x.p.src, x.p.seq] :=
    if_pos (by simp [hr, hq, hpeer, hagreed, ← hd, ha])
  have hdrop := dropPacket_frame u h x Obj.outcomeUnknown fabUnknown
  have hcount : Counted s (dropPacket u h x Obj.outcomeUnknown fabUnknown) Obj.outcomeUnknown 1 :=
    (counted_dropPacket u h x Obj.outcomeUnknown fabUnknown).trans (by unfold objGet; rw [hdic])
  have hsame : SameObjs s (dropPacket u h x Obj.outcomeUnknown fabUnknown) (Obj.outcomeUnknown :: journalObjs) :=
    ((SameObjs.refl s _).of_dic hdic).trans ((sameObjs_dropPacket u h x Obj.outcomeUnknown fabUnknown).mono (by decide))
  have hlog := logged_journal (dropPacket u h x Obj.outcomeUnknown fabUnknown) .outcomeUnknown [x.p.src, x.p.seq]
  generalize dropPacket u h x Obj.outcomeUnknown fabUnknown = w at *
  have hj : journal w .outcomeUnknown [x.p.src, x.p.seq] = { w with
      dic := (journal w .outcomeUnknown [x.p.src, x.p.seq]).dic, obs := (journal w .outcomeUnknown [x.p.src, x.p.seq]).obs } :=
    journal_keeps (footDicObs · (journal w .outcomeUnknown [x.p.src, x.p.seq])) (fun _ _ => rfl) w _ _
  have hobs : w.obs = s.obs := (congrArg State.obs hdrop :).trans (congrArg State.obs hframe :)
  have hnow : w.now = s.now := (congrArg State.now hdrop :).trans (congrArg State.now hframe :)
  have hcold : w.coldAt = s.coldAt := (congrArg State.coldAt hdrop :).trans (congrArg State.coldAt hframe :)
  refine ⟨journal w .outcomeUnknown [x.p.src, x.p.seq], hrun.trans (congrArg Host.Outcome.next ?_), ?_, ?_, ?_, ?_⟩
  · rw [routeChosen_send hc, hv]
    exact hsend
  · have hlinks : (journal w .outcomeUnknown [x.p.src, x.p.seq]).links = w.links := (congrArg State.links hj :)
    have hrw : (journal w .outcomeUnknown [x.p.src, x.p.seq]).routerW = w.routerW := (congrArg State.routerW hj :)
    have hre : (journal w .outcomeUnknown [x.p.src, x.p.seq]).routerE = w.routerE := (congrArg State.routerE hj :)
    have hbr : (journal w .outcomeUnknown [x.p.src, x.p.seq]).bridge = u.bridge :=
      (congrArg State.bridge hj :).trans (congrArg State.bridge hdrop :)
    rw [hlinks, hrw, hre, hbr]
    generalize journal w .outcomeUnknown [x.p.src, x.p.seq] = t at *
    rw [hj, hdrop, hframe]
  · exact (objGet_journal w _ _ _ (by decide) (by decide)).trans hcount
  · exact hsame.journal _ _ (List.subset_cons_self _ _)
  · unfold Logged at hlog ⊢
    rw [hobs, hnow, hcold] at hlog
    exact hlog

end

end Sys2Proof.Machine

/-!
Multicast, management packets and the wait for an escape link; O28 settled (R253, R256, R265).
-/

namespace Sys2Proof.Machine

section
variable {s : State} {h : Half} {id : Nat} {x : Held}

/-! ### Multicast (R265) -/

/-- The end of a multicast's turn: its buffer freed, or the copies still to be made kept. -/
def mcastEnd (s : State) (h : Half) (x : Held) (left : Bool × Bool × Bool) : State :=
  if left.1 || left.2.1 || left.2.2 then updHeld s h x.id (fun y => { y with copies := some left }) else leaveRouter s h x

/-- The local copy, where it can be made now. -/
def mcastHere (s : State) (h : Half) (x : Held) : State :=
  if (copiesOf s x).1 && ejectOk s h x.p then ejectTo s h x.p else s

/-- The copy towards the plus neighbour, made in a state w. -/
def mcastPlus (s w : State) (h : Half) (x : Held) : State × Bool :=
  mcastSide w h x (copiesOf s x).2.1 (axisPlus w x.p.axis) (axisOwn s x.p.axis + 1) x.p.hi

/-- The copy towards the minus neighbour, made in a state v whose neighbours are those of w. -/
def mcastMinus (s w v : State) (h : Half) (x : Held) : State × Bool :=
  mcastSide v h x (copiesOf s x).2.2 (axisMinus w x.p.axis) x.p.lo (axisOwn s x.p.axis - 1)

theorem routeMcast_eq (s : State) (h : Half) (x : Held) : routeMcast s h x =
    mcastEnd (mcastMinus s (mcastHere s h x) (mcastPlus s (mcastHere s h x) h x).1 h x).1 h x
      ((copiesOf s x).1 && !((copiesOf s x).1 && ejectOk s h x.p), (mcastPlus s (mcastHere s h x) h x).2,
        (mcastMinus s (mcastHere s h x) (mcastPlus s (mcastHere s h x) h x).1 h x).2) := rfl

theorem mcastSide_done (s : State) (h : Half) (x : Held) (l : Option Nat) (lo hi : Nat) : mcastSide s h x false l lo hi = (s, false) := rfl

/-- A multicast with only the local copy to make. -/
theorem routeMcast_local (hc : copiesOf s x = (true, false, false)) :
    routeMcast s h x = mcastEnd (mcastHere s h x) h x (!ejectOk s h x.p, false, false) := by
  rw [routeMcast_eq]
  simp only [mcastPlus, mcastMinus, hc, mcastSide_done, Bool.true_and]

/-- A multicast with only the copy towards the plus neighbour to make. -/
theorem routeMcast_plus (hc : copiesOf s x = (false, true, false)) :
    routeMcast s h x = mcastEnd (mcastSide s h x true (axisPlus s x.p.axis) (axisOwn s x.p.axis + 1) x.p.hi).1 h x
      (false, (mcastSide s h x true (axisPlus s x.p.axis) (axisOwn s x.p.axis + 1) x.p.hi).2, false) := by
  have hhere : mcastHere s h x = s := if_neg (by rw [hc]; exact Bool.false_ne_true)
  rw [routeMcast_eq, hhere]
  simp only [mcastPlus, mcastMinus, hc, mcastSide_done, Bool.false_and]

theorem mcastHere_ejects (hc : copiesOf s x = (true, false, false)) (hok : ejectOk s h x.p = true) (he : ejectHalf s h x.p = h) :
    mcastHere s h x = putEjected s h x.p :=
  (if_pos (by rw [hc, hok]; rfl)).trans (if_pos he)

theorem mcastHere_waits (hok : ejectOk s h x.p = false) : mcastHere s h x = s :=
  if_neg (by rw [hok, Bool.and_false]; exact Bool.false_ne_true)

theorem mcast_local (hrun : exec (.packetRoute h x.id) s = .next (routeMcast s h x)) (hc : copiesOf s x = (true, false, false))
    (hok : ejectOk s h x.p = true) (he : ejectHalf s h x.p = h) :
    ∃ t, exec (.packetRoute h x.id) s = .next t ∧ t = { s with links := t.links, routerW := t.routerW, routerE := t.routerE }
      ∧ routerOf t h = { routerOf s h with
          held := (routerOf s h).held.filter (fun (y : Held) => y.id != x.id), ejected := (routerOf s h).ejected ++ [x.p] }
      ∧ (∀ n, x.from_ ≠ some n → linkOf t n = linkOf s n) := by
  have hstep : routeMcast s h x = leaveRouter (putEjected s h x.p) h x := by
    rw [routeMcast_local hc, mcastHere_ejects hc hok he, hok]
    rfl
  refine ⟨_, hrun.trans (congrArg Host.Outcome.next hstep), ?_, ?_, fun n hn => ?_⟩
  · have hleft := leaveRouter_frame (putEjected s h x.p) h x
    have hput : putEjected s h x.p = { s with routerW := (putEjected s h x.p).routerW, routerE := (putEjected s h x.p).routerE } :=
      updRouter_frame s h _
    generalize leaveRouter (putEjected s h x.p) h x = t at *
    rw [hleft]
    generalize putEjected s h x.p = u at *
    rw [hput]
  · rw [routerOf_leaveRouter, routerOf_putEjected]
    rfl
  · rw [linkOf_leaveRouter _ h hn, linkOf_putEjected]

theorem mcast_waits (hrun : exec (.packetRoute h x.id) s = .next (routeMcast s h x)) (hc : copiesOf s x = (true, false, false))
    (hok : ejectOk s h x.p = false) :
    ∃ t, exec (.packetRoute h x.id) s = .next t ∧ t = { s with routerW := t.routerW, routerE := t.routerE }
      ∧ routerOf t h = { routerOf s h with held := (routerOf s h).held.map (fun (y : Held) =>
          if y.id = x.id then { y with copies := some (true, false, false) } else y) } := by
  have hstep : routeMcast s h x = updHeld s h x.id (fun y => { y with copies := some (true, false, false) }) := by
    rw [routeMcast_local hc, mcastHere_waits hok, hok]
    rfl
  exact ⟨_, hrun.trans (congrArg Host.Outcome.next hstep), updHeld_frame s h x.id _, routerOf_updRouter_self s h _⟩

theorem mcastSide_sent {u : State} {k lo hi : Nat} (hu : usableLink s k { x.p with vc := escapeVc x.p.vc x.p.epoch } = true)
    (hr : reachLink s h k = true) (hc : canSend s k (escapeVc x.p.vc x.p.epoch) x.p = true) (hs : served s h k x = some u) :
    mcastSide s h x true (some k) lo hi = (sendCopy u h k (escapeVc x.p.vc x.p.epoch) x, false) := by
  unfold mcastSide
  simp only [hu, hr, hc, hs, Bool.not_true, Bool.and_self, Bool.false_eq_true, if_false, if_true]

theorem mcast_plus {k : Nat} (hrun : exec (.packetRoute h x.id) s = .next (routeMcast s h x)) (hc : copiesOf s x = (false, true, false))
    (ha : axisPlus s x.p.axis = some k) (hu : usableLink s k { x.p with vc := escapeVc x.p.vc x.p.epoch } = true)
    (hsend : canSend s k (escapeVc x.p.vc x.p.epoch) x.p = true) (hs : (served s h k x).isSome = true) (hh : linkHalf s k = h)
    (hk : k < s.links.length) :
    ∃ t, exec (.packetRoute h x.id) s = .next t
      ∧ t = { s with dic := t.dic, links := t.links, routerW := t.routerW, routerE := t.routerE } ∧ SameObjs s t [Obj.congMarks]
      ∧ (routerOf t h).held = (routerOf s h).held.filter (fun (y : Held) => y.id != x.id)
      ∧ (∃ u ∈ (linkOf t k).unacked, u.body = .packets [leaving s k (escapeVc x.p.vc x.p.epoch) x])
      ∧ (∀ n, n ≠ k → x.from_ ≠ some n → linkOf t n = linkOf s n) := by
  obtain ⟨v, hv⟩ := Option.isSome_iff_exists.1 hs
  have hcopy := served_copySent (escapeVc x.p.vc x.p.epoch) hv
  have hstep : routeMcast s h x = leaveRouter (sendCopy v h k (escapeVc x.p.vc x.p.epoch) x) h x := by
    rw [routeMcast_plus hc, ha, mcastSide_sent hu (by simp [reachLink, hh]) hsend hv]
    rfl
  obtain ⟨t, ht, hframe, -, hbridge, hheld, -, hobjs, hlinks, hun⟩ := sentAndLeft hcopy
  refine ⟨t, hrun.trans (congrArg Host.Outcome.next (hstep.trans ht.symm)), ?_, hobjs, hheld, ?_, hlinks⟩
  · rw [hbridge, hcopy.near hh] at hframe
    exact hframe
  · obtain ⟨y, hy, hbody, -, -⟩ := hcopy.sent hh hk (laneUp_of_canSend hsend)
    exact ⟨y, hun ▸ hy, hbody⟩

theorem mcastShort_req {lo hi off tag : Nat} {o : FabOp} (hb : x.p.body = .req off tag o) :
    mcastShort s h x lo hi = replyTo (objInc s Obj.mcastShort) h x.p tag fabShort 0 (natLe 1 lo ++ natLe 1 hi) := by
  unfold mcastShort
  rw [hb]

theorem mcast_short {off tag : Nat} {o : FabOp} (hrun : exec (.packetRoute h x.id) s = .next (routeMcast s h x))
    (hc : copiesOf s x = (false, true, false)) (ha : axisPlus s x.p.axis = none) (hb : x.p.body = .req off tag o)
    (hid : x.id ≠ (routerOf s h).nextId) :
    ∃ t, exec (.packetRoute h x.id) s = .next t
      ∧ t = { s with dic := t.dic, links := t.links, routerW := t.routerW, routerE := t.routerE }
      ∧ Counted s t Obj.mcastShort 1 ∧ SameObjs s t [Obj.mcastShort]
      ∧ (routerOf t h).held.dropLast = (routerOf s h).held.filter (fun (z : Held) => z.id != x.id)
      ∧ (routerOf t h).held.getLast?.map (fun (z : Held) => (z.p.dest, z.p.body))
          = some (x.p.src, .rep tag fabShort 0 (natLe 1 (axisOwn s x.p.axis + 1) ++ natLe 1 x.p.hi)) := by
  have hstep : routeMcast s h x = leaveRouter (replyTo (objInc s Obj.mcastShort) h x.p tag fabShort 0
      (natLe 1 (axisOwn s x.p.axis + 1) ++ natLe 1 x.p.hi)) h x := by
    rw [routeMcast_plus hc, ha]
    exact congrArg (leaveRouter · h x) (mcastShort_req hb)
  have hreply : replyTo (objInc s Obj.mcastShort) h x.p tag fabShort 0 (natLe 1 (axisOwn s x.p.axis + 1) ++ natLe 1 x.p.hi) =
      { objInc s Obj.mcastShort with
        routerW := (replyTo (objInc s Obj.mcastShort) h x.p tag fabShort 0 (natLe 1 (axisOwn s x.p.axis + 1) ++ natLe 1 x.p.hi)).routerW
        routerE := (replyTo (objInc s Obj.mcastShort) h x.p tag fabShort 0 (natLe 1 (axisOwn s x.p.axis + 1) ++ natLe 1 x.p.hi)).routerE } :=
    replyTo_keeps (footRouterWRouterE · (replyTo (objInc s Obj.mcastShort) h x.p tag fabShort 0
      (natLe 1 (axisOwn s x.p.axis + 1) ++ natLe 1 x.p.hi))) (fun _ _ => rfl) _ _ _ _ _ _ _
  have hheld := held_replyTo (objInc s Obj.mcastShort) h x.p tag fabShort 0 (natLe 1 (axisOwn s x.p.axis + 1) ++ natLe 1 x.p.hi)
  rw [routerOf_objInc] at hheld
  generalize replyTo (objInc s Obj.mcastShort) h x.p tag fabShort 0 (natLe 1 (axisOwn s x.p.axis + 1) ++ natLe 1 x.p.hi) = u at *
  have hleft := leaveRouter_frame u h x
  have hdic : (leaveRouter u h x).dic = (objInc s Obj.mcastShort).dic := (leaveRouter_dic u h x).trans (congrArg State.dic hreply :)
  have hrouter := routerOf_leaveRouter u h x
  generalize leaveRouter u h x = t at *
  have hfilter : (routerOf t h).held = (routerOf s h).held.filter (fun (z : Held) => z.id != x.id) ++
      [{ id := (routerOf s h).nextId, from_ := none, since := s.now, copies := none
         p := { mkPacket (objInc s Obj.mcastShort) x.p.src 4 (routerOf s h).seqReply x.p.pathHash
            (.rep tag fabShort 0 (natLe 1 (axisOwn s x.p.axis + 1) ++ natLe 1 x.p.hi)) with echo := x.p.mark } }] := by
    rw [hrouter]
    show (routerOf u h).held.filter _ = _
    rw [hheld, List.filter_append]
    exact congrArg _ (List.filter_cons_of_pos (by simpa using fun he : (routerOf s h).nextId = x.id => hid he.symm))
  refine ⟨t, hrun.trans (congrArg Host.Outcome.next hstep), ?_, ?_, ((SameObjs.refl s _).objInc _ List.mem_cons_self).of_dic hdic, ?_, ?_⟩
  · rw [hleft, hreply]
    rfl
  · exact (show objGet t Obj.mcastShort = objGet (objInc s Obj.mcastShort) Obj.mcastShort by unfold objGet; rw [hdic]).trans
      (objGet_objInc_self s _)
  · rw [hfilter, List.dropLast_concat]
  · rw [hfilter, List.getLast?_concat]
    rfl

/-! ### Management packets (R253) -/

/-- A management packet's own outcome at its destination. -/
def MgmtTaken (s : State) (h : Half) (id : Nat) (x : Held) : Prop :=
  match x.p.body with
  | .report _ => True
  | _ => ∃ t, exec (.packetRoute h id) s = .next t ∧ t = { s with links := t.links, routerW := t.routerW, routerE := t.routerE }
      ∧ routerOf t h = { routerOf s h with held := (routerOf s h).held.filter (fun (y : Held) => y.id != id) }
      ∧ routerOf t (otherHalf h) = routerOf s (otherHalf h) ∧ (∀ n, x.from_ ≠ some n → linkOf t n = linkOf s n)

theorem leave_holds {i : Instr} (hrun : exec i s = .next (leaveRouter s h x)) :
    ∃ t, exec i s = .next t ∧ t = { s with links := t.links, routerW := t.routerW, routerE := t.routerE }
      ∧ routerOf t h = { routerOf s h with held := (routerOf s h).held.filter (fun (y : Held) => y.id != x.id) }
      ∧ routerOf t (otherHalf h) = routerOf s (otherHalf h) ∧ (∀ n, x.from_ ≠ some n → linkOf t n = linkOf s n) :=
  ⟨_, hrun, leaveRouter_frame s h x, routerOf_leaveRouter s h x, routerOf_leaveRouter_other s h x,
    fun _ hn => linkOf_leaveRouter s h hn⟩

theorem mgmt_here (hx : heldOf s h id = some x) (hm : malformed x.p = false) (hv : x.p.vc = 0) (hd : x.p.dest = chip s) :
    MgmtTaken s h id x := by
  have hid := heldOf_id hx
  subst hid
  have hrun := packetRoute_mgmt hx hm hv
  unfold routeMgmt at hrun
  rw [if_pos hd] at hrun
  unfold MgmtTaken
  split
  · trivial
  next hb =>
    refine leave_holds (hrun.trans (congrArg Host.Outcome.next ?_))
    split
    next r hr => exact absurd hr (hb r)
    next => rfl

theorem routeMgmt_away (hd : x.p.dest ≠ chip s) : routeMgmt s h x =
    if 65536 < mgmtBytes s h x.id + 4 * x.p.len then dropPacket s h x Obj.mgmtDrops fabNoRoute
    else if 63 ≤ x.p.hops then dropPacket s h x Obj.hopLimitDrops fabNoRoute
    else
      match mgmtLink s h x.p with
      | none => dropPacket s h x Obj.noRouteDrops fabNoRoute
      | some k =>
        if carriesMgmt s k && reachLink s h k then
          (if windowOpenFor (linkOf s k) x.p then
            match served s h k x with
            | some s => sendOn s h k 0 x
            | none => s
           else objInc s Obj.retryWindowStalls)
        else if (linkTo s x.p.dest).isSome then s
        else updHeld s h x.id (fun y => { y with badSince := y.badSince.or (some s.now) }) := by
  rw [routeMgmt, if_neg hd] <;> rfl

section
variable (hx : heldOf s h id = some x) (hm : malformed x.p = false) (hv : x.p.vc = 0) (hd : x.p.dest ≠ chip s)
include hx hm hv hd

theorem mgmt_full (hb : 65536 < mgmtBytes s h id + 4 * x.p.len) :
    exec (.packetRoute h id) s = .next (dropPacket s h x Obj.mgmtDrops fabNoRoute) := by
  have hid := heldOf_id hx
  subst hid
  exact (packetRoute_mgmt hx hm hv).trans (congrArg Host.Outcome.next ((routeMgmt_away hd).trans (if_pos hb)))

section
variable (hb : mgmtBytes s h id + 4 * x.p.len ≤ 65536) (hh : x.p.hops < 63)
include hb hh

theorem mgmt_noLink (hl : mgmtLink s h x.p = none) :
    exec (.packetRoute h id) s = .next (dropPacket s h x Obj.noRouteDrops fabNoRoute) := by
  have hid := heldOf_id hx
  subst hid
  refine (packetRoute_mgmt hx hm hv).trans (congrArg Host.Outcome.next ?_)
  rw [routeMgmt_away hd, if_neg (Nat.not_lt.2 hb), if_neg (Nat.not_le.2 hh), hl]

theorem mgmt_forward {k : Nat} {u : State} (hl : mgmtLink s h x.p = some k) (hc : carriesMgmt s k = true) (hr : reachLink s h k = true)
    (hw : windowOpenFor (linkOf s k) x.p = true) (hs : served s h k x = some u) :
    exec (.packetRoute h id) s = .next (sendOn u h k 0 x) := by
  have hid := heldOf_id hx
  subst hid
  refine (packetRoute_mgmt hx hm hv).trans (congrArg Host.Outcome.next ?_)
  rw [routeMgmt_away hd, if_neg (Nat.not_lt.2 hb), if_neg (Nat.not_le.2 hh), hl]
  dsimp only
  rw [if_pos (by simp [hc, hr]), if_pos hw, hs]

theorem mgmt_sent {k : Nat} (hl : mgmtLink s h x.p = some k) (hc : carriesMgmt s k = true) (hr : reachLink s h k = true)
    (hw : windowOpenFor (linkOf s k) x.p = true) (hs : (served s h k x).isSome = true) (hhalf : linkHalf s k = h)
    (hk : k < s.links.length) (hre : x.p.resent = false) :
    ∃ t, exec (.packetRoute h id) s = .next t ∧ t = { s with links := t.links, routerW := t.routerW, routerE := t.routerE }
      ∧ (∃ u ∈ (linkOf t k).unacked, u.body = .packets [leaving s k 0 x])
      ∧ (routerOf t h).held = (routerOf s h).held.filter (fun (y : Held) => y.id != id)
      ∧ (∀ n, n ≠ k → x.from_ ≠ some n → linkOf t n = linkOf s n) := by
  obtain ⟨v, hv'⟩ := Option.isSome_iff_exists.1 hs
  have hrun := mgmt_forward hx hm hv hd hb hh hl hc hr hw hv'
  have hid := heldOf_id hx
  subst hid
  have hcopy := served_copySent 0 hv'
  obtain ⟨t, ht, hframe, hdic, hbridge, hheld, -, -, hlinks, hun⟩ := sentAndLeft hcopy
  refine ⟨t, hrun.trans (congrArg Host.Outcome.next ((sendOn_first hre).trans ht.symm)), ?_, ?_, hheld, hlinks⟩
  · rw [hbridge, hcopy.near hhalf, hdic, hcopy.mgmt rfl] at hframe
    exact hframe
  · obtain ⟨y, hy, hbody, -, -⟩ := hcopy.sent hhalf hk (laneUp_of_windowOpen hw)
    exact ⟨y, hun ▸ hy, hbody⟩

end

end

/-! ### The wait for an escape link (R256) -/

section
variable (hx : heldOf s h id = some x)
include hx

theorem escapeWait_none (hb : x.badSince = none) : exec (.escapeWaitExpire h id) s = .next s := by
  refine congrArg Host.Outcome.next ?_
  unfold escapeExpire
  rw [hx]
  dsimp only
  rw [hb]

theorem escapeWait_some {e : Nat} (hb : x.badSince = some e) : exec (.escapeWaitExpire h id) s = .next (
    if s.now < e + us (objGet s Obj.escapeWaitUs) then s
    else if x.p.vc ≠ 0 ∧ choose s h x.p ≠ .badEscape then routeChosen s h x
    else dropPacket s h x Obj.noRouteDrops fabNoRoute) := by
  refine congrArg Host.Outcome.next ?_
  unfold escapeExpire
  rw [hx]
  dsimp only
  rw [hb]

theorem escapeWait_over {e : Nat} (hb : x.badSince = some e) (ht : e + us (objGet s Obj.escapeWaitUs) ≤ s.now)
    (hc : x.p.vc = 0 ∨ choose s h x.p = .badEscape) :
    exec (.escapeWaitExpire h id) s = .next (dropPacket s h x Obj.noRouteDrops fabNoRoute) :=
  (escapeWait_some hx hb).trans (congrArg Host.Outcome.next ((if_neg (Nat.not_lt.2 ht)).trans (if_neg fun hn =>
    hc.elim hn.1 hn.2)))

end

end

/-! ### O28 -/

/-- A packet of VC1 to VC9 that is not for this module and is routed on its own. -/
theorem unicast_holds {s : State} {h : Half} {x : Held} (hx : heldOf s h x.id = some x) (hm : malformed x.p = false) (hv : x.p.vc ≠ 0)
    (hw : windowLets s h x = true) (hd : x.p.dest ≠ chip s) (hc : x.p.mcast = false) (hb : bankState s x.p.epoch ≠ 0)
    (hh : x.p.hops < 63) :
    (∀ k vc, choose s h x.p = .send k vc → (served s h k x).isSome = true → x.p.resent = false → k < s.links.length →
      ∃ t, exec (.packetRoute h x.id) s = .next t
        ∧ t = { s with dic := t.dic, links := t.links, routerW := t.routerW, routerE := t.routerE, bridge := t.bridge }
        ∧ (leaving s k vc x).hops = x.p.hops + 1
        ∧ (routerOf t h).held = (routerOf s h).held.filter (fun (y : Held) => y.id != x.id)
        ∧ routerOf t (otherHalf h) = routerOf s (otherHalf h) ∧ SameObjs s t [Obj.congMarks]
        ∧ (∀ n, n ≠ k → x.from_ ≠ some n → linkOf t n = linkOf s n)
        ∧ (linkHalf s k = h → t.bridge = s.bridge
            ∧ ∃ u ∈ (linkOf t k).unacked, u.body = .packets [leaving s k vc x] ∧ u.born = s.now ∧ u.sends = 1)
        ∧ (linkHalf s k ≠ h →
            t.bridge.crossing = s.bridge.crossing ++ [{ p := leaving s k vc x, link := some k, to_ := otherHalf h }]))
    ∧ (∀ k vc, choose s h x.p = .send k vc → served s h k x = none → exec (.packetRoute h x.id) s = .next s)
    ∧ (choose s h x.p = .wait →
      ∃ t, exec (.packetRoute h x.id) s = .next t ∧ t = { s with dic := t.dic, routerW := t.routerW, routerE := t.routerE }
        ∧ (routerOf t h).held.map (fun (y : Held) => (y.id, y.p)) = (routerOf s h).held.map (fun (y : Held) => (y.id, y.p))
        ∧ SameObjs s t [Obj.retryWindowStalls])
    ∧ (choose s h x.p = .noEscape →
      ∃ t, exec (.packetRoute h x.id) s = .next t
        ∧ t = { s with dic := t.dic, links := t.links, routerW := t.routerW, routerE := t.routerE }
        ∧ Counted s t Obj.noRouteDrops 1 ∧ SameObjs s t [Obj.noRouteDrops])
    ∧ (choose s h x.p = .badEscape →
      ∃ t, exec (.packetRoute h x.id) s = .next t ∧ t = { s with routerW := t.routerW, routerE := t.routerE }
        ∧ (routerOf t h).held = (routerOf s h).held.map (fun (y : Held) =>
            if y.id = x.id then { y with badSince := y.badSince.or (some s.now) } else y)) := by
  have hrun := packetRoute_chosen hx hm hv hw hd hc hb hh
  exact ⟨fun k vc hch hs hr hk => chosen_sent hrun hch hs hr hk,
    fun k vc hch hs => hrun.trans (congrArg Host.Outcome.next (chosen_unserved hch hs)), fun hch => chosen_waits hrun hch,
    fun hch => dropped_holds (hrun.trans (congrArg Host.Outcome.next (routeChosen_noEscape hch))), fun hch => chosen_bad hrun hch⟩

/-- Settles O28: a held packet goes one of the ways `routePacket` tells apart, each with its own clause. -/
theorem packetsRoutedOrHeldBack : Obligations.PacketsRoutedOrHeldBack := by
  unfold Obligations.PacketsRoutedOrHeldBack
  refine ⟨fun h id s hx => packetRoute_none hx, fun h id x s hx hm => packetRoute_malformed hx hm, ?_, ?_, ?_, ?_,
    fun h id x s hx hm hv hd => mgmt_here hx hm hv hd, ?_, ?_, fun h id x s hx hb => escapeWait_none hx hb⟩
  · intro h id x s hx hm hv
    have hid := heldOf_id hx
    subst hid
    exact ⟨fun hw => packetRoute_windowed hx hm hv hw, fun hw hd hc hok => ejected_holds hx hm hv hw hd hc hok,
      fun hw hd hc hok => (packetRoute_here hx hm hv hw hd hc).trans (congrArg Host.Outcome.next (if_neg (by simp [hok]))),
      fun hw hd hb => dropped_replies (packetRoute_noBank hx hm hv hw hd hb),
      fun hw hd hb hh => dropped_holds (packetRoute_tooFar hx hm hv hw hd hb hh),
      fun hw hd hc hb hh => unicast_holds hx hm hv hw hd hc hb hh⟩
  · intro h id x s k vc hx hm hv hw hd hc hb hh hch hs hr hq hp ha
    have hid := heldOf_id hx
    subst hid
    exact resent_unknown (packetRoute_chosen hx hm hv hw hd hc hb hh) hch hs hr hq hp ha
  · intro h id x s hx hm hv hw hc hb hh
    have hid := heldOf_id hx
    subst hid
    have hrun := packetRoute_mcast hx hm hv hw hc hb hh
    exact ⟨fun hcs hok he => mcast_local hrun hcs hok he, fun hcs hok => mcast_waits hrun hcs hok,
      fun k hcs ha hu hsend hs hhalf hk => mcast_plus hrun hcs ha hu hsend hs hhalf hk⟩
  · intro h id off tag o x s hx hm hv hw hc hb hh hcs ha hbody hne
    have hid := heldOf_id hx
    subst hid
    exact mcast_short (packetRoute_mcast hx hm hv hw hc hb hh) hcs ha hbody hne
  · intro h id x s hx hm hv hd
    exact ⟨fun hb => dropped_holds (mgmt_full hx hm hv hd hb),
      fun k hb hh hl hc hr hw hs hhalf hk hre => mgmt_sent hx hm hv hd hb hh hl hc hr hw hs hhalf hk hre,
      fun hb hh hl => dropped_holds (mgmt_noLink hx hm hv hd hb hh hl)⟩
  · intro h id e x s hx hbad
    have hid := heldOf_id hx
    subst hid
    exact ⟨fun ht => (escapeWait_some hx hbad).trans (congrArg Host.Outcome.next (if_pos ht)),
      fun ht hc => dropped_replies (escapeWait_over hx hbad ht hc)⟩

end Sys2Proof.Machine

/-!
A packet taken from its ejection port changes what no memory or queue operation reads: each of them commutes with it (R276 to R286).
-/

namespace Sys2Proof.Machine

/-- A packet gone from the ejection ports, and the times of the admission paths replaced. -/
def pTaken (p : Packet) (m : SMap Nat) (s : State) : State := { s with
  routerW := { s.routerW with ejected := s.routerW.ejected.erase p }
  routerE := { s.routerE with ejected := s.routerE.ejected.erase p }
  admits := m }

theorem takeEjected_pTaken (s : State) (p : Packet) : takeEjected s p = pTaken p s.admits s := rfl

theorem noteAdmit_pTaken (s : State) (off : Nat) (p : Packet) :
    takeEjected (noteAdmit s off) p = pTaken p (noteAdmit s off).admits s := by
  unfold noteAdmit
  split <;> rfl

section
variable (p : Packet) (m : SMap Nat) (s : State)

theorem pTaken_ite (c : Prop) [Decidable c] (t : State) :
    pTaken p m (if c then s else t) = if c then pTaken p m s else pTaken p m t := apply_ite (pTaken p m) c s t

/-! ### Objects, output and journal -/

@[simp] theorem objGet_pTaken (k : Nat) : objGet (pTaken p m s) k = objGet s k := rfl
@[simp] theorem objPut_pTaken (k v : Nat) : objPut (pTaken p m s) k v = pTaken p m (objPut s k v) := rfl
@[simp] theorem objInc_pTaken (k : Nat) : objInc (pTaken p m s) k = pTaken p m (objInc s k) := rfl
@[simp] theorem emit_pTaken (o : Out) : emit (pTaken p m s) o = pTaken p m (emit s o) := rfl

@[simp] theorem journal_pTaken (e : JEvent) (as : List Nat) : journal (pTaken p m s) e as = pTaken p m (journal s e as) := by
  show journalPut (pTaken p m s) (journalEntry s e as false) = pTaken p m (journalPut s (journalEntry s e as false))
  generalize journalEntry s e as false = n
  unfold journalPut
  by_cases hroom : s.obs.jbuf.length < 4096
  · rw [if_pos hroom, if_pos (show (pTaken p m s).obs.jbuf.length < 4096 from hroom)]
    rfl
  · rw [if_neg hroom, if_neg (show ¬ (pTaken p m s).obs.jbuf.length < 4096 from hroom)]
    show (match lowestEntry s.obs.jbuf with | some l => _ | none => _) = _
    cases lowestEntry s.obs.jbuf with
    | none => rfl
    | some l =>
      dsimp only
      rw [pTaken_ite]
      rfl

@[simp] theorem countAddrError_pTaken (off : Nat) : countAddrError (pTaken p m s) off = pTaken p m (countAddrError s off) := rfl
@[simp] theorem regionOf_pTaken (off : Nat) : regionOf (pTaken p m s) off = regionOf s off := rfl

/-! ### Lines read and written -/

@[simp] theorem lineFound_pTaken (x : LineEvent) : lineFound (pTaken p m s) x = pTaken p m (lineFound s x) := by
  unfold lineFound
  rw [regionOf_pTaken]
  split
  · cases x.e <;> rfl
  · cases x.e <;> rfl
  · rfl

theorem foldl_lineFound_pTaken (xs : List LineEvent) : xs.foldl lineFound (pTaken p m s) = pTaken p m (xs.foldl lineFound s) := by
  induction xs generalizing s with
  | nil => rfl
  | cons x xs ih => rw [List.foldl_cons, List.foldl_cons, lineFound_pTaken, ih]

@[simp] theorem linesFound_pTaken (ls : List Nat) (ev : List LineEvent) :
    linesFound (pTaken p m s) ls ev = pTaken p m (linesFound s ls ev) := foldl_lineFound_pTaken p m s _

@[simp] theorem writeLpddrLine_pTaken (l mask : Nat) (data : Bytes) (b : Bool) :
    writeLpddrLine (pTaken p m s) l mask data b = pTaken p m (writeLpddrLine s l mask data b) := by
  unfold writeLpddrLine
  rw [pTaken_ite]
  rfl

@[simp] theorem noteWrite_pTaken (l : Nat) : noteWrite (pTaken p m s) l = pTaken p m (noteWrite s l) := by
  show updChan (if (chanOf s (channelOf s (64 * l))).dim.isSome then pTaken p m (objInc s Obj.memDimStalledRequests) else pTaken p m s)
    (channelOf s (64 * l)) (acceptWrite (if (chanOf s (channelOf s (64 * l))).dim.isSome then
      pTaken p m (objInc s Obj.memDimStalledRequests) else pTaken p m s).now l) = pTaken p m (updChan
    (if (chanOf s (channelOf s (64 * l))).dim.isSome then objInc s Obj.memDimStalledRequests else s)
    (channelOf s (64 * l)) (acceptWrite (if (chanOf s (channelOf s (64 * l))).dim.isSome then
      objInc s Obj.memDimStalledRequests else s).now l))
  split <;> rfl

@[simp] theorem writeLine_pTaken (off mask : Nat) (data : Bytes) (b : Bool) :
    writeLine (pTaken p m s) off mask data b = pTaken p m (writeLine s off mask data b) := by
  unfold writeLine
  rw [pTaken_ite, writeLpddrLine_pTaken, noteWrite_pTaken]
  rfl

theorem writeRun_pTaken (n off : Nat) (data : Bytes) (b : Bool) :
    writeRun (pTaken p m s) off data b n = pTaken p m (writeRun s off data b n) := by
  induction n generalizing s off data with
  | zero => rfl
  | succ n ih =>
    unfold writeRun
    dsimp only
    rw [pTaken_ite, writeLine_pTaken, ih]

@[simp] theorem writeBytes_pTaken (off : Nat) (data : Bytes) (b : Bool) :
    writeBytes (pTaken p m s) off data b = pTaken p m (writeBytes s off data b) := writeRun_pTaken p m s _ off data b

@[simp] theorem syncAdd_pTaken (o n : Nat) : syncAdd (pTaken p m s) o n = pTaken p m (syncAdd s o n) := rfl
@[simp] theorem syncPut_pTaken (o : Nat) (v : Word64) : syncPut (pTaken p m s) o v = pTaken p m (syncPut s o v) := rfl

/-! ### Queues -/

@[simp] theorem updQ_pTaken (q : Nat) (f : Queue → Queue) : updQ (pTaken p m s) q f = pTaken p m (updQ s q f) := rfl

@[simp] theorem sendVector_pTaken (v : Nat) : sendVector (pTaken p m s) v = pTaken p m (sendVector s v) := by
  unfold sendVector
  rw [pTaken_ite]
  rfl

@[simp] theorem queues_pTaken : (pTaken p m s).queues = s.queues := rfl

@[simp] theorem sendQueueIrqs_pTaken (q : Nat) : sendQueueIrqs (pTaken p m s) q = pTaken p m (sendQueueIrqs s q) := by
  unfold sendQueueIrqs
  rw [queues_pTaken]
  cases smGet s.queues q with
  | none => rfl
  | some v =>
    dsimp only
    simp only [updQ_pTaken, sendVector_pTaken, ← pTaken_ite]

@[simp] theorem writeQueueMem_pTaken (a : Nat) (data : Bytes) :
    writeQueueMem (pTaken p m s) a data = pTaken p m (writeQueueMem s a data) := by
  unfold writeQueueMem
  split
  · rw [pTaken_ite, writeBytes_pTaken, countAddrError_pTaken]
    rfl
  · rfl
  · rfl

@[simp] theorem raiseTrap_pTaken (q : Nat) : raiseTrap (pTaken p m s) q = pTaken p m (raiseTrap s q) := by
  simp only [raiseTrap, updQ_pTaken, sendQueueIrqs_pTaken]

@[simp] theorem raiseCpl_pTaken (q : Nat) : raiseCpl (pTaken p m s) q = pTaken p m (raiseCpl s q) := by
  simp only [raiseCpl, updQ_pTaken, sendQueueIrqs_pTaken]

@[simp] theorem raiseErr_pTaken (q : Nat) : raiseErr (pTaken p m s) q = pTaken p m (raiseErr s q) := by
  simp only [raiseErr, updQ_pTaken, sendQueueIrqs_pTaken]

@[simp] theorem now_pTaken : (pTaken p m s).now = s.now := rfl

@[simp] theorem putRecord_pTaken (q : Nat) (v : Queue) (ws : List Word64) :
    putRecord (pTaken p m s) q v ws = pTaken p m (putRecord s q v ws) := by
  simp only [putRecord, writeQueueMem_pTaken, now_pTaken, updQ_pTaken, raiseCpl_pTaken, pTaken_ite]

@[simp] theorem slotReady_pTaken (v : Queue) (n : Nat) : slotReady (pTaken p m s) v n = slotReady s v n := rfl

theorem backInvalidate_pTaken (r : Bool) (ls : List Nat) :
    backInvalidate (pTaken p m s) r ls = pTaken p m (backInvalidate s r ls) := by
  induction ls generalizing s with
  | nil => rfl
  | cons l ls ih =>
    unfold backInvalidate
    rw [pTaken_ite, ← ih, ← ih]
    rfl

@[simp] theorem askSlot_pTaken (v : Queue) : askSlot (pTaken p m s) v = pTaken p m (askSlot s v) := by
  unfold askSlot
  rw [pTaken_ite, backInvalidate_pTaken]

@[simp] theorem parkRecord_pTaken (q : Nat) (v : Queue) (w : Parked) :
    parkRecord (pTaken p m s) q v w = pTaken p m (parkRecord s q v w) := by
  simp only [parkRecord, updQ_pTaken, askSlot_pTaken]

@[simp] theorem writeSpare_pTaken (q : Nat) (ws : List Word64) : writeSpare (pTaken p m s) q ws = pTaken p m (writeSpare s q ws) := by
  unfold writeSpare
  rw [queues_pTaken]
  cases smGet s.queues q with
  | none => rfl
  | some v =>
    dsimp only
    rw [pTaken_ite, slotReady_pTaken, putRecord_pTaken, parkRecord_pTaken]

/-! ### Tail signals -/

@[simp] theorem remoteSignalFailed_pTaken (q n : Nat) :
    remoteSignalFailed (pTaken p m s) q n = pTaken p m (remoteSignalFailed s q n) := by
  simp only [remoteSignalFailed, objInc_pTaken, updQ_pTaken, raiseErr_pTaken, journal_pTaken]

/-- Whether the next sequence number is held by the limit of one per 200 ns, and when it is used. -/
def seqHeld (now : Nat) : Option Nat → Bool
  | some t => decide (now < t + 200)
  | none => false
def seqAt (now : Nat) : Option Nat → Nat
  | some t => max now (t + 200)
  | none => now

theorem takeSeq_eq (s : State) (h : Half) : takeSeq s h =
    updRouter (if seqHeld s.now (routerOf s h).lastSeq then objInc s Obj.seqIssueStalls else s) h
      (fun r => { r with seqNext := (r.seqNext + 2) % 65536, lastSeq := some (seqAt s.now (routerOf s h).lastSeq) }) := rfl

theorem lastSeq_pTaken (h : Half) : (routerOf (pTaken p m s) h).lastSeq = (routerOf s h).lastSeq := by
  cases h <;> rfl

theorem seqNext_pTaken (h : Half) : (routerOf (pTaken p m s) h).seqNext = (routerOf s h).seqNext := by
  cases h <;> rfl

@[simp] theorem takeSeq_pTaken (h : Half) : takeSeq (pTaken p m s) h = pTaken p m (takeSeq s h) := by
  rw [takeSeq_eq, takeSeq_eq, lastSeq_pTaken, now_pTaken]
  split <;> cases h <;> rfl

@[simp] theorem inject_pTaken (h : Half) (x : Packet) (f : Option Nat) (cs : Option (Bool × Bool × Bool)) :
    inject (pTaken p m s) h x f cs = pTaken p m (inject s h x f cs) := by
  cases h <;> rfl

/-- A request injected and kept outstanding. -/
def requestSent (u : State) (h : Half) (x : Packet) (tag : Nat) (o : Nat → Outst) : State :=
  { inject u h x none with
    outst := (inject u h x none).outst ++ [o (inject u h x none).now], nextTag := (tag + 1) % 2 ^ 20 }

/-- The sequence number of a request that needs one is used. -/
def seqUsed (s : State) (h : Half) : FabOp → State
  | .atomic _ _ _ _ _ => takeSeq s h
  | .signal _ _ => takeSeq s h
  | _ => s

/-- The tag that a request takes. -/
def tagTaken (s : State) : Nat := freeTag s (s.outst.length + s.tagHold.length + 1) s.nextTag

theorem sendRequest_eq (s : State) (h : Half) (dest off : Nat) (op : FabOp) (who : Requester) (fill : Bool) (want : Nat) :
    sendRequest s h dest off op who fill want =
      requestSent (seqUsed s h op) h
        (mkPacket s dest 1 (routerOf s h).seqNext (pathHash off) (.req off (tagTaken s) op)) (tagTaken s)
        (fun now => { tag := tagTaken s, half := h, dest := dest, who := who, since := now,
                      bytes := 4 * packetLen (.req off (tagTaken s) op), fillOk := fill, off := off, want := want }) := by
  cases op <;> rfl

theorem freeTag_pTaken (n t : Nat) : freeTag (pTaken p m s) n t = freeTag s n t := by
  induction n generalizing t with
  | zero => rfl
  | succ n ih =>
    unfold freeTag
    rw [ih]
    rfl

theorem tagTaken_pTaken : tagTaken (pTaken p m s) = tagTaken s := freeTag_pTaken p m s _ _

theorem seqUsed_pTaken (h : Half) (op : FabOp) : seqUsed (pTaken p m s) h op = pTaken p m (seqUsed s h op) := by
  cases op with
  | load n => rfl
  | store mask data poison => rfl
  | atomic op w age a b => exact takeSeq_pTaken p m s h
  | signal age n => exact takeSeq_pTaken p m s h

theorem requestSent_pTaken (h : Half) (x : Packet) (tag : Nat) (o : Nat → Outst) :
    requestSent (pTaken p m s) h x tag o = pTaken p m (requestSent s h x tag o) := by
  cases h <;> rfl

@[simp] theorem sendRequest_pTaken (h : Half) (dest off : Nat) (op : FabOp) (who : Requester) (fill : Bool) (want : Nat) :
    sendRequest (pTaken p m s) h dest off op who fill want = pTaken p m (sendRequest s h dest off op who fill want) := by
  rw [sendRequest_eq, sendRequest_eq, tagTaken_pTaken, seqNext_pTaken, seqUsed_pTaken]
  exact requestSent_pTaken p m _ h _ _ _

@[simp] theorem remoteSignal_pTaken (h : Half) (q n c o k : Nat) :
    remoteSignal (pTaken p m s) h q n c o k = pTaken p m (remoteSignal s h q n c o k) := by
  unfold remoteSignal
  dsimp only
  rw [show sendThrough (pTaken p m s) c (syncBase + 8 * o) 8 .atomic = sendThrough s c (syncBase + 8 * o) 8 .atomic from rfl,
    show chip (pTaken p m s) = chip s from rfl]
  split
  · rw [objInc_pTaken, remoteSignalFailed_pTaken]
  · rw [syncAdd_pTaken, countAddrError_pTaken, remoteSignalFailed_pTaken, sendRequest_pTaken, ← pTaken_ite, ← pTaken_ite]

@[simp] theorem tailSignal_pTaken (h : Half) (q n : Nat) (ws : List Word64) :
    tailSignal (pTaken p m s) h q n ws = pTaken p m (tailSignal s h q n ws) := by
  simp only [tailSignal, remoteSignal_pTaken, syncAdd_pTaken, pTaken_ite]

/-! ### The end of a descriptor -/

@[simp] theorem trapQueue_pTaken (q n : Nat) : trapQueue (pTaken p m s) q n = pTaken p m (trapQueue s q n) := by
  simp only [trapQueue, updQ_pTaken, raiseTrap_pTaken]

@[simp] theorem endDesc_pTaken (v : Queue) (d : Done) : endDesc (pTaken p m s) v d = pTaken p m (endDesc s v d) := by
  simp only [endDesc, updQ_pTaken, trapQueue_pTaken, tailSignal_pTaken, ← pTaken_ite]

theorem unpark_pTaken (q : Nat) (v : Queue) (w : Parked) :
    unpark (pTaken p m s) q v w = (unpark s q v w).map (pTaken p m) := by
  unfold unpark
  split
  · rw [slotReady_pTaken, putRecord_pTaken, endDesc_pTaken]
    split <;> rfl
  · rw [slotReady_pTaken, putRecord_pTaken]
    split <;> rfl

theorem drainRing_pTaken (q n : Nat) : drainRing (pTaken p m s) q n = pTaken p m (drainRing s q n) := by
  induction n generalizing s with
  | zero => rfl
  | succ n ih =>
    unfold drainRing
    rw [queues_pTaken]
    cases smGet s.queues q with
    | none => rfl
    | some v =>
      dsimp only
      cases v.waitRing with
      | nil => rfl
      | cons w r =>
        dsimp only
        rw [updQ_pTaken, unpark_pTaken]
        cases unpark (updQ s q fun x => { x with waitRing := r }) q v w with
        | none => exact askSlot_pTaken p m s v
        | some u => exact ih u

/-! ### A control page -/

@[simp] theorem doorbellTake_pTaken (q n : Nat) : doorbellTake (pTaken p m s) q n = pTaken p m (doorbellTake s q n) := by
  unfold doorbellTake
  rw [queues_pTaken]
  cases smGet s.queues q with
  | none => rfl
  | some v =>
    dsimp only
    rw [updQ_pTaken, updQ_pTaken, objInc_pTaken, raiseErr_pTaken, ← pTaken_ite, ← pTaken_ite]

@[simp] theorem doorbellWrite_pTaken (q n : Nat) : doorbellWrite (pTaken p m s) q n = pTaken p m (doorbellWrite s q n) := by
  unfold doorbellWrite
  rw [queues_pTaken]
  cases smGet s.queues q with
  | none => rfl
  | some v =>
    dsimp only
    rw [show doorbellHeld (pTaken p m s) v = doorbellHeld s v from rfl, updQ_pTaken, doorbellTake_pTaken, ← pTaken_ite]

@[simp] theorem clearTrap_pTaken (q : Nat) : clearTrap (pTaken p m s) q = pTaken p m (clearTrap s q) := rfl

theorem makeTails_pTaken (q : Nat) (v : Queue) (xs : List (Nat × List Word64)) :
    makeTails (pTaken p m s) q v xs = pTaken p m (makeTails s q v xs) := by
  induction xs generalizing s with
  | nil => rfl
  | cons x xs ih =>
    unfold makeTails
    rw [tailSignal_pTaken, ih]

@[simp] theorem releaseQueue_pTaken (q : Nat) : releaseQueue (pTaken p m s) q = pTaken p m (releaseQueue s q) := by
  unfold releaseQueue
  rw [queues_pTaken]
  cases smGet s.queues q with
  | none => rfl
  | some v =>
    dsimp only
    rw [clearTrap_pTaken, makeTails_pTaken, ← pTaken_ite]

@[simp] theorem discardQueue_pTaken (q : Nat) : discardQueue (pTaken p m s) q = pTaken p m (discardQueue s q) := by
  unfold discardQueue
  rw [queues_pTaken]
  cases smGet s.queues q with
  | none => rfl
  | some v =>
    dsimp only
    rw [clearTrap_pTaken, ← pTaken_ite]

@[simp] theorem abortRecord_pTaken (q n op e : Nat) (b : List Word64) :
    abortRecord (pTaken p m s) q n op e b = pTaken p m (abortRecord s q n op e b) := writeSpare_pTaken p m s q _

theorem abortRecords_pTaken (q : Nat) (xs : List (Nat × Nat × Nat)) :
    abortRecords (pTaken p m s) q xs = pTaken p m (abortRecords s q xs) := by
  induction xs generalizing s with
  | nil => rfl
  | cons x xs ih =>
    unfold abortRecords
    rw [abortRecord_pTaken, ih]

theorem abortLayers_pTaken (q : Nat) (ls : List Layer) : abortLayers (pTaken p m s) q ls = pTaken p m (abortLayers s q ls) := by
  induction ls generalizing s with
  | nil => rfl
  | cons l ls ih =>
    unfold abortLayers
    rw [abortRecord_pTaken, ih]

/-- What of an aborted queue goes before its records are written. -/
def abortCut (s : State) (q ring : Nat) (gone halted : List Nat) : State :=
  { dropStreams s q halted with
    free := (dropStreams s q halted).free + ring
    waiters := (dropStreams s q halted).waiters.filter (fun w => !(w.queue == q && gone.contains w.seq))
    layers := (dropStreams s q halted).layers.filter (fun l => l.queue != q) }

theorem abortCut_pTaken (q ring : Nat) (gone halted : List Nat) :
    abortCut (pTaken p m s) q ring gone halted = pTaken p m (abortCut s q ring gone halted) := rfl

theorem slotHead_pTaken (v : Queue) (i : Nat) : slotHead (pTaken p m s) v i = slotHead s v i := rfl

@[simp] theorem abortQueue_pTaken (q : Nat) : abortQueue (pTaken p m s) q = pTaken p m (abortQueue s q) := by
  unfold abortQueue
  rw [queues_pTaken]
  cases smGet s.queues q with
  | none => rfl
  | some v =>
    dsimp only
    rw [pTaken_ite]
    refine if_congr Iff.rfl ?_ rfl
    simp only [← updQ_pTaken, ← abortLayers_pTaken, ← abortRecords_pTaken]
    rfl

@[simp] theorem irqWrite_pTaken (q w : Nat) : irqWrite (pTaken p m s) q w = pTaken p m (irqWrite s q w) := by
  unfold irqWrite
  rw [queues_pTaken]
  cases smGet s.queues q with
  | none => rfl
  | some v =>
    dsimp only
    rw [updQ_pTaken, sendQueueIrqs_pTaken]

@[simp] theorem cplHeadWrite_pTaken (q w : Nat) : cplHeadWrite (pTaken p m s) q w = pTaken p m (cplHeadWrite s q w) := by
  unfold cplHeadWrite
  rw [queues_pTaken]
  cases smGet s.queues q with
  | none => rfl
  | some v =>
    dsimp only
    rw [updQ_pTaken, drainRing_pTaken]

@[simp] theorem pageWrite_pTaken (q r w : Nat) : pageWrite (pTaken p m s) q r w = pTaken p m (pageWrite s q r w) := by
  simp only [pageWrite, doorbellWrite_pTaken, updQ_pTaken, releaseQueue_pTaken, discardQueue_pTaken, abortQueue_pTaken,
    cplHeadWrite_pTaken, irqWrite_pTaken, ← pTaken_ite]

theorem pageStoreWords_pTaken (line mask : Nat) (data : Bytes) (ks : List Nat) :
    pageStoreWords (pTaken p m s) line mask data ks = pTaken p m (pageStoreWords s line mask data ks) := by
  induction ks generalizing s with
  | nil => rfl
  | cons k ks ih =>
    unfold pageStoreWords
    dsimp only
    rw [pageWrite_pTaken, pageWrite_pTaken, ← pTaken_ite, ← pTaken_ite, ih]

/-- A store to the control pages neither reads nor changes the ejection ports. -/
theorem pageStore_pTaken (line mask : Nat) (data : Bytes) :
    pageStore (pTaken p m s) line mask data = pTaken p m (pageStore s line mask data) := pageStoreWords_pTaken p m s line mask data _

end

end Sys2Proof.Machine

/-!
Requests that reach their target: not ready, loads, and what a reply is (R276, R278, R279).
-/

namespace Sys2Proof.Machine

section
variable {s u : State} {p : Packet} {off tag n : Nat}

/-! ### How a request is served -/

section
variable {read : Bool} {run : State → Half → State}

theorem serveRequest_notReady (h : servesFabric s = false) : serveRequest s p off tag n read run =
    replyTo (takeEjected s p) (homeHalf s off) p tag fabNotReady 0 [] := if_pos (by simp [h])

theorem serveRequest_late (h : ServedNow s off n) (hl : admitLate s off = true) : serveRequest s p off tag n false run = s := by
  obtain ⟨h1, h2, h3, h4, -⟩ := h
  unfold serveRequest
  simp only [h1, h2, h3, h4, hl, Bool.not_true, Bool.not_false, Bool.and_self, Bool.false_eq_true, if_false, if_true]

/-- The times of the admission paths once a request has been admitted. -/
def admitted (s : State) (off : Nat) (read : Bool) : SMap Nat := if read then s.admits else (noteAdmit s off).admits

theorem serveRequest_runs (h : ServedNow s off n) (hl : read = false → admitLate s off = false) :
    serveRequest s p off tag n read run = run (pTaken p (admitted s off read) s) (homeHalf s off) := by
  obtain ⟨h1, h2, h3, h4, h5⟩ := h
  unfold serveRequest pastDim
  cases read with
  | true =>
    simp only [h1, h2, h3, h4, h5, Bool.not_true, Bool.false_and, Bool.false_eq_true, if_false, if_true]
    rfl
  | false =>
    simp only [h1, h2, h3, h4, h5, hl rfl, Bool.not_true, Bool.not_false, Bool.and_false, Bool.false_eq_true, if_false]
    rw [noteAdmit_pTaken]
    rfl

theorem serveRequest_calls {l : Nat} (h1 : servesFabric s = true) (h2 : snoopFailed s [l] = false) (h3 : snoopWaits s [l] = false)
    (ht : touchedLines s off n = [l]) (h4 : tracked s l = true) :
    serveRequest s p off tag n read run = backInvalidate s read [l] := by
  unfold serveRequest
  simp only [h1, ht, h2, h3, List.any_cons, List.any_nil, h4, Bool.not_true, Bool.or_false, Bool.false_eq_true, if_false, if_true]

end

/-! ### What a reply leaves -/

/-- What of a router a reply's content depends on. -/
def portPart (r : Router) : Router := { r with lastEarly := none }

/-- Two states between which a request's own work lies: the same ports, moment and addresses. -/
structure SamePorts (s u : State) : Prop where
  ports : ∀ g, portPart (routerOf u g) = portPart (routerOf s g)
  now : u.now = s.now
  chip : objGet u 0 = objGet s 0
  epoch : objGet u Obj.routeEpochActive = objGet s Obj.routeEpochActive

theorem SamePorts.refl (s : State) : SamePorts s s := ⟨fun _ => rfl, rfl, rfl, rfl⟩

theorem SamePorts.of_objs {ks : List Nat} (hw : u.routerW = s.routerW) (he : u.routerE = s.routerE) (hn : u.now = s.now)
    (hs : SameObjs s u ks) (h0 : 0 ∉ ks) (h1 : Obj.routeEpochActive ∉ ks) : SamePorts s u :=
  ⟨fun g => by rw [routerOf_congr hw he], hn, hs 0 h0, hs _ h1⟩

/-- The packet that a reply is. -/
def replyPacket (s : State) (seq : Nat) (p : Packet) (tag st mask : Nat) (data : Bytes) : Packet :=
  { mkPacket s p.src 4 seq p.pathHash (.rep tag st mask data) with echo := p.mark }

/-- A reply as its router holds it. -/
def replyHeld (id since : Nat) (x : Packet) : Held := { id := id, p := x, from_ := none, since := since, copies := none }

theorem mkPacket_congr (h : SamePorts s u) (d vc q hash : Nat) (b : Body) : mkPacket u d vc q hash b = mkPacket s d vc q hash b := by
  unfold mkPacket
  rw [chip_eq_objGet, h.chip, h.epoch]
  rfl

theorem ejected_replyTo (s : State) (h g : Half) (tag st mask : Nat) (data : Bytes) :
    (routerOf (replyTo s h p tag st mask data) g).ejected = (routerOf s g).ejected := by
  cases h <;> cases g <;> rfl

theorem held_replyTo_other (s : State) (h : Half) (tag st mask : Nat) (data : Bytes) :
    (routerOf (replyTo s h p tag st mask data) (otherHalf h)).held = (routerOf s (otherHalf h)).held := by
  cases h <;> rfl

theorem seqReply_replyTo (s : State) (h : Half) (tag st mask : Nat) (data : Bytes) :
    (routerOf (replyTo s h p tag st mask data) h).seqReply = ((routerOf s h).seqReply + 2) % 65536 := by
  cases h <;> rfl

theorem routerOf_pTaken (p : Packet) (m : SMap Nat) (s : State) (g : Half) :
    routerOf (pTaken p m s) g = { routerOf s g with ejected := (routerOf s g).ejected.erase p } := by
  cases g <;> rfl

theorem mkPacket_pTaken (p : Packet) (m : SMap Nat) (s : State) (d vc q hash : Nat) (b : Body) :
    mkPacket (pTaken p m s) d vc q hash b = mkPacket s d vc q hash b := rfl

/-- A request's work done and answered: what its ports hold, and that nothing else changes. -/
theorem replied_holds (h : Half) (m : SMap Nat) (hs : SamePorts s u) (st mask : Nat) (data : Bytes) :
    ∃ t, t = replyTo (pTaken p m u) h p tag st mask data
      ∧ t = { u with routerW := t.routerW, routerE := t.routerE, admits := m } ∧ Replied s t h p tag st mask data
      ∧ ∀ g, (routerOf t g).lastEarly = (routerOf u g).lastEarly := by
  have hport := hs.ports
  have hheld : ∀ g, (routerOf u g).held = (routerOf s g).held := fun g => (congrArg Router.held (hport g) :)
  have hseq : (routerOf u h).seqReply = (routerOf s h).seqReply := (congrArg Router.seqReply (hport h) :)
  have hid : (routerOf u h).nextId = (routerOf s h).nextId := (congrArg Router.nextId (hport h) :)
  have heject : ∀ g, (routerOf u g).ejected = (routerOf s g).ejected := fun g => (congrArg Router.ejected (hport g) :)
  have hframe : replyTo (pTaken p m u) h p tag st mask data =
      { pTaken p m u with routerW := (replyTo (pTaken p m u) h p tag st mask data).routerW
                          routerE := (replyTo (pTaken p m u) h p tag st mask data).routerE } :=
    replyTo_keeps (footRouterWRouterE · (replyTo (pTaken p m u) h p tag st mask data)) (fun _ _ => rfl) _ _ _ _ _ _ _
  refine ⟨_, rfl, hframe, ⟨?_, ?_, ?_, fun g => ?_⟩, fun g => ?_⟩
  · rw [held_replyTo, routerOf_pTaken, mkPacket_pTaken, mkPacket_congr hs]
    show (routerOf u h).held ++ [replyHeld (routerOf u h).nextId u.now (replyPacket s (routerOf u h).seqReply p tag st mask data)] = _
    rw [hheld, hid, hs.now, hseq]
    rfl
  · rw [seqReply_replyTo, routerOf_pTaken]
    exact congrArg (fun q => (q + 2) % 65536) hseq
  · rw [held_replyTo_other, routerOf_pTaken]
    exact hheld _
  · rw [ejected_replyTo, routerOf_pTaken]
    exact congrArg (fun l : List Packet => l.erase p) (heject g)
  · have hearly : (routerOf (pTaken p m u) g).lastEarly = (routerOf u g).lastEarly := by cases g <;> rfl
    rw [← hearly]
    cases h <;> cases g <;> rfl

/-! ### A module that serves no request yet -/

theorem notReady_holds {i : Instr} {read : Bool} {run : State → Half → State} (h : servesFabric s = false)
    (hrun : exec i s = .next (serveRequest s p off tag n read run)) :
    ∃ t, exec i s = .next t ∧ t = { s with routerW := t.routerW, routerE := t.routerE }
      ∧ Replied s t (homeHalf s off) p tag fabNotReady 0 [] := by
  obtain ⟨t, ht, hframe, hrep, -⟩ := replied_holds (s := s) (p := p) (tag := tag) (homeHalf s off) s.admits (SamePorts.refl s)
    fabNotReady 0 []
  refine ⟨t, hrun.trans (congrArg Host.Outcome.next ?_), hframe, hrep⟩
  rw [serveRequest_notReady h, takeEjected_pTaken, ht]

/-! ### What reads find -/

/-- What an access's reads may change. -/
def footFound (s t : State) : State :=
  { s with dic := t.dic, wires := t.wires, chans := t.chans, lpddrBad := t.lpddrBad, tilePoison := t.tilePoison }

theorem linesFound_frame (s : State) (ls : List Nat) (ev : List LineEvent) : linesFound s ls ev = footFound s (linesFound s ls ev) :=
  linesFound_keeps (footFound · (linesFound s ls ev)) (fun _ _ => rfl) s ls ev

theorem readDecoded_dic (s : State) (l : Nat) (e : Ecc) : (readDecoded s l e).dic = s.dic := by
  cases e with
  | clean => rfl
  | corrected =>
    show (islandEvent s _ _ _).dic = s.dic
    exact islandEvent_keeps State.dic (fun _ _ => rfl) ..
  | uncorrectable =>
    show (islandEvent { s with lpddrBad := nsAdd s.lpddrBad l } _ _ _).dic = s.dic
    exact islandEvent_keeps State.dic (fun _ _ => rfl) { s with lpddrBad := nsAdd s.lpddrBad l } _ _ _

theorem sameObjs_lineFound (s : State) (x : LineEvent) : SameObjs s (lineFound s x) [Obj.tstCorrected, Obj.tstUncorrectable] := by
  unfold lineFound
  split
  · exact (SameObjs.refl s _).of_dic (readDecoded_dic s _ _)
  · cases x.e with
    | clean => exact SameObjs.refl s _
    | corrected => exact (SameObjs.refl s _).objInc _ (by decide)
    | uncorrectable =>
      exact ((SameObjs.refl s _).of_dic (u := { s with tilePoison := nsAdd s.tilePoison (tileLine (64 * x.line)) }) rfl).objInc _ (by decide)
  · exact SameObjs.refl s _

theorem sameObjs_linesFound (s : State) (ls : List Nat) (ev : List LineEvent) :
    SameObjs s (linesFound s ls ev) [Obj.tstCorrected, Obj.tstUncorrectable] :=
  SameObjs.foldl (SameObjs.refl s _) lineFound (fun u x => sameObjs_lineFound u x) _

theorem samePorts_linesFound (s : State) (ls : List Nat) (ev : List LineEvent) : SamePorts s (linesFound s ls ev) := by
  have hframe := linesFound_frame s ls ev
  exact SamePorts.of_objs (congrArg State.routerW hframe :) (congrArg State.routerE hframe :) (congrArg State.now hframe :)
    (sameObjs_linesFound s ls ev) (by decide) (by decide)

/-! ### Loads -/

theorem loadAt_pTaken (m : SMap Nat) : loadAt (pTaken p m u) off n = loadAt u off n := rfl

theorem afterRead_pTaken (m : SMap Nat) : afterRead (pTaken p m u) off n = pTaken p m (afterRead u off n) := by
  unfold afterRead
  rw [pTaken_ite]
  rfl

theorem afterRead_frame (u : State) (off n : Nat) : afterRead u off n = { u with free := (afterRead u off n).free } := by
  unfold afterRead
  split <;> rfl

theorem countReserved_one (u : State) (off : Nat) : countReserved u [off] = if regionOf u off = .reserved then countAddrError u off else u := rfl

theorem countReserved_pTaken (u : State) (m : SMap Nat) (off : Nat) :
    countReserved (pTaken p m u) [off] = pTaken p m (countReserved u [off]) := by
  rw [countReserved_one, countReserved_one, pTaken_ite]
  rfl

/-- An access at a reserved offset is counted in its half, and nothing else. -/
theorem reservedCounted (v : State) (off : Nat) (c : Prop) [Decidable c] : ∃ u, u = (if c then countAddrError v off else v)
    ∧ u = { v with dic := u.dic } ∧ SameObjs v u (if c then [fabAddrErrorKey (homeHalf v off)] else [])
    ∧ (c → Counted v u (fabAddrErrorKey (homeHalf v off)) 1) := by
  refine ⟨_, rfl, ?_⟩
  by_cases hc : c
  · rw [if_pos hc, if_pos hc]
    exact ⟨rfl, (SameObjs.refl v _).objInc _ List.mem_cons_self, fun _ => objGet_objInc_self v _⟩
  · rw [if_neg hc, if_neg hc]
    exact ⟨rfl, SameObjs.refl v _, fun h => absurd h hc⟩

theorem loadRequest_eq {q : TargetRead} (hq : q.packet = p) (hb : p.body = .req off tag (.load n)) :
    exec (.loadRequest q) s = .next (serveRequest s p off tag n true (fun s h =>
      match loadAt (linesFound s (linesOf off n) q.ev) off n with
      | some (data, mask) => replyTo (afterRead (linesFound s (linesOf off n) q.ev) off n) h p tag 0 mask data
      | none => replyTo (countReserved (linesFound s (linesOf off n) q.ev) [off]) h p tag fabAddress
          (2 ^ min 4 (linesOf off n).length - 1) [])) := by
  subst hq
  refine congrArg Host.Outcome.next ?_
  unfold serveLoad
  rw [hb] <;> rfl

section
variable {q : TargetRead} (hq : q.packet = p) (hb : p.body = .req off tag (.load n))
include hq hb

theorem loadRequest_found (hs : ServedNow s off n) {data : Bytes} {mask : Nat}
    (hl : loadAt (linesFound s (linesOf off n) q.ev) off n = some (data, mask)) :
    ∃ t, exec (.loadRequest q) s = .next t
      ∧ t = { linesFound s (linesOf off n) q.ev with free := t.free, routerW := t.routerW, routerE := t.routerE }
      ∧ t.lpddr = s.lpddr ∧ t.tile = s.tile
      ∧ Replied s t (homeHalf s off) p tag 0 mask data ∧ SameObjs s t [Obj.tstCorrected, Obj.tstUncorrectable]
      ∧ (q.ev = [] → t.dic = s.dic ∧ t.wires = s.wires ∧ t.chans = s.chans ∧ t.lpddrBad = s.lpddrBad
          ∧ t.tilePoison = s.tilePoison) := by
  have hrun := (loadRequest_eq (s := s) hq hb).trans (congrArg Host.Outcome.next (serveRequest_runs hs (fun he => by simp at he)))
  have hfound := linesFound_frame s (linesOf off n) q.ev
  have hobjs := sameObjs_linesFound s (linesOf off n) q.ev
  have hports := samePorts_linesFound s (linesOf off n) q.ev
  have hnone : q.ev = [] → linesFound s (linesOf off n) q.ev = s := fun he => by
    rw [he]
    rfl
  simp only [linesFound_pTaken, loadAt_pTaken, hl] at hrun
  rw [afterRead_pTaken] at hrun
  have hafter := afterRead_frame (linesFound s (linesOf off n) q.ev) off n
  generalize linesFound s (linesOf off n) q.ev = v at *
  generalize afterRead v off n = u at *
  have hu : SamePorts s u := by
    rw [hafter]
    exact ⟨hports.ports, hports.now, hports.chip, hports.epoch⟩
  have hdic : u.dic = v.dic := (congrArg State.dic hafter :)
  obtain ⟨t, ht, hframe, hrep, -⟩ := replied_holds (p := p) (tag := tag) (homeHalf s off) (admitted s off true) hu 0 mask data
  have hadm : admitted s off true = s.admits := rfl
  have hva : v.admits = s.admits := (congrArg State.admits hfound :)
  have htd : t.dic = v.dic := (congrArg State.dic hframe :).trans hdic
  have hfree : t.free = u.free := (congrArg State.free hframe :)
  refine ⟨t, hrun.trans (congrArg Host.Outcome.next ht.symm), ?_, ?_, ?_, hrep, hobjs.of_dic htd, fun he => ?_⟩
  · rw [hfree]
    refine hframe.trans ?_
    rw [hadm, ← hva]
    generalize t.routerW = rw', t.routerE = re
    rw [hafter]
  · exact (congrArg State.lpddr hframe :).trans ((congrArg State.lpddr hafter :).trans (congrArg State.lpddr hfound :))
  · exact (congrArg State.tile hframe :).trans ((congrArg State.tile hafter :).trans (congrArg State.tile hfound :))
  · have hvs := hnone he
    subst hvs
    exact ⟨htd, (congrArg State.wires hframe :).trans (congrArg State.wires hafter :),
      (congrArg State.chans hframe :).trans (congrArg State.chans hafter :),
      (congrArg State.lpddrBad hframe :).trans (congrArg State.lpddrBad hafter :),
      (congrArg State.tilePoison hframe :).trans (congrArg State.tilePoison hafter :)⟩

theorem loadRequest_refused (hs : ServedNow s off n) (hl : loadAt (linesFound s (linesOf off n) q.ev) off n = none) :
    ∃ t, exec (.loadRequest q) s = .next t
      ∧ t = { linesFound s (linesOf off n) q.ev with dic := t.dic, routerW := t.routerW, routerE := t.routerE }
      ∧ Replied s t (homeHalf s off) p tag fabAddress (2 ^ min 4 (linesOf off n).length - 1) []
      ∧ (regionOf s off = .reserved → q.ev = [] → Counted s t (fabAddrErrorKey (homeHalf s off)) 1)
      ∧ SameObjs (linesFound s (linesOf off n) q.ev) t
          (if regionOf s off = .reserved then [fabAddrErrorKey (homeHalf s off)] else []) := by
  have hrun := (loadRequest_eq (s := s) hq hb).trans (congrArg Host.Outcome.next (serveRequest_runs hs (fun he => by simp at he)))
  have hfound := linesFound_frame s (linesOf off n) q.ev
  have hports := samePorts_linesFound s (linesOf off n) q.ev
  have hnone : q.ev = [] → linesFound s (linesOf off n) q.ev = s := fun he => by
    rw [he]
    rfl
  simp only [linesFound_pTaken, loadAt_pTaken, hl] at hrun
  rw [countReserved_pTaken, countReserved_one] at hrun
  generalize linesFound s (linesOf off n) q.ev = v at *
  have hregion : regionOf v off = regionOf s off := (congrArg (regionOf · off) hfound).trans rfl
  have hhome : homeHalf v off = homeHalf s off := (congrArg (homeHalf · off) hfound).trans rfl
  have hva : v.admits = s.admits := (congrArg State.admits hfound :)
  rw [hregion] at hrun
  obtain ⟨u, hu, hdic, huobjs, hucount⟩ := reservedCounted v off (regionOf s off = .reserved)
  rw [← hu] at hrun
  rw [hhome] at huobjs hucount
  have hsame : SamePorts s u := by
    have hne : ∀ k, k = 0 ∨ k = Obj.routeEpochActive → objGet u k = objGet v k := fun k hk => huobjs k (by
      split
      · rcases hk with rfl | rfl <;> cases homeHalf s off <;> decide
      · exact List.not_mem_nil)
    rw [hdic] at hne ⊢
    exact ⟨hports.ports, hports.now, (hne 0 (Or.inl rfl)).trans hports.chip, (hne _ (Or.inr rfl)).trans hports.epoch⟩
  obtain ⟨t, ht, hframe, hrep, -⟩ := replied_holds (p := p) (tag := tag) (homeHalf s off) (admitted s off true) hsame fabAddress
    (2 ^ min 4 (linesOf off n).length - 1) []
  have htd : t.dic = u.dic := (congrArg State.dic hframe :)
  refine ⟨t, hrun.trans (congrArg Host.Outcome.next ht.symm), ?_, hrep, fun hr he => ?_, huobjs.of_dic htd⟩
  · rw [htd]
    refine hframe.trans ?_
    rw [show admitted s off true = v.admits from hva.symm]
    generalize t.routerW = rw', t.routerE = re
    rw [hdic]
  · have hvs := hnone he
    subst hvs
    exact (show objGet t _ = objGet u _ by unfold objGet; rw [htd]).trans (hucount hr)

theorem loadRequest_calls {l : Nat} (h1 : servesFabric s = true) (h2 : snoopFailed s [l] = false) (h3 : snoopWaits s [l] = false)
    (ht : touchedLines s off n = [l]) (h4 : tracked s l = true) :
    ∃ t, exec (.loadRequest q) s = .next t ∧ t = { s with out := s.out ++ [.backInvalidate l true], host := t.host }
      ∧ t.host.bisnp = s.host.bisnp ++ [(l, s.now)] := by
  have hw : s.host.bisnp.any (fun b => b.1 == l) = false := by simpa [snoopWaits] using h3
  have hcall : backInvalidate s true [l] = { s with
      out := s.out ++ [.backInvalidate l true]
      host := { s.host with bisnp := s.host.bisnp ++ [(l, s.now)], bisnpBad := s.host.bisnpBad.erase l } } := by
    unfold backInvalidate backInvalidate
    rw [if_pos (by simp [h4, hw])]
    rfl
  refine ⟨_, ((loadRequest_eq (s := s) hq hb).trans (congrArg Host.Outcome.next
    (serveRequest_calls h1 h2 h3 ht h4))).trans (congrArg Host.Outcome.next hcall), rfl, rfl⟩

end

end

end Sys2Proof.Machine

/-!
Stores at their target: lines of memory, synchronisation objects, control pages and refused forms (R276, R278, R285).
-/

namespace Sys2Proof.Machine

/-! ### One line of memory stored -/

section
variable {s : State} {data : Bytes} (hlen : data.length = 64)
include hlen

theorem memByte_stored (m : Mem) (a mask i : Nat) (hi : i < 64) (hb : natBit i mask = true) :
    memRead (memStoreMask m a mask data) (a + i) = data.getD i 0 := by
  rw [memRead_memStoreMask_in m a i mask data (by omega), if_pos (by simpa [natBit] using hb), List.getD_eq_getElem _ _ (by omega)]

theorem memByte_unmasked (m : Mem) (a mask i : Nat) (hi : i < 64) (hb : natBit i mask = false) :
    memRead (memStoreMask m a mask data) (a + i) = memRead m (a + i) := by
  rw [memRead_memStoreMask_in m a i mask data (by omega), if_neg (by simpa [natBit] using hb)]

end

/-- The memory that a masked write of a line of LPDDR goes over. -/
def writeBase (s : State) (l mask : Nat) : Mem :=
  if nsHas s.lpddrBad l && mask != fullMask then memStore s.lpddr (64 * l) (freeLine s) else s.lpddr

theorem sameBytesBut_writeBase (s : State) (l mask : Nat) : SameBytesBut s.lpddr (writeBase s l mask) (64 * l) 64 := by
  unfold writeBase
  split
  · intro x hx
    exact memRead_memStore_out _ _ _ _ (by rw [freeLine_length]; exact hx)
  · exact fun x _ => rfl

theorem writeBase_good {s : State} {l mask : Nat} (h : nsHas s.lpddrBad l = false) : writeBase s l mask = s.lpddr :=
  if_neg (by simp [h])

/-- A masked write of a line of LPDDR: its bytes and its poison bit. -/
theorem writeLpddrLine_facts (s : State) (l mask : Nat) (data : Bytes) (poison : Bool) : ∃ u, u = writeLpddrLine s l mask data poison
    ∧ u = { s with lpddr := memStoreMask (writeBase s l mask) (64 * l) mask data, lpddrPoison := u.lpddrPoison, lpddrBad := u.lpddrBad,
                   free := u.free }
    ∧ nsHas u.lpddrBad l = false ∧ (poison = true → nsHas u.lpddrPoison l = true)
    ∧ (poison = false → mask = fullMask → nsHas u.lpddrPoison l = false) := by
  refine ⟨_, rfl, ?_⟩
  unfold writeLpddrLine writeBase
  split
  next h =>
    refine ⟨rfl, by simp [nsHas_nsDel], fun _ => by simp [nsHas_nsAdd], fun _ hm => ?_⟩
    simp [hm] at h
  next h =>
    refine ⟨rfl, by simp [nsHas_nsDel], fun hp => ?_, fun hp hm => ?_⟩
    · show nsHas (nsPut s.lpddrPoison l _) l = true
      rw [nsHas_nsPut, if_pos rfl, hp]
      rfl
    · show nsHas (nsPut s.lpddrPoison l _) l = false
      rw [nsHas_nsPut, if_pos rfl, hp, hm]
      simp

/-! ### A store to memory -/

/-- What a store of a line leaves of its bytes and its poison bit. -/
structure LineStored (s t : State) (line mask : Nat) (data : Bytes) (poison : Bool) : Prop where
  others : SameMemoryBut s t line 64
  masked : ∀ i, i < 64 → natBit i mask = true → (rawBytes t line 64).getD i 0 = data.getD i 0
  kept : linePoison s line = false → ∀ i, i < 64 → natBit i mask = false →
    (rawBytes t line 64).getD i 0 = (rawBytes s line 64).getD i 0
  marked : poison = true → linePoison t line = true
  cleared : poison = false → mask = fullMask → linePoison t line = false

/-- What a masked store of a line of memory may change. -/
def footStored (s t : State) : State :=
  { s with free := t.free, tile := t.tile, tilePoison := t.tilePoison, lpddr := t.lpddr, lpddrPoison := t.lpddrPoison,
           lpddrBad := t.lpddrBad, chans := t.chans }

theorem lineStored_lpddr {s : State} {l mask : Nat} {data : Bytes} {poison : Bool} (hlen : data.length = 64)
    (hl : 64 * l < lpddrSize) (hd : (chanOf s (channelOf s (64 * l))).dim.isSome = false) :
    ∃ u, u = writeLine s (64 * l) mask data poison ∧ u = footStored s u ∧ LineStored s u (64 * l) mask data poison := by
  obtain ⟨v, hv, hframe, hbad, hmark, hclear⟩ := writeLpddrLine_facts s l mask data poison
  have hline : writeLine s (64 * l) mask data poison = updChan v (channelOf v (64 * l)) (acceptWrite v.now l) := by
    unfold writeLine
    rw [if_pos hl, show 64 * l / 64 = l by omega, ← hv]
    refine noteWrite_plain v l ?_
    rw [hframe]
    exact hd
  have hlpddr : v.lpddr = memStoreMask (writeBase s l mask) (64 * l) mask data := (congrArg State.lpddr hframe :)
  have htile : v.tile = s.tile := (congrArg State.tile hframe :)
  generalize hc : acceptWrite v.now l = f at hline
  refine ⟨_, rfl, ?_, ?_⟩
  · rw [hline]
    show updChan v _ f = footStored s (updChan v _ f)
    generalize channelOf v (64 * l) = c
    rw [hframe]
    rfl
  · rw [hline]
    refine ⟨⟨fun _ => ⟨fun x hx => ?_, htile⟩, fun h => absurd hl (by omega)⟩, fun i hi hb => ?_, fun hp i hi hb => ?_, fun hp => ?_,
      fun hp hm => ?_⟩
    · show memRead v.lpddr x = memRead s.lpddr x
      rw [hlpddr, sameBytesBut_memStoreMask _ _ _ hlen x hx, sameBytesBut_writeBase s l mask x hx]
    · unfold rawBytes
      rw [if_pos hl, memBytes_getD _ _ _ _ hi]
      show memRead v.lpddr (64 * l + i) = _
      rw [hlpddr, memByte_stored hlen _ _ _ _ hi hb]
    · unfold rawBytes
      rw [if_pos hl, if_pos hl, memBytes_getD _ _ _ _ hi, memBytes_getD _ _ _ _ hi]
      show memRead v.lpddr (64 * l + i) = _
      rw [hlpddr, memByte_unmasked hlen _ _ _ _ hi hb, writeBase_good (linePoison_clean hl hp).2]
    · unfold linePoison
      rw [if_pos hl, show 64 * l / 64 = l by omega]
      show (nsHas v.lpddrPoison l || nsHas v.lpddrBad l) = true
      rw [hmark hp]
      rfl
    · unfold linePoison
      rw [if_pos hl, show 64 * l / 64 = l by omega]
      show (nsHas v.lpddrPoison l || nsHas v.lpddrBad l) = false
      rw [hclear hp hm, hbad]
      rfl

theorem lineStored_tile {s : State} {line mask : Nat} {data : Bytes} {poison : Bool} (hlen : data.length = 64)
    (hl : tileBase ≤ line) (ha : 64 * tileLine line = line - tileBase) :
    ∃ u, u = writeLine s line mask data poison ∧ u = footStored s u ∧ LineStored s u line mask data poison := by
  have hge : ¬ line < lpddrSize := Nat.not_lt.2 (tileBase_ge.trans hl)
  have hline : writeLine s line mask data poison = writeTileLine s (tileLine line) mask data poison := if_neg hge
  refine ⟨_, rfl, by rw [hline]; rfl, ?_⟩
  rw [hline]
  refine ⟨⟨fun h => absurd h hge, fun _ => ⟨fun x hx => ?_, rfl⟩⟩, fun i hi hb => ?_, fun _ i hi hb => ?_, fun hp => ?_, fun hp hm => ?_⟩
  · show memRead (memStoreMask s.tile (64 * tileLine line) mask data) x = _
    rw [ha]
    exact sameBytesBut_memStoreMask _ _ _ hlen x hx
  · unfold rawBytes
    rw [if_neg hge, memBytes_getD _ _ _ _ hi]
    show memRead (memStoreMask s.tile (64 * tileLine line) mask data) _ = _
    rw [ha, memByte_stored hlen _ _ _ _ hi hb]
  · unfold rawBytes
    rw [if_neg hge, if_neg hge, memBytes_getD _ _ _ _ hi, memBytes_getD _ _ _ _ hi]
    show memRead (memStoreMask s.tile (64 * tileLine line) mask data) _ = _
    rw [ha, memByte_unmasked hlen _ _ _ _ hi hb]
  · unfold linePoison
    rw [if_neg hge]
    show nsHas (nsPut s.tilePoison (tileLine line) _) (tileLine line) = true
    rw [nsHas_nsPut, if_pos rfl, hp]
    rfl
  · unfold linePoison
    rw [if_neg hge]
    show nsHas (nsPut s.tilePoison (tileLine line) _) (tileLine line) = false
    rw [nsHas_nsPut, if_pos rfl, hp, hm]
    simp

/-! ### STORE_REQUEST -/

section
variable {s : State} {p : Packet} {off tag mask line : Nat} {data : Bytes} {poison : Bool}

@[simp] theorem localPut_pTaken (m : SMap Nat) (s : State) (line mask : Nat) (data : Bytes) (poison : Bool) :
    localPut (pTaken p m s) line mask data poison = pTaken p m (localPut s line mask data poison) := by
  unfold localPut
  rw [regionOf_pTaken]
  split
  · exact writeLine_pTaken p m s line mask data poison
  · exact writeLine_pTaken p m s line mask data poison
  · exact pageStore_pTaken p m s line mask data
  · split <;> rfl
  · rfl

theorem touchWord_pTaken (m : SMap Nat) (s : State) (line : Nat) : touchWord (pTaken p m s) line = pTaken p m (touchWord s line) := rfl
theorem localPutOk_pTaken (m : SMap Nat) (s : State) (line mask : Nat) : localPutOk (pTaken p m s) line mask = localPutOk s line mask := rfl

theorem noteAdmit_none {s : State} {off : Nat} (h : admitUnit s off = none) : (noteAdmit s off).admits = s.admits := by
  unfold noteAdmit
  rw [h]

theorem admitUnit_none {s : State} {off : Nat} (h1 : regionOf s off ≠ .lpddr) (h2 : regionOf s off ≠ .tile) : admitUnit s off = none := by
  unfold admitUnit
  split
  next h => exact absurd h h1
  next h => exact absurd h h2
  next => rfl

theorem admitLate_none {s : State} {off : Nat} (h1 : regionOf s off ≠ .lpddr) (h2 : regionOf s off ≠ .tile) : admitLate s off = false := by
  unfold admitLate
  rw [admitUnit_none h1 h2]
  rfl

theorem dimLine_of_served {n : Nat} (hs : ServedNow s off n) (hm : regionOf s off = .lpddr) : dimLine s off n = none := by
  obtain ⟨-, -, -, -, h⟩ := hs
  rwa [if_pos hm] at h

theorem storeRequest_eq (hb : p.body = .req off tag (.store mask data poison)) (hl : line = off / 64 * 64) :
    exec (.storeRequest p) s = .next (serveRequest s p line tag 64 false (fun s h =>
      replyTo (touchWord (localPut s line mask data poison) line) h p tag (if localPutOk s line mask then 0 else fabAddress) 0 [])) := by
  subst hl
  refine congrArg Host.Outcome.next ?_
  unfold serveStore
  rw [hb]

section
variable (hb : p.body = .req off tag (.store mask data poison)) (hl : line = off / 64 * 64)
include hb hl

theorem storeRequest_late (hs : ServedNow s line 64) (ha : admitLate s line = true) : exec (.storeRequest p) s = .next s :=
  (storeRequest_eq hb hl).trans (congrArg Host.Outcome.next (serveRequest_late hs ha))

section
variable (hs : ServedNow s line 64) (ha : admitLate s line = false)
include hs ha

theorem storeRequest_runs : exec (.storeRequest p) s = .next (replyTo
    (pTaken p (noteAdmit s line).admits (touchWord (localPut s line mask data poison) line)) (homeHalf s line) p tag
    (if localPutOk s line mask then 0 else fabAddress) 0 []) := by
  refine ((storeRequest_eq hb hl).trans (congrArg Host.Outcome.next (serveRequest_runs hs (fun _ => ha)))).trans ?_
  show Host.Outcome.next (replyTo (touchWord (localPut (pTaken p (noteAdmit s line).admits s) line mask data poison) line) _ _ _ _ _ _) = _
  rw [localPut_pTaken, touchWord_pTaken]
  rfl

theorem storeRequest_memory (hm : regionOf s line = .lpddr ∨ regionOf s line = .tile) (hlen : data.length = 64) :
    ∃ t, exec (.storeRequest p) s = .next t
      ∧ t = { s with free := t.free, tile := t.tile, tilePoison := t.tilePoison, lpddr := t.lpddr, lpddrPoison := t.lpddrPoison,
                     lpddrBad := t.lpddrBad, chans := t.chans, atoms := t.atoms, admits := t.admits, routerW := t.routerW,
                     routerE := t.routerE }
      ∧ Replied s t (homeHalf s line) p tag 0 0 [] ∧ SameMemoryBut s t line 64
      ∧ (∀ i, i < 64 → natBit i mask = true → (rawBytes t line 64).getD i 0 = data.getD i 0)
      ∧ (linePoison s line = false → ∀ i, i < 64 → natBit i mask = false →
          (rawBytes t line 64).getD i 0 = (rawBytes s line 64).getD i 0)
      ∧ (poison = true → linePoison t line = true) ∧ (poison = false → mask = fullMask → linePoison t line = false) := by
  have hrun := storeRequest_runs hb hl hs ha
  have hok : localPutOk s line mask = true := by
    unfold localPutOk
    rcases hm with hm | hm <;> rw [hm]
  have hput : localPut s line mask data poison = writeLine s line mask data poison := by
    unfold localPut
    rcases hm with hm | hm <;> rw [hm]
  have hstored : ∃ u, u = writeLine s line mask data poison ∧ u = footStored s u ∧ LineStored s u line mask data poison := by
    rcases hm with hm | hm
    · have hd := dimLine_of_served hs hm
      have hlt := regionOf_lpddr hm
      have hline : line = 64 * (off / 64) := by omega
      rw [hline] at hd hlt ⊢
      have hdim := dimLine_none hd
      unfold lineDim at hdim
      exact lineStored_lpddr hlen hlt (by simpa [hlt] using hdim)
    · obtain ⟨hge, -⟩ := ge_of_tile hm
      refine lineStored_tile hlen hge ?_
      unfold tileLine
      unfold tileBase at hge ⊢
      omega
  obtain ⟨u, hu, hframe, hline⟩ := hstored
  rw [hok, hput, ← hu] at hrun
  have hsame : SamePorts s (touchWord u line) := by
    rw [hframe]
    exact ⟨fun _ => rfl, rfl, rfl, rfl⟩
  obtain ⟨t, ht, htframe, hrep, -⟩ := replied_holds (p := p) (tag := tag) (homeHalf s line) (noteAdmit s line).admits hsame 0 0 []
  have htile : t.tile = u.tile := (congrArg State.tile htframe :)
  have htp : t.tilePoison = u.tilePoison := (congrArg State.tilePoison htframe :)
  have hlp : t.lpddr = u.lpddr := (congrArg State.lpddr htframe :)
  have hlpp : t.lpddrPoison = u.lpddrPoison := (congrArg State.lpddrPoison htframe :)
  have hlb : t.lpddrBad = u.lpddrBad := (congrArg State.lpddrBad htframe :)
  have hfree : t.free = u.free := (congrArg State.free htframe :)
  have hchans : t.chans = u.chans := (congrArg State.chans htframe :)
  have hraw : rawBytes t line 64 = rawBytes u line 64 := by
    unfold rawBytes
    rw [hlp, htile]
  have hpois : linePoison t line = linePoison u line := by
    unfold linePoison
    rw [hlpp, hlb, htp]
  refine ⟨t, hrun.trans (congrArg Host.Outcome.next ht.symm), ?_, hrep, ?_, ?_, ?_, ?_, ?_⟩
  · rw [htile, htp, hlp, hlpp, hlb, hfree, hchans]
    refine htframe.trans ?_
    rw [show t.admits = (noteAdmit s line).admits from (congrArg State.admits htframe :),
      show t.atoms = (touchWord u line).atoms from (congrArg State.atoms htframe :)]
    generalize t.routerW = rw', t.routerE = re, (noteAdmit s line).admits = m
    show { u with atoms := (touchWord u line).atoms, routerW := rw', routerE := re, admits := m } = _
    generalize (touchWord u line).atoms = as
    rw [hframe]
    rfl
  · unfold SameMemoryBut
    rw [hlp, htile]
    exact hline.others
  · rw [hraw]
    exact hline.masked
  · rw [hraw]
    exact hline.kept
  · rw [hpois]
    exact hline.marked
  · rw [hpois]
    exact hline.cleared

theorem storeRequest_sync {k : Nat} (hm : regionOf s line = .sync) (hw : oneWord mask = some k) :
    ∃ t, exec (.storeRequest p) s = .next t
      ∧ t = { s with sync := t.sync, waiters := t.waiters, claims := t.claims, atoms := t.atoms, routerW := t.routerW,
                     routerE := t.routerE }
      ∧ Replied s t (homeHalf s line) p tag 0 0 []
      ∧ syncGet t ((line - syncBase) / 8 + k) = BitVec.ofNat 64 (leNat ((data.drop (8 * k)).take 8))
      ∧ (∀ o, o ≠ (line - syncBase) / 8 + k → syncGet t o = syncGet s o) := by
  have hrun := storeRequest_runs hb hl hs ha
  have hok : localPutOk s line mask = true := by
    unfold localPutOk
    rw [hm, hw]
    rfl
  have hput : localPut s line mask data poison
      = syncPut s ((line - syncBase) / 8 + k) (BitVec.ofNat 64 (leNat ((data.drop (8 * k)).take 8))) := by
    unfold localPut
    rw [hm, hw]
  rw [hok, hput, noteAdmit_none (admitUnit_none (by simp [hm]) (by simp [hm]))] at hrun
  have hself := syncGet_syncPut_self s ((line - syncBase) / 8 + k) (BitVec.ofNat 64 (leNat ((data.drop (8 * k)).take 8)))
  have hne := fun o => syncGet_syncPut_ne s ((line - syncBase) / 8 + k) o (BitVec.ofNat 64 (leNat ((data.drop (8 * k)).take 8)))
  have hframe := syncPut_frame s ((line - syncBase) / 8 + k) (BitVec.ofNat 64 (leNat ((data.drop (8 * k)).take 8)))
  generalize syncPut s ((line - syncBase) / 8 + k) (BitVec.ofNat 64 (leNat ((data.drop (8 * k)).take 8))) = u at *
  have hsame : SamePorts s (touchWord u line) := by
    rw [hframe]
    exact ⟨fun _ => rfl, rfl, rfl, rfl⟩
  obtain ⟨t, ht, htframe, hrep, -⟩ := replied_holds (p := p) (tag := tag) (homeHalf s line) s.admits hsame 0 0 []
  have hsync : t.sync = u.sync := (congrArg State.sync htframe :)
  refine ⟨t, hrun.trans (congrArg Host.Outcome.next ht.symm), ?_, hrep, ?_, fun o ho => ?_⟩
  · rw [hsync, show t.waiters = u.waiters from (congrArg State.waiters htframe :),
      show t.claims = u.claims from (congrArg State.claims htframe :),
      show t.atoms = (touchWord u line).atoms from (congrArg State.atoms htframe :)]
    refine htframe.trans ?_
    generalize t.routerW = rw', t.routerE = re
    show { u with atoms := (touchWord u line).atoms, routerW := rw', routerE := re, admits := s.admits } = _
    generalize (touchWord u line).atoms = as
    rw [hframe]
  · unfold syncGet at hself ⊢
    rw [hsync]
    exact hself
  · have := hne o ho
    unfold syncGet at this ⊢
    rw [hsync]
    exact this

theorem storeRequest_page (hm : regionOf s line = .page) :
    ∃ t, exec (.storeRequest p) s = .next t
      ∧ t = { pageStore s line mask data with atoms := t.atoms, routerW := t.routerW, routerE := t.routerE } := by
  have hrun := storeRequest_runs hb hl hs ha
  have hput : localPut s line mask data poison = pageStore s line mask data := by
    unfold localPut
    rw [hm]
  rw [hput, noteAdmit_none (admitUnit_none (by simp [hm]) (by simp [hm]))] at hrun
  have hadm : (pageStore s line mask data).admits = s.admits := pageStore_keeps State.admits (fun _ _ => rfl) s line mask data
  generalize pageStore s line mask data = u at *
  have hframe := replyTo_keeps (footRouterWRouterE · (replyTo (pTaken p s.admits (touchWord u line)) (homeHalf s line) p tag
    (if localPutOk s line mask then 0 else fabAddress) 0 [])) (fun _ _ => rfl) (pTaken p s.admits (touchWord u line))
    (homeHalf s line) p tag (if localPutOk s line mask then 0 else fabAddress) 0 []
  generalize replyTo (pTaken p s.admits (touchWord u line)) (homeHalf s line) p tag
    (if localPutOk s line mask then 0 else fabAddress) 0 [] = t at *
  refine ⟨t, hrun, hframe.trans ?_⟩
  rw [show t.atoms = (touchWord u line).atoms from (congrArg State.atoms hframe :), ← hadm]
  rfl

theorem storeRequest_refused (hno : localPutOk s line mask = false) :
    ∃ t, exec (.storeRequest p) s = .next t
      ∧ t = { s with dic := t.dic, atoms := t.atoms, routerW := t.routerW, routerE := t.routerE }
      ∧ Replied s t (homeHalf s line) p tag fabAddress 0 [] ∧ SameObjs s t [0x802001, 0x802002] := by
  have hrun := storeRequest_runs hb hl hs ha
  have hput : ∃ u, u = localPut s line mask data poison ∧ u = { s with dic := u.dic } ∧ SameObjs s u [0x802001, 0x802002] := by
    refine ⟨_, rfl, ?_⟩
    unfold localPutOk at hno
    unfold localPut
    cases hr : regionOf s line with
    | lpddr => simp [hr] at hno
    | tile => simp [hr] at hno
    | page => simp [hr] at hno
    | sync =>
      rw [hr] at hno
      have hnone : oneWord mask = none := by simpa using hno
      dsimp only
      rw [hnone]
      exact ⟨rfl, SameObjs.refl s _⟩
    | reserved => exact ⟨rfl, (SameObjs.refl s _).objInc _ (by cases homeHalf s line <;> decide)⟩
  have hadm : admitUnit s line = none := admitUnit_none (fun he => by simp [localPutOk, he] at hno) (fun he => by simp [localPutOk, he] at hno)
  obtain ⟨u, hu, hframe, hobjs⟩ := hput
  rw [hno, noteAdmit_none hadm, ← hu] at hrun
  have hsame : SamePorts s (touchWord u line) := by
    have h0 := hobjs 0 (by decide)
    have h1 := hobjs Obj.routeEpochActive (by decide)
    have hw : u.routerW = s.routerW := (congrArg State.routerW hframe :)
    have he : u.routerE = s.routerE := (congrArg State.routerE hframe :)
    exact ⟨fun g => congrArg portPart ((show routerOf (touchWord u line) g = routerOf u g by cases g <;> rfl).trans
      (routerOf_congr hw he g)), (congrArg State.now hframe :), h0, h1⟩
  obtain ⟨t, ht, htframe, hrep, -⟩ := replied_holds (p := p) (tag := tag) (homeHalf s line) s.admits hsame fabAddress 0 []
  have hdic : t.dic = u.dic := (congrArg State.dic htframe :)
  refine ⟨t, hrun.trans (congrArg Host.Outcome.next ht.symm), ?_, hrep, hobjs.of_dic hdic⟩
  rw [hdic, show t.atoms = (touchWord u line).atoms from (congrArg State.atoms htframe :)]
  refine htframe.trans ?_
  generalize t.routerW = rw', t.routerE = re
  show { u with atoms := (touchWord u line).atoms, routerW := rw', routerE := re, admits := s.admits } = _
  generalize (touchWord u line).atoms = as
  rw [hframe]

end

end

end

end Sys2Proof.Machine

/-!
Atomics and remote signals at their target, under the replay cache; O31 settled (R276, R277, R281 to R285).
-/

namespace Sys2Proof.Machine

/-! ### The replay cache -/

section
variable {s u : State} {p : Packet} {m : SMap Nat} {h : Half}

theorem replayFind_pTaken (src q : Nat) : replayFind (pTaken p m s) h src q = replayFind s h src q := rfl

theorem applies_pTaken (age : Nat) : applies (pTaken p m s) h p age = applies s h p age := by
  cases h <;> rfl

/-- The place made for a new entry: where the half's cache is full, its oldest entry that is not pinned goes. -/
def replayRoom (s : State) (h : Half) : State :=
  if (replayOf s h).length < 32768 then s
  else
    match (replayOf s h).find? (fun (x : Replay) => !x.pinned) with
    | some x => updRouter (objInc (evictReplay s x) Obj.replayEarlyEvictions) h (fun r => { r with lastEarly := some s.now })
    | none => s

/-- An entry put into the cache. -/
def replayPut (s : State) (x : Replay) : State := { s with replay := s.replay ++ [x] }

theorem enterReplay_eq (s : State) (h : Half) (src q : Nat) (reply : Body) (pinned : Bool) : enterReplay s h src q reply pinned =
    replayPut (replayRoom s h) { half := h, src := src, seq := q, reply := reply, born := (replayRoom s h).now, pinned := pinned } := rfl

theorem replayRoom_pTaken : replayRoom (pTaken p m s) h = pTaken p m (replayRoom s h) := by
  unfold replayRoom
  rw [pTaken_ite]
  refine if_congr Iff.rfl rfl ?_
  show (match (replayOf s h).find? (fun (x : Replay) => !x.pinned) with | some x => _ | none => _) = _
  cases (replayOf s h).find? (fun (x : Replay) => !x.pinned) with
  | none => rfl
  | some x => cases h <;> rfl

theorem enterReplay_pTaken (src q : Nat) (reply : Body) (pinned : Bool) :
    enterReplay (pTaken p m s) h src q reply pinned = pTaken p m (enterReplay s h src q reply pinned) := by
  rw [enterReplay_eq, enterReplay_eq, replayRoom_pTaken]
  rfl

/-- What making room may change. -/
theorem replayRoom_facts (u : State) (h : Half) : ∃ w, w = replayRoom u h
    ∧ w = { u with dic := w.dic, routerW := w.routerW, routerE := w.routerE, evicted := w.evicted, replay := w.replay }
    ∧ (∀ g, portPart (routerOf w g) = portPart (routerOf u g)) ∧ SameObjs u w [Obj.replayEarlyEvictions] := by
  refine ⟨_, rfl, ?_⟩
  unfold replayRoom
  split
  · exact ⟨rfl, fun _ => rfl, SameObjs.refl u _⟩
  · split
    next x _ =>
      refine ⟨?_, fun g => ?_, ?_⟩
      · cases h <;> rfl
      · cases h <;> cases g <;> rfl
      · refine ((SameObjs.refl u _).objInc Obj.replayEarlyEvictions List.mem_cons_self).of_dic ?_
        cases h <;> rfl
    next => exact ⟨rfl, fun _ => rfl, SameObjs.refl u _⟩

/-- An applied request answered, its reply kept (R281, R282). -/
theorem applied_holds {tag age st mask : Nat} {data : Bytes} {run : State → State × Nat × Nat × Bytes}
    (hrun : run (pTaken p m s) = (pTaken p m u, st, mask, data)) (hf : replayFind s h p.src p.seq = none)
    (ha : applies s h p age = true) (hs : SamePorts s u) :
    ∃ t, t = sequenced (pTaken p m s) h p tag age run
      ∧ t = { u with dic := t.dic, admits := m, routerW := t.routerW, routerE := t.routerE, evicted := t.evicted, replay := t.replay }
      ∧ Replied s t h p tag st mask data
      ∧ { half := h, src := p.src, seq := p.seq, reply := .rep tag st mask data, born := s.now, pinned := p.resent } ∈ t.replay
      ∧ SameObjs u t [Obj.replayEarlyEvictions] := by
  have hstep : sequenced (pTaken p m s) h p tag age run =
      replyTo (pTaken p m (enterReplay u h p.src p.seq (.rep tag st mask data) p.resent)) h p tag st mask data := by
    unfold sequenced
    rw [replayFind_pTaken, hf]
    dsimp only
    rw [applies_pTaken, if_pos ha, hrun, enterReplay_pTaken]
  obtain ⟨w, hw, hframe, hports, hobjs⟩ := replayRoom_facts u h
  rw [enterReplay_eq, ← hw] at hstep
  have hnow : w.now = s.now := (congrArg State.now hframe :).trans hs.now
  have hsame : SamePorts s (replayPut w
      { half := h, src := p.src, seq := p.seq, reply := .rep tag st mask data, born := w.now, pinned := p.resent }) :=
    ⟨fun g => (show portPart (routerOf (replayPut w _) g) = portPart (routerOf w g) by cases g <;> rfl).trans ((hports g).trans (hs.ports g)),
      hnow, (hobjs 0 (by decide)).trans hs.chip, (hobjs _ (by decide)).trans hs.epoch⟩
  obtain ⟨t, ht, htframe, hrep, -⟩ := replied_holds (p := p) (tag := tag) h m hsame st mask data
  have hdic : t.dic = w.dic := (congrArg State.dic htframe :)
  have hreplay : t.replay = w.replay ++
      [{ half := h, src := p.src, seq := p.seq, reply := .rep tag st mask data, born := w.now, pinned := p.resent }] :=
    (congrArg State.replay htframe :)
  refine ⟨t, ht.trans hstep.symm, ?_, hrep, ?_, hobjs.of_dic hdic⟩
  · rw [hdic, hreplay, show t.evicted = w.evicted from (congrArg State.evicted htframe :)]
    refine htframe.trans ?_
    generalize t.routerW = rw', t.routerE = re
    rw [hframe]
    rfl
  · rw [hreplay, hnow]
    exact List.mem_append_right _ List.mem_cons_self

/-- A request already answered is answered again (R281). -/
theorem repeated_holds {tag age g st mask : Nat} {data : Bytes} {run : State → State × Nat × Nat × Bytes}
    (hf : (replayFind s h p.src p.seq).map Replay.reply = some (.rep g st mask data)) :
    ∃ t, t = sequenced (pTaken p m s) h p tag age run
      ∧ t = { s with dic := t.dic, admits := m, routerW := t.routerW, routerE := t.routerE }
      ∧ Replied s t h p tag st mask data ∧ Counted s t Obj.replayHits 1 ∧ SameObjs s t [Obj.replayHits] := by
  obtain ⟨x, hx, hreply⟩ := Option.map_eq_some_iff.1 hf
  have hstep : sequenced (pTaken p m s) h p tag age run = replyTo (pTaken p m (objInc s Obj.replayHits)) h p tag st mask data := by
    unfold sequenced
    rw [replayFind_pTaken, hx]
    dsimp only
    rw [hreply]
    rfl
  have hobjs : SameObjs s (objInc s Obj.replayHits) [Obj.replayHits] := (SameObjs.refl s _).objInc _ List.mem_cons_self
  obtain ⟨t, ht, htframe, hrep, -⟩ := replied_holds (p := p) (tag := tag) h m
    (SamePorts.of_objs (s := s) (u := objInc s Obj.replayHits) rfl rfl rfl hobjs (by decide) (by decide)) st mask data
  have hdic : t.dic = (objInc s Obj.replayHits).dic := (congrArg State.dic htframe :)
  refine ⟨t, ht.trans hstep.symm, ?_, hrep, ?_, hobjs.of_dic hdic⟩
  · rw [hdic]
    exact htframe
  · exact (show objGet t _ = objGet (objInc s Obj.replayHits) _ by unfold objGet; rw [hdic]).trans (objGet_objInc_self s _)

/-- A request too old to decide is answered outcome-unknown (R281). -/
theorem unknown_holds {tag age : Nat} {run : State → State × Nat × Nat × Bytes} (hf : replayFind s h p.src p.seq = none)
    (ha : applies s h p age = false) :
    ∃ t, t = sequenced (pTaken p m s) h p tag age run
      ∧ t = { s with dic := t.dic, admits := m, routerW := t.routerW, routerE := t.routerE, obs := t.obs }
      ∧ Replied s t h p tag fabUnknown 0 [] ∧ Counted s t Obj.outcomeUnknown 1
      ∧ SameObjs s t (Obj.outcomeUnknown :: journalObjs) ∧ Logged s t .outcomeUnknown [p.src, p.seq] false := by
  have hstep : sequenced (pTaken p m s) h p tag age run =
      replyTo (pTaken p m (journal (objInc s Obj.outcomeUnknown) .outcomeUnknown [p.src, p.seq])) h p tag fabUnknown 0 [] := by
    unfold sequenced
    rw [replayFind_pTaken, hf]
    dsimp only
    rw [applies_pTaken, if_neg (by simp [ha]), objInc_pTaken, journal_pTaken]
  have hobjs : SameObjs s (journal (objInc s Obj.outcomeUnknown) .outcomeUnknown [p.src, p.seq]) (Obj.outcomeUnknown :: journalObjs) :=
    ((SameObjs.refl s _).objInc _ List.mem_cons_self).journal _ _ (List.subset_cons_self _ _)
  have hcount : Counted s (journal (objInc s Obj.outcomeUnknown) .outcomeUnknown [p.src, p.seq]) Obj.outcomeUnknown 1 :=
    (objGet_journal _ _ _ _ (by decide) (by decide)).trans (objGet_objInc_self s _)
  have hlog : Logged s (journal (objInc s Obj.outcomeUnknown) .outcomeUnknown [p.src, p.seq]) .outcomeUnknown [p.src, p.seq] false :=
    Logged.of_view (logged_journal (objInc s Obj.outcomeUnknown) .outcomeUnknown [p.src, p.seq]) rfl
  have hframe : journal (objInc s Obj.outcomeUnknown) .outcomeUnknown [p.src, p.seq]
      = footDicObs s (journal (objInc s Obj.outcomeUnknown) .outcomeUnknown [p.src, p.seq]) :=
    (journal_keeps (footDicObs · (journal (objInc s Obj.outcomeUnknown) .outcomeUnknown [p.src, p.seq])) (fun _ _ => rfl)
      (objInc s Obj.outcomeUnknown) .outcomeUnknown [p.src, p.seq])
  generalize journal (objInc s Obj.outcomeUnknown) .outcomeUnknown [p.src, p.seq] = u at *
  obtain ⟨t, ht, htframe, hrep, -⟩ := replied_holds (p := p) (tag := tag) h m
    (SamePorts.of_objs (s := s) (congrArg State.routerW hframe :) (congrArg State.routerE hframe :) (congrArg State.now hframe :)
      hobjs (by decide) (by decide)) fabUnknown 0 []
  have hdic : t.dic = u.dic := (congrArg State.dic htframe :)
  have hobs : t.obs = u.obs := (congrArg State.obs htframe :)
  refine ⟨t, ht.trans hstep.symm, ?_, hrep, ?_, hobjs.of_dic hdic, hlog.of_obs hobs⟩
  · rw [hdic, hobs]
    refine htframe.trans ?_
    generalize t.routerW = rw', t.routerE = re
    rw [hframe]
    rfl
  · exact (show objGet t _ = objGet u _ by unfold objGet; rw [hdic]).trans hcount

/-- A refused form: answered address-error, counted where the offset is reserved (R18). -/
theorem refused_holds {tag off : Nat} :
    ∃ t, t = replyTo (if regionOf s off = .reserved then countAddrError (pTaken p m s) off else pTaken p m s) h p tag fabAddress 0 []
      ∧ t = { s with dic := t.dic, admits := m, routerW := t.routerW, routerE := t.routerE }
      ∧ Replied s t h p tag fabAddress 0 [] ∧ SameObjs s t [0x802001, 0x802002] := by
  obtain ⟨u, hu, hframe, hsame, -⟩ := reservedCounted s off (regionOf s off = .reserved)
  have hobjs : SameObjs s u [0x802001, 0x802002] := hsame.mono (by
    split
    · cases homeHalf s off <;> decide
    · exact List.nil_subset _)
  have hstep : (if regionOf s off = .reserved then countAddrError (pTaken p m s) off else pTaken p m s) = pTaken p m u := by
    rw [hu, pTaken_ite]
    rfl
  obtain ⟨t, ht, htframe, hrep, -⟩ := replied_holds (p := p) (tag := tag) h m
    (SamePorts.of_objs (s := s) (congrArg State.routerW hframe :) (congrArg State.routerE hframe :) (congrArg State.now hframe :)
      hobjs (by decide) (by decide)) fabAddress 0 []
  have hdic : t.dic = u.dic := (congrArg State.dic htframe :)
  refine ⟨t, ht.trans (by rw [hstep]), ?_, hrep, hobjs.of_dic hdic⟩
  rw [hdic]
  refine htframe.trans ?_
  generalize t.routerW = rw', t.routerE = re
  rw [hframe]

end

end Sys2Proof.Machine

/-!
ATOMIC_REQUEST and REMOTE_SIGNAL_REQUEST; O31 settled (R276, R277, R281 to R285).
-/

namespace Sys2Proof.Machine

/-! ### Channels that reads leave as they are -/

theorem dim_updChan (s : State) (i j : Nat) (f : Chan → Chan) (hf : ∀ c, (f c).dim = c.dim) :
    (chanOf (updChan s i f) j).dim = (chanOf s j).dim := by
  rw [chanOf_updChan]
  split
  · exact hf _
  · rfl

theorem dim_islandEvent (s : State) (i : Island) (k n j : Nat) : chanOf (islandEvent s i k n) j = chanOf s j :=
  congrArg (fun cs : List Chan => cs.getD j {}) (islandEvent_keeps State.chans (fun _ _ => rfl) s i k n)

theorem dim_noteCorrected (s : State) (l j : Nat) : (chanOf (noteCorrected s l) j).dim = (chanOf s j).dim := by
  unfold noteCorrected
  refine (dim_updChan _ _ _ _ (fun c => ?_)).trans (congrArg Chan.dim (dim_islandEvent ..))
  rfl

theorem dim_noteRow (s : State) (l j : Nat) (pass : Option Nat) : (chanOf (noteRow s l pass) j).dim = (chanOf s j).dim := by
  unfold noteRow
  dsimp only
  refine dim_updChan _ _ _ _ (fun c => ?_)
  rfl

theorem dim_readDecoded (s : State) (l : Nat) (e : Ecc) (j : Nat) : (chanOf (readDecoded s l e) j).dim = (chanOf s j).dim := by
  cases e with
  | clean => rfl
  | corrected => exact dim_noteCorrected s l j
  | uncorrectable =>
    refine (dim_noteRow _ l j none).trans ?_
    rw [dim_islandEvent]
    rfl

theorem dim_lineFound (s : State) (x : LineEvent) (j : Nat) : (chanOf (lineFound s x) j).dim = (chanOf s j).dim := by
  unfold lineFound
  split
  · exact dim_readDecoded s _ _ j
  · cases x.e <;> rfl
  · rfl

theorem dim_linesFound (s : State) (ls : List Nat) (ev : List LineEvent) (j : Nat) :
    (chanOf (linesFound s ls ev) j).dim = (chanOf s j).dim :=
  foldlState (fun u : State => (chanOf u j).dim) lineFound (fun u x => dim_lineFound u x j) _ s

/-- A synchronisation object's offset, by its region. -/
theorem range_of_sync {s : State} {off : Nat} (h : regionOf s off = .sync) : syncBase ≤ off ∧ off < syncBase + 0x40000 := by
  unfold regionOf at h
  split at h
  · split at h <;> cases h
  · split at h
    · cases h
    · split at h
      next hs => exact hs
      next => split at h <;> cases h

theorem sync_of_range {s : State} {off : Nat} (h1 : syncBase ≤ off) (h2 : off < syncBase + 0x40000) : regionOf s off = .sync := by
  unfold regionOf
  unfold lpddrSize tileBase syncBase tileSize at *
  rw [if_neg (by omega), if_neg (by omega), if_pos ⟨h1, h2⟩]

theorem sync_of_line {s : State} {off : Nat} (h : regionOf s off = .sync) : regionOf s (off / 64 * 64) = .sync := by
  obtain ⟨h1, h2⟩ := range_of_sync h
  refine sync_of_range ?_ (by omega)
  unfold syncBase at h1 ⊢
  omega

/-- Reads of a line that is not of memory find nothing. -/
theorem linesFound_sync {s : State} {off : Nat} (hr : regionOf s off = .sync) (ev : List LineEvent) :
    linesFound s (linesOf off 1) ev = s := by
  have hbase : ∀ x : LineEvent, (linesOf off 1).contains (64 * x.line) = true → lineFound s x = s := by
    intro x hx
    have hline : 64 * x.line = off / 64 * 64 := by
      have hone : linesOf off 1 = [off / 64 * 64] := by
        unfold linesOf
        rw [if_neg (by decide), show off + 1 - 1 = off by omega, Nat.sub_self]
        rfl
      rw [hone] at hx
      simpa using hx
    have hsync : regionOf s (64 * x.line) = .sync := by
      rw [hline]
      exact sync_of_line hr
    unfold lineFound
    rw [hsync]
  unfold linesFound
  generalize hes : ev.filter (fun x => (linesOf off 1).contains (64 * x.line)) = es
  have hall : ∀ x ∈ es, lineFound s x = s := fun x hx => hbase x (by
    rw [← hes] at hx
    exact (List.mem_filter.1 hx).2)
  clear hes
  induction es with
  | nil => rfl
  | cons x xs ih =>
    rw [List.foldl_cons, hall x List.mem_cons_self]
    exact ih fun y hy => hall y (List.mem_cons_of_mem _ hy)

/-! ### An atomic applied to memory -/

section
variable {s : State} {p : Packet} {off tag op age a b n : Nat} {w : Bool}

theorem holdWord_pTaken (m : SMap Nat) (s : State) (off : Nat) : holdWord (pTaken p m s) off = pTaken p m (holdWord s off) := by
  unfold holdWord
  rw [pTaken_ite]
  rfl

/-- What holding a word in its atomic unit may change. -/
theorem holdWord_facts (v : State) (off : Nat) : ∃ u, u = holdWord v off ∧ u = { v with dic := u.dic, atoms := u.atoms }
    ∧ SameObjs v u [Obj.atomicCombines] := by
  refine ⟨_, rfl, ?_⟩
  unfold holdWord
  split
  · exact ⟨rfl, ((SameObjs.refl v _).of_dic (u := { v with atoms := _ }) rfl).objInc _ List.mem_cons_self⟩
  · exact ⟨rfl, (SameObjs.refl v _).of_dic rfl⟩

/-- A word of memory written: its bytes, and nothing else of memory. -/
structure WordWritten (v u : State) (off : Nat) (data : Bytes) : Prop where
  frame : u = putFoot v u
  value : rawBytes u off data.length = data
  others : SameMemoryBut v u off data.length

theorem wordWritten_lpddr {v : State} {data : Bytes} (hfit : off / 64 = (off + data.length - 1) / 64) (hlt : off < lpddrSize)
    (hend : off + data.length ≤ lpddrSize) (hc : CleanLine v (off / 64)) :
    WordWritten v (writeBytes v off data false) off data := by
  obtain ⟨ps, bs, cs, hw⟩ := writeBytes_clear (s := v) (off := off) (data := data) false (fun x h1 h2 => by
    rwa [show x / 64 = off / 64 by omega]) hend
  obtain ⟨hval, hothers⟩ := run_of_lpddr (s := v) (data := data)
    (t := { v with lpddr := memStore v.lpddr off data, lpddrPoison := ps, lpddrBad := bs, chans := cs }) hlt rfl rfl
  rw [hw]
  exact ⟨rfl, hval, hothers⟩

theorem wordWritten_tile {v : State} {data : Bytes} (hge : tileBase ≤ off) : WordWritten v (writeBytes v off data false) off data := by
  have hkeep := writeBytes_tile_keeps (putFoot · (writeBytes v off data false)) (fun _ _ => rfl) v off data false hge
  have hlp := writeBytes_tile_keeps State.lpddr (fun _ _ => rfl) v off data false hge
  have htile := writeBytes_tile v off data false hge
  generalize writeBytes v off data false = t at *
  obtain ⟨hval, hothers⟩ := run_of_tile (s := v) (t := t) hge htile hlp
  exact ⟨hkeep, hval, hothers⟩

/-- A line that no Dim channel holds and that reads clean. -/
theorem cleanLine_found {ev : List LineEvent} (hd : dimLine s off n = none) (hn : 0 < n) (hlt : off < lpddrSize)
    (hp : linePoison (linesFound s (linesOf off 1) ev) off = false) : CleanLine (linesFound s (linesOf off 1) ev) (off / 64) := by
  have hkey : (linesFound s (linesOf off 1) ev).keyEff = s.keyEff := (congrArg State.keyEff (linesFound_frame s _ ev) :)
  refine ⟨?_, ?_⟩
  · unfold linePoison at hp
    rw [if_pos hlt] at hp
    exact (Bool.or_eq_false_iff.1 hp).2
  · have hch : channelOf (linesFound s (linesOf off 1) ev) (64 * (off / 64)) = channelOf s (64 * (off / 64)) := by
      unfold channelOf
      rw [hkey]
    rw [hch, dim_linesFound]
    have hmem : off / 64 * 64 ∈ linesOf off n := line_mem_linesOf (Nat.le_refl off) (by omega)
    have hno := List.find?_eq_none.mp hd _ hmem
    unfold lineDim at hno
    rw [Nat.mul_comm]
    simpa [show off / 64 * 64 < lpddrSize by omega] using hno

/-! ### ATOMIC_REQUEST -/

theorem atomicRequest_eq {q : TargetRead} (hq : q.packet = p) (hb : p.body = .req off tag (.atomic op w age a b)) :
    exec (.atomicRequest q) s = .next (serveRequest s p off tag (if w then 8 else 4) false (fun s h =>
      if !atomicForm s off op w then
        replyTo (if regionOf s off = .reserved then countAddrError s off else s) h p tag fabAddress 0 []
      else
        sequenced s h p tag age (fun s =>
          ((atomicAt (linesFound s (linesOf off 1) q.ev) off op w a b).st,
            (atomicAt (linesFound s (linesOf off 1) q.ev) off op w a b).status,
            boolNat (atomicAt (linesFound s (linesOf off 1) q.ev) off op w a b).poison,
            natLe 8 (atomicAt (linesFound s (linesOf off 1) q.ev) off op w a b).old)))) := by
  subst hq
  refine congrArg Host.Outcome.next ?_
  unfold serveAtomic
  rw [hb]

/-- What an atomic gives, as the replay cache takes it. -/
def atomicRun (s : State) (off op : Nat) (w : Bool) (a b : Nat) (ev : List LineEvent) : State × Nat × Nat × Bytes :=
  ((atomicAt (linesFound s (linesOf off 1) ev) off op w a b).st, (atomicAt (linesFound s (linesOf off 1) ev) off op w a b).status,
    boolNat (atomicAt (linesFound s (linesOf off 1) ev) off op w a b).poison,
    natLe 8 (atomicAt (linesFound s (linesOf off 1) ev) off op w a b).old)

section
variable {q : TargetRead} (hq : q.packet = p) (hb : p.body = .req off tag (.atomic op w age a b)) (hn : n = if w then 8 else 4)
  (hs : ServedNow s off n) (ha : admitLate s off = false)
include hq hb hn hs ha

theorem atomicRequest_formed (hf : atomicForm s off op w = true) : exec (.atomicRequest q) s = .next
    (sequenced (pTaken p (noteAdmit s off).admits s) (homeHalf s off) p tag age (fun s => atomicRun s off op w a b q.ev)) := by
  subst hn
  exact ((atomicRequest_eq hq hb).trans (congrArg Host.Outcome.next (serveRequest_runs hs (fun _ => ha)))).trans
    (congrArg Host.Outcome.next (if_neg (by
      show ¬ (!atomicForm s off op w) = true
      simp [hf])))

theorem atomicRequest_refused (hf : atomicForm s off op w = false) :
    ∃ t, exec (.atomicRequest q) s = .next t ∧ t = { s with dic := t.dic, admits := t.admits, routerW := t.routerW, routerE := t.routerE }
      ∧ Replied s t (homeHalf s off) p tag fabAddress 0 [] ∧ SameObjs s t [0x802001, 0x802002] := by
  subst hn
  have hrun := ((atomicRequest_eq hq hb).trans (congrArg Host.Outcome.next (serveRequest_runs hs (fun _ => ha)))).trans
    (congrArg Host.Outcome.next (if_pos (by
      show (!atomicForm s off op w) = true
      simp [hf])))
  obtain ⟨t, ht, hframe, hrep, hobjs⟩ := refused_holds (s := s) (p := p) (m := (noteAdmit s off).admits) (h := homeHalf s off)
    (tag := tag) (off := off)
  refine ⟨t, hrun.trans (congrArg Host.Outcome.next ht.symm), ?_, hrep, hobjs⟩
  rw [show t.admits = (noteAdmit s off).admits from (congrArg State.admits hframe :)]
  exact hframe

theorem atomicRequest_repeated (hf : atomicForm s off op w = true) {g st m : Nat} {d : Bytes}
    (hr : (replayFind s (homeHalf s off) p.src p.seq).map Replay.reply = some (.rep g st m d)) :
    ∃ t, exec (.atomicRequest q) s = .next t ∧ t = { s with dic := t.dic, admits := t.admits, routerW := t.routerW, routerE := t.routerE }
      ∧ Replied s t (homeHalf s off) p tag st m d ∧ Counted s t Obj.replayHits 1 ∧ SameObjs s t [Obj.replayHits] := by
  obtain ⟨t, ht, hframe, hrep, hcount, hobjs⟩ := repeated_holds (s := s) (p := p) (m := (noteAdmit s off).admits) (h := homeHalf s off)
    (tag := tag) (age := age) (run := fun s => atomicRun s off op w a b q.ev) hr
  refine ⟨t, (atomicRequest_formed hq hb hn hs ha hf).trans (congrArg Host.Outcome.next ht.symm), ?_, hrep, hcount, hobjs⟩
  rw [show t.admits = (noteAdmit s off).admits from (congrArg State.admits hframe :)]
  exact hframe

theorem atomicRequest_unknown (hf : atomicForm s off op w = true) (hr : replayFind s (homeHalf s off) p.src p.seq = none)
    (hap : applies s (homeHalf s off) p age = false) :
    ∃ t, exec (.atomicRequest q) s = .next t
      ∧ t = { s with dic := t.dic, admits := t.admits, routerW := t.routerW, routerE := t.routerE, obs := t.obs }
      ∧ Replied s t (homeHalf s off) p tag fabUnknown 0 [] ∧ Counted s t Obj.outcomeUnknown 1
      ∧ SameObjs s t (Obj.outcomeUnknown :: journalObjs) ∧ Logged s t .outcomeUnknown [p.src, p.seq] false := by
  obtain ⟨t, ht, hframe, hrest⟩ := unknown_holds (s := s) (p := p) (m := (noteAdmit s off).admits) (h := homeHalf s off)
    (tag := tag) (age := age) (run := fun s => atomicRun s off op w a b q.ev) hr hap
  refine ⟨t, (atomicRequest_formed hq hb hn hs ha hf).trans (congrArg Host.Outcome.next ht.symm), ?_, hrest⟩
  rw [show t.admits = (noteAdmit s off).admits from (congrArg State.admits hframe :)]
  exact hframe

end

end

end Sys2Proof.Machine

/-!
Atomics applied to memory and to synchronisation objects, remote signals; O31 settled (R276, R277, R281 to R285).
-/

namespace Sys2Proof.Machine

section
variable {s z : State} {p : Packet} {off tag op age a b n old : Nat} {w : Bool}

/-! ### What an atomic gives -/

theorem atomicAt_word (hn : n = if w then 8 else 4) (hf : atomicForm z off op w = true) (hm : regionOf z off ≠ .sync)
    (hp : linePoison z off = false) : atomicAt z off op w a b =
      { st := holdWord (writeBytes z off (natLe n (atomNew (8 * n) op (leNat (rawBytes z off n)) a b)) false) off
        old := leNat (rawBytes z off n) } := by
  subst hn
  unfold atomicAt
  rw [if_neg (by simp [hf]), if_neg hm, if_neg (by simp [hp])]

theorem atomicAt_poisoned (hf : atomicForm z off op w = true) (hm : regionOf z off ≠ .sync) (hp : linePoison z off = true) :
    ∃ v, atomicAt z off op w a b = { st := freeStep z, old := v, poison := true } := by
  refine ⟨(freeNow z).toNat % 2 ^ (if w then 64 else 32), ?_⟩
  unfold atomicAt
  rw [if_neg (by simp [hf]), if_neg hm, if_pos hp]

theorem atomicAt_sync (hf : atomicForm z off op w = true) (hm : regionOf z off = .sync) : atomicAt z off op w a b =
    { st := syncAdd z ((off - syncBase) / 8) a, old := (syncGet z ((off - syncBase) / 8)).toNat } := by
  unfold atomicAt
  rw [if_neg (by simp [hf]), if_pos hm]

theorem aligned_of_form (hn : n = if w then 8 else 4) (hf : atomicForm s off op w = true) : off % n = 0 := by
  subst hn
  unfold atomicForm at hf
  simp only [Bool.and_eq_true, decide_eq_true_eq] at hf
  exact hf.1.1

theorem wordWritten_region {v : State} {data : Bytes} (hlen : data.length = n) (hn : n = if w then 8 else 4) (hal : off % n = 0)
    (hm : regionOf s off = .lpddr ∨ regionOf s off = .tile) (hc : off < lpddrSize → CleanLine v (off / 64)) :
    WordWritten v (writeBytes v off data false) off data := by
  rcases hm with hm | hm
  · have hlt := regionOf_lpddr hm
    refine wordWritten_lpddr ?_ hlt ?_ (hc hlt)
    · rw [hlen]
      cases w <;> simp only [hn, if_true, Bool.false_eq_true, if_false] at hal ⊢ <;> omega
    · rw [hlen]
      unfold lpddrSize at hlt ⊢
      cases w <;> simp only [hn, if_true, Bool.false_eq_true, if_false] at hal ⊢ <;> omega
  · exact wordWritten_tile (ge_of_tile hm).1

/-- A signal added to an object: what changes, and its ports. -/
theorem syncAdd_facts (s : State) (o n : Nat) : ∃ u, u = syncAdd s o n
    ∧ u = { s with sync := u.sync, waiters := u.waiters, claims := u.claims }
    ∧ syncGet u o = syncGet s o + BitVec.ofNat 64 n ∧ (∀ i, i ≠ o → syncGet u i = syncGet s i) ∧ SamePorts s u :=
  ⟨_, rfl, syncPut_frame s o _, syncGet_syncPut_self s o _, fun i hi => syncGet_syncPut_ne s o i _ hi, ⟨fun _ => rfl, rfl, rfl, rfl⟩⟩

/-! ### ATOMIC_REQUEST applied -/

section
variable {q : TargetRead} (hq : q.packet = p) (hb : p.body = .req off tag (.atomic op w age a b)) (hn : n = if w then 8 else 4)
  (hs : ServedNow s off n) (ha : admitLate s off = false) (hf : atomicForm s off op w = true)
  (hr : replayFind s (homeHalf s off) p.src p.seq = none) (hap : applies s (homeHalf s off) p age = true)
include hq hb hn hs ha hf hr hap

theorem atomicRequest_word (hm : regionOf s off = .lpddr ∨ regionOf s off = .tile)
    (hp : linePoison (linesFound s (linesOf off 1) q.ev) off = false) (hold : old = leNat (rawBytes s off n)) :
    ∃ t, exec (.atomicRequest q) s = .next t
      ∧ t = { linesFound s (linesOf off 1) q.ev with
                dic := t.dic, tile := t.tile, tilePoison := t.tilePoison, lpddr := t.lpddr, lpddrPoison := t.lpddrPoison,
                lpddrBad := t.lpddrBad, chans := t.chans, admits := t.admits, routerW := t.routerW, routerE := t.routerE,
                evicted := t.evicted, replay := t.replay, atoms := t.atoms }
      ∧ leNat (rawBytes t off n) = atomNew (8 * n) op old a b % 256 ^ n ∧ SameMemoryBut s t off n
      ∧ Replied s t (homeHalf s off) p tag 0 0 (natLe 8 old)
      ∧ { half := homeHalf s off, src := p.src, seq := p.seq, reply := .rep tag 0 0 (natLe 8 old), born := s.now,
          pinned := p.resent } ∈ t.replay
      ∧ SameObjs (linesFound s (linesOf off 1) q.ev) t [Obj.replayEarlyEvictions, Obj.atomicCombines] := by
  have hrun := atomicRequest_formed hq hb hn hs ha hf
  have hfound := linesFound_frame s (linesOf off 1) q.ev
  have hports := samePorts_linesFound s (linesOf off 1) q.ev
  have hclean : off < lpddrSize → CleanLine (linesFound s (linesOf off 1) q.ev) (off / 64) := fun hlt => by
    have hd : dimLine s off n = none := by
      refine dimLine_of_served hs (hm.resolve_right fun ht => ?_)
      exact absurd (tileBase_ge.trans (ge_of_tile ht).1) (Nat.not_le.2 hlt)
    exact cleanLine_found hd (by rw [hn]; split <;> decide) hlt hp
  have hword : ∀ m, atomicRun (pTaken p m s) off op w a b q.ev =
      (pTaken p m (holdWord (writeBytes (linesFound s (linesOf off 1) q.ev) off
        (natLe n (atomNew (8 * n) op (leNat (rawBytes (linesFound s (linesOf off 1) q.ev) off n)) a b)) false) off),
        0, 0, natLe 8 (leNat (rawBytes (linesFound s (linesOf off 1) q.ev) off n))) := fun m => by
    have hform : atomicForm (pTaken p m (linesFound s (linesOf off 1) q.ev)) off op w = true := by
      rw [hfound]
      exact hf
    have hregion : regionOf (pTaken p m (linesFound s (linesOf off 1) q.ev)) off ≠ .sync := by
      rw [hfound]
      show regionOf s off ≠ .sync
      rcases hm with hm | hm <;> rw [hm] <;> decide
    unfold atomicRun
    rw [linesFound_pTaken, atomicAt_word hn hform hregion hp, writeBytes_pTaken, holdWord_pTaken]
    rfl
  have hraw : rawBytes (linesFound s (linesOf off 1) q.ev) off n = rawBytes s off n := by
    rw [hfound]
    rfl
  rw [hraw, ← hold] at hword
  have hwritten := wordWritten_region (v := linesFound s (linesOf off 1) q.ev) (data := natLe n (atomNew (8 * n) op old a b))
    (natLe_length _ _) hn (aligned_of_form hn hf) hm hclean
  generalize hv : linesFound s (linesOf off 1) q.ev = v at *
  obtain ⟨wframe, wvalue, wothers⟩ := hwritten
  rw [natLe_length] at wvalue wothers
  generalize writeBytes v off (natLe n (atomNew (8 * n) op old a b)) false = y at *
  obtain ⟨u, hu, uframe, uobjs⟩ := holdWord_facts y off
  rw [← hu] at hword
  have ydic : y.dic = v.dic := (congrArg State.dic wframe :)
  have huobjs : SameObjs v u [Obj.replayEarlyEvictions, Obj.atomicCombines] :=
    ((SameObjs.refl v _).of_dic ydic).trans (uobjs.mono (by decide))
  have hsame : SamePorts s u := by
    have h0 := huobjs 0 (by decide)
    have h1 := huobjs Obj.routeEpochActive (by decide)
    have hw : u.routerW = v.routerW := (congrArg State.routerW uframe :).trans (congrArg State.routerW wframe :)
    have he : u.routerE = v.routerE := (congrArg State.routerE uframe :).trans (congrArg State.routerE wframe :)
    exact ⟨fun g => (congrArg portPart (routerOf_congr hw he g)).trans (hports.ports g),
      ((congrArg State.now uframe :).trans (congrArg State.now wframe :)).trans hports.now, h0.trans hports.chip, h1.trans hports.epoch⟩
  obtain ⟨t, ht, tframe, hrep, hentry, hobjs⟩ := applied_holds (tag := tag) (run := fun s => atomicRun s off op w a b q.ev)
    (hword (noteAdmit s off).admits) hr hap hsame
  have hlp : t.lpddr = y.lpddr := (congrArg State.lpddr tframe :).trans (congrArg State.lpddr uframe :)
  have htl : t.tile = y.tile := (congrArg State.tile tframe :).trans (congrArg State.tile uframe :)
  have hvl : v.lpddr = s.lpddr := (congrArg State.lpddr hfound :)
  have hvt : v.tile = s.tile := (congrArg State.tile hfound :)
  refine ⟨t, hrun.trans (congrArg Host.Outcome.next ht.symm), ?_, ?_, ?_, hrep, hentry, huobjs.trans (hobjs.mono (by decide))⟩
  · rw [hlp, htl, show t.tilePoison = y.tilePoison from (congrArg State.tilePoison tframe :).trans (congrArg State.tilePoison uframe :),
      show t.lpddrPoison = y.lpddrPoison from (congrArg State.lpddrPoison tframe :).trans (congrArg State.lpddrPoison uframe :),
      show t.lpddrBad = y.lpddrBad from (congrArg State.lpddrBad tframe :).trans (congrArg State.lpddrBad uframe :),
      show t.chans = y.chans from (congrArg State.chans tframe :).trans (congrArg State.chans uframe :),
      show t.admits = (noteAdmit s off).admits from (congrArg State.admits tframe :),
      show t.atoms = u.atoms from (congrArg State.atoms tframe :)]
    refine tframe.trans ?_
    generalize t.routerW = rw', t.routerE = re, t.dic = d, t.evicted = ev, t.replay = rp, (noteAdmit s off).admits = m
    rw [uframe, wframe]
    rfl
  · rw [show rawBytes t off n = rawBytes y off n by unfold rawBytes; rw [hlp, htl], wvalue, leNat_natLe]
  · unfold SameMemoryBut at wothers ⊢
    rw [hlp, htl, ← hvl, ← hvt]
    exact wothers

theorem atomicRequest_poisoned (hm : regionOf s off = .lpddr ∨ regionOf s off = .tile)
    (hp : linePoison (linesFound s (linesOf off 1) q.ev) off = true) :
    ∃ t v, exec (.atomicRequest q) s = .next t
      ∧ t = { linesFound s (linesOf off 1) q.ev with
                free := t.free, dic := t.dic, admits := t.admits, routerW := t.routerW, routerE := t.routerE,
                evicted := t.evicted, replay := t.replay }
      ∧ t.lpddr = s.lpddr ∧ t.tile = s.tile ∧ Replied s t (homeHalf s off) p tag 0 1 (natLe 8 v)
      ∧ SameObjs (linesFound s (linesOf off 1) q.ev) t [Obj.replayEarlyEvictions] := by
  have hrun := atomicRequest_formed hq hb hn hs ha hf
  have hfound := linesFound_frame s (linesOf off 1) q.ev
  have hports := samePorts_linesFound s (linesOf off 1) q.ev
  have hword : ∃ v, atomicRun (pTaken p (noteAdmit s off).admits s) off op w a b q.ev =
      (pTaken p (noteAdmit s off).admits (freeStep (linesFound s (linesOf off 1) q.ev)), 0, 1, natLe 8 v) := by
    have hform : atomicForm (pTaken p (noteAdmit s off).admits (linesFound s (linesOf off 1) q.ev)) off op w = true := by
      rw [hfound]
      exact hf
    have hregion : regionOf (pTaken p (noteAdmit s off).admits (linesFound s (linesOf off 1) q.ev)) off ≠ .sync := by
      rw [hfound]
      show regionOf s off ≠ .sync
      rcases hm with hm | hm <;> rw [hm] <;> decide
    obtain ⟨v, hv⟩ := atomicAt_poisoned (a := a) (b := b) hform hregion hp
    refine ⟨v, ?_⟩
    unfold atomicRun
    rw [linesFound_pTaken, hv]
    rfl
  obtain ⟨x, hword⟩ := hword
  generalize hv : linesFound s (linesOf off 1) q.ev = v at *
  have hsame : SamePorts s (freeStep v) := ⟨hports.ports, hports.now, hports.chip, hports.epoch⟩
  obtain ⟨t, ht, tframe, hrep, -, hobjs⟩ := applied_holds (tag := tag) (run := fun s => atomicRun s off op w a b q.ev)
    hword hr hap hsame
  refine ⟨t, x, hrun.trans (congrArg Host.Outcome.next ht.symm), ?_, (congrArg State.lpddr tframe :).trans (congrArg State.lpddr hfound :),
    (congrArg State.tile tframe :).trans (congrArg State.tile hfound :), hrep, hobjs⟩
  rw [show t.free = v.free + 1 from (congrArg State.free tframe :),
    show t.admits = (noteAdmit s off).admits from (congrArg State.admits tframe :)]
  exact tframe

theorem atomicRequest_sync {o : Nat} (hm : regionOf s off = .sync) (ho : o = (off - syncBase) / 8) :
    ∃ t, exec (.atomicRequest q) s = .next t
      ∧ t = { s with dic := t.dic, sync := t.sync, waiters := t.waiters, claims := t.claims, routerW := t.routerW, routerE := t.routerE,
                     evicted := t.evicted, replay := t.replay }
      ∧ syncGet t o = syncGet s o + BitVec.ofNat 64 a ∧ (∀ i, i ≠ o → syncGet t i = syncGet s i)
      ∧ Replied s t (homeHalf s off) p tag 0 0 (natLe 8 (syncGet s o).toNat) ∧ SameObjs s t [Obj.replayEarlyEvictions] := by
  subst ho
  have hrun := atomicRequest_formed hq hb hn hs ha hf
  rw [noteAdmit_none (admitUnit_none (by simp [hm]) (by simp [hm]))] at hrun
  have hword : atomicRun (pTaken p s.admits s) off op w a b q.ev =
      (pTaken p s.admits (syncAdd s ((off - syncBase) / 8) a), 0, 0, natLe 8 (syncGet s ((off - syncBase) / 8)).toNat) := by
    unfold atomicRun
    rw [linesFound_pTaken, linesFound_sync hm, atomicAt_sync (z := pTaken p s.admits s) hf hm]
    rfl
  obtain ⟨u, hu, uframe, hself, hne, hsame⟩ := syncAdd_facts s ((off - syncBase) / 8) a
  rw [← hu] at hword
  obtain ⟨t, ht, tframe, hrep, -, hobjs⟩ := applied_holds (tag := tag) (run := fun s => atomicRun s off op w a b q.ev)
    hword hr hap hsame
  have hsync : t.sync = u.sync := (congrArg State.sync tframe :)
  have hdic : SameObjs s t [Obj.replayEarlyEvictions] :=
    ((SameObjs.refl s _).of_dic (congrArg State.dic uframe :)).trans hobjs
  refine ⟨t, hrun.trans (congrArg Host.Outcome.next ht.symm), ?_, ?_, fun i hi => ?_, hrep, hdic⟩
  · rw [hsync, show t.waiters = u.waiters from (congrArg State.waiters tframe :),
      show t.claims = u.claims from (congrArg State.claims tframe :)]
    refine tframe.trans ?_
    generalize t.routerW = rw', t.routerE = re, t.dic = d, t.evicted = ev, t.replay = rp
    rw [uframe]
  · unfold syncGet at hself ⊢
    rw [hsync]
    exact hself
  · have := hne i hi
    unfold syncGet at this ⊢
    rw [hsync]
    exact this

end

/-! ### REMOTE_SIGNAL_REQUEST -/

theorem signalRequest_eq (hb : p.body = .req off tag (.signal age n)) : exec (.remoteSignalRequest p) s =
    .next (serveRequest s p off tag 8 false (fun s h =>
      if regionOf s off = .sync ∧ off % 8 = 0 then
        sequenced s h p tag age (fun s => (syncAdd s ((off - syncBase) / 8) n, 0, 0, []))
      else replyTo (if regionOf s off = .reserved then countAddrError s off else s) h p tag fabAddress 0 [])) := by
  refine congrArg Host.Outcome.next ?_
  unfold serveSignal
  rw [hb]

section
variable (hb : p.body = .req off tag (.signal age n)) (hs : ServedNow s off 8) (ha : admitLate s off = false)
include hb hs ha

theorem signalRequest_refused (hno : regionOf s off ≠ .sync ∨ off % 8 ≠ 0) :
    ∃ t, exec (.remoteSignalRequest p) s = .next t ∧ t = { s with dic := t.dic, admits := t.admits, routerW := t.routerW, routerE := t.routerE }
      ∧ Replied s t (homeHalf s off) p tag fabAddress 0 [] ∧ SameObjs s t [0x802001, 0x802002] := by
  have hrun := ((signalRequest_eq hb).trans (congrArg Host.Outcome.next (serveRequest_runs hs (fun _ => ha)))).trans
    (congrArg Host.Outcome.next (if_neg (fun hc => hno.elim (fun h => h hc.1) (fun h => h hc.2))))
  obtain ⟨t, ht, hframe, hrep, hobjs⟩ := refused_holds (s := s) (p := p) (m := (noteAdmit s off).admits) (h := homeHalf s off)
    (tag := tag) (off := off)
  refine ⟨t, hrun.trans (congrArg Host.Outcome.next ht.symm), ?_, hrep, hobjs⟩
  rw [show t.admits = (noteAdmit s off).admits from (congrArg State.admits hframe :)]
  exact hframe

section
variable (hm : regionOf s off = .sync) (hal : off % 8 = 0)
include hm hal

theorem signalRequest_formed : exec (.remoteSignalRequest p) s = .next (sequenced (pTaken p s.admits s) (homeHalf s off) p tag age
    (fun s => (syncAdd s ((off - syncBase) / 8) n, 0, 0, []))) := by
  have hrun := ((signalRequest_eq hb).trans (congrArg Host.Outcome.next (serveRequest_runs hs (fun _ => ha)))).trans
    (congrArg Host.Outcome.next (if_pos ⟨hm, hal⟩))
  rw [show admitted s off false = s.admits from noteAdmit_none (admitUnit_none (by simp [hm]) (by simp [hm]))] at hrun
  exact hrun

theorem signalRequest_repeated {g st m : Nat} {d : Bytes}
    (hr : (replayFind s (homeHalf s off) p.src p.seq).map Replay.reply = some (.rep g st m d)) :
    ∃ t, exec (.remoteSignalRequest p) s = .next t ∧ t = { s with dic := t.dic, routerW := t.routerW, routerE := t.routerE }
      ∧ Replied s t (homeHalf s off) p tag st m d ∧ Counted s t Obj.replayHits 1 ∧ SameObjs s t [Obj.replayHits] := by
  obtain ⟨t, ht, hframe, hrest⟩ := repeated_holds (s := s) (p := p) (m := s.admits) (h := homeHalf s off) (tag := tag) (age := age)
    (run := fun s => (syncAdd s ((off - syncBase) / 8) n, 0, 0, [])) hr
  exact ⟨t, (signalRequest_formed hb hs ha hm hal).trans (congrArg Host.Outcome.next ht.symm), hframe, hrest⟩

theorem signalRequest_applied (hr : replayFind s (homeHalf s off) p.src p.seq = none) (hap : applies s (homeHalf s off) p age = true) :
    ∃ t, exec (.remoteSignalRequest p) s = .next t
      ∧ t = { s with dic := t.dic, sync := t.sync, waiters := t.waiters, claims := t.claims, routerW := t.routerW,
                     routerE := t.routerE, evicted := t.evicted, replay := t.replay }
      ∧ syncGet t ((off - syncBase) / 8) = syncGet s ((off - syncBase) / 8) + BitVec.ofNat 64 n
      ∧ (∀ o, o ≠ (off - syncBase) / 8 → syncGet t o = syncGet s o)
      ∧ Replied s t (homeHalf s off) p tag 0 0 [] ∧ (replayFind t (homeHalf s off) p.src p.seq).isSome = true
      ∧ SameObjs s t [Obj.replayEarlyEvictions] := by
  obtain ⟨u, hu, uframe, hself, hne, hsame⟩ := syncAdd_facts s ((off - syncBase) / 8) n
  have hword : ((fun s => (syncAdd s ((off - syncBase) / 8) n, 0, 0, [])) : State → State × Nat × Nat × Bytes) (pTaken p s.admits s)
      = (pTaken p s.admits u, 0, 0, []) := by
    rw [hu]
    rfl
  obtain ⟨t, ht, tframe, hrep, hentry, hobjs⟩ := applied_holds (tag := tag) (age := age)
    (run := fun s => (syncAdd s ((off - syncBase) / 8) n, 0, 0, [])) hword hr hap hsame
  have hsync : t.sync = u.sync := (congrArg State.sync tframe :)
  have hdic : SameObjs s t [Obj.replayEarlyEvictions] :=
    ((SameObjs.refl s _).of_dic (congrArg State.dic uframe :)).trans hobjs
  refine ⟨t, (signalRequest_formed hb hs ha hm hal).trans (congrArg Host.Outcome.next ht.symm), ?_, ?_, fun i hi => ?_, hrep, ?_, hdic⟩
  · rw [hsync, show t.waiters = u.waiters from (congrArg State.waiters tframe :),
      show t.claims = u.claims from (congrArg State.claims tframe :)]
    refine tframe.trans ?_
    generalize t.routerW = rw', t.routerE = re, t.dic = d, t.evicted = ev, t.replay = rp
    rw [uframe]
  · unfold syncGet at hself ⊢
    rw [hsync]
    exact hself
  · have := hne i hi
    unfold syncGet at this ⊢
    rw [hsync]
    exact this
  · exact List.find?_isSome.2 ⟨_, hentry, by simp⟩

end

end

end

/-! ### O31 -/

/-- Settles O31: each request is answered by one of the branches of `serveRequest`; the replay cache decides on those to be applied once. -/
theorem fabricRequestsServedOnce : Obligations.FabricRequestsServedOnce := by
  unfold Obligations.FabricRequestsServedOnce
  refine ⟨?_, ?_, ?_, ?_, ?_, ?_⟩
  · intro q p off tag n s s1 hq hb h1
    subst h1
    exact ⟨fun hr => notReady_holds hr (loadRequest_eq hq hb), fun data mask hs hl => loadRequest_found hq hb hs hl,
      fun hs hl => loadRequest_refused hq hb hs hl, fun l h1 h2 h3 ht h4 => loadRequest_calls hq hb h1 h2 h3 ht h4⟩
  · intro p off tag mask line data poison s hb hl
    exact ⟨fun hr => notReady_holds hr (storeRequest_eq hb hl), fun hs ha => storeRequest_late hb hl hs ha,
      fun hs ha hm hlen _ => storeRequest_memory hb hl hs ha hm hlen, fun k hs hm hw => storeRequest_sync hb hl hs
        (admitLate_none (by simp [hm]) (by simp [hm])) hm hw,
      fun hs hm => storeRequest_page hb hl hs (admitLate_none (by simp [hm]) (by simp [hm])) hm,
      fun hs hno => storeRequest_refused hb hl hs (admitLate_none (fun he => by simp [localPutOk, he] at hno)
        (fun he => by simp [localPutOk, he] at hno)) hno⟩
  · intro q p off tag op age a b n old w s s1 hq hb hn hs ha hold h1
    subst h1
    exact ⟨fun hf hr hap hm hp _ => atomicRequest_word hq hb hn hs ha hf hr hap hm hp hold,
      fun hf hr hap hm hp => atomicRequest_poisoned hq hb hn hs ha hf hr hap hm hp,
      fun o hf hr hap hm ho => atomicRequest_sync hq hb hn hs ha hf hr hap hm ho,
      fun g st m d hf hr => atomicRequest_repeated hq hb hn hs ha hf hr,
      fun hf hr hap => atomicRequest_unknown hq hb hn hs ha hf hr hap, fun hf => atomicRequest_refused hq hb hn hs ha hf⟩
  · intro q off tag op age a b w s hb
    exact ⟨fun hr => notReady_holds hr (atomicRequest_eq rfl hb), fun hs ha =>
      (atomicRequest_eq rfl hb).trans (congrArg Host.Outcome.next (serveRequest_late hs ha))⟩
  · intro p off tag age n s hb hs ha
    exact ⟨fun hm hal hr hap => signalRequest_applied hb hs ha hm hal hr hap, fun g st m d hm hal hr =>
      signalRequest_repeated hb hs ha hm hal hr, fun hno => signalRequest_refused hb hs ha hno⟩
  · intro p off tag age n s hb hr
    exact notReady_holds hr (signalRequest_eq hb)

end Sys2Proof.Machine

/-!
Queues launched and destroyed, and the host's writes of their control pages; O17 settled (R182 to R188).
-/

namespace Sys2Proof.Machine

/-! ### Interrupts of a queue -/

/-- Whether each pending bit still has its vector to send. -/
def owesTrap (v : Queue) : Bool := v.trapPend && v.trapEn && !v.trapSent
def owesCpl (v : Queue) : Bool := v.cplPend && v.cplEn && !v.cplSent
def owesErr (v : Queue) : Bool := v.errPend && v.errEn && !v.errSent

theorem sent_or (a b c : Bool) : (c || (a && b && !c)) = (c || a && b) := by
  cases a <;> cases b <;> cases c <;> rfl

theorem toldQueue_eq (v : Queue) : { v with trapSent := v.trapSent || owesTrap v, cplSent := v.cplSent || owesCpl v
                                            errSent := v.errSent || owesErr v } = toldQueue v := by
  unfold owesTrap owesCpl owesErr toldQueue
  rw [sent_or, sent_or, sent_or]

theorem owes_of_told {v : Queue} (h : toldQueue v = v) : owesTrap v = false ∧ owesCpl v = false ∧ owesErr v = false := by
  have h1 : (v.trapSent || v.trapPend && v.trapEn) = v.trapSent := congrArg Queue.trapSent h
  have h2 : (v.cplSent || v.cplPend && v.cplEn) = v.cplSent := congrArg Queue.cplSent h
  have h3 : (v.errSent || v.errPend && v.errEn) = v.errSent := congrArg Queue.errSent h
  unfold owesTrap owesCpl owesErr
  refine ⟨?_, ?_, ?_⟩
  · revert h1
    cases v.trapSent <;> cases v.trapPend <;> cases v.trapEn <;> decide
  · revert h2
    cases v.cplSent <;> cases v.cplPend <;> cases v.cplEn <;> decide
  · revert h3
    cases v.errSent <;> cases v.errPend <;> cases v.errEn <;> decide

/-- A vector sent where it is owed. -/
def vectorIf (c : Bool) (n : Nat) (s : State) : State := if c then sendVector s n else s

theorem vectorIf_frame (c : Bool) (n : Nat) (s : State) :
    vectorIf c n s = { s with out := (vectorIf c n s).out, host := (vectorIf c n s).host } := by
  unfold vectorIf sendVector
  split
  · split <;> rfl
  · rfl

/-- The three vectors of a queue. -/
def vectorsSent (s : State) (v : Queue) : State :=
  vectorIf (owesErr v) v.irqVector (vectorIf (owesCpl v) v.irqVector (vectorIf (owesTrap v) v.irqVector s))

theorem vectorsSent_frame (s : State) (v : Queue) :
    vectorsSent s v = { s with out := (vectorsSent s v).out, host := (vectorsSent s v).host } := by
  unfold vectorsSent
  have h1 := vectorIf_frame (owesTrap v) v.irqVector s
  generalize vectorIf (owesTrap v) v.irqVector s = a at *
  have h2 := vectorIf_frame (owesCpl v) v.irqVector a
  generalize vectorIf (owesCpl v) v.irqVector a = b at *
  have h3 := vectorIf_frame (owesErr v) v.irqVector b
  generalize vectorIf (owesErr v) v.irqVector b = c at *
  rw [h3, h2, h1]

theorem sendQueueIrqs_some {s : State} {q : Nat} {v : Queue} (hv : smGet s.queues q = some v) :
    sendQueueIrqs s q = vectorsSent (updQ s q (fun x =>
      { x with trapSent := x.trapSent || owesTrap v, cplSent := x.cplSent || owesCpl v, errSent := x.errSent || owesErr v })) v := by
  unfold sendQueueIrqs
  rw [hv]
  rfl

/-- A queue's interrupts sent: its marks, and what goes out. -/
theorem queueTells_sendQueueIrqs {s : State} {q : Nat} {v : Queue} (hv : smGet s.queues q = some v) :
    QueueTells s (sendQueueIrqs s q) q v ∧ (sendQueueIrqs s q).dic = s.dic := by
  have hupd : ∃ u, u = updQ s q (fun x => { x with trapSent := x.trapSent || owesTrap v, cplSent := x.cplSent || owesCpl v
                                                   errSent := x.errSent || owesErr v })
      ∧ u = { s with queues := u.queues } ∧ smGet u.queues q = some (toldQueue v)
      ∧ ∀ k, k ≠ q → smGet u.queues k = smGet s.queues k := by
    refine ⟨_, rfl, rfl, ?_, fun k hk => smGet_updQ_ne s q k _ hk⟩
    rw [smGet_updQ_self, hv]
    exact congrArg some (toldQueue_eq v)
  obtain ⟨u, hu, hframe, hself, hother⟩ := hupd
  rw [sendQueueIrqs_some hv, ← hu]
  have hsent := vectorsSent_frame u v
  have hquiet : toldQueue v = v → vectorsSent u v = u := fun h => by
    obtain ⟨h1, h2, h3⟩ := owes_of_told h
    unfold vectorsSent
    rw [h1, h2, h3]
    rfl
  generalize vectorsSent u v = t at *
  have hq : t.queues = u.queues := (congrArg State.queues hsent :)
  have hd : t.dic = s.dic := (congrArg State.dic hsent :).trans (congrArg State.dic hframe :)
  refine ⟨⟨hq ▸ hself, fun k hk => hq ▸ hother k hk, ?_, fun h => ?_⟩, hd⟩
  · rw [hq, hd]
    refine hsent.trans ?_
    generalize t.out = o, t.host = ho
    rw [hframe]
  · rw [hquiet h]
    exact ⟨(congrArg State.out hframe :), (congrArg State.host hframe :)⟩

/-- A queue changed and its interrupts sent. -/
theorem queueTells_updQ {s : State} {q : Nat} {v : Queue} (f : Queue → Queue) (hv : smGet s.queues q = some v) :
    QueueTells s (sendQueueIrqs (updQ s q f) q) q (f v) ∧ (sendQueueIrqs (updQ s q f) q).dic = s.dic := by
  have hv' : smGet (updQ s q f).queues q = some (f v) := by
    rw [smGet_updQ_self, hv]
    rfl
  obtain ⟨⟨h1, h2, h3, h4⟩, hd⟩ := queueTells_sendQueueIrqs hv'
  generalize sendQueueIrqs (updQ s q f) q = t at *
  exact ⟨⟨h1, fun k hk => (h2 k hk).trans (smGet_updQ_ne s q k f hk), h3, h4⟩, hd⟩

/-! ### Mailbox commands -/

theorem readPastDim_clear {s : State} {addr n : Nat} (h : SchedReads s addr n) (key : Nat × Nat × Nat) (go : State → State) :
    readPastDim s addr n key go = go s := by
  unfold readPastDim
  split
  next off ho =>
    obtain ⟨h1, h2, h3, h4⟩ := h off ho
    unfold pastLocal pastSnoop pastDim
    simp only [h1, h2, h3, h4, Bool.false_eq_true, if_false]
  next => rfl

theorem readPastDim_none (s : State) (key : Nat × Nat × Nat) (go : State → State) : readPastDim s 0 0 key go = go s := by
  refine readPastDim_clear (fun off ho => ?_) key go
  have h0 : lpddrLines off 0 = [] := rfl
  exact ⟨by rw [h0]; rfl, by rw [h0]; rfl, by rw [h0]; rfl, rfl⟩

theorem mbxRun_notReady {s : State} {cmd : Nat} (f : State → State) (hb : s.host.busy = true) (hc : s.host.running = cmd)
    (hr : isReady s = false) : mbxRun s cmd f = mbxEnd s 6 := by
  unfold mbxRun
  rw [if_pos (by simp [hb, hc]), if_neg (by simp [hr])]

theorem mbxRun_other {s : State} {cmd : Nat} (f : State → State) (h : s.host.busy = false ∨ s.host.running ≠ cmd) :
    mbxRun s cmd f = s := by
  unfold mbxRun
  refine if_neg fun hc => ?_
  simp only [Bool.and_eq_true, beq_iff_eq] at hc
  exact h.elim (fun h => by simp [h] at hc) (fun h => h hc.2)

/-- A command's end as the clauses state it. -/
theorem mbxEnd_facts (s : State) (st : Nat) : ∃ t, t = mbxEnd s st ∧ t = { s with out := t.out, host := t.host }
    ∧ t.host.busy = false ∧ t.host.done = true ∧ t.host.status = st := by
  obtain ⟨h1, h2, h3⟩ := mailboxEnded_mbxEnd s st
  exact ⟨_, rfl, mbxEnd_frame s st, h1, h2, h3⟩

/-- A launch's partitions: none where the block names none, else those of a list read clean. -/
def launchParts (s : State) (q n : Nat) (addr : Nat) (parts : Fetch) : State × Option (List Partition) :=
  let y := if n = 0 then (s, some []) else readClean s addr (8 * n) parts
  (y.1, y.2.bind (fun l => partsOf y.1 q (wordsOf l n)))

/-- The end of a launch whose block is accepted. -/
def launchEnds (q : Nat) (v : Queue) (y : State × Option (List Partition)) : State :=
  match y.2 with
  | none => mbxEnd y.1 0x03
  | some ps =>
    if partsOk y.1 ps then mbxEnd { y.1 with queues := smSet y.1.queues q v, parts := y.1.parts ++ ps } 0x00 else mbxEnd y.1 0x03

/-- The number of a launched queue, and the queue, as its block gives them. -/
def launchNumber (coll : Bool) (b : List Word64) : Nat := if coll then collQ else dField b 0 9 0
def launchQueue (s : State) (coll : Bool) (b : List Word64) : Queue :=
  queueOfBlock (launchNumber coll b) b (if natBit 20 (mbxArg s 1) then some (mbxArg s 1 % 2 ^ 20) else none)

theorem launch_read {coll : Bool} {block parts : Fetch} {s : State} {bs : Bytes} {b : List Word64} {q : Nat} {v : Queue}
    (ha : mbxArg s 1 / 2 ^ 21 = 0) (hs : SchedReads s (mbxArg s 0) 64) (hr : readClean s (mbxArg s 0) 64 block = (s, some bs))
    (hb : b = wordsOf bs 8) (hq : q = if coll then collQ else dField b 0 9 0)
    (hv : v = queueOfBlock q b (if natBit 20 (mbxArg s 1) then some (mbxArg s 1 % 2 ^ 20) else none)) : launch coll block parts s =
      if !launchOk s q v b then mbxEnd s 0x03
      else readPastDim s (if dField b 3 9 0 = 0 then 0 else (wordAt b 4).toNat) (8 * dField b 3 9 0)
        (2 ^ 20 + 2, 1, 0) (fun s => launchEnds q v (launchParts s q (dField b 3 9 0) (wordAt b 4).toNat parts)) := by
  subst hv hq hb
  unfold launch
  rw [if_neg (by rw [ha]; decide), readPastDim_clear hs]
  dsimp only
  rw [hr]
  rfl

section
variable {coll : Bool} {block parts : Fetch} {s : State} {bs : Bytes} {q n : Nat} {b : List Word64} {v : Queue} {ps : List Partition}

theorem launch_exec (hbusy : s.host.busy = true) (hcmd : s.host.running = if coll then 3 else 1) (hr : isReady s = true) :
    exec (if coll then .collQueueLaunch block parts else .queueLaunch block parts) s = .next (launch coll block parts s) := by
  cases coll with
  | false => exact congrArg Host.Outcome.next (mbxRun_ready _ hbusy hcmd hr)
  | true => exact congrArg Host.Outcome.next (mbxRun_ready _ hbusy hcmd hr)

/-- A launch that ends invalid. -/
theorem launch_invalid (hbusy : s.host.busy = true) (hcmd : s.host.running = if coll then 3 else 1) (hr : isReady s = true)
    (h : launch coll block parts s = mbxEnd s 3) :
    ∃ t, exec (if coll then .collQueueLaunch block parts else .queueLaunch block parts) s = .next t
      ∧ t = { s with out := t.out, host := t.host } ∧ t.host.busy = false ∧ t.host.status = 3 := by
  obtain ⟨t, ht, hframe, h1, -, h3⟩ := mbxEnd_facts s 3
  exact ⟨t, (launch_exec hbusy hcmd hr).trans (congrArg Host.Outcome.next (h.trans ht.symm)), hframe, h1, h3⟩

section
variable (hbusy : s.host.busy = true) (hcmd : s.host.running = if coll then 3 else 1) (hr : isReady s = true)
  (ha : mbxArg s 1 / 2 ^ 21 = 0) (hs : SchedReads s (mbxArg s 0) 64) (hread : readClean s (mbxArg s 0) 64 block = (s, some bs))
  (hb : b = wordsOf bs 8) (hq : q = if coll then collQ else dField b 0 9 0)
  (hv : v = queueOfBlock q b (if natBit 20 (mbxArg s 1) then some (mbxArg s 1 % 2 ^ 20) else none))
include hbusy hcmd hr ha hs hread hb hq hv

theorem launch_refused (h : launchOk s q v b = false) :
    ∃ t, exec (if coll then .collQueueLaunch block parts else .queueLaunch block parts) s = .next t
      ∧ t = { s with out := t.out, host := t.host } ∧ t.host.busy = false ∧ t.host.status = 3 :=
  launch_invalid hbusy hcmd hr ((launch_read ha hs hread hb hq hv).trans (if_pos (by simp [h])))

theorem launch_badParts (hn : dField b 3 9 0 ≠ 0) (hps : SchedReads s (wordAt b 4).toNat (8 * dField b 3 9 0))
    (h1 : (readClean s (wordAt b 4).toNat (8 * dField b 3 9 0) parts).1 = s)
    (h2 : ((readClean s (wordAt b 4).toNat (8 * dField b 3 9 0) parts).2.bind (fun l => partsOf s q (wordsOf l (dField b 3 9 0)))).any
      (partsOk s) = false) :
    ∃ t, exec (if coll then .collQueueLaunch block parts else .queueLaunch block parts) s = .next t
      ∧ t = { s with out := t.out, host := t.host } ∧ t.host.busy = false ∧ t.host.status = 3 := by
  by_cases hok : launchOk s q v b = true
  · refine launch_invalid hbusy hcmd hr ((launch_read ha hs hread hb hq hv).trans
      ((if_neg (by simp [hok])).trans ?_))
    rw [if_neg hn, readPastDim_clear hps]
    unfold launchParts
    rw [if_neg hn]
    dsimp only
    rw [h1]
    unfold launchEnds
    dsimp only
    cases hp : (readClean s (wordAt b 4).toNat (8 * dField b 3 9 0) parts).2.bind (fun l => partsOf s q (wordsOf l (dField b 3 9 0))) with
    | none => rfl
    | some l =>
      rw [hp] at h2
      exact if_neg (by rw [show partsOk s l = false from h2]; exact Bool.false_ne_true)
  · exact launch_refused hbusy hcmd hr ha hs hread hb hq hv (Bool.not_eq_true _ ▸ hok)

theorem launch_accepted (hn : n = dField b 3 9 0) (hok : launchOk s q v b = true)
    (hps : n ≠ 0 → SchedReads s (wordAt b 4).toNat (8 * n)) (h0 : n = 0 → ps = [])
    (h1 : n ≠ 0 → (readClean s (wordAt b 4).toNat (8 * n) parts).1 = s
      ∧ (readClean s (wordAt b 4).toNat (8 * n) parts).2.bind (fun l => partsOf s q (wordsOf l n)) = some ps)
    (hpok : partsOk s ps = true) :
    ∃ t, exec (if coll then .collQueueLaunch block parts else .queueLaunch block parts) s = .next t
      ∧ t = { s with out := t.out, queues := smSet s.queues q v, parts := s.parts ++ ps, host := t.host }
      ∧ v.state = 1 ∧ v.outstanding = 0 ∧ v.head = 0 ∧ v.prod = 0 ∧ v.fetched = [] ∧ smGet s.queues q = none
      ∧ t.host.busy = false ∧ t.host.done = true ∧ t.host.status = 0 := by
  have hlaunch : launch coll block parts s = mbxEnd { s with queues := smSet s.queues q v, parts := s.parts ++ ps } 0x00 := by
    refine (launch_read ha hs hread hb hq hv).trans ((if_neg (by simp [hok])).trans ?_)
    rw [← hn]
    have hends : launchParts s q n (wordAt b 4).toNat parts = (s, some ps) := by
      unfold launchParts
      by_cases hz : n = 0
      · rw [if_pos hz, h0 hz, hz]
        rfl
      · obtain ⟨ha1, ha2⟩ := h1 hz
        rw [if_neg hz]
        dsimp only
        rw [ha1, ha2]
    have hpast : readPastDim s (if n = 0 then 0 else (wordAt b 4).toNat) (8 * n) (2 ^ 20 + 2, 1, 0)
        (fun s => launchEnds q v (launchParts s q n (wordAt b 4).toNat parts))
        = launchEnds q v (launchParts s q n (wordAt b 4).toNat parts) := by
      by_cases hz : n = 0
      · rw [if_pos hz, show 8 * n = 0 by omega]
        exact readPastDim_none s _ _
      · rw [if_neg hz, readPastDim_clear (hps hz)]
    rw [hpast, hends]
    exact if_pos hpok
  obtain ⟨t, ht, hframe, e1, e2, e3⟩ := mbxEnd_facts { s with queues := smSet s.queues q v, parts := s.parts ++ ps } 0
  have hnone : smGet s.queues q = none := by
    unfold launchOk at hok
    simp only [Bool.and_eq_true, Option.isNone_iff_eq_none] at hok
    exact hok.1.1.1.1.1.1.1.1.1.1
  refine ⟨t, (launch_exec hbusy hcmd hr).trans (congrArg Host.Outcome.next (hlaunch.trans ht.symm)), hframe, ?_, ?_, ?_, ?_, ?_, hnone,
    e1, e2, e3⟩ <;> rw [hv] <;> rfl

end

theorem launch_outOfTurn {c : Instr} {k st : Nat}
    (h : ((c = .queueLaunch block parts ∧ k = 1 ∨ c = .collQueueLaunch block parts ∧ k = 3)
        ∧ (isReady s = false ∧ st = 6 ∨ isReady s = true ∧ mbxArg s 1 / 2 ^ 21 ≠ 0 ∧ st = 1))
      ∨ c = .queueDestroy ∧ k = 2 ∧ (isReady s = false ∧ st = 6 ∨ isReady s = true ∧ mbxArg s 0 / 2 ^ 10 ≠ 0 ∧ st = 1
          ∨ isReady s = true ∧ mbxArg s 0 / 2 ^ 10 = 0 ∧ smGet s.queues (mbxArg s 0) = none ∧ st = 4)) :
    ∃ f, exec c s = .next (mbxRun s k f) ∧ (isReady s = true → f s = mbxEnd s st) ∧ (isReady s = false → st = 6) := by
  have hlaunch : ∀ coll, (isReady s = false ∧ st = 6 ∨ isReady s = true ∧ mbxArg s 1 / 2 ^ 21 ≠ 0 ∧ st = 1) →
      (isReady s = true → launch coll block parts s = mbxEnd s st) ∧ (isReady s = false → st = 6) := by
    intro coll hcase
    rcases hcase with ⟨hr, h6⟩ | ⟨hr, ha, h1⟩
    · exact ⟨fun h => by simp [hr] at h, fun _ => h6⟩
    · refine ⟨fun _ => ?_, fun h => by simp [hr] at h⟩
      rw [h1]
      exact if_pos (bne_iff_ne.2 ha)
  rcases h with ⟨⟨rfl, rfl⟩ | ⟨rfl, rfl⟩, hcase⟩ | ⟨rfl, rfl, hcase⟩
  · exact ⟨_, rfl, hlaunch false hcase⟩
  · exact ⟨_, rfl, hlaunch true hcase⟩
  · refine ⟨destroy, rfl, ?_⟩
    rcases hcase with ⟨hr, h6⟩ | ⟨hr, ha, h1⟩ | ⟨hr, ha, hnone, h4⟩
    · exact ⟨fun h => by simp [hr] at h, fun _ => h6⟩
    · refine ⟨fun _ => ?_, fun h => by simp [hr] at h⟩
      rw [h1]
      exact if_pos (bne_iff_ne.2 ha)
    · refine ⟨fun _ => ?_, fun h => by simp [hr] at h⟩
      rw [h4]
      unfold destroy
      rw [if_neg (by rw [ha]; decide), hnone]

/-- A command that ends at once, or is not the one that runs. -/
theorem outOfTurn_holds {c : Instr} {k st : Nat}
    (h : ∃ f, exec c s = .next (mbxRun s k f) ∧ (isReady s = true → f s = mbxEnd s st) ∧ (isReady s = false → st = 6)) :
    ∃ t, exec c s = .next t
      ∧ (s.host.busy = true → s.host.running = k →
          t = { s with out := t.out, host := t.host } ∧ t.host.busy = false ∧ t.host.done = true ∧ t.host.status = st)
      ∧ (s.host.busy = false ∨ s.host.running ≠ k → t = s) := by
  obtain ⟨f, hrun, hready, hnot⟩ := h
  by_cases hb : s.host.busy = true ∧ s.host.running = k
  · obtain ⟨hbusy, hcmd⟩ := hb
    have hend : mbxRun s k f = mbxEnd s st := by
      cases hr : isReady s with
      | true => rw [mbxRun_ready f hbusy hcmd hr, hready hr]
      | false => rw [mbxRun_notReady f hbusy hcmd hr, hnot hr]
    obtain ⟨t, ht, hframe, h1, h2, h3⟩ := mbxEnd_facts s st
    exact ⟨t, hrun.trans (congrArg Host.Outcome.next (hend.trans ht.symm)), fun _ _ => ⟨hframe, h1, h2, h3⟩,
      fun hor => (hor.elim (fun h => by simp [hbusy] at h) (fun h => absurd hcmd h))⟩
  · have hor : s.host.busy = false ∨ s.host.running ≠ k := by
      cases hbusy : s.host.busy with
      | false => exact Or.inl rfl
      | true => exact Or.inr fun hc => hb ⟨hbusy, hc⟩
    exact ⟨s, hrun.trans (congrArg Host.Outcome.next (mbxRun_other f hor)), fun h1 h2 => absurd ⟨h1, h2⟩ hb, fun _ => rfl⟩

theorem queueDestroy_holds (hbusy : s.host.busy = true) (hcmd : s.host.running = 2) (hr : isReady s = true)
    (ha : mbxArg s 0 < 2 ^ 10) (hv : smGet s.queues (mbxArg s 0) = some v) :
    ∃ t, exec .queueDestroy s = .next t
      ∧ (destroyOk v = true → t = { s with out := t.out, queues := smErase s.queues (mbxArg s 0), host := t.host,
                                           parts := s.parts.filter (fun p => p.queue != mbxArg s 0) } ∧ t.host.status = 0)
      ∧ (destroyOk v = false → t = { s with out := t.out, host := t.host } ∧ t.host.status = 4) ∧ t.host.busy = false := by
  have hrun : exec .queueDestroy s = .next (destroy s) := congrArg Host.Outcome.next (mbxRun_ready _ hbusy hcmd hr)
  have hstep : destroy s = if destroyOk v then mbxEnd (removeQueue s (mbxArg s 0)) 0x00 else mbxEnd s 0x04 := by
    unfold destroy
    rw [if_neg (by rw [Nat.div_eq_of_lt ha]; decide), hv]
  by_cases hok : destroyOk v = true
  · obtain ⟨t, ht, hframe, h1, -, h3⟩ := mbxEnd_facts (removeQueue s (mbxArg s 0)) 0
    exact ⟨t, hrun.trans (congrArg Host.Outcome.next ((hstep.trans (if_pos hok)).trans ht.symm)), fun _ => ⟨hframe, h3⟩,
      fun h => by simp [hok] at h, h1⟩
  · obtain ⟨t, ht, hframe, h1, -, h3⟩ := mbxEnd_facts s 4
    exact ⟨t, hrun.trans (congrArg Host.Outcome.next ((hstep.trans (if_neg hok)).trans ht.symm)), fun h => absurd h hok,
      fun _ => ⟨hframe, h3⟩, h1⟩

end

end Sys2Proof.Machine

/-!
The host's writes of a control page (R113, R185, R187, R188); O17 settled.
-/

namespace Sys2Proof.Machine

section
variable {s : State} {q : Nat} {v : Queue}

/-! ### A write of a control page -/

theorem hostPage_failed (h : bridgeFailed s = true) (reg w : Nat) : hostPage s q reg w = s := if_pos h

theorem hostPage_works (h : bridgeFailed s = false) (reg w : Nat) : hostPage s q reg w = pageWrite s q reg w := if_neg (by simp [h])

theorem pageWrite_doorbell (s : State) (q w : Nat) : pageWrite s q 0x000 w = doorbellWrite s q w := if_pos rfl

theorem pageWrite_command (s : State) (q w : Nat) : pageWrite s q 0x028 w =
    if w % 4 = 1 then releaseQueue s q else if w % 4 = 2 then discardQueue s q else if w % 4 = 3 then abortQueue s q else s :=
  (if_neg (by decide)).trans ((if_neg (by decide)).trans ((if_neg (by decide)).trans (if_pos rfl)))

theorem pageWrite_irq (s : State) (q w : Nat) : pageWrite s q 0x040 w = irqWrite s q w :=
  (if_neg (by decide)).trans ((if_neg (by decide)).trans ((if_neg (by decide)).trans ((if_neg (by decide)).trans
    ((if_neg (by decide)).trans (if_pos rfl)))))

/-! ### QSY_DOORBELL (R185) -/

theorem doorbellWrite_some (hv : smGet s.queues q = some v) (p : Nat) : doorbellWrite s q p =
    if doorbellHeld s v then updQ s q (fun x => { x with latched := x.latched ++ [p] })
    else if diff32 (p % 2 ^ 32) v.prod = 0 then s
    else if diff32 (p % 2 ^ 32) v.head ≤ 2 ^ v.ringLog2 then updQ s q (fun x => { x with prod := p % 2 ^ 32 })
    else raiseErr (objInc (updQ s q (fun x => { x with doorbellError := true })) Obj.doorbellErrors) q := by
  unfold doorbellWrite doorbellTake
  rw [hv]

/-- A change of one queue and nothing else. -/
theorem updQ_facts (f : Queue → Queue) (hv : smGet s.queues q = some v) : ∃ t, t = updQ s q f ∧ t = { s with queues := t.queues }
    ∧ smGet t.queues q = some (f v) ∧ ∀ k, k ≠ q → smGet t.queues k = smGet s.queues k :=
  ⟨_, rfl, rfl, by rw [smGet_updQ_self, hv]; rfl, fun k hk => smGet_updQ_ne s q k f hk⟩

theorem doorbell_beyond (hv : smGet s.queues q = some v) : ∃ t, t = raiseErr (objInc (updQ s q (fun x => { x with doorbellError := true }))
      Obj.doorbellErrors) q
    ∧ QueueTells s t q { v with doorbellError := true, errPend := true } ∧ Counted s t Obj.doorbellErrors 1
    ∧ SameObjs s t [Obj.doorbellErrors] := by
  obtain ⟨u, hu, hframe, hself, hother⟩ := updQ_facts (fun x => { x with doorbellError := true }) hv
  rw [← hu]
  have hinc : smGet (objInc u Obj.doorbellErrors).queues q = some { v with doorbellError := true } := hself
  obtain ⟨⟨h1, h2, h3, h4⟩, hd⟩ := queueTells_updQ (fun x => { x with errPend := true }) hinc
  unfold raiseErr
  generalize sendQueueIrqs (updQ (objInc u Obj.doorbellErrors) q (fun x => { x with errPend := true })) q = t at *
  have hud : u.dic = s.dic := (congrArg State.dic hframe :)
  have hobjs : SameObjs s (objInc u Obj.doorbellErrors) [Obj.doorbellErrors] :=
    ((SameObjs.refl s _).of_dic hud).objInc _ List.mem_cons_self
  have hcount : objGet (objInc u Obj.doorbellErrors) Obj.doorbellErrors = satAdd (objTop Obj.doorbellErrors) (objGet s Obj.doorbellErrors) 1 :=
    (objGet_objInc_self u _).trans (by unfold objGet; rw [hud])
  refine ⟨t, rfl, ⟨h1, fun k hk => (h2 k hk).trans (hother k hk), ?_, fun h => ?_⟩, ?_, hobjs.of_dic hd⟩
  · refine h3.trans ?_
    generalize t.queues = qs, t.dic = d, t.out = o, t.host = ho
    rw [hframe]
    rfl
  · obtain ⟨ho, hh⟩ := h4 h
    exact ⟨ho.trans (congrArg State.out hframe :), hh.trans (congrArg State.host hframe :)⟩
  · exact (show objGet t _ = objGet (objInc u Obj.doorbellErrors) _ by unfold objGet; rw [hd]).trans hcount

theorem doorbell_holds {p : Nat} (hq : q < 1025) (hf : bridgeFailed s = false) (hv : smGet s.queues q = some v) :
    ∃ t v', exec (.qsyDoorbell q p) s = .next t ∧ smGet t.queues q = some v' ∧ (∀ k, k ≠ q → smGet t.queues k = smGet s.queues k)
      ∧ (doorbellHeld s v = true → t = { s with queues := t.queues } ∧ v' = { v with latched := v.latched ++ [p] })
      ∧ (doorbellHeld s v = false → diff32 (p % 2 ^ 32) v.prod = 0 → t = s)
      ∧ (doorbellHeld s v = false → diff32 (p % 2 ^ 32) v.prod ≠ 0 → diff32 (p % 2 ^ 32) v.head ≤ 2 ^ v.ringLog2 →
          t = { s with queues := t.queues } ∧ v' = { v with prod := p % 2 ^ 32 })
      ∧ (doorbellHeld s v = false → diff32 (p % 2 ^ 32) v.prod ≠ 0 → 2 ^ v.ringLog2 < diff32 (p % 2 ^ 32) v.head →
          QueueTells s t q { v with doorbellError := true, errPend := true } ∧ Counted s t Obj.doorbellErrors 1
          ∧ SameObjs s t [Obj.doorbellErrors]) := by
  have hrun : exec (.qsyDoorbell q p) s = .next (doorbellWrite s q p) :=
    (need_lt hq _).trans (congrArg Host.Outcome.next ((hostPage_works hf _ _).trans (pageWrite_doorbell s q p)))
  rw [doorbellWrite_some hv] at hrun
  by_cases hheld : doorbellHeld s v = true
  · obtain ⟨t, ht, hframe, hself, hother⟩ := updQ_facts (fun x => { x with latched := x.latched ++ [p] }) hv
    exact ⟨t, _, hrun.trans (congrArg Host.Outcome.next ((if_pos hheld).trans ht.symm)), hself, hother, fun _ => ⟨hframe, rfl⟩,
      fun h => by simp [hheld] at h, fun h => by simp [hheld] at h, fun h => by simp [hheld] at h⟩
  · rw [if_neg hheld] at hrun
    by_cases hz : diff32 (p % 2 ^ 32) v.prod = 0
    · exact ⟨s, v, hrun.trans (congrArg Host.Outcome.next (if_pos hz)), hv, fun _ _ => rfl, fun h => absurd h hheld, fun _ _ => rfl,
        fun _ hn => absurd hz hn, fun _ hn => absurd hz hn⟩
    · rw [if_neg hz] at hrun
      by_cases hin : diff32 (p % 2 ^ 32) v.head ≤ 2 ^ v.ringLog2
      · obtain ⟨t, ht, hframe, hself, hother⟩ := updQ_facts (fun x => { x with prod := p % 2 ^ 32 }) hv
        exact ⟨t, _, hrun.trans (congrArg Host.Outcome.next ((if_pos hin).trans ht.symm)), hself, hother, fun h => absurd h hheld,
          fun _ h => absurd h hz, fun _ _ _ => ⟨hframe, rfl⟩, fun _ _ h => absurd hin (Nat.not_le.2 h)⟩
      · obtain ⟨t, ht, htells, hcount, hobjs⟩ := doorbell_beyond hv
        exact ⟨t, _, hrun.trans (congrArg Host.Outcome.next ((if_neg hin).trans ht.symm)), htells.1, htells.2.1, fun h => absurd h hheld,
          fun _ h => absurd h hz, fun _ _ h => absurd h hin, fun _ _ _ => ⟨htells, hcount, hobjs⟩⟩

/-! ### Release and discard (R113, R187) -/

/-- A queue resumed from its trap. -/
def resumed (v : Queue) : Queue :=
  { v with withheld := [], trapped := false, trappedCount := 0, trapValid := false, firstTrap := 0
           state := if v.state = 2 then 1 else v.state }

theorem clearTrap_facts (hv : smGet s.queues q = some v) : ∃ t, t = clearTrap s q
    ∧ t = { s with queues := t.queues, waitClaims := t.waitClaims } ∧ smGet t.queues q = some (resumed v)
    ∧ (∀ k, k ≠ q → smGet t.queues k = smGet s.queues k) ∧ ∀ c ∈ t.waitClaims, c.queue = q → c.halted = false := by
  refine ⟨_, rfl, rfl, ?_, fun k hk => smGet_updQ_ne _ q k _ hk, fun c hc hcq => ?_⟩
  · refine (smGet_updQ_self _ q _).trans ?_
    show (smGet s.queues q).map _ = _
    rw [hv]
    rfl
  · obtain ⟨x, -, hx⟩ := List.mem_map.1 (show c ∈ s.waitClaims.map (fun (c : Claim) => if c.queue = q then { c with halted := false } else c) from hc)
    split at hx
    · subst hx
      rfl
    next hne =>
      subst hx
      exact absurd hcq hne

/-- What of a queue a failed tail signal leaves. -/
def unsignalled (v : Queue) : Queue :=
  { v with signalFault := false, errPend := false, trapSent := false, cplSent := false, errSent := false }

theorem unsignalled_remoteSignalFailed (s : State) (q n p : Nat) :
    queueView unsignalled p (remoteSignalFailed s q n) = queueView unsignalled p s := by
  unfold remoteSignalFailed
  rw [queueView_of_queues unsignalled p (journal_keeps State.queues (fun _ _ => rfl) _ _ _),
    queueView_raiseErr unsignalled (fun _ _ _ _ _ => rfl)]
  exact queueView_updQ unsignalled p (objInc s Obj.remoteSignalFaults) q _ (fun _ => rfl)

/-- What tail signals keep of the queues: every other queue, and all of their own but its faults. -/
def TailsKeep (s : State) (q : Nat) (u : State) : Prop :=
  OthersKept s u q ∧ queueView unsignalled q u = queueView unsignalled q s

theorem tailsKeep_tailSignal {u : State} (h : Half) (n : Nat) (ws : List Word64) (hu : TailsKeep s q u) :
    TailsKeep s q (tailSignal u h q n ws) :=
  ⟨hu.1.tailSignal h n ws, tailSignal_queue (P := fun w => queueView unsignalled q w = queueView unsignalled q s) u h q n ws hu.2
    (fun h hq => (queueView_of_queues unsignalled q hq).trans h) (fun t h => (unsignalled_remoteSignalFailed t q n q).trans h)⟩

theorem makeTails_facts (q : Nat) (v : Queue) (xs : List (Nat × List Word64)) (u : State) (h : TailsKeep s q u) :
    TailsKeep s q (makeTails u q v xs) ∧ SameObjs u (makeTails u q v xs) tailObjs := by
  induction xs generalizing u with
  | nil => exact ⟨h, SameObjs.refl _ _⟩
  | cons x xs ih =>
    obtain ⟨n, ws⟩ := x
    obtain ⟨h1, h2⟩ := ih (tailSignal u (homeOfHalves v.halves) q n ws) (tailsKeep_tailSignal _ n ws h)
    exact ⟨h1, (sameObjs_tailSignal _ _ _ _ _).trans h2⟩

theorem makeTails_frame (s : State) (q : Nat) (v : Queue) (xs : List (Nat × List Word64)) :
    makeTails s q v xs = foot12_3 s (makeTails s q v xs) :=
  makeTails_keeps (foot12_3 · (makeTails s q v xs)) (fun _ _ => rfl) s q v xs

theorem releaseQueue_some (hv : smGet s.queues q = some v) :
    releaseQueue s q = if v.trapped then makeTails (clearTrap s q) q v v.withheld else s := by
  unfold releaseQueue
  rw [hv]

theorem discardQueue_some (hv : smGet s.queues q = some v) : discardQueue s q = if v.trapped then clearTrap s q else s := by
  unfold discardQueue
  rw [hv]

/-- The withheld signals that a release makes, and a discard does not. -/
def tailsMade (release : Bool) (v : Queue) : List (Nat × List Word64) := if release then v.withheld else []

theorem resume_exec (release : Bool) (hq : q < 1025) (hf : bridgeFailed s = false) (hv : smGet s.queues q = some v) :
    exec (if release then .qsyCmdRelease q else .qsyCmdDiscard q) s
      = .next (if v.trapped then makeTails (clearTrap s q) q v (tailsMade release v) else s) := by
  cases release with
  | true => exact (need_lt hq _).trans (congrArg Host.Outcome.next ((hostPage_works hf _ _).trans ((pageWrite_command s q 1).trans
      ((if_pos rfl).trans (releaseQueue_some hv)))))
  | false => exact (need_lt hq _).trans (congrArg Host.Outcome.next ((hostPage_works hf _ _).trans ((pageWrite_command s q 2).trans
      ((if_neg (by decide)).trans ((if_pos rfl).trans (discardQueue_some hv))))))

theorem resume_holds (release : Bool) (hq : q < 1025) (hf : bridgeFailed s = false) (hv : smGet s.queues q = some v) :
    ∃ t v', exec (if release then .qsyCmdRelease q else .qsyCmdDiscard q) s = .next t ∧ smGet t.queues q = some v'
      ∧ (v.trapped = false → t = s)
      ∧ (v.trapped = true → v'.trapped = false ∧ v'.trappedCount = 0 ∧ v'.withheld = [] ∧ v'.state = (if v.state = 2 then 1 else v.state)
          ∧ ∀ c ∈ t.waitClaims, c.queue = q → c.halted = false)
      ∧ v'.outstanding = v.outstanding ∧ v'.fetched = v.fetched ∧ (∀ k, k ≠ q → smGet t.queues k = smGet s.queues k)
      ∧ (release = false ∨ v.withheld = [] → t = { s with queues := t.queues, waitClaims := t.waitClaims })
      ∧ t = { s with out := t.out, dic := t.dic, claims := t.claims, waitClaims := t.waitClaims, queues := t.queues, sync := t.sync
                     waiters := t.waiters, routerW := t.routerW, routerE := t.routerE, outst := t.outst, nextTag := t.nextTag
                     host := t.host, obs := t.obs }
      ∧ SameObjs s t tailObjs := by
  have hrun := resume_exec release hq hf hv
  cases ht : v.trapped with
  | false =>
    rw [ht] at hrun
    exact ⟨s, v, hrun, hv, fun _ => rfl, fun h => by simp at h, rfl, rfl, fun _ _ => rfl, fun _ => rfl, rfl, SameObjs.refl _ _⟩
  | true =>
    rw [ht] at hrun
    obtain ⟨u, hu, uframe, uself, uother, uclaims⟩ := clearTrap_facts hv
    rw [if_pos rfl, ← hu] at hrun
    obtain ⟨⟨kother, kview⟩, kobjs⟩ := makeTails_facts (s := u) q v (tailsMade release v) u ⟨OthersKept.refl _ _, rfl⟩
    have kframe := makeTails_frame u q v (tailsMade release v)
    have hnil : release = false ∨ v.withheld = [] → makeTails u q v (tailsMade release v) = u := fun h => by
      have : tailsMade release v = [] := by
        rcases h with h | h
        · rw [h]
          rfl
        · unfold tailsMade
          rw [h]
          split <;> rfl
      rw [this]
      rfl
    generalize makeTails u q v (tailsMade release v) = t at *
    obtain ⟨v', hv', hkept⟩ := queue_of_view kview uself
    have hout : v'.outstanding = v.outstanding := (congrArg Queue.outstanding hkept :)
    have hfet : v'.fetched = v.fetched := (congrArg Queue.fetched hkept :)
    have hclaims : t.waitClaims = u.waitClaims := (congrArg State.waitClaims kframe :)
    refine ⟨t, v', hrun, hv', fun h => by simp at h, fun _ => ⟨(congrArg Queue.trapped hkept :), (congrArg Queue.trappedCount hkept :),
      (congrArg Queue.withheld hkept :), (congrArg Queue.state hkept :), fun c hc => uclaims c (hclaims ▸ hc)⟩, hout, hfet,
      fun k hk => (kother k hk).trans (uother k hk), fun h => ?_, ?_, ((SameObjs.refl s _).of_dic (congrArg State.dic uframe :)).trans kobjs⟩
    · rw [hnil h]
      exact uframe
    · rw [hclaims]
      refine kframe.trans ?_
      rw [uframe]
      rfl

/-! ### Abort (R187) -/

theorem abort_exec (hq : q < 1025) (hf : bridgeFailed s = false) : exec (.qsyCmdAbort q) s = .next (abortQueue s q) :=
  (need_lt hq _).trans (congrArg Host.Outcome.next ((hostPage_works hf _ _).trans ((pageWrite_command s q 3).trans
    ((if_neg (by decide)).trans ((if_neg (by decide)).trans (if_pos rfl))))))

theorem layers_abortRecords (q : Nat) (l : List (Nat × Nat × Nat)) (s : State) : (abortRecords s q l).layers = s.layers :=
  abortRecords_keeps State.layers (fun _ _ => rfl) s q l

theorem layers_abortLayers (q : Nat) (l : List Layer) (s : State) : (abortLayers s q l).layers = s.layers :=
  abortLayers_keeps State.layers (fun _ _ => rfl) s q l

theorem OthersKept.writeSpare {s t : State} {q : Nat} (h : OthersKept s t q) (ws : List Word64) : OthersKept s (writeSpare t q ws) q := by
  unfold Machine.writeSpare
  split
  · split
    · exact h.putRecord _ ws
    · exact (h.updQ _).of_queues (askSlot_queues _ _)
  · exact h

theorem OthersKept.abortRecords {s : State} {q : Nat} (l : List (Nat × Nat × Nat)) {t : State} (h : OthersKept s t q) :
    OthersKept s (abortRecords t q l) q := by
  induction l generalizing t with
  | nil => exact h
  | cons e l ih => exact ih (h.writeSpare _)

theorem OthersKept.abortLayers {s : State} {q : Nat} (l : List Layer) {t : State} (h : OthersKept s t q) :
    OthersKept s (abortLayers t q l) q := by
  induction l generalizing t with
  | nil => exact h
  | cons e l ih => exact ih (h.writeSpare _)

/-- An aborted queue before its records are written. -/
def cutQueue (s : State) (v : Queue) (q : Nat) : Queue :=
  { v with
    state := 3, withheld := [], trapped := false, trappedCount := 0, trapValid := false, firstTrap := 0
    fetched := [], seams := v.seams.filter (fun y => y.opened)
    head := v.prod, nextSeq := v.nextSeq + diff32 v.prod v.head
    outstanding := v.outstanding - (s.layers.filter (fun l => l.queue == q)).length
      - (v.seams.filter (fun x => !x.opened)).length - (haltedStreams s q).length }

theorem queueCut_facts (hv : smGet s.queues q = some v) : smGet (queueCut s q v).queues q = some (cutQueue s v q)
    ∧ OthersKept s (queueCut s q v) q ∧ (queueCut s q v).layers = s.layers.filter (fun l => l.queue != q) := by
  refine ⟨?_, fun k hk => smGet_updQ_ne _ q k _ hk, rfl⟩
  refine (smGet_updQ_self _ q _).trans ?_
  show (smGet s.queues q).map _ = _
  rw [hv]
  rfl

theorem abort_holds (hq : q < 1025) (hf : bridgeFailed s = false) (hv : smGet s.queues q = some v) (hst : v.state = 1 ∨ v.state = 2) :
    ∃ t v', exec (.qsyCmdAbort q) s = .next t ∧ smGet t.queues q = some v'
      ∧ v'.outstanding = v.outstanding - (s.layers.filter (fun l => l.queue == q)).length
          - (v.seams.filter (fun x => !x.opened)).length - (haltedStreams s q).length
      ∧ v'.state = (if v'.outstanding = 0 then 4 else 3)
      ∧ v'.fetched = [] ∧ v'.withheld = [] ∧ v'.trapped = false ∧ v'.head = v.prod
      ∧ v'.nextSeq = v.nextSeq + diff32 v.prod v.head ∧ (∀ l ∈ t.layers, l.queue ≠ q)
      ∧ (∀ k, k ≠ q → smGet t.queues k = smGet s.queues k) ∧ t.sync = s.sync ∧ t.arrays = s.arrays ∧ t.vecs = s.vecs := by
  obtain ⟨rs, hab⟩ := abortQueue_running s q v hv hst
  have hframe : abortQueue s q = foot17_0 s (abortQueue s q) := abortQueue_keeps (foot17_0 · (abortQueue s q)) (fun _ _ => rfl) s q
  obtain ⟨hself, hother, hlayers⟩ := queueCut_facts hv
  generalize queueCut s q v = c at *
  have hview : queueView unrecorded q (abortLayers (abortRecords c q rs) q (s.layers.filter (fun l => l.queue == q)))
      = queueView unrecorded q c := (queueView_abortLayers q q _ _).trans (queueView_abortRecords q q _ _)
  have hkept : OthersKept s (abortLayers (abortRecords c q rs) q (s.layers.filter (fun l => l.queue == q))) q :=
    (hother.abortRecords rs).abortLayers _
  have hlay : (abortLayers (abortRecords c q rs) q (s.layers.filter (fun l => l.queue == q))).layers = c.layers :=
    (layers_abortLayers q _ _).trans (layers_abortRecords q _ _)
  generalize abortLayers (abortRecords c q rs) q (s.layers.filter (fun l => l.queue == q)) = d at *
  obtain ⟨x, hx, hxc⟩ := queue_of_view hview hself
  have hxo : x.outstanding = (cutQueue s v q).outstanding := (congrArg Queue.outstanding hxc :)
  have hxs : x.state = 3 := (congrArg Queue.state hxc :)
  have hdone : smGet (abortQueue s q).queues q = some (if x.outstanding = 0 then { x with state := 4 } else x) := by
    rw [hab, cutDone, smGet_updQ_self, hx]
    rfl
  refine ⟨abortQueue s q, _, abort_exec hq hf, hdone, ?_, ?_, ?_, ?_, ?_, ?_, ?_, fun l hl => ?_, fun k hk => ?_,
    (congrArg State.sync hframe :), (congrArg State.arrays hframe :), (congrArg State.vecs hframe :)⟩
  · rw [show (if x.outstanding = 0 then { x with state := 4 } else x).outstanding = x.outstanding by split <;> rfl, hxo]
    rfl
  · by_cases h0 : x.outstanding = 0
    · rw [if_pos h0]
      exact (if_pos h0).symm
    · rw [if_neg h0]
      exact hxs.trans (if_neg h0).symm
  · exact (show (if x.outstanding = 0 then { x with state := 4 } else x).fetched = x.fetched by split <;> rfl).trans
      (congrArg Queue.fetched hxc :)
  · exact (show (if x.outstanding = 0 then { x with state := 4 } else x).withheld = x.withheld by split <;> rfl).trans
      (congrArg Queue.withheld hxc :)
  · exact (show (if x.outstanding = 0 then { x with state := 4 } else x).trapped = x.trapped by split <;> rfl).trans
      (congrArg Queue.trapped hxc :)
  · exact (show (if x.outstanding = 0 then { x with state := 4 } else x).head = x.head by split <;> rfl).trans
      (congrArg Queue.head hxc :)
  · exact (show (if x.outstanding = 0 then { x with state := 4 } else x).nextSeq = x.nextSeq by split <;> rfl).trans
      (congrArg Queue.nextSeq hxc :)
  · have hmem : l ∈ s.layers.filter (fun l => l.queue != q) := by
      rw [hab] at hl
      exact hlayers ▸ hlay ▸ hl
    simpa using (List.mem_filter.1 hmem).2
  · rw [hab]
    exact (smGet_updQ_ne d q k _ hk).trans (hkept k hk)

theorem abort_stopped (hq : q < 1025) (hv : smGet s.queues q = some v) (h1 : v.state ≠ 1) (h2 : v.state ≠ 2) :
    exec (.qsyCmdAbort q) s = .next s := by
  cases hf : bridgeFailed s with
  | true => exact (need_lt hq _).trans (congrArg Host.Outcome.next (hostPage_failed hf _ _))
  | false =>
    refine (abort_exec hq hf).trans (congrArg Host.Outcome.next (abortQueue_idle s q fun w hw => ?_))
    cases hv.symm.trans hw
    exact ⟨h1, h2⟩

/-! ### QSY_IRQ and records left unread (Table QSY-4) -/

theorem irqWrite_holds {w : Nat} (hq : q < 1025) (hf : bridgeFailed s = false) (hv : smGet s.queues q = some v) :
    ∃ t, exec (.qsyIrqWrite q w) s = .next t ∧ t.dic = s.dic
      ∧ QueueTells s t q { v with trapEn := natBit 0 w, cplEn := natBit 1 w, errEn := natBit 2 w
                                  trapPend := v.trapPend && !natBit 8 w, cplPend := v.cplPend && !natBit 9 w
                                  errPend := v.errPend && !natBit 10 w, trapSent := v.trapSent && (v.trapPend && !natBit 8 w)
                                  cplSent := v.cplSent && (v.cplPend && !natBit 9 w)
                                  errSent := v.errSent && (v.errPend && !natBit 10 w) } := by
  obtain ⟨htells, hd⟩ := queueTells_updQ (fun x =>
    { x with trapEn := natBit 0 w, cplEn := natBit 1 w, errEn := natBit 2 w
             trapPend := v.trapPend && !natBit 8 w, cplPend := v.cplPend && !natBit 9 w, errPend := v.errPend && !natBit 10 w
             trapSent := x.trapSent && (v.trapPend && !natBit 8 w), cplSent := x.cplSent && (v.cplPend && !natBit 9 w)
             errSent := x.errSent && (v.errPend && !natBit 10 w) }) hv
  refine ⟨_, (need_lt hq _).trans (congrArg Host.Outcome.next ((hostPage_works hf _ _).trans ((pageWrite_irq s q w).trans ?_))), hd, htells⟩
  unfold irqWrite
  rw [hv]

theorem cplTimeout_holds (hq : q < 1025) (hv : smGet s.queues q = some v) :
    ∃ t, exec (.cplPendingTimeout q) s = .next t
      ∧ ((∃ t0 ∈ v.pendTimes, t0 + us 20 ≤ s.now) → t.dic = s.dic ∧ QueueTells s t q { v with cplPend := true })
      ∧ ((∀ t0 ∈ v.pendTimes, s.now < t0 + us 20) → t = s) := by
  have hrun : exec (.cplPendingTimeout q) s
      = .next (if v.pendTimes.any (fun t => decide (t + us 20 ≤ s.now)) then raiseCpl s q else s) := by
    refine (need_lt hq _).trans (congrArg Host.Outcome.next ?_)
    unfold cplTimeout
    rw [hv]
  by_cases hany : v.pendTimes.any (fun t => decide (t + us 20 ≤ s.now)) = true
  · obtain ⟨htells, hd⟩ := queueTells_updQ (fun x => { x with cplPend := true }) hv
    refine ⟨_, hrun.trans (congrArg Host.Outcome.next (if_pos hany)), fun _ => ⟨hd, htells⟩, fun hall => ?_⟩
    obtain ⟨t0, ht0, hle⟩ := List.any_eq_true.1 hany
    exact absurd (hall t0 ht0) (Nat.not_lt.2 (of_decide_eq_true hle))
  · refine ⟨s, hrun.trans (congrArg Host.Outcome.next (if_neg hany)), fun hex => ?_, fun _ => rfl⟩
    obtain ⟨t0, ht0, hle⟩ := hex
    exact absurd (List.any_eq_true.2 ⟨t0, ht0, decide_eq_true hle⟩) hany

theorem page_failed {w : Nat} (hq : q < 1025) (hf : bridgeFailed s = true) :
    exec (.qsyDoorbell q w) s = .next s ∧ exec (.qsyCmdRelease q) s = .next s ∧ exec (.qsyCmdDiscard q) s = .next s
      ∧ exec (.qsyCmdAbort q) s = .next s ∧ exec (.qsyIrqWrite q w) s = .next s :=
  have hpage (reg x : Nat) : need (decide (q < 1025)) (hostPage s q reg x) = .next s :=
    (need_lt hq _).trans (congrArg Host.Outcome.next (hostPage_failed hf reg x))
  ⟨hpage _ _, hpage _ _, hpage _ _, hpage _ _, hpage _ _⟩

end

/-- Settles O17: a launch and a destroy end by the branches of their rules, and each page write changes its own queue. -/
theorem queuesLaunchedAndControlled : Obligations.QueuesLaunchedAndControlled := by
  unfold Obligations.QueuesLaunchedAndControlled
  refine ⟨fun coll block parts s bs q n b v ps hbusy hcmd hr ha hs hread hb hq hv hn hok hps h0 h1 hpok =>
      launch_accepted hbusy hcmd hr ha hs hread hb hq hv hn hok hps h0 h1 hpok, ?_,
    fun s v hbusy hcmd hr ha hv => queueDestroy_holds hbusy hcmd hr ha hv,
    fun c k st block parts s h => outOfTurn_holds (launch_outOfTurn h),
    fun q p s v hq hf hv => doorbell_holds hq hf hv, fun q release s v hq hf hv => resume_holds release hq hf hv,
    fun q s v hq hf hv hst => abort_holds hq hf hv hst, fun q s v hq hv h1 h2 => abort_stopped hq hv h1 h2,
    fun q w s v hq hf hv => irqWrite_holds hq hf hv, fun q s v hq hv => cplTimeout_holds hq hv, fun q w s hq hf => page_failed hq hf⟩
  intro coll block parts s bs q b v hbusy hcmd hr ha hs hread hb hq hv h
  rcases h with h | ⟨hn, hps, h1, h2⟩
  · exact launch_refused hbusy hcmd hr ha hs hread hb hq hv h
  · exact launch_badParts hbusy hcmd hr ha hs hread hb hq hv hn hps h1 h2

end Sys2Proof.Machine

/-!
Descriptors fetched from a queue's ring (R184, R191, R452).
-/

namespace Sys2Proof.Machine

section
variable {s : State} {q : Nat} {v : Queue}

/-! ### The end of a descriptor that was never issued -/

theorem slotOnly_writeSpare (s : State) (q : Nat) (words : List Word64) (hw : words.length ≤ 8) : SlotOnly s (writeSpare s q words) q := by
  unfold writeSpare
  split
  next v hv =>
    split
    · exact slotOnly_putRecord s q v words hv hw
    · exact slotOnly_of_memories _ (memories_parkRecord s q v _)
  next => exact slotOnly_of_memories _ rfl

theorem sameObjs_writeSpare (s : State) (q : Nat) (words : List Word64) : SameObjs s (writeSpare s q words) recordObjs := by
  unfold writeSpare
  split
  · split
    · exact sameObjs_putRecord s q _ words
    · exact sameObjs_parkRecord s q _ _ _
  · exact SameObjs.refl s _

/-- What a descriptor that cannot be read is recorded as. -/
def unreadRecord (q seq : Nat) : List Word64 :=
  recordOf { queue := q, seq := seq, words := [], inLayer := false, status := 8, op := 0, engine := 127
             summary := 0, body := List.replicate 6 0, traps := true } true

theorem unreadable_ring (s : State) (q seq : Nat) : unreadable s q seq false = trapQueue (writeSpare s q (unreadRecord q seq)) q seq := by
  unfold unreadable layerHook
  exact if_neg Bool.false_ne_true

theorem endFrame_unreadable (s : State) (q seq : Nat) : EndFrame s (unreadable s q seq false) q := by
  rw [unreadable_ring]
  refine ⟨?_, ((OthersKept.refl s q).writeSpare _).trapQueue seq, fun v hv _ ha => ?_⟩
  · have h (x : State) : foot19 (trapQueue (writeSpare s q (unreadRecord q seq)) q seq) x = foot19 s x :=
      (trapQueue_keeps (foot19 · x) (fun _ _ => rfl) _ q seq).trans (writeSpare_keeps (foot19 · x) (fun _ _ => rfl) s q _)
    exact (foot19_self _).symm.trans (h _)
  · exact ((slotOnly_writeSpare s q _ (recordOf_words _ _ le_rfl)).of_memories
      (trapQueue_keeps memories (fun _ _ => rfl) _ q seq)) v hv ha

theorem sameObjs_unreadable (s : State) (q seq : Nat) : SameObjs s (unreadable s q seq false) tailObjs := by
  rw [unreadable_ring]
  exact ((sameObjs_writeSpare s q _).mono (by decide)).trans (sameObjs_trapQueue _ q seq _)

/-- The queue of a descriptor that cannot be read. -/
theorem unreadable_queue {w : Queue} (s : State) (seq : Nat) (hw : smGet s.queues q = some w) :
    ∃ x, smGet (unreadable s q seq false).queues q = some x ∧ x.trapped = true ∧ x.state = (if w.state = 1 then 2 else w.state)
      ∧ x.head = w.head ∧ x.outstanding = w.outstanding ∧ x.fetched = w.fetched := by
  obtain ⟨y, hy, hk⟩ := queue_of_view (queueView_writeSpare s q q (unreadRecord q seq)) hw
  have hst : y.state = w.state := (congrArg Queue.state hk :)
  rw [unreadable_ring]
  unfold trapQueue raiseTrap
  have htrapped := (smGet_updQ_self (writeSpare s q (unreadRecord q seq)) q (fun x =>
    { x with
      trapped := true
      trappedCount := min 255 (x.trappedCount + 1)
      firstTrap := if x.trapValid then min x.firstTrap seq else seq
      trapValid := true
      state := if x.state = 1 then 2 else x.state })).trans (congrArg (Option.map _) hy)
  refine ⟨_, (queueTells_updQ _ htrapped).1.1, rfl, ?_, (congrArg Queue.head hk :), (congrArg Queue.outstanding hk :),
    (congrArg Queue.fetched hk :)⟩
  rw [← hst]
  rfl

/-! ### DESCRIPTOR_FETCH (R184, R191, R452) -/

/-- A queue one of whose descriptors has been fetched. -/
def pastSlot (v : Queue) : Queue := { v with head := (v.head + 1) % 2 ^ 32, nextSeq := v.nextSeq + 1 }

/-- What a fetch makes of the bytes it reads, or of their absence. -/
def fetchTakes (q seq : Nat) (x : State × Option Bytes) : State :=
  match x.2 with
  | none => unreadable (updQ x.1 q pastSlot) q seq false
  | some bs => addFetched (updQ x.1 q pastSlot) q seq (wordsOf bs 16) false

theorem fetchOne_some (hv : smGet s.queues q = some v) (hok : fetchOk s v = true) (f : Fetch) : fetchOne s q f =
    readPastDim s (v.ringAddr + 128 * (v.head % 2 ^ v.ringLog2)) 128 (2 ^ 20, q, v.nextSeq)
      (fun s => fetchTakes q v.nextSeq (readClean s (v.ringAddr + 128 * (v.head % 2 ^ v.ringLog2)) 128 f)) := by
  unfold fetchOne
  rw [hv]
  exact if_neg (by simp [hok])

theorem fetchOne_idle (h : ∀ v, smGet s.queues q = some v → fetchOk s v = false) (f : Fetch) : fetchOne s q f = s := by
  unfold fetchOne
  cases hv : smGet s.queues q with
  | none => rfl
  | some v => exact if_pos (by simp [h v hv])

/-- A read that waits for nothing, or that the host has failed to answer for, is made at once. -/
theorem readPastDim_made {addr n : Nat}
    (h : ∀ off, spaceOf addr = .localOff off → snoopFailed s (lpddrLines off n) = true ∨ EngineReads s off n)
    (key : Nat × Nat × Nat) (go : State → State) : readPastDim s addr n key go = go s := by
  unfold readPastDim
  split
  next off ho =>
    unfold pastLocal
    cases hf : snoopFailed s (lpddrLines off n) with
    | true => rfl
    | false =>
      obtain ⟨h1, h2, h3⟩ := (h off ho).resolve_left (by simp [hf])
      unfold pastSnoop pastDim
      simp only [h1, h2, h3, Bool.false_eq_true, if_false]
  next => rfl

theorem addFetched_some {w : Queue} (hw : smGet s.queues q = some w) (seq : Nat) (ws : List Word64) (inLayer : Bool) :
    ∃ g, addFetched s q seq ws inLayer = updQ s q (fun x => { x with fetched := x.fetched ++ [g] })
      ∧ g.seq = seq ∧ g.words = ws ∧ g.inLayer = inLayer := by
  unfold addFetched
  rw [hw]
  exact ⟨_, rfl, rfl, rfl, rfl⟩

theorem sameObjs_readClean (s : State) (addr n : Nat) (f : Fetch) : SameObjs s (readClean s addr n f).1 [0x802001, 0x802002] := by
  unfold readClean
  split
  · split
    · exact SameObjs.refl s _
    · split
      · exact SameObjs.refl s _
      · exact sameObjs_countAddrError s _
  · split
    · exact SameObjs.refl s _
    · split <;> exact SameObjs.refl s _
  · exact SameObjs.refl s _

theorem fetch_holds (q : Nat) (f : Fetch) (s : State) (v : Queue) (bs : Bytes) (hq : q < 1025) (hv : smGet s.queues q = some v)
    (hok : fetchOk s v = true) (hr : SchedReads s (v.ringAddr + 128 * (v.head % 2 ^ v.ringLog2)) 128)
    (hc : readClean s (v.ringAddr + 128 * (v.head % 2 ^ v.ringLog2)) 128 f = (s, some bs)) :
    ∃ t v' g, exec (.descriptorFetch q f) s = .next t ∧ t = { s with queues := t.queues } ∧ smGet t.queues q = some v'
      ∧ v'.head = (v.head + 1) % 2 ^ 32 ∧ v'.nextSeq = v.nextSeq + 1 ∧ v'.fetched = v.fetched ++ [g] ∧ g.seq = v.nextSeq
      ∧ g.words = wordsOf bs 16 ∧ g.inLayer = false ∧ v'.outstanding = v.outstanding
      ∧ (∀ k, k ≠ q → smGet t.queues k = smGet s.queues k) := by
  have hrun : fetchOne s q f = addFetched (updQ s q pastSlot) q v.nextSeq (wordsOf bs 16) false := by
    rw [fetchOne_some hv hok, readPastDim_clear hr, hc]
    rfl
  have hw : smGet (updQ s q pastSlot).queues q = some (pastSlot v) := by
    rw [smGet_updQ_self, hv]
    rfl
  obtain ⟨g, hg, hseq, hwords, hlay⟩ := addFetched_some hw v.nextSeq (wordsOf bs 16) false
  have hself : smGet (updQ (updQ s q pastSlot) q (fun x => { x with fetched := x.fetched ++ [g] })).queues q
      = some { pastSlot v with fetched := v.fetched ++ [g] } := by
    rw [smGet_updQ_self, hw]
    rfl
  exact ⟨_, _, g, (need_lt hq _).trans (congrArg Host.Outcome.next (hrun.trans hg)), rfl, hself, rfl, rfl, rfl, hseq, hwords,
    hlay, rfl, ((OthersKept.refl s q).updQ _).updQ _⟩

theorem fetchFails_holds (q : Nat) (f : Fetch) (s s1 : State) (v : Queue) (hq : q < 1025) (hv : smGet s.queues q = some v)
    (hok : fetchOk s v = true)
    (hr : ∀ off, spaceOf (v.ringAddr + 128 * (v.head % 2 ^ v.ringLog2)) = .localOff off →
      snoopFailed s (lpddrLines off 128) = true ∨ EngineReads s off 128)
    (hc : readClean s (v.ringAddr + 128 * (v.head % 2 ^ v.ringLog2)) 128 f = (s1, none)) :
    ∃ t v', exec (.descriptorFetch q f) s = .next t ∧ EndFrame s t q ∧ smGet t.queues q = some v' ∧ v'.head = (v.head + 1) % 2 ^ 32
      ∧ v'.trapped = true ∧ v'.state = 2 ∧ v'.outstanding = v.outstanding ∧ v'.fetched = v.fetched
      ∧ SameObjs s t tailObjs := by
  have hrun : fetchOne s q f = unreadable (updQ s1 q pastSlot) q v.nextSeq false := by
    rw [fetchOne_some hv hok, readPastDim_made hr, hc]
    rfl
  have hs1 : s1 = (readClean s (v.ringAddr + 128 * (v.head % 2 ^ v.ringLog2)) 128 f).1 := (congrArg Prod.fst hc).symm
  have hframe (x : State) : foot19 s1 x = foot19 s x := by
    rw [hs1]
    exact readClean_keeps (foot19 · x) (fun _ _ => rfl) s _ _ f
  have hmem : memories s1 = memories s := by
    rw [hs1]
    exact readClean_keeps memories (fun _ _ => rfl) s _ _ f
  have hqueues : s1.queues = s.queues := by
    rw [hs1]
    exact readClean_keeps State.queues (fun _ _ => rfl) s _ _ f
  have hobjs : SameObjs s s1 tailObjs := by
    rw [hs1]
    exact (sameObjs_readClean s _ _ f).mono (by decide)
  have hw : smGet (updQ s1 q pastSlot).queues q = some (pastSlot v) := by
    rw [smGet_updQ_self, hqueues, hv]
    rfl
  obtain ⟨x, hx, htrap, hst, hhead, hout, hfetched⟩ := unreadable_queue (updQ s1 q pastSlot) v.nextSeq hw
  refine ⟨_, x, (need_lt hq _).trans (congrArg Host.Outcome.next hrun), ?_, hx, hhead, htrap, ?_, hout, hfetched, ?_⟩
  · refine EndFrame.of_before (endFrame_unreadable (updQ s1 q pastSlot) q v.nextSeq) hframe
      (((OthersKept.refl s q).of_queues hqueues).updQ _) hmem (fun w hw' => ?_)
    cases hv.symm.trans hw'
    exact ⟨_, hw, rfl, rfl, rfl⟩
  · rw [hst]
    simp only [fetchOk, Bool.and_eq_true, Bool.or_eq_true, beq_iff_eq] at hok
    obtain h1 | h2 := hok.1.1.2
    · exact if_pos h1
    · exact (if_neg (by rw [show (pastSlot v).state = v.state from rfl, h2]; decide)).trans h2
  · exact (hobjs.of_dic rfl : SameObjs s (updQ s1 q pastSlot) tailObjs).trans (sameObjs_unreadable _ q _)

end

end Sys2Proof.Machine

/-!
Descriptors issued to their engines, or rejected (R192, R193); O18 settled.
-/

namespace Sys2Proof.Machine

section
variable {s : State} {h : Half} {q : Nat} {v : Queue} {f : Fetched}

/-! ### The first descriptor that may be issued -/

/-- A descriptor's issue noted in its queue: one outstanding more, and an array descriptor among those an open seam looks for. -/
def issueNoted (f : Fetched) (x : Queue) : Queue :=
  { x with
    outstanding := x.outstanding + 1
    seamArrays := if opcode f.words = 0x20 ∧ !f.inLayer then x.seamArrays ++ [(f.seq, tailTarget f.words)]
                  else x.seamArrays }

/-- A state in which a descriptor is issued by a half. -/
def issueMarked (s : State) (h : Half) (q : Nat) (f : Fetched) : State := updQ (markIssued s q f h) q (issueNoted f)

theorem issueTo_rejected {halves st : Nat} (hr : issueReject q halves f.words (outsideLayer s q f) = some st) :
    issueTo s h q halves f = rejectDesc (issueMarked s h q f) (issuedAs s q f) st (recordEngine f.words) := by
  unfold issueTo
  dsimp only
  rw [hr]
  rfl

theorem issueTo_handed {halves : Nat} (hr : issueReject q halves f.words (outsideLayer s q f) = none)
    (ha : isCompute (opcode f.words) = true → arrayRetired s (tailTarget f.words) = false) :
    issueTo s h q halves f = handTo (issueMarked s h q f) h (issuedAs s q f) := by
  have hno : ¬ (isCompute (opcode f.words) && arrayRetired s (tailTarget f.words)) = true := fun hb => by
    obtain ⟨h1, h2⟩ := Bool.and_eq_true_iff.1 hb
    rw [ha h1] at h2
    cases h2
  unfold issueTo
  dsimp only
  rw [hr]
  exact if_neg hno

section
variable {r : List Fetched} (hv : smGet s.queues q = some v) (hearly : f.early = false) (hwait : waitDone s q f = true)
  (hslot : slotFree v = true) (hown : schedulerOwn s q v.halves f = false)
include hv hearly hwait hslot hown

theorem issueFrom_first (hgo : (issueReject q v.halves f.words (outsideLayer s q f)).isSome = true ∨ engineRoom s h f.words = true) :
    issueFrom s h q v.halves (f :: r) = (issueTo s h q v.halves f, true) := by
  have hgo' : (!((issueReject q v.halves f.words (outsideLayer s q f)).isSome
      || (isCompute (opcode f.words) && arrayRetired s (tailTarget f.words))) && !engineRoom s h f.words) = false := by
    obtain h1 | h1 := hgo <;> simp [h1]
  unfold issueFrom
  simp only [hearly, noteWait_done hwait, hv, hwait, hown, hslot, hgo', Bool.false_eq_true, if_false, Bool.or_true, Bool.not_true,
    Bool.or_self]

theorem issue_first {rest : List Nat} (hmay : mayIssue s h = true) (ho : serveOrder s h = q :: rest)
    (hc : candidates s q v h = f :: r)
    (hgo : (issueReject q v.halves f.words (outsideLayer s q f)).isSome = true ∨ engineRoom s h f.words = true) :
    exec (.descriptorIssue h) s = .next { issueTo s h q v.halves f with
      schedRR := (issueTo s h q v.halves f).schedRR.set (8 * halfIx h + v.prio) ((q + 1) % 1025) } := by
  refine congrArg Host.Outcome.next ((if_pos hmay).trans ?_)
  rw [ho, issueAny, hv]
  dsimp only
  rw [hc, issueFrom_first hv hearly hwait hslot hown hgo]
  rfl

end

/-! ### What an issue leaves of the queue -/

/-- A fetched descriptor's marks once a half has issued f. -/
def markedBy (f : Fetched) (h : Half) (g : Fetched) : Fetched :=
  if g.seq = f.seq then { g with todoW := f.todoW && h != .w, todoE := f.todoE && h != .e } else g

/-- A queue one of whose descriptors a half has issued. -/
def issuedFrom (f : Fetched) (h : Half) (v : Queue) : Queue :=
  issueNoted f { v with fetched := (v.fetched.map (markedBy f h)).filter (fun (g : Fetched) => g.todoW || g.todoE) }

theorem issueMarked_queue (hv : smGet s.queues q = some v) : smGet (issueMarked s h q f).queues q = some (issuedFrom f h v) := by
  unfold issueMarked markIssued setTodo
  rw [smGet_updQ_self, smGet_updQ_self, hv]
  rfl

theorem othersKept_issueMarked (s : State) (h : Half) (q : Nat) (f : Fetched) : OthersKept s (issueMarked s h q f) q :=
  ((OthersKept.refl s q).updQ _).updQ _

theorem issuedFrom_todo (f : Fetched) (h : Half) (v : Queue) : ∀ g ∈ (issuedFrom f h v).fetched, g.seq = f.seq → todoIn g h = false := by
  intro g hg hs
  obtain ⟨x, -, rfl⟩ := List.mem_map.1 (List.mem_filter.1 hg).1
  unfold markedBy at hs ⊢
  by_cases hx : x.seq = f.seq
  · rw [if_pos hx]
    cases h <;> simp [todoIn]
  · rw [if_neg hx] at hs
    exact absurd hs hx

/-! ### A descriptor rejected -/

theorem issue_rejected (h : Half) (q st : Nat) (rest : List Nat) (r : List Fetched) (s : State) (v : Queue) (f : Fetched)
    (hmay : mayIssue s h = true) (ho : serveOrder s h = q :: rest) (hv : smGet s.queues q = some v)
    (hc : candidates s q v h = f :: r) (hearly : f.early = false) (hwait : waitDone s q f = true) (hslot : slotFree v = true)
    (hin : f.inLayer = false) (hr : issueReject q v.halves f.words (outsideLayer s q f) = some st) :
    ∃ t, exec (.descriptorIssue h) s = .next t ∧ EndFrame { s with schedRR := t.schedRR } t q ∧ SameObjs s t tailObjs
      ∧ (slotReady s v 0 = true → ∃ v', smGet t.queues q = some v' ∧ v'.outstanding = v.outstanding
          ∧ v'.cplTail = (v.cplTail + 1) % 2 ^ 32 ∧ (∀ g ∈ v'.fetched, g.seq = f.seq → todoIn g h = false)) := by
  have hown : schedulerOwn s q v.halves f = false := by
    unfold schedulerOwn
    rw [hr]
    exact Bool.and_false _
  have hexec := issue_first hv hearly hwait hslot hown hmay ho hc (.inl (congrArg Option.isSome hr))
  rw [issueTo_rejected hr, rejectDesc_eq _ (issuedAs s q f) _ _ hin] at hexec
  have hring : RingKept s (issueMarked s h q f) q v (issuedFrom f h v) :=
    ⟨rfl, othersKept_issueMarked s h q f, hv, issueMarked_queue hv, rfl⟩
  have hsame : SameObjs s (issueMarked s h q f) tailObjs := (SameObjs.refl s _).of_dic rfl
  have hend := hring.endFrame (rejected (issuedAs s q f) st (recordEngine f.words)) rfl le_rfl
  have hobj := hsame.trans (sameObjs_finishDesc (issueMarked s h q f) (rejected (issuedAs s q f) st (recordEngine f.words)))
  have hqueue := fun hs => finishDesc_queue_ready (issueMarked s h q f) (rejected (issuedAs s q f) st (recordEngine f.words)) _
    (issueMarked_queue hv) (hring.slotReady.trans hs)
  generalize finishDesc (issueMarked s h q f) (rejected (issuedAs s q f) st (recordEngine f.words)) = t at *
  refine ⟨_, hexec, ?_, hobj.of_dic rfl, fun hs => ?_⟩
  · obtain ⟨h1, h2, h3⟩ := hend
    refine ⟨?_, h2, h3⟩
    generalize t.schedRR.set (8 * halfIx h + v.prio) ((q + 1) % 1025) = rr
    exact congrArg (fun x : State => { x with schedRR := rr }) h1
  · obtain ⟨y, hy, hu, hout⟩ := hqueue hs
    have hfetched : y.fetched = (issuedFrom f h v).fetched := (unended_of Queue.fetched (fun _ => rfl) hu).trans rfl
    refine ⟨y, hy, hout, (unended_of Queue.cplTail (fun _ => rfl) hu).trans rfl, ?_⟩
    rw [hfetched]
    exact issuedFrom_todo f h v

/-! ### A descriptor handed to its engine -/

theorem handTo_array {s : State} {d : Issued} (hop : opcode d.words = 0x20) : handTo s h d =
    { s with arrays := modifyAt s.arrays (tailTarget d.words) (fun (a : ArrayUnit) => { a with fifo := a.fifo ++ [d] }) } := if_pos hop

theorem handTo_vector {s : State} {d : Issued} (hop : opcode d.words ≠ 0x20) (hc : isCompute (opcode d.words) = true) : handTo s h d =
    { s with vecs := modifyAt s.vecs (tailTarget d.words) (fun (u : VecUnit) => { u with fifo := u.fifo ++ [d] }) } :=
  (if_neg hop).trans (if_pos hc)

theorem handTo_mover {s : State} {d : Issued} {e : Nat} (hop : opcode d.words = 0x40) (hm : strEngine d.words = 126)
    (he : pickMover s h = some e) : handTo s h d =
    updEngine { s with moverRR := s.moverRR.set (halfIx h) ((e - 64 - 4 * halfIx h + 1) % 4) } e
      (fun g => { g with ctx := g.ctx ++ [{ d := d }] }) := by
  unfold handTo
  rw [if_neg (by rw [hop]; decide), if_neg (by rw [hop]; decide), if_pos hm]
  dsimp only
  rw [he]
  exact congrArg (fun x => updEngine x e (fun g => { g with ctx := g.ctx ++ [{ d := d }] })) (if_pos hm)

theorem handTo_engine {s : State} {d : Issued} (hop : opcode d.words = 0x40) (hm : strEngine d.words < 72) : handTo s h d =
    updEngine s (strEngine d.words) (fun g => { g with ctx := g.ctx ++ [{ d := d }] }) := by
  have hne : strEngine d.words ≠ 126 := by omega
  unfold handTo
  rw [if_neg (by rw [hop]; decide), if_neg (by rw [hop]; decide), if_neg hne]
  exact congrArg (fun x => updEngine x (strEngine d.words) (fun g => { g with ctx := g.ctx ++ [{ d := d }] })) (if_neg hne)

theorem pickMover_lt {e : Nat} (he : pickMover s h = some e) : e < 72 := by
  obtain ⟨i, -, rfl⟩ := List.mem_map.1 (List.mem_of_find?_eq_some he)
  cases h <;> simp only [halfIx] <;> omega

theorem arrayOf_fifo (d : Issued) {n : Nat} (hn : n < s.arrays.length) :
    (arrayOf { s with arrays := modifyAt s.arrays n (fun (a : ArrayUnit) => { a with fifo := a.fifo ++ [d] }) } n).fifo
      = (arrayOf s n).fifo ++ [d] := by
  have h1 : arrayOf { s with arrays := modifyAt s.arrays n (fun (a : ArrayUnit) => { a with fifo := a.fifo ++ [d] }) } n
      = { arrayOf s n with fifo := (arrayOf s n).fifo ++ [d] } := (getD_modifyAt _ _ _ _ _).trans (if_pos ⟨rfl, hn⟩)
  rw [h1]

theorem vecOf_fifo (d : Issued) {n : Nat} (hn : n < s.vecs.length) :
    (vecOf { s with vecs := modifyAt s.vecs n (fun (u : VecUnit) => { u with fifo := u.fifo ++ [d] }) } n).fifo
      = (vecOf s n).fifo ++ [d] := by
  have h1 : vecOf { s with vecs := modifyAt s.vecs n (fun (u : VecUnit) => { u with fifo := u.fifo ++ [d] }) } n
      = { vecOf s n with fifo := (vecOf s n).fifo ++ [d] } := (getD_modifyAt _ _ _ _ _).trans (if_pos ⟨rfl, hn⟩)
  rw [h1]

theorem engineCtx_added (c : StreamCtx) {e : Nat} (he : e < s.engines.length) :
    engineCtx (updEngine s e (fun g => { g with ctx := g.ctx ++ [c] })) e = engineCtx s e ++ [c] :=
  congrArg Engine.ctx ((getD_modifyAt _ _ _ _ _).trans (if_pos ⟨rfl, he⟩))

theorem targetOk_of_accepted {halves : Nat} {ws : List Word64} {out : Bool} (hr : issueReject q halves ws out = none) :
    targetOk ws = true := by
  cases ht : targetOk ws with
  | true => rfl
  | false =>
    exfalso
    unfold issueReject at hr
    simp only [ht, Bool.not_false, Bool.or_true, Bool.true_or, if_true] at hr
    split at hr
    · cases hr
    · split at hr
      · cases hr
      · split at hr <;> cases hr

/-- A compute descriptor that is accepted names an array or a vector unit. -/
theorem tailTarget_lt {halves : Nat} {ws : List Word64} {out : Bool} (hr : issueReject q halves ws out = none)
    (hc : isCompute (opcode ws) = true) : tailTarget ws < 64 :=
  of_decide_eq_true ((if_pos hc).symm.trans (targetOk_of_accepted hr))

/-- What an issue hands over: a descriptor at the end of its engine's queue, whatever engine it names. -/
def HandedOver (s t : State) (h : Half) (d : Issued) : Prop :=
  (opcode d.words = 0x20 → (arrayOf t (tailTarget d.words)).fifo = (arrayOf s (tailTarget d.words)).fifo ++ [d])
  ∧ (isCompute (opcode d.words) = true → opcode d.words ≠ 0x20 →
      (vecOf t (tailTarget d.words)).fifo = (vecOf s (tailTarget d.words)).fifo ++ [d])
  ∧ (opcode d.words = 0x40 → strEngine d.words = 126 → ∃ e, pickMover s h = some e
      ∧ engineCtx t e = engineCtx s e ++ [{ d := d }])
  ∧ (opcode d.words = 0x40 → strEngine d.words < 72 → engineCtx t (strEngine d.words) = engineCtx s (strEngine d.words) ++ [{ d := d }])

theorem handTo_facts {s : State} (d : Issued) (ha : s.arrays.length = 64) (hvec : s.vecs.length = 64) (he : s.engines.length = 72)
    (hroom : engineRoom s h d.words = true) (ht : isCompute (opcode d.words) = true → tailTarget d.words < 64)
    (hkind : isCompute (opcode d.words) = true ∨ opcode d.words = 0x40 ∧ (strEngine d.words < 72 ∨ strEngine d.words = 126)) :
    ∃ t, t = handTo s h d ∧ t = { s with arrays := t.arrays, vecs := t.vecs, engines := t.engines, moverRR := t.moverRR }
      ∧ HandedOver s t h d := by
  obtain hc | ⟨hop, hm | hm⟩ := hkind
  · have hlt := ht hc
    have hne : opcode d.words ≠ 0x40 := fun h0 => by
      rw [h0] at hc
      cases hc
    by_cases hop : opcode d.words = 0x20
    · exact ⟨_, (handTo_array hop).symm, rfl, fun _ => arrayOf_fifo d (ha ▸ hlt), fun _ h0 => absurd hop h0, fun h0 => absurd h0 hne,
        fun h0 => absurd h0 hne⟩
    · exact ⟨_, (handTo_vector hop hc).symm, rfl, fun h0 => absurd h0 hop, fun _ _ => vecOf_fifo d (hvec ▸ hlt), fun h0 => absurd h0 hne,
        fun h0 => absurd h0 hne⟩
  all_goals
    have hne : opcode d.words ≠ 0x20 := by rw [hop]; decide
    have hnc : isCompute (opcode d.words) ≠ true := by rw [hop]; decide
  · exact ⟨_, (handTo_engine hop hm).symm, rfl, fun h0 => absurd h0 hne, fun h0 => absurd h0 hnc, fun _ h0 => by omega,
      fun _ _ => engineCtx_added _ (he ▸ hm)⟩
  · have hpick : (pickMover s h).isSome = true :=
      ((if_neg hne).trans ((if_neg hnc).trans (if_pos hm))).symm.trans hroom
    obtain ⟨e, hpe⟩ := Option.isSome_iff_exists.1 hpick
    exact ⟨_, (handTo_mover hop hm hpe).symm, rfl, fun h0 => absurd h0 hne, fun h0 => absurd h0 hnc,
      fun _ _ => ⟨e, hpe, engineCtx_added _ (he ▸ pickMover_lt hpe)⟩, fun _ h0 => by omega⟩

theorem issue_handed (h : Half) (q : Nat) (rest : List Nat) (r : List Fetched) (s : State) (v : Queue) (f : Fetched) (hp : PartsOk s)
    (hmay : mayIssue s h = true) (ho : serveOrder s h = q :: rest) (hv : smGet s.queues q = some v)
    (hc : candidates s q v h = f :: r) (hearly : f.early = false) (hwait : waitDone s q f = true) (hslot : slotFree v = true)
    (hown : schedulerOwn s q v.halves f = false) (hr : issueReject q v.halves f.words (outsideLayer s q f) = none)
    (hroom : engineRoom s h f.words = true)
    (hret : isCompute (opcode f.words) = true → arrayRetired s (tailTarget f.words) = false)
    (hkind : isCompute (opcode f.words) = true ∨ opcode f.words = 0x40 ∧ (strEngine f.words < 72 ∨ strEngine f.words = 126)) :
    ∃ t v', exec (.descriptorIssue h) s = .next t
      ∧ t = { s with arrays := t.arrays, vecs := t.vecs, engines := t.engines, moverRR := t.moverRR, queues := t.queues,
                     schedRR := t.schedRR }
      ∧ smGet t.queues q = some v' ∧ v'.outstanding = v.outstanding + 1 ∧ (∀ g ∈ v'.fetched, g.seq = f.seq → todoIn g h = false)
      ∧ (opcode f.words = 0x20 → (arrayOf t (tailTarget f.words)).fifo = (arrayOf s (tailTarget f.words)).fifo
            ++ [issuedAs s q f])
      ∧ (isCompute (opcode f.words) = true → opcode f.words ≠ 0x20 →
          (vecOf t (tailTarget f.words)).fifo = (vecOf s (tailTarget f.words)).fifo
            ++ [issuedAs s q f])
      ∧ (opcode f.words = 0x40 → strEngine f.words = 126 → ∃ e, pickMover s h = some e ∧ engineCtx t e = engineCtx s e
            ++ [{ d := issuedAs s q f }])
      ∧ (opcode f.words = 0x40 → strEngine f.words < 72 → engineCtx t (strEngine f.words) = engineCtx s (strEngine f.words)
            ++ [{ d := issuedAs s q f }])
      ∧ (∀ k, k ≠ q → smGet t.queues k = smGet s.queues k) := by
  obtain ⟨ha, hvec, he, -⟩ := hp
  have hexec := issue_first hv hearly hwait hslot hown hmay ho hc (.inr hroom)
  obtain ⟨t, ht, hframe, h1, h2, h3, h4⟩ := handTo_facts (s := issueMarked s h q f) (issuedAs s q f) ha hvec he hroom
    (tailTarget_lt hr) hkind
  rw [issueTo_handed hr hret, ← ht] at hexec
  have hq : t.queues = (issueMarked s h q f).queues := (congrArg State.queues hframe :)
  refine ⟨_, _, hexec, ?_, (congrArg (smGet · q) hq).trans (issueMarked_queue hv), rfl, issuedFrom_todo f h v, h1, h2, h3, h4,
    fun k hk => (congrArg (smGet · k) hq).trans (othersKept_issueMarked s h q f k hk)⟩
  generalize t.schedRR.set (8 * halfIx h + v.prio) ((q + 1) % 1025) = rr
  have hs : issueMarked s h q f = { s with queues := (issueMarked s h q f).queues } := rfl
  rw [← hq] at hs
  generalize issueMarked s h q f = u at *
  rw [hs] at hframe
  exact congrArg (fun x : State => { x with schedRR := rr }) hframe

end

theorem issue_idle (h : Half) (s : State) (hm : mayIssue s h = false) : exec (.descriptorIssue h) s = .next s :=
  congrArg Host.Outcome.next (if_neg (by simp [hm]))

theorem fetch_idle (q : Nat) (f : Fetch) (s : State) (hq : q < 1025) (h : ∀ v, smGet s.queues q = some v → fetchOk s v = false) :
    exec (.descriptorFetch q f) s = .next s := (need_lt hq _).trans (congrArg Host.Outcome.next (fetchOne_idle h f))

/-- Settles O18: a fetch takes the ring's next slot, and an issue hands the first descriptor that may go to its engine. -/
theorem descriptorsFetchedAndIssued : Obligations.DescriptorsFetchedAndIssued := by
  unfold Obligations.DescriptorsFetchedAndIssued
  exact ⟨fetch_holds, fetchFails_holds, fetch_idle, issue_handed, issue_rejected, issue_idle⟩

end Sys2Proof.Machine

/-!
TILE_STORE_SCRUB: what a scrub visit finds at a line of the tile store (R164 to R167, R366, R367).
-/

namespace Sys2Proof.Machine

/-! ### Scrub of the tile store (R165 to R167, R366, R367) -/

section
variable (s : State) (slice gl i : Nat)

theorem sameObjs_scrubWord (e : Ecc) : SameObjs s (scrubWord s slice gl i e) (Obj.tstCorrected :: journalObjs) := by
  have hcount : SameObjs s (objInc { s with corrRuns := smSet s.corrRuns (2 * gl + i) (smGetD s.corrRuns (2 * gl + i) 0 + 1) }
      Obj.tstCorrected) (Obj.tstCorrected :: journalObjs) :=
    ((SameObjs.refl s _).of_dic rfl :
      SameObjs s { s with corrRuns := smSet s.corrRuns (2 * gl + i) (smGetD s.corrRuns (2 * gl + i) 0 + 1) } _).objInc _ List.mem_cons_self
  cases e with
  | corrected =>
    unfold scrubWord
    dsimp only
    split
    · exact hcount.journal _ _ (by decide)
    · exact hcount
  | clean => exact SameObjs.refl s _
  | uncorrectable => exact SameObjs.refl s _

theorem counted_scrubWord : Counted s (scrubWord s slice gl i .corrected) Obj.tstCorrected 1 := by
  have hcount : Counted s (objInc { s with corrRuns := smSet s.corrRuns (2 * gl + i) (smGetD s.corrRuns (2 * gl + i) 0 + 1) }
      Obj.tstCorrected) Obj.tstCorrected 1 := objGet_objInc_self _ _
  unfold scrubWord
  dsimp only
  split
  · exact counted_trans hcount ((SameObjs.refl _ journalObjs).journal _ _ (by decide)) (by decide)
  · exact hcount

theorem dic_scrubWord {e : Ecc} (h : e ≠ .corrected) : (scrubWord s slice gl i e).dic = s.dic := by
  cases e with
  | corrected => exact absurd rfl h
  | clean => rfl
  | uncorrectable => rfl

theorem sameObjs_remapLine : SameObjs s (remapLine s slice gl) ([Obj.tstLineRemaps, Obj.tstSparesLeftMin] ++ alertObjs) := by
  unfold remapLine
  dsimp only
  split
  · refine SameObjs.journal (SameObjs.objPut ?_ _ _ (by decide)) _ _ (by decide)
    refine SameObjs.of_dic (t := objInc _ Obj.tstLineRemaps) ?_ rfl
    exact SameObjs.objInc ((SameObjs.refl s _).of_dic rfl) _ List.mem_cons_self
  · split
    · exact SameObjs.refl s _
    · refine SameObjs.journalAlert (ks := [Obj.tstLineRemaps, Obj.tstSparesLeftMin] ++ alertObjs) ?_ _ _ (by decide)
      exact (SameObjs.refl s _).of_dic rfl

theorem sameObjs_scrubNext : SameObjs s (scrubNext s slice) [Obj.tstScrubPasses] := by
  unfold scrubNext
  dsimp only
  split
  · exact SameObjs.refl s _
  · split
    · exact SameObjs.objInc ((SameObjs.refl s _).of_dic rfl) _ List.mem_cons_self
    · exact SameObjs.refl s _

theorem scrubLine_scrubNext : (scrubNext s slice).scrubLine = s.scrubLine.set slice
    (if s.scrubLine.getD slice 0 + 1 < sliceLines then s.scrubLine.getD slice 0 + 1 else 0) := by
  unfold scrubNext
  dsimp only
  split
  · rfl
  · split <;> rfl

end

theorem getD_set {α : Type} (l : List α) (i j : Nat) (x d : α) : (l.set i x).getD j d = if i = j ∧ j < l.length then x else l.getD j d := by
  rw [List.getD_eq_getElem?_getD, List.getElem?_set, List.getD_eq_getElem?_getD]
  by_cases hij : i = j
  · subst hij
    by_cases hl : i < l.length <;> simp [hl]
  · simp [hij]

/-- A line of the tile store found uncorrectable, or not. -/
def tilePoisoned (s : State) (gl : Nat) (w0 w1 : Ecc) : State :=
  if w0 = .uncorrectable ∨ w1 = .uncorrectable then objInc { s with tilePoison := nsAdd s.tilePoison gl } Obj.tstUncorrectable else s

/-- A slice's line scrubbed, before the slice moves on. -/
def lineScrubbed (s : State) (slice gl : Nat) (w0 w1 : Ecc) : State :=
  if decide (4 ≤ smGetD s.corrRuns (2 * gl) 0) || decide (4 ≤ smGetD s.corrRuns (2 * gl + 1) 0) then
    remapLine (tilePoisoned (scrubWord (scrubWord s slice gl 0 w0) slice gl 1 w1) gl w0 w1) slice gl
  else tilePoisoned (scrubWord (scrubWord s slice gl 0 w0) slice gl 1 w1) gl w0 w1

theorem scrubTile_eq (s : State) (slice : Nat) (w0 w1 : Ecc) : scrubTile s slice w0 w1
    = scrubNext (lineScrubbed s slice (slice * sliceLines + s.scrubLine.getD slice 0) w0 w1) slice := rfl

section
variable (s : State) (slice gl : Nat) (w0 w1 : Ecc)

theorem sameObjs_tilePoisoned : SameObjs s (tilePoisoned s gl w0 w1) [Obj.tstUncorrectable] := by
  unfold tilePoisoned
  split
  · exact SameObjs.objInc ((SameObjs.refl s _).of_dic rfl) _ List.mem_cons_self
  · exact SameObjs.refl s _

theorem tilePoison_tilePoisoned : (tilePoisoned s gl w0 w1).tilePoison
    = if w0 = .uncorrectable ∨ w1 = .uncorrectable then nsAdd s.tilePoison gl else s.tilePoison := by
  unfold tilePoisoned
  split <;> rfl

/-- The objects that follow a scrub's words and its poison. -/
def remapObjs : List Nat := [Obj.tstLineRemaps, Obj.tstSparesLeftMin, Obj.tstScrubPasses] ++ alertObjs

theorem scrubTile_after : SameObjs (tilePoisoned (scrubWord (scrubWord s slice (slice * sliceLines + s.scrubLine.getD slice 0) 0 w0) slice
      (slice * sliceLines + s.scrubLine.getD slice 0) 1 w1) (slice * sliceLines + s.scrubLine.getD slice 0) w0 w1)
      (scrubTile s slice w0 w1) remapObjs := by
  rw [scrubTile_eq]
  refine SameObjs.trans ?_ ((sameObjs_scrubNext _ slice).mono (by decide))
  unfold lineScrubbed
  split
  · exact (sameObjs_remapLine _ slice _).mono (by decide)
  · exact SameObjs.refl _ _

theorem tilePoison_scrubTile : (scrubTile s slice w0 w1).tilePoison = if w0 = .uncorrectable ∨ w1 = .uncorrectable then
    nsAdd s.tilePoison (slice * sliceLines + s.scrubLine.getD slice 0) else s.tilePoison := by
  rw [scrubTile_eq, scrubNext_keeps State.tilePoison (fun _ _ => rfl)]
  have hw : (tilePoisoned (scrubWord (scrubWord s slice (slice * sliceLines + s.scrubLine.getD slice 0) 0 w0) slice
      (slice * sliceLines + s.scrubLine.getD slice 0) 1 w1) (slice * sliceLines + s.scrubLine.getD slice 0) w0 w1).tilePoison
      = if w0 = .uncorrectable ∨ w1 = .uncorrectable then nsAdd s.tilePoison (slice * sliceLines + s.scrubLine.getD slice 0)
        else s.tilePoison := by
    rw [tilePoison_tilePoisoned, scrubWord_keeps State.tilePoison (fun _ _ => rfl), scrubWord_keeps State.tilePoison (fun _ _ => rfl)]
  unfold lineScrubbed
  split
  · rw [remapLine_keeps State.tilePoison (fun _ _ => rfl), hw]
  · exact hw

theorem scrubLine_scrubTile : (scrubTile s slice w0 w1).scrubLine = s.scrubLine.set slice
    (if s.scrubLine.getD slice 0 + 1 < sliceLines then s.scrubLine.getD slice 0 + 1 else 0) := by
  have hl (gl : Nat) : (lineScrubbed s slice gl w0 w1).scrubLine = s.scrubLine := by
    have hw : (tilePoisoned (scrubWord (scrubWord s slice gl 0 w0) slice gl 1 w1) gl w0 w1).scrubLine = s.scrubLine := by
      unfold tilePoisoned
      split
      · exact (scrubWord_keeps State.scrubLine (fun _ _ => rfl) ..).trans (scrubWord_keeps State.scrubLine (fun _ _ => rfl) ..)
      · exact (scrubWord_keeps State.scrubLine (fun _ _ => rfl) ..).trans (scrubWord_keeps State.scrubLine (fun _ _ => rfl) ..)
    unfold lineScrubbed
    split
    · exact (remapLine_keeps State.scrubLine (fun _ _ => rfl) ..).trans hw
    · exact hw
  rw [scrubTile_eq, scrubLine_scrubNext, hl]

/-- The corrected words of a visit, counted. -/
theorem counted_scrubTile : (w0 = .corrected → w1 = .corrected → Counted s (scrubTile s slice w0 w1) Obj.tstCorrected 2)
    ∧ (w0 = .corrected ∧ w1 ≠ .corrected ∨ w0 ≠ .corrected ∧ w1 = .corrected →
        Counted s (scrubTile s slice w0 w1) Obj.tstCorrected 1) := by
  have hafter := scrubTile_after s slice w0 w1
  generalize slice * sliceLines + s.scrubLine.getD slice 0 = g at hafter
  have hkeep : objGet (scrubTile s slice w0 w1) Obj.tstCorrected
      = objGet (scrubWord (scrubWord s slice g 0 w0) slice g 1 w1) Obj.tstCorrected :=
    (hafter _ (by decide)).trans (sameObjs_tilePoisoned _ g w0 w1 _ (by decide))
  unfold Counted
  rw [hkeep]
  refine ⟨fun h0 h1 => ?_, fun h => ?_⟩
  · rw [h0, h1, counted_scrubWord, counted_scrubWord, satAdd, satAdd, satAdd]
    omega
  · obtain ⟨h0, h1⟩ | ⟨h0, h1⟩ := h
    · rw [objGet, dic_scrubWord _ slice g 1 h1, h0]
      exact counted_scrubWord s slice g 0
    · rw [h1, counted_scrubWord, objGet, dic_scrubWord _ slice g 0 h0]
      rfl

end

theorem tileScrub_holds (slice l : Nat) (w0 w1 : Ecc) (s : State) (hs : slice < 64) (hp : PartsOk s) (hl : l = s.scrubLine.getD slice 0) :
    ∃ t, exec (.tileStoreScrub slice w0 w1) s = .next t
      ∧ t = { s with dic := t.dic, persist := t.persist, tilePoison := t.tilePoison, remaps := t.remaps,
                     corrRuns := t.corrRuns, scrubLine := t.scrubLine, scrubWrap := t.scrubWrap, spareOut := t.spareOut, obs := t.obs }
      ∧ t.scrubLine.getD slice 0 = (if l + 1 < 147456 then l + 1 else 0)
      ∧ (∀ k, k ≠ slice → t.scrubLine.getD k 0 = s.scrubLine.getD k 0)
      ∧ (w0 = .uncorrectable ∨ w1 = .uncorrectable →
          nsHas t.tilePoison (slice * 147456 + l) = true ∧ Counted s t Obj.tstUncorrectable 1)
      ∧ (w0 ≠ .uncorrectable → w1 ≠ .uncorrectable → t.tilePoison = s.tilePoison)
      ∧ (∀ k, k ≠ slice * 147456 + l → nsHas t.tilePoison k = nsHas s.tilePoison k)
      ∧ (w0 = .corrected → w1 = .corrected → Counted s t Obj.tstCorrected 2)
      ∧ (w0 = .corrected ∧ w1 ≠ .corrected ∨ w0 ≠ .corrected ∧ w1 = .corrected → Counted s t Obj.tstCorrected 1)
      ∧ SameObjs s t ([Obj.tstUncorrectable, Obj.tstCorrected, Obj.tstLineRemaps, Obj.tstSparesLeftMin,
          Obj.tstScrubPasses] ++ alertObjs) := by
  subst hl
  have hlen : slice < s.scrubLine.length := by
    obtain ⟨-, -, -, h, -⟩ := hp
    omega
  have hline := scrubLine_scrubTile s slice w0 w1
  have hpoison := tilePoison_scrubTile s slice w0 w1
  have hcount := counted_scrubTile s slice w0 w1
  have hafter := scrubTile_after s slice w0 w1
  have hframe : scrubTile s slice w0 w1 = foot9_3 s (scrubTile s slice w0 w1) :=
    scrubTile_keeps (foot9_3 · (scrubTile s slice w0 w1)) (fun _ _ => rfl) s slice w0 w1
  have hwords := (sameObjs_scrubWord s slice (slice * sliceLines + s.scrubLine.getD slice 0) 0 w0).trans
    (sameObjs_scrubWord _ slice (slice * sliceLines + s.scrubLine.getD slice 0) 1 w1)
  have hunc : w0 = .uncorrectable ∨ w1 = .uncorrectable → Counted s (scrubTile s slice w0 w1) Obj.tstUncorrectable 1 := fun hu => by
    have hafter' := hafter Obj.tstUncorrectable (by decide)
    have hwords' := hwords Obj.tstUncorrectable (by decide)
    unfold tilePoisoned at hafter'
    rw [if_pos hu, objGet_objInc_self] at hafter'
    exact hafter'.trans (congrArg (fun n => satAdd _ n 1) hwords')
  have hobjs : SameObjs s (scrubTile s slice w0 w1) ([Obj.tstUncorrectable, Obj.tstCorrected, Obj.tstLineRemaps, Obj.tstSparesLeftMin,
      Obj.tstScrubPasses] ++ alertObjs) :=
    ((hwords.mono (by decide)).trans ((sameObjs_tilePoisoned _ _ w0 w1).mono (by decide))).trans (hafter.mono (by decide))
  refine ⟨_, need_lt hs _, hframe, ?_, fun k hk => ?_, fun hu => ⟨?_, hunc hu⟩, fun h0 h1 => ?_, fun k hk => ?_, hcount.1, hcount.2, hobjs⟩
  · rw [hline, getD_set, if_pos ⟨rfl, hlen⟩]
    rfl
  · rw [hline, getD_set, if_neg (fun h => hk h.1.symm)]
  · rw [hpoison, if_pos hu, nsHas_nsAdd]
    exact Bool.or_eq_true_iff.2 (.inl (decide_eq_true rfl))
  · rw [hpoison, if_neg (not_or.2 ⟨h0, h1⟩)]
  · rw [hpoison]
    split
    · rw [nsHas_nsAdd]
      exact Bool.or_eq_right_iff_imp.2 (fun h => absurd (of_decide_eq_true h).symm hk)
    · rfl

end Sys2Proof.Machine

/-!
What an error in a line of LPDDR changes, and LPDDR_SCRUB_READ (R169, R175, R410).
-/

namespace Sys2Proof.Machine

/-! ### What an error in a line changes -/

/-- What of a channel an error in one of its lines leaves. -/
def unfaulted (c : Chan) : Chan := { c with rows := [], corrTimes := [], back := [] }

theorem unfaulted_updChan (s : State) (i j : Nat) (f : Chan → Chan) (hf : ∀ c, unfaulted (f c) = unfaulted c) :
    unfaulted (chanOf (updChan s i f) j) = unfaulted (chanOf s j) := by
  rw [chanOf_updChan]
  split
  · exact hf _
  · rfl

theorem unfaulted_noteRow (s : State) (l j : Nat) (pass : Option Nat) : unfaulted (chanOf (noteRow s l pass) j) = unfaulted (chanOf s j) := by
  unfold noteRow
  dsimp only
  refine unfaulted_updChan _ _ _ _ (fun c => ?_)
  rfl

theorem unfaulted_noteCorrected (s : State) (l j : Nat) : unfaulted (chanOf (noteCorrected s l) j) = unfaulted (chanOf s j) := by
  unfold noteCorrected
  refine (unfaulted_updChan _ _ _ _ (fun c => ?_)).trans (congrArg unfaulted (dim_islandEvent ..))
  rfl

theorem unfaulted_readDecoded (s : State) (l : Nat) (e : Ecc) (j : Nat) :
    unfaulted (chanOf (readDecoded s l e) j) = unfaulted (chanOf s j) := by
  cases e with
  | clean => rfl
  | corrected => exact unfaulted_noteCorrected s l j
  | uncorrectable =>
    refine (unfaulted_noteRow _ l j none).trans ?_
    rw [dim_islandEvent]
    rfl

theorem smGetD_smSet {α : Type} (m : SMap α) (k j : Nat) (v d : α) : smGetD (smSet m k v) j d = if k = j then v else smGetD m j d := by
  unfold smGetD
  by_cases h : k = j
  · subst h
    rw [smGet_smSet_self, if_pos rfl]
    rfl
  · rw [smGet_smSet_ne _ _ _ _ (Ne.symm h), if_neg h]

theorem eventSent_islandEvent (s : State) (i : Island) (key : Nat) : EventSent s (islandEvent s i key 1) i key 1 := by
  have hw : ∃ w, smGetD (islandEvent s i key 1).wires (islandIx i) {} = w
      ∧ (islandEvent s i key 1).wires = smSet s.wires (islandIx i) w
      ∧ w.counts = smSet (smGetD s.wires (islandIx i) {}).counts key
          (satAdd (objTop key) (smGetD (smGetD s.wires (islandIx i) {}).counts key 0) 1)
      ∧ w.toggle = (if (smGetD s.wires (islandIx i) {}).ackAt.isSome then (smGetD s.wires (islandIx i) {}).toggle
          else !(smGetD s.wires (islandIx i) {}).toggle)
      ∧ w.ackAt = (if (smGetD s.wires (islandIx i) {}).ackAt.isSome then (smGetD s.wires (islandIx i) {}).ackAt
          else some (s.now + islandGap i)) := by
    unfold islandEvent
    rw [if_neg (by decide)]
    dsimp only
    generalize smGetD s.wires (islandIx i) {} = w
    refine ⟨_, (smGetD_smSet ..).trans (if_pos rfl), rfl, ?_⟩
    cases w.ackAt.isSome <;> exact ⟨rfl, rfl, rfl⟩
  obtain ⟨w, hget, hset, hcounts, htoggle, hack⟩ := hw
  unfold EventSent
  rw [hget]
  refine ⟨hset, ?_, fun k hk => ?_, fun ha => ?_, fun ha => ?_⟩
  · rw [hcounts, smGetD_smSet, if_pos rfl]
  · rw [hcounts, smGetD_smSet, if_neg (Ne.symm hk)]
  · rw [ha] at htoggle hack
    exact ⟨htoggle, hack⟩
  · have hs := Option.isSome_iff_ne_none.2 ha
    rw [hs] at htoggle hack
    exact ⟨htoggle, hack⟩

theorem eventSent_congr {s t u : State} {i : Island} {key n : Nat} (h : EventSent s t i key n) (hu : u.wires = t.wires) :
    EventSent s u i key n := by
  unfold EventSent
  rw [hu]
  exact h

/-! ### LPDDR_SCRUB_READ (R175) -/

/-- The marks of the lines of LPDDR, at one line. -/
def marksAt (s : State) (k : Nat) : Bool × Bool := (nsHas s.lpddrPoison k, nsHas s.lpddrBad k)

section
variable (s : State) (line : Nat)

theorem unfaulted_scrubLpddrLine (e : Ecc) (j : Nat) : unfaulted (chanOf (scrubLpddrLine s line e) j) = unfaulted (chanOf s j) := by
  cases e with
  | clean => rfl
  | corrected => exact (unfaulted_noteRow _ line j _).trans (unfaulted_noteCorrected s line j)
  | uncorrectable =>
    unfold scrubLpddrLine
    have hn := (unfaulted_noteRow (islandEvent s (.channel (channelOf s (64 * line))) Obj.memUncorrectable 1) line j none).trans
      (congrArg unfaulted (dim_islandEvent s (.channel (channelOf s (64 * line))) Obj.memUncorrectable 1 j))
    refine (congrArg (fun cs : List Chan => unfaulted (cs.getD j {})) (journal_keeps State.chans (fun _ _ => rfl) _ _ _)).trans ?_
    split
    · exact hn
    · exact hn

theorem marksAt_scrubLpddrLine (e : Ecc) {k : Nat} (hk : k ≠ line) : marksAt (scrubLpddrLine s line e) k = marksAt s k := by
  cases e with
  | clean => rfl
  | corrected =>
    exact (noteRow_keeps (marksAt · k) (fun _ _ => rfl) _ line _).trans (noteCorrected_keeps (marksAt · k) (fun _ _ => rfl) s line)
  | uncorrectable =>
    have hn : marksAt (noteRow (islandEvent s (.channel (channelOf s (64 * line))) Obj.memUncorrectable 1) line none) k = marksAt s k :=
      (noteRow_keeps (marksAt · k) (fun _ _ => rfl) _ line _).trans (islandEvent_keeps (marksAt · k) (fun _ _ => rfl) s _ _ _)
    unfold scrubLpddrLine
    refine (journal_keeps (marksAt · k) (fun _ _ => rfl) _ _ _).trans ?_
    split
    · exact hn
    · refine Eq.trans ?_ hn
      unfold marksAt
      rw [nsHas_nsAdd, nsHas_nsDel, decide_eq_false (Ne.symm hk)]
      rfl

theorem writePending_of_chans {s t : State} {l : Nat} (hk : t.keyEff = s.keyEff) (hc : ∀ j, unfaulted (chanOf t j) = unfaulted (chanOf s j)) :
    writePending t l = writePending s l := by
  have hch : channelOf t (64 * l) = channelOf s (64 * l) := congrArg (fun n => (lpddrPlace n (64 * l)).1) hk
  have hq : (chanOf t (channelOf s (64 * l))).writeQ = (chanOf s (channelOf s (64 * l))).writeQ :=
    (congrArg Chan.writeQ (hc (channelOf s (64 * l))) :)
  unfold writePending holdsWrite
  rw [hch, hq]

theorem marksAt_scrubbed (hp : writePending s line = false) : marksAt (scrubLpddrLine s line .uncorrectable) line = (true, false) := by
  have hn : writePending (noteRow (islandEvent s (.channel (channelOf s (64 * line))) Obj.memUncorrectable 1) line none) line = false := by
    refine (writePending_of_chans ?_ (fun j => ?_)).trans hp
    · exact (noteRow_keeps State.keyEff (fun _ _ => rfl) _ _ _).trans (islandEvent_keeps State.keyEff (fun _ _ => rfl) s _ _ _)
    · exact (unfaulted_noteRow _ line j none).trans (congrArg unfaulted (dim_islandEvent ..))
  unfold scrubLpddrLine
  refine (journal_keeps (marksAt · line) (fun _ _ => rfl) _ _ _).trans ?_
  rw [if_neg (by rw [hn]; decide)]
  unfold marksAt
  rw [nsHas_nsAdd, nsHas_nsDel, decide_eq_true rfl]
  rfl

theorem sameObjs_scrubLpddrLine (e : Ecc) : SameObjs s (scrubLpddrLine s line e) journalObjs := by
  cases e with
  | clean => exact SameObjs.refl s _
  | corrected =>
    exact (SameObjs.refl s _).of_dic ((noteRow_keeps State.dic (fun _ _ => rfl) _ _ _).trans (noteCorrected_keeps State.dic (fun _ _ => rfl) s line))
  | uncorrectable =>
    have hn := (noteRow_keeps State.dic (fun _ _ => rfl)
      (islandEvent s (.channel (channelOf s (64 * line))) Obj.memUncorrectable 1) line none).trans
      (islandEvent_keeps State.dic (fun _ _ => rfl) s (.channel (channelOf s (64 * line))) Obj.memUncorrectable 1)
    unfold scrubLpddrLine
    refine SameObjs.journal ((SameObjs.refl s _).of_dic ?_) _ _ (fun _ h => h)
    split
    · exact hn
    · exact hn

end

theorem scrubLines_facts (s : State) (line : Nat) (es : List Ecc) :
    (∀ k, k < line → marksAt (scrubLines s line es) k = marksAt s k)
    ∧ (∀ j, unfaulted (chanOf (scrubLines s line es) j) = unfaulted (chanOf s j))
    ∧ (∀ i, es[i]? = some .uncorrectable → writePending s (line + i) = false → marksAt (scrubLines s line es) (line + i) = (true, false))
    ∧ ((∀ e ∈ es, e = .clean) → scrubLines s line es = s) ∧ SameObjs s (scrubLines s line es) journalObjs := by
  induction es generalizing s line with
  | nil => exact ⟨fun _ _ => rfl, fun _ => rfl, fun i h => by simp at h, fun _ => rfl, SameObjs.refl s _⟩
  | cons e r ih =>
    obtain ⟨h1, h2, h3, h4, h5⟩ := ih (scrubLpddrLine s line e) (line + 1)
    refine ⟨fun k hk => (h1 k (by omega)).trans (marksAt_scrubLpddrLine s line e (by omega)), fun j => (h2 j).trans
      (unfaulted_scrubLpddrLine s line e j), fun i hi hp => ?_, fun hc => ?_, (sameObjs_scrubLpddrLine s line e).trans h5⟩
    · cases i with
      | zero =>
        obtain rfl : e = .uncorrectable := by simpa using hi
        exact (h1 line (by omega)).trans (marksAt_scrubbed s line hp)
      | succ i =>
        rw [show line + (i + 1) = line + 1 + i by omega] at hp ⊢
        refine h3 i (by simpa using hi) ((writePending_of_chans ?_ (unfaulted_scrubLpddrLine s line e)).trans hp)
        exact scrubLpddrLine_keeps State.keyEff (fun _ _ => rfl) s line e
    · obtain rfl := hc e List.mem_cons_self
      exact h4 (fun x hx => hc x (List.mem_cons_of_mem _ hx))

/-- A channel whose scrub has read a granule. -/
def scrubMoved (s : State) (c : Chan) : Chan :=
  if c.scrubPos + 1 < chanGranules then { c with scrubPos := c.scrubPos + 1, lastBack := s.now }
  else { c with scrubPos := 0, scrubPass := c.scrubPass + 1, scrubStart := c.scrubStart + scrubPeriod s, lastBack := s.now }

theorem scrubPos_scrubMoved (s : State) (c : Chan) :
    (scrubMoved s c).scrubPos = if c.scrubPos + 1 < 75497472 then c.scrubPos + 1 else 0 := by
  unfold scrubMoved chanGranules
  split <;> rfl

theorem scrubGranule_runs {s : State} {ch : Nat} (es : List Ecc) (hup : chanUp s ch = true) (hdim : (chanOf s ch).dim = none)
    (hdue : scrubDue s ch ≤ s.now) (hturn : scrubTurn s ch = true) : scrubGranule s ch es =
      updChan (scrubLines s (granuleOff s.keyEff ch (chanOf s ch).scrubPos / 64) (es.take 4)) ch
        (scrubMoved (scrubLines s (granuleOff s.keyEff ch (chanOf s ch).scrubPos / 64) (es.take 4))) := by
  unfold scrubGranule
  dsimp only
  rw [if_neg (by simp [hup, hdim, hturn, hdue])]
  rfl

theorem chans_length {s : State} (hp : PartsOk s) : s.chans.length = 64 := by
  obtain ⟨-, -, -, -, h, -⟩ := hp
  exact h

theorem scrubRead_holds (ch i : Nat) (es : List Ecc) (s : State) (hch : ch < 64) (hp : PartsOk s) (hup : chanUp s ch = true)
    (hdim : (chanOf s ch).dim = none) (hdue : scrubDue s ch ≤ s.now) (hturn : scrubTurn s ch = true) (hi : i < 4) :
    ∃ t, exec (.lpddrScrubRead ch es) s = .next t
      ∧ t = { s with dic := t.dic, lpddrPoison := t.lpddrPoison, lpddrBad := t.lpddrBad, chans := t.chans, obs := t.obs
                     wires := t.wires }
      ∧ (chanOf t ch).scrubPos = (if (chanOf s ch).scrubPos + 1 < 75497472 then (chanOf s ch).scrubPos + 1 else 0)
      ∧ (∀ k, k ≠ ch → (chanOf t k).scrubPos = (chanOf s k).scrubPos)
      ∧ (es[i]? = some .uncorrectable → writePending s (granuleOff s.keyEff ch (chanOf s ch).scrubPos / 64 + i) = false →
          nsHas t.lpddrPoison (granuleOff s.keyEff ch (chanOf s ch).scrubPos / 64 + i) = true
          ∧ nsHas t.lpddrBad (granuleOff s.keyEff ch (chanOf s ch).scrubPos / 64 + i) = false)
      ∧ ((∀ e ∈ es.take 4, e = .clean) → t.wires = s.wires ∧ t.dic = s.dic ∧ t.lpddrPoison = s.lpddrPoison
          ∧ t.lpddrBad = s.lpddrBad)
      ∧ SameObjs s t journalObjs := by
  have hlen := chans_length hp
  have hruns := scrubGranule_runs es hup hdim hdue hturn
  have hframe : scrubGranule s ch es = foot6_4 s (scrubGranule s ch es) :=
    scrubGranule_keeps (foot6_4 · (scrubGranule s ch es)) (fun _ _ => rfl) s ch es
  generalize granuleOff s.keyEff ch (chanOf s ch).scrubPos / 64 = line at *
  obtain ⟨-, hchans, hmarks, hclean, hobjs⟩ := scrubLines_facts s line (es.take 4)
  have hulen : (scrubLines s line (es.take 4)).chans.length = s.chans.length :=
    (chans_length (scrubLines_partsOk s line (es.take 4) hp)).trans hlen.symm
  generalize scrubLines s line (es.take 4) = u at *
  have hpos (j : Nat) : (chanOf u j).scrubPos = (chanOf s j).scrubPos := (congrArg Chan.scrubPos (hchans j) :)
  rw [hruns] at hframe
  refine ⟨_, (need_lt hch _).trans (congrArg Host.Outcome.next hruns), hframe, ?_, fun k hk => ?_, fun he hw => ?_, fun hc => ?_,
    hobjs.of_dic rfl⟩
  · rw [chanOf_updChan, if_pos ⟨rfl, by omega⟩, scrubPos_scrubMoved, hpos]
  · rw [chanOf_updChan, if_neg (fun h => hk h.1.symm), hpos]
  · exact Prod.mk.inj (hmarks i ((List.getElem?_take_of_lt hi).trans he) hw)
  · rw [hclean hc]
    exact ⟨rfl, rfl, rfl, rfl⟩

theorem scrubRead_idle (ch : Nat) (es : List Ecc) (s : State) (hch : ch < 64)
    (h : chanUp s ch = false ∨ (chanOf s ch).dim ≠ none ∨ s.now < scrubDue s ch ∨ scrubTurn s ch = false) :
    exec (.lpddrScrubRead ch es) s = .next s := by
  refine (need_lt hch _).trans (congrArg Host.Outcome.next (if_pos ?_))
  obtain h | h | h | h := h
  · simp [h]
  · simp [Option.isSome_iff_ne_none.2 h]
  · simp [h]
  · simp [h]

end Sys2Proof.Machine

/-!
The turns of a channel, its reads and its writes (R169, R172, R173, R176); O15 settled.
-/

namespace Sys2Proof.Machine

/-! ### Whose turn it is (R172) -/

section
variable {now : Nat} {c : Chan}

theorem firstUrgent_none (h : ∀ x ∈ c.readQ, classOne now x = false) : firstUrgent now c = none := List.findIdx?_eq_none_iff.2 h

theorem turnOf_urgent (h : ∃ x ∈ c.readQ, classOne now x = true) :
    ∃ i x, turnOf now c = some (.read i) ∧ c.readQ[i]? = some x ∧ classOne now x = true
      ∧ ∀ j y, j < i → c.readQ[j]? = some y → classOne now y = false := by
  obtain ⟨x, hx, hc⟩ := h
  cases hf : firstUrgent now c with
  | none => exact absurd (List.findIdx?_eq_none_iff.1 hf x hx) (by simp [hc])
  | some i =>
    obtain ⟨hi, hone, hbefore⟩ := List.findIdx?_eq_some_iff_getElem.1 hf
    refine ⟨i, c.readQ[i], ?_, List.getElem?_eq_getElem hi, hone, fun j y hj hy => ?_⟩
    · unfold turnOf
      rw [hf]
    · obtain ⟨_, rfl⟩ := List.getElem?_eq_some_iff.1 hy
      simpa using hbefore j hj

/-- The turn of a channel with no read of class 1. -/
theorem turnOf_plain (h : firstUrgent now c = none) : turnOf now c =
    if writesFirst now c then some .write
    else if !c.readQ.isEmpty then some (.read 0)
    else if !c.writeQ.isEmpty then some .write
    else if !c.back.isEmpty then some .back
    else none := by
  unfold turnOf
  rw [h]

theorem turnOf_noRead (h : c.readQ = []) (hw : c.writeQ ≠ []) : turnOf now c = some .write := by
  rw [turnOf_plain (firstUrgent_none (by simp [h]))]
  split
  · rfl
  · simp [h, hw]

theorem turnOf_back (h : c.readQ = []) (hw : c.writeQ = []) (hb : c.back ≠ []) : turnOf now c = some .back := by
  rw [turnOf_plain (firstUrgent_none (by simp [h]))]
  simp [h, hw, hb, writesFirst]

end

theorem turns_hold (now : Nat) (c : Chan) :
    ((∃ x ∈ c.readQ, classOne now x = true) →
      ∃ i x, turnOf now c = some (.read i) ∧ c.readQ[i]? = some x ∧ classOne now x = true
        ∧ ∀ j y, j < i → c.readQ[j]? = some y → classOne now y = false)
    ∧ ((∀ x ∈ c.readQ, classOne now x = false) → writesFirst now c = true → turnOf now c = some .write)
    ∧ ((∀ x ∈ c.readQ, classOne now x = false) → writesFirst now c = false → c.readQ ≠ [] → turnOf now c = some (.read 0))
    ∧ (c.readQ = [] → c.writeQ ≠ [] → turnOf now c = some .write)
    ∧ (c.readQ = [] → c.writeQ = [] → c.back ≠ [] → turnOf now c = some .back) := by
  refine ⟨turnOf_urgent, fun h hw => ?_, fun h hw hr => ?_, turnOf_noRead, turnOf_back⟩
  · rw [turnOf_plain (firstUrgent_none h), if_pos hw]
  · rw [turnOf_plain (firstUrgent_none h), if_neg (by simp [hw]), if_pos (by simp [hr])]

/-! ### LPDDR_READ_COMPLETE (R169, R172) -/

theorem updChan_same {s : State} {ch : Nat} {f : Chan → Chan} (h : ch < s.chans.length → f (chanOf s ch) = chanOf s ch) :
    updChan s ch f = s := by
  have hl : modifyAt s.chans ch f = s.chans := by
    refine List.ext_getElem (by simp [modifyAt]) (fun i h1 h2 => ?_)
    have hi := getD_modifyAt s.chans ch i f {}
    rw [List.getD_eq_getElem _ _ h1, List.getD_eq_getElem _ _ h2] at hi
    rw [hi]
    split
    next hc =>
      obtain ⟨rfl, -⟩ := hc
      have := h h2
      unfold chanOf at this
      rwa [List.getD_eq_getElem _ _ h2] at this
    next => rfl
  unfold updChan
  rw [hl]

section
variable {s : State} {ch : Nat}

/-- A channel's turn, once no write-back has waited too long and no write goes ahead of a read. -/
theorem serveChannel_turn (es : List Ecc) (hback : (chanOf s ch).back = [] ∨ s.now < (chanOf s ch).lastBack + us 100)
    (hahead : turnOf s.now (chanOf s ch) = some .write → (chanOf s ch).readQ = []) : serveChannel s ch es =
      match turnOf s.now (chanOf s ch) with
      | some (.read i) =>
        match (chanOf s ch).readQ[i]? with
        | some x => decodeLines (updChan s ch (readOut s.now i)) x.line (es.take x.n)
        | none => s
      | some .write => updChan s ch (writeOut s.now)
      | some .back => updChan s ch (backOut s.now)
      | none => s := by
  have h1 : updChan s ch (fun c => if c.lastBack + us 100 ≤ s.now ∧ !c.back.isEmpty then backOut s.now c else c) = s :=
    updChan_same (fun _ => if_neg (by obtain h | h := hback <;> simp [h]))
  have h2 : updChan s ch (writesAhead s.now 64) = s := updChan_same (fun _ => if_neg (fun ⟨hw, hr⟩ => by simp [hahead hw] at hr))
  unfold serveChannel
  rw [h1]
  dsimp only
  rw [h2] <;> rfl

variable (s)

theorem bad_readDecoded (line : Nat) (e : Ecc) (k : Nat) : nsHas (readDecoded s line e).lpddrBad k
    = (decide (e = .uncorrectable ∧ line = k) || nsHas s.lpddrBad k) := by
  cases e with
  | clean => rfl
  | corrected =>
    exact congrArg (nsHas · k) (noteCorrected_keeps State.lpddrBad (fun _ _ => rfl) s line)
  | uncorrectable =>
    refine (congrArg (nsHas · k) ((noteRow_keeps State.lpddrBad (fun _ _ => rfl) _ _ _).trans
      (islandEvent_keeps State.lpddrBad (fun _ _ => rfl) _ _ _ _))).trans ?_
    refine (nsHas_nsAdd _ _ _).trans ?_
    simp

theorem decodeLines_facts (line : Nat) (es : List Ecc) :
    (∀ j, unfaulted (chanOf (decodeLines s line es) j) = unfaulted (chanOf s j))
    ∧ (∀ j, es[j]? = some .uncorrectable → nsHas (decodeLines s line es).lpddrBad (line + j) = true)
    ∧ (∀ l, l < line ∨ line + es.length ≤ l → nsHas (decodeLines s line es).lpddrBad l = nsHas s.lpddrBad l)
    ∧ (∀ l, nsHas s.lpddrBad l = true → nsHas (decodeLines s line es).lpddrBad l = true)
    ∧ ((∀ e ∈ es, e = .clean) → decodeLines s line es = s) := by
  induction es generalizing s line with
  | nil => exact ⟨fun _ => rfl, fun i h => by simp at h, fun _ _ => rfl, fun _ h => h, fun _ => rfl⟩
  | cons e r ih =>
    obtain ⟨h1, h2, h3, h4, h5⟩ := ih (readDecoded s line e) (line + 1)
    refine ⟨fun j => (h1 j).trans (unfaulted_readDecoded s line e j), fun j hj => ?_, fun l hl => ?_, fun l hl => h4 l ?_, fun hc => ?_⟩
    · cases j with
      | zero =>
        obtain rfl : e = .uncorrectable := by simpa using hj
        exact h4 line (by rw [bad_readDecoded]; simp)
      | succ j =>
        rw [show line + (j + 1) = line + 1 + j by omega]
        exact h2 j (by simpa using hj)
    · rw [List.length_cons] at hl
      refine (h3 l (by omega)).trans ?_
      rw [bad_readDecoded, decide_eq_false (fun h => by omega)]
      rfl
    · rw [bad_readDecoded, hl, Bool.or_true]
    · obtain rfl := hc e List.mem_cons_self
      exact h5 (fun x hx => hc x (List.mem_cons_of_mem _ hx))

theorem decodeLines_corrected (line : Nat) :
    EventSent s (decodeLines s line [.corrected]) (.channel (channelOf s (64 * line))) Obj.memCorrected 1
      ∧ (decodeLines s line [.corrected]).lpddrBad = s.lpddrBad :=
  ⟨eventSent_congr (eventSent_islandEvent s _ _) rfl, noteCorrected_keeps State.lpddrBad (fun _ _ => rfl) s line⟩

theorem decodeLines_uncorrectable (line : Nat) :
    EventSent s (decodeLines s line [.uncorrectable]) (.channel (channelOf s (64 * line))) Obj.memUncorrectable 1 :=
  eventSent_congr (t := islandEvent { s with lpddrBad := nsAdd s.lpddrBad line } (.channel (channelOf s (64 * line))) Obj.memUncorrectable 1)
    (eventSent_islandEvent { s with lpddrBad := nsAdd s.lpddrBad line } _ _) (noteRow_keeps State.wires (fun _ _ => rfl) _ _ _)

end

theorem readComplete_exec {p k : Nat} {s : State} (es : List Ecc) (hp : p < 16) (hk : k < 4) (hup : chanUp s (4 * p + k) = true)
    (hdim : (chanOf s (4 * p + k)).dim = none) :
    exec (.lpddrReadComplete p k es) s = .next (serveChannel s (4 * p + k) es) :=
  (need_of (decide_eq_true ⟨hp, hk⟩) _).trans (congrArg Host.Outcome.next (if_pos (by simp [hup, hdim])))

theorem readComplete_holds (p k i : Nat) (es : List Ecc) (x : ChRead) (s : State) (hp : p < 16) (hk : k < 4)
    (hlen : 4 * p + k < s.chans.length) (hup : chanUp s (4 * p + k) = true) (hdim : (chanOf s (4 * p + k)).dim = none)
    (hback : (chanOf s (4 * p + k)).back = [] ∨ s.now < (chanOf s (4 * p + k)).lastBack + us 100)
    (hturn : turnOf s.now (chanOf s (4 * p + k)) = some (.read i)) (hx : (chanOf s (4 * p + k)).readQ[i]? = some x) :
    ∃ t, exec (.lpddrReadComplete p k es) s = .next t ∧ t = { s with lpddrBad := t.lpddrBad, chans := t.chans, wires := t.wires }
      ∧ (chanOf t (4 * p + k)).readQ = (readOut s.now i (chanOf s (4 * p + k))).readQ
      ∧ (∀ j, j < x.n → es[j]? = some .uncorrectable → nsHas t.lpddrBad (x.line + j) = true)
      ∧ (∀ l, l < x.line ∨ x.line + x.n ≤ l → nsHas t.lpddrBad l = nsHas s.lpddrBad l)
      ∧ (∀ l, nsHas s.lpddrBad l = true → nsHas t.lpddrBad l = true)
      ∧ ((∀ e ∈ es.take x.n, e = .clean) → t.lpddrBad = s.lpddrBad ∧ t.wires = s.wires)
      ∧ (es.take x.n = [.corrected] →
          EventSent s t (.channel (channelOf s (64 * x.line))) Obj.memCorrected 1 ∧ t.lpddrBad = s.lpddrBad)
      ∧ (es.take x.n = [.uncorrectable] → EventSent s t (.channel (channelOf s (64 * x.line))) Obj.memUncorrectable 1) := by
  have hrun : serveChannel s (4 * p + k) es = decodeLines (updChan s (4 * p + k) (readOut s.now i)) x.line (es.take x.n) := by
    rw [serveChannel_turn es hback (fun h => by rw [hturn] at h; cases h), hturn]
    dsimp only
    rw [hx]
  have hread : chanOf (updChan s (4 * p + k) (readOut s.now i)) (4 * p + k) = readOut s.now i (chanOf s (4 * p + k)) := by
    rw [chanOf_updChan, if_pos ⟨rfl, hlen⟩]
  obtain ⟨hchans, hbad, hout, hmono, hclean⟩ := decodeLines_facts (updChan s (4 * p + k) (readOut s.now i)) x.line (es.take x.n)
  refine ⟨_, (readComplete_exec es hp hk hup hdim).trans (congrArg Host.Outcome.next hrun),
    decodeLines_keeps (footLpddrBadChansWires · (decodeLines (updChan s (4 * p + k) (readOut s.now i)) x.line (es.take x.n)))
      (fun _ _ => rfl) _ x.line (es.take x.n), ?_, fun j hj he => ?_, fun l hl => ?_, hmono, fun hc => ?_, fun he => ?_, fun he => ?_⟩
  · have hq : (chanOf (decodeLines (updChan s (4 * p + k) (readOut s.now i)) x.line (es.take x.n)) (4 * p + k)).readQ
        = (chanOf (updChan s (4 * p + k) (readOut s.now i)) (4 * p + k)).readQ := (congrArg Chan.readQ (hchans (4 * p + k)) :)
    rw [hq, hread]
  · exact hbad j ((List.getElem?_take_of_lt hj).trans he)
  · exact hout l (by
      have := List.length_take_le x.n es
      omega)
  · rw [hclean hc]
    exact ⟨rfl, rfl⟩
  · rw [he]
    exact decodeLines_corrected (updChan s (4 * p + k) (readOut s.now i)) x.line
  · rw [he]
    exact decodeLines_uncorrectable (updChan s (4 * p + k) (readOut s.now i)) x.line

theorem writeTurn_holds (p k : Nat) (es : List Ecc) (s : State) (hp : p < 16) (hk : k < 4) (hlen : 4 * p + k < s.chans.length)
    (hup : chanUp s (4 * p + k) = true) (hdim : (chanOf s (4 * p + k)).dim = none)
    (hback : (chanOf s (4 * p + k)).back = [] ∨ s.now < (chanOf s (4 * p + k)).lastBack + us 100)
    (hr : (chanOf s (4 * p + k)).readQ = []) (hw : (chanOf s (4 * p + k)).writeQ ≠ []) :
    ∃ t, exec (.lpddrReadComplete p k es) s = .next t ∧ t = { s with chans := t.chans }
      ∧ chanOf t (4 * p + k) = writeOut s.now (chanOf s (4 * p + k)) ∧ (∀ j, j ≠ 4 * p + k → chanOf t j = chanOf s j) := by
  have hrun : serveChannel s (4 * p + k) es = updChan s (4 * p + k) (writeOut s.now) := by
    rw [serveChannel_turn es hback (fun _ => hr), turnOf_noRead hr hw]
  refine ⟨_, (readComplete_exec es hp hk hup hdim).trans (congrArg Host.Outcome.next hrun), rfl, ?_, fun j hj => ?_⟩
  · rw [chanOf_updChan, if_pos ⟨rfl, hlen⟩]
  · rw [chanOf_updChan, if_neg (fun h => hj h.1.symm)]

theorem readComplete_idle (p k : Nat) (es : List Ecc) (s : State) (hp : p < 16) (hk : k < 4)
    (h : chanUp s (4 * p + k) = false ∨ (chanOf s (4 * p + k)).dim ≠ none) : exec (.lpddrReadComplete p k es) s = .next s := by
  refine (need_of (decide_eq_true ⟨hp, hk⟩) _).trans (congrArg Host.Outcome.next (if_neg ?_))
  obtain h | h := h
  · simp [h]
  · simp [h]

/-! ### LPDDR_WRITE_ACCEPT (R173, R176) -/

theorem natBit_maskMod (m : Nat) {i n : Nat} (hi : i < n) : natBit i (m % 2 ^ n) = natBit i m := by
  have h := Nat.testBit_mod_two_pow m n i
  rw [Nat.testBit_eq_decide_div_mod_eq, Nat.testBit_eq_decide_div_mod_eq] at h
  simpa [natBit, hi] using h

theorem poison_writeLpddrLine (s : State) (l mask : Nat) (data : Bytes) (poison : Bool) :
    nsHas (writeLpddrLine s l mask data poison).lpddrPoison l
      = if mask = fullMask then poison else poison || nsHas s.lpddrPoison l || nsHas s.lpddrBad l := by
  unfold writeLpddrLine
  by_cases hm : mask = fullMask
  · rw [if_neg (by simp [hm]), if_pos hm]
    refine (nsHas_nsPut ..).trans ?_
    rw [if_pos rfl]
    simp [hm]
  · rw [if_neg hm]
    cases hb : nsHas s.lpddrBad l with
    | true =>
      rw [if_pos (by simp [hm])]
      refine (nsHas_nsAdd ..).trans ?_
      simp
    | false =>
      rw [if_neg (by simp)]
      refine (nsHas_nsPut ..).trans ?_
      rw [if_pos rfl, show (mask != fullMask) = true by simpa using hm]
      simp

theorem getD_padTo {bs : Bytes} {n i : Nat} (hi : i < n) : (padTo n bs).getD i 0 = bs.getD i 0 := by
  unfold padTo
  rw [List.getD_eq_getElem?_getD, List.getElem?_take_of_lt hi, List.getD_eq_getElem?_getD]
  by_cases hb : i < bs.length
  · rw [List.getElem?_append_left hb]
  · rw [List.getElem?_append_right (by omega), List.getElem?_eq_none (by omega : bs.length ≤ i)]
    by_cases hn : i - bs.length < n
    · rw [List.getElem?_replicate_of_lt hn]
      rfl
    · rw [List.getElem?_eq_none (by simpa using hn)]

/-- What an accepted write of a line of LPDDR may change. -/
def footAccepted (s t : State) : State :=
  { s with free := t.free, dic := t.dic, lpddr := t.lpddr, lpddrPoison := t.lpddrPoison, lpddrBad := t.lpddrBad, chans := t.chans }

/-- What a write at a channel leaves of LPDDR's state. -/
def lpddrState (s : State) : Mem × List Nat × List Nat := (s.lpddr, s.lpddrPoison, s.lpddrBad)

theorem writeAccept_holds (line mask : Nat) (data : Bytes) (poison : Bool) (s : State) (hl : line < lpddrSize / 64)
    (hup : chanUp s (channelOf s (64 * line)) = true) :
    ∃ t, exec (.lpddrWriteAccept line mask data poison) s = .next t
      ∧ t = { s with free := t.free, dic := t.dic, lpddr := t.lpddr, lpddrPoison := t.lpddrPoison, lpddrBad := t.lpddrBad,
                     chans := t.chans }
      ∧ SameBytesBut s.lpddr t.lpddr (64 * line) 64
      ∧ (∀ i, i < 64 → natBit i mask = true → memRead t.lpddr (64 * line + i) = data.getD i 0)
      ∧ (∀ i, i < 64 → natBit i mask = false → nsHas s.lpddrBad line = false →
          memRead t.lpddr (64 * line + i) = memRead s.lpddr (64 * line + i))
      ∧ (mask % 2 ^ 64 = 2 ^ 64 - 1 → nsHas t.lpddrPoison line = poison)
      ∧ (mask % 2 ^ 64 ≠ 2 ^ 64 - 1 → nsHas t.lpddrPoison line = (poison || nsHas s.lpddrPoison line || nsHas s.lpddrBad line))
      ∧ nsHas t.lpddrBad line = false ∧ SameObjs s t [Obj.memDimStalledRequests] := by
  have hlt : 64 * line < lpddrSize := by
    unfold lpddrSize at *
    omega
  have hlen : (padTo 64 data).length = 64 := length_padTo 64 data
  have hpoison := poison_writeLpddrLine s line (mask % 2 ^ 64) (padTo 64 data) poison
  obtain ⟨v, hv, hframe, hbad, -, -⟩ := writeLpddrLine_facts s line (mask % 2 ^ 64) (padTo 64 data) poison
  have hrun : exec (.lpddrWriteAccept line mask data poison) s = .next (noteWrite v line) := by
    refine (need_lt hl _).trans (congrArg Host.Outcome.next ((if_pos hup).trans ?_))
    unfold writeLine
    rw [if_pos hlt, show 64 * line / 64 = line by omega, hv]
  rw [← hv] at hpoison
  obtain ⟨hm, hx⟩ := Prod.mk.inj (noteWrite_keeps lpddrState (fun _ _ => rfl) v line)
  obtain ⟨hpo, hba⟩ := Prod.mk.inj hx
  have hlpddr : v.lpddr = memStoreMask (writeBase s line (mask % 2 ^ 64)) (64 * line) (mask % 2 ^ 64) (padTo 64 data) :=
    (congrArg State.lpddr hframe :)
  have hobjs : SameObjs s (noteWrite v line) [Obj.memDimStalledRequests] :=
    ((SameObjs.refl s _).of_dic (congrArg State.dic hframe :)).trans (sameObjs_noteWrite v line)
  have hnote : noteWrite v line = footAccepted s (noteWrite v line) := by
    refine Eq.trans (noteWrite_keeps (footAccepted · (noteWrite v line)) (fun _ _ => rfl) v line : _ = footAccepted v _) ?_
    generalize noteWrite v line = t
    rw [hframe]
    rfl
  generalize noteWrite v line = t at *
  refine ⟨t, hrun, hnote, fun x hx => ?_, fun i hi hb => ?_, fun i hi hb hg => ?_, fun hf => ?_, fun hf => ?_, hba ▸ hbad, hobjs⟩
  · rw [hm, hlpddr, sameBytesBut_memStoreMask _ _ _ hlen x hx, sameBytesBut_writeBase s line _ x hx]
  · rw [hm, hlpddr, memByte_stored hlen _ _ _ _ hi (by rw [natBit_maskMod _ hi]; exact hb), getD_padTo hi]
  · rw [hm, hlpddr, memByte_unmasked hlen _ _ _ _ hi (by rw [natBit_maskMod _ hi]; exact hb), writeBase_good hg]
  · rw [hpo, hpoison]
    exact if_pos hf
  · rw [hpo, hpoison]
    exact if_neg hf

/-- Settles O15: scrub, reads and writes correct, poison, count and store, each where its line stands. -/
theorem linesScrubbedReadAndWritten : Obligations.LinesScrubbedReadAndWritten := by
  unfold Obligations.LinesScrubbedReadAndWritten
  exact ⟨tileScrub_holds, scrubRead_holds, scrubRead_idle, turns_hold, readComplete_holds, writeTurn_holds, readComplete_idle,
    writeAccept_holds⟩

end Sys2Proof.Machine

/-!
The deadlock watch, spills and restores (R162, R163); O14 settled.
-/

namespace Sys2Proof.Machine

/-! ### Contexts of an engine -/

theorem engineCtx_updEngine (s : State) (e i : Nat) (f : Engine → Engine) : engineCtx (updEngine s e f) i =
    if e = i ∧ i < s.engines.length then (f (s.engines.getD i {})).ctx else engineCtx s i := by
  refine (congrArg Engine.ctx (getD_modifyAt _ _ _ _ _)).trans ?_
  split <;> rfl

/-- A change of one descriptor's context shows in every context of that descriptor. -/
theorem mem_updCtx {s : State} {e q seq : Nat} {f : StreamCtx → StreamCtx} {c : StreamCtx} (hc : c ∈ engineCtx (updCtx s e q seq f) e)
    (hq : c.d.queue = q) (hs : c.d.seq = seq) : ∃ x, c = f x := by
  unfold updCtx at hc
  rw [engineCtx_updEngine] at hc
  by_cases he : e < s.engines.length
  · rw [if_pos ⟨rfl, he⟩] at hc
    obtain ⟨x, -, rfl⟩ := List.mem_map.1 hc
    by_cases hx : x.d.queue = q ∧ x.d.seq = seq
    · exact ⟨x, if_pos hx⟩
    · rw [if_neg hx] at hq hs
      exact absurd ⟨hq, hs⟩ hx
  · rw [if_neg (fun h => he h.2)] at hc
    unfold engineCtx at hc
    rw [List.getD_eq_default _ _ (by omega)] at hc
    cases hc

/-! ### DEADLOCK_WATCH_FIRE (R162) -/

/-- A waiting claim for which the watch fires in a slice. -/
def watched (s : State) (slice : Nat) (w : Claim) : Bool :=
  w.slice == slice && !w.halted && !w.reclaim
    && decide (w.since + us s.watchEff ≤ s.now) && !(holders s w).isEmpty && (holders s w).all (stalled s)
    && !s.spills.any (fun x => x.stage == 0 && x.waiter == (w.queue, w.seq))

/-- The holders of a waiting claim that are not being spilled. -/
def unspilled (s : State) (w : Claim) : List Claim :=
  (holders s w).filter (fun c => !s.spills.any (fun x => x.holder.queue == c.queue && x.holder.seq == c.seq))

theorem watchFire_breaks {s : State} {slice : Nat} {w : Claim} (hw : s.waitClaims.find? (watched s slice) = some w)
    (hr : schedRuns s (halfOf64 slice) = true) : watchFire s slice = breakFor s w := by
  unfold watchFire
  rw [show s.waitClaims.find? (fun (w : Claim) => w.slice == slice && !w.halted && !w.reclaim
      && decide (w.since + us s.watchEff ≤ s.now) && !(holders s w).isEmpty && (holders s w).all (stalled s)
      && !s.spills.any (fun (x : Spill) => x.stage == 0 && x.waiter == (w.queue, w.seq))) = some w from hw]
  exact if_pos hr

/-- A range that begins to be spilled, before its stream stops. -/
def spillBegun (s : State) (w h : Claim) : State :=
  journal (objInc { s with spills := s.spills ++ [{ holder := h, waiter := (w.queue, w.seq), stage := 0, bytes := [], poison := [] }] }
    Obj.deadlockBreaks) .deadlockSpill [h.slice, h.queue, w.queue, 4096 * h.pages.length]

theorem spills_spillBegun (s : State) (w h : Claim) : (spillBegun s w h).spills
    = s.spills ++ [{ holder := h, waiter := (w.queue, w.seq), stage := 0, bytes := [], poison := [] }] :=
  journal_keeps State.spills (fun _ _ => rfl) _ _ _

/-- What a range that begins to be spilled may change. -/
def footBegun (s t : State) : State := { s with dic := t.dic, engines := t.engines, spills := t.spills, obs := t.obs }

section
variable {s : State} {w h : Claim} (hp : pickHolder s (unspilled s w) = some h)
include hp

theorem breakFor_spills (hroom : spillUsed s + 4096 * h.pages.length ≤ s.spillEff * 1048576) : breakFor s w =
    updCtx (spillBegun s w h) h.slice h.queue h.seq (fun c => { c with ready := false }) := by
  unfold breakFor
  rw [show pickHolder s ((holders s w).filter (fun (c : Claim) =>
      !s.spills.any (fun (x : Spill) => x.holder.queue == c.queue && x.holder.seq == c.seq))) = some h from hp]
  exact if_neg (by omega)

theorem breakFor_full (hroom : s.spillEff * 1048576 < spillUsed s + 4096 * h.pages.length) : breakFor s w =
    raiseTrap (updQ { objInc s Obj.deadlockSpillFull with waitClaims := s.waitClaims.map (fun (c : Claim) =>
        if c.queue = w.queue ∧ c.seq = w.seq then { c with halted := true } else c) } w.queue
      (fun x => { x with trapped := true, state := if x.state = 1 then 2 else x.state })) w.queue := by
  unfold breakFor
  rw [show pickHolder s ((holders s w).filter (fun (c : Claim) =>
      !s.spills.any (fun (x : Spill) => x.holder.queue == c.queue && x.holder.seq == c.seq))) = some h from hp]
  exact if_pos hroom

end

theorem counted_spillBegun (s : State) (w h : Claim) : Counted s (spillBegun s w h) Obj.deadlockBreaks 1
    ∧ SameObjs s (spillBegun s w h) (Obj.deadlockBreaks :: journalObjs) := by
  have hc : Counted s (objInc { s with spills := s.spills ++
      [{ holder := h, waiter := (w.queue, w.seq), stage := 0, bytes := [], poison := [] }] } Obj.deadlockBreaks) Obj.deadlockBreaks 1 :=
    objGet_objInc_self _ _
  have hs : SameObjs s (objInc { s with spills := s.spills ++
      [{ holder := h, waiter := (w.queue, w.seq), stage := 0, bytes := [], poison := [] }] } Obj.deadlockBreaks)
      (Obj.deadlockBreaks :: journalObjs) := SameObjs.objInc ((SameObjs.refl s _).of_dic rfl) _ List.mem_cons_self
  refine ⟨counted_trans hc (SameObjs.journal (SameObjs.refl _ journalObjs) _ _ (fun _ hx => hx)) (by decide), ?_⟩
  exact hs.journal _ _ (List.subset_cons_self _ _)

theorem watchFire_holds (slice : Nat) (s : State) (w h : Claim) (hs : slice < 64)
    (hw : s.waitClaims.find? (watched s slice) = some w) (hr : schedRuns s (halfOf64 slice) = true)
    (hp : pickHolder s (unspilled s w) = some h) (hroom : spillUsed s + 4096 * h.pages.length ≤ s.spillEff * 1048576) :
    ∃ t, exec (.deadlockWatchFire slice) s = .next t
      ∧ t = { s with dic := t.dic, engines := t.engines, spills := t.spills, obs := t.obs }
      ∧ t.spills = s.spills ++ [{ holder := h, waiter := (w.queue, w.seq), stage := 0, bytes := [], poison := [] }]
      ∧ (∀ c ∈ engineCtx t h.slice, c.d.queue = h.queue → c.d.seq = h.seq → c.ready = false)
      ∧ Counted s t Obj.deadlockBreaks 1 ∧ SameObjs s t (Obj.deadlockBreaks :: journalObjs) := by
  have hrun := (watchFire_breaks hw hr).trans (breakFor_spills hp hroom)
  obtain ⟨hcount, hsame⟩ := counted_spillBegun s w h
  have hframe : spillBegun s w h = footBegun s (spillBegun s w h) := journal_keeps (footBegun · (spillBegun s w h)) (fun _ _ => rfl) _ _ _
  have hspills := spills_spillBegun s w h
  generalize spillBegun s w h = u at *
  refine ⟨_, (need_lt hs _).trans (congrArg Host.Outcome.next hrun), ?_, hspills, fun c hc hq hse => ?_, hcount, hsame.of_dic rfl⟩
  · refine Eq.trans ?_ (congrArg (fun x => updCtx x h.slice h.queue h.seq (fun c => { c with ready := false })) hframe)
    rfl
  · obtain ⟨x, rfl⟩ := mem_updCtx hc hq hse
    rfl

theorem watchFull_holds (slice : Nat) (s : State) (w h : Claim) (v : Queue) (hs : slice < 64)
    (hw : s.waitClaims.find? (watched s slice) = some w) (hr : schedRuns s (halfOf64 slice) = true)
    (hp : pickHolder s (unspilled s w) = some h) (hroom : s.spillEff * 1048576 < spillUsed s + 4096 * h.pages.length)
    (hv : smGet s.queues w.queue = some v) :
    ∃ t v', exec (.deadlockWatchFire slice) s = .next t
      ∧ t = { s with dic := t.dic, waitClaims := t.waitClaims, queues := t.queues, out := t.out, host := t.host }
      ∧ Counted s t Obj.deadlockSpillFull 1 ∧ SameObjs s t [Obj.deadlockSpillFull] ∧ smGet t.queues w.queue = some v'
      ∧ v'.trapped = true ∧ v'.trapPend = true ∧ v'.state = (if v.state = 1 then 2 else v.state)
      ∧ (∀ c ∈ t.waitClaims, c.queue = w.queue → c.seq = w.seq → c.halted = true) ∧ t.waitClaims.length = s.waitClaims.length := by
  have hrun := (watchFire_breaks hw hr).trans (breakFor_full hp hroom)
  have hcount : Counted s (objInc s Obj.deadlockSpillFull) Obj.deadlockSpillFull 1 := objGet_objInc_self _ _
  have hsame : SameObjs s (objInc s Obj.deadlockSpillFull) [Obj.deadlockSpillFull] := (SameObjs.refl s _).objInc _ List.mem_cons_self
  have hhalt : ∀ c ∈ s.waitClaims.map (fun (c : Claim) => if c.queue = w.queue ∧ c.seq = w.seq then { c with halted := true } else c),
      c.queue = w.queue → c.seq = w.seq → c.halted = true := fun c hc hq hse => by
    obtain ⟨x, -, rfl⟩ := List.mem_map.1 hc
    by_cases hx : x.queue = w.queue ∧ x.seq = w.seq
    · rw [if_pos hx]
    · rw [if_neg hx] at hq hse
      exact absurd ⟨hq, hse⟩ hx
  have hlen : (s.waitClaims.map (fun (c : Claim) => if c.queue = w.queue ∧ c.seq = w.seq then { c with halted := true } else c)).length
      = s.waitClaims.length := List.length_map _
  generalize s.waitClaims.map (fun (c : Claim) => if c.queue = w.queue ∧ c.seq = w.seq then { c with halted := true } else c) = ws at *
  have hu : ∃ u, u = updQ { objInc s Obj.deadlockSpillFull with waitClaims := ws } w.queue
        (fun x => { x with trapped := true, state := if x.state = 1 then 2 else x.state })
      ∧ u = { s with dic := u.dic, waitClaims := ws, queues := u.queues } ∧ u.dic = (objInc s Obj.deadlockSpillFull).dic
      ∧ smGet u.queues w.queue = some { v with trapped := true, state := if v.state = 1 then 2 else v.state } := by
    refine ⟨_, rfl, rfl, rfl, ?_⟩
    refine (smGet_updQ_self _ _ _).trans ?_
    rw [show smGet ({ objInc s Obj.deadlockSpillFull with waitClaims := ws } : State).queues w.queue = some v from hv]
    rfl
  obtain ⟨u, hu, huframe, hudic, huq⟩ := hu
  rw [← hu] at hrun
  obtain ⟨⟨htold, -, hframe, -⟩, hdic⟩ := queueTells_updQ (fun x => { x with trapPend := true }) huq
  unfold raiseTrap at hrun
  generalize sendQueueIrqs (updQ u w.queue (fun x => { x with trapPend := true })) w.queue = t at *
  have hwait : t.waitClaims = ws := (congrArg State.waitClaims hframe :).trans (congrArg State.waitClaims huframe :)
  have hobj := hsame.of_dic (hdic.trans hudic)
  refine ⟨t, _, (need_lt hs _).trans (congrArg Host.Outcome.next hrun), ?_, ?_, hobj, htold, rfl, rfl, rfl, ?_, ?_⟩
  · rw [hwait]
    refine hframe.trans ?_
    generalize t.out = o, t.host = ho, t.queues = qs, t.dic = di
    rw [huframe]
  · exact (congrArg (fun d => objGet { s with dic := d } Obj.deadlockSpillFull) (hdic.trans hudic)).trans hcount
  · rw [hwait]
    exact hhalt
  · rw [hwait, hlen]

/-! ### SPILL_COPY_DONE (R163) -/

/-- A range to be copied out of a slice, and the copy may be made. -/
def copiesOut (s : State) (slice : Nat) (x : Spill) : Bool :=
  x.holder.slice == slice && x.stage == 0 && !startedOver s x.holder && !breakerWaits s x.holder

/-- A spill with its range copied out. -/
def copiedOut (s : State) (slice : Nat) (x : Spill) : Spill :=
  { x with stage := 1, bytes := s.tile.filter (fun c => pageHas slice x.holder.pages c.1)
           poison := s.tilePoison.filter (fun l => pageHas slice x.holder.pages (64 * l)) }

/-- A state in which a range has been copied out and its claim released. -/
def rangeSpilled (s : State) (slice : Nat) (x : Spill) : State :=
  objAdd { s with
    spills := s.spills.map (fun (y : Spill) => if y = x then { y with stage := 1
                                                                      bytes := s.tile.filter (fun c => pageHas slice x.holder.pages c.1)
                                                                      poison := s.tilePoison.filter (fun l => pageHas slice x.holder.pages (64 * l)) } else y)
    claims := s.claims.filter (fun (c : Claim) => !(c.queue == x.holder.queue && c.seq == x.holder.seq)) }
    Obj.spillBytes (4096 * x.holder.pages.length)

theorem spillDone_copies {s : State} {slice : Nat} {x : Spill} (hx : s.spills.find? (copiesOut s slice) = some x) : spillDone s slice =
    { grantWaiter (rangeSpilled s slice x) x.waiter with
      waitClaims := { x.holder with reclaim := true, since := s.now } :: (grantWaiter (rangeSpilled s slice x) x.waiter).waitClaims } := by
  have hnow : (grantWaiter (rangeSpilled s slice x) x.waiter).now = s.now := grantWaiter_keeps State.now (fun _ _ => rfl) _ _
  rw [← hnow]
  unfold spillDone
  rw [show s.spills.find? (fun (x : Spill) => x.holder.slice == slice && x.stage == 0 && !startedOver s x.holder
      && !breakerWaits s x.holder) = some x from hx]
  rfl

theorem breakFor_cases (s : State) (w : Claim) : breakFor s w = s ∨ (∃ h, pickHolder s (unspilled s w) = some h
    ∧ spillUsed s + 4096 * h.pages.length ≤ s.spillEff * 1048576)
    ∨ ∃ h, pickHolder s (unspilled s w) = some h ∧ s.spillEff * 1048576 < spillUsed s + 4096 * h.pages.length := by
  cases hp : pickHolder s (unspilled s w) with
  | none =>
    refine .inl ?_
    unfold breakFor
    rw [show pickHolder s ((holders s w).filter (fun (c : Claim) =>
      !s.spills.any (fun (x : Spill) => x.holder.queue == c.queue && x.holder.seq == c.seq))) = none from hp]
  | some h =>
    by_cases hr : s.spillEff * 1048576 < spillUsed s + 4096 * h.pages.length
    · exact .inr (.inr ⟨h, rfl, hr⟩)
    · exact .inr (.inl ⟨h, rfl, by omega⟩)

/-- The objects that a further holder's spill may change. -/
def breakObjs : List Nat := [Obj.deadlockBreaks, Obj.deadlockSpillFull] ++ journalObjs

theorem breakFor_facts (s : State) (w : Claim) : SameObjs s (breakFor s w) breakObjs ∧ ∀ y ∈ s.spills, y ∈ (breakFor s w).spills := by
  obtain h | ⟨h, hp, hr⟩ | ⟨h, hp, hr⟩ := breakFor_cases s w
  · rw [h]
    exact ⟨SameObjs.refl s _, fun y hy => hy⟩
  · rw [breakFor_spills hp hr]
    refine ⟨((counted_spillBegun s w h).2.mono (by decide)).of_dic rfl, fun y hy => ?_⟩
    show y ∈ (spillBegun s w h).spills
    rw [spills_spillBegun]
    exact List.mem_append_left _ hy
  · rw [breakFor_full hp hr]
    refine ⟨?_, fun y hy => ?_⟩
    · exact SameObjs.of_dic ((SameObjs.refl s breakObjs).objInc Obj.deadlockSpillFull (by decide))
        (raiseTrap_keeps State.dic (fun _ _ => rfl) _ _)
    · rw [raiseTrap_keeps State.spills (fun _ _ => rfl)]
      exact hy

theorem grantWaiter_facts (s : State) (p : Nat × Nat) :
    SameObjs s (grantWaiter s p) breakObjs ∧ ∀ y ∈ s.spills, y ∈ (grantWaiter s p).spills := by
  unfold grantWaiter
  split
  · exact ⟨SameObjs.refl s _, fun y hy => hy⟩
  · split
    · rw [grantClaim_keeps State.spills (fun _ _ => rfl)]
      exact ⟨(SameObjs.refl s _).of_dic (grantClaim_keeps State.dic (fun _ _ => rfl) s _), fun y hy => hy⟩
    · split
      · exact breakFor_facts s _
      · exact ⟨SameObjs.refl s _, fun y hy => hy⟩

theorem spillDone_holds (slice : Nat) (s : State) (x : Spill) (hs : slice < 64) (hx : s.spills.find? (copiesOut s slice) = some x)
    (_ : (x.holder.queue, x.holder.seq) ≠ x.waiter) :
    ∃ t y, exec (.spillCopyDone slice) s = .next t ∧ y ∈ t.spills ∧ y.holder = x.holder ∧ y.stage = 1
      ∧ y.bytes = s.tile.filter (fun c => pageHas slice x.holder.pages c.1)
      ∧ y.poison = s.tilePoison.filter (fun l => pageHas slice x.holder.pages (64 * l))
      ∧ t.waitClaims.head? = some { x.holder with reclaim := true, since := s.now }
      ∧ Counted s t Obj.spillBytes (4096 * x.holder.pages.length) ∧ t.tile = s.tile ∧ t.lpddr = s.lpddr
      ∧ SameObjs s t ([Obj.spillBytes, Obj.deadlockBreaks, Obj.deadlockSpillFull] ++ journalObjs) := by
  have hrun := spillDone_copies hx
  have hmem : copiedOut s slice x ∈ (rangeSpilled s slice x).spills :=
    List.mem_map.2 ⟨x, List.mem_of_find?_eq_some hx, if_pos rfl⟩
  have hcount : Counted s (rangeSpilled s slice x) Obj.spillBytes (4096 * x.holder.pages.length) := objGet_objAdd_self _ _ _
  have hsame : SameObjs s (rangeSpilled s slice x) [Obj.spillBytes] :=
    SameObjs.objAdd ((SameObjs.refl s _).of_dic rfl) _ _ List.mem_cons_self
  have hmems : memories (rangeSpilled s slice x) = memories s := rfl
  obtain ⟨hobj, hspills⟩ := grantWaiter_facts (rangeSpilled s slice x) x.waiter
  have hkeep : memories (grantWaiter (rangeSpilled s slice x) x.waiter) = memories s :=
    (grantWaiter_keeps memories (fun _ _ => rfl) _ _).trans hmems
  generalize rangeSpilled s slice x = u at *
  obtain ⟨htile, hlpddr⟩ := Prod.mk.inj hkeep
  generalize grantWaiter u x.waiter = t at *
  exact ⟨_, copiedOut s slice x, (need_lt hs _).trans (congrArg Host.Outcome.next hrun), hspills _ hmem, rfl, rfl, rfl, rfl, rfl,
    (counted_trans hcount hobj (by decide) : _), htile, hlpddr, ((hsame.mono (by decide)).trans (hobj.mono (by decide))).of_dic rfl⟩

theorem spillDone_idle (slice : Nat) (s : State) (hs : slice < 64) (h : ∀ x ∈ s.spills, x.holder.slice = slice → x.stage = 0 →
      startedOver s x.holder = true ∨ breakerWaits s x.holder = true) : exec (.spillCopyDone slice) s = .next s := by
  have hno : s.spills.find? (fun (x : Spill) => x.holder.slice == slice && x.stage == 0 && !startedOver s x.holder
      && !breakerWaits s x.holder) = none := by
    refine List.find?_eq_none.2 (fun x hx hc => ?_)
    simp only [Bool.and_eq_true, beq_iff_eq, Bool.not_eq_true'] at hc
    obtain ⟨⟨⟨h1, h2⟩, h3⟩, h4⟩ := hc
    obtain h5 | h5 := h x hx h1 h2
    · rw [h3] at h5
      cases h5
    · rw [h4] at h5
      cases h5
  refine (need_lt hs _).trans (congrArg Host.Outcome.next ?_)
  unfold spillDone
  rw [hno]

/-! ### SPILL_RECLAIM (R163) -/

theorem reclaim_holds (slice : Nat) (s : State) (x : Spill) (hs : slice < 64)
    (hx : s.spills.find? (fun x => x.holder.slice == slice && x.stage == 1 && schedRuns s (halfOf64 slice)) = some x)
    (hrel : ∀ o v, x.holder.release = some (o, v) → reached s o v = false) (hheld : (heldClaims s slice).length < 16)
    (hmeet : (heldClaims s slice).any (fun c => meets c.pages x.holder.pages) = false) :
    ∃ t y, exec (.spillReclaim slice) s = .next t
      ∧ t = { s with claims := s.claims ++ [{ x.holder with reclaim := false, since := s.now }], waitClaims := t.waitClaims,
                     spills := t.spills }
      ∧ y ∈ t.spills ∧ y = { x with stage := 2 } := by
  have hrun : reclaim s slice = { s with
      spills := s.spills.map (fun (y : Spill) => if y = x then { y with stage := 2 } else y)
      waitClaims := s.waitClaims.filter (fun (c : Claim) => !(c.queue == x.holder.queue && c.seq == x.holder.seq))
      claims := s.claims ++ [{ x.holder with reclaim := false, since := s.now }] } := by
    unfold reclaim
    rw [hx]
    dsimp only
    cases hr : x.holder.release with
    | none =>
      rw [if_neg Bool.false_ne_true, if_pos ⟨hheld, by rw [hmeet]; rfl⟩]
    | some ov =>
      rw [if_neg (by simp [hrel ov.1 ov.2 hr]), if_pos ⟨hheld, by rw [hmeet]; rfl⟩]
  exact ⟨_, _, (need_lt hs _).trans (congrArg Host.Outcome.next hrun), rfl,
    List.mem_map.2 ⟨x, List.mem_of_find?_eq_some hx, if_pos rfl⟩, rfl⟩

/-- While its half's scheduler restarts, neither the watch nor the breaker acts. -/
theorem breaker_idle (slice : Nat) (s : State) (hs : slice < 64) (h : schedRuns s (halfOf64 slice) = false) :
    exec (.deadlockWatchFire slice) s = .next s ∧ exec (.spillReclaim slice) s = .next s := by
  constructor
  · refine (need_lt hs _).trans (congrArg Host.Outcome.next ?_)
    unfold watchFire
    split
    · rfl
    · exact if_neg (by rw [h]; decide)
  · have hno : s.spills.find? (fun (x : Spill) => x.holder.slice == slice && x.stage == 1 && schedRuns s (halfOf64 slice)) = none := by
      refine List.find?_eq_none.2 (fun x _ hc => ?_)
      rw [h, Bool.and_false] at hc
      cases hc
    refine (need_lt hs _).trans (congrArg Host.Outcome.next ?_)
    unfold reclaim
    rw [hno]

/-! ### RESTORE_COPY_DONE (R163) -/

theorem memRead_putCells_out (m : Mem) (l : List (Nat × Byte)) (a : Nat) (h : smGet l a = none) : memRead (putCells m l) a = memRead m a := by
  induction l generalizing m with
  | nil => rfl
  | cons e r ih =>
    obtain ⟨k, b⟩ := e
    rw [smGet] at h
    by_cases hk : a = k
    · rw [if_pos hk] at h
      cases h
    · rw [if_neg hk] at h
      exact (ih _ h).trans (memRead_memWrite_ne m k a b hk)

theorem smGet_below {α : Type} {k : Nat} {b : α} {r : SMap α} (h : smWf ((k, b) :: r) = true) {a : Nat} (ha : a ≤ k) : smGet r a = none := by
  induction r generalizing k b with
  | nil => rfl
  | cons f r ih =>
    obtain ⟨k', b'⟩ := f
    rw [smWf, Bool.and_eq_true, decide_eq_true_eq] at h
    obtain ⟨hlt, hr⟩ := h
    rw [smGet, if_neg (by omega)]
    exact ih hr (by omega)

theorem memRead_putCells_in (m : Mem) (l : List (Nat × Byte)) (a : Nat) (hw : smWf l = true) (hm : memRead m a = emptyByte) :
    memRead (putCells m l) a = memRead l a := by
  induction l generalizing m with
  | nil => exact hm
  | cons e r ih =>
    obtain ⟨k, b⟩ := e
    by_cases hk : a = k
    · subst hk
      refine (memRead_putCells_out _ r a (smGet_below hw le_rfl)).trans ((memRead_memWrite_self m a b).trans ?_)
      simp [memRead, smGetD, smGet]
    · refine (ih (memWrite m k b) (smWf_tail _ _ hw) ((memRead_memWrite_ne m k a b hk).trans hm)).trans ?_
      simp [memRead, smGetD, smGet, hk]

theorem restoreDone_copies {s : State} {slice : Nat} {x : Spill}
    (hx : s.spills.find? (fun x => x.holder.slice == slice && x.stage == 2 && !breakerWaits s x.holder) = some x)
    (hc : claimHeld s x.holder.queue x.holder.seq = true) : restoreDone s slice =
      updCtx { s with
        tile := putCells (s.tile.filter (fun c => !pageHas slice x.holder.pages c.1)) x.bytes
        tilePoison := x.poison.foldl nsAdd (s.tilePoison.filter (fun l => !pageHas slice x.holder.pages (64 * l)))
        spills := s.spills.filter (fun (y : Spill) => y != x) } slice x.holder.queue x.holder.seq
          (fun c => { c with ready := true, lastMove := s.now }) := by
  unfold restoreDone
  rw [hx]
  exact if_neg (by simp [hc])

theorem restoreDone_holds (slice : Nat) (s : State) (x : Spill) (hs : slice < 64)
    (hx : s.spills.find? (fun x => x.holder.slice == slice && x.stage == 2 && !breakerWaits s x.holder) = some x)
    (hc : claimHeld s x.holder.queue x.holder.seq = true)
    (hb : x.bytes = x.bytes.filter (fun c => pageHas slice x.holder.pages c.1)) (hw : smWf x.bytes = true) :
    ∃ t, exec (.restoreCopyDone slice) s = .next t
      ∧ t = { s with engines := t.engines, tile := t.tile, tilePoison := t.tilePoison, spills := s.spills.filter (fun y => y != x) }
      ∧ (∀ a, pageHas slice x.holder.pages a = true → memRead t.tile a = memRead x.bytes a)
      ∧ (∀ a, pageHas slice x.holder.pages a = false → memRead t.tile a = memRead s.tile a)
      ∧ (∀ c ∈ engineCtx t slice, c.d.queue = x.holder.queue → c.d.seq = x.holder.seq → c.ready = true ∧ c.lastMove = s.now) := by
  have hkept (a : Nat) := smGet_filter s.tile (fun a => !pageHas slice x.holder.pages a) a
  refine ⟨_, (need_lt hs _).trans (congrArg Host.Outcome.next (restoreDone_copies hx hc)), rfl, fun a ha => ?_, fun a ha => ?_,
    fun c hc' hq hse => ?_⟩
  · refine memRead_putCells_in _ _ a hw ?_
    rw [memRead, smGetD, hkept, if_neg (by rw [ha]; decide)]
    rfl
  · refine (memRead_putCells_out _ _ a ?_).trans ?_
    · rw [hb, smGet_filter, if_neg (by rw [ha]; decide)]
    · rw [memRead, smGetD, hkept, if_pos (by rw [ha]; rfl)]
      rfl
  · obtain ⟨y, rfl⟩ := mem_updCtx hc' hq hse
    exact ⟨rfl, rfl⟩

/-- Settles O14: the watch begins a spill, the range is copied out, claimed again and copied back. -/
theorem breakerSpillsAndRestores : Obligations.BreakerSpillsAndRestores := by
  unfold Obligations.BreakerSpillsAndRestores
  exact ⟨watchFire_holds, watchFull_holds, spillDone_holds, reclaim_holds, restoreDone_holds, spillDone_idle, breaker_idle⟩

end Sys2Proof.Machine

/-!
A stream that stores (O12): an Out request that reads the last unit of its tile signals the tile at once (R140), so that a
synchronisation object changes where the statement lets none change.
-/

namespace Sys2Proof.Machine

/-- The words of an Out descriptor of one tile of one unit of a byte, to LPDDR offset 0, that signals synchronisation object 0. -/
def oneByteOut : List Word64 :=
  [BitVec.ofNat 64 (2 ^ 22), 0, BitVec.ofNat 64 (1 + 2 ^ 32), BitVec.ofNat 64 (1 + 2 ^ 32), 1, 0, 0, 0, 0, 0, 0, 0, 0,
    BitVec.ofNat 64 (2 ^ 31), 0, 0]

/-- That descriptor, running on its engine. -/
def oneByteCtx : StreamCtx := { d := { queue := 0, seq := 0, words := oneByteOut }, started := true, ready := true }

/-- A module whose one engine runs it. -/
def oneByteState : State := { State.reset with engines := [{ ctx := [oneByteCtx] }] }

/-- The module once the request has been made. -/
def oneByteMade : State := issueScan oneByteState 0 [] [0, 1, 2, 3]

theorem oneByteMade_signals : syncGet oneByteMade 0 ≠ syncGet oneByteState 0 := by decide

/-- Refutes O12: the request of an Out stream finishes its tile, whose signal changes a synchronisation object. -/
theorem not_streamsClaimPagesAndMoveLines : ¬ Obligations.StreamsClaimPagesAndMoveLines := by
  unfold Obligations.StreamsClaimPagesAndMoveLines
  intro h
  obtain ⟨-, -, -, -, -, hissue, -⟩ := h
  obtain ⟨t, -, -, hexec, -, -, -, -, -, -, -, -, -, -, hframe, -⟩ := hissue 0 0 1 0 [] false oneByteState oneByteCtx
    { id := 0, u0 := 0, n := 1, scale := false, far := 0 } (by decide) (by decide) rfl (by decide) (by decide) rfl rfl (by decide)
    (by decide) (by decide) (by decide) (fun _ => ⟨by decide, by decide, by decide⟩) (fun h => absurd (by decide) h)
  have ht : oneByteMade = t := Host.Outcome.next.inj hexec
  refine oneByteMade_signals ?_
  rw [ht, hframe]
  rfl

end Sys2Proof.Machine

/-!
LAYER_OPEN: a layer's attempt, read in order and numbered (R120, R123, R191, R192).
-/

namespace Sys2Proof.Machine

/-! ### Reads that other changes leave as they are -/

/-- What a queue's scheduler changes while it starts an attempt. -/
def footAttempt (s t : State) : State :=
  { s with dic := t.dic, layers := t.layers, claims := t.claims, queues := t.queues, sync := t.sync, waiters := t.waiters }

theorem readClean_answer (s t : State) (addr n : Nat) (f : Fetch) :
    (readClean (footAttempt s t) addr n f).2 = (readClean s addr n f).2 := by
  unfold readClean
  cases spaceOf addr with
  | localOff off =>
    dsimp only
    by_cases h1 : snoopFailed s (lpddrLines off n) = true
    · refine (congrArg Prod.snd (if_pos h1)).trans (Eq.trans ?_ (congrArg Prod.snd (if_pos h1)).symm)
      rfl
    · refine (congrArg Prod.snd (if_neg h1)).trans (Eq.trans ?_ (congrArg Prod.snd (if_neg h1)).symm)
      by_cases h2 : plainRun s off n = true
      · refine (congrArg Prod.snd (if_pos h2)).trans (Eq.trans ?_ (congrArg Prod.snd (if_pos h2)).symm)
        rfl
      · refine (congrArg Prod.snd (if_neg h2)).trans (Eq.trans ?_ (congrArg Prod.snd (if_neg h2)).symm)
        rfl
  | hostAddr a =>
    dsimp only
    by_cases h1 : s.host.gen = 0
    · refine (congrArg Prod.snd (if_pos h1)).trans (Eq.trans ?_ (congrArg Prod.snd (if_pos h1)).symm)
      rfl
    · refine (congrArg Prod.snd (if_neg h1)).trans (Eq.trans ?_ (congrArg Prod.snd (if_neg h1)).symm)
      cases f <;> rfl
  | fabric c off => rfl
  | bad => rfl

/-- A read that gives bytes leaves the state as it was. -/
theorem readClean_clean {s : State} {addr n : Nat} {f : Fetch} (h : (readClean s addr n f).2 ≠ none) :
    ∃ bs, readClean s addr n f = (s, some bs) := by
  unfold readClean at h ⊢
  split at h
  next off =>
    split at h
    · exact absurd rfl h
    · split at h
      next h1 h2 =>
        rw [if_neg h1, if_pos h2]
        split at h
        · exact absurd rfl h
        next h3 => exact ⟨_, by rw [if_neg h3]⟩
      · exact absurd rfl h
  next a =>
    split at h
    · exact absurd rfl h
    next h1 =>
      rw [if_neg h1]
      split at h
      next bs p =>
        cases p with
        | true => exact absurd rfl h
        | false => exact ⟨_, rfl⟩
      · exact absurd rfl h
  · exact absurd rfl h

/-! ### An attempt starts (R120, R191) -/

theorem queueView_addFetched (s : State) (q p seq : Nat) (ws : List Word64) (b : Bool) :
    queueView unfetched p (addFetched s q seq ws b) = queueView unfetched p s := by
  unfold addFetched
  split
  · rfl
  · exact queueView_updQ unfetched p s q _ (fun _ => rfl)

theorem OthersKept.addFetched {s t : State} {q : Nat} (h : OthersKept s t q) (seq : Nat) (ws : List Word64) (b : Bool) :
    OthersKept s (addFetched t q seq ws b) q := by
  unfold Machine.addFetched
  split
  · exact h
  · exact h.updQ _

theorem readVariant_facts (k : Nat) : ∀ (s : State) (q addr seq : Nat) (list : List Fetch),
    (∀ i, i < k → (readClean s (addr + 128 * i) 128 (list.getD i .hostFault)).2 ≠ none) →
    ∃ t, t = readVariant s q addr seq list k ∧ t = { s with queues := t.queues }
      ∧ queueView unfetched q t = queueView unfetched q s ∧ OthersKept s t q := by
  induction k with
  | zero => exact fun s q addr seq list _ => ⟨_, rfl, rfl, rfl, OthersKept.refl s q⟩
  | succ k ih =>
    intro s q addr seq list h
    have h0 := h 0 (Nat.succ_pos k)
    rw [Nat.mul_zero, Nat.add_zero] at h0
    have hhead : list.headD .hostFault = list.getD 0 .hostFault := by cases list <;> rfl
    obtain ⟨bs, hbs⟩ := readClean_clean h0
    have hstep : readVariant s q addr seq list (k + 1)
        = readVariant (addFetched s q seq (wordsOf bs 16) true) q (addr + 128) (seq + 1) (list.drop 1) k := by
      rw [readVariant, hhead, hbs]
    have hadd : addFetched s q seq (wordsOf bs 16) true = footAttempt s (addFetched s q seq (wordsOf bs 16) true) :=
      addFetched_keeps (footAttempt · (addFetched s q seq (wordsOf bs 16) true)) (fun _ _ => rfl) s q seq _ true
    have hframe : addFetched s q seq (wordsOf bs 16) true = { s with queues := (addFetched s q seq (wordsOf bs 16) true).queues } :=
      addFetched_keeps (footQueues · (addFetched s q seq (wordsOf bs 16) true)) (fun _ _ => rfl) s q seq _ true
    have hview := queueView_addFetched s q q seq (wordsOf bs 16) true
    have hother := (OthersKept.refl s q).addFetched seq (wordsOf bs 16) true
    rw [hstep]
    generalize addFetched s q seq (wordsOf bs 16) true = u at *
    obtain ⟨t, ht, htf, htv, hto⟩ := ih u q (addr + 128) (seq + 1) (list.drop 1) (fun i hi => by
      rw [hadd, readClean_answer, show addr + 128 + 128 * i = addr + 128 * (i + 1) by omega, List.getD_eq_getElem?_getD,
        List.getElem?_drop, Nat.add_comm 1 i, ← List.getD_eq_getElem?_getD]
      exact h (i + 1) (by omega))
    refine ⟨t, ht, htf.trans ?_, htv.trans hview, hother.trans hto⟩
    generalize t.queues = qs
    rw [hframe]

/-- An attempt at a layer's rung, numbered from its queue's next DescSeq. -/
def attemptOf (l : Layer) (v : Queue) : Layer :=
  { l with firstSeq := v.nextSeq, seqs := (List.range (layLen l.words l.rung)).map (fun i => v.nextSeq + i)
           left := (List.range (layLen l.words l.rung)).map (fun i => v.nextSeq + i), summary := 0, sawOF := false, cut := false }

theorem startAttempt_facts {s : State} {l : Layer} {list : List Fetch} {v : Queue} (hv : smGet s.queues l.queue = some v)
    (h : ∀ i, i < layLen l.words l.rung →
      (readClean s (layAddr l.words l.rung + 128 * i) 128 (list.getD i .hostFault)).2 ≠ none) :
    ∃ t x, t = startAttempt s l list ∧ t = { s with queues := t.queues, layers := t.layers }
      ∧ t.layers = s.layers.filter (fun (x : Layer) => !(x.queue == l.queue && x.seq == l.seq)) ++ [attemptOf l v]
      ∧ smGet t.queues l.queue = some x ∧ x.nextSeq = v.nextSeq + layLen l.words l.rung ∧ x.outstanding = v.outstanding
      ∧ OthersKept s t l.queue := by
  have hu : ∃ u, u = updQ { s with layers := s.layers.filter (fun (x : Layer) => !(x.queue == l.queue && x.seq == l.seq))
        ++ [attemptOf l v] } l.queue (fun x => { x with nextSeq := x.nextSeq + layLen l.words l.rung })
      ∧ u = footAttempt s u ∧ u = { s with queues := u.queues, layers := u.layers }
      ∧ u.layers = s.layers.filter (fun (x : Layer) => !(x.queue == l.queue && x.seq == l.seq)) ++ [attemptOf l v]
      ∧ smGet u.queues l.queue = some { v with nextSeq := v.nextSeq + layLen l.words l.rung } ∧ OthersKept s u l.queue := by
    refine ⟨_, rfl, rfl, rfl, rfl, ?_, fun k hk => smGet_updQ_ne _ _ _ _ hk⟩
    refine (smGet_updQ_self _ _ _).trans ?_
    exact congrArg (Option.map _) hv
  obtain ⟨u, hu, hfoot, hframe, hlayers, huq, huo⟩ := hu
  have hrun : startAttempt s l list = readVariant u l.queue (layAddr l.words l.rung) v.nextSeq list (layLen l.words l.rung) := by
    rw [hu]
    unfold startAttempt
    rw [hv]
    rfl
  obtain ⟨t, ht, htf, htv, hto⟩ := readVariant_facts (layLen l.words l.rung) u l.queue (layAddr l.words l.rung) v.nextSeq list
    (fun i hi => by
      rw [hfoot, readClean_answer]
      exact h i hi)
  obtain ⟨x, hx, hxk⟩ := queue_of_view htv huq
  refine ⟨t, x, ht.trans hrun.symm, ?_, (congrArg State.layers htf :).trans hlayers, hx, (congrArg Queue.nextSeq hxk :),
    (congrArg Queue.outstanding hxk :), huo.trans hto⟩
  have hl : t.layers = u.layers := (congrArg State.layers htf :)
  rw [hl]
  refine htf.trans ?_
  generalize t.queues = qs, u.layers = ls at *
  rw [hframe]

/-! ### LAYER_OPEN (R120, R123) -/

section
variable {q : Nat} {list : List Fetch} {s : State} {v : Queue} {f : Fetched} (hv : smGet s.queues q = some v)
  (hf : v.fetched.find? (fun f => opcode f.words == 0x50 && schedulerOwn s q v.halves f) = some f)
include hv hf

theorem layerOpenAt_found : layerOpenAt s q list =
    if (schedReady s (homeOfHalves v.halves) q f).2 then
      readPastDim (schedReady s (homeOfHalves v.halves) q f).1 (layAddr f.words (layStart s f.words))
        (128 * layLen f.words (layStart s f.words)) (2 ^ 20, q, f.seq) (fun s => openLayer (setTodo s q f.seq false false) q f list)
    else (schedReady s (homeOfHalves v.halves) q f).1 := by
  unfold layerOpenAt
  rw [hv]
  dsimp only
  rw [hf]

theorem layerOpenAt_ready (hr : schedReady s (homeOfHalves v.halves) q f = (s, true))
    (hs : SchedReads s (layAddr f.words (layStart s f.words)) (128 * layLen f.words (layStart s f.words))) :
    layerOpenAt s q list = openLayer (setTodo s q f.seq false false) q f list := by
  rw [layerOpenAt_found hv hf, hr]
  exact (if_pos rfl).trans (readPastDim_clear hs _ _)

end

/-- A queue with a LayerOpen taken off its list, and outstanding. -/
def layerTaken (f : Fetched) (v : Queue) : Queue :=
  { v with fetched := (v.fetched.map (fun (g : Fetched) => if g.seq = f.seq then { g with todoW := false, todoE := false } else g)).filter
             (fun (g : Fetched) => g.todoW || g.todoE)
           outstanding := v.outstanding + 1 }

theorem layerTaken_facts {s : State} {q : Nat} {v : Queue} (f : Fetched) (hv : smGet s.queues q = some v) :
    ∃ u, u = updQ (setTodo s q f.seq false false) q (fun x => { x with outstanding := x.outstanding + 1 })
      ∧ u = { s with queues := u.queues } ∧ smGet u.queues q = some (layerTaken f v) ∧ OthersKept s u q := by
  refine ⟨_, rfl, rfl, ?_, ((OthersKept.refl s q).updQ _).updQ _⟩
  unfold setTodo
  rw [smGet_updQ_self, smGet_updQ_self, hv]
  rfl

theorem layerOpen_holds (q : Nat) (list : List Fetch) (s : State) (v : Queue) (f : Fetched) (hq : q < 1025)
    (hv : smGet s.queues q = some v)
    (hf : v.fetched.find? (fun f => opcode f.words == 0x50 && schedulerOwn s q v.halves f) = some f)
    (hr : schedReady s (homeOfHalves v.halves) q f = (s, true)) (hrej : layReject f.words = none)
    (hs : SchedReads s (layAddr f.words (layStart s f.words)) (128 * layLen f.words (layStart s f.words)))
    (hread : ∀ i, i < layLen f.words (layStart s f.words) →
      (readClean s (layAddr f.words (layStart s f.words) + 128 * i) 128 (list.getD i .hostFault)).2 ≠ none) :
    ∃ t l v', exec (.layerOpen q list) s = .next t ∧ t = { s with queues := t.queues, layers := t.layers }
      ∧ l ∈ t.layers ∧ l.queue = q ∧ l.seq = f.seq ∧ l.words = f.words ∧ l.start = layStart s f.words ∧ l.rung = l.start
      ∧ l.attempts = 1 ∧ l.firstSeq = v.nextSeq ∧ l.left.length = layLen f.words l.rung ∧ l.cut = false
      ∧ l.saved = localObjs s f.words ∧ (∀ m ∈ s.layers, m.queue ≠ q ∨ m.seq ≠ f.seq → m ∈ t.layers)
      ∧ smGet t.queues q = some v' ∧ v'.nextSeq = v.nextSeq + layLen f.words l.rung ∧ v'.outstanding = v.outstanding + 1
      ∧ (∀ p, p ≠ q → smGet t.queues p = smGet s.queues p) := by
  obtain ⟨u, hu, hframe, huq, huo⟩ := layerTaken_facts f hv
  have hl : ∃ l : Layer, l = { queue := q, seq := f.seq, words := f.words, start := layStart s f.words, rung := layStart s f.words,
                               top := layTop s f.words, saved := localObjs s f.words } := ⟨_, rfl⟩
  obtain ⟨l, hl⟩ := hl
  have hrun : layerOpenAt s q list = startAttempt u l list := by
    rw [layerOpenAt_ready hv hf hr hs]
    unfold openLayer
    rw [hrej, hl, hu]
    rfl
  have hfoot : u = footAttempt s u := by
    rw [hframe]
    rfl
  have hlq : l.queue = q := by rw [hl]
  have hlw : l.words = f.words := by rw [hl]
  have hlr : l.rung = layStart s f.words := by rw [hl]
  have hls : l.seq = f.seq := by rw [hl]
  obtain ⟨t, x, ht, htf, htl, hx, hxn, hxo, hto⟩ := startAttempt_facts (l := l) (list := list) (hlq ▸ huq) (fun i hi => by
    rw [hlw, hlr] at hi ⊢
    rw [hfoot, readClean_answer]
    exact hread i hi)
  rw [hlq] at hx hto
  rw [hlw, hlr] at hxn
  refine ⟨t, attemptOf l (layerTaken f v), x, (need_lt hq _).trans (congrArg Host.Outcome.next (hrun.trans ht.symm)), ?_, ?_, hlq, hls, hlw,
    ?_, ?_, ?_, rfl, ?_, rfl, ?_, fun m hm hne => ?_, hx, ?_, hxo, fun p hp => (hto p hp).trans (huo p hp)⟩
  · refine htf.trans ?_
    generalize t.queues = qs, t.layers = ls
    rw [hframe]
  · rw [htl]
    exact List.mem_append_right _ List.mem_cons_self
  · show l.start = _
    rw [hl]
  · show l.rung = l.start
    rw [hl]
  · show l.attempts = 1
    rw [hl]
  · show ((List.range (layLen l.words l.rung)).map _).length = layLen f.words l.rung
    rw [List.length_map, List.length_range, hlw]
  · show l.saved = _
    rw [hl]
  · rw [htl, hlq, hls]
    refine List.mem_append_left _ (List.mem_filter.2 ⟨?_, ?_⟩)
    · rw [show u.layers = s.layers from (congrArg State.layers hframe :)]
      exact hm
    · obtain h | h := hne <;> simp [h]
  · show x.nextSeq = v.nextSeq + layLen f.words l.rung
    rw [hlr]
    exact hxn

theorem layerOpen_rejected (q st : Nat) (list : List Fetch) (s : State) (v : Queue) (f : Fetched) (hq : q < 1025)
    (hv : smGet s.queues q = some v)
    (hf : v.fetched.find? (fun f => opcode f.words == 0x50 && schedulerOwn s q v.halves f) = some f)
    (hr : schedReady s (homeOfHalves v.halves) q f = (s, true)) (hrej : layReject f.words = some st) (hin : f.inLayer = false)
    (hs : SchedReads s (layAddr f.words (layStart s f.words)) (128 * layLen f.words (layStart s f.words))) :
    ∃ t, exec (.layerOpen q list) s = .next t ∧ EndFrame s t q ∧ SameObjs s t tailObjs
      ∧ (slotReady s v 0 = true → ∃ v', smGet t.queues q = some v' ∧ v'.outstanding = v.outstanding
          ∧ v'.cplTail = (v.cplTail + 1) % 2 ^ 32) := by
  obtain ⟨u, hu, hframe, huq, huo⟩ := layerTaken_facts f hv
  have hrun : layerOpenAt s q list
      = finishDesc u (rejected { queue := q, seq := f.seq, words := f.words, inLayer := f.inLayer } st 127) := by
    rw [layerOpenAt_ready hv hf hr hs]
    unfold openLayer
    rw [hrej, ← hu]
    exact rejectDesc_eq _ _ _ _ hin
  have hring : RingKept s u q v (layerTaken f v) := by
    refine ⟨?_, huo, hv, huq, rfl⟩
    rw [hframe]
  have hsame : SameObjs s u tailObjs := (SameObjs.refl s _).of_dic (congrArg State.dic hframe :)
  refine ⟨_, (need_lt hq _).trans (congrArg Host.Outcome.next hrun), hring.endFrame _ rfl le_rfl, hsame.trans (sameObjs_finishDesc _ _),
    fun hslot => ?_⟩
  obtain ⟨y, hy, hyu, hout⟩ := finishDesc_queue_ready u
    (rejected { queue := q, seq := f.seq, words := f.words, inLayer := f.inLayer } st 127) _ huq (hring.slotReady.trans hslot)
  exact ⟨y, hy, hout, (unended_of Queue.cplTail (fun _ => rfl) hyu).trans rfl⟩

theorem layerOpen_waits (q : Nat) (list : List Fetch) (s : State) (v : Queue) (f : Fetched) (hq : q < 1025)
    (hv : smGet s.queues q = some v)
    (hf : v.fetched.find? (fun f => opcode f.words == 0x50 && schedulerOwn s q v.halves f) = some f)
    (hr : (schedReady s (homeOfHalves v.halves) q f).2 = false) :
    exec (.layerOpen q list) s = .next (schedReady s (homeOfHalves v.halves) q f).1 :=
  (need_lt hq _).trans (congrArg Host.Outcome.next ((layerOpenAt_found hv hf).trans (if_neg (by rw [hr]; decide))))

theorem layerOpen_idle (q : Nat) (list : List Fetch) (s : State) (hq : q < 1025)
    (h : ∀ v, smGet s.queues q = some v →
      v.fetched.find? (fun f => opcode f.words == 0x50 && schedulerOwn s q v.halves f) = none) :
    exec (.layerOpen q list) s = .next s := by
  refine (need_lt hq _).trans (congrArg Host.Outcome.next ?_)
  unfold layerOpenAt
  split
  · rfl
  next v hv => rw [h v hv]

end Sys2Proof.Machine

/-!
LAYER_ATTEMPT_END: a layer published or repeated (R123 to R127); O10 settled.
-/

namespace Sys2Proof.Machine

/-! ### The escalation entry at publication (Table VEC-22) -/

/-- The rung to which an entry steps down. -/
def downRung (l : Layer) (cur : Nat) : Nat := ((layRungs l.words).filter (fun r => decide (r < cur))).getLastD (layLow l.words)

section
variable {s : State} {l : Layer}

theorem escUpdate_up (h : l.start < l.rung) : escUpdate s l = journal (objInc (escPut s (layId l.words)
    (max (escGet s (layId l.words)).1 l.rung) (objGet s Obj.escHoldSteps)) Obj.escEvents) .escalated (layJournal l) := if_pos h

theorem escUpdate_plain (h : l.rung ≤ l.start) (h' : l.start ≠ (escGet s (layId l.words)).1 ∨ l.start ≤ layLow l.words) :
    escUpdate s l = s := (if_neg (by omega)).trans (if_neg (by omega))

section
variable (h : l.rung ≤ l.start) (hs : l.start = (escGet s (layId l.words)).1) (hl : layLow l.words < l.start)
include h hs hl

theorem escUpdate_held (hh : 1 < (escGet s (layId l.words)).2) : escUpdate s l =
    escPut s (layId l.words) (escGet s (layId l.words)).1 ((escGet s (layId l.words)).2 - 1) :=
  (if_neg (by omega)).trans ((if_pos ⟨hs, hl⟩).trans (if_pos hh))

theorem escUpdate_down (hh : (escGet s (layId l.words)).2 ≤ 1) : escUpdate s l = journal (objInc (escPut s (layId l.words)
    (downRung l (escGet s (layId l.words)).1)
    (if layLow l.words < downRung l (escGet s (layId l.words)).1 then objGet s Obj.escHoldSteps else 0)) Obj.escStepDowns)
    .steppedDown (layJournal l) :=
  (if_neg (by omega)).trans ((if_pos ⟨hs, hl⟩).trans (if_neg (by omega)))

end

/-- Every way in which an entry may go. -/
theorem escUpdate_cases (s : State) (l : Layer) : escUpdate s l = s ∨ (∃ c n, escUpdate s l = escPut s (layId l.words) c n)
    ∨ ∃ c n k e, (k = Obj.escEvents ∨ k = Obj.escStepDowns)
      ∧ escUpdate s l = journal (objInc (escPut s (layId l.words) c n) k) e (layJournal l) := by
  by_cases h1 : l.start < l.rung
  · exact .inr (.inr ⟨_, _, _, _, .inl rfl, escUpdate_up h1⟩)
  · by_cases h2 : l.start = (escGet s (layId l.words)).1 ∧ layLow l.words < l.start
    · obtain ⟨hs, hl⟩ := h2
      by_cases hh : 1 < (escGet s (layId l.words)).2
      · exact .inr (.inl ⟨_, _, escUpdate_held (by omega) hs hl hh⟩)
      · exact .inr (.inr ⟨_, _, _, _, .inr rfl, escUpdate_down (by omega) hs hl (by omega)⟩)
    · refine .inl (escUpdate_plain (by omega) ?_)
      by_cases hs : l.start = (escGet s (layId l.words)).1
      · exact .inr (Nat.le_of_not_lt (fun hl => h2 ⟨hs, hl⟩))
      · exact .inl hs

theorem escGet_of_esc {s t : State} (h : t.esc = s.esc) (i : Nat) : escGet t i = escGet s i := congrArg (fun m => smGetD m i (0, 0)) h

theorem escGet_told (s : State) (k : Nat) (e : JEvent) (as : List Nat) (i : Nat) : escGet (journal (objInc s k) e as) i = escGet s i :=
  escGet_of_esc (journal_keeps State.esc (fun _ _ => rfl) _ _ _) i

theorem counted_told {s t : State} (hd : t.dic = s.dic) (k : Nat) (hk : k ∉ journalObjs) (e : JEvent) (as : List Nat) :
    Counted s (journal (objInc t k) e as) k 1 := by
  have hc : Counted s (objInc t k) k 1 := (objGet_objInc_self t k).trans (congrArg (fun d => satAdd (objTop k) (objGet { s with dic := d } k) 1) hd)
  exact counted_trans hc (SameObjs.journal (SameObjs.refl _ journalObjs) e as (fun _ h => h)) hk

/-- The objects that count a publication. -/
def escObjs : List Nat := [Obj.escEvents, Obj.escStepDowns] ++ journalObjs

theorem sameObjs_escUpdate (s : State) (l : Layer) : SameObjs s (escUpdate s l) escObjs := by
  have hdic (c n : Nat) : (escPut s (layId l.words) c n).dic = s.dic := escPut_keeps State.dic (fun _ _ => rfl) s _ c n
  obtain h | ⟨c, n, h⟩ | ⟨c, n, k, e, hk, h⟩ := escUpdate_cases s l
  · rw [h]
    exact SameObjs.refl s _
  · rw [h]
    exact (SameObjs.refl s _).of_dic (hdic c n)
  · rw [h]
    refine SameObjs.journal (SameObjs.objInc ((SameObjs.refl s _).of_dic (hdic c n)) k ?_) _ _ (by decide)
    obtain rfl | rfl := hk <;> decide

theorem escGet_escUpdate_ne (s : State) (l : Layer) {i : Nat} (hi : i ≠ layId l.words) : escGet (escUpdate s l) i = escGet s i := by
  obtain h | ⟨c, n, h⟩ | ⟨c, n, k, e, -, h⟩ := escUpdate_cases s l
  · rw [h]
  · rw [h]
    exact escGet_escPut_ne s _ i c n hi
  · rw [h, escGet_told]
    exact escGet_escPut_ne s _ i c n hi

end

/-- What a publication makes of the layer's entry. -/
structure EntryPublished (s t : State) (l : Layer) : Prop where
  raised : l.start < l.rung → escGet t (layId l.words) = (max (escGet s (layId l.words)).1 l.rung, objGet s Obj.escHoldSteps)
    ∧ Counted s t Obj.escEvents 1
  kept : l.rung ≤ l.start → l.start ≠ (escGet s (layId l.words)).1 ∨ l.start ≤ layLow l.words → t.esc = s.esc
  lowered : l.rung ≤ l.start → l.start = (escGet s (layId l.words)).1 → layLow l.words < l.start →
    (1 < (escGet s (layId l.words)).2 →
      escGet t (layId l.words) = ((escGet s (layId l.words)).1, (escGet s (layId l.words)).2 - 1))
    ∧ ((escGet s (layId l.words)).2 ≤ 1 → Counted s t Obj.escStepDowns 1
      ∧ ∃ g, g = ((layRungs l.words).filter (fun r => decide (r < l.start))).getLastD (layLow l.words)
        ∧ escGet t (layId l.words) = (g, if layLow l.words < g then objGet s Obj.escHoldSteps else 0))
  others : ∀ i, i ≠ layId l.words → escGet t i = escGet s i

theorem entryPublished_escUpdate (s : State) (l : Layer) : EntryPublished s (escUpdate s l) l := by
  have hdic (c n : Nat) : (escPut s (layId l.words) c n).dic = s.dic := escPut_keeps State.dic (fun _ _ => rfl) s _ c n
  refine ⟨fun h => ?_, fun h h' => ?_, fun h hs hl => ⟨fun hh => ?_, fun hh => ?_⟩, fun i hi => escGet_escUpdate_ne s l hi⟩
  · rw [escUpdate_up h, escGet_told, escGet_escPut_self]
    exact ⟨rfl, counted_told (hdic _ _) _ (by decide) _ _⟩
  · rw [escUpdate_plain h h']
  · rw [escUpdate_held h hs hl hh, escGet_escPut_self]
  · rw [escUpdate_down h hs hl hh, escGet_told, escGet_escPut_self, ← hs]
    exact ⟨counted_told (hdic _ _) _ (by decide) _ _, _, rfl, rfl⟩

/-- What follows a publication leaves its entry as it is. -/
theorem EntryPublished.trans {s t u : State} {l : Layer} {ks : List Nat} (h : EntryPublished s t l) (he : u.esc = t.esc)
    (ho : SameObjs t u ks) (h1 : Obj.escEvents ∉ ks) (h2 : Obj.escStepDowns ∉ ks) : EntryPublished s u l := by
  obtain ⟨hr, hk, hl, hot⟩ := h
  refine ⟨fun h => ⟨(escGet_of_esc he _).trans (hr h).1, counted_trans (hr h).2 ho h1⟩, fun h h' => he.trans (hk h h'),
    fun h hs hlow => ⟨fun hh => (escGet_of_esc he _).trans ((hl h hs hlow).1 hh), fun hh => ?_⟩, fun i hi => (escGet_of_esc he _).trans (hot i hi)⟩
  obtain ⟨hc, g, hg, hget⟩ := (hl h hs hlow).2 hh
  exact ⟨counted_trans hc ho h2, g, hg, (escGet_of_esc he _).trans hget⟩

/-! ### A layer published (R123 to R127) -/

/-- An exhausted layer counted and journalled. -/
def exhaustNoted (s : State) (l : Layer) : State :=
  if l.sawOF && l.rung == l.top then journal (objInc s Obj.escExhausted) .exhausted (layJournal l) else s

/-- The record of a layer published. -/
def publishedDone (l : Layer) : Done :=
  { queue := l.queue, seq := l.seq, words := l.words, status := 0, op := 0x50, engine := 127
    summary := l.summary, body := layerBody l true (l.sawOF && l.rung == l.top), traps := (l.sawOF && l.rung == l.top) && layTrap l.words
    raises := false }

/-- A state without a layer. -/
def layerClosed (s : State) (l : Layer) : State :=
  { s with layers := s.layers.filter (fun (x : Layer) => !(x.queue == l.queue && x.seq == l.seq)) }

theorem publish_eq (s : State) (l : Layer) :
    publish s l = finishDesc (exhaustNoted (escUpdate (layerClosed s l) l) l) (publishedDone l) := completeDesc_plain _ _ rfl

theorem sameObjs_exhaustNoted (s : State) (l : Layer) : SameObjs s (exhaustNoted s l) (Obj.escExhausted :: journalObjs) := by
  unfold exhaustNoted
  split
  · exact ((SameObjs.refl s _).objInc _ List.mem_cons_self).journal _ _ (List.subset_cons_self _ _)
  · exact SameObjs.refl s _

theorem counted_exhaustNoted {s : State} {l : Layer} (ho : l.sawOF = true) (ht : l.rung = l.top) :
    Counted s (exhaustNoted s l) Obj.escExhausted 1 := by
  unfold exhaustNoted
  rw [if_pos (by simp [ho, ht])]
  exact counted_told rfl _ (by decide) _ _

/-- What is done before a published layer's descriptor ends. -/
def footEsc10 (s t : State) : State := { s with dic := t.dic, esc := t.esc, obs := t.obs, layers := t.layers }

theorem publish_before (s : State) (l : Layer) :
    exhaustNoted (escUpdate (layerClosed s l) l) l = footEsc10 s (exhaustNoted (escUpdate (layerClosed s l) l) l) := by
  have h (x u : State) : footEsc10 (exhaustNoted u l) x = footEsc10 u x := by
    unfold exhaustNoted
    split
    · exact (journal_keeps (footEsc10 · x) (fun _ _ => rfl) _ _ _).trans rfl
    · rfl
  have h' (x : State) : footEsc10 (exhaustNoted (escUpdate (layerClosed s l) l) l) x = footEsc10 s x :=
    (h x _).trans (escUpdate_keeps (footEsc10 · x) (fun _ _ => rfl) (layerClosed s l) l)
  exact h' (exhaustNoted (escUpdate (layerClosed s l) l) l)

theorem publish_layers (s : State) (l : Layer) : (exhaustNoted (escUpdate (layerClosed s l) l) l).layers = (layerClosed s l).layers := by
  have h (u : State) : (exhaustNoted u l).layers = u.layers := by
    unfold exhaustNoted
    split
    · exact journal_keeps State.layers (fun _ _ => rfl) _ _ _
    · rfl
  exact (h _).trans (escUpdate_keeps State.layers (fun _ _ => rfl) _ l)

theorem publish_holds (q : Nat) (list : List Fetch) (s : State) (v : Queue) (l : Layer) (hq : q < 1025) (hv : smGet s.queues q = some v)
    (hl : s.layers.find? (fun l => l.queue == q && l.left.isEmpty) = some l) (ht : v.trapped = false) (hst : v.state = 1)
    (hm : mayIssue s (homeOfHalves v.halves) = true) (hc : l.cut = false) :
    ∃ t, exec (.layerAttemptEnd q list) s = .next t ∧ EndFrame { s with esc := t.esc, layers := t.layers } t q
      ∧ t.layers = s.layers.filter (fun x => !(x.queue == l.queue && x.seq == l.seq)) ∧ OneCompleted s t q
      ∧ (l.start < l.rung → escGet t (layId l.words) = (max (escGet s (layId l.words)).1 l.rung, objGet s Obj.escHoldSteps)
          ∧ Counted s t Obj.escEvents 1)
      ∧ (l.rung ≤ l.start → l.start ≠ (escGet s (layId l.words)).1 ∨ l.start ≤ layLow l.words → t.esc = s.esc)
      ∧ (l.rung ≤ l.start → l.start = (escGet s (layId l.words)).1 → layLow l.words < l.start →
          (1 < (escGet s (layId l.words)).2 →
            escGet t (layId l.words) = ((escGet s (layId l.words)).1, (escGet s (layId l.words)).2 - 1))
          ∧ ((escGet s (layId l.words)).2 ≤ 1 → Counted s t Obj.escStepDowns 1
            ∧ ∃ g, g = ((layRungs l.words).filter (fun r => decide (r < l.start))).getLastD (layLow l.words)
              ∧ escGet t (layId l.words) = (g, if layLow l.words < g then objGet s Obj.escHoldSteps else 0)))
      ∧ (∀ i, i ≠ layId l.words → escGet t i = escGet s i)
      ∧ (l.sawOF = true → l.rung = l.top → Counted s t Obj.escExhausted 1)
      ∧ SameObjs s t ([Obj.escEvents, Obj.escStepDowns, Obj.escExhausted] ++ tailObjs) := by
  have hlq : l.queue = q := by
    have h := List.find?_some hl
    simp only [Bool.and_eq_true, beq_iff_eq] at h
    exact h.1
  subst hlq
  have hrun : attemptEnd s l.queue list = publish s l := by
    unfold attemptEnd
    rw [hv]
    dsimp only
    rw [hl]
    exact (if_neg (by simp [ht, hst, hm])).trans (if_neg (by simp [hc]))
  have hentry : EntryPublished s (escUpdate (layerClosed s l) l) l := by
    obtain ⟨h1, h2, h3, h4⟩ := entryPublished_escUpdate (layerClosed s l) l
    exact ⟨h1, h2, h3, h4⟩
  have hobjs : SameObjs s (escUpdate (layerClosed s l) l) escObjs := sameObjs_escUpdate (layerClosed s l) l
  have hnoted := sameObjs_exhaustNoted (escUpdate (layerClosed s l) l) l
  have hesc : (exhaustNoted (escUpdate (layerClosed s l) l) l).esc = (escUpdate (layerClosed s l) l).esc := by
    unfold exhaustNoted
    split
    · exact journal_keeps State.esc (fun _ _ => rfl) _ _ _
    · rfl
  have hexh : l.sawOF = true → l.rung = l.top → Counted s (exhaustNoted (escUpdate (layerClosed s l) l) l) Obj.escExhausted 1 := fun h1 h2 => by
    refine (counted_exhaustNoted h1 h2).trans ?_
    rw [hobjs Obj.escExhausted (by decide)]
  have hframe := publish_before s l
  have hlayers := publish_layers s l
  rw [publish_eq] at hrun
  replace hentry := hentry.trans hesc hnoted (by decide) (by decide)
  have hsame : SameObjs s (exhaustNoted (escUpdate (layerClosed s l) l) l) ([Obj.escEvents, Obj.escStepDowns, Obj.escExhausted] ++ tailObjs) :=
    (hobjs.mono (by decide)).trans (hnoted.mono (by decide))
  generalize exhaustNoted (escUpdate (layerClosed s l) l) l = u at *
  have huq : u.queues = s.queues := (congrArg State.queues hframe :)
  have hend := sameObjs_finishDesc u (publishedDone l)
  have hfin := endFrame_finishDesc u (publishedDone l) le_rfl
  have hone := oneCompleted_finishDesc u (publishedDone l)
  have hfl : (finishDesc u (publishedDone l)).layers = u.layers := finishDesc_keeps State.layers (fun _ _ => rfl) _ _
  have hfe : (finishDesc u (publishedDone l)).esc = u.esc := finishDesc_keeps State.esc (fun _ _ => rfl) _ _
  obtain ⟨hr, hk, hlow, hothers⟩ := hentry.trans hfe hend (by decide) (by decide)
  generalize finishDesc u (publishedDone l) = t at *
  refine ⟨t, (need_lt hq _).trans (congrArg Host.Outcome.next hrun), ?_, hfl.trans hlayers, ?_, hr, hk, hlow, hothers, fun h1 h2 => ?_, ?_⟩
  · refine EndFrame.of_before hfin (fun x => ?_) (fun k _ => congrArg (fun m => smGet m k) huq) ?_ (fun w hw => ⟨w, ?_, rfl, rfl, rfl⟩)
    · rw [hfl, hfe, hframe]
      rfl
    · rw [hframe]
      rfl
    · exact (congrArg (fun m => smGet m l.queue) huq).trans hw
  · intro w hw
    have hw' : smGet u.queues l.queue = some w := (congrArg (fun m => smGet m l.queue) huq).trans hw
    have hslot (n : Nat) : slotReady u w n = slotReady s w n := by
      rw [hframe]
      rfl
    have h := hone w hw'
    rw [hslot] at h
    exact h
  · exact counted_trans (hexh h1 h2) hend (by decide)
  · exact hsame.trans (hend.mono (by decide))

/-! ### An attempt repeated (Table VEC-21 step 5) -/

theorem syncGet_writeBack_ne (s : State) (vs : List (Nat × Nat)) (o : Nat) (h : o ∉ vs.map Prod.fst) :
    syncGet (writeBack s vs) o = syncGet s o := by
  induction vs generalizing s with
  | nil => rfl
  | cons e r ih =>
    rw [List.map_cons, List.mem_cons, not_or] at h
    exact (ih _ h.2).trans (syncGet_syncPut_ne s _ o _ h.1)

theorem syncGet_writeBack (s : State) (vs : List (Nat × Nat)) (h : (vs.map Prod.fst).Nodup) :
    ∀ e ∈ vs, syncGet (writeBack s vs) e.1 = BitVec.ofNat 64 e.2 := by
  induction vs generalizing s with
  | nil => exact fun e he => absurd he (List.not_mem_nil)
  | cons x r ih =>
    rw [List.map_cons, List.nodup_cons] at h
    intro e he
    obtain rfl | he := List.mem_cons.1 he
    · exact (syncGet_writeBack_ne _ r _ h.1).trans (syncGet_syncPut_self s _ _)
    · exact ih _ h.2 e he

theorem repeat_holds (q : Nat) (list : List Fetch) (s : State) (v : Queue) (l : Layer) (g : Nat) (hq : q < 1025)
    (hv : smGet s.queues q = some v) (hl : s.layers.find? (fun l => l.queue == q && l.left.isEmpty) = some l) (ht : v.trapped = false)
    (hst : v.state = 1) (hm : mayIssue s (homeOfHalves v.halves) = true) (hc : l.cut = true) (hg : g = nextRung l)
    (hs : SchedReads s (layAddr l.words g) (128 * layLen l.words g))
    (hread : ∀ i, i < layLen l.words g → (readClean s (layAddr l.words g + 128 * i) 128 (list.getD i .hostFault)).2 ≠ none)
    (hnd : (l.saved.map Prod.fst).Nodup) :
    ∃ t m, exec (.layerAttemptEnd q list) s = .next t
      ∧ t = { s with dic := t.dic, layers := t.layers, claims := t.claims, queues := t.queues, sync := t.sync
                     waiters := t.waiters }
      ∧ (∀ p, p ≠ q → smGet t.queues p = smGet s.queues p) ∧ m ∈ t.layers ∧ m.queue = l.queue ∧ m.seq = l.seq ∧ m.rung = g
      ∧ m.attempts = l.attempts + 1 ∧ m.abandoned = l.abandoned + l.seqs.length ∧ m.start = l.start
      ∧ Counted s t Obj.escAbandonedDescs l.seqs.length ∧ SameObjs s t [Obj.escAbandonedDescs] ∧ t.esc = s.esc
      ∧ (∀ e ∈ l.saved, syncGet t e.1 = BitVec.ofNat 64 e.2)
      ∧ (∀ o, o ∉ l.saved.map Prod.fst → syncGet t o = syncGet s o) := by
  subst hg
  have hlq : l.queue = q := by
    have h := List.find?_some hl
    simp only [Bool.and_eq_true, beq_iff_eq] at h
    exact h.1
  have hu : ∃ u, u = writeBack (objAdd s Obj.escAbandonedDescs l.seqs.length) l.saved ∧ u = footAttempt s u
      ∧ u.queues = s.queues ∧ u.dic = (objAdd s Obj.escAbandonedDescs l.seqs.length).dic ∧ u.esc = s.esc
      ∧ (∀ e ∈ l.saved, syncGet u e.1 = BitVec.ofNat 64 e.2) ∧ ∀ o, o ∉ l.saved.map Prod.fst → syncGet u o = syncGet s o := by
    refine ⟨_, rfl, ?_, writeBack_keeps State.queues (fun _ _ => rfl) _ _, writeBack_keeps State.dic (fun _ _ => rfl) _ _,
      writeBack_keeps State.esc (fun _ _ => rfl) _ _, syncGet_writeBack _ _ hnd, fun o ho => syncGet_writeBack_ne _ _ o ho⟩
    exact writeBack_keeps (footAttempt · (writeBack (objAdd s Obj.escAbandonedDescs l.seqs.length) l.saved)) (fun _ _ => rfl) _ _
  obtain ⟨u, hu, hframe, huq, hud, hue, hsaved, hkept⟩ := hu
  have hcount : Counted s (objAdd s Obj.escAbandonedDescs l.seqs.length) Obj.escAbandonedDescs l.seqs.length := objGet_objAdd_self _ _ _
  have hsame : SameObjs s (objAdd s Obj.escAbandonedDescs l.seqs.length) [Obj.escAbandonedDescs] :=
    (SameObjs.refl s _).objAdd _ _ List.mem_cons_self
  have hrun : attemptEnd s q list = startAttempt u
      { l with rung := nextRung l, attempts := l.attempts + 1, abandoned := l.abandoned + l.seqs.length } list := by
    unfold attemptEnd
    rw [hv]
    dsimp only
    rw [hl]
    refine (if_neg (by simp [ht, hst, hm])).trans ((if_pos hc).trans ((readPastDim_clear hs _ _).trans ?_))
    rw [hu]
    rfl
  obtain ⟨t, x, htt, htf, htl, -, -, -, hto⟩ := startAttempt_facts (s := u) (list := list) (v := v)
    (l := { l with rung := nextRung l, attempts := l.attempts + 1, abandoned := l.abandoned + l.seqs.length })
    ((congrArg (fun m => smGet m l.queue) huq).trans (hlq ▸ hv)) (fun i hi => by
      rw [hframe, readClean_answer]
      exact hread i hi)
  have htd : t.dic = (objAdd s Obj.escAbandonedDescs l.seqs.length).dic := (congrArg State.dic htf :).trans hud
  have hts (o : Nat) : syncGet t o = syncGet u o := congrArg (fun m => smGetD m o 0) (congrArg State.sync htf :)
  refine ⟨t, attemptOf { l with rung := nextRung l, attempts := l.attempts + 1, abandoned := l.abandoned + l.seqs.length } v,
    (need_lt hq _).trans (congrArg Host.Outcome.next (hrun.trans htt.symm)), ?_, fun p hp => ?_, ?_, rfl, rfl, rfl, rfl, rfl, rfl, ?_,
    hsame.of_dic htd, (congrArg State.esc htf :).trans hue, fun e he => (hts _).trans (hsaved e he), fun o ho => (hts o).trans (hkept o ho)⟩
  · have hfoot : t = footAttempt u t := by
      obtain ⟨qs, ls, h⟩ : ∃ qs ls, t = { u with queues := qs, layers := ls } := ⟨_, _, htf⟩
      rw [h]
      rfl
    refine hfoot.trans ?_
    generalize t = w
    rw [hframe]
    rfl
  · exact (hto p (hlq.symm ▸ hp)).trans (congrArg (fun m => smGet m p) huq)
  · rw [htl]
    exact List.mem_append_right _ List.mem_cons_self
  · exact (congrArg (fun d => objGet { s with dic := d } Obj.escAbandonedDescs) htd).trans hcount

theorem attemptEnd_idle (q : Nat) (list : List Fetch) (s : State) (hq : q < 1025)
    (h : ∀ v, smGet s.queues q = some v →
      s.layers.find? (fun l => l.queue == q && l.left.isEmpty) = none ∨ v.trapped = true ∨ v.state ≠ 1
        ∨ mayIssue s (homeOfHalves v.halves) = false) :
    exec (.layerAttemptEnd q list) s = .next s := by
  refine (need_lt hq _).trans (congrArg Host.Outcome.next ?_)
  unfold attemptEnd
  split
  · rfl
  next v hv =>
    obtain h | h | h | h := h v hv
    · rw [h]
    all_goals
      split
      · rfl
      · exact if_pos (by simp [h])

/-- Settles O10: a LayerOpen starts a numbered attempt, and its end is published or repeated on the next rung. -/
theorem layerAttemptsStartAndEnd : Obligations.LayerAttemptsStartAndEnd := by
  unfold Obligations.LayerAttemptsStartAndEnd
  exact ⟨layerOpen_holds, layerOpen_rejected, layerOpen_waits, layerOpen_idle, publish_holds, repeat_holds, attemptEnd_idle⟩

end Sys2Proof.Machine

/-!
BANK_HANDOFF and ARRAY_DESCRIPTOR_COMPLETE (R62, R80, R93, R370); O8 settled.
-/

namespace Sys2Proof.Machine

/-! ### BANK_HANDOFF (R62, R93) -/

/-- An array whose descriptor hands part of its bank over. -/
def handedOver (a : ArrayUnit) (run : ArrayRun) (h : Handoff) (k : Nat) : ArrayUnit :=
  match a.leaving with
  | some l => { a with handoff := a.handoff.set (arrBank run.d.words) (some h), leaving := some { l with handed := k } }
  | none => { a with handoff := a.handoff.set (arrBank run.d.words) (some h)
                     run := a.run.map (fun (r : ArrayRun) => { r with handed := k }) }

theorem handedOver_leaving {a : ArrayUnit} {run l : ArrayRun} {h : Handoff} {k : Nat} (hl : a.leaving = some l) : handedOver a run h k =
    { a with handoff := a.handoff.set (arrBank run.d.words) (some h), leaving := some { l with handed := k } } := by
  unfold handedOver
  rw [hl]

theorem handedOver_running {a : ArrayUnit} {run r : ArrayRun} {h : Handoff} {k : Nat} (hl : a.leaving = none) (hr : a.run = some r) :
    handedOver a run h k =
      { a with handoff := a.handoff.set (arrBank run.d.words) (some h), run := some { r with handed := k } } := by
  unfold handedOver
  rw [hl, hr]
  rfl

section
variable {nn : Nat} {s : State}

/-- An array with a descriptor in progress exists. -/
theorem arrays_lt {run : ArrayRun} (h : (arrayOf s nn).leaving.or (arrayOf s nn).run = some run) : nn < s.arrays.length := by
  by_contra hn
  unfold arrayOf at h
  rw [List.getD_eq_default _ _ (by omega)] at h
  cases h

theorem handOff_part {run : ArrayRun} {h : Handoff} {k : Nat} (hrun : (arrayOf s nn).leaving.or (arrayOf s nn).run = some run)
    (hp : handPart (arrayOf s nn) run = some (h, k)) : handOff s nn = updArray s nn (fun a => handedOver a run h k) := by
  unfold handOff
  unfold arrayOf at hrun hp
  dsimp only
  rw [hrun]
  dsimp only
  rw [hp]
  rfl

theorem handPart_row {a : ArrayUnit} {run : ArrayRun} (hf : arrFinal run.d.words = true) (hk : arrTopK run.d.words = false)
    (hh : run.handed ≠ arrM run.d.words) (hr : rowFinal run run.handed = true) :
    ∃ base, handPart a run = some (handRow run.d.words (a.banks.getD (arrBank run.d.words) []) run.handed base, run.handed + 1) := by
  unfold handPart
  dsimp only
  rw [if_neg (by simp [hf, hh]), if_neg (by simp [hk]), if_pos hr]
  exact ⟨_, rfl⟩

theorem handPart_trees {a : ArrayUnit} {run : ArrayRun} (hf : arrFinal run.d.words = true) (hk : arrTopK run.d.words = true)
    (hh : run.handed ≠ arrM run.d.words) (he : run.entered = arrM run.d.words) :
    handPart a run = some (handTrees run.d.words (a.trees.getD (arrBank run.d.words) []), arrM run.d.words) := by
  unfold handPart
  dsimp only
  rw [if_neg (by simp [hf, hh]), if_pos hk, if_pos (by simp [he])]

/-- A row handed over carries the bank's values. -/
theorem handRow_value (ws : List Word64) (bank : SMap BankVal) (m : Nat) (h : Handoff) {n : Nat} (hn : n < arrN ws) :
    (smGet (handRow ws bank m h).vals (m * 65536 + n)).map BankVal.value = some (smGetD bank (m * arrNt ws + n) ⟨0, false⟩).value := by
  have hgen (l : List Nat) (vs : SMap BankVal) (f : Nat → BankVal) : smGet (l.foldl (fun vs n => smSet vs (m * 65536 + n) (f n)) vs)
      (m * 65536 + n) = if n ∈ l then some (f n) else smGet vs (m * 65536 + n) := by
    induction l generalizing vs with
    | nil => simp
    | cons x r ih =>
      rw [List.foldl_cons, ih]
      by_cases hr : n ∈ r
      · rw [if_pos hr, if_pos (List.mem_cons_of_mem _ hr)]
      · rw [if_neg hr]
        by_cases hx : n = x
        · rw [hx, smGet_smSet_self, if_pos List.mem_cons_self]
        · rw [smGet_smSet_ne _ _ _ _ (by omega), if_neg (by simp [hx, hr])]
  unfold handRow
  dsimp only
  rw [hgen (List.range (arrN ws)) h.vals
    (fun n => { smGetD bank (m * arrNt ws + n) ⟨0, false⟩ with tag := (smGetD bank (m * arrNt ws + n) ⟨0, false⟩).tag && (arrA ws).isInt }),
    if_pos (List.mem_range.2 hn)]
  rfl

theorem handRow_holds (nn : Nat) (run : ArrayRun) (s : State) (hn : nn < 64)
    (hrun : (arrayOf s nn).leaving.or (arrayOf s nn).run = some run) (hf : arrFinal run.d.words = true)
    (hk : arrTopK run.d.words = false) (hh : run.handed ≠ arrM run.d.words) (hr : rowFinal run run.handed = true)
    (_ : arrBank run.d.words < (arrayOf s nn).handoff.length) :
    ∃ t h, exec (.bankHandoff nn) s = .next t ∧ t = { s with arrays := t.arrays } ∧ (∀ k, k ≠ nn → arrayOf t k = arrayOf s k)
      ∧ arrayOf t nn = { arrayOf s nn with
          handoff := (arrayOf s nn).handoff.set (arrBank run.d.words) (some h)
          leaving := (arrayOf t nn).leaving, run := (arrayOf t nn).run }
      ∧ ((arrayOf s nn).leaving = none → (arrayOf t nn).leaving = none
          ∧ (arrayOf t nn).run = some { run with handed := run.handed + 1 })
      ∧ ((arrayOf s nn).leaving = some run → (arrayOf t nn).run = (arrayOf s nn).run
          ∧ (arrayOf t nn).leaving = some { run with handed := run.handed + 1 })
      ∧ (∀ n, n < arrN run.d.words → (smGet h.vals (run.handed * 65536 + n)).map BankVal.value
          = some (smGetD ((arrayOf s nn).banks.getD (arrBank run.d.words) []) (run.handed * arrNt run.d.words + n)
              ⟨0, false⟩).value) := by
  obtain ⟨base, hp⟩ := handPart_row (a := arrayOf s nn) hf hk hh hr
  have hself := arrayOf_updArray_self s nn (fun a => handedOver a run
    (handRow run.d.words ((arrayOf s nn).banks.getD (arrBank run.d.words) []) run.handed base) (run.handed + 1)) (arrays_lt hrun)
  refine ⟨_, handRow run.d.words ((arrayOf s nn).banks.getD (arrBank run.d.words) []) run.handed base,
    (need_lt hn _).trans (congrArg Host.Outcome.next (handOff_part hrun hp)), rfl,
    fun k hk => arrayOf_updArray_ne s nn k _ hk, ?_, fun hl => ?_, fun hl => ?_, fun n hn' => handRow_value _ _ _ _ hn'⟩
  · rw [hself]
    unfold handedOver
    split <;> rfl
  · rw [hl] at hrun
    rw [hself, handedOver_running hl hrun]
    exact ⟨hl, rfl⟩
  · rw [hself, handedOver_leaving hl]
    exact ⟨rfl, rfl⟩

theorem handTrees_holds (nn : Nat) (run : ArrayRun) (s : State) (hn : nn < 64) (hl : (arrayOf s nn).leaving = none)
    (hrun : (arrayOf s nn).run = some run) (hf : arrFinal run.d.words = true) (hk : arrTopK run.d.words = true)
    (hh : run.handed ≠ arrM run.d.words) (he : run.entered = arrM run.d.words) :
    ∃ t h, exec (.bankHandoff nn) s = .next t ∧ t = { s with arrays := t.arrays } ∧ (∀ k, k ≠ nn → arrayOf t k = arrayOf s k)
      ∧ arrayOf t nn = { arrayOf s nn with
          handoff := (arrayOf s nn).handoff.set (arrBank run.d.words) (some h)
          run := some { run with handed := arrM run.d.words } }
      ∧ h.rows = arrN run.d.words := by
  have hor : (arrayOf s nn).leaving.or (arrayOf s nn).run = some run := by
    rw [hl, hrun]
    rfl
  refine ⟨_, handTrees run.d.words ((arrayOf s nn).trees.getD (arrBank run.d.words) []),
    (need_lt hn _).trans (congrArg Host.Outcome.next (handOff_part hor (handPart_trees hf hk hh he))), rfl,
    fun k hk => arrayOf_updArray_ne s nn k _ hk, ?_, rfl⟩
  rw [arrayOf_updArray_self s nn _ (arrays_lt hor), handedOver_running hl hrun]

/-! ### ARRAY_DESCRIPTOR_COMPLETE (R80, R370) -/

/-- What of an array a completion is judged by. -/
theorem overRun_or {a : ArrayUnit} {run : ArrayRun} {r : Result} (h : overRun a = some (run, r)) : a.leaving.or a.run = some run := by
  unfold overRun at h
  split at h
  next l hl =>
    split at h
    · cases h
      rw [hl]
      rfl
    · cases h
  next x hl hx =>
    split at h
    · cases h
      rw [hl, hx]
      rfl
    · cases h
  · cases h

/-- The record of an array descriptor. -/
def arrayRecord (nn : Nat) (run : ArrayRun) (r : Result) : Done :=
  { queue := run.d.queue, seq := run.d.seq, words := run.d.words, inLayer := run.d.inLayer, status := 0, op := 0x20, engine := nn
    summary := summaryOf r, tileM := arrTileM run.d.words, tileN := arrTileN run.d.words, body := recordBody r
    traps := trapsOn run.d (arrTrapNV run.d.words) (arrTrapOF run.d.words) r }

/-- What a completion changes of an array leaves its pending retirement and its miss times. -/
theorem clearRun_kept (a : ArrayUnit) (now : Nat) :
    (clearRun a now).retirePending = a.retirePending ∧ (clearRun a now).missTimes = a.missTimes := by
  unfold clearRun
  split <;> exact ⟨rfl, rfl⟩

/-- An array descriptor that has completed, before its misses count. -/
theorem completed_facts {run : ArrayRun} {r : Result} (ho : overRun (arrayOf s nn) = some (run, r)) (hin : run.d.inLayer = false) :
    ∃ u, u = completeDesc (updArray s nn (fun a => clearRun a s.now)) (arrayRecord nn run r)
      ∧ EndFrame { s with arrays := u.arrays } u run.d.queue ∧ arrayOf u nn = clearRun (arrayOf s nn) s.now
      ∧ (∀ k, k ≠ nn → arrayOf u k = arrayOf s k) ∧ OneCompleted s u run.d.queue ∧ SameObjs s u tailObjs ∧ u.now = s.now
      ∧ nn < u.arrays.length := by
  have hlt := arrays_lt (overRun_or ho)
  have harr := finishDesc_keeps State.arrays (fun _ _ => rfl) (updArray s nn (fun a => clearRun a s.now)) (arrayRecord nn run r)
  have hself := arrayOf_updArray_self s nn (fun a => clearRun a s.now) hlt
  have hother (k : Nat) (hk : k ≠ nn) := arrayOf_updArray_ne s nn k (fun a => clearRun a s.now) hk
  have hend := endFrame_finishDesc (updArray s nn (fun a => clearRun a s.now)) (arrayRecord nn run r) le_rfl
  have hone : OneCompleted s (finishDesc (updArray s nn (fun a => clearRun a s.now)) (arrayRecord nn run r)) run.d.queue :=
    oneCompleted_finishDesc (updArray s nn (fun a => clearRun a s.now)) (arrayRecord nn run r)
  have hobj : SameObjs s (finishDesc (updArray s nn (fun a => clearRun a s.now)) (arrayRecord nn run r)) tailObjs :=
    sameObjs_finishDesc (updArray s nn (fun a => clearRun a s.now)) (arrayRecord nn run r)
  have hnow := finishDesc_keeps State.now (fun _ _ => rfl) (updArray s nn (fun a => clearRun a s.now)) (arrayRecord nn run r)
  have hlen : (updArray s nn (fun a => clearRun a s.now)).arrays.length = s.arrays.length := List.length_modify _ _ _
  have hv : updArray s nn (fun a => clearRun a s.now) = { s with arrays := (updArray s nn (fun a => clearRun a s.now)).arrays } := rfl
  rw [← harr] at hv hlen
  refine ⟨_, rfl, ?_⟩
  rw [completeDesc_plain _ _ hin]
  generalize finishDesc (updArray s nn (fun a => clearRun a s.now)) (arrayRecord nn run r) = u at *
  refine ⟨hv ▸ hend, ?_, fun k hk => ?_, hone, hobj, hnow, hlen ▸ hlt⟩
  · exact (congrArg (fun l : List ArrayUnit => l.getD nn {}) harr).trans hself
  · exact (congrArg (fun l : List ArrayUnit => l.getD k {}) harr).trans (hother k hk)

/-- An array that is to retire retires once it runs nothing. -/
def pendingRetired (s : State) (nn : Nat) : State :=
  if (arrayOf s nn).retirePending && (arrayOf s nn).run.isNone && (arrayOf s nn).leaving.isNone then retireArray s nn else s

theorem pendingRetired_none (h : (arrayOf s nn).retirePending = false) : pendingRetired s nn = s := by
  unfold pendingRetired
  rw [h]
  rfl

theorem arrayDone_over {run : ArrayRun} {r : Result} (ho : overRun (arrayOf s nn) = some (run, r)) : arrayDone s nn =
    pendingRetired (if r.missesDesc = 0 then completeDesc (updArray s nn (fun a => clearRun a s.now)) (arrayRecord nn run r)
      else missEvent (completeDesc (updArray s nn (fun a => clearRun a s.now)) (arrayRecord nn run r)) nn) nn := by
  unfold arrayOf at ho
  unfold arrayDone
  rw [ho] <;> rfl

/-- Fewer than two misses kept: another one is no third. -/
theorem missEvent_few (h : (arrayOf s nn).missTimes.length < 2) : missEvent s nn = missNoted s nn
    ∧ missesOf s nn = (arrayOf s nn).missTimes ++ [s.now] := by
  have hm : missesOf s nn = (arrayOf s nn).missTimes ++ [s.now] := by
    unfold missesOf
    unfold arrayOf at h
    rw [show (s.arrays.getD nn {}).missTimes.length + 1 - 3 = 0 by omega, List.drop_zero]
    rfl
  have hnot : ¬ thirdMiss s nn := by
    rintro ⟨h3, -⟩
    rw [hm, List.length_append, List.length_singleton] at h3
    omega
  refine ⟨?_, hm⟩
  unfold missEvent
  exact if_neg hnot

theorem arrayDone_clean (nn : Nat) (run : ArrayRun) (r : Result) (s : State) (hn : nn < 64)
    (ho : overRun (arrayOf s nn) = some (run, r)) (hm : r.missesDesc = 0) (hp : (arrayOf s nn).retirePending = false)
    (hin : run.d.inLayer = false) :
    ∃ t, exec (.arrayDescriptorComplete nn) s = .next t ∧ EndFrame { s with arrays := t.arrays } t run.d.queue
      ∧ arrayOf t nn = clearRun (arrayOf s nn) s.now ∧ (∀ k, k ≠ nn → arrayOf t k = arrayOf s k)
      ∧ OneCompleted s t run.d.queue ∧ SameObjs s t tailObjs := by
  obtain ⟨u, hu, hend, hself, hother, hone, hobj, -, -⟩ := completed_facts ho hin
  refine ⟨u, (need_lt hn _).trans (congrArg Host.Outcome.next ?_), hend, hself, hother, hone, hobj⟩
  rw [arrayDone_over ho, if_pos hm, ← hu]
  exact pendingRetired_none (by rw [hself, (clearRun_kept _ _).1, hp])

theorem endFrame_missNoted {u : State} {q : Nat} (h : EndFrame { s with arrays := u.arrays } u q) :
    EndFrame { s with arrays := (missNoted u nn).arrays } (missNoted u nn) q := by
  obtain ⟨hframe, hqueues, hmem⟩ := h
  exact ⟨congrArg (fun x : State => { x with dic := (missNoted u nn).dic, arrays := (missNoted u nn).arrays }) hframe,
    hqueues, hmem⟩

theorem arrayDone_missed (nn : Nat) (run : ArrayRun) (r : Result) (s : State) (hn : nn < 64)
    (ho : overRun (arrayOf s nn) = some (run, r)) (hm : r.missesDesc ≠ 0) (hp : (arrayOf s nn).retirePending = false)
    (hin : run.d.inLayer = false) (hfew : (arrayOf s nn).missTimes.length < 2) :
    ∃ t, exec (.arrayDescriptorComplete nn) s = .next t ∧ EndFrame { s with arrays := t.arrays } t run.d.queue
      ∧ arrayOf t nn = { clearRun (arrayOf s nn) s.now with missTimes := (arrayOf s nn).missTimes ++ [s.now] }
      ∧ (∀ k, k ≠ nn → arrayOf t k = arrayOf s k) ∧ OneCompleted s t run.d.queue ∧ Counted s t Obj.arrayMissEvents 1
      ∧ SameObjs s t (Obj.arrayMissEvents :: tailObjs) := by
  obtain ⟨u, hu, hend, hself, hother, hone, hobj, hnow, hlt⟩ := completed_facts ho hin
  obtain ⟨hpend, htimes⟩ := clearRun_kept (arrayOf s nn) s.now
  obtain ⟨hev, hmisses⟩ := missEvent_few (s := u) (nn := nn) (by rw [hself, htimes]; exact hfew)
  have harr := arrayOf_missNoted_self u nn hlt
  rw [hmisses, hself, htimes, hnow] at harr
  refine ⟨missNoted u nn, (need_lt hn _).trans (congrArg Host.Outcome.next ?_), endFrame_missNoted hend, harr,
    fun k hk => (arrayOf_missNoted_ne u nn k hk).trans (hother k hk), hone, ?_,
    (hobj.mono (List.subset_cons_self _ _)).objInc _ List.mem_cons_self⟩
  · rw [arrayDone_over ho, if_neg hm, ← hu, hev]
    exact pendingRetired_none (by rw [harr]; exact hpend.trans hp)
  · exact (objGet_objInc_self u Obj.arrayMissEvents).trans (by rw [hobj _ (by decide)])

theorem arrayDone_idle (nn : Nat) (s : State) (hn : nn < 64) (ho : overRun (arrayOf s nn) = none) :
    exec (.arrayDescriptorComplete nn) s = .next s := by
  refine (need_lt hn _).trans (congrArg Host.Outcome.next ?_)
  unfold arrayOf at ho
  unfold arrayDone
  rw [ho]

end

/-- Settles O8: a descriptor's handoffs come from its bank, and its completion from its run once that is over. -/
theorem arrayHandsOverAndCompletes : Obligations.ArrayHandsOverAndCompletes :=
  ⟨handRow_holds, handTrees_holds, arrayDone_clean, arrayDone_missed, arrayDone_idle⟩

end Sys2Proof.Machine

/-!
ARRAY_PASS (R62, R64, R71, R77, R146): a descriptor starts, is rejected, waits, or has its first tile loaded early.
-/

namespace Sys2Proof.Machine

section
variable {nn : Nat} {s : State}

/-- An array that has issued descriptors exists. -/
theorem arrays_lt_of_fifo {d : Issued} {r : List Issued} (h : (arrayOf s nn).fifo = d :: r) : nn < s.arrays.length := by
  by_contra hn
  unfold arrayOf at h
  rw [List.getD_eq_default _ _ (by omega)] at h
  cases h

/-! ### Errors met by a tile's reads -/

theorem applyTst_frame (s : State) (slice : Nat) (l : List TstEvent) :
    applyTst s slice l = { s with dic := (applyTst s slice l).dic, tilePoison := (applyTst s slice l).tilePoison } := by
  induction l generalizing s with
  | nil => rfl
  | cons e l ih =>
    unfold applyTst
    dsimp only
    split
    · exact ih _
    · split
      · exact ih _
      · exact ih _

theorem sameObjs_applyTst (s : State) (slice : Nat) (l : List TstEvent) :
    SameObjs s (applyTst s slice l) [Obj.tstCorrected, Obj.tstUncorrectable] := by
  induction l generalizing s with
  | nil => exact SameObjs.refl _ _
  | cons e l ih =>
    unfold applyTst
    dsimp only
    refine SameObjs.trans ?_ (ih _)
    split
    · exact SameObjs.refl _ _
    · split
      · exact ((SameObjs.refl s _).of_dic (u := { s with tilePoison := nsAdd s.tilePoison (slice * (sliceSize / 64) + e.line) })
          rfl).objInc Obj.tstUncorrectable (by decide)
      · exact (SameObjs.refl s _).objInc _ (by decide)

theorem applyTst_arrays (s : State) (slice : Nat) (l : List TstEvent) : (applyTst s slice l).arrays = s.arrays :=
  (congrArg State.arrays (applyTst_frame s slice l) :)

theorem arrayOf_applyTst (s : State) (slice k : Nat) (l : List TstEvent) : arrayOf (applyTst s slice l) k = arrayOf s k :=
  congrArg (fun x : List ArrayUnit => x.getD k {}) (applyTst_arrays s slice l)

theorem arrayRetired_applyTst (s : State) (slice k : Nat) (l : List TstEvent) :
    arrayRetired (applyTst s slice l) k = arrayRetired s k := by
  have hun : (applyTst s slice l).unretired = s.unretired := (congrArg State.unretired (applyTst_frame s slice l) :)
  unfold arrayRetired
  rw [hun, sameObjs_applyTst s slice l Obj.arrayRetiredMap (by decide)]

/-- Errors met by reads and a change of an array: either may come first. -/
theorem applyTst_updArray (s : State) (slice : Nat) (l : List TstEvent) (f : ArrayUnit → ArrayUnit) :
    applyTst (updArray s nn f) slice l = updArray (applyTst s slice l) nn f := by
  induction l generalizing s with
  | nil => rfl
  | cons e l ih =>
    unfold applyTst
    dsimp only
    split
    · exact ih s
    · split
      · exact ih (s := objInc { s with tilePoison := nsAdd s.tilePoison (slice * (sliceSize / 64) + e.line) } Obj.tstUncorrectable)
      · exact ih (s := objInc s Obj.tstCorrected)

/-! ### Which way ARRAY_PASS goes -/

theorem arrayPass_empty {tst : List TstEvent} (h : (arrayOf s nn).fifo = []) : arrayPass s nn tst = s := by
  unfold arrayOf at h
  unfold arrayPass
  dsimp only
  rw [h]

variable {d : Issued} {r : List Issued}

theorem arrayPass_held {tst : List TstEvent} (h : (arrayOf s nn).fifo = d :: r)
    (hh : (arrayOf s nn).retirePending = true ∨ holdsArray s nn d = true) : arrayPass s nn tst = s := by
  unfold arrayOf at h hh
  unfold arrayPass
  dsimp only
  rw [h]
  exact if_pos (by simpa using hh)

theorem arrayPass_early {tst : List TstEvent} (h : (arrayOf s nn).fifo = d :: r) (hp : (arrayOf s nn).retirePending = false)
    (hh : holdsArray s nn d = false) (hr : issuedReady s d = false) : arrayPass s nn tst = preload s nn d tst := by
  unfold arrayOf at h hp
  unfold arrayPass
  dsimp only
  rw [h]
  dsimp only
  rw [hp, hh, hr]
  rfl

theorem arrayPass_idle {tst : List TstEvent} (h : (arrayOf s nn).fifo = d :: r) (hp : (arrayOf s nn).retirePending = false)
    (hh : holdsArray s nn d = false) (hr : issuedReady s d = true) (hrun : (arrayOf s nn).run = none) :
    arrayPass s nn tst = takeArray (applyTst s nn tst) nn d r := by
  unfold arrayOf at h hp hrun
  unfold arrayPass
  dsimp only
  rw [h]
  dsimp only
  rw [hp, hh, hr, hrun]
  rfl

theorem arrayPass_running {tst : List TstEvent} {run : ArrayRun} (h : (arrayOf s nn).fifo = d :: r)
    (hp : (arrayOf s nn).retirePending = false) (hh : holdsArray s nn d = false) (hr : issuedReady s d = true)
    (hrun : (arrayOf s nn).run = some run) : arrayPass s nn tst =
      if (arrayOf s nn).leaving.isNone && mayFollow run d.words then takeArray (leaveCells (applyTst s nn tst) nn run) nn d r
      else s := by
  unfold arrayOf at h hp hrun ⊢
  unfold arrayPass
  dsimp only
  rw [h]
  dsimp only
  rw [hp, hh, hr, hrun]
  rfl

/-! ### A descriptor that starts -/

/-- The standby registers that a descriptor starts with hold its first tile. -/
theorem tileIs_tileFor (s : State) (nn : Nat) (d : Issued) (c t : Nat) : tileIs (tileFor s nn d c t) d t = true := by
  have hload : tileIs (loadTile s nn d c t 0) d t = true := by
    unfold tileIs loadTile
    simp
  unfold tileFor
  split
  · split
    · assumption
    · exact hload
  · exact hload

/-- An array whose cells a descriptor takes at a moment. -/
def begun (a : ArrayUnit) (d : Issued) (w : WTile) (now : Nat) : ArrayUnit :=
  { a with
    run := some { d := d, c := shadowCol a.shadow d.words }
    standby := some w
    ranFrom := a.ranFrom.or (some now)
    trees := if arrTopK d.words && !arrAcc d.words then
        a.trees.set (arrBank d.words)
          ((List.range (arrN d.words)).foldl (fun ts n => smSet ts n {}) (a.trees.getD (arrBank d.words) []))
      else a.trees }

/-- Two changes of an array that agree on it. -/
theorem updArray_congr (f g : ArrayUnit → ArrayUnit) (h : f (arrayOf s nn) = g (arrayOf s nn)) :
    updArray s nn f = updArray s nn g := by
  unfold updArray modifyAt
  congr 1
  refine List.ext_getElem? fun i => ?_
  rw [List.getElem?_modify, List.getElem?_modify]
  by_cases hi : nn = i
  · subst hi
    cases hx : s.arrays[nn]? with
    | none => rfl
    | some a =>
      have ha : arrayOf s nn = a := by
        unfold arrayOf
        rw [List.getD_eq_getElem?_getD, hx]
        rfl
      rw [ha] at h
      simp [h]
  · simp [hi]

theorem beginArray_eq (s : State) (nn : Nat) (d : Issued) :
    ∃ w, tileIs w d 0 = true ∧ beginArray s nn d = updArray s nn (fun a => begun a d w s.now) := by
  refine ⟨tileFor s nn d (shadowCol (arrayOf s nn).shadow d.words) 0, tileIs_tileFor _ _ _ _ _, ?_⟩
  exact updArray_congr _ _ rfl

theorem begun_trees_kept (a : ArrayUnit) (w : WTile) (now : Nat) (h : (arrTopK d.words && !arrAcc d.words) = false) :
    (begun a d w now).trees = a.trees := if_neg (by simp [h])

theorem begun_trees_clear (a : ArrayUnit) (w : WTile) (now : Nat) (h : (arrTopK d.words && !arrAcc d.words) = true)
    (hb : arrBank d.words < a.trees.length) (n : Nat) (hn : n < arrN d.words) :
    smGet ((begun a d w now).trees.getD (arrBank d.words) []) n = some {} := by
  have ht : (begun a d w now).trees = a.trees.set (arrBank d.words)
      ((List.range (arrN d.words)).foldl (fun ts n => smSet ts n {}) (a.trees.getD (arrBank d.words) [])) := if_pos h
  rw [ht, getD_set, if_pos ⟨rfl, hb⟩, smGet_foldl_smSet, if_pos (List.mem_range.2 hn)]

theorem takeArray_starts (h : arrayRetired s nn = false)
    (hr : arrReject (updArray s nn (fun a => { a with fifo := r })) nn d.queue d.words = none) :
    takeArray s nn d r = beginArray (updArray s nn (fun a => { a with fifo := r })) nn d := by
  unfold takeArray
  dsimp only
  rw [if_neg (by rw [show arrayRetired (updArray s nn (fun a => { a with fifo := r })) nn = arrayRetired s nn from rfl, h]; decide), hr]

theorem takeArray_rejected {st : Nat} (h : arrayRetired s nn = false)
    (hr : arrReject (updArray s nn (fun a => { a with fifo := r })) nn d.queue d.words = some st) :
    takeArray s nn d r = rejectDesc (updArray s nn (fun a => { a with fifo := r })) d st nn := by
  unfold takeArray
  dsimp only
  rw [if_neg (by rw [show arrayRetired (updArray s nn (fun a => { a with fifo := r })) nn = arrayRetired s nn from rfl, h]; decide), hr]

end

theorem arrayPass_starts (nn : Nat) (tst : List TstEvent) (d : Issued) (r : List Issued) (s : State) (hn : nn < 64)
    (hrun : (arrayOf s nn).run = none) (hf : (arrayOf s nn).fifo = d :: r) (hp : (arrayOf s nn).retirePending = false)
    (hh : holdsArray s nn d = false) (hready : issuedReady s d = true) (hret : arrayRetired s nn = false)
    (hr : arrReject (updArray (applyTst s nn tst) nn (fun a => { a with fifo := r })) nn d.queue d.words = none) :
    ∃ t w, exec (.arrayPass nn tst) s = .next t ∧ t = { s with dic := t.dic, arrays := t.arrays, tilePoison := t.tilePoison }
      ∧ arrayOf t nn = { arrayOf s nn with
          fifo := r, run := some { d := d, c := shadowCol (arrayOf s nn).shadow d.words }, standby := some w
          ranFrom := (arrayOf s nn).ranFrom.or (some s.now), trees := (arrayOf t nn).trees }
      ∧ tileIs w d 0 = true
      ∧ (∀ k, k ≠ nn → arrayOf t k = arrayOf s k)
      ∧ ((arrTopK d.words && !arrAcc d.words) = false → (arrayOf t nn).trees = (arrayOf s nn).trees)
      ∧ ((arrTopK d.words && !arrAcc d.words) = true → arrBank d.words < (arrayOf s nn).trees.length →
          ∀ n, n < arrN d.words → smGet ((arrayOf t nn).trees.getD (arrBank d.words) []) n = some {})
      ∧ (tst = [] → t.tilePoison = s.tilePoison ∧ t.dic = s.dic) ∧ SameObjs s t [Obj.tstCorrected, Obj.tstUncorrectable] := by
  have hself0 := arrayOf_applyTst s nn nn tst
  have hother0 (k : Nat) := arrayOf_applyTst s nn k tst
  have hframe := applyTst_frame s nn tst
  have hobjs := sameObjs_applyTst s nn tst
  have hret0 := (arrayRetired_applyTst s nn nn tst).trans hret
  have hlt : nn < (applyTst s nn tst).arrays.length := by
    rw [applyTst_arrays]
    exact arrays_lt_of_fifo hf
  have hnil (h : tst = []) : (applyTst s nn tst).tilePoison = s.tilePoison ∧ (applyTst s nn tst).dic = s.dic := by
    subst h
    exact ⟨rfl, rfl⟩
  have htake := (arrayPass_idle (tst := tst) hf hp hh hready hrun).trans (takeArray_starts hret0 hr)
  generalize applyTst s nn tst = u at *
  obtain ⟨w, hw, hb⟩ := beginArray_eq (updArray u nn (fun a => { a with fifo := r })) nn d
  have hnow : u.now = s.now := (congrArg State.now hframe :)
  have hself := arrayOf_updArray_self (updArray u nn (fun a => { a with fifo := r })) nn (fun a => begun a d w u.now)
    (by rw [show (updArray u nn (fun a => { a with fifo := r })).arrays.length = u.arrays.length from List.length_modify _ _ _]; exact hlt)
  rw [arrayOf_updArray_self u nn _ hlt, hself0, hnow] at hself
  rw [hb, show (updArray u nn (fun a => { a with fifo := r })).now = u.now from rfl, hnow] at htake
  refine ⟨_, w, (need_lt hn _).trans (congrArg Host.Outcome.next htake), ?_, ?_, hw, fun k hk => ?_, fun h => ?_,
    fun h hlen n hn' => ?_, hnil, hobjs⟩
  · exact congrArg (fun x : State => { x with arrays := (updArray (updArray u nn (fun a => { a with fifo := r })) nn
      (fun a => begun a d w s.now)).arrays }) hframe
  · rw [hself]
    rfl
  · rw [arrayOf_updArray_ne _ _ _ _ hk, arrayOf_updArray_ne _ _ _ _ hk, hother0]
  · rw [hself]
    exact begun_trees_kept _ w s.now h
  · rw [hself]
    exact begun_trees_clear { arrayOf s nn with fifo := r } w s.now h hlen n hn'

theorem arrayPass_rejected (nn : Nat) (d : Issued) (r : List Issued) (st : Nat) (s : State) (hn : nn < 64)
    (hrun : (arrayOf s nn).run = none) (hf : (arrayOf s nn).fifo = d :: r) (hp : (arrayOf s nn).retirePending = false)
    (hh : holdsArray s nn d = false) (hready : issuedReady s d = true) (hret : arrayRetired s nn = false)
    (hin : d.inLayer = false) (hr : arrReject (updArray s nn (fun a => { a with fifo := r })) nn d.queue d.words = some st) :
    ∃ t, exec (.arrayPass nn []) s = .next t ∧ EndFrame { s with arrays := t.arrays } t d.queue
      ∧ arrayOf t nn = { arrayOf s nn with fifo := r } ∧ (∀ k, k ≠ nn → arrayOf t k = arrayOf s k)
      ∧ OneCompleted s t d.queue ∧ SameObjs s t tailObjs := by
  have htake := (arrayPass_idle (tst := []) hf hp hh hready hrun).trans (takeArray_rejected (s := s) hret hr)
  rw [rejectDesc_eq _ _ _ _ hin] at htake
  have hself := arrayOf_updArray_self s nn (fun a => { a with fifo := r }) (arrays_lt_of_fifo hf)
  have hother (k : Nat) (hk : k ≠ nn) := arrayOf_updArray_ne s nn k (fun a => { a with fifo := r }) hk
  have harr := finishDesc_keeps State.arrays (fun _ _ => rfl) (updArray s nn (fun a => { a with fifo := r })) (rejected d st nn)
  have hend := endFrame_finishDesc (updArray s nn (fun a => { a with fifo := r })) (rejected d st nn) le_rfl
  have hone : OneCompleted s (finishDesc (updArray s nn (fun a => { a with fifo := r })) (rejected d st nn)) d.queue :=
    oneCompleted_finishDesc (updArray s nn (fun a => { a with fifo := r })) (rejected d st nn)
  have hobj : SameObjs s (finishDesc (updArray s nn (fun a => { a with fifo := r })) (rejected d st nn)) tailObjs :=
    sameObjs_finishDesc (updArray s nn (fun a => { a with fifo := r })) (rejected d st nn)
  have hv : updArray s nn (fun a => { a with fifo := r })
      = { s with arrays := (updArray s nn (fun a => { a with fifo := r })).arrays } := rfl
  rw [← harr] at hv
  refine ⟨_, (need_lt hn _).trans (congrArg Host.Outcome.next htake), ?_⟩
  generalize finishDesc (updArray s nn (fun a => { a with fifo := r })) (rejected d st nn) = u at *
  refine ⟨hv ▸ hend, ?_, fun k hk => ?_, hone, hobj⟩
  · exact (congrArg (fun l : List ArrayUnit => l.getD nn {}) harr).trans hself
  · exact (congrArg (fun l : List ArrayUnit => l.getD k {}) harr).trans (hother k hk)

/-! ### A descriptor in progress that only hands its bank over -/

theorem arrayPass_follows (nn : Nat) (tst : List TstEvent) (d : Issued) (r : List Issued) (run : ArrayRun) (s : State) (hn : nn < 64)
    (hrun : (arrayOf s nn).run = some run) (hf : (arrayOf s nn).fifo = d :: r) (hp : (arrayOf s nn).retirePending = false)
    (hh : holdsArray s nn d = false) (hready : issuedReady s d = true) :
    ((arrayOf s nn).leaving = none → mayFollow run d.words = true →
      ∃ u, leaveCells s nn run = u ∧ u = { s with arrays := u.arrays } ∧ (∀ k, k ≠ nn → arrayOf u k = arrayOf s k)
        ∧ arrayOf u nn = { arrayOf s nn with
            leaving := some { run with res := tileResult run ((arrayOf s nn).banks.getD (arrBank run.d.words) []) }
            shadow := cursorAfter (arrayOf s nn) run, run := none }
        ∧ exec (.arrayPass nn tst) s = exec (.arrayPass nn tst) u)
    ∧ ((arrayOf s nn).leaving ≠ none ∨ mayFollow run d.words = false → exec (.arrayPass nn tst) s = .next s) := by
  have hway := arrayPass_running (tst := tst) hf hp hh hready hrun
  refine ⟨fun hl hm => ?_, fun h => ?_⟩
  · have hself : arrayOf (leaveCells s nn run) nn = { arrayOf s nn with
        leaving := some { run with res := tileResult run ((arrayOf s nn).banks.getD (arrBank run.d.words) []) }
        shadow := cursorAfter (arrayOf s nn) run, run := none } :=
      arrayOf_updArray_self s nn _ (arrays_lt_of_fifo hf)
    have hidle : arrayPass (leaveCells s nn run) nn tst = takeArray (applyTst (leaveCells s nn run) nn tst) nn d r :=
      arrayPass_idle (by rw [hself]; exact hf) (by rw [hself]; exact hp) hh hready (by rw [hself])
    rw [if_pos (by rw [hl, hm]; rfl)] at hway
    refine ⟨_, rfl, rfl, fun k hk => arrayOf_updArray_ne s nn k _ hk, hself, ?_⟩
    refine (need_lt hn _).trans (.trans (congrArg Host.Outcome.next ?_) (need_lt hn _).symm)
    rw [hway, hidle]
    unfold leaveCells
    rw [applyTst_updArray]
  · refine (need_lt hn _).trans (congrArg Host.Outcome.next (hway.trans (if_neg ?_)))
    rcases h with h | h
    · cases hl : (arrayOf s nn).leaving with
      | none => exact absurd hl h
      | some l => simp
    · simp [h]

/-! ### A descriptor that does not start -/

section
variable {nn : Nat} {s : State} {d : Issued}

theorem preload_off {tst : List TstEvent} (hready : issuedReady s d = false)
    (h : d.early = false ∨ (arrayOf s nn).run ≠ none ∨ arrayRetired s nn = true) : preload s nn d tst = s := by
  unfold arrayOf at h
  unfold preload mayLoad
  dsimp only
  refine if_pos ?_
  rcases h with h | h | h
  · simp [h, hready]
  · rw [Option.isSome_iff_ne_none.2 h]
    simp
  · simp [h]

theorem preload_loads {tst : List TstEvent} (hearly : d.early = true) (hrun : (arrayOf s nn).run = none)
    (hst : (arrayOf s nn).standby = none) (hret : arrayRetired s nn = false) (hr : arrReject s nn d.queue d.words = none) :
    ∃ w, tileIs w d 0 = true
      ∧ preload s nn d tst = updArray (applyTst s nn tst) nn (fun a => { a with standby := some w }) := by
  refine ⟨loadTile (applyTst s nn tst) nn d (shadowCol (arrayOf s nn).shadow d.words) 0 0, ?_, ?_⟩
  · unfold tileIs loadTile
    simp
  · unfold arrayOf at hrun hst
    unfold preload mayLoad
    dsimp only
    refine if_neg ?_
    rw [hearly, hrun, hst, hret, hr]
    simp

end

theorem arrayPass_waits (nn : Nat) (tst : List TstEvent) (d : Issued) (r : List Issued) (s : State) (hn : nn < 64)
    (hf : (arrayOf s nn).fifo = d :: r) :
    ((arrayOf s nn).retirePending = true ∨ holdsArray s nn d = true → exec (.arrayPass nn tst) s = .next s)
    ∧ ((arrayOf s nn).retirePending = false → holdsArray s nn d = false → issuedReady s d = false →
      (d.early = false ∨ (arrayOf s nn).run ≠ none ∨ arrayRetired s nn = true → exec (.arrayPass nn tst) s = .next s)
      ∧ (d.early = true → (arrayOf s nn).run = none → (arrayOf s nn).standby = none → arrayRetired s nn = false →
        arrReject s nn d.queue d.words = none →
        ∃ t w, exec (.arrayPass nn tst) s = .next t ∧ t = { s with dic := t.dic, arrays := t.arrays, tilePoison := t.tilePoison }
          ∧ arrayOf t nn = { arrayOf s nn with standby := some w } ∧ tileIs w d 0 = true
          ∧ (∀ k, k ≠ nn → arrayOf t k = arrayOf s k) ∧ SameObjs s t [Obj.tstCorrected, Obj.tstUncorrectable])) := by
  refine ⟨fun h => (need_lt hn _).trans (congrArg Host.Outcome.next (arrayPass_held hf h)), fun hp hh hready =>
    ⟨fun h => (need_lt hn _).trans (congrArg Host.Outcome.next ((arrayPass_early hf hp hh hready).trans (preload_off hready h))),
      fun hearly hrun hst hret hr => ?_⟩⟩
  obtain ⟨w, hw, hload⟩ := preload_loads (tst := tst) hearly hrun hst hret hr
  have hframe := applyTst_frame s nn tst
  have hlt : nn < (applyTst s nn tst).arrays.length := by
    rw [applyTst_arrays]
    exact arrays_lt_of_fifo hf
  refine ⟨_, w, (need_lt hn _).trans (congrArg Host.Outcome.next ((arrayPass_early hf hp hh hready).trans hload)), ?_, ?_, hw,
    fun k hk => ?_, sameObjs_applyTst s nn tst⟩
  · exact congrArg (fun x : State => { x with arrays := (updArray (applyTst s nn tst) nn
      (fun a => { a with standby := some w })).arrays }) hframe
  · rw [arrayOf_updArray_self _ _ _ hlt, arrayOf_applyTst]
  · rw [arrayOf_updArray_ne _ _ _ _ hk, arrayOf_applyTst]

theorem arrayPass_none (nn : Nat) (tst : List TstEvent) (s : State) (hn : nn < 64) (hf : (arrayOf s nn).fifo = []) :
    exec (.arrayPass nn tst) s = .next s := (need_lt hn _).trans (congrArg Host.Outcome.next (arrayPass_empty hf))

end Sys2Proof.Machine

/-!
Rows of an array (R62, R72 to R75, R91): what a row's commit, its check and its entry into the trees change.
-/

namespace Sys2Proof.Machine

/-! ### Steps that change rows of one array alone -/

/-- Only the objects and, of one array, its rows change. -/
def RowFrame (s t : State) (nn b : Nat) : Prop := t = { s with dic := t.dic, arrays := t.arrays } ∧ OnlyRowsOf s t nn b

theorem RowFrame.refl (s : State) (nn b : Nat) : RowFrame s s nn b := ⟨rfl, fun _ _ => rfl, rfl, fun _ _ => ⟨rfl, rfl⟩⟩

theorem RowFrame.trans {s t u : State} {nn b : Nat} (h : RowFrame s t nn b) (h' : RowFrame t u nn b) : RowFrame s u nn b := by
  obtain ⟨hf, hother, hself, hbanks⟩ := h
  obtain ⟨hf', hother', hself', hbanks'⟩ := h'
  refine ⟨hf'.trans (congrArg (fun x : State => { x with dic := u.dic, arrays := u.arrays }) hf),
    fun k hk => (hother' k hk).trans (hother k hk), hself'.trans (congrArg (fun x : ArrayUnit => { x with
      run := (arrayOf u nn).run, banks := (arrayOf u nn).banks, bankMeta := (arrayOf u nn).bankMeta
      trees := (arrayOf u nn).trees, active := (arrayOf u nn).active, standby := (arrayOf u nn).standby }) hself), fun k hk => ?_⟩
  exact ⟨(hbanks' k hk).1.trans (hbanks k hk).1, (hbanks' k hk).2.trans (hbanks k hk).2⟩

theorem RowFrame.of_objPut (s : State) (k v nn b : Nat) : RowFrame s (objPut s k v) nn b :=
  ⟨rfl, fun _ _ => rfl, rfl, fun _ _ => ⟨rfl, rfl⟩⟩

/-- A change of an array that leaves its other bank and trees as they are, and all but its rows. -/
theorem RowFrame.of_updArray {s : State} {nn b : Nat} {f : ArrayUnit → ArrayUnit}
    (h : f (arrayOf s nn) = { arrayOf s nn with
        run := (f (arrayOf s nn)).run, banks := (f (arrayOf s nn)).banks, bankMeta := (f (arrayOf s nn)).bankMeta
        trees := (f (arrayOf s nn)).trees, active := (f (arrayOf s nn)).active, standby := (f (arrayOf s nn)).standby })
    (hb : ∀ k, k ≠ b → (f (arrayOf s nn)).banks.getD k [] = (arrayOf s nn).banks.getD k []
      ∧ (f (arrayOf s nn)).trees.getD k [] = (arrayOf s nn).trees.getD k []) : RowFrame s (updArray s nn f) nn b := by
  refine ⟨rfl, fun k hk => arrayOf_updArray_ne s nn k f hk, ?_⟩
  by_cases hlt : nn < s.arrays.length
  · rw [arrayOf_updArray_self s nn f hlt]
    exact ⟨h, hb⟩
  · have hsame : arrayOf (updArray s nn f) nn = arrayOf s nn := by
      unfold arrayOf updArray
      rw [getD_modifyAt, if_neg (by tauto)]
    rw [hsame]
    exact ⟨rfl, fun _ _ => ⟨rfl, rfl⟩⟩

theorem RowFrame.of_updRun (s : State) (nn b : Nat) (f : ArrayRun → ArrayRun) : RowFrame s (updRun s nn f) nn b :=
  RowFrame.of_updArray rfl fun _ _ => ⟨rfl, rfl⟩

section
variable {nn : Nat} {s : State} {run : ArrayRun}

/-- An array that runs a descriptor exists. -/
theorem arrays_lt_of_run (h : (arrayOf s nn).run = some run) : nn < s.arrays.length := by
  by_contra hn
  unfold arrayOf at h
  rw [List.getD_eq_default _ _ (by omega)] at h
  cases h

/-- A run changed, and nothing else of its array. -/
theorem arrayOf_updRun (f : ArrayRun → ArrayRun) (h : (arrayOf s nn).run = some run) :
    arrayOf (updRun s nn f) nn = { arrayOf s nn with run := some (f run) } := by
  unfold updRun
  rw [arrayOf_updArray_self s nn _ (arrays_lt_of_run h), h]
  rfl

/-! ### Rows that enter the trees (R91) -/

/-- The values of the row that enters next. -/
def enteringVals (a : ArrayUnit) (run : ArrayRun) : List BankVal :=
  (List.range (arrN run.d.words)).map (fun n =>
    smGetD (a.banks.getD (arrBank run.d.words) []) (run.entered * arrNt run.d.words + n) ⟨0, false⟩)

/-- The trees that the next row has entered. -/
def enteredTrees (a : ArrayUnit) (run : ArrayRun) : SMap Tree :=
  ((enteringVals a run).zipIdx).foldl (fun ts x =>
    smSet ts x.2 (treeEnter (arrMode run.d.words) (arrA run.d.words).isInt (arrKm1 run.d.words + 1) (smGetD ts x.2 {}) x.1))
    (a.trees.getD (arrBank run.d.words) [])

/-- How many values of the next row the trees leave out. -/
def leftOut (a : ArrayUnit) (run : ArrayRun) : Nat :=
  ((enteringVals a run).filter (fun v => v.tag || (!(arrA run.d.words).isInt && (decodeK .k32 v.value.toNat).isNar))).length

/-- A run one more row of which has entered the trees. -/
def enteredRun (a : ArrayUnit) (run r : ArrayRun) : ArrayRun :=
  { r with entered := r.entered + 1
           res := { r.res with
             excluded := satAdd top32 r.res.excluded (leftOut a run)
             narSeen := r.res.narSeen || ((arrA run.d.words).isInt && (enteringVals a run).any (fun v => v.tag)) } }

/-- The state after one more row has entered the trees. -/
def rowEntered (s : State) (nn : Nat) (run : ArrayRun) : State :=
  updRun (objAdd (updArray s nn (fun a => { a with trees := a.trees.set (arrBank run.d.words) (enteredTrees (arrayOf s nn) run) }))
    Obj.metricRowsExcluded (leftOut (arrayOf s nn) run)) nn (enteredRun (arrayOf s nn) run)

/-- Whether no row may enter the trees now. -/
def entryHolds (run : ArrayRun) : Bool :=
  !arrTopK run.d.words || run.pass + 1 != arrTiles run.d.words || decide (run.row ≤ run.entered) || run.missed.contains run.entered

theorem enterRows_succ (fuel : Nat) (h : (arrayOf s nn).run = some run) :
    enterRows s nn (fuel + 1) = if entryHolds run then s else enterRows (rowEntered s nn run) nn fuel := by
  unfold arrayOf at h
  rw [enterRows, h] <;> rfl

/-- What rows entering the trees leave of an array's run. -/
theorem enterRows_facts (fuel : Nat) (h : (arrayOf s nn).run = some run) :
    RowFrame s (enterRows s nn fuel) nn (arrBank run.d.words) ∧ (arrayOf (enterRows s nn fuel) nn).banks = (arrayOf s nn).banks
    ∧ (∃ e x, (arrayOf (enterRows s nn fuel) nn).run = some { run with entered := e, res := x })
    ∧ SameObjs s (enterRows s nn fuel) [Obj.metricRowsExcluded] := by
  induction fuel generalizing s run with
  | zero => exact ⟨RowFrame.refl _ _ _, rfl, ⟨_, _, h⟩, SameObjs.refl _ _⟩
  | succ fuel ih =>
    rw [enterRows_succ fuel h]
    split
    · exact ⟨RowFrame.refl _ _ _, rfl, ⟨_, _, h⟩, SameObjs.refl _ _⟩
    · have hset := arrayOf_updArray_self s nn (fun a => { a with
        trees := a.trees.set (arrBank run.d.words) (enteredTrees (arrayOf s nn) run) }) (arrays_lt_of_run h)
      have hself : arrayOf (rowEntered s nn run) nn = { arrayOf s nn with
          trees := (arrayOf s nn).trees.set (arrBank run.d.words) (enteredTrees (arrayOf s nn) run)
          run := some (enteredRun (arrayOf s nn) run run) } :=
        (arrayOf_updRun (run := run) _ ((congrArg ArrayUnit.run hset).trans h)).trans
          (congrArg (fun a : ArrayUnit => { a with run := some (enteredRun (arrayOf s nn) run run) }) hset)
      have hstep : RowFrame s (rowEntered s nn run) nn (arrBank run.d.words) :=
        ((RowFrame.of_updArray rfl fun k hk => ⟨rfl, by rw [getD_set, if_neg (fun hx => hk hx.1.symm)]⟩).trans
          (RowFrame.of_objPut _ _ _ _ _)).trans (RowFrame.of_updRun _ _ _ _)
      have hobjs : SameObjs s (rowEntered s nn run) [Obj.metricRowsExcluded] :=
        (((SameObjs.refl s _).of_dic rfl).objAdd _ _ (by decide)).of_dic rfl
      obtain ⟨hframe, hbanks, ⟨e, x, hrun⟩, hsame⟩ := ih (s := rowEntered s nn run) (run := enteredRun (arrayOf s nn) run run)
        (congrArg ArrayUnit.run hself)
      exact ⟨hstep.trans hframe, hbanks.trans (congrArg ArrayUnit.banks hself :), ⟨e, x, hrun⟩, hobjs.trans hsame⟩

/-! ### A row committed (R62) -/

/-- Outputs written into a bank leave what is before and after them. -/
theorem commitOuts_outside (ws : List Word64) (m : Nat) (int : Bool) (l : List Acc) (n : Nat) (b : SMap BankVal)
    (f : SMap ElemFlags) (k : Nat) (hk : k < m * arrNt ws + n ∨ m * arrNt ws + n + l.length ≤ k) :
    smGet (commitOuts ws m int l n b f).1 k = smGet b k := by
  induction l generalizing n b f with
  | nil => rfl
  | cons a r ih =>
    rw [List.length_cons] at hk
    rw [commitOuts]
    rw [ih _ _ _ (by omega), smGet_smSet_ne _ _ _ _ (by omega)]

/-- An output written into a bank. -/
theorem commitOuts_value (ws : List Word64) (m : Nat) (int : Bool) (l : List Acc) (n : Nat) (b : SMap BankVal)
    (f : SMap ElemFlags) (i : Nat) (a : Acc) (h : l[i]? = some a) :
    smGet (commitOuts ws m int l n b f).1 (m * arrNt ws + (n + i))
      = some ⟨BitVec.ofNat 32 a.code, a.f.poison && (int || !int && (decodeK .k32 a.code).isNar)⟩ := by
  induction l generalizing n b f i with
  | nil => cases h
  | cons x r ih =>
    rw [commitOuts]
    cases i with
    | zero =>
      cases h
      rw [commitOuts_outside _ _ _ _ _ _ _ _ (Or.inl (by omega)), Nat.add_zero, smGet_smSet_self]
    | succ i =>
      rw [show n + (i + 1) = n + 1 + i by omega]
      exact ih (n + 1) _ _ i h

/-- The bank and the flags of a run with one more row of outputs. -/
def rowWritten (a : ArrayUnit) (run : ArrayRun) (m : Nat) (outs : List Acc) : SMap BankVal × SMap ElemFlags :=
  commitOuts run.d.words m (arrA run.d.words).isInt outs 0 (a.banks.getD (arrBank run.d.words) []) run.flags

/-- An array whose bank a row is written to. -/
def rowStored (run : ArrayRun) (x : SMap BankVal) (a : ArrayUnit) : ArrayUnit :=
  { a with
    banks := a.banks.set (arrBank run.d.words) x
    bankMeta := a.bankMeta.set (arrBank run.d.words) (some
      { mode := arrMode run.d.words, topK := arrTopK run.d.words, k := arrKm1 run.d.words + 1, fmt := arrAFmt run.d.words }) }

/-- The saturations that a row of a metric mode counts. -/
def satsCounted (s : State) (run : ArrayRun) (outs : List Acc) : State :=
  if arrMode run.d.words = 0 then s else objAdd s Obj.metricSaturations (outs.map Acc.sat).sum

/-- The invalid operations of a row: where each output's first one is. -/
def rowFirsts (m : Nat) (outs : List Acc) : List (Nat × Nat × Nat) :=
  (outs.zipIdx).filterMap (fun y => y.1.first.map (fun k => (k, m, y.2)))

/-- A run one more row of which is committed. -/
def committedRun (m : Nat) (outs : List Acc) (x : SMap ElemFlags) (r : ArrayRun) : ArrayRun :=
  { r with
    flags := x
    committed := r.committed + 1
    res := addUf { r.res with first := (rowFirsts m outs).foldl firstOf r.res.first } (outs.map Acc.uf).sum }

theorem commitArrayRow_eq (m : Nat) (outs : List Acc) (h : (arrayOf s nn).run = some run) : commitArrayRow s nn m outs =
    updRun (satsCounted (updArray s nn (rowStored run (rowWritten (arrayOf s nn) run m outs).1)) run outs) nn
      (committedRun m outs (rowWritten (arrayOf s nn) run m outs).2) := by
  unfold arrayOf at h
  unfold commitArrayRow
  rw [h] <;> rfl

theorem RowFrame.of_satsCounted (s : State) (run : ArrayRun) (outs : List Acc) (nn b : Nat) :
    RowFrame s (satsCounted s run outs) nn b ∧ (satsCounted s run outs).arrays = s.arrays
    ∧ SameObjs s (satsCounted s run outs) [Obj.metricSaturations] := by
  unfold satsCounted
  split
  · exact ⟨RowFrame.refl _ _ _, rfl, SameObjs.refl _ _⟩
  · exact ⟨RowFrame.of_objPut _ _ _ _ _, rfl, (SameObjs.refl _ _).objAdd _ _ (by decide)⟩

/-- What a row's commit leaves of an array's run and bank. -/
theorem commitArrayRow_facts (m : Nat) (outs : List Acc) (h : (arrayOf s nn).run = some run) :
    RowFrame s (commitArrayRow s nn m outs) nn (arrBank run.d.words)
    ∧ (arrayOf (commitArrayRow s nn m outs) nn).banks
        = (arrayOf s nn).banks.set (arrBank run.d.words) (rowWritten (arrayOf s nn) run m outs).1
    ∧ (∃ f x, (arrayOf (commitArrayRow s nn m outs) nn).run = some { run with committed := run.committed + 1, flags := f, res := x })
    ∧ SameObjs s (commitArrayRow s nn m outs) [Obj.metricSaturations] := by
  rw [commitArrayRow_eq m outs h]
  have hset := arrayOf_updArray_self s nn (rowStored run (rowWritten (arrayOf s nn) run m outs).1) (arrays_lt_of_run h)
  have hstep : RowFrame s (updArray s nn (rowStored run (rowWritten (arrayOf s nn) run m outs).1)) nn (arrBank run.d.words) :=
    RowFrame.of_updArray rfl fun k hk => ⟨by unfold rowStored; rw [getD_set, if_neg (fun hx => hk hx.1.symm)], rfl⟩
  have hobj : SameObjs s (updArray s nn (rowStored run (rowWritten (arrayOf s nn) run m outs).1)) [Obj.metricSaturations] :=
    (SameObjs.refl s _).of_dic rfl
  generalize updArray s nn (rowStored run (rowWritten (arrayOf s nn) run m outs).1) = u at *
  obtain ⟨hframe, harr, hsats⟩ := RowFrame.of_satsCounted u run outs nn (arrBank run.d.words)
  generalize satsCounted u run outs = v at *
  have hv : arrayOf v nn = rowStored run (rowWritten (arrayOf s nn) run m outs).1 (arrayOf s nn) :=
    (congrArg (fun l : List ArrayUnit => l.getD nn {}) harr).trans hset
  have hself := arrayOf_updRun (committedRun m outs (rowWritten (arrayOf s nn) run m outs).2)
    ((congrArg ArrayUnit.run hv).trans h)
  rw [hv] at hself
  exact ⟨(hstep.trans hframe).trans (RowFrame.of_updRun _ _ _ _), congrArg ArrayUnit.banks hself, ⟨_, _, congrArg ArrayUnit.run hself⟩,
    (hobj.trans hsats).of_dic rfl⟩

/-- A row committed, and the trees entered. -/
def rowKept (s : State) (nn m : Nat) (outs : List Acc) (fuel : Nat) : State := enterRows (commitArrayRow s nn m outs) nn fuel

/-- What a row that is kept leaves of its array. -/
theorem rowKept_facts (m : Nat) (outs : List Acc) (fuel : Nat) (h : (arrayOf s nn).run = some run) :
    RowFrame s (rowKept s nn m outs fuel) nn (arrBank run.d.words)
    ∧ (arrayOf (rowKept s nn m outs fuel) nn).banks
        = (arrayOf s nn).banks.set (arrBank run.d.words) (rowWritten (arrayOf s nn) run m outs).1
    ∧ (∃ e f x, (arrayOf (rowKept s nn m outs fuel) nn).run
        = some { run with committed := run.committed + 1, entered := e, flags := f, res := x })
    ∧ SameObjs s (rowKept s nn m outs fuel) [Obj.metricSaturations, Obj.metricRowsExcluded] := by
  obtain ⟨hframe, hbanks, ⟨f, x, hrun⟩, hobj⟩ := commitArrayRow_facts m outs h
  obtain ⟨hframe', hbanks', ⟨e, y, hrun'⟩, hobj'⟩ := enterRows_facts fuel hrun
  exact ⟨hframe.trans hframe', hbanks'.trans hbanks, ⟨e, f, y, hrun'⟩,
    (hobj.mono (by simp)).trans (hobj'.mono (by simp))⟩

end

end Sys2Proof.Machine

/-!
ARRAY_ROW_COMMIT and WITNESS_RERUN_DONE (R62, R64, R72 to R75); O7 settled.
-/

namespace Sys2Proof.Machine

section
variable {nn : Nat} {s : State} {run next : ArrayRun} {upset : List (Nat × Nat)}

/-! ### Tiles swapped and reloaded -/

/-- What of an array a load of its weight registers leaves. -/
theorem tilesLoaded_facts (h : (arrayOf s nn).run = some run) (w n : Option WTile) (b : Nat) :
    RowFrame s (updArray s nn (fun a => { a with active := w, standby := n })) nn b
    ∧ arrayOf (updArray s nn (fun a => { a with active := w, standby := n })) nn
        = { arrayOf s nn with active := w, standby := n } :=
  ⟨RowFrame.of_updArray rfl fun _ _ => ⟨rfl, rfl⟩, arrayOf_updArray_self s nn _ (arrays_lt_of_run h)⟩

theorem rowState_facts (h : (arrayOf s nn).run = some run) (next : ArrayRun) (b : Nat) :
    RowFrame s (rowState s nn next) nn b
    ∧ (∃ w n, arrayOf (rowState s nn next) nn = { arrayOf s nn with active := w, standby := n })
    ∧ SameObjs s (rowState s nn next) [Obj.arrayLoadWaitSteps] := by
  unfold rowState
  split
  · obtain ⟨hframe, hself⟩ := tilesLoaded_facts
      (s := objAdd s Obj.arrayLoadWaitSteps (tileFor s nn next.d next.c next.pass).wait) h
      (some (tileFor s nn next.d next.c next.pass)) (nextTile s nn next) b
    exact ⟨(RowFrame.of_objPut _ _ _ _ _).trans hframe, ⟨_, _, hself⟩,
      ((SameObjs.refl s _).objAdd Obj.arrayLoadWaitSteps _ (by decide)).of_dic rfl⟩
  · exact ⟨RowFrame.refl _ _ _, ⟨_, _, rfl⟩, SameObjs.refl _ _⟩

/-! ### What a check counts -/

theorem countCheck_facts (s : State) (run : ArrayRun) (c : Check) (nn b : Nat) :
    RowFrame s (countCheck s run c) nn b ∧ (countCheck s run c).arrays = s.arrays
    ∧ SameObjs s (countCheck s run c) [Obj.shadowChecks, Obj.witnessRowsSkipped]
    ∧ (c = .miss → SameObjs s (countCheck s run c) [Obj.shadowChecks]) := by
  unfold countCheck
  dsimp only
  by_cases hskip : arrMode run.d.words = 0 ∧ c = .skip
  · rw [if_pos hskip]
    have hinc : RowFrame s (objInc s Obj.witnessRowsSkipped) nn b := RowFrame.of_objPut _ _ _ _ _
    have hobj : SameObjs s (objInc s Obj.witnessRowsSkipped) [Obj.shadowChecks, Obj.witnessRowsSkipped] :=
      (SameObjs.refl s _).objInc _ (by decide)
    have hne : c ≠ .miss := by
      rw [hskip.2]
      decide
    split
    · exact ⟨hinc.trans (RowFrame.of_objPut _ _ _ _ _), rfl, hobj.objInc _ (by decide), fun h => absurd h hne⟩
    · exact ⟨hinc, rfl, hobj, fun h => absurd h hne⟩
  · rw [if_neg hskip]
    split
    · exact ⟨RowFrame.of_objPut _ _ _ _ _, rfl, (SameObjs.refl s _).objInc _ (by decide),
        fun _ => (SameObjs.refl s _).objInc _ (by decide)⟩
    · exact ⟨RowFrame.refl _ _ _, rfl, SameObjs.refl _ _, fun _ => SameObjs.refl _ _⟩

theorem keepShadow_facts (x : ArrayRun) (m code b : Nat) (h : (arrayOf s nn).run = some run) :
    RowFrame s (keepShadow s nn x m code) nn b
    ∧ (∃ v, arrayOf (keepShadow s nn x m code) nn = { arrayOf s nn with run := some { run with shadow := v } })
    ∧ SameObjs s (keepShadow s nn x m code) [] := by
  unfold keepShadow
  split
  · exact ⟨RowFrame.of_updRun _ _ _ _, ⟨_, arrayOf_updRun (fun r => { r with shadow := smSet r.shadow m code }) h⟩,
      (SameObjs.refl s _).of_dic rfl⟩
  · refine ⟨RowFrame.refl _ _ _, ⟨run.shadow, ?_⟩, SameObjs.refl _ _⟩
    calc arrayOf s nn = { arrayOf s nn with run := (arrayOf s nn).run } := rfl
      _ = { arrayOf s nn with run := some run } := by rw [h]

/-! ### A row that is kept -/

/-- The values that a kept row leaves in its bank, and the values it leaves alone. -/
theorem rowWritten_bank {a : ArrayUnit} (m : Nat) (outs : List Acc) (bs : List (SMap BankVal)) (hb : arrBank run.d.words < a.banks.length)
    (h : bs = a.banks.set (arrBank run.d.words) (rowWritten a run m outs).1) :
    (∀ n x, outs[n]? = some x → smGet (bs.getD (arrBank run.d.words) []) (m * arrNt run.d.words + n)
      = some ⟨BitVec.ofNat 32 x.code, x.f.poison && ((arrA run.d.words).isInt
          || !(arrA run.d.words).isInt && (decodeK .k32 x.code).isNar)⟩)
    ∧ (∀ k, k < m * arrNt run.d.words ∨ m * arrNt run.d.words + outs.length ≤ k →
      smGet (bs.getD (arrBank run.d.words) []) k = smGet (a.banks.getD (arrBank run.d.words) []) k) := by
  subst h
  refine ⟨fun n x hx => ?_, fun k hk => ?_⟩
  · rw [getD_set, if_pos ⟨rfl, hb⟩]
    have hval := commitOuts_value run.d.words m (arrA run.d.words).isInt outs 0
      (a.banks.getD (arrBank run.d.words) []) run.flags n x hx
    rw [Nat.zero_add] at hval
    exact hval
  · rw [getD_set, if_pos ⟨rfl, hb⟩]
    exact commitOuts_outside _ _ _ _ _ _ _ _ (by omega)

theorem length_rowOutputs (s : State) (nn : Nat) (run : ArrayRun) (m : Nat) (upset : List (Nat × Nat)) :
    (rowOutputs s nn run m upset).length = arrN run.d.words := by
  unfold rowOutputs
  simp

/-! ### ARRAY_ROW_COMMIT -/

/-- Column N's output of a row, where a descriptor computes one. -/
def shadowCode (s : State) (nn : Nat) (run : ArrayRun) (m : Nat) (upset : List (Nat × Nat)) : Nat :=
  if hasShadow run.d.words then shadowOutput s nn run m upset else 0

/-- The state in which a row's check has been counted. -/
def rowTaken (s : State) (nn : Nat) (next : ArrayRun) (c : Check) : State :=
  countCheck (updRun (rowState s nn next) nn (fun _ => { next with row := next.row + 1 })) next c

/-- The state after a row whose check missed. -/
def rowMissed (s : State) (nn : Nat) (next : ArrayRun) : State :=
  updRun (countMiss (rowTaken s nn next .miss) nn) nn (fun r => { r with missed := r.missed ++ [next.row] })

/-- The state after the next row, by its check. -/
def rowSettled (s : State) (nn : Nat) (next : ArrayRun) (upset : List (Nat × Nat)) : Check → State
  | .miss => rowMissed s nn next
  | c => rowKept (keepShadow (rowTaken s nn next c) nn next next.row (shadowCode (rowState s nn next) nn next next.row upset)) nn
      next.row (rowOutputs (rowState s nn next) nn next next.row upset) (arrM next.d.words)

theorem rowSettled_kept {c : Check} (h : c ≠ .miss) : rowSettled s nn next upset c =
    rowKept (keepShadow (rowTaken s nn next c) nn next next.row (shadowCode (rowState s nn next) nn next next.row upset)) nn
      next.row (rowOutputs (rowState s nn next) nn next next.row upset) (arrM next.d.words) := by
  cases c with
  | miss => exact absurd rfl h
  | pass => rfl
  | skip => rfl

theorem rowCommit_next (h : (arrayOf s nn).run = some run) (hn : NextRow run next) :
    rowCommit s nn upset = rowSettled s nn next upset (rowCheck (rowState s nn next) nn next next.row upset) := by
  unfold arrayOf at h
  unfold rowCommit
  rw [h]
  dsimp only
  rcases hn with ⟨hrow, rfl⟩ | ⟨hrow, hmissed, hpass, hnx⟩
  · rw [decide_eq_false (by omega)]
    simp only [Bool.false_and, Bool.false_eq_true, if_false]
    unfold rowCheck rowState
    split
    next hc =>
      rw [hc]
      rfl
    next hne => exact (rowSettled_kept hne).symm
  · rw [← hnx, decide_eq_true hrow, hmissed, beq_false_of_ne hpass, if_neg (by simp)]
    simp only [if_true]
    have hdesc : run.d = next.d := (congrArg ArrayRun.d hnx).symm
    rw [hdesc]
    unfold rowCheck rowState
    split
    next hc =>
      rw [hc]
      rfl
    next hne => exact (rowSettled_kept hne).symm

/-- What is left of the run when the next row has been taken. -/
theorem rowTaken_facts (h : (arrayOf s nn).run = some run) (next : ArrayRun) (c : Check) (b : Nat) :
    RowFrame s (rowTaken s nn next c) nn b
    ∧ (arrayOf (rowTaken s nn next c) nn).run = some { next with row := next.row + 1 }
    ∧ (arrayOf (rowTaken s nn next c) nn).banks = (arrayOf s nn).banks
    ∧ (arrayOf (rowTaken s nn next c) nn).trees = (arrayOf s nn).trees
    ∧ (arrayOf (rowTaken s nn next c) nn).bankMeta = (arrayOf s nn).bankMeta
    ∧ SameObjs s (rowTaken s nn next c) [Obj.shadowChecks, Obj.witnessRowsSkipped, Obj.arrayLoadWaitSteps]
    ∧ (c = .miss → SameObjs s (rowTaken s nn next c) [Obj.shadowChecks, Obj.arrayLoadWaitSteps]) := by
  obtain ⟨hframe, ⟨w, n, hself⟩, hobj⟩ := rowState_facts h next b
  have hrun : (arrayOf (rowState s nn next) nn).run = some run := by
    rw [hself]
    exact h
  have hset := arrayOf_updRun (fun _ => { next with row := next.row + 1 }) hrun
  have hstep := RowFrame.of_updRun (rowState s nn next) nn b (fun _ => { next with row := next.row + 1 })
  have hsame : SameObjs s (updRun (rowState s nn next) nn (fun _ => { next with row := next.row + 1 })) [Obj.arrayLoadWaitSteps] :=
    hobj.of_dic rfl
  obtain ⟨hframe', harr, hskip, hmiss⟩ := countCheck_facts
    (updRun (rowState s nn next) nn (fun _ => { next with row := next.row + 1 })) next c nn b
  have hfinal : arrayOf (rowTaken s nn next c) nn = { arrayOf s nn with
      active := w, standby := n, run := some { next with row := next.row + 1 } } :=
    (congrArg (fun l : List ArrayUnit => l.getD nn {}) harr).trans (hset.trans
      (congrArg (fun a : ArrayUnit => { a with run := some { next with row := next.row + 1 } }) hself))
  refine ⟨(hframe.trans hstep).trans hframe', ?_, ?_, ?_, ?_, (hsame.mono (by simp)).trans (hskip.mono (by simp)),
    fun hc => (hsame.mono (by simp)).trans ((hmiss hc).mono (by simp))⟩
  all_goals rw [hfinal]

theorem nextRow_desc (h : NextRow run next) : next.d = run.d ∧ next.committed = run.committed ∧ next.missed = run.missed
    ∧ next.handed = run.handed ∧ next.lost = run.lost ∧ next.c = run.c := by
  rcases h with ⟨-, rfl⟩ | ⟨-, -, -, rfl⟩
  · exact ⟨rfl, rfl, rfl, rfl, rfl, rfl⟩
  · exact ⟨rfl, rfl, rfl, rfl, rfl, rfl⟩

end

theorem rowCommit_kept (nn : Nat) (upset : List (Nat × Nat)) (run next : ArrayRun) (s : State) (hn : nn < 64)
    (hrun : (arrayOf s nn).run = some run) (hnext : NextRow run next) (hb : arrBank run.d.words < (arrayOf s nn).banks.length)
    (hc : rowCheck (rowState s nn next) nn next next.row upset ≠ .miss) :
    ∃ t run', exec (.arrayRowCommit nn upset) s = .next t ∧ t = { s with dic := t.dic, arrays := t.arrays }
      ∧ OnlyRowsOf s t nn (arrBank run.d.words) ∧ (arrayOf t nn).run = some run' ∧ run'.row = next.row + 1
      ∧ run'.pass = next.pass ∧ run'.committed = run.committed + 1 ∧ run'.missed = run.missed ∧ run'.d = run.d
      ∧ run'.handed = run.handed ∧ run'.lost = run.lost ∧ run'.c = run.c
      ∧ (∀ n a, (rowOutputs (rowState s nn next) nn next next.row upset)[n]? = some a →
          (smGet ((arrayOf t nn).banks.getD (arrBank run.d.words) []) (next.row * arrNt run.d.words + n)).map BankVal.value
            = some (BitVec.ofNat 32 a.code))
      ∧ (∀ k, k < next.row * arrNt run.d.words ∨ next.row * arrNt run.d.words + arrN run.d.words ≤ k →
          smGet ((arrayOf t nn).banks.getD (arrBank run.d.words) []) k
            = smGet ((arrayOf s nn).banks.getD (arrBank run.d.words) []) k)
      ∧ SameObjs s t [Obj.metricRowsExcluded, Obj.metricSaturations, Obj.shadowChecks, Obj.witnessRowsSkipped,
          Obj.arrayLoadWaitSteps] := by
  obtain ⟨hd, hcommitted, hmissed, hhanded, hlost, hcol⟩ := nextRow_desc hnext
  have heq := (rowCommit_next (upset := upset) hrun hnext).trans (rowSettled_kept hc)
  have hlen := length_rowOutputs (rowState s nn next) nn next next.row upset
  rw [hd] at hlen
  obtain ⟨hframe, htaken, hbanks, -, -, hobj, -⟩ := rowTaken_facts hrun next (rowCheck (rowState s nn next) nn next next.row upset)
    (arrBank run.d.words)
  obtain ⟨hframe', ⟨v, hshadow⟩, hobj'⟩ := keepShadow_facts next next.row
    (shadowCode (rowState s nn next) nn next next.row upset) (arrBank run.d.words) htaken
  generalize rowOutputs (rowState s nn next) nn next next.row upset = outs at *
  generalize keepShadow (rowTaken s nn next (rowCheck (rowState s nn next) nn next next.row upset)) nn next next.row
    (shadowCode (rowState s nn next) nn next next.row upset) = u at *
  generalize arrM next.d.words = fuel at heq
  obtain ⟨hframe2, hbanks2, ⟨e, f, x, hrun2⟩, hobj2⟩ := rowKept_facts (s := u) (run := { next with row := next.row + 1, shadow := v })
    next.row outs fuel (congrArg ArrayUnit.run hshadow)
  have hu : (arrayOf u nn).banks = (arrayOf s nn).banks := (congrArg ArrayUnit.banks hshadow :).trans hbanks
  obtain ⟨hvals, hrest⟩ := rowWritten_bank (run := { next with row := next.row + 1, shadow := v }) next.row outs _
    (by rw [hu]; show arrBank next.d.words < _; rw [hd]; exact hb) hbanks2
  dsimp only at hvals hrest hframe2
  rw [hd] at hvals hrest hframe2
  rw [hu] at hrest
  obtain ⟨hkeep, honly⟩ := (hframe.trans hframe').trans hframe2
  refine ⟨_, _, (need_lt hn _).trans (congrArg Host.Outcome.next heq), hkeep, honly, hrun2, rfl, rfl,
    congrArg (· + 1) hcommitted, hmissed, hd, hhanded, hlost, hcol, fun n a ha => ?_, fun k hk => hrest k (by rw [hlen]; exact hk), ?_⟩
  · rw [hvals n a ha]
    rfl
  · exact ((hobj.mono (by simp)).trans (hobj'.mono (by simp))).trans (hobj2.mono (by simp))

/-- What a miss adds to a run. -/
def missCounted (r : ArrayRun) : ArrayRun := { r with res := { r.res with witness := true, missesDesc := r.res.missesDesc + 1 } }

/-- What a counted miss leaves of an array. -/
theorem countMiss_facts {nn : Nat} {s : State} {run : ArrayRun} (h : (arrayOf s nn).run = some run) (b : Nat) :
    RowFrame s (countMiss s nn) nn b ∧ arrayOf (countMiss s nn) nn = { arrayOf s nn with run := some (missCounted run) }
    ∧ Counted s (countMiss s nn) Obj.witnessMisses 1 ∧ SameObjs s (countMiss s nn) [Obj.witnessMisses] :=
  ⟨(RowFrame.of_objPut s Obj.witnessMisses _ nn b).trans (RowFrame.of_updRun _ _ _ _),
    arrayOf_updRun (s := objInc s Obj.witnessMisses) missCounted h, objGet_objInc_self s Obj.witnessMisses,
    ((SameObjs.refl s _).objInc Obj.witnessMisses (by decide)).of_dic rfl⟩

theorem rowCommit_missed (nn : Nat) (upset : List (Nat × Nat)) (run next : ArrayRun) (s : State) (hn : nn < 64)
    (hrun : (arrayOf s nn).run = some run) (hnext : NextRow run next)
    (hc : rowCheck (rowState s nn next) nn next next.row upset = .miss) :
    ∃ t run', exec (.arrayRowCommit nn upset) s = .next t ∧ t = { s with dic := t.dic, arrays := t.arrays }
      ∧ OnlyRowsOf s t nn (arrBank run.d.words) ∧ (arrayOf t nn).banks = (arrayOf s nn).banks
      ∧ (arrayOf t nn).trees = (arrayOf s nn).trees ∧ (arrayOf t nn).bankMeta = (arrayOf s nn).bankMeta
      ∧ (arrayOf t nn).run = some run'
      ∧ run' = { next with row := next.row + 1, missed := next.missed ++ [next.row]
                           res := { next.res with witness := true, missesDesc := next.res.missesDesc + 1 } }
      ∧ Counted s t Obj.witnessMisses 1 ∧ SameObjs s t [Obj.witnessMisses, Obj.shadowChecks, Obj.arrayLoadWaitSteps] := by
  have heq := rowCommit_next (upset := upset) hrun hnext
  rw [hc] at heq
  obtain ⟨hframe, htaken, hbanks, htrees, hmeta, -, hobj⟩ := rowTaken_facts hrun next .miss (arrBank run.d.words)
  have hsame := hobj rfl
  have hsettled : rowSettled s nn next upset .miss = updRun (countMiss (rowTaken s nn next .miss) nn) nn
    (fun r => { r with missed := r.missed ++ [next.row] }) := rfl
  generalize rowTaken s nn next .miss = u at *
  obtain ⟨hframe', hself, hcount, hobj'⟩ := countMiss_facts htaken (arrBank run.d.words)
  have hset := arrayOf_updRun (run := missCounted { next with row := next.row + 1 })
    (fun r => { r with missed := r.missed ++ [next.row] }) (congrArg ArrayUnit.run hself)
  rw [hself] at hset
  obtain ⟨hkeep, honly⟩ := (hframe.trans hframe').trans
    (RowFrame.of_updRun (countMiss u nn) nn (arrBank run.d.words) (fun r => { r with missed := r.missed ++ [next.row] }))
  refine ⟨_, _, (need_lt hn _).trans (congrArg Host.Outcome.next (heq.trans hsettled)), hkeep, honly,
    (congrArg ArrayUnit.banks hset :).trans hbanks, (congrArg ArrayUnit.trees hset :).trans htrees,
    (congrArg ArrayUnit.bankMeta hset :).trans hmeta, (congrArg ArrayUnit.run hset :), rfl, ?_, ?_⟩
  · exact hcount.trans (by rw [hsame Obj.witnessMisses (by decide)])
  · exact ((hsame.mono (by simp)).trans (hobj'.mono (by simp))).of_dic rfl

/-! ### WITNESS_RERUN_DONE (R75) -/

/-- The state in which the check of a row computed again has been counted. -/
def rerunTaken (s : State) (nn : Nat) (run : ArrayRun) (m : Nat) (rest : List Nat) (upset : List (Nat × Nat)) (c : Check) : State :=
  countCheck (updRun (keepShadow (reloadTiles s nn run) nn run m (shadowCode (reloadTiles s nn run) nn run m upset)) nn
    (fun r => { r with missed := rest })) run c

/-- What a row lost adds to a run. -/
def rowLost (m : Nat) (r : ArrayRun) : ArrayRun :=
  { r with lost := r.lost ++ [m], res := { r.res with poisoned := true, poisonedDesc := r.res.poisonedDesc + 1 } }

/-- A second miss counted: the row is lost. -/
def rowLossCounted (s : State) (nn m : Nat) : State :=
  updRun (objInc (countMiss s nn) Obj.witnessRowsPoisoned) nn (rowLost m)

section
variable {nn : Nat} {s : State} {run : ArrayRun} {m : Nat} {rest : List Nat} {upset : List (Nat × Nat)}

theorem rerunDone_missed (h : (arrayOf s nn).run = some run) (hm : run.missed = m :: rest)
    (hc : rowCheck (reloadTiles s nn run) nn run m upset = .miss) : rerunDone s nn upset =
      rowKept (rowLossCounted (rerunTaken s nn run m rest upset .miss) nn m) nn m
        (poisonOuts (arrA run.d.words).isInt (rowOutputs (reloadTiles s nn run) nn run m upset)) (arrM run.d.words) := by
  unfold arrayOf at h
  unfold rowCheck at hc
  unfold rerunDone
  rw [h]
  dsimp only
  rw [hm]
  dsimp only
  rw [hc] <;> rfl

theorem rerunDone_kept (h : (arrayOf s nn).run = some run) (hm : run.missed = m :: rest)
    (hc : rowCheck (reloadTiles s nn run) nn run m upset ≠ .miss) : rerunDone s nn upset =
      rowKept (rerunTaken s nn run m rest upset (rowCheck (reloadTiles s nn run) nn run m upset)) nn m
        (rowOutputs (reloadTiles s nn run) nn run m upset) (arrM run.d.words) := by
  unfold arrayOf at h
  unfold rowCheck at hc ⊢
  unfold rerunDone
  rw [h]
  dsimp only
  rw [hm]
  dsimp only
  split
  next hmiss => exact absurd hmiss hc
  next => rfl

/-- What is left of the run when a row computed again has been taken. -/
theorem rerunTaken_facts (h : (arrayOf s nn).run = some run) (m : Nat) (rest : List Nat) (upset : List (Nat × Nat)) (c : Check) (b : Nat) :
    RowFrame s (rerunTaken s nn run m rest upset c) nn b
    ∧ (∃ v, (arrayOf (rerunTaken s nn run m rest upset c) nn).run = some { run with shadow := v, missed := rest })
    ∧ (arrayOf (rerunTaken s nn run m rest upset c) nn).banks = (arrayOf s nn).banks
    ∧ SameObjs s (rerunTaken s nn run m rest upset c) [Obj.shadowChecks, Obj.witnessRowsSkipped]
    ∧ (c = .miss → SameObjs s (rerunTaken s nn run m rest upset c) [Obj.shadowChecks]) := by
  obtain ⟨hframe, hself⟩ := tilesLoaded_facts h (some (loadTile s nn run.d run.c run.pass 0)) (nextTile s nn run) b
  have hload : SameObjs s (reloadTiles s nn run) [] := (SameObjs.refl s _).of_dic rfl
  have hrun : (arrayOf (reloadTiles s nn run) nn).run = some run := (congrArg ArrayUnit.run hself :).trans h
  obtain ⟨hframe1, ⟨v, hshadow⟩, hobj1⟩ := keepShadow_facts run m (shadowCode (reloadTiles s nn run) nn run m upset) b hrun
  unfold rerunTaken
  generalize keepShadow (reloadTiles s nn run) nn run m (shadowCode (reloadTiles s nn run) nn run m upset) = u at *
  have hset := arrayOf_updRun (run := { run with shadow := v }) (fun r => { r with missed := rest }) (congrArg ArrayUnit.run hshadow)
  have hframe2 := RowFrame.of_updRun u nn b (fun r => { r with missed := rest })
  have hsame : SameObjs s (updRun u nn (fun r => { r with missed := rest })) [] := (hload.trans hobj1).of_dic rfl
  obtain ⟨hframe3, harr, hskip, hmiss⟩ := countCheck_facts (updRun u nn (fun r => { r with missed := rest })) run c nn b
  have hfinal := (congrArg (fun l : List ArrayUnit => l.getD nn {}) harr).trans hset
  exact ⟨((hframe.trans hframe1).trans hframe2).trans hframe3, ⟨v, (congrArg ArrayUnit.run hfinal :)⟩,
    (congrArg ArrayUnit.banks hfinal :).trans ((congrArg ArrayUnit.banks hshadow :).trans (congrArg ArrayUnit.banks hself :)),
    (hsame.mono (by simp)).trans hskip, fun hc => (hsame.mono (by simp)).trans (hmiss hc)⟩

/-- What a lost row leaves of its array. -/
theorem rowLossCounted_facts (h : (arrayOf s nn).run = some run) (m b : Nat) :
    RowFrame s (rowLossCounted s nn m) nn b
    ∧ arrayOf (rowLossCounted s nn m) nn = { arrayOf s nn with run := some (rowLost m (missCounted run)) }
    ∧ Counted s (rowLossCounted s nn m) Obj.witnessMisses 1 ∧ Counted s (rowLossCounted s nn m) Obj.witnessRowsPoisoned 1
    ∧ SameObjs s (rowLossCounted s nn m) [Obj.witnessMisses, Obj.witnessRowsPoisoned] := by
  obtain ⟨hframe, hself, hcount, hobj⟩ := countMiss_facts h b
  unfold rowLossCounted
  have hpoisoned : Counted (countMiss s nn) (objInc (countMiss s nn) Obj.witnessRowsPoisoned) Obj.witnessRowsPoisoned 1 :=
    objGet_objInc_self _ _
  have hset := arrayOf_updRun (s := objInc (countMiss s nn) Obj.witnessRowsPoisoned) (run := missCounted run) (rowLost m)
    (congrArg ArrayUnit.run hself)
  refine ⟨(hframe.trans (RowFrame.of_objPut _ _ _ _ _)).trans (RowFrame.of_updRun _ _ _ _), ?_, ?_, ?_, ?_⟩
  · exact hset.trans (congrArg (fun a : ArrayUnit => { a with run := some (rowLost m (missCounted run)) }) hself)
  · exact (objGet_objInc_ne _ _ _ (by decide)).trans hcount
  · exact hpoisoned.trans (by rw [hobj _ (by decide)])
  · exact ((hobj.mono (by simp)).objInc _ (by decide)).of_dic rfl

theorem getElem?_poisonOuts_rowOutputs (s : State) (nn : Nat) (run : ArrayRun) (m : Nat) (upset : List (Nat × Nat)) (n : Nat)
    (hn : n < arrN run.d.words) : ∃ a, (poisonOuts false (rowOutputs s nn run m upset))[n]? = some a ∧ a.code = (Fmt.k32).narCode
      ∧ a.f.poison = true := by
  have hlen : n < (rowOutputs s nn run m upset).length := by
    rw [length_rowOutputs]
    exact hn
  unfold poisonOuts
  rw [List.getElem?_map, List.getElem?_eq_getElem hlen]
  exact ⟨_, rfl, rfl, rfl⟩

end

theorem rerun_holds (nn : Nat) (upset : List (Nat × Nat)) (run : ArrayRun) (m : Nat) (rest : List Nat) (s : State) (hn : nn < 64)
    (hrun : (arrayOf s nn).run = some run) (hm : run.missed = m :: rest) (hb : arrBank run.d.words < (arrayOf s nn).banks.length) :
    ∃ t run', exec (.witnessRerunDone nn upset) s = .next t ∧ t = { s with dic := t.dic, arrays := t.arrays }
      ∧ OnlyRowsOf s t nn (arrBank run.d.words) ∧ (arrayOf t nn).run = some run' ∧ run'.missed = rest
      ∧ run'.row = run.row ∧ run'.pass = run.pass ∧ run'.committed = run.committed + 1 ∧ run'.d = run.d
      ∧ run'.handed = run.handed ∧ run'.c = run.c
      ∧ (rowCheck (reloadTiles s nn run) nn run m upset = .miss →
          Counted s t Obj.witnessMisses 1 ∧ Counted s t Obj.witnessRowsPoisoned 1 ∧ run'.lost = run.lost ++ [m]
          ∧ SameObjs s t [Obj.witnessMisses, Obj.witnessRowsPoisoned, Obj.metricRowsExcluded, Obj.metricSaturations,
              Obj.shadowChecks]
          ∧ ((arrA run.d.words).isInt = false → ∀ n, n < arrN run.d.words →
              smGet ((arrayOf t nn).banks.getD (arrBank run.d.words) []) (m * arrNt run.d.words + n)
                = some ⟨BitVec.ofNat 32 (Fmt.k32).narCode, true⟩))
      ∧ (rowCheck (reloadTiles s nn run) nn run m upset ≠ .miss →
          run'.lost = run.lost
          ∧ SameObjs s t [Obj.metricRowsExcluded, Obj.metricSaturations, Obj.shadowChecks, Obj.witnessRowsSkipped]
          ∧ ∀ n a, (rowOutputs (reloadTiles s nn run) nn run m upset)[n]? = some a →
              (smGet ((arrayOf t nn).banks.getD (arrBank run.d.words) []) (m * arrNt run.d.words + n)).map BankVal.value
                = some (BitVec.ofNat 32 a.code)) := by
  by_cases hc : rowCheck (reloadTiles s nn run) nn run m upset = .miss
  · obtain ⟨hframe, ⟨v, htaken⟩, hbanks, -, hobj⟩ := rerunTaken_facts hrun m rest upset .miss (arrBank run.d.words)
    have hobj := hobj rfl
    have heq := rerunDone_missed hrun hm hc
    generalize rerunTaken s nn run m rest upset .miss = u at *
    obtain ⟨hframe1, hself, hmisses, hlost, hobj1⟩ := rowLossCounted_facts htaken m (arrBank run.d.words)
    generalize rowLossCounted u nn m = w at *
    have hw : (arrayOf w nn).banks = (arrayOf s nn).banks := (congrArg ArrayUnit.banks hself :).trans hbanks
    have hnar := getElem?_poisonOuts_rowOutputs (reloadTiles s nn run) nn run m upset
    generalize rowOutputs (reloadTiles s nn run) nn run m upset = outs at *
    obtain ⟨hframe2, hbanks2, ⟨e, f, x, hrun2⟩, hobj2⟩ := rowKept_facts
      (run := rowLost m (missCounted { run with shadow := v, missed := rest })) m (poisonOuts (arrA run.d.words).isInt outs)
      (arrM run.d.words) (congrArg ArrayUnit.run hself)
    obtain ⟨hvals, -⟩ := rowWritten_bank (run := rowLost m (missCounted { run with shadow := v, missed := rest })) m _ _
      (by rw [hw]; exact hb) hbanks2
    obtain ⟨hkeep, honly⟩ := (hframe.trans hframe1).trans hframe2
    have hmid := hobj Obj.witnessMisses (by decide)
    have hmid' := hobj Obj.witnessRowsPoisoned (by decide)
    refine ⟨_, _, (need_lt hn _).trans (congrArg Host.Outcome.next heq), hkeep, honly, hrun2, rfl, rfl, rfl, rfl, rfl, rfl, rfl,
      fun _ => ⟨?_, ?_, rfl, ?_, fun hint n hn' => ?_⟩, fun h => absurd hc h⟩
    · exact (counted_trans hmisses hobj2 (by decide)).trans (by rw [hmid])
    · exact (counted_trans hlost hobj2 (by decide)).trans (by rw [hmid'])
    · exact ((hobj.mono (by simp)).trans (hobj1.mono (by simp))).trans (hobj2.mono (by simp))
    · obtain ⟨a, ha, hcode, hpoison⟩ := hnar n hn'
      have htag : (true && ((arrA run.d.words).isInt || !(arrA run.d.words).isInt && (decodeK .k32 (Fmt.k32).narCode).isNar)) = true := by
        rw [hint]
        decide
      rw [hint] at hvals ⊢
      have hval := hvals n a ha
      rw [hcode, hpoison] at hval
      exact hval.trans (congrArg (fun b => some (⟨BitVec.ofNat 32 (Fmt.k32).narCode, b⟩ : BankVal)) htag)
  · obtain ⟨hframe, ⟨v, htaken⟩, hbanks, hobj, -⟩ := rerunTaken_facts hrun m rest upset
      (rowCheck (reloadTiles s nn run) nn run m upset) (arrBank run.d.words)
    have heq := rerunDone_kept hrun hm hc
    generalize rerunTaken s nn run m rest upset (rowCheck (reloadTiles s nn run) nn run m upset) = u at *
    generalize rowOutputs (reloadTiles s nn run) nn run m upset = outs at *
    obtain ⟨hframe2, hbanks2, ⟨e, f, x, hrun2⟩, hobj2⟩ := rowKept_facts m outs (arrM run.d.words) htaken
    obtain ⟨hvals, -⟩ := rowWritten_bank (run := { run with shadow := v, missed := rest }) m outs _
      (by rw [hbanks]; exact hb) hbanks2
    obtain ⟨hkeep, honly⟩ := hframe.trans hframe2
    refine ⟨_, _, (need_lt hn _).trans (congrArg Host.Outcome.next heq), hkeep, honly, hrun2, rfl, rfl, rfl, rfl, rfl, rfl, rfl,
      fun h => absurd h hc, fun _ => ⟨rfl, (hobj.mono (by simp)).trans (hobj2.mono (by simp)), fun n a ha => ?_⟩⟩
    exact (congrArg (Option.map BankVal.value) (hvals n a ha) :)

/-- Settles O7: a pass starts its descriptor, and each row of it is committed, missed, or computed again. -/
theorem arrayPassesRunRowByRow : Obligations.ArrayPassesRunRowByRow :=
  ⟨arrayPass_starts, arrayPass_rejected, arrayPass_follows, arrayPass_waits, arrayPass_none, rowCommit_kept, rowCommit_missed,
    rerun_holds⟩

end Sys2Proof.Machine

/-!
A scan whose amax word is held in its atomic unit (O9): the atomic combines there and is counted in AtomicCombines (R285), where
the statement lets no object change.
-/

namespace Sys2Proof.Machine

/-- The words of a scan of one K4 element at address 0 that writes no scales, its AmaxTarget at LPDDR offset 64. -/
def oneElemScan : List Word64 :=
  [BitVec.ofNat 64 (0x32 + 2 ^ 14), 0, 0, 0, 0, 64, 0, 0, 0, 0, 0, 0, 0, 0, 0, 0]

/-- That scan as vector unit 0 has it issued. -/
def oneElemIssued : Issued := { queue := 0, seq := 0, words := oneElemScan }

/-- A module whose vector unit 0 has it to run, while an atomic unit holds the word of its AmaxTarget. -/
def heldWordState : State :=
  { State.reset with vecs := [{ fifo := [oneElemIssued] }], atoms := [{ addr := 64, last := 0 }] }

/-- What a scan's command does to AtomicCombines. -/
def combinesAfter (c : Instr) (s : State) : Option Nat :=
  match exec c s with
  | .next t => some (objGet t Obj.atomicCombines)
  | _ => none

theorem heldWordScan_counts : combinesAfter (.scan 0 []) heldWordState ≠ some (objGet heldWordState Obj.atomicCombines) := by decide

/-- Refutes O9: a scan's atomic on a word that its unit holds is counted, and the Dictionary changes. -/
theorem not_vectorRunsWriteOutputsAndScales : ¬ Obligations.VectorRunsWriteOutputsAndScales := by
  unfold Obligations.VectorRunsWriteOutputsAndScales
  intro h
  obtain ⟨-, -, -, -, hamax, -⟩ := h
  obtain ⟨t, -, hexec, hframe, -⟩ := hamax 0 64 oneElemIssued [] heldWordState _ (by decide) rfl rfl (by decide) (by decide)
    (by decide) (by decide) rfl (by decide) (by decide) (by decide) (by decide) (by decide) (by decide)
    ⟨by decide, by decide, by decide⟩ ⟨by decide, by decide⟩
  have hdic : t.dic = heldWordState.dic := (congrArg State.dic hframe :)
  refine heldWordScan_counts ?_
  unfold combinesAfter
  rw [hexec]
  exact congrArg some (objGet_congr t heldWordState Obj.atomicCombines hdic.symm).symm

end Sys2Proof.Machine

/-!
COLLECTIVE_ISSUE (R293, R295): a collective descriptor waits to become active, or is rejected.
-/

namespace Sys2Proof.Machine

section
variable {s : State} {h : Half} {v : Queue} {f : Fetched}

/-- A queue whose collective descriptor a half has issued. -/
def collIssued (f : Fetched) (h : Half) (v : Queue) : Queue :=
  oneMore { v with fetched := (v.fetched.map (markedBy f h)).filter (fun (g : Fetched) => g.todoW || g.todoE) }

/-- A state in which a collective descriptor is issued by a half. -/
def collMarked (s : State) (h : Half) (f : Fetched) : State := updQ (markIssued s collQ f h) collQ oneMore

/-- A collective descriptor as its engine holds it. -/
def collDesc (f : Fetched) : Issued := { queue := collQ, seq := f.seq, words := f.words }

theorem collMarked_queue (hv : smGet s.queues collQ = some v) : smGet (collMarked s h f).queues collQ = some (collIssued f h v) := by
  unfold collMarked markIssued setTodo
  rw [smGet_updQ_self, smGet_updQ_self, hv]
  rfl

theorem othersKept_collMarked (s : State) (h : Half) (f : Fetched) : OthersKept s (collMarked s h f) collQ :=
  ((OthersKept.refl s collQ).updQ _).updQ _

/-- The tail wait of a collective descriptor entered, where it does not hold yet. -/
def collWaits (s : State) (f : Fetched) : State :=
  if !tailWaitEn f.words || reached s (tailWaitObj f.words) (tailWaitValue f.words) then s
  else addWait s (tailWaitObj f.words) (tailWaitValue f.words) collQ f.seq

/-- A collective that waits to become active. -/
def collWaiting (s : State) (f : Fetched) : State :=
  { s with
    colls := s.colls ++ [{ id := colId f.words, d := collDesc f, since := s.now }]
    ended := s.ended.filter (fun (e : Ended) => e.coll != colId f.words) }

section
variable (hv : smGet s.queues collQ = some v)
  (hf : (candidates s collQ v h).find? (fun f => schedulerOwn s collQ v.halves f) = some f) (hmay : mayIssue s h = true)
  (hst : v.state = 1) (hslot : slotFree v = true)
include hv hf hmay hst hslot

theorem issueColl_accepted (hr : colReject s f.words = none) :
    issueColl s h = (collWaiting (collWaits (collMarked s h f) f) f, true) := by
  have hrej : colReject (updQ (markIssued s collQ f h) collQ (fun x => { x with outstanding := x.outstanding + 1 })) f.words = none := hr
  unfold issueColl
  rw [hv]
  dsimp only
  rw [hf]
  dsimp only
  rw [if_neg (by simp [hmay, hst]), if_neg (by simp [hslot]), hrej] <;> rfl

theorem issueColl_rejected {st : Nat} (hr : colReject s f.words = some st) :
    issueColl s h = (rejectDesc (collMarked s h f) (collDesc f) st 127, true) := by
  have hrej : colReject (updQ (markIssued s collQ f h) collQ (fun x => { x with outstanding := x.outstanding + 1 })) f.words = some st := hr
  unfold issueColl
  rw [hv]
  dsimp only
  rw [hf]
  dsimp only
  rw [if_neg (by simp [hmay, hst]), if_neg (by simp [hslot]), hrej] <;> rfl

end

/-- COLLECTIVE_ISSUE is what half W issues, or else half E. -/
theorem exec_collectiveIssue {t : State} (hh : h = .w ∨ issueColl s .w = (s, false)) (hi : issueColl s h = (t, true)) :
    exec .collectiveIssue s = .next t := by
  refine congrArg Host.Outcome.next ?_
  rcases hh with rfl | hw
  · rw [hi]
    rfl
  · rw [hw]
    cases h with
    | w =>
      rw [hw] at hi
      cases hi
    | e =>
      show (issueColl s .e).1 = t
      rw [hi]

theorem collWaits_facts (s : State) (f : Fetched) : collWaits s f = { s with dic := (collWaits s f).dic, waiters := (collWaits s f).waiters }
    ∧ SameObjs s (collWaits s f) [Obj.waitTableFullEvents] := by
  unfold collWaits
  split
  · exact ⟨rfl, SameObjs.refl _ _⟩
  · unfold addWait
    dsimp only
    split
    · exact ⟨rfl, ((SameObjs.refl s _).objInc Obj.waitTableFullEvents List.mem_cons_self).of_dic rfl⟩
    · exact ⟨rfl, (SameObjs.refl s _).of_dic rfl⟩

end

theorem collectiveIssue_holds (h : Half) (s : State) (v : Queue) (f : Fetched) (hh : h = .w ∨ issueColl s .w = (s, false))
    (hv : smGet s.queues collQ = some v)
    (hf : (candidates s collQ v h).find? (fun f => schedulerOwn s collQ v.halves f) = some f) (hmay : mayIssue s h = true)
    (hst : v.state = 1) (hslot : slotFree v = true) :
    (colReject s f.words = none →
      ∃ t v', exec .collectiveIssue s = .next t
        ∧ t = { s with dic := t.dic, queues := t.queues, waiters := t.waiters, colls := t.colls, ended := t.ended }
        ∧ t.colls = s.colls ++ [{ id := colId f.words, d := { queue := collQ, seq := f.seq, words := f.words }, since := s.now }]
        ∧ smGet t.queues collQ = some v' ∧ v'.outstanding = v.outstanding + 1 ∧ (∀ e ∈ t.ended, e.coll ≠ colId f.words)
        ∧ (∀ q, q ≠ collQ → smGet t.queues q = smGet s.queues q) ∧ SameObjs s t [Obj.waitTableFullEvents])
    ∧ (∀ st, colReject s f.words = some st →
      ∃ t v', exec .collectiveIssue s = .next t ∧ EndFrame s t collQ ∧ smGet t.queues collQ = some v'
        ∧ v'.outstanding = (if slotReady s v 0 then v.outstanding else v.outstanding + 1) ∧ SameObjs s t tailObjs) := by
  have hqueue := collMarked_queue (h := h) (f := f) hv
  refine ⟨fun hr => ?_, fun st hr => ?_⟩
  · have hexec := exec_collectiveIssue hh (issueColl_accepted hv hf hmay hst hslot hr)
    obtain ⟨hframe, hobj⟩ := collWaits_facts (collMarked s h f) f
    have hsame : SameObjs s (collMarked s h f) [Obj.waitTableFullEvents] := (SameObjs.refl s _).of_dic rfl
    generalize collWaits (collMarked s h f) f = u at *
    have hqueues : u.queues = (collMarked s h f).queues := (congrArg State.queues hframe :)
    refine ⟨_, collIssued f h v, hexec, ?_, ?_, ?_, rfl, fun e he => ?_, fun q hq => ?_, (hsame.trans hobj).of_dic rfl⟩
    · unfold collWaiting
      rw [hframe]
      rfl
    · unfold collWaiting
      rw [hframe]
      rfl
    · exact (congrArg (smGet · collQ) hqueues).trans hqueue
    · simpa using (List.mem_filter.1 he).2
    · exact (congrArg (smGet · q) hqueues).trans (othersKept_collMarked s h f q hq)
  · have hexec := exec_collectiveIssue hh (issueColl_rejected hv hf hmay hst hslot hr)
    rw [rejectDesc_eq _ _ _ _ rfl] at hexec
    have hring : RingKept s (collMarked s h f) collQ v (collIssued f h v) := ⟨rfl, othersKept_collMarked s h f, hv, hqueue, rfl⟩
    have hsame : SameObjs s (collMarked s h f) tailObjs := (SameObjs.refl s _).of_dic rfl
    have hready := hring.slotReady
    obtain ⟨x, hx, -, hout⟩ := finishDesc_outstanding (d := rejected (collDesc f) st 127) hqueue
    refine ⟨_, x, hexec, hring.endFrame _ rfl le_rfl, hx, ?_, hsame.trans (sameObjs_finishDesc _ _)⟩
    rw [hout, hready]
    rfl

theorem collectiveIssue_none (s : State) (hv : smGet s.queues collQ = none) : exec .collectiveIssue s = .next s := by
  have hi (h : Half) : issueColl s h = (s, false) := by
    unfold issueColl
    rw [hv]
  refine congrArg Host.Outcome.next ?_
  rw [hi, hi]
  rfl

end Sys2Proof.Machine

/-!
What the collective engine's work on segments and chunks leaves alone (R301 to R306, R309): objects, pending entries, grey entries.
-/

namespace Sys2Proof.Machine

/-- The objects that work on segments and chunks may change. -/
def segObjs : List Nat := [Obj.collDuplicates, Obj.greyChunks] ++ tailObjs

/-- Work on segments and chunks: no pending entry comes or goes, and no grey entry comes. -/
def EngStep (s t : State) : Prop :=
  SameObjs s t segObjs ∧ t.pendColls.map PendColl.coll = s.pendColls.map PendColl.coll ∧ ∀ e ∈ t.greys, e ∈ s.greys

/-- What EngStep is about. -/
def engView (s : State) : SMap Nat × List PendColl × List Grey := (s.dic, s.pendColls, s.greys)

theorem EngStep.refl (s : State) : EngStep s s := ⟨SameObjs.refl _ _, rfl, fun _ h => h⟩

theorem EngStep.trans {s t u : State} (h : EngStep s t) (h' : EngStep t u) : EngStep s u := by
  obtain ⟨hobj, hpend, hgrey⟩ := h
  obtain ⟨hobj', hpend', hgrey'⟩ := h'
  exact ⟨hobj.trans hobj', hpend'.trans hpend, fun e he => hgrey e (hgrey' e he)⟩

theorem engStep_of_view {s t : State} (h : engView t = engView s) : EngStep s t := by
  obtain ⟨hdic, hrest⟩ := Prod.mk.inj h
  obtain ⟨hpend, hgrey⟩ := Prod.mk.inj hrest
  exact ⟨(SameObjs.refl s _).of_dic hdic, by rw [hpend], fun e he => hgrey ▸ he⟩

theorem engStep_ite {s a b : State} (c : Prop) [Decidable c] (ha : EngStep s a) (hb : EngStep s b) : EngStep s (if c then a else b) := by
  split
  · exact ha
  · exact hb

theorem engStep_foldl {α : Type} (f : State → α → State) (hf : ∀ s x, EngStep s (f s x)) (l : List α) (s : State) :
    EngStep s (l.foldl f s) := by
  induction l generalizing s with
  | nil => exact EngStep.refl s
  | cons x l ih => exact (hf s x).trans (ih _)

/-! ### Counts and grey chunks -/

theorem engStep_objInc (s : State) (k : Nat) (hk : k ∈ segObjs) : EngStep s (objInc s k) :=
  ⟨(SameObjs.refl s _).objInc k hk, rfl, fun _ h => h⟩

theorem engStep_updColl (s : State) (id : Nat) (f : Coll → Coll) : EngStep s (updColl s id f) := engStep_of_view rfl

theorem engStep_updPend (s : State) (id : Nat) (f : PendColl → PendColl) (hf : ∀ p, (f p).coll = p.coll) :
    EngStep s (updPend s id f) := by
  refine ⟨(SameObjs.refl s _).of_dic rfl, ?_, fun _ h => h⟩
  unfold updPend
  rw [List.map_map]
  refine List.map_congr_left fun p _ => ?_
  show (if p.coll = id then f p else p).coll = p.coll
  split
  · exact hf p
  · rfl

theorem engStep_countDup (s : State) (id : Nat) : EngStep s (countDup s id) :=
  (engStep_objInc s Obj.collDuplicates (by decide)).trans (engStep_updColl _ _ _)

theorem engStep_turnChunkGrey (s : State) (id c : Nat) : EngStep s (turnChunkGrey s id c) := by
  unfold turnChunkGrey
  refine engStep_ite _ (EngStep.refl s) ((engStep_objInc s Obj.greyChunks (by decide)).trans
    (engStep_ite _ (engStep_updColl _ _ _) (engStep_updPend _ _ _ fun _ => rfl)))

theorem engStep_sendColl (s : State) (dest : Nat) (h : CollHdr) : EngStep s (sendColl s dest h) :=
  engStep_of_view (sendColl_keeps engView (fun _ _ => rfl) s dest h)

/-! ### Inputs -/

theorem engStep_greyPass (s : State) (h : CollHdr) : EngStep s (greyPass s h) :=
  ((engStep_turnChunkGrey s _ _).trans (engStep_sendColl _ _ _)).trans
    (engStep_ite _ (engStep_updColl _ _ _) (engStep_updPend _ _ _ fun _ => rfl))

theorem engStep_intoSlot (s : State) (x : Slot) (ws : Option (List Word64)) (inv : List Nat) (pos sender count : Nat)
    (vs : List BankVal) : EngStep s (intoSlot s x ws inv pos sender count vs) := by
  unfold intoSlot
  dsimp only
  refine engStep_ite _ (engStep_countDup s _) ?_
  split
  · split
    · exact engStep_of_view rfl
    · exact EngStep.refl s
  · exact engStep_of_view rfl

theorem engStep_takeInput (s : State) (ws : Option (List Word64)) (inv : List Nat) (h : CollHdr) (vs : List BankVal) :
    EngStep s (takeInput s ws inv h vs) := by
  unfold takeInput
  refine engStep_ite _ (engStep_countDup s _) ?_
  split
  · exact engStep_intoSlot _ _ _ _ _ _ _ _
  · exact engStep_ite _ (engStep_greyPass s h) ((engStep_of_view rfl).trans (engStep_intoSlot _ _ _ _ _ _ _ _))

theorem engStep_takeNotice (s : State) (h : CollHdr) : EngStep s (takeNotice s h) := by
  unfold takeNotice
  split
  · exact engStep_of_view rfl
  · exact (engStep_turnChunkGrey s _ _).trans (engStep_ite _ (engStep_updColl _ _ _) (engStep_updPend _ _ _ fun _ => rfl))

theorem engStep_sendPartial (s : State) (ws : List Word64) (level c seg : Nat) (count : Nat → Nat) (vs : List BankVal) :
    EngStep s (sendPartial s ws level c seg count vs) :=
  (engStep_foldl _ (fun _ _ => engStep_sendColl _ _ _) _ s).trans (engStep_updColl _ _ _)

theorem engStep_enterLocal (s : State) (ws : List Word64) (level c seg : Nat) (vs : List BankVal) (inv : List Nat) :
    EngStep s (enterLocal s ws level c seg vs inv) := by
  unfold enterLocal
  exact engStep_ite _ (engStep_sendPartial _ _ _ _ _ _ _) ((engStep_foldl _ (fun _ _ => engStep_takeInput _ _ _ _ _) _ s).trans
    (engStep_ite _ (engStep_sendColl _ _ _) (EngStep.refl _)))

/-! ### Results -/

theorem engStep_writeBytes (s : State) (off : Nat) (data : Bytes) (poison : Bool) : EngStep s (writeBytes s off data poison) :=
  ⟨(sameObjs_writeRun _ s off data poison).mono (by decide),
    congrArg (List.map PendColl.coll) (writeBytes_keeps State.pendColls (fun _ _ => rfl) s off data poison),
    fun _ he => writeBytes_keeps State.greys (fun _ _ => rfl) s off data poison ▸ he⟩

theorem engStep_writeLines (n : Nat) (s : State) (off mask : Nat) (data : Bytes) : EngStep s (writeLines s off mask data n) := by
  induction n generalizing s with
  | zero => exact EngStep.refl s
  | succ n ih => exact (engStep_writeBytes _ _ _ _).trans (ih _)

theorem engStep_writeResult (s : State) (ws : List Word64) (c seg pos mask : Nat) (data : Bytes) :
    EngStep s (writeResult s ws c seg pos mask data) :=
  ((engStep_writeLines 4 s _ mask _).trans (engStep_ite _ (engStep_writeBytes _ _ _ _) (EngStep.refl _))).trans
    (engStep_updColl _ _ _)

theorem engStep_spreadAt (s : State) (ws : List Word64) (level : Nat) (h : CollHdr) : EngStep s (spreadAt s ws level h) :=
  engStep_of_view (spreadAt_keeps engView (fun _ _ => rfl) s ws level h)

/-- A result packet written where the output stands here. -/
def resultStored (s : State) (ws : List Word64) (h : CollHdr) : State :=
  if writesOut s ws h.chunk then writeResult s ws h.chunk h.segment h.position h.poisonMask (bytes32 h.data) else s

/-- A result packet noted as here. -/
def resultNoted (s : State) (ws : List Word64) (h : CollHdr) : State :=
  updColl s (colId ws) (fun x => { x with gotRes := x.gotRes ++ [(h.level, h.chunk, h.segment, h.position)] })

/-- A result packet sent on. -/
def resultSent (s : State) (ws : List Word64) (h : CollHdr) : State :=
  if colOp ws = 1 ∨ colOp ws = 4 then s
  else if h.level = 1 then spreadAt (spreadAt s ws h.level h) ws 0 h else spreadAt s ws h.level h

/-- A segment's output noted as here once all its packets are. -/
def segmentNoted (ws : List Word64) (h : CollHdr) (x : Coll) : Coll :=
  if (List.range (resultPackets ws)).all (fun i => x.gotRes.contains (h.level, h.chunk, h.segment, i)) then
    { x with outSegs := x.outSegs ++ [(h.chunk, h.segment)],
             gotRes := x.gotRes.filter (fun e => !(e.1 == h.level && e.2.1 == h.chunk && e.2.2.1 == h.segment)) }
  else x

theorem passResult_eq (s : State) (ws : List Word64) (h : CollHdr) : passResult s ws h =
    updColl (resultSent (resultNoted (resultStored s ws h) ws h) ws h) (colId ws) (segmentNoted ws h) := rfl

theorem engStep_resultStored (s : State) (ws : List Word64) (h : CollHdr) : EngStep s (resultStored s ws h) :=
  engStep_ite _ (engStep_writeResult _ _ _ _ _ _ _) (EngStep.refl s)

theorem engStep_resultSent (s : State) (ws : List Word64) (h : CollHdr) : EngStep s (resultSent s ws h) :=
  engStep_ite _ (EngStep.refl _) (engStep_ite _ ((engStep_spreadAt _ _ _ _).trans (engStep_spreadAt _ _ _ _))
    (engStep_spreadAt _ _ _ _))

theorem engStep_passResult (s : State) (ws : List Word64) (h : CollHdr) : EngStep s (passResult s ws h) := by
  rw [passResult_eq]
  exact (((engStep_resultStored s ws h).trans (engStep_updColl _ _ _)).trans (engStep_resultSent _ ws h)).trans
    (engStep_updColl _ _ _)

theorem engStep_spread (s : State) (ws : List Word64) (level c seg : Nat) (vs : List BankVal) (inv : List Nat) :
    EngStep s (spread s ws level c seg vs inv) :=
  (engStep_updColl s _ _).trans (engStep_foldl _ (fun _ _ => (engStep_updColl _ _ _).trans (engStep_passResult _ _ _)) _ _)

/-! ### Segments and chunks -/

theorem engStep_closeSeg (s : State) (ws : List Word64) (level c seg : Nat) : EngStep s (closeSeg s ws level c seg).1 :=
  engStep_of_view (closeSeg_keeps engView (fun _ _ => rfl) s ws level c seg)

theorem engStep_stageOn (s : State) (ws : List Word64) (level c seg : Nat) (vs : List BankVal) (inv : List Nat) :
    EngStep s (stageOn s ws level c seg vs inv) := by
  unfold stageOn
  refine engStep_ite _ ?_ (engStep_spread _ _ _ _ _ _ _)
  have hclosed := (engStep_enterLocal s ws 1 c seg vs inv).trans (engStep_closeSeg _ ws 1 c seg)
  dsimp only
  split
  · exact hclosed.trans (engStep_spread _ _ _ _ _ _ _)
  · exact hclosed

theorem engStep_advanceSeg (s : State) (ws : List Word64) (level c seg : Nat) : EngStep s (advanceSeg s ws level c seg) := by
  unfold advanceSeg
  dsimp only
  split
  · exact (engStep_closeSeg _ _ _ _ _).trans (engStep_stageOn _ _ _ _ _ _ _)
  · exact engStep_closeSeg _ _ _ _ _

theorem engStep_syncAdd (s : State) (o n : Nat) : EngStep s (syncAdd s o n) :=
  engStep_of_view (syncAdd_keeps engView (fun _ _ => rfl) s o n)

theorem engStep_signalChunks (n : Nat) (s : State) (ws : List Word64) : EngStep s (signalChunks s ws n) := by
  induction n generalizing s with
  | zero => exact EngStep.refl s
  | succ n ih =>
    unfold signalChunks
    split
    · exact EngStep.refl s
    · exact engStep_ite _ (((engStep_updColl _ _ _).trans (engStep_ite _ (engStep_syncAdd _ _ _) (EngStep.refl _))).trans (ih _))
        (EngStep.refl s)

theorem engStep_dropColl (s : State) (id : Nat) : EngStep s (dropColl s id) :=
  ⟨(SameObjs.refl s _).of_dic rfl, rfl, fun _ he => (List.mem_filter.1 he).1⟩

theorem engStep_completeDesc (s : State) (d : Done) : EngStep s (completeDesc s d) :=
  ⟨(sameObjs_completeDesc s d).mono (by decide),
    congrArg (List.map PendColl.coll) (completeDesc_keeps State.pendColls (fun _ _ => rfl) s d),
    fun _ he => completeDesc_keeps State.greys (fun _ _ => rfl) s d ▸ he⟩

theorem engStep_completeColl (s : State) (ws : List Word64) : EngStep s (completeColl s ws) := by
  unfold completeColl
  split
  · exact EngStep.refl s
  · exact engStep_ite _ ((engStep_dropColl _ _).trans (engStep_completeDesc _ _)) (EngStep.refl s)

theorem engStep_closeChunk (s : State) (ws : List Word64) (c : Nat) : EngStep s (closeChunk s ws c) := by
  unfold closeChunk
  split
  · exact EngStep.refl s
  · refine engStep_ite _ (EngStep.refl s) (EngStep.trans ?_ (engStep_completeColl _ _))
    refine EngStep.trans ?_ (engStep_signalChunks _ _ _)
    exact engStep_of_view rfl

theorem engStep_adopt (ws : List Word64) (l : List Slot) (s : State) : EngStep s (adopt s ws l) := by
  induction l generalizing s with
  | nil => exact EngStep.refl s
  | cons y l ih =>
    unfold adopt
    split
    · exact EngStep.refl s
    · refine EngStep.trans ?_ (ih _)
      refine EngStep.trans ?_ (engStep_closeChunk _ _ _)
      refine EngStep.trans ?_ (engStep_advanceSeg _ _ _ _ _)
      exact engStep_of_view rfl

/-! ### Packets of an active collective -/

/-- Work on packets: no pending entry comes or goes. -/
def PacketStep (s t : State) : Prop :=
  SameObjs s t ([Obj.collDuplicates, Obj.greyOverflows, Obj.greyChunks] ++ tailObjs)
    ∧ t.pendColls.map PendColl.coll = s.pendColls.map PendColl.coll

theorem PacketStep.refl (s : State) : PacketStep s s := ⟨SameObjs.refl _ _, rfl⟩

theorem PacketStep.trans {s t u : State} (h : PacketStep s t) (h' : PacketStep t u) : PacketStep s u :=
  ⟨h.1.trans h'.1, h'.2.trans h.2⟩

theorem EngStep.packetStep {s t : State} (h : EngStep s t) : PacketStep s t := ⟨h.1.mono (by decide), h.2.1⟩

theorem packetStep_endColl (s : State) (x : Coll) (status : Nat) : PacketStep s (endColl s x status) :=
  ⟨(sameObjs_endColl s x status).mono (by decide),
    congrArg (List.map PendColl.coll) (endColl_keeps State.pendColls (fun _ _ => rfl) s x status)⟩

theorem packetStep_takeGreyPacket (s : State) (x : Coll) (h : CollHdr) : PacketStep s (takeGreyPacket s x h) := by
  unfold takeGreyPacket
  dsimp only
  split
  · exact (engStep_countDup s _).packetStep
  · split
    · split
      · exact (engStep_countDup s _).packetStep
      · exact ⟨(SameObjs.refl s _).of_dic rfl, rfl⟩
    · split
      · exact PacketStep.trans ⟨(SameObjs.refl s _).objInc Obj.greyOverflows (by decide), rfl⟩ (packetStep_endColl _ _ _)
      · exact ⟨(SameObjs.refl s _).of_dic rfl, rfl⟩

theorem packetStep_takeActive (s : State) (x : Coll) (h : CollHdr) : PacketStep s (takeActive s x h) := by
  unfold takeActive
  dsimp only
  split
  · exact (engStep_countDup s _).packetStep
  · split
    · split
      · exact PacketStep.refl s
      · split
        · exact (engStep_countDup s _).packetStep
        · exact ((engStep_passResult _ _ _).trans (engStep_closeChunk _ _ _)).packetStep
    · exact packetStep_takeGreyPacket s x h
    · exact ((engStep_takeNotice _ _).trans ((engStep_advanceSeg _ _ _ _ _).trans (engStep_closeChunk _ _ _))).packetStep
    · exact ((engStep_takeInput _ _ _ _ _).trans ((engStep_advanceSeg _ _ _ _ _).trans (engStep_closeChunk _ _ _))).packetStep

end Sys2Proof.Machine

/-!
COLLECTIVE_ACTIVATE and GREY_SEGMENT_REDUCE (R297, R305, R309), and the frames of the collective engine's commands.
-/

namespace Sys2Proof.Machine

/-! ### Frames -/

theorem collFrame_activate (s : State) (h : Half) : CollFrame s (activate s h) :=
  (collFoot_self _).symm.trans (activate_keeps (collFoot · (activate s h)) (fun _ _ => rfl) s h)

theorem collFrame_localInput (s : State) (id c seg : Nat) : CollFrame s (localInput s id c seg) :=
  (collFoot_self _).symm.trans (localInput_keeps (collFoot · (localInput s id c seg)) (fun _ _ => rfl) s id c seg)

theorem collFrame_takeColl (s : State) (p : Packet) : CollFrame s (takeColl s p) :=
  (collFoot_self _).symm.trans (takeColl_keeps (collFoot · (takeColl s p)) (fun _ _ => rfl) s p)

theorem collFrame_reduceGrey (s : State) (id level c seg : Nat) : CollFrame s (reduceGrey s id level c seg) :=
  (collFoot_self _).symm.trans (reduceGrey_keeps (collFoot · (reduceGrey s id level c seg)) (fun _ _ => rfl) s id level c seg)

/-! ### COLLECTIVE_ACTIVATE -/

/-- A collective that becomes active with what its pending entry holds. -/
def activated (p : Option PendColl) (x : Coll) : Coll :=
  { x with active := true, grey := (p.map (fun p => p.grey)).getD [], passed := (p.map (fun p => p.passed)).getD [] }

/-- The state in which a collective has become active and its pending entry is gone. -/
def collStarted (s : State) (c : Coll) : State :=
  { updColl s c.id (activated (pendOf s c.id)) with
    pendColls := s.pendColls.filter (fun (p : PendColl) => p.coll != c.id) }

/-- A result packet that came before its collective was active. -/
def lateResult (id : Nat) (s : State) (h : CollHdr) : State :=
  match activeColl s id with
  | some x => takeActive s x h
  | none => s

section
variable {s : State} {h : Half} {c : Coll}

theorem activate_starts (hf : s.colls.find? (fun (c : Coll) => !c.active && colHalf c.id == h) = some c) (ha : activeIn s h < 256)
    (hm : mapsUsed s h + colDepth c.d.words ≤ 512) : activate s h =
      (((pendOf s c.id).map (fun p => p.results)).getD []).foldl (lateResult c.id)
        (adopt (collStarted s c) c.d.words (s.slots.filter (fun (x : Slot) => x.coll == c.id))) := by
  unfold activate
  rw [hf]
  exact if_neg (by omega)

theorem activate_full (hf : s.colls.find? (fun (c : Coll) => !c.active && colHalf c.id == h) = some c)
    (hw : 256 ≤ activeIn s h ∨ 512 < mapsUsed s h + colDepth c.d.words) : activate s h = s := by
  unfold activate
  rw [hf]
  exact if_pos hw

theorem packetStep_lateResults (id : Nat) (l : List CollHdr) (s : State) : PacketStep s (l.foldl (lateResult id) s) := by
  induction l generalizing s with
  | nil => exact PacketStep.refl s
  | cons x l ih =>
    refine PacketStep.trans ?_ (ih _)
    unfold lateResult
    split
    · exact packetStep_takeActive _ _ _
    · exact PacketStep.refl s

theorem pendOf_none_iff (s : State) (id : Nat) : pendOf s id = none ↔ id ∉ s.pendColls.map PendColl.coll := by
  unfold pendOf
  simp [List.find?_eq_none]

end

theorem collectiveActivate_holds (h : Half) (s : State) (c : Coll)
    (hf : s.colls.find? (fun (c : Coll) => !c.active && colHalf c.id == h) = some c) :
    (activeIn s h < 256 → mapsUsed s h + colDepth c.d.words ≤ 512 → pendOf s c.id = none → (∀ x ∈ s.slots, x.coll ≠ c.id) →
      ∃ t, exec (.collectiveActivate h) s = .next t ∧ t = { s with colls := t.colls }
        ∧ t.colls = s.colls.map (fun (x : Coll) => if x.id = c.id then { x with active := true, grey := [], passed := [] } else x))
    ∧ (activeIn s h < 256 → mapsUsed s h + colDepth c.d.words ≤ 512 →
      ∃ t, exec (.collectiveActivate h) s = .next t ∧ pendOf t c.id = none
        ∧ SameObjs s t ([Obj.collDuplicates, Obj.greyOverflows, Obj.greyChunks] ++ tailObjs) ∧ CollFrame s t)
    ∧ (256 ≤ activeIn s h ∨ 512 < mapsUsed s h + colDepth c.d.words → exec (.collectiveActivate h) s = .next s) := by
  refine ⟨fun ha hm hp hs => ?_, fun ha hm => ?_, fun hw => congrArg Host.Outcome.next (activate_full hf hw)⟩
  · have hslots : s.slots.filter (fun (x : Slot) => x.coll == c.id) = [] := List.filter_eq_nil_iff.2 fun x hx => by
      simpa using hs x hx
    have hpend : s.pendColls.filter (fun (p : PendColl) => p.coll != c.id) = s.pendColls := List.filter_eq_self.2 fun p hp' => by
      have hne := List.find?_eq_none.1 hp p hp'
      simpa using hne
    have heq := activate_starts hf ha hm
    rw [hp, hslots] at heq
    refine ⟨collStarted s c, congrArg Host.Outcome.next heq, ?_, ?_⟩
    · unfold collStarted
      rw [hpend]
      rfl
    · unfold collStarted
      rw [hp]
      rfl
  · have heq := activate_starts hf ha hm
    refine ⟨_, rfl, ?_, ?_, collFrame_activate s h⟩
    all_goals rw [heq]
    all_goals
      generalize hu : adopt (collStarted s c) c.d.words (s.slots.filter (fun (x : Slot) => x.coll == c.id)) = u
      obtain ⟨hobj, hpend, -⟩ := hu ▸ engStep_adopt c.d.words (s.slots.filter (fun (x : Slot) => x.coll == c.id)) (collStarted s c)
      obtain ⟨hobj', hpend'⟩ := packetStep_lateResults c.id (((pendOf s c.id).map (fun p => p.results)).getD []) u
    · rw [pendOf_none_iff, hpend', hpend]
      unfold collStarted
      simp
    · exact (((SameObjs.refl s _).of_dic rfl).trans (hobj.mono (by decide))).trans hobj'

theorem collectiveActivate_none (h : Half) (s : State) (hf : s.colls.find? (fun (c : Coll) => !c.active && colHalf c.id == h) = none) :
    exec (.collectiveActivate h) s = .next s := by
  refine congrArg Host.Outcome.next ?_
  unfold activate
  rw [hf]

/-! ### Writes of a segment's output -/

/-- Where nothing holds a segment's output, the engine goes on. -/
theorem colWrites_free (s : State) (ws : List Word64) (c seg : Nat) (go : State → State) (h : OutputFree s ws c seg) :
    colWrites s ws c seg go = go s := by
  unfold colWrites
  dsimp only
  by_cases hw : writesOut s ws c = true
  · obtain ⟨hsnoop, htracked, hroom⟩ := h hw
    have hfind : (linesOf (dstSeg s ws c seg) (segBytes (outFmt ws) (outScaled ws))).find? (fun l => !writeRoom s l) = none :=
      List.find?_eq_none.2 fun l hl => by simp [List.all_eq_true.1 hroom l hl]
    unfold pastSnoop
    rw [if_neg (by simp [hw]), if_neg (by simp [hsnoop]), if_neg (by simp [htracked])]
    dsimp only
    rw [hfind]
  · rw [if_pos (by simpa using hw)]

/-- Where nothing holds a segment's input, the engine goes on. -/
theorem colReads_free (s : State) (ws : List Word64) (c seg : Nat) (go : State → State)
    (h : EngineReads s (srcSeg s ws c seg) (segBytes (inFmt ws) (inScaled ws))) : colReads s ws c seg go = go s := by
  obtain ⟨hsnoop, htracked, hdim⟩ := h
  unfold colReads
  dsimp only
  unfold pastSnoop pastDim
  rw [if_neg (by simp [hsnoop]), if_neg (by simp [htracked])]
  dsimp only
  rw [hdim]

/-! ### GREY_SEGMENT_REDUCE -/

/-- The grey entries of a segment by increasing sender. -/
def greysSorted (s : State) (id level c seg : Nat) : List Grey :=
  sortBy (fun (a b : Grey) => decide (a.sender < b.sender)) (greysOf s id level c seg)

/-- The slot that a grey segment is combined in. -/
def greySlot (s : State) (id level c seg : Nat) : Slot :=
  (slotOf s id level c seg).getD { half := colHalf id, coll := id, level := level, chunk := c, segment := seg }

/-- A grey segment combined, and its entries freed. -/
def greysMerged (s : State) (x : Coll) (id level c seg : Nat) : State :=
  updColl (updSlot { s with greys := s.greys.filter (fun e => !(greysSorted s id level c seg).contains e) } id level c seg
    (fun _ => { (mergeGreys x.d.words (greysSorted s id level c seg) (greySlot s id level c seg) x.res).1 with sent := true })) id
    (fun k => { k with res := (mergeGreys x.d.words (greysSorted s id level c seg) (greySlot s id level c seg) x.res).2
                       sentSegs := k.sentSegs ++ [(level, c, seg)] })

theorem mem_insertBy {α : Type} (lt : α → α → Bool) (a x : α) (l : List α) : x ∈ insertBy lt a l ↔ x = a ∨ x ∈ l := by
  induction l with
  | nil => simp [insertBy]
  | cons b r ih =>
    unfold insertBy
    split
    · rw [List.mem_cons, ih, List.mem_cons]
      tauto
    · rw [List.mem_cons]

theorem mem_sortBy {α : Type} (lt : α → α → Bool) (x : α) (l : List α) : x ∈ sortBy lt l ↔ x ∈ l := by
  induction l with
  | nil => simp [sortBy]
  | cons a r ih => rw [sortBy, mem_insertBy, ih, List.mem_cons]

theorem mem_greysSorted (s : State) (id level c seg : Nat) (e : Grey) : e ∈ greysSorted s id level c seg ↔ e ∈ greysOf s id level c seg :=
  mem_sortBy _ _ _

theorem reduceGrey_runs (s : State) (id level c seg : Nat) (x : Coll) (hx : activeColl s id = some x)
    (hown : (levelGroup s x.d.words level).own = ownerOf s x.d.words level c) (hg : greysOf s id level c seg ≠ [])
    (hsent : x.sentSegs.contains (level, c, seg) = false) (hfree : OutputFree s x.d.words c seg)
    (hcov : ∀ pos, pos < 32 → coverage s id level c seg pos = (levelGroup s x.d.words level).members) :
    ∃ vs inv, reduceGrey s id level c seg
      = closeChunk (stageOn (greysMerged s x id level c seg) x.d.words level c seg vs inv) x.d.words c := by
  have hne : (greysSorted s id level c seg).isEmpty = false := by
    cases he : greysOf s id level c seg with
    | nil => exact absurd he hg
    | cons a l =>
      have ha := (mem_greysSorted s id level c seg a).2 (by rw [he]; exact List.mem_cons_self)
      cases hs : greysSorted s id level c seg with
      | nil =>
        rw [hs] at ha
        cases ha
      | cons b r => rfl
  have hall : (List.range 32).all (fun pos => coverage s id level c seg pos == (levelGroup s x.d.words level).members) = true :=
    List.all_eq_true.2 fun pos hpos => beq_iff_eq.2 (hcov pos (List.mem_range.1 hpos))
  unfold reduceGrey
  rw [hx]
  dsimp only
  unfold greysSorted at hne
  rw [if_neg (by rw [hne, hsent, hall, hown]; simp), colWrites_free s _ _ _ _ hfree]
  exact ⟨_, _, rfl⟩

theorem greySegmentReduce_holds (id level c seg : Nat) (s : State) (x : Coll) (hx : activeColl s id = some x) :
    (greysOf s id level c seg = [] → exec (.greySegmentReduce id level c seg) s = .next s)
    ∧ ((levelGroup s x.d.words level).own = ownerOf s x.d.words level c → greysOf s id level c seg ≠ [] →
      x.sentSegs.contains (level, c, seg) = false → OutputFree s x.d.words c seg →
      (∀ pos, pos < 32 → coverage s id level c seg pos = (levelGroup s x.d.words level).members) →
      ∃ t, exec (.greySegmentReduce id level c seg) s = .next t ∧ (∀ e ∈ greysOf s id level c seg, e ∉ t.greys)
        ∧ SameObjs s t ([Obj.collDuplicates, Obj.greyChunks] ++ tailObjs) ∧ CollFrame s t) := by
  refine ⟨fun he => congrArg Host.Outcome.next ?_, fun hown hg hsent hfree hcov => ?_⟩
  · unfold reduceGrey
    rw [hx]
    dsimp only
    rw [he]
    exact if_pos rfl
  · obtain ⟨vs, inv, heq⟩ := reduceGrey_runs s id level c seg x hx hown hg hsent hfree hcov
    have hframe := collFrame_reduceGrey s id level c seg
    rw [heq] at hframe
    have hmerged : SameObjs s (greysMerged s x id level c seg) segObjs := (SameObjs.refl s _).of_dic rfl
    have hgone (e : Grey) (he : e ∈ greysOf s id level c seg) : e ∉ (greysMerged s x id level c seg).greys := fun hmem => by
      have hnot := (List.mem_filter.1 hmem).2
      have hin := (mem_greysSorted s id level c seg e).2 he
      simp [hin] at hnot
    generalize greysMerged s x id level c seg = u at *
    obtain ⟨hobj, -, hgrey⟩ := (engStep_stageOn u x.d.words level c seg vs inv).trans (engStep_closeChunk _ x.d.words c)
    exact ⟨_, congrArg Host.Outcome.next heq, fun e he hmem => hgone e he (hgrey e hmem), hmerged.trans hobj, hframe⟩

theorem greySegmentReduce_none (id level c seg : Nat) (s : State) (hx : activeColl s id = none) :
    exec (.greySegmentReduce id level c seg) s = .next s := by
  refine congrArg Host.Outcome.next ?_
  unfold reduceGrey
  rw [hx]

end Sys2Proof.Machine

/-!
COLL_LOCAL_INPUT (R301): a member that sends its local input bare sends the segment on, once.
-/

namespace Sys2Proof.Machine

/-! ### The engine's collectives -/

theorem activeColl_congr {s t : State} (id : Nat) (h : t.colls = s.colls) : activeColl t id = activeColl s id := by
  unfold activeColl
  rw [h]

theorem activeColl_id {s : State} {id : Nat} {x : Coll} (h : activeColl s id = some x) : x.id = id ∧ x.active = true := by
  have hp := List.find?_some h
  simpa using hp

/-- A collective changed, which stays active under its ID. -/
theorem activeColl_updColl {s : State} {id : Nat} {x : Coll} (f : Coll → Coll) (hf : ∀ y, (f y).id = y.id ∧ (f y).active = y.active)
    (h : activeColl s id = some x) : activeColl (updColl s id f) id = some (f x) := by
  have hpred : ((fun (c : Coll) => c.id == id && c.active) ∘ fun (c : Coll) => if c.id = id then f c else c)
      = fun (c : Coll) => c.id == id && c.active := by
    funext c
    show ((if c.id = id then f c else c).id == id && (if c.id = id then f c else c).active) = (c.id == id && c.active)
    split
    · rw [(hf c).1, (hf c).2]
    · rfl
  unfold activeColl updColl at *
  rw [List.find?_map, hpred, h]
  exact congrArg some (if_pos (activeColl_id h).1)

/-! ### Packets sent -/

/-- Packets of channel 7 for a chip that a half's router has taken, and nothing else. -/
def Sent (s t : State) (half : Half) (dest n : Nat) : Prop :=
  t = { s with routerW := t.routerW, routerE := t.routerE }
    ∧ ∃ ps, (routerOf t half).held = (routerOf s half).held ++ ps ∧ ps.length = n ∧ ∀ y ∈ ps, y.p.dest = dest ∧ y.p.vc = 7

theorem Sent.refl (s : State) (half : Half) (dest : Nat) : Sent s s half dest 0 :=
  ⟨rfl, [], (List.append_nil _).symm, rfl, fun _ h => absurd h List.not_mem_nil⟩

theorem Sent.trans {s t u : State} {half : Half} {dest m n : Nat} (h : Sent s t half dest m) (h' : Sent t u half dest n) :
    Sent s u half dest (m + n) := by
  obtain ⟨hf, ps, hps, hlen, hall⟩ := h
  obtain ⟨hf', qs, hqs, hlen', hall'⟩ := h'
  refine ⟨hf'.trans (congrArg (fun x : State => { x with routerW := u.routerW, routerE := u.routerE }) hf), ps ++ qs, ?_, ?_, ?_⟩
  · rw [hqs, hps, List.append_assoc]
  · rw [List.length_append, hlen, hlen']
  · intro y hy
    rcases List.mem_append.1 hy with hy | hy
    · exact hall y hy
    · exact hall' y hy

/-- A packet that is not of the grey pass goes on the adaptive channel. -/
theorem sent_sendColl (s : State) (dest : Nat) (h : CollHdr) (hk : h.kind ≠ .grey) : Sent s (sendColl s dest h) (colHalf h.collId) dest 1 := by
  have heq : sendColl s dest h = nextCollSeq (inject s (colHalf h.collId)
      (mkPacket s dest 7 (routerOf s (colHalf h.collId)).seqColl (collHash h.collId h.chunk h.segment) (.coll h)) none)
      (colHalf h.collId) := by
    unfold sendColl
    dsimp only
    rw [if_neg hk]
  rw [heq]
  generalize hp : mkPacket s dest 7 (routerOf s (colHalf h.collId)).seqColl (collHash h.collId h.chunk h.segment) (.coll h) = p
  have hdest : p.dest = dest := by rw [← hp]; rfl
  have hvc : p.vc = 7 := by rw [← hp]; rfl
  unfold nextCollSeq inject
  refine ⟨?_, [{ id := (routerOf s (colHalf h.collId)).nextId, p := p, from_ := none, since := s.now, copies := none }], ?_, rfl, ?_⟩
  · generalize colHalf h.collId = half
    cases half <;> rfl
  · rw [routerOf_updRouter_self, routerOf_updRouter_self]
  · intro y hy
    rw [List.mem_singleton.1 hy]
    exact ⟨hdest, hvc⟩

theorem sent_foldl {α : Type} (half : Half) (dest : Nat) (f : State → α → State) (hf : ∀ s a, Sent s (f s a) half dest 1) (l : List α)
    (s : State) : Sent s (l.foldl f s) half dest l.length := by
  induction l generalizing s with
  | nil => exact Sent.refl _ _ _
  | cons a l ih =>
    rw [List.length_cons, Nat.add_comm]
    exact (hf s a).trans (ih _)

/-! ### Segments and chunks that are not complete -/

theorem slotOf_congr {s t : State} (id level c seg : Nat) (h : t.slots = s.slots) : slotOf t id level c seg = slotOf s id level c seg := by
  unfold slotOf
  rw [h]

/-- A segment without a slot is not taken further. -/
theorem advanceSeg_noSlot {s : State} {ws : List Word64} {level c seg : Nat} (h : slotOf s (colId ws) level c seg = none) :
    advanceSeg s ws level c seg = s := by
  unfold advanceSeg closeSeg
  dsimp only
  rw [h]

/-- A chunk one of whose segments is still to be written here stays open. -/
theorem closeChunk_open {s : State} {ws : List Word64} {c seg : Nat} {x : Coll} (hx : activeColl s (colId ws) = some x)
    (hw : writesOut s ws c = true) (hseg : seg < segsIn ws c) (hout : x.outSegs.contains (c, seg) = false) : closeChunk s ws c = s := by
  have hopen : segDone s ws x c seg = false := (if_pos hw).trans hout
  have hall : (List.range (segsIn ws c)).all (segDone s ws x c) = false := by
    rw [List.all_eq_false]
    exact ⟨seg, List.mem_range.2 hseg, by rw [hopen]; decide⟩
  unfold closeChunk
  rw [hx]
  exact if_pos (by rw [hall]; simp)

/-! ### COLL_LOCAL_INPUT -/

/-- The local input of a segment noted in its collective. -/
def localNoted (ws : List Word64) (s : State) (c seg : Nat) (x : Coll) : Coll :=
  { x with
    localDone := x.localDone ++ [(c, seg)]
    res := { x.res with
      narSeen := x.res.narSeen || ((List.range 2048).map (inElem s ws (srcSeg s ws c seg))).any ColIn.nar
      ovf := x.res.ovf || (((List.range 2048).map (inElem s ws (srcSeg s ws c seg))).filter ColIn.ovf).length != 0
      ofCount := satAdd top32 x.res.ofCount (((List.range 2048).map (inElem s ws (srcSeg s ws c seg))).filter ColIn.ovf).length
      ufCount := satAdd top32 x.res.ufCount (((List.range 2048).map (inElem s ws (srcSeg s ws c seg))).filter ColIn.uf).length } }

/-- The values of a segment's local input. -/
def inputVals (s : State) (ws : List Word64) (c seg : Nat) : List BankVal :=
  ((List.range 2048).map (inElem s ws (srcSeg s ws c seg))).map ColIn.v

section
variable {id c seg : Nat} {s : State} {x : Coll}

theorem localInput_held (hx : activeColl s id = some x)
    (h : hasWait s collQ x.d.seq = true ∨ x.localDone.contains (c, seg) = true ∨ chunkDone x c = true) : localInput s id c seg = s := by
  unfold localInput
  rw [hx]
  dsimp only
  refine if_pos ?_
  rcases h with h | h | h
  · rw [h]
    rfl
  · rw [h]
    simp only [Bool.or_true, Bool.true_or]
  · rw [h]
    simp only [Bool.or_true, Bool.true_or]

theorem localInput_runs (hx : activeColl s id = some x) (hwait : hasWait s collQ x.d.seq = false) (hc : c < colChunks x.d.words)
    (hseg : seg < segsIn x.d.words c) (hlocal : x.localDone.contains (c, seg) = false) (hdone : chunkDone x c = false)
    (hdepth : c < x.signalled + colDepth x.d.words) (hspread : isSpread x.d.words = false)
    (hreads : EngineReads s (srcSeg s x.d.words c seg) (segBytes (inFmt x.d.words) (inScaled x.d.words)))
    (hfree : OutputFree s x.d.words c seg) : localInput s id c seg =
      closeChunk (advanceSeg (enterLocal (updColl s id (localNoted x.d.words s c seg)) x.d.words 0 c seg
        (inputVals s x.d.words c seg) []) x.d.words 0 c seg) x.d.words c := by
  unfold localInput
  rw [hx]
  dsimp only
  rw [hwait, hlocal, hdone, hspread, decide_eq_false (by omega), decide_eq_false (by omega), decide_eq_false (by omega)]
  rw [if_neg (by simp), colReads_free s _ _ _ _ hreads, colWrites_free s _ _ _ _ hfree]
  rfl

/-- A segment noted as sent on. -/
def segSent (e : Nat × Nat × Nat) (x : Coll) : Coll := { x with sentSegs := x.sentSegs ++ [e] }

/-- The packets of a partial, before its segment is noted as sent. -/
def partialSent (s : State) (ws : List Word64) (level c seg : Nat) (count : Nat → Nat) (vs : List BankVal) : State :=
  (List.range 32).foldl (fun u pos => sendColl u
    ((levelGroup s ws level).chipOf (partialTo (levelGroup s ws level) (ownerOf s ws level c) c (levelGroup s ws level).own))
    (valuesHdr u ws level c seg pos .partialSum (levelGroup s ws level).own (count pos) ((vs.drop (64 * pos)).take 64))) s

theorem sendPartial_eq (s : State) (ws : List Word64) (level c seg : Nat) (count : Nat → Nat) (vs : List BankVal) :
    sendPartial s ws level c seg count vs = updColl (partialSent s ws level c seg count vs) (colId ws) (segSent (level, c, seg)) := rfl

theorem kind_valuesHdr_ne (s : State) (ws : List Word64) (level c seg pos sender count : Nat) (vs : List BankVal) :
    (valuesHdr s ws level c seg pos .partialSum sender count vs).kind ≠ .grey := CollKind.noConfusion

theorem sent_partialSent (s : State) (ws : List Word64) (level c seg : Nat) (count : Nat → Nat) (vs : List BankVal) :
    Sent s (partialSent s ws level c seg count vs) (colHalf (colId ws))
      ((levelGroup s ws level).chipOf (partialTo (levelGroup s ws level) (ownerOf s ws level c) c (levelGroup s ws level).own)) 32 := by
  have h := sent_foldl (colHalf (colId ws))
    ((levelGroup s ws level).chipOf (partialTo (levelGroup s ws level) (ownerOf s ws level c) c (levelGroup s ws level).own))
    (fun u pos => sendColl u _ (valuesHdr u ws level c seg pos .partialSum (levelGroup s ws level).own (count pos)
      ((vs.drop (64 * pos)).take 64)))
    (fun u pos => sent_sendColl u _ (valuesHdr u ws level c seg pos .partialSum (levelGroup s ws level).own (count pos)
      ((vs.drop (64 * pos)).take 64)) (kind_valuesHdr_ne _ _ _ _ _ _ _ _ _)) (List.range 32) s
  rw [List.length_range] at h
  exact h

end

theorem localInput_holds (id c seg : Nat) (s : State) (x : Coll) (hx : activeColl s id = some x) (hid : colId x.d.words = id) :
    (hasWait s collQ x.d.seq = true ∨ x.localDone.contains (c, seg) = true ∨ chunkDone x c = true →
      exec (.collLocalInput id c seg) s = .next s)
    ∧ (∀ g o, g = levelGroup s x.d.words 0 → o = ownerOf s x.d.words 0 c → hasWait s collQ x.d.seq = false →
      c < colChunks x.d.words → seg < segsIn x.d.words c → x.localDone.contains (c, seg) = false → chunkDone x c = false →
      c < x.signalled + colDepth x.d.words → isSpread x.d.words = false → sendsBare g o c g.own = true → g.own ≠ o →
      slotOf s id 0 c seg = none → writesOut s x.d.words c = true → x.outSegs.contains (c, seg) = false →
      EngineReads s (srcSeg s x.d.words c seg) (segBytes (inFmt x.d.words) (inScaled x.d.words)) → OutputFree s x.d.words c seg →
      ∃ t ps k, exec (.collLocalInput id c seg) s = .next t
        ∧ t = { s with colls := t.colls, routerW := t.routerW, routerE := t.routerE }
        ∧ (routerOf t (colHalf id)).held = (routerOf s (colHalf id)).held ++ ps ∧ ps.length = 32
        ∧ (∀ y ∈ ps, y.p.dest = g.chipOf (partialTo g o c g.own) ∧ y.p.vc = 7)
        ∧ activeColl t id = some k ∧ (c, seg) ∈ k.localDone ∧ (0, c, seg) ∈ k.sentSegs) := by
  refine ⟨fun h => congrArg Host.Outcome.next (localInput_held hx h), ?_⟩
  rintro g o rfl rfl hwait hc hseg hlocal hdone hdepth hspread hbare hown hslot hwrites hout hreads hfree
  have heq := localInput_runs hx hwait hc hseg hlocal hdone hdepth hspread hreads hfree
  have hnoted := activeColl_updColl (localNoted x.d.words s c seg) (fun _ => ⟨rfl, rfl⟩) hx
  have hframe : updColl s id (localNoted x.d.words s c seg) = { s with colls := (updColl s id (localNoted x.d.words s c seg)).colls } := rfl
  have henter : enterLocal (updColl s id (localNoted x.d.words s c seg)) x.d.words 0 c seg (inputVals s x.d.words c seg) []
      = sendPartial (updColl s id (localNoted x.d.words s c seg)) x.d.words 0 c seg (fun _ => 1) (inputVals s x.d.words c seg) := by
    unfold enterLocal
    exact if_pos (Bool.and_eq_true_iff.2 ⟨hbare, bne_iff_ne.2 hown⟩)
  obtain ⟨hrouters, ps, hheld, hlen, hall⟩ := sent_partialSent (updColl s id (localNoted x.d.words s c seg)) x.d.words 0 c seg
    (fun _ => 1) (inputVals s x.d.words c seg)
  rw [henter, sendPartial_eq] at heq
  generalize partialSent (updColl s id (localNoted x.d.words s c seg)) x.d.words 0 c seg (fun _ => 1) (inputVals s x.d.words c seg) = u at *
  rw [hid] at heq hheld
  have hu : activeColl u id = some (localNoted x.d.words s c seg x) :=
    (activeColl_congr id (congrArg State.colls hrouters :)).trans hnoted
  have hactive := activeColl_updColl (segSent (0, c, seg)) (fun _ => ⟨rfl, rfl⟩) hu
  have ht : updColl u id (segSent (0, c, seg)) = { s with colls := (updColl u id (segSent (0, c, seg))).colls
                                                          routerW := u.routerW, routerE := u.routerE } :=
    congrArg (fun y : State => { y with colls := (updColl u id (segSent (0, c, seg))).colls }) hrouters
  have hslots : slotOf (updColl u id (segSent (0, c, seg))) id 0 c seg = none :=
    (slotOf_congr id 0 c seg (congrArg State.slots ht :)).trans hslot
  have hwrites' : writesOut (updColl u id (segSent (0, c, seg))) x.d.words c = true := by
    rw [ht]
    exact hwrites
  rw [advanceSeg_noSlot (by rw [hid]; exact hslots), closeChunk_open (x := segSent (0, c, seg) (localNoted x.d.words s c seg x)) (by rw [hid]; exact hactive)
    hwrites' hseg hout] at heq
  refine ⟨_, ps, _, congrArg Host.Outcome.next heq, ht, hheld, hlen, hall, hactive, ?_, ?_⟩
  · exact List.mem_append_right _ List.mem_cons_self
  · exact List.mem_append_right _ List.mem_cons_self

theorem localInput_none (id c seg : Nat) (s : State) (hx : activeColl s id = none) : exec (.collLocalInput id c seg) s = .next s := by
  refine congrArg Host.Outcome.next ?_
  unfold localInput
  rw [hx]

end Sys2Proof.Machine

/-!
COLL_PACKET_RECEIVE (R301, R304, R309): partials of active, ended and pending collectives, and grey packets.
-/

namespace Sys2Proof.Machine

/-! ### A packet taken from its router -/

theorem echoMark_unmarked (s : State) (p : Packet) (id : Nat) (hm : p.mark = false) : echoMark s p id = s := by
  unfold echoMark
  exact if_pos (by rw [hm]; rfl)

section
variable {p : Packet} {h : CollHdr} {s : State} {x : Coll}

theorem takeColl_active (hb : p.body = .coll h) (hm : p.mark = false) (hx : activeColl s h.collId = some x)
    (hfree : OutputFree s x.d.words h.chunk h.segment) : takeColl s p = takeActive (takeEjected s p) x h := by
  unfold takeColl
  rw [hb]
  dsimp only
  rw [hx]
  dsimp only
  rw [colWrites_free s _ _ _ _ hfree, echoMark_unmarked _ _ _ hm]

theorem takeColl_ended (hb : p.body = .coll h) (hm : p.mark = false) (hx : activeColl s h.collId = none)
    (he : s.ended.any (fun (e : Ended) => e.coll == h.collId) = true) : takeColl s p = objInc (takeEjected s p) Obj.collLateDrops := by
  unfold takeColl
  rw [hb]
  dsimp only
  rw [hx]
  dsimp only
  rw [echoMark_unmarked _ _ _ hm]
  exact if_pos he

theorem takeColl_pending (hb : p.body = .coll h) (hm : p.mark = false) (hx : activeColl s h.collId = none)
    (he : s.ended.any (fun (e : Ended) => e.coll == h.collId) = false) : takeColl s p = takePending (takeEjected s p) h := by
  unfold takeColl
  rw [hb]
  dsimp only
  rw [hx]
  dsimp only
  rw [echoMark_unmarked _ _ _ hm]
  exact if_neg (by rw [show (takeEjected s p).ended = s.ended from rfl, he]; decide)

/-! ### A chunk that is done -/

theorem packet_done (hb : p.body = .coll h) (hm : p.mark = false) (hx : activeColl s h.collId = some x)
    (hfree : OutputFree s x.d.words h.chunk h.segment) (hdone : chunkDone x h.chunk = true) :
    ∃ t, exec (.collPacketReceive p) s = .next t
      ∧ t = { s with dic := t.dic, routerW := t.routerW, routerE := t.routerE, colls := t.colls }
      ∧ Counted s t Obj.collDuplicates 1 ∧ SameObjs s t [Obj.collDuplicates] := by
  have heq : takeActive (takeEjected s p) x h = countDup (takeEjected s p) x.id := if_pos hdone
  have hrun := (takeColl_active hb hm hx hfree).trans heq
  have hframe := takeEjected_frame s p
  generalize takeEjected s p = u at *
  have hsame : SameObjs s u [Obj.collDuplicates] := (SameObjs.refl s _).of_dic (congrArg State.dic hframe :)
  obtain ⟨v, hv, hobj, hcount⟩ : ∃ v, v = countDup u x.id ∧ SameObjs u v [Obj.collDuplicates] ∧ Counted u v Obj.collDuplicates 1 :=
    ⟨_, rfl, ((SameObjs.refl u _).objInc _ List.mem_cons_self).of_dic rfl, objGet_objInc_self u Obj.collDuplicates⟩
  have hvf : v = { u with dic := v.dic, colls := v.colls } := by
    rw [hv]
    rfl
  rw [← hv] at hrun
  refine ⟨v, congrArg Host.Outcome.next hrun, ?_, ?_, hsame.trans hobj⟩
  · have hwest : v.routerW = u.routerW := (congrArg State.routerW hvf :)
    have heast : v.routerE = u.routerE := (congrArg State.routerE hvf :)
    rw [hwest, heast]
    exact hvf.trans (congrArg (fun y : State => { y with dic := v.dic, colls := v.colls }) hframe)
  · exact hcount.trans (by rw [objGet_congr s u _ (congrArg State.dic hframe :)])

/-! ### Slots -/

theorem slotOf_fields {id level c seg : Nat} {y : Slot} (hy : slotOf s id level c seg = some y) :
    y.coll = id ∧ y.level = level ∧ y.chunk = c ∧ y.segment = seg := by
  have hp := List.find?_some hy
  simp only [Bool.and_eq_true, beq_iff_eq] at hp
  obtain ⟨⟨⟨h1, h2⟩, h3⟩, h4⟩ := hp
  exact ⟨h1, h2, h3, h4⟩

/-- A slot replaced by one of the same segment. -/
theorem slotOf_updSlot {id level c seg : Nat} {y z : Slot} (hy : slotOf s id level c seg = some y)
    (hz : z.coll = id ∧ z.level = level ∧ z.chunk = c ∧ z.segment = seg) :
    slotOf (updSlot s id level c seg (fun _ => z)) id level c seg = some z := by
  obtain ⟨h1, h2, h3, h4⟩ := hz
  have hpred : ((fun (x : Slot) => x.coll == id && x.level == level && x.chunk == c && x.segment == seg)
      ∘ fun (x : Slot) => if x.coll = id ∧ x.level = level ∧ x.chunk = c ∧ x.segment = seg then z else x)
      = fun (x : Slot) => x.coll == id && x.level == level && x.chunk == c && x.segment == seg := by
    funext x
    rw [Function.comp_apply]
    split
    next hx =>
      obtain ⟨e1, e2, e3, e4⟩ := hx
      rw [h1, h2, h3, h4, e1, e2, e3, e4]
    next => rfl
  have hold := slotOf_fields hy
  unfold slotOf updSlot at *
  rw [List.find?_map, hpred, hy]
  exact congrArg some (if_pos hold)

/-- Values combined into a slot change its accumulators alone. -/
theorem combineVals_slot (ws : List Word64) (inv : List Nat) (vs : List BankVal) (i : Nat) (y : Slot) (r : Result) :
    (combineVals ws inv vs i y r).1 = { y with
      acc := (combineVals ws inv vs i y r).1.acc, ovfs := (combineVals ws inv vs i y r).1.ovfs
      invs := (combineVals ws inv vs i y r).1.invs } := by
  induction vs generalizing i y r with
  | nil => rfl
  | cons v vs ih =>
    rw [combineVals]
    split
    · exact ih _ _ _
    · exact ih _ _ _

/-- Another position's Counts do not change with a new input. -/
theorem filter_smSet_ne (m : SMap Nat) (k v i : Nat) (hk : k / 256 ≠ i) :
    (smSet m k v).filter (fun e => e.1 / 256 == i) = m.filter (fun e => e.1 / 256 == i) := by
  have hnew : (k / 256 == i) = false := by simpa using hk
  induction m with
  | nil =>
    rw [smSet, List.filter_cons, hnew]
    rfl
  | cons e m ih =>
    obtain ⟨k', v'⟩ := e
    rw [smSet]
    split
    next he =>
      subst he
      rw [List.filter_cons, List.filter_cons, hnew]
      rfl
    next =>
      split
      · rw [List.filter_cons, hnew]
        rfl
      · rw [List.filter_cons, List.filter_cons, ih]

/-! ### An input of a segment that has a slot -/

/-- A slot and its collective's result with a new input of a rank. -/
def inputTaken (ws : List Word64) (y : Slot) (r : Result) (h : CollHdr) : Slot × Result :=
  combineVals ws [] (packetVals h) (64 * h.position) { y with got := smSet y.got (256 * h.position + h.sender) h.count } r

theorem inputTaken_slot (ws : List Word64) (y : Slot) (r : Result) (h : CollHdr) :
    (inputTaken ws y r h).1 = { y with
      got := smSet y.got (256 * h.position + h.sender) h.count, acc := (inputTaken ws y r h).1.acc
      ovfs := (inputTaken ws y r h).1.ovfs, invs := (inputTaken ws y r h).1.invs } :=
  combineVals_slot ws [] (packetVals h) (64 * h.position) { y with got := smSet y.got (256 * h.position + h.sender) h.count } r

/-- A collective with another result. -/
def resSet (r : Result) (x : Coll) : Coll := { x with res := r }

/-- The state in which a new input of a rank has been combined into its slot. -/
def slotEntered (s : State) (x : Coll) (y : Slot) (h : CollHdr) : State :=
  updColl (updSlot s h.collId h.level h.chunk h.segment (fun _ => (inputTaken x.d.words y x.res h).1)) h.collId
    (resSet (inputTaken x.d.words y x.res h).2)

theorem takeInput_slot {y : Slot} (hx : activeColl s h.collId = some x)
    (hsent : x.sentSegs.contains (h.level, h.chunk, h.segment) = false)
    (hy : slotOf s h.collId h.level h.chunk h.segment = some y) (hgot : smGet y.got (256 * h.position + h.sender) = none) :
    takeInput s (some x.d.words) [] h (packetVals h) = slotEntered s x y h := by
  obtain ⟨h1, h2, h3, h4⟩ := slotOf_fields hy
  have hx' : activeColl s y.coll = some x := by
    rw [h1]
    exact hx
  unfold takeInput
  rw [hx]
  dsimp only
  rw [if_neg (by rw [Option.any_some, hsent]; decide), hy]
  dsimp only
  unfold intoSlot
  dsimp only
  rw [if_neg (by rw [hgot]; decide), hx']
  unfold slotEntered inputTaken
  rw [← h1, ← h2, ← h3, ← h4]
  rfl

theorem slotCount_other {y : Slot} {i : Nat} (ws : List Word64) (r : Result) (hs : h.sender < 256) (hi : i ≠ h.position) :
    slotCount (inputTaken ws y r h).1 i = slotCount y i := by
  unfold slotCount
  rw [inputTaken_slot, filter_smSet_ne _ _ _ _ (by omega)]

/-- At its owner a segment with a position that misses inputs is not taken further. -/
theorem advanceSeg_incomplete {ws : List Word64} {level c seg i : Nat} {z : Slot} (hz : slotOf s (colId ws) level c seg = some z)
    (hown : (levelGroup s ws level).own = ownerOf s ws level c) (hi : i < 32) (hc : slotCount z i ≠ (levelGroup s ws level).members) :
    advanceSeg s ws level c seg = s := by
  have hall : (List.range 32).all (fun pos => slotCount z pos == (levelGroup s ws level).members) = false := by
    rw [List.all_eq_false]
    exact ⟨i, List.mem_range.2 hi, by simpa using hc⟩
  have hclose : closeSeg s ws level c seg = (s, none) := by
    unfold closeSeg
    dsimp only
    rw [hz]
    dsimp only
    by_cases hs : z.sent = true
    · rw [if_pos hs]
    · rw [if_neg hs, if_pos hown, hall]
      exact if_neg Bool.false_ne_true
  unfold advanceSeg
  rw [hclose]

theorem packet_partial {g : Group} {y : Slot} (hb : p.body = .coll h) (hm : p.mark = false) (hx : activeColl s h.collId = some x)
    (hid : colId x.d.words = h.collId) (hfree : OutputFree s x.d.words h.chunk h.segment) (hdone : chunkDone x h.chunk = false)
    (hk : h.kind = .partialSum) (hg : g = levelGroup s x.d.words h.level) (hown : g.own = ownerOf s x.d.words h.level h.chunk)
    (hy : slotOf s h.collId h.level h.chunk h.segment = some y)
    (hsent : x.sentSegs.contains (h.level, h.chunk, h.segment) = false) (hgot : smGet y.got (256 * h.position + h.sender) = none)
    (hs : h.sender < 256) (hi : ∃ i, i < 32 ∧ i ≠ h.position ∧ slotCount y i ≠ g.members) (hseg : h.segment < segsIn x.d.words h.chunk)
    (hw : writesOut s x.d.words h.chunk = true) (hout : x.outSegs.contains (h.chunk, h.segment) = false) :
    ∃ t z, exec (.collPacketReceive p) s = .next t
      ∧ t = { s with routerW := t.routerW, routerE := t.routerE, colls := t.colls, slots := t.slots }
      ∧ slotOf t h.collId h.level h.chunk h.segment = some z
      ∧ z.got = smSet y.got (256 * h.position + h.sender) h.count
      ∧ z.acc = (combineVals x.d.words [] (packetVals h) (64 * h.position) { y with got := z.got } x.res).1.acc := by
  subst hg
  obtain ⟨i, hi32, hip, hcount⟩ := hi
  have heq : takeActive (takeEjected s p) x h = closeChunk (advanceSeg (takeInput (takeEjected s p) (some x.d.words) [] h (packetVals h))
      x.d.words h.level h.chunk h.segment) x.d.words h.chunk := by
    unfold takeActive
    dsimp only
    rw [if_neg (by rw [hdone]; decide), hk]
  have hrun := (takeColl_active hb hm hx hfree).trans heq
  have hframe := takeEjected_frame s p
  generalize takeEjected s p = u at *
  clear heq
  have hyf := slotOf_fields hy
  have hyu : slotOf u h.collId h.level h.chunk h.segment = some y := (slotOf_congr _ _ _ _ (congrArg State.slots hframe :)).trans hy
  have hxu : activeColl u h.collId = some x := (activeColl_congr _ (congrArg State.colls hframe :)).trans hx
  obtain ⟨w, hwu, hslot, hactive, hwf⟩ : ∃ w, w = slotEntered u x y h
      ∧ slotOf w h.collId h.level h.chunk h.segment = some (inputTaken x.d.words y x.res h).1
      ∧ activeColl w h.collId = some (resSet (inputTaken x.d.words y x.res h).2 x)
      ∧ w = { u with colls := w.colls, slots := w.slots } :=
    ⟨_, rfl, slotOf_updSlot hyu (by rw [inputTaken_slot]; exact hyf),
      activeColl_updColl (s := updSlot u h.collId h.level h.chunk h.segment (fun _ => (inputTaken x.d.words y x.res h).1))
        (resSet (inputTaken x.d.words y x.res h).2) (fun _ => ⟨rfl, rfl⟩) hxu, rfl⟩
  rw [takeInput_slot hxu hsent hyu hgot, ← hwu] at hrun
  have hwest : w.routerW = u.routerW := (congrArg State.routerW hwf :)
  have heast : w.routerE = u.routerE := (congrArg State.routerE hwf :)
  have hws : w = { s with routerW := w.routerW, routerE := w.routerE, colls := w.colls, slots := w.slots } := by
    rw [hwest, heast]
    exact hwf.trans (congrArg (fun v : State => { v with colls := w.colls, slots := w.slots }) hframe)
  have hgroup : levelGroup w x.d.words h.level = levelGroup s x.d.words h.level := by
    rw [hws]
    rfl
  have howner : ownerOf w x.d.words h.level h.chunk = ownerOf s x.d.words h.level h.chunk := by
    rw [hws]
    rfl
  have hwrites : writesOut w x.d.words h.chunk = true := by
    rw [hws]
    exact hw
  rw [advanceSeg_incomplete (s := w) (i := i) (by rw [hid]; exact hslot) (by rw [hgroup, howner]; exact hown) hi32
    (by rw [slotCount_other _ _ hs hip, hgroup]; exact hcount),
    closeChunk_open (x := resSet (inputTaken x.d.words y x.res h).2 x) (by rw [hid]; exact hactive) hwrites hseg hout] at hrun
  refine ⟨w, _, congrArg Host.Outcome.next hrun, hws, hslot, ?_, ?_⟩
  · rw [inputTaken_slot]
  · rw [inputTaken_slot]
    rfl

/-! ### Packets of a collective that is not active -/

theorem packet_ended (hb : p.body = .coll h) (hm : p.mark = false) (hx : activeColl s h.collId = none)
    (he : s.ended.any (fun (e : Ended) => e.coll == h.collId) = true) :
    ∃ t, exec (.collPacketReceive p) s = .next t ∧ t = { s with dic := t.dic, routerW := t.routerW, routerE := t.routerE }
      ∧ Counted s t Obj.collLateDrops 1 ∧ SameObjs s t [Obj.collLateDrops] :=
  ⟨_, congrArg Host.Outcome.next (takeColl_ended hb hm hx he), rfl, objGet_objInc_self (takeEjected s p) Obj.collLateDrops,
    ((SameObjs.refl s _).of_dic (u := takeEjected s p) rfl).objInc _ List.mem_cons_self⟩

/-- The pending entry that a packet opens. -/
def pendOpened (s : State) (h : CollHdr) : PendColl := { half := colHalf h.collId, coll := h.collId, since := s.now }

/-- The slot that a packet claims. -/
def slotClaimed (h : CollHdr) : Slot :=
  { half := colHalf h.collId, coll := h.collId, level := h.level, chunk := h.chunk, segment := h.segment }

/-- The slot that a packet claims, with its input kept. -/
def slotKept (h : CollHdr) : Slot :=
  { slotClaimed h with got := [(256 * h.position + h.sender, h.count)], parts := [(h.position, packetVals h)] }

theorem isGrey_opened {q : PendColl} (hx : activeColl s h.collId = none) (hq : pendOf s h.collId = some q) (hg : q.grey = []) (c : Nat) :
    isGrey s h.collId c = false := by
  unfold isGrey
  rw [hq, Option.any_some, hg]
  cases hc : collOf s h.collId with
  | none => rfl
  | some y =>
    have hid : (y.id == h.collId) = true := List.find?_some (p := fun (c : Coll) => c.id == h.collId) hc
    have hno := List.find?_eq_none.1 hx y (List.mem_of_find?_eq_some hc)
    have hact : y.active = false := by simpa [hid] using hno
    rw [Option.any_some, hact]
    rfl

theorem takePending_opens (hx : activeColl s h.collId = none) (hp : pendOf s h.collId = none) (hk : h.kind = .partialSum)
    (hslot : slotOf s h.collId h.level h.chunk h.segment = none) (hroom : slotsIn s (colHalf h.collId) < 2048) :
    takePending s h = updSlot { s with pendColls := s.pendColls ++ [pendOpened s h], slots := s.slots ++ [slotClaimed h] }
      h.collId h.level h.chunk h.segment (fun _ => slotKept h) := by
  have hfound : pendOf { s with pendColls := s.pendColls ++ [pendOpened s h] } h.collId = some (pendOpened s h) := by
    unfold pendOf at *
    rw [List.find?_append, hp]
    simp [pendOpened]
  have hgrey := isGrey_opened (s := { s with pendColls := s.pendColls ++ [pendOpened s h] }) hx hfound rfl h.chunk
  have hactive : activeColl { s with pendColls := s.pendColls ++ [pendOpened s h] } h.collId = none := hx
  have hnone : slotOf { s with pendColls := s.pendColls ++ [pendOpened s h] } h.collId h.level h.chunk h.segment = none := hslot
  unfold takePending
  rw [hp, hk]
  dsimp only
  show takeInput { s with pendColls := s.pendColls ++ [pendOpened s h] } none [] h (packetVals h) = _
  unfold takeInput
  rw [hactive]
  dsimp only
  rw [if_neg (by simp), hnone]
  dsimp only
  rw [if_neg (by rw [hgrey, show slotsIn { s with pendColls := s.pendColls ++ [pendOpened s h] } (colHalf h.collId)
    = slotsIn s (colHalf h.collId) from rfl]; simp; omega)]
  rfl

theorem packet_pending (hb : p.body = .coll h) (hm : p.mark = false) (hx : activeColl s h.collId = none)
    (he : s.ended.any (fun (e : Ended) => e.coll == h.collId) = false) (hp : pendOf s h.collId = none) (hk : h.kind = .partialSum)
    (hslot : slotOf s h.collId h.level h.chunk h.segment = none) (hroom : slotsIn s (colHalf h.collId) < 2048) :
    ∃ t y, exec (.collPacketReceive p) s = .next t
      ∧ t = { s with routerW := t.routerW, routerE := t.routerE, slots := t.slots, pendColls := t.pendColls }
      ∧ t.pendColls = s.pendColls ++ [{ half := colHalf h.collId, coll := h.collId, since := s.now }]
      ∧ slotOf t h.collId h.level h.chunk h.segment = some y ∧ y.parts = [(h.position, packetVals h)]
      ∧ smGet y.got (256 * h.position + h.sender) = some h.count := by
  have heq := takePending_opens (s := takeEjected s p) hx hp hk hslot hroom
  have hclaimed : slotOf { takeEjected s p with pendColls := s.pendColls ++ [pendOpened s h], slots := s.slots ++ [slotClaimed h] }
      h.collId h.level h.chunk h.segment = some (slotClaimed h) := by
    unfold slotOf at *
    rw [List.find?_append, hslot]
    simp [slotClaimed]
  refine ⟨_, slotKept h, congrArg Host.Outcome.next ((takeColl_pending hb hm hx he).trans heq), rfl, rfl,
    slotOf_updSlot hclaimed ⟨rfl, rfl, rfl, rfl⟩, rfl, ?_⟩
  exact if_pos rfl

/-! ### Grey packets -/

theorem packet_grey (id c seg level : Nat) (x : Coll) (p : Packet) (h : CollHdr) (s : State) (hb : p.body = .coll h)
    (hm : p.mark = false) (hh : h = { h with collId := id, chunk := c, segment := seg, level := level, kind := .grey })
    (hx : activeColl s id = some x) (_ : colId x.d.words = id) (hfree : OutputFree s x.d.words c seg) (hdone : chunkDone x c = false)
    (hsent : x.sentSegs.contains (level, c, seg) = false)
    (hnew : (greysOf s id level c seg).find? (fun e => e.sender == h.sender) = none)
    (hroom : 8256 * ((s.greys.filter (fun (e : Grey) => e.coll == x.id)).length + 1) ≤ colGreyBytes x.d.words) :
    ∃ t e, exec (.collPacketReceive p) s = .next t ∧ t = { s with routerW := t.routerW, routerE := t.routerE, greys := s.greys ++ [e] }
      ∧ e.coll = id ∧ e.level = level ∧ e.chunk = c ∧ e.segment = seg ∧ e.sender = h.sender ∧ e.counts = [(h.position, h.count)] := by
  have h1 : h.collId = id := (congrArg CollHdr.collId hh :)
  have h2 : h.chunk = c := (congrArg CollHdr.chunk hh :)
  have h3 : h.segment = seg := (congrArg CollHdr.segment hh :)
  have h4 : h.level = level := (congrArg CollHdr.level hh :)
  have h5 : h.kind = .grey := (congrArg CollHdr.kind hh :)
  clear hh
  subst h1 h2 h3 h4
  have hxid := (activeColl_id hx).1
  have hfind : s.greys.find? (fun (e : Grey) => e.coll == x.id && e.level == h.level && e.sender == h.sender && e.chunk == h.chunk
      && e.segment == h.segment) = none := List.find?_eq_none.2 fun e he hp => by
    simp only [Bool.and_eq_true, beq_iff_eq] at hp
    obtain ⟨⟨⟨⟨e1, e2⟩, e3⟩, e4⟩, e5⟩ := hp
    have hin : e ∈ greysOf s h.collId h.level h.chunk h.segment := List.mem_filter.2 ⟨he, by simp [e1, hxid, e2, e4, e5]⟩
    have hne := List.find?_eq_none.1 hnew e hin
    simp [e3] at hne
  have hgrey : takeActive (takeEjected s p) x h = takeGreyPacket (takeEjected s p) x h := by
    unfold takeActive
    dsimp only
    rw [if_neg (by rw [hdone]; decide), h5]
  have hput : ∃ e, takeGreyPacket (takeEjected s p) x h = { takeEjected s p with greys := s.greys ++ [e] } ∧ e.coll = h.collId
      ∧ e.level = h.level ∧ e.chunk = h.chunk ∧ e.segment = h.segment ∧ e.sender = h.sender ∧ e.counts = [(h.position, h.count)] := by
    unfold takeGreyPacket
    dsimp only
    rw [if_neg (by rw [hsent]; decide), show (takeEjected s p).greys = s.greys from rfl, hfind]
    dsimp only
    rw [if_neg (by omega)]
    exact ⟨_, rfl, hxid, rfl, rfl, rfl, rfl, rfl⟩
  obtain ⟨e, he, hfields⟩ := hput
  exact ⟨_, e, congrArg Host.Outcome.next ((takeColl_active hb hm hx hfree).trans (hgrey.trans he)), rfl, hfields⟩

end

end Sys2Proof.Machine

/-!
Results of a collective (R298, R299): a packet written where the output stands; O34 settled.
-/

namespace Sys2Proof.Machine

/-! ### Whole lines written -/

theorem maskFrom_full : maskFrom 0 64 = fullMask := by decide

/-- A whole line of LPDDR written, whatever it was. -/
theorem writeBytes_wholeLine (s : State) (off : Nat) (data : Bytes) (poison : Bool) (ha : off % 64 = 0) (hd : data.length = 64)
    (hl : off < lpddrSize) : (writeBytes s off data poison).lpddr = memStore s.lpddr off data
      ∧ (writeBytes s off data poison).tile = s.tile := by
  have hne : data ≠ [] := fun h => by simp [h] at hd
  have hmask : memStoreMask s.lpddr (64 * (off / 64)) fullMask data = memStore s.lpddr off data := by
    have h := memStoreMask_maskFrom_zero 64 s.lpddr (64 * (off / 64)) data hd
    rw [show fullMask = 2 ^ 64 - 1 from rfl, h, show 64 * (off / 64) = off by omega]
  rw [writeBytes_line s off data poison ha (by omega) hne, hd, maskFrom_full]
  unfold writeLine
  rw [if_pos hl]
  constructor
  · rw [noteWrite_keeps State.lpddr (fun _ _ => rfl)]
    unfold writeLpddrLine
    rw [if_neg (by simp)]
    exact hmask
  · rw [noteWrite_keeps State.tile (fun _ _ => rfl)]
    unfold writeLpddrLine
    rw [if_neg (by simp)]

theorem writeLines_lpddr (n N : Nat) (s : State) (off mask : Nat) (data : Bytes) (ha : off % 64 = 0) (hd : data.length = 64 * N)
    (hn : n ≤ N) (hl : off + data.length ≤ lpddrSize) :
    (writeLines s off mask data n).lpddr = memStore s.lpddr (off + 64 * (N - n)) (data.drop (64 * (N - n)))
      ∧ (writeLines s off mask data n).tile = s.tile := by
  induction n generalizing s with
  | zero =>
    rw [Nat.sub_zero, ← hd, List.drop_length]
    exact ⟨rfl, rfl⟩
  | succ n ih =>
    have hk : ceilDiv data.length 64 - (n + 1) = N - (n + 1) := by
      rw [hd]
      unfold ceilDiv
      omega
    have hline : ((data.drop (64 * (N - (n + 1)))).take 64).length = 64 := by
      rw [List.length_take, List.length_drop]
      omega
    have hsplit := memStore_append s.lpddr (off + 64 * (N - (n + 1))) ((data.drop (64 * (N - (n + 1)))).take 64)
      ((data.drop (64 * (N - (n + 1)))).drop 64)
    rw [List.take_append_drop, List.drop_drop, hline, show 64 * (N - (n + 1)) + 64 = 64 * (N - n) by omega,
      show off + 64 * (N - (n + 1)) + 64 = off + 64 * (N - n) by omega] at hsplit
    rw [writeLines, hk]
    obtain ⟨hlp, htile⟩ := writeBytes_wholeLine s (off + 64 * (N - (n + 1))) ((data.drop (64 * (N - (n + 1)))).take 64)
      (natBit (N - (n + 1)) mask) (by omega) hline (by omega)
    obtain ⟨hlp', htile'⟩ := ih (writeBytes s (off + 64 * (N - (n + 1))) ((data.drop (64 * (N - (n + 1)))).take 64)
      (natBit (N - (n + 1)) mask)) (by omega)
    exact ⟨by rw [hlp', hlp, hsplit], htile'.trans htile⟩

theorem writeLines_tile (n N : Nat) (s : State) (off mask : Nat) (data : Bytes) (hd : data.length = 64 * N) (hn : n ≤ N)
    (hl : tileBase ≤ off) :
    (writeLines s off mask data n).tile = memStore s.tile (off + 64 * (N - n) - tileBase) (data.drop (64 * (N - n)))
      ∧ (writeLines s off mask data n).lpddr = s.lpddr := by
  induction n generalizing s with
  | zero =>
    rw [Nat.sub_zero, ← hd, List.drop_length]
    exact ⟨rfl, rfl⟩
  | succ n ih =>
    have hk : ceilDiv data.length 64 - (n + 1) = N - (n + 1) := by
      rw [hd]
      unfold ceilDiv
      omega
    have hline : ((data.drop (64 * (N - (n + 1)))).take 64).length = 64 := by
      rw [List.length_take, List.length_drop]
      omega
    have hsplit := memStore_append s.tile (off + 64 * (N - (n + 1)) - tileBase) ((data.drop (64 * (N - (n + 1)))).take 64)
      ((data.drop (64 * (N - (n + 1)))).drop 64)
    rw [List.take_append_drop, List.drop_drop, hline, show 64 * (N - (n + 1)) + 64 = 64 * (N - n) by omega,
      show off + 64 * (N - (n + 1)) - tileBase + 64 = off + 64 * (N - n) - tileBase by omega] at hsplit
    rw [writeLines, hk]
    have htile := writeBytes_tile s (off + 64 * (N - (n + 1))) ((data.drop (64 * (N - (n + 1)))).take 64)
      (natBit (N - (n + 1)) mask) (by omega)
    have hlp := writeBytes_tile_keeps State.lpddr (fun _ _ => rfl) s (off + 64 * (N - (n + 1)))
      ((data.drop (64 * (N - (n + 1)))).take 64) (natBit (N - (n + 1)) mask) (by omega)
    obtain ⟨htile', hlp'⟩ := ih (writeBytes s (off + 64 * (N - (n + 1))) ((data.drop (64 * (N - (n + 1)))).take 64)
      (natBit (N - (n + 1)) mask)) (by omega)
    exact ⟨by rw [htile', htile, hsplit], hlp'.trans hlp⟩

/-- A run of whole lines written: its bytes, and no other. -/
theorem writeLines_run {s : State} {off mask N : Nat} {data : Bytes} (ha : off % 64 = 0) (hd : data.length = 64 * N)
    (hp : plainRun s off (64 * N) = true) :
    rawBytes (writeLines s off mask data N) off data.length = data ∧ SameMemoryBut s (writeLines s off mask data N) off data.length := by
  rcases plainRun_cases hp with ⟨h1, h2⟩ | ⟨h1, h2⟩
  · have hlo := lt_of_lpddr h1
    have hhi := lt_of_lpddr h2
    have hend : off + data.length ≤ lpddrSize := by
      unfold lpddrSize at hlo hhi ⊢
      omega
    obtain ⟨hlp, htile⟩ := writeLines_lpddr N N s off mask data ha hd le_rfl hend
    rw [Nat.sub_self, Nat.mul_zero, Nat.add_zero, List.drop_zero] at hlp
    exact run_of_lpddr hlo hlp htile
  · obtain ⟨hge, -⟩ := ge_of_tile h1
    obtain ⟨htile, hlp⟩ := writeLines_tile N N s off mask data hd le_rfl hge
    rw [Nat.sub_self, Nat.mul_zero, Nat.add_zero, List.drop_zero] at htile
    exact run_of_tile hge htile hlp

theorem sameObjs_writeLines (n : Nat) (s : State) (off mask : Nat) (data : Bytes) :
    SameObjs s (writeLines s off mask data n) [Obj.memDimStalledRequests] := by
  induction n generalizing s with
  | zero => exact SameObjs.refl _ _
  | succ n ih => exact (sameObjs_writeRun _ _ _ _ _).trans (ih _)

theorem length_bytes32 (l : List Nat) : (bytes32 l).length = 4 * l.length := by
  unfold bytes32
  induction l with
  | nil => rfl
  | cons a l ih => rw [List.flatMap_cons, List.length_append, ih, natLe_length, List.length_cons]; omega

/-! ### A result packet -/

/-- What a stored result packet adds to its collective's result. -/
def resultCounted (ws : List Word64) (mask : Nat) (elems : Bytes) (x : Coll) : Coll :=
  { x with res := { x.res with
      poisonedLines := satAdd top32 x.res.poisonedLines ((List.range 4).filter (fun i => natBit i mask)).length
      poisoned := x.res.poisoned || ((List.range 4).filter (fun i => natBit i mask)).length != 0
      narCount := satAdd top32 x.res.narCount (if (outFmt ws).isInt then 0 else
        ((List.range (perPacket ws)).filter (fun i =>
          leNat ((elems.drop (i * ((outFmt ws).bits / 8))).take ((outFmt ws).bits / 8)) == (outFmt ws).narCode)).length) } }

section
variable {p : Packet} {h : CollHdr} {s : State} {x : Coll}

theorem resultStored_eq (hw : writesOut s x.d.words h.chunk = true) (hsc : outScaled x.d.words = false) (hlen : h.data.length = 64) :
    resultStored s x.d.words h = updColl (writeLines s (dstSeg s x.d.words h.chunk h.segment + 256 * h.position) h.poisonMask
      (bytes32 h.data) 4) (colId x.d.words) (resultCounted x.d.words h.poisonMask (bytes32 h.data)) := by
  have htake : (bytes32 h.data).take 256 = bytes32 h.data := List.take_of_length_le (by rw [length_bytes32]; omega)
  unfold resultStored
  rw [if_pos hw]
  unfold writeResult
  rw [htake, hsc]
  rfl

/-- A collective that has noted a result packet, with packets of the segment still to come. -/
theorem segmentNoted_open {y : Coll} (ws : List Word64) (hgot : y.gotRes = x.gotRes ++ [(h.level, h.chunk, h.segment, h.position)])
    (hi : ∃ i, i < resultPackets ws ∧ i ≠ h.position ∧ x.gotRes.contains (h.level, h.chunk, h.segment, i) = false) :
    segmentNoted ws h y = y := by
  obtain ⟨i, hlt, hne, hno⟩ := hi
  unfold segmentNoted
  refine if_neg fun hall => ?_
  have hin := List.all_eq_true.1 hall i (List.mem_range.2 hlt)
  rw [hgot] at hin
  have hmem := List.contains_iff_mem.1 hin
  rcases List.mem_append.1 hmem with hm | hm
  · rw [List.contains_iff_mem.2 hm] at hno
    cases hno
  · have hpos : i = h.position := by simpa using List.mem_singleton.1 hm
    exact hne hpos

/-- What a result packet may change, taken from another state. -/
def resultFoot (s t : State) : State :=
  { s with free := t.free, dic := t.dic, tile := t.tile, tilePoison := t.tilePoison, lpddr := t.lpddr, lpddrPoison := t.lpddrPoison
           lpddrBad := t.lpddrBad, chans := t.chans, routerW := t.routerW, routerE := t.routerE, colls := t.colls }

theorem resultFoot_self (s : State) : resultFoot s s = s := rfl

/-- What sending a result on leaves alone. -/
def storedView (s : State) : Mem × Mem × SMap Nat × List Coll := (s.lpddr, s.tile, s.dic, s.colls)

theorem storedView_resultSent (s : State) (ws : List Word64) (h : CollHdr) : storedView (resultSent s ws h) = storedView s := by
  have hat (u : State) (level : Nat) : storedView (spreadAt u ws level h) = storedView u :=
    spreadAt_keeps storedView (fun _ _ => rfl) u ws level h
  unfold resultSent
  split
  · rfl
  · split
    · exact (hat _ _).trans (hat _ _)
    · exact hat _ _

/-- A result packet of a segment that waits for more. -/
theorem passResult_facts {a : Nat} (hx : activeColl s (colId x.d.words) = some x) (hw : writesOut s x.d.words h.chunk = true)
    (hsc : outScaled x.d.words = false)
    (hi : ∃ i, i < resultPackets x.d.words ∧ i ≠ h.position ∧ x.gotRes.contains (h.level, h.chunk, h.segment, i) = false)
    (ha : a = dstSeg s x.d.words h.chunk h.segment + 256 * h.position) (hal : a % 64 = 0) (hp : plainRun s a 256 = true)
    (hlen : h.data.length = 64) :
    rawBytes (passResult s x.d.words h) a 256 = bytes32 h.data ∧ SameMemoryBut s (passResult s x.d.words h) a 256
    ∧ SameObjs s (passResult s x.d.words h) [Obj.memDimStalledRequests]
    ∧ ∃ y, activeColl (passResult s x.d.words h) (colId x.d.words) = some y ∧ y.outSegs = x.outSegs := by
  have hdata : (bytes32 h.data).length = 64 * 4 := by rw [length_bytes32, hlen]
  obtain ⟨hraw, hmem⟩ := writeLines_run (mask := h.poisonMask) hal hdata hp
  have hobj := sameObjs_writeLines 4 s a h.poisonMask (bytes32 h.data)
  have hcolls : (writeLines s a h.poisonMask (bytes32 h.data) 4).colls = s.colls :=
    writeLines_keeps State.colls (fun _ _ => rfl) s a h.poisonMask (bytes32 h.data) 4
  have hstored := resultStored_eq (s := s) hw hsc hlen
  rw [← ha] at hstored
  rw [hdata] at hraw hmem
  rw [passResult_eq, hstored]
  generalize writeLines s a h.poisonMask (bytes32 h.data) 4 = u at *
  have h1 := activeColl_updColl (resultCounted x.d.words h.poisonMask (bytes32 h.data)) (fun _ => ⟨rfl, rfl⟩)
    ((activeColl_congr _ hcolls).trans hx)
  have h2 := activeColl_updColl (fun (y : Coll) => { y with gotRes := y.gotRes ++ [(h.level, h.chunk, h.segment, h.position)] })
    (fun _ => ⟨rfl, rfl⟩) h1
  have hview := storedView_resultSent (resultNoted (updColl u (colId x.d.words) (resultCounted x.d.words h.poisonMask (bytes32 h.data)))
    x.d.words h) x.d.words h
  generalize resultSent (resultNoted (updColl u (colId x.d.words) (resultCounted x.d.words h.poisonMask (bytes32 h.data)))
    x.d.words h) x.d.words h = v at *
  obtain ⟨hlp, hrest⟩ := Prod.mk.inj hview
  obtain ⟨htile, hrest'⟩ := Prod.mk.inj hrest
  obtain ⟨hdic, hcolls'⟩ := Prod.mk.inj hrest'
  have h3 := activeColl_updColl (segmentNoted x.d.words h) (fun y => by unfold segmentNoted; split <;> exact ⟨rfl, rfl⟩)
    ((activeColl_congr _ hcolls').trans h2)
  rw [segmentNoted_open (x := x) x.d.words rfl hi] at h3
  refine ⟨?_, sameMemoryBut_of_same hmem hlp htile, (hobj.of_dic hdic).of_dic rfl, _, h3, rfl⟩
  refine Eq.trans ?_ hraw
  show rawBytes v a 256 = rawBytes u a 256
  unfold rawBytes
  rw [hlp, htile]
  rfl

theorem packet_result {a : Nat} (hb : p.body = .coll h) (hm : p.mark = false) (hx : activeColl s h.collId = some x)
    (hid : colId x.d.words = h.collId) (hfree : OutputFree s x.d.words h.chunk h.segment) (hdone : chunkDone x h.chunk = false)
    (hk : h.kind = .result) (hnot : ¬ (h.sender = ownRank s x.d.words h.level ∧ h.owner = chip s))
    (hgot : x.gotRes.contains (h.level, h.chunk, h.segment, h.position) = false) (hout : x.outSegs.contains (h.chunk, h.segment) = false)
    (hw : writesOut s x.d.words h.chunk = true) (hsc : outScaled x.d.words = false) (hseg : h.segment < segsIn x.d.words h.chunk)
    (hi : ∃ i, i < resultPackets x.d.words ∧ i ≠ h.position ∧ x.gotRes.contains (h.level, h.chunk, h.segment, i) = false)
    (ha : a = dstSeg s x.d.words h.chunk h.segment + 256 * h.position) (hal : a % 64 = 0) (hp : plainRun s a 256 = true)
    (hlen : h.data.length = 64) (_ : MemOk s) :
    ∃ t, exec (.collPacketReceive p) s = .next t
      ∧ t = { s with free := t.free, dic := t.dic, tile := t.tile, tilePoison := t.tilePoison, lpddr := t.lpddr,
                     lpddrPoison := t.lpddrPoison, lpddrBad := t.lpddrBad, chans := t.chans, routerW := t.routerW,
                     routerE := t.routerE, colls := t.colls }
      ∧ rawBytes t a 256 = bytes32 h.data ∧ SameMemoryBut s t a 256 ∧ SameObjs s t [Obj.memDimStalledRequests] := by
  have heq : takeActive (takeEjected s p) x h = closeChunk (passResult (takeEjected s p) x.d.words h) x.d.words h.chunk := by
    have hnot' : ¬ (h.sender = ownRank (takeEjected s p) x.d.words h.level ∧ h.owner = chip (takeEjected s p)) := hnot
    unfold takeActive
    dsimp only
    rw [if_neg (by rw [hdone]; decide), hk]
    dsimp only
    rw [if_neg hnot', hgot, hout]
    exact if_neg (by decide)
  have hrun := (takeColl_active hb hm hx hfree).trans heq
  have hframe := takeEjected_frame s p
  generalize takeEjected s p = u at *
  have hxu : activeColl u (colId x.d.words) = some x := by
    rw [hid]
    exact (activeColl_congr _ (congrArg State.colls hframe :)).trans hx
  have hwu : writesOut u x.d.words h.chunk = true := by
    rw [hframe]
    exact hw
  have hau : a = dstSeg u x.d.words h.chunk h.segment + 256 * h.position := by
    rw [ha, hframe]
    rfl
  have hpu : plainRun u a 256 = true := by
    rw [hframe]
    exact hp
  obtain ⟨hraw, hmem, hobj, y, hy, hsame⟩ := passResult_facts hxu hwu hsc hi hau hal hpu hlen
  have hfoot := (resultFoot_self _).symm.trans
    (passResult_keeps (resultFoot · (passResult u x.d.words h)) (fun _ _ => rfl) u x.d.words h)
  have hwrites : writesOut (passResult u x.d.words h) x.d.words h.chunk = true := by
    rw [hfoot]
    exact hwu
  rw [closeChunk_open hy hwrites hseg (by rw [hsame]; exact hout)] at hrun
  generalize passResult u x.d.words h = t at *
  have hmemu : memories u = memories s := (congrArg memories hframe :)
  obtain ⟨htile, hlpddr⟩ := Prod.mk.inj hmemu
  refine ⟨t, congrArg Host.Outcome.next hrun, ?_, hraw, ?_, ((SameObjs.refl s _).of_dic (congrArg State.dic hframe :)).trans hobj⟩
  · refine hfoot.trans ?_
    rw [hframe]
    rfl
  · unfold SameMemoryBut at *
    rw [htile, hlpddr] at hmem
    exact hmem

end

theorem collPacket_active (p : Packet) (h : CollHdr) (s : State) (x : Coll) (hb : p.body = .coll h) (hm : p.mark = false)
    (hx : activeColl s h.collId = some x) (hid : colId x.d.words = h.collId) (hfree : OutputFree s x.d.words h.chunk h.segment) :
    (chunkDone x h.chunk = true →
      ∃ t, exec (.collPacketReceive p) s = .next t
        ∧ t = { s with dic := t.dic, routerW := t.routerW, routerE := t.routerE, colls := t.colls }
        ∧ Counted s t Obj.collDuplicates 1 ∧ SameObjs s t [Obj.collDuplicates])
    ∧ (∀ g y, chunkDone x h.chunk = false → h.kind = .partialSum → g = levelGroup s x.d.words h.level →
      g.own = ownerOf s x.d.words h.level h.chunk → slotOf s h.collId h.level h.chunk h.segment = some y →
      x.sentSegs.contains (h.level, h.chunk, h.segment) = false → smGet y.got (256 * h.position + h.sender) = none →
      h.sender < 256 → (∃ i, i < 32 ∧ i ≠ h.position ∧ slotCount y i ≠ g.members) → h.segment < segsIn x.d.words h.chunk →
      writesOut s x.d.words h.chunk = true → x.outSegs.contains (h.chunk, h.segment) = false →
      ∃ t z, exec (.collPacketReceive p) s = .next t
        ∧ t = { s with routerW := t.routerW, routerE := t.routerE, colls := t.colls, slots := t.slots }
        ∧ slotOf t h.collId h.level h.chunk h.segment = some z
        ∧ z.got = smSet y.got (256 * h.position + h.sender) h.count
        ∧ z.acc = (combineVals x.d.words [] (packetVals h) (64 * h.position) { y with got := z.got } x.res).1.acc)
    ∧ (∀ a, chunkDone x h.chunk = false → h.kind = .result → ¬ (h.sender = ownRank s x.d.words h.level ∧ h.owner = chip s) →
      x.gotRes.contains (h.level, h.chunk, h.segment, h.position) = false → x.outSegs.contains (h.chunk, h.segment) = false →
      writesOut s x.d.words h.chunk = true → outScaled x.d.words = false → h.segment < segsIn x.d.words h.chunk →
      (∃ i, i < resultPackets x.d.words ∧ i ≠ h.position ∧ x.gotRes.contains (h.level, h.chunk, h.segment, i) = false) →
      a = dstSeg s x.d.words h.chunk h.segment + 256 * h.position → a % 64 = 0 → plainRun s a 256 = true → h.data.length = 64 →
      MemOk s →
      ∃ t, exec (.collPacketReceive p) s = .next t
        ∧ t = { s with free := t.free, dic := t.dic, tile := t.tile, tilePoison := t.tilePoison, lpddr := t.lpddr,
                       lpddrPoison := t.lpddrPoison, lpddrBad := t.lpddrBad, chans := t.chans, routerW := t.routerW,
                       routerE := t.routerE, colls := t.colls }
        ∧ rawBytes t a 256 = bytes32 h.data ∧ SameMemoryBut s t a 256 ∧ SameObjs s t [Obj.memDimStalledRequests]) :=
  ⟨fun hdone => packet_done hb hm hx hfree hdone,
    fun _ _ hdone hk hg hown hy hsent hgot hs hi hseg hw hout =>
      packet_partial hb hm hx hid hfree hdone hk hg hown hy hsent hgot hs hi hseg hw hout,
    fun _ hdone hk hnot hgot hout hw hsc hseg hi ha hal hp hlen hok =>
      packet_result hb hm hx hid hfree hdone hk hnot hgot hout hw hsc hseg hi ha hal hp hlen hok⟩

/-- Settles O34: collectives are issued and activated in turn, and each input, result or grey segment does its one thing. -/
theorem collectivesIssuedAndCombined : Obligations.CollectivesIssuedAndCombined := by
  unfold Obligations.CollectivesIssuedAndCombined
  exact ⟨collectiveIssue_holds, collectiveIssue_none, collectiveActivate_holds, collectiveActivate_none, localInput_holds,
    localInput_none, fun id c seg s => ⟨_, rfl, collFrame_localInput s id c seg⟩, collPacket_active,
    fun p h s hb hm hx => ⟨fun he => packet_ended hb hm hx he,
      fun he hp hk hslot hroom => packet_pending hb hm hx he hp hk hslot hroom⟩,
    greySegmentReduce_holds, greySegmentReduce_none, fun p s => ⟨_, rfl, collFrame_takeColl s p⟩, packet_grey⟩

end Sys2Proof.Machine

/-!
What the channels remember of failed retrainings (R176), which no access of the host changes: the host's waiting accesses are served
when a Dim period ends, before the retraining's outcome is counted.
-/

namespace Sys2Proof.Machine

/-- The retrainings that each channel has failed in a row. -/
def failsView (s : State) : List Nat := s.chans.map Chan.trainFails

theorem failsView_of_chans {s t : State} (h : t.chans = s.chans) : failsView t = failsView s := congrArg (·.map Chan.trainFails) h

theorem trainFails_eq (s : State) (ch : Nat) : (chanOf s ch).trainFails = (failsView s).getD ch 0 := by
  rw [failsView, chanOf, List.getD_map (f := Chan.trainFails) (d := {})]

theorem length_failsView (s : State) : (failsView s).length = s.chans.length := List.length_map _

/-! ### Reads and writes of lines -/

theorem failsView_updChan (s : State) (ch : Nat) (f : Chan → Chan) (hf : ∀ c, (f c).trainFails = c.trainFails) :
    failsView (updChan s ch f) = failsView s := by
  refine List.ext_getElem (by simp [failsView, updChan, modifyAt]) (fun i _ _ => ?_)
  simp only [failsView, updChan, modifyAt, List.getElem_map, List.getElem_modify]
  split
  · exact hf _
  · rfl

theorem trainFails_acceptWrite (now line : Nat) (c : Chan) : (acceptWrite now line c).trainFails = c.trainFails := by
  unfold acceptWrite
  dsimp only
  split
  · rfl
  · split
    · rfl
    · split <;> rfl

theorem failsView_noteWrite (s : State) (line : Nat) : failsView (noteWrite s line) = failsView s := by
  unfold noteWrite
  dsimp only
  rw [failsView_updChan _ _ _ (trainFails_acceptWrite _ _)]
  split <;> rfl

theorem failsView_writeLine (s : State) (off mask : Nat) (data : Bytes) (poison : Bool) :
    failsView (writeLine s off mask data poison) = failsView s := by
  unfold writeLine
  split
  · rw [failsView_noteWrite, writeLpddrLine]
    split <;> rfl
  · rfl

theorem failsView_writeBytes (s : State) (off : Nat) (data : Bytes) (poison : Bool) :
    failsView (writeBytes s off data poison) = failsView s := by
  unfold writeBytes
  generalize data.length / 64 + 2 = k
  induction k generalizing s off data with
  | zero => rfl
  | succ k ih =>
    unfold writeRun
    split
    · rfl
    · exact (ih _ _ _).trans (failsView_writeLine _ _ _ _ _)

theorem failsView_islandEvent (s : State) (i : Island) (key n : Nat) : failsView (islandEvent s i key n) = failsView s :=
  islandEvent_keeps failsView (fun _ _ => rfl) s i key n

theorem failsView_readDecoded (s : State) (line : Nat) (e : Ecc) : failsView (readDecoded s line e) = failsView s := by
  cases e with
  | clean => rfl
  | corrected =>
    refine (failsView_updChan _ _ _ (fun _ => ?_)).trans (failsView_islandEvent ..)
    rfl
  | uncorrectable =>
    refine (failsView_updChan _ _ _ (fun _ => ?_)).trans (failsView_islandEvent ..)
    rfl

theorem failsView_lineFound (s : State) (x : LineEvent) : failsView (lineFound s x) = failsView s := by
  unfold lineFound
  split
  · exact failsView_readDecoded _ _ _
  · cases x.e <;> rfl
  · rfl

theorem failsView_linesFound (s : State) (ls : List Nat) (ev : List LineEvent) : failsView (linesFound s ls ev) = failsView s :=
  foldlState failsView lineFound failsView_lineFound _ s

/-! ### Completion records -/

theorem failsView_updQ (s : State) (q : Nat) (f : Queue → Queue) : failsView (updQ s q f) = failsView s :=
  updQ_keeps failsView (fun _ _ => rfl) s q f

theorem failsView_writeQueueMem (s : State) (addr : Nat) (data : Bytes) : failsView (writeQueueMem s addr data) = failsView s := by
  unfold writeQueueMem
  split
  · split
    · exact failsView_writeBytes _ _ _ _
    · exact countAddrError_keeps failsView (fun _ _ => rfl) _ _
  · rfl
  · rfl

theorem failsView_putRecord (s : State) (q : Nat) (v : Queue) (words : List Word64) : failsView (putRecord s q v words) = failsView s := by
  unfold putRecord
  dsimp only
  split
  · rw [raiseCpl_keeps failsView (fun _ _ => rfl), failsView_updQ, failsView_writeQueueMem]
  · rw [failsView_updQ, failsView_writeQueueMem]

theorem failsView_abortRecord (s : State) (q seq op engine : Nat) (body : List Word64) :
    failsView (abortRecord s q seq op engine body) = failsView s := by
  unfold abortRecord writeSpare
  split
  · split
    · exact failsView_putRecord _ _ _ _
    · exact parkRecord_keeps failsView (fun _ _ => rfl) _ _ _ _
  · rfl

theorem failsView_abortRecords (s : State) (q : Nat) (l : List (Nat × Nat × Nat)) : failsView (abortRecords s q l) = failsView s := by
  induction l generalizing s with
  | nil => rfl
  | cons x l ih => exact (ih _).trans (failsView_abortRecord _ _ _ _ _ _)

theorem failsView_abortLayers (s : State) (q : Nat) (l : List Layer) : failsView (abortLayers s q l) = failsView s := by
  induction l generalizing s with
  | nil => rfl
  | cons x l ih => exact (ih _).trans (failsView_abortRecord _ _ _ _ _ _)

theorem failsView_queueCut (s : State) (q : Nat) (v : Queue) : failsView (queueCut s q v) = failsView s := by
  have hcut (gone : List Nat) (n : Nat) (ws : List Waiter) (ls : List Layer) :
      failsView { dropStreams s q gone with free := n, waiters := ws, layers := ls } = failsView s := rfl
  rw [queueCut, failsView_updQ, hcut]

theorem failsView_abortQueue (s : State) (q : Nat) : failsView (abortQueue s q) = failsView s := by
  by_cases hs : Stopped s q
  · rw [abortQueue_idle s q hs]
  · obtain ⟨v, hv, hst⟩ : ∃ v, smGet s.queues q = some v ∧ (v.state = 1 ∨ v.state = 2) := by
      unfold Stopped at hs
      push Not at hs
      obtain ⟨v, hv, h⟩ := hs
      exact ⟨v, hv, by omega⟩
    obtain ⟨rs, ha⟩ := abortQueue_running s q v hv hst
    rw [ha, cutDone, failsView_updQ, failsView_abortLayers, failsView_abortRecords, failsView_queueCut]

/-! ### Control pages -/

theorem failsView_unpark {s t : State} {q : Nat} {v : Queue} {w : Parked} (h : unpark s q v w = some t) : failsView t = failsView s := by
  unfold unpark at h
  split at h
  · split at h
    · obtain rfl := Option.some.inj h
      rw [endDesc_keeps failsView (fun _ _ => rfl), failsView_putRecord]
    · cases h
  · split at h
    · obtain rfl := Option.some.inj h
      exact failsView_putRecord _ _ _ _
    · cases h

theorem failsView_drainRing (s : State) (q k : Nat) : failsView (drainRing s q k) = failsView s := by
  induction k generalizing s with
  | zero => rfl
  | succ k ih =>
    unfold drainRing
    split
    · split
      · split
        next hu => rw [ih, failsView_unpark hu, failsView_updQ]
        · exact askSlot_keeps failsView (fun _ _ => rfl) _ _
      · rfl
    · rfl

theorem failsView_cplHeadWrite (s : State) (q w : Nat) : failsView (cplHeadWrite s q w) = failsView s := by
  unfold cplHeadWrite
  split
  · rfl
  · exact (failsView_drainRing _ _ _).trans (failsView_updQ _ _ _)

theorem failsView_pageWrite (s : State) (q reg w : Nat) : failsView (pageWrite s q reg w) = failsView s := by
  unfold pageWrite
  split
  · exact doorbellWrite_keeps failsView (fun _ _ => rfl) _ _ _
  split
  · exact failsView_updQ _ _ _
  split
  · exact failsView_updQ _ _ _
  split
  · split
    · exact releaseQueue_keeps failsView (fun _ _ => rfl) _ _
    split
    · exact discardQueue_keeps failsView (fun _ _ => rfl) _ _
    split
    · exact failsView_abortQueue _ _
    · rfl
  split
  · exact failsView_cplHeadWrite _ _ _
  split
  · exact irqWrite_keeps failsView (fun _ _ => rfl) _ _ _
  · rfl

theorem failsView_pageStoreWords (s : State) (line mask : Nat) (data : Bytes) (l : List Nat) :
    failsView (pageStoreWords s line mask data l) = failsView s := by
  induction l generalizing s with
  | nil => rfl
  | cons k l ih =>
    unfold pageStoreWords
    refine (ih _).trans ?_
    split
    · exact failsView_pageWrite _ _ _ _
    · split
      · exact failsView_pageWrite _ _ _ _
      · rfl

theorem failsView_localPut (s : State) (line mask : Nat) (data : Bytes) (poison : Bool) :
    failsView (localPut s line mask data poison) = failsView s := by
  unfold localPut
  split
  · exact failsView_writeLine _ _ _ _ _
  · exact failsView_writeLine _ _ _ _ _
  · exact failsView_pageStoreWords _ _ _ _ _
  · split
    · exact syncPut_keeps failsView (fun _ _ => rfl) _ _ _
    · rfl
  · exact countAddrError_keeps failsView (fun _ _ => rfl) _ _

/-! ### The host's accesses -/

theorem failsView_afterRead (s : State) (off n : Nat) : failsView (afterRead s off n) = failsView s :=
  afterRead_keeps failsView (fun _ _ => rfl) s off n

theorem failsView_track (s : State) (line : Nat) : failsView (track s line) = failsView s :=
  track_keeps failsView (fun _ _ => rfl) s line

theorem failsView_dpGet (s : State) (off first n : Nat) (ev : List LineEvent) : failsView (dpGet s off first n ev) = failsView s := by
  have hread : failsView (emit (afterRead (linesFound s [off] ev) (off / 256 * 256) 256)
      (.busData (((localGet (linesFound s [off] ev) off (off + first) n).bytes.drop first).take n)
        (localGet (linesFound s [off] ev) off (off + first) n).poison)) = failsView s :=
    (failsView_afterRead _ _ _).trans (failsView_linesFound _ _ _)
  unfold dpGet
  dsimp only
  split
  · exact hread
  · exact hread

theorem failsView_serveHost (s : State) (w : PortWait) : failsView (serveHost s w) = failsView s := by
  unfold serveHost
  split
  · split
    · exact failsView_localPut _ _ _ _ _
    · rfl
  · split
    · exact failsView_dpGet _ _ _ _ _
    · rfl
  · split
    · exact (failsView_track _ _).trans ((failsView_afterRead _ _ _).trans (failsView_linesFound _ _ _))
    · rfl
  · split
    · exact (failsView_track _ _).trans (failsView_writeLine _ _ _ _ _)
    · split <;> rfl
  · split
    · exact (failsView_afterRead _ _ _).trans (failsView_linesFound _ _ _)
    · rfl
  · split
    · exact failsView_writeBytes _ _ _ _
    · rfl

/-- The host's waiting accesses, served or parked again, fail no retraining. -/
theorem failsView_hostSettle (s : State) : failsView (hostSettle s) = failsView s := by
  unfold hostSettle
  refine (foldlState failsView _ (fun u w => ?_) s.host.waits _).trans rfl
  split
  · rfl
  · exact failsView_serveHost _ _

end Sys2Proof.Machine

/-!
Package heat, Dim periods and failed channels (O16).
-/

namespace Sys2Proof.Machine

/-! ### A channel changed -/

theorem chanOf_updChan_self (s : State) (i : Nat) (f : Chan → Chan) (h : i < s.chans.length) :
    chanOf (updChan s i f) i = f (chanOf s i) := (chanOf_updChan s i i f).trans (if_pos ⟨rfl, h⟩)

theorem chanOf_updChan_ne (s : State) (i j : Nat) (f : Chan → Chan) (h : j ≠ i) : chanOf (updChan s i f) j = chanOf s j :=
  (chanOf_updChan s i j f).trans (if_neg fun hc => h hc.1.symm)

theorem chanOf_congr {s t : State} (h : t.chans = s.chans) (i : Nat) : chanOf t i = chanOf s i := congrArg (·.getD i {}) h

/-- A channel that is not the default one is of the module. -/
theorem chan_exists (s : State) (i : Nat) (h : chanOf s i ≠ {}) : i < s.chans.length := by
  refine Nat.lt_of_not_le fun hle => h ?_
  simp [chanOf, List.getD, List.getElem?_eq_none hle]

theorem chan_exists_of {α : Type} (vw : Chan → α) (s : State) (i : Nat) (h : vw (chanOf s i) ≠ vw {}) : i < s.chans.length :=
  chan_exists s i (fun hc => h (congrArg vw hc))

/-! ### The state of a channel (Table MEM-5) -/

/-- A channel's throttled time noted, with what it is measured from. -/
def throttleNoted (s : State) (ch st : Nat) : State :=
  match (chanOf s ch).thrFrom with
  | some t =>
    updChan (objAdd s Obj.memThrottleMs ((s.now - t) / 1000000)) ch
      (fun c => { c with thrFrom := if st = 3 then some (t + ms ((s.now - t) / 1000000)) else none })
  | none => updChan s ch (fun c => { c with thrFrom := if st = 3 then some s.now else none })

theorem setChan_eq (s : State) (ch st : Nat) :
    setChan s ch st = settleMem (objPut (throttleNoted s ch st) (Obj.memChannelState + ch) st) := rfl

theorem sameObjs_settleMem (s : State) : SameObjs s (settleMem s) [Obj.memState] := by
  unfold settleMem
  dsimp only
  split
  · exact (SameObjs.refl s _).objPut _ _ List.mem_cons_self
  · split
    · exact SameObjs.refl _ _
    · exact (SameObjs.refl s _).objPut _ _ List.mem_cons_self

theorem sameObjs_throttleNoted (s : State) (ch st : Nat) : SameObjs s (throttleNoted s ch st) [Obj.memThrottleMs] := by
  unfold throttleNoted
  split
  · exact ((SameObjs.refl s _).objAdd _ _ List.mem_cons_self).of_dic rfl
  · exact (SameObjs.refl s _).of_dic rfl

/-- The objects that a change of a channel's state may change. -/
def chanObjs (ch : Nat) : List Nat := [Obj.memThrottleMs, Obj.memState, Obj.memChannelState + ch]

theorem sameObjs_setChan (s : State) (ch st : Nat) : SameObjs s (setChan s ch st) (chanObjs ch) := by
  rw [setChan_eq]
  refine SameObjs.trans (SameObjs.objPut ((sameObjs_throttleNoted s ch st).mono ?_) _ _ ?_) ((sameObjs_settleMem _).mono ?_)
  · simp [chanObjs]
  · simp [chanObjs]
  · simp [chanObjs]

theorem chanState_ne (ch : Nat) : Obj.memChannelState + ch ∉ [Obj.memState] := by
  simp only [List.mem_singleton, Obj.memChannelState, Obj.memState]
  omega

theorem chanState_setChan_self (s : State) (ch st : Nat) : chanState (setChan s ch st) ch = st := by
  rw [setChan_eq, chanState, sameObjs_settleMem _ _ (chanState_ne ch), objGet_objPut_self]

theorem chanState_setChan_ne (s : State) (ch st j : Nat) (h : j ≠ ch) (hj : j < 64) : chanState (setChan s ch st) j = chanState s j := by
  refine sameObjs_setChan s ch st _ ?_
  simp only [chanObjs, List.mem_cons, List.not_mem_nil, or_false, Obj.memChannelState, Obj.memState, Obj.memThrottleMs]
  omega

theorem settleMem_chans (s : State) : (settleMem s).chans = s.chans := settleMem_keeps State.chans (fun _ _ => rfl) s

theorem setChan_chans (s : State) (ch st : Nat) : (setChan s ch st).chans = (throttleNoted s ch st).chans := by
  rw [setChan_eq, settleMem_chans]
  rfl

theorem chanOf_setChan_ne (s : State) (ch st j : Nat) (h : j ≠ ch) : chanOf (setChan s ch st) j = chanOf s j := by
  rw [chanOf_congr (setChan_chans s ch st)]
  unfold throttleNoted
  split
  · rw [chanOf_updChan_ne _ _ _ _ h]
    rfl
  · exact chanOf_updChan_ne _ _ _ _ h

/-- The state of a channel leaves it as it is, but for its throttled time. -/
theorem chanOf_setChan_self {α : Type} (vw : Chan → α) (hg : ∀ c x, vw { c with thrFrom := x } = vw c) (s : State) (ch st : Nat) :
    vw (chanOf (setChan s ch st) ch) = vw (chanOf s ch) := by
  rw [chanOf_congr (setChan_chans s ch st)]
  unfold throttleNoted
  split
  · rw [chanOf_updChan]
    split
    · exact hg _ _
    · rfl
  · rw [chanOf_updChan]
    split
    · exact hg _ _
    · rfl

theorem setChan_frame (s : State) (ch st : Nat) :
    setChan s ch st = { s with dic := (setChan s ch st).dic, chans := (setChan s ch st).chans } :=
  setChan_keeps (footDicChans · (setChan s ch st)) (fun _ _ => rfl) s ch st

/-! ### Package temperature (R174) -/

/-- A channel that has its package's reading, before its state. -/
def chanHeat (t : Int) (now : Nat) (c : Chan) : Chan :=
  if 105 < t then { c with hotSince := some (c.hotSince.getD now) } else { c with hotSince := none, hotTold := false }

theorem chanTemp_eq (t : Int) (s : State) (ch : Nat) : chanTemp t s ch =
    if chanUp s ch && (chanOf (updChan s ch (chanHeat t s.now)) ch).dim.isNone then
      setChan (updChan s ch (chanHeat t s.now)) ch (restState s ch) else updChan s ch (chanHeat t s.now) := rfl

theorem chanHeat_dim (t : Int) (now : Nat) (c : Chan) : (chanHeat t now c).dim = c.dim := by
  unfold chanHeat
  split <;> rfl

theorem chanOf_chanTemp_ne (t : Int) (s : State) (ch j : Nat) (h : j ≠ ch) : chanOf (chanTemp t s ch) j = chanOf s j := by
  rw [chanTemp_eq]
  split
  · rw [chanOf_setChan_ne _ _ _ _ h, chanOf_updChan_ne _ _ _ _ h]
  · exact chanOf_updChan_ne _ _ _ _ h

theorem chanState_chanTemp_ne (t : Int) (s : State) (ch j : Nat) (h : j ≠ ch) (hj : j < 64) :
    chanState (chanTemp t s ch) j = chanState s j := by
  rw [chanTemp_eq]
  split
  · exact (chanState_setChan_ne _ _ _ _ h hj).trans rfl
  · rfl

theorem hotSince_chanTemp (t : Int) (s : State) (ch : Nat) (hl : ch < s.chans.length) :
    (chanOf (chanTemp t s ch) ch).hotSince = (chanHeat t s.now (chanOf s ch)).hotSince := by
  have hu : chanOf (updChan s ch (chanHeat t s.now)) ch = chanHeat t s.now (chanOf s ch) := chanOf_updChan_self _ _ _ hl
  rw [chanTemp_eq]
  split
  · rw [chanOf_setChan_self Chan.hotSince (fun _ _ => rfl), hu]
  · rw [hu]

theorem chanState_chanTemp (t : Int) (s : State) (ch : Nat) (hl : ch < s.chans.length) (hu : chanUp s ch = true)
    (hd : (chanOf s ch).dim = none) : chanState (chanTemp t s ch) ch = restState s ch := by
  rw [chanTemp_eq, chanOf_updChan_self _ _ _ hl, chanHeat_dim, hd, hu]
  exact chanState_setChan_self _ _ _

theorem chanTemp_keeps' {γ : Type} (vw : State → γ) (hg : ∀ s t, vw (footDicChans s t) = vw s) (t : Int) (s : State) (ch : Nat) :
    vw (chanTemp t s ch) = vw s := by
  have hu : vw (updChan s ch (chanHeat t s.now)) = vw s := view_of_foot vw hg rfl
  rw [chanTemp_eq]
  split
  · rw [setChan_keeps vw hg, hu]
  · exact hu

theorem sameObjs_chanTemp (t : Int) (s : State) (ch : Nat) : SameObjs s (chanTemp t s ch) (chanObjs ch) := by
  have hu : SameObjs s (updChan s ch (chanHeat t s.now)) (chanObjs ch) := (SameObjs.refl s _).of_dic rfl
  rw [chanTemp_eq]
  split
  · exact hu.trans (sameObjs_setChan _ _ _)
  · exact hu

theorem chanTemps_keeps {γ : Type} (vw : State → γ) (hg : ∀ s t, vw (footDicChans s t) = vw s) (t : Int) (l : List Nat) (s : State) :
    vw (l.foldl (chanTemp t) s) = vw s := foldlState vw _ (chanTemp_keeps' vw hg t) l s

theorem chanTemps_other (t : Int) (l : List Nat) (s : State) (ch : Nat) (h : ch ∉ l) (hj : ch < 64) :
    chanOf (l.foldl (chanTemp t) s) ch = chanOf s ch ∧ chanState (l.foldl (chanTemp t) s) ch = chanState s ch := by
  induction l generalizing s with
  | nil => exact ⟨rfl, rfl⟩
  | cons a l ih =>
    obtain ⟨hne, hl⟩ := not_or.mp (mt List.mem_cons.mpr h)
    obtain ⟨h1, h2⟩ := ih (chanTemp t s a) hl
    exact ⟨h1.trans (chanOf_chanTemp_ne t s a ch hne), h2.trans (chanState_chanTemp_ne t s a ch hne hj)⟩

theorem length_chans_chanTemp (t : Int) (s : State) (ch : Nat) : (chanTemp t s ch).chans.length = s.chans.length := by
  have hu : (updChan s ch (chanHeat t s.now)).chans.length = s.chans.length := by simp [updChan, modifyAt]
  rw [chanTemp_eq]
  split
  · rw [setChan_chans]
    unfold throttleNoted
    split
    · exact (by simp [updChan, modifyAt] : _ = (updChan s ch (chanHeat t s.now)).chans.length).trans hu
    · exact (by simp [updChan, modifyAt] : _ = (updChan s ch (chanHeat t s.now)).chans.length).trans hu
  · exact hu

/-- Each of the channels read takes its package's reading, and its state where it serves. -/
theorem chanTemps_self (t : Int) (l : List Nat) (hn : l.Nodup) (s : State) (ch : Nat) (h : ch ∈ l) (hj : ch < 64)
    (hl : ch < s.chans.length) :
    (chanOf (l.foldl (chanTemp t) s) ch).hotSince = (chanHeat t s.now (chanOf s ch)).hotSince
      ∧ (chanUp s ch = true → (chanOf s ch).dim = none → chanState (l.foldl (chanTemp t) s) ch = restState s ch) := by
  induction l generalizing s with
  | nil => cases h
  | cons a l ih =>
    obtain ⟨ha, hn'⟩ := List.nodup_cons.mp hn
    rw [List.foldl_cons]
    by_cases hca : ch = a
    · subst hca
      obtain ⟨h1, h2⟩ := chanTemps_other t l (chanTemp t s ch) ch ha hj
      rw [h1, h2]
      exact ⟨hotSince_chanTemp t s ch hl, fun hu hd => chanState_chanTemp t s ch hl hu hd⟩
    · have hcl : ch ∈ l := (List.mem_cons.mp h).resolve_left hca
      obtain ⟨h1, h2⟩ := ih hn' (chanTemp t s a) hcl (by rw [length_chans_chanTemp]; exact hl)
      have hchan := chanOf_chanTemp_ne t s a ch hca
      have hst := chanState_chanTemp_ne t s a ch hca hj
      have hnow : (chanTemp t s a).now = s.now := chanTemp_keeps' State.now (fun _ _ => rfl) t s a
      have hrest : restState (chanTemp t s a) ch = restState s ch := chanTemp_keeps' (restState · ch) (fun _ _ => rfl) t s a
      unfold chanUp at *
      rw [hchan, hnow] at h1
      rw [hchan, hst, hrest] at h2
      exact ⟨h1, h2⟩

/-- The four channels of a package. -/
def pkgChans (pkg : Nat) : List Nat := (List.range 4).map (fun i => 4 * pkg + i)

theorem mem_pkgChans {pkg ch : Nat} : ch ∈ pkgChans pkg ↔ ∃ i, i < 4 ∧ 4 * pkg + i = ch := by
  simp [pkgChans]

theorem pkgChans_nodup (pkg : Nat) : (pkgChans pkg).Nodup := by
  refine (List.nodup_map_iff (fun a b h => ?_)).mpr List.nodup_range
  have h' : 4 * pkg + a = 4 * pkg + b := h
  omega

/-- A package's reading noted, before its channels take it. -/
def tempNoted (s : State) (pkg : Nat) (t : Int) : State :=
  { objPut s (Obj.memPackageTemp + pkg) (codeOf 32 t) with pkgs := s.pkgs.set pkg (refreshNext (s.pkgs.getD pkg 0) t) }

theorem packageTemp_eq (s : State) (pkg : Nat) (t : Int) :
    packageTemp s pkg t = (pkgChans pkg).foldl (chanTemp t) (tempNoted s pkg t) := rfl

/-- The objects that a package's reading may change. -/
def tempObjs (pkg : Nat) : List Nat := [Obj.memPackageTemp + pkg, Obj.memThrottleMs, Obj.memState] ++
  (List.range 4).map (fun k => Obj.memChannelState + (4 * pkg + k))

theorem sameObjs_packageTemp (s : State) (pkg : Nat) (t : Int) : SameObjs s (packageTemp s pkg t) (tempObjs pkg) := by
  have h1 : SameObjs s (tempNoted s pkg t) (tempObjs pkg) :=
    ((SameObjs.refl s _).objPut _ _ (by simp [tempObjs])).of_dic rfl
  have hstep (u : State) (ch : Nat) (hc : ch ∈ pkgChans pkg) : SameObjs u (chanTemp t u ch) (tempObjs pkg) := by
    refine (sameObjs_chanTemp t u ch).mono ?_
    obtain ⟨i, hi, rfl⟩ := mem_pkgChans.mp hc
    intro x hx
    simp only [chanObjs, List.mem_cons, List.not_mem_nil, or_false] at hx
    simp only [tempObjs, List.mem_append, List.mem_cons, List.not_mem_nil, or_false, List.mem_map, List.mem_range]
    rcases hx with rfl | rfl | rfl
    · exact .inl (.inr (.inl rfl))
    · exact .inl (.inr (.inr rfl))
    · exact .inr ⟨i, hi, rfl⟩
  have hfold (l : List Nat) (hl : ∀ ch ∈ l, ch ∈ pkgChans pkg) (u : State) (hu : SameObjs s u (tempObjs pkg)) :
      SameObjs s (l.foldl (chanTemp t) u) (tempObjs pkg) := by
    induction l generalizing u with
    | nil => exact hu
    | cons a l ih =>
      exact ih (fun ch hc => hl ch (List.mem_cons_of_mem _ hc)) _ (hu.trans (hstep u a (hl a List.mem_cons_self)))
  rw [packageTemp_eq]
  exact hfold _ (fun _ h => h) _ h1

theorem objGet_packageTemp (s : State) (pkg : Nat) (t : Int) (hp : pkg < 16) :
    objGet (packageTemp s pkg t) (Obj.memPackageTemp + pkg) = codeOf 32 t := by
  have hstep (u : State) (ch : Nat) (hc : ch < 64) :
      objGet (chanTemp t u ch) (Obj.memPackageTemp + pkg) = objGet u (Obj.memPackageTemp + pkg) := by
    refine sameObjs_chanTemp t u ch _ ?_
    simp only [chanObjs, List.mem_cons, List.not_mem_nil, or_false, Obj.memPackageTemp, Obj.memThrottleMs, Obj.memState,
      Obj.memChannelState]
    omega
  have hfold (l : List Nat) (hl : ∀ ch ∈ l, ch < 64) (u : State) :
      objGet (l.foldl (chanTemp t) u) (Obj.memPackageTemp + pkg) = objGet u (Obj.memPackageTemp + pkg) := by
    induction l generalizing u with
    | nil => rfl
    | cons a l ih =>
      exact (ih (fun ch hc => hl ch (List.mem_cons_of_mem _ hc)) _).trans (hstep u a (hl a List.mem_cons_self))
  rw [packageTemp_eq, hfold _ (fun ch hc => by
    obtain ⟨i, hi, rfl⟩ := mem_pkgChans.mp hc
    omega)]
  exact objGet_objPut_self _ _ _

def footHeat (s t : State) : State := { s with dic := t.dic, chans := t.chans, pkgs := t.pkgs }

theorem footHeat_self (s : State) : footHeat s s = s := rfl

theorem packageTemp_frame (s : State) (pkg : Nat) (t : Int) : packageTemp s pkg t = footHeat s (packageTemp s pkg t) := by
  have h := chanTemps_keeps (footHeat · (packageTemp s pkg t)) (fun _ _ => rfl) t (pkgChans pkg) (tempNoted s pkg t)
  rw [← packageTemp_eq] at h
  exact (footHeat_self _).symm.trans (h.trans rfl)

theorem packageTemp_pkgs (s : State) (pkg : Nat) (t : Int) :
    (packageTemp s pkg t).pkgs = s.pkgs.set pkg (refreshNext (s.pkgs.getD pkg 0) t) := by
  rw [packageTemp_eq]
  exact chanTemps_keeps State.pkgs (fun _ _ => rfl) t _ _

theorem packageTempRead_holds (pkg i : Nat) (c : Int) (s : State) (hp : pkg < 16) (hparts : PartsOk s) (hi : i < 4) :
    ∃ t, exec (.packageTempRead pkg c) s = .next t ∧ t = { s with dic := t.dic, chans := t.chans, pkgs := t.pkgs }
      ∧ objGet t (Obj.memPackageTemp + pkg) = codeOf 32 c
      ∧ t.pkgs.getD pkg 0 = refreshNext (s.pkgs.getD pkg 0) c ∧ (∀ k, k ≠ pkg → t.pkgs.getD k 0 = s.pkgs.getD k 0)
      ∧ (chanUp s (4 * pkg + i) = true → (chanOf s (4 * pkg + i)).dim = none →
          chanState t (4 * pkg + i) = (if refreshNext (s.pkgs.getD pkg 0) c = 3 then 3 else 0))
      ∧ (105 < c → (chanOf t (4 * pkg + i)).hotSince = some ((chanOf s (4 * pkg + i)).hotSince.getD s.now))
      ∧ (c ≤ 105 → (chanOf t (4 * pkg + i)).hotSince = none)
      ∧ SameObjs s t ([Obj.memPackageTemp + pkg, Obj.memThrottleMs, Obj.memState] ++
          (List.range 4).map (fun k => Obj.memChannelState + (4 * pkg + k))) := by
  obtain ⟨-, -, -, -, hchans, hpkgs, -⟩ := hparts
  have hlen : pkg < s.pkgs.length := by omega
  have hmem : 4 * pkg + i ∈ pkgChans pkg := mem_pkgChans.mpr ⟨i, hi, rfl⟩
  obtain ⟨hhot, hstate⟩ := chanTemps_self c (pkgChans pkg) (pkgChans_nodup pkg) (tempNoted s pkg c) (4 * pkg + i) hmem (by omega)
    (by show 4 * pkg + i < s.chans.length; omega)
  rw [← packageTemp_eq] at hhot hstate
  have hup : chanUp (tempNoted s pkg c) (4 * pkg + i) = chanUp s (4 * pkg + i) := by
    have hget : chanState (tempNoted s pkg c) (4 * pkg + i) = chanState s (4 * pkg + i) := by
      refine (objGet_objPut_ne s (Obj.memPackageTemp + pkg) _ _ ?_).trans rfl
      simp only [Obj.memPackageTemp, Obj.memChannelState]
      omega
    rw [chanUp, chanUp, hget]
  have hrest : restState (tempNoted s pkg c) (4 * pkg + i) = if refreshNext (s.pkgs.getD pkg 0) c = 3 then 3 else 0 := by
    have hpkg : pkgOf (4 * pkg + i) = pkg := by
      rw [pkgOf]
      omega
    rw [restState, hpkg]
    simp [tempNoted, List.getD, hlen]
  refine ⟨_, need_lt hp _, packageTemp_frame s pkg c, objGet_packageTemp s pkg c hp, ?_, fun k hk => ?_, fun hu hd => ?_, fun hc => ?_,
    fun hc => ?_, sameObjs_packageTemp s pkg c⟩
  · rw [packageTemp_pkgs]
    simp [List.getD, hlen]
  · rw [packageTemp_pkgs]
    simp [List.getD, List.getElem?_set_ne (Ne.symm hk)]
  · exact (hstate (hup.trans hu) hd).trans hrest
  · rw [hhot, chanHeat, if_pos hc]
    rfl
  · rw [hhot, chanHeat, if_neg (by omega)]

/-! ### CHANNEL_OVERTEMP (R174) -/

/-- A channel above 105 °C, told. -/
def overtempTold (s : State) (ch : Nat) : State :=
  journalAlert (updChan s ch (fun c => { c with hotTold := true })) .channelHot [ch, objGet s (Obj.memPackageTemp + pkgOf ch)]

theorem overtemp_due (s : State) (ch t0 : Nat) (hh : (chanOf s ch).hotSince = some t0) (hd : t0 + ms 100 ≤ s.now)
    (ht : (chanOf s ch).hotTold = false) : overtemp s ch = overtempTold s ch := by
  unfold overtemp
  rw [hh]
  exact if_neg (by rw [ht]; simp; omega)

def footHotTold (s t : State) : State := { s with dic := t.dic, chans := t.chans, obs := t.obs }

theorem footHotTold_self (s : State) : footHotTold s s = s := rfl

theorem overtempTold_frame (s : State) (ch : Nat) : overtempTold s ch = footHotTold s (overtempTold s ch) :=
  (footHotTold_self _).symm.trans ((journalAlert_keeps (footHotTold · (overtempTold s ch)) (fun _ _ => rfl) _ _ _).trans rfl)

theorem overtempTold_chans (s : State) (ch : Nat) :
    (overtempTold s ch).chans = (updChan s ch (fun c => { c with hotTold := true })).chans :=
  journalAlert_keeps State.chans (fun _ _ => rfl) _ _ _

theorem counted_overtempTold (s : State) (ch : Nat) : Counted s (overtempTold s ch) Obj.alertPending 1 :=
  objGet_journalAlert_pending _ _ _

theorem channelOvertemp_told (ch t0 : Nat) (s : State) (hch : ch < 64) (hh : (chanOf s ch).hotSince = some t0)
    (hd : t0 + ms 100 ≤ s.now) (ht : (chanOf s ch).hotTold = false) :
    ∃ t, exec (.channelOvertemp ch) s = .next t ∧ t = { s with dic := t.dic, chans := t.chans, obs := t.obs }
      ∧ chanOf t ch = { chanOf s ch with hotTold := true } ∧ (∀ k, k ≠ ch → chanOf t k = chanOf s k)
      ∧ Counted s t Obj.alertPending 1 ∧ SameObjs s t alertObjs
      ∧ Logged s t .channelHot [ch, objGet s (Obj.memPackageTemp + pkgOf ch)] true := by
  have hl : ch < s.chans.length := chan_exists_of Chan.hotSince s ch (by rw [hh]; exact nofun)
  refine ⟨_, (need_lt hch _).trans (congrArg Host.Outcome.next (overtemp_due s ch t0 hh hd ht)), overtempTold_frame s ch, ?_,
    fun k hk => ?_, counted_overtempTold s ch,
    SameObjs.journalAlert ((SameObjs.refl s alertObjs).of_dic (u := updChan s ch _) rfl) _ _ (List.Subset.refl _),
    (logged_journalAlert _ _ _).of_view rfl⟩
  · rw [chanOf_congr (overtempTold_chans s ch), chanOf_updChan_self _ _ _ hl]
  · rw [chanOf_congr (overtempTold_chans s ch), chanOf_updChan_ne _ _ _ _ hk]

/-! ### Dim periods begin (R176, R177) -/

/-- A channel's event begins, before the channel's state follows. -/
def dimBegun (s : State) (ch : Nat) (e : DimEvent) : State :=
  objInc (updChan (objAdd s Obj.memDimStalledRequests
    ((chanOf s ch).readQ.length + (chanOf s ch).readWait.length + (chanOf s ch).writeQ.length)) ch
    (fun c => { c with dim := some (e, s.now), due := c.due.erase e })) Obj.memDimEvents

theorem startDim_eq (s : State) (ch : Nat) (e : DimEvent) : startDim s ch e = setChan (dimBegun s ch e) ch (dimState e) := rfl

theorem sameObjs_dimBegun (s : State) (ch : Nat) (e : DimEvent) :
    SameObjs s (dimBegun s ch e) [Obj.memDimEvents, Obj.memDimStalledRequests] :=
  ((((SameObjs.refl s _).objAdd Obj.memDimStalledRequests _ (by decide)).of_dic (u := updChan (objAdd s _ _) ch _) rfl).objInc
    Obj.memDimEvents (by decide))

theorem counted_dimBegun (s : State) (ch : Nat) (e : DimEvent) : Counted s (dimBegun s ch e) Obj.memDimEvents 1
    ∧ Counted s (dimBegun s ch e) Obj.memDimStalledRequests
      ((chanOf s ch).readQ.length + (chanOf s ch).readWait.length + (chanOf s ch).writeQ.length) := by
  have hadd (n : Nat) (f : Chan → Chan) (k : Nat) :
      objGet (updChan (objAdd s Obj.memDimStalledRequests n) ch f) k = objGet (objAdd s Obj.memDimStalledRequests n) k := rfl
  refine ⟨?_, ?_⟩
  · rw [Counted, dimBegun, objInc, objAdd, objGet_objPut_self, hadd, objAdd, objGet_objPut_ne _ _ _ _ (by decide)]
  · rw [Counted, dimBegun, objInc, objAdd, objGet_objPut_ne _ _ _ _ (by decide), hadd, objAdd, objGet_objPut_self]

theorem notMem_chanObjs {k ch : Nat} (h1 : k ≠ Obj.memThrottleMs) (h2 : k ≠ Obj.memState)
    (h3 : k < Obj.memChannelState ∨ Obj.memChannelState + 64 ≤ k) (hch : ch < 64) : k ∉ chanObjs ch := by
  simp only [chanObjs, List.mem_cons, List.not_mem_nil, or_false, not_or]
  exact ⟨h1, h2, by omega⟩

/-- A Dim period that begins on a channel of the module. -/
theorem startDim_holds (s : State) (ch : Nat) (e : DimEvent) (hch : ch < 64) (hl : ch < s.chans.length) :
    startDim s ch e = { s with dic := (startDim s ch e).dic, chans := (startDim s ch e).chans }
      ∧ (chanOf (startDim s ch e) ch).dim = some (e, s.now) ∧ chanState (startDim s ch e) ch = dimState e
      ∧ (∀ k, k ≠ ch → chanOf (startDim s ch e) k = chanOf s k) ∧ Counted s (startDim s ch e) Obj.memDimEvents 1
      ∧ Counted s (startDim s ch e) Obj.memDimStalledRequests
          ((chanOf s ch).readQ.length + (chanOf s ch).readWait.length + (chanOf s ch).writeQ.length)
      ∧ SameObjs s (startDim s ch e)
          [Obj.memDimEvents, Obj.memDimStalledRequests, Obj.memThrottleMs, Obj.memState, Obj.memChannelState + ch] := by
  obtain ⟨hc1, hc2⟩ := counted_dimBegun s ch e
  have hsame := sameObjs_setChan (dimBegun s ch e) ch (dimState e)
  have hchan : chanOf (dimBegun s ch e) ch = { chanOf s ch with dim := some (e, s.now), due := (chanOf s ch).due.erase e } :=
    chanOf_updChan_self (objAdd s Obj.memDimStalledRequests _) ch _ hl
  rw [startDim_eq]
  refine ⟨?_, ?_, chanState_setChan_self _ _ _, fun k hk => ?_, ?_, ?_, ?_⟩
  · exact (setChan_frame (dimBegun s ch e) ch (dimState e)).trans rfl
  · rw [chanOf_setChan_self Chan.dim (fun _ _ => rfl), hchan]
  · rw [chanOf_setChan_ne _ _ _ _ hk]
    exact chanOf_updChan_ne (objAdd s Obj.memDimStalledRequests _) ch k _ hk
  · rw [Counted, hsame _ (notMem_chanObjs (by decide) (by decide) (by decide) hch)]
    exact hc1
  · rw [Counted, hsame _ (notMem_chanObjs (by decide) (by decide) (by decide) hch)]
    exact hc2
  · exact ((sameObjs_dimBegun s ch e).mono (by simp)).trans (hsame.mono (by simp [chanObjs]))

theorem fallDue_allowed (s : State) (ch : Nat) (e : DimEvent) (h : dimAllowed s ch = true) : fallDue s ch e = startDim s ch e := by
  have hup : chanUp s ch = true := by
    simp only [dimAllowed, Bool.and_eq_true] at h
    exact h.1.1.1
  unfold fallDue
  rw [hup, h]
  rfl

theorem fallDue_waits (s : State) (ch : Nat) (e : DimEvent) (hu : chanUp s ch = true) (h : dimAllowed s ch = false)
    (hd : (chanOf s ch).due.contains e = false) (he : (chanOf s ch).dim.map Prod.fst ≠ some e) (hl : ch < s.chans.length) :
    (fallDue s ch e = { s with chans := (fallDue s ch e).chans })
      ∧ chanOf (fallDue s ch e) ch = { chanOf s ch with due := (chanOf s ch).due ++ [e] }
      ∧ (∀ k, k ≠ ch → chanOf (fallDue s ch e) k = chanOf s k) := by
  have hf : fallDue s ch e = updChan s ch (fun c =>
      if c.due.contains e || c.dim.map Prod.fst == some e then c else { c with due := c.due ++ [e] }) := by
    unfold fallDue
    rw [hu, h]
    rfl
  rw [hf]
  refine ⟨rfl, ?_, fun k hk => chanOf_updChan_ne _ _ _ _ hk⟩
  rw [chanOf_updChan_self _ _ _ hl, hd]
  exact if_neg (by simpa using he)

/-- The commands that make an event fall due. -/
def DimDue (c : Instr) (e : DimEvent) (s : State) (ch : Nat) : Prop :=
  c = .retrainStart ch ∧ e = .retrain ∧ retrainDue s ch = true
    ∨ (∃ b r, c = .softRepairStart ch b r ∧ e = .repair b r ∧ repairDue s ch b r = true)

theorem exec_dimDue {c : Instr} {e : DimEvent} {s : State} {ch : Nat} (hch : ch < 64) (h : DimDue c e s ch) :
    exec c s = .next (fallDue s ch e) := by
  rcases h with ⟨rfl, rfl, hd⟩ | ⟨b, r, rfl, rfl, hd⟩
  · exact (need_lt hch _).trans (congrArg Host.Outcome.next (if_pos hd))
  · exact (need_lt hch _).trans (congrArg Host.Outcome.next (if_pos hd))

theorem exec_dimDeferred {e : DimEvent} {r : List DimEvent} {s : State} {ch : Nat} (hch : ch < 64) (hd : (chanOf s ch).due = e :: r)
    (ha : dimAllowed s ch = true) : exec (.dimDeferredStart ch) s = .next (startDim s ch e) := by
  refine (need_lt hch _).trans (congrArg Host.Outcome.next ?_)
  rw [hd]
  exact if_pos ha

/-! ### Dim periods end (R176, R178) -/

/-- A channel out of its Dim period, before its state follows. -/
def dimEnded (s : State) (ch since : Nat) : State :=
  updChan (objMax s Obj.memDimLongestUs ((s.now - since) / 1000)) ch
    (fun c => { c with dim := none, lastDim := some s.now, stalledBy := [] })

/-- A channel out of its Dim period, with its state. -/
def dimLeft (s : State) (ch since : Nat) : State := setChan (dimEnded s ch since) ch (restState s ch)

theorem leaveDim_eq (s : State) (ch since : Nat) : leaveDim s ch since = hostSettle (dimLeft s ch since) := rfl

theorem dimLeft_keeps {γ : Type} (vw : State → γ) (hg : ∀ s t, vw (footDicChans s t) = vw s) (s : State) (ch since : Nat) :
    vw (dimLeft s ch since) = vw s := (setChan_keeps vw hg _ _ _).trans (view_of_foot vw hg rfl)

theorem leaveDim_nobody (s : State) (ch since : Nat) (h : s.host.waits = []) : leaveDim s ch since = dimLeft s ch since := by
  rw [leaveDim_eq, hostSettle_empty]
  rw [dimLeft_keeps State.host (fun _ _ => rfl), h]

/-- What a channel out of Dim holds, whatever else it is. -/
theorem chanOf_dimLeft {α : Type} (vw : Chan → α) (hg : ∀ c x, vw { c with thrFrom := x } = vw c) (s : State) (ch since : Nat)
    (hl : ch < s.chans.length) :
    vw (chanOf (dimLeft s ch since) ch) = vw { chanOf s ch with dim := none, lastDim := some s.now, stalledBy := [] } := by
  have hchan : chanOf (dimEnded s ch since) ch = { chanOf s ch with dim := none, lastDim := some s.now, stalledBy := [] } :=
    chanOf_updChan_self (objMax s Obj.memDimLongestUs _) ch _ hl
  rw [dimLeft, chanOf_setChan_self vw hg, hchan]

theorem sameObjs_dimLeft (s : State) (ch since : Nat) : SameObjs s (dimLeft s ch since) (Obj.memDimLongestUs :: chanObjs ch) := by
  have hmax : SameObjs s (dimEnded s ch since) (Obj.memDimLongestUs :: chanObjs ch) :=
    ((SameObjs.refl s _).objMax _ _ List.mem_cons_self).of_dic rfl
  exact hmax.trans ((sameObjs_setChan _ _ _).mono (List.subset_cons_self _ _))

theorem objGet_dimLeft_longest (s : State) (ch since : Nat) (hch : ch < 64) : objGet (dimLeft s ch since) Obj.memDimLongestUs
    = max (objGet s Obj.memDimLongestUs) ((s.now - since) / 1000) := by
  rw [dimLeft, sameObjs_setChan _ _ _ _ (notMem_chanObjs (by decide) (by decide) (by decide) hch)]
  exact objGet_objPut_self _ _ _

theorem chanState_dimLeft (s : State) (ch since : Nat) :
    chanState (dimLeft s ch since) ch = (if s.pkgs.getD (pkgOf ch) 0 = 3 then 3 else 0) := chanState_setChan_self _ _ _

/-- A retraining over, in its channel. -/
def trained (now : Nat) (temp : Int) (ok : Bool) (c : Chan) : Chan :=
  { c with lastTrain := now, trainTemp := temp, corrTimes := [], trainFails := if ok then 0 else c.trainFails + 1 }

/-- A retraining over, its channel back. -/
def chanTrained (s u : State) (ch : Nat) (ok : Bool) : State :=
  updChan u ch (trained s.now (signedOf 32 (objGet s (Obj.memPackageTemp + pkgOf ch))) ok)

theorem endRetrain_eq (s : State) (ch t0 : Nat) (ok : Bool) (hd : (chanOf s ch).dim = some (.retrain, t0)) :
    endRetrain s ch ok = if (chanOf (chanTrained s (leaveDim (islandReset s (.channel ch)) ch t0) ch ok) ch).trainFails < 2
      then chanTrained s (leaveDim (islandReset s (.channel ch)) ch t0) ch ok
      else failChannel (chanTrained s (leaveDim (islandReset s (.channel ch)) ch t0) ch ok) ch := by
  unfold endRetrain
  rw [hd]
  rfl

def footRetrain (s t : State) : State := { s with dic := t.dic, chans := t.chans, wires := t.wires }

theorem footRetrain_self (s : State) : footRetrain s s = s := rfl

theorem dim_exists (s : State) (ch : Nat) {x : DimEvent × Nat} (h : (chanOf s ch).dim = some x) : ch < s.chans.length :=
  chan_exists_of Chan.dim s ch (by rw [h]; exact nofun)

theorem length_chans_setChan (s : State) (ch st : Nat) : (setChan s ch st).chans.length = s.chans.length := by
  rw [setChan_chans]
  unfold throttleNoted
  split
  · simp [updChan, modifyAt]
  · simp [updChan, modifyAt]

theorem length_chans_dimLeft (s : State) (ch since : Nat) : (dimLeft s ch since).chans.length = s.chans.length := by
  rw [dimLeft, length_chans_setChan]
  simp [dimEnded, updChan, modifyAt]

theorem islandReset_chans (s : State) (i : Island) : (islandReset s i).chans = s.chans := islandReset_keeps State.chans (fun _ _ => rfl) s i

theorem retrainEnd_holds (ch t0 : Nat) (ok : Bool) (s : State) (hch : ch < 64) (hd : (chanOf s ch).dim = some (.retrain, t0))
    (hok : ok = true ∨ (chanOf s ch).trainFails = 0) (hw : s.host.waits = []) :
    ∃ t, exec (.retrainEnd ch ok) s = .next t ∧ t = { s with dic := t.dic, chans := t.chans, wires := smErase s.wires (16 + ch) }
      ∧ (chanOf t ch).dim = none
      ∧ (chanOf t ch).lastTrain = s.now ∧ (chanOf t ch).lastDim = some s.now
      ∧ (chanOf t ch).trainFails = (if ok then 0 else 1) ∧ chanState t ch = (if s.pkgs.getD (pkgOf ch) 0 = 3 then 3 else 0)
      ∧ (islandObjs s (.channel ch) = [] →
          objGet t Obj.memDimLongestUs = max (objGet s Obj.memDimLongestUs) ((s.now - t0) / 1000))
      ∧ SameObjs s t ([Obj.memDimLongestUs, Obj.memThrottleMs, Obj.memState, Obj.memChannelState + ch]
          ++ islandObjs s (.channel ch)) := by
  have hl := dim_exists s ch hd
  have hireset := islandReset_frame s (.channel ch)
  have hobjs := sameObjs_islandReset s (.channel ch)
  have hexec : exec (.retrainEnd ch ok) s = .next (endRetrain s ch ok) := need_lt hch _
  rw [endRetrain_eq s ch t0 ok hd] at hexec
  have hlu : ch < (islandReset s (.channel ch)).chans.length := by rw [islandReset_chans]; exact hl
  have hchanu : chanOf (islandReset s (.channel ch)) ch = chanOf s ch := chanOf_congr (islandReset_chans _ _) ch
  have hhost : (islandReset s (.channel ch)).host.waits = [] := by rw [hireset]; exact hw
  have hnow : (islandReset s (.channel ch)).now = s.now := by rw [hireset]
  have hpkgs : (islandReset s (.channel ch)).pkgs = s.pkgs := by rw [hireset]
  have hwires : (islandReset s (.channel ch)).wires = smErase s.wires (16 + ch) := islandReset_wires s (.channel ch)
  have hfoot (v : State) : footRetrain (islandReset s (.channel ch)) v = footRetrain s v :=
    islandReset_keeps (footRetrain · v) (fun _ _ => rfl) s (.channel ch)
  generalize islandReset s (.channel ch) = u at *
  rw [leaveDim_nobody u ch t0 hhost] at hexec
  have hchan : chanOf (chanTrained s (dimLeft u ch t0) ch ok) ch
      = trained s.now (signedOf 32 (objGet s (Obj.memPackageTemp + pkgOf ch))) ok (chanOf (dimLeft u ch t0) ch) :=
    chanOf_updChan_self _ _ _ (by rw [length_chans_dimLeft]; exact hlu)
  have hfails : (chanOf (chanTrained s (dimLeft u ch t0) ch ok) ch).trainFails = if ok then 0 else 1 := by
    have hc := chanOf_dimLeft Chan.trainFails (fun _ _ => rfl) u ch t0 hlu
    rw [hchanu] at hc
    rw [hchan, trained]
    dsimp only
    rw [hc]
    rcases hok with h | h
    · rw [h]
      rfl
    · dsimp only
      rw [h]
  rw [if_pos (by rw [hfails]; split <;> decide)] at hexec
  refine ⟨_, hexec, ?_, ?_, ?_, ?_, hfails, ?_, fun hi => ?_, ?_⟩
  · have hkeep : footRetrain (chanTrained s (dimLeft u ch t0) ch ok) (chanTrained s (dimLeft u ch t0) ch ok)
        = footRetrain u (chanTrained s (dimLeft u ch t0) ch ok) :=
      Eq.trans rfl (dimLeft_keeps (footRetrain · (chanTrained s (dimLeft u ch t0) ch ok)) (fun _ _ => rfl) u ch t0)
    have hw2 : (chanTrained s (dimLeft u ch t0) ch ok).wires = smErase s.wires (16 + ch) :=
      (dimLeft_keeps State.wires (fun _ _ => rfl) u ch t0).trans hwires
    have hall := (footRetrain_self _).symm.trans (hkeep.trans (hfoot _))
    rw [footRetrain, hw2] at hall
    exact hall
  · rw [hchan]
    exact chanOf_dimLeft Chan.dim (fun _ _ => rfl) u ch t0 hlu
  · rw [hchan]
    rfl
  · rw [hchan]
    exact (chanOf_dimLeft Chan.lastDim (fun _ _ => rfl) u ch t0 hlu).trans (congrArg some hnow)
  · refine Eq.trans (chanState_dimLeft u ch t0) ?_
    rw [hpkgs]
  · refine Eq.trans (objGet_dimLeft_longest u ch t0 hch) ?_
    rw [hobjs _ (by rw [hi]; exact List.not_mem_nil), hnow]
  · have hsame : SameObjs s (dimLeft u ch t0)
        ([Obj.memDimLongestUs, Obj.memThrottleMs, Obj.memState, Obj.memChannelState + ch] ++ islandObjs s (.channel ch)) :=
      (hobjs.mono (List.subset_append_right _ _)).trans
        ((sameObjs_dimLeft u ch t0).mono (List.subset_append_left (l₁ := Obj.memDimLongestUs :: chanObjs ch) _))
    exact hsame.of_dic rfl

/-! ### A soft repair ends (R178) -/

/-- A channel that a row's repair has left. -/
def rowDropped (s : State) (ch bank row : Nat) : State :=
  updChan s ch (fun c => { c with rows := c.rows.filter (fun r => !(r.bank == bank && r.row == row)) })

theorem endRepair_eq (s : State) (ch t0 bank row : Nat) (resource : Bool) (bad : List Nat)
    (hd : (chanOf s ch).dim = some (.repair bank row, t0)) : endRepair s ch resource bad =
    if resource then
      listRepair (objInc (poisonLines (rowDropped (leaveDim s ch t0) ch bank row)
        (bad.filter (fun l => decide (l < lpddrSize / 64) && channelOf (rowDropped (leaveDim s ch t0) ch bank row) (64 * l) == ch)))
        Obj.memSoftRepairs) ch bank row false
    else listRepair (rowDropped (leaveDim s ch t0) ch bank row) ch bank row true := by
  unfold endRepair
  rw [hd]
  rfl

def footRepair (s t : State) : State :=
  { s with dic := t.dic, persist := t.persist, lpddrPoison := t.lpddrPoison, lpddrBad := t.lpddrBad, chans := t.chans
           repairs := t.repairs }

theorem footRepair_self (s : State) : footRepair s s = s := rfl

theorem mem_listRepair (s : State) (ch bank row : Nat) (hard : Bool) :
    { ch := ch, bank := bank, row := row, hard := hard } ∈ (listRepair s ch bank row hard).repairs := by
  simp [listRepair, notePersist]

theorem listRepair_count (s : State) (ch bank row : Nat) (hard : Bool) (k : Nat) :
    objGet (listRepair s ch bank row hard) k = objGet s k := rfl

theorem poisonLines_view {γ : Type} (vw : State → γ) (hg : ∀ s t, vw (footRepair s t) = vw s) (l : List Nat) (s : State) :
    vw (poisonLines s l) = vw s := by
  induction l generalizing s with
  | nil => rfl
  | cons a l ih => exact (ih _).trans (view_of_foot vw hg rfl)

/-- A repaired row written back, before it is listed. -/
def rowRepaired (u : State) (ls : List Nat) : State := objInc (poisonLines u ls) Obj.memSoftRepairs

theorem poisonLines_dic (l : List Nat) (s : State) : (poisonLines s l).dic = s.dic := poisonLines_keeps State.dic (fun _ _ => rfl) s l

theorem poisonLines_chans (l : List Nat) (s : State) : (poisonLines s l).chans = s.chans :=
  poisonLines_keeps State.chans (fun _ _ => rfl) s l

theorem rowRepaired_foot (d : State) (ls : List Nat) : footRepair d (rowRepaired d ls) = rowRepaired d ls :=
  (poisonLines_view (footRepair · (rowRepaired d ls)) (fun _ _ => rfl) ls d).symm

theorem sameObjs_rowRepaired (d : State) (ls : List Nat) : SameObjs d (rowRepaired d ls) [Obj.memSoftRepairs] :=
  ((SameObjs.refl d _).of_dic (poisonLines_dic ls d)).objInc Obj.memSoftRepairs List.mem_cons_self

theorem counted_rowRepaired (d : State) (ls : List Nat) : Counted d (rowRepaired d ls) Obj.memSoftRepairs 1 := by
  rw [Counted, rowRepaired, objInc, objAdd, objGet_objPut_self, objGet_congr d _ _ (poisonLines_dic ls d)]

/-- What a soft repair's end shares, whatever its outcome: the channel is out of Dim and the row is listed. -/
theorem repairListed (s w : State) (ch t0 bank row : Nat) (hard : Bool) (hch : ch < 64)
    (hl : ch < s.chans.length) (hfoot : footRepair (rowDropped (dimLeft s ch t0) ch bank row) w = w)
    (hchans : w.chans = (rowDropped (dimLeft s ch t0) ch bank row).chans)
    (hobjs : SameObjs (dimLeft s ch t0) w [Obj.memSoftRepairs]) :
    listRepair w ch bank row hard = footRepair s (listRepair w ch bank row hard)
      ∧ (chanOf (listRepair w ch bank row hard) ch).dim = none
      ∧ chanState (listRepair w ch bank row hard) ch = (if s.pkgs.getD (pkgOf ch) 0 = 3 then 3 else 0)
      ∧ { ch := ch, bank := bank, row := row, hard := hard } ∈ (listRepair w ch bank row hard).repairs
      ∧ SameObjs s (listRepair w ch bank row hard)
        [Obj.memSoftRepairs, Obj.memDimLongestUs, Obj.memThrottleMs, Obj.memState, Obj.memChannelState + ch] := by
  have hchan : chanOf (listRepair w ch bank row hard) ch = chanOf (rowDropped (dimLeft s ch t0) ch bank row) ch := chanOf_congr hchans ch
  refine ⟨?_, ?_, ?_, mem_listRepair _ _ _ _ _, ?_⟩
  · have h1 : footRepair w (listRepair w ch bank row hard) = footRepair (rowDropped (dimLeft s ch t0) ch bank row)
        (listRepair w ch bank row hard) := by
      rw [← hfoot]
      rfl
    have h2 : footRepair (rowDropped (dimLeft s ch t0) ch bank row) (listRepair w ch bank row hard)
        = footRepair s (listRepair w ch bank row hard) :=
      Eq.trans rfl (dimLeft_keeps (footRepair · (listRepair w ch bank row hard)) (fun _ _ => rfl) s ch t0)
    exact Eq.trans rfl (h1.trans h2)
  · rw [hchan, rowDropped, chanOf_updChan_self _ _ _ (by rw [length_chans_dimLeft]; exact hl)]
    exact chanOf_dimLeft Chan.dim (fun _ _ => rfl) s ch t0 hl
  · have hne : Obj.memChannelState + ch ∉ [Obj.memSoftRepairs] := by
      simp only [List.mem_singleton, Obj.memChannelState, Obj.memSoftRepairs]
      omega
    exact (hobjs _ hne).trans (chanState_dimLeft s ch t0)
  · have h1 : SameObjs s (dimLeft s ch t0)
        [Obj.memSoftRepairs, Obj.memDimLongestUs, Obj.memThrottleMs, Obj.memState, Obj.memChannelState + ch] :=
      (sameObjs_dimLeft s ch t0).mono (List.subset_cons_self Obj.memSoftRepairs (Obj.memDimLongestUs :: chanObjs ch))
    exact (h1.trans (hobjs.mono (by simp))).of_dic rfl

theorem rowListed_lines (d : State) (ch bank row : Nat) (hard : Bool) :
    (listRepair (rowDropped d ch bank row) ch bank row hard).lpddrPoison = d.lpddrPoison
      ∧ (listRepair (rowDropped d ch bank row) ch bank row hard).lpddrBad = d.lpddrBad := ⟨rfl, rfl⟩

theorem softRepairEnd_holds (ch t0 bank row : Nat) (resource : Bool) (bad : List Nat) (s : State) (hch : ch < 64)
    (hd : (chanOf s ch).dim = some (.repair bank row, t0)) (hw : s.host.waits = []) :
    ∃ t, exec (.softRepairEnd ch resource bad) s = .next t
      ∧ t = { s with dic := t.dic, persist := t.persist, lpddrPoison := t.lpddrPoison, lpddrBad := t.lpddrBad,
                     chans := t.chans, repairs := t.repairs }
      ∧ (chanOf t ch).dim = none ∧ chanState t ch = (if s.pkgs.getD (pkgOf ch) 0 = 3 then 3 else 0)
      ∧ { ch := ch, bank := bank, row := row, hard := !resource } ∈ t.repairs
      ∧ (resource = true → Counted s t Obj.memSoftRepairs 1)
      ∧ (resource = false → t.lpddrPoison = s.lpddrPoison ∧ t.lpddrBad = s.lpddrBad)
      ∧ SameObjs s t [Obj.memSoftRepairs, Obj.memDimLongestUs, Obj.memThrottleMs, Obj.memState, Obj.memChannelState + ch] := by
  have hl := dim_exists s ch hd
  have hexec : exec (.softRepairEnd ch resource bad) s = .next (endRepair s ch resource bad) := need_lt hch _
  rw [endRepair_eq s ch t0 bank row resource bad hd, leaveDim_nobody s ch t0 hw] at hexec
  have hdic : SameObjs (dimLeft s ch t0) (rowDropped (dimLeft s ch t0) ch bank row) [Obj.memSoftRepairs] :=
    (SameObjs.refl _ _).of_dic rfl
  cases resource with
  | true =>
    generalize bad.filter (fun l => decide (l < lpddrSize / 64)
      && channelOf (rowDropped (dimLeft s ch t0) ch bank row) (64 * l) == ch) = ls at hexec
    have hkept : objGet (rowDropped (dimLeft s ch t0) ch bank row) Obj.memSoftRepairs = objGet s Obj.memSoftRepairs := by
      refine (Eq.refl (objGet (dimLeft s ch t0) _)).trans (sameObjs_dimLeft s ch t0 _ ?_)
      rw [List.mem_cons, not_or]
      exact ⟨by decide, notMem_chanObjs (by decide) (by decide) (by decide) hch⟩
    have hcount := counted_rowRepaired (rowDropped (dimLeft s ch t0) ch bank row) ls
    rw [Counted, hkept] at hcount
    obtain ⟨h1, h2, h3, h4, h5⟩ := repairListed s (rowRepaired (rowDropped (dimLeft s ch t0) ch bank row) ls) ch t0 bank row false
      hch hl
      (rowRepaired_foot _ _) (poisonLines_chans ls _) (hdic.trans (sameObjs_rowRepaired _ _))
    have hlist : objGet (listRepair (rowRepaired (rowDropped (dimLeft s ch t0) ch bank row) ls) ch bank row false) Obj.memSoftRepairs
        = objGet (rowRepaired (rowDropped (dimLeft s ch t0) ch bank row) ls) Obj.memSoftRepairs := listRepair_count _ _ _ _ _ _
    exact ⟨_, hexec, h1, h2, h3, h4, fun _ => hlist.trans hcount, nofun, h5⟩
  | false =>
    obtain ⟨h1, h2, h3, h4, h5⟩ := repairListed s (rowDropped (dimLeft s ch t0) ch bank row) ch t0 bank row true hch hl
      (footRepair_self _) rfl hdic
    obtain ⟨hp, hb⟩ := rowListed_lines (dimLeft s ch t0) ch bank row true
    have hp' := hp.trans (dimLeft_keeps State.lpddrPoison (fun _ _ => rfl) s ch t0)
    have hb' := hb.trans (dimLeft_keeps State.lpddrBad (fun _ _ => rfl) s ch t0)
    exact ⟨_, hexec, h1, h2, h3, h4, nofun, fun _ => ⟨hp', hb'⟩, h5⟩

/-! ### A channel fails (R179) -/

/-- The engines halted and every queue aborted because of a failed channel. -/
def channelCut (s : State) (ch : Nat) : State :=
  let writes := (chanOf s ch).writeQ.length + (chanOf s ch).writeWait.length
  let u := haltEngines (journal (poisonReads s (fun _ c r => inChannel s ch c r) 4) .outcomeUnknown [writes]) 6
  (smKeys u.queues).foldl abortQueue u

/-- A failed channel, empty. -/
def channelEmptied (s : State) (ch : Nat) : State :=
  updChan s ch (fun c => { c with dim := none, due := [], writeQ := [], writeWait := [], back := [], stalledBy := [] })

/-- The module memory-failed. -/
def channelLost (s : State) (ch : Nat) : State :=
  journalAlert (objPut (setChan (channelEmptied s ch) ch 4) Obj.moduleState 3) .channelFailed [ch]

theorem failChannel_eq (s : State) (ch : Nat) : failChannel s ch = hostSettle (channelLost (channelCut s ch) ch) := rfl

theorem enginesEmpty_channelCut (s : State) (ch : Nat) : EnginesEmpty (channelCut s ch) :=
  enginesEmpty_abortQueues _ _ (enginesEmpty_haltEngines _ _)

theorem stopped_channelCut (s : State) (ch q : Nat) : Stopped (channelCut s ch) q := stopped_allAborted _ _

def footChannelLost (s t : State) : State := { s with dic := t.dic, chans := t.chans, obs := t.obs }

theorem channelLost_keeps {γ : Type} (vw : State → γ) (hg : ∀ s t, vw (footChannelLost s t) = vw s) (s : State) (ch : Nat) :
    vw (channelLost s ch) = vw s := by
  have hempty : vw (channelEmptied s ch) = vw s := view_of_foot vw hg rfl
  have halert (u : State) (e : JEvent) (as : List Nat) : vw (journalAlert u e as) = vw u :=
    journalAlert_keeps vw (fun s t => hg s { s with dic := t.dic, obs := t.obs }) u e as
  have hput (u : State) (k v : Nat) : vw (objPut u k v) = vw u := view_of_foot vw hg rfl
  have hset (u : State) : vw (setChan u ch 4) = vw u := setChan_keeps vw (fun s t => hg s { s with dic := t.dic, chans := t.chans }) u ch 4
  rw [channelLost, halert, hput, hset, hempty]

theorem memState_setChan_failed (s : State) (ch : Nat) (hch : ch < 64) : objGet (setChan s ch 4) Obj.memState = 2 := by
  have hst : chanState (objPut (throttleNoted s ch 4) (Obj.memChannelState + ch) 4) ch = 4 := objGet_objPut_self _ _ _
  rw [setChan_eq, settleMem]
  dsimp only
  rw [if_pos]
  · exact objGet_objPut_self _ _ _
  · exact List.any_eq_true.mpr ⟨ch, List.mem_range.mpr hch, by rw [hst]; rfl⟩

theorem objGet_channelLost (s : State) (ch k : Nat) (h : k ∉ Obj.moduleState :: alertObjs) :
    objGet (channelLost s ch) k = objGet (setChan (channelEmptied s ch) ch 4) k := by
  obtain ⟨h1, h2⟩ := not_or.mp (mt List.mem_cons.mpr h)
  simp only [alertObjs, List.mem_cons, List.not_mem_nil, or_false, not_or] at h2
  obtain ⟨h3, h4, h5⟩ := h2
  rw [channelLost, objGet_journalAlert _ _ _ _ h3 h4 h5, objGet_objPut_ne _ _ _ _ h1]

theorem channelLost_objs (s : State) (ch : Nat) (hch : ch < 64) : chanState (channelLost s ch) ch = 4
    ∧ objGet (channelLost s ch) Obj.memState = 2 ∧ objGet (channelLost s ch) Obj.moduleState = 3 := by
  refine ⟨?_, ?_, ?_⟩
  · refine (objGet_channelLost s ch _ ?_).trans (chanState_setChan_self _ _ _)
    simp only [alertObjs, List.mem_cons, List.not_mem_nil, or_false, Obj.memChannelState, Obj.moduleState, Obj.journalNextSeq,
      Obj.journalDropped, Obj.alertPending]
    omega
  · rw [objGet_channelLost s ch _ (by decide), memState_setChan_failed _ _ hch]
  · rw [channelLost, objGet_journalAlert _ _ _ _ (by decide) (by decide) (by decide), objGet_objPut_self]

theorem channelLost_dim (s : State) (ch : Nat) : (chanOf (channelLost s ch) ch).dim = none := by
  have hc : (channelLost s ch).chans = (setChan (channelEmptied s ch) ch 4).chans :=
    journalAlert_keeps State.chans (fun _ _ => rfl) _ _ _
  rw [chanOf_congr hc, chanOf_setChan_self Chan.dim (fun _ _ => rfl), channelEmptied, chanOf_updChan]
  split
  · rfl
  next h =>
    have hn : chanOf s ch = {} := by simp [chanOf, List.getD, List.getElem?_eq_none (by omega : s.chans.length ≤ ch)]
    rw [hn]

/-- What a failed channel leaves of the module. -/
theorem failChannel_holds (s : State) (ch : Nat) (hch : ch < 64) : chanState (failChannel s ch) ch = 4
    ∧ objGet (failChannel s ch) Obj.memState = 2 ∧ objGet (failChannel s ch) Obj.moduleState = 3
    ∧ (chanOf (failChannel s ch) ch).dim = none ∧ EnginesEmpty (failChannel s ch) ∧ ∀ q, Stopped (failChannel s ch) q := by
  obtain ⟨h1, h2, h3⟩ := channelLost_objs (channelCut s ch) ch hch
  have hdim := channelLost_dim (channelCut s ch) ch
  have hempty : EnginesEmpty (channelLost (channelCut s ch) ch) :=
    (channelLost_keeps EnginesEmpty (fun _ _ => rfl) _ _).mpr (enginesEmpty_channelCut s ch)
  have hstop (q : Nat) : Stopped (channelLost (channelCut s ch) ch) q :=
    (channelLost_keeps (Stopped · q) (fun _ _ => rfl) _ _).mpr (stopped_channelCut s ch q)
  have hr : isReady (channelLost (channelCut s ch) ch) = false := by
    rw [isReady, h3]
    rfl
  have hs {γ : Type} (vw : State → γ) (hg : ∀ s t, vw (footHostIdle s t) = vw s) :
      vw (failChannel s ch) = vw (channelLost (channelCut s ch) ch) := by
    rw [failChannel_eq]
    exact hostSettle_idle vw hg _ hr (by rw [h3]; decide)
  refine ⟨(hs (chanState · ch) (fun _ _ => rfl)).trans h1, (hs (objGet · Obj.memState) (fun _ _ => rfl)).trans h2,
    (hs (objGet · Obj.moduleState) (fun _ _ => rfl)).trans h3, (hs (fun t => (chanOf t ch).dim) (fun _ _ => rfl)).trans hdim,
    (hs EnginesEmpty (fun _ _ => rfl)).mpr hempty, fun q => (hs (Stopped · q) (fun _ _ => rfl)).mpr (hstop q)⟩

/-- The parts of the module that its memory's failure leaves. -/
def unfailed (s : State) : Power × Mgmt × List Link := (s.power, s.mgmt, s.links)

theorem unfailed_failChannel (s : State) (ch : Nat) : unfailed (failChannel s ch) = unfailed s :=
  failChannel_keeps unfailed (fun _ _ => rfl) s ch

theorem failsView_setChan (s : State) (ch st : Nat) : failsView (setChan s ch st) = failsView s := by
  rw [failsView_of_chans (setChan_chans s ch st)]
  unfold throttleNoted
  split
  · exact failsView_updChan _ _ _ (fun _ => rfl)
  · exact failsView_updChan _ _ _ (fun _ => rfl)

theorem failsView_leaveDim (s : State) (ch since : Nat) : failsView (leaveDim s ch since) = failsView s := by
  rw [leaveDim_eq, failsView_hostSettle, dimLeft, failsView_setChan]
  exact failsView_updChan _ _ _ (fun _ => rfl)

/-- A channel that leaves a retraining has the failed ones before it still counted. -/
theorem failsView_left (s : State) (ch since : Nat) : failsView (leaveDim (islandReset s (.channel ch)) ch since) = failsView s :=
  (failsView_leaveDim _ _ _).trans (failsView_of_chans (islandReset_chans _ _))

theorem length_chans_left (s : State) (ch since : Nat) :
    (leaveDim (islandReset s (.channel ch)) ch since).chans.length = s.chans.length := by
  rw [← length_failsView, failsView_left, length_failsView]

theorem trainFails_chanTrained {s u : State} {ch : Nat} (hl : ch < u.chans.length) :
    (chanOf (chanTrained s u ch false) ch).trainFails = (chanOf u ch).trainFails + 1 := by
  rw [chanTrained, chanOf_updChan_self _ _ _ hl]
  rfl

theorem channelFails_holds (ch : Nat) (c : Instr) (s : State) (hch : ch < 64)
    (h : c = .channelFailure ch ∧ chanUp s ch = true
      ∨ ∃ t0, c = .retrainEnd ch false ∧ (chanOf s ch).dim = some (.retrain, t0) ∧ 1 ≤ (chanOf s ch).trainFails) :
    ∃ u, exec c s = .next (failChannel u ch) ∧ unfailed u = unfailed s := by
  rcases h with ⟨rfl, hu⟩ | ⟨t0, rfl, hd, hf⟩
  · exact ⟨s, (need_lt hch _).trans (congrArg Host.Outcome.next (if_pos hu)), rfl⟩
  · have hexec : exec (.retrainEnd ch false) s = .next (endRetrain s ch false) := need_lt hch _
    have hu : unfailed (chanTrained s (leaveDim (islandReset s (.channel ch)) ch t0) ch false) = unfailed s := by
      have h1 : unfailed (chanTrained s (leaveDim (islandReset s (.channel ch)) ch t0) ch false)
          = unfailed (leaveDim (islandReset s (.channel ch)) ch t0) := rfl
      rw [h1, leaveDim_keeps unfailed (fun _ _ => rfl), islandReset_keeps unfailed (fun _ _ => rfl)]
    refine ⟨chanTrained s (leaveDim (islandReset s (.channel ch)) ch t0) ch false, ?_, hu⟩
    rw [hexec, endRetrain_eq s ch t0 false hd, if_neg]
    rw [trainFails_chanTrained (Nat.lt_of_lt_of_eq (dim_exists s ch hd) (length_chans_left s ch t0).symm), trainFails_eq,
      failsView_left, ← trainFails_eq]
    omega

end Sys2Proof.Machine

/-!
Package heat and Dim periods: the clauses of O16 together.
-/

namespace Sys2Proof.Machine

/-- A Dim period that begins at once, when its event falls due or when its turn comes. -/
theorem dimStarts_holds (ch : Nat) (c : Instr) (e : DimEvent) (s : State) (hch : ch < 64) (hp : PartsOk s)
    (ha : dimAllowed s ch = true)
    (hc : c = .retrainStart ch ∧ e = .retrain ∧ retrainDue s ch = true
      ∨ (∃ b r, c = .softRepairStart ch b r ∧ e = .repair b r ∧ repairDue s ch b r = true)
      ∨ (∃ r, c = .dimDeferredStart ch ∧ (chanOf s ch).due = e :: r)) :
    exec c s = .next (startDim s ch e) ∧ ch < s.chans.length := by
  refine ⟨?_, (chans_length hp).symm ▸ hch⟩
  rcases hc with h | h | ⟨r, rfl, hr⟩
  · rw [exec_dimDue hch (.inl h), fallDue_allowed s ch e ha]
  · rw [exec_dimDue hch (.inr h), fallDue_allowed s ch e ha]
  · exact exec_dimDeferred hch hr ha

/-- A failed channel stops the module. -/
theorem channelFailed_holds (ch : Nat) (c : Instr) (s : State) (hch : ch < 64)
    (h : c = .channelFailure ch ∧ chanUp s ch = true
      ∨ ∃ t0, c = .retrainEnd ch false ∧ (chanOf s ch).dim = some (.retrain, t0) ∧ 1 ≤ (chanOf s ch).trainFails) :
    ∃ t, exec c s = .next t ∧ chanState t ch = 4 ∧ objGet t Obj.memState = 2 ∧ objGet t Obj.moduleState = 3
      ∧ (chanOf t ch).dim = none ∧ (∀ g ∈ t.engines, g.ctx = []) ∧ (∀ a ∈ t.arrays, a.run = none ∧ a.fifo = [])
      ∧ t.layers = [] ∧ t.colls = [] ∧ t.waitClaims = []
      ∧ (∀ q v, smGet t.queues q = some v → v.state ≠ 1 ∧ v.state ≠ 2) ∧ t.power = s.power ∧ t.mgmt = s.mgmt ∧ t.links = s.links := by
  obtain ⟨u, hexec, hu⟩ := channelFails_holds ch c s hch h
  obtain ⟨hstate, hmem, hmod, hdim, ⟨hctx, hrun, hlay, hcoll, hclaim⟩, hstop⟩ := failChannel_holds u ch hch
  have hleft := (unfailed_failChannel u ch).trans hu
  simp only [unfailed, Prod.mk.injEq] at hleft
  obtain ⟨hpower, hmgmt, hlinks⟩ := hleft
  exact ⟨_, hexec, hstate, hmem, hmod, hdim, hctx, hrun, hlay, hcoll, hclaim, hstop, hpower, hmgmt, hlinks⟩

/-- Settles O16: readings, Dim periods that begin, wait their turn or end, and failed channels, each by its own lemma. -/
theorem heatAndDimPeriodsHoldChannels : Obligations.HeatAndDimPeriodsHoldChannels := by
  unfold Obligations.HeatAndDimPeriodsHoldChannels
  refine ⟨packageTempRead_holds, channelOvertemp_told, fun ch c e s hch hp ha hc => ?_, fun ch c e s hch hp hu ha hd he hc => ?_,
    retrainEnd_holds, softRepairEnd_holds, fun ch c s hch _ h => channelFailed_holds ch c s hch h⟩
  · obtain ⟨hexec, hl⟩ := dimStarts_holds ch c e s hch hp ha hc
    exact ⟨_, hexec, startDim_holds s ch e hch hl⟩
  · exact ⟨_, exec_dimDue hch hc, fallDue_waits s ch e hu ha hd he ((chans_length hp).symm ▸ hch)⟩

end Sys2Proof.Machine
